-- ==== Sys2Proof/Word.lean ====
section
/-! DEFINITION. The word types of the model, the pair that holds one thing per half, and the sparse table
that holds every keyed collection. The operations on them that a later repair may have to mend stand in
Sys2Proof/Machine/Tbl.lean. -/

namespace Sys2Proof

/-- One byte: the smallest addressable unit of every memory of the device (R10, R18). -/
abbrev Byte := BitVec 8

/-- A 32-bit word: a Flako g-register value, an instruction word, a tile-memory word. -/
abbrev Word := BitVec 32

/-- A 64-bit word: a CSR, a stamp, a Flako-C g-register value. -/
abbrev DWord := BitVec 64

/-- A sparse collection keyed by a number. Its canonical form (keys strictly rising) is `Tbl.wf`. -/
abbrev Tbl (α : Type) := List (Nat × α)

/-- The half H0 or H1 of the device (R1). -/
abbrev Half := Fin 2

/-- One thing for each half of the device (R1). -/
structure Pair (α : Type) where
  h0 : α
  h1 : α
  deriving DecidableEq, Repr

end Sys2Proof
end

