-- ==== Sys2Proof/Syntax.lean ====
section
/-! DEFINITION. The commands of the block: one constructor of `Instr` for each row of spec/opcode_table.json, and the types of
their operands. A command names WHAT happens and to what; a value that only the outside world can supply (the bytes of a
frame, the outcome of a check of stored bits, a temperature) is an operand. -/

namespace Sys2Proof

/-- A tile of a half (R1, R15). -/
abbrev TileIx := Fin 16

/-- A physical port P0–P127 (R2). -/
abbrev PortIx := Fin 128

/-- The units of one device (R31). -/
inductive UnitId where
  | group
  | device
  | privet (n : Fin 15)
  | half (h : Half)
  | hub (h : Half)
  | ford (h : Half)
  | table (h : Half) (n : Fin 8)
  | assoc (h : Half)
  | buffer (h : Half)
  | sched (h : Half)
  | hbmc (h : Half) (st : Fin 2)
  | locks (h : Half)
  | port (p : PortIx)
  | tile (h : Half) (t : TileIx)
  | cluster (h : Half) (t : TileIx) (c : Fin 4)
  | core (h : Half) (t : TileIx) (c : Fin 4) (k : Fin 4)
  | spare (h : Half) (t : TileIx)
  deriving DecidableEq, Repr

/-- The agents with access to the CSR space (R33, R58, R627, R628): Privet firmware, a thread of a half's control cores,
a PCIe function, and the test access port. -/
inductive Agent where
  | privet
  | control (h : Half) (n : Fin 32)
  | pcie (f : Fin 2)
  | jtag
  deriving DecidableEq, Repr

/-- A hardware thread: thread `n` = 32 × cluster + 8 × core + thread of a tile, or thread `n` of a half's control cores. -/
inductive ThreadRef where
  | pk (h : Half) (t : TileIx) (n : Fin 128)
  | cc (h : Half) (n : Fin 32)
  deriving DecidableEq, Repr

/-- A task slot of a tile: 0–2,559 are task slots, 2,560 + j is service slot j (R238). -/
structure TaskRef where
  half : Half
  tile : TileIx
  slot : Fin 2592
  deriving DecidableEq, Repr

/-- A flit of Ford as it arrives: the bundle that carried it and its 256 bytes (R522). -/
structure FordFlit where
  bundle : Fin 16
  bytes : List Byte
  deriving DecidableEq, Repr

/-- The outcome of a check of stored bits, which only the stored bits can tell: clean, one error corrected, or uncorrectable. -/
inductive EccOutcome where
  | clean | corrected | uncorrectable
  deriving DecidableEq, Repr


/-- The commands of the block, one constructor for each row of spec/opcode_table.json. -/
inductive Instr where
  /-- FRAME_START (R94) -/
  | frameStart (p : PortIx)
  /-- FRAME_BYTES (R108) -/
  | frameBytes (p : PortIx) (bytes : List Byte)
  /-- PFC_REFRESH (R116) -/
  | pfcRefresh (p : PortIx) (prio : Fin 8)
  /-- PFC_FRAME_TRANSMIT (R116) -/
  | pfcFrameTransmit (p : PortIx)
  /-- FRAME_END (R108) -/
  | frameEnd (p : PortIx) (pcsError : Bool)
  /-- PFC_RECEIVE (R117) -/
  | pfcReceive (p : PortIx)
  /-- PFC_PAUSE_EXPIRE (R117) -/
  | pfcPauseExpire (p : PortIx) (prio : Fin 8)
  /-- CLASSIFY_FRAME (R118) -/
  | classifyFrame (h : Half)
  /-- PARSE_SECOND_PASS (R127) -/
  | parseSecondPass (h : Half)
  /-- TASK_CREATE (R244) -/
  | taskCreate (h : Half)
  /-- BRAMBLE_SCAN_START (R169) -/
  | brambleScanStart (h : Half) (t : TileIx)
  /-- BRAMBLE_SCAN_END (R170) -/
  | brambleScanEnd (h : Half) (t : TileIx) (slot : Fin 2560)
  /-- TASK_DISPATCH (R257) -/
  | taskDispatch (h : Half) (t : TileIx) (n : Fin 128)
  /-- CONFLUENCE_RELEASE (R265) -/
  | confluenceRelease (h : Half)
  /-- PATIENCE_CHECK (R266) -/
  | patienceCheck (h : Half)
  /-- OLDEST_LIVE_SAMPLE (R270) -/
  | oldestLiveSample (h : Half)
  /-- TABLE_SYNC_NOTICE_SEND (R222) -/
  | tableSyncNoticeSend (h : Half)
  /-- TABLE_SYNC_NOTICE_RECEIVE (R222) -/
  | tableSyncNoticeReceive (h : Half)
  /-- CROSSING_SEND (R524) -/
  | crossingSend (h : Half)
  /-- CROSSING_RECEIPT (R452) -/
  | crossingReceipt (h : Half)
  /-- CROSSING_ACK (R26) -/
  | crossingAck (h : Half)
  /-- REPL_WALK (R449) -/
  | replWalk (h : Half)
  /-- ADMIT_COPY (R445) -/
  | admitCopy (h : Half)
  /-- SPILL_WRITE_ACCEPTED (R457) -/
  | spillWriteAccepted (h : Half) (q : Fin 1088)
  /-- SPILL_FILL (R458) -/
  | spillFill (h : Half) (q : Fin 1088)
  /-- FILL_RETRY (R441) -/
  | fillRetry (h : Half) (q : Fin 1088)
  /-- SCHED_SELECT (R473) -/
  | schedSelect (h : Half) (port : Fin 68)
  /-- REWRITE_FRAME (R486) -/
  | rewriteFrame (h : Half) (port : Fin 68)
  /-- FRAME_TRANSMIT (R94) -/
  | frameTransmit (h : Half) (port : Fin 68)
  /-- TRANSMIT_READ_END (R442) -/
  | transmitReadEnd (h : Half) (port : Fin 68)
  /-- LINK_ATTEMPT_END (R678) -/
  | linkAttemptEnd (p : PortIx) (ok : Bool) (mode : BitVec 5)
  /-- LINK_DOWN (R461) -/
  | linkDown (p : PortIx)
  /-- PORT_HOLD_EXPIRE (R462) -/
  | portHoldExpire (h : Half) (port : Fin 68)
  /-- PORT_FLUSH_ENTRY (R462) -/
  | portFlushEntry (h : Half) (port : Fin 68)
  /-- RECLAIM_VISIT (R438) -/
  | reclaimVisit (h : Half) (cell : Fin 786432)
  /-- COMMIT_NOW (R62) -/
  | commitNow (a : Agent) (u : UnitId)
  /-- COMMIT_ARM (R67) -/
  | commitArm (a : Agent) (u : UnitId)
  /-- COMMIT_DISARM (R67) -/
  | commitDisarm (a : Agent) (u : UnitId)
  /-- COMMIT_AT_WRITE (R67) -/
  | commitAtWrite (a : Agent) (u : UnitId) (stamp : DWord)
  /-- ARMED_COMMIT_START (R67) -/
  | armedCommitStart (u : UnitId)
  /-- COMMIT_REACH (R62) -/
  | commitReach (u : UnitId)
  /-- UNIT_COMMIT_APPLY (R63) -/
  | unitCommitApply (u : UnitId)
  /-- REQUEST_RESET (R54) -/
  | requestReset (a : Agent) (u : UnitId)
  /-- REQUEST_TEST (R54) -/
  | requestTest (a : Agent) (u : UnitId)
  /-- REQUEST_ACTIVE (R54) -/
  | requestActive (a : Agent) (u : UnitId)
  /-- REQUEST_FENCE (R54) -/
  | requestFence (a : Agent) (u : UnitId)
  /-- REQUEST_OFF (R54) -/
  | requestOff (a : Agent) (u : UnitId)
  /-- ACTIVE_TREE (R54) -/
  | activeTree (a : Agent) (u : UnitId)
  /-- UNIT_ENTRY_COMPLETE (R56) -/
  | unitEntryComplete (u : UnitId)
  /-- DEV_REQUEST_RUN (R60) -/
  | devRequestRun (a : Agent)
  /-- DEV_REQUEST_RECOVERY (R60) -/
  | devRequestRecovery (a : Agent)
  /-- CSR_HOLE_ACCESS (R38) -/
  | csrHoleAccess (a : Agent) (addr : BitVec 32)
  /-- CSR_MISALIGNED_ACCESS (R39) -/
  | csrMisalignedAccess (a : Agent) (addr : BitVec 32) (width : Nat)
  /-- REGISTER_WRITE (R19) -/
  | registerWrite (a : Agent) (addr : BitVec 32) (width : Nat) (v : DWord)
  /-- DTS_NOW_READ (R73) -/
  | dtsNowRead (a : Agent) (h : Half)
  /-- INJECT_FORCE_WRITE (R568) -/
  | injectForceWrite (a : Agent) (u : UnitId) (force : BitVec 32)
  /-- INV_ARM (R566) -/
  | invArm (a : Agent) (u : UnitId) (sel : BitVec 8)
  /-- DTS_ALIGN_SEND (R74) -/
  | dtsAlignSend
  /-- DTS_ALIGN_RECEIVE (R75) -/
  | dtsAlignReceive
  /-- DTS_FOLLOWER_SLEW (R75) -/
  | dtsFollowerSlew
  /-- LOAD_NOW (R78) -/
  | loadNow (a : Agent)
  /-- LOAD_ARM (R78) -/
  | loadArm (a : Agent)
  /-- TSYNC_IN_EDGE (R84) -/
  | tsyncInEdge (rising : Bool)
  /-- TSYNC_OUT_RISE (R83) -/
  | tsyncOutRise
  /-- TSYNC_OUT_FALL (R83) -/
  | tsyncOutFall
  /-- DTS_SLEW_WRITE (R81) -/
  | dtsSlewWrite (a : Agent) (dir : Bool) (count : BitVec 32)
  /-- DTS_SLEW_ADJUST (R81) -/
  | dtsSlewAdjust
  /-- PTP_SET (R89) -/
  | ptpSet (a : Agent)
  /-- PTP_ADD (R89) -/
  | ptpAdd (a : Agent)
  /-- PTP_SUB (R89) -/
  | ptpSub (a : Agent)
  /-- PTP_NS_READ (R89) -/
  | ptpNsRead (a : Agent)
  /-- PTP_TXTS_B_READ (R93) -/
  | ptpTxtsBRead (a : Agent) (p : PortIx)
  /-- AGING_VISIT (R228) -/
  | agingVisit (h : Half) (flow : Bool) (index : Nat)
  /-- LOOKUP (R192) -/
  | lookup (th : ThreadRef)
  /-- GROUP_SELECT (R140) -/
  | groupSelect (th : ThreadRef)
  /-- LPM (R201) -/
  | lpm (th : ThreadRef)
  /-- FLOW_FIND (R196) -/
  | flowFind (th : ThreadRef)
  /-- FLOW_FIND_INSERT (R196) -/
  | flowFindInsert (th : ThreadRef)
  /-- FLOW_WRITE (R196) -/
  | flowWrite (th : ThreadRef)
  /-- FLOW_DELETE (R196) -/
  | flowDelete (th : ThreadRef)
  /-- METER (R209) -/
  | meter (th : ThreadRef)
  /-- COUNT (R204) -/
  | count (th : ThreadRef)
  /-- SEARCH (R155) -/
  | search (th : ThreadRef)
  /-- ASSOC_STEP (R147) -/
  | assocStep (th : ThreadRef)
  /-- TABLE_RESPONSE (R188) -/
  | tableResponse (h : Half) (t : TileIx) (id : Nat)
  /-- FLOW_STASH_RETURN (R195) -/
  | flowStashReturn (h : Half) (place : Fin 1024)
  /-- COUNTER_WRITEBACK (R205) -/
  | counterWriteback (h : Half) (pair : Nat)
  /-- COUNTER_READ_SEL_WRITE (R206) -/
  | counterReadSelWrite (a : Agent) (h : Half) (v : DWord)
  /-- COUNTER_READ_DONE (R206) -/
  | counterReadDone (h : Half)
  /-- METER_REFILL (R209) -/
  | meterRefill (h : Half) (index : Nat)
  /-- BUILD (R215) -/
  | build (a : Agent) (h : Half) (slot : Fin 256)
  /-- POST (R217) -/
  | post (a : Agent) (h : Half) (slot : Fin 256)
  /-- BUILD_POST (R218) -/
  | buildPost (a : Agent) (h : Half) (slot : Fin 256)
  /-- ABORT (R218) -/
  | abort (a : Agent) (h : Half) (slot : Fin 256)
  /-- ACK (R218) -/
  | ack (a : Agent) (h : Half) (slot : Fin 256)
  /-- BATCH_RECORD_APPLY (R216) -/
  | batchRecordApply (h : Half)
  /-- BATCH_UNDO_STEP (R215) -/
  | batchUndoStep (h : Half) (slot : Fin 256)
  /-- BATCH_RETIRE_START (R219) -/
  | batchRetireStart (h : Half) (slot : Fin 256)
  /-- RETIRE_WALK_STEP (R219) -/
  | retireWalkStep (h : Half) (slot : Fin 256)
  /-- LEARN_EXAMINE (R226) -/
  | learnExamine (h : Half)
  /-- LEARN_WRITE (R227) -/
  | learnWrite (h : Half)
  /-- LEARN_NOTE_SIZE_WRITE (R232) -/
  | learnNoteSizeWrite (a : Agent) (h : Half) (v : DWord)
  /-- TABLE_ENTRY_REPAIR_DONE (R233) -/
  | tableEntryRepairDone (h : Half) (target : Fin 16) (index : Nat)
  /-- SHADOW_CHECK_VISIT (R235) -/
  | shadowCheckVisit (h : Half) (target : Fin 16) (index : Nat) (differs : Bool) (last : Bool)
  /-- SHADOW_REPAIR_DONE (R236) -/
  | shadowRepairDone (h : Half) (target : Fin 16) (index : Nat)
  /-- ASSOC_SCRUB_VISIT (R159) -/
  | assocScrubVisit (h : Half) (entry : BitVec 16) (ecc : EccOutcome) (found : Bool)
  /-- ASSOC_ENTRY_REPAIR_DONE (R160) -/
  | assocEntryRepairDone (h : Half) (entry : BitVec 16)
  /-- ASSOC_SPARE_FILL_DONE (R161) -/
  | assocSpareFillDone (h : Half)
  /-- BRAMBLE_SCRUB_VISIT (R176) -/
  | brambleScrubVisit (h : Half) (t : TileIx) (pattern : Fin 16384) (ecc : EccOutcome)
  /-- BRAMBLE_RELOAD_DONE (R176) -/
  | brambleReloadDone (h : Half) (t : TileIx) (pattern : Fin 16384)
  /-- CONFIRM_CMP (R179) -/
  | confirmCmp (th : ThreadRef)
  /-- CONFIRM_FIND (R179) -/
  | confirmFind (th : ThreadRef)
  /-- CONFIRM_STEP (R179) -/
  | confirmStep (th : ThreadRef)
  /-- INJECT_QUEUE_ENTRY (R247) -/
  | injectQueueEntry (h : Half)
  /-- SVC_POST_WRITE (R263) -/
  | svcPostWrite (a : Agent) (h : Half) (t : TileIx) (slot : Fin 32) (set : Word)
  /-- SVC_ENABLE_WRITE (R260) -/
  | svcEnableWrite (a : Agent) (h : Half) (t : TileIx) (slot : Fin 32) (v : DWord)
  /-- IMG_ARM (R274) -/
  | imgArm (a : Agent) (h : Half)
  /-- IMG_DISARM (R274) -/
  | imgDisarm (a : Agent) (h : Half)
  /-- IMG_SWITCH (R274) -/
  | imgSwitch (h : Half)
  /-- IMG_DRAIN_END (R274) -/
  | imgDrainEnd (h : Half)
  /-- ADD (R297) -/
  | fkAdd (th : ThreadRef)
  /-- ADDI (R297) -/
  | fkAddi (th : ThreadRef)
  /-- SUB (R297) -/
  | fkSub (th : ThreadRef)
  /-- ADDS (R297) -/
  | fkAdds (th : ThreadRef)
  /-- SUBS (R297) -/
  | fkSubs (th : ThreadRef)
  /-- ADDUS (R297) -/
  | fkAddus (th : ThreadRef)
  /-- SUBUS (R297) -/
  | fkSubus (th : ThreadRef)
  /-- NEG (R298) -/
  | fkNeg (th : ThreadRef)
  /-- ABS (R298) -/
  | fkAbs (th : ThreadRef)
  /-- AND (R297) -/
  | fkAnd (th : ThreadRef)
  /-- OR (R297) -/
  | fkOr (th : ThreadRef)
  /-- XOR (R297) -/
  | fkXor (th : ThreadRef)
  /-- ANDN (R297) -/
  | fkAndn (th : ThreadRef)
  /-- ANDI (R297) -/
  | fkAndi (th : ThreadRef)
  /-- ORI (R297) -/
  | fkOri (th : ThreadRef)
  /-- XORI (R297) -/
  | fkXori (th : ThreadRef)
  /-- LI (R297) -/
  | fkLi (th : ThreadRef)
  /-- LUI (R297) -/
  | fkLui (th : ThreadRef)
  /-- MIN (R297) -/
  | fkMin (th : ThreadRef)
  /-- MAX (R297) -/
  | fkMax (th : ThreadRef)
  /-- MINU (R297) -/
  | fkMinu (th : ThreadRef)
  /-- MAXU (R297) -/
  | fkMaxu (th : ThreadRef)
  /-- SEL (R297) -/
  | fkSel (th : ThreadRef)
  /-- CLZ (R297) -/
  | fkClz (th : ThreadRef)
  /-- CTZ (R297) -/
  | fkCtz (th : ThreadRef)
  /-- POPC (R297) -/
  | fkPopc (th : ThreadRef)
  /-- BSWAP (R297) -/
  | fkBswap (th : ThreadRef)
  /-- EXTU (R299) -/
  | fkExtu (th : ThreadRef)
  /-- EXTS (R299) -/
  | fkExts (th : ThreadRef)
  /-- INS (R299) -/
  | fkIns (th : ThreadRef)
  /-- SLL (R300) -/
  | fkSll (th : ThreadRef)
  /-- SRL (R300) -/
  | fkSrl (th : ThreadRef)
  /-- SRA (R300) -/
  | fkSra (th : ThreadRef)
  /-- ROR (R300) -/
  | fkRor (th : ThreadRef)
  /-- SLS (R300) -/
  | fkSls (th : ThreadRef)
  /-- SLLI (R300) -/
  | fkSlli (th : ThreadRef)
  /-- SRLI (R300) -/
  | fkSrli (th : ThreadRef)
  /-- SRAI (R300) -/
  | fkSrai (th : ThreadRef)
  /-- RORI (R300) -/
  | fkRori (th : ThreadRef)
  /-- SLSI (R300) -/
  | fkSlsi (th : ThreadRef)
  /-- MUL (R301) -/
  | fkMul (th : ThreadRef)
  /-- MULH (R301) -/
  | fkMulh (th : ThreadRef)
  /-- MULHU (R301) -/
  | fkMulhu (th : ThreadRef)
  /-- DIV (R303) -/
  | fkDiv (th : ThreadRef)
  /-- DIVU (R303) -/
  | fkDivu (th : ThreadRef)
  /-- REM (R303) -/
  | fkRem (th : ThreadRef)
  /-- REMU (R303) -/
  | fkRemu (th : ThreadRef)
  /-- FMUL (R307) -/
  | fkFmul (th : ThreadRef)
  /-- MPYF (R305) -/
  | fkMpyf (th : ThreadRef)
  /-- MACF (R305) -/
  | fkMacf (th : ThreadRef)
  /-- MSUF (R305) -/
  | fkMsuf (th : ThreadRef)
  /-- MACI (R305) -/
  | fkMaci (th : ThreadRef)
  /-- AADD (R305) -/
  | fkAadd (th : ThreadRef)
  /-- ASUB (R305) -/
  | fkAsub (th : ThreadRef)
  /-- ANEG (R305) -/
  | fkAneg (th : ThreadRef)
  /-- ASL (R305) -/
  | fkAsl (th : ThreadRef)
  /-- ASR (R305) -/
  | fkAsr (th : ThreadRef)
  /-- ACLR (R305) -/
  | fkAclr (th : ThreadRef)
  /-- MVG (R305) -/
  | fkMvg (th : ThreadRef)
  /-- MVAS (R305) -/
  | fkMvas (th : ThreadRef)
  /-- EXTR (R305) -/
  | fkExtr (th : ThreadRef)
  /-- MVAL (R305) -/
  | fkMval (th : ThreadRef)
  /-- MVAH (R305) -/
  | fkMvah (th : ThreadRef)
  /-- CMP (R308) -/
  | fkCmp (th : ThreadRef)
  /-- CMPI (R308) -/
  | fkCmpi (th : ThreadRef)
  /-- TST (R308) -/
  | fkTst (th : ThreadRef)
  /-- B (R310) -/
  | fkB (th : ThreadRef)
  /-- BCC (R290) -/
  | fkBcc (th : ThreadRef) (n : Fin 3)
  /-- BZ (R310) -/
  | fkBz (th : ThreadRef) (n : Fin 3)
  /-- BNZ (R310) -/
  | fkBnz (th : ThreadRef) (n : Fin 3)
  /-- JR (R310) -/
  | fkJr (th : ThreadRef)
  /-- CALL (R312) -/
  | fkCall (th : ThreadRef)
  /-- CALLR (R312) -/
  | fkCallr (th : ThreadRef)
  /-- RET (R312) -/
  | fkRet (th : ThreadRef)
  /-- RSPUSH (R312) -/
  | fkRspush (th : ThreadRef)
  /-- RSPOP (R312) -/
  | fkRspop (th : ThreadRef)
  /-- TRAP (R314) -/
  | fkTrap (th : ThreadRef)
  /-- BREAK (R377) -/
  | fkBreak (th : ThreadRef)
  /-- TRET (R310) -/
  | fkTret (th : ThreadRef)
  /-- CLRF (R285) -/
  | fkClrf (th : ThreadRef)
  /-- NOP (R310) -/
  | fkNop (th : ThreadRef)
  /-- MFSR (R284) -/
  | fkMfsr (th : ThreadRef)
  /-- MTSR (R284) -/
  | fkMtsr (th : ThreadRef)
  /-- LB (R348) -/
  | fkLb (th : ThreadRef)
  /-- LBU (R348) -/
  | fkLbu (th : ThreadRef)
  /-- LH (R348) -/
  | fkLh (th : ThreadRef)
  /-- LHU (R348) -/
  | fkLhu (th : ThreadRef)
  /-- LW (R348) -/
  | fkLw (th : ThreadRef)
  /-- LHN (R348) -/
  | fkLhn (th : ThreadRef)
  /-- LWN (R348) -/
  | fkLwn (th : ThreadRef)
  /-- SB (R348) -/
  | fkSb (th : ThreadRef)
  /-- SH (R348) -/
  | fkSh (th : ThreadRef)
  /-- SW (R348) -/
  | fkSw (th : ThreadRef)
  /-- SHN (R348) -/
  | fkShn (th : ThreadRef)
  /-- SWN (R348) -/
  | fkSwn (th : ThreadRef)
  /-- PUSH (R327) -/
  | fkPush (th : ThreadRef)
  /-- POP (R327) -/
  | fkPop (th : ThreadRef)
  /-- FRD (R328) -/
  | fkFrd (th : ThreadRef)
  /-- HRD (R331) -/
  | fkHrd (th : ThreadRef)
  /-- HWR (R331) -/
  | fkHwr (th : ThreadRef)
  /-- MEMORY_RESPONSE (R329) -/
  | memoryResponse (h : Half) (t : TileIx) (id : Nat)
  /-- TWAIT (R251) -/
  | fkTwait (th : ThreadRef)
  /-- TDONE (R254) -/
  | fkTdone (th : ThreadRef)
  /-- TDROP (R254) -/
  | fkTdrop (th : ThreadRef)
  /-- POSTF (R333) -/
  | fkPostf (th : ThreadRef)
  /-- WAITEV (R368) -/
  | fkWaitev (th : ThreadRef)
  /-- WAITEV_COMPLETE (R369) -/
  | waitevComplete (th : ThreadRef)
  /-- EVSIG (R365) -/
  | fkEvsig (th : ThreadRef)
  /-- EV_POST_WRITE (R367) -/
  | evPostWrite (a : Agent) (h : Half) (t : TileIx) (n : Fin 128) (set : Word)
  /-- THREAD_TIMER_EXPIRE (R368) -/
  | threadTimerExpire (th : ThreadRef)
  /-- INTERRUPT_TAKE (R373) -/
  | interruptTake (th : ThreadRef)
  /-- EVENT_DEADLOCK (R376) -/
  | eventDeadlock (h : Half) (t : TileIx) (c : Fin 4) (k : Fin 4)
  /-- THREAD_POST (R377) -/
  | threadPost (a : Agent) (th : ThreadRef)
  /-- THREAD_KILL (R380) -/
  | threadKill (a : Agent) (th : ThreadRef)
  /-- THREAD_RESUME (R377) -/
  | threadResume (a : Agent) (th : ThreadRef)
  /-- THREAD_HALT (R378) -/
  | threadHalt (a : Agent) (th : ThreadRef)
  /-- HALT_COMPLETE (R378) -/
  | haltComplete (th : ThreadRef)
  /-- CHSTG (R382) -/
  | fkChstg (th : ThreadRef)
  /-- CHSEND (R383) -/
  | fkChsend (th : ThreadRef)
  /-- CHRECV (R384) -/
  | fkChrecv (th : ThreadRef)
  /-- CHDROP (R382) -/
  | fkChdrop (th : ThreadRef)
  /-- CH_CFG_WRITE (R386) -/
  | chCfgWrite (a : Agent) (h : Half) (control : Bool) (t : TileIx) (ch : Fin 256) (v : DWord)
  /-- LOCK (R388) -/
  | fkLock (th : ThreadRef)
  /-- TRYLOCK (R388) -/
  | fkTrylock (th : ThreadRef)
  /-- UNLOCK (R389) -/
  | fkUnlock (th : ThreadRef)
  /-- LOCKS_FORCE (R391) -/
  | locksForce (a : Agent) (h : Half) (num : Fin 8192)
  /-- CPLOCK (R399) -/
  | fkCplock (th : ThreadRef)
  /-- CPUNLOCK (R399) -/
  | fkCpunlock (th : ThreadRef)
  /-- CPSAVE (R399) -/
  | fkCpsave (th : ThreadRef)
  /-- CPRESTORE (R400) -/
  | fkCprestore (th : ThreadRef)
  /-- CVCFG (R414) -/
  | fkCvcfg (th : ThreadRef)
  /-- CVUPD (R414) -/
  | fkCvupd (th : ThreadRef)
  /-- CVFIN (R414) -/
  | fkCvfin (th : ThreadRef)
  /-- CVAPPEND (R417) -/
  | fkCvappend (th : ThreadRef)
  /-- CVCHECK (R418) -/
  | fkCvcheck (th : ThreadRef)
  /-- HCFG (R419) -/
  | fkHcfg (th : ThreadRef)
  /-- HASH (R419) -/
  | fkHash (th : ThreadRef)
  /-- HASHM (R419) -/
  | fkHashm (th : ThreadRef)
  /-- FDIV (R421) -/
  | fkFdiv (th : ThreadRef)
  /-- LOG2 (R421) -/
  | fkLog2 (th : ThreadRef)
  /-- EXP2 (R421) -/
  | fkExp2 (th : ThreadRef)
  /-- EXP_REQUEST (R427) -/
  | fkExpRequest (th : ThreadRef)
  /-- COPROC_RESPONSE (R397) -/
  | coprocResponse (h : Half) (t : TileIx) (id : Nat)
  /-- COPROC_CANCEL_ACK (R407) -/
  | coprocCancelAck (h : Half) (t : TileIx) (c : Fin 4)
  /-- COPROC_LATE_FAILURE (R408) -/
  | coprocLateFailure (h : Half) (t : TileIx) (id : Nat) (code : BitVec 8)
  /-- EXP_REQ_SEND (R428) -/
  | expReqSend (h : Half)
  /-- EXP_FLIT_RECEIVE (R424): the 64b/66b block on each lane, bit 0 the first bit on the lane; which lanes hold block lock; the skew
between lanes in ns; whether the blocks are alignment blocks, and then the lane numbers they hold (R422) -/
  | expFlitReceive (h : Half) (blocks : List (BitVec 66)) (locked : BitVec 16) (skew : Nat) (alignment : Bool) (numbers : List Nat)
  /-- EXP_RSP_RECEIVE (R428) -/
  | expRspReceive (h : Half) (tag : BitVec 12) (status : BitVec 8) (bytes : List Byte)
  /-- FRAME_IN (R430) -/
  | frameIn (h : Half) (bytes : List Byte)
  /-- EXP_REPLAY (R424) -/
  | expReplay (h : Half)
  /-- EXP_TIMEOUT (R429) -/
  | expTimeout (h : Half) (tag : BitVec 12)
  /-- EXP_LINK_UP (R424) -/
  | expLinkUp (h : Half)
  /-- EXP_LINK_DOWN (R429) -/
  | expLinkDown (h : Half)
  /-- SHAPER_REFILL (R477) -/
  | shaperRefill (h : Half) (level : Fin 3) (index : Fin 1088)
  /-- TELEM_SIZE_WRITE (R492) -/
  | telemSizeWrite (a : Agent) (h : Half) (v : DWord)
  /-- HBM_ACCESS (R505) -/
  | hbmAccess (h : Half) (p : Fin 64) (index : Nat) (ecc : List EccOutcome) (parity : Fin 3)
  /-- HBM_WRITE_TO_ARRAY (R677) -/
  | hbmWriteToArray (h : Half) (p : Fin 64)
  /-- HBM_REFRESH (R508) -/
  | hbmRefresh (h : Half) (p : Fin 64) (bank : Nat)
  /-- HBM_POWER_DOWN (R509) -/
  | hbmPowerDown (h : Half) (p : Fin 64)
  /-- HBM_SCRUB_READ (R513) -/
  | hbmScrubRead (h : Half) (st : Fin 2) (ecc : EccOutcome)
  /-- HBM_ROW_REPAIR_DONE (R514) -/
  | hbmRowRepairDone (h : Half) (p : Fin 64) (bank : Nat) (row : Nat)
  /-- HBM_TRAINING_DONE (R675) -/
  | hbmTrainingDone (h : Half) (st : Fin 2) (ok : Bool)
  /-- POWER_GATE_ENTER (R638) -/
  | powerGateEnter (u : UnitId) (sleep : Bool)
  /-- POWER_WAKE (R638) -/
  | powerWake (u : UnitId)
  /-- FORD_TRAINING_DONE (R527) -/
  | fordTrainingDone (h : Half) (failed : List (Fin 16 × Fin 64))
  /-- FORD_FLIT_RECEIVE (R526) -/
  | fordFlitReceive (h : Half) (flit : FordFlit)
  /-- FORD_LANE_CHECK (R528) -/
  | fordLaneCheck (h : Half) (bundle : Fin 16) (lane : Nat) (errors : Nat)
  /-- FORD_LANE_REPAIR_DONE (R528) -/
  | fordLaneRepairDone (h : Half) (bundle : Fin 16) (lane : Nat)
  /-- FORD_LINK_DOWN (R529) -/
  | fordLinkDown (h : Half)
  /-- HEARTBEAT_SEND (R520) -/
  | heartbeatSend (h : Half)
  /-- HEARTBEAT_RECEIVE (R531) -/
  | heartbeatReceive (h : Half)
  /-- FATAL_NOTICE_RECEIVE (R531) -/
  | fatalNoticeReceive (h : Half)
  /-- PEER_LOST (R532) -/
  | peerLost (h : Half)
  /-- PEER_UP (R533) -/
  | peerUp (h : Half)
  /-- LEARN_SHARE_NOTICE (R534) -/
  | learnShareNotice (h : Half)
  /-- FAULT_REPORT (R549) -/
  | faultReport (u : UnitId) (code : BitVec 8) (detail : DWord)
  /-- REC_ACK (R552) -/
  | recAck (a : Agent) (h : Half) (slot : Fin 512) (merged : BitVec 8)
  /-- REC_LO_READ (R554) -/
  | recLoRead (a : Agent) (h : Half)
  /-- DETAIL_A_READ (R556) -/
  | detailARead (a : Agent) (h : Half)
  /-- DETAIL_B_READ (R556) -/
  | detailBRead (a : Agent) (h : Half)
  /-- HUB_EVENT_TO_PRIVET (R616) -/
  | hubEventToPrivet (h : Half)
  /-- FAULTN_PULSE_END (R564) -/
  | faultnPulseEnd
  /-- SPARE_HANDOVER (R571) -/
  | spareHandover (h : Half) (t : TileIx)
  /-- SELF_TEST_END (R571) -/
  | selfTestEnd (u : UnitId) (ok : Bool)
  /-- REWEIGHT_BATCH (R574) -/
  | reweightBatch (h : Half) (t : TileIx)
  /-- PRIVET_HB_WRITE (R586) -/
  | privetHbWrite (a : Agent) (h : Half) (v : DWord)
  /-- PRIVET_HB_WINDOW (R578) -/
  | privetHbWindow (h : Half)
  /-- PRIVET_RELEASE (R579) -/
  | privetRelease (a : Agent) (h : Half)
  /-- HALF_RESTART (R581) -/
  | halfRestart (h : Half)
  /-- INFO (R620) -/
  | privetInfo (slot : Fin 4)
  /-- IMG_STAGE (R603) -/
  | imgStage (slot : Fin 4)
  /-- IMG_ACTIVATE (R604) -/
  | imgActivate (slot : Fin 4)
  /-- IMG_CONFIRM (R608) -/
  | imgConfirm (slot : Fin 4)
  /-- STORE_COMMIT (R612) -/
  | storeCommit (slot : Fin 4)
  /-- LOG_READ (R615) -/
  | logRead (slot : Fin 4)
  /-- I2C_XFER (R620) -/
  | i2cXfer (slot : Fin 4) (acks : Bool) (bytes : List Byte)
  /-- GRANT (R627) -/
  | grant (slot : Fin 4)
  /-- DEBUG_CHALLENGE (R629) -/
  | debugChallenge (slot : Fin 4)
  /-- DEBUG_UNLOCK (R629) -/
  | debugUnlock (slot : Fin 4)
  /-- CC_RELOAD (R607) -/
  | ccReload (slot : Fin 4)
  /-- MB_GO (R619) -/
  | mbGo (a : Agent) (slot : Fin 4)
  /-- DEBUG_LOCK (R629) -/
  | debugLock (a : Agent)
  /-- DEBUG_TOKEN_EXPIRE (R629) -/
  | debugTokenExpire (scope : Fin 4)
  /-- TFTP_STAGE (R603) -/
  | tftpStage (container : List Byte)
  /-- STORE_AUTO_COMMIT (R614) -/
  | storeAutoCommit
  /-- LOG_FLUSH (R616) -/
  | logFlush
  /-- CAL_VIEW_WRITE (R610) -/
  | calViewWrite (a : Agent) (v : DWord)
  /-- SENSOR_SAMPLE (R617) -/
  | sensorSample (n : Fin 64) (v : BitVec 16)
  /-- SENSE_TEMP_READ (R617) -/
  | senseTempRead (a : Agent) (n : Fin 64)
  /-- THERMAL_RELEASE (R645) -/
  | thermalRelease
  /-- RAIL_SAMPLE (R640) -/
  | railSample (n : Fin 16) (voltage : BitVec 16) (current : BitVec 16)
  /-- CLOCK_MONITOR_WINDOW (R632) -/
  | clockMonitorWindow (h : Half) (core : Nat) (ctl : Nat)
  /-- REFCLK_LOSS (R633) -/
  | refclkLoss
  /-- PLL_UNLOCK (R633) -/
  | pllUnlock
  /-- IO_PLL_UNLOCK (R632) -/
  | ioPllUnlock (pll : Nat)
  /-- DROOP_RISE (R634) -/
  | droopRise (h : Half) (droop : Nat)
  /-- DROOP_FALL (R634) -/
  | droopFall (h : Half)
  /-- DROOP_STAT_READ (R636) -/
  | droopStatRead (a : Agent) (h : Half)
  /-- PFAIL_ASSERT (R642) -/
  | pfailAssert
  /-- PFAIL_DEASSERT (R643) -/
  | pfailDeassert
  /-- PORESET_N (R646) -/
  | poresetN
  /-- SYSRESET_N (R646) -/
  | sysresetN
  /-- RESET_RELEASE (R647) -/
  | resetRelease
  /-- NOS_READY (R648) -/
  | nosReady (a : Agent)
  /-- PCIE_PERST_N (R655) -/
  | pciePerstN (asserted : Bool)
  /-- FUNCTION_LEVEL_RESET (R627) -/
  | functionLevelReset (f : Fin 2)
  /-- MGMT_FRAME_RECEIVE (R625) -/
  | mgmtFrameReceive (bytes : List Byte)
  /-- MGMT_FRAME_TRANSMIT (R624) -/
  | mgmtFrameTransmit
  /-- RING_DELIVER (R624) -/
  | ringDeliver (h : Half) (vport : Fin 2)
  /-- MIRROR_PEER_APPLY (R623) -/
  | mirrorPeerApply (h : Half)
  /-- DRAIN (R357) -/
  | fkDrain (th : ThreadRef)
  /-- ALU64 (R357) -/
  | fkAlu64 (th : ThreadRef)
  /-- ADDI64 (R357) -/
  | fkAddi64 (th : ThreadRef)
  /-- LD (R357) -/
  | fkLd (th : ThreadRef)
  /-- SD (R357) -/
  | fkSd (th : ThreadRef)
  /-- LWU (R357) -/
  | fkLwu (th : ThreadRef)
  /-- SWAPM (R357) -/
  | fkSwapm (th : ThreadRef)
  /-- ADDM (R357) -/
  | fkAddm (th : ThreadRef)
  /-- CASM (R357) -/
  | fkCasm (th : ThreadRef)
  /-- GATE (R358) -/
  | fkGate (th : ThreadRef)
  /-- GRET (R358) -/
  | fkGret (th : ThreadRef)
  /-- MFKR (R358) -/
  | fkMfkr (th : ThreadRef)
  /-- MTKR (R358) -/
  | fkMtkr (th : ThreadRef)
  /-- XLINV (R357) -/
  | fkXlinv (th : ThreadRef)
  /-- EXTEST_LOAD (R662) -/
  | extestLoad
  /-- TRANSMIT_FRAME_END (R471) -/
  | transmitFrameEnd (h : Half) (port : Fin 68)
  /-- HBM_STACK_TEMP_REPORT (R508) -/
  | hbmStackTempReport (h : Half) (st : Fin 2) (temp : BitVec 8)
  /-- REMOTE_FAULT_CHANGE (R106) -/
  | remoteFaultChange (p : PortIx) (on : Bool)
  /-- IO_PLL_RELOCK (R632) -/
  | ioPllRelock (pll : Nat)
  /-- REFCLK_ARRIVAL (R647) -/
  | refclkArrival
  /-- PSTORE_REWRITE_DONE (R558) -/
  | pstoreRewriteDone (h : Half) (t : TileIx) (bank : Bool) (addr : Nat)
  /-- FLASH_ERASE_DONE (R612) -/
  | flashEraseDone (sector : Nat)
  deriving DecidableEq, Repr

end Sys2Proof
end

