-- ==== Sys2Proof/Config.lean ====
section
/-! DEFINITION. What one implementation fixes and the spec leaves open: opaque constants, which no proof can see into. -/

namespace Sys2Proof

/-- The value number `n` that the spec leaves open, in `w` bits. -/
opaque Config.freeValue : (n w : Nat) → BitVec w

/-- The bucket hash of EXACT for a way: TID × 2¹²⁸ + KEY to a number (R193: fixed in the device, not published). -/
opaque Config.exactHash : (way key : Nat) → Nat

/-- The bucket hash of FLOW for a way: TID, KEY_LEN and KEY as one number (R195). -/
opaque Config.flowHash : (way key : Nat) → Nat

/-- The first (0) or second (1) LPM bucket that a record of a route rewrites (R203). -/
opaque Config.lpmBucket : (i key : Nat) → Nat

/-- A record of a route rewrites two buckets and not one (R203). -/
opaque Config.lpmTwo : (key : Nat) → Bool

/-- The port's lanes take their clock from the second SerDes PLL group of its half (R631). -/
opaque Config.secondGroup : (port : Nat) → Bool

/-- FACTORY of a calibration item, in two's complement: a fuse value (R609). -/
opaque Config.factory : (item : Nat) → BitVec 16

/-- KEY_HASH of a signing key slot, 48 bytes; all zero when not programmed (R599). -/
opaque Config.keyHash : (slot : Nat) → List Byte

/-- SHA-384 of some bytes (R595). -/
opaque Config.sha384 : List Byte → List Byte

/-- An ECDSA P-384 signature of a digest verifies under a public key (R598). -/
opaque Config.ecdsaOk : (key digest sig : List Byte) → Bool

/-- A debug token verifies against a nonce under the debug key and DEVICE_ID (R629). -/
opaque Config.tokenOk : (nonce token : List Byte) → Bool

/-- The registers of the BOOT unit at 0x0100–0x0120, from the fuses they show (R599): their layout is not given. -/
opaque Config.bootReg : (i revoke svn1 svn2 svn3 mode : Nat) → DWord

/-- What SFDP reports of the flash the board fits: less than 128 MB, and slow program or suspend times (R593). -/
opaque Config.flashSmall : Bool
opaque Config.flashSlow : Bool

/-- SIZE_LOG2 of the P129 rings, for which the spec gives no register (R624). -/
opaque Config.p129SizeLog2 : Nat

/-- The header of a Ford flit carries the sequence number after that of an earlier header; the spec gives no layout of the header
(R522, R526). -/
opaque Config.fordNext : (earlier header : List Byte) → Bool

/-- The firmware container that a PCIe host writes into Privet's SRAM (R600). -/
opaque Config.hostFirmware : (n : Nat) → List Byte

/-- The contents of a PARSE_BANK section (R596): states, transitions, extraction entries and key profiles, whose layout in the
container is not given. -/
opaque Config.parseStates : List Byte → List (Nat × Nat)
opaque Config.parseTrans : List Byte → List (Nat × Nat)
opaque Config.parseExtr : List Byte → List (Nat × Nat)
opaque Config.parseProfiles : List Byte → List (Nat × List Byte)

end Sys2Proof
end

