-- ==== Sys2Proof/Machine/Tbl.lean ====
section
/-! DEFINITION. The operations on the sparse tables and on the pair of halves, and the few number helpers
(fields of a register, byte lists, two's complement, saturation) that every meaning shares. -/

namespace Sys2Proof

/-- The entry at key `k`, or none. -/
def tget? {α : Type} (t : Tbl α) (k : Nat) : Option α :=
  match t with
  | [] => none
  | (j, v) :: r => if k < j then none else if k = j then some v else tget? r k

/-- The entry at key `k`, or what an unlisted key reads as. -/
def tget {α : Type} (d : α) (t : Tbl α) (k : Nat) : α :=
  match tget? t k with
  | some v => v
  | none => d

/-- List the entry `v` at key `k`, replacing the one there. -/
def tput {α : Type} (t : Tbl α) (k : Nat) (v : α) : Tbl α :=
  match t with
  | [] => [(k, v)]
  | (j, w) :: r =>
    if k < j then (k, v) :: (j, w) :: r
    else if k = j then (k, v) :: r
    else (j, w) :: tput r k v

/-- Drop the entry at key `k`. -/
def tdel {α : Type} (t : Tbl α) (k : Nat) : Tbl α :=
  match t with
  | [] => []
  | (j, w) :: r =>
    if k < j then (j, w) :: r
    else if k = j then r
    else (j, w) :: tdel r k

/-- Store `v` at key `k` where an unlisted key reads as `d`: writing `d` drops the entry. -/
def tset {α : Type} [DecidableEq α] (d : α) (t : Tbl α) (k : Nat) (v : α) : Tbl α :=
  if v = d then tdel t k else tput t k v

/-- Change the entry at key `k` (an unlisted key holds `d`). -/
def tmod {α : Type} [DecidableEq α] (d : α) (t : Tbl α) (k : Nat) (f : α → α) : Tbl α :=
  tset d t k (f (tget d t k))

/-- The canonical form of a table: keys strictly rising. -/
def Tbl.wf {α : Type} (t : Tbl α) : Bool :=
  match t with
  | [] => true
  | [_] => true
  | (j, _) :: (k, w) :: r => decide (j < k) && Tbl.wf ((k, w) :: r)

/-- The thing of half `h`. -/
def Pair.get {α : Type} (p : Pair α) (h : Half) : α := if h = 0 then p.h0 else p.h1

/-- Change the thing of half `h`. -/
def Pair.upd {α : Type} (p : Pair α) (h : Half) (f : α → α) : Pair α :=
  if h = 0 then { p with h0 := f p.h0 } else { p with h1 := f p.h1 }

/-- Change the things of both halves. -/
def Pair.both {α : Type} (p : Pair α) (f : Half → α → α) : Pair α := ⟨f 0 p.h0, f 1 p.h1⟩

/-- The other half. -/
def other (h : Half) : Half := if h = 0 then 1 else 0

/-- Bits [lsb + len − 1 : lsb] of a number. -/
def bits (v lsb len : Nat) : Nat := (v >>> lsb) % 2 ^ len

/-- Field [lsb + len − 1 : lsb] of a 64-bit register. -/
def fld (v : DWord) (lsb len : Nat) : Nat := bits v.toNat lsb len

/-- Bit `i` of a 64-bit register. -/
def bit (v : DWord) (i : Nat) : Bool := v.getLsbD i

/-- A 64-bit register with field [lsb + len − 1 : lsb] set to `x`. -/
def setFld (v : DWord) (lsb len x : Nat) : DWord :=
  let m : DWord := BitVec.ofNat 64 ((2 ^ len - 1) <<< lsb)
  (v &&& ~~~m) ||| (BitVec.ofNat 64 (x <<< lsb) &&& m)

/-- 1 for true and 0 for false. -/
def b2n (b : Bool) : Nat := if b then 1 else 0

/-- The number `n` held at a ceiling. -/
def satTo (n ceil : Nat) : Nat := if n ≤ ceil then n else ceil

/-- The little-endian bytes of a number (R10). -/
def leBytes : Nat → Nat → List Byte
  | 0, _ => []
  | n + 1, v => BitVec.ofNat 8 (v % 256) :: leBytes n (v / 256)

/-- The number a little-endian byte list spells (R10). -/
def leNat : List Byte → Nat
  | [] => 0
  | b :: r => b.toNat + 256 * leNat r

/-- The number a network-order byte list spells (R10). -/
def beNat (l : List Byte) : Nat := leNat l.reverse

/-- The network-order bytes of a number (R10). -/
def beBytes (n v : Nat) : List Byte := (leBytes n v).reverse

/-- `n` bytes of a byte table from address `a` on; an unlisted byte reads zero. -/
def tbytes (t : Tbl Byte) (a : Nat) : Nat → List Byte
  | 0 => []
  | n + 1 => tget 0 t a :: tbytes t (a + 1) n

/-- Store bytes into a byte table from address `a` on. -/
def tstore (t : Tbl Byte) (a : Nat) : List Byte → Tbl Byte
  | [] => t
  | b :: r => tstore (tset 0 t a b) (a + 1) r

/-- The bytes `[off, off + n)` of a byte list. -/
def slice (l : List Byte) (off n : Nat) : List Byte := (l.drop off).take n

/-- A byte list with `new` written over it from `off` on (bytes beyond its end are appended). -/
def overlay (l : List Byte) (off : Nat) (new : List Byte) : List Byte :=
  l.take off ++ new ++ l.drop (off + new.length)

/-- A byte list cut or padded with zeros to `n` bytes. -/
def padTo (l : List Byte) (n : Nat) : List Byte := l.take n ++ List.replicate (n - l.length) 0

/-- The number of set bits below bit `n`. -/
def popBelow (v : Nat) : Nat → Nat
  | 0 => 0
  | n + 1 => b2n (v.testBit n) + popBelow v n

/-- The entry of a list at an index, or `d`. -/
def nth {α : Type} (d : α) (l : List α) (i : Nat) : α := l.getD i d

/-- A list with the entry at index `i` replaced. -/
def setNth {α : Type} (l : List α) (i : Nat) (v : α) : List α := l.set i v

/-- The two's complement value of the low `w` bits of a number. -/
def signed (w v : Nat) : Int :=
  let u := v % 2 ^ w
  if u < 2 ^ (w - 1) then (u : Int) else (u : Int) - (2 ^ w : Nat)

/-- The low `w` bits of an integer, as a number. -/
def unsigned (w : Nat) (i : Int) : Nat := (i % ((2 ^ w : Nat) : Int)).toNat

/-- An integer held between two bounds. -/
def clampInt (lo hi i : Int) : Int := if i < lo then lo else if hi < i then hi else i

end Sys2Proof
end

