-- ==== Sys2Proof/Machine/Regs.lean ====
section
/-! DEFINITION. Every register of the CSR space, block by block: its offset, how often it repeats, its fields
with their types (R19) and reset values, each row under the rule of the spec that gives it. The rows are written from the
spec's register tables. A reset value the spec does not give as one number has a name of its own (`Rst`). -/

namespace Sys2Proof

/-- The access type of a field (R19). -/
inductive FTy where
  | rw | ro | w1c | wo | st | rwl
  deriving DecidableEq, Repr

/-- The reset value of a field: a number, or one that depends on the register's place in its array or on the unit. -/
inductive Rst where
  /-- one number -/
  | val (n : Nat)
  /-- the DSCP map: code point d maps to priority d / 8 (R119); `k` is the entry of the register -/
  | dscp (k : Nat)
  /-- LEARN_AGE_THR_0 field T0 resets to 0, every other threshold to 0x7FFF (R230) -/
  | ageThr
  /-- CLASS_BANKS_0 names every bank, the others none (R164) -/
  | clsBanks
  /-- the pool sizes of R466 -/
  | poolSize
  /-- the PFC priority of a queue: its index within its port divided by 2 (R492) -/
  | qPfc
  /-- the priority of a class: its class number (R492) -/
  | cPrio
  /-- the under-voltage limit of a rail monitor, 90 per cent of the rail (R641) -/
  | railUv
  /-- the over-voltage limit of a rail monitor, 110 per cent of the rail (R641) -/
  | railOv
  /-- read from hardware data that no reset loads (fuses, descriptors): computed at the read -/
  | hw
  deriving DecidableEq, Repr

/-- One field of a register: its place, its access type and its reset value. -/
structure FieldRow where
  lsb : Nat
  len : Nat
  ty : FTy
  rst : Rst
  deriving DecidableEq, Repr

/-- One row of a register table: offset, repeat stride and count, fields. -/
structure RegRow where
  off : Nat
  stride : Nat
  count : Nat
  fields : List FieldRow
  deriving DecidableEq, Repr

/-- The register blocks of the CSR space (R34, R36, R591, R621). -/
inductive BlkKind where
  | ucb
  | device
  | group
  | half
  | cc
  | hub
  | ford
  | flow
  | lpm
  | counter
  | learn
  | shadow
  | version
  | assoc
  | buffer
  | sched
  | shaper
  | hbmc
  | locks
  | port
  | tile
  | tsched
  | bramble
  | channel
  | coproc
  | core
  | cal
  | boot
  | sense
  | mbox
  | mgmt
  | pcie
  | debug
  /-- a block that holds a UCB and nothing else the spec maps -/
  | bare
  deriving DecidableEq, Repr

/-- Registers of the ucb block. -/
def regRows_ucb : List RegRow := [
  ⟨0x0, 0, 1, [⟨40, 8, .ro, (.val 0)⟩, ⟨32, 8, .ro, (.val 0xB0)⟩, ⟨16, 16, .ro, (.val 0)⟩, ⟨12, 4, .ro, (.val 0)⟩, ⟨0, 8, .ro, (.val 0)⟩]⟩,  -- UNIT_ID R41
  ⟨0x8, 0, 1, [⟨32, 8, .ro, (.val 0)⟩, ⟨20, 3, .wo, (.val 0)⟩, ⟨16, 3, .ro, (.val 0)⟩, ⟨8, 3, .wo, (.val 0)⟩, ⟨0, 3, .ro, (.val 1)⟩]⟩,  -- UNIT_STATE R44
  ⟨0x10, 0, 1, [⟨0, 64, .ro, (.val 0)⟩]⟩,  -- CHILD_MAP R46
  ⟨0x18, 0, 1, [⟨49, 1, .ro, (.val 0)⟩, ⟨48, 1, .ro, (.val 0)⟩, ⟨16, 32, .ro, (.val 0)⟩, ⟨0, 16, .wo, (.val 0)⟩]⟩,  -- COMMIT R47
  ⟨0x20, 0, 1, [⟨32, 2, .ro, (.val 0)⟩, ⟨0, 32, .ro, (.val 0)⟩]⟩,  -- FAULT_SUMMARY R48
  ⟨0x28, 0, 1, [⟨1, 1, .rw, (.val 0)⟩, ⟨0, 1, .rw, (.val 0)⟩]⟩,  -- FAULT_MASK R49
  ⟨0x30, 0, 1, [⟨8, 3, .ro, (.val 0)⟩, ⟨4, 2, .rw, (.val 2)⟩, ⟨0, 1, .rw, (.val 1)⟩]⟩,  -- POWER_STATE R50
  ⟨0x38, 0, 1, [⟨49, 1, .ro, (.val 0)⟩, ⟨48, 1, .wo, (.val 0)⟩, ⟨40, 8, .rw, (.val 0)⟩, ⟨0, 32, .rw, (.val 0)⟩]⟩,  -- INJECT R51
  ⟨0x40, 0, 1, [⟨0, 64, .ro, (.val 0)⟩]⟩,  -- LAST_COMMIT_STAMP R53
  ⟨0x48, 0, 1, [⟨0, 64, .ro, (.val 0)⟩]⟩,  -- CHILD_MAP_HI R46
  ⟨0x50, 0, 1, [⟨0, 64, .rw, (.val 0)⟩]⟩  -- COMMIT_AT R53
]

/-- Registers of the device block. -/
def regRows_device : List RegRow := [
  ⟨0x100, 0, 1, [⟨32, 16, .ro, (.val 0)⟩, ⟨2, 1, .wo, (.val 0)⟩, ⟨1, 1, .wo, (.val 0)⟩, ⟨0, 1, .ro, (.val 0)⟩]⟩,  -- DTS_CTL R78
  ⟨0x108, 0, 1, [⟨0, 64, .rwl, (.val 0)⟩]⟩,  -- DTS_LOAD R78
  ⟨0x110, 0, 1, [⟨49, 1, .ro, (.val 0)⟩, ⟨48, 1, .rw, (.val 0)⟩, ⟨0, 32, .rw, (.val 0)⟩]⟩,  -- DTS_SLEW R81
  ⟨0x118, 0, 1, [⟨32, 32, .rw, (.val 0)⟩, ⟨16, 16, .rw, (.val 100)⟩, ⟨3, 1, .rw, (.val 0)⟩, ⟨2, 1, .rw, (.val 0)⟩, ⟨1, 1, .rw, (.val 0)⟩, ⟨0, 1, .rw, (.val 0)⟩]⟩,  -- TSYNC_CFG R86
  ⟨0x120, 0, 1, [⟨0, 64, .ro, (.val 0)⟩]⟩,  -- TSYNC_CAP R86
  ⟨0x128, 0, 1, [⟨32, 32, .ro, (.val 0)⟩, ⟨0, 1, .w1c, (.val 0)⟩]⟩,  -- TSYNC_STAT R86
  ⟨0x130, 0, 1, [⟨32, 4, .rw, (.val 0)⟩, ⟨0, 32, .rw, (.val 0xAAAAAAAB)⟩]⟩,  -- PTP_INCR R89
  ⟨0x138, 0, 1, [⟨0, 48, .ro, (.val 0)⟩]⟩,  -- PTP_SEC R89
  ⟨0x140, 0, 1, [⟨32, 32, .ro, (.val 0)⟩, ⟨0, 30, .ro, (.val 0)⟩]⟩,  -- PTP_NS R89
  ⟨0x148, 0, 1, [⟨0, 64, .ro, (.val 0)⟩]⟩,  -- PTP_DTS R89
  ⟨0x150, 0, 1, [⟨0, 48, .rw, (.val 0)⟩]⟩,  -- PTP_ADJ_SEC R89
  ⟨0x158, 0, 1, [⟨0, 30, .rw, (.val 0)⟩]⟩,  -- PTP_ADJ_NS R89
  ⟨0x160, 0, 1, [⟨2, 1, .wo, (.val 0)⟩, ⟨1, 1, .wo, (.val 0)⟩, ⟨0, 1, .wo, (.val 0)⟩]⟩,  -- PTP_CTL R89
  ⟨0x200, 0, 1, [⟨34, 1, .ro, (.val 0)⟩, ⟨33, 1, .ro, (.val 0)⟩, ⟨32, 1, .rw, (.val 0)⟩, ⟨0, 10, .rwl, (.val 1)⟩]⟩,  -- FAULTN_CTL R588
  ⟨0x300, 0, 1, [⟨1, 1, .wo, (.val 0)⟩, ⟨0, 1, .rwl, (.val 0)⟩]⟩,  -- START_CTL R648
  ⟨0x308, 0, 1, [⟨9, 1, .ro, (.val 0)⟩, ⟨8, 1, .ro, (.val 0)⟩, ⟨0, 8, .ro, (.val 0)⟩]⟩,  -- START_STAT R648
  ⟨0x310, 0, 1, [⟨48, 16, .ro, (.val 0)⟩, ⟨2, 1, .ro, (.val 0)⟩, ⟨1, 1, .w1c, (.val 0)⟩, ⟨0, 1, .ro, (.val 0)⟩]⟩,  -- PWR_STAT R643
  ⟨0x318, 0, 1, [⟨16, 6, .ro, (.val 0)⟩, ⟨9, 1, .ro, (.val 0)⟩, ⟨0, 1, .rw, (.val 0)⟩]⟩,  -- THERM_CTL R645
  ⟨0x400, 8, 16, [⟨32, 16, .rwl, .railUv⟩, ⟨16, 16, .rwl, .railOv⟩, ⟨0, 1, .rwl, (.val 1)⟩]⟩  -- RAIL_LIMIT R641
]

/-- Registers of the group block. -/
def regRows_group : List RegRow := [
  ⟨0x100, 0, 1, [⟨32, 16, .rwl, (.val 0)⟩, ⟨16, 4, .rwl, (.val 0)⟩, ⟨0, 16, .rwl, (.val 0)⟩]⟩,  -- GROUP_CFG R543
  ⟨0x200, 8, 16, [⟨32, 2, .rw, (.val 0)⟩, ⟨16, 3, .rw, (.val 0)⟩]⟩  -- REMOTE_SUMMARY R543
]

/-- Registers of the half block, part 1. -/
def regRows_half_1 : List RegRow := [
  ⟨0x100, 0, 1, [⟨0, 64, .ro, (.val 0)⟩]⟩,  -- DTS_NOW R73
  ⟨0x108, 0, 1, [⟨41, 1, .ro, (.val 0)⟩, ⟨40, 1, .ro, (.val 0)⟩, ⟨16, 16, .ro, (.val 0)⟩, ⟨0, 8, .ro, (.val 0)⟩]⟩,  -- DTS_ALIGN R674
  ⟨0x220, 8, 4, [⟨60, 3, .rw, (.dscp 15)⟩, ⟨56, 3, .rw, (.dscp 14)⟩, ⟨52, 3, .rw, (.dscp 13)⟩, ⟨48, 3, .rw, (.dscp 12)⟩, ⟨44, 3, .rw, (.dscp 11)⟩, ⟨40, 3, .rw, (.dscp 10)⟩, ⟨36, 3, .rw, (.dscp 9)⟩, ⟨32, 3, .rw, (.dscp 8)⟩, ⟨28, 3, .rw, (.dscp 7)⟩, ⟨24, 3, .rw, (.dscp 6)⟩, ⟨20, 3, .rw, (.dscp 5)⟩, ⟨16, 3, .rw, (.dscp 4)⟩, ⟨12, 3, .rw, (.dscp 3)⟩, ⟨8, 3, .rw, (.dscp 2)⟩, ⟨4, 3, .rw, (.dscp 1)⟩, ⟨0, 3, .rw, (.dscp 0)⟩]⟩,  -- DSCP_MAP R119
  ⟨0x240, 0, 1, [⟨0, 64, .ro, (.val 0)⟩]⟩,  -- CLS_STALL_TICKS R144
  ⟨0x248, 0, 1, [⟨0, 64, .ro, (.val 0)⟩]⟩,  -- OUTER_FRAGMENT R144
  ⟨0x250, 0, 1, [⟨0, 64, .ro, (.val 0)⟩]⟩,  -- OUTER_UNKNOWN_TUNNEL R144
  ⟨0x258, 0, 1, [⟨0, 64, .ro, (.val 0)⟩]⟩,  -- OUTER_DEPTH R144
  ⟨0x260, 0, 1, [⟨0, 64, .ro, (.val 0)⟩]⟩,  -- OUTER_WINDOW R144
  ⟨0x268, 0, 1, [⟨0, 64, .ro, (.val 0)⟩]⟩,  -- OUTER_MALFORMED R144
  ⟨0x270, 0, 1, [⟨0, 64, .ro, (.val 0)⟩]⟩,  -- OUTER_STEPS R144
  ⟨0x278, 0, 1, [⟨0, 64, .ro, (.val 0)⟩]⟩,  -- IND_REDIRECT R144
  ⟨0x280, 0, 1, [⟨0, 64, .ro, (.val 0)⟩]⟩,  -- IND_MOVE_HOLD R144
  ⟨0x288, 0, 1, [⟨0, 64, .ro, (.val 0)⟩]⟩,  -- TWO_PASS R144
  ⟨0x290, 0, 1, [⟨0, 64, .ro, (.val 0)⟩]⟩,  -- VPORT_OVERSIZE R144
  ⟨0x300, 0, 1, [⟨48, 16, .ro, (.val 0)⟩, ⟨4, 2, .st, (.val 3)⟩, ⟨0, 3, .st, (.val 2)⟩]⟩,  -- BRAMBLE_CFG R182
  ⟨0x400, 0, 1, [⟨0, 64, .ro, (.val 0)⟩]⟩,  -- OLDEST_LIVE R272
  ⟨0x410, 8, 8, [⟨0, 10, .rw, (.val 50)⟩]⟩,  -- PATIENCE R279
  ⟨0x450, 0, 1, [⟨48, 16, .ro, (.val 0)⟩, ⟨4, 2, .ro, (.val 0)⟩, ⟨2, 1, .wo, (.val 0)⟩, ⟨1, 1, .wo, (.val 0)⟩, ⟨0, 1, .ro, (.val 0)⟩]⟩,  -- IMG_CTL R279
  ⟨0x458, 0, 1, [⟨0, 64, .rw, (.val 0)⟩]⟩,  -- IMG_SWITCH_AT R279
  ⟨0x480, 0, 1, [⟨0, 64, .ro, (.val 0)⟩]⟩,  -- LATE_RELEASES R280
  ⟨0x488, 0, 1, [⟨0, 64, .ro, (.val 0)⟩]⟩,  -- OVERTAKEN_PATIENCE R280
  ⟨0x490, 0, 1, [⟨0, 64, .ro, (.val 0)⟩]⟩,  -- WINDOW_OVERTAKEN R280
  ⟨0x498, 0, 1, [⟨0, 64, .ro, (.val 0)⟩]⟩,  -- ATOMIC_STALL_TICKS R280
  ⟨0x4A0, 0, 1, [⟨0, 64, .ro, (.val 0)⟩]⟩,  -- INJECT_STALL_TICKS R280
  ⟨0x4A8, 0, 1, [⟨0, 64, .ro, (.val 0)⟩]⟩,  -- ORDERED_RELEASES R280
  ⟨0x500, 0, 1, [⟨12, 36, .rwl, (.val 0)⟩]⟩,  -- PKT_HBM_BASE R330
  ⟨0x508, 0, 1, [⟨12, 36, .rwl, (.val 0)⟩]⟩,  -- PKT_HBM_LIMIT R330
  ⟨0x600, 0, 1, [⟨32, 10, .rw, (.val 10)⟩, ⟨1, 1, .rw, (.val 0)⟩, ⟨0, 1, .rw, (.val 0)⟩]⟩,  -- EXP_CFG R431
  ⟨0x608, 0, 1, [⟨32, 1, .rwl, (.val 0)⟩, ⟨16, 16, .rwl, (.val 0)⟩, ⟨0, 16, .rwl, (.val 0)⟩]⟩,  -- EXP_LANE R431
  ⟨0x610, 0, 1, [⟨48, 13, .ro, (.val 0)⟩, ⟨2, 1, .ro, (.val 0)⟩, ⟨1, 1, .ro, (.val 0)⟩, ⟨0, 1, .ro, (.val 0)⟩]⟩  -- EXP_STAT R431
]

/-- Registers of the half block, part 2. -/
def regRows_half_2 : List RegRow := [
  ⟨0x620, 0, 1, [⟨0, 64, .ro, (.val 0)⟩]⟩,  -- EXP_REQUESTS R431
  ⟨0x628, 0, 1, [⟨0, 64, .ro, (.val 0)⟩]⟩,  -- EXP_RESPONSES R431
  ⟨0x630, 0, 1, [⟨0, 64, .ro, (.val 0)⟩]⟩,  -- EXP_TIMEOUTS R431
  ⟨0x638, 0, 1, [⟨0, 64, .ro, (.val 0)⟩]⟩,  -- EXP_LATE_RSP R431
  ⟨0x640, 0, 1, [⟨0, 64, .ro, (.val 0)⟩]⟩,  -- EXP_CRC_ERR R431
  ⟨0x648, 0, 1, [⟨0, 64, .ro, (.val 0)⟩]⟩,  -- EXP_REPLAYS R431
  ⟨0x650, 0, 1, [⟨0, 64, .ro, (.val 0)⟩]⟩,  -- EXP_FRAME_DROP R431
  ⟨0x700, 16, 4, [⟨0, 16, .rw, (.val 500)⟩]⟩,  -- HOLD_CFG_V R469
  ⟨0x708, 16, 4, [⟨32, 2, .ro, (.val 0)⟩, ⟨0, 16, .ro, (.val 0)⟩]⟩,  -- HOLD_STAT_V R469
  ⟨0x740, 8, 4, [⟨48, 16, .rw, (.val 0x2800)⟩, ⟨8, 8, .rw, (.val 0)⟩, ⟨4, 4, .rw, (.val 0)⟩, ⟨0, 3, .rw, (.val 0)⟩]⟩,  -- VPORT_CFG R112
  ⟨0x800, 0, 1, [⟨0, 8, .rw, (.val 35)⟩]⟩,  -- DROOP_CFG R636
  ⟨0x808, 0, 1, [⟨8, 3, .ro, (.val 0)⟩, ⟨0, 3, .ro, (.val 0)⟩]⟩,  -- DROOP_STAT R636
  ⟨0x810, 0, 1, [⟨0, 64, .ro, (.val 0)⟩]⟩,  -- STRETCHED_CYCLES R636
  ⟨0x818, 0, 1, [⟨0, 64, .ro, (.val 0)⟩]⟩,  -- DROOP_EVENTS R636
  ⟨0x1000, 8, 256, [⟨60, 3, .rw, (.val 0)⟩, ⟨56, 3, .rw, (.val 0)⟩, ⟨52, 3, .rw, (.val 0)⟩, ⟨48, 3, .rw, (.val 0)⟩, ⟨44, 3, .rw, (.val 0)⟩, ⟨40, 3, .rw, (.val 0)⟩, ⟨36, 3, .rw, (.val 0)⟩, ⟨32, 3, .rw, (.val 0)⟩, ⟨28, 3, .rw, (.val 0)⟩, ⟨24, 3, .rw, (.val 0)⟩, ⟨20, 3, .rw, (.val 0)⟩, ⟨16, 3, .rw, (.val 0)⟩, ⟨12, 3, .rw, (.val 0)⟩, ⟨8, 3, .rw, (.val 0)⟩, ⟨4, 3, .rw, (.val 0)⟩, ⟨0, 3, .rw, (.val 0)⟩]⟩  -- DOM_CLASS R279
]

/-- Registers of the half block. -/
def regRows_half : List RegRow := regRows_half_1 ++ regRows_half_2

/-- Registers of the cc block. -/
def regRows_cc : List RegRow := [
  ⟨0x100, 8, 64, [⟨31, 1, .rw, (.val 0)⟩, ⟨24, 7, .rw, (.val 0)⟩, ⟨16, 5, .rw, (.val 8)⟩, ⟨8, 4, .rw, (.val 2)⟩, ⟨1, 1, .ro, (.val 0)⟩, ⟨0, 1, .rw, (.val 0)⟩]⟩,  -- CC_CH_CFG R621
  ⟨0x400, 0, 1, [⟨0, 1, .rw, (.val 0)⟩]⟩,  -- CC_CTL R621
  ⟨0x408, 0, 1, [⟨0, 48, .rw, (.val 0)⟩]⟩,  -- CC_ENTRY R621
  ⟨0x420, 0, 1, [⟨20, 28, .rwl, (.val 0)⟩]⟩,  -- MIRROR_OWN R621
  ⟨0x428, 0, 1, [⟨20, 28, .rwl, (.val 0)⟩]⟩,  -- MIRROR_PEER R621
  ⟨0x430, 0, 1, [⟨0, 16, .rwl, (.val 0)⟩]⟩,  -- MIRROR_SIZE R621
  ⟨0x440, 32, 3, [⟨5, 43, .rwl, (.val 0)⟩]⟩,  -- RING_BASE R621
  ⟨0x448, 32, 3, [⟨44, 20, .rw, (.val 0)⟩, ⟨24, 20, .ro, (.val 0)⟩, ⟨16, 4, .rw, (.val 6)⟩]⟩,  -- RING_CTL R624
  ⟨0x450, 32, 3, [⟨8, 5, .rw, (.val 0)⟩, ⟨0, 5, .rw, (.val 0)⟩]⟩,  -- RING_EVENT R621
  ⟨0x600, 0, 1, [⟨0, 64, .ro, (.val 0)⟩]⟩,  -- MIRROR_UNSENT R621
  ⟨0x700, 8, 32, [⟨32, 17, .ro, (.val 0)⟩, ⟨12, 3, .rw, (.val 0)⟩, ⟨8, 3, .ro, (.val 0)⟩, ⟨3, 1, .wo, (.val 0)⟩, ⟨2, 1, .wo, (.val 0)⟩, ⟨1, 1, .wo, (.val 0)⟩, ⟨0, 1, .wo, (.val 0)⟩]⟩  -- CC_THREAD_CTL R621
]

/-- Registers of the hub block. -/
def regRows_hub : List RegRow := [
  ⟨0x100, 0, 1, [⟨0, 9, .rw, (.val 0)⟩]⟩,  -- REC_SEL R586
  ⟨0x108, 0, 1, [⟨0, 64, .ro, (.val 0)⟩]⟩,  -- REC_LO R586
  ⟨0x110, 0, 1, [⟨0, 64, .ro, (.val 0)⟩]⟩,  -- REC_HI R586
  ⟨0x118, 0, 1, [⟨16, 8, .wo, (.val 0)⟩, ⟨9, 1, .wo, (.val 0)⟩, ⟨0, 9, .wo, (.val 0)⟩]⟩,  -- REC_ACK R586
  ⟨0x120, 8, 8, [⟨0, 64, .ro, (.val 0)⟩]⟩,  -- OPEN_MAP R586
  ⟨0x180, 0, 1, [⟨15, 1, .rw, (.val 0)⟩, ⟨0, 6, .rw, (.val 0)⟩]⟩,  -- NOTE_CFG R586
  ⟨0x188, 0, 1, [⟨0, 64, .wo, (.val 0)⟩]⟩,  -- PRIVET_HB R586
  ⟨0x190, 0, 1, [⟨20, 1, .wo, (.val 0)⟩, ⟨16, 2, .ro, (.val 0)⟩, ⟨8, 8, .ro, (.val 0)⟩, ⟨0, 8, .ro, (.val 0)⟩]⟩,  -- PRIVET_STAT R586
  ⟨0x198, 0, 1, [⟨0, 1, .rw, (.val 0)⟩]⟩,  -- SAFE_CFG R586
  ⟨0x1A0, 0, 1, [⟨8, 4, .rw, (.val 3)⟩, ⟨1, 1, .rw, (.val 1)⟩, ⟨0, 1, .rw, (.val 1)⟩]⟩,  -- RECOVERY_CFG R586
  ⟨0x1A8, 0, 1, [⟨63, 1, .ro, (.val 0)⟩, ⟨40, 8, .ro, (.val 0)⟩, ⟨0, 9, .ro, (.val 0)⟩]⟩,  -- DETAIL_A R556
  ⟨0x1B0, 0, 1, [⟨0, 64, .ro, (.val 0)⟩]⟩,  -- DETAIL_B R586
  ⟨0x200, 0, 1, [⟨0, 64, .ro, (.val 0)⟩]⟩,  -- MERGES R587
  ⟨0x208, 0, 1, [⟨0, 64, .ro, (.val 0)⟩]⟩,  -- ACK_STALE R587
  ⟨0x210, 0, 1, [⟨0, 64, .ro, (.val 0)⟩]⟩,  -- LOG_LOST R587
  ⟨0x218, 0, 1, [⟨0, 64, .ro, (.val 0)⟩]⟩,  -- SAFE_ENTRIES R587
  ⟨0x220, 0, 1, [⟨0, 64, .ro, (.val 0)⟩]⟩  -- DETAIL_LOST R587
]

/-- Registers of the ford block. -/
def regRows_ford : List RegRow := [
  ⟨0x100, 0, 1, [⟨32, 1, .rw, (.val 0)⟩, ⟨0, 16, .st, (.val 0xFFFF)⟩]⟩,  -- FORD_CFG R541
  ⟨0x108, 0, 1, [⟨33, 1, .ro, (.val 0)⟩, ⟨32, 1, .ro, (.val 0)⟩, ⟨0, 16, .ro, (.val 0)⟩]⟩,  -- FORD_STAT R541
  ⟨0x110, 0, 1, [⟨0, 16, .ro, (.val 0)⟩]⟩,  -- FORD_DELAY R541
  ⟨0x200, 8, 16, [⟨8, 1, .ro, (.val 0)⟩, ⟨0, 2, .ro, (.val 2)⟩]⟩,  -- BUNDLE_STAT R541
  ⟨0x300, 0, 1, [⟨0, 64, .ro, (.val 0)⟩]⟩,  -- CROSS_SENT R542
  ⟨0x308, 0, 1, [⟨0, 64, .ro, (.val 0)⟩]⟩,  -- CROSS_RECEIVED R542
  ⟨0x310, 0, 1, [⟨0, 64, .ro, (.val 0)⟩]⟩,  -- XHALF_DROP R542
  ⟨0x318, 0, 1, [⟨0, 64, .ro, (.val 0)⟩]⟩,  -- CREDIT_WAIT_TICKS R542
  ⟨0x320, 0, 1, [⟨0, 64, .ro, (.val 0)⟩]⟩,  -- FLIT_REPLAYS R542
  ⟨0x328, 0, 1, [⟨0, 64, .ro, (.val 0)⟩]⟩,  -- LANES_REPAIRED R542
  ⟨0x330, 0, 1, [⟨0, 64, .ro, (.val 0)⟩]⟩  -- PEER_LOST_EVENTS R542
]

/-- Registers of the flow block. -/
def regRows_flow : List RegRow := [
  ⟨0x100, 0, 1, [⟨12, 36, .rwl, (.val 0)⟩]⟩,  -- FLOW_BASE R200
  ⟨0x108, 0, 1, [⟨0, 5, .rwl, (.val 0)⟩]⟩,  -- FLOW_CFG R200
  ⟨0x200, 0, 1, [⟨0, 64, .ro, (.val 0)⟩]⟩,  -- FLOW_INSERTED R237
  ⟨0x208, 0, 1, [⟨0, 64, .ro, (.val 0)⟩]⟩,  -- FLOW_FULL R237
  ⟨0x210, 0, 1, [⟨0, 64, .ro, (.val 0)⟩]⟩  -- FLOW_STASHED R237
]

/-- Registers of the lpm block. -/
def regRows_lpm : List RegRow := [
  ⟨0x100, 0, 1, [⟨0, 1, .rwl, (.val 0)⟩]⟩  -- LPM_CFG R202
]

/-- Registers of the counter block. -/
def regRows_counter : List RegRow := [
  ⟨0x100, 0, 1, [⟨8, 40, .rwl, (.val 0)⟩]⟩,  -- COUNTER_BASE R204
  ⟨0x110, 0, 1, [⟨63, 1, .rw, (.val 0)⟩, ⟨62, 1, .ro, (.val 0)⟩, ⟨0, 24, .rw, (.val 0)⟩]⟩,  -- READ_SEL R206
  ⟨0x118, 0, 1, [⟨0, 64, .ro, (.val 0)⟩]⟩,  -- READ_PKTS R206
  ⟨0x120, 0, 1, [⟨0, 64, .ro, (.val 0)⟩]⟩,  -- READ_BYTES R206
  ⟨0x200, 0, 1, [⟨0, 64, .ro, (.val 0)⟩]⟩  -- COUNTER_LOST R237
]

/-- Registers of the learn block. -/
def regRows_learn : List RegRow := [
  ⟨0x100, 0, 1, [⟨48, 16, .rw, (.val 0)⟩, ⟨32, 16, .rw, (.val 0)⟩, ⟨24, 8, .rw, (.val 0)⟩, ⟨20, 4, .rw, (.val 1)⟩, ⟨1, 1, .rw, (.val 1)⟩, ⟨0, 1, .rw, (.val 0)⟩]⟩,  -- LEARN_CFG R232
  ⟨0x108, 0, 1, [⟨0, 64, .rw, (.val 0)⟩]⟩,  -- LEARN_RESULT R232
  ⟨0x110, 0, 1, [⟨0, 64, .rw, (.val 0)⟩]⟩,  -- LEARN_PORTS_LO R232
  ⟨0x118, 0, 1, [⟨0, 64, .rw, (.val 0)⟩]⟩,  -- LEARN_PORTS_HI R232
  ⟨0x120, 8, 4, [⟨48, 16, .rw, (.val 0x7FFF)⟩, ⟨32, 16, .rw, (.val 0x7FFF)⟩, ⟨16, 16, .rw, (.val 0x7FFF)⟩, ⟨0, 16, .rw, .ageThr⟩]⟩,  -- LEARN_AGE_THR R230
  ⟨0x140, 0, 1, [⟨0, 16, .rw, (.val 256)⟩]⟩,  -- LEARN_SWEEP R232
  ⟨0x150, 0, 1, [⟨5, 43, .rw, (.val 0)⟩]⟩,  -- LEARN_NOTE_BASE R232
  ⟨0x158, 0, 1, [⟨44, 20, .rw, (.val 0)⟩, ⟨24, 20, .ro, (.val 0)⟩, ⟨16, 5, .rw, (.val 8)⟩]⟩,  -- LEARN_NOTE_CTL R232
  ⟨0x160, 0, 1, [⟨15, 1, .rw, (.val 0)⟩, ⟨10, 4, .rw, (.val 0)⟩, ⟨5, 5, .rw, (.val 0)⟩, ⟨0, 5, .rw, (.val 0)⟩]⟩,  -- LEARN_NOTE_EVENT R231
  ⟨0x200, 0, 1, [⟨0, 64, .ro, (.val 0)⟩]⟩,  -- LEARN_NEW R237
  ⟨0x208, 0, 1, [⟨0, 64, .ro, (.val 0)⟩]⟩,  -- LEARN_MOVE R237
  ⟨0x210, 0, 1, [⟨0, 64, .ro, (.val 0)⟩]⟩,  -- LEARN_SKIP R237
  ⟨0x218, 0, 1, [⟨0, 64, .ro, (.val 0)⟩]⟩,  -- LEARN_FULL R237
  ⟨0x220, 0, 1, [⟨0, 64, .ro, (.val 0)⟩]⟩,  -- LEARN_DROP R237
  ⟨0x228, 0, 1, [⟨0, 64, .ro, (.val 0)⟩]⟩,  -- AGED R237
  ⟨0x230, 0, 1, [⟨0, 64, .ro, (.val 0)⟩]⟩  -- NOTE_DROP R237
]

/-- Registers of the shadow block. -/
def regRows_shadow : List RegRow := [
  ⟨0x100, 0, 1, [⟨16, 8, .rw, (.val 250)⟩, ⟨1, 1, .rw, (.val 1)⟩, ⟨0, 1, .rw, (.val 1)⟩]⟩,  -- SHADOW_CFG R236
  ⟨0x108, 0, 1, [⟨12, 36, .rwl, (.val 0)⟩]⟩,  -- SHADOW_BASE R236
  ⟨0x110, 0, 1, [⟨0, 64, .ro, (.val 0)⟩]⟩,  -- SHADOW_STAT R236
  ⟨0x200, 0, 1, [⟨0, 64, .ro, (.val 0)⟩]⟩,  -- DIVERGED R237
  ⟨0x208, 0, 1, [⟨0, 64, .ro, (.val 0)⟩]⟩  -- REPAIRED R237
]

/-- Registers of the version block. -/
def regRows_version : List RegRow := [
  ⟨0x100, 0, 1, [⟨8, 8, .wo, (.val 0)⟩, ⟨0, 3, .wo, (.val 0)⟩]⟩,  -- BATCH_CMD R221
  ⟨0x108, 0, 1, [⟨0, 64, .rw, (.val 0)⟩]⟩,  -- BATCH_E R221
  ⟨0x110, 0, 1, [⟨3, 45, .rw, (.val 0)⟩]⟩,  -- BATCH_LIST_ADDR R221
  ⟨0x118, 0, 1, [⟨0, 32, .rw, (.val 0)⟩]⟩,  -- BATCH_LIST_LEN R221
  ⟨0x120, 0, 1, [⟨0, 8, .rw, (.val 0)⟩]⟩,  -- BATCH_SEL R221
  ⟨0x128, 0, 1, [⟨48, 16, .ro, (.val 0)⟩, ⟨40, 8, .ro, (.val 0)⟩, ⟨32, 3, .ro, (.val 0)⟩, ⟨0, 17, .ro, (.val 0)⟩]⟩,  -- BATCH_STAT R221
  ⟨0x130, 0, 1, [⟨0, 64, .ro, (.val 0)⟩]⟩,  -- BATCH_STAT_E R221
  ⟨0x138, 0, 1, [⟨32, 17, .ro, (.val 0)⟩, ⟨0, 17, .ro, (.val 0)⟩]⟩,  -- PENDING_TOTAL R221
  ⟨0x140, 0, 1, [⟨0, 64, .ro, (.val 0)⟩]⟩,  -- RETIRE_BASIS R221
  ⟨0x200, 0, 1, [⟨0, 64, .ro, (.val 0)⟩]⟩,  -- BATCHES_RETIRED R237
  ⟨0x208, 0, 1, [⟨0, 64, .ro, (.val 0)⟩]⟩,  -- BATCHES_REFUSED R237
  ⟨0x210, 0, 1, [⟨0, 64, .ro, (.val 0)⟩]⟩  -- CMD_IGNORED R237
]

/-- Registers of the assoc block. -/
def regRows_assoc : List RegRow := [
  ⟨0x100, 8, 16, [⟨0, 32, .st, .clsBanks⟩]⟩,  -- CLASS_BANKS R164
  ⟨0x180, 0, 1, [⟨32, 32, .ro, (.val 0)⟩, ⟨15, 1, .ro, (.val 0)⟩, ⟨14, 1, .ro, (.val 0)⟩, ⟨0, 5, .ro, (.val 0)⟩]⟩,  -- BANK_STAT R164
  ⟨0x200, 0, 1, [⟨0, 64, .ro, (.val 0)⟩]⟩,  -- SEARCHES R166
  ⟨0x208, 0, 1, [⟨0, 64, .ro, (.val 0)⟩]⟩,  -- BANK_COMPARES R166
  ⟨0x210, 0, 1, [⟨0, 64, .ro, (.val 0)⟩]⟩,  -- MULTI_RESPONSES R166
  ⟨0x218, 0, 1, [⟨0, 64, .ro, (.val 0)⟩]⟩,  -- REBUILD_RESPONSES R166
  ⟨0x220, 0, 1, [⟨0, 64, .ro, (.val 0)⟩]⟩,  -- LOST_RESPONSES R166
  ⟨0x228, 0, 1, [⟨0, 64, .ro, (.val 0)⟩]⟩,  -- SCRUB_CORRECTED R166
  ⟨0x230, 0, 1, [⟨0, 64, .ro, (.val 0)⟩]⟩,  -- SCRUB_UNCORRECTED R166
  ⟨0x300, 0, 1, [⟨0, 16, .rw, (.val 0)⟩]⟩,  -- ENTRY_SEL R164
  ⟨0x308, 8, 22, [⟨0, 64, .ro, (.val 0)⟩]⟩  -- ENTRY_DATA R165
]

/-- Registers of the buffer block, part 1. -/
def regRows_buffer_1 : List RegRow := [
  ⟨0x100, 8, 4, [⟨0, 20, .st, .poolSize⟩]⟩,  -- POOL_CFG R466
  ⟨0x120, 8, 4, [⟨32, 20, .ro, (.val 0)⟩, ⟨0, 20, .ro, (.val 0)⟩]⟩,  -- POOL_STAT R466
  ⟨0x140, 0, 1, [⟨32, 20, .ro, (.val 786432)⟩, ⟨0, 20, .ro, (.val 786432)⟩]⟩,  -- FREE_STAT R466
  ⟨0x148, 0, 1, [⟨0, 2, .st, (.val 3)⟩]⟩,  -- MC_CFG R466
  ⟨0x150, 0, 1, [⟨0, 64, .ro, (.val 0)⟩]⟩,  -- BANK_FENCED_LO R466
  ⟨0x158, 0, 1, [⟨0, 32, .ro, (.val 0)⟩]⟩,  -- BANK_FENCED_HI R466
  ⟨0x160, 0, 1, [⟨9, 39, .rwl, (.val 0)⟩]⟩,  -- SPILL_BASE R466
  ⟨0x168, 0, 1, [⟨0, 32, .rwl, (.val 0)⟩]⟩,  -- SPILL_SIZE R466
  ⟨0x170, 0, 1, [⟨0, 16, .rw, (.val 512)⟩]⟩,  -- SPILL_CFG R466
  ⟨0x178, 0, 1, [⟨0, 32, .ro, (.val 0)⟩]⟩,  -- SPILL_STAT R466
  ⟨0x200, 0, 1, [⟨0, 64, .ro, (.val 0)⟩]⟩,  -- ENTRY_FULL R468
  ⟨0x208, 0, 1, [⟨0, 64, .ro, (.val 0)⟩]⟩,  -- FORD_NO_CELL R468
  ⟨0x210, 0, 1, [⟨0, 64, .ro, (.val 0)⟩]⟩,  -- ODESC_NO_CELL R468
  ⟨0x218, 0, 1, [⟨0, 64, .ro, (.val 0)⟩]⟩,  -- REPL_TRUNCATED R468
  ⟨0x220, 0, 1, [⟨0, 64, .ro, (.val 0)⟩]⟩,  -- REPL_BROKEN R468
  ⟨0x228, 0, 1, [⟨0, 64, .ro, (.val 0)⟩]⟩,  -- BAD_LIST R468
  ⟨0x230, 0, 1, [⟨0, 64, .ro, (.val 0)⟩]⟩,  -- BAD_POINTER R468
  ⟨0x238, 0, 1, [⟨0, 64, .ro, (.val 0)⟩]⟩,  -- RECLAIMED R468
  ⟨0x240, 0, 1, [⟨0, 64, .ro, (.val 0)⟩]⟩,  -- FILL_RETRIES R468
  ⟨0x1000, 8, 1088, [⟨48, 16, .st, (.val 0)⟩, ⟨32, 16, .st, (.val 1024)⟩, ⟨16, 16, .st, (.val 64)⟩, ⟨12, 4, .st, (.val 0)⟩, ⟨10, 2, .st, (.val 1)⟩, ⟨9, 1, .st, (.val 0)⟩, ⟨8, 1, .st, (.val 0)⟩]⟩,  -- QCFG R467
  ⟨0x4000, 8, 1088, [⟨61, 1, .ro, (.val 0)⟩, ⟨32, 28, .ro, (.val 0)⟩, ⟨0, 20, .ro, (.val 0)⟩]⟩,  -- QSTAT R467
  ⟨0x6800, 80, 68, [⟨0, 64, .ro, (.val 0)⟩]⟩,  -- THRESHOLD_DROP R468
  ⟨0x6808, 80, 68, [⟨0, 64, .ro, (.val 0)⟩]⟩,  -- POOL_DROP R468
  ⟨0x6810, 80, 68, [⟨0, 64, .ro, (.val 0)⟩]⟩,  -- DOWN_DROP R468
  ⟨0x6818, 80, 68, [⟨0, 64, .ro, (.val 0)⟩]⟩,  -- FLUSH_DROP R468
  ⟨0x6820, 80, 68, [⟨0, 64, .ro, (.val 0)⟩]⟩,  -- LINK_LOST R468
  ⟨0x6828, 80, 68, [⟨0, 64, .ro, (.val 0)⟩]⟩,  -- ERROR_DROP R468
  ⟨0x6830, 80, 68, [⟨0, 64, .ro, (.val 0)⟩]⟩,  -- STOMPED R468
  ⟨0x6838, 80, 68, [⟨0, 64, .ro, (.val 0)⟩]⟩,  -- SPILL_DROP R468
  ⟨0x6840, 80, 68, [⟨0, 64, .ro, (.val 0)⟩]⟩  -- ECN_MARK_REQ R468
]

/-- Registers of the buffer block, part 2. -/
def regRows_buffer_2 : List RegRow := [
  ⟨0x6848, 80, 68, [⟨0, 64, .ro, (.val 0)⟩]⟩  -- ADMITTED R468
]

/-- Registers of the buffer block. -/
def regRows_buffer : List RegRow := regRows_buffer_1 ++ regRows_buffer_2

/-- Registers of the sched block. -/
def regRows_sched : List RegRow := [
  ⟨0x100, 0, 1, [⟨5, 43, .rw, (.val 0)⟩]⟩,  -- TELEM_BASE R492
  ⟨0x108, 0, 1, [⟨44, 20, .rw, (.val 0)⟩, ⟨24, 20, .ro, (.val 0)⟩, ⟨16, 5, .rw, (.val 8)⟩]⟩,  -- TELEM_CTL R492
  ⟨0x110, 0, 1, [⟨15, 1, .rw, (.val 0)⟩, ⟨10, 4, .rw, (.val 0)⟩, ⟨5, 5, .rw, (.val 0)⟩, ⟨0, 5, .rw, (.val 0)⟩]⟩,  -- TELEM_EVENT R492
  ⟨0x200, 0, 1, [⟨0, 64, .ro, (.val 0)⟩]⟩,  -- TELEM_RECORDS R492
  ⟨0x208, 0, 1, [⟨0, 64, .ro, (.val 0)⟩]⟩,  -- TELEM_DROP R492
  ⟨0x1000, 8, 1088, [⟨14, 10, .st, (.val 1)⟩, ⟨8, 3, .st, .qPfc⟩, ⟨4, 2, .st, (.val 0)⟩]⟩,  -- QSCH R492
  ⟨0x3400, 8, 272, [⟨14, 10, .st, (.val 1)⟩, ⟨4, 2, .st, .cPrio⟩]⟩,  -- CSCH R492
  ⟨0x3E00, 8, 68, [⟨15, 1, .st, (.val 0)⟩, ⟨8, 5, .st, (.val 31)⟩, ⟨0, 8, .st, (.val 0)⟩]⟩,  -- PSCH R492
  ⟨0x4100, 16, 68, [⟨32, 32, .st, (.val 0)⟩, ⟨0, 32, .st, (.val 0)⟩]⟩,  -- PSHP_RATE R492
  ⟨0x4108, 16, 68, [⟨32, 24, .st, (.val 65536)⟩, ⟨0, 24, .st, (.val 65536)⟩]⟩,  -- PSHP_BURST R492
  ⟨0x5000, 80, 68, [⟨0, 64, .ro, (.val 0)⟩]⟩,  -- TX_FRAMES R493
  ⟨0x5008, 80, 68, [⟨0, 64, .ro, (.val 0)⟩]⟩,  -- TX_BYTES R493
  ⟨0x5010, 80, 68, [⟨0, 64, .ro, (.val 0)⟩]⟩,  -- LATE_FRAMES R493
  ⟨0x5018, 80, 68, [⟨0, 64, .ro, (.val 0)⟩]⟩,  -- ECN_MARKED R493
  ⟨0x5020, 80, 68, [⟨0, 64, .ro, (.val 0)⟩]⟩,  -- ECN_UNMARKED R493
  ⟨0x5028, 80, 68, [⟨0, 64, .ro, (.val 0)⟩]⟩,  -- VID_NO_TAG R493
  ⟨0x5030, 80, 68, [⟨0, 64, .ro, (.val 0)⟩]⟩,  -- OVERSIZE_DROP R493
  ⟨0x5038, 80, 68, [⟨0, 64, .ro, (.val 0)⟩]⟩,  -- PFC_RETURNS R493
  ⟨0x5040, 80, 68, [⟨0, 64, .ro, (.val 0)⟩]⟩,  -- PAUSED_TICKS R493
  ⟨0x5048, 80, 68, [⟨0, 64, .ro, (.val 0)⟩]⟩  -- SHAPED_TICKS R493
]

/-- Registers of the shaper block. -/
def regRows_shaper : List RegRow := [
  ⟨0x100, 16, 1088, [⟨32, 32, .st, (.val 0)⟩, ⟨0, 32, .st, (.val 0)⟩]⟩,  -- QSHP_RATE R492
  ⟨0x108, 16, 1088, [⟨32, 24, .st, (.val 65536)⟩, ⟨0, 24, .st, (.val 65536)⟩]⟩,  -- QSHP_BURST R492
  ⟨0x4800, 16, 272, [⟨32, 32, .st, (.val 0)⟩, ⟨0, 32, .st, (.val 0)⟩]⟩,  -- CSHP_RATE R492
  ⟨0x4808, 16, 272, [⟨32, 24, .st, (.val 65536)⟩, ⟨0, 24, .st, (.val 65536)⟩]⟩  -- CSHP_BURST R492
]

/-- Registers of the hbmc block. -/
def regRows_hbmc : List RegRow := [
  ⟨0x100, 0, 1, [⟨48, 16, .rw, (.val 256)⟩, ⟨16, 8, .rw, (.val 24)⟩, ⟨3, 1, .rw, (.val 1)⟩, ⟨2, 1, .rw, (.val 1)⟩, ⟨0, 2, .rwl, (.val 0)⟩]⟩,  -- HBMC_CFG R518
  ⟨0x108, 0, 1, [⟨40, 8, .ro, (.val 0)⟩, ⟨32, 1, .ro, (.val 0)⟩, ⟨2, 1, .ro, (.val 0)⟩, ⟨0, 2, .ro, (.val 0)⟩]⟩,  -- HBMC_STAT R518
  ⟨0x110, 0, 1, [⟨32, 12, .ro, (.val 2048)⟩, ⟨0, 9, .ro, (.val 0)⟩]⟩,  -- REPAIR_STAT R518
  ⟨0x200, 16, 16, [⟨20, 28, .rwl, (.val 0)⟩]⟩,  -- REGION_LO R518
  ⟨0x208, 16, 16, [⟨56, 8, .rwl, (.val 0)⟩, ⟨48, 8, .rwl, (.val 0)⟩, ⟨20, 28, .rwl, (.val 0)⟩, ⟨0, 1, .rwl, (.val 0)⟩]⟩,  -- REGION_HI R518
  ⟨0x300, 0, 1, [⟨0, 64, .ro, (.val 0)⟩]⟩,  -- CORRECTED R519
  ⟨0x308, 0, 1, [⟨0, 64, .ro, (.val 0)⟩]⟩,  -- UNCORRECTED R519
  ⟨0x310, 0, 1, [⟨0, 64, .ro, (.val 0)⟩]⟩,  -- FORWARDED R519
  ⟨0x318, 0, 1, [⟨0, 64, .ro, (.val 0)⟩]⟩,  -- RAW_WAITS R519
  ⟨0x320, 0, 1, [⟨0, 64, .ro, (.val 0)⟩]⟩,  -- REF_FORCED R519
  ⟨0x328, 0, 1, [⟨0, 64, .ro, (.val 0)⟩]⟩,  -- PD_ENTRIES R519
  ⟨0x330, 0, 1, [⟨0, 64, .ro, (.val 0)⟩]⟩,  -- SCRUB_PASSES R519
  ⟨0x338, 0, 1, [⟨0, 64, .ro, (.val 0)⟩]⟩,  -- REGION_DENIED R519
  ⟨0x340, 0, 1, [⟨0, 64, .ro, (.val 0)⟩]⟩  -- PARITY_RETRIES R519
]

/-- Registers of the locks block. -/
def regRows_locks : List RegRow := [
  ⟨0x100, 0, 1, [⟨15, 1, .wo, (.val 0)⟩, ⟨0, 13, .wo, (.val 0)⟩]⟩,  -- FORCE R393
  ⟨0x108, 0, 1, [⟨0, 13, .rw, (.val 0)⟩]⟩,  -- LOCK_SEL R393
  ⟨0x110, 0, 1, [⟨63, 1, .ro, (.val 0)⟩, ⟨52, 3, .ro, (.val 0)⟩, ⟨35, 13, .ro, (.val 0)⟩, ⟨32, 3, .ro, (.val 0)⟩, ⟨19, 1, .ro, (.val 0)⟩, ⟨18, 1, .ro, (.val 0)⟩, ⟨14, 4, .ro, (.val 0)⟩, ⟨13, 1, .ro, (.val 0)⟩, ⟨0, 12, .ro, (.val 0)⟩]⟩,  -- LOCK_STAT R393
  ⟨0x200, 0, 1, [⟨0, 64, .ro, (.val 0)⟩]⟩,  -- ACQUIRES R394
  ⟨0x208, 0, 1, [⟨0, 64, .ro, (.val 0)⟩]⟩,  -- CONTENDED R394
  ⟨0x210, 0, 1, [⟨0, 64, .ro, (.val 0)⟩]⟩,  -- ABANDONS R394
  ⟨0x218, 0, 1, [⟨0, 64, .ro, (.val 0)⟩]⟩,  -- FORCED R394
  ⟨0x220, 0, 1, [⟨0, 64, .ro, (.val 0)⟩]⟩,  -- TIMEOUTS R394
  ⟨0x228, 0, 1, [⟨0, 64, .ro, (.val 0)⟩]⟩,  -- INHERIT_SIGNALS R394
  ⟨0x230, 0, 1, [⟨0, 64, .ro, (.val 0)⟩]⟩  -- INHERIT_CHAIN_CUT R394
]

/-- Registers of the port block. -/
def regRows_port : List RegRow := [
  ⟨0x100, 0, 1, [⟨48, 16, .rw, (.val 0)⟩, ⟨32, 16, .rw, (.val 0)⟩, ⟨16, 16, .ro, (.val 0)⟩, ⟨15, 1, .rw, (.val 0)⟩, ⟨0, 7, .ro, (.val 0)⟩]⟩,  -- PTP_CFG R92
  ⟨0x108, 0, 1, [⟨16, 48, .ro, (.val 0)⟩, ⟨0, 16, .ro, (.val 0)⟩]⟩,  -- PTP_TXTS_A R92
  ⟨0x110, 0, 1, [⟨63, 1, .ro, (.val 0)⟩, ⟨48, 4, .ro, (.val 0)⟩, ⟨40, 8, .ro, (.val 0)⟩, ⟨8, 30, .ro, (.val 0)⟩, ⟨0, 8, .ro, (.val 0)⟩]⟩,  -- PTP_TXTS_B R92
  ⟨0x200, 0, 1, [⟨48, 16, .rw, (.val 0x2800)⟩, ⟨40, 8, .rw, (.val 0x14)⟩, ⟨35, 1, .rw, (.val 1)⟩, ⟨34, 1, .rw, (.val 1)⟩, ⟨32, 2, .rw, (.val 0)⟩, ⟨24, 5, .rw, (.val 0)⟩, ⟨8, 8, .rw, (.val 0)⟩, ⟨4, 4, .rw, (.val 0)⟩]⟩,  -- MAC_CFG R106
  ⟨0x208, 0, 1, [⟨16, 8, .rw, (.val 0xE4)⟩, ⟨8, 8, .rw, (.val 0xE4)⟩, ⟨4, 4, .rw, (.val 0)⟩, ⟨0, 4, .rw, (.val 0)⟩]⟩,  -- LANE_CFG R106
  ⟨0x210, 0, 1, [⟨8, 5, .ro, (.val 0)⟩, ⟨7, 1, .ro, (.val 0)⟩, ⟨6, 1, .ro, (.val 0)⟩, ⟨5, 1, .ro, (.val 0)⟩, ⟨4, 1, .ro, (.val 0)⟩, ⟨3, 1, .ro, (.val 0)⟩, ⟨2, 1, .ro, (.val 0)⟩, ⟨1, 1, .ro, (.val 0)⟩, ⟨0, 1, .ro, (.val 0)⟩]⟩,  -- LINK_STAT R106
  ⟨0x218, 0, 1, [⟨8, 24, .rw, (.val 0xFAC688)⟩, ⟨4, 2, .rw, (.val 1)⟩, ⟨0, 3, .rw, (.val 0)⟩]⟩,  -- RX_PRIO R119
  ⟨0x220, 0, 1, [⟨48, 16, .rw, (.val 0xFFFF)⟩, ⟨32, 16, .rw, (.val 0x8000)⟩, ⟨16, 8, .rw, (.val 0)⟩, ⟨8, 8, .rw, (.val 0)⟩]⟩,  -- PFC_CFG R119
  ⟨0x228, 8, 8, [⟨32, 16, .rw, (.val 2048)⟩, ⟨16, 16, .rw, (.val 512)⟩, ⟨0, 16, .rw, (.val 256)⟩]⟩,  -- RXQ_THR R119
  ⟨0x300, 0, 1, [⟨0, 64, .ro, (.val 0)⟩]⟩,  -- RX_FRAMES_OK R143
  ⟨0x308, 0, 1, [⟨0, 64, .ro, (.val 0)⟩]⟩,  -- RX_BYTES_OK R143
  ⟨0x310, 0, 1, [⟨0, 64, .ro, (.val 0)⟩]⟩,  -- RX_FCS_ERR R143
  ⟨0x318, 0, 1, [⟨0, 64, .ro, (.val 0)⟩]⟩,  -- RX_RUNT R143
  ⟨0x320, 0, 1, [⟨0, 64, .ro, (.val 0)⟩]⟩,  -- RX_OVERSIZE R143
  ⟨0x328, 0, 1, [⟨0, 64, .ro, (.val 0)⟩]⟩,  -- RX_PCS_ERR R143
  ⟨0x330, 0, 1, [⟨0, 64, .ro, (.val 0)⟩]⟩,  -- RX_NO_CELL R143
  ⟨0x338, 0, 1, [⟨0, 64, .ro, (.val 0)⟩]⟩,  -- ING_ADMIT_DROP R143
  ⟨0x340, 0, 1, [⟨0, 64, .ro, (.val 0)⟩]⟩,  -- RX_HEADROOM_DROP R143
  ⟨0x348, 0, 1, [⟨0, 64, .ro, (.val 0)⟩]⟩,  -- METER_RED_DROP R143
  ⟨0x350, 0, 1, [⟨0, 64, .ro, (.val 0)⟩]⟩,  -- RX_PFC_FRAMES R143
  ⟨0x358, 0, 1, [⟨0, 64, .ro, (.val 0)⟩]⟩,  -- RX_PAUSE_DISCARD R143
  ⟨0x360, 0, 1, [⟨0, 64, .ro, (.val 0)⟩]⟩,  -- RX_MACCTL_DISCARD R143
  ⟨0x368, 0, 1, [⟨0, 64, .ro, (.val 0)⟩]⟩,  -- TX_PFC_FRAMES R143
  ⟨0x370, 0, 1, [⟨0, 64, .ro, (.val 0)⟩]⟩,  -- FEC_CORRECTED R143
  ⟨0x378, 0, 1, [⟨0, 64, .ro, (.val 0)⟩]⟩,  -- FEC_UNCORRECTED R143
  ⟨0x380, 8, 8, [⟨0, 64, .ro, (.val 0)⟩]⟩,  -- RXQ_LEVEL R143
  ⟨0x400, 0, 1, [⟨0, 16, .rw, (.val 500)⟩]⟩,  -- HOLD_CFG R469
  ⟨0x408, 0, 1, [⟨32, 2, .ro, (.val 0)⟩, ⟨0, 16, .ro, (.val 0)⟩]⟩  -- HOLD_STAT R469
]

/-- Registers of the tile block. -/
def regRows_tile : List RegRow := [
  ⟨0x100, 0, 1, [⟨16, 10, .rwl, (.val 256)⟩, ⟨0, 4, .rwl, (.val 10)⟩]⟩,  -- TMEM_CFG R325
  ⟨0x110, 0, 1, [⟨56, 8, .rw, (.val 0x40)⟩, ⟨32, 17, .rw, (.val 0)⟩, ⟨0, 17, .rw, (.val 0)⟩]⟩,  -- INT_CFG R371
  ⟨0x118, 0, 1, [⟨12, 8, .rw, (.val 0)⟩, ⟨0, 1, .rw, (.val 0)⟩]⟩,  -- CP_LATE_CFG R409
  ⟨0x120, 0, 1, [⟨0, 1, .rw, (.val 1)⟩]⟩,  -- SPARE_CFG R589
  ⟨0x128, 0, 1, [⟨32, 17, .ro, (.val 0)⟩, ⟨16, 5, .ro, (.val 16)⟩, ⟨8, 4, .ro, (.val 0)⟩, ⟨0, 3, .ro, (.val 4)⟩]⟩,  -- SPARE_STAT R589
  ⟨0x130, 0, 1, [⟨0, 64, .ro, (.val 0)⟩]⟩,  -- LAST_PASS R589
  ⟨0x200, 0, 1, [⟨0, 64, .ro, (.val 0)⟩]⟩,  -- BAD_OUTPUTS R680
  ⟨0x208, 0, 1, [⟨56, 3, .ro, (.val 0)⟩, ⟨48, 2, .ro, (.val 0)⟩, ⟨46, 2, .ro, (.val 0)⟩, ⟨43, 3, .ro, (.val 0)⟩, ⟨0, 17, .ro, (.val 0)⟩]⟩,  -- OUTPUT_LAST R680
  ⟨0x210, 0, 1, [⟨0, 64, .ro, (.val 0)⟩]⟩,  -- ROTATIONS R590
  ⟨0x218, 0, 1, [⟨0, 64, .ro, (.val 0)⟩]⟩,  -- LBIST_PASSES R590
  ⟨0x220, 0, 1, [⟨0, 64, .ro, (.val 0)⟩]⟩  -- CORE_FAULT_DISCARDS R590
]

/-- Registers of the tsched block. -/
def regRows_tsched : List RegRow := [
  ⟨0x100, 0, 1, [⟨8, 24, .st, (.val 0xFAC688)⟩, ⟨0, 1, .st, (.val 1)⟩]⟩,  -- DISP_CFG R277
  ⟨0x108, 0, 1, [⟨48, 12, .ro, (.val 0)⟩, ⟨32, 12, .ro, (.val 0)⟩, ⟨16, 12, .ro, (.val 0)⟩, ⟨0, 12, .ro, (.val 0)⟩]⟩,  -- TASK_STAT R277
  ⟨0x200, 8, 32, [⟨32, 32, .rw, (.val 0)⟩, ⟨8, 8, .rw, (.val 0)⟩, ⟨4, 3, .rw, (.val 0)⟩, ⟨0, 1, .rw, (.val 0)⟩]⟩,  -- SVC_CFG R277
  ⟨0x300, 8, 32, [⟨0, 32, .w1c, (.val 0)⟩]⟩,  -- SVC_FLAGS R277
  ⟨0x400, 8, 32, [⟨0, 32, .wo, (.val 0)⟩]⟩,  -- SVC_POST R277
  ⟨0x500, 0, 1, [⟨0, 64, .ro, (.val 0)⟩]⟩,  -- TASKS_CREATED R278
  ⟨0x508, 0, 1, [⟨0, 64, .ro, (.val 0)⟩]⟩,  -- TASKS_COMPLETED R278
  ⟨0x510, 0, 1, [⟨0, 64, .ro, (.val 0)⟩]⟩,  -- TASKS_DROPPED R278
  ⟨0x518, 0, 1, [⟨0, 64, .ro, (.val 0)⟩]⟩,  -- TASKS_DISCARDED R278
  ⟨0x520, 0, 1, [⟨0, 64, .ro, (.val 0)⟩]⟩,  -- PARKS R278
  ⟨0x528, 0, 1, [⟨0, 64, .ro, (.val 0)⟩]⟩,  -- WAITS_IN_THREAD R278
  ⟨0x530, 0, 1, [⟨0, 64, .ro, (.val 0)⟩]⟩,  -- INHERIT_RAISES R278
  ⟨0x538, 0, 1, [⟨0, 64, .ro, (.val 0)⟩]⟩,  -- SVC_RUNS R278
  ⟨0x540, 0, 1, [⟨56, 3, .ro, (.val 0)⟩, ⟨51, 1, .ro, (.val 0)⟩, ⟨36, 12, .ro, (.val 0)⟩, ⟨0, 32, .ro, (.val 0)⟩]⟩,  -- DISCARD_LAST R256
  ⟨0x588, 8, 6, [⟨0, 64, .ro, (.val 0)⟩]⟩  -- DISCARD_BY_REASON R256
]

/-- Registers of the bramble block. -/
def regRows_bramble : List RegRow := [
  ⟨0x100, 0, 1, [⟨0, 14, .rw, (.val 0)⟩]⟩,  -- PAT_SEL R183
  ⟨0x108, 8, 9, [⟨0, 64, .ro, (.val 0)⟩]⟩,  -- PAT_DATA R183
  ⟨0x200, 0, 1, [⟨0, 64, .ro, (.val 0)⟩]⟩,  -- SCANS R183
  ⟨0x208, 0, 1, [⟨0, 64, .ro, (.val 0)⟩]⟩,  -- BYTES_SCANNED R183
  ⟨0x210, 0, 1, [⟨0, 64, .ro, (.val 0)⟩]⟩,  -- OVERFLOWS R183
  ⟨0x218, 0, 1, [⟨0, 64, .ro, (.val 0)⟩]⟩,  -- SCANS_CANCELLED R183
  ⟨0x220, 0, 1, [⟨0, 64, .ro, (.val 0)⟩]⟩,  -- INCOMPLETE_SCANS R183
  ⟨0x228, 0, 1, [⟨0, 64, .ro, (.val 0)⟩]⟩  -- QUEUE_TICKS R183
]

/-- Registers of the channel block. -/
def regRows_channel : List RegRow := [
  ⟨0x100, 8, 256, [⟨31, 1, .rw, (.val 0)⟩, ⟨24, 7, .rw, (.val 0)⟩, ⟨16, 5, .rw, (.val 8)⟩, ⟨8, 4, .rw, (.val 2)⟩, ⟨1, 1, .ro, (.val 0)⟩, ⟨0, 1, .rw, (.val 0)⟩]⟩,  -- CH_CFG R386
  ⟨0x900, 0, 1, [⟨0, 64, .ro, (.val 0)⟩]⟩,  -- CH_SENT R386
  ⟨0x908, 0, 1, [⟨0, 64, .ro, (.val 0)⟩]⟩,  -- CH_FULL R386
  ⟨0x910, 0, 1, [⟨0, 64, .ro, (.val 0)⟩]⟩,  -- CH_RECEIVED R386
  ⟨0x918, 0, 1, [⟨0, 64, .ro, (.val 0)⟩]⟩,  -- CHANNEL_ABANDON R386
  ⟨0x920, 0, 1, [⟨0, 64, .ro, (.val 0)⟩]⟩  -- CH_DISCARDED R386
]

/-- Registers of the coproc block. -/
def regRows_coproc : List RegRow := [
  ⟨0x100, 8, 8, [⟨24, 8, .ro, .hw⟩, ⟨16, 8, .ro, .hw⟩, ⟨8, 4, .ro, .hw⟩, ⟨2, 1, .ro, .hw⟩, ⟨1, 1, .ro, .hw⟩, ⟨0, 1, .ro, .hw⟩]⟩,  -- CP_DESC R432
  ⟨0x180, 0, 1, [⟨0, 5, .rw, (.val 9)⟩]⟩,  -- CP_CFG R432
  ⟨0x188, 0, 1, [⟨16, 4, .ro, (.val 0)⟩, ⟨8, 2, .ro, (.val 0)⟩, ⟨0, 4, .ro, (.val 0)⟩]⟩,  -- CP_LOCK_STAT R432
  ⟨0x200, 0, 1, [⟨0, 64, .ro, (.val 0)⟩]⟩,  -- CP_OPS R433
  ⟨0x208, 0, 1, [⟨0, 64, .ro, (.val 0)⟩]⟩,  -- CP_CANCELLED R433
  ⟨0x210, 0, 1, [⟨0, 64, .ro, (.val 0)⟩]⟩,  -- CP_TRAPS R433
  ⟨0x218, 0, 1, [⟨0, 64, .ro, (.val 0)⟩]⟩,  -- CP_LATE R433
  ⟨0x220, 0, 1, [⟨0, 64, .ro, (.val 0)⟩]⟩,  -- CP_MERGED R433
  ⟨0x228, 0, 1, [⟨0, 64, .ro, (.val 0)⟩]⟩,  -- CP_LATE_LOST R433
  ⟨0x230, 0, 1, [⟨0, 64, .ro, (.val 0)⟩]⟩,  -- CP_ABANDON R433
  ⟨0x238, 0, 1, [⟨0, 64, .ro, (.val 0)⟩]⟩  -- CP_LOCK_BUSY R433
]

/-- Registers of the core block. -/
def regRows_core : List RegRow := [
  ⟨0x600, 0, 1, [⟨0, 64, .ro, (.val 0)⟩]⟩,  -- ISSUED_SLOTS R318
  ⟨0x608, 0, 1, [⟨0, 64, .ro, (.val 0)⟩]⟩,  -- SQUASHED_SLOTS R318
  ⟨0x610, 0, 1, [⟨0, 64, .ro, (.val 0)⟩]⟩,  -- MISPREDICTS R318
  ⟨0x618, 0, 1, [⟨0, 64, .ro, (.val 0)⟩]⟩,  -- TRAPS_TAKEN R318
  ⟨0x620, 0, 1, [⟨0, 64, .ro, (.val 0)⟩]⟩,  -- TRAP_DISCARDS R318
  ⟨0x628, 0, 1, [⟨56, 2, .ro, (.val 0)⟩, ⟨48, 8, .ro, (.val 0)⟩, ⟨40, 3, .ro, (.val 0)⟩, ⟨0, 17, .ro, (.val 0)⟩]⟩,  -- TRAP_LAST R318
  ⟨0x630, 0, 1, [⟨0, 64, .ro, (.val 0)⟩]⟩,  -- WAITEV_WAITS R395
  ⟨0x638, 0, 1, [⟨0, 64, .ro, (.val 0)⟩]⟩,  -- DEADLOCKS R395
  ⟨0x640, 0, 1, [⟨0, 64, .ro, (.val 0)⟩]⟩,  -- INTERRUPTS_TAKEN R395
  ⟨0x648, 0, 1, [⟨0, 64, .ro, (.val 0)⟩]⟩,  -- EVSIG_DROPPED R395
  ⟨0x650, 0, 1, [⟨0, 64, .ro, (.val 0)⟩]⟩,  -- STARVE_GRANTS R395
  ⟨0x700, 8, 8, [⟨32, 17, .ro, (.val 0)⟩, ⟨12, 3, .rw, (.val 0)⟩, ⟨8, 3, .ro, (.val 0)⟩, ⟨3, 1, .wo, (.val 0)⟩, ⟨2, 1, .wo, (.val 0)⟩, ⟨1, 1, .wo, (.val 0)⟩, ⟨0, 1, .wo, (.val 0)⟩]⟩,  -- THREAD_CTL R377
  ⟨0x740, 0, 1, [⟨0, 1, .rw, (.val 0)⟩]⟩,  -- DBG_CFG R377
  ⟨0x780, 8, 8, [⟨0, 32, .wo, (.val 0)⟩]⟩  -- EV_POST R377
]

/-- Registers of the cal block. -/
def regRows_cal : List RegRow := [
  ⟨0x100, 0, 1, [⟨0, 16, .rw, (.val 0)⟩]⟩,  -- CAL_SEL R610
  ⟨0x108, 0, 1, [⟨48, 16, .ro, .hw⟩, ⟨32, 16, .rw, (.val 0)⟩, ⟨16, 16, .ro, .hw⟩, ⟨1, 1, .ro, (.val 0)⟩, ⟨0, 1, .ro, (.val 0)⟩]⟩  -- CAL_VIEW R610
]

/-- Registers of the boot block. -/
def regRows_boot : List RegRow := [
  ⟨0x100, 0, 1, [⟨0, 4, .ro, .hw⟩]⟩,  -- REVOKE R599
  ⟨0x108, 0, 1, [⟨0, 64, .ro, .hw⟩]⟩,  -- SVN_MIN_12 R599
  ⟨0x110, 0, 1, [⟨0, 64, .ro, .hw⟩]⟩,  -- SVN_MIN_3_MODE R599
  ⟨0x118, 0, 1, [⟨0, 64, .ro, .hw⟩]⟩,  -- DEVICE_ID_LO R599
  ⟨0x120, 0, 1, [⟨0, 64, .ro, .hw⟩]⟩  -- DEVICE_ID_HI R599
]

/-- Registers of the sense block. -/
def regRows_sense : List RegRow := [
  ⟨0x100, 8, 64, [⟨48, 16, .ro, (.val 0)⟩, ⟨0, 16, .ro, (.val 0)⟩]⟩,  -- SENSE_TEMP R617
  ⟨0x400, 8, 16, [⟨32, 16, .ro, (.val 0)⟩, ⟨0, 16, .ro, (.val 0)⟩]⟩,  -- RAIL R617
  ⟨0x500, 0, 1, [⟨0, 16, .rw, (.val 0x0338)⟩]⟩,  -- SENSE_WARN R618
  ⟨0x508, 0, 1, [⟨0, 1, .w1c, (.val 0)⟩]⟩  -- SENSE_ALARM R618
]

/-- Registers of the mbox block. -/
def regRows_mbox : List RegRow := [
  ⟨0x100, 256, 4, [⟨0, 64, .rw, (.val 0)⟩]⟩,  -- CMD_0 R619
  ⟨0x108, 256, 4, [⟨0, 64, .rw, (.val 0)⟩]⟩,  -- CMD_1 R619
  ⟨0x110, 256, 4, [⟨0, 64, .rw, (.val 0)⟩]⟩,  -- CMD_2 R619
  ⟨0x118, 256, 4, [⟨0, 64, .rw, (.val 0)⟩]⟩,  -- CMD_3 R619
  ⟨0x120, 256, 4, [⟨0, 64, .rw, (.val 0)⟩]⟩,  -- CMD_4 R619
  ⟨0x128, 256, 4, [⟨0, 64, .rw, (.val 0)⟩]⟩,  -- CMD_5 R619
  ⟨0x130, 256, 4, [⟨0, 64, .rw, (.val 0)⟩]⟩,  -- CMD_6 R619
  ⟨0x138, 256, 4, [⟨0, 64, .rw, (.val 0)⟩]⟩,  -- CMD_7 R619
  ⟨0x140, 256, 4, [⟨0, 64, .ro, (.val 0)⟩]⟩,  -- RSP_0 R619
  ⟨0x148, 256, 4, [⟨0, 64, .ro, (.val 0)⟩]⟩,  -- RSP_1 R619
  ⟨0x150, 256, 4, [⟨0, 64, .ro, (.val 0)⟩]⟩,  -- RSP_2 R619
  ⟨0x158, 256, 4, [⟨0, 64, .ro, (.val 0)⟩]⟩,  -- RSP_3 R619
  ⟨0x160, 256, 4, [⟨0, 64, .ro, (.val 0)⟩]⟩,  -- RSP_4 R619
  ⟨0x168, 256, 4, [⟨0, 64, .ro, (.val 0)⟩]⟩,  -- RSP_5 R619
  ⟨0x170, 256, 4, [⟨0, 64, .ro, (.val 0)⟩]⟩,  -- RSP_6 R619
  ⟨0x178, 256, 4, [⟨0, 64, .ro, (.val 0)⟩]⟩,  -- RSP_7 R619
  ⟨0x180, 256, 4, [⟨8, 5, .rw, (.val 0)⟩, ⟨3, 1, .ro, (.val 0)⟩, ⟨2, 1, .ro, (.val 0)⟩, ⟨1, 1, .w1c, (.val 0)⟩, ⟨0, 1, .wo, (.val 0)⟩]⟩  -- MB_CTL R619
]

/-- Registers of the mgmt block. -/
def regRows_mgmt : List RegRow := [
  ⟨0x100, 0, 1, [⟨16, 48, .rw, (.val 0)⟩, ⟨3, 1, .rw, (.val 1)⟩, ⟨2, 1, .rw, (.val 0)⟩, ⟨1, 1, .rw, (.val 0)⟩, ⟨0, 1, .rw, (.val 0)⟩]⟩  -- MGMT_CFG R625
]

/-- Registers of the pcie block. -/
def regRows_pcie : List RegRow := [
  ⟨0x100, 8, 2, [⟨2, 1, .rw, (.val 0)⟩, ⟨1, 1, .rw, (.val 0)⟩, ⟨0, 1, .rw, (.val 0)⟩]⟩  -- GRANT_PF R627
]

/-- Registers of the debug block. -/
def regRows_debug : List RegRow := [
  ⟨0x100, 0, 1, [⟨8, 1, .wo, (.val 0)⟩, ⟨0, 4, .ro, (.val 0)⟩]⟩  -- DEBUG_STAT R629
]

/-- The registers of a block beyond its UCB. -/
def regRows : BlkKind → List RegRow
  | .ucb => regRows_ucb
  | .device => regRows_device
  | .group => regRows_group
  | .half => regRows_half
  | .cc => regRows_cc
  | .hub => regRows_hub
  | .ford => regRows_ford
  | .flow => regRows_flow
  | .lpm => regRows_lpm
  | .counter => regRows_counter
  | .learn => regRows_learn
  | .shadow => regRows_shadow
  | .version => regRows_version
  | .assoc => regRows_assoc
  | .buffer => regRows_buffer
  | .sched => regRows_sched
  | .shaper => regRows_shaper
  | .hbmc => regRows_hbmc
  | .locks => regRows_locks
  | .port => regRows_port
  | .tile => regRows_tile
  | .tsched => regRows_tsched
  | .bramble => regRows_bramble
  | .channel => regRows_channel
  | .coproc => regRows_coproc
  | .core => regRows_core
  | .cal => regRows_cal
  | .boot => regRows_boot
  | .sense => regRows_sense
  | .mbox => regRows_mbox
  | .mgmt => regRows_mgmt
  | .pcie => regRows_pcie
  | .debug => regRows_debug
  | .bare => []

/-! Offsets of the registers within their blocks: `R.<block>_<REGISTER>`. -/
namespace R
abbrev ucb_UNIT_ID : Nat := 0x0
abbrev ucb_UNIT_STATE : Nat := 0x8
abbrev ucb_CHILD_MAP : Nat := 0x10
abbrev ucb_COMMIT : Nat := 0x18
abbrev ucb_FAULT_SUMMARY : Nat := 0x20
abbrev ucb_FAULT_MASK : Nat := 0x28
abbrev ucb_POWER_STATE : Nat := 0x30
abbrev ucb_INJECT : Nat := 0x38
abbrev ucb_LAST_COMMIT_STAMP : Nat := 0x40
abbrev ucb_CHILD_MAP_HI : Nat := 0x48
abbrev ucb_COMMIT_AT : Nat := 0x50
abbrev device_DTS_CTL : Nat := 0x100
abbrev device_DTS_LOAD : Nat := 0x108
abbrev device_DTS_SLEW : Nat := 0x110
abbrev device_TSYNC_CFG : Nat := 0x118
abbrev device_TSYNC_CAP : Nat := 0x120
abbrev device_TSYNC_STAT : Nat := 0x128
abbrev device_PTP_INCR : Nat := 0x130
abbrev device_PTP_SEC : Nat := 0x138
abbrev device_PTP_NS : Nat := 0x140
abbrev device_PTP_DTS : Nat := 0x148
abbrev device_PTP_ADJ_SEC : Nat := 0x150
abbrev device_PTP_ADJ_NS : Nat := 0x158
abbrev device_PTP_CTL : Nat := 0x160
abbrev device_FAULTN_CTL : Nat := 0x200
abbrev device_START_CTL : Nat := 0x300
abbrev device_START_STAT : Nat := 0x308
abbrev device_PWR_STAT : Nat := 0x310
abbrev device_THERM_CTL : Nat := 0x318
abbrev device_RAIL_LIMIT : Nat := 0x400
abbrev group_GROUP_CFG : Nat := 0x100
abbrev group_REMOTE_SUMMARY : Nat := 0x200
abbrev half_DTS_NOW : Nat := 0x100
abbrev half_DTS_ALIGN : Nat := 0x108
abbrev half_DSCP_MAP : Nat := 0x220
abbrev half_CLS_STALL_TICKS : Nat := 0x240
abbrev half_OUTER_FRAGMENT : Nat := 0x248
abbrev half_OUTER_UNKNOWN_TUNNEL : Nat := 0x250
abbrev half_OUTER_DEPTH : Nat := 0x258
abbrev half_OUTER_WINDOW : Nat := 0x260
abbrev half_OUTER_MALFORMED : Nat := 0x268
abbrev half_OUTER_STEPS : Nat := 0x270
abbrev half_IND_REDIRECT : Nat := 0x278
abbrev half_IND_MOVE_HOLD : Nat := 0x280
abbrev half_TWO_PASS : Nat := 0x288
abbrev half_VPORT_OVERSIZE : Nat := 0x290
abbrev half_BRAMBLE_CFG : Nat := 0x300
abbrev half_OLDEST_LIVE : Nat := 0x400
abbrev half_PATIENCE : Nat := 0x410
abbrev half_IMG_CTL : Nat := 0x450
abbrev half_IMG_SWITCH_AT : Nat := 0x458
abbrev half_LATE_RELEASES : Nat := 0x480
abbrev half_OVERTAKEN_PATIENCE : Nat := 0x488
abbrev half_WINDOW_OVERTAKEN : Nat := 0x490
abbrev half_ATOMIC_STALL_TICKS : Nat := 0x498
abbrev half_INJECT_STALL_TICKS : Nat := 0x4A0
abbrev half_ORDERED_RELEASES : Nat := 0x4A8
abbrev half_PKT_HBM_BASE : Nat := 0x500
abbrev half_PKT_HBM_LIMIT : Nat := 0x508
abbrev half_EXP_CFG : Nat := 0x600
abbrev half_EXP_LANE : Nat := 0x608
abbrev half_EXP_STAT : Nat := 0x610
abbrev half_EXP_REQUESTS : Nat := 0x620
abbrev half_EXP_RESPONSES : Nat := 0x628
abbrev half_EXP_TIMEOUTS : Nat := 0x630
abbrev half_EXP_LATE_RSP : Nat := 0x638
abbrev half_EXP_CRC_ERR : Nat := 0x640
abbrev half_EXP_REPLAYS : Nat := 0x648
abbrev half_EXP_FRAME_DROP : Nat := 0x650
abbrev half_HOLD_CFG_V : Nat := 0x700
abbrev half_HOLD_STAT_V : Nat := 0x708
abbrev half_VPORT_CFG : Nat := 0x740
abbrev half_DROOP_CFG : Nat := 0x800
abbrev half_DROOP_STAT : Nat := 0x808
abbrev half_STRETCHED_CYCLES : Nat := 0x810
abbrev half_DROOP_EVENTS : Nat := 0x818
abbrev half_DOM_CLASS : Nat := 0x1000
abbrev cc_CC_CH_CFG : Nat := 0x100
abbrev cc_CC_CTL : Nat := 0x400
abbrev cc_CC_ENTRY : Nat := 0x408
abbrev cc_MIRROR_OWN : Nat := 0x420
abbrev cc_MIRROR_PEER : Nat := 0x428
abbrev cc_MIRROR_SIZE : Nat := 0x430
abbrev cc_RING_BASE : Nat := 0x440
abbrev cc_RING_CTL : Nat := 0x448
abbrev cc_RING_EVENT : Nat := 0x450
abbrev cc_MIRROR_UNSENT : Nat := 0x600
abbrev cc_CC_THREAD_CTL : Nat := 0x700
abbrev hub_REC_SEL : Nat := 0x100
abbrev hub_REC_LO : Nat := 0x108
abbrev hub_REC_HI : Nat := 0x110
abbrev hub_REC_ACK : Nat := 0x118
abbrev hub_OPEN_MAP : Nat := 0x120
abbrev hub_NOTE_CFG : Nat := 0x180
abbrev hub_PRIVET_HB : Nat := 0x188
abbrev hub_PRIVET_STAT : Nat := 0x190
abbrev hub_SAFE_CFG : Nat := 0x198
abbrev hub_RECOVERY_CFG : Nat := 0x1A0
abbrev hub_DETAIL_A : Nat := 0x1A8
abbrev hub_DETAIL_B : Nat := 0x1B0
abbrev hub_MERGES : Nat := 0x200
abbrev hub_ACK_STALE : Nat := 0x208
abbrev hub_LOG_LOST : Nat := 0x210
abbrev hub_SAFE_ENTRIES : Nat := 0x218
abbrev hub_DETAIL_LOST : Nat := 0x220
abbrev ford_FORD_CFG : Nat := 0x100
abbrev ford_FORD_STAT : Nat := 0x108
abbrev ford_FORD_DELAY : Nat := 0x110
abbrev ford_BUNDLE_STAT : Nat := 0x200
abbrev ford_CROSS_SENT : Nat := 0x300
abbrev ford_CROSS_RECEIVED : Nat := 0x308
abbrev ford_XHALF_DROP : Nat := 0x310
abbrev ford_CREDIT_WAIT_TICKS : Nat := 0x318
abbrev ford_FLIT_REPLAYS : Nat := 0x320
abbrev ford_LANES_REPAIRED : Nat := 0x328
abbrev ford_PEER_LOST_EVENTS : Nat := 0x330
abbrev flow_FLOW_BASE : Nat := 0x100
abbrev flow_FLOW_CFG : Nat := 0x108
abbrev flow_FLOW_INSERTED : Nat := 0x200
abbrev flow_FLOW_FULL : Nat := 0x208
abbrev flow_FLOW_STASHED : Nat := 0x210
abbrev lpm_LPM_CFG : Nat := 0x100
abbrev counter_COUNTER_BASE : Nat := 0x100
abbrev counter_READ_SEL : Nat := 0x110
abbrev counter_READ_PKTS : Nat := 0x118
abbrev counter_READ_BYTES : Nat := 0x120
abbrev counter_COUNTER_LOST : Nat := 0x200
abbrev learn_LEARN_CFG : Nat := 0x100
abbrev learn_LEARN_RESULT : Nat := 0x108
abbrev learn_LEARN_PORTS_LO : Nat := 0x110
abbrev learn_LEARN_PORTS_HI : Nat := 0x118
abbrev learn_LEARN_AGE_THR : Nat := 0x120
abbrev learn_LEARN_SWEEP : Nat := 0x140
abbrev learn_LEARN_NOTE_BASE : Nat := 0x150
abbrev learn_LEARN_NOTE_CTL : Nat := 0x158
abbrev learn_LEARN_NOTE_EVENT : Nat := 0x160
abbrev learn_LEARN_NEW : Nat := 0x200
abbrev learn_LEARN_MOVE : Nat := 0x208
abbrev learn_LEARN_SKIP : Nat := 0x210
abbrev learn_LEARN_FULL : Nat := 0x218
abbrev learn_LEARN_DROP : Nat := 0x220
abbrev learn_AGED : Nat := 0x228
abbrev learn_NOTE_DROP : Nat := 0x230
abbrev shadow_SHADOW_CFG : Nat := 0x100
abbrev shadow_SHADOW_BASE : Nat := 0x108
abbrev shadow_SHADOW_STAT : Nat := 0x110
abbrev shadow_DIVERGED : Nat := 0x200
abbrev shadow_REPAIRED : Nat := 0x208
abbrev version_BATCH_CMD : Nat := 0x100
abbrev version_BATCH_E : Nat := 0x108
abbrev version_BATCH_LIST_ADDR : Nat := 0x110
abbrev version_BATCH_LIST_LEN : Nat := 0x118
abbrev version_BATCH_SEL : Nat := 0x120
abbrev version_BATCH_STAT : Nat := 0x128
abbrev version_BATCH_STAT_E : Nat := 0x130
abbrev version_PENDING_TOTAL : Nat := 0x138
abbrev version_RETIRE_BASIS : Nat := 0x140
abbrev version_BATCHES_RETIRED : Nat := 0x200
abbrev version_BATCHES_REFUSED : Nat := 0x208
abbrev version_CMD_IGNORED : Nat := 0x210
abbrev assoc_CLASS_BANKS : Nat := 0x100
abbrev assoc_BANK_STAT : Nat := 0x180
abbrev assoc_SEARCHES : Nat := 0x200
abbrev assoc_BANK_COMPARES : Nat := 0x208
abbrev assoc_MULTI_RESPONSES : Nat := 0x210
abbrev assoc_REBUILD_RESPONSES : Nat := 0x218
abbrev assoc_LOST_RESPONSES : Nat := 0x220
abbrev assoc_SCRUB_CORRECTED : Nat := 0x228
abbrev assoc_SCRUB_UNCORRECTED : Nat := 0x230
abbrev assoc_ENTRY_SEL : Nat := 0x300
abbrev assoc_ENTRY_DATA : Nat := 0x308
abbrev buffer_POOL_CFG : Nat := 0x100
abbrev buffer_POOL_STAT : Nat := 0x120
abbrev buffer_FREE_STAT : Nat := 0x140
abbrev buffer_MC_CFG : Nat := 0x148
abbrev buffer_BANK_FENCED_LO : Nat := 0x150
abbrev buffer_BANK_FENCED_HI : Nat := 0x158
abbrev buffer_SPILL_BASE : Nat := 0x160
abbrev buffer_SPILL_SIZE : Nat := 0x168
abbrev buffer_SPILL_CFG : Nat := 0x170
abbrev buffer_SPILL_STAT : Nat := 0x178
abbrev buffer_ENTRY_FULL : Nat := 0x200
abbrev buffer_FORD_NO_CELL : Nat := 0x208
abbrev buffer_ODESC_NO_CELL : Nat := 0x210
abbrev buffer_REPL_TRUNCATED : Nat := 0x218
abbrev buffer_REPL_BROKEN : Nat := 0x220
abbrev buffer_BAD_LIST : Nat := 0x228
abbrev buffer_BAD_POINTER : Nat := 0x230
abbrev buffer_RECLAIMED : Nat := 0x238
abbrev buffer_FILL_RETRIES : Nat := 0x240
abbrev buffer_QCFG : Nat := 0x1000
abbrev buffer_QSTAT : Nat := 0x4000
abbrev buffer_THRESHOLD_DROP : Nat := 0x6800
abbrev buffer_POOL_DROP : Nat := 0x6808
abbrev buffer_DOWN_DROP : Nat := 0x6810
abbrev buffer_FLUSH_DROP : Nat := 0x6818
abbrev buffer_LINK_LOST : Nat := 0x6820
abbrev buffer_ERROR_DROP : Nat := 0x6828
abbrev buffer_STOMPED : Nat := 0x6830
abbrev buffer_SPILL_DROP : Nat := 0x6838
abbrev buffer_ECN_MARK_REQ : Nat := 0x6840
abbrev buffer_ADMITTED : Nat := 0x6848
abbrev sched_TELEM_BASE : Nat := 0x100
abbrev sched_TELEM_CTL : Nat := 0x108
abbrev sched_TELEM_EVENT : Nat := 0x110
abbrev sched_TELEM_RECORDS : Nat := 0x200
abbrev sched_TELEM_DROP : Nat := 0x208
abbrev sched_QSCH : Nat := 0x1000
abbrev sched_CSCH : Nat := 0x3400
abbrev sched_PSCH : Nat := 0x3E00
abbrev sched_PSHP_RATE : Nat := 0x4100
abbrev sched_PSHP_BURST : Nat := 0x4108
abbrev sched_TX_FRAMES : Nat := 0x5000
abbrev sched_TX_BYTES : Nat := 0x5008
abbrev sched_LATE_FRAMES : Nat := 0x5010
abbrev sched_ECN_MARKED : Nat := 0x5018
abbrev sched_ECN_UNMARKED : Nat := 0x5020
abbrev sched_VID_NO_TAG : Nat := 0x5028
abbrev sched_OVERSIZE_DROP : Nat := 0x5030
abbrev sched_PFC_RETURNS : Nat := 0x5038
abbrev sched_PAUSED_TICKS : Nat := 0x5040
abbrev sched_SHAPED_TICKS : Nat := 0x5048
abbrev shaper_QSHP_RATE : Nat := 0x100
abbrev shaper_QSHP_BURST : Nat := 0x108
abbrev shaper_CSHP_RATE : Nat := 0x4800
abbrev shaper_CSHP_BURST : Nat := 0x4808
abbrev hbmc_HBMC_CFG : Nat := 0x100
abbrev hbmc_HBMC_STAT : Nat := 0x108
abbrev hbmc_REPAIR_STAT : Nat := 0x110
abbrev hbmc_REGION_LO : Nat := 0x200
abbrev hbmc_REGION_HI : Nat := 0x208
abbrev hbmc_CORRECTED : Nat := 0x300
abbrev hbmc_UNCORRECTED : Nat := 0x308
abbrev hbmc_FORWARDED : Nat := 0x310
abbrev hbmc_RAW_WAITS : Nat := 0x318
abbrev hbmc_REF_FORCED : Nat := 0x320
abbrev hbmc_PD_ENTRIES : Nat := 0x328
abbrev hbmc_SCRUB_PASSES : Nat := 0x330
abbrev hbmc_REGION_DENIED : Nat := 0x338
abbrev hbmc_PARITY_RETRIES : Nat := 0x340
abbrev locks_FORCE : Nat := 0x100
abbrev locks_LOCK_SEL : Nat := 0x108
abbrev locks_LOCK_STAT : Nat := 0x110
abbrev locks_ACQUIRES : Nat := 0x200
abbrev locks_CONTENDED : Nat := 0x208
abbrev locks_ABANDONS : Nat := 0x210
abbrev locks_FORCED : Nat := 0x218
abbrev locks_TIMEOUTS : Nat := 0x220
abbrev locks_INHERIT_SIGNALS : Nat := 0x228
abbrev locks_INHERIT_CHAIN_CUT : Nat := 0x230
abbrev port_PTP_CFG : Nat := 0x100
abbrev port_PTP_TXTS_A : Nat := 0x108
abbrev port_PTP_TXTS_B : Nat := 0x110
abbrev port_MAC_CFG : Nat := 0x200
abbrev port_LANE_CFG : Nat := 0x208
abbrev port_LINK_STAT : Nat := 0x210
abbrev port_RX_PRIO : Nat := 0x218
abbrev port_PFC_CFG : Nat := 0x220
abbrev port_RXQ_THR : Nat := 0x228
abbrev port_RX_FRAMES_OK : Nat := 0x300
abbrev port_RX_BYTES_OK : Nat := 0x308
abbrev port_RX_FCS_ERR : Nat := 0x310
abbrev port_RX_RUNT : Nat := 0x318
abbrev port_RX_OVERSIZE : Nat := 0x320
abbrev port_RX_PCS_ERR : Nat := 0x328
abbrev port_RX_NO_CELL : Nat := 0x330
abbrev port_ING_ADMIT_DROP : Nat := 0x338
abbrev port_RX_HEADROOM_DROP : Nat := 0x340
abbrev port_METER_RED_DROP : Nat := 0x348
abbrev port_RX_PFC_FRAMES : Nat := 0x350
abbrev port_RX_PAUSE_DISCARD : Nat := 0x358
abbrev port_RX_MACCTL_DISCARD : Nat := 0x360
abbrev port_TX_PFC_FRAMES : Nat := 0x368
abbrev port_FEC_CORRECTED : Nat := 0x370
abbrev port_FEC_UNCORRECTED : Nat := 0x378
abbrev port_RXQ_LEVEL : Nat := 0x380
abbrev port_HOLD_CFG : Nat := 0x400
abbrev port_HOLD_STAT : Nat := 0x408
abbrev tile_TMEM_CFG : Nat := 0x100
abbrev tile_INT_CFG : Nat := 0x110
abbrev tile_CP_LATE_CFG : Nat := 0x118
abbrev tile_SPARE_CFG : Nat := 0x120
abbrev tile_SPARE_STAT : Nat := 0x128
abbrev tile_LAST_PASS : Nat := 0x130
abbrev tile_BAD_OUTPUTS : Nat := 0x200
abbrev tile_OUTPUT_LAST : Nat := 0x208
abbrev tile_ROTATIONS : Nat := 0x210
abbrev tile_LBIST_PASSES : Nat := 0x218
abbrev tile_CORE_FAULT_DISCARDS : Nat := 0x220
abbrev tsched_DISP_CFG : Nat := 0x100
abbrev tsched_TASK_STAT : Nat := 0x108
abbrev tsched_SVC_CFG : Nat := 0x200
abbrev tsched_SVC_FLAGS : Nat := 0x300
abbrev tsched_SVC_POST : Nat := 0x400
abbrev tsched_TASKS_CREATED : Nat := 0x500
abbrev tsched_TASKS_COMPLETED : Nat := 0x508
abbrev tsched_TASKS_DROPPED : Nat := 0x510
abbrev tsched_TASKS_DISCARDED : Nat := 0x518
abbrev tsched_PARKS : Nat := 0x520
abbrev tsched_WAITS_IN_THREAD : Nat := 0x528
abbrev tsched_INHERIT_RAISES : Nat := 0x530
abbrev tsched_SVC_RUNS : Nat := 0x538
abbrev tsched_DISCARD_LAST : Nat := 0x540
abbrev tsched_DISCARD_BY_REASON : Nat := 0x588
abbrev bramble_PAT_SEL : Nat := 0x100
abbrev bramble_PAT_DATA : Nat := 0x108
abbrev bramble_SCANS : Nat := 0x200
abbrev bramble_BYTES_SCANNED : Nat := 0x208
abbrev bramble_OVERFLOWS : Nat := 0x210
abbrev bramble_SCANS_CANCELLED : Nat := 0x218
abbrev bramble_INCOMPLETE_SCANS : Nat := 0x220
abbrev bramble_QUEUE_TICKS : Nat := 0x228
abbrev channel_CH_CFG : Nat := 0x100
abbrev channel_CH_SENT : Nat := 0x900
abbrev channel_CH_FULL : Nat := 0x908
abbrev channel_CH_RECEIVED : Nat := 0x910
abbrev channel_CHANNEL_ABANDON : Nat := 0x918
abbrev channel_CH_DISCARDED : Nat := 0x920
abbrev coproc_CP_DESC : Nat := 0x100
abbrev coproc_CP_CFG : Nat := 0x180
abbrev coproc_CP_LOCK_STAT : Nat := 0x188
abbrev coproc_CP_OPS : Nat := 0x200
abbrev coproc_CP_CANCELLED : Nat := 0x208
abbrev coproc_CP_TRAPS : Nat := 0x210
abbrev coproc_CP_LATE : Nat := 0x218
abbrev coproc_CP_MERGED : Nat := 0x220
abbrev coproc_CP_LATE_LOST : Nat := 0x228
abbrev coproc_CP_ABANDON : Nat := 0x230
abbrev coproc_CP_LOCK_BUSY : Nat := 0x238
abbrev core_ISSUED_SLOTS : Nat := 0x600
abbrev core_SQUASHED_SLOTS : Nat := 0x608
abbrev core_MISPREDICTS : Nat := 0x610
abbrev core_TRAPS_TAKEN : Nat := 0x618
abbrev core_TRAP_DISCARDS : Nat := 0x620
abbrev core_TRAP_LAST : Nat := 0x628
abbrev core_WAITEV_WAITS : Nat := 0x630
abbrev core_DEADLOCKS : Nat := 0x638
abbrev core_INTERRUPTS_TAKEN : Nat := 0x640
abbrev core_EVSIG_DROPPED : Nat := 0x648
abbrev core_STARVE_GRANTS : Nat := 0x650
abbrev core_THREAD_CTL : Nat := 0x700
abbrev core_DBG_CFG : Nat := 0x740
abbrev core_EV_POST : Nat := 0x780
abbrev cal_CAL_SEL : Nat := 0x100
abbrev cal_CAL_VIEW : Nat := 0x108
abbrev boot_REVOKE : Nat := 0x100
abbrev boot_SVN_MIN_12 : Nat := 0x108
abbrev boot_SVN_MIN_3_MODE : Nat := 0x110
abbrev boot_DEVICE_ID_LO : Nat := 0x118
abbrev boot_DEVICE_ID_HI : Nat := 0x120
abbrev sense_SENSE_TEMP : Nat := 0x100
abbrev sense_RAIL : Nat := 0x400
abbrev sense_SENSE_WARN : Nat := 0x500
abbrev sense_SENSE_ALARM : Nat := 0x508
abbrev mbox_CMD_0 : Nat := 0x100
abbrev mbox_CMD_1 : Nat := 0x108
abbrev mbox_CMD_2 : Nat := 0x110
abbrev mbox_CMD_3 : Nat := 0x118
abbrev mbox_CMD_4 : Nat := 0x120
abbrev mbox_CMD_5 : Nat := 0x128
abbrev mbox_CMD_6 : Nat := 0x130
abbrev mbox_CMD_7 : Nat := 0x138
abbrev mbox_RSP_0 : Nat := 0x140
abbrev mbox_RSP_1 : Nat := 0x148
abbrev mbox_RSP_2 : Nat := 0x150
abbrev mbox_RSP_3 : Nat := 0x158
abbrev mbox_RSP_4 : Nat := 0x160
abbrev mbox_RSP_5 : Nat := 0x168
abbrev mbox_RSP_6 : Nat := 0x170
abbrev mbox_RSP_7 : Nat := 0x178
abbrev mbox_MB_CTL : Nat := 0x180
abbrev mgmt_MGMT_CFG : Nat := 0x100
abbrev pcie_GRANT_PF : Nat := 0x100
abbrev debug_DEBUG_STAT : Nat := 0x100
end R

end Sys2Proof
end

