-- ==== Sys2Proof/Machine/State.lean ====
section
/-! DEFINITION. The state of the block as plain data: every register, memory, queue, counter, mode and pin the spec gives it, the
commands that wait, and the few fields of the model itself (`fresh`, `ticks`). -/

namespace Sys2Proof.Machine

/-! ### Units, commits and faults -/

/-- The state of a unit (R17). -/
inductive UState where
  | off | reset | test | active | fenced
  deriving DecidableEq, Repr

/-- The state of the device (R17). -/
inductive DevState where
  | start | run | recovery
  deriving DecidableEq, Repr

/-- What a unit holds beside its registers (R44, R47, R48, R50, R51, R53, R567): its state and the cause of the last transition,
an entry into RESET, OFF or FENCED that is not yet complete (R56), the commit flags and counts, the fault count, the power
level, an armed inverted check, and the word that a checker wrote with inverted check bits (checker as INV_SEL named it, address). -/
structure UnitDyn where
  state : UState
  cause : BitVec 8
  entering : Option (UState × BitVec 8)
  armed : Bool
  gen : BitVec 32
  stamp : DWord
  faultCount : Nat
  power : Nat
  invPend : Bool
  invAt : Option (Nat × Nat)
  deriving DecidableEq, Repr

/-- A unit after power-on: RESET with cause 0x00 (R44, R45). -/
def UnitDyn.init : UnitDyn :=
  { state := .reset, cause := 0, entering := none, armed := false, gen := 0, stamp := 0, faultCount := 0, power := 0,
    invPend := false, invAt := none }

/-- A started commit: its root, the units it has not yet reached, those that it has reached and that have not yet applied
(R47, R62, R63), and of the ports among these the sides that have applied, true for the receive side (R64). -/
structure CommitRec where
  root : UnitId
  todo : List UnitId
  waiting : List UnitId
  sides : List (UnitId × Bool)
  deriving DecidableEq, Repr

/-- The class of a fault (R544). -/
inductive FClass where
  | corrected | contained | fatal
  deriving DecidableEq, Repr

/-- A fault record (R546). -/
structure FaultRec where
  stamp : BitVec 48
  code : BitVec 8
  cls : FClass
  isOpen : Bool
  unit : UnitId
  phys : BitVec 5
  injected : Bool
  merged : Nat
  sources : BitVec 32
  deriving DecidableEq, Repr

/-- One opening or merge on its way to Privet (R555, R616). -/
structure HubEvent where
  slot : Nat
  merge : Bool
  entry : FaultRec
  detail : DWord
  dtsHigh : BitVec 16
  deriving DecidableEq, Repr

/-- One entry of the detail queue (R556); `id` numbers the entries of a hub. -/
structure DetailEntry where
  id : Nat
  slot : Nat
  code : BitVec 8
  detail : DWord
  deriving DecidableEq, Repr

/-- The state of Privet as the hubs see it (R578, R579, R586). -/
inductive PrivetRun where
  | up | restarting | fenced
  deriving DecidableEq, Repr

/-- What a hub holds beside its registers: the record slots (R548), the event queue to Privet (R555), the detail queue (R556),
the latches of each agent (R554, R556), the heartbeat window (R578, R579), the FAULT_N pulse (R564) and the safe state (R561). -/
structure HubState where
  slots : Tbl FaultRec
  events : List HubEvent
  details : List DetailEntry
  recLatch : List (Agent × DWord)
  detailNext : Nat
  detailLatch : List (Agent × DetailEntry)
  hbSeen : Bool
  /-- elapsed tick at which the heartbeat window ends (R578) -/
  hbEnd : Nat
  hbLosses : List Nat
  hbTotal : Nat
  privet : PrivetRun
  pulseEnd : Option Nat
  squelched : Bool
  deriving DecidableEq, Repr

def HubState.reset : HubState :=
  { slots := [], events := [], details := [], recLatch := [], detailNext := 0, detailLatch := [], hbSeen := false, hbEnd := 1500000,
    hbLosses := [], hbTotal := 0, privet := .up, pulseEnd := none, squelched := false }

/-! ### Time -/

/-- A half's copies of DTS and of the PTP counter, their alignment, and what the DTS reads of each agent latched
(R69, R73, R74, R88, R674). -/
structure TimeState where
  dts : DWord
  counting : Bool
  valid : Bool
  ptpSec : Nat
  ptpNs : Nat
  ptpFrac : Nat
  skewFaults : Nat
  /-- DTS of H1 minus DTS of H0 at the last measurement -/
  offset : Int
  /-- the follower has measured more than 2 ticks and slews (R75) -/
  slewing : Bool
  /-- this follower's DTS minus the leader's, as measured and as slewed since -/
  skew : Int
  /-- ticks since the follower's last slewed tick -/
  followGrid : Nat
  dtsLatch : List (Agent × BitVec 32)
  deriving DecidableEq, Repr

def TimeState.reset : TimeState :=
  { dts := 0, counting := false, valid := false, ptpSec := 0, ptpNs := 0, ptpFrac := 0, skewFaults := 0, offset := 0,
    slewing := false, skew := 0, followGrid := 0, dtsLatch := [] }

/-! ### Ports, parser and classifier -/

/-- A frame from its first bit to its task (R108, R113, R239, R243): its port 0–131, stamp and per-port arrival sequence, its PTP
receive field (R91), the bytes received (with the FCS for a physical port), its chain once it holds a cell, its receive priority
once known, and whether its remainder is neither stored nor checked. -/
structure RxFrame where
  port : Nat
  stamp : DWord
  seq : Nat
  ptp : DWord
  bytes : List Byte
  chain : Option Nat
  prio : Option Nat
  cut : Bool
  /-- MAC_CFG as it stood at the frame's start (R102), or VPORT_CFG_v at its entry -/
  mac : DWord
  deriving DecidableEq, Repr

/-- A parse bank (R120–R123, R131): state entries, transition entries, extraction entries and key profiles, as numbers. -/
structure ParseBank where
  states : Tbl Nat
  trans : Tbl Nat
  extr : Tbl Nat
  profiles : Tbl (List Byte)
  deriving DecidableEq, Repr

def ParseBank.init : ParseBank := { states := [], trans := [], extr := [], profiles := [] }

/-- A frame the classifier has taken (R118, R124–R134, R141): what TASK_CREATE writes to the task. -/
structure ClsFrame where
  frame : RxFrame
  bank : Nat
  /-- the frame needs a second pass that has not started (R127) -/
  second : Bool
  outer : Nat
  csumBad : Bool
  hdrs : List Nat
  key : List Byte
  keyLen : Nat
  hash : Nat
  m : Nat
  domain : Nat
  mode : Nat
  colour : Nat
  program : Nat
  deriving DecidableEq, Repr

/-- A two-step timestamp record (R92). -/
structure TxStamp where
  sec : Nat
  ns : Nat
  frac : Nat
  seqId : Nat
  msgType : Nat
  dom : Nat
  deriving DecidableEq, Repr

/-- The ingress side of a half. Tables by local port lp, or by 8 × lp + priority. -/
structure IngressState where
  arriving : Tbl RxFrame
  seqs : Tbl Nat
  /-- RXQ_p in cells (R114) -/
  level : Tbl Nat
  /-- PFC frames due: class-enable bits with time QUANTA, and with time 0 (R116) -/
  pfcXoff : Tbl Nat
  pfcXon : Tbl Nat
  /-- elapsed tick of the last XOFF frame of a priority that stays at or above XON (R116) -/
  pfcSince : Tbl Nat
  /-- class-enable bits and eight times of the last PFC frame that a port has sent (R116) -/
  pfcSent : Tbl (Nat × List Nat)
  /-- received PFC frames not yet acted on: class-enable bits and eight times -/
  pfcRx : Tbl (List (Nat × List Nat))
  /-- elapsed tick at which the pause of a priority ends (R117) -/
  pauses : Tbl Nat
  /-- completed frames that wait for the classifier -/
  done : List RxFrame
  /-- the inject queue, oldest first (R247) -/
  inject : List RxFrame
  /-- frames selected for P130 on their way to the inject queue: chain identity (R490) -/
  loops : List Nat
  /-- threads stalled in a posting instruction, in the order in which they stalled (R247) -/
  posters : List ThreadRef
  cur : Option ClsFrame
  /-- the tile chosen last by load (R245) -/
  lastTile : Nat
  /-- tile of the last atomic task of an indirection entry (R138) -/
  indTile : Tbl Nat
  /-- tasks created by the half's classifier -/
  nextBorn : Nat
  bank0 : ParseBank
  bank1 : ParseBank
  /-- two-step FIFO of a port (R92) -/
  txts : Tbl (List TxStamp)
  /-- retrains of a port within the last second: elapsed ticks (R558) -/
  laneFails : Tbl (List Nat)
  /-- SW of the image switch in progress, and the last switch stamp (R273, R274) -/
  imgNext : DWord
  imgLast : DWord
  deriving DecidableEq, Repr

def IngressState.reset : IngressState :=
  { arriving := [], seqs := [], level := [], pfcXoff := [], pfcXon := [], pfcSince := [], pfcSent := [], pfcRx := [], pauses := [], done := [],
    inject := [], loops := [], posters := [], cur := none, lastTile := 15, indTile := [], nextBorn := 0, bank0 := ParseBank.init,
    bank1 := ParseBank.init, txts := [], laneFails := [], imgNext := 0, imgLast := 0 }

/-- A half's Confluence (R264–R271): each domain's window as tiles and slots in order key, the crossing frames it holds, frames that
arrived over Ford and are registered until their lists are read, and the other half's OLDEST_LIVE as last received. -/
structure ConfState where
  windows : Tbl (List (Nat × Nat))
  /-- stamps of frames released and not yet acknowledged by the egress half (R270), by chain -/
  crossing : Tbl DWord
  /-- stamps of frames received over Ford whose targets are not all served, by chain -/
  registered : Tbl DWord
  remote : DWord
  deriving DecidableEq, Repr

def ConfState.reset : ConfState := { windows := [], crossing := [], registered := [], remote := 0 }

/-! ### Threads, tasks, channels, locks and coprocessors -/

/-- Where a byte of tile memory lies: the 1 MB RAM or the task store (R238, R325). -/
inductive Loc where
  | ram (off : Nat)
  | store (off : Nat)
  deriving DecidableEq, Repr

/-- Why a thread that holds a task issues nothing (R361, R368, R388, R251, R247). -/
inductive TPhase where
  /-- serves no task -/
  | free
  | issuing
  /-- in WAITEV: destination register, mask, timer named, CLEAR -/
  | waitev (gd : Nat) (mask : Word) (timer : Bool) (clear : Bool)
  /-- in LOCK: destination register, lock number, timer named -/
  | lock (gd : Nat) (num : Nat) (timer : Bool)
  /-- in TWAIT without parking: mask of counters -/
  | twait (mask : Nat)
  /-- in POSTF, stalled on the inject queue: virtual port and the frame's bytes -/
  | post (vport : Nat) (bytes : List Byte)
  deriving DecidableEq, Repr

/-- A hardware thread (R281, R284, R362): its registers, its phase, and the halt of a debugger. The registers of a
control-core thread are 64 bits wide (R356); those of a packet thread hold zero above bit 31. -/
structure Thread where
  phase : TPhase
  halted : Bool
  halting : Bool
  /-- the task or service slot served -/
  task : Option Nat
  /-- g1–g31; an unlisted register reads zero -/
  g : Tbl DWord
  /-- a0–a3 -/
  a : Tbl (BitVec 40)
  pc : BitVec 48
  /-- the return stack, top first -/
  rs : List (BitVec 48)
  mode : Word
  flags : Word
  tcause : Word
  tpc : Word
  tval : Word
  evpend : Word
  wake : Word
  tcmp : DWord
  arm : Bool
  dtsLatch : Word
  ipend : BitVec 8
  ien : BitVec 8
  istat : Word
  ivec : DWord
  /-- the staging buffer: word k when staged (R381) -/
  staging : Tbl Word
  /-- word 0 of the open COPROC_LATE record, if one is open (R410, R411) -/
  late : Option DWord
  /-- the kernel registers of R358, by number; an unlisted one reads zero -/
  k : Tbl DWord
  /-- the priority that inheritance has raised a control-core thread to (R392) -/
  raised : Nat
  deriving DecidableEq, Repr

def Thread.init : Thread :=
  { phase := .free, halted := false, halting := false, task := none, g := [], a := [], pc := 0, rs := [], mode := 0, flags := 0,
    tcause := 0, tpc := 0, tval := 0, evpend := 0, wake := 0, tcmp := 0, arm := false, dtsLatch := 0, ipend := 0, ien := 0,
    istat := 0, ivec := 0, staging := [], late := none, k := [], raised := 0 }

/-- The state of a task (R241). -/
inductive TaskState where
  | free | ready | running | waiting | parked | held | draining | halted
  deriving DecidableEq, Repr

/-- The order mode of a task (R239). -/
inductive OrderMode where
  | free | ordered | atomic
  deriving DecidableEq, Repr

/-- The Bramble scan of a task (R168–R171): none, waiting for its engine, running, ended. -/
inductive ScanState where
  | none | waiting | running | done
  deriving DecidableEq, Repr

/-- The unit that answers an asynchronous request (R250). -/
inductive ReqUnit where
  | table
  | memory
  | hbmWrite
  /-- primary opcode 0x38 + u, cluster that holds the instance, instance -/
  | coproc (u : Nat) (cluster : Nat) (inst : Nat)
  /-- the expansion port: cluster that holds the instance, instance, tag -/
  | expansion (cluster : Nat) (inst : Nat) (tag : Nat)
  deriving DecidableEq, Repr

/-- A request whose response has not yet been written: the slot of the task it belongs to, the thread and the address of
the instruction that issued it, its counter, the answering unit, and the bytes to write with the place they go to. -/
structure Response where
  id : Nat
  slot : Nat
  thread : Nat
  pc : Nat
  fn : Nat
  dc : Nat
  unit : ReqUnit
  loc : Loc
  bytes : List Byte
  /-- HBM parts still to be performed before the response may be written (R331) -/
  parts : Nat
  /-- every HBM part was accepted by its controller -/
  ready : Bool
  /-- the table slots the operation reads, each of which the response waits for while it is withheld: TABLE of R213 and index (R233) -/
  hold : List (Nat × Nat)
  /-- status of the late failure the unit has found, 0 for none (R405, R408) -/
  late : Nat
  deriving DecidableEq, Repr

/-- A packet task or a service run in its slot (R238, R240, R260). -/
structure Task where
  state : TaskState
  keyLen : Nat
  rxPrio : Nat
  outerCode : Nat
  csumBad : Bool
  program : Nat
  port : Nat
  length : Nat
  /-- the chain of the frame; `headCell` is the cell index the descriptor shows -/
  chain : Option Nat
  headCell : Nat
  dc0 : Nat
  dc1 : Nat
  dc2 : Nat
  dc3 : Nat
  basePrio : Nat
  effPrio : Nat
  bank : Nat
  overtaken : Bool
  stamp : DWord
  /-- per-port arrival sequence, the third part of the order key (R243) -/
  seq : Nat
  flowTag : Nat
  m : Nat
  domain : Nat
  mode : OrderMode
  /-- the thread that serves the task -/
  thread : Option Nat
  /-- what a park preserved (R252, R283, R363) -/
  saved : Option Thread
  /-- READY again after a park: resumed tasks go before new ones (R257) -/
  resumed : Bool
  /-- counters named by the TWAIT of a parked task -/
  waitMask : Nat
  scan : ScanState
  /-- bytes to scan and number of DC the scan counts in (R168, R182) -/
  scanLen : Nat
  scanDep : Nat
  /-- interrupt 2 to raise at the resume (R370) -/
  lockForced : Bool
  /-- the accepted output descriptor of a completed task; none for no output -/
  output : Option (List Byte)
  /-- the task has completed or was discarded -/
  complete : Bool
  /-- Confluence has released it, or it awaits no release -/
  released : Bool
  /-- the half's creation number of the task (R138) -/
  born : Nat
  deriving DecidableEq, Repr

def Task.init : Task :=
  { state := .free, keyLen := 0, rxPrio := 0, outerCode := 0, csumBad := false, program := 0, port := 0, length := 0,
    chain := none, headCell := 0, dc0 := 0, dc1 := 0, dc2 := 0, dc3 := 0, basePrio := 0, effPrio := 0, bank := 0,
    overtaken := false, stamp := 0, seq := 0, flowTag := 0, m := 0, domain := 0, mode := .free, thread := none, saved := none,
    resumed := false, waitMask := 0, scan := .none,
    scanLen := 0, scanDep := 0, lockForced := false, output := none, complete := false, released := false, born := 0 }

/-- A message of a channel (R381, R384): the sending thread, its word count and its eight words. -/
structure Message where
  sender : Nat
  count : Nat
  words : List Word
  deriving DecidableEq, Repr

/-- Who holds a lock or waits for it (R387): a task or service run of a tile, or a control-core thread. -/
inductive LockParty where
  | task (h : Half) (t : TileIx) (slot : Nat)
  | control (h : Half) (n : Fin 32)
  deriving DecidableEq, Repr

/-- A waiter of a lock: who, and the priority it queued with (R389). -/
structure LockWaiter where
  party : LockParty
  prio : Nat
  deriving DecidableEq, Repr

/-- A held lock and its waiters in the order they will be served (R387–R389). -/
structure LockState where
  holder : Option LockParty
  waiters : List LockWaiter
  deriving DecidableEq, Repr

def LockState.free : LockState := { holder := none, waiters := [] }

/-- A coprocessor instance of a cluster (R396–R404): its holder (the slot of a task), the tasks recorded against it (threads),
the check-value parameters and running value, or the hash key and CRC_INIT. -/
structure CpInst where
  holder : Option Nat
  waiters : List Nat
  poly : DWord
  init : DWord
  xorout : DWord
  control : DWord
  r : DWord
  key : List Byte
  crcInit : Word
  /-- the holder has ended and its operations on the instance are still to complete (R403) -/
  leaving : Bool
  deriving DecidableEq, Repr

/-- The reset state of an instance (R400): the CRC-32C parameters of R133 with CNT_W 0 and the running value at INIT, a key of
zero bytes and CRC_INIT 0xFFFF_FFFF. -/
def CpInst.reset : CpInst :=
  { holder := none, waiters := [], poly := 0x1EDC6F41, init := 0xFFFFFFFF, xorout := 0xFFFFFFFF, control := 0xDF,
    r := 0xFFFFFFFF, key := List.replicate 40 0, crcInit := 0xFFFFFFFF, leaving := false }

/-- An operation of a cancellable coprocessor that was issued on a path that turned out wrong: the squash has discarded it and its
counter increment is undone at the acknowledgement (R294, R407). -/
structure CancelRec where
  slot : Nat
  cluster : Nat
  dc : Nat
  deriving DecidableEq, Repr

/-- The rotating spare of a tile (R571, R573, R589). -/
inductive SpareState where
  | idle | handover | testing | exhausted | stopped | reduced
  deriving DecidableEq, Repr

/-- The cores of a tile: which physical core holds each position 4c + k, which serves as spare, which are fenced, the next position
handed over, and the recent core-fault reports of each physical core (R570, R571, R573). -/
structure SpareInfo where
  state : SpareState
  phys : Tbl Nat
  spare : Nat
  fenced : Nat
  nextPos : Nat
  reports : List (Nat × Nat)
  lost : Option Nat
  /-- Privet owes the tile a batch of INDIRECTION writes (R574) -/
  owed : Bool
  deriving DecidableEq, Repr

def SpareInfo.reset : SpareInfo :=
  { state := .stopped, phys := [], spare := 16, fenced := 0, nextPos := 0, reports := [], lost := none, owed := false }

/-- A tile: its RAM, its task store and its two program banks (R238, R273, R325), the poisoned words of each (R558), its threads and
tasks, the responses outstanding, its channels (R381) and coprocessors (R396), the withheld patterns of its Bramble copy
(R176), and its spare. -/
structure Tile where
  ram : Tbl Byte
  store : Tbl Byte
  bank0 : Tbl Byte
  bank1 : Tbl Byte
  poisonRam : List Nat
  poisonStore : List Nat
  poisonBank : List (Nat × Nat)
  threads : Tbl Thread
  tasks : Tbl Task
  responses : List Response
  cancels : List CancelRec
  /-- messages of channel n, oldest first -/
  chans : Tbl (List Message)
  /-- instance: 16 × cluster + 4 × unit + instance, unit 0 check value, 1 hash, 3 expansion -/
  insts : Tbl CpInst
  /-- instances lost by a holder at a cluster's reset: slot and instance key (R404) -/
  lostInsts : List (Nat × Nat)
  /-- task slots whose Bramble scans wait or run, in creation order (R168) -/
  scans : List Nat
  brambleWithheld : List Nat
  /-- a pattern was reloaded since the running scan began, so that scan is incomplete (R176) -/
  scanTouched : Bool
  /-- consecutive CK_CORE cycles in which the threads of core position 4c + k have waited as R375 gives -/
  deadFor : Tbl Nat
  spare : SpareInfo
  deriving DecidableEq, Repr

def Tile.init : Tile :=
  { ram := [], store := [], bank0 := [], bank1 := [], poisonRam := [], poisonStore := [], poisonBank := [], threads := [],
    tasks := [], responses := [], cancels := [], chans := [], insts := [], lostInsts := [], scans := [], brambleWithheld := [], scanTouched := false, deadFor := [],
    spare := SpareInfo.reset }

/-- A cached translation of a control-core thread (R359): whether it maps a page of 32 MB, the entry as it was read with REF and MOD
as set since, and the physical address of the entry. -/
structure XlEntry where
  large : Bool
  entry : DWord
  entryAddr : Nat
  deriving DecidableEq, Repr

/-! ### The control cores -/

/-- The control cores of a half (R356–R359, R621–R624): their threads (32), their channels, the translations each thread caches (by
thread × 2^34 + VA [47:14]) and the mirrored writes issued and not yet applied at the peer (thread, window offset, bytes). -/
structure CcState where
  threads : Tbl Thread
  chans : Tbl (List Message)
  xl : Tbl XlEntry
  mirror : List (Nat × Nat × List Byte)
  deriving DecidableEq, Repr

def CcState.reset : CcState := { threads := [], chans := [], xl := [], mirror := [] }

/-- A core's grants (R361): the threads 0–7 that have received a slot in the present cycle, and the consecutive cycles for which each
thread has been able to issue and has received none, up to 64. -/
structure IssueSlots where
  granted : List Nat
  wait : Tbl Nat
  deriving DecidableEq, Repr

def IssueSlots.none : IssueSlots := { granted := [], wait := [] }

/-! ### HBM -/

/-- One entry of a pseudo-channel's write queue: a 32-byte granule, the bytes queued for it, the sources that wrote them, whether every
write of it is STREAM, and the elapsed tick of its acceptance (R502, R504). -/
structure WqEntry where
  gran : Nat
  bytes : Tbl Byte
  srcs : List Nat
  stream : Bool
  since : Nat
  deriving DecidableEq, Repr

/-- A request part waiting at its pseudo-channel (R497, R501): the tile and response it belongs to, its class bit (R498), whether
it writes, its STREAM bit, its source, its address, length and data, its place in the request, and the elapsed tick at which
it came. -/
structure HbmPart where
  tile : TileIx
  resp : Nat
  write : Bool
  stream : Bool
  src : Nat
  addr : Nat
  len : Nat
  data : List Byte
  off : Nat
  since : Nat
  deriving DecidableEq, Repr

/-- A row of a half's HBM space: pseudo-channel 0–63, bank, row (R496). -/
structure RowKey where
  p : Nat
  bank : Nat
  row : Nat
  deriving DecidableEq, Repr

/-- A half's two stacks and their controllers. -/
structure HbmState where
  /-- the array; an unlisted byte reads zero -/
  mem : Tbl Byte
  /-- poisoned granules (address / 32) -/
  poison : List Nat
  /-- write queue of pseudo-channel p, oldest first -/
  wq : Tbl (List WqEntry)
  /-- pseudo-channels whose queued writes take precedence: 48 entries were reached and more than 32 are left (R677) -/
  draining : List Nat
  /-- request parts waiting at pseudo-channel p, oldest first -/
  parts : Tbl (List HbmPart)
  /-- open row of pseudo-channel and bank (64 × bank + p) -/
  openRow : Tbl (Option Nat)
  /-- refreshes owed by pseudo-channel and bank -/
  owed : Tbl Nat
  /-- pseudo-channels in power-down -/
  down : List Nat
  /-- the elapsed tick at which a pseudo-channel last entered power-down (R638) -/
  downAt : Tbl Nat
  /-- CK_CORE cycles of the half elapsed (the model's own, for R509) -/
  cycle : Nat
  /-- the cycle at which the idle count of a pseudo-channel last started (R509) -/
  idleFrom : Tbl Nat
  /-- the elapsed tick of the last request, scrub reads included, of each stack (R638) -/
  lastReq : Tbl Nat
  /-- stacks at which the repeat of the next unit request's command fails, as HBM_LINK has been reported (R516) -/
  linkBad : List Nat
  /-- granules with corrected errors, with the elapsed tick of the finding (R514) -/
  correctedAt : List (Nat × Nat)
  /-- rows under soft repair, with the poisoned granules kept (R514) -/
  repairing : List RowKey
  /-- rows mapped to a spare: they stay readable at their own address -/
  repaired : List RowKey
  /-- of these, the rows under soft repair, whose hard repair waits for the next START (R514) -/
  awaiting : List RowKey
  /-- spare rows used by pseudo-channel and bank -/
  sparesUsed : Tbl Nat
  /-- retired rows (R515) -/
  retired : List RowKey
  /-- stacks s that have reported 100 °C or more since they last reported less (R508) -/
  hot : List Nat
  /-- the next granule of each stack that the patrol scrubber reads -/
  scrubNext : Tbl Nat
  /-- the elapsed tick at which the patrol's pass of each stack began (R513) -/
  scrubFrom : Tbl Nat
  /-- elapsed ticks of the last HBM_LINK records of each stack (R558) -/
  linkFaults : List (Nat × Nat)
  deriving DecidableEq, Repr

def HbmState.reset : HbmState :=
  { mem := [], poison := [], wq := [], draining := [], parts := [], openRow := [], owed := [], down := [], downAt := [], cycle := 0,
    idleFrom := [], lastReq := [], linkBad := [], correctedAt := [], repairing := [],
    repaired := [], awaiting := [], sparesUsed := [], retired := [], hot := [], scrubNext := [], scrubFrom := [], linkFaults := [] }

/-! ### Cells, queues, scheduling and Ford -/

/-- A cell chain of a half's packet buffer with the fields of its tags (R434, R435): the frame bytes received so far without the
FCS, the frame's cells and its output descriptor cells in chain order, the descriptor copied to them (R436), and REFCNT. -/
structure Chain where
  bytes : List Byte
  cells : List Nat
  ocells : List Nat
  odesc : List Byte
  refcnt : Nat
  stamp : DWord
  pool : Nat
  mcast : Bool
  late : Bool
  crossed : Bool
  inPort : Nat
  /-- the chain is marked broken (R443) -/
  broken : Bool
  /-- the 16-byte learn key carried with the frame (R225, R524) -/
  learnKey : List Byte
  deriving DecidableEq, Repr

/-- A cell in use that no chain reaches any more (R437, R438): the OWNER, NEXT and LAST of its tag, and the pool it charges. -/
structure LostCell where
  cell : Nat
  owner : Nat
  next : Nat
  last : Bool
  pool : Nat
  deriving DecidableEq, Repr

/-- An on-chip queue entry (R445, R447, R451). -/
structure QEntry where
  chain : Nat
  cells : Nat
  vidEn : Bool
  vid : Nat
  ce : Bool
  deriving DecidableEq, Repr

/-- A spilled copy (R454): the chain fields and queue entry of its record, its blocks, and whether its last write has been
accepted. -/
structure SpillEntry where
  frame : Chain
  entry : QEntry
  blocks : List Nat
  /-- the on-chip chain held until the controller accepts the last write (R457) -/
  writing : Option Nat
  deriving DecidableEq, Repr

/-- A copy on its way to admission (R445, R451): its chain, its port and queue index, and its VID replacement. -/
structure Copy where
  chain : Nat
  port : Nat
  q : Nat
  mcast : Bool
  vidEn : Bool
  vid : Nat
  deriving DecidableEq, Repr

/-- A released frame whose replication list is to be walked (R449): its chain, its list and whether it came over Ford. -/
structure WalkReq where
  chain : Nat
  list : Nat
  deriving DecidableEq, Repr

/-- The hold state of a port (R460–R462, R469). -/
inductive HoldPhase where
  | up | hold | flushing | empty
  deriving DecidableEq, Repr

/-- A half's packet buffer (R434–R465). -/
structure BufferState where
  chains : Tbl Chain
  nextChain : Nat
  used : Tbl Nat
  peak : Tbl Nat
  queues : Tbl (List QEntry)
  spilled : Tbl (List SpillEntry)
  /-- fills that failed, with the elapsed tick from which each may be retried (R441) -/
  fillRetry : Tbl Nat
  /-- spill writes of the last microsecond: elapsed tick and bytes (R456) -/
  spillRate : List (Nat × Nat)
  copies : List Copy
  walks : List WalkReq
  holds : Tbl HoldPhase
  /-- elapsed tick at which the hold of a port ends -/
  holdEnd : Tbl Nat
  fencedBanks : List Nat
  rowRepairs : Tbl Nat
  /-- cells whose data reads uncorrectable (R464) -/
  badCells : List Nat
  /-- cells in use that no chain reaches (R438) -/
  lost : List LostCell
  deriving DecidableEq, Repr

def BufferState.reset : BufferState :=
  { chains := [], nextChain := 0, used := [], peak := [], queues := [], spilled := [], fillRetry := [], spillRate := [],
    copies := [], walks := [], holds := [], holdEnd := [], fencedBanks := [], rowRepairs := [], badCells := [], lost := [] }

/-- A dual token bucket in units of 1/256 byte (R477): its tokens, the remainders of the refill division and the elapsed tick of
the last refill. -/
structure Bucket where
  com : Int
  peak : Int
  comRem : Nat
  peakRem : Nat
  last : Nat
  deriving DecidableEq, Repr

def Bucket.init : Bucket := { com := 0, peak := 0, comRem := 0, peakRem := 0, last := 0 }

/-- A selected frame until its last bit has left (R471, R481): its entry and queue, its charged and sent lengths, the start tag of
its queue before the selection, the rewritten bytes once the rewrite engine has made them, and whether its first bit has left, its
last cell was read and its last bit has left. -/
structure Sel where
  entry : QEntry
  q : Nat
  lc : Nat
  lout : Nat
  sBefore : Nat
  sampled : Bool
  selDts : DWord
  depth : Nat
  bytes : Option (List Byte)
  ceApplied : Bool
  stomp : Bool
  started : Bool
  readDone : Bool
  ended : Bool
  deriving DecidableEq, Repr

/-- A half's scheduler (R470–R482): tags and virtual times (48 bits), buckets, eligible children, selected frames by port, and the
counts of selections. -/
structure SchedState where
  qS : Tbl Nat
  cS : Tbl Nat
  cV : Tbl Nat
  pV : Tbl Nat
  qB : Tbl Bucket
  cB : Tbl Bucket
  pB : Tbl Bucket
  qElig : List Nat
  cElig : List Nat
  sel : Tbl (List Sel)
  count : Tbl Nat
  /-- telemetry records that wait for the HBM controller, oldest first (R485, R502) -/
  telemWait : List (List Byte)
  deriving DecidableEq, Repr

def SchedState.reset : SchedState :=
  { qS := [], cS := [], cV := [], pV := [], qB := [], cB := [], pB := [], qElig := [], cElig := [], sel := [], count := [],
    telemWait := [] }

/-- A crossing record (R524): the chain at the ingress half, the chain fields and bytes it carries, its list for a multicast frame,
and the credits it takes. -/
structure CrossRec where
  chain : Nat
  frame : Chain
  list : Option Nat
  port : Nat
  queue : Nat
  credits : Nat
  deriving DecidableEq, Repr

/-- A half's end of Ford (R520–R534): what has arrived and not been taken, the records that wait for credit and those that wait for
their acknowledgement, the credits held, the lanes, and the view of the peer. -/
structure FordState where
  waiting : List CrossRec
  flight : List CrossRec
  cellsIn : List CrossRec
  /-- acknowledgements: chain and credits -/
  acksIn : List (Nat × Nat)
  noticesIn : List DWord
  /-- shared learn events: key bytes, TID, ingress port -/
  learnIn : List (List Byte × Nat × Nat)
  timeIn : List DWord
  heartbeatsIn : List DWord
  fatalIn : Bool
  credits : Nat
  linkUp : Bool
  bundlesUp : Nat
  fenced : Nat
  sparesUsed : Tbl Nat
  /-- bit errors of lane 64 × bundle + lane found by lane checks: elapsed tick and count (R528) -/
  laneErrors : Tbl (List (Nat × Nat))
  /-- lanes whose repair by a spare is in progress: bundle and lane -/
  repairing : List (Nat × Nat)
  peerUp : Bool
  lastHeartbeat : Option Nat
  fatalSeen : Bool
  /-- the peer was declared lost and is not up again (R531–R533) -/
  lost : Bool
  /-- bit p: port p of the peer is up (R533) -/
  peerPorts : Nat
  /-- header of the last good flit of each bundle since the training, and the elapsed tick of the last good flit (R526, R529) -/
  headers : Tbl (List Byte)
  lastGood : Nat
  deriving DecidableEq, Repr

def FordState.reset : FordState :=
  { waiting := [], flight := [], cellsIn := [], acksIn := [], noticesIn := [], learnIn := [], timeIn := [], heartbeatsIn := [],
    fatalIn := false, credits := 2048, linkUp := false, bundlesUp := 0, fenced := 0, sparesUsed := [], laneErrors := [],
    repairing := [], peerUp := false, lastHeartbeat := none, fatalSeen := false, lost := false, peerPorts := 0,
    headers := [], lastGood := 0 }

/-- A message on the expansion port (R425): a request with its tag, or an outgoing frame. -/
structure ExpMsg where
  frame : Bool
  tag : Nat
  tile : Nat
  cluster : Nat
  inst : Nat
  fn : Nat
  bytes : List Byte
  deriving DecidableEq, Repr

/-- A request whose response is outstanding at the expansion port (R427–R429): the tile and response it belongs to, the largest
response accepted, and the elapsed tick at which its REQ left. -/
structure ExpReq where
  tag : Nat
  tile : TileIx
  resp : Nat
  r : Nat
  sent : Option Nat
  deriving DecidableEq, Repr

/-- A flit that the sender keeps until it is acknowledged: its SEQ and its 120 bytes of payload (R423, R424). -/
structure ExpFlit where
  seq : Nat
  payload : List Byte
  deriving DecidableEq, Repr

/-- What one lane carries in one block (R422): a 64b/66b data block, bit 0 the first bit on the lane, or an alignment block with its lane
number. -/
inductive ExpBlock where
  | data (b : BitVec 66)
  | alignment (lane : Nat)
  deriving DecidableEq, Repr

/-- A message unpacked from the flits received (R425): its TYPE, TAG, STATUS and payload. -/
structure ExpRx where
  type : Nat
  tag : Nat
  status : Nat
  bytes : List Byte
  deriving DecidableEq, Repr

/-- A half's expansion port (R422–R431). -/
structure ExpState where
  locked : Bool
  aligned : Bool
  linkUp : Bool
  goodRun : Nat
  badRun : Nat
  /-- SEQ of the last flit with messages that was sent, and the last SEQ received good -/
  txSeq : Nat
  rxSeq : Nat
  lastAck : Nat
  /-- elapsed tick of the last advance of ACK -/
  ackTick : Nat
  /-- elapsed tick of the last replay (R424) -/
  replayTick : Nat
  /-- the flits kept for replay, oldest first -/
  kept : List ExpFlit
  reqCredits : Nat
  frameCredits : Nat
  waiting : List ExpMsg
  reqs : List ExpReq
  /-- tags of timed-out requests with the elapsed tick from which each may be used again (R429) -/
  dead : List (Nat × Nat)
  /-- bytes received of a message that spans flits, and the messages received whole (R425) -/
  rxBuf : List Byte
  rxMsgs : List ExpRx
  /-- credits for FRAME_IN that the customer logic holds, in 64 bytes (R426) -/
  inCredits : Nat
  /-- the last 58 bits that each transmit and each receive lane carried (R422) -/
  txScr : Tbl (BitVec 58)
  rxScr : Tbl (BitVec 58)
  /-- blocks sent on each lane since its last alignment block, and the blocks that the last sending put on lanes 0 to 15 -/
  txBlocks : Nat
  lanes : List (List ExpBlock)
  deriving DecidableEq, Repr

def ExpState.reset : ExpState :=
  { locked := false, aligned := false, linkUp := false, goodRun := 0, badRun := 0, txSeq := 0, rxSeq := 0, lastAck := 0,
    ackTick := 0, replayTick := 0, kept := [], reqCredits := 0, frameCredits := 0, waiting := [], reqs := [], dead := [],
    rxBuf := [], rxMsgs := [], inCredits := 0, txScr := [], rxScr := [], txBlocks := 0, lanes := [] }

/-! ### The forwarding tables -/

/-- An EXACT entry (R191): KEY as one number with key byte 0 highest; `at0` is the elapsed tick of its last refresh (R80) and
`noticed` tells that AGE_NOTICE was given since (R228). A listed entry has VALID = 1. -/
structure ExEntry where
  key : Nat
  result : DWord
  tid : Nat
  ageProf : Nat
  age : Nat
  vstate : Nat
  batch : Nat
  learned : Bool
  hit : Bool
  at0 : Nat
  noticed : Bool
  deriving DecidableEq, Repr

/-- An index of an indexed target: the value in force and the alternate with its batch slot (R213). -/
structure Indexed where
  value : Nat
  alt : Option (Nat × Nat)
  deriving DecidableEq, Repr

def Indexed.init : Indexed := { value := 0, alt := none }

/-- One version of a route (R201, R203). -/
structure RouteVer where
  result : Word
  vstate : Nat
  batch : Nat
  deriving DecidableEq, Repr

/-- A meter entry (R207). -/
structure Meter where
  tc : Nat
  te : Nat
  last : Nat
  profile : Nat
  alt : Nat
  vstate : Nat
  batch : Nat
  deriving DecidableEq, Repr

def Meter.init : Meter := { tc := 0, te := 0, last := 0, profile := 0, alt := 0, vstate := 0, batch := 0 }

/-- The state of a batch slot (R211). -/
inductive SlotState where
  | free | building | ready | posted | retiring | undoing | refused
  deriving DecidableEq, Repr

/-- One pending versioned entry of a batch: an EXACT slot, an index of a target (TABLE of R213), the new and the old version of an
LPM bucket, or a route whose RESULT alone was replaced (R203, R213). -/
inductive Touch where
  | exact (slot : Nat)
  | indexed (table : Nat) (index : Nat)
  | bucketNew (b : Nat)
  | bucketOld (b : Nat)
  | route (key : Nat)
  deriving DecidableEq, Repr

/-- A batch slot (R211–R219): its list as latched, the records applied, the entries it holds pending in order, and how it ends. -/
structure BatchSlot where
  state : SlotState
  e : DWord
  reason : Nat
  failRec : Nat
  addr : Nat
  len : Nat
  /-- BUILD_POST with the E latched (R216) -/
  postE : Option DWord
  pos : Nat
  recNo : Nat
  touched : List Touch
  /-- keys and indices that records of the batch have touched (R214) -/
  keys : List (Nat × Nat)
  /-- an ABORT is undoing the slot: it ends FREE (R218) -/
  abort : Bool
  deriving DecidableEq, Repr

def BatchSlot.init : BatchSlot :=
  { state := .free, e := 0, reason := 0, failRec := 0, addr := 0, len := 0, postE := none, pos := 0, recNo := 0, touched := [],
    keys := [], abort := false }

/-- A queued write of the LEARN unit (R226, R227): the key, its table, the ingress port, and the profile. -/
structure LearnWrite where
  key : Nat
  tid : Nat
  port : Nat
  deriving DecidableEq, Repr

/-- The shadow of the configured tables of a half, slot for slot with them (R234): AGE, HIT and meter tokens are not in it, and of a learned
EXACT entry only that the slot is learned. Meters show PROFILE, ALT_PROFILE, VSTATE and BATCH. -/
structure Shadow where
  exact : Tbl ExEntry
  indirection : Tbl Indexed
  groups : Tbl Indexed
  members : Tbl Indexed
  profiles : Tbl Indexed
  meters : Tbl Meter
  routes : Tbl (List RouteVer)
  assoc : Tbl Nat
  patterns : Tbl Nat
  repl : Tbl Nat
  deriving DecidableEq, Repr

def Shadow.empty : Shadow :=
  { exact := [], indirection := [], groups := [], members := [], profiles := [], meters := [], routes := [], assoc := [], patterns := [],
    repl := [] }

/-- The tables of a half (R184) with their units' own state. -/
structure TableState where
  /-- the shadow of the half's configured tables (R234) -/
  shadow : Shadow
  exact : Tbl ExEntry
  groups : Tbl Indexed
  members : Tbl Indexed
  /-- an unlisted index i holds TILE = i mod 16 (R136) -/
  indirection : Tbl Indexed
  /-- versions of the route with a key (VRF, family, length, address) -/
  routes : Tbl (List RouteVer)
  meters : Tbl Meter
  profiles : Tbl Indexed
  /-- meters whose tokens read uncorrectable (R233) -/
  badMeters : List Nat
  /-- cached increments by pair: packets and bytes (R205) -/
  cache : Tbl (Nat × Nat)
  /-- a coherent read in progress (R206) -/
  reading : Option (Nat × Bool)
  /-- the stash of FLOW by place (R195): 64-byte records -/
  stash : Tbl (List Byte)
  /-- elapsed tick of the last refresh of a flow record, by SLOT (R80) -/
  flowAt : Tbl Nat
  repl : Tbl Nat
  patterns : Tbl Nat
  slots : Tbl BatchSlot
  /-- builds in the order of their commands; the first is under way (R216) -/
  builds : List Nat
  /-- LPM buckets with a PENDING and a RETIRING version, and the batch that rewrote each (R203) -/
  buckets : Tbl Nat
  /-- frames to be examined: learn key and ingress port (R225) -/
  examine : List (List Byte × Nat)
  learnQueue : List LearnWrite
  /-- slots withheld by their ECC and by the shadow checker: TABLE of R213 and index (R233, R236) -/
  withheld : List (Nat × Nat)
  shadowHeld : List (Nat × Nat)
  /-- the other half's OLDEST_LIVE may be used: a notice has come since Ford became ACTIVE (R222) -/
  noticed : Bool
  /-- notifications that wait for the HBM controller, oldest first (R231, R502) -/
  noteWait : List (List Byte)
  deriving DecidableEq, Repr

def TableState.reset : TableState :=
  { shadow := Shadow.empty, exact := [], groups := [], members := [], indirection := [], routes := [], meters := [], profiles := [], badMeters := [],
    cache := [], reading := none, stash := [], flowAt := [], repl := [], patterns := [], slots := [], builds := [], buckets := [],
    examine := [], learnQueue := [], withheld := [], shadowHeld := [], noticed := false, noteWait := [] }

/-- The ASSOC of a half (R152–R162): entries as 1,408-bit numbers, withheld entries, and entries that were rewritten from the
shadow. -/
structure AssocState where
  entries : Tbl Nat
  withheld : List Nat
  rewritten : List Nat
  deriving DecidableEq, Repr

def AssocState.reset : AssocState := { entries := [], withheld := [], rewritten := [] }

/-! ### The device -/

/-- What the device holds that belongs to no half. -/
structure DevHw where
  devState : DevState
  /-- DTS_CTL.LOAD_PEND: a load armed for the next active TSYNC_IN edge (R78) -/
  loadPend : Bool
  /-- a slew is in progress: elapsed ticks since its grid began (R81) -/
  slewGrid : Nat
  tsyncIn : Bool
  tsyncOut : Bool
  /-- elapsed tick at which the TSYNC_OUT pulse ends -/
  tsyncEnd : Nat
  /-- elapsed tick at which TSYNC_OUT rises (R83) -/
  tsyncDue : Option Nat
  /-- elapsed ticks at which TSYNC_IN edges under way are captured (R84) -/
  capDue : List Nat
  /-- elapsed tick and DTS of the last load taken (R80) -/
  loadTick : Option (Nat × DWord)
  deriving DecidableEq, Repr

def DevHw.reset : DevHw :=
  { devState := .start, loadPend := false, slewGrid := 0, tsyncIn := false, tsyncOut := false, tsyncEnd := 0, tsyncDue := none, capDue := [], loadTick := none }

/-! ### Privet, clocks, power and pins -/

/-- The fuses that software sees (R599, R628): revoked key slots, the minimum SVN of kinds 1–3, DEBUG_MODE, and whether
DEBUG_KEY_HASH is programmed. -/
structure Fuses where
  revoke : Nat
  svnMin : Tbl Nat
  debugMode : Nat
  debugKey : Bool
  deriving DecidableEq, Repr

/-- A part as it leaves the factory (R628): DEBUG_MODE 0, DEBUG_KEY_HASH not programmed. -/
def Fuses.factory : Fuses := { revoke := 0, svnMin := [], debugMode := 0, debugKey := false }

/-- The start-up sequence (R647): the last step is START_STAT.STEP; here the cause of the reset, whether it waits for REFCLK, the
directory writes that wait while PFAIL_N is low (kind and entry), the stacks that have been trained, the halves whose self-test and
whose Ford training has ended, whether the images of step 9 have been chosen and the slot of the control-core software, the halves
that have passed step 12, the BATCH sections still to build (number, address, length), the section under way (slot, number, address,
length), and the refused ones of R597. -/
structure StartInfo where
  cause : BitVec 8
  waitRef : Bool
  dirWait : List (Nat × Nat)
  trained : List Nat
  tested : List Nat
  fordDone : List Nat
  imaged : Bool
  ccSlot : Option Nat
  queued : List Nat
  nosReady : Bool
  batches : Pair (List (Nat × Nat × Nat))
  building : Pair (Option (Nat × Nat × Nat × Nat))
  refused : Nat
  firstRefused : Nat
  firstReason : Nat
  deriving DecidableEq, Repr

def StartInfo.reset : StartInfo :=
  { cause := 0, waitRef := false, dirWait := [], trained := [], tested := [], fordDone := [], imaged := false, ccSlot := none,
    queued := [], nosReady := false, batches := ⟨[], []⟩, building := ⟨none, none⟩, refused := 0, firstRefused := 0, firstReason := 0 }

/-- A half's P129 ring in Privet SRAM (R624): HEAD and TAIL in units of 32 bytes, and the records between them with their places, oldest
first. -/
structure P129Ring where
  head : Nat
  tail : Nat
  recs : List (Nat × List Byte)
  deriving DecidableEq, Repr

def P129Ring.reset : P129Ring := { head := 0, tail := 0, recs := [] }

/-- The Privet quad with what it keeps (R591–R629), and the clocks, rails and pins of the device (R630–R657). -/
structure PrivetState where
  p129 : Pair P129Ring
  /-- frames of the management port delivered to Privet (R625) -/
  mgmtIn : List (List Byte)
  /-- the flash; an unlisted byte reads 0xFF, as erased -/
  flash : Tbl Byte
  /-- 4 KB sectors whose erase is in progress (R612, R615) -/
  erasing : List Nat
  /-- PFAIL_N has suspended the erases in progress (R642, R643) -/
  suspended : Bool
  /-- what SFDP reported (R593) -/
  flashSmall : Bool
  flashSlow : Bool
  fuses : Fuses
  /-- firmware runs (step 5 of R647) -/
  booted : Bool
  noFirmware : Bool
  /-- kinds whose slot fell back at this boot (R602) -/
  fallback : List Nat
  boots : Nat
  /-- BUILD_ID of the firmware, the packet image and the control-core software that run -/
  fwBuild : Nat
  imgBuild : Nat
  ccBuild : Nat
  /-- slot of a packet image whose directory write waits for every half to be IDLE (R604) -/
  imgPending : Option Nat
  /-- the slot whose packet image runs -/
  imgSlot : Option Nat
  start : StartInfo
  /-- USER of a calibration item, 16 bits (R609) -/
  user : Tbl Nat
  /-- the EFFECTIVE values that SerDes lanes and PLLs run with, by item (R609) -/
  calUsed : Tbl Int
  /-- SEQ of the newest store record (R611) -/
  storeSeq : Nat
  /-- sections 2–7 as last committed (R614) -/
  storeLast : List Byte
  /-- the record last written read back wrong and is to be written again (R612) -/
  storeBad : Bool
  /-- data-lane remaps of HBM pseudo-channels (R516, R611) -/
  laneMaps : Pair (Tbl Nat)
  /-- lanes that spares 0 and 1 of a Ford bundle replaced (R528), by 2 × bundle + spare -/
  fordLanes : Pair (Tbl Nat)
  /-- buffered fault-log entries of 32 bytes without their sequence and CRC (R616), and the next entry sequence -/
  logBuf : List (List Byte)
  logSeq : Nat
  /-- debug: nonce and the elapsed tick at which it ends, unlocked scopes, and the end of each scope's token (R628, R629) -/
  nonce : Option (List Byte × Nat)
  unlocked : Nat
  scopeEnd : Tbl Nat
  /-- elapsed tick since which every sensor has read 110 °C or less, while SHUTDOWN is set (R645) -/
  coolSince : Option Nat
  /-- consecutive samples of a rail outside its limits (R640) -/
  railBad : Tbl Nat
  /-- rails whose last sample lay below the DC limit of R663 (R656) -/
  railLow : List Nat
  /-- the ASSOC bank map of each half as BANK_STAT shows it, and the fenced bundles it receives, as Privet keeps them (R163, R530, R611) -/
  assocMap : Pair DWord
  fordFenced : Pair Nat
  /-- CK_CORE cycles since each half's stretch level was last met or left, as far as the fall counts them (R634) -/
  droopFor : Pair Nat
  /-- parts of a CK_CORE cycle carried over, of each half (R634, R636) -/
  stretch : Pair Nat
  /-- elapsed ticks of each half's restarts of the past hour, whether it can be restarted, and whether its last fatal record was
  injected (R61, R581) -/
  restarts : Pair (List Nat)
  noRestart : Pair Bool
  lastInjected : Pair Bool
  /-- the unit whose fatal record fenced each half (R61) -/
  fatalBy : Pair (Option UnitId)
  /-- clocks: REFCLK edges are seen, the root PLL is locked, and the I/O PLLs (1–7) that are not -/
  refclk : Bool
  rootLock : Bool
  ioLost : List Nat
  /-- input pins -/
  porLow : Bool
  sysLow : Bool
  pfailLow : Bool
  perstLow : Bool
  bootPins : Nat
  /-- BOOT_SEL as latched -/
  bootSel : Nat
  /-- a boundary-scan instruction has been loaded (R662) -/
  extest : Bool
  deriving DecidableEq, Repr

def PrivetState.reset : PrivetState :=
  { p129 := ⟨P129Ring.reset, P129Ring.reset⟩, mgmtIn := [], flash := [], erasing := [], suspended := false, flashSmall := false, flashSlow := false,
    fuses := Fuses.factory, booted := false, noFirmware := false, fallback := [], boots := 0, fwBuild := 0, imgBuild := 0,
    ccBuild := 0, imgPending := none, imgSlot := none, start := StartInfo.reset, user := [], calUsed := [], storeSeq := 0, storeLast := [], storeBad := false, laneMaps := ⟨[], []⟩,
    fordLanes := ⟨[], []⟩, logBuf := [], logSeq := 0, nonce := none, unlocked := 15, scopeEnd := [], coolSince := none, railBad := [], railLow := [],
    assocMap := ⟨0, 0⟩, fordFenced := ⟨0, 0⟩, droopFor := ⟨0, 0⟩, stretch := ⟨0, 0⟩, restarts := ⟨[], []⟩, noRestart := ⟨false, false⟩, lastInjected := ⟨false, false⟩, fatalBy := ⟨none, none⟩, refclk := true,
    rootLock := true, ioLost := [], porLow := true, sysLow := false, pfailLow := false, perstLow := true, bootPins := 0, bootSel := 0,
    extest := false }

/-- The whole state of the block. -/
structure State where
  /-- the active view of every register that holds a value of its own, by address; an unlisted register holds its reset value -/
  csr : Tbl DWord
  /-- the staging view (R36, R37), by the address of the active view; an unlisted register holds its reset value -/
  staged : Tbl DWord
  /-- the dynamic part of every unit, by the address of its control block -/
  units : Tbl UnitDyn
  commits : List CommitRec
  hubs : Pair HubState
  time : Pair TimeState
  ing : Pair IngressState
  conf : Pair ConfState
  tiles : Pair (Tbl Tile)
  cc : Pair CcState
  /-- the grants of issue slots of each core, by its number (R361) -/
  slots : Tbl IssueSlots
  /-- held or awaited locks by number; H0 holds 4,096–4,351 (R387) -/
  locks : Pair (Tbl LockState)
  hbm : Pair HbmState
  buf : Pair BufferState
  sched : Pair SchedState
  ford : Pair FordState
  exp : Pair ExpState
  tab : Pair TableState
  assoc : Pair AssocState
  dev : DevHw
  pv : PrivetState
  /-- elapsed ticks of this run (the model's own, for intervals that the spec counts in ticks) -/
  ticks : Nat
  /-- the next free value of the model (the model's own) -/
  fresh : Nat
  /-- an HBM request of the command being performed has to wait (the model's own; false between commands) -/
  waits : Bool
  /-- commands waiting, first in, first out -/
  pending : List Instr
  deriving DecidableEq, Repr

/-- The machine with power applied and PORESET_N asserted: every register at its reset value, every memory unlisted; the command RESET_RELEASE
starts it (R646, R647). -/
def State.reset : State :=
  { csr := [], staged := [], units := [], commits := [], hubs := ⟨HubState.reset, HubState.reset⟩,
    time := ⟨TimeState.reset, TimeState.reset⟩, ing := ⟨IngressState.reset, IngressState.reset⟩,
    conf := ⟨ConfState.reset, ConfState.reset⟩, tiles := ⟨[], []⟩, cc := ⟨CcState.reset, CcState.reset⟩, slots := [],
    locks := ⟨[], []⟩, hbm := ⟨HbmState.reset, HbmState.reset⟩,
    buf := ⟨BufferState.reset, BufferState.reset⟩, sched := ⟨SchedState.reset, SchedState.reset⟩,
    ford := ⟨FordState.reset, FordState.reset⟩, exp := ⟨ExpState.reset, ExpState.reset⟩,
    tab := ⟨TableState.reset, TableState.reset⟩, assoc := ⟨AssocState.reset, AssocState.reset⟩, dev := DevHw.reset, pv := PrivetState.reset,
    ticks := 0, fresh := 0, waits := false, pending := [] }

/-- Why a command stops with a fault: no command does, every behaviour the spec describes is a next state. -/
inductive Fault where
  /-- raised by no meaning -/
  | none
  deriving DecidableEq, Repr

/-- Why a command is refused. -/
inductive Refusal where
  /-- raised by the dispatch for a command that has no meaning yet; safe: the machine stops -/
  | notModelled (mnemonic : String)
  deriving DecidableEq, Repr

/-- The outcome of a command. -/
abbrev Out := Host.Outcome State Fault Refusal

end Sys2Proof.Machine
end

