-- ==== Sys2Proof/Machine/Units.lean ====
section
/-! DEFINITION. The unit tree (R31), the address map (R34) and the register blocks of the CSR space (R36), and the accessors of
units and registers that every meaning uses. -/

namespace Sys2Proof.Machine

/-! ### The tree -/

/-- Base address of a half (R34). -/
def halfBase (h : Half) : Nat := 0x10000000 + h.val * 0x10000000

/-- The half of a port (R2, R34). -/
def portHalf (p : PortIx) : Half := if p.val < 64 then 0 else 1

/-- The local index of a port (R34). -/
def portLocal (p : PortIx) : Nat := p.val % 64

/-- The port of a half with local index `lp` (R34). -/
def portOf (h : Half) (lp : Nat) : PortIx := Fin.ofNat 128 (h.val * 64 + lp % 64)

/-- Base address of a tile (R34). -/
def tileBase (h : Half) (t : TileIx) : Nat := halfBase h + 0x04000000 + t.val * 0x00400000

/-- The address of a unit's control block (R34). -/
def unitBase : UnitId → Nat
  | .group => 0x00100000
  | .device => 0
  | .privet n => 0x00010000 + n.val * 0x10000
  | .half h => halfBase h
  | .hub h => halfBase h + 0x00010000
  | .ford h => halfBase h + 0x00020000
  | .table h n => halfBase h + 0x00100000 + n.val * 0x10000
  | .assoc h => halfBase h + 0x00180000
  | .buffer h => halfBase h + 0x00200000
  | .sched h => halfBase h + 0x00300000
  | .hbmc h st => halfBase h + 0x00400000 + st.val * 0x00100000
  | .locks h => halfBase h + 0x00600000
  | .port p => halfBase (portHalf p) + 0x01000000 + portLocal p * 0x10000
  | .tile h t => tileBase h t
  | .spare h t => tileBase h t + 0x100000
  | .cluster h t c => tileBase h t + 0x200000 + c.val * 0x80000
  | .core h t c k => tileBase h t + 0x200000 + c.val * 0x80000 + 0x20000 + k.val * 0x10000

/-- UNIT_ID.KIND (R42). -/
def unitKind : UnitId → Nat
  | .device => 0x01
  | .half _ => 0x02
  | .tile _ _ => 0x03
  | .cluster _ _ _ => 0x04
  | .core _ _ _ _ => 0x05
  | .spare _ _ => 0x05
  | .port _ => 0x06
  | .table _ _ => 0x07
  | .assoc _ => 0x08
  | .buffer _ => 0x09
  | .sched _ => 0x0A
  | .hbmc _ _ => 0x0B
  | .ford _ => 0x0C
  | .hub _ => 0x0D
  | .locks _ => 0x0E
  | .privet _ => 0x0F
  | .group => 0x10

/-- UNIT_ID.LEVEL (R31). -/
def unitLevel : UnitId → Nat
  | .group => 5
  | .device => 4
  | .privet _ => 3
  | .half _ => 3
  | .cluster _ _ _ => 1
  | .core _ _ _ _ => 0
  | .spare _ _ => 0
  | _ => 2

/-- UNIT_ID.INDEX of every unit but the DEVICE, whose index is its member number (R43). -/
def unitIndex : UnitId → Nat
  | .core _ _ _ k => k.val
  | .spare _ _ => 4
  | .cluster _ _ c => c.val
  | .tile _ t => t.val
  | .half h => h.val
  | .port p => p.val
  | .table _ n => n.val
  | .hbmc h st => 2 * h.val + st.val
  | .privet n => n.val
  | .device => 0
  | .group => 0
  | .hub h => h.val
  | .ford h => h.val
  | .assoc h => h.val
  | .buffer h => h.val
  | .sched h => h.val
  | .locks h => h.val

/-- The parent of a unit (R31). -/
def unitParent : UnitId → Option UnitId
  | .group => none
  | .device => some .group
  | .privet _ => some .device
  | .half _ => some .device
  | .hub h => some (.half h)
  | .ford h => some (.half h)
  | .table h _ => some (.half h)
  | .assoc h => some (.half h)
  | .buffer h => some (.half h)
  | .sched h => some (.half h)
  | .hbmc h _ => some (.half h)
  | .locks h => some (.half h)
  | .port p => some (.half (portHalf p))
  | .tile h _ => some (.half h)
  | .spare h t => some (.tile h t)
  | .cluster h t _ => some (.tile h t)
  | .core h t c _ => some (.cluster h t c)

/-- The half a unit lies in; none for DEVICE, GROUP and PRIVET. -/
def unitHalf : UnitId → Option Half
  | .group => none
  | .device => none
  | .privet _ => none
  | .half h => some h
  | .hub h => some h
  | .ford h => some h
  | .table h _ => some h
  | .assoc h => some h
  | .buffer h => some h
  | .sched h => some h
  | .hbmc h _ => some h
  | .locks h => some h
  | .port p => some (portHalf p)
  | .tile h _ => some h
  | .spare h _ => some h
  | .cluster h _ _ => some h
  | .core h _ _ _ => some h

/-- Every unit of a device exists but PRIVET units 12–14 (R591). -/
def unitPresent : UnitId → Bool
  | .privet n => decide (n.val < 12)
  | _ => true

/-- The children of a unit in the order of CHILD_MAP (R31, R46). -/
def unitChildren : UnitId → List UnitId
  | .group => [.device]
  | .device => [.half 0, .half 1] ++ (List.range 12).map fun n => .privet (Fin.ofNat 15 n)
  | .half h =>
    ((List.range 16).map fun t => .tile h (Fin.ofNat 16 t)) ++ [.hub h, .ford h] ++
    ((List.range 8).map fun n => .table h (Fin.ofNat 8 n)) ++ [.assoc h, .buffer h, .sched h, .hbmc h 0, .hbmc h 1, .locks h] ++
    ((List.range 64).map fun p => .port (portOf h p))
  | .tile h t => [.cluster h t 0, .cluster h t 1, .cluster h t 2, .cluster h t 3, .spare h t]
  | .cluster h t c => [.core h t c 0, .core h t c 1, .core h t c 2, .core h t c 3]
  | _ => []

/-- A unit and its descendants to a depth of `n`, parents before children. -/
def subtreeTo : Nat → UnitId → List UnitId
  | 0, u => [u]
  | n + 1, u => u :: (unitChildren u).flatMap (subtreeTo n)

/-- A unit and all its descendants, parents before children. -/
def subtree (u : UnitId) : List UnitId := subtreeTo 5 u

/-- The ancestors of a unit, nearest first, to a depth of `n`. -/
def ancestorsTo : Nat → UnitId → List UnitId
  | 0, _ => []
  | n + 1, u =>
    match unitParent u with
    | some p => p :: ancestorsTo n p
    | none => []

/-- The ancestors of a unit, nearest first. -/
def ancestors (u : UnitId) : List UnitId := ancestorsTo 5 u

/-- Unit `u` is `a` or one of its descendants. -/
def within (a u : UnitId) : Bool := decide (u = a) || (ancestors u).contains a

/-- Every unit of the device. -/
def allUnits : List UnitId := subtree .group

/-! ### Registers -/

/-- A register block: what it holds and where its active view begins (R36). -/
structure Blk where
  kind : BlkKind
  base : Nat
  deriving DecidableEq, Repr

/-- The block of a TABLE unit (R35). -/
def tableKind (n : Fin 8) : BlkKind :=
  match n.val with
  | 0 => .bare
  | 1 => .flow
  | 2 => .lpm
  | 3 => .counter
  | 4 => .bare
  | 5 => .learn
  | 6 => .shadow
  | _ => .version

/-- What a PRIVET unit's own block holds beyond its UCB (R591, R610, R599, R617, R619, R625, R627, R629). -/
def privetKind (n : Fin 15) : BlkKind :=
  match n.val with
  | 1 => .boot
  | 4 => .cal
  | 5 => .sense
  | 6 => .mbox
  | 7 => .mgmt
  | 8 => .pcie
  | 9 => .debug
  | _ => .bare

/-- What the block at a unit's own address holds beyond its UCB. -/
def ownKind : UnitId → BlkKind
  | .group => .group
  | .device => .device
  | .privet n => privetKind n
  | .half _ => .half
  | .hub _ => .hub
  | .ford _ => .ford
  | .table _ n => tableKind n
  | .assoc _ => .assoc
  | .buffer _ => .buffer
  | .sched _ => .sched
  | .hbmc _ _ => .hbmc
  | .locks _ => .locks
  | .port _ => .port
  | .tile _ _ => .tile
  | .cluster _ _ _ => .bare
  | .core _ _ _ _ => .core
  | .spare _ _ => .core

/-- The block at a unit's own address. -/
def ownBlk (u : UnitId) : Blk := ⟨ownKind u, unitBase u⟩

/-- The further blocks of a unit (R34, R36, R492, R621). -/
def extraBlks : UnitId → List Blk
  | .half h => [⟨.cc, halfBase h + 0x00050000⟩]
  | .sched h => [⟨.shaper, unitBase (.sched h) + 0x10000⟩]
  | .tile h t => [⟨.tsched, tileBase h t + 0x10000⟩, ⟨.bramble, tileBase h t + 0x20000⟩, ⟨.channel, tileBase h t + 0x30000⟩]
  | .cluster h t c => [⟨.coproc, unitBase (.cluster h t c) + 0x10000⟩]
  | _ => []

/-- The nominal voltage of the rail a monitor watches, in 0.1 mV (R663). -/
def railNominal (m : Nat) : Nat :=
  nth 0 [7500, 8000, 12000, 11000, 4000, 18000, 7500, 8000, 12000, 11000, 4000, 18000, 8000, 12000, 18000, 33000] m

/-- The reset value of one field, at entry `i` of its register's array (R20 and the rules named at `Rst`). -/
def rstVal (r : Rst) (i : Nat) : Nat :=
  match r with
  | .val n => n
  | .dscp k => (16 * i + k) / 8
  | .ageThr => if i = 0 then 0 else 0x7FFF
  | .clsBanks => if i = 0 then 0xFFFFFFFF else 0
  | .poolSize => if i = 1 then 524288 else if i = 2 then 0 else 131072
  | .qPfc => (i % 16) / 2
  | .cPrio => i % 4
  | .railUv => railNominal i * 9 / 10
  | .railOv => railNominal i * 11 / 10
  | .hw => 0

/-- The row and entry of the register at an offset of a block, if the table holds one. -/
def findRow (rows : List RegRow) (off : Nat) : Option (RegRow × Nat) :=
  match rows with
  | [] => none
  | r :: rest =>
    if r.off ≤ off ∧ (if r.count ≤ 1 then off = r.off else (off - r.off) % r.stride = 0 ∧ (off - r.off) / r.stride < r.count)
    then some (r, if r.count ≤ 1 then 0 else (off - r.off) / r.stride)
    else findRow rest off

/-- The rows that govern an offset of a block: the UCB below 0x100 of a unit's own block, the block's own rows above. -/
def blkRows (k : BlkKind) (off : Nat) : List RegRow :=
  if off < 0x100 then regRows .ucb else regRows k

/-- The fields of a register, packed at their reset values. -/
def packRst (fs : List FieldRow) (i : Nat) : Nat :=
  match fs with
  | [] => 0
  | f :: r => (rstVal f.rst i) * 2 ^ f.lsb + packRst r i

/-- The reset value of the register at offset `off` of a block of kind `k` (zero where there is none). -/
def regRst (k : BlkKind) (off : Nat) : DWord :=
  match findRow (blkRows k off) off with
  | some (r, i) => BitVec.ofNat 64 (packRst r.fields i)
  | none => 0

/-- The active value of the register at offset `off` of block `b`. -/
def State.reg (s : State) (b : Blk) (off : Nat) : DWord := tget (regRst b.kind off) s.csr (b.base + off)

/-- Set the active value of a register. -/
def State.setReg (s : State) (b : Blk) (off : Nat) (v : DWord) : State :=
  { s with csr := tset (regRst b.kind off) s.csr (b.base + off) v }

/-- The staged value of a register with ST fields (R36, R37). -/
def State.stg (s : State) (b : Blk) (off : Nat) : DWord := tget (regRst b.kind off) s.staged (b.base + off)

/-- Set the staged value of a register. -/
def State.setStg (s : State) (b : Blk) (off : Nat) (v : DWord) : State :=
  { s with staged := tset (regRst b.kind off) s.staged (b.base + off) v }

/-- A field of a register's active value. -/
def State.rfld (s : State) (b : Blk) (off lsb len : Nat) : Nat := fld (s.reg b off) lsb len

/-- Set a field of a register's active value. -/
def State.setRfld (s : State) (b : Blk) (off lsb len x : Nat) : State := s.setReg b off (setFld (s.reg b off) lsb len x)

/-- Count `n` in a 64-bit counter, which wraps at 2^64. -/
def State.bumpBy (s : State) (b : Blk) (off n : Nat) : State := s.setReg b off (s.reg b off + BitVec.ofNat 64 n)

/-- Count one in a 64-bit counter, which wraps at 2^64. -/
def State.bump (s : State) (b : Blk) (off : Nat) : State := s.bumpBy b off 1

/-- Register block of a half, of a port and so on, for short. -/
def bHalf (h : Half) : Blk := ownBlk (.half h)
def bHub (h : Half) : Blk := ownBlk (.hub h)
def bFord (h : Half) : Blk := ownBlk (.ford h)
def bTable (h : Half) (n : Fin 8) : Blk := ownBlk (.table h n)
def bAssoc (h : Half) : Blk := ownBlk (.assoc h)
def bBuffer (h : Half) : Blk := ownBlk (.buffer h)
def bSched (h : Half) : Blk := ownBlk (.sched h)
def bShaper (h : Half) : Blk := ⟨.shaper, unitBase (.sched h) + 0x10000⟩
def bHbmc (h : Half) (st : Fin 2) : Blk := ownBlk (.hbmc h st)
def bLocks (h : Half) : Blk := ownBlk (.locks h)
def bPort (p : PortIx) : Blk := ownBlk (.port p)
def bTile (h : Half) (t : TileIx) : Blk := ownBlk (.tile h t)
def bTsched (h : Half) (t : TileIx) : Blk := ⟨.tsched, tileBase h t + 0x10000⟩
def bBramble (h : Half) (t : TileIx) : Blk := ⟨.bramble, tileBase h t + 0x20000⟩
def bChannel (h : Half) (t : TileIx) : Blk := ⟨.channel, tileBase h t + 0x30000⟩
def bCoproc (h : Half) (t : TileIx) (c : Fin 4) : Blk := ⟨.coproc, unitBase (.cluster h t c) + 0x10000⟩
def bCore (h : Half) (t : TileIx) (c k : Fin 4) : Blk := ownBlk (.core h t c k)
def bCc (h : Half) : Blk := ⟨.cc, halfBase h + 0x00050000⟩
def bDevice : Blk := ownBlk .device
def bPrivet (n : Fin 15) : Blk := ownBlk (.privet n)

/-- The unit and the block at block number `r` of half `h`: addresses half base + r × 0x1_0000 (R34). -/
def halfBlkAt (h : Half) (r : Nat) : Option (UnitId × Blk) :=
  let own (u : UnitId) : Option (UnitId × Blk) := some (u, ownBlk u)
  if r = 0 then own (.half h)
  else if r = 1 then own (.hub h)
  else if r = 2 then own (.ford h)
  else if r = 5 then some (.half h, bCc h)
  else if 0x10 ≤ r ∧ r < 0x18 then own (.table h (Fin.ofNat 8 (r - 0x10)))
  else if r = 0x18 then own (.assoc h)
  else if r = 0x20 then own (.buffer h)
  else if r = 0x30 then own (.sched h)
  else if r = 0x31 then some (.sched h, bShaper h)
  else if r = 0x40 then own (.hbmc h 0)
  else if r = 0x50 then own (.hbmc h 1)
  else if r = 0x60 then own (.locks h)
  else if 0x100 ≤ r ∧ r < 0x140 then own (.port (portOf h (r - 0x100)))
  else if 0x400 ≤ r ∧ r < 0x800 then
    let t : TileIx := Fin.ofNat 16 ((r - 0x400) / 0x40)
    let q := (r - 0x400) % 0x40
    if q = 0 then own (.tile h t)
    else if q = 1 then some (.tile h t, bTsched h t)
    else if q = 2 then some (.tile h t, bBramble h t)
    else if q = 3 then some (.tile h t, bChannel h t)
    else if q = 0x10 then own (.spare h t)
    else if 0x20 ≤ q then
      let c : Fin 4 := Fin.ofNat 4 ((q - 0x20) / 8)
      let w := q % 8
      if w = 0 then own (.cluster h t c)
      else if w = 1 then some (.cluster h t c, bCoproc h t c)
      else if w < 6 then own (.core h t c (Fin.ofNat 4 (w - 2)))
      else none
    else none
  else none

/-- The unit and the block that occupy an address (R34, R36); none at a hole (R38). -/
def blkAt (addr : Nat) : Option (UnitId × Blk) :=
  let b := addr / 0x10000
  if b = 0 then some (.device, bDevice)
  else if b < 13 then some (.privet (Fin.ofNat 15 (b - 1)), bPrivet (Fin.ofNat 15 (b - 1)))
  else if b = 0x10 then some (.group, ownBlk .group)
  else if 0x1000 ≤ b ∧ b < 0x2000 then halfBlkAt 0 (b - 0x1000)
  else if 0x2000 ≤ b ∧ b < 0x3000 then halfBlkAt 1 (b - 0x2000)
  else none

/-- The nearest unit that encloses a hole (R38): the tile or half whose address range holds it, else the DEVICE. -/
def enclosing (addr : Nat) : UnitId :=
  let b := addr / 0x10000
  let inHalf (h : Half) (r : Nat) : UnitId :=
    if 0x400 ≤ r ∧ r < 0x800 then
      let t : TileIx := Fin.ofNat 16 ((r - 0x400) / 0x40)
      let q := (r - 0x400) % 0x40
      if 0x20 ≤ q then .cluster h t (Fin.ofNat 4 ((q - 0x20) / 8)) else .tile h t
    else .half h
  if 0x1000 ≤ b ∧ b < 0x2000 then inHalf 0 (b - 0x1000)
  else if 0x2000 ≤ b ∧ b < 0x3000 then inHalf 1 (b - 0x2000)
  else .device

/-! ### The dynamic part of the units -/

/-- The dynamic part of a unit. -/
def State.unit (s : State) (u : UnitId) : UnitDyn := tget UnitDyn.init s.units (unitBase u)

/-- Change the dynamic part of a unit. -/
def State.updUnit (s : State) (u : UnitId) (f : UnitDyn → UnitDyn) : State :=
  { s with units := tmod UnitDyn.init s.units (unitBase u) f }

/-- UNIT_STATE.STATE of a unit (R44). -/
def State.ustate (s : State) (u : UnitId) : UState := (s.unit u).state

/-- A unit works while it is ACTIVE and no entry into another state is in progress (R56, R68). -/
def State.live (s : State) (u : UnitId) : Bool :=
  decide ((s.unit u).state = .active) && (s.unit u).entering.isNone

/-- The code of UNIT_STATE.STATE (R44). -/
def UState.code : UState → Nat
  | .off => 0
  | .reset => 1
  | .test => 2
  | .active => 3
  | .fenced => 4

/-- The code of UNIT_STATE.DEV_STATE of the DEVICE (R44). -/
def DevState.code : DevState → Nat
  | .start => 1
  | .run => 2
  | .recovery => 3

/-- The member number of the device in its group: MEMBER when MEMBERS has more than the device's own bit set, and 0 when the device is
not grouped (R43, R535). -/
def State.memberNo (s : State) : Nat :=
  let m := s.rfld (ownBlk .group) R.group_GROUP_CFG 16 4
  if (List.range 16).any fun i => decide (i ≠ m) && bit (s.reg (ownBlk .group) R.group_GROUP_CFG) i then m else 0

/-! ### Free values -/

/-- The free value at the present place of the model's counter, in `w` bits. -/
def State.free (s : State) (w : Nat) : BitVec w := Config.freeValue s.fresh w

/-- Advance the model's counter of free values. -/
def State.used (s : State) : State := { s with fresh := s.fresh + 1 }

end Sys2Proof.Machine
end

