-- ==== Sys2Proof/Machine/Records.lean ====
section
/-! DEFINITION. Fault records: classes and codes (R544, R557), the record slots of the hubs (R546–R550), the roll-up into
FAULT_SUMMARY (R48, R549, R553), the queues of R555 and R556 and the notification of R560. The reaction a code draws is in
Sys2Proof/Machine/React.lean. -/

namespace Sys2Proof.Machine

/-! The fault codes (R557), by name. -/

namespace F
abbrev CSR_HOLE : Nat := 0
-- DEVICE
abbrev PLL_UNLOCK : Nat := 1
abbrev REFCLK_LOSS : Nat := 2
abbrev BROWNOUT_SHARED : Nat := 3
abbrev THERMAL_SHUTDOWN : Nat := 4
-- HALF
abbrev DTS_SKEW_FATAL : Nat := 1
abbrev BROWNOUT : Nat := 2
abbrev CLOCK_FAULT : Nat := 3
abbrev CONFLUENCE_STATE : Nat := 4
abbrev CLS_ECC : Nat := 5
abbrev CLS_STATE : Nat := 6
-- TILE
abbrev TMEM_ECC : Nat := 1
abbrev TMEM_DATA : Nat := 2
abbrev PSTORE_ECC : Nat := 3
abbrev PSTORE_DATA : Nat := 4
abbrev TASK_STATE : Nat := 5
abbrev BRAMBLE_ECC : Nat := 6
abbrev BRAMBLE_PATTERN : Nat := 7
abbrev CHANNEL_DATA : Nat := 8
abbrev LBIST_FAIL : Nat := 9
abbrev CORE_FENCED : Nat := 10
abbrev SPARE_EXHAUSTED : Nat := 11
abbrev TILE_FENCED : Nat := 12
-- CLUSTER
abbrev CP_STATE : Nat := 1
abbrev CP_ECC : Nat := 2
-- CORE
abbrev RF_ECC : Nat := 1
abbrev RF_DATA : Nat := 2
abbrev CORE_RESIDUE : Nat := 3
abbrev RSTACK_PARITY : Nat := 4
abbrev EVENT_DEADLOCK : Nat := 5
-- PORT
abbrev PORT_ECC : Nat := 1
abbrev PORT_DATA : Nat := 2
abbrev PORT_LANE_FAIL : Nat := 3
-- TABLE
abbrev TABLE_ECC : Nat := 1
abbrev TABLE_ENTRY : Nat := 2
abbrev TABLE_LEARNED_LOST : Nat := 3
abbrev TABLE_DYNAMIC : Nat := 4
abbrev FLOW_RECORD_LOST : Nat := 5
abbrev SHADOW_DIVERGE : Nat := 6
-- ASSOC
abbrev ASSOC_ECC : Nat := 1
abbrev ASSOC_ENTRY : Nat := 2
abbrev ASSOC_SPARE_USED : Nat := 3
abbrev ASSOC_BANK_LOST : Nat := 4
-- BUFFER
abbrev BUF_ECC : Nat := 1
abbrev BUF_DATA : Nat := 2
abbrev BUF_POINTER : Nat := 3
abbrev BUF_REFCNT : Nat := 4
abbrev BUF_REFCNT_MIRROR : Nat := 5
abbrev BUF_RECLAIM : Nat := 6
abbrev BUF_SPILL_DATA : Nat := 7
abbrev BUF_ROW_REPAIRED : Nat := 8
abbrev BUF_BANK_FENCED : Nat := 9
-- SCHED
abbrev SCHED_ECC : Nat := 1
abbrev SCHED_STATE : Nat := 2
-- HBMC
abbrev HBM_ECC : Nat := 1
abbrev HBM_DATA : Nat := 2
abbrev HBM_REGION : Nat := 3
abbrev HBM_HOT : Nat := 4
abbrev HBM_ROW_REPAIRED : Nat := 5
abbrev HBM_ROW_LOST : Nat := 6
abbrev HBM_RETIRE_FULL : Nat := 7
abbrev HBM_PARITY : Nat := 8
abbrev HBM_LINK : Nat := 9
abbrev HBM_TRAIN : Nat := 10
-- FORD
abbrev DTS_SKEW : Nat := 1
abbrev FORD_LANE_REPAIRED : Nat := 2
abbrev FORD_BUNDLE_LOST : Nat := 3
abbrev FORD_DOWN : Nat := 4
abbrev FORD_PEER_LOST : Nat := 5
-- HUB
abbrev HUB_MISMATCH : Nat := 1
abbrev HUB_ECC : Nat := 2
abbrev PRIVET_HEARTBEAT : Nat := 3
abbrev PRIVET_FENCED : Nat := 4
-- LOCKS
abbrev LOCKS_ECC : Nat := 1
abbrev LOCKS_STATE : Nat := 2
-- PRIVET
abbrev PRIVET_LOCKSTEP : Nat := 1
abbrev PRIVET_ECC : Nat := 2
abbrev STORE_BANK_BAD : Nat := 3
end F

/-- The classes of the codes from 0x01 of each kind, in order (R557). -/
def codeClasses : Nat → List FClass
  | 0x01 => [.fatal, .fatal, .fatal, .fatal]
  | 0x02 => [.fatal, .fatal, .fatal, .fatal, .corrected, .contained]
  | 0x03 => [.corrected, .contained, .corrected, .contained, .contained, .corrected, .contained, .contained, .contained, .contained,
      .contained, .contained]
  | 0x04 => [.contained, .corrected]
  | 0x05 => [.corrected, .contained, .contained, .contained, .contained]
  | 0x06 => [.corrected, .contained, .contained]
  | 0x07 => [.corrected, .contained, .contained, .contained, .contained, .contained]
  | 0x08 => [.corrected, .contained, .contained, .contained]
  | 0x09 => [.corrected, .contained, .contained, .contained, .corrected, .corrected, .contained, .contained, .contained]
  | 0x0A => [.corrected, .contained]
  | 0x0B => [.corrected, .contained, .contained, .contained, .contained, .contained, .contained, .corrected, .contained, .contained]
  | 0x0C => [.contained, .corrected, .contained, .contained, .contained]
  | 0x0D => [.fatal, .corrected, .contained, .contained]
  | 0x0E => [.corrected, .contained]
  | 0x0F => [.contained, .corrected, .corrected]
  | _ => []

/-- The class of a code within a kind (R557); none where the kind has no such code. -/
def codeClass (kind code : Nat) : Option FClass :=
  if code = 0 then some .corrected else (codeClasses kind)[code - 1]?

/-- The code of a class (R544). -/
def FClass.code : FClass → Nat
  | .corrected => 1
  | .contained => 2
  | .fatal => 3

/-- The worse of two classes (R550). -/
def FClass.worse (a b : FClass) : FClass := if a.code < b.code then b else a

/-- The record slot of a unit in its hub (R548). -/
def slotOf : UnitId → Nat
  | .half _ => 0
  | .hub _ => 1
  | .ford _ => 2
  | .assoc _ => 3
  | .buffer _ => 4
  | .sched _ => 5
  | .locks _ => 6
  | .table _ n => 8 + n.val
  | .hbmc _ st => 16 + st.val
  | .tile _ t => 32 + t.val
  | .cluster _ t c => 48 + 4 * t.val + c.val
  | .port p => 112 + portLocal p
  | .core _ t c k => 176 + 17 * t.val + 4 * c.val + k.val
  | .spare _ t => 176 + 17 * t.val + 16
  | .device => 448
  | .group => 449
  | .privet n => 450 + n.val

/-- The hubs that hold a unit's record: its half's, or both for DEVICE, GROUP and PRIVET (R548). -/
def hubsOf (u : UnitId) : List Half :=
  match unitHalf u with
  | some h => [h]
  | none => [0, 1]

/-- The tile of a half. -/
def State.tile (s : State) (h : Half) (t : TileIx) : Tile := tget Tile.init (s.tiles.get h) t.val

/-- Change a tile. -/
def State.updTile (s : State) (h : Half) (t : TileIx) (f : Tile → Tile) : State :=
  { s with tiles := s.tiles.upd h fun ts => tmod Tile.init ts t.val f }

/-- Change a hub. -/
def State.updHub (s : State) (h : Half) (f : HubState → HubState) : State := { s with hubs := s.hubs.upd h f }

/-- A thread of a tile or of a half's control cores. -/
def State.thread (s : State) : ThreadRef → Thread
  | .pk h t n => tget Thread.init (s.tile h t).threads n.val
  | .cc h n => tget Thread.init (s.cc.get h).threads n.val

/-- Change a thread. -/
def State.updThread (s : State) (th : ThreadRef) (f : Thread → Thread) : State :=
  match th with
  | .pk h t n => s.updTile h t fun x => { x with threads := tmod Thread.init x.threads n.val f }
  | .cc h n => { s with cc := s.cc.upd h fun x => { x with threads := tmod Thread.init x.threads n.val f } }

/-- Raise interrupt `n` of a thread: its pending bit sets (R370). -/
def State.raiseInt (s : State) (th : ThreadRef) (n : Nat) : State :=
  s.updThread th fun x => { x with ipend := x.ipend ||| (BitVec.ofNat 8 (1 <<< n)) }

/-- DTS as a half holds it (R69). -/
def State.dts (s : State) (h : Half) : DWord := (s.time.get h).dts

/-- The leading half: H0 while its DTS is valid, else H1 (R74, R674). -/
def State.leader (s : State) : Half := if s.time.h0.valid then 0 else 1

/-- DTS of the leading half. -/
def State.leadDts (s : State) : DWord := s.dts s.leader

/-- DTS as a unit holds it: its half's, or the leader's for a unit of no half. -/
def State.dtsOf (s : State) (u : UnitId) : DWord :=
  match unitHalf u with
  | some h => s.dts h
  | none => s.leadDts

/-- The core at a position. -/
def coreAt (h : Half) (t : TileIx) (p : Nat) : UnitId := .core h t (Fin.ofNat 4 (p / 4)) (Fin.ofNat 4 p)

/-- The tile has lost its spare and two cores more: it is FENCED (R573). -/
def SpareInfo.tileLost (x : SpareInfo) : Bool := decide (3 ≤ ((List.range 17).filter fun i => x.fenced.testBit i).length)

/-- The position a physical core of a tile holds, none for the spare (R571). -/
def SpareInfo.posOf (x : SpareInfo) (phys : Nat) : Option Nat := (List.range 16).find? fun p => decide (tget p x.phys p = phys)

/-- The physical core of SP (R41): the spare, or once that is used up the one core that holds no position. -/
def SpareInfo.spCore (x : SpareInfo) : Nat :=
  if x.spare < 17 then x.spare else ((List.range 17).find? fun i => (x.posOf i).isNone).getD 16

/-- The physical core that holds a position of a tile (R16, R571); the spare position holds the tile's spare. -/
def State.physOf (s : State) : UnitId → Nat
  | .core h t c k => tget (4 * c.val + k.val) (s.tile h t).spare.phys (4 * c.val + k.val)
  | .spare h t => (s.tile h t).spare.spCore
  | _ => 0

/-- FAULT_MASK suppresses the notification of a class at the unit or at an ancestor (R49, R560). -/
def State.masked (s : State) (u : UnitId) (c : FClass) : Bool :=
  match c with
  | .fatal => false
  | .contained => (u :: ancestors u).any fun v => bit (s.reg (ownBlk v) R.ucb_FAULT_MASK) 1
  | .corrected => (u :: ancestors u).any fun v => bit (s.reg (ownBlk v) R.ucb_FAULT_MASK) 0

/-- The notification of R560 by the hub of half `h`: interrupt 0 of the control-core thread NOTE_CFG names. -/
def State.notifyHub (s : State) (h : Half) : State :=
  let c := s.reg (bHub h) R.hub_NOTE_CFG
  if bit c 15 ∧ fld c 0 6 < 32 then s.raiseInt (.cc h (Fin.ofNat 32 (fld c 0 6))) 0 else s

/-- The notification that an opening or merge at `u` with record class `c` raises (R560). -/
def State.notify (s : State) (u : UnitId) (code : Nat) (c : FClass) : State :=
  let always := unitKind u = 0x0D ∧ (code = F.PRIVET_HEARTBEAT ∨ code = F.PRIVET_FENCED)
  if s.masked u c ∧ ¬ always then s
  else
    match unitHalf u with
    | some h => s.notifyHub h
    | none => if s.ustate (.hub 0) = .active then s.notifyHub 0 else s.notifyHub 1

/-- The codes that carry a detail (R556). -/
def hasDetail (kind code : Nat) : Bool :=
  match kind with
  | 0x07 => code = F.TABLE_ENTRY || code = F.SHADOW_DIVERGE || code = F.TABLE_LEARNED_LOST || code = F.FLOW_RECORD_LOST
  | 0x0B => code = F.HBM_DATA || code = F.HBM_REGION || code = F.HBM_ROW_REPAIRED || code = F.HBM_ROW_LOST || code = F.HBM_RETIRE_FULL
  | 0x08 => code = F.ASSOC_ENTRY
  | 0x03 => code = F.BRAMBLE_PATTERN || code = F.TMEM_DATA || code = F.PSTORE_DATA || code = F.CORE_FENCED || code = F.TASK_STATE
  | 0x09 => code = F.BUF_DATA || code = F.BUF_POINTER || code = F.BUF_REFCNT || code = F.BUF_SPILL_DATA || code = F.BUF_ROW_REPAIRED ||
      code = F.BUF_BANK_FENCED
  | 0x05 => code = F.RF_DATA || code = F.RSTACK_PARITY
  | 0x02 => code = F.CLS_STATE
  | 0x06 => code = F.PORT_DATA
  | 0x0A => code = F.SCHED_STATE
  | _ => false

/-- A fault found: its unit, its code, whether it came from a force bit or inverted check bits, and its detail. -/
structure Found where
  unit : UnitId
  code : Nat
  injected : Bool
  detail : DWord
  deriving DecidableEq, Repr

/-- The record that a fault leaves in its slot: a new one, or the open one with the fault merged (R549, R550). -/
def recordOf (s : State) (f : Found) (c : FClass) (old : Option FaultRec) : FaultRec :=
  match old with
  | some r =>
    if r.isOpen then
      { r with merged := satTo (r.merged + 1) 255, sources := r.sources ||| BitVec.ofNat 32 (1 <<< f.code), cls := r.cls.worse c,
               injected := r.injected && f.injected }
    else
      { stamp := BitVec.ofNat 48 (s.dtsOf f.unit).toNat, code := BitVec.ofNat 8 f.code, cls := c, isOpen := true, unit := f.unit,
        phys := BitVec.ofNat 5 (s.physOf f.unit), injected := f.injected, merged := 0, sources := BitVec.ofNat 32 (1 <<< f.code) }
  | none =>
    { stamp := BitVec.ofNat 48 (s.dtsOf f.unit).toNat, code := BitVec.ofNat 8 f.code, cls := c, isOpen := true, unit := f.unit,
      phys := BitVec.ofNat 5 (s.physOf f.unit), injected := f.injected, merged := 0, sources := BitVec.ofNat 32 (1 <<< f.code) }

/-- Whether a record is open in slot `k` of a hub. -/
def HubState.openAt (x : HubState) (k : Nat) : Bool :=
  match tget? x.slots k with
  | some r => r.isOpen
  | none => false

/-- One hub writes or merges a record, queues its event and detail and counts a merge (R549, R550, R555, R556). -/
def State.hubRecord (s : State) (h : Half) (f : Found) (c : FClass) : State :=
  let x := s.hubs.get h
  let k := slotOf f.unit
  let merge := x.openAt k
  let r := recordOf s f c (tget? x.slots k)
  let full := decide (256 ≤ x.events.length)
  let det := hasDetail (unitKind f.unit) f.code
  let dfull := decide (256 ≤ x.details.length)
  let s1 := s.updHub h fun y =>
    { y with
      slots := tput y.slots k r
      events := if full then y.events
        else y.events ++ [{ slot := k, merge := merge, entry := r, detail := f.detail,
                            dtsHigh := BitVec.ofNat 16 ((s.dtsOf f.unit).toNat >>> 48) }]
      details := if det && !dfull then y.details ++ [{ id := y.detailNext, slot := k, code := BitVec.ofNat 8 f.code, detail := f.detail }]
        else y.details
      detailNext := y.detailNext + 1 }
  let s2 := if merge then s1.bump (bHub h) R.hub_MERGES else s1
  let s3 := if full then s2.bump (bHub h) R.hub_LOG_LOST else s2
  if det && dfull then s3.bump (bHub h) R.hub_DETAIL_LOST else s3

/-- FAULT_SUMMARY.COUNT rises at a unit and at every ancestor (R48, R549). -/
def State.countFault (s : State) (u : UnitId) : State :=
  (u :: ancestors u).foldl (fun s v => s.updUnit v fun d => { d with faultCount := satTo (d.faultCount + 1) 0xFFFFFFFF }) s

/-- A fault reaches its hub slot: it opens a record or merges into the open one, and is notified (R549, R550, R559, R560). It draws
no reaction here. A code the unit's kind does not have records nothing. -/
def State.openRecord (s : State) (f : Found) : State :=
  match codeClass (unitKind f.unit) f.code with
  | none => s
  | some c =>
    let hs := hubsOf f.unit
    let k := slotOf f.unit
    let h0 : Half := if hs = [1] then 1 else 0
    let wasOpen := (s.hubs.get h0).openAt k
    let s1 := hs.foldl (fun s h => s.hubRecord h f c) s
    let s2 := if wasOpen then s1 else s1.countFault f.unit
    let cls := match tget? (s2.hubs.get h0).slots k with
      | some r => r.cls
      | none => c
    s2.notify f.unit f.code cls

/-! ### Inverted check bits (R566, R567) -/

/-- The corrected code of the checker whose uncorrectable code is given, or none for one without a corrected outcome; the answer is
none where the kind has no such checker (R557, R558, R566). -/
def checkerOf (kind code : Nat) : Option (Option Nat) :=
  match kind, code with
  | 0x02, 4 => some none
  | 0x02, 6 => some (some F.CLS_ECC)
  | 0x03, 2 => some (some F.TMEM_ECC)
  | 0x03, 4 => some (some F.PSTORE_ECC)
  | 0x03, 5 => some none
  | 0x03, 7 => some (some F.BRAMBLE_ECC)
  | 0x03, 8 => some none
  | 0x04, 1 => some (some F.CP_ECC)
  | 0x05, 2 => some (some F.RF_ECC)
  | 0x05, 4 => some none
  | 0x06, 2 => some (some F.PORT_ECC)
  | 0x07, 2 => some (some F.TABLE_ECC)
  | 0x07, 3 => some (some F.TABLE_ECC)
  | 0x07, 4 => some (some F.TABLE_ECC)
  | 0x07, 5 => some (some F.TABLE_ECC)
  | 0x08, 2 => some (some F.ASSOC_ECC)
  | 0x09, 2 => some (some F.BUF_ECC)
  | 0x09, 7 => some none
  | 0x0A, 2 => some (some F.SCHED_ECC)
  | 0x0B, 2 => some (some F.HBM_ECC)
  | 0x0E, 2 => some (some F.LOCKS_ECC)
  | _, _ => none

/-- The code that a checker gives at the read of the word it wrote with inverted check bits (R566). -/
def State.invCode (s : State) (u : UnitId) : Option Nat :=
  match (s.unit u).invAt with
  | some (sel, _) =>
    match checkerOf (unitKind u) (sel % 32) with
    | some (some c) => some (if sel.testBit 7 then c else sel % 32)
    | some none => some (sel % 32)
    | none => none
  | none => none

/-- The detail of a fault names the word that a checker has marked, where the detail of its code is that word's address (R556). -/
def State.atMark (s : State) (u : UnitId) (code : Nat) (d : DWord) : Bool :=
  match (s.unit u).invAt with
  | some (_, a) =>
    if (unitKind u = 0x03 ∧ (code = F.TMEM_DATA ∨ code = F.PSTORE_DATA ∨ code = F.BRAMBLE_PATTERN)) ∨ (unitKind u = 0x07 ∧ code = F.TABLE_ENTRY) ∨
        (unitKind u = 0x08 ∧ code = F.ASSOC_ENTRY) ∨ (unitKind u = 0x09 ∧ code = F.BUF_DATA) ∨ (unitKind u = 0x0B ∧ code = F.HBM_DATA)
    then decide (d.toNat = a) else true
  | none => false

/-- A fault that a checker finds at a read: at the word it wrote with inverted check bits it is injected, and the mark is gone (R567). -/
def State.found (s : State) (u : UnitId) (code : Nat) (d : DWord) : State × Found :=
  if s.invCode u = some code ∧ s.atMark u code d then (s.updUnit u fun x => { x with invAt := none }, ⟨u, code, true, d⟩)
  else (s, ⟨u, code, false, d⟩)

/-- Open a record of code `code` at unit `u` with detail `d`. -/
def State.report (s : State) (u : UnitId) (code : Nat) (d : Nat := 0) : State :=
  match s.found u code (BitVec.ofNat 64 d) with
  | (s1, f) => s1.openRecord f

/-- FAULT_SUMMARY.WORST of a unit: the worst class among the open slots of its subtree (R48, R553). -/
def State.worst (s : State) (u : UnitId) : Nat :=
  let of (x : HubState) : Nat :=
    x.slots.foldl (fun m e => if e.2.isOpen && within u e.2.unit then (if m < e.2.cls.code then e.2.cls.code else m) else m) 0
  let a := of (s.hubs.get 0)
  let b := of (s.hubs.get 1)
  if a < b then b else a

/-- REC_LO of a record (R546); `member` is the device's member number in its group (R43). -/
def FaultRec.lo (r : FaultRec) (member : Nat) : DWord :=
  let u := r.unit
  let half := match unitHalf u with | some h => h.val | none => 0
  let tile := match u with | .tile _ t => t.val | .cluster _ t _ => t.val | .core _ t _ _ => t.val | .spare _ t => t.val | _ => 0
  let cluster := match u with | .cluster _ _ c => c.val | .core _ _ c _ => c.val | _ => 0
  let core := match u with | .core _ _ _ k => k.val | .spare _ _ => 4 | _ => 0
  let idx := match unitKind u with | 0x03 => 0 | 0x04 => 0 | 0x05 => 0 | 0x01 => member | _ => unitIndex u
  let ph := if unitKind u = 0x05 then r.phys.toNat else 0
  BitVec.ofNat 64 (half <<< 63 ||| tile <<< 59 ||| cluster <<< 57 ||| core <<< 54 ||| ph <<< 49 ||| (idx % 128) <<< 42 |||
    b2n r.injected <<< 40 ||| r.merged <<< 32 ||| r.sources.toNat)

/-- REC_HI of a record (R546). -/
def FaultRec.hi (r : FaultRec) : DWord :=
  BitVec.ofNat 64 (r.stamp.toNat <<< 16 ||| r.code.toNat <<< 8 ||| r.cls.code <<< 6 ||| b2n r.isOpen <<< 5 ||| unitKind r.unit)

end Sys2Proof.Machine
end

