-- ==== Sys2Proof/Machine/Checkers.lean ====
section
/-! DEFINITION. Writes with inverted check bits (R51, R566, R567): the words that each checker protects, which of them a command has
written, and what that does to an armed or a marked word. -/

namespace Sys2Proof.Machine

/-- The keys at which two tables differ, those of the first one before those that only the second one has. -/
def tdiff {α : Type} [DecidableEq α] (t u : Tbl α) : List Nat :=
  (t.filter fun e => decide (tget? u e.1 ≠ some e.2)).map (·.1) ++ (u.filter fun e => (tget? t e.1).isNone).map (·.1)

/-- The detail of R556 for a word of table target `n`. -/
def entryMark (n i : Nat) : Nat := n <<< 60 ||| i

/-- The words of a TABLE unit, by the table it is (R35), that differ between two states of the tables. -/
def TableState.wrote (x y : TableState) (n : Nat) : List Nat :=
  match n with
  | 0 => (tdiff x.exact y.exact).map (entryMark 0) ++ (tdiff x.indirection y.indirection).map (entryMark 1) ++
      (tdiff x.groups y.groups).map (entryMark 2) ++ (tdiff x.members y.members).map (entryMark 3)
  | 1 => tdiff x.stash y.stash
  | 2 => (tdiff x.routes y.routes).map (entryMark 4)
  | 3 => tdiff x.cache y.cache
  | 4 => (tdiff x.meters y.meters).map (entryMark 5) ++ (tdiff x.profiles y.profiles).map (entryMark 6)
  | 5 => if x.learnQueue = y.learnQueue then [] else [0]
  | 7 => tdiff x.slots y.slots
  | _ => []

/-- The words of a tile's memories and queues, by checker: [23:22] names the memory as in R556. -/
def Tile.wrote (x y : Tile) (code : Nat) : List Nat :=
  let word (m a : Nat) : Nat := m <<< 22 ||| a / 4 * 4
  match code with
  | 2 => (tdiff x.ram y.ram).map (word 0) ++ (tdiff x.store y.store).map (word 1)
  | 4 => (tdiff x.bank0 y.bank0 ++ tdiff x.bank1 y.bank1).map (word 2)
  | 5 => tdiff x.tasks y.tasks
  | 8 => tdiff x.chans y.chans
  | _ => []

/-- The words of the register file, or of the return stack, of eight threads of a core. -/
def Tile.wroteRegs (x y : Tile) (first code : Nat) : List Nat :=
  (List.range 8).flatMap fun i =>
    let a := tget Thread.init x.threads (first + i)
    let b := tget Thread.init y.threads (first + i)
    if code = 2 then (tdiff a.g b.g ++ (tdiff a.a b.a).map (· + 32)).map (256 * i + ·) else if a.rs = b.rs then [] else [256 * i]

/-- The words that the checker of local source `code` of a unit protects and that differ between two states. A word that a command writes
with the value it held shows no difference. -/
def State.wrote (s s1 : State) (u : UnitId) (code : Nat) : List Nat :=
  match u with
  | .half h =>
    if code = 4 then tdiff (s.conf.get h).windows (s1.conf.get h).windows ++ tdiff (s.conf.get h).crossing (s1.conf.get h).crossing
    else if (s.ing.get h).done = (s1.ing.get h).done ∧ (s.ing.get h).cur = (s1.ing.get h).cur then [] else [0]
  | .tile h t => if code = 7 then tdiff (s.tab.get h).patterns (s1.tab.get h).patterns else (s.tile h t).wrote (s1.tile h t) code
  | .cluster h t c => (tdiff (s.tile h t).insts (s1.tile h t).insts).filter fun i => decide (i / 16 = c.val)
  | .core h t c k => (s.tile h t).wroteRegs (s1.tile h t) (32 * c.val + 8 * k.val) code
  | .port p => if tget? (s.ing.get (portHalf p)).arriving p.val = tget? (s1.ing.get (portHalf p)).arriving p.val then [] else [0]
  | .table h n => (s.tab.get h).wrote (s1.tab.get h) n.val
  | .assoc h => tdiff (s.assoc.get h).entries (s1.assoc.get h).entries
  | .buffer h =>
    if code = 2 then (tdiff (s.buf.get h).chains (s1.buf.get h).chains).flatMap fun i => (tget? (s1.buf.get h).chains i).elim [] (·.cells)
    else tdiff (s.buf.get h).spilled (s1.buf.get h).spilled
  | .sched h => tdiff (s.sched.get h).pV (s1.sched.get h).pV
  | .hbmc h st =>
    ((tdiff (s.hbm.get h).mem (s1.hbm.get h).mem).map fun a => a / 32 * 32).filter fun a =>
      decide (((bits a 8 6) ^^^ (bits a 21 6)) / 32 = st.val)
  | .locks h => tdiff (s.locks.get h) (s1.locks.get h)
  | _ => []

/-- A checker's word has been written: an armed one stores inverted check bits there and remembers the address, and a further write of a
marked word drops the mark (R51, R567). -/
def UnitDyn.wrote (d : UnitDyn) (sel : Nat) (l : List Nat) : UnitDyn :=
  match l with
  | [] => d
  | a :: _ =>
    if d.invPend then { d with invPend := false, invAt := some (sel, a) }
    else
      match d.invAt with
      | some (_, b) => if l.contains b then { d with invAt := none } else d
      | none => d

/-- The checker that INJECT.INV_SEL of a unit selects, or that has marked a word there. -/
def State.invSel (s : State) (u : UnitId) : Nat :=
  match (s.unit u).invAt with
  | some (sel, _) => if (s.unit u).invPend then s.rfld (ownBlk u) R.ucb_INJECT 40 8 else sel
  | none => s.rfld (ownBlk u) R.ucb_INJECT 40 8

/-- The units with a checker that is armed or has marked a word. -/
def State.armed (s : State) : List UnitId :=
  s.units.filterMap fun e => if e.2.invPend || e.2.invAt.isSome then (blkAt e.1).map (·.1) else none

/-- `s1` follows `s`: what it has written goes to the checkers that `s` has armed or marked. -/
def State.checked (s s1 : State) : State :=
  s.armed.foldl (fun x u => x.updUnit u fun d => d.wrote (s.invSel u) (s.wrote s1 u (s.invSel u % 32))) s1

end Sys2Proof.Machine
end

