-- ==== Sys2Proof/Machine/Time.lean ====
section
/-! DEFINITION. Device time (R69–R94): the advance of DTS and of the PTP counter at a tick, loads, slews, the TSYNC pins, the
alignment of the halves and the PTP registers. -/

namespace Sys2Proof.Machine

/-- Ticks in one microsecond (R9). -/
abbrev usTicks : Nat := 1500

/-- Change a half's time. -/
def State.updTime (s : State) (h : Half) (f : TimeState → TimeState) : State := { s with time := s.time.upd h f }

/-- The value in effect of DTS_SLEW.COUNT (R81). -/
def State.slewCount (s : State) : Nat := s.rfld bDevice R.device_DTS_SLEW 0 32

/-- The next tick is an adjusting tick of the slew (R81). -/
def State.slewDue (s : State) : Bool := decide (0 < s.slewCount) && decide (65535 ≤ s.dev.slewGrid)

/-- The next tick is a slewed tick of the follower `h` (R75); it waits while the slew of R81 adjusts the same tick the same way, so
that DTS adds 0, 1 or 2 (R71). -/
def State.followDue (s : State) (h : Half) : Bool := (s.time.get h).slewing && decide (63 ≤ (s.time.get h).followGrid) &&
  !(s.slewDue && (bit (s.reg bDevice R.device_DTS_SLEW) 48 == decide (0 < (s.time.get h).skew)))

/-- How much a half's DTS adds at the next tick: 1, or 2 or 0 where a slew is applied (R71, R75, R81). -/
def State.dtsAdd (s : State) (h : Half) : Nat :=
  let base : Int := if s.slewDue then (if bit (s.reg bDevice R.device_DTS_SLEW) 48 then 0 else 2) else 1
  let fol : Int := if s.followDue h then (if 0 < (s.time.get h).skew then -1 else 1) else 0
  (base + fol).toNat

/-- PTP time as one number of 2⁻³² ns. -/
def ptpTotal (sec ns frac : Nat) : Nat := (sec * 1000000000 + ns) * 2 ^ 32 + frac

/-- The PTP counter with `d` units of 2⁻³² ns added; the seconds are 48 bits (R87, R88). -/
def TimeState.ptpPlus (t : TimeState) (d : Nat) : TimeState :=
  let x := ptpTotal t.ptpSec t.ptpNs t.ptpFrac + d
  { t with ptpSec := x / 2 ^ 32 / 1000000000 % 2 ^ 48, ptpNs := x / 2 ^ 32 % 1000000000, ptpFrac := x % 2 ^ 32 }

/-- PTP_INCR in units of 2⁻³² ns (R89). -/
def State.ptpIncr (s : State) : Nat := s.rfld bDevice R.device_PTP_INCR 0 36

/-- One half's clocks at a tick (R69, R71, R75, R88). -/
def State.tickHalf (s : State) (h : Half) (t : TimeState) : TimeState :=
  if t.counting then
    let t1 := { t with dts := t.dts + BitVec.ofNat 64 (s.dtsAdd h) }
    let t2 := if s.followDue h then
        let k := if 0 < t.skew then t.skew - 1 else t.skew + 1
        { t1 with skew := k, followGrid := 0, slewing := decide (1 < k.natAbs) }
      else if t.slewing then { t1 with followGrid := t.followGrid + 1 } else t1
    t2.ptpPlus s.ptpIncr
  else t

/-- Some value in (a, b] is congruent to `m` modulo `n`. -/
def reachesMod (a b m n : Nat) : Bool := decide (0 < n) && decide ((a + n - m % n) / n < (b + n - m % n) / n)

/-- The output edge of TSYNC_OUT falls due 2 ticks after the tick from `s` to `s'` reached its phase (R83). -/
def State.tsyncPhase (s s' : State) : Bool :=
  let c := s.reg bDevice R.device_TSYNC_CFG
  let ph := if 1500000000 ≤ fld c 32 32 then 0 else fld c 32 32
  bit c 2 &&
    (if bit c 3 then decide ((s'.time.get s.leader).ptpSec ≠ (s.time.get s.leader).ptpSec)
     else reachesMod s.leadDts.toNat (s'.dts s.leader).toNat ph 1500000000)

/-- One tick of the clocks (R69, R71, R81, R83, R88). -/
def State.clockTick (s : State) : State :=
  let s1 := { s with time := s.time.both fun h t => s.tickHalf h t, ticks := s.ticks + 1 }
  let s2 := if s.slewDue then
      ({ s1 with dev := { s1.dev with slewGrid := 0 } }).setRfld bDevice R.device_DTS_SLEW 0 32 (s.slewCount - 1)
    else if 0 < s.slewCount then { s1 with dev := { s1.dev with slewGrid := s1.dev.slewGrid + 1 } } else s1
  if s.tsyncPhase s2 then { s2 with dev := { s2.dev with tsyncDue := some (s2.ticks + 2) } } else s2

/-- A load of `v` is refused: at or above 2⁶⁰, or below a half's DTS (R72, R79). -/
def State.loadRefused (s : State) (v : DWord) : Bool :=
  decide (2 ^ 60 ≤ v.toNat) || decide (v.toNat < s.time.h0.dts.toNat) || decide (v.toNat < s.time.h1.dts.toNat)

/-- DTS_LOAD goes to both halves at one tick, or is refused and counted (R72, R78–R80). -/
def State.doLoad (s : State) : State :=
  let v := s.reg bDevice R.device_DTS_LOAD
  if s.loadRefused v then
    s.setRfld bDevice R.device_DTS_CTL 32 16 (satTo (s.rfld bDevice R.device_DTS_CTL 32 16 + 1) 0xFFFF)
  else
    { s with
      time := s.time.both fun _ t => { t with dts := v }
      dev := { s.dev with loadTick := some (s.ticks, v) }
      ford := s.ford.both fun _ f => { f with timeIn := [] } }

/-- LOAD_NOW acts in START only (R79). -/
def doLoadNow (s : State) : State := if s.dev.devState = .start then s.doLoad else s

/-- LOAD_ARM acts in START only (R79). -/
def doLoadArm (s : State) : State :=
  if s.dev.devState = .start then { s with dev := { s.dev with loadPend := true } } else s

/-- The capture tick of an active TSYNC_IN edge: an armed load is performed, and DTS is captured (R84). -/
def State.captureEdge (s : State) : State :=
  let s1 := if s.dev.loadPend then ({ s with dev := { s.dev with loadPend := false } }).doLoad else s
  let s2 := s1.setReg bDevice R.device_TSYNC_CAP s1.leadDts
  let st := s2.reg bDevice R.device_TSYNC_STAT
  s2.setReg bDevice R.device_TSYNC_STAT (setFld (setFld st 32 32 (fld st 32 32 + 1)) 0 1 1)

/-- The ticks from an edge at the pin to its capture: 3, or by quantisation 2 or 4 (R84), a free value. -/
def State.capDelay (s : State) : Nat := 2 + (s.free 8).toNat % 3

/-- An edge of TSYNC_IN: an active one is captured some ticks later (R84). -/
def doTsyncIn (rising : Bool) (s : State) : State :=
  let c := s.reg bDevice R.device_TSYNC_CFG
  if bit c 0 ∧ rising = !(bit c 1) then
    { s.used with dev := { s.dev with tsyncIn := rising, capDue := s.dev.capDue ++ [s.ticks + s.capDelay] } }
  else { s with dev := { s.dev with tsyncIn := rising } }

/-- The captures that fall due at this tick (R84). -/
def State.captures (s : State) : State :=
  let due := s.dev.capDue.filter fun t => decide (t ≤ s.ticks)
  due.foldl (fun s _ => s.captureEdge) { s with dev := { s.dev with capDue := s.dev.capDue.filter fun t => decide (s.ticks < t) } }

/-- One tick of the clocks with the TSYNC_IN captures of that tick (R84). -/
def State.timeTick (s : State) : State := s.clockTick.captures

/-- A write of TSYNC_CFG: OUT_EN = 0 holds TSYNC_OUT low (R86). -/
def State.settleTsync (s : State) : State :=
  if bit (s.reg bDevice R.device_TSYNC_CFG) 2 then s else { s with dev := { s.dev with tsyncOut := false, tsyncDue := none } }

/-- TSYNC_OUT rises when its edge is due (R83). -/
def doTsyncRise (s : State) : State :=
  let c := s.reg bDevice R.device_TSYNC_CFG
  match s.dev.tsyncDue with
  | some t =>
    if t ≤ s.ticks then
      if bit c 2 then
        let w := if fld c 16 16 = 0 then 1 else fld c 16 16
        { s with dev := { s.dev with tsyncDue := none, tsyncOut := true, tsyncEnd := s.ticks + w * usTicks } }
      else { s with dev := { s.dev with tsyncDue := none } }
    else s
  | none => s

/-- The pulse of TSYNC_OUT ends (R83). -/
def doTsyncFall (s : State) : State :=
  if s.dev.tsyncOut ∧ s.dev.tsyncEnd ≤ s.ticks then { s with dev := { s.dev with tsyncOut := false } } else s

/-- A write of DTS_SLEW: DIR always, and a count other than zero starts a fresh grid (R81). -/
def doSlewWrite (dir : Bool) (count : Nat) (s : State) : State :=
  let s1 := s.setRfld bDevice R.device_DTS_SLEW 48 1 (b2n dir)
  let s2 := s1.setRfld bDevice R.device_DTS_SLEW 0 32 count
  { s2 with dev := { s2.dev with slewGrid := 0 } }

/-- PTP_ADJ as one number of 2⁻³² ns (R89). -/
def State.ptpAdj (s : State) : Nat :=
  let ns := s.rfld bDevice R.device_PTP_ADJ_NS 0 30
  ptpTotal (s.rfld bDevice R.device_PTP_ADJ_SEC 0 48) (if 1000000000 ≤ ns then 999999999 else ns) 0

/-- PTP_CTL.SET (R89). -/
def doPtpSet (s : State) : State :=
  { s with time := s.time.both fun _ t => ({ t with ptpSec := 0, ptpNs := 0, ptpFrac := 0 }).ptpPlus s.ptpAdj }

/-- PTP_CTL.ADD (R89). -/
def doPtpAdd (s : State) : State := { s with time := s.time.both fun _ t => t.ptpPlus s.ptpAdj }

/-- PTP_CTL.SUB (R89); the 48-bit seconds wrap. -/
def doPtpSub (s : State) : State :=
  { s with time := s.time.both fun _ t => t.ptpPlus (ptpTotal (2 ^ 48) 0 0 - s.ptpAdj % ptpTotal (2 ^ 48) 0 0) }

/-- PTP_NS as it reads (R89). -/
def State.ptpNsReg (s : State) : DWord :=
  let t := s.time.get s.leader
  BitVec.ofNat 64 (t.ptpFrac <<< 32 ||| t.ptpNs)

/-- A read of PTP_NS latches PTP_SEC and PTP_DTS (R89). -/
def doPtpNsRead (s : State) : State :=
  let t := s.time.get s.leader
  (s.setReg bDevice R.device_PTP_SEC (BitVec.ofNat 64 t.ptpSec)).setReg bDevice R.device_PTP_DTS t.dts

/-- A 32-bit read of DTS_NOW [31:0] latches the upper half for the agent (R73). -/
def doDtsNowRead (a : Agent) (h : Half) (s : State) : State :=
  s.updTime h fun t =>
    { t with dtsLatch := (t.dtsLatch.filter fun e => e.1 ≠ a) ++ [(a, BitVec.ofNat 32 (t.dts.toNat >>> 32))] }

/-- The age of a stamp in units of 2²⁴ ticks (R97), for an entry refreshed at elapsed tick `at0`; an entry refreshed before the
last load ages from the load tick (R80), and one refreshed in that tick after the load carries the loaded value. -/
def State.ageOf (s : State) (h : Half) (stamp at0 : Nat) : Nat :=
  let now := bits (s.dts h).toNat 24 16
  let from0 := match s.dev.loadTick with
    | some (t, v) => if at0 ≤ t then bits v.toNat 24 16 else stamp
    | none => stamp
  (now + 65536 - from0) % 65536

/-- The time a head with a stamp has waited, from the last load on for one stamped before it (R80, R266). -/
def State.headWait (s : State) (h : Half) (stamp : Nat) : Nat :=
  (s.dts h).toNat - match s.dev.loadTick with
    | some (_, v) => max stamp v.toNat
    | none => stamp

/-- The age stamp of a refresh now (R96). -/
def State.ageNow (s : State) (h : Half) : Nat := bits (s.dts h).toNat 24 16

end Sys2Proof.Machine
end

