-- ==== Sys2Proof/Machine/Hbm.lean ====
section
/-! DEFINITION. The HBM controllers (R494–R519, R676, R677): placement of an address, regions, the write queues, reads and writes
of a request part, ECC, row repair and retirement. Every unit's access to HBM goes through `State.hbmRead` and `State.hbmWrite`. -/

namespace Sys2Proof.Machine

/-- Size of a half's HBM space (R496). -/
abbrev hbmTop : Nat := 0xC00000000

/-- The row of an address (R496). -/
def hbmRow (a : Nat) : Nat := a >>> 21

/-- The pseudo-channel of an address (R496). -/
def hbmPc (a : Nat) : Nat := (bits a 8 6) ^^^ (bits a 21 6)

/-- The stack of an address within its half (R496). -/
def hbmStack (a : Nat) : Fin 2 := Fin.ofNat 2 (hbmPc a / 32)

/-- The bank of an address (R496). -/
def hbmBank (a : Nat) : Nat := (bits a 16 5) ^^^ (bits a 27 5)

/-- The row of an address with its bank and pseudo-channel. -/
def hbmRowKey (a : Nat) : RowKey := ⟨hbmPc a, hbmBank a, hbmRow a⟩

/-- The address of column block `col` of a row: the placement of R496 inverted. -/
def hbmAddrOf (k : RowKey) (col : Nat) : Nat :=
  k.row <<< 21 ||| ((k.bank ^^^ bits k.row 6 5) % 32) <<< 16 ||| (col % 4) <<< 14 ||| ((k.p ^^^ bits k.row 0 6) % 64) <<< 8

/-- The requester classes of R498, by their bit. -/
inductive HbmClass where
  | pkt | table | buffer | sched | ctl | privet | pcie
  deriving DecidableEq, Repr

/-- The bit of a class (R498). -/
def HbmClass.bit : HbmClass → Nat
  | .pkt => 0
  | .table => 1
  | .buffer => 2
  | .sched => 3
  | .ctl => 4
  | .privet => 5
  | .pcie => 6

/-- A requester: its class, its source number and whether its requests are STREAM (R498, R501). -/
structure HbmReq where
  cls : HbmClass
  src : Nat
  stream : Bool
  deriving DecidableEq, Repr

/-- The sources that are units; the source of a packet task is its tile × 4096 + slot. -/
abbrev srcFlow : Nat := 0x100000
abbrev srcCounter : Nat := 0x100001
abbrev srcLpm : Nat := 0x100002
abbrev srcVersion : Nat := 0x100003
abbrev srcLearn : Nat := 0x100004
abbrev srcShadow : Nat := 0x100005
abbrev srcSpill : Nat := 0x100006
abbrev srcTelem : Nat := 0x100007
abbrev srcCc : Nat := 0x100008
abbrev srcPrivet : Nat := 0x100009
abbrev srcPcie : Nat := 0x10000A

/-- Change a half's HBM state. -/
def State.updHbm (s : State) (h : Half) (f : HbmState → HbmState) : State := { s with hbm := s.hbm.upd h f }

/-- A controller performs requests while its unit is in TEST or ACTIVE (R517). -/
def State.hbmUp (s : State) (h : Half) (st : Fin 2) : Bool :=
  (decide (s.ustate (.hbmc h st) = .active) || decide (s.ustate (.hbmc h st) = .test)) && (s.unit (.hbmc h st)).entering.isNone

/-- Region `n` of a controller grants the class the access to address `a` (R498). -/
def State.regionGrants (s : State) (h : Half) (st : Fin 2) (c : HbmClass) (write : Bool) (a n : Nat) : Bool :=
  let lo := s.reg (bHbmc h st) (R.hbmc_REGION_LO + 16 * n)
  let hi := s.reg (bHbmc h st) (R.hbmc_REGION_HI + 16 * n)
  bit hi 0 && decide (fld lo 20 28 ≤ a >>> 20) && decide (a >>> 20 ≤ fld hi 20 28) &&
    (if write then (fld hi 48 8).testBit c.bit else (fld hi 56 8).testBit c.bit)

/-- The part is allowed by the regions of its controller (R499). -/
def State.regionAllows (s : State) (h : Half) (st : Fin 2) (c : HbmClass) (write : Bool) (a : Nat) : Bool :=
  decide (c = .privet) || (List.range 16).any fun n => s.regionGrants h st c write a n

/-- What stops a part before it reaches its row: an address beyond the space, a controller that is down, or the regions
(R499, R517, R676), with the state that the stop leaves; none where the part goes on. -/
def State.hbmStop (s : State) (h : Half) (c : HbmClass) (write : Bool) (a : Nat) : Option State :=
  if hbmTop ≤ a then
    some ((s.bump (bHbmc h 0) R.hbmc_REGION_DENIED).report (.hbmc h 0) F.HBM_REGION (a % 2 ^ 48))
  else if ¬ s.hbmUp h (hbmStack a) then some s
  else if ¬ s.regionAllows h (hbmStack a) c write a then
    some ((s.bump (bHbmc h (hbmStack a)) R.hbmc_REGION_DENIED).report (.hbmc h (hbmStack a)) F.HBM_REGION (a % 2 ^ 48))
  else none

/-! ### Write queues and the array -/

/-- The queued entry of a granule. -/
def wqFind (q : List WqEntry) (g : Nat) : Option WqEntry := q.find? fun e => e.gran = g

/-- An entry covers its whole granule. -/
def WqEntry.whole (e : WqEntry) : Bool := decide (e.bytes.length = 32)

/-- The array after an entry has been written to it: its bytes, and the poison mark cleared by a write of the whole granule
(R502, R512); a retired row takes nothing (R515). -/
def HbmState.toArray (x : HbmState) (e : WqEntry) : HbmState :=
  if x.retired.contains (hbmRowKey (e.gran * 32)) then x
  else
    { x with
      mem := e.bytes.foldl (fun m b => tset 0 m (e.gran * 32 + b.1) b.2) x.mem
      poison := if e.whole then x.poison.filter (· ≠ e.gran) else x.poison }

/-- Set the write queue of a pseudo-channel; from 48 entries on, until 32 are left, its writes go before every read (R677). Its idle
count starts again (R509). -/
def HbmState.setWq (x : HbmState) (p : Nat) (q : List WqEntry) : HbmState :=
  { x with
    wq := tset [] x.wq p q
    idleFrom := tset 0 x.idleFrom p x.cycle
    draining := if 48 ≤ q.length then (if x.draining.contains p then x.draining else x.draining ++ [p])
      else if q.length ≤ 32 then x.draining.filter (· ≠ p) else x.draining }

/-- The entry of granule `g` goes to the array (R503). -/
def HbmState.drainGran (x : HbmState) (p g : Nat) : HbmState :=
  match wqFind (tget [] x.wq p) g with
  | none => x
  | some e => (x.toArray e).setWq p ((tget [] x.wq p).filter fun f => f.gran ≠ g)

/-- The oldest entry of a pseudo-channel's write queue goes to the array (R677). -/
def HbmState.drainOne (x : HbmState) (p : Nat) : HbmState :=
  match tget [] x.wq p with
  | [] => x
  | e :: r => (x.toArray e).setWq p r

/-! ### The order of requests (R505, R677) -/

/-- A part has waited longer than 4 µs, or is MAIN: it takes MAIN precedence (R505). -/
def HbmPart.promoted (q : HbmPart) (now : Nat) : Bool := !q.stream || decide (q.since + 6000 < now)

/-- A queued write takes MAIN precedence: one of its writes is MAIN, or it has waited longer than 4 µs (R505, R677). -/
def WqEntry.promoted (e : WqEntry) (now : Nat) : Bool := !e.stream || decide (e.since + 6000 < now)

/-- Two parts touch a common byte. -/
def HbmPart.overlaps (q r : HbmPart) : Bool := decide (q.addr < r.addr + r.len) && decide (r.addr < q.addr + q.len)

/-- Part `q` waits for an earlier one `r`: STREAM parts of one source go in issue order (R504), and a part of a task follows the
task's earlier parts on the same bytes when one of the two writes (R332). -/
def HbmPart.follows (q r : HbmPart) : Bool :=
  decide (q.src = r.src) && ((q.stream && r.stream) || ((q.write || r.write) && q.overlaps r))

/-- The granules that the bytes `[a, a + n)` touch. -/
def gransOf (a n : Nat) : List Nat := if n = 0 then [] else (List.range ((a + n - 1) / 32 - a / 32 + 1)).map (a / 32 + ·)

/-- The queue of its pseudo-channel has room for a write of `n` bytes at `a` within one 256-byte block: it holds 64 entries, and a
write to a queued granule merges (R502). -/
def HbmState.roomFor (x : HbmState) (a n : Nat) : Bool :=
  let q := tget [] x.wq (hbmPc a)
  decide (q.length + ((gransOf a n).filter fun g => (wqFind q g).isNone).length ≤ 64)

/-- A part of any requester waits: its row is under repair (R514), it writes and the queue is full (R502), or it reads while the
queue's writes take precedence over every read (R677). -/
def HbmState.holds (x : HbmState) (write : Bool) (a n : Nat) : Bool :=
  x.repairing.contains (hbmRowKey a) || (if write then !x.roomFor a n else x.draining.contains (hbmPc a))

/-- The part at an index may be performed, before its precedence is asked: nothing it follows waits before it, and nothing holds it. -/
def HbmState.eligible (x : HbmState) (p i : Nat) : Bool :=
  let l := tget [] x.parts p
  match l[i]? with
  | none => false
  | some q => !((l.take i).any fun r => q.follows r) && !x.holds q.write q.addr q.len

/-- A request at `a` may pass an older one: it hits the open row, and the older one goes to another row of the same bank and has waited
at most 32 ticks (R505). -/
def HbmState.mayPass (x : HbmState) (now a : Nat) (older : HbmPart) : Bool :=
  let b := hbmBank a
  decide (tget none x.openRow (64 * b + hbmPc a) = some (hbmRow a)) && decide (hbmBank older.addr = b) &&
    decide (hbmRow older.addr ≠ hbmRow a) && decide (now ≤ older.since + 32)

/-- The reads among the first `n` parts of a pseudo-channel that wait with MAIN precedence and that nothing holds. A write waits for room
in the queue alone (R502). -/
def HbmState.mainReads (x : HbmState) (p now n : Nat) : List HbmPart :=
  (List.range n).filterMap fun j =>
    match (tget [] x.parts p)[j]? with
    | some r => if x.eligible p j ∧ r.promoted now ∧ ¬ r.write then some r else none
    | none => none

/-- All of these. -/
def HbmState.allReads (x : HbmState) (p now : Nat) : List HbmPart := x.mainReads p now (tget [] x.parts p).length

/-- The pseudo-channel may perform the part at index `i` now (R505). -/
def HbmState.mayPerform (x : HbmState) (p now i : Nat) : Bool :=
  match (tget [] x.parts p)[i]? with
  | none => false
  | some q =>
    x.eligible p i &&
      (q.write || (if q.promoted now then (x.mainReads p now i).all fun r => x.mayPass now q.addr r else (x.allReads p now).isEmpty))

/-- A unit's read at `a` that arrives now has its turn: no read of MAIN precedence waits that it may not pass, and a STREAM read waits
for every one of them (R505). -/
def HbmState.turn (x : HbmState) (now a : Nat) (stream : Bool) : Bool :=
  (x.allReads (hbmPc a) now).all fun r => !stream && x.mayPass now a r

/-- A queued entry may go to the array now: its writes take precedence over every read, or no read of MAIN precedence stands before it
(R505, R677). -/
def HbmState.entryTurn (x : HbmState) (p now : Nat) (e : WqEntry) : Bool :=
  !x.repairing.contains (hbmRowKey (e.gran * 32)) &&
    (x.draining.contains p ||
      (x.allReads p now).all fun r => e.promoted now && (decide (e.since ≤ r.since) || x.mayPass now (e.gran * 32) r))

/-- The entry that a pseudo-channel writes to the array next: the oldest of MAIN precedence that has its turn, else the oldest of the
others (R677). -/
def HbmState.nextEntry (x : HbmState) (p now : Nat) : Option WqEntry :=
  let q := (tget [] x.wq p).filter fun e => x.entryTurn p now e
  match q.find? fun e => e.promoted now with
  | some e => some e
  | none => q.head?

/-- The entry whose turn it is goes to the array (R677). -/
def HbmState.drainNext (x : HbmState) (p now : Nat) : HbmState :=
  match x.nextEntry p now with
  | some e => x.drainGran p e.gran
  | none => x

/-- Every entry of a queue accepted 2 µs ago or earlier goes to the array, but for one whose row is under repair (R504). -/
def HbmState.drainOld (x : HbmState) (p now : Nat) : HbmState :=
  ((tget [] x.wq p).filter fun e => decide (e.since + 3000 ≤ now) && !x.repairing.contains (hbmRowKey (e.gran * 32))).foldl
    (fun x e => x.drainGran p e.gran) x

/-- Bytes of a write within granule `g`. -/
def granBytes (a : Nat) (bs : List Byte) (g : Nat) : Tbl Byte :=
  (List.range 32).filterMap fun i =>
    let b := g * 32 + i
    if a ≤ b ∧ b < a + bs.length then some (i, nth 0 bs (b - a)) else none

/-- A write to one granule enters the queue of its pseudo-channel, merging with a queued write of the granule (R502). The caller has asked
for room; a queue that is full all the same, as at Privet's transfer of a whole section in one step, first writes its oldest entry to
the array. -/
def HbmState.enqueue (x : HbmState) (r : HbmReq) (now g : Nat) (bs : Tbl Byte) : HbmState :=
  let p := hbmPc (g * 32)
  let q := tget [] x.wq p
  match wqFind q g with
  | some _ =>
    let merge (e : WqEntry) : WqEntry :=
      if e.gran = g then
        { e with
          bytes := bs.foldl (fun t b => tput t b.1 b.2) e.bytes
          srcs := if e.srcs.contains r.src then e.srcs else e.srcs ++ [r.src]
          stream := e.stream && r.stream }
      else e
    x.setWq p (q.map merge)
  | none =>
    let y := if 64 ≤ q.length then x.drainOne p else x
    y.setWq p (tget [] y.wq p ++ [{ gran := g, bytes := bs, srcs := [r.src], stream := r.stream, since := now }])

/-- A pseudo-channel leaves power-down, and its idle count starts again (R509). -/
def HbmState.wake (x : HbmState) (p : Nat) : HbmState :=
  { x with down := x.down.filter (· ≠ p), idleFrom := tset 0 x.idleFrom p x.cycle }

/-- A request reaches its pseudo-channel, which leaves power-down, and its row is open (R509). -/
def HbmState.touch (x : HbmState) (now a : Nat) : HbmState :=
  let y := x.wake (hbmPc a)
  { y with
    openRow := tset none x.openRow (64 * hbmBank a + hbmPc a) (some (hbmRow a))
    lastReq := tset 0 x.lastReq (hbmStack a).val now }

/-- The controller is at neither GATED nor SLEEP: a request at either level waits for the wake (R510). -/
def State.hbmAwake (s : State) (h : Half) (st : Fin 2) : Bool := decide ((s.unit (.hbmc h st)).power ≠ 1) && decide ((s.unit (.hbmc h st)).power ≠ 2)

/-- A part of a unit's request waits now (R502, R505, R510, R514, R677). Privet's writes move whole sections, in which the queue drains
as it fills: they wait for no room. -/
def State.hbmWaits (s : State) (h : Half) (r : HbmReq) (write : Bool) (a n : Nat) : Bool :=
  let x := s.hbm.get h
  (s.hbmStop h r.cls write a).isNone && !x.retired.contains (hbmRowKey a) &&
    (!s.hbmAwake h (hbmStack a) || x.repairing.contains (hbmRowKey a) ||
      (if write then decide (r.cls ≠ .privet) && !x.roomFor a n else x.holds false a n || !x.turn s.ticks a r.stream))

/-- One part of a write (it lies in one 256-byte block). The answer tells whether it was accepted (R499, R502, R515, R517); of a part that
waits, `waits` tells. -/
def State.hbmWritePart (s : State) (h : Half) (r : HbmReq) (a : Nat) (bs : List Byte) : State × Bool :=
  match s.hbmStop h r.cls true a with
  | some s' => (s', false)
  | none =>
    if (s.hbm.get h).retired.contains (hbmRowKey a) then (s, false)
    else
      (s.updHbm h fun x => (gransOf a bs.length).foldl (fun x g => x.enqueue r s.ticks g (granBytes a bs g)) (x.touch s.ticks a), true)

/-- A granule of the array: its bytes, or zeros and ERROR of a poisoned one (R512). -/
def HbmState.arrayGran (x : HbmState) (g : Nat) : List Byte × Bool :=
  if x.poison.contains g then (List.replicate 32 0, true) else (tbytes x.mem (g * 32) 32, false)

/-- A granule as a read finds it. A MAIN read takes a wholly queued granule from the queue (R503); a STREAM read sees the queued bytes of
its own source alone (R504). -/
def HbmState.readGran (x : HbmState) (r : HbmReq) (g : Nat) : List Byte × Bool :=
  let a := x.arrayGran g
  match wqFind (tget [] x.wq (hbmPc (g * 32))) g with
  | none => a
  | some e => if r.stream ∧ ¬ e.srcs.contains r.src then a else (e.bytes.foldl (fun l c => l.set c.1 c.2) a.1, a.2 && !e.whole)

/-- The queued entries of the granules that a read touches. -/
def HbmState.matches (x : HbmState) (a n : Nat) : List WqEntry :=
  (gransOf a n).filterMap fun g => wqFind (tget [] x.wq (hbmPc a)) g

/-- How the compare of a read with the write queue comes out (R503, R504). -/
inductive RawCase where
  | array
  | forwarded
  | wait
  deriving DecidableEq, Repr

/-- The compare of a part of a read with the write queue: a STREAM read is not compared (R503, R504). -/
def HbmState.compare (x : HbmState) (r : HbmReq) (a n : Nat) : RawCase :=
  let m := x.matches a n
  if r.stream ∨ m.isEmpty then .array else if m.all (·.whole) then .forwarded else .wait

/-- A read that finds a partly covered granule waits until the matching entries have been written to the array (R503). -/
def HbmState.settleRaw (x : HbmState) (r : HbmReq) (a n : Nat) : HbmState :=
  if x.compare r a n = .wait then (x.matches a n).foldl (fun x e => x.drainGran (hbmPc a) e.gran) x else x

/-- What a read returns: the bytes, which granules err, and whether the whole part errs. -/
structure HbmData where
  bytes : List Byte
  errs : List Nat
  err : Bool
  deriving DecidableEq, Repr

/-- The counter of a compare (R503). -/
def State.countRaw (s : State) (h : Half) (st : Fin 2) : RawCase → State
  | .array => s
  | .forwarded => s.bump (bHbmc h st) R.hbmc_FORWARDED
  | .wait => s.bump (bHbmc h st) R.hbmc_RAW_WAITS

/-- One part of a read (it lies in one 256-byte block): its bytes, and the granules that err (R499, R503, R512, R515, R517, R676). -/
def State.hbmReadPart (s : State) (h : Half) (r : HbmReq) (a n : Nat) : State × HbmData :=
  let zeros := List.replicate n 0
  match s.hbmStop h r.cls false a with
  | some s' => (s', ⟨zeros, [], true⟩)
  | none =>
    let x := (s.hbm.get h).touch s.ticks a
    if x.retired.contains (hbmRowKey a) then (s, ⟨zeros, [], true⟩)
    else
      let y := x.settleRaw r a n
      let gs := gransOf a n
      let s1 := (s.updHbm h fun _ => y).countRaw h (hbmStack a) (x.compare r a n)
      (s1, ⟨slice (gs.flatMap fun g => (y.readGran r g).1) (a % 32) n, gs.filter fun g => (y.readGran r g).2, false⟩)

/-- The parts of a request: it is split at each 256-byte boundary (R497). `fuel` bounds the number of parts. -/
def hbmSplit (a n : Nat) : Nat → List (Nat × Nat)
  | 0 => []
  | fuel + 1 =>
    if n = 0 then []
    else
      let k := if n ≤ 256 - a % 256 then n else 256 - a % 256
      (a, k) :: hbmSplit (a + k) (n - k) fuel

/-- The parts of a request of `n` bytes at `a`. -/
def hbmParts (a n : Nat) : List (Nat × Nat) := hbmSplit a n (n / 256 + 2)

/-- A command of which a request has to wait, as `waits` then tells, changes nothing: it is performed when it is given again and nothing
holds it. What it writes goes to the checkers that are armed (R566). -/
def State.orWait (s : State) (f : State → State) : State := if (f s).waits = s.waits then s.checked (f s) else s

/-- The repeat of the next request's command fails at a stack, as its HBM_LINK has been reported: the part completes with ERROR (R516). -/
def State.hbmLinkBad (s : State) (h : Half) (a : Nat) : Bool := (s.hbm.get h).linkBad.contains (hbmStack a).val

/-- The failed repeat is used up. -/
def State.useLinkBad (s : State) (h : Half) (a : Nat) : State :=
  s.updHbm h fun x => { x with linkBad := x.linkBad.filter (· ≠ (hbmStack a).val) }

/-- A part of a unit's read. -/
def State.hbmUnitRead (s : State) (h : Half) (r : HbmReq) (a n : Nat) : State × HbmData :=
  if s.hbmWaits h r false a n then ({ s with waits := true }, ⟨List.replicate n 0, [], true⟩)
  else if s.hbmLinkBad h a then (s.useLinkBad h a, ⟨List.replicate n 0, [], true⟩)
  else s.hbmReadPart h r a n

/-- A part of a unit's write. -/
def State.hbmUnitWrite (s : State) (h : Half) (r : HbmReq) (a : Nat) (bs : List Byte) : State × Bool :=
  if s.hbmWaits h r true a bs.length then ({ s with waits := true }, false)
  else if s.hbmLinkBad h a then (s.useLinkBad h a, false)
  else s.hbmWritePart h r a bs

/-- A read by a unit, all its parts at once: the bytes, and whether a part or granule erred (R188, R497). -/
def State.hbmRead (s : State) (h : Half) (r : HbmReq) (a n : Nat) : State × List Byte × Bool :=
  (hbmParts a n).foldl (fun acc p =>
    let (s1, d) := acc.1.hbmUnitRead h r p.1 p.2
    (s1, acc.2.1 ++ d.bytes, acc.2.2 || d.err || !d.errs.isEmpty)) (s, [], false)

/-- A write by a unit, all its parts at once; whether every part was accepted. -/
def State.hbmWrite (s : State) (h : Half) (r : HbmReq) (a : Nat) (bs : List Byte) : State × Bool :=
  (hbmParts a bs.length).foldl (fun acc p =>
    let (s1, ok) := acc.1.hbmUnitWrite h r p.1 (slice bs (p.1 - a) p.2)
    (s1, acc.2 && ok)) (s, true)

/-- Bytes that Privet places in HBM at a start, a restart or a reload, part by part as the controller takes them; whether every part was
accepted. -/
def State.hbmPlace (s : State) (h : Half) (a : Nat) (bs : List Byte) : State × Bool :=
  (hbmParts a bs.length).foldl (fun acc p =>
    let (s1, ok) := acc.1.hbmWritePart h ⟨.privet, srcPrivet, false⟩ p.1 (slice bs (p.1 - a) p.2)
    (s1, acc.2 && ok)) (s, true)

/-- A write by a unit would have to wait. -/
def State.hbmWriteWaits (s : State) (h : Half) (r : HbmReq) (a n : Nat) : Bool := (hbmParts a n).any fun p => s.hbmWaits h r true p.1 p.2

/-! ### Failing rows (R512, R514, R515) -/

/-- A day in ticks. -/
abbrev dayTicks : Nat := 86400 * 1500000000

/-- Retired rows of a stack. -/
def HbmState.retiredOf (x : HbmState) (st : Fin 2) : Nat := (x.retired.filter fun k => k.p / 32 = st.val).length

/-- Spare rows of a bank that are used or that a repair under way takes (R514, R515). -/
def HbmState.sparesTaken (x : HbmState) (p bank : Nat) : Nat :=
  tget 0 x.sparesUsed (64 * bank + p) + (x.repairing.filter fun k => decide (k.p = p) && decide (k.bank = bank)).length

/-- A row fails: soft repair by a spare row begins, or the row is retired, or its granules stay poisoned alone (R514, R515). -/
def State.rowFails (s : State) (h : Half) (k : RowKey) : State :=
  let x := s.hbm.get h
  let st : Fin 2 := Fin.ofNat 2 (k.p / 32)
  let u := UnitId.hbmc h st
  let a := hbmAddrOf k 0
  if x.repairing.contains k ∨ x.retired.contains k then s
  else if x.sparesTaken k.p k.bank < 2 then s.updHbm h fun x => { x with repairing := x.repairing ++ [k] }
  else if x.retiredOf st < 256 then
    let s1 := s.updHbm h fun x => { x with retired := x.retired ++ [k] }
    let s2 := s1.setRfld (bHbmc h st) R.hbmc_REPAIR_STAT 0 9 (x.retiredOf st + 1)
    s2.report u F.HBM_ROW_LOST a
  else s.report u F.HBM_RETIRE_FULL a

/-- The outcome of a granule's code at a read: what it counts, records and marks (R512). -/
def State.granEcc (s : State) (h : Half) (g : Nat) (e : EccOutcome) : State :=
  let a := g * 32
  let st := hbmStack a
  let b := bHbmc h st
  let u := UnitId.hbmc h st
  match e with
  | .clean => s
  | .corrected =>
    ((s.bump b R.hbmc_CORRECTED).report u F.HBM_ECC).updHbm h fun x =>
      { x with correctedAt := (x.correctedAt.filter fun c => decide (c.1 ≠ g) && decide (s.ticks < c.2 + dayTicks)) ++ [(g, s.ticks)] }
  | .uncorrectable =>
    ((s.bump b R.hbmc_UNCORRECTED).report u F.HBM_DATA a).updHbm h fun x =>
      { x with poison := if x.poison.contains g then x.poison else x.poison ++ [g] }

/-- The row of a granule fails by the outcome of its code: uncorrectable, or corrected at three distinct granules of the row within 24
hours (R514). -/
def State.granFails (s : State) (h : Half) (g : Nat) (e : EccOutcome) : State :=
  let k := hbmRowKey (g * 32)
  match e with
  | .clean => s
  | .corrected => if 3 ≤ ((s.hbm.get h).correctedAt.filter fun c => hbmRowKey (c.1 * 32) = k).length then s.rowFails h k else s
  | .uncorrectable => s.rowFails h k

/-- The outcomes found at the granules of a read, in order. -/
def State.granEccs (s : State) (h : Half) : List Nat → List EccOutcome → State
  | g :: gs, e :: es => (s.granEcc h g e).granEccs h gs es
  | _, _ => s

/-- The rows that fail by them, once the read has its data. -/
def State.granFailures (s : State) (h : Half) : List Nat → List EccOutcome → State
  | g :: gs, e :: es => (s.granFails h g e).granFailures h gs es
  | _, _ => s

/-! ### The controller's own steps -/

/-- A pseudo-channel writes the queued entry whose turn it is to the array (R677); a controller at GATED or SLEEP wakes first (R510). -/
def doHbmWriteToArray (h : Half) (p : Nat) (s : State) : State :=
  if s.hbmAwake h (Fin.ofNat 2 (p / 32)) then s.updHbm h fun x => x.drainNext p s.ticks else s

/-- A bank has no request queued: no part and no queued write. -/
def HbmState.bankIdle (x : HbmState) (p bank : Nat) : Bool :=
  ((tget [] x.parts p).all fun r => decide (hbmBank r.addr ≠ bank)) && ((tget [] x.wq p).all fun e => decide (hbmBank (e.gran * 32) ≠ bank))

/-- A bank's refresh falls due: it is issued to an idle bank, postponed for a busy one, and forced when 8 are owed (R508). -/
def doHbmRefresh (h : Half) (p bank : Nat) (s : State) : State :=
  let x := s.hbm.get h
  let k := 64 * bank + p
  let owed := tget 0 x.owed k + 1
  let issue (n : Nat) : State := s.updHbm h fun x =>
    let y := x.wake p
    { y with owed := tset 0 x.owed k n, openRow := tset none x.openRow k none }
  if 32 ≤ bank then s
  else if x.bankIdle p bank then issue 0
  else if 8 ≤ owed then (issue (owed - 1)).bump (bHbmc h (Fin.ofNat 2 (p / 32))) R.hbmc_REF_FORCED
  else s.updHbm h fun x =>
    let y := x.wake p
    { y with owed := tset 0 x.owed k owed }

/-- No bank of a pseudo-channel owes a refresh. -/
def HbmState.noOwed (x : HbmState) (p : Nat) : Bool := x.owed.all fun e => decide (e.1 % 64 ≠ p)

/-- The idle cycles after which a pseudo-channel enters power-down: PD_IDLE, 0 as 1 (R509, R518). -/
def State.pdIdle (s : State) (b : Blk) : Nat := if s.rfld b R.hbmc_HBMC_CFG 48 16 = 0 then 1 else s.rfld b R.hbmc_HBMC_CFG 48 16

/-- A pseudo-channel that has been idle enters power-down (R509). -/
def doHbmPowerDown (h : Half) (p : Nat) (s : State) : State :=
  let x := s.hbm.get h
  let b := bHbmc h (Fin.ofNat 2 (p / 32))
  if s.hbmUp h (Fin.ofNat 2 (p / 32)) ∧ bit (s.reg b R.hbmc_HBMC_CFG) 2 ∧ (tget [] x.parts p).isEmpty ∧ (tget [] x.wq p).isEmpty ∧
      x.noOwed p ∧ s.pdIdle b ≤ x.cycle - tget 0 x.idleFrom p ∧ ¬ x.down.contains p then
    (s.updHbm h fun x => { x with down := x.down ++ [p], downAt := tset 0 x.downAt p s.ticks }).bump b R.hbmc_PD_ENTRIES
  else s

/-- Cycles of CK_CORE elapse (R509). -/
def State.hbmCycle (s : State) (h : Half) : State := s.updHbm h fun x => { x with cycle := x.cycle + 1 }

/-- A tick of the write queues: what was accepted 2 µs ago reaches the array (R504). -/
def State.hbmTick (s : State) (h : Half) : State :=
  s.updHbm h fun x => x.wq.foldl (fun y e => y.drainOld e.1 s.ticks) x

/-- Every pseudo-channel of a stack has been in power-down for 64 µs (R638). -/
def State.hbmAllDown (s : State) (h : Half) (st : Fin 2) : Bool :=
  (List.range 32).all fun i =>
    (s.hbm.get h).down.contains (32 * st.val + i) && decide (tget 0 (s.hbm.get h).downAt (32 * st.val + i) + 96000 ≤ s.ticks)

/-- No request and no queued write waits at a stack (R510). -/
def State.hbmQuiet (s : State) (h : Half) (st : Fin 2) : Bool :=
  (List.range 32).all fun i =>
    (tget [] (s.hbm.get h).parts (32 * st.val + i)).isEmpty && (tget [] (s.hbm.get h).wq (32 * st.val + i)).isEmpty

/-- No request, scrub reads included, has come to a stack for 1 ms (R638). -/
def State.hbmUnasked (s : State) (h : Half) (st : Fin 2) : Bool := decide (tget 0 (s.hbm.get h).lastReq st.val + 1500000 ≤ s.ticks)

/-- Granules of a stack. -/
abbrev stackGrans : Nat := 805306368

/-- The address of the patrol's granule `i` of a stack: columns within a row, then pseudo-channels, banks and rows. -/
def scrubAddr (st : Fin 2) (i : Nat) : Nat :=
  hbmAddrOf ⟨32 * st.val + i / 32 % 32, i / 1024 % 32, i / 32768⟩ (i / 8 % 4) + 32 * (i % 8)

/-- The ticks of a patrol pass: SCRUB_HOURS, 0 as 1 and values above 168 as 168 (R513, R518). -/
def State.scrubPeriod (s : State) (b : Blk) : Nat :=
  let n := s.rfld b R.hbmc_HBMC_CFG 16 8
  (if n = 0 then 1 else if 168 < n then 168 else n) * 5400000000000

/-- The patrol's next read is due: the granules of a pass are spread evenly over it (R513). -/
def State.scrubDue (s : State) (h : Half) (st : Fin 2) : Bool :=
  let x := s.hbm.get h
  decide (tget 0 x.scrubFrom st.val + tget 0 x.scrubNext st.val * s.scrubPeriod (bHbmc h st) / stackGrans ≤ s.ticks)

/-- The patrol's read of address `a` waits (R505, R510, R514, R677). -/
def State.scrubWaits (s : State) (h : Half) (a : Nat) : Bool :=
  !s.hbmAwake h (hbmStack a) || (s.hbm.get h).holds false a 32 || !(s.hbm.get h).turn s.ticks a true

/-- The patrol goes on to its next granule; after the last a pass is complete (R513). -/
def State.scrubNext (s : State) (h : Half) (st : Fin 2) : State :=
  let b := bHbmc h st
  let i := tget 0 (s.hbm.get h).scrubNext st.val
  if i + 1 < stackGrans then s.updHbm h fun x => { x with scrubNext := tset 0 x.scrubNext st.val (i + 1) }
  else
    (s.updHbm h fun x =>
      { x with scrubNext := tset 0 x.scrubNext st.val 0
               scrubFrom := tset 0 x.scrubFrom st.val (tget 0 x.scrubFrom st.val + s.scrubPeriod b) }).bump b R.hbmc_SCRUB_PASSES

/-- The patrol scrubber reads its next granule, a STREAM request, and acts under R512 on what it finds (R501, R513). A poisoned granule is
marked already, and a retired row holds nothing. -/
def doHbmScrub (h : Half) (st : Fin 2) (e : EccOutcome) (s : State) : State :=
  let b := bHbmc h st
  if bit (s.reg b R.hbmc_HBMC_CFG) 3 ∧ s.hbmUp h st ∧ s.scrubDue h st then
    let a := scrubAddr st (tget 0 (s.hbm.get h).scrubNext st.val)
    if s.scrubWaits h a then s
    else
      let e1 := if (s.hbm.get h).poison.contains (a / 32) ∨ (s.hbm.get h).retired.contains (hbmRowKey a) then .clean else e
      ((((s.updHbm h fun x => x.touch s.ticks a).granEcc h (a / 32) e1).granFails h (a / 32) e1)).scrubNext h st
  else s

/-- A row's soft repair is complete: the row is mapped to a spare, and requests held at it go on (R514). -/
def doRowRepairDone (h : Half) (k : RowKey) (s : State) : State :=
  if (s.hbm.get h).repairing.contains k then
    let st : Fin 2 := Fin.ofNat 2 (k.p / 32)
    let b := bHbmc h st
    let s1 := s.updHbm h fun x =>
      { x with
        repairing := x.repairing.filter (· ≠ k)
        repaired := if x.repaired.contains k then x.repaired else x.repaired ++ [k]
        awaiting := if x.awaiting.contains k then x.awaiting else x.awaiting ++ [k]
        sparesUsed := tmod 0 x.sparesUsed (64 * k.bank + k.p) (· + 1)
        correctedAt := x.correctedAt.filter fun c => hbmRowKey (c.1 * 32) ≠ k }
    let s2 := s1.setRfld b R.hbmc_REPAIR_STAT 32 12 (s1.rfld b R.hbmc_REPAIR_STAT 32 12 - 1)
    s2.report (.hbmc h st) F.HBM_ROW_REPAIRED (hbmAddrOf k 0)
  else s

/-- A stack reports its temperature (R508, R518). -/
def doStackTemp (h : Half) (st : Fin 2) (temp : Nat) (s : State) : State :=
  let b := bHbmc h st
  let s1 := (s.setRfld b R.hbmc_HBMC_STAT 40 8 temp).setRfld b R.hbmc_HBMC_STAT 32 1 (b2n (decide (85 ≤ temp)))
  let hot := (s.hbm.get h).hot.contains st.val
  if 100 ≤ temp then
    if hot then s1
    else (s1.updHbm h fun x => { x with hot := x.hot ++ [st.val] }).report (.hbmc h st) F.HBM_HOT
  else s1.updHbm h fun x => { x with hot := x.hot.filter (· ≠ st.val) }

end Sys2Proof.Machine
end

