-- ==== Sys2Proof/Machine/Buffer.lean ====
section
/-! DEFINITION. The packet buffer (R434–R469): cells, chains and pools, reference counts, the ports' local indices and counters,
the hold state of a port, and what discards a copy. -/

namespace Sys2Proof.Machine

/-- Cells of a half (R434). -/
abbrev cellCount : Nat := 786432

/-- Change a half's packet buffer. -/
def State.updBuf (s : State) (h : Half) (f : BufferState → BufferState) : State := { s with buf := s.buf.upd h f }

/-- An empty chain. -/
def Chain.init : Chain :=
  { bytes := [], cells := [], ocells := [], odesc := [], refcnt := 0, stamp := 0, pool := 0, mcast := false, late := false,
    crossed := false, inPort := 0, broken := false, learnKey := [] }

/-- The chain with a given identity, if it is in use. -/
def State.chain? (s : State) (h : Half) (id : Nat) : Option Chain := tget? (s.buf.get h).chains id

/-- The chain with a given identity. -/
def State.chain (s : State) (h : Half) (id : Nat) : Chain := tget Chain.init (s.buf.get h).chains id

/-- Change a chain in use. -/
def State.updChain (s : State) (h : Half) (id : Nat) (f : Chain → Chain) : State :=
  s.updBuf h fun b =>
    match tget? b.chains id with
    | some c => { b with chains := tput b.chains id (f c) }
    | none => b

/-- The cells of a frame of `n` bytes (R434). -/
def cellsFor (n : Nat) : Nat := (n + 127) / 128

/-- The cells of a chain, its output descriptor cells included. -/
def Chain.size (c : Chain) : Nat := c.cells.length + c.ocells.length

/-- Cells outside fenced banks (FREE_STAT.HEALTHY, R465). -/
def BufferState.healthy (b : BufferState) : Nat := cellCount - 8192 * b.fencedBanks.length

/-- A cell lies in a fenced bank. -/
def BufferState.inFenced (b : BufferState) (c : Nat) : Bool := b.fencedBanks.any fun k => decide (c / 8192 = k)

/-- Cells in use outside fenced banks: those of the chains and those that no chain reaches. -/
def BufferState.inUse (b : BufferState) : Nat :=
  b.chains.foldl (fun n e =>
    n + (if b.fencedBanks.isEmpty then e.2.size else ((e.2.cells ++ e.2.ocells).filter fun c => !b.inFenced c).length)) 0 +
  (b.lost.filter fun x => !b.inFenced x.cell).length

/-- Cells in the free list (FREE_STAT.FREE). -/
def BufferState.freeCells (b : BufferState) : Nat := b.healthy - b.inUse

/-- SIZE_p (R439). -/
def State.poolSize (s : State) (h : Half) (p : Nat) : Nat := s.rfld (bBuffer h) (R.buffer_POOL_CFG + 8 * p) 0 20

/-- F_p, the free cells of a pool (R439). -/
def State.poolFree (s : State) (h : Half) (p : Nat) : Nat := s.poolSize h p - tget 0 (s.buf.get h).used p

/-- A request for `c` cells charged to pool `p` can be met (R439, R441). -/
def State.canTake (s : State) (h : Half) (p c : Nat) : Bool :=
  decide (c ≤ (s.buf.get h).freeCells) && decide (c ≤ s.poolFree h p)

/-- Charge `c` cells to a pool, keeping its peak (R439, R466). -/
def BufferState.charge (b : BufferState) (p c : Nat) : BufferState :=
  let u := tget 0 b.used p + c
  { b with used := tset 0 b.used p u, peak := if tget 0 b.peak p < u then tset 0 b.peak p u else b.peak }

/-- Take a charge of `c` cells off a pool. -/
def BufferState.uncharge (b : BufferState) (p c : Nat) : BufferState := { b with used := tset 0 b.used p (tget 0 b.used p - c) }

/-- Cell `c` is in use: a chain holds it, or it is lost to its chain. -/
def BufferState.holds? (b : BufferState) (c : Nat) : Bool :=
  (b.chains.any fun e => (e.2.cells ++ e.2.ocells).contains c) || b.lost.any fun x => decide (x.cell = c)

/-- The first free cell at or after `c`, outside fenced banks and not in `taken`; `fuel` bounds the search. -/
def BufferState.nextFree (b : BufferState) (taken : List Nat) (c : Nat) : Nat → Nat
  | 0 => c
  | fuel + 1 =>
    if b.holds? c || b.inFenced c || taken.contains c then b.nextFree taken ((c + 1) % cellCount) fuel else c

/-- `n` cells off the free list, whose order the spec leaves open (R434): each search starts at a free value. -/
def BufferState.pick (b : BufferState) (seed : Nat) (taken : List Nat) : Nat → List Nat
  | 0 => []
  | n + 1 =>
    let c := b.nextFree taken ((Config.freeValue seed 32).toNat % cellCount) cellCount
    c :: b.pick (seed + 1) (c :: taken) n

/-- A new chain with REFCNT 1 for a frame of these bytes; its cells come from the free list and charge pool `c.pool`. -/
def State.addChain (s : State) (h : Half) (c : Chain) (ncells nocells : Nat) : State × Nat :=
  let b := s.buf.get h
  let cs := b.pick s.fresh [] ncells
  let os := b.pick (s.fresh + ncells) cs nocells
  let id := b.nextChain
  ({ (s.updBuf h fun b =>
      { (b.charge c.pool (ncells + nocells)) with
        chains := tput b.chains id { c with cells := cs, ocells := os, refcnt := 1 }, nextChain := id + 1 }) with
      fresh := s.fresh + ncells + nocells }, id)

/-- More cells for a chain: frame cells, charged to the chain's pool. -/
def State.growChain (s : State) (h : Half) (id n : Nat) : State :=
  let b := s.buf.get h
  let cs := b.pick s.fresh [] n
  { (s.updBuf h fun b =>
      match tget? b.chains id with
      | some c => { (b.charge c.pool n) with chains := tput b.chains id { c with cells := c.cells ++ cs } }
      | none => b) with fresh := s.fresh + n }

/-- Every cell of a chain returns to the free list (R443). -/
def State.freeChain (s : State) (h : Half) (id : Nat) : State :=
  s.updBuf h fun b =>
    match tget? b.chains id with
    | some c =>
      { (b.uncharge c.pool c.size) with
          chains := tdel b.chains id
          badCells := b.badCells.filter fun x => !((c.cells ++ c.ocells).contains x) }
    | none => b

/-- One holder lets go of a chain (R442, R443): at zero its cells return; a decrement of a chain whose REFCNT is 0 changes nothing
and opens BUF_REFCNT. A broken chain waits for the reclaim sweep (R438). -/
def State.release (s : State) (h : Half) (id : Nat) : State :=
  match s.chain? h id with
  | none => s.used.report (.buffer h) F.BUF_REFCNT (s.free 20).toNat
  | some c =>
    if c.refcnt = 0 then s.report (.buffer h) F.BUF_REFCNT (nth 0 c.cells 0)
    else if c.refcnt = 1 ∧ ¬ c.broken then s.freeChain h id
    else s.updChain h id fun c => { c with refcnt := c.refcnt - 1 }

/-- The charge of a chain moves to pool `p`; the answer tells whether the move could be made (R439, R440). -/
def State.moveCharge (s : State) (h : Half) (id p : Nat) : State × Bool :=
  let c := s.chain h id
  if c.pool = p then (s, true)
  else if c.size ≤ s.poolFree h p then
    (s.updBuf h fun b =>
      { ((b.uncharge c.pool c.size).charge p c.size) with chains := tput b.chains id { c with pool := p } }, true)
  else (s, false)

/-! ### Ports as the buffer sees them -/

/-- Local port index of a port 0–131: 0–63 for a half's own ports, 64–67 for P128–P131 (R466). -/
def lpOf (port : Nat) : Nat := if port < 128 then port % 64 else 64 + (port - 128) % 4

/-- The half that queues for a port; a virtual port is queued where it is walked (R453). -/
def egressHalf (here : Half) (port : Nat) : Half := if port < 64 then 0 else if port < 128 then 1 else here

/-- The port 0–131 of a local index. -/
def portOfLp (h : Half) (lp : Nat) : Nat := if lp < 64 then 64 * h.val + lp else 64 + lp

/-- Count one in port counter `k` of R468. -/
def State.bumpPort (s : State) (h : Half) (lp k : Nat) : State := s.bump (bBuffer h) (0x6800 + lp * 0x50 + k * 8)

/-- The port counters of R468, by their number. -/
abbrev pcThreshold : Nat := 0
abbrev pcPool : Nat := 1
abbrev pcDown : Nat := 2
abbrev pcFlush : Nat := 3
abbrev pcLinkLost : Nat := 4
abbrev pcError : Nat := 5
abbrev pcStomped : Nat := 6
abbrev pcSpill : Nat := 7
abbrev pcEcn : Nat := 8
abbrev pcAdmitted : Nat := 9

/-- LINK_STAT.LINK_UP of a physical port (R106). -/
def State.linkUp (s : State) (p : PortIx) : Bool := bit (s.reg (bPort p) R.port_LINK_STAT) 0

/-- The port of a local index is up: its link and its unit for a physical port, always for P128–P130, the expansion link for P131
(R430, R460). -/
def State.portUp (s : State) (h : Half) (lp : Nat) : Bool :=
  if lp < 64 then s.linkUp (portOf h lp) && s.live (.port (portOf h lp))
  else if lp < 67 then true
  else (s.exp.get h).linkUp && bit (s.reg (bHalf h) R.half_EXP_CFG) 0 && bit (s.reg (bHalf h) R.half_EXP_CFG) 1

/-- The hold state of a port (R461, R462). -/
def State.hold (s : State) (h : Half) (lp : Nat) : HoldPhase := tget .up (s.buf.get h).holds lp

/-- Set the hold state of a port. -/
def State.setHold (s : State) (h : Half) (lp : Nat) (p : HoldPhase) : State :=
  s.updBuf h fun b => { b with holds := tset .up b.holds lp p }

/-- HOLD_CFG.HOLD_US of a port (R469). -/
def State.holdUs (s : State) (h : Half) (lp : Nat) : Nat :=
  if lp < 64 then s.rfld (bPort (portOf h lp)) R.port_HOLD_CFG 0 16
  else s.rfld (bHalf h) (R.half_HOLD_CFG_V + 0x10 * (lp - 64)) 0 16

/-- A port accepts new copies (R445, R460). -/
def State.portAccepts (s : State) (h : Half) (lp : Nat) : Bool := s.portUp h lp && decide (s.hold h lp = .up)

/-! ### Queues -/

/-- The on-chip entries of a queue. -/
def State.queue (s : State) (h : Half) (q : Nat) : List QEntry := tget [] (s.buf.get h).queues q

/-- Set the on-chip entries of a queue. -/
def State.setQueue (s : State) (h : Half) (q : Nat) (l : List QEntry) : State :=
  s.updBuf h fun b => { b with queues := tset [] b.queues q l }

/-- The spilled part of a queue. -/
def State.spill (s : State) (h : Half) (q : Nat) : List SpillEntry := tget [] (s.buf.get h).spilled q

/-- Set the spilled part of a queue. -/
def State.setSpill (s : State) (h : Half) (q : Nat) (l : List SpillEntry) : State :=
  s.updBuf h fun b => { b with spilled := tset [] b.spilled q l }

/-- The on-chip cells of a queue, DEPTH_Q (R445). -/
def depthOf (l : List QEntry) : Nat := l.foldl (fun n e => n + e.cells) 0

/-- The cells of a queue's spilled part. -/
def spillCells (l : List SpillEntry) : Nat := l.foldl (fun n e => n + e.entry.cells) 0

/-- The blocks of a queue's spilled part. -/
def spillBlocks (l : List SpillEntry) : Nat := l.foldl (fun n e => n + e.blocks.length) 0

/-- Every block of the half's spill region in use (SPILL_STAT.BLOCKS). -/
def BufferState.blocksUsed (b : BufferState) : List Nat := b.spilled.flatMap fun e => e.2.flatMap fun x => x.blocks

/-- Entries in the half's queue entry store (R445). -/
def BufferState.entryCount (b : BufferState) : Nat :=
  b.queues.foldl (fun n e => n + e.2.length) 0 + b.spilled.foldl (fun n e => n + e.2.length) 0

/-- The half's queue entry store holds 1,048,576 entries (R445). -/
abbrev entryStore : Nat := 1048576

/-- QCFG of a queue. -/
def State.qcfg (s : State) (h : Half) (q : Nat) : DWord := s.reg (bBuffer h) (R.buffer_QCFG + 8 * q)

/-- α_Q × F_p, rounded down to a whole cell (R446). -/
def alphaTimes (k f : Nat) : Nat :=
  let i := signed 4 k
  let j := if i < -7 then -7 else if 3 < i then 3 else i
  if 0 ≤ j then f * 2 ^ j.toNat else f / 2 ^ (-j).toNat

/-! ### Cell tags and pointer checks (R435, R437) -/

/-- A chain that a failed NEXT has cut short: its cells no longer hold all of its frame or descriptor (R437). -/
def Chain.cut (c : Chain) : Bool :=
  decide (c.cells.length < cellsFor c.bytes.length) || decide (c.ocells.length < cellsFor c.odesc.length)

/-- The cells of a chain from cell `x` on are lost to it (R437). -/
def BufferState.cutChain (b : BufferState) (id x : Nat) (c : Chain) : BufferState :=
  let keep (l : List Nat) : List Nat := l.takeWhile (· ≠ x)
  let gone (l : List Nat) : List Nat := l.dropWhile (· ≠ x)
  let lose (l : List Nat) : List LostCell :=
    l.zipIdx.map fun e =>
      { cell := e.1, owner := nth 0 c.cells 0, next := nth e.1 l (e.2 + 1), last := decide (e.2 + 1 = l.length), pool := c.pool }
  { b with
    chains := tput b.chains id { c with cells := keep c.cells, ocells := keep c.ocells }
    lost := b.lost ++ lose (gone c.cells) ++ lose (gone c.ocells) }

/-- The fields of a tag that every cell has: NEXT, HEAD and LAST (R435). -/
def tagLink (next : Nat) (head last : Bool) : Nat := next <<< 108 ||| b2n head <<< 107 ||| b2n last <<< 106

/-- The tag of the cell at index `i` of a list of linked cells of a chain (R435): the chain descriptor in the head, the OWNER in every other
cell. The NEXT of the last cell is its own index. -/
def Chain.tagAt (c : Chain) (l : List Nat) (i : Nat) (head : Bool) : BitVec 128 :=
  let cell := nth 0 l i
  let link := tagLink (nth cell l (i + 1)) head (decide (i + 1 = l.length))
  let owner := nth 0 c.cells 0
  BitVec.ofNat 128 <|
    if head then
      link ||| c.refcnt % 512 <<< 97 ||| c.bytes.length % 2 ^ 14 <<< 83 ||| c.stamp.toNat % 2 ^ 48 <<< 35 ||| nth 0 c.ocells 0 <<< 15 |||
        c.pool % 4 <<< 13 ||| b2n c.mcast <<< 12 ||| b2n c.late <<< 11 ||| b2n c.crossed <<< 10 ||| c.inPort % 256
    else link ||| owner / 2 ^ 11 <<< 97 ||| owner % 2 ^ 11 <<< 86

/-- The tag of a lost cell (R435). -/
def LostCell.tag (x : LostCell) : BitVec 128 :=
  BitVec.ofNat 128 (tagLink x.next false x.last ||| x.owner / 2 ^ 11 <<< 97 ||| x.owner % 2 ^ 11 <<< 86)

/-- The chain that holds a cell, none for a free or a lost cell. -/
def State.chainWith (s : State) (h : Half) (cell : Nat) : Option (Nat × Chain) :=
  (s.buf.get h).chains.find? fun e => (e.2.cells ++ e.2.ocells).contains cell

/-- The tag of a cell in use (R435). -/
def State.cellTag (s : State) (h : Half) (cell : Nat) : Option (BitVec 128) :=
  match s.chainWith h cell with
  | some (_, c) =>
    let i := c.cells.findIdx (· = cell)
    some (if i < c.cells.length then c.tagAt c.cells i (decide (i = 0)) else c.tagAt c.ocells (c.ocells.findIdx (· = cell)) false)
  | none => ((s.buf.get h).lost.find? fun x => decide (x.cell = cell)).map LostCell.tag

/-- The first cell pointer of a chain that fails its check: one into a fenced bank, or a NEXT to a cell that is not the chain's (R437). -/
def State.badPointer? (s : State) (h : Half) (id : Nat) : Option Nat :=
  let b := s.buf.get h
  match s.chain? h id with
  | none => none
  | some c =>
    match if b.fencedBanks.isEmpty then none else (c.cells ++ c.ocells).find? b.inFenced with
    | some x => some x
    | none =>
      if c.cut then some (((b.lost.find? fun x => decide (x.owner = nth 0 c.cells 0)).map (·.cell)).getD 0) else none

/-- The check of a chain's pointers as a copy of it is read: one that fails opens BUF_POINTER (R437, R465). -/
def State.pointerFault (s : State) (h : Half) (id : Nat) : State :=
  match s.badPointer? h id with
  | some x => s.report (.buffer h) F.BUF_POINTER x
  | none => s

/-- A chain is marked broken, or a pointer of it fails its check (R437, R443, R465). -/
def State.chainBad (s : State) (h : Half) (id : Nat) : Bool :=
  match s.chain? h id with
  | none => true
  | some c => c.broken || (s.badPointer? h id).isSome

/-- A chain holds a cell whose data reads uncorrectable (R464). -/
def State.chainUncorrectable (s : State) (h : Half) (id : Nat) : Bool :=
  let b := s.buf.get h
  !b.badCells.isEmpty && ((s.chain h id).cells ++ (s.chain h id).ocells).any b.badCells.contains

/-- A copy of the chain cannot be read whole: it is discarded when it is reached (R443, R464, R465). -/
def State.unreadable (s : State) (h : Half) (id : Nat) : Bool := s.chainUncorrectable h id || s.chainBad h id

/-- A copy of an unreadable chain is discarded under ERROR_DROP of local port `lp` of half `g`, with the record of a failed pointer; its
hold ends (R437, R443, R464, R465). -/
def State.errorDrop (s : State) (h g : Half) (lp id : Nat) : State := (((s.pointerFault h id).bumpPort g lp pcError)).release h id

/-- The blocks of one spilled copy are freed with its record. -/
def dropFirst {α : Type} (l : List α) : List α := l.drop 1

end Sys2Proof.Machine
end

