-- ==== Sys2Proof/Machine/Sched.lean ====
section
/-! DEFINITION. The port schedulers (R470–R485): charged lengths, weights, tags and virtual times, token buckets, eligibility and
the pick, and the return of withdrawn frames. -/

namespace Sys2Proof.Machine

/-- Change a half's ingress side. -/
def State.updIng (s : State) (h : Half) (f : IngressState → IngressState) : State := { s with ing := s.ing.upd h f }

/-- Change a half's scheduler. -/
def State.updSched (s : State) (h : Half) (f : SchedState → SchedState) : State := { s with sched := s.sched.upd h f }

/-- A 48-bit tag (R475). -/
def tag48 (n : Nat) : Nat := n % 2 ^ 48

/-- The signed difference of two tags modulo 2⁴⁸ (R475). -/
def tagDiff (a b : Nat) : Int := signed 48 (a % 2 ^ 48 + 2 ^ 48 - b % 2 ^ 48)

/-- The later of two tags (R476). -/
def tagMax (a b : Nat) : Nat := if tagDiff a b < 0 then b else a

/-- The signed byte overhead of a register field: values below −64 act as −64 (R106, R492). -/
def overheadOf (v : Nat) : Int := let i := signed 8 v; if i < -64 then -64 else i

/-- OVH of an egress port (R474). -/
def State.ovh (s : State) (h : Half) (lp : Nat) : Int :=
  if lp < 64 then overheadOf (s.rfld (bPort (portOf h lp)) R.port_MAC_CFG 40 8)
  else overheadOf (s.rfld (bSched h) (R.sched_PSCH + 8 * lp) 0 8)

/-- L_c = max(0, L_out + OVH) (R474). -/
def State.charged (s : State) (h : Half) (lp lout : Nat) : Nat := ((lout : Int) + s.ovh h lp).toNat

/-- Weight of a register: 0 acts as 1 (R492). -/
def weightOf (v : DWord) : Nat := if fld v 14 10 = 0 then 1 else fld v 14 10

/-- The advance ⌈L_c × 1,024 / WEIGHT⌉ (R475). -/
def advance (lc w : Nat) : Nat := (lc * 1024 + w - 1) / w

def State.qsch (s : State) (h : Half) (q : Nat) : DWord := s.reg (bSched h) (R.sched_QSCH + 8 * q)
def State.csch (s : State) (h : Half) (k : Nat) : DWord := s.reg (bSched h) (R.sched_CSCH + 8 * k)

/-! ### Shapers (R477–R480) -/

/-- A level of the hierarchy: queue, class, port. -/
inductive Lvl where
  | queue | cls | port
  deriving DecidableEq, Repr

/-- Rate and burst registers of a node. -/
def State.shp (s : State) (h : Half) (l : Lvl) (i : Nat) : DWord × DWord :=
  match l with
  | .queue => (s.reg (bShaper h) (R.shaper_QSHP_RATE + 16 * i), s.reg (bShaper h) (R.shaper_QSHP_BURST + 16 * i))
  | .cls => (s.reg (bShaper h) (R.shaper_CSHP_RATE + 16 * i), s.reg (bShaper h) (R.shaper_CSHP_BURST + 16 * i))
  | .port => (s.reg (bSched h) (R.sched_PSHP_RATE + 16 * i), s.reg (bSched h) (R.sched_PSHP_BURST + 16 * i))

/-- A bucket refilled at `rate` kb/s over `dt` ticks and clamped at `burst` bytes: tokens in 1/256 byte, with the remainder of the
division carried (1 kb/s is 1/46,875 of 1/256 byte per tick). -/
def refillOne (tok : Int) (rem rate burst dt : Nat) : Int × Nat :=
  let x := rate * dt + rem
  let t := tok + ((x / 46875 : Nat) : Int)
  let c : Int := ((burst * 256 : Nat) : Int)
  if c < t then (c, 0) else (t, x % 46875)

/-- Both buckets of a node refilled up to elapsed tick `now` (R477). -/
def Bucket.refill (b : Bucket) (rb : DWord × DWord) (now : Nat) : Bucket :=
  let dt := now - b.last
  let (c, cr) := refillOne b.com b.comRem (fld rb.1 0 32) (fld rb.2 0 24) dt
  let (p, pr) := refillOne b.peak b.peakRem (fld rb.1 32 32) (fld rb.2 32 24) dt
  { com := c, peak := p, comRem := cr, peakRem := pr, last := now }

/-- The bucket of a node. -/
def State.bucket (s : State) (h : Half) (l : Lvl) (i : Nat) : Bucket :=
  let x := s.sched.get h
  match l with
  | .queue => tget Bucket.init x.qB i
  | .cls => tget Bucket.init x.cB i
  | .port => tget Bucket.init x.pB i

/-- The bucket of a node as it stands now, refilled. -/
def State.bucketNow (s : State) (h : Half) (l : Lvl) (i : Nat) : Bucket := (s.bucket h l i).refill (s.shp h l i) s.ticks

/-- Set the bucket of a node. -/
def State.setBucket (s : State) (h : Half) (l : Lvl) (i : Nat) (b : Bucket) : State :=
  s.updSched h fun x =>
    match l with
    | .queue => { x with qB := tset Bucket.init x.qB i b }
    | .cls => { x with cB := tset Bucket.init x.cB i b }
    | .port => { x with pB := tset Bucket.init x.pB i b }

/-- A node's shaper allows it: its peak bucket is at or above zero, or PIR is 0 (R478, R479). -/
def State.allows (s : State) (h : Half) (l : Lvl) (i : Nat) : Bool :=
  decide (fld (s.shp h l i).1 32 32 = 0) || decide (0 ≤ (s.bucketNow h l i).peak)

/-- A node is green: CIR is not 0 and its committed bucket is at or above zero (R478). -/
def State.green (s : State) (h : Half) (l : Lvl) (i : Nat) : Bool :=
  !decide (fld (s.shp h l i).1 0 32 = 0) && decide (0 ≤ (s.bucketNow h l i).com)

/-- `lc` bytes subtracted from (or, negative, added back to) both buckets of a node; an addition is clamped at the bursts
(R478, R481). -/
def State.chargeNode (s : State) (h : Half) (l : Lvl) (i : Nat) (lc : Int) : State :=
  let b := s.bucketNow h l i
  let rb := s.shp h l i
  let lim (t : Int) (burst : Nat) : Int :=
    if lc < 0 then (if ((burst * 256 : Nat) : Int) < t then ((burst * 256 : Nat) : Int) else t) else t
  s.setBucket h l i { b with com := lim (b.com - lc * 256) (fld rb.2 0 24), peak := lim (b.peak - lc * 256) (fld rb.2 32 24) }

/-! ### Eligibility and the pick (R473, R476) -/

/-- The PFC priority of a queue is paused at its port (R117, R481). -/
def State.qPaused (s : State) (h : Half) (q : Nat) : Bool :=
  let lp := q / 16
  decide (lp < 64) && (tget? (s.ing.get h).pauses (8 * lp + fld (s.qsch h q) 8 3)).isSome

/-- A queue is eligible (R473). -/
def State.qEligible (s : State) (h : Half) (q : Nat) : Bool :=
  !(s.queue h q).isEmpty && !s.qPaused h q && s.allows h .queue q

/-- The queues of a class k = 4 × lp + c. -/
def queuesOf (k : Nat) : List Nat := [4 * k, 4 * k + 1, 4 * k + 2, 4 * k + 3]

/-- The classes of a port. -/
def classesOf (lp : Nat) : List Nat := [4 * lp, 4 * lp + 1, 4 * lp + 2, 4 * lp + 3]

/-- A class is eligible (R473). -/
def State.cEligible (s : State) (h : Half) (k : Nat) : Bool := s.allows h .cls k && (queuesOf k).any fun q => s.qEligible h q

/-- One queue after a change: one that has become non-empty takes its class's V, and one whose eligibility begins is never behind
it (R476). `was` names the queues that were non-empty before. -/
def State.refreshQueue (was : List Nat) (h : Half) (s : State) (q : Nat) : State :=
  let v := tget 0 (s.sched.get h).cV (q / 4)
  let s1 := if !(s.queue h q).isEmpty && !was.contains q then s.updSched h fun x => { x with qS := tset 0 x.qS q v } else s
  let e := s1.qEligible h q
  let had := (s1.sched.get h).qElig.contains q
  if e && !had then
    s1.updSched h fun x => { x with qS := tset 0 x.qS q (tagMax (tget 0 x.qS q) v), qElig := x.qElig ++ [q] }
  else if !e && had then s1.updSched h fun x => { x with qElig := x.qElig.filter (· ≠ q) }
  else s1

/-- One class after a change (R476): one whose first queue becomes eligible takes the port's V, and one that its own shaper held is never
behind it. `was` names the queues that were eligible before. -/
def State.refreshClass (was : List Nat) (h : Half) (s : State) (k : Nat) : State :=
  let v := tget 0 (s.sched.get h).pV (k / 4)
  let now := (queuesOf k).any fun q => s.qEligible h q
  let hadSome := (queuesOf k).any fun q => was.contains q
  let s1 := if now && !hadSome then s.updSched h fun x => { x with cS := tset 0 x.cS k v } else s
  let e := s1.cEligible h k
  let had := (s1.sched.get h).cElig.contains k
  if e && !had then
    s1.updSched h fun x => { x with cS := tset 0 x.cS k (tagMax (tget 0 x.cS k) v), cElig := x.cElig ++ [k] }
  else if !e && had then s1.updSched h fun x => { x with cElig := x.cElig.filter (· ≠ k) }
  else s1

/-- The start tags of a port's queues and classes after a change (R476). -/
def State.schedRefresh (s : State) (h : Half) (lp : Nat) (was : List Nat) : State :=
  let elig := (s.sched.get h).qElig
  let s1 := ((classesOf lp).flatMap queuesOf).foldl (State.refreshQueue was h) s
  (classesOf lp).foldl (State.refreshClass elig h) s1

/-- The queues of a port that hold an on-chip entry. -/
def State.nonEmpty (s : State) (h : Half) (lp : Nat) : List Nat :=
  ((classesOf lp).flatMap queuesOf).filter fun q => !(s.queue h q).isEmpty

/-- Run a change of a port's queues and bring its start tags up to date (R476). -/
def State.withSched (s : State) (h : Half) (lp : Nat) (f : State → State) : State :=
  let was := s.nonEmpty h lp
  (f s).schedRefresh h lp was

/-- The pick among children (R473): green before others, the highest PRIO, the smallest start tag, the lowest index. -/
def pickChild (cands : List Nat) (green : Nat → Bool) (prio : Nat → Nat) (tag : Nat → Int) : Option Nat :=
  let g := cands.filter green
  let c1 := if g.isEmpty then cands else g
  let top := c1.foldl (fun m x => if m < prio x then prio x else m) 0
  let c2 := c1.filter fun x => prio x = top
  c2.foldl (fun best x => match best with
    | none => some x
    | some b => if tag x < tag b then some x else some b) none

/-- The class a port picks. -/
def State.pickClass (s : State) (h : Half) (lp : Nat) : Option Nat :=
  let x := s.sched.get h
  pickChild ((classesOf lp).filter fun k => s.cEligible h k) (fun k => s.green h .cls k) (fun k => fld (s.csch h k) 4 2)
    (fun k => tagDiff (tget 0 x.cS k) (tget 0 x.pV lp))

/-- The queue a class picks. -/
def State.pickQueue (s : State) (h : Half) (k : Nat) : Option Nat :=
  let x := s.sched.get h
  pickChild ((queuesOf k).filter fun q => s.qEligible h q) (fun q => s.green h .queue q) (fun q => fld (s.qsch h q) 4 2)
    (fun q => tagDiff (tget 0 x.qS q) (tget 0 x.cV k))

/-- The selected frames of a port. -/
def State.sels (s : State) (h : Half) (lp : Nat) : List Sel := tget [] (s.sched.get h).sel lp

/-- Set the selected frames of a port. -/
def State.setSels (s : State) (h : Half) (lp : Nat) (l : List Sel) : State :=
  s.updSched h fun x => { x with sel := tset [] x.sel lp l }

/-- The speed of a port mode in Gb/s (R101). -/
def modeGbps (m : Nat) : Nat :=
  match m with
  | 1 => 10
  | 2 => 25
  | 3 => 50
  | 4 => 100
  | 5 => 100
  | 6 => 100
  | 7 => 200
  | 8 => 200
  | 9 => 400
  | _ => 0

/-- The lead limit in bytes (R471). -/
def State.leadLimit (s : State) (h : Half) (lp : Nat) : Nat :=
  if lp < 64 then 16 * modeGbps (s.rfld (bPort (portOf h lp)) R.port_LINK_STAT 8 5) else 4096

/-- A port's selected frames leave room under its lead limit (R471). -/
def State.leadOk (s : State) (h : Half) (lp : Nat) : Bool :=
  let out := (s.sels h lp).filter fun f => !f.ended
  out.isEmpty || decide (out.foldl (fun n f => n + f.lc) 0 < s.leadLimit h lp)

/-- The selection of queue `q` with a charged length (R475, R478). -/
def State.selectTags (s : State) (h : Half) (q lc : Nat) : State :=
  let k := q / 4
  let lp := q / 16
  let wq := weightOf (s.qsch h q)
  let wc := weightOf (s.csch h k)
  let s1 := s.updSched h fun x =>
    { x with
      cV := tset 0 x.cV k (tget 0 x.qS q)
      pV := tset 0 x.pV lp (tget 0 x.cS k)
      qS := tset 0 x.qS q (tag48 (tget 0 x.qS q + advance lc wq))
      cS := tset 0 x.cS k (tag48 (tget 0 x.cS k + advance lc wc)) }
  ((s1.chargeNode h .queue q lc).chargeNode h .cls k lc).chargeNode h .port lp lc

/-- The withdrawn selected frames of one queue go back to its head: charges refunded, S restored, PFC_RETURNS counted (R481). -/
def State.withdrawQueue (s : State) (h : Half) (q : Nat) : State :=
  let lp := q / 16
  let back := (s.sels h lp).filter fun f => decide (f.q = q) && !f.started
  match back with
  | [] => s
  | f0 :: _ =>
    let s1 := s.setSels h lp ((s.sels h lp).filter fun f => !(decide (f.q = q) && !f.started))
    let s2 := s1.setQueue h q (back.map (·.entry) ++ s1.queue h q)
    let s3 := s2.updSched h fun x => { x with qS := tset 0 x.qS q f0.sBefore }
    let s4 := back.foldl (fun s f =>
      let c : Int := -((f.lc : Nat) : Int)
      ((s.chargeNode h .queue q c).chargeNode h .cls (q / 4) c).chargeNode h .port lp c) s3
    s4.bumpBy (bSched h) (R.sched_PFC_RETURNS + lp * 0x50) back.length

/-- Every queue of a port mapped to priority `p` gives back its unstarted selected frames (R481). -/
def State.withdraw (s : State) (h : Half) (lp p : Nat) : State :=
  let qs := ((classesOf lp).flatMap queuesOf).filter fun q => fld (s.qsch h q) 8 3 = p
  qs.foldl (fun s q => s.withdrawQueue h q) s

/-- The transmit reads in flight of a port are lost under LINK_LOST and their holds end; no charge is refunded (R461, R482). -/
def State.loseSelected (s : State) (h : Half) (lp : Nat) : State :=
  let fl := (s.sels h lp).filter fun f => !f.ended
  let s1 := fl.foldl (fun s f =>
    let s2 := s.bumpPort h lp pcLinkLost
    if f.readDone then s2 else s2.release h f.entry.chain) s
  s1.setSels h lp ((s.sels h lp).filter fun f => f.ended && !f.readDone)

end Sys2Proof.Machine
end

