-- ==== Sys2Proof/Machine/Versions.lean ====
section
/-! DEFINITION. Versions of table entries as a stamp sees them (R150, R210, R211), the indexed targets, and the meters (R207–R210). -/

namespace Sys2Proof.Machine

/-- Change a half's tables. -/
def State.updTab (s : State) (h : Half) (f : TableState → TableState) : State := { s with tab := s.tab.upd h f }

/-- A batch slot of a half. -/
def State.bslot (s : State) (h : Half) (b : Nat) : BatchSlot := tget BatchSlot.init (s.tab.get h).slots b

/-- Change a batch slot. -/
def State.updSlot (s : State) (h : Half) (b : Nat) (f : BatchSlot → BatchSlot) : State :=
  s.updTab h fun t => { t with slots := tmod BatchSlot.init t.slots b f }

/-- A batch no longer holds a touched entry. -/
def State.dropTouch (s : State) (h : Half) (b : Nat) (t : Touch) : State :=
  s.updSlot h b fun x => { x with touched := x.touched.filter (· ≠ t) }

/-- 2⁶⁴ − 1, the E of a slot that is not posted (R211). -/
abbrev eNever : Nat := 2 ^ 64 - 1

/-- E of a batch slot for R150 and R210: the posted stamp in POSTED and RETIRING, else 2⁶⁴ − 1 (R211). -/
def State.slotE (s : State) (h : Half) (b : Nat) : Nat :=
  match (s.bslot h b).state with
  | .posted => (s.bslot h b).e.toNat
  | .retiring => (s.bslot h b).e.toNat
  | _ => eNever

/-- The version states of R150. -/
abbrev vsStable : Nat := 0
abbrev vsPending : Nat := 1
abbrev vsRetiring : Nat := 2

/-- An entry of version state `v` under batch slot `b` takes part in a search at stamp `st` (R150). -/
def State.visible (s : State) (h : Half) (v b : Nat) (st : Nat) : Bool :=
  match v with
  | 0 => true
  | 1 => decide (s.slotE h b ≤ st)
  | 2 => decide (st < s.slotE h b)
  | _ => false

/-- The value of an index of an indexed target at a stamp (R213). -/
def State.indexedAt (s : State) (h : Half) (x : Indexed) (st : Nat) : Nat :=
  match x.alt with
  | some (v, b) => if s.slotE h b ≤ st then v else x.value
  | none => x.value

/-- The indirection entry of an index (R135): after reset entry i holds TILE = i mod 16 and SEL = 0. -/
def indRst (i : Nat) : Indexed := { value := i % 16, alt := none }

/-- Indirection entry `i` at a stamp (R136). -/
def State.indirectionAt (s : State) (h : Half) (i st : Nat) : Nat := s.indexedAt h (tget (indRst i) (s.tab.get h).indirection i) st

/-- Meter profile `i` at a stamp, 128 bits (R208). -/
def State.profileAt (s : State) (h : Half) (i st : Nat) : Nat := s.indexedAt h (tget Indexed.init (s.tab.get h).profiles i) st

/-! ### Meters (R207–R210) -/

/-- Meter `i` of a half. -/
def State.meterOf (s : State) (h : Half) (i : Nat) : Meter := tget Meter.init (s.tab.get h).meters i

/-- Set a meter. -/
def State.setMeter (s : State) (h : Half) (i : Nat) (m : Meter) : State :=
  s.updTab h fun t => { t with meters := tset Meter.init t.meters i m }

/-- The profile number that governs a charge at a stamp (R210). -/
def State.meterProfIx (s : State) (h : Half) (m : Meter) (st : Nat) : Nat :=
  if m.vstate = vsPending ∧ s.slotE h m.batch ≤ st then m.alt else m.profile

/-- The profile that governs a charge at a stamp (R210). -/
def State.meterProfile (s : State) (h : Half) (m : Meter) (st : Nat) : Nat := s.profileAt h (s.meterProfIx h m st) st

/-- Fields of a profile (R208). -/
def prCir (p : Nat) : Nat := bits p 96 32
def prPir (p : Nat) : Nat := if bits p 64 32 < bits p 96 32 then bits p 96 32 else bits p 64 32
def prCbs (p : Nat) : Nat := bits p 40 24 * 256
def prEbs (p : Nat) : Nat := bits p 16 24 * 256
def prMode (p : Nat) : Nat := bits p 0 2

/-- What a rate in kb/s adds over `d` units of 256 ticks, in 1/256 byte, rounded down (R209). -/
def meterAdd (rate d : Nat) : Nat := rate * d * 256 / 46875

/-- The two buckets of a meter refilled up to `now` = DTS [37:8] and clamped (R209). Under RFC 2697 the excess bucket takes what the
committed bucket cannot hold. -/
def Meter.refill (m : Meter) (p now : Nat) : Meter :=
  let d := (now + 2 ^ 30 - m.last % 2 ^ 30) % 2 ^ 30
  let c := m.tc + meterAdd (prCir p) d
  if prMode p = 1 then
    { m with tc := satTo c (prCbs p), te := satTo (m.te + (c - prCbs p)) (prEbs p), last := now }
  else { m with tc := satTo c (prCbs p), te := satTo (m.te + meterAdd (prPir p) d) (prEbs p), last := now }

/-- The colours of R239. -/
abbrev colGreen : Nat := 0
abbrev colYellow : Nat := 1
abbrev colRed : Nat := 2
abbrev colNone : Nat := 3

/-- The colour test of the RFC a profile names, on `b` units of 1/256 byte: the meter charged and the colour (R209). `pre` is the colour
the frame comes with; a colour-blind meter is given green. -/
def Meter.test (m : Meter) (p b pre : Nat) : Meter × Nat :=
  match prMode p with
  | 1 =>
    if pre = colGreen ∧ b ≤ m.tc then ({ m with tc := m.tc - b }, colGreen)
    else if pre ≠ colRed ∧ b ≤ m.te then ({ m with te := m.te - b }, colYellow)
    else (m, colRed)
  | 2 =>
    if pre = colRed ∨ m.te < b then (m, colRed)
    else if pre = colYellow ∨ m.tc < b then ({ m with te := m.te - b }, colYellow)
    else ({ m with tc := m.tc - b, te := m.te - b }, colGreen)
  | _ => (m, colGreen)

/-- DTS [37:8] of a half. -/
def State.meterNow (s : State) (h : Half) : Nat := bits (s.dts h).toNat 8 30

/-- A charge of `bytes` bytes on meter `i` for a frame of stamp `st` (R209, R210): the state after it and the colour. -/
def State.chargeMeter (s : State) (h : Half) (i bytes st pre : Nat) : State × Nat :=
  let m := s.meterOf h i
  let p := s.meterProfile h m st
  let (m1, c) := (m.refill p (s.meterNow h)).test p (bytes * 256) pre
  (s.setMeter h i m1, c)

/-- A meter whose tokens read uncorrectable is set full (R233). -/
def State.fillMeter (s : State) (h : Half) (i st : Nat) : State :=
  let m := s.meterOf h i
  let p := s.meterProfile h m st
  (s.setMeter h i { m with tc := prCbs p, te := prEbs p, last := s.meterNow h }).updTab h fun t =>
    { t with badMeters := t.badMeters.filter (· ≠ i) }

end Sys2Proof.Machine
end

