-- ==== Sys2Proof/Machine/Exact.lean ====
section
/-! DEFINITION. Placement in the hashed tables (R193) and the EXACT table: its candidates, what a lookup sees, insertion with its moves,
and the entry image (R191). -/

namespace Sys2Proof.Machine

/-! ### Placement (R193) -/

/-- One of a list by a free choice; `d` for an empty list. -/
def pickFree (seed : Nat) (l : List Nat) (d : Nat) : Nat := nth d l ((Config.freeValue seed 32).toNat % l.length)

/-- Moves that free one of the slots `slots`: a slot whose entry may move is chosen freely; its entry goes to a free candidate of its
own, or room is made there first. The answer lists the moves in the order in which they are made, and the slot freed. `visited` are
slots on the path. -/
def findMoves (cands : Nat → List Nat) (busy movable : Nat → Bool) (seed : Nat) (visited slots : List Nat) :
    Nat → Option (List (Nat × Nat) × Nat)
  | 0 => none
  | fuel + 1 =>
    match slots.filter fun v => movable v && !visited.contains v with
    | [] => none
    | w :: ws =>
      let v := pickFree seed (w :: ws) w
      match (cands v).filter fun c => !busy c with
      | c :: cs => some ([(v, pickFree (seed + 1) (c :: cs) c)], v)
      | [] =>
        match findMoves cands busy movable (seed + 2) (v :: visited) ((cands v).filter (· ≠ v)) fuel with
        | some (ms, f) => some (ms ++ [(v, f)], v)
        | none => none

/-- The moves an insertion may make (R193). -/
abbrev maxMoves : Nat := 8

/-! ### EXACT (R191–R193) -/

/-- TID and KEY as one number. -/
def exKey (tid key : Nat) : Nat := tid * 2 ^ 128 + key

/-- The 16 candidate slots of a key: four buckets of four, one bucket in each way of 32,768 (R193). -/
def exCands (tid key : Nat) : List Nat :=
  (List.range 16).map fun i => (i / 4 * 32768 + Config.exactHash (i / 4) (exKey tid key) % 32768) * 4 + i % 4

/-- The entries of a key: slot and entry (R192). -/
def TableState.exFind (x : TableState) (tid key : Nat) : List (Nat × ExEntry) :=
  (exCands tid key).filterMap fun i =>
    match tget? x.exact i with
    | some e => if e.tid = tid ∧ e.key = key then some (i, e) else none
    | none => none

/-- The entry that a LOOKUP at a stamp hits (R192). -/
def State.exLookup (s : State) (h : Half) (tid key st : Nat) : Option (Nat × ExEntry) :=
  ((s.tab.get h).exFind tid key).find? fun e => s.visible h e.2.vstate e.2.batch st

/-- Set or drop an EXACT slot. -/
def State.setEx (s : State) (h : Half) (i : Nat) (e : ExEntry) : State := s.updTab h fun t => { t with exact := tput t.exact i e }
def State.dropEx (s : State) (h : Half) (i : Nat) : State := s.updTab h fun t => { t with exact := tdel t.exact i }

/-- A slot of a target is withheld for a rewrite from its shadow (R233, R236). -/
def TableState.held (x : TableState) (t i : Nat) : Bool := x.withheld.contains (t, i) || x.shadowHeld.contains (t, i)

/-- An EXACT slot is occupied; its entry may move while it is STABLE (R193). -/
def TableState.exBusy (x : TableState) (i : Nat) : Bool := (tget? x.exact i).isSome
def TableState.exMovable (x : TableState) (i : Nat) : Bool :=
  match tget? x.exact i with
  | some e => decide (e.vstate = vsStable) && !x.held 0 i
  | none => false

/-- The candidate slots of the entry in a slot. -/
def TableState.exCandsOf (x : TableState) (i : Nat) : List Nat :=
  match tget? x.exact i with
  | some e => exCands e.tid e.key
  | none => []

/-- An entry moves to a free slot; it is written there before its old slot is cleared (R193). -/
def TableState.exMove (x : TableState) (m : Nat × Nat) : TableState :=
  match tget? x.exact m.1 with
  | some e => { x with exact := tdel (tput x.exact m.2 e) m.1 }
  | none => x

/-- A slot for a key, after the moves that free it: the state and the slot, or none for FULL (R193). -/
def State.exSlot (s : State) (h : Half) (tid key : Nat) : State × Option Nat :=
  let x := s.tab.get h
  let s1 := { s with fresh := s.fresh + 2 * maxMoves + 1 }
  match (exCands tid key).filter fun c => !x.exBusy c with
  | c :: cs => (s1, some (pickFree s.fresh (c :: cs) c))
  | [] =>
    match findMoves x.exCandsOf x.exBusy x.exMovable s.fresh [] (exCands tid key) maxMoves with
    | some (ms, f) => (s1.updTab h fun t => ms.foldl TableState.exMove t, some f)
    | none => (s1, none)

/-- A free slot could be found for a key (R193); used where a record is judged before it is applied. -/
def State.exHasSlot (s : State) (h : Half) (tid key : Nat) : Bool := (s.exSlot h tid key).2.isSome

/-- The key of 16 bytes as a number, byte 0 highest; shorter keys are zero-filled (R191). -/
def exKeyOf (bs : List Byte) : Nat := beNat (padTo bs 16)

/-- An entry from its 32-byte image, with the fields that the VERSION unit sets (R191, R213). -/
def exImage (bs : List Byte) (vs batch : Nat) (learned : Bool) (at0 : Nat) : ExEntry :=
  let v := leNat (padTo bs 32)
  { key := bits v 128 128, result := BitVec.ofNat 64 (bits v 64 64), tid := bits v 56 8, ageProf := bits v 52 4, age := bits v 36 16,
    vstate := vs, batch := batch, learned := learned, hit := v.testBit 24, at0 := at0, noticed := false }

/-- A refresh of an entry now (R96, R190). -/
def State.refreshEx (s : State) (h : Half) (i : Nat) (e : ExEntry) : State :=
  if e.ageProf = 0 then s else s.setEx h i { e with age := s.ageNow h, hit := true, at0 := s.ticks, noticed := false }

end Sys2Proof.Machine
end

