-- ==== Sys2Proof/Machine/Output.lean ====
section
/-! DEFINITION. The output descriptor (R338–R344, R680): its header and edit operations, the checks TDONE makes, and the rewriting of
a frame by it (R340, R342, R447, R487). -/

namespace Sys2Proof.Machine

/-- One edit operation (R339). -/
structure EditOp where
  kind : Nat
  l4 : Bool
  len : Nat
  off : Nat
  data : List Byte
  /-- a bit that R339 marks zero is not zero -/
  dirty : Bool
  deriving DecidableEq, Repr

/-- A parsed descriptor: its header words, its operations, and the bytes through its END operation, if it has one. -/
structure ODesc where
  w0 : Nat
  w1 : Nat
  ops : List EditOp
  stop : Option EditOp
  size : Nat
  deriving DecidableEq, Repr

/-- The operation whose header word is `w` and whose data follow. -/
def editOp (w : Nat) (rest : List Byte) : EditOp :=
  let k := bits w 60 4
  let n := bits w 48 8
  { kind := k, l4 := w.testBit 59, len := n, off := bits w 16 16,
    data := if k = 1 ∨ k = 2 then rest.take n else [],
    dirty := decide (bits w 56 3 ≠ 0) || decide (bits w 32 16 ≠ 0) || decide (bits w 0 16 ≠ 0) }

/-- Bytes of an operation's data with its padding (R339). -/
def EditOp.padded (o : EditOp) : Nat := if o.kind = 1 ∨ o.kind = 2 then (o.len + 7) / 8 * 8 else 0

/-- The operations from byte `pos` on, through END or the last byte; `fuel` bounds their number. -/
def parseOps (l : List Byte) (pos : Nat) : Nat → List EditOp × Option EditOp × Nat
  | 0 => ([], none, pos)
  | fuel + 1 =>
    if l.length < pos + 8 then ([], none, pos)
    else
      let o := editOp (leNat (slice l pos 8)) (l.drop (pos + 8))
      if o.kind = 0 then ([], some o, pos + 8)
      else
        let (os, e, z) := parseOps l (pos + 8 + o.padded) fuel
        (o :: os, e, z)

/-- The descriptor in the first 256 of the bytes `l`. -/
def parseODesc (l : List Byte) : ODesc :=
  let d := l.take 256
  let (os, e, z) := parseOps d 16 32
  { w0 := leNat (slice d 0 8), w1 := leNat (slice d 8 8), ops := os, stop := e, size := z }

def ODesc.kind (d : ODesc) : Nat := bits d.w0 56 8
def ODesc.port (d : ODesc) : Nat := bits d.w0 48 8
def ODesc.queue (d : ODesc) : Nat := bits d.w0 44 4
def ODesc.list (d : ODesc) : Nat := bits d.w0 20 20

/-- The operations that are structural (R341). -/
def EditOp.structural (o : EditOp) : Bool := decide (o.kind = 1) || decide (o.kind = 2) || decide (o.kind = 3)

/-- A PTP operation (R340). -/
def EditOp.ptp (o : EditOp) : Bool := decide (o.kind = 6) || decide (o.kind = 7) || decide (o.kind = 8)

/-- The end of a structural operation (R341). -/
def EditOp.endOff (o : EditOp) : Nat := if o.kind = 2 then o.off else o.off + o.len

/-- The growth of the operations: INSERT lengths less DELETE lengths (R343). -/
def growth (ops : List EditOp) : Int :=
  ops.foldl (fun g o => if o.kind = 2 then g + (o.len : Int) else if o.kind = 3 then g - (o.len : Int) else g) 0

/-- The rewritten length of a frame of `n` bytes. -/
def rewrittenLen (n : Nat) (ops : List EditOp) : Int := (n : Int) + growth ops

/-- KIND of R680 in one operation. -/
def EditOp.badKind (o : EditOp) : Bool :=
  decide (9 ≤ o.kind) || o.dirty || (!o.structural && decide (o.len ≠ 0)) || (o.l4 && !(decide (o.kind = 1) || decide (o.kind = 5)))

/-- KIND (R680). A PTP_RX word that no PTP_RESIDENCE uses is one of the fields R338 marks zero. -/
def ODesc.badKind (d : ODesc) : Bool :=
  (decide (d.kind ≠ 1) && decide (d.kind ≠ 2)) || decide (bits d.w0 40 4 ≠ 0) || decide (bits d.w0 0 20 ≠ 0) ||
  (decide (d.w1 ≠ 0) && !d.ops.any fun o => decide (o.kind = 8)) ||
  (decide (d.kind = 1) && decide (d.list ≠ 0)) || (decide (d.kind = 2) && (decide (d.port ≠ 0) || decide (d.queue ≠ 0))) ||
  d.ops.any EditOp.badKind || d.stop.any EditOp.badKind

/-- The structural operations come first, each at or after the end of the one before, two INSERTs apart (R341). -/
def badOrder : List EditOp → (fin : Bool) → (stop : Nat) → (lastIns : Option Nat) → Bool
  | [], _, _, _ => false
  | o :: r, fin, stop, ins =>
    if o.structural then
      fin || decide (o.off < stop) || (decide (o.kind = 2) && ins.any fun i => decide (o.off ≤ i)) ||
        badOrder r fin o.endOff (if o.kind = 2 then some o.off else ins)
    else badOrder r true stop ins

/-- An L4_CSUM field that meets a REPLACE or DELETE range (R342). -/
def badL4 (ops : List EditOp) : Bool :=
  ops.any fun o => decide (o.kind = 5) && ops.any fun p =>
    (decide (p.kind = 1) || decide (p.kind = 3)) && decide (p.off < o.off + 2) && decide (o.off < p.off + p.len)

/-- RANGE of R680 in one operation, for a frame of `n` bytes. The offset of a finishing operation is no ground for it: R341 bounds the
structural operations alone. -/
def EditOp.badRange (n : Nat) (o : EditOp) : Bool :=
  ((decide (o.kind = 1) || decide (o.kind = 2)) && (decide (o.len = 0) || decide (128 < o.len))) ||
  (decide (o.kind = 3) && decide (o.len = 0)) ||
  ((decide (o.kind = 1) || decide (o.kind = 3)) && decide (n < o.off + o.len)) || (decide (o.kind = 2) && decide (n < o.off))

/-- How many operations satisfy `p`. -/
def countOps (ops : List EditOp) (p : EditOp → Bool) : Nat := (ops.filter p).length

/-- The reason for which TDONE refuses a descriptor for a frame of `n` bytes, the first in value order; 0 when it accepts it
(R344, R680). -/
def ODesc.reason (d : ODesc) (n : Nat) : Nat :=
  let m := rewrittenLen n d.ops
  if d.badKind then 1
  else if badOrder d.ops false 0 none || badL4 d.ops then 2
  else if (decide (d.kind = 1) && decide (131 < d.port)) || d.ops.any (EditOp.badRange n) then 3
  else if decide (128 < growth d.ops) || decide (m < 14) then 4
  else if decide (16 < countOps d.ops EditOp.structural) || decide (2 < countOps d.ops fun o => decide (o.kind = 4)) ||
      decide (1 < countOps d.ops fun o => decide (o.kind = 5)) || decide (1 < countOps d.ops EditOp.ptp) then 5
  else if d.stop.isNone then 6
  else if (d.ops.any fun o => decide (o.kind = 8)) && !d.w1.testBit 0 then 7
  else 0

/-! ### Rewriting -/

/-- The structural operations applied to the received bytes from `cur` on (R340). -/
def applyStruct (f : List Byte) : List EditOp → (cur : Nat) → List Byte
  | [], cur => f.drop cur
  | o :: r, cur =>
    if o.structural then
      slice f cur (o.off - cur) ++ (if o.kind = 3 then [] else o.data) ++ applyStruct f r o.endOff
    else applyStruct f r cur

/-- A ones' complement sum folded to 16 bits. -/
def fold16 (n : Nat) : Nat :=
  let a := n % 65536 + n / 65536
  let b := a % 65536 + a / 65536
  b % 65536 + b / 65536

/-- The ones' complement sum of the big-endian 16-bit words of a byte list. -/
def sumWords : List Byte → Nat
  | [] => 0
  | [a] => a.toNat * 256
  | a :: b :: r => a.toNat * 256 + b.toNat + sumWords r

/-- The bytes that REPLACE operations with L4 = 1 change: received offset, old and new (R342). -/
def changedBytes (f : List Byte) (ops : List EditOp) : List (Nat × Byte × Byte) :=
  (ops.filter fun o => decide (o.kind = 1) && o.l4).flatMap fun o =>
    (List.range o.len).filterMap fun i =>
      let x := o.off + i
      let a := nth 0 f x
      let b := nth 0 o.data i
      if a = b then none else some (x, a, b)

/-- The value that L4_CSUM gives its field, from the received frame `f`; none where it leaves the field alone (R342, RFC 1624). -/
def l4Value (f : List Byte) (ops : List EditOp) (o : EditOp) : Option Nat :=
  let hc := beNat (slice f o.off 2)
  let ch := changedBytes f ops
  let w (x : Nat) (v : Byte) : Nat := if (x + o.off) % 2 = 0 then v.toNat * 256 else v.toNat
  let acc := ch.foldl (fun n c => n + (65535 - w c.1 c.2.1) + w c.1 c.2.2) (65535 - hc)
  let new := if ch.isEmpty then hc else 65535 - fold16 acc
  if o.l4 ∧ hc = 0 then none else some (if o.l4 ∧ new = 0 then 65535 else new)

/-- Where the byte received at `x` stands after the structural operations. -/
def mapOff (ops : List EditOp) (x : Nat) : Nat :=
  ops.foldl (fun n o =>
    if o.kind = 2 ∧ o.off ≤ x then n + o.len else if o.kind = 3 ∧ o.off + o.len ≤ x then n - o.len else n) x

/-- The checksum of an IPv4 header given with its checksum field. -/
def ipv4Csum (hdr : List Byte) : Nat := 65535 - fold16 (sumWords (overlay hdr 10 [0, 0]))

/-- IPV4_CSUM at a rewritten offset (R340); a field outside the frame is not written (log 90). -/
def applyIpv4 (f : List Byte) (off : Nat) : List Byte :=
  let n := (nth 0 f off).toNat % 16 * 4
  if off + 12 ≤ f.length then overlay f (off + 10) (beBytes 2 (ipv4Csum (slice f off n))) else f

/-- One checksum operation on the rewritten frame `g` of the received frame `f` (R340, R342). A field outside the frame is not written:
the model's choice (log 90). -/
def finishOp (f : List Byte) (ops : List EditOp) (g : List Byte) (o : EditOp) : List Byte :=
  if o.kind = 4 then applyIpv4 g o.off
  else if o.kind = 5 then
    match l4Value f ops o with
    | some v => if mapOff ops o.off + 2 ≤ g.length then overlay g (mapOff ops o.off) (beBytes 2 v) else g
    | none => g
  else g

/-- The structural operations of a descriptor applied to the received bytes, then its checksum operations in list order
(R340–R342, R486 step 1). -/
def applyODesc (f : List Byte) (ops : List EditOp) : List Byte := ops.foldl (finishOp f ops) (applyStruct f ops 0)

/-- The two bytes at an offset name a tag (R113). -/
def isTag (f : List Byte) (off : Nat) : Bool :=
  let t := beNat (slice f off 2)
  decide (off + 4 ≤ f.length) && (decide (t = 0x8100) || decide (t = 0x88A8))

/-- The VID replacement of a copy; none where the frame has no tag at byte 12 (R487). -/
def applyVid (f : List Byte) (vid : Nat) : Option (List Byte) :=
  if isTag f 12 then
    let t := beNat (slice f 14 2)
    some (overlay f 14 (beBytes 2 (t / 4096 * 4096 + vid % 4096)))
  else none

/-- The offset of the IP header that follows the Ethernet header directly or after one or two tags, and whether it is IPv6
(R113, R447). An EtherType 0x0800 or 0x86DD whose version nibble is not 4 or 6 is no IP header (DESIGN CHOICE, log 89). -/
def ipHeader (f : List Byte) : Option (Nat × Bool) :=
  let o := if isTag f 12 then (if isTag f 16 then 20 else 16) else 12
  let t := beNat (slice f o 2)
  if o + 3 ≤ f.length then
    if t = 0x0800 ∧ (nth 0 f (o + 2)).toNat / 16 = 4 then some (o + 2, false)
    else if t = 0x86DD ∧ (nth 0 f (o + 2)).toNat / 16 = 6 then some (o + 2, true)
    else none
  else none

/-- The CE request on a frame: the frame marked, or none where it is left unchanged (R447). -/
def applyCe (f : List Byte) : Option (List Byte) :=
  match ipHeader f with
  | none => none
  | some (o, true) =>
    let b := (nth 0 f (o + 1)).toNat
    let e := b / 16 % 4
    if (e = 1 ∨ e = 2) ∧ o + 2 ≤ f.length then some (overlay f (o + 1) [BitVec.ofNat 8 (b / 64 * 64 + 48 + b % 16)]) else none
  | some (o, false) =>
    let b := (nth 0 f (o + 1)).toNat
    let e := b % 4
    if (e = 1 ∨ e = 2) ∧ o + 12 ≤ f.length then
      let old := beNat (slice f o 2)
      let g := overlay f (o + 1) [BitVec.ofNat 8 (b / 4 * 4 + 3)]
      let new := beNat (slice g o 2)
      let hc := beNat (slice f (o + 10) 2)
      some (overlay g (o + 10) (beBytes 2 (65535 - fold16 (65535 - hc + (65535 - old) + new))))
    else none

/-- Pad a rewritten frame to 60 bytes (R343). -/
def padFrame (f : List Byte) : List Byte := if f.length < 60 then padTo f 60 else f

end Sys2Proof.Machine
end

