-- ==== Sys2Proof/Machine/Locks.lean ====
section
/-! DEFINITION. Tasks, threads, locks and channels as every instruction meets them: the accessors of threads and tasks, the issue
priority (R360), the queued locks with their inheritance (R387–R392, R259) and the channels' configuration (R381, R386). -/

namespace Sys2Proof.Machine

/-! ### Threads and tasks -/

/-- Service slots follow the 2,560 task slots (R238). -/
abbrev svcBase : Nat := 2560

/-- The core position of a packet thread (R326). -/
def coreOf (h : Half) (t : TileIx) (n : Fin 128) : UnitId := .core h t (Fin.ofNat 4 (n.val / 32)) (Fin.ofNat 4 (n.val / 8 % 4))

/-- The unit whose state a thread shares: its core position, or its half for a control core. -/
def threadUnit : ThreadRef → UnitId
  | .pk h t n => coreOf h t n
  | .cc h _ => .half h

/-- The half of a thread. -/
def threadHalf : ThreadRef → Half
  | .pk h _ _ => h
  | .cc h _ => h

/-- A control-core thread. -/
def isControl : ThreadRef → Bool
  | .pk _ _ _ => false
  | .cc _ _ => true

/-- Count one in a counter of a packet thread's CORE block; the control cores have none (R318, R395). -/
def State.bumpCore (s : State) (th : ThreadRef) (off : Nat) : State :=
  match th with
  | .pk h t n => s.bump (ownBlk (coreOf h t n)) off
  | .cc _ _ => s

/-- A task or service slot of a tile. -/
def State.task (s : State) (h : Half) (t : TileIx) (k : Nat) : Task := tget Task.init (s.tile h t).tasks k

/-- Change a task. -/
def State.updTask (s : State) (h : Half) (t : TileIx) (k : Nat) (f : Task → Task) : State :=
  s.updTile h t fun x => { x with tasks := tmod Task.init x.tasks k f }

/-- The index of a thread as messages, records and special register 50 show it (R326, R356). -/
def threadIx : ThreadRef → Nat
  | .pk _ _ n => n.val
  | .cc _ n => n.val

/-- THREAD_CTL_t.PRIO of a control-core thread (R360, R621). -/
def State.ccPrio (s : State) (h : Half) (n : Fin 32) : Nat := s.rfld (bCc h) (R.cc_CC_THREAD_CTL + 8 * n.val) 12 3

/-- A thread's issue priority (R360); a thread that serves no task has none, which reads zero. -/
def State.issuePrio (s : State) (th : ThreadRef) : Nat :=
  match th with
  | .pk h t _ => match (s.thread th).task with
    | some k => (s.task h t k).effPrio
    | none => 0
  | .cc h n => if s.ccPrio h n < (s.thread th).raised then (s.thread th).raised else s.ccPrio h n

/-! ### Locks -/

/-- Who asks when a thread executes a lock instruction (R387). -/
def State.partyOf (s : State) (th : ThreadRef) : LockParty :=
  match th with
  | .pk h t _ => .task h t ((s.thread th).task.getD 0)
  | .cc h n => .control h n

/-- The half of a party. -/
def LockParty.half : LockParty → Half
  | .task h _ _ => h
  | .control h _ => h

/-- The half whose LOCKS unit holds a lock (R387). -/
def lockHome (h : Half) (num : Nat) : Half := if num < 4096 then h else 0

/-- A lock of a half's LOCKS unit. -/
def State.lock (s : State) (hm : Half) (num : Nat) : LockState := tget LockState.free (s.locks.get hm) num

/-- Set a lock. -/
def State.setLock (s : State) (hm : Half) (num : Nat) (l : LockState) : State :=
  { s with locks := s.locks.upd hm fun t => tset LockState.free t num l }

/-- The priority in force of a party: EFF_PRIO of a task, the issue priority of a control-core thread (R360, R392). -/
def State.partyPrio (s : State) (p : LockParty) : Nat :=
  match p with
  | .task h t k => (s.task h t k).effPrio
  | .control h n => s.issuePrio (.cc h n)

/-- The locks a party holds: unit and number. -/
def State.heldBy (s : State) (p : LockParty) : List (Half × Nat) :=
  ([0, 1] : List Half).flatMap fun hm => (s.locks.get hm).filterMap fun e => if e.2.holder = some p then some (hm, e.1) else none

/-- The lock a party waits for, if it waits. -/
def State.waitsFor (s : State) (p : LockParty) : Option (Half × Nat) :=
  (([0, 1] : List Half).flatMap fun hm => (s.locks.get hm).filterMap fun e =>
    if e.2.waiters.any (fun w => w.party = p) then some (hm, e.1) else none).head?

/-- A waiter enters a queue behind the entries at its priority and above (R389). -/
def enqueueWaiter (l : List LockWaiter) (w : LockWaiter) : List LockWaiter :=
  l.takeWhile (fun x => decide (w.prio ≤ x.prio)) ++ w :: l.dropWhile (fun x => decide (w.prio ≤ x.prio))

/-- The priority of a holder rises to `q` (R259, R392). -/
def State.raiseParty (s : State) (p : LockParty) (q : Nat) : State :=
  match p with
  | .task h t k => (s.updTask h t k fun x => { x with effPrio := q }).bump (bTsched h t) R.tsched_INHERIT_RAISES
  | .control h n => s.updThread (.cc h n) fun x => { x with raised := q }

/-- The highest priority that waits for the locks a party holds. -/
def State.signalled (s : State) (p : LockParty) : Nat :=
  (s.heldBy p).foldl (fun m e => (s.lock e.1 e.2).waiters.foldl (fun m w => if m < w.prio then w.prio else m) m) 0

/-- The priority of a party falls to the highest of its base and the priorities still signalled (R259). -/
def State.settlePrio (s : State) (p : LockParty) : State :=
  let q := s.signalled p
  match p with
  | .task h t k => s.updTask h t k fun x => { x with effPrio := if x.basePrio < q then q else x.basePrio }
  | .control h n => s.updThread (.cc h n) fun x => { x with raised := q }

/-- A waiter of priority `q` has queued for a lock: its holder is raised, and the chain is followed through at most four locks
(R392). -/
def State.inherit (s : State) (hm : Half) (num q : Nat) : Nat → State
  | 0 =>
    match (s.lock hm num).holder with
    | none => s
    | some p => if s.partyPrio p < q then s.bump (bLocks hm) R.locks_INHERIT_CHAIN_CUT else s
  | fuel + 1 =>
    match (s.lock hm num).holder with
    | none => s
    | some p =>
      if s.partyPrio p < q then
        let s1 := (s.bump (bLocks hm) R.locks_INHERIT_SIGNALS).raiseParty p q
        match s1.waitsFor p with
        | none => s1
        | some (hm2, num2) =>
          let l := s1.lock hm2 num2
          let s2 := s1.setLock hm2 num2
            { l with waiters := enqueueWaiter (l.waiters.filter fun w => w.party ≠ p) { party := p, prio := q } }
          s2.inherit hm2 num2 q fuel
      else s

/-- The thread that a party's instruction waits on. -/
def State.threadOf (s : State) (p : LockParty) : Option ThreadRef :=
  match p with
  | .task h t k => (s.task h t k).thread.map fun n => .pk h t (Fin.ofNat 128 n)
  | .control h n => some (.cc h n)

/-- Set a g-register of a thread: g0 discards the write, and a packet thread keeps 32 bits (R281, R356). -/
def Thread.setG (x : Thread) (r : Nat) (v : DWord) : Thread :=
  if r = 0 then x else { x with g := tset 0 x.g r v }

/-- A g-register of a thread; g0 reads zero. -/
def Thread.getG (x : Thread) (r : Nat) : DWord := if r = 0 then 0 else tget 0 x.g r

/-- A blocked LOCK receives its status and the thread issues again (R388). -/
def State.answerLock (s : State) (p : LockParty) (st : Nat) : State :=
  match s.threadOf p with
  | none => s
  | some th => s.updThread th fun x =>
    match x.phase with
    | .lock gd _ _ => { x.setG gd (BitVec.ofNat 64 st) with phase := .issuing }
    | _ => x

/-- A lock leaves its holder: it goes to the first waiter with the given status, or is left free (R389, R390). -/
def State.passOn (s : State) (hm : Half) (num st : Nat) : State :=
  let l := s.lock hm num
  match l.waiters with
  | [] => s.setLock hm num LockState.free
  | w :: r =>
    ((s.setLock hm num { holder := some w.party, waiters := r }).bump (bLocks hm) R.locks_ACQUIRES).answerLock w.party st

/-- A waiter withdraws from every queue; the holders it raised settle (R390, R392). -/
def State.withdrawWaiter (s : State) (p : LockParty) : State :=
  match s.waitsFor p with
  | none => s
  | some (hm, num) =>
    let l := s.lock hm num
    let s1 := s.setLock hm num { l with waiters := l.waiters.filter fun w => w.party ≠ p }
    match l.holder with
    | none => s1
    | some q => s1.settlePrio q

/-- Every lock of an ended holder passes on as ABANDONED, and its own waiting ends (R390). -/
def State.abandonLocks (s : State) (p : LockParty) : State :=
  (s.heldBy p).foldl (fun s e => (s.passOn e.1 e.2 1).bump (bLocks e.1) R.locks_ABANDONS) (s.withdrawWaiter p)

/-- The locks of the parties of half `h` that H0's LOCKS unit holds for the device pass on as ABANDONED, and waiters of that half
leave every queue (R390, R532). -/
def State.dropHalfLocks (s : State) (h : Half) : State :=
  let deviceWide := (s.locks.get 0).filter fun e => decide (4096 ≤ e.1)
  deviceWide.foldl (fun s e =>
    let l := s.lock 0 e.1
    let s1 := s.setLock 0 e.1 { l with waiters := l.waiters.filter fun w => w.party.half ≠ h }
    match l.holder with
    | some p =>
      if p.half = h then ((s1.passOn 0 e.1 1).settlePrio p).bump (bLocks 0) R.locks_ABANDONS else s1.settlePrio p
    | none => s1) s

/-- A lock request cannot be served: the LOCKS unit that holds the lock is not working, or, for H1, the peer of
either half is lost (R388 UNAVAILABLE, R532). -/
def State.lockUnavailable (s : State) (h : Half) (num : Nat) : Bool :=
  !s.live (.locks (lockHome h num)) || (decide (4096 ≤ num) && decide (h = 1) && (!(s.ford.get 1).peerUp || (s.ford.get 0).lost))

/-- The party may hold no further lock (R387, R388 LIMIT). -/
def State.lockLimit (s : State) (p : LockParty) : Bool :=
  match p with
  | .task _ _ _ => decide (8 ≤ (s.heldBy p).length)
  | .control _ _ => false

/-- The status a lock request draws at once; none when the lock is held by another (R388). -/
def State.lockStatus (s : State) (p : LockParty) (num : Nat) : Option Nat :=
  if 4352 ≤ num then some 7
  else if s.lockUnavailable p.half num then some 8
  else if (s.lock (lockHome p.half num) num).holder = some p then some 5
  else if s.lockLimit p then some 6
  else if (s.lock (lockHome p.half num) num).holder = none then some 0
  else none

/-- The lock is taken by the party (R388 GRANTED). -/
def State.takeLock (s : State) (p : LockParty) (num : Nat) : State :=
  let hm := lockHome p.half num
  (s.setLock hm num { s.lock hm num with holder := some p }).bump (bLocks hm) R.locks_ACQUIRES

/-- A LOCK queues behind the holder (R389, R392). -/
def State.queueLock (s : State) (p : LockParty) (num : Nat) : State :=
  let hm := lockHome p.half num
  let q := s.partyPrio p
  let l := s.lock hm num
  ((s.setLock hm num { l with waiters := enqueueWaiter l.waiters { party := p, prio := q } }).bump (bLocks hm)
    R.locks_CONTENDED).inherit hm num q 4

/-- UNLOCK: the status, and the state after the release (R388, R389). -/
def State.unlock (s : State) (p : LockParty) (num : Nat) : State × Nat :=
  if 4352 ≤ num then (s, 7)
  else if s.lockUnavailable p.half num then (s, 8)
  else
    let hm := lockHome p.half num
    if (s.lock hm num).holder = some p then ((s.passOn hm num 0).settlePrio p, 0) else (s, 4)

/-- Interrupt 2 of a forced holder: on its thread, or at the resume of a parked task (R370, R391). -/
def State.forcedInt (s : State) (p : LockParty) : State :=
  match s.threadOf p with
  | some th => s.raiseInt th 2
  | none =>
    match p with
    | .task h t k => s.updTask h t k fun x => { x with lockForced := true }
    | .control _ _ => s

/-- LOCKS.FORCE at a half's LOCKS acts on a held lock: on the half's own numbers, and at H0 on the device-wide numbers (R387, R391). -/
def State.forceLock (s : State) (h : Half) (num : Nat) : State :=
  if num < 4096 ∨ (h = 0 ∧ num < 4352) then
    match (s.lock h num).holder with
    | none => s
    | some p => (((s.passOn h num 1).settlePrio p).forcedInt p).bump (bLocks h) R.locks_FORCED
  else s

/-! ### Channels -/

/-- The register block, the offset of CH_CFG_0 and the number of channels of a thread's tile or half (R381). -/
def chanBlk : ThreadRef → Blk × Nat
  | .pk h t _ => (bChannel h t, R.channel_CH_CFG)
  | .cc h _ => (bCc h, R.cc_CC_CH_CFG)

/-- Channels a thread can name: 256 of a tile, 64 of a half's control cores (R381). -/
def chanCount : ThreadRef → Nat
  | .pk _ _ _ => 256
  | .cc _ _ => 64

/-- Message slots of the pool (R381, R621). -/
def chanPool : ThreadRef → Nat
  | .pk _ _ _ => 4096
  | .cc _ _ => 1024

/-- CH_CFG_n as a thread's channel `n` has it (R386). -/
def State.chCfg (s : State) (th : ThreadRef) (n : Nat) : DWord := s.reg (chanBlk th).1 ((chanBlk th).2 + 8 * n)

/-- Capacity of a channel in messages (R386). -/
def chCap (c : DWord) : Nat :=
  let d := fld c 8 4
  2 ^ (if d = 0 then 1 else if 6 < d then 6 else d)

/-- The messages of a channel, oldest first. -/
def State.chan (s : State) (th : ThreadRef) (n : Nat) : List Message :=
  match th with
  | .pk h t _ => tget [] (s.tile h t).chans n
  | .cc h _ => tget [] (s.cc.get h).chans n

/-- Set the messages of a channel. -/
def State.setChan (s : State) (th : ThreadRef) (n : Nat) (l : List Message) : State :=
  match th with
  | .pk h t _ => s.updTile h t fun x => { x with chans := tset [] x.chans n l }
  | .cc h _ => { s with cc := s.cc.upd h fun x => { x with chans := tset [] x.chans n l } }

/-- Count in a counter of the tile's channel block; the control cores' channels have none. -/
def State.bumpChan (s : State) (th : ThreadRef) (off n : Nat) : State :=
  match th with
  | .pk h t _ => s.bumpBy (bChannel h t) off n
  | .cc _ _ => s

/-- Set bits of EVPEND of a thread. -/
def State.setEv (s : State) (th : ThreadRef) (m : Word) : State := s.updThread th fun x => { x with evpend := x.evpend ||| m }

/-- The thread `n` beside a thread: of the same tile, or of the same half's control cores. -/
def peerThread (th : ThreadRef) (n : Nat) : ThreadRef :=
  match th with
  | .pk h t _ => .pk h t (Fin.ofNat 128 n)
  | .cc h _ => .cc h (Fin.ofNat 32 n)

/-- A message enters a channel, with its notification (R383, R386). -/
def State.sendMessage (s : State) (th : ThreadRef) (n : Nat) (m : Message) : State :=
  let c := s.chCfg th n
  let s1 := (s.setChan th n (s.chan th n ++ [m])).bumpChan th R.channel_CH_SENT 1
  if bit c 31 then
    let b := if fld c 16 5 < 8 then 8 else fld c 16 5
    s1.setEv (peerThread th (fld c 24 7)) (BitVec.ofNat 32 (1 <<< b))
  else s1

/-- The depths of the enabled channels of a tile or half but channel `n` (R386). -/
def State.chanDepths (s : State) (th : ThreadRef) (n : Nat) : Nat :=
  (List.range (chanCount th)).foldl (fun a k => if k ≠ n ∧ bit (s.chCfg th k) 0 then a + chCap (s.chCfg th k) else a) 0

/-- A write of CH_CFG_n (R386): the enable within the pool of message slots, the disable with its discard, and DEPTH_LOG2 held while
EN is 1. -/
def State.writeChCfg (s : State) (th : ThreadRef) (n : Nat) (v : DWord) : State :=
  let old := s.chCfg th n
  let depth := if bit old 0 then fld old 8 4 else fld v 8 4
  let base : DWord := BitVec.ofNat 64 (fld v 31 1 <<< 31 ||| fld v 24 7 <<< 24 ||| fld v 16 5 <<< 16 ||| depth <<< 8)
  let set (x : DWord) (s : State) : State := s.setReg (chanBlk th).1 ((chanBlk th).2 + 8 * n) x
  if bit v 0 ∧ ¬ bit old 0 then
    if chanPool th < s.chanDepths th n + chCap base then set (setFld base 1 1 1) s else set (setFld base 0 1 1) s
  else if ¬ bit v 0 ∧ bit old 0 then
    set base ((s.bumpChan th R.channel_CH_DISCARDED (s.chan th n).length).setChan th n [])
  else set (setFld base 0 1 (fld old 0 1)) s

end Sys2Proof.Machine
end

