-- ==== Sys2Proof/Machine/Operands.lean ====
section
/-! DEFINITION. The instruction word of a thread: its formats and fields (R346), the assignment of every primary opcode and
function (R348–R354, R357), and the fields that must be zero (R347). -/

namespace Sys2Proof.Machine

/-! ### Fields (R346) -/

def wPrim (w : Nat) : Nat := bits w 26 6
/-- gd, ga, gl or gq: [25:21]. -/
def wA (w : Nat) : Nat := bits w 21 5
/-- gs, gb, gx or gr: [20:16]. -/
def wB (w : Nat) : Nat := bits w 16 5
/-- gt, gc or gn: [15:11]. -/
def wC (w : Nat) : Nat := bits w 11 5
def wCc (w : Nat) : Nat := bits w 7 4
def wS (w : Nat) : Bool := w.testBit 6
def wFn6 (w : Nat) : Nat := bits w 0 6
def wImm16 (w : Nat) : Nat := bits w 0 16
def wSub (w : Nat) : Nat := bits w 13 3
def wShS (w : Nat) : Bool := w.testBit 12
def wAd (w : Nat) : Nat := bits w 9 2
def wAs (w : Nat) : Nat := bits w 7 2
/-- The count of ASL, ASR and EXTR: [20:13] (R351). -/
def wAc (w : Nat) : Nat := bits w 13 8
def wImm8 (w : Nat) : Nat := bits w 8 8
def wFn8 (w : Nat) : Nat := bits w 0 8
def wDc (w : Nat) : Nat := bits w 9 2
def wInst (w : Nat) : Nat := bits w 7 2
def wFn7 (w : Nat) : Nat := bits w 0 7

/-- The displacement of B and CALL in bytes, and that of the conditional branches (R310). -/
def wOff26 (w : Nat) : Int := signed 26 w * 4
def wOff16 (w : Nat) : Int := signed 16 w * 4
/-- The hint bit H. -/
def wH (w : Nat) : Bool := w.testBit 16

/-- The instructions, one for each row of the opcode table that is one. -/
inductive FkOp where
  | add | sub | adds | subs | addus | subus | neg | abs | and | or | xor | andn | min | max | minu | maxu | sel | clz | ctz | popc
  | bswap | cmp | tst | sll | srl | sra | ror | sls | mul | mulh | mulhu | div | divu | rem | remu | fmul
  | addi | andi | ori | xori | li | lui | cmpi
  | slli | srli | srai | rori | slsi | extu | exts | ins
  | mpyf | macf | msuf | maci | aadd | asub | aneg | asl | asr | aclr | mvg | mvas | extr | mval | mvah
  | nop | mfsr | mtsr | clrf | trap | brk | tret | jr | callr | ret | rspush | rspop
  | b | call | bcc | bz | bnz
  | lb | lbu | lh | lhu | lw | lhn | lwn | sb | sh | sw | shn | swn | push | pop
  | frd | hrd | hwr
  | lookup | groupSelect | lpm | flowFind | flowFindInsert | flowWrite | flowDelete | meter | count | search | step
  | twait | tdone | tdrop | postf
  | waitev | evsig | chstg | chsend | chrecv | chdrop | lock | unlock | trylock
  | alu64 | addi64 | ld | sd | lwu | swapm | addm | casm | drain | gate | gret | mfkr | mtkr | xlinv
  | cvcfg | cvupd | cvfin | cvappend | cvcheck | hcfg | hash | hashm | confCmp | confFind | confStep | fdiv | log2 | exp2 | expReq
  | cplock | cpunlock | cpsave | cprestore
  deriving DecidableEq, Repr

/-- The instruction of a primary-0x00 function (R349). -/
def aluOp (fn : Nat) : Option FkOp :=
  match fn with
  | 0x00 => some .add | 0x01 => some .sub | 0x02 => some .adds | 0x03 => some .subs
  | 0x04 => some .addus | 0x05 => some .subus | 0x06 => some .neg | 0x07 => some .abs
  | 0x08 => some .and | 0x09 => some .or | 0x0A => some .xor | 0x0B => some .andn
  | 0x0C => some .min | 0x0D => some .max | 0x0E => some .minu | 0x0F => some .maxu
  | 0x10 => some .sel | 0x11 => some .clz | 0x12 => some .ctz | 0x13 => some .popc
  | 0x14 => some .bswap | 0x15 => some .cmp | 0x16 => some .tst
  | 0x18 => some .sll | 0x19 => some .srl | 0x1A => some .sra | 0x1B => some .ror | 0x1C => some .sls
  | 0x20 => some .mul | 0x21 => some .mulh | 0x22 => some .mulhu | 0x23 => some .div
  | 0x24 => some .divu | 0x25 => some .rem | 0x26 => some .remu | 0x28 => some .fmul
  | _ => none

/-- The instruction marked M (R296). -/
def FkOp.isM (o : FkOp) : Bool :=
  match o with
  | .neg | .abs | .sls | .div | .fmul | .slsi | .macf | .msuf | .maci | .aadd | .asub | .aneg | .asl | .extr => true
  | _ => false

/-- A one-operand instruction of format R, which leaves gt unused (R349). -/
def FkOp.unary (o : FkOp) : Bool :=
  match o with
  | .neg | .abs | .clz | .ctz | .popc | .bswap => true
  | _ => false

/-- `o` where the fields that must be zero are. -/
def when (ok : Bool) (o : FkOp) : Option FkOp := if ok then some o else none

/-- The instruction of a format-R word (R347, R349). -/
def decodeR (w : Nat) : Option FkOp :=
  match aluOp (wFn6 w) with
  | none => none
  | some o =>
    when ((decide (wCc w = 0) || decide (o = .sel)) && (!wS w || o.isM) && (decide (wC w = 0) || !o.unary) &&
      (decide (wA w = 0) || !(decide (o = .cmp) || decide (o = .tst)))) o

/-- The instruction of primary 0x08 (R350). -/
def decodeSh (w : Nat) : Option FkOp :=
  match wSub w with
  | 0 => when (!wShS w && decide (bits w 8 4 = 0)) .slli
  | 1 => when (!wShS w && decide (bits w 8 4 = 0)) .srli
  | 2 => when (!wShS w && decide (bits w 8 4 = 0)) .srai
  | 3 => when (!wShS w && decide (bits w 8 4 = 0)) .rori
  | 4 => when (decide (bits w 8 4 = 0)) .slsi
  | 5 => when (!wShS w && decide (bits w 10 2 = 0)) .extu
  | 6 => when (!wShS w && decide (bits w 10 2 = 0)) .exts
  | _ => when (!wShS w && decide (bits w 10 2 = 0)) .ins

/-- The instruction of primary 0x09 (R351): each uses only the fields its operation names. -/
def decodeA (w : Nat) : Option FkOp :=
  let a0 := decide (wA w = 0)
  let b0 := decide (wB w = 0)
  let c0 := decide (wC w = 0)
  let ad0 := decide (wAd w = 0)
  let as0 := decide (wAs w = 0)
  let s0 := !wS w
  let low0 := decide (bits w 11 2 = 0)
  match wFn6 w with
  | 0x00 => when (a0 && as0 && s0) .mpyf
  | 0x01 => when (a0 && as0) .macf
  | 0x02 => when (a0 && as0) .msuf
  | 0x03 => when (a0 && as0) .maci
  | 0x04 => when (a0 && b0 && c0) .aadd
  | 0x05 => when (a0 && b0 && c0) .asub
  | 0x06 => when (a0 && b0 && c0 && as0) .aneg
  | 0x07 => when (a0 && low0 && as0) .asl
  | 0x08 => when (a0 && low0 && as0 && s0) .asr
  | 0x09 => when (a0 && b0 && c0 && as0 && s0) .aclr
  | 0x0A => when (a0 && c0 && as0 && s0) .mvg
  | 0x0B => when (b0 && as0 && s0) .mvas
  | 0x0C => when (low0 && ad0 && decide (wAc w ≤ 31)) .extr
  | 0x0D => when (b0 && c0 && ad0 && s0) .mval
  | 0x0E => when (b0 && c0 && ad0 && s0) .mvah
  | _ => none

/-- Special register `n` exists (R284, R352, R362). -/
def srAssigned (n : Nat) : Bool := decide (n ≤ 6) || (decide (16 ≤ n) && decide (n ≤ 28)) || (decide (48 ≤ n) && decide (n ≤ 50))

/-- The instruction of primary 0x0A (R352). -/
def decodeP (w : Nat) : Option FkOp :=
  let a0 := decide (wA w = 0)
  let b0 := decide (wB w = 0)
  let i0 := decide (wImm8 w = 0)
  match wFn8 w with
  | 0x00 => when (a0 && b0 && i0) .nop
  | 0x01 => when (b0 && srAssigned (wImm8 w)) .mfsr
  | 0x02 => when (a0 && srAssigned (wImm8 w)) .mtsr
  | 0x03 => when (a0 && b0) .clrf
  | 0x04 => when (a0 && b0) .trap
  | 0x05 => when (a0 && b0 && i0) .brk
  | 0x06 => when (a0 && b0 && i0) .tret
  | 0x07 => when (a0 && i0) .jr
  | 0x08 => when (a0 && i0) .callr
  | 0x09 => when (a0 && b0 && i0) .ret
  | 0x0A => when (a0 && i0) .rspush
  | 0x0B => when (b0 && i0) .rspop
  | _ => none

/-- The instruction of primary 0x1E (R346, R348). -/
def decodeM (w : Nat) : Option FkOp :=
  if bits w 0 5 ≠ 0 then none
  else
    match bits w 6 3 with
    | 0 => when (!w.testBit 5) .frd
    | 1 => some .hrd
    | 2 => some .hwr
    | _ => none

/-- The request of primary 0x20 (R334, R335). -/
def decodeT (w : Nat) : Option FkOp :=
  let c0 := decide (wC w = 0)
  let i0 := decide (bits w 0 4 = 0)
  let f0 := !w.testBit 4
  match bits w 5 4 with
  | 0 => when i0 .lookup
  | 1 => when (i0 && f0) .groupSelect
  | 2 => when (i0 && f0) .lpm
  | 3 => when (c0 && i0) .flowFind
  | 4 => when (c0 && i0 && f0) .flowFindInsert
  | 5 => when (i0 && f0) .flowWrite
  | 6 => when (i0 && f0) .flowDelete
  | 7 => when f0 .meter
  | 8 => when (i0 && f0 && decide (wB w = 0) && decide (wDc w = 0)) .count
  | 9 => when (c0 && f0) .search
  | 10 => when f0 .step
  | _ => none

/-- The task instruction of primary 0x21 (R353). -/
def decodeTask (w : Nat) : Option FkOp :=
  let a0 := decide (wA w = 0)
  let b0 := decide (wB w = 0)
  let i0 := decide (wImm8 w = 0)
  match wFn8 w with
  | 0x00 => when (a0 && b0 && decide (wImm8 w < 16)) .twait
  | 0x01 => when (b0 && i0) .tdone
  | 0x02 => when (a0 && b0 && i0) .tdrop
  | 0x03 => when (decide (128 ≤ wImm8 w) && decide (wImm8 w ≤ 131)) .postf
  | _ => none

/-- The event, channel and lock instructions of primaries 0x22 to 0x24 (R348, R365, R368, R382, R388). -/
def decodeEv (w : Nat) : Option FkOp :=
  let a0 := decide (wA w = 0)
  let b0 := decide (wB w = 0)
  let i := wImm8 w
  match wPrim w, wFn8 w with
  | 0x22, 0x00 => when (decide (i < 4)) .waitev
  | 0x22, 0x01 => when (decide (i < 2)) .evsig
  | 0x23, 0x00 => when (a0 && decide (i < 8)) .chstg
  | 0x23, 0x01 => when (decide (1 ≤ i) && decide (i ≤ 8)) .chsend
  | 0x23, 0x02 => when (decide (i = 0)) .chrecv
  | 0x23, 0x03 => when (a0 && b0 && decide (i = 0)) .chdrop
  | 0x24, 0x00 => when (decide (i < 2)) .lock
  | 0x24, 0x01 => when (decide (i = 0)) .unlock
  | 0x24, 0x02 => when (decide (i = 0)) .trylock
  | _, _ => none

/-- Instances of a cluster's unit of primary 0x38 + u (R396). -/
def cpInstances (u : Nat) : Nat :=
  match u with
  | 0 => 4
  | 1 => 2
  | 2 => 1
  | 3 => 1
  | 7 => 4
  | _ => 0

/-- The coprocessor function of format C (R354, R396, R399, R414, R419, R420, R427). -/
def decodeC (w : Nat) : Option FkOp :=
  let u := wPrim w - 0x38
  let a0 := decide (wA w = 0)
  let b0 := decide (wB w = 0)
  let c0 := decide (wC w = 0)
  let d0 := decide (wDc w = 0)
  if cpInstances u ≤ wInst w then none
  else
    match wFn7 w with
    | 0x7C => when (b0 && c0 && d0) .cplock
    | 0x7D => when (b0 && c0 && d0) .cpunlock
    | 0x7E => when (a0 && c0) .cpsave
    | 0x7F => when (a0 && c0 && d0) .cprestore
    | f =>
      match u, f with
      | 0, 0 => when (b0 && c0) .cvcfg
      | 0, 1 => when c0 .cvupd
      | 0, 2 => when (a0 && b0) .cvfin
      | 0, 3 => some .cvappend
      | 0, 4 => some .cvcheck
      | 1, 0 => when (b0 && c0) .hcfg
      | 1, 1 => some .hash
      | 1, 2 => some .hashm
      | 2, 0 => some .confCmp
      | 2, 1 => some .confFind
      | 2, 2 => when b0 .confStep
      | 3, 0 => some .fdiv
      | 3, 1 => when b0 .log2
      | 3, 2 => when b0 .exp2
      | 7, _ => some .expReq
      | _, _ => none

/-- The instruction of a Flako-C primary (R357). -/
def decodeK (w : Nat) : Option FkOp :=
  let a0 := decide (wA w = 0)
  let b0 := decide (wB w = 0)
  let c0 := decide (wC w = 0)
  let i0 := decide (wImm8 w = 0)
  match wPrim w with
  | 0x30 =>
    match decodeR w with
    | some o => when (!(decide (o = .sls) || decide (o = .sel) || decide (o = .fmul))) .alu64
    | none => none
  | 0x31 => some .addi64
  | 0x32 => some .ld
  | 0x33 => some .sd
  | 0x34 => some .lwu
  | 0x35 =>
    if wCc w ≠ 0 ∨ wS w then none
    else
      match wFn6 w with
      | 0 => some .swapm
      | 1 => some .addm
      | 2 => some .casm
      | 3 => when (a0 && b0 && c0) .drain
      | _ => none
  | 0x36 =>
    match wFn8 w with
    | 0 => when (a0 && b0) .gate
    | 1 => when (a0 && b0 && i0) .gret
    | 2 => when (b0 && decide (wImm8 w ≤ 8)) .mfkr
    | 3 => when (a0 && decide (wImm8 w ≤ 8)) .mtkr
    | 4 => when (a0 && i0) .xlinv
    | _ => none
  | _ => none

/-- The instruction a word holds on a packet core (`control` false) or a control core; none traps ILLEGAL (R314, R347, R348, R356). -/
def fkDecode (control : Bool) (w : Nat) : Option FkOp :=
  match wPrim w with
  | 0x00 => decodeR w
  | 0x01 => some .addi
  | 0x02 => some .andi
  | 0x03 => some .ori
  | 0x04 => some .xori
  | 0x05 => when (decide (wB w = 0)) .li
  | 0x06 => when (decide (wB w = 0)) .lui
  | 0x07 => when (decide (wA w = 0)) .cmpi
  | 0x08 => decodeSh w
  | 0x09 => decodeA w
  | 0x0A => decodeP w
  | 0x0B => some .b
  | 0x0C => some .call
  | 0x0D => when (decide (bits w 17 5 = 0)) .bcc
  | 0x0E => when (decide (bits w 17 4 = 0)) .bz
  | 0x0F => when (decide (bits w 17 4 = 0)) .bnz
  | 0x10 => some .lb
  | 0x11 => some .lbu
  | 0x12 => some .lh
  | 0x13 => some .lhu
  | 0x14 => some .lw
  | 0x15 => some .lhn
  | 0x16 => some .lwn
  | 0x18 => some .sb
  | 0x19 => some .sh
  | 0x1A => some .sw
  | 0x1B => some .shn
  | 0x1C => some .swn
  | 0x1D =>
    match wImm16 w with
    | 0 => when (decide (wA w = 0)) .push
    | 1 => when (decide (wB w = 0)) .pop
    | _ => none
  | 0x1E => if control then none else decodeM w
  | 0x20 => if control then none else decodeT w
  | 0x21 =>
    match decodeTask w with
    | some o => when (!control || decide (o = .postf)) o
    | none => none
  | 0x22 => decodeEv w
  | 0x23 => decodeEv w
  | 0x24 => decodeEv w
  | p =>
    if 0x30 ≤ p ∧ p ≤ 0x37 then (if control then decodeK w else none)
    else if 0x38 ≤ p then (if control then none else decodeC w)
    else none

/-- The instructions whose dependence counter an issue raises (R250, R354). -/
def FkOp.counts : FkOp → Bool
  | .frd | .hrd | .hwr | .lookup | .groupSelect | .lpm | .flowFind | .flowFindInsert | .flowWrite | .flowDelete | .meter | .search | .step
  | .cpsave | .cvcfg | .cvupd | .cvfin | .cvappend | .cvcheck | .hcfg | .hash | .hashm | .confCmp | .confFind | .confStep
  | .fdiv | .log2 | .exp2 | .expReq => true
  | _ => false

end Sys2Proof.Machine
end

