-- ==== Sys2Proof/Machine/Tasks.lean ====
section
/-! DEFINITION. The life of a task (R238–R271): dependence counters and waiting, the responses of asynchronous requests, completion,
discard, release and what a released task hands on, and the coprocessor instances and Bramble scan that end with it. -/

namespace Sys2Proof.Machine

/-! ### Dependence counters (R250–R253) -/

/-- Dependence counter DCj. -/
def Task.dc (x : Task) (j : Nat) : Nat :=
  match j with
  | 0 => x.dc0
  | 1 => x.dc1
  | 2 => x.dc2
  | _ => x.dc3

/-- Set dependence counter DCj. -/
def Task.setDc (x : Task) (j v : Nat) : Task :=
  match j with
  | 0 => { x with dc0 := v }
  | 1 => { x with dc1 := v }
  | 2 => { x with dc2 := v }
  | _ => { x with dc3 := v }

/-- Every counter that a TWAIT mask names is zero (R251). -/
def Task.waitOver (x : Task) (mask : Nat) : Bool :=
  (List.range 4).all fun j => !mask.testBit j || decide (x.dc j = 0)

/-- A dependence counter has fallen: a parked task whose wait is over becomes READY, a waiting one goes on (R253). -/
def State.checkWait (s : State) (h : Half) (t : TileIx) (k : Nat) : State :=
  let x := s.task h t k
  if x.state = .parked then
    if x.waitOver x.waitMask then s.updTask h t k fun x => { x with state := .ready, resumed := true } else s
  else
    match x.thread with
    | none => s
    | some n =>
      let th := ThreadRef.pk h t (Fin.ofNat 128 n)
      match (s.thread th).phase with
      | .twait m =>
        if x.waitOver m then
          (s.updThread th fun y => { y with phase := .issuing, pc := y.pc + 4 }).updTask h t k fun x =>
            { x with state := if x.state = .waiting then .running else x.state }
        else s
      | _ => s

/-- A dependence counter of a task falls by one (R250, R253). -/
def State.dcDown (s : State) (h : Half) (t : TileIx) (k j : Nat) : State :=
  (s.updTask h t k fun x => x.setDc j (x.dc j - 1)).checkWait h t k

/-- A dependence counter of a task rises by one (R250). -/
def State.dcUp (s : State) (h : Half) (t : TileIx) (k j : Nat) : State := s.updTask h t k fun x => x.setDc j (x.dc j + 1)

/-! ### Slots -/

/-- The task-store offset of a slot's context block (R238). -/
def ctxOff (k : Nat) : Nat := if svcBase ≤ k then 1146880 + 128 * (k - svcBase) else 448 * k

/-- A response of the task is still to arrive. -/
def Tile.outstanding (x : Tile) (k : Nat) : Bool := (x.responses.any fun r => r.slot = k) || x.cancels.any fun c => c.slot = k

/-- A task that is complete and released gives its slot back once nothing is outstanding (R249, R254). -/
def State.settleSlot (s : State) (h : Half) (t : TileIx) (k : Nat) : State :=
  let x := s.task h t k
  if x.complete ∧ x.released ∧ ¬ (s.tile h t).outstanding k then s.updTask h t k fun _ => Task.init else s

/-- Bytes are stored in a tile's RAM or task store; a word that is covered whole is no longer poisoned (R558). -/
def Tile.put (x : Tile) (l : Loc) (bs : List Byte) : Tile :=
  let keep (a w : Nat) : Bool := decide (4 * w < a) || decide (a + bs.length < 4 * w + 4)
  match l with
  | .ram a => { x with ram := tstore x.ram a bs, poisonRam := x.poisonRam.filter (keep a) }
  | .store a => { x with store := tstore x.store a bs, poisonStore := x.poisonStore.filter (keep a) }

/-- A poisoned word lies among `n` bytes at a place (R558). -/
def Tile.poisoned (x : Tile) (l : Loc) (n : Nat) : Bool :=
  let hit (a w : Nat) : Bool := decide (a < 4 * w + 4) && decide (4 * w < a + n)
  match l with
  | .ram a => x.poisonRam.any (hit a)
  | .store a => x.poisonStore.any (hit a)

/-- Bytes of a tile's RAM or task store. -/
def Tile.get (x : Tile) (l : Loc) (n : Nat) : List Byte :=
  match l with
  | .ram a => tbytes x.ram a n
  | .store a => tbytes x.store a n

/-- The place `n` bytes after a place. -/
def Loc.add (l : Loc) (n : Nat) : Loc :=
  match l with
  | .ram a => .ram (a + n)
  | .store a => .store (a + n)

/-- A request's response: it is written and its counter falls, or, for a task that has ended, it is discarded (R250, R254). -/
def State.respond (s : State) (h : Half) (t : TileIx) (r : Response) : State :=
  let s1 := s.updTile h t fun x => { x with responses := x.responses.filter fun y => y.id ≠ r.id }
  if (s.task h t r.slot).complete then s1.settleSlot h t r.slot
  else (s1.updTile h t fun x => x.put r.loc r.bytes).dcDown h t r.slot r.dc

/-- The response with a given identity. -/
def Tile.response? (x : Tile) (id : Nat) : Option Response := x.responses.find? fun r => r.id = id

/-- Change a response. -/
def State.updResponse (s : State) (h : Half) (t : TileIx) (id : Nat) (f : Response → Response) : State :=
  s.updTile h t fun x => { x with responses := x.responses.map fun r => if r.id = id then f r else r }

/-- A new response enters a tile; its identity is the least above all others'. -/
def Tile.nextId (x : Tile) : Nat := x.responses.foldl (fun m r => if m ≤ r.id then r.id + 1 else m) 0

/-! ### Coprocessor instances (R399–R404) -/

/-- The key of a lockable instance: unit 0 check value, 1 hash, 3 expansion. -/
def instKey (cluster unit inst : Nat) : Nat := 16 * cluster + 4 * unit + inst

/-- The instance a request's unit works for, if it is a lockable one. -/
def ReqUnit.inst? : ReqUnit → Option Nat
  | .coproc u c i => if u < 2 then some (instKey c u i) else if u = 7 then some (instKey c 3 i) else none
  | .expansion c i _ => some (instKey c 3 i)
  | _ => none

/-- An instance is released: its state returns to reset, and every recorded thread receives FREE_EV (R400, R401). -/
def State.releaseInst (s : State) (h : Half) (t : TileIx) (key : Nat) : State :=
  let i := tget CpInst.reset (s.tile h t).insts key
  let e := s.rfld (bCoproc h t (Fin.ofNat 4 (key / 16))) R.coproc_CP_CFG 0 5
  let b := if e < 8 then 8 else e
  i.waiters.foldl (fun s n => s.setEv (.pk h t (Fin.ofNat 128 n)) (BitVec.ofNat 32 (1 <<< b)))
    (s.updTile h t fun x => { x with insts := tset CpInst.reset x.insts key CpInst.reset })

/-- Operations of a slot on an instance are still running. -/
def Tile.instBusy (x : Tile) (k key : Nat) : Bool := x.responses.any fun r => decide (r.slot = k) && decide (r.unit.inst? = some key)

/-- The instances of an ended holder are released once its operations on them have completed (R403). -/
def State.endInsts (s : State) (h : Half) (t : TileIx) (k : Nat) : State :=
  ((s.tile h t).insts.filter fun e => e.2.holder = some k).foldl (fun s e =>
    let s1 := s.bump (bCoproc h t (Fin.ofNat 4 (e.1 / 16))) R.coproc_CP_ABANDON
    if (s.tile h t).instBusy k e.1 then
      s1.updTile h t fun x => { x with insts := tmod CpInst.reset x.insts e.1 fun i => { i with leaving := true } }
    else s1.releaseInst h t e.1) s

/-- An operation on an instance has completed: an instance whose holder has ended is released with the last one (R403). -/
def State.settleInst (s : State) (h : Half) (t : TileIx) (k key : Nat) : State :=
  let i := tget CpInst.reset (s.tile h t).insts key
  if i.leaving ∧ i.holder = some k ∧ ¬ (s.tile h t).instBusy k key then s.releaseInst h t key else s

/-! ### Completion, discard and release (R249, R254–R256) -/

/-- A Bramble scan of an ended task is cancelled (R171). -/
def State.cancelScan (s : State) (h : Half) (t : TileIx) (k : Nat) : State :=
  if (s.tile h t).scans.contains k then
    ((s.updTile h t fun x => { x with scans := x.scans.filter (· ≠ k) }).updTask h t k fun x => { x with scan := .none }).bump
      (bBramble h t) R.bramble_SCANS_CANCELLED
  else s

/-- What every end of a task does: the staged message is abandoned (R385), the thread is free (R254), the locks pass on (R390), the
instances are released (R403) and the scan is cancelled (R171). -/
def State.endHold (s : State) (h : Half) (t : TileIx) (k : Nat) : State :=
  let x := s.task h t k
  let staged := match x.thread with
    | some n => !(s.thread (.pk h t (Fin.ofNat 128 n))).staging.isEmpty
    | none => match x.saved with
      | some y => !y.staging.isEmpty
      | none => false
  let s1 := if staged then s.bump (bChannel h t) R.channel_CHANNEL_ABANDON else s
  let s2 := s1.abandonLocks (.task h t k)
  let s3 := match x.thread with
    | some n => s2.updThread (.pk h t (Fin.ofNat 128 n)) fun y => { y with phase := .free, task := none, staging := [] }
    | none => s2
  let s4 := s3.updTask h t k fun x => { x with thread := none, saved := none, resumed := false, lockForced := false }
  let s5 := s4.updIng h fun i => { i with posters := i.posters.filter fun th =>
    match x.thread with
    | some n => th ≠ .pk h t (Fin.ofNat 128 n)
    | none => true }
  ((s5.endInsts h t k).updTile h t fun y => { y with lostInsts := y.lostInsts.filter fun e => decide (e.1 ≠ k) }).cancelScan h t k

/-- The task's hold on its chain ends (R68, R442). -/
def State.endChain (s : State) (h : Half) (t : TileIx) (k : Nat) : State :=
  match (s.task h t k).chain with
  | some c => (s.release h c).updTask h t k fun x => { x with chain := none }
  | none => s

/-- Bytes rounded up to a multiple of 16. -/
def pad16 (n : Nat) : Nat := (n + 15) / 16 * 16

/-- The crossing record of a chain (R524). -/
def crossRec (id : Nat) (c : Chain) (list : Option Nat) (port queue : Nat) : CrossRec :=
  { chain := id, frame := c, list := list, port := port, queue := queue,
    credits := (32 + pad16 c.bytes.length + pad16 c.odesc.length + 255) / 256 }

/-- A chain is given to the crossing, or refused while the peer is lost (R524, R532). -/
def State.cross (s : State) (h : Half) (id : Nat) (list : Option Nat) (port queue : Nat) : State :=
  if (s.ford.get h).peerUp then
    let c := s.chain h id
    { s with
      ford := s.ford.upd h fun f => { f with waiting := f.waiting ++ [crossRec id c list port queue] }
      conf := s.conf.upd h fun x => { x with crossing := tput x.crossing id c.stamp } }
  else (s.bump (bFord h) R.ford_XHALF_DROP).release h id

/-- A released task passes its output to admission, to the replication engine or to Ford (R249, R449, R453). -/
def State.forward (s : State) (h : Half) (t : TileIx) (k : Nat) : State :=
  let x := s.task h t k
  match x.output, x.chain with
  | some d, some c =>
    let o := parseODesc d
    let s1 := s.updTask h t k fun x => { x with chain := none }
    if o.kind = 2 then s1.updBuf h fun b => { b with walks := b.walks ++ [{ chain := c, list := o.list }] }
    else if egressHalf h o.port = h then
      s1.updBuf h fun b =>
        { b with copies := b.copies ++ [{ chain := c, port := o.port, q := 16 * lpOf o.port + o.queue, mcast := false, vidEn := false,
                                          vid := 0 }] }
    else s1.cross h c none o.port o.queue
  | _, _ => s

/-- A task of no order or of atomic order is released when it completes (R249). -/
def State.releaseFree (s : State) (h : Half) (t : TileIx) (k : Nat) : State :=
  ((s.forward h t k).updTask h t k fun x => { x with state := .draining, released := true }).settleSlot h t k

/-- Confluence releases an ordered task (R265); `late` marks one that was overtaken and has output (R267). -/
def State.releaseOrdered (s : State) (h : Half) (t : TileIx) (k : Nat) (late : Bool) : State :=
  let x := s.task h t k
  let s1 := s.bump (bHalf h) R.half_ORDERED_RELEASES
  let s2 := match late && x.output.isSome, x.chain with
    | true, some c => (s1.bump (bHalf h) R.half_LATE_RELEASES).updChain h c fun c => { c with late := true }
    | _, _ => s1
  s2.releaseFree h t k

/-- The domain of an ordered task has it in its window. -/
def State.inWindow (s : State) (h : Half) (t : TileIx) (k : Nat) : Bool :=
  (tget [] (s.conf.get h).windows (s.task h t k).domain).contains (t.val, k)

/-- A packet task ends with an output or with none; it is released at once or held for Confluence (R249, R254, R265, R267). -/
def State.completePacket (s : State) (h : Half) (t : TileIx) (k : Nat) (out : Option (List Byte)) : State :=
  let s1 := s.endHold h t k
  let s2 := if out.isNone then s1.endChain h t k else s1
  let s3 := s2.updTask h t k fun x => { x with complete := true, output := out, state := .held }
  let x := s3.task h t k
  if x.mode = .ordered then
    if s3.inWindow h t k then s3 else s3.releaseOrdered h t k true
  else s3.releaseFree h t k

/-- A service run ends and its slot waits for flags again (R261). -/
def State.endService (s : State) (h : Half) (t : TileIx) (k : Nat) : State :=
  ((s.endHold h t k).updTask h t k fun x => { x with complete := true, released := true, state := .draining }).settleSlot h t k

/-- The program ends its task by TDONE or TDROP (R254). -/
def State.completeTask (s : State) (h : Half) (t : TileIx) (k : Nat) (out : Option (List Byte)) : State :=
  if svcBase ≤ k then s.endService h t k else s.completePacket h t k out

/-- The reasons of a discard (R256). -/
abbrev drUnitReset : Nat := 1
abbrev drKilled : Nat := 2
abbrev drTrapUnhandled : Nat := 3
abbrev drDoubleTrap : Nat := 4
abbrev drMemory : Nat := 5
abbrev drCoreFault : Nat := 6

/-- The counters and DISCARD_LAST of a discard (R256). -/
def State.countDiscard (s : State) (h : Half) (t : TileIx) (k reason : Nat) : State :=
  let b := bTsched h t
  let svc := decide (svcBase ≤ k)
  let slot := if svc then k - svcBase else k
  let s1 := (s.bump b R.tsched_TASKS_DISCARDED).bump b (R.tsched_DISCARD_BY_REASON + 8 * (reason - 1))
  let s2 := if reason = drCoreFault then s1.bump (bTile h t) R.tile_CORE_FAULT_DISCARDS else s1
  s2.setReg b R.tsched_DISCARD_LAST
    (BitVec.ofNat 64 (reason <<< 56 ||| b2n svc <<< 51 ||| slot <<< 36 ||| (s.task h t k).stamp.toNat % 2 ^ 32))

/-- A task is discarded (R255): for Confluence it is complete with no output, it no longer holds OLDEST_LIVE, and its slot drains. -/
def State.discardTask (s : State) (h : Half) (t : TileIx) (k reason : Nat) : State :=
  let x := s.task h t k
  if x.state = .free ∨ x.complete then s
  else
    let s1 := s.countDiscard h t k reason
    if svcBase ≤ k then s1.endService h t k
    else
      let s2 := (s1.endHold h t k).endChain h t k
      let s3 := s2.updTask h t k fun x => { x with complete := true, output := none, state := .draining }
      if x.mode = .ordered then
        if s3.inWindow h t k then s3 else s3.releaseOrdered h t k false
      else (s3.updTask h t k fun x => { x with released := true }).settleSlot h t k

/-! ### Order keys (R243) -/

/-- The order key of a task: stamp, ingress port, arrival sequence. -/
def Task.key (x : Task) : Nat × Nat × Nat := (x.stamp.toNat, x.port, x.seq)

/-- One order key is earlier than another (R243). -/
def keyLt (a b : Nat × Nat × Nat) : Bool :=
  decide (a.1 < b.1) || (decide (a.1 = b.1) && (decide (a.2.1 < b.2.1) || (decide (a.2.1 = b.2.1) && decide (a.2.2 < b.2.2))))

/-- The tasks of a tile that are not FREE, by slot. -/
def State.liveTasks (s : State) (h : Half) (t : TileIx) : List (Nat × Task) := (s.tile h t).tasks.filter fun e => e.2.state ≠ .free

/-- The program bank that a stamp names: NEW_BANK from the last switch stamp on (R273). -/
def State.bankOf (s : State) (h : Half) (stamp : DWord) : Nat :=
  let newBank := s.rfld (bHalf h) R.half_IMG_CTL 0 1
  if (s.ing.get h).imgLast.toNat ≤ stamp.toNat then newBank else 1 - newBank

/-- The program bank of a tile. -/
def Tile.bank (x : Tile) (b : Nat) : Tbl Byte := if b % 2 = 0 then x.bank0 else x.bank1

/-- The word at a packet thread's PC, when it serves a task and is not waiting. -/
def State.nextWord (s : State) (h : Half) (t : TileIx) (n : Fin 128) : Option Nat :=
  let x := s.thread (.pk h t n)
  match x.task with
  | none => none
  | some k =>
    if x.phase = .issuing then some (leNat (tbytes ((s.tile h t).bank (s.task h t k).bank) (x.pc.toNat % 0x20000) 4)) else none

/-- A thread is stalled under R250: its next instruction would take a dependence counter above 255. -/
def State.stalled (s : State) (th : ThreadRef) : Bool :=
  match th with
  | .pk h t n =>
    match s.nextWord h t n with
    | none => false
    | some w =>
      (match fkDecode false w with
       | some o => o.counts
       | none => false) && decide (255 ≤ (s.task h t ((s.thread (.pk h t n)).task.getD 0)).dc (wDc w))
  | .cc _ _ => false

end Sys2Proof.Machine
end

