-- ==== Sys2Proof/Machine/Admit.lean ====
section
/-! DEFINITION. Admission (R444–R447), replication (R448–R453), deep queues (R454–R459), the hold and flush of a port that is down
(R460–R463) and the reclaim sweep (R438). -/

namespace Sys2Proof.Machine

/-- A frame received over Ford stops registering once its list is read and each of its targets is queued or refused (R270). -/
def State.settleReg (s : State) (h : Half) (id : Nat) : State :=
  let b := s.buf.get h
  if (b.copies.any fun c => c.chain = id) || (b.walks.any fun w => w.chain = id) then s
  else { s with conf := s.conf.upd h fun x => { x with registered := tdel x.registered id } }

/-! ### Admission of one copy (R445) -/

/-- A copy is refused under port counter `k`, and its hold ends (R445, R451). -/
def State.refuse (s : State) (h : Half) (c : Copy) (k : Nat) : State := (s.bumpPort h (c.q / 16) k).release h c.chain

/-- The cells of a copy: those of its frame and of its output descriptor (R445). -/
def State.copyCells (s : State) (h : Half) (c : Copy) : Nat := (s.chain h c.chain).size

/-- The threshold test passes (R445, R446). -/
def State.underThreshold (s : State) (h : Half) (q depth c : Nat) : Bool :=
  let cfg := s.qcfg h q
  decide (depth + c ≤ fld cfg 16 16) || decide (depth + c ≤ alphaTimes (fld cfg 12 4) (s.poolFree h (fld cfg 10 2)))

/-- The copy goes to the spilled part (R455). -/
def State.goesDeep (s : State) (h : Half) (c : Copy) : Bool :=
  bit (s.qcfg h c.q) 8 &&
    (!(s.spill h c.q).isEmpty || !s.underThreshold h c.q (depthOf (s.queue h c.q)) (s.copyCells h c))

/-- The blocks of a spilled copy of `c` cells (R454). -/
def spillBlocksFor (c : Nat) : Nat := (64 + 128 * c + 511) / 512

/-- SPILL_SIZE (R466). -/
def State.spillSize (s : State) (h : Half) : Nat := s.rfld (bBuffer h) R.buffer_SPILL_SIZE 0 32

/-- Bytes that the half has sent to its spill region in the last microsecond (R456). -/
def State.spillRecent (s : State) (h : Half) : List (Nat × Nat) := (s.buf.get h).spillRate.filter fun e => s.ticks < e.1 + usTicks

/-- The spill rate limit in bytes per microsecond (R456). -/
abbrev spillLimit : Nat := 1000000

/-- The spilled part refuses a copy of `c` cells (R456). -/
def State.spillRefuses (s : State) (h : Half) (q c : Nat) : Bool :=
  let n := spillBlocksFor c
  decide (64 * fld (s.qcfg h q) 48 16 < spillBlocks (s.spill h q) + n) ||
  decide (s.spillSize h < (s.buf.get h).blocksUsed.length + n) ||
  decide (spillLimit < (s.spillRecent h).foldl (fun m e => m + e.2) (64 + 128 * c))

/-- The first free block at or after `i`. -/
def nextBlock (used : List Nat) (size i : Nat) : Nat → Nat
  | 0 => i
  | fuel + 1 => if used.contains i then nextBlock used size ((i + 1) % size) fuel else i

/-- `n` free blocks; which ones the spec leaves open, so each search starts at a free value. -/
def pickBlocks (used : List Nat) (size seed : Nat) : Nat → List Nat
  | 0 => []
  | n + 1 =>
    let i := nextBlock used size ((Config.freeValue seed 32).toNat % size) (used.length + 1)
    i :: pickBlocks (i :: used) size (seed + 1) n

/-- The queue entry of an admitted copy; `depth` is what its ECN test uses (R447, R451, R455). -/
def State.entryOf (s : State) (h : Half) (c : Copy) (depth : Nat) : QEntry :=
  { chain := c.chain, cells := s.copyCells h c, vidEn := c.vidEn, vid := c.vid,
    ce := bit (s.qcfg h c.q) 9 && decide (fld (s.qcfg h c.q) 32 16 ≤ depth) }

/-- The counters of an admitted copy (R445, R447). -/
def State.countAdmit (s : State) (h : Half) (q : Nat) (e : QEntry) : State :=
  let s1 := s.bumpPort h (q / 16) pcAdmitted
  if e.ce then s1.bumpPort h (q / 16) pcEcn else s1

/-- A copy joins the tail of the on-chip part of its queue. -/
def State.admitOnChip (s : State) (h : Half) (c : Copy) : State :=
  let e := s.entryOf h c (depthOf (s.queue h c.q))
  (s.withSched h (c.q / 16) fun s => s.setQueue h c.q (s.queue h c.q ++ [e])).countAdmit h c.q e

/-- A copy joins the tail of the spilled part of its queue, which holds the chain until its last write is accepted (R454–R457). -/
def State.admitDeep (s : State) (h : Half) (c : Copy) : State :=
  let e := s.entryOf h c (depthOf (s.queue h c.q) + spillCells (s.spill h c.q))
  let n := spillBlocksFor e.cells
  let b := s.buf.get h
  let x : SpillEntry :=
    { frame := s.chain h c.chain, entry := e, blocks := pickBlocks b.blocksUsed (s.spillSize h) s.fresh n, writing := some c.chain }
  let s1 := (s.setSpill h c.q (s.spill h c.q ++ [x])).updBuf h fun b =>
    { b with spillRate := s.spillRecent h ++ [(s.ticks, 64 + 128 * e.cells)] }
  ({ s1 with fresh := s.fresh + n }).countAdmit h c.q e

/-- The tests of R445 in order. -/
def State.takeCopy (s : State) (h : Half) (c : Copy) : State :=
  let lp := c.q / 16
  let n := s.copyCells h c
  if (s.chain h c.chain).broken then s.refuse h c pcError
  else if ¬ s.portAccepts h lp then s.refuse h c pcDown
  else if entryStore ≤ (s.buf.get h).entryCount then (s.bump (bBuffer h) R.buffer_ENTRY_FULL).release h c.chain
  else if s.goesDeep h c then
    if s.spillRefuses h c.q n then s.refuse h c pcSpill else s.admitDeep h c
  else if ¬ s.underThreshold h c.q (depthOf (s.queue h c.q)) n then s.refuse h c pcThreshold
  else if c.mcast then s.admitOnChip h c
  else
    let p := fld (s.qcfg h c.q) 10 2
    let (s1, ok) := s.moveCharge h c.chain p
    if ok && decide (n ≤ s.poolFree h p) then s1.admitOnChip h c else s.refuse h c pcPool

/-- The BUFFER decides on the first copy that waits (R444, R445). -/
def doAdmitCopy (h : Half) (s : State) : State :=
  match (s.buf.get h).copies with
  | [] => s
  | c :: r =>
    if s.live (.buffer h) then ((s.updBuf h fun b => { b with copies := r }).takeCopy h c).settleReg h c.chain else s

/-! ### Replication (R448–R453) -/

/-- A target of a walk: its port and queue, its VID replacement, and whether it is the crossing copy (R449). -/
structure Target where
  port : Nat
  queue : Nat
  vidEn : Bool
  vid : Nat
  crossing : Bool
  deriving DecidableEq, Repr

/-- What a walk found: its targets, whether it ended at an entry that is not valid or takes no part, and whether it would read an
entry withheld for its rewrite, for which it waits (R233, R449). -/
structure Walk where
  targets : List Target
  broke : Bool
  waits : Bool
  deriving DecidableEq, Repr

/-- Entries of the REPL table (R448). -/
abbrev replEntries : Nat := 131072

/-- The target an entry gives, if any (R449, R453): `crossed` tells that the frame came over Ford, `done` that the crossing copy has
its place. -/
def targetOf (h : Half) (inPort : Nat) (crossed done : Bool) (e : Nat) : Option Target :=
  let port := bits e 56 8
  let t : Target := { port := port, queue := bits e 52 4, vidEn := e.testBit 49, vid := bits e 36 12, crossing := false }
  if egressHalf h port = h then (if e.testBit 50 ∧ port = inPort then none else some t)
  else if crossed ∨ done then none
  else some { t with crossing := true }

/-- The walk of a list from entry `i` on; `fuel` is what is left of its 1,024 entries (R449). -/
def State.walkFrom (s : State) (h : Half) (c : Chain) (done : Bool) (i : Nat) : Nat → Walk
  | 0 => ⟨[], false, false⟩
  | fuel + 1 =>
    let e := tget 0 (s.tab.get h).repl i
    if (s.tab.get h).held 9 i then ⟨[], false, true⟩
    else if ¬ e.testBit 48 ∨ ¬ s.visible h (bits e 34 2) (bits e 26 8) c.stamp.toNat then ⟨[], true, false⟩
    else
      let t := targetOf h c.inPort c.crossed done e
      let rest : Walk :=
        if e.testBit 51 then ⟨[], false, false⟩
        else s.walkFrom h c (done || t.any fun x => x.crossing) (bits e 0 17) fuel
      { rest with targets := t.toList ++ rest.targets }

/-- The walk of a list (R449). -/
def State.replWalk (s : State) (h : Half) (c : Chain) (list : Nat) : Walk :=
  if replEntries ≤ list then ⟨[], false, false⟩ else s.walkFrom h c false list 1024

/-- One copy for a target; the crossing copy goes to Ford at its position (R451). -/
def State.offer (h : Half) (id list : Nat) (s : State) (t : Target) : State :=
  if t.crossing then s.cross h id (some list) t.port t.queue
  else
    s.updBuf h fun b =>
      { b with copies := b.copies ++
          [{ chain := id, port := t.port, q := 16 * lpOf t.port + t.queue, mcast := true, vidEn := t.vidEn, vid := t.vid }] }

/-- The targets of a walk are served: REFCNT, the charge, and one copy each (R450, R451). -/
def State.replicate (s : State) (h : Half) (id list : Nat) (found : List Target) : State :=
  let ts := found.take 511
  let s0 := if 511 < found.length then s.bump (bBuffer h) R.buffer_REPL_TRUNCATED else s
  if ts.isEmpty then s0.freeChain h id
  else
    let s1 := s0.updChain h id fun c => { c with refcnt := ts.length, mcast := true }
    let (s2, ok) := s1.moveCharge h id (s1.rfld (bBuffer h) R.buffer_MC_CFG 0 2)
    if ok then ts.foldl (State.offer h id list) s2
    else (ts.foldl (fun s t => s.bumpPort (egressHalf h t.port) (lpOf t.port) pcPool) s1).freeChain h id

/-- The replication engine walks the list of the first frame that waits (R449–R451). -/
def doReplWalk (h : Half) (s : State) : State :=
  match (s.buf.get h).walks with
  | [] => s
  | w :: r =>
    let c := s.chain h w.chain
    let x := s.replWalk h c w.list
    if s.live (.buffer h) = false ∨ x.waits then s
    else
      let s1 := s.updBuf h fun b => { b with walks := r }
      let s2 := if replEntries ≤ w.list then s1.bump (bBuffer h) R.buffer_BAD_LIST else s1
      let s3 := if x.broke then s2.bump (bBuffer h) R.buffer_REPL_BROKEN else s2
      (s3.replicate h w.chain w.list x.targets).settleReg h w.chain

/-! ### Deep queues (R454–R459) -/

/-- The requester of spill traffic (R454, R498). -/
def reqSpill : HbmReq := ⟨.buffer, srcSpill, true⟩

/-- The address of a block of the spill region (R454). -/
def State.blockAddr (s : State) (h : Half) (i : Nat) : Nat := 512 * s.rfld (bBuffer h) R.buffer_SPILL_BASE 9 39 + 512 * i

/-- The bytes of a spilled copy: a record of 64 bytes whose layout the spec leaves open, then the cells (R454). -/
def spillImage (seed : Nat) (c : Chain) : List Byte :=
  leBytes 64 (Config.freeValue seed 512).toNat ++ padTo c.bytes (128 * c.cells.length) ++ padTo c.odesc (128 * c.ocells.length)

/-- The blocks of a spilled copy are written; `off` counts the bytes written. -/
def State.writeBlocks (s : State) (h : Half) (img : List Byte) : List Nat → (off : Nat) → State
  | [], _ => s
  | i :: r, off => ((s.hbmWrite h reqSpill (s.blockAddr h i) (slice img off 512)).1).writeBlocks h img r (off + 512)

/-- The blocks of a spilled copy are read: the bytes, and whether a part erred. -/
def State.readBlocks (s : State) (h : Half) : List Nat → (left : Nat) → State × List Byte × Bool
  | [], _ => (s, [], false)
  | i :: r, left =>
    let n := if left < 512 then left else 512
    let (s1, bs, e) := s.hbmRead h reqSpill (s.blockAddr h i) n
    let (s2, cs, f) := s1.readBlocks h r (left - n)
    (s2, bs ++ cs, e || f)

/-- The controller accepts the last write of the first spilled copy of a queue that is being written: its hold ends (R457). A copy whose
chain cannot be read whole is discarded with its blocks instead (R443, R464, R465). -/
def doSpillWritten (h : Half) (q : Nat) (s : State) : State :=
  match (s.spill h q).find? fun x => x.writing.isSome with
  | none => s
  | some x =>
    match x.writing with
    | none => s
    | some id =>
      if s.unreadable h id then (s.setSpill h q ((s.spill h q).filter fun y => y.writing ≠ some id)).errorDrop h h (q / 16) id
      else
      let s1 := (s.used).writeBlocks h (spillImage s.fresh x.frame) x.blocks 0
      let s2 := s1.setSpill h q ((s1.spill h q).map fun y => if y.blocks = x.blocks then { y with writing := none } else y)
      s2.release h id

/-- The spilled copy at the front leaves its queue, and its blocks are freed. -/
def State.popSpill (s : State) (h : Half) (q : Nat) : State :=
  (s.setSpill h q (dropFirst (s.spill h q))).updBuf h fun b => { b with fillRetry := tdel b.fillRetry q }

/-- The spill engine reads the copy at the front of a queue's spilled part back (R437, R441, R458, R459). -/
def State.fillFront (s : State) (h : Half) (q : Nat) (x : SpillEntry) : State :=
  let n := 64 + 128 * x.entry.cells
  let drop (s : State) (code d : Nat) : State := ((s.popSpill h q).bumpPort h (q / 16) pcError).report (.buffer h) code d
  if x.blocks.any fun i => decide (s.spillSize h ≤ i) then drop s.used F.BUF_POINTER (s.free 20).toNat
  else
    let p := fld (s.qcfg h q) 10 2
    if ¬ s.canTake h p x.entry.cells then s.updBuf h fun b => { b with fillRetry := tput b.fillRetry q (s.ticks + usTicks) }
    else
      let (s1, bs, err) := s.readBlocks h x.blocks n
      if err then drop s1 F.BUF_SPILL_DATA (nth 0 x.blocks 0)
      else
        let nc := x.frame.cells.length
        let no := x.frame.ocells.length
        let c : Chain :=
          { x.frame with
              bytes := slice bs 64 x.frame.bytes.length
              odesc := slice bs (64 + 128 * nc) x.frame.odesc.length
              pool := p
              broken := false }
        let (s2, id) := s1.addChain h c nc no
        (s2.withSched h (q / 16) fun s => s.setQueue h q (s.queue h q ++ [{ x.entry with chain := id }])).popSpill h q

/-- The copy at the front of a queue's spilled part may be filled (R458, R461): the queue is not frozen, its on-chip part is below
FILL_CELLS, and the copy's own write is over. -/
def State.fillable (s : State) (h : Half) (q : Nat) : Option SpillEntry :=
  match s.spill h q with
  | [] => none
  | x :: _ =>
    if s.live (.buffer h) ∧ s.hold h (q / 16) = .up ∧ x.writing = none ∧
        depthOf (s.queue h q) < s.rfld (bBuffer h) R.buffer_SPILL_CFG 0 16 then some x
    else none

/-- SPILL_FILL: a first request for the copy at the front (R458). -/
def doSpillFill (h : Half) (q : Nat) (s : State) : State :=
  match s.fillable h q with
  | none => s
  | some x => if (tget? (s.buf.get h).fillRetry q).isSome then s else s.fillFront h q x

/-- FILL_RETRY: 1 µs after a fill that failed, a new request (R441). -/
def doFillRetry (h : Half) (q : Nat) (s : State) : State :=
  match s.fillable h q, tget? (s.buf.get h).fillRetry q with
  | some x, some t => if t ≤ s.ticks then (s.bump (bBuffer h) R.buffer_FILL_RETRIES).fillFront h q x else s
  | _, _ => s

/-! ### Port down, hold and flush (R460–R463) -/

/-- No copy is queued for a port. -/
def State.portEmpty (s : State) (h : Half) (lp : Nat) : Bool :=
  ((classesOf lp).flatMap queuesOf).all fun q => (s.queue h q).isEmpty && (s.spill h q).isEmpty

/-- A flush whose queues are empty ends (R462). -/
def State.flushEnd (s : State) (h : Half) (lp : Nat) : State :=
  if s.hold h lp = .flushing ∧ s.portEmpty h lp then s.setHold h lp (if s.portUp h lp then .up else .empty) else s

/-- A port goes down: its transmit reads are lost and its queues freeze for HOLD_US, or are flushed at once (R461, R463). A port that had
come up again during its flush starts a fresh hold. -/
def State.portFalls (s : State) (h : Half) (lp : Nat) : State :=
  let s1 := s.loseSelected h lp
  if s1.hold h lp = .up ∨ s1.hold h lp = .flushing then
    let us := s1.holdUs h lp
    if us = 0 then (s1.setHold h lp .flushing).flushEnd h lp
    else (s1.setHold h lp .hold).updBuf h fun b => { b with holdEnd := tput b.holdEnd lp (s1.ticks + us * usTicks) }
  else s1

/-- A port that is up again: a hold ends, and a flushed port starts with empty queues (R462). -/
def State.portReturns (s : State) (h : Half) (lp : Nat) : State :=
  if s.portUp h lp = true ∧ (s.hold h lp = .hold ∨ s.hold h lp = .empty) then
    (s.setHold h lp .up).updBuf h fun b => { b with holdEnd := tdel b.holdEnd lp }
  else s

/-- A hold expires with the port still down (R462). -/
def doHoldExpire (h : Half) (lp : Nat) (s : State) : State :=
  if s.hold h lp = .hold ∧ tget 0 (s.buf.get h).holdEnd lp ≤ s.ticks ∧ s.portUp h lp = false then
    ((s.setHold h lp .flushing).updBuf h fun b => { b with holdEnd := tdel b.holdEnd lp }).flushEnd h lp
  else s

/-- The flush discards one entry of a port: on-chip entries first, then spilled copies whose write is over (R462). -/
def doFlushEntry (h : Half) (lp : Nat) (s : State) : State :=
  if s.hold h lp = .flushing ∧ s.live (.buffer h) = true then
    let qs := (classesOf lp).flatMap queuesOf
    match qs.find? fun q => !(s.queue h q).isEmpty with
    | some q =>
      match s.queue h q with
      | e :: r => ((((s.withSched h lp fun s => s.setQueue h q r).bumpPort h lp pcFlush).release h e.chain)).flushEnd h lp
      | [] => s
    | none =>
      match qs.find? fun q => (s.spill h q).any fun x => x.writing.isNone with
      | some q =>
        let l := s.spill h q
        let l' := (l.takeWhile fun x => x.writing.isSome) ++ dropFirst (l.dropWhile fun x => x.writing.isSome)
        (((s.setSpill h q l').updBuf h fun b => { b with fillRetry := tdel b.fillRetry q }).bumpPort h lp pcFlush).flushEnd h lp
      | none => s.flushEnd h lp
  else s

/-! ### The reclaim sweep (R438) -/

/-- A queue entry, a selected copy, a copy on its way, a spill record or a Ford crossing names the chain. -/
def State.chainNamed (s : State) (h : Half) (id : Nat) : Bool :=
  let b := s.buf.get h
  (b.queues.any fun e => e.2.any fun x => x.chain = id) || ((s.sched.get h).sel.any fun e => e.2.any fun x => x.entry.chain = id && !x.readDone) ||
  (b.copies.any fun c => c.chain = id) || (b.walks.any fun w => w.chain = id) ||
  (b.spilled.any fun e => e.2.any fun x => decide (x.writing = some id)) || (tget? (s.conf.get h).crossing id).isSome

/-- A reclaimed chain is counted and reported (R438). -/
def State.reclaimed (s : State) (h : Half) : State := (s.bump (bBuffer h) R.buffer_RECLAIMED).report (.buffer h) F.BUF_RECLAIM

/-- A lost cell returns to the free list once its OWNER is no in-use head (R438); the chain it was lost to counts as reclaimed with its
last such cell (DESIGN CHOICE, log 91). -/
def State.reclaimLost (s : State) (h : Half) (x : LostCell) : State :=
  let b := s.buf.get h
  if b.chains.any fun e => decide (nth 0 e.2.cells 0 = x.owner) then s
  else
    let rest := b.lost.filter fun y => decide (y.cell ≠ x.cell)
    let s1 := s.updBuf h fun b => { (b.uncharge x.pool 1) with lost := rest, badCells := b.badCells.filter (· ≠ x.cell) }
    if rest.any fun y => decide (y.owner = x.owner) then s1 else s1.reclaimed h

/-- The sweep visits a cell: it frees a lost cell without an owner, and a broken chain that nothing names any more (R438). -/
def doReclaimVisit (h : Half) (cell : Nat) (s : State) : State :=
  if s.live (.buffer h) then
    match s.chainWith h cell with
    | some e => if e.2.broken ∧ s.chainNamed h e.1 = false then (s.freeChain h e.1).reclaimed h else s
    | none =>
      match (s.buf.get h).lost.find? fun x => decide (x.cell = cell) with
      | some x => s.reclaimLost h x
      | none => s
  else s

/-! ### The commands -/

/-- ADMIT_COPY (R445). -/
def execAdmitCopy (h : Half) (s : State) : Out := .next (doAdmitCopy h s)

/-- REPL_WALK (R449). -/
def execReplWalk (h : Half) (s : State) : Out := .next (doReplWalk h s)

/-- SPILL_WRITE_ACCEPTED (R457). -/
def execSpillWriteAccepted (h : Half) (q : Fin 1088) (s : State) : Out := .next (s.orWait (doSpillWritten h q.val))

/-- SPILL_FILL (R458). -/
def execSpillFill (h : Half) (q : Fin 1088) (s : State) : Out := .next (s.orWait (doSpillFill h q.val))

/-- FILL_RETRY (R441). -/
def execFillRetry (h : Half) (q : Fin 1088) (s : State) : Out := .next (s.orWait (doFillRetry h q.val))

/-- PORT_HOLD_EXPIRE (R462). -/
def execPortHoldExpire (h : Half) (port : Fin 68) (s : State) : Out := .next (doHoldExpire h port.val s)

/-- PORT_FLUSH_ENTRY (R462). -/
def execPortFlushEntry (h : Half) (port : Fin 68) (s : State) : Out := .next (doFlushEntry h port.val s)

/-- RECLAIM_VISIT (R438). -/
def execReclaimVisit (h : Half) (cell : Fin 786432) (s : State) : Out := .next (doReclaimVisit h cell.val s)

end Sys2Proof.Machine
end

