-- ==== Sys2Proof/Machine/Cal.lean ====
section
/-! DEFINITION. Calibrated quantities (R609, R631): their ranges, FACTORY, USER and EFFECTIVE, and the EFFECTIVE values that lanes and PLLs run
with, which they take at a training and at a start. -/

namespace Sys2Proof.Machine

/-- The user range and the effective range of an item (R609). -/
def calRange (item : Nat) : (Int × Int) × (Int × Int) :=
  if item < 2048 then
    match item % 4 with
    | 0 => ((-16, 15), (0, 63))
    | 1 => ((-8, 7), (-16, 15))
    | 2 => ((-8, 7), (-32, 31))
    | _ => ((-4, 3), (0, 15))
  else if item < 2112 then ((-32, 31), (-128, 127))
  else if item < 2128 then ((-64, 63), (-256, 255))
  else ((-8, 7), (-32, 31))

/-- The last item (R610). -/
abbrev calTop : Nat := 2135

/-- USER of an item as written, 16 bits. -/
def State.calUser (s : State) (item : Nat) : Nat := tget 0 s.pv.user item

/-- USER clamped to the user range (R609). -/
def State.calOffset (s : State) (item : Nat) : Int := clampInt (calRange item).1.1 (calRange item).1.2 (signed 16 (s.calUser item))

/-- EFFECTIVE of an item (R609). -/
def State.calEff (s : State) (item : Nat) : Int :=
  clampInt (calRange item).2.1 (calRange item).2.2 ((Config.factory item).toInt + s.calOffset item)

/-- Items take effect: the hardware runs with their EFFECTIVE from now on (R609). -/
def State.calApply (s : State) (items : List Nat) : State :=
  { s with pv := { s.pv with calUsed := items.foldl (fun t i => tput t i (s.calEff i)) s.pv.calUsed } }

/-- The items of the four lanes of a port (R100, R609). -/
def portItems (p : PortIx) : List Nat := (List.range 16).map fun i => 16 * p.val + i

/-- The PLL items that take effect at a start: the root PLL at one caused by PORESET_N alone (R609, R631). -/
def pllItems (por : Bool) : List Nat := (if por then [2128] else []) ++ [2129, 2130, 2131, 2132, 2133, 2134, 2135]

end Sys2Proof.Machine
end

