-- ==== Sys2Proof/Machine/Crc.lean ====
section
/-! DEFINITION. Check values and hashes: the CRC of R413, the hash H of R133 and its masked form, shared by the classifier, the
check-value unit, the hash unit, the frame check sequence and Privet's store. -/

namespace Sys2Proof.Machine

/-- The low `w` bits of a number in reverse order. -/
def reflect (v : Nat) : Nat → Nat
  | 0 => 0
  | w + 1 => 2 ^ w * (v % 2) + reflect (v / 2) w

/-- The parameters of a CRC (R412). -/
structure Crc where
  w : Nat
  poly : Nat
  init : Nat
  xorout : Nat
  refin : Bool
  refout : Bool
  deriving DecidableEq, Repr

/-- One bit of a message enters the running value (R413). -/
def Crc.bit (c : Crc) (r : Nat) (b : Bool) : Nat :=
  let x := (r <<< 1) % 2 ^ c.w
  if (r.testBit (c.w - 1)) != b then x ^^^ (c.poly % 2 ^ c.w) else x

/-- One byte of a message enters the running value (R413). -/
def Crc.step (c : Crc) (r : Nat) (b : Byte) : Nat :=
  let v := if c.refin then reflect b.toNat 8 else b.toNat
  [7, 6, 5, 4, 3, 2, 1, 0].foldl (fun r i => c.bit r (v.testBit i)) r

/-- The running value after some bytes. -/
def Crc.run (c : Crc) (r : Nat) (bs : List Byte) : Nat := bs.foldl c.step r

/-- crc_final of R413. -/
def Crc.final (c : Crc) (r : Nat) : Nat := (if c.refout then reflect r c.w else r) ^^^ (c.xorout % 2 ^ c.w)

/-- The CRC of a whole message, from INIT. -/
def Crc.of (c : Crc) (bs : List Byte) : Nat := c.final (c.run (c.init % 2 ^ c.w) bs)

/-- CRC-32C with a given initial value (R133). -/
def crc32c (init : Nat) : Crc := ⟨32, 0x1EDC6F41, init, 0xFFFFFFFF, true, true⟩

/-- The frame check sequence: the 32-bit CRC of R413 with polynomial 0x04C1_1DB7. -/
def crcFcs : Crc := ⟨32, 0x04C11DB7, 0xFFFFFFFF, 0xFFFFFFFF, true, true⟩

/-- The 64-bit CRC of a Ford flit (R413, R522). -/
def crcFord : Crc := ⟨64, 0x42F0E1EBA9EA3693, 2 ^ 64 - 1, 2 ^ 64 - 1, true, true⟩

/-- Bits i to i + 31 of a Toeplitz key of 40 bytes, taken modulo 320 (R133). -/
def keyWindow (key : Nat) (i : Nat) : Nat := ((key * 2 ^ 320 + key) >>> (608 - i % 320)) % 2 ^ 32

/-- The bits of a byte, most significant first. -/
def byteBits (b : Byte) : List Bool := [7, 6, 5, 4, 3, 2, 1, 0].map fun i => b.getLsbD i

/-- The Toeplitz hash of a bit string from bit `i` on (R133). -/
def toeplitz (key : Nat) (i : Nat) : List Bool → Nat
  | [] => 0
  | b :: r => (if b then keyWindow key i else 0) ^^^ toeplitz key (i + 1) r

/-- H of R133 over some bytes: CRC-32C when `crc` holds, else Toeplitz. -/
def hashH (crc : Bool) (key : List Byte) (crcInit : Nat) (bs : List Byte) : Nat :=
  if crc then (crc32c crcInit).of bs else toeplitz (beNat (padTo key 40)) 0 (bs.flatMap byteBits)

/-- Bytes ANDed with mask bytes. -/
def maskBytes (bs mask : List Byte) : List Byte := (bs.zip mask).map fun p => p.1 &&& p.2

end Sys2Proof.Machine
end

