-- ==== Sys2Proof/Machine/Flow.lean ====
section
/-! DEFINITION. Flow records (R194–R199): their place in HBM and in the stash, and what the FLOW unit does with them. -/

namespace Sys2Proof.Machine

/-- The FLOW unit as a requester at the HBM controllers. -/
abbrev flowReq : HbmReq := ⟨.table, srcFlow, false⟩

/-- Slots configured (R200). -/
def State.flowSlots (s : State) (h : Half) : Nat :=
  let n := s.rfld (bTable h 1) R.flow_FLOW_CFG 0 5
  2 ^ (if n < 16 then 16 else if 29 < n then 29 else n)

/-- FLOW_BASE (R200). -/
def State.flowBase (s : State) (h : Half) : Nat := s.rfld (bTable h 1) R.flow_FLOW_BASE 12 36 <<< 12

/-- The address of a slot's record. -/
def State.flowAddr (s : State) (h : Half) (slot : Nat) : Nat := s.flowBase h + 64 * slot

/-- The SLOT value of stash record `n` (R188). -/
def stashSlot (n : Nat) : Nat := 0xFFFFFC00 + n

/-- A flow key as one number: TID, KEY_LEN and the 40 key bytes. -/
def flowKey (tid len : Nat) (key : List Byte) : Nat := (tid * 64 + len) * 2 ^ 320 + beNat (padTo key 40)

/-- Fields of a record or record image (R194). -/
def frCtl (r : List Byte) : Nat := leNat (slice r 0 8)
def frTid (r : List Byte) : Nat := bits (frCtl r) 56 8
def frProf (r : List Byte) : Nat := bits (frCtl r) 52 4
def frAge (r : List Byte) : Nat := bits (frCtl r) 36 16
def frLen (r : List Byte) : Nat := bits (frCtl r) 30 6
def frValid (r : List Byte) : Bool := (frCtl r).testBit 0
def frData (r : List Byte) : List Byte := slice r 8 16

/-- The key bytes of an image, zero beyond KEY_LEN; KEY_LEN 0 acts as 1 and values above 40 as 40. -/
def frKeyLen (r : List Byte) : Nat := if frLen r = 0 then 1 else if 40 < frLen r then 40 else frLen r
def frKeyBytes (r : List Byte) : List Byte := padTo ((slice r 24 40).take (frKeyLen r)) 40

/-- The key of a record or image as one number. -/
def frKey (r : List Byte) : Nat := flowKey (frTid r) (frKeyLen r) (frKeyBytes r)

/-- A record with given fields. -/
def flowRecord (tid prof age len : Nat) (data key : List Byte) : List Byte :=
  leBytes 8 (tid <<< 56 ||| prof <<< 52 ||| age <<< 36 ||| len <<< 30 ||| 1) ++ padTo data 16 ++ padTo key 40

/-- A record with CONTROL and DATA replaced. -/
def flowRewrite (r : List Byte) (ctl : Nat) (data : List Byte) : List Byte := leBytes 8 ctl ++ padTo data 16 ++ slice r 24 40

/-- The candidate buckets of a key in way order, each by its first slot (R195). -/
def State.flowBuckets (s : State) (h : Half) (key : Nat) : List Nat :=
  let b := s.flowSlots h / 16
  (List.range 4).map fun w => (w * b + Config.flowHash w key % b) * 4

/-- The candidate slots of a key. -/
def State.flowCands (s : State) (h : Half) (key : Nat) : List Nat := (s.flowBuckets h key).flatMap fun b => [b, b + 1, b + 2, b + 3]

/-- A record read from its slot: its bytes, or none where its data is uncorrectable or refused. -/
def State.flowRead (s : State) (h : Half) (slot : Nat) : State × Option (List Byte) :=
  match s.hbmRead h flowReq (s.flowAddr h slot) 64 with
  | (s1, bs, err) => (s1, if err then none else some bs)

/-- The record of a slot as it stands, without the effects of a read. -/
def State.flowPeek (s : State) (h : Half) (slot : Nat) : List Byte := ((s.flowRead h slot).2).getD (List.replicate 64 0)

/-- A granule write that has reached the array before the next is made (R197). -/
def State.flowWriteThrough (s : State) (h : Half) (a : Nat) (bs : List Byte) : State :=
  let (s1, _) := s.hbmWrite h flowReq a bs
  s1.updHbm h fun x => x.drainGran (hbmPc a) (a / 32)

/-- A whole record is written: bytes 32–63 reach the array before bytes 0–31 are written (R197). -/
def State.flowPut (s : State) (h : Half) (slot : Nat) (r : List Byte) : State :=
  let a := s.flowAddr h slot
  ((s.flowWriteThrough h (a + 32) (slice r 32 32)).hbmWrite h flowReq a (slice r 0 32)).1

/-- Bytes 0–31 of a record are written (R196). -/
def State.flowPutHead (s : State) (h : Half) (slot : Nat) (r : List Byte) : State := (s.hbmWrite h flowReq (s.flowAddr h slot) (slice r 0 32)).1

/-- VALID of a record is cleared: its first granule is written with the bit 0 (R196, R197). -/
def State.flowClear (s : State) (h : Half) (slot : Nat) (r : List Byte) : State :=
  let s1 := s.flowPutHead h slot (flowRewrite r (frCtl r / 2 * 2) (frData r))
  s1.updTab h fun t => { t with flowAt := tdel t.flowAt slot }

/-- The data of a slot's record is uncorrectable. -/
def State.flowBad (s : State) (h : Half) (slot : Nat) : Bool :=
  (gransOf (s.flowAddr h slot) 64).any fun g => ((s.hbm.get h).readGran flowReq g).2

/-- A record found uncorrectable is invalidated, with its record of the fault (R233); one that could not be read for another reason stays. -/
def State.flowLost (s : State) (h : Half) (slot : Nat) : State :=
  if s.flowBad h slot then
    (s.flowClear h slot (List.replicate 64 0)).report (.table h 1) F.FLOW_RECORD_LOST (s.flowAddr h slot)
  else s

/-- The four records of a bucket, read in one access of 256 bytes; none where data is uncorrectable or refused (R195). -/
def State.flowBucket (s : State) (h : Half) (first : Nat) : State × Option (List (List Byte)) :=
  match s.hbmRead h flowReq (s.flowAddr h first) 256 with
  | (s1, bs, err) => (s1, if err then none else some ([0, 1, 2, 3].map fun j => slice bs (64 * j) 64))

/-- The uncorrectable records of a bucket are invalidated (R233). -/
def State.bucketLost (s : State) (h : Half) (first : Nat) : State :=
  [first, first + 1, first + 2, first + 3].foldl (fun s i => s.flowLost h i) s

/-- What a search of FLOW finds: a slot and its record, a stash place and its record, nothing, or data that is uncorrectable. -/
inductive FlowFound where
  | slot (i : Nat) (r : List Byte)
  | stash (n : Nat) (r : List Byte)
  | none
  | err
  deriving DecidableEq, Repr

/-- The buckets are read one at a time, each in one access, until one holds the key or cannot be read (R195, R233). -/
def State.flowScan (s : State) (h : Half) (key : Nat) : List Nat → State × FlowFound
  | [] => (s, .none)
  | b :: r =>
    match s.flowBucket h b with
    | (s1, none) => (s1.bucketLost h b, .err)
    | (s1, some l) =>
      match l.findIdx? fun bs => frValid bs && decide (frKey bs = key) with
      | some j => (s1, .slot (b + j) (l.getD j []))
      | none => s1.flowScan h key r

/-- The stash place of a key (R195). -/
def TableState.stashFind (x : TableState) (key : Nat) : Option (Nat × List Byte) := x.stash.find? fun e => frKey e.2 = key

/-- A search for a key: its buckets in way order, then the stash (R195). -/
def State.flowSearch (s : State) (h : Half) (key : Nat) : State × FlowFound :=
  match s.flowScan h key (s.flowBuckets h key) with
  | (s1, .none) =>
    match (s1.tab.get h).stashFind key with
    | some (n, r) => (s1, .stash n r)
    | none => (s1, .none)
  | x => x

/-- A slot is occupied by a valid record. -/
def State.flowBusy (s : State) (h : Half) (i : Nat) : Bool := frValid (s.flowPeek h i)

/-- The free stash place of lowest number. -/
def TableState.stashFree (x : TableState) : Option Nat := (List.range 1024).find? fun n => (tget? x.stash n).isNone

/-- A record moves to a free slot of its own: it is written whole there, and then its old place is cleared (R193, R197). -/
def State.flowMove (h : Half) (s : State) (m : Nat × Nat) : State :=
  let r := s.flowPeek h m.1
  let s1 := (s.flowPut h m.2 r).updTab h fun t => { t with flowAt := tput t.flowAt m.2 (tget 0 t.flowAt m.1) }
  s1.flowClear h m.1 r

/-- The free slots of the lowest-way bucket of a key that has one (R195). -/
def State.flowFreeIn (s : State) (h : Half) (buckets : List Nat) : List Nat :=
  match buckets.map (fun b => [b, b + 1, b + 2, b + 3].filter fun i => !s.flowBusy h i) |>.find? (fun l => !l.isEmpty) with
  | some l => l
  | none => []

/-- A place for a new record, after the moves that free it: a slot, a stash place, or none for FULL (R193, R195). -/
def State.flowPlace (s : State) (h : Half) (key : Nat) : State × Option (Nat × Bool) :=
  let s1 := { s with fresh := s.fresh + 2 * maxMoves + 1 }
  match s.flowFreeIn h (s.flowBuckets h key) with
  | c :: cs => (s1, some (pickFree s.fresh (c :: cs) c, false))
  | [] =>
    match findMoves (fun i => s.flowCands h (frKey (s.flowPeek h i))) (s.flowBusy h) (s.flowBusy h) s.fresh [] (s.flowCands h key) maxMoves with
    | some (ms, f) => (ms.foldl (State.flowMove h) s1, some (f, false))
    | none =>
      match (s.tab.get h).stashFree with
      | some n => (s1, some (n, true))
      | none => (s1, none)

/-- A record is stored at a place. -/
def State.flowStore (s : State) (h : Half) (p : Nat × Bool) (r : List Byte) : State :=
  if p.2 then s.updTab h fun t => { t with stash := tput t.stash p.1 r, flowAt := tput t.flowAt (stashSlot p.1) s.ticks }
  else (s.flowPut h p.1 r).updTab h fun t => { t with flowAt := tput t.flowAt p.1 s.ticks }

/-- A record found is rewritten in place: bytes 0–31, with a refresh (R96, R196). -/
def State.flowTouch (s : State) (h : Half) (f : FlowFound) (r : List Byte) : State :=
  match f with
  | .slot i _ => (s.flowPutHead h i r).updTab h fun t => { t with flowAt := tput t.flowAt i s.ticks }
  | .stash n _ => s.updTab h fun t => { t with stash := tput t.stash n r, flowAt := tput t.flowAt (stashSlot n) s.ticks }
  | _ => s

/-- A record found is removed. -/
def State.flowRemove (s : State) (h : Half) (f : FlowFound) : State :=
  match f with
  | .slot i r => s.flowClear h i r
  | .stash n _ => s.updTab h fun t => { t with stash := tdel t.stash n, flowAt := tdel t.flowAt (stashSlot n) }
  | _ => s

/-- CONTROL of a record with AGE set to now (R96, R196). -/
def State.flowCtlNow (s : State) (h : Half) (r : List Byte) : Nat :=
  frCtl r - frAge r * 2 ^ 36 + s.ageNow h * 2 ^ 36

/-- The SLOT of what was found (R188). -/
def FlowFound.slotNo : FlowFound → Nat
  | .slot i _ => i
  | .stash n _ => stashSlot n
  | _ => 0

/-- The record found. -/
def FlowFound.record : FlowFound → List Byte
  | .slot _ r => r
  | .stash _ r => r
  | _ => List.replicate 64 0

/-- The FLOW unit moves a stash record back to a free candidate slot (R195, R197). -/
def doStashReturn (h : Half) (n : Nat) (s : State) : State :=
  match tget? (s.tab.get h).stash n with
  | none => s
  | some r =>
    if s.live (.table h 1) then
      match s.flowFreeIn h (s.flowBuckets h (frKey r)) with
      | c :: cs =>
        let i := pickFree s.fresh (c :: cs) c
        let at0 := tget 0 (s.tab.get h).flowAt (stashSlot n)
        (s.used.flowPut h i r).updTab h fun t =>
          { t with stash := tdel t.stash n, flowAt := tput (tdel t.flowAt (stashSlot n)) i at0 }
      | [] => s
    else s

/-- FLOW_STASH_RETURN (R195). -/
def execFlowStashReturn (h : Half) (place : Fin 1024) (s : State) : Out := .next (s.orWait (doStashReturn h place.val))

end Sys2Proof.Machine
end

