-- ==== Sys2Proof/Machine/Lpm.lean ====
section
/-! DEFINITION. Routes and longest-prefix match (R201–R203), and the counter pairs (R204–R206). -/

namespace Sys2Proof.Machine

/-! ### Routes (R201–R203) -/

/-- Bits of an address of a family: 32 for IPv4 (0), 128 for IPv6 (1). -/
def famBits (fam : Nat) : Nat := if fam = 0 then 32 else 128

/-- A route's key: VRF, family, prefix length and the prefix, its bits beyond the length zero. -/
def routeKey (vrf fam len addr : Nat) : Nat :=
  let w := famBits fam
  (((vrf % 65536) * 2 + fam) * 256 + len) * 2 ^ 128 + (addr % 2 ^ w) >>> (w - len) <<< (w - len)

/-- Prefix length and family of a key. -/
def keyLen (k : Nat) : Nat := bits k 128 8
def keyFam (k : Nat) : Nat := bits k 136 1

/-- The versions of a route. -/
def TableState.route (x : TableState) (k : Nat) : List RouteVer := tget [] x.routes k

/-- The RESULT that a route gives at a stamp (R150, R203). -/
def State.routeAt (s : State) (h : Half) (k st : Nat) : Option Word :=
  (((s.tab.get h).route k).find? fun v => s.visible h v.vstate v.batch st).map (·.result)

/-- The longest prefix of at most `n` bits that covers an address at a stamp: RESULT and length (R201). -/
def State.lpmFind (s : State) (h : Half) (vrf fam addr st : Nat) : Nat → Option (Word × Nat)
  | 0 => (s.routeAt h (routeKey vrf fam 0 addr) st).map fun r => (r, 0)
  | n + 1 =>
    match s.routeAt h (routeKey vrf fam (n + 1) addr) st with
    | some r => some (r, n + 1)
    | none => s.lpmFind h vrf fam addr st n

/-- LEAF_MODE (R202). -/
def State.leafOnChip (s : State) (h : Half) : Bool := bit (s.reg (bTable h 2) R.lpm_LPM_CFG) 0

/-- Route units that a key takes (R202). -/
def routeUnits (k : Nat) : Nat := if keyFam k = 0 then 1 else 2

/-- Route units in use: a route holds its units until it is gone. -/
def TableState.routeUnitsUsed (x : TableState) : Nat := x.routes.foldl (fun n e => n + routeUnits e.1) 0

/-- Route units of a half (R202). -/
def State.routeCap (s : State) (h : Half) : Nat := if s.leafOnChip h then 98304 else 2097152

/-- The buckets that a record of a route rewrites: one or two (R203). -/
def routeBuckets (k : Nat) : List Nat :=
  let a := Config.lpmBucket 0 k
  let b := Config.lpmBucket 1 k
  if Config.lpmTwo k && decide (a ≠ b) then [a, b] else [a]

/-- The versions of a route after its batch `b` is undone. -/
def undoVers (b : Nat) (l : List RouteVer) : List RouteVer :=
  (l.filter fun v => !(decide (v.vstate = vsPending) && decide (v.batch = b))).map fun v =>
    if v.vstate = vsRetiring ∧ v.batch = b then { v with vstate := vsStable } else v

/-- The versions of a route after its batch `b` has retired. -/
def settleVers (b : Nat) (l : List RouteVer) : List RouteVer :=
  (l.filter fun v => !(decide (v.vstate = vsRetiring) && decide (v.batch = b))).map fun v =>
    if v.vstate = vsPending ∧ v.batch = b then { v with vstate := vsStable } else v

/-- Change the versions of every route for which `p` holds. -/
def TableState.mapRoutes (x : TableState) (p : Nat → Bool) (f : List RouteVer → List RouteVer) : TableState :=
  { x with routes := x.routes.filterMap fun e => if p e.1 then (if (f e.2).isEmpty then none else some (e.1, f e.2)) else some e }

/-- A RETIRING mark on the STABLE version of a route, with a new PENDING version beside it, if any (R213). -/
def TableState.routeWrite (x : TableState) (k b : Nat) (new : Option Word) : TableState :=
  let old := (x.route k).map fun v => if v.vstate = vsStable then { v with vstate := vsRetiring, batch := b } else v
  let add := match new with
    | some r => [{ result := r, vstate := vsPending, batch := b : RouteVer }]
    | none => []
  { x with routes := tset [] x.routes k (old ++ add) }

/-! ### Counter pairs (R204–R206) -/

/-- The COUNTER unit as a requester. -/
abbrev counterReq : HbmReq := ⟨.table, srcCounter, false⟩

/-- Address of a pair (R204). -/
def State.pairAddr (s : State) (h : Half) (i : Nat) : Nat := s.rfld (bTable h 3) R.counter_COUNTER_BASE 8 40 <<< 8 + 16 * (i % 16777216)

/-- A pair with increments added, each count wrapping at 2⁶⁴. -/
def pairPlus (bs : List Byte) (d : Nat × Nat) : List Byte :=
  leBytes 8 (leNat (slice bs 0 8) + d.1) ++ leBytes 8 (leNat (slice bs 8 8) + d.2)

/-- The cached increments of a pair reach HBM; the line stays when its data cannot be read or written. -/
def State.writeBack (s : State) (h : Half) (i : Nat) : State :=
  match tget? (s.tab.get h).cache i with
  | none => s
  | some d =>
    match s.hbmRead h counterReq (s.pairAddr h i) 16 with
    | (s1, bs, err) =>
      if err then s1
      else
        match s1.hbmWrite h counterReq (s.pairAddr h i) (pairPlus bs d) with
        | (s2, true) => s2.updTab h fun t => { t with cache := tdel t.cache i }
        | (s2, false) => s2

/-- Lines of the cache (R205). -/
abbrev cacheLines : Nat := 32768

/-- A count of one frame of `n` bytes at pair `i` (R204). A full cache first writes back a line of its choice (R205). -/
def State.countPair (s : State) (h : Half) (i n : Nat) : State :=
  let i := i % 16777216
  let c := (s.tab.get h).cache
  let s1 :=
    if (tget? c i).isNone ∧ cacheLines ≤ c.length then s.used.writeBack h (pickFree s.fresh (c.map (·.1)) 0) else s
  s1.updTab h fun t =>
    let d := tget (0, 0) t.cache i
    { t with cache := tput t.cache i (d.1 + 1, d.2 + n) }

/-- COUNTER_WRITEBACK (R205). -/
def doWriteback (h : Half) (pair : Nat) (s : State) : State := if s.live (.table h 3) then s.writeBack h pair else s

/-- A write of READ_SEL starts a coherent read (R206). -/
def State.readSel (s : State) (h : Half) (v : DWord) : State := s.updTab h fun t => { t with reading := some (fld v 0 24, bit v 63) }

/-- The snapshot of a coherent read (R206); of a pair whose data is uncorrectable it shows a free value. -/
def doReadDone (h : Half) (s : State) : State :=
  match (s.tab.get h).reading with
  | none => s
  | some (i, clear) =>
    if s.live (.table h 3) then
      match s.hbmRead h counterReq (s.pairAddr h i) 16 with
      | (s0, bs0, err) =>
        let bs := if err then leBytes 16 (s0.free 128).toNat else bs0
        let s1 := if err then s0.used else s0
        let now := pairPlus bs (tget (0, 0) (s1.tab.get h).cache i)
        let b := bTable h 3
        let s2 := (s1.setReg b R.counter_READ_PKTS (BitVec.ofNat 64 (leNat (slice now 0 8)))).setReg b R.counter_READ_BYTES
          (BitVec.ofNat 64 (leNat (slice now 8 8)))
        let s3 := s2.updTab h fun t => { t with reading := none }
        if clear then
          ((s3.hbmWrite h counterReq (s3.pairAddr h i) (List.replicate 16 0)).1).updTab h fun t => { t with cache := tdel t.cache i }
        else s3
    else s

/-- A cache line that reads uncorrectable loses its increments (R233). -/
def State.loseLine (s : State) (h : Half) (i : Nat) : State :=
  if (tget? (s.tab.get h).cache i).isSome then
    (s.updTab h fun t => { t with cache := tdel t.cache i }).bump (bTable h 3) R.counter_COUNTER_LOST
  else s

/-- COUNTER_WRITEBACK (R205). -/
def execCounterWriteback (h : Half) (pair : Nat) (s : State) : Out := .next (s.orWait (doWriteback h pair))

/-- COUNTER_READ_DONE (R206). -/
def execCounterReadDone (h : Half) (s : State) : Out := .next (s.orWait (doReadDone h))

/-- The METER unit refills a meter (R209). -/
def doMeterRefill (h : Half) (i : Nat) (s : State) : State :=
  if s.live (.table h 4) then
    let m := s.meterOf h (i % 262144)
    s.setMeter h (i % 262144) (m.refill (s.meterProfile h m (s.dts h).toNat) (s.meterNow h))
  else s

/-- METER_REFILL (R209). -/
def execMeterRefill (h : Half) (index : Nat) (s : State) : Out := .next (doMeterRefill h index s)

end Sys2Proof.Machine
end

