-- ==== Sys2Proof/Machine/Shadow.lean ====
section
/-! DEFINITION. The shadow of the configured tables (R233–R236): how the VERSION unit keeps it beside the tables, how a slot compares with
it, and how a slot is rewritten from it. -/

namespace Sys2Proof.Machine

/-- What the shadow holds of an EXACT slot (R234): no AGE and no HIT, and of a learned entry only that the slot is learned. -/
def ExEntry.shadow (e : ExEntry) : ExEntry :=
  if e.learned then { key := 0, result := 0, tid := 0, ageProf := 0, age := 0, vstate := 0, batch := 0, learned := true, hit := false, at0 := 0, noticed := false }
  else { e with age := 0, hit := false, at0 := 0, noticed := false }

/-- What the shadow holds of a meter: no tokens (R234). -/
def Meter.shadow (m : Meter) : Meter := { m with tc := 0, te := 0, last := 0 }

/-- The slots of a table that an operation has written are written to its shadow too. -/
def shadowed {α : Type} [DecidableEq α] (f : α → α) (old new sh : Tbl α) : Tbl α :=
  (tdiff old new).foldl (fun t k =>
    match tget? new k with
    | some v => tput t k (f v)
    | none => tdel t k) sh

/-- The shadow after an operation that has taken the tables and the ASSOC from `x` and `a` to `y` and `b`. -/
def Shadow.follow (sh : Shadow) (x y : TableState) (a b : AssocState) : Shadow :=
  { exact := shadowed ExEntry.shadow x.exact y.exact sh.exact
    indirection := shadowed id x.indirection y.indirection sh.indirection
    groups := shadowed id x.groups y.groups sh.groups
    members := shadowed id x.members y.members sh.members
    profiles := shadowed id x.profiles y.profiles sh.profiles
    meters := shadowed Meter.shadow x.meters y.meters sh.meters
    routes := shadowed id x.routes y.routes sh.routes
    assoc := shadowed id a.entries b.entries sh.assoc
    patterns := shadowed id x.patterns y.patterns sh.patterns
    repl := shadowed id x.repl y.repl sh.repl }

/-- `s1` follows `s` by an operation of the VERSION or the LEARN unit, which writes a table and its shadow in one (R234). -/
def State.withShadow (s s1 : State) (h : Half) : State :=
  s1.updTab h fun t => { t with shadow := t.shadow.follow (s.tab.get h) t (s.assoc.get h) (s1.assoc.get h) }

/-! ### Comparison (R235) -/

/-- The pattern at an index in a tile's copy, which a batch writes in all 16 tiles (R175). -/
def State.patternCopy (s : State) (h : Half) (_ : TileIx) (i : Nat) : Option Nat := tget? (s.tab.get h).patterns i

/-- The routes of an LPM bucket. -/
def routesIn (t : Tbl (List RouteVer)) (b : Nat) : Tbl (List RouteVer) := t.filter fun e => (routeBuckets e.1).contains b

/-- Slot `i` of target `t` (TABLE of R213) differs from its shadow; a slot whose shadow is learned may hold a learned entry or none. -/
def State.shadowDiffers (s : State) (h : Half) (t i : Nat) : Bool :=
  let x := s.tab.get h
  let y := x.shadow
  match t with
  | 0 =>
    let e := (tget? x.exact i).map ExEntry.shadow
    match tget? y.exact i with
    | some m => if m.learned then decide (e ≠ none) && decide (e ≠ some m) else decide (e ≠ some m)
    | none => e.isSome
  | 1 => decide (tget (indRst i) x.indirection i ≠ tget (indRst i) y.indirection i)
  | 2 => decide (tget Indexed.init x.groups i ≠ tget Indexed.init y.groups i)
  | 3 => decide (tget Indexed.init x.members i ≠ tget Indexed.init y.members i)
  | 4 => decide (routesIn x.routes i ≠ routesIn y.routes i)
  | 5 => decide ((tget Meter.init x.meters i).shadow ≠ (tget Meter.init y.meters i).shadow)
  | 6 => decide (tget Indexed.init x.profiles i ≠ tget Indexed.init y.profiles i)
  | 7 => decide (tget? (s.assoc.get h).entries i ≠ tget? y.assoc i)
  | 8 => (List.finRange 16).any fun c => decide (s.patternCopy h c i ≠ tget? y.patterns i)
  | _ => decide (tget 0 x.repl i ≠ tget 0 y.repl i)

/-! ### Rewriting (R233, R236) -/

/-- An EXACT slot as its shadow gives it: AGE and HIT stay, and what a learned slot held is not in the shadow. -/
def exFrom (now : Option ExEntry) (m : Option ExEntry) : Option ExEntry :=
  match m with
  | none => none
  | some m =>
    if m.learned then (match now with | some e => if e.learned then some e else none | none => none)
    else
      match now with
      | some e => some { m with age := e.age, hit := e.hit, at0 := e.at0, noticed := e.noticed }
      | none => some m

/-- A slot takes a value, or is empty. -/
def tplace {α : Type} (t : Tbl α) (i : Nat) : Option α → Tbl α
  | some v => tput t i v
  | none => tdel t i

/-- The routes of an LPM bucket take the versions that the shadow holds. -/
def routesFrom (t sh : Tbl (List RouteVer)) (b : Nat) : Tbl (List RouteVer) :=
  (routesIn sh b).foldl (fun t e => tput t e.1 e.2) (t.filter fun e => !(routeBuckets e.1).contains b)

/-- Slot `i` of target `t` is rewritten from its shadow. -/
def State.fromShadow (s : State) (h : Half) (t i : Nat) : State :=
  let y := (s.tab.get h).shadow
  match t with
  | 0 => s.updTab h fun x => { x with exact := tplace x.exact i (exFrom (tget? x.exact i) (tget? y.exact i)) }
  | 1 => s.updTab h fun x => { x with indirection := tset (indRst i) x.indirection i (tget (indRst i) y.indirection i) }
  | 2 => s.updTab h fun x => { x with groups := tset Indexed.init x.groups i (tget Indexed.init y.groups i) }
  | 3 => s.updTab h fun x => { x with members := tset Indexed.init x.members i (tget Indexed.init y.members i) }
  | 4 => s.updTab h fun x => { x with routes := routesFrom x.routes y.routes i }
  | 5 =>
    let m := s.meterOf h i
    s.setMeter h i { tget Meter.init y.meters i with tc := m.tc, te := m.te, last := m.last }
  | 6 => s.updTab h fun x => { x with profiles := tset Indexed.init x.profiles i (tget Indexed.init y.profiles i) }
  | 7 => { s with assoc := s.assoc.upd h fun a => { a with entries := tplace a.entries i (tget? y.assoc i) } }
  | 8 => s.updTab h fun x => { x with patterns := tplace x.patterns i (tget? y.patterns i) }
  | _ => s.updTab h fun x => { x with repl := tset 0 x.repl i (tget 0 y.repl i) }

end Sys2Proof.Machine
end

