-- ==== Sys2Proof/Machine/Inject.lean ====
section
/-! DEFINITION. The inject queue of a half (R111, R112, R247, R679): what enters it, with which stamp and cells, and the threads that
stall because it is full. -/

namespace Sys2Proof.Machine

/-- The inject queue holds 64 frames (R247). -/
abbrev injectDepth : Nat := 64

/-- Entries of the inject queue in use: a frame holds its entry until its task is created or it is dropped (R247, R270). -/
def IngressState.injectUsed (i : IngressState) : Nat := i.inject.length + b2n (i.cur.any fun c => decide (128 ≤ c.frame.port))

/-- VPORT_CFG_v.MAX_LEN as it acts (R112). -/
def State.vportMax (s : State) (h : Half) (v : Nat) : Nat :=
  let n := s.rfld (bHalf h) (R.half_VPORT_CFG + 8 * v) 48 16
  if n < 60 then 60 else if 10240 < n then 10240 else n

/-- The next per-port arrival sequence number of a port (R243). -/
def IngressState.nextSeq (i : IngressState) (port : Nat) : Nat := tget 0 i.seqs port

/-- The arrival sequence of a port advances. -/
def IngressState.takeSeq (i : IngressState) (port : Nat) : IngressState := { i with seqs := tset 0 i.seqs port (i.nextSeq port + 1) }

/-- A frame of virtual port 128 + v as the inject queue holds it. -/
def State.injectFrame (s : State) (h : Half) (v chain : Nat) (bytes : List Byte) : RxFrame :=
  { port := 128 + v, stamp := s.dts h, seq := (s.ing.get h).nextSeq (128 + v), ptp := 0, bytes := bytes, chain := some chain,
    prio := some (s.rfld (bHalf h) (R.half_VPORT_CFG + 8 * v) 0 3), cut := false,
    mac := s.reg (bHalf h) (R.half_VPORT_CFG + 8 * v) }

/-- The frame with chain `id` enters the inject queue, stamped now; an oversize frame is discarded there (R112, R247). -/
def State.injectChain (s : State) (h : Half) (v id : Nat) : State :=
  let bytes := (s.chain h id).bytes
  if s.vportMax h v < bytes.length then (s.bump (bHalf h) R.half_VPORT_OVERSIZE).release h id
  else
    let f := s.injectFrame h v id bytes
    let s1 := s.updChain h id fun c => { c with stamp := f.stamp, inPort := 128 + v, late := false, crossed := false, mcast := false }
    s1.updIng h fun i => { i.takeSeq (128 + v) with inject := i.inject ++ [f] }

/-- A posted frame or a FRAME_IN enters with cells of pool 0 (R679); the caller has found that they can be had. -/
def State.injectBytes (s : State) (h : Half) (v : Nat) (bytes : List Byte) : State :=
  let (s1, id) := s.addChain h { Chain.init with bytes := bytes, stamp := s.dts h, inPort := 128 + v } (cellsFor bytes.length) 0
  s1.injectChain h v id

/-- The inject queue has an entry free. -/
def State.injectRoom (s : State) (h : Half) : Bool := decide ((s.ing.get h).injectUsed < injectDepth)

/-- A frame of `n` bytes can enter now: an entry and its cells are free (R247, R679). -/
def State.injectReady (s : State) (h : Half) (n : Nat) : Bool := s.injectRoom h && s.canTake h 0 (cellsFor n)

/-- POSTF: the frame enters at once, or the thread stalls behind the posters that stalled before it (R247, R333). -/
def State.postFrame (s : State) (th : ThreadRef) (v : Nat) (bytes : List Byte) : State :=
  let h := threadHalf th
  if (s.ing.get h).posters.isEmpty && s.injectReady h bytes.length then
    (s.injectBytes h v bytes).updThread th fun x => { x with pc := x.pc + 4 }
  else
    (s.updThread th fun x => { x with phase := .post v bytes }).updIng h fun i => { i with posters := i.posters ++ [th] }

/-- The first stalled poster is served (R247, R679). -/
def State.servePoster (s : State) (h : Half) (th : ThreadRef) (rest : List ThreadRef) : State :=
  match (s.thread th).phase with
  | .post v bytes =>
    if s.injectReady h bytes.length then
      let s1 := (s.injectBytes h v bytes).updThread th fun x => { x with phase := .issuing, pc := x.pc + 4 }
      s1.updIng h fun i => { i with posters := rest }
    else s
  | _ => s.updIng h fun i => { i with posters := rest }

/-- A frame selected for P130 enters with its own chain, whose charge moves to pool 0 (R490, R679). -/
def State.serveLoop (s : State) (h : Half) (id : Nat) (rest : List Nat) : State :=
  if s.injectRoom h then
    match s.moveCharge h id 0 with
    | (s1, true) => (s1.updIng h fun i => { i with loops := rest }).injectChain h 2 id
    | (_, false) => s
  else s

/-- The entry of the next frame into the inject queue: a stalled poster, in the order in which they stalled, else a frame looped by
P130 (R247, R490, R679). -/
def doInjectEntry (h : Half) (s : State) : State :=
  match (s.ing.get h).posters with
  | th :: rest => s.servePoster h th rest
  | [] =>
    match (s.ing.get h).loops with
    | id :: rest => s.serveLoop h id rest
    | [] => s

/-- INJECT_QUEUE_ENTRY (R247). -/
def execInjectQueueEntry (h : Half) (s : State) : Out := .next (s.checked (doInjectEntry h s))

end Sys2Proof.Machine
end

