-- ==== Sys2Proof/Machine/Ingress.lean ====
section
/-! DEFINITION. The receive side of a port (R91, R94, R100–R119): a frame's start, bytes and end, its priority and holding queue, and
flow control in both directions. -/

namespace Sys2Proof.Machine

/-! ### Port modes (R101) and receive timestamps (R90, R91) -/

/-- A mode that accepts two FEC settings runs with FEC (R101, R106). -/
def fecOn (mac : DWord) : Bool := decide (fld mac 32 2 ≠ 3)

/-- Receive path latency of a mode in ns: its fixed part and the maximum of its variable part (R101). -/
def rxLatency (mode : Nat) (fec : Bool) : Nat × Nat :=
  match mode with
  | 1 => (62, 6)
  | 2 => if fec then (210, 26) else (46, 4)
  | 3 => (160, 22)
  | 4 => if fec then (150, 24) else (58, 8)
  | 5 => (140, 20)
  | 6 => (132, 18)
  | 7 => (118, 16)
  | 8 => (104, 14)
  | 9 => (96, 12)
  | _ => (0, 0)

/-- Transmit path latency of a mode in ns (R101). -/
def txLatency (mode : Nat) (fec : Bool) : Nat :=
  match mode with
  | 1 => 48
  | 2 => if fec then 78 else 30
  | 3 => 64
  | 4 => if fec then 60 else 34
  | 5 => 56
  | 6 => 52
  | 7 => 48
  | 8 => 44
  | 9 => 40
  | _ => 0

/-- PTP time moved by `d` sixteenths of a tick (1/24 ns), in units of 2⁻³²/24 ns; the 48-bit seconds wrap (R90). -/
def ptpShift (t : TimeState) (d : Int) : Nat :=
  let period : Int := ((ptpTotal (2 ^ 48) 0 0 * 24 : Nat) : Int)
  ((((ptpTotal t.ptpSec t.ptpNs t.ptpFrac * 24 : Nat) : Int) + d * ((2 ^ 32 : Nat) : Int)) % period).toNat

/-- Seconds, nanoseconds and 1/256 ns of a shifted PTP time. -/
def ptpParts (x : Nat) : Nat × Nat × Nat :=
  let ns := x / (24 * 2 ^ 32)
  (ns / 1000000000, ns % 1000000000, x % (24 * 2 ^ 32) / (24 * 2 ^ 24))

/-- The mode a port runs (LINK_STAT.MODE_NOW, R104). -/
def State.modeNow (s : State) (p : PortIx) : Nat := s.rfld (bPort p) R.port_LINK_STAT 8 5

/-- The PTP receive field of a frame that starts now (R90, R91). The variable part of the path latency is what the port measures: a
free value within its maximum. -/
def State.ptpField (s : State) (p : PortIx) : DWord :=
  let c := s.reg (bPort p) R.port_PTP_CFG
  if bit c 15 then
    let (fix, var) := rxLatency (s.modeNow p) (fecOn (s.reg (bPort p) R.port_MAC_CFG))
    let v := (s.free 32).toNat % (var * 24 + 1)
    let (sec, ns, fr) := ptpParts (ptpShift (s.time.get (portHalf p)) (signed 16 (fld c 32 16) - ((fix * 24 + v : Nat) : Int)))
    BitVec.ofNat 64 ((sec % 65536) <<< 48 ||| ns <<< 16 ||| fr <<< 8 ||| 1)
  else 0

/-! ### Holding queues and flow control (R113–R119) -/

/-- Key of a priority of a port in the tables by port and priority. -/
def prioKey (lp p : Nat) : Nat := 8 * lp + p % 8

/-- LIMIT_p, XOFF_p and XON_p as they act (R119). -/
def State.rxqThr (s : State) (p : PortIx) (prio : Nat) : Nat × Nat × Nat :=
  let v := s.reg (bPort p) (R.port_RXQ_THR + 8 * (prio % 8))
  let lim := fld v 32 16
  let xoff := if lim < fld v 16 16 then lim else fld v 16 16
  let xon := if xoff < fld v 0 16 then xoff else fld v 0 16
  (lim, xoff, xon)

/-- Priority p is enabled in PFC_CFG.TX_EN. -/
def State.txPfc (s : State) (p : PortIx) (prio : Nat) : Bool := bit (s.reg (bPort p) R.port_PFC_CFG) (8 + prio % 8)

/-- Priority p is enabled in PFC_CFG.RX_EN. -/
def State.rxPfc (s : State) (p : PortIx) (prio : Nat) : Bool := bit (s.reg (bPort p) R.port_PFC_CFG) (16 + prio % 8)

/-- RXQ_p of a port in cells (R114). -/
def State.rxLevel (s : State) (p : PortIx) (prio : Nat) : Nat := tget 0 (s.ing.get (portHalf p)).level (prioKey (portLocal p) prio)

/-- Set bit `b` of a mask. -/
def setBit (m b : Nat) : Nat := m ||| (1 <<< b)

/-- Clear bit `b` of a mask. -/
def clrBit (m b : Nat) : Nat := if m.testBit b then m - 2 ^ b else m

/-- A PFC frame with time QUANTA falls due for a priority (R116); it takes the place of one with time 0 that has not left. -/
def State.xoffDue (s : State) (p : PortIx) (prio : Nat) : State :=
  let lp := portLocal p
  s.updIng (portHalf p) fun i =>
    { i with
      pfcXoff := tset 0 i.pfcXoff lp (setBit (tget 0 i.pfcXoff lp) prio)
      pfcXon := tset 0 i.pfcXon lp (clrBit (tget 0 i.pfcXon lp) prio) }

/-- A PFC frame with time 0 falls due for a priority (R116); it takes the place of one with time QUANTA that has not left. -/
def State.xonDue (s : State) (p : PortIx) (prio : Nat) : State :=
  let lp := portLocal p
  s.updIng (portHalf p) fun i =>
    { i with
      pfcXon := tset 0 i.pfcXon lp (setBit (tget 0 i.pfcXon lp) prio)
      pfcXoff := tset 0 i.pfcXoff lp (clrBit (tget 0 i.pfcXoff lp) prio) }

/-- RXQ_p of a port becomes `n`; a PFC frame falls due where the change crosses XOFF_p or XON_p (R116). -/
def State.setLevel (s : State) (p : PortIx) (prio n : Nat) : State :=
  let old := s.rxLevel p prio
  let (_, xoff, xon) := s.rxqThr p prio
  let s1 := s.updIng (portHalf p) fun i => { i with level := tset 0 i.level (prioKey (portLocal p) prio) n }
  if s.txPfc p prio ∧ old < xoff ∧ xoff ≤ n then s1.xoffDue p prio
  else if s.txPfc p prio ∧ n < xon ∧ xon ≤ old then s1.xonDue p prio
  else s1

/-- The receive priority of a frame by its first bytes (R113). -/
def State.rxPrio (s : State) (p : PortIx) (f : List Byte) : Nat :=
  let c := s.reg (bPort p) R.port_RX_PRIO
  let def0 := fld c 0 3
  let tagged := isTag f 12
  let pcp := fld c (8 + 3 * ((nth 0 f 14).toNat / 32)) 3
  let dscp := match ipHeader f with
    | none => def0
    | some (o, v6) =>
      let d := if v6 then beNat (slice f o 2) / 64 % 64 else (nth 0 f (o + 1)).toNat / 4
      s.rfld (bHalf (portHalf p)) (R.half_DSCP_MAP + 8 * (d / 16)) (4 * (d % 16)) 3
  match fld c 4 2 with
  | 0 => def0
  | 1 => if tagged then pcp else def0
  | 2 => dscp
  | _ => if tagged then pcp else dscp

/-! ### Arrival (R94, R107–R115) -/

/-- The frame that arrives at a port. -/
def State.arriving (s : State) (p : PortIx) : Option RxFrame := tget? (s.ing.get (portHalf p)).arriving (portLocal p)

/-- Set the frame that arrives at a port. -/
def State.setArriving (s : State) (p : PortIx) (f : RxFrame) : State :=
  s.updIng (portHalf p) fun i => { i with arriving := tput i.arriving (portLocal p) f }

/-- No frame arrives at a port any more. -/
def State.noArriving (s : State) (p : PortIx) : State :=
  s.updIng (portHalf p) fun i => { i with arriving := tdel i.arriving (portLocal p) }

/-- A port receives and transmits: its unit works and its link is up (R68, R106). -/
def State.portRuns (s : State) (p : PortIx) : Bool := s.live (.port p) && s.linkUp p

/-- The first bit of a frame reaches the receive MAC: its stamps are taken (R91, R94). -/
def doFrameStart (p : PortIx) (s : State) : State :=
  if s.portRuns p ∧ s.arriving p = none then
    let h := portHalf p
    let f : RxFrame :=
      { port := p.val, stamp := s.dts h, seq := (s.ing.get h).nextSeq p.val, ptp := s.ptpField p, bytes := [], chain := none,
        prio := none, cut := false, mac := s.reg (bPort p) R.port_MAC_CFG }
    ((s.used.updIng h fun i => i.takeSeq p.val)).setArriving p f
  else s

/-- Cells of a frame that count in its holding queue. -/
def State.frameCells (s : State) (h : Half) (f : RxFrame) : Nat :=
  match f.chain with
  | some c => (s.chain h c).size
  | none => 0

/-- The port of a frame that came in by a physical port. -/
def RxFrame.physical (f : RxFrame) : Option PortIx := if f.port < 128 then some (Fin.ofNat 128 f.port) else none

/-- A frame's cells leave its holding queue (R114). -/
def State.leaveRxq (s : State) (h : Half) (f : RxFrame) : State :=
  match f.physical, f.prio with
  | some p, some q => s.setLevel p q (s.rxLevel p q - s.frameCells h f)
  | _, _ => s

/-- A frame that has no task is discarded: its cells leave the holding queue and are freed (R24, R114). -/
def State.dropFrame (s : State) (h : Half) (f : RxFrame) : State :=
  let s1 := s.leaveRxq h f
  match f.chain with
  | some c => s1.release h c
  | none => s1

/-- An arriving frame is cut short under a counter; its remainder is neither stored nor checked (R108). -/
def State.cutFrame (s : State) (p : PortIx) (f : RxFrame) (ctr : Nat) : State :=
  ((s.dropFrame (portHalf p) f).bump (bPort p) ctr).setArriving p { f with bytes := [], chain := none, prio := none, cut := true }

/-- MAC_CFG.MAX_LEN as it acts (R106). -/
def macMax (mac : DWord) : Nat := if fld mac 48 16 < 64 then 64 else if 10240 < fld mac 48 16 then 10240 else fld mac 48 16

/-- A cell for the next byte of a frame: its chain, or none where pool 0 has no cell (R110, R434, R440). -/
def State.takeRxCell (s : State) (h : Half) (f : RxFrame) : Option (State × RxFrame) :=
  if s.canTake h 0 1 then
    match f.chain with
    | none =>
      let (s1, id) := s.addChain h { Chain.init with stamp := f.stamp, inPort := f.port } 1 0
      some (s1, { f with chain := some id })
    | some id => some (s.growChain h id 1, f)
  else none

/-- The priority of an arriving frame is known: the holding queue at its limit discards it, else its cells count (R113–R115). -/
def State.assignPrio (s : State) (p : PortIx) (f : RxFrame) : State :=
  let q := s.rxPrio p f.bytes
  let (lim, _, _) := s.rxqThr p q
  if lim ≤ s.rxLevel p q then
    s.cutFrame p f (if s.txPfc p q then R.port_RX_HEADROOM_DROP else R.port_ING_ADMIT_DROP)
  else (s.setArriving p { f with prio := some q }).setLevel p q (s.rxLevel p q + s.frameCells (portHalf p) f)

/-- One byte of an arriving frame (R108, R110, R113, R115). -/
def doRxByte (p : PortIx) (s : State) (b : Byte) : State :=
  match s.arriving p with
  | none => s
  | some f =>
    if f.cut then s
    else
      let h := portHalf p
      let n := f.bytes.length
      if macMax f.mac < n + 1 then s.cutFrame p f R.port_RX_OVERSIZE
      else
        let step (s : State) (f : RxFrame) : State :=
          let f1 := { f with bytes := f.bytes ++ [b] }
          if n + 1 = 64 then s.assignPrio p f1 else s.setArriving p f1
        if n % 128 = 0 then
          match s.takeRxCell h f with
          | none => s.cutFrame p f R.port_RX_NO_CELL
          | some (s1, f1) =>
            match f1.prio with
            | some q => step (s1.setLevel p q (s1.rxLevel p q + 1)) f1
            | none => step s1 f1
        else step s f

/-- Further bytes of an arriving frame (R108). -/
def doFrameBytes (p : PortIx) (bytes : List Byte) (s : State) : State := if s.portRuns p then bytes.foldl (doRxByte p) s else s

/-- The frame check sequence of a frame holds (R107). -/
def fcsGood (bytes : List Byte) : Bool :=
  decide (4 ≤ bytes.length) &&
    decide (leNat (bytes.drop (bytes.length - 4)) = crcFcs.of (bytes.take (bytes.length - 4)))

/-- The class-enable bits and eight times of a PFC frame. -/
def pfcFields (bytes : List Byte) : Nat × List Nat :=
  ((nth 0 bytes 17).toNat, (List.range 8).map fun e => beNat (slice bytes (18 + 2 * e) 2))

/-- The counter under which a frame that reached its end is discarded, by the first row of R108 that applies. -/
def endCounter (bytes : List Byte) (pcsError : Bool) : Option Nat :=
  let mac := decide (beNat (slice bytes 12 2) = 0x8808)
  let op := beNat (slice bytes 14 2)
  if !fcsGood bytes then some R.port_RX_FCS_ERR
  else if bytes.length < 64 then some R.port_RX_RUNT
  else if pcsError then some R.port_RX_PCS_ERR
  else if mac && decide (op = 0x0101) then some R.port_RX_PFC_FRAMES
  else if mac && decide (op = 0x0001) then some R.port_RX_PAUSE_DISCARD
  else if mac then some R.port_RX_MACCTL_DISCARD
  else none

/-- A frame that passed every check waits for the classifier (R23, R109, R143). -/
def State.acceptFrame (s : State) (p : PortIx) (f : RxFrame) : State :=
  let h := portHalf p
  let s1 := (s.bump (bPort p) R.port_RX_FRAMES_OK).bumpBy (bPort p) R.port_RX_BYTES_OK f.bytes.length
  let s2 := match f.chain with
    | some c => s1.updChain h c fun c => { c with bytes := f.bytes.take (f.bytes.length - 4) }
    | none => s1
  s2.updIng h fun i => { i with done := i.done ++ [f] }

/-- FEC_CORRECTED and FEC_UNCORRECTED count what the port's decoder found since the frame before, where a FEC is in effect (R143): the
line gives both numbers, free values here; a frame without an error of the PCS holds no uncorrectable codeword itself, and one that
lies between two frames counts too. -/
def State.countFec (s : State) (p : PortIx) : State :=
  if bit (s.reg (bPort p) R.port_LINK_STAT) 1 then
    ((s.used.used.bumpBy (bPort p) R.port_FEC_CORRECTED (s.free 16).toNat).bumpBy (bPort p) R.port_FEC_UNCORRECTED (s.used.free 16).toNat)
  else s

/-- The last byte of a frame has arrived (R23, R107–R109). -/
def doFrameEnd (p : PortIx) (pcsError : Bool) (s : State) : State :=
  if s.portRuns p then
    match s.arriving p with
    | none => s
    | some f =>
      let h := portHalf p
      let s1 := (s.countFec p).noArriving p
      if f.cut then s1
      else
        match endCounter f.bytes pcsError with
        | some c =>
          let s2 := (s1.dropFrame h f).bump (bPort p) c
          if c = R.port_RX_PFC_FRAMES then
            s2.updIng h fun i =>
              { i with pfcRx := tset [] i.pfcRx (portLocal p) (tget [] i.pfcRx (portLocal p) ++ [pfcFields f.bytes]) }
          else s2
        | none => s1.acceptFrame p f
  else s

/-- The frame that arrives when LINK_UP falls or the port leaves ACTIVE is lost (R108). -/
def State.abortRx (s : State) (p : PortIx) : State :=
  match s.arriving p with
  | none => s
  | some f => if f.cut then s.noArriving p else ((s.noArriving p).dropFrame (portHalf p) f).bump (bPort p) R.port_RX_PCS_ERR

/-! ### PFC (R116, R117) -/

/-- The speed of a port in Gb/s. -/
def State.portGbps (s : State) (p : PortIx) : Nat := modeGbps (s.modeNow p)

/-- Ticks in `q` quanta of 512 bit times at `g` Gb/s, rounded up. -/
def quantaTicks (q g : Nat) : Nat := (q * 768 + g - 1) / g

/-- REFRESH as it acts (R119). -/
def State.pfcRefreshQ (s : State) (p : PortIx) : Nat :=
  let c := s.reg (bPort p) R.port_PFC_CFG
  if fld c 48 16 ≤ fld c 32 16 then fld c 48 16 / 2 else fld c 32 16

/-- REFRESH quanta have elapsed for a priority that stays at or above XON (R116). -/
def doPfcRefresh (p : PortIx) (prio : Nat) (s : State) : State :=
  let (_, _, xon) := s.rxqThr p prio
  match tget? (s.ing.get (portHalf p)).pfcSince (prioKey (portLocal p) prio) with
  | some t =>
    if s.portRuns p ∧ s.txPfc p prio ∧ xon ≤ s.rxLevel p prio ∧ 0 < s.portGbps p ∧ t + quantaTicks (s.pfcRefreshQ p) (s.portGbps p) ≤ s.ticks then
      s.xoffDue p prio
    else s
  | none => s

/-- A PFC frame of a port is due (R116). -/
def State.pfcDue (s : State) (h : Half) (lp : Nat) : Bool :=
  decide (tget 0 (s.ing.get h).pfcXoff lp ≠ 0) || decide (tget 0 (s.ing.get h).pfcXon lp ≠ 0)

/-- The class-enable bits and the eight times of the frame that the due triggers make: QUANTA for a rise to XOFF, 0 for a fall below XON
(R116). -/
def pfcFrame (off on quanta : Nat) : Nat × List Nat :=
  (off ||| on, (List.range 8).map fun e => if off.testBit e then quanta else 0)

/-- One PFC frame leaves for every trigger that is due, between two frames (R116). -/
def doPfcTransmit (p : PortIx) (s : State) : State :=
  let h := portHalf p
  let lp := portLocal p
  let off := tget 0 (s.ing.get h).pfcXoff lp
  let on := tget 0 (s.ing.get h).pfcXon lp
  if s.portRuns p ∧ s.pfcDue h lp ∧ ¬ (s.sels h lp).any (fun f => f.started && !f.ended) then
    (s.updIng h fun i =>
      { i with
        pfcSent := tput i.pfcSent lp (pfcFrame off on (s.rfld (bPort p) R.port_PFC_CFG 48 16))
        pfcXoff := tdel i.pfcXoff lp
        pfcXon := tdel i.pfcXon lp
        pfcSince := (List.range 8).foldl (fun t e =>
          if off.testBit e then tput t (prioKey lp e) s.ticks else if on.testBit e then tdel t (prioKey lp e) else t) i.pfcSince }).bump
      (bPort p) R.port_TX_PFC_FRAMES
  else s

/-- One class of a received PFC frame: time 0 ends the pause, another starts or replaces it and withdraws the priority's selected frames
that have not started (R117, R481). -/
def State.pfcClass (s : State) (p : PortIx) (e q : Nat) : State :=
  let h := portHalf p
  let k := prioKey (portLocal p) e
  if q = 0 then s.updIng h fun i => { i with pauses := tdel i.pauses k }
  else (s.updIng h fun i => { i with pauses := tput i.pauses k (s.ticks + quantaTicks q (s.portGbps p)) }).withdraw h (portLocal p) e

/-- A received PFC frame acts on the priorities it enables and RX_EN honours (R117, R481). -/
def doPfcReceive (p : PortIx) (s : State) : State :=
  let h := portHalf p
  let lp := portLocal p
  match tget [] (s.ing.get h).pfcRx lp with
  | [] => s
  | (en, ts) :: rest =>
    let s1 := s.updIng h fun i => { i with pfcRx := tset [] i.pfcRx lp rest }
    let s2 := (List.range 8).foldl (fun s e => if en.testBit e ∧ s.rxPfc p e then s.pfcClass p e (nth 0 ts e) else s) s1
    s2.schedRefresh h lp (s2.nonEmpty h lp)

/-- The pause of a priority has run out (R117). -/
def doPfcExpire (p : PortIx) (prio : Nat) (s : State) : State :=
  let h := portHalf p
  let k := prioKey (portLocal p) prio
  match tget? (s.ing.get h).pauses k with
  | some t => if t ≤ s.ticks then s.withSched h (portLocal p) fun s => s.updIng h fun i => { i with pauses := tdel i.pauses k } else s
  | none => s

/-! ### The commands -/

/-- FRAME_START (R94). -/
def execFrameStart (p : PortIx) (s : State) : Out := .next (s.checked (doFrameStart p s))

/-- FRAME_BYTES (R108). -/
def execFrameBytes (p : PortIx) (bytes : List Byte) (s : State) : Out := .next (s.checked (doFrameBytes p bytes s))

/-- FRAME_END (R108). -/
def execFrameEnd (p : PortIx) (pcsError : Bool) (s : State) : Out := .next (s.checked (doFrameEnd p pcsError s))

/-- PFC_REFRESH (R116). -/
def execPfcRefresh (p : PortIx) (prio : Fin 8) (s : State) : Out := .next (doPfcRefresh p prio.val s)

/-- PFC_FRAME_TRANSMIT (R116). -/
def execPfcFrameTransmit (p : PortIx) (s : State) : Out := .next (doPfcTransmit p s)

/-- PFC_RECEIVE (R117). -/
def execPfcReceive (p : PortIx) (s : State) : Out := .next (doPfcReceive p s)

/-- PFC_PAUSE_EXPIRE (R117). -/
def execPfcPauseExpire (p : PortIx) (prio : Fin 8) (s : State) : Out := .next (doPfcExpire p prio.val s)

end Sys2Proof.Machine
end

