-- ==== Sys2Proof/Machine/Parse.lean ====
section
/-! DEFINITION. The parser (R120–R130): the entries of a parse bank, the built-in checks, and the walk of a frame's first 256 bytes. -/

namespace Sys2Proof.Machine

/-! ### Entries (R122, R123), as 128-, 48- and 32-bit numbers -/

def stHdr (e : Nat) : Nat := bits e 120 8
def stFixed (e : Nat) : Nat := bits e 112 8
def stLenEn (e : Nat) : Bool := e.testBit 111
def stLenOff (e : Nat) : Nat := bits e 104 7
def stLenMask (e : Nat) : Nat := bits e 96 8
def stLenShift (e : Nat) : Nat := bits e 93 3
def stAccept (e : Nat) : Bool := e.testBit 92
def stProf (e : Nat) : Nat := bits e 88 4
def stSelOff (e : Nat) : Nat := bits e 80 8
def stSelMask (e : Nat) : Nat := bits e 64 16
def stTransBase (e : Nat) : Nat := bits e 53 11
def stTransCount (e : Nat) : Nat := satTo (bits e 48 5) 16
def stNext (e : Nat) : Nat := bits e 40 8
def stExtrBase (e : Nat) : Nat := bits e 30 10
def stExtrCount (e : Nat) : Nat := satTo (bits e 25 5) 16

/-- The OUTER_ONLY reasons (R128). -/
abbrev ocNone : Nat := 0
abbrev ocFragment : Nat := 1
abbrev ocUnknown : Nat := 2
abbrev ocDepth : Nat := 3
abbrev ocWindow : Nat := 4
abbrev ocMalformed : Nat := 5
abbrev ocSteps : Nat := 6

/-- What a parse has gathered: its steps, the header records (type and offset), the field vector with the frame offset each byte came
from, and IPV4_CSUM_BAD. -/
structure ParseAcc where
  steps : Nat
  recs : List (Nat × Nat)
  fv : Tbl (Byte × Nat)
  csumBad : Bool
  deriving DecidableEq, Repr

/-- How a parse ended: the OUTER_ONLY reason and its boundary, or reason 0 and the key profile of the accepting state. -/
structure ParseEnd where
  code : Nat
  boundary : Nat
  prof : Nat
  acc : ParseAcc
  deriving DecidableEq, Repr

/-- A byte of a frame. -/
def fb (f : List Byte) (i : Nat) : Nat := (nth 0 f i).toNat

/-- Transition and extraction entries of a bank; one past the last index is not used and reads as not VALID (R121, R123). -/
def transAt (b : ParseBank) (i : Nat) : Nat := if i < 2048 then tget 0 b.trans i else 0
def extrAt (b : ParseBank) (i : Nat) : Nat := if i < 1024 then tget 0 b.extr i else 0

/-- The extraction entries a state applies: source offset, length, destination (R123). -/
def extrOf (b : ParseBank) (e : Nat) : List (Nat × Nat × Nat) :=
  (List.range (stExtrCount e)).filterMap fun i =>
    let x := extrAt b (stExtrBase e + i)
    if x.testBit 19 then some (bits x 24 8, (if bits x 20 4 = 0 then 16 else bits x 20 4), bits x 0 7) else none

/-- The options of an IPv4 header from `i` to `stop` are well formed, as far as bytes 0 to 255 tell (R125, R126). -/
def optionsOk (f : List Byte) (i stop : Nat) : Nat → Bool
  | 0 => true
  | fuel + 1 =>
    if stop ≤ i ∨ 256 ≤ i then true
    else
      let t := fb f i
      if t = 0 then true
      else if t = 1 then optionsOk f (i + 1) stop fuel
      else
        let l := fb f (i + 1)
        if stop ≤ i + 1 then false
        else if 256 ≤ i + 1 then true
        else if l < 2 ∨ stop < i + l then false else optionsOk f (i + l) stop fuel

/-- The byte ranges, from the header's start, that a header's built-in check reads (R125): an IPv4 header's length is known once its first
byte lies in the frame and in the window. -/
def checkSpan (f : List Byte) (ht off : Nat) : Nat :=
  if ht = 4 then (if off < f.length ∧ off < 256 then (if 20 < fb f off % 16 * 4 then fb f off % 16 * 4 else 20) else 20)
  else if ht = 5 then 6
  else 0

/-- A built-in check fails on bytes within the first 256 (R125, R126). -/
def checkFails (f : List Byte) (ht off : Nat) : Bool :=
  let n := f.length
  let inW (i : Nat) : Bool := decide (off + i < n) && decide (off + i < 256)
  if ht = 4 then
    let hl := fb f off % 16 * 4
    let tl := beNat (slice f (off + 2) 2)
    inW 0 && (decide (fb f off / 16 ≠ 4) || decide (hl < 20) || decide (n < off + hl) ||
      (inW 3 && (decide (tl < hl) || decide (n < off + tl))) ||
      !optionsOk f (off + 20) (off + hl) 40)
  else if ht = 5 then
    let pl := beNat (slice f (off + 4) 2)
    (inW 0 && decide (fb f off / 16 ≠ 6)) || (inW 5 && (decide (pl = 0) || decide (n < off + 40 + pl)))
  else false

/-- The FRAGMENT condition (R125). -/
def isFragment (f : List Byte) (ht off : Nat) : Bool :=
  decide (ht = 7) || (decide (ht = 4) && decide (beNat (slice f (off + 6) 2) % 0x4000 ≠ 0))

/-- An IPv4 header's checksum does not verify (R125). -/
def csumFails (f : List Byte) (ht off : Nat) : Bool :=
  decide (ht = 4) && decide (fold16 (sumWords (slice f off (fb f off % 16 * 4))) ≠ 0xFFFF)

/-- One extraction entry (R123, R124). -/
def applyExtr (f : List Byte) (off : Nat) (fv : Tbl (Byte × Nat)) (x : Nat × Nat × Nat) : Tbl (Byte × Nat) :=
  (List.range x.2.1).foldl (fun fv i =>
    if x.2.2 + i < 128 then tput fv (x.2.2 + i) (nth 0 f (off + x.1 + i), off + x.1 + i) else fv) fv

/-- The next state by a select value (R124). -/
def transNext (b : ParseBank) (e sel : Nat) : Nat :=
  match (List.range (stTransCount e)).find? fun i =>
    let t := transAt b (stTransBase e + i)
    t.testBit 0 && decide (sel &&& bits t 16 16 = bits t 32 16 &&& bits t 16 16) with
  | some i => bits (transAt b (stTransBase e + i)) 8 8
  | none => stNext e

/-- A byte range that a header reads: it may lie past the end of the frame, or past byte 255. -/
def pastEnd (f : List Byte) (a n : Nat) : Bool := decide (0 < n) && decide (f.length < a + n)
def pastWindow (a n : Nat) : Bool := decide (0 < n) && decide (256 < a + n)

/-- What one step of the parser decides (R124–R126): the parse ends, or goes on in a state at an offset. -/
inductive ParseStep where
  | stop (e : ParseEnd)
  | next (state off : Nat) (acc : ParseAcc)
  deriving DecidableEq, Repr

/-- One step in state entry `e` at offset `off`, the step and its header already counted (R124, R126). -/
def parseHeader (b : ParseBank) (f : List Byte) (e off : Nat) (a : ParseAcc) : ParseStep :=
  let ht := stHdr e
  let lenAt := off + stLenOff e
  let lenIn := !stLenEn e || (decide (lenAt < f.length) && decide (lenAt < 256))
  let len := stFixed e + (if stLenEn e then (fb f lenAt &&& stLenMask e) <<< stLenShift e else 0)
  let xs := extrOf b e
  let reads : List (Nat × Nat) :=
    (if stLenEn e then [(lenAt, 1)] else []) ++ (if lenIn then [(off, len)] else []) ++ xs.map (fun x => (off + x.1, x.2.1)) ++
    (if stAccept e then [] else [(off + stSelOff e, 2)]) ++ [(off, checkSpan f ht off)]
  let halt (code bd : Nat) (a : ParseAcc) : ParseStep := .stop { code := code, boundary := bd, prof := 0, acc := a }
  if reads.any (fun r => pastEnd f r.1 r.2) || checkFails f ht off then halt ocMalformed off a
  else if reads.any (fun r => pastWindow r.1 r.2) then halt ocWindow off a
  else
    let a1 := { a with fv := xs.foldl (applyExtr f off) a.fv, csumBad := a.csumBad || csumFails f ht off }
    if isFragment f ht off then halt ocFragment (off + len) a1
    else if stAccept e then .stop { code := ocNone, boundary := 0, prof := stProf e, acc := a1 }
    else .next (transNext b e (beNat (slice f (off + stSelOff e) 2) &&& stSelMask e)) (off + len) a1

/-- One step of the parser at a state (R124): the step limit, the depth limit, the header record, then the header. -/
def parseStep (b : ParseBank) (f : List Byte) (state off : Nat) (a : ParseAcc) : ParseStep :=
  let e := tget 0 b.states state
  let halt (code : Nat) (a : ParseAcc) : ParseStep := .stop { code := code, boundary := off, prof := 0, acc := a }
  if 48 ≤ a.steps then halt ocSteps a
  else
    let a1 := { a with steps := a.steps + 1 }
    if stHdr e = 0 then parseHeader b f e off a1
    else if 16 ≤ a.recs.length then halt ocDepth a1
    else
      let a2 := { a1 with recs := a1.recs ++ [(stHdr e, off)] }
      if stHdr e = 0xFF then halt ocUnknown a2 else parseHeader b f e off a2

/-- The walk from a state on; at most 49 steps are begun. -/
def parseFrom (b : ParseBank) (f : List Byte) (state off : Nat) (a : ParseAcc) : Nat → ParseEnd
  | 0 => { code := ocSteps, boundary := off, prof := 0, acc := a }
  | fuel + 1 =>
    match parseStep b f state off a with
    | .stop e => e
    | .next st o a1 => parseFrom b f st o a1 fuel

/-- A frame's parse from PARSE_START (R124). -/
def parseFrame (b : ParseBank) (f : List Byte) (start : Nat) : ParseEnd :=
  parseFrom b f start 0 { steps := 0, recs := [], fv := [], csumBad := false } 49

/-- The header records that stay: all, or those that start before the boundary of an OUTER_ONLY frame (R129). -/
def ParseEnd.headers (e : ParseEnd) : List (Nat × Nat) :=
  if e.code = ocNone then e.acc.recs else e.acc.recs.filter fun r => decide (r.2 < e.boundary)

/-- A field-vector byte; in an OUTER_ONLY frame one copied from at or beyond the boundary reads zero (R129). -/
def ParseEnd.fvByte (e : ParseEnd) (i : Nat) : Byte :=
  let (v, src) := tget (0, 0) e.acc.fv i
  if e.code ≠ ocNone ∧ e.boundary ≤ src then 0 else v

/-! ### Key profiles (R131–R133) -/

/-- Byte `i` of a profile's RANGE words names field-vector bytes: the key they assemble, at most 64 bytes (R132). A key byte that a RANGE
takes from past byte 127 of the field vector is zero (DESIGN CHOICE, log 89). -/
def profileKey (p : List Byte) (fv : Nat → Byte) : List Byte :=
  ((List.range 16).flatMap fun j =>
    let r := leNat (slice p (0x78 + 2 * j) 2)
    if r.testBit 11 then (List.range (bits r 12 4 + 1)).map fun i => if bits r 0 7 + i < 128 then fv (bits r 0 7 + i) else 0 else []).take 64

/-- Bytes hashed by a profile (R131). -/
def hashLen (ctrl : Nat) : Nat := if bits ctrl 8 7 = 0 ∨ 64 < bits ctrl 8 7 then 64 else bits ctrl 8 7

/-- H over the first HASH_LEN bytes of the masked key (R133). -/
def profileHash (p key : List Byte) : Nat :=
  let ctrl := leNat (slice p 0x6C 4)
  hashH (ctrl.testBit 15) (slice p 0x40 40) (leNat (slice p 0x68 4)) (maskBytes ((padTo key 64).take (hashLen ctrl)) (slice p 0 64))

end Sys2Proof.Machine
end

