-- ==== Sys2Proof/Machine/Classify.lean ====
section
/-! DEFINITION. The classifier (R118, R124–R142): the frame it takes next, its parse, key, hash, indirection and ingress meter. -/

namespace Sys2Proof.Machine

/-- The order key of a frame (R243). -/
def RxFrame.key (f : RxFrame) : Nat × Nat × Nat := (f.stamp.toNat, f.port, f.seq)

/-- The frame the classifier takes next: the oldest completed frame of its half, the inject queue included (R118, R246). -/
def oldestFrame (l : List RxFrame) : Option RxFrame :=
  l.foldl (fun best f => match best with
    | none => some f
    | some b => if keyLt f.key b.key then some f else some b) none

/-- The parse bank a stamp selects (R120). -/
def State.parseBank (s : State) (h : Half) (stamp : DWord) : ParseBank :=
  if s.bankOf h stamp = 0 then (s.ing.get h).bank0 else (s.ing.get h).bank1

/-- The bytes the parser sees: without the FCS (R109, R112). -/
def RxFrame.parseBytes (f : RxFrame) : List Byte := if f.port < 128 then f.bytes.take (f.bytes.length - 4) else f.bytes

/-- The HALF counter of an OUTER_ONLY reason (R144). -/
def outerCounter (code : Nat) : Nat := R.half_OUTER_FRAGMENT + 8 * (code - 1)

/-- The parse of a frame (R124). -/
def State.parseOf (s : State) (h : Half) (f : RxFrame) : ParseEnd :=
  parseFrame (s.parseBank h f.stamp) f.parseBytes (fld f.mac 8 8)

/-- The bytes a meter is charged for a frame (R141). A frame of P128–P131 has no OVERHEAD: its plain length is charged (DESIGN CHOICE,
log 89). -/
def RxFrame.meterBytes (f : RxFrame) : Nat :=
  if f.port < 128 then ((f.bytes.length : Int) + overheadOf (fld f.mac 40 8)).toNat else f.bytes.length

/-- The pre-colour of a frame (R142). -/
def preColour (aware : Bool) (bytes : List Byte) : Nat :=
  if aware && isTag bytes 12 && (nth 0 bytes 14).getLsbD 4 then colYellow else colGreen

/-- A red frame is discarded before it has a task (R142). One of P128–P131 has no PORT block and is counted nowhere (DESIGN CHOICE,
log 89). -/
def State.dropRed (s : State) (h : Half) (f : RxFrame) : State :=
  let s1 := s.dropFrame h f
  match f.physical with
  | some p => s1.bump (bPort p) R.port_METER_RED_DROP
  | none => s1

/-- The meter that a profile names for a frame (R141). -/
def meterIndex (f : RxFrame) (w ind : Nat) : Nat := (bits w 0 18 + if w.testBit 28 then ind else lpOf f.port) % 262144

/-- The ingress meter of a profile on a frame: the state after the charge and the colour; a meter whose tokens read uncorrectable gives
no stated colour (R141, R142, R233). -/
def State.ingressMeter (s : State) (h : Half) (f : RxFrame) (w ind : Nat) : State × Nat :=
  if w.testBit 31 then
    let i := meterIndex f w ind
    if (s.tab.get h).badMeters.contains i then ((s.fillMeter h i f.stamp.toNat).used, (s.free 2).toNat)
    else s.chargeMeter h i f.meterBytes f.stamp.toNat (preColour (w.testBit 30) f.bytes)
  else (s, colNone)

/-! ### The learn key (R225) -/

/-- Learning is on in a half (R232). -/
def State.learnEn (s : State) (h : Half) : Bool := bit (s.reg (bTable h 5) R.learn_LEARN_CFG) 0

/-- LEARN_PORTS enables a port (R232). -/
def State.learnPort (s : State) (h : Half) (p : Nat) : Bool :=
  if p < 64 then bit (s.reg (bTable h 5) R.learn_LEARN_PORTS_LO) p
  else decide (p < 128) && bit (s.reg (bTable h 5) R.learn_LEARN_PORTS_HI) (p - 64)

/-- A frame from a port is to be examined (R225). -/
def State.examineFrom (s : State) (h : Half) (key : List Byte) (p : Nat) : State :=
  if s.learnEn h ∧ s.learnPort h p then s.updTab h fun t => { t with examine := t.examine ++ [(key, p)] } else s

/-- The learn key of a frame: the field-vector bytes that LEARN_CFG names, 16 bytes, zero-filled (R131, R225). -/
def State.learnKeyOf (s : State) (h : Half) (fv : Nat → Byte) : List Byte :=
  let c := bTable h 5
  let range (r : Nat) : List Byte :=
    if r.testBit 11 then (List.range (bits r 12 4 + 1)).map fun i => if bits r 0 7 + i < 128 then fv (bits r 0 7 + i) else 0 else []
  padTo (range (s.rfld c R.learn_LEARN_CFG 32 16) ++ range (s.rfld c R.learn_LEARN_CFG 48 16)) 16

/-- The classifier builds a frame's learn key, and a frame of an own port is examined (R225). -/
def State.learnFrom (s : State) (h : Half) (f : RxFrame) (key : List Byte) : State :=
  let s1 := match f.chain with
    | some id => s.updChain h id fun c => { c with learnKey := key }
    | none => s
  s1.examineFrom h key f.port

/-- The parse of a frame is done: its key, hash, selector, domain, order mode, meter and colour (R129, R131–R136, R141, R142). -/
def State.finishClassify (s : State) (h : Half) (f : RxFrame) (e : ParseEnd) : State :=
  let b := s.parseBank h f.stamp
  let prof := if e.code = ocNone then e.prof else fld f.mac 4 4
  let p := padTo (tget [] b.profiles prof) 160
  let ctrl := leNat (slice p 0x6C 4)
  let key := profileKey p e.fvByte
  let hash := profileHash p key
  let ind := hash % 4096
  let m := (hash / 65536) ^^^ bits (s.indirectionAt h ind f.stamp.toNat) 16 16
  let domain := match bits ctrl 28 2 with
    | 1 => f.port
    | 2 => ind
    | _ => bits ctrl 16 12
  let mode := if bits ctrl 30 2 = 3 then 1 else bits ctrl 30 2
  let w := leNat (slice p 0x70 4)
  let s0 := s.learnFrom h f (s.learnKeyOf h e.fvByte)
  let s1 := if e.code = ocNone then s0 else s0.bump (bHalf h) (outerCounter e.code)
  let (s2, colour) := s1.ingressMeter h f w ind
  if w.testBit 31 ∧ w.testBit 29 ∧ colour = colRed then (s2.updIng h fun i => { i with cur := none }).dropRed h f
  else
    let c : ClsFrame :=
      { frame := f, bank := s.bankOf h f.stamp, second := false, outer := e.code, csumBad := e.acc.csumBad,
        hdrs := e.headers.map (fun r => r.1 * 256 + r.2 % 256), key := padTo key 64, keyLen := key.length, hash := hash, m := m,
        domain := domain, mode := mode, colour := colour, program := bits ctrl 0 8 }
    s2.updIng h fun i => { i with cur := some c }

/-- The table slots that classifying a frame reads: its indirection entry, and with an ingress meter the meter and its profile (R136, R141). -/
def State.classReads (s : State) (h : Half) (f : RxFrame) (e : ParseEnd) : List (Nat × Nat) :=
  let b := s.parseBank h f.stamp
  let prof := if e.code = ocNone then e.prof else fld f.mac 4 4
  let p := padTo (tget [] b.profiles prof) 160
  let ind := profileHash p (profileKey p e.fvByte) % 4096
  let w := leNat (slice p 0x70 4)
  let i := meterIndex f w ind
  (1, ind) :: (if w.testBit 31 then [(5, i), (6, s.meterProfIx h (s.meterOf h i) f.stamp.toNat)] else [])

/-- The classification of a frame waits for the rewrite of a slot it reads (R233, R236). -/
def State.classHeld (s : State) (h : Half) (f : RxFrame) (e : ParseEnd) : Bool :=
  (s.classReads h f e).any fun x => (s.tab.get h).withheld.contains x || (s.tab.get h).shadowHeld.contains x

/-- A frame that needs a second pass waits for it (R127). -/
def waitPass (f : RxFrame) (bank : Nat) : ClsFrame :=
  { frame := f, bank := bank, second := true, outer := 0, csumBad := false, hdrs := [], key := [], keyLen := 0, hash := 0, m := 0,
    domain := 0, mode := 0, colour := colNone, program := 0 }

/-- The classifier takes the oldest frame and parses it in one pass, or counts it as a two-pass frame (R118, R127). -/
def doClassify (h : Half) (s : State) : State :=
  let i := s.ing.get h
  if s.live (.half h) ∧ i.cur = none then
    match oldestFrame (i.done ++ i.inject) with
    | none => s
    | some f =>
      let s1 := s.updIng h fun i => { i with done := i.done.filter (· ≠ f), inject := i.inject.filter (· ≠ f) }
      let e := s.parseOf h f
      if 24 < e.acc.steps then
        (s1.bump (bHalf h) R.half_TWO_PASS).updIng h fun i => { i with cur := some (waitPass f (s.bankOf h f.stamp)) }
      else if s.classHeld h f e then s else s1.finishClassify h f e
  else s

/-- The second pass of a frame of more than 24 steps (R127). -/
def doSecondPass (h : Half) (s : State) : State :=
  match (s.ing.get h).cur with
  | some c =>
    if s.live (.half h) ∧ c.second = true ∧ ¬ s.classHeld h c.frame (s.parseOf h c.frame) then s.finishClassify h c.frame (s.parseOf h c.frame)
    else s
  | none => s

/-- CLASSIFY_FRAME (R118). -/
def execClassifyFrame (h : Half) (s : State) : Out := .next (doClassify h s)

/-- PARSE_SECOND_PASS (R127). -/
def execParseSecondPass (h : Half) (s : State) : Out := .next (doSecondPass h s)

end Sys2Proof.Machine
end

