-- ==== Sys2Proof/Machine/TaskMake.lean ====
section
/-! DEFINITION. Placing a frame and creating its task (R137, R138, R167–R170, R244–R246), the service slots' flags (R260–R263), Confluence
(R264–R269), OLDEST_LIVE (R270–R272) and the switch of program images (R273, R274). -/

namespace Sys2Proof.Machine

/-! ### Placement (R137, R245, R246) -/

/-- The tiles of a half, from tile `first` on, modulo 16. -/
def tilesFrom (first : Nat) : List TileIx := (List.range 16).map fun j => Fin.ofNat 16 (first + j)

/-- Packet slots of a tile that are not FREE (TASK_STAT.LIVE). -/
def State.liveSlots (s : State) (h : Half) (t : TileIx) : Nat := ((s.liveTasks h t).filter fun e => decide (e.1 < svcBase)).length

/-- A tile has a free task slot (R244). -/
def State.hasSlot (s : State) (h : Half) (t : TileIx) : Bool := decide (s.liveSlots h t < svcBase)

/-- Core positions of a tile. -/
def corePos : List (Fin 4 × Fin 4) := (List.range 16).map fun i => (Fin.ofNat 4 (i / 4), Fin.ofNat 4 (i % 4))

/-- ACTIVE core positions of a tile. -/
def State.activeCores (s : State) (h : Half) (t : TileIx) : Nat := (corePos.filter fun c => s.live (.core h t c.1 c.2)).length

/-- One tile's load is below another's: live slots × 16 / ACTIVE cores (R245); a tile with no ACTIVE core has the highest. -/
def State.loadLt (s : State) (h : Half) (a b : TileIx) : Bool :=
  let ca := s.activeCores h a
  let cb := s.activeCores h b
  if ca = 0 then false else if cb = 0 then true else decide (s.liveSlots h a * cb < s.liveSlots h b * ca)

/-- A tile is eligible for ordered and free tasks (R245). -/
def State.eligible (s : State) (h : Half) (t : TileIx) : Bool :=
  s.live (.tile h t) && bit (s.reg (bTsched h t) R.tsched_DISP_CFG) 0 && s.hasSlot h t

/-- The tile of an atomic frame: TILE of its entry at its stamp, or the next ACTIVE one, and whether it is redirected (R137). -/
def State.atomicTile (s : State) (h : Half) (c : ClsFrame) : Option (TileIx × Bool) :=
  let t0 := bits (s.indirectionAt h (c.hash % 4096) c.frame.stamp.toNat) 0 4
  ((tilesFrom t0).find? fun t => s.live (.tile h t)).map fun t => (t, decide (t.val ≠ t0))

/-- The eligible tile of lowest load; ties go to the first counting upward from the tile chosen last (R245). -/
def State.lightTile (s : State) (h : Half) : Option TileIx :=
  (tilesFrom ((s.ing.get h).lastTile + 1)).foldl (fun best t =>
    if s.eligible h t then
      match best with
      | none => some t
      | some b => if s.loadLt h t b then some t else some b
    else best) none

/-- Where the classified frame goes, and whether that is a redirect; none while it cannot be placed (R246). -/
def State.place (s : State) (h : Half) (c : ClsFrame) : Option (TileIx × Bool) :=
  if c.mode = 2 then
    match s.atomicTile h c with
    | some (t, r) => if s.hasSlot h t then some (t, r) else none
    | none => none
  else (s.lightTile h).map fun t => (t, false)

/-- A free slot of a tile at or after `k`; which one the classifier takes the spec leaves open (R244). -/
def Tile.freeSlot (x : Tile) (k : Nat) : Nat → Nat
  | 0 => k
  | fuel + 1 => if (tget Task.init x.tasks k).state = .free then k else x.freeSlot ((k + 1) % svcBase) fuel

/-! ### Creation (R138, R167–R170, R239, R244, R264, R268) -/

/-- The context block of a new packet task (R239). -/
def contextBytes (c : ClsFrame) : List Byte :=
  leBytes 8 c.frame.stamp.toNat ++ leBytes 8 c.frame.ptp.toNat ++ leBytes 8 0 ++
  leBytes 8 (c.hash <<< 32 ||| (c.m % 65536) <<< 16 ||| (c.domain % 4096) <<< 4 ||| c.mode <<< 2 ||| c.colour) ++
  ((List.range 16).flatMap fun k => leBytes 2 (nth 0 c.hdrs k)) ++ padTo c.key 64

/-- W of HALF.BRAMBLE_CFG (R168). -/
def State.brambleWindow (s : State) (h : Half) : Nat :=
  let w := s.rfld (bHalf h) R.half_BRAMBLE_CFG 0 3
  if w < 4 then 64 * 2 ^ w else 1024

/-- The order mode of a classified frame. -/
def modeOf (m : Nat) : OrderMode := if m = 1 then .ordered else if m = 2 then .atomic else .free

/-- The task of a classified frame as it is created (R240, R244). -/
def State.newTask (s : State) (h : Half) (t : TileIx) (c : ClsFrame) : Task :=
  let f := c.frame
  let len := f.parseBytes.length
  let prio := s.rfld (bTsched h t) R.tsched_DISP_CFG (8 + 3 * (f.prio.getD 0)) 3
  let dep := s.rfld (bHalf h) R.half_BRAMBLE_CFG 4 2
  let cells := match f.chain with
    | some id => (s.chain h id).cells
    | none => []
  let w := s.brambleWindow h
  let x : Task :=
    { Task.init with
      state := .ready, keyLen := c.keyLen, rxPrio := f.prio.getD 0, outerCode := c.outer, csumBad := c.csumBad, program := c.program,
      port := f.port, length := len, chain := f.chain, headCell := nth 0 cells 0, basePrio := prio, effPrio := prio, bank := c.bank,
      stamp := f.stamp, seq := f.seq, flowTag := c.hash, m := c.m % 65536, domain := c.domain % 4096, mode := modeOf c.mode,
      scan := .waiting, scanLen := if len < w then len else w, scanDep := dep, born := (s.ing.get h).nextBorn }
  x.setDc dep 1

/-- A live atomic task of an indirection entry created before number `born` in a tile other than `t` (R138). -/
def State.heldElsewhere (s : State) (h : Half) (t : TileIx) (ind born : Nat) : Bool :=
  (tilesFrom 0).any fun u => decide (u ≠ t) &&
    (s.liveTasks h u).any fun e => decide (e.1 < svcBase) && decide (e.2.state ≠ .draining) && decide (e.2.mode = .atomic) &&
      decide (e.2.flowTag % 4096 = ind) && decide (e.2.born < born)

/-- The tile that serves an indirection entry has changed: an entry with tasks left behind is held (R138). -/
def State.noteMove (s : State) (h : Half) (t : TileIx) (ind born : Nat) : State :=
  let moved := match tget? (s.ing.get h).indTile ind with
    | some u => decide (u ≠ t.val)
    | none => false
  let s1 := if moved && s.heldElsewhere h t ind born then s.bump (bHalf h) R.half_IND_MOVE_HOLD else s
  s1.updIng h fun i => { i with indTile := tput i.indTile ind t.val }

/-- The window of a domain: tiles and slots in order key (R264). -/
def State.domWin (s : State) (h : Half) (d : Nat) : List (Nat × Nat) := tget [] (s.conf.get h).windows d

/-- Set the window of a domain. -/
def State.setDomWin (s : State) (h : Half) (d : Nat) (l : List (Nat × Nat)) : State :=
  { s with conf := s.conf.upd h fun c => { c with windows := tset [] c.windows d l } }

/-- The task that a window's entry names. -/
def State.windowTask (s : State) (h : Half) (e : Nat × Nat) : Task := s.task h (Fin.ofNat 16 e.1) e.2

/-- The domain whose window's head is complete and oldest in order key (R265). -/
def State.releasable (s : State) (h : Half) : Option Nat :=
  ((s.conf.get h).windows.foldl (fun best e =>
    match e.2 with
    | [] => best
    | w :: _ =>
      let x := s.windowTask h w
      if x.complete then
        match best with
        | none => some (e.1, x.key)
        | some b => if keyLt x.key b.2 then some (e.1, x.key) else some b
      else best) (none : Option (Nat × (Nat × Nat × Nat)))).map (·.1)

/-- The oldest releasable tasks of the half are released, `n` at most (R265). -/
def State.releaseUpTo (s : State) (h : Half) : Nat → State
  | 0 => s
  | n + 1 =>
    match s.releasable h with
    | none => s
    | some d =>
      match s.domWin h d with
      | [] => s
      | e :: r => ((s.setDomWin h d r).releaseOrdered h (Fin.ofNat 16 e.1) e.2 false).releaseUpTo h n

/-- The head of a domain's window is overtaken under a counter (R266, R268): the tasks that follow it are then released as R265 gives. -/
def State.overtake (s : State) (h : Half) (d : Nat) (ctr : Nat) : State :=
  match s.domWin h d with
  | [] => s
  | e :: r =>
    let s1 := (s.setDomWin h d r).updTask h (Fin.ofNat 16 e.1) e.2 fun x => { x with overtaken := true }
    s1.bump (bHalf h) ctr

/-- Room for one more task in a domain's window of 2,048 (R268). -/
def State.makeRoom (s : State) (h : Half) (d : Nat) : State :=
  match s.domWin h d with
  | [] => s
  | e :: r =>
    if 2048 ≤ (e :: r).length then
      if (s.windowTask h e).complete then (s.setDomWin h d r).releaseOrdered h (Fin.ofNat 16 e.1) e.2 false
      else (s.overtake h d R.half_WINDOW_OVERTAKEN).releaseUpTo h 32
    else s

/-- A task enters its domain's window in order key (R264). -/
def State.joinWindow (s : State) (h : Half) (t : TileIx) (k : Nat) : State :=
  let x := s.task h t k
  let w := s.domWin h x.domain
  let before (e : Nat × Nat) : Bool := keyLt (s.windowTask h e).key x.key
  s.setDomWin h x.domain (w.takeWhile before ++ (t.val, k) :: w.dropWhile before)

/-- The classified frame becomes a task in slot `k` of tile `t` (R137, R138, R170, R244, R264, R268). -/
def State.createTask (s : State) (h : Half) (t : TileIx) (k : Nat) (redirect : Bool) (c : ClsFrame) : State :=
  let x := s.newTask h t c
  let s1 := s.updTask h t k fun _ => x
  let s2 := s1.updTile h t fun y =>
    { ((y.put (.store (448 * k)) (contextBytes c)).put (.store (448 * k + 128)) (padTo c.frame.parseBytes 256)) with scans := y.scans ++ [k] }
  let s3 := s2.bump (bTsched h t) R.tsched_TASKS_CREATED
  let s4 := if redirect then s3.bump (bHalf h) R.half_IND_REDIRECT else s3
  let s5 := if c.mode = 2 then s4.noteMove h t (c.hash % 4096) x.born else s4.updIng h fun i => { i with lastTile := t.val }
  let s6 := if c.mode = 1 then (s5.makeRoom h x.domain).joinWindow h t k else s5
  (s6.leaveRxq h c.frame).updIng h fun i => { i with cur := none, nextBorn := i.nextBorn + 1 }

/-- The classifier creates the task of the frame at its head, or stalls (R244, R246). -/
def doTaskCreate (h : Half) (s : State) : State :=
  match (s.ing.get h).cur with
  | none => s
  | some c =>
    if s.live (.half h) ∧ c.second = false then
      match s.place h c with
      | none => s
      | some (t, r) => s.used.createTask h t ((s.tile h t).freeSlot ((s.free 32).toNat % svcBase) svcBase) r c
    else s

/-- The classifier stalls, and whether its frame is atomic (R118, R246). -/
def State.clsStall (s : State) (h : Half) : Option Bool :=
  match (s.ing.get h).cur with
  | none => none
  | some c => if s.live (.half h) && !c.second && (s.place h c).isNone then some (decide (c.mode = 2)) else none

/-! ### Service slots (R260–R263) -/

/-- A unit sets flags of a service slot; a slot whose EN is 0 takes none (R263). -/
def State.svcPost (s : State) (h : Half) (t : TileIx) (j : Nat) (m : Word) : State :=
  if bit (s.reg (bTsched h t) (R.tsched_SVC_CFG + 8 * j)) 0 then
    s.setReg (bTsched h t) (R.tsched_SVC_FLAGS + 8 * j)
      (BitVec.ofNat 64 ((BitVec.ofNat 32 (s.rfld (bTsched h t) (R.tsched_SVC_FLAGS + 8 * j) 0 32) ||| m).toNat))
  else s

/-- The event an event target register names (R263). -/
def State.svcEvent (s : State) (h : Half) (v : DWord) : State :=
  if bit v 15 then s.svcPost h (Fin.ofNat 16 (fld v 10 4)) (fld v 5 5) (BitVec.ofNat 32 (1 <<< fld v 0 5)) else s

/-- A write of SVC_CFG_s; EN from 0 to 1 zeroes the context block (R260, R262). -/
def State.svcConfig (s : State) (h : Half) (t : TileIx) (j : Nat) (v : DWord) : State :=
  let off := R.tsched_SVC_CFG + 8 * j
  let old := s.reg (bTsched h t) off
  let new : DWord := BitVec.ofNat 64 (fld v 32 32 <<< 32 ||| fld v 8 8 <<< 8 ||| fld v 4 3 <<< 4 ||| fld v 0 1)
  let s1 := s.setReg (bTsched h t) off new
  if bit v 0 ∧ ¬ bit old 0 then s1.updTile h t fun y => y.put (.store (ctxOff (svcBase + j))) (List.replicate 128 0) else s1

/-! ### Confluence (R264–R269) -/

/-- One cycle of Confluence (R265). -/
def doConfluence (h : Half) (s : State) : State := if s.live (.half h) then s.releaseUpTo h 32 else s

/-- The patience of a domain in ticks (R269). -/
def State.patience (s : State) (h : Half) (d : Nat) : Nat :=
  let c := s.rfld (bHalf h) (R.half_DOM_CLASS + 8 * (d / 16)) (4 * (d % 16)) 3
  let us := s.rfld (bHalf h) (R.half_PATIENCE + 8 * c) 0 10
  usTicks * (if us = 0 then 1 else if 1000 < us then 1000 else us)

/-- The comparison of R266 for one domain; a head stamped before a load waits from the load tick (R80). -/
def State.checkDomain (h : Half) (s : State) (d : Nat) : State :=
  match s.domWin h d with
  | [] => s
  | e :: _ =>
    let x := s.windowTask h e
    if x.complete = false ∧ s.patience h d ≤ s.headWait h x.stamp.toNat then s.overtake h d R.half_OVERTAKEN_PATIENCE else s

/-- DTS is compared with the head of every domain; where heads have been overtaken, the first 32 of the tasks that can now be released go,
oldest first, and the others in the cycles that follow (R265, R266). -/
def doPatience (h : Half) (s : State) : State :=
  if s.live (.half h) then
    let s1 := ((s.conf.get h).windows.map (·.1)).foldl (State.checkDomain h) s
    if (s1.conf.get h).windows = (s.conf.get h).windows then s1 else s1.releaseUpTo h 32
  else s

/-! ### OLDEST_LIVE and the images (R222, R270–R274) -/

/-- A released multicast frame will cross Ford: its list names a target of the other half, or cannot be read yet (R26, R270). -/
def State.willCross (s : State) (h : Half) (w : WalkReq) : Bool :=
  let x := s.replWalk h (s.chain h w.chain) w.list
  x.waits || x.targets.any fun t => t.crossing

/-- The stamps that hold back OLDEST_LIVE (R24, R270). -/
def State.holders (s : State) (h : Half) : List Nat :=
  let i := s.ing.get h
  ((i.arriving.map (·.2)).filter fun f => !f.cut).map (fun f => f.stamp.toNat) ++ (i.done ++ i.inject).map (fun f => f.stamp.toNat) ++
  (i.cur.toList.map fun c => c.frame.stamp.toNat) ++
  ((s.tiles.get h).flatMap fun e => (e.2.tasks.filter fun x => decide (x.2.state ≠ .free) && decide (x.2.state ≠ .draining)).map
    fun x => x.2.stamp.toNat) ++
  ((s.buf.get h).walks.filter fun w => s.willCross h w).map (fun w => (s.chain h w.chain).stamp.toNat) ++
  (s.conf.get h).crossing.map (fun e => e.2.toNat) ++ (s.conf.get h).registered.map (fun e => e.2.toNat)

/-- OLDEST_LIVE at a sample: the smaller of DTS − 16 and the oldest stamp held (R270). -/
def State.oldestLive (s : State) (h : Half) : Nat :=
  (s.holders h).foldl (fun m x => if x < m then x else m) ((s.dts h).toNat - 16)

/-- OLDEST_LIVE as a half last published it (R272). -/
def State.published (s : State) (h : Half) : Nat := (s.reg (bHalf h) R.half_OLDEST_LIVE).toNat

/-- Confluence publishes OLDEST_LIVE (R270, R272). -/
def doOldestLive (h : Half) (s : State) : State :=
  if s.live (.half h) then s.setReg (bHalf h) R.half_OLDEST_LIVE (BitVec.ofNat 64 (s.oldestLive h)) else s

/-- The other half and both FORD units are ACTIVE, and the peer is not lost, or Ford has become ACTIVE since and no notice has come (R222,
R532, R533). -/
def State.pairActive (s : State) (h : Half) : Bool :=
  s.live (.half (other h)) && s.live (.ford 0) && s.live (.ford 1) && (!(s.ford.get h).lost || !(s.tab.get h).noticed)

/-- RETIRE_BASIS (R222): while Ford is ACTIVE and no notice has come, it holds the value of the register. -/
def State.retireBasis (s : State) (h : Half) : Nat :=
  if s.pairActive h then
    if (s.tab.get h).noticed then
      let r := (s.conf.get h).remote.toNat
      if r < s.published h then r else s.published h
    else (s.reg (bTable h 7) R.version_RETIRE_BASIS).toNat
  else s.published h

/-- The states of IMG_CTL (R274). -/
def State.imgState (s : State) (h : Half) : Nat := s.rfld (bHalf h) R.half_IMG_CTL 4 2

/-- A write of ARM or DISARM (R274). -/
def State.imgCtl (s : State) (h : Half) (arm disarm : Bool) : State :=
  let b := bHalf h
  if disarm then (if s.imgState h = 1 then s.setRfld b R.half_IMG_CTL 4 2 0 else s)
  else if arm then
    let sw := s.reg b R.half_IMG_SWITCH_AT
    if s.imgState h = 0 ∧ (s.dts h).toNat + 64 ≤ sw.toNat ∧ sw.toNat < 2 ^ 60 then
      (s.setRfld b R.half_IMG_CTL 4 2 1).updIng h fun i => { i with imgNext := sw }
    else s.setRfld b R.half_IMG_CTL 48 16 (satTo (s.rfld b R.half_IMG_CTL 48 16 + 1) 0xFFFF)
  else s

/-- DTS has reached SW: NEW_BANK inverts (R274). -/
def doImgSwitch (h : Half) (s : State) : State :=
  let sw := (s.ing.get h).imgNext
  if s.imgState h = 1 ∧ sw.toNat ≤ (s.dts h).toNat then
    (((s.setRfld (bHalf h) R.half_IMG_CTL 4 2 2).setRfld (bHalf h) R.half_IMG_CTL 0 1 (1 - s.rfld (bHalf h) R.half_IMG_CTL 0 1))).updIng h
      fun i => { i with imgLast := sw }
  else s

/-- RETIRE_BASIS has reached SW: the switch is over (R274). -/
def doImgDrainEnd (h : Half) (s : State) : State :=
  if s.imgState h = 2 ∧ (s.ing.get h).imgLast.toNat ≤ s.retireBasis h then s.setRfld (bHalf h) R.half_IMG_CTL 4 2 0 else s

/-! ### The commands -/

/-- TASK_CREATE (R244). -/
def execTaskCreate (h : Half) (s : State) : Out := .next (s.checked (doTaskCreate h s))

/-- CONFLUENCE_RELEASE (R265). -/
def execConfluenceRelease (h : Half) (s : State) : Out := .next (s.checked (doConfluence h s))

/-- PATIENCE_CHECK (R266). -/
def execPatienceCheck (h : Half) (s : State) : Out := .next (doPatience h s)

/-- OLDEST_LIVE_SAMPLE (R270). -/
def execOldestLiveSample (h : Half) (s : State) : Out := .next (doOldestLive h s)

end Sys2Proof.Machine
end

