-- ==== Sys2Proof/Machine/Batch.lean ====
section
/-! DEFINITION. The VERSION unit (R211–R221): batch slots, the records of a list and the reasons for which one is refused, undoing,
posting and the retirement walk. -/

namespace Sys2Proof.Machine

/-! ### Targets (R213) -/

abbrev tgExact : Nat := 0
abbrev tgInd : Nat := 1
abbrev tgGroup : Nat := 2
abbrev tgMember : Nat := 3
abbrev tgLpm : Nat := 4
abbrev tgMeter : Nat := 5
abbrev tgProfile : Nat := 6
abbrev tgAssoc : Nat := 7
abbrev tgBramble : Nat := 8
abbrev tgRepl : Nat := 9

abbrev opInsert : Nat := 1
abbrev opModify : Nat := 2
abbrev opDelete : Nat := 3
abbrev opWrite : Nat := 4
abbrev opRetire : Nat := 5
abbrev opRouteAdd : Nat := 6
abbrev opRouteDel : Nat := 7
abbrev opLearn : Nat := 8

/-- Entries of an indexed target (R135, R152, R172, R184, R448). -/
def tgCap (t : Nat) : Nat :=
  match t with
  | 1 => 4096
  | 2 => 65536
  | 3 => 262144
  | 5 => 262144
  | 6 => 4096
  | 7 => 65536
  | 8 => 16384
  | 9 => 131072
  | _ => 0

/-- Payload bytes of a WRITE to an indexed target, or of a record of a keyed one (R213). -/
def tgLen (t : Nat) : Nat :=
  match t with
  | 0 => 32
  | 4 => 24
  | 5 => 8
  | 6 => 16
  | 7 => 176
  | 8 => 72
  | 9 => 8
  | _ => 4

/-- Where the entries of ASSOC, BRAMBLE and REPL hold VALID, VSTATE and BATCH (R153, R172, R448). -/
structure EntBits where
  valid : Nat
  vs : Nat
  batch : Nat
  deriving DecidableEq, Repr

def entBits (t : Nat) : EntBits :=
  match t with
  | 7 => ⟨1280, 1330, 1322⟩
  | 8 => ⟨16, 50, 42⟩
  | _ => ⟨48, 34, 26⟩

/-- A number with field [lsb + len − 1 : lsb] set. -/
def setBits (v lsb len x : Nat) : Nat := v - bits v lsb len * 2 ^ lsb + (x % 2 ^ len) * 2 ^ lsb

/-- An entry image with the fields that the VERSION unit sets (R213). -/
def entImage (t img vs b : Nat) : Nat :=
  let e := entBits t
  setBits (setBits (setBits img e.valid 1 1) e.vs 2 vs) e.batch 8 b

def entVs (t img : Nat) : Nat := bits img (entBits t).vs 2
def entBatch (t img : Nat) : Nat := bits img (entBits t).batch 8

/-- The entries of ASSOC, BRAMBLE or REPL. -/
def State.entries (s : State) (h : Half) (t : Nat) : Tbl Nat :=
  match t with
  | 7 => (s.assoc.get h).entries
  | 8 => (s.tab.get h).patterns
  | _ => (s.tab.get h).repl

/-- Change the entries of ASSOC, BRAMBLE or REPL. -/
def State.updEntries (s : State) (h : Half) (t : Nat) (f : Tbl Nat → Tbl Nat) : State :=
  match t with
  | 7 => { s with assoc := s.assoc.upd h fun a => { a with entries := f a.entries } }
  | 8 => s.updTab h fun x => { x with patterns := f x.patterns }
  | _ => s.updTab h fun x => { x with repl := f x.repl }

/-- The value of an index of INDIRECTION, GROUP, MEMBER or PROFILE. -/
def TableState.indexed (x : TableState) (t i : Nat) : Indexed :=
  match t with
  | 1 => tget (indRst i) x.indirection i
  | 2 => tget Indexed.init x.groups i
  | 3 => tget Indexed.init x.members i
  | _ => tget Indexed.init x.profiles i

/-- Set an index of INDIRECTION, GROUP, MEMBER or PROFILE. -/
def TableState.setIndexed (x : TableState) (t i : Nat) (v : Indexed) : TableState :=
  match t with
  | 1 => { x with indirection := tset (indRst i) x.indirection i v }
  | 2 => { x with groups := tset Indexed.init x.groups i v }
  | 3 => { x with members := tset Indexed.init x.members i v }
  | _ => { x with profiles := tset Indexed.init x.profiles i v }

/-- A target with a value in force and an alternate (R213). -/
def tgAlt (t : Nat) : Bool := t == tgInd || t == tgGroup || t == tgMember || t == tgProfile

/-- A target whose entries carry their own version state (R213). -/
def tgEnt (t : Nat) : Bool := t == tgAssoc || t == tgBramble || t == tgRepl

/-! ### Pending entries -/

/-- Pending versioned entries of a half (R214). -/
def State.pendingTotal (s : State) (h : Half) : Nat := (s.tab.get h).slots.foldl (fun n e => n + e.2.touched.length) 0

abbrev maxPending : Nat := 65536

/-- PENDING_TOTAL.PEAK follows the total. -/
def State.notePeak (s : State) (h : Half) : State :=
  let b := bTable h 7
  if s.rfld b R.version_PENDING_TOTAL 32 17 < s.pendingTotal h then s.setRfld b R.version_PENDING_TOTAL 32 17 (s.pendingTotal h) else s

/-- The batch touches an entry, and with it a key or index (R214). -/
def State.touchEntries (s : State) (h : Half) (b : Nat) (ts : List Touch) (key : Option (Nat × Nat)) : State :=
  s.updSlot h b fun x => { x with touched := x.touched ++ ts, keys := x.keys ++ key.toList }

/-! ### Records (R212–R214) -/

/-- A record of a batch list: the fields of its header and its payload (R212). -/
structure BatchRec where
  op : Nat
  table : Nat
  zero : Nat
  len : Nat
  index : Nat
  payload : List Byte
  deriving DecidableEq, Repr

/-- A record from its header and payload (R212). -/
def batchRec (hdr : Nat) (payload : List Byte) : BatchRec :=
  { op := bits hdr 56 8, table := bits hdr 52 4, zero := bits hdr 48 4, len := bits hdr 32 16, index := bits hdr 0 32, payload := payload }

/-- Fields of a ROUTE record's payload (R213). -/
def BatchRec.word (r : BatchRec) : Nat := leNat (slice r.payload 0 8)
def BatchRec.routeFam (r : BatchRec) : Nat := bits r.word 39 1
def BatchRec.routeLen (r : BatchRec) : Nat := bits r.word 40 8
def BatchRec.route (r : BatchRec) : Nat :=
  routeKey (bits r.word 48 16) r.routeFam r.routeLen
    (if r.routeFam = 0 then beNat (slice r.payload 8 4) else beNat (slice r.payload 8 16))

/-- TID and KEY of an entry image (R191). -/
def BatchRec.exTid (r : BatchRec) : Nat := bits (leNat r.payload) 56 8
def BatchRec.exK (r : BatchRec) : Nat := bits (leNat r.payload) 128 128

/-- The reasons of R214. -/
abbrev rsBusy : Nat := 1
abbrev rsExists : Nat := 2
abbrev rsNotFound : Nat := 3
abbrev rsFull : Nat := 4
abbrev rsPendingFull : Nat := 5
abbrev rsBad : Nat := 6
abbrev rsNotFree : Nat := 7
abbrev rsList : Nat := 8
abbrev rsEarly : Nat := 9
abbrev rsRange : Nat := 10

/-- The first reason of a list that applies, 0 for none (R214). -/
def firstReason : List (Bool × Nat) → Nat
  | [] => 0
  | (c, r) :: l => if c then r else firstReason l

/-- The half would hold more pending entries than it can with `n` more (R214). -/
def State.overPending (s : State) (h : Half) (n : Nat) : Bool := decide (maxPending < s.pendingTotal h + n)

/-- The reason that refuses a record of EXACT, or 0 (R214). -/
def State.exReason (s : State) (h : Half) (b : Nat) (r : BatchRec) : Nat :=
  let bad := decide (r.zero ≠ 0) || decide (r.index ≠ 0)
  let shape := (decide (1 ≤ r.op) && decide (r.op ≤ 3) || decide (r.op = opLearn)) && decide (r.len = 32)
  if !shape then rsBad
  else if r.op = opLearn then (if bad then rsBad else 0)
  else
    let found := (s.tab.get h).exFind r.exTid r.exK
    let stable := found.find? fun e => e.2.vstate = vsStable
    let learned := match stable with | some e => e.2.learned | none => false
    let n := (if r.op = opDelete then 0 else 1) + (if stable.isSome then 1 else 0)
    firstReason [
      ((found.any fun e => decide (e.2.vstate ≠ vsStable)) || (s.bslot h b).keys.contains (tgExact, exKey r.exTid r.exK), rsBusy),
      (decide (r.op = opInsert) && stable.isSome && !learned, rsExists),
      (decide (r.op ≠ opInsert) && stable.isNone, rsNotFound),
      (decide (r.op ≠ opDelete) && !s.exHasSlot h r.exTid r.exK, rsFull),
      (s.overPending h n, rsPendingFull),
      (bad, rsBad)]

/-- A route record only replaces the RESULT held on chip (R203). -/
def State.routeInPlace (s : State) (h : Half) (r : BatchRec) : Bool :=
  decide (r.op = opRouteAdd) && s.leafOnChip h && !((s.tab.get h).route r.route).isEmpty

/-- The pending entries that a route record adds (R203). -/
def State.routeTouches (s : State) (h : Half) (r : BatchRec) : List Touch :=
  if s.routeInPlace h r then [.route r.route]
  else ((routeBuckets r.route).filter fun b => (tget? (s.tab.get h).buckets b).isNone).flatMap fun b => [.bucketNew b, .bucketOld b]

/-- The reason that refuses a record of LPM, or 0 (R203, R214). A prefix length above the family's bits, and payload bits [38:32] that
are not zero, refuse it with BAD_RECORD (DESIGN CHOICE, log 89). -/
def State.lpmReason (s : State) (h : Half) (b : Nat) (r : BatchRec) : Nat :=
  let shape := (decide (r.op = opRouteAdd) || decide (r.op = opRouteDel)) && decide (r.len = 24)
  if !shape ∨ famBits r.routeFam < r.routeLen ∨ bits r.word 32 7 ≠ 0 then rsBad
  else
    let k := r.route
    let x := s.tab.get h
    let held := !s.routeInPlace h r && (routeBuckets k).any fun c =>
      match tget? x.buckets c with
      | some o => decide (o ≠ b)
      | none => false
    firstReason [
      (((x.route k).any fun v => decide (v.vstate ≠ vsStable)) || (s.bslot h b).keys.contains (tgLpm, k) || held, rsBusy),
      (decide (r.op = opRouteDel) && (x.route k).isEmpty, rsNotFound),
      (decide (r.op = opRouteAdd) && (x.route k).isEmpty && decide (s.routeCap h < x.routeUnitsUsed + routeUnits k), rsFull),
      (s.overPending h (s.routeTouches h r).length, rsPendingFull),
      (decide (r.zero ≠ 0) || decide (r.index ≠ 0), rsBad)]

/-- The reason that refuses a record of an indexed target, or 0 (R213, R214). -/
def State.ixReason (s : State) (h : Half) (b : Nat) (r : BatchRec) : Nat :=
  let t := r.table
  let i := r.index
  if tgCap t ≤ i ∨ r.op = opLearn then rsBad
  else
    let ent := tget? (s.entries h t) i
    let busy := (s.bslot h b).keys.contains (t, i) ||
      (if tgEnt t then (match ent with | some e => decide (entVs t e ≠ vsStable) | none => false)
       else if t = tgMeter then decide ((s.meterOf h i).vstate = vsPending)
       else ((s.tab.get h).indexed t i).alt.isSome)
    let retire := tgEnt t && decide (r.op = opRetire)
    firstReason [
      (busy, rsBusy),
      (retire && ent.isNone, rsNotFound),
      ((decide (r.op = opWrite) || retire) && s.overPending h 1, rsPendingFull),
      (!(decide (r.op = opWrite) || retire) || decide (r.len ≠ (if retire then 0 else tgLen t)) || decide (r.zero ≠ 0) ||
        (decide (t = tgRepl) && decide (r.op = opWrite) && decide (131 < bits (leNat r.payload) 56 8)), rsBad),
      (tgEnt t && decide (r.op = opWrite) && ent.isSome, rsNotFree)]

/-- The reason that refuses a record, or 0 (R214). -/
def State.recReason (s : State) (h : Half) (b : Nat) (r : BatchRec) : Nat :=
  if r.table = tgExact then s.exReason h b r
  else if r.table = tgLpm then s.lpmReason h b r
  else s.ixReason h b r

/-- The STABLE entry of a key is marked RETIRING (R213). -/
def State.exRetire (s : State) (h : Half) (b tid key : Nat) : State :=
  match ((s.tab.get h).exFind tid key).find? fun e => e.2.vstate = vsStable with
  | some (i, e) => (s.setEx h i { e with vstate := vsRetiring, batch := b }).touchEntries h b [.exact i] none
  | none => s

/-- A new entry of a key is written PENDING (R213). -/
def State.exInsert (s : State) (h : Half) (b : Nat) (r : BatchRec) : State :=
  match s.exSlot h r.exTid r.exK with
  | (s1, some i) => (s1.setEx h i (exImage r.payload vsPending b false s.ticks)).touchEntries h b [.exact i] none
  | (s1, none) => s1

/-- LEARN_INSERT (R213). -/
def State.learnInsert (s : State) (h : Half) (b : Nat) (r : BatchRec) : State :=
  let found := (s.tab.get h).exFind r.exTid r.exK
  let new := exImage r.payload vsStable b true s.ticks
  let done (s : State) : State := s.touchEntries h b [] (some (tgExact, exKey r.exTid r.exK))
  if found.any fun e => decide (e.2.vstate ≠ vsStable) || !e.2.learned then s.bump (bTable h 5) R.learn_LEARN_SKIP
  else
    match found with
    | (i, _) :: _ => done (s.setEx h i new)
    | [] =>
      match s.exSlot h r.exTid r.exK with
      | (s1, some i) => done (s1.setEx h i new)
      | (s1, none) => s1.bump (bTable h 5) R.learn_LEARN_FULL

/-- A record of EXACT is applied (R213). -/
def State.applyExact (s : State) (h : Half) (b : Nat) (r : BatchRec) : State :=
  if r.op = opLearn then s.learnInsert h b r
  else
    let s1 := if r.op = opDelete then s else s.exInsert h b r
    (s1.exRetire h b r.exTid r.exK).touchEntries h b [] (some (tgExact, exKey r.exTid r.exK))

/-- A record of LPM is applied (R203, R213). -/
def State.applyRoute (s : State) (h : Half) (b : Nat) (r : BatchRec) : State :=
  let ts := s.routeTouches h r
  let own := if s.routeInPlace h r then [] else routeBuckets r.route
  (s.updTab h fun x =>
    { x.routeWrite r.route b (if r.op = opRouteAdd then some (BitVec.ofNat 32 r.word) else none) with
      buckets := own.foldl (fun t c => tput t c b) x.buckets }).touchEntries h b ts (some (tgLpm, r.route))

/-- A record of an indexed target is applied (R213). -/
def State.applyIndexed (s : State) (h : Half) (b : Nat) (r : BatchRec) : State :=
  let t := r.table
  let i := r.index
  let v := leNat r.payload
  let s1 :=
    if tgEnt t then
      if r.op = opWrite then s.updEntries h t fun x => tput x i (entImage t v vsPending b)
      else s.updEntries h t fun x => tput x i (entImage t (tget 0 x i) vsRetiring b)
    else if t = tgMeter then s.setMeter h i { s.meterOf h i with alt := v % 4096, vstate := vsPending, batch := b }
    else s.updTab h fun x => x.setIndexed t i { x.indexed t i with alt := some (v, b) }
  s1.touchEntries h b [.indexed t i] (some (t, i))

/-- A record is applied. -/
def State.applyRec (s : State) (h : Half) (b : Nat) (r : BatchRec) : State :=
  (if r.table = tgExact then s.applyExact h b r else if r.table = tgLpm then s.applyRoute h b r else s.applyIndexed h b r).notePeak h

/-! ### One pending entry undone, or walked at retirement (R215, R219) -/

/-- An entry is gone: with it go its withheld marks. -/
def State.forgetWithheld (s : State) (h : Half) (t i : Nat) : State :=
  let s1 := s.updTab h fun x => { x with withheld := x.withheld.filter (· ≠ (t, i)), shadowHeld := x.shadowHeld.filter (· ≠ (t, i)) }
  if t = tgAssoc then
    { s1 with assoc := s1.assoc.upd h fun a => { a with withheld := a.withheld.filter (· ≠ i), rewritten := a.rewritten.filter (· ≠ i) } }
  else s1

/-- One touched entry is removed or returned to STABLE (`walk` false), or walked (R215, R219); an entry that has left the batch since is
not touched. The image of a removed entry of ASSOC or Bramble is gone, so that ENTRY_DATA and PAT_DATA of its index read zero (DESIGN
CHOICE, log 89). -/
def State.settle (s : State) (h : Half) (b : Nat) (walk : Bool) (t : Touch) : State :=
  let gone := if walk then vsRetiring else vsPending
  match t with
  | .exact i =>
    match tget? (s.tab.get h).exact i with
    | some e =>
      if e.batch ≠ b ∨ e.vstate = vsStable then s
      else if e.vstate = gone then (s.dropEx h i).forgetWithheld h tgExact i
      else s.setEx h i { e with vstate := vsStable }
    | none => s
  | .indexed tg i =>
    if tgEnt tg then
      match tget? (s.entries h tg) i with
      | some e =>
        if entVs tg e = gone then (s.updEntries h tg fun x => tdel x i).forgetWithheld h tg i
        else s.updEntries h tg fun x => tput x i (entImage tg e vsStable b)
      | none => s
    else if tg = tgMeter then
      let m := s.meterOf h i
      s.setMeter h i { m with vstate := vsStable, profile := if walk then m.alt else m.profile }
    else s.updTab h fun x =>
      let v := x.indexed tg i
      match v.alt with
      | some (a, _) => x.setIndexed tg i { value := if walk then a else v.value, alt := none }
      | none => x
  | .bucketNew c =>
    s.updTab h fun x => x.mapRoutes (fun k => (routeBuckets k).contains c) (if walk then settleVers b else undoVers b)
  | .bucketOld c => s.updTab h fun x => { x with buckets := tdel x.buckets c }
  | .route k => s.updTab h fun x => x.mapRoutes (fun j => decide (j = k)) (if walk then settleVers b else undoVers b)

/-! ### Building, undoing, posting, retiring -/

/-- The head of the builds has ended (R216). -/
def State.buildEnds (s : State) (h : Half) (b : Nat) : State := s.updTab h fun t => { t with builds := t.builds.filter (· ≠ b) }

/-- A slot whose entries are all removed becomes REFUSED, or FREE after an ABORT (R215, R218). -/
def State.undone (s : State) (h : Half) (b : Nat) : State :=
  let x := s.bslot h b
  if x.abort then s.updSlot h b fun _ => BatchSlot.init
  else
    ((s.updSlot h b fun x => { BatchSlot.init with state := .refused, reason := x.reason, failRec := x.failRec }).bump (bTable h 7)
      R.version_BATCHES_REFUSED).buildEnds h b

/-- A slot enters UNDOING; one that holds nothing passes it at once (R215). -/
def State.startUndo (s : State) (h : Half) (b : Nat) (abort : Bool) : State :=
  let s1 := s.updSlot h b fun x => { x with state := .undoing, abort := abort }
  if (s1.bslot h b).touched.isEmpty then s1.undone h b else s1

/-- A record is refused (R214, R215). FAIL_REC holds its position modulo 65,536 (DESIGN CHOICE, log 89). -/
def State.refuseRec (s : State) (h : Half) (b reason : Nat) : State :=
  (s.updSlot h b fun x => { x with reason := reason, failRec := x.recNo % 65536 }).startUndo h b false

/-- POST with a stamp (R217). -/
def State.postSlot (s : State) (h : Half) (b : Nat) (e : DWord) : State :=
  if e.toNat < (s.dts h).toNat + 64 then s.updSlot h b fun x => { x with reason := rsEarly }
  else if 2 ^ 60 ≤ e.toNat then s.updSlot h b fun x => { x with reason := rsRange }
  else s.updSlot h b fun x => { x with state := .posted, e := e, reason := 0 }

/-- Every record has been applied: the slot is READY, and a BUILD_POST posts (R215, R218). -/
def State.buildDone (s : State) (h : Half) (b : Nat) : State :=
  let s1 := (s.updSlot h b fun x => { x with state := .ready }).buildEnds h b
  match (s.bslot h b).postE with
  | some e => s1.postSlot h b e
  | none => s1

/-- The VERSION unit as a requester. -/
abbrev versionReq : HbmReq := ⟨.table, srcVersion, false⟩

/-- The next record of a slot's list: the state after its reads, and the record with its length, or none for LIST_ERROR (R212, R214). -/
def State.nextRec (s : State) (h : Half) (x : BatchSlot) : State × Option (BatchRec × Nat) :=
  if 65536 ≤ x.recNo ∨ x.len < x.pos + 8 then (s, none)
  else
    match s.hbmRead h versionReq (x.addr + x.pos) 8 with
    | (s1, hdr, err) =>
      let len := bits (leNat hdr) 32 16
      let total := 8 + (len + 7) / 8 * 8
      if err ∨ x.len < x.pos + total then (s1, none)
      else
        match s1.hbmRead h versionReq (x.addr + x.pos + 8) (total - 8) with
        | (s2, bs, err2) => (s2, if err2 then none else some (batchRec (leNat hdr) (bs.take len), total))

/-- The VERSION unit applies the next record of the build under way (R215, R216). -/
def doRecordApply (h : Half) (s : State) : State :=
  match (s.tab.get h).builds with
  | [] => s
  | b :: _ =>
    let x := s.bslot h b
    if !s.live (.table h 7) ∨ x.state ≠ .building then s
    else if x.len = 0 then s.buildDone h b
    else
      match s.nextRec h x with
      | (s1, none) => s1.refuseRec h b rsList
      | (s1, some (r, total)) =>
        if s1.recReason h b r ≠ 0 then s1.refuseRec h b (s1.recReason h b r)
        else
          let s2 := (s1.applyRec h b r).updSlot h b fun x => { x with pos := x.pos + total, recNo := x.recNo + 1 }
          if x.pos + total = x.len then s2.buildDone h b else s2

/-- One entry of a slot in UNDOING is removed or returned (R215). -/
def doUndoStep (h : Half) (b : Nat) (s : State) : State :=
  let x := s.bslot h b
  if !s.live (.table h 7) ∨ x.state ≠ .undoing then s
  else
    match x.touched with
    | [] => s.undone h b
    | t :: ts =>
      let s1 := (s.settle h b false t).updSlot h b fun x => { x with touched := ts }
      if ts.isEmpty then s1.undone h b else s1

/-- A slot that has retired is FREE (R219). -/
def State.retired (s : State) (h : Half) (b : Nat) : State :=
  (s.updSlot h b fun _ => BatchSlot.init).bump (bTable h 7) R.version_BATCHES_RETIRED

/-- A POSTED slot enters RETIRING (R219, R222). -/
def doRetireStart (h : Half) (b : Nat) (s : State) : State :=
  let x := s.bslot h b
  if s.live (.table h 7) ∧ x.state = .posted ∧ x.e.toNat ≤ s.retireBasis h ∧ (s.pairActive h → (s.tab.get h).noticed) then
    if x.touched.isEmpty then s.retired h b else s.updSlot h b fun x => { x with state := .retiring }
  else s

/-- The walk passes one entry (R219). -/
def doRetireWalk (h : Half) (b : Nat) (s : State) : State :=
  let x := s.bslot h b
  if !s.live (.table h 7) ∨ x.state ≠ .retiring then s
  else
    match x.touched with
    | [] => s.retired h b
    | t :: ts =>
      let s1 := (s.settle h b true t).updSlot h b fun x => { x with touched := ts }
      if ts.isEmpty then s1.retired h b else s1

/-- BATCH_RECORD_APPLY (R213–R216). -/
def execBatchRecordApply (h : Half) (s : State) : Out := .next (s.orWait fun s => s.withShadow (doRecordApply h s) h)

/-- BATCH_UNDO_STEP (R215). -/
def execBatchUndoStep (h : Half) (slot : Fin 256) (s : State) : Out := .next (s.checked (s.withShadow (doUndoStep h slot.val s) h))

/-- BATCH_RETIRE_START (R219). -/
def execBatchRetireStart (h : Half) (slot : Fin 256) (s : State) : Out := .next (doRetireStart h slot.val s)

/-- RETIRE_WALK_STEP (R219). -/
def execRetireWalkStep (h : Half) (slot : Fin 256) (s : State) : Out := .next (s.checked (s.withShadow (doRetireWalk h slot.val s) h))

/-! ### Commands (R215–R218) -/

/-- A command that is not valid for its slot's state (R218). -/
def State.cmdIgnored (s : State) (h : Half) : State := s.bump (bTable h 7) R.version_CMD_IGNORED

/-- BUILD and BUILD_POST: the slot latches the list and waits its turn (R215, R216, R218). -/
def State.buildCmd (s : State) (h : Half) (b : Nat) (post : Bool) : State :=
  let v := bTable h 7
  if (s.bslot h b).state = .free then
    (s.updSlot h b fun _ =>
      { BatchSlot.init with
        state := .building
        addr := s.rfld v R.version_BATCH_LIST_ADDR 3 45 <<< 3
        len := s.rfld v R.version_BATCH_LIST_LEN 0 32
        postE := if post then some (s.reg v R.version_BATCH_E) else none }).updTab h fun t => { t with builds := t.builds ++ [b] }
  else s.cmdIgnored h

/-- A write of BATCH_CMD (R215–R218). -/
def State.batchCmd (s : State) (h : Half) (b cmd : Nat) : State :=
  match cmd with
  | 1 => s.buildCmd h b false
  | 2 => if (s.bslot h b).state = .ready then s.postSlot h b (s.reg (bTable h 7) R.version_BATCH_E) else s.cmdIgnored h
  | 3 => s.buildCmd h b true
  | 4 => if (s.bslot h b).state = .ready then s.startUndo h b true else s.cmdIgnored h
  | 5 => if (s.bslot h b).state = .refused then s.updSlot h b fun _ => BatchSlot.init else s.cmdIgnored h
  | _ => s

/-- BATCH_STAT of the slot selected (R211). -/
def SlotState.code : SlotState → Nat
  | .free => 0
  | .building => 1
  | .ready => 2
  | .posted => 3
  | .retiring => 4
  | .undoing => 5
  | .refused => 6

def BatchSlot.stat (x : BatchSlot) : Nat := x.failRec <<< 48 ||| x.reason <<< 40 ||| x.state.code <<< 32 ||| x.touched.length % 2 ^ 17

/-- BATCH_STAT_E of a slot (R211). -/
def BatchSlot.statE (x : BatchSlot) : Nat :=
  match x.state with
  | .free => 0
  | .posted => x.e.toNat
  | .retiring => x.e.toNat
  | _ => eNever

/-- What the VERSION unit does as it or its half enters RESET or FENCED (R221). -/
def State.versionEnds (s : State) (h : Half) : State :=
  let s1 := (s.tab.get h).slots.foldl (fun s e =>
    if e.2.state = .building ∨ e.2.state = .ready ∨ e.2.state = .undoing then
      (e.2.touched.foldl (fun s t => s.settle h e.1 false t) s).updSlot h e.1 fun _ => BatchSlot.init
    else s) s
  s1.updTab h fun t => { t with builds := [] }

end Sys2Proof.Machine
end

