-- ==== Sys2Proof/Machine/Assoc.lean ====
section
/-! DEFINITION. The ASSOC unit (R145–R166): the search of a key over the banks of a class, the scrubber, the spare bank and lost banks. -/

namespace Sys2Proof.Machine

/-- Entries of a logical bank (R152). -/
abbrev bankEntries : Nat := 2048

/-- Fields of an entry (R153). -/
def asValue (e : Nat) : Nat := bits e 0 640
def asCare (e : Nat) : Nat := bits e 640 640
def asPrio (e : Nat) : Nat := bits e 1332 12
def asResult (e : Nat) : Nat := bits e 1344 64

/-- An entry matches a key (R145). -/
def asMatches (e key : Nat) : Bool := ((key ^^^ asValue e) &&& asCare e) == 0

/-- The rank of an entry: (PRIORITY, index) as one number (R146). -/
def asRank (i e : Nat) : Nat := asPrio e * 65536 + i

def State.updAssoc (s : State) (h : Half) (f : AssocState → AssocState) : State := { s with assoc := s.assoc.upd h f }

/-- Fields of BANK_STAT (R164). -/
def State.bankLost (s : State) (h : Half) (b : Nat) : Bool := bit (s.reg (bAssoc h) R.assoc_BANK_STAT) (32 + b)
def State.spareUsed (s : State) (h : Half) : Bool := bit (s.reg (bAssoc h) R.assoc_BANK_STAT) 15
def State.filling (s : State) (h : Half) (b : Nat) : Bool :=
  bit (s.reg (bAssoc h) R.assoc_BANK_STAT) 14 && decide (s.rfld (bAssoc h) R.assoc_BANK_STAT 0 5 = b)

/-- The logical banks of a class (R155). -/
def State.classBanks (s : State) (h : Half) (c : Nat) : List Nat :=
  (List.range 32).filter fun b => bit (s.reg (bAssoc h) (R.assoc_CLASS_BANKS + 8 * c)) b

/-- An entry takes part in a search: its bank is searched and not lost, it is not withheld, and its version is seen (R148, R150, R160,
R162). While the spare fills, whether an entry of its bank is there yet is a free value (R161). -/
def State.asTakesPart (s : State) (h : Half) (banks : List Nat) (st : Nat) (i e : Nat) : Bool :=
  let b := i / bankEntries
  banks.contains b && !s.bankLost h b && !(s.assoc.get h).withheld.contains i &&
    s.visible h (entVs tgAssoc e) (entBatch tgAssoc e) st && (!s.filling h b || (s.free 2048).getLsbD (i % bankEntries))

/-- The matches of a key, in no order (R145). -/
def State.asFound (s : State) (h : Half) (banks : List Nat) (key st : Nat) : List (Nat × Nat) :=
  (s.assoc.get h).entries.filter fun e => asMatches e.2 key && s.asTakesPart h banks st e.1 e.2

/-- The first of a list of entries in the order of R146. -/
def asFirst (l : List (Nat × Nat)) : Option (Nat × Nat) :=
  l.foldl (fun best e => match best with
    | none => some e
    | some b => if asRank e.1 e.2 < asRank b.1 b.2 then some e else some b) none

/-- The two words of a response (R156). -/
def asBytes (win : Option (Nat × Nat)) (multi rebuild lost : Bool) : List Byte :=
  match win with
  | some (i, e) =>
    leBytes 8 (asResult e) ++
      leBytes 8 (1 <<< 63 ||| b2n multi <<< 62 ||| b2n rebuild <<< 61 ||| b2n lost <<< 60 ||| asPrio e <<< 32 ||| i % 65536)
  | none => leBytes 8 0 ++ leBytes 8 (b2n rebuild <<< 61 ||| b2n lost <<< 60)

/-- The response of a SEARCH, or of a STEP from the cursor `after`, and the logical banks compared (R147, R155, R156). -/
def State.asSearch (s : State) (h : Half) (c key st : Nat) (after : Option Nat) : List Byte × Nat :=
  let banks := s.classBanks h c
  let found := (s.asFound h banks key st).filter fun e =>
    match after with
    | some r => decide (r < asRank e.1 e.2)
    | none => true
  let rebuild := banks.any fun b => !s.bankLost h b &&
    (s.filling h b || (s.assoc.get h).withheld.any fun i => decide (i / bankEntries = b))
  let lost := banks.any fun b => s.bankLost h b
  (asBytes (asFirst found) (decide (1 < found.length)) rebuild lost, (banks.filter fun b => !s.bankLost h b).length)

/-! ### The scrubber (R159–R162) -/

/-- BANK_STAT takes a value; Privet keeps what section 2 of its store holds of it (R163, R611). -/
def State.setBankStat (s : State) (h : Half) (v : DWord) : State :=
  let s1 := s.setReg (bAssoc h) R.assoc_BANK_STAT v
  { s1 with pv := { s1.pv with assocMap := s1.pv.assocMap.upd h fun _ => setFld v 14 1 0 } }

/-- A physical bank fails: the spare takes its place, or its logical bank is lost (R161, R162). -/
def State.bankFails (s : State) (h : Half) (b : Nat) : State :=
  let r := bAssoc h
  let s1 := s.updAssoc h fun a =>
    { a with withheld := a.withheld.filter fun i => decide (i / bankEntries ≠ b),
             rewritten := a.rewritten.filter fun i => decide (i / bankEntries ≠ b) }
  if s.spareUsed h then
    let v := s1.reg r R.assoc_BANK_STAT
    let v1 := if s.filling h b then setFld v 14 1 0 else v
    (s1.setBankStat h (setFld v1 (32 + b) 1 1)).report (.assoc h) F.ASSOC_BANK_LOST
  else
    (s1.setBankStat h (setFld (setFld (setFld (s1.reg r R.assoc_BANK_STAT) 15 1 1) 14 1 1) 0 5 b)).report (.assoc h) F.ASSOC_SPARE_USED

/-- A visit of the scrubber: what the entry's ECC shows and whether the self-search finds the entry (R159–R161). -/
def doAssocScrub (h : Half) (i : Nat) (ecc : EccOutcome) (found : Bool) (s : State) : State :=
  let b := i / bankEntries
  let a := s.assoc.get h
  if !s.live (.assoc h) ∨ s.bankLost h b ∨ s.filling h b ∨ a.withheld.contains i then s
  else
    match ecc with
    | .uncorrectable =>
      let s1 := (s.report (.assoc h) F.ASSOC_ENTRY i).bump (bAssoc h) R.assoc_SCRUB_UNCORRECTED
      let s2 := s1.updAssoc h fun a => { a with withheld := a.withheld ++ [i] }
      if a.rewritten.contains i then s2.bankFails h b else s2
    | _ =>
      let s1 := if ecc = .corrected then (s.report (.assoc h) F.ASSOC_ECC).bump (bAssoc h) R.assoc_SCRUB_CORRECTED else s
      if (tget? a.entries i).isSome ∧ found = false then s1.bankFails h b else s1

/-- A withheld entry has been rewritten from the shadow (R160). -/
def doAssocRepaired (h : Half) (i : Nat) (s : State) : State :=
  if (s.assoc.get h).withheld.contains i then
    (s.fromShadow h tgAssoc i).updAssoc h fun a =>
      { a with withheld := a.withheld.filter (· ≠ i), rewritten := if a.rewritten.contains i then a.rewritten else a.rewritten ++ [i] }
  else s

/-- The fill of the spare has ended (R161). -/
def doSpareFilled (h : Half) (s : State) : State :=
  if bit (s.reg (bAssoc h) R.assoc_BANK_STAT) 14 then s.setRfld (bAssoc h) R.assoc_BANK_STAT 14 1 0 else s

/-- ASSOC_SCRUB_VISIT (R159–R162). -/
def execAssocScrubVisit (h : Half) (entry : BitVec 16) (ecc : EccOutcome) (found : Bool) (s : State) : Out :=
  .next (doAssocScrub h entry.toNat ecc found s)

/-- ASSOC_ENTRY_REPAIR_DONE (R160). -/
def execAssocEntryRepairDone (h : Half) (entry : BitVec 16) (s : State) : Out := .next (doAssocRepaired h entry.toNat s)

/-- ASSOC_SPARE_FILL_DONE (R161). -/
def execAssocSpareFillDone (h : Half) (s : State) : Out := .next (doSpareFilled h s)

end Sys2Proof.Machine
end

