-- ==== Sys2Proof/Machine/Bramble.lean ====
section
/-! DEFINITION. The Bramble engines of the tiles (R145–R150, R167–R178): a scan of a window, its result block and summary, the scrub of a
tile's copy. -/

namespace Sys2Proof.Machine

/-- Fields of a pattern (R172). -/
def ptByte (p j : Nat) : Nat := bits p (320 + 8 * j) 8
def ptCare (p j : Nat) : Nat := bits p (64 + 8 * j) 8
def ptPrio (p : Nat) : Nat := bits p 52 12
def ptMin (p : Nat) : Nat := bits p 32 10
def ptMax (p : Nat) : Nat := bits p 22 10
def ptLen (p : Nat) : Nat := bits p 17 5 + 1
def ptTag (p : Nat) : Nat := bits p 0 16

/-- A pattern is inert (R174). -/
def ptInert (p : Nat) : Bool := decide (ptLen p = 1) || decide (ptCare p 0 ≠ 255) || decide (ptCare p 1 ≠ 255)

/-- HALF.BRAMBLE_CFG.INERT (R174). -/
def State.inertCount (s : State) (h : Half) : Nat := ((s.tab.get h).patterns.filter fun e => ptInert e.2).length

/-- Bytes match a value and a care mask from an offset on (R145). -/
def bytesMatch (w : List Byte) (o n : Nat) (value care : Nat → Nat) : Bool :=
  (List.range n).all fun j => ((nth 0 w (o + j)).toNat ^^^ value j) &&& care j == 0

/-- The lowest offset at which a pattern matches a window of bytes (R173). -/
def ptFind (p : Nat) (w : List Byte) : Option Nat :=
  if ptInert p then none
  else ((List.range w.length).filter fun o => decide (ptMin p ≤ o) && decide (o ≤ ptMax p) && decide (o + ptLen p ≤ w.length)).find? fun o =>
    bytesMatch w o (ptLen p) (ptByte p) (ptCare p)

/-- A matched pattern: its index, its entry and the offset. -/
structure PtMatch where
  index : Nat
  entry : Nat
  off : Nat
  deriving DecidableEq, Repr

/-- The rank of a match (R146). -/
def PtMatch.rank (m : PtMatch) : Nat := ptPrio m.entry * 65536 + m.index

/-- Put a match into its place in the order of R146. -/
def rankIn (m : PtMatch) : List PtMatch → List PtMatch
  | [] => [m]
  | x :: r => if m.rank < x.rank then m :: x :: r else x :: rankIn m r

/-- The patterns of a tile's copy that match a window at a stamp, in the order of R146 (R148, R150, R176). -/
def State.ptMatches (s : State) (h : Half) (t : TileIx) (w : List Byte) (st : Nat) : List PtMatch :=
  (s.tab.get h).patterns.foldl (fun l e =>
    if (s.tile h t).brambleWithheld.contains e.1 || !s.visible h (entVs tgBramble e.2) (entBatch tgBramble e.2) st then l
    else
      match ptFind e.2 w with
      | some o => rankIn ⟨e.1, e.2, o⟩ l
      | none => l) []

/-- An entry of a result block (R177). -/
def PtMatch.word (m : PtMatch) : Nat :=
  ptPrio m.entry <<< 52 ||| m.index <<< 36 ||| m.off <<< 26 ||| (ptLen m.entry - 1) <<< 21 ||| ptTag m.entry

/-- A result block (R177). -/
def resultBlock (l : List PtMatch) : List Byte := padTo ((l.take 8).flatMap fun m => leBytes 8 m.word) 64

/-- A summary word (R178). -/
def summaryWord (n scanned : Nat) (incomplete : Bool) : Nat :=
  satTo n 255 <<< 56 ||| b2n (decide (8 < n)) <<< 55 ||| b2n incomplete <<< 54 ||| 1 <<< 52 ||| (scanned % 2048) <<< 32

/-- The window of a task: bytes 0 to 255 from its head window and the others from its cells (R167, R168). -/
def State.scanWindow (s : State) (h : Half) (t : TileIx) (k : Nat) : List Byte :=
  let x := s.task h t k
  let head := (s.tile h t).get (.store (448 * k + 128)) 256
  let rest := ((s.chain h (x.chain.getD 0)).bytes.take x.length).drop 256
  (head ++ rest).take x.scanLen

/-- A scan or rescan of `n` bytes has found `m` patterns (R183). -/
def State.countScan (s : State) (h : Half) (t : TileIx) (n m : Nat) (incomplete : Bool) : State :=
  let b := bBramble h t
  let s1 := (s.bump b R.bramble_SCANS).bumpBy b R.bramble_BYTES_SCANNED n
  let s2 := if 8 < m then s1.bump b R.bramble_OVERFLOWS else s1
  if incomplete then s2.bump b R.bramble_INCOMPLETE_SCANS else s2

/-- A pattern of the tile's copy is being reloaded (R176). -/
def State.ptReloading (s : State) (h : Half) (t : TileIx) : Bool := !(s.tile h t).brambleWithheld.isEmpty

/-- A scan that ends now had a pattern of its tile withheld at some moment of it: one is withheld, or one was reloaded since the scan began
(R176). -/
def State.scanIncomplete (s : State) (h : Half) (t : TileIx) : Bool := s.ptReloading h t || (s.tile h t).scanTouched

/-- The engine of a tile starts the next scan in creation order (R169). -/
def doScanStart (h : Half) (t : TileIx) (s : State) : State :=
  let x := s.tile h t
  if s.live (.tile h t) ∧ x.scans.all (fun k => decide ((s.task h t k).scan ≠ .running)) then
    match x.scans with
    | k :: _ => (s.updTile h t fun y => { y with scanTouched := false }).updTask h t k fun y => { y with scan := .running }
    | [] => s
  else s

/-- A scan ends: result block, summary and counter (R170, R177, R178); it waits while the shadow's checker withholds a pattern (R236). -/
def doScanEnd (h : Half) (t : TileIx) (k : Nat) (s : State) : State :=
  let x := s.task h t k
  if s.live (.tile h t) ∧ x.scan = .running ∧ ¬ (s.tab.get h).shadowHeld.any (fun e => decide (e.1 = tgBramble)) then
    let w := s.scanWindow h t k
    let l := s.ptMatches h t w x.stamp.toNat
    let inc := s.scanIncomplete h t
    let s1 := s.updTile h t fun y =>
      { (y.put (.store (448 * k + 384)) (resultBlock l)).put (.store (ctxOff k + 0x10)) (leBytes 8 (summaryWord l.length w.length inc)) with
        scans := y.scans.filter (· ≠ k) }
    ((s1.updTask h t k fun y => { y with scan := .done }).countScan h t w.length l.length inc).dcDown h t k x.scanDep
  else s

/-- BRAMBLE_SCAN_START (R169). -/
def execBrambleScanStart (h : Half) (t : TileIx) (s : State) : Out := .next (doScanStart h t s)

/-- BRAMBLE_SCAN_END (R170, R177, R178). -/
def execBrambleScanEnd (h : Half) (t : TileIx) (slot : Fin 2560) (s : State) : Out := .next (doScanEnd h t slot.val s)

/-- A scan waits for the engine (R183). -/
def Tile.scanWaits (x : Tile) : Bool := x.scans.any fun k => decide ((tget Task.init x.tasks k).scan = .waiting)

/-- The scrub of a tile's copy visits a pattern (R176). -/
def doBrambleScrub (h : Half) (t : TileIx) (p : Nat) (ecc : EccOutcome) (s : State) : State :=
  if s.live (.tile h t) ∧ ¬ (s.tile h t).brambleWithheld.contains p then
    match ecc with
    | .clean => s
    | .corrected => s.report (.tile h t) F.BRAMBLE_ECC
    | .uncorrectable =>
      (s.updTile h t fun x => { x with brambleWithheld := x.brambleWithheld ++ [p] }).report (.tile h t) F.BRAMBLE_PATTERN p
  else s

/-- A withheld pattern has been reloaded (R176). -/
def doBrambleReload (h : Half) (t : TileIx) (p : Nat) (s : State) : State :=
  if (s.tile h t).brambleWithheld.contains p then
    s.updTile h t fun x => { x with brambleWithheld := x.brambleWithheld.filter (· ≠ p), scanTouched := true }
  else s

/-- BRAMBLE_SCRUB_VISIT (R176). -/
def execBrambleScrubVisit (h : Half) (t : TileIx) (pattern : Fin 16384) (ecc : EccOutcome) (s : State) : Out :=
  .next (doBrambleScrub h t pattern.val ecc s)

/-- BRAMBLE_RELOAD_DONE (R176). -/
def execBrambleReloadDone (h : Half) (t : TileIx) (pattern : Fin 16384) (s : State) : Out := .next (doBrambleReload h t pattern.val s)

end Sys2Proof.Machine
end

