-- ==== Sys2Proof/Machine/Link.lean ====
section
/-! DEFINITION. The link of a physical port (R100–R106, R678): its configuration, the end of an attempt, and its loss. -/

namespace Sys2Proof.Machine

/-- Lanes of a mode (R101). -/
def modeLanes (m : Nat) : Nat :=
  match m with
  | 4 => 4
  | 5 => 2
  | 7 => 4
  | 8 => 2
  | 9 => 4
  | 0 => 0
  | _ => 1

/-- The FEC settings a mode accepts (R101, R106). -/
def fecAccepted (m f : Nat) : Bool :=
  match m with
  | 0 => true
  | 1 => decide (f = 0) || decide (f = 3)
  | 2 => decide (f ≠ 2)
  | 4 => decide (f ≠ 2)
  | _ => decide (f = 0) || decide (f = 2)

/-- A lane map is a permutation of the four logical lanes (R103). -/
def laneMapOk (v : Nat) : Bool := [0, 1, 2, 3].all fun lane => [0, 1, 2, 3].any fun k => decide (bits v (2 * k) 2 = lane)

/-- The device-wide SerDes lanes of a port, in physical order (R100). -/
def portLanes (p : PortIx) : List Nat := (List.range 4).map fun i => 4 * p.val + i

/-- The device-wide lane that carries logical lane `k` of a port under a lane map (R100, R106). -/
def mappedLane (p : PortIx) (map k : Nat) : Nat := 4 * p.val + bits map (2 * k) 2

/-- The port's configuration is refused (R103). -/
def State.badPortCfg (s : State) (p : PortIx) : Bool :=
  let mac := s.reg (bPort p) R.port_MAC_CFG
  let lanes := s.reg (bPort p) R.port_LANE_CFG
  let m := fld mac 24 5
  decide (9 < m) || !fecAccepted m (fld mac 32 2) || !laneMapOk (fld lanes 16 8) || !laneMapOk (fld lanes 8 8)

/-- The mode a port runs or tries to run: MODE_NOW while its link is up, else MODE (R100, R104). -/
def State.laneMode (s : State) (p : PortIx) : Nat := if s.linkUp p then s.modeNow p else s.rfld (bPort p) R.port_MAC_CFG 24 5

/-- The lanes of a port that are powered, receive or transmit: the first n logical lanes of its mode after its lane map, and none while
its configuration is refused or the port neither works nor is tested (R100, R103). -/
def State.lanesOn (s : State) (p : PortIx) (rx : Bool) : List Nat :=
  let up := decide (s.ustate (.port p) = .active) || decide (s.ustate (.port p) = .test)
  if !up || s.badPortCfg p then []
  else
    let map := s.rfld (bPort p) R.port_LANE_CFG (if rx then 16 else 8) 8
    (List.range (modeLanes (s.laneMode p))).map (mappedLane p map)

/-- A device-wide SerDes lane is powered for one direction; the port's other lanes are off (R100, R103). -/
def State.lanePowered (s : State) (lane : Nat) (rx : Bool) : Bool := (s.lanesOn (Fin.ofNat 128 (lane / 4)) rx).contains lane

/-- CFG_ERR as a port that would bring its link up sets it (R103). -/
def State.checkPortCfg (s : State) (p : PortIx) : State :=
  if s.badPortCfg p then s.setRfld (bPort p) R.port_LINK_STAT 7 1 1 else s

/-- A mode that auto-negotiation may resolve to: MODE, or a lower mode with no more lanes (R104). -/
def advertised (cfg m : Nat) : Bool := decide (m = cfg) || (decide (0 < m) && decide (m < cfg) && decide (modeLanes m ≤ modeLanes cfg))

/-- Lanes at 10.3125 Gb/s do not train (R104). -/
def trains (m : Nat) : Bool := decide (m ≠ 1)

/-- The mode that an attempt ends in (R104). -/
def State.attemptMode (s : State) (p : PortIx) (mode : Nat) : Nat :=
  let mac := s.reg (bPort p) R.port_MAC_CFG
  if bit mac 34 then mode else fld mac 24 5

/-- The SerDes PLL group that serves a port: 1 or 2 in H0, 3 or 4 in H1 (R631). -/
def portPll (p : PortIx) : Nat := 1 + 2 * (portHalf p).val + b2n (Config.secondGroup p.val)

/-- An attempt to bring a port's link up ends (R104, R678): LINK_UP rises in the first that succeeds. Lanes that train take their calibration
(R609). A lower mode that auto-negotiation
resolves runs with FEC unless MAC_CFG.FEC names none, also where that mode does not accept the setting (DESIGN CHOICE, log 89). -/
def doAttemptEnd (p : PortIx) (ok : Bool) (mode : Nat) (s : State) : State :=
  let mac := s.reg (bPort p) R.port_MAC_CFG
  let m := s.attemptMode p mode
  if s.live (.port p) = false ∨ s.linkUp p ∨ fld mac 24 5 = 0 ∨ s.pv.ioLost.contains (portPll p) then s
  else if s.badPortCfg p then s.checkPortCfg p
  else if (s.lanesOn p true).isEmpty then s
  else if ok ∧ advertised (fld mac 24 5) m then
    let old := s.reg (bPort p) R.port_LINK_STAT
    let fec := decide (m ≠ 1) && fecOn mac
    let new := BitVec.ofNat 64 (m <<< 8 ||| fld old 6 1 <<< 6 ||| b2n (bit mac 34) <<< 4 ||| b2n (bit mac 35 && trains m) <<< 3 |||
      1 <<< 2 ||| b2n fec <<< 1 ||| 1)
    ((if trains m then s.calApply (portItems p) else s).setReg (bPort p) R.port_LINK_STAT new).portReturns (portHalf p) (portLocal p)
  else s

/-- LOCAL_FAULT as it reads (R106): the port is in TEST or ACTIVE with a valid mode, and its PCS is not aligned. -/
def State.localFault (s : State) (p : PortIx) : Bool :=
  let m := s.rfld (bPort p) R.port_MAC_CFG 24 5
  let st := s.reg (bPort p) R.port_LINK_STAT
  (decide (s.ustate (.port p) = .test) || decide (s.ustate (.port p) = .active)) && decide (m ≠ 0) && decide (m ≤ 9) &&
    !bit st 7 && !bit st 2

/-- LINK_UP falls: the link's status bits clear, the arriving frame is lost and the queued frames are held (R106, R108, R461). -/
def State.dropLink (s : State) (p : PortIx) : State :=
  let old := s.reg (bPort p) R.port_LINK_STAT
  let s1 := (s.abortRx p).setReg (bPort p) R.port_LINK_STAT (BitVec.ofNat 64 (fld old 5 8 <<< 5))
  s1.portFalls (portHalf p) (portLocal p)

/-- LINK_UP of a port falls (R106). -/
def doLinkDown (p : PortIx) (s : State) : State := if s.linkUp p then s.dropLink p else s

/-- Remote fault ordered sets begin or end (R106). -/
def doRemoteFault (p : PortIx) (on : Bool) (s : State) : State :=
  if s.ustate (.port p) = .active ∨ s.ustate (.port p) = .test then s.setRfld (bPort p) R.port_LINK_STAT 6 1 (b2n on) else s

/-- LINK_ATTEMPT_END (R678). -/
def execLinkAttemptEnd (p : PortIx) (ok : Bool) (mode : BitVec 5) (s : State) : Out := .next (doAttemptEnd p ok mode.toNat s)

/-- LINK_DOWN (R106). -/
def execLinkDown (p : PortIx) (s : State) : Out := .next (doLinkDown p s)

/-- REMOTE_FAULT_CHANGE (R106). -/
def execRemoteFaultChange (p : PortIx) (on : Bool) (s : State) : Out := .next (doRemoteFault p on s)

end Sys2Proof.Machine
end

