-- ==== Sys2Proof/Machine/Ring.lean ====
section
/-! DEFINITION. The byte rings of R624: ring 0 (P128), ring 1 (the management port, received) and ring 2 (the management port, to be
sent) of a half's control cores, and the record of a delivered frame. -/

namespace Sys2Proof.Machine

/-- The units of 32 bytes of a ring with this SIZE_LOG2 (R624). -/
def sizeUnits (n : Nat) : Nat := 32 * 2 ^ (if n < 4 then 4 else if 14 < n then 14 else n)

/-- A ring's size in units of 32 bytes (R624). -/
def ringUnits (ctl : DWord) : Nat := sizeUnits (fld ctl 16 4)

def ringHead (ctl : DWord) : Nat := fld ctl 24 20 % ringUnits ctl
def ringTail (ctl : DWord) : Nat := fld ctl 44 20 % ringUnits ctl

/-- The units of a record of `n` frame bytes. -/
def recUnits (n : Nat) : Nat := 1 + (n + 31) / 32

/-- Where a record of `n` frame bytes goes when the writer stands at `head`: the units of the pad before it, its place, and the head
after it (R624). -/
def ringPlace (size head n : Nat) : Nat × Nat × Nat :=
  let k := recUnits n
  if head + k ≤ size then (0, head, (head + k) % size) else (size - head, 0, k % size)

/-- Records of these lengths fit one after another without HEAD reaching TAIL (R471, R624). -/
def ringFits (size tail : Nat) (head : Nat) : List Nat → Bool
  | [] => true
  | n :: r =>
    let (pad, _, next) := ringPlace size head n
    decide ((head + size - tail) % size + pad + recUnits n < size) && ringFits size tail next r

/-- What the header of a record says of a frame (R624). -/
structure RingFrame where
  queue : Nat
  late : Bool
  crossed : Bool
  inPort : Nat
  stamp : Nat
  bytes : List Byte
  deriving DecidableEq, Repr

/-- The bytes of a record (R624). -/
def RingFrame.record (f : RingFrame) (dts : Nat) : List Byte :=
  leBytes 8 (1 <<< 62 ||| f.bytes.length <<< 48 ||| f.queue <<< 44 ||| b2n f.late <<< 43 ||| b2n f.crossed <<< 42 ||| f.inPort <<< 32) ++
    leBytes 8 (f.stamp % 2 ^ 48) ++ leBytes 8 dts ++ leBytes 8 0 ++ padTo f.bytes (32 * ((f.bytes.length + 31) / 32))

/-- The pad record that covers `n` units to the ring's end (R624). -/
def padRecord (n : Nat) : List Byte := padTo (leBytes 8 (2 <<< 62 ||| (32 * n - 32) <<< 48)) 32

/-- RING_CTL_r of a half. -/
def State.ringCtl (s : State) (h : Half) (r : Nat) : DWord := s.reg (bCc h) (R.cc_RING_CTL + 32 * r)

/-- RING_BASE_r. -/
def State.ringBase (s : State) (h : Half) (r : Nat) : Nat := 32 * s.rfld (bCc h) (R.cc_RING_BASE + 32 * r) 5 43

/-- A record is written at HEAD, which advances once the write is accepted; the event of the ring is set when it turns from empty
(R624). -/
def State.ringPut (s : State) (h : Half) (r : Nat) (req : HbmReq) (f : RingFrame) : State :=
  let c := s.ringCtl h r
  let (pad, pos, next) := ringPlace (ringUnits c) (ringHead c) f.bytes.length
  let base := s.ringBase h r
  let (s1, ok1) := if pad = 0 then (s, true) else s.hbmWrite h req (base + 32 * ringHead c) (padRecord pad)
  let (s2, ok2) := s1.hbmWrite h req (base + 32 * pos) (f.record (s.dts h).toNat)
  if ok1 && ok2 then
    let s3 := s2.setReg (bCc h) (R.cc_RING_CTL + 32 * r) (setFld c 24 20 next)
    if ringHead c = ringTail c then
      let e := s3.reg (bCc h) (R.cc_RING_EVENT + 32 * r)
      s3.setEv (.cc h (Fin.ofNat 32 (fld e 8 5))) (BitVec.ofNat 32 (1 <<< fld e 0 5))
    else s3
  else s2

/-- The units of a half's P129 ring (R624). -/
def p129Units : Nat := sizeUnits Config.p129SizeLog2

/-- A record, with any pad before it, is written at HEAD of a P129 ring (R624). -/
def P129Ring.put (r : P129Ring) (f : RingFrame) (dts : Nat) : P129Ring :=
  let (pad, pos, next) := ringPlace p129Units r.head f.bytes.length
  { r with head := next, recs := r.recs ++ (if pad = 0 then [] else [(r.head, padRecord pad)]) ++ [(pos, f.record dts)] }

/-- Privet takes the oldest record of a P129 ring: TAIL advances past it (R624). -/
def P129Ring.take (r : P129Ring) : P129Ring :=
  match r.recs with
  | [] => r
  | _ :: l => { r with recs := l, tail := match l with
      | [] => r.head
      | e :: _ => e.1 }

/-- Privet reads one record of each half's P129 ring in a tick while PCORE works (DESIGN CHOICE, log 80). -/
def State.p129Tick (s : State) : State :=
  if s.live (.privet 0) then { s with pv := { s.pv with p129 := ⟨s.pv.p129.h0.take, s.pv.p129.h1.take⟩ } } else s

/-- A write to SIZE_LOG2 sets HEAD and TAIL to zero (R624). -/
def State.ringSizeWrite (s : State) (h : Half) (r : Nat) : State :=
  let off := R.cc_RING_CTL + 32 * r
  (s.setRfld (bCc h) off 24 20 0).setRfld (bCc h) off 44 20 0

end Sys2Proof.Machine
end

