-- ==== Sys2Proof/Machine/Egress.lean ====
section
/-! DEFINITION. Egress (R470–R493): the selection of a frame, the rewrite engine, the transmit MAC with its PTP operations (R92–R94),
delivery at P128–P131, and the telemetry ring (R484, R485). -/

namespace Sys2Proof.Machine

/-- Port counter `m` of R493. -/
def State.bumpTx (s : State) (h : Half) (lp m n : Nat) : State := s.bumpBy (bSched h) (R.sched_TX_FRAMES + lp * 0x50 + 8 * m) n

/-- The port counters of R493, by their number. -/
abbrev txFrames : Nat := 0
abbrev txBytes : Nat := 1
abbrev txLate : Nat := 2
abbrev txEcnMarked : Nat := 3
abbrev txEcnUnmarked : Nat := 4
abbrev txVidNoTag : Nat := 5
abbrev txOversize : Nat := 6
abbrev txPaused : Nat := 8
abbrev txShaped : Nat := 9

/-! ### Readiness (R471) -/

/-- The length of a chain's frame after its edits (R343, R474). -/
def Chain.outLen (c : Chain) : Nat := (rewrittenLen c.bytes.length (parseODesc c.odesc).ops).toNat

/-- L_out: with padding and FCS at a physical port, without either at P128–P131 (R474). -/
def loutOf (lp n : Nat) : Nat := if lp < 64 then (if n < 60 then 60 else n) + 4 else n

/-- The bytes of a frame as the rewrite engine hands it on, without the FCS (R486). -/
def sentLen (n : Nat) : Nat := if n < 60 then 60 else n

/-- The selected frames of a port that have not begun to leave. -/
def State.unsent (s : State) (h : Half) (lp : Nat) : List Sel := (s.sels h lp).filter fun f => !f.started

/-- Units of 64 bytes of FRAME_OUT credit that a frame of `n` bytes takes (R426). -/
def frameUnits (n : Nat) : Nat := (8 + n + 63) / 64

/-- What P128–P131 need beyond the rules of a physical port before the frame of chain `id` is selected (R471, R679). Frames selected
earlier that have not left count too, so that none is dropped for want of room (R490). -/
def State.vportReady (s : State) (h : Half) (lp id : Nat) : Bool :=
  let c := s.chain h id
  let wait := (s.unsent h lp).map fun f => s.chain h f.entry.chain
  match lp - 64 with
  | 0 =>
    let r := s.ringCtl h 0
    ringFits (ringUnits r) (ringTail r) (ringHead r) ((wait ++ [c]).map fun x => sentLen x.outLen)
  | 1 =>
    let r := s.pv.p129.get h
    ringFits p129Units r.tail r.head ((wait ++ [c]).map fun x => sentLen x.outLen)
  | 2 =>
    decide ((s.ing.get h).injectUsed + (s.ing.get h).loops.length + wait.length < injectDepth) &&
      (decide (c.pool = 0) ||
        decide (((wait ++ [c]).filter fun x => x.pool ≠ 0).foldl (fun n x => n + x.size) 0 ≤ s.poolFree h 0))
  | _ =>
    let held := ((s.exp.get h).waiting.filter fun m => m.frame).map fun m => frameUnits m.bytes.length
    decide ((held ++ (wait ++ [c]).map fun x => frameUnits (sentLen x.outLen)).foldl (· + ·) 0 ≤ (s.exp.get h).frameCredits)

/-- A port scheduler is ready, but for what a virtual port asks of the frame itself (R471). -/
def State.portReady (s : State) (h : Half) (lp : Nat) : Bool :=
  s.live (.sched h) && decide (s.hold h lp = .up) && (decide (64 ≤ lp) || s.portUp h lp) && s.leadOk h lp && s.allows h .port lp

/-! ### Selection (R472–R476, R484, R488) -/

/-- The longest frame a port sends (R488). -/
def State.egressMax (s : State) (h : Half) (lp : Nat) : Nat :=
  if lp < 64 then macMax (s.reg (bPort (portOf h lp)) R.port_MAC_CFG) else 10240

/-- A frame is sampled at its selection (R484); `n` is the port's count of selections with this one. -/
def State.samples (s : State) (h : Half) (lp n : Nat) (late : Bool) : Bool :=
  let c := s.reg (bSched h) (R.sched_PSCH + 8 * lp)
  (decide (fld c 8 5 ≤ 30) && decide (n % 2 ^ fld c 8 5 = 0)) || (bit c 15 && late)

/-- The head entry `e` of queue `q` is selected: tags and buckets, the selected frame, and the count (R475, R478, R484). -/
def State.selectHead (s : State) (h : Half) (q : Nat) (e : QEntry) (rest : List QEntry) : State :=
  let lp := q / 16
  let c := s.chain h e.chain
  let lout := loutOf lp c.outLen
  let lc := s.charged h lp lout
  let n := tget 0 (s.sched.get h).count lp + 1
  let f : Sel :=
    { entry := e, q := q, lc := lc, lout := lout, sBefore := tget 0 (s.sched.get h).qS q, sampled := s.samples h lp n c.late,
      selDts := s.dts h, depth := depthOf (s.queue h q), bytes := none, ceApplied := false, stomp := false, started := false,
      readDone := false, ended := false }
  let s1 := s.withSched h lp fun s => (s.selectTags h q lc).setQueue h q rest
  (s1.setSels h lp (s1.sels h lp ++ [f])).updSched h fun x => { x with count := tput x.count lp n }

/-- The head entry of a queue leaves it unsent under a port counter, and its hold ends (R465, R488). -/
def State.dropHead (s : State) (h : Half) (q : Nat) (e : QEntry) (rest : List QEntry) : State :=
  (s.withSched h (q / 16) fun s => s.setQueue h q rest).release h e.chain

/-- A port scheduler makes one selection (R472, R473); a port that is not ready discards nothing (R471). -/
def doSchedSelect (h : Half) (lp : Nat) (s0 : State) : State :=
  if s0.live (.sched h) then
    let s := s0.schedRefresh h lp (s0.nonEmpty h lp)
    if s.portReady h lp then
      match (s.pickClass h lp).bind fun k => s.pickQueue h k with
      | none => s
      | some q =>
        match s.queue h q with
        | [] => s
        | e :: rest =>
          if 64 ≤ lp ∧ s.vportReady h lp e.chain = false then s
          else if s.chainBad h e.chain then (s.withSched h lp fun s => s.setQueue h q rest).errorDrop h h lp e.chain
          else if s.egressMax h lp < loutOf lp (s.chain h e.chain).outLen then (s.dropHead h q e rest).bumpTx h lp txOversize 1
          else s.selectHead h q e rest
    else s
  else s0

/-! ### The rewrite engine (R486–R489) -/

/-- Change the first selected frame of a port that satisfies `p`. -/
def updFirst (p : Sel → Bool) (f : Sel → Sel) : List Sel → List Sel
  | [] => []
  | x :: r => if p x then f x :: r else x :: updFirst p f r

/-- Drop the first selected frame of a port that satisfies `p`. -/
def dropFirstSel (p : Sel → Bool) : List Sel → List Sel
  | [] => []
  | x :: r => if p x then r else x :: dropFirstSel p r

/-- The rewritten frame, whether its CE request was applied, and the counters it moves (R486, R487). -/
def State.rewriteBytes (s : State) (h : Half) (lp : Nat) (e : QEntry) : State × List Byte × Bool :=
  let c := s.chain h e.chain
  let g := applyODesc c.bytes (parseODesc c.odesc).ops
  let (s1, g1) :=
    if e.vidEn then
      match applyVid g e.vid with
      | some x => (s, x)
      | none => (s.bumpTx h lp txVidNoTag 1, g)
    else (s, g)
  let (s2, g2, ce) :=
    if e.ce then
      match applyCe g1 with
      | some x => (s1.bumpTx h lp txEcnMarked 1, x, true)
      | none => (s1.bumpTx h lp txEcnUnmarked 1, g1, false)
    else (s1, g1, false)
  (s2, padFrame g2, ce)

/-- A selected frame that has not been rewritten. -/
def Sel.raw (f : Sel) : Bool := f.bytes.isNone && !f.started

/-- The rewrite engine makes the next selected frame of a port (R486), or finds a cell of it uncorrectable and discards it
(R464, R489); a fenced bank is found as it is read (R465). -/
def doRewrite (h : Half) (lp : Nat) (s : State) : State :=
  match (s.sels h lp).find? Sel.raw with
  | none => s
  | some f =>
    if s.live (.sched h) = false then s
    else if s.unreadable h f.entry.chain then (s.setSels h lp (dropFirstSel Sel.raw (s.sels h lp))).errorDrop h h lp f.entry.chain
    else
      let (s1, g, ce) := s.rewriteBytes h lp f.entry
      s1.setSels h lp (updFirst Sel.raw (fun x => { x with bytes := some g, ceApplied := ce }) (s1.sels h lp))

/-! ### Transmit timestamps (R90, R92) -/

/-- The transmit timestamp now, in units of 2⁻³²/24 ns (R90). -/
def State.txTime (s : State) (p : PortIx) : Nat :=
  let lat := txLatency (s.modeNow p) (fecOn (s.reg (bPort p) R.port_MAC_CFG))
  ptpShift (s.time.get (portHalf p)) (signed 16 (s.rfld (bPort p) R.port_PTP_CFG 48 16) + ((lat * 24 : Nat) : Int))

/-- A time in units of 2⁻¹⁶ ns. -/
def ptp16 (x : Nat) : Nat := x / (24 * 2 ^ 16)

/-- A PTP receive field in units of 2⁻¹⁶ ns within its 16-bit seconds (R91). -/
def rxField16 (w : Nat) : Nat := (bits w 48 16 * 1000000000 + bits w 16 30) * 65536 + bits w 8 8 * 256

/-- The residence time: the difference modulo the 2¹⁶ seconds that the receive field spans, in units of 2⁻¹⁶ ns (R92). -/
def residence (tx rx : Nat) : Nat :=
  let m := 65536 * 1000000000 * 65536
  (ptp16 tx % m + m - rx % m) % m

/-- The correctionField of the PTP header at `o`. -/
def corrAt (g : List Byte) (o : Nat) : Nat := beNat (slice g (o + 8) 8)

/-- Bytes written into a frame where it has them. -/
def patch (g : List Byte) (o : Nat) (bs : List Byte) : List Byte := if o + bs.length ≤ g.length then overlay g o bs else g

/-- CAPTURE: a record enters the two-step FIFO, or is lost when it is full (R92). -/
def State.capture (s : State) (p : PortIx) (g : List Byte) (o tx : Nat) : State :=
  let h := portHalf p
  let lp := portLocal p
  let (sec, ns, fr) := ptpParts tx
  let l := tget [] (s.ing.get h).txts lp
  if 64 ≤ l.length then
    s.setRfld (bPort p) R.port_PTP_CFG 16 16 (satTo (s.rfld (bPort p) R.port_PTP_CFG 16 16 + 1) 0xFFFF)
  else
    let r : TxStamp :=
      { sec := sec, ns := ns, frac := fr, seqId := beNat (slice g (o + 30) 2), msgType := (nth 0 g o).toNat % 16,
        dom := (nth 0 g (o + 4)).toNat }
    s.updIng h fun i => { i with txts := tput i.txts lp (l ++ [r]) }

/-- The PTP operation of a descriptor, made by the transmit MAC of a port whose timestamping is enabled (R92, R340). -/
def State.ptpOp (s : State) (p : PortIx) (d : ODesc) (g : List Byte) : State × List Byte :=
  match d.ops.find? EditOp.ptp with
  | none => (s, g)
  | some o =>
    if bit (s.reg (bPort p) R.port_PTP_CFG) 15 then
      let tx := s.txTime p
      match o.kind with
      | 6 => (s.capture p g o.off tx, g)
      | 7 =>
        let (sec, ns, _) := ptpParts tx
        (s, patch (patch g (o.off + 34) (beBytes 6 (sec % 2 ^ 48) ++ beBytes 4 ns)) (o.off + 8) (beBytes 8 (ptp16 tx % 65536)))
      | _ => (s, patch g (o.off + 8) (beBytes 8 ((corrAt g o.off + residence tx (rxField16 d.w1)) % 2 ^ 64)))
    else (s, g)

/-- A read of PTP_TXTS_B removes the oldest record after returning it (R93). -/
def State.popTxts (s : State) (p : PortIx) : State :=
  s.updIng (portHalf p) fun i => { i with txts := tset [] i.txts (portLocal p) (dropFirst (tget [] i.txts (portLocal p))) }

/-! ### Telemetry (R484, R485) -/

/-- Records of the telemetry ring (R492). -/
def State.telemSize (s : State) (h : Half) : Nat :=
  let n := s.rfld (bSched h) R.sched_TELEM_CTL 16 5
  2 ^ (if n < 8 then 8 else if 20 < n then 20 else n)

/-- The record of a sampled frame (R484). -/
def telemRecord (lp : Nat) (port : Nat) (f : Sel) (c : Chain) (dts : Nat) : List Byte :=
  leBytes 8 (port <<< 56 ||| (f.q - 16 * lp) <<< 52 ||| b2n c.late <<< 51 ||| b2n c.crossed <<< 50 ||| b2n f.ceApplied <<< 49 |||
      c.stamp.toNat % 2 ^ 48) ++
    leBytes 8 ((f.lout % 2 ^ 14) <<< 48 ||| dts % 2 ^ 48) ++ leBytes 8 (f.selDts.toNat % 2 ^ 48) ++
    leBytes 8 (c.inPort <<< 56 ||| f.depth % 2 ^ 20)

/-- The telemetry ring as a requester: SCHED, STREAM (R498, R501). -/
def telemReq : HbmReq := ⟨.sched, srcTelem, true⟩

/-- HEAD and TAIL of the telemetry ring (R492). -/
def State.telemHead (s : State) (h : Half) : Nat := s.rfld (bSched h) R.sched_TELEM_CTL 24 20 % s.telemSize h
def State.telemTail (s : State) (h : Half) : Nat := s.rfld (bSched h) R.sched_TELEM_CTL 44 20 % s.telemSize h

/-- The address of the ring's record at HEAD (R485). -/
def State.telemAddr (s : State) (h : Half) : Nat := 32 * s.rfld (bSched h) R.sched_TELEM_BASE 5 43 + 32 * s.telemHead h

/-- The ring is full (R485). -/
def State.telemFull (s : State) (h : Half) : Bool := decide ((s.telemHead h + 1) % s.telemSize h = s.telemTail h)

/-- A record is written into the ring, or dropped when it is full; HEAD advances once the controller has accepted it, and the event flag
of a ring that was empty is set (R485, R504). -/
def State.telemPut (s : State) (h : Half) (bs : List Byte) : State :=
  let b := bSched h
  if s.telemFull h then s.bump b R.sched_TELEM_DROP
  else
    match s.hbmWrite h telemReq (s.telemAddr h) bs with
    | (s1, false) => s1
    | (s1, true) =>
      let s2 := (s1.setRfld b R.sched_TELEM_CTL 24 20 ((s.telemHead h + 1) % s.telemSize h)).bump b R.sched_TELEM_RECORDS
      if s.telemHead h = s.telemTail h then s2.svcEvent h (s2.reg b R.sched_TELEM_EVENT) else s2

/-- The controller would let the next record wait (R502). -/
def State.telemHeld (s : State) (h : Half) : Bool := !s.telemFull h && s.hbmWriteWaits h telemReq (s.telemAddr h) 32

/-- A sampled frame forms its record, which waits while its controller or an earlier record does (R484, R485, R502). -/
def State.telemetry (s : State) (h : Half) (lp : Nat) (f : Sel) : State :=
  if f.sampled then
    let bs := telemRecord lp (portOfLp h lp) f (s.chain h f.entry.chain) (s.dts h).toNat
    if !(s.sched.get h).telemWait.isEmpty || s.telemHeld h then s.updSched h fun x => { x with telemWait := x.telemWait ++ [bs] }
    else s.telemPut h bs
  else s

/-- The oldest waiting record is written once its controller takes it (R502). -/
def State.telemTick (s : State) (h : Half) : State :=
  match (s.sched.get h).telemWait with
  | [] => s
  | bs :: r => if s.telemHeld h then s else (s.updSched h fun x => { x with telemWait := r }).telemPut h bs

/-- A write to SIZE_LOG2 sets HEAD and TAIL to zero (R492). -/
def State.telemSizeWrite (s : State) (h : Half) : State :=
  (s.setRfld (bSched h) R.sched_TELEM_CTL 24 20 0).setRfld (bSched h) R.sched_TELEM_CTL 44 20 0

/-! ### Transmission (R94, R442, R481, R490) -/

/-- The first bit of a frame leaves: the counters of R493 and its telemetry record. -/
def State.firstBit (s : State) (h : Half) (lp : Nat) (f : Sel) : State :=
  let s1 := (s.bumpTx h lp txFrames 1).bumpTx h lp txBytes f.lout
  let s2 := if (s.chain h f.entry.chain).late then s1.bumpTx h lp txLate 1 else s1
  s2.telemetry h lp f

/-- A rewritten frame that has not begun to leave. -/
def Sel.made (f : Sel) : Bool := f.bytes.isSome && !f.started

/-- A frame for P130 becomes the frame of its chain; a chain with further holders stays as it is and the frame takes one of its own
(R490, R679). -/
def State.loopChain (s : State) (h : Half) (id : Nat) (g : List Byte) : State × Nat :=
  let c := s.chain h id
  if c.refcnt ≤ 1 then
    let n := cellsFor g.length
    let s1 := s.updBuf h fun b =>
      match tget? b.chains id with
      | some c =>
        { (b.uncharge c.pool (c.size - satTo c.size n)) with
            chains := tput b.chains id
              { c with bytes := g, cells := (c.cells ++ c.ocells).take n, ocells := [], odesc := [] } }
      | none => b
    let have0 := (s1.chain h id).cells.length
    (if have0 < n then s1.growChain h id (n - have0) else s1, id)
  else (s.addChain h { c with bytes := g, odesc := [], pool := 0 } (cellsFor g.length) 0)

/-- The next frame of a port begins to leave (R94): the transmit MAC makes its PTP operation; P130 hands it to the inject queue and
P131 to the expansion port (R430, R490). A frame that cannot be read whole is discarded before its first bit (R464, R465). -/
def doTransmit (h : Half) (lp : Nat) (s : State) : State :=
  let busy := (s.sels h lp).any fun f => f.started && !f.ended
  match (s.sels h lp).find? Sel.made with
  | none => s
  | some f =>
    let g := f.bytes.getD []
    if busy ∨ s.live (.sched h) = false ∨ s.portUp h lp = false ∨ s.pfcDue h lp then s
    else if 64 ≤ lp ∧ lp < 66 then s
    else if s.unreadable h f.entry.chain then (s.setSels h lp (dropFirstSel Sel.made (s.sels h lp))).errorDrop h h lp f.entry.chain
    else if lp < 64 then
      let p := portOf h lp
      let (s1, g1) := (s.firstBit h lp f).ptpOp p (parseODesc (s.chain h f.entry.chain).odesc) g
      s1.setSels h lp (updFirst Sel.made (fun x => { x with started := true, bytes := some (g1 ++ leBytes 4 (crcFcs.of g1)) }) (s1.sels h lp))
    else if lp = 66 then
      let s1 := s.firstBit h lp f
      let s2 := s1.setSels h lp (dropFirstSel Sel.made (s1.sels h lp))
      let (s3, id) := s2.loopChain h f.entry.chain g
      let s4 := if id = f.entry.chain then s3 else s3.release h f.entry.chain
      s4.updIng h fun i => { i with loops := i.loops ++ [id] }
    else
      let s1 := s.firstBit h lp f
      let m : ExpMsg := { frame := true, tag := 0, tile := 0, cluster := 0, inst := 0, fn := 0, bytes := g }
      { (s1.setSels h lp (updFirst Sel.made (fun x => { x with started := true }) (s1.sels h lp))) with
          exp := s1.exp.upd h fun x => { x with waiting := x.waiting ++ [m] } }

/-- A frame whose last cell is still to be read. -/
def Sel.reading (f : Sel) : Bool := f.started && !f.readDone

/-- A frame that has begun to leave ends with an inverted FCS (R464); one without an FCS, at P131, is only marked. -/
def Sel.spoil (lp : Nat) (f : Sel) : Sel :=
  if f.stomp then f
  else
    { f with
      stomp := true
      bytes := if lp < 64 then f.bytes.map fun g => g.take (g.length - 4) ++ (g.drop (g.length - 4)).map (~~~ ·) else f.bytes }

/-- The read of a frame's last cell ends (R442, R443). A cell found uncorrectable once the frame has begun to leave ends it with an
inverted FCS and counts STOMPED (R464); so does one found in a fenced bank or behind a failed pointer, under ERROR_DROP (R465). -/
def doReadEnd (h : Half) (lp : Nat) (s : State) : State :=
  match (s.sels h lp).find? Sel.reading with
  | none => s
  | some f =>
    let id := f.entry.chain
    let bad := s.unreadable h id
    let s1 := s.setSels h lp (updFirst Sel.reading (fun x => { (if bad then x.spoil lp else x) with readDone := true }) (s.sels h lp))
    if s.chainUncorrectable h id then (s1.bumpPort h lp pcStomped).release h id
    else if bad then s1.errorDrop h h lp id else s1.release h id

/-- A frame that is read and whose last bit is still to leave. -/
def Sel.leaving (f : Sel) : Bool := f.started && f.readDone

/-- The last bit of a frame leaves the transmit MAC, or its message the expansion port (R471). -/
def doFrameOut (h : Half) (lp : Nat) (s : State) : State :=
  if lp = 67 ∧ ((s.exp.get h).waiting.any fun m => m.frame) then s else s.setSels h lp (dropFirstSel Sel.leaving (s.sels h lp))

/-- P128 and P129: the next frame is delivered to its ring (R490, R624). -/
def doRingDeliver (h : Half) (v : Fin 2) (s : State) : State :=
  let lp := 64 + v.val
  match (s.sels h lp).find? Sel.made with
  | none => s
  | some f =>
    if s.live (.sched h) = false then s
    else if s.unreadable h f.entry.chain then (s.setSels h lp (dropFirstSel Sel.made (s.sels h lp))).errorDrop h h lp f.entry.chain
    else
      let c := s.chain h f.entry.chain
      let r : RingFrame :=
        { queue := f.q - 16 * lp, late := c.late, crossed := c.crossed, inPort := c.inPort, stamp := c.stamp.toNat, bytes := f.bytes.getD [] }
      let s1 := s.firstBit h lp f
      let s2 := if v = 0 then s1.ringPut h 0 ⟨.sched, srcTelem, false⟩ r
        else { s1 with pv := { s1.pv with p129 := s1.pv.p129.upd h fun x => x.put r (s.dts h).toNat } }
      (s2.setSels h lp (dropFirstSel Sel.made (s2.sels h lp))).release h f.entry.chain

/-! ### Shapers and ticks -/

/-- The periodic refill of a node (R476, R477). -/
def doShaperRefill (h : Half) (level : Fin 3) (i : Nat) (s : State) : State :=
  let l : Lvl := if level = 0 then .queue else if level = 1 then .cls else .port
  let lp := if level = 0 then i / 16 else if level = 1 then i / 4 else i
  if lp < 68 then (s.setBucket h l i (s.bucketNow h l i)).schedRefresh h lp (s.nonEmpty h lp) else s

/-- The tick counters of a port's scheduler (R493). -/
def State.schedTickPort (h : Half) (s : State) (lp : Nat) : State :=
  let qs := s.nonEmpty h lp
  let s1 := if qs.any fun q => s.qPaused h q then s.bumpTx h lp txPaused 1 else s
  if ((classesOf lp).any fun k => s.cEligible h k) && !s.allows h .port lp then s1.bumpTx h lp txShaped 1 else s1

/-! ### The commands -/

/-- SCHED_SELECT (R472, R473). -/
def execSchedSelect (h : Half) (port : Fin 68) (s : State) : Out := .next (s.checked (doSchedSelect h port.val s))

/-- REWRITE_FRAME (R486). -/
def execRewriteFrame (h : Half) (port : Fin 68) (s : State) : Out := .next (doRewrite h port.val s)

/-- FRAME_TRANSMIT (R94). -/
def execFrameTransmit (h : Half) (port : Fin 68) (s : State) : Out := .next (doTransmit h port.val s)

/-- TRANSMIT_READ_END (R442). -/
def execTransmitReadEnd (h : Half) (port : Fin 68) (s : State) : Out := .next (doReadEnd h port.val s)

/-- TRANSMIT_FRAME_END (R471). -/
def execTransmitFrameEnd (h : Half) (port : Fin 68) (s : State) : Out := .next (doFrameOut h port.val s)

/-- RING_DELIVER (R490). -/
def execRingDeliver (h : Half) (vport : Fin 2) (s : State) : Out := .next (s.orWait (doRingDeliver h vport))

/-- SHAPER_REFILL (R477). -/
def execShaperRefill (h : Half) (level : Fin 3) (index : Fin 1088) (s : State) : Out := .next (doShaperRefill h level index.val s)

end Sys2Proof.Machine
end

