-- ==== Sys2Proof/Machine/Ford.lean ====
section
/-! DEFINITION. The Ford link (R520–R534): crossing records with their credits and acknowledgements, table-sync notices, heartbeats and
fatal notices, training, lane checks and repair, and the loss and return of the peer. -/

namespace Sys2Proof.Machine

/-- Change a half's end of Ford. -/
def State.updFord (s : State) (h : Half) (f : FordState → FordState) : State := { s with ford := s.ford.upd h f }

/-- Credits of a half's receive buffer: 512 KB in units of 256 bytes (R524). -/
abbrev fordCredits : Nat := 2048

/-- A half's FORD unit works and its link is up. -/
def State.fordUp (s : State) (h : Half) : Bool := s.live (.ford h) && (s.ford.get h).linkUp

/-! ### Crossing records (R524–R526, R452) -/

/-- A crossing ends at the ingress half: its hold on the chain and on OLDEST_LIVE (R26, R442). -/
def State.endCrossing (s : State) (h : Half) (id : Nat) : State :=
  let s1 := { s with conf := s.conf.upd h fun x => { x with crossing := tdel x.crossing id } }
  (s1.updFord h fun f => { f with waiting := f.waiting.filter (fun r => r.chain ≠ id), flight := f.flight.filter fun r => r.chain ≠ id }).release
    h id

/-- The oldest record that waits is sent once credit for its whole length is held (R524); one whose chain cannot be read whole is
discarded under ERROR_DROP of its port (R443, R464, R465). -/
def doCrossSend (h : Half) (s : State) : State :=
  match (s.ford.get h).waiting with
  | [] => s
  | r :: rest =>
    if s.fordUp h ∧ r.credits ≤ (s.ford.get h).credits then
      if s.unreadable h r.chain then
        ((s.pointerFault h r.chain).bumpPort (egressHalf h r.port) (lpOf r.port) pcError).endCrossing h r.chain
      else
      let s1 := s.updFord h fun f => { f with waiting := rest, flight := f.flight ++ [r], credits := f.credits - r.credits }
      (s1.updFord (other h) fun f => { f with cellsIn := f.cellsIn ++ [r] }).bump (bFord h) R.ford_CROSS_SENT
    else s

/-- A record waits for credit (R524 CREDIT_WAIT_TICKS). -/
def State.creditWaits (s : State) (h : Half) : Bool :=
  match (s.ford.get h).waiting with
  | [] => false
  | r :: _ => decide ((s.ford.get h).credits < r.credits)

/-- A frame that has crossed takes its chain, registers, and goes to its walk or its queue (R440, R452, R491). -/
def State.takeCrossing (s : State) (h : Half) (r : CrossRec) : State :=
  let nc := cellsFor r.frame.bytes.length
  let no := cellsFor r.frame.odesc.length
  if s.canTake h 0 (nc + no) then
    let (s1, id) := s.addChain h { r.frame with pool := 0, crossed := true, broken := false } nc no
    let s2 := { s1 with conf := s1.conf.upd h fun x => { x with registered := tput x.registered id r.frame.stamp } }
    match r.list with
    | some l => s2.updBuf h fun b => { b with walks := b.walks ++ [{ chain := id, list := l }] }
    | none =>
      s2.updBuf h fun b =>
        { b with copies := b.copies ++ [{ chain := id, port := r.port, q := 16 * lpOf r.port + r.queue, mcast := false, vidEn := false,
                                          vid := 0 }] }
  else s.bump (bBuffer h) R.buffer_FORD_NO_CELL

/-- The egress half takes the next crossing record, or discards it for want of cells, and acknowledges it (R452, R524); the frame's
learn key is examined (R225). -/
def doCrossReceipt (h : Half) (s : State) : State :=
  match (s.ford.get h).cellsIn with
  | [] => s
  | r :: rest =>
    if s.live (.buffer h) ∧ s.live (.ford h) then
      let s1 := s.updFord h fun f => { f with cellsIn := rest }
      let s2 := (s1.takeCrossing h r).examineFrom h r.frame.learnKey r.frame.inPort
      let s3 := s2.updFord (other h) fun f => { f with acksIn := f.acksIn ++ [(r.chain, r.credits)] }
      s3.bump (bFord h) R.ford_CROSS_RECEIVED
    else s

/-- An acknowledgement reaches the ingress half with its credits (R26, R524); one for a record already released gives its credits
alone (R532). -/
def doCrossAck (h : Half) (s : State) : State :=
  match (s.ford.get h).acksIn with
  | [] => s
  | (id, k) :: rest =>
    let s1 := s.updFord h fun f => { f with acksIn := rest, credits := satTo (f.credits + k) fordCredits }
    if (s.ford.get h).flight.any fun r => r.chain = id then s1.endCrossing h id else s1

/-! ### Notices (R222), heartbeats and fatal notices (R520, R531) -/

/-- A half sends its OLDEST_LIVE (R222). -/
def doNoticeSend (h : Half) (s : State) : State :=
  if s.fordUp h ∧ s.live (.half h) then
    s.updFord (other h) fun f => { f with noticesIn := f.noticesIn ++ [BitVec.ofNat 64 (s.published h)] }
  else s

/-- A half receives the other's OLDEST_LIVE (R222, R533). -/
def doNoticeReceive (h : Half) (s : State) : State :=
  match (s.ford.get h).noticesIn with
  | [] => s
  | v :: rest =>
    let s1 := { (s.updFord h fun f => { f with noticesIn := rest }) with conf := s.conf.upd h fun x => { x with remote := v } }
    s1.updTab h fun t => { t with noticed := true }

/-- The link state of every port of a half, bit p for local port p (R520). -/
def State.portBits (s : State) (h : Half) : Nat :=
  (List.range 64).foldl (fun n lp => if s.portUp h lp then n + 2 ^ lp else n) 0

/-- A heartbeat is sent with the link state of the half's ports (R520). -/
def doHeartbeatSend (h : Half) (s : State) : State :=
  if s.fordUp h then
    s.updFord (other h) fun f => { f with heartbeatsIn := f.heartbeatsIn ++ [BitVec.ofNat 64 (s.portBits h)] }
  else s

/-- A heartbeat arrives (R531, R533). -/
def doHeartbeatReceive (h : Half) (s : State) : State :=
  match (s.ford.get h).heartbeatsIn with
  | [] => s
  | v :: rest => s.updFord h fun f => { f with heartbeatsIn := rest, lastHeartbeat := some s.ticks, peerPorts := v.toNat }

/-- A fatal notice of the peer's hub arrives (R531). -/
def doFatalNotice (h : Half) (s : State) : State :=
  if (s.ford.get h).fatalIn then s.updFord h fun f => { f with fatalIn := false, fatalSeen := true } else s

/-! ### The peer (R531–R533) -/

/-- The conditions under which a half sees its peer as up (R531). -/
def State.peerOk (s : State) (h : Half) : Bool :=
  let f := s.ford.get h
  s.live (.ford 0) && s.live (.ford 1) && f.linkUp && !f.fatalSeen &&
    (match f.lastHeartbeat with
     | some t => decide (s.ticks ≤ t + 3000)
     | none => false)

/-- Every thread of H1 that waits for a device-wide lock receives UNAVAILABLE (R532). -/
def State.unavailableH1 (s : State) : State :=
  let give (x : Thread) : Thread :=
    match x.phase with
    | .lock gd num _ => if 4096 ≤ num then { x.setG gd 8 with phase := .issuing } else x
    | _ => x
  { s with
    tiles := s.tiles.upd 1 fun ts => ts.map fun e => (e.1, { e.2 with threads := e.2.threads.map fun y => (y.1, give y.2) })
    cc := s.cc.upd 1 fun c => { c with threads := c.threads.map fun y => (y.1, give y.2) } }

/-- With Ford down or the peer lost the follower runs free (R75, R532). -/
def State.runFree (s : State) : State := { s with time := s.time.both fun _ t => { t with slewing := false } }

/-- What the loss of a half's peer does beside its record: PEER_UP, the counter and the actions of R532. -/
def State.losePeerWork (s : State) (h : Half) : State :=
  let f := s.ford.get h
  let s1 := (s.bump (bFord h) R.ford_PEER_LOST_EVENTS).updFord h fun f => { f with peerUp := false, lost := true, peerPorts := 0 }
  let s2 := (f.flight ++ f.waiting).foldl (fun s r => (s.endCrossing h r.chain).bump (bFord h) R.ford_XHALF_DROP) s1
  (if h = 0 then s2.dropHalfLocks 1 else s2.unavailableH1).updTime h fun t => { t with slewing := false }

/-- A half loses its peer: the record, and what R532 does. -/
def State.losePeer (s : State) (h : Half) : State := (s.report (.ford h) F.FORD_PEER_LOST).losePeerWork h

/-- The peer is declared lost once a condition of R531 has ended. -/
def doPeerLost (h : Half) (s : State) : State := if (s.ford.get h).peerUp ∧ s.peerOk h = false then s.losePeer h else s

/-- RETIRE_BASIS stands at a value until the first notice (R222, R533). -/
def State.holdBasis (s : State) (h : Half) (v : Nat) : State :=
  (s.setReg (bTable h 7) R.version_RETIRE_BASIS (BitVec.ofNat 64 v)).updTab h fun t => { t with noticed := false }

/-- The peer is up again (R533). -/
def doPeerUp (h : Half) (s : State) : State :=
  if (s.ford.get h).peerUp = false ∧ s.peerOk h = true then
    (if (s.ford.get h).lost then s.holdBasis h (s.retireBasis h) else s).updFord h fun f => { f with peerUp := true, lost := false }
  else s

/-! ### Training, flits and lanes (R522, R526–R530) -/

/-- Bundles enabled at both ends (R530). -/
def State.bundlesEnabled (s : State) : Nat :=
  (s.rfld (bFord 0) R.ford_FORD_CFG 0 16) &&& (s.rfld (bFord 1) R.ford_FORD_CFG 0 16)

/-- Ford trains when both units have been requested ACTIVE, with its PLL locked (R527, R632), and at step 10 of a start (R647). -/
def State.fordTrains (s : State) : Bool :=
  !s.pv.ioLost.contains 7 &&
    ((s.live (.ford 0) && s.live (.ford 1)) ||
      (decide (s.rfld bDevice R.device_START_STAT 0 8 = 9) && decide (s.ustate (.ford 0) = .test) && decide (s.ustate (.ford 1) = .test)))

/-- A spare lane takes the place of a lane of bundle `b`, and Privet keeps it in its map (R527, R528, R530). -/
def State.useSpare (s : State) (h : Half) (b lane : Nat) : State :=
  let n := 2 * b + tget 0 (s.ford.get h).sparesUsed b
  let s1 := s.updFord h fun f => { f with sparesUsed := tmod 0 f.sparesUsed b (· + 1) }
  { s1 with pv := { s1.pv with fordLanes := s1.pv.fordLanes.upd h fun t => tput t n lane } }

/-- The bundles of a mask that a training leaves with more than two failed lanes, those replaced earlier among them (R527). -/
def FordState.overFailed (f : FordState) (failed : List (Nat × Nat)) (en : Nat) : Nat :=
  (List.range 16).foldl (fun m b =>
    if en.testBit b ∧ 2 < tget 0 f.sparesUsed b + (failed.filter fun e => e.1 = b).length then setBit m b else m) 0

/-- Training ends with these lanes of bundles failed (R527): spares replace them, a bundle with more than two is fenced, and the link is up
when one bundle is. The TIME delay is measured: a free value. -/
def doFordTrained (h : Half) (failed : List (Nat × Nat)) (s : State) : State :=
  let f := s.ford.get h
  if s.fordTrains ∧ f.linkUp = false then
    let en := s.bundlesEnabled &&& (65535 - f.fenced % 65536)
    let lanes := failed.eraseDups.filter fun e => en.testBit e.1
    let gone := f.overFailed lanes en
    let up := en &&& (65535 - gone)
    let s0 := (lanes.filter fun e => up.testBit e.1).foldl (fun s e => s.useSpare h e.1 e.2) s
    let s1 := s0.updFord h fun f =>
      { f with
        linkUp := decide (up ≠ 0), bundlesUp := up, fenced := f.fenced ||| gone, fatalSeen := false,
        credits := fordCredits, cellsIn := [], acksIn := [], noticesIn := [], timeIn := [], learnIn := [], heartbeatsIn := [],
        fatalIn := false, lastHeartbeat := none, repairing := [], laneErrors := [], headers := [], lastGood := s.ticks }
    let s2 := { s1 with pv := { s1.pv with fordFenced := s1.pv.fordFenced.upd h fun n => n ||| gone } }
    s2.used.setReg (bFord h) R.ford_FORD_DELAY (BitVec.ofNat 64 (s.free 16).toNat)
  else s

/-- The CRC in a flit's trailer, low byte first, is that of its header and payload (R522). -/
def fordCrcOk (x : FordFlit) : Bool :=
  decide (x.bytes.length = 256) && decide (leNat (x.bytes.drop 248) = crcFord.of (x.bytes.take 248))

/-- A flit is good: its CRC holds, and its sequence number is the one after that of the bundle's last good flit (R526). -/
def FordState.goodFlit (f : FordState) (x : FordFlit) : Bool :=
  fordCrcOk x && (match tget? f.headers x.bundle.val with
    | some e => Config.fordNext e (x.bytes.take 8)
    | none => true)

/-- A flit arrives on a bundle that is up; a bad one is discarded and replayed by its sender, which counts it (R526). The messages in it are
the commands that receive them (DESIGN CHOICE, log 92). -/
def doFordFlit (h : Half) (x : FordFlit) (s : State) : State :=
  let f := s.ford.get h
  if s.fordUp h ∧ f.bundlesUp.testBit x.bundle.val then
    if f.goodFlit x then s.updFord h fun f => { f with headers := tput f.headers x.bundle.val (x.bytes.take 8), lastGood := s.ticks }
    else s.bump (bFord (other h)) R.ford_FLIT_REPLAYS
  else s

/-- LINK_UP falls, and the unit retrains (R529). -/
def State.fordFallsWork (s : State) (h : Half) : State :=
  s.runFree.updFord h fun f => { f with linkUp := false, bundlesUp := 0, repairing := [] }

/-- LINK_UP falls with its record (R529). -/
def State.fordFalls (s : State) (h : Half) : State := (s.fordFallsWork h).report (.ford h) F.FORD_DOWN

/-- A bundle is fenced (R528). -/
def State.fenceBundle (s : State) (h : Half) (b : Nat) : State :=
  let s1 := s.updFord h fun f =>
    { f with fenced := setBit f.fenced b, bundlesUp := clrBit f.bundlesUp b, repairing := f.repairing.filter fun e => e.1 ≠ b }
  { s1 with pv := { s1.pv with fordFenced := s1.pv.fordFenced.upd h fun n => setBit n b } }

/-- A link that is up is lost (R529, R632). -/
def State.dropFord (s : State) (h : Half) : State := if (s.ford.get h).linkUp then s.fordFalls h else s

/-- The link is lost once no good flit has arrived for 1 µs, or with its last bundle (R529). -/
def doFordDown (h : Half) (s : State) : State :=
  let f := s.ford.get h
  if f.linkUp ∧ (f.bundlesUp = 0 ∨ f.lastGood + usTicks ≤ s.ticks) then s.fordFalls h else s

/-- A second in ticks. -/
abbrev secondTicks : Nat := 1500000000

/-- Lanes of a bundle whose repair is in progress. -/
def FordState.repairsOf (f : FordState) (b : Nat) : Nat := (f.repairing.filter fun e => e.1 = b).length

/-- A lane fails: a spare lane is trained in its place, or the bundle is fenced at its third (R528, R529). -/
def State.laneFails (s : State) (h : Half) (b lane : Nat) : State :=
  let f := s.ford.get h
  if f.repairing.contains (b, lane) then s
  else if tget 0 f.sparesUsed b + f.repairsOf b < 2 then s.updFord h fun f => { f with repairing := f.repairing ++ [(b, lane)] }
  else
    let s1 := (s.fenceBundle h b).report (.ford h) F.FORD_BUNDLE_LOST
    if clrBit f.bundlesUp b = 0 then s1.fordFalls h else s1

/-- A lane check flit shows the bit errors of a lane; more than 16 within a second fail it (R528). -/
def doLaneCheck (h : Half) (b lane errors : Nat) (s : State) : State :=
  let f := s.ford.get h
  if s.fordUp h ∧ f.bundlesUp.testBit b ∧ lane < 64 then
    let k := 64 * b + lane
    let l : List (Nat × Nat) := (tget [] f.laneErrors k).filter (fun e => decide (s.ticks < e.1 + secondTicks)) ++ [(s.ticks, errors)]
    if decide (16 < l.foldl (fun (n : Nat) (e : Nat × Nat) => n + e.2) 0) = true then (s.updFord h fun f => { f with laneErrors := tset [] f.laneErrors k [] }).laneFails h b lane
    else s.updFord h fun f => { f with laneErrors := tset [] f.laneErrors k (if l.all fun e => e.2 = 0 then [] else l) }
  else s

/-- Both ends switch to the spare lane (R528). -/
def doLaneRepaired (h : Half) (b lane : Nat) (s : State) : State :=
  if (s.ford.get h).repairing.contains (b, lane) then
    let s1 := s.updFord h fun f => { f with repairing := f.repairing.filter fun e => e ≠ (b, lane) }
    ((s1.useSpare h b lane).bump (bFord h) R.ford_LANES_REPAIRED).report (.ford h) F.FORD_LANE_REPAIRED
  else s

/-- FORD_STAT as it reads (R541). -/
def FordState.stat (f : FordState) : DWord := BitVec.ofNat 64 (b2n f.peerUp <<< 33 ||| b2n f.linkUp <<< 32 ||| f.bundlesUp % 65536)

/-- BUNDLE_STAT_b as it reads (R541). -/
def FordState.bundleStat (f : FordState) (b : Nat) : DWord :=
  BitVec.ofNat 64 (b2n (f.fenced.testBit b) <<< 8 ||| (2 - tget 0 f.sparesUsed b))

/-! ### The commands -/

/-- CROSSING_SEND (R524). -/
def execCrossingSend (h : Half) (s : State) : Out := .next (doCrossSend h s)

/-- CROSSING_RECEIPT (R452). -/
def execCrossingReceipt (h : Half) (s : State) : Out := .next (doCrossReceipt h s)

/-- CROSSING_ACK (R26). -/
def execCrossingAck (h : Half) (s : State) : Out := .next (doCrossAck h s)

/-- TABLE_SYNC_NOTICE_SEND (R222). -/
def execTableSyncNoticeSend (h : Half) (s : State) : Out := .next (doNoticeSend h s)

/-- TABLE_SYNC_NOTICE_RECEIVE (R222). -/
def execTableSyncNoticeReceive (h : Half) (s : State) : Out := .next (doNoticeReceive h s)

/-- HEARTBEAT_SEND (R520). -/
def execHeartbeatSend (h : Half) (s : State) : Out := .next (doHeartbeatSend h s)

/-- HEARTBEAT_RECEIVE (R531). -/
def execHeartbeatReceive (h : Half) (s : State) : Out := .next (doHeartbeatReceive h s)

/-- FATAL_NOTICE_RECEIVE (R531). -/
def execFatalNoticeReceive (h : Half) (s : State) : Out := .next (doFatalNotice h s)

/-- PEER_LOST (R531). -/
def execPeerLost (h : Half) (s : State) : Out := .next (doPeerLost h s)

/-- PEER_UP (R533). -/
def execPeerUp (h : Half) (s : State) : Out := .next (doPeerUp h s)

/-- FORD_FLIT_RECEIVE (R526). -/
def execFordFlitReceive (h : Half) (flit : FordFlit) (s : State) : Out := .next (doFordFlit h flit s)

/-- FORD_LINK_DOWN (R529). -/
def execFordLinkDown (h : Half) (s : State) : Out := .next (doFordDown h s)

/-- FORD_LANE_CHECK (R528). -/
def execFordLaneCheck (h : Half) (bundle : Fin 16) (lane errors : Nat) (s : State) : Out :=
  .next (doLaneCheck h bundle.val lane errors s)

/-- FORD_LANE_REPAIR_DONE (R528). -/
def execFordLaneRepairDone (h : Half) (bundle : Fin 16) (lane : Nat) (s : State) : Out := .next (doLaneRepaired h bundle.val lane s)

end Sys2Proof.Machine
end

