-- ==== Sys2Proof/Machine/HbmParts.lean ====
section
/-! DEFINITION. The parts of a packet task's HBM request (R331, R497): what a part that has been performed, or that its controller
has stopped, leaves in the response, and how the parts that wait at a pseudo-channel end when their controller stops. -/

namespace Sys2Proof.Machine

/-- The status word of FRD and HRD (R329). -/
def statusWord (err : Bool) (grans : Nat) : List Byte := leBytes 8 ((if err then 7 else 0) <<< 56 ||| grans % 256)

/-- What a part brings to its request: the bytes read, the granules of the part whose data was uncorrectable, and whether the part
came back with ERROR. A write brings none. -/
structure PartData where
  bytes : List Byte
  grans : Nat
  err : Bool
  deriving DecidableEq, Repr

/-- A part of a write, or of a read that erred whole: zero data (R499, R517). -/
def PartData.failed (n : Nat) : PartData := ⟨List.replicate n 0, 0, true⟩

/-- A part enters its response: the data at its place, its granules' bits and ERROR in the status word (R329), and one part less to
come; with the last the response is ready (R331). -/
def Response.partDone (r : Response) (q : HbmPart) (d : PartData) : Response :=
  let m := r.bytes.length - 8
  let st := leNat (r.bytes.drop m)
  let bad := d.grans <<< (q.off / 32)
  let bytes := if q.write then r.bytes
    else overlay (r.bytes.take m) q.off d.bytes ++ statusWord (d.err || decide (d.grans ≠ 0) || st.testBit 56) (st ||| bad)
  { r with bytes := bytes, parts := r.parts - 1, ready := decide (r.parts ≤ 1) }

/-- A part of a request has been performed (R331, R497). -/
def State.finishPart (s : State) (h : Half) (q : HbmPart) (d : PartData) : State :=
  s.updResponse h q.tile q.resp fun r => r.partDone q d

/-- Every part that waits at a stack completes at once: a read with ERROR and zero data, a write dropped (R517). -/
def State.failParts (s : State) (h : Half) (st : Fin 2) : State :=
  let here (e : Nat × List HbmPart) : Bool := decide (e.1 / 32 = st.val)
  let parts := ((s.hbm.get h).parts.filter here).flatMap fun e => e.2
  let s1 := s.updHbm h fun x => { x with parts := x.parts.filter fun e => !here e }
  parts.foldl (fun s q => s.finishPart h q (PartData.failed q.len)) s1

end Sys2Proof.Machine
end

