-- ==== Sys2Proof/Machine/Learn.lean ====
section
/-! DEFINITION. Learning (R225–R227), aging (R228–R230), the notification ring (R231) and the shadow checker (R233–R236). -/

namespace Sys2Proof.Machine

/-! ### Notifications (R231) -/

/-- The types of R231. -/
abbrev ntNew : Nat := 1
abbrev ntMove : Nat := 2
abbrev ntAged : Nat := 3
abbrev ntNotice : Nat := 4
abbrev ntFull : Nat := 5
abbrev ntLost : Nat := 6

/-- The LEARN unit as a requester. -/
abbrev learnReq : HbmReq := ⟨.table, srcLearn, false⟩

/-- Records of the learn ring (R232). -/
def State.noteSize (s : State) (h : Half) : Nat :=
  let n := s.rfld (bTable h 5) R.learn_LEARN_NOTE_CTL 16 5
  2 ^ (if n < 8 then 8 else if 20 < n then 20 else n)

def State.noteHead (s : State) (h : Half) : Nat := s.rfld (bTable h 5) R.learn_LEARN_NOTE_CTL 24 20
def State.noteTail (s : State) (h : Half) : Nat := s.rfld (bTable h 5) R.learn_LEARN_NOTE_CTL 44 20

/-- What a notification names: its ports and index, free values where the spec gives none (R231). -/
structure Note where
  type : Nat
  tid : Nat
  key : Nat
  old : Option Nat
  new : Option Nat
  index : Option Nat
  deriving DecidableEq, Repr

/-- The 32 bytes of a notification (R231); `fill` stands where a field has no stated value. -/
def Note.bytes (n : Note) (dts fill : Nat) : List Byte :=
  leBytes 8 (n.type <<< 56 ||| (n.tid % 256) <<< 48 ||| dts % 2 ^ 48) ++
    leBytes 8 ((n.old.getD fill % 256) <<< 56 ||| (n.new.getD (fill / 256) % 256) <<< 48 ||| n.index.getD (fill / 65536) % 2 ^ 32) ++
    beBytes 16 n.key

/-- The address of the ring's record at HEAD (R231). -/
def State.noteAddr (s : State) (h : Half) : Nat := s.rfld (bTable h 5) R.learn_LEARN_NOTE_BASE 5 43 <<< 5 + 32 * s.noteHead h

/-- The ring of notifications is full (R231). -/
def State.noteFull (s : State) (h : Half) : Bool := decide ((s.noteHead h + 1) % s.noteSize h = s.noteTail h % s.noteSize h)

/-- A notification is written into the ring, or dropped when it is full; HEAD advances once the controller has accepted it, and the ring's
service task is signalled when it was empty (R231, R263, R504). -/
def State.notePut (s : State) (h : Half) (bs : List Byte) : State :=
  let b := bTable h 5
  if s.noteFull h then s.bump b R.learn_NOTE_DROP
  else
    match s.hbmWrite h learnReq (s.noteAddr h) bs with
    | (s1, false) => s1
    | (s1, true) =>
      let s2 := s1.setRfld b R.learn_LEARN_NOTE_CTL 24 20 ((s.noteHead h + 1) % s.noteSize h)
      if s.noteHead h = s.noteTail h % s.noteSize h then s2.svcEvent h (s2.reg b R.learn_LEARN_NOTE_EVENT) else s2

/-- The controller would let the next notification wait (R502). -/
def State.noteHeld (s : State) (h : Half) : Bool := !s.noteFull h && s.hbmWriteWaits h learnReq (s.noteAddr h) 32

/-- A notification is formed, and waits while its controller or an earlier notification does (R231, R502). -/
def State.learnNote (s : State) (h : Half) (n : Note) : State :=
  let bs := n.bytes (s.dts h).toNat (s.free 64).toNat
  if !(s.tab.get h).noteWait.isEmpty || s.noteHeld h then s.used.updTab h fun t => { t with noteWait := t.noteWait ++ [bs] }
  else s.used.notePut h bs

/-- The oldest waiting notification is written once its controller takes it (R502). -/
def State.noteTick (s : State) (h : Half) : State :=
  match (s.tab.get h).noteWait with
  | [] => s
  | bs :: r => if s.noteHeld h then s else (s.updTab h fun t => { t with noteWait := r }).notePut h bs

/-- A write to SIZE_LOG2 sets HEAD and TAIL to zero (R232). -/
def State.noteSizeWrite (s : State) (h : Half) : State :=
  (s.setRfld (bTable h 5) R.learn_LEARN_NOTE_CTL 24 20 0).setRfld (bTable h 5) R.learn_LEARN_NOTE_CTL 44 20 0

/-! ### Learning (R225–R227) -/

def State.learnTid (s : State) (h : Half) : Nat := s.rfld (bTable h 5) R.learn_LEARN_CFG 24 8

/-- What a learn check finds of a key (R226). -/
inductive LearnFound where
  | same (i : Nat) (e : ExEntry)
  | moved (i : Nat) (e : ExEntry)
  | skip
  | absent
  deriving DecidableEq, Repr

/-- The check of a key in EXACT for a port (R226). -/
def State.learnCheck (s : State) (h : Half) (tid key port : Nat) : LearnFound :=
  let found := (s.tab.get h).exFind tid key
  if found.any fun e => decide (e.2.vstate ≠ vsStable) || !e.2.learned then .skip
  else
    match found with
    | (i, e) :: _ => if e.result.toNat % 256 = port then .same i e else .moved i e
    | [] => .absent

/-- AGE refreshed and HIT set by learning (R226). -/
def State.learnRefresh (s : State) (h : Half) (i : Nat) (e : ExEntry) : State :=
  s.setEx h i { e with age := s.ageNow h, hit := true, at0 := s.ticks, noticed := false }

/-- Writes the LEARN unit may have queued (R227). -/
abbrev learnQueueMax : Nat := 4096

/-- A new or moved entry is queued, unless it is queued already or the queue is full (R227). -/
def State.queueLearn (s : State) (h : Half) (w : LearnWrite) : State :=
  let q := (s.tab.get h).learnQueue
  if q.contains w then s
  else if learnQueueMax ≤ q.length then s.bump (bTable h 5) R.learn_LEARN_DROP
  else s.updTab h fun t => { t with learnQueue := t.learnQueue ++ [w] }

/-- A candidate slot of a key is withheld, and its lookup waits (R233, R236). -/
def State.learnHeld (s : State) (h : Half) (tid key : Nat) : Bool := (exCands tid key).any fun i => (s.tab.get h).held tgExact i

/-- The LEARN unit examines the next frame (R226). -/
def doLearnExamine (h : Half) (s : State) : State :=
  match (s.tab.get h).examine with
  | [] => s
  | (bs, port) :: rest =>
    let tid := s.learnTid h
    let key := exKeyOf bs
    if s.live (.table h 5) ∧ ¬ s.learnHeld h tid key then
      let s1 := s.updTab h fun t => { t with examine := rest }
      match s.learnCheck h tid key port with
      | .same i e => s1.learnRefresh h i e
      | .moved _ _ =>
        if bit (s.reg (bTable h 5) R.learn_LEARN_CFG) 1 then s1.queueLearn h { key := key, tid := tid, port := port } else s1
      | .skip => s1.bump (bTable h 5) R.learn_LEARN_SKIP
      | .absent => s1.queueLearn h { key := key, tid := tid, port := port }
    else s

/-- The RESULT of a learned entry (R225). -/
def State.learnResult (s : State) (h : Half) (port : Nat) : DWord := setFld (s.reg (bTable h 5) R.learn_LEARN_RESULT) 0 8 port

/-- A NEW or MOVE event of one of the half's own ports is shared over Ford while sharing is on (R534). -/
def State.shareLearn (s : State) (h : Half) (w : LearnWrite) : State :=
  if bit (s.reg (bFord h) R.ford_FORD_CFG) 32 ∧ w.port < 128 ∧ w.port / 64 = h.val ∧ (s.ford.get h).linkUp then
    { s with ford := s.ford.upd (other h) fun f => { f with learnIn := f.learnIn ++ [(beBytes 16 w.key, w.tid, w.port)] } }
  else s

/-- The LEARN unit writes one queued entry, as the key is found at the write (R226, R227). -/
def doLearnWrite (h : Half) (s : State) : State :=
  match (s.tab.get h).learnQueue with
  | [] => s
  | w :: rest =>
    if s.live (.table h 5) ∧ ¬ s.learnHeld h w.tid w.key then
      let s1 := s.updTab h fun t => { t with learnQueue := rest }
      let b := bTable h 5
      match s.learnCheck h w.tid w.key w.port with
      | .same i e => s1.learnRefresh h i e
      | .skip => s1.bump b R.learn_LEARN_SKIP
      | .moved i e =>
        if bit (s.reg b R.learn_LEARN_CFG) 1 then
          (((s1.setEx h i { e with result := s1.learnResult h w.port, age := s1.ageNow h, at0 := s1.ticks, noticed := false }).bump b R.learn_LEARN_MOVE).learnNote h
            ⟨ntMove, w.tid, w.key, some (e.result.toNat % 256), some w.port, some i⟩).shareLearn h w
        else s1
      | .absent =>
        match s1.exSlot h w.tid w.key with
        | (s2, some i) =>
          let e : ExEntry :=
            { key := w.key, result := s2.learnResult h w.port, tid := w.tid, ageProf := s2.rfld b R.learn_LEARN_CFG 20 4,
              age := s2.ageNow h, vstate := vsStable, batch := 0, learned := true, hit := true, at0 := s2.ticks, noticed := false }
          (((s2.setEx h i e).bump b R.learn_LEARN_NEW).learnNote h ⟨ntNew, w.tid, w.key, none, some w.port, some i⟩).shareLearn h w
        | (s2, none) => (s2.bump b R.learn_LEARN_FULL).learnNote h ⟨ntFull, w.tid, w.key, none, some w.port, none⟩
    else s

/-- A shared learn notice arrives and is examined as a frame from its port (R534). -/
def doLearnShare (h : Half) (s : State) : State :=
  match (s.ford.get h).learnIn with
  | [] => s
  | (bs, _, port) :: rest =>
    let s1 := { s with ford := s.ford.upd h fun f => { f with learnIn := rest } }
    if s.learnEn h then s1.updTab h fun t => { t with examine := t.examine ++ [(bs, port)] } else s1

/-- LEARN_EXAMINE (R226). -/
def execLearnExamine (h : Half) (s : State) : Out := .next (doLearnExamine h s)

/-- LEARN_WRITE (R227). -/
def execLearnWrite (h : Half) (s : State) : Out := .next (s.checked (s.withShadow (doLearnWrite h s) h))

/-- LEARN_SHARE_NOTICE (R534). -/
def execLearnShareNotice (h : Half) (s : State) : Out := .next (doLearnShare h s)

/-! ### Aging (R97–R99, R228–R230) -/

/-- The threshold of an aging profile (R230). -/
def State.ageThr (s : State) (h : Half) (p : Nat) : Nat :=
  let v := s.rfld (bTable h 5) (R.learn_LEARN_AGE_THR + 8 * (p / 4)) (16 * (p % 4)) 16
  if v = 0 then 1 else if 32768 < v then 32768 else v

/-- A visit to an EXACT entry (R228). -/
def State.ageExact (s : State) (h : Half) (i : Nat) : State :=
  match tget? (s.tab.get h).exact i with
  | none => s
  | some e =>
    if e.ageProf = 0 ∨ e.vstate ≠ vsStable then s
    else
      let old := decide (s.ageThr h e.ageProf ≤ s.ageOf h e.age e.at0)
      if e.learned then
        if old then
          ((s.dropEx h i).bump (bTable h 5) R.learn_AGED).learnNote h
            ⟨ntAged, e.tid, e.key, some (e.result.toNat % 256), none, some i⟩
        else s.setEx h i { e with hit := false }
      else
        let s1 := s.setEx h i { e with hit := false, noticed := e.noticed || old }
        if old && !e.noticed then s1.learnNote h ⟨ntNotice, e.tid, e.key, none, none, some i⟩ else s1

/-- A visit to a flow record, in its slot or in the stash (R228). -/
def State.ageFlow (s : State) (h : Half) (slot : Nat) : State :=
  let visit (s : State) (f : FlowFound) (r : List Byte) : State :=
    if frValid r ∧ frProf r ≠ 0 ∧ s.ageThr h (frProf r) ≤ s.ageOf h (frAge r) (tget 0 (s.tab.get h).flowAt slot) then
      (s.flowRemove h f).bump (bTable h 5) R.learn_AGED
    else s
  if stashSlot 0 ≤ slot then
    match tget? (s.tab.get h).stash (slot - stashSlot 0) with
    | some r => visit s (.stash (slot - stashSlot 0) r) r
    | none => s
  else if slot < s.flowSlots h then
    match s.flowRead h slot with
    | (s1, some r) => visit s1 (.slot slot r) r
    | (s1, none) => s1.flowLost h slot
  else s

/-- The sweep visits an entry (R228). -/
def doAgingVisit (h : Half) (flow : Bool) (i : Nat) (s : State) : State :=
  if s.live (.table h 5) then (if flow then s.ageFlow h i else s.ageExact h i) else s

/-- AGING_VISIT (R228). -/
def execAgingVisit (h : Half) (flow : Bool) (index : Nat) (s : State) : Out := .next (s.orWait (doAgingVisit h flow index))

/-! ### Errors and the shadow (R233–R236) -/

/-- The detail that names a target and index (R556). -/
def tgDetail (t i : Nat) : Nat := (t % 16) <<< 60 ||| i % 2 ^ 32

/-- An EXACT entry is invalidated, and the batch that held it pending no longer does (R219). -/
def State.leaveBatch (s : State) (h : Half) (i : Nat) (e : ExEntry) : State :=
  (if e.vstate = vsStable then s else s.dropTouch h e.batch (.exact i)).dropEx h i

/-- A learned entry whose word is uncorrectable is invalidated, with a LOST notification (R233). -/
def State.learnedLost (s : State) (h : Half) (i : Nat) : State :=
  match tget? (s.tab.get h).exact i with
  | some e =>
    if e.learned then (s.leaveBatch h i e).learnNote h ⟨ntLost, e.tid, e.key, some (e.result.toNat % 256), none, some i⟩ else s
  | none => s

/-- A configured entry whose word is uncorrectable is withheld (R233). -/
def State.withhold (s : State) (h : Half) (t i : Nat) : State :=
  s.updTab h fun x => { x with withheld := if x.withheld.contains (t, i) then x.withheld else x.withheld ++ [(t, i)] }

/-- A withheld entry has been rewritten from its shadow (R233). -/
def doEntryRepaired (h : Half) (t i : Nat) (s : State) : State :=
  if (s.tab.get h).withheld.contains (t, i) then
    (s.fromShadow h t i).updTab h fun x => { x with withheld := x.withheld.filter (· ≠ (t, i)) }
  else s

/-- TABLE_ENTRY_REPAIR_DONE (R233). -/
def execTableEntryRepairDone (h : Half) (target : Fin 16) (index : Nat) (s : State) : Out := .next (doEntryRepaired h target.val index s)

/-- The batch slot that holds a slot of a target pending, if any. -/
def State.slotBatch (s : State) (h : Half) (t i : Nat) : Option Nat :=
  if t = tgExact then
    match tget? (s.tab.get h).exact i with
    | some e => if e.vstate = vsStable then none else some e.batch
    | none => none
  else if t = tgLpm then tget? (s.tab.get h).buckets i
  else if t = tgMeter then (if (s.meterOf h i).vstate = vsPending then some (s.meterOf h i).batch else none)
  else if tgEnt t then
    match tget? (s.entries h t) i with
    | some e => if entVs t e = vsStable then none else some (entBatch t e)
    | none => none
  else ((s.tab.get h).indexed t i).alt.map (·.2)

/-- The checker skips a slot whose batch is BUILDING, UNDOING or RETIRING (R235). -/
def State.shadowSkips (s : State) (h : Half) (t i : Nat) : Bool :=
  match s.slotBatch h t i with
  | some b =>
    let st := (s.bslot h b).state
    decide (st = .building) || decide (st = .undoing) || decide (st = .retiring)
  | none => false

/-- An EXACT slot that compares equal whatever its words say: its shadow is learned, and it holds a learned entry or none (R234, R235). -/
def State.shadowLearned (s : State) (h : Half) (t i : Nat) : Bool :=
  decide (t = tgExact) && (match tget? (s.tab.get h).shadow.exact i with | some m => m.learned | none => false) && !s.shadowDiffers h t i

/-- The checker compares a slot with its shadow; `differs` tells that stored bits of the one or the other have been upset, which no field of
the state shows, and `last` that the pass ends with it (R235, R236). -/
def doShadowVisit (h : Half) (t i : Nat) (differs last : Bool) (s : State) : State :=
  let b := bTable h 6
  if s.live (.table h 6) ∧ bit (s.reg b R.shadow_SHADOW_CFG) 0 ∧ t ≤ tgRepl then
    let s1 :=
      if (differs ∨ s.shadowDiffers h t i) ∧ ¬ s.shadowSkips h t i ∧ ¬ s.shadowLearned h t i then
        let s2 := (s.report (.table h 6) F.SHADOW_DIVERGE (tgDetail t i)).bump b R.shadow_DIVERGED
        if bit (s.reg b R.shadow_SHADOW_CFG) 1 then
          s2.updTab h fun x => { x with shadowHeld := if x.shadowHeld.contains (t, i) then x.shadowHeld else x.shadowHeld ++ [(t, i)] }
        else s2
      else s
    if last then s1.setReg b R.shadow_SHADOW_STAT (s1.dts h) else s1
  else s

/-- SHADOW_CHECK_VISIT (R235, R236). -/
def execShadowCheckVisit (h : Half) (target : Fin 16) (index : Nat) (differs last : Bool) (s : State) : Out :=
  .next (doShadowVisit h target.val index differs last s)

/-- A divergent slot has been rewritten from its shadow (R236). -/
def doShadowRepaired (h : Half) (t i : Nat) (s : State) : State :=
  if (s.tab.get h).shadowHeld.contains (t, i) then
    ((s.fromShadow h t i).updTab h fun x => { x with shadowHeld := x.shadowHeld.filter (· ≠ (t, i)) }).bump (bTable h 6) R.shadow_REPAIRED
  else s

/-- SHADOW_REPAIR_DONE (R236). -/
def execShadowRepairDone (h : Half) (target : Fin 16) (index : Nat) (s : State) : Out := .next (doShadowRepaired h target.val index s)

end Sys2Proof.Machine
end

