-- ==== Sys2Proof/Machine/ThreadCtl.lean ====
section
/-! DEFINITION. Thread control (R367, R377, R378, R380): what a debugger's writes of THREAD_CTL and EV_POST do, and the counts of
a LOCKS unit's forced release (R391). -/

namespace Sys2Proof.Machine

/-! ### Halts (R378) -/

/-- The thread is halted: its task is HALTED (R241, R378). -/
def State.haltNow (s : State) (th : ThreadRef) : State :=
  let s1 := s.updThread th fun x => { x with halted := true, halting := false }
  match th with
  | .pk h t _ =>
    match (s.thread th).task with
    | some k => s1.updTask h t k fun x => { x with state := if x.state = .running ∨ x.state = .waiting then .halted else x.state }
    | none => s1
  | .cc _ _ => s1

/-- A halted thread resumes; its task is RUNNING again, or WAITING where it waits in TWAIT (R241, R378). -/
def State.resumeNow (s : State) (th : ThreadRef) : State :=
  let s1 := s.updThread th fun x => { x with halted := false }
  match th with
  | .pk h t _ =>
    match (s.thread th).task with
    | some k =>
      s1.updTask h t k fun x =>
        { x with state := if x.state = .halted then (match (s.thread th).phase with
            | .twait _ => .waiting
            | _ => .running) else x.state }
    | none => s1
  | .cc _ _ => s1

/-- The debug scope of HALT and RESUME is unlocked: scope 0 for a packet thread, scope 3 for a control-core thread (R628). -/
def State.debugOpen (s : State) (th : ThreadRef) : Bool := s.pv.unlocked.testBit (if isControl th then 3 else 0)

/-- A HALT is asked for: the thread stops once its instructions in flight are done (R378). -/
def doThreadHalt (th : ThreadRef) (s : State) : State :=
  if s.debugOpen th then s.updThread th fun x => if x.halted then x else { x with halting := true } else s

/-- A HALT completes: the thread reads STATE 4 (R378). -/
def doHaltComplete (th : ThreadRef) (s : State) : State := if (s.thread th).halting then s.haltNow th else s

/-- A RESUME of a halted thread (R378). -/
def doThreadResume (th : ThreadRef) (s : State) : State := if (s.thread th).halted ∧ s.debugOpen th then s.resumeNow th else s

/-- A POST raises interrupt 0 (R370, R377). -/
def doThreadPost (th : ThreadRef) (s : State) : State := s.raiseInt th 0

/-- A KILL discards the thread's task and ends a halt; a FREE thread, or one that serves no task, is left as it is (R380). -/
def doThreadKill (th : ThreadRef) (s : State) : State :=
  match th with
  | .pk h t _ =>
    match (s.thread th).task with
    | some k => (s.discardTask h t k drKilled).updThread th fun x => { x with halted := false, halting := false }
    | none => s
  | .cc _ _ => s

/-- EV_POST sets external event bits (R367). -/
def doEvPost (th : ThreadRef) (m : Word) (s : State) : State := s.setEv th (m &&& 0xFFFFFF00)

/-- A write of THREAD_CTL acts through its command bits (R377): HALT first, and RESUME ends no halt still in progress. -/
def doThreadCtl (th : ThreadRef) (v : DWord) (s : State) : State :=
  let s1 := if bit v 0 then doThreadHalt th s else s
  let s2 := if bit v 1 then doThreadResume th s1 else s1
  let s3 := if bit v 2 then doThreadKill th s2 else s2
  if bit v 3 then doThreadPost th s3 else s3

end Sys2Proof.Machine
end

