-- ==== Sys2Proof/Machine/UnitEnd.lean ====
section
/-! DEFINITION. What the entry of a unit into RESET, OFF or FENCED ends (R68 and the chapters of each kind), and which register
fields it clears (R57). -/

namespace Sys2Proof.Machine

/-! ### Registers (R57) -/

/-- The bits of a register whose fields keep their value: RW, ST and RWL. -/
def keptBits (fs : List FieldRow) : Nat :=
  fs.foldl (fun m f => if f.ty = .rw ∨ f.ty = .st ∨ f.ty = .rwl then m ||| (2 ^ f.len - 1) <<< f.lsb else m) 0

/-- Registers of hardware state that outlives the entry: OLDEST_LIVE (R272), the bank, row and repair maps (R163, R465, R514). BANK_STAT
stays until the HALF enters RESET (R163), which `halfReset` tells. -/
def outlives (k : BlkKind) (off : Nat) (halfReset : Bool) : Bool :=
  match k with
  | .half => decide (off = R.half_OLDEST_LIVE)
  | .assoc => decide (off = R.assoc_BANK_STAT) && !halfReset
  | .hbmc => decide (off = R.hbmc_REPAIR_STAT)
  | .buffer => decide (off = R.buffer_BANK_FENCED_LO) || decide (off = R.buffer_BANK_FENCED_HI)
  | .hub => decide (0x100 ≤ off)
  | _ => false

/-- A counter: one RO field of 64 bits with reset 0. LAST_PASS is the one such register that counts nothing. -/
def isCounter (k : BlkKind) (off : Nat) (fs : List FieldRow) : Bool :=
  decide (fs = [⟨0, 64, .ro, (.val 0)⟩]) && !(decide (k = .tile) && decide (off = R.tile_LAST_PASS))

/-- A register's value as the entry of its unit leaves it, none when that is the reset value: `old` stood at the start of the entry
and `v` stands once the unit's work has ended. A counter clears only as its unit enters RESET, the rule of each chapter, and what the
end of the work itself has counted (R68) stays counted. -/
def clearedReg (b : Blk) (off : Nat) (old v : DWord) (dest : UState) (halfReset : Bool) : Option DWord :=
  match findRow (blkRows b.kind off) off with
  | none => some v
  | some (r, _) =>
    if outlives b.kind off halfReset then some v
    else if isCounter b.kind off r.fields then
      if dest ≠ .reset then some v else if v = old then none else some (v - old)
    else
      let keep : DWord := BitVec.ofNat 64 (keptBits r.fields)
      let rst := regRst b.kind off
      let w := (v &&& keep) ||| (rst &&& ~~~keep)
      if w = rst then none else some w

/-- The units enter RESET as part of their half's entry. -/
def halfResets (us : List UnitId) (dest : UState) (u : UnitId) : Bool :=
  decide (dest = .reset) && match unitHalf u with
    | some h => us.contains (.half h)
    | none => false

/-- The fields of type RO, W1C and WO of these units take their reset values (R57); `s0` is the state at the start of the entry. -/
def State.clearRegs (s s0 : State) (us : List UnitId) (dest : UState) : State :=
  { s with csr := s.csr.filterMap fun e =>
      match blkAt e.1 with
      | none => some e
      | some (u, b) =>
        if us.contains u then (clearedReg b (e.1 - b.base) (s0.reg b (e.1 - b.base)) e.2 dest (halfResets us dest u)).map fun v => (e.1, v)
        else some e }

/-! ### The end of work, kind by kind -/

/-- The threads of a core position. -/
def coreThreads (c k : Fin 4) : List (Fin 128) := (List.range 8).map fun i => Fin.ofNat 128 (32 * c.val + 8 * k.val + i)

/-- SPARE_STAT as the entry of its tile leaves it: rotation stops, and NEXT_POS takes its reset value (R57, R589). -/
def SpareInfo.ended (x : SpareInfo) : SpareInfo :=
  { x with state := if x.state = .exhausted ∨ x.state = .reduced then x.state else .stopped, nextPos := 0 }

/-- A thread that serves no task any more: FREE and not halted (R68, R378), with its registers cleared only by RESET (R364). -/
def Thread.ended (x : Thread) (dest : UState) : Thread :=
  if dest = .reset then Thread.init else { x with phase := .free, task := none, halted := false, halting := false, staging := [] }

/-- The tasks on a core position's threads are discarded (R68, R255), and its threads are FREE and not halted (R378); RESET clears
their registers as well (R364). -/
def State.endCore (s : State) (h : Half) (t : TileIx) (c k : Fin 4) (dest : UState) (reason : Nat) : State :=
  (coreThreads c k).foldl (fun s n =>
    let th := ThreadRef.pk h t n
    let s1 := match (s.thread th).task with
      | some slot => s.discardTask h t slot reason
      | none => s
    s1.updThread th fun x => x.ended dest) s

/-- The cluster that a response's operation runs in. -/
def ReqUnit.cluster? : ReqUnit → Option Nat
  | .coproc _ c _ => some c
  | .expansion c _ _ => some c
  | _ => none

/-- The coprocessor operations in flight of a cluster are cancelled with their results discarded, and its instances are unlocked
(R68, R404). -/
def State.endCluster (s : State) (h : Half) (t : TileIx) (c : Fin 4) : State :=
  let x := s.tile h t
  let gone := x.responses.filter fun r => decide (r.unit.cluster? = some c.val)
  let cans := x.cancels.filter fun e => decide (e.cluster = c.val)
  let s1 := s.updTile h t fun x =>
    { x with responses := x.responses.filter (fun r => decide (r.unit.cluster? ≠ some c.val)),
             cancels := x.cancels.filter fun e => decide (e.cluster ≠ c.val) }
  let tags := gone.filterMap fun r => match r.unit with
    | .expansion _ _ tag => some tag
    | _ => none
  let s2 := { s1 with exp := s1.exp.upd h fun e =>
    { e with waiting := e.waiting.filter (fun m => m.frame || !tags.contains m.tag), reqs := e.reqs.filter fun q => !tags.contains q.tag } }
  let down (s : State) (slot dc : Nat) : State := if (s.task h t slot).complete then s.settleSlot h t slot else s.dcDown h t slot dc
  let s3 := gone.foldl (fun s r => down s r.slot r.dc) s2
  let s4 := cans.foldl (fun s e => down s e.slot e.dc) s3
  ((s4.tile h t).insts.filter fun e => decide (e.1 / 16 = c.val)).foldl (fun s e =>
    let s1 := match e.2.holder with
      | some k => s.updTile h t fun x => { x with lostInsts := if e.2.leaving then x.lostInsts else x.lostInsts ++ [(k, e.1)] }
      | none => s
    s1.releaseInst h t e.1) s4

/-- Every task of a tile is discarded; memory, program banks and channels are kept (R68). -/
def State.endTile (s : State) (h : Half) (t : TileIx) (dest : UState) : State :=
  let s1 := (s.liveTasks h t).foldl (fun s e => s.discardTask h t e.1 drUnitReset) s
  s1.updTile h t fun x =>
    { x with
      threads := if dest = .reset then [] else x.threads.map fun e => (e.1, e.2.ended dest)
      deadFor := []
      spare := x.spare.ended }

/-- The frame in flight in each direction is lost, and queued frames are held (R68). -/
def State.endPort (s : State) (p : PortIx) : State :=
  let h := portHalf p
  let lp := portLocal p
  let s1 := if s.linkUp p then s.dropLink p else s.abortRx p
  s1.updIng h fun i =>
    { i with pfcXoff := tdel i.pfcXoff lp, pfcXon := tdel i.pfcXon lp, pfcSent := tdel i.pfcSent lp, pfcRx := tdel i.pfcRx lp, txts := tdel i.txts lp,
             laneFails := tdel i.laneFails lp,
             pfcSince := i.pfcSince.filter (fun e => decide (e.1 / 8 ≠ lp)), pauses := i.pauses.filter fun e => decide (e.1 / 8 ≠ lp) }

/-- The packet buffer is emptied: every frame it holds is lost; fenced banks and repaired rows stay (R465). -/
def BufferState.emptied (b : BufferState) : BufferState :=
  { BufferState.reset with nextChain := b.nextChain, fencedBanks := b.fencedBanks, rowRepairs := b.rowRepairs }

/-- The BUFFER unit ends its work: no frame of the half keeps its cells (the model's choice: the spec does not say what becomes of
them). -/
def State.endBuffer (s : State) (h : Half) : State :=
  let s1 := s.updBuf h BufferState.emptied
  { s1 with
    ing := s1.ing.upd h fun i => { i with done := [], inject := [], loops := [], cur := none, level := [], arriving := [] }
    sched := s1.sched.upd h fun x => { x with sel := [] }
    conf := s1.conf.upd h fun c => { c with crossing := [], registered := [] }
    ford := s1.ford.upd h fun f => { f with waiting := [], flight := [] }
    tiles := s1.tiles.upd h fun ts => ts.map fun e =>
      (e.1, { e.2 with tasks := e.2.tasks.map fun k => (k.1, { k.2 with chain := none, output := none }) }) }

/-- The SCHED unit ends its work: the frames it has selected are lost, and its tags, buckets and counts start again. -/
def State.endSched (s : State) (h : Half) : State :=
  ((List.range 68).foldl (fun s lp => s.loseSelected h lp) s).updSched h fun _ => SchedState.reset

/-- Each queued write of a stack reaches the array or not: the spec does not say which. -/
def State.dropQueued (s : State) (h : Half) (st : Fin 2) : State :=
  (List.range 32).foldl (fun s i =>
    let p := 32 * st.val + i
    (tget [] (s.hbm.get h).wq p).foldl (fun s e =>
      let keep := (s.free 1).getLsbD 0
      s.used.updHbm h fun x => if keep then x.drainGran p e.gran else x.setWq p ((tget [] x.wq p).filter fun f => f.gran ≠ e.gran)) s) s

/-- The HBM controller ends its work: waiting parts complete with ERROR (R517), its banks close, a row repair under way ends without its
spare, and TRAINED clears (R675). -/
def State.endHbmc (s : State) (h : Half) (st : Fin 2) : State :=
  let mine (k : Nat) : Bool := decide (k % 64 / 32 = st.val)
  ((s.failParts h st).dropQueued h st).updHbm h fun x =>
    { x with
      openRow := x.openRow.filter (fun e => !mine e.1), owed := x.owed.filter (fun e => !mine e.1), down := x.down.filter (fun p => !mine p),
      draining := x.draining.filter (fun p => !mine p), repairing := x.repairing.filter (fun k => !mine k.p)
      linkBad := x.linkBad.filter (fun n => decide (n ≠ st.val)), linkFaults := x.linkFaults.filter (fun e => decide (e.1 ≠ st.val)) }

/-- The FORD unit ends its work: the peer is lost and the link is down, the follower runs free (R75), and BUNDLE_STAT takes its reset
values (R57); Privet keeps the spare-lane map and the fenced bundles (R530). -/
def State.endFord (s : State) (h : Half) : State :=
  let s1 := if (s.ford.get h).peerUp then s.losePeer h else s
  s1.runFree.updFord h fun f => { FordState.reset with lost := f.lost || f.linkUp }

/-- RESET empties the stash of FLOW: its records are absent afterwards, and FLOW_STASHED reads zero (R237, R582). -/
def TableState.dropStash (t : TableState) (dest : UState) : TableState :=
  if dest = .reset then { t with stash := [], flowAt := t.flowAt.filter fun e => decide (e.1 < stashSlot 0) } else t

/-- A TABLE unit ends its work: VERSION as R221, FLOW its stash, COUNTER its read, LEARN its queues; tables keep their contents. -/
def State.endTable (s : State) (h : Half) (n : Fin 8) (dest : UState) : State :=
  if n.val = 7 then s.versionEnds h
  else if n.val = 1 then s.updTab h fun t => t.dropStash dest
  else if n.val = 3 then s.updTab h fun t => { t with reading := none }
  else if n.val = 5 then s.updTab h fun t => { t with examine := [], learnQueue := [], noteWait := [] }
  else s

/-- The tasks, operations and frames in flight of a half are ended with their counts, as for each of its units (R68). -/
def State.endInFlight (s : State) (h : Half) (dest : UState) : State :=
  let s1 := (s.tiles.get h).foldl (fun s e =>
    let t : TileIx := Fin.ofNat 16 e.1
    (List.finRange 4).foldl (fun s c => s.endCluster h t c) (s.endTile h t dest)) s
  let s2 := (s1.ing.get h).arriving.foldl (fun s e => s.abortRx (portOf h e.1)) s1
  (s2.sched.get h).sel.foldl (fun s e => s.loseSelected h e.1) s2

/-- The control cores of a half stop: RESET clears them, and else their threads are FREE and keep their registers (R364, R378). -/
def CcState.ended (c : CcState) (dest : UState) : CcState :=
  if dest = .reset then CcState.reset else { c with threads := c.threads.map fun e => (e.1, e.2.ended dest), xl := [], mirror := [] }

/-- A half ends all its work at once: every frame, task, request, lock and message of the half is gone; memories, tables, fenced and
repaired elements, the hub and the clocks stay (R57, R68, R582). -/
def State.endHalf (s : State) (h : Half) (dest : UState) : State :=
  let s1 := (((s.endInFlight h dest).dropHalfLocks h).versionEnds h).endFord h
  let s2 := ((s1.dropQueued h 0).dropQueued h 1).endBuffer h
  let locks0 := if h = 0 then s2.locks.h0.filter (fun e => decide (4096 ≤ e.1)) else s2.locks.h0
  { s2 with
    ing := s2.ing.upd h fun i => { IngressState.reset with seqs := i.seqs, nextBorn := i.nextBorn, bank0 := i.bank0, bank1 := i.bank1, imgLast := i.imgLast }
    conf := s2.conf.upd h fun _ => ConfState.reset
    tiles := s2.tiles.upd h fun ts => ts.map fun e =>
      (e.1, { e.2 with tasks := [], responses := [], cancels := [], insts := [], lostInsts := [], scans := [], scanTouched := false })
    cc := s2.cc.upd h fun c => c.ended dest
    locks := ⟨locks0, if h = 1 then [] else s2.locks.h1⟩
    hbm := s2.hbm.upd h fun x => { x with parts := [], openRow := [], owed := [], down := [], draining := [], hot := [], linkFaults := [] }
    sched := s2.sched.upd h fun _ => SchedState.reset
    exp := s2.exp.upd h fun e => { ExpState.reset with dead := e.dead }
    tab := s2.tab.upd h fun t => { t.dropStash dest with reading := none, examine := [], learnQueue := [] }
    time := s2.time.upd h fun t => { t with valid := false, slewing := false, skewFaults := 0, offset := 0 }
    pv := { s2.pv with stretch := s2.pv.stretch.upd h fun _ => 0 } }

/-- What one unit's entry ends. A unit whose work ends with its parent's has nothing left to end. -/
def State.endUnit (s : State) (u : UnitId) (dest : UState) : State :=
  match u with
  | .half h => s.endHalf h dest
  | .core h t c k => s.endCore h t c k dest drUnitReset
  | .cluster h t c => s.endCluster h t c
  | .tile h t => s.endTile h t dest
  | .port p => s.endPort p
  | .buffer h => s.endBuffer h
  | .sched h => s.endSched h
  | .hbmc h st => s.endHbmc h st
  | .ford h => s.endFord h
  | .table h n => s.endTable h n dest
  | _ => s

end Sys2Proof.Machine
end

