-- ==== Sys2Proof/Machine/Trans.lean ====
section
/-! DEFINITION. Units and their states (R54–R61): which agent may ask, entries into RESET, OFF and FENCED and their completion,
entry into TEST and ACTIVE, requests, and the state of the device. -/

namespace Sys2Proof.Machine

/-! ### Agents (R33, R58, R627) -/

/-- A control-core thread runs in user mode (R358). -/
def State.inUser (s : State) (h : Half) (n : Fin 32) : Bool := (tget 0 (s.thread (.cc h n)).k 0).getLsbD 0

/-- The agent has access to a unit of the CSR space: a PCIe function only with its CSR_EN grant and the endpoint out of reset; the
test access port has none, and a unit that is not present is no unit of the space. -/
def State.agentReach (s : State) (a : Agent) (u : UnitId) : Bool :=
  unitPresent u && !s.pv.porLow && !s.pv.sysLow &&
  match a with
  | .privet => true
  | .control _ _ => true
  | .pcie f => bit (s.reg (bPrivet 8) (R.pcie_GRANT_PF + 8 * f.val)) 0 && !s.pv.perstLow && !s.pv.ioLost.contains 6
  | .jtag => false

/-- The agent is one that R58 accepts requests from, at a unit of this kind. -/
def State.agentOk (s : State) (a : Agent) (u : UnitId) : Bool :=
  match a, u with
  | .privet, _ => true
  | _, .hub _ => false
  | _, .privet _ => false
  | .control h n, _ => !s.inUser h n
  | .pcie _, _ => s.agentReach a u
  | .jtag, _ => false

/-- CAUSE of a request by an agent (R45). -/
def agentCause (a : Agent) : BitVec 8 := if a = .privet then 0x02 else 0x01

/-! ### Entries -/

/-- A unit is entering another state (R56). -/
def State.entering (s : State) (u : UnitId) : Bool := (s.unit u).entering.isSome

/-- FORCE acts in TEST, and in START and RECOVERY (R52). -/
def State.forceActs (s : State) (st : UState) : Bool := decide (st = .test) || decide (s.dev.devState ≠ .run)

/-- FORCE clears at a unit where it no longer acts (R52). -/
def State.settleForce (s : State) (u : UnitId) (st : UState) : State :=
  if s.forceActs st then s else s.setRfld (ownBlk u) R.ucb_INJECT 0 32 0

/-- A unit under a commit leaves it: it counts as applied for its ancestors (R66). -/
def CommitRec.drop (c : CommitRec) (us : List UnitId) : CommitRec :=
  { c with todo := c.todo.filter (fun u => !us.contains u), waiting := c.waiting.filter (fun u => !us.contains u),
           sides := c.sides.filter fun e => !us.contains e.1 }

/-- Commits with nothing left to reach or apply are over. -/
def State.settleCommits (s : State) : State := { s with commits := s.commits.filter fun c => !(c.todo.isEmpty && c.waiting.isEmpty) }

/-- The work of each unit ends, parents before children; a half's entry has ended its descendants' work with its own. -/
def State.endWork (s : State) (us : List UnitId) (dest : UState) : State :=
  us.foldl (fun s u =>
    let done : Bool := match unitHalf u with
      | some h => us.contains (.half h) && decide (u ≠ .half h)
      | none => false
    if done then s else s.endUnit u dest) s

/-- Entry of a unit into RESET, OFF or FENCED begins: its subtree's work ends, fields clear, and the new states are read once the
entry is complete (R55–R57, R66–R68). -/
def State.beginEntry (s : State) (root : UnitId) (dest : UState) (cause : BitVec 8) : State :=
  let us := (subtree root).filter fun u => unitPresent u && (decide ((s.unit u).state ≠ dest) || s.entering u)
  let s1 := (s.endWork us dest).clearRegs s us dest
  let s2 := us.foldl (fun s u =>
    let s3 := s.updUnit u fun d =>
      { d with entering := some (dest, if u = root then cause else 0x04), armed := if dest = .fenced then d.armed else false,
               gen := 0, stamp := 0, invPend := false, invAt := none }
    s3.settleForce u dest) s1
  if dest = .fenced then s2
  else ({ s2 with commits := s2.commits.map fun (c : CommitRec) => c.drop ((subtree root).filter unitPresent) }).settleCommits

/-- A unit takes a state at once; on leaving RESET its fault count clears (R48). -/
def State.setUState (s : State) (u : UnitId) (st : UState) (cause : BitVec 8) : State :=
  s.updUnit u fun d =>
    { d with state := st, cause := cause, entering := none, power := if st = .off then 3 else 0,
             faultCount := if d.state = .reset ∧ st ≠ .reset then 0 else d.faultCount }

/-- A half leaves RESET: it takes the other half's DTS where that one runs, never a lower one than its own (R71), and is valid from
then on (R76, R674). -/
def State.takeDts (s : State) (h : Half) : State :=
  let o := s.time.get (other h)
  let up := decide (s.ustate (.half (other h)) = .active) && o.valid
  s.updTime h fun t =>
    if t.valid then t
    else if up then { t with valid := true, dts := if t.dts.toNat < o.dts.toNat then o.dts else t.dts, ptpSec := o.ptpSec, ptpNs := o.ptpNs, ptpFrac := o.ptpFrac }
    else { t with valid := true }

/-- A tile whose failed cores are known reads its lost position, and itself once it has lost too many, as FENCED (R573). -/
def State.fenceLost (s : State) (h : Half) (t : TileIx) : State :=
  let x := (s.tile h t).spare
  let s1 := match x.lost with
    | some p => s.setUState (coreAt h t p) .fenced 0x03
    | none => s
  if x.tileLost then s1.setUState (.tile h t) .fenced 0x03 else s1

/-- Privet reapplies the half's entries of sections 2–7: the bank map, the failed cores and the bundle map (R57, R163, R530, R573); fenced
banks and repaired and retired rows have stayed with the hardware. -/
def State.reapplyMaps (s : State) (h : Half) : State :=
  let s1 := (s.tiles.get h).foldl (fun s e => s.fenceLost h (Fin.ofNat 16 e.1)) s
  (s1.setReg (bAssoc h) R.assoc_BANK_STAT (s.pv.assocMap.get h)).updFord h fun f =>
    { f with
      fenced := s.pv.fordFenced.get h
      sparesUsed := (List.range 16).filterMap fun b =>
        let n := ((s.pv.fordLanes.get h).filter fun e => decide (e.1 / 2 = b)).length
        if n = 0 then none else some (b, n) }

/-- What a unit does as it leaves RESET (R57, R76). -/
def State.leaveReset (s : State) (u : UnitId) : State :=
  match u with
  | .half h => (s.reapplyMaps h).takeDts h
  | _ => s

/-- The control cores of a half begin in supervisor mode at CC_ENTRY (R621, R622). -/
def State.startCores (s : State) (h : Half) : State :=
  let e := s.rfld (bCc h) R.cc_CC_ENTRY 0 48
  { s with cc := s.cc.upd h fun c =>
      { c with xl := [], threads := (List.range 32).map fun i => (i, { Thread.init with phase := .issuing, pc := BitVec.ofNat 48 e }) } }

/-- What a unit does on reaching ACTIVE (R102, R222, R571, R621). -/
def State.onActive (s : State) (u : UnitId) : State :=
  match u with
  | .port p => s.checkPortCfg p
  | .half h =>
    let s1 := s.updHub h fun x => { x with squelched := false }
    if bit (s1.reg (bCc h) R.cc_CC_CTL) 0 && (s1.cc.get h).threads.isEmpty then s1.startCores h else s1
  | .ford _ => if s.live (.ford 0) ∧ s.live (.ford 1) then (s.holdBasis 0 (s.published 0)).holdBasis 1 (s.published 1) else s
  | .tile h t =>
    if bit (s.reg (bTile h t) R.tile_SPARE_CFG) 0 then
      s.updTile h t fun x => { x with spare := { x.spare with state := if x.spare.state = .stopped then .idle else x.spare.state } }
    else s
  | _ => s

/-- What a unit does as it leaves ACTIVE for TEST: a port goes down and the frame that arrives is lost (R108, R461). -/
def State.leaveActive (s : State) (u : UnitId) : State :=
  match u with
  | .port p => if s.linkUp p then s.dropLink p else s.abortRx p
  | _ => s

/-- A unit goes to TEST or ACTIVE (R54). -/
def State.enterUp (s : State) (u : UnitId) (st : UState) (cause : BitVec 8) : State :=
  let s1 := if s.ustate u = .reset then s.leaveReset u else if s.live u ∧ st = .test then s.leaveActive u else s
  let s2 := (s1.setUState u st cause).settleForce u st
  if st = .active then s2.onActive u else s2

/-- Entry into TEST takes each ACTIVE descendant along (R55). -/
def State.enterTest (s : State) (u : UnitId) (cause : BitVec 8) : State :=
  let kids := (subtree u).filter fun v => decide (v ≠ u) && unitPresent v && s.live v
  kids.foldl (fun s v => s.enterUp v .test 0x04) (s.enterUp u .test cause)

/-- ACTIVE_TREE: the unit and its descendants in RESET or TEST go to ACTIVE, parents before children (R45, R54). -/
def State.activeTree (s : State) (u : UnitId) (cause : BitVec 8) : State :=
  (subtree u).foldl (fun s v =>
    let st := s.ustate v
    let parentUp : Bool := match unitParent v with
      | some p => s.live p
      | none => true
    if unitPresent v && !s.entering v && (decide (st = .reset) || decide (st = .test)) && parentUp then s.enterUp v .active cause else s) s

/-- PCIE_PERST_N holds the unit in RESET (R655). -/
def State.perstHolds (s : State) (u : UnitId) : Bool := decide (u = .privet 8) && s.pv.perstLow

/-- The entry of a subtree is complete: every unit of it that was entering reads its new state (R56); PRIVET units that a hub or
Privet itself has restarted (CAUSE 0x08 or 0x03, and 0x02 for unit 0, which software resets to restart it, R606) go on to ACTIVE (R578, R579),
but for unit 8 while PCIE_PERST_N holds it (R655). -/
def State.completeEntry (s : State) (u : UnitId) : State :=
  (subtree u).foldl (fun s v =>
    match (s.unit v).entering with
    | none => s
    | some (dest, cause) =>
      let s1 := s.setUState v dest cause
      match v with
      | .privet n =>
        let again := decide (cause = 0x08) || decide (cause = 0x03) || decide (cause = 0x02) && decide (n.val = 0)
        if dest = .reset ∧ again ∧ (s.hubs.get 0).privet ≠ .fenced ∧ ¬ s.perstHolds v then s1.enterUp v .active cause else s1
      | _ => s1) s

/-! ### Requests (R54, R58) -/

/-- The unit stands under a lock of RESET-like states by R645 or R662: it may not leave FENCED. -/
def State.heldFenced (s : State) (u : UnitId) : Bool :=
  (unitHalf u).isSome && (bit (s.reg bDevice R.device_THERM_CTL) 9 || s.pv.extest || !s.pv.refclk || !s.pv.rootLock)

/-- A unit may be taken to OFF (R54). -/
def mayBeOff : UnitId → Bool
  | .port _ => true
  | .tile _ _ => true
  | .cluster _ _ _ => true
  | .core _ _ _ _ => true
  | .spare _ _ => true
  | .hbmc _ _ => true
  | _ => false

/-- A request at a unit is taken up: the agent is one of R58, no entry covers the unit, and it is no request of the DEVICE, of the
GROUP, of a unit that is not present or of one that a pin holds in RESET. -/
def State.requestOpen (s : State) (a : Agent) (u : UnitId) : Bool :=
  s.agentOk a u && unitPresent u && decide (u ≠ .device) && decide (u ≠ .group) && !s.perstHolds u && !(u :: ancestors u).any s.entering

/-- The state of the nearest enclosing unit. -/
def State.parentState (s : State) (u : UnitId) : UState :=
  match unitParent u with
  | some p => s.ustate p
  | none => .active

/-- The unit follows an ancestor's transition and its parent has not left that state yet (R55). -/
def State.boundByParent (s : State) (u : UnitId) : Bool := decide ((s.unit u).cause = 0x04) && decide (s.parentState u = s.ustate u)

/-- Request RESET (R54). -/
def State.reqReset (s : State) (a : Agent) (u : UnitId) : State :=
  let st := s.ustate u
  if s.requestOpen a u ∧ ¬ s.boundByParent u ∧ st ≠ .reset ∧ (st = .off → s.parentState u ≠ .off) ∧ (st = .fenced → ¬ s.heldFenced u) then
    s.beginEntry u .reset (agentCause a)
  else s

/-- Request TEST (R54). -/
def State.reqTest (s : State) (a : Agent) (u : UnitId) : State :=
  let st := s.ustate u
  if s.requestOpen a u ∧ ¬ s.boundByParent u ∧ (st = .reset ∨ st = .active) then s.enterTest u (agentCause a) else s

/-- Request ACTIVE (R54). -/
def State.reqActive (s : State) (a : Agent) (u : UnitId) : State :=
  let st := s.ustate u
  if s.requestOpen a u ∧ ¬ s.boundByParent u ∧ (st = .reset ∨ st = .test) ∧ s.parentState u = .active then s.enterUp u .active (agentCause a)
  else s

/-- Request FENCE (R54). -/
def State.reqFence (s : State) (a : Agent) (u : UnitId) : State :=
  let st := s.ustate u
  if s.requestOpen a u ∧ ¬ s.boundByParent u ∧ (st = .active ∨ st = .test) then s.beginEntry u .fenced (agentCause a) else s

/-- Request OFF (R54). -/
def State.reqOff (s : State) (a : Agent) (u : UnitId) : State :=
  let st := s.ustate u
  if s.requestOpen a u ∧ ¬ s.boundByParent u ∧ mayBeOff u ∧ st ≠ .off ∧ (st = .fenced → ¬ s.heldFenced u) then s.beginEntry u .off (agentCause a)
  else s

/-- Request ACTIVE_TREE (R45, R54). -/
def State.reqTree (s : State) (a : Agent) (u : UnitId) : State :=
  let st := s.ustate u
  if s.requestOpen a u ∧ ¬ s.boundByParent u ∧ (st = .active ∨ ((st = .reset ∨ st = .test) ∧ s.parentState u = .active)) then
    s.activeTree u (agentCause a)
  else s

/-- A write of UNIT_STATE.REQUEST (R45). -/
def State.request (s : State) (a : Agent) (u : UnitId) (r : Nat) : State :=
  match r with
  | 1 => s.reqReset a u
  | 2 => s.reqTest a u
  | 3 => s.reqActive a u
  | 4 => s.reqFence a u
  | 5 => s.reqOff a u
  | 7 => s.reqTree a u
  | _ => s

/-- A fence by a fault reaction (R54): an ACTIVE or TEST unit that is not entering another state. -/
def State.fenceUnit (s : State) (u : UnitId) (cause : BitVec 8) : State :=
  if (s.ustate u = .active ∨ s.ustate u = .test) ∧ ¬ s.entering u then s.beginEntry u .fenced cause else s

/-- UNIT_ENTRY_COMPLETE (R56): the entry of the subtree whose root is `u` is complete. -/
def doEntryComplete (u : UnitId) (s : State) : State :=
  if s.entering u ∧ ¬ (ancestors u).any s.entering then s.completeEntry u else s

/-! ### The device state (R60, R648) -/

/-- The device leaves START or RECOVERY or enters RECOVERY: FORCE clears where it no longer acts, and an armed load is dropped at the
end of START (R52, R79). -/
def State.setDev (s : State) (d : DevState) : State :=
  let s1 := { s with dev := { s.dev with devState := d, loadPend := if d = .start then s.dev.loadPend else false } }
  if d = .run ∨ s.dev.devState = .start then
    allUnits.foldl (fun s u => if s.ustate u = .test then s else s.setRfld (ownBlk u) R.ucb_INJECT 0 32 0) s1
  else s1

/-- START_STAT.STEP. -/
def State.startStep (s : State) : Nat := s.rfld bDevice R.device_START_STAT 0 8

/-- The device is in START at the end of its start-up sequence, step 13 (R60, R648). -/
def State.startDone (s : State) : Bool := s.dev.devState = .start && s.startStep = 13

/-- DEV_REQUEST = 2 from Privet (R60): from RECOVERY, and from START at the end of the start-up sequence. -/
def doDevRun (a : Agent) (s : State) : State :=
  if a = .privet ∧ (s.startDone ∨ s.dev.devState = .recovery) then s.setDev .run else s

/-- DEV_REQUEST = 3 from Privet (R60, R61): from RUN, and from START at the end of the start-up sequence when a
half is FENCED. -/
def doDevRecovery (a : Agent) (s : State) : State :=
  if a = .privet ∧ (s.dev.devState = .run ∨
      (s.startDone ∧ (s.ustate (.half 0) = .fenced ∨ s.ustate (.half 1) = .fenced))) then s.setDev .recovery
  else s

/-! ### The commands -/

/-- REQUEST_RESET (R54). -/
def execRequestReset (a : Agent) (u : UnitId) (s : State) : Out := .next (if s.agentReach a u then s.reqReset a u else s)

/-- REQUEST_TEST (R54). -/
def execRequestTest (a : Agent) (u : UnitId) (s : State) : Out := .next (if s.agentReach a u then s.reqTest a u else s)

/-- REQUEST_ACTIVE (R54). -/
def execRequestActive (a : Agent) (u : UnitId) (s : State) : Out := .next (if s.agentReach a u then s.reqActive a u else s)

/-- REQUEST_FENCE (R54). -/
def execRequestFence (a : Agent) (u : UnitId) (s : State) : Out := .next (if s.agentReach a u then s.reqFence a u else s)

/-- REQUEST_OFF (R54). -/
def execRequestOff (a : Agent) (u : UnitId) (s : State) : Out := .next (if s.agentReach a u then s.reqOff a u else s)

/-- ACTIVE_TREE (R54). -/
def execActiveTree (a : Agent) (u : UnitId) (s : State) : Out := .next (if s.agentReach a u then s.reqTree a u else s)

/-- DEV_REQUEST_RUN (R60). -/
def execDevRequestRun (a : Agent) (s : State) : Out := .next (doDevRun a s)

/-- DEV_REQUEST_RECOVERY (R60). -/
def execDevRequestRecovery (a : Agent) (s : State) : Out := .next (doDevRecovery a s)

end Sys2Proof.Machine
end

