-- ==== Sys2Proof/Machine/Commit.lean ====
section
/-! DEFINITION. Recursive commit (R62–R67): the start of a commit, now or at a stamp, its reach of each unit of the subtree, and the
copy of the staged fields at a unit's safe point. -/

namespace Sys2Proof.Machine

/-- The units of a commit's subtree. -/
def commitUnits (u : UnitId) : List UnitId := (subtree u).filter unitPresent

/-- A commit over the unit's subtree starts (R62). -/
def State.startCommit (s : State) (u : UnitId) : State :=
  ({ s with commits := s.commits ++ [⟨u, commitUnits u, [], []⟩] } : State).settleCommits

/-- The armed flag of a unit. -/
def State.setArmed (s : State) (u : UnitId) (b : Bool) : State := s.updUnit u fun d => { d with armed := b }

/-- COMMIT.KEY 0xC0C1 (R67): a stamp already reached starts the commit at once. -/
def State.armCommit (s : State) (u : UnitId) : State :=
  if (s.reg (ownBlk u) R.ucb_COMMIT_AT).toNat ≤ (s.dtsOf u).toNat then (s.setArmed u false).startCommit u else s.setArmed u true

/-- A write of COMMIT.KEY (R47, R62, R67). -/
def State.commitKey (s : State) (u : UnitId) (key : Nat) : State :=
  match key with
  | 0xC0C0 => s.startCommit u
  | 0xC0C1 => s.armCommit u
  | 0xC0C2 => s.setArmed u false
  | _ => s

/-- ARMED_COMMIT_START (R67): DTS has reached COMMIT_AT. -/
def doArmedStart (u : UnitId) (s : State) : State :=
  if (s.unit u).armed ∧ (s.reg (ownBlk u) R.ucb_COMMIT_AT).toNat ≤ (s.dtsOf u).toNat then (s.setArmed u false).startCommit u else s

/-- The commit reaches a unit: it waits for its safe point (R62). -/
def CommitRec.reach (c : CommitRec) (u : UnitId) : CommitRec :=
  { c with todo := c.todo.filter (fun v => v ≠ u), waiting := c.waiting ++ [u] }

/-- Change the first commit that has not reached the unit. -/
def mapFirst (p : CommitRec → Bool) (f : CommitRec → CommitRec) : List CommitRec → List CommitRec
  | [] => []
  | c :: r => if p c then f c :: r else c :: mapFirst p f r

/-- COMMIT_REACH (R62, R66): at a unit in OFF nothing is applied, and the unit counts as applied. -/
def doCommitReach (u : UnitId) (s : State) : State :=
  let off := decide (s.ustate u = .off)
  ({ s with commits := mapFirst (fun c => c.todo.contains u) (fun c => if off then c.drop [u] else c.reach u) s.commits }).settleCommits

/-- COMMIT.PENDING of a unit: a commit has reached it, and it or a descendant has not yet applied (R47). -/
def State.commitPending (s : State) (u : UnitId) : Bool :=
  s.commits.any fun c => within c.root u && !c.todo.contains u && (c.todo ++ c.waiting).any fun v => within u v

/-! ### The safe point (R63, R64) -/

/-- The ST bits of a register. -/
def stBits (fs : List FieldRow) : DWord :=
  BitVec.ofNat 64 (fs.foldl (fun m f => if f.ty = .st then m ||| (2 ^ f.len - 1) <<< f.lsb else m) 0)

/-- FORD_CFG.BUNDLE_EN is applied only with both FORD units in RESET (R66, R530). -/
def State.mayApply (s : State) (b : Blk) (off : Nat) : Bool :=
  !(decide (b.kind = .ford) && decide (off = R.ford_FORD_CFG)) || (decide (s.ustate (.ford 0) = .reset) && decide (s.ustate (.ford 1) = .reset))

/-- One register's ST fields are copied from the staging view to the active view (R63). -/
def State.applyReg (s : State) (b : Blk) (off : Nat) : State :=
  match findRow (blkRows b.kind off) off with
  | some (r, _) =>
    let m := stBits r.fields
    if s.mayApply b off then s.setReg b off ((s.reg b off &&& ~~~m) ||| (s.stg b off &&& m)) else s
  | none => s

/-- The addresses of a unit at which a staged or an active value is listed. -/
def State.listedRegs (s : State) (u : UnitId) : List Nat :=
  (s.staged.map (·.1) ++ s.csr.map (·.1)).filter fun a =>
    match blkAt a with
    | some (v, _) => decide (v = u)
    | none => false

/-- Every ST field of all the unit's blocks is copied (R63). -/
def State.applyRegs (s : State) (u : UnitId) : State :=
  (s.listedRegs u).foldl (fun s a =>
    match blkAt a with
    | some (_, b) => s.applyReg b (a - b.base)
    | none => s) s

/-- Every node of a port's hierarchy is refilled at the rates in force (R477, R480). -/
def State.refillPort (s : State) (h : Half) (lp : Nat) : State :=
  let one (l : Lvl) (s : State) (i : Nat) : State := s.setBucket h l i (s.bucketNow h l i)
  one .port ((classesOf lp).foldl (one .cls) (((classesOf lp).flatMap queuesOf).foldl (one .queue) s)) lp

/-- The SCHED unit applies: buckets keep the tokens of the old rates, and eligibility follows the new ones (R480). -/
def State.applySched (s : State) (h : Half) : State :=
  let s1 := (List.range 68).foldl (fun s lp => s.refillPort h lp) s
  let s2 := s1.applyRegs (.sched h)
  (List.range 68).foldl (fun s lp => s.schedRefresh h lp (s.nonEmpty h lp)) s2

/-- A side of a PORT, true for the receive side, has no frame under way (R64). -/
def State.sideIdle (s : State) (p : PortIx) (rx : Bool) : Bool :=
  if rx then (s.arriving p).isNone else !(s.sels (portHalf p) (portLocal p)).any fun x => x.started && !x.ended

/-- Every commit that waits at a PORT has applied at this side, now or before (R64, R66). -/
def State.sideApplied (s : State) (p : PortIx) (rx : Bool) : Bool :=
  (s.commits.filter fun c => c.waiting.contains (.port p)).all fun c => c.sides.contains (.port p, rx)

/-- The sides of a PORT that are at their safe point apply what waits there, each on its own (R64). -/
def State.applySides (s : State) (p : PortIx) : State :=
  let idle : List (UnitId × Bool) := ([true, false].filter fun rx => !s.live (.port p) || s.sideIdle p rx).map fun rx => (.port p, rx)
  { s with commits := s.commits.map fun c =>
      if c.waiting.contains (.port p) then { c with sides := c.sides ++ idle.filter fun e => !c.sides.contains e } else c }

/-- The unit is at its safe point (R64). Every command of the block is a point between two decisions; beyond that a CLUSTER waits for
its coprocessor operations and a PORT until both of its sides have applied. -/
def State.atSafePoint (s : State) (u : UnitId) : Bool :=
  if s.live u then
    match u with
    | .cluster h t c => !(s.tile h t).responses.any fun r => decide (r.unit.cluster? = some c.val)
    | .port p => s.sideApplied p true && s.sideApplied p false
    | _ => true
  else true

/-- What a unit does towards its safe point: the sides of a PORT apply on their own (R64). -/
def State.towardsSafe (s : State) (u : UnitId) : State :=
  match u with
  | .port p => s.applySides p
  | _ => s

/-- The commit is applied at the unit: the copy, GEN and LAST_COMMIT_STAMP (R63); earlier commits that wait there are applied as one
with it (R66). -/
def State.applyCommit (s : State) (u : UnitId) : State :=
  let s1 := match u with
    | .sched h => s.applySched h
    | _ => s.applyRegs u
  let s2 := s1.updUnit u fun d => { d with gen := d.gen + 1, stamp := s.dtsOf u }
  ({ s2 with commits := s2.commits.map fun (c : CommitRec) =>
    { c with waiting := c.waiting.filter (fun v => v ≠ u), sides := c.sides.filter fun e => e.1 ≠ u } }).settleCommits

/-- UNIT_COMMIT_APPLY (R63). -/
def doCommitApply (u : UnitId) (s : State) : State :=
  let s1 := s.towardsSafe u
  if (s1.commits.any fun c => c.waiting.contains u) ∧ s1.atSafePoint u then s1.applyCommit u else s1

/-! ### The commands -/

/-- COMMIT_NOW (R62). -/
def execCommitNow (a : Agent) (u : UnitId) (s : State) : Out := .next (if s.agentReach a u then s.startCommit u else s)

/-- COMMIT_ARM (R67). -/
def execCommitArm (a : Agent) (u : UnitId) (s : State) : Out := .next (if s.agentReach a u then s.armCommit u else s)

/-- COMMIT_DISARM (R67). -/
def execCommitDisarm (a : Agent) (u : UnitId) (s : State) : Out := .next (if s.agentReach a u then s.setArmed u false else s)

/-- COMMIT_AT_WRITE (R67). -/
def execCommitAtWrite (a : Agent) (u : UnitId) (stamp : DWord) (s : State) : Out :=
  .next (if s.agentReach a u then s.setReg (ownBlk u) R.ucb_COMMIT_AT stamp else s)

/-- ARMED_COMMIT_START (R67). -/
def execArmedCommitStart (u : UnitId) (s : State) : Out := .next (doArmedStart u s)

/-- COMMIT_REACH (R62). -/
def execCommitReach (u : UnitId) (s : State) : Out := .next (doCommitReach u s)

/-- UNIT_COMMIT_APPLY (R63). -/
def execUnitCommitApply (u : UnitId) (s : State) : Out := .next (doCommitApply u s)

end Sys2Proof.Machine
end

