-- ==== Sys2Proof/Machine/React.lean ====
section
/-! DEFINITION. Reactions to faults (R556–R582): what each code draws beside its record, the fatal reaction of a half, the rotating
spares of the tiles, acknowledgement of records, the detail queue, force bits and inverted check bits, and the heartbeat of Privet. -/

namespace Sys2Proof.Machine

/-! ### FAULT_N and safe state (R561–R564) -/

/-- The width of a FAULT_N pulse in ticks (R564, R588). -/
def State.pulseTicks (s : State) : Nat :=
  let w := s.rfld bDevice R.device_FAULTN_CTL 0 10
  (if w = 0 then 1 else if 1000 < w then 1000 else w) * 15000

/-- A hardware pulse begins, or begins anew at its full width (R564). -/
def State.pulse (s : State) (h : Half) : State := s.updHub h fun x => { x with pulseEnd := some (s.ticks + s.pulseTicks) }

/-- FAULT_N is held low by a hardware pulse or by the fence of Privet (R564, R588 HW_LOW). -/
def State.faultHw (s : State) : Bool :=
  s.hubs.h0.pulseEnd.isSome || s.hubs.h1.pulseEnd.isSome || decide (s.hubs.h0.privet = .fenced) || decide (s.hubs.h1.privet = .fenced)

/-- FAULT_N is low (R564, R588 PIN_LOW). -/
def State.faultLow (s : State) : Bool := s.faultHw || bit (s.reg bDevice R.device_FAULTN_CTL) 32

/-- FAULTN_PULSE_END: a pulse whose time has passed ends (R564). -/
def doPulseEnd (s : State) : State :=
  let ended (x : HubState) : HubState :=
    match x.pulseEnd with
    | some t => if t ≤ s.ticks then { x with pulseEnd := none } else x
    | none => x
  { s with hubs := ⟨ended s.hubs.h0, ended s.hubs.h1⟩ }

/-- A half is FENCED, or its entry into FENCED is in progress. -/
def State.halfFenced (s : State) (h : Half) : Bool :=
  let d := s.unit (.half h)
  match d.entering with
  | some (dest, _) => decide (dest = .fenced)
  | none => decide (d.state = .fenced)

/-- A fatal fault in RUN takes the device to RECOVERY (R60). -/
def State.toRecovery (s : State) : State := if s.dev.devState = .run then s.setDev .recovery else s

/-- The last fault of a unit merged into a record that was open (R550). -/
def State.recMerged (s : State) (u : UnitId) : Bool :=
  match tget? (s.hubs.get (((hubsOf u).head?).getD 0)).slots (slotOf u) with
  | some r => decide (r.merged ≠ 0)
  | none => false

/-- A DTS_SKEW record has opened (R674). -/
def State.countSkew (s : State) (h : Half) : State := s.updTime h fun t => { t with skewFaults := satTo (t.skewFaults + 1) 0xFFFF }

/-- INJECTED of a unit's record (R61, R550). -/
def State.recInjected (s : State) (u : UnitId) : Bool :=
  match tget? (s.hubs.get (((hubsOf u).head?).getD 0)).slots (slotOf u) with
  | some r => r.injected
  | none => false

/-- The record of `u` that fenced a half is the cause of its restart, with its INJECTED bit as merges leave it (R61). -/
def State.noteFatal (s : State) (h : Half) (u : UnitId) (injected : Bool) : State :=
  { s with pv := { s.pv with lastInjected := s.pv.lastInjected.upd h fun _ => injected, fatalBy := s.pv.fatalBy.upd h fun _ => some u } }

/-- The fatal reaction of a half to the record of `u` (R561): FENCE, the pulse of FAULT_N, the notice to the other half, squelched
transmitters and the count. A half that is FENCED is left as it is (R562). -/
def State.fatalHalf (s : State) (h : Half) (cause : BitVec 8) (u : UnitId) : State :=
  let s0 := (s.pulse h).toRecovery
  if s0.halfFenced h then (if s0.pv.fatalBy.get h = some u then s0.noteFatal h u (s0.recInjected u) else s0)
  else
    let s1 := s0.updFord (other h) fun f => if s0.fordUp h then { f with fatalIn := true } else f
    let s2 := (s1.updHub h fun x => { x with squelched := true }).bump (bHub h) R.hub_SAFE_ENTRIES
    (s2.noteFatal h u (s2.recInjected u)).fenceUnit (.half h) cause

/-- The fatal reaction at the DEVICE takes both halves (R562). -/
def State.fatalDevice (s : State) (cause : BitVec 8) : State := (s.fatalHalf 0 cause .device).fatalHalf 1 cause .device

/-! ### Cores and their spare (R569–R575) -/

/-- Change a tile's spare. -/
def State.updSpare (s : State) (h : Half) (t : TileIx) (f : SpareInfo → SpareInfo) : State :=
  s.updTile h t fun x => { x with spare := f x.spare }

/-- The tile still has its spare. -/
def SpareInfo.has (x : SpareInfo) : Bool := decide (x.spare < 17)

/-- SPARE_STAT.STATE of a tile whose spare neither tests nor is gone follows ROTATE_EN and the tile (R589). -/
def State.settleSpare (s : State) (h : Half) (t : TileIx) : State :=
  let on := bit (s.reg (bTile h t) R.tile_SPARE_CFG) 0 && s.live (.tile h t)
  s.updSpare h t fun x =>
    if x.has then { x with state := if x.state = .testing then .testing else if on then .idle else .stopped } else x

/-- SP has lost its core: hardware fences it from ACTIVE or TEST; in RESET or OFF it stays (R54). -/
def State.fenceSpare (s : State) (h : Half) (t : TileIx) : State := s.fenceUnit (.spare h t) 0x03

/-- A physical core fails (R570, R573): the spare takes its position, or the position or the tile is FENCED. -/
def State.physFails (s : State) (h : Half) (t : TileIx) (phys : Nat) (injected : Bool) : State :=
  let x := (s.tile h t).spare
  if x.fenced.testBit phys then s
  else
    let rec1 (s : State) (code d : Nat) : State := s.openRecord ⟨.tile h t, code, injected, BitVec.ofNat 64 d⟩
    let s1 := rec1 (s.updSpare h t fun x => { x with fenced := setBit x.fenced phys }) F.CORE_FENCED (phys % 32)
    match x.posOf phys, x.has with
    | none, _ =>
      rec1 ((s1.updSpare h t fun x => { x with spare := 31, state := .exhausted }).fenceSpare h t) F.SPARE_EXHAUSTED 0
    | some p, true =>
      let s2 := s1.endCore h t (Fin.ofNat 4 (p / 4)) (Fin.ofNat 4 p) .fenced drCoreFault
      let s3 := s2.updSpare h t fun y => { y with phys := tput y.phys p x.spare, spare := 31, state := .exhausted }
      rec1 (s3.fenceSpare h t) F.SPARE_EXHAUSTED 0
    | some p, false =>
      if x.lost.isNone then
        (s1.updSpare h t fun x => { x with lost := some p, state := .reduced, owed := true }).fenceUnit (coreAt h t p) 0x03
      else
        rec1 ((s1.fenceUnit (.tile h t) 0x03).updSpare h t fun x => { x with owed := true }) F.TILE_FENCED 0

/-- A core fault of R570 is reported at a core: the second at one physical core within 1 s fails it. -/
def State.coreReport (s : State) (u : UnitId) (injected : Bool) : State :=
  match u with
  | .core h t _ _ =>
    let phys := s.physOf u
    let again := (s.tile h t).spare.reports.any fun e => decide (e.1 = phys) && decide (s.ticks < e.2 + secondTicks)
    let s1 := s.updSpare h t fun x => { x with reports := x.reports.filter (fun e => decide (e.1 ≠ phys)) ++ [(phys, s.ticks)] }
    if again then s1.physFails h t phys injected else s1
  | _ => s

/-- A task on a thread of a core is discarded with reason CORE_FAULT (R558). -/
def State.coreFaultTask (s : State) (h : Half) (t : TileIx) (n : Fin 128) : State :=
  match (s.thread (.pk h t n)).task with
  | some k => s.discardTask h t k drCoreFault
  | none => s

/-- The detail of RF_DATA and RSTACK_PARITY (R556): the thread, and the task or service run it serves. -/
def State.rfDetail (s : State) (u : UnitId) (d : DWord) : DWord :=
  match u with
  | .core h t c k =>
    let n := d.toNat % 8
    match (s.thread (.pk h t (nth 0 (coreThreads c k) n))).task with
    | some slot =>
      let svc := decide (svcBase ≤ slot)
      BitVec.ofNat 64 (1 <<< 63 ||| b2n svc <<< 44 ||| (if svc then slot - svcBase else slot) <<< 32 ||| n)
    | none => BitVec.ofNat 64 n
  | _ => d &&& 7

/-- SPARE_HANDOVER (R571): the tile hands the next position to its spare, and the outgoing core is tested as SP. A commit that is
pending at the position is applied there (R66). -/
def doHandover (h : Half) (t : TileIx) (s : State) : State :=
  let x := (s.tile h t).spare
  if x.state = .idle ∧ s.live (.tile h t) ∧ bit (s.reg (bTile h t) R.tile_SPARE_CFG) 0 ∧
      (s.ustate (.spare h t) = .reset ∨ s.ustate (.spare h t) = .active) ∧
      ¬ s.entering (.spare h t) then
    let p := x.nextPos % 16
    let u := coreAt h t p
    let s1 := if s.commits.any (fun c => c.waiting.contains u) then s.applyCommit u else s
    let s2 := s1.updSpare h t fun y =>
      { y with phys := tset p y.phys p x.spare, spare := tget p x.phys p, nextPos := (p + 1) % 16, state := .testing }
    (s2.enterUp (.spare h t) .test 0x05).bump (bTile h t) R.tile_ROTATIONS
  else s

/-- The self-test of a tile's spare ends (R571, R573). -/
def State.spareTested (s : State) (h : Half) (t : TileIx) (ok : Bool) : State :=
  let x := (s.tile h t).spare
  if x.state = .testing then
    if ok then
      let s1 := ((s.setUState (.spare h t) .reset 0x05).settleForce (.spare h t) .reset).setReg (bTile h t) R.tile_LAST_PASS (s.dts h)
      ((s1.bump (bTile h t) R.tile_LBIST_PASSES).updSpare h t fun y => { y with state := .idle }).settleSpare h t
    else (s.report (.tile h t) F.LBIST_FAIL).physFails h t x.spare false
  else s

/-- The tiles of a half with 16 cores that work (R574). -/
def State.fullTiles (s : State) (h : Half) : List Nat :=
  (List.range 16).filter fun i => s.live (.tile h (Fin.ofNat 16 i)) && (s.tile h (Fin.ofNat 16 i)).spare.lost.isNone

/-- The INDIRECTION writes of R574 for a tile: the ⌈m/16⌉ highest of its entries, or all of them for a tile that is FENCED, go to the
16-core tiles in turn. -/
def State.reweighRecs (s : State) (h : Half) (t : TileIx) : List BatchRec :=
  let mine := (List.range 4096).filter fun i => decide (s.indirectionAt h i (s.dts h).toNat % 16 = t.val)
  let n := if s.live (.tile h t) then (mine.length + 15) / 16 else mine.length
  let moved := mine.drop (mine.length - n)
  let dst := (s.fullTiles h).filter fun i => decide (i ≠ t.val)
  if dst.isEmpty then []
  else (List.range moved.length).map fun j =>
    { op := opWrite, table := tgInd, zero := 0, len := 4, index := nth 0 moved j, payload := leBytes 4 (nth 0 dst (j % dst.length)) }

/-- Apply records to a slot until one is refused. -/
def State.applyAll (s : State) (h : Half) (b : Nat) : List BatchRec → Option State
  | [] => some s
  | r :: rest => if s.recReason h b r = 0 then (s.applyRec h b r).applyAll h b rest else none

/-- REWEIGHT_BATCH (R574): Privet builds the batch in a FREE slot and posts it with E = DTS + 64. A batch that is refused counts as
such, and its slot is FREE again for the next attempt. -/
def doReweight (h : Half) (t : TileIx) (s : State) : State :=
  let slots := (List.range 256).filter fun b => decide ((s.bslot h b).state = .free)
  let done (s : State) : State := s.updSpare h t fun x => { x with owed := false }
  if (s.tile h t).spare.owed ∧ bit (s.reg (bHub h) R.hub_RECOVERY_CFG) 1 ∧ s.live (.table h 7) ∧ (s.tab.get h).builds.isEmpty ∧
      s.hubs.h0.privet = .up then
    match slots.reverse, s.reweighRecs h t with
    | [], _ => s
    | _, [] => done s
    | b :: _, recs =>
      match (s.updSlot h b fun _ => { BatchSlot.init with state := .building }).applyAll h b recs with
      | some s1 => done ((s1.updSlot h b fun x => { x with state := .ready }).postSlot h b (s.dts h + 64))
      | none => s.bump (bTable h 7) R.version_BATCHES_REFUSED
  else s

/-! ### Privet and the hubs (R578–R580) -/

/-- The units of Privet that are present. -/
def privetUnits : List UnitId := (List.range 12).map fun n => .privet (Fin.ofNat 15 n)

/-- The mailbox slots whose command is under way. -/
def State.busySlots (s : State) : List Nat := (List.range 4).filter fun i => bit (s.reg (bPrivet 6) (R.mbox_MB_CTL + 0x100 * i)) 2

/-- The commands of these slots are dropped by a restart of Privet (R606, R619). -/
def State.dropMailbox (s : State) (slots : List Nat) : State :=
  slots.foldl (fun s i =>
    let o := R.mbox_MB_CTL + 0x100 * i
    s.setReg (bPrivet 6) o (setFld (setFld (s.reg (bPrivet 6) o) 2 1 0) 3 1 1)) s

/-- Both hubs see Privet in another state. -/
def State.setPrivet (s : State) (p : PrivetRun) : State :=
  { s with hubs := ⟨{ s.hubs.h0 with privet := p }, { s.hubs.h1 with privet := p }⟩ }

/-- Every PRIVET unit goes to RESET and then to ACTIVE, and the next window of the hubs is 500 ms (R578, R579). -/
def State.restartPrivet (s : State) (cause : BitVec 8) : State :=
  let long (x : HubState) : HubState := { x with hbEnd := s.ticks + 750000000, hbSeen := false }
  let s1 := s.setPrivet .restarting
  let s2 := { s1 with hubs := ⟨long s1.hubs.h0, long s1.hubs.h1⟩ }
  (privetUnits.foldl (fun s u => s.beginEntry u .reset cause) s2).dropMailbox s.busySlots

/-- Every PRIVET unit is placed in FENCED (R579). -/
def State.fencePrivet (s : State) (cause : BitVec 8) : State :=
  (privetUnits.foldl (fun s u => s.beginEntry u .fenced cause) (s.setPrivet .fenced)).dropMailbox s.busySlots

/-- What a hub that acts does about a heartbeat loss beside its records (R578, R579). -/
def State.heartbeatActs (s : State) (h : Half) (injected : Bool) : State :=
  if 3 ≤ (s.hubs.get h).hbLosses.length then
    (s.fencePrivet 0x08).openRecord ⟨.hub h, F.PRIVET_FENCED, injected, 0⟩
  else s.restartPrivet 0x08

/-- A loss counts: TOTAL since PORESET_N, and the losses of the last 10 s (R579, R586). -/
def State.countLoss (s : State) (h : Half) : State :=
  s.updHub h fun x =>
    { x with hbTotal := satTo (x.hbTotal + 1) 255, hbLosses := (x.hbLosses.filter fun t => decide (s.ticks < t + 10 * secondTicks)) ++ [s.ticks] }

/-- PRIVET_HB_WINDOW: a hub's heartbeat window ends (R578, R579). -/
def doHbWindow (h : Half) (s : State) : State :=
  let x := s.hubs.get h
  if s.ustate .device ≠ .active ∨ s.ticks < x.hbEnd ∨ x.privet = .fenced then s
  else
    let s1 := s.updHub h fun x => { x with hbEnd := s.ticks + 1500000, hbSeen := false }
    if x.hbSeen then s1
    else
      let s2 := s1.countLoss h
      if h = 1 ∧ s.ustate (.hub 0) = .active then s2
      else ((s2.report (.hub h) F.PRIVET_HEARTBEAT)).heartbeatActs h false

/-- PRIVET_HB_WRITE: any write by Privet is a heartbeat (R578, R586). -/
def doHbWrite (a : Agent) (h : Half) (s : State) : State :=
  if a = .privet ∧ (s.hubs.get h).privet ≠ .fenced then
    s.updHub h fun x => { x with hbSeen := true, privet := .up }
  else s

/-- PRIVET_STAT.RELEASE by a control core in supervisor mode clears the count and restarts a fenced Privet (R579). -/
def doPrivetRelease (a : Agent) (h : Half) (s : State) : State :=
  let super : Bool := match a with
    | .control g n => !s.inUser g n
    | _ => false
  if super ∧ (s.hubs.get h).privet = .fenced then
    ({ s with hubs := ⟨{ s.hubs.h0 with hbLosses := [] }, { s.hubs.h1 with hbLosses := [] }⟩ }).restartPrivet 0x08
  else s

/-! ### Reactions of the other kinds (R558) -/

/-- The frame named by an ingress port and a stamp is discarded as RX_PCS_ERR, wherever it waits (R558 CLS_STATE, PORT_DATA). -/
def State.discardRx (s : State) (h : Half) (port stamp : Nat) : State :=
  let is (f : RxFrame) : Bool := decide (f.port = port) && decide (f.stamp.toNat % 2 ^ 48 = stamp)
  let i := s.ing.get h
  let count (s : State) : State := if port < 128 then s.bump (bPort (Fin.ofNat 128 port)) R.port_RX_PCS_ERR else s
  match i.arriving.find? (fun e => is e.2 && !e.2.cut), i.done.find? is, i.inject.find? is, i.cur with
  | some e, _, _, _ => s.cutFrame (portOf h e.1) e.2 R.port_RX_PCS_ERR
  | none, some f, _, _ => count ((s.dropFrame h f).updIng h fun i => { i with done := i.done.filter fun g => !is g })
  | none, none, some f, _ => count ((s.dropFrame h f).updIng h fun i => { i with inject := i.inject.filter fun g => !is g })
  | none, none, none, some c => if is c.frame then count ((s.dropFrame h c.frame).updIng h fun i => { i with cur := none }) else s
  | _, _, _, _ => s

/-- The frame with an ingress stamp that is leaving a port ends with an inverted FCS (R558 PORT_DATA, R464). -/
def State.stompTx (s : State) (p : PortIx) (stamp : Nat) : State :=
  let h := portHalf p
  let lp := portLocal p
  let is (f : Sel) : Bool := f.started && !f.ended && !f.stomp && decide ((s.chain h f.entry.chain).stamp.toNat % 2 ^ 48 = stamp)
  if (s.sels h lp).any is then
    (s.setSels h lp (updFirst is (Sel.spoil lp) (s.sels h lp))).bumpPort h lp pcStomped
  else s

/-- Reactions of the TILE (R176, R558): the word is poisoned, the task or message discarded, the pattern withheld. -/
def State.reactTile (s : State) (h : Half) (t : TileIx) (f : Found) : State :=
  let d := f.detail.toNat
  let off := d % 2 ^ 21
  let add (l : List Nat) (w : Nat) : List Nat := if l.contains w then l else l ++ [w]
  if f.code = F.TMEM_DATA then
    s.updTile h t fun x =>
      if bits d 22 2 = 0 then { x with poisonRam := add x.poisonRam (off / 4) }
      else if bits d 22 2 = 1 then { x with poisonStore := add x.poisonStore (off / 4) } else x
  else if f.code = F.PSTORE_DATA then
    let w := (off / 131072, off % 131072 / 4)
    s.updTile h t fun x => if w.1 < 2 ∧ ¬ x.poisonBank.contains w then { x with poisonBank := x.poisonBank ++ [w] } else x
  else if f.code = F.TASK_STATE then s.discardTask h t (if d.testBit 12 then svcBase + d % 32 else d % 4096) drMemory
  else if f.code = F.BRAMBLE_PATTERN then
    s.updTile h t fun x => { x with brambleWithheld := add x.brambleWithheld (d % 16384) }
  else if f.code = F.CHANNEL_DATA then
    let q := tget [] (s.tile h t).chans (d % 256)
    let i := bits d 8 8
    if i < q.length then
      (s.updTile h t fun x => { x with chans := tset [] x.chans (d % 256) (q.eraseIdx i) }).bump (bChannel h t) R.channel_CH_DISCARDED
    else s
  else s

/-- Reactions of the CORE (R376, R558). -/
def State.reactCore (s : State) (h : Half) (t : TileIx) (c k : Fin 4) (f : Found) : State :=
  let n := nth 0 (coreThreads c k) (f.detail.toNat % 8)
  if f.code = F.RF_DATA ∨ f.code = F.RSTACK_PARITY then (s.coreFaultTask h t n).coreReport f.unit f.injected
  else if f.code = F.CORE_RESIDUE then
    ((coreThreads c k).foldl (fun s n => s.coreFaultTask h t n) s).coreReport f.unit f.injected
  else if f.code = F.EVENT_DEADLOCK then
    (s.raiseInt (.pk h t (nth 0 (coreThreads c k) 0)) 5).bump (bCore h t c k) R.core_DEADLOCKS
  else s

/-- Reactions of the TABLE units (R233, R236). -/
def State.reactTable (s : State) (h : Half) (n : Fin 8) (f : Found) : State :=
  let d := f.detail.toNat
  let tg := bits d 60 4
  let i := d % 2 ^ 32
  if f.code = F.TABLE_ENTRY then s.withhold h tg i
  else if f.code = F.TABLE_LEARNED_LOST then s.learnedLost h i
  else if f.code = F.TABLE_DYNAMIC then
    if n.val = 3 then s.loseLine h i
    else if n.val = 4 then s.updTab h fun x => { x with badMeters := if x.badMeters.contains i then x.badMeters else x.badMeters ++ [i] }
    else s
  else if f.code = F.FLOW_RECORD_LOST then
    let base := s.flowAddr h 0
    let a := d % 2 ^ 48
    if base ≤ a ∧ (a - base) / 64 < s.flowSlots h then s.flowClear h ((a - base) / 64) (List.replicate 64 0) else s
  else if f.code = F.SHADOW_DIVERGE then
    let s1 := s.bump (bTable h 6) R.shadow_DIVERGED
    if bit (s.reg (bTable h 6) R.shadow_SHADOW_CFG) 1 then
      s1.updTab h fun x => { x with shadowHeld := if x.shadowHeld.contains (tg, i) then x.shadowHeld else x.shadowHeld ++ [(tg, i)] }
    else s1
  else s

/-- A bank of the packet buffer is fenced (R465). -/
def State.fenceBank (s : State) (h : Half) (k : Nat) : State :=
  if k < 96 ∧ ¬ (s.buf.get h).fencedBanks.contains k then
    let s1 := s.updBuf h fun b => { b with fencedBanks := b.fencedBanks ++ [k] }
    s1.setRfld (bBuffer h) (if k < 64 then R.buffer_BANK_FENCED_LO else R.buffer_BANK_FENCED_HI) (k % 64) 1 1
  else s

/-- A spilled copy whose record reads uncorrectable is discarded with its blocks (R459). -/
def State.dropSpilled (s : State) (h : Half) (block : Nat) : State :=
  match (s.buf.get h).spilled.find? fun e => e.2.any fun x => x.blocks.contains block && x.writing.isNone with
  | some (q, l) => (s.setSpill h q (l.filter fun x => !x.blocks.contains block)).bumpPort h (q / 16) pcError
  | none => s

/-- A selected copy of a chain that is still being read. -/
def Sel.readsChain (id : Nat) (f : Sel) : Bool := decide (f.entry.chain = id) && !f.readDone

/-- The copy of a chain that used a failed pointer is discarded under ERROR_DROP of its port, or BAD_POINTER when it has none (R437). Which
copy used it the spec does not let the report say: the model takes the one nearest to leaving (DESIGN CHOICE, log 91). A copy that has
begun to leave ends with an inverted FCS. -/
def State.dropUser (s : State) (h : Half) (id : Nat) : State :=
  let b := s.buf.get h
  match (s.sched.get h).sel.find? fun e => e.2.any (Sel.readsChain id) with
  | some (lp, l) =>
    if l.any fun f => f.readsChain id && !f.started then
      ((s.setSels h lp (dropFirstSel (fun f => f.readsChain id && !f.started) l)).bumpPort h lp pcError).release h id
    else (s.setSels h lp (updFirst (Sel.readsChain id) (Sel.spoil lp) l)).bumpPort h lp pcError
  | none =>
    match b.queues.find? fun e => e.2.any fun x => decide (x.chain = id) with
    | some (q, l) =>
      (((s.withSched h (q / 16) fun s => s.setQueue h q (l.eraseIdx (l.findIdx fun x => decide (x.chain = id)))).bumpPort h (q / 16) pcError)
        ).release h id
    | none =>
      match b.copies.find? fun c => decide (c.chain = id) with
      | some c =>
        (((s.updBuf h fun b => { b with copies := b.copies.erase c }).bumpPort h (c.q / 16) pcError).release h id).settleReg h id
      | none =>
        match b.spilled.find? fun e => e.2.any fun x => decide (x.writing = some id) with
        | some (q, l) => ((s.setSpill h q (l.filter fun x => x.writing ≠ some id)).bumpPort h (q / 16) pcError).release h id
        | none =>
          match (s.ford.get h).waiting.find? fun r => decide (r.chain = id) with
          | some r => (s.bumpPort (egressHalf h r.port) (lpOf r.port) pcError).endCrossing h id
          | none =>
            let s1 := s.bump (bBuffer h) R.buffer_BAD_POINTER
            if b.walks.any fun w => decide (w.chain = id) then
              ((s1.updBuf h fun b => { b with walks := b.walks.filter fun w => w.chain ≠ id }).release h id).settleReg h id
            else s1

/-- A cell pointer fails its check (R437): a chain is cut at a cell that a NEXT names wrongly, or broken where the pointer named its head,
and the copy that used the pointer is discarded. A pointer to a cell of no chain counts BAD_POINTER. -/
def State.pointerFails (s : State) (h : Half) (cell : Nat) : State :=
  match s.chainWith h cell with
  | none => s.bump (bBuffer h) R.buffer_BAD_POINTER
  | some (id, c) =>
    (if nth 0 c.cells 0 = cell then s.updChain h id fun c => { c with broken := true }
     else s.updBuf h fun b => b.cutChain id cell c).dropUser h id

/-- Reactions of the BUFFER (R437, R443, R459, R464, R465). -/
def State.reactBuffer (s : State) (h : Half) (f : Found) : State :=
  let d := f.detail.toNat
  let cell := d % 2 ^ 20
  let broken : State :=
    match s.chainWith h cell with
    | some (id, c) => if c.refcnt = 0 then s else s.updChain h id fun c => { c with broken := true }
    | none => s
  if f.code = F.BUF_DATA then
    s.updBuf h fun b => { b with badCells := if b.badCells.contains cell ∨ (s.chainWith h cell).isNone then b.badCells else b.badCells ++ [cell] }
  else if f.code = F.BUF_POINTER then s.pointerFails h cell
  else if f.code = F.BUF_REFCNT then broken
  else if f.code = F.BUF_SPILL_DATA then s.dropSpilled h (d % 2 ^ 32)
  else if f.code = F.BUF_ROW_REPAIRED then s.updBuf h fun b => { b with rowRepairs := tmod 0 b.rowRepairs (d % 128) (· + 1) }
  else if f.code = F.BUF_BANK_FENCED then s.fenceBank h (d % 128)
  else s

/-- The port whose scheduler state failed enters FLUSHING, and its tags restart at its V (R462, R558). -/
def State.flushPort (s : State) (h : Half) (lp : Nat) : State :=
  let s1 := s.loseSelected h lp
  let s2 := s1.updSched h fun x =>
    let v := tget 0 x.pV lp
    let x1 := (classesOf lp).foldl (fun x k => { x with cS := tset 0 x.cS k v, cV := tset 0 x.cV k v }) x
    ((classesOf lp).flatMap queuesOf).foldl (fun x q => { x with qS := tset 0 x.qS q v }) x1
  ((s2.setHold h lp .flushing).updBuf h fun b => { b with holdEnd := tdel b.holdEnd lp }).flushEnd h lp

/-- Reactions of an HBM controller (R512, R514, R516, R558). -/
def State.reactHbmc (s : State) (h : Half) (st : Fin 2) (f : Found) : State :=
  let b := bHbmc h st
  let a := f.detail.toNat % 2 ^ 48
  let fence (s : State) : State := s.fenceUnit (.hbmc h st) 0x03
  if f.code = F.HBM_ECC then s.bump b R.hbmc_CORRECTED
  else if f.code = F.HBM_DATA then
    let g := a / 32
    let s1 := (s.bump b R.hbmc_UNCORRECTED).updHbm h fun x => { x with poison := if x.poison.contains g then x.poison else x.poison ++ [g] }
    s1.rowFails h (hbmRowKey a)
  else if f.code = F.HBM_PARITY then s.bump b R.hbmc_PARITY_RETRIES
  else if f.code = F.HBM_TRAIN then fence s
  else if f.code = F.HBM_LINK then
    let recent := (s.hbm.get h).linkFaults.filter fun e => decide (e.1 = st.val) && decide (s.ticks < e.2 + secondTicks)
    let rest := (s.hbm.get h).linkFaults.filter fun e => decide (e.1 ≠ st.val)
    let s1 := s.updHbm h fun x => { x with linkFaults := rest ++ recent ++ [(st.val, s.ticks)] }
    let s1 := s1.updHbm h fun x => { x with linkBad := if x.linkBad.contains st.val then x.linkBad else x.linkBad ++ [st.val] }
    if 15 ≤ recent.length then fence (s1.openRecord ⟨f.unit, F.HBM_TRAIN, f.injected, 0⟩) else s1
  else s

/-- Reactions of FORD (R529, R532). -/
def State.reactFord (s : State) (h : Half) (f : Found) : State :=
  if f.code = F.DTS_SKEW then (if s.recMerged f.unit then s else s.countSkew h)
  else if f.code = F.FORD_BUNDLE_LOST then
    let s1 := s.fenceBundle h (f.detail.toNat % 16)
    if (s.ford.get h).linkUp ∧ (s1.ford.get h).bundlesUp = 0 then s1.fordFalls h else s1
  else if f.code = F.FORD_DOWN then s.fordFallsWork h
  else if f.code = F.FORD_PEER_LOST then (if (s.ford.get h).peerUp then s.losePeerWork h else s)
  else s

/-- A lock whose state is lost passes on with ABANDONED (R390, R558). -/
def State.lockLost (s : State) (h : Half) (num : Nat) : State :=
  match (s.lock h num).holder with
  | some p => ((s.passOn h num 1).settlePrio p).bump (bLocks h) R.locks_ABANDONS
  | none => s

/-- CAUSE of the fences of a fatal fault (R45). -/
def fatalCause (u : UnitId) (code : Nat) : BitVec 8 := if u = .device ∧ code = F.THERMAL_SHUTDOWN then 0x09 else 0x03

/-- The reaction a fault draws at its own code, whether its record opened or merged (R551, R558). -/
def State.react (s : State) (f : Found) : State :=
  let d := f.detail.toNat
  match f.unit with
  | .device =>
    if f.code = 0 then s
    else
      let s1 := if f.code = F.THERMAL_SHUTDOWN then s.setRfld bDevice R.device_THERM_CTL 9 1 1 else s
      s1.fatalDevice (fatalCause f.unit f.code)
  | .half h =>
    if f.code = F.CLS_STATE then s.discardRx h (d >>> 56) (d % 2 ^ 48)
    else if codeClass 0x02 f.code = some .fatal then s.fatalHalf h 0x03 f.unit
    else s
  | .hub h =>
    if f.code = F.HUB_MISMATCH then s.fatalHalf h 0x03 f.unit
    else if f.code = F.PRIVET_HEARTBEAT then (s.countLoss h).heartbeatActs h f.injected
    else if f.code = F.PRIVET_FENCED then s.fencePrivet 0x08
    else s
  | .tile h t => s.reactTile h t f
  | .cluster h t c =>
    if f.code = F.CP_STATE then
      s.updTile h t fun x =>
        { x with insts := tmod CpInst.reset x.insts (16 * c.val + d % 16) fun y =>
            { CpInst.reset with holder := y.holder, waiters := y.waiters, leaving := y.leaving } }
    else s
  | .core h t c k => s.reactCore h t c k f
  | .port p =>
    if f.code = F.PORT_DATA then
      if d.testBit 63 then s.stompTx p (d % 2 ^ 48) else s.discardRx (portHalf p) p.val (d % 2 ^ 48)
    else if f.code = F.PORT_LANE_FAIL then s.fenceUnit (.port p) 0x03
    else s
  | .table h n => s.reactTable h n f
  | .assoc h =>
    if f.code = F.ASSOC_ENTRY then
      let i := d % 65536
      let s1 := s.updAssoc h fun a => { a with withheld := if a.withheld.contains i then a.withheld else a.withheld ++ [i] }
      if (s.assoc.get h).rewritten.contains i then s1.bankFails h (i / bankEntries) else s1
    else s
  | .buffer h => s.reactBuffer h f
  | .sched h => if f.code = F.SCHED_STATE ∧ d % 128 < 68 then s.flushPort h (d % 128) else s
  | .hbmc h st => s.reactHbmc h st f
  | .ford h => s.reactFord h f
  | .locks h => if f.code = F.LOCKS_STATE then s.lockLost h (d % 8192) else s
  | .privet n =>
    if f.code = F.PRIVET_LOCKSTEP ∧ s.hubs.h0.privet ≠ .fenced then s.restartPrivet 0x03
    else if f.code = F.STORE_BANK_BAD ∧ n.val = 3 then { s with pv := { s.pv with storeBad := true } }
    else s
  | .group => s
  | .spare _ _ => s

/-- The detail a fault carries: the bits R556 gives its code. -/
def State.detailOf (s : State) (u : UnitId) (code : Nat) (d : DWord) : DWord :=
  let keep (m : Nat) : DWord := d &&& BitVec.ofNat 64 m
  match unitKind u with
  | 0x02 => if code = F.CLS_STATE then keep 0xFF00FFFFFFFFFFFF else d
  | 0x03 =>
    if code = F.BRAMBLE_PATTERN then keep 0x3FFF
    else if code = F.TMEM_DATA ∨ code = F.PSTORE_DATA then keep 0xDFFFFF
    else if code = F.CORE_FENCED then keep 0x1F
    else if code = F.TASK_STATE then keep 0x1FFF
    else d
  | 0x05 => if code = F.RF_DATA ∨ code = F.RSTACK_PARITY then s.rfDetail u d else d
  | 0x06 => if code = F.PORT_DATA then keep 0x8000FFFFFFFFFFFF else d
  | 0x07 =>
    if code = F.TABLE_ENTRY ∨ code = F.SHADOW_DIVERGE then keep 0xF0000000FFFFFFFF
    else if code = F.TABLE_LEARNED_LOST then keep 0xFFFFFFFF
    else if code = F.FLOW_RECORD_LOST then keep 0xFFFFFFFFFFFF
    else d
  | 0x08 => if code = F.ASSOC_ENTRY then keep 0xFFFF else d
  | 0x09 =>
    if code = F.BUF_DATA ∨ code = F.BUF_POINTER ∨ code = F.BUF_REFCNT then keep 0xFFFFF
    else if code = F.BUF_SPILL_DATA then keep 0xFFFFFFFF
    else if code = F.BUF_ROW_REPAIRED ∨ code = F.BUF_BANK_FENCED then keep 0x7F
    else d
  | 0x0A => if code = F.SCHED_STATE then keep 0x7F else d
  | 0x0B => if hasDetail 0x0B code then keep 0xFFFFFFFFFFFF else d
  | _ => d

/-- The code that a fault takes: a row of a packet-buffer bank whose four repair rows are used fences the bank (R465). -/
def State.codeOf (s : State) (u : UnitId) (code : Nat) (d : DWord) : Nat :=
  match u with
  | .buffer h => if code = F.BUF_ROW_REPAIRED ∧ 4 ≤ tget 0 (s.buf.get h).rowRepairs (d.toNat % 128) then F.BUF_BANK_FENCED else code
  | _ => code

/-- A fault: its record (R549, R550) and its reaction (R551). -/
def State.faultAt (s : State) (f : Found) : State :=
  match codeClass (unitKind f.unit) f.code with
  | none => s
  | some _ => (s.openRecord f).react f

/-- A fault of a unit that is no forced one. -/
def State.fault (s : State) (u : UnitId) (code : Nat) (d : DWord := 0) : State :=
  let c := s.codeOf u code d
  match s.found u c (s.detailOf u c d) with
  | (s1, f) => s1.faultAt f

/-- FAULT_REPORT (R549–R551). -/
def doFaultReport (u : UnitId) (code : Nat) (d : DWord) (s : State) : State := if unitPresent u ∧ s.pv.porLow = false ∧ s.pv.sysLow = false then s.fault u code d else s

/-! ### Force bits and inverted check bits (R51, R52, R566–R568) -/

/-- A forced source reports one injected fault; what it strikes is a free value (R568). -/
def State.force (s : State) (u : UnitId) (code : Nat) : State :=
  let d := s.free 64
  let c := s.codeOf u code d
  s.used.faultAt ⟨u, c, true, s.detailOf u c d⟩

/-- A write of INJECT.FORCE in the states of R52: the bits that rise report one fault each (R568). -/
def State.forceWrite (s : State) (u : UnitId) (v : Nat) : State :=
  if s.forceActs (s.ustate u) then
    let old := s.rfld (ownBlk u) R.ucb_INJECT 0 32
    let s1 := s.setRfld (ownBlk u) R.ucb_INJECT 0 32 v
    ((List.range 32).filter fun i => v.testBit i && !old.testBit i).foldl (fun s i => s.force u i) s1
  else s

/-- A write of INJECT.INV_ARM with INV_SEL (R51, R566): armed where INV_SEL names a checker of the unit and [6:5] are zero. -/
def State.armInv (s : State) (u : UnitId) (sel : Nat) : State :=
  let s1 := s.setRfld (ownBlk u) R.ucb_INJECT 40 8 sel
  if (checkerOf (unitKind u) (sel % 32)).isSome ∧ bits sel 5 2 = 0 then s1.updUnit u fun x => { x with invPend := true } else s1

/-! ### Records, details and acknowledgement (R552–R556) -/

/-- The selected slot's record as REC_LO and REC_HI show it (R546, R554, R586); a slot never used reads zero. -/
def State.recRead (s : State) (h : Half) : DWord × DWord :=
  match tget? (s.hubs.get h).slots (s.rfld (bHub h) R.hub_REC_SEL 0 9) with
  | some r => (r.lo s.memberNo, r.hi)
  | none => (0, 0)

/-- A read of REC_LO latches REC_HI for the agent (R554). -/
def State.recLoRead (s : State) (a : Agent) (h : Half) : State :=
  s.updHub h fun x => { x with recLatch := (x.recLatch.filter fun e => e.1 ≠ a) ++ [(a, (s.recRead h).2)] }

/-- A read of REC_HI: the latched value once, else the selected record's (R554). -/
def State.recHiRead (s : State) (a : Agent) (h : Half) : State × DWord :=
  match (s.hubs.get h).recLatch.find? fun e => e.1 = a with
  | some e => (s.updHub h fun x => { x with recLatch := x.recLatch.filter fun e => e.1 ≠ a }, e.2)
  | none => (s, (s.recRead h).2)

/-- REC_ACK with GO (R552); the device-level slots close in both hubs, which hold them identically (R548). -/
def State.recAck (s : State) (a : Agent) (h : Half) (slot merged : Nat) : State :=
  match tget? (s.hubs.get h).slots slot with
  | none => s
  | some r =>
    if ¬ r.isOpen ∨ ¬ s.agentOk a r.unit then s
    else if r.merged ≠ merged then s.bump (bHub h) R.hub_ACK_STALE
    else
      let close (x : HubState) : HubState :=
        match tget? x.slots slot with
        | some e => { x with slots := tput x.slots slot { e with isOpen := false } }
        | none => x
      (hubsOf r.unit).foldl (fun s g => s.updHub g close) s

/-- DETAIL_A of an entry (R556). -/
def DetailEntry.word (e : DetailEntry) : DWord := BitVec.ofNat 64 (1 <<< 63 ||| e.code.toNat <<< 40 ||| e.slot)

/-- A read of DETAIL_A latches the oldest entry for the agent (R556). -/
def State.detailARead (s : State) (a : Agent) (h : Half) : State × DWord :=
  let x := s.hubs.get h
  let others := x.detailLatch.filter fun e => e.1 ≠ a
  match x.details with
  | [] => (s.updHub h fun x => { x with detailLatch := others }, 0)
  | e :: _ => (s.updHub h fun x => { x with detailLatch := others ++ [(a, e)] }, e.word)

/-- A read of DETAIL_B returns the agent's latched detail and removes the entry (R556). -/
def State.detailBRead (s : State) (a : Agent) (h : Half) : State × DWord :=
  match (s.hubs.get h).detailLatch.find? fun e => e.1 = a with
  | some (_, d) =>
    (s.updHub h fun x =>
      { x with details := x.details.filter (fun e => e.id ≠ d.id), detailLatch := x.detailLatch.filter fun e => e.1 ≠ a }, d.detail)
  | none => (s, 0)

/-! ### The commands -/

/-- FAULT_REPORT (R549). -/
def execFaultReport (u : UnitId) (code : BitVec 8) (detail : DWord) (s : State) : Out := .next (s.orWait (doFaultReport u code.toNat detail))

/-- FAULTN_PULSE_END (R564). -/
def execFaultnPulseEnd (s : State) : Out := .next (doPulseEnd s)

/-- REC_ACK (R552). -/
def execRecAck (a : Agent) (h : Half) (slot : Fin 512) (merged : BitVec 8) (s : State) : Out :=
  .next (if s.agentReach a (.hub h) then s.recAck a h slot.val merged.toNat else s)

/-- REC_LO_READ (R554). -/
def execRecLoRead (a : Agent) (h : Half) (s : State) : Out := .next (if s.agentReach a (.hub h) then s.recLoRead a h else s)

/-- DETAIL_A_READ (R556). -/
def execDetailARead (a : Agent) (h : Half) (s : State) : Out := .next (if s.agentReach a (.hub h) then (s.detailARead a h).1 else s)

/-- DETAIL_B_READ (R556). -/
def execDetailBRead (a : Agent) (h : Half) (s : State) : Out := .next (if s.agentReach a (.hub h) then (s.detailBRead a h).1 else s)

/-- INJECT_FORCE_WRITE (R568). -/
def execInjectForceWrite (a : Agent) (u : UnitId) (force : BitVec 32) (s : State) : Out :=
  .next (if s.agentReach a u then s.forceWrite u force.toNat else s)

/-- INV_ARM (R566). -/
def execInvArm (a : Agent) (u : UnitId) (sel : BitVec 8) (s : State) : Out :=
  .next (if s.agentReach a u then s.armInv u sel.toNat else s)

/-- SPARE_HANDOVER (R571). -/
def execSpareHandover (h : Half) (t : TileIx) (s : State) : Out := .next (doHandover h t s)

/-- REWEIGHT_BATCH (R574). -/
def execReweightBatch (h : Half) (t : TileIx) (s : State) : Out := .next (doReweight h t s)

/-- PRIVET_HB_WRITE (R586). -/
def execPrivetHbWrite (a : Agent) (h : Half) (_v : DWord) (s : State) : Out := .next (doHbWrite a h s)

/-- PRIVET_HB_WINDOW (R578). -/
def execPrivetHbWindow (h : Half) (s : State) : Out := .next (doHbWindow h s)

/-- PRIVET_RELEASE (R579). -/
def execPrivetRelease (a : Agent) (h : Half) (s : State) : Out := .next (doPrivetRelease a h s)

/-- The program-store word of a tile has been rewritten from Privet's image copy (R558). -/
def doPstoreRewrite (h : Half) (t : TileIx) (bank : Bool) (addr : Nat) (s : State) : State :=
  s.updTile h t fun x => { x with poisonBank := x.poisonBank.filter fun e => e ≠ (b2n bank, addr / 4) }

/-- PSTORE_REWRITE_DONE (R558). -/
def execPstoreRewriteDone (h : Half) (t : TileIx) (bank : Bool) (addr : Nat) (s : State) : Out := .next (doPstoreRewrite h t bank addr s)

end Sys2Proof.Machine
end

