-- ==== Sys2Proof/Machine/Flash.lean ====
section
/-! DEFINITION. The flash of Privet (R593, R594), its directory (R601, R602), and the Galura container with its checks (R595–R598). -/

namespace Sys2Proof.Machine

/-- Change what Privet holds. -/
def State.updPv (s : State) (f : PrivetState → PrivetState) : State := { s with pv := f s.pv }

/-! ### Bytes of the flash -/

/-- `n` bytes of a flash from offset `a` on; an erased byte reads 0xFF. -/
def flashBytes (f : Tbl Byte) (a : Nat) : Nat → List Byte
  | 0 => []
  | n + 1 => tget 0xFF f a :: flashBytes f (a + 1) n

/-- Program bytes from offset `a` on. -/
def flashStore (f : Tbl Byte) (a : Nat) : List Byte → Tbl Byte
  | [] => f
  | b :: r => flashStore (tset 0xFF f a b) (a + 1) r

/-- `n` bytes of Privet's flash. -/
def State.flashRead (s : State) (a n : Nat) : List Byte := flashBytes s.pv.flash a n

/-- Program bytes of Privet's flash. -/
def State.flashWrite (s : State) (a : Nat) (bs : List Byte) : State := s.updPv fun p => { p with flash := flashStore p.flash a bs }

/-- Erase `n` bytes of Privet's flash from offset `a` on. -/
def State.flashErase (s : State) (a n : Nat) : State :=
  s.updPv fun p => { p with flash := p.flash.filter fun e => decide (e.1 < a) || decide (a + n ≤ e.1) }

/-- A stretch of the flash is erased, and no erase of a sector of it is in progress. -/
def State.flashClean (s : State) (a n : Nat) : Bool :=
  (s.pv.flash.all fun e => decide (e.1 < a) || decide (a + n ≤ e.1)) &&
    (s.pv.erasing.all fun k => decide (4096 * k + 4096 ≤ a) || decide (a + n ≤ 4096 * k))

/-- The erase of a 4 KB sector begins. -/
def State.eraseSector (s : State) (k : Nat) : State :=
  s.updPv fun p => if p.erasing.contains k then p else { p with erasing := p.erasing ++ [k] }

/-- FLASH_ERASE_DONE: a sector's erase, not suspended by PFAIL_N, is complete (R612, R615, R643). -/
def doEraseDone (k : Nat) (s : State) : State :=
  if s.pv.erasing.contains k ∧ s.pv.suspended = false then
    (s.flashErase (4096 * k) 4096).updPv fun p => { p with erasing := p.erasing.filter (· ≠ k) }
  else s

/-- FLASH_ERASE_DONE (R612). -/
def execFlashEraseDone (sector : Nat) (s : State) : Out := .next (doEraseDone sector s)

/-- The CRC-32C of R133 over some bytes. -/
def crcOf (bs : List Byte) : Nat := (crc32c 0xFFFFFFFF).of bs

/-- Sequence a is higher than b (R613). -/
def seqHigher (a b : Nat) : Bool := decide (1 ≤ (a + 2 ^ 32 - b) % 2 ^ 32) && decide ((a + 2 ^ 32 - b) % 2 ^ 32 < 2 ^ 31)

/-! ### The directory (R601) -/

/-- A directory record: SEQ and the entries of kinds 0–2. -/
def dirRecord (seq e0 e1 e2 : Nat) : List Byte :=
  let body := leBytes 4 seq ++ leBytes 2 1 ++ leBytes 2 0 ++ leBytes 8 e0 ++ leBytes 8 e1 ++ leBytes 8 e2 ++ List.replicate 28 0
  body ++ leBytes 4 (crcOf body)

/-- The record of a directory copy, if it is valid. -/
def State.dirCopy (s : State) (c : Nat) : Option (List Byte) :=
  let r := s.flashRead (0x10000 * c) 64
  if leNat (slice r 4 2) = 1 ∧ leNat (slice r 60 4) = crcOf (r.take 60) then some r else none

/-- The copy that holds the newest valid record, and the record. -/
def State.dirNewest (s : State) : Option (Nat × List Byte) :=
  match s.dirCopy 0, s.dirCopy 1 with
  | some a, some b => if seqHigher (leNat (b.take 4)) (leNat (a.take 4)) then some (1, b) else some (0, a)
  | some a, none => some (0, a)
  | none, some b => some (1, b)
  | none, none => none

/-- The stored entry of kind k = 0–2; slot A of every kind where neither copy is valid. -/
def State.dirStored (s : State) (k : Nat) : Nat :=
  match s.dirNewest with
  | some (_, r) => leNat (slice r (8 + 8 * k) 8)
  | none => 0

/-- The entry of kind k: the stored one, or the latest that waits to be written. -/
def State.dirEntry (s : State) (k : Nat) : Nat :=
  match (s.pv.start.dirWait.filter fun e => e.1 = k).getLast? with
  | some e => e.2
  | none => s.dirStored k

/-- A directory write goes to the copy with the older SEQ, with SEQ one higher (R601). -/
def State.dirWrite (s : State) (k e : Nat) : State :=
  let entry (j : Nat) : Nat := if j = k then e else s.dirStored j
  let (copy, seq) := match s.dirNewest with
    | some (c, r) => (1 - c, (leNat (r.take 4) + 1) % 2 ^ 32)
    | none => (0, 1)
  s.flashWrite (0x10000 * copy) (dirRecord seq (entry 0) (entry 1) (entry 2))

/-- A directory write, which waits while PFAIL_N is low (R642, R643). -/
def State.dirPut (s : State) (k e : Nat) : State :=
  if s.pv.pfailLow then s.updPv fun p => { p with start := { p.start with dirWait := p.start.dirWait ++ [(k, e)] } } else s.dirWrite k e

/-- The directory writes that waited for PFAIL_N are made (R643). -/
def State.dirFlush (s : State) : State :=
  let w := s.pv.start.dirWait
  w.foldl (fun s e => s.dirWrite e.1 e.2) (s.updPv fun p => { p with start := { p.start with dirWait := [] } })

/-! ### Slots and containers (R594–R598) -/

/-- The flash offset of a slot of container kind 1–3 (R594). -/
def slotBase (kind slot : Nat) : Nat :=
  match kind with
  | 1 => 0x200000 + slot * 0x300000
  | 2 => 0x800000 + slot * 0x1800000
  | _ => 0x4000000 + slot * 0x2000000

/-- The size of a slot of a kind (R594). -/
def slotSize (kind : Nat) : Nat :=
  match kind with
  | 1 => 0x300000
  | 2 => 0x1800000
  | _ => 0x2000000

/-- An entry of a section table (R596). -/
structure Section where
  typ : Nat
  halves : Nat
  off : Nat
  len : Nat
  param : Nat
  deriving DecidableEq, Repr

/-- A little-endian field of a container's header (R595). -/
def hdrNum (c : List Byte) (off n : Nat) : Nat := leNat (slice c off n)

/-- Entry `i` of a container's section table (R596). -/
def sectionAt (c : List Byte) (i : Nat) : Section :=
  let e := slice c (512 + 32 * i) 32
  { typ := leNat (slice e 0 1), halves := leNat (slice e 1 1), off := leNat (slice e 4 4), len := leNat (slice e 8 4), param := leNat (slice e 12 4) }

/-- BODY_LEN of a container. -/
def bodyLen (c : List Byte) : Nat := hdrNum c 16 4

/-- The sections of a container, in table order. -/
def sectionsOf (c : List Byte) : List Section := (List.range (hdrNum c 20 4)).map (sectionAt c)

/-- The bytes of a section. -/
def sectionBytes (c : List Byte) (x : Section) : List Byte := slice c (512 + x.off) x.len

/-- The section names half `h` (R596). -/
def Section.names (x : Section) (h : Half) : Bool := x.halves.testBit h.val

/-- A section type is allowed in a kind (R596). -/
def sectionAllowed (kind typ : Nat) : Bool :=
  if typ = 1 then decide (kind = 1) || decide (kind = 3) else decide (2 ≤ typ) && decide (typ ≤ 5) && decide (kind = 2)

/-- Every section lies within the body, the table included, and has a type allowed for the kind (step 8 of R598). -/
def sectionsOk (c : List Byte) (kind : Nat) : Bool :=
  decide (32 * hdrNum c 20 4 ≤ bodyLen c) && decide (512 + bodyLen c ≤ c.length) &&
    (sectionsOf c).all fun x => sectionAllowed kind x.typ && decide (x.off + x.len ≤ bodyLen c)

/-- The image's ISA version can be run (R355). -/
def isaOk (v : Nat) : Bool := decide (v / 256 = 1) && decide (v % 256 ≤ 2)

/-- The fuses say that a signing key may be used (step 3 of R598). -/
def State.keyOk (s : State) (slot : Nat) (pub : List Byte) : Bool :=
  decide (slot < 4) && decide (Config.keyHash slot ≠ List.replicate 48 0) && !s.pv.fuses.revoke.testBit slot &&
    decide (Config.sha384 pub = Config.keyHash slot)

/-- Steps 1–8 of R598 on a container: 0 when all pass, else the first that fails. -/
def State.verifyHead (s : State) (kind : Nat) (c : List Byte) : Nat :=
  if hdrNum c 0 4 ≠ 0x474C5241 ∨ hdrNum c 4 2 ≠ 1 ∨ hdrNum c 11 1 ≠ 0 ∨ (slice c 272 240).any (fun b => decide (b ≠ 0)) ∨ c.length < 512 then 1
  else if hdrNum c 6 1 ≠ kind then 2
  else if ¬ s.keyOk (hdrNum c 7 1) (slice c 80 96) then 3
  else if ¬ Config.ecdsaOk (slice c 80 96) (Config.sha384 (slice c 0 176)) (slice c 176 96) then 4
  else if hdrNum c 12 4 < tget 0 s.pv.fuses.svnMin kind then 5
  else if hdrNum c 10 1 ≠ 0 ∧ hdrNum c 10 1 ≠ 0xB0 then 6
  else if kind = 2 ∧ ¬ isaOk (hdrNum c 8 2) then 7
  else if ¬ sectionsOk c kind then 8
  else 0

/-- Every step of R598: 0 when the container is accepted, else the first that fails. -/
def State.verify (s : State) (kind : Nat) (c : List Byte) : Nat :=
  match s.verifyHead kind c with
  | 0 => if Config.sha384 (slice c 512 (bodyLen c)) = slice c 32 48 then 0 else 9
  | k => k

/-- The container in a slot: its header, and its body where the header is one and the body fits. -/
def State.slotImage (s : State) (kind slot : Nat) : List Byte :=
  let a := slotBase kind slot
  let hd := s.flashRead a 512
  if hdrNum hd 0 4 = 0x474C5241 ∧ 512 + bodyLen hd ≤ slotSize kind then hd ++ s.flashRead (a + 512) (bodyLen hd) else hd

/-- The directory entry that names a slot: its SVN, TRIES, TRIAL and ACTIVE (R601). -/
def dirEnt (svn tries : Nat) (trial : Bool) (slot : Nat) : Nat := (svn % 2 ^ 32) <<< 32 ||| (tries % 8) <<< 9 ||| b2n trial <<< 8 ||| slot % 2

/-- SVN of the container in a slot. -/
def State.slotSvn (s : State) (kind slot : Nat) : Nat := hdrNum (s.flashRead (slotBase kind slot) 512) 12 4

/-- R602: the slot of a kind that a boot takes, with the directory write that taking it makes. -/
def State.chooseSlot (s : State) (kind : Nat) : State × Nat :=
  let k := kind - 1
  let e := s.dirEntry k
  let slot := e % 2
  let tries := bits e 9 3
  if e.testBit 8 = false then (s, slot)
  else if tries ≠ 0 then (s.dirPut k (dirEnt (e >>> 32) (tries - 1) true slot), slot)
  else
    let o := 1 - slot
    ((s.dirPut k (dirEnt (s.slotSvn kind o) 0 false o)).updPv fun p => { p with fallback := p.fallback.filter (· ≠ kind) ++ [kind] }, o)

/-- The slot of a kind that is loaded: the chosen one, or the other where that fails R598 (R602). -/
def State.bootSlot (s : State) (kind : Nat) : State × Option Nat :=
  let (s1, a) := s.chooseSlot kind
  if s1.verify kind (s1.slotImage kind a) = 0 then (s1, some a)
  else if s1.verify kind (s1.slotImage kind (1 - a)) = 0 then (s1, some (1 - a))
  else (s1, none)

/-- BUILD_ID of a container (R595). -/
def buildId (c : List Byte) : Nat := hdrNum c 24 8

/-- Privet's firmware runs and its services with it (R579, R600). -/
def State.pvUp (s : State) : Bool := s.pv.booted && s.live (.privet 0)

end Sys2Proof.Machine
end

