-- ==== Sys2Proof/Machine/Store.lean ====
section
/-! DEFINITION. Calibration (R609, R610), the power-safe store (R611–R614) and the persistent fault log (R615, R616). -/

namespace Sys2Proof.Machine

/-! ### Calibration -/

/-- CAL_VIEW of an item as it reads (R610). -/
def State.calView (s : State) (item : Nat) : DWord :=
  if calTop < item then 0
  else
    BitVec.ofNat 64 ((Config.factory item).toNat <<< 48 ||| s.calUser item <<< 32 ||| unsigned 16 (s.calEff item) <<< 16 |||
      b2n (decide ((Config.factory item).toInt + s.calOffset item ≠ s.calEff item)) <<< 1 |||
      b2n (decide (s.calOffset item ≠ signed 16 (s.calUser item))))

/-- USER of the selected item is written (R610). -/
def State.calWrite (s : State) (user : Nat) : State :=
  let item := s.rfld (bPrivet 4) R.cal_CAL_SEL 0 16
  if calTop < item then s else s.updPv fun p => { p with user := tset 0 p.user item (user % 65536) }

/-- CAL_VIEW_WRITE (R610). -/
def execCalViewWrite (a : Agent) (v : DWord) (s : State) : Out :=
  .next (if s.agentReach a (.privet 4) then s.calWrite (fld v 32 16) else s)

/-! ### The record of the store (R611) -/

/-- The halves in order. -/
def bothHalves : List Half := [0, 1]

/-- A section: its type, its entry count and its entries. -/
def storeSection (typ : Nat) (es : List (List Byte)) : List Byte := leBytes 4 typ ++ leBytes 4 es.length ++ es.flatMap fun e => e

/-- Section 1: the items 2,048–2,135 whose USER is not zero. -/
def State.secUser (s : State) : List (List Byte) :=
  (s.pv.user.filter fun e => decide (2048 ≤ e.1) && decide (e.1 ≤ calTop)).map fun e => leBytes 4 (e.1 <<< 16 ||| e.2)

/-- Section 2: the ASSOC bank map of each half. -/
def State.secAssoc (s : State) : List (List Byte) :=
  bothHalves.map fun h =>
    let v := s.pv.assocMap.get h
    leBytes 8 (h.val <<< 63 ||| fld v 0 5 <<< 33 ||| fld v 15 1 <<< 32 ||| fld v 32 32)

/-- Section 3: the fenced banks of each packet buffer. -/
def State.secFenced (s : State) : List (List Byte) :=
  bothHalves.map fun h => leBytes 16 (h.val <<< 127 ||| (s.buf.get h).fencedBanks.foldl (fun m b => m ||| 1 <<< b) 0)

/-- Section 4: the cores of each tile. -/
def State.secCores (s : State) : List (List Byte) :=
  bothHalves.flatMap fun h => (List.range 16).map fun i =>
    let x := (s.tile h (Fin.ofNat 16 i)).spare
    leBytes 4 (h.val <<< 31 ||| i <<< 27 ||| (x.spare % 32) <<< 17 ||| x.fenced % 2 ^ 17)

/-- The stack of a pseudo-channel of a half, 0–3. -/
def stackOf (h : Half) (p : Nat) : Nat := 2 * h.val + p / 32

/-- Section 5: the rows that await hard repair and the lane remaps, at most 128. -/
def State.secRepair (s : State) : List (List Byte) :=
  let rows := bothHalves.flatMap fun h => (s.hbm.get h).awaiting.map fun k =>
    leBytes 8 (stackOf h k.p <<< 62 ||| k.p <<< 55 ||| k.bank <<< 50 ||| k.row <<< 35)
  let lanes := bothHalves.flatMap fun h => (s.pv.laneMaps.get h).map fun e =>
    leBytes 8 (stackOf h e.1 <<< 62 ||| 1 <<< 61 ||| e.1 <<< 55 ||| e.2 % 65536)
  (rows ++ lanes).take 128

/-- Section 6: the retired rows. -/
def State.secRetired (s : State) : List (List Byte) :=
  (bothHalves.flatMap fun h => (s.hbm.get h).retired.map fun k =>
    leBytes 4 (stackOf h k.p <<< 30 ||| k.p <<< 24 ||| k.bank <<< 19 ||| k.row)).take 1024

/-- The lane that spare `i` of a bundle replaced; 0x7F for none. -/
def State.fordLane (s : State) (h : Half) (b i : Nat) : Nat := tget 0x7F (s.pv.fordLanes.get h) (2 * b + i) % 128

/-- Section 7: the bundles whose lanes a half receives. -/
def State.secFord (s : State) : List (List Byte) :=
  bothHalves.flatMap fun h => (List.range 16).map fun b =>
    leBytes 4 (h.val <<< 31 ||| 1 <<< 30 ||| b <<< 26 ||| b2n ((s.pv.fordFenced.get h).testBit b) <<< 25 ||| s.fordLane h b 1 <<< 7 |||
      s.fordLane h b 0)

/-- Section 8: the lanes one of whose USER values is not zero, clamped to their user ranges. -/
def State.secLanes (s : State) : List (List Byte) :=
  ((List.range 512).filter fun l => (List.range 4).any fun j => decide (s.calUser (4 * l + j) ≠ 0)).map fun l =>
    leBytes 4 (l <<< 23 ||| unsigned 5 (s.calOffset (4 * l)) <<< 18 ||| unsigned 4 (s.calOffset (4 * l + 1)) <<< 14 |||
      unsigned 4 (s.calOffset (4 * l + 2)) <<< 10 ||| unsigned 3 (s.calOffset (4 * l + 3)) <<< 7)

/-- Sections 2–7 as they stand. -/
def State.storeMaps (s : State) : List Byte :=
  storeSection 2 s.secAssoc ++ storeSection 3 s.secFenced ++ storeSection 4 s.secCores ++ storeSection 5 s.secRepair ++
    storeSection 6 s.secRetired ++ storeSection 7 s.secFord

/-- A whole record with its header and CRC-32C (R611). -/
def State.storeRecord (s : State) (seq : Nat) : List Byte :=
  let secs := storeSection 1 s.secUser ++ s.storeMaps ++ storeSection 8 s.secLanes
  let body := leBytes 4 seq ++ leBytes 2 1 ++ leBytes 2 (32 + secs.length + 4) ++ leBytes 8 s.leadDts.toNat ++ leBytes 4 s.pv.boots ++
    leBytes 4 8 ++ List.replicate 8 0 ++ secs
  body ++ leBytes 4 (crcOf body)

/-! ### Reading records (R613) -/

/-- The entry size and the most entries of a section (R611); size 0 for a type that is none. -/
def entrySize (typ : Nat) : Nat × Nat :=
  match typ with
  | 1 => (4, 88)
  | 2 => (8, 2)
  | 3 => (16, 2)
  | 4 => (4, 32)
  | 5 => (8, 128)
  | 6 => (4, 1024)
  | 7 => (4, 32)
  | 8 => (4, 512)
  | _ => (0, 0)

/-- The sections of a record's bytes, none where their counts do not fit. -/
def parseSections : Nat → List Byte → Option (List (Nat × List (List Byte)))
  | 0, bs => if bs.isEmpty then some [] else none
  | n + 1, bs =>
    let typ := leNat (slice bs 0 1)
    let c := leNat (slice bs 4 4)
    let (sz, top) := entrySize typ
    if bs.length < 8 ∨ sz = 0 ∨ top < c ∨ bs.length < 8 + sz * c then none
    else
      match parseSections n (bs.drop (8 + sz * c)) with
      | some r => some ((typ, (List.range c).map fun i => slice bs (8 + sz * i) sz) :: r)
      | none => none

/-- A valid record: its SEQ, BOOTS and sections. -/
structure StoreRec where
  seq : Nat
  boots : Nat
  secs : List (Nat × List (List Byte))
  deriving DecidableEq, Repr

/-- The flash offset of a store slot (R594, R611). -/
def storeAddr (bank slot : Nat) : Nat := 0x20000 + 0x10000 * bank + 8192 * slot

/-- The record in a store slot, if it is valid (R613). -/
def State.storeSlot (s : State) (bank slot : Nat) : Option StoreRec :=
  let a := storeAddr bank slot
  let hd := s.flashRead a 32
  let len := leNat (slice hd 6 2)
  if leNat (slice hd 4 2) = 1 ∧ 36 ≤ len ∧ len ≤ 8192 then
    let bs := s.flashRead a len
    if leNat (bs.drop (len - 4)) = crcOf (bs.take (len - 4)) then
      match parseSections (leNat (slice hd 20 4)) ((bs.take (len - 4)).drop 32) with
      | some secs => some ⟨leNat (hd.take 4), leNat (slice hd 16 4), secs⟩
      | none => none
    else none
  else none

/-- The newest valid record of a bank and its slot (R613). -/
def State.storeNewest (s : State) (bank : Nat) : Option (Nat × StoreRec) :=
  (List.range 8).foldl (fun best i =>
    match s.storeSlot bank i, best with
    | some r, some (j, q) => if seqHigher r.seq q.seq then some (i, r) else some (j, q)
    | some r, none => some (i, r)
    | none, b => b) none

/-! ### Commits (R612, R614) -/

/-- The bank whose newest record is older (R612). -/
def State.storeBank (s : State) : Nat :=
  match s.storeNewest 0, s.storeNewest 1 with
  | some (_, a), some (_, b) => if seqHigher b.seq a.seq then 0 else 1
  | some _, none => 1
  | none, _ => 0

/-- The next erased slot of a bank. -/
def State.storeFree (s : State) (bank : Nat) : Option Nat :=
  let start := match s.storeNewest bank with
    | some (i, _) => i + 1
    | none => 0
  ((List.range 8).map fun i => (start + i) % 8).find? fun i => s.flashClean (storeAddr bank i) 8192

/-- The slot of a bank that is erased after a commit to slot `w`: one that holds no valid record, else the oldest (R612). -/
def State.storeOldest (s : State) (bank w : Nat) : Option Nat :=
  let used := (List.range 8).filter fun i => decide (i ≠ w) && !s.flashClean (storeAddr bank i) 8192
  match used.find? fun i => (s.storeSlot bank i).isNone with
  | some i => some i
  | none =>
    used.foldl (fun best i =>
      match best with
      | none => some i
      | some j =>
        match s.storeSlot bank i, s.storeSlot bank j with
        | some a, some b => if seqHigher b.seq a.seq then some i else some j
        | _, _ => some j) none

/-- A commit writes the current record; none where the bank has no erased slot (R612). -/
def State.storeCommit (s : State) : Option State :=
  let bank := s.storeBank
  match s.storeFree bank with
  | none => none
  | some i =>
    let seq := (s.pv.storeSeq + 1) % 2 ^ 32
    let maps := s.storeMaps
    let s1 := (s.flashWrite (storeAddr bank i) (s.storeRecord seq)).updPv fun p => { p with storeSeq := seq, storeLast := maps }
    match s1.storeOldest bank i with
    | some j => some ((s1.eraseSector (storeAddr bank j / 4096)).eraseSector (storeAddr bank j / 4096 + 1))
    | none => some s1

/-- A commit, where one can be made. -/
def State.commitStore (s : State) : State := s.storeCommit.getD s

/-- The bank and slot of the record with the newest SEQ. -/
def State.storeLatest (s : State) : Option (Nat × Nat) :=
  ((List.range 16).map fun i => (i / 8, i % 8)).find? fun e =>
    match s.storeSlot e.1 e.2 with
    | some r => decide (r.seq = s.pv.storeSeq)
    | none => false

/-- A record that read back wrong is written again into the next erased slot of its bank, and the slot that failed holds no valid record
(R612). -/
def State.storeAgain (s : State) : State :=
  let s0 := s.updPv fun p => { p with storeBad := false }
  match s.storeLatest with
  | none => s0
  | some (bank, i) =>
    let again := s.storeRecord s.pv.storeSeq
    match s.storeFree bank with
    | none => s0
    | some j =>
      (s0.flashWrite (storeAddr bank i) (List.replicate 8192 0)).flashWrite (storeAddr bank j) again

/-- STORE_AUTO_COMMIT: a change to sections 2–7 is committed while Privet runs and PFAIL_N is high (R614, R642), and a record that read back
wrong is written again (R612). -/
def doAutoCommit (s : State) : State :=
  if s.pvUp ∧ s.pv.pfailLow = false then
    let s1 := if s.pv.storeBad then s.storeAgain else s
    if s1.storeMaps ≠ s1.pv.storeLast then s1.commitStore else s1
  else s

/-- STORE_AUTO_COMMIT (R614). -/
def execStoreAutoCommit (s : State) : Out := .next (doAutoCommit s)

/-! ### The store at boot (R613, R614) -/

/-- USER values of section 1 and of section 8 (R611). -/
def userOf (secs : List (Nat × List (List Byte))) : Tbl Nat :=
  secs.foldl (fun t x =>
    x.2.foldl (fun t e =>
      let v := leNat e
      if x.1 = 1 then (if 2048 ≤ v >>> 16 ∧ v >>> 16 ≤ calTop then tset 0 t (v >>> 16) (v % 65536) else t)
      else if x.1 = 8 then
        let l := 4 * bits v 23 9
        let put (t : Tbl Nat) (j lsb w : Nat) : Tbl Nat := tset 0 t (l + j) (unsigned 16 (signed w (bits v lsb w)))
        put (put (put (put t 0 18 5) 1 14 4) 2 10 4) 3 7 3
      else t) t) []

/-- The record that Privet takes: the newer of the banks' newest, with STORE_BANK_BAD for a bank without one (R613). -/
def State.storeRead (s : State) : State × StoreRec :=
  match s.storeNewest 0, s.storeNewest 1 with
  | some (_, a), some (_, b) => (s, if seqHigher b.seq a.seq then b else a)
  | some (_, a), none => (s.report (.privet 3) F.STORE_BANK_BAD, a)
  | none, some (_, b) => (s.report (.privet 3) F.STORE_BANK_BAD, b)
  | none, none => (s.report (.privet 3) F.STORE_BANK_BAD, ⟨0, 0, []⟩)

/-- The cores of a tile as its entry of section 4 gives them (R571, R573, R611): a position whose core has failed, or whose core is
the spare, is held by core 16; a second failed core leaves its position lost. -/
def spareOf (spare fenced : Nat) : SpareInfo :=
  let failed := (List.range 16).filter fun i => fenced.testBit i
  let moved := if spare < 16 then some spare else if fenced.testBit 16 then none else failed.head?
  let rest := failed.filter fun i => decide (some i ≠ moved)
  { SpareInfo.reset with
    spare := if spare ≤ 16 then spare else 31
    fenced := fenced
    phys := match moved with | some p => [(p, 16)] | none => []
    lost := if spare ≤ 16 then none else rest.head?
    state := if spare ≤ 16 then .stopped else if rest.isEmpty then .exhausted else .reduced }

/-- One entry of sections 2–7 is applied (R611, R614). -/
def State.applyEntry (s : State) (typ : Nat) (e : List Byte) : State :=
  let v := leNat e
  let half (b : Nat) : Half := if v.testBit b then 1 else 0
  match typ with
  | 2 =>
    let h := half 63
    s.setBankStat h (BitVec.ofNat 64 (bits v 0 32 <<< 32 ||| bits v 32 1 <<< 15 ||| bits v 33 5))
  | 3 => ((List.range 96).filter fun k => v.testBit k).foldl (fun s k => s.fenceBank (half 127) k) s
  | 4 =>
    let h := half 31
    let t : TileIx := Fin.ofNat 16 (bits v 27 4)
    let x := spareOf (bits v 17 5) (bits v 0 17)
    (s.updSpare h t fun _ => x).fenceLost h t
  | 5 =>
    let h := half 63
    let p := bits v 55 6
    if v.testBit 61 then s.updPv fun x => { x with laneMaps := x.laneMaps.upd h fun t => tput t p (bits v 0 16) }
    else
      let k : RowKey := ⟨p, bits v 50 5, bits v 35 15⟩
      s.updHbm h fun x =>
        if x.repaired.contains k then x
        else { x with repaired := x.repaired ++ [k], sparesUsed := tmod 0 x.sparesUsed (64 * k.bank + k.p) (· + 1) }
  | 6 => s.updHbm (half 31) fun x =>
      let k : RowKey := ⟨bits v 24 6, bits v 19 5, bits v 0 15⟩
      if x.retired.contains k then x else { x with retired := x.retired ++ [k] }
  | 7 =>
    let h := half 31
    let b := bits v 26 4
    let lanes := [(0, bits v 0 7), (1, bits v 7 7)].filter fun e => decide (e.2 ≠ 0x7F)
    if v.testBit 30 then
      (s.updFord h fun f =>
        { f with fenced := if v.testBit 25 then setBit f.fenced b else f.fenced, sparesUsed := tset 0 f.sparesUsed b lanes.length }).updPv
        fun x => { x with fordFenced := if v.testBit 25 then x.fordFenced.upd h fun n => setBit n b else x.fordFenced,
                          fordLanes := x.fordLanes.upd h fun t => lanes.foldl (fun t e => tput t (2 * b + e.1) e.2) t }
    else s
  | _ => s

/-- REPAIR_STAT of a stack follows its repaired and retired rows (R518). -/
def State.settleRepair (s : State) (h : Half) (st : Fin 2) : State :=
  let x := s.hbm.get h
  let used := (x.sparesUsed.filter fun e => decide (e.1 % 64 / 32 = st.val)).foldl (fun n e => n + e.2) 0
  (s.setRfld (bHbmc h st) R.hbmc_REPAIR_STAT 32 12 (2048 - used)).setRfld (bHbmc h st) R.hbmc_REPAIR_STAT 0 9 (x.retiredOf st)

/-- Sections 2–7 of the record are applied, and its rows become hard repairs (R614). -/
def State.applyMaps (s : State) (r : StoreRec) : State :=
  let s1 := (r.secs.filter fun x => decide (2 ≤ x.1) && decide (x.1 ≤ 7)).foldl (fun s x => x.2.foldl (fun s e => s.applyEntry x.1 e) s) s
  let s2 := (((s1.settleRepair 0 0).settleRepair 0 1).settleRepair 1 0).settleRepair 1 1
  s2.updPv fun p => { p with storeLast := s2.storeMaps }

/-! ### The persistent fault log (R615, R616) -/

/-- The flash offset of log entry number `seq`. -/
def logAddr (seq : Nat) : Nat := 0x100000 + 32 * (seq % 32768)

/-- The 24 bytes of a buffered entry: the record, DTS [63:48], EVENT, the half, BOOTS (R615). -/
def logBytes (e : HubEvent) (h : Half) (boots member : Nat) : List Byte :=
  leBytes 8 (e.entry.lo member).toNat ++ leBytes 8 e.entry.hi.toNat ++ leBytes 2 e.dtsHigh.toNat ++
    [if e.merge then 2 else 1, BitVec.ofNat 8 h.val] ++ leBytes 4 boots

/-- A log entry with its sequence and CRC (R615). -/
def logSealed (e : List Byte) (seq : Nat) : List Byte :=
  let b := e ++ leBytes 4 seq
  b ++ leBytes 4 (crcOf b)

/-- The entry with sequence `seq` in the flash, if it is valid. -/
def State.logEntry (s : State) (seq : Nat) : Option (List Byte) :=
  let e := s.flashRead (logAddr seq) 32
  if leNat (slice e 24 4) = seq ∧ leNat (slice e 28 4) = crcOf (e.take 28) then some e else none

/-- Privet takes the oldest event of a hub's queue while its buffer has room; the device-level slots are logged from H0, and from H1
only while the H0 hub is not ACTIVE (R616). -/
def doHubEvent (h : Half) (s : State) : State :=
  match (s.hubs.get h).events with
  | [] => s
  | e :: rest =>
    if s.pvUp ∧ s.pv.logBuf.length < 32 then
      let s1 := s.updHub h fun x => { x with events := rest }
      if 448 ≤ e.slot ∧ h = 1 ∧ s.ustate (.hub 0) = .active then s1
      else
        let b := logBytes e h s.pv.boots s.memberNo
        s1.updPv fun p => { p with logBuf := p.logBuf ++ [b] }
    else s

/-- The oldest buffered entry is written where the write point is erased, and the sector ahead is erased (R615). -/
def State.logWrite (s : State) : State :=
  match s.pv.logBuf with
  | [] => s
  | e :: rest =>
    let seq := s.pv.logSeq
    if s.flashClean (logAddr seq) 32 then
      let ahead := 256 + (seq % 32768 / 128 + 1) % 256
      let s1 := (s.flashWrite (logAddr seq) (logSealed e seq)).updPv fun p => { p with logBuf := rest, logSeq := (seq + 1) % 2 ^ 32 }
      if s1.flashClean (4096 * ahead) 4096 then s1 else s1.eraseSector ahead
    else s

/-- Every buffered entry is written. -/
def State.flushLog (s : State) : State := (List.range 32).foldl (fun s _ => s.logWrite) s

/-- LOG_FLUSH, while Privet runs and PFAIL_N is high (R616, R642). -/
def doLogFlush (s : State) : State := if s.pvUp ∧ s.pv.pfailLow = false then s.flushLog else s

/-- The newest valid entry of the log marks the write point (R615). -/
def State.logBoot (s : State) : State :=
  let newest : Option Nat := (List.range 32768).foldl (fun best i =>
    let q := leNat (s.flashRead (logAddr i + 24) 4)
    if q % 32768 = i ∧ (s.logEntry q).isSome then
      match best with
      | some b => if seqHigher q b then some q else some b
      | none => some q
    else best) none
  s.updPv fun p => { p with logSeq := match newest with | some q => (q + 1) % 2 ^ 32 | none => 0 }

/-- HUB_EVENT_TO_PRIVET (R616). -/
def execHubEventToPrivet (h : Half) (s : State) : Out := .next (doHubEvent h s)

/-- LOG_FLUSH (R616). -/
def execLogFlush (s : State) : Out := .next (doLogFlush s)

end Sys2Proof.Machine
end

