-- ==== Sys2Proof/Machine/Image.lean ====
section
/-! DEFINITION. What Privet loads: firmware at a boot (R600, R602), program and parse banks (R596, R604), control-core software
(R607), and the end of an image switch. -/

namespace Sys2Proof.Machine

/-- Privet's accesses to HBM (R498). -/
def privReq : HbmReq := ⟨.privet, srcPrivet, false⟩

/-! ### Sections -/

/-- A tile's program bank takes the bytes of a section; the words written are no longer poisoned. -/
def Tile.loadBank (x : Tile) (b : Nat) (bs : List Byte) : Tile :=
  let clean := x.poisonBank.filter fun w => decide (w.1 ≠ b) || decide (bs.length ≤ 4 * w.2)
  if b = 0 then { x with bank0 := tstore x.bank0 0 bs, poisonBank := clean } else { x with bank1 := tstore x.bank1 0 bs, poisonBank := clean }

/-- A PROGRAM_BANK section is loaded into bank `b` of every tile of a half, with its interrupt entry (R371, R596). -/
def State.loadProgram (s : State) (h : Half) (b : Nat) (bs : List Byte) (entry : Nat) : State :=
  (List.range 16).foldl (fun s i =>
    let t : TileIx := Fin.ofNat 16 i
    (s.updTile h t fun x => x.loadBank b (bs.take 131072)).setRfld (bTile h t) R.tile_INT_CFG (if b = 0 then 0 else 32) 17 entry) s

/-- A table of the entries below an index. -/
def tblBelow {α : Type} (n : Nat) (l : List (Nat × α)) : Tbl α := (l.filter fun e => decide (e.1 < n)).foldl (fun t e => tput t e.1 e.2) []

/-- The parse bank that a section describes, within the limits of R121. -/
def parseBankOf (bs : List Byte) : ParseBank :=
  { states := tblBelow 256 (Config.parseStates bs), trans := tblBelow 2048 (Config.parseTrans bs), extr := tblBelow 1024 (Config.parseExtr bs),
    profiles := tblBelow 16 (Config.parseProfiles bs) }

/-- A PARSE_BANK section is loaded into bank `b` of a half's parser. -/
def State.loadParse (s : State) (h : Half) (b : Nat) (bs : List Byte) : State :=
  s.updIng h fun i => if b = 0 then { i with bank0 := parseBankOf bs } else { i with bank1 := parseBankOf bs }

/-- The banks of a packet image are loaded into bank `b` of a half (R604, R605, R647). -/
def State.loadBanks (s : State) (c : List Byte) (h : Half) (b : Nat) : State :=
  ((sectionsOf c).filter fun x => x.names h).foldl (fun s x =>
    if x.typ = 2 then s.loadProgram h b (sectionBytes c x) x.param
    else if x.typ = 3 then s.loadParse h b (sectionBytes c x)
    else s) s

/-- The CODE sections of control-core software that name a half go to its HBM at their PARAM (R596); the answer says whether every write
was accepted. -/
def State.loadCode (s : State) (c : List Byte) (h : Half) : State × Bool :=
  ((sectionsOf c).filter fun x => x.names h && decide (x.typ = 1)).foldl (fun acc x =>
    let (s1, ok) := acc.1.hbmPlace h x.param (sectionBytes c x)
    (s1, acc.2 && ok)) (s, true)

/-- CC_ENTRY of the loaded software: PARAM in the physical map of the control cores (R596, R607, R622). -/
def State.setCcEntry (s : State) (c : List Byte) (h : Half) : State :=
  match (((sectionsOf c).filter fun x => x.names h && decide (x.typ = 1)).getLast?) with
  | some x => s.setRfld (bCc h) R.cc_CC_ENTRY 0 48 (0x100000000 + x.param)
  | none => s

/-- A half's control cores are held in reset: their locks pass on as ABANDONED (R390, R607). -/
def State.stopCores (s : State) (h : Half) : State :=
  let s1 := (List.range 32).foldl (fun s i => s.abandonLocks (.control h (Fin.ofNat 32 i))) (s.setRfld (bCc h) R.cc_CC_CTL 0 1 0)
  { s1 with cc := s1.cc.upd h fun c => { c with threads := [], xl := [] } }

/-- A half's control cores are released at CC_ENTRY (R607, R621). -/
def State.runCores (s : State) (h : Half) : State :=
  let s1 := s.setRfld (bCc h) R.cc_CC_CTL 0 1 1
  if s1.live (.half h) then s1.startCores h else s1

/-- A half's control cores are stopped, loaded and released (R607). -/
def State.reloadCores (s : State) (c : List Byte) (h : Half) : State × Bool :=
  let (s1, ok) := (s.stopCores h).loadCode c h
  if ok then ((s1.setCcEntry c h).runCores h, true) else (s1, false)

/-! ### Image switches (R274, R604) -/

/-- Once every half is IDLE again, the image that was activated is the directory's (R604). -/
def State.imgSettled (s : State) : State :=
  match s.pv.imgPending with
  | some k =>
    if s.imgState 0 = 0 ∧ s.imgState 1 = 0 then
      ((s.dirPut 1 (dirEnt (s.slotSvn 2 k) 0 true k))).updPv fun p => { p with imgPending := none, imgBuild := buildId (s.slotImage 2 k) }
    else s
  | none => s

/-- IMG_SWITCH (R274): the half now runs the image that was activated. -/
def doSwitch (h : Half) (s : State) : State :=
  let s1 := doImgSwitch h s
  if s1.imgState h = s.imgState h then s1
  else s1.updPv fun p => { p with imgSlot := if p.imgPending.isSome then p.imgPending else p.imgSlot }

/-- IMG_DRAIN_END (R274, R604). -/
def doDrainEnd (h : Half) (s : State) : State :=
  let s1 := doImgDrainEnd h s
  if s1.imgState h = s.imgState h then s1 else s1.imgSettled

/-- IMG_SWITCH (R274). -/
def execImgSwitch (h : Half) (s : State) : Out := .next (doSwitch h s)

/-- IMG_DRAIN_END (R274). -/
def execImgDrainEnd (h : Half) (s : State) : Out := .next (doDrainEnd h s)

/-! ### Firmware (R600, R602) -/

/-- Firmware runs. -/
def State.runFirmware (s : State) (build : Nat) : State := s.updPv fun p => { p with booted := true, noFirmware := false, fwBuild := build }

/-- The fallback of R600: the boot ROM grants PF0 CSR access, and runs what the host writes into SRAM where that passes R598. -/
def State.hostBoot (s : State) : State :=
  let s1 := s.setRfld (bPrivet 8) R.pcie_GRANT_PF 0 1 1
  let c := Config.hostFirmware s1.fresh
  let s2 := s1.used
  if s2.verify 1 c = 0 then s2.runFirmware (buildId c) else s2

/-- The boot ROM brings firmware to run, as BOOT_SEL says (R593, R600, R602). -/
def State.bootFirmware (s : State) : State :=
  let s1 := s.updPv fun p =>
    { p with booted := false, noFirmware := false, flashSmall := Config.flashSmall, flashSlow := Config.flashSlow,
             fallback := p.fallback.filter (· ≠ 1) }
  match s1.pv.bootSel with
  | 3 => s1
  | 2 => s1.hostBoot
  | n =>
    let (s2, slot) := if s1.pv.flashSmall then (s1, none) else s1.bootSlot 1
    match slot with
    | some k => s2.runFirmware (buildId (s2.slotImage 1 k))
    | none => if n = 1 then s2.hostBoot else s2.updPv fun p => { p with noFirmware := true }

/-- UNIT_ENTRY_COMPLETE (R56): a Privet that restarts runs its boot ROM, and BOOTS rises (R578, R606, R611). -/
def doEntryEnd (u : UnitId) (s : State) : State :=
  let s1 := doEntryComplete u s
  if s.entering (.privet 0) ∧ s1.live (.privet 0) then (s1.updPv fun p => { p with boots := p.boots + 1 }).bootFirmware else s1

/-- UNIT_ENTRY_COMPLETE (R56). -/
def execUnitEntryComplete (u : UnitId) (s : State) : Out := .next (doEntryEnd u s)

end Sys2Proof.Machine
end

