-- ==== Sys2Proof/Machine/Mailbox.lean ====
section
/-! DEFINITION. The mailboxes and their commands (R603–R608, R619, R620), debug access (R628, R629), and the management port
(R603, R624, R625). -/

namespace Sys2Proof.Machine

/-! ### Slots (R619) -/

/-- CMD_i of a slot. -/
def State.mbCmd (s : State) (slot i : Nat) : DWord := s.reg (bPrivet 6) (R.mbox_CMD_0 + 8 * i + 0x100 * slot)

/-- MB_CTL of a slot. -/
def State.mbCtl (s : State) (slot : Nat) : DWord := s.reg (bPrivet 6) (R.mbox_MB_CTL + 0x100 * slot)

/-- Set MB_CTL of a slot. -/
def State.setMbCtl (s : State) (slot : Nat) (v : DWord) : State := s.setReg (bPrivet 6) (R.mbox_MB_CTL + 0x100 * slot) v

/-- The opcode in CMD_0. -/
def State.mbOp (s : State) (slot : Nat) : Nat := fld (s.mbCmd slot 0) 56 8

/-- The status codes of R620. -/
abbrev mbOk : Nat := 0
abbrev mbBadCmd : Nat := 1
abbrev mbDenied : Nat := 2
abbrev mbBusy : Nat := 3
abbrev mbVerify : Nat := 4
abbrev mbFlash : Nat := 5
abbrev mbEarly : Nat := 6
abbrev mbArm : Nat := 7
abbrev mbNak : Nat := 8
abbrev mbRegion : Nat := 10

/-- The agent owns a mailbox slot (R619). -/
def State.mbOwner (s : State) (a : Agent) (slot : Nat) : Bool :=
  match a with
  | .control h n => decide (slot = h.val) && !s.inUser h n
  | .pcie f => decide (slot = 2 + f.val) && s.agentReach a (.privet 6) && bit (s.reg (bPrivet 8) (R.pcie_GRANT_PF + 8 * f.val)) 2
  | _ => false

/-- The response is written: status, values, DONE, and event bit 31 of the thread named for slots 0 and 1 (R619). -/
def State.mbAnswer (s : State) (slot status : Nat) (rs : List (Nat × Nat) := []) : State :=
  let put (s : State) (i : Nat) (v : DWord) : State := s.setReg (bPrivet 6) (R.mbox_RSP_0 + 8 * i + 0x100 * slot) v
  let s1 := rs.foldl (fun s e => put s e.1 (BitVec.ofNat 64 e.2)) (put s 0 (BitVec.ofNat 64 (status <<< 56)))
  let c := s1.mbCtl slot
  let s2 := s1.setMbCtl slot (setFld (setFld c 2 1 0) 1 1 1)
  if slot < 2 then s2.setEv (.cc (Fin.ofNat 2 slot) (Fin.ofNat 32 (fld c 8 5))) 0x80000000 else s2

/-- The commands of which one runs at a time in the device (R620). -/
def mbExclusive (op : Nat) : Bool := op = 2 || op = 3 || op = 4 || op = 0xB

/-- A command exists and its slot offers it (R620). -/
def mbOffered (op slot : Nat) : Bool := decide (1 ≤ op) && decide (op ≤ 0xB) && (decide (slot < 2) || (decide (op ≠ 4) && decide (op ≠ 8)))

/-- A write of GO (R619, R620): BUSY sets and LOST clears; a command the slot does not offer, and a second one of the exclusive four, is
answered at once. -/
def State.mbGo (s : State) (a : Agent) (slot : Nat) : State :=
  if s.mbOwner a slot ∧ s.live (.privet 6) ∧ bit (s.mbCtl slot) 2 = false then
    let op := s.mbOp slot
    let other := s.busySlots.any fun j => mbExclusive (s.mbOp j)
    let s1 := s.setMbCtl slot (setFld (setFld (s.mbCtl slot) 2 1 1) 3 1 0)
    if ¬ mbOffered op slot then s1.mbAnswer slot mbBadCmd
    else if mbExclusive op && other then s1.mbAnswer slot mbBusy
    else s1
  else s

/-- Privet performs command `op` of a slot now. -/
def State.mbRuns (s : State) (slot op : Nat) : Bool := s.pvUp && bit (s.mbCtl slot) 2 && decide (s.mbOp slot = op)

/-! ### Buffers (R620) -/

/-- `n` bytes of the address operand's space: a status, and the bytes. What host memory holds is free. -/
def State.mbRead (s : State) (slot a n : Nat) : State × Nat × List Byte :=
  match fld (s.mbCmd slot 1) 48 2 with
  | 2 =>
    if 2 ≤ slot then
      ({ s with fresh := s.fresh + n }, mbOk, (List.range n).map fun i => Config.freeValue (s.fresh + i) 8)
    else (s, mbBadCmd, [])
  | 3 => (s, mbBadCmd, [])
  | h =>
    let (s1, bs, err) := s.hbmRead (Fin.ofNat 2 h) privReq a n
    (s1, if err then mbRegion else mbOk, bs)

/-- Bytes are written to the address operand's space: a status. -/
def State.mbWrite (s : State) (slot a : Nat) (bs : List Byte) : State × Nat :=
  match fld (s.mbCmd slot 1) 48 2 with
  | 2 => (s, if 2 ≤ slot then mbOk else mbBadCmd)
  | 3 => (s, mbBadCmd)
  | h =>
    let (s1, ok) := s.hbmWrite (Fin.ofNat 2 h) privReq a bs
    (s1, if ok then mbOk else mbRegion)

/-! ### Images (R603–R608) -/

/-- A slot of the flash takes a container: erased, programmed, read back and verified; a failure leaves it erased (R603). The answer is
0, or the step of R598 that failed. -/
def State.stage (s : State) (kind slot : Nat) (c : List Byte) : State × Nat :=
  let a := slotBase kind slot
  let s1 := s.flashErase a (slotSize kind)
  match s.verifyHead kind c with
  | 0 =>
    let s2 := s1.flashWrite a c
    match s2.verify kind (s2.slotImage kind slot) with
    | 0 => (s2, 0)
    | k => (s1, k)
  | k => (s1, k)

/-- IMG_STAGE (R603, R620). -/
def doImgStage (slot : Nat) (s : State) : State :=
  let c1 := s.mbCmd slot 1
  let kind := fld c1 0 2
  let img := fld c1 8 1
  let n := (s.mbCmd slot 3).toNat
  if s.pv.pfailLow then s
  else if kind = 0 ∨ slotSize kind < n then s.mbAnswer slot mbBadCmd
  else if s.dirEntry (kind - 1) % 2 = img then s.mbAnswer slot mbDenied
  else
    match s.mbRead slot (s.mbCmd slot 2).toNat n with
    | (s1, 0, c) =>
      match s1.stage kind img c with
      | (s2, 0) => s2.mbAnswer slot mbOk
      | (s2, k) => s2.mbAnswer slot mbVerify [(1, k)]
    | (s1, st, _) => s1.mbAnswer slot st

/-- The halves that are ACTIVE. -/
def State.activeHalves (s : State) : List Half := bothHalves.filter fun h => s.live (.half h)

/-- IMG_ACTIVATE of a packet image (R604). -/
def State.activateImage (s : State) (slot img : Nat) (sw : DWord) : State :=
  let hs := s.activeHalves
  if hs.any fun h => decide (s.imgState h ≠ 0) then s.mbAnswer slot mbBusy
  else
    let c := s.slotImage 2 img
    match s.verify 2 c with
    | 0 =>
      let s1 := hs.foldl (fun s h => s.loadBanks c h (1 - s.rfld (bHalf h) R.half_IMG_CTL 0 1)) s
      if sw.toNat < s1.leadDts.toNat + 64 then s1.mbAnswer slot mbEarly
      else
        let s2 := hs.foldl (fun s h => (s.setReg (bHalf h) R.half_IMG_SWITCH_AT sw).imgCtl h true false) s1
        if hs.any fun h => decide (s2.imgState h ≠ 1) then (hs.foldl (fun s h => s.imgCtl h false true) s2).mbAnswer slot mbArm
        else ((s2.updPv fun p => { p with imgPending := some img }).imgSettled).mbAnswer slot mbOk
    | k => s.mbAnswer slot mbVerify [(1, k)]

/-- IMG_ACTIVATE of firmware (R606): the response is given, and Privet requests RESET of its own unit 0. -/
def State.activateFirmware (s : State) (slot img : Nat) : State :=
  let s1 := (s.dirPut 0 (dirEnt (s.slotSvn 1 img) 2 true img)).mbAnswer slot mbOk
  let long (x : HubState) : HubState := { x with hbEnd := s1.ticks + 750000000, hbSeen := false, privet := .restarting }
  let s2 := { s1 with hubs := ⟨long s1.hubs.h0, long s1.hubs.h1⟩ }
  (s2.reqReset .privet (.privet 0)).dropMailbox s2.busySlots

/-- The halves that an operand names. -/
def namedHalves (m : Nat) : List Half := bothHalves.filter fun h => m.testBit h.val

/-- Control-core software of a flash slot is loaded into the halves named (R607): a status and its value. -/
def State.loadSoftware (s : State) (img halves : Nat) : State × Nat × Nat :=
  let c := s.slotImage 3 img
  match s.verify 3 c with
  | 0 =>
    let (s1, ok) := (namedHalves halves).foldl (fun acc h =>
      let (s1, ok) := acc.1.reloadCores c h
      (s1, acc.2 && ok)) (s, true)
    (s1.updPv fun p => { p with ccBuild := buildId c }, if ok then mbOk else mbRegion, 0)
  | k => (s, mbVerify, k)

/-- IMG_ACTIVATE (R604, R606, R607). -/
def doImgActivate (slot : Nat) (s : State) : State :=
  let c1 := s.mbCmd slot 1
  let img := fld c1 8 1
  if s.pv.pfailLow then s
  else
    match fld c1 0 2 with
    | 0 => s.mbAnswer slot mbBadCmd
    | 1 => s.activateFirmware slot img
    | 2 => s.activateImage slot img (s.mbCmd slot 4)
    | _ =>
      let (s1, st, k) := s.loadSoftware img (fld (s.mbCmd slot 5) 0 2)
      if st = mbOk then (s1.dirPut 2 (dirEnt (s1.slotSvn 3 img) 0 true img)).mbAnswer slot mbOk
      else s1.mbAnswer slot st (if st = mbVerify then [(1, k)] else [])

/-- CC_RELOAD (R607). -/
def doCcReload (slot : Nat) (s : State) : State :=
  let (s1, st, k) := s.loadSoftware (s.dirEntry 2 % 2) (fld (s.mbCmd slot 1) 0 2)
  s1.mbAnswer slot st (if st = mbVerify then [(1, k)] else [])

/-- IMG_CONFIRM (R608): TRIAL clears, and RAISE_SVN burns SVN_MIN of the kind up to the active slot's SVN. -/
def doImgConfirm (slot : Nat) (s : State) : State :=
  let c1 := s.mbCmd slot 1
  let kind := fld c1 0 2
  if s.pv.pfailLow then s
  else if kind = 0 then s.mbAnswer slot mbBadCmd
  else
    let e := s.dirEntry (kind - 1)
    let s1 := s.dirPut (kind - 1) (dirEnt (e >>> 32) (bits e 9 3) false (e % 2))
    let old := tget 0 s.pv.fuses.svnMin kind
    let new := satTo (e >>> 32) 64
    let s2 := if bit c1 16 then
        s1.updPv fun p => { p with fuses := { p.fuses with svnMin := tset 0 p.fuses.svnMin kind (if old < new then new else old) } }
      else s1
    s2.mbAnswer slot mbOk

/-- TFTP_STAGE (R603): while no control core runs, a container received on the management port is staged into the slot of its kind that
is not active. -/
def doTftpStage (c : List Byte) (s : State) : State :=
  let kind := hdrNum c 6 1
  let busy := s.busySlots.any fun j => mbExclusive (s.mbOp j)
  let nos := bothHalves.any fun h => s.live (.half h) && bit (s.reg (bCc h) R.cc_CC_CTL) 0
  if s.pvUp ∧ s.live (.privet 7) ∧ bit (s.reg (bPrivet 7) R.mgmt_MGMT_CFG) 0 ∧ ¬ nos ∧ ¬ busy ∧ s.pv.pfailLow = false ∧ 1 ≤ kind ∧ kind ≤ 3 ∧
      c.length ≤ slotSize kind then
    (s.stage kind (1 - s.dirEntry (kind - 1) % 2) c).1
  else s

/-! ### The other commands (R620) -/

/-- INFO. -/
def doInfo (slot : Nat) (s : State) : State :=
  s.mbAnswer slot mbOk [(1, s.pv.fwBuild), (2, s.pv.imgBuild), (3, s.pv.ccBuild), (4, s.pv.boots), (5, s.pv.start.refused),
    (6, s.pv.start.firstRefused <<< 16 ||| s.pv.start.firstReason)]

/-- STORE_COMMIT. -/
def doStoreCommit (slot : Nat) (s : State) : State :=
  if s.pv.pfailLow then s
  else
    match s.storeCommit with
    | some s1 => s1.mbAnswer slot mbOk [(1, s1.pv.storeSeq)]
    | none => s.mbAnswer slot mbFlash

/-- The log entries from a sequence on, at most `n`, up to the first that is not there. -/
def State.logFrom (s : State) (seq : Nat) : Nat → List (List Byte)
  | 0 => []
  | n + 1 =>
    match s.logEntry seq with
    | some e => e :: s.logFrom ((seq + 1) % 2 ^ 32) n
    | none => []

/-- LOG_READ. -/
def doLogRead (slot : Nat) (s : State) : State :=
  let n := (s.mbCmd slot 3).toNat
  if n = 0 ∨ 1024 < n then s.mbAnswer slot mbBadCmd
  else
    let es := s.logFrom (fld (s.mbCmd slot 1) 0 32) n
    match s.mbWrite slot (s.mbCmd slot 2).toNat (es.flatMap fun e => e) with
    | (s1, 0) => s1.mbAnswer slot mbOk [(1, es.length)]
    | (s1, st) => s1.mbAnswer slot st

/-- I2C_XFER: the device acknowledges or not, and gives the bytes read, which follow the written ones in the buffer. -/
def doI2c (slot : Nat) (acks : Bool) (given : List Byte) (s : State) : State :=
  let c3 := s.mbCmd slot 3
  let w := fld c3 0 9
  let r := fld c3 16 9
  let a := (s.mbCmd slot 2).toNat
  if 256 < w ∨ 256 < r then s.mbAnswer slot mbBadCmd
  else
    match s.mbRead slot a w with
    | (s1, 0, _) =>
      if acks then
        match s1.mbWrite slot (a + w) (given.take r) with
        | (s2, 0) => s2.mbAnswer slot mbOk [(1, (given.take r).length)]
        | (s2, st) => s2.mbAnswer slot st
      else s1.mbAnswer slot mbNak
    | (s1, st, _) => s1.mbAnswer slot st

/-- GRANT (R627). -/
def doGrant (slot : Nat) (s : State) : State :=
  (s.setRfld (bPrivet 8) (R.pcie_GRANT_PF + 8 * fld (s.mbCmd slot 1) 0 1) 0 3 (fld (s.mbCmd slot 2) 0 3)).mbAnswer slot mbOk

/-! ### Debug access (R628, R629) -/

/-- 60 s in ticks. -/
abbrev nonceTicks : Nat := 60 * 1500000000

/-- DEBUG_CHALLENGE: a nonce of 32 free bytes, valid for 60 s. -/
def doChallenge (slot : Nat) (s : State) : State :=
  let w (i : Nat) : DWord := Config.freeValue (s.fresh + i) 64
  let s1 := { s with fresh := s.fresh + 4 }
  let nonce := (List.range 4).flatMap fun i => leBytes 8 (w i).toNat
  (s1.updPv fun p => { p with nonce := some (nonce, s.ticks + nonceTicks) }).mbAnswer slot mbOk
    ((List.range 4).map fun i => (i + 1, (w i).toNat))

/-- The token verifies against the nonce in force: in modes 0 and 1, with the debug key programmed (R628, R629). -/
def State.tokenOk (s : State) (token : List Byte) : Bool :=
  match s.pv.nonce with
  | some (n, till) =>
    decide (s.ticks < till) && decide (s.pv.fuses.debugMode < 2) && s.pv.fuses.debugKey && decide (hdrNum token 4 4 ≤ 86400) &&
      decide (hdrNum token 104 8 = 0) && Config.tokenOk n token
  | none => false

/-- DEBUG_UNLOCK: the token's scopes are unlocked for its validity (R629). -/
def doUnlock (slot : Nat) (s : State) : State :=
  match s.mbRead slot (s.mbCmd slot 2).toNat 112 with
  | (s1, 0, token) =>
    if s1.tokenOk token then
      let m := hdrNum token 0 4 % 16
      let till := s1.ticks + hdrNum token 4 4 * secondTicks
      (s1.updPv fun p =>
        { p with unlocked := p.unlocked ||| m
                 scopeEnd := ((List.range 4).filter fun i => m.testBit i).foldl (fun t i => tput t i till) p.scopeEnd }).mbAnswer slot mbOk
    else (s1.updPv fun p => { p with nonce := none }).mbAnswer slot mbVerify
  | (s1, st, _) => s1.mbAnswer slot st

/-- A write of DEBUG_STAT.LOCK locks every scope (R629). -/
def State.lockDebug (s : State) : State := s.updPv fun p => { p with unlocked := 0, scopeEnd := [] }

/-- DEBUG_TOKEN_EXPIRE: a scope whose validity has ended is locked (R629). -/
def doTokenExpire (scope : Nat) (s : State) : State :=
  match tget? s.pv.scopeEnd scope with
  | some t =>
    if t ≤ s.ticks then s.updPv fun p => { p with unlocked := clrBit p.unlocked scope, scopeEnd := tdel p.scopeEnd scope } else s
  | none => s

/-! ### The management port (R624, R625) -/

/-- With AUTO_MOVE, HALF names the surviving half once the half it named is FENCED (R625). -/
def State.moveMgmt (s : State) : State :=
  let v := s.reg (bPrivet 7) R.mgmt_MGMT_CFG
  let h : Half := if bit v 2 then 1 else 0
  if bit v 3 ∧ s.ustate (.half h) = .fenced ∧ s.ustate (.half (other h)) ≠ .fenced then
    s.setRfld (bPrivet 7) R.mgmt_MGMT_CFG 2 1 (other h).val
  else s

/-- A frame is put into ring 1 of the half that MGMT_CFG names, where it has room (R624, R625). -/
def State.mgmtRing (s : State) (bytes : List Byte) : State :=
  let h : Half := if bit (s.reg (bPrivet 7) R.mgmt_MGMT_CFG) 2 then 1 else 0
  let c := s.ringCtl h 1
  if ringFits (ringUnits c) (ringTail c) (ringHead c) [bytes.length] then
    s.ringPut h 1 privReq { queue := 0, late := false, crossed := false, inPort := 0xFF, stamp := (s.dts h).toNat, bytes := bytes }
  else s

/-- MGMT_FRAME_RECEIVE: a good frame of 64 to 1,536 bytes goes to Privet, to ring 1, or to both (R625). -/
def doMgmtReceive (frame : List Byte) (s : State) : State :=
  let v := s.reg (bPrivet 7) R.mgmt_MGMT_CFG
  if bit v 0 ∧ s.live (.privet 7) ∧ 64 ≤ frame.length ∧ frame.length ≤ 1536 ∧ fcsGood frame then
    let bytes := frame.take (frame.length - 4)
    let s1 := s.moveMgmt
    let toPrivet (s : State) : State := s.updPv fun p => { p with mgmtIn := p.mgmtIn ++ [bytes] }
    if beNat (bytes.take 6) = 0xFFFFFFFFFFFF then (toPrivet s1).mgmtRing bytes
    else if beNat (bytes.take 6) = fld v 16 48 then toPrivet s1
    else s1.mgmtRing bytes
  else s

/-- The halves whose ring 2 holds a record. -/
def State.mgmtReady (s : State) : List Half :=
  bothHalves.filter fun h => decide (ringHead (s.ringCtl h 2) ≠ ringTail (s.ringCtl h 2))

/-- MGMT_FRAME_TRANSMIT: the management MAC sends the next record of a ring 2, and TAIL passes it; a pad is passed alone. Which half's
ring comes first is free (R624). -/
def doMgmtTransmit (s : State) : State :=
  if bit (s.reg (bPrivet 7) R.mgmt_MGMT_CFG) 0 ∧ s.live (.privet 7) then
    match s.mgmtReady with
    | [] => s
    | h :: rest =>
      let (s0, g) := if rest.isEmpty then (s, h) else (s.used, if (s.free 1).getLsbD 0 then (1 : Half) else 0)
      let c := s0.ringCtl g 2
      let (s1, bs, err) := s0.hbmRead g privReq (s0.ringBase g 2 + 32 * ringTail c) 32
      if err then s1
      else
        let units := 1 + (bits (leNat (bs.take 8)) 48 14 + 31) / 32
        s1.setRfld (bCc g) (R.cc_RING_CTL + 64) 44 20 ((ringTail c + units) % ringUnits c)
  else s

/-! ### The commands -/

/-- INFO (R620). -/
def execPrivetInfo (slot : Fin 4) (s : State) : Out := .next (if s.mbRuns slot.val 1 then doInfo slot.val s else s)

/-- IMG_STAGE (R603). -/
def execImgStage (slot : Fin 4) (s : State) : Out := .next (if s.mbRuns slot.val 2 then s.orWait (doImgStage slot.val) else s)

/-- IMG_ACTIVATE (R604, R606, R607). -/
def execImgActivate (slot : Fin 4) (s : State) : Out := .next (if s.mbRuns slot.val 3 then doImgActivate slot.val s else s)

/-- IMG_CONFIRM (R608). -/
def execImgConfirm (slot : Fin 4) (s : State) : Out := .next (if s.mbRuns slot.val 4 then doImgConfirm slot.val s else s)

/-- STORE_COMMIT (R614). -/
def execStoreCommit (slot : Fin 4) (s : State) : Out := .next (if s.mbRuns slot.val 5 then doStoreCommit slot.val s else s)

/-- LOG_READ (R616). -/
def execLogRead (slot : Fin 4) (s : State) : Out := .next (if s.mbRuns slot.val 6 then s.orWait (doLogRead slot.val) else s)

/-- I2C_XFER (R620). -/
def execI2cXfer (slot : Fin 4) (acks : Bool) (bytes : List Byte) (s : State) : Out :=
  .next (if s.mbRuns slot.val 7 then s.orWait (doI2c slot.val acks bytes) else s)

/-- GRANT (R627). -/
def execGrant (slot : Fin 4) (s : State) : Out := .next (if s.mbRuns slot.val 8 then doGrant slot.val s else s)

/-- DEBUG_CHALLENGE (R629). -/
def execDebugChallenge (slot : Fin 4) (s : State) : Out := .next (if s.mbRuns slot.val 9 then doChallenge slot.val s else s)

/-- DEBUG_UNLOCK (R629). -/
def execDebugUnlock (slot : Fin 4) (s : State) : Out := .next (if s.mbRuns slot.val 0xA then s.orWait (doUnlock slot.val) else s)

/-- CC_RELOAD (R607). -/
def execCcReload (slot : Fin 4) (s : State) : Out := .next (if s.mbRuns slot.val 0xB then doCcReload slot.val s else s)

/-- MB_GO (R619). -/
def execMbGo (a : Agent) (slot : Fin 4) (s : State) : Out := .next (s.mbGo a slot.val)

/-- DEBUG_LOCK (R629). -/
def execDebugLock (a : Agent) (s : State) : Out := .next (if s.agentReach a (.privet 9) then s.lockDebug else s)

/-- DEBUG_TOKEN_EXPIRE (R629). -/
def execDebugTokenExpire (scope : Fin 4) (s : State) : Out := .next (doTokenExpire scope.val s)

/-- TFTP_STAGE (R603). -/
def execTftpStage (container : List Byte) (s : State) : Out := .next (doTftpStage container s)

/-- MGMT_FRAME_RECEIVE (R625). -/
def execMgmtFrameReceive (bytes : List Byte) (s : State) : Out := .next (s.orWait (doMgmtReceive bytes))

/-- MGMT_FRAME_TRANSMIT (R624). -/
def execMgmtFrameTransmit (s : State) : Out := .next (s.orWait doMgmtTransmit)

end Sys2Proof.Machine
end

