-- ==== Sys2Proof/Machine/Sensors.lean ====
section
/-! DEFINITION. Sensors, rails, clock monitors and droop (R617, R618, R632–R636, R640–R645), self-managed power (R638), and PFAIL_N
(R642, R643). -/

namespace Sys2Proof.Machine

/-- Neither reset input is low (R646). -/
def State.outOfReset (s : State) : Bool := !s.pv.porLow && !s.pv.sysLow

/-! ### Temperature (R617, R618, R644, R645) -/

/-- SENSE_TEMP_n. -/
def State.tempReg (s : State) (n : Nat) : DWord := s.reg (bPrivet 5) (R.sense_SENSE_TEMP + 8 * n)

/-- NOW of a sensor, in 0.125 °C. -/
def State.tempNow (s : State) (n : Nat) : Int := signed 16 (fld (s.tempReg n) 0 16)

/-- THERM_CTL.SHUTDOWN. -/
def State.shutdown (s : State) : Bool := bit (s.reg bDevice R.device_THERM_CTL) 9

/-- THERM_N is low (R644, R645). -/
def State.thermLow (s : State) : Bool :=
  s.shutdown || (bit (s.reg bDevice R.device_THERM_CTL) 0 &&
    (List.range 64).any fun n => decide (signed 16 (s.rfld (bPrivet 5) R.sense_SENSE_WARN 0 16) ≤ s.tempNow n))

/-- The notification of R560 for an event of no half. -/
def State.notifyDevice (s : State) : State := if s.ustate (.hub 0) = .active then s.notifyHub 0 else s.notifyHub 1

/-- A sensor's sample enters NOW and MAX (R617). -/
def State.takeTemp (s : State) (n : Nat) (now : Int) : State :=
  let v := s.tempReg n
  let max := if signed 16 (fld v 48 16) < now then unsigned 16 now else fld v 48 16
  s.setReg (bPrivet 5) (R.sense_SENSE_TEMP + 8 * n) (setFld (setFld v 0 16 (unsigned 16 now)) 48 16 max)

/-- The alarm of R618: set where NOW reaches SENSE_WARN, with a notification as it rises. -/
def State.tempAlarm (s : State) (now : Int) : State :=
  if signed 16 (s.rfld (bPrivet 5) R.sense_SENSE_WARN 0 16) ≤ now then
    if bit (s.reg (bPrivet 5) R.sense_SENSE_ALARM) 0 then s else (s.setRfld (bPrivet 5) R.sense_SENSE_ALARM 0 1 1).notifyDevice
  else s

/-- The shutdown of R644 at 125.0 °C. -/
def State.tempLimit (s : State) (n : Nat) (now : Int) : State :=
  if 1000 ≤ now ∧ s.shutdown = false then
    (s.setRfld bDevice R.device_THERM_CTL 16 6 n).fault .device F.THERMAL_SHUTDOWN
  else s

/-- While SHUTDOWN is set, how long every sensor has read 110.0 °C or less (R645). -/
def State.tempCool (s : State) : State :=
  let cool := (List.range 64).all fun n => decide (s.tempNow n ≤ 880)
  s.updPv fun p =>
    { p with coolSince := if s.shutdown && cool then (if p.coolSince.isSome then p.coolSince else some s.ticks) else none }

/-- SENSOR_SAMPLE (R609, R617, R618, R644). -/
def doSensorSample (n : Nat) (raw : BitVec 16) (s : State) : State :=
  if s.outOfReset then
    let now := signed 16 (unsigned 16 (raw.toInt + s.calEff (2048 + n)))
    (((s.takeTemp n now).tempAlarm now).tempLimit n now).tempCool
  else s

/-- THERMAL_RELEASE (R645). -/
def doThermalRelease (s : State) : State :=
  match s.pv.coolSince with
  | some t =>
    if s.shutdown ∧ t + secondTicks ≤ s.ticks then
      (s.setRfld bDevice R.device_THERM_CTL 9 1 0).updPv fun p => { p with coolSince := none }
    else s
  | none => s

/-- A read of SENSE_TEMP_n sets MAX to NOW (R617). -/
def State.tempRead (s : State) (n : Nat) : State :=
  let v := s.tempReg n
  s.setReg (bPrivet 5) (R.sense_SENSE_TEMP + 8 * n) (setFld v 48 16 (fld v 0 16))

/-! ### Rails (R617, R640, R641) -/

/-- Monitors whose rail has a current sense (R663). -/
def railSenses (m : Nat) : Bool := decide (m < 12) && decide (m % 6 ≠ 2) && decide (m % 6 ≠ 5)

/-- The sample lies outside the limits of its enabled monitor (R609, R640). -/
def State.railOut (s : State) (m v : Nat) : Bool :=
  let lim := s.reg bDevice (R.device_RAIL_LIMIT + 8 * m)
  let e : Int := (v : Int) * (2000 + s.calEff (2112 + m))
  bit lim 0 && (decide (e < (fld lim 32 16 : Int) * 2000) || decide ((fld lim 16 16 : Int) * 2000 < e))

/-- RAIL_m after a sample. The effective voltage between two steps of 0.1 mV reads as one of them: a free value. -/
def State.railShow (s : State) (m v cur : Nat) : State :=
  let e := ((v : Int) * (2000 + s.calEff (2112 + m))).toNat
  let up := if e % 2000 = 0 then 0 else (s.free 1).toNat
  let shown := satTo (e / 2000 + up) 65535
  s.used.setReg (bPrivet 5) (R.sense_RAIL + 8 * m) (BitVec.ofNat 64 ((if railSenses m then cur else 0) <<< 32 ||| shown))

/-- The tolerance of a rail below its nominal voltage, in percent (R663). -/
def railTol (m : Nat) : Nat := if m = 5 ∨ m = 11 ∨ m = 14 ∨ m = 15 then 5 else if m = 13 then 2 else 3

/-- A sample lies below the DC limit of its rail (R656, R663). -/
def State.railUnder (s : State) (m v : Nat) : Bool :=
  decide ((v : Int) * (2000 + s.calEff (2112 + m)) * 100 < ((railNominal m * (100 - railTol m) * 2000 : Nat) : Int))

/-- The fatal fault of a rail (R640). -/
def State.brownout (s : State) (m : Nat) : State :=
  if m < 6 then s.fault (.half 0) F.BROWNOUT else if m < 12 then s.fault (.half 1) F.BROWNOUT else s.fault .device F.BROWNOUT_SHARED

/-- RAIL_SAMPLE (R640): the second consecutive sample outside the limits opens the record. -/
def doRailSample (m v cur : Nat) (s : State) : State :=
  if s.outOfReset then
    let out := s.railOut m v
    let again := out && decide (tget 0 s.pv.railBad m = 1)
    let s1 := (s.railShow m v cur).updPv fun p =>
      { p with railBad := tset 0 p.railBad m (b2n out)
               railLow := if s.railUnder m v then (if p.railLow.contains m then p.railLow else p.railLow ++ [m]) else p.railLow.filter (· ≠ m) }
    if again then s1.brownout m else s1
  else s

/-! ### Clocks (R632, R633) -/

/-- CLOCK_MONITOR_WINDOW (R632): the cycles of CK_CORE and CK_CTL in 1,024 DTS ticks. -/
def doClockWindow (h : Half) (core ctl : Nat) (s : State) : State :=
  if s.outOfReset ∧ (core < 930 ∨ 1025 < core ∨ ctl < 511 ∨ 513 < ctl) then s.fault (.half h) F.CLOCK_FAULT else s

/-- The DTS branch and CK_CORE stop (R633). -/
def State.stopClocks (s : State) : State := { s with time := s.time.both fun _ t => { t with counting := false } }

/-- The fault of a lost root clock, with Privet's hold of FAULT_N (R633). -/
def State.rootLost (s : State) (code : Nat) : State :=
  if s.ustate .device = .active then
    let s1 := s.stopClocks.fault .device code
    if s1.pvUp then s1.setRfld bDevice R.device_FAULTN_CTL 32 1 1 else s1
  else s

/-- REFCLK_LOSS (R632, R633). -/
def doRefclkLoss (s : State) : State :=
  if s.pv.refclk then (s.updPv fun p => { p with refclk := false }).rootLost F.REFCLK_LOSS else s

/-- PLL_UNLOCK (R632, R633). -/
def doPllUnlock (s : State) : State :=
  if s.pv.rootLock then (s.updPv fun p => { p with rootLock := false }).rootLost F.PLL_UNLOCK else s

/-! ### Droop (R634, R636) -/

/-- DROOP_STAT of a half. -/
def State.droopReg (s : State) (h : Half) : DWord := s.reg (bHalf h) R.half_DROOP_STAT

/-- The stretch level of a half. -/
def State.droopLevel (s : State) (h : Half) : Nat := fld (s.droopReg h) 0 3

/-- The cycles that a half's fall of the stretch level has counted (R634). -/
def State.setDroopFor (s : State) (h : Half) (n : Nat) : State := s.updPv fun p => { p with droopFor := p.droopFor.upd h fun _ => n }

/-- T of a half in mV (R634, R636). -/
def State.droopT (s : State) (h : Half) : Nat :=
  let v := s.rfld (bHalf h) R.half_DROOP_CFG 0 8
  if v < 20 then 20 else if 60 < v then 60 else v

/-- The band of a droop of `mv` mV below the nominal voltage (R634). -/
def State.droopBand (s : State) (h : Half) (mv : Nat) : Nat :=
  if mv < s.droopT h then 0 else if 30 ≤ mv - s.droopT h then 4 else (mv - s.droopT h) / 10 + 1

/-- The level rises to a deeper band; PEAK and DROOP_EVENTS follow (R636). -/
def State.droopRises (s : State) (h : Half) (level : Nat) : State :=
  let v := s.droopReg h
  let s1 := (s.setDroopFor h 0).setReg (bHalf h) R.half_DROOP_STAT
    (setFld (setFld v 0 3 level) 8 3 (if fld v 8 3 < level then level else fld v 8 3))
  if s.droopLevel h = 0 then s1.bump (bHalf h) R.half_DROOP_EVENTS else s1

/-- DROOP_RISE: a point of VDD_CORE droops by `mv` mV. In a deeper band the level rises; within 5 mV of the lower bound of the band of the
level in force, or in it, the count of the level's fall starts anew (R634). -/
def doDroopRise (h : Half) (mv : Nat) (s : State) : State :=
  let level := s.droopLevel h
  if level < s.droopBand h mv then s.droopRises h (s.droopBand h mv)
  else if s.droopT h + 10 * level < mv + 15 then s.setDroopFor h 0
  else s

/-- DROOP_FALL: the level falls by one after 256 cycles in which the droop has stayed short of the level's band (R634). -/
def doDroopFall (h : Half) (s : State) : State :=
  if 0 < s.droopLevel h ∧ 256 ≤ s.pv.droopFor.get h then
    (s.setDroopFor h 0).setRfld (bHalf h) R.half_DROOP_STAT 0 3 (s.droopLevel h - 1)
  else s

/-- One CK_CORE cycle of the count of R634. -/
def State.droopCycle (s : State) (h : Half) : State :=
  if 0 < s.droopLevel h ∧ s.pv.droopFor.get h < 256 then s.setDroopFor h (s.pv.droopFor.get h + 1) else s

/-- A read of DROOP_STAT sets PEAK to LEVEL (R636). -/
def State.droopRead (s : State) (h : Half) : State := s.setRfld (bHalf h) R.half_DROOP_STAT 8 3 (s.droopLevel h)

/-! ### Self-managed power (R50, R638) -/

/-- The deepest level a kind enters by itself (R638). -/
def deepestOf : UnitId → Nat
  | .core _ _ _ _ => 1
  | .spare _ _ => 2
  | .cluster _ _ _ => 1
  | .tile _ _ => 1
  | .table _ _ => 1
  | .assoc _ => 1
  | .buffer _ => 1
  | .sched _ => 1
  | .locks _ => 1
  | .hbmc _ _ => 2
  | _ => 0

/-- AUTO_EN and DEEPEST of a unit and its ancestors allow the level (R50). -/
def State.powerAllows (s : State) (u : UnitId) (lvl : Nat) : Bool :=
  (u :: ancestors u).all fun v =>
    let r := s.reg (ownBlk v) R.ucb_POWER_STATE
    bit r 0 && decide (lvl ≤ fld r 4 2)

/-- A thread of a core could issue (R638). -/
def State.mayIssue (s : State) (h : Half) (t : TileIx) (n : Fin 128) : Bool :=
  let x := s.thread (.pk h t n)
  decide (x.phase = .issuing) && !x.halted && x.task.isSome

/-- The unit has no work that keeps it in RUN (R638). The times it must have been idle are the environment's. -/
def State.powerIdle (s : State) (u : UnitId) (sleep : Bool) : Bool :=
  match u with
  | .spare _ _ => decide (s.ustate u = .reset) && !s.entering u
  | .core h t c k => s.live u && !(coreThreads c k).any fun n => s.mayIssue h t n
  | .cluster h t c => s.live u && !(s.tile h t).responses.any fun r => decide (r.unit.cluster? = some c.val)
  | .tile h t => s.live u && (s.tile h t).scans.isEmpty
  | .hbmc h st => s.live u && s.hbmQuiet h st && (if sleep then s.hbmUnasked h st else s.hbmAllDown h st)
  | _ => s.live u

/-- POWER_GATE_ENTER: a unit that is idle enters GATED or SLEEP (R638); SP enters SLEEP alone. -/
def doPowerGate (u : UnitId) (sleep : Bool) (s : State) : State :=
  let lvl := if sleep then 2 else 1
  let kindOk : Bool := match u with
    | .spare _ _ => sleep
    | _ => true
  if kindOk ∧ lvl ≤ deepestOf u ∧ s.powerAllows u lvl ∧ s.powerIdle u sleep ∧ (s.unit u).power < lvl then
    s.updUnit u fun d => { d with power := lvl }
  else s

/-- POWER_WAKE: a unit in GATED or SLEEP wakes (R638). -/
def doPowerWake (u : UnitId) (s : State) : State :=
  if (s.unit u).power = 1 ∨ (s.unit u).power = 2 then s.updUnit u fun d => { d with power := 0 } else s

/-! ### PFAIL_N (R642, R643) -/

/-- PFAIL_ASSERT: the latch and the count; Privet, where it runs, suspends erases, commits the store, writes its log buffer and sets
PFAIL_DONE. -/
def doPfailAssert (s : State) : State :=
  if s.pv.pfailLow then s
  else
    let s1 := s.updPv fun p => { p with pfailLow := true }
    if s.outOfReset then
      let v := s1.reg bDevice R.device_PWR_STAT
      let s2 := s1.setReg bDevice R.device_PWR_STAT (setFld (setFld v 1 1 1) 48 16 (satTo (fld v 48 16 + 1) 0xFFFF))
      if s2.pvUp then
        (((s2.updPv fun p => { p with suspended := true }).commitStore).flushLog).setRfld bDevice R.device_PWR_STAT 2 1 1
      else s2
    else s1

/-- PFAIL_DEASSERT: PFAIL_DONE clears, suspended erases resume, and the directory writes that waited are made (R643). -/
def doPfailDeassert (s : State) : State :=
  if s.pv.pfailLow then
    ((s.updPv fun p => { p with pfailLow := false, suspended := false }).setRfld bDevice R.device_PWR_STAT 2 1 0).dirFlush
  else s

/-! ### The commands -/

/-- SENSOR_SAMPLE (R617). -/
def execSensorSample (n : Fin 64) (v : BitVec 16) (s : State) : Out := .next (doSensorSample n.val v s)

/-- SENSE_TEMP_READ (R617). -/
def execSenseTempRead (a : Agent) (n : Fin 64) (s : State) : Out := .next (if s.agentReach a (.privet 5) then s.tempRead n.val else s)

/-- THERMAL_RELEASE (R645). -/
def execThermalRelease (s : State) : Out := .next (doThermalRelease s)

/-- RAIL_SAMPLE (R640). -/
def execRailSample (n : Fin 16) (voltage current : BitVec 16) (s : State) : Out :=
  .next (doRailSample n.val voltage.toNat current.toNat s)

/-- CLOCK_MONITOR_WINDOW (R632). -/
def execClockMonitorWindow (h : Half) (core ctl : Nat) (s : State) : Out := .next (doClockWindow h core ctl s)

/-- REFCLK_LOSS (R633). -/
def execRefclkLoss (s : State) : Out := .next (doRefclkLoss s)

/-- PLL_UNLOCK (R632). -/
def execPllUnlock (s : State) : Out := .next (doPllUnlock s)

/-- DROOP_RISE (R634). -/
def execDroopRise (h : Half) (droop : Nat) (s : State) : Out := .next (doDroopRise h droop s)

/-- DROOP_FALL (R634). -/
def execDroopFall (h : Half) (s : State) : Out := .next (doDroopFall h s)

/-- DROOP_STAT_READ (R636). -/
def execDroopStatRead (a : Agent) (h : Half) (s : State) : Out := .next (if s.agentReach a (.half h) then s.droopRead h else s)

/-- POWER_GATE_ENTER (R638). -/
def execPowerGateEnter (u : UnitId) (sleep : Bool) (s : State) : Out := .next (doPowerGate u sleep s)

/-- POWER_WAKE (R638). -/
def execPowerWake (u : UnitId) (s : State) : Out := .next (doPowerWake u s)

/-- PFAIL_ASSERT (R642). -/
def execPfailAssert (s : State) : Out := .next (doPfailAssert s)

/-- PFAIL_DEASSERT (R643). -/
def execPfailDeassert (s : State) : Out := .next (doPfailDeassert s)

end Sys2Proof.Machine
end

