-- ==== Sys2Proof/Machine/TimeCmds.lean ====
section
/-! DEFINITION. The commands of device time (R72–R93): the alignment of the halves over Ford, loads, slews, the TSYNC pins and the PTP
registers. -/

namespace Sys2Proof.Machine

/-! ### Alignment of the halves (R74, R75) -/

/-- The leader sends its DTS over Ford (R74). The message is held as the leader's DTS less the elapsed ticks of the run, so that the
Ford delay, which the follower removes, is removed exactly. -/
def doAlignSend (s : State) : State :=
  let h := s.leader
  if s.fordUp h then
    s.updFord (other h) fun f => { f with timeIn := f.timeIn ++ [s.leadDts - BitVec.ofNat 64 s.ticks] }
  else s

/-- What the follower does with a measured difference of its DTS from the leader's (R75). -/
def State.aligned (s : State) (h : Half) (d : Int) : State :=
  let off : Int := if h = 1 then d else -d
  let s1 := { s with time := s.time.both fun _ t => { t with offset := off } }
  let s2 := s1.updTime h fun t =>
    { t with
      skew := d
      slewing := if 2 < d.natAbs then true else t.slewing && decide (1 < d.natAbs)
      followGrid := if 2 < d.natAbs ∧ t.slewing = false then 0 else t.followGrid }
  let s3 := if 2 < d.natAbs then
      s2.fault (.ford h) F.DTS_SKEW
    else s2
  if 64 < d.natAbs then s3.fault (.half h) F.DTS_SKEW_FATAL else s3

/-- The follower receives the oldest alignment message, compares it with its own DTS, and takes the leader's PTP time (R75, R88). While its
peer is lost it runs free, and the message has no effect (R532). -/
def doAlignReceive (s : State) : State :=
  let h := other s.leader
  match (s.ford.get h).timeIn with
  | [] => s
  | v :: rest =>
    if (s.ford.get h).lost then s.updFord h fun f => { f with timeIn := rest } else
    let lead := v + BitVec.ofNat 64 s.ticks
    let d : Int := ((s.dts h).toNat : Int) - (lead.toNat : Int)
    let l := s.time.get s.leader
    let s1 := (s.updFord h fun f => { f with timeIn := rest }).updTime h fun t => { t with ptpSec := l.ptpSec, ptpNs := l.ptpNs, ptpFrac := l.ptpFrac }
    s1.aligned h d

/-! ### The commands -/

/-- DTS_NOW_READ (R73). -/
def execDtsNowRead (a : Agent) (h : Half) (s : State) : Out := .next (if s.agentReach a (.half h) then doDtsNowRead a h s else s)

/-- DTS_ALIGN_SEND (R74). -/
def execDtsAlignSend (s : State) : Out := .next (doAlignSend s)

/-- DTS_ALIGN_RECEIVE (R75). -/
def execDtsAlignReceive (s : State) : Out := .next (doAlignReceive s)

/-- LOAD_NOW (R78, R79). -/
def execLoadNow (a : Agent) (s : State) : Out := .next (if s.agentReach a .device then doLoadNow s else s)

/-- LOAD_ARM (R78, R79). -/
def execLoadArm (a : Agent) (s : State) : Out := .next (if s.agentReach a .device then doLoadArm s else s)

/-- TSYNC_IN_EDGE (R84). -/
def execTsyncInEdge (rising : Bool) (s : State) : Out := .next (doTsyncIn rising s)

/-- TSYNC_OUT_RISE (R83). -/
def execTsyncOutRise (s : State) : Out := .next (doTsyncRise s)

/-- TSYNC_OUT_FALL (R83). -/
def execTsyncOutFall (s : State) : Out := .next (doTsyncFall s)

/-- DTS_SLEW_WRITE (R81). -/
def execDtsSlewWrite (a : Agent) (dir : Bool) (count : BitVec 32) (s : State) : Out :=
  .next (if s.agentReach a .device then doSlewWrite dir count.toNat s else s)

/-- PTP_SET (R89). -/
def execPtpSet (a : Agent) (s : State) : Out := .next (if s.agentReach a .device then doPtpSet s else s)

/-- PTP_ADD (R89). -/
def execPtpAdd (a : Agent) (s : State) : Out := .next (if s.agentReach a .device then doPtpAdd s else s)

/-- PTP_SUB (R89). -/
def execPtpSub (a : Agent) (s : State) : Out := .next (if s.agentReach a .device then doPtpSub s else s)

/-- PTP_NS_READ (R89). -/
def execPtpNsRead (a : Agent) (s : State) : Out := .next (if s.agentReach a .device then doPtpNsRead s else s)

/-- PTP_TXTS_B_READ (R93). -/
def execPtpTxtsBRead (a : Agent) (p : PortIx) (s : State) : Out := .next (if s.agentReach a (.port p) then s.popTxts p else s)

end Sys2Proof.Machine
end

