-- ==== Sys2Proof/Machine/Csr.lean ====
section
/-! DEFINITION. The CSR space (R18–R22, R33–R53): what every register reads as, the effects of a read, the staging view, and what a write
does, register by register. The active view of a register that holds a value of its own lies in `csr`; every other register is computed
here from the state that it shows. -/

namespace Sys2Proof.Machine

/-! ### Masks -/

/-- The bits of the fields whose type has a property. -/
def fieldMask (p : FTy → Bool) (fs : List FieldRow) : DWord :=
  BitVec.ofNat 64 (fs.foldl (fun m f => if p f.ty then m ||| (2 ^ f.len - 1) <<< f.lsb else m) 0)

/-- The bits that a read returns: every field but the write-only ones (R19, R22). -/
def readMask (fs : List FieldRow) : DWord := fieldMask (fun t => decide (t ≠ .wo)) fs

/-- The bits that a write sets: RW fields, and RWL fields in START (R19, R21). -/
def writeMask (start : Bool) (fs : List FieldRow) : DWord := fieldMask (fun t => decide (t = .rw) || (start && decide (t = .rwl))) fs

/-- The bits that a write of 1 clears. -/
def clearMask (fs : List FieldRow) : DWord := fieldMask (fun t => decide (t = .w1c)) fs

/-- Every bit of a register. -/
abbrev allBits : DWord := 0xFFFFFFFFFFFFFFFF

/-- The bits of the lower half of a register. -/
abbrev lowBits : DWord := 0x00000000FFFFFFFF

/-- The bits of the upper half of a register. -/
abbrev highBits : DWord := 0xFFFFFFFF00000000

/-- A write covers the lower half of its register. -/
def coversLow (m : DWord) : Bool := m &&& lowBits != 0

/-- A write covers the upper half of its register. -/
def coversHigh (m : DWord) : Bool := m &&& highBits != 0

/-! ### Registers that show other state -/

/-- CHILD_MAP (R46): every member, child and unit but the PRIVET units that are not present (R591). -/
def State.childMap (s : State) (u : UnitId) : Nat :=
  match u with
  | .group => s.rfld (ownBlk .group) R.group_GROUP_CFG 0 16 ||| 1 <<< s.rfld (ownBlk .group) R.group_GROUP_CFG 16 4
  | .device => 0x3FFF
  | .half _ => 0xFFFFFFFF
  | .tile _ _ => 0x1F
  | .cluster _ _ _ => 0xF
  | _ => 0

/-- The worst class among the open records of the group's other members, as software has told it (R537). -/
def State.remoteWorst (s : State) : Nat :=
  (List.range 16).foldl (fun m d =>
    let w := s.rfld (ownBlk .group) (R.group_REMOTE_SUMMARY + 8 * d) 32 2
    if bit (s.reg (ownBlk .group) R.group_GROUP_CFG) d ∧ m < w then w else m) 0

/-- The unit whose state, power and injection a GROUP shows as its own (R536, R537). -/
def shownUnit (u : UnitId) : UnitId := if u = .group then .device else u

/-- The unit control block of a unit as it reads (R40–R53). -/
def State.viewUcb (s : State) (u : UnitId) (off : Nat) : DWord :=
  let v := shownUnit u
  let d := s.unit v
  let r := s.reg (ownBlk u) off
  if off = R.ucb_UNIT_ID then
    let idx := if u = .device then s.memberNo else unitIndex u
    BitVec.ofNat 64 (s.physOf u <<< 40 ||| 0xB0 <<< 32 ||| idx <<< 16 ||| unitLevel u <<< 12 ||| unitKind u)
  else if off = R.ucb_UNIT_STATE then
    BitVec.ofNat 64 (d.cause.toNat <<< 32 ||| (if u = .device then s.dev.devState.code else 0) <<< 16 ||| d.state.code)
  else if off = R.ucb_CHILD_MAP then BitVec.ofNat 64 (s.childMap u)
  else if off = R.ucb_COMMIT then
    BitVec.ofNat 64 (b2n (s.unit u).armed <<< 49 ||| b2n (s.commitPending u) <<< 48 ||| (s.unit u).gen.toNat <<< 16)
  else if off = R.ucb_FAULT_SUMMARY then
    let w := if u = .group ∧ s.worst .device < s.remoteWorst then s.remoteWorst else s.worst v
    BitVec.ofNat 64 (w <<< 32 ||| d.faultCount)
  else if off = R.ucb_POWER_STATE then BitVec.ofNat 64 (d.power <<< 8) ||| s.reg (ownBlk v) off
  else if off = R.ucb_INJECT then BitVec.ofNat 64 (b2n d.invPend <<< 49) ||| s.reg (ownBlk v) off
  else if off = R.ucb_LAST_COMMIT_STAMP then (s.unit u).stamp
  else if off = R.ucb_CHILD_MAP_HI then
    match u with
    | .half _ => allBits
    | _ => 0
  else r

/-- Step 13 is reached and Privet waits for NOS_READY (R648). -/
def State.waitsNos (s : State) : Bool :=
  decide (s.dev.devState = .start) && decide (s.rfld bDevice R.device_START_STAT 0 8 = 13) &&
    bit (s.reg bDevice R.device_START_CTL) 0 && !s.pv.start.nosReady

/-- The DEVICE block as it reads (R78–R89, R588, R641–R648). -/
def State.viewDevice (s : State) (off : Nat) : DWord :=
  let r := s.reg bDevice off
  if off = R.device_DTS_CTL then r ||| BitVec.ofNat 64 (b2n s.dev.loadPend)
  else if off = R.device_DTS_SLEW then r ||| BitVec.ofNat 64 (b2n (decide (0 < s.slewCount)) <<< 49)
  else if off = R.device_PTP_NS then s.ptpNsReg
  else if off = R.device_FAULTN_CTL then r ||| BitVec.ofNat 64 (b2n s.faultLow <<< 34 ||| b2n s.faultHw <<< 33)
  else if off = R.device_START_STAT then
    r ||| BitVec.ofNat 64 (b2n (decide (s.dev.devState = .start) && !s.pv.start.dirWait.isEmpty) <<< 9 ||| b2n s.waitsNos <<< 8)
  else if off = R.device_PWR_STAT then r ||| BitVec.ofNat 64 (b2n s.pv.pfailLow)
  else r

/-- OFFSET of DTS_ALIGN, saturating, in two's complement (R674). -/
def offset8 (i : Int) : Nat := unsigned 8 (clampInt (-128) 127 i)

/-- The state code and the remaining hold of a port (R469). -/
def State.holdStat (s : State) (h : Half) (lp : Nat) : DWord :=
  let c := match s.hold h lp with
    | .up => 0
    | .hold => 1
    | .flushing => 2
    | .empty => 3
  let left := if c = 1 then (tget 0 (s.buf.get h).holdEnd lp - s.ticks + usTicks - 1) / usTicks else 0
  BitVec.ofNat 64 (c <<< 32 ||| left % 65536)

/-- EXP_STAT as it reads (R431). -/
def ExpState.stat (x : ExpState) : DWord :=
  BitVec.ofNat 64 (x.reqs.length <<< 48 ||| b2n x.linkUp <<< 2 ||| b2n x.aligned <<< 1 ||| b2n x.locked)

/-- The HALF block as it reads. -/
def State.viewHalf (s : State) (h : Half) (row : RegRow) (i : Nat) : DWord :=
  let t := s.time.get h
  let r := s.reg (bHalf h) (row.off + row.stride * i)
  if row.off = R.half_DTS_NOW then t.dts
  else if row.off = R.half_DTS_ALIGN then
    BitVec.ofNat 64 (b2n t.valid <<< 41 ||| b2n (decide (s.leader = h)) <<< 40 ||| t.skewFaults <<< 16 ||| offset8 t.offset)
  else if row.off = R.half_BRAMBLE_CFG then setFld r 48 16 (s.inertCount h)
  else if row.off = R.half_EXP_STAT then (s.exp.get h).stat
  else if row.off = R.half_HOLD_STAT_V then s.holdStat h (64 + i)
  else r

/-- The code of THREAD_CTL.STATE (R377). A thread that a full queue or a busy unit stalls is an issuing thread of the model. -/
def Thread.stateCode (x : Thread) : Nat :=
  if x.halted then 4
  else match x.phase with
    | .free => 0
    | .issuing => 1
    | .waitev _ _ _ _ => 2
    | .lock _ _ _ => 3
    | .twait _ => 3
    | .post _ _ => 3

/-- THREAD_CTL of a thread as it reads: PC is valid while the thread is halted, and a free value otherwise (R377). -/
def State.threadCtl (s : State) (th : ThreadRef) (r : DWord) : DWord :=
  let x := s.thread th
  let pc := if x.halted then x.pc.toNat else (s.free 17).toNat
  setFld (setFld r 8 3 (if s.stalled th && !x.halted then 3 else x.stateCode)) 32 17 pc

/-- The hub's block as an agent reads it (R554, R556, R586). -/
def State.viewHub (s : State) (a : Agent) (h : Half) (row : RegRow) (i : Nat) : DWord :=
  let x := s.hubs.get h
  let r := s.reg (bHub h) (row.off + row.stride * i)
  if row.off = R.hub_REC_LO then (s.recRead h).1
  else if row.off = R.hub_REC_HI then (s.recHiRead a h).2
  else if row.off = R.hub_OPEN_MAP then
    BitVec.ofNat 64 ((List.range 64).foldl (fun m b => if x.openAt (64 * i + b) then m ||| 1 <<< b else m) 0)
  else if row.off = R.hub_PRIVET_STAT then
    let st := match x.privet with
      | .up => 0
      | .restarting => 1
      | .fenced => 2
    BitVec.ofNat 64 (st <<< 16 ||| satTo (x.hbLosses.filter fun e => s.ticks < e + 10 * 1500000000).length 3 <<< 8 ||| satTo x.hbTotal 255)
  else if row.off = R.hub_DETAIL_A then (s.detailARead a h).2
  else if row.off = R.hub_DETAIL_B then (s.detailBRead a h).2
  else r

/-- The VERSION block as it reads (R211, R221, R222). -/
def State.viewVersion (s : State) (h : Half) (off : Nat) : DWord :=
  let r := s.reg (bTable h 7) off
  let x := s.bslot h (s.rfld (bTable h 7) R.version_BATCH_SEL 0 8)
  if off = R.version_BATCH_STAT then BitVec.ofNat 64 x.stat
  else if off = R.version_BATCH_STAT_E then BitVec.ofNat 64 x.statE
  else if off = R.version_PENDING_TOTAL then
    setFld (setFld r 0 17 (s.pendingTotal h)) 32 17 (max (fld r 32 17) (s.pendingTotal h))
  else if off = R.version_RETIRE_BASIS then BitVec.ofNat 64 (s.retireBasis h)
  else r

/-- The buffer block as it reads (R466, R467). -/
def State.viewBuffer (s : State) (h : Half) (row : RegRow) (i : Nat) : DWord :=
  let x := s.buf.get h
  let r := s.reg (bBuffer h) (row.off + row.stride * i)
  if row.off = R.buffer_POOL_STAT then BitVec.ofNat 64 (tget 0 x.peak i <<< 32 ||| tget 0 x.used i)
  else if row.off = R.buffer_FREE_STAT then BitVec.ofNat 64 (x.healthy <<< 32 ||| x.freeCells)
  else if row.off = R.buffer_SPILL_STAT then BitVec.ofNat 64 x.blocksUsed.length
  else if row.off = R.buffer_QSTAT then
    let frozen := match s.hold h (i / 16) with
      | .hold => true
      | .flushing => true
      | _ => false
    BitVec.ofNat 64 (b2n frozen <<< 61 ||| spillBlocks (s.spill h i) <<< 32 ||| depthOf (s.queue h i))
  else r

/-- LOCK_STAT of the lock selected (R393). -/
def State.lockStat (s : State) (h : Half) : DWord :=
  let n := s.rfld (bLocks h) R.locks_LOCK_SEL 0 13
  if h = 1 ∧ 4096 ≤ n then 0
  else
    let l := s.lock h n
    let top := match l.waiters with
      | [] => 0
      | w :: _ => w.prio
    match l.holder with
    | none => 0
    | some p =>
      let who := match p with
        | .task g t k =>
          g.val <<< 18 ||| t.val <<< 14 ||| b2n (decide (svcBase ≤ k)) <<< 13 ||| (if svcBase ≤ k then k - svcBase else k)
        | .control g n => 1 <<< 19 ||| g.val <<< 18 ||| n.val
      BitVec.ofNat 64 (1 <<< 63 ||| top <<< 52 ||| l.waiters.length <<< 35 ||| s.partyPrio p <<< 32 ||| who)

/-- The port's block as it reads (R92, R93, R104, R114). -/
def State.viewPort (s : State) (p : PortIx) (row : RegRow) (i : Nat) : DWord :=
  let h := portHalf p
  let lp := portLocal p
  let r := s.reg (bPort p) (row.off + row.stride * i)
  let fifo := tget [] (s.ing.get h).txts lp
  if row.off = R.port_PTP_CFG then setFld r 0 7 fifo.length
  else if row.off = R.port_PTP_TXTS_A then
    match fifo with
    | [] => 0
    | e :: _ => BitVec.ofNat 64 (e.sec <<< 16 ||| e.seqId)
  else if row.off = R.port_PTP_TXTS_B then
    match fifo with
    | [] => 0
    | e :: _ => BitVec.ofNat 64 (1 <<< 63 ||| e.msgType <<< 48 ||| e.dom <<< 40 ||| e.ns <<< 8 ||| e.frac)
  else if row.off = R.port_LINK_STAT then setFld r 5 1 (b2n (s.localFault p))
  else if row.off = R.port_RXQ_LEVEL then BitVec.ofNat 64 (tget 0 (s.ing.get h).level (8 * lp + i))
  else if row.off = R.port_HOLD_STAT then s.holdStat h lp
  else r

/-- The code of SPARE_STAT.STATE (R589). -/
def SpareState.code : SpareState → Nat
  | .idle => 0
  | .handover => 1
  | .testing => 2
  | .exhausted => 3
  | .stopped => 4
  | .reduced => 5

/-- SPARE_STAT as it reads (R589). -/
def SpareInfo.stat (x : SpareInfo) : DWord :=
  BitVec.ofNat 64 (x.fenced <<< 32 ||| (if x.spare < 17 then x.spare else 31) <<< 16 ||| x.nextPos <<< 8 ||| x.state.code)

/-- The flags that make a service slot READY, zero when it is not: FLAGS AND MASK of an enabled slot with no run (R261). -/
def State.svcWoken (s : State) (h : Half) (t : TileIx) (j : Nat) : Word :=
  let c := s.reg (bTsched h t) (R.tsched_SVC_CFG + 8 * j)
  if bit c 0 ∧ (s.task h t (svcBase + j)).state = .free then
    BitVec.ofNat 32 (s.rfld (bTsched h t) (R.tsched_SVC_FLAGS + 8 * j) 0 32) &&& BitVec.ofNat 32 (fld c 32 32)
  else 0

/-- TASK_STAT as it reads (R277): LIVE and HELD count the task slots, READY and PARKED the service tasks too (R257, R261). -/
def State.taskStat (s : State) (h : Half) (t : TileIx) : DWord :=
  let all := s.liveTasks h t
  let live := all.filter fun e => decide (e.1 < svcBase)
  let num (l : List (Nat × Task)) (st : TaskState) : Nat := (l.filter fun e => e.2.state = st).length
  let svc := ((List.range 32).filter fun j => s.svcWoken h t j ≠ 0).length
  BitVec.ofNat 64 (live.length <<< 48 ||| (num all .ready + svc) % 4096 <<< 32 ||| num all .parked % 4096 <<< 16 ||| num live .held)

/-- CP_DESC of a unit (R396, R432). -/
def cpDesc (u : Nat) : DWord :=
  match u with
  | 0 => 0x01300406
  | 1 => 0x01380206
  | 2 => 0x01000100
  | 3 => 0x01000100
  | 7 => 0x01080405
  | _ => 0

/-- CP_LOCK_STAT of a cluster: the instances that a task holds (R432). -/
def State.cpLockStat (s : State) (h : Half) (t : TileIx) (c : Nat) : DWord :=
  let held (unit n : Nat) : Nat :=
    (List.range n).foldl (fun m i => if (tget CpInst.reset (s.tile h t).insts (instKey c unit i)).holder.isSome then m ||| 1 <<< i else m) 0
  BitVec.ofNat 64 (held 3 4 <<< 16 ||| held 1 2 <<< 8 ||| held 0 4)

/-- The BOOT unit's registers: what the fuses say (R599). -/
def State.bootRegs (s : State) (off : Nat) : DWord :=
  let f := s.pv.fuses
  if off = R.boot_REVOKE then BitVec.ofNat 64 f.revoke
  else Config.bootReg (off - R.boot_REVOKE) f.revoke (tget 0 f.svnMin 1) (tget 0 f.svnMin 2) (tget 0 f.svnMin 3) f.debugMode

/-- What a register of a block reads as, before its write-only and reserved bits are taken out. -/
def State.view (s : State) (a : Agent) (u : UnitId) (b : Blk) (row : RegRow) (i : Nat) : DWord :=
  let off := row.off + row.stride * i
  let r := s.reg b off
  match b.kind, u with
  | .device, _ => s.viewDevice off
  | .half, .half h => s.viewHalf h row i
  | .cc, .half h => if row.off = R.cc_CC_THREAD_CTL then s.threadCtl (.cc h (Fin.ofNat 32 i)) r else r
  | .hub, .hub h => s.viewHub a h row i
  | .ford, .ford h =>
    if row.off = R.ford_FORD_STAT then (s.ford.get h).stat
    else if row.off = R.ford_BUNDLE_STAT then (s.ford.get h).bundleStat i
    else r
  | .flow, .table h _ => if off = R.flow_FLOW_STASHED then BitVec.ofNat 64 (s.tab.get h).stash.length else r
  | .counter, .table h _ => if off = R.counter_READ_SEL then setFld r 62 1 (b2n (s.tab.get h).reading.isSome) else r
  | .version, .table h _ => s.viewVersion h off
  | .assoc, .assoc h =>
    if row.off = R.assoc_ENTRY_DATA then
      BitVec.ofNat 64 (bits (tget 0 (s.assoc.get h).entries (s.rfld b R.assoc_ENTRY_SEL 0 16)) (64 * i) 64)
    else r
  | .buffer, .buffer h => s.viewBuffer h row i
  | .locks, .locks h => if off = R.locks_LOCK_STAT then s.lockStat h else r
  | .port, .port p => s.viewPort p row i
  | .tile, .tile h t => if off = R.tile_SPARE_STAT then (s.tile h t).spare.stat else r
  | .tsched, .tile h t => if off = R.tsched_TASK_STAT then s.taskStat h t else r
  | .bramble, .tile h _ =>
    if row.off = R.bramble_PAT_DATA then
      BitVec.ofNat 64 (bits (tget 0 (s.tab.get h).patterns (s.rfld b R.bramble_PAT_SEL 0 14)) (64 * i) 64)
    else r
  | .coproc, .cluster h t c =>
    if row.off = R.coproc_CP_DESC then cpDesc i
    else if off = R.coproc_CP_LOCK_STAT then s.cpLockStat h t c.val
    else r
  | .core, .core h t c k =>
    if row.off = R.core_THREAD_CTL then s.threadCtl (.pk h t (Fin.ofNat 128 (32 * c.val + 8 * k.val + i))) r else r
  | .cal, _ => if off = R.cal_CAL_VIEW then s.calView (s.rfld b R.cal_CAL_SEL 0 16) else r
  | .boot, _ => s.bootRegs off
  | .debug, _ => BitVec.ofNat 64 s.pv.unlocked
  | _, _ => r

/-! ### Reads -/

/-- The register at an offset of the active view of a block: its row and entry; the UCB lies in a unit's own block only (R36, R40). -/
def regAt (u : UnitId) (b : Blk) (off : Nat) : Option (RegRow × Nat) :=
  if off < 0x100 ∧ b.base ≠ unitBase u then none else findRow (blkRows b.kind off) off

/-- What a register of the active view reads as (R19, R22). -/
def State.regView (s : State) (a : Agent) (u : UnitId) (b : Blk) (off : Nat) : DWord :=
  match regAt u b off with
  | none => 0
  | some (row, i) => (if off < 0x100 then s.viewUcb u off else s.view a u b row i) &&& readMask row.fields

/-- What a read of a register does beside returning its value: latches (R73, R89, R554, R556), a FIFO's pop (R93), a peak that starts
anew (R617, R636), and the free value of a running thread's PC. A 32-bit read of either word of PTP_TXTS_B removes the record (DESIGN
CHOICE, log 89). -/
def State.readEffect (s : State) (a : Agent) (u : UnitId) (b : Blk) (off : Nat) : State :=
  match regAt u b off with
  | none => s
  | some (row, i) =>
    if off < 0x100 then s
    else
      match b.kind, u with
      | .device, _ => if off = R.device_PTP_NS then doPtpNsRead s else s
      | .half, .half h => if off = R.half_DROOP_STAT then s.droopRead h else s
      | .cc, _ => if row.off = R.cc_CC_THREAD_CTL then s.used else s
      | .hub, .hub h =>
        if off = R.hub_REC_LO then s.recLoRead a h
        else if off = R.hub_REC_HI then (s.recHiRead a h).1
        else if off = R.hub_DETAIL_A then (s.detailARead a h).1
        else if off = R.hub_DETAIL_B then (s.detailBRead a h).1
        else s
      | .port, .port p => if off = R.port_PTP_TXTS_B then s.popTxts p else s
      | .core, _ => if row.off = R.core_THREAD_CTL then s.used else s
      | .sense, _ => if row.off = R.sense_SENSE_TEMP then s.tempRead i else s
      | _, _ => s

/-- The staged value of a register: its ST fields (R36, R37). -/
def State.stagedView (s : State) (u : UnitId) (b : Blk) (off : Nat) : DWord :=
  if off < 0x100 then 0
  else match regAt u b off with
    | none => 0
    | some (row, _) => s.stg b off &&& stBits row.fields

/-- A 32-bit read of the two words of DTS_NOW: the lower one latches the upper for the agent, whose next read of the upper word returns
the latched value (R73). Without a latched value the upper word returns what it is now (DESIGN CHOICE, log 89). -/
def State.dtsWord (s : State) (a : Agent) (h : Half) (upper : Bool) : State × DWord :=
  let t := s.time.get h
  if upper then
    match t.dtsLatch.find? fun e => e.1 = a with
    | some e => (s.updTime h fun t => { t with dtsLatch := t.dtsLatch.filter fun e => e.1 ≠ a }, BitVec.ofNat 64 e.2.toNat)
    | none => (s, t.dts >>> 32)
  else (doDtsNowRead a h s, t.dts &&& lowBits)

/-- An access that is not performed (R38, R39). -/
def State.csrHole (s : State) (addr : Nat) : State :=
  s.fault (match blkAt addr with
    | some (u, _) => u
    | none => enclosing addr) F.CSR_HOLE

/-- The unit whose reach an access needs. -/
def unitOf (addr : Nat) : UnitId :=
  match blkAt addr with
  | some (u, _) => u
  | none => enclosing addr

/-- An access has a width and an alignment of R39. -/
def accessOk (addr width : Nat) : Bool :=
  (decide (width = 8) && decide (addr % 8 = 0)) || (decide (width = 4) && decide (addr % 4 = 0))

/-- A read of the CSR space by an agent: `width` bytes at `addr` (R18–R22, R38, R39). -/
def State.csrRead (s : State) (a : Agent) (addr width : Nat) : State × DWord :=
  if ¬ s.agentReach a (unitOf addr) then (s, 0)
  else if ¬ accessOk addr width then (s.csrHole addr, 0)
  else
    match blkAt addr with
    | none => (s.csrHole addr, 0)
    | some (u, b) =>
      let off := addr % 0x10000 / 8 * 8
      let upper := decide (addr % 8 = 4)
      let part (v : DWord) : DWord := if width = 8 then v else if upper then v >>> 32 else v &&& lowBits
      if 0x8000 ≤ off then (s, part (s.stagedView u b (off - 0x8000)))
      else
        match b.kind, u with
        | .half, .half h =>
          if off = R.half_DTS_NOW ∧ width = 4 then s.dtsWord a h upper else (s.readEffect a u b off, part (s.regView a u b off))
        | _, _ => (s.readEffect a u b off, part (s.regView a u b off))

/-! ### Writes -/

/-- The plain effect of a write of the bits of `m` on a register (R19–R22, R39). -/
def plainWrite (start : Bool) (fs : List FieldRow) (old v m : DWord) : DWord :=
  let w := writeMask start fs &&& m
  ((old &&& ~~~w) ||| (v &&& w)) &&& ~~~(v &&& m &&& clearMask fs)

/-- A write of INJECT: FORCE in the lower half, INV_SEL and INV_ARM in the upper half (R51, R52, R566). -/
def State.writeInject (s : State) (u : UnitId) (v m : DWord) : State :=
  let s1 := if coversLow m then s.forceWrite u (fld v 0 32) else s
  if coversHigh m then
    if bit v 48 then s1.armInv u (fld v 40 8) else s1.setRfld (ownBlk u) R.ucb_INJECT 40 8 (fld v 40 8)
  else s1

/-- A write of UNIT_STATE (R45, R60). -/
def State.writeUnitState (s : State) (a : Agent) (u : UnitId) (v : DWord) : State :=
  match u with
  | .device =>
    if fld v 20 3 = 2 then doDevRun a s else if fld v 20 3 = 3 then doDevRecovery a s else s
  | _ => s.request a u (fld v 8 3)

/-- A write of a register of the unit control block (R40–R53). -/
def State.writeUcb (s : State) (a : Agent) (u : UnitId) (row : RegRow) (v m : DWord) : State :=
  let plain (w : UnitId) : State :=
    s.setReg (ownBlk w) row.off (plainWrite (decide (s.dev.devState = .start)) row.fields (s.reg (ownBlk w) row.off) v m)
  if row.off = R.ucb_UNIT_STATE then s.writeUnitState a u (v &&& m)
  else if row.off = R.ucb_COMMIT then s.commitKey u (fld (v &&& m) 0 16)
  else if row.off = R.ucb_INJECT then s.writeInject (shownUnit u) v m
  else if row.off = R.ucb_POWER_STATE then plain (shownUnit u)
  else plain u

/-- NOS_READY (R58, R648). -/
def State.setNosReady (s : State) (a : Agent) : State :=
  if s.agentOk a .device ∧ s.dev.devState = .start then s.updPv fun p => { p with start := { p.start with nosReady := true } } else s

/-- A write of DTS_SLEW (R81). -/
def State.writeSlew (s : State) (v m : DWord) : State :=
  let dir := if coversHigh m then bit v 48 else bit (s.reg bDevice R.device_DTS_SLEW) 48
  if coversLow m then doSlewWrite dir (fld v 0 32) s else s.setRfld bDevice R.device_DTS_SLEW 48 1 (b2n dir)

/-- PTP_CTL: SET before ADD before SUB (R89). -/
def State.writePtpCtl (s : State) (w : DWord) : State :=
  if bit w 0 then doPtpSet s else if bit w 1 then doPtpAdd s else if bit w 2 then doPtpSub s else s

/-- DTS_CTL: LOAD_NOW and LOAD_ARM (R79). -/
def State.writeDtsCtl (s : State) (w : DWord) : State :=
  let s1 := if bit w 2 then doLoadNow s else s
  if bit w 1 then doLoadArm s1 else s1

/-- FORCE of a LOCKS block: H0 only, and not from user mode (R391). -/
def State.writeLocksForce (s : State) (a : Agent) (h : Half) (w : DWord) : State :=
  let super : Bool := match a with
    | .control g n => !s.inUser g n
    | _ => true
  if super ∧ bit w 15 then s.forceLock h (fld w 0 13) else s

/-- CC_CTL.RUN, by Privet only: 1 releases the cores of a half at CC_ENTRY, 0 holds them (R621). -/
def State.writeRun (s : State) (h : Half) (run : Bool) : State :=
  if run = bit (s.reg (bCc h) R.cc_CC_CTL) 0 then s else if run then s.runCores h else s.stopCores h

/-- A write of a mailbox register by the slot's owner (R619). -/
def State.writeMbox (s : State) (a : Agent) (slot : Nat) (row : RegRow) (v m : DWord) (plain : State) : State :=
  if ¬ s.mbOwner a slot then s
  else if row.off = R.mbox_MB_CTL then (if bit (v &&& m) 0 then plain.mbGo a slot else plain)
  else if bit (s.mbCtl slot) 2 then s
  else plain

/-- A field of a register put back to what it held. -/
def keepFld (old new : DWord) (lsb len : Nat) : DWord := setFld new lsb len (fld old lsb len)

/-- MODE, FEC, AN_EN, LT_EN and LANE_CFG of a port may be written (R102). -/
def State.portWritable (s : State) (p : PortIx) : Bool := decide (s.ustate (.port p) = .reset) || decide (s.ustate (.port p) = .off)

/-- A write of MAC_CFG or LANE_CFG (R102). -/
def State.writePortCfg (s : State) (p : PortIx) (off : Nat) (new : DWord) : State :=
  let old := s.reg (bPort p) off
  if s.portWritable p then s.setReg (bPort p) off new
  else if off = R.port_LANE_CFG then s
  else s.setReg (bPort p) off (keepFld old (keepFld old new 24 5) 32 4)

/-- Privet may write program and parse bank `k` of a half (R275). -/
def State.bankWritable (s : State) (h : Half) (k : Nat) : Bool :=
  decide (s.rfld (bHalf h) R.half_IMG_CTL 0 1 ≠ k) && decide (s.imgState h = 0)

/-- A write of INT_CFG: ENTRY_b only while Privet may write bank b (R371). -/
def State.writeIntCfg (s : State) (h : Half) (t : TileIx) (new : DWord) : State :=
  let old := s.reg (bTile h t) R.tile_INT_CFG
  let v0 := if s.bankWritable h 0 then new else keepFld old new 0 17
  s.setReg (bTile h t) R.tile_INT_CFG (if s.bankWritable h 1 then v0 else keepFld old v0 32 17)

/-- P131 falls or returns when a write of EXP_CFG changes whether it counts as up (R430, R461, R462). -/
def State.settleExp (s : State) (h : Half) (was : Bool) : State :=
  if s.portUp h 67 = was then s else if was then s.portFalls h 67 else s.portReturns h 67

/-- The effect of a write of a register beyond a plain one: `v` as written, `m` the bits the write covers, `new` the register after the
plain write, `plain` the state after it. -/
def State.writeActs (s : State) (a : Agent) (u : UnitId) (b : Blk) (row : RegRow) (i : Nat) (v m new : DWord) (plain : State) : State :=
  let w := v &&& m
  let off := row.off + row.stride * i
  match b.kind, u with
  | .device, _ =>
    if off = R.device_DTS_CTL then s.writeDtsCtl w
    else if off = R.device_DTS_SLEW then s.writeSlew v m
    else if off = R.device_PTP_CTL then s.writePtpCtl w
    else if off = R.device_TSYNC_CFG then plain.settleTsync
    else if off = R.device_FAULTN_CTL then
      if a = .privet then plain else s.setReg b off (setFld new 32 1 (fld (s.reg b off) 32 1))
    else if off = R.device_START_CTL then (if bit w 1 then plain.setNosReady a else plain)
    else plain
  | .half, .half h =>
    if off = R.half_IMG_CTL then s.imgCtl h (bit w 1) (bit w 2)
    else if off = R.half_IMG_SWITCH_AT ∧ s.imgState h = 1 then s
    else if off = R.half_EXP_CFG then plain.settleExp h (s.portUp h 67)
    else plain
  | .cc, .half h =>
    if row.off = R.cc_CC_CH_CFG then s.writeChCfg (.cc h 0) i new
    else if off = R.cc_CC_CTL then (if a = .privet ∧ coversLow m then s.writeRun h (bit v 0) else s)
    else if off = R.cc_CC_ENTRY then (if a = .privet then plain else s)
    else if row.off = R.cc_RING_CTL then
      if i = 2 then
        let p2 := s.setReg b off (if coversLow m ∧ coversHigh m then setFld new 24 20 (fld v 24 20)
          else if coversLow m then setFld new 24 8 (fld v 24 8) else setFld new 32 12 (fld v 32 12))
        if fld new 16 4 = fld (s.reg b off) 16 4 then p2 else p2.ringSizeWrite h 2
      else if coversLow m then plain.ringSizeWrite h i else plain
    else if row.off = R.cc_CC_THREAD_CTL then doThreadCtl (.cc h (Fin.ofNat 32 i)) w plain
    else plain
  | .hub, .hub h =>
    if off = R.hub_REC_ACK then (if bit w 9 then s.recAck a h (fld w 0 9) (fld w 16 8) else s)
    else if off = R.hub_PRIVET_HB then doHbWrite a h s
    else if off = R.hub_PRIVET_STAT then (if bit w 20 then doPrivetRelease a h s else s)
    else plain
  | .counter, .table h _ => if off = R.counter_READ_SEL then plain.readSel h new else plain
  | .learn, .table h _ => if off = R.learn_LEARN_NOTE_CTL ∧ coversLow m then plain.noteSizeWrite h else plain
  | .version, .table h _ => if off = R.version_BATCH_CMD then s.batchCmd h (fld w 8 8) (fld w 0 3) else plain
  | .sched, .sched h => if off = R.sched_TELEM_CTL ∧ coversLow m then plain.telemSizeWrite h else plain
  | .locks, .locks h => if off = R.locks_FORCE then s.writeLocksForce a h w else plain
  | .tile, .tile h t =>
    if off = R.tile_SPARE_CFG then plain.settleSpare h t else if off = R.tile_INT_CFG then s.writeIntCfg h t new else plain
  | .port, .port p => if off = R.port_MAC_CFG ∨ off = R.port_LANE_CFG then s.writePortCfg p off new else plain
  | .tsched, .tile h t =>
    if row.off = R.tsched_SVC_CFG then s.svcConfig h t i new
    else if row.off = R.tsched_SVC_POST then s.svcPost h t i (BitVec.ofNat 32 (fld w 0 32))
    else plain
  | .channel, .tile h t => if row.off = R.channel_CH_CFG then s.writeChCfg (.pk h t 0) i new else plain
  | .core, .core h t c k =>
    let th : ThreadRef := .pk h t (Fin.ofNat 128 (32 * c.val + 8 * k.val + i))
    if row.off = R.core_THREAD_CTL then doThreadCtl th w plain
    else if row.off = R.core_EV_POST then doEvPost th (BitVec.ofNat 32 (fld w 0 32)) s
    else if off = R.core_DBG_CFG then (if s.pv.unlocked.testBit 0 then plain else s)
    else plain
  | .cal, _ => if off = R.cal_CAL_VIEW then (if coversHigh m then s.calWrite (fld v 32 16) else s) else plain
  | .mbox, _ => s.writeMbox a i row v m plain
  | .pcie, _ => if a = .privet then plain else s
  | .debug, _ => if bit w 8 then s.lockDebug else s
  | _, _ => plain

/-- A write of the bits of `m` of the register at an offset of the active view. -/
def State.writeReg (s : State) (a : Agent) (u : UnitId) (b : Blk) (off : Nat) (v m : DWord) : State :=
  match regAt u b off with
  | none => s
  | some (row, i) =>
    if off < 0x100 then s.writeUcb a u row v m
    else
      let new := plainWrite (decide (s.dev.devState = .start)) row.fields (s.reg b off) v m
      s.writeActs a u b row i v m new (s.setReg b off new)

/-- A write of the bits of `m` of the register at an offset of the staging view (R37). -/
def State.writeStaged (s : State) (u : UnitId) (b : Blk) (off : Nat) (v m : DWord) : State :=
  if off < 0x100 then s
  else match regAt u b off with
    | none => s
    | some (row, _) =>
      let k := stBits row.fields &&& m
      if k = 0 then s else s.setStg b off ((s.stg b off &&& ~~~k) ||| (v &&& k))

/-- A write of the CSR space by an agent: the low `width` bytes of `v` at `addr` (R18–R22, R36–R39). -/
def State.csrWrite (s : State) (a : Agent) (addr width : Nat) (v : DWord) : State :=
  if ¬ s.agentReach a (unitOf addr) then s
  else if ¬ accessOk addr width then s.csrHole addr
  else
    match blkAt addr with
    | none => s.csrHole addr
    | some (u, b) =>
      let off := addr % 0x10000 / 8 * 8
      let m : DWord := if width = 8 then allBits else if addr % 8 = 4 then highBits else lowBits
      let x : DWord := if width = 4 ∧ addr % 8 = 4 then v <<< 32 else v
      if 0x8000 ≤ off then s.writeStaged u b (off - 0x8000) x m else s.writeReg a u b off x m

/-- A 64-bit write by an agent of the register at an offset of a unit's block. -/
def State.agentWrite (s : State) (a : Agent) (u : UnitId) (b : Blk) (off : Nat) (v : DWord) : State :=
  if s.agentReach a u then s.writeReg a u b off v allBits else s

/-! ### The commands -/

/-- CSR_HOLE_ACCESS (R38): an access at an address that no unit or block occupies. -/
def execCsrHoleAccess (a : Agent) (addr : BitVec 32) (s : State) : Out :=
  .next (if (blkAt addr.toNat).isNone ∧ s.agentReach a (unitOf addr.toNat) then s.csrHole addr.toNat else s)

/-- CSR_MISALIGNED_ACCESS (R39): an access of a width or an alignment that is not performed. -/
def execCsrMisalignedAccess (a : Agent) (addr : BitVec 32) (width : Nat) (s : State) : Out :=
  .next (if accessOk addr.toNat width = false ∧ s.agentReach a (unitOf addr.toNat) then s.csrHole addr.toNat else s)

/-- REGISTER_WRITE (R19–R22, R36–R39). -/
def execRegisterWrite (a : Agent) (addr : BitVec 32) (width : Nat) (v : DWord) (s : State) : Out := .next (s.csrWrite a addr.toNat width v)

/-- COUNTER_READ_SEL_WRITE (R206). -/
def execCounterReadSelWrite (a : Agent) (h : Half) (v : DWord) (s : State) : Out :=
  .next (s.agentWrite a (.table h 3) (bTable h 3) R.counter_READ_SEL v)

/-- A command of BATCH_CMD (R215–R218, R221). -/
def State.agentBatch (s : State) (a : Agent) (h : Half) (slot : Fin 256) (cmd : Nat) : State :=
  if s.agentReach a (.table h 7) then s.batchCmd h slot.val cmd else s

/-- BUILD (R216). -/
def execBuild (a : Agent) (h : Half) (slot : Fin 256) (s : State) : Out := .next (s.agentBatch a h slot 1)

/-- POST (R217). -/
def execPost (a : Agent) (h : Half) (slot : Fin 256) (s : State) : Out := .next (s.agentBatch a h slot 2)

/-- BUILD_POST (R216). -/
def execBuildPost (a : Agent) (h : Half) (slot : Fin 256) (s : State) : Out := .next (s.agentBatch a h slot 3)

/-- ABORT (R218). -/
def execAbort (a : Agent) (h : Half) (slot : Fin 256) (s : State) : Out := .next (s.agentBatch a h slot 4)

/-- ACK (R218). -/
def execAck (a : Agent) (h : Half) (slot : Fin 256) (s : State) : Out := .next (s.agentBatch a h slot 5)

/-- LEARN_NOTE_SIZE_WRITE (R232). -/
def execLearnNoteSizeWrite (a : Agent) (h : Half) (v : DWord) (s : State) : Out :=
  .next (s.agentWrite a (.table h 5) (bTable h 5) R.learn_LEARN_NOTE_CTL v)

/-- SVC_POST_WRITE (R262). -/
def execSvcPostWrite (a : Agent) (h : Half) (t : TileIx) (slot : Fin 32) (set : Word) (s : State) : Out :=
  .next (if s.agentReach a (.tile h t) then s.svcPost h t slot.val set else s)

/-- SVC_ENABLE_WRITE (R260). -/
def execSvcEnableWrite (a : Agent) (h : Half) (t : TileIx) (slot : Fin 32) (v : DWord) (s : State) : Out :=
  .next (if s.agentReach a (.tile h t) then s.svcConfig h t slot.val v else s)

/-- IMG_ARM (R274). -/
def execImgArm (a : Agent) (h : Half) (s : State) : Out := .next (if s.agentReach a (.half h) then s.imgCtl h true false else s)

/-- IMG_DISARM (R274). -/
def execImgDisarm (a : Agent) (h : Half) (s : State) : Out := .next (if s.agentReach a (.half h) then s.imgCtl h false true else s)

/-- TELEM_SIZE_WRITE (R492). -/
def execTelemSizeWrite (a : Agent) (h : Half) (v : DWord) (s : State) : Out :=
  .next (s.agentWrite a (.sched h) (bSched h) R.sched_TELEM_CTL v)

/-- NOS_READY (R648). -/
def execNosReady (a : Agent) (s : State) : Out := .next (if s.agentReach a .device then s.setNosReady a else s)

end Sys2Proof.Machine
end

