-- ==== Sys2Proof/Machine/Flags.lean ====
section
/-! DEFINITION. The flags and modes of a thread (R284, R285), the condition codes (R309), the overflow rule (R296), rounding (R304)
and the flags of a comparison (R308). -/

namespace Sys2Proof.Machine

/-! ### MODE and FLAGS (R284) -/

/-- MODE.SAT. -/
def modeSat (m : Word) : Bool := m.getLsbD 0

/-- MODE.RND: 0 RNE, 1 RHU, 2 RTZ, 3 RDN. -/
def modeRnd (m : Word) : Nat := bits m.toNat 1 2

/-- MODE.DZ_TRAP. -/
def modeDz (m : Word) : Bool := m.getLsbD 3

/-- The sticky flags by their bits of FLAGS (R284). -/
abbrev flOv : Word := 1
abbrev flSat : Word := 2
abbrev flDz : Word := 4

/-- The FLAGS word with the condition flags of a comparison: N, Z, B and V in bits 7 to 4 (R284, R308). -/
def setCond (f : Word) (n z b v : Bool) : Word :=
  (f &&& 0xFFFFFF0F) ||| BitVec.ofNat 32 (b2n n * 128 + b2n z * 64 + b2n b * 32 + b2n v * 16)

/-- Condition code `cc` holds (R309). -/
def condHolds (f : Word) (cc : Nat) : Bool :=
  let n := f.getLsbD 7
  let z := f.getLsbD 6
  let b := f.getLsbD 5
  let v := f.getLsbD 4
  match cc with
  | 0 => true
  | 1 => z
  | 2 => n != v
  | 3 => z || n != v
  | 4 => b
  | 5 => b || z
  | 6 => n
  | 7 => v
  | 8 => f.getLsbD 0 || f.getLsbD 1 || f.getLsbD 2
  | 9 => !z
  | 10 => n == v
  | 11 => !z && n == v
  | 12 => !b
  | 13 => !b && !z
  | 14 => !n
  | _ => !v

/-- FLAGS after `a − b` of `w`-bit operands (R308). -/
def cmpFlags (w : Nat) (f : Word) (a b : Nat) : Word :=
  let d := unsigned w (signed w a - signed w b)
  let t := signed w a - signed w b
  setCond f (d.testBit (w - 1)) (decide (d = 0)) (decide (a % 2 ^ w < b % 2 ^ w)) (decide (t ≠ signed w d))

/-- FLAGS after TST of `w`-bit operands (R308). -/
def tstFlags (w : Nat) (f : Word) (a b : Nat) : Word :=
  let d := (a &&& b) % 2 ^ w
  setCond f (d.testBit (w - 1)) (decide (d = 0)) false false

/-! ### Overflow and rounding -/

/-- A `w`-bit result and the sticky flags it sets. -/
structure Res where
  val : Nat
  flags : Word
  deriving DecidableEq, Repr

/-- A result that sets no flag. -/
def Res.plain (v : Nat) : Res := ⟨v, 0⟩

/-- The overflow rule (R296): the true result `t` in `w` bits, wrapped with OV or clamped with SAT. -/
def overflow (w : Nat) (sat : Bool) (t : Int) : Res :=
  let hi : Int := ((2 ^ (w - 1) - 1 : Nat) : Int)
  let lo : Int := -((2 ^ (w - 1) : Nat) : Int)
  if lo ≤ t ∧ t ≤ hi then ⟨unsigned w t, 0⟩
  else if sat then ⟨unsigned w (clampInt lo hi t), flSat⟩
  else ⟨unsigned w t, flOv⟩

/-- A signed result clamped to `w` bits, with SAT when it was (R297). -/
def clampS (w : Nat) (t : Int) : Res := overflow w true t

/-- An unsigned result clamped to `w` bits, with SAT when it was (R297). -/
def clampU (w : Nat) (t : Int) : Res :=
  let hi : Int := ((2 ^ w - 1 : Nat) : Int)
  if 0 ≤ t ∧ t ≤ hi then ⟨unsigned w t, 0⟩ else ⟨unsigned w (clampInt 0 hi t), flSat⟩

/-- round(v, k) of R304: `v` / 2^k under a rounding mode. -/
def roundShift (rnd : Nat) (v : Int) (k : Nat) : Int :=
  if k = 0 then v
  else
    let m : Int := ((2 ^ k : Nat) : Int)
    let q := v / m
    let r := v % m
    let h : Int := ((2 ^ (k - 1) : Nat) : Int)
    match rnd with
    | 3 => q
    | 2 => if v < 0 ∧ r ≠ 0 then q + 1 else q
    | 1 => if h ≤ r then q + 1 else q
    | _ => if h < r ∨ (r = h ∧ q % 2 ≠ 0) then q + 1 else q

/-- A quotient a / b (b not zero) rounded to an integer under a rounding mode (R420). -/
def roundDiv (rnd : Nat) (a b : Int) : Int :=
  let n := if b < 0 then -a else a
  let d := if b < 0 then -b else b
  let q := n / d
  let r := n % d
  match rnd with
  | 3 => q
  | 2 => if n < 0 ∧ r ≠ 0 then q + 1 else q
  | 1 => if d ≤ 2 * r then q + 1 else q
  | _ => if d < 2 * r ∨ (2 * r = d ∧ q % 2 ≠ 0) then q + 1 else q

/-! ### Bits -/

/-- Bits set among the low `w`. -/
def popCount (w v : Nat) : Nat := popBelow v w

/-- Leading zero bits of a `w`-bit number, counted down from bit `n` − 1. -/
def clzFrom (v : Nat) : Nat → Nat
  | 0 => 0
  | n + 1 => if v.testBit n then 0 else 1 + clzFrom v n

/-- Leading zero bits of a `w`-bit number; `w` for zero. -/
def clz (w v : Nat) : Nat := clzFrom (v % 2 ^ w) w

/-- Trailing zero bits from bit `i` on, at most `n`. -/
def ctzFrom (v i : Nat) : Nat → Nat
  | 0 => 0
  | n + 1 => if v.testBit i then 0 else 1 + ctzFrom v (i + 1) n

/-- Trailing zero bits of a `w`-bit number; `w` for zero. -/
def ctz (w v : Nat) : Nat := ctzFrom (v % 2 ^ w) 0 w

/-- The byte order of a `w`-bit number reversed. -/
def bswap (w v : Nat) : Nat := leNat (leBytes (w / 8) v).reverse

end Sys2Proof.Machine
end

