-- ==== Sys2Proof/Machine/Thread.lean ====
section
/-! DEFINITION. How a thread reaches memory: the spaces of a packet thread (R319–R326), the physical map and the page tables of a
control core (R359, R622, R623), and the loads, stores and spans every instruction uses. -/

namespace Sys2Proof.Machine

/-- Why an instruction does not have its effect: a trap with its cause and TVAL (R314), a supervisor-only access in user mode (R358),
an uncorrectable word of the task store or program store (R558), or a wait for the unit it needs. -/
inductive Fail where
  | trap (cause tval : Nat)
  | priv
  | discard (reason : Nat)
  | stall
  deriving DecidableEq, Repr

/-- The causes of R314 and R358. -/
abbrev cIllegal : Nat := 0x01
abbrev cDivZero : Nat := 0x02
abbrev cRsOver : Nat := 0x03
abbrev cRsUnder : Nat := 0x04
abbrev cPcRange : Nat := 0x05
abbrev cAlign : Nat := 0x06
abbrev cBounds : Nat := 0x07
abbrev cDstack : Nat := 0x08
abbrev cSoftware : Nat := 0x09
abbrev cBreak : Nat := 0x0A
abbrev cCoproc : Nat := 0x0B
abbrev cPriv : Nat := 0x83
abbrev cGate : Nat := 0x84

/-! ### The descriptor (R240, R241) -/

/-- STATE of a task descriptor (R241). -/
def TaskState.code : TaskState → Nat
  | .free => 0
  | .ready => 1
  | .running => 2
  | .waiting => 3
  | .parked => 4
  | .held => 5
  | .draining => 6
  | .halted => 7

/-- Word D0 of a task's descriptor; a service slot's holds PROGRAM alone. -/
def Task.d0 (x : Task) (svc : Bool) : Nat :=
  if svc then (x.program % 256) <<< 42
  else
    (x.keyLen % 128) <<< 57 ||| (x.rxPrio % 8) <<< 54 ||| (x.outerCode % 8) <<< 51 ||| b2n x.csumBad <<< 50 |||
      (x.program % 256) <<< 42 ||| (x.port % 256) <<< 34 ||| (x.length % 16384) <<< 20 ||| x.headCell % 2 ^ 20

/-- Word D1 of a task's descriptor. -/
def Task.d1 (x : Task) (h : Half) (t : TileIx) (k : Nat) : Nat :=
  let svc := decide (svcBase ≤ k)
  (x.dc3 % 256) <<< 56 ||| (x.dc2 % 256) <<< 48 ||| (x.dc1 % 256) <<< 40 ||| (x.dc0 % 256) <<< 32 ||| (x.basePrio % 8) <<< 29 |||
    (x.effPrio % 8) <<< 26 ||| (x.bank % 2) <<< 25 ||| b2n svc <<< 24 ||| x.state.code <<< 21 ||| b2n x.overtaken <<< 20 |||
    (if svc then k - svcBase else k) <<< 8 ||| t.val <<< 4 ||| h.val <<< 3

/-! ### Spaces of a packet thread (R319–R326) -/

/-- What a space holds. -/
inductive SpcKind where
  | mem (l : Loc)
  | desc
  | bank
  deriving DecidableEq, Repr

/-- A space: its first address, its size, what it holds, whether stores may reach it, and whether it takes any alignment. -/
structure Spc where
  base : Nat
  size : Nat
  kind : SpcKind
  writable : Bool
  anyAlign : Bool
  deriving DecidableEq, Repr

/-- SHARED_KB in bytes (R325). -/
def State.sharedBytes (s : State) (h : Half) (t : TileIx) : Nat :=
  let k := s.rfld (bTile h t) R.tile_TMEM_CFG 16 10
  1024 * (if 512 < k then 512 else k)

/-- Bytes of a stack window (R325). -/
def State.stackBytes (s : State) (h : Half) (t : TileIx) : Nat :=
  let k := s.rfld (bTile h t) R.tile_TMEM_CFG 0 4
  2 ^ (if k < 8 then 8 else if 12 < k then 12 else k)

/-- The limit of a thread's stack window (R326). -/
def State.stackLimit (s : State) (h : Half) (t : TileIx) (n : Nat) : Nat := 0x00200000 + n * s.stackBytes h t

/-- The base of a thread's stack window (R326). -/
def State.stackBase (s : State) (h : Half) (t : TileIx) (n : Nat) : Nat := 0x00200000 + (n + 1) * s.stackBytes h t

/-- The spaces of a thread that serves slot `k` (R319, R320). -/
def State.spaces (s : State) (h : Half) (t : TileIx) (n k : Nat) : List Spc :=
  [{ base := 0, size := 128, kind := .mem (.store (ctxOff k)), writable := true, anyAlign := false },
   { base := 0x80, size := 16, kind := .desc, writable := false, anyAlign := false }] ++
  (if svcBase ≤ k then []
   else
    [{ base := 0x100, size := 256, kind := .mem (.store (448 * k + 128)), writable := true, anyAlign := true },
     { base := 0x200, size := 64, kind := .mem (.store (448 * k + 384)), writable := true, anyAlign := false }]) ++
  [{ base := 0x00100000, size := s.sharedBytes h t, kind := .mem (.ram 0), writable := true, anyAlign := false },
   { base := s.stackLimit h t n, size := s.stackBytes h t, kind := .mem (.ram (0x80000 + n * s.stackBytes h t)), writable := true,
     anyAlign := false },
   { base := 0x00300000, size := 0x20000, kind := .bank, writable := false, anyAlign := false }]

/-- The space that holds `len` bytes from an address on (R321). -/
def spcAt (l : List Spc) (addr len : Nat) : Option Spc := l.find? fun p => decide (p.base ≤ addr) && decide (addr + len ≤ p.base + p.size)

/-- A word of a program bank among `n` bytes at an offset is uncorrectable (R558). -/
def Tile.bankPoisoned (x : Tile) (b a n : Nat) : Bool :=
  x.poisonBank.any fun e => decide (e.1 = b % 2) && decide (a < 4 * e.2 + 4) && decide (4 * e.2 < a + n)

/-- Bytes of a space as its cells hold them. -/
def State.spcBytes (s : State) (h : Half) (t : TileIx) (k : Nat) (p : Spc) (addr len : Nat) : List Byte :=
  let off := addr - p.base
  match p.kind with
  | .mem l => (s.tile h t).get (l.add off) len
  | .desc => slice (leBytes 8 ((s.task h t k).d0 (decide (svcBase ≤ k))) ++ leBytes 8 ((s.task h t k).d1 h t k)) off len
  | .bank => tbytes ((s.tile h t).bank (s.task h t k).bank) off len

/-- A read of bytes of a space; an uncorrectable word among them ends it (R558). -/
def State.spcRead (s : State) (h : Half) (t : TileIx) (k : Nat) (p : Spc) (addr len : Nat) : Except Fail (List Byte) :=
  let x := s.tile h t
  let off := addr - p.base
  let bs := s.spcBytes h t k p addr len
  match p.kind with
  | .mem (.store a) => if x.poisoned (.store (a + off)) len then .error (.discard drMemory) else .ok bs
  | .mem (.ram a) => if x.poisoned (.ram (a + off)) len then .error (.trap cBounds addr) else .ok bs
  | .desc => .ok bs
  | .bank => if x.bankPoisoned (s.task h t k).bank off len then .error (.discard drMemory) else .ok bs

/-- The slot a packet thread serves. -/
def State.slotOfThread (s : State) (h : Half) (t : TileIx) (n : Fin 128) : Nat := ((s.thread (.pk h t n)).task).getD 0

/-- `len` bytes of a packet thread's memory that must lie within one space (R321). -/
def State.pkSpan (s : State) (h : Half) (t : TileIx) (n : Fin 128) (addr len : Nat) : Except Fail (List Byte) :=
  let k := s.slotOfThread h t n
  match spcAt (s.spaces h t n.val k) addr len with
  | none => .error (.trap cBounds addr)
  | some p => s.spcRead h t k p addr len

/-- The place of `len` bytes that an instruction or request writes: within one space that stores may reach (R321). -/
def State.pkPlace (s : State) (h : Half) (t : TileIx) (n : Fin 128) (addr len : Nat) : Except Fail Loc :=
  match spcAt (s.spaces h t n.val (s.slotOfThread h t n)) addr len with
  | none => .error (.trap cBounds addr)
  | some p =>
    match p.kind with
    | .mem l => if p.writable then .ok (l.add (addr - p.base)) else .error (.trap cBounds addr)
    | _ => .error (.trap cBounds addr)

/-- A load of a packet thread (R321, R322). -/
def State.pkLoad (s : State) (h : Half) (t : TileIx) (n : Fin 128) (addr len : Nat) : Except Fail (List Byte) :=
  let k := s.slotOfThread h t n
  match spcAt (s.spaces h t n.val k) addr len with
  | none => .error (.trap cBounds addr)
  | some p => if !p.anyAlign && decide (addr % len ≠ 0) then .error (.trap cAlign addr) else s.spcRead h t k p addr len

/-- A store of a packet thread (R321, R322). -/
def State.pkStore (s : State) (h : Half) (t : TileIx) (n : Fin 128) (addr : Nat) (bs : List Byte) : Except Fail State :=
  let k := s.slotOfThread h t n
  match spcAt (s.spaces h t n.val k) addr bs.length with
  | none => .error (.trap cBounds addr)
  | some p =>
    if !p.writable then .error (.trap cBounds addr)
    else if !p.anyAlign && decide (addr % bs.length ≠ 0) then .error (.trap cAlign addr)
    else
      match p.kind with
      | .mem l => .ok (s.updTile h t fun x => x.put (l.add (addr - p.base)) bs)
      | _ => .error (.trap cBounds addr)

/-! ### The physical map of a control core (R622, R623) -/

/-- The requester a control core is at an HBM controller (R498). -/
abbrev ccReq : HbmReq := ⟨.ctl, srcCc, false⟩

/-- First byte of the mirrored window in own HBM, and of the copy of the peer's (R621). -/
def State.mirrorOwn (s : State) (h : Half) : Nat := s.rfld (bCc h) R.cc_MIRROR_OWN 20 28 <<< 20
def State.mirrorPeer (s : State) (h : Half) : Nat := s.rfld (bCc h) R.cc_MIRROR_PEER 20 28 <<< 20

/-- Bytes of the mirrored window. -/
def State.mirrorSize (s : State) (h : Half) : Nat := s.rfld (bCc h) R.cc_MIRROR_SIZE 0 16 <<< 20

/-- What a physical address names. -/
inductive PhysAt where
  | csr (a : Nat)
  | hbm (a : Nat)
  | mirror (m : Nat)
  | peer (m : Nat)
  | hole
  deriving DecidableEq, Repr

/-- The physical map (R622). -/
def State.physAt (s : State) (h : Half) (pa : Nat) : PhysAt :=
  if pa < 0x100000000 then .csr pa
  else if pa < 0x100000000 + hbmTop then .hbm (pa - 0x100000000)
  else if 0x001000000000 ≤ pa ∧ pa < 0x001000000000 + s.mirrorSize h then .mirror (pa - 0x001000000000)
  else if 0x001100000000 ≤ pa ∧ pa < 0x001100000000 + s.mirrorSize h then .peer (pa - 0x001100000000)
  else .hole

/-- A naturally aligned physical read of a control core; none outside the map (R622). An access to CSR space of a width that no register
takes reads zero and opens CSR_HOLE (R39). -/
def State.physRead (s : State) (h : Half) (n : Fin 32) (pa len : Nat) : State × Option (List Byte) :=
  match s.physAt h pa with
  | .csr a => let (s1, v) := s.csrRead (.control h n) a len; (s1, some (leBytes len v.toNat))
  | .hbm a => let (s1, bs, _) := s.hbmRead h ccReq a len; (s1, some bs)
  | .mirror m => let (s1, bs, _) := s.hbmRead h ccReq (s.mirrorOwn h + m) len; (s1, some bs)
  | .peer m => let (s1, bs, _) := s.hbmRead h ccReq (s.mirrorPeer h + m) len; (s1, some bs)
  | .hole => (s, none)

/-- How a physical write comes out. -/
inductive PhysWrite where
  | done (s : State)
  | hole
  | stall

/-- A naturally aligned physical write of a control core (R39, R622, R623). -/
def State.physWrite (s : State) (h : Half) (n : Fin 32) (pa : Nat) (bs : List Byte) : PhysWrite :=
  match s.physAt h pa with
  | .csr a => .done (s.csrWrite (.control h n) a bs.length (BitVec.ofNat 64 (leNat bs)))
  | .hbm a => .done (s.hbmWrite h ccReq a bs).1
  | .mirror m =>
    if (s.ford.get h).peerUp then
      if 1024 ≤ (s.cc.get h).mirror.length then .stall
      else
        let s1 := (s.hbmWrite h ccReq (s.mirrorOwn h + m) bs).1
        .done { s1 with cc := s1.cc.upd h fun x => { x with mirror := x.mirror ++ [(n.val, m, bs)] } }
    else .done ((s.hbmWrite h ccReq (s.mirrorOwn h + m) bs).1.bump (bCc h) R.cc_MIRROR_UNSENT)
  | .peer m => if (s.ford.get h).peerUp then .done s else .done (s.hbmWrite h ccReq (s.mirrorPeer h + m) bs).1
  | .hole => .hole

/-! ### Translation (R358, R359) -/

/-- A virtual address is canonical (R359). -/
def canon (va : Nat) : Bool := decide (va % 2 ^ 64 / 2 ^ 47 = 0) || decide (va % 2 ^ 64 / 2 ^ 47 = 2 ^ 17 - 1)

/-- The kind of an access: its cause of R358 is 0x80 plus this. -/
abbrev accRead : Nat := 0
abbrev accWrite : Nat := 1
abbrev accFetch : Nat := 2

/-- The kernel registers by number (R358). -/
abbrev kKSTATE : Nat := 0
abbrev kKENTRY : Nat := 1
abbrev kKENTRY_XL : Nat := 2
abbrev kKRET : Nat := 3
abbrev kKCAUSE : Nat := 4
abbrev kKINFO : Nat := 5
abbrev kXROOT : Nat := 6

/-- A kernel register. -/
def Thread.kreg (x : Thread) (i : Nat) : DWord := tget 0 x.k i

/-- Set a kernel register. -/
def Thread.setK (x : Thread) (i : Nat) (v : DWord) : Thread := { x with k := tset 0 x.k i v }

/-- KSTATE.USER. -/
def Thread.user (x : Thread) : Bool := (x.kreg kKSTATE).getLsbD 0

/-- A page entry names a page whose address has no bit below the page size (R359). -/
def pageOk (e : DWord) (large : Bool) : Bool := !large || decide (fld e 14 11 = 0)

/-- A walk of the page tables: the page entry, its address and whether it maps 32 MB; none where the walk faults (R359). -/
def State.walk (s : State) (h : Half) (n : Fin 32) (va : Nat) : (level : Nat) → (table : Nat) → State × Option XlEntry
  | 0, _ => (s, none)
  | lv + 1, table =>
    let ix := if lv = 2 then bits va 36 12 else if lv = 1 then bits va 25 11 else bits va 14 11
    let a := table + 8 * ix
    match s.physRead h n a 8 with
    | (s1, none) => (s1, none)
    | (s1, some bs) =>
      let e : DWord := BitVec.ofNat 64 (leNat bs)
      let next := fld e 14 34 <<< 14
      if !bit e 63 || decide (fld e 48 9 ≠ 0) then (s1, none)
      else if bit e 62 then
        if lv = 0 then (s1, none) else s1.walk h n va lv next
      else if lv = 2 then (s1, none)
      else if pageOk e (decide (lv = 1)) then (s1, some { large := decide (lv = 1), entry := e, entryAddr := a })
      else (s1, none)

/-- The key of a thread's cached translation of the page that holds an address. -/
def xlKey (n : Fin 32) (va : Nat) : Nat := n.val * 2 ^ 34 + bits va 14 34

/-- The entry that translates an address: the cached one, or the one a walk finds (R359). -/
def State.xlLookup (s : State) (h : Half) (n : Fin 32) (va : Nat) : State × Option XlEntry :=
  match tget? (s.cc.get h).xl (xlKey n va) with
  | some e => (s, some e)
  | none => s.walk h n va 3 (fld ((s.thread (.cc h n)).kreg kXROOT) 15 33 <<< 15)

/-- REF, and MOD for a store, are set in a page entry in memory and in the cache (R359); none where the write of the entry has to wait
(R623), and the access with it. -/
def State.xlMark (s : State) (h : Half) (n : Fin 32) (va : Nat) (e : XlEntry) (store : Bool) : Option State :=
  let m : DWord := if store then 0x0600000000000000 else 0x0400000000000000
  let new := e.entry ||| m
  let cached (t : State) : State := { t with cc := t.cc.upd h fun x => { x with xl := tput x.xl (xlKey n va) { e with entry := new } } }
  if new = e.entry then some (cached s)
  else
    match s.physRead h n e.entryAddr 8 with
    | (s1, some bs) =>
      match s1.physWrite h n e.entryAddr (leBytes 8 (BitVec.ofNat 64 (leNat bs) ||| m).toNat) with
      | .done s2 => some (cached s2)
      | .hole => some (cached s1)
      | .stall => none
    | (s1, none) => some (cached s1)

/-- The physical address of an access, or why it does not take place (R358, R359, R622). The page entry is marked with an access that takes
place alone. -/
def State.translate (s : State) (h : Half) (n : Fin 32) (va acc : Nat) : State × Except Fail Nat :=
  let x := s.thread (.cc h n)
  let fault : Except Fail Nat := .error (.trap (0x80 + acc) (va % 2 ^ 64))
  if !canon va then (s, fault)
  else if !(x.kreg kXROOT).getLsbD 0 then (if s.physAt h (va % 2 ^ 48) = .hole then (s, fault) else (s, .ok (va % 2 ^ 48)))
  else
    match s.xlLookup h n va with
    | (s1, none) => (s1, fault)
    | (s1, some e) =>
      if x.user && !bit e.entry 61 then (s1, .error .priv)
      else if (decide (acc = accWrite) && !bit e.entry 60) || (decide (acc = accFetch) && !bit e.entry 59) then (s1, fault)
      else
        let size := if e.large then 25 else 14
        let pa := fld e.entry 14 34 <<< 14 ||| va % 2 ^ size
        if s1.physAt h pa = .hole then (s1, fault)
        else
          match s1.xlMark h n va e (decide (acc = accWrite)) with
          | some s2 => (s2, .ok pa)
          | none => (s, .error .stall)

/-- A load or fetch of a control core at a naturally aligned address. -/
def State.ccLoad (s : State) (h : Half) (n : Fin 32) (va len acc : Nat) : State × Except Fail (List Byte) :=
  if va % len ≠ 0 then (s, .error (.trap cAlign (va % 2 ^ 64)))
  else
    match s.translate h n va acc with
    | (s1, .error f) => (s1, .error f)
    | (s1, .ok pa) =>
      match s1.physRead h n pa len with
      | (s2, some bs) => (s2, .ok bs)
      | (s2, none) => (s2, .error (.trap (0x80 + acc) (va % 2 ^ 64)))

/-- A store of a control core at a naturally aligned address. -/
def State.ccStore (s : State) (h : Half) (n : Fin 32) (va : Nat) (bs : List Byte) : State × Option Fail :=
  if va % bs.length ≠ 0 then (s, some (.trap cAlign (va % 2 ^ 64)))
  else
    match s.translate h n va accWrite with
    | (s1, .error f) => (s1, some f)
    | (s1, .ok pa) =>
      match s1.physWrite h n pa bs with
      | .done s2 => (s2, none)
      | .hole => (s1, some (.trap (0x80 + accWrite) (va % 2 ^ 64)))
      | .stall => (s1, some .stall)

/-- `len` bytes of a control core's memory in 8-byte accesses from an 8-byte-aligned address on; `k` counts the accesses. -/
def State.ccSpanFrom (s : State) (h : Half) (n : Fin 32) (va : Nat) : Nat → State × Except Fail (List Byte)
  | 0 => (s, .ok [])
  | k + 1 =>
    match s.ccLoad h n va 8 accRead with
    | (s1, .error f) => (s1, .error f)
    | (s1, .ok bs) =>
      match s1.ccSpanFrom h n (va + 8) k with
      | (s2, .error f) => (s2, .error f)
      | (s2, .ok cs) => (s2, .ok (bs ++ cs))

/-- The bytes of an area of a control core's memory; an instruction that traps on one of its accesses has had no effect (R314). -/
def State.ccSpan (s : State) (h : Half) (n : Fin 32) (va k : Nat) : State × Except Fail (List Byte) :=
  match s.ccSpanFrom h n va k with
  | (s1, .ok bs) => (s1, .ok bs)
  | (_, .error f) => (s, .error f)

/-- Bytes written from an 8-byte-aligned address on, in 8-byte stores. -/
def State.ccWriteFrom (s : State) (h : Half) (n : Fin 32) (va : Nat) (bs : List Byte) : Nat → State × Option Fail
  | 0 => (s, none)
  | k + 1 =>
    match s.ccStore h n va (bs.take 8) with
    | (s1, some f) => (s1, some f)
    | (s1, none) => s1.ccWriteFrom h n (va + 8) (bs.drop 8) k

/-- An area of a control core's memory written; an instruction that traps on one of its accesses has had no effect (R314). -/
def State.ccWriteSpan (s : State) (h : Half) (n : Fin 32) (va : Nat) (bs : List Byte) (k : Nat) : State × Option Fail :=
  match s.ccWriteFrom h n va bs k with
  | (s1, none) => (s1, none)
  | (_, some f) => (s, some f)

/-! ### Loads and stores of any thread -/

/-- A load of `len` bytes. -/
def State.load (s : State) (th : ThreadRef) (addr len : Nat) : State × Except Fail (List Byte) :=
  match th with
  | .pk h t n => (s, s.pkLoad h t n addr len)
  | .cc h n => s.ccLoad h n addr len accRead

/-- A store of some bytes. -/
def State.store (s : State) (th : ThreadRef) (addr : Nat) (bs : List Byte) : State × Option Fail :=
  match th with
  | .pk h t n =>
    match s.pkStore h t n addr bs with
    | .ok s1 => (s1, none)
    | .error f => (s, some f)
  | .cc h n => s.ccStore h n addr bs

end Sys2Proof.Machine
end

