-- ==== Sys2Proof/Machine/FkRun.lean ====
section
/-! DEFINITION. One instruction of a thread: the fetch, traps (R314–R317, R358), and `State.fkRun`, through which every instruction's
command passes. A command that names an instruction other than the one at the thread's PC, or a thread that cannot issue, changes
nothing; a word that is no instruction traps ILLEGAL whatever the command names. -/

namespace Sys2Proof.Machine

/-! ### Issue slots (R286, R360, R361) -/

/-- A thread is able to issue: its unit works, it is in no wait and not halted, and a packet thread serves a task, a control core is
released (R286, R360, R621). -/
def State.able (s : State) (th : ThreadRef) : Bool :=
  let x := s.thread th
  decide (x.phase = .issuing) && !x.halted && s.live (threadUnit th) &&
    (match th with
     | .pk _ _ _ => x.task.isSome
     | .cc h _ => bit (s.reg (bCc h) R.cc_CC_CTL) 0)

/-- The number of a thread's core: 0–511 on packet cores, 512 on of the control cores. -/
def coreKey : ThreadRef → Nat
  | .pk h t n => (16 * h.val + t.val) * 16 + n.val / 8
  | .cc h n => 512 + 4 * h.val + n.val / 8

/-- A thread's index in its core. -/
def coreThread : ThreadRef → Nat
  | .pk _ _ n => n.val % 8
  | .cc _ n => n.val % 8

/-- The grants of a thread's core. -/
def State.grants (s : State) (th : ThreadRef) : IssueSlots := tget IssueSlots.none s.slots (coreKey th)

/-- A thread has been able to issue and has received no slot for 64 cycles (R361). -/
def IssueSlots.starved (x : IssueSlots) (i : Nat) : Bool := decide (64 ≤ tget 0 x.wait i)

/-- The core has a slot for a thread in this cycle: each of the four goes to a different thread, and the threads that have waited 64 cycles
go first, by index (R361). Among the others the order of grants is the order of the commands. -/
def IssueSlots.free (x : IssueSlots) (i : Nat) : Bool :=
  let ahead := (List.range 8).filter fun j => x.starved j && decide (j ≠ i) && !x.granted.contains j && (!x.starved i || decide (j < i))
  !x.granted.contains i && decide (x.granted.length + ahead.length < 4)

/-- A thread may issue: it is able to, and its core grants it a slot (R286, R361). -/
def State.canIssue (s : State) (th : ThreadRef) : Bool := s.able th && (s.grants th).free (coreThread th)

/-- A core in GATED wakes for the thread that issues (R638, R639). -/
def State.wakeCore (s : State) (th : ThreadRef) : State :=
  if (s.unit (threadUnit th)).power = 1 then s.updUnit (threadUnit th) fun d => { d with power := 0 } else s

/-- A thread receives a slot, which it consumes (R287); the grant to a thread that had waited 64 cycles is counted (R361). -/
def State.grant (s : State) (th : ThreadRef) : State :=
  let x := s.grants th
  let i := coreThread th
  let s1 := (s.wakeCore th).bumpCore th R.core_ISSUED_SLOTS
  let s2 := if x.starved i then s1.bumpCore th R.core_STARVE_GRANTS else s1
  { s2 with slots := tset IssueSlots.none s2.slots (coreKey th) { granted := x.granted ++ [i], wait := tdel x.wait i } }

/-- The address a thread's PC names: 17 bits on a packet core, a canonical 48-bit address on a control core (R281, R356). -/
def pcAddr (th : ThreadRef) (pc : BitVec 48) : Nat := if isControl th then (pc.signExtend 64).toNat else pc.toNat

/-- A target in the range of PC (R311, R356). -/
def pcInRange (th : ThreadRef) (target : Nat) : Bool := if isControl th then canon target else decide (target ≤ 0x1FFFC)

/-- A target as it is computed: modulo 2³² on a packet core, 2⁶⁴ on a control core (R311, R356). -/
def pcWrap (th : ThreadRef) (target : Int) : Nat := if isControl th then unsigned 64 target else unsigned 32 target

/-- Set a thread's PC. -/
def State.setPc (s : State) (th : ThreadRef) (a : Nat) : State := s.updThread th fun x => { x with pc := BitVec.ofNat 48 a }

/-- The word at a thread's PC (R345, R359). -/
def State.fetch (s : State) (th : ThreadRef) : State × Except Fail Nat :=
  let x := s.thread th
  match th with
  | .pk h t _ =>
    let b := (s.task h t (x.task.getD 0)).bank
    let a := x.pc.toNat % 0x20000
    if (s.tile h t).bankPoisoned b a 4 then (s, .error (.discard drMemory)) else (s, .ok (leNat (tbytes ((s.tile h t).bank b) a 4)))
  | .cc h n =>
    match s.ccLoad h n (pcAddr th x.pc) 4 accFetch with
    | (s1, .ok bs) => (s1, .ok (leNat bs))
    | (s1, .error f) => (s1, .error f)

/-- A thread's next instruction is a division, which may wait for its core's divider (R302). -/
def State.divides (s : State) (th : ThreadRef) : Bool :=
  match th with
  | .pk h t n =>
    match s.nextWord h t n with
    | none => false
    | some w => decide (fkDecode false w = some .div) || decide (fkDecode false w = some .divu) || decide (fkDecode false w = some .rem) ||
        decide (fkDecode false w = some .remu)
  | .cc _ _ => false

/-- The threads of a half. -/
def State.threadsOf (s : State) (h : Half) : List ThreadRef :=
  ((s.tiles.get h).flatMap fun e => e.2.threads.map fun f => ThreadRef.pk h (Fin.ofNat 16 e.1) (Fin.ofNat 128 f.1)) ++
    (s.cc.get h).threads.map fun f => ThreadRef.cc h (Fin.ofNat 32 f.1)

/-- A cycle of the cores of a half ends: the grants of the next cycle begin, and the cycles are counted for which a thread that is able to
issue has received no slot (R361). -/
def State.slotCycle (s : State) (h : Half) : State :=
  let own (k : Nat) : Bool := decide (k / 256 = h.val) || decide (k / 4 = 128 + h.val)
  let waits := (s.threadsOf h).filter fun th =>
    s.able th && !s.stalled th && !s.divides th && !(s.grants th).granted.contains (coreThread th)
  { s with
    slots := waits.foldl (fun t th =>
      let x := tget IssueSlots.none t (coreKey th)
      let n := tget 0 (s.grants th).wait (coreThread th)
      tset IssueSlots.none t (coreKey th) { x with wait := tset 0 x.wait (coreThread th) (if n < 64 then n + 1 else 64) })
      (s.slots.filter fun e => !own e.1) }

/-! ### Traps -/

/-- The address a word of the entry table names, unless it marks the entry absent (R345). -/
def entryAddr (w : Nat) : Option Nat := if w = 0 then none else some (bits w 2 15 * 4)

/-- A word of the entry table of a bank: p for program entry p, 256 for the trap entry (R345). -/
def Tile.entryWord (x : Tile) (b p : Nat) : Nat := leNat (tbytes (x.bank b) (4 * p) 4)

/-- A trap that ends the task (R317). -/
def State.trapDiscard (s : State) (th : ThreadRef) (cause pc reason : Nat) : State :=
  match th with
  | .pk h t n =>
    let u := coreOf h t n
    let r := if reason = drDoubleTrap then 2 else 1
    let s1 := (s.bumpCore th R.core_TRAP_DISCARDS).setReg (ownBlk u) R.core_TRAP_LAST
      (BitVec.ofNat 64 (r <<< 56 ||| (cause % 256) <<< 48 ||| (n.val % 8) <<< 40 ||| pc % 0x20000))
    s1.discardTask h t (s.slotOfThread h t n) reason
  | .cc _ _ => s

/-- Entry to supervisor mode (R358): KRET, KCAUSE and KINFO are written, USER moves to RET_USER and clears, and the thread goes on at the
entry of the cause. -/
def State.kernelEntry (s : State) (th : ThreadRef) (cause ret : Nat) (info : DWord) : State :=
  s.updThread th fun x =>
    let u := b2n x.user
    let e := if 0x80 ≤ cause ∧ cause ≤ 0x82 then x.kreg kKENTRY_XL else x.kreg kKENTRY
    { ((((x.setK kKRET (BitVec.ofNat 64 ret)).setK kKCAUSE (BitVec.ofNat 64 (cause % 256))).setK kKINFO info).setK kKSTATE
        (BitVec.ofNat 64 (2 * u))) with pc := BitVec.ofNat 48 e.toNat }

/-! ### Instructions that are squashed (R287, R290–R295) -/

/-- The cluster of the tile that holds instance `i` of unit 0x38 + u for slot `k` (R402). -/
def Tile.heldIn (x : Tile) (k u i : Nat) : Option Nat :=
  (List.range 4).find? fun c => (tget CpInst.reset x.insts (instKey c u i)).holder = some k

/-- A word is an operation of a cancellable coprocessor, which receives it at issue; the cluster that receives it (R294, R396). -/
def State.cancellable (s : State) (h : Half) (t : TileIx) (n : Fin 128) (w : Nat) : Option Nat :=
  let k := s.slotOfThread h t n
  let u := wPrim w - 0x38
  if 0x38 ≤ wPrim w ∧ wPrim w ≤ 0x3B ∧ wFn7 w < 0x7C ∧ (fkDecode false w).isSome then
    if u < 2 then (s.tile h t).heldIn k u (wInst w) else some (n.val / 32)
  else none

/-- A word that does not issue on a path that is later squashed: a third unresolved conditional branch (R290), an operation of the
Expansion Port, which is NON_CANCELLABLE (R294, R396), and an operation whose dependence counter is full (R250). -/
def State.pathWaits (s : State) (h : Half) (t : TileIx) (n : Fin 128) (w conds : Nat) : Bool :=
  (decide (0x0D ≤ wPrim w) && decide (wPrim w ≤ 0x0F) && decide (2 ≤ conds)) || decide (wPrim w = 0x3F) ||
    ((s.cancellable h t n w).isSome && decide (255 ≤ (s.task h t (s.slotOfThread h t n)).dc (wDc w)))

/-- The instruction that the thread issues after word `w` at `a` on such a path, with the cycles until it may issue (R291). Nothing
younger than a task instruction issues (R293), and the model does not follow a transfer whose target a register or the return stack
holds. -/
def pathNext (a w : Nat) : Option (Nat × Nat) :=
  match fkDecode false w with
  | some .bcc | some .bz | some .bnz => if wH w then some (unsigned 32 ((a : Int) + wOff16 w), 2) else some (a + 4, 1)
  | some .b | some .call => some (unsigned 32 ((a : Int) + wOff26 w), 2)
  | some .jr | some .callr | some .ret | some .tret | some .twait | some .tdone | some .tdrop => none
  | _ => some (a + 4, 1)

/-- One squashed instruction, when `go` tells that it issued: it consumed its slot, and an operation of a cancellable coprocessor has
raised its counter and waits for the acknowledgement of its cancellation (R287, R292, R294). -/
def State.squashOne (s : State) (h : Half) (t : TileIx) (n : Fin 128) (w : Nat) (go : Bool) : State :=
  let k := s.slotOfThread h t n
  let b := ownBlk (coreOf h t n)
  let s1 := (s.bumpBy b R.core_ISSUED_SLOTS (b2n go)).bumpBy b R.core_SQUASHED_SLOTS (b2n go)
  match s1.cancellable h t n w with
  | none => s1
  | some c =>
    s1.updTile h t fun x =>
      { x with
        cancels := x.cancels ++ if go then [{ slot := k, cluster := c, dc := wDc w }] else []
        tasks := tset Task.init x.tasks k
          ((tget Task.init x.tasks k).setDc (wDc w) ((tget Task.init x.tasks k).dc (wDc w) + b2n go)) }

/-- The first `n` instructions that a thread issues from bank offset `a` on, in cycles `c` to `last`, all of them squashed; `conds`
conditional branches are unresolved before them, and the fuel bounds their number (R287, R290–R295). -/
def State.squashPath (s : State) (h : Half) (t : TileIx) (th : Fin 128) (n a c last conds : Nat) : Nat → State
  | 0 => s
  | fuel + 1 =>
    let w := leNat (tbytes ((s.tile h t).bank (s.task h t (s.slotOfThread h t th)).bank) (a % 0x20000) 4)
    if last < c ∨ 0x1FFFC < a ∨ s.pathWaits h t th w conds then s
    else
      let s1 := s.squashOne h t th w (decide (0 < n))
      match pathNext a w with
      | none => s1
      | some (a1, d) =>
        s1.squashPath h t th (n - 1) a1 (c + d) last (conds + b2n (decide (0x0D ≤ wPrim w) && decide (wPrim w ≤ 0x0F))) fuel

/-- The `n` instructions issued on a wrong path from `a` on, while one conditional branch is unresolved: a path that is taken issues in
c + 2 alone, one that falls through in c + 1 and c + 2 (R290, R291). A control core has no such counters and no coprocessors. -/
def State.wrongPath (s : State) (th : ThreadRef) (a : Nat) (hinted : Bool) (n : Nat) : State :=
  match th with
  | .pk h t k => s.squashPath h t k n a (if hinted then 2 else 1) 2 1 n
  | .cc _ _ => s

/-- The instructions that had issued behind one that traps are squashed: how many is a free value, at most 31 (R287, R295). -/
def State.squashBehind (s : State) (th : ThreadRef) (a : Nat) : State :=
  match th with
  | .pk h t k => (s.squashPath h t k (s.free 5).toNat (unsigned 32 ((a : Int) + 4)) 1 1000 0 31).used
  | .cc _ _ => s

/-! ### Taking a trap -/

/-- A trap with its cause, TVAL and the address for TPC, of the instruction at `at0` (R314, R315, R317). What issued behind it is squashed;
behind a transfer or a fall-through out of the range of PC nothing could issue. -/
def State.takeTrap (s : State) (th : ThreadRef) (cause : Nat) (tval : DWord) (tpc at0 : Nat) : State :=
  match th with
  | .cc _ _ => s.kernelEntry th cause tpc tval
  | .pk h t _ =>
    let s1 := if cause = cPcRange then s else s.squashBehind th at0
    let x := s.thread th
    let b := (s.task h t (x.task.getD 0)).bank
    if x.tcause.getLsbD 31 then s1.trapDiscard th cause at0 drDoubleTrap
    else
      match entryAddr ((s.tile h t).entryWord b 256) with
      | none => s1.trapDiscard th cause at0 drTrapUnhandled
      | some e =>
        (s1.updThread th fun x =>
          { x with tcause := 0x80000000 ||| BitVec.ofNat 32 (cause % 256), tpc := BitVec.ofNat 32 (bits tpc 2 15 * 4),
                   tval := BitVec.ofNat 32 tval.toNat, pc := BitVec.ofNat 48 e }).bumpCore th R.core_TRAPS_TAKEN

/-- What stops an instruction takes place: its trap, the discard of its task, or nothing while it waits (R314, R358, R558). -/
def State.failWith (s : State) (th : ThreadRef) (at0 : Nat) (f : Fail) : State :=
  match f with
  | .trap c v => s.takeTrap th c (BitVec.ofNat 64 v) at0 at0
  | .priv => (s.takeTrap th cPriv (s.free 64) at0 at0).used
  | .discard r =>
    match th with
    | .pk h t n => s.discardTask h t (s.slotOfThread h t n) r
    | .cc _ _ => s
  | .stall => s

/-! ### One instruction -/

/-- What an instruction works on: its thread, the thread's registers, the word and its address. -/
structure Fk where
  th : ThreadRef
  x : Thread
  w : Nat
  pc : Nat
  deriving DecidableEq, Repr

/-- How an instruction comes out. -/
inductive FkRes where
  /-- it has its effect and falls through -/
  | next (s : State)
  /-- it has its effect and transfers -/
  | jump (s : State) (target : Int)
  /-- a conditional branch has resolved: what it counted stands, and it transfers -/
  | branch (s : State) (target : Int)
  /-- it has no effect and traps, or waits to issue -/
  | fail (s : State) (f : Fail)
  /-- it has its effect and traps with TPC at the next instruction -/
  | after (s : State) (cause tval : Nat)
  /-- it has its effect, which sets the thread's PC itself; it falls through when it completes -/
  | wait (s : State)
  /-- it ends the task, or leaves the thread's PC to be set by its effect -/
  | ended (s : State)

/-- The bits [31:0] of a register. -/
def Fk.g (c : Fk) (r : Nat) : Nat := (c.x.getG r).toNat % 2 ^ 32

/-- All bits of a register: 32 on a packet core, 64 on a control core. -/
def Fk.gFull (c : Fk) (r : Nat) : Nat := (c.x.getG r).toNat

/-- The address gs + simm of a load or store (R348, R356). -/
def Fk.addr (c : Fk) : Nat := pcWrap c.th ((c.gFull (wB c.w) : Int) + signed 16 (wImm16 c.w))

/-- A 32-bit result as a register holds it: zero-extended on a packet core, copies of bit 31 above on a control core (R356). -/
def gWord (th : ThreadRef) (v : Nat) : DWord :=
  if isControl th then (BitVec.ofNat 32 v).signExtend 64 else BitVec.ofNat 64 (v % 2 ^ 32)

/-- Write a 32-bit result to a register (R281, R356). -/
def State.putG (s : State) (th : ThreadRef) (r v : Nat) : State := s.updThread th fun x => x.setG r (gWord th v)

/-- Write a 64-bit result to a register of a control core. -/
def State.putG64 (s : State) (th : ThreadRef) (r v : Nat) : State := s.updThread th fun x => x.setG r (BitVec.ofNat 64 v)

/-- Set sticky flags (R285). -/
def State.stick (s : State) (th : ThreadRef) (f : Word) : State := s.updThread th fun x => { x with flags := x.flags ||| f }

/-- The state after an instruction's outcome; `s` is the state before it. A fall-through that leaves the range of PC traps PC_RANGE and
has no effect (R311). -/
def State.fkFinish (s : State) (c : Fk) (r : FkRes) : State :=
  let nextPc := pcWrap c.th ((c.pc : Int) + 4)
  let range (target : Nat) (s' : State) : State :=
    if pcInRange c.th target then s' else s.takeTrap c.th cPcRange (BitVec.ofNat 64 target) c.pc c.pc
  match r with
  | .next s1 => range nextPc (s1.setPc c.th nextPc)
  | .wait s1 => range nextPc s1
  | .jump s1 t => range (pcWrap c.th t) (s1.setPc c.th (pcWrap c.th t))
  | .branch s1 t =>
    let a := pcWrap c.th t
    if pcInRange c.th a then s1.setPc c.th a else s1.takeTrap c.th cPcRange (BitVec.ofNat 64 a) c.pc c.pc
  | .fail s1 f => s1.failWith c.th c.pc f
  | .after s1 cause tval => s1.takeTrap c.th cause (BitVec.ofNat 64 tval) nextPc c.pc
  | .ended s1 => s1

/-- An outcome that consumed an issue slot (R287). -/
def FkRes.issued : FkRes → Bool
  | .fail _ .stall => false
  | _ => true

/-- The instruction at a thread's PC issues and retires when it is `op` (R286–R295). -/
def State.fkStep (s : State) (op : FkOp) (th : ThreadRef) (body : State → Fk → FkRes) : State :=
  if s.canIssue th then
    let at0 := pcAddr th (s.thread th).pc
    match s.fetch th with
    | (s1, .error f) => s1.failWith th at0 f
    | (s1, .ok w) =>
      let c : Fk := { th := th, x := s1.thread th, w := w, pc := at0 }
      let s2 := s1.grant th
      match fkDecode (isControl th) w with
      | none => s2.takeTrap th cIllegal (BitVec.ofNat 64 w) at0 at0
      | some o =>
        if o = op then
          if (body s2 c).issued then s2.fkFinish c (body s2 c) else s1
        else s
  else s

/-- The command of instruction `op` at a thread (R286–R295). An instruction of which an HBM access has to wait has not issued (R502,
R505, R514). -/
def State.fkRun (s : State) (op : FkOp) (th : ThreadRef) (body : State → Fk → FkRes) : State := s.orWait fun s => s.fkStep op th body

end Sys2Proof.Machine
end

