-- ==== Sys2Proof/Machine/Alu.lean ====
section
/-! DEFINITION. The integer instructions (R297–R303): one function per result at a width of 32 or 64 bits, and the commands of
primaries 0x00 to 0x08, with the 64-bit forms of R357. -/

namespace Sys2Proof.Machine

/-- A count shifts left, right or arithmetically right by `n` bits at width `w`; counts of `w` or more give 0 or the sign (R300). -/
def shl (w a n : Nat) : Nat := if w ≤ n then 0 else (a <<< n) % 2 ^ w
def shr (w a n : Nat) : Nat := if w ≤ n then 0 else a >>> n
def sar (w a n : Nat) : Nat := unsigned w (signed w a / ((2 ^ (if w ≤ n then w else n) : Nat) : Int))
def rotr (w a n : Nat) : Nat := (a >>> (n % w) ||| a <<< (w - n % w)) % 2 ^ w

/-- SLS: the true result under the overflow rule (R296, R300). -/
def slsRes (w : Nat) (sat : Bool) (a n : Nat) : Res := overflow w sat (signed w a * ((2 ^ n : Nat) : Int))

/-- The signed quotient truncated toward zero, with the edges of R303. -/
def divRes (w : Nat) (sat : Bool) (a b : Nat) : Res :=
  let x := signed w a
  let y := signed w b
  if y = 0 then ⟨if 0 ≤ x then 2 ^ (w - 1) - 1 else 2 ^ (w - 1), flDz⟩ else overflow w sat (x.tdiv y)

/-- The unsigned quotient (R301, R303). -/
def divuRes (w a b : Nat) : Res := if b = 0 then ⟨2 ^ w - 1, flDz⟩ else ⟨a / b, 0⟩

/-- The signed remainder, which takes the sign of the dividend (R301, R303). -/
def remRes (w a b : Nat) : Res :=
  let y := signed w b
  if y = 0 then ⟨a, flDz⟩ else ⟨unsigned w ((signed w a).tmod y), 0⟩

/-- The unsigned remainder (R301, R303). -/
def remuRes (a b : Nat) : Res := if b = 0 then ⟨a, flDz⟩ else ⟨a % b, 0⟩

/-- The result of an integer instruction on `w`-bit operands a (gs) and b (gt); `sat` is MODE.SAT or the .S form
(R296–R298, R300, R301, R303). -/
def aluRes (w : Nat) (o : FkOp) (sat : Bool) (a b : Nat) : Res :=
  let x := signed w a
  let y := signed w b
  let n := b % 256
  match o with
  | .add => Res.plain (a + b)
  | .sub => Res.plain (unsigned w ((a : Int) - (b : Int)))
  | .adds => clampS w (x + y)
  | .subs => clampS w (x - y)
  | .addus => clampU w ((a : Int) + (b : Int))
  | .subus => clampU w ((a : Int) - (b : Int))
  | .neg => overflow w sat (-x)
  | .abs => overflow w sat (if 0 ≤ x then x else -x)
  | .and => Res.plain (a &&& b)
  | .or => Res.plain (a ||| b)
  | .xor => Res.plain (a ^^^ b)
  | .andn => Res.plain (a &&& (2 ^ w - 1 - b % 2 ^ w))
  | .min => Res.plain (if x < y then a else b)
  | .max => Res.plain (if x < y then b else a)
  | .minu => Res.plain (if a < b then a else b)
  | .maxu => Res.plain (if a < b then b else a)
  | .clz => Res.plain (clz w a)
  | .ctz => Res.plain (ctz w a)
  | .popc => Res.plain (popCount w a)
  | .bswap => Res.plain (bswap w a)
  | .sll => Res.plain (shl w a n)
  | .srl => Res.plain (shr w a n)
  | .sra => Res.plain (sar w a n)
  | .ror => Res.plain (rotr w a n)
  | .sls => slsRes w sat a n
  | .mul => Res.plain (a * b)
  | .mulh => Res.plain (unsigned w (x * y / ((2 ^ w : Nat) : Int)))
  | .mulhu => Res.plain (a * b / 2 ^ w)
  | .div => divRes w sat a b
  | .divu => divuRes w a b
  | .rem => remRes w a b
  | .remu => remuRes a b
  | _ => Res.plain 0

/-- MODE.SAT or the .S form of a format-R or format-A instruction (R296). -/
def Fk.sat (c : Fk) : Bool := modeSat c.x.mode || wS c.w

/-- A result goes to gd with its sticky flags. -/
def State.gRes (s : State) (c : Fk) (r : Res) : FkRes := .next ((s.putG c.th (wA c.w) r.val).stick c.th r.flags)

/-- An instruction of primary 0x00 that writes gd. -/
def aluBody (o : FkOp) (s : State) (c : Fk) : FkRes := s.gRes c (aluRes 32 o c.sat (c.g (wB c.w)) (c.g (wC c.w)))

/-- A division: gd is written, then a zero divisor traps DIV_ZERO when MODE.DZ_TRAP is 1 (R303). -/
def divBody (o : FkOp) (s : State) (c : Fk) : FkRes :=
  let r := aluRes 32 o c.sat (c.g (wB c.w)) (c.g (wC c.w))
  let s1 := (s.putG c.th (wA c.w) r.val).stick c.th r.flags
  if c.g (wC c.w) = 0 ∧ modeDz c.x.mode then .after s1 cDivZero (c.g (wB c.w)) else .next s1

/-- Set the FLAGS word. -/
def State.setFlags (s : State) (th : ThreadRef) (f : Word) : State := s.updThread th fun x => { x with flags := f }

/-! ### Primary 0x00 -/

/-- ADD (R297). -/
def execFkAdd (th : ThreadRef) (s : State) : Out := .next (s.fkRun .add th (aluBody .add))

/-- SUB (R297). -/
def execFkSub (th : ThreadRef) (s : State) : Out := .next (s.fkRun .sub th (aluBody .sub))

/-- ADDS (R297). -/
def execFkAdds (th : ThreadRef) (s : State) : Out := .next (s.fkRun .adds th (aluBody .adds))

/-- SUBS (R297). -/
def execFkSubs (th : ThreadRef) (s : State) : Out := .next (s.fkRun .subs th (aluBody .subs))

/-- ADDUS (R297). -/
def execFkAddus (th : ThreadRef) (s : State) : Out := .next (s.fkRun .addus th (aluBody .addus))

/-- SUBUS (R297). -/
def execFkSubus (th : ThreadRef) (s : State) : Out := .next (s.fkRun .subus th (aluBody .subus))

/-- NEG (R296–R298). -/
def execFkNeg (th : ThreadRef) (s : State) : Out := .next (s.fkRun .neg th (aluBody .neg))

/-- ABS (R296–R298). -/
def execFkAbs (th : ThreadRef) (s : State) : Out := .next (s.fkRun .abs th (aluBody .abs))

/-- AND (R297). -/
def execFkAnd (th : ThreadRef) (s : State) : Out := .next (s.fkRun .and th (aluBody .and))

/-- OR (R297). -/
def execFkOr (th : ThreadRef) (s : State) : Out := .next (s.fkRun .or th (aluBody .or))

/-- XOR (R297). -/
def execFkXor (th : ThreadRef) (s : State) : Out := .next (s.fkRun .xor th (aluBody .xor))

/-- ANDN (R297). -/
def execFkAndn (th : ThreadRef) (s : State) : Out := .next (s.fkRun .andn th (aluBody .andn))

/-- MIN (R297). -/
def execFkMin (th : ThreadRef) (s : State) : Out := .next (s.fkRun .min th (aluBody .min))

/-- MAX (R297). -/
def execFkMax (th : ThreadRef) (s : State) : Out := .next (s.fkRun .max th (aluBody .max))

/-- MINU (R297). -/
def execFkMinu (th : ThreadRef) (s : State) : Out := .next (s.fkRun .minu th (aluBody .minu))

/-- MAXU (R297). -/
def execFkMaxu (th : ThreadRef) (s : State) : Out := .next (s.fkRun .maxu th (aluBody .maxu))

/-- CLZ (R297). -/
def execFkClz (th : ThreadRef) (s : State) : Out := .next (s.fkRun .clz th (aluBody .clz))

/-- CTZ (R297). -/
def execFkCtz (th : ThreadRef) (s : State) : Out := .next (s.fkRun .ctz th (aluBody .ctz))

/-- POPC (R297). -/
def execFkPopc (th : ThreadRef) (s : State) : Out := .next (s.fkRun .popc th (aluBody .popc))

/-- BSWAP (R297). -/
def execFkBswap (th : ThreadRef) (s : State) : Out := .next (s.fkRun .bswap th (aluBody .bswap))

/-- SLL (R300). -/
def execFkSll (th : ThreadRef) (s : State) : Out := .next (s.fkRun .sll th (aluBody .sll))

/-- SRL (R300). -/
def execFkSrl (th : ThreadRef) (s : State) : Out := .next (s.fkRun .srl th (aluBody .srl))

/-- SRA (R300). -/
def execFkSra (th : ThreadRef) (s : State) : Out := .next (s.fkRun .sra th (aluBody .sra))

/-- ROR (R300). -/
def execFkRor (th : ThreadRef) (s : State) : Out := .next (s.fkRun .ror th (aluBody .ror))

/-- SLS (R296, R300). -/
def execFkSls (th : ThreadRef) (s : State) : Out := .next (s.fkRun .sls th (aluBody .sls))

/-- MUL (R301). -/
def execFkMul (th : ThreadRef) (s : State) : Out := .next (s.fkRun .mul th (aluBody .mul))

/-- MULH (R301). -/
def execFkMulh (th : ThreadRef) (s : State) : Out := .next (s.fkRun .mulh th (aluBody .mulh))

/-- MULHU (R301). -/
def execFkMulhu (th : ThreadRef) (s : State) : Out := .next (s.fkRun .mulhu th (aluBody .mulhu))

/-- DIV (R301–R303). -/
def execFkDiv (th : ThreadRef) (s : State) : Out := .next (s.fkRun .div th (divBody .div))

/-- DIVU (R301–R303). -/
def execFkDivu (th : ThreadRef) (s : State) : Out := .next (s.fkRun .divu th (divBody .divu))

/-- REM (R301–R303). -/
def execFkRem (th : ThreadRef) (s : State) : Out := .next (s.fkRun .rem th (divBody .rem))

/-- REMU (R301–R303). -/
def execFkRemu (th : ThreadRef) (s : State) : Out := .next (s.fkRun .remu th (divBody .remu))

/-- FMUL (R305, R307). -/
def execFkFmul (th : ThreadRef) (s : State) : Out := .next (s.fkRun .fmul th fun s c =>
  s.gRes c (overflow 32 c.sat (roundShift (modeRnd c.x.mode) (signed 32 (c.g (wB c.w)) * signed 32 (c.g (wC c.w))) 31)))

/-- SEL (R297, R309). -/
def execFkSel (th : ThreadRef) (s : State) : Out := .next (s.fkRun .sel th fun s c =>
  s.gRes c (Res.plain (if condHolds c.x.flags (wCc c.w) then c.g (wB c.w) else c.g (wC c.w))))

/-- CMP (R308). -/
def execFkCmp (th : ThreadRef) (s : State) : Out := .next (s.fkRun .cmp th fun s c =>
  .next (s.setFlags c.th (cmpFlags 32 c.x.flags (c.g (wB c.w)) (c.g (wC c.w)))))

/-- TST (R308). -/
def execFkTst (th : ThreadRef) (s : State) : Out := .next (s.fkRun .tst th fun s c =>
  .next (s.setFlags c.th (tstFlags 32 c.x.flags (c.g (wB c.w)) (c.g (wC c.w)))))

/-! ### Primaries 0x01 to 0x07 -/

/-- simm as a 32-bit value (R297). -/
def Fk.simm (c : Fk) : Nat := unsigned 32 (signed 16 (wImm16 c.w))

/-- ADDI (R297). -/
def execFkAddi (th : ThreadRef) (s : State) : Out := .next (s.fkRun .addi th fun s c => s.gRes c (Res.plain (c.g (wB c.w) + c.simm)))

/-- ANDI (R297). -/
def execFkAndi (th : ThreadRef) (s : State) : Out := .next (s.fkRun .andi th fun s c => s.gRes c (Res.plain (c.g (wB c.w) &&& wImm16 c.w)))

/-- ORI (R297). -/
def execFkOri (th : ThreadRef) (s : State) : Out := .next (s.fkRun .ori th fun s c => s.gRes c (Res.plain (c.g (wB c.w) ||| wImm16 c.w)))

/-- XORI (R297). -/
def execFkXori (th : ThreadRef) (s : State) : Out := .next (s.fkRun .xori th fun s c => s.gRes c (Res.plain (c.g (wB c.w) ^^^ wImm16 c.w)))

/-- LI (R297). -/
def execFkLi (th : ThreadRef) (s : State) : Out := .next (s.fkRun .li th fun s c => s.gRes c (Res.plain (c.simm)))

/-- LUI (R297). -/
def execFkLui (th : ThreadRef) (s : State) : Out := .next (s.fkRun .lui th fun s c => s.gRes c (Res.plain (wImm16 c.w * 65536)))

/-- CMPI (R308). -/
def execFkCmpi (th : ThreadRef) (s : State) : Out := .next (s.fkRun .cmpi th fun s c =>
  .next (s.setFlags c.th (cmpFlags 32 c.x.flags (c.g (wB c.w)) c.simm)))

/-! ### Primary 0x08 (R299, R300, R350) -/

/-- The count, position and length fields of format SH. -/
def Fk.shC (c : Fk) : Nat := bits c.w 0 8
def Fk.pos (c : Fk) : Nat := bits c.w 5 5
def Fk.len (c : Fk) : Nat := bits c.w 0 5 + 1

/-- SLLI (R299, R300). -/
def execFkSlli (th : ThreadRef) (s : State) : Out := .next (s.fkRun .slli th fun s c =>
  s.gRes c (Res.plain (shl 32 (c.g (wB c.w)) c.shC)))

/-- SRLI (R299, R300). -/
def execFkSrli (th : ThreadRef) (s : State) : Out := .next (s.fkRun .srli th fun s c =>
  s.gRes c (Res.plain (shr 32 (c.g (wB c.w)) c.shC)))

/-- SRAI (R299, R300). -/
def execFkSrai (th : ThreadRef) (s : State) : Out := .next (s.fkRun .srai th fun s c =>
  s.gRes c (Res.plain (sar 32 (c.g (wB c.w)) c.shC)))

/-- RORI (R299, R300). -/
def execFkRori (th : ThreadRef) (s : State) : Out := .next (s.fkRun .rori th fun s c =>
  s.gRes c (Res.plain (rotr 32 (c.g (wB c.w)) c.shC)))

/-- SLSI (R299, R300). -/
def execFkSlsi (th : ThreadRef) (s : State) : Out := .next (s.fkRun .slsi th fun s c =>
  s.gRes c (slsRes 32 (modeSat c.x.mode || wShS c.w) (c.g (wB c.w)) c.shC))

/-- EXTU (R299, R300). -/
def execFkExtu (th : ThreadRef) (s : State) : Out := .next (s.fkRun .extu th fun s c =>
  s.gRes c (Res.plain (bits (c.g (wB c.w)) c.pos c.len)))

/-- EXTS (R299, R300). -/
def execFkExts (th : ThreadRef) (s : State) : Out := .next (s.fkRun .exts th fun s c =>
  s.gRes c (Res.plain (unsigned 32 (signed c.len (bits (c.g (wB c.w)) c.pos c.len)))))

/-- `d` with bits [pos + len − 1 : pos] taken from the low bits of `v`; bits above 31 are dropped (R299). -/
def insBits (d v pos len : Nat) : Nat :=
  let m := ((2 ^ len - 1) <<< pos) % 2 ^ 32
  (d &&& (2 ^ 32 - 1 - m)) ||| (((v % 2 ^ len) <<< pos) % 2 ^ 32)

/-- INS (R299, R300). -/
def execFkIns (th : ThreadRef) (s : State) : Out := .next (s.fkRun .ins th fun s c =>
  s.gRes c (Res.plain (insBits (c.g (wA c.w)) (c.g (wB c.w)) c.pos c.len)))

/-! ### The 64-bit forms (R357) -/

/-- A result goes to the 64-bit gd with its sticky flags. -/
def State.gRes64 (s : State) (c : Fk) (r : Res) : State := (s.putG64 c.th (wA c.w) r.val).stick c.th r.flags

/-- The 64-bit form of the function the word names. -/
def alu64Body (s : State) (c : Fk) : FkRes :=
  let a := c.gFull (wB c.w)
  let b := c.gFull (wC c.w)
  match aluOp (wFn6 c.w) with
  | some .cmp => .next (s.setFlags c.th (cmpFlags 64 c.x.flags a b))
  | some .tst => .next (s.setFlags c.th (tstFlags 64 c.x.flags a b))
  | some o =>
    let r := aluRes 64 o c.sat a b
    let s1 := s.gRes64 c r
    if r.flags &&& flDz ≠ 0 ∧ modeDz c.x.mode then .after s1 cDivZero a else .next s1
  | none => .next s

/-- ALU64 (R357). -/
def execFkAlu64 (th : ThreadRef) (s : State) : Out := .next (s.fkRun .alu64 th alu64Body)

/-- ADDI64 (R357). -/
def execFkAddi64 (th : ThreadRef) (s : State) : Out := .next (s.fkRun .addi64 th fun s c =>
  .next (s.putG64 c.th (wA c.w) (unsigned 64 ((c.gFull (wB c.w) : Int) + signed 16 (wImm16 c.w)))))

/-! ### Fractions and accumulators (R305–R307) -/

/-- An accumulator as a signed number, and its 40 bits. -/
def Fk.acc (c : Fk) (i : Nat) : Int := (tget 0 c.x.a i).toInt
def Fk.accBits (c : Fk) (i : Nat) : Nat := (tget 0 c.x.a i).toNat

/-- Write an accumulator with the sticky flags of its result. -/
def State.aRes (s : State) (c : Fk) (r : Res) : FkRes :=
  .next ((s.updThread c.th fun x => { x with a := tset 0 x.a (wAd c.w) (BitVec.ofNat 40 r.val) }).stick c.th r.flags)

/-- The exact signed product of gs and gt (R305). -/
def Fk.prod (c : Fk) : Int := signed 32 (c.g (wB c.w)) * signed 32 (c.g (wC c.w))

/-- round(p, 31) (R304, R305). -/
def Fk.rprod (c : Fk) : Int := roundShift (modeRnd c.x.mode) c.prod 31

/-- MPYF (R305). -/
def execFkMpyf (th : ThreadRef) (s : State) : Out := .next (s.fkRun .mpyf th fun s c => s.aRes c (Res.plain (unsigned 40 c.rprod)))

/-- MACF (R305). -/
def execFkMacf (th : ThreadRef) (s : State) : Out := .next (s.fkRun .macf th fun s c => s.aRes c (overflow 40 c.sat (c.acc (wAd c.w) + c.rprod)))

/-- MSUF (R305). -/
def execFkMsuf (th : ThreadRef) (s : State) : Out := .next (s.fkRun .msuf th fun s c => s.aRes c (overflow 40 c.sat (c.acc (wAd c.w) - c.rprod)))

/-- MACI (R305). -/
def execFkMaci (th : ThreadRef) (s : State) : Out := .next (s.fkRun .maci th fun s c => s.aRes c (overflow 40 c.sat (c.acc (wAd c.w) + c.prod)))

/-- AADD (R305). -/
def execFkAadd (th : ThreadRef) (s : State) : Out := .next (s.fkRun .aadd th fun s c => s.aRes c (overflow 40 c.sat (c.acc (wAd c.w) + c.acc (wAs c.w))))

/-- ASUB (R305). -/
def execFkAsub (th : ThreadRef) (s : State) : Out := .next (s.fkRun .asub th fun s c => s.aRes c (overflow 40 c.sat (c.acc (wAd c.w) - c.acc (wAs c.w))))

/-- ANEG (R305). -/
def execFkAneg (th : ThreadRef) (s : State) : Out := .next (s.fkRun .aneg th fun s c => s.aRes c (overflow 40 c.sat (-(c.acc (wAd c.w)))))

/-- ASL (R305). -/
def execFkAsl (th : ThreadRef) (s : State) : Out := .next (s.fkRun .asl th fun s c => s.aRes c (overflow 40 c.sat (c.acc (wAd c.w) * ((2 ^ wAc c.w : Nat) : Int))))

/-- ASR (R305). -/
def execFkAsr (th : ThreadRef) (s : State) : Out := .next (s.fkRun .asr th fun s c => s.aRes c (Res.plain (sar 40 (c.accBits (wAd c.w)) (wAc c.w))))

/-- ACLR (R305). -/
def execFkAclr (th : ThreadRef) (s : State) : Out := .next (s.fkRun .aclr th fun s c => s.aRes c (Res.plain 0))

/-- MVG (R305). -/
def execFkMvg (th : ThreadRef) (s : State) : Out := .next (s.fkRun .mvg th fun s c => s.aRes c (Res.plain (unsigned 40 (signed 32 (c.g (wB c.w))))))

/-- MVAS (R305). -/
def execFkMvas (th : ThreadRef) (s : State) : Out := .next (s.fkRun .mvas th fun s c => s.aRes c (Res.plain (c.g (wA c.w) % 256 * 2 ^ 32 + c.g (wC c.w))))

/-- EXTR (R305). -/
def execFkExtr (th : ThreadRef) (s : State) : Out := .next (s.fkRun .extr th fun s c =>
  s.gRes c (overflow 32 c.sat (roundShift (modeRnd c.x.mode) (c.acc (wAs c.w)) (wAc c.w))))

/-- MVAL (R305). -/
def execFkMval (th : ThreadRef) (s : State) : Out := .next (s.fkRun .mval th fun s c => s.gRes c (Res.plain (c.accBits (wAs c.w) % 2 ^ 32)))

/-- MVAH (R305). -/
def execFkMvah (th : ThreadRef) (s : State) : Out := .next (s.fkRun .mvah th fun s c => s.gRes c (Res.plain (unsigned 32 (signed 8 (c.accBits (wAs c.w) / 2 ^ 32)))))

end Sys2Proof.Machine
end

