-- ==== Sys2Proof/Machine/Control.lean ====
section
/-! DEFINITION. The control instructions (R310–R313), the conditional branches (R290–R294), and the special registers (R284, R326, R362). -/

namespace Sys2Proof.Machine

/-! ### Conditional branches (R290, R291, R310) -/

/-- A conditional branch that is `taken`; against its hint it is counted, and of the cycles before it resolved up to `n` instructions were
issued on the hinted path: from c + 1 on when that path falls through, in c + 2 when it is taken (R290, R291). The counts stand when the
target traps PC_RANGE (R311). -/
def branchBody (taken : Bool) (n : Nat) (s : State) (c : Fk) : FkRes :=
  let target : Int := (c.pc : Int) + wOff16 c.w
  let seq : Int := (c.pc : Int) + 4
  let s1 := if taken = wH c.w then s
    else (s.bumpCore c.th R.core_MISPREDICTS).wrongPath c.th (pcWrap c.th (if wH c.w then target else seq)) (wH c.w) n
  .branch s1 (if taken then target else seq)

/-! ### Transfers (R310–R313) -/

/-- B (R310). -/
def execFkB (th : ThreadRef) (s : State) : Out := .next (s.fkRun .b th fun s c => .jump s ((c.pc : Int) + wOff26 c.w))

/-- Bcc (R309, R310). -/
def execFkBcc (th : ThreadRef) (n : Fin 3) (s : State) : Out := .next (s.fkRun .bcc th fun s c =>
  branchBody (condHolds c.x.flags (bits c.w 22 4)) n.val s c)

/-- BZ (R310). -/
def execFkBz (th : ThreadRef) (n : Fin 3) (s : State) : Out := .next (s.fkRun .bz th fun s c =>
  branchBody (decide (c.g (wA c.w) = 0)) n.val s c)

/-- BNZ (R310). -/
def execFkBnz (th : ThreadRef) (n : Fin 3) (s : State) : Out := .next (s.fkRun .bnz th fun s c =>
  branchBody (!decide (c.g (wA c.w) = 0)) n.val s c)

/-- The address a register names: bits [31:0] of the register, of which [1:0] are ignored (R310, R356). -/
def Fk.regTarget (c : Fk) : Int := ((c.g (wB c.w) / 4 * 4 : Nat) : Int)

/-- A return address as the return stack holds it: 17 bits, or 48 on a control core (R281, R356). -/
def rsEntry (th : ThreadRef) (a : Nat) : BitVec 48 := BitVec.ofNat 48 (if isControl th then a else a % 0x20000)

/-- Push an entry on the return stack. -/
def State.pushRs (s : State) (th : ThreadRef) (a : Nat) : State := s.updThread th fun x => { x with rs := rsEntry th a :: x.rs }

/-- The return stack is full (R312). -/
def Fk.rsFull (c : Fk) : Bool := decide (32 ≤ c.x.rs.length)

/-- JR (R310). -/
def execFkJr (th : ThreadRef) (s : State) : Out := .next (s.fkRun .jr th fun s c => .jump s c.regTarget)

/-- CALL (R310, R312). -/
def execFkCall (th : ThreadRef) (s : State) : Out := .next (s.fkRun .call th fun s c =>
  if c.rsFull then .fail s (.trap cRsOver 32) else .jump (s.pushRs c.th (c.pc + 4)) ((c.pc : Int) + wOff26 c.w))

/-- CALLR (R310, R312). -/
def execFkCallr (th : ThreadRef) (s : State) : Out := .next (s.fkRun .callr th fun s c =>
  if c.rsFull then .fail s (.trap cRsOver 32) else .jump (s.pushRs c.th (c.pc + 4)) c.regTarget)

/-- RSPUSH (R310, R312). -/
def execFkRspush (th : ThreadRef) (s : State) : Out := .next (s.fkRun .rspush th fun s c =>
  if c.rsFull then .fail s (.trap cRsOver 32) else .next (s.pushRs c.th (c.g (wB c.w) / 4 * 4)))

/-- The top entry leaves the return stack; below ISTAT.DEPTH the interrupt ends, and with it an open COPROC_LATE record
(R312, R374, R411). -/
def Thread.popRs (x : Thread) : Thread :=
  let rs := x.rs.drop 1
  let fin := x.istat.getLsbD 31 && decide (rs.length < bits x.istat.toNat 0 6)
  { x with rs := rs, istat := if fin then x.istat &&& 0x7FFFFFFF else x.istat,
           late := if fin && decide (bits x.istat.toNat 8 3 = 6) then none else x.late }

/-- A RET that ends an interrupt on a control core restores the mode of PREV_USER (R374). -/
def Thread.retMode (x : Thread) (th : ThreadRef) : Thread :=
  if isControl th && x.istat.getLsbD 31 && !x.popRs.istat.getLsbD 31 then
    x.popRs.setK kKSTATE (setFld (x.kreg kKSTATE) 0 1 (b2n (x.istat.getLsbD 29)))
  else x.popRs

/-- RET (R310, R312, R374). -/
def execFkRet (th : ThreadRef) (s : State) : Out := .next (s.fkRun .ret th fun s c =>
  match c.x.rs with
  | [] => .fail s (.trap cRsUnder 0)
  | a :: _ => .jump (s.updThread c.th fun x => x.retMode c.th) ((pcAddr c.th a : Nat) : Int))

/-- RSPOP (R310, R312, R374). -/
def execFkRspop (th : ThreadRef) (s : State) : Out := .next (s.fkRun .rspop th fun s c =>
  match c.x.rs with
  | [] => .fail s (.trap cRsUnder 0)
  | a :: _ => .next (s.updThread c.th fun x => x.popRs.setG (wA c.w) (gWord c.th (pcAddr c.th a % 2 ^ 32))))

/-! ### Traps, halts and no-operations (R310) -/

/-- TRAP (R310, R314). -/
def execFkTrap (th : ThreadRef) (s : State) : Out := .next (s.fkRun .trap th fun s c => .after s cSoftware (wImm8 c.w))

/-- A debugger is attached to the thread's core (R377); the control cores have no DBG_CFG. -/
def State.attached (s : State) (th : ThreadRef) : Bool :=
  match th with
  | .pk h t n => bit (s.reg (ownBlk (coreOf h t n)) R.core_DBG_CFG) 0
  | .cc _ _ => false

/-- BREAK (R310, R314, R377). -/
def execFkBreak (th : ThreadRef) (s : State) : Out := .next (s.fkRun .brk th fun s c =>
  if s.attached c.th then .next (s.haltNow c.th) else .fail s (.trap cBreak 0))

/-- TRET (R310, R314). -/
def execFkTret (th : ThreadRef) (s : State) : Out := .next (s.fkRun .tret th fun s c =>
  if c.x.tcause.getLsbD 31 then
    .jump (s.updThread c.th fun x => { x with tcause := x.tcause &&& 0x7FFFFFFF }) ((c.x.tpc.toNat : Nat) : Int)
  else .fail s (.trap cIllegal c.w))

/-- CLRF (R285, R310). -/
def execFkClrf (th : ThreadRef) (s : State) : Out := .next (s.fkRun .clrf th fun s c =>
  .next (s.updThread c.th fun x => { x with flags := x.flags &&& ~~~(BitVec.ofNat 32 (wImm8 c.w % 8)) }))

/-- NOP (R310). -/
def execFkNop (th : ThreadRef) (s : State) : Out := .next (s.fkRun .nop th fun s _ => .next s)

/-! ### Special registers (R284, R326, R362) -/

/-- CHSTAGED: the staging words that hold a value. -/
def Thread.staged (x : Thread) : Nat := x.staging.foldl (fun m e => m ||| 1 <<< (e.1 % 8)) 0

/-- The value of special register `i` of a thread. -/
def State.sr (s : State) (th : ThreadRef) (i : Nat) : Nat :=
  let x := s.thread th
  match i with
  | 0 => x.mode.toNat
  | 1 => x.flags.toNat
  | 2 => x.tcause.toNat
  | 3 => x.tpc.toNat
  | 4 => x.tval.toNat
  | 5 => x.rs.length
  | 6 => 0x0102
  | 16 => x.evpend.toNat
  | 17 => x.wake.toNat
  | 18 => x.tcmp.toNat % 2 ^ 32
  | 19 => x.tcmp.toNat / 2 ^ 32
  | 20 => b2n x.arm
  | 21 => (s.dts (threadHalf th)).toNat % 2 ^ 32
  | 22 => x.dtsLatch.toNat
  | 23 => x.ipend.toNat
  | 24 => x.ien.toNat
  | 25 => x.istat.toNat
  | 26 => s.issuePrio th
  | 27 => x.staged
  | 28 => if isControl th then x.ivec.toNat % 2 ^ 32 else 0
  | 48 => match th with
    | .pk h t n => s.stackBase h t n.val
    | .cc _ _ => 0
  | 49 => match th with
    | .pk h t n => s.stackLimit h t n.val
    | .cc _ _ => 0
  | 50 => threadIx th
  | _ => 0

/-- The writable bits of ISTAT: PREV_USER on a control core alone (R362). -/
def istatMask (th : ThreadRef) : Word := if isControl th then 0xA000073F else 0x8000073F

/-- A thread after MTSR of `v` to special register `i` (R284, R362, R411). -/
def Thread.setSr (x : Thread) (th : ThreadRef) (i : Nat) (v : Word) : Thread :=
  match i with
  | 0 => { x with mode := v &&& 0xF }
  | 1 => { x with flags := v &&& 0xF7 }
  | 2 => { x with tcause := v &&& 0x800000FF }
  | 3 => { x with tpc := v &&& 0x1FFFC }
  | 4 => { x with tval := v }
  | 16 => { x with evpend := x.evpend &&& ~~~v }
  | 18 => { x with tcmp := setFld x.tcmp 0 32 v.toNat }
  | 19 => { x with tcmp := setFld x.tcmp 32 32 v.toNat }
  | 20 => { x with arm := v.getLsbD 0 }
  | 23 =>
    { x with ipend := x.ipend &&& ~~~(BitVec.ofNat 8 v.toNat), late := if v.getLsbD 6 && x.ipend.getLsbD 6 then none else x.late }
  | 24 => { x with ien := BitVec.ofNat 8 v.toNat }
  | 25 => { x with istat := v &&& istatMask th }
  | 28 => if isControl th then { x with ivec := v.signExtend 64 } else x
  | _ => x

/-- MFSR; a read of DTS_LO latches DTS [63:32] (R284, R362). -/
def execFkMfsr (th : ThreadRef) (s : State) : Out := .next (s.fkRun .mfsr th fun s c =>
  let i := wImm8 c.w
  let s1 := if i = 21 then
      s.updThread c.th fun x => { x with dtsLatch := BitVec.ofNat 32 ((s.dts (threadHalf c.th)).toNat / 2 ^ 32) }
    else s
  .next (s1.putG c.th (wA c.w) (s.sr c.th i)))

/-- MTSR (R284, R362). -/
def execFkMtsr (th : ThreadRef) (s : State) : Out := .next (s.fkRun .mtsr th fun s c =>
  .next (s.updThread c.th fun x => x.setSr c.th (wImm8 c.w) (BitVec.ofNat 32 (c.g (wB c.w)))))

end Sys2Proof.Machine
end

