-- ==== Sys2Proof/Machine/FkMem.lean ====
section
/-! DEFINITION. Loads, stores and the data stack (R319–R327, R348), frame and HBM requests (R328–R332), task instructions (R251–R254,
R337–R344) and posted frames (R333). -/

namespace Sys2Proof.Machine

/-! ### Loads and stores (R322, R348) -/

/-- A load of `len` bytes whose value `f` makes of the bytes read. -/
def loadBody (len : Nat) (f : List Byte → Nat) (s : State) (c : Fk) : FkRes :=
  match s.load c.th c.addr len with
  | (s1, .ok bs) => .next (s1.putG c.th (wA c.w) (f bs))
  | (s1, .error e) => .fail s1 e

/-- A store of the bytes `f` makes of gt. -/
def storeBody (f : Nat → List Byte) (s : State) (c : Fk) : FkRes :=
  match s.store c.th c.addr (f (c.g (wA c.w))) with
  | (s1, none) => .next s1
  | (s1, some e) => .fail s1 e

/-- LB (R348). -/
def execFkLb (th : ThreadRef) (s : State) : Out := .next (s.fkRun .lb th (loadBody 1 fun b => unsigned 32 (signed 8 (leNat b))))

/-- LBU (R348). -/
def execFkLbu (th : ThreadRef) (s : State) : Out := .next (s.fkRun .lbu th (loadBody 1 leNat))

/-- LH (R348). -/
def execFkLh (th : ThreadRef) (s : State) : Out := .next (s.fkRun .lh th (loadBody 2 fun b => unsigned 32 (signed 16 (leNat b))))

/-- LHU (R348). -/
def execFkLhu (th : ThreadRef) (s : State) : Out := .next (s.fkRun .lhu th (loadBody 2 leNat))

/-- LW (R348). -/
def execFkLw (th : ThreadRef) (s : State) : Out := .next (s.fkRun .lw th (loadBody 4 leNat))

/-- LHN: network byte order, zero-extended (R348). -/
def execFkLhn (th : ThreadRef) (s : State) : Out := .next (s.fkRun .lhn th (loadBody 2 beNat))

/-- LWN: network byte order (R348). -/
def execFkLwn (th : ThreadRef) (s : State) : Out := .next (s.fkRun .lwn th (loadBody 4 beNat))

/-- SB (R348). -/
def execFkSb (th : ThreadRef) (s : State) : Out := .next (s.fkRun .sb th (storeBody (leBytes 1)))

/-- SH (R348). -/
def execFkSh (th : ThreadRef) (s : State) : Out := .next (s.fkRun .sh th (storeBody (leBytes 2)))

/-- SW (R348). -/
def execFkSw (th : ThreadRef) (s : State) : Out := .next (s.fkRun .sw th (storeBody (leBytes 4)))

/-- SHN (R348). -/
def execFkShn (th : ThreadRef) (s : State) : Out := .next (s.fkRun .shn th (storeBody (beBytes 2)))

/-- SWN (R348). -/
def execFkSwn (th : ThreadRef) (s : State) : Out := .next (s.fkRun .swn th (storeBody (beBytes 4)))

/-! ### The data stack (R326, R327) -/

/-- g29, the data-stack pointer (R281). -/
def Fk.dsp (c : Fk) : Nat := (c.x.getG 29).toNat

/-- The window of a packet thread; a control core has none. -/
def State.window (s : State) (th : ThreadRef) : Option (Nat × Nat) :=
  match th with
  | .pk h t n => some (s.stackLimit h t n.val, s.stackBase h t n.val)
  | .cc _ _ => none

/-- Set g29. -/
def State.setDsp (s : State) (th : ThreadRef) (v : Nat) : State := s.updThread th fun x => x.setG 29 (BitVec.ofNat 64 v)

/-- PUSH (R327). -/
def execFkPush (th : ThreadRef) (s : State) : Out := .next (s.fkRun .push th fun s c =>
  let sp := c.dsp
  let bad := match s.window c.th with
    | some (limit, base) => decide (sp < limit + 4) || decide (base < sp)
    | none => false
  if bad then .fail s (.trap cDstack sp)
  else if sp % 4 ≠ 0 then .fail s (.trap cAlign sp)
  else
    let a := pcWrap c.th ((sp : Int) - 4)
    match s.store c.th a (leBytes 4 (c.g (wB c.w))) with
    | (s1, none) => .next (s1.setDsp c.th a)
    | (s1, some e) => .fail s1 e)

/-- POP (R327); a POP into g29 leaves the word loaded there. -/
def execFkPop (th : ThreadRef) (s : State) : Out := .next (s.fkRun .pop th fun s c =>
  let sp := c.dsp
  let bad := match s.window c.th with
    | some (limit, base) => decide (base ≤ sp) || decide (sp < limit)
    | none => false
  if bad then .fail s (.trap cDstack sp)
  else if sp % 4 ≠ 0 then .fail s (.trap cAlign sp)
  else
    match s.load c.th sp 4 with
    | (s1, .ok bs) => .next ((s1.putG c.th (wA c.w) (leNat bs)).setDsp c.th (pcWrap c.th ((sp : Int) + 4)))
    | (s1, .error e) => .fail s1 e)

/-! ### Requests (R250) -/

/-- The counter a request names stands at 255, so the instruction stalls (R250). -/
def State.dcFull (s : State) (h : Half) (t : TileIx) (k j : Nat) : Bool := decide (255 ≤ (s.task h t k).dc j)

/-- A request acts: its counter rises and its response is outstanding (R250). -/
def State.issueReq (s : State) (h : Half) (t : TileIx) (n : Fin 128) (c : Fk) (r : Response) : State :=
  let k := s.slotOfThread h t n
  let id := (s.tile h t).nextId
  (s.updTile h t fun x =>
    { x with responses := x.responses ++ [{ r with id := id, slot := k, thread := n.val, pc := c.pc, dc := wDc c.w }] }).dcUp h t k (wDc c.w)

/-- A response that can be written as soon as its time has come: bytes for a place. -/
def Response.of (u : ReqUnit) (fn : Nat) (l : Loc) (bs : List Byte) : Response :=
  { id := 0, slot := 0, thread := 0, pc := 0, fn := fn, dc := 0, unit := u, loc := l, bytes := bs, parts := 0, ready := true, hold := [], late := 0 }

/-- The number in bits [8:0] of a register, where 0 and values above 256 act as 256 (R328, R331). -/
def lenTo256 (v : Nat) : Nat := let n := v % 512; if n = 0 ∨ 256 < n then 256 else n

/-- The cell that holds byte `i` of a frame reads uncorrectable (R464). -/
def State.badByte (s : State) (h : Half) (c : Chain) (i : Nat) : Bool :=
  decide (i < c.bytes.length) && (s.buf.get h).badCells.contains (nth 0 c.cells (i / 128))

/-- The granules among `n` frame bytes from `o` on whose data is uncorrectable, as bits (R329). -/
def State.badGrans (s : State) (h : Half) (c : Chain) (o n : Nat) : Nat :=
  if (s.buf.get h).badCells.isEmpty then 0
  else (List.range n).foldl (fun m i => if s.badByte h c (o + i) then m ||| 1 <<< (i / 32) else m) 0

/-- Bytes with the granules named in a mask written as zero (R329). -/
def zeroGrans (l : List Byte) (m : Nat) : List Byte :=
  if m = 0 then l else (List.range l.length).map fun i => if m.testBit (i / 32) then 0 else nth 0 l i

/-- FRD (R328, R329). -/
def frdBody (h : Half) (t : TileIx) (n : Fin 128) (s : State) (c : Fk) : FkRes :=
  let k := s.slotOfThread h t n
  let o := c.g (wB c.w)
  let len := lenTo256 (c.g (wC c.w))
  let gl := c.g (wA c.w)
  if svcBase ≤ k then .fail s (.trap cBounds o)
  else
    match s.pkPlace h t n gl (len + 8) with
    | .error e => .fail s e
    | .ok l =>
      if s.dcFull h t k (wDc c.w) then .fail s .stall
      else
        let ch := s.chain h ((s.task h t k).chain.getD 0)
        let bad := s.badGrans h ch o len
        let data := zeroGrans (padTo (slice (ch.bytes.take (s.task h t k).length) o len) len) bad
        .next (s.issueReq h t n c (Response.of .memory 0 l (data ++ statusWord (decide (bad ≠ 0)) bad)))

/-- FRD (R328). -/
def execFkFrd (th : ThreadRef) (s : State) : Out := .next (s.fkRun .frd th fun s c =>
  match c.th with
  | .pk h t n => frdBody h t n s c
  | .cc _ _ => .next s)

/-- PKT_HBM_BASE and PKT_HBM_LIMIT (R330). -/
def State.pktHbmBase (s : State) (h : Half) : Nat := s.rfld (bHalf h) R.half_PKT_HBM_BASE 12 36 <<< 12
def State.pktHbmLimit (s : State) (h : Half) : Nat := s.rfld (bHalf h) R.half_PKT_HBM_LIMIT 12 36 <<< 12

/-- m of HRD and HWR (R331). -/
def hbmLen (v : Nat) : Nat := (lenTo256 v + 31) / 32 * 32

/-- The source number of a packet task (R501). -/
def taskSrc (t : TileIx) (k : Nat) : Nat := t.val * 4096 + k

/-- The parts of a packet task's HBM request wait at their pseudo-channels (R497, R501); a part that maps to no pseudo-channel, or whose
controller is FENCED or OFF, completes at once with ERROR (R517, R676). -/
def State.queueParts (s : State) (h : Half) (t : TileIx) (resp src : Nat) (write stream : Bool) (a : Nat) (data : List Byte) (m : Nat) :
    State :=
  (hbmParts a m).foldl (fun s p =>
    let part : HbmPart := { tile := t, resp := resp, write := write, stream := stream, src := src, addr := p.1, len := p.2,
                            data := if write then slice data (p.1 - a) p.2 else [], off := p.1 - a, since := s.ticks }
    if hbmTop ≤ p.1 ∨ ¬ s.hbmUp h (hbmStack p.1) then ((s.hbmStop h .pkt write p.1).getD s).finishPart h part (PartData.failed p.2)
    else s.updHbm h fun x => { x with parts := tset [] x.parts (hbmPc p.1) (tget [] x.parts (hbmPc p.1) ++ [part]) }) s

/-- HRD and HWR (R331). -/
def hbmReqBody (write : Bool) (h : Half) (t : TileIx) (n : Fin 128) (s : State) (c : Fk) : FkRes :=
  let k := s.slotOfThread h t n
  let gx := c.g (wB c.w)
  let gl := c.g (wA c.w)
  let m := hbmLen (c.g (wC c.w))
  let a := s.pktHbmBase h + 32 * gx
  let id := (s.tile h t).nextId
  let go (l : Loc) (data bytes : List Byte) : FkRes :=
    if s.dcFull h t k (wDc c.w) then .fail s .stall
    else
      let parts := (hbmParts a m).length
      let r := { Response.of (if write then .hbmWrite else .memory) 0 l bytes with parts := parts, ready := false }
      .next ((s.issueReq h t n c r).queueParts h t id (taskSrc t k) write (c.w.testBit 5) a data m)
  if s.pktHbmLimit h < a + m then .fail s (.trap cBounds gx)
  else if gl % 32 ≠ 0 then .fail s (.trap cAlign gl)
  else if write then
    match s.pkSpan h t n gl m with
    | .error e => .fail s e
    | .ok data => go (.ram 0) data []
  else
    match s.pkPlace h t n gl (m + 8) with
    | .error e => .fail s e
    | .ok l => go l [] (List.replicate m 0 ++ statusWord false 0)

/-- HRD (R331). -/
def execFkHrd (th : ThreadRef) (s : State) : Out := .next (s.fkRun .hrd th fun s c =>
  match c.th with
  | .pk h t n => hbmReqBody false h t n s c
  | .cc _ _ => .next s)

/-- HWR (R331). -/
def execFkHwr (th : ThreadRef) (s : State) : Out := .next (s.fkRun .hwr th fun s c =>
  match c.th with
  | .pk h t n => hbmReqBody true h t n s c
  | .cc _ _ => .next s)

/-- The response of an FRD, HRD or HWR whose transfer is done is written and its counter falls (R250, R328, R331). -/
def doMemoryResponse (h : Half) (t : TileIx) (id : Nat) (s : State) : State :=
  match (s.tile h t).response? id with
  | some r => if (r.unit = .memory ∨ r.unit = .hbmWrite) ∧ r.ready then s.respond h t r else s
  | none => s

/-- MEMORY_RESPONSE (R250). -/
def execMemoryResponse (h : Half) (t : TileIx) (id : Nat) (s : State) : Out := .next (doMemoryResponse h t id s)

/-! ### Task instructions -/

/-- A thread after its task has left it: the registers of R364 stay, and a halt with them. -/
def Thread.freed (x : Thread) : Thread :=
  { Thread.init with evpend := x.evpend, wake := x.wake, ipend := x.ipend, dtsLatch := x.dtsLatch, late := x.late, halted := x.halted,
                     halting := x.halting }

/-- What a park preserves of a thread's registers (R252, R283, R363). -/
def Thread.parked (x : Thread) : Thread :=
  { Thread.init with g := x.g.filter fun e => decide (e.1 ≤ 15), pc := x.pc, rs := x.rs, mode := x.mode, flags := x.flags,
                     tcause := x.tcause, tpc := x.tpc, tval := x.tval, tcmp := x.tcmp, arm := x.arm, ien := x.ien, istat := x.istat,
                     staging := x.staging }

/-- A task parks: its registers are kept with it and its thread is free (R251, R252). -/
def State.park (s : State) (h : Half) (t : TileIx) (n : Fin 128) (k mask : Nat) : State :=
  let x := s.thread (.pk h t n)
  let s1 := s.updTask h t k fun y =>
    { y with state := .parked, saved := some { x.parked with pc := x.pc + 4 }, waitMask := mask, thread := none }
  (s1.updThread (.pk h t n) fun x => x.freed).bump (bTsched h t) R.tsched_PARKS

/-- TWAIT (R251, R337): it completes at once, parks the task, or waits on its thread. -/
def twaitBody (h : Half) (t : TileIx) (n : Fin 128) (s : State) (c : Fk) : FkRes :=
  let k := s.slotOfThread h t n
  let m := wImm8 c.w
  if (s.task h t k).waitOver m then .next s
  else if c.dsp = s.stackBase h t n.val ∧ c.x.rs.length ≤ 4 then .wait (s.park h t n k m)
  else
    .wait (((s.updThread c.th fun x => { x with phase := .twait m }).updTask h t k fun y => { y with state := .waiting }).bump
      (bTsched h t) R.tsched_WAITS_IN_THREAD)

/-- TWAIT (R251). -/
def execFkTwait (th : ThreadRef) (s : State) : Out := .next (s.fkRun .twait th fun s c =>
  match c.th with
  | .pk h t n => twaitBody h t n s c
  | .cc _ _ => .next s)

/-- A refused descriptor: TILE.OUTPUT_LAST records it and the task completes with no output (R344). -/
def State.refuseOutput (s : State) (h : Half) (t : TileIx) (n : Fin 128) (k reason pc : Nat) : State :=
  let v := reason <<< 56 ||| (n.val / 32) <<< 48 ||| (n.val / 8 % 4) <<< 46 ||| (n.val % 8) <<< 43 ||| pc % 0x20000
  ((s.bump (bTile h t) R.tile_BAD_OUTPUTS).setReg (bTile h t) R.tile_OUTPUT_LAST (BitVec.ofNat 64 v)).completeTask h t k none

/-- An accepted descriptor is copied into cells of pool 0 with the frame's chain; when they cannot be had the task completes with no
output (R436, R441). -/
def State.acceptOutput (s : State) (h : Half) (t : TileIx) (k : Nat) (d : List Byte) : State :=
  let id := (s.task h t k).chain.getD 0
  let n := if d.length ≤ 128 then 1 else 2
  if s.canTake h 0 n then
    let b := s.buf.get h
    let os := b.pick s.fresh [] n
    let s1 := { (s.updBuf h fun b =>
      match tget? b.chains id with
      | some c => { (b.charge c.pool n) with chains := tput b.chains id { c with ocells := os, odesc := d } }
      | none => b) with fresh := s.fresh + n }
    (s1.bump (bTsched h t) R.tsched_TASKS_COMPLETED).completeTask h t k (some d)
  else
    ((s.bump (bBuffer h) R.buffer_ODESC_NO_CELL).bump (bTsched h t) R.tsched_TASKS_DROPPED).completeTask h t k none

/-- TDONE (R254, R337, R344). -/
def tdoneBody (h : Half) (t : TileIx) (n : Fin 128) (s : State) (c : Fk) : FkRes :=
  let k := s.slotOfThread h t n
  let ga := c.g (wA c.w)
  if svcBase ≤ k then .ended ((s.bump (bTsched h t) R.tsched_TASKS_COMPLETED).completeTask h t k none)
  else if ga % 16 ≠ 0 then .fail s (.trap cAlign ga)
  else
    match spcAt (s.spaces h t n.val k) ga 1 with
    | none => .fail s (.trap cBounds ga)
    | some p =>
      let room := p.base + p.size - ga
      let d := parseODesc (s.spcBytes h t k p ga (if room < 256 then room else 256))
      match s.spcRead h t k p ga d.size with
      | .error e => .fail s e
      | .ok bs =>
        let r := d.reason (s.task h t k).length
        if r ≠ 0 then .ended (s.refuseOutput h t n k r c.pc) else .ended (s.acceptOutput h t k bs)

/-- TDONE (R254). -/
def execFkTdone (th : ThreadRef) (s : State) : Out := .next (s.fkRun .tdone th fun s c =>
  match c.th with
  | .pk h t n => tdoneBody h t n s c
  | .cc _ _ => .next s)

/-- TDROP (R254). -/
def execFkTdrop (th : ThreadRef) (s : State) : Out := .next (s.fkRun .tdrop th fun s c =>
  match c.th with
  | .pk h t n => .ended ((s.bump (bTsched h t) R.tsched_TASKS_DROPPED).completeTask h t (s.slotOfThread h t n) none)
  | .cc _ _ => .next s)

/-! ### POSTF (R333, R356) -/

/-- The number of bytes POSTF copies (R333). -/
def postLen (v : Nat) : Nat := let n := v % 16384; if n < 60 then 60 else if 2048 < n then 2048 else n

/-- The bytes POSTF copies from `ga` on: those past the end of a packet thread's space read zero (R333). -/
def State.postBytes (s : State) (th : ThreadRef) (ga n : Nat) : State × Except Fail (List Byte) :=
  match th with
  | .pk h t k =>
    match spcAt (s.spaces h t k.val (s.slotOfThread h t k)) ga 1 with
    | none => (s, .error (.trap cBounds ga))
    | some p =>
      let room := p.base + p.size - ga
      match s.spcRead h t (s.slotOfThread h t k) p ga (if room < n then room else n) with
      | .ok bs => (s, .ok (padTo bs n))
      | .error e => (s, .error e)
  | .cc h k =>
    match s.ccSpan h k ga ((n + 7) / 8) with
    | (s1, .ok bs) => (s1, .ok (bs.take n))
    | (s1, .error e) => (s1, .error e)

/-- POSTF (R333). -/
def execFkPostf (th : ThreadRef) (s : State) : Out := .next (s.fkRun .postf th fun s c =>
  let ga := c.gFull (wA c.w)
  if ga % 16 ≠ 0 then .fail s (.trap cAlign ga)
  else
    match s.postBytes c.th ga (postLen (c.g (wB c.w))) with
    | (s1, .error e) => .fail s1 e
    | (s1, .ok bs) => .wait (s1.postFrame c.th (wImm8 c.w - 128) bs))

end Sys2Proof.Machine
end

