-- ==== Sys2Proof/Machine/Coproc.lean ====
section
/-! DEFINITION. The coprocessors of a cluster (R396–R421) and the requests of the expansion port (R427): locking and saving an instance,
the check-value, hash and divide/log units, late failures and cancellations. An operation reads and writes tile memory and its
instance when its instruction retires; its response is written, in issue order, by COPROC_RESPONSE. -/

namespace Sys2Proof.Machine

/-! ### Reaching a unit (R396, R399–R406) -/

/-- The place of unit 0x38 + u in an instance key. -/
def instUnit (u : Nat) : Nat := if u = 7 then 3 else u

/-- A unit that must be locked (R396). -/
def lockRequired (u : Nat) : Bool := decide (u = 0) || decide (u = 1) || decide (u = 7)

/-- Bytes of a unit's save image (R396). -/
def saveBytes (u : Nat) : Nat :=
  match u with
  | 0 => 48
  | 1 => 56
  | 7 => 8
  | _ => 0

/-- The unit of a format-C word. -/
def wUnit (w : Nat) : Nat := wPrim w - 0x38

/-- A COPROC trap with its status, counted at a cluster (R406). -/
def State.cpTrap (s : State) (h : Half) (t : TileIx) (cl : Nat) (w status : Nat) : FkRes :=
  .fail (s.bump (bCoproc h t (Fin.ofNat 4 cl)) R.coproc_CP_TRAPS) (.trap cCoproc (wPrim w <<< 16 ||| wFn7 w <<< 8 ||| status))

/-- The key under which a lost instance of the word's unit and INST is recorded for a slot (R404); only an instance that is locked can be lost. -/
def Tile.lostKey (x : Tile) (k w : Nat) : Option (Nat × Nat) :=
  x.lostInsts.find? fun e => lockRequired (wUnit w) && decide (e.1 = k) && decide (e.2 % 16 = instKey 0 (instUnit (wUnit w)) (wInst w))

/-- The first instruction for an instance that a cluster's reset has taken traps LOST (R404). -/
def State.lostTrap (s : State) (h : Half) (t : TileIx) (n : Fin 128) (w : Nat) (e : Nat × Nat) : FkRes :=
  (s.updTile h t fun x => { x with lostInsts := x.lostInsts.filter (· ≠ e) }).cpTrap h t (n.val / 32) w 3

/-- What a unit function works on: the cluster it reaches (R402). -/
structure CpCall where
  h : Half
  t : TileIx
  n : Fin 128
  k : Nat
  cl : Nat
  c : Fk
  deriving DecidableEq, Repr

/-- The instance of a call. -/
def CpCall.key (q : CpCall) : Nat := instKey q.cl (instUnit (wUnit q.c.w)) (wInst q.c.w)

/-- The instance a call works on. -/
def State.cpInst (s : State) (q : CpCall) : CpInst := tget CpInst.reset (s.tile q.h q.t).insts q.key

/-- Change the instance of a call. -/
def State.updInst (s : State) (q : CpCall) (f : CpInst → CpInst) : State :=
  s.updTile q.h q.t fun x => { x with insts := tmod CpInst.reset x.insts q.key f }

/-- A commit waits for the safe point of a cluster: new operations are held (R64). -/
def State.clusterHeld (s : State) (h : Half) (t : TileIx) (cl : Nat) : Bool :=
  s.commits.any fun c => c.waiting.contains (.cluster h t (Fin.ofNat 4 cl))

/-- A unit function goes to a cluster, unless a commit holds it (R64). -/
def State.toCluster (s : State) (q : CpCall) (f : State → CpCall → FkRes) : FkRes :=
  if s.clusterHeld q.h q.t q.cl then .fail s .stall else f s q

/-- A unit function: it traps LOST or NOT_LOCKED, or goes to the cluster that holds the instance (R402, R404, R405). -/
def cpCall (th : ThreadRef) (op : FkOp) (s : State) (f : State → CpCall → FkRes) : State :=
  s.fkRun op th fun s c =>
    match c.th with
    | .cc _ _ => .next s
    | .pk h t n =>
      let k := s.slotOfThread h t n
      let x := s.tile h t
      match x.lostKey k c.w with
      | some e => s.lostTrap h t n c.w e
      | none =>
        if lockRequired (wUnit c.w) then
          match x.heldIn k (instUnit (wUnit c.w)) (wInst c.w) with
          | some cl => s.toCluster ⟨h, t, n, k, cl, c⟩ f
          | none => s.cpTrap h t (n.val / 32) c.w 1
        else s.toCluster ⟨h, t, n, k, n.val / 32, c⟩ f

/-- A call traps with a status (R405). -/
def State.callTrap (s : State) (q : CpCall) (status : Nat) : FkRes := s.cpTrap q.h q.t q.cl q.c.w status

/-- The place of a response or buffer that a unit writes: within one writable space and aligned (R405, R414). -/
def State.cpOut (s : State) (q : CpCall) (addr len align : Nat) : Except Fail Loc :=
  match s.pkPlace q.h q.t q.n addr len with
  | .error e => .error e
  | .ok l => if addr % align ≠ 0 then .error (.trap cAlign addr) else .ok l

/-- Bytes a unit reads from one space, and whether they are all good (R405, R414). -/
def State.cpIn (s : State) (q : CpCall) (addr len align : Nat) : Except Fail (List Byte × Bool) :=
  match spcAt (s.spaces q.h q.t q.n.val q.k) addr len with
  | none => .error (.trap cBounds addr)
  | some p =>
    if addr % align ≠ 0 then .error (.trap cAlign addr)
    else
      match s.spcRead q.h q.t q.k p addr len with
      | .ok bs => .ok (bs, true)
      | .error _ => .ok (List.replicate len 0, false)

/-- The counter of a call stands at 255 (R250). -/
def State.callFull (s : State) (q : CpCall) : Bool := s.dcFull q.h q.t q.k (wDc q.c.w)

/-- A response of a call. -/
def cpResponse (q : CpCall) (l : Loc) (bs : List Byte) (late : Nat) : Response :=
  { Response.of (.coproc (wUnit q.c.w) q.cl (wInst q.c.w)) (wFn7 q.c.w) l bs with late := late }

/-- A unit function is dispatched: it is counted and its response is outstanding (R397, R433). -/
def State.cpIssue (s : State) (q : CpCall) (r : Response) : State :=
  (s.bump (bCoproc q.h q.t (Fin.ofNat 4 q.cl)) R.coproc_CP_OPS).issueReq q.h q.t q.n q.c r

/-- A unit function with its effect `f` on good data; on data that read uncorrectable it fails late with DATA_ERROR (R405, R408). -/
def State.cpDone (s : State) (q : CpCall) (good : Bool) (l : Loc) (bs : List Byte) (f : State → State) : FkRes :=
  if s.callFull q then .fail s .stall
  else .next ((if good then f s else s).cpIssue q (cpResponse q l bs (if good then 0 else 6)))

/-! ### Late failures (R408–R411) -/

/-- The unit of a response: its number, cluster and instance. -/
def ReqUnit.cp? : ReqUnit → Option (Nat × Nat × Nat)
  | .coproc u c i => some (u, c, i)
  | .expansion c i _ => some (7, c, i)
  | _ => none

/-- A failure as the late record of a thread shows it, with the stamp of the task that it had when the operation failed. -/
structure LateFail where
  u : Nat
  cl : Nat
  inst : Nat
  fn : Nat
  status : Nat
  slot : Nat
  pc : Nat
  stamp : Nat
  deriving DecidableEq, Repr

/-- The offset of the late records in the shared region, unless no record is written (R409). -/
def State.lateArea (s : State) (h : Half) (t : TileIx) : Option Nat :=
  let c := s.reg (bTile h t) R.tile_CP_LATE_CFG
  if bit c 0 ∧ 4096 * fld c 12 8 + 4096 ≤ s.sharedBytes h t then some (4096 * fld c 12 8) else none

/-- Word 0 of a new record (R410). -/
def LateFail.word0 (f : LateFail) : Nat :=
  (f.status % 256) <<< 56 ||| (0x38 + f.u) <<< 48 ||| f.inst <<< 46 ||| (f.fn % 128) <<< 39 ||| 1 <<< (8 + f.u) ||| 1

/-- Word 0 with a later failure merged (R411). -/
def mergeLate (w0 : DWord) (u : Nat) : DWord :=
  setFld w0 16 16 (satTo (fld w0 16 16 + 1) 0xFFFF) ||| BitVec.ofNat 64 (1 <<< (8 + u))

/-- The 32 bytes of a new record (R410). -/
def State.lateBytes (s : State) (h : Half) (f : LateFail) : List Byte :=
  let svc := decide (svcBase ≤ f.slot)
  leBytes 8 f.word0 ++ leBytes 8 ((s.dts h).toNat % 2 ^ 48) ++
    leBytes 8 ((f.stamp % 2 ^ 32) <<< 32 ||| (if svc then f.slot - svcBase else f.slot) <<< 8 ||| b2n svc <<< 7) ++
    leBytes 8 (f.pc % 0x20000)

/-- A late failure of an instruction of thread `n` (R408): interrupt 6, CP_LATE, and the record written, merged or lost
(R409–R411). -/
def State.lateReport (s : State) (h : Half) (t : TileIx) (n : Nat) (f : LateFail) : State :=
  let th := ThreadRef.pk h t (Fin.ofNat 128 n)
  let b := bCoproc h t (Fin.ofNat 4 f.cl)
  let s1 := (s.raiseInt th 6).bump b R.coproc_CP_LATE
  match s1.lateArea h t with
  | none => s1.bump b R.coproc_CP_LATE_LOST
  | some a =>
    match (s1.thread th).late with
    | some w0 =>
      let w1 := mergeLate w0 f.u
      ((s1.updTile h t fun x => x.put (.ram (a + 32 * n)) (leBytes 8 w1.toNat)).updThread th fun x => { x with late := some w1 }).bump b
        R.coproc_CP_MERGED
    | none =>
      (s1.updTile h t fun x => x.put (.ram (a + 32 * n)) (s1.lateBytes h f)).updThread th fun x =>
        { x with late := some (BitVec.ofNat 64 f.word0) }

/-- The response of a failed operation: 0xFF in the byte of its status or RESULT, all others zero (R408); CPSAVE has no response. -/
def failedBytes (u fn len : Nat) : List Byte :=
  if 0x7C ≤ fn then []
  else
    let i := if u = 0 then 15 else 7
    (List.replicate len 0).set i 0xFF

/-- An outstanding operation fails late with a status (R408): its response, its counter, the record, and the instance as STATE_ERROR
leaves it. -/
def State.lateFail (s : State) (h : Half) (t : TileIx) (r : Response) (status : Nat) : State :=
  match r.unit.cp? with
  | none => s
  | some (u, cl, i) =>
    let s1 := s.respond h t { r with bytes := failedBytes u r.fn r.bytes.length }
    let s2 := s1.lateReport h t r.thread ⟨u, cl, i, r.fn, status, r.slot, r.pc, (s.task h t r.slot).stamp.toNat⟩
    if status = 5 then
      (s2.updTile h t fun x =>
        { x with insts := tmod CpInst.reset x.insts (instKey cl (instUnit u) i) fun y =>
            { CpInst.reset with holder := y.holder, waiters := y.waiters, leaving := y.leaving } }).report
        (.cluster h t (Fin.ofNat 4 cl)) F.CP_STATE
    else s2

/-- After an operation has completed, an instance whose holder has ended is released (R403). -/
def State.settleAfter (s : State) (h : Half) (t : TileIx) (r : Response) : State :=
  match r.unit.inst? with
  | some key => s.settleInst h t r.slot key
  | none => s

/-- No older operation of the same task on the same instance is outstanding (R397); a CPSAVE of an expansion instance stands in order with
the requests sent to it (R399). -/
def Tile.oldest (x : Tile) (r : Response) : Bool :=
  match x.responses.find? fun y => decide (y.slot = r.slot) && (decide (y.unit = r.unit) || (y.unit.cp?.isSome && decide (y.unit.cp? = r.unit.cp?))) with
  | some y => decide (y.id = r.id)
  | none => false

/-- A coprocessor writes the response of an operation and its counter falls (R397, R408). -/
def doCoprocResponse (h : Half) (t : TileIx) (id : Nat) (s : State) : State :=
  match (s.tile h t).response? id with
  | none => s
  | some r =>
    match r.unit with
    | .coproc _ _ _ =>
      if (s.tile h t).oldest r ∧ r.ready then
        ((if r.late ≠ 0 then s.lateFail h t r r.late else s.respond h t r)).settleAfter h t r
      else s
    | _ => s

/-- COPROC_RESPONSE (R397). -/
def execCoprocResponse (h : Half) (t : TileIx) (id : Nat) (s : State) : Out := .next (s.checked (doCoprocResponse h t id s))

/-- A unit finds uncorrectable state of an instance (5), or uncorrectable tile memory that it read (6) (R405, R408). -/
def doCoprocLate (h : Half) (t : TileIx) (id code : Nat) (s : State) : State :=
  match (s.tile h t).response? id with
  | none => s
  | some r =>
    match r.unit with
    | .coproc u _ _ =>
      if (s.tile h t).oldest r ∧ ((code = 5 ∧ u < 2) ∨ (code = 6 ∧ u ≠ 3)) then (s.lateFail h t r code).settleAfter h t r else s
    | _ => s

/-- COPROC_LATE_FAILURE (R408). -/
def execCoprocLateFailure (h : Half) (t : TileIx) (id : Nat) (code : BitVec 8) (s : State) : Out :=
  .next (doCoprocLate h t id code.toNat s)

/-- A unit of a cluster acknowledges a cancellation: the increment of the squashed operation is undone (R294, R407). -/
def doCancelAck (h : Half) (t : TileIx) (cl : Nat) (s : State) : State :=
  match (s.tile h t).cancels.find? fun e => decide (e.cluster = cl) with
  | none => s
  | some e =>
    let s1 := (s.updTile h t fun x => { x with cancels := x.cancels.erase e }).bump (bCoproc h t (Fin.ofNat 4 cl)) R.coproc_CP_CANCELLED
    if (s1.task h t e.slot).complete then s1.settleSlot h t e.slot else s1.dcDown h t e.slot e.dc

/-- COPROC_CANCEL_ACK (R407). -/
def execCoprocCancelAck (h : Half) (t : TileIx) (c : Fin 4) (s : State) : Out := .next (doCancelAck h t c.val s)

/-! ### The functions common to every unit (R399–R401) -/

/-- The status of CPLOCK and the state it leaves (R399–R401): 0 GRANTED, 1 BUSY, 2 HELD, 3 NOT_REQUIRED. -/
def State.cpLock (s : State) (h : Half) (t : TileIx) (n : Fin 128) (k u i : Nat) : State × Nat :=
  let x := s.tile h t
  if !lockRequired u then (s, 3)
  else if (x.heldIn k (instUnit u) i).isSome then (s, 2)
  else
    let key := instKey (n.val / 32) (instUnit u) i
    let y := tget CpInst.reset x.insts key
    match y.holder with
    | none => (s.updTile h t fun x => { x with insts := tset CpInst.reset x.insts key { CpInst.reset with holder := some k } }, 0)
    | some _ =>
      let z := { y with waiters := if y.waiters.contains n.val then y.waiters else y.waiters ++ [n.val] }
      ((s.updTile h t fun x => { x with insts := tset CpInst.reset x.insts key z }).bump
        (bCoproc h t (Fin.ofNat 4 (n.val / 32))) R.coproc_CP_LOCK_BUSY, 1)

/-- The status of CPUNLOCK and the state it leaves (R399, R401): 0 RELEASED, 3 NOT_REQUIRED, 4 NOT_HOLDER. -/
def State.cpUnlock (s : State) (h : Half) (t : TileIx) (k u i : Nat) : State × Nat :=
  if !lockRequired u then (s, 3)
  else
    match (s.tile h t).heldIn k (instUnit u) i with
    | some cl => (s.releaseInst h t (instKey cl (instUnit u) i), 0)
    | none => (s, 4)

/-- CPLOCK and CPUNLOCK: a status in ga, or LOST (R399, R404). -/
def statusCall (f : State → Half → TileIx → Fin 128 → Nat → Nat → Nat → State × Nat) (s : State) (c : Fk) : FkRes :=
  match c.th with
  | .cc _ _ => .next s
  | .pk h t n =>
    let k := s.slotOfThread h t n
    match (s.tile h t).lostKey k c.w with
    | some e => s.lostTrap h t n c.w e
    | none =>
      let (s1, st) := f s h t n k (wUnit c.w) (wInst c.w)
      .next (s1.putG c.th (wA c.w) st)

/-- CPLOCK (R399). -/
def execFkCplock (th : ThreadRef) (s : State) : Out := .next (s.fkRun .cplock th (statusCall fun s h t n k u i => s.cpLock h t n k u i))

/-- CPUNLOCK (R399). -/
def execFkCpunlock (th : ThreadRef) (s : State) : Out := .next (s.fkRun .cpunlock th (statusCall fun s h t _ k u i => s.cpUnlock h t k u i))

/-- The header of a save image (R400). -/
def saveHeader (u : Nat) : Nat := (0x38 + u) <<< 56 ||| 1 <<< 48

/-- The save image of an instance (R400, R412, R419). -/
def CpInst.image (y : CpInst) (u : Nat) : List Byte :=
  match u with
  | 0 => leBytes 8 (saveHeader 0) ++ leBytes 8 y.poly.toNat ++ leBytes 8 y.init.toNat ++ leBytes 8 y.xorout.toNat ++
      leBytes 8 y.control.toNat ++ leBytes 8 y.r.toNat
  | 1 => leBytes 8 (saveHeader 1) ++ padTo y.key 40 ++ leBytes 4 y.crcInit.toNat ++ leBytes 4 0
  | 7 => leBytes 8 (saveHeader 7)
  | _ => []

/-- A 64-bit word of a byte list. -/
def wordAt (bs : List Byte) (off : Nat) : DWord := BitVec.ofNat 64 (leNat (slice bs off 8))

/-- An instance loaded from an image (R400). -/
def CpInst.load (y : CpInst) (u : Nat) (bs : List Byte) : CpInst :=
  match u with
  | 0 => { y with poly := wordAt bs 8, init := wordAt bs 16, xorout := wordAt bs 24, control := wordAt bs 32, r := wordAt bs 40 }
  | 1 => { y with key := slice bs 8 40, crcInit := BitVec.ofNat 32 (leNat (slice bs 48 4)) }
  | _ => y

/-- CPSAVE (R399). -/
def execFkCpsave (th : ThreadRef) (s : State) : Out := .next (cpCall th .cpsave s fun s q =>
  let u := wUnit q.c.w
  let a := q.c.g (wB q.c.w)
  match s.cpOut q a (saveBytes u) 16 with
  | .error e => .fail s e
  | .ok l =>
    if s.callFull q then .fail s .stall
    else .next (s.issueReq q.h q.t q.n q.c (cpResponse q l ((s.cpInst q).image u) 0)))

/-- CPRESTORE (R399, R400). -/
def execFkCprestore (th : ThreadRef) (s : State) : Out := .next (cpCall th .cprestore s fun s q =>
  let u := wUnit q.c.w
  let a := q.c.g (wB q.c.w)
  match s.cpIn q a (saveBytes u) 16 with
  | .error e => .fail s e
  | .ok (bs, good) =>
    if !good then .next (s.lateReport q.h q.t q.n.val ⟨u, q.cl, wInst q.c.w, 0x7F, 6, q.k, q.c.pc, (s.task q.h q.t q.k).stamp.toNat⟩)
    else if saveBytes u ≠ 0 ∧ (leNat (slice bs 0 8) >>> 48 ≠ saveHeader u >>> 48) then s.callTrap q 2
    else .next (s.updInst q fun y => y.load u bs))

/-! ### The check-value unit (R412–R418) -/

/-- The CRC of an instance's parameters (R412). -/
def CpInst.crc (y : CpInst) : Crc :=
  { w := fld y.control 0 6 + 1, poly := y.poly.toNat, init := y.init.toNat, xorout := y.xorout.toNat, refin := bit y.control 6,
    refout := bit y.control 7 }

/-- Counter bytes c (R412). -/
def CpInst.cntBytes (y : CpInst) : Nat := match fld y.control 8 2 with | 0 => 0 | 1 => 1 | 2 => 2 | _ => 4

/-- Check bytes k (R412). -/
def CpInst.chkBytes (y : CpInst) : Nat := (y.crc.w + 7) / 8

/-- The window W as it acts (R412). -/
def CpInst.window (y : CpInst) : Nat :=
  let w := fld y.control 16 16
  let hi := 2 ^ (8 * y.cntBytes) - 1
  if hi < w then hi else if w = 0 then 1 else w

/-- The bytes of a check and the check that bytes spell (R412). -/
def CpInst.chkPut (y : CpInst) (v : Nat) : List Byte := if bit y.control 10 then leBytes y.chkBytes v else beBytes y.chkBytes v
def CpInst.chkGet (y : CpInst) (bs : List Byte) : Nat := if bit y.control 10 then leNat bs else beNat bs

/-- Word 1 of a response (R415). -/
def cvWord1 (result gap payload total : Nat) : Nat :=
  result <<< 56 ||| (satTo gap 0xFFFF) <<< 40 ||| (payload % 4096) <<< 16 ||| total % 65536

/-- A response (R415). -/
def cvBytes (w0 w1 : Nat) : List Byte := leBytes 8 w0 ++ leBytes 8 w1

/-- A stream record (R416). -/
structure Stream where
  rx : Nat
  tx : Nat
  sync : Bool
  jumps : Nat
  repeats : Nat
  gaps : Nat
  deriving DecidableEq, Repr

/-- A stream record as its 16 bytes spell it, its counters taken modulo 2^(8c) (R416). -/
def streamOf (bs : List Byte) (c : Nat) : Stream :=
  let w0 := leNat (slice bs 0 8)
  let w1 := leNat (slice bs 8 8)
  { rx := bits w0 32 32 % 2 ^ (8 * c), tx := bits w0 0 32 % 2 ^ (8 * c), sync := w1.testBit 63, jumps := bits w1 32 16,
    repeats := bits w1 16 16, gaps := bits w1 0 16 }

/-- The 16 bytes of a stream record (R416). -/
def Stream.bytes (r : Stream) : List Byte :=
  leBytes 8 (r.rx <<< 32 ||| r.tx) ++
    leBytes 8 (b2n r.sync <<< 63 ||| satTo r.jumps 0xFFFF <<< 32 ||| satTo r.repeats 0xFFFF <<< 16 ||| satTo r.gaps 0xFFFF)

/-- What a message with a good check and counter `cnt` does to its stream (R418): RESULT, GAP and the record. -/
def Stream.accept (r : Stream) (w c cnt : Nat) : Nat × Nat × Stream :=
  let m := 2 ^ (8 * c)
  let d := (cnt + m - r.rx) % m
  if r.sync then (0, 0, { r with rx := cnt, sync := false, jumps := 0 })
  else if d = 0 then (2, 0, { r with repeats := r.repeats + 1 })
  else if d ≤ w then (0, d - 1, { r with rx := cnt, jumps := 0, gaps := r.gaps + (d - 1) })
  else (3, d - 1, { r with jumps := r.jumps + 1 })

/-- n of CVUPD, CVAPPEND and CVCHECK, and the stream address s (R414). -/
def cvLen (v : Nat) : Nat := bits v 21 11 + 1
def cvStream (v : Nat) : Nat := bits v 0 21

/-- CVCFG (R414). -/
def execFkCvcfg (th : ThreadRef) (s : State) : Out := .next (cpCall th .cvcfg s fun s q =>
  match s.cpIn q (q.c.g (wA q.c.w)) 32 16 with
  | .error e => .fail s e
  | .ok (bs, good) =>
    s.cpDone q good (.ram 0) [] fun s => s.updInst q fun y =>
      let z := { y with poly := wordAt bs 0, init := wordAt bs 8, xorout := wordAt bs 16, control := wordAt bs 24 }
      { z with r := BitVec.ofNat 64 (z.crc.init % 2 ^ z.crc.w) })

/-- CVUPD (R414). -/
def execFkCvupd (th : ThreadRef) (s : State) : Out := .next (cpCall th .cvupd s fun s q =>
  let v := q.c.g (wB q.c.w)
  if cvStream v ≠ 0 then s.callTrap q 2
  else
    match s.cpIn q (q.c.g (wA q.c.w)) (cvLen v) 1 with
    | .error e => .fail s e
    | .ok (bs, good) =>
      s.cpDone q good (.ram 0) [] fun s => s.updInst q fun y => { y with r := BitVec.ofNat 64 (y.crc.run y.r.toNat bs) })

/-- CVFIN (R414, R415); its PAYLOAD and TOTAL are free values, for which the spec states nothing. -/
def execFkCvfin (th : ThreadRef) (s : State) : Out := .next (cpCall th .cvfin s fun s q =>
  match s.cpOut q (q.c.g (wC q.c.w)) 16 16 with
  | .error e => .fail s e
  | .ok l =>
    let y := s.cpInst q
    let open1 := (s.free 32).toNat
    s.cpDone q true l (cvBytes (y.crc.final y.r.toNat) (cvWord1 0 0 open1 (open1 / 4096))) fun s =>
      (s.updInst q fun y => { y with r := BitVec.ofNat 64 (y.crc.init % 2 ^ y.crc.w) }).used)

/-- The stream record of a call with counter width c (R414, R416): its place and what it holds; none without a counter. -/
def State.cvRecord (s : State) (q : CpCall) (addr c : Nat) : Except Fail (Loc × Stream × Bool) :=
  if c = 0 then .ok (.ram 0, streamOf [] 0, true)
  else
    match s.cpOut q addr 16 16 with
    | .error e => .error e
    | .ok l => .ok (l, streamOf ((s.tile q.h q.t).get l 16) c, !(s.tile q.h q.t).poisoned l 16)

/-- CVAPPEND (R417). -/
def execFkCvappend (th : ThreadRef) (s : State) : Out := .next (cpCall th .cvappend s fun s q =>
  let y := s.cpInst q
  let ga := q.c.g (wA q.c.w)
  let n := cvLen (q.c.g (wB q.c.w))
  let c := y.cntBytes
  let k := y.chkBytes
  match s.cpOut q ga (n + c + k) 1, s.cvRecord q (cvStream (q.c.g (wB q.c.w))) c, s.cpOut q (q.c.g (wC q.c.w)) 16 16 with
  | .error e, _, _ => .fail s e
  | _, .error e, _ => .fail s e
  | _, _, .error e => .fail s e
  | .ok la, .ok (ls, r, ok), .ok l =>
    let cnt := beBytes c r.tx
    let msg := (s.tile q.h q.t).get la n
    let chk := y.crc.of (msg ++ cnt)
    s.cpDone q (ok && !(s.tile q.h q.t).poisoned la n) l (cvBytes chk (cvWord1 0 0 n (n + c + k))) fun s =>
      s.updTile q.h q.t fun x =>
        let x1 := x.put (la.add n) (cnt ++ y.chkPut chk)
        if c = 0 then x1 else x1.put ls { r with tx := (r.tx + 1) % 2 ^ (8 * c) }.bytes)

/-- The outcome of CVCHECK (R418) on a buffer of `bs`: the two response words and the record, if it is rewritten. `free1` stands where
the spec states no value. -/
def cvCheck (y : CpInst) (r : Stream) (bs : List Byte) (free1 : Nat) : Nat × Nat × Option Stream :=
  let n := bs.length
  let c := y.cntBytes
  let k := y.chkBytes
  if n < c + k then (free1 % 2 ^ 32, cvWord1 4 0 (free1 / 2 ^ 32) n, none)
  else
    let cnt := beNat (slice bs (n - c - k) c)
    let good := decide (y.crc.of (bs.take (n - k)) = y.chkGet (bs.drop (n - k)) % 2 ^ y.crc.w) &&
      decide (y.chkGet (bs.drop (n - k)) < 2 ^ y.crc.w)
    if !good then (cnt, cvWord1 1 0 (n - c - k) n, none)
    else if c = 0 then (cnt, cvWord1 0 0 (n - k) n, none)
    else
      let (result, gap, r1) := r.accept y.window c cnt
      (cnt, cvWord1 result gap (n - c - k) n, some r1)

/-- CVCHECK (R418). -/
def execFkCvcheck (th : ThreadRef) (s : State) : Out := .next (cpCall th .cvcheck s fun s q =>
  let y := s.cpInst q
  let n := cvLen (q.c.g (wB q.c.w))
  match s.cpIn q (q.c.g (wA q.c.w)) n 1, s.cvRecord q (cvStream (q.c.g (wB q.c.w))) y.cntBytes, s.cpOut q (q.c.g (wC q.c.w)) 16 16 with
  | .error e, _, _ => .fail s e
  | _, .error e, _ => .fail s e
  | _, _, .error e => .fail s e
  | .ok (bs, good), .ok (ls, r, ok), .ok l =>
    let out := cvCheck y r bs (s.free 64).toNat
    s.cpDone q (good && ok) l (cvBytes out.1 out.2.1) fun s =>
      match out.2.2 with
      | some r1 => (s.updTile q.h q.t fun x => x.put ls r1.bytes).used
      | none => s.used)

/-! ### The hash unit (R419) -/

/-- HCFG (R419). -/
def execFkHcfg (th : ThreadRef) (s : State) : Out := .next (cpCall th .hcfg s fun s q =>
  match s.cpIn q (q.c.g (wA q.c.w)) 48 1 with
  | .error e => .fail s e
  | .ok (bs, good) =>
    s.cpDone q good (.ram 0) [] fun s => s.updInst q fun y =>
      { y with key := slice bs 0 40, crcInit := BitVec.ofNat 32 (leNat (slice bs 40 4)) })

/-- HASH and HASHM: `span` bytes are read at ga, of which `pick` makes those that are hashed (R419). -/
def hashBody (span : Nat → Nat) (pick : Nat → List Byte → List Byte) (s : State) (q : CpCall) : FkRes :=
  let v := q.c.g (wB q.c.w)
  let n := if bits v 0 7 = 0 ∨ 64 < bits v 0 7 then 64 else bits v 0 7
  if bits v 7 24 ≠ 0 then s.callTrap q 2
  else
    match s.cpIn q (q.c.g (wA q.c.w)) (span n) 1, s.cpOut q (q.c.g (wC q.c.w)) 8 8 with
    | .error e, _ => .fail s e
    | _, .error e => .fail s e
    | .ok (bs, good), .ok l =>
      let y := s.cpInst q
      s.cpDone q good l (leBytes 8 (hashH (v.testBit 31) y.key y.crcInit.toNat (pick n bs))) id

/-- HASH (R419). -/
def execFkHash (th : ThreadRef) (s : State) : Out := .next (cpCall th .hash s (hashBody id fun n bs => bs.take n))

/-- HASHM (R419). -/
def execFkHashm (th : ThreadRef) (s : State) : Out := .next (cpCall th .hashm s
  (hashBody (fun _ => 128) fun n bs => maskBytes (bs.take n) (slice bs 64 n)))

/-! ### The fractional divide/log unit (R420, R421) -/

/-- A response of the unit: result, DZ and SAT (R420). -/
def fracBytes (v : Nat) (dz sat : Bool) : List Byte := leBytes 8 (b2n dz <<< 57 ||| b2n sat <<< 56 ||| v % 2 ^ 32)

/-- FDIV (R420, R421). -/
def fdivRes (rnd a b : Nat) : Nat × Bool × Bool :=
  let x := signed 32 a
  let y := signed 32 b
  let m : Int := ((2 ^ 31 : Nat) : Int)
  if y = 0 then (if 0 ≤ x then 0x7FFFFFFF else 0x80000000, true, false)
  else if (0 < y ∧ y ≤ x) ∨ (y < 0 ∧ x ≤ y) then (0x7FFFFFFF, false, true)
  else if (0 < y ∧ x < -y) ∨ (y < 0 ∧ -y < x) then (0x80000000, false, true)
  else (unsigned 32 (roundDiv rnd (x * m) y), false, false)

/-- Digits kept of the numbers from which the rounded values of LOG2 and EXP2 are made: far more than tell the two sides of any boundary of
their 2³² operands apart. -/
abbrev fracDigits : Nat := 126

/-- `n` further bits of the logarithm of `m` (1 ≤ m < 2, in units of 2^-fracDigits), by repeated squaring. -/
def logBits (m : Nat) : Nat → Nat
  | 0 => 0
  | n + 1 =>
    let q := m * m / 2 ^ fracDigits
    if 2 ^ (fracDigits + 1) ≤ q then 2 ^ n + logBits (q / 2) n else logBits q n

/-- Position of the highest set bit of a 32-bit number that is not zero. -/
def topBit (x : Nat) : Nat := 31 - clz 32 x

/-- A positive value that is no multiple of a half, rounded by MODE.RND from its double rounded down (R304). -/
def roundHalves (rnd v2 : Nat) : Nat := if rnd < 2 then (v2 + 1) / 2 else v2 / 2

/-- One of the three values within 1 unit in the last place of the exact value rounded by MODE.RND, by a free value (R421). -/
def nearby (v free1 : Nat) : Int := (v : Int) + ((free1 % 3 : Nat) : Int) - 1

/-- LOG2 (R420, R421); `free1` is the free value that stands for the digits R421 leaves open. -/
def log2Res (rnd x free1 : Nat) : Nat × Bool × Bool :=
  if x = 0 then (0x80000000, true, false)
  else
    let n := topBit x
    if x = 2 ^ n then (n * 2 ^ 26, false, false)
    else
      let v := roundHalves rnd (n * 2 ^ 27 + logBits (x * 2 ^ (fracDigits - n)) 27)
      ((clampInt 0 0x7FFFFFFF (nearby v free1)).toNat, false, false)

/-- The square root of `n` rounded down, one bit of the result at a time. -/
def isqrt (n r : Nat) : Nat → Nat
  | 0 => r
  | i + 1 => if (r + 2 ^ i) * (r + 2 ^ i) ≤ n then isqrt n (r + 2 ^ i) i else isqrt n r i

/-- 2^f in units of 2^-fracDigits, where f has `n` fraction bits left below `root`, itself 2^(2^-j) at digit j. -/
def expBits (f root acc : Nat) : Nat → Nat
  | 0 => acc
  | n + 1 =>
    let r := isqrt (root * 2 ^ fracDigits) 0 (fracDigits + 1)
    expBits f r (if f.testBit n then acc * r / 2 ^ fracDigits else acc) n

/-- EXP2 (R420, R421); `free1` as in `log2Res`. At y = −17 the exact value is one half. -/
def exp2Res (rnd y free1 : Nat) : Nat × Bool × Bool :=
  let v := signed 32 y
  let one : Int := ((2 ^ 26 : Nat) : Int)
  let n := v / one
  let f := (v % one).toNat
  if 16 ≤ n then (0xFFFFFFFF, false, true)
  else if v < -17 * one then (0, false, true)
  else if f = 0 ∧ -16 ≤ n then (2 ^ (n + 16).toNat, false, false)
  else
    let m := expBits f (2 ^ (fracDigits + 1)) (2 ^ fracDigits) 26
    let e := if f = 0 then b2n (decide (rnd = 1)) else roundHalves rnd (m / 2 ^ (fracDigits - (n + 17).toNat))
    ((clampInt 0 0xFFFFFFFF (nearby e free1)).toNat, false, false)

/-- The body of the unit's three functions: `f` takes MODE.RND, the operands and the free value (R420). -/
def fracBody (f : Nat → Nat → Nat → Nat → Nat × Bool × Bool) (s : State) (q : CpCall) : FkRes :=
  match s.cpOut q (q.c.g (wC q.c.w)) 8 8 with
  | .error e => .fail s e
  | .ok l =>
    let r := f (modeRnd q.c.x.mode) (q.c.g (wA q.c.w)) (q.c.g (wB q.c.w)) (s.free 32).toNat
    s.cpDone q true l (fracBytes r.1 r.2.1 r.2.2) State.used

/-- FDIV (R420). -/
def execFkFdiv (th : ThreadRef) (s : State) : Out := .next (cpCall th .fdiv s (fracBody fun m a b _ => fdivRes m a b))

/-- LOG2 (R420). -/
def execFkLog2 (th : ThreadRef) (s : State) : Out := .next (cpCall th .log2 s (fracBody fun m a _ v => log2Res m a v))

/-- EXP2 (R420). -/
def execFkExp2 (th : ThreadRef) (s : State) : Out := .next (cpCall th .exp2 s (fracBody fun m a _ v => exp2Res m a v))

/-! ### Requests of the expansion port (R427) -/

/-- A tag is in use, or timed out too recently (R429). -/
def ExpState.tagBusy (e : ExpState) (now tag : Nat) : Bool :=
  (e.reqs.any fun r => decide (r.tag = tag)) || e.dead.any fun d => decide (d.1 = tag) && decide (now < d.2)

/-- A free tag, searched from `tag` on; none where all are in use. -/
def ExpState.findTag (e : ExpState) (now tag : Nat) : Nat → Option Nat
  | 0 => none
  | n + 1 => if e.tagBusy now tag then e.findTag now ((tag + 1) % 4096) n else some tag

/-- Requests of one instance that are outstanding. -/
def Tile.expOut (x : Tile) (cl inst : Nat) : Nat :=
  (x.responses.filter fun r => match r.unit with
    | .expansion c i _ => decide (c = cl) && decide (i = inst)
    | _ => false).length

/-- EXP_REQUEST (R427): the request waits in the port for credit, and its response is outstanding. -/
def expBody (s : State) (q : CpCall) : FkRes :=
  let v := q.c.g (wB q.c.w)
  let len := bits v 0 9
  let r := bits v 16 9
  let e := s.exp.get q.h
  if bits v 9 7 ≠ 0 ∨ bits v 25 7 ≠ 0 ∨ 256 < len ∨ 256 < r then s.callTrap q 2
  else
    match s.cpIn q (q.c.g (wA q.c.w)) len 16, s.cpOut q (q.c.g (wC q.c.w)) (8 + r) 16 with
    | .error f, _ => .fail s f
    | _, .error f => .fail s f
    | .ok (bs, good), .ok l =>
      if !e.linkUp then s.callTrap q 4
      else if s.callFull q ∨ 64 ≤ (s.tile q.h q.t).expOut q.cl (wInst q.c.w) ∨ 4096 ≤ e.reqs.length then .fail s .stall
      else if !good then s.cpDone q false l (List.replicate (8 + r) 0) id
      else
        match e.findTag s.ticks ((s.free 12).toNat) 4096 with
        | none => .fail s .stall
        | some tag =>
          let id := (s.tile q.h q.t).nextId
          let resp := { Response.of (.expansion q.cl (wInst q.c.w) tag) (wFn7 q.c.w) l (List.replicate (8 + r) 0) with ready := false }
          let s1 := (s.cpIssue q resp).used
          .next { s1 with exp := s1.exp.upd q.h fun e =>
            { e with
              waiting := e.waiting ++ [{ frame := false, tag := tag, tile := q.t.val, cluster := q.cl, inst := wInst q.c.w,
                                         fn := wFn7 q.c.w, bytes := bs }]
              reqs := e.reqs ++ [{ tag := tag, tile := q.t, resp := id, r := r, sent := none }] } }

/-- EXP_REQUEST (R427). -/
def execFkExpRequest (th : ThreadRef) (s : State) : Out := .next (cpCall th .expReq s expBody)

end Sys2Proof.Machine
end

