-- ==== Sys2Proof/Machine/Confirm.lean ====
section
/-! DEFINITION. The Bramble confirm port of a cluster (R179–R181, R354). -/

namespace Sys2Proof.Machine

/-- The frame bytes of the task of a call, FCS excluded; a service task has none (R179). -/
def State.callFrame (s : State) (q : CpCall) : List Byte :=
  let x := s.task q.h q.t q.k
  if svcBase ≤ q.k then [] else (s.chain q.h (x.chain.getD 0)).bytes.take x.length

/-- The frame bytes of a call read good from `o` on for `n` bytes (R464). -/
def State.callGood (s : State) (q : CpCall) (o n : Nat) : Bool :=
  decide (svcBase ≤ q.k) || decide (s.badGrans q.h (s.chain q.h ((s.task q.h q.t q.k).chain.getD 0)) o n = 0)

/-- A string block (R354): its n, its bytes and its care mask, and whether they read good. -/
structure ConfString where
  n : Nat
  value : List Byte
  care : List Byte
  good : Bool
  deriving DecidableEq, Repr

/-- The string block of a call (R354, R405). -/
def State.confString (s : State) (q : CpCall) : Except Fail ConfString :=
  let a := q.c.g (wB q.c.w)
  match s.cpIn q a 16 16 with
  | .error e => .error e
  | .ok (hd, ok) =>
    let n := leNat (slice hd 0 2)
    match s.cpIn q a (16 + 2 * n) 16 with
    | .error e => .error e
    | .ok (bs, ok2) => .ok ⟨n, slice bs 16 n, slice bs (16 + n) n, ok && ok2⟩

/-- A string matches frame bytes at an offset (R145). -/
def ConfString.at (c : ConfString) (f : List Byte) (o : Nat) : Bool :=
  bytesMatch f o c.n (fun j => (nth 0 c.value j).toNat) (fun j => (nth 0 c.care j).toNat)

/-- The response word of CMP and FIND (R354). -/
def confWord (status off : Nat) : List Byte := leBytes 8 (status <<< 56 ||| off % 65536)

/-- CMP and FIND: a string of n bytes within limits, a response of 8 bytes (R179, R354). -/
def confBody (lo hi : Nat) (f : State → CpCall → ConfString → List Byte × Bool) (s : State) (q : CpCall) : FkRes :=
  match s.confString q, s.cpOut q (q.c.g (wC q.c.w)) 8 8 with
  | .error e, _ => .fail s e
  | _, .error e => .fail s e
  | .ok c, .ok l =>
    if c.good ∧ (c.n < lo ∨ hi < c.n) then s.callTrap q 2
    else
      let r := f s q c
      s.cpDone q (c.good && r.2) l r.1 id

/-- CMP (R179, R180). -/
def confCmp (s : State) (q : CpCall) (c : ConfString) : List Byte × Bool :=
  let o := q.c.g (wA q.c.w)
  let f := s.callFrame q
  if f.length < o + c.n then (confWord 2 0, true)
  else (confWord (if c.at f o then 0 else 1) 0, s.callGood q o c.n)

/-- FIND (R179, R180). -/
def confFind (s : State) (q : CpCall) (c : ConfString) : List Byte × Bool :=
  let v := q.c.g (wA q.c.w)
  let a := bits v 0 16
  let f := s.callFrame q
  let b := if f.length < bits v 16 16 then f.length else bits v 16 16
  (match (List.range b).find? fun o => decide (a ≤ o) && decide (o + c.n ≤ b) && c.at f o with
   | some o => confWord 0 o
   | none => confWord 1 0, s.callGood q a (b - a))

/-- CMP (R179, R354). -/
def execConfirmCmp (th : ThreadRef) (s : State) : Out := .next (cpCall th .confCmp s (confBody 1 256 confCmp))

/-- FIND (R179, R354). -/
def execConfirmFind (th : ThreadRef) (s : State) : Out := .next (cpCall th .confFind s (confBody 2 32 confFind))

/-- STEP (R179, R354): a rescan of the task's window gives the matches that follow the cursor. -/
def confStep (s : State) (q : CpCall) : FkRes :=
  let v := bits (q.c.g (wA q.c.w)) 0 28
  match s.cpOut q (q.c.g (wC q.c.w)) 72 8 with
  | .error e => .fail s e
  | .ok l =>
    let w := if svcBase ≤ q.k then [] else s.scanWindow q.h q.t q.k
    let ms := (s.ptMatches q.h q.t w (s.task q.h q.t q.k).stamp.toNat).filter fun m => decide (v < m.rank)
    let inc := s.ptReloading q.h q.t
    s.cpDone q true l (resultBlock ms ++ leBytes 8 (summaryWord ms.length w.length inc)) fun s =>
      s.countScan q.h q.t w.length ms.length inc

/-- STEP of the confirm port (R179, R354). -/
def execConfirmStep (th : ThreadRef) (s : State) : Out := .next (cpCall th .confStep s confStep)

end Sys2Proof.Machine
end

