-- ==== Sys2Proof/Machine/Events.lean ====
section
/-! DEFINITION. Events and their waits (R365–R369), interrupts (R370–R374), the event deadlock detector (R375, R376), message channels
(R381–R386), queued locks (R387–R392), and the debugger's thread control (R377–R380). -/

namespace Sys2Proof.Machine

/-! ### WAITEV (R368, R369) -/

/-- The causes that hold for a WAITEV with this mask and timer bit, as WAKE shows them (R362, R368). -/
def State.wakeCauses (s : State) (th : ThreadRef) (mask : Word) (timer : Bool) : Nat :=
  let x := s.thread th
  b2n (decide (x.evpend &&& mask ≠ 0)) + 4 * b2n (decide (x.ipend &&& x.ien ≠ 0)) +
    2 * b2n (timer && x.arm && decide (x.tcmp.toNat ≤ (s.dts (threadHalf th)).toNat))

/-- The count of R375 of a thread's core restarts. -/
def State.breakDead (s : State) (th : ThreadRef) : State :=
  match th with
  | .pk h t n => s.updTile h t fun x => { x with deadFor := tdel x.deadFor (n.val / 8) }
  | .cc _ _ => s

/-- A WAITEV completes with these causes (R369). -/
def State.waitevDone (s : State) (th : ThreadRef) (gd : Nat) (mask : Word) (clear : Bool) (causes : Nat) : State :=
  (s.breakDead th).updThread th fun x =>
    let got := x.evpend &&& mask
    { (x.setG gd (gWord th got.toNat)) with
        evpend := if clear then x.evpend &&& ~~~got else x.evpend
        wake := BitVec.ofNat 32 causes
        arm := if causes.testBit 1 then false else x.arm
        phase := .issuing }

/-- WAITEV (R368): it completes at once where a condition holds, else the thread waits. -/
def execFkWaitev (th : ThreadRef) (s : State) : Out := .next (s.fkRun .waitev th fun s c =>
  let mask : Word := BitVec.ofNat 32 (c.g (wB c.w))
  let timer := (wImm8 c.w).testBit 0
  let clear := (wImm8 c.w).testBit 1
  let causes := s.wakeCauses c.th mask timer
  if causes ≠ 0 then .next (s.waitevDone c.th (wA c.w) mask clear causes)
  else
    .wait ((s.updThread c.th fun x => { x with phase := .waitev (wA c.w) mask timer clear, pc := x.pc + 4 }).bumpCore c.th
      R.core_WAITEV_WAITS))

/-- A waiting WAITEV completes when one of its conditions has come to hold (R369). -/
def doWaitevComplete (th : ThreadRef) (s : State) : State :=
  match (s.thread th).phase with
  | .waitev gd mask timer clear =>
    let causes := s.wakeCauses th mask timer
    if causes ≠ 0 then s.waitevDone th gd mask clear causes else s
  | _ => s

/-- WAITEV_COMPLETE (R369). -/
def execWaitevComplete (th : ThreadRef) (s : State) : Out := .next (doWaitevComplete th s)

/-- EVSIG (R365, R366). -/
def execFkEvsig (th : ThreadRef) (s : State) : Out := .next (s.fkRun .evsig th fun s c =>
  let n := c.g (wA c.w) % 128
  let m := c.g (wB c.w)
  let dest := peerThread c.th n
  let same := decide (n / 8 = threadIx c.th / 8)
  if isControl c.th && decide (32 ≤ n) then .next s
  else
    let s1 := s.setEv dest (BitVec.ofNat 32 (if same then m else m / 256 * 256))
    let s2 := if !same && decide (m % 256 ≠ 0) then s1.bumpCore c.th R.core_EVSIG_DROPPED else s1
    .next (if (wImm8 c.w).testBit 0 then s2.raiseInt dest 1 else s2))

/-- EV_POST_WRITE (R367). -/
def execEvPostWrite (a : Agent) (h : Half) (t : TileIx) (n : Fin 128) (set : Word) (s : State) : Out :=
  .next (if s.agentReach a (coreOf h t n) then doEvPost (.pk h t n) set s else s)

/-- A waiting thread's timer is reached: a WAITEV completes with TIMER, a LOCK is withdrawn with TIMEOUT (R368, R388, R392). -/
def doTimerExpire (th : ThreadRef) (s : State) : State :=
  let x := s.thread th
  if x.arm && decide (x.tcmp.toNat ≤ (s.dts (threadHalf th)).toNat) then
    match x.phase with
    | .waitev _ _ true _ => doWaitevComplete th s
    | .lock _ num true =>
      let p := s.partyOf th
      let s1 := ((s.withdrawWaiter p).bump (bLocks (lockHome p.half num)) R.locks_TIMEOUTS).answerLock p 3
      s1.updThread th fun x => { x with arm := false }
    | _ => s
  else s

/-- THREAD_TIMER_EXPIRE (R368, R388). -/
def execThreadTimerExpire (th : ThreadRef) (s : State) : Out := .next (doTimerExpire th s)

/-! ### Interrupts (R370–R374) -/

/-- The interrupt entry of a thread: ENTRY of its task's bank, or IVEC; none where the thread is not vectored (R371, R372). -/
def State.intEntry (s : State) (th : ThreadRef) : Option Nat :=
  match th with
  | .pk h t _ =>
    match (s.thread th).task with
    | none => none
    | some k =>
      let e := s.rfld (bTile h t) R.tile_INT_CFG (if (s.task h t k).bank % 2 = 0 then 0 else 32) 17
      if e / 4 = 0 then none else some (e / 4 * 4)
  | .cc _ _ => if (s.thread th).ivec = 0 then none else some (s.thread th).ivec.toNat

/-- The lowest-numbered interrupt that is pending and enabled (R372). -/
def Thread.readyInt (x : Thread) : Option Nat := (List.range 8).find? fun i => (x.ipend &&& x.ien).getLsbD i

/-- The phases in which a thread takes an interrupt (R372). -/
def Thread.canTakeInt (x : Thread) : Bool :=
  !x.halted && !x.istat.getLsbD 31 && decide (x.rs.length ≤ 31) &&
    (match x.phase with
     | .issuing => true
     | .waitev _ _ _ _ => true
     | .twait _ => true
     | _ => false)

/-- The entry of interrupt `i` at `e` (R373). -/
def State.enterInt (s : State) (th : ThreadRef) (i e : Nat) : State :=
  let s1 := match (s.thread th).phase with
    | .waitev gd mask timer clear => s.waitevDone th gd mask clear (s.wakeCauses th mask timer)
    | _ => s
  let s2 := match th with
    | .pk h t _ => s1.updTask h t ((s.thread th).task.getD 0) fun y => { y with state := if y.state = TaskState.waiting then TaskState.running else y.state }
    | .cc _ _ => s1
  (s2.updThread th fun x =>
    let depth := x.rs.length + 1
    let prev := if isControl th then b2n x.user <<< 29 else 0
    let y := { x with
      phase := .issuing
      ipend := x.ipend &&& ~~~(BitVec.ofNat 8 (1 <<< i))
      rs := x.pc :: x.rs
      istat := BitVec.ofNat 32 (1 <<< 31 ||| prev ||| i <<< 8 ||| depth)
      pc := BitVec.ofNat 48 e }
    if isControl th then y.setK kKSTATE (setFld (y.kreg kKSTATE) 0 1 0) else y).bumpCore th R.core_INTERRUPTS_TAKEN

/-- A thread takes the first interrupt that is ready (R372, R373). -/
def doInterruptTake (th : ThreadRef) (s : State) : State :=
  let x := s.thread th
  if x.canTakeInt && !s.stalled th && s.live (threadUnit th) then
    match x.readyInt, s.intEntry th with
    | some i, some e => s.enterInt th i e
    | _, _ => s
  else s

/-- INTERRUPT_TAKE (R373). -/
def execInterruptTake (th : ThreadRef) (s : State) : Out := .next (doInterruptTake th s)

/-! ### The event deadlock detector (R375, R376) -/

/-- Thread `n` of a tile counts toward the deadlock condition of its core (R375). -/
def State.deadThread (s : State) (h : Half) (t : TileIx) (n : Nat) : Bool :=
  let th := ThreadRef.pk h t (Fin.ofNat 128 n)
  let x := s.thread th
  x.task.isSome && !x.halted &&
    (match x.phase with
     | .waitev _ mask timer _ =>
       decide (mask.toNat < 256) && !(timer && x.arm) && decide (s.wakeCauses th mask timer = 0)
     | _ => false)

/-- All eight threads of core position `p` of a tile meet the condition of R375. -/
def State.deadCore (s : State) (h : Half) (t : TileIx) (p : Nat) : Bool := (List.range 8).all fun i => s.deadThread h t (8 * p + i)

/-- One CK_CORE cycle of the detectors of a tile: a core's count rises while its condition holds, and else starts again (R375). -/
def State.deadTile (s : State) (h : Half) (t : TileIx) : State :=
  let ps := (List.range 16).filter fun p => s.deadCore h t p
  if ps.isEmpty && (s.tile h t).deadFor.isEmpty then s
  else s.updTile h t fun x => { x with deadFor := ps.map fun p => (p, satTo (tget 0 x.deadFor p + 1) 1024) }

/-- One CK_CORE cycle of the detectors of a half (R13, R375). -/
def State.deadCycle (s : State) (h : Half) : State := (s.tiles.get h).foldl (fun s e => s.deadTile h (Fin.ofNat 16 e.1)) s

/-- The count of a core reaches 1,024 cycles (R376). -/
def doEventDeadlock (h : Half) (t : TileIx) (c k : Fin 4) (s : State) : State :=
  let n0 := 32 * c.val + 8 * k.val
  if s.deadCore h t (4 * c.val + k.val) ∧ tget 0 (s.tile h t).deadFor (4 * c.val + k.val) = 1024 then
    let th := ThreadRef.pk h t (Fin.ofNat 128 n0)
    let s1 := (s.report (.core h t c k) F.EVENT_DEADLOCK).bump (bCore h t c k) R.core_DEADLOCKS
    let s2 := s1.raiseInt th 5
    match (s2.thread th).phase with
    | .waitev gd mask timer clear => s2.waitevDone th gd mask clear (s2.wakeCauses th mask timer + 8)
    | _ => s2
  else s

/-- EVENT_DEADLOCK (R376). -/
def execEventDeadlock (h : Half) (t : TileIx) (c k : Fin 4) (s : State) : Out := .next (doEventDeadlock h t c k s)

/-! ### Thread control (R377–R380) -/

/-- THREAD_POST (R377). -/
def execThreadPost (a : Agent) (th : ThreadRef) (s : State) : Out :=
  .next (if s.agentReach a (threadUnit th) then doThreadPost th s else s)

/-- THREAD_KILL (R380). -/
def execThreadKill (a : Agent) (th : ThreadRef) (s : State) : Out :=
  .next (if s.agentReach a (threadUnit th) then doThreadKill th s else s)

/-- THREAD_RESUME (R378). -/
def execThreadResume (a : Agent) (th : ThreadRef) (s : State) : Out :=
  .next (if s.agentReach a (threadUnit th) then doThreadResume th s else s)

/-- THREAD_HALT (R378). -/
def execThreadHalt (a : Agent) (th : ThreadRef) (s : State) : Out :=
  .next (if s.agentReach a (threadUnit th) then doThreadHalt th s else s)

/-- HALT_COMPLETE (R378). -/
def execHaltComplete (th : ThreadRef) (s : State) : Out := .next (doHaltComplete th s)

/-! ### Message channels (R381–R386) -/

/-- CHSTG (R382). -/
def execFkChstg (th : ThreadRef) (s : State) : Out := .next (s.fkRun .chstg th fun s c =>
  .next (s.updThread c.th fun x => { x with staging := tput x.staging (wImm8 c.w) (BitVec.ofNat 32 (c.g (wB c.w))) }))

/-- A channel of the thread's tile or half is enabled; a number beyond the last channel names none (R381, R386). -/
def State.chanOpen (s : State) (th : ThreadRef) (n : Nat) : Bool := decide (n < chanCount th) && bit (s.chCfg th n) 0

/-- CHSEND (R382, R383). -/
def execFkChsend (th : ThreadRef) (s : State) : Out := .next (s.fkRun .chsend th fun s c =>
  let ch := c.g (wB c.w) % 256
  let n := wImm8 c.w
  if !s.chanOpen c.th ch then .next (s.putG c.th (wA c.w) 2)
  else if chCap (s.chCfg c.th ch) ≤ (s.chan c.th ch).length then
    .next ((s.bumpChan c.th R.channel_CH_FULL 1).putG c.th (wA c.w) 1)
  else
    let m : Message := { sender := threadIx c.th, count := n, words := (List.range n).map fun k => tget 0 c.x.staging k }
    .next (((s.sendMessage c.th ch m).updThread c.th fun x => { x with staging := [] }).putG c.th (wA c.w) 0))

/-- The 40 bytes CHRECV writes (R384). -/
def recvBytes (status : Nat) (m : Option Message) : List Byte :=
  match m with
  | none => leBytes 8 (status <<< 56) ++ List.replicate 32 0
  | some m =>
    leBytes 8 (status <<< 56 ||| (m.count % 16) <<< 16 ||| m.sender % 128) ++ padTo (m.words.flatMap fun w => leBytes 4 w.toNat) 32

/-- The bytes of a message area go to memory at an 8-byte-aligned address (R321, R322, R382). -/
def State.putArea (s : State) (th : ThreadRef) (ga : Nat) (bs : List Byte) : State × Option Fail :=
  match th with
  | .pk h t n =>
    match s.pkPlace h t n ga bs.length with
    | .error e => (s, some e)
    | .ok l => if ga % 8 ≠ 0 then (s, some (.trap cAlign ga)) else (s.updTile h t fun x => x.put l bs, none)
  | .cc h n => s.ccWriteSpan h n ga bs (bs.length / 8)

/-- CHRECV (R382, R384, R385). -/
def execFkChrecv (th : ThreadRef) (s : State) : Out := .next (s.fkRun .chrecv th fun s c =>
  let ch := c.g (wB c.w) % 256
  let ga := c.gFull (wA c.w)
  let q := if s.chanOpen c.th ch then s.chan c.th ch else []
  let status := if !s.chanOpen c.th ch then 2 else if q.isEmpty then 1 else 0
  match s.putArea c.th ga (recvBytes status q.head?) with
  | (s1, some e) => .fail s1 e
  | (s1, none) => .next (if q.isEmpty then s1 else (s1.setChan c.th ch (q.drop 1)).bumpChan c.th R.channel_CH_RECEIVED 1))

/-- CHDROP (R382). -/
def execFkChdrop (th : ThreadRef) (s : State) : Out := .next (s.fkRun .chdrop th fun s c =>
  .next (s.updThread c.th fun x => { x with staging := [] }))

/-- CH_CFG_WRITE: channel `ch` of a tile, or of the control cores of a half (R386, R621). -/
def execChCfgWrite (a : Agent) (h : Half) (control : Bool) (t : TileIx) (ch : Fin 256) (v : DWord) (s : State) : Out :=
  let th : ThreadRef := if control then .cc h 0 else .pk h t 0
  let u : UnitId := if control then .half h else .tile h t
  .next (if s.agentReach a u ∧ ch.val < chanCount th then s.writeChCfg th ch.val v else s)

/-! ### Locks (R387–R392) -/

/-- LOCK (R388, R389): a status at once, or the thread waits in the lock's queue. -/
def execFkLock (th : ThreadRef) (s : State) : Out := .next (s.fkRun .lock th fun s c =>
  let num := c.g (wB c.w) % 8192
  let p := s.partyOf c.th
  match s.lockStatus p num with
  | some 0 => .next ((s.takeLock p num).putG c.th (wA c.w) 0)
  | some st => .next (s.putG c.th (wA c.w) st)
  | none =>
    .wait ((s.updThread c.th fun x => { x with phase := .lock (wA c.w) num ((wImm8 c.w).testBit 0), pc := x.pc + 4 }).queueLock p num))

/-- TRYLOCK (R388). -/
def execFkTrylock (th : ThreadRef) (s : State) : Out := .next (s.fkRun .trylock th fun s c =>
  let num := c.g (wB c.w) % 8192
  let p := s.partyOf c.th
  match s.lockStatus p num with
  | some 0 => .next ((s.takeLock p num).putG c.th (wA c.w) 0)
  | some st => .next (s.putG c.th (wA c.w) st)
  | none => .next (s.putG c.th (wA c.w) 2))

/-- UNLOCK (R388, R389). -/
def execFkUnlock (th : ThreadRef) (s : State) : Out := .next (s.fkRun .unlock th fun s c =>
  let (s1, st) := s.unlock (s.partyOf c.th) (c.g (wB c.w) % 8192)
  .next (s1.putG c.th (wA c.w) st))

/-- LOCKS_FORCE: at H0's LOCKS unit, by Privet, a control core in supervisor mode or a PCIe function with CSR access (R391). -/
def execLocksForce (a : Agent) (h : Half) (num : Fin 8192) (s : State) : Out :=
  let super : Bool := match a with
    | .control hh n => !(s.thread (.cc hh n)).user
    | _ => true
  .next (if s.agentReach a (.locks h) ∧ super then s.forceLock h num.val else s)

end Sys2Proof.Machine
end

