-- ==== Sys2Proof/Machine/ExpLink.lean ====
section
/-! DEFINITION. The bits of the expansion link (R422–R425): blocks and lanes, the scrambler, flits, and the messages packed in them. -/

namespace Sys2Proof.Machine

/-! ### Lanes and blocks (R422) -/

/-- One bit through the self-synchronous scrambler 1 + x³⁹ + x⁵⁸ of IEEE 802.3 Clause 49, after the 58 bits that the lane carried last. -/
def scrBit (st : BitVec 58) (b : Bool) : Bool := (b != st.getLsbD 38) != st.getLsbD 57

/-- The last 58 bits of a lane once it has carried one more. -/
def scrShift (st : BitVec 58) (b : Bool) : BitVec 58 := (st <<< 1) ||| BitVec.ofNat 58 (b2n b)

/-- The 64 payload bits of a block scrambled from bit 0 on, and the lane's last bits after them. -/
def scramble (st : BitVec 58) (w : DWord) : DWord × BitVec 58 :=
  (List.range 64).foldl (fun a i =>
    let o := scrBit a.2 (w.getLsbD i)
    (if o then a.1 ||| BitVec.ofNat 64 (2 ^ i) else a.1, scrShift a.2 o)) (0, st)

/-- The 64 payload bits of a received block descrambled, and the lane's last bits after them. -/
def descramble (st : BitVec 58) (w : DWord) : DWord × BitVec 58 :=
  (List.range 64).foldl (fun a i =>
    let b := w.getLsbD i
    (if scrBit a.2 b then a.1 ||| BitVec.ofNat 64 (2 ^ i) else a.1, scrShift a.2 b)) (0, st)

/-- EXP_LANE: the lane order reversed, and the inversion of a transmit and of a receive lane (R431). -/
def laneRev (cfg : DWord) : Bool := bit cfg 32
def txInv (cfg : DWord) (j : Nat) : Bool := bit cfg j
def rxInv (cfg : DWord) (j : Nat) : Bool := bit cfg (16 + j)

/-- The lane that carries word `k` of a flit, and the word that lane `k` carries. -/
def laneOf (cfg : DWord) (k : Nat) : Nat := if laneRev cfg then 15 - k else k

/-- A data block: sync header 01 in the order of the lane, then the payload; an inverted lane inverts every bit. -/
def dataBlock (inv : Bool) (w : DWord) : BitVec 66 :=
  let b := BitVec.ofNat 66 (w.toNat * 4 + 2)
  if inv then ~~~b else b

/-- Sixteen words leave on the lanes, an alignment block before them when each lane's next block is its 16,384th. -/
def ExpState.putWords (x : ExpState) (cfg : DWord) (word : Nat → DWord) : ExpState :=
  let y := if x.txBlocks = 16383 then
      { x with txBlocks := 0, lanes := x.lanes ++ [(List.range 16).map fun j => ExpBlock.alignment (laneOf cfg j)] }
    else x
  let out (j : Nat) := scramble (tget 0 y.txScr j) (word (laneOf cfg j))
  { y with
    txBlocks := y.txBlocks + 1
    lanes := y.lanes ++ [(List.range 16).map fun j => ExpBlock.data (dataBlock (txInv cfg j) (out j).1)]
    txScr := (List.range 16).foldl (fun t j => tset 0 t j (out j).2) y.txScr }

/-- A received block with its lane's inversion undone. -/
def rxBlock (cfg : DWord) (blocks : List (BitVec 66)) (j : Nat) : BitVec 66 :=
  let b := blocks.getD j 0
  if rxInv cfg j then ~~~b else b

/-- The payload words of the received blocks, each descrambled on its lane. -/
def ExpState.rxWord (x : ExpState) (cfg : DWord) (blocks : List (BitVec 66)) (j : Nat) : DWord × BitVec 58 :=
  descramble (tget 0 x.rxScr j) (BitVec.ofNat 64 ((rxBlock cfg blocks j).toNat / 4))

/-- All sixteen blocks carry the sync header of data. -/
def dataHeaders (cfg : DWord) (blocks : List (BitVec 66)) : Bool := (List.range 16).all fun j => decide ((rxBlock cfg blocks j).toNat % 4 = 2)

/-- The 128 bytes that the blocks carry, the words in the order of the flit. -/
def ExpState.rxBytes (x : ExpState) (cfg : DWord) (blocks : List (BitVec 66)) : List Byte :=
  (List.range 16).flatMap fun k => leBytes 8 (x.rxWord cfg blocks (laneOf cfg k)).1.toNat

/-- The receive lanes have carried these blocks. -/
def ExpState.rxShift (x : ExpState) (cfg : DWord) (blocks : List (BitVec 66)) : ExpState :=
  { x with rxScr := (List.range 16).foldl (fun t j => tset 0 t j (x.rxWord cfg blocks j).2) x.rxScr }

/-! ### Flits (R423) -/

/-- The CRC of a flit: CRC-32C with CRC_INIT 0xFFFF_FFFF over bytes 0–123. -/
def flitCrc (b : List Byte) : Nat := (crc32c 0xFFFFFFFF).of (b.take 124)

/-- The 128 bytes of a flit. -/
def flitBytes (seq ack cls credits : Nat) (payload : List Byte) : List Byte :=
  let b := leBytes 4 ((seq % 256) <<< 24 ||| (ack % 256) <<< 16 ||| (cls % 4) <<< 14 ||| credits % 16384) ++ padTo payload 120
  b ++ leBytes 4 (flitCrc b)

/-- The fields of 128 received bytes. -/
def flitSeq (b : List Byte) : Nat := fld (BitVec.ofNat 64 (leNat (b.take 4))) 24 8
def flitAck (b : List Byte) : Nat := fld (BitVec.ofNat 64 (leNat (b.take 4))) 16 8
def flitClass (b : List Byte) : Nat := fld (BitVec.ofNat 64 (leNat (b.take 4))) 14 2
def flitCredits (b : List Byte) : Nat := fld (BitVec.ofNat 64 (leNat (b.take 4))) 0 14
def flitPayload (b : List Byte) : List Byte := slice b 4 120

/-- An idle flit carries the SEQ of the flit before it and a payload of zeros. -/
def flitIdle (last : Nat) (b : List Byte) : Bool := decide (flitSeq b = last) && (flitPayload b).all fun x => decide (x = 0)

/-- A flit is good: its CRC matches, and it is the next in sequence or an idle one (R424). -/
def flitGood (last : Nat) (b : List Byte) : Bool :=
  decide (leNat (slice b 124 4) = flitCrc b) && (decide (flitSeq b = (last + 1) % 256) || flitIdle last b)

/-! ### Messages (R425) -/

/-- The 8-byte header of a REQ or of a FRAME_OUT. -/
def ExpMsg.header (m : ExpMsg) : Nat :=
  (if m.frame then 3 <<< 60
    else 1 <<< 60 ||| (m.tag % 4096) <<< 48 ||| (m.fn % 256) <<< 40 ||| (m.tile % 16) <<< 36 ||| (m.cluster % 4) <<< 34 ||| (m.inst % 4) <<< 32)
    ||| m.bytes.length % 16384

/-- Bytes that n bytes of payload take with their padding. -/
def padded (n : Nat) : Nat := (n + 7) / 8 * 8

/-- A message as it stands in the flits: its header, its payload, and zeros to a multiple of 8. -/
def ExpMsg.wire (m : ExpMsg) : List Byte := leBytes 8 m.header ++ padTo m.bytes (padded m.bytes.length)

/-- Units of credit of a message: its whole length with the header, in 64 bytes (R426). -/
def ExpMsg.units (m : ExpMsg) : Nat := (8 + m.bytes.length + 63) / 64

/-- Flits of a message: 120 bytes of payload each. -/
def ExpMsg.flits (m : ExpMsg) : Nat := (8 + padded m.bytes.length + 119) / 120

/-- The flits that carry a message after the flit of SEQ `last`; zeros, a header of TYPE 0, end the last one. -/
def ExpMsg.pack (m : ExpMsg) (last : Nat) : List ExpFlit :=
  (List.range m.flits).map fun i => ⟨(last + 1 + i) % 256, padTo (slice m.wire (120 * i) 120) 120⟩

/-- Received bytes taken apart into messages: those that are whole, and the bytes of one that goes on in the next flit. TYPE 0 ends the
messages of a flit, and so does a TYPE that this direction does not have. -/
def unpack : Nat → List Byte → List ExpRx × List Byte
  | 0, _ => ([], [])
  | n + 1, l =>
    if l.length < 8 then ([], [])
    else
      let w := BitVec.ofNat 64 (leNat (l.take 8))
      let ty := fld w 60 4
      let len := fld w 0 14
      if ty ≠ 2 ∧ ty ≠ 4 then ([], [])
      else if l.length < 8 + padded len then ([], l)
      else
        let r := unpack n (l.drop (8 + padded len))
        (⟨ty, fld w 48 12, fld w 40 8, slice l 8 len⟩ :: r.1, r.2)

/-- The payload of a good flit with messages is unpacked. -/
def ExpState.takePayload (x : ExpState) (p : List Byte) : ExpState :=
  let l := x.rxBuf ++ p
  let r := unpack (l.length / 8) l
  { x with rxBuf := r.2, rxMsgs := x.rxMsgs ++ r.1 }

/-- The oldest unpacked message that is this one has been handed on. -/
def ExpState.handOn (x : ExpState) (m : ExpRx) : ExpState := { x with rxMsgs := x.rxMsgs.erase m }

/-- FRAME_IN credits that a flit grants while `free` entries of the inject queue are free (R426): the customer logic comes to hold
credit for one frame of the greatest length for each. -/
def ExpState.grant (x : ExpState) (free : Nat) : Nat := 161 * free - x.inCredits

/-- A flit leaves: its header with ACK and the FRAME_IN credits granted, its payload and its CRC, on the lanes (R422, R423). -/
def ExpState.putFlit (x : ExpState) (cfg : DWord) (free : Nat) (f : ExpFlit) : ExpState :=
  let g := x.grant free
  let b := flitBytes f.seq x.rxSeq (if g = 0 then 0 else 2) g f.payload
  ({ x with inCredits := x.inCredits + g }).putWords cfg fun k => BitVec.ofNat 64 (leNat (slice b (8 * k) 8))

/-- Flits leave one after another. -/
def ExpState.putFlits (x : ExpState) (cfg : DWord) (free : Nat) (fs : List ExpFlit) : ExpState :=
  fs.foldl (fun x f => x.putFlit cfg free f) { x with lanes := [] }

/-- The flit sent when there is no message to carry: SEQ does not advance. -/
def ExpState.idleFlit (x : ExpState) : ExpFlit := ⟨x.txSeq, List.replicate 120 0⟩

/-- A good flit is taken (R423, R424, R426): credits return, ACK frees kept flits, SEQ advances and the messages are unpacked. -/
def ExpState.takeFlit (x : ExpState) (b : List Byte) (now : Nat) : ExpState :=
  let a := flitAck b
  let y := if x.kept.any (fun f => decide (f.seq = a)) then
      { x with kept := (x.kept.dropWhile fun f => decide (f.seq ≠ a)).drop 1, lastAck := a, ackTick := now, replayTick := now }
    else x
  let z := { y with
    locked := true, aligned := true, goodRun := y.goodRun + 1, badRun := 0
    reqCredits := y.reqCredits + if flitClass b = 1 then flitCredits b else 0
    frameCredits := y.frameCredits + if flitClass b = 2 then flitCredits b else 0 }
  if flitIdle x.rxSeq b then z else ({ z with rxSeq := flitSeq b }).takePayload (flitPayload b)

/-- A bad flit is discarded. -/
def ExpState.badFlit (x : ExpState) : ExpState := { x with locked := true, aligned := true, goodRun := 0, badRun := x.badRun + 1 }

end Sys2Proof.Machine
end

