-- ==== Sys2Proof/Machine/Expansion.lean ====
section
/-! DEFINITION. The expansion port (R422–R431): its link, flits and credits, requests and responses, and the frames of P131. -/

namespace Sys2Proof.Machine

/-- Change a half's expansion port. -/
def State.updExp (s : State) (h : Half) (f : ExpState → ExpState) : State := { s with exp := s.exp.upd h f }

/-- EXP_LANE of a half, and the free entries of its inject queue (R247). -/
def State.expLane (s : State) (h : Half) : DWord := s.reg (bHalf h) R.half_EXP_LANE
def State.injectFree (s : State) (h : Half) : Nat := injectDepth - (s.ing.get h).injectUsed

/-- EXP_CFG.EN, FRAMES_EN and TIMEOUT_US in ticks (R431). -/
def State.expEn (s : State) (h : Half) : Bool := bit (s.reg (bHalf h) R.half_EXP_CFG) 0
def State.expFrames (s : State) (h : Half) : Bool := bit (s.reg (bHalf h) R.half_EXP_CFG) 1
def State.expTimeout (s : State) (h : Half) : Nat :=
  let n := s.rfld (bHalf h) R.half_EXP_CFG 32 10
  usTicks * (if n = 0 then 1 else if 1000 < n then 1000 else n)

/-- Credit for a message is held (R426). -/
def ExpState.hasCredit (x : ExpState) (m : ExpMsg) : Bool := decide (m.units ≤ if m.frame then x.frameCredits else x.reqCredits)

/-- The message sent next: the oldest of a type for which credit is held; messages of one type stay in order (R425, R426). -/
def ExpState.nextMsg (x : ExpState) : Option ExpMsg :=
  let q := x.waiting.find? fun m => !m.frame
  let f := x.waiting.find? fun m => m.frame
  x.waiting.find? fun m => (decide (q = some m) || decide (f = some m)) && x.hasCredit m

/-- A message leaves: its credit is spent, and its flits are kept until they are acknowledged (R423, R424, R426). -/
def ExpState.send (x : ExpState) (m : ExpMsg) (now : Nat) : ExpState :=
  { x with
    waiting := x.waiting.erase m
    reqCredits := if m.frame then x.reqCredits else x.reqCredits - m.units
    frameCredits := if m.frame then x.frameCredits - m.units else x.frameCredits
    txSeq := (x.txSeq + m.flits) % 256
    kept := x.kept ++ m.pack x.txSeq
    ackTick := if x.kept.isEmpty then now else x.ackTick
    replayTick := if x.kept.isEmpty then now else x.replayTick
    reqs := if m.frame then x.reqs else x.reqs.map fun r => if r.tag = m.tag then { r with sent := some now } else r }

/-- The next message with credit leaves; the sender keeps 128 unacknowledged flits at most (R424, R426, R428). -/
def doExpSend (h : Half) (s : State) : State :=
  let x := s.exp.get h
  match x.nextMsg with
  | none => s
  | some m =>
    if x.linkUp ∧ x.kept.length + m.flits ≤ 128 then
      let s1 := s.updExp h fun x => (x.send m s.ticks).putFlits (s.expLane h) (s.injectFree h) (m.pack x.txSeq)
      if m.frame then s1 else s1.bump (bHalf h) R.half_EXP_REQUESTS
    else s

/-- A request's response is written with a failure (R408, R429). -/
def State.expFail (s : State) (h : Half) (status : Nat) (q : ExpReq) : State :=
  let s1 := s.updExp h fun x => { x with reqs := x.reqs.filter (fun r => r.tag ≠ q.tag), waiting := x.waiting.filter fun m => m.frame || m.tag ≠ q.tag }
  match (s1.tile h q.tile).response? q.resp with
  | some r => (s1.lateFail h q.tile r status).settleAfter h q.tile r
  | none => s1

/-- LINK_UP falls: every outstanding request completes with LINK_DOWN, P131 goes down, and the port retrains (R424, R429, R430). -/
def State.expFalls (s : State) (h : Half) : State :=
  let p131 := s.portUp h 67
  let s1 := (s.exp.get h).reqs.foldl (fun s q => s.expFail h 4 q) s
  let s2 := s1.updExp h fun x => { ExpState.reset with dead := x.dead, txScr := x.txScr, rxScr := x.rxScr, txBlocks := x.txBlocks }
  if p131 then s2.portFalls h 67 else s2

/-- LINK_UP falls (R424). -/
def doExpDown (h : Half) (s : State) : State := if (s.exp.get h).linkUp then s.expFalls h else s

/-- Block lock or alignment is lost: a link that was up falls (R424). -/
def State.expLoses (s : State) (h : Half) (locked : Bool) : State :=
  let s1 := s.updExp h fun x => { x with locked := locked, aligned := false, goodRun := 0 }
  if (s.exp.get h).linkUp then s1.expFalls h else s1

/-- Blocks arrive on the sixteen lanes (R422–R424): every lane must hold block lock, within 64 ns of the others, and alignment blocks the
lane order of EXP_LANE; a flit with a bad CRC or an unexpected SEQ is counted, and 16 in a row end the link. -/
def doExpFlit (h : Half) (blocks : List (BitVec 66)) (locked : BitVec 16) (skew : Nat) (alignment : Bool) (numbers : List Nat) (s : State) :
    State :=
  let cfg := s.expLane h
  if s.expEn h then
    if locked ≠ 0xFFFF then s.expLoses h false
    else if 64 < skew ∨ (alignment ∧ numbers ≠ (List.range 16).map (laneOf cfg)) then s.expLoses h true
    else if alignment then s.updExp h fun x => { x with locked := true, aligned := true }
    else
      let x := s.exp.get h
      let b := x.rxBytes cfg blocks
      if dataHeaders cfg blocks && flitGood x.rxSeq b then s.updExp h fun x => (x.rxShift cfg blocks).takeFlit b s.ticks
      else
        let s1 := (s.bump (bHalf h) R.half_EXP_CRC_ERR).updExp h fun x => (x.rxShift cfg blocks).badFlit
        if 16 ≤ (s1.exp.get h).badRun ∧ (s1.exp.get h).linkUp then s1.expFalls h else s1
  else s

/-- LINK_UP rises once each side has received 64 consecutive good flits (R424). -/
def doExpUp (h : Half) (s : State) : State :=
  let x := s.exp.get h
  let clocked := !s.pv.ioLost.contains (1 + 2 * h.val) && !s.pv.ioLost.contains (2 + 2 * h.val)
  if s.expEn h ∧ x.linkUp = false ∧ 64 ≤ x.goodRun ∧ clocked then
    (s.updExp h fun x => { x with linkUp := true, ackTick := s.ticks }).portReturns h 67
  else s

/-- 2 µs pass with no advance of ACK: the kept flits are sent again (R424). -/
def doExpReplay (h : Half) (s : State) : State :=
  let x := s.exp.get h
  if x.linkUp ∧ x.kept.isEmpty = false ∧ x.ackTick + 2 * usTicks ≤ s.ticks ∧ x.replayTick + 2 * usTicks ≤ s.ticks then
    (s.updExp h fun x => ({ x with replayTick := s.ticks }).putFlits (s.expLane h) (s.injectFree h) x.kept).bump (bHalf h) R.half_EXP_REPLAYS
  else s

/-- The response word and payload of an RSP message (R428). -/
def rspBytes (status r : Nat) (bytes : List Byte) : List Byte :=
  leBytes 8 (status <<< 56 ||| b2n (decide (r < bytes.length)) <<< 55 ||| bytes.length % 16384) ++ bytes.take r

/-- An RSP message arrives (R428, R429). -/
def doExpRsp (h : Half) (tag status : Nat) (bytes0 : List Byte) (s0 : State) : State :=
  let bytes := bytes0.take 256
  let s := s0.updExp h fun x => x.handOn ⟨2, tag, status, bytes0⟩
  if (s0.exp.get h).linkUp then
    match (s.exp.get h).reqs.find? fun q => decide (q.tag = tag) && q.sent.isSome with
    | none => s.bump (bHalf h) R.half_EXP_LATE_RSP
    | some q =>
      let s1 := (s.updExp h fun x => { x with reqs := x.reqs.filter fun r => r.tag ≠ tag }).bump (bHalf h) R.half_EXP_RESPONSES
      match (s1.tile h q.tile).response? q.resp with
      | none => s1
      | some r =>
        let s2 := s1.respond h q.tile { r with bytes := rspBytes status q.r bytes }
        let s3 := match status, r.unit.cp? with
          | 0, _ => s2
          | _, some (u, cl, i) => s2.lateReport h q.tile r.thread ⟨u, cl, i, r.fn, 8, r.slot, r.pc, (s1.task h q.tile r.slot).stamp.toNat⟩
          | _, none => s2
        s3.settleAfter h q.tile r
  else s0

/-- No RSP has come in TIMEOUT_US (R429). -/
def doExpTimeout (h : Half) (tag : Nat) (s : State) : State :=
  let t := s.expTimeout h
  match (s.exp.get h).reqs.find? fun q => decide (q.tag = tag) with
  | none => s
  | some q =>
    match q.sent with
    | none => s
    | some at0 =>
      if at0 + t ≤ s.ticks then
        let s1 := (s.expFail h 7 q).bump (bHalf h) R.half_EXP_TIMEOUTS
        s1.updExp h fun x => { x with dead := (x.dead.filter fun d => decide (s.ticks < d.2)) ++ [(tag, s.ticks + t)] }
      else s

/-- A FRAME_IN spends its credit (R426). -/
def ExpState.spendIn (x : ExpState) (bytes : List Byte) : ExpState :=
  ({ x with inCredits := x.inCredits - frameUnits bytes.length }).handOn ⟨4, 0, 0, bytes⟩

/-- A FRAME_IN enters the inject queue as a frame of P131, or is discarded (R430, R679). -/
def doFrameIn (h : Half) (bytes : List Byte) (s : State) : State :=
  if (s.exp.get h).linkUp ∧ s.expFrames h ∧ s.injectRoom h then
    let s1 := s.updExp h fun x => x.spendIn bytes
    if 10240 < bytes.length ∨ bytes.length < 60 ∨ s.canTake h 0 (cellsFor bytes.length) = false then s1.bump (bHalf h) R.half_EXP_FRAME_DROP
    else s1.injectBytes h 3 bytes
  else s

/-- One tick of the port: the flit that leaves with nothing else to send is idle and carries ACK and credits; the link falls when ACK has
not advanced for 10 µs with flits outstanding, or when EXP_CFG.EN has been cleared (R423, R424, R431). -/
def State.expTick (s : State) (h : Half) : State :=
  let x := s.exp.get h
  if x.linkUp then
    if s.expEn h = false ∨ (x.kept.isEmpty = false ∧ x.ackTick + 10 * usTicks ≤ s.ticks) then s.expFalls h
    else s.updExp h fun x => x.putFlits (s.expLane h) (s.injectFree h) [x.idleFlit]
  else s

/-! ### The commands -/

/-- EXP_REQ_SEND (R428, R490). -/
def execExpReqSend (h : Half) (s : State) : Out := .next (doExpSend h s)

/-- EXP_FLIT_RECEIVE (R424). -/
def execExpFlitReceive (h : Half) (blocks : List (BitVec 66)) (locked : BitVec 16) (skew : Nat) (alignment : Bool) (numbers : List Nat)
    (s : State) : Out :=
  .next (doExpFlit h blocks locked skew alignment numbers s)

/-- EXP_RSP_RECEIVE (R428). -/
def execExpRspReceive (h : Half) (tag : BitVec 12) (status : BitVec 8) (bytes : List Byte) (s : State) : Out :=
  .next (doExpRsp h tag.toNat status.toNat bytes s)

/-- FRAME_IN (R430). -/
def execFrameIn (h : Half) (bytes : List Byte) (s : State) : Out := .next (doFrameIn h bytes s)

/-- EXP_REPLAY (R424). -/
def execExpReplay (h : Half) (s : State) : Out := .next (doExpReplay h s)

/-- EXP_TIMEOUT (R429). -/
def execExpTimeout (h : Half) (tag : BitVec 12) (s : State) : Out := .next (doExpTimeout h tag.toNat s)

/-- EXP_LINK_UP (R424). -/
def execExpLinkUp (h : Half) (s : State) : Out := .next (doExpUp h s)

/-- EXP_LINK_DOWN (R424). -/
def execExpLinkDown (h : Half) (s : State) : Out := .next (doExpDown h s)

end Sys2Proof.Machine
end

