-- ==== Sys2Proof/Machine/FlakoC.lean ====
section
/-! DEFINITION. The instructions of the control cores alone (R357–R359): 64-bit loads and stores, the indivisible memory operations, DRAIN
and mirrored writes (R623), and the supervisor's instructions. -/

namespace Sys2Proof.Machine

/-- A 64-bit result of a load. -/
def loadBody64 (len : Nat) (s : State) (c : Fk) : FkRes :=
  match s.load c.th c.addr len with
  | (s1, .ok bs) => .next (s1.putG64 c.th (wA c.w) (leNat bs))
  | (s1, .error e) => .fail s1 e

/-- LD (R357). -/
def execFkLd (th : ThreadRef) (s : State) : Out := .next (s.fkRun .ld th (loadBody64 8))

/-- LWU (R357). -/
def execFkLwu (th : ThreadRef) (s : State) : Out := .next (s.fkRun .lwu th (loadBody64 4))

/-- SD (R357). -/
def execFkSd (th : ThreadRef) (s : State) : Out := .next (s.fkRun .sd th fun s c =>
  match s.store c.th c.addr (leBytes 8 (c.gFull (wA c.w))) with
  | (s1, none) => .next s1
  | (s1, some e) => .fail s1 e)

/-- A read and a write of the 64 bits at gs that no other access comes between (R357): `f` makes the new value of the old, or leaves the
memory as it is; gd takes the old value. An operation that always stores is translated as a store. -/
def swapBody (stores : Bool) (f : Fk → Nat → Option Nat) (s : State) (c : Fk) : FkRes :=
  match c.th with
  | .pk _ _ _ => .next s
  | .cc h n =>
    let va := c.gFull (wB c.w)
    if va % 8 ≠ 0 then .fail s (.trap cAlign va)
    else
      match s.translate h n va (if stores then accWrite else accRead) with
      | (s1, .error e) => .fail s1 e
      | (s1, .ok pa) =>
        match s1.physRead h n pa 8 with
        | (s2, none) => .fail s2 (.trap (0x80 + (if stores then accWrite else accRead)) va)
        | (s2, some bs) =>
          match f c (leNat bs) with
          | none => .next (s2.putG64 c.th (wA c.w) (leNat bs))
          | some v =>
            match s2.ccStore h n va (leBytes 8 v) with
            | (s3, none) => .next (s3.putG64 c.th (wA c.w) (leNat bs))
            | (_, some .stall) => .fail s .stall
            | (s3, some e) => .fail s3 e

/-- SWAPM (R357). -/
def execFkSwapm (th : ThreadRef) (s : State) : Out := .next (s.fkRun .swapm th (swapBody true fun c _ => some (c.gFull (wC c.w))))

/-- ADDM (R357). -/
def execFkAddm (th : ThreadRef) (s : State) : Out := .next (s.fkRun .addm th
  (swapBody true fun c old => some ((old + c.gFull (wC c.w)) % 2 ^ 64)))

/-- CASM (R357). -/
def execFkCasm (th : ThreadRef) (s : State) : Out := .next (s.fkRun .casm th
  (swapBody false fun c old => if old = c.gFull (wA c.w) then some (c.gFull (wC c.w)) else none))

/-- A mirrored write of the thread is still to be applied in the peer's copy (R623). -/
def State.mirrorPending (s : State) (th : ThreadRef) : Bool :=
  match th with
  | .cc h n => (s.cc.get h).mirror.any fun e => decide (e.1 = n.val)
  | .pk _ _ _ => false

/-- DRAIN (R357, R623): the thread waits until its mirrored writes are applied in both copies. -/
def execFkDrain (th : ThreadRef) (s : State) : Out := .next (s.fkRun .drain th fun s c =>
  if s.mirrorPending c.th then .fail s .stall else .next s)

/-- The oldest mirrored write of a half is applied to the peer's copy, or is lost with the peer (R623). -/
def doMirrorApply (h : Half) (s : State) : State :=
  match (s.cc.get h).mirror with
  | [] => s
  | (_, m, bs) :: r =>
    let s1 := { s with cc := s.cc.upd h fun x => { x with mirror := r } }
    if (s.ford.get h).peerUp then (s1.hbmWrite (other h) ccReq (s.mirrorPeer (other h) + m) bs).1
    else s1.bump (bCc h) R.cc_MIRROR_UNSENT

/-- MIRROR_PEER_APPLY (R623). -/
def execMirrorPeerApply (h : Half) (s : State) : Out := .next (s.orWait (doMirrorApply h))

/-- GATE (R357, R358): entry to supervisor mode with KRET at the next instruction. -/
def execFkGate (th : ThreadRef) (s : State) : Out := .next (s.fkRun .gate th fun s c => .after s cGate (wImm8 c.w))

/-- An instruction of supervisor mode: it traps PRIV in user mode (R358). -/
def privBody (f : State → Fk → FkRes) (s : State) (c : Fk) : FkRes := if c.x.user then .fail s .priv else f s c

/-- GRET (R358): the thread goes on at KRET in the mode RET_USER names. -/
def execFkGret (th : ThreadRef) (s : State) : Out := .next (s.fkRun .gret th (privBody fun s c =>
  let k := c.x.kreg kKSTATE
  .jump (s.updThread c.th fun x => x.setK kKSTATE (setFld k 0 1 (fld k 1 1))) ((c.x.kreg kKRET).toNat : Int)))

/-- MFKR (R358). -/
def execFkMfkr (th : ThreadRef) (s : State) : Out := .next (s.fkRun .mfkr th (privBody fun s c =>
  .next (s.putG64 c.th (wA c.w) (c.x.kreg (wImm8 c.w)).toNat)))

/-- What a kernel register holds after a write of `v` (R358): USER is read-only, and bits without a meaning stay zero. -/
def kWrite (i : Nat) (old v : DWord) : DWord :=
  if i = kKSTATE then setFld old 1 1 (fld v 1 1)
  else if i = kKCAUSE then v &&& 0xFF
  else if i = kXROOT then v &&& 0x0000FFFFFFFF8001
  else v

/-- MTKR (R358). -/
def execFkMtkr (th : ThreadRef) (s : State) : Out := .next (s.fkRun .mtkr th (privBody fun s c =>
  let i := wImm8 c.w
  .next (s.updThread c.th fun x => x.setK i (kWrite i (x.kreg i) (BitVec.ofNat 64 (c.gFull (wB c.w)))))))

/-- XLINV (R357): the cached translations of one page, or every one, of the half's control cores. -/
def execFkXlinv (th : ThreadRef) (s : State) : Out := .next (s.fkRun .xlinv th (privBody fun s c =>
  let v := c.gFull (wB c.w)
  .next { s with cc := s.cc.upd (threadHalf c.th) fun x =>
    { x with xl := if v = 0 then [] else x.xl.filter fun e => decide (e.1 % 2 ^ 34 ≠ bits v 14 34) } }))

end Sys2Proof.Machine
end

