-- ==== Sys2Proof/Machine/HbmAccess.lean ====
section
/-! DEFINITION. The pseudo-channels' own work (R503–R517, R677): the part performed with what ECC and parity show, and the commands of
the HBM controllers. -/

namespace Sys2Proof.Machine

/-! ### The part (R499, R503, R512, R516, R517) -/

/-- The requester of a packet task's part (R498, R501). -/
def HbmPart.req (q : HbmPart) : HbmReq := ⟨.pkt, q.src, q.stream⟩

/-- The granules of a read that its controller takes from the array and that hold no poison: those whose code is checked. -/
def HbmState.checked (x : HbmState) (q : HbmPart) : List Nat :=
  let y := x.settleRaw q.req q.addr q.len
  (gransOf q.addr q.len).filter fun g =>
    let queued := match wqFind (tget [] y.wq (hbmPc q.addr)) g with
      | some e => e.whole && (!q.stream || e.srcs.contains q.src)
      | none => false
    !queued && !x.poison.contains g

/-- A part of a read is performed: what its codes show, its bytes, and then the rows that fail by what was found (R503, R512, R514). -/
def State.performRead (s : State) (h : Half) (q : HbmPart) (ecc : List EccOutcome) : State × PartData :=
  let goes := (s.hbmStop h .pkt false q.addr).isNone && !(s.hbm.get h).retired.contains (hbmRowKey q.addr)
  let gs := if goes then (s.hbm.get h).checked q else []
  match (s.granEccs h gs ecc).hbmReadPart h q.req q.addr q.len with
  | (s2, d) => (s2.granFailures h gs ecc, ⟨d.bytes, d.errs.foldl (fun n g => n ||| 1 <<< (g - q.addr / 32)) 0, d.err⟩)

/-- A part of a write is performed; the answer is what the controller's refusal leaves in the request (R331, R499). -/
def State.performWrite (s : State) (h : Half) (q : HbmPart) : State × PartData :=
  let (s1, ok) := s.hbmWritePart h q.req q.addr q.data
  (s1, if ok then ⟨[], 0, false⟩ else PartData.failed q.len)

/-- A parity error of a command: the repeat is counted and recorded, and a repeat that fails opens HBM_LINK (R516). -/
def State.parityError (s : State) (h : Half) (st : Fin 2) (fails : Bool) : State :=
  let u := UnitId.hbmc h st
  let s1 := s.fault u F.HBM_PARITY
  if fails then (s1.fault u F.HBM_LINK).updHbm h fun x => { x with linkBad := x.linkBad.filter (· ≠ st.val) } else s1

/-- HBM_ACCESS (R505): the part at `index` among those that wait at the pseudo-channel; `ecc` is what the codes of the granules read
from the array show, `parity` 0 no error, 1 an error whose repeat passes, 2 one whose repeat fails. -/
def doHbmAccess (h : Half) (p : Nat) (index : Nat) (ecc : List EccOutcome) (parity : Nat) (s : State) : State :=
  let x := s.hbm.get h
  match (tget [] x.parts p)[index]? with
  | none => s
  | some q =>
    if s.hbmAwake h (hbmStack q.addr) ∧ x.mayPerform p s.ticks index then
      let s0 := s.updHbm h fun x => { x with parts := tset [] x.parts p ((tget [] x.parts p).eraseIdx index) }
      let s1 := if parity = 0 then s0 else s0.parityError h (hbmStack q.addr) (decide (parity = 2))
      if parity = 2 then s1.finishPart h q (PartData.failed q.len)
      else
        match if q.write then s1.performWrite h q else s1.performRead h q ecc with
        | (s2, d) => s2.finishPart h q d
    else s

/-! ### The commands -/

/-- HBM_ACCESS (R505). -/
def execHbmAccess (h : Half) (p : Fin 64) (index : Nat) (ecc : List EccOutcome) (parity : Fin 3) (s : State) : Out :=
  .next (s.checked (doHbmAccess h p.val index ecc parity.val s))

/-- HBM_WRITE_TO_ARRAY (R677). -/
def execHbmWriteToArray (h : Half) (p : Fin 64) (s : State) : Out := .next (s.checked (doHbmWriteToArray h p.val s))

/-- HBM_REFRESH (R508). -/
def execHbmRefresh (h : Half) (p : Fin 64) (bank : Nat) (s : State) : Out := .next (doHbmRefresh h p.val bank s)

/-- HBM_POWER_DOWN (R509). -/
def execHbmPowerDown (h : Half) (p : Fin 64) (s : State) : Out := .next (doHbmPowerDown h p.val s)

/-- HBM_SCRUB_READ (R513). -/
def execHbmScrubRead (h : Half) (st : Fin 2) (ecc : EccOutcome) (s : State) : Out := .next (doHbmScrub h st ecc s)

/-- HBM_ROW_REPAIR_DONE (R514). -/
def execHbmRowRepairDone (h : Half) (p : Fin 64) (bank row : Nat) (s : State) : Out := .next (doRowRepairDone h ⟨p.val, bank, row⟩ s)

/-- HBM_STACK_TEMP_REPORT (R508). -/
def execHbmStackTempReport (h : Half) (st : Fin 2) (temp : BitVec 8) (s : State) : Out := .next (doStackTemp h st temp.toNat s)

end Sys2Proof.Machine
end

