-- ==== Sys2Proof/Machine/Start.lean ====
section
/-! DEFINITION. Resets and start-up (R59–R61, R646–R648), the restart of a half (R581, R582), and the pins and clocks that act on the whole
device (R632, R655, R662). -/

namespace Sys2Proof.Machine

/-! ### The reset inputs (R646) -/

/-- The HUB counters that only PORESET_N clears (R587), and PFAIL_COUNT in place. -/
def keptCsr (s : State) : Tbl DWord :=
  let hub (h : Half) (t : Tbl DWord) : Tbl DWord :=
    [R.hub_MERGES, R.hub_ACK_STALE, R.hub_LOG_LOST, R.hub_SAFE_ENTRIES, R.hub_DETAIL_LOST].foldl
      (fun t o => tset 0 t ((bHub h).base + o) (s.reg (bHub h) o)) t
  let p := s.rfld bDevice R.device_PWR_STAT 48 16
  hub 1 (hub 0 (tset 0 [] (bDevice.base + R.device_PWR_STAT) (BitVec.ofNat 64 (p <<< 48))))

/-- The fault state of a hub that SYSRESET_N keeps (R587, R646). -/
def HubState.kept (x : HubState) : HubState :=
  { HubState.reset with slots := x.slots, events := x.events, details := x.details, detailNext := x.detailNext, hbTotal := x.hbTotal }

/-- A half's time as SYSRESET_N leaves it: DTS and the PTP counter run on, VALID is clear (R70, R646, R674). -/
def TimeState.kept (t : TimeState) : TimeState :=
  { TimeState.reset with dts := t.dts, counting := t.counting, ptpSec := t.ptpSec, ptpNs := t.ptpNs, ptpFrac := t.ptpFrac }

/-- What any reset leaves of a half's HBM: the rows under hard repair (R514); contents are not kept (R646). -/
def HbmState.kept (x : HbmState) : HbmState :=
  let hard := x.repaired.filter fun k => !x.awaiting.contains k
  { HbmState.reset with
    repaired := hard, sparesUsed := hard.foldl (fun t k => tmod 0 t (64 * k.bank + k.p) (· + 1)) [] }

/-- The scopes that the fuse DEBUG_MODE leaves unlocked at PORESET_N (R628). -/
def Fuses.scopes (f : Fuses) : Nat := if f.debugMode = 0 then 15 else 0

/-- What a reset leaves of Privet's part: flash, fuses and pins; an erase that it cut short is completed at the next boot (R643). -/
def PrivetState.kept (p : PrivetState) (por : Bool) (flash : Tbl Byte) (cause : BitVec 8) : PrivetState :=
  { PrivetState.reset with
    flash := flash, fuses := p.fuses, refclk := p.refclk, rootLock := por || p.rootLock, porLow := por || p.porLow,
    sysLow := !por || p.sysLow, pfailLow := p.pfailLow, perstLow := p.perstLow, railLow := p.railLow, bootPins := p.bootPins, bootSel := p.bootSel,
    extest := !por && p.extest, unlocked := if por then p.fuses.scopes else p.unlocked, scopeEnd := if por then [] else p.scopeEnd,
    nonce := if por then none else p.nonce, start := { StartInfo.reset with cause := cause } }

/-- Every unit in RESET with the cause of the reset (R45). -/
def unitsAt (cause : BitVec 8) : Tbl UnitDyn := allUnits.foldl (fun t u => tput t (unitBase u) { UnitDyn.init with cause := cause }) []

/-- A reset input is asserted (R646). -/
def State.assertReset (s : State) (por : Bool) : State :=
  let cause : BitVec 8 := if por then 0x06 else 0x07
  let flash := (s.pv.erasing.foldl (fun s k => s.flashErase (4096 * k) 4096) s).pv.flash
  { State.reset with
    csr := if por then [] else keptCsr s
    units := unitsAt cause
    hubs := if por then State.reset.hubs else s.hubs.both fun _ x => x.kept
    time := if por then State.reset.time else s.time.both fun _ t => t.kept
    hbm := s.hbm.both fun _ x => x.kept
    dev := { DevHw.reset with tsyncIn := s.dev.tsyncIn }
    pv := s.pv.kept por flash cause
    ticks := s.ticks
    fresh := s.fresh
    pending := s.pending }

/-- PORESET_N falls (R646); it governs while both are low. -/
def doPoreset (s : State) : State := if s.pv.porLow then s else s.assertReset true

/-- SYSRESET_N falls (R646). While PORESET_N is low it changes nothing but the pin. -/
def doSysreset (s : State) : State :=
  if s.pv.sysLow then s
  else if s.pv.porLow then s.updPv fun p => { p with sysLow := true }
  else s.assertReset false

/-! ### The steps of start-up (R647) -/

/-- A step is completed. -/
def State.setStep (s : State) (n : Nat) : State := s.setRfld bDevice R.device_START_STAT 0 8 n

/-- Change the start-up sequence's own state. -/
def State.updStart (s : State) (f : StartInfo → StartInfo) : State := s.updPv fun p => { p with start := f p.start }

/-- Step 3: DTS of both halves counts and is valid, the DEVICE and the PRIVET units are ACTIVE (R59, R70, R655, R674). -/
def State.startClocks (s : State) : State :=
  let c := s.pv.start.cause
  let s1 := (s.updPv fun p => { p with rootLock := true, ioLost := [] })
  let s2 := { s1 with time := s1.time.both fun _ t => { t with counting := true, valid := true } }
  let up (s : State) (u : UnitId) : State := s.setUState u .active c
  let s3 := up (up s2 .group) .device
  let s4 := privetUnits.foldl (fun s u => if u = .privet 8 ∧ s.pv.perstLow then s else up s u) s3
  { s4 with hubs := s4.hubs.both fun _ x => { x with hbEnd := s.ticks + 750000000, hbSeen := false } }

/-- Steps 1–6, once REFCLK is there: fuses and store are read, the clocks run, firmware is verified and runs, and the store's maps are
applied. With no firmware the sequence ends at step 4. -/
def State.startUp (s : State) : State :=
  let s1 := (s.updPv fun p =>
    { p with start := { p.start with waitRef := false }, unlocked := if p.start.cause = 0x07 then p.unlocked else p.fuses.scopes })
  let s2 := (s1.startClocks.setStep 4).logBoot
  match s2.storeRead with
  | (s3, rec) =>
    let s4 := s3.updPv fun p => { p with user := userOf rec.secs, storeSeq := rec.seq, boots := rec.boots + 1 }
    let s5 := s4.bootFirmware
    if s5.pv.booted then ((s5.applyMaps rec).calApply (pllItems (decide (s.pv.start.cause ≠ 0x07)))).setStep 6 else s5

/-- The start begins when REFCLK and, after SYSRESET_N, the root PLL are there; otherwise it waits (R633, R647). -/
def State.startIfClocked (s : State) : State :=
  if s.pv.refclk ∧ s.pv.rootLock then s.startUp else s.updStart fun x => { x with waitRef := true }

/-- RESET_RELEASE: both reset inputs are high again, and BOOT_SEL is latched (R600, R646). -/
def doRelease (s : State) : State :=
  if s.pv.porLow ∨ s.pv.sysLow then (s.updPv fun p => { p with porLow := false, sysLow := false, bootSel := p.bootPins }).startIfClocked
  else s

/-- REFCLK_ARRIVAL (R647). -/
def doRefclkArrival (s : State) : State :=
  let s1 := s.updPv fun p => { p with refclk := true }
  if s.pv.start.waitRef ∧ s.pv.porLow = false ∧ s.pv.sysLow = false then s1.startIfClocked else s1

/-- A half goes to TEST with every descendant in RESET or ACTIVE (R55, R647 step 8). -/
def State.testTree (s : State) (h : Half) : State :=
  ((subtree (.half h)).filter fun v => decide (v ≠ .half h)).foldl (fun s v =>
    if s.ustate v = .reset ∧ ¬ s.entering v then s.enterUp v .test 0x02 else s) (s.enterTest (.half h) 0x02)

/-- TRAINED and SPEED_NOW of a stack that has been trained (R518, R675). -/
def State.setTrained (s : State) (h : Half) (st : Fin 2) : State :=
  let v := setFld (s.reg (bHbmc h st) R.hbmc_HBMC_STAT) 2 1 1
  s.setReg (bHbmc h st) R.hbmc_HBMC_STAT (setFld v 0 2 (s.rfld (bHbmc h st) R.hbmc_HBMC_CFG 0 2))

/-- The remaps of data lanes that a training of a stack finds (R495): which pseudo-channels have a lane to remap, and their maps, are free
values; what Privet already holds stays where the training finds nothing. -/
def State.remapLanes (s : State) (h : Half) (st : Fin 2) : State :=
  let w := (s.free 544).toNat
  let found := (List.range 32).filter fun i => w.testBit i
  s.used.updPv fun x =>
    { x with laneMaps := x.laneMaps.upd h fun t => found.foldl (fun t i => tput t (32 * st.val + i) (bits w (32 + 16 * i) 16)) t }

/-- A training ends: TRAINED, or HBM_TRAIN and its reaction (R675). -/
def State.trainEnd (s : State) (h : Half) (st : Fin 2) (ok : Bool) : State :=
  if ok then (s.remapLanes h st).setTrained h st else s.fault (.hbmc h st) F.HBM_TRAIN

/-- HBM_TRAINING_DONE (R647 step 7, R675). -/
def doHbmTrained (h : Half) (st : Fin 2) (ok : Bool) (s : State) : State :=
  let k := 2 * h.val + st.val
  if s.dev.devState = .start ∧ s.startStep = 6 then
    if s.pv.start.trained.contains k ∨ s.ustate (.hbmc h st) ≠ .reset ∨ s.pv.extest then s
    else
      let s1 := ((s.enterUp (.hbmc h st) .active 0x02).trainEnd h st ok).updStart fun x => { x with trained := x.trained ++ [k] }
      if 4 ≤ s1.pv.start.trained.length then ((s1.setStep 7).testTree 0).testTree 1 else s1
  else if s.hbmUp h st ∧ bit (s.reg (bHbmc h st) R.hbmc_HBMC_STAT) 2 = false then s.trainEnd h st ok
  else s

/-! ### Restarts of a half (R61, R581, R645) -/

/-- An hour in ticks. -/
abbrev hourTicks : Nat := 3600 * 1500000000

/-- Privet may restart a half that is FENCED (R61, R581, R645, R662). -/
def State.mayRestart (s : State) (h : Half) : Bool :=
  let cfg := s.reg (bHub h) R.hub_RECOVERY_CFG
  let recent := ((s.pv.restarts.get h).filter fun t => s.ticks < t + hourTicks).length
  bit cfg 0 && decide (recent < fld cfg 8 4) && !s.pv.noRestart.get h && s.pvUp && !s.heldFenced (.half h)

/-- The halves that start-up goes on with: one that stands FENCED and cannot be restarted is left (R61). -/
def State.goers (s : State) : List Half := bothHalves.filter fun h => !(decide (s.ustate (.half h) = .fenced) && !s.mayRestart h)

/-! ### Steps 9–13 -/

/-- The address of the staging area of step 9: the top 64 MB of H0's HBM space. -/
abbrev imageArea : Nat := 0xBFC000000

/-- Step 9, the choice: the packet image and the control-core software of this start (R602). -/
def State.chooseImages (s : State) : State :=
  if s.pv.start.imaged then s
  else
    match s.bootSlot 2 with
    | (s1, p) =>
      match s1.bootSlot 3 with
      | (s2, c) =>
        s2.updPv fun v =>
          { v with
            imgSlot := p
            imgBuild := match p with | some k => buildId (s2.slotImage 2 k) | none => 0
            ccBuild := match c with | some k => buildId (s2.slotImage 3 k) | none => 0
            start := { v.start with imaged := true, ccSlot := c } }

/-- The halves of the start-up that wait in TEST. -/
def State.testHalves (s : State) : List Half := s.goers.filter fun h => decide (s.ustate (.half h) = .test)

/-- Step 9: the packet image is streamed into H0's HBM space and the control-core CODE sections to their PARAM. -/
def State.streamImages (s : State) : State :=
  let s1 := s.chooseImages
  let s2 := match s1.pv.imgSlot with
    | some k => (s1.hbmPlace 0 imageArea (s1.slotImage 2 k)).1
    | none => s1
  match s2.pv.start.ccSlot with
  | some k => s2.testHalves.foldl (fun s h => (s.loadCode (s2.slotImage 3 k) h).1) s2
  | none => s2

/-- The records of a CSR_INIT section, written in order (R596). -/
def State.csrInit (s : State) (bs : List Byte) : Nat → State
  | 0 => s
  | n + 1 =>
    (s.csrInit bs n).csrWrite .privet (leNat (slice bs (16 * n) 8)) 8 (BitVec.ofNat 64 (leNat (slice bs (16 * n + 8) 8)))

/-- The sections of an image with their places in its table. -/
def numbered (c : List Byte) : List (Nat × Section) := (List.range (hdrNum c 20 4)).map fun i => (i, sectionAt c i)

/-- Step 11: the banks of the halves in TEST are written to bank 0, and the CSR_INIT records applied (R596, R647). -/
def State.loadImage (s : State) (c : List Byte) (hs : List Half) : State :=
  let s1 := hs.foldl (fun s h => s.loadBanks c h 0) s
  let first := hs.filter fun h => !s.pv.start.queued.contains h.val
  (sectionsOf c).foldl (fun s x =>
    if x.typ = 4 ∧ first.any x.names then s.csrInit (sectionBytes c x) (x.len / 16) else s) s1

/-- The BATCH sections of a half wait to be built (R597). -/
def State.queueBatches (s : State) (c : List Byte) (h : Half) : State :=
  if s.pv.start.queued.contains h.val then s
  else
    let l := ((numbered c).filter fun e => decide (e.2.typ = 5) && e.2.names h).map fun e => (e.1, e.2.param, e.2.len)
    s.updStart fun x => { x with queued := x.queued ++ [h.val], batches := x.batches.upd h fun _ => l }

/-- Step 12 for one half: ACTIVE_TREE, and its control cores are released. -/
def State.releaseHalf (s : State) (h : Half) : State :=
  let s1 := s.activeTree (.half h) 0x02
  match s1.pv.start.ccSlot with
  | some k => (s1.setCcEntry (s1.slotImage 3 k) h).runCores h
  | none => s1

/-- Every section of a half has been posted. -/
def StartInfo.posted (x : StartInfo) (h : Half) : Bool := (x.batches.get h).isEmpty && (x.building.get h).isNone

/-- Step 13, when nothing is left to post. -/
def State.settleStart (s : State) : State :=
  if s.dev.devState = .start ∧ s.startStep = 12 ∧ s.goers.all fun h => s.pv.start.posted h then s.setStep 13 else s

/-- Steps 10–12. -/
def State.finishStart (s : State) : State :=
  let hs := s.testHalves
  let s1 := s.setStep 10
  let c := match s1.pv.imgSlot with
    | some k => s1.slotImage 2 k
    | none => []
  let s2 := (s1.loadImage c hs).setStep 11
  ((hs.foldl (fun s h => (s.releaseHalf h).queueBatches c h) s2).setStep 12).settleStart

/-- Step 10 has nothing to train: it needs both FORD units in TEST (R527). -/
def State.noFord (s : State) : Bool := !(decide (s.ustate (.ford 0) = .test) && decide (s.ustate (.ford 1) = .test))

/-- The sequence goes on from step 7 to step 9 once every half of it has passed its self-test, and to step 12 once Ford has been
trained. -/
def State.seqOn (s : State) : State :=
  let tested := s.goers.all fun h => s.pv.start.tested.contains h.val
  let s1 := if s.startStep = 7 ∧ s.goers ≠ [] ∧ tested then (s.setStep 8).streamImages.setStep 9 else s
  if s1.startStep = 9 ∧ (s1.noFord ∨ (s1.pv.start.fordDone.contains 0 ∧ s1.pv.start.fordDone.contains 1)) then s1.finishStart else s1

/-- SELF_TEST_END (R571–R573, R581, R647): of the spare of a tile, of a core in TEST that fails, or of a half. The fence of a half whose
self-test fails is Privet's, with CAUSE 0x02 (DESIGN CHOICE, log 89). -/
def doSelfTest (u : UnitId) (ok : Bool) (s : State) : State :=
  match u with
  | .spare h t => s.spareTested h t ok
  | .core h t _ _ =>
    if ok = false ∧ s.ustate u = .test ∧ ¬ s.entering u then (s.report (.tile h t) F.LBIST_FAIL).physFails h t (s.physOf u) false else s
  | .half h =>
    if s.dev.devState = .start ∧ s.startStep = 7 ∧ s.ustate u = .test ∧ ok then
      (s.updStart fun x => { x with tested := x.tested.filter (· ≠ h.val) ++ [h.val] }).seqOn
    else if ok = false ∧ (s.ustate u = .test ∨ s.ustate u = .fenced) then
      let s1 := (s.updPv fun p => { p with noRestart := p.noRestart.upd h fun _ => true }).fenceUnit u 0x02
      if s.dev.devState = .start then s1.seqOn else s1
    else s
  | _ => s

/-- FORD_TRAINING_DONE (R527, R647 step 10). -/
def doFordTrainingDone (h : Half) (failed : List (Nat × Nat)) (s : State) : State :=
  if s.fordTrains then
    let s1 := doFordTrained h failed s
    if s.dev.devState = .start ∧ s.startStep = 9 then
      (s1.updStart fun x => { x with fordDone := x.fordDone.filter (· ≠ h.val) ++ [h.val] }).seqOn
    else s1
  else s

/-! ### The restart itself (R61, R581, R582) -/

/-- Every learned EXACT entry and meter token of a half is dropped, and every counter cache line as in R233 (R582). -/
def State.dropDynamic (s : State) (h : Half) : State :=
  let n := (s.tab.get h).cache.length
  let s0 := (s.tab.get h).exact.foldl (fun s e => if e.2.learned then s.leaveBatch h e.1 e.2 else s) s
  let s1 := s0.updTab h fun t =>
    { t with
      meters := t.meters.map fun e => (e.1, { e.2 with tc := 0, te := 0, last := s.meterNow h })
      cache := [] }
  s1.bumpBy (bTable h 3) R.counter_COUNTER_LOST n

/-- The section under way when a half fell waits again, before the others. -/
def StartInfo.requeue (x : StartInfo) (h : Half) : StartInfo :=
  match x.building.get h with
  | some (_, e) => { x with batches := x.batches.upd h fun l => e :: l, building := x.building.upd h fun _ => none }
  | none => x

/-- The restart as Privet runs it: RESET, then TEST; in START the sequence resumes at step 8, and otherwise the half goes on to ACTIVE with
the image that runs in its banks (R61, R581). -/
def State.restartHalf (s : State) (h : Half) : State :=
  let s1 := ((s.beginEntry (.half h) .reset 0x02).completeEntry (.half h)).dropDynamic h
  let s2 := (if s.pv.lastInjected.get h then s1 else s1.updPv fun p => { p with restarts := p.restarts.upd h fun l => l ++ [s.ticks] })
  let s3 := s2.testTree h
  if s.dev.devState = .start then
    (s3.setStep 7).updStart fun x => ({ x with tested := x.tested.filter (· ≠ h.val), fordDone := [] }).requeue h
  else
    let s4 := match s3.pv.imgSlot with
      | some k => s3.loadBanks (s3.slotImage 2 k) h 0
      | none => s3
    s4.activeTree (.half h) 0x02

/-- HALF_RESTART (R61, R581). -/
def doHalfRestart (h : Half) (s : State) : State :=
  if s.ustate (.half h) = .fenced ∧ ¬ s.entering (.half h) ∧ s.dev.devState ≠ .run ∧ s.mayRestart h then s.restartHalf h else s

/-! ### The batches of step 12 (R597) -/

/-- The first FREE batch slot of a half. -/
def State.freeSlot (s : State) (h : Half) : Option Nat := (List.range 256).find? fun b => decide ((s.bslot h b).state = .free)

/-- The list of a section is placed at its PARAM and its build commanded. -/
def State.beginSection (s : State) (h : Half) (b : Nat) (e : Nat × Nat × Nat) : State :=
  let c := match s.pv.imgSlot with
    | some k => s.slotImage 2 k
    | none => []
  let v := bTable h 7
  let s1 := (s.hbmPlace h e.2.1 (sectionBytes c (sectionAt c e.1))).1
  let s2 := (s1.setReg v R.version_BATCH_LIST_ADDR (BitVec.ofNat 64 e.2.1)).setReg v R.version_BATCH_LIST_LEN (BitVec.ofNat 64 e.2.2)
  (s2.batchCmd h b 1).updStart fun x => { x with building := x.building.upd h fun _ => some (b, e) }

/-- The section under way is done with; `again` puts it back in front. -/
def State.endSection (s : State) (h : Half) (again : Bool) : State :=
  s.updStart fun x =>
    let y := if again then x.requeue h else x
    { y with building := y.building.upd h fun _ => none }

/-- A refused section is answered with ACK and counted; the first one is kept (R597). -/
def State.refuseSection (s : State) (h : Half) (b num reason : Nat) : State :=
  ((s.batchCmd h b 5).updStart fun x =>
    { x with
      refused := x.refused + 1
      firstRefused := if x.refused = 0 then num else x.firstRefused
      firstReason := if x.refused = 0 then reason else x.firstReason }).endSection h false

/-- A half has no batch posted or retiring. -/
def State.allRetired (s : State) (h : Half) : Bool :=
  (s.tab.get h).slots.all fun e => decide (e.2.state ≠ .posted) && decide (e.2.state ≠ .retiring)

/-- What Privet does next about the sections of a half. -/
def State.batchStep (s : State) (h : Half) : State :=
  match s.pv.start.building.get h, s.pv.start.batches.get h with
  | none, [] => s
  | none, e :: rest =>
    match s.freeSlot h with
    | some b => if s.live (.table h 7) then (s.updStart fun x => { x with batches := x.batches.upd h fun _ => rest }).beginSection h b e else s
    | none => s
  | some (b, e), _ =>
    let x := s.bslot h b
    match x.state with
    | .ready =>
      (s.setReg (bTable h 7) R.version_BATCH_E (s.dts h + 64)).batchCmd h b 2
    | .posted => s.endSection h false
    | .retiring => s.endSection h false
    | .free => s.endSection h true
    | .refused =>
      if x.reason = rsPendingFull then (if s.allRetired h then (s.batchCmd h b 5).endSection h true else s)
      else s.refuseSection h b e.1 x.reason
    | _ => s

/-- Privet's work of steps 7, 9 and 12 at one tick. -/
def State.startTick (s : State) : State :=
  if s.dev.devState = .start ∧ s.pvUp then
    if s.startStep = 12 then ((s.batchStep 0).batchStep 1).settleStart else s.seqOn
  else s

/-- Privet moves the management port's delivery off a FENCED half (R625). -/
def State.mgmtTick (s : State) : State := if s.pvUp ∧ s.live (.privet 7) then s.moveMgmt else s

/-! ### Pins and clocks (R632, R655, R662) -/

/-- PCIE_PERST_N: unit 8 is held in RESET while it is low (R655). The CAUSE of these transitions is open: a free value. -/
def doPerst (low : Bool) (s : State) : State :=
  let s1 := s.updPv fun p => { p with perstLow := low }
  let c : BitVec 8 := s.free 8
  if low = s.pv.perstLow ∨ s.ustate .device ≠ .active then s1
  else if low then
    if s.ustate (.privet 8) = .reset then s1 else (s1.beginEntry (.privet 8) .reset c).used
  else
    let s2 := if (s.unit (.privet 8)).entering.map Prod.fst = some .reset then s1.completeEntry (.privet 8) else s1
    if s2.ustate (.privet 8) = .reset ∧ ¬ s2.entering (.privet 8) then (s2.enterUp (.privet 8) .active c).used else s2

/-- A function-level reset clears the PF's grant and its mailbox slot (R627). -/
def doFlr (f : Fin 2) (s : State) : State :=
  (List.range 17).foldl (fun s i => s.setReg (bPrivet 6) (R.mbox_CMD_0 + 0x100 * (2 + f.val) + 8 * i) 0)
    (s.setReg (bPrivet 8) (R.pcie_GRANT_PF + 8 * f.val) 0)

/-- A boundary-scan instruction is loaded: every unit of both halves enters FENCED with CAUSE 0x0A (R662). -/
def doExtest (s : State) : State :=
  let one (s : State) (h : Half) : State :=
    (subtree (.half h)).foldl (fun s u => s.updUnit u fun d =>
      { d with entering := match d.entering with | some (st, _) => some (st, 0x0A) | none => none }) (s.beginEntry (.half h) .fenced 0x0A)
  if s.pv.extest then s else one (one (s.updPv fun p => { p with extest := true }) 0) 1

/-- The physical ports of a half that a SerDes PLL group clocks and whose links are up lose them, and so does the expansion port. -/
def State.pllPorts (s : State) (pll : Nat) : State :=
  let h : Half := if pll ≤ 2 then 0 else 1
  let s1 := (List.range 64).foldl (fun s i =>
    let p := portOf h i
    if portPll p = pll ∧ s.linkUp p then s.dropLink p else s) s
  if (s1.exp.get h).linkUp then s1.expFalls h else s1

/-- IO_PLL_UNLOCK (R632): PLLs 1–4 are the SerDes groups, 5 HBM, 6 PCIe, 7 Ford. -/
def doPllLost (pll : Nat) (s : State) : State :=
  if pll = 0 ∨ 7 < pll ∨ s.pv.ioLost.contains pll then s
  else
    let s1 := s.updPv fun p => { p with ioLost := p.ioLost ++ [pll] }
    if pll ≤ 4 then s1.pllPorts pll
    else if pll = 5 then
      (((s1.fault (.hbmc 0 0) F.HBM_LINK).fault (.hbmc 0 1) F.HBM_LINK).fault (.hbmc 1 0) F.HBM_LINK).fault (.hbmc 1 1) F.HBM_LINK
    else if pll = 7 then (s1.dropFord 0).dropFord 1
    else s1

/-- IO_PLL_RELOCK (R632). -/
def doPllBack (pll : Nat) (s : State) : State := s.updPv fun p => { p with ioLost := p.ioLost.filter (· ≠ pll) }

/-! ### The commands -/

/-- PORESET_N (R646). -/
def execPoresetN (s : State) : Out := .next (doPoreset s)

/-- SYSRESET_N (R646). -/
def execSysresetN (s : State) : Out := .next (doSysreset s)

/-- RESET_RELEASE (R646, R647). -/
def execResetRelease (s : State) : Out := .next (doRelease s)

/-- REFCLK_ARRIVAL (R647). -/
def execRefclkArrival (s : State) : Out := .next (doRefclkArrival s)

/-- HBM_TRAINING_DONE (R675). -/
def execHbmTrainingDone (h : Half) (st : Fin 2) (ok : Bool) (s : State) : Out := .next (doHbmTrained h st ok s)

/-- SELF_TEST_END (R572, R581, R647). -/
def execSelfTestEnd (u : UnitId) (ok : Bool) (s : State) : Out := .next (doSelfTest u ok s)

/-- FORD_TRAINING_DONE (R527). -/
def execFordTrainingDone (h : Half) (failed : List (Fin 16 × Fin 64)) (s : State) : Out :=
  .next (doFordTrainingDone h (failed.map fun e => (e.1.val, e.2.val)) s)

/-- HALF_RESTART (R581). -/
def execHalfRestart (h : Half) (s : State) : Out := .next (doHalfRestart h s)

/-- PCIE_PERST_N (R655). -/
def execPciePerstN (asserted : Bool) (s : State) : Out := .next (doPerst asserted s)

/-- FUNCTION_LEVEL_RESET (R627). -/
def execFunctionLevelReset (f : Fin 2) (s : State) : Out := .next (doFlr f s)

/-- EXTEST_LOAD (R662). -/
def execExtestLoad (s : State) : Out := .next (doExtest s)

/-- IO_PLL_UNLOCK (R632). -/
def execIoPllUnlock (pll : Nat) (s : State) : Out := .next (doPllLost pll s)

/-- IO_PLL_RELOCK (R632). -/
def execIoPllRelock (pll : Nat) (s : State) : Out := .next (doPllBack pll s)

end Sys2Proof.Machine
end

