-- ==== Sys2Proof/Machine/TaskRun.lean ====
section
/-! DEFINITION. Dispatch (R248, R257, R258, R261, R282, R283): the READY task a tile's scheduler takes next, its thread, and how a task
or service run begins and resumes. -/

namespace Sys2Proof.Machine

/-! ### Choice (R248, R257, R258, R261) -/

/-- A task of the same flow tag bars an atomic task: one in service, or an earlier one that is READY (R248). -/
def State.tagBars (s : State) (h : Half) (t : TileIx) (k : Nat) (x : Task) : Bool :=
  (s.liveTasks h t).any fun e =>
    decide (e.1 ≠ k) && decide (e.1 < svcBase) && decide (e.2.mode = .atomic) && decide (e.2.flowTag = x.flowTag) && !e.2.complete &&
      (decide (e.2.state ≠ .ready) || e.2.resumed || keyLt e.2.key x.key)

/-- A READY task may be dispatched (R138, R248). -/
def State.mayDispatch (s : State) (h : Half) (t : TileIx) (k : Nat) : Bool :=
  let x := s.task h t k
  decide (x.state = .ready) &&
    (x.resumed || decide (x.mode ≠ .atomic) ||
      (!s.tagBars h t k x && !s.heldElsewhere h t (x.flowTag % 4096) x.born))

/-- SVC_CFG_s.PRIO. -/
def State.svcPrio (s : State) (h : Half) (t : TileIx) (j : Nat) : Nat := s.rfld (bTsched h t) (R.tsched_SVC_CFG + 8 * j) 4 3

/-- The READY tasks of a tile that may be dispatched. -/
def State.readyTasks (s : State) (h : Half) (t : TileIx) : List (Nat × Task) := (s.liveTasks h t).filter fun e => s.mayDispatch h t e.1

/-- The service slots of a tile that are READY for a new run. -/
def State.readySvcs (s : State) (h : Half) (t : TileIx) : List Nat := (List.range 32).filter fun j => s.svcWoken h t j ≠ 0

/-- What the scheduler dispatches next: a slot with a task, or a new run of service slot `j` (R257). -/
inductive Pick where
  | task (k : Nat)
  | svc (j : Nat)
  deriving DecidableEq, Repr

/-- The task earliest in order key. -/
def oldestTask (l : List (Nat × Task)) : Option Nat :=
  (l.foldl (fun best e => match best with
    | none => some e
    | some b => if keyLt e.2.key b.2.key then some e else some b) none).map (·.1)

/-- The highest EFF_PRIO first; within it resumed tasks before new ones and then order key (R257). A new service run, whose stamp is
that of its dispatch, comes after the packet tasks; among several the spec names no order. -/
def State.pickTask (s : State) (h : Half) (t : TileIx) : Option Pick :=
  let ts := s.readyTasks h t
  let vs := s.readySvcs h t
  let top := vs.foldl (fun m j => if m < s.svcPrio h t j then s.svcPrio h t j else m)
    (ts.foldl (fun m e => if m < e.2.effPrio then e.2.effPrio else m) 0)
  let tt := ts.filter fun e => e.2.effPrio = top
  let vv := vs.filter fun j => s.svcPrio h t j = top
  match oldestTask (tt.filter fun e => e.2.resumed), oldestTask (tt.filter fun e => !e.2.resumed), vv with
  | some k, _, _ => some (.task k)
  | none, some k, _ => some (.task k)
  | none, none, j :: r => some (.svc (nth j (j :: r) ((s.free 32).toNat % (j :: r).length)))
  | none, none, [] => none

/-- A thread serves no task and is not halted (R378). -/
def State.threadFree (s : State) (h : Half) (t : TileIx) (n : Nat) : Bool :=
  let x := s.thread (.pk h t (Fin.ofNat 128 n))
  x.task.isNone && decide (x.phase = .free) && !x.halted && !x.halting && s.live (coreOf h t (Fin.ofNat 128 n))

/-- Busy threads of core position `c` of a tile, 0–15. -/
def State.busyThreads (s : State) (h : Half) (t : TileIx) (c : Nat) : Nat :=
  ((List.range 8).filter fun i => (s.thread (.pk h t (Fin.ofNat 128 (8 * c + i)))).task.isSome).length

/-- The core position that takes a new task: the fewest busy threads among ACTIVE cores with a free thread, the lowest index among
ties (R258). -/
def State.newCore (s : State) (h : Half) (t : TileIx) : Option Nat :=
  ((List.range 16).filter fun c => (List.range 8).any fun i => s.threadFree h t (8 * c + i)).foldl (fun best c =>
    match best with
    | none => some c
    | some b => if s.busyThreads h t c < s.busyThreads h t b then some c else some b) none

/-! ### Start and resumption -/

/-- A thread as a new task or service run finds it (R282, R363, R364). -/
def State.startedThread (s : State) (h : Half) (t : TileIx) (n : Fin 128) (k pc : Nat) : Thread :=
  let x := (s.thread (.pk h t n)).freed
  { x with phase := .issuing, task := some k, pc := BitVec.ofNat 48 pc,
           g := tset 0 [] 29 (BitVec.ofNat 64 (s.stackBase h t n.val)), ien := BitVec.ofNat 8 (s.rfld (bTile h t) R.tile_INT_CFG 56 8) }

/-- A task or run begins on a thread at its program's entry; an absent entry ends it, and so does one that cannot be read
(R282, R345, R558). -/
def State.startOn (s : State) (h : Half) (t : TileIx) (n : Fin 128) (k : Nat) : State :=
  let x := s.task h t k
  let y := s.tile h t
  let s1 (pc : Nat) := (s.updThread (.pk h t n) fun _ => s.startedThread h t n k pc).updTask h t k fun x =>
    { x with state := .running, thread := some n.val, resumed := false }
  if y.bankPoisoned x.bank (4 * x.program) 4 then (s1 0).discardTask h t k drMemory
  else
    match entryAddr (y.entryWord x.bank x.program) with
    | none => (s1 0).trapDiscard (.pk h t n) cIllegal 0 drTrapUnhandled
    | some a => s1 a

/-- A parked task resumes on a thread (R252, R253, R283, R363, R364, R370). -/
def State.resumeOn (s : State) (h : Half) (t : TileIx) (n : Fin 128) (k : Nat) : State :=
  let x := s.task h t k
  let y := (s.thread (.pk h t n)).freed
  let z := x.saved.getD Thread.init
  let s1 := s.updThread (.pk h t n) fun _ =>
    { z with phase := .issuing, task := some k, g := tset 0 z.g 29 (BitVec.ofNat 64 (s.stackBase h t n.val)), evpend := y.evpend,
             wake := y.wake, ipend := y.ipend, dtsLatch := y.dtsLatch, late := y.late }
  let s2 := s1.updTask h t k fun x => { x with state := .running, thread := some n.val, saved := none, resumed := false, lockForced := false }
  if x.lockForced then s2.raiseInt (.pk h t n) 2 else s2

/-- A service run is dispatched: WOKEN, the flags and STAMP in one cycle (R260, R261). -/
def State.startSvc (s : State) (h : Half) (t : TileIx) (n : Fin 128) (j : Nat) : State :=
  let w := s.svcWoken h t j
  let c := s.reg (bTsched h t) (R.tsched_SVC_CFG + 8 * j)
  let k := svcBase + j
  let fl := s.rfld (bTsched h t) (R.tsched_SVC_FLAGS + 8 * j) 0 32
  let s1 := s.setReg (bTsched h t) (R.tsched_SVC_FLAGS + 8 * j) (BitVec.ofNat 64 ((BitVec.ofNat 32 fl &&& ~~~w).toNat))
  let s2 := s1.updTile h t fun y => y.put (.store (ctxOff k)) (leBytes 8 (s.dts h).toNat ++ leBytes 8 w.toNat)
  let s3 := s2.updTask h t k fun _ =>
    { Task.init with state := .ready, program := fld c 8 8, basePrio := fld c 4 3, effPrio := fld c 4 3, stamp := s.dts h,
                     bank := s.bankOf h (s.dts h) }
  (s3.bump (bTsched h t) R.tsched_SVC_RUNS).startOn h t n k

/-- A free thread takes the next READY task (R257, R258): a new one on the core R258 names, a resumed one on any core. -/
def doTaskDispatch (h : Half) (t : TileIx) (n : Fin 128) (s : State) : State :=
  if s.live (.tile h t) ∧ s.threadFree h t n.val = true then
    match s.pickTask h t with
    | none => s
    | some (.task k) =>
      if (s.task h t k).resumed then s.resumeOn h t n k
      else if s.newCore h t = some (n.val / 8) then s.startOn h t n k else s
    | some (.svc j) => if s.newCore h t = some (n.val / 8) then s.used.startSvc h t n j else s
  else s

/-- TASK_DISPATCH (R257). -/
def execTaskDispatch (h : Half) (t : TileIx) (n : Fin 128) (s : State) : Out := .next (s.checked (doTaskDispatch h t n s))

end Sys2Proof.Machine
end

