-- ==== Sys2Proof/Machine/TblReq.lean ====
section
/-! DEFINITION. The table requests of programs (R186–R192, R196, R198, R334–R336): each acts when it issues, and TABLE_RESPONSE writes
its response. -/

namespace Sys2Proof.Machine

/-- The STATUS values of R188. -/
abbrev stHit : Nat := 0
abbrev stMiss : Nat := 1
abbrev stNoGroup : Nat := 2
abbrev stNoLive : Nat := 3
abbrev stInserted : Nat := 4
abbrev stFull : Nat := 5
abbrev stGone : Nat := 6
abbrev stError : Nat := 7

/-- The 16 bytes of a response (R188). -/
def tblBytes (status plen slot result : Nat) : List Byte :=
  leBytes 8 result ++ leBytes 8 (status <<< 56 ||| (plen % 256) <<< 32 ||| slot % 2 ^ 32)

/-- What a request works on: half, tile, task slot, the task's stamp, the word and its registers, and the operand bytes. -/
structure TblCall where
  h : Half
  t : TileIx
  k : Nat
  st : Nat
  c : Fk
  bytes : List Byte
  deriving DecidableEq, Repr

/-- The outcome of a request: the state, the bytes of its response, and the withheld slot it waits for. -/
structure TblRes where
  s : State
  bytes : List Byte
  hold : List (Nat × Nat)

/-- gc of a request. -/
def TblCall.gc (q : TblCall) : Nat := q.c.g (wC q.c.w)

/-- The unit that serves request `op` of R334. -/
def tblUnit (h : Half) (op : Nat) : UnitId :=
  if op ≤ 1 then .table h 0 else if op = 2 then .table h 2 else if op ≤ 6 then .table h 1 else if op = 7 then .table h 4
  else if op = 8 then .table h 3 else .assoc h

/-- A request with an operand block of `len` bytes at gq (0 for a value operand) and a response of `out` bytes at gr (R334, R335). It
waits to issue while its unit does not work or its counter stands at 255 (R187, R250). -/
def tblCall (th : ThreadRef) (op : FkOp) (fn : Nat) (len : Fk → Nat) (align out : Nat) (s : State) (f : State → TblCall → TblRes) : State :=
  s.fkRun op th fun s c =>
    match c.th with
    | .cc _ _ => .next s
    | .pk h t n =>
      let k := s.slotOfThread h t n
      let gr := c.g (wB c.w)
      let gq := c.g (wA c.w)
      if gr % 16 ≠ 0 then .fail s (.trap cAlign gr)
      else
        match s.pkPlace h t n gr out with
        | .error e => .fail s e
        | .ok l =>
          if len c ≠ 0 ∧ (spcAt (s.spaces h t n.val k) gq (len c)).isNone then .fail s (.trap cBounds gq)
          else if len c ≠ 0 ∧ gq % align ≠ 0 then .fail s (.trap cAlign gq)
          else
            match if len c = 0 then .ok [] else s.pkSpan h t n gq (len c) with
            | .error e => .fail s e
            | .ok bs =>
              if s.dcFull h t k (wDc c.w) ∨ !s.live (tblUnit h fn) then .fail s .stall
              else
                let r := f s ⟨h, t, k, (s.task h t k).stamp.toNat, c, bs⟩
                .next (r.s.issueReq h t n c { Response.of .table fn l r.bytes with hold := r.hold.filter fun e => (s.tab.get h).held e.1 e.2 })

/-! ### LOOKUP, GROUP_SELECT and LPM -/

/-- LOOKUP (R190, R192). -/
def lookupBody (s : State) (q : TblCall) : TblRes :=
  let tid := q.gc % 256
  let key := exKeyOf q.bytes
  let hold := (exCands tid key).map fun i => (tgExact, i)
  match s.exLookup q.h tid key q.st with
  | some (i, e) => ⟨if q.c.w.testBit 4 then s.refreshEx q.h i e else s, tblBytes stHit 0 i e.result.toNat, hold⟩
  | none => ⟨s, tblBytes stMiss 0 0 0, hold⟩

/-- LOOKUP (R190, R192, R334). -/
def execLookup (th : ThreadRef) (s : State) : Out := .next (tblCall th .lookup 0 (fun _ => 16) 1 16 s lookupBody)

/-- A member's port counts as up for failover (R140). -/
def State.memberUp (s : State) (h : Half) (port : Nat) : Bool :=
  if port < 128 then
    if port / 64 = h.val then s.linkUp (Fin.ofNat 128 port)
    else (s.ford.get h).peerUp && (s.ford.get h).peerPorts.testBit (port % 64)
  else if port ≤ 130 then true
  else decide (port = 131) && s.portUp h 67

/-- The member a group gives at an offset: its place and whether it is live (R140). -/
def State.groupMember (s : State) (h : Half) (g off st : Nat) : Nat × Bool :=
  let n := bits g 18 10
  let place (j : Nat) : Nat := (bits g 0 18 + (off + j) % n) % 262144
  let up (j : Nat) : Bool := s.memberUp h (bits (s.indexedAt h (tget Indexed.init (s.tab.get h).members (place j)) st) 24 8)
  if g.testBit 30 then
    match (List.range (if n < 16 then n else 16)).find? up with
    | some j => (place j, true)
    | none => (place 0, false)
  else (place 0, true)

/-- The places that a failover group examines from an offset on: those up to the first live one, at most 16 (R140). -/
def State.groupSeen (s : State) (h : Half) (g off st : Nat) : List Nat :=
  let n := bits g 18 10
  let l := (List.range (if n < 16 then n else 16)).map fun j => (bits g 0 18 + (off + j) % n) % 262144
  let down := l.takeWhile fun p => !s.memberUp h (bits (s.indexedAt h (tget Indexed.init (s.tab.get h).members p) st) 24 8)
  l.take (down.length + 1)

/-- GROUP_SELECT (R140). -/
def groupBody (s : State) (q : TblCall) : TblRes :=
  let gi := q.c.g (wA q.c.w) % 65536
  let g := s.indexedAt q.h (tget Indexed.init (s.tab.get q.h).groups gi) q.st
  let n := bits g 18 10
  if !g.testBit 31 ∨ n = 0 ∨ 512 < n then ⟨s, tblBytes stNoGroup 0 0 0, [(tgGroup, gi)]⟩
  else
    let (m, live) := s.groupMember q.h g ((q.gc % 65536) * n / 65536) q.st
    let off := (q.gc % 65536) * n / 65536
    let seen := if g.testBit 30 then (s.groupSeen q.h g off q.st).map fun i => (tgMember, i) else [(tgMember, m)]
    ⟨s, tblBytes (if live then stHit else stNoLive) 0 m (s.indexedAt q.h (tget Indexed.init (s.tab.get q.h).members m) q.st % 2 ^ 32),
      (tgGroup, gi) :: seen⟩

/-- GROUP_SELECT (R140, R334). -/
def execGroupSelect (th : ThreadRef) (s : State) : Out := .next (tblCall th .groupSelect 1 (fun _ => 0) 1 16 s groupBody)

/-- LPM (R201). -/
def lpmBody (s : State) (q : TblCall) : TblRes :=
  let vrf := q.gc % 65536
  let fam := bits q.gc 16 1
  let addr := beNat q.bytes
  let hold (k : Nat) : List (Nat × Nat) := (routeBuckets k).map fun b => (tgLpm, b)
  match s.lpmFind q.h vrf fam addr q.st (famBits fam) with
  | some (r, n) => ⟨s, tblBytes stHit n 0 r.toNat, hold (routeKey vrf fam n addr)⟩
  | none => ⟨s, tblBytes stMiss 0 0 0, hold (routeKey vrf fam 0 addr)⟩

/-- LPM (R201, R334). -/
def execLpm (th : ThreadRef) (s : State) : Out :=
  .next (tblCall th .lpm 2 (fun c => if (c.g (wC c.w)).testBit 16 then 16 else 4) 1 16 s lpmBody)

/-! ### Flow records -/

/-- A FLOW response: the status, the SLOT and the record; where there is no record its 64 bytes are a free value (R188, R335). -/
def flowRes (s : State) (status slot : Nat) (r : Option (List Byte)) : TblRes :=
  match r with
  | some r => ⟨s, tblBytes status 0 slot 0 ++ padTo r 64, []⟩
  | none => ⟨s.used, tblBytes status 0 slot 0 ++ leBytes 64 (s.free 512).toNat, []⟩

/-- FLOW_FIND (R190, R196). -/
def flowFindBody (s : State) (q : TblCall) : TblRes :=
  match s.flowSearch q.h (frKey q.bytes) with
  | (s1, .err) => flowRes s1 stError 0 none
  | (s1, .none) => flowRes s1 stMiss 0 none
  | (s1, f) =>
    let r := f.record
    if q.c.w.testBit 4 ∧ frProf r ≠ 0 then
      let r1 := flowRewrite r (s1.flowCtlNow q.h r) (frData r)
      flowRes (s1.flowTouch q.h f r1) stHit f.slotNo (some r1)
    else flowRes s1 stHit f.slotNo (some r)

/-- FLOW_FIND (R196, R334). -/
def execFlowFind (th : ThreadRef) (s : State) : Out := .next (tblCall th .flowFind 3 (fun _ => 64) 1 80 s flowFindBody)

/-- FLOW_FIND_INSERT (R195, R196). -/
def flowInsertBody (s : State) (q : TblCall) : TblRes :=
  let key := frKey q.bytes
  match s.flowSearch q.h key with
  | (s1, .err) => flowRes s1 stError 0 none
  | (s1, .none) =>
    match s1.flowPlace q.h key with
    | (s2, some p) =>
      let r := flowRecord (frTid q.bytes) (frProf q.bytes) (s2.ageNow q.h) (frKeyLen q.bytes) (frData q.bytes) (frKeyBytes q.bytes)
      flowRes ((s2.flowStore q.h p r).bump (bTable q.h 1) R.flow_FLOW_INSERTED) stInserted (if p.2 then stashSlot p.1 else p.1) (some r)
    | (s2, none) => flowRes (s2.bump (bTable q.h 1) R.flow_FLOW_FULL) stFull 0 none
  | (s1, f) => flowRes s1 stHit f.slotNo (some f.record)

/-- FLOW_FIND_INSERT (R196, R334). -/
def execFlowFindInsert (th : ThreadRef) (s : State) : Out :=
  .next (tblCall th .flowFindInsert 4 (fun _ => 64) 1 80 s flowInsertBody)

/-- The record of a key: in the slot named while it still holds the key, else wherever a search finds it (R198). -/
def State.flowNamed (s : State) (h : Half) (slot key : Nat) : State × FlowFound :=
  if stashSlot 0 ≤ slot then
    match tget? (s.tab.get h).stash (slot - stashSlot 0) with
    | some r => if frKey r = key then (s, .stash (slot - stashSlot 0) r) else s.flowSearch h key
    | none => s.flowSearch h key
  else if slot < s.flowSlots h then
    match s.flowRead h slot with
    | (s1, some r) => if frValid r ∧ frKey r = key then (s1, .slot slot r) else s1.flowSearch h key
    | (s1, none) => (s1.flowLost h slot, .err)
  else s.flowSearch h key

/-- FLOW_WRITE (R196, R198). -/
def flowWriteBody (s : State) (q : TblCall) : TblRes :=
  match s.flowNamed q.h q.gc (frKey q.bytes) with
  | (s1, .err) => flowRes s1 stError 0 none
  | (s1, .none) => flowRes s1 stGone 0 none
  | (s1, f) =>
    let r := flowRewrite f.record (s1.flowCtlNow q.h f.record) (frData q.bytes)
    flowRes (s1.flowTouch q.h f r) stHit f.slotNo (some r)

/-- FLOW_WRITE (R196, R334). -/
def execFlowWrite (th : ThreadRef) (s : State) : Out := .next (tblCall th .flowWrite 5 (fun _ => 64) 1 80 s flowWriteBody)

/-- FLOW_DELETE (R196, R198); the record of its response shows VALID as a free value. -/
def flowDeleteBody (s : State) (q : TblCall) : TblRes :=
  match s.flowNamed q.h q.gc (frKey q.bytes) with
  | (s1, .err) => flowRes s1 stError 0 none
  | (s1, .none) => flowRes s1 stGone 0 none
  | (s1, f) =>
    let r := f.record
    flowRes (s1.used.flowRemove q.h f) stHit f.slotNo (some (flowRewrite r (frCtl r / 2 * 2 + (s1.free 1).toNat) (frData r)))

/-- FLOW_DELETE (R196, R334). -/
def execFlowDelete (th : ThreadRef) (s : State) : Out := .next (tblCall th .flowDelete 6 (fun _ => 64) 1 80 s flowDeleteBody)

/-! ### METER and COUNT -/

/-- The bytes METER charges: the operand and, for a packet task of a physical port, the port's OVERHEAD, no less than 0 (R336). -/
def State.meterCharge (s : State) (h : Half) (t : TileIx) (k n : Nat) : Nat :=
  let p := (s.task h t k).port
  if svcBase ≤ k ∨ 128 ≤ p then n
  else ((n : Int) + overheadOf (s.rfld (bPort (Fin.ofNat 128 p)) R.port_MAC_CFG 40 8)).toNat

/-- METER (R209, R233, R334). -/
def meterBody (s : State) (q : TblCall) : TblRes :=
  let i := q.c.g (wA q.c.w) % 262144
  let pre := if q.c.w.testBit 2 then (if bits q.c.w 0 2 = 3 then 2 else bits q.c.w 0 2) else colGreen
  let hold := [(tgMeter, i), (tgProfile, s.meterProfIx q.h (s.meterOf q.h i) q.st)]
  if (s.tab.get q.h).badMeters.contains i then ⟨s.fillMeter q.h i q.st, tblBytes stError 0 0 0, hold⟩
  else
    let (s1, c) := s.chargeMeter q.h i (s.meterCharge q.h q.t q.k q.gc) q.st pre
    ⟨s1, tblBytes stHit 0 0 c, hold⟩

/-- METER (R209, R334). -/
def execMeter (th : ThreadRef) (s : State) : Out := .next (tblCall th .meter 7 (fun _ => 0) 1 16 s meterBody)

/-- COUNT (R204, R334): posted, it writes no response and names no counter. -/
def execCount (th : ThreadRef) (s : State) : Out := .next (s.fkRun .count th fun s c =>
  match c.th with
  | .cc _ _ => .next s
  | .pk h _ _ =>
    if s.live (.table h 3) then .next (s.countPair h (c.g (wA c.w)) (c.g (wC c.w)))
    else .fail s .stall)

/-! ### SEARCH and STEP -/

/-- The withheld entries of the banks of a class that a search reads (R236). -/
def State.asHeld (s : State) (h : Half) (c : Nat) : List (Nat × Nat) :=
  (s.tab.get h).shadowHeld.filter fun e => decide (e.1 = tgAssoc) && (s.classBanks h c).contains (e.2 / bankEntries)

/-- SEARCH, or STEP with its cursor (R147, R155, R156). -/
def searchBody (after : TblCall → Option Nat) (s : State) (q : TblCall) : TblRes :=
  let (bs, n) := s.asSearch q.h (bits q.c.w 0 4) (beNat q.bytes) q.st (after q)
  ⟨s.used.bumpBy (bAssoc q.h) R.assoc_BANK_COMPARES n, bs, s.asHeld q.h (bits q.c.w 0 4)⟩

/-- SEARCH (R155, R334). -/
def execSearch (th : ThreadRef) (s : State) : Out := .next (tblCall th .search 9 (fun _ => 80) 16 16 s (searchBody fun _ => none))

/-- STEP (R147, R155, R334). -/
def execAssocStep (th : ThreadRef) (s : State) : Out :=
  .next (tblCall th .step 10 (fun _ => 80) 16 16 s (searchBody fun q => some (bits q.gc 0 28)))

/-! ### Responses -/

/-- The ASSOC counts a response as it answers it (R166). -/
def State.countAssoc (s : State) (h : Half) (bs : List Byte) : State :=
  let st := leNat (slice bs 8 8)
  let b := bAssoc h
  let s1 := s.bump b R.assoc_SEARCHES
  let s2 := if st.testBit 62 then s1.bump b R.assoc_MULTI_RESPONSES else s1
  let s3 := if st.testBit 61 then s2.bump b R.assoc_REBUILD_RESPONSES else s2
  if st.testBit 60 then s3.bump b R.assoc_LOST_RESPONSES else s3

/-- A table unit or the ASSOC writes a response, and its counter falls (R156, R186); one that would read a withheld slot waits until its
rewrite has ended (R233, R236). -/
def doTableResponse (h : Half) (t : TileIx) (id : Nat) (s : State) : State :=
  match (s.tile h t).response? id with
  | none => s
  | some r =>
    let waits : Bool := r.hold.any fun e => (s.tab.get h).held e.1 e.2
    if r.unit = .table ∧ waits = false ∧ s.live (tblUnit h r.fn) then
      (if 9 ≤ r.fn then s.countAssoc h r.bytes else s).respond h t r
    else s

/-- TABLE_RESPONSE (R156, R188). -/
def execTableResponse (h : Half) (t : TileIx) (id : Nat) (s : State) : Out := .next (s.checked (doTableResponse h t id s))

end Sys2Proof.Machine
end

