-- ==== Sys2Proof/Machine/Tick.lean ====
section
/-! DEFINITION. One tick of the device clocks: the advance of device time, the counters that count ticks, and Privet's work during the
start-up sequence. -/

namespace Sys2Proof.Machine

/-- One CK_CORE cycle of a half: the limits stated in cycles count it (R13, R375, R634). -/
def State.coreCycle (s : State) (h : Half) : State := (((s.deadCycle h).droopCycle h).hbmCycle h).slotCycle h

/-- The core cycles of a tick: each lasts 40 + LEVEL fortieths of a tick (R13, R634, R636). -/
def State.coreTick (s : State) (h : Half) : State :=
  let n := 40 + s.droopLevel h
  let x := s.pv.stretch.get h + 40
  if x < n then s.updPv fun p => { p with stretch := p.stretch.upd h fun _ => x }
  else
    let s1 := s.updPv fun p => { p with stretch := p.stretch.upd h fun _ => x - n }
    (if 40 < n then s1.bump (bHalf h) R.half_STRETCHED_CYCLES else s1).coreCycle h

/-- The stalls of the classifier and of posters (R118, R246, R247). -/
def State.stallTick (s : State) (h : Half) : State :=
  let s1 := match s.clsStall h with
    | none => s
    | some atomic =>
      let s1 := s.bump (bHalf h) R.half_CLS_STALL_TICKS
      if atomic then s1.bump (bHalf h) R.half_ATOMIC_STALL_TICKS else s1
  if (s.ing.get h).posters.isEmpty then s1 else s1.bump (bHalf h) R.half_INJECT_STALL_TICKS

/-- A record waits for Ford credit (R524). -/
def State.fordTick (s : State) (h : Half) : State :=
  if s.creditWaits h then s.bump (bFord h) R.ford_CREDIT_WAIT_TICKS else s

/-- A scan of a tile waits for the engine (R183). -/
def State.brambleTick (h : Half) (s : State) (t : TileIx) : State :=
  if s.live (.tile h t) ∧ (s.tile h t).scanWaits then s.bump (bBramble h t) R.bramble_QUEUE_TICKS else s

/-- The tick counters of the ports (R493). -/
def State.portTicks (s : State) (h : Half) : State :=
  if s.live (.sched h) then (List.range 68).foldl (State.schedTickPort h) s else s

/-- The tick counters of a half whose clocks run. -/
def State.halfTick (s : State) (h : Half) : State :=
  if (s.time.get h).counting then
    (((((List.finRange 16).foldl (State.brambleTick h) (s.coreTick h)).stallTick h).fordTick h).portTicks h)
      |>.hbmTick h |>.noteTick h |>.telemTick h |>.expTick h
  else s

/-- One tick: what counts ticks counts the conditions as they stand before the clocks advance. -/
def State.tick (s : State) : State := s.checked ((s.halfTick 0).halfTick 1).timeTick.startTick.p129Tick.mgmtTick

/-- DTS_SLEW_ADJUST (R81): the adjusting tick of a slew; at any other tick no adjustment is due. -/
def execDtsSlewAdjust (s : State) : Out := .next (if s.slewDue then s.tick else s)

/-- DTS_FOLLOWER_SLEW (R75): the slewed tick of the follower; at any other tick none is due. -/
def execDtsFollowerSlew (s : State) : Out := .next (if s.followDue 0 || s.followDue 1 then s.tick else s)

end Sys2Proof.Machine
end

