-- ==== Sys2Proof/Machine/Dispatch.lean ====
section
/-! DEFINITION. The dispatch: one arm for each constructor of `Instr`, each a direct call of its meaning. -/

namespace Sys2Proof.Machine

/-- The effect of a command on everything but the queue. -/
def exec (i : Instr) (s : State) : Host.Outcome State Fault Refusal :=
  match i with
  -- The packet path
  | .frameStart p => Sys2Proof.Machine.execFrameStart p s
  | .frameBytes p bytes => Sys2Proof.Machine.execFrameBytes p bytes s
  | .pfcRefresh p prio => Sys2Proof.Machine.execPfcRefresh p prio s
  | .pfcFrameTransmit p => Sys2Proof.Machine.execPfcFrameTransmit p s
  | .frameEnd p pcsError => Sys2Proof.Machine.execFrameEnd p pcsError s
  | .pfcReceive p => Sys2Proof.Machine.execPfcReceive p s
  | .pfcPauseExpire p prio => Sys2Proof.Machine.execPfcPauseExpire p prio s
  | .classifyFrame h => Sys2Proof.Machine.execClassifyFrame h s
  | .parseSecondPass h => Sys2Proof.Machine.execParseSecondPass h s
  | .taskCreate h => Sys2Proof.Machine.execTaskCreate h s
  | .brambleScanStart h t => Sys2Proof.Machine.execBrambleScanStart h t s
  | .brambleScanEnd h t slot => Sys2Proof.Machine.execBrambleScanEnd h t slot s
  | .taskDispatch h t n => Sys2Proof.Machine.execTaskDispatch h t n s
  | .confluenceRelease h => Sys2Proof.Machine.execConfluenceRelease h s
  | .patienceCheck h => Sys2Proof.Machine.execPatienceCheck h s
  | .oldestLiveSample h => Sys2Proof.Machine.execOldestLiveSample h s
  | .tableSyncNoticeSend h => Sys2Proof.Machine.execTableSyncNoticeSend h s
  | .tableSyncNoticeReceive h => Sys2Proof.Machine.execTableSyncNoticeReceive h s
  | .crossingSend h => Sys2Proof.Machine.execCrossingSend h s
  | .crossingReceipt h => Sys2Proof.Machine.execCrossingReceipt h s
  | .crossingAck h => Sys2Proof.Machine.execCrossingAck h s
  | .replWalk h => Sys2Proof.Machine.execReplWalk h s
  | .admitCopy h => Sys2Proof.Machine.execAdmitCopy h s
  | .spillWriteAccepted h q => Sys2Proof.Machine.execSpillWriteAccepted h q s
  | .spillFill h q => Sys2Proof.Machine.execSpillFill h q s
  | .fillRetry h q => Sys2Proof.Machine.execFillRetry h q s
  | .schedSelect h port => Sys2Proof.Machine.execSchedSelect h port s
  | .rewriteFrame h port => Sys2Proof.Machine.execRewriteFrame h port s
  | .frameTransmit h port => Sys2Proof.Machine.execFrameTransmit h port s
  | .transmitReadEnd h port => Sys2Proof.Machine.execTransmitReadEnd h port s
  | .linkAttemptEnd p ok mode => Sys2Proof.Machine.execLinkAttemptEnd p ok mode s
  | .linkDown p => Sys2Proof.Machine.execLinkDown p s
  | .portHoldExpire h port => Sys2Proof.Machine.execPortHoldExpire h port s
  | .portFlushEntry h port => Sys2Proof.Machine.execPortFlushEntry h port s
  | .reclaimVisit h cell => Sys2Proof.Machine.execReclaimVisit h cell s
  -- Commits, requests and the CSR space
  | .commitNow a u => Sys2Proof.Machine.execCommitNow a u s
  | .commitArm a u => Sys2Proof.Machine.execCommitArm a u s
  | .commitDisarm a u => Sys2Proof.Machine.execCommitDisarm a u s
  | .commitAtWrite a u stamp => Sys2Proof.Machine.execCommitAtWrite a u stamp s
  | .armedCommitStart u => Sys2Proof.Machine.execArmedCommitStart u s
  | .commitReach u => Sys2Proof.Machine.execCommitReach u s
  | .unitCommitApply u => Sys2Proof.Machine.execUnitCommitApply u s
  | .requestReset a u => Sys2Proof.Machine.execRequestReset a u s
  | .requestTest a u => Sys2Proof.Machine.execRequestTest a u s
  | .requestActive a u => Sys2Proof.Machine.execRequestActive a u s
  | .requestFence a u => Sys2Proof.Machine.execRequestFence a u s
  | .requestOff a u => Sys2Proof.Machine.execRequestOff a u s
  | .activeTree a u => Sys2Proof.Machine.execActiveTree a u s
  | .unitEntryComplete u => Sys2Proof.Machine.execUnitEntryComplete u s
  | .devRequestRun a => Sys2Proof.Machine.execDevRequestRun a s
  | .devRequestRecovery a => Sys2Proof.Machine.execDevRequestRecovery a s
  | .csrHoleAccess a addr => Sys2Proof.Machine.execCsrHoleAccess a addr s
  | .csrMisalignedAccess a addr width => Sys2Proof.Machine.execCsrMisalignedAccess a addr width s
  | .registerWrite a addr width v => Sys2Proof.Machine.execRegisterWrite a addr width v s
  | .dtsNowRead a h => Sys2Proof.Machine.execDtsNowRead a h s
  | .injectForceWrite a u force => Sys2Proof.Machine.execInjectForceWrite a u force s
  | .invArm a u sel => Sys2Proof.Machine.execInvArm a u sel s
  | .dtsAlignSend => Sys2Proof.Machine.execDtsAlignSend s
  | .dtsAlignReceive => Sys2Proof.Machine.execDtsAlignReceive s
  | .dtsFollowerSlew => Sys2Proof.Machine.execDtsFollowerSlew s
  | .loadNow a => Sys2Proof.Machine.execLoadNow a s
  | .loadArm a => Sys2Proof.Machine.execLoadArm a s
  | .tsyncInEdge rising => Sys2Proof.Machine.execTsyncInEdge rising s
  | .tsyncOutRise => Sys2Proof.Machine.execTsyncOutRise s
  | .tsyncOutFall => Sys2Proof.Machine.execTsyncOutFall s
  | .dtsSlewWrite a dir count => Sys2Proof.Machine.execDtsSlewWrite a dir count s
  | .dtsSlewAdjust => Sys2Proof.Machine.execDtsSlewAdjust s
  | .ptpSet a => Sys2Proof.Machine.execPtpSet a s
  | .ptpAdd a => Sys2Proof.Machine.execPtpAdd a s
  | .ptpSub a => Sys2Proof.Machine.execPtpSub a s
  | .ptpNsRead a => Sys2Proof.Machine.execPtpNsRead a s
  | .ptpTxtsBRead a p => Sys2Proof.Machine.execPtpTxtsBRead a p s
  -- Forwarding tables
  | .agingVisit h flow index => Sys2Proof.Machine.execAgingVisit h flow index s
  | .lookup th => Sys2Proof.Machine.execLookup th s
  | .groupSelect th => Sys2Proof.Machine.execGroupSelect th s
  | .lpm th => Sys2Proof.Machine.execLpm th s
  | .flowFind th => Sys2Proof.Machine.execFlowFind th s
  | .flowFindInsert th => Sys2Proof.Machine.execFlowFindInsert th s
  | .flowWrite th => Sys2Proof.Machine.execFlowWrite th s
  | .flowDelete th => Sys2Proof.Machine.execFlowDelete th s
  | .meter th => Sys2Proof.Machine.execMeter th s
  | .count th => Sys2Proof.Machine.execCount th s
  | .search th => Sys2Proof.Machine.execSearch th s
  | .assocStep th => Sys2Proof.Machine.execAssocStep th s
  | .tableResponse h t id => Sys2Proof.Machine.execTableResponse h t id s
  | .flowStashReturn h place => Sys2Proof.Machine.execFlowStashReturn h place s
  | .counterWriteback h pair => Sys2Proof.Machine.execCounterWriteback h pair s
  | .counterReadSelWrite a h v => Sys2Proof.Machine.execCounterReadSelWrite a h v s
  | .counterReadDone h => Sys2Proof.Machine.execCounterReadDone h s
  | .meterRefill h index => Sys2Proof.Machine.execMeterRefill h index s
  | .build a h slot => Sys2Proof.Machine.execBuild a h slot s
  | .post a h slot => Sys2Proof.Machine.execPost a h slot s
  | .buildPost a h slot => Sys2Proof.Machine.execBuildPost a h slot s
  | .abort a h slot => Sys2Proof.Machine.execAbort a h slot s
  | .ack a h slot => Sys2Proof.Machine.execAck a h slot s
  | .batchRecordApply h => Sys2Proof.Machine.execBatchRecordApply h s
  | .batchUndoStep h slot => Sys2Proof.Machine.execBatchUndoStep h slot s
  | .batchRetireStart h slot => Sys2Proof.Machine.execBatchRetireStart h slot s
  | .retireWalkStep h slot => Sys2Proof.Machine.execRetireWalkStep h slot s
  | .learnExamine h => Sys2Proof.Machine.execLearnExamine h s
  | .learnWrite h => Sys2Proof.Machine.execLearnWrite h s
  | .learnNoteSizeWrite a h v => Sys2Proof.Machine.execLearnNoteSizeWrite a h v s
  | .tableEntryRepairDone h target index => Sys2Proof.Machine.execTableEntryRepairDone h target index s
  | .shadowCheckVisit h target index differs last => Sys2Proof.Machine.execShadowCheckVisit h target index differs last s
  | .shadowRepairDone h target index => Sys2Proof.Machine.execShadowRepairDone h target index s
  | .assocScrubVisit h entry ecc found => Sys2Proof.Machine.execAssocScrubVisit h entry ecc found s
  | .assocEntryRepairDone h entry => Sys2Proof.Machine.execAssocEntryRepairDone h entry s
  | .assocSpareFillDone h => Sys2Proof.Machine.execAssocSpareFillDone h s
  | .brambleScrubVisit h t pattern ecc => Sys2Proof.Machine.execBrambleScrubVisit h t pattern ecc s
  | .brambleReloadDone h t pattern => Sys2Proof.Machine.execBrambleReloadDone h t pattern s
  | .confirmCmp th => Sys2Proof.Machine.execConfirmCmp th s
  | .confirmFind th => Sys2Proof.Machine.execConfirmFind th s
  | .confirmStep th => Sys2Proof.Machine.execConfirmStep th s
  | .injectQueueEntry h => Sys2Proof.Machine.execInjectQueueEntry h s
  | .svcPostWrite a h t slot set => Sys2Proof.Machine.execSvcPostWrite a h t slot set s
  | .svcEnableWrite a h t slot v => Sys2Proof.Machine.execSvcEnableWrite a h t slot v s
  | .imgArm a h => Sys2Proof.Machine.execImgArm a h s
  | .imgDisarm a h => Sys2Proof.Machine.execImgDisarm a h s
  | .imgSwitch h => Sys2Proof.Machine.execImgSwitch h s
  | .imgDrainEnd h => Sys2Proof.Machine.execImgDrainEnd h s
  -- Flako instructions: the thread whose next word the row is
  | .fkAdd th => Sys2Proof.Machine.execFkAdd th s
  | .fkAddi th => Sys2Proof.Machine.execFkAddi th s
  | .fkSub th => Sys2Proof.Machine.execFkSub th s
  | .fkAdds th => Sys2Proof.Machine.execFkAdds th s
  | .fkSubs th => Sys2Proof.Machine.execFkSubs th s
  | .fkAddus th => Sys2Proof.Machine.execFkAddus th s
  | .fkSubus th => Sys2Proof.Machine.execFkSubus th s
  | .fkNeg th => Sys2Proof.Machine.execFkNeg th s
  | .fkAbs th => Sys2Proof.Machine.execFkAbs th s
  | .fkAnd th => Sys2Proof.Machine.execFkAnd th s
  | .fkOr th => Sys2Proof.Machine.execFkOr th s
  | .fkXor th => Sys2Proof.Machine.execFkXor th s
  | .fkAndn th => Sys2Proof.Machine.execFkAndn th s
  | .fkAndi th => Sys2Proof.Machine.execFkAndi th s
  | .fkOri th => Sys2Proof.Machine.execFkOri th s
  | .fkXori th => Sys2Proof.Machine.execFkXori th s
  | .fkLi th => Sys2Proof.Machine.execFkLi th s
  | .fkLui th => Sys2Proof.Machine.execFkLui th s
  | .fkMin th => Sys2Proof.Machine.execFkMin th s
  | .fkMax th => Sys2Proof.Machine.execFkMax th s
  | .fkMinu th => Sys2Proof.Machine.execFkMinu th s
  | .fkMaxu th => Sys2Proof.Machine.execFkMaxu th s
  | .fkSel th => Sys2Proof.Machine.execFkSel th s
  | .fkClz th => Sys2Proof.Machine.execFkClz th s
  | .fkCtz th => Sys2Proof.Machine.execFkCtz th s
  | .fkPopc th => Sys2Proof.Machine.execFkPopc th s
  | .fkBswap th => Sys2Proof.Machine.execFkBswap th s
  | .fkExtu th => Sys2Proof.Machine.execFkExtu th s
  | .fkExts th => Sys2Proof.Machine.execFkExts th s
  | .fkIns th => Sys2Proof.Machine.execFkIns th s
  | .fkSll th => Sys2Proof.Machine.execFkSll th s
  | .fkSrl th => Sys2Proof.Machine.execFkSrl th s
  | .fkSra th => Sys2Proof.Machine.execFkSra th s
  | .fkRor th => Sys2Proof.Machine.execFkRor th s
  | .fkSls th => Sys2Proof.Machine.execFkSls th s
  | .fkSlli th => Sys2Proof.Machine.execFkSlli th s
  | .fkSrli th => Sys2Proof.Machine.execFkSrli th s
  | .fkSrai th => Sys2Proof.Machine.execFkSrai th s
  | .fkRori th => Sys2Proof.Machine.execFkRori th s
  | .fkSlsi th => Sys2Proof.Machine.execFkSlsi th s
  | .fkMul th => Sys2Proof.Machine.execFkMul th s
  | .fkMulh th => Sys2Proof.Machine.execFkMulh th s
  | .fkMulhu th => Sys2Proof.Machine.execFkMulhu th s
  | .fkDiv th => Sys2Proof.Machine.execFkDiv th s
  | .fkDivu th => Sys2Proof.Machine.execFkDivu th s
  | .fkRem th => Sys2Proof.Machine.execFkRem th s
  | .fkRemu th => Sys2Proof.Machine.execFkRemu th s
  | .fkFmul th => Sys2Proof.Machine.execFkFmul th s
  | .fkMpyf th => Sys2Proof.Machine.execFkMpyf th s
  | .fkMacf th => Sys2Proof.Machine.execFkMacf th s
  | .fkMsuf th => Sys2Proof.Machine.execFkMsuf th s
  | .fkMaci th => Sys2Proof.Machine.execFkMaci th s
  | .fkAadd th => Sys2Proof.Machine.execFkAadd th s
  | .fkAsub th => Sys2Proof.Machine.execFkAsub th s
  | .fkAneg th => Sys2Proof.Machine.execFkAneg th s
  | .fkAsl th => Sys2Proof.Machine.execFkAsl th s
  | .fkAsr th => Sys2Proof.Machine.execFkAsr th s
  | .fkAclr th => Sys2Proof.Machine.execFkAclr th s
  | .fkMvg th => Sys2Proof.Machine.execFkMvg th s
  | .fkMvas th => Sys2Proof.Machine.execFkMvas th s
  | .fkExtr th => Sys2Proof.Machine.execFkExtr th s
  | .fkMval th => Sys2Proof.Machine.execFkMval th s
  | .fkMvah th => Sys2Proof.Machine.execFkMvah th s
  | .fkCmp th => Sys2Proof.Machine.execFkCmp th s
  | .fkCmpi th => Sys2Proof.Machine.execFkCmpi th s
  | .fkTst th => Sys2Proof.Machine.execFkTst th s
  | .fkB th => Sys2Proof.Machine.execFkB th s
  | .fkBcc th n => Sys2Proof.Machine.execFkBcc th n s
  | .fkBz th n => Sys2Proof.Machine.execFkBz th n s
  | .fkBnz th n => Sys2Proof.Machine.execFkBnz th n s
  | .fkJr th => Sys2Proof.Machine.execFkJr th s
  | .fkCall th => Sys2Proof.Machine.execFkCall th s
  | .fkCallr th => Sys2Proof.Machine.execFkCallr th s
  | .fkRet th => Sys2Proof.Machine.execFkRet th s
  | .fkRspush th => Sys2Proof.Machine.execFkRspush th s
  | .fkRspop th => Sys2Proof.Machine.execFkRspop th s
  | .fkTrap th => Sys2Proof.Machine.execFkTrap th s
  | .fkBreak th => Sys2Proof.Machine.execFkBreak th s
  | .fkTret th => Sys2Proof.Machine.execFkTret th s
  | .fkClrf th => Sys2Proof.Machine.execFkClrf th s
  | .fkNop th => Sys2Proof.Machine.execFkNop th s
  | .fkMfsr th => Sys2Proof.Machine.execFkMfsr th s
  | .fkMtsr th => Sys2Proof.Machine.execFkMtsr th s
  | .fkLb th => Sys2Proof.Machine.execFkLb th s
  | .fkLbu th => Sys2Proof.Machine.execFkLbu th s
  | .fkLh th => Sys2Proof.Machine.execFkLh th s
  | .fkLhu th => Sys2Proof.Machine.execFkLhu th s
  | .fkLw th => Sys2Proof.Machine.execFkLw th s
  | .fkLhn th => Sys2Proof.Machine.execFkLhn th s
  | .fkLwn th => Sys2Proof.Machine.execFkLwn th s
  | .fkSb th => Sys2Proof.Machine.execFkSb th s
  | .fkSh th => Sys2Proof.Machine.execFkSh th s
  | .fkSw th => Sys2Proof.Machine.execFkSw th s
  | .fkShn th => Sys2Proof.Machine.execFkShn th s
  | .fkSwn th => Sys2Proof.Machine.execFkSwn th s
  | .fkPush th => Sys2Proof.Machine.execFkPush th s
  | .fkPop th => Sys2Proof.Machine.execFkPop th s
  | .fkFrd th => Sys2Proof.Machine.execFkFrd th s
  | .fkHrd th => Sys2Proof.Machine.execFkHrd th s
  | .fkHwr th => Sys2Proof.Machine.execFkHwr th s
  | .memoryResponse h t id => Sys2Proof.Machine.execMemoryResponse h t id s
  | .fkTwait th => Sys2Proof.Machine.execFkTwait th s
  | .fkTdone th => Sys2Proof.Machine.execFkTdone th s
  | .fkTdrop th => Sys2Proof.Machine.execFkTdrop th s
  | .fkPostf th => Sys2Proof.Machine.execFkPostf th s
  -- Events, threads, channels and locks
  | .fkWaitev th => Sys2Proof.Machine.execFkWaitev th s
  | .waitevComplete th => Sys2Proof.Machine.execWaitevComplete th s
  | .fkEvsig th => Sys2Proof.Machine.execFkEvsig th s
  | .evPostWrite a h t n set => Sys2Proof.Machine.execEvPostWrite a h t n set s
  | .threadTimerExpire th => Sys2Proof.Machine.execThreadTimerExpire th s
  | .interruptTake th => Sys2Proof.Machine.execInterruptTake th s
  | .eventDeadlock h t c k => Sys2Proof.Machine.execEventDeadlock h t c k s
  | .threadPost a th => Sys2Proof.Machine.execThreadPost a th s
  | .threadKill a th => Sys2Proof.Machine.execThreadKill a th s
  | .threadResume a th => Sys2Proof.Machine.execThreadResume a th s
  | .threadHalt a th => Sys2Proof.Machine.execThreadHalt a th s
  | .haltComplete th => Sys2Proof.Machine.execHaltComplete th s
  | .fkChstg th => Sys2Proof.Machine.execFkChstg th s
  | .fkChsend th => Sys2Proof.Machine.execFkChsend th s
  | .fkChrecv th => Sys2Proof.Machine.execFkChrecv th s
  | .fkChdrop th => Sys2Proof.Machine.execFkChdrop th s
  | .chCfgWrite a h control t ch v => Sys2Proof.Machine.execChCfgWrite a h control t ch v s
  | .fkLock th => Sys2Proof.Machine.execFkLock th s
  | .fkTrylock th => Sys2Proof.Machine.execFkTrylock th s
  | .fkUnlock th => Sys2Proof.Machine.execFkUnlock th s
  | .locksForce a h num => Sys2Proof.Machine.execLocksForce a h num s
  -- Coprocessors and the expansion port
  | .fkCplock th => Sys2Proof.Machine.execFkCplock th s
  | .fkCpunlock th => Sys2Proof.Machine.execFkCpunlock th s
  | .fkCpsave th => Sys2Proof.Machine.execFkCpsave th s
  | .fkCprestore th => Sys2Proof.Machine.execFkCprestore th s
  | .fkCvcfg th => Sys2Proof.Machine.execFkCvcfg th s
  | .fkCvupd th => Sys2Proof.Machine.execFkCvupd th s
  | .fkCvfin th => Sys2Proof.Machine.execFkCvfin th s
  | .fkCvappend th => Sys2Proof.Machine.execFkCvappend th s
  | .fkCvcheck th => Sys2Proof.Machine.execFkCvcheck th s
  | .fkHcfg th => Sys2Proof.Machine.execFkHcfg th s
  | .fkHash th => Sys2Proof.Machine.execFkHash th s
  | .fkHashm th => Sys2Proof.Machine.execFkHashm th s
  | .fkFdiv th => Sys2Proof.Machine.execFkFdiv th s
  | .fkLog2 th => Sys2Proof.Machine.execFkLog2 th s
  | .fkExp2 th => Sys2Proof.Machine.execFkExp2 th s
  | .fkExpRequest th => Sys2Proof.Machine.execFkExpRequest th s
  | .coprocResponse h t id => Sys2Proof.Machine.execCoprocResponse h t id s
  | .coprocCancelAck h t c => Sys2Proof.Machine.execCoprocCancelAck h t c s
  | .coprocLateFailure h t id code => Sys2Proof.Machine.execCoprocLateFailure h t id code s
  | .expReqSend h => Sys2Proof.Machine.execExpReqSend h s
  | .expFlitReceive h blocks locked skew alignment numbers => Sys2Proof.Machine.execExpFlitReceive h blocks locked skew alignment numbers s
  | .expRspReceive h tag status bytes => Sys2Proof.Machine.execExpRspReceive h tag status bytes s
  | .frameIn h bytes => Sys2Proof.Machine.execFrameIn h bytes s
  | .expReplay h => Sys2Proof.Machine.execExpReplay h s
  | .expTimeout h tag => Sys2Proof.Machine.execExpTimeout h tag s
  | .expLinkUp h => Sys2Proof.Machine.execExpLinkUp h s
  | .expLinkDown h => Sys2Proof.Machine.execExpLinkDown h s
  | .shaperRefill h level index => Sys2Proof.Machine.execShaperRefill h level index s
  | .telemSizeWrite a h v => Sys2Proof.Machine.execTelemSizeWrite a h v s
  -- HBM and power states
  | .hbmAccess h p index ecc parity => Sys2Proof.Machine.execHbmAccess h p index ecc parity s
  | .hbmWriteToArray h p => Sys2Proof.Machine.execHbmWriteToArray h p s
  | .hbmRefresh h p bank => Sys2Proof.Machine.execHbmRefresh h p bank s
  | .hbmPowerDown h p => Sys2Proof.Machine.execHbmPowerDown h p s
  | .hbmScrubRead h st ecc => Sys2Proof.Machine.execHbmScrubRead h st ecc s
  | .hbmRowRepairDone h p bank row => Sys2Proof.Machine.execHbmRowRepairDone h p bank row s
  | .hbmTrainingDone h st ok => Sys2Proof.Machine.execHbmTrainingDone h st ok s
  | .powerGateEnter u sleep => Sys2Proof.Machine.execPowerGateEnter u sleep s
  | .powerWake u => Sys2Proof.Machine.execPowerWake u s
  -- Ford
  | .fordTrainingDone h failed => Sys2Proof.Machine.execFordTrainingDone h failed s
  | .fordFlitReceive h flit => Sys2Proof.Machine.execFordFlitReceive h flit s
  | .fordLaneCheck h bundle lane errors => Sys2Proof.Machine.execFordLaneCheck h bundle lane errors s
  | .fordLaneRepairDone h bundle lane => Sys2Proof.Machine.execFordLaneRepairDone h bundle lane s
  | .fordLinkDown h => Sys2Proof.Machine.execFordLinkDown h s
  | .heartbeatSend h => Sys2Proof.Machine.execHeartbeatSend h s
  | .heartbeatReceive h => Sys2Proof.Machine.execHeartbeatReceive h s
  | .fatalNoticeReceive h => Sys2Proof.Machine.execFatalNoticeReceive h s
  | .peerLost h => Sys2Proof.Machine.execPeerLost h s
  | .peerUp h => Sys2Proof.Machine.execPeerUp h s
  | .learnShareNotice h => Sys2Proof.Machine.execLearnShareNotice h s
  -- Faults and recovery
  | .faultReport u code detail => Sys2Proof.Machine.execFaultReport u code detail s
  | .recAck a h slot merged => Sys2Proof.Machine.execRecAck a h slot merged s
  | .recLoRead a h => Sys2Proof.Machine.execRecLoRead a h s
  | .detailARead a h => Sys2Proof.Machine.execDetailARead a h s
  | .detailBRead a h => Sys2Proof.Machine.execDetailBRead a h s
  | .hubEventToPrivet h => Sys2Proof.Machine.execHubEventToPrivet h s
  | .faultnPulseEnd => Sys2Proof.Machine.execFaultnPulseEnd s
  | .spareHandover h t => Sys2Proof.Machine.execSpareHandover h t s
  | .selfTestEnd u ok => Sys2Proof.Machine.execSelfTestEnd u ok s
  | .reweightBatch h t => Sys2Proof.Machine.execReweightBatch h t s
  | .privetHbWrite a h v => Sys2Proof.Machine.execPrivetHbWrite a h v s
  | .privetHbWindow h => Sys2Proof.Machine.execPrivetHbWindow h s
  | .privetRelease a h => Sys2Proof.Machine.execPrivetRelease a h s
  | .halfRestart h => Sys2Proof.Machine.execHalfRestart h s
  -- Privet and management
  | .privetInfo slot => Sys2Proof.Machine.execPrivetInfo slot s
  | .imgStage slot => Sys2Proof.Machine.execImgStage slot s
  | .imgActivate slot => Sys2Proof.Machine.execImgActivate slot s
  | .imgConfirm slot => Sys2Proof.Machine.execImgConfirm slot s
  | .storeCommit slot => Sys2Proof.Machine.execStoreCommit slot s
  | .logRead slot => Sys2Proof.Machine.execLogRead slot s
  | .i2cXfer slot acks bytes => Sys2Proof.Machine.execI2cXfer slot acks bytes s
  | .grant slot => Sys2Proof.Machine.execGrant slot s
  | .debugChallenge slot => Sys2Proof.Machine.execDebugChallenge slot s
  | .debugUnlock slot => Sys2Proof.Machine.execDebugUnlock slot s
  | .ccReload slot => Sys2Proof.Machine.execCcReload slot s
  | .mbGo a slot => Sys2Proof.Machine.execMbGo a slot s
  | .debugLock a => Sys2Proof.Machine.execDebugLock a s
  | .debugTokenExpire scope => Sys2Proof.Machine.execDebugTokenExpire scope s
  | .tftpStage container => Sys2Proof.Machine.execTftpStage container s
  | .storeAutoCommit => Sys2Proof.Machine.execStoreAutoCommit s
  | .logFlush => Sys2Proof.Machine.execLogFlush s
  | .calViewWrite a v => Sys2Proof.Machine.execCalViewWrite a v s
  | .sensorSample n v => Sys2Proof.Machine.execSensorSample n v s
  | .senseTempRead a n => Sys2Proof.Machine.execSenseTempRead a n s
  | .thermalRelease => Sys2Proof.Machine.execThermalRelease s
  | .railSample n voltage current => Sys2Proof.Machine.execRailSample n voltage current s
  | .clockMonitorWindow h core ctl => Sys2Proof.Machine.execClockMonitorWindow h core ctl s
  | .refclkLoss => Sys2Proof.Machine.execRefclkLoss s
  | .pllUnlock => Sys2Proof.Machine.execPllUnlock s
  | .ioPllUnlock pll => Sys2Proof.Machine.execIoPllUnlock pll s
  | .droopRise h droop => Sys2Proof.Machine.execDroopRise h droop s
  | .droopFall h => Sys2Proof.Machine.execDroopFall h s
  | .droopStatRead a h => Sys2Proof.Machine.execDroopStatRead a h s
  | .pfailAssert => Sys2Proof.Machine.execPfailAssert s
  | .pfailDeassert => Sys2Proof.Machine.execPfailDeassert s
  | .poresetN => Sys2Proof.Machine.execPoresetN s
  | .sysresetN => Sys2Proof.Machine.execSysresetN s
  | .resetRelease => Sys2Proof.Machine.execResetRelease s
  | .nosReady a => Sys2Proof.Machine.execNosReady a s
  | .pciePerstN asserted => Sys2Proof.Machine.execPciePerstN asserted s
  | .functionLevelReset f => Sys2Proof.Machine.execFunctionLevelReset f s
  | .mgmtFrameReceive bytes => Sys2Proof.Machine.execMgmtFrameReceive bytes s
  | .mgmtFrameTransmit => Sys2Proof.Machine.execMgmtFrameTransmit s
  | .ringDeliver h vport => Sys2Proof.Machine.execRingDeliver h vport s
  | .mirrorPeerApply h => Sys2Proof.Machine.execMirrorPeerApply h s
  -- Flako-C
  | .fkDrain th => Sys2Proof.Machine.execFkDrain th s
  | .fkAlu64 th => Sys2Proof.Machine.execFkAlu64 th s
  | .fkAddi64 th => Sys2Proof.Machine.execFkAddi64 th s
  | .fkLd th => Sys2Proof.Machine.execFkLd th s
  | .fkSd th => Sys2Proof.Machine.execFkSd th s
  | .fkLwu th => Sys2Proof.Machine.execFkLwu th s
  | .fkSwapm th => Sys2Proof.Machine.execFkSwapm th s
  | .fkAddm th => Sys2Proof.Machine.execFkAddm th s
  | .fkCasm th => Sys2Proof.Machine.execFkCasm th s
  | .fkGate th => Sys2Proof.Machine.execFkGate th s
  | .fkGret th => Sys2Proof.Machine.execFkGret th s
  | .fkMfkr th => Sys2Proof.Machine.execFkMfkr th s
  | .fkMtkr th => Sys2Proof.Machine.execFkMtkr th s
  | .fkXlinv th => Sys2Proof.Machine.execFkXlinv th s
  -- Pins and the rest
  | .extestLoad => Sys2Proof.Machine.execExtestLoad s
  | .transmitFrameEnd h port => Sys2Proof.Machine.execTransmitFrameEnd h port s
  | .hbmStackTempReport h st temp => Sys2Proof.Machine.execHbmStackTempReport h st temp s
  | .remoteFaultChange p on => Sys2Proof.Machine.execRemoteFaultChange p on s
  | .ioPllRelock pll => Sys2Proof.Machine.execIoPllRelock pll s
  | .refclkArrival => Sys2Proof.Machine.execRefclkArrival s
  | .pstoreRewriteDone h t bank addr => Sys2Proof.Machine.execPstoreRewriteDone h t bank addr s
  | .flashEraseDone sector => Sys2Proof.Machine.execFlashEraseDone sector s

end Sys2Proof.Machine
end

