-- ==== Sys2Proof/Safety.lean ====
section
/-! DEFINITION. What counts as a safe run of the block, in the terms that claims use. -/

namespace Sys2Proof.Machine

/-- A step answers a next state: the block neither stops with a fault nor turns the command away as not modelled. -/
def Completes (s : State) : Prop := ∃ t, step s = .next t

/-- A command completes on a state. -/
def CompletesOn (c : Sys2Proof.Instr) (s : State) : Prop := ∃ t, exec c s = .next t

/-- `t` is reached from `s` in `n` steps. -/
def Reaches : Nat → State → State → Prop
  | 0, s, t => s = t
  | n + 1, s, t => ∃ u, step s = .next u ∧ Reaches n u t

/-- A property that every step keeps. -/
def Kept (P : State → Prop) : Prop := ∀ s t, P s → step s = .next t → P t

/-! ### One instruction of a thread -/

/-- The next instruction of thread `th` is `op`, its word `w`, and it may issue; `s1` is the state after its fetch, for which no HBM access
has had to wait; no checker is armed to store inverted check bits (R51, R286, R311). -/
def Issues (s : State) (op : FkOp) (th : ThreadRef) (s1 : State) (w : Nat) : Prop :=
  s.canIssue th = true ∧ s.fetch th = (s1, .ok w) ∧ fkDecode (isControl th) w = some op ∧ s1.waits = s.waits ∧ s.armed = []

/-- What that instruction works on. -/
def callOf (s s1 : State) (th : ThreadRef) (w : Nat) : Fk := { th := th, x := s1.thread th, w := w, pc := pcAddr th (s.thread th).pc }

/-- The address of the instruction after it. -/
def Fk.nextPc (c : Fk) : Nat := pcWrap c.th ((c.pc : Int) + 4)

/-- The state in which an issued instruction acts: its issue slot is granted and counted (R318, R361). -/
def State.atIssue (s : State) (th : ThreadRef) : State := s.grant th

/-- The instruction falls through. -/
def State.fallThrough (s : State) (c : Fk) : State := s.setPc c.th c.nextPc

/-- The tables that hold a thread and its registers are in canonical form. -/
def State.threadWf (s : State) (th : ThreadRef) : Bool :=
  (match th with
   | .pk h t _ => Tbl.wf (s.tiles.get h) && Tbl.wf (s.tile h t).threads
   | .cc h _ => Tbl.wf (s.cc.get h).threads) && Tbl.wf (s.thread th).g && Tbl.wf (s.thread th).a

/-- An instruction for a coprocessor reaches its unit as the call `q`: no instance of that unit and number was lost, and where the unit must
be locked the task holds the instance in the cluster of the call (R402, R404, R405). -/
def ReachesUnit (s : State) (h : Half) (t : TileIx) (n : Fin 128) (c : Fk) (q : CpCall) : Prop :=
  q.h = h ∧ q.t = t ∧ q.n = n ∧ q.k = s.slotOfThread h t n ∧ q.c = c ∧ (s.tile h t).lostKey q.k c.w = none ∧
  (if lockRequired (wUnit c.w) then (s.tile h t).heldIn q.k (instUnit (wUnit c.w)) (wInst c.w) = some q.cl else q.cl = n.val / 32)

/-! ### Canonical forms -/

/-- A memory in its one form: addresses strictly rising, and no entry equal to what an unlisted address reads as. -/
def Memory.wf (d : Byte) (m : Tbl Byte) : Bool := Tbl.wf m && m.all fun e => decide (e.2 ≠ d)

/-- The register tables of the device: the active registers, the staged fields and the states of the units. -/
def State.registersWf (s : State) : Bool := Tbl.wf s.csr && Tbl.wf s.staged && Tbl.wf s.units

/-- A queued write of HBM names bytes of its granule, in order. -/
def WqEntry.wf (e : WqEntry) : Bool := Tbl.wf e.bytes && e.bytes.all fun b => decide (b.1 < 32)

/-- The memory of a half's HBM stacks and its write queues. -/
def HbmState.wf (x : HbmState) : Bool := Memory.wf 0 x.mem && Tbl.wf x.wq && x.wq.all fun q => q.2.all WqEntry.wf

/-- The memories of a tile: its RAM, its task store and its two program banks. -/
def Tile.memoryWf (x : Tile) : Bool := Memory.wf 0 x.ram && Memory.wf 0 x.store && Memory.wf 0 x.bank0 && Memory.wf 0 x.bank1

/-- Every memory of the device: HBM, the tiles' memories and Privet's flash. -/
def State.memoryWf (s : State) : Bool :=
  s.hbm.h0.wf && s.hbm.h1.wf && (s.tiles.h0.all fun e => e.2.memoryWf) && (s.tiles.h1.all fun e => e.2.memoryWf) && Memory.wf 0xFF s.pv.flash

/-- The registers of a thread. -/
def Thread.wf (x : Thread) : Bool := Tbl.wf x.g && Tbl.wf x.a && Tbl.wf x.k && Tbl.wf x.staging

/-- The threads, tasks and channels of a tile, and the registers kept with its parked tasks. -/
def Tile.wf (x : Tile) : Bool :=
  Tbl.wf x.threads && Tbl.wf x.tasks && Tbl.wf x.chans && (x.threads.all fun e => e.2.wf) && x.tasks.all fun e => e.2.saved.all Thread.wf

/-- The tiles of a half. -/
def tilesWf (t : Tbl Tile) : Bool := Tbl.wf t && t.all fun e => e.2.wf

/-- The threads and channels of a half's control cores. -/
def CcState.wf (x : CcState) : Bool := Tbl.wf x.threads && Tbl.wf x.chans && x.threads.all fun e => e.2.wf

/-- The tables of a half's table units that are kept by number. -/
def TableState.wf (x : TableState) : Bool := Tbl.wf x.slots && Tbl.wf x.meters && Tbl.wf x.cache

/-- The pauses and triggers of a half's ports, its chains and its locks. -/
def State.halfTablesWf (s : State) (h : Half) : Bool :=
  Tbl.wf (s.ing.get h).pfcXoff && Tbl.wf (s.ing.get h).pfcXon && Tbl.wf (s.buf.get h).chains && Tbl.wf (s.locks.get h) && (s.tab.get h).wf

/-- The tables that hold threads, tasks, channels, chains, locks, batches, meters, issue slots and calibration values. -/
def State.tablesWf (s : State) : Bool :=
  tilesWf s.tiles.h0 && tilesWf s.tiles.h1 && s.cc.h0.wf && s.cc.h1.wf && s.halfTablesWf 0 && s.halfTablesWf 1 && Tbl.wf s.slots && Tbl.wf s.pv.user

end Sys2Proof.Machine
end

