-- ==== Sys2Proof/Certificates/Slice0/Obligations.lean ====
section
/-! DEFINITION. The statements for the provers. Each docstring says which rules of the spec the statement formalises. -/

open Sys2Proof Sys2Proof.Machine

/-- A step takes the command at the front of the queue and performs it on the state with the queue's rest.

Every command completes: on every state and with every operand it answers a next state, and no command stops the block with a fault or is
refused. -/
def Obligations.StepRunsTheFrontCommand : Prop :=
  (∀ (c : Instr) (rest : List Instr) (s : State), step { s with pending := c :: rest } = exec c { s with pending := rest }) ∧
  (∀ (c : Instr) (s : State), ∃ t, exec c s = .next t)

/-- The machine right after reset: PORESET_N is asserted, the device is in START, every unit is in RESET, every register reads its reset value in
both views, DTS is zero and does not count, no fault slot has been used, no command waits, and every table has its canonical form (R44, R60,
R70, R646). -/
def Obligations.ResetLeaves : Prop :=
  State.reset.pv.porLow = true ∧ State.reset.dev.devState = .start ∧ (∀ u, State.reset.ustate u = .reset) ∧
  (∀ b off, State.reset.reg b off = regRst b.kind off ∧ State.reset.stg b off = regRst b.kind off) ∧
  (∀ h, State.reset.dts h = 0 ∧ (State.reset.time.get h).counting = false ∧ (State.reset.hubs.get h).slots = [] ∧
    ∀ k, (State.reset.hubs.get h).openAt k = false) ∧
  State.reset.pending = [] ∧ State.reset.registersWf = true ∧ State.reset.memoryWf = true ∧ State.reset.tablesWf = true

/-- Every step keeps the register tables in canonical form: the registers, the staged fields and the unit states are each listed once and in order,
so that a register reads back what was written to it. -/
def Obligations.StepKeepsRegisters : Prop := Kept fun s => s.registersWf = true

/-- Every step keeps every memory in canonical form: HBM and its write queues, the tiles' memories and Privet's flash, so that equal memories are
equal data. -/
def Obligations.StepKeepsMemories : Prop := Kept fun s => s.memoryWf = true

/-- Every step keeps the tables of threads, tasks, channels, chains, locks, batches, meters, issue slots and calibration values in canonical
form. -/
def Obligations.StepKeepsTables : Prop := Kept fun s => s.tablesWf = true

/-- Device time is loaded in START only (R78, R79, R80), a refused load counts in REFUSED, and a load sets DTS of both halves at one tick. The next state
is given whole, so nothing else changes.

A write of DTS_SLEW (R81) takes DIR and COUNT and begins a fresh grid.

The PTP counter is set, advanced or set back by PTP_ADJ in both halves at one tick; reads latch what R73 and R89 name. -/
def Obligations.TimeIsSet : Prop :=
  ((∀ (s : State) (a : Agent), s.agentReach a .device = true → s.dev.devState = .start →
     s.loadRefused (s.reg bDevice R.device_DTS_LOAD) = false →
     exec (.loadNow a) s = .next { s with
       time := ⟨{ s.time.h0 with dts := s.reg bDevice R.device_DTS_LOAD }, { s.time.h1 with dts := s.reg bDevice R.device_DTS_LOAD }⟩
       dev := { s.dev with loadTick := some (s.ticks, s.reg bDevice R.device_DTS_LOAD) }
       ford := ⟨{ s.ford.h0 with timeIn := [] }, { s.ford.h1 with timeIn := [] }⟩ }) ∧
   (∀ (s : State) (a : Agent), s.agentReach a .device = true → s.dev.devState = .start →
     s.loadRefused (s.reg bDevice R.device_DTS_LOAD) = true →
     exec (.loadNow a) s = .next
       (s.setRfld bDevice R.device_DTS_CTL 32 16 (satTo (s.rfld bDevice R.device_DTS_CTL 32 16 + 1) 0xFFFF))) ∧
   (∀ (s : State) (a : Agent), s.agentReach a .device = true → s.dev.devState = .start →
     exec (.loadArm a) s = .next { s with dev := { s.dev with loadPend := true } }) ∧
   (∀ (s : State) (a : Agent), s.dev.devState ≠ .start → exec (.loadNow a) s = .next s ∧ exec (.loadArm a) s = .next s)) ∧
  (∀ (s : State) (a : Agent) (dir : Bool) (count : BitVec 32), Tbl.wf s.csr = true → s.agentReach a .device = true →
     ∃ t, exec (.dtsSlewWrite a dir count) s = .next t ∧
       t.slewCount = count.toNat ∧ bit (t.reg bDevice R.device_DTS_SLEW) 48 = dir ∧ t.dev.slewGrid = 0 ∧
       t = { s with csr := t.csr, dev := { s.dev with slewGrid := 0 } }) ∧
  ((∀ (s : State) (a : Agent), s.agentReach a .device = true →
     exec (.ptpSet a) s = .next { s with time := ⟨({ s.time.h0 with ptpSec := 0, ptpNs := 0, ptpFrac := 0 }).ptpPlus s.ptpAdj,
       ({ s.time.h1 with ptpSec := 0, ptpNs := 0, ptpFrac := 0 }).ptpPlus s.ptpAdj⟩ } ∧
     exec (.ptpAdd a) s = .next { s with time := ⟨s.time.h0.ptpPlus s.ptpAdj, s.time.h1.ptpPlus s.ptpAdj⟩ }) ∧
   (∀ (s : State) (a : Agent), s.agentReach a .device = true → s.ptpAdj ≤ ptpTotal s.time.h0.ptpSec s.time.h0.ptpNs s.time.h0.ptpFrac →
     s.time.h0.ptpSec < 2 ^ 48 → s.time.h0.ptpNs < 1000000000 → s.time.h0.ptpFrac < 2 ^ 32 →
     ∃ t, exec (.ptpSub a) s = .next t ∧
       ptpTotal t.time.h0.ptpSec t.time.h0.ptpNs t.time.h0.ptpFrac + s.ptpAdj = ptpTotal s.time.h0.ptpSec s.time.h0.ptpNs s.time.h0.ptpFrac ∧
       t = { s with time := t.time }) ∧
   (∀ (s : State) (a : Agent), Tbl.wf s.csr = true → s.agentReach a .device = true →
     ∃ t, exec (.ptpNsRead a) s = .next t ∧
       t.reg bDevice R.device_PTP_SEC = BitVec.ofNat 64 (s.time.get s.leader).ptpSec ∧
       t.reg bDevice R.device_PTP_DTS = s.leadDts ∧ t = { s with csr := t.csr }) ∧
   (∀ (s : State) (a : Agent) (h : Half), s.agentReach a (.half h) = true →
     ∃ t, exec (.dtsNowRead a h) s = .next t ∧
       (t.time.get h).dtsLatch.find? (fun e => e.1 = a) = some (a, BitVec.ofNat 32 ((s.dts h).toNat >>> 32)) ∧
       t = { s with time := t.time } ∧ t.time.get (other h) = s.time.get (other h)) ∧
   (∀ (s : State) (a : Agent) (p : PortIx), s.agentReach a (.port p) = true →
     exec (.ptpTxtsBRead a p) s = .next
       (s.updIng (portHalf p) fun i => { i with txts := tset [] i.txts (portLocal p) ((tget [] i.txts (portLocal p)).drop 1) })))

/-- TSYNC_IN (R79, R84): an edge that is not the configured one is only noted; the active edge falls due for capture 2 to 4 ticks later. The
capture tick captures DTS, sets NEW and counts EDGES, after the load where LOAD_ARM has armed one.

TSYNC_OUT (R83) rises when its edge is due and OUT_EN is set, stays high for OUT_WIDTH microseconds (at least one), and falls at the end. -/
def Obligations.TsyncPins : Prop :=
  (∀ (s : State) (rising : Bool), Tbl.wf s.csr = true →
     ((bit (s.reg bDevice R.device_TSYNC_CFG) 0 = false ∨ rising = bit (s.reg bDevice R.device_TSYNC_CFG) 1) →
       exec (.tsyncInEdge rising) s = .next { s with dev := { s.dev with tsyncIn := rising } }) ∧
     (bit (s.reg bDevice R.device_TSYNC_CFG) 0 = true → rising = !bit (s.reg bDevice R.device_TSYNC_CFG) 1 →
       2 ≤ s.capDelay ∧ s.capDelay ≤ 4 ∧
       exec (.tsyncInEdge rising) s = .next { s with
         dev := { s.dev with tsyncIn := rising, capDue := s.dev.capDue ++ [s.ticks + s.capDelay] }
         fresh := s.fresh + 1 }) ∧
     (∀ d, s.dev.capDue = [d] → d ≤ s.ticks → s.dev.loadPend = false →
       ∃ t, t = s.captures ∧ t.reg bDevice R.device_TSYNC_CAP = s.leadDts ∧
         bit (t.reg bDevice R.device_TSYNC_STAT) 0 = true ∧
         t.rfld bDevice R.device_TSYNC_STAT 32 32 = (s.rfld bDevice R.device_TSYNC_STAT 32 32 + 1) % 2 ^ 32 ∧
         t = { s with csr := t.csr, dev := { s.dev with capDue := [] } }) ∧
     (∀ d, s.dev.capDue = [d] → d ≤ s.ticks → s.dev.loadPend = true → s.loadRefused (s.reg bDevice R.device_DTS_LOAD) = false →
       ∃ t, t = s.captures ∧ (∀ h, t.dts h = s.reg bDevice R.device_DTS_LOAD) ∧
         t.reg bDevice R.device_TSYNC_CAP = s.reg bDevice R.device_DTS_LOAD ∧ t.dev.loadPend = false)) ∧
  ((∀ (s : State) (d : Nat), s.dev.tsyncDue = some d → d ≤ s.ticks → bit (s.reg bDevice R.device_TSYNC_CFG) 2 = true →
     exec .tsyncOutRise s = .next { s with dev := { s.dev with
       tsyncDue := none
       tsyncOut := true
       tsyncEnd := s.ticks + 1500 * max 1 (s.rfld bDevice R.device_TSYNC_CFG 16 16) } }) ∧
   (∀ (s : State), s.dev.tsyncOut = true → s.dev.tsyncEnd ≤ s.ticks →
     exec .tsyncOutFall s = .next { s with dev := { s.dev with tsyncOut := false } }))

/-- Slews (R71, R81): the adjusting tick moves DTS of a half whose clock counts by 2 or by 0 and counts COUNT down; the follower's slewed tick
moves its DTS by 0 where it is ahead and by 2 where it is behind. `u` is the state after what else of the halves counts the tick, and no
capture of TSYNC_IN is due. The slews never move DTS by more than 2.

Alignment (R74, R88): the leader's message reaches the other half's Ford queue; the follower takes it, measures its difference and takes the leader's PTP
time, and a difference of at most 2 ticks leaves its DTS; while its peer is lost the message has no effect (R532). -/
def Obligations.SlewAndAlignment : Prop :=
  ((∀ (s u : State) (h : Half), u = (s.halfTick 0).halfTick 1 → Tbl.wf u.csr = true → u.dev.devState ≠ .start → s.slewDue = true →
     u.slewDue = true → (u.time.get h).counting = true → u.followDue h = false → u.dev.capDue = [] →
     ∃ t, exec .dtsSlewAdjust s = .next t ∧
       t.dts h = u.dts h + (if bit (u.reg bDevice R.device_DTS_SLEW) 48 then 0 else 2) ∧
       t.slewCount + 1 = u.slewCount ∧ t.dev.slewGrid = 0 ∧ t.ticks = u.ticks + 1) ∧
   (∀ (s u : State) (h : Half), u = (s.halfTick 0).halfTick 1 → u.dev.devState ≠ .start → s.followDue h = true →
     u.slewDue = false → (u.time.get h).counting = true → u.followDue h = true → u.dev.capDue = [] →
     ∃ t, exec .dtsFollowerSlew s = .next t ∧
       t.dts h = u.dts h + (if 0 < (u.time.get h).skew then 0 else 2) ∧
       (t.time.get h).skew = (if 0 < (u.time.get h).skew then (u.time.get h).skew - 1 else (u.time.get h).skew + 1)) ∧
   (∀ (s : State) (h : Half), s.dtsAdd h ≤ 2)) ∧
  ((∀ (s : State), s.fordUp s.leader = true →
     exec .dtsAlignSend s = .next (s.updFord (other s.leader) fun f => { f with timeIn := f.timeIn ++ [s.leadDts - BitVec.ofNat 64 s.ticks] })) ∧
   (∀ (s : State) (v : DWord) (rest : List DWord) (d : Int),
     (s.ford.get (other s.leader)).timeIn = v :: rest → (s.ford.get (other s.leader)).lost = false →
     d = ((s.dts (other s.leader)).toNat : Int) - ((v + BitVec.ofNat 64 s.ticks).toNat : Int) → d.natAbs ≤ 2 →
     ∃ t, exec .dtsAlignReceive s = .next t ∧
       (t.time.get (other s.leader)).skew = d ∧
       (t.time.get (other s.leader)).ptpSec = (s.time.get s.leader).ptpSec ∧
       (t.time.get (other s.leader)).dts = s.dts (other s.leader) ∧
       (t.ford.get (other s.leader)).timeIn = rest ∧
       t = { s with time := t.time, ford := t.ford }) ∧
   (∀ (s : State) (v : DWord) (rest : List DWord),
     (s.ford.get (other s.leader)).timeIn = v :: rest → (s.ford.get (other s.leader)).lost = true →
     exec .dtsAlignReceive s = .next (s.updFord (other s.leader) fun f => { f with timeIn := rest })))

/-- The first bit of a frame takes its stamps (R91, R94); bytes are stored one after another, the first byte of a cell with its cell, a byte
past MAX_LEN and a byte for which no cell is free cut the frame under their counters (R108, R110). No checker is armed (R51).

At its last byte a frame that passes every check of R107 and R108 is counted and waits for the classifier with its bytes without the
FCS; a frame that fails one is dropped and counted under the first row of R108 that applies, and a PFC frame waits for PFC_RECEIVE. A port
that runs FEC counts its codewords, which are free values (R143). No checker is armed (R51). -/
def Obligations.FramesReceived : Prop :=
  ((∀ (s : State) (p : PortIx), s.armed = [] → s.portRuns p = true → s.arriving p = none →
     ∃ t, exec (.frameStart p) s = .next t ∧
       t.arriving p = some (RxFrame.mk p.val (s.dts (portHalf p)) ((s.ing.get (portHalf p)).nextSeq p.val) (s.ptpField p) [] none none false
         (s.reg (bPort p) R.port_MAC_CFG)) ∧
       t = { s with ing := t.ing, fresh := s.fresh + 1 } ∧ t.ing.get (other (portHalf p)) = s.ing.get (other (portHalf p))) ∧
   (∀ (s : State) (p : PortIx) (f : RxFrame) (b : Byte) (bs : List Byte), s.armed = [] → s.portRuns p = true → s.arriving p = some f →
     f.cut = false → f.bytes.length + (bs.length + 1) ≤ macMax f.mac → f.bytes.length % 128 ≠ 0 →
     f.bytes.length % 128 + (bs.length + 1) ≤ 128 → (64 ≤ f.bytes.length ∨ f.bytes.length + (bs.length + 1) < 64) →
     exec (.frameBytes p (b :: bs)) s = .next (s.setArriving p { f with bytes := f.bytes ++ b :: bs })) ∧
   (∀ (s : State) (p : PortIx) (f : RxFrame) (b : Byte), s.armed = [] → s.portRuns p = true → s.arriving p = some f → f.cut = false →
     f.bytes.length + 1 ≤ macMax f.mac →
     (f.bytes.length = 63 → exec (.frameBytes p [b]) s = .next (s.assignPrio p { f with bytes := f.bytes ++ [b] })) ∧
     (f.bytes.length % 128 = 0 → s.takeRxCell (portHalf p) f = none →
       exec (.frameBytes p [b]) s = .next (s.cutFrame p f R.port_RX_NO_CELL)) ∧
     (∀ s1 f1, f.bytes.length % 128 = 0 → s.takeRxCell (portHalf p) f = some (s1, f1) →
       (f1.prio = none → exec (.frameBytes p [b]) s = .next (s1.setArriving p { f1 with bytes := f1.bytes ++ [b] })) ∧
       (∀ q, f1.prio = some q → exec (.frameBytes p [b]) s =
         .next ((s1.setLevel p q (s1.rxLevel p q + 1)).setArriving p { f1 with bytes := f1.bytes ++ [b] })))) ∧
   (∀ (s : State) (p : PortIx) (f : RxFrame) (b : Byte), s.armed = [] → s.portRuns p = true → s.arriving p = some f → f.cut = false →
     macMax f.mac < f.bytes.length + 1 → exec (.frameBytes p [b]) s = .next (s.cutFrame p f R.port_RX_OVERSIZE)) ∧
   (∀ (s : State) (p : PortIx) (b : Byte) (bs : List Byte), s.armed = [] → s.portRuns p = true →
     exec (.frameBytes p (b :: bs)) s = .next (bs.foldl (doRxByte p) (doRxByte p s b)))) ∧
  ((∀ (s : State) (p : PortIx) (f : RxFrame) (err : Bool), s.armed = [] → Tbl.wf s.csr = true → s.portRuns p = true → s.arriving p = some f →
     f.cut = false → endCounter f.bytes err = none →
     ∃ t, exec (.frameEnd p err) s = .next t ∧
       (t.ing.get (portHalf p)).done = (s.ing.get (portHalf p)).done ++ [f] ∧
       t.reg (bPort p) R.port_RX_FRAMES_OK = s.reg (bPort p) R.port_RX_FRAMES_OK + 1 ∧
       t.reg (bPort p) R.port_RX_BYTES_OK = s.reg (bPort p) R.port_RX_BYTES_OK + BitVec.ofNat 64 f.bytes.length ∧
       t = { s with csr := t.csr, buf := t.buf, ing := t.ing, fresh := t.fresh } ∧
       (bit (s.reg (bPort p) R.port_LINK_STAT) 1 = false → t.fresh = s.fresh)) ∧
   (∀ (s : State) (p : PortIx) (f : RxFrame) (err : Bool) (c : Nat), s.armed = [] → s.portRuns p = true → s.arriving p = some f → f.cut = false →
     endCounter f.bytes err = some c →
     (c ≠ R.port_RX_PFC_FRAMES →
       exec (.frameEnd p err) s = .next ((((s.countFec p).noArriving p).dropFrame (portHalf p) f).bump (bPort p) c)) ∧
     (c = R.port_RX_PFC_FRAMES →
       exec (.frameEnd p err) s = .next (((((s.countFec p).noArriving p).dropFrame (portHalf p) f).bump (bPort p) c).updIng (portHalf p) fun i =>
         { i with pfcRx := tset [] i.pfcRx (portLocal p) (tget [] i.pfcRx (portLocal p) ++ [pfcFields f.bytes]) }))) ∧
   (∀ (s : State) (p : PortIx) (f : RxFrame) (err : Bool), s.armed = [] → s.portRuns p = true → s.arriving p = some f → f.cut = true →
     exec (.frameEnd p err) s = .next ((s.countFec p).noArriving p)) ∧
   (∀ (s : State) (p : PortIx), bit (s.reg (bPort p) R.port_LINK_STAT) 1 = false → s.countFec p = s) ∧
   (∀ (bs : List Byte) (err : Bool), fcsGood bs = false → endCounter bs err = some R.port_RX_FCS_ERR) ∧
   (∀ (bs : List Byte) (err : Bool), fcsGood bs = true → bs.length < 64 → endCounter bs err = some R.port_RX_RUNT) ∧
   (∀ (bs : List Byte), fcsGood bs = true → 64 ≤ bs.length → endCounter bs true = some R.port_RX_PCS_ERR))

/-- PFC: a frame leaves for the triggers that are due, with QUANTA for the priorities to pause and time 0 for those to go on, once no frame
is being sent, and is counted; a refresh falls due after REFRESH quanta while the level stays at or
above XON (R116); a received frame leaves its queue and acts on the priorities that RX_EN honours, and a pause that has run out ends
(R117). -/
def Obligations.PfcBothWays : Prop :=
  (∀ (s : State) (p : PortIx), s.portRuns p = true →
    (tget 0 (s.ing.get (portHalf p)).pfcXoff (portLocal p) ≠ 0 ∨ tget 0 (s.ing.get (portHalf p)).pfcXon (portLocal p) ≠ 0) →
    (s.sels (portHalf p) (portLocal p)).any (fun f => f.started && !f.ended) = false →
    Tbl.wf s.csr = true → Tbl.wf (s.ing.get (portHalf p)).pfcXoff = true → Tbl.wf (s.ing.get (portHalf p)).pfcXon = true →
    ∃ t, exec (.pfcFrameTransmit p) s = .next t ∧
      t.reg (bPort p) R.port_TX_PFC_FRAMES = s.reg (bPort p) R.port_TX_PFC_FRAMES + 1 ∧
      tget 0 (t.ing.get (portHalf p)).pfcXoff (portLocal p) = 0 ∧ tget 0 (t.ing.get (portHalf p)).pfcXon (portLocal p) = 0 ∧
      tget? (t.ing.get (portHalf p)).pfcSent (portLocal p) = some (pfcFrame (tget 0 (s.ing.get (portHalf p)).pfcXoff (portLocal p))
        (tget 0 (s.ing.get (portHalf p)).pfcXon (portLocal p)) (s.rfld (bPort p) R.port_PFC_CFG 48 16)) ∧
      t = { s with csr := t.csr, ing := t.ing }) ∧
  (∀ (s : State) (p : PortIx) (prio : Fin 8) (since : Nat),
    tget? (s.ing.get (portHalf p)).pfcSince (prioKey (portLocal p) prio.val) = some since →
    s.portRuns p = true → s.txPfc p prio.val = true → (s.rxqThr p prio.val).2.2 ≤ s.rxLevel p prio.val → 0 < s.portGbps p →
    since + quantaTicks (s.pfcRefreshQ p) (s.portGbps p) ≤ s.ticks →
    exec (.pfcRefresh p prio) s = .next (s.xoffDue p prio.val)) ∧
  (∀ (s : State) (p : PortIx) (en : Nat) (ts : List Nat) (rest : List (Nat × List Nat)),
    tget [] (s.ing.get (portHalf p)).pfcRx (portLocal p) = (en, ts) :: rest →
    ∃ u, u = (List.range 8).foldl (fun s e => if en.testBit e ∧ s.rxPfc p e then s.pfcClass p e (nth 0 ts e) else s)
        (s.updIng (portHalf p) fun i => { i with pfcRx := tset [] i.pfcRx (portLocal p) rest }) ∧
      exec (.pfcReceive p) s = .next (u.schedRefresh (portHalf p) (portLocal p) (u.nonEmpty (portHalf p) (portLocal p)))) ∧
  (∀ (s : State) (p : PortIx) (prio : Fin 8) (d : Nat),
    tget? (s.ing.get (portHalf p)).pauses (prioKey (portLocal p) prio.val) = some d → d ≤ s.ticks →
    exec (.pfcPauseExpire p prio) s = .next (s.withSched (portHalf p) (portLocal p) fun s =>
      s.updIng (portHalf p) fun i => { i with pauses := tdel i.pauses (prioKey (portLocal p) prio.val) })) ∧
  (∀ (off on q e : Nat), e < 8 → (pfcFrame off on q).1 = off ||| on ∧ nth 0 (pfcFrame off on q).2 e = if off.testBit e then q else 0)

/-- A free classifier takes the oldest waiting frame (R118): a parse of more than 24 steps counts in TWO_PASS and waits for its second
pass (R127), any other is finished at once, and the second pass finishes the rest; a frame that reads a slot withheld for its rewrite waits
(R233, R236).

The frame taken is the oldest: no waiting frame precedes it in stamp, port and arrival (R118, R243).

A frame enters the inject queue as its newest entry, stamped with DTS at the entry (R112, R247); a stalled poster goes on with the
instruction after its own, and with no poster a frame looped by P130 enters with its charge in pool 0 (R490, R679). No checker is armed
(R51). -/
def Obligations.FramesClassified : Prop :=
  ((∀ (s : State) (h : Half) (f : RxFrame), s.live (.half h) = true → (s.ing.get h).cur = none →
     oldestFrame ((s.ing.get h).done ++ (s.ing.get h).inject) = some f → 24 < (s.parseOf h f).acc.steps → Tbl.wf s.csr = true →
     ∃ t, exec (.classifyFrame h) s = .next t ∧
       (t.ing.get h).cur = some (waitPass f (s.bankOf h f.stamp)) ∧
       t.reg (bHalf h) R.half_TWO_PASS = s.reg (bHalf h) R.half_TWO_PASS + 1 ∧
       f ∉ (t.ing.get h).done ∧ f ∉ (t.ing.get h).inject ∧
       t = { s with csr := t.csr, ing := t.ing }) ∧
   (∀ (s : State) (h : Half) (f : RxFrame), s.live (.half h) = true → (s.ing.get h).cur = none →
     oldestFrame ((s.ing.get h).done ++ (s.ing.get h).inject) = some f → (s.parseOf h f).acc.steps ≤ 24 →
     s.classHeld h f (s.parseOf h f) = false →
     exec (.classifyFrame h) s = .next ((s.updIng h fun i =>
       { i with done := i.done.filter (· ≠ f), inject := i.inject.filter (· ≠ f) }).finishClassify h f (s.parseOf h f))) ∧
   (∀ (s : State) (h : Half) (c : ClsFrame), (s.ing.get h).cur = some c → s.live (.half h) = true → c.second = true →
     s.classHeld h c.frame (s.parseOf h c.frame) = false →
     exec (.parseSecondPass h) s = .next (s.finishClassify h c.frame (s.parseOf h c.frame))) ∧
   (∀ (s : State) (h : Half) (f : RxFrame), (s.ing.get h).cur = none → oldestFrame ((s.ing.get h).done ++ (s.ing.get h).inject) = some f →
     (s.parseOf h f).acc.steps ≤ 24 → s.classHeld h f (s.parseOf h f) = true → exec (.classifyFrame h) s = .next s)) ∧
  (∀ (l : List RxFrame) (f : RxFrame), oldestFrame l = some f → f ∈ l ∧ ∀ g ∈ l, keyLt g.key f.key = false) ∧
  ((∀ (s : State) (h : Half) (th : ThreadRef) (rest : List ThreadRef) (v : Nat) (bytes : List Byte),
     s.armed = [] → (s.ing.get h).posters = th :: rest → (s.thread th).phase = .post v bytes → s.injectReady h bytes.length = true →
     exec (.injectQueueEntry h) s = .next (((s.injectBytes h v bytes).updThread th fun x => { x with phase := .issuing, pc := x.pc + 4 }).updIng h
       fun i => { i with posters := rest })) ∧
   (∀ (s : State) (h : Half) (id : Nat) (rest : List Nat) (s1 : State),
     s.armed = [] → (s.ing.get h).posters = [] → (s.ing.get h).loops = id :: rest → s.injectRoom h = true → s.moveCharge h id 0 = (s1, true) →
     exec (.injectQueueEntry h) s = .next ((s1.updIng h fun i => { i with loops := rest }).injectChain h 2 id)) ∧
   (∀ (s : State) (h : Half) (v id : Nat), (s.chain h id).bytes.length ≤ s.vportMax h v →
     ∃ f, ((s.injectChain h v id).ing.get h).inject = (s.ing.get h).inject ++ [f] ∧
       f.port = 128 + v ∧ f.stamp = s.dts h ∧ f.bytes = (s.chain h id).bytes ∧ f.chain = some id))

/-- The classified frame becomes a task in the tile and slot that R137, R138 and R245 choose, and the classifier is free again (R244); where
no tile has room it stalls and nothing changes (R246). No checker is armed (R51).

A scan starts in creation order when the engine is free (R169); at its end the summary word and the result block of R177 and R178 stand
in the task store, the scan is done and its dependence counter counts down (R170). No pattern is withheld for its rewrite (R236).

The summary word of R178: COUNT saturates at 255, OVERFLOW marks more than 8 matches, DONE is 1 and SCANNED is the bytes scanned. -/
def Obligations.TasksAndScans : Prop :=
  ((∀ (s : State) (h : Half) (c : ClsFrame) (tl : TileIx) (r : Bool), s.armed = [] → (s.ing.get h).cur = some c → s.live (.half h) = true → c.second = false →
     s.place h c = some (tl, r) →
     ∃ t, exec (.taskCreate h) s = .next t ∧
       t = s.used.createTask h tl ((s.tile h tl).freeSlot ((s.free 32).toNat % svcBase) svcBase) r c ∧
       (t.ing.get h).cur = none) ∧
   (∀ (s : State) (h : Half) (c : ClsFrame), s.armed = [] → (s.ing.get h).cur = some c → s.place h c = none → exec (.taskCreate h) s = .next s)) ∧
  ((∀ (s : State) (h : Half) (tl : TileIx) (k : Nat) (r : List Nat), s.live (.tile h tl) = true → (s.tile h tl).scans = k :: r →
     ((k :: r).all fun k => decide ((s.task h tl k).scan ≠ .running)) = true →
     exec (.brambleScanStart h tl) s = .next
       ((s.updTile h tl fun y => { y with scanTouched := false }).updTask h tl k fun y => { y with scan := .running })) ∧
   (∀ (s : State) (h : Half) (tl : TileIx) (k : Fin 2560), s.live (.tile h tl) = true → (s.task h tl k.val).scan = .running →
     (s.tab.get h).shadowHeld.any (fun e => decide (e.1 = tgBramble)) = false →
     exec (.brambleScanEnd h tl k) s = .next
       ((((s.updTile h tl fun y =>
           { (y.put (.store (448 * k.val + 384)) (resultBlock (s.ptMatches h tl (s.scanWindow h tl k.val) (s.task h tl k.val).stamp.toNat))).put
               (.store (ctxOff k.val + 0x10))
               (leBytes 8 (summaryWord (s.ptMatches h tl (s.scanWindow h tl k.val) (s.task h tl k.val).stamp.toNat).length
                 (s.scanWindow h tl k.val).length (s.scanIncomplete h tl))) with
             scans := y.scans.filter (· ≠ k.val) }).updTask h tl k.val fun y => { y with scan := .done }).countScan h tl
           (s.scanWindow h tl k.val).length (s.ptMatches h tl (s.scanWindow h tl k.val) (s.task h tl k.val).stamp.toNat).length
           (s.scanIncomplete h tl)).dcDown h tl k.val (s.task h tl k.val).scanDep))) ∧
  (∀ (m n : Nat) (inc : Bool), n < 2048 →
     bits (summaryWord m n inc) 56 8 = min m 255 ∧ ((summaryWord m n inc).testBit 55 = true ↔ 8 < m) ∧
     (summaryWord m n inc).testBit 54 = inc ∧ (summaryWord m n inc).testBit 52 = true ∧ bits (summaryWord m n inc) 32 11 = n ∧
     bits (summaryWord m n inc) 0 32 = 0 ∧ bits (summaryWord m n inc) 43 9 = 0 ∧ (summaryWord m n inc).testBit 53 = false)

/-- A free thread takes the task that R257 ranks first: a resumed one on any core, a new one and a new service run on the core of R258. No
checker is armed (R51).

The task dispatched has the highest effective priority among the READY tasks that may be dispatched (R257). -/
def Obligations.TasksDispatched : Prop :=
  ((∀ (s : State) (h : Half) (tl : TileIx) (n : Fin 128) (k : Nat), s.armed = [] → s.live (.tile h tl) = true → s.threadFree h tl n.val = true →
     s.pickTask h tl = some (.task k) → (s.task h tl k).resumed = false → s.newCore h tl = some (n.val / 8) →
     exec (.taskDispatch h tl n) s = .next (s.startOn h tl n k)) ∧
   (∀ (s : State) (h : Half) (tl : TileIx) (n : Fin 128) (k : Nat), s.armed = [] → s.live (.tile h tl) = true →
     s.threadFree h tl n.val = true → s.pickTask h tl = some (.task k) → (s.task h tl k).resumed = true →
     exec (.taskDispatch h tl n) s = .next (s.resumeOn h tl n k)) ∧
   (∀ (s : State) (h : Half) (tl : TileIx) (n : Fin 128) (j : Nat), s.armed = [] → s.live (.tile h tl) = true →
     s.threadFree h tl n.val = true → s.pickTask h tl = some (.svc j) → s.newCore h tl = some (n.val / 8) →
     exec (.taskDispatch h tl n) s = .next (s.used.startSvc h tl n j)) ∧
   (∀ (s : State) (h : Half) (tl : TileIx) (n : Fin 128) (k a : Nat),
     (s.tile h tl).bankPoisoned (s.task h tl k).bank (4 * (s.task h tl k).program) 4 = false →
     entryAddr ((s.tile h tl).entryWord (s.task h tl k).bank (s.task h tl k).program) = some a →
     s.startOn h tl n k = (s.updThread (.pk h tl n) fun _ => s.startedThread h tl n k a).updTask h tl k fun x =>
       { x with state := .running, thread := some n.val, resumed := false })) ∧
  (∀ (s : State) (h : Half) (tl : TileIx) (k : Nat), s.pickTask h tl = some (.task k) →
     ∃ x, (k, x) ∈ s.readyTasks h tl ∧ ∀ e ∈ s.readyTasks h tl, e.2.effPrio ≤ x.effPrio)

/-- Confluence releases up to 32 of the oldest completed heads (R265), compares every domain's head with its patience and overtakes a head
that has waited so long (R266, R269), and publishes OLDEST_LIVE (R270, R272). A head waits from its stamp, or from the last load of device
time after it (R80). No checker is armed (R51).

OLDEST_LIVE is at or below every stamp that holds it and 16 ticks or more below DTS, and it is one of these (R270). -/
def Obligations.OrderRestored : Prop :=
  ((∀ (s : State) (h : Half), s.armed = [] → s.live (.half h) = true →
     exec (.confluenceRelease h) s = .next (s.releaseUpTo h 32) ∧
     (s.releasable h = none → exec (.confluenceRelease h) s = .next s) ∧
     (∀ d e r u, s.releasable h = some d → s.domWin h d = e :: r → u = (s.setDomWin h d r).releaseOrdered h (Fin.ofNat 16 e.1) e.2 false →
       u.releasable h = none → exec (.confluenceRelease h) s = .next u)) ∧
   (∀ (s : State) (h : Half) (d : Nat) (e : Nat × Nat) (r : List (Nat × Nat)) (n : Nat), s.releasable h = some d → s.domWin h d = e :: r →
     s.releaseUpTo h (n + 1) = ((s.setDomWin h d r).releaseOrdered h (Fin.ofNat 16 e.1) e.2 false).releaseUpTo h n) ∧
   (∀ (s u : State) (h : Half), s.live (.half h) = true → u = ((s.conf.get h).windows.map (·.1)).foldl (State.checkDomain h) s →
     ((u.conf.get h).windows ≠ (s.conf.get h).windows → exec (.patienceCheck h) s = .next (u.releaseUpTo h 32)) ∧
     ((u.conf.get h).windows = (s.conf.get h).windows → exec (.patienceCheck h) s = .next u)) ∧
   (∀ (s : State) (h : Half) (d : Nat) (e : Nat × Nat) (r : List (Nat × Nat)), s.live (.half h) = true →
     (s.conf.get h).windows = [(d, e :: r)] →
     ((s.windowTask h e).complete = false → s.patience h d ≤ s.headWait h (s.windowTask h e).stamp.toNat →
       exec (.patienceCheck h) s = .next ((s.overtake h d R.half_OVERTAKEN_PATIENCE).releaseUpTo h 32)) ∧
     ((s.windowTask h e).complete = true ∨ s.headWait h (s.windowTask h e).stamp.toNat < s.patience h d →
       exec (.patienceCheck h) s = .next s)) ∧
   (∀ (s : State) (h : Half) (d : Nat) (e : Nat × Nat) (r : List (Nat × Nat)), s.domWin h d = e :: r →
     ((s.windowTask h e).complete = false → s.patience h d ≤ s.headWait h (s.windowTask h e).stamp.toNat →
       State.checkDomain h s d = s.overtake h d R.half_OVERTAKEN_PATIENCE) ∧
     ((s.windowTask h e).complete = true ∨ s.headWait h (s.windowTask h e).stamp.toNat < s.patience h d → State.checkDomain h s d = s)) ∧
   (∀ (s : State) (h : Half) (d : Nat) (e : Nat × Nat) (r : List (Nat × Nat)) (c : Nat), Tbl.wf s.csr = true →
     Tbl.wf (s.conf.get h).windows = true → s.domWin h d = e :: r → (c = R.half_OVERTAKEN_PATIENCE ∨ c = R.half_WINDOW_OVERTAKEN) →
     ∃ t, t = s.overtake h d c ∧ t.domWin h d = r ∧ t.reg (bHalf h) c = s.reg (bHalf h) c + 1 ∧
       t = { s with csr := t.csr, conf := t.conf, tiles := t.tiles }) ∧
   (∀ (s : State) (h : Half) (x : Nat),
     (s.dev.loadTick = none → s.headWait h x = (s.dts h).toNat - x) ∧
     (∀ n v, s.dev.loadTick = some (n, v) → s.headWait h x = (s.dts h).toNat - max x v.toNat)) ∧
   (∀ (s : State) (h : Half), s.live (.half h) = true → Tbl.wf s.csr = true →
     ∃ t, exec (.oldestLiveSample h) s = .next t ∧ t.reg (bHalf h) R.half_OLDEST_LIVE = BitVec.ofNat 64 (s.oldestLive h) ∧
       t = { s with csr := t.csr })) ∧
  (∀ (s : State) (h : Half),
     (∀ x ∈ s.holders h, s.oldestLive h ≤ x) ∧ s.oldestLive h ≤ (s.dts h).toNat - 16 ∧
     (s.oldestLive h ∈ s.holders h ∨ s.oldestLive h = (s.dts h).toNat - 16))

/-- An image switch: ARM with a stamp at least 64 ticks ahead and below 2⁶⁰ arms an IDLE half, any other ARM counts REFUSED, DISARM ends
ARMED, DTS at SW inverts NEW_BANK, and RETIRE_BASIS at SW ends DRAINING (R274).

A posted service set adds its flags to an enabled slot and none to a disabled one (R262, R263); a write that enables a slot zeroes its
context block (R260). -/
def Obligations.ImageSwitchAndServices : Prop :=
  ((∀ (s : State) (a : Agent) (h : Half), s.agentReach a (.half h) = true → s.imgState h = 0 →
     (s.dts h).toNat + 64 ≤ (s.reg (bHalf h) R.half_IMG_SWITCH_AT).toNat → (s.reg (bHalf h) R.half_IMG_SWITCH_AT).toNat < 2 ^ 60 →
     exec (.imgArm a h) s = .next ((s.setRfld (bHalf h) R.half_IMG_CTL 4 2 1).updIng h fun i =>
       { i with imgNext := s.reg (bHalf h) R.half_IMG_SWITCH_AT })) ∧
   (∀ (s : State) (a : Agent) (h : Half), s.agentReach a (.half h) = true →
     (s.imgState h ≠ 0 ∨ (s.reg (bHalf h) R.half_IMG_SWITCH_AT).toNat < (s.dts h).toNat + 64 ∨
       2 ^ 60 ≤ (s.reg (bHalf h) R.half_IMG_SWITCH_AT).toNat) →
     exec (.imgArm a h) s = .next
       (s.setRfld (bHalf h) R.half_IMG_CTL 48 16 (satTo (s.rfld (bHalf h) R.half_IMG_CTL 48 16 + 1) 0xFFFF))) ∧
   (∀ (s : State) (a : Agent) (h : Half), s.agentReach a (.half h) = true → s.imgState h = 1 →
     exec (.imgDisarm a h) s = .next (s.setRfld (bHalf h) R.half_IMG_CTL 4 2 0)) ∧
   (∀ (s : State) (h : Half), Tbl.wf s.csr = true → s.imgState h = 1 → (s.ing.get h).imgNext.toNat ≤ (s.dts h).toNat →
     ∃ t, exec (.imgSwitch h) s = .next t ∧ t.imgState h = 2 ∧
       t.rfld (bHalf h) R.half_IMG_CTL 0 1 = 1 - s.rfld (bHalf h) R.half_IMG_CTL 0 1 ∧
       (t.ing.get h).imgLast = (s.ing.get h).imgNext ∧
       t = { s with csr := t.csr, ing := t.ing }) ∧
   (∀ (s : State) (h : Half), Tbl.wf s.csr = true → s.imgState h = 2 → (s.ing.get h).imgLast.toNat ≤ s.retireBasis h →
     ∃ t, exec (.imgDrainEnd h) s = .next t ∧ t.imgState h = 0 ∧
       t = { s with csr := t.csr })) ∧
  ((∀ (s : State) (a : Agent) (h : Half) (tl : TileIx) (j : Fin 32) (m : Word), s.agentReach a (.tile h tl) = true → Tbl.wf s.csr = true →
     bit (s.reg (bTsched h tl) (R.tsched_SVC_CFG + 8 * j.val)) 0 = true →
     ∃ t, exec (.svcPostWrite a h tl j m) s = .next t ∧
       t.reg (bTsched h tl) (R.tsched_SVC_FLAGS + 8 * j.val) =
         BitVec.ofNat 64 (BitVec.ofNat 32 (s.rfld (bTsched h tl) (R.tsched_SVC_FLAGS + 8 * j.val) 0 32) ||| m).toNat ∧
       t = { s with csr := t.csr }) ∧
   (∀ (s : State) (a : Agent) (h : Half) (tl : TileIx) (j : Fin 32) (m : Word),
     bit (s.reg (bTsched h tl) (R.tsched_SVC_CFG + 8 * j.val)) 0 = false → exec (.svcPostWrite a h tl j m) s = .next s) ∧
   (∀ (s : State) (a : Agent) (h : Half) (tl : TileIx) (j : Fin 32) (v : DWord), s.agentReach a (.tile h tl) = true → bit v 0 = true →
     bit (s.reg (bTsched h tl) (R.tsched_SVC_CFG + 8 * j.val)) 0 = false →
     exec (.svcEnableWrite a h tl j v) s = .next
       ((s.setReg (bTsched h tl) (R.tsched_SVC_CFG + 8 * j.val)
         (BitVec.ofNat 64 (fld v 32 32 <<< 32 ||| fld v 8 8 <<< 8 ||| fld v 4 3 <<< 4 ||| fld v 0 1))).updTile h tl
         fun y => y.put (.store (ctxOff (svcBase + j.val))) (List.replicate 128 0))))

/-- The messages of Ford wait in the other half's queue for that message and leave it in order: OLDEST_LIVE in table-sync notices (R222),
the ports' link state in heartbeats (R520, R531), and fatal notices (R531).

A crossing record leaves with credit for its whole length and takes it (R524); its receipt acknowledges it and counts it; the
acknowledgement gives the credits back and ends the crossing, and one for a record already released gives its credits alone (R26, R532). A
record whose frame cannot be read whole is discarded under ERROR_DROP of its port (R443, R464, R465). -/
def Obligations.FordTraffic : Prop :=
  ((∀ (s : State) (h : Half), s.fordUp h = true →
     exec (.heartbeatSend h) s = .next (s.updFord (other h) fun f => { f with heartbeatsIn := f.heartbeatsIn ++ [BitVec.ofNat 64 (s.portBits h)] }) ∧
     (s.live (.half h) = true → exec (.tableSyncNoticeSend h) s =
       .next (s.updFord (other h) fun f => { f with noticesIn := f.noticesIn ++ [BitVec.ofNat 64 (s.published h)] }))) ∧
   (∀ (s : State) (h : Half) (v : DWord) (r : List DWord), (s.ford.get h).noticesIn = v :: r →
     ∃ t, exec (.tableSyncNoticeReceive h) s = .next t ∧ (t.ford.get h).noticesIn = r ∧ (t.conf.get h).remote = v ∧
       t = { s with ford := t.ford, conf := t.conf, tab := t.tab } ∧ t.ford.get (other h) = s.ford.get (other h)) ∧
   (∀ (s : State) (h : Half) (v : DWord) (r : List DWord), (s.ford.get h).heartbeatsIn = v :: r →
     exec (.heartbeatReceive h) s = .next
       (s.updFord h fun f => { f with heartbeatsIn := r, lastHeartbeat := some s.ticks, peerPorts := v.toNat })) ∧
   (∀ (s : State) (h : Half), (s.ford.get h).fatalIn = true →
     exec (.fatalNoticeReceive h) s = .next (s.updFord h fun f => { f with fatalIn := false, fatalSeen := true })) ∧
   (∀ (s : State) (h : Half) (k : List Byte) (n p : Nat) (r : List (List Byte × Nat × Nat)), (s.ford.get h).learnIn = (k, n, p) :: r →
     s.learnEn h = true →
     ∃ t, exec (.learnShareNotice h) s = .next t ∧ (t.ford.get h).learnIn = r ∧ (t.tab.get h).examine = (s.tab.get h).examine ++ [(k, p)] ∧
       t = { s with ford := t.ford, tab := t.tab } ∧ t.tab.get (other h) = s.tab.get (other h))) ∧
  ((∀ (s : State) (h : Half) (r : CrossRec) (rest : List CrossRec), Tbl.wf s.csr = true → s.fordUp h = true →
     (s.ford.get h).waiting = r :: rest → r.credits ≤ (s.ford.get h).credits → s.unreadable h r.chain = false →
     ∃ t, exec (.crossingSend h) s = .next t ∧
       (t.ford.get h).waiting = rest ∧ (t.ford.get h).flight = (s.ford.get h).flight ++ [r] ∧
       (t.ford.get h).credits + r.credits = (s.ford.get h).credits ∧
       (t.ford.get (other h)).cellsIn = (s.ford.get (other h)).cellsIn ++ [r] ∧
       t.reg (bFord h) R.ford_CROSS_SENT = s.reg (bFord h) R.ford_CROSS_SENT + 1 ∧
       t = { s with csr := t.csr, ford := t.ford }) ∧
   (∀ (s : State) (h : Half) (r : CrossRec) (rest : List CrossRec), s.fordUp h = true → (s.ford.get h).waiting = r :: rest →
     r.credits ≤ (s.ford.get h).credits → s.unreadable h r.chain = true → exec (.crossingSend h) s = .next
       (((s.pointerFault h r.chain).bumpPort (egressHalf h r.port) (lpOf r.port) pcError).endCrossing h r.chain)) ∧
   (∀ (s : State) (h : Half) (r : CrossRec) (rest : List CrossRec), (s.ford.get h).waiting = r :: rest →
     (s.ford.get h).credits < r.credits → exec (.crossingSend h) s = .next s) ∧
   (∀ (s : State) (h : Half) (r : CrossRec) (rest : List CrossRec), s.live (.buffer h) = true → s.live (.ford h) = true →
     (s.ford.get h).cellsIn = r :: rest →
     exec (.crossingReceipt h) s = .next
       ((((((s.updFord h fun f => { f with cellsIn := rest }).takeCrossing h r).examineFrom h r.frame.learnKey r.frame.inPort).updFord (other h)
         fun f => { f with acksIn := f.acksIn ++ [(r.chain, r.credits)] }).bump (bFord h) R.ford_CROSS_RECEIVED))) ∧
   (∀ (s : State) (h : Half) (id k : Nat) (rest : List (Nat × Nat)), (s.ford.get h).acksIn = (id, k) :: rest →
     ((s.ford.get h).flight.any fun r => r.chain = id) = false →
     exec (.crossingAck h) s = .next (s.updFord h fun f => { f with acksIn := rest, credits := satTo (f.credits + k) fordCredits })) ∧
   (∀ (s : State) (h : Half) (id k : Nat) (rest : List (Nat × Nat)), (s.ford.get h).acksIn = (id, k) :: rest →
     ((s.ford.get h).flight.any fun r => r.chain = id) = true →
     exec (.crossingAck h) s = .next
       ((s.updFord h fun f => { f with acksIn := rest, credits := satTo (f.credits + k) fordCredits }).endCrossing h id)))

/-- Training brings LINK_UP with the bundles enabled at both ends that have at most two failed lanes, the others are fenced (R527, R530); a
flit is good when its CRC holds and its header follows that of the last good flit, and a bad one is counted and replayed (R522, R526);
LINK_UP falls with FORD_DOWN once no good flit has come for 1 µs or no bundle is up (R529); a lane with more than 16 bit errors in a second
fails (R528), and its repair takes a spare lane of its bundle.

A half that has its peer and no longer meets the conditions of R531 loses it, with FORD_PEER_LOST and the actions of R532; one that
meets them again has it back, RETIRE_BASIS held until the first notice (R533). -/
def Obligations.FordLinkAndPeer : Prop :=
  ((∀ (s : State) (h : Half), s.dev.devState ≠ .start → s.fordTrains = true → (s.ford.get h).linkUp = false →
     ∃ t, exec (.fordTrainingDone h []) s = .next t ∧
       ((∀ b, tget 0 (s.ford.get h).sparesUsed b ≤ 2) →
         (t.ford.get h).bundlesUp = s.bundlesEnabled &&& (65535 - (s.ford.get h).fenced % 65536)) ∧
       ((t.ford.get h).linkUp = true ↔ (t.ford.get h).bundlesUp ≠ 0) ∧ (t.ford.get h).credits = 2048 ∧
       (t.ford.get h).waiting = (s.ford.get h).waiting ∧ (t.ford.get h).lastGood = s.ticks ∧
       t = { s with csr := t.csr, ford := t.ford, pv := t.pv, fresh := s.fresh + 1 } ∧ t.ford.get (other h) = s.ford.get (other h)) ∧
   (∀ (s : State) (h : Half) (l : List (Fin 16 × Fin 64)) (b : Fin 16), s.dev.devState ≠ .start → s.fordTrains = true →
     (s.ford.get h).linkUp = false → l.Nodup →
     s.bundlesEnabled.testBit b.val = true → (s.ford.get h).fenced.testBit b.val = false →
     ∃ t, exec (.fordTrainingDone h l) s = .next t ∧
       (2 < tget 0 (s.ford.get h).sparesUsed b.val + (l.filter fun e => e.1 = b).length →
         (t.ford.get h).bundlesUp.testBit b.val = false ∧ (t.ford.get h).fenced.testBit b.val = true) ∧
       (tget 0 (s.ford.get h).sparesUsed b.val + (l.filter fun e => e.1 = b).length ≤ 2 → (t.ford.get h).bundlesUp.testBit b.val = true)) ∧
   (∀ (s : State) (h : Half) (l : List (Fin 16 × Fin 64)), s.fordTrains = true → s.dev.devState = .start → s.startStep = 9 →
     exec (.fordTrainingDone h l) s = .next (((doFordTrained h (l.map fun e => (e.1.val, e.2.val)) s).updStart fun x =>
       { x with fordDone := x.fordDone.filter (· ≠ h.val) ++ [h.val] }).seqOn)) ∧
   (∀ (s : State) (h : Half) (x : FordFlit), s.fordUp h = true → (s.ford.get h).bundlesUp.testBit x.bundle.val = true →
     ((s.ford.get h).goodFlit x = true → exec (.fordFlitReceive h x) s = .next (s.updFord h fun f =>
       { f with headers := tput f.headers x.bundle.val (x.bytes.take 8), lastGood := s.ticks })) ∧
     ((s.ford.get h).goodFlit x = false → Tbl.wf s.csr = true → ∃ t, exec (.fordFlitReceive h x) s = .next t ∧
       t.reg (bFord (other h)) R.ford_FLIT_REPLAYS = s.reg (bFord (other h)) R.ford_FLIT_REPLAYS + 1 ∧ t = { s with csr := t.csr })) ∧
   (∀ (f : FordState) (x : FordFlit), (fordCrcOk x = false → f.goodFlit x = false) ∧
     (fordCrcOk x = true → tget? f.headers x.bundle.val = none → f.goodFlit x = true)) ∧
   (∀ (s : State) (h : Half), (s.ford.get h).linkUp = true → ((s.ford.get h).bundlesUp = 0 ∨ (s.ford.get h).lastGood + 1500 ≤ s.ticks) →
     exec (.fordLinkDown h) s = .next ((s.runFree.updFord h fun f => { f with linkUp := false, bundlesUp := 0, repairing := [] }).report
       (.ford h) F.FORD_DOWN)) ∧
   (∀ (s : State) (h : Half), (s.ford.get h).bundlesUp ≠ 0 → s.ticks < (s.ford.get h).lastGood + 1500 →
     exec (.fordLinkDown h) s = .next s) ∧
   (∀ (s : State) (h : Half) (b : Fin 16) (l e : Nat), s.fordUp h = true → (s.ford.get h).bundlesUp.testBit b.val = true → l < 64 → 16 < e →
     exec (.fordLaneCheck h b l e) s = .next
       ((s.updFord h fun f => { f with laneErrors := tset [] f.laneErrors (64 * b.val + l) [] }).laneFails h b.val l)) ∧
   (∀ (s : State) (h : Half) (b : Fin 16) (l e : Nat), s.fordUp h = true → (s.ford.get h).bundlesUp.testBit b.val = true → l < 64 → e ≤ 16 →
     tget [] (s.ford.get h).laneErrors (64 * b.val + l) = [] →
     ∃ t, exec (.fordLaneCheck h b l e) s = .next t ∧ (t.ford.get h).repairing = (s.ford.get h).repairing ∧
       (t.ford.get h).bundlesUp = (s.ford.get h).bundlesUp ∧ t = { s with ford := t.ford }) ∧
   (∀ (s : State) (h : Half) (b : Fin 16) (l : Nat), (s.ford.get h).repairing.contains (b.val, l) = true →
     exec (.fordLaneRepairDone h b l) s = .next
       ((((({ (s.updFord h fun f =>
           { f with repairing := f.repairing.filter (fun e => e ≠ (b.val, l)), sparesUsed := tmod 0 f.sparesUsed b.val (· + 1) }) with
         pv := { s.pv with fordLanes := s.pv.fordLanes.upd h fun t => tput t (2 * b.val + tget 0 (s.ford.get h).sparesUsed b.val) l } })).bump
         (bFord h) R.ford_LANES_REPAIRED)).report (.ford h) F.FORD_LANE_REPAIRED))) ∧
  ((∀ (s : State) (h : Half), (s.ford.get h).peerUp = true → s.peerOk h = false →
     exec (.peerLost h) s = .next ((s.report (.ford h) F.FORD_PEER_LOST).losePeerWork h)) ∧
   (∀ (s : State) (h : Half), (s.ford.get h).peerUp = true → s.peerOk h = true → exec (.peerLost h) s = .next s) ∧
   (∀ (s : State) (h : Half), (s.ford.get h).peerUp = false → s.peerOk h = true → (s.ford.get h).lost = false →
     exec (.peerUp h) s = .next (s.updFord h fun f => { f with peerUp := true, lost := false })) ∧
   (∀ (s : State) (h : Half), (s.ford.get h).peerUp = false → s.peerOk h = true → (s.ford.get h).lost = true → Tbl.wf s.csr = true →
     ∃ t, exec (.peerUp h) s = .next t ∧ (t.ford.get h).peerUp = true ∧
       t.reg (bTable h 7) R.version_RETIRE_BASIS = BitVec.ofNat 64 (s.retireBasis h) ∧ (t.tab.get h).noticed = false ∧
       t = { s with csr := t.csr, ford := t.ford, tab := t.tab }) ∧
   (∀ (s : State) (h : Half) (t0 : Nat), (s.ford.get h).lastHeartbeat = some t0 → t0 + 3000 < s.ticks → s.peerOk h = false))

/-- The tests of R445 in order decide a copy for a queue without a deep part: a broken chain, a port that does not accept, a full entry store and the
threshold of R446, each refusal under its counter with the end of the copy's hold; a copy that passes joins its queue.

A replication walk that ended is served to its targets in order, at most 511 of them (R449–R451), and a walk that meets an entry
withheld for its rewrite waits. -/
def Obligations.CopiesQueued : Prop :=
  ((∀ (s : State) (h : Half) (c : Copy) (r : List Copy), (s.buf.get h).copies = c :: r → s.live (.buffer h) = true →
     exec (.admitCopy h) s = .next (((s.updBuf h fun b => { b with copies := r }).takeCopy h c).settleReg h c.chain)) ∧
   (∀ (s : State) (h : Half) (c : Copy), (s.chain h c.chain).broken = true → s.takeCopy h c = s.refuse h c pcError) ∧
   (∀ (s : State) (h : Half) (c : Copy), (s.chain h c.chain).broken = false → s.portAccepts h (c.q / 16) = false →
     s.takeCopy h c = s.refuse h c pcDown) ∧
   (∀ (s : State) (h : Half) (c : Copy), (s.chain h c.chain).broken = false → s.portAccepts h (c.q / 16) = true →
     entryStore ≤ (s.buf.get h).entryCount → s.takeCopy h c = (s.bump (bBuffer h) R.buffer_ENTRY_FULL).release h c.chain) ∧
   (∀ (s : State) (h : Half) (c : Copy), (s.chain h c.chain).broken = false → s.portAccepts h (c.q / 16) = true →
     (s.buf.get h).entryCount < entryStore → bit (s.qcfg h c.q) 8 = false →
     (s.underThreshold h c.q (depthOf (s.queue h c.q)) (s.chain h c.chain).size = false → s.takeCopy h c = s.refuse h c pcThreshold) ∧
     (s.underThreshold h c.q (depthOf (s.queue h c.q)) (s.chain h c.chain).size = true → c.mcast = true →
       s.takeCopy h c = s.admitOnChip h c) ∧
     (s.underThreshold h c.q (depthOf (s.queue h c.q)) (s.chain h c.chain).size = true → c.mcast = false →
       (s.poolFree h (fld (s.qcfg h c.q) 10 2) < (s.chain h c.chain).size → s.takeCopy h c = s.refuse h c pcPool) ∧
       ((s.chain h c.chain).pool = fld (s.qcfg h c.q) 10 2 → (s.chain h c.chain).size ≤ s.poolFree h (fld (s.qcfg h c.q) 10 2) →
         s.takeCopy h c = s.admitOnChip h c) ∧
       ∀ s1, s.moveCharge h c.chain (fld (s.qcfg h c.q) 10 2) = (s1, true) →
         (s.chain h c.chain).size ≤ s.poolFree h (fld (s.qcfg h c.q) 10 2) → s.takeCopy h c = s1.admitOnChip h c)) ∧
   (∀ (s : State) (h : Half) (q d n : Nat),
     s.underThreshold h q d n = true ↔
       (d + n ≤ fld (s.qcfg h q) 16 16 ∨ d + n ≤ alphaTimes (fld (s.qcfg h q) 12 4) (s.poolFree h (fld (s.qcfg h q) 10 2))))) ∧
  ((∀ (s : State) (h : Half) (w : WalkReq) (r : List WalkReq), (s.buf.get h).walks = w :: r → s.live (.buffer h) = true →
     (s.replWalk h (s.chain h w.chain) w.list).waits = false → (s.replWalk h (s.chain h w.chain) w.list).broke = false →
     w.list < 131072 →
     exec (.replWalk h) s = .next (((s.updBuf h fun b => { b with walks := r }).replicate h w.chain w.list
       (s.replWalk h (s.chain h w.chain) w.list).targets).settleReg h w.chain)) ∧
   (∀ (s : State) (h : Half) (w : WalkReq) (r : List WalkReq), (s.buf.get h).walks = w :: r →
     (s.replWalk h (s.chain h w.chain) w.list).waits = true → exec (.replWalk h) s = .next s) ∧
   (∀ (s : State) (h : Half) (c : Chain) (l : Nat), (s.replWalk h c l).targets.length ≤ 1024) ∧
   (∀ (s : State) (h : Half) (id l : Nat), s.replicate h id l [] = s.freeChain h id) ∧
   (∀ (s : State) (h : Half) (id l : Nat) (ts : List Target), 511 < ts.length →
     s.replicate h id l ts = (s.bump (bBuffer h) R.buffer_REPL_TRUNCATED).replicate h id l (ts.take 511)))

/-- One holder of a chain lets go (R442, R443): the last one frees every cell, an earlier one leaves REFCNT one less, and a decrement of a
chain that has no holder opens BUF_REFCNT and changes no cell.

Deep queues: the last write of a spilled copy ends its hold (R457), a fill reads the front copy back, a fill that finds no cells is
tried again 1 µs later and counted (R441, R458), and one whose HBM access has to wait changes nothing (R502); a copy that cannot be read
whole is discarded under ERROR_DROP (R443, R464, R465). The sweep frees a broken chain that nothing names, and a cell of no chain (R438). No
checker is armed (R51).

A hold that expires while its port is still down becomes a flush (R462), and a flush discards one on-chip entry at a time under its
counter, ending when the port's queues are empty. -/
def Obligations.CellsGivenBack : Prop :=
  (∀ (s : State) (h : Half) (id : Nat) (c : Chain), s.chain? h id = some c →
     (c.refcnt = 0 → s.release h id = s.report (.buffer h) F.BUF_REFCNT (nth 0 c.cells 0)) ∧
     (c.refcnt = 1 → c.broken = false → Tbl.wf (s.buf.get h).chains = true →
       (s.release h id).chain? h id = none ∧ s.release h id = { s with buf := (s.release h id).buf } ∧
       ((s.release h id).buf.get h).queues = (s.buf.get h).queues ∧ (s.release h id).buf.get (other h) = s.buf.get (other h)) ∧
     (1 < c.refcnt → Tbl.wf (s.buf.get h).chains = true →
       (s.release h id).chain? h id = some { c with refcnt := c.refcnt - 1 } ∧ s.release h id = { s with buf := (s.release h id).buf } ∧
       (s.release h id).buf.get (other h) = s.buf.get (other h))) ∧
  ((∀ (s u : State) (h : Half) (q : Fin 1088) (x : SpillEntry) (id : Nat), s.armed = [] →
     (s.spill h q.val).find? (fun x => x.writing.isSome) = some x → x.writing = some id → s.unreadable h id = false →
     u = ((s.used.writeBlocks h (spillImage s.fresh x.frame) x.blocks 0).setSpill h q.val
         (((s.used.writeBlocks h (spillImage s.fresh x.frame) x.blocks 0).spill h q.val).map fun y =>
           if y.blocks = x.blocks then { y with writing := none } else y)).release h id →
     (u.waits = s.waits → exec (.spillWriteAccepted h q) s = .next u) ∧ (u.waits ≠ s.waits → exec (.spillWriteAccepted h q) s = .next s)) ∧
   (∀ (s u : State) (h : Half) (q : Fin 1088) (x : SpillEntry) (id : Nat), s.armed = [] →
     (s.spill h q.val).find? (fun x => x.writing.isSome) = some x → x.writing = some id → s.unreadable h id = true →
     u = (s.setSpill h q.val ((s.spill h q.val).filter fun y => y.writing ≠ some id)).errorDrop h h (q.val / 16) id → u.waits = s.waits →
     exec (.spillWriteAccepted h q) s = .next u) ∧
   (∀ (s u : State) (h : Half) (q : Fin 1088) (x : SpillEntry), s.armed = [] → s.fillable h q.val = some x →
     tget? (s.buf.get h).fillRetry q.val = none → u = s.fillFront h q.val x →
     (u.waits = s.waits → exec (.spillFill h q) s = .next u) ∧ (u.waits ≠ s.waits → exec (.spillFill h q) s = .next s)) ∧
   (∀ (s u : State) (h : Half) (q : Fin 1088) (x : SpillEntry) (t : Nat), s.armed = [] → s.fillable h q.val = some x →
     tget? (s.buf.get h).fillRetry q.val = some t → t ≤ s.ticks → u = (s.bump (bBuffer h) R.buffer_FILL_RETRIES).fillFront h q.val x →
     (u.waits = s.waits → exec (.fillRetry h q) s = .next u) ∧ (u.waits ≠ s.waits → exec (.fillRetry h q) s = .next s)) ∧
   (∀ (s : State) (h : Half) (q : Nat) (x : SpillEntry), (x.blocks.any fun i => decide (s.spillSize h ≤ i)) = false →
     s.canTake h (fld (s.qcfg h q) 10 2) x.entry.cells = false →
     s.fillFront h q x = s.updBuf h fun b => { b with fillRetry := tput b.fillRetry q (s.ticks + 1500) }) ∧
   (∀ (s : State) (h : Half) (cell : Fin 786432) (e : Nat × Chain), s.live (.buffer h) = true →
     ((s.buf.get h).chains.find? fun e => (e.2.cells ++ e.2.ocells).contains cell.val) = some e → e.2.broken = true →
     s.chainNamed h e.1 = false →
     exec (.reclaimVisit h cell) s = .next (((s.freeChain h e.1).bump (bBuffer h) R.buffer_RECLAIMED).report (.buffer h) F.BUF_RECLAIM)) ∧
   (∀ (s : State) (h : Half) (cell : Fin 786432) (x : LostCell), s.live (.buffer h) = true → s.chainWith h cell.val = none →
     (s.buf.get h).lost.find? (fun x => decide (x.cell = cell.val)) = some x →
     exec (.reclaimVisit h cell) s = .next (s.reclaimLost h x)) ∧
   (∀ (s u : State) (h : Half) (x : LostCell), ((s.buf.get h).chains.any fun e => decide (nth 0 e.2.cells 0 = x.owner)) = false →
     u = (s.updBuf h fun b => { (b.uncharge x.pool 1) with
       lost := b.lost.filter (fun y => decide (y.cell ≠ x.cell)), badCells := b.badCells.filter (· ≠ x.cell) }) →
     s.reclaimLost h x = if (u.buf.get h).lost.any fun y => decide (y.owner = x.owner) then u
       else (u.bump (bBuffer h) R.buffer_RECLAIMED).report (.buffer h) F.BUF_RECLAIM) ∧
   (∀ (s : State) (h : Half) (cell : Fin 786432) (e : Nat × Chain), s.live (.buffer h) = true →
     ((s.buf.get h).chains.find? fun e => (e.2.cells ++ e.2.ocells).contains cell.val) = some e →
     (e.2.broken = false ∨ s.chainNamed h e.1 = true) → exec (.reclaimVisit h cell) s = .next s)) ∧
  ((∀ (s : State) (h : Half) (p : Fin 68), s.hold h p.val = .hold → tget 0 (s.buf.get h).holdEnd p.val ≤ s.ticks → s.portUp h p.val = false →
     exec (.portHoldExpire h p) s = .next
       (((s.setHold h p.val .flushing).updBuf h fun b => { b with holdEnd := tdel b.holdEnd p.val }).flushEnd h p.val)) ∧
   (∀ (s : State) (h : Half) (p : Fin 68), s.hold h p.val ≠ .hold → exec (.portHoldExpire h p) s = .next s) ∧
   (∀ (s : State) (h : Half) (p : Fin 68) (q : Nat) (e : QEntry) (r : List QEntry), s.hold h p.val = .flushing → s.live (.buffer h) = true →
     (((classesOf p.val).flatMap queuesOf).find? fun q => !(s.queue h q).isEmpty) = some q → s.queue h q = e :: r →
     exec (.portFlushEntry h p) s = .next
       ((((s.withSched h p.val fun s => s.setQueue h q r).bumpPort h p.val pcFlush).release h e.chain).flushEnd h p.val)) ∧
   (∀ (s : State) (h : Half) (lp : Nat), s.hold h lp = .flushing → s.portEmpty h lp = true →
     s.flushEnd h lp = s.setHold h lp (if s.portUp h lp then .up else .empty)))

/-- A port scheduler that is ready selects the head of the queue that R472 and R473 pick: the head leaves its queue, the tags and buckets
take its charge, and the frame waits for the rewrite engine; a frame longer than the port sends is dropped under TX_OVERSIZE (R488), one with
a bad chain under ERROR_DROP (R443, R465), and a virtual port that cannot take its frame selects none (R471). No checker is armed (R51).

The rewrite engine makes the first selected frame that is not made (R486); a frame that cannot be read whole is discarded and counted
(R443, R464, R465, R489).

A made frame of a physical port begins to leave with its FCS appended (R94, R486), once no frame is being sent and no PFC frame is due
(R116), and a frame found unreadable before its first bit is discarded (R464); the read of its last cell ends its hold (R442), with an
inverted FCS where a cell was uncorrectable or in a fenced bank (R464, R465); its last bit takes it off the port (R471). A frame for P128 or
P129 goes to its ring (R490, R624). No checker is armed (R51).

A link attempt that succeeds in a mode the port advertises raises LINK_UP with that mode (R104, R678), a configuration that R103 does
not accept sets CFG_ERR, and LINK_DOWN clears the status bits (R106). A refill tops a node's bucket up (R476, R477). -/
def Obligations.FramesLeave : Prop :=
  ((∀ (s r : State) (h : Half) (p : Fin 68) (k q : Nat) (e : QEntry) (rest : List QEntry), s.armed = [] → s.live (.sched h) = true →
     r = s.schedRefresh h p.val (s.nonEmpty h p.val) → r.portReady h p.val = true → r.pickClass h p.val = some k → r.pickQueue h k = some q →
     r.queue h q = e :: rest → (64 ≤ p.val → r.vportReady h p.val e.chain = true) →
     (r.chainBad h e.chain = true →
       exec (.schedSelect h p) s = .next ((r.withSched h p.val fun s => s.setQueue h q rest).errorDrop h h p.val e.chain)) ∧
     (r.chainBad h e.chain = false → loutOf p.val (r.chain h e.chain).outLen ≤ r.egressMax h p.val → exec (.schedSelect h p) s = .next (r.selectHead h q e rest)) ∧
     (r.chainBad h e.chain = false → r.egressMax h p.val < loutOf p.val (r.chain h e.chain).outLen →
       exec (.schedSelect h p) s = .next ((r.dropHead h q e rest).bumpTx h p.val txOversize 1))) ∧
   (∀ (s r : State) (h : Half) (p : Fin 68) (k q : Nat) (e : QEntry) (rest : List QEntry), s.armed = [] → s.live (.sched h) = true →
     r = s.schedRefresh h p.val (s.nonEmpty h p.val) → r.pickClass h p.val = some k → r.pickQueue h k = some q → r.queue h q = e :: rest →
     64 ≤ p.val → r.vportReady h p.val e.chain = false → exec (.schedSelect h p) s = .next r) ∧
   (∀ (s : State) (h : Half) (q : Nat) (e : QEntry) (rest : List QEntry), Tbl.wf (s.sched.get h).sel = true →
     ∃ f, f.entry = e ∧ f.q = q ∧ f.bytes = none ∧ f.started = false ∧ f.selDts = s.dts h ∧
       (s.selectHead h q e rest).sels h (q / 16) =
         (s.withSched h (q / 16) fun s => (s.selectTags h q (s.charged h (q / 16) (loutOf (q / 16) (s.chain h e.chain).outLen))).setQueue h q
           rest).sels h (q / 16) ++ [f]) ∧
   (∀ (n : Nat), loutOf 0 n = (if n < 60 then 64 else n + 4) ∧ loutOf 64 n = n)) ∧
  ((∀ (s : State) (h : Half) (p : Fin 68) (f : Sel), s.live (.sched h) = true → (s.sels h p.val).find? Sel.raw = some f →
     s.unreadable h f.entry.chain = false →
     exec (.rewriteFrame h p) s = .next ((s.rewriteBytes h p.val f.entry).1.setSels h p.val
       (updFirst Sel.raw (fun x => { x with bytes := some (s.rewriteBytes h p.val f.entry).2.1, ceApplied := (s.rewriteBytes h p.val f.entry).2.2 })
         ((s.rewriteBytes h p.val f.entry).1.sels h p.val)))) ∧
   (∀ (s : State) (h : Half) (p : Fin 68) (f : Sel), s.live (.sched h) = true → (s.sels h p.val).find? Sel.raw = some f →
     s.unreadable h f.entry.chain = true →
     exec (.rewriteFrame h p) s = .next
       ((s.setSels h p.val (dropFirstSel Sel.raw (s.sels h p.val))).errorDrop h h p.val f.entry.chain)) ∧
   (∀ (s : State) (h : Half) (lp id : Nat), s.chainUncorrectable h id = true → s.chainBad h id = false →
     s.unreadable h id = true ∧ s.errorDrop h h lp id = ((s.pointerFault h id).bumpPort h lp pcError).release h id) ∧
   (∀ (s : State) (h : Half) (lp : Nat) (e : QEntry), e.vidEn = false → e.ce = false →
     s.rewriteBytes h lp e = (s, padFrame (applyODesc (s.chain h e.chain).bytes (parseODesc (s.chain h e.chain).odesc).ops), false))) ∧
  ((∀ (s : State) (h : Half) (p : Fin 68) (f : Sel), p.val < 64 → s.live (.sched h) = true → s.portUp h p.val = true →
     ((s.sels h p.val).any fun f => f.started && !f.ended) = false → (s.sels h p.val).find? Sel.made = some f →
     s.pfcDue h p.val = false → s.unreadable h f.entry.chain = false →
     (parseODesc (s.chain h f.entry.chain).odesc).ops.find? EditOp.ptp = none →
     ∃ t, exec (.frameTransmit h p) s = .next t ∧
       t = ((s.firstBit h p.val f).ptpOp (portOf h p.val) (parseODesc (s.chain h f.entry.chain).odesc) (f.bytes.getD [])).1.setSels h p.val
         (updFirst Sel.made (fun x => { x with started := true, bytes := some (f.bytes.getD [] ++ leBytes 4 (crcFcs.of (f.bytes.getD []))) })
           ((s.firstBit h p.val f).sels h p.val))) ∧
   (∀ (s : State) (h : Half) (p : Fin 68) (f : Sel), p.val < 64 ∨ 66 ≤ p.val → s.live (.sched h) = true → s.portUp h p.val = true →
     ((s.sels h p.val).any fun f => f.started && !f.ended) = false → (s.sels h p.val).find? Sel.made = some f →
     s.pfcDue h p.val = false → s.unreadable h f.entry.chain = true →
     exec (.frameTransmit h p) s = .next
       ((s.setSels h p.val (dropFirstSel Sel.made (s.sels h p.val))).errorDrop h h p.val f.entry.chain)) ∧
   (∀ (s : State) (h : Half) (p : Fin 68), s.pfcDue h p.val = true → exec (.frameTransmit h p) s = .next s) ∧
   (∀ (s : State) (h : Half) (p : Fin 68) (f : Sel), (s.sels h p.val).find? Sel.reading = some f →
     (s.unreadable h f.entry.chain = false →
       exec (.transmitReadEnd h p) s = .next
         ((s.setSels h p.val (updFirst Sel.reading (fun x => { x with readDone := true }) (s.sels h p.val))).release h f.entry.chain)) ∧
     (s.chainUncorrectable h f.entry.chain = true →
       exec (.transmitReadEnd h p) s = .next
         (((s.setSels h p.val (updFirst Sel.reading (fun x => { x.spoil p.val with readDone := true }) (s.sels h p.val))).bumpPort h p.val
           pcStomped).release h f.entry.chain)) ∧
     (s.chainUncorrectable h f.entry.chain = false → s.chainBad h f.entry.chain = true →
       exec (.transmitReadEnd h p) s = .next
         ((s.setSels h p.val (updFirst Sel.reading (fun x => { x.spoil p.val with readDone := true }) (s.sels h p.val))).errorDrop h h p.val
           f.entry.chain))) ∧
   (∀ (f : Sel) (lp : Nat) (g : List Byte) (w : Nat), lp < 64 → f.stomp = false → f.bytes = some (g ++ leBytes 4 w) →
     (f.spoil lp).stomp = true ∧ (f.spoil lp).bytes = some (g ++ leBytes 4 (2 ^ 32 - 1 - w % 2 ^ 32))) ∧
   (∀ (s : State) (h : Half) (p : Fin 68), p.val ≠ 67 →
     exec (.transmitFrameEnd h p) s = .next (s.setSels h p.val (dropFirstSel Sel.leaving (s.sels h p.val)))) ∧
   (∀ (s t : State) (h : Half) (f : Sel) (r : RingFrame), s.armed = [] → s.live (.sched h) = true → (s.sels h 65).find? Sel.made = some f →
     s.unreadable h f.entry.chain = false →
     r = ⟨f.q - 16 * 65, (s.chain h f.entry.chain).late, (s.chain h f.entry.chain).crossed, (s.chain h f.entry.chain).inPort,
       (s.chain h f.entry.chain).stamp.toNat, f.bytes.getD []⟩ →
     t = (((s.firstBit h 65 f).updPv fun x => { x with p129 := x.p129.upd h fun y => y.put r (s.dts h).toNat }).setSels h 65
           (dropFirstSel Sel.made ((s.firstBit h 65 f).sels h 65))).release h f.entry.chain →
     t.waits = s.waits → exec (.ringDeliver h 1) s = .next t) ∧
   (∀ (s t : State) (h : Half) (f : Sel) (r : RingFrame), s.armed = [] → s.live (.sched h) = true → (s.sels h 64).find? Sel.made = some f →
     s.unreadable h f.entry.chain = false →
     r = ⟨f.q - 16 * 64, (s.chain h f.entry.chain).late, (s.chain h f.entry.chain).crossed, (s.chain h f.entry.chain).inPort,
       (s.chain h f.entry.chain).stamp.toNat, f.bytes.getD []⟩ →
     t = (((s.firstBit h 64 f).ringPut h 0 ⟨.sched, srcTelem, false⟩ r).setSels h 64
           (dropFirstSel Sel.made (((s.firstBit h 64 f).ringPut h 0 ⟨.sched, srcTelem, false⟩ r).sels h 64))).release h f.entry.chain →
     (t.waits = s.waits → exec (.ringDeliver h 0) s = .next t) ∧ (t.waits ≠ s.waits → exec (.ringDeliver h 0) s = .next s)) ∧
   (∀ (s : State) (h : Half) (v : Fin 2) (f : Sel), s.armed = [] → s.live (.sched h) = true → (s.sels h (64 + v.val)).find? Sel.made = some f →
     s.unreadable h f.entry.chain = true → ∀ t, t = (s.setSels h (64 + v.val) (dropFirstSel Sel.made (s.sels h (64 + v.val)))).errorDrop h h
       (64 + v.val) f.entry.chain → t.waits = s.waits → exec (.ringDeliver h v) s = .next t) ∧
   (∀ (x : P129Ring) (f : RingFrame) (d : Nat), (x.put f d).tail = x.tail ∧
     (x.put f d).recs.getLast? = some ((ringPlace p129Units x.head f.bytes.length).2.1, f.record d) ∧
     (x.put f d).head = (ringPlace p129Units x.head f.bytes.length).2.2)) ∧
  ((∀ (s : State) (p : PortIx) (m : BitVec 5), Tbl.wf s.csr = true → s.live (.port p) = true → s.linkUp p = false →
     s.rfld (bPort p) R.port_MAC_CFG 24 5 ≠ 0 → s.pv.ioLost.contains (portPll p) = false →
     (s.badPortCfg p = true → ∃ t, exec (.linkAttemptEnd p true m) s = .next t ∧ bit (t.reg (bPort p) R.port_LINK_STAT) 7 = true ∧
       t.linkUp p = false ∧ t = { s with csr := t.csr }) ∧
     (s.badPortCfg p = false → exec (.linkAttemptEnd p false m) s = .next s) ∧
     (s.badPortCfg p = false → bit (s.reg (bPort p) R.port_MAC_CFG) 34 = false → (s.lanesOn p true).isEmpty = false →
       ∃ t, exec (.linkAttemptEnd p true m) s = .next t ∧ t.linkUp p = true ∧
         t.rfld (bPort p) R.port_LINK_STAT 8 5 = s.rfld (bPort p) R.port_MAC_CFG 24 5)) ∧
   (∀ (s : State) (p : PortIx), s.linkUp p = true → Tbl.wf s.csr = true → exec (.linkDown p) s = .next (s.dropLink p)) ∧
   (∀ (s : State) (p : PortIx), s.linkUp p = false → exec (.linkDown p) s = .next s) ∧
   (∀ (s : State) (p : PortIx) (on : Bool), Tbl.wf s.csr = true → s.ustate (.port p) = .active →
     ∃ t, exec (.remoteFaultChange p on) s = .next t ∧ bit (t.reg (bPort p) R.port_LINK_STAT) 6 = on ∧ t = { s with csr := t.csr }) ∧
   (∀ (s : State) (h : Half) (i : Fin 1088), i.val < 1088 →
     exec (.shaperRefill h 0 i) s = .next ((s.setBucket h .queue i.val (s.bucketNow h .queue i.val)).schedRefresh h (i.val / 16)
       (s.nonEmpty h (i.val / 16)))))

/-- A commit now starts over the unit's present subtree (R62); ARM with a stamp already reached starts it at once and otherwise arms the
unit, DISARM clears the arming, and an armed commit starts when DTS reaches COMMIT_AT (R67).

A commit that reaches a unit waits there for its safe point, but counts as applied at a unit in OFF (R62, R66); its application counts
GEN up, takes the stamp, and leaves every unit's state as it was (R63). Each side of a PORT applies at its own safe point, with no frame
under way there, and the commit is applied when both have (R64).

The application of a commit at a unit copies the ST fields of each of its registers from the staging view to the active view and keeps
the register's other fields (R63); FORD_CFG is left out here because R66 adds a condition to it. -/
def Obligations.CommitsApply : Prop :=
  ((∀ (s : State) (a : Agent) (u : UnitId), s.agentReach a u = true → unitPresent u = true →
     (s.commits.all fun c => !(c.todo.isEmpty && c.waiting.isEmpty)) = true →
     exec (.commitNow a u) s = .next { s with commits := s.commits ++ [⟨u, (subtree u).filter unitPresent, [], []⟩] }) ∧
   (∀ (s : State) (a : Agent) (u : UnitId), s.agentReach a u = true →
     (s.dtsOf u).toNat < (s.reg (ownBlk u) R.ucb_COMMIT_AT).toNat → Tbl.wf s.units = true →
     ∃ t, exec (.commitArm a u) s = .next t ∧ (t.unit u).armed = true ∧ t = { s with units := t.units }) ∧
   (∀ (s : State) (a : Agent) (u : UnitId), s.agentReach a u = true →
     (s.reg (ownBlk u) R.ucb_COMMIT_AT).toNat ≤ (s.dtsOf u).toNat →
     exec (.commitArm a u) s = .next ((s.updUnit u fun d => { d with armed := false }).startCommit u)) ∧
   (∀ (s : State) (a : Agent) (u : UnitId), s.agentReach a u = true → Tbl.wf s.units = true →
     ∃ t, exec (.commitDisarm a u) s = .next t ∧ (t.unit u).armed = false ∧ t = { s with units := t.units }) ∧
   (∀ (s : State) (a : Agent) (u : UnitId) (v : DWord), s.agentReach a u = true → Tbl.wf s.csr = true →
     ∃ t, exec (.commitAtWrite a u v) s = .next t ∧ t.reg (ownBlk u) R.ucb_COMMIT_AT = v ∧ t = { s with csr := t.csr }) ∧
   (∀ (s : State) (u : UnitId), (s.unit u).armed = true → (s.reg (ownBlk u) R.ucb_COMMIT_AT).toNat ≤ (s.dtsOf u).toNat →
     exec (.armedCommitStart u) s = .next ((s.updUnit u fun d => { d with armed := false }).startCommit u)) ∧
   (∀ (s : State) (u : UnitId), (s.unit u).armed = false → exec (.armedCommitStart u) s = .next s)) ∧
  ((∀ (s : State) (u : UnitId) (c : CommitRec), s.commits = [c] → c.todo.contains u = true → s.ustate u ≠ .off →
     exec (.commitReach u) s = .next { s with commits := [⟨c.root, c.todo.filter fun v => v ≠ u, c.waiting ++ [u], c.sides⟩] }) ∧
   (∀ (s : State) (u : UnitId) (c : CommitRec), s.commits = [c] → c.todo = [u] → c.waiting = [] → s.ustate u = .off →
     exec (.commitReach u) s = .next { s with commits := [] }) ∧
   (∀ (s : State) (u : UnitId), (s.commits.any fun c => c.waiting.contains u) = true → (s.towardsSafe u).atSafePoint u = true → (∀ h, u ≠ .sched h) →
     Tbl.wf s.units = true →
     ∃ t, exec (.unitCommitApply u) s = .next t ∧
       (t.unit u).gen = (s.unit u).gen + 1 ∧ (t.unit u).stamp = s.dtsOf u ∧ t.ustate u = s.ustate u ∧
       (t.commits.any fun c => c.waiting.contains u) = false ∧
       t = { s with csr := t.csr, units := t.units, commits := t.commits }) ∧
   (∀ (s : State) (u : UnitId), (s.towardsSafe u).atSafePoint u = false → exec (.unitCommitApply u) s = .next (s.towardsSafe u)) ∧
   (∀ (s : State) (u : UnitId), (∀ p, u ≠ .port p) → s.towardsSafe u = s) ∧
   (∀ (s : State) (p : PortIx) (rx : Bool), s.sideIdle p rx = true →
     (s.towardsSafe (.port p)).sideApplied p rx = true ∧ s.towardsSafe (.port p) = { s with commits := (s.towardsSafe (.port p)).commits }) ∧
   (∀ (s : State) (p : PortIx) (rx : Bool), s.live (.port p) = true → s.sideIdle p rx = false →
     (s.towardsSafe (.port p)).sideApplied p rx = s.sideApplied p rx) ∧
   (∀ (s : State) (p : PortIx), (s.sideIdle p true = true ↔ s.arriving p = none) ∧
     (s.sideIdle p false = true ↔ ∀ x ∈ s.sels (portHalf p) (portLocal p), x.started = true → x.ended = true))) ∧
  (∀ (s : State) (u v : UnitId) (b : Blk) (off i : Nat) (r : RegRow), (∀ h, u ≠ .sched h) → b.kind ≠ .ford →
     Tbl.wf s.csr = true → Tbl.wf s.staged = true → blkAt (b.base + off) = some (v, b) → findRow (blkRows b.kind off) off = some (r, i) →
     (s.applyCommit u).reg b off =
       if v = u then (s.reg b off &&& ~~~stBits r.fields) ||| (s.stg b off &&& stBits r.fields) else s.reg b off)

/-- A request that R54 lists and R58 accepts begins its transition; any other is ignored.

A TABLE unit that goes from RESET to ACTIVE reads ACTIVE with the agent's CAUSE and FAULT_SUMMARY.COUNT zero (R45, R48, R54); the entry
of a core is complete with its new state and CAUSE (R56).

Only Privet changes the state of the device: RUN from RECOVERY or from START at the end of its sequence, RECOVERY from RUN (R60). -/
def Obligations.UnitTransitions : Prop :=
  ((∀ (s : State) (a : Agent) (u : UnitId), s.agentReach a u = true → s.requestOpen a u = true → s.boundByParent u = false →
     (s.ustate u = .test ∨ s.ustate u = .active → exec (.requestReset a u) s = .next (s.beginEntry u .reset (agentCause a))) ∧
     (s.ustate u = .fenced → s.heldFenced u = false → exec (.requestReset a u) s = .next (s.beginEntry u .reset (agentCause a))) ∧
     (s.ustate u = .reset ∨ s.ustate u = .active → exec (.requestTest a u) s = .next (s.enterTest u (agentCause a))) ∧
     (s.ustate u = .reset ∨ s.ustate u = .test → s.parentState u = .active →
       exec (.requestActive a u) s = .next (s.enterUp u .active (agentCause a))) ∧
     (s.ustate u = .test ∨ s.ustate u = .active → exec (.requestFence a u) s = .next (s.beginEntry u .fenced (agentCause a))) ∧
     (s.ustate u = .reset ∨ s.ustate u = .test ∨ s.ustate u = .active → mayBeOff u = true →
       exec (.requestOff a u) s = .next (s.beginEntry u .off (agentCause a))) ∧
     (s.ustate u = .active → exec (.activeTree a u) s = .next (s.activeTree u (agentCause a)))) ∧
   (∀ (s : State) (a : Agent) (u : UnitId), s.requestOpen a u = false →
     exec (.requestReset a u) s = .next s ∧ exec (.requestTest a u) s = .next s ∧ exec (.requestActive a u) s = .next s ∧
     exec (.requestFence a u) s = .next s ∧ exec (.requestOff a u) s = .next s ∧ exec (.activeTree a u) s = .next s) ∧
   (∀ (s : State) (a : Agent) (u : UnitId), mayBeOff u = false → exec (.requestOff a u) s = .next s) ∧
   (∀ (s : State) (a : Agent) (u : UnitId), s.ustate u = .fenced ∨ s.ustate u = .off →
     exec (.requestTest a u) s = .next s ∧ exec (.requestActive a u) s = .next s ∧ exec (.requestFence a u) s = .next s ∧
     exec (.activeTree a u) s = .next s)) ∧
  ((∀ (s : State) (h : Half) (n : Fin 8) (c : BitVec 8), Tbl.wf s.units = true → s.ustate (.table h n) = .reset →
     (s.enterUp (.table h n) .active c).ustate (.table h n) = .active ∧ ((s.enterUp (.table h n) .active c).unit (.table h n)).cause = c ∧
     ((s.enterUp (.table h n) .active c).unit (.table h n)).faultCount = 0 ∧
     s.enterUp (.table h n) .active c =
       { s with csr := (s.enterUp (.table h n) .active c).csr, units := (s.enterUp (.table h n) .active c).units }) ∧
   (∀ (s : State) (h : Half) (t : TileIx) (c k : Fin 4) (dest : UState) (cause : BitVec 8), Tbl.wf s.units = true →
     (s.unit (.core h t c k)).entering = some (dest, cause) → ((ancestors (.core h t c k)).any s.entering) = false →
     s.entering (.privet 0) = false →
     ∃ x, exec (.unitEntryComplete (.core h t c k)) s = .next x ∧
       x.ustate (.core h t c k) = dest ∧ (x.unit (.core h t c k)).cause = cause ∧ (x.unit (.core h t c k)).entering = none ∧
       x = { s with units := x.units }) ∧
   (∀ (s : State) (u : UnitId), s.entering u = true → ((ancestors u).any s.entering) = false → s.entering (.privet 0) = false →
     exec (.unitEntryComplete u) s = .next (s.completeEntry u)) ∧
   (∀ (s : State) (u : UnitId), s.entering u = false → exec (.unitEntryComplete u) s = .next s)) ∧
  ((∀ (s : State), (s.startDone = true ∨ s.dev.devState = .recovery) →
     ∃ t, exec (.devRequestRun .privet) s = .next t ∧ t.dev.devState = .run ∧ t.dev.loadPend = false ∧ t = { s with csr := t.csr, dev := t.dev }) ∧
   (∀ (s : State), s.dev.devState = .run →
     ∃ t, exec (.devRequestRecovery .privet) s = .next t ∧ t.dev.devState = .recovery ∧ t = { s with csr := t.csr, dev := t.dev }) ∧
   (∀ (s : State) (a : Agent), a ≠ .privet → exec (.devRequestRun a) s = .next s ∧ exec (.devRequestRecovery a) s = .next s) ∧
   (∀ (s : State) (a : Agent), s.agentReach a .device = true → s.agentOk a .device = true → s.dev.devState = .start →
     ∃ t, exec (.nosReady a) s = .next t ∧ t.pv.start.nosReady = true ∧ t = { s with pv := t.pv }) ∧
   (∀ (s : State) (a : Agent), s.dev.devState ≠ .start → exec (.nosReady a) s = .next s))

/-- An access at a hole, or of a width or an alignment that R39 does not have, writes nothing and is reported as CSR_HOLE at the unit that
holds the address or encloses the hole (R38, R39).

A write of the staging view changes the staged ST fields it covers and no active register (R36, R37).

A write of a register of these blocks sets its RW fields, clears the bits written with 1 of its W1C fields, and leaves its other fields
as they are (R19–R22).

A write of COUNTER.READ_SEL starts a read of that counter (R206); of LEARN_NOTE_CTL or TELEM_CTL with SIZE_LOG2 clears HEAD and TAIL
(R232, R492). -/
def Obligations.RegisterAccess : Prop :=
  ((∀ (s : State) (a : Agent) (addr : BitVec 32), blkAt addr.toNat = none → s.agentReach a (enclosing addr.toNat) = true →
     exec (.csrHoleAccess a addr) s = .next (s.fault (enclosing addr.toNat) F.CSR_HOLE) ∧
     (∀ v, exec (.registerWrite a addr 8 v) s = .next (s.fault (enclosing addr.toNat) F.CSR_HOLE))) ∧
   (∀ (s : State) (a : Agent) (addr : BitVec 32) (w : Nat) (u : UnitId) (b : Blk), blkAt addr.toNat = some (u, b) → s.agentReach a u = true →
     (w ≠ 8 ∨ addr.toNat % 8 ≠ 0) → (w ≠ 4 ∨ addr.toNat % 4 ≠ 0) →
     exec (.csrMisalignedAccess a addr w) s = .next (s.fault u F.CSR_HOLE) ∧
     (∀ v, exec (.registerWrite a addr w v) s = .next (s.fault u F.CSR_HOLE)))) ∧
  (∀ (s : State) (a : Agent) (addr : BitVec 32) (v : DWord) (u : UnitId) (b : Blk) (off : Nat) (r : RegRow) (i : Nat),
     blkAt addr.toNat = some (u, b) → s.agentReach a u = true → addr.toNat % 0x10000 = 0x8000 + off → off % 8 = 0 → addr.toNat % 8 = 0 →
     0x100 ≤ off → regAt u b off = some (r, i) → Tbl.wf s.staged = true →
     ∃ t, exec (.registerWrite a addr 8 v) s = .next t ∧
       t.stg b off = (s.stg b off &&& ~~~stBits r.fields) ||| (v &&& stBits r.fields) ∧ t = { s with staged := t.staged }) ∧
  ((∀ (s : State) (a : Agent) (addr : BitVec 32) (v : DWord) (u : UnitId) (b : Blk) (off : Nat) (r : RegRow) (i : Nat),
     blkAt addr.toNat = some (u, b) → s.agentReach a u = true → addr.toNat % 0x10000 = off → off % 8 = 0 → addr.toNat % 8 = 0 →
     0x100 ≤ off → off < 0x8000 → regAt u b off = some (r, i) →
     b.kind = .buffer ∨ b.kind = .assoc ∨ b.kind = .hbmc ∨ b.kind = .ford ∨ b.kind = .flow ∨ b.kind = .lpm ∨ b.kind = .shadow ∨
       b.kind = .bramble ∨ b.kind = .coproc ∨ b.kind = .group → Tbl.wf s.csr = true →
     ∃ t, exec (.registerWrite a addr 8 v) s = .next t ∧
       t.reg b off = plainWrite (decide (s.dev.devState = .start)) r.fields (s.reg b off) v allBits ∧ t = { s with csr := t.csr }) ∧
   (∀ (start : Bool) (fs : List FieldRow) (old v m : DWord) (k : Nat), k < 64 →
     (plainWrite start fs old v m).getLsbD k =
       (if (clearMask fs).getLsbD k && m.getLsbD k && v.getLsbD k then false
        else if (writeMask start fs).getLsbD k && m.getLsbD k then v.getLsbD k else old.getLsbD k))) ∧
  ((∀ (s : State) (a : Agent) (h : Half) (v : DWord), s.agentReach a (.table h 3) = true →
     ∃ new, exec (.counterReadSelWrite a h v) s = .next ((s.setReg (bTable h 3) R.counter_READ_SEL new).readSel h new)) ∧
   (∀ (s : State) (a : Agent) (h : Half) (v : DWord), s.agentReach a (.table h 5) = true → Tbl.wf s.csr = true →
     ∃ t, exec (.learnNoteSizeWrite a h v) s = .next t ∧ t.rfld (bTable h 5) R.learn_LEARN_NOTE_CTL 24 20 = 0 ∧
       t.rfld (bTable h 5) R.learn_LEARN_NOTE_CTL 44 20 = 0 ∧ t = { s with csr := t.csr }) ∧
   (∀ (s : State) (a : Agent) (h : Half) (v : DWord), s.agentReach a (.sched h) = true → Tbl.wf s.csr = true →
     ∃ t, exec (.telemSizeWrite a h v) s = .next t ∧ t.rfld (bSched h) R.sched_TELEM_CTL 24 20 = 0 ∧
       t.rfld (bSched h) R.sched_TELEM_CTL 44 20 = 0 ∧ t = { s with csr := t.csr }))

/-- A fault whose code its unit's kind has is recorded and draws its reaction (R551). A fault in a slot with no open record opens one there with
MERGED 0 and the source of its code, and COUNT rises at its unit and every ancestor (R549); a fault in a slot whose record is open counts
MERGED up, adds its source, takes the worse class, keeps the first fault's fields, counts MERGES and leaves COUNT (R550). No checker is armed
(R51), and no HBM access of the reaction has to wait. -/
def Obligations.FaultsRecorded : Prop :=
  (∀ (s t : State) (u : UnitId) (code : BitVec 8) (d : DWord) (c : FClass), s.armed = [] → unitPresent u = true → s.pv.porLow = false →
    s.pv.sysLow = false → (∀ h, u ≠ .buffer h) → s.invCode u = none → codeClass (unitKind u) code.toNat = some c →
    t = (s.openRecord ⟨u, code.toNat, false, s.detailOf u code.toNat d⟩).react ⟨u, code.toNat, false, s.detailOf u code.toNat d⟩ →
    t.waits = s.waits → exec (.faultReport u code d) s = .next t) ∧
  (∀ (s : State) (f : Found) (c : FClass), codeClass (unitKind f.unit) f.code = some c → Tbl.wf s.units = true →
    (∀ h ∈ hubsOf f.unit, (s.hubs.get h).openAt (slotOf f.unit) = false) →
    (∀ h ∈ hubsOf f.unit, ∃ r, tget? ((s.openRecord f).hubs.get h).slots (slotOf f.unit) = some r ∧ r.isOpen = true ∧ r.merged = 0 ∧ r.cls = c ∧
      r.code = BitVec.ofNat 8 f.code ∧ r.unit = f.unit ∧ r.phys = BitVec.ofNat 5 (s.physOf f.unit) ∧ r.injected = f.injected ∧
      r.sources = BitVec.ofNat 32 (2 ^ f.code) ∧ r.stamp = BitVec.ofNat 48 (s.dtsOf f.unit).toNat) ∧
    (∀ v ∈ f.unit :: ancestors f.unit, ((s.openRecord f).unit v).faultCount = min ((s.unit v).faultCount + 1) 0xFFFFFFFF) ∧
    (∀ h, h ∉ hubsOf f.unit → (s.openRecord f).hubs.get h = s.hubs.get h)) ∧
  (∀ (s : State) (f : Found) (c : FClass), codeClass (unitKind f.unit) f.code = some c → Tbl.wf s.csr = true →
    (∀ h ∈ hubsOf f.unit, (s.hubs.get h).openAt (slotOf f.unit) = true) →
    (∀ h ∈ hubsOf f.unit, ∀ o, tget? (s.hubs.get h).slots (slotOf f.unit) = some o →
      tget? ((s.openRecord f).hubs.get h).slots (slotOf f.unit) = some { o with
        merged := min (o.merged + 1) 255, sources := o.sources ||| BitVec.ofNat 32 (2 ^ f.code),
        cls := if o.cls.code < c.code then c else o.cls, injected := o.injected && f.injected } ∧
      (s.openRecord f).reg (bHub h) R.hub_MERGES = s.reg (bHub h) R.hub_MERGES + 1) ∧
    (s.openRecord f).units = s.units)

/-- REC_HI and REC_LO of a record hold its fields where the layout puts them, for every kind of unit, and a slot never used reads zero (R546). WORST
of a unit is the worst class among the open records of its subtree, and an acknowledgement changes no unit and makes no reaction (R553). -/
def Obligations.RecordWords : Prop :=
  (∀ (r : FaultRec) (m lo hi : Nat), r.merged ≤ 255 → m < 16 → lo = (r.lo m).toNat → hi = r.hi.toNat →
    bits hi 16 48 = r.stamp.toNat ∧ bits hi 8 8 = r.code.toNat ∧ bits hi 6 2 = r.cls.code ∧ hi.testBit 5 = r.isOpen ∧
    bits hi 0 5 = unitKind r.unit ∧ bits lo 0 32 = r.sources.toNat ∧ bits lo 32 8 = r.merged ∧ lo.testBit 40 = r.injected ∧
    lo.testBit 41 = false ∧ (bits lo 63 1 = match unitHalf r.unit with | some h => h.val | none => 0) ∧
    (match r.unit with
      | .core _ t c k => bits lo 59 4 = t.val ∧ bits lo 57 2 = c.val ∧ bits lo 54 3 = k.val ∧ bits lo 49 5 = r.phys.toNat ∧ bits lo 42 7 = 0
      | .spare _ t => bits lo 59 4 = t.val ∧ bits lo 57 2 = 0 ∧ bits lo 54 3 = 4 ∧ bits lo 49 5 = r.phys.toNat ∧ bits lo 42 7 = 0
      | .cluster _ t c => bits lo 59 4 = t.val ∧ bits lo 57 2 = c.val ∧ bits lo 42 15 = 0
      | .tile _ t => bits lo 59 4 = t.val ∧ bits lo 42 17 = 0
      | u => bits lo 49 14 = 0 ∧ bits lo 42 7 = if u = .device then m else unitIndex u)) ∧
  (∀ (s : State) (h : Half), (tget? (s.hubs.get h).slots (s.rfld (bHub h) R.hub_REC_SEL 0 9) = none → s.recRead h = (0, 0)) ∧
    ∀ r, tget? (s.hubs.get h).slots (s.rfld (bHub h) R.hub_REC_SEL 0 9) = some r → s.recRead h = (r.lo s.memberNo, r.hi)) ∧
  (∀ (s : State) (u : UnitId),
    (∀ h, ∀ e ∈ (s.hubs.get h).slots, e.2.isOpen = true → within u e.2.unit = true → e.2.cls.code ≤ s.worst u) ∧
    (s.worst u = 0 ∨ ∃ h, ∃ e ∈ (s.hubs.get h).slots, e.2.isOpen = true ∧ within u e.2.unit = true ∧ e.2.cls.code = s.worst u)) ∧
  (∀ (s : State) (a : Agent) (h : Half) (k : Fin 512) (m : BitVec 8), ∃ t, exec (.recAck a h k m) s = .next t ∧
    t = { s with hubs := t.hubs, csr := t.csr })

/-- REC_ACK closes an open record whose MERGED is the one written, and counts in ACK_STALE otherwise (R552); reads of REC_LO, DETAIL_A and
DETAIL_B latch and remove what R554 and R556 say. -/
def Obligations.RecordsAcknowledged : Prop :=
  (∀ (s : State) (a : Agent) (h : Half) (k : Fin 512) (m : BitVec 8) (r : FaultRec), s.agentReach a (.hub h) = true →
    tget? (s.hubs.get h).slots k.val = some r → r.isOpen = true → s.agentOk a r.unit = true → unitHalf r.unit = some h →
    (r.merged = m.toNat → ∃ t, exec (.recAck a h k m) s = .next t ∧ tget? (t.hubs.get h).slots k.val = some { r with isOpen := false } ∧
      t = { s with hubs := t.hubs } ∧ t.hubs.get (other h) = s.hubs.get (other h)) ∧
    (r.merged ≠ m.toNat → exec (.recAck a h k m) s = .next (s.bump (bHub h) R.hub_ACK_STALE))) ∧
  (∀ (s : State) (a : Agent) (h : Half) (k : Fin 512) (m : BitVec 8), (s.hubs.get h).openAt k.val = false →
    exec (.recAck a h k m) s = .next s) ∧
  (∀ (s : State) (a : Agent) (h : Half), s.agentReach a (.hub h) = true →
    ∃ t, exec (.recLoRead a h) s = .next t ∧ (a, (s.recRead h).2) ∈ (t.hubs.get h).recLatch ∧ (t.hubs.get h).slots = (s.hubs.get h).slots ∧
      t = { s with hubs := t.hubs }) ∧
  (∀ (s : State) (a : Agent) (h : Half) (e : DetailEntry) (r : List DetailEntry), s.agentReach a (.hub h) = true →
    (s.hubs.get h).details = e :: r →
    ∃ t, exec (.detailARead a h) s = .next t ∧ (a, e) ∈ (t.hubs.get h).detailLatch ∧ (t.hubs.get h).details = e :: r ∧
      t = { s with hubs := t.hubs }) ∧
  (∀ (s : State) (a : Agent) (h : Half) (b : Agent) (d : DetailEntry), s.agentReach a (.hub h) = true →
    ((s.hubs.get h).detailLatch.find? fun e => e.1 = a) = some (b, d) →
    ∃ t, exec (.detailBRead a h) s = .next t ∧ (t.hubs.get h).details = (s.hubs.get h).details.filter (fun e => e.id ≠ d.id) ∧
      ((t.hubs.get h).detailLatch.find? fun e => e.1 = a) = none ∧ t = { s with hubs := t.hubs })

/-- The injection of faults (R51, R52, R566, R568): an armed checker stores inverted check bits at the word it protects that a command writes,
and a later write of that word removes them (R567). The pulse of FAULT_N (R564), the hand-over of a spare core and its self-test (R571), the
events a hub hands to Privet (R555) and the rewrite of a poisoned program-store word (R558).

Privet's heartbeat (R578, R579, R586), its release, a batch that moves load away from a tile (R574) and the restart of a fenced half
(R61, R581). -/
def Obligations.InjectionAndRecovery : Prop :=
  ((∀ (s : State) (a : Agent) (u : UnitId) (v : BitVec 32), s.agentReach a u = true → s.forceActs (s.ustate u) = false →
     exec (.injectForceWrite a u v) s = .next s) ∧
   (∀ (s : State) (a : Agent) (u : UnitId), s.agentReach a u = true → s.forceActs (s.ustate u) = true →
     exec (.injectForceWrite a u 0) s = .next (s.setRfld (ownBlk u) R.ucb_INJECT 0 32 0)) ∧
   (∀ (s : State) (a : Agent) (u : UnitId) (k : Fin 32), s.agentReach a u = true → s.forceActs (s.ustate u) = true →
     s.rfld (ownBlk u) R.ucb_INJECT 0 32 = 0 →
     exec (.injectForceWrite a u (BitVec.ofNat 32 (2 ^ k.val))) s = .next
       ((s.setRfld (ownBlk u) R.ucb_INJECT 0 32 (2 ^ k.val)).force u k.val)) ∧
   (∀ (s : State) (a : Agent) (u : UnitId) (sel : BitVec 8), s.agentReach a u = true → Tbl.wf s.csr = true → Tbl.wf s.units = true →
     (checkerOf (unitKind u) (sel.toNat % 32)).isSome = true → bits sel.toNat 5 2 = 0 →
     ∃ t, exec (.invArm a u sel) s = .next t ∧ (t.unit u).invPend = true ∧ t.rfld (ownBlk u) R.ucb_INJECT 40 8 = sel.toNat ∧
       t = { s with csr := t.csr, units := t.units }) ∧
   (∀ (s : State) (e0 e1 : Nat), s.hubs.h0.pulseEnd = some e0 → s.hubs.h1.pulseEnd = some e1 → e0 ≤ s.ticks → s.ticks < e1 →
     exec .faultnPulseEnd s = .next { s with hubs := ⟨{ s.hubs.h0 with pulseEnd := none }, s.hubs.h1⟩ }) ∧
   (∀ (s : State) (h : Half) (t : TileIx), (s.tile h t).spare.state = .idle → s.live (.tile h t) = true →
     bit (s.reg (bTile h t) R.tile_SPARE_CFG) 0 = true → s.ustate (.spare h t) = .reset → s.entering (.spare h t) = false →
     (s.commits.any fun c => c.waiting.contains (coreAt h t ((s.tile h t).spare.nextPos % 16))) = false →
     exec (.spareHandover h t) s = .next (((s.updSpare h t fun y =>
       { y with phys := tset ((s.tile h t).spare.nextPos % 16) y.phys ((s.tile h t).spare.nextPos % 16) (s.tile h t).spare.spare,
                spare := tget ((s.tile h t).spare.nextPos % 16) (s.tile h t).spare.phys ((s.tile h t).spare.nextPos % 16),
                nextPos := ((s.tile h t).spare.nextPos % 16 + 1) % 16, state := .testing }).enterUp (.spare h t) .test 0x05).bump
         (bTile h t) R.tile_ROTATIONS)) ∧
   (∀ (s : State) (h : Half) (t : TileIx), (s.tile h t).spare.state = .testing →
     exec (.selfTestEnd (.spare h t) true) s = .next (((((((s.setUState (.spare h t) .reset 0x05).settleForce (.spare h t) .reset).setReg (bTile h t) R.tile_LAST_PASS
       (s.dts h)).bump (bTile h t) R.tile_LBIST_PASSES).updSpare h t fun y => { y with state := .idle }).settleSpare h t)) ∧
     exec (.selfTestEnd (.spare h t) false) s = .next ((s.report (.tile h t) F.LBIST_FAIL).physFails h t (s.tile h t).spare.spare false)) ∧
   (∀ (s : State) (h : Half) (t : TileIx) (b : Bool) (a : Nat), Tbl.wf (s.tiles.get h) = true →
     ∃ x, exec (.pstoreRewriteDone h t b a) s = .next x ∧
       (x.tile h t).poisonBank = (s.tile h t).poisonBank.filter (fun e => e ≠ (b2n b, a / 4)) ∧ x = { s with tiles := x.tiles }) ∧
   (∀ (d : UnitDyn) (sel a : Nat) (l : List Nat),
     (d.invPend = true → (d.wrote sel (a :: l)).invPend = false ∧ (d.wrote sel (a :: l)).invAt = some (sel, a)) ∧
     (d.invPend = false → ∀ n b, d.invAt = some (n, b) →
       ((d.wrote sel (a :: l)).invAt = none ↔ b ∈ a :: l) ∧ (b ∉ a :: l → d.wrote sel (a :: l) = d)) ∧ d.wrote sel [] = d) ∧
   (∀ (s s1 : State) (u : UnitId), s.armed = [u] → s.checked s1 = s1.updUnit u fun d => d.wrote (s.invSel u) (s.wrote s1 u (s.invSel u % 32)))) ∧
  ((∀ (s : State) (h : Half) (v : DWord), (s.hubs.get h).privet ≠ .fenced →
     exec (.privetHbWrite .privet h v) s = .next (s.updHub h fun x => { x with hbSeen := true, privet := .up })) ∧
   (∀ (s : State) (a : Agent) (h : Half) (v : DWord), a ≠ .privet → exec (.privetHbWrite a h v) s = .next s) ∧
   (∀ (s : State) (h : Half), s.ustate .device = .active → (s.hubs.get h).hbEnd ≤ s.ticks → (s.hubs.get h).privet ≠ .fenced →
     (s.hubs.get h).hbSeen = true →
     exec (.privetHbWindow h) s = .next (s.updHub h fun x => { x with hbEnd := s.ticks + 1500000, hbSeen := false })) ∧
   (∀ (s : State), s.ustate .device = .active → (s.hubs.get 0).hbEnd ≤ s.ticks → (s.hubs.get 0).privet ≠ .fenced →
     (s.hubs.get 0).hbSeen = false →
     exec (.privetHbWindow 0) s = .next (((((s.updHub 0 fun x => { x with hbEnd := s.ticks + 1500000, hbSeen := false }).countLoss 0).report
       (.hub 0) F.PRIVET_HEARTBEAT)).heartbeatActs 0 false)) ∧
   (∀ (s : State) (g h : Half) (n : Fin 32), s.inUser g n = false → (s.hubs.get h).privet = .fenced →
     exec (.privetRelease (.control g n) h) s = .next
       (({ s with hubs := ⟨{ s.hubs.h0 with hbLosses := [] }, { s.hubs.h1 with hbLosses := [] }⟩ }).restartPrivet 0x08)) ∧
   (∀ (s : State) (h : Half), exec (.privetRelease .privet h) s = .next s) ∧
   (∀ (s : State) (h : Half) (t : TileIx) (b : Nat) (r : BatchRec) (rs : List BatchRec) (rest : List Nat) (s1 : State),
     (s.tile h t).spare.owed = true → bit (s.reg (bHub h) R.hub_RECOVERY_CFG) 1 = true → s.live (.table h 7) = true →
     (s.tab.get h).builds = [] → s.hubs.h0.privet = .up →
     ((List.range 256).filter fun b => decide ((s.bslot h b).state = .free)).reverse = b :: rest → s.reweighRecs h t = r :: rs →
     (s.updSlot h b fun _ => { BatchSlot.init with state := .building }).applyAll h b (r :: rs) = some s1 →
     exec (.reweightBatch h t) s = .next
       (((s1.updSlot h b fun x => { x with state := .ready }).postSlot h b (s.dts h + 64)).updSpare h t fun x => { x with owed := false })) ∧
   (∀ (s : State) (h : Half), s.ustate (.half h) = .fenced → s.entering (.half h) = false → s.dev.devState ≠ .run → s.mayRestart h = true →
     exec (.halfRestart h) s = .next (s.restartHalf h)) ∧
   (∀ (s : State) (h : Half), s.dev.devState = .run → exec (.halfRestart h) s = .next s))

/-- What an instruction that writes gd leaves: gd holds the result, the sticky flags of the result are set, PC is at the next instruction;
every other register of the thread, every other thread and the rest of the state stay, but for the issue slot and its counters and a core
that wakes from GATED (R281, R285, R311, R361, R638).

Each integer instruction that issues writes its result to gd, sets the sticky flags of the result and falls through (R296–R301). -/
def Obligations.IntegerInstructionsRetire : Prop :=
  (∀ (s : State) (th : ThreadRef) (c : Fk) (d v : Nat) (f : Word), s.threadWf th = true → c.th = th →
     ∃ t, t = (((s.atIssue th).putG th d v).stick th f).fallThrough c ∧
       (t.thread th).getG d = (if d = 0 then 0 else gWord th v) ∧ (∀ k, k ≠ d → (t.thread th).getG k = (s.thread th).getG k) ∧
       t.thread th = { s.thread th with g := (t.thread th).g, flags := (s.thread th).flags ||| f, pc := BitVec.ofNat 48 c.nextPc } ∧
       (∀ h i n, th = .pk h i n → t = { s with csr := t.csr, units := t.units, slots := t.slots, tiles := t.tiles } ∧ t.tiles.get (other h) = s.tiles.get (other h)) ∧
       (∀ h n, th = .cc h n → t = { s with units := t.units, slots := t.slots, cc := t.cc } ∧ t.cc.get (other h) = s.cc.get (other h))) ∧
  (∀ (s s1 : State) (th : ThreadRef) (w : Nat) (c : Fk), c = callOf s s1 th w → pcInRange th c.nextPc = true →
     (∀ e ∈ [(Instr.fkAdd th, FkOp.add), (Instr.fkSub th, FkOp.sub), (Instr.fkAdds th, FkOp.adds), (Instr.fkSubs th, FkOp.subs), (Instr.fkAddus th,
         FkOp.addus), (Instr.fkSubus th, FkOp.subus), (Instr.fkNeg th, FkOp.neg), (Instr.fkAbs th, FkOp.abs), (Instr.fkAnd th, FkOp.and), (Instr.fkOr
         th, FkOp.or), (Instr.fkXor th, FkOp.xor), (Instr.fkAndn th, FkOp.andn), (Instr.fkMin th, FkOp.min), (Instr.fkMax th, FkOp.max), (Instr.fkMinu
         th, FkOp.minu), (Instr.fkMaxu th, FkOp.maxu), (Instr.fkClz th, FkOp.clz), (Instr.fkCtz th, FkOp.ctz), (Instr.fkPopc th, FkOp.popc),
         (Instr.fkBswap th, FkOp.bswap), (Instr.fkSll th, FkOp.sll), (Instr.fkSrl th, FkOp.srl), (Instr.fkSra th, FkOp.sra), (Instr.fkRor th,
         FkOp.ror), (Instr.fkSls th, FkOp.sls), (Instr.fkMul th, FkOp.mul), (Instr.fkMulh th, FkOp.mulh), (Instr.fkMulhu th, FkOp.mulhu)],
       Issues s e.2 th s1 w → ∃ r, r = aluRes 32 e.2 c.sat (c.g (wB w)) (c.g (wC w)) ∧
         exec e.1 s = .next ((((s1.atIssue th).putG th (wA w) r.val).stick th r.flags).fallThrough c)) ∧
     (∀ e ∈ [(Instr.fkAddi th, FkOp.addi, c.g (wB w) + c.simm), (Instr.fkAndi th, FkOp.andi, c.g (wB w) &&& wImm16 w),
         (Instr.fkOri th, FkOp.ori, c.g (wB w) ||| wImm16 w), (Instr.fkXori th, FkOp.xori, c.g (wB w) ^^^ wImm16 w),
         (Instr.fkLi th, FkOp.li, c.simm), (Instr.fkLui th, FkOp.lui, wImm16 w * 65536),
         (Instr.fkSlli th, FkOp.slli, shl 32 (c.g (wB w)) c.shC), (Instr.fkSrli th, FkOp.srli, shr 32 (c.g (wB w)) c.shC),
         (Instr.fkSrai th, FkOp.srai, sar 32 (c.g (wB w)) c.shC), (Instr.fkRori th, FkOp.rori, rotr 32 (c.g (wB w)) c.shC),
         (Instr.fkExtu th, FkOp.extu, bits (c.g (wB w)) c.pos c.len),
         (Instr.fkExts th, FkOp.exts, unsigned 32 (signed c.len (bits (c.g (wB w)) c.pos c.len))),
         (Instr.fkIns th, FkOp.ins, insBits (c.g (wA w)) (c.g (wB w)) c.pos c.len),
         (Instr.fkSel th, FkOp.sel, if condHolds c.x.flags (wCc w) then c.g (wB w) else c.g (wC w)),
         (Instr.fkMval th, FkOp.mval, c.accBits (wAs w) % 2 ^ 32), (Instr.fkMvah th, FkOp.mvah, unsigned 32 (signed 8 (c.accBits (wAs w) / 2 ^ 32)))],
       Issues s e.2.1 th s1 w → exec e.1 s = .next ((((s1.atIssue th).putG th (wA w) e.2.2).stick th 0).fallThrough c)) ∧
     (∀ e ∈ [(Instr.fkSlsi th, FkOp.slsi, slsRes 32 (modeSat c.x.mode || wShS w) (c.g (wB w)) c.shC),
         (Instr.fkFmul th, FkOp.fmul, overflow 32 c.sat (roundShift (modeRnd c.x.mode) (signed 32 (c.g (wB w)) * signed 32 (c.g (wC w))) 31)),
         (Instr.fkExtr th, FkOp.extr, overflow 32 c.sat (roundShift (modeRnd c.x.mode) (c.acc (wAs w)) (wAc w)))],
       Issues s e.2.1 th s1 w →
         exec e.1 s = .next ((((s1.atIssue th).putG th (wA w) e.2.2.val).stick th e.2.2.flags).fallThrough c)))

/-- The results of R297, R299 and R300 said in other words than the model's: differences and shifts modulo 2³², the least and greatest, the
position of the first set bit from either end, the byte order, the rotation bit by bit, a field inserted and read back, and SLS, which in the
wrap mode gives what SLL gives. -/
def Obligations.IntegerResults : Prop :=
  ∀ (a b : Nat) (sat : Bool), a < 2 ^ 32 → b < 2 ^ 32 →
    (aluRes 32 .sub sat a b).val = (a + 2 ^ 32 - b) % 2 ^ 32 ∧
    (aluRes 32 .subus sat a b).val = a - b ∧ (aluRes 32 .addus sat a b).val = min (a + b) (2 ^ 32 - 1) ∧
    (aluRes 32 .minu sat a b).val = min a b ∧ (aluRes 32 .maxu sat a b).val = max a b ∧
    signed 32 (aluRes 32 .min sat a b).val = min (signed 32 a) (signed 32 b) ∧
    signed 32 (aluRes 32 .max sat a b).val = max (signed 32 a) (signed 32 b) ∧
    signed 32 (aluRes 32 .adds sat a b).val = max (-(2 : Int) ^ 31) (min ((2 : Int) ^ 31 - 1) (signed 32 a + signed 32 b)) ∧
    (∀ i, i < 32 → (aluRes 32 .andn sat a b).val.testBit i = (a.testBit i && !b.testBit i)) ∧
    (a ≠ 0 → 2 ^ 31 ≤ a * 2 ^ (aluRes 32 .clz sat a b).val ∧ a * 2 ^ (aluRes 32 .clz sat a b).val < 2 ^ 32) ∧ (aluRes 32 .clz sat 0 b).val = 32 ∧
    (a ≠ 0 → a.testBit (aluRes 32 .ctz sat a b).val = true ∧ 2 ^ (aluRes 32 .ctz sat a b).val ∣ a) ∧ (aluRes 32 .ctz sat 0 b).val = 32 ∧
    (aluRes 32 .bswap sat a b).val = a % 256 * 2 ^ 24 + a / 256 % 256 * 2 ^ 16 + a / 65536 % 256 * 256 + a / 16777216 ∧
    (aluRes 32 .sll sat a b).val = (if b % 256 < 32 then a * 2 ^ (b % 256) % 2 ^ 32 else 0) ∧
    (aluRes 32 .srl sat a b).val = a / 2 ^ (b % 256) ∧
    (∀ i, i < 32 → (aluRes 32 .ror sat a b).val.testBit i = a.testBit ((i + b % 256) % 32)) ∧
    (aluRes 32 .sls false a b).val = (aluRes 32 .sll sat a b).val ∧
    (32 ≤ b % 256 → (aluRes 32 .sra sat a b).val = if a < 2 ^ 31 then 0 else 2 ^ 32 - 1) ∧
    (∀ d pos len, pos + len ≤ 32 → bits (insBits d a pos len) pos len = a % 2 ^ len) ∧
    (aluRes 32 .mulhu sat a b).val = a * b / 2 ^ 32 ∧ (signed 32 a * signed 32 b) / (2 : Int) ^ 32 = signed 32 (aluRes 32 .mulh sat a b).val

/-- Each accumulator instruction that issues writes its result to ad with the sticky flags of R296 and falls through (R305).

The overflow rule (R296): a result in range stands, another is wrapped with OV, or under saturation clamped to the nearer end with
SAT. -/
def Obligations.AccumulatorInstructionsRetire : Prop :=
  (∀ (s s1 : State) (th : ThreadRef) (w : Nat) (c : Fk), c = callOf s s1 th w → pcInRange th c.nextPc = true → s1.threadWf th = true →
     ∀ e ∈ [(Instr.fkMpyf th, FkOp.mpyf, Res.plain (unsigned 40 c.rprod)), (Instr.fkMacf th, FkOp.macf, overflow 40 c.sat (c.acc (wAd w) + c.rprod)),
         (Instr.fkMsuf th, FkOp.msuf, overflow 40 c.sat (c.acc (wAd w) - c.rprod)),
         (Instr.fkMaci th, FkOp.maci, overflow 40 c.sat (c.acc (wAd w) + signed 32 (c.g (wB w)) * signed 32 (c.g (wC w)))),
         (Instr.fkAadd th, FkOp.aadd, overflow 40 c.sat (c.acc (wAd w) + c.acc (wAs w))),
         (Instr.fkAsub th, FkOp.asub, overflow 40 c.sat (c.acc (wAd w) - c.acc (wAs w))), (Instr.fkAneg th, FkOp.aneg, overflow 40 c.sat (-(c.acc (wAd w)))),
         (Instr.fkAsl th, FkOp.asl, overflow 40 c.sat (c.acc (wAd w) * ((2 ^ wAc w : Nat) : Int))),
         (Instr.fkAsr th, FkOp.asr, Res.plain (sar 40 (c.accBits (wAd w)) (wAc w))), (Instr.fkAclr th, FkOp.aclr, Res.plain 0),
         (Instr.fkMvg th, FkOp.mvg, Res.plain (unsigned 40 (signed 32 (c.g (wB w))))),
         (Instr.fkMvas th, FkOp.mvas, Res.plain (c.g (wA w) % 256 * 2 ^ 32 + c.g (wC w)))],
       Issues s e.2.1 th s1 w → ∃ t, exec e.1 s = .next t ∧
         tget 0 (t.thread th).a (wAd w) = BitVec.ofNat 40 e.2.2.val ∧ (∀ k, k ≠ wAd w → tget 0 (t.thread th).a k = tget 0 (s1.thread th).a k) ∧
         t.thread th = { s1.thread th with
           a := (t.thread th).a, flags := (s1.thread th).flags ||| e.2.2.flags, pc := BitVec.ofNat 48 c.nextPc } ∧
         t = { s1 with csr := t.csr, units := t.units, slots := t.slots, tiles := t.tiles, cc := t.cc }) ∧
  (∀ (w : Nat) (sat : Bool) (t : Int), 0 < w →
     (-(2 : Int) ^ (w - 1) ≤ t → t < (2 : Int) ^ (w - 1) → signed w (overflow w sat t).val = t ∧ (overflow w sat t).flags = 0) ∧
     ((2 : Int) ^ (w - 1) ≤ t → (overflow w true t).val = 2 ^ (w - 1) - 1 ∧ (overflow w true t).flags = flSat) ∧
     (t < -(2 : Int) ^ (w - 1) → (overflow w true t).val = 2 ^ (w - 1) ∧ (overflow w true t).flags = flSat) ∧
     ((2 : Int) ^ (w - 1) ≤ t ∨ t < -(2 : Int) ^ (w - 1) →
       (((overflow w false t).val : Nat) : Int) = t % (2 : Int) ^ w ∧ (overflow w false t).flags = flOv))

/-- The edges of division (R303) and the trap DIV_ZERO: with a divisor of zero gd is written and DZ set, and with MODE.DZ_TRAP the
instruction then traps. -/
def Obligations.DivisionEdges : Prop :=
  (∀ (sat : Bool) (a : Nat), a < 2 ^ 32 →
    (a < 2 ^ 31 → aluRes 32 .div sat a 0 = ⟨0x7FFFFFFF, flDz⟩) ∧ (2 ^ 31 ≤ a → aluRes 32 .div sat a 0 = ⟨0x80000000, flDz⟩) ∧
    aluRes 32 .divu sat a 0 = ⟨0xFFFFFFFF, flDz⟩ ∧ aluRes 32 .rem sat a 0 = ⟨a, flDz⟩ ∧ aluRes 32 .remu sat a 0 = ⟨a, flDz⟩) ∧
  (aluRes 32 .div false 0x80000000 0xFFFFFFFF = ⟨0x80000000, flOv⟩ ∧ aluRes 32 .div true 0x80000000 0xFFFFFFFF = ⟨0x7FFFFFFF, flSat⟩ ∧
    (∀ sat, aluRes 32 .divu sat 0x80000000 0xFFFFFFFF = ⟨0, 0⟩ ∧ aluRes 32 .rem sat 0x80000000 0xFFFFFFFF = ⟨0, 0⟩ ∧
      aluRes 32 .remu sat 0x80000000 0xFFFFFFFF = ⟨0x80000000, 0⟩)) ∧
  (∀ (sat : Bool) (a b : Nat), a < 2 ^ 32 → b < 2 ^ 32 → b ≠ 0 → (a = 0x80000000 → b ≠ 0xFFFFFFFF) →
    (aluRes 32 .div sat a b).flags = 0 ∧ signed 32 (aluRes 32 .div sat a b).val = (signed 32 a).tdiv (signed 32 b) ∧
    (aluRes 32 .rem sat a b).flags = 0 ∧ signed 32 (aluRes 32 .rem sat a b).val = (signed 32 a).tmod (signed 32 b) ∧
    aluRes 32 .divu sat a b = ⟨a / b, 0⟩ ∧ aluRes 32 .remu sat a b = ⟨a % b, 0⟩) ∧
  (∀ (s s1 : State) (th : ThreadRef) (w : Nat) (c : Fk) (r : Res), c = callOf s s1 th w → 
    ∀ e ∈ [(Instr.fkDiv th, FkOp.div), (Instr.fkDivu th, FkOp.divu), (Instr.fkRem th, FkOp.rem), (Instr.fkRemu th, FkOp.remu)],
      Issues s e.2 th s1 w → r = aluRes 32 e.2 c.sat (c.g (wB w)) (c.g (wC w)) →
      (pcInRange th c.nextPc = true → (c.g (wC w) ≠ 0 ∨ modeDz c.x.mode = false) →
        exec e.1 s = .next ((((s1.atIssue th).putG th (wA w) r.val).stick th r.flags).fallThrough c)) ∧
      (c.g (wC w) = 0 → modeDz c.x.mode = true →
        exec e.1 s = .next ((((s1.atIssue th).putG th (wA w) r.val).stick th r.flags).takeTrap th cDivZero (BitVec.ofNat 64 (c.g (wB w)))
          c.nextPc c.pc)))

/-- The condition codes over the flags, as Bcc and SEL use them (R309), and the flags that CMP, CMPI and TST write (R308). -/
def Obligations.ConditionCodes : Prop :=
  (∀ (f : Word) (n z b v : Bool), n = f.getLsbD 7 → z = f.getLsbD 6 → b = f.getLsbD 5 → v = f.getLsbD 4 →
    condHolds f 0 = true ∧ (condHolds f 1 = true ↔ z = true) ∧ (condHolds f 2 = true ↔ n ≠ v) ∧ (condHolds f 3 = true ↔ z = true ∨ n ≠ v) ∧
    (condHolds f 4 = true ↔ b = true) ∧ (condHolds f 5 = true ↔ b = true ∨ z = true) ∧ (condHolds f 6 = true ↔ n = true) ∧
    (condHolds f 7 = true ↔ v = true) ∧ (condHolds f 8 = true ↔ f &&& 7 ≠ 0) ∧
    (∀ k, 1 ≤ k → k ≤ 7 → condHolds f (8 + k) = !condHolds f k)) ∧
  (∀ (s s1 : State) (th : ThreadRef) (w : Nat) (c : Fk), c = callOf s s1 th w → pcInRange th c.nextPc = true →
    (Issues s .cmp th s1 w → exec (.fkCmp th) s =
      .next (((s1.atIssue th).setFlags th (cmpFlags 32 c.x.flags (c.g (wB w)) (c.g (wC w)))).fallThrough c)) ∧
    (Issues s .cmpi th s1 w → exec (.fkCmpi th) s =
      .next (((s1.atIssue th).setFlags th (cmpFlags 32 c.x.flags (c.g (wB w)) c.simm)).fallThrough c)) ∧
    (Issues s .tst th s1 w → exec (.fkTst th) s =
      .next (((s1.atIssue th).setFlags th (tstFlags 32 c.x.flags (c.g (wB w)) (c.g (wC w)))).fallThrough c)) ∧
    (Issues s .sel th s1 w → exec (.fkSel th) s = .next ((((s1.atIssue th).putG th (wA w)
      (if condHolds c.x.flags (wCc w) then c.g (wB w) else c.g (wC w))).stick th 0).fallThrough c))) ∧
  (∀ (s s1 : State) (th : ThreadRef) (w t : Nat) (c : Fk) (n : Fin 3), c = callOf s s1 th w → Issues s .bcc th s1 w →
    condHolds c.x.flags (bits w 22 4) = wH w → t = pcWrap th (if condHolds c.x.flags (bits w 22 4) then (c.pc : Int) + wOff16 w else (c.pc : Int) + 4) →
    pcInRange th t = true → exec (.fkBcc th n) s = .next ((s1.atIssue th).setPc th t)) ∧
  (∀ (f : Word) (a b : Nat), a < 2 ^ 32 → b < 2 ^ 32 →
    ((cmpFlags 32 f a b).getLsbD 6 = true ↔ a = b) ∧ ((cmpFlags 32 f a b).getLsbD 5 = true ↔ a < b) ∧
    ((cmpFlags 32 f a b).getLsbD 7 = ((a + 2 ^ 32 - b) % 2 ^ 32).testBit 31) ∧
    (condHolds (cmpFlags 32 f a b) 2 = true ↔ signed 32 a < signed 32 b) ∧
    (∀ i, i < 4 ∨ 8 ≤ i → (cmpFlags 32 f a b).getLsbD i = f.getLsbD i) ∧
    ((tstFlags 32 f a b).getLsbD 6 = true ↔ a &&& b = 0) ∧ (tstFlags 32 f a b).getLsbD 7 = (a &&& b).testBit 31 ∧
    (tstFlags 32 f a b).getLsbD 5 = false ∧ (tstFlags 32 f a b).getLsbD 4 = false)

/-- The return stack (R312): CALL, CALLR and RSPUSH push one entry and trap RSTACK_OVER when it holds 32, RET and RSPOP pop one and trap
RSTACK_UNDER when it is empty, and RSDEPTH reads the number of entries. -/
def Obligations.ReturnStack : Prop :=
  (∀ (s s1 : State) (th : ThreadRef) (w : Nat) (c : Fk), c = callOf s s1 th w → c.x.rs.length < 32 →
    (Issues s .call th s1 w → pcInRange th (pcWrap th ((c.pc : Int) + wOff26 w)) = true →
      exec (.fkCall th) s = .next (((s1.atIssue th).pushRs th (c.pc + 4)).setPc th (pcWrap th ((c.pc : Int) + wOff26 w)))) ∧
    (Issues s .callr th s1 w → pcInRange th (pcWrap th c.regTarget) = true →
      exec (.fkCallr th) s = .next (((s1.atIssue th).pushRs th (c.pc + 4)).setPc th (pcWrap th c.regTarget))) ∧
    (Issues s .rspush th s1 w → pcInRange th c.nextPc = true →
      exec (.fkRspush th) s = .next (((s1.atIssue th).pushRs th (c.g (wB w) / 4 * 4)).fallThrough c))) ∧
  (∀ (s s1 : State) (th : ThreadRef) (w : Nat) (c : Fk), c = callOf s s1 th w → 32 ≤ c.x.rs.length →
    ∀ e ∈ [(Instr.fkCall th, FkOp.call), (Instr.fkCallr th, FkOp.callr), (Instr.fkRspush th, FkOp.rspush)], Issues s e.2 th s1 w →
      exec e.1 s = .next ((s1.atIssue th).takeTrap th cRsOver 32 c.pc c.pc)) ∧
  (∀ (s s1 : State) (th : ThreadRef) (w : Nat) (c : Fk) (a : BitVec 48) (r : List (BitVec 48)), c = callOf s s1 th w → c.x.rs = a :: r →
    (Issues s .ret th s1 w → pcInRange th (pcWrap th ((pcAddr th a : Nat) : Int)) = true →
      exec (.fkRet th) s = .next (((s1.atIssue th).updThread th fun x => x.retMode th).setPc th (pcWrap th ((pcAddr th a : Nat) : Int)))) ∧
    (Issues s .rspop th s1 w → pcInRange th c.nextPc = true →
      exec (.fkRspop th) s = .next (((s1.atIssue th).updThread th fun x => x.popRs.setG (wA w) (gWord th (pcAddr th a % 2 ^ 32))).fallThrough c))) ∧
  (∀ (s s1 : State) (th : ThreadRef) (w : Nat) (c : Fk), c = callOf s s1 th w → c.x.rs = [] →
    ∀ e ∈ [(Instr.fkRet th, FkOp.ret), (Instr.fkRspop th, FkOp.rspop)], Issues s e.2 th s1 w →
      exec e.1 s = .next ((s1.atIssue th).takeTrap th cRsUnder 0 c.pc c.pc)) ∧
  (∀ (s : State) (th : ThreadRef) (a : Nat), s.threadWf th = true →
    ((s.pushRs th a).thread th).rs = rsEntry th a :: (s.thread th).rs ∧
    ∀ e r, (s.thread th).rs = e :: r → ((s.updThread th fun x => x.retMode th).thread th).rs = r ∧
      ∀ d v, ((s.updThread th fun x => x.popRs.setG d v).thread th).rs = r) ∧
  (∀ (s : State) (th : ThreadRef), s.sr th 5 = (s.thread th).rs.length) ∧
  (∀ (s : State) (h : Half) (i : TileIx) (n : Fin 128) (cause e tpc at0 : Nat) (v : DWord), s.threadWf (.pk h i n) = true →
    (s.thread (.pk h i n)).tcause.getLsbD 31 = false →
    entryAddr ((s.tile h i).entryWord (s.task h i ((s.thread (.pk h i n)).task.getD 0)).bank 256) = some e →
    ((s.takeTrap (.pk h i n) cause v tpc at0).thread (.pk h i n)).rs = (s.thread (.pk h i n)).rs ∧
    ((s.takeTrap (.pk h i n) cause v tpc at0).thread (.pk h i n)).g = (s.thread (.pk h i n)).g) ∧
  (∀ (s : State) (h : Half) (n : Fin 32) (cause tpc at0 : Nat) (v : DWord), s.threadWf (.cc h n) = true →
    ((s.takeTrap (.cc h n) cause v tpc at0).thread (.cc h n)).rs = (s.thread (.cc h n)).rs ∧
    ((s.takeTrap (.cc h n) cause v tpc at0).thread (.cc h n)).g = (s.thread (.cc h n)).g)

/-- A transfer whose target is in range sets PC to it, and a conditional branch goes to its target when its condition holds and else falls
through (R309–R311); one whose hint was wrong counts a misprediction and the slots of its wrong path (R290–R292).

TRAP, BREAK, TRET, CLRF, NOP, MFSR and MTSR (R284, R285, R310, R314, R362, R377). -/
def Obligations.TransfersAndControl : Prop :=
  (∀ (s s1 : State) (th : ThreadRef) (w : Nat) (c : Fk), c = callOf s s1 th w →
     (∀ e ∈ [(Instr.fkB th, FkOp.b, (c.pc : Int) + wOff26 w), (Instr.fkJr th, FkOp.jr, ((c.g (wB w) / 4 * 4 : Nat) : Int))],
       Issues s e.2.1 th s1 w →
       (pcInRange th (pcWrap th e.2.2) = true → exec e.1 s = .next ((s1.atIssue th).setPc th (pcWrap th e.2.2))) ∧
       (pcInRange th (pcWrap th e.2.2) = false →
         exec e.1 s = .next ((s1.atIssue th).takeTrap th cPcRange (BitVec.ofNat 64 (pcWrap th e.2.2)) c.pc c.pc))) ∧
     (∀ (n : Fin 3), ∀ e ∈ [(Instr.fkBcc th n, FkOp.bcc, condHolds c.x.flags (bits w 22 4)), (Instr.fkBz th n, FkOp.bz, decide (c.g (wA w) = 0)),
         (Instr.fkBnz th n, FkOp.bnz, !decide (c.g (wA w) = 0))],
       Issues s e.2.1 th s1 w → ∀ t : Nat, t = pcWrap th (if e.2.2 then (c.pc : Int) + wOff16 w else (c.pc : Int) + 4) → pcInRange th t = true →
       (e.2.2 = wH w → exec e.1 s = .next ((s1.atIssue th).setPc th t)) ∧
       (e.2.2 ≠ wH w → exec e.1 s = .next ((((s1.atIssue th).bumpCore th R.core_MISPREDICTS).wrongPath th
         (pcWrap th (if wH w then (c.pc : Int) + wOff16 w else (c.pc : Int) + 4)) (wH w) n.val).setPc th t)))) ∧
  ((∀ (s s1 : State) (th : ThreadRef) (w : Nat) (c : Fk), c = callOf s s1 th w → pcInRange th c.nextPc = true →
     (Issues s .nop th s1 w → exec (.fkNop th) s = .next ((s1.atIssue th).fallThrough c)) ∧
     (Issues s .clrf th s1 w → exec (.fkClrf th) s = .next
       (((s1.atIssue th).updThread th fun x => { x with flags := x.flags &&& ~~~(BitVec.ofNat 32 (wImm8 w % 8)) }).fallThrough c)) ∧
     (Issues s .brk th s1 w → (s1.atIssue th).attached th = true →
       exec (.fkBreak th) s = .next (((s1.atIssue th).haltNow th).fallThrough c)) ∧
     (Issues s .mtsr th s1 w → exec (.fkMtsr th) s = .next
       (((s1.atIssue th).updThread th fun x => x.setSr th (wImm8 w) (BitVec.ofNat 32 (c.g (wB w)))).fallThrough c)) ∧
     (Issues s .mfsr th s1 w → wImm8 w ≠ 21 →
       exec (.fkMfsr th) s = .next (((s1.atIssue th).putG th (wA w) ((s1.atIssue th).sr th (wImm8 w))).fallThrough c)) ∧
     (Issues s .mfsr th s1 w → wImm8 w = 21 →
       exec (.fkMfsr th) s = .next ((((s1.atIssue th).updThread th fun x =>
         { x with dtsLatch := BitVec.ofNat 32 ((s1.dts (threadHalf th)).toNat / 2 ^ 32) }).putG th (wA w)
           ((s1.dts (threadHalf th)).toNat % 2 ^ 32)).fallThrough c))) ∧
   (∀ (s s1 : State) (th : ThreadRef) (w : Nat) (c : Fk), c = callOf s s1 th w →
     (Issues s .trap th s1 w →
       exec (.fkTrap th) s = .next ((s1.atIssue th).takeTrap th cSoftware (BitVec.ofNat 64 (wImm8 w)) c.nextPc c.pc)) ∧
     (Issues s .brk th s1 w → (s1.atIssue th).attached th = false →
       exec (.fkBreak th) s = .next ((s1.atIssue th).takeTrap th cBreak 0 c.pc c.pc)) ∧
     (Issues s .tret th s1 w → c.x.tcause.getLsbD 31 = true → pcInRange th (pcWrap th ((c.x.tpc.toNat : Nat) : Int)) = true →
       exec (.fkTret th) s = .next (((s1.atIssue th).updThread th fun x => { x with tcause := x.tcause &&& 0x7FFFFFFF }).setPc th
         (pcWrap th ((c.x.tpc.toNat : Nat) : Int)))) ∧
     (Issues s .tret th s1 w → c.x.tcause.getLsbD 31 = false →
       exec (.fkTret th) s = .next ((s1.atIssue th).takeTrap th cIllegal (BitVec.ofNat 64 w) c.pc c.pc))) ∧
   (∀ (x : Thread) (th : ThreadRef) (v : Word),
     x.setSr th 0 v = { x with mode := v &&& 0xF } ∧ x.setSr th 1 v = { x with flags := v &&& 0xF7 } ∧
     x.setSr th 3 v = { x with tpc := v &&& 0x1FFFC } ∧ x.setSr th 5 v = x ∧ x.setSr th 6 v = x ∧ x.setSr th 21 v = x ∧
     x.setSr th 16 v = { x with evpend := x.evpend &&& ~~~v }))

/-- A trap of a packet thread with TCAUSE.ACTIVE 0 and a trap entry writes CAUSE, TPC and TVAL, sets ACTIVE, counts TRAPS_TAKEN and goes on
at the trap entry with every other register unchanged (R314, R315); what had issued behind it, a free number of instructions, is squashed
(R287, R295); one with ACTIVE set, or with no trap entry, discards the task (R317). A
control core enters supervisor mode at KENTRY with KRET, KCAUSE and KINFO written (R358). -/
def Obligations.TrapsTaken : Prop :=
  (∀ (s : State) (h : Half) (i : TileIx) (n : Fin 128) (cause e tpc at0 : Nat) (v : DWord), s.threadWf (.pk h i n) = true → Tbl.wf s.csr = true →
    (s.thread (.pk h i n)).tcause.getLsbD 31 = false → cause < 256 →
    entryAddr ((s.tile h i).entryWord (s.task h i ((s.thread (.pk h i n)).task.getD 0)).bank 256) = some e →
    ∃ t, t = s.takeTrap (.pk h i n) cause v tpc at0 ∧
      t.thread (.pk h i n) = { s.thread (.pk h i n) with
        tcause := 0x80000000 ||| BitVec.ofNat 32 cause, tpc := BitVec.ofNat 32 (bits tpc 2 15 * 4), tval := BitVec.ofNat 32 v.toNat,
        pc := BitVec.ofNat 48 e } ∧
      t.reg (ownBlk (coreOf h i n)) R.core_TRAPS_TAKEN = s.reg (ownBlk (coreOf h i n)) R.core_TRAPS_TAKEN + 1 ∧
      t = { s with csr := t.csr, tiles := t.tiles, fresh := t.fresh }) ∧
  (∀ (s u : State) (h : Half) (i : TileIx) (n : Fin 128) (cause tpc at0 : Nat) (v : DWord),
    u = (if cause = cPcRange then s else s.squashBehind (.pk h i n) at0) →
    ((s.thread (.pk h i n)).tcause.getLsbD 31 = true →
      s.takeTrap (.pk h i n) cause v tpc at0 = u.trapDiscard (.pk h i n) cause at0 drDoubleTrap) ∧
    ((s.thread (.pk h i n)).tcause.getLsbD 31 = false →
      entryAddr ((s.tile h i).entryWord (s.task h i ((s.thread (.pk h i n)).task.getD 0)).bank 256) = none →
      s.takeTrap (.pk h i n) cause v tpc at0 = u.trapDiscard (.pk h i n) cause at0 drTrapUnhandled)) ∧
  (∀ (s : State) (h : Half) (n : Fin 32) (cause tpc at0 : Nat) (v : DWord), s.threadWf (.cc h n) = true → Tbl.wf (s.thread (.cc h n)).k = true →
    cause < 0x80 →
    ∃ t, t = s.takeTrap (.cc h n) cause v tpc at0 ∧
      (t.thread (.cc h n)).kreg kKRET = BitVec.ofNat 64 tpc ∧ (t.thread (.cc h n)).kreg kKCAUSE = BitVec.ofNat 64 cause ∧
      (t.thread (.cc h n)).kreg kKINFO = v ∧ (t.thread (.cc h n)).user = false ∧
      (t.thread (.cc h n)).pc = BitVec.ofNat 48 ((s.thread (.cc h n)).kreg kKENTRY).toNat ∧ t = { s with cc := t.cc }) ∧
  (∀ (s s1 : State) (op : FkOp) (th : ThreadRef) (w : Nat) (body : State → Fk → FkRes), s.canIssue th = true → s.fetch th = (s1, .ok w) →
    fkDecode (isControl th) w = none → s1.waits = s.waits → s.armed = [] →
    s.fkRun op th body = (s1.atIssue th).takeTrap th cIllegal (BitVec.ofNat 64 w) (callOf s s1 th w).pc (callOf s s1 th w).pc)

/-- Loads and stores (R322, R348): LB and LH sign-extend, LBU, LHU and LHN zero-extend, LHN, LWN, SHN and SWN use network byte order; a
store writes nothing but the bytes of its space; an access that fails traps with no other effect, and one for which an HBM access has to
wait leaves the instruction to issue again (R502).

PUSH and POP of a packet thread within its stack window, and their DSTACK and ALIGN traps (R326, R327). -/
def Obligations.LoadsStoresAndStack : Prop :=
  ((∀ (s s1 s2 : State) (th : ThreadRef) (w : Nat) (c : Fk) (bs : List Byte), c = callOf s s1 th w →
     ∀ e ∈ [(Instr.fkLb th, FkOp.lb, 1, unsigned 32 (signed 8 (leNat bs))), (Instr.fkLbu th, FkOp.lbu, 1, leNat bs),
         (Instr.fkLh th, FkOp.lh, 2, unsigned 32 (signed 16 (leNat bs))), (Instr.fkLhu th, FkOp.lhu, 2, leNat bs),
         (Instr.fkLw th, FkOp.lw, 4, leNat bs), (Instr.fkLhn th, FkOp.lhn, 2, beNat bs), (Instr.fkLwn th, FkOp.lwn, 4, beNat bs)],
       Issues s e.2.1 th s1 w →
       (pcInRange th c.nextPc = true → (s1.atIssue th).load th c.addr e.2.2.1 = (s2, .ok bs) → s2.waits = s.waits →
         exec e.1 s = .next ((s2.putG th (wA w) e.2.2.2).fallThrough c)) ∧
       ((s1.atIssue th).load th c.addr e.2.2.1 = (s2, .ok bs) → s2.waits ≠ s.waits → pcInRange th c.nextPc = true → exec e.1 s = .next s) ∧
       (∀ cause v, (s1.atIssue th).load th c.addr e.2.2.1 = (s2, .error (.trap cause v)) → s2.waits = s.waits →
         exec e.1 s = .next (s2.takeTrap th cause (BitVec.ofNat 64 v) c.pc c.pc))) ∧
   (∀ (s s1 s2 : State) (th : ThreadRef) (w : Nat) (c : Fk), c = callOf s s1 th w →
     ∀ e ∈ [(Instr.fkSb th, FkOp.sb, leBytes 1 (c.g (wA w))), (Instr.fkSh th, FkOp.sh, leBytes 2 (c.g (wA w))),
         (Instr.fkSw th, FkOp.sw, leBytes 4 (c.g (wA w))), (Instr.fkShn th, FkOp.shn, beBytes 2 (c.g (wA w))),
         (Instr.fkSwn th, FkOp.swn, beBytes 4 (c.g (wA w)))],
       Issues s e.2.1 th s1 w →
       (pcInRange th c.nextPc = true → (s1.atIssue th).store th c.addr e.2.2 = (s2, none) →
         (s2.waits = s.waits → exec e.1 s = .next (s2.fallThrough c)) ∧ (s2.waits ≠ s.waits → exec e.1 s = .next s)) ∧
       (∀ cause v, (s1.atIssue th).store th c.addr e.2.2 = (s2, some (.trap cause v)) → s2.waits = s.waits →
         exec e.1 s = .next (s2.takeTrap th cause (BitVec.ofNat 64 v) c.pc c.pc)))) ∧
  ((∀ (s s1 u : State) (h : Half) (t : TileIx) (n : Fin 128) (w sp : Nat) (c : Fk), c = callOf s s1 (.pk h t n) w → u = s1.atIssue (.pk h t n) → sp = c.dsp →
     sp % 4 = 0 → pcInRange (.pk h t n) c.nextPc = true →
     (Issues s .push (.pk h t n) s1 w → u.stackLimit h t n.val + 4 ≤ sp → sp ≤ u.stackBase h t n.val →
       exec (.fkPush (.pk h t n)) s = .next (((u.updTile h t fun x =>
         x.put (.ram (0x80000 + (sp - 4 - 0x00200000))) (leBytes 4 (c.g (wB w)))).setDsp (.pk h t n) (sp - 4)).fallThrough c)) ∧
     (Issues s .pop (.pk h t n) s1 w → u.stackLimit h t n.val ≤ sp → sp < u.stackBase h t n.val →
       (u.tile h t).poisoned (.ram (0x80000 + (sp - 0x00200000))) 4 = false →
       exec (.fkPop (.pk h t n)) s = .next (((u.putG (.pk h t n) (wA w)
         (leNat ((u.tile h t).get (.ram (0x80000 + (sp - 0x00200000))) 4))).setDsp (.pk h t n) (sp + 4)).fallThrough c))) ∧
   (∀ (s s1 u : State) (h : Half) (t : TileIx) (n : Fin 128) (w sp : Nat) (c : Fk), c = callOf s s1 (.pk h t n) w → u = s1.atIssue (.pk h t n) → sp = c.dsp →
     (Issues s .push (.pk h t n) s1 w → (sp < u.stackLimit h t n.val + 4 ∨ u.stackBase h t n.val < sp) →
       exec (.fkPush (.pk h t n)) s = .next (u.takeTrap (.pk h t n) cDstack (BitVec.ofNat 64 sp) c.pc c.pc)) ∧
     (Issues s .pop (.pk h t n) s1 w → (u.stackBase h t n.val ≤ sp ∨ sp < u.stackLimit h t n.val) →
       exec (.fkPop (.pk h t n)) s = .next (u.takeTrap (.pk h t n) cDstack (BitVec.ofNat 64 sp) c.pc c.pc))) ∧
   (∀ (s s1 s2 u : State) (h : Half) (n : Fin 32) (w sp : Nat) (c : Fk), c = callOf s s1 (.cc h n) w → u = s1.atIssue (.cc h n) → sp = c.dsp →
     sp % 4 = 0 → s2.waits = s.waits →
     pcInRange (.cc h n) c.nextPc = true →
     (Issues s .push (.cc h n) s1 w → u.store (.cc h n) (pcWrap (.cc h n) ((sp : Int) - 4)) (leBytes 4 (c.g (wB w))) = (s2, none) →
       exec (.fkPush (.cc h n)) s = .next ((s2.setDsp (.cc h n) (pcWrap (.cc h n) ((sp : Int) - 4))).fallThrough c)) ∧
     (∀ bs, Issues s .pop (.cc h n) s1 w → u.load (.cc h n) sp 4 = (s2, .ok bs) →
       exec (.fkPop (.cc h n)) s = .next (((s2.putG (.cc h n) (wA w) (leNat bs)).setDsp (.cc h n)
         (pcWrap (.cc h n) ((sp : Int) + 4))).fallThrough c))))

/-- The memory of a packet thread (R320–R322): an access outside every space, or that a space does not take whole, traps BOUNDS, and one
that its space does not align traps ALIGN; a store changes exactly the bytes it names, which then load as they were stored. -/
def Obligations.PacketMemory : Prop :=
  (∀ (s : State) (h : Half) (t : TileIx) (n : Fin 128) (a len : Nat) (bs : List Byte),
    spcAt (s.spaces h t n.val (s.slotOfThread h t n)) a len = none →
    s.load (.pk h t n) a len = (s, .error (.trap cBounds a)) ∧
    (bs.length = len → s.store (.pk h t n) a bs = (s, some (.trap cBounds a)))) ∧
  (∀ (s : State) (h : Half) (t : TileIx) (n : Fin 128) (a len : Nat) (bs : List Byte) (p : Spc),
    spcAt (s.spaces h t n.val (s.slotOfThread h t n)) a len = some p → p.anyAlign = false → a % len ≠ 0 →
    s.load (.pk h t n) a len = (s, .error (.trap cAlign a)) ∧
    (bs.length = len → p.writable = true → s.store (.pk h t n) a bs = (s, some (.trap cAlign a)))) ∧
  (∀ (s : State) (h : Half) (t : TileIx) (n : Fin 128) (a len : Nat) (bs : List Byte) (p : Spc),
    spcAt (s.spaces h t n.val (s.slotOfThread h t n)) a len = some p → p.writable = false → bs.length = len →
    s.store (.pk h t n) a bs = (s, some (.trap cBounds a))) ∧
  (∀ (s : State) (h : Half) (t : TileIx) (n : Fin 128) (a : Nat) (bs : List Byte) (p : Spc) (l : Loc),
    Tbl.wf (s.tiles.get h) = true → Tbl.wf (s.tile h t).ram = true → Tbl.wf (s.tile h t).store = true →
    spcAt (s.spaces h t n.val (s.slotOfThread h t n)) a bs.length = some p → p.writable = true → p.kind = .mem l →
    (p.anyAlign = true ∨ a % bs.length = 0) →
    ∃ u, s.store (.pk h t n) a bs = (u, none) ∧ u = { s with tiles := u.tiles } ∧
      ((s.tile h t).poisoned (l.add (a - p.base)) bs.length = false → u.load (.pk h t n) a bs.length = (u, .ok bs)) ∧
      (∀ b, (∀ g, l = .ram g → b < g + (a - p.base) ∨ g + (a - p.base) + bs.length ≤ b) →
        tget 0 (u.tile h t).ram b = tget 0 (s.tile h t).ram b) ∧
      (∀ b, (∀ g, l = .store g → b < g + (a - p.base) ∨ g + (a - p.base) + bs.length ≤ b) →
        tget 0 (u.tile h t).store b = tget 0 (s.tile h t).store b))

/-- FRD, HRD and HWR issue: the named counter of the task rises by one and the response is outstanding; MEMORY_RESPONSE writes its bytes
and the counter falls by one (R250, R328, R331). A counter at 255 holds the instruction back. -/
def Obligations.MemoryRequests : Prop :=
  (∀ (s s1 u : State) (h : Half) (t : TileIx) (n : Fin 128) (w k : Nat) (c : Fk) (l : Loc), c = callOf s s1 (.pk h t n) w → u = s1.atIssue (.pk h t n) →
    k = u.slotOfThread h t n → pcInRange (.pk h t n) c.nextPc = true →
    (Issues s .frd (.pk h t n) s1 w → k < svcBase →
      u.pkPlace h t n (c.g (wA w)) (lenTo256 (c.g (wC w)) + 8) = .ok l →
      (u.dcFull h t k (wDc w) = false → ∃ r, exec (.fkFrd (.pk h t n)) s = .next ((u.issueReq h t n c r).fallThrough c) ∧
        r.unit = .memory ∧ r.loc = l ∧ r.ready = true ∧ r.bytes.length = lenTo256 (c.g (wC w)) + 8 ∧
        ((u.buf.get h).badCells = [] → r.bytes = padTo (slice ((u.chain h ((u.task h t k).chain.getD 0)).bytes.take (u.task h t k).length)
          (c.g (wB w)) (lenTo256 (c.g (wC w)))) (lenTo256 (c.g (wC w))) ++ statusWord false 0)) ∧
      (u.dcFull h t k (wDc w) = true → exec (.fkFrd (.pk h t n)) s = .next s1)) ∧
    (∀ e ∈ [(Instr.fkHrd (.pk h t n), FkOp.hrd, false), (Instr.fkHwr (.pk h t n), FkOp.hwr, true)],
      Issues s e.2.1 (.pk h t n) s1 w → ∀ m a : Nat, m = hbmLen (c.g (wC w)) → a = u.pktHbmBase h + 32 * c.g (wB w) →
      a + m ≤ u.pktHbmLimit h → c.g (wA w) % 32 = 0 → u.dcFull h t k (wDc w) = false → ∀ d,
      (e.2.2 = false → u.pkPlace h t n (c.g (wA w)) (m + 8) = .ok l ∧ d = []) →
      (e.2.2 = true → u.pkSpan h t n (c.g (wA w)) m = .ok d) →
      ∃ r, exec e.1 s = .next (((u.issueReq h t n c r).queueParts h t (u.tile h t).nextId (taskSrc t k) e.2.2
          (w.testBit 5) a d m).fallThrough c) ∧
        r.ready = false ∧ r.parts = (hbmParts a m).length ∧ (e.2.2 = false → r.loc = l ∧ r.unit = .memory) ∧
        (e.2.2 = true → r.bytes = [] ∧ r.unit = .hbmWrite))) ∧
  (∀ (s : State) (h : Half) (t : TileIx) (n : Fin 128) (c : Fk) (r : Response) (k : Nat), Tbl.wf (s.tiles.get h) = true →
    Tbl.wf (s.tile h t).tasks = true → k = s.slotOfThread h t n →
    ((s.issueReq h t n c r).task h t k).dc (wDc c.w) = (s.task h t k).dc (wDc c.w) + 1 ∧
    ((s.issueReq h t n c r).tile h t).responses = (s.tile h t).responses ++
      [{ r with id := (s.tile h t).nextId, slot := k, thread := n.val, pc := c.pc, dc := wDc c.w }]) ∧
  (∀ (s : State) (h : Half) (t : TileIx) (id : Nat) (r : Response), (s.tile h t).response? id = some r →
    (r.unit = .memory ∨ r.unit = .hbmWrite) → r.ready = true →
    exec (.memoryResponse h t id) s = .next (if (s.task h t r.slot).complete
      then (s.updTile h t fun x => { x with responses := x.responses.filter fun y => y.id ≠ id }).settleSlot h t r.slot
      else (((s.updTile h t fun x => { x with responses := x.responses.filter fun y => y.id ≠ id }).updTile h t fun x =>
        x.put r.loc r.bytes).dcDown h t r.slot r.dc)))

/-- TWAIT falls through when the counters it names are zero, parks the task when its data stack is empty and its return stack shallow, and
else waits in the thread (R251, R252); TDONE and TDROP end the task (R254, R344); POSTF injects a frame (R247, R333). -/
def Obligations.TaskInstructions : Prop :=
  (∀ (s s1 u : State) (h : Half) (t : TileIx) (n : Fin 128) (w k : Nat) (c : Fk), c = callOf s s1 (.pk h t n) w → u = s1.atIssue (.pk h t n) →
    k = u.slotOfThread h t n → pcInRange (.pk h t n) c.nextPc = true → Issues s .twait (.pk h t n) s1 w →
    ((u.task h t k).waitOver (wImm8 w) = true → exec (.fkTwait (.pk h t n)) s = .next (u.fallThrough c)) ∧
    ((u.task h t k).waitOver (wImm8 w) = false → c.dsp = u.stackBase h t n.val → c.x.rs.length ≤ 4 →
      exec (.fkTwait (.pk h t n)) s = .next (u.park h t n k (wImm8 w))) ∧
    ((u.task h t k).waitOver (wImm8 w) = false → ¬ (c.dsp = u.stackBase h t n.val ∧ c.x.rs.length ≤ 4) →
      exec (.fkTwait (.pk h t n)) s = .next (((u.updThread (.pk h t n) fun x =>
        { x with phase := .twait (wImm8 w) }).updTask h t k fun y => { y with state := .waiting }).bump (bTsched h t)
          R.tsched_WAITS_IN_THREAD))) ∧
  (∀ (s : State) (h : Half) (t : TileIx) (n : Fin 128) (k m : Nat), s.threadWf (.pk h t n) = true → Tbl.wf (s.tile h t).tasks = true →
    Tbl.wf s.csr = true →
    ((s.park h t n k m).task h t k).state = .parked ∧ ((s.park h t n k m).task h t k).waitMask = m ∧
    ((s.park h t n k m).task h t k).thread = none ∧ ((s.park h t n k m).thread (.pk h t n)).task = none ∧
    ((s.park h t n k m).thread (.pk h t n)).phase = .free ∧
    (s.park h t n k m).reg (bTsched h t) R.tsched_PARKS = s.reg (bTsched h t) R.tsched_PARKS + 1) ∧
  (∀ (s s1 u : State) (h : Half) (t : TileIx) (n : Fin 128) (w k : Nat) (c : Fk), c = callOf s s1 (.pk h t n) w → u = s1.atIssue (.pk h t n) →
    k = u.slotOfThread h t n →
    (Issues s .tdrop (.pk h t n) s1 w → exec (.fkTdrop (.pk h t n)) s =
      .next ((u.bump (bTsched h t) R.tsched_TASKS_DROPPED).completeTask h t k none)) ∧
    (Issues s .tdone (.pk h t n) s1 w → svcBase ≤ k → exec (.fkTdone (.pk h t n)) s =
      .next ((u.bump (bTsched h t) R.tsched_TASKS_COMPLETED).completeTask h t k none)) ∧
    (∀ p d bs, Issues s .tdone (.pk h t n) s1 w → k < svcBase → c.g (wA w) % 16 = 0 →
      spcAt (u.spaces h t n.val k) (c.g (wA w)) 1 = some p →
      d = parseODesc (u.spcBytes h t k p (c.g (wA w)) (min (p.base + p.size - c.g (wA w)) 256)) →
      u.spcRead h t k p (c.g (wA w)) d.size = .ok bs →
      (d.reason (u.task h t k).length = 0 → exec (.fkTdone (.pk h t n)) s = .next (u.acceptOutput h t k bs)) ∧
      (d.reason (u.task h t k).length ≠ 0 → exec (.fkTdone (.pk h t n)) s =
        .next (u.refuseOutput h t n k (d.reason (u.task h t k).length) c.pc)))) ∧
  (∀ (s s1 s2 u : State) (th : ThreadRef) (w : Nat) (c : Fk) (bs : List Byte), c = callOf s s1 th w → u = s1.atIssue th → Issues s .postf th s1 w →
    c.gFull (wA w) % 16 = 0 → u.postBytes th (c.gFull (wA w)) (postLen (c.g (wB w))) = (s2, .ok bs) →
    s2.waits = s.waits → pcInRange th c.nextPc = true →
    exec (.fkPostf th) s = .next (s2.postFrame th (wImm8 w - 128) bs) ∧
    ((s2.ing.get (threadHalf th)).posters = [] → s2.injectReady (threadHalf th) bs.length = true →
      exec (.fkPostf th) s = .next ((s2.injectBytes (threadHalf th) (wImm8 w - 128) bs).updThread th fun x => { x with pc := x.pc + 4 })))

/-- WAITEV completes when a masked event, an enabled interrupt or the timer holds, and else waits until one does; its result is the masked
events, WAKE tells the causes, CLEAR clears the events returned and a timer cause disarms the timer (R365, R368, R369).

EVSIG sets event bits of another thread, of bits [7:0] only within its core, and raises interrupt 1 where bit 0 of its immediate says so
(R365, R366, R370); EV_POST sets bits [31:8] from outside (R367). -/
def Obligations.EventsAndWaits : Prop :=
  ((∀ (s s1 u : State) (th : ThreadRef) (w n : Nat) (c : Fk) (m : Word), c = callOf s s1 th w → u = s1.atIssue th → Issues s .waitev th s1 w →
     pcInRange th c.nextPc = true → m = BitVec.ofNat 32 (c.g (wB w)) → n = u.wakeCauses th m ((wImm8 w).testBit 0) →
     (n ≠ 0 → exec (.fkWaitev th) s = .next ((u.waitevDone th (wA w) m ((wImm8 w).testBit 1) n).fallThrough c)) ∧
     (n = 0 → exec (.fkWaitev th) s = .next ((u.updThread th fun x =>
       { x with phase := .waitev (wA w) m ((wImm8 w).testBit 0) ((wImm8 w).testBit 1), pc := x.pc + 4 }).bumpCore th R.core_WAITEV_WAITS))) ∧
   (∀ (s : State) (th : ThreadRef) (gd : Nat) (m : Word) (timer clear : Bool), (s.thread th).phase = .waitev gd m timer clear →
     exec (.waitevComplete th) s = .next (if s.wakeCauses th m timer = 0 then s else s.waitevDone th gd m clear (s.wakeCauses th m timer))) ∧
   (∀ (s : State) (th : ThreadRef) (gd n : Nat) (m : Word) (clear : Bool), s.threadWf th = true → gd ≠ 0 →
     ∃ x, x = (s.waitevDone th gd m clear n).thread th ∧ x.phase = .issuing ∧ x.getG gd = gWord th ((s.thread th).evpend &&& m).toNat ∧
       x.evpend = (if clear then (s.thread th).evpend &&& ~~~m else (s.thread th).evpend) ∧ x.wake = BitVec.ofNat 32 n ∧
       x.arm = ((s.thread th).arm && !n.testBit 1) ∧ x.pc = (s.thread th).pc ∧ ∀ r, r ≠ gd → x.getG r = (s.thread th).getG r) ∧
   (∀ (s : State) (th : ThreadRef) (m : Word) (timer : Bool),
     (s.wakeCauses th m timer = 0 ↔ (s.thread th).evpend &&& m = 0 ∧ (s.thread th).ipend &&& (s.thread th).ien = 0 ∧
       ¬ (timer = true ∧ (s.thread th).arm = true ∧ (s.thread th).tcmp.toNat ≤ (s.dts (threadHalf th)).toNat))) ∧
   (∀ (s : State) (th : ThreadRef), (s.thread th).arm = true → (s.thread th).tcmp.toNat ≤ (s.dts (threadHalf th)).toNat →
     (∀ gd m clear, (s.thread th).phase = .waitev gd m true clear →
       exec (.threadTimerExpire th) s = .next (s.waitevDone th gd m clear (s.wakeCauses th m true))) ∧
     (∀ gd num, (s.thread th).phase = .lock gd num true → exec (.threadTimerExpire th) s =
       .next ((((s.withdrawWaiter (s.partyOf th)).bump (bLocks (lockHome (s.partyOf th).half num)) R.locks_TIMEOUTS).answerLock
         (s.partyOf th) 3).updThread th fun x => { x with arm := false })))) ∧
  ((∀ (s s1 u v : State) (th dest : ThreadRef) (w n m : Nat) (c : Fk), c = callOf s s1 th w → u = s1.atIssue th → Issues s .evsig th s1 w →
     pcInRange th c.nextPc = true → n = c.g (wA w) % 128 → m = c.g (wB w) → dest = peerThread th n → (isControl th = true → n < 32) →
     v = (if n / 8 = threadIx th / 8 then u.setEv dest (BitVec.ofNat 32 m)
       else if m % 256 = 0 then u.setEv dest (BitVec.ofNat 32 m)
       else (u.setEv dest (BitVec.ofNat 32 (m / 256 * 256))).bumpCore th R.core_EVSIG_DROPPED) →
     ((wImm8 w).testBit 0 = false → exec (.fkEvsig th) s = .next (v.fallThrough c)) ∧
     ((wImm8 w).testBit 0 = true → exec (.fkEvsig th) s = .next ((v.raiseInt dest 1).fallThrough c))) ∧
   (∀ (s : State) (a : Agent) (h : Half) (t : TileIx) (n : Fin 128) (m : Word), s.threadWf (.pk h t n) = true →
     (s.agentReach a (coreOf h t n) = true → ∃ u, exec (.evPostWrite a h t n m) s = .next u ∧
       u.thread (.pk h t n) = { s.thread (.pk h t n) with evpend := (s.thread (.pk h t n)).evpend ||| (m &&& 0xFFFFFF00) } ∧
       u = { s with tiles := u.tiles }) ∧
     (s.agentReach a (coreOf h t n) = false → exec (.evPostWrite a h t n m) s = .next s)) ∧
   (∀ (s : State) (th : ThreadRef) (m : Word) (n : Nat), s.threadWf th = true →
     (s.setEv th m).thread th = { s.thread th with evpend := (s.thread th).evpend ||| m } ∧
     (s.raiseInt th n).thread th = { s.thread th with ipend := (s.thread th).ipend ||| BitVec.ofNat 8 (1 <<< n) }))

/-- A thread that may takes its lowest-numbered interrupt that is pending and enabled: the pending bit clears, PC enters the return stack,
ISTAT tells the interrupt and the depth, and the thread goes on at its entry (R370–R373). A thread within an interrupt, halted, stalled
under R250, with a full return stack or without an entry takes none.

The deadlock of a core whose eight threads wait for each other (R375, R376): after 1,024 cycles in a row the fault, the count and
interrupt 5, and the first thread's WAITEV completes; the count of a core is kept while its threads wait so, up to 1,024, and begins again
once they do not. -/
def Obligations.InterruptsTaken : Prop :=
  ((∀ (s : State) (h : Half) (t : TileIx) (n : Fin 128) (i e : Nat), s.threadWf (.pk h t n) = true → Tbl.wf s.csr = true →
     (s.thread (.pk h t n)).canTakeInt = true → s.stalled (.pk h t n) = false → s.live (coreOf h t n) = true → (s.thread (.pk h t n)).phase = .issuing →
     (s.thread (.pk h t n)).readyInt = some i → s.intEntry (.pk h t n) = some e →
     ∃ u, exec (.interruptTake (.pk h t n)) s = .next u ∧
       u.thread (.pk h t n) = { s.thread (.pk h t n) with
         ipend := (s.thread (.pk h t n)).ipend &&& ~~~(BitVec.ofNat 8 (1 <<< i))
         rs := (s.thread (.pk h t n)).pc :: (s.thread (.pk h t n)).rs
         istat := BitVec.ofNat 32 (1 <<< 31 ||| i <<< 8 ||| ((s.thread (.pk h t n)).rs.length + 1))
         pc := BitVec.ofNat 48 e } ∧
       u.reg (ownBlk (coreOf h t n)) R.core_INTERRUPTS_TAKEN = s.reg (ownBlk (coreOf h t n)) R.core_INTERRUPTS_TAKEN + 1 ∧
       u = { s with csr := u.csr, tiles := u.tiles }) ∧
   (∀ (s : State) (h : Half) (n : Fin 32) (i e : Nat), s.threadWf (.cc h n) = true → Tbl.wf (s.thread (.cc h n)).k = true →
     (s.thread (.cc h n)).canTakeInt = true → s.live (.half h) = true → (s.thread (.cc h n)).phase = .issuing →
     (s.thread (.cc h n)).readyInt = some i → s.intEntry (.cc h n) = some e →
     ∃ u, exec (.interruptTake (.cc h n)) s = .next u ∧ (u.thread (.cc h n)).user = false ∧ (u.thread (.cc h n)).pc = BitVec.ofNat 48 e ∧
       (u.thread (.cc h n)).rs = (s.thread (.cc h n)).pc :: (s.thread (.cc h n)).rs ∧
       (u.thread (.cc h n)).istat.getLsbD 29 = (s.thread (.cc h n)).user ∧ u = { s with cc := u.cc }) ∧
   (∀ (s : State) (th : ThreadRef),
     ((s.thread th).canTakeInt = false ∨ s.stalled th = true ∨ (s.thread th).readyInt = none ∨ s.intEntry th = none) →
     exec (.interruptTake th) s = .next s) ∧
   (∀ (x : Thread) (i : Nat), x.readyInt = some i → i < 8 ∧ (x.ipend &&& x.ien).getLsbD i = true ∧
     ∀ j, j < i → (x.ipend &&& x.ien).getLsbD j = false) ∧
   (∀ (x : Thread), (x.halted = true ∨ x.istat.getLsbD 31 = true ∨ 32 ≤ x.rs.length) → x.canTakeInt = false)) ∧
  ((∀ (s : State) (h : Half) (t : TileIx) (c k : Fin 4),
     (∀ i, i < 8 → s.deadThread h t (32 * c.val + 8 * k.val + i) = true) → tget 0 (s.tile h t).deadFor (4 * c.val + k.val) = 1024 →
     ∀ u th, th = ThreadRef.pk h t (Fin.ofNat 128 (32 * c.val + 8 * k.val)) →
       u = ((s.report (.core h t c k) F.EVENT_DEADLOCK).bump (bCore h t c k) R.core_DEADLOCKS).raiseInt th 5 →
       ∀ gd m timer clear, (u.thread th).phase = .waitev gd m timer clear →
       exec (.eventDeadlock h t c k) s = .next (u.waitevDone th gd m clear (u.wakeCauses th m timer + 8))) ∧
   (∀ (s : State) (h : Half) (t : TileIx) (c k : Fin 4) (i : Nat), i < 8 →
     s.deadThread h t (32 * c.val + 8 * k.val + i) = false → exec (.eventDeadlock h t c k) s = .next s) ∧
   (∀ (s : State) (h : Half) (t : TileIx) (c k : Fin 4), tget 0 (s.tile h t).deadFor (4 * c.val + k.val) ≠ 1024 →
     exec (.eventDeadlock h t c k) s = .next s) ∧
   (∀ (s : State) (h : Half) (t : TileIx) (c k : Fin 4), Tbl.wf (s.tiles.get h) = true →
     tget 0 ((s.deadTile h t).tile h t).deadFor (4 * c.val + k.val) =
       if ∀ i, i < 8 → s.deadThread h t (32 * c.val + 8 * k.val + i) = true
       then min (tget 0 (s.tile h t).deadFor (4 * c.val + k.val) + 1) 1024 else 0))

/-- THREAD_CTL from outside (R377, R378, R380): POST raises interrupt 0; HALT asks a thread to stop and it halts when its instructions are
done; RESUME lets it go on; KILL discards the task of a packet thread. HALT and RESUME need their debug scope unlocked (R628). -/
def Obligations.ThreadControl : Prop :=
  (∀ (s : State) (a : Agent) (th : ThreadRef), s.agentReach a (threadUnit th) = false →
    ∀ e ∈ [Instr.threadPost a th, Instr.threadKill a th, Instr.threadResume a th, Instr.threadHalt a th], exec e s = .next s) ∧
  (∀ (s : State) (a : Agent) (th : ThreadRef), s.agentReach a (threadUnit th) = true →
    exec (.threadPost a th) s = .next (s.raiseInt th 0) ∧
    (s.debugOpen th = true → (s.thread th).halted = false →
      exec (.threadHalt a th) s = .next (s.updThread th fun x => if x.halted then x else { x with halting := true })) ∧
    (s.debugOpen th = true → (s.thread th).halted = true → exec (.threadResume a th) s = .next (s.resumeNow th)) ∧
    (s.debugOpen th = false → exec (.threadHalt a th) s = .next s ∧ exec (.threadResume a th) s = .next s)) ∧
  (∀ (s : State) (a : Agent) (h : Half) (t : TileIx) (n : Fin 128) (k : Nat), s.agentReach a (coreOf h t n) = true →
    (s.thread (.pk h t n)).task = some k →
    exec (.threadKill a (.pk h t n)) s =
      .next ((s.discardTask h t k drKilled).updThread (.pk h t n) fun x => { x with halted := false, halting := false })) ∧
  (∀ (s : State) (th : ThreadRef), (s.thread th).halting = true → exec (.haltComplete th) s = .next (s.haltNow th)) ∧
  (∀ (s : State) (h : Half) (t : TileIx) (n : Fin 128) (k : Nat), s.threadWf (.pk h t n) = true → Tbl.wf (s.tile h t).tasks = true →
    (s.thread (.pk h t n)).task = some k →
    ((s.haltNow (.pk h t n)).thread (.pk h t n)).halted = true ∧ ((s.haltNow (.pk h t n)).thread (.pk h t n)).halting = false ∧
    ((s.task h t k).state = .running → ((s.haltNow (.pk h t n)).task h t k).state = .halted) ∧
    ((s.resumeNow (.pk h t n)).thread (.pk h t n)).halted = false ∧
    ((s.task h t k).state = .halted → (s.thread (.pk h t n)).phase = .issuing → ((s.resumeNow (.pk h t n)).task h t k).state = .running))

/-- Messages (R381–R386): CHSTG stages a word, CHDROP empties the stage, CHSEND answers 2 where the channel is not open and 1 where it is
full, and else sends and answers 0; CHRECV takes the oldest message; CH_CFG_n is written as R386 says. -/
def Obligations.ChannelInstructions : Prop :=
  (∀ (s s1 u : State) (th : ThreadRef) (w : Nat) (c : Fk), c = callOf s s1 th w → u = s1.atIssue th → pcInRange th c.nextPc = true →
    (Issues s .chstg th s1 w → exec (.fkChstg th) s = .next
      ((u.updThread th fun x => { x with staging := tput x.staging (wImm8 w) (BitVec.ofNat 32 (c.g (wB w))) }).fallThrough c)) ∧
    (Issues s .chdrop th s1 w → exec (.fkChdrop th) s = .next ((u.updThread th fun x => { x with staging := [] }).fallThrough c)) ∧
    (Issues s .chsend th s1 w → ∀ n, n = c.g (wB w) % 256 →
      (u.chanOpen th n = false → exec (.fkChsend th) s = .next ((u.putG th (wA w) 2).fallThrough c)) ∧
      (u.chanOpen th n = true → chCap (u.chCfg th n) ≤ (u.chan th n).length →
        exec (.fkChsend th) s = .next (((u.bumpChan th R.channel_CH_FULL 1).putG th (wA w) 1).fallThrough c)) ∧
      (u.chanOpen th n = true → (u.chan th n).length < chCap (u.chCfg th n) →
        exec (.fkChsend th) s = .next ((((u.sendMessage th n ⟨threadIx th, wImm8 w, (List.range (wImm8 w)).map fun k =>
          tget 0 c.x.staging k⟩).updThread th fun x => { x with staging := [] }).putG th (wA w) 0).fallThrough c))) ∧
    (Issues s .chrecv th s1 w → ∀ n v, n = c.g (wB w) % 256 →
      v.waits = s.waits →
      (u.chanOpen th n = false → u.putArea th (c.gFull (wA w)) (recvBytes 2 none) = (v, none) →
        exec (.fkChrecv th) s = .next (v.fallThrough c)) ∧
      (u.chanOpen th n = true → u.chan th n = [] → u.putArea th (c.gFull (wA w)) (recvBytes 1 none) = (v, none) →
        exec (.fkChrecv th) s = .next (v.fallThrough c)) ∧
      (∀ m r, u.chanOpen th n = true → u.chan th n = m :: r → u.putArea th (c.gFull (wA w)) (recvBytes 0 (some m)) = (v, none) →
        exec (.fkChrecv th) s = .next (((v.setChan th n r).bumpChan th R.channel_CH_RECEIVED 1).fallThrough c)))) ∧
  (∀ (s : State) (h : Half) (t : TileIx) (n : Fin 128) (k : Nat) (m : Message), Tbl.wf (s.tiles.get h) = true →
    Tbl.wf (s.tile h t).chans = true → bit (s.chCfg (.pk h t n) k) 31 = false →
    (s.sendMessage (.pk h t n) k m).chan (.pk h t n) k = s.chan (.pk h t n) k ++ [m]) ∧
  (∀ (s : State) (a : Agent) (h : Half) (control : Bool) (t : TileIx) (ch : Fin 256) (v : DWord) (th : ThreadRef) (u : UnitId),
    th = (if control then .cc h 0 else .pk h t 0) → u = (if control then .half h else .tile h t) → ch.val < chanCount th →
    (s.agentReach a u = true → exec (.chCfgWrite a h control t ch v) s = .next (s.writeChCfg th ch.val v)) ∧
    (s.agentReach a u = false → exec (.chCfgWrite a h control t ch v) s = .next s)) ∧
  (∀ (s : State) (h : Half) (t : TileIx) (n : Fin 128) (k : Nat) (v : DWord), Tbl.wf s.csr = true → Tbl.wf (s.tiles.get h) = true →
    Tbl.wf (s.tile h t).chans = true →
    (bit v 0 = true → bit (s.chCfg (.pk h t n) k) 0 = false →
      4096 < s.chanDepths (.pk h t n) k + chCap (BitVec.ofNat 64 (fld v 8 4 <<< 8)) →
      bit ((s.writeChCfg (.pk h t n) k v).chCfg (.pk h t n) k) 0 = false ∧ bit ((s.writeChCfg (.pk h t n) k v).chCfg (.pk h t n) k) 1 = true) ∧
    (bit v 0 = false → bit (s.chCfg (.pk h t n) k) 0 = true →
      bit ((s.writeChCfg (.pk h t n) k v).chCfg (.pk h t n) k) 0 = false ∧ (s.writeChCfg (.pk h t n) k v).chan (.pk h t n) k = []))

/-- LOCK, TRYLOCK and UNLOCK (R387–R389): a free lock is granted with status 0, a lock the party may not have answers its status, a lock held
by another queues a LOCK and answers 2 to a TRYLOCK; UNLOCK by the holder passes the lock on and answers 0, by another it answers 4. -/
def Obligations.LockInstructions : Prop :=
  (∀ (s s1 u : State) (th : ThreadRef) (w num : Nat) (p : LockParty) (c : Fk), c = callOf s s1 th w → u = s1.atIssue th →
    pcInRange th c.nextPc = true → num = c.g (wB w) % 8192 → p = u.partyOf th →
    (∀ e ∈ [(Instr.fkLock th, FkOp.lock), (Instr.fkTrylock th, FkOp.trylock)], Issues s e.2 th s1 w →
      (u.lockStatus p num = some 0 → exec e.1 s = .next (((u.takeLock p num).putG th (wA w) 0).fallThrough c)) ∧
      (∀ n, u.lockStatus p num = some n → n ≠ 0 → exec e.1 s = .next ((u.putG th (wA w) n).fallThrough c))) ∧
    (Issues s .lock th s1 w → u.lockStatus p num = none → exec (.fkLock th) s = .next ((u.updThread th fun x =>
      { x with phase := .lock (wA w) num ((wImm8 w).testBit 0), pc := x.pc + 4 }).queueLock p num)) ∧
    (Issues s .trylock th s1 w → u.lockStatus p num = none → exec (.fkTrylock th) s = .next ((u.putG th (wA w) 2).fallThrough c)) ∧
    (Issues s .unlock th s1 w → exec (.fkUnlock th) s =
      .next (((u.unlock p num).1.putG th (wA w) (u.unlock p num).2).fallThrough c))) ∧
  (∀ (s : State) (p : LockParty) (num : Nat),
    (4352 ≤ num → s.lockStatus p num = some 7 ∧ s.unlock p num = (s, 7)) ∧
    (num < 4352 → s.lockUnavailable p.half num = true → s.lockStatus p num = some 8 ∧ s.unlock p num = (s, 8)) ∧
    (num < 4352 → s.lockUnavailable p.half num = false →
      ((s.lock (lockHome p.half num) num).holder = some p → s.lockStatus p num = some 5 ∧
        s.unlock p num = ((s.passOn (lockHome p.half num) num 0).settlePrio p, 0)) ∧
      ((s.lock (lockHome p.half num) num).holder ≠ some p → s.unlock p num = (s, 4) ∧
        (s.lockLimit p = true → s.lockStatus p num = some 6) ∧
        (s.lockLimit p = false → (s.lockStatus p num = some 0 ↔ (s.lock (lockHome p.half num) num).holder = none))))) ∧
  (∀ (s : State) (p : LockParty) (num : Nat), Tbl.wf (s.locks.get (lockHome p.half num)) = true →
    ((s.takeLock p num).lock (lockHome p.half num) num).holder = some p) ∧
  (∀ (s : State) (hm : Half) (num st : Nat), Tbl.wf (s.locks.get hm) = true → (s.lock hm num).waiters = [] →
    (s.passOn hm num st).lock hm num = LockState.free) ∧
  (∀ (l : List LockWaiter) (x : LockWaiter), ∃ a b, l = a ++ b ∧ enqueueWaiter l x = a ++ x :: b ∧ (∀ y ∈ a, x.prio ≤ y.prio) ∧
    ∀ y r, b = y :: r → y.prio < x.prio) ∧
  (∀ (s : State) (a : Agent) (h : Half) (num : Fin 8192), s.agentReach a (.locks h) = true → (∀ h n, a = .control h n → (s.thread (.cc h n)).user = false) →
    ∀ p, (num.val < 4096 ∨ (h = 0 ∧ num.val < 4352)) → (s.lock h num.val).holder = some p →
    exec (.locksForce a h num) s = .next ((((s.passOn h num.val 1).settlePrio p).forcedInt p).bump (bLocks h) R.locks_FORCED))

/-- A table request issues when its response has a place aligned to 16 bytes, its operand is readable, its unit works and its counter stands
below 255: the unit acts at once and the response is outstanding (R186–R189, R250, R334, R335). A full counter or a unit that does not
work holds it back, one whose access of HBM waits there changes nothing, and an unaligned response place traps ALIGN. A response waits while an entry that
the request examined is held back for its repair (R233). -/
def Obligations.TableRequestsIssue : Prop :=
  (∀ (s s1 u : State) (h : Half) (t : TileIx) (n : Fin 128) (w k : Nat) (c : Fk) (l : Loc) (bs : List Byte) (r : TblRes),
    c = callOf s s1 (.pk h t n) w → u = s1.atIssue (.pk h t n) → k = u.slotOfThread h t n →
    ∀ e ∈ [(Instr.lookup (.pk h t n), FkOp.lookup, 0, 16, 1, 16, lookupBody), (Instr.groupSelect (.pk h t n), FkOp.groupSelect, 1, 0, 1, 16, groupBody),
        (Instr.lpm (.pk h t n), FkOp.lpm, 2, if (c.g (wC w)).testBit 16 then 16 else 4, 1, 16, lpmBody),
        (Instr.flowFind (.pk h t n), FkOp.flowFind, 3, 64, 1, 80, flowFindBody),
        (Instr.flowFindInsert (.pk h t n), FkOp.flowFindInsert, 4, 64, 1, 80, flowInsertBody),
        (Instr.flowWrite (.pk h t n), FkOp.flowWrite, 5, 64, 1, 80, flowWriteBody),
        (Instr.flowDelete (.pk h t n), FkOp.flowDelete, 6, 64, 1, 80, flowDeleteBody), (Instr.meter (.pk h t n), FkOp.meter, 7, 0, 1, 16, meterBody),
        (Instr.search (.pk h t n), FkOp.search, 9, 80, 16, 16, searchBody fun _ => none),
        (Instr.assocStep (.pk h t n), FkOp.step, 10, 80, 16, 16, searchBody fun q => some (bits q.gc 0 28))],
      Issues s e.2.1 (.pk h t n) s1 w →
      (c.g (wB w) % 16 = 0 → u.pkPlace h t n (c.g (wB w)) e.2.2.2.2.2.1 = .ok l →
        (e.2.2.2.1 = 0 → bs = []) → (e.2.2.2.1 ≠ 0 → c.g (wA w) % e.2.2.2.2.1 = 0 ∧ u.pkSpan h t n (c.g (wA w)) e.2.2.2.1 = .ok bs) →
        (u.dcFull h t k (wDc w) = false → u.live (tblUnit h e.2.2.1) = true → pcInRange (.pk h t n) c.nextPc = true →
          r = e.2.2.2.2.2.2 u ⟨h, t, k, (u.task h t k).stamp.toNat, c, bs⟩ →
          (r.s.waits = s.waits → exec e.1 s = .next ((r.s.issueReq h t n c { Response.of .table e.2.2.1 l r.bytes with
            hold := r.hold.filter fun x => (u.tab.get h).held x.1 x.2 }).fallThrough c)) ∧
          (r.s.waits ≠ s.waits → exec e.1 s = .next s)) ∧
        (u.dcFull h t k (wDc w) = true ∨ u.live (tblUnit h e.2.2.1) = false → exec e.1 s = .next s1)) ∧
      (c.g (wB w) % 16 ≠ 0 →
        exec e.1 s = .next (u.takeTrap (.pk h t n) cAlign (BitVec.ofNat 64 (c.g (wB w))) c.pc c.pc))) ∧
  (∀ (s s1 u : State) (h : Half) (t : TileIx) (n : Fin 128) (w : Nat) (c : Fk), c = callOf s s1 (.pk h t n) w →
    u = s1.atIssue (.pk h t n) → Issues s .count (.pk h t n) s1 w →
    (u.live (.table h 3) = true → pcInRange (.pk h t n) c.nextPc = true → (u.countPair h (c.g (wA w)) (c.g (wC w))).waits = s.waits →
      exec (.count (.pk h t n)) s = .next ((u.countPair h (c.g (wA w)) (c.g (wC w))).fallThrough c)) ∧
    (u.live (.table h 3) = false → exec (.count (.pk h t n)) s = .next s1)) ∧
  (∀ (s : State) (h : Half) (t : TileIx) (id : Nat) (r : Response), (s.tile h t).response? id = some r → r.unit = .table →
    s.live (tblUnit h r.fn) = true → s.armed = [] →
    ((∀ x ∈ r.hold, (s.tab.get h).held x.1 x.2 = false) →
      exec (.tableResponse h t id) s = .next ((if 9 ≤ r.fn then s.countAssoc h r.bytes else s).respond h t r)) ∧
    (∀ x ∈ r.hold, (s.tab.get h).held x.1 x.2 = true → exec (.tableResponse h t id) s = .next s))

/-- What a search at a stamp sees (R150, R211): a STABLE entry always, a PENDING one from E of its batch on, a RETIRING one until E; a slot
not yet posted has the E 2⁶⁴ − 1. LOOKUP answers the entry with its TID, KEY and a version the stamp sees (R192); LPM answers the longest
prefix that covers the address (R201); a member of a group is the one its offset names, or with FAILOVER the first of up to 16 whose port is
up (R140).

A search of the ASSOC answers the entry of lowest rank among those that match under their care bits and take part, and MULTI tells whether
others match; STEP answers the first beyond its cursor (R145–R147, R155, R156). -/
def Obligations.LookupsAnswer : Prop :=
  ((∀ (s : State) (h : Half) (b st : Nat), s.visible h vsStable b st = true ∧ (s.visible h vsPending b st = true ↔ s.slotE h b ≤ st) ∧
     (s.visible h vsRetiring b st = true ↔ st < s.slotE h b) ∧
     ((s.bslot h b).state = .building ∨ (s.bslot h b).state = .ready ∨ (s.bslot h b).state = .undoing → s.slotE h b = 2 ^ 64 - 1) ∧
     ((s.bslot h b).state = .posted ∨ (s.bslot h b).state = .retiring → s.slotE h b = (s.bslot h b).e.toNat)) ∧
   (∀ (s : State) (q : TblCall) (i : Nat) (e : ExEntry), s.exLookup q.h (q.gc % 256) (exKeyOf q.bytes) q.st = some (i, e) →
     (lookupBody s q).bytes = tblBytes stHit 0 i e.result.toNat ∧ tget? (s.tab.get q.h).exact i = some e ∧ e.tid = q.gc % 256 ∧
     e.key = exKeyOf q.bytes ∧ s.visible q.h e.vstate e.batch q.st = true ∧
     (q.c.w.testBit 4 = false → (lookupBody s q).s = s) ∧
     (q.c.w.testBit 4 = true → e.ageProf ≠ 0 → (lookupBody s q).s =
       s.setEx q.h i { e with age := s.ageNow q.h, hit := true, at0 := s.ticks, noticed := false })) ∧
   (∀ (s : State) (q : TblCall), s.exLookup q.h (q.gc % 256) (exKeyOf q.bytes) q.st = none →
     (lookupBody s q).bytes = tblBytes stMiss 0 0 0 ∧ (lookupBody s q).s = s ∧
     ∀ i e, i ∈ exCands (q.gc % 256) (exKeyOf q.bytes) → tget? (s.tab.get q.h).exact i = some e → e.tid = q.gc % 256 →
       e.key = exKeyOf q.bytes → s.visible q.h e.vstate e.batch q.st = false) ∧
   (∀ (s : State) (h : Half) (vrf fam addr st n : Nat),
     (∀ r m, s.lpmFind h vrf fam addr st n = some (r, m) ↔
       m ≤ n ∧ s.routeAt h (routeKey vrf fam m addr) st = some r ∧
         ∀ j, m < j → j ≤ n → s.routeAt h (routeKey vrf fam j addr) st = none) ∧
     (s.lpmFind h vrf fam addr st n = none ↔ ∀ j, j ≤ n → s.routeAt h (routeKey vrf fam j addr) st = none)) ∧
   (∀ (s : State) (h : Half) (g off st : Nat), g.testBit 30 = false →
     s.groupMember h g off st = ((bits g 0 18 + off % bits g 18 10) % 262144, true)) ∧
   (∀ (s : State) (h : Half) (g off st m : Nat), g.testBit 30 = true → 0 < bits g 18 10 →
     (s.groupMember h g off st = (m, true) ↔ ∃ j, j < min (bits g 18 10) 16 ∧
       m = (bits g 0 18 + (off + j) % bits g 18 10) % 262144 ∧
       s.memberUp h (bits (s.indexedAt h (tget Indexed.init (s.tab.get h).members m) st) 24 8) = true ∧
       ∀ i, i < j → s.memberUp h (bits (s.indexedAt h (tget Indexed.init (s.tab.get h).members
         ((bits g 0 18 + (off + i) % bits g 18 10) % 262144)) st) 24 8) = false))) ∧
  ((∀ (e key : Nat), asMatches e key = true ↔ ∀ i, (asCare e).testBit i = true → key.testBit i = (asValue e).testBit i) ∧
   (∀ (l : List (Nat × Nat)), asFirst l = none ↔ l = []) ∧
   (∀ (l : List (Nat × Nat)) (x : Nat × Nat), asFirst l = some x → x ∈ l ∧ ∀ y ∈ l, asRank x.1 x.2 ≤ asRank y.1 y.2) ∧
   (∀ (s : State) (h : Half) (banks : List Nat) (key st i e : Nat), (i, e) ∈ s.asFound h banks key st ↔
     (i, e) ∈ (s.assoc.get h).entries ∧ asMatches e key = true ∧ s.asTakesPart h banks st i e = true) ∧
   (∀ (s : State) (h : Half) (c key st : Nat), (∀ b ∈ s.classBanks h c, s.bankLost h b = false ∧ s.filling h b = false) →
     (s.assoc.get h).withheld = [] → ∀ l, l = s.asFound h (s.classBanks h c) key st →
     (s.asSearch h c key st none).1 = asBytes (asFirst l) (decide (1 < l.length)) false false ∧
     ∀ r, (s.asSearch h c key st (some r)).1 = asBytes (asFirst (l.filter fun e => decide (r < asRank e.1 e.2)))
       (decide (1 < (l.filter fun e => decide (r < asRank e.1 e.2)).length)) false false))

/-- A charge of a meter (R209, R210): each bucket is refilled and clamped to its burst size, then the colour test of RFC 2697 or RFC 2698
takes tokens from the buckets it charges and from no other; a counter pair takes one frame and its bytes (R204), and its coherent read
shows the stored counts with the cached increments (R206).

Aging, learning and the stash (R195, R226–R228): a learned entry that is old is dropped with an AGED notification, one that is not has HIT
cleared; a frame examined refreshes, queues or skips its key; a queued entry is written, in the table and its shadow (R234); a stash record
returns to a free slot. A key whose entry is held back for its repair waits (R233), and so does the visit of a FLOW record whose HBM request has
to wait (R502, R505). -/
def Obligations.MetersCountersAndLearning : Prop :=
  ((∀ (m : Meter) (p now : Nat), (m.refill p now).tc ≤ prCbs p ∧ (m.refill p now).te ≤ prEbs p ∧ (m.refill p now).last = now ∧
     (m.tc ≤ prCbs p → m.tc ≤ (m.refill p now).tc)) ∧
   (∀ (m : Meter) (p b pre : Nat), prMode p = 1 →
     (pre = colGreen → b ≤ m.tc → m.test p b pre = ({ m with tc := m.tc - b }, colGreen)) ∧
     (pre ≠ colRed → (pre = colYellow ∨ m.tc < b) → b ≤ m.te → m.test p b pre = ({ m with te := m.te - b }, colYellow)) ∧
     ((pre = colRed ∨ ((pre = colYellow ∨ m.tc < b) ∧ m.te < b)) → m.test p b pre = (m, colRed))) ∧
   (∀ (m : Meter) (p b pre : Nat), prMode p = 2 →
     ((pre = colRed ∨ m.te < b) → m.test p b pre = (m, colRed)) ∧
     (pre ≠ colRed → b ≤ m.te → (pre = colYellow ∨ m.tc < b) → m.test p b pre = ({ m with te := m.te - b }, colYellow)) ∧
     (pre = colGreen → b ≤ m.te → b ≤ m.tc → m.test p b pre = ({ m with tc := m.tc - b, te := m.te - b }, colGreen))) ∧
   (∀ (s : State) (h : Half) (i : Nat), Tbl.wf (s.tab.get h).meters = true →
     (s.live (.table h 4) = true → ∃ t, exec (.meterRefill h i) s = .next t ∧
       t.meterOf h (i % 262144) = (s.meterOf h (i % 262144)).refill (s.meterProfile h (s.meterOf h (i % 262144)) (s.dts h).toNat) (s.meterNow h) ∧
       (∀ j, j ≠ i % 262144 → t.meterOf h j = s.meterOf h j) ∧ t = { s with tab := t.tab }) ∧
     (s.live (.table h 4) = false → exec (.meterRefill h i) s = .next s)) ∧
   (∀ (s : State) (h : Half) (i n : Nat), Tbl.wf (s.tab.get h).cache = true → i < 16777216 →
     (tget? (s.tab.get h).cache i).isSome = true ∨ (s.tab.get h).cache.length < cacheLines →
     tget? ((s.countPair h i n).tab.get h).cache i =
       some ((tget (0, 0) (s.tab.get h).cache i).1 + 1, (tget (0, 0) (s.tab.get h).cache i).2 + n) ∧
     ∀ j, j ≠ i → tget? ((s.countPair h i n).tab.get h).cache j = tget? (s.tab.get h).cache j) ∧
   (∀ (s s1 s2 : State) (h : Half) (i : Nat) (d : Nat × Nat) (bs : List Byte), s.live (.table h 3) = true →
     tget? (s.tab.get h).cache i = some d → s.hbmRead h counterReq (s.pairAddr h i) 16 = (s1, bs, false) →
     s1.hbmWrite h counterReq (s.pairAddr h i) (pairPlus bs d) = (s2, true) → s.armed = [] → s2.waits = s.waits →
     exec (.counterWriteback h i) s = .next (s2.updTab h fun t => { t with cache := tdel t.cache i })) ∧
   (∀ (s s1 : State) (h : Half) (i : Nat) (bs : List Byte), s.live (.table h 3) = true → (s.tab.get h).reading = some (i, false) →
     s.hbmRead h counterReq (s.pairAddr h i) 16 = (s1, bs, false) → s.armed = [] → s1.waits = s.waits → ∀ now, now = pairPlus bs (tget (0, 0) (s1.tab.get h).cache i) →
     exec (.counterReadDone h) s = .next (((s1.setReg (bTable h 3) R.counter_READ_PKTS (BitVec.ofNat 64 (leNat (slice now 0 8)))).setReg
       (bTable h 3) R.counter_READ_BYTES (BitVec.ofNat 64 (leNat (slice now 8 8)))).updTab h fun t => { t with reading := none }))) ∧
  ((∀ (s : State) (h : Half) (i : Nat) (e : ExEntry), s.live (.table h 5) = true → tget? (s.tab.get h).exact i = some e → s.armed = [] →
     ((e.ageProf = 0 ∨ e.vstate ≠ vsStable) → exec (.agingVisit h false i) s = .next s) ∧
     (e.ageProf ≠ 0 → e.vstate = vsStable → e.learned = true →
       (s.ageThr h e.ageProf ≤ s.ageOf h e.age e.at0 → ∀ u, u = ((s.dropEx h i).bump (bTable h 5) R.learn_AGED).learnNote h
           ⟨ntAged, e.tid, e.key, some (e.result.toNat % 256), none, some i⟩ →
         u.waits = s.waits → exec (.agingVisit h false i) s = .next u) ∧
       (s.ageOf h e.age e.at0 < s.ageThr h e.ageProf → exec (.agingVisit h false i) s = .next (s.setEx h i { e with hit := false }))) ∧
     (e.ageProf ≠ 0 → e.vstate = vsStable → e.learned = false → s.ageOf h e.age e.at0 < s.ageThr h e.ageProf →
       exec (.agingVisit h false i) s = .next (s.setEx h i { e with hit := false, noticed := e.noticed }))) ∧
   (∀ (s : State) (h : Half) (port : Nat) (bs : List Byte) (rest : List (List Byte × Nat)), s.live (.table h 5) = true →
     (s.tab.get h).examine = (bs, port) :: rest → s.learnHeld h (s.learnTid h) (exKeyOf bs) = false → ∀ u, u = (s.updTab h fun t => { t with examine := rest }) →
     (∀ i e, s.learnCheck h (s.learnTid h) (exKeyOf bs) port = .same i e → exec (.learnExamine h) s = .next (u.learnRefresh h i e)) ∧
     (s.learnCheck h (s.learnTid h) (exKeyOf bs) port = .absent →
       exec (.learnExamine h) s = .next (u.queueLearn h ⟨exKeyOf bs, s.learnTid h, port⟩)) ∧
     (s.learnCheck h (s.learnTid h) (exKeyOf bs) port = .skip →
       exec (.learnExamine h) s = .next (u.bump (bTable h 5) R.learn_LEARN_SKIP))) ∧
   (∀ (s : State) (h : Half),
     (∀ bs port rest, (s.tab.get h).examine = (bs, port) :: rest → s.learnHeld h (s.learnTid h) (exKeyOf bs) = true →
       exec (.learnExamine h) s = .next s) ∧
     (∀ u, u = s.withShadow (doLearnWrite h s) h → s.armed = [] → exec (.learnWrite h) s = .next u)) ∧
   (∀ (s : State) (h : Half) (x : LearnWrite) (rest : List LearnWrite), s.live (.table h 5) = true →
     (s.tab.get h).learnQueue = x :: rest → s.learnHeld h x.tid x.key = false → s.armed = [] → ∀ u, u = (s.updTab h fun t => { t with learnQueue := rest }) →
     (∀ i e, s.learnCheck h x.tid x.key x.port = .same i e → exec (.learnWrite h) s = .next (s.withShadow (u.learnRefresh h i e) h)) ∧
     (∀ v i, s.learnCheck h x.tid x.key x.port = .absent → u.exSlot h x.tid x.key = (v, some i) →
       exec (.learnWrite h) s = .next (s.withShadow ((((v.setEx h i
         { key := x.key, result := v.learnResult h x.port, tid := x.tid, ageProf := v.rfld (bTable h 5) R.learn_LEARN_CFG 20 4,
           age := v.ageNow h, vstate := vsStable, batch := 0, learned := true, hit := true, at0 := v.ticks, noticed := false }).bump
             (bTable h 5) R.learn_LEARN_NEW).learnNote h ⟨ntNew, x.tid, x.key, none, some x.port, some i⟩).shareLearn h x) h)) ∧
     (∀ v, s.learnCheck h x.tid x.key x.port = .absent → u.exSlot h x.tid x.key = (v, none) →
       exec (.learnWrite h) s = .next (s.withShadow ((v.bump (bTable h 5) R.learn_LEARN_FULL).learnNote h
         ⟨ntFull, x.tid, x.key, none, some x.port, none⟩) h))) ∧
   (∀ (s : State) (h : Half) (n : Fin 1024) (r : List Byte), s.live (.table h 1) = true → tget? (s.tab.get h).stash n.val = some r → s.armed = [] →
     (s.flowFreeIn h (s.flowBuckets h (frKey r)) = [] → exec (.flowStashReturn h n) s = .next s) ∧
     (∀ i, s.flowFreeIn h (s.flowBuckets h (frKey r)) = [i] → (s.used.flowPut h i r).waits = s.waits → exec (.flowStashReturn h n) s =
       .next ((s.used.flowPut h i r).updTab h fun t => { t with
         stash := tdel t.stash n.val
         flowAt := tput (tdel t.flowAt (stashSlot n.val)) i (tget 0 (s.tab.get h).flowAt (stashSlot n.val)) }))) ∧
   (∀ (s u : State) (h : Half) (i : Nat), s.live (.table h 5) = true → s.armed = [] → u = s.ageFlow h i →
     (u.waits = s.waits → exec (.agingVisit h true i) s = .next u) ∧ (u.waits ≠ s.waits → exec (.agingVisit h true i) s = .next s)))

/-- The commands of a batch slot (R215–R218): BUILD and BUILD_POST take a FREE slot to BUILDING with the list's address and length latched,
POST takes a READY slot to POSTED when E is at least DTS + 64 and below 2⁶⁰ and else leaves it READY with the reason, ABORT undoes a READY
slot, ACK frees a REFUSED one; a command not valid for the slot's state only counts CMD_IGNORED.

A batch is built, undone and retired (R214–R216, R219): a record that none of the reasons refuses is applied and the slot is READY, or
posted, after its last one; a refused record sets REASON and FAIL_REC and undoes the batch; undoing and retirement pass one entry a step;
a POSTED slot retires when the basis has reached its E, which with both halves active needs a notice (R222); an entry that the slot names but
another batch holds by now stays as it is; the shadow follows every change (R234). -/
def Obligations.BatchesApply : Prop :=
  ((∀ (s : State) (a : Agent) (h : Half) (b : Fin 256), s.agentReach a (.table h 7) = true → Tbl.wf (s.tab.get h).slots = true →
     ((s.bslot h b.val).state = .free →
       ∀ e ∈ [(Instr.build a h b, none), (Instr.buildPost a h b, some (s.reg (bTable h 7) R.version_BATCH_E))],
         ∃ t, exec e.1 s = .next t ∧ (t.bslot h b.val).state = .building ∧
           (t.bslot h b.val).addr = s.rfld (bTable h 7) R.version_BATCH_LIST_ADDR 3 45 * 8 ∧
           (t.bslot h b.val).len = s.rfld (bTable h 7) R.version_BATCH_LIST_LEN 0 32 ∧ (t.bslot h b.val).postE = e.2 ∧
           (t.tab.get h).builds = (s.tab.get h).builds ++ [b.val] ∧ t = { s with tab := t.tab }) ∧
     ((s.bslot h b.val).state = .ready → ∀ e, e = s.reg (bTable h 7) R.version_BATCH_E →
       ∃ t, exec (.post a h b) s = .next t ∧ t = { s with tab := t.tab } ∧
         ((s.dts h).toNat + 64 ≤ e.toNat → e.toNat < 2 ^ 60 → (t.bslot h b.val).state = .posted ∧ (t.bslot h b.val).e = e) ∧
         (e.toNat < (s.dts h).toNat + 64 → (t.bslot h b.val).state = .ready ∧ (t.bslot h b.val).reason = rsEarly) ∧
         ((s.dts h).toNat + 64 ≤ e.toNat → 2 ^ 60 ≤ e.toNat → (t.bslot h b.val).state = .ready ∧ (t.bslot h b.val).reason = rsRange)) ∧
     ((s.bslot h b.val).state = .ready → (s.bslot h b.val).touched ≠ [] →
       exec (.abort a h b) s = .next (s.updSlot h b.val fun x => { x with state := .undoing, abort := true })) ∧
     ((s.bslot h b.val).state = .refused → exec (.ack a h b) s = .next (s.updSlot h b.val fun _ => BatchSlot.init)) ∧
     (((s.bslot h b.val).state ≠ .free → exec (.build a h b) s = .next (s.bump (bTable h 7) R.version_CMD_IGNORED) ∧
         exec (.buildPost a h b) s = .next (s.bump (bTable h 7) R.version_CMD_IGNORED)) ∧
       ((s.bslot h b.val).state ≠ .ready → exec (.post a h b) s = .next (s.bump (bTable h 7) R.version_CMD_IGNORED) ∧
         exec (.abort a h b) s = .next (s.bump (bTable h 7) R.version_CMD_IGNORED)) ∧
       ((s.bslot h b.val).state ≠ .refused → exec (.ack a h b) s = .next (s.bump (bTable h 7) R.version_CMD_IGNORED))))) ∧
  ((∀ (s : State) (h : Half) (b : Nat) (bs : List Nat) (x : BatchSlot), s.live (.table h 7) = true → (s.tab.get h).builds = b :: bs →
     x = s.bslot h b → x.state = .building → s.armed = [] →
     (x.len = 0 → (s.buildDone h b).waits = s.waits → exec (.batchRecordApply h) s = .next (s.withShadow (s.buildDone h b) h)) ∧
     (∀ v w, x.len ≠ 0 → s.nextRec h x = (v, none) → w = v.refuseRec h b rsList →
       (w.waits = s.waits → exec (.batchRecordApply h) s = .next (s.withShadow w h)) ∧
       (w.waits ≠ s.waits → exec (.batchRecordApply h) s = .next s)) ∧
     (∀ v w r n, x.len ≠ 0 → s.nextRec h x = (v, some (r, n)) → w.waits = s.waits →
       (v.recReason h b r ≠ 0 → w = v.refuseRec h b (v.recReason h b r) → exec (.batchRecordApply h) s = .next (s.withShadow w h)) ∧
       (v.recReason h b r = 0 → ∀ y, y = (v.applyRec h b r).updSlot h b (fun x => { x with pos := x.pos + n, recNo := x.recNo + 1 }) →
         (x.pos + n = x.len → w = y.buildDone h b → exec (.batchRecordApply h) s = .next (s.withShadow w h)) ∧
         (x.pos + n ≠ x.len → w = y → exec (.batchRecordApply h) s = .next (s.withShadow w h))))) ∧
   (∀ (s : State) (h : Half) (b : Fin 256) (t : Touch) (ts : List Touch), s.live (.table h 7) = true → (s.bslot h b.val).touched = t :: ts → s.armed = [] →
     ((s.bslot h b.val).state = .undoing →
       ∀ y, y = (s.settle h b.val false t).updSlot h b.val (fun x => { x with touched := ts }) →
       (ts ≠ [] → exec (.batchUndoStep h b) s = .next (s.withShadow y h)) ∧
       (ts = [] → exec (.batchUndoStep h b) s = .next (s.withShadow (y.undone h b.val) h))) ∧
     ((s.bslot h b.val).state = .retiring →
       ∀ y, y = (s.settle h b.val true t).updSlot h b.val (fun x => { x with touched := ts }) →
       (ts ≠ [] → exec (.retireWalkStep h b) s = .next (s.withShadow y h)) ∧
       (ts = [] → exec (.retireWalkStep h b) s = .next (s.withShadow (y.retired h b.val) h)))) ∧
   (∀ (s : State) (h : Half) (b : Fin 256), s.live (.table h 7) = true → (s.bslot h b.val).state = .posted →
     (s.pairActive h = true → (s.tab.get h).noticed = true) →
     ((s.bslot h b.val).e.toNat ≤ s.retireBasis h → (s.bslot h b.val).touched ≠ [] →
       exec (.batchRetireStart h b) s = .next (s.updSlot h b.val fun x => { x with state := .retiring })) ∧
     (s.retireBasis h < (s.bslot h b.val).e.toNat → exec (.batchRetireStart h b) s = .next s)) ∧
   (∀ (s : State) (h : Half) (b i : Nat) (e : ExEntry), Tbl.wf (s.tab.get h).exact = true → tget? (s.tab.get h).exact i = some e →
     (e.batch ≠ b → ∀ walk, s.settle h b walk (.exact i) = s) ∧ (e.batch = b →
     (e.vstate = vsPending → tget? ((s.settle h b false (.exact i)).tab.get h).exact i = none ∧
       tget? ((s.settle h b true (.exact i)).tab.get h).exact i = some { e with vstate := vsStable }) ∧
     (e.vstate = vsRetiring → tget? ((s.settle h b true (.exact i)).tab.get h).exact i = none ∧
       tget? ((s.settle h b false (.exact i)).tab.get h).exact i = some { e with vstate := vsStable }))) ∧
   (∀ (s : State) (h : Half) (b : Nat) (r : BatchRec), s.pendingTotal h + 2 ≤ maxPending → r.table = tgExact → r.op = opInsert →
     r.len = 32 → r.zero = 0 → r.index = 0 → (s.bslot h b).keys = [] → (s.tab.get h).exFind r.exTid r.exK = [] →
     s.recReason h b r = (if s.exHasSlot h r.exTid r.exK then 0 else rsFull)))

/-- Errors in the tables and their repair (R159–R162, R176, R233, R235, R236): a withheld entry answers no search until it is rewritten
from its shadow; a check finds a slot that differs from its shadow, and the repair rewrites it (R234). -/
def Obligations.TablesScrubbedAndRepaired : Prop :=
  (∀ (s : State) (h : Half) (t : Fin 16) (i : Nat), ∃ u, exec (.tableEntryRepairDone h t i) s = .next u ∧
    (t.val, i) ∉ (u.tab.get h).withheld ∧ (∀ x, x ≠ (t.val, i) → (x ∈ (u.tab.get h).withheld ↔ x ∈ (s.tab.get h).withheld)) ∧
    u = { s with tab := u.tab, assoc := u.assoc } ∧ ((t.val, i) ∉ (s.tab.get h).withheld → u = s) ∧
    ((t.val, i) ∈ (s.tab.get h).withheld → u = (s.fromShadow h t.val i).updTab h fun x =>
      { x with withheld := x.withheld.filter (· ≠ (t.val, i)) })) ∧
  (∀ (s : State) (h : Half) (t : Fin 16) (i : Nat), s.live (.table h 6) = true → bit (s.reg (bTable h 6) R.shadow_SHADOW_CFG) 0 = true →
    t.val ≤ tgRepl →
    (s.shadowDiffers h t.val i = false → exec (.shadowCheckVisit h t i false false) s = .next s ∧
      exec (.shadowCheckVisit h t i false true) s = .next (s.setReg (bTable h 6) R.shadow_SHADOW_STAT (s.dts h))) ∧
    (∀ d, (d = true ∨ s.shadowDiffers h t.val i = true) → s.shadowSkips h t.val i = false → s.shadowLearned h t.val i = false → bit (s.reg (bTable h 6) R.shadow_SHADOW_CFG) 1 = false →
      ∀ v, v = (s.report (.table h 6) F.SHADOW_DIVERGE (tgDetail t.val i)).bump (bTable h 6) R.shadow_DIVERGED → 
        exec (.shadowCheckVisit h t i d false) s = .next v)) ∧
  (∀ (s : State) (h : Half) (t : Fin 16) (i : Nat), (t.val, i) ∈ (s.tab.get h).shadowHeld →
    exec (.shadowRepairDone h t i) s = .next (((s.fromShadow h t.val i).updTab h fun x =>
      { x with shadowHeld := x.shadowHeld.filter (· ≠ (t.val, i)) }).bump (bTable h 6) R.shadow_REPAIRED)) ∧
  (∀ (s : State) (h : Half) (i : BitVec 16), s.live (.assoc h) = true → s.bankLost h (i.toNat / 2048) = false →
    s.filling h (i.toNat / 2048) = false → i.toNat ∉ (s.assoc.get h).withheld →
    (exec (.assocScrubVisit h i .clean true) s = .next s) ∧
    (exec (.assocScrubVisit h i .corrected true) s = .next ((s.report (.assoc h) F.ASSOC_ECC).bump (bAssoc h) R.assoc_SCRUB_CORRECTED)) ∧
    (∀ v, v = ((s.report (.assoc h) F.ASSOC_ENTRY i.toNat).bump (bAssoc h) R.assoc_SCRUB_UNCORRECTED).updAssoc h
        (fun a => { a with withheld := a.withheld ++ [i.toNat] }) → i.toNat ∉ (s.assoc.get h).rewritten →
      ∀ f, exec (.assocScrubVisit h i .uncorrectable f) s = .next v) ∧
    (∀ e, tget? (s.assoc.get h).entries i.toNat = some e →
      exec (.assocScrubVisit h i .clean false) s = .next (s.bankFails h (i.toNat / 2048)))) ∧
  (∀ (s : State) (h : Half) (i : BitVec 16), i.toNat ∈ (s.assoc.get h).withheld → i.toNat ∉ (s.assoc.get h).rewritten →
    exec (.assocEntryRepairDone h i) s = .next ((s.fromShadow h tgAssoc i.toNat).updAssoc h fun a =>
      { a with withheld := a.withheld.filter (· ≠ i.toNat), rewritten := a.rewritten ++ [i.toNat] })) ∧
  (∀ (s : State) (h : Half), bit (s.reg (bAssoc h) R.assoc_BANK_STAT) 14 = true →
    exec (.assocSpareFillDone h) s = .next (s.setRfld (bAssoc h) R.assoc_BANK_STAT 14 1 0)) ∧
  (∀ (s : State) (h : Half) (t : TileIx) (p : Fin 16384), s.live (.tile h t) = true → p.val ∉ (s.tile h t).brambleWithheld →
    exec (.brambleScrubVisit h t p .clean) s = .next s ∧
    exec (.brambleScrubVisit h t p .corrected) s = .next (s.report (.tile h t) F.BRAMBLE_ECC) ∧
    exec (.brambleScrubVisit h t p .uncorrectable) s = .next ((s.updTile h t fun x =>
      { x with brambleWithheld := x.brambleWithheld ++ [p.val] }).report (.tile h t) F.BRAMBLE_PATTERN p.val)) ∧
  (∀ (s : State) (h : Half) (t : TileIx) (p : Fin 16384), Tbl.wf (s.tiles.get h) = true →
    ∃ u, exec (.brambleReloadDone h t p) s = .next u ∧ p.val ∉ (u.tile h t).brambleWithheld ∧ u = { s with tiles := u.tiles })

/-- An instruction for a coprocessor that its unit can serve has its effect and its response is outstanding: the check-value unit
(R412–R418), the hash unit (R419), the divide/log unit (R420), and the confirm port (R179, R354). -/
def Obligations.CoprocessorOperations : Prop :=
  ∀ (s s1 u : State) (h : Half) (t : TileIx) (n : Fin 128) (w : Nat) (c : Fk) (q : CpCall), c = callOf s s1 (.pk h t n) w →
    u = s1.atIssue (.pk h t n) → ReachesUnit u h t n c q → u.callFull q = false → pcInRange (.pk h t n) c.nextPc = true →
    (∀ bs, Issues s .cvcfg (.pk h t n) s1 w → u.cpIn q (c.g (wA w)) 32 16 = .ok (bs, true) →
      exec (.fkCvcfg (.pk h t n)) s = .next (((u.updInst q fun y =>
        { y with poly := wordAt bs 0, init := wordAt bs 8, xorout := wordAt bs 16, control := wordAt bs 24,
                 r := BitVec.ofNat 64 ((wordAt bs 8).toNat % 2 ^ (fld (wordAt bs 24) 0 6 + 1)) }).cpIssue q
          (cpResponse q (.ram 0) [] 0)).fallThrough c)) ∧
    (∀ bs, Issues s .cvupd (.pk h t n) s1 w → cvStream (c.g (wB w)) = 0 → u.cpIn q (c.g (wA w)) (cvLen (c.g (wB w))) 1 = .ok (bs, true) →
      exec (.fkCvupd (.pk h t n)) s = .next (((u.updInst q fun y => { y with r := BitVec.ofNat 64 (y.crc.run y.r.toNat bs) }).cpIssue q
        (cpResponse q (.ram 0) [] 0)).fallThrough c)) ∧
    (∀ l, Issues s .cvfin (.pk h t n) s1 w → u.cpOut q (c.g (wC w)) 16 16 = .ok l →
      exec (.fkCvfin (.pk h t n)) s = .next ((((u.updInst q fun y =>
        { y with r := BitVec.ofNat 64 (y.crc.init % 2 ^ y.crc.w) }).used).cpIssue q (cpResponse q l (cvBytes
          ((u.cpInst q).crc.final (u.cpInst q).r.toNat) (cvWord1 0 0 (u.free 32).toNat ((u.free 32).toNat / 4096))) 0)).fallThrough c)) ∧
    (∀ la ls r l y m, Issues s .cvappend (.pk h t n) s1 w → y = u.cpInst q → m = cvLen (c.g (wB w)) →
      u.cpOut q (c.g (wA w)) (m + y.cntBytes + y.chkBytes) 1 = .ok la → u.cvRecord q (cvStream (c.g (wB w))) y.cntBytes = .ok (ls, r, true) →
      u.cpOut q (c.g (wC w)) 16 16 = .ok l → (u.tile h t).poisoned la m = false → 0 < y.cntBytes →
      ∀ chk, chk = y.crc.of ((u.tile h t).get la m ++ beBytes y.cntBytes r.tx) →
      exec (.fkCvappend (.pk h t n)) s = .next (((u.updTile h t fun x =>
        (x.put (la.add m) (beBytes y.cntBytes r.tx ++ y.chkPut chk)).put ls { r with tx := (r.tx + 1) % 2 ^ (8 * y.cntBytes) }.bytes).cpIssue q
          (cpResponse q l (cvBytes chk (cvWord1 0 0 m (m + y.cntBytes + y.chkBytes))) 0)).fallThrough c)) ∧
    (∀ bs ls r l y x, Issues s .cvcheck (.pk h t n) s1 w → y = u.cpInst q → u.cpIn q (c.g (wA w)) (cvLen (c.g (wB w))) 1 = .ok (bs, true) →
      u.cvRecord q (cvStream (c.g (wB w))) y.cntBytes = .ok (ls, r, true) → u.cpOut q (c.g (wC w)) 16 16 = .ok l →
      x = cvCheck y r bs (u.free 64).toNat →
      (x.2.2 = none → exec (.fkCvcheck (.pk h t n)) s =
        .next ((u.used.cpIssue q (cpResponse q l (cvBytes x.1 x.2.1) 0)).fallThrough c)) ∧
      (∀ r1, x.2.2 = some r1 → exec (.fkCvcheck (.pk h t n)) s =
        .next ((((u.updTile h t fun z => z.put ls r1.bytes).used).cpIssue q (cpResponse q l (cvBytes x.1 x.2.1) 0)).fallThrough c))) ∧
    (∀ bs, Issues s .hcfg (.pk h t n) s1 w → u.cpIn q (c.g (wA w)) 48 1 = .ok (bs, true) →
      exec (.fkHcfg (.pk h t n)) s = .next (((u.updInst q fun y =>
        { y with key := slice bs 0 40, crcInit := BitVec.ofNat 32 (leNat (slice bs 40 4)) }).cpIssue q (cpResponse q (.ram 0) [] 0)).fallThrough c)) ∧
    (∀ bs l m v, v = c.g (wB w) → m = (if bits v 0 7 = 0 ∨ 64 < bits v 0 7 then 64 else bits v 0 7) → bits v 7 24 = 0 →
      u.cpOut q (c.g (wC w)) 8 8 = .ok l →
      (Issues s .hash (.pk h t n) s1 w → u.cpIn q (c.g (wA w)) m 1 = .ok (bs, true) → exec (.fkHash (.pk h t n)) s =
        .next ((u.cpIssue q (cpResponse q l (leBytes 8 (hashH (v.testBit 31) (u.cpInst q).key (u.cpInst q).crcInit.toNat (bs.take m))) 0)).fallThrough c)) ∧
      (Issues s .hashm (.pk h t n) s1 w → u.cpIn q (c.g (wA w)) 128 1 = .ok (bs, true) → exec (.fkHashm (.pk h t n)) s =
        .next ((u.cpIssue q (cpResponse q l (leBytes 8 (hashH (v.testBit 31) (u.cpInst q).key (u.cpInst q).crcInit.toNat
          (maskBytes (bs.take m) (slice bs 64 m)))) 0)).fallThrough c))) ∧
    (∀ l, u.cpOut q (c.g (wC w)) 8 8 = .ok l →
      ∀ e ∈ [(Instr.fkFdiv (.pk h t n), FkOp.fdiv, fdivRes (modeRnd c.x.mode) (c.g (wA w)) (c.g (wB w))),
          (Instr.fkLog2 (.pk h t n), FkOp.log2, log2Res (modeRnd c.x.mode) (c.g (wA w)) (u.free 32).toNat),
          (Instr.fkExp2 (.pk h t n), FkOp.exp2, exp2Res (modeRnd c.x.mode) (c.g (wA w)) (u.free 32).toNat)], Issues s e.2.1 (.pk h t n) s1 w →
        exec e.1 s = .next ((u.used.cpIssue q (cpResponse q l (fracBytes e.2.2.1 e.2.2.2.1 e.2.2.2.2) 0)).fallThrough c)) ∧
    (∀ l k, u.cpOut q (c.g (wC w)) 8 8 = .ok l → u.confString q = .ok k → k.good = true →
      ∀ e ∈ [(Instr.confirmCmp (.pk h t n), FkOp.confCmp, 1, 256, confCmp u q k), (Instr.confirmFind (.pk h t n), FkOp.confFind, 2, 32, confFind u q k)],
        Issues s e.2.1 (.pk h t n) s1 w → e.2.2.1 ≤ k.n → k.n ≤ e.2.2.2.1 → e.2.2.2.2.2 = true →
        exec e.1 s = .next ((u.cpIssue q (cpResponse q l e.2.2.2.2.1 0)).fallThrough c)) ∧
    (∀ l ms, Issues s .confStep (.pk h t n) s1 w → q.k < svcBase → u.cpOut q (c.g (wC w)) 72 8 = .ok l →
      ms = (u.ptMatches h t (u.scanWindow h t q.k) (u.task h t q.k).stamp.toNat).filter (fun m => decide (bits (c.g (wA w)) 0 28 < m.rank)) →
      exec (.confirmStep (.pk h t n)) s = .next (((u.countScan h t (u.scanWindow h t q.k).length ms.length (u.ptReloading h t)).cpIssue q
        (cpResponse q l (resultBlock ms ++ leBytes 8 (summaryWord ms.length (u.scanWindow h t q.k).length (u.ptReloading h t))) 0)).fallThrough c))

/-- CPLOCK, CPUNLOCK, CPSAVE and CPRESTORE (R399–R401): a free instance is granted in its reset state, one held by another answers BUSY, a
release returns it to reset, and an image saved loads what was saved.

A unit function of which the task does not hold the instance, where the unit must be locked, traps COPROC with NOT_LOCKED and the TVAL of
R406; one whose instance was lost traps LOST once (R402, R404–R406).

Responses of the coprocessors (R397, R407, R408): the oldest operation answers and its counter falls; one that fails late answers 0xFF
in its status byte, raises interrupt 6 on its thread and counts CP_LATE; a cancellation undoes its increment. -/
def Obligations.CoprocessorLocksAndResponses : Prop :=
  ((∀ (s s1 u : State) (h : Half) (t : TileIx) (n : Fin 128) (w k : Nat) (c : Fk), c = callOf s s1 (.pk h t n) w →
     u = s1.atIssue (.pk h t n) → k = u.slotOfThread h t n → (u.tile h t).lostKey k w = none → pcInRange (.pk h t n) c.nextPc = true →
     (Issues s .cplock (.pk h t n) s1 w → exec (.fkCplock (.pk h t n)) s =
       .next ((((u.cpLock h t n k (wUnit w) (wInst w)).1).putG (.pk h t n) (wA w) (u.cpLock h t n k (wUnit w) (wInst w)).2).fallThrough c)) ∧
     (Issues s .cpunlock (.pk h t n) s1 w → exec (.fkCpunlock (.pk h t n)) s =
       .next ((((u.cpUnlock h t k (wUnit w) (wInst w)).1).putG (.pk h t n) (wA w) (u.cpUnlock h t k (wUnit w) (wInst w)).2).fallThrough c))) ∧
   (∀ (s : State) (h : Half) (t : TileIx) (n : Fin 128) (k un i : Nat), Tbl.wf (s.tiles.get h) = true → Tbl.wf (s.tile h t).insts = true →
     (lockRequired un = false → s.cpLock h t n k un i = (s, 3) ∧ s.cpUnlock h t k un i = (s, 3)) ∧
     (lockRequired un = true → (s.tile h t).heldIn k (instUnit un) i = none → s.cpUnlock h t k un i = (s, 4) ∧
       ((tget CpInst.reset (s.tile h t).insts (instKey (n.val / 32) (instUnit un) i)).holder = none →
         (s.cpLock h t n k un i).2 = 0 ∧ tget CpInst.reset ((s.cpLock h t n k un i).1.tile h t).insts (instKey (n.val / 32) (instUnit un) i) =
           { CpInst.reset with holder := some k }) ∧
       (∀ j, (tget CpInst.reset (s.tile h t).insts (instKey (n.val / 32) (instUnit un) i)).holder = some j →
         (s.cpLock h t n k un i).2 = 1 ∧
         (tget CpInst.reset ((s.cpLock h t n k un i).1.tile h t).insts (instKey (n.val / 32) (instUnit un) i)).holder = some j)) ∧
     (∀ cl, lockRequired un = true → (s.tile h t).heldIn k (instUnit un) i = some cl →
       s.cpLock h t n k un i = (s, 2) ∧ (s.cpUnlock h t k un i).2 = 0)) ∧
   (∀ (s s1 u : State) (h : Half) (t : TileIx) (n : Fin 128) (w : Nat) (c : Fk) (q : CpCall), c = callOf s s1 (.pk h t n) w →
     u = s1.atIssue (.pk h t n) → ReachesUnit u h t n c q → pcInRange (.pk h t n) c.nextPc = true →
     (∀ l, Issues s .cpsave (.pk h t n) s1 w → u.cpOut q (c.g (wB w)) (saveBytes (wUnit w)) 16 = .ok l → u.callFull q = false →
       exec (.fkCpsave (.pk h t n)) s = .next ((u.issueReq h t n c (cpResponse q l ((u.cpInst q).image (wUnit w)) 0)).fallThrough c)) ∧
     (∀ bs, Issues s .cprestore (.pk h t n) s1 w → u.cpIn q (c.g (wB w)) (saveBytes (wUnit w)) 16 = .ok (bs, true) →
       leNat (slice bs 0 8) >>> 48 = saveHeader (wUnit w) >>> 48 →
       exec (.fkCprestore (.pk h t n)) s = .next ((u.updInst q fun y => y.load (wUnit w) bs).fallThrough c))) ∧
   (∀ (y z : CpInst), (z.load 0 (y.image 0)).poly = y.poly ∧ (z.load 0 (y.image 0)).init = y.init ∧ (z.load 0 (y.image 0)).xorout = y.xorout ∧
     (z.load 0 (y.image 0)).control = y.control ∧ (z.load 0 (y.image 0)).r = y.r ∧
     (y.key.length = 40 → (z.load 1 (y.image 1)).key = y.key ∧ (z.load 1 (y.image 1)).crcInit = y.crcInit))) ∧
  (∀ (s s1 u : State) (h : Half) (t : TileIx) (n : Fin 128) (w k : Nat) (c : Fk), c = callOf s s1 (.pk h t n) w →
     u = s1.atIssue (.pk h t n) → k = u.slotOfThread h t n →
     ∀ e ∈ [(Instr.fkCvcfg (.pk h t n), FkOp.cvcfg), (Instr.fkCvupd (.pk h t n), FkOp.cvupd), (Instr.fkCvfin (.pk h t n), FkOp.cvfin),
         (Instr.fkCvappend (.pk h t n), FkOp.cvappend), (Instr.fkCvcheck (.pk h t n), FkOp.cvcheck), (Instr.fkHcfg (.pk h t n), FkOp.hcfg),
         (Instr.fkHash (.pk h t n), FkOp.hash), (Instr.fkHashm (.pk h t n), FkOp.hashm), (Instr.fkExpRequest (.pk h t n), FkOp.expReq)],
       Issues s e.2 (.pk h t n) s1 w →
       ((u.tile h t).lostKey k w = none → (u.tile h t).heldIn k (instUnit (wUnit w)) (wInst w) = none →
         exec e.1 s = .next ((u.bump (bCoproc h t (Fin.ofNat 4 (n.val / 32))) R.coproc_CP_TRAPS).takeTrap (.pk h t n) cCoproc
           (BitVec.ofNat 64 (wPrim w <<< 16 ||| wFn7 w <<< 8 ||| 1)) c.pc c.pc)) ∧
       (∀ x, (u.tile h t).lostKey k w = some x →
         exec e.1 s = .next (((u.updTile h t fun y => { y with lostInsts := y.lostInsts.filter (· ≠ x) }).bump
           (bCoproc h t (Fin.ofNat 4 (n.val / 32))) R.coproc_CP_TRAPS).takeTrap (.pk h t n) cCoproc
             (BitVec.ofNat 64 (wPrim w <<< 16 ||| wFn7 w <<< 8 ||| 3)) c.pc c.pc))) ∧
  ((∀ (s : State) (h : Half) (t : TileIx) (id un cl i : Nat) (r : Response), (s.tile h t).response? id = some r → r.unit = .coproc un cl i →
     (s.tile h t).oldest r = true → r.ready = true → s.armed = [] →
     (r.late = 0 → exec (.coprocResponse h t id) s = .next ((s.respond h t r).settleAfter h t r)) ∧
     (r.late ≠ 0 → exec (.coprocResponse h t id) s = .next ((s.lateFail h t r r.late).settleAfter h t r))) ∧
   (∀ (s : State) (h : Half) (t : TileIx) (id un cl i : Nat) (r : Response) (code : BitVec 8), (s.tile h t).response? id = some r →
     r.unit = .coproc un cl i → (s.tile h t).oldest r = true → (code = 5 ∧ un < 2 ∨ code = 6 ∧ un ≠ 3) →
     exec (.coprocLateFailure h t id code) s = .next ((s.lateFail h t r code.toNat).settleAfter h t r)) ∧
   (∀ (s : State) (h : Half) (t : TileIx) (n : Fin 128) (f : LateFail), s.threadWf (.pk h t n) = true → Tbl.wf s.csr = true →
     (((s.lateReport h t n.val f).thread (.pk h t n)).ipend.getLsbD 6 = true) ∧
     (s.lateReport h t n.val f).reg (bCoproc h t (Fin.ofNat 4 f.cl)) R.coproc_CP_LATE =
       s.reg (bCoproc h t (Fin.ofNat 4 f.cl)) R.coproc_CP_LATE + 1) ∧
   (∀ (s : State) (h : Half) (t : TileIx) (c : Fin 4) (e : CancelRec), (s.tile h t).cancels.find? (fun e => decide (e.cluster = c.val)) = some e →
     ∀ u, u = (s.updTile h t fun x => { x with cancels := x.cancels.erase e }).bump (bCoproc h t c) R.coproc_CP_CANCELLED →
     (u.task h t e.slot).complete = false → exec (.coprocCancelAck h t c) s = .next (u.dcDown h t e.slot e.dc)))

/-- What a message with a good check does to its stream (R418), the corners of FDIV and LOG2 (R420), and CMP and FIND (R179). -/
def Obligations.CoprocessorResults : Prop :=
  (∀ (r : Stream) (win k cnt : Nat), r.rx < 2 ^ (8 * k) → cnt < 2 ^ (8 * k) →
    (r.sync = true → r.accept win k cnt = (0, 0, { r with rx := cnt, sync := false, jumps := 0 })) ∧
    (r.sync = false →
      (cnt = r.rx → r.accept win k cnt = (2, 0, { r with repeats := r.repeats + 1 })) ∧
      (∀ d, 0 < d → d ≤ win → d < 2 ^ (8 * k) → cnt = (r.rx + d) % 2 ^ (8 * k) →
        r.accept win k cnt = (0, d - 1, { r with rx := cnt, jumps := 0, gaps := r.gaps + (d - 1) })) ∧
      (∀ d, 0 < d → win < d → d < 2 ^ (8 * k) → cnt = (r.rx + d) % 2 ^ (8 * k) →
        r.accept win k cnt = (3, d - 1, { r with jumps := r.jumps + 1 })))) ∧
  (∀ rnd a : Nat, a < 2 ^ 32 →
    fdivRes rnd a 0 = (if a < 2 ^ 31 then 0x7FFFFFFF else 0x80000000, true, false) ∧
    (0 < a → a < 2 ^ 31 → fdivRes rnd a a = (0x7FFFFFFF, false, true))) ∧
  (∀ rnd f : Nat, log2Res rnd 0 f = (0x80000000, true, false) ∧ ∀ n, n < 32 → log2Res rnd (2 ^ n) f = (n * 2 ^ 26, false, false)) ∧
  (∀ (s : State) (q : CpCall) (k : ConfString),
    ((s.callFrame q).length < q.c.g (wA q.c.w) + k.n → (confCmp s q k).1 = confWord 2 0) ∧
    (q.c.g (wA q.c.w) + k.n ≤ (s.callFrame q).length → ((confCmp s q k).1 = confWord 0 0 ↔ k.at (s.callFrame q) (q.c.g (wA q.c.w)) = true)) ∧
    (∀ o, o < 65536 → (∀ p, bits (q.c.g (wA q.c.w)) 0 16 ≤ p → p < o → k.at (s.callFrame q) p = false) → bits (q.c.g (wA q.c.w)) 0 16 ≤ o →
      o + k.n ≤ min (s.callFrame q).length (bits (q.c.g (wA q.c.w)) 16 16) → 0 < k.n → k.at (s.callFrame q) o = true →
      (confFind s q k).1 = confWord 0 o))

/-- EXP_REQUEST and the port's own work (R422–R430): a request waits for credit with a tag of its own; the next message leaves with its credit,
packed in flits on the lanes; sixteen blocks received are a flit that is good or bad by its CRC and SEQ, or an alignment of the lanes;
a response answers its request and a time-out fails it; the link rises after 64 good flits, and its fall fails what is outstanding. -/
def Obligations.ExpansionPort : Prop :=
  (∀ (s s1 u : State) (h : Half) (t : TileIx) (n : Fin 128) (w v tag : Nat) (c : Fk) (q : CpCall) (bs : List Byte) (l : Loc),
    c = callOf s s1 (.pk h t n) w → u = s1.atIssue (.pk h t n) → ReachesUnit u h t n c q → Issues s .expReq (.pk h t n) s1 w →
    v = c.g (wB w) → bits v 9 7 = 0 → bits v 25 7 = 0 → bits v 0 9 ≤ 256 → bits v 16 9 ≤ 256 →
    u.cpIn q (c.g (wA w)) (bits v 0 9) 16 = .ok (bs, true) → u.cpOut q (c.g (wC w)) (8 + bits v 16 9) 16 = .ok l →
    (u.exp.get h).linkUp = true → u.callFull q = false → (u.tile h t).expOut q.cl (wInst w) < 64 → (u.exp.get h).reqs.length < 4096 →
    (u.exp.get h).findTag u.ticks (u.free 12).toNat 4096 = some tag → pcInRange (.pk h t n) c.nextPc = true →
    ∃ r y, exec (.fkExpRequest (.pk h t n)) s = .next (({ (u.cpIssue q r).used with exp := (u.cpIssue q r).used.exp.upd h fun e =>
        { e with waiting := e.waiting ++ [y], reqs := e.reqs ++ [(⟨tag, t, (u.tile h t).nextId, bits v 16 9, none⟩ : ExpReq)] } }).fallThrough c) ∧
      y.tag = tag ∧ y.bytes = bs ∧ y.frame = false ∧ r.ready = false ∧ r.loc = l) ∧
  (∀ (s : State) (h : Half) (m : ExpMsg), (s.exp.get h).nextMsg = some m → (s.exp.get h).linkUp = true →
    (s.exp.get h).kept.length + m.flits ≤ 128 →
    ∀ u, u = (s.updExp h fun x => (x.send m s.ticks).putFlits (s.expLane h) (s.injectFree h) (m.pack x.txSeq)) →
    (m.frame = true → exec (.expReqSend h) s = .next u) ∧
    (m.frame = false → exec (.expReqSend h) s = .next (u.bump (bHalf h) R.half_EXP_REQUESTS))) ∧
  (∀ (x : ExpState) (m : ExpMsg), x.nextMsg = some m → m ∈ x.waiting ∧ x.hasCredit m = true) ∧
  (∀ (s : State) (h : Half) (blocks : List (BitVec 66)) (skew : Nat) (numbers : List Nat) (cfg : DWord) (b : List Byte), s.expEn h = true →
    cfg = s.expLane h → b = (s.exp.get h).rxBytes cfg blocks →
    (skew ≤ 64 → dataHeaders cfg blocks = true → flitGood (s.exp.get h).rxSeq b = true →
      exec (.expFlitReceive h blocks 0xFFFF skew false numbers) s = .next (s.updExp h fun x => (x.rxShift cfg blocks).takeFlit b s.ticks)) ∧
    (skew ≤ 64 → (dataHeaders cfg blocks = false ∨ flitGood (s.exp.get h).rxSeq b = false) → (s.exp.get h).badRun < 15 →
      exec (.expFlitReceive h blocks 0xFFFF skew false numbers) s =
        .next ((s.bump (bHalf h) R.half_EXP_CRC_ERR).updExp h fun x => (x.rxShift cfg blocks).badFlit)) ∧
    (skew ≤ 64 → numbers = (List.range 16).map (laneOf cfg) →
      exec (.expFlitReceive h blocks 0xFFFF skew true numbers) s = .next (s.updExp h fun x => { x with locked := true, aligned := true })) ∧
    (64 < skew → ∀ a, exec (.expFlitReceive h blocks 0xFFFF skew a numbers) s = .next (s.expLoses h true)) ∧
    (∀ locked a, locked ≠ 0xFFFF → exec (.expFlitReceive h blocks locked skew a numbers) s = .next (s.expLoses h false))) ∧
  (∀ (x : ExpState) (b : List Byte) (now : Nat), flitGood x.rxSeq b = true → ∀ y, y = x.takeFlit b now →
    y.goodRun = x.goodRun + 1 ∧ y.badRun = 0 ∧ y.rxSeq = (if flitIdle x.rxSeq b then x.rxSeq else (x.rxSeq + 1) % 256) ∧
    y.reqCredits = x.reqCredits + (if flitClass b = 1 then flitCredits b else 0) ∧
    y.frameCredits = x.frameCredits + (if flitClass b = 2 then flitCredits b else 0)) ∧
  (∀ (seq ack cls credits : Nat) (p b : List Byte), p.length = 120 → seq < 256 → ack < 256 → cls < 4 → credits < 16384 →
    b = flitBytes seq ack cls credits p → b.length = 128 ∧ flitSeq b = seq ∧ flitAck b = ack ∧ flitClass b = cls ∧ flitCredits b = credits ∧
    flitPayload b = p ∧ leNat (slice b 124 4) = flitCrc b % 2 ^ 32) ∧
  (∀ (s : State) (h : Half) (tag : BitVec 12) (status : BitVec 8) (bs : List Byte), (s.exp.get h).linkUp = true →
    ((s.exp.get h).reqs.find? (fun q => decide (q.tag = tag.toNat) && q.sent.isSome) = none →
      exec (.expRspReceive h tag status bs) s =
        .next ((s.updExp h fun x => x.handOn ⟨2, tag.toNat, status.toNat, bs⟩).bump (bHalf h) R.half_EXP_LATE_RSP)) ∧
    (∀ q r u, (s.exp.get h).reqs.find? (fun q => decide (q.tag = tag.toNat) && q.sent.isSome) = some q →
      u = ((s.updExp h fun x => x.handOn ⟨2, tag.toNat, status.toNat, bs⟩).updExp h fun x =>
        { x with reqs := x.reqs.filter fun r => r.tag ≠ tag.toNat }).bump (bHalf h) R.half_EXP_RESPONSES →
      (u.tile h q.tile).response? q.resp = some r → status = 0 → exec (.expRspReceive h tag status bs) s =
        .next ((u.respond h q.tile { r with bytes := rspBytes 0 q.r (bs.take 256) }).settleAfter h q.tile r))) ∧
  (∀ (s : State) (h : Half) (tag : BitVec 12) (q : ExpReq) (at0 : Nat), (s.exp.get h).reqs.find? (fun q => decide (q.tag = tag.toNat)) = some q →
    q.sent = some at0 →
    (at0 + s.expTimeout h ≤ s.ticks → exec (.expTimeout h tag) s = .next (((s.expFail h 7 q).bump (bHalf h) R.half_EXP_TIMEOUTS).updExp h
      fun x => { x with dead := (x.dead.filter fun d => decide (s.ticks < d.2)) ++ [(tag.toNat, s.ticks + s.expTimeout h)] })) ∧
    (s.ticks < at0 + s.expTimeout h → exec (.expTimeout h tag) s = .next s)) ∧
  (∀ (s : State) (h : Half) (bs : List Byte), (s.exp.get h).linkUp = true → s.expFrames h = true → s.injectRoom h = true →
    ∀ u, u = (s.updExp h fun x => x.spendIn bs) →
    (60 ≤ bs.length → bs.length ≤ 10240 → s.canTake h 0 (cellsFor bs.length) = true → exec (.frameIn h bs) s = .next (u.injectBytes h 3 bs)) ∧
    ((bs.length < 60 ∨ 10240 < bs.length) → exec (.frameIn h bs) s = .next (u.bump (bHalf h) R.half_EXP_FRAME_DROP))) ∧
  (∀ (s : State) (h : Half), (s.exp.get h).linkUp = true → (s.exp.get h).kept ≠ [] → (s.exp.get h).ackTick + 3000 ≤ s.ticks →
    (s.exp.get h).replayTick + 3000 ≤ s.ticks →
    exec (.expReplay h) s = .next ((s.updExp h fun x => ({ x with replayTick := s.ticks }).putFlits (s.expLane h) (s.injectFree h) x.kept).bump
      (bHalf h) R.half_EXP_REPLAYS)) ∧
  (∀ (s : State) (h : Half), s.expEn h = true → (s.exp.get h).linkUp = false → 64 ≤ (s.exp.get h).goodRun → s.pv.ioLost = [] →
    exec (.expLinkUp h) s = .next ((s.updExp h fun x => { x with linkUp := true, ackTick := s.ticks }).portReturns h 67)) ∧
  (∀ (s : State) (h : Half), ((s.exp.get h).linkUp = true → exec (.expLinkDown h) s = .next (s.expFalls h)) ∧
    ((s.exp.get h).linkUp = false → exec (.expLinkDown h) s = .next s))

/-- The placement of an address in the stacks (R496), and its inverse.

What a half's HBM reads after a write (R502, R503): a write accepted by its controller is what a MAIN read of the same bytes
returns where the read does not err; a request beyond the space, to a stopped controller or refused by the regions writes
nothing (R499, R517, R676). -/
def Obligations.HbmReadsWhatWasWritten : Prop :=
  ((∀ a : Nat, a < hbmTop → hbmPc a < 64 ∧ hbmBank a < 32 ∧ hbmRow a < 24576 ∧
     hbmAddrOf (hbmRowKey a) (bits a 14 2) + a % 256 = a) ∧
   (∀ (k : RowKey) (c : Nat), k.p < 64 → k.bank < 32 → c < 4 → hbmRowKey (hbmAddrOf k c) = k ∧ bits (hbmAddrOf k c) 14 2 = c)) ∧
  ((∀ (s u : State) (h : Half) (r : HbmReq) (a : Nat) (bs : List Byte), r.stream = false → a % 256 + bs.length ≤ 256 → bs ≠ [] →
     Tbl.wf (s.hbm.get h).mem = true → Tbl.wf (s.hbm.get h).wq = true → (∀ p, ∀ e ∈ tget [] (s.hbm.get h).wq p, Tbl.wf e.bytes = true ∧ ∀ b ∈ e.bytes, b.1 < 32) →
     s.hbmWritePart h r a bs = (u, true) → ∀ d, d = (u.hbmReadPart h r a bs.length).2 → d.err = false → d.errs = [] → d.bytes = bs) ∧
   (∀ (s : State) (h : Half) (r : HbmReq) (a : Nat) (bs : List Byte), (s.hbmStop h r.cls true a ≠ none ∨
       (s.hbm.get h).retired.contains (hbmRowKey a) = true) →
     (s.hbmWritePart h r a bs).2 = false ∧ ((s.hbmWritePart h r a bs).1.hbm.get h).mem = (s.hbm.get h).mem))

/-- A pseudo-channel performs the part it may (R505): a read brings its bytes to its request, a write enters the write queue, a parity error is
recorded and repeated (R516); a part whose controller is at GATED or SLEEP waits for the wake (R510). A unit's own request that has to wait
changes nothing (R502, R505, R514).

The controllers' own work (R504, R508–R510, R513, R514, R518, R675, R677): a write of MAIN precedence goes to the array before the others
and every write within 2 µs; a refresh falls due, is postponed and is forced; an idle pseudo-channel powers down; the scrub reads one granule
after another when it is due; a repair ends; a training and a temperature are reported.

A unit that is idle enters GATED or SLEEP where AUTO_EN and DEEPEST allow it, and wakes (R50, R638). -/
def Obligations.HbmWorks : Prop :=
  ((∀ (s u : State) (h : Half) (p : Fin 64) (i : Nat) (q : HbmPart) (ecc : List EccOutcome), (tget [] (s.hbm.get h).parts p.val)[i]? = some q →
     (s.hbm.get h).mayPerform p.val s.ticks i = true → s.hbmAwake h (hbmStack q.addr) = true → s.armed = [] →
     u = (s.updHbm h fun x => { x with parts := tset [] x.parts p.val ((tget [] x.parts p.val).eraseIdx i) }) →
     (q.write = true → exec (.hbmAccess h p i ecc 0) s = .next ((u.performWrite h q).1.finishPart h q (u.performWrite h q).2)) ∧
     (q.write = false → exec (.hbmAccess h p i ecc 0) s = .next ((u.performRead h q ecc).1.finishPart h q (u.performRead h q ecc).2)) ∧
     (∀ v, v = u.fault (.hbmc h (hbmStack q.addr)) F.HBM_PARITY →
       (q.write = true → exec (.hbmAccess h p i ecc 1) s = .next ((v.performWrite h q).1.finishPart h q (v.performWrite h q).2)) ∧
       (q.write = false → exec (.hbmAccess h p i ecc 1) s = .next ((v.performRead h q ecc).1.finishPart h q (v.performRead h q ecc).2)) ∧
       exec (.hbmAccess h p i ecc 2) s = .next (((v.fault (.hbmc h (hbmStack q.addr)) F.HBM_LINK).updHbm h fun x =>
         { x with linkBad := x.linkBad.filter (· ≠ (hbmStack q.addr).val) }).finishPart h q (PartData.failed q.len)))) ∧
   (∀ (s : State) (h : Half) (p : Fin 64) (i : Nat) (ecc : List EccOutcome) (parity : Fin 3), s.armed = [] →
     ((s.hbm.get h).mayPerform p.val s.ticks i = false → exec (.hbmAccess h p i ecc parity) s = .next s) ∧
     (∀ q, (tget [] (s.hbm.get h).parts p.val)[i]? = some q → s.hbmAwake h (hbmStack q.addr) = false →
       exec (.hbmAccess h p i ecc parity) s = .next s)) ∧
   (∀ (x : HbmState) (p now i : Nat) (q : HbmPart), x.mayPerform p now i = true → (tget [] x.parts p)[i]? = some q → q.write = false →
     q.promoted now = false → ∀ j r, (tget [] x.parts p)[j]? = some r → x.eligible p j = true → r.write = false → r.promoted now = false) ∧
   (∀ (x : HbmState) (p now i : Nat) (q : HbmPart), x.mayPerform p now i = true → (tget [] x.parts p)[i]? = some q →
     x.repairing.contains (hbmRowKey q.addr) = false ∧ (q.write = true → x.roomFor q.addr q.len = true) ∧
     (q.write = false → x.draining.contains (hbmPc q.addr) = false)) ∧
   (∀ (r : Response) (q : HbmPart) (d : PartData), (r.partDone q d).parts = r.parts - 1 ∧ ((r.partDone q d).ready = true ↔ r.parts ≤ 1) ∧
     (q.write = true → (r.partDone q d).bytes = r.bytes)) ∧
   (∀ (s : State) (h : Half) (r : HbmReq) (a n : Nat) (bs : List Byte),
     (s.hbmWaits h r false a n = true → s.hbmUnitRead h r a n = ({ s with waits := true }, ⟨List.replicate n 0, [], true⟩)) ∧
     (s.hbmWaits h r true a bs.length = true → s.hbmUnitWrite h r a bs = ({ s with waits := true }, false)) ∧
     (s.hbmWaits h r true a bs.length = true → s.hbmStop h r.cls true a = none)) ∧
   (∀ (s : State) (f : State → State), s.armed = [] →
     ((f s).waits = s.waits → s.orWait f = f s) ∧ ((f s).waits ≠ s.waits → s.orWait f = s))) ∧
  ((∀ (s : State) (h : Half) (p : Fin 64), s.armed = [] →
     (s.hbmAwake h (Fin.ofNat 2 (p.val / 32)) = true → exec (.hbmWriteToArray h p) s = .next (s.updHbm h fun x => x.drainNext p.val s.ticks)) ∧
     (s.hbmAwake h (Fin.ofNat 2 (p.val / 32)) = false → exec (.hbmWriteToArray h p) s = .next s)) ∧
   (∀ (x : HbmState) (p now : Nat), (x.nextEntry p now = none → x.drainNext p now = x) ∧
     ∀ e, x.nextEntry p now = some e → e ∈ tget [] x.wq p ∧ x.entryTurn p now e = true ∧
       (e.promoted now = false → ∀ f ∈ tget [] x.wq p, x.entryTurn p now f = true → f.promoted now = false) ∧
       (wqFind (tget [] x.wq p) e.gran = some e →
         x.drainNext p now = (x.toArray e).setWq p ((tget [] x.wq p).filter fun f => f.gran ≠ e.gran))) ∧
   (∀ (x : HbmState) (p now : Nat) (e : WqEntry), Tbl.wf x.wq = true → e ∈ tget [] (x.drainOld p now).wq p →
     now < e.since + 3000 ∨ x.repairing.contains (hbmRowKey (e.gran * 32)) = true) ∧
   (∀ (s : State) (h : Half) (p : Fin 64) (b : Nat), b < 32 →
     ((s.hbm.get h).bankIdle p.val b = true → exec (.hbmRefresh h p b) s = .next (s.updHbm h fun x =>
       { x.wake p.val with owed := tset 0 x.owed (64 * b + p.val) 0, openRow := tset none x.openRow (64 * b + p.val) none })) ∧
     ((s.hbm.get h).bankIdle p.val b = false → tget 0 (s.hbm.get h).owed (64 * b + p.val) < 7 →
       exec (.hbmRefresh h p b) s = .next (s.updHbm h fun x =>
         { x.wake p.val with owed := tset 0 x.owed (64 * b + p.val) (tget 0 (s.hbm.get h).owed (64 * b + p.val) + 1) })) ∧
     ((s.hbm.get h).bankIdle p.val b = false → 7 ≤ tget 0 (s.hbm.get h).owed (64 * b + p.val) →
       exec (.hbmRefresh h p b) s = .next ((s.updHbm h fun x =>
         { x.wake p.val with owed := tset 0 x.owed (64 * b + p.val) (tget 0 (s.hbm.get h).owed (64 * b + p.val)),
                             openRow := tset none x.openRow (64 * b + p.val) none }).bump
           (bHbmc h (Fin.ofNat 2 (p.val / 32))) R.hbmc_REF_FORCED))) ∧
   (∀ (s : State) (h : Half) (p : Fin 64), s.hbmUp h (Fin.ofNat 2 (p.val / 32)) = true →
     bit (s.reg (bHbmc h (Fin.ofNat 2 (p.val / 32))) R.hbmc_HBMC_CFG) 2 = true → tget [] (s.hbm.get h).parts p.val = [] →
     tget [] (s.hbm.get h).wq p.val = [] → (s.hbm.get h).noOwed p.val = true → p.val ∉ (s.hbm.get h).down →
     ∀ n, n = (s.hbm.get h).cycle - tget 0 (s.hbm.get h).idleFrom p.val →
     (s.pdIdle (bHbmc h (Fin.ofNat 2 (p.val / 32))) ≤ n → exec (.hbmPowerDown h p) s = .next ((s.updHbm h fun x =>
       { x with down := x.down ++ [p.val], downAt := tset 0 x.downAt p.val s.ticks }).bump
         (bHbmc h (Fin.ofNat 2 (p.val / 32))) R.hbmc_PD_ENTRIES)) ∧
     (n < s.pdIdle (bHbmc h (Fin.ofNat 2 (p.val / 32))) → exec (.hbmPowerDown h p) s = .next s)) ∧
   (∀ (s : State) (h : Half) (st : Fin 2) (e : EccOutcome) (a : Nat), bit (s.reg (bHbmc h st) R.hbmc_HBMC_CFG) 3 = true → s.hbmUp h st = true →
     a = scrubAddr st (tget 0 (s.hbm.get h).scrubNext st.val) →
     ((s.scrubDue h st = false ∨ s.scrubWaits h a = true) → exec (.hbmScrubRead h st e) s = .next s) ∧
     (s.scrubDue h st = true → s.scrubWaits h a = false → (s.hbm.get h).poison.contains (a / 32) = false →
       (s.hbm.get h).retired.contains (hbmRowKey a) = false → exec (.hbmScrubRead h st e) s =
         .next ((((s.updHbm h fun x => x.touch s.ticks a).granEcc h (a / 32) e).granFails h (a / 32) e).scrubNext h st))) ∧
   (∀ (s : State) (h : Half) (st : Fin 2) (i : Nat), i = tget 0 (s.hbm.get h).scrubNext st.val → Tbl.wf s.csr = true →
     Tbl.wf (s.hbm.get h).scrubNext = true →
     (i + 1 < stackGrans → tget 0 ((s.scrubNext h st).hbm.get h).scrubNext st.val = i + 1 ∧ s.scrubNext h st = { s with hbm := (s.scrubNext h st).hbm }) ∧
     (stackGrans ≤ i + 1 → tget 0 ((s.scrubNext h st).hbm.get h).scrubNext st.val = 0 ∧
       (s.scrubNext h st).reg (bHbmc h st) R.hbmc_SCRUB_PASSES = s.reg (bHbmc h st) R.hbmc_SCRUB_PASSES + 1)) ∧
   (∀ (s : State) (h : Half) (p : Fin 64) (b row : Nat), (s.hbm.get h).repairing.contains ⟨p.val, b, row⟩ = true →
     ∃ t, exec (.hbmRowRepairDone h p b row) s = .next t ∧ (t.hbm.get h).repairing.contains ⟨p.val, b, row⟩ = false ∧
       (t.hbm.get h).repaired.contains ⟨p.val, b, row⟩ = true ∧ (t.hbm.get h).mem = (s.hbm.get h).mem) ∧
   (∀ (s : State) (h : Half) (st : Fin 2), s.dev.devState ≠ .start → s.hbmUp h st = true → bit (s.reg (bHbmc h st) R.hbmc_HBMC_STAT) 2 = false →
     exec (.hbmTrainingDone h st true) s = .next ((s.remapLanes h st).setTrained h st) ∧
     exec (.hbmTrainingDone h st false) s = .next (s.fault (.hbmc h st) F.HBM_TRAIN)) ∧
   (∀ (s : State) (h : Half) (st : Fin 2) (temp : BitVec 8), temp.toNat < 100 → Tbl.wf s.csr = true →
     ∃ t, exec (.hbmStackTempReport h st temp) s = .next t ∧ t.rfld (bHbmc h st) R.hbmc_HBMC_STAT 40 8 = temp.toNat ∧
       bit (t.reg (bHbmc h st) R.hbmc_HBMC_STAT) 32 = decide (85 ≤ temp.toNat) ∧ st.val ∉ (t.hbm.get h).hot ∧
       t = { s with csr := t.csr, hbm := t.hbm })) ∧
  ((∀ (s : State) (u : UnitId) (sleep : Bool) (n : Nat), n = (if sleep then 2 else 1) → (∀ h t, u = .spare h t → sleep = true) →
     Tbl.wf s.units = true →
     (n ≤ deepestOf u → s.powerAllows u n = true → s.powerIdle u sleep = true → (s.unit u).power < n →
       ∃ t, exec (.powerGateEnter u sleep) s = .next t ∧ t.unit u = { s.unit u with power := n } ∧ t = { s with units := t.units }) ∧
     (s.powerAllows u n = false ∨ s.powerIdle u sleep = false → exec (.powerGateEnter u sleep) s = .next s)) ∧
   (∀ (s : State) (u : UnitId), Tbl.wf s.units = true → (s.unit u).power = 1 ∨ (s.unit u).power = 2 →
     ∃ t, exec (.powerWake u) s = .next t ∧ t.unit u = { s.unit u with power := 0 } ∧ t = { s with units := t.units }))

/-- A write of GO by a slot's owner sets BUSY and clears LOST; a command the slot does not offer answers BAD_CMD and a second one of the four
exclusive commands answers BUSY at once (R619, R620). A response sets DONE and clears BUSY and names its status in RSP_0.

The commands of R620 that act on Privet's own state: INFO, GRANT, STORE_COMMIT, LOG_READ, I2C_XFER, DEBUG_CHALLENGE and DEBUG_UNLOCK
(R614, R616, R627–R629). -/
def Obligations.Mailboxes : Prop :=
  ((∀ (s : State) (a : Agent) (j : Fin 4) (u : State), s.mbOwner a j.val = true → s.live (.privet 6) = true → bit (s.mbCtl j.val) 2 = false →
     u = s.setMbCtl j.val (setFld (setFld (s.mbCtl j.val) 2 1 1) 3 1 0) →
     (mbOffered (s.mbOp j.val) j.val = false → exec (.mbGo a j) s = .next (u.mbAnswer j.val mbBadCmd)) ∧
     (mbOffered (s.mbOp j.val) j.val = true → mbExclusive (s.mbOp j.val) = true → (s.busySlots.any fun i => mbExclusive (s.mbOp i)) = true →
       exec (.mbGo a j) s = .next (u.mbAnswer j.val mbBusy)) ∧
     (mbOffered (s.mbOp j.val) j.val = true → (mbExclusive (s.mbOp j.val) = false ∨ (s.busySlots.any fun i => mbExclusive (s.mbOp i)) = false) →
       exec (.mbGo a j) s = .next u)) ∧
   (∀ (s : State) (a : Agent) (j : Fin 4), (s.mbOwner a j.val = false ∨ bit (s.mbCtl j.val) 2 = true) → exec (.mbGo a j) s = .next s) ∧
   (∀ (s : State) (j : Fin 4) (st : Nat), Tbl.wf s.csr = true → st < 256 → ∀ u, u = s.mbAnswer j.val st →
     u.reg (bPrivet 6) (R.mbox_RSP_0 + 0x100 * j.val) = BitVec.ofNat 64 (st * 2 ^ 56) ∧ bit (u.mbCtl j.val) 1 = true ∧
     bit (u.mbCtl j.val) 2 = false ∧ bit (u.mbCtl j.val) 3 = bit (s.mbCtl j.val) 3) ∧
   (∀ (s : State) (j : Fin 4), s.pvUp = false → ∀ acks bs, ∀ e ∈ [Instr.privetInfo j, Instr.imgStage j, Instr.imgActivate j, Instr.imgConfirm j,
     Instr.storeCommit j, Instr.logRead j, Instr.i2cXfer j acks bs, Instr.grant j, Instr.debugChallenge j, Instr.debugUnlock j, Instr.ccReload j],
     exec e s = .next s)) ∧
  (∀ (s : State) (j : Fin 4),
     (s.mbRuns j.val 1 = true → exec (.privetInfo j) s = .next (s.mbAnswer j.val mbOk [(1, s.pv.fwBuild), (2, s.pv.imgBuild), (3, s.pv.ccBuild),
       (4, s.pv.boots), (5, s.pv.start.refused), (6, s.pv.start.firstRefused <<< 16 ||| s.pv.start.firstReason)])) ∧
     (s.mbRuns j.val 8 = true → exec (.grant j) s = .next ((s.setRfld (bPrivet 8) (R.pcie_GRANT_PF + 8 * fld (s.mbCmd j.val 1) 0 1) 0 3
       (fld (s.mbCmd j.val 2) 0 3)).mbAnswer j.val mbOk)) ∧
     (s.mbRuns j.val 5 = true → s.pv.pfailLow = false →
       (∀ u, s.storeCommit = some u → exec (.storeCommit j) s = .next (u.mbAnswer j.val mbOk [(1, u.pv.storeSeq)]) ∧
         u.pv.storeSeq = (s.pv.storeSeq + 1) % 2 ^ 32) ∧
       (s.storeCommit = none → exec (.storeCommit j) s = .next (s.mbAnswer j.val mbFlash))) ∧
     (s.mbRuns j.val 6 = true →
       (((s.mbCmd j.val 3).toNat = 0 ∨ 1024 < (s.mbCmd j.val 3).toNat) → s.armed = [] → exec (.logRead j) s = .next (s.mbAnswer j.val mbBadCmd)) ∧
       (∀ es u, 0 < (s.mbCmd j.val 3).toNat → (s.mbCmd j.val 3).toNat ≤ 1024 → es = s.logFrom (fld (s.mbCmd j.val 1) 0 32) (s.mbCmd j.val 3).toNat →
         s.mbWrite j.val (s.mbCmd j.val 2).toNat (es.flatMap fun e => e) = (u, 0) → s.armed = [] → u.waits = s.waits →
         exec (.logRead j) s = .next (u.mbAnswer j.val mbOk [(1, es.length)]))) ∧
     (∀ given, s.mbRuns j.val 7 = true → fld (s.mbCmd j.val 3) 0 9 ≤ 256 → fld (s.mbCmd j.val 3) 16 9 ≤ 256 →
       ∀ u bs, s.mbRead j.val (s.mbCmd j.val 2).toNat (fld (s.mbCmd j.val 3) 0 9) = (u, 0, bs) → s.armed = [] → u.waits = s.waits →
       (exec (.i2cXfer j false given) s = .next (u.mbAnswer j.val mbNak)) ∧
       (∀ v, u.mbWrite j.val ((s.mbCmd j.val 2).toNat + fld (s.mbCmd j.val 3) 0 9) (given.take (fld (s.mbCmd j.val 3) 16 9)) = (v, 0) → v.waits = s.waits →
         exec (.i2cXfer j true given) s = .next (v.mbAnswer j.val mbOk [(1, (given.take (fld (s.mbCmd j.val 3) 16 9)).length)]))) ∧
     (s.mbRuns j.val 9 = true → ∃ t n, exec (.debugChallenge j) s = .next t ∧ t.pv.nonce = some (n, s.ticks + 60 * 1500000000) ∧ n.length = 32 ∧
       t.pv = { s.pv with nonce := t.pv.nonce }) ∧
     (∀ u token, s.mbRuns j.val 0xA = true → s.mbRead j.val (s.mbCmd j.val 2).toNat 112 = (u, 0, token) → s.armed = [] → u.waits = s.waits →
       ∃ t, exec (.debugUnlock j) s = .next t ∧ t.pv.fuses = u.pv.fuses ∧
         (if u.tokenOk token then t.pv.unlocked = u.pv.unlocked ||| (hdrNum token 0 4 % 16)
          else t = (u.updPv fun p => { p with nonce := none }).mbAnswer j.val mbVerify)))

/-- Images (R598, R602–R608): a container is staged into the slot that is not active once every step of R598 accepts it; a packet image is
activated at its switch tick; a confirmation clears TRIAL and never lowers SVN_MIN.

The store, the log and the rest of Privet's work (R609–R616, R629): a record that read back wrong is written again and a change of
sections 2–7 is committed; a hub's event enters the log
buffer and is written with the next sequence; CAL_VIEW's USER is written for an item that exists; an expired scope locks.

The management port (R624, R625): a good frame of 64 to 1,536 bytes with Privet's address goes to Privet, a broadcast to Privet and the
ring, any other to ring 1; the port sends the oldest record of ring 2. -/
def Obligations.ImagesStoreAndPort : Prop :=
  ((∀ (s : State) (j : Fin 4) (kind img n : Nat), s.mbRuns j.val 2 = true → s.pv.pfailLow = false → kind = fld (s.mbCmd j.val 1) 0 2 →
     img = fld (s.mbCmd j.val 1) 8 1 → n = (s.mbCmd j.val 3).toNat → s.armed = [] →
     ((kind = 0 ∨ slotSize kind < n) → exec (.imgStage j) s = .next (s.mbAnswer j.val mbBadCmd)) ∧
     (kind ≠ 0 → n ≤ slotSize kind →
       (s.dirEntry (kind - 1) % 2 = img → exec (.imgStage j) s = .next (s.mbAnswer j.val mbDenied)) ∧
       (∀ u v c k, s.dirEntry (kind - 1) % 2 ≠ img → s.mbRead j.val (s.mbCmd j.val 2).toNat n = (u, 0, c) → u.stage kind img c = (v, k) → v.waits = s.waits →
         exec (.imgStage j) s = .next (if k = 0 then v.mbAnswer j.val mbOk else v.mbAnswer j.val mbVerify [(1, k)])))) ∧
   (∀ (s : State) (kind slot : Nat) (c : List Byte) (k : Nat), s.verifyHead kind c = k → k ≠ 0 →
     s.stage kind slot c = (s.flashErase (slotBase kind slot) (slotSize kind), k)) ∧
   (∀ (s : State) (j : Fin 4), s.mbRuns j.val 3 = true → s.pv.pfailLow = false →
     (fld (s.mbCmd j.val 1) 0 2 = 0 → exec (.imgActivate j) s = .next (s.mbAnswer j.val mbBadCmd)) ∧
     (fld (s.mbCmd j.val 1) 0 2 = 1 → exec (.imgActivate j) s = .next (s.activateFirmware j.val (fld (s.mbCmd j.val 1) 8 1))) ∧
     (fld (s.mbCmd j.val 1) 0 2 = 2 → exec (.imgActivate j) s = .next (s.activateImage j.val (fld (s.mbCmd j.val 1) 8 1) (s.mbCmd j.val 4))) ∧
     (∀ u st k, fld (s.mbCmd j.val 1) 0 2 = 3 → s.loadSoftware (fld (s.mbCmd j.val 1) 8 1) (fld (s.mbCmd j.val 5) 0 2) = (u, st, k) →
       exec (.imgActivate j) s = .next (if st = mbOk then
         (u.dirPut 2 (dirEnt (u.slotSvn 3 (fld (s.mbCmd j.val 1) 8 1)) 0 true (fld (s.mbCmd j.val 1) 8 1))).mbAnswer j.val mbOk
         else u.mbAnswer j.val st (if st = mbVerify then [(1, k)] else [])))) ∧
   (∀ (s : State) (j : Fin 4) (kind : Nat), s.mbRuns j.val 4 = true → s.pv.pfailLow = false → kind = fld (s.mbCmd j.val 1) 0 2 → kind ≠ 0 →
     ∀ e u, e = s.dirEntry (kind - 1) → u = s.dirPut (kind - 1) (dirEnt (e >>> 32) (bits e 9 3) false (e % 2)) →
     (bit (s.mbCmd j.val 1) 16 = false → exec (.imgConfirm j) s = .next (u.mbAnswer j.val mbOk)) ∧
     (bit (s.mbCmd j.val 1) 16 = true → exec (.imgConfirm j) s = .next ((u.updPv fun p => { p with fuses := { p.fuses with
       svnMin := tset 0 p.fuses.svnMin kind (max (tget 0 s.pv.fuses.svnMin kind) (min (e >>> 32) 64)) } }).mbAnswer j.val mbOk))) ∧
   (∀ (s u : State) (j : Fin 4) (st k : Nat), s.mbRuns j.val 0xB = true →
     s.loadSoftware (s.dirEntry 2 % 2) (fld (s.mbCmd j.val 1) 0 2) = (u, st, k) →
     exec (.ccReload j) s = .next (u.mbAnswer j.val st (if st = mbVerify then [(1, k)] else []))) ∧
   (∀ (s : State) (c : List Byte), s.pvUp = true → s.live (.privet 7) = true → bit (s.reg (bPrivet 7) R.mgmt_MGMT_CFG) 0 = true →
     (∀ h, s.live (.half h) = true → bit (s.reg (bCc h) R.cc_CC_CTL) 0 = false) → s.busySlots = [] → s.pv.pfailLow = false →
     1 ≤ hdrNum c 6 1 → hdrNum c 6 1 ≤ 3 → c.length ≤ slotSize (hdrNum c 6 1) →
     exec (.tftpStage c) s = .next (s.stage (hdrNum c 6 1) (1 - s.dirEntry (hdrNum c 6 1 - 1) % 2) c).1)) ∧
  ((∀ (s v : State), s.pvUp = true → s.pv.pfailLow = false → v = (if s.pv.storeBad then s.storeAgain else s) →
     (v.storeMaps ≠ v.pv.storeLast → ∀ u, v.storeCommit = some u → exec .storeAutoCommit s = .next u) ∧
     (v.storeMaps = v.pv.storeLast → exec .storeAutoCommit s = .next v)) ∧
   (∀ (s : State), (s.pvUp = false ∨ s.pv.pfailLow = true) → exec .storeAutoCommit s = .next s) ∧
   (∀ (s : State), s.storeAgain.pv.storeBad = false ∧ s.storeAgain.pv.storeSeq = s.pv.storeSeq ∧ (s.storeLatest = none →
     s.storeAgain.pv.flash = s.pv.flash)) ∧
   (∀ (s : State), s.pvUp = true → s.pv.pfailLow = false → exec .logFlush s = .next s.flushLog) ∧
   (∀ (s : State) (e : List Byte) (r : List (List Byte)), s.pv.logBuf = e :: r → s.flashClean (logAddr s.pv.logSeq) 32 = true →
     s.logWrite.pv.logBuf = r ∧ s.logWrite.pv.logSeq = (s.pv.logSeq + 1) % 2 ^ 32) ∧
   (∀ (s : State) (k : Nat), k ∈ s.pv.erasing → s.pv.suspended = false →
     ∃ t, exec (.flashEraseDone k) s = .next t ∧ k ∉ t.pv.erasing ∧ (∀ b, 4096 * k ≤ b → b < 4096 * k + 4096 → tget 0xFF t.pv.flash b = 0xFF) ∧
       (∀ b, Tbl.wf s.pv.flash = true → (b < 4096 * k ∨ 4096 * k + 4096 ≤ b) → tget 0xFF t.pv.flash b = tget 0xFF s.pv.flash b) ∧
       t = { s with pv := { s.pv with flash := t.pv.flash, erasing := t.pv.erasing } }) ∧
   (∀ (s : State) (h : Half) (e : HubEvent) (r : List HubEvent), (s.hubs.get h).events = e :: r → s.pvUp = true → s.pv.logBuf.length < 32 →
     (e.slot < 448 ∨ h = 0) → exec (.hubEventToPrivet h) s = .next ((s.updHub h fun x => { x with events := r }).updPv fun p =>
       { p with logBuf := p.logBuf ++ [logBytes e h s.pv.boots s.memberNo] })) ∧
   (∀ (s : State) (a : Agent) (v : DWord) (i : Nat), i = s.rfld (bPrivet 4) R.cal_CAL_SEL 0 16 → s.agentReach a (.privet 4) = true →
     Tbl.wf s.pv.user = true →
     (2135 < i → exec (.calViewWrite a v) s = .next s) ∧
     (i ≤ 2135 → ∃ t, exec (.calViewWrite a v) s = .next t ∧ t.calUser i = fld v 32 16 ∧ (∀ k, k ≠ i → t.calUser k = s.calUser k) ∧
       t = { s with pv := { s.pv with user := t.pv.user } })) ∧
   (∀ (s : State) (i : Nat), (calRange i).1.1 ≤ s.calOffset i ∧ s.calOffset i ≤ (calRange i).1.2 ∧ (calRange i).2.1 ≤ s.calEff i ∧
     s.calEff i ≤ (calRange i).2.2) ∧
   (∀ (s : State) (a : Agent), s.agentReach a (.privet 9) = true →
     exec (.debugLock a) s = .next (s.updPv fun p => { p with unlocked := 0, scopeEnd := [] })) ∧
   (∀ (s : State) (i : Fin 4) (n : Nat), tget? s.pv.scopeEnd i.val = some n →
     (n ≤ s.ticks → exec (.debugTokenExpire i) s = .next (s.updPv fun p =>
       { p with unlocked := clrBit p.unlocked i.val, scopeEnd := tdel p.scopeEnd i.val })) ∧
     (s.ticks < n → exec (.debugTokenExpire i) s = .next s))) ∧
  ((∀ (s : State) (f bs : List Byte) (v : DWord), v = s.reg (bPrivet 7) R.mgmt_MGMT_CFG → bit v 0 = true → s.live (.privet 7) = true →
     64 ≤ f.length → f.length ≤ 1536 → fcsGood f = true → bs = f.take (f.length - 4) → s.armed = [] →
     ∀ u, (beNat (bs.take 6) = 0xFFFFFFFFFFFF ∧ u = (s.moveMgmt.updPv fun p => { p with mgmtIn := p.mgmtIn ++ [bs] }).mgmtRing bs ∨
         beNat (bs.take 6) ≠ 0xFFFFFFFFFFFF ∧ beNat (bs.take 6) = fld v 16 48 ∧ u = (s.moveMgmt.updPv fun p => { p with mgmtIn := p.mgmtIn ++ [bs] }) ∨
         beNat (bs.take 6) ≠ 0xFFFFFFFFFFFF ∧ beNat (bs.take 6) ≠ fld v 16 48 ∧ u = s.moveMgmt.mgmtRing bs) →
       (u.waits = s.waits → exec (.mgmtFrameReceive f) s = .next u) ∧ (u.waits ≠ s.waits → exec (.mgmtFrameReceive f) s = .next s)) ∧
   (∀ (s : State) (f : List Byte), s.armed = [] → (f.length < 64 ∨ 1536 < f.length ∨ fcsGood f = false) → exec (.mgmtFrameReceive f) s = .next s) ∧
   (∀ (s u : State) (h : Half) (bs : List Byte), bit (s.reg (bPrivet 7) R.mgmt_MGMT_CFG) 0 = true → s.live (.privet 7) = true →
     s.mgmtReady = [h] → s.hbmRead h privReq (s.ringBase h 2 + 32 * ringTail (s.ringCtl h 2)) 32 = (u, bs, false) → s.armed = [] →
     u.waits = s.waits →
     exec .mgmtFrameTransmit s = .next (u.setRfld (bCc h) (R.cc_RING_CTL + 64) 44 20
       ((ringTail (s.ringCtl h 2) + (1 + (bits (leNat (bs.take 8)) 48 14 + 31) / 32)) % ringUnits (s.ringCtl h 2)))))

/-- Sensors (R617, R618, R634, R636, R640, R644, R645): a sample enters NOW and raises MAX, a read of SENSE_TEMP_n sets MAX to NOW; the shutdown
is released after every sensor has been at or below 110 °C for a second; a rail's second sample outside its limits is a fault.

Clocks and droop (R632–R636): a window outside its limits, a lost reference and an unlocked root PLL are faults, and DTS stops with
the clock; an I/O PLL's loss is remembered until it locks again; a droop of so many mV raises LEVEL to its
band and PEAK with it, and LEVEL falls by one after 256 cycles in which the droop stays at least 5 mV
short of that band. -/
def Obligations.SensorsAndClocks : Prop :=
  ((∀ (s : State) (n : Fin 64) (v : BitVec 16), s.outOfReset = true → ∀ x, x = signed 16 (unsigned 16 (v.toInt + s.calEff (2048 + n.val))) →
     exec (.sensorSample n v) s = .next ((((s.takeTemp n.val x).tempAlarm x).tempLimit n.val x).tempCool)) ∧
   (∀ (s : State) (n : Fin 64) (x : Int), Tbl.wf s.csr = true → -32768 ≤ x → x ≤ 32767 → (s.takeTemp n.val x).tempNow n.val = x ∧
     signed 16 (fld ((s.takeTemp n.val x).tempReg n.val) 48 16) = max (signed 16 (fld (s.tempReg n.val) 48 16)) x ∧
     ∀ m : Fin 64, m ≠ n → (s.takeTemp n.val x).tempReg m.val = s.tempReg m.val) ∧
   (∀ (s : State) (a : Agent) (n : Fin 64), s.agentReach a (.privet 5) = true → Tbl.wf s.csr = true →
     ∃ t, exec (.senseTempRead a n) s = .next t ∧ t.tempNow n.val = s.tempNow n.val ∧ signed 16 (fld (t.tempReg n.val) 48 16) = s.tempNow n.val ∧
       t = { s with csr := t.csr }) ∧
   (∀ (s : State) (t0 : Nat), s.pv.coolSince = some t0 → s.shutdown = true →
     (t0 + 1500000000 ≤ s.ticks → exec .thermalRelease s = .next ((s.setRfld bDevice R.device_THERM_CTL 9 1 0).updPv fun p =>
       { p with coolSince := none })) ∧
     (s.ticks < t0 + 1500000000 → exec .thermalRelease s = .next s)) ∧
   (∀ (s : State) (m : Fin 16) (v c : BitVec 16), s.outOfReset = true →
     ∀ u, u = (s.railShow m.val v.toNat c.toNat).updPv (fun p => { p with
         railBad := tset 0 p.railBad m.val (b2n (s.railOut m.val v.toNat))
         railLow := if s.railUnder m.val v.toNat then (if p.railLow.contains m.val then p.railLow else p.railLow ++ [m.val])
           else p.railLow.filter (· ≠ m.val) }) →
     (s.railOut m.val v.toNat = false ∨ tget 0 s.pv.railBad m.val = 0 → exec (.railSample m v c) s = .next u) ∧
     (s.railOut m.val v.toNat = true → tget 0 s.pv.railBad m.val = 1 → exec (.railSample m v c) s = .next (u.brownout m.val)))) ∧
  ((∀ (s : State) (h : Half) (a b : Nat), s.outOfReset = true →
     ((930 ≤ a ∧ a ≤ 1025 ∧ 511 ≤ b ∧ b ≤ 513) → exec (.clockMonitorWindow h a b) s = .next s) ∧
     (¬ (930 ≤ a ∧ a ≤ 1025 ∧ 511 ≤ b ∧ b ≤ 513) → exec (.clockMonitorWindow h a b) s = .next (s.fault (.half h) F.CLOCK_FAULT))) ∧
   (∀ (s : State), (s.pv.refclk = true → exec .refclkLoss s = .next ((s.updPv fun p => { p with refclk := false }).rootLost F.REFCLK_LOSS)) ∧
     (s.pv.rootLock = true → exec .pllUnlock s = .next ((s.updPv fun p => { p with rootLock := false }).rootLost F.PLL_UNLOCK)) ∧
     s.stopClocks.time.h0.counting = false ∧ s.stopClocks.time.h1.counting = false) ∧
   (∀ (s : State) (k : Nat), k ∉ s.pv.ioLost → ∀ u, u = (s.updPv fun p => { p with ioLost := p.ioLost ++ [k] }) →
     (1 ≤ k → k ≤ 4 → exec (.ioPllUnlock k) s = .next (u.pllPorts k)) ∧
     (k = 5 → exec (.ioPllUnlock k) s = .next ((((u.fault (.hbmc 0 0) F.HBM_LINK).fault (.hbmc 0 1) F.HBM_LINK).fault (.hbmc 1 0)
       F.HBM_LINK).fault (.hbmc 1 1) F.HBM_LINK)) ∧
     (k = 6 → exec (.ioPllUnlock k) s = .next u) ∧ (k = 7 → exec (.ioPllUnlock k) s = .next ((u.dropFord 0).dropFord 1))) ∧
   (∀ (s : State) (k : Nat), ∃ t, exec (.ioPllRelock k) s = .next t ∧ k ∉ t.pv.ioLost ∧ (∀ j, j ≠ k → (j ∈ t.pv.ioLost ↔ j ∈ s.pv.ioLost)) ∧
     t = { s with pv := { s.pv with ioLost := t.pv.ioLost } }) ∧
   (∀ (s : State) (h : Half) (mv n : Nat), Tbl.wf s.csr = true → n = s.droopBand h mv → s.droopLevel h < n →
     ∃ t, exec (.droopRise h mv) s = .next t ∧ t.droopLevel h = n ∧ fld (t.droopReg h) 8 3 = max (fld (s.droopReg h) 8 3) n ∧
       t.reg (bHalf h) R.half_DROOP_EVENTS = s.reg (bHalf h) R.half_DROOP_EVENTS + (if s.droopLevel h = 0 then 1 else 0) ∧
       t.pv.droopFor.get h = 0 ∧ t = { s with csr := t.csr, pv := { s.pv with droopFor := t.pv.droopFor } }) ∧
   (∀ (s : State) (h : Half) (mv : Nat), s.droopBand h mv ≤ s.droopLevel h →
     (s.droopT h + 10 * s.droopLevel h < mv + 15 → exec (.droopRise h mv) s = .next (s.setDroopFor h 0)) ∧
     (mv + 15 ≤ s.droopT h + 10 * s.droopLevel h → exec (.droopRise h mv) s = .next s)) ∧
   (∀ (s : State) (h : Half) (mv : Nat), s.droopBand h mv ≤ 4 ∧ (s.droopBand h mv = 0 ↔ mv < s.droopT h) ∧
     ∀ k, 1 ≤ k → k ≤ 4 → (k ≤ s.droopBand h mv ↔ s.droopT h + 10 * (k - 1) ≤ mv)) ∧
   (∀ (s : State) (h : Half), Tbl.wf s.csr = true → 0 < s.droopLevel h →
     (256 ≤ s.pv.droopFor.get h → ∃ t, exec (.droopFall h) s = .next t ∧ t.droopLevel h = s.droopLevel h - 1 ∧
       fld (t.droopReg h) 8 3 = fld (s.droopReg h) 8 3 ∧ t.pv.droopFor.get h = 0 ∧
       t = { s with csr := t.csr, pv := { s.pv with droopFor := t.pv.droopFor } }) ∧
     (s.pv.droopFor.get h < 256 → exec (.droopFall h) s = .next s)) ∧
   (∀ (s : State) (a : Agent) (h : Half), Tbl.wf s.csr = true → s.agentReach a (.half h) = true →
     ∃ t, exec (.droopStatRead a h) s = .next t ∧ t.droopLevel h = s.droopLevel h ∧ fld (t.droopReg h) 8 3 = s.droopLevel h ∧
       t = { s with csr := t.csr }))

/-- PFAIL_N (R642, R643): its fall sets the latch, counts, commits the store and writes the log, and sets PFAIL_DONE; its rise lets suspended
erases go on and makes the directory writes that waited.

The reset inputs and the start of the sequence (R646, R647): PORESET_N or SYSRESET_N puts every unit into RESET and keeps the flash, the fuses,
the pins and, under SYSRESET_N, the fault slots; when both are high again the start begins where the clocks are there.

PERST_N holds PRIVET unit 8 in RESET, a function-level reset clears the function's grant and mailbox slot, and a boundary-scan instruction fences
both halves (R627, R655, R662); a mirrored write reaches the peer's copy, or is counted unsent (R623). -/
def Obligations.PinsAndReset : Prop :=
  ((∀ (s : State), s.pv.pfailLow = false → s.outOfReset = true →
     ∀ u, u = (s.updPv fun p => { p with pfailLow := true }).setReg bDevice R.device_PWR_STAT
       (setFld (setFld (s.reg bDevice R.device_PWR_STAT) 1 1 1) 48 16 (min (fld (s.reg bDevice R.device_PWR_STAT) 48 16 + 1) 0xFFFF)) →
     (u.pvUp = false → exec .pfailAssert s = .next u) ∧
     (u.pvUp = true → exec .pfailAssert s = .next ((((u.updPv fun p => { p with suspended := true }).commitStore).flushLog).setRfld bDevice
       R.device_PWR_STAT 2 1 1))) ∧
   (∀ (s : State), s.pv.pfailLow = true → exec .pfailAssert s = .next s ∧
     exec .pfailDeassert s = .next (((s.updPv fun p => { p with pfailLow := false, suspended := false }).setRfld bDevice R.device_PWR_STAT 2 1 0).dirFlush))) ∧
  ((∀ (s : State), s.pv.porLow = false → s.pv.erasing = [] → ∃ t, exec .poresetN s = .next t ∧ t.dev.devState = .start ∧
     (∀ u, u ∈ allUnits → t.ustate u = .reset ∧ (t.unit u).cause = 0x06) ∧ t.pv.flash = s.pv.flash ∧ t.pv.fuses = s.pv.fuses ∧ t.pv.porLow = true ∧
     t.csr = [] ∧ t.tiles = State.reset.tiles ∧ t.tab = State.reset.tab ∧ t.buf = State.reset.buf ∧ t.hubs = State.reset.hubs ∧
     t.pending = s.pending) ∧
   (∀ (s : State), s.pv.porLow = false → s.pv.sysLow = false → s.pv.erasing = [] → ∃ t, exec .sysresetN s = .next t ∧
     (∀ u, u ∈ allUnits → t.ustate u = .reset ∧ (t.unit u).cause = 0x07) ∧ t.pv.flash = s.pv.flash ∧ t.pv.fuses = s.pv.fuses ∧ t.pv.sysLow = true ∧
     (∀ h, (t.hubs.get h).slots = (s.hubs.get h).slots ∧ (t.time.get h).dts = (s.time.get h).dts ∧ (t.time.get h).valid = false) ∧
     t.tiles = State.reset.tiles ∧ t.pending = s.pending) ∧
   (∀ (s : State), (s.pv.porLow = true ∨ s.pv.sysLow = true) →
     ∀ u, u = (s.updPv fun p => { p with porLow := false, sysLow := false, bootSel := p.bootPins }) →
     (s.pv.refclk = true → s.pv.rootLock = true → exec .resetRelease s = .next u.startUp) ∧
     (s.pv.refclk = false ∨ s.pv.rootLock = false → exec .resetRelease s = .next (u.updStart fun x => { x with waitRef := true }))) ∧
   (∀ (s : State), s.pv.porLow = false → s.pv.sysLow = false → s.pv.start.waitRef = true → s.pv.rootLock = true →
     exec .refclkArrival s = .next (s.updPv fun p => { p with refclk := true }).startUp) ∧
   (∀ (s : State), s.pv.start.waitRef = false → exec .refclkArrival s = .next (s.updPv fun p => { p with refclk := true }))) ∧
  ((∀ (s : State), s.pv.perstLow = false → s.ustate .device = .active → s.ustate (.privet 8) ≠ .reset → exec (.pciePerstN true) s =
     .next (((s.updPv fun p => { p with perstLow := true }).beginEntry (.privet 8) .reset (s.free 8)).used)) ∧
   (∀ (s : State) (b : Bool), s.pv.perstLow = b → exec (.pciePerstN b) s = .next s) ∧
   (∀ (s : State) (f : Fin 2), Tbl.wf s.csr = true → ∃ t, exec (.functionLevelReset f) s = .next t ∧
     t.reg (bPrivet 8) (R.pcie_GRANT_PF + 8 * f.val) = 0 ∧ (∀ i : Fin 17, t.reg (bPrivet 6) (R.mbox_CMD_0 + 0x100 * (2 + f.val) + 8 * i.val) = 0) ∧
     t.reg (bPrivet 8) (R.pcie_GRANT_PF + 8 * (1 - f.val)) = s.reg (bPrivet 8) (R.pcie_GRANT_PF + 8 * (1 - f.val)) ∧
     t = { s with csr := t.csr }) ∧
   (∀ (s : State), (s.pv.extest = true → exec .extestLoad s = .next s) ∧
     (s.pv.extest = false → ∀ one : State → Half → State, one = (fun s h => (subtree (.half h)).foldl (fun s u => s.updUnit u fun d =>
         { d with entering := match d.entering with | some (st, _) => some (st, 0x0A) | none => none }) (s.beginEntry (.half h) .fenced 0x0A)) →
       exec .extestLoad s = .next (one (one (s.updPv fun p => { p with extest := true }) 0) 1))) ∧
   (∀ (s : State) (h : Half) (n m : Nat) (bs : List Byte) (r : List (Nat × Nat × List Byte)), (s.cc.get h).mirror = (n, m, bs) :: r → s.armed = [] →
     ∀ u, u = { s with cc := s.cc.upd h fun x => { x with mirror := r } } →
     (∀ v, (s.ford.get h).peerUp = true → v = (u.hbmWrite (other h) ccReq (s.mirrorPeer (other h) + m) bs).1 →
       (v.waits = s.waits → exec (.mirrorPeerApply h) s = .next v) ∧ (v.waits ≠ s.waits → exec (.mirrorPeerApply h) s = .next s)) ∧
     ((s.ford.get h).peerUp = false → exec (.mirrorPeerApply h) s = .next (u.bump (bCc h) R.cc_MIRROR_UNSENT))))

/-- The 64-bit instructions of the control cores (R357): ALU64 and ADDI64 write 64-bit results under the edge rules with widths of 64, LD, LWU and SD
move memory, and DRAIN waits for the thread's mirrored writes (R623).

SWAPM, ADDM and CASM read the 64 bits at gs, write the new value and leave the old one in gd in one step (R357); a word that is not 8-byte aligned
traps ALIGN.

Modes of a control core (R358): GATE enters supervisor mode at KENTRY with cause GATE and the next instruction in KRET; GRET, MFKR, MTKR and
XLINV act in supervisor mode, and in user mode trap PRIV with no other effect. -/
def Obligations.ControlCoreInstructions : Prop :=
  (∀ (s s1 u : State) (h : Half) (n : Fin 32) (w : Nat) (th : ThreadRef) (c : Fk), th = .cc h n → c = callOf s s1 th w → u = s1.atIssue th →
     pcInRange th c.nextPc = true →
     (∀ o r, Issues s .alu64 th s1 w → aluOp (wFn6 w) = some o → o ≠ .cmp → o ≠ .tst →
       r = aluRes 64 o c.sat (c.gFull (wB w)) (c.gFull (wC w)) → (r.flags &&& flDz = 0 ∨ modeDz c.x.mode = false) →
       exec (.fkAlu64 th) s = .next (((u.putG64 th (wA w) r.val).stick th r.flags).fallThrough c)) ∧
     (Issues s .alu64 th s1 w → aluOp (wFn6 w) = some .cmp →
       exec (.fkAlu64 th) s = .next ((u.setFlags th (cmpFlags 64 c.x.flags (c.gFull (wB w)) (c.gFull (wC w)))).fallThrough c)) ∧
     (Issues s .addi64 th s1 w → exec (.fkAddi64 th) s = .next ((u.putG64 th (wA w)
       (unsigned 64 ((c.gFull (wB w) : Int) + signed 16 (wImm16 w)))).fallThrough c)) ∧
     (∀ v bs, ∀ e ∈ [(Instr.fkLd th, FkOp.ld, 8), (Instr.fkLwu th, FkOp.lwu, 4)], Issues s e.2.1 th s1 w →
       u.ccLoad h n c.addr e.2.2 accRead = (v, .ok bs) → v.waits = s.waits → exec e.1 s = .next ((v.putG64 th (wA w) (leNat bs)).fallThrough c)) ∧
     (∀ v, Issues s .sd th s1 w → u.ccStore h n c.addr (leBytes 8 (c.gFull (wA w))) = (v, none) → v.waits = s.waits → exec (.fkSd th) s = .next (v.fallThrough c)) ∧
     (Issues s .drain th s1 w → (u.mirrorPending th = false → exec (.fkDrain th) s = .next (u.fallThrough c)) ∧
       (u.mirrorPending th = true → exec (.fkDrain th) s = .next s1))) ∧
  (∀ (s s1 u v1 v2 v3 : State) (h : Half) (n : Fin 32) (w pa a : Nat) (th : ThreadRef) (c : Fk) (bs : List Byte), th = .cc h n →
     c = callOf s s1 th w → u = s1.atIssue th → a = c.gFull (wB w) →
     (∀ e ∈ [(Instr.fkSwapm th, FkOp.swapm), (Instr.fkAddm th, FkOp.addm), (Instr.fkCasm th, FkOp.casm)], Issues s e.2 th s1 w → a % 8 ≠ 0 →
       exec e.1 s = .next (u.takeTrap th cAlign (BitVec.ofNat 64 a) c.pc c.pc)) ∧
     (pcInRange th c.nextPc = true → a % 8 = 0 →
       (∀ e ∈ [(Instr.fkSwapm th, FkOp.swapm, c.gFull (wC w)), (Instr.fkAddm th, FkOp.addm, (leNat bs + c.gFull (wC w)) % 2 ^ 64)],
         Issues s e.2.1 th s1 w → u.translate h n a accWrite = (v1, .ok pa) → v1.physRead h n pa 8 = (v2, some bs) →
         v2.ccStore h n a (leBytes 8 e.2.2) = (v3, none) → v3.waits = s.waits → exec e.1 s = .next ((v3.putG64 th (wA w) (leNat bs)).fallThrough c)) ∧
       (Issues s .casm th s1 w → u.translate h n a accRead = (v1, .ok pa) → v1.physRead h n pa 8 = (v2, some bs) →
         (leNat bs ≠ c.gFull (wA w) → v2.waits = s.waits → exec (.fkCasm th) s = .next ((v2.putG64 th (wA w) (leNat bs)).fallThrough c)) ∧
         (leNat bs = c.gFull (wA w) → v2.ccStore h n a (leBytes 8 (c.gFull (wC w))) = (v3, none) → v3.waits = s.waits →
           exec (.fkCasm th) s = .next ((v3.putG64 th (wA w) (leNat bs)).fallThrough c))))) ∧
  ((∀ (s s1 u : State) (h : Half) (n : Fin 32) (w : Nat) (th : ThreadRef) (c : Fk), th = .cc h n → c = callOf s s1 th w → u = s1.atIssue th →
     (Issues s .gate th s1 w → exec (.fkGate th) s = .next (u.takeTrap th cGate (BitVec.ofNat 64 (wImm8 w)) c.nextPc c.pc)) ∧
     (c.x.user = true → ∀ e ∈ [(Instr.fkGret th, FkOp.gret), (Instr.fkMfkr th, FkOp.mfkr), (Instr.fkMtkr th, FkOp.mtkr), (Instr.fkXlinv th, FkOp.xlinv)],
       Issues s e.2 th s1 w → exec e.1 s = .next (u.takeTrap th cPriv (u.free 64) c.pc c.pc).used) ∧
     (c.x.user = false →
       (Issues s .gret th s1 w → pcInRange th (pcWrap th ((c.x.kreg kKRET).toNat : Int)) = true → exec (.fkGret th) s =
         .next ((u.updThread th fun x => x.setK kKSTATE (setFld (c.x.kreg kKSTATE) 0 1 (fld (c.x.kreg kKSTATE) 1 1))).setPc th
           (pcWrap th ((c.x.kreg kKRET).toNat : Int)))) ∧
       (pcInRange th c.nextPc = true →
         (Issues s .mfkr th s1 w → exec (.fkMfkr th) s = .next ((u.putG64 th (wA w) (c.x.kreg (wImm8 w)).toNat).fallThrough c)) ∧
         (Issues s .mtkr th s1 w → exec (.fkMtkr th) s = .next ((u.updThread th fun x =>
           x.setK (wImm8 w) (kWrite (wImm8 w) (x.kreg (wImm8 w)) (BitVec.ofNat 64 (c.gFull (wB w))))).fallThrough c)) ∧
         (Issues s .xlinv th s1 w → exec (.fkXlinv th) s = .next (State.fallThrough { u with cc := u.cc.upd h fun x =>
           { x with xl := if c.gFull (wB w) = 0 then [] else x.xl.filter fun e => decide (e.1 % 2 ^ 34 ≠ bits (c.gFull (wB w)) 14 34) } } c))))) ∧
   (∀ (i : Nat) (old v : DWord), bit (kWrite kKSTATE old v) 0 = bit old 0 ∧ bit (kWrite kKSTATE old v) 1 = bit v 1 ∧
     kWrite kKCAUSE old v = v &&& 0xFF ∧ kWrite kXROOT old v = v &&& 0x0000FFFFFFFF8001 ∧
     (i ≠ kKSTATE → i ≠ kKCAUSE → i ≠ kXROOT → kWrite i old v = v)))
end

