-- ==== Sys2Proof/Laws/Tbl.lean ====
section
/-! SUPPORT. The laws of the sparse tables and of the pair of halves: what a read gives after a write, and that every operation keeps the
canonical form. -/

namespace Sys2Proof

/-! ### Reads after writes -/

@[simp] theorem tget?_nil {α : Type} (k : Nat) : tget? ([] : Tbl α) k = none := rfl

@[simp] theorem tget_nil {α : Type} (d : α) (k : Nat) : tget d ([] : Tbl α) k = d := rfl

@[simp] theorem tget?_tput_same {α : Type} (t : Tbl α) (k : Nat) (v : α) : tget? (tput t k v) k = some v := by
  induction t with
  | nil => simp [tput, tget?]
  | cons e r ih =>
    obtain ⟨j, w⟩ := e
    simp only [tput]
    by_cases h1 : k < j
    · simp [h1, tget?]
    · by_cases h2 : k = j
      · simp [h2, tget?]
      · simp [h1, h2, tget?, ih]

theorem tget?_tput_ne {α : Type} (t : Tbl α) (k k' : Nat) (v : α) (h : k' ≠ k) : tget? (tput t k v) k' = tget? t k' := by
  induction t with
  | nil => simp only [tput, tget?]; split <;> simp_all
  | cons e r ih =>
    obtain ⟨j, w⟩ := e
    simp only [tput]
    by_cases h1 : k < j
    · simp only [h1, if_true, tget?]
      by_cases h2 : k' < k
      · have h3 : k' < j := by omega
        simp [h2, h3]
      · simp [h2, h]
    · by_cases h2 : k = j
      · subst h2; simp [tget?, h]
      · simp [h1, h2, tget?, ih]

/-- No key of the table is `k` or less. -/
def Tbl.above {α : Type} (t : Tbl α) (k : Nat) : Prop := ∀ e ∈ t, k < e.1

theorem tbl_wf_cons {α : Type} (e : Nat × α) (r : Tbl α) : Tbl.wf (e :: r) = true ↔ Tbl.above r e.1 ∧ Tbl.wf r = true := by
  induction r generalizing e with
  | nil => obtain ⟨j, v⟩ := e; simp [Tbl.wf, Tbl.above]
  | cons f r ih =>
    obtain ⟨j, v⟩ := e
    obtain ⟨k, w⟩ := f
    have hf := ih (k, w)
    simp only [Tbl.wf, Bool.and_eq_true, decide_eq_true_eq]
    constructor
    · rintro ⟨h1, h2⟩
      refine ⟨?_, h2⟩
      have h3 := (hf.mp h2).1
      intro x hx
      rcases List.mem_cons.mp hx with rfl | hx
      · exact h1
      · have := h3 x hx; simp only at this ⊢; omega
    · rintro ⟨h1, h2⟩
      exact ⟨h1 (k, w) (by simp), h2⟩

theorem tget?_above {α : Type} (t : Tbl α) (k : Nat) (h : Tbl.above t k) : tget? t k = none := by
  cases t with
  | nil => rfl
  | cons e r => obtain ⟨j, w⟩ := e; have := h (j, w) (by simp); simp [tget?, this]

theorem tget?_tdel_same {α : Type} (t : Tbl α) (k : Nat) (h : Tbl.wf t = true) : tget? (tdel t k) k = none := by
  induction t with
  | nil => rfl
  | cons e r ih =>
    obtain ⟨j, w⟩ := e
    obtain ⟨ha, hr⟩ := (tbl_wf_cons (j, w) r).mp h
    simp only [tdel]
    by_cases h1 : k < j
    · simp [h1, tget?]
    · by_cases h2 : k = j
      · subst h2; simp [tget?_above r k ha]
      · simp [h1, h2, tget?, ih hr]

theorem tget?_tdel_ne {α : Type} (t : Tbl α) (k k' : Nat) (hw : Tbl.wf t = true) (h : k' ≠ k) : tget? (tdel t k) k' = tget? t k' := by
  induction t with
  | nil => rfl
  | cons e r ih =>
    obtain ⟨j, w⟩ := e
    obtain ⟨ha, hr⟩ := (tbl_wf_cons (j, w) r).mp hw
    simp only [tdel]
    by_cases h1 : k < j
    · simp [h1]
    · by_cases h2 : k = j
      · subst h2
        simp only [lt_irrefl, if_false, if_true, tget?, h]
        by_cases h3 : k' < k
        · have : Tbl.above r k' := fun x hx => by have := ha x hx; simp only at this; omega
          simp [h3, tget?_above r k' this]
        · simp [h3]
      · simp [h1, h2, tget?, ih hr]

theorem tget_tset_same {α : Type} [DecidableEq α] (d : α) (t : Tbl α) (k : Nat) (v : α) (h : Tbl.wf t = true) :
    tget d (tset d t k v) k = v := by
  unfold tset
  split
  · next hv => subst hv; simp [tget, tget?_tdel_same t k h]
  · simp [tget]

theorem tget_tset_ne {α : Type} [DecidableEq α] (d e : α) (t : Tbl α) (k k' : Nat) (v : α) (hw : Tbl.wf t = true) (h : k' ≠ k) :
    tget e (tset d t k v) k' = tget e t k' := by
  unfold tset
  split
  · simp [tget, tget?_tdel_ne t k k' hw h]
  · simp [tget, tget?_tput_ne t k k' v h]

theorem tget_tmod_same {α : Type} [DecidableEq α] (d : α) (t : Tbl α) (k : Nat) (f : α → α) (h : Tbl.wf t = true) :
    tget d (tmod d t k f) k = f (tget d t k) := tget_tset_same d t k _ h

theorem tget_tmod_ne {α : Type} [DecidableEq α] (d : α) (t : Tbl α) (k k' : Nat) (f : α → α) (hw : Tbl.wf t = true) (h : k' ≠ k) :
    tget d (tmod d t k f) k' = tget d t k' := tget_tset_ne d d t k k' _ hw h

/-! ### The canonical form is kept -/

theorem above_tput {α : Type} (t : Tbl α) (k j : Nat) (v : α) (h : Tbl.above t j) (hk : j < k) : Tbl.above (tput t k v) j := by
  induction t with
  | nil => intro e he; simp only [tput, List.mem_singleton] at he; subst he; exact hk
  | cons e r ih =>
    obtain ⟨i, w⟩ := e
    have hr : Tbl.above r j := fun x hx => h x (List.mem_cons_of_mem _ hx)
    have hi : j < i := h (i, w) (by simp)
    simp only [tput]
    split
    · intro x hx; rcases List.mem_cons.mp hx with rfl | hx
      · exact hk
      · exact h x hx
    · split
      · intro x hx; rcases List.mem_cons.mp hx with rfl | hx
        · exact hk
        · exact hr x hx
      · intro x hx; rcases List.mem_cons.mp hx with rfl | hx
        · exact hi
        · exact ih hr x hx

theorem above_tdel {α : Type} (t : Tbl α) (k j : Nat) (h : Tbl.above t j) : Tbl.above (tdel t k) j := by
  induction t with
  | nil => exact h
  | cons e r ih =>
    obtain ⟨i, w⟩ := e
    have hr : Tbl.above r j := fun x hx => h x (List.mem_cons_of_mem _ hx)
    simp only [tdel]
    split
    · exact h
    · split
      · exact hr
      · intro x hx; rcases List.mem_cons.mp hx with rfl | hx
        · exact h _ (by simp)
        · exact ih hr x hx

@[simp] theorem tput_wf {α : Type} (t : Tbl α) (k : Nat) (v : α) (h : Tbl.wf t = true) : Tbl.wf (tput t k v) = true := by
  induction t with
  | nil => rfl
  | cons e r ih =>
    obtain ⟨j, w⟩ := e
    obtain ⟨ha, hr⟩ := (tbl_wf_cons (j, w) r).mp h
    simp only [tput]
    by_cases h1 : k < j
    · simp only [h1, if_true]
      refine (tbl_wf_cons _ _).mpr ⟨?_, h⟩
      intro x hx; rcases List.mem_cons.mp hx with rfl | hx
      · exact h1
      · have := ha x hx; simp only at this ⊢; omega
    · by_cases h2 : k = j
      · subst h2; simp only [lt_irrefl, if_false, if_true]; exact (tbl_wf_cons _ _).mpr ⟨ha, hr⟩
      · simp only [h1, h2, if_false]; exact (tbl_wf_cons _ _).mpr ⟨above_tput r k j v ha (by omega), ih hr⟩

@[simp] theorem tdel_wf {α : Type} (t : Tbl α) (k : Nat) (h : Tbl.wf t = true) : Tbl.wf (tdel t k) = true := by
  induction t with
  | nil => rfl
  | cons e r ih =>
    obtain ⟨j, w⟩ := e
    obtain ⟨ha, hr⟩ := (tbl_wf_cons (j, w) r).mp h
    simp only [tdel]
    split
    · exact h
    · split
      · exact hr
      · exact (tbl_wf_cons _ _).mpr ⟨above_tdel r k j ha, ih hr⟩

@[simp] theorem tset_wf {α : Type} [DecidableEq α] (d : α) (t : Tbl α) (k : Nat) (v : α) (h : Tbl.wf t = true) :
    Tbl.wf (tset d t k v) = true := by
  unfold tset; split
  · exact tdel_wf t k h
  · exact tput_wf t k v h

@[simp] theorem tmod_wf {α : Type} [DecidableEq α] (d : α) (t : Tbl α) (k : Nat) (f : α → α) (h : Tbl.wf t = true) :
    Tbl.wf (tmod d t k f) = true := tset_wf d t k _ h

@[simp] theorem tstore_wf (t : Tbl Byte) (a : Nat) (l : List Byte) (h : Tbl.wf t = true) : Tbl.wf (tstore t a l) = true := by
  induction l generalizing t a with
  | nil => exact h
  | cons b r ih => exact ih _ _ (tset_wf 0 t a b h)

/-- A table with a reading default holds no entry equal to it. -/
def Tbl.tight {α : Type} [DecidableEq α] (d : α) (t : Tbl α) : Prop := ∀ e ∈ t, e.2 ≠ d

theorem mem_tput {α : Type} (t : Tbl α) (k : Nat) (v : α) (e : Nat × α) (h : e ∈ tput t k v) : e = (k, v) ∨ e ∈ t := by
  induction t with
  | nil => simp only [tput, List.mem_singleton] at h; exact Or.inl h
  | cons x r ih =>
    obtain ⟨j, w⟩ := x
    simp only [tput] at h
    split at h
    · rcases List.mem_cons.mp h with h | h
      · exact Or.inl h
      · exact Or.inr h
    · split at h
      · rcases List.mem_cons.mp h with h | h
        · exact Or.inl h
        · exact Or.inr (List.mem_cons_of_mem _ h)
      · rcases List.mem_cons.mp h with h | h
        · exact Or.inr (h ▸ List.mem_cons_self ..)
        · rcases ih h with h | h
          · exact Or.inl h
          · exact Or.inr (List.mem_cons_of_mem _ h)

theorem mem_tdel {α : Type} (t : Tbl α) (k : Nat) (e : Nat × α) (h : e ∈ tdel t k) : e ∈ t := by
  induction t with
  | nil => exact h
  | cons x r ih =>
    obtain ⟨j, w⟩ := x
    simp only [tdel] at h
    split at h
    · exact h
    · split at h
      · exact List.mem_cons_of_mem _ h
      · rcases List.mem_cons.mp h with h | h
        · exact h ▸ List.mem_cons_self ..
        · exact List.mem_cons_of_mem _ (ih h)

theorem tset_tight {α : Type} [DecidableEq α] (d : α) (t : Tbl α) (k : Nat) (v : α) (h : Tbl.tight d t) : Tbl.tight d (tset d t k v) := by
  unfold tset
  split
  · exact fun e he => h e (mem_tdel t k e he)
  · next hv =>
    intro e he
    rcases mem_tput t k v e he with rfl | he
    · exact hv
    · exact h e he

theorem tstore_tight (t : Tbl Byte) (a : Nat) (l : List Byte) (h : Tbl.tight 0 t) : Tbl.tight 0 (tstore t a l) := by
  induction l generalizing t a with
  | nil => exact h
  | cons b r ih => exact ih _ _ (tset_tight 0 t a b h)

/-- One byte of a byte table after a store: the stored byte inside, and what stood there outside. -/
theorem tget_tstore (t : Tbl Byte) (a : Nat) (l : List Byte) (k : Nat) (h : Tbl.wf t = true) :
    tget 0 (tstore t a l) k = if a ≤ k ∧ k < a + l.length then l.getD (k - a) 0 else tget 0 t k := by
  induction l generalizing t a with
  | nil => simp [tstore]
  | cons b r ih =>
    rw [tstore, ih _ _ (tset_wf 0 t a b h)]
    by_cases h1 : k = a
    · subst h1
      have h2 : ¬ (k + 1 ≤ k ∧ k < k + 1 + r.length) := by omega
      have h3 : k ≤ k ∧ k < k + (b :: r).length := by simp
      rw [if_neg h2, if_pos h3, tget_tset_same 0 t k b h]; simp
    · rw [tget_tset_ne 0 0 t a k b h h1]
      by_cases h2 : a + 1 ≤ k ∧ k < a + 1 + r.length
      · have h3 : a ≤ k ∧ k < a + (b :: r).length := by simp only [List.length_cons]; omega
        have h4 : k - a = k - (a + 1) + 1 := by omega
        rw [if_pos h2, if_pos h3, h4]; simp
      · have h3 : ¬ (a ≤ k ∧ k < a + (b :: r).length) := by simp only [List.length_cons]; omega
        rw [if_neg h2, if_neg h3]

/-! ### The pair of halves -/

@[simp] theorem pair_get_upd_same {α : Type} (p : Pair α) (h : Half) (f : α → α) : (p.upd h f).get h = f (p.get h) := by
  unfold Pair.upd Pair.get; split <;> simp_all

theorem pair_get_upd_ne {α : Type} (p : Pair α) (h g : Half) (f : α → α) (hg : g ≠ h) : (p.upd h f).get g = p.get g := by
  unfold Pair.upd Pair.get
  have : g.val ≠ h.val := fun e => hg (Fin.ext e)
  have h1 := h.isLt; have h2 := g.isLt
  by_cases h0 : h = 0
  · subst h0; have : ¬ g = 0 := hg; simp [this]
  · have : g = 0 := by
      apply Fin.ext
      have : h.val ≠ 0 := fun e => h0 (Fin.ext e)
      simp only [Fin.val_zero] at *; omega
    subst this; simp [h0]

@[simp] theorem other_ne (h : Half) : other h ≠ h := by fin_cases h <;> decide

@[simp] theorem other_other (h : Half) : other (other h) = h := by fin_cases h <;> decide

@[simp] theorem pair_get_upd_other {α : Type} (p : Pair α) (h : Half) (f : α → α) : (p.upd h f).get (other h) = p.get (other h) :=
  pair_get_upd_ne p h (other h) f (other_ne h)

@[simp] theorem pair_get_both {α : Type} (p : Pair α) (f : Half → α → α) (h : Half) : (p.both f).get h = f h (p.get h) := by
  fin_cases h <;> rfl

end Sys2Proof
end

