-- ==== Sys2Proof/Laws/State.lean ====
section
/-! SUPPORT. What each update of State leaves as it was and what it changes: one lemma for each field of each update, true by rfl. -/

namespace Sys2Proof.Machine

/-! ### setReg -/

@[simp] theorem State.setReg_staged (s : State) (b : Blk) (off : Nat) (v : DWord) : (s.setReg b off v).staged = s.staged := rfl
@[simp] theorem State.setReg_units (s : State) (b : Blk) (off : Nat) (v : DWord) : (s.setReg b off v).units = s.units := rfl
@[simp] theorem State.setReg_commits (s : State) (b : Blk) (off : Nat) (v : DWord) : (s.setReg b off v).commits = s.commits := rfl
@[simp] theorem State.setReg_hubs (s : State) (b : Blk) (off : Nat) (v : DWord) : (s.setReg b off v).hubs = s.hubs := rfl
@[simp] theorem State.setReg_time (s : State) (b : Blk) (off : Nat) (v : DWord) : (s.setReg b off v).time = s.time := rfl
@[simp] theorem State.setReg_ing (s : State) (b : Blk) (off : Nat) (v : DWord) : (s.setReg b off v).ing = s.ing := rfl
@[simp] theorem State.setReg_conf (s : State) (b : Blk) (off : Nat) (v : DWord) : (s.setReg b off v).conf = s.conf := rfl
@[simp] theorem State.setReg_tiles (s : State) (b : Blk) (off : Nat) (v : DWord) : (s.setReg b off v).tiles = s.tiles := rfl
@[simp] theorem State.setReg_cc (s : State) (b : Blk) (off : Nat) (v : DWord) : (s.setReg b off v).cc = s.cc := rfl
@[simp] theorem State.setReg_slots (s : State) (b : Blk) (off : Nat) (v : DWord) : (s.setReg b off v).slots = s.slots := rfl
@[simp] theorem State.setReg_locks (s : State) (b : Blk) (off : Nat) (v : DWord) : (s.setReg b off v).locks = s.locks := rfl
@[simp] theorem State.setReg_hbm (s : State) (b : Blk) (off : Nat) (v : DWord) : (s.setReg b off v).hbm = s.hbm := rfl
@[simp] theorem State.setReg_buf (s : State) (b : Blk) (off : Nat) (v : DWord) : (s.setReg b off v).buf = s.buf := rfl
@[simp] theorem State.setReg_sched (s : State) (b : Blk) (off : Nat) (v : DWord) : (s.setReg b off v).sched = s.sched := rfl
@[simp] theorem State.setReg_ford (s : State) (b : Blk) (off : Nat) (v : DWord) : (s.setReg b off v).ford = s.ford := rfl
@[simp] theorem State.setReg_exp (s : State) (b : Blk) (off : Nat) (v : DWord) : (s.setReg b off v).exp = s.exp := rfl
@[simp] theorem State.setReg_tab (s : State) (b : Blk) (off : Nat) (v : DWord) : (s.setReg b off v).tab = s.tab := rfl
@[simp] theorem State.setReg_assoc (s : State) (b : Blk) (off : Nat) (v : DWord) : (s.setReg b off v).assoc = s.assoc := rfl
@[simp] theorem State.setReg_dev (s : State) (b : Blk) (off : Nat) (v : DWord) : (s.setReg b off v).dev = s.dev := rfl
@[simp] theorem State.setReg_pv (s : State) (b : Blk) (off : Nat) (v : DWord) : (s.setReg b off v).pv = s.pv := rfl
@[simp] theorem State.setReg_ticks (s : State) (b : Blk) (off : Nat) (v : DWord) : (s.setReg b off v).ticks = s.ticks := rfl
@[simp] theorem State.setReg_fresh (s : State) (b : Blk) (off : Nat) (v : DWord) : (s.setReg b off v).fresh = s.fresh := rfl
@[simp] theorem State.setReg_waits (s : State) (b : Blk) (off : Nat) (v : DWord) : (s.setReg b off v).waits = s.waits := rfl
@[simp] theorem State.setReg_pending (s : State) (b : Blk) (off : Nat) (v : DWord) : (s.setReg b off v).pending = s.pending := rfl

/-! ### setRfld -/

@[simp] theorem State.setRfld_staged (s : State) (b : Blk) (off lsb len x : Nat) : (s.setRfld b off lsb len x).staged = s.staged := rfl
@[simp] theorem State.setRfld_units (s : State) (b : Blk) (off lsb len x : Nat) : (s.setRfld b off lsb len x).units = s.units := rfl
@[simp] theorem State.setRfld_commits (s : State) (b : Blk) (off lsb len x : Nat) : (s.setRfld b off lsb len x).commits = s.commits := rfl
@[simp] theorem State.setRfld_hubs (s : State) (b : Blk) (off lsb len x : Nat) : (s.setRfld b off lsb len x).hubs = s.hubs := rfl
@[simp] theorem State.setRfld_time (s : State) (b : Blk) (off lsb len x : Nat) : (s.setRfld b off lsb len x).time = s.time := rfl
@[simp] theorem State.setRfld_ing (s : State) (b : Blk) (off lsb len x : Nat) : (s.setRfld b off lsb len x).ing = s.ing := rfl
@[simp] theorem State.setRfld_conf (s : State) (b : Blk) (off lsb len x : Nat) : (s.setRfld b off lsb len x).conf = s.conf := rfl
@[simp] theorem State.setRfld_tiles (s : State) (b : Blk) (off lsb len x : Nat) : (s.setRfld b off lsb len x).tiles = s.tiles := rfl
@[simp] theorem State.setRfld_cc (s : State) (b : Blk) (off lsb len x : Nat) : (s.setRfld b off lsb len x).cc = s.cc := rfl
@[simp] theorem State.setRfld_slots (s : State) (b : Blk) (off lsb len x : Nat) : (s.setRfld b off lsb len x).slots = s.slots := rfl
@[simp] theorem State.setRfld_locks (s : State) (b : Blk) (off lsb len x : Nat) : (s.setRfld b off lsb len x).locks = s.locks := rfl
@[simp] theorem State.setRfld_hbm (s : State) (b : Blk) (off lsb len x : Nat) : (s.setRfld b off lsb len x).hbm = s.hbm := rfl
@[simp] theorem State.setRfld_buf (s : State) (b : Blk) (off lsb len x : Nat) : (s.setRfld b off lsb len x).buf = s.buf := rfl
@[simp] theorem State.setRfld_sched (s : State) (b : Blk) (off lsb len x : Nat) : (s.setRfld b off lsb len x).sched = s.sched := rfl
@[simp] theorem State.setRfld_ford (s : State) (b : Blk) (off lsb len x : Nat) : (s.setRfld b off lsb len x).ford = s.ford := rfl
@[simp] theorem State.setRfld_exp (s : State) (b : Blk) (off lsb len x : Nat) : (s.setRfld b off lsb len x).exp = s.exp := rfl
@[simp] theorem State.setRfld_tab (s : State) (b : Blk) (off lsb len x : Nat) : (s.setRfld b off lsb len x).tab = s.tab := rfl
@[simp] theorem State.setRfld_assoc (s : State) (b : Blk) (off lsb len x : Nat) : (s.setRfld b off lsb len x).assoc = s.assoc := rfl
@[simp] theorem State.setRfld_dev (s : State) (b : Blk) (off lsb len x : Nat) : (s.setRfld b off lsb len x).dev = s.dev := rfl
@[simp] theorem State.setRfld_pv (s : State) (b : Blk) (off lsb len x : Nat) : (s.setRfld b off lsb len x).pv = s.pv := rfl
@[simp] theorem State.setRfld_ticks (s : State) (b : Blk) (off lsb len x : Nat) : (s.setRfld b off lsb len x).ticks = s.ticks := rfl
@[simp] theorem State.setRfld_fresh (s : State) (b : Blk) (off lsb len x : Nat) : (s.setRfld b off lsb len x).fresh = s.fresh := rfl
@[simp] theorem State.setRfld_waits (s : State) (b : Blk) (off lsb len x : Nat) : (s.setRfld b off lsb len x).waits = s.waits := rfl
@[simp] theorem State.setRfld_pending (s : State) (b : Blk) (off lsb len x : Nat) : (s.setRfld b off lsb len x).pending = s.pending := rfl

/-! ### bumpBy -/

@[simp] theorem State.bumpBy_staged (s : State) (b : Blk) (off n : Nat) : (s.bumpBy b off n).staged = s.staged := rfl
@[simp] theorem State.bumpBy_units (s : State) (b : Blk) (off n : Nat) : (s.bumpBy b off n).units = s.units := rfl
@[simp] theorem State.bumpBy_commits (s : State) (b : Blk) (off n : Nat) : (s.bumpBy b off n).commits = s.commits := rfl
@[simp] theorem State.bumpBy_hubs (s : State) (b : Blk) (off n : Nat) : (s.bumpBy b off n).hubs = s.hubs := rfl
@[simp] theorem State.bumpBy_time (s : State) (b : Blk) (off n : Nat) : (s.bumpBy b off n).time = s.time := rfl
@[simp] theorem State.bumpBy_ing (s : State) (b : Blk) (off n : Nat) : (s.bumpBy b off n).ing = s.ing := rfl
@[simp] theorem State.bumpBy_conf (s : State) (b : Blk) (off n : Nat) : (s.bumpBy b off n).conf = s.conf := rfl
@[simp] theorem State.bumpBy_tiles (s : State) (b : Blk) (off n : Nat) : (s.bumpBy b off n).tiles = s.tiles := rfl
@[simp] theorem State.bumpBy_cc (s : State) (b : Blk) (off n : Nat) : (s.bumpBy b off n).cc = s.cc := rfl
@[simp] theorem State.bumpBy_slots (s : State) (b : Blk) (off n : Nat) : (s.bumpBy b off n).slots = s.slots := rfl
@[simp] theorem State.bumpBy_locks (s : State) (b : Blk) (off n : Nat) : (s.bumpBy b off n).locks = s.locks := rfl
@[simp] theorem State.bumpBy_hbm (s : State) (b : Blk) (off n : Nat) : (s.bumpBy b off n).hbm = s.hbm := rfl
@[simp] theorem State.bumpBy_buf (s : State) (b : Blk) (off n : Nat) : (s.bumpBy b off n).buf = s.buf := rfl
@[simp] theorem State.bumpBy_sched (s : State) (b : Blk) (off n : Nat) : (s.bumpBy b off n).sched = s.sched := rfl
@[simp] theorem State.bumpBy_ford (s : State) (b : Blk) (off n : Nat) : (s.bumpBy b off n).ford = s.ford := rfl
@[simp] theorem State.bumpBy_exp (s : State) (b : Blk) (off n : Nat) : (s.bumpBy b off n).exp = s.exp := rfl
@[simp] theorem State.bumpBy_tab (s : State) (b : Blk) (off n : Nat) : (s.bumpBy b off n).tab = s.tab := rfl
@[simp] theorem State.bumpBy_assoc (s : State) (b : Blk) (off n : Nat) : (s.bumpBy b off n).assoc = s.assoc := rfl
@[simp] theorem State.bumpBy_dev (s : State) (b : Blk) (off n : Nat) : (s.bumpBy b off n).dev = s.dev := rfl
@[simp] theorem State.bumpBy_pv (s : State) (b : Blk) (off n : Nat) : (s.bumpBy b off n).pv = s.pv := rfl
@[simp] theorem State.bumpBy_ticks (s : State) (b : Blk) (off n : Nat) : (s.bumpBy b off n).ticks = s.ticks := rfl
@[simp] theorem State.bumpBy_fresh (s : State) (b : Blk) (off n : Nat) : (s.bumpBy b off n).fresh = s.fresh := rfl
@[simp] theorem State.bumpBy_waits (s : State) (b : Blk) (off n : Nat) : (s.bumpBy b off n).waits = s.waits := rfl
@[simp] theorem State.bumpBy_pending (s : State) (b : Blk) (off n : Nat) : (s.bumpBy b off n).pending = s.pending := rfl

/-! ### bump -/

@[simp] theorem State.bump_staged (s : State) (b : Blk) (off : Nat) : (s.bump b off).staged = s.staged := rfl
@[simp] theorem State.bump_units (s : State) (b : Blk) (off : Nat) : (s.bump b off).units = s.units := rfl
@[simp] theorem State.bump_commits (s : State) (b : Blk) (off : Nat) : (s.bump b off).commits = s.commits := rfl
@[simp] theorem State.bump_hubs (s : State) (b : Blk) (off : Nat) : (s.bump b off).hubs = s.hubs := rfl
@[simp] theorem State.bump_time (s : State) (b : Blk) (off : Nat) : (s.bump b off).time = s.time := rfl
@[simp] theorem State.bump_ing (s : State) (b : Blk) (off : Nat) : (s.bump b off).ing = s.ing := rfl
@[simp] theorem State.bump_conf (s : State) (b : Blk) (off : Nat) : (s.bump b off).conf = s.conf := rfl
@[simp] theorem State.bump_tiles (s : State) (b : Blk) (off : Nat) : (s.bump b off).tiles = s.tiles := rfl
@[simp] theorem State.bump_cc (s : State) (b : Blk) (off : Nat) : (s.bump b off).cc = s.cc := rfl
@[simp] theorem State.bump_slots (s : State) (b : Blk) (off : Nat) : (s.bump b off).slots = s.slots := rfl
@[simp] theorem State.bump_locks (s : State) (b : Blk) (off : Nat) : (s.bump b off).locks = s.locks := rfl
@[simp] theorem State.bump_hbm (s : State) (b : Blk) (off : Nat) : (s.bump b off).hbm = s.hbm := rfl
@[simp] theorem State.bump_buf (s : State) (b : Blk) (off : Nat) : (s.bump b off).buf = s.buf := rfl
@[simp] theorem State.bump_sched (s : State) (b : Blk) (off : Nat) : (s.bump b off).sched = s.sched := rfl
@[simp] theorem State.bump_ford (s : State) (b : Blk) (off : Nat) : (s.bump b off).ford = s.ford := rfl
@[simp] theorem State.bump_exp (s : State) (b : Blk) (off : Nat) : (s.bump b off).exp = s.exp := rfl
@[simp] theorem State.bump_tab (s : State) (b : Blk) (off : Nat) : (s.bump b off).tab = s.tab := rfl
@[simp] theorem State.bump_assoc (s : State) (b : Blk) (off : Nat) : (s.bump b off).assoc = s.assoc := rfl
@[simp] theorem State.bump_dev (s : State) (b : Blk) (off : Nat) : (s.bump b off).dev = s.dev := rfl
@[simp] theorem State.bump_pv (s : State) (b : Blk) (off : Nat) : (s.bump b off).pv = s.pv := rfl
@[simp] theorem State.bump_ticks (s : State) (b : Blk) (off : Nat) : (s.bump b off).ticks = s.ticks := rfl
@[simp] theorem State.bump_fresh (s : State) (b : Blk) (off : Nat) : (s.bump b off).fresh = s.fresh := rfl
@[simp] theorem State.bump_waits (s : State) (b : Blk) (off : Nat) : (s.bump b off).waits = s.waits := rfl
@[simp] theorem State.bump_pending (s : State) (b : Blk) (off : Nat) : (s.bump b off).pending = s.pending := rfl

/-! ### setStg -/

@[simp] theorem State.setStg_csr (s : State) (b : Blk) (off : Nat) (v : DWord) : (s.setStg b off v).csr = s.csr := rfl
@[simp] theorem State.setStg_units (s : State) (b : Blk) (off : Nat) (v : DWord) : (s.setStg b off v).units = s.units := rfl
@[simp] theorem State.setStg_commits (s : State) (b : Blk) (off : Nat) (v : DWord) : (s.setStg b off v).commits = s.commits := rfl
@[simp] theorem State.setStg_hubs (s : State) (b : Blk) (off : Nat) (v : DWord) : (s.setStg b off v).hubs = s.hubs := rfl
@[simp] theorem State.setStg_time (s : State) (b : Blk) (off : Nat) (v : DWord) : (s.setStg b off v).time = s.time := rfl
@[simp] theorem State.setStg_ing (s : State) (b : Blk) (off : Nat) (v : DWord) : (s.setStg b off v).ing = s.ing := rfl
@[simp] theorem State.setStg_conf (s : State) (b : Blk) (off : Nat) (v : DWord) : (s.setStg b off v).conf = s.conf := rfl
@[simp] theorem State.setStg_tiles (s : State) (b : Blk) (off : Nat) (v : DWord) : (s.setStg b off v).tiles = s.tiles := rfl
@[simp] theorem State.setStg_cc (s : State) (b : Blk) (off : Nat) (v : DWord) : (s.setStg b off v).cc = s.cc := rfl
@[simp] theorem State.setStg_slots (s : State) (b : Blk) (off : Nat) (v : DWord) : (s.setStg b off v).slots = s.slots := rfl
@[simp] theorem State.setStg_locks (s : State) (b : Blk) (off : Nat) (v : DWord) : (s.setStg b off v).locks = s.locks := rfl
@[simp] theorem State.setStg_hbm (s : State) (b : Blk) (off : Nat) (v : DWord) : (s.setStg b off v).hbm = s.hbm := rfl
@[simp] theorem State.setStg_buf (s : State) (b : Blk) (off : Nat) (v : DWord) : (s.setStg b off v).buf = s.buf := rfl
@[simp] theorem State.setStg_sched (s : State) (b : Blk) (off : Nat) (v : DWord) : (s.setStg b off v).sched = s.sched := rfl
@[simp] theorem State.setStg_ford (s : State) (b : Blk) (off : Nat) (v : DWord) : (s.setStg b off v).ford = s.ford := rfl
@[simp] theorem State.setStg_exp (s : State) (b : Blk) (off : Nat) (v : DWord) : (s.setStg b off v).exp = s.exp := rfl
@[simp] theorem State.setStg_tab (s : State) (b : Blk) (off : Nat) (v : DWord) : (s.setStg b off v).tab = s.tab := rfl
@[simp] theorem State.setStg_assoc (s : State) (b : Blk) (off : Nat) (v : DWord) : (s.setStg b off v).assoc = s.assoc := rfl
@[simp] theorem State.setStg_dev (s : State) (b : Blk) (off : Nat) (v : DWord) : (s.setStg b off v).dev = s.dev := rfl
@[simp] theorem State.setStg_pv (s : State) (b : Blk) (off : Nat) (v : DWord) : (s.setStg b off v).pv = s.pv := rfl
@[simp] theorem State.setStg_ticks (s : State) (b : Blk) (off : Nat) (v : DWord) : (s.setStg b off v).ticks = s.ticks := rfl
@[simp] theorem State.setStg_fresh (s : State) (b : Blk) (off : Nat) (v : DWord) : (s.setStg b off v).fresh = s.fresh := rfl
@[simp] theorem State.setStg_waits (s : State) (b : Blk) (off : Nat) (v : DWord) : (s.setStg b off v).waits = s.waits := rfl
@[simp] theorem State.setStg_pending (s : State) (b : Blk) (off : Nat) (v : DWord) : (s.setStg b off v).pending = s.pending := rfl

/-! ### updUnit -/

@[simp] theorem State.updUnit_csr (s : State) (u : UnitId) (f : UnitDyn → UnitDyn) : (s.updUnit u f).csr = s.csr := rfl
@[simp] theorem State.updUnit_staged (s : State) (u : UnitId) (f : UnitDyn → UnitDyn) : (s.updUnit u f).staged = s.staged := rfl
@[simp] theorem State.updUnit_commits (s : State) (u : UnitId) (f : UnitDyn → UnitDyn) : (s.updUnit u f).commits = s.commits := rfl
@[simp] theorem State.updUnit_hubs (s : State) (u : UnitId) (f : UnitDyn → UnitDyn) : (s.updUnit u f).hubs = s.hubs := rfl
@[simp] theorem State.updUnit_time (s : State) (u : UnitId) (f : UnitDyn → UnitDyn) : (s.updUnit u f).time = s.time := rfl
@[simp] theorem State.updUnit_ing (s : State) (u : UnitId) (f : UnitDyn → UnitDyn) : (s.updUnit u f).ing = s.ing := rfl
@[simp] theorem State.updUnit_conf (s : State) (u : UnitId) (f : UnitDyn → UnitDyn) : (s.updUnit u f).conf = s.conf := rfl
@[simp] theorem State.updUnit_tiles (s : State) (u : UnitId) (f : UnitDyn → UnitDyn) : (s.updUnit u f).tiles = s.tiles := rfl
@[simp] theorem State.updUnit_cc (s : State) (u : UnitId) (f : UnitDyn → UnitDyn) : (s.updUnit u f).cc = s.cc := rfl
@[simp] theorem State.updUnit_slots (s : State) (u : UnitId) (f : UnitDyn → UnitDyn) : (s.updUnit u f).slots = s.slots := rfl
@[simp] theorem State.updUnit_locks (s : State) (u : UnitId) (f : UnitDyn → UnitDyn) : (s.updUnit u f).locks = s.locks := rfl
@[simp] theorem State.updUnit_hbm (s : State) (u : UnitId) (f : UnitDyn → UnitDyn) : (s.updUnit u f).hbm = s.hbm := rfl
@[simp] theorem State.updUnit_buf (s : State) (u : UnitId) (f : UnitDyn → UnitDyn) : (s.updUnit u f).buf = s.buf := rfl
@[simp] theorem State.updUnit_sched (s : State) (u : UnitId) (f : UnitDyn → UnitDyn) : (s.updUnit u f).sched = s.sched := rfl
@[simp] theorem State.updUnit_ford (s : State) (u : UnitId) (f : UnitDyn → UnitDyn) : (s.updUnit u f).ford = s.ford := rfl
@[simp] theorem State.updUnit_exp (s : State) (u : UnitId) (f : UnitDyn → UnitDyn) : (s.updUnit u f).exp = s.exp := rfl
@[simp] theorem State.updUnit_tab (s : State) (u : UnitId) (f : UnitDyn → UnitDyn) : (s.updUnit u f).tab = s.tab := rfl
@[simp] theorem State.updUnit_assoc (s : State) (u : UnitId) (f : UnitDyn → UnitDyn) : (s.updUnit u f).assoc = s.assoc := rfl
@[simp] theorem State.updUnit_dev (s : State) (u : UnitId) (f : UnitDyn → UnitDyn) : (s.updUnit u f).dev = s.dev := rfl
@[simp] theorem State.updUnit_pv (s : State) (u : UnitId) (f : UnitDyn → UnitDyn) : (s.updUnit u f).pv = s.pv := rfl
@[simp] theorem State.updUnit_ticks (s : State) (u : UnitId) (f : UnitDyn → UnitDyn) : (s.updUnit u f).ticks = s.ticks := rfl
@[simp] theorem State.updUnit_fresh (s : State) (u : UnitId) (f : UnitDyn → UnitDyn) : (s.updUnit u f).fresh = s.fresh := rfl
@[simp] theorem State.updUnit_waits (s : State) (u : UnitId) (f : UnitDyn → UnitDyn) : (s.updUnit u f).waits = s.waits := rfl
@[simp] theorem State.updUnit_pending (s : State) (u : UnitId) (f : UnitDyn → UnitDyn) : (s.updUnit u f).pending = s.pending := rfl

/-! ### updHub -/

@[simp] theorem State.updHub_csr (s : State) (h : Half) (f : HubState → HubState) : (s.updHub h f).csr = s.csr := rfl
@[simp] theorem State.updHub_staged (s : State) (h : Half) (f : HubState → HubState) : (s.updHub h f).staged = s.staged := rfl
@[simp] theorem State.updHub_units (s : State) (h : Half) (f : HubState → HubState) : (s.updHub h f).units = s.units := rfl
@[simp] theorem State.updHub_commits (s : State) (h : Half) (f : HubState → HubState) : (s.updHub h f).commits = s.commits := rfl
@[simp] theorem State.updHub_hubs (s : State) (h : Half) (f : HubState → HubState) : (s.updHub h f).hubs = s.hubs.upd h f := rfl
@[simp] theorem State.updHub_time (s : State) (h : Half) (f : HubState → HubState) : (s.updHub h f).time = s.time := rfl
@[simp] theorem State.updHub_ing (s : State) (h : Half) (f : HubState → HubState) : (s.updHub h f).ing = s.ing := rfl
@[simp] theorem State.updHub_conf (s : State) (h : Half) (f : HubState → HubState) : (s.updHub h f).conf = s.conf := rfl
@[simp] theorem State.updHub_tiles (s : State) (h : Half) (f : HubState → HubState) : (s.updHub h f).tiles = s.tiles := rfl
@[simp] theorem State.updHub_cc (s : State) (h : Half) (f : HubState → HubState) : (s.updHub h f).cc = s.cc := rfl
@[simp] theorem State.updHub_slots (s : State) (h : Half) (f : HubState → HubState) : (s.updHub h f).slots = s.slots := rfl
@[simp] theorem State.updHub_locks (s : State) (h : Half) (f : HubState → HubState) : (s.updHub h f).locks = s.locks := rfl
@[simp] theorem State.updHub_hbm (s : State) (h : Half) (f : HubState → HubState) : (s.updHub h f).hbm = s.hbm := rfl
@[simp] theorem State.updHub_buf (s : State) (h : Half) (f : HubState → HubState) : (s.updHub h f).buf = s.buf := rfl
@[simp] theorem State.updHub_sched (s : State) (h : Half) (f : HubState → HubState) : (s.updHub h f).sched = s.sched := rfl
@[simp] theorem State.updHub_ford (s : State) (h : Half) (f : HubState → HubState) : (s.updHub h f).ford = s.ford := rfl
@[simp] theorem State.updHub_exp (s : State) (h : Half) (f : HubState → HubState) : (s.updHub h f).exp = s.exp := rfl
@[simp] theorem State.updHub_tab (s : State) (h : Half) (f : HubState → HubState) : (s.updHub h f).tab = s.tab := rfl
@[simp] theorem State.updHub_assoc (s : State) (h : Half) (f : HubState → HubState) : (s.updHub h f).assoc = s.assoc := rfl
@[simp] theorem State.updHub_dev (s : State) (h : Half) (f : HubState → HubState) : (s.updHub h f).dev = s.dev := rfl
@[simp] theorem State.updHub_pv (s : State) (h : Half) (f : HubState → HubState) : (s.updHub h f).pv = s.pv := rfl
@[simp] theorem State.updHub_ticks (s : State) (h : Half) (f : HubState → HubState) : (s.updHub h f).ticks = s.ticks := rfl
@[simp] theorem State.updHub_fresh (s : State) (h : Half) (f : HubState → HubState) : (s.updHub h f).fresh = s.fresh := rfl
@[simp] theorem State.updHub_waits (s : State) (h : Half) (f : HubState → HubState) : (s.updHub h f).waits = s.waits := rfl
@[simp] theorem State.updHub_pending (s : State) (h : Half) (f : HubState → HubState) : (s.updHub h f).pending = s.pending := rfl

/-! ### updTime -/

@[simp] theorem State.updTime_csr (s : State) (h : Half) (f : TimeState → TimeState) : (s.updTime h f).csr = s.csr := rfl
@[simp] theorem State.updTime_staged (s : State) (h : Half) (f : TimeState → TimeState) : (s.updTime h f).staged = s.staged := rfl
@[simp] theorem State.updTime_units (s : State) (h : Half) (f : TimeState → TimeState) : (s.updTime h f).units = s.units := rfl
@[simp] theorem State.updTime_commits (s : State) (h : Half) (f : TimeState → TimeState) : (s.updTime h f).commits = s.commits := rfl
@[simp] theorem State.updTime_hubs (s : State) (h : Half) (f : TimeState → TimeState) : (s.updTime h f).hubs = s.hubs := rfl
@[simp] theorem State.updTime_time (s : State) (h : Half) (f : TimeState → TimeState) : (s.updTime h f).time = s.time.upd h f := rfl
@[simp] theorem State.updTime_ing (s : State) (h : Half) (f : TimeState → TimeState) : (s.updTime h f).ing = s.ing := rfl
@[simp] theorem State.updTime_conf (s : State) (h : Half) (f : TimeState → TimeState) : (s.updTime h f).conf = s.conf := rfl
@[simp] theorem State.updTime_tiles (s : State) (h : Half) (f : TimeState → TimeState) : (s.updTime h f).tiles = s.tiles := rfl
@[simp] theorem State.updTime_cc (s : State) (h : Half) (f : TimeState → TimeState) : (s.updTime h f).cc = s.cc := rfl
@[simp] theorem State.updTime_slots (s : State) (h : Half) (f : TimeState → TimeState) : (s.updTime h f).slots = s.slots := rfl
@[simp] theorem State.updTime_locks (s : State) (h : Half) (f : TimeState → TimeState) : (s.updTime h f).locks = s.locks := rfl
@[simp] theorem State.updTime_hbm (s : State) (h : Half) (f : TimeState → TimeState) : (s.updTime h f).hbm = s.hbm := rfl
@[simp] theorem State.updTime_buf (s : State) (h : Half) (f : TimeState → TimeState) : (s.updTime h f).buf = s.buf := rfl
@[simp] theorem State.updTime_sched (s : State) (h : Half) (f : TimeState → TimeState) : (s.updTime h f).sched = s.sched := rfl
@[simp] theorem State.updTime_ford (s : State) (h : Half) (f : TimeState → TimeState) : (s.updTime h f).ford = s.ford := rfl
@[simp] theorem State.updTime_exp (s : State) (h : Half) (f : TimeState → TimeState) : (s.updTime h f).exp = s.exp := rfl
@[simp] theorem State.updTime_tab (s : State) (h : Half) (f : TimeState → TimeState) : (s.updTime h f).tab = s.tab := rfl
@[simp] theorem State.updTime_assoc (s : State) (h : Half) (f : TimeState → TimeState) : (s.updTime h f).assoc = s.assoc := rfl
@[simp] theorem State.updTime_dev (s : State) (h : Half) (f : TimeState → TimeState) : (s.updTime h f).dev = s.dev := rfl
@[simp] theorem State.updTime_pv (s : State) (h : Half) (f : TimeState → TimeState) : (s.updTime h f).pv = s.pv := rfl
@[simp] theorem State.updTime_ticks (s : State) (h : Half) (f : TimeState → TimeState) : (s.updTime h f).ticks = s.ticks := rfl
@[simp] theorem State.updTime_fresh (s : State) (h : Half) (f : TimeState → TimeState) : (s.updTime h f).fresh = s.fresh := rfl
@[simp] theorem State.updTime_waits (s : State) (h : Half) (f : TimeState → TimeState) : (s.updTime h f).waits = s.waits := rfl
@[simp] theorem State.updTime_pending (s : State) (h : Half) (f : TimeState → TimeState) : (s.updTime h f).pending = s.pending := rfl

/-! ### updIng -/

@[simp] theorem State.updIng_csr (s : State) (h : Half) (f : IngressState → IngressState) : (s.updIng h f).csr = s.csr := rfl
@[simp] theorem State.updIng_staged (s : State) (h : Half) (f : IngressState → IngressState) : (s.updIng h f).staged = s.staged := rfl
@[simp] theorem State.updIng_units (s : State) (h : Half) (f : IngressState → IngressState) : (s.updIng h f).units = s.units := rfl
@[simp] theorem State.updIng_commits (s : State) (h : Half) (f : IngressState → IngressState) : (s.updIng h f).commits = s.commits := rfl
@[simp] theorem State.updIng_hubs (s : State) (h : Half) (f : IngressState → IngressState) : (s.updIng h f).hubs = s.hubs := rfl
@[simp] theorem State.updIng_time (s : State) (h : Half) (f : IngressState → IngressState) : (s.updIng h f).time = s.time := rfl
@[simp] theorem State.updIng_ing (s : State) (h : Half) (f : IngressState → IngressState) : (s.updIng h f).ing = s.ing.upd h f := rfl
@[simp] theorem State.updIng_conf (s : State) (h : Half) (f : IngressState → IngressState) : (s.updIng h f).conf = s.conf := rfl
@[simp] theorem State.updIng_tiles (s : State) (h : Half) (f : IngressState → IngressState) : (s.updIng h f).tiles = s.tiles := rfl
@[simp] theorem State.updIng_cc (s : State) (h : Half) (f : IngressState → IngressState) : (s.updIng h f).cc = s.cc := rfl
@[simp] theorem State.updIng_slots (s : State) (h : Half) (f : IngressState → IngressState) : (s.updIng h f).slots = s.slots := rfl
@[simp] theorem State.updIng_locks (s : State) (h : Half) (f : IngressState → IngressState) : (s.updIng h f).locks = s.locks := rfl
@[simp] theorem State.updIng_hbm (s : State) (h : Half) (f : IngressState → IngressState) : (s.updIng h f).hbm = s.hbm := rfl
@[simp] theorem State.updIng_buf (s : State) (h : Half) (f : IngressState → IngressState) : (s.updIng h f).buf = s.buf := rfl
@[simp] theorem State.updIng_sched (s : State) (h : Half) (f : IngressState → IngressState) : (s.updIng h f).sched = s.sched := rfl
@[simp] theorem State.updIng_ford (s : State) (h : Half) (f : IngressState → IngressState) : (s.updIng h f).ford = s.ford := rfl
@[simp] theorem State.updIng_exp (s : State) (h : Half) (f : IngressState → IngressState) : (s.updIng h f).exp = s.exp := rfl
@[simp] theorem State.updIng_tab (s : State) (h : Half) (f : IngressState → IngressState) : (s.updIng h f).tab = s.tab := rfl
@[simp] theorem State.updIng_assoc (s : State) (h : Half) (f : IngressState → IngressState) : (s.updIng h f).assoc = s.assoc := rfl
@[simp] theorem State.updIng_dev (s : State) (h : Half) (f : IngressState → IngressState) : (s.updIng h f).dev = s.dev := rfl
@[simp] theorem State.updIng_pv (s : State) (h : Half) (f : IngressState → IngressState) : (s.updIng h f).pv = s.pv := rfl
@[simp] theorem State.updIng_ticks (s : State) (h : Half) (f : IngressState → IngressState) : (s.updIng h f).ticks = s.ticks := rfl
@[simp] theorem State.updIng_fresh (s : State) (h : Half) (f : IngressState → IngressState) : (s.updIng h f).fresh = s.fresh := rfl
@[simp] theorem State.updIng_waits (s : State) (h : Half) (f : IngressState → IngressState) : (s.updIng h f).waits = s.waits := rfl
@[simp] theorem State.updIng_pending (s : State) (h : Half) (f : IngressState → IngressState) : (s.updIng h f).pending = s.pending := rfl

/-! ### updTile -/

@[simp] theorem State.updTile_csr (s : State) (h : Half) (t : TileIx) (f : Tile → Tile) : (s.updTile h t f).csr = s.csr := rfl
@[simp] theorem State.updTile_staged (s : State) (h : Half) (t : TileIx) (f : Tile → Tile) : (s.updTile h t f).staged = s.staged := rfl
@[simp] theorem State.updTile_units (s : State) (h : Half) (t : TileIx) (f : Tile → Tile) : (s.updTile h t f).units = s.units := rfl
@[simp] theorem State.updTile_commits (s : State) (h : Half) (t : TileIx) (f : Tile → Tile) : (s.updTile h t f).commits = s.commits := rfl
@[simp] theorem State.updTile_hubs (s : State) (h : Half) (t : TileIx) (f : Tile → Tile) : (s.updTile h t f).hubs = s.hubs := rfl
@[simp] theorem State.updTile_time (s : State) (h : Half) (t : TileIx) (f : Tile → Tile) : (s.updTile h t f).time = s.time := rfl
@[simp] theorem State.updTile_ing (s : State) (h : Half) (t : TileIx) (f : Tile → Tile) : (s.updTile h t f).ing = s.ing := rfl
@[simp] theorem State.updTile_conf (s : State) (h : Half) (t : TileIx) (f : Tile → Tile) : (s.updTile h t f).conf = s.conf := rfl
@[simp] theorem State.updTile_cc (s : State) (h : Half) (t : TileIx) (f : Tile → Tile) : (s.updTile h t f).cc = s.cc := rfl
@[simp] theorem State.updTile_slots (s : State) (h : Half) (t : TileIx) (f : Tile → Tile) : (s.updTile h t f).slots = s.slots := rfl
@[simp] theorem State.updTile_locks (s : State) (h : Half) (t : TileIx) (f : Tile → Tile) : (s.updTile h t f).locks = s.locks := rfl
@[simp] theorem State.updTile_hbm (s : State) (h : Half) (t : TileIx) (f : Tile → Tile) : (s.updTile h t f).hbm = s.hbm := rfl
@[simp] theorem State.updTile_buf (s : State) (h : Half) (t : TileIx) (f : Tile → Tile) : (s.updTile h t f).buf = s.buf := rfl
@[simp] theorem State.updTile_sched (s : State) (h : Half) (t : TileIx) (f : Tile → Tile) : (s.updTile h t f).sched = s.sched := rfl
@[simp] theorem State.updTile_ford (s : State) (h : Half) (t : TileIx) (f : Tile → Tile) : (s.updTile h t f).ford = s.ford := rfl
@[simp] theorem State.updTile_exp (s : State) (h : Half) (t : TileIx) (f : Tile → Tile) : (s.updTile h t f).exp = s.exp := rfl
@[simp] theorem State.updTile_tab (s : State) (h : Half) (t : TileIx) (f : Tile → Tile) : (s.updTile h t f).tab = s.tab := rfl
@[simp] theorem State.updTile_assoc (s : State) (h : Half) (t : TileIx) (f : Tile → Tile) : (s.updTile h t f).assoc = s.assoc := rfl
@[simp] theorem State.updTile_dev (s : State) (h : Half) (t : TileIx) (f : Tile → Tile) : (s.updTile h t f).dev = s.dev := rfl
@[simp] theorem State.updTile_pv (s : State) (h : Half) (t : TileIx) (f : Tile → Tile) : (s.updTile h t f).pv = s.pv := rfl
@[simp] theorem State.updTile_ticks (s : State) (h : Half) (t : TileIx) (f : Tile → Tile) : (s.updTile h t f).ticks = s.ticks := rfl
@[simp] theorem State.updTile_fresh (s : State) (h : Half) (t : TileIx) (f : Tile → Tile) : (s.updTile h t f).fresh = s.fresh := rfl
@[simp] theorem State.updTile_waits (s : State) (h : Half) (t : TileIx) (f : Tile → Tile) : (s.updTile h t f).waits = s.waits := rfl
@[simp] theorem State.updTile_pending (s : State) (h : Half) (t : TileIx) (f : Tile → Tile) : (s.updTile h t f).pending = s.pending := rfl

/-! ### updTask -/

@[simp] theorem State.updTask_csr (s : State) (h : Half) (t : TileIx) (k : Nat) (f : Task → Task) : (s.updTask h t k f).csr = s.csr := rfl
@[simp] theorem State.updTask_staged (s : State) (h : Half) (t : TileIx) (k : Nat) (f : Task → Task) : (s.updTask h t k f).staged = s.staged := rfl
@[simp] theorem State.updTask_units (s : State) (h : Half) (t : TileIx) (k : Nat) (f : Task → Task) : (s.updTask h t k f).units = s.units := rfl
@[simp] theorem State.updTask_commits (s : State) (h : Half) (t : TileIx) (k : Nat) (f : Task → Task) : (s.updTask h t k f).commits = s.commits := rfl
@[simp] theorem State.updTask_hubs (s : State) (h : Half) (t : TileIx) (k : Nat) (f : Task → Task) : (s.updTask h t k f).hubs = s.hubs := rfl
@[simp] theorem State.updTask_time (s : State) (h : Half) (t : TileIx) (k : Nat) (f : Task → Task) : (s.updTask h t k f).time = s.time := rfl
@[simp] theorem State.updTask_ing (s : State) (h : Half) (t : TileIx) (k : Nat) (f : Task → Task) : (s.updTask h t k f).ing = s.ing := rfl
@[simp] theorem State.updTask_conf (s : State) (h : Half) (t : TileIx) (k : Nat) (f : Task → Task) : (s.updTask h t k f).conf = s.conf := rfl
@[simp] theorem State.updTask_cc (s : State) (h : Half) (t : TileIx) (k : Nat) (f : Task → Task) : (s.updTask h t k f).cc = s.cc := rfl
@[simp] theorem State.updTask_slots (s : State) (h : Half) (t : TileIx) (k : Nat) (f : Task → Task) : (s.updTask h t k f).slots = s.slots := rfl
@[simp] theorem State.updTask_locks (s : State) (h : Half) (t : TileIx) (k : Nat) (f : Task → Task) : (s.updTask h t k f).locks = s.locks := rfl
@[simp] theorem State.updTask_hbm (s : State) (h : Half) (t : TileIx) (k : Nat) (f : Task → Task) : (s.updTask h t k f).hbm = s.hbm := rfl
@[simp] theorem State.updTask_buf (s : State) (h : Half) (t : TileIx) (k : Nat) (f : Task → Task) : (s.updTask h t k f).buf = s.buf := rfl
@[simp] theorem State.updTask_sched (s : State) (h : Half) (t : TileIx) (k : Nat) (f : Task → Task) : (s.updTask h t k f).sched = s.sched := rfl
@[simp] theorem State.updTask_ford (s : State) (h : Half) (t : TileIx) (k : Nat) (f : Task → Task) : (s.updTask h t k f).ford = s.ford := rfl
@[simp] theorem State.updTask_exp (s : State) (h : Half) (t : TileIx) (k : Nat) (f : Task → Task) : (s.updTask h t k f).exp = s.exp := rfl
@[simp] theorem State.updTask_tab (s : State) (h : Half) (t : TileIx) (k : Nat) (f : Task → Task) : (s.updTask h t k f).tab = s.tab := rfl
@[simp] theorem State.updTask_assoc (s : State) (h : Half) (t : TileIx) (k : Nat) (f : Task → Task) : (s.updTask h t k f).assoc = s.assoc := rfl
@[simp] theorem State.updTask_dev (s : State) (h : Half) (t : TileIx) (k : Nat) (f : Task → Task) : (s.updTask h t k f).dev = s.dev := rfl
@[simp] theorem State.updTask_pv (s : State) (h : Half) (t : TileIx) (k : Nat) (f : Task → Task) : (s.updTask h t k f).pv = s.pv := rfl
@[simp] theorem State.updTask_ticks (s : State) (h : Half) (t : TileIx) (k : Nat) (f : Task → Task) : (s.updTask h t k f).ticks = s.ticks := rfl
@[simp] theorem State.updTask_fresh (s : State) (h : Half) (t : TileIx) (k : Nat) (f : Task → Task) : (s.updTask h t k f).fresh = s.fresh := rfl
@[simp] theorem State.updTask_waits (s : State) (h : Half) (t : TileIx) (k : Nat) (f : Task → Task) : (s.updTask h t k f).waits = s.waits := rfl
@[simp] theorem State.updTask_pending (s : State) (h : Half) (t : TileIx) (k : Nat) (f : Task → Task) : (s.updTask h t k f).pending = s.pending := rfl

/-! ### updHbm -/

@[simp] theorem State.updHbm_csr (s : State) (h : Half) (f : HbmState → HbmState) : (s.updHbm h f).csr = s.csr := rfl
@[simp] theorem State.updHbm_staged (s : State) (h : Half) (f : HbmState → HbmState) : (s.updHbm h f).staged = s.staged := rfl
@[simp] theorem State.updHbm_units (s : State) (h : Half) (f : HbmState → HbmState) : (s.updHbm h f).units = s.units := rfl
@[simp] theorem State.updHbm_commits (s : State) (h : Half) (f : HbmState → HbmState) : (s.updHbm h f).commits = s.commits := rfl
@[simp] theorem State.updHbm_hubs (s : State) (h : Half) (f : HbmState → HbmState) : (s.updHbm h f).hubs = s.hubs := rfl
@[simp] theorem State.updHbm_time (s : State) (h : Half) (f : HbmState → HbmState) : (s.updHbm h f).time = s.time := rfl
@[simp] theorem State.updHbm_ing (s : State) (h : Half) (f : HbmState → HbmState) : (s.updHbm h f).ing = s.ing := rfl
@[simp] theorem State.updHbm_conf (s : State) (h : Half) (f : HbmState → HbmState) : (s.updHbm h f).conf = s.conf := rfl
@[simp] theorem State.updHbm_tiles (s : State) (h : Half) (f : HbmState → HbmState) : (s.updHbm h f).tiles = s.tiles := rfl
@[simp] theorem State.updHbm_cc (s : State) (h : Half) (f : HbmState → HbmState) : (s.updHbm h f).cc = s.cc := rfl
@[simp] theorem State.updHbm_slots (s : State) (h : Half) (f : HbmState → HbmState) : (s.updHbm h f).slots = s.slots := rfl
@[simp] theorem State.updHbm_locks (s : State) (h : Half) (f : HbmState → HbmState) : (s.updHbm h f).locks = s.locks := rfl
@[simp] theorem State.updHbm_hbm (s : State) (h : Half) (f : HbmState → HbmState) : (s.updHbm h f).hbm = s.hbm.upd h f := rfl
@[simp] theorem State.updHbm_buf (s : State) (h : Half) (f : HbmState → HbmState) : (s.updHbm h f).buf = s.buf := rfl
@[simp] theorem State.updHbm_sched (s : State) (h : Half) (f : HbmState → HbmState) : (s.updHbm h f).sched = s.sched := rfl
@[simp] theorem State.updHbm_ford (s : State) (h : Half) (f : HbmState → HbmState) : (s.updHbm h f).ford = s.ford := rfl
@[simp] theorem State.updHbm_exp (s : State) (h : Half) (f : HbmState → HbmState) : (s.updHbm h f).exp = s.exp := rfl
@[simp] theorem State.updHbm_tab (s : State) (h : Half) (f : HbmState → HbmState) : (s.updHbm h f).tab = s.tab := rfl
@[simp] theorem State.updHbm_assoc (s : State) (h : Half) (f : HbmState → HbmState) : (s.updHbm h f).assoc = s.assoc := rfl
@[simp] theorem State.updHbm_dev (s : State) (h : Half) (f : HbmState → HbmState) : (s.updHbm h f).dev = s.dev := rfl
@[simp] theorem State.updHbm_pv (s : State) (h : Half) (f : HbmState → HbmState) : (s.updHbm h f).pv = s.pv := rfl
@[simp] theorem State.updHbm_ticks (s : State) (h : Half) (f : HbmState → HbmState) : (s.updHbm h f).ticks = s.ticks := rfl
@[simp] theorem State.updHbm_fresh (s : State) (h : Half) (f : HbmState → HbmState) : (s.updHbm h f).fresh = s.fresh := rfl
@[simp] theorem State.updHbm_waits (s : State) (h : Half) (f : HbmState → HbmState) : (s.updHbm h f).waits = s.waits := rfl
@[simp] theorem State.updHbm_pending (s : State) (h : Half) (f : HbmState → HbmState) : (s.updHbm h f).pending = s.pending := rfl

/-! ### updBuf -/

@[simp] theorem State.updBuf_csr (s : State) (h : Half) (f : BufferState → BufferState) : (s.updBuf h f).csr = s.csr := rfl
@[simp] theorem State.updBuf_staged (s : State) (h : Half) (f : BufferState → BufferState) : (s.updBuf h f).staged = s.staged := rfl
@[simp] theorem State.updBuf_units (s : State) (h : Half) (f : BufferState → BufferState) : (s.updBuf h f).units = s.units := rfl
@[simp] theorem State.updBuf_commits (s : State) (h : Half) (f : BufferState → BufferState) : (s.updBuf h f).commits = s.commits := rfl
@[simp] theorem State.updBuf_hubs (s : State) (h : Half) (f : BufferState → BufferState) : (s.updBuf h f).hubs = s.hubs := rfl
@[simp] theorem State.updBuf_time (s : State) (h : Half) (f : BufferState → BufferState) : (s.updBuf h f).time = s.time := rfl
@[simp] theorem State.updBuf_ing (s : State) (h : Half) (f : BufferState → BufferState) : (s.updBuf h f).ing = s.ing := rfl
@[simp] theorem State.updBuf_conf (s : State) (h : Half) (f : BufferState → BufferState) : (s.updBuf h f).conf = s.conf := rfl
@[simp] theorem State.updBuf_tiles (s : State) (h : Half) (f : BufferState → BufferState) : (s.updBuf h f).tiles = s.tiles := rfl
@[simp] theorem State.updBuf_cc (s : State) (h : Half) (f : BufferState → BufferState) : (s.updBuf h f).cc = s.cc := rfl
@[simp] theorem State.updBuf_slots (s : State) (h : Half) (f : BufferState → BufferState) : (s.updBuf h f).slots = s.slots := rfl
@[simp] theorem State.updBuf_locks (s : State) (h : Half) (f : BufferState → BufferState) : (s.updBuf h f).locks = s.locks := rfl
@[simp] theorem State.updBuf_hbm (s : State) (h : Half) (f : BufferState → BufferState) : (s.updBuf h f).hbm = s.hbm := rfl
@[simp] theorem State.updBuf_buf (s : State) (h : Half) (f : BufferState → BufferState) : (s.updBuf h f).buf = s.buf.upd h f := rfl
@[simp] theorem State.updBuf_sched (s : State) (h : Half) (f : BufferState → BufferState) : (s.updBuf h f).sched = s.sched := rfl
@[simp] theorem State.updBuf_ford (s : State) (h : Half) (f : BufferState → BufferState) : (s.updBuf h f).ford = s.ford := rfl
@[simp] theorem State.updBuf_exp (s : State) (h : Half) (f : BufferState → BufferState) : (s.updBuf h f).exp = s.exp := rfl
@[simp] theorem State.updBuf_tab (s : State) (h : Half) (f : BufferState → BufferState) : (s.updBuf h f).tab = s.tab := rfl
@[simp] theorem State.updBuf_assoc (s : State) (h : Half) (f : BufferState → BufferState) : (s.updBuf h f).assoc = s.assoc := rfl
@[simp] theorem State.updBuf_dev (s : State) (h : Half) (f : BufferState → BufferState) : (s.updBuf h f).dev = s.dev := rfl
@[simp] theorem State.updBuf_pv (s : State) (h : Half) (f : BufferState → BufferState) : (s.updBuf h f).pv = s.pv := rfl
@[simp] theorem State.updBuf_ticks (s : State) (h : Half) (f : BufferState → BufferState) : (s.updBuf h f).ticks = s.ticks := rfl
@[simp] theorem State.updBuf_fresh (s : State) (h : Half) (f : BufferState → BufferState) : (s.updBuf h f).fresh = s.fresh := rfl
@[simp] theorem State.updBuf_waits (s : State) (h : Half) (f : BufferState → BufferState) : (s.updBuf h f).waits = s.waits := rfl
@[simp] theorem State.updBuf_pending (s : State) (h : Half) (f : BufferState → BufferState) : (s.updBuf h f).pending = s.pending := rfl

/-! ### updSched -/

@[simp] theorem State.updSched_csr (s : State) (h : Half) (f : SchedState → SchedState) : (s.updSched h f).csr = s.csr := rfl
@[simp] theorem State.updSched_staged (s : State) (h : Half) (f : SchedState → SchedState) : (s.updSched h f).staged = s.staged := rfl
@[simp] theorem State.updSched_units (s : State) (h : Half) (f : SchedState → SchedState) : (s.updSched h f).units = s.units := rfl
@[simp] theorem State.updSched_commits (s : State) (h : Half) (f : SchedState → SchedState) : (s.updSched h f).commits = s.commits := rfl
@[simp] theorem State.updSched_hubs (s : State) (h : Half) (f : SchedState → SchedState) : (s.updSched h f).hubs = s.hubs := rfl
@[simp] theorem State.updSched_time (s : State) (h : Half) (f : SchedState → SchedState) : (s.updSched h f).time = s.time := rfl
@[simp] theorem State.updSched_ing (s : State) (h : Half) (f : SchedState → SchedState) : (s.updSched h f).ing = s.ing := rfl
@[simp] theorem State.updSched_conf (s : State) (h : Half) (f : SchedState → SchedState) : (s.updSched h f).conf = s.conf := rfl
@[simp] theorem State.updSched_tiles (s : State) (h : Half) (f : SchedState → SchedState) : (s.updSched h f).tiles = s.tiles := rfl
@[simp] theorem State.updSched_cc (s : State) (h : Half) (f : SchedState → SchedState) : (s.updSched h f).cc = s.cc := rfl
@[simp] theorem State.updSched_slots (s : State) (h : Half) (f : SchedState → SchedState) : (s.updSched h f).slots = s.slots := rfl
@[simp] theorem State.updSched_locks (s : State) (h : Half) (f : SchedState → SchedState) : (s.updSched h f).locks = s.locks := rfl
@[simp] theorem State.updSched_hbm (s : State) (h : Half) (f : SchedState → SchedState) : (s.updSched h f).hbm = s.hbm := rfl
@[simp] theorem State.updSched_buf (s : State) (h : Half) (f : SchedState → SchedState) : (s.updSched h f).buf = s.buf := rfl
@[simp] theorem State.updSched_sched (s : State) (h : Half) (f : SchedState → SchedState) : (s.updSched h f).sched = s.sched.upd h f := rfl
@[simp] theorem State.updSched_ford (s : State) (h : Half) (f : SchedState → SchedState) : (s.updSched h f).ford = s.ford := rfl
@[simp] theorem State.updSched_exp (s : State) (h : Half) (f : SchedState → SchedState) : (s.updSched h f).exp = s.exp := rfl
@[simp] theorem State.updSched_tab (s : State) (h : Half) (f : SchedState → SchedState) : (s.updSched h f).tab = s.tab := rfl
@[simp] theorem State.updSched_assoc (s : State) (h : Half) (f : SchedState → SchedState) : (s.updSched h f).assoc = s.assoc := rfl
@[simp] theorem State.updSched_dev (s : State) (h : Half) (f : SchedState → SchedState) : (s.updSched h f).dev = s.dev := rfl
@[simp] theorem State.updSched_pv (s : State) (h : Half) (f : SchedState → SchedState) : (s.updSched h f).pv = s.pv := rfl
@[simp] theorem State.updSched_ticks (s : State) (h : Half) (f : SchedState → SchedState) : (s.updSched h f).ticks = s.ticks := rfl
@[simp] theorem State.updSched_fresh (s : State) (h : Half) (f : SchedState → SchedState) : (s.updSched h f).fresh = s.fresh := rfl
@[simp] theorem State.updSched_waits (s : State) (h : Half) (f : SchedState → SchedState) : (s.updSched h f).waits = s.waits := rfl
@[simp] theorem State.updSched_pending (s : State) (h : Half) (f : SchedState → SchedState) : (s.updSched h f).pending = s.pending := rfl

/-! ### updFord -/

@[simp] theorem State.updFord_csr (s : State) (h : Half) (f : FordState → FordState) : (s.updFord h f).csr = s.csr := rfl
@[simp] theorem State.updFord_staged (s : State) (h : Half) (f : FordState → FordState) : (s.updFord h f).staged = s.staged := rfl
@[simp] theorem State.updFord_units (s : State) (h : Half) (f : FordState → FordState) : (s.updFord h f).units = s.units := rfl
@[simp] theorem State.updFord_commits (s : State) (h : Half) (f : FordState → FordState) : (s.updFord h f).commits = s.commits := rfl
@[simp] theorem State.updFord_hubs (s : State) (h : Half) (f : FordState → FordState) : (s.updFord h f).hubs = s.hubs := rfl
@[simp] theorem State.updFord_time (s : State) (h : Half) (f : FordState → FordState) : (s.updFord h f).time = s.time := rfl
@[simp] theorem State.updFord_ing (s : State) (h : Half) (f : FordState → FordState) : (s.updFord h f).ing = s.ing := rfl
@[simp] theorem State.updFord_conf (s : State) (h : Half) (f : FordState → FordState) : (s.updFord h f).conf = s.conf := rfl
@[simp] theorem State.updFord_tiles (s : State) (h : Half) (f : FordState → FordState) : (s.updFord h f).tiles = s.tiles := rfl
@[simp] theorem State.updFord_cc (s : State) (h : Half) (f : FordState → FordState) : (s.updFord h f).cc = s.cc := rfl
@[simp] theorem State.updFord_slots (s : State) (h : Half) (f : FordState → FordState) : (s.updFord h f).slots = s.slots := rfl
@[simp] theorem State.updFord_locks (s : State) (h : Half) (f : FordState → FordState) : (s.updFord h f).locks = s.locks := rfl
@[simp] theorem State.updFord_hbm (s : State) (h : Half) (f : FordState → FordState) : (s.updFord h f).hbm = s.hbm := rfl
@[simp] theorem State.updFord_buf (s : State) (h : Half) (f : FordState → FordState) : (s.updFord h f).buf = s.buf := rfl
@[simp] theorem State.updFord_sched (s : State) (h : Half) (f : FordState → FordState) : (s.updFord h f).sched = s.sched := rfl
@[simp] theorem State.updFord_ford (s : State) (h : Half) (f : FordState → FordState) : (s.updFord h f).ford = s.ford.upd h f := rfl
@[simp] theorem State.updFord_exp (s : State) (h : Half) (f : FordState → FordState) : (s.updFord h f).exp = s.exp := rfl
@[simp] theorem State.updFord_tab (s : State) (h : Half) (f : FordState → FordState) : (s.updFord h f).tab = s.tab := rfl
@[simp] theorem State.updFord_assoc (s : State) (h : Half) (f : FordState → FordState) : (s.updFord h f).assoc = s.assoc := rfl
@[simp] theorem State.updFord_dev (s : State) (h : Half) (f : FordState → FordState) : (s.updFord h f).dev = s.dev := rfl
@[simp] theorem State.updFord_pv (s : State) (h : Half) (f : FordState → FordState) : (s.updFord h f).pv = s.pv := rfl
@[simp] theorem State.updFord_ticks (s : State) (h : Half) (f : FordState → FordState) : (s.updFord h f).ticks = s.ticks := rfl
@[simp] theorem State.updFord_fresh (s : State) (h : Half) (f : FordState → FordState) : (s.updFord h f).fresh = s.fresh := rfl
@[simp] theorem State.updFord_waits (s : State) (h : Half) (f : FordState → FordState) : (s.updFord h f).waits = s.waits := rfl
@[simp] theorem State.updFord_pending (s : State) (h : Half) (f : FordState → FordState) : (s.updFord h f).pending = s.pending := rfl

/-! ### updExp -/

@[simp] theorem State.updExp_csr (s : State) (h : Half) (f : ExpState → ExpState) : (s.updExp h f).csr = s.csr := rfl
@[simp] theorem State.updExp_staged (s : State) (h : Half) (f : ExpState → ExpState) : (s.updExp h f).staged = s.staged := rfl
@[simp] theorem State.updExp_units (s : State) (h : Half) (f : ExpState → ExpState) : (s.updExp h f).units = s.units := rfl
@[simp] theorem State.updExp_commits (s : State) (h : Half) (f : ExpState → ExpState) : (s.updExp h f).commits = s.commits := rfl
@[simp] theorem State.updExp_hubs (s : State) (h : Half) (f : ExpState → ExpState) : (s.updExp h f).hubs = s.hubs := rfl
@[simp] theorem State.updExp_time (s : State) (h : Half) (f : ExpState → ExpState) : (s.updExp h f).time = s.time := rfl
@[simp] theorem State.updExp_ing (s : State) (h : Half) (f : ExpState → ExpState) : (s.updExp h f).ing = s.ing := rfl
@[simp] theorem State.updExp_conf (s : State) (h : Half) (f : ExpState → ExpState) : (s.updExp h f).conf = s.conf := rfl
@[simp] theorem State.updExp_tiles (s : State) (h : Half) (f : ExpState → ExpState) : (s.updExp h f).tiles = s.tiles := rfl
@[simp] theorem State.updExp_cc (s : State) (h : Half) (f : ExpState → ExpState) : (s.updExp h f).cc = s.cc := rfl
@[simp] theorem State.updExp_slots (s : State) (h : Half) (f : ExpState → ExpState) : (s.updExp h f).slots = s.slots := rfl
@[simp] theorem State.updExp_locks (s : State) (h : Half) (f : ExpState → ExpState) : (s.updExp h f).locks = s.locks := rfl
@[simp] theorem State.updExp_hbm (s : State) (h : Half) (f : ExpState → ExpState) : (s.updExp h f).hbm = s.hbm := rfl
@[simp] theorem State.updExp_buf (s : State) (h : Half) (f : ExpState → ExpState) : (s.updExp h f).buf = s.buf := rfl
@[simp] theorem State.updExp_sched (s : State) (h : Half) (f : ExpState → ExpState) : (s.updExp h f).sched = s.sched := rfl
@[simp] theorem State.updExp_ford (s : State) (h : Half) (f : ExpState → ExpState) : (s.updExp h f).ford = s.ford := rfl
@[simp] theorem State.updExp_exp (s : State) (h : Half) (f : ExpState → ExpState) : (s.updExp h f).exp = s.exp.upd h f := rfl
@[simp] theorem State.updExp_tab (s : State) (h : Half) (f : ExpState → ExpState) : (s.updExp h f).tab = s.tab := rfl
@[simp] theorem State.updExp_assoc (s : State) (h : Half) (f : ExpState → ExpState) : (s.updExp h f).assoc = s.assoc := rfl
@[simp] theorem State.updExp_dev (s : State) (h : Half) (f : ExpState → ExpState) : (s.updExp h f).dev = s.dev := rfl
@[simp] theorem State.updExp_pv (s : State) (h : Half) (f : ExpState → ExpState) : (s.updExp h f).pv = s.pv := rfl
@[simp] theorem State.updExp_ticks (s : State) (h : Half) (f : ExpState → ExpState) : (s.updExp h f).ticks = s.ticks := rfl
@[simp] theorem State.updExp_fresh (s : State) (h : Half) (f : ExpState → ExpState) : (s.updExp h f).fresh = s.fresh := rfl
@[simp] theorem State.updExp_waits (s : State) (h : Half) (f : ExpState → ExpState) : (s.updExp h f).waits = s.waits := rfl
@[simp] theorem State.updExp_pending (s : State) (h : Half) (f : ExpState → ExpState) : (s.updExp h f).pending = s.pending := rfl

/-! ### updTab -/

@[simp] theorem State.updTab_csr (s : State) (h : Half) (f : TableState → TableState) : (s.updTab h f).csr = s.csr := rfl
@[simp] theorem State.updTab_staged (s : State) (h : Half) (f : TableState → TableState) : (s.updTab h f).staged = s.staged := rfl
@[simp] theorem State.updTab_units (s : State) (h : Half) (f : TableState → TableState) : (s.updTab h f).units = s.units := rfl
@[simp] theorem State.updTab_commits (s : State) (h : Half) (f : TableState → TableState) : (s.updTab h f).commits = s.commits := rfl
@[simp] theorem State.updTab_hubs (s : State) (h : Half) (f : TableState → TableState) : (s.updTab h f).hubs = s.hubs := rfl
@[simp] theorem State.updTab_time (s : State) (h : Half) (f : TableState → TableState) : (s.updTab h f).time = s.time := rfl
@[simp] theorem State.updTab_ing (s : State) (h : Half) (f : TableState → TableState) : (s.updTab h f).ing = s.ing := rfl
@[simp] theorem State.updTab_conf (s : State) (h : Half) (f : TableState → TableState) : (s.updTab h f).conf = s.conf := rfl
@[simp] theorem State.updTab_tiles (s : State) (h : Half) (f : TableState → TableState) : (s.updTab h f).tiles = s.tiles := rfl
@[simp] theorem State.updTab_cc (s : State) (h : Half) (f : TableState → TableState) : (s.updTab h f).cc = s.cc := rfl
@[simp] theorem State.updTab_slots (s : State) (h : Half) (f : TableState → TableState) : (s.updTab h f).slots = s.slots := rfl
@[simp] theorem State.updTab_locks (s : State) (h : Half) (f : TableState → TableState) : (s.updTab h f).locks = s.locks := rfl
@[simp] theorem State.updTab_hbm (s : State) (h : Half) (f : TableState → TableState) : (s.updTab h f).hbm = s.hbm := rfl
@[simp] theorem State.updTab_buf (s : State) (h : Half) (f : TableState → TableState) : (s.updTab h f).buf = s.buf := rfl
@[simp] theorem State.updTab_sched (s : State) (h : Half) (f : TableState → TableState) : (s.updTab h f).sched = s.sched := rfl
@[simp] theorem State.updTab_ford (s : State) (h : Half) (f : TableState → TableState) : (s.updTab h f).ford = s.ford := rfl
@[simp] theorem State.updTab_exp (s : State) (h : Half) (f : TableState → TableState) : (s.updTab h f).exp = s.exp := rfl
@[simp] theorem State.updTab_tab (s : State) (h : Half) (f : TableState → TableState) : (s.updTab h f).tab = s.tab.upd h f := rfl
@[simp] theorem State.updTab_assoc (s : State) (h : Half) (f : TableState → TableState) : (s.updTab h f).assoc = s.assoc := rfl
@[simp] theorem State.updTab_dev (s : State) (h : Half) (f : TableState → TableState) : (s.updTab h f).dev = s.dev := rfl
@[simp] theorem State.updTab_pv (s : State) (h : Half) (f : TableState → TableState) : (s.updTab h f).pv = s.pv := rfl
@[simp] theorem State.updTab_ticks (s : State) (h : Half) (f : TableState → TableState) : (s.updTab h f).ticks = s.ticks := rfl
@[simp] theorem State.updTab_fresh (s : State) (h : Half) (f : TableState → TableState) : (s.updTab h f).fresh = s.fresh := rfl
@[simp] theorem State.updTab_waits (s : State) (h : Half) (f : TableState → TableState) : (s.updTab h f).waits = s.waits := rfl
@[simp] theorem State.updTab_pending (s : State) (h : Half) (f : TableState → TableState) : (s.updTab h f).pending = s.pending := rfl

/-! ### updAssoc -/

@[simp] theorem State.updAssoc_csr (s : State) (h : Half) (f : AssocState → AssocState) : (s.updAssoc h f).csr = s.csr := rfl
@[simp] theorem State.updAssoc_staged (s : State) (h : Half) (f : AssocState → AssocState) : (s.updAssoc h f).staged = s.staged := rfl
@[simp] theorem State.updAssoc_units (s : State) (h : Half) (f : AssocState → AssocState) : (s.updAssoc h f).units = s.units := rfl
@[simp] theorem State.updAssoc_commits (s : State) (h : Half) (f : AssocState → AssocState) : (s.updAssoc h f).commits = s.commits := rfl
@[simp] theorem State.updAssoc_hubs (s : State) (h : Half) (f : AssocState → AssocState) : (s.updAssoc h f).hubs = s.hubs := rfl
@[simp] theorem State.updAssoc_time (s : State) (h : Half) (f : AssocState → AssocState) : (s.updAssoc h f).time = s.time := rfl
@[simp] theorem State.updAssoc_ing (s : State) (h : Half) (f : AssocState → AssocState) : (s.updAssoc h f).ing = s.ing := rfl
@[simp] theorem State.updAssoc_conf (s : State) (h : Half) (f : AssocState → AssocState) : (s.updAssoc h f).conf = s.conf := rfl
@[simp] theorem State.updAssoc_tiles (s : State) (h : Half) (f : AssocState → AssocState) : (s.updAssoc h f).tiles = s.tiles := rfl
@[simp] theorem State.updAssoc_cc (s : State) (h : Half) (f : AssocState → AssocState) : (s.updAssoc h f).cc = s.cc := rfl
@[simp] theorem State.updAssoc_slots (s : State) (h : Half) (f : AssocState → AssocState) : (s.updAssoc h f).slots = s.slots := rfl
@[simp] theorem State.updAssoc_locks (s : State) (h : Half) (f : AssocState → AssocState) : (s.updAssoc h f).locks = s.locks := rfl
@[simp] theorem State.updAssoc_hbm (s : State) (h : Half) (f : AssocState → AssocState) : (s.updAssoc h f).hbm = s.hbm := rfl
@[simp] theorem State.updAssoc_buf (s : State) (h : Half) (f : AssocState → AssocState) : (s.updAssoc h f).buf = s.buf := rfl
@[simp] theorem State.updAssoc_sched (s : State) (h : Half) (f : AssocState → AssocState) : (s.updAssoc h f).sched = s.sched := rfl
@[simp] theorem State.updAssoc_ford (s : State) (h : Half) (f : AssocState → AssocState) : (s.updAssoc h f).ford = s.ford := rfl
@[simp] theorem State.updAssoc_exp (s : State) (h : Half) (f : AssocState → AssocState) : (s.updAssoc h f).exp = s.exp := rfl
@[simp] theorem State.updAssoc_tab (s : State) (h : Half) (f : AssocState → AssocState) : (s.updAssoc h f).tab = s.tab := rfl
@[simp] theorem State.updAssoc_assoc (s : State) (h : Half) (f : AssocState → AssocState) : (s.updAssoc h f).assoc = s.assoc.upd h f := rfl
@[simp] theorem State.updAssoc_dev (s : State) (h : Half) (f : AssocState → AssocState) : (s.updAssoc h f).dev = s.dev := rfl
@[simp] theorem State.updAssoc_pv (s : State) (h : Half) (f : AssocState → AssocState) : (s.updAssoc h f).pv = s.pv := rfl
@[simp] theorem State.updAssoc_ticks (s : State) (h : Half) (f : AssocState → AssocState) : (s.updAssoc h f).ticks = s.ticks := rfl
@[simp] theorem State.updAssoc_fresh (s : State) (h : Half) (f : AssocState → AssocState) : (s.updAssoc h f).fresh = s.fresh := rfl
@[simp] theorem State.updAssoc_waits (s : State) (h : Half) (f : AssocState → AssocState) : (s.updAssoc h f).waits = s.waits := rfl
@[simp] theorem State.updAssoc_pending (s : State) (h : Half) (f : AssocState → AssocState) : (s.updAssoc h f).pending = s.pending := rfl

/-! ### updPv -/

@[simp] theorem State.updPv_csr (s : State) (f : PrivetState → PrivetState) : (s.updPv f).csr = s.csr := rfl
@[simp] theorem State.updPv_staged (s : State) (f : PrivetState → PrivetState) : (s.updPv f).staged = s.staged := rfl
@[simp] theorem State.updPv_units (s : State) (f : PrivetState → PrivetState) : (s.updPv f).units = s.units := rfl
@[simp] theorem State.updPv_commits (s : State) (f : PrivetState → PrivetState) : (s.updPv f).commits = s.commits := rfl
@[simp] theorem State.updPv_hubs (s : State) (f : PrivetState → PrivetState) : (s.updPv f).hubs = s.hubs := rfl
@[simp] theorem State.updPv_time (s : State) (f : PrivetState → PrivetState) : (s.updPv f).time = s.time := rfl
@[simp] theorem State.updPv_ing (s : State) (f : PrivetState → PrivetState) : (s.updPv f).ing = s.ing := rfl
@[simp] theorem State.updPv_conf (s : State) (f : PrivetState → PrivetState) : (s.updPv f).conf = s.conf := rfl
@[simp] theorem State.updPv_tiles (s : State) (f : PrivetState → PrivetState) : (s.updPv f).tiles = s.tiles := rfl
@[simp] theorem State.updPv_cc (s : State) (f : PrivetState → PrivetState) : (s.updPv f).cc = s.cc := rfl
@[simp] theorem State.updPv_slots (s : State) (f : PrivetState → PrivetState) : (s.updPv f).slots = s.slots := rfl
@[simp] theorem State.updPv_locks (s : State) (f : PrivetState → PrivetState) : (s.updPv f).locks = s.locks := rfl
@[simp] theorem State.updPv_hbm (s : State) (f : PrivetState → PrivetState) : (s.updPv f).hbm = s.hbm := rfl
@[simp] theorem State.updPv_buf (s : State) (f : PrivetState → PrivetState) : (s.updPv f).buf = s.buf := rfl
@[simp] theorem State.updPv_sched (s : State) (f : PrivetState → PrivetState) : (s.updPv f).sched = s.sched := rfl
@[simp] theorem State.updPv_ford (s : State) (f : PrivetState → PrivetState) : (s.updPv f).ford = s.ford := rfl
@[simp] theorem State.updPv_exp (s : State) (f : PrivetState → PrivetState) : (s.updPv f).exp = s.exp := rfl
@[simp] theorem State.updPv_tab (s : State) (f : PrivetState → PrivetState) : (s.updPv f).tab = s.tab := rfl
@[simp] theorem State.updPv_assoc (s : State) (f : PrivetState → PrivetState) : (s.updPv f).assoc = s.assoc := rfl
@[simp] theorem State.updPv_dev (s : State) (f : PrivetState → PrivetState) : (s.updPv f).dev = s.dev := rfl
@[simp] theorem State.updPv_pv (s : State) (f : PrivetState → PrivetState) : (s.updPv f).pv = f s.pv := rfl
@[simp] theorem State.updPv_ticks (s : State) (f : PrivetState → PrivetState) : (s.updPv f).ticks = s.ticks := rfl
@[simp] theorem State.updPv_fresh (s : State) (f : PrivetState → PrivetState) : (s.updPv f).fresh = s.fresh := rfl
@[simp] theorem State.updPv_waits (s : State) (f : PrivetState → PrivetState) : (s.updPv f).waits = s.waits := rfl
@[simp] theorem State.updPv_pending (s : State) (f : PrivetState → PrivetState) : (s.updPv f).pending = s.pending := rfl

/-! ### used -/

@[simp] theorem State.used_csr (s : State) : (s.used).csr = s.csr := rfl
@[simp] theorem State.used_staged (s : State) : (s.used).staged = s.staged := rfl
@[simp] theorem State.used_units (s : State) : (s.used).units = s.units := rfl
@[simp] theorem State.used_commits (s : State) : (s.used).commits = s.commits := rfl
@[simp] theorem State.used_hubs (s : State) : (s.used).hubs = s.hubs := rfl
@[simp] theorem State.used_time (s : State) : (s.used).time = s.time := rfl
@[simp] theorem State.used_ing (s : State) : (s.used).ing = s.ing := rfl
@[simp] theorem State.used_conf (s : State) : (s.used).conf = s.conf := rfl
@[simp] theorem State.used_tiles (s : State) : (s.used).tiles = s.tiles := rfl
@[simp] theorem State.used_cc (s : State) : (s.used).cc = s.cc := rfl
@[simp] theorem State.used_slots (s : State) : (s.used).slots = s.slots := rfl
@[simp] theorem State.used_locks (s : State) : (s.used).locks = s.locks := rfl
@[simp] theorem State.used_hbm (s : State) : (s.used).hbm = s.hbm := rfl
@[simp] theorem State.used_buf (s : State) : (s.used).buf = s.buf := rfl
@[simp] theorem State.used_sched (s : State) : (s.used).sched = s.sched := rfl
@[simp] theorem State.used_ford (s : State) : (s.used).ford = s.ford := rfl
@[simp] theorem State.used_exp (s : State) : (s.used).exp = s.exp := rfl
@[simp] theorem State.used_tab (s : State) : (s.used).tab = s.tab := rfl
@[simp] theorem State.used_assoc (s : State) : (s.used).assoc = s.assoc := rfl
@[simp] theorem State.used_dev (s : State) : (s.used).dev = s.dev := rfl
@[simp] theorem State.used_pv (s : State) : (s.used).pv = s.pv := rfl
@[simp] theorem State.used_ticks (s : State) : (s.used).ticks = s.ticks := rfl
@[simp] theorem State.used_fresh (s : State) : (s.used).fresh = s.fresh + 1 := rfl
@[simp] theorem State.used_waits (s : State) : (s.used).waits = s.waits := rfl
@[simp] theorem State.used_pending (s : State) : (s.used).pending = s.pending := rfl

/-! ### updThread -/

@[simp] theorem State.updThread_csr (s : State) (th : ThreadRef) (f : Thread → Thread) : (s.updThread th f).csr = s.csr := by cases th <;> rfl
@[simp] theorem State.updThread_staged (s : State) (th : ThreadRef) (f : Thread → Thread) : (s.updThread th f).staged = s.staged := by cases th <;> rfl
@[simp] theorem State.updThread_units (s : State) (th : ThreadRef) (f : Thread → Thread) : (s.updThread th f).units = s.units := by cases th <;> rfl
@[simp] theorem State.updThread_commits (s : State) (th : ThreadRef) (f : Thread → Thread) : (s.updThread th f).commits = s.commits := by cases th <;> rfl
@[simp] theorem State.updThread_hubs (s : State) (th : ThreadRef) (f : Thread → Thread) : (s.updThread th f).hubs = s.hubs := by cases th <;> rfl
@[simp] theorem State.updThread_time (s : State) (th : ThreadRef) (f : Thread → Thread) : (s.updThread th f).time = s.time := by cases th <;> rfl
@[simp] theorem State.updThread_ing (s : State) (th : ThreadRef) (f : Thread → Thread) : (s.updThread th f).ing = s.ing := by cases th <;> rfl
@[simp] theorem State.updThread_conf (s : State) (th : ThreadRef) (f : Thread → Thread) : (s.updThread th f).conf = s.conf := by cases th <;> rfl
@[simp] theorem State.updThread_slots (s : State) (th : ThreadRef) (f : Thread → Thread) : (s.updThread th f).slots = s.slots := by cases th <;> rfl
@[simp] theorem State.updThread_locks (s : State) (th : ThreadRef) (f : Thread → Thread) : (s.updThread th f).locks = s.locks := by cases th <;> rfl
@[simp] theorem State.updThread_hbm (s : State) (th : ThreadRef) (f : Thread → Thread) : (s.updThread th f).hbm = s.hbm := by cases th <;> rfl
@[simp] theorem State.updThread_buf (s : State) (th : ThreadRef) (f : Thread → Thread) : (s.updThread th f).buf = s.buf := by cases th <;> rfl
@[simp] theorem State.updThread_sched (s : State) (th : ThreadRef) (f : Thread → Thread) : (s.updThread th f).sched = s.sched := by cases th <;> rfl
@[simp] theorem State.updThread_ford (s : State) (th : ThreadRef) (f : Thread → Thread) : (s.updThread th f).ford = s.ford := by cases th <;> rfl
@[simp] theorem State.updThread_exp (s : State) (th : ThreadRef) (f : Thread → Thread) : (s.updThread th f).exp = s.exp := by cases th <;> rfl
@[simp] theorem State.updThread_tab (s : State) (th : ThreadRef) (f : Thread → Thread) : (s.updThread th f).tab = s.tab := by cases th <;> rfl
@[simp] theorem State.updThread_assoc (s : State) (th : ThreadRef) (f : Thread → Thread) : (s.updThread th f).assoc = s.assoc := by cases th <;> rfl
@[simp] theorem State.updThread_dev (s : State) (th : ThreadRef) (f : Thread → Thread) : (s.updThread th f).dev = s.dev := by cases th <;> rfl
@[simp] theorem State.updThread_pv (s : State) (th : ThreadRef) (f : Thread → Thread) : (s.updThread th f).pv = s.pv := by cases th <;> rfl
@[simp] theorem State.updThread_ticks (s : State) (th : ThreadRef) (f : Thread → Thread) : (s.updThread th f).ticks = s.ticks := by cases th <;> rfl
@[simp] theorem State.updThread_fresh (s : State) (th : ThreadRef) (f : Thread → Thread) : (s.updThread th f).fresh = s.fresh := by cases th <;> rfl
@[simp] theorem State.updThread_waits (s : State) (th : ThreadRef) (f : Thread → Thread) : (s.updThread th f).waits = s.waits := by cases th <;> rfl
@[simp] theorem State.updThread_pending (s : State) (th : ThreadRef) (f : Thread → Thread) : (s.updThread th f).pending = s.pending := by cases th <;> rfl
@[simp] theorem State.updThread_cc_pk (s : State) (h : Half) (t : TileIx) (n : Fin 128) (f : Thread → Thread) :
    (s.updThread (.pk h t n) f).cc = s.cc := rfl
@[simp] theorem State.updThread_tiles_cc (s : State) (h : Half) (n : Fin 32) (f : Thread → Thread) :
    (s.updThread (.cc h n) f).tiles = s.tiles := rfl

end Sys2Proof.Machine
end

