-- ==== Sys2Proof/Laws/Reg.lean ====
section
/-! SUPPORT. The laws of registers and of their fields: what a register or a field reads after a write of it or of another. -/

namespace Sys2Proof

/-! ### Fields -/

theorem fld_lt (v : DWord) (lsb len : Nat) : fld v lsb len < 2 ^ len := Nat.mod_lt _ (Nat.two_pow_pos len)

theorem getLsbD_setFld (v : DWord) (lsb len x i : Nat) (hi : i < 64) :
    (setFld v lsb len x).getLsbD i = if lsb ≤ i ∧ i < lsb + len then x.testBit (i - lsb) else v.getLsbD i := by
  have hm : ((2 ^ len - 1) <<< lsb).testBit i = decide (lsb ≤ i ∧ i < lsb + len) := by
    rw [Nat.testBit_shiftLeft]
    by_cases h : lsb ≤ i
    · simp only [h, decide_true, Bool.true_and, true_and, Nat.testBit_two_pow_sub_one]
      congr 1; simp only [eq_iff_iff]; omega
    · simp [h]
  have hx : (x <<< lsb).testBit i = (decide (lsb ≤ i) && x.testBit (i - lsb)) := by rw [Nat.testBit_shiftLeft]
  simp only [setFld, BitVec.getLsbD_or, BitVec.getLsbD_and, BitVec.getLsbD_not, BitVec.getLsbD_ofNat, hi, decide_true, Bool.true_and, hm, hx]
  by_cases h1 : lsb ≤ i
  · by_cases h2 : i < lsb + len <;> simp [h1, h2]
  · simp [h1]

theorem testBit_fld (v : DWord) (lsb len i : Nat) : (fld v lsb len).testBit i = (decide (i < len) && v.getLsbD (lsb + i)) := by
  simp only [fld, bits, Nat.testBit_mod_two_pow, Nat.testBit_shiftRight, BitVec.testBit_toNat]

/-- A field reads back what was written to it. -/
theorem fld_setFld_same (v : DWord) (lsb len x : Nat) (h : lsb + len ≤ 64) : fld (setFld v lsb len x) lsb len = x % 2 ^ len := by
  apply Nat.eq_of_testBit_eq
  intro i
  rw [testBit_fld, Nat.testBit_mod_two_pow]
  by_cases hi : i < len
  · rw [getLsbD_setFld _ _ _ _ _ (by omega)]; simp [hi]
  · simp [hi]

/-- A field keeps its value when a field that shares no bit with it is written. -/
theorem fld_setFld_ne (v : DWord) (lsb len x l n : Nat) (h : l + n ≤ lsb ∨ lsb + len ≤ l) :
    fld (setFld v lsb len x) l n = fld v l n := by
  apply Nat.eq_of_testBit_eq
  intro i
  rw [testBit_fld, testBit_fld]
  by_cases hi : i < n
  · by_cases h64 : l + i < 64
    · rw [getLsbD_setFld _ _ _ _ _ h64, if_neg (by omega)]
    · rw [BitVec.getLsbD_of_ge _ _ (by omega), BitVec.getLsbD_of_ge _ _ (by omega)]
  · simp [hi]

theorem bit_setFld_ne (v : DWord) (lsb len x i : Nat) (h : i < lsb ∨ lsb + len ≤ i) : bit (setFld v lsb len x) i = bit v i := by
  unfold bit
  by_cases h64 : i < 64
  · rw [getLsbD_setFld _ _ _ _ _ h64, if_neg (by omega)]
  · rw [BitVec.getLsbD_of_ge _ _ (by omega), BitVec.getLsbD_of_ge _ _ (by omega)]

theorem bit_setFld_same (v : DWord) (i : Nat) (b : Bool) (h : i < 64) : bit (setFld v i 1 (b2n b)) i = b := by
  unfold bit
  rw [getLsbD_setFld _ _ _ _ _ h, if_pos (by omega)]
  cases b <;> simp [b2n]

namespace Machine

/-! ### Registers -/

theorem State.reg_setReg_same (s : State) (b : Blk) (off : Nat) (v : DWord) (h : Tbl.wf s.csr = true) : (s.setReg b off v).reg b off = v :=
  tget_tset_same _ s.csr _ v h

theorem State.reg_setReg_ne (s : State) (b c : Blk) (off o : Nat) (v : DWord) (h : Tbl.wf s.csr = true) (hne : c.base + o ≠ b.base + off) :
    (s.setReg b off v).reg c o = s.reg c o :=
  tget_tset_ne _ _ s.csr _ _ v h hne

theorem State.rfld_setRfld_same (s : State) (b : Blk) (off lsb len x : Nat) (h : Tbl.wf s.csr = true) (hl : lsb + len ≤ 64) :
    (s.setRfld b off lsb len x).rfld b off lsb len = x % 2 ^ len := by
  unfold State.rfld State.setRfld
  rw [State.reg_setReg_same s b off _ h, fld_setFld_same _ _ _ _ hl]

theorem State.rfld_setRfld_ne (s : State) (b : Blk) (off lsb len x l n : Nat) (h : Tbl.wf s.csr = true) (hd : l + n ≤ lsb ∨ lsb + len ≤ l) :
    (s.setRfld b off lsb len x).rfld b off l n = s.rfld b off l n := by
  unfold State.rfld State.setRfld
  rw [State.reg_setReg_same s b off _ h, fld_setFld_ne _ _ _ _ _ _ hd]

/-- A counter counts. -/
theorem State.reg_bump_same (s : State) (b : Blk) (off : Nat) (h : Tbl.wf s.csr = true) : (s.bump b off).reg b off = s.reg b off + 1 :=
  State.reg_setReg_same s b off _ h

@[simp] theorem State.setReg_wf (s : State) (b : Blk) (off : Nat) (v : DWord) (h : Tbl.wf s.csr = true) :
    Tbl.wf (s.setReg b off v).csr = true := tset_wf _ _ _ _ h

@[simp] theorem State.setRfld_wf (s : State) (b : Blk) (off lsb len x : Nat) (h : Tbl.wf s.csr = true) :
    Tbl.wf (s.setRfld b off lsb len x).csr = true := tset_wf _ _ _ _ h

@[simp] theorem State.bump_wf (s : State) (b : Blk) (off : Nat) (h : Tbl.wf s.csr = true) : Tbl.wf (s.bump b off).csr = true :=
  tset_wf _ _ _ _ h

@[simp] theorem State.bumpBy_wf (s : State) (b : Blk) (off n : Nat) (h : Tbl.wf s.csr = true) : Tbl.wf (s.bumpBy b off n).csr = true :=
  tset_wf _ _ _ _ h

/-! ### The dynamic part of a unit, a tile, a task and a thread -/

theorem State.unit_updUnit_same (s : State) (u : UnitId) (f : UnitDyn → UnitDyn) (h : Tbl.wf s.units = true) :
    (s.updUnit u f).unit u = f (s.unit u) := tget_tmod_same _ s.units _ f h

theorem State.unit_updUnit_ne (s : State) (u v : UnitId) (f : UnitDyn → UnitDyn) (h : Tbl.wf s.units = true) (hne : unitBase v ≠ unitBase u) :
    (s.updUnit u f).unit v = s.unit v := tget_tmod_ne _ s.units _ _ f h hne

theorem State.tile_updTile_same (s : State) (h : Half) (t : TileIx) (f : Tile → Tile) (hw : Tbl.wf (s.tiles.get h) = true) :
    (s.updTile h t f).tile h t = f (s.tile h t) := by
  unfold State.updTile State.tile; simp only [pair_get_upd_same]; exact tget_tmod_same _ _ _ f hw

end Machine

end Sys2Proof
end

