-- ==== Sys2Proof/Laws/Flako.lean ====
section
/-! SUPPORT. How one instruction of a thread comes out, outcome by outcome, and what a thread reads after it has been changed. -/

namespace Sys2Proof.Machine

/-! ### The gate of a request that waits, and of the checkers -/

/-- With no checker armed a command's state stands as it is. -/
@[simp] theorem State.checked_unarmed {s : State} (h : s.armed = []) (s1 : State) : s.checked s1 = s1 := by unfold State.checked; rw [h]; rfl

/-- A command of which no request has to wait takes place. -/
theorem State.orWait_done {s : State} {f : State → State} (h : s.armed = []) (hw : (f s).waits = s.waits) : s.orWait f = f s := by
  unfold State.orWait; rw [if_pos hw, State.checked_unarmed h]

/-- A command of which a request has to wait leaves the state as it is. -/
theorem State.orWait_waits {s : State} {f : State → State} (hw : (f s).waits ≠ s.waits) : s.orWait f = s := by unfold State.orWait; rw [if_neg hw]

@[simp] theorem State.setPc_waits (s : State) (th : ThreadRef) (a : Nat) : (s.setPc th a).waits = s.waits := State.updThread_waits _ _ _
@[simp] theorem State.putG_waits (s : State) (th : ThreadRef) (r v : Nat) : (s.putG th r v).waits = s.waits := State.updThread_waits _ _ _
@[simp] theorem State.stick_waits (s : State) (th : ThreadRef) (f : Word) : (s.stick th f).waits = s.waits := State.updThread_waits _ _ _
@[simp] theorem State.fallThrough_waits (s : State) (c : Fk) : (s.fallThrough c).waits = s.waits := State.setPc_waits _ _ _
@[simp] theorem State.bumpCore_waits (s : State) (th : ThreadRef) (o : Nat) : (s.bumpCore th o).waits = s.waits := by cases th <;> rfl
@[simp] theorem State.grant_waits (s : State) (th : ThreadRef) : (s.grant th).waits = s.waits := by
  have h : (s.wakeCore th).waits = s.waits := by unfold State.wakeCore; split <;> rfl
  unfold State.grant; dsimp only; split <;> simp [h]
@[simp] theorem State.atIssue_waits (s : State) (th : ThreadRef) : (s.atIssue th).waits = s.waits := State.grant_waits s th

/-! ### Outcomes -/

/-- An instruction that issues, and of which no access has to wait, ends as `fkFinish` says of its outcome. -/
theorem fkRun_issues {s s1 : State} {op : FkOp} {th : ThreadRef} {w : Nat} (body : State → Fk → FkRes) (h : Issues s op th s1 w)
    (hb : (body (s1.atIssue th) (callOf s s1 th w)).issued = true)
    (hw : ((s1.atIssue th).fkFinish (callOf s s1 th w) (body (s1.atIssue th) (callOf s s1 th w))).waits = s.waits) :
    s.fkRun op th body = (s1.atIssue th).fkFinish (callOf s s1 th w) (body (s1.atIssue th) (callOf s s1 th w)) := by
  obtain ⟨h1, h2, h3, h4, h5⟩ := h
  have e : s.fkStep op th body = (s1.atIssue th).fkFinish (callOf s s1 th w) (body (s1.atIssue th) (callOf s s1 th w)) := by
    unfold State.fkStep
    simp only [h1, if_true, h2, h3]
    exact if_pos hb
  unfold State.fkRun
  rw [State.orWait_done h5 (by rw [e]; exact hw), e]

theorem fkRun_next {s s1 s3 : State} {op : FkOp} {th : ThreadRef} {w : Nat} {body : State → Fk → FkRes} (h : Issues s op th s1 w)
    (hb : body (s1.atIssue th) (callOf s s1 th w) = .next s3) (hr : pcInRange th (callOf s s1 th w).nextPc = true) (hw : s3.waits = s.waits) :
    s.fkRun op th body = s3.fallThrough (callOf s s1 th w) := by
  have e : (s1.atIssue th).fkFinish (callOf s s1 th w) (.next s3) = s3.fallThrough (callOf s s1 th w) := if_pos hr
  rw [fkRun_issues body h (by rw [hb]; rfl) (by rw [hb, e]; simpa using hw), hb, e]

theorem fkRun_jump {s s1 s3 : State} {op : FkOp} {th : ThreadRef} {w : Nat} {body : State → Fk → FkRes} {t : Int} (h : Issues s op th s1 w)
    (hb : body (s1.atIssue th) (callOf s s1 th w) = .jump s3 t) (hr : pcInRange th (pcWrap th t) = true) (hw : s3.waits = s.waits) :
    s.fkRun op th body = s3.setPc th (pcWrap th t) := by
  have e : (s1.atIssue th).fkFinish (callOf s s1 th w) (.jump s3 t) = s3.setPc th (pcWrap th t) := if_pos hr
  rw [fkRun_issues body h (by rw [hb]; rfl) (by rw [hb, e]; simpa using hw), hb, e]

theorem fkRun_branch {s s1 s3 : State} {op : FkOp} {th : ThreadRef} {w : Nat} {body : State → Fk → FkRes} {t : Int} (h : Issues s op th s1 w)
    (hb : body (s1.atIssue th) (callOf s s1 th w) = .branch s3 t) (hr : pcInRange th (pcWrap th t) = true) (hw : s3.waits = s.waits) :
    s.fkRun op th body = s3.setPc th (pcWrap th t) := by
  have e : (s1.atIssue th).fkFinish (callOf s s1 th w) (.branch s3 t) = s3.setPc th (pcWrap th t) := if_pos hr
  rw [fkRun_issues body h (by rw [hb]; rfl) (by rw [hb, e]; simpa using hw), hb, e]

theorem fkRun_wait {s s1 s3 : State} {op : FkOp} {th : ThreadRef} {w : Nat} {body : State → Fk → FkRes} (h : Issues s op th s1 w)
    (hb : body (s1.atIssue th) (callOf s s1 th w) = .wait s3) (hr : pcInRange th (callOf s s1 th w).nextPc = true) (hw : s3.waits = s.waits) :
    s.fkRun op th body = s3 := by
  have e : (s1.atIssue th).fkFinish (callOf s s1 th w) (.wait s3) = s3 := if_pos hr
  rw [fkRun_issues body h (by rw [hb]; rfl) (by rw [hb, e]; exact hw), hb, e]

theorem fkRun_ended {s s1 s3 : State} {op : FkOp} {th : ThreadRef} {w : Nat} {body : State → Fk → FkRes} (h : Issues s op th s1 w)
    (hb : body (s1.atIssue th) (callOf s s1 th w) = .ended s3) (hw : s3.waits = s.waits) : s.fkRun op th body = s3 := by
  rw [fkRun_issues body h (by rw [hb]; rfl) (by rw [hb]; exact hw), hb]
  rfl

theorem fkRun_after {s s1 s3 : State} {op : FkOp} {th : ThreadRef} {w : Nat} {body : State → Fk → FkRes} {c v : Nat} (h : Issues s op th s1 w)
    (hb : body (s1.atIssue th) (callOf s s1 th w) = .after s3 c v)
    (hw : (s3.takeTrap th c (BitVec.ofNat 64 v) (callOf s s1 th w).nextPc (callOf s s1 th w).pc).waits = s.waits) :
    s.fkRun op th body = s3.takeTrap th c (BitVec.ofNat 64 v) (callOf s s1 th w).nextPc (callOf s s1 th w).pc := by
  rw [fkRun_issues body h (by rw [hb]; rfl) (by rw [hb]; exact hw), hb]
  rfl

theorem fkRun_trap {s s1 s3 : State} {op : FkOp} {th : ThreadRef} {w : Nat} {body : State → Fk → FkRes} {c v : Nat} (h : Issues s op th s1 w)
    (hb : body (s1.atIssue th) (callOf s s1 th w) = .fail s3 (.trap c v))
    (hw : (s3.takeTrap th c (BitVec.ofNat 64 v) (callOf s s1 th w).pc (callOf s s1 th w).pc).waits = s.waits) :
    s.fkRun op th body = s3.takeTrap th c (BitVec.ofNat 64 v) (callOf s s1 th w).pc (callOf s s1 th w).pc := by
  rw [fkRun_issues body h (by rw [hb]; rfl) (by rw [hb]; exact hw), hb]
  rfl

/-- An instruction that waits to issue leaves the thread where it is. -/
theorem fkRun_stall {s s1 s3 : State} {op : FkOp} {th : ThreadRef} {w : Nat} {body : State → Fk → FkRes} (h : Issues s op th s1 w)
    (hb : body (s1.atIssue th) (callOf s s1 th w) = .fail s3 .stall) : s.fkRun op th body = s1 := by
  obtain ⟨h1, h2, h3, h4, h5⟩ := h
  have e : s.fkStep op th body = s1 := by
    unfold State.fkStep
    simp only [h1, if_true, h2, h3]
    exact if_neg (by change ¬ (body (s1.atIssue th) (callOf s s1 th w)).issued = true; rw [hb]; simp [FkRes.issued])
  unfold State.fkRun
  rw [State.orWait_done h5 (by rw [e]; exact h4), e]

/-- A thread that cannot issue leaves the state as it is. -/
theorem fkRun_idle {s : State} {op : FkOp} {th : ThreadRef} {body : State → Fk → FkRes} (h : s.canIssue th = false) (hu : s.armed = []) :
    s.fkRun op th body = s := by
  have e : s.fkStep op th body = s := by unfold State.fkStep; simp [h]
  unfold State.fkRun
  rw [State.orWait_done hu (by rw [e]), e]

/-! ### Threads -/

theorem State.threadWf_tables {s : State} {th : ThreadRef} (h : s.threadWf th = true) :
    (match th with
     | .pk a t _ => Tbl.wf (s.tiles.get a) = true ∧ Tbl.wf (s.tile a t).threads = true
     | .cc a _ => Tbl.wf (s.cc.get a).threads = true) := by
  cases th <;> simp only [State.threadWf, Bool.and_eq_true] at h <;> tauto

theorem State.threadWf_g {s : State} {th : ThreadRef} (h : s.threadWf th = true) : Tbl.wf (s.thread th).g = true := by
  simp only [State.threadWf, Bool.and_eq_true] at h; exact h.1.2

theorem State.threadWf_a {s : State} {th : ThreadRef} (h : s.threadWf th = true) : Tbl.wf (s.thread th).a = true := by
  simp only [State.threadWf, Bool.and_eq_true] at h; exact h.2

/-- A thread reads as it was changed. -/
theorem State.thread_updThread_same (s : State) (th : ThreadRef) (f : Thread → Thread) (h : s.threadWf th = true) :
    (s.updThread th f).thread th = f (s.thread th) := by
  have hw := State.threadWf_tables h
  cases th with
  | pk a t n =>
    simp only [State.updThread, State.thread, State.tile_updTile_same _ _ _ _ hw.1]
    exact tget_tmod_same _ _ _ f hw.2
  | cc a n =>
    simp only [State.updThread, State.thread, pair_get_upd_same]
    exact tget_tmod_same _ _ _ f hw

theorem State.threadWf_updThread (s : State) (th : ThreadRef) (f : Thread → Thread) (h : s.threadWf th = true)
    (hg : Tbl.wf (f (s.thread th)).g = true) (ha : Tbl.wf (f (s.thread th)).a = true) : (s.updThread th f).threadWf th = true := by
  have hw := State.threadWf_tables h
  simp only [State.threadWf, State.thread_updThread_same s th f h, hg, ha, Bool.and_true]
  cases th with
  | pk a t n =>
    simp only [State.updThread, State.tile_updTile_same _ _ _ _ hw.1, Bool.and_eq_true]
    refine ⟨?_, tmod_wf _ _ _ _ hw.2⟩
    simp only [State.updTile, pair_get_upd_same]; exact tmod_wf _ _ _ _ hw.1
  | cc a n =>
    simp only [State.updThread, pair_get_upd_same]; exact tmod_wf _ _ _ _ hw

theorem Thread.setG_getG_same (x : Thread) (r : Nat) (v : DWord) (h : Tbl.wf x.g = true) :
    (x.setG r v).getG r = if r = 0 then 0 else v := by
  unfold Thread.setG Thread.getG
  by_cases hr : r = 0
  · simp [hr]
  · simp only [hr, if_false]; exact tget_tset_same _ _ _ _ h

theorem Thread.setG_getG_ne (x : Thread) (r k : Nat) (v : DWord) (h : Tbl.wf x.g = true) (hk : k ≠ r) : (x.setG r v).getG k = x.getG k := by
  unfold Thread.setG Thread.getG
  by_cases hr : r = 0
  · simp [hr]
  · by_cases h0 : k = 0
    · simp [h0]
    · simp only [hr, h0, if_false]; exact tget_tset_ne _ _ _ _ _ _ h hk

theorem Thread.setG_wf (x : Thread) (r : Nat) (v : DWord) (h : Tbl.wf x.g = true) : Tbl.wf (x.setG r v).g = true := by
  unfold Thread.setG; split
  · exact h
  · exact tset_wf _ _ _ _ h

@[simp] theorem State.bumpCore_thread (s : State) (th u : ThreadRef) (o : Nat) : (s.bumpCore th o).thread u = s.thread u := by
  cases th <;> cases u <;> rfl

@[simp] theorem State.bumpCore_threadWf (s : State) (th u : ThreadRef) (o : Nat) : (s.bumpCore th o).threadWf u = s.threadWf u := by
  cases th <;> cases u <;> rfl

end Sys2Proof.Machine
end

