-- ==== Sys2Proof/Laws/Memory.lean ====
section
/-! SUPPORT. Every operation on a memory keeps its canonical form: stores, the erasing of flash, the arrays and the write queues of HBM. -/

namespace Sys2Proof.Machine

/-! ### A memory -/

theorem memory_wf_iff (d : Byte) (m : Tbl Byte) : Memory.wf d m = true ↔ Tbl.wf m = true ∧ Tbl.tight d m := by
  simp [Memory.wf, Tbl.tight]

@[simp] theorem memory_wf_nil (d : Byte) : Memory.wf d [] = true := rfl

/-- Writing a byte keeps the form, whatever is written. -/
theorem memory_wf_tset {d : Byte} {m : Tbl Byte} (k : Nat) (v : Byte) (h : Memory.wf d m = true) : Memory.wf d (tset d m k v) = true := by
  rw [memory_wf_iff] at *
  exact ⟨tset_wf d m k v h.1, tset_tight d m k v h.2⟩

/-- Writing bytes one after another keeps the form. -/
theorem memory_wf_foldl {d : Byte} {α : Type} (l : List α) (k : α → Nat) (v : α → Byte) {m : Tbl Byte} (h : Memory.wf d m = true) :
    Memory.wf d (l.foldl (fun m x => tset d m (k x) (v x)) m) = true := by
  induction l generalizing m with
  | nil => exact h
  | cons x r ih => exact ih (memory_wf_tset _ _ h)

/-- A store into RAM, a task store, a program bank or HBM keeps the form. -/
theorem memory_wf_tstore {m : Tbl Byte} (a : Nat) (l : List Byte) (h : Memory.wf 0 m = true) : Memory.wf 0 (tstore m a l) = true := by
  induction l generalizing m a with
  | nil => exact h
  | cons b r ih => exact ih _ (memory_wf_tset _ _ h)

/-- Programming flash keeps the form. -/
theorem memory_wf_flashStore {m : Tbl Byte} (a : Nat) (l : List Byte) (h : Memory.wf 0xFF m = true) : Memory.wf 0xFF (flashStore m a l) = true := by
  induction l generalizing m a with
  | nil => exact h
  | cons b r ih => exact ih _ (memory_wf_tset _ _ h)

/-- Dropping bytes keeps the form: they read as an unlisted byte again. -/
theorem memory_wf_filter {d : Byte} {m : Tbl Byte} (p : Nat × Byte → Bool) (h : Memory.wf d m = true) : Memory.wf d (m.filter p) = true := by
  rw [memory_wf_iff] at *
  refine ⟨?_, fun e he => h.2 e (List.mem_filter.mp he).1⟩
  obtain ⟨h, -⟩ := h
  induction m with
  | nil => rfl
  | cons e r ih =>
    obtain ⟨ha, hr⟩ := (tbl_wf_cons e r).mp h
    rw [List.filter_cons]
    split
    · exact (tbl_wf_cons e _).mpr ⟨fun x hx => ha x (List.mem_filter.mp hx).1, ih hr⟩
    · exact ih hr

/-! ### A tile -/

theorem Tile.memoryWf_iff (x : Tile) : x.memoryWf = true ↔
    Memory.wf 0 x.ram = true ∧ Memory.wf 0 x.store = true ∧ Memory.wf 0 x.bank0 = true ∧ Memory.wf 0 x.bank1 = true := by
  simp [Tile.memoryWf, and_assoc]

/-- A store of a thread or of an engine. -/
theorem Tile.put_memoryWf {x : Tile} (l : Loc) (bs : List Byte) (h : x.memoryWf = true) : (x.put l bs).memoryWf = true := by
  rw [Tile.memoryWf_iff] at *
  cases l with
  | ram a => exact ⟨memory_wf_tstore a bs h.1, h.2⟩
  | store a => exact ⟨h.1, memory_wf_tstore a bs h.2.1, h.2.2⟩

/-- The load of a program bank. -/
theorem Tile.loadBank_memoryWf {x : Tile} (b : Nat) (bs : List Byte) (h : x.memoryWf = true) : (x.loadBank b bs).memoryWf = true := by
  unfold Tile.loadBank
  rw [Tile.memoryWf_iff] at *
  by_cases hb : b = 0
  · rw [if_pos hb]; exact ⟨h.1, h.2.1, memory_wf_tstore 0 bs h.2.2.1, h.2.2.2⟩
  · rw [if_neg hb]; exact ⟨h.1, h.2.1, h.2.2.1, memory_wf_tstore 0 bs h.2.2.2⟩

/-! ### HBM -/

theorem HbmState.wf_iff (x : HbmState) : x.wf = true ↔
    Memory.wf 0 x.mem = true ∧ Tbl.wf x.wq = true ∧ ∀ q ∈ x.wq, ∀ e ∈ q.2, e.wf = true := by
  simp [HbmState.wf, and_assoc]

/-- The entries of a queue of a well-formed HBM are well formed. -/
theorem HbmState.wf_queue {x : HbmState} (h : x.wf = true) (p : Nat) : ∀ e ∈ tget [] x.wq p, e.wf = true := by
  obtain ⟨-, -, hq⟩ := (HbmState.wf_iff x).mp h
  have find : ∀ (t : Tbl (List WqEntry)), (∀ q ∈ t, ∀ e ∈ q.2, e.wf = true) → ∀ e ∈ tget [] t p, e.wf = true := by
    intro t ht
    induction t with
    | nil => simp
    | cons y r ih =>
      obtain ⟨j, w⟩ := y
      have hr := ih (fun q hq => ht q (List.mem_cons_of_mem _ hq))
      by_cases h1 : p < j
      · simp [tget, tget?, h1]
      · by_cases h2 : p = j
        · subst h2; simpa [tget, tget?] using ht (p, w) (by simp)
        · simpa [tget, tget?, h1, h2] using hr
  exact find x.wq hq

/-- A queued write that reaches the array. -/
theorem HbmState.toArray_wf {x : HbmState} (e : WqEntry) (h : x.wf = true) : (x.toArray e).wf = true := by
  unfold HbmState.toArray
  split
  · exact h
  · rw [HbmState.wf_iff] at *
    exact ⟨memory_wf_foldl e.bytes (fun b => e.gran * 32 + b.1) (fun b => b.2) h.1, h.2⟩

/-- A queue of well-formed entries in place of another. -/
theorem HbmState.setWq_wf {x : HbmState} (p : Nat) (q : List WqEntry) (h : x.wf = true) (hq : ∀ e ∈ q, e.wf = true) : (x.setWq p q).wf = true := by
  rw [HbmState.wf_iff] at *
  refine ⟨h.1, tset_wf [] x.wq p q h.2.1, fun y hy => ?_⟩
  simp only [HbmState.setWq, tset] at hy
  split at hy
  · exact h.2.2 y (mem_tdel _ _ _ hy)
  · rcases mem_tput _ _ _ _ hy with rfl | hy
    · exact hq
    · exact h.2.2 y hy

/-- The oldest queued write of a pseudo-channel reaches the array. -/
theorem HbmState.drainOne_wf {x : HbmState} (p : Nat) (h : x.wf = true) : (x.drainOne p).wf = true := by
  unfold HbmState.drainOne
  have hq := HbmState.wf_queue h p
  split
  · exact h
  · next e r he => exact HbmState.setWq_wf p r (HbmState.toArray_wf e h) fun f hf => hq f (by rw [he]; exact List.mem_cons_of_mem _ hf)

/-- The queued write of a granule reaches the array. -/
theorem HbmState.drainGran_wf {x : HbmState} (p g : Nat) (h : x.wf = true) : (x.drainGran p g).wf = true := by
  unfold HbmState.drainGran
  have hq := HbmState.wf_queue h p
  split
  · exact h
  · next e he => exact HbmState.setWq_wf p _ (HbmState.toArray_wf e h) fun f hf => hq f (List.mem_filter.mp hf).1

/-- The entry whose turn it is reaches the array. -/
theorem HbmState.drainNext_wf {x : HbmState} (p now : Nat) (h : x.wf = true) : (x.drainNext p now).wf = true := by
  unfold HbmState.drainNext
  split
  · exact HbmState.drainGran_wf p _ h
  · exact h

/-- The entries accepted 2 µs ago reach the array. -/
theorem HbmState.drainOld_wf {x : HbmState} (p now : Nat) (h : x.wf = true) : (x.drainOld p now).wf = true := by
  unfold HbmState.drainOld
  generalize (tget [] x.wq p).filter _ = l
  induction l generalizing x with
  | nil => exact h
  | cons e r ih => exact ih (HbmState.drainGran_wf p e.gran h)

/-- The bytes that merge into a queued write keep its form. -/
theorem wq_merge_wf (bs : Tbl Byte) (hb : ∀ b ∈ bs, b.1 < 32) {t : Tbl Byte} (h : Tbl.wf t = true) (ht : ∀ b ∈ t, b.1 < 32) :
    Tbl.wf (bs.foldl (fun t b => tput t b.1 b.2) t) = true ∧ ∀ b ∈ bs.foldl (fun t b => tput t b.1 b.2) t, b.1 < 32 := by
  induction bs generalizing t with
  | nil => exact ⟨h, ht⟩
  | cons x r ih =>
    refine ih (fun b hb' => hb b (List.mem_cons_of_mem _ hb')) (tput_wf t x.1 x.2 h) fun b hb' => ?_
    rcases mem_tput t x.1 x.2 b hb' with rfl | hb'
    · exact hb x (by simp)
    · exact ht b hb'

/-- A write enters its queue, merged into the granule's entry where there is one. -/
theorem HbmState.enqueue_wf {x : HbmState} (r : HbmReq) (now g : Nat) (bs : Tbl Byte) (h : x.wf = true) (hb : Tbl.wf bs = true) (hk : ∀ b ∈ bs, b.1 < 32) :
    (x.enqueue r now g bs).wf = true := by
  unfold HbmState.enqueue
  simp only
  split
  · refine HbmState.setWq_wf _ _ h fun e he => ?_
    obtain ⟨f, hf, rfl⟩ := List.mem_map.mp he
    have hfw := HbmState.wf_queue h _ f hf
    split
    · simp only [WqEntry.wf, Bool.and_eq_true, List.all_eq_true, decide_eq_true_eq] at hfw ⊢
      exact wq_merge_wf bs hk hfw.1 hfw.2
    · exact hfw
  · have hy : ∀ y : HbmState, y.wf = true → ∀ e ∈ tget [] y.wq (hbmPc (g * 32)) ++ [({ gran := g, bytes := bs, srcs := [r.src], stream := r.stream, since := now } : WqEntry)],
        e.wf = true := by
      intro y hy e he
      rcases List.mem_append.mp he with he | he
      · exact HbmState.wf_queue hy _ e he
      · rw [List.mem_singleton.mp he]
        simp only [WqEntry.wf, Bool.and_eq_true, List.all_eq_true, decide_eq_true_eq]
        exact ⟨hb, hk⟩
    split
    · exact HbmState.setWq_wf _ _ (HbmState.drainOne_wf _ h) (hy _ (HbmState.drainOne_wf _ h))
    · exact HbmState.setWq_wf _ _ h (hy _ h)

/-- The bytes of a write that fall into a granule. -/
theorem granBytes_wf (a : Nat) (bs : List Byte) (g : Nat) : Tbl.wf (granBytes a bs g) = true ∧ ∀ b ∈ granBytes a bs g, b.1 < 32 := by
  have gen : ∀ (l : List Nat) (f : Nat → Option (Nat × Byte)), (∀ i b, f i = some b → b.1 = i) → l.Pairwise (· < ·) →
      Tbl.wf (l.filterMap f) = true := by
    intro l f hf hl
    induction l with
    | nil => rfl
    | cons i r ih =>
      obtain ⟨h1, h2⟩ := List.pairwise_cons.mp hl
      rw [List.filterMap_cons]
      cases hfi : f i with
      | none => exact ih h2
      | some b =>
        refine (tbl_wf_cons b _).mpr ⟨fun y hy => ?_, ih h2⟩
        obtain ⟨j, hj, hfj⟩ := List.mem_filterMap.mp hy
        rw [hf i b hfi, hf j y hfj]
        exact h1 j hj
  constructor
  · refine gen _ _ (fun i b h => ?_) (List.pairwise_lt_range)
    simp only at h
    split at h
    · cases h; rfl
    · cases h
  · intro b hb
    obtain ⟨i, hi, h⟩ := List.mem_filterMap.mp hb
    simp only at h
    split at h
    · cases h; exact List.mem_range.mp hi
    · cases h

/-! ### The device -/

/-- The memories of the machine right after reset have the form. -/
theorem reset_memoryWf : State.reset.memoryWf = true := by decide +kernel

theorem flashWrite_memoryWf {s : State} (a : Nat) (bs : List Byte) (h : s.memoryWf = true) : (s.flashWrite a bs).memoryWf = true := by
  simp only [State.memoryWf, Bool.and_eq_true] at *
  exact ⟨h.1, memory_wf_flashStore a bs h.2⟩

theorem flashErase_memoryWf {s : State} (a n : Nat) (h : s.memoryWf = true) : (s.flashErase a n).memoryWf = true := by
  simp only [State.memoryWf, Bool.and_eq_true] at *
  exact ⟨h.1, memory_wf_filter _ h.2⟩

theorem updHbm_memoryWf {s : State} (h : Half) (f : HbmState → HbmState) (hs : s.memoryWf = true) (hf : ∀ x, x.wf = true → (f x).wf = true) :
    (s.updHbm h f).memoryWf = true := by
  simp only [State.memoryWf, Bool.and_eq_true] at *
  obtain ⟨⟨⟨⟨h0, h1⟩, h2⟩, h3⟩, h4⟩ := hs
  unfold State.updHbm Pair.upd
  by_cases hh : h = 0
  · simp only [hh, if_true]; exact ⟨⟨⟨⟨hf _ h0, h1⟩, h2⟩, h3⟩, h4⟩
  · simp only [hh, if_false]; exact ⟨⟨⟨⟨h0, hf _ h1⟩, h2⟩, h3⟩, h4⟩

theorem updTile_memoryWf {s : State} (h : Half) (t : TileIx) (f : Tile → Tile) (hs : s.memoryWf = true)
    (hf : ∀ x, x.memoryWf = true → (f x).memoryWf = true) : (s.updTile h t f).memoryWf = true := by
  have key : ∀ tb : Tbl Tile, (tb.all fun e => e.2.memoryWf) = true → ((tmod Tile.init tb t.val f).all fun e => e.2.memoryWf) = true := by
    intro tb htb
    have hg : (tget Tile.init tb t.val).memoryWf = true := by
      induction tb with
      | nil => rfl
      | cons y r ih =>
        obtain ⟨j, w⟩ := y
        simp only [List.all_cons, Bool.and_eq_true] at htb
        have hr := ih htb.2
        by_cases h1 : t.val < j
        · simp only [tget, tget?, h1, if_true]; rfl
        · by_cases h2 : t.val = j
          · simp only [tget, tget?, h2, lt_irrefl, if_false, if_true]; exact htb.1
          · simpa [tget, tget?, h1, h2] using hr
    simp only [List.all_eq_true] at *
    intro e he
    simp only [tmod, tset] at he
    split at he
    · exact htb e (mem_tdel _ _ _ he)
    · rcases mem_tput _ _ _ _ he with rfl | he
      · exact hf _ hg
      · exact htb e he
  simp only [State.memoryWf, Bool.and_eq_true] at *
  obtain ⟨⟨⟨⟨h0, h1⟩, h2⟩, h3⟩, h4⟩ := hs
  unfold State.updTile Pair.upd
  by_cases hh : h = 0
  · simp only [hh, if_true]; exact ⟨⟨⟨⟨h0, h1⟩, key _ h2⟩, h3⟩, h4⟩
  · simp only [hh, if_false]; exact ⟨⟨⟨⟨h0, h1⟩, h2⟩, key _ h3⟩, h4⟩

end Sys2Proof.Machine
end

