-- ==== Sys2Proof/Machine/Pins.lean ====
section
/-! DEFINITION. The output pins as the board sees them (R564, R645, R654, R656, R657): when they are high-impedance or at electrical idle, and
the level of those that the state of the block drives. -/

namespace Sys2Proof.Machine

/-- An output or bidirectional signal of R654. -/
inductive OutPin where
  | faultN | thermN | tsyncOut | tdo | qspiClk | qspiCs | qspiDq (i : Fin 4) | mdc | mdio | i2cScl (i : Fin 8) | i2cSda (i : Fin 8)
  | gpio (i : Fin 32) | uartTx
  deriving DecidableEq, Repr

/-- A transmitter: a SerDes lane, a lane of a half's expansion port, the management port, or a PCIe lane (R653, R654). -/
inductive TxLane where
  | serdes (n : Fin 512)
  | expansion (h : Half) (j : Fin 16)
  | sgmii
  | pcie (k : Fin 8)
  deriving DecidableEq, Repr

/-- What a pin shows: high-impedance, a level, or a level that Privet's firmware or a bus in operation gives it. -/
inductive PinOut where
  | highZ
  | low
  | high
  | inUse
  deriving DecidableEq, Repr

/-- The I/O supply of a pin by its monitor: VDDIO_33 or VDDIO_18 (R654, R663). -/
def OutPin.rail : OutPin → Nat
  | .i2cScl _ | .i2cSda _ | .gpio _ | .uartTx => 15
  | _ => 14

/-- Reset is asserted, or step 3 of the start-up sequence has not been reached (R646, R647, R656). -/
def State.outputsOff (s : State) : Bool := s.pv.porLow || s.pv.sysLow || decide (s.startStep < 3)

/-- A rail is below its DC limit. -/
def State.railDown (s : State) (m : Nat) : Bool := s.pv.railLow.contains m

/-- A signal is high-impedance (R656): a rail on which it depends is low, or outputs are off. -/
def State.highZ (s : State) (p : OutPin) : Bool := s.outputsOff || s.railDown p.rail || s.railDown 12

/-- What an output pin shows (R83, R564, R645, R656). -/
def State.pinOut (s : State) (p : OutPin) : PinOut :=
  if s.highZ p then .highZ
  else
    match p with
    | .faultN => if s.faultLow then .low else .high
    | .thermN => if s.thermLow then .low else .high
    | .tsyncOut => if s.dev.tsyncOut then .high else .low
    | _ => .inUse

/-- The level that the board sees at a pin with the pulls of R657; none where the board chooses the pull or a bus is in operation. -/
def State.boardSees (s : State) (p : OutPin) : Option Bool :=
  match s.pinOut p with
  | .low => some false
  | .high => some true
  | .inUse => none
  | .highZ =>
    match p with
    | .faultN | .thermN | .tsyncOut | .qspiClk | .mdc => some false
    | .gpio _ => none
    | _ => some true

/-- The rails on which a transmitter depends: VDD_SDS and VDDH_SDS of its half, or VDD_AON and VDDA_PLL. -/
def TxLane.rails : TxLane → List Nat
  | .serdes n => if n.val < 256 then [1, 2] else [7, 8]
  | .expansion h _ => if h = 0 then [1, 2] else [7, 8]
  | _ => [12, 13]

/-- In safe state a port sends local fault ordered sets in place of electrical idle (R561, R586). -/
def State.sendsLocalFault (s : State) (p : PortIx) : Bool :=
  (s.hubs.get (portHalf p)).squelched && bit (s.reg (bHub (portHalf p)) R.hub_SAFE_CFG) 0 && !s.outputsOff

/-- IDCODE of the test access port (R662). -/
def idcode : BitVec 32 := 0x15120E3F

/-- A transmitter is at electrical idle (R561, R656): outputs are off, a rail is low, the half's transmitters are squelched, or the lane is
powered off (R100, R431). -/
def State.txIdle (s : State) (l : TxLane) : Bool :=
  s.outputsOff || (l.rails.any fun m => s.railDown m) ||
    (match l with
     | .serdes n =>
       let h := portHalf (Fin.ofNat 128 (n.val / 4))
       ((s.hubs.get h).squelched && !bit (s.reg (bHub h) R.hub_SAFE_CFG) 0) || !s.lanePowered n.val false
     | .expansion h _ => (s.hubs.get h).squelched || !bit (s.reg (bHalf h) R.half_EXP_CFG) 0
     | _ => false)

end Sys2Proof.Machine
end

