-- ==== Sys2Proof/Machine/Sync.lean ====
section
/-! DEFINITION. Synchronisation messages of a device group (R538, R539): their layout, the payloads taken from the device's registers, and
what makes a receiver act on one. Control software and packet programs build, check and act on them; the hardware carries them as frames. -/

namespace Sys2Proof.Machine

/-- A synchronisation message without its check: the fields after EtherType 0x88B5 (R538). -/
structure SyncMsg where
  type : Byte
  group : Nat
  src : Byte
  dst : Byte
  stamp : DWord
  payload : List Byte
  counter : Nat
  deriving DecidableEq, Repr

/-- The EtherType of synchronisation messages (R538). -/
abbrev syncEtherType : Nat := 0x88B5

/-- Bytes 0 to 17 + n, in network byte order (R538). -/
def SyncMsg.body (m : SyncMsg) : List Byte :=
  [0x01, m.type] ++ beBytes 2 m.group ++ [m.src, m.dst] ++ beBytes 2 m.payload.length ++ beBytes 8 m.stamp.toNat ++ m.payload ++
    beBytes 2 m.counter

/-- The message with CHECK, the CRC-32C of all before it, least significant byte first (R538). -/
def SyncMsg.bytes (m : SyncMsg) : List Byte := m.body ++ leBytes 4 ((crc32c 0xFFFFFFFF).of m.body)

/-- The check-value instance of the messages: the CRC-32C row of R413, CNT_W = 2, CHK_LE = 1 and WINDOW = 4 (R539). -/
def syncInst : CpInst := { CpInst.reset with control := 0x406DF }

/-- The payload length of the message that bytes begin with; its exact length is 22 more (R539). -/
def syncLen (bs : List Byte) : Nat := beNat (slice bs 6 2)

/-- CVCHECK returns ACCEPT for a message against the stream record of its sender and TYPE; `free` stands for the values that CVCHECK leaves
open (R415, R539). -/
def syncAccepted (r : Stream) (bs : List Byte) (free : Nat) : Bool :=
  decide (22 + syncLen bs ≤ bs.length) && decide ((cvCheck syncInst r (bs.take (22 + syncLen bs)) free).2.1 >>> 56 = 0)

/-- A receiver acts on a message of VERSION 0x01, of a TYPE of R538, that is for it or for every member, and that is accepted. -/
def syncActs (member : Nat) (r : Stream) (bs : List Byte) (free : Nat) : Bool :=
  decide (nth 0 bs 0 = (0x01 : Byte)) && decide (1 ≤ (nth 0 bs 1).toNat) && decide ((nth 0 bs 1).toNat ≤ 5) &&
    (decide ((nth 0 bs 5).toNat = member) || decide (nth 0 bs 5 = (0xFF : Byte))) && decide (syncLen bs ≤ 1024) && syncAccepted r bs free

/-- HEARTBEAT: FAULT_SUMMARY of the DEVICE, DEV_STATE, and seven zero bytes (R538). -/
def State.syncHeartbeat (s : State) : List Byte :=
  beBytes 8 (s.viewUcb .device R.ucb_FAULT_SUMMARY).toNat ++ [BitVec.ofNat 8 s.dev.devState.code] ++ List.replicate 7 0

/-- TIME: TSYNC_CAP, TSYNC_STAT.EDGES, and four zero bytes (R538). -/
def State.syncTime (s : State) : List Byte :=
  beBytes 8 (s.reg bDevice R.device_TSYNC_CAP).toNat ++ beBytes 4 (s.rfld bDevice R.device_TSYNC_STAT 32 32) ++ List.replicate 4 0

/-- STAMP: KIND (1 COMMIT_AT, 2 BATCH_E, 3 IMG_SWITCH_AT) and seven zero bytes, the stamp, and the sender's sequence (R538). -/
def syncStamp (kind : Byte) (stamp : DWord) (seq : List Byte) : List Byte :=
  [kind] ++ List.replicate 7 0 ++ beBytes 8 stamp.toNat ++ padTo seq 8

/-- ACK: TYPE and COUNTER of the message acknowledged, and 13 zero bytes (R538). -/
def syncAck (m : SyncMsg) : List Byte := [m.type] ++ beBytes 2 m.counter ++ List.replicate 13 0

/-- REMOTE_SUMMARY_d as control software writes it from an accepted HEARTBEAT of member d (R537, R543). -/
def remoteSummary (payload : List Byte) : DWord :=
  BitVec.ofNat 64 (bits (beNat (slice payload 0 8)) 32 2 <<< 32 ||| (nth 0 payload 8).toNat % 8 <<< 16)

end Sys2Proof.Machine
end

