-- ==== Sys2Proof/WellFormed.lean ====
section
/-! DEFINITION. Which commands are well formed: the operands that are plain numbers or byte sequences stay within the range the spec
gives the thing they name. Operands of the other types are well formed by their type. -/

namespace Sys2Proof

/-- The widths of a CSR access (R18). -/
def widthOk (n : Nat) : Bool := decide (n = 4) || decide (n = 8)

/-- An index into a table of a kind whose capacity R184 gives. -/
def indexOk (capacity i : Nat) : Bool := decide (i < capacity)

/-- The capacity of a table target, by its number (R184, R211): the largest of the targets that share the number space. -/
def targetCapacity : Nat := 16777216

/-- The rows of a bank of the HBM (R494, R496): 24 GB over 32 pseudo-channels and 32 banks of 1 KB rows. -/
def rowsPerBank : Nat := 24576

/-- The command is well formed. -/
def Instr.wellFormed (i : Instr) : Bool :=
  match i with
  | .frameBytes _ bytes => !bytes.isEmpty
  | .csrMisalignedAccess _ addr width => widthOk width && decide (addr.toNat % width ≠ 0)
  | .registerWrite _ addr width _ => widthOk width && decide (addr.toNat % width = 0)
  | .agingVisit _ flow index => indexOk (if flow then 536870912 else 524288) index
  | .counterWriteback _ pair => indexOk 16777216 pair
  | .meterRefill _ index => indexOk 262144 index
  | .tableEntryRepairDone _ _ index => indexOk targetCapacity index
  | .shadowCheckVisit _ _ index _ _ => indexOk targetCapacity index
  | .shadowRepairDone _ _ index => indexOk targetCapacity index
  | .hbmRefresh _ _ bank => decide (bank < 32)
  | .hbmRowRepairDone _ _ bank row => decide (bank < 32) && decide (row < rowsPerBank)
  | .fordLaneCheck _ _ lane _ => decide (lane < 64)
  | .fordLaneRepairDone _ _ lane => decide (lane < 64)
  | .i2cXfer _ _ bytes => decide (bytes.length ≤ 256)
  | .expRspReceive _ _ _ bytes => decide (bytes.length ≤ 256)
  | .ioPllUnlock pll => decide (1 ≤ pll) && decide (pll ≤ 7)
  | .ioPllRelock pll => decide (1 ≤ pll) && decide (pll ≤ 7)
  | .pstoreRewriteDone _ _ _ addr => decide (addr < 131072) && decide (addr % 4 = 0)
  | .flashEraseDone sector => decide (sector < 32768)
  | .frameStart _ | .pfcRefresh _ _ | .pfcFrameTransmit _ | .frameEnd _ _ | .pfcReceive _ | .pfcPauseExpire _ _
  | .classifyFrame _ | .parseSecondPass _ | .taskCreate _ | .brambleScanStart _ _ | .brambleScanEnd _ _ _
  | .taskDispatch _ _ _ | .confluenceRelease _ | .patienceCheck _ | .oldestLiveSample _ | .tableSyncNoticeSend _
  | .tableSyncNoticeReceive _ | .crossingSend _ | .crossingReceipt _ | .crossingAck _ | .replWalk _ | .admitCopy _
  | .spillWriteAccepted _ _ | .spillFill _ _ | .fillRetry _ _ | .schedSelect _ _ | .rewriteFrame _ _ | .frameTransmit _ _
  | .transmitReadEnd _ _ | .linkAttemptEnd _ _ _ | .linkDown _ | .portHoldExpire _ _ | .portFlushEntry _ _
  | .reclaimVisit _ _ | .commitNow _ _ | .commitArm _ _ | .commitDisarm _ _ | .commitAtWrite _ _ _ | .armedCommitStart _
  | .commitReach _ | .unitCommitApply _ | .requestReset _ _ | .requestTest _ _ | .requestActive _ _ | .requestFence _ _
  | .requestOff _ _ | .activeTree _ _ | .unitEntryComplete _ | .devRequestRun _ | .devRequestRecovery _ | .csrHoleAccess _ _
  | .dtsNowRead _ _ | .injectForceWrite _ _ _ | .invArm _ _ _ | .dtsAlignSend | .dtsAlignReceive | .dtsFollowerSlew
  | .loadNow _ | .loadArm _ | .tsyncInEdge _ | .tsyncOutRise | .tsyncOutFall | .dtsSlewWrite _ _ _ | .dtsSlewAdjust
  | .ptpSet _ | .ptpAdd _ | .ptpSub _ | .ptpNsRead _ | .ptpTxtsBRead _ _ | .lookup _ | .groupSelect _ | .lpm _ | .flowFind _
  | .flowFindInsert _ | .flowWrite _ | .flowDelete _ | .meter _ | .count _ | .search _ | .assocStep _ | .tableResponse _ _ _
  | .flowStashReturn _ _ | .counterReadSelWrite _ _ _ | .counterReadDone _ | .build _ _ _ | .post _ _ _ | .buildPost _ _ _
  | .abort _ _ _ | .ack _ _ _ | .batchRecordApply _ | .batchUndoStep _ _ | .batchRetireStart _ _ | .retireWalkStep _ _
  | .learnExamine _ | .learnWrite _ | .learnNoteSizeWrite _ _ _ | .assocScrubVisit _ _ _ _ | .assocEntryRepairDone _ _
  | .assocSpareFillDone _ | .brambleScrubVisit _ _ _ _ | .brambleReloadDone _ _ _ | .confirmCmp _ | .confirmFind _
  | .confirmStep _ | .injectQueueEntry _ | .svcPostWrite _ _ _ _ _ | .svcEnableWrite _ _ _ _ _ | .imgArm _ _ | .imgDisarm _ _
  | .imgSwitch _ | .imgDrainEnd _ | .fkAdd _ | .fkAddi _ | .fkSub _ | .fkAdds _ | .fkSubs _ | .fkAddus _ | .fkSubus _
  | .fkNeg _ | .fkAbs _ | .fkAnd _ | .fkOr _ | .fkXor _ | .fkAndn _ | .fkAndi _ | .fkOri _ | .fkXori _ | .fkLi _ | .fkLui _
  | .fkMin _ | .fkMax _ | .fkMinu _ | .fkMaxu _ | .fkSel _ | .fkClz _ | .fkCtz _ | .fkPopc _ | .fkBswap _ | .fkExtu _
  | .fkExts _ | .fkIns _ | .fkSll _ | .fkSrl _ | .fkSra _ | .fkRor _ | .fkSls _ | .fkSlli _ | .fkSrli _ | .fkSrai _
  | .fkRori _ | .fkSlsi _ | .fkMul _ | .fkMulh _ | .fkMulhu _ | .fkDiv _ | .fkDivu _ | .fkRem _ | .fkRemu _ | .fkFmul _
  | .fkMpyf _ | .fkMacf _ | .fkMsuf _ | .fkMaci _ | .fkAadd _ | .fkAsub _ | .fkAneg _ | .fkAsl _ | .fkAsr _ | .fkAclr _
  | .fkMvg _ | .fkMvas _ | .fkExtr _ | .fkMval _ | .fkMvah _ | .fkCmp _ | .fkCmpi _ | .fkTst _ | .fkB _ | .fkBcc _ _
  | .fkBz _ _ | .fkBnz _ _ | .fkJr _ | .fkCall _ | .fkCallr _ | .fkRet _ | .fkRspush _ | .fkRspop _ | .fkTrap _ | .fkBreak _
  | .fkTret _ | .fkClrf _ | .fkNop _ | .fkMfsr _ | .fkMtsr _ | .fkLb _ | .fkLbu _ | .fkLh _ | .fkLhu _ | .fkLw _ | .fkLhn _
  | .fkLwn _ | .fkSb _ | .fkSh _ | .fkSw _ | .fkShn _ | .fkSwn _ | .fkPush _ | .fkPop _ | .fkFrd _ | .fkHrd _ | .fkHwr _
  | .memoryResponse _ _ _ | .fkTwait _ | .fkTdone _ | .fkTdrop _ | .fkPostf _ | .fkWaitev _ | .waitevComplete _ | .fkEvsig _
  | .evPostWrite _ _ _ _ _ | .threadTimerExpire _ | .interruptTake _ | .eventDeadlock _ _ _ _ | .threadPost _ _
  | .threadKill _ _ | .threadResume _ _ | .threadHalt _ _ | .haltComplete _ | .fkChstg _ | .fkChsend _ | .fkChrecv _
  | .fkChdrop _ | .chCfgWrite _ _ _ _ _ _ | .fkLock _ | .fkTrylock _ | .fkUnlock _ | .locksForce _ _ _ | .fkCplock _
  | .fkCpunlock _ | .fkCpsave _ | .fkCprestore _ | .fkCvcfg _ | .fkCvupd _ | .fkCvfin _ | .fkCvappend _ | .fkCvcheck _
  | .fkHcfg _ | .fkHash _ | .fkHashm _ | .fkFdiv _ | .fkLog2 _ | .fkExp2 _ | .fkExpRequest _ | .coprocResponse _ _ _
  | .coprocCancelAck _ _ _ | .coprocLateFailure _ _ _ _ | .expReqSend _ | .expFlitReceive _ _ _ _ _ _ | .frameIn _ _
  | .expReplay _ | .expTimeout _ _ | .expLinkUp _ | .expLinkDown _ | .shaperRefill _ _ _ | .telemSizeWrite _ _ _
  | .hbmAccess _ _ _ _ _ | .hbmWriteToArray _ _ | .hbmPowerDown _ _ | .hbmScrubRead _ _ _ | .hbmTrainingDone _ _ _
  | .powerGateEnter _ _ | .powerWake _ | .fordTrainingDone _ _ | .fordFlitReceive _ _ | .fordLinkDown _ | .heartbeatSend _
  | .heartbeatReceive _ | .fatalNoticeReceive _ | .peerLost _ | .peerUp _ | .learnShareNotice _ | .faultReport _ _ _
  | .recAck _ _ _ _ | .recLoRead _ _ | .detailARead _ _ | .detailBRead _ _ | .hubEventToPrivet _ | .faultnPulseEnd
  | .spareHandover _ _ | .selfTestEnd _ _ | .reweightBatch _ _ | .privetHbWrite _ _ _ | .privetHbWindow _
  | .privetRelease _ _ | .halfRestart _ | .privetInfo _ | .imgStage _ | .imgActivate _ | .imgConfirm _ | .storeCommit _
  | .logRead _ | .grant _ | .debugChallenge _ | .debugUnlock _ | .ccReload _ | .mbGo _ _ | .debugLock _ | .debugTokenExpire _
  | .tftpStage _ | .storeAutoCommit | .logFlush | .calViewWrite _ _ | .sensorSample _ _ | .senseTempRead _ _
  | .thermalRelease | .railSample _ _ _ | .clockMonitorWindow _ _ _ | .refclkLoss | .pllUnlock | .droopRise _ _
  | .droopFall _ | .droopStatRead _ _ | .pfailAssert | .pfailDeassert | .poresetN | .sysresetN | .resetRelease | .nosReady _
  | .pciePerstN _ | .functionLevelReset _ | .mgmtFrameReceive _ | .mgmtFrameTransmit | .ringDeliver _ _ | .mirrorPeerApply _
  | .fkDrain _ | .fkAlu64 _ | .fkAddi64 _ | .fkLd _ | .fkSd _ | .fkLwu _ | .fkSwapm _ | .fkAddm _ | .fkCasm _ | .fkGate _
  | .fkGret _ | .fkMfkr _ | .fkMtkr _ | .fkXlinv _ | .extestLoad | .transmitFrameEnd _ _ | .hbmStackTempReport _ _ _
  | .remoteFaultChange _ _ | .refclkArrival => true

end Sys2Proof
end

