-- ==== Sys2Proof/Tests/Slice0.lean ====
section
/-! SUPPORT. The model's own tests: the worked examples of the spec, an ill-formed term for each check of `Instr.wellFormed`, and for the premises
of the statements concrete states and operands that meet them, clause by clause. -/

namespace Sys2Proof.Tests

open Sys2Proof Sys2Proof.Machine

set_option linter.unusedVariables false
set_option maxRecDepth 100000
set_option Elab.async false

/-! ### Helpers: premises as Booleans -/

/-- Two answers are equal. -/
def exEq {α β : Type} [DecidableEq α] [DecidableEq β] : Except α β → Except α β → Bool
  | .ok a, .ok b => a == b
  | .error a, .error b => a == b
  | _, _ => false

/-- A decidable premise as a Boolean. -/
abbrev dec (p : Prop) [Decidable p] : Bool := decide p

/-- `Issues` as a Boolean. -/
def issuesB (s : State) (op : FkOp) (th : ThreadRef) (s1 : State) (w : Nat) : Bool :=
  s.canIssue th && dec ((s.fetch th).1 = s1) && exEq (s.fetch th).2 (.ok w) && dec (fkDecode (isControl th) w = some op) && dec (s1.waits = s.waits) &&
    dec (s.armed = [])

/-- `ReachesUnit` as a Boolean. -/
def reachesB (u : State) (h : Half) (t : TileIx) (n : Fin 128) (c : Fk) (q : CpCall) : Bool :=
  dec (q.h = h ∧ q.t = t ∧ q.n = n ∧ q.k = u.slotOfThread h t n ∧ q.c = c ∧ (u.tile h t).lostKey q.k c.w = none ∧
    (if lockRequired (wUnit c.w) then (u.tile h t).heldIn q.k (instUnit (wUnit c.w)) (wInst c.w) = some q.cl else q.cl = n.val / 32))

/-- The state that a command answers. -/
def nx (o : Out) : State := match o with | .next t => t | _ => State.reset

theorem exEq_eq {α β : Type} [DecidableEq α] [DecidableEq β] (x y : Except α β) (h : exEq x y = true) : x = y := by
  cases x <;> cases y <;> simp_all [exEq]

theorem issuesB_spec (s : State) (op : FkOp) (th : ThreadRef) (s1 : State) (w : Nat) (h : issuesB s op th s1 w = true) : Issues s op th s1 w := by
  simp only [issuesB, dec, Bool.and_eq_true, decide_eq_true_eq] at h
  exact ⟨h.1.1.1.1.1, Prod.ext h.1.1.1.1.2 (exEq_eq _ _ h.1.1.1.2), h.1.1.2, h.1.2, h.2⟩

theorem reachesB_spec (u : State) (h : Half) (t : TileIx) (n : Fin 128) (c : Fk) (q : CpCall) (hr : reachesB u h t n c q = true) :
    ReachesUnit u h t n c q := by
  unfold ReachesUnit; simpa only [reachesB, dec, decide_eq_true_eq] using hr

/-! ### Small states -/

/-- The units that the small states have ACTIVE: those of half H0 that the tests use and the shared ones. -/
def someUnits : List UnitId :=
  [.device, .privet 0, .privet 4, .privet 5, .privet 6, .privet 7, .privet 8, .privet 9, .half 0, .half 1, .hub 0, .hub 1, .ford 0, .ford 1,
   .table 0 0, .table 0 1, .table 0 2, .table 0 3, .table 0 4, .table 0 5, .table 0 6, .table 0 7, .assoc 0, .buffer 0, .sched 0, .hbmc 0 0,
   .hbmc 0 1, .locks 0, .port 0, .tile 0 0, .cluster 0 0 0, .core 0 0 0 0]

/-- Units in one state. -/
def unitsIn (st : UState) (us : List UnitId) : Tbl UnitDyn := us.foldl (fun t u => tput t (unitBase u) { UnitDyn.init with state := st }) []

/-- A half's clock that counts, at tick 1,000,000. -/
def running : TimeState := { TimeState.reset with dts := 1000000, counting := true, valid := true }

/-- A device in RUN with the units of `someUnits` ACTIVE. -/
def run0 : State :=
  { State.reset with
    units := unitsIn .active someUnits
    dev := { DevHw.reset with devState := .run }
    time := ⟨running, running⟩
    pv := { PrivetState.reset with porLow := false, perstLow := false, booted := true }
    ticks := 1000000 }

/-- The same device still in START. -/
def start0 : State := { run0 with dev := DevHw.reset }

/-- Port P0 with its link up at 400 Gb/s. -/
def port0 : State := run0.setReg (bPort 0) R.port_LINK_STAT 0x0601

/-- A frame of `n` zero bytes that arrives at port P0. -/
def rx (n : Nat) : RxFrame :=
  { port := 0, stamp := 5, seq := 0, ptp := 0, bytes := List.replicate n 0, chain := none, prio := none, cut := false, mac := regRst .port R.port_MAC_CFG }

/-- A frame of 5 bytes. -/
def rx0 : RxFrame := rx 5

/-- A frame with its check sequence. -/
def withFcs (bs : List Byte) : List Byte := bs ++ leBytes 4 (crcFcs.of bs)

/-- A parser whose state 0 accepts at once. -/
def acceptBank : ParseBank := { ParseBank.init with states := [(0, 2 ^ 92)] }

/-- A classified frame. -/
def cls (f : RxFrame) (second : Bool) (mode : Nat) : ClsFrame :=
  { frame := f, bank := 0, second := second, outer := 0, csumBad := false, hdrs := [], key := [], keyLen := 0, hash := 0, m := 0, domain := 0,
    mode := mode, colour := 0, program := 1 }

/-- A chain of one cell. -/
def chain1 : Chain := { Chain.init with bytes := List.replicate 60 0, cells := [0], refcnt := 1 }

/-- Half H0 with chain 0. -/
def withChain (s : State) (c : Chain) : State := s.updBuf 0 fun b => { b with chains := [(0, c)], nextChain := 1 }

/-- A task at slot `k` of tile 0 of H0. -/
def withTask (s : State) (k : Nat) (x : Task) : State := s.updTile 0 0 fun y => { y with tasks := tput y.tasks k x }

/-- A READY task. -/
def ready (p : Nat) : Task := { Task.init with state := .ready, effPrio := p, basePrio := p, stamp := 900000, chain := some 0, length := 60, program := 1 }

/-- The word `v` at address `a` of program bank 0 of tile 0 of H0. -/
def withWord (s : State) (a v : Nat) : State := s.updTile 0 0 fun y => { y with bank0 := tstore y.bank0 a (leBytes 4 v) }

/-- The Ford link up, the peer up, and a heartbeat just received. -/
def ford0 : State :=
  { run0 with ford := run0.ford.both fun _ f => { f with linkUp := true, peerUp := true, bundlesUp := 0xFFFF, lastHeartbeat := some 1000000 } }

/-- Change the Ford part of both halves. -/
def withFord (s : State) (f : FordState → FordState) : State := { s with ford := s.ford.both fun _ x => f x }

/-- A record that waits to cross. -/
def cross1 : CrossRec := { chain := 0, frame := chain1, list := none, port := 64, queue := 0, credits := 3 }

/-- A copy of chain 0 for queue 0 of port P0. -/
def copy1 : Copy := { chain := 0, port := 0, q := 0, mcast := false, vidEn := false, vid := 0 }

/-- Port P0 up, with chain 0 and the given settings of queue 0. -/
def buf0 (cfg : DWord) (c : Chain) : State := withChain (port0.setReg (bBuffer 0) R.buffer_QCFG cfg) c

/-- An entry of a queue. -/
def qe : QEntry := { chain := 0, cells := 1, vidEn := false, vid := 0, ce := false }

/-- A spilled copy. -/
def spill1 : SpillEntry := { frame := chain1, entry := qe, blocks := [0], writing := none }

/-- Change half H0's packet buffer. -/
def withBuf (s : State) (f : BufferState → BufferState) : State := s.updBuf 0 f

/-- A selected frame. -/
def sel1 : Sel :=
  { entry := qe, q := 0, lc := 84, lout := 64, sBefore := 0, sampled := false, selDts := 5, depth := 1, bytes := none, ceApplied := false,
    stomp := false, started := false, readDone := false, ended := false }

/-- Port `lp` of half H0 with one selected frame. -/
def withSel (s : State) (lp : Nat) (f : Sel) : State := s.updSched 0 fun x => { x with sel := tput x.sel lp [f] }

/-- A unit in another state. -/
def inState (s : State) (u : UnitId) (st : UState) : State := s.updUnit u fun d => { d with state := st }

/-- An open record of a fault of code 1 at TABLE 0 of H0, with `m` merged. -/
def rec1 (m : Nat) : FaultRec :=
  { stamp := 5, code := 1, cls := .corrected, isOpen := true, unit := .table 0 0, phys := 0, injected := false, merged := m, sources := 2 }

/-- Change hub H0. -/
def withHub (s : State) (f : HubState → HubState) : State := s.updHub 0 f

/-- A fault of code 2 found at TABLE 0 of H0. -/
def found2 : Found := ⟨.table 0 0, 2, false, 0⟩

/-- Change the spare of tile 0 of H0. -/
def withSpare (s : State) (f : SpareInfo → SpareInfo) : State := s.updTile 0 0 fun y => { y with spare := f y.spare }

/-- Task 3 running in thread 0 of tile 0 of H0, about to issue the word `w` at address 8, with the general registers `g`. -/
def pk0 (w : Nat) (g : Tbl DWord) : State :=
  (withTask (withWord (withWord run0 8 w) 1024 0x401) 3 { ready 2 with state := .running, thread := some 0 }).updThread (.pk 0 0 0) fun _ =>
    { Thread.init with phase := .issuing, task := some 3, g := g, pc := 8 }

/-- Change thread 0 of tile 0 of H0. -/
def th0 (s : State) (f : Thread → Thread) : State := s.updThread (.pk 0 0 0) f

/-- The HBM regions of half H0 that grant every class all of it. -/
def hbmOpen (s : State) : State :=
  (s.setReg (bHbmc 0 0) R.hbmc_REGION_HI 0x7F7FFFFFFFF00001).setReg (bHbmc 0 1) R.hbmc_REGION_HI 0x7F7FFFFFFFF00001

/-- The HBM controller of a stack of a half with its power GATED. -/
def gate (s : State) (h : Half) (st : Fin 2) : State := s.updUnit (.hbmc h st) fun d => { d with power := 1 }

/-- Both HBM controllers of a half so. -/
def gated (s : State) (h : Half) : State := gate (gate s h 0) h 1

/-- A flit of zeros with its check sequence. -/
def goodFlit0 : FordFlit := ⟨3, List.replicate 248 0 ++ leBytes 8 (crcFord.of (List.replicate 248 0))⟩

/-- The lane blocks of an idle flit that both sides' links begin with. -/
def goodBlocks : List (BitVec 66) :=
  match (ExpState.reset.putFlit 0 0 ExpState.reset.idleFlit).lanes with
  | [l] => l.map fun
    | .data b => b
    | .alignment _ => 0
  | _ => []

/-- Control-core thread 0 of H0 in supervisor mode without translation, about to issue the word `w` at HBM address 0x10000. -/
def cc0 (w : Nat) (g : Tbl DWord) : State :=
  let s := ((hbmOpen run0).setReg (bCc 0) R.cc_CC_CTL 1).updThread (.cc 0 0) fun _ =>
    { Thread.init with phase := .issuing, g := g, pc := 0x100010000, k := [(1, 0x100020000)] }
  { s with hbm := s.hbm.upd 0 fun x => { x with mem := tstore x.mem 0x10000 (leBytes 4 w) } }

/-- Change control-core thread 0 of H0. -/
def cth (s : State) (f : Thread → Thread) : State := s.updThread (.cc 0 0) f

/-! ### Worked examples of the spec, and the well-formed terms -/

/-- The nine bytes 123456789. -/
def nine : List Byte := [0x31, 0x32, 0x33, 0x34, 0x35, 0x36, 0x37, 0x38, 0x39]

/-- R413: the check values of the five CRCs of its table. -/
theorem test_crc_check_values :
    (⟨8, 0x07, 0, 0, false, false⟩ : Crc).of nine = 0xF4 ∧ (⟨16, 0x1021, 0xFFFF, 0, false, false⟩ : Crc).of nine = 0x29B1 ∧
    crcFcs.of nine = 0xCBF43926 ∧ (⟨32, 0x1EDC6F41, 0xFFFFFFFF, 0xFFFFFFFF, true, true⟩ : Crc).of nine = 0xE3069283 ∧
    (⟨64, 0x42F0E1EBA9EA3693, 2 ^ 64 - 1, 2 ^ 64 - 1, true, true⟩ : Crc).of nine = 0x995DC9BBDF1939FA := by decide +kernel

/-- R39: the worked addresses, of core H1.T5.L2.C3, of port P70 and of the HBMC of stack S3. -/
theorem test_worked_addresses : unitBase (.core 1 5 2 3) = 0x25750000 ∧ unitBase (.port 70) = 0x21060000 ∧ unitBase (.hbmc 1 1) = 0x20500000 := by
  decide +kernel

/-- R178: the first entry and the summary word of the scan of Program B. -/
theorem test_scan_words :
    (⟨5000, 12 <<< 52 ||| 5 <<< 17 ||| 0x0B07, 200⟩ : PtMatch).word = 0x00C1388320A00B07 ∧ summaryWord 3 256 false = 0x0310010000000000 := by
  decide +kernel

/-- R300, R296: SRA by 200, and SLS by 31 under wrap and under saturation. -/
theorem test_shift_examples :
    sar 32 0x80000001 200 = 0xFFFFFFFF ∧ slsRes 32 false 3 31 = ⟨0x80000000, flOv⟩ ∧ slsRes 32 true 3 31 = ⟨0x7FFFFFFF, flSat⟩ := by decide +kernel

/-- R303: the quotients at the edges of DIV. -/
theorem test_division_edges :
    divRes 32 false 7 0 = ⟨0x7FFFFFFF, flDz⟩ ∧ divRes 32 true 0x80000005 0 = ⟨0x80000000, flDz⟩ ∧
    divRes 32 false 0x80000000 0xFFFFFFFF = ⟨0x80000000, flOv⟩ ∧ divRes 32 true 0x80000000 0xFFFFFFFF = ⟨0x7FFFFFFF, flSat⟩ ∧
    divuRes 32 9 0 = ⟨0xFFFFFFFF, flDz⟩ := by decide +kernel

/-- R307: round(d, 4) of the rate estimate of Program B under the four rounding modes, for the sample above and the one below. -/
theorem test_rate_estimate :
    (List.range 4).map (fun m => unsigned 40 (roundShift m 0x40000008 4)) = [0x0004000000, 0x0004000001, 0x0004000000, 0x0004000000] ∧
    (List.range 4).map (fun m => unsigned 40 (roundShift m (-0x40000008) 4)) = [0xFFFC000000, 0xFFFC000000, 0xFFFC000000, 0xFFFBFFFFFF] := by
  decide +kernel

/-- The flow bucket of Program B in HBM (the example after R497): pseudo-channel 61, bank 1, row 10,522, stack S1. -/
theorem test_flow_bucket_place :
    hbmPc 0x523456700 = 61 ∧ hbmBank 0x523456700 = 1 ∧ hbmRow 0x523456700 = 10522 ∧ hbmStack 0x523456700 = 1 ∧ bits 0x523456700 14 2 = 1 := by
  decide +kernel

/-- R546: the record of core H1.T5.L2.C3 of the example, REC_HI and REC_LO, and its slot 272. -/
theorem test_record_words :
    (⟨0x25C3A1000, 3, .contained, true, .core 1 5 2 3, 11, false, 2, 10⟩ : FaultRec).hi = 0x00025C3A100003A5 ∧
    (⟨0x25C3A1000, 3, .contained, true, .core 1 5 2 3, 11, false, 2, 10⟩ : FaultRec).lo 0 = 0xACD600020000000A ∧
    slotOf (.core 1 5 2 3) = 272 := by decide +kernel

/-- A command whose operand is out of range, for each check of `Instr.wellFormed`, is refused. -/
theorem test_ill_formed_terms :
    ([.frameBytes 0 [], .csrMisalignedAccess .privet 0x20000008 8, .csrMisalignedAccess .privet 0x20000001 3, .registerWrite .privet 0x20000004 8 0,
      .registerWrite .privet 0x20000000 2 0, .agingVisit 0 true 536870912, .agingVisit 0 false 524288, .counterWriteback 0 16777216,
      .meterRefill 0 262144, .tableEntryRepairDone 0 0 16777216, .shadowCheckVisit 0 0 16777216 false false, .shadowRepairDone 0 0 16777216,
      .hbmRefresh 0 0 32, .hbmRowRepairDone 0 0 32 0, .hbmRowRepairDone 0 0 0 24576, .fordLaneCheck 0 0 64 0, .fordLaneRepairDone 0 0 64,
      .i2cXfer 0 true (List.replicate 257 0), .expRspReceive 0 0 0 (List.replicate 257 0), .ioPllUnlock 0, .ioPllUnlock 8, .ioPllRelock 0,
      .ioPllRelock 8, .pstoreRewriteDone 0 0 false 131072, .pstoreRewriteDone 0 0 false 2, .flashEraseDone 32768] : List Instr).all
      (fun i => !i.wellFormed) := by
  decide +kernel

/-- The same commands with the operand at the end of its range are well formed. -/
theorem test_well_formed_terms :
    ([.frameBytes 0 [0], .csrMisalignedAccess .privet 0x20000004 8, .registerWrite .privet 0x20000004 4 0, .agingVisit 0 true 536870911,
      .agingVisit 0 false 524287, .counterWriteback 0 16777215, .meterRefill 0 262143, .tableEntryRepairDone 0 0 16777215,
      .shadowCheckVisit 0 0 16777215 false false, .shadowRepairDone 0 0 16777215, .hbmRefresh 0 0 31, .hbmRowRepairDone 0 0 31 24575,
      .fordLaneCheck 0 0 63 0, .fordLaneRepairDone 0 0 63, .i2cXfer 0 true (List.replicate 256 0), .expRspReceive 0 0 0 (List.replicate 256 0),
      .ioPllUnlock 7, .ioPllRelock 1, .pstoreRewriteDone 0 0 false 131068, .flashEraseDone 32767] : List Instr).all Instr.wellFormed := by
  decide +kernel

/-- A HEARTBEAT for member 3 with counter 8: acted on after counter 7 with padding behind the check, and not by another member, as a
repeat, or with a changed bit (R538, R539). -/
theorem test_sync_message :
    let m : SyncMsg := { type := 1, group := 5, src := 2, dst := 3, stamp := 9, payload := State.reset.syncHeartbeat, counter := 8 }
    let r : Stream := ⟨7, 0, false, 0, 0, 0⟩
    m.bytes.length = 38 ∧ syncActs 3 r (m.bytes ++ [0, 0]) 0 = true ∧ syncActs 4 r m.bytes 0 = false ∧
      syncActs 3 { r with rx := 8 } m.bytes 0 = false ∧ syncActs 3 r (m.bytes.set 17 1) 0 = false := by
  decide +kernel


/-! ### The premises of the statements -/

/-- `TimeIsSet`: states and operands that meet the premises of its clauses (TimeLoads). -/
theorem test_TimeLoads :
    ((let s : State := start0.setReg bDevice R.device_DTS_LOAD 1000000; let a : Agent := .privet; dec (s.agentReach a .device = true) &&
     dec (s.dev.devState = .start) && dec (s.loadRefused (s.reg bDevice R.device_DTS_LOAD) = false)) &&
     (let s : State := start0.setReg bDevice R.device_DTS_LOAD 0x0FFFFFFFFFFFFFFF; let a : Agent := .privet;
     dec (s.agentReach a .device = true) && dec (s.dev.devState = .start) && dec (s.loadRefused (s.reg bDevice R.device_DTS_LOAD) = false))) = true ∧
    ((let s : State := start0.setReg bDevice R.device_DTS_LOAD 999999; let a : Agent := .privet; dec (s.agentReach a .device = true) &&
     dec (s.dev.devState = .start) && dec (s.loadRefused (s.reg bDevice R.device_DTS_LOAD) = true)) &&
     (let s : State := start0.setReg bDevice R.device_DTS_LOAD 0x1000000000000000; let a : Agent := .privet;
     dec (s.agentReach a .device = true) && dec (s.dev.devState = .start) && dec (s.loadRefused (s.reg bDevice R.device_DTS_LOAD) = true))) = true ∧
    (let s : State := start0; let a : Agent := .privet; dec (s.agentReach a .device = true) && dec (s.dev.devState = .start)) = true ∧
    (let s : State := run0; dec (s.dev.devState ≠ .start)) = true := by
  decide +kernel

/-- `TsyncPins`: states and operands that meet the premises of its clauses (TsyncInCaptures). -/
theorem test_TsyncInCaptures :
    ((let s : State := run0; let rising : Bool := true; dec (Tbl.wf s.csr = true) &&
     dec (bit (s.reg bDevice R.device_TSYNC_CFG) 0 = false ∨ rising = bit (s.reg bDevice R.device_TSYNC_CFG) 1)) &&
     (let s : State := run0.setReg bDevice R.device_TSYNC_CFG 3; let rising : Bool := true; dec (Tbl.wf s.csr = true) &&
     dec (bit (s.reg bDevice R.device_TSYNC_CFG) 0 = false ∨ rising = bit (s.reg bDevice R.device_TSYNC_CFG) 1))) = true ∧
    ((let s : State := run0.setReg bDevice R.device_TSYNC_CFG 1; dec (Tbl.wf s.csr = true) &&
     dec (bit (s.reg bDevice R.device_TSYNC_CFG) 0 = true)) &&
     (let s : State := (run0.setReg bDevice R.device_TSYNC_CFG 3).setReg bDevice R.device_TSYNC_STAT 0xFFFFFFFF00000000;
     dec (Tbl.wf s.csr = true) && dec (bit (s.reg bDevice R.device_TSYNC_CFG) 0 = true))) = true ∧
    (let s : State := { run0 with dev := { run0.dev with capDue := [1000000] } }; let d := 1000000; dec (Tbl.wf s.csr = true) &&
     dec (s.dev.capDue = [d]) && dec (d ≤ s.ticks) && dec (s.dev.loadPend = false)) = true ∧
    (let s : State := ({ run0 with dev := { run0.dev with capDue := [999997], loadPend := true } }).setReg bDevice R.device_DTS_LOAD 2000000;
     let d := 999997; dec (Tbl.wf s.csr = true) && dec (s.dev.capDue = [d]) && dec (d ≤ s.ticks) && dec (s.dev.loadPend = true) &&
     dec (s.loadRefused (s.reg bDevice R.device_DTS_LOAD) = false)) = true := by
  decide +kernel

/-- `TimeIsSet`: states and operands that meet the premises of its clauses (SlewWritten). -/
theorem test_SlewWritten :
    ((let s : State := run0; let a : Agent := .privet; dec (Tbl.wf s.csr = true) && dec (s.agentReach a .device = true)) &&
     (let s : State := { run0 with dev := { run0.dev with slewGrid := 9 } }; let a : Agent := .privet; dec (Tbl.wf s.csr = true) &&
     dec (s.agentReach a .device = true))) = true := by
  decide +kernel

/-- `TimeIsSet`: states and operands that meet the premises of its clauses (PtpAndReads). -/
theorem test_PtpAndReads :
    (let s : State := run0.setReg bDevice R.device_PTP_ADJ_NS 5; let a : Agent := .privet; dec (s.agentReach a .device = true)) = true ∧
    ((let s : State := { run0.setReg bDevice R.device_PTP_ADJ_NS 5 with time := run0.time.both fun _ t => { t with ptpNs := 5 } };
     let a : Agent := .privet; dec (s.agentReach a .device = true) &&
     dec (s.ptpAdj ≤ ptpTotal s.time.h0.ptpSec s.time.h0.ptpNs s.time.h0.ptpFrac) && dec (s.time.h0.ptpSec < 2 ^ 48) &&
     dec (s.time.h0.ptpNs < 1000000000) && dec (s.time.h0.ptpFrac < 2 ^ 32)) &&
     (let s : State := { run0.setReg bDevice R.device_PTP_ADJ_NS 6 with time := run0.time.both fun _ t => { t with ptpSec := 1, ptpNs := 5, ptpFrac := 9 } };
     let a : Agent := .privet; dec (s.agentReach a .device = true) &&
     dec (s.ptpAdj ≤ ptpTotal s.time.h0.ptpSec s.time.h0.ptpNs s.time.h0.ptpFrac) && dec (s.time.h0.ptpSec < 2 ^ 48) &&
     dec (s.time.h0.ptpNs < 1000000000) && dec (s.time.h0.ptpFrac < 2 ^ 32))) = true ∧
    (let s : State := run0; let a : Agent := .privet; dec (Tbl.wf s.csr = true) && dec (s.agentReach a .device = true)) = true ∧
    (let s : State := run0; let a : Agent := .privet; let h : Half := 1; dec (s.agentReach a (.half h) = true)) = true ∧
    (let s : State := run0; let a : Agent := .privet; let p : PortIx := 3; dec (s.agentReach a (.port p) = true)) = true := by
  decide +kernel

/-- `TsyncPins`: states and operands that meet the premises of its clauses (TsyncOutPulse). -/
theorem test_TsyncOutPulse :
    (let s : State := { run0.setReg bDevice R.device_TSYNC_CFG 4 with dev := { run0.dev with tsyncDue := some 1000000 } };
     let d : Nat := 1000000; dec (s.dev.tsyncDue = some d) && dec (d ≤ s.ticks) && dec (bit (s.reg bDevice R.device_TSYNC_CFG) 2 = true)) = true ∧
    (let s : State := { run0 with dev := { run0.dev with tsyncOut := true, tsyncEnd := 1000000 } }; dec (s.dev.tsyncOut = true) &&
     dec (s.dev.tsyncEnd ≤ s.ticks)) = true := by
  decide +kernel

/-- `SlewAndAlignment`: states and operands that meet the premises of its clauses (SlewTicks). -/
theorem test_SlewTicks :
    ((let s : State := { run0.setReg bDevice R.device_DTS_SLEW 1 with dev := { run0.dev with slewGrid := 65535 } };
     let u : State := (s.halfTick 0).halfTick 1; let h : Half := 0; dec (Tbl.wf u.csr = true) && dec (u.dev.devState ≠ .start) &&
     dec (s.slewDue = true) && dec (u.slewDue = true) && dec ((u.time.get h).counting = true) && dec (u.followDue h = false) &&
     dec (u.dev.capDue = [])) &&
     (let s : State := { run0.setReg bDevice R.device_DTS_SLEW 0x0001000000000002 with dev := { run0.dev with slewGrid := 65535 } };
     let u : State := (s.halfTick 0).halfTick 1; let h : Half := 1; dec (Tbl.wf u.csr = true) && dec (u.dev.devState ≠ .start) &&
     dec (s.slewDue = true) && dec (u.slewDue = true) && dec ((u.time.get h).counting = true) && dec (u.followDue h = false) &&
     dec (u.dev.capDue = []))) = true ∧
    ((let s : State := { run0 with time := run0.time.both fun _ t => { t with slewing := true, followGrid := 63, skew := 3 } };
     let u : State := (s.halfTick 0).halfTick 1; let h : Half := 1; dec (u.dev.devState ≠ .start) && dec (s.followDue h = true) &&
     dec (u.slewDue = false) && dec ((u.time.get h).counting = true) && dec (u.followDue h = true) && dec (u.dev.capDue = [])) &&
     (let s : State := { run0 with time := run0.time.both fun _ t => { t with slewing := true, followGrid := 63, skew := -3 } };
     let u : State := (s.halfTick 0).halfTick 1; let h : Half := 1; dec (u.dev.devState ≠ .start) && dec (s.followDue h = true) &&
     dec (u.slewDue = false) && dec ((u.time.get h).counting = true) && dec (u.followDue h = true) && dec (u.dev.capDue = []))) = true := by
  decide +kernel

/-- `SlewAndAlignment`: states and operands that meet the premises of its clauses (AlignmentMessages). -/
theorem test_AlignmentMessages :
    (let s : State := { run0 with ford := run0.ford.both fun _ f => { f with linkUp := true } }; dec (s.fordUp s.leader = true)) = true ∧
    ((let s : State := { run0 with ford := run0.ford.both fun _ f => { f with timeIn := [2, 7] } }; let v : DWord := 2;
     let rest : List DWord := [7]; let d : Int := ((s.dts (other s.leader)).toNat : Int) - ((v + BitVec.ofNat 64 s.ticks).toNat : Int);
     dec ((s.ford.get (other s.leader)).timeIn = v :: rest) && dec ((s.ford.get (other s.leader)).lost = false) && dec (d.natAbs ≤ 2)) &&
     (let s : State := { run0 with ford := run0.ford.both fun _ f => { f with timeIn := [-2] } }; let v : DWord := -2;
     let rest : List DWord := []; let d : Int := ((s.dts (other s.leader)).toNat : Int) - ((v + BitVec.ofNat 64 s.ticks).toNat : Int);
     dec ((s.ford.get (other s.leader)).timeIn = v :: rest) && dec ((s.ford.get (other s.leader)).lost = false) && dec (d.natAbs ≤ 2))) = true ∧
    (let s : State := withFord run0 fun f => { f with timeIn := [2, 7], lost := true }; let v : DWord := 2; let rest : List DWord := [7];
     dec ((s.ford.get (other s.leader)).timeIn = v :: rest) && dec ((s.ford.get (other s.leader)).lost = true)) = true := by
  decide +kernel

/-- `FramesReceived`: states and operands that meet the premises of its clauses (FrameArrives). -/
theorem test_FrameArrives :
    (let s : State := port0; let p : PortIx := 0; dec (s.armed = []) && dec (s.portRuns p = true) && dec (s.arriving p = none)) = true ∧
    ((let s : State := port0.updIng 0 fun i => { i with arriving := [(0, rx 64)] }; let p : PortIx := 0; let f : RxFrame := rx 64;
     let bs : List Byte := [8, 9]; dec (s.armed = []) && dec (s.portRuns p = true) && dec (s.arriving p = some f) && dec (f.cut = false) &&
     dec (f.bytes.length + (bs.length + 1) ≤ macMax f.mac) && dec (f.bytes.length % 128 ≠ 0) &&
     dec (f.bytes.length % 128 + (bs.length + 1) ≤ 128) && dec (64 ≤ f.bytes.length ∨ f.bytes.length + (bs.length + 1) < 64)) &&
     (let s : State := port0.updIng 0 fun i => { i with arriving := [(0, { rx 0 with bytes := List.replicate 125 0, chain := some 0 })] };
     let p : PortIx := 0; let f : RxFrame := { rx 0 with bytes := List.replicate 125 0, chain := some 0 }; let bs : List Byte := [8, 9];
     dec (s.armed = []) && dec (s.portRuns p = true) && dec (s.arriving p = some f) && dec (f.cut = false) &&
     dec (f.bytes.length + (bs.length + 1) ≤ macMax f.mac) && dec (f.bytes.length % 128 ≠ 0) &&
     dec (f.bytes.length % 128 + (bs.length + 1) ≤ 128) && dec (64 ≤ f.bytes.length ∨ f.bytes.length + (bs.length + 1) < 64))) = true ∧
    (let s : State := port0.updIng 0 fun i => { i with arriving := [(0, { rx 63 with chain := some 0 })] }; let p : PortIx := 0;
     let f : RxFrame := { rx 63 with chain := some 0 }; dec (s.armed = []) && dec (s.portRuns p = true) && dec (s.arriving p = some f) &&
     dec (f.cut = false) && dec (f.bytes.length + 1 ≤ macMax f.mac) && dec (f.bytes.length = 63)) = true ∧
    ((let p : PortIx := 0; let f : RxFrame := rx 0; let b : Byte := 7;
     let s : State := (port0.updIng 0 fun i => { i with arriving := [(0, rx 0)] }).updBuf 0 fun b => { b with fencedBanks := List.range 96 };
     dec (s.armed = []) && dec (s.portRuns p = true) && dec (s.arriving p = some f) && dec (f.cut = false) &&
     dec (f.bytes.length + 1 ≤ macMax f.mac) && dec (f.bytes.length % 128 = 0) && dec (s.takeRxCell (portHalf p) f = none)) &&
     (let p : PortIx := 0; let f : RxFrame := { rx 0 with bytes := List.replicate 128 0, chain := some 0 }; let b : Byte := 7;
     let s : State := (port0.updIng 0 fun i => { i with arriving := [(0, f)] }).updBuf 0 fun b => { b with fencedBanks := List.range 96 };
     dec (s.armed = []) && dec (s.portRuns p = true) && dec (s.arriving p = some f) && dec (f.cut = false) &&
     dec (f.bytes.length + 1 ≤ macMax f.mac) && dec (f.bytes.length % 128 = 0) && dec (s.takeRxCell (portHalf p) f = none))) = true ∧
    (let s : State := port0.updIng 0 fun i => { i with arriving := [(0, { rx 64 with mac := 0 })] }; let p : PortIx := 0;
     let f : RxFrame := { rx 64 with mac := 0 }; dec (s.armed = []) && dec (s.portRuns p = true) && dec (s.arriving p = some f) &&
     dec (f.cut = false) && dec (macMax f.mac < f.bytes.length + 1)) = true ∧
    (let s : State := port0.updIng 0 fun i => { i with arriving := [(0, rx 62)] }; let p : PortIx := 0; dec (s.armed = []) &&
     dec (s.portRuns p = true)) = true := by
  decide +kernel

/-- `FramesReceived`: states and operands that meet the premises of its clauses (FrameEnds). -/
theorem test_FrameEnds :
    (let s : State := port0.updIng 0 fun i => { i with arriving := [(0, { rx 0 with bytes := withFcs (List.replicate 60 0) })] };
     let p : PortIx := 0; let f : RxFrame := { rx 0 with bytes := withFcs (List.replicate 60 0) }; let err : Bool := false;
     dec (s.armed = []) && dec (Tbl.wf s.csr = true) && dec (s.portRuns p = true) && dec (s.arriving p = some f) && dec (f.cut = false) &&
     dec (endCounter f.bytes err = none)) = true ∧
    ((let s : State := port0.updIng 0 fun i => { i with arriving := [(0, rx 64)] }; let p : PortIx := 0; let f : RxFrame := rx 64;
     let err : Bool := false; let c : Nat := R.port_RX_FCS_ERR; dec (s.armed = []) && dec (s.portRuns p = true) &&
     dec (s.arriving p = some f) && dec (f.cut = false) && dec (endCounter f.bytes err = some c) && dec (c ≠ R.port_RX_PFC_FRAMES)) &&
     (let s : State := port0.updIng 0 fun i => { i with arriving := [(0, { rx 0 with bytes := withFcs (List.replicate 60 0) })] };
     let p : PortIx := 0; let f : RxFrame := { rx 0 with bytes := withFcs (List.replicate 60 0) }; let err : Bool := true;
     let c : Nat := R.port_RX_PCS_ERR; dec (s.armed = []) && dec (s.portRuns p = true) && dec (s.arriving p = some f) && dec (f.cut = false) &&
     dec (endCounter f.bytes err = some c) && dec (c ≠ R.port_RX_PFC_FRAMES)) &&
     (let s : State := port0.updIng 0 fun i => { i with arriving := [(0, { rx 0 with bytes := withFcs (List.replicate 59 0) })] };
     let p : PortIx := 0; let f : RxFrame := { rx 0 with bytes := withFcs (List.replicate 59 0) }; let err : Bool := false;
     let c : Nat := R.port_RX_RUNT; dec (s.armed = []) && dec (s.portRuns p = true) && dec (s.arriving p = some f) && dec (f.cut = false) &&
     dec (endCounter f.bytes err = some c) && dec (c ≠ R.port_RX_PFC_FRAMES))) = true ∧
    (let s : State := port0.updIng 0 fun i => { i with arriving := [(0, { rx 0 with bytes := withFcs (List.replicate 12 0 ++ [0x88, 0x08, 0x01, 0x01, 0, 3, 0, 5, 0, 6] ++ List.replicate 38 0) })] };
     let p : PortIx := 0;
     let f : RxFrame := { rx 0 with bytes := withFcs (List.replicate 12 0 ++ [0x88, 0x08, 0x01, 0x01, 0, 3, 0, 5, 0, 6] ++ List.replicate 38 0) };
     let err : Bool := false; let c : Nat := R.port_RX_PFC_FRAMES; dec (s.armed = []) && dec (s.portRuns p = true) &&
     dec (s.arriving p = some f) && dec (f.cut = false) && dec (endCounter f.bytes err = some c)) = true ∧
    (let s : State := port0.updIng 0 fun i => { i with arriving := [(0, { rx 64 with cut := true })] }; let p : PortIx := 0;
     let f : RxFrame := { rx 64 with cut := true }; dec (s.armed = []) && dec (s.portRuns p = true) && dec (s.arriving p = some f) &&
     dec (f.cut = true)) = true ∧
    ((let s : State := port0.updIng 0 fun i => { i with arriving := [(0, { rx 0 with bytes := withFcs (List.replicate 60 0) })] };
     let p : PortIx := 0; dec (bit (s.reg (bPort p) R.port_LINK_STAT) 1 = false)) &&
     (let s : State := port0.updIng 0 fun i => { i with arriving := [(0, rx 64)] }; let p : PortIx := 0;
     dec (bit (s.reg (bPort p) R.port_LINK_STAT) 1 = false)) &&
     (let s : State := port0.updIng 0 fun i => { i with arriving := [(0, { rx 0 with bytes := withFcs (List.replicate 59 0) })] };
     let p : PortIx := 0; dec (bit (s.reg (bPort p) R.port_LINK_STAT) 1 = false))) = true ∧
    (let bs : List Byte := []; dec (fcsGood bs = false)) = true ∧
    (let bs : List Byte := withFcs (List.replicate 59 0); dec (fcsGood bs = true) && dec (bs.length < 64)) = true ∧
    (let bs : List Byte := withFcs (List.replicate 60 0); dec (fcsGood bs = true) && dec (64 ≤ bs.length)) = true := by
  decide +kernel

/-- `PfcBothWays`: states and operands that meet the premises of its clauses. -/
theorem test_PfcBothWays :
    ((let s : State := port0.updIng 0 fun i => { i with pfcXoff := [(0, 3)] }; let p : PortIx := 0; dec (s.portRuns p = true) &&
     dec (tget 0 (s.ing.get (portHalf p)).pfcXoff (portLocal p) ≠ 0 ∨ tget 0 (s.ing.get (portHalf p)).pfcXon (portLocal p) ≠ 0) &&
     dec ((s.sels (portHalf p) (portLocal p)).any (fun f => f.started && !f.ended) = false) && dec (Tbl.wf s.csr = true) &&
     dec (Tbl.wf (s.ing.get (portHalf p)).pfcXoff = true) && dec (Tbl.wf (s.ing.get (portHalf p)).pfcXon = true)) &&
     (let s : State := port0.updIng 0 fun i => { i with pfcXon := [(0, 1)] }; let p : PortIx := 0; dec (s.portRuns p = true) &&
     dec (tget 0 (s.ing.get (portHalf p)).pfcXoff (portLocal p) ≠ 0 ∨ tget 0 (s.ing.get (portHalf p)).pfcXon (portLocal p) ≠ 0) &&
     dec ((s.sels (portHalf p) (portLocal p)).any (fun f => f.started && !f.ended) = false) && dec (Tbl.wf s.csr = true) &&
     dec (Tbl.wf (s.ing.get (portHalf p)).pfcXoff = true) && dec (Tbl.wf (s.ing.get (portHalf p)).pfcXon = true))) = true ∧
    (let s : State := ((((port0.setReg (bPort 0) R.port_PFC_CFG 0xFFFF00000000FF00).setReg (bPort 0) R.port_RXQ_THR 0x0000000400030002).updIng 0 fun i => { i with level := [(0, 2)], pfcSince := [(0, 10)] }));
     let p : PortIx := 0; let prio : Fin 8 := 0; let since : Nat := 10;
     dec (tget? (s.ing.get (portHalf p)).pfcSince (prioKey (portLocal p) prio.val) = some since) && dec (s.portRuns p = true) &&
     dec (s.txPfc p prio.val = true) && dec ((s.rxqThr p prio.val).2.2 ≤ s.rxLevel p prio.val) && dec (0 < s.portGbps p) &&
     dec (since + quantaTicks (s.pfcRefreshQ p) (s.portGbps p) ≤ s.ticks)) = true ∧
    (let s : State := (port0.setReg (bPort 0) R.port_PFC_CFG 0xFF).updIng 0 fun i => { i with pfcRx := [(0, [(3, [5, 6]), (1, [])])] };
     let p : PortIx := 0; let en : Nat := 3; let ts : List Nat := [5, 6]; let rest : List (Nat × List Nat) := [(1, [])];
     dec (tget [] (s.ing.get (portHalf p)).pfcRx (portLocal p) = (en, ts) :: rest)) = true ∧
    (let s : State := port0.updIng 0 fun i => { i with pauses := [(1, 1000000)] }; let p : PortIx := 0; let prio : Fin 8 := 1;
     let d : Nat := 1000000; dec (tget? (s.ing.get (portHalf p)).pauses (prioKey (portLocal p) prio.val) = some d) && dec (d ≤ s.ticks)) = true ∧
    (([0, 1, 7] : List (Nat)).all fun e => dec (e < 8)) = true := by
  decide +kernel

/-- `FramesClassified`: states and operands that meet the premises of its clauses. -/
theorem test_FramesClassified :
    (let s : State := run0.updIng 0 fun i => { i with done := [rx 64, { rx 64 with stamp := 9 }] }; let h : Half := 0; let f : RxFrame := rx 64;
     dec (s.live (.half h) = true) && dec ((s.ing.get h).cur = none) &&
     dec (oldestFrame ((s.ing.get h).done ++ (s.ing.get h).inject) = some f) && dec (24 < (s.parseOf h f).acc.steps) && dec (Tbl.wf s.csr = true)) = true ∧
    (let s : State := run0.updIng 0 fun i => { i with bank0 := acceptBank, inject := [rx 64], done := [{ rx 64 with stamp := 9 }] };
     let h : Half := 0; let f : RxFrame := rx 64; dec (s.live (.half h) = true) && dec ((s.ing.get h).cur = none) &&
     dec (oldestFrame ((s.ing.get h).done ++ (s.ing.get h).inject) = some f) && dec ((s.parseOf h f).acc.steps ≤ 24) &&
     dec (s.classHeld h f (s.parseOf h f) = false)) = true ∧
    (let s : State := run0.updIng 0 fun i => { i with cur := some (cls (rx 64) true 0) }; let h : Half := 0;
     let c : ClsFrame := cls (rx 64) true 0; dec ((s.ing.get h).cur = some c) && dec (s.live (.half h) = true) && dec (c.second = true) &&
     dec (s.classHeld h c.frame (s.parseOf h c.frame) = false)) = true ∧
    (let s : State := (run0.updIng 0 fun i => { i with bank0 := acceptBank, inject := [rx 64] }).updTab 0 fun t => { t with withheld := (run0.updIng 0 fun i => { i with bank0 := acceptBank, inject := [rx 64] }).classReads 0 (rx 64) ((run0.updIng 0 fun i => { i with bank0 := acceptBank, inject := [rx 64] }).parseOf 0 (rx 64)) };
     let h : Half := 0; let f : RxFrame := rx 64; dec ((s.ing.get h).cur = none) &&
     dec (oldestFrame ((s.ing.get h).done ++ (s.ing.get h).inject) = some f) && dec ((s.parseOf h f).acc.steps ≤ 24) &&
     dec (s.classHeld h f (s.parseOf h f) = true)) = true := by
  decide +kernel

/-- `FramesClassified`: states and operands that meet the premises of its clauses (OldestFrameTaken). -/
theorem test_OldestFrameTaken :
    (let l : List RxFrame := [rx 64, { rx 64 with stamp := 4 }]; let f : RxFrame := { rx 64 with stamp := 4 }; dec (oldestFrame l = some f)) = true ∧
    (let l : List RxFrame := [rx 64, { rx 64 with stamp := 4 }]; let f : RxFrame := { rx 64 with stamp := 4 }; dec (oldestFrame l = some f)) = true := by
  decide +kernel

/-- `FramesClassified`: states and operands that meet the premises of its clauses (InjectQueueEntered). -/
theorem test_InjectQueueEntered :
    (let s : State := (run0.updThread (ThreadRef.pk 0 0 0) fun x => { x with phase := .post 2 [1, 2] }).updIng 0 fun i => { i with posters := [ThreadRef.pk 0 0 0] };
     let h : Half := 0; let th : ThreadRef := ThreadRef.pk 0 0 0; let rest : List ThreadRef := []; let v : Nat := 2;
     let bytes : List Byte := [1, 2]; dec (s.armed = []) && dec ((s.ing.get h).posters = th :: rest) &&
     dec ((s.thread th).phase = .post v bytes) && dec (s.injectReady h bytes.length = true)) = true ∧
    (let s : State := (withChain run0 chain1).updIng 0 fun i => { i with loops := [0] }; let h : Half := 0; let id : Nat := 0;
     let rest : List Nat := []; let s1 : State := s; dec (s.armed = []) && dec ((s.ing.get h).posters = []) &&
     dec ((s.ing.get h).loops = id :: rest) && dec (s.injectRoom h = true) && dec (s.moveCharge h id 0 = (s1, true))) = true ∧
    (let s : State := withChain run0 chain1; let h : Half := 0; let v : Nat := 3; let id : Nat := 0;
     dec ((s.chain h id).bytes.length ≤ s.vportMax h v)) = true := by
  decide +kernel

/-- `TasksAndScans`: states and operands that meet the premises of its clauses (TaskCreated). -/
theorem test_TaskCreated :
    ((let s : State := run0.updIng 0 fun i => { i with cur := some (cls (rx 64) false 0) }; let h : Half := 0;
     let c : ClsFrame := cls (rx 64) false 0; let tl : TileIx := 0; let r : Bool := false; dec (s.armed = []) &&
     dec ((s.ing.get h).cur = some c) && dec (s.live (.half h) = true) && dec (c.second = false) && dec (s.place h c = some (tl, r))) &&
     (let s : State := run0.updIng 0 fun i => { i with cur := some (cls (rx 64) false 2) }; let h : Half := 0;
     let c : ClsFrame := cls (rx 64) false 2; let tl : TileIx := 0; let r : Bool := false; dec (s.armed = []) &&
     dec ((s.ing.get h).cur = some c) && dec (s.live (.half h) = true) && dec (c.second = false) && dec (s.place h c = some (tl, r)))) = true ∧
    (let s : State := { run0 with units := [] }.updIng 0 fun i => { i with cur := some (cls (rx 64) false 0) }; let h : Half := 0;
     let c : ClsFrame := cls (rx 64) false 0; dec (s.armed = []) && dec ((s.ing.get h).cur = some c) && dec (s.place h c = none)) = true := by
  decide +kernel

/-- `TasksAndScans`: states and operands that meet the premises of its clauses (BrambleScans). -/
theorem test_BrambleScans :
    (let s : State := (withTask run0 3 { ready 0 with scan := .waiting }).updTile 0 0 fun y => { y with scans := [3] }; let h : Half := 0;
     let tl : TileIx := 0; let k : Nat := 3; let r : List Nat := []; dec (s.live (.tile h tl) = true) && dec ((s.tile h tl).scans = k :: r) &&
     dec (((k :: r).all fun k => decide ((s.task h tl k).scan ≠ .running)) = true)) = true ∧
    (let s : State := (withTask run0 3 { ready 0 with scan := .running, scanLen := 9 }).updTile 0 0 fun y => { y with scans := [3] };
     let h : Half := 0; let tl : TileIx := 0; let k : Fin 2560 := 3; dec (s.live (.tile h tl) = true) &&
     dec ((s.task h tl k.val).scan = .running) && dec ((s.tab.get h).shadowHeld.any (fun e => decide (e.1 = tgBramble)) = false)) = true := by
  decide +kernel

/-- `TasksAndScans`: states and operands that meet the premises of its clauses (ScanSummary). -/
theorem test_ScanSummary :
    (([0, 2047, 1, 2000] : List (Nat)).all fun n => dec (n < 2048)) = true := by
  decide +kernel

/-- `TasksDispatched`: states and operands that meet the premises of its clauses (TaskDispatched). -/
theorem test_TaskDispatched :
    (let s : State := withTask (withTask (withWord run0 4 0x101) 3 (ready 2)) 5 (ready 4); let h : Half := 0; let tl : TileIx := 0;
     let n : Fin 128 := 7; let k : Nat := 5; dec (s.armed = []) && dec (s.live (.tile h tl) = true) && dec (s.threadFree h tl n.val = true) &&
     dec (s.pickTask h tl = some (.task k)) && dec ((s.task h tl k).resumed = false) && dec (s.newCore h tl = some (n.val / 8))) = true ∧
    (let s : State := withTask run0 3 { ready 2 with resumed := true, saved := some { Thread.init with pc := 8 } }; let h : Half := 0;
     let tl : TileIx := 0; let n : Fin 128 := 0; let k : Nat := 3; dec (s.armed = []) && dec (s.live (.tile h tl) = true) &&
     dec (s.threadFree h tl n.val = true) && dec (s.pickTask h tl = some (.task k)) && dec ((s.task h tl k).resumed = true)) = true ∧
    (let s : State := withTask (withTask (withWord run0 4 0x101) 3 (ready 2)) 5 (ready 4); let h : Half := 0; let tl : TileIx := 0;
     let k : Nat := 5; let a : Nat := 0x100; dec ((s.tile h tl).bankPoisoned (s.task h tl k).bank (4 * (s.task h tl k).program) 4 = false) &&
     dec (entryAddr ((s.tile h tl).entryWord (s.task h tl k).bank (s.task h tl k).program) = some a)) = true := by
  decide +kernel

/-- `TasksDispatched`: states and operands that meet the premises of its clauses (HighestPriorityFirst). -/
theorem test_HighestPriorityFirst :
    (let s : State := withTask (withTask (withWord run0 4 0x101) 3 (ready 2)) 5 (ready 4); let h : Half := 0; let tl : TileIx := 0;
     let k : Nat := 5; dec (s.pickTask h tl = some (.task k))) = true := by
  decide +kernel

/-- `OrderRestored`: states and operands that meet the premises of its clauses (ConfluenceWorks). -/
theorem test_ConfluenceWorks :
    ((let s : State := run0; let h : Half := 0; dec (s.armed = []) && dec (s.live (.half h) = true)) &&
     (let s : State := (fun s : State => { s with conf := s.conf.upd 0 fun c => { c with windows := [(7, [(0, 3)])] } }) (withTask run0 3 { ready 2 with stamp := 0 });
     let h : Half := 0; dec (s.armed = []) && dec (s.live (.half h) = true)) &&
     (let s : State := (fun s : State => { s with conf := s.conf.upd 0 fun c => { c with windows := [(7, [(0, 3)])] } }) (withTask run0 3 { ready 2 with complete := true });
     let h : Half := 0; dec (s.armed = []) && dec (s.live (.half h) = true))) = true ∧
    ((let s : State := run0; let h : Half := 0; dec (s.armed = []) && dec (s.live (.half h) = true) && dec (s.releasable h = none)) &&
     (let s : State := (fun s : State => { s with conf := s.conf.upd 0 fun c => { c with windows := [(7, [(0, 3)])] } }) (withTask run0 3 { ready 2 with stamp := 0 });
     let h : Half := 0; dec (s.armed = []) && dec (s.live (.half h) = true) && dec (s.releasable h = none)) &&
     (let s : State := (fun s : State => { s with conf := s.conf.upd 0 fun c => { c with windows := [(7, [(0, 3)])] } }) (withTask run0 3 { ready 2 with stamp := 999999 });
     let h : Half := 0; dec (s.armed = []) && dec (s.live (.half h) = true) && dec (s.releasable h = none))) = true ∧
    (let s : State := (fun s : State => { s with conf := s.conf.upd 0 fun c => { c with windows := [(7, [(0, 3)])] } }) (withTask run0 3 { ready 2 with complete := true });
     let h : Half := 0; let d := 7; let e := (0, 3); let r := []; let u := (s.setDomWin h d r).releaseOrdered h (Fin.ofNat 16 e.1) e.2 false;
     dec (s.armed = []) && dec (s.live (.half h) = true) && dec (s.releasable h = some d) && dec (s.domWin h d = e :: r) &&
     dec (u.releasable h = none)) = true ∧
    (let s : State := (fun s : State => { s with conf := s.conf.upd 0 fun c => { c with windows := [(7, [(0, 3)])] } }) (withTask run0 3 { ready 2 with complete := true });
     let h : Half := 0; let d : Nat := 7; let e : Nat × Nat := (0, 3); let r : List (Nat × Nat) := []; dec (s.releasable h = some d) &&
     dec (s.domWin h d = e :: r)) = true ∧
    (let s : State := (fun s : State => { s with conf := s.conf.upd 0 fun c => { c with windows := [(7, [(0, 3)])] } }) (withTask run0 3 { ready 2 with stamp := 0 });
     let h : Half := 0; let u : State := ((s.conf.get h).windows.map (·.1)).foldl (State.checkDomain h) s; dec (s.live (.half h) = true) &&
     dec ((u.conf.get h).windows ≠ (s.conf.get h).windows)) = true ∧
    ((let s : State := run0; let h : Half := 0; let u : State := ((s.conf.get h).windows.map (·.1)).foldl (State.checkDomain h) s;
     dec (s.live (.half h) = true) && dec ((u.conf.get h).windows = (s.conf.get h).windows)) &&
     (let s : State := (fun s : State => { s with conf := s.conf.upd 0 fun c => { c with windows := [(7, [(0, 3)])] } }) (withTask run0 3 { ready 2 with complete := true });
     let h : Half := 0; let u : State := ((s.conf.get h).windows.map (·.1)).foldl (State.checkDomain h) s; dec (s.live (.half h) = true) &&
     dec ((u.conf.get h).windows = (s.conf.get h).windows)) &&
     (let s : State := (fun s : State => { s with conf := s.conf.upd 0 fun c => { c with windows := [(7, [(0, 3)])] } }) (withTask run0 3 { ready 2 with stamp := 999999 });
     let h : Half := 0; let u : State := ((s.conf.get h).windows.map (·.1)).foldl (State.checkDomain h) s; dec (s.live (.half h) = true) &&
     dec ((u.conf.get h).windows = (s.conf.get h).windows))) = true ∧
    (let s : State := (fun s : State => { s with conf := s.conf.upd 0 fun c => { c with windows := [(7, [(0, 3)])] } }) (withTask run0 3 { ready 2 with stamp := 0 });
     let h : Half := 0; let d : Nat := 7; let e : Nat × Nat := (0, 3); let r : List (Nat × Nat) := []; dec (s.live (.half h) = true) &&
     dec ((s.conf.get h).windows = [(d, e :: r)]) && dec ((s.windowTask h e).complete = false) &&
     dec (s.patience h d ≤ s.headWait h (s.windowTask h e).stamp.toNat)) = true ∧
    ((let s : State := (fun s : State => { s with conf := s.conf.upd 0 fun c => { c with windows := [(7, [(0, 3)])] } }) (withTask run0 3 { ready 2 with complete := true });
     let h : Half := 0; let d : Nat := 7; let e : Nat × Nat := (0, 3); let r : List (Nat × Nat) := []; dec (s.live (.half h) = true) &&
     dec ((s.conf.get h).windows = [(d, e :: r)]) &&
     dec ((s.windowTask h e).complete = true ∨ s.headWait h (s.windowTask h e).stamp.toNat < s.patience h d)) &&
     (let s : State := (fun s : State => { s with conf := s.conf.upd 0 fun c => { c with windows := [(7, [(0, 3)])] } }) (withTask run0 3 { ready 2 with stamp := 999999 });
     let h : Half := 0; let d : Nat := 7; let e : Nat × Nat := (0, 3); let r : List (Nat × Nat) := []; dec (s.live (.half h) = true) &&
     dec ((s.conf.get h).windows = [(d, e :: r)]) &&
     dec ((s.windowTask h e).complete = true ∨ s.headWait h (s.windowTask h e).stamp.toNat < s.patience h d))) = true ∧
    (let s : State := (fun s : State => { s with conf := s.conf.upd 0 fun c => { c with windows := [(7, [(0, 3)])] } }) (withTask run0 3 { ready 2 with stamp := 0 });
     let h : Half := 0; let d : Nat := 7; let e : Nat × Nat := (0, 3); let r : List (Nat × Nat) := []; dec (s.domWin h d = e :: r) &&
     dec ((s.windowTask h e).complete = false) && dec (s.patience h d ≤ s.headWait h (s.windowTask h e).stamp.toNat)) = true ∧
    ((let s : State := (fun s : State => { s with conf := s.conf.upd 0 fun c => { c with windows := [(7, [(0, 3)])] } }) (withTask run0 3 { ready 2 with complete := true });
     let h : Half := 0; let d : Nat := 7; let e : Nat × Nat := (0, 3); let r : List (Nat × Nat) := []; dec (s.domWin h d = e :: r) &&
     dec ((s.windowTask h e).complete = true ∨ s.headWait h (s.windowTask h e).stamp.toNat < s.patience h d)) &&
     (let s : State := (fun s : State => { s with conf := s.conf.upd 0 fun c => { c with windows := [(7, [(0, 3)])] } }) (withTask run0 3 { ready 2 with stamp := 999999 });
     let h : Half := 0; let d : Nat := 7; let e : Nat × Nat := (0, 3); let r : List (Nat × Nat) := []; dec (s.domWin h d = e :: r) &&
     dec ((s.windowTask h e).complete = true ∨ s.headWait h (s.windowTask h e).stamp.toNat < s.patience h d))) = true ∧
    (([R.half_OVERTAKEN_PATIENCE, R.half_WINDOW_OVERTAKEN] : List (Nat)).all fun c => let h : Half := 0; let d : Nat := 7;
     let e : Nat × Nat := (0, 3); let r : List (Nat × Nat) := [];
     let s : State := (fun s : State => { s with conf := s.conf.upd 0 fun c => { c with windows := [(7, [(0, 3)])] } }) (withTask run0 3 { ready 2 with stamp := 0 });
     dec (Tbl.wf s.csr = true) && dec (Tbl.wf (s.conf.get h).windows = true) && dec (s.domWin h d = e :: r) &&
     dec (c = R.half_OVERTAKEN_PATIENCE ∨ c = R.half_WINDOW_OVERTAKEN)) = true ∧
    (let s : State := run0; dec (s.dev.loadTick = none)) = true ∧
    (let s : State := { run0 with dev := { run0.dev with loadTick := some (5, 77) } }; let n := 5; let v := (77 : DWord);
     dec (s.dev.loadTick = some (n, v))) = true ∧
    ((let s : State := run0; let h : Half := 0; dec (s.live (.half h) = true) && dec (Tbl.wf s.csr = true)) &&
     (let s : State := (fun s : State => { s with conf := s.conf.upd 0 fun c => { c with windows := [(7, [(0, 3)])] } }) (withTask run0 3 { ready 2 with stamp := 0 });
     let h : Half := 0; dec (s.live (.half h) = true) && dec (Tbl.wf s.csr = true)) &&
     (let s : State := (fun s : State => { s with conf := s.conf.upd 0 fun c => { c with windows := [(7, [(0, 3)])] } }) (withTask run0 3 { ready 2 with complete := true });
     let h : Half := 0; dec (s.live (.half h) = true) && dec (Tbl.wf s.csr = true))) = true := by
  decide +kernel

/-- `OrderRestored`: states and operands that meet the premises of its clauses (OldestLiveIsTheMinimum). -/
theorem test_OldestLiveIsTheMinimum :
    (true) = true := by
  decide +kernel

/-- `ImageSwitchAndServices`: states and operands that meet the premises of its clauses (ImageSwitch). -/
theorem test_ImageSwitch :
    ((let s : State := run0.setReg (bHalf 0) R.half_IMG_SWITCH_AT 1000064; let a : Agent := .privet; let h : Half := 0;
     dec (s.agentReach a (.half h) = true) && dec (s.imgState h = 0) &&
     dec ((s.dts h).toNat + 64 ≤ (s.reg (bHalf h) R.half_IMG_SWITCH_AT).toNat) &&
     dec ((s.reg (bHalf h) R.half_IMG_SWITCH_AT).toNat < 2 ^ 60)) &&
     (let s : State := run0.setReg (bHalf 0) R.half_IMG_SWITCH_AT 0x0FFFFFFFFFFFFFFF; let a : Agent := .privet; let h : Half := 0;
     dec (s.agentReach a (.half h) = true) && dec (s.imgState h = 0) &&
     dec ((s.dts h).toNat + 64 ≤ (s.reg (bHalf h) R.half_IMG_SWITCH_AT).toNat) && dec ((s.reg (bHalf h) R.half_IMG_SWITCH_AT).toNat < 2 ^ 60))) = true ∧
    ((let s : State := run0.setReg (bHalf 0) R.half_IMG_SWITCH_AT 1000063; let a : Agent := .privet; let h : Half := 0;
     dec (s.agentReach a (.half h) = true) &&
     dec (s.imgState h ≠ 0 ∨ (s.reg (bHalf h) R.half_IMG_SWITCH_AT).toNat < (s.dts h).toNat + 64 ∨ 2 ^ 60 ≤ (s.reg (bHalf h) R.half_IMG_SWITCH_AT).toNat)) &&
     (let s : State := run0.setReg (bHalf 0) R.half_IMG_SWITCH_AT 0x1000000000000000; let a : Agent := .privet; let h : Half := 0;
     dec (s.agentReach a (.half h) = true) &&
     dec (s.imgState h ≠ 0 ∨ (s.reg (bHalf h) R.half_IMG_SWITCH_AT).toNat < (s.dts h).toNat + 64 ∨ 2 ^ 60 ≤ (s.reg (bHalf h) R.half_IMG_SWITCH_AT).toNat)) &&
     (let s : State := (run0.setReg (bHalf 0) R.half_IMG_SWITCH_AT 1000064).setRfld (bHalf 0) R.half_IMG_CTL 4 2 1; let a : Agent := .privet;
     let h : Half := 0; dec (s.agentReach a (.half h) = true) &&
     dec (s.imgState h ≠ 0 ∨ (s.reg (bHalf h) R.half_IMG_SWITCH_AT).toNat < (s.dts h).toNat + 64 ∨ 2 ^ 60 ≤ (s.reg (bHalf h) R.half_IMG_SWITCH_AT).toNat))) = true ∧
    (let s : State := run0.setRfld (bHalf 0) R.half_IMG_CTL 4 2 1; let a : Agent := .privet; let h : Half := 0;
     dec (s.agentReach a (.half h) = true) && dec (s.imgState h = 1)) = true ∧
    (let s : State := (run0.setRfld (bHalf 0) R.half_IMG_CTL 4 2 1).updIng 0 fun i => { i with imgNext := 1000000 }; let h : Half := 0;
     dec (Tbl.wf s.csr = true) && dec (s.imgState h = 1) && dec ((s.ing.get h).imgNext.toNat ≤ (s.dts h).toNat)) = true ∧
    (let s : State := run0.setRfld (bHalf 0) R.half_IMG_CTL 4 2 2; let h : Half := 0; dec (Tbl.wf s.csr = true) && dec (s.imgState h = 2) &&
     dec ((s.ing.get h).imgLast.toNat ≤ s.retireBasis h)) = true := by
  decide +kernel

/-- `ImageSwitchAndServices`: states and operands that meet the premises of its clauses (ServiceSlots). -/
theorem test_ServiceSlots :
    (let s : State := (run0.setReg (bTsched 0 0) (R.tsched_SVC_CFG + 8) 1).setReg (bTsched 0 0) (R.tsched_SVC_FLAGS + 8) 4;
     let a : Agent := .privet; let h : Half := 0; let tl : TileIx := 0; let j : Fin 32 := 1; dec (s.agentReach a (.tile h tl) = true) &&
     dec (Tbl.wf s.csr = true) && dec (bit (s.reg (bTsched h tl) (R.tsched_SVC_CFG + 8 * j.val)) 0 = true)) = true ∧
    (let s : State := run0; let h : Half := 0; let tl : TileIx := 0; let j : Fin 32 := 31;
     dec (bit (s.reg (bTsched h tl) (R.tsched_SVC_CFG + 8 * j.val)) 0 = false)) = true ∧
    (let s : State := run0; let a : Agent := .privet; let h : Half := 0; let tl : TileIx := 0; let j : Fin 32 := 31;
     let v : DWord := 0xFFFFFFFFFFFFFFFF; dec (s.agentReach a (.tile h tl) = true) && dec (bit v 0 = true) &&
     dec (bit (s.reg (bTsched h tl) (R.tsched_SVC_CFG + 8 * j.val)) 0 = false)) = true := by
  decide +kernel

/-- `FordTraffic`: states and operands that meet the premises of its clauses (FordMessages). -/
theorem test_FordMessages :
    (let s : State := ford0; let h : Half := 0; dec (s.fordUp h = true)) = true ∧
    (let s : State := ford0; let h : Half := 1; dec (s.fordUp h = true) && dec (s.live (.half h) = true)) = true ∧
    (let s : State := withFord ford0 fun f => { f with noticesIn := [7, 9] }; let h : Half := 0; let v : DWord := 7; let r : List DWord := [9];
     dec ((s.ford.get h).noticesIn = v :: r)) = true ∧
    (let s : State := withFord ford0 fun f => { f with heartbeatsIn := [7, 9] }; let h : Half := 0; let v : DWord := 7;
     let r : List DWord := [9]; dec ((s.ford.get h).heartbeatsIn = v :: r)) = true ∧
    (let s : State := withFord ford0 fun f => { f with fatalIn := true }; let h : Half := 1; dec ((s.ford.get h).fatalIn = true)) = true ∧
    (let s : State := (withFord ford0 fun f => { f with learnIn := [([1], 2, 3)] }).setReg (bTable 0 5) R.learn_LEARN_CFG 1; let h : Half := 0;
     let k : List Byte := [1]; let n : Nat := 2; let p : Nat := 3; let r : List (List Byte × Nat × Nat) := [];
     dec ((s.ford.get h).learnIn = (k, n, p) :: r) && dec (s.learnEn h = true)) = true := by
  decide +kernel

/-- `FordTraffic`: states and operands that meet the premises of its clauses (CrossingRecords). -/
theorem test_CrossingRecords :
    (let s : State := withFord (withChain ford0 chain1) fun f => { f with waiting := [cross1], credits := 3 }; let h : Half := 0;
     let r : CrossRec := cross1; let rest : List CrossRec := []; dec (Tbl.wf s.csr = true) && dec (s.fordUp h = true) &&
     dec ((s.ford.get h).waiting = r :: rest) && dec (r.credits ≤ (s.ford.get h).credits) && dec (s.unreadable h r.chain = false)) = true ∧
    (let s : State := withFord (withChain ford0 { chain1 with broken := true }) fun f => { f with waiting := [cross1], credits := 3 };
     let h : Half := 0; let r : CrossRec := cross1; let rest : List CrossRec := []; dec (s.fordUp h = true) &&
     dec ((s.ford.get h).waiting = r :: rest) && dec (r.credits ≤ (s.ford.get h).credits) && dec (s.unreadable h r.chain = true)) = true ∧
    (let s : State := withFord (withChain ford0 chain1) fun f => { f with waiting := [cross1], credits := 2 }; let h : Half := 0;
     let r : CrossRec := cross1; let rest : List CrossRec := []; dec ((s.ford.get h).waiting = r :: rest) &&
     dec ((s.ford.get h).credits < r.credits)) = true ∧
    (let s : State := withFord ford0 fun f => { f with cellsIn := [cross1] }; let h : Half := 0; let r : CrossRec := cross1;
     let rest : List CrossRec := []; dec (s.live (.buffer h) = true) && dec (s.live (.ford h) = true) && dec ((s.ford.get h).cellsIn = r :: rest)) = true ∧
    (let s : State := withFord ford0 fun f => { f with acksIn := [(4, 2)], credits := 2047 }; let h : Half := 0; let id : Nat := 4;
     let k : Nat := 2; let rest : List (Nat × Nat) := []; dec ((s.ford.get h).acksIn = (id, k) :: rest) &&
     dec (((s.ford.get h).flight.any fun r => r.chain = id) = false)) = true ∧
    (let s : State := withFord (withChain ford0 chain1) fun f => { f with acksIn := [(0, 3)], flight := [cross1], credits := 2 };
     let h : Half := 0; let id : Nat := 0; let k : Nat := 3; let rest : List (Nat × Nat) := []; dec ((s.ford.get h).acksIn = (id, k) :: rest) &&
     dec (((s.ford.get h).flight.any fun r => r.chain = id) = true)) = true := by
  decide +kernel

/-- `FordLinkAndPeer`: states and operands that meet the premises of its clauses (FordLinkWorks). -/
theorem test_FordLinkWorks :
    (let s : State := run0; let h : Half := 0; dec (s.dev.devState ≠ .start) && dec (s.fordTrains = true) && dec ((s.ford.get h).linkUp = false)) = true ∧
    (([[(3, 5), (3, 6), (3, 7)], [(3, 5), (3, 6)], []] : List ((List (Fin 16 × Fin 64)))).all fun l => let s : State := run0; let h : Half := 0;
     let b : Fin 16 := 3; dec (s.dev.devState ≠ .start) && dec (s.fordTrains = true) && dec ((s.ford.get h).linkUp = false) && dec (l.Nodup) &&
     dec (s.bundlesEnabled.testBit b.val = true) && dec ((s.ford.get h).fenced.testBit b.val = false)) = true ∧
    (let s : State := start0.setReg bDevice R.device_START_STAT 9; dec (s.fordTrains = true) && dec (s.dev.devState = .start) &&
     dec (s.startStep = 9)) = true ∧
    (let s : State := ford0; let h : Half := 0; let x : FordFlit := goodFlit0; dec (s.fordUp h = true) &&
     dec ((s.ford.get h).bundlesUp.testBit x.bundle.val = true) && dec ((s.ford.get h).goodFlit x = true)) = true ∧
    (let s : State := ford0; let h : Half := 0; let x : FordFlit := { goodFlit0 with bytes := List.replicate 256 1 }; dec (s.fordUp h = true) &&
     dec ((s.ford.get h).bundlesUp.testBit x.bundle.val = true) && dec ((s.ford.get h).goodFlit x = false) && dec (Tbl.wf s.csr = true)) = true ∧
    (let x : FordFlit := { goodFlit0 with bytes := List.replicate 256 1 }; dec (fordCrcOk x = false)) = true ∧
    (let f : FordState := FordState.reset; let x : FordFlit := goodFlit0; dec (fordCrcOk x = true) && dec (tget? f.headers x.bundle.val = none)) = true ∧
    (let s : State := withFord ford0 fun f => { f with repairing := [(2, 3)] }; let h : Half := 0; dec ((s.ford.get h).linkUp = true) &&
     dec ((s.ford.get h).bundlesUp = 0 ∨ (s.ford.get h).lastGood + 1500 ≤ s.ticks)) = true ∧
    (let s : State := withFord ford0 fun f => { f with lastGood := 998501 }; let h : Half := 0; dec ((s.ford.get h).bundlesUp ≠ 0) &&
     dec (s.ticks < (s.ford.get h).lastGood + 1500)) = true ∧
    (let s : State := ford0; let h : Half := 0; let b : Fin 16 := 15; let l : Nat := 63; let e : Nat := 17; dec (s.fordUp h = true) &&
     dec ((s.ford.get h).bundlesUp.testBit b.val = true) && dec (l < 64) && dec (16 < e)) = true ∧
    (let s : State := ford0; let h : Half := 0; let b : Fin 16 := 15; let l : Nat := 63; let e : Nat := 16; dec (s.fordUp h = true) &&
     dec ((s.ford.get h).bundlesUp.testBit b.val = true) && dec (l < 64) && dec (e ≤ 16) &&
     dec (tget [] (s.ford.get h).laneErrors (64 * b.val + l) = [])) = true ∧
    (let s : State := withFord ford0 fun f => { f with repairing := [(2, 3)] }; let h : Half := 0; let b : Fin 16 := 2; let l : Nat := 3;
     dec ((s.ford.get h).repairing.contains (b.val, l) = true)) = true := by
  decide +kernel

/-- `FordLinkAndPeer`: states and operands that meet the premises of its clauses (PeerLostAndUp). -/
theorem test_PeerLostAndUp :
    (let s : State := withFord ford0 fun f => { f with lastHeartbeat := some 996999 }; let h : Half := 0; dec ((s.ford.get h).peerUp = true) &&
     dec (s.peerOk h = false)) = true ∧
    (let s : State := withFord ford0 fun f => { f with lastHeartbeat := some 997000 }; let h : Half := 0; dec ((s.ford.get h).peerUp = true) &&
     dec (s.peerOk h = true)) = true ∧
    (let s : State := withFord ford0 fun f => { f with peerUp := false }; let h : Half := 0; dec ((s.ford.get h).peerUp = false) &&
     dec (s.peerOk h = true) && dec ((s.ford.get h).lost = false)) = true ∧
    (let s : State := withFord ford0 fun f => { f with peerUp := false, lost := true }; let h : Half := 0;
     dec ((s.ford.get h).peerUp = false) && dec (s.peerOk h = true) && dec ((s.ford.get h).lost = true) && dec (Tbl.wf s.csr = true)) = true ∧
    (let s : State := withFord ford0 fun f => { f with lastHeartbeat := some 996999 }; let h : Half := 0; let t0 : Nat := 996999;
     dec ((s.ford.get h).lastHeartbeat = some t0) && dec (t0 + 3000 < s.ticks)) = true := by
  decide +kernel

/-- `CopiesQueued`: states and operands that meet the premises of its clauses (CopiesAdmitted). -/
theorem test_CopiesAdmitted :
    (let s : State := withBuf (buf0 0xFFFFF000 chain1) fun b => { b with copies := [copy1] }; let h : Half := 0; let c : Copy := copy1;
     let r : List Copy := []; dec ((s.buf.get h).copies = c :: r) && dec (s.live (.buffer h) = true)) = true ∧
    (let s : State := buf0 0xFFFFF000 { chain1 with broken := true }; let h : Half := 0; let c : Copy := copy1;
     dec ((s.chain h c.chain).broken = true)) = true ∧
    ((let s : State := buf0 0xFFFFF000 chain1; let h : Half := 0; let c : Copy := { copy1 with q := 16 };
     dec ((s.chain h c.chain).broken = false) && dec (s.portAccepts h (c.q / 16) = false)) &&
     (let s : State := withBuf (buf0 0xFFFFF000 chain1) fun b => { b with holds := [(0, .hold)] }; let h : Half := 0; let c : Copy := copy1;
     dec ((s.chain h c.chain).broken = false) && dec (s.portAccepts h (c.q / 16) = false))) = true ∧
    (let s : State := withBuf (buf0 0 chain1) fun b => { b with used := [(0, 786432)] }; let h : Half := 0; let c : Copy := copy1;
     dec ((s.chain h c.chain).broken = false) && dec (s.portAccepts h (c.q / 16) = true) && dec ((s.buf.get h).entryCount < entryStore) &&
     dec (bit (s.qcfg h c.q) 8 = false) && dec (s.underThreshold h c.q (depthOf (s.queue h c.q)) (s.chain h c.chain).size = false)) = true ∧
    (let s : State := buf0 0xFFFFF000 { chain1 with mcast := true }; let h : Half := 0; let c : Copy := { copy1 with mcast := true };
     dec ((s.chain h c.chain).broken = false) && dec (s.portAccepts h (c.q / 16) = true) && dec ((s.buf.get h).entryCount < entryStore) &&
     dec (bit (s.qcfg h c.q) 8 = false) && dec (s.underThreshold h c.q (depthOf (s.queue h c.q)) (s.chain h c.chain).size = true) &&
     dec (c.mcast = true)) = true ∧
    (let s : State := withBuf (buf0 0xFFFFF000 chain1) fun b => { b with used := [(0, 786432)] }; let h : Half := 0; let c : Copy := copy1;
     dec ((s.chain h c.chain).broken = false) && dec (s.portAccepts h (c.q / 16) = true) && dec ((s.buf.get h).entryCount < entryStore) &&
     dec (bit (s.qcfg h c.q) 8 = false) && dec (s.underThreshold h c.q (depthOf (s.queue h c.q)) (s.chain h c.chain).size = true) &&
     dec (c.mcast = false) && dec (s.poolFree h (fld (s.qcfg h c.q) 10 2) < (s.chain h c.chain).size)) = true ∧
    ((let s : State := withBuf (buf0 0xFFFFF000 chain1) fun b => { b with copies := [copy1] }; let h : Half := 0; let c : Copy := copy1;
     dec ((s.chain h c.chain).broken = false) && dec (s.portAccepts h (c.q / 16) = true) && dec ((s.buf.get h).entryCount < entryStore) &&
     dec (bit (s.qcfg h c.q) 8 = false) && dec (s.underThreshold h c.q (depthOf (s.queue h c.q)) (s.chain h c.chain).size = true) &&
     dec (c.mcast = false) && dec ((s.chain h c.chain).pool = fld (s.qcfg h c.q) 10 2) &&
     dec ((s.chain h c.chain).size ≤ s.poolFree h (fld (s.qcfg h c.q) 10 2))) && (let s : State := buf0 0x10000 chain1; let h : Half := 0;
     let c : Copy := copy1; dec ((s.chain h c.chain).broken = false) && dec (s.portAccepts h (c.q / 16) = true) &&
     dec ((s.buf.get h).entryCount < entryStore) && dec (bit (s.qcfg h c.q) 8 = false) &&
     dec (s.underThreshold h c.q (depthOf (s.queue h c.q)) (s.chain h c.chain).size = true) && dec (c.mcast = false) &&
     dec ((s.chain h c.chain).pool = fld (s.qcfg h c.q) 10 2) && dec ((s.chain h c.chain).size ≤ s.poolFree h (fld (s.qcfg h c.q) 10 2)))) = true ∧
    (let s : State := buf0 0xFFFFF000 chain1; let h : Half := 0; let c : Copy := copy1; let s1 := s; dec ((s.chain h c.chain).broken = false) &&
     dec (s.portAccepts h (c.q / 16) = true) && dec ((s.buf.get h).entryCount < entryStore) && dec (bit (s.qcfg h c.q) 8 = false) &&
     dec (s.underThreshold h c.q (depthOf (s.queue h c.q)) (s.chain h c.chain).size = true) && dec (c.mcast = false) &&
     dec (s.moveCharge h c.chain (fld (s.qcfg h c.q) 10 2) = (s1, true)) &&
     dec ((s.chain h c.chain).size ≤ s.poolFree h (fld (s.qcfg h c.q) 10 2))) = true := by
  decide +kernel

/-- `CopiesQueued`: states and operands that meet the premises of its clauses (ListsWalked). -/
theorem test_ListsWalked :
    ((let s : State := (withBuf (withChain run0 { chain1 with inPort := 3 }) fun b => { b with walks := [⟨0, 5⟩] }).updTab 0 fun t => { t with repl := [(5, 2 ^ 51 + 2 ^ 48 + 2 ^ 43)] };
     let h : Half := 0; let w : WalkReq := ⟨0, 5⟩; let r : List WalkReq := []; dec ((s.buf.get h).walks = w :: r) &&
     dec (s.live (.buffer h) = true) && dec ((s.replWalk h (s.chain h w.chain) w.list).waits = false) &&
     dec ((s.replWalk h (s.chain h w.chain) w.list).broke = false) && dec (w.list < 131072)) &&
     (let s : State := (withBuf (withChain run0 { chain1 with inPort := 3 }) fun b => { b with walks := [⟨0, 131071⟩] }).updTab 0 fun t => { t with repl := [(131071, 2 ^ 51 + 2 ^ 48 + 2 ^ 43)] };
     let h : Half := 0; let w : WalkReq := ⟨0, 131071⟩; let r : List WalkReq := []; dec ((s.buf.get h).walks = w :: r) &&
     dec (s.live (.buffer h) = true) && dec ((s.replWalk h (s.chain h w.chain) w.list).waits = false) &&
     dec ((s.replWalk h (s.chain h w.chain) w.list).broke = false) && dec (w.list < 131072))) = true ∧
    (let s : State := (withBuf (withChain run0 { chain1 with inPort := 3 }) fun b => { b with walks := [⟨0, 5⟩] }).updTab 0 fun t => { t with withheld := [(9, 5)] };
     let h : Half := 0; let w : WalkReq := ⟨0, 5⟩; let r : List WalkReq := []; dec ((s.buf.get h).walks = w :: r) &&
     dec ((s.replWalk h (s.chain h w.chain) w.list).waits = true)) = true ∧
    (let ts : List Target := List.replicate 512 { port := 3, queue := 0, vidEn := false, vid := 0, crossing := false }; dec (511 < ts.length)) = true := by
  decide +kernel

/-- `CellsGivenBack`: states and operands that meet the premises of its clauses (ChainReleased). -/
theorem test_ChainReleased :
    (let s : State := withChain run0 { chain1 with refcnt := 0 }; let h : Half := 0; let id : Nat := 0;
     let c : Chain := { chain1 with refcnt := 0 }; dec (s.chain? h id = some c) && dec (c.refcnt = 0)) = true ∧
    (let s : State := withChain run0 chain1; let h : Half := 0; let id : Nat := 0; let c : Chain := chain1; dec (s.chain? h id = some c) &&
     dec (c.refcnt = 1) && dec (c.broken = false) && dec (Tbl.wf (s.buf.get h).chains = true)) = true ∧
    (let s : State := withChain run0 { chain1 with refcnt := 2 }; let h : Half := 0; let id : Nat := 0;
     let c : Chain := { chain1 with refcnt := 2 }; dec (s.chain? h id = some c) && dec (1 < c.refcnt) && dec (Tbl.wf (s.buf.get h).chains = true)) = true := by
  decide +kernel

/-- `CellsGivenBack`: states and operands that meet the premises of its clauses (SpillAndSweep). -/
theorem test_SpillAndSweep :
    (let s : State := withBuf (withChain (run0.setReg (bBuffer 0) R.buffer_SPILL_SIZE 4) chain1) fun b => { b with spilled := [(0, [{ spill1 with writing := some 0 }])] };
     let h : Half := 0; let q : Fin 1088 := 0; let x : SpillEntry := { spill1 with writing := some 0 }; let id : Nat := 0;
     let u : State := ((s.used.writeBlocks h (spillImage s.fresh x.frame) x.blocks 0).setSpill h q.val (((s.used.writeBlocks h (spillImage s.fresh x.frame) x.blocks 0).spill h q.val).map fun y => if y.blocks = x.blocks then { y with writing := none } else y)).release h id;
     dec (s.armed = []) && dec ((s.spill h q.val).find? (fun x => x.writing.isSome) = some x) && dec (x.writing = some id) &&
     dec (s.unreadable h id = false) && dec (u.waits = s.waits)) = true ∧
    (let s : State := withBuf (withChain ((gated (hbmOpen run0) 0).setReg (bBuffer 0) R.buffer_SPILL_SIZE 4) chain1) fun b => { b with spilled := [(0, [{ spill1 with writing := some 0 }])] };
     let h : Half := 0; let q : Fin 1088 := 0; let x : SpillEntry := { spill1 with writing := some 0 }; let id : Nat := 0;
     let u : State := ((s.used.writeBlocks h (spillImage s.fresh x.frame) x.blocks 0).setSpill h q.val (((s.used.writeBlocks h (spillImage s.fresh x.frame) x.blocks 0).spill h q.val).map fun y => if y.blocks = x.blocks then { y with writing := none } else y)).release h id;
     dec (s.armed = []) && dec ((s.spill h q.val).find? (fun x => x.writing.isSome) = some x) && dec (x.writing = some id) &&
     dec (s.unreadable h id = false) && dec (u.waits ≠ s.waits)) = true ∧
    (let s : State := withBuf (withChain (run0.setReg (bBuffer 0) R.buffer_SPILL_SIZE 4) { chain1 with broken := true }) fun b => { b with spilled := [(0, [{ spill1 with writing := some 0 }])] };
     let h : Half := 0; let q : Fin 1088 := 0; let x : SpillEntry := { spill1 with writing := some 0 }; let id : Nat := 0;
     let u : State := (s.setSpill h q.val ((s.spill h q.val).filter fun y => y.writing ≠ some id)).errorDrop h h (q.val / 16) id;
     dec (s.armed = []) && dec ((s.spill h q.val).find? (fun x => x.writing.isSome) = some x) && dec (x.writing = some id) &&
     dec (s.unreadable h id = true) && dec (u.waits = s.waits)) = true ∧
    (let s : State := withBuf ((run0.setReg (bBuffer 0) R.buffer_SPILL_SIZE 4).setReg (bBuffer 0) R.buffer_SPILL_CFG 9) fun b => { b with spilled := [(0, [spill1])] };
     let h : Half := 0; let q : Fin 1088 := 0; let x : SpillEntry := spill1; let u : State := s.fillFront h q.val x; dec (s.armed = []) &&
     dec (s.fillable h q.val = some x) && dec (tget? (s.buf.get h).fillRetry q.val = none) && dec (u.waits = s.waits)) = true ∧
    (let s : State := withBuf (((gated (hbmOpen run0) 0).setReg (bBuffer 0) R.buffer_SPILL_SIZE 4).setReg (bBuffer 0) R.buffer_SPILL_CFG 9) fun b => { b with spilled := [(0, [spill1])], fillRetry := [] };
     let h : Half := 0; let q : Fin 1088 := 0; let x : SpillEntry := spill1; let u : State := s.fillFront h q.val x; dec (s.armed = []) &&
     dec (s.fillable h q.val = some x) && dec (tget? (s.buf.get h).fillRetry q.val = none) && dec (u.waits ≠ s.waits)) = true ∧
    (let s : State := withBuf (withBuf ((run0.setReg (bBuffer 0) R.buffer_SPILL_SIZE 4).setReg (bBuffer 0) R.buffer_SPILL_CFG 9) fun b => { b with spilled := [(0, [spill1])] }) fun b => { b with fillRetry := [(0, 1000000)] };
     let h : Half := 0; let q : Fin 1088 := 0; let x : SpillEntry := spill1;
     let u : State := (s.bump (bBuffer h) R.buffer_FILL_RETRIES).fillFront h q.val x; let t : Nat := 1000000; dec (s.armed = []) &&
     dec (s.fillable h q.val = some x) && dec (tget? (s.buf.get h).fillRetry q.val = some t) && dec (t ≤ s.ticks) && dec (u.waits = s.waits)) = true ∧
    (let s : State := withBuf (((gated (hbmOpen run0) 0).setReg (bBuffer 0) R.buffer_SPILL_SIZE 4).setReg (bBuffer 0) R.buffer_SPILL_CFG 9) fun b => { b with spilled := [(0, [spill1])], fillRetry := [(0, 1000000)] };
     let h : Half := 0; let q : Fin 1088 := 0; let x : SpillEntry := spill1;
     let u : State := (s.bump (bBuffer h) R.buffer_FILL_RETRIES).fillFront h q.val x; let t : Nat := 1000000; dec (s.armed = []) &&
     dec (s.fillable h q.val = some x) && dec (tget? (s.buf.get h).fillRetry q.val = some t) && dec (t ≤ s.ticks) && dec (u.waits ≠ s.waits)) = true ∧
    (let s : State := withBuf (run0.setReg (bBuffer 0) R.buffer_SPILL_SIZE 4) fun b => { b with fencedBanks := List.range 96 };
     let h : Half := 0; let q : Nat := 0; let x : SpillEntry := spill1; dec ((x.blocks.any fun i => decide (s.spillSize h ≤ i)) = false) &&
     dec (s.canTake h (fld (s.qcfg h q) 10 2) x.entry.cells = false)) = true ∧
    (let s : State := withChain run0 { chain1 with broken := true }; let h : Half := 0; let cell : Fin 786432 := 0;
     let e : Nat × Chain := (0, { chain1 with broken := true }); dec (s.live (.buffer h) = true) &&
     dec (((s.buf.get h).chains.find? fun e => (e.2.cells ++ e.2.ocells).contains cell.val) = some e) && dec (e.2.broken = true) &&
     dec (s.chainNamed h e.1 = false)) = true ∧
    (let h : Half := 0; let cell : Fin 786432 := 5;
     let s : State := withBuf run0 fun b => { b with lost := [{ cell := 5, owner := 9, next := 5, last := true, pool := 0 }] };
     let x : LostCell := { cell := 5, owner := 9, next := 5, last := true, pool := 0 }; dec (s.live (.buffer h) = true) &&
     dec (s.chainWith h cell.val = none) && dec ((s.buf.get h).lost.find? (fun x => decide (x.cell = cell.val)) = some x)) = true ∧
    ((let s : State := withBuf run0 fun b => { b with lost := [{ cell := 5, owner := 9, next := 5, last := true, pool := 0 }] };
     let h : Half := 0; let x : LostCell := { cell := 5, owner := 9, next := 5, last := true, pool := 0 };
     dec (((s.buf.get h).chains.any fun e => decide (nth 0 e.2.cells 0 = x.owner)) = false)) &&
     (let s : State := withBuf run0 fun b => { b with lost := [{ cell := 5, owner := 9, next := 5, last := true, pool := 0 }, { cell := 6, owner := 9, next := 6, last := true, pool := 0 }] };
     let h : Half := 0; let x : LostCell := { cell := 5, owner := 9, next := 5, last := true, pool := 0 };
     dec (((s.buf.get h).chains.any fun e => decide (nth 0 e.2.cells 0 = x.owner)) = false))) = true ∧
    ((let s : State := withChain run0 chain1; let h : Half := 0; let cell : Fin 786432 := 0; let e : Nat × Chain := (0, chain1);
     dec (s.live (.buffer h) = true) && dec (((s.buf.get h).chains.find? fun e => (e.2.cells ++ e.2.ocells).contains cell.val) = some e) &&
     dec (e.2.broken = false ∨ s.chainNamed h e.1 = true)) &&
     (let s : State := withBuf (withChain run0 { chain1 with broken := true }) fun b => { b with walks := [⟨0, 5⟩] }; let h : Half := 0;
     let cell : Fin 786432 := 0; let e : Nat × Chain := (0, { chain1 with broken := true }); dec (s.live (.buffer h) = true) &&
     dec (((s.buf.get h).chains.find? fun e => (e.2.cells ++ e.2.ocells).contains cell.val) = some e) &&
     dec (e.2.broken = false ∨ s.chainNamed h e.1 = true))) = true := by
  decide +kernel

/-- `CellsGivenBack`: states and operands that meet the premises of its clauses (HeldPortsFlushed). -/
theorem test_HeldPortsFlushed :
    (let s : State := withBuf run0 fun b => { b with holds := [(0, .hold)], holdEnd := [(0, 1000000)] }; let h : Half := 0; let p : Fin 68 := 0;
     dec (s.hold h p.val = .hold) && dec (tget 0 (s.buf.get h).holdEnd p.val ≤ s.ticks) && dec (s.portUp h p.val = false)) = true ∧
    (let s : State := run0; let h : Half := 0; let p : Fin 68 := 67; dec (s.hold h p.val ≠ .hold)) = true ∧
    (let s : State := withBuf (withChain run0 chain1) fun b => { b with holds := [(0, .flushing)], queues := [(1, [qe])] }; let h : Half := 0;
     let p : Fin 68 := 0; let q : Nat := 1; let e : QEntry := qe; let r : List QEntry := []; dec (s.hold h p.val = .flushing) &&
     dec (s.live (.buffer h) = true) && dec ((((classesOf p.val).flatMap queuesOf).find? fun q => !(s.queue h q).isEmpty) = some q) &&
     dec (s.queue h q = e :: r)) = true ∧
    (let s : State := withBuf run0 fun b => { b with holds := [(0, .flushing)] }; let h : Half := 0; let lp : Nat := 0;
     dec (s.hold h lp = .flushing) && dec (s.portEmpty h lp = true)) = true := by
  decide +kernel

/-- `FramesLeave`: states and operands that meet the premises of its clauses (FrameSelected). -/
theorem test_FrameSelected :
    (let s : State := withBuf (withChain port0 { chain1 with bytes := List.replicate 10300 0 }) fun b => { b with queues := [(0, [qe])] };
     let h : Half := 0; let p : Fin 68 := 0; let r : State := s.schedRefresh h p.val (s.nonEmpty h p.val); let k : Nat := 0; let q : Nat := 0;
     let e : QEntry := qe; let rest : List QEntry := []; dec (s.armed = []) && dec (s.live (.sched h) = true) &&
     dec (r.portReady h p.val = true) && dec (r.pickClass h p.val = some k) && dec (r.pickQueue h k = some q) &&
     dec (r.queue h q = e :: rest) && (!dec (64 ≤ p.val) || (dec (r.vportReady h p.val e.chain = true))) && dec (r.chainBad h e.chain = true)) = true ∧
    ((let s : State := withBuf (withChain port0 chain1) fun b => { b with queues := [(0, [qe])] }; let h : Half := 0; let p : Fin 68 := 0;
     let r : State := s.schedRefresh h p.val (s.nonEmpty h p.val); let k : Nat := 0; let q : Nat := 0; let e : QEntry := qe;
     let rest : List QEntry := []; dec (s.armed = []) && dec (s.live (.sched h) = true) && dec (r.portReady h p.val = true) &&
     dec (r.pickClass h p.val = some k) && dec (r.pickQueue h k = some q) && dec (r.queue h q = e :: rest) &&
     (!dec (64 ≤ p.val) || (dec (r.vportReady h p.val e.chain = true))) && dec (r.chainBad h e.chain = false) &&
     dec (loutOf p.val (r.chain h e.chain).outLen ≤ r.egressMax h p.val)) &&
     (let s : State := withBuf (withChain run0 chain1) fun b => { b with queues := [(1056, [qe])] }; let h : Half := 0; let p : Fin 68 := 66;
     let r : State := s.schedRefresh h p.val (s.nonEmpty h p.val); let k : Nat := 264; let q : Nat := 1056; let e : QEntry := qe;
     let rest : List QEntry := []; dec (s.armed = []) && dec (s.live (.sched h) = true) && dec (r.portReady h p.val = true) &&
     dec (r.pickClass h p.val = some k) && dec (r.pickQueue h k = some q) && dec (r.queue h q = e :: rest) &&
     (!dec (64 ≤ p.val) || (dec (r.vportReady h p.val e.chain = true))) && dec (r.chainBad h e.chain = false) &&
     dec (loutOf p.val (r.chain h e.chain).outLen ≤ r.egressMax h p.val))) = true ∧
    (let s : State := withBuf (withChain port0 { chain1 with bytes := List.replicate 10300 0, cells := List.range 81 }) fun b => { b with queues := [(0, [qe])] };
     let h : Half := 0; let p : Fin 68 := 0; let r : State := s.schedRefresh h p.val (s.nonEmpty h p.val); let k : Nat := 0; let q : Nat := 0;
     let e : QEntry := qe; let rest : List QEntry := []; dec (s.armed = []) && dec (s.live (.sched h) = true) &&
     dec (r.portReady h p.val = true) && dec (r.pickClass h p.val = some k) && dec (r.pickQueue h k = some q) &&
     dec (r.queue h q = e :: rest) && (!dec (64 ≤ p.val) || (dec (r.vportReady h p.val e.chain = true))) &&
     dec (r.chainBad h e.chain = false) && dec (r.egressMax h p.val < loutOf p.val (r.chain h e.chain).outLen)) = true ∧
    (let s : State := withBuf (withChain (run0.updIng 0 fun i => { i with inject := List.replicate injectDepth rx0 }) chain1) fun b => { b with queues := [(1056, [qe])] };
     let h : Half := 0; let p : Fin 68 := 66; let r : State := s.schedRefresh h p.val (s.nonEmpty h p.val); let k : Nat := 264;
     let q : Nat := 1056; let e : QEntry := qe; let rest : List QEntry := []; dec (s.armed = []) && dec (s.live (.sched h) = true) &&
     dec (r.pickClass h p.val = some k) && dec (r.pickQueue h k = some q) && dec (r.queue h q = e :: rest) && dec (64 ≤ p.val) &&
     dec (r.vportReady h p.val e.chain = false)) = true ∧
    ((let s : State := withBuf (withChain port0 chain1) fun b => { b with queues := [(0, [qe])] }; let h : Half := 0;
     dec (Tbl.wf (s.sched.get h).sel = true)) && (let s : State := withBuf (withChain run0 chain1) fun b => { b with queues := [(1040, [qe])] };
     let h : Half := 0; dec (Tbl.wf (s.sched.get h).sel = true)) &&
     (let s : State := withBuf (withChain port0 { chain1 with bytes := List.replicate 10300 0 }) fun b => { b with queues := [(0, [qe])] };
     let h : Half := 0; dec (Tbl.wf (s.sched.get h).sel = true))) = true := by
  decide +kernel

/-- `FramesLeave`: states and operands that meet the premises of its clauses (FrameRewritten). -/
theorem test_FrameRewritten :
    (let s : State := withSel (withChain port0 chain1) 0 sel1; let h : Half := 0; let p : Fin 68 := 0; let f : Sel := sel1;
     dec (s.live (.sched h) = true) && dec ((s.sels h p.val).find? Sel.raw = some f) && dec (s.unreadable h f.entry.chain = false)) = true ∧
    (let s : State := withBuf (withSel (withChain port0 chain1) 0 sel1) fun b => { b with badCells := [0] }; let h : Half := 0;
     let p : Fin 68 := 0; let f : Sel := sel1; dec (s.live (.sched h) = true) && dec ((s.sels h p.val).find? Sel.raw = some f) &&
     dec (s.unreadable h f.entry.chain = true)) = true ∧
    (let s : State := withBuf (withChain port0 chain1) fun b => { b with badCells := [0] }; let h : Half := 0; let id : Nat := 0;
     dec (s.chainUncorrectable h id = true) && dec (s.chainBad h id = false)) = true ∧
    (let e : QEntry := qe; dec (e.vidEn = false) && dec (e.ce = false)) = true := by
  decide +kernel

/-- `FramesLeave`: states and operands that meet the premises of its clauses (FrameLeaves). -/
theorem test_FrameLeaves :
    (let s : State := withSel (withChain port0 chain1) 0 { sel1 with bytes := some (List.replicate 60 1) }; let h : Half := 0;
     let p : Fin 68 := 0; let f : Sel := { sel1 with bytes := some (List.replicate 60 1) }; dec (p.val < 64) &&
     dec (s.live (.sched h) = true) && dec (s.portUp h p.val = true) && dec (((s.sels h p.val).any fun f => f.started && !f.ended) = false) &&
     dec ((s.sels h p.val).find? Sel.made = some f) && dec (s.pfcDue h p.val = false) && dec (s.unreadable h f.entry.chain = false) &&
     dec ((parseODesc (s.chain h f.entry.chain).odesc).ops.find? EditOp.ptp = none)) = true ∧
    (let s : State := withBuf (withSel (withChain port0 chain1) 0 { sel1 with bytes := some (List.replicate 60 1) }) fun b => { b with badCells := [0] };
     let h : Half := 0; let p : Fin 68 := 0; let f : Sel := { sel1 with bytes := some (List.replicate 60 1) }; dec (p.val < 64 ∨ 66 ≤ p.val) &&
     dec (s.live (.sched h) = true) && dec (s.portUp h p.val = true) && dec (((s.sels h p.val).any fun f => f.started && !f.ended) = false) &&
     dec ((s.sels h p.val).find? Sel.made = some f) && dec (s.pfcDue h p.val = false) && dec (s.unreadable h f.entry.chain = true)) = true ∧
    (let s : State := port0.updIng 0 fun i => { i with pfcXoff := [(0, 3)] }; let h : Half := 0; let p : Fin 68 := 0;
     dec (s.pfcDue h p.val = true)) = true ∧
    (let s : State := withSel (withChain port0 chain1) 0 { sel1 with bytes := some (List.replicate 64 1), started := true }; let h : Half := 0;
     let p : Fin 68 := 0; let f : Sel := { sel1 with bytes := some (List.replicate 64 1), started := true };
     dec ((s.sels h p.val).find? Sel.reading = some f) && dec (s.unreadable h f.entry.chain = false)) = true ∧
    (let s : State := withBuf (withSel (withChain port0 chain1) 0 { sel1 with bytes := some (List.replicate 64 1), started := true }) fun b => { b with badCells := [0] };
     let h : Half := 0; let p : Fin 68 := 0; let f : Sel := { sel1 with bytes := some (List.replicate 64 1), started := true };
     dec ((s.sels h p.val).find? Sel.reading = some f) && dec (s.chainUncorrectable h f.entry.chain = true)) = true ∧
    (let s : State := withSel (withChain port0 { chain1 with broken := true }) 0 { sel1 with bytes := some (List.replicate 64 1), started := true };
     let h : Half := 0; let p : Fin 68 := 0; let f : Sel := { sel1 with bytes := some (List.replicate 64 1), started := true };
     dec ((s.sels h p.val).find? Sel.reading = some f) && dec (s.chainUncorrectable h f.entry.chain = false) &&
     dec (s.chainBad h f.entry.chain = true)) = true ∧
    (let f : Sel := { sel1 with bytes := some ([1, 2] ++ leBytes 4 9) }; let lp : Nat := 0; let g : List Byte := [1, 2]; let w : Nat := 9;
     dec (lp < 64) && dec (f.stomp = false) && dec (f.bytes = some (g ++ leBytes 4 w))) = true ∧
    (let p : Fin 68 := 0; dec (p.val ≠ 67)) = true ∧
    (let s : State := withSel (withChain run0 chain1) 65 { sel1 with bytes := some (List.replicate 60 1) }; let h : Half := 0;
     let f : Sel := { sel1 with bytes := some (List.replicate 60 1) };
     let r : RingFrame := ⟨f.q - 16 * 65, (s.chain h f.entry.chain).late, (s.chain h f.entry.chain).crossed, (s.chain h f.entry.chain).inPort, (s.chain h f.entry.chain).stamp.toNat, f.bytes.getD []⟩;
     let t : State := (((s.firstBit h 65 f).updPv fun x => { x with p129 := x.p129.upd h fun y => y.put r (s.dts h).toNat }).setSels h 65 (dropFirstSel Sel.made ((s.firstBit h 65 f).sels h 65))).release h f.entry.chain;
     dec (s.armed = []) && dec (s.live (.sched h) = true) && dec ((s.sels h 65).find? Sel.made = some f) &&
     dec (s.unreadable h f.entry.chain = false) && dec (t.waits = s.waits)) = true ∧
    (let s : State := withSel (withChain run0 chain1) 64 { sel1 with bytes := some (List.replicate 60 1) }; let h : Half := 0;
     let f : Sel := { sel1 with bytes := some (List.replicate 60 1) };
     let r : RingFrame := ⟨f.q - 16 * 64, (s.chain h f.entry.chain).late, (s.chain h f.entry.chain).crossed, (s.chain h f.entry.chain).inPort, (s.chain h f.entry.chain).stamp.toNat, f.bytes.getD []⟩;
     let t : State := (((s.firstBit h 64 f).ringPut h 0 ⟨.sched, srcTelem, false⟩ r).setSels h 64 (dropFirstSel Sel.made (((s.firstBit h 64 f).ringPut h 0 ⟨.sched, srcTelem, false⟩ r).sels h 64))).release h f.entry.chain;
     dec (s.armed = []) && dec (s.live (.sched h) = true) && dec ((s.sels h 64).find? Sel.made = some f) &&
     dec (s.unreadable h f.entry.chain = false) && dec (t.waits = s.waits)) = true ∧
    (let s : State := withSel (withChain (gated (hbmOpen run0) 0) chain1) 64 { sel1 with bytes := some (List.replicate 60 1) };
     let h : Half := 0; let f : Sel := { sel1 with bytes := some (List.replicate 60 1) };
     let r : RingFrame := ⟨f.q - 16 * 64, (s.chain h f.entry.chain).late, (s.chain h f.entry.chain).crossed, (s.chain h f.entry.chain).inPort, (s.chain h f.entry.chain).stamp.toNat, f.bytes.getD []⟩;
     let t : State := (((s.firstBit h 64 f).ringPut h 0 ⟨.sched, srcTelem, false⟩ r).setSels h 64 (dropFirstSel Sel.made (((s.firstBit h 64 f).ringPut h 0 ⟨.sched, srcTelem, false⟩ r).sels h 64))).release h f.entry.chain;
     dec (s.armed = []) && dec (s.live (.sched h) = true) && dec ((s.sels h 64).find? Sel.made = some f) &&
     dec (s.unreadable h f.entry.chain = false) && dec (t.waits ≠ s.waits)) = true ∧
    ((let s : State := withSel (withChain run0 { chain1 with broken := true }) 65 { sel1 with bytes := some (List.replicate 60 1) };
     let h : Half := 0; let v : Fin 2 := 1; let f : Sel := { sel1 with bytes := some (List.replicate 60 1) };
     let t := (s.setSels h (64 + v.val) (dropFirstSel Sel.made (s.sels h (64 + v.val)))).errorDrop h h (64 + v.val) f.entry.chain;
     dec (s.armed = []) && dec (s.live (.sched h) = true) && dec ((s.sels h (64 + v.val)).find? Sel.made = some f) &&
     dec (s.unreadable h f.entry.chain = true) && dec (t.waits = s.waits)) &&
     (let s : State := withBuf (withSel (withChain run0 chain1) 64 { sel1 with bytes := some (List.replicate 60 1) }) fun b => { b with badCells := [0] };
     let h : Half := 0; let v : Fin 2 := 0; let f : Sel := { sel1 with bytes := some (List.replicate 60 1) };
     let t := (s.setSels h (64 + v.val) (dropFirstSel Sel.made (s.sels h (64 + v.val)))).errorDrop h h (64 + v.val) f.entry.chain;
     dec (s.armed = []) && dec (s.live (.sched h) = true) && dec ((s.sels h (64 + v.val)).find? Sel.made = some f) &&
     dec (s.unreadable h f.entry.chain = true) && dec (t.waits = s.waits))) = true := by
  decide +kernel

/-- `FramesLeave`: states and operands that meet the premises of its clauses (LinksAndRefills). -/
theorem test_LinksAndRefills :
    (let s : State := run0.setReg (bPort 0) R.port_MAC_CFG 0x1F000000; let p : PortIx := 0; dec (Tbl.wf s.csr = true) &&
     dec (s.live (.port p) = true) && dec (s.linkUp p = false) && dec (s.rfld (bPort p) R.port_MAC_CFG 24 5 ≠ 0) &&
     dec (s.pv.ioLost.contains (portPll p) = false) && dec (s.badPortCfg p = true)) = true ∧
    ((let s : State := run0.setReg (bPort 0) R.port_MAC_CFG 0x0000000401000000; let p : PortIx := 0; dec (Tbl.wf s.csr = true) &&
     dec (s.live (.port p) = true) && dec (s.linkUp p = false) && dec (s.rfld (bPort p) R.port_MAC_CFG 24 5 ≠ 0) &&
     dec (s.pv.ioLost.contains (portPll p) = false) && dec (s.badPortCfg p = false)) &&
     (let s : State := run0.setReg (bPort 0) R.port_MAC_CFG 0x0000000301000000; let p : PortIx := 0; dec (Tbl.wf s.csr = true) &&
     dec (s.live (.port p) = true) && dec (s.linkUp p = false) && dec (s.rfld (bPort p) R.port_MAC_CFG 24 5 ≠ 0) &&
     dec (s.pv.ioLost.contains (portPll p) = false) && dec (s.badPortCfg p = false)) &&
     (let s : State := run0.setReg (bPort 0) R.port_MAC_CFG 0x0000000001000000; let p : PortIx := 0; dec (Tbl.wf s.csr = true) &&
     dec (s.live (.port p) = true) && dec (s.linkUp p = false) && dec (s.rfld (bPort p) R.port_MAC_CFG 24 5 ≠ 0) &&
     dec (s.pv.ioLost.contains (portPll p) = false) && dec (s.badPortCfg p = false))) = true ∧
    ((let s : State := run0.setReg (bPort 0) R.port_MAC_CFG 0x0000000301000000; let p : PortIx := 0; dec (Tbl.wf s.csr = true) &&
     dec (s.live (.port p) = true) && dec (s.linkUp p = false) && dec (s.rfld (bPort p) R.port_MAC_CFG 24 5 ≠ 0) &&
     dec (s.pv.ioLost.contains (portPll p) = false) && dec (s.badPortCfg p = false) && dec (bit (s.reg (bPort p) R.port_MAC_CFG) 34 = false) &&
     dec ((s.lanesOn p true).isEmpty = false)) && (let s : State := run0.setReg (bPort 0) R.port_MAC_CFG 0x0000000001000000;
     let p : PortIx := 0; dec (Tbl.wf s.csr = true) && dec (s.live (.port p) = true) && dec (s.linkUp p = false) &&
     dec (s.rfld (bPort p) R.port_MAC_CFG 24 5 ≠ 0) && dec (s.pv.ioLost.contains (portPll p) = false) && dec (s.badPortCfg p = false) &&
     dec (bit (s.reg (bPort p) R.port_MAC_CFG) 34 = false) && dec ((s.lanesOn p true).isEmpty = false))) = true ∧
    (let s : State := port0; let p : PortIx := 0; dec (s.linkUp p = true) && dec (Tbl.wf s.csr = true)) = true ∧
    (let s : State := run0; let p : PortIx := 127; dec (s.linkUp p = false)) = true ∧
    (let s : State := run0; let p : PortIx := 0; dec (Tbl.wf s.csr = true) && dec (s.ustate (.port p) = .active)) = true ∧
    (let i : Fin 1088 := 1087; dec (i.val < 1088)) = true := by
  decide +kernel

/-- `CommitsApply`: states and operands that meet the premises of its clauses (CommitsStart). -/
theorem test_CommitsStart :
    (let s : State := run0; let a : Agent := .privet; let u : UnitId := .table 0 0; dec (s.agentReach a u = true) &&
     dec (unitPresent u = true) && dec ((s.commits.all fun c => !(c.todo.isEmpty && c.waiting.isEmpty)) = true)) = true ∧
    (let s : State := run0.setReg (ownBlk (.table 0 0)) R.ucb_COMMIT_AT 1000001; let a : Agent := .privet; let u : UnitId := .table 0 0;
     dec (s.agentReach a u = true) && dec ((s.dtsOf u).toNat < (s.reg (ownBlk u) R.ucb_COMMIT_AT).toNat) && dec (Tbl.wf s.units = true)) = true ∧
    (let s : State := run0.setReg (ownBlk (.table 0 0)) R.ucb_COMMIT_AT 1000000; let a : Agent := .privet; let u : UnitId := .table 0 0;
     dec (s.agentReach a u = true) && dec ((s.reg (ownBlk u) R.ucb_COMMIT_AT).toNat ≤ (s.dtsOf u).toNat)) = true ∧
    (let s : State := run0.updUnit (.table 0 0) fun d => { d with armed := true }; let a : Agent := .privet; let u : UnitId := .table 0 0;
     dec (s.agentReach a u = true) && dec (Tbl.wf s.units = true)) = true ∧
    (let s : State := run0; let a : Agent := .privet; let u : UnitId := .table 0 0; dec (s.agentReach a u = true) && dec (Tbl.wf s.csr = true)) = true ∧
    (let s : State := (run0.setReg (ownBlk (.table 0 0)) R.ucb_COMMIT_AT 1000000).updUnit (.table 0 0) fun d => { d with armed := true };
     let u : UnitId := .table 0 0; dec ((s.unit u).armed = true) && dec ((s.reg (ownBlk u) R.ucb_COMMIT_AT).toNat ≤ (s.dtsOf u).toNat)) = true ∧
    ((let s : State := run0; let u : UnitId := .table 0 0; dec ((s.unit u).armed = false)) &&
     (let s : State := run0.setReg (ownBlk (.table 0 0)) R.ucb_COMMIT_AT 1000001; let u : UnitId := .table 0 0;
     dec ((s.unit u).armed = false)) && (let s : State := run0.setReg (ownBlk (.table 0 0)) R.ucb_COMMIT_AT 1000000;
     let u : UnitId := .table 0 0; dec ((s.unit u).armed = false))) = true := by
  decide +kernel

/-- `CommitsApply`: states and operands that meet the premises of its clauses (CommitsReachAndApply). -/
theorem test_CommitsReachAndApply :
    (let s : State := { run0 with commits := [⟨.table 0 0, [.table 0 0], [], []⟩] }; let u : UnitId := .table 0 0;
     let c : CommitRec := ⟨.table 0 0, [.table 0 0], [], []⟩; dec (s.commits = [c]) && dec (c.todo.contains u = true) && dec (s.ustate u ≠ .off)) = true ∧
    (let s : State := inState ({ run0 with commits := [⟨.table 0 0, [.table 0 0], [], []⟩] }) (.table 0 0) .off; let u : UnitId := .table 0 0;
     let c : CommitRec := ⟨.table 0 0, [.table 0 0], [], []⟩; dec (s.commits = [c]) && dec (c.todo = [u]) && dec (c.waiting = []) &&
     dec (s.ustate u = .off)) = true ∧
    (let s : State := { run0 with commits := [⟨.table 0 0, [], [.table 0 0], []⟩] }; let u : UnitId := .table 0 0;
     dec ((s.commits.any fun c => c.waiting.contains u) = true) && dec ((s.towardsSafe u).atSafePoint u = true) && dec (∀ h, u ≠ .sched h) &&
     dec (Tbl.wf s.units = true)) = true ∧
    (let s : State := { (port0.updIng 0 fun i => { i with arriving := [(0, rx 5)] }) with commits := [⟨.port 0, [], [.port 0], []⟩] };
     let u : UnitId := .port 0; dec ((s.towardsSafe u).atSafePoint u = false)) = true ∧
    (let u : UnitId := .table 0 0; dec (∀ p, u ≠ .port p)) = true ∧
    (let s : State := { (port0.updIng 0 fun i => { i with arriving := [(0, rx0)] }) with commits := [⟨.port 0, [], [.port 0], []⟩] };
     let p : PortIx := 0; let rx : Bool := false; dec (s.sideIdle p rx = true)) = true ∧
    (let s : State := { (port0.updIng 0 fun i => { i with arriving := [(0, rx0)] }) with commits := [⟨.port 0, [], [.port 0], []⟩] };
     let p : PortIx := 0; let rx : Bool := true; dec (s.live (.port p) = true) && dec (s.sideIdle p rx = false)) = true := by
  decide +kernel

/-- `CommitsApply`: states and operands that meet the premises of its clauses (CommitCopiesStagedFields). -/
theorem test_CommitCopiesStagedFields :
    (let s : State := { run0 with staged := [((bBuffer 0).base + 0x100, 77)] }; let u : UnitId := .buffer 0; let v : UnitId := .buffer 0;
     let b : Blk := bBuffer 0; let off : Nat := 0x100; let i : Nat := ((findRow (blkRows .buffer 0x100) 0x100).getD (⟨0, 0, 0, []⟩, 0)).2;
     let r : RegRow := ((findRow (blkRows .buffer 0x100) 0x100).getD (⟨0, 0, 0, []⟩, 0)).1; dec (∀ h, u ≠ .sched h) && dec (b.kind ≠ .ford) &&
     dec (Tbl.wf s.csr = true) && dec (Tbl.wf s.staged = true) && dec (blkAt (b.base + off) = some (v, b)) &&
     dec (findRow (blkRows b.kind off) off = some (r, i))) = true := by
  decide +kernel

/-- `UnitTransitions`: states and operands that meet the premises of its clauses (RequestsTaken). -/
theorem test_RequestsTaken :
    (let s : State := run0; let a : Agent := .privet; let u : UnitId := .table 0 0; dec (s.agentReach a u = true) &&
     dec (s.requestOpen a u = true) && dec (s.boundByParent u = false) && dec (s.ustate u = .test ∨ s.ustate u = .active)) = true ∧
    (let s : State := inState run0 (.table 0 0) .fenced; let a : Agent := .privet; let u : UnitId := .table 0 0;
     dec (s.agentReach a u = true) && dec (s.requestOpen a u = true) && dec (s.boundByParent u = false) && dec (s.ustate u = .fenced) &&
     dec (s.heldFenced u = false)) = true ∧
    (let s : State := inState run0 (.table 0 0) .reset; let a : Agent := .privet; let u : UnitId := .table 0 0; dec (s.agentReach a u = true) &&
     dec (s.requestOpen a u = true) && dec (s.boundByParent u = false) && dec (s.ustate u = .reset ∨ s.ustate u = .active)) = true ∧
    (let s : State := inState run0 (.table 0 0) .test; let a : Agent := .privet; let u : UnitId := .table 0 0; dec (s.agentReach a u = true) &&
     dec (s.requestOpen a u = true) && dec (s.boundByParent u = false) && dec (s.ustate u = .reset ∨ s.ustate u = .test) &&
     dec (s.parentState u = .active)) = true ∧
    ((([.table 0 0, .tile 0 0] : List (UnitId)).all fun u => let s : State := run0; let a : Agent := .privet; dec (s.agentReach a u = true) &&
     dec (s.requestOpen a u = true) && dec (s.boundByParent u = false) && dec (s.ustate u = .test ∨ s.ustate u = .active)) &&
     (let s : State := inState run0 (.table 0 0) .test; let a : Agent := .privet; let u : UnitId := .table 0 0; dec (s.agentReach a u = true) &&
     dec (s.requestOpen a u = true) && dec (s.boundByParent u = false) && dec (s.ustate u = .test ∨ s.ustate u = .active))) = true ∧
    (let s : State := run0; let a : Agent := .privet; let u : UnitId := .tile 0 0; dec (s.agentReach a u = true) &&
     dec (s.requestOpen a u = true) && dec (s.boundByParent u = false) &&
     dec (s.ustate u = .reset ∨ s.ustate u = .test ∨ s.ustate u = .active) && dec (mayBeOff u = true)) = true ∧
    (let s : State := run0; let a : Agent := .privet; let u : UnitId := .half 0; dec (s.agentReach a u = true) &&
     dec (s.requestOpen a u = true) && dec (s.boundByParent u = false) && dec (s.ustate u = .active)) = true ∧
    (let s : State := run0; let a : Agent := .privet; let u : UnitId := .device; dec (s.requestOpen a u = false)) = true ∧
    (let u : UnitId := .table 0 0; dec (mayBeOff u = false)) = true ∧
    (let s : State := inState run0 (.table 0 0) .off; let u : UnitId := .table 0 0; dec (s.ustate u = .fenced ∨ s.ustate u = .off)) = true := by
  decide +kernel

/-- `UnitTransitions`: states and operands that meet the premises of its clauses (TransitionsComplete). -/
theorem test_TransitionsComplete :
    (let s : State := inState run0 (.table 0 3) .reset; let h : Half := 0; let n : Fin 8 := 3; dec (Tbl.wf s.units = true) &&
     dec (s.ustate (.table h n) = .reset)) = true ∧
    (let s : State := run0.updUnit (.core 0 0 0 0) fun d => { d with entering := some (.fenced, 9) }; let h : Half := 0; let t : TileIx := 0;
     let c : Fin 4 := 0; let k : Fin 4 := 0; let dest : UState := .fenced; let cause : BitVec 8 := 9; dec (Tbl.wf s.units = true) &&
     dec ((s.unit (.core h t c k)).entering = some (dest, cause)) && dec (((ancestors (.core h t c k)).any s.entering) = false) &&
     dec (s.entering (.privet 0) = false)) = true ∧
    (let s : State := run0.updUnit (.core 0 0 0 0) fun d => { d with entering := some (.fenced, 9) }; let u : UnitId := .core 0 0 0 0;
     dec (s.entering u = true) && dec (((ancestors u).any s.entering) = false) && dec (s.entering (.privet 0) = false)) = true ∧
    (let s : State := run0; let u : UnitId := .table 0 0; dec (s.entering u = false)) = true := by
  decide +kernel

/-- `UnitTransitions`: states and operands that meet the premises of its clauses (DeviceState). -/
theorem test_DeviceState :
    ((let s : State := start0.setRfld bDevice R.device_START_STAT 0 8 13; dec (s.startDone = true ∨ s.dev.devState = .recovery)) &&
     (let s : State := { run0 with dev := { run0.dev with devState := .recovery } }; dec (s.startDone = true ∨ s.dev.devState = .recovery))) = true ∧
    (let s : State := run0; dec (s.dev.devState = .run)) = true ∧
    (let a : Agent := .jtag; dec (a ≠ .privet)) = true ∧
    (let s : State := start0; let a : Agent := .control 0 0; dec (s.agentReach a .device = true) && dec (s.agentOk a .device = true) &&
     dec (s.dev.devState = .start)) = true ∧
    (let s : State := run0; dec (s.dev.devState ≠ .start)) = true := by
  decide +kernel

/-- `RegisterAccess`: states and operands that meet the premises of its clauses (HolesReported). -/
theorem test_HolesReported :
    (([0x000D0000, 0x11900000, 0x10070000] : List ((BitVec 32))).all fun addr => let s : State := run0; let a : Agent := .privet;
     dec (blkAt addr.toNat = none) && dec (s.agentReach a (enclosing addr.toNat) = true)) = true ∧
    (([0x000D0000, 0x11900000, 0x10070000] : List ((BitVec 32))).all fun addr => let s : State := run0; let a : Agent := .privet;
     dec (blkAt addr.toNat = none) && dec (s.agentReach a (enclosing addr.toNat) = true)) = true ∧
    (([(0x10200144, 8), (0x10200142, 4), (0x10200140, 2),
         (0x10200140, 1)] : List ((BitVec 32) × Nat)).all fun (addr, w) => let s : State := run0; let a : Agent := .privet;
     let u : UnitId := .buffer 0; let b : Blk := bBuffer 0; dec (blkAt addr.toNat = some (u, b)) && dec (s.agentReach a u = true) &&
     dec (w ≠ 8 ∨ addr.toNat % 8 ≠ 0) && dec (w ≠ 4 ∨ addr.toNat % 4 ≠ 0)) = true ∧
    (([(0x10200144, 8), (0x10200142, 4), (0x10200140, 2),
         (0x10200140, 1)] : List ((BitVec 32) × Nat)).all fun (addr, w) => let s : State := run0; let a : Agent := .privet;
     let u : UnitId := .buffer 0; let b : Blk := bBuffer 0; dec (blkAt addr.toNat = some (u, b)) && dec (s.agentReach a u = true) &&
     dec (w ≠ 8 ∨ addr.toNat % 8 ≠ 0) && dec (w ≠ 4 ∨ addr.toNat % 4 ≠ 0)) = true := by
  decide +kernel

/-- `RegisterAccess`: states and operands that meet the premises of its clauses (StagedWrites). -/
theorem test_StagedWrites :
    ((let s : State := run0; let a : Agent := .privet; let addr : BitVec 32 := 0x10208100; let u : UnitId := .buffer 0;
     let b : Blk := bBuffer 0; let off : Nat := 0x100; let r : RegRow := ((findRow (blkRows .buffer off) off).getD (⟨0, 0, 0, []⟩, 0)).1;
     let i : Nat := ((findRow (blkRows .buffer off) off).getD (⟨0, 0, 0, []⟩, 0)).2; dec (blkAt addr.toNat = some (u, b)) &&
     dec (s.agentReach a u = true) && dec (addr.toNat % 0x10000 = 0x8000 + off) && dec (off % 8 = 0) && dec (addr.toNat % 8 = 0) &&
     dec (0x100 ≤ off) && dec (regAt u b off = some (r, i)) && dec (Tbl.wf s.staged = true)) && (let s : State := run0;
     let a : Agent := .privet; let addr : BitVec 32 := 0x10318108; let u : UnitId := .sched 0; let b : Blk := bShaper 0; let off : Nat := 0x108;
     let r : RegRow := ((findRow (blkRows .shaper off) off).getD (⟨0, 0, 0, []⟩, 0)).1;
     let i : Nat := ((findRow (blkRows .shaper off) off).getD (⟨0, 0, 0, []⟩, 0)).2; dec (blkAt addr.toNat = some (u, b)) &&
     dec (s.agentReach a u = true) && dec (addr.toNat % 0x10000 = 0x8000 + off) && dec (off % 8 = 0) && dec (addr.toNat % 8 = 0) &&
     dec (0x100 ≤ off) && dec (regAt u b off = some (r, i)) && dec (Tbl.wf s.staged = true))) = true := by
  decide +kernel

/-- `RegisterAccess`: states and operands that meet the premises of its clauses (PlainWrites). -/
theorem test_PlainWrites :
    ((let s : State := run0; let a : Agent := .privet; let addr : BitVec 32 := 0x10200148; let u : UnitId := .buffer 0;
     let b : Blk := bBuffer 0; let off : Nat := 0x148; let r : RegRow := ((findRow (blkRows .buffer off) off).getD (⟨0, 0, 0, []⟩, 0)).1;
     let i : Nat := ((findRow (blkRows .buffer off) off).getD (⟨0, 0, 0, []⟩, 0)).2; dec (blkAt addr.toNat = some (u, b)) &&
     dec (s.agentReach a u = true) && dec (addr.toNat % 0x10000 = off) && dec (off % 8 = 0) && dec (addr.toNat % 8 = 0) && dec (0x100 ≤ off) &&
     dec (off < 0x8000) && dec (regAt u b off = some (r, i)) &&
     dec (b.kind = .buffer ∨ b.kind = .assoc ∨ b.kind = .hbmc ∨ b.kind = .ford ∨ b.kind = .flow ∨ b.kind = .lpm ∨ b.kind = .shadow ∨ b.kind = .bramble ∨ b.kind = .coproc ∨ b.kind = .group) &&
     dec (Tbl.wf s.csr = true)) && (let s : State := run0; let a : Agent := .privet; let addr : BitVec 32 := 0x10180100;
     let u : UnitId := .assoc 0; let b : Blk := bAssoc 0; let off : Nat := 0x100;
     let r : RegRow := ((findRow (blkRows .assoc off) off).getD (⟨0, 0, 0, []⟩, 0)).1;
     let i : Nat := ((findRow (blkRows .assoc off) off).getD (⟨0, 0, 0, []⟩, 0)).2; dec (blkAt addr.toNat = some (u, b)) &&
     dec (s.agentReach a u = true) && dec (addr.toNat % 0x10000 = off) && dec (off % 8 = 0) && dec (addr.toNat % 8 = 0) && dec (0x100 ≤ off) &&
     dec (off < 0x8000) && dec (regAt u b off = some (r, i)) &&
     dec (b.kind = .buffer ∨ b.kind = .assoc ∨ b.kind = .hbmc ∨ b.kind = .ford ∨ b.kind = .flow ∨ b.kind = .lpm ∨ b.kind = .shadow ∨ b.kind = .bramble ∨ b.kind = .coproc ∨ b.kind = .group) &&
     dec (Tbl.wf s.csr = true)) && (let s : State := run0; let a : Agent := .privet; let addr : BitVec 32 := 0x10400100;
     let u : UnitId := .hbmc 0 0; let b : Blk := bHbmc 0 0; let off : Nat := 0x100;
     let r : RegRow := ((findRow (blkRows .hbmc off) off).getD (⟨0, 0, 0, []⟩, 0)).1;
     let i : Nat := ((findRow (blkRows .hbmc off) off).getD (⟨0, 0, 0, []⟩, 0)).2; dec (blkAt addr.toNat = some (u, b)) &&
     dec (s.agentReach a u = true) && dec (addr.toNat % 0x10000 = off) && dec (off % 8 = 0) && dec (addr.toNat % 8 = 0) && dec (0x100 ≤ off) &&
     dec (off < 0x8000) && dec (regAt u b off = some (r, i)) &&
     dec (b.kind = .buffer ∨ b.kind = .assoc ∨ b.kind = .hbmc ∨ b.kind = .ford ∨ b.kind = .flow ∨ b.kind = .lpm ∨ b.kind = .shadow ∨ b.kind = .bramble ∨ b.kind = .coproc ∨ b.kind = .group) &&
     dec (Tbl.wf s.csr = true))) = true ∧
    (([0, 63] : List (Nat)).all fun k => dec (k < 64)) = true := by
  decide +kernel

/-- `RegisterAccess`: states and operands that meet the premises of its clauses (RingAndReadSelWrites). -/
theorem test_RingAndReadSelWrites :
    (let s : State := run0; let a : Agent := .privet; let h : Half := 0; dec (s.agentReach a (.table h 3) = true)) = true ∧
    (let s : State := run0; let a : Agent := .privet; let h : Half := 0; dec (s.agentReach a (.table h 5) = true) && dec (Tbl.wf s.csr = true)) = true ∧
    (let s : State := run0; let a : Agent := .privet; let h : Half := 0; dec (s.agentReach a (.sched h) = true) && dec (Tbl.wf s.csr = true)) = true := by
  decide +kernel

/-- `FaultsRecorded`: states and operands that meet the premises of its clauses. -/
theorem test_FaultsRecorded :
    (([(2, .contained), (0, .corrected)] : List ((BitVec 8) × FClass)).all fun (code, c) => let s : State := run0; let u : UnitId := .table 0 0;
     let d : DWord := 9;
     let t : State := (s.openRecord ⟨u, code.toNat, false, s.detailOf u code.toNat d⟩).react ⟨u, code.toNat, false, s.detailOf u code.toNat d⟩;
     dec (s.armed = []) && dec (unitPresent u = true) && dec (s.pv.porLow = false) && dec (s.pv.sysLow = false) && dec (∀ h, u ≠ .buffer h) &&
     dec (s.invCode u = none) && dec (codeClass (unitKind u) code.toNat = some c) && dec (t.waits = s.waits)) = true ∧
    (([(found2, .contained, 0), (⟨.device, 1, true, 0⟩, .fatal, 1)] : List (Found × FClass × _)).all fun (f, c, h) => let s : State := run0;
     dec (codeClass (unitKind f.unit) f.code = some c) && dec (Tbl.wf s.units = true) &&
     dec (∀ h ∈ hubsOf f.unit, (s.hubs.get h).openAt (slotOf f.unit) = false)) = true ∧
    ((let s : State := run0; let f : Found := found2; let c : FClass := .contained; dec (codeClass (unitKind f.unit) f.code = some c) &&
     dec (Tbl.wf s.units = true) && dec (∀ h ∈ hubsOf f.unit, (s.hubs.get h).openAt (slotOf f.unit) = false)) &&
     (let s : State := run0.updUnit (.cluster 0 0 0) fun d => { d with faultCount := 0xFFFFFFFF };
     let f : Found := ⟨.core 0 0 0 0, 1, false, 0⟩; let c : FClass := .corrected; dec (codeClass (unitKind f.unit) f.code = some c) &&
     dec (Tbl.wf s.units = true) && dec (∀ h ∈ hubsOf f.unit, (s.hubs.get h).openAt (slotOf f.unit) = false))) = true ∧
    (let s : State := run0; let f : Found := found2; let c : FClass := .contained; let h := 1;
     dec (codeClass (unitKind f.unit) f.code = some c) && dec (Tbl.wf s.units = true) &&
     dec (∀ h ∈ hubsOf f.unit, (s.hubs.get h).openAt (slotOf f.unit) = false) && dec (h ∉ hubsOf f.unit)) = true ∧
    (let s : State := withHub run0 fun x => { x with slots := [(8, rec1 255)] }; let f : Found := found2; let c : FClass := .contained;
     dec (codeClass (unitKind f.unit) f.code = some c) && dec (Tbl.wf s.csr = true) &&
     dec (∀ h ∈ hubsOf f.unit, (s.hubs.get h).openAt (slotOf f.unit) = true)) = true ∧
    ((let s : State := withHub run0 fun x => { x with slots := [(8, rec1 255)] }; let f : Found := found2; let c : FClass := .contained;
     let h := 0; let o := rec1 255; dec (codeClass (unitKind f.unit) f.code = some c) && dec (Tbl.wf s.csr = true) &&
     dec (∀ h ∈ hubsOf f.unit, (s.hubs.get h).openAt (slotOf f.unit) = true) && dec (tget? (s.hubs.get h).slots (slotOf f.unit) = some o)) &&
     (let s : State := withHub run0 fun x => { x with slots := [(8, rec1 254)] }; let f : Found := found2; let c : FClass := .contained;
     let h := 0; let o := rec1 254; dec (codeClass (unitKind f.unit) f.code = some c) && dec (Tbl.wf s.csr = true) &&
     dec (∀ h ∈ hubsOf f.unit, (s.hubs.get h).openAt (slotOf f.unit) = true) && dec (tget? (s.hubs.get h).slots (slotOf f.unit) = some o))) = true := by
  decide +kernel

/-- `RecordWords`: states and operands that meet the premises of its clauses. -/
theorem test_RecordWords :
    (([{ rec1 255 with unit := .core 1 15 3 3, phys := 16, stamp := 0xFFFFFFFFFFFF, sources := 0xFFFFFFFF, injected := true, code := 0xFF, cls := .fatal }, { rec1 255 with unit := .spare 1 5, phys := 16, stamp := 0xFFFFFFFFFFFF, sources := 0xFFFFFFFF, injected := true, code := 0xFF, cls := .fatal }, { rec1 255 with unit := .cluster 0 15 2, phys := 16, stamp := 0xFFFFFFFFFFFF, sources := 0xFFFFFFFF, injected := true, code := 0xFF, cls := .fatal }, { rec1 255 with unit := .hub 1, phys := 16, stamp := 0xFFFFFFFFFFFF, sources := 0xFFFFFFFF, injected := true, code := 0xFF, cls := .fatal }] : List (FaultRec)).all fun r => let m : Nat := 15;
     dec (r.merged ≤ 255) && dec (m < 16)) = true ∧
    (let s : State := run0; let h : Half := 0; dec (tget? (s.hubs.get h).slots (s.rfld (bHub h) R.hub_REC_SEL 0 9) = none)) = true ∧
    (let s : State := (withHub run0 fun x => { x with slots := [(8, rec1 2)] }).setReg (bHub 0) R.hub_REC_SEL 8; let h : Half := 0;
     let r := rec1 2; dec (tget? (s.hubs.get h).slots (s.rfld (bHub h) R.hub_REC_SEL 0 9) = some r)) = true ∧
    (let u : UnitId := .half 0; let e := (8, rec1 2); dec (e.2.isOpen = true) && dec (within u e.2.unit = true)) = true := by
  decide +kernel

/-- `RecordsAcknowledged`: states and operands that meet the premises of its clauses. -/
theorem test_RecordsAcknowledged :
    (let s : State := withHub run0 fun x => { x with slots := [(8, rec1 3)] }; let a : Agent := .privet; let h : Half := 0;
     let k : Fin 512 := 8; let m : BitVec 8 := 3; let r : FaultRec := rec1 3; dec (s.agentReach a (.hub h) = true) &&
     dec (tget? (s.hubs.get h).slots k.val = some r) && dec (r.isOpen = true) && dec (s.agentOk a r.unit = true) &&
     dec (unitHalf r.unit = some h) && dec (r.merged = m.toNat)) = true ∧
    (let s : State := withHub run0 fun x => { x with slots := [(8, rec1 3)] }; let a : Agent := .privet; let h : Half := 0;
     let k : Fin 512 := 8; let m : BitVec 8 := 2; let r : FaultRec := rec1 3; dec (s.agentReach a (.hub h) = true) &&
     dec (tget? (s.hubs.get h).slots k.val = some r) && dec (r.isOpen = true) && dec (s.agentOk a r.unit = true) &&
     dec (unitHalf r.unit = some h) && dec (r.merged ≠ m.toNat)) = true ∧
    (let s : State := withHub run0 fun x => { x with slots := [(8, rec1 3)] }; let h : Half := 0; let k : Fin 512 := 9;
     dec ((s.hubs.get h).openAt k.val = false)) = true ∧
    ((let s : State := withHub run0 fun x => { x with slots := [(8, rec1 3)] }; let a : Agent := .privet; let h : Half := 0;
     dec (s.agentReach a (.hub h) = true)) &&
     (let s : State := withHub run0 fun x => { x with details := [{ id := 4, slot := 8, code := 2, detail := 7 }] }; let a : Agent := .privet;
     let h : Half := 0; dec (s.agentReach a (.hub h) = true)) &&
     (let s : State := withHub run0 fun x => { x with details := [{ id := 4, slot := 8, code := 2, detail := 7 }], detailLatch := [(.privet, { id := 4, slot := 8, code := 2, detail := 7 })] };
     let a : Agent := .privet; let h : Half := 0; dec (s.agentReach a (.hub h) = true))) = true ∧
    (let s : State := withHub run0 fun x => { x with details := [{ id := 4, slot := 8, code := 2, detail := 7 }] }; let a : Agent := .privet;
     let h : Half := 0; let e : DetailEntry := { id := 4, slot := 8, code := 2, detail := 7 }; let r : List DetailEntry := [];
     dec (s.agentReach a (.hub h) = true) && dec ((s.hubs.get h).details = e :: r)) = true ∧
    (let s : State := withHub run0 fun x => { x with details := [{ id := 4, slot := 8, code := 2, detail := 7 }], detailLatch := [(.privet, { id := 4, slot := 8, code := 2, detail := 7 })] };
     let a : Agent := .privet; let h : Half := 0; let b : Agent := .privet;
     let d : DetailEntry := { id := 4, slot := 8, code := 2, detail := 7 }; dec (s.agentReach a (.hub h) = true) &&
     dec (((s.hubs.get h).detailLatch.find? fun e => e.1 = a) = some (b, d))) = true := by
  decide +kernel

/-- `InjectionAndRecovery`: states and operands that meet the premises of its clauses (InjectionAndSpares). -/
theorem test_InjectionAndSpares :
    (let s : State := run0; let a : Agent := .privet; let u : UnitId := .table 0 0; dec (s.agentReach a u = true) &&
     dec (s.forceActs (s.ustate u) = false)) = true ∧
    (let s : State := inState run0 (.table 0 0) .test; let a : Agent := .privet; let u : UnitId := .table 0 0; dec (s.agentReach a u = true) &&
     dec (s.forceActs (s.ustate u) = true)) = true ∧
    ((let s : State := inState run0 (.table 0 0) .test; let a : Agent := .privet; let u : UnitId := .table 0 0; dec (s.agentReach a u = true) &&
     dec (s.forceActs (s.ustate u) = true) && dec (s.rfld (ownBlk u) R.ucb_INJECT 0 32 = 0)) && (let s : State := start0;
     let a : Agent := .privet; let u : UnitId := .table 0 0; dec (s.agentReach a u = true) && dec (s.forceActs (s.ustate u) = true) &&
     dec (s.rfld (ownBlk u) R.ucb_INJECT 0 32 = 0))) = true ∧
    (let s : State := run0; let a : Agent := .privet; let u : UnitId := .table 0 0; let sel : BitVec 8 := 0x82; dec (s.agentReach a u = true) &&
     dec (Tbl.wf s.csr = true) && dec (Tbl.wf s.units = true) && dec ((checkerOf (unitKind u) (sel.toNat % 32)).isSome = true) &&
     dec (bits sel.toNat 5 2 = 0)) = true ∧
    (let s : State := { run0 with hubs := ⟨{ run0.hubs.h0 with pulseEnd := some 1000000 }, { run0.hubs.h1 with pulseEnd := some 1000001 }⟩ };
     let e0 : Nat := 1000000; let e1 : Nat := 1000001; dec (s.hubs.h0.pulseEnd = some e0) && dec (s.hubs.h1.pulseEnd = some e1) &&
     dec (e0 ≤ s.ticks) && dec (s.ticks < e1)) = true ∧
    (let s : State := withSpare (inState (run0.setReg (bTile 0 0) R.tile_SPARE_CFG 1) (.spare 0 0) .reset) fun y => { y with state := .idle };
     let h : Half := 0; let t : TileIx := 0; dec ((s.tile h t).spare.state = .idle) && dec (s.live (.tile h t) = true) &&
     dec (bit (s.reg (bTile h t) R.tile_SPARE_CFG) 0 = true) && dec (s.ustate (.spare h t) = .reset) && dec (s.entering (.spare h t) = false) &&
     dec ((s.commits.any fun c => c.waiting.contains (coreAt h t ((s.tile h t).spare.nextPos % 16))) = false)) = true ∧
    (let s : State := withSpare run0 fun y => { y with state := .testing }; let h : Half := 0; let t : TileIx := 0;
     dec ((s.tile h t).spare.state = .testing)) = true ∧
    (let s : State := run0.updTile 0 0 fun y => { y with poisonBank := [(1, 5), (0, 5)] }; let h : Half := 0; dec (Tbl.wf (s.tiles.get h) = true)) = true ∧
    (let d : UnitDyn := { UnitDyn.init with invPend := true }; dec (d.invPend = true)) = true ∧
    (let d : UnitDyn := { UnitDyn.init with invAt := some (3, 5) }; let n := 3; let b := 5; dec (d.invPend = false) &&
     dec (d.invAt = some (n, b))) = true ∧
    (let d : UnitDyn := { UnitDyn.init with invAt := some (3, 5) }; let a : Nat := 4; let l : List Nat := []; let n := 3; let b := 5;
     dec (d.invPend = false) && dec (d.invAt = some (n, b)) && dec (b ∉ a :: l)) = true ∧
    (let s : State := run0.updUnit (.table 0 0) fun d => { d with invPend := true }; let u : UnitId := .table 0 0; dec (s.armed = [u])) = true := by
  decide +kernel

/-- `InjectionAndRecovery`: states and operands that meet the premises of its clauses (PrivetAndRestarts). -/
theorem test_PrivetAndRestarts :
    (let s : State := run0; let h : Half := 0; dec ((s.hubs.get h).privet ≠ .fenced)) = true ∧
    (let a : Agent := .control 0 0; dec (a ≠ .privet)) = true ∧
    (let s : State := withHub run0 fun x => { x with hbSeen := true, hbEnd := 1000000 }; let h : Half := 0; dec (s.ustate .device = .active) &&
     dec ((s.hubs.get h).hbEnd ≤ s.ticks) && dec ((s.hubs.get h).privet ≠ .fenced) && dec ((s.hubs.get h).hbSeen = true)) = true ∧
    (let s : State := withHub run0 fun x => { x with hbSeen := false, hbEnd := 1000000 }; dec (s.ustate .device = .active) &&
     dec ((s.hubs.get 0).hbEnd ≤ s.ticks) && dec ((s.hubs.get 0).privet ≠ .fenced) && dec ((s.hubs.get 0).hbSeen = false)) = true ∧
    (let s : State := withHub run0 fun x => { x with privet := .fenced }; let g : Half := 0; let h : Half := 0; let n : Fin 32 := 0;
     dec (s.inUser g n = false) && dec ((s.hubs.get h).privet = .fenced)) = true ∧
    (let h : Half := 0; let t : TileIx := 0;
     let s : State := ((inState (withSpare ((withHub run0 fun x => { x with privet := .up }).setReg (bHub 0) R.hub_RECOVERY_CFG 2) fun y => { y with owed := true }) (.tile 0 1) .active).updTab 0 fun t => { t with slots := (List.range 256).map fun i => (i, { BatchSlot.init with state := if i = 7 then .free else .posted }) });
     let b : Nat := 7;
     let r : BatchRec := (State.reweighRecs (s) 0 0).headD { op := 0, table := 0, zero := 0, len := 0, index := 0, payload := [] };
     let rs : List BatchRec := (State.reweighRecs (s) 0 0).tail; let rest : List Nat := []; dec ((s.tile h t).spare.owed = true) &&
     dec (bit (s.reg (bHub h) R.hub_RECOVERY_CFG) 1 = true) && dec (s.live (.table h 7) = true) && dec ((s.tab.get h).builds = []) &&
     dec (s.hubs.h0.privet = .up) && dec (((List.range 256).filter fun b => decide ((s.bslot h b).state = .free)).reverse = b :: rest) &&
     dec (s.reweighRecs h t = r :: rs) &&
     dec (((s.updSlot h b fun _ => { BatchSlot.init with state := .building }).applyAll h b (r :: rs)).isSome = true)) = true ∧
    (let s : State := (inState { run0 with dev := { run0.dev with devState := .recovery } } (.half 0) .fenced).setReg (bHub 0) R.hub_RECOVERY_CFG 0x301;
     let h : Half := 0; dec (s.ustate (.half h) = .fenced) && dec (s.entering (.half h) = false) && dec (s.dev.devState ≠ .run) &&
     dec (s.mayRestart h = true)) = true ∧
    ((let s : State := run0; dec (s.dev.devState = .run)) &&
     (let s : State := withHub run0 fun x => { x with hbSeen := true, hbEnd := 1000000 }; dec (s.dev.devState = .run)) &&
     (let s : State := withHub run0 fun x => { x with privet := .fenced }; dec (s.dev.devState = .run))) = true := by
  decide +kernel

/-- `IntegerInstructionsRetire`: states and operands that meet the premises of its clauses (ResultWritten). -/
theorem test_ResultWritten :
    (let s : State := pk0 0 [(2, 0x80000000), (3, 0x1234), (5, 7), (6, 0xFFFFFFFF), (7, 3)]; let th : ThreadRef := ThreadRef.pk 0 0 0;
     let c : Fk := callOf s s th 0; dec (s.threadWf th = true) && dec (c.th = th)) = true := by
  decide +kernel

/-- `IntegerInstructionsRetire`: states and operands that meet the premises of its clauses. -/
theorem test_IntegerInstructionsRetire :
    (([(0x823800, FkOp.add), (0x823801, FkOp.sub), (0x823802, FkOp.adds), (0x823803, FkOp.subs), (0x823804, FkOp.addus), (0x823805, FkOp.subus),
         (0x820006, FkOp.neg), (0x820007, FkOp.abs), (0x823808, FkOp.and), (0x823809, FkOp.or), (0x82380A, FkOp.xor), (0x82380B, FkOp.andn),
         (0x82380C, FkOp.min), (0x82380D, FkOp.max), (0x82380E, FkOp.minu), (0x82380F, FkOp.maxu), (0x820011, FkOp.clz), (0x820012, FkOp.ctz),
         (0x820013, FkOp.popc), (0x820014, FkOp.bswap), (0x823818, FkOp.sll), (0x823819, FkOp.srl), (0x82381A, FkOp.sra), (0x82381B, FkOp.ror),
         (0x82381C, FkOp.sls), (0x823820, FkOp.mul), (0x823821, FkOp.mulh),
         (0x823822, FkOp.mulhu)] : List (Nat × _)).all fun (w, e2) => let th : ThreadRef := ThreadRef.pk 0 0 0;
     let s : State := pk0 w [(2, 0x80000000), (3, 0x1234), (5, 7), (6, 0xFFFFFFFF), (7, 3)]; let s1 : State := s;
     let c : Fk := callOf s s1 th w; dec (pcInRange th c.nextPc = true) && issuesB s e2 th s1 w) = true ∧
    (([(0x482FFFF, FkOp.addi), (0x886F0F0, FkOp.andi), (0xC83F000, FkOp.ori), (0x108300FF, FkOp.xori), (0x14808001, FkOp.li),
         (0x18808001, FkOp.lui), (0x20830005, FkOp.slli), (0x20822028, FkOp.srli), (0x20824004, FkOp.srai), (0x20836009, FkOp.rori),
         (0x2083A087, FkOp.extu), (0x2083C043, FkOp.exts), (0x2083E103, FkOp.ins), (0x821810, FkOp.sel), (0x2480008D, FkOp.mval),
         (0x2480008E, FkOp.mvah)] : List (Nat × _)).all fun (w, e2) => let th : ThreadRef := ThreadRef.pk 0 0 0;
     let s : State := th0 (pk0 w [(2, 0x80000000), (3, 0x1234), (5, 7), (6, 0xFFFFFFFF), (7, 3)]) fun x => { x with a := [(1, 0xFF80000001)] };
     let s1 : State := s; let c : Fk := callOf s s1 th w; dec (pcInRange th c.nextPc = true) && issuesB s e2 th s1 w) = true ∧
    (([(0x208390C8, FkOp.slsi), (0x821028, FkOp.fmul),
         (0x2481008C, FkOp.extr)] : List (Nat × _)).all fun (w, e2) => let th : ThreadRef := ThreadRef.pk 0 0 0;
     let s : State := th0 (pk0 w [(2, 0x80000000), (3, 0x1234), (5, 7), (6, 0xFFFFFFFF), (7, 3)]) fun x => { x with a := [(1, 0xFF80000001)], mode := 1 };
     let s1 : State := s; let c : Fk := callOf s s1 th w; dec (pcInRange th c.nextPc = true) && issuesB s e2 th s1 w) = true := by
  decide +kernel

/-- `AccumulatorInstructionsRetire`: states and operands that meet the premises of its clauses. -/
theorem test_AccumulatorInstructionsRetire :
    (([(0x24021200, FkOp.mpyf), (0x24021241, FkOp.macf), (0x24021A02, FkOp.msuf), (0x24062A03, FkOp.maci), (0x240002C4, FkOp.aadd),
         (0x24000205, FkOp.asub), (0x24000206, FkOp.aneg), (0x24012207, FkOp.asl), (0x24006208, FkOp.asr), (0x24000209, FkOp.aclr),
         (0x2402020A, FkOp.mvg), (0x24A01A0B, FkOp.mvas)] : List (Nat × _)).all fun (w, e2) => let th : ThreadRef := ThreadRef.pk 0 0 0;
     let s : State := th0 (pk0 w [(2, 0x80000000), (3, 0x1234), (5, 7), (6, 0xFFFFFFFF), (7, 3)]) fun x => { x with a := [(1, 0x7F80000001)], mode := 1 };
     let s1 : State := s; let c : Fk := callOf s s1 th w; dec (pcInRange th c.nextPc = true) && dec (s1.threadWf th = true) &&
     issuesB s e2 th s1 w) = true := by
  decide +kernel

/-- `AccumulatorInstructionsRetire`: states and operands that meet the premises of its clauses (OverflowRule). -/
theorem test_OverflowRule :
    (let w : Nat := 40; let t : Int := -(2:Int)^39; dec (0 < w) && dec (-(2 : Int) ^ (w - 1) ≤ t) && dec (t < (2 : Int) ^ (w - 1))) = true ∧
    (let w : Nat := 40; let t : Int := (2:Int)^39; dec (0 < w) && dec ((2 : Int) ^ (w - 1) ≤ t)) = true ∧
    (let w : Nat := 32; let t : Int := -(2:Int)^31 - 1; dec (0 < w) && dec (t < -(2 : Int) ^ (w - 1))) = true ∧
    (let w : Nat := 32; let t : Int := (2:Int)^31 + 5; dec (0 < w) && dec ((2 : Int) ^ (w - 1) ≤ t ∨ t < -(2 : Int) ^ (w - 1))) = true := by
  decide +kernel

/-- `IntegerResults`: states and operands that meet the premises of its clauses. -/
theorem test_IntegerResults :
    (([(0x80000000, 3), (0x12345678, 0x9ABCDE45), (0, 0), (0x80000001, 0x120)] : List (Nat × Nat)).all fun (a, b) => dec (a < 2 ^ 32) &&
     dec (b < 2 ^ 32)) = true ∧
    (([(0x80000000, 3, 7), (0x12345678, 0x9ABCDE45, 7), (0, 0, 7),
         (0xFF, 0x0F, 5)] : List (Nat × Nat × _)).all fun (a, b, i) => dec (a < 2 ^ 32) && dec (b < 2 ^ 32) && dec (i < 32)) = true ∧
    (([(0x80000000, 3), (0x12345678, 0x9ABCDE45), (0xFFFFFFFF, 0xFFFFFFFF),
         (0x80000001, 0x120)] : List (Nat × Nat)).all fun (a, b) => dec (a < 2 ^ 32) && dec (b < 2 ^ 32) && dec (a ≠ 0)) = true ∧
    (([(0x80000000, 3), (0x12345678, 0x9ABCDE45), (0xFFFFFFFF, 0xFFFFFFFF)] : List (Nat × Nat)).all fun (a, b) => dec (a < 2 ^ 32) &&
     dec (b < 2 ^ 32) && dec (a ≠ 0)) = true ∧
    (([(0x80000000, 3), (0x12345678, 0x9ABCDE45), (0, 0), (0x80000001, 0x120)] : List (Nat × Nat)).all fun (a, b) => let i := 31;
     dec (a < 2 ^ 32) && dec (b < 2 ^ 32) && dec (i < 32)) = true ∧
    (([0x80000000, 0x7FFFFFFF] : List (Nat)).all fun a => let b : Nat := 0x45; dec (a < 2 ^ 32) && dec (b < 2 ^ 32) && dec (32 ≤ b % 256)) = true ∧
    (let a : Nat := 0x123; let b : Nat := 0; let pos := 4; let len := 28; dec (a < 2 ^ 32) && dec (b < 2 ^ 32) && dec (pos + len ≤ 32)) = true := by
  decide +kernel

/-- `DivisionEdges`: states and operands that meet the premises of its clauses. -/
theorem test_DivisionEdges :
    (let a : Nat := 0x80000001; dec (a < 2 ^ 32)) = true ∧
    (let a : Nat := 5; dec (a < 2 ^ 32) && dec (a < 2 ^ 31)) = true ∧
    (([0x80000001, 0x80000000, 0xFFFFFFF9] : List (Nat)).all fun a => dec (a < 2 ^ 32) && dec (2 ^ 31 ≤ a)) = true ∧
    (([(0x80000000, 3), (7, 0xFFFFFFFE), (0xFFFFFFF9, 2), (0x80000000, 0x80000000)] : List (Nat × Nat)).all fun (a, b) => dec (a < 2 ^ 32) &&
     dec (b < 2 ^ 32) && dec (b ≠ 0) && (!dec (a = 0x80000000) || (dec (b ≠ 0xFFFFFFFF)))) = true ∧
    (([(0x823823, FkOp.div), (0x823824, FkOp.divu), (0x823825, FkOp.rem),
         (0x823826, FkOp.remu)] : List (Nat × _)).all fun (w, e2) => let th : ThreadRef := ThreadRef.pk 0 0 0;
     let s : State := pk0 w [(2, 0x80000000), (3, 0x1234), (5, 7), (6, 0xFFFFFFFF), (7, 3)]; let s1 : State := s;
     let c : Fk := callOf s s1 th w; issuesB s e2 th s1 w && dec (pcInRange th c.nextPc = true) && dec (c.g (wC w) ≠ 0 ∨ modeDz c.x.mode = false)) = true ∧
    (([(0x820023, FkOp.div), (0x820024, FkOp.divu), (0x820025, FkOp.rem),
         (0x820026, FkOp.remu)] : List (Nat × _)).all fun (w, e2) => let th : ThreadRef := ThreadRef.pk 0 0 0;
     let s : State := th0 (pk0 w [(2, 0x80000000), (3, 0x1234), (5, 7), (6, 0xFFFFFFFF), (7, 3)]) fun x => { x with mode := 8 };
     let s1 : State := s; let c : Fk := callOf s s1 th w; issuesB s e2 th s1 w && dec (c.g (wC w) = 0) && dec (modeDz c.x.mode = true)) = true := by
  decide +kernel

/-- `ConditionCodes`: states and operands that meet the premises of its clauses. -/
theorem test_ConditionCodes :
    (true) = true ∧
    (let k := 7; dec (1 ≤ k) && dec (k ≤ 7)) = true ∧
    (let s : State := pk0 0x23815 [(2, 0x80000000), (3, 0x1234), (5, 7), (6, 0xFFFFFFFF), (7, 3)]; let s1 : State := s;
     let th : ThreadRef := ThreadRef.pk 0 0 0; let w : Nat := 0x23815; let c : Fk := callOf s s1 th w; dec (pcInRange th c.nextPc = true) &&
     issuesB s .cmp th s1 w) = true ∧
    (let s : State := pk0 0x1C02FFFF [(2, 0x80000000), (3, 0x1234), (5, 7), (6, 0xFFFFFFFF), (7, 3)]; let s1 : State := s;
     let th : ThreadRef := ThreadRef.pk 0 0 0; let w : Nat := 0x1C02FFFF; let c : Fk := callOf s s1 th w; dec (pcInRange th c.nextPc = true) &&
     issuesB s .cmpi th s1 w) = true ∧
    (let s : State := pk0 0x23016 [(2, 0x80000000), (3, 0x1234), (5, 7), (6, 0xFFFFFFFF), (7, 3)]; let s1 : State := s;
     let th : ThreadRef := ThreadRef.pk 0 0 0; let w : Nat := 0x23016; let c : Fk := callOf s s1 th w; dec (pcInRange th c.nextPc = true) &&
     issuesB s .tst th s1 w) = true ∧
    (let s : State := pk0 0x823C90 [(2, 0x80000000), (3, 0x1234), (5, 7), (6, 0xFFFFFFFF), (7, 3)]; let s1 : State := s;
     let th : ThreadRef := ThreadRef.pk 0 0 0; let w : Nat := 0x823C90; let c : Fk := callOf s s1 th w; dec (pcInRange th c.nextPc = true) &&
     issuesB s .sel th s1 w) = true ∧
    (([0x34400003, 0x3641FFFF] : List (Nat)).all fun w => let th : ThreadRef := ThreadRef.pk 0 0 0;
     let s : State := pk0 w [(2, 0x80000000), (3, 0x1234), (5, 7), (6, 0xFFFFFFFF), (7, 3)]; let s1 : State := s;
     let c : Fk := callOf s s1 th w;
     let t : Nat := pcWrap th (if condHolds c.x.flags (bits w 22 4) then (c.pc : Int) + wOff16 w else (c.pc : Int) + 4);
     issuesB s .bcc th s1 w && dec (condHolds c.x.flags (bits w 22 4) = wH w) && dec (pcInRange th t = true)) = true ∧
    (([(5, 5), (0x80000000, 1), (3, 0xFFFFFFFF)] : List (Nat × Nat)).all fun (a, b) => dec (a < 2 ^ 32) && dec (b < 2 ^ 32)) = true ∧
    (let a : Nat := 5; let b : Nat := 5; let i := 31; dec (a < 2 ^ 32) && dec (b < 2 ^ 32) && dec (i < 4 ∨ 8 ≤ i)) = true := by
  decide +kernel

/-- `TransfersAndControl`: states and operands that meet the premises of its clauses (TransfersTaken). -/
theorem test_TransfersTaken :
    ((let th : ThreadRef := ThreadRef.pk 0 0 0; let w : Nat := 0x2FFFFFFF;
     let s : State := pk0 w [(2, 0x80000000), (3, 0x1234), (5, 7), (6, 0xFFFFFFFF), (7, 3)]; let s1 : State := s;
     let c : Fk := callOf s s1 th w; let e2 := FkOp.b; let e3 := (c.pc : Int) + wOff26 w; issuesB s e2 th s1 w &&
     dec (pcInRange th (pcWrap th e3) = true)) && (let th : ThreadRef := ThreadRef.pk 0 0 0; let w : Nat := 0x28030007;
     let s : State := pk0 w [(2, 0x80000000), (3, 0x1234), (5, 7), (6, 0xFFFFFFFF), (7, 3)]; let s1 : State := s;
     let c : Fk := callOf s s1 th w; let e2 := FkOp.jr; let e3 := ((c.g (wB w) / 4 * 4 : Nat) : Int); issuesB s e2 th s1 w &&
     dec (pcInRange th (pcWrap th e3) = true))) = true ∧
    ((let th : ThreadRef := ThreadRef.pk 0 0 0; let w : Nat := 0x2FFFFFFD;
     let s : State := pk0 w [(2, 0x80000000), (3, 0x1234), (5, 7), (6, 0xFFFFFFFF), (7, 3)]; let s1 : State := s;
     let c : Fk := callOf s s1 th w; let e2 := FkOp.b; let e3 := (c.pc : Int) + wOff26 w; issuesB s e2 th s1 w &&
     dec (pcInRange th (pcWrap th e3) = false)) && (let th : ThreadRef := ThreadRef.pk 0 0 0; let w : Nat := 0x28020007;
     let s : State := pk0 w [(2, 0x80000000), (3, 0x1234), (5, 7), (6, 0xFFFFFFFF), (7, 3)]; let s1 : State := s;
     let c : Fk := callOf s s1 th w; let e2 := FkOp.jr; let e3 := ((c.g (wB w) / 4 * 4 : Nat) : Int); issuesB s e2 th s1 w &&
     dec (pcInRange th (pcWrap th e3) = false))) = true ∧
    (([(0x34400003, FkOp.bcc), (0x38010003, FkOp.bz),
         (0x3C610003, FkOp.bnz)] : List (Nat × _)).all fun (w, e2) => let th : ThreadRef := ThreadRef.pk 0 0 0;
     let s : State := pk0 w [(2, 0x80000000), (3, 0x1234), (5, 7), (6, 0xFFFFFFFF), (7, 3)]; let s1 : State := s;
     let c : Fk := callOf s s1 th w; let e3 := wH w; let t : Nat := pcWrap th (if e3 then (c.pc : Int) + wOff16 w else (c.pc : Int) + 4);
     issuesB s e2 th s1 w && dec (pcInRange th t = true)) = true ∧
    ((let th : ThreadRef := ThreadRef.pk 0 0 0; let w : Nat := 0x34410003;
     let s : State := pk0 w [(2, 0x80000000), (3, 0x1234), (5, 7), (6, 0xFFFFFFFF), (7, 3)]; let s1 : State := s;
     let c : Fk := callOf s s1 th w; let e2 := FkOp.bcc; let e3 := condHolds c.x.flags (bits w 22 4);
     let t : Nat := pcWrap th (if e3 then (c.pc : Int) + wOff16 w else (c.pc : Int) + 4); issuesB s e2 th s1 w && dec (pcInRange th t = true) &&
     dec (e3 ≠ wH w)) && (let th : ThreadRef := ThreadRef.pk 0 0 0; let w : Nat := 0x38000003;
     let s : State := pk0 w [(2, 0x80000000), (3, 0x1234), (5, 7), (6, 0xFFFFFFFF), (7, 3)]; let s1 : State := s;
     let c : Fk := callOf s s1 th w; let e2 := FkOp.bz; let e3 := decide (c.g (wA w) = 0);
     let t : Nat := pcWrap th (if e3 then (c.pc : Int) + wOff16 w else (c.pc : Int) + 4); issuesB s e2 th s1 w && dec (pcInRange th t = true) &&
     dec (e3 ≠ wH w)) && (let th : ThreadRef := ThreadRef.pk 0 0 0; let w : Nat := 0x3C600003;
     let s : State := pk0 w [(2, 0x80000000), (3, 0x1234), (5, 7), (6, 0xFFFFFFFF), (7, 3)]; let s1 : State := s;
     let c : Fk := callOf s s1 th w; let e2 := FkOp.bnz; let e3 := !decide (c.g (wA w) = 0);
     let t : Nat := pcWrap th (if e3 then (c.pc : Int) + wOff16 w else (c.pc : Int) + 4); issuesB s e2 th s1 w && dec (pcInRange th t = true) &&
     dec (e3 ≠ wH w))) = true := by
  decide +kernel

/-- `ReturnStack`: states and operands that meet the premises of its clauses. -/
theorem test_ReturnStack :
    ((let s : State := pk0 0x30000004 [(2, 0x80000000), (3, 0x1234), (5, 7), (6, 0xFFFFFFFF), (7, 3)]; let s1 : State := s;
     let th : ThreadRef := ThreadRef.pk 0 0 0; let w : Nat := 0x30000004; let c : Fk := callOf s s1 th w; dec (c.x.rs.length < 32) &&
     issuesB s .call th s1 w && dec (pcInRange th (pcWrap th ((c.pc : Int) + wOff26 w)) = true)) &&
     (let s : State := th0 (pk0 0x30000004 [(2, 0x80000000), (3, 0x1234), (5, 7), (6, 0xFFFFFFFF), (7, 3)]) fun x => { x with rs := List.replicate 31 4 };
     let s1 : State := s; let th : ThreadRef := ThreadRef.pk 0 0 0; let w : Nat := 0x30000004; let c : Fk := callOf s s1 th w;
     dec (c.x.rs.length < 32) && issuesB s .call th s1 w && dec (pcInRange th (pcWrap th ((c.pc : Int) + wOff26 w)) = true))) = true ∧
    (let s : State := pk0 0x28030008 [(2, 0x80000000), (3, 0x1234), (5, 7), (6, 0xFFFFFFFF), (7, 3)]; let s1 : State := s;
     let th : ThreadRef := ThreadRef.pk 0 0 0; let w : Nat := 0x28030008; let c : Fk := callOf s s1 th w; dec (c.x.rs.length < 32) &&
     issuesB s .callr th s1 w && dec (pcInRange th (pcWrap th c.regTarget) = true)) = true ∧
    (let s : State := pk0 0x2803000A [(2, 0x80000000), (3, 0x1234), (5, 7), (6, 0xFFFFFFFF), (7, 3)]; let s1 : State := s;
     let th : ThreadRef := ThreadRef.pk 0 0 0; let w : Nat := 0x2803000A; let c : Fk := callOf s s1 th w; dec (c.x.rs.length < 32) &&
     issuesB s .rspush th s1 w && dec (pcInRange th c.nextPc = true)) = true ∧
    (([(0x30000004, FkOp.call), (0x28030008, FkOp.callr),
         (0x2803000A, FkOp.rspush)] : List (Nat × _)).all fun (w, e2) => let th : ThreadRef := ThreadRef.pk 0 0 0;
     let s : State := th0 (pk0 w [(2, 0x80000000), (3, 0x1234), (5, 7), (6, 0xFFFFFFFF), (7, 3)]) fun x => { x with rs := List.replicate 32 4 };
     let s1 : State := s; let c : Fk := callOf s s1 th w; dec (32 ≤ c.x.rs.length) && issuesB s e2 th s1 w) = true ∧
    ((let th : ThreadRef := ThreadRef.pk 0 0 0; let w : Nat := 0x28000009; let a : BitVec 48 := 0x40;
     let s : State := th0 (pk0 0x28000009 [(2, 0x80000000), (3, 0x1234), (5, 7), (6, 0xFFFFFFFF), (7, 3)]) fun x => { x with rs := [a, 4] };
     let s1 : State := s; let c : Fk := callOf s s1 th w; let r : List (BitVec 48) := [4]; dec (c.x.rs = a :: r) && issuesB s .ret th s1 w &&
     dec (pcInRange th (pcWrap th ((pcAddr th a : Nat) : Int)) = true)) && (let th : ThreadRef := ThreadRef.cc 0 0; let w : Nat := 0x28000009;
     let a : BitVec 48 := 0x100000040;
     let s : State := cth (cc0 0x28000009 [(2, 0x80000000), (3, 0x1234), (5, 7), (6, 0xFFFFFFFF), (7, 3)]) fun x => { x with rs := [a, 4], istat := 0xA0000001 };
     let s1 : State := (s.fetch (.cc 0 0)).1; let c : Fk := callOf s s1 th w; let r : List (BitVec 48) := [4]; dec (c.x.rs = a :: r) &&
     issuesB s .ret th s1 w && dec (pcInRange th (pcWrap th ((pcAddr th a : Nat) : Int)) = true))) = true ∧
    (let s : State := th0 (pk0 0x2880000B [(2, 0x80000000), (3, 0x1234), (5, 7), (6, 0xFFFFFFFF), (7, 3)]) fun x => { x with rs := [0x40, 4] };
     let s1 : State := s; let th : ThreadRef := ThreadRef.pk 0 0 0; let w : Nat := 0x2880000B; let c : Fk := callOf s s1 th w;
     let a : BitVec 48 := 0x40; let r : List (BitVec 48) := [4]; dec (c.x.rs = a :: r) && issuesB s .rspop th s1 w &&
     dec (pcInRange th c.nextPc = true)) = true ∧
    (([(0x28000009, FkOp.ret), (0x2880000B, FkOp.rspop)] : List (Nat × _)).all fun (w, e2) => let th : ThreadRef := ThreadRef.pk 0 0 0;
     let s : State := pk0 w [(2, 0x80000000), (3, 0x1234), (5, 7), (6, 0xFFFFFFFF), (7, 3)]; let s1 : State := s;
     let c : Fk := callOf s s1 th w; dec (c.x.rs = []) && issuesB s e2 th s1 w) = true ∧
    (let s : State := pk0 0 [(2, 0x80000000), (3, 0x1234), (5, 7), (6, 0xFFFFFFFF), (7, 3)]; let th : ThreadRef := ThreadRef.pk 0 0 0;
     dec (s.threadWf th = true)) = true ∧
    (let s : State := th0 (pk0 0 [(2, 0x80000000), (3, 0x1234), (5, 7), (6, 0xFFFFFFFF), (7, 3)]) fun x => { x with rs := [4, 8] };
     let th : ThreadRef := ThreadRef.pk 0 0 0; let e := 4; let r := [8]; dec (s.threadWf th = true) && dec ((s.thread th).rs = e :: r)) = true ∧
    ((let s : State := th0 (pk0 0 [(2, 0x80000000), (3, 0x1234), (5, 7), (6, 0xFFFFFFFF), (7, 3)]) fun x => { x with rs := [4, 8] };
     let th : ThreadRef := ThreadRef.pk 0 0 0; let e := 4; let r := [8]; dec (s.threadWf th = true) && dec ((s.thread th).rs = e :: r)) &&
     (let s : State := cth (cc0 0 []) fun x => { x with rs := [4, 8], istat := 0xA0000002 }; let th : ThreadRef := ThreadRef.cc 0 0; let e := 4;
     let r := [8]; dec (s.threadWf th = true) && dec ((s.thread th).rs = e :: r))) = true ∧
    (let s : State := pk0 0 [(2, 0x80000000), (3, 0x1234), (5, 7), (6, 0xFFFFFFFF), (7, 3)]; let h : Half := 0; let i : TileIx := 0;
     let n : Fin 128 := 0; let e : Nat := 0x400; dec (s.threadWf (.pk h i n) = true) &&
     dec ((s.thread (.pk h i n)).tcause.getLsbD 31 = false) &&
     dec (entryAddr ((s.tile h i).entryWord (s.task h i ((s.thread (.pk h i n)).task.getD 0)).bank 256) = some e)) = true ∧
    (let s : State := cc0 0 []; let h : Half := 0; let n : Fin 32 := 0; dec (s.threadWf (.cc h n) = true)) = true := by
  decide +kernel

/-- `TrapsTaken`: states and operands that meet the premises of its clauses. -/
theorem test_TrapsTaken :
    (let s : State := pk0 0 [(2, 0x80000000), (3, 0x1234), (5, 7), (6, 0xFFFFFFFF), (7, 3)]; let h : Half := 0; let i : TileIx := 0;
     let n : Fin 128 := 0; let cause : Nat := 7; let e : Nat := 0x400; dec (s.threadWf (.pk h i n) = true) && dec (Tbl.wf s.csr = true) &&
     dec ((s.thread (.pk h i n)).tcause.getLsbD 31 = false) && dec (cause < 256) &&
     dec (entryAddr ((s.tile h i).entryWord (s.task h i ((s.thread (.pk h i n)).task.getD 0)).bank 256) = some e)) = true ∧
    (let s : State := th0 (pk0 0 [(2, 0x80000000), (3, 0x1234), (5, 7), (6, 0xFFFFFFFF), (7, 3)]) fun x => { x with tcause := 0x80000001 };
     let h : Half := 0; let i : TileIx := 0; let n : Fin 128 := 0; dec ((s.thread (.pk h i n)).tcause.getLsbD 31 = true)) = true ∧
    (let s : State := withWord (pk0 0 [(2, 0x80000000), (3, 0x1234), (5, 7), (6, 0xFFFFFFFF), (7, 3)]) 1024 0; let h : Half := 0;
     let i : TileIx := 0; let n : Fin 128 := 0; dec ((s.thread (.pk h i n)).tcause.getLsbD 31 = false) &&
     dec (entryAddr ((s.tile h i).entryWord (s.task h i ((s.thread (.pk h i n)).task.getD 0)).bank 256) = none)) = true ∧
    (let s : State := cc0 0 []; let h : Half := 0; let n : Fin 32 := 0; let cause : Nat := 7; dec (s.threadWf (.cc h n) = true) &&
     dec (Tbl.wf (s.thread (.cc h n)).k = true) && dec (cause < 0x80)) = true ∧
    (let s : State := pk0 0xFFFFFFFF []; let s1 : State := s; let th : ThreadRef := ThreadRef.pk 0 0 0; let w : Nat := 0xFFFFFFFF;
     dec (s.canIssue th = true) && (let r := s.fetch th; dec (r.1 = s1) && exEq r.2 (.ok w)) && dec (fkDecode (isControl th) w = none) &&
     dec (s1.waits = s.waits) && dec (s.armed = [])) = true := by
  decide +kernel

/-- `TransfersAndControl`: states and operands that meet the premises of its clauses (ControlInstructionsRetire). -/
theorem test_ControlInstructionsRetire :
    (let s : State := pk0 0x28000000 [(2, 0x80000000), (3, 0x1234), (5, 7), (6, 0xFFFFFFFF), (7, 3)]; let s1 : State := s;
     let th : ThreadRef := ThreadRef.pk 0 0 0; let w : Nat := 0x28000000; let c : Fk := callOf s s1 th w; dec (pcInRange th c.nextPc = true) &&
     issuesB s .nop th s1 w) = true ∧
    (let s : State := th0 (pk0 0x28008503 [(2, 0x80000000), (3, 0x1234), (5, 7), (6, 0xFFFFFFFF), (7, 3)]) fun x => { x with flags := 7 };
     let s1 : State := s; let th : ThreadRef := ThreadRef.pk 0 0 0; let w : Nat := 0x28008503; let c : Fk := callOf s s1 th w;
     dec (pcInRange th c.nextPc = true) && issuesB s .clrf th s1 w) = true ∧
    (let s : State := (pk0 0x28000005 [(2, 0x80000000), (3, 0x1234), (5, 7), (6, 0xFFFFFFFF), (7, 3)]).setReg (ownBlk (coreOf 0 0 0)) R.core_DBG_CFG 1;
     let s1 : State := s; let th : ThreadRef := ThreadRef.pk 0 0 0; let w : Nat := 0x28000005; let c : Fk := callOf s s1 th w;
     dec (pcInRange th c.nextPc = true) && issuesB s .brk th s1 w && dec ((s1.atIssue th).attached th = true)) = true ∧
    ((([0x28060002, 0x28060102, 0x28060202] : List (Nat)).all fun w => let th : ThreadRef := ThreadRef.pk 0 0 0;
     let s : State := pk0 w [(2, 0x80000000), (3, 0x1234), (5, 7), (6, 0xFFFFFFFF), (7, 3)]; let s1 : State := s;
     let c : Fk := callOf s s1 th w; dec (pcInRange th c.nextPc = true) && issuesB s .mtsr th s1 w) && (let th : ThreadRef := ThreadRef.cc 0 0;
     let w : Nat := 0x28063102; let s : State := cc0 w [(2, 0x80000000), (3, 0x1234), (5, 7), (6, 0xFFFFFFFF), (7, 3)];
     let s1 : State := (s.fetch (.cc 0 0)).1; let c : Fk := callOf s s1 th w; dec (pcInRange th c.nextPc = true) && issuesB s .mtsr th s1 w)) = true ∧
    ((([0x28800001, 0x28800101, 0x28800201] : List (Nat)).all fun w => let th : ThreadRef := ThreadRef.pk 0 0 0;
     let s : State := pk0 w [(2, 0x80000000), (3, 0x1234), (5, 7), (6, 0xFFFFFFFF), (7, 3)]; let s1 : State := s;
     let c : Fk := callOf s s1 th w; dec (pcInRange th c.nextPc = true) && issuesB s .mfsr th s1 w && dec (wImm8 w ≠ 21)) &&
     (let th : ThreadRef := ThreadRef.cc 0 0; let w : Nat := 0x28803101;
     let s : State := cc0 w [(2, 0x80000000), (3, 0x1234), (5, 7), (6, 0xFFFFFFFF), (7, 3)]; let s1 : State := (s.fetch (.cc 0 0)).1;
     let c : Fk := callOf s s1 th w; dec (pcInRange th c.nextPc = true) && issuesB s .mfsr th s1 w && dec (wImm8 w ≠ 21))) = true ∧
    (let s : State := pk0 0x28801501 [(2, 0x80000000), (3, 0x1234), (5, 7), (6, 0xFFFFFFFF), (7, 3)]; let s1 : State := s;
     let th : ThreadRef := ThreadRef.pk 0 0 0; let w : Nat := 0x28801501; let c : Fk := callOf s s1 th w; dec (pcInRange th c.nextPc = true) &&
     issuesB s .mfsr th s1 w && dec (wImm8 w = 21)) = true ∧
    ((let s : State := pk0 0x28004D04 [(2, 0x80000000), (3, 0x1234), (5, 7), (6, 0xFFFFFFFF), (7, 3)]; let s1 : State := s;
     let th : ThreadRef := ThreadRef.pk 0 0 0; let w : Nat := 0x28004D04; issuesB s .trap th s1 w) &&
     (let s : State := cc0 0x28004D04 [(2, 0x80000000), (3, 0x1234), (5, 7), (6, 0xFFFFFFFF), (7, 3)]; let s1 : State := (s.fetch (.cc 0 0)).1;
     let th : ThreadRef := ThreadRef.cc 0 0; let w : Nat := 0x28004D04; issuesB s .trap th s1 w)) = true ∧
    ((let s : State := pk0 0x28000005 [(2, 0x80000000), (3, 0x1234), (5, 7), (6, 0xFFFFFFFF), (7, 3)]; let s1 : State := s;
     let th : ThreadRef := ThreadRef.pk 0 0 0; let w : Nat := 0x28000005; issuesB s .brk th s1 w &&
     dec ((s1.atIssue th).attached th = false)) &&
     (let s : State := cc0 0x28000005 [(2, 0x80000000), (3, 0x1234), (5, 7), (6, 0xFFFFFFFF), (7, 3)]; let s1 : State := (s.fetch (.cc 0 0)).1;
     let th : ThreadRef := ThreadRef.cc 0 0; let w : Nat := 0x28000005; issuesB s .brk th s1 w && dec ((s1.atIssue th).attached th = false))) = true ∧
    (let s : State := th0 (pk0 0x28000006 [(2, 0x80000000), (3, 0x1234), (5, 7), (6, 0xFFFFFFFF), (7, 3)]) fun x => { x with tcause := 0x80000003, tpc := 0x1000 };
     let s1 : State := s; let th : ThreadRef := ThreadRef.pk 0 0 0; let w : Nat := 0x28000006; let c : Fk := callOf s s1 th w;
     issuesB s .tret th s1 w && dec (c.x.tcause.getLsbD 31 = true) && dec (pcInRange th (pcWrap th ((c.x.tpc.toNat : Nat) : Int)) = true)) = true ∧
    (let s : State := pk0 0x28000006 [(2, 0x80000000), (3, 0x1234), (5, 7), (6, 0xFFFFFFFF), (7, 3)]; let s1 : State := s;
     let th : ThreadRef := ThreadRef.pk 0 0 0; let w : Nat := 0x28000006; let c : Fk := callOf s s1 th w; issuesB s .tret th s1 w &&
     dec (c.x.tcause.getLsbD 31 = false)) = true := by
  decide +kernel

/-- `LoadsStoresAndStack`: states and operands that meet the premises of its clauses (LoadsAndStoresRetire). -/
theorem test_LoadsAndStoresRetire :
    ((([(0x40800004, FkOp.lb), (0x44800004, FkOp.lbu)] : List (Nat × _)).all fun (w, e2) => let th : ThreadRef := ThreadRef.pk 0 0 0;
     let s : State := (pk0 w [(2, 0x80000000), (3, 0x1234), (5, 7), (6, 0xFFFFFFFF), (7, 3)]).updTile 0 0 fun y => { y with store := tstore y.store 1344 (leBytes 8 0x8899AABBCCDDEEFF) };
     let s1 : State := s; let s2 : State := s.atIssue th; let c : Fk := callOf s s1 th w;
     let bs : List Byte := tbytes (s.tile 0 0).store 1348 1; let e3 := 1; issuesB s e2 th s1 w && dec (pcInRange th c.nextPc = true) &&
     (let r := (s1.atIssue th).load th c.addr e3; dec (r.1 = s2) && exEq r.2 (.ok bs)) && dec (s2.waits = s.waits)) && (([(0x48800004, FkOp.lh),
         (0x4C800004, FkOp.lhu), (0x54800004, FkOp.lhn)] : List (Nat × _)).all fun (w, e2) => let th : ThreadRef := ThreadRef.pk 0 0 0;
     let s : State := (pk0 w [(2, 0x80000000), (3, 0x1234), (5, 7), (6, 0xFFFFFFFF), (7, 3)]).updTile 0 0 fun y => { y with store := tstore y.store 1344 (leBytes 8 0x8899AABBCCDDEEFF) };
     let s1 : State := s; let s2 : State := s.atIssue th; let c : Fk := callOf s s1 th w;
     let bs : List Byte := tbytes (s.tile 0 0).store 1348 2; let e3 := 2; issuesB s e2 th s1 w && dec (pcInRange th c.nextPc = true) &&
     (let r := (s1.atIssue th).load th c.addr e3; dec (r.1 = s2) && exEq r.2 (.ok bs)) && dec (s2.waits = s.waits)) && (([(0x50800004, FkOp.lw),
         (0x58800004, FkOp.lwn)] : List (Nat × _)).all fun (w, e2) => let th : ThreadRef := ThreadRef.pk 0 0 0;
     let s : State := (pk0 w [(2, 0x80000000), (3, 0x1234), (5, 7), (6, 0xFFFFFFFF), (7, 3)]).updTile 0 0 fun y => { y with store := tstore y.store 1344 (leBytes 8 0x8899AABBCCDDEEFF) };
     let s1 : State := s; let s2 : State := s.atIssue th; let c : Fk := callOf s s1 th w;
     let bs : List Byte := tbytes (s.tile 0 0).store 1348 4; let e3 := 4; issuesB s e2 th s1 w && dec (pcInRange th c.nextPc = true) &&
     (let r := (s1.atIssue th).load th c.addr e3; dec (r.1 = s2) && exEq r.2 (.ok bs)) && dec (s2.waits = s.waits))) = true ∧
    ((([(0x40880000, FkOp.lb), (0x44880000, FkOp.lbu)] : List (Nat × _)).all fun (w, e2) => let th : ThreadRef := ThreadRef.cc 0 0;
     let s : State := gate (cc0 w [(4, 9), (6, 0xFFFFFFFF), (8, 0x100002000)]) 0 1; let s1 : State := (s.fetch (.cc 0 0)).1;
     let s2 : State := ((s1.atIssue (.cc 0 0)).load (.cc 0 0) 0x100002000 1).1; let c : Fk := callOf s s1 th w;
     let bs : List Byte := List.replicate 1 0; let e3 := 1; issuesB s e2 th s1 w && (let r := (s1.atIssue th).load th c.addr e3;
     dec (r.1 = s2) && exEq r.2 (.ok bs)) && dec (s2.waits ≠ s.waits) && dec (pcInRange th c.nextPc = true)) && (([(0x48880000, FkOp.lh),
         (0x4C880000, FkOp.lhu), (0x54880000, FkOp.lhn)] : List (Nat × _)).all fun (w, e2) => let th : ThreadRef := ThreadRef.cc 0 0;
     let s : State := gate (cc0 w [(4, 9), (6, 0xFFFFFFFF), (8, 0x100002000)]) 0 1; let s1 : State := (s.fetch (.cc 0 0)).1;
     let s2 : State := ((s1.atIssue (.cc 0 0)).load (.cc 0 0) 0x100002000 2).1; let c : Fk := callOf s s1 th w;
     let bs : List Byte := List.replicate 2 0; let e3 := 2; issuesB s e2 th s1 w && (let r := (s1.atIssue th).load th c.addr e3;
     dec (r.1 = s2) && exEq r.2 (.ok bs)) && dec (s2.waits ≠ s.waits) && dec (pcInRange th c.nextPc = true)) && (([(0x50880000, FkOp.lw),
         (0x58880000, FkOp.lwn)] : List (Nat × _)).all fun (w, e2) => let th : ThreadRef := ThreadRef.cc 0 0;
     let s : State := gate (cc0 w [(4, 9), (6, 0xFFFFFFFF), (8, 0x100002000)]) 0 1; let s1 : State := (s.fetch (.cc 0 0)).1;
     let s2 : State := ((s1.atIssue (.cc 0 0)).load (.cc 0 0) 0x100002000 4).1; let c : Fk := callOf s s1 th w;
     let bs : List Byte := List.replicate 4 0; let e3 := 4; issuesB s e2 th s1 w && (let r := (s1.atIssue th).load th c.addr e3;
     dec (r.1 = s2) && exEq r.2 (.ok bs)) && dec (s2.waits ≠ s.waits) && dec (pcInRange th c.nextPc = true))) = true ∧
    (([(0x40807000, FkOp.lb, 1, cBounds, 0x7000), (0x44807000, FkOp.lbu, 1, cBounds, 0x7000), (0x48800005, FkOp.lh, 2, cAlign, 5),
         (0x4C800005, FkOp.lhu, 2, cAlign, 5), (0x50800005, FkOp.lw, 4, cAlign, 5), (0x54800005, FkOp.lhn, 2, cAlign, 5),
         (0x58800005, FkOp.lwn, 4, cAlign, 5)] : List (Nat × _ × _ × _ × _)).all fun (w, e2, e3, cause, v) => let th : ThreadRef := ThreadRef.pk 0 0 0;
     let s : State := pk0 w [(2, 0x80000000), (3, 0x1234), (5, 7), (6, 0xFFFFFFFF), (7, 3)]; let s1 : State := s;
     let s2 : State := s.atIssue th; let c : Fk := callOf s s1 th w; issuesB s e2 th s1 w && (let r := (s1.atIssue th).load th c.addr e3;
     dec (r.1 = s2) && exEq r.2 (.error (.trap cause v))) && dec (s2.waits = s.waits)) = true ∧
    (([(0x60C00008, ((pk0 0x60C00008 [(2, 0x80000000), (3, 0x1234), (5, 7), (6, 0xFFFFFFFF),
         (7, 3)]).atIssue (ThreadRef.pk 0 0 0)).updTile 0 0 fun y => { y with store := tstore y.store 1352 (leBytes 1 0xFFFFFFFF) }, FkOp.sb, leBytes 1 ((callOf (pk0 0x60C00008 [(2, 0x80000000),
         (3, 0x1234), (5, 7), (6, 0xFFFFFFFF), (7, 3)]) (pk0 0x60C00008 [(2, 0x80000000), (3, 0x1234), (5, 7), (6, 0xFFFFFFFF),
         (7, 3)]) (ThreadRef.pk 0 0 0) 0x60C00008).g (wA 0x60C00008))), (0x64C00008, ((pk0 0x64C00008 [(2, 0x80000000), (3, 0x1234), (5, 7),
         (6, 0xFFFFFFFF),
         (7, 3)]).atIssue (ThreadRef.pk 0 0 0)).updTile 0 0 fun y => { y with store := tstore y.store 1352 (leBytes 2 0xFFFFFFFF) }, FkOp.sh, leBytes 2 ((callOf (pk0 0x64C00008 [(2, 0x80000000),
         (3, 0x1234), (5, 7), (6, 0xFFFFFFFF), (7, 3)]) (pk0 0x64C00008 [(2, 0x80000000), (3, 0x1234), (5, 7), (6, 0xFFFFFFFF),
         (7, 3)]) (ThreadRef.pk 0 0 0) 0x64C00008).g (wA 0x64C00008))), (0x68C00008, ((pk0 0x68C00008 [(2, 0x80000000), (3, 0x1234), (5, 7),
         (6, 0xFFFFFFFF),
         (7, 3)]).atIssue (ThreadRef.pk 0 0 0)).updTile 0 0 fun y => { y with store := tstore y.store 1352 (leBytes 4 0xFFFFFFFF) }, FkOp.sw, leBytes 4 ((callOf (pk0 0x68C00008 [(2, 0x80000000),
         (3, 0x1234), (5, 7), (6, 0xFFFFFFFF), (7, 3)]) (pk0 0x68C00008 [(2, 0x80000000), (3, 0x1234), (5, 7), (6, 0xFFFFFFFF),
         (7, 3)]) (ThreadRef.pk 0 0 0) 0x68C00008).g (wA 0x68C00008))), (0x6CC00008, ((pk0 0x6CC00008 [(2, 0x80000000), (3, 0x1234), (5, 7),
         (6, 0xFFFFFFFF),
         (7, 3)]).atIssue (ThreadRef.pk 0 0 0)).updTile 0 0 fun y => { y with store := tstore y.store 1352 (beBytes 2 0xFFFFFFFF) }, FkOp.shn, beBytes 2 ((callOf (pk0 0x6CC00008 [(2, 0x80000000),
         (3, 0x1234), (5, 7), (6, 0xFFFFFFFF), (7, 3)]) (pk0 0x6CC00008 [(2, 0x80000000), (3, 0x1234), (5, 7), (6, 0xFFFFFFFF),
         (7, 3)]) (ThreadRef.pk 0 0 0) 0x6CC00008).g (wA 0x6CC00008))), (0x70C00008, ((pk0 0x70C00008 [(2, 0x80000000), (3, 0x1234), (5, 7),
         (6, 0xFFFFFFFF),
         (7, 3)]).atIssue (ThreadRef.pk 0 0 0)).updTile 0 0 fun y => { y with store := tstore y.store 1352 (beBytes 4 0xFFFFFFFF) }, FkOp.swn, beBytes 4 ((callOf (pk0 0x70C00008 [(2, 0x80000000),
         (3, 0x1234), (5, 7), (6, 0xFFFFFFFF), (7, 3)]) (pk0 0x70C00008 [(2, 0x80000000), (3, 0x1234), (5, 7), (6, 0xFFFFFFFF),
         (7, 3)]) (ThreadRef.pk 0 0 0) 0x70C00008).g (wA 0x70C00008)))] : List (Nat × State × _ × _)).all fun (w, s2, e2, e3) => let th : ThreadRef := ThreadRef.pk 0 0 0;
     let s : State := pk0 w [(2, 0x80000000), (3, 0x1234), (5, 7), (6, 0xFFFFFFFF), (7, 3)]; let s1 : State := s;
     let c : Fk := callOf s s1 th w; issuesB s e2 th s1 w && dec (pcInRange th c.nextPc = true) &&
     dec ((s1.atIssue th).store th c.addr e3 = (s2, none)) && dec (s2.waits = s.waits)) = true ∧
    (([(0x60C80000, FkOp.sb, leBytes 1 ((callOf (gate (cc0 0x60C80000 [(4, 9), (6, 0xFFFFFFFF),
         (8, 0x100002000)]) 0 1) ((gate (cc0 0x60C80000 [(4, 9), (6, 0xFFFFFFFF),
         (8, 0x100002000)]) 0 1).fetch (.cc 0 0)).1 (ThreadRef.cc 0 0) 0x60C80000).g (wA 0x60C80000))),
         (0x64C80000, FkOp.sh, leBytes 2 ((callOf (gate (cc0 0x64C80000 [(4, 9), (6, 0xFFFFFFFF),
         (8, 0x100002000)]) 0 1) ((gate (cc0 0x64C80000 [(4, 9), (6, 0xFFFFFFFF),
         (8, 0x100002000)]) 0 1).fetch (.cc 0 0)).1 (ThreadRef.cc 0 0) 0x64C80000).g (wA 0x64C80000))),
         (0x68C80000, FkOp.sw, leBytes 4 ((callOf (gate (cc0 0x68C80000 [(4, 9), (6, 0xFFFFFFFF),
         (8, 0x100002000)]) 0 1) ((gate (cc0 0x68C80000 [(4, 9), (6, 0xFFFFFFFF),
         (8, 0x100002000)]) 0 1).fetch (.cc 0 0)).1 (ThreadRef.cc 0 0) 0x68C80000).g (wA 0x68C80000))),
         (0x6CC80000, FkOp.shn, beBytes 2 ((callOf (gate (cc0 0x6CC80000 [(4, 9), (6, 0xFFFFFFFF),
         (8, 0x100002000)]) 0 1) ((gate (cc0 0x6CC80000 [(4, 9), (6, 0xFFFFFFFF),
         (8, 0x100002000)]) 0 1).fetch (.cc 0 0)).1 (ThreadRef.cc 0 0) 0x6CC80000).g (wA 0x6CC80000))),
         (0x70C80000, FkOp.swn, beBytes 4 ((callOf (gate (cc0 0x70C80000 [(4, 9), (6, 0xFFFFFFFF),
         (8, 0x100002000)]) 0 1) ((gate (cc0 0x70C80000 [(4, 9), (6, 0xFFFFFFFF),
         (8, 0x100002000)]) 0 1).fetch (.cc 0 0)).1 (ThreadRef.cc 0 0) 0x70C80000).g (wA 0x70C80000)))] : List (Nat × _ × _)).all fun (w, e2, e3) => let th : ThreadRef := ThreadRef.cc 0 0;
     let s : State := gate (cc0 w [(4, 9), (6, 0xFFFFFFFF), (8, 0x100002000)]) 0 1; let s1 : State := (s.fetch (.cc 0 0)).1;
     let c : Fk := callOf s s1 th w; let s2 : State := ((s1.atIssue th).store th c.addr e3).1; issuesB s e2 th s1 w &&
     dec (pcInRange th c.nextPc = true) && dec (((s1.atIssue th).store th c.addr e3).2 = (none)) && dec (s2.waits ≠ s.waits)) = true ∧
    (([(0x60C00080, FkOp.sb, leBytes 1 ((callOf (pk0 0x60C00080 [(2, 0x80000000), (3, 0x1234), (5, 7), (6, 0xFFFFFFFF),
         (7, 3)]) (pk0 0x60C00080 [(2, 0x80000000), (3, 0x1234), (5, 7), (6, 0xFFFFFFFF),
         (7, 3)]) (ThreadRef.pk 0 0 0) 0x60C00080).g (wA 0x60C00080))), (0x64C00080, FkOp.sh, leBytes 2 ((callOf (pk0 0x64C00080 [(2, 0x80000000),
         (3, 0x1234), (5, 7), (6, 0xFFFFFFFF), (7, 3)]) (pk0 0x64C00080 [(2, 0x80000000), (3, 0x1234), (5, 7), (6, 0xFFFFFFFF),
         (7, 3)]) (ThreadRef.pk 0 0 0) 0x64C00080).g (wA 0x64C00080))), (0x68C00080, FkOp.sw, leBytes 4 ((callOf (pk0 0x68C00080 [(2, 0x80000000),
         (3, 0x1234), (5, 7), (6, 0xFFFFFFFF), (7, 3)]) (pk0 0x68C00080 [(2, 0x80000000), (3, 0x1234), (5, 7), (6, 0xFFFFFFFF),
         (7, 3)]) (ThreadRef.pk 0 0 0) 0x68C00080).g (wA 0x68C00080))), (0x6CC00080, FkOp.shn, beBytes 2 ((callOf (pk0 0x6CC00080 [(2, 0x80000000),
         (3, 0x1234), (5, 7), (6, 0xFFFFFFFF), (7, 3)]) (pk0 0x6CC00080 [(2, 0x80000000), (3, 0x1234), (5, 7), (6, 0xFFFFFFFF),
         (7, 3)]) (ThreadRef.pk 0 0 0) 0x6CC00080).g (wA 0x6CC00080))), (0x70C00080, FkOp.swn, beBytes 4 ((callOf (pk0 0x70C00080 [(2, 0x80000000),
         (3, 0x1234), (5, 7), (6, 0xFFFFFFFF), (7, 3)]) (pk0 0x70C00080 [(2, 0x80000000), (3, 0x1234), (5, 7), (6, 0xFFFFFFFF),
         (7, 3)]) (ThreadRef.pk 0 0 0) 0x70C00080).g (wA 0x70C00080)))] : List (Nat × _ × _)).all fun (w, e2, e3) => let th : ThreadRef := ThreadRef.pk 0 0 0;
     let s : State := pk0 w [(2, 0x80000000), (3, 0x1234), (5, 7), (6, 0xFFFFFFFF), (7, 3)]; let s1 : State := s;
     let s2 : State := s.atIssue th; let c : Fk := callOf s s1 th w; let cause := cBounds; let v := 0x80; issuesB s e2 th s1 w &&
     dec ((s1.atIssue th).store th c.addr e3 = (s2, some (.trap cause v))) && dec (s2.waits = s.waits)) = true := by
  decide +kernel

/-- `PacketMemory`: states and operands that meet the premises of its clauses. -/
theorem test_PacketMemory :
    (([(0x90, 1),
         (0x7E, 4)] : List (Nat × Nat)).all fun (a, len) => let s : State := pk0 0x0 [(2, 0x80000000), (3, 0x1234), (5, 7), (6, 0xFFFFFFFF), (7, 3)];
     let h : Half := 0; let t : TileIx := 0; let n : Fin 128 := 0; dec (spcAt (s.spaces h t n.val (s.slotOfThread h t n)) a len = none)) = true ∧
    (let s : State := pk0 0x0 [(2, 0x80000000), (3, 0x1234), (5, 7), (6, 0xFFFFFFFF), (7, 3)]; let h : Half := 0; let t : TileIx := 0;
     let n : Fin 128 := 0; let a : Nat := 0x90; let len : Nat := 1; let bs : List Byte := [1];
     dec (spcAt (s.spaces h t n.val (s.slotOfThread h t n)) a len = none) && dec (bs.length = len)) = true ∧
    (let s : State := pk0 0x0 [(2, 0x80000000), (3, 0x1234), (5, 7), (6, 0xFFFFFFFF), (7, 3)]; let h : Half := 0; let t : TileIx := 0;
     let n : Fin 128 := 0; let a : Nat := 0x82; let len : Nat := 4;
     let p : Spc := (spcAt (s.spaces 0 0 0 3) 0x82 4).getD ⟨0, 0, .desc, false, false⟩;
     dec ((spcAt (s.spaces h t n.val (s.slotOfThread h t n)) a len).isSome = true) && dec (p.anyAlign = false) && dec (a % len ≠ 0)) = true ∧
    (let s : State := pk0 0x0 [(2, 0x80000000), (3, 0x1234), (5, 7), (6, 0xFFFFFFFF), (7, 3)]; let h : Half := 0; let t : TileIx := 0;
     let n : Fin 128 := 0; let a : Nat := 0x6; let len : Nat := 4; let bs : List Byte := [1,2,3,4];
     let p : Spc := (spcAt (s.spaces 0 0 0 3) 0x6 4).getD ⟨0, 0, .desc, false, false⟩;
     dec ((spcAt (s.spaces h t n.val (s.slotOfThread h t n)) a len).isSome = true) && dec (p.anyAlign = false) && dec (a % len ≠ 0) &&
     dec (bs.length = len) && dec (p.writable = true)) = true ∧
    ((let s : State := pk0 0x0 [(2, 0x80000000), (3, 0x1234), (5, 7), (6, 0xFFFFFFFF), (7, 3)]; let h : Half := 0; let t : TileIx := 0;
     let n : Fin 128 := 0; let a : Nat := 0x80; let len : Nat := 4; let bs : List Byte := [1,2,3,4];
     let p : Spc := (spcAt (s.spaces 0 0 0 3) a 4).getD ⟨0, 0, .desc, false, false⟩;
     dec ((spcAt (s.spaces h t n.val (s.slotOfThread h t n)) a len).isSome = true) && dec (p.writable = false) && dec (bs.length = len)) &&
     (let s : State := pk0 0x0 [(2, 0x80000000), (3, 0x1234), (5, 7), (6, 0xFFFFFFFF), (7, 3)]; let h : Half := 0; let t : TileIx := 0;
     let n : Fin 128 := 0; let a : Nat := 0x300000; let len : Nat := 1; let bs : List Byte := [1];
     let p : Spc := (spcAt (s.spaces 0 0 0 3) a 1).getD ⟨0, 0, .desc, false, false⟩;
     dec ((spcAt (s.spaces h t n.val (s.slotOfThread h t n)) a len).isSome = true) && dec (p.writable = false) && dec (bs.length = len))) = true ∧
    ((let s : State := pk0 0x0 [(2, 0x80000000), (3, 0x1234), (5, 7), (6, 0xFFFFFFFF), (7, 3)]; let h : Half := 0; let t : TileIx := 0;
     let n : Fin 128 := 0; let a : Nat := 0x105; let bs : List Byte := [1,2,3,4];
     let p : Spc := (spcAt (s.spaces 0 0 0 3) a 4).getD ⟨0, 0, .desc, false, false⟩; let l : Loc := .store (448*3+128);
     dec (Tbl.wf (s.tiles.get h) = true) && dec (Tbl.wf (s.tile h t).ram = true) && dec (Tbl.wf (s.tile h t).store = true) &&
     dec ((spcAt (s.spaces h t n.val (s.slotOfThread h t n)) a bs.length).isSome = true) && dec (p.writable = true) && dec (p.kind = .mem l) &&
     dec (p.anyAlign = true ∨ a % bs.length = 0)) && (let s : State := pk0 0x0 [(2, 0x80000000), (3, 0x1234), (5, 7), (6, 0xFFFFFFFF), (7, 3)];
     let h : Half := 0; let t : TileIx := 0; let n : Fin 128 := 0; let a : Nat := 0x00200010; let bs : List Byte := [1,2,3,4];
     let p : Spc := (spcAt (s.spaces 0 0 0 3) 0x200010 4).getD ⟨0, 0, .desc, false, false⟩; let l : Loc := .ram 0x80000;
     dec (Tbl.wf (s.tiles.get h) = true) && dec (Tbl.wf (s.tile h t).ram = true) && dec (Tbl.wf (s.tile h t).store = true) &&
     dec ((spcAt (s.spaces h t n.val (s.slotOfThread h t n)) a bs.length).isSome = true) && dec (p.writable = true) && dec (p.kind = .mem l) &&
     dec (p.anyAlign = true ∨ a % bs.length = 0))) = true := by
  decide +kernel

/-- `LoadsStoresAndStack`: states and operands that meet the premises of its clauses (DataStack). -/
theorem test_DataStack :
    ((let s : State := pk0 0x74020000 [(2, 0x80000000), (29, 0x200400)]; let s1 : State := s; let h : Half := 0; let t : TileIx := 0;
     let n : Fin 128 := 0; let u : State := s1.atIssue (.pk h t n); let w : Nat := 0x74020000; let c : Fk := callOf s s1 (.pk h t n) w;
     let sp : Nat := c.dsp; dec (sp % 4 = 0) && dec (pcInRange (.pk h t n) c.nextPc = true) && issuesB s .push (.pk h t n) s1 w &&
     dec (u.stackLimit h t n.val + 4 ≤ sp) && dec (sp ≤ u.stackBase h t n.val)) &&
     (let s : State := pk0 0x74020000 [(2, 0x80000000), (29, 0x200004)]; let s1 : State := s; let h : Half := 0; let t : TileIx := 0;
     let n : Fin 128 := 0; let u : State := s1.atIssue (.pk h t n); let w : Nat := 0x74020000; let c : Fk := callOf s s1 (.pk h t n) w;
     let sp : Nat := c.dsp; dec (sp % 4 = 0) && dec (pcInRange (.pk h t n) c.nextPc = true) && issuesB s .push (.pk h t n) s1 w &&
     dec (u.stackLimit h t n.val + 4 ≤ sp) && dec (sp ≤ u.stackBase h t n.val))) = true ∧
    ((let h : Half := 0; let t : TileIx := 0; let n : Fin 128 := 0; let w : Nat := 0x74800001;
     let s : State := pk0 w [(2, 0x80000000), (29, 0x200000)]; let s1 : State := s; let u : State := s1.atIssue (.pk h t n);
     let c : Fk := callOf s s1 (.pk h t n) w; let sp : Nat := c.dsp; dec (sp % 4 = 0) && dec (pcInRange (.pk h t n) c.nextPc = true) &&
     issuesB s .pop (.pk h t n) s1 w && dec (u.stackLimit h t n.val ≤ sp) && dec (sp < u.stackBase h t n.val) &&
     dec ((u.tile h t).poisoned (.ram (0x80000 + (sp - 0x00200000))) 4 = false)) &&
     (([0x77A00001, 0x74000001] : List (Nat)).all fun w => let h : Half := 0; let t : TileIx := 0; let n : Fin 128 := 0;
     let s : State := pk0 w [(2, 0x80000000), (29, 0x2000FC)]; let s1 : State := s; let u : State := s1.atIssue (.pk h t n);
     let c : Fk := callOf s s1 (.pk h t n) w; let sp : Nat := c.dsp; dec (sp % 4 = 0) && dec (pcInRange (.pk h t n) c.nextPc = true) &&
     issuesB s .pop (.pk h t n) s1 w && dec (u.stackLimit h t n.val ≤ sp) && dec (sp < u.stackBase h t n.val) &&
     dec ((u.tile h t).poisoned (.ram (0x80000 + (sp - 0x00200000))) 4 = false))) = true ∧
    ((let s : State := pk0 0x74020000 [(2, 0x80000000), (29, 0x200000)]; let s1 : State := s; let h : Half := 0; let t : TileIx := 0;
     let n : Fin 128 := 0; let u : State := s1.atIssue (.pk h t n); let w : Nat := 0x74020000; let c : Fk := callOf s s1 (.pk h t n) w;
     let sp : Nat := c.dsp; issuesB s .push (.pk h t n) s1 w && dec (sp < u.stackLimit h t n.val + 4 ∨ u.stackBase h t n.val < sp)) &&
     (let s : State := pk0 0x74020000 [(2, 0x80000000), (29, 0x200404)]; let s1 : State := s; let h : Half := 0; let t : TileIx := 0;
     let n : Fin 128 := 0; let u : State := s1.atIssue (.pk h t n); let w : Nat := 0x74020000; let c : Fk := callOf s s1 (.pk h t n) w;
     let sp : Nat := c.dsp; issuesB s .push (.pk h t n) s1 w && dec (sp < u.stackLimit h t n.val + 4 ∨ u.stackBase h t n.val < sp))) = true ∧
    ((let s : State := pk0 0x74800001 [(2, 0x80000000), (29, 0x200400)]; let s1 : State := s; let h : Half := 0; let t : TileIx := 0;
     let n : Fin 128 := 0; let u : State := s1.atIssue (.pk h t n); let w : Nat := 0x74800001; let c : Fk := callOf s s1 (.pk h t n) w;
     let sp : Nat := c.dsp; issuesB s .pop (.pk h t n) s1 w && dec (u.stackBase h t n.val ≤ sp ∨ sp < u.stackLimit h t n.val)) &&
     (let s : State := pk0 0x74800001 [(2, 0x80000000), (29, 0x1FFFFF)]; let s1 : State := s; let h : Half := 0; let t : TileIx := 0;
     let n : Fin 128 := 0; let u : State := s1.atIssue (.pk h t n); let w : Nat := 0x74800001; let c : Fk := callOf s s1 (.pk h t n) w;
     let sp : Nat := c.dsp; issuesB s .pop (.pk h t n) s1 w && dec (u.stackBase h t n.val ≤ sp ∨ sp < u.stackLimit h t n.val))) = true ∧
    (let s : State := cc0 0x74020000 [(2, 0x80000000), (29, 0x100018000)]; let s1 : State := (s.fetch (.cc 0 0)).1; let h : Half := 0;
     let n : Fin 32 := 0; let u : State := s1.atIssue (.cc h n); let w : Nat := 0x74020000; let c : Fk := callOf s s1 (.cc h n) w;
     let sp : Nat := c.dsp; let s2 : State := (u.store (.cc h n) (pcWrap (.cc h n) ((sp : Int) - 4)) (leBytes 4 (c.g (wB w)))).1;
     dec (sp % 4 = 0) && dec (s2.waits = s.waits) && dec (pcInRange (.cc h n) c.nextPc = true) && issuesB s .push (.cc h n) s1 w &&
     dec ((u.store (.cc h n) (pcWrap (.cc h n) ((sp : Int) - 4)) (leBytes 4 (c.g (wB w)))).2 = (none))) = true ∧
    (let s : State := cc0 0x74800001 [(2, 0x80000000), (29, 0x100018000)]; let s1 : State := (s.fetch (.cc 0 0)).1;
     let s2 : State := ((s1.atIssue (.cc 0 0)).load (.cc 0 0) 0x100018000 4).1; let h : Half := 0; let n : Fin 32 := 0;
     let u : State := s1.atIssue (.cc h n); let w : Nat := 0x74800001; let c : Fk := callOf s s1 (.cc h n) w; let sp : Nat := c.dsp;
     let bs := [0,0,0,0]; dec (sp % 4 = 0) && dec (s2.waits = s.waits) && dec (pcInRange (.cc h n) c.nextPc = true) &&
     issuesB s .pop (.cc h n) s1 w && (let r := u.load (.cc h n) sp 4; dec (r.1 = s2) && exEq r.2 (.ok bs))) = true := by
  decide +kernel

/-- `MemoryRequests`: states and operands that meet the premises of its clauses. -/
theorem test_MemoryRequests :
    (let s : State := withChain (pk0 0x78A03800 [(5, 0x10), (7, 8)]) chain1; let s1 : State := s; let h : Half := 0; let t : TileIx := 0;
     let n : Fin 128 := 0; let u : State := s1.atIssue (.pk h t n); let w : Nat := 0x78A03800; let k : Nat := u.slotOfThread h t n;
     let c : Fk := callOf s s1 (.pk h t n) w; let l : Loc := .store (448*3+16); dec (pcInRange (.pk h t n) c.nextPc = true) &&
     issuesB s .frd (.pk h t n) s1 w && dec (k < svcBase) && exEq (u.pkPlace h t n (c.g (wA w)) (lenTo256 (c.g (wC w)) + 8)) (.ok l) &&
     dec (u.dcFull h t k (wDc w) = false)) = true ∧
    (let s : State := withTask (pk0 0x78A03C00 [(5, 0x10), (7, 8)]) 3 { ready 2 with state := .running, thread := some 0, dc2 := 255 };
     let s1 : State := s; let h : Half := 0; let t : TileIx := 0; let n : Fin 128 := 0; let u : State := s1.atIssue (.pk h t n);
     let w : Nat := 0x78A03C00; let k : Nat := u.slotOfThread h t n; let c : Fk := callOf s s1 (.pk h t n) w; let l : Loc := .store (448*3+16);
     dec (pcInRange (.pk h t n) c.nextPc = true) && issuesB s .frd (.pk h t n) s1 w && dec (k < svcBase) &&
     exEq (u.pkPlace h t n (c.g (wA w)) (lenTo256 (c.g (wC w)) + 8)) (.ok l) && dec (u.dcFull h t k (wDc w) = true)) = true ∧
    (let s : State := ((pk0 0x78A63840 [(5, 0x20), (6, 7), (7, 40)]).setReg (bHalf 0) R.half_PKT_HBM_LIMIT 0x100000); let s1 : State := s;
     let h : Half := 0; let t : TileIx := 0; let n : Fin 128 := 0; let u : State := s1.atIssue (.pk h t n); let w : Nat := 0x78A63840;
     let k : Nat := u.slotOfThread h t n; let c : Fk := callOf s s1 (.pk h t n) w; let l : Loc := .store (448*3+32); let e2 := FkOp.hrd;
     let e3 := false; let m : Nat := hbmLen (c.g (wC w)); let a : Nat := u.pktHbmBase h + 32 * c.g (wB w); let d := ([]:List Byte);
     dec (pcInRange (.pk h t n) c.nextPc = true) && issuesB s e2 (.pk h t n) s1 w && dec (a + m ≤ u.pktHbmLimit h) &&
     dec (c.g (wA w) % 32 = 0) && dec (u.dcFull h t k (wDc w) = false) &&
     (!dec (e3 = false) || ((exEq (u.pkPlace h t n (c.g (wA w)) (m + 8)) (.ok l)) && (dec (d = []))))) = true ∧
    (let s : State := ((pk0 0x78A638A0 [(5, 0x20), (6, 7), (7, 40)]).setReg (bHalf 0) R.half_PKT_HBM_LIMIT 0x100000); let s1 : State := s;
     let h : Half := 0; let t : TileIx := 0; let n : Fin 128 := 0; let u : State := s1.atIssue (.pk h t n); let w : Nat := 0x78A638A0;
     let k : Nat := u.slotOfThread h t n; let c : Fk := callOf s s1 (.pk h t n) w; let l : Loc := .store 0; let e2 := FkOp.hwr; let e3 := true;
     let m : Nat := hbmLen (c.g (wC w)); let a : Nat := u.pktHbmBase h + 32 * c.g (wB w); let d := List.replicate 64 0;
     dec (pcInRange (.pk h t n) c.nextPc = true) && issuesB s e2 (.pk h t n) s1 w && dec (a + m ≤ u.pktHbmLimit h) &&
     dec (c.g (wA w) % 32 = 0) && dec (u.dcFull h t k (wDc w) = false) &&
     (!dec (e3 = false) || ((exEq (u.pkPlace h t n (c.g (wA w)) (m + 8)) (.ok l)) && (dec (d = [])))) &&
     (!dec (e3 = true) || (exEq (u.pkSpan h t n (c.g (wA w)) m) (.ok d)))) = true ∧
    (let s : State := pk0 0x0 [(2, 0x80000000), (3, 0x1234), (5, 7), (6, 0xFFFFFFFF), (7, 3)]; let h : Half := 0; let t : TileIx := 0;
     dec (Tbl.wf (s.tiles.get h) = true) && dec (Tbl.wf (s.tile h t).tasks = true)) = true ∧
    ((let h : Half := 0; let t : TileIx := 0; let id : Nat := 0;
     let s : State := (withTask (pk0 0x0 [(2, 0x80000000), (3, 0x1234), (5, 7), (6, 0xFFFFFFFF), (7, 3)]) 3 { ready 2 with state := .running, thread := some 0, dc1 := 1 }).updTile 0 0 fun y => { y with responses := [{ id := 0, slot := 3, thread := 0, pc := 8, fn := 0, dc := 1, unit := .memory, loc := .store 1350, bytes := [1, 2, 3], parts := 0, ready := true, hold := [], late := 0 }] };
     let r : Response := { id := 0, slot := 3, thread := 0, pc := 8, fn := 0, dc := 1, unit := .memory, loc := .store 1350, bytes := [1, 2, 3], parts := 0, ready := true, hold := [], late := 0 };
     dec ((s.tile h t).response? id = some r) && dec (r.unit = .memory ∨ r.unit = .hbmWrite) && dec (r.ready = true)) && (let h : Half := 0;
     let t : TileIx := 0; let id : Nat := 0;
     let s : State := (withTask (pk0 0x0 [(2, 0x80000000), (3, 0x1234), (5, 7), (6, 0xFFFFFFFF), (7, 3)]) 3 { ready 2 with state := .running, thread := some 0, dc1 := 1, complete := true }).updTile 0 0 fun y => { y with responses := [{ id := 0, slot := 3, thread := 0, pc := 8, fn := 0, dc := 1, unit := .memory, loc := .store 1350, bytes := [1, 2, 3], parts := 0, ready := true, hold := [], late := 0 }] };
     let r : Response := { id := 0, slot := 3, thread := 0, pc := 8, fn := 0, dc := 1, unit := .memory, loc := .store 1350, bytes := [1, 2, 3], parts := 0, ready := true, hold := [], late := 0 };
     dec ((s.tile h t).response? id = some r) && dec (r.unit = .memory ∨ r.unit = .hbmWrite) && dec (r.ready = true))) = true := by
  decide +kernel

/-- `TaskInstructions`: states and operands that meet the premises of its clauses. -/
theorem test_TaskInstructions :
    (let s : State := pk0 0x84000500 [(29, 0x200400)]; let s1 : State := s; let h : Half := 0; let t : TileIx := 0; let n : Fin 128 := 0;
     let u : State := s1.atIssue (.pk h t n); let w : Nat := 0x84000500; let k : Nat := u.slotOfThread h t n;
     let c : Fk := callOf s s1 (.pk h t n) w; dec (pcInRange (.pk h t n) c.nextPc = true) && issuesB s .twait (.pk h t n) s1 w &&
     dec ((u.task h t k).waitOver (wImm8 w) = true)) = true ∧
    ((let s : State := withTask (pk0 0x84000500 [(29, 0x200400)]) 3 { ready 2 with state := .running, thread := some 0, dc2 := 1 };
     let s1 : State := s; let h : Half := 0; let t : TileIx := 0; let n : Fin 128 := 0; let u : State := s1.atIssue (.pk h t n);
     let w : Nat := 0x84000500; let k : Nat := u.slotOfThread h t n; let c : Fk := callOf s s1 (.pk h t n) w;
     dec (pcInRange (.pk h t n) c.nextPc = true) && issuesB s .twait (.pk h t n) s1 w && dec ((u.task h t k).waitOver (wImm8 w) = false) &&
     dec (c.dsp = u.stackBase h t n.val) && dec (c.x.rs.length ≤ 4)) &&
     (let s : State := withTask (th0 (pk0 0x84000500 [(29, 0x200400)]) fun x => { x with rs := [4,4,4,4] }) 3 { ready 2 with state := .running, thread := some 0, dc2 := 1 };
     let s1 : State := s; let h : Half := 0; let t : TileIx := 0; let n : Fin 128 := 0; let u : State := s1.atIssue (.pk h t n);
     let w : Nat := 0x84000500; let k : Nat := u.slotOfThread h t n; let c : Fk := callOf s s1 (.pk h t n) w;
     dec (pcInRange (.pk h t n) c.nextPc = true) && issuesB s .twait (.pk h t n) s1 w && dec ((u.task h t k).waitOver (wImm8 w) = false) &&
     dec (c.dsp = u.stackBase h t n.val) && dec (c.x.rs.length ≤ 4))) = true ∧
    ((let s : State := withTask (th0 (pk0 0x84000500 [(29, 0x200400)]) fun x => { x with rs := [4,4,4,4,4] }) 3 { ready 2 with state := .running, thread := some 0, dc2 := 1 };
     let s1 : State := s; let h : Half := 0; let t : TileIx := 0; let n : Fin 128 := 0; let u : State := s1.atIssue (.pk h t n);
     let w : Nat := 0x84000500; let k : Nat := u.slotOfThread h t n; let c : Fk := callOf s s1 (.pk h t n) w;
     dec (pcInRange (.pk h t n) c.nextPc = true) && issuesB s .twait (.pk h t n) s1 w && dec ((u.task h t k).waitOver (wImm8 w) = false) &&
     dec (¬ (c.dsp = u.stackBase h t n.val ∧ c.x.rs.length ≤ 4))) &&
     (let s : State := withTask (pk0 0x84000500 [(29, 0x200000)]) 3 { ready 2 with state := .running, thread := some 0, dc2 := 1 };
     let s1 : State := s; let h : Half := 0; let t : TileIx := 0; let n : Fin 128 := 0; let u : State := s1.atIssue (.pk h t n);
     let w : Nat := 0x84000500; let k : Nat := u.slotOfThread h t n; let c : Fk := callOf s s1 (.pk h t n) w;
     dec (pcInRange (.pk h t n) c.nextPc = true) && issuesB s .twait (.pk h t n) s1 w && dec ((u.task h t k).waitOver (wImm8 w) = false) &&
     dec (¬ (c.dsp = u.stackBase h t n.val ∧ c.x.rs.length ≤ 4)))) = true ∧
    (let s : State := pk0 0x0 [(2, 0x80000000), (3, 0x1234), (5, 7), (6, 0xFFFFFFFF), (7, 3)]; let h : Half := 0; let t : TileIx := 0;
     let n : Fin 128 := 0; dec (s.threadWf (.pk h t n) = true) && dec (Tbl.wf (s.tile h t).tasks = true) && dec (Tbl.wf s.csr = true)) = true ∧
    (let s : State := pk0 0x84000002 [(2, 0x80000000), (3, 0x1234), (5, 7), (6, 0xFFFFFFFF), (7, 3)]; let s1 : State := s; let h : Half := 0;
     let t : TileIx := 0; let n : Fin 128 := 0; let w : Nat := 0x84000002; issuesB s .tdrop (.pk h t n) s1 w) = true ∧
    (let s : State := (th0 (pk0 0x84A00001 [(2, 0x80000000), (3, 0x1234), (5, 7), (6, 0xFFFFFFFF), (7, 3)]) fun x => { x with task := some 2563 }).updTask 0 0 2563 fun y => { y with state := .running, thread := some 0 };
     let s1 : State := s; let h : Half := 0; let t : TileIx := 0; let n : Fin 128 := 0; let u : State := s1.atIssue (.pk h t n);
     let w : Nat := 0x84A00001; let k : Nat := u.slotOfThread h t n; issuesB s .tdone (.pk h t n) s1 w && dec (svcBase ≤ k)) = true ∧
    (let s : State := (withChain (pk0 0x84A00001 [(5, 0x10)]) chain1).updTile 0 0 fun y => { y with store := tstore y.store 1360 (leBytes 8 (2^56)) };
     let s1 : State := s; let h : Half := 0; let t : TileIx := 0; let n : Fin 128 := 0; let u : State := s1.atIssue (.pk h t n);
     let w : Nat := 0x84A00001; let k : Nat := u.slotOfThread h t n; let c : Fk := callOf s s1 (.pk h t n) w;
     let p := (spcAt (s.spaces 0 0 0 3) 0x10 1).getD ⟨0, 0, .desc, false, false⟩;
     let d := parseODesc (u.spcBytes h t k p (c.g (wA w)) (min (p.base + p.size - c.g (wA w)) 256));
     let bs := (s.atIssue (ThreadRef.pk 0 0 0)).spcBytes 0 0 3 p 16 24; issuesB s .tdone (.pk h t n) s1 w && dec (k < svcBase) &&
     dec (c.g (wA w) % 16 = 0) && dec ((spcAt (u.spaces h t n.val k) (c.g (wA w)) 1).isSome = true) &&
     exEq (u.spcRead h t k p (c.g (wA w)) d.size) (.ok bs) && dec (d.reason (u.task h t k).length = 0)) = true ∧
    ((let s : State := (pk0 0x84A00001 [(5, 0x10)]).updTile 0 0 fun y => { y with store := tstore y.store 1360 (leBytes 8 (2^56+2^40)) };
     let s1 : State := s; let h : Half := 0; let t : TileIx := 0; let n : Fin 128 := 0; let u : State := s1.atIssue (.pk h t n);
     let w : Nat := 0x84A00001; let k : Nat := u.slotOfThread h t n; let c : Fk := callOf s s1 (.pk h t n) w;
     let p := (spcAt (s.spaces 0 0 0 3) 0x10 1).getD ⟨0, 0, .desc, false, false⟩;
     let d := parseODesc (u.spcBytes h t k p (c.g (wA w)) (min (p.base + p.size - c.g (wA w)) 256));
     let bs := (s.atIssue (ThreadRef.pk 0 0 0)).spcBytes 0 0 3 p 16 24; issuesB s .tdone (.pk h t n) s1 w && dec (k < svcBase) &&
     dec (c.g (wA w) % 16 = 0) && dec ((spcAt (u.spaces h t n.val k) (c.g (wA w)) 1).isSome = true) &&
     exEq (u.spcRead h t k p (c.g (wA w)) d.size) (.ok bs) && dec (d.reason (u.task h t k).length ≠ 0)) &&
     (let s : State := pk0 0x84A00001 [(5, 0x10)]; let s1 : State := s; let h : Half := 0; let t : TileIx := 0; let n : Fin 128 := 0;
     let u : State := s1.atIssue (.pk h t n); let w : Nat := 0x84A00001; let k : Nat := u.slotOfThread h t n;
     let c : Fk := callOf s s1 (.pk h t n) w; let p := (spcAt (s.spaces 0 0 0 3) 0x10 1).getD ⟨0, 0, .desc, false, false⟩;
     let d := parseODesc (u.spcBytes h t k p (c.g (wA w)) (min (p.base + p.size - c.g (wA w)) 256));
     let bs := (s.atIssue (ThreadRef.pk 0 0 0)).spcBytes 0 0 3 p 16 24; issuesB s .tdone (.pk h t n) s1 w && dec (k < svcBase) &&
     dec (c.g (wA w) % 16 = 0) && dec ((spcAt (u.spaces h t n.val k) (c.g (wA w)) 1).isSome = true) &&
     exEq (u.spcRead h t k p (c.g (wA w)) d.size) (.ok bs) && dec (d.reason (u.task h t k).length ≠ 0))) = true ∧
    ((let s : State := pk0 0x84A78203 [(5, 0x10), (7, 70)]; let s1 : State := s; let s2 : State := (s.atIssue (ThreadRef.pk 0 0 0));
     let th : ThreadRef := ThreadRef.pk 0 0 0; let u : State := s1.atIssue th; let w : Nat := 0x84A78203; let c : Fk := callOf s s1 th w;
     let bs : List Byte := List.replicate 70 0; issuesB s .postf th s1 w && dec (c.gFull (wA w) % 16 = 0) &&
     (let r := u.postBytes th (c.gFull (wA w)) (postLen (c.g (wB w))); dec (r.1 = s2) && exEq r.2 (.ok bs)) && dec (s2.waits = s.waits) &&
     dec (pcInRange th c.nextPc = true)) &&
     (let s : State := (pk0 0x84A78203 [(5, 0x10), (7, 70)]).updIng 0 fun i => { i with posters := [.pk 0 0 5] }; let s1 : State := s;
     let s2 : State := (s.atIssue (ThreadRef.pk 0 0 0)); let th : ThreadRef := ThreadRef.pk 0 0 0; let u : State := s1.atIssue th;
     let w : Nat := 0x84A78203; let c : Fk := callOf s s1 th w; let bs : List Byte := List.replicate 70 0; issuesB s .postf th s1 w &&
     dec (c.gFull (wA w) % 16 = 0) && (let r := u.postBytes th (c.gFull (wA w)) (postLen (c.g (wB w))); dec (r.1 = s2) && exEq r.2 (.ok bs)) &&
     dec (s2.waits = s.waits) && dec (pcInRange th c.nextPc = true))) = true ∧
    (let s : State := pk0 0x84A78203 [(5, 0x10), (7, 70)]; let s1 : State := s; let s2 : State := (s.atIssue (ThreadRef.pk 0 0 0));
     let th : ThreadRef := ThreadRef.pk 0 0 0; let u : State := s1.atIssue th; let w : Nat := 0x84A78203; let c : Fk := callOf s s1 th w;
     let bs : List Byte := List.replicate 70 0; issuesB s .postf th s1 w && dec (c.gFull (wA w) % 16 = 0) &&
     (let r := u.postBytes th (c.gFull (wA w)) (postLen (c.g (wB w))); dec (r.1 = s2) && exEq r.2 (.ok bs)) && dec (s2.waits = s.waits) &&
     dec (pcInRange th c.nextPc = true) && dec ((s2.ing.get (threadHalf th)).posters = []) &&
     dec (s2.injectReady (threadHalf th) bs.length = true)) = true := by
  decide +kernel

/-- `EventsAndWaits`: states and operands that meet the premises of its clauses (WaitForEvents). -/
theorem test_WaitForEvents :
    (([(0x88830000, th0 (pk0 0x88830000 [(2, 0x80000000), (3, 0x1234), (5, 7), (6, 0xFFFFFFFF), (7, 3)]) fun x => { x with evpend := 0x30 }),
         (0x88830300, th0 (pk0 0x88830300 [(2, 0x80000000), (3, 0x1234), (5, 7), (6, 0xFFFFFFFF),
         (7, 3)]) fun x => { x with ipend := 4, ien := 4 }), (0x88830100, th0 (pk0 0x88830100 [(2, 0x80000000), (3, 0x1234), (5, 7),
         (6, 0xFFFFFFFF), (7, 3)]) fun x => { x with arm := true, tcmp := 5 }), (0x88830300, th0 (pk0 0x88830300 [(2, 0x80000000), (3, 0x1234),
         (5, 7), (6, 0xFFFFFFFF),
         (7, 3)]) fun x => { x with evpend := 0x34, arm := true, tcmp := 1000000 })] : List (Nat × State)).all fun (w, s) => let th : ThreadRef := ThreadRef.pk 0 0 0;
     let s1 : State := s; let u : State := s1.atIssue th; let c : Fk := callOf s s1 th w; let m : Word := BitVec.ofNat 32 (c.g (wB w));
     let n : Nat := u.wakeCauses th m ((wImm8 w).testBit 0); issuesB s .waitev th s1 w && dec (pcInRange th c.nextPc = true) && dec (n ≠ 0)) = true ∧
    (([(0x88830000, th0 (pk0 0x88830000 [(2, 0x80000000), (3, 0x1234), (5, 7), (6, 0xFFFFFFFF), (7, 3)]) fun x => { x with evpend := 0xC0 }),
         (0x88830300, th0 (pk0 0x88830300 [(2, 0x80000000), (3, 0x1234), (5, 7), (6, 0xFFFFFFFF),
         (7, 3)]) fun x => { x with ipend := 4, ien := 8 }), (0x88830200, th0 (pk0 0x88830200 [(2, 0x80000000), (3, 0x1234), (5, 7),
         (6, 0xFFFFFFFF), (7, 3)]) fun x => { x with arm := true, tcmp := 5 }), (0x88830100, th0 (pk0 0x88830100 [(2, 0x80000000), (3, 0x1234),
         (5, 7), (6, 0xFFFFFFFF),
         (7, 3)]) fun x => { x with arm := true, tcmp := 1000001 })] : List (Nat × State)).all fun (w, s) => let th : ThreadRef := ThreadRef.pk 0 0 0;
     let s1 : State := s; let u : State := s1.atIssue th; let c : Fk := callOf s s1 th w; let m : Word := BitVec.ofNat 32 (c.g (wB w));
     let n : Nat := u.wakeCauses th m ((wImm8 w).testBit 0); issuesB s .waitev th s1 w && dec (pcInRange th c.nextPc = true) && dec (n = 0)) = true ∧
    ((let s : State := th0 (pk0 0x0 [(2, 0x80000000), (3, 0x1234), (5, 7), (6, 0xFFFFFFFF), (7, 3)]) fun x => { x with phase := .waitev 4 0x1234 true false, evpend := 4 };
     let th : ThreadRef := ThreadRef.pk 0 0 0; let gd : Nat := 4; let m : Word := 0x1234; let timer : Bool := true; let clear : Bool := false;
     dec ((s.thread th).phase = .waitev gd m timer clear)) &&
     (let s : State := th0 (pk0 0x0 [(2, 0x80000000), (3, 0x1234), (5, 7), (6, 0xFFFFFFFF), (7, 3)]) fun x => { x with phase := .waitev 4 0x1234 true false, evpend := 1 };
     let th : ThreadRef := ThreadRef.pk 0 0 0; let gd : Nat := 4; let m : Word := 0x1234; let timer : Bool := true; let clear : Bool := false;
     dec ((s.thread th).phase = .waitev gd m timer clear))) = true ∧
    ((let s : State := th0 (pk0 0x0 [(2, 0x80000000), (3, 0x1234), (5, 7), (6, 0xFFFFFFFF), (7, 3)]) fun x => { x with phase := .waitev 4 0x1234 true false, evpend := 0xFFFF, arm := true };
     let th : ThreadRef := ThreadRef.pk 0 0 0; let gd : Nat := 4; dec (s.threadWf th = true) && dec (gd ≠ 0)) &&
     (let s : State := cth (cc0 0x0 [(2, 0x80000000), (3, 0x1234), (5, 7), (6, 0xFFFFFFFF), (7, 3)]) fun x => { x with phase := .waitev 4 0x1234 true false, evpend := 0xFFFF8000 };
     let th : ThreadRef := ThreadRef.cc 0 0; let gd : Nat := 4; dec (s.threadWf th = true) && dec (gd ≠ 0))) = true ∧
    (let s : State := th0 (pk0 0x0 [(2, 0x80000000), (3, 0x1234), (5, 7), (6, 0xFFFFFFFF), (7, 3)]) fun x => { x with phase := .waitev 4 0x1234 true false, arm := true, tcmp := 7 };
     let th : ThreadRef := ThreadRef.pk 0 0 0; let gd := 4; let m := 0x1234; let clear := false; dec ((s.thread th).arm = true) &&
     dec ((s.thread th).tcmp.toNat ≤ (s.dts (threadHalf th)).toNat) && dec ((s.thread th).phase = .waitev gd m true clear)) = true ∧
    (let s : State := { (th0 (pk0 0x0 [(2, 0x80000000), (3, 0x1234), (5, 7), (6, 0xFFFFFFFF), (7, 3)]) fun x => { x with phase := .lock 4 5 true, arm := true, tcmp := 7 }) with locks := ⟨[(5, { holder := some (.control 0 3), waiters := [⟨.task 0 0 3, 2⟩] })], []⟩ };
     let th : ThreadRef := ThreadRef.pk 0 0 0; let gd := 4; let num := 5; dec ((s.thread th).arm = true) &&
     dec ((s.thread th).tcmp.toNat ≤ (s.dts (threadHalf th)).toNat) && dec ((s.thread th).phase = .lock gd num true)) = true := by
  decide +kernel

/-- `EventsAndWaits`: states and operands that meet the premises of its clauses (EventsPosted). -/
theorem test_EventsPosted :
    ((let s : State := pk0 0x88830001 [(3, 499), (4, 133)]; let s1 : State := s; let th : ThreadRef := ThreadRef.pk 0 0 0;
     let w : Nat := 0x88830001; let c : Fk := callOf s s1 th w; let n : Nat := c.g (wA w) % 128; issuesB s .evsig th s1 w &&
     dec (pcInRange th c.nextPc = true) && (!dec (isControl th = true) || (dec (n < 32))) && dec ((wImm8 w).testBit 0 = false)) &&
     (let s : State := pk0 0x88830001 [(3, 499), (4, 205)]; let s1 : State := s; let th : ThreadRef := ThreadRef.pk 0 0 0;
     let w : Nat := 0x88830001; let c : Fk := callOf s s1 th w; let n : Nat := c.g (wA w) % 128; issuesB s .evsig th s1 w &&
     dec (pcInRange th c.nextPc = true) && (!dec (isControl th = true) || (dec (n < 32))) && dec ((wImm8 w).testBit 0 = false)) &&
     (let s : State := pk0 0x88830001 [(3, 7936), (4, 205)]; let s1 : State := s; let th : ThreadRef := ThreadRef.pk 0 0 0;
     let w : Nat := 0x88830001; let c : Fk := callOf s s1 th w; let n : Nat := c.g (wA w) % 128; issuesB s .evsig th s1 w &&
     dec (pcInRange th c.nextPc = true) && (!dec (isControl th = true) || (dec (n < 32))) && dec ((wImm8 w).testBit 0 = false))) = true ∧
    ((let s : State := pk0 0x88830101 [(3, 499), (4, 133)]; let s1 : State := s; let th : ThreadRef := ThreadRef.pk 0 0 0;
     let w : Nat := 0x88830101; let c : Fk := callOf s s1 th w; let n : Nat := c.g (wA w) % 128; issuesB s .evsig th s1 w &&
     dec (pcInRange th c.nextPc = true) && (!dec (isControl th = true) || (dec (n < 32))) && dec ((wImm8 w).testBit 0 = true)) &&
     (let s : State := pk0 0x88830101 [(3, 499), (4, 205)]; let s1 : State := s; let th : ThreadRef := ThreadRef.pk 0 0 0;
     let w : Nat := 0x88830101; let c : Fk := callOf s s1 th w; let n : Nat := c.g (wA w) % 128; issuesB s .evsig th s1 w &&
     dec (pcInRange th c.nextPc = true) && (!dec (isControl th = true) || (dec (n < 32))) && dec ((wImm8 w).testBit 0 = true)) &&
     (let s : State := pk0 0x88830101 [(3, 7936), (4, 205)]; let s1 : State := s; let th : ThreadRef := ThreadRef.pk 0 0 0;
     let w : Nat := 0x88830101; let c : Fk := callOf s s1 th w; let n : Nat := c.g (wA w) % 128; issuesB s .evsig th s1 w &&
     dec (pcInRange th c.nextPc = true) && (!dec (isControl th = true) || (dec (n < 32))) && dec ((wImm8 w).testBit 0 = true))) = true ∧
    (([.privet, .control 0 1] : List (Agent)).all fun a => let s : State := pk0 0x0 [(2, 0x80000000), (3, 0x1234), (5, 7), (6, 0xFFFFFFFF), (7, 3)];
     let h : Half := 0; let t : TileIx := 0; let n : Fin 128 := 0; dec (s.threadWf (.pk h t n) = true) &&
     dec (s.agentReach a (coreOf h t n) = true)) = true ∧
    (let s : State := pk0 0x0 [(2, 0x80000000), (3, 0x1234), (5, 7), (6, 0xFFFFFFFF), (7, 3)]; let a : Agent := .jtag; let h : Half := 0;
     let t : TileIx := 0; let n : Fin 128 := 0; dec (s.threadWf (.pk h t n) = true) && dec (s.agentReach a (coreOf h t n) = false)) = true ∧
    (let s : State := pk0 0x0 [(2, 0x80000000), (3, 0x1234), (5, 7), (6, 0xFFFFFFFF), (7, 3)]; let th : ThreadRef := ThreadRef.pk 0 0 0;
     dec (s.threadWf th = true)) = true := by
  decide +kernel

/-- `InterruptsTaken`: states and operands that meet the premises of its clauses. -/
theorem test_InterruptsTaken :
    (let s : State := (th0 (pk0 0x0 [(2, 0x80000000), (3, 0x1234), (5, 7), (6, 0xFFFFFFFF), (7, 3)]) fun x => { x with ipend := 0x2C, ien := 0x28, rs := List.replicate 31 8 }).setReg (bTile 0 0) R.tile_INT_CFG 0x801;
     let h : Half := 0; let t : TileIx := 0; let n : Fin 128 := 0; let i : Nat := 3; let e : Nat := 0x800;
     dec (s.threadWf (.pk h t n) = true) && dec (Tbl.wf s.csr = true) && dec ((s.thread (.pk h t n)).canTakeInt = true) &&
     dec (s.stalled (.pk h t n) = false) && dec (s.live (coreOf h t n) = true) && dec ((s.thread (.pk h t n)).phase = .issuing) &&
     dec ((s.thread (.pk h t n)).readyInt = some i) && dec (s.intEntry (.pk h t n) = some e)) = true ∧
    (let s : State := cth (cc0 0x0 [(2, 0x80000000), (3, 0x1234), (5, 7), (6, 0xFFFFFFFF), (7, 3)]) fun x => { x with ipend := 0x2C, ien := 0x28, ivec := 0x100030000, k := [(0, 1)] };
     let h : Half := 0; let n : Fin 32 := 0; let i : Nat := 3; let e : Nat := 0x100030000; dec (s.threadWf (.cc h n) = true) &&
     dec (Tbl.wf (s.thread (.cc h n)).k = true) && dec ((s.thread (.cc h n)).canTakeInt = true) && dec (s.live (.half h) = true) &&
     dec ((s.thread (.cc h n)).phase = .issuing) && dec ((s.thread (.cc h n)).readyInt = some i) && dec (s.intEntry (.cc h n) = some e)) = true ∧
    ((let s : State := th0 (pk0 0x0 [(2, 0x80000000), (3, 0x1234), (5, 7), (6, 0xFFFFFFFF), (7, 3)]) fun x => { x with ipend := 0x2C, ien := 0x28 };
     let th : ThreadRef := ThreadRef.pk 0 0 0;
     dec ((s.thread th).canTakeInt = false ∨ s.stalled th = true ∨ (s.thread th).readyInt = none ∨ s.intEntry th = none)) &&
     (let s : State := (th0 (pk0 0x0 [(2, 0x80000000), (3, 0x1234), (5, 7), (6, 0xFFFFFFFF), (7, 3)]) fun x => { x with ipend := 0x2C, ien := 0x13 }).setReg (bTile 0 0) R.tile_INT_CFG 0x801;
     let th : ThreadRef := ThreadRef.pk 0 0 0;
     dec ((s.thread th).canTakeInt = false ∨ s.stalled th = true ∨ (s.thread th).readyInt = none ∨ s.intEntry th = none)) &&
     (let s : State := (th0 (pk0 0x0 [(2, 0x80000000), (3, 0x1234), (5, 7), (6, 0xFFFFFFFF), (7, 3)]) fun x => { x with ipend := 0x2C, ien := 0x28, halted := true }).setReg (bTile 0 0) R.tile_INT_CFG 0x801;
     let th : ThreadRef := ThreadRef.pk 0 0 0;
     dec ((s.thread th).canTakeInt = false ∨ s.stalled th = true ∨ (s.thread th).readyInt = none ∨ s.intEntry th = none))) = true ∧
    (let x : Thread := { Thread.init with ipend := 0x2C, ien := 0x28 }; let i : Nat := 3; dec (x.readyInt = some i)) = true ∧
    (let x : Thread := { Thread.init with ipend := 0x2C, ien := 0x28 }; let i : Nat := 3; let j := 2; dec (x.readyInt = some i) && dec (j < i)) = true ∧
    ((let x : Thread := { Thread.init with phase := .issuing, halted := true };
     dec (x.halted = true ∨ x.istat.getLsbD 31 = true ∨ 32 ≤ x.rs.length)) &&
     (let x : Thread := { Thread.init with phase := .issuing, istat := 0x80000000 };
     dec (x.halted = true ∨ x.istat.getLsbD 31 = true ∨ 32 ≤ x.rs.length)) &&
     (let x : Thread := { Thread.init with phase := .issuing, rs := List.replicate 32 0 };
     dec (x.halted = true ∨ x.istat.getLsbD 31 = true ∨ 32 ≤ x.rs.length))) = true := by
  decide +kernel

/-- `InterruptsTaken`: states and operands that meet the premises of its clauses (DeadlockDetected). -/
theorem test_DeadlockDetected :
    (let s : State := ((List.range 8).foldl (fun (s : State) i => s.updThread (.pk 0 0 (Fin.ofNat 128 i)) fun _ => { Thread.init with phase := .waitev 3 0xFF false false, task := some i }) (run0.updTile 0 0 fun y => { y with deadFor := [(0, 1024)] }));
     let h : Half := 0; let t : TileIx := 0; let c : Fin 4 := 0; let k : Fin 4 := 0;
     let th := ThreadRef.pk h t (Fin.ofNat 128 (32 * c.val + 8 * k.val));
     let u := ((s.report (.core h t c k) F.EVENT_DEADLOCK).bump (bCore h t c k) R.core_DEADLOCKS).raiseInt th 5; let gd := 3; let m := 0xFF;
     let timer := false; let clear := false; dec (tget 0 (s.tile h t).deadFor (4 * c.val + k.val) = 1024) &&
     dec ((u.thread th).phase = .waitev gd m timer clear)) = true ∧
    (let h : Half := 0; let t : TileIx := 0; let c : Fin 4 := 0; let k : Fin 4 := 0; let i : Nat := 5;
     let s : State := ((List.range 8).foldl (fun (s : State) i => s.updThread (.pk 0 0 (Fin.ofNat 128 i)) fun _ => { Thread.init with phase := .waitev 3 0xFF false false, task := some i }) run0).updThread (.pk 0 0 5) fun x => { x with arm := true, phase := .waitev 3 0xFF true false };
     dec (i < 8) && dec (s.deadThread h t (32 * c.val + 8 * k.val + i) = false)) = true ∧
    ((let s : State := ((List.range 8).foldl (fun (s : State) i => s.updThread (.pk 0 0 (Fin.ofNat 128 i)) fun _ => { Thread.init with phase := .waitev 3 0xFF false false, task := some i }) run0);
     let h : Half := 0; let t : TileIx := 0; let c : Fin 4 := 0; let k : Fin 4 := 0;
     dec (tget 0 (s.tile h t).deadFor (4 * c.val + k.val) ≠ 1024)) &&
     (let s : State := ((List.range 8).foldl (fun (s : State) i => s.updThread (.pk 0 0 (Fin.ofNat 128 i)) fun _ => { Thread.init with phase := .waitev 3 0xFF false false, task := some i }) run0).updThread (.pk 0 0 5) fun x => { x with arm := true, phase := .waitev 3 0xFF true false };
     let h : Half := 0; let t : TileIx := 0; let c : Fin 4 := 0; let k : Fin 4 := 0;
     dec (tget 0 (s.tile h t).deadFor (4 * c.val + k.val) ≠ 1024))) = true ∧
    ((let s : State := ((List.range 8).foldl (fun (s : State) i => s.updThread (.pk 0 0 (Fin.ofNat 128 i)) fun _ => { Thread.init with phase := .waitev 3 0xFF false false, task := some i }) run0);
     let h : Half := 0; dec (Tbl.wf (s.tiles.get h) = true)) &&
     (let s : State := ((List.range 8).foldl (fun (s : State) i => s.updThread (.pk 0 0 (Fin.ofNat 128 i)) fun _ => { Thread.init with phase := .waitev 3 0xFF false false, task := some i }) run0).updThread (.pk 0 0 5) fun x => { x with arm := true, phase := .waitev 3 0xFF true false };
     let h : Half := 0; dec (Tbl.wf (s.tiles.get h) = true))) = true := by
  decide +kernel

/-- `ThreadControl`: states and operands that meet the premises of its clauses. -/
theorem test_ThreadControl :
    (let s : State := pk0 0x0 [(2, 0x80000000), (3, 0x1234), (5, 7), (6, 0xFFFFFFFF), (7, 3)]; let a : Agent := .jtag;
     let th : ThreadRef := ThreadRef.pk 0 0 0; dec (s.agentReach a (threadUnit th) = false)) = true ∧
    (let s : State := { (pk0 0x0 [(2, 0x80000000), (3, 0x1234), (5, 7), (6, 0xFFFFFFFF), (7, 3)]) with pv := { run0.pv with unlocked := 1 } };
     let a : Agent := .privet; let th : ThreadRef := ThreadRef.pk 0 0 0; dec (s.agentReach a (threadUnit th) = true)) = true ∧
    (let s : State := { (pk0 0x0 [(2, 0x80000000), (3, 0x1234), (5, 7), (6, 0xFFFFFFFF), (7, 3)]) with pv := { run0.pv with unlocked := 1 } };
     let a : Agent := .privet; let th : ThreadRef := ThreadRef.pk 0 0 0; dec (s.agentReach a (threadUnit th) = true) &&
     dec (s.debugOpen th = true) && dec ((s.thread th).halted = false)) = true ∧
    (let s : State := { (th0 (pk0 0x0 [(2, 0x80000000), (3, 0x1234), (5, 7), (6, 0xFFFFFFFF), (7, 3)]) fun x => { x with halted := true }) with pv := { run0.pv with unlocked := 1 } };
     let a : Agent := .privet; let th : ThreadRef := ThreadRef.pk 0 0 0; dec (s.agentReach a (threadUnit th) = true) &&
     dec (s.debugOpen th = true) && dec ((s.thread th).halted = true)) = true ∧
    (let s : State := { (pk0 0x0 [(2, 0x80000000), (3, 0x1234), (5, 7), (6, 0xFFFFFFFF), (7, 3)]) with pv := { run0.pv with unlocked := 0 } };
     let a : Agent := .privet; let th : ThreadRef := ThreadRef.pk 0 0 0; dec (s.agentReach a (threadUnit th) = true) &&
     dec (s.debugOpen th = false)) = true ∧
    ((let s : State := pk0 0x0 [(2, 0x80000000), (3, 0x1234), (5, 7), (6, 0xFFFFFFFF), (7, 3)]; let a : Agent := .privet; let h : Half := 0;
     let t : TileIx := 0; let n : Fin 128 := 0; let k : Nat := 3; dec (s.agentReach a (coreOf h t n) = true) &&
     dec ((s.thread (.pk h t n)).task = some k)) &&
     (let s : State := th0 (pk0 0x0 [(2, 0x80000000), (3, 0x1234), (5, 7), (6, 0xFFFFFFFF), (7, 3)]) fun x => { x with halted := true };
     let a : Agent := .privet; let h : Half := 0; let t : TileIx := 0; let n : Fin 128 := 0; let k : Nat := 3;
     dec (s.agentReach a (coreOf h t n) = true) && dec ((s.thread (.pk h t n)).task = some k))) = true ∧
    (let s : State := th0 (pk0 0x0 [(2, 0x80000000), (3, 0x1234), (5, 7), (6, 0xFFFFFFFF), (7, 3)]) fun x => { x with halting := true };
     let th : ThreadRef := ThreadRef.pk 0 0 0; dec ((s.thread th).halting = true)) = true ∧
    ((let s : State := pk0 0x0 [(2, 0x80000000), (3, 0x1234), (5, 7), (6, 0xFFFFFFFF), (7, 3)]; let h : Half := 0; let t : TileIx := 0;
     let n : Fin 128 := 0; let k : Nat := 3; dec (s.threadWf (.pk h t n) = true) && dec (Tbl.wf (s.tile h t).tasks = true) &&
     dec ((s.thread (.pk h t n)).task = some k)) &&
     (let s : State := th0 (pk0 0x0 [(2, 0x80000000), (3, 0x1234), (5, 7), (6, 0xFFFFFFFF), (7, 3)]) fun x => { x with halted := true };
     let h : Half := 0; let t : TileIx := 0; let n : Fin 128 := 0; let k : Nat := 3; dec (s.threadWf (.pk h t n) = true) &&
     dec (Tbl.wf (s.tile h t).tasks = true) && dec ((s.thread (.pk h t n)).task = some k)) &&
     (let s : State := (th0 (pk0 0x0 [(2, 0x80000000), (3, 0x1234), (5, 7), (6, 0xFFFFFFFF), (7, 3)]) fun x => { x with halted := true }).updTask 0 0 3 fun y => { y with state := .halted };
     let h : Half := 0; let t : TileIx := 0; let n : Fin 128 := 0; let k : Nat := 3; dec (s.threadWf (.pk h t n) = true) &&
     dec (Tbl.wf (s.tile h t).tasks = true) && dec ((s.thread (.pk h t n)).task = some k))) = true ∧
    ((let s : State := pk0 0x0 [(2, 0x80000000), (3, 0x1234), (5, 7), (6, 0xFFFFFFFF), (7, 3)]; let h : Half := 0; let t : TileIx := 0;
     let n : Fin 128 := 0; let k : Nat := 3; dec (s.threadWf (.pk h t n) = true) && dec (Tbl.wf (s.tile h t).tasks = true) &&
     dec ((s.thread (.pk h t n)).task = some k) && dec ((s.task h t k).state = .running)) &&
     (let s : State := th0 (pk0 0x0 [(2, 0x80000000), (3, 0x1234), (5, 7), (6, 0xFFFFFFFF), (7, 3)]) fun x => { x with halted := true };
     let h : Half := 0; let t : TileIx := 0; let n : Fin 128 := 0; let k : Nat := 3; dec (s.threadWf (.pk h t n) = true) &&
     dec (Tbl.wf (s.tile h t).tasks = true) && dec ((s.thread (.pk h t n)).task = some k) && dec ((s.task h t k).state = .running))) = true ∧
    (let s : State := (th0 (pk0 0x0 [(2, 0x80000000), (3, 0x1234), (5, 7), (6, 0xFFFFFFFF), (7, 3)]) fun x => { x with halted := true }).updTask 0 0 3 fun y => { y with state := .halted };
     let h : Half := 0; let t : TileIx := 0; let n : Fin 128 := 0; let k : Nat := 3; dec (s.threadWf (.pk h t n) = true) &&
     dec (Tbl.wf (s.tile h t).tasks = true) && dec ((s.thread (.pk h t n)).task = some k) && dec ((s.task h t k).state = .halted) &&
     dec ((s.thread (.pk h t n)).phase = .issuing)) = true := by
  decide +kernel

/-- `ChannelInstructions`: states and operands that meet the premises of its clauses. -/
theorem test_ChannelInstructions :
    (let s : State := pk0 0x8C060700 [(2, 0x80000000), (3, 0x1234), (5, 7), (6, 0xFFFFFFFF), (7, 3)]; let s1 : State := s;
     let th : ThreadRef := ThreadRef.pk 0 0 0; let w : Nat := 0x8C060700; let c : Fk := callOf s s1 th w; dec (pcInRange th c.nextPc = true) &&
     issuesB s .chstg th s1 w) = true ∧
    (let s : State := th0 (pk0 0x8C000003 [(2, 0x80000000), (3, 0x1234), (5, 7), (6, 0xFFFFFFFF), (7, 3)]) fun x => { x with staging := [(1, 5)] };
     let s1 : State := s; let th : ThreadRef := ThreadRef.pk 0 0 0; let w : Nat := 0x8C000003; let c : Fk := callOf s s1 th w;
     dec (pcInRange th c.nextPc = true) && issuesB s .chdrop th s1 w) = true ∧
    (let s : State := th0 (pk0 0x8C850301 [(2, 0x80000000), (3, 0x1234), (5, 7), (6, 0xFFFFFFFF), (7, 3)]) fun x => { x with staging := [(1, 5)] };
     let s1 : State := s; let th : ThreadRef := ThreadRef.pk 0 0 0; let u : State := s1.atIssue th; let w : Nat := 0x8C850301;
     let c : Fk := callOf s s1 th w; let n := c.g (wB w) % 256; dec (pcInRange th c.nextPc = true) && issuesB s .chsend th s1 w &&
     dec (u.chanOpen th n = false)) = true ∧
    (let s : State := (th0 (pk0 0x8C850301 [(2, 0x80000000), (3, 0x1234), (5, 7), (6, 0xFFFFFFFF), (7, 3)]) fun x => { x with staging := [(1, 5)] }).setReg (bChannel 0 0) (R.channel_CH_CFG + 56) 0x101 |>.updTile 0 0 fun y => { y with chans := [(7, [(⟨1, 1, [7]⟩ : Message), (⟨2, 2, [7, 8]⟩ : Message)])] };
     let s1 : State := s; let th : ThreadRef := ThreadRef.pk 0 0 0; let u : State := s1.atIssue th; let w : Nat := 0x8C850301;
     let c : Fk := callOf s s1 th w; let n := c.g (wB w) % 256; dec (pcInRange th c.nextPc = true) && issuesB s .chsend th s1 w &&
     dec (u.chanOpen th n = true) && dec (chCap (u.chCfg th n) ≤ (u.chan th n).length)) = true ∧
    ((let s : State := (th0 (pk0 0x8C850301 [(2, 0x80000000), (3, 0x1234), (5, 7), (6, 0xFFFFFFFF), (7, 3)]) fun x => { x with staging := [(1, 5)] }).setReg (bChannel 0 0) (R.channel_CH_CFG + 56) 0x101 |>.updTile 0 0 fun y => { y with chans := [(7, [(⟨2, 2, [7, 8]⟩ : Message)])] };
     let s1 : State := s; let th : ThreadRef := ThreadRef.pk 0 0 0; let u : State := s1.atIssue th; let w : Nat := 0x8C850301;
     let c : Fk := callOf s s1 th w; let n := c.g (wB w) % 256; dec (pcInRange th c.nextPc = true) && issuesB s .chsend th s1 w &&
     dec (u.chanOpen th n = true) && dec ((u.chan th n).length < chCap (u.chCfg th n))) &&
     (let s : State := (th0 (pk0 0x8C850301 [(2, 0x80000000), (3, 0x1234), (5, 7), (6, 0xFFFFFFFF), (7, 3)]) fun x => { x with staging := [(1, 5)] }).setReg (bChannel 0 0) (R.channel_CH_CFG + 56) 0x80000101;
     let s1 : State := s; let th : ThreadRef := ThreadRef.pk 0 0 0; let u : State := s1.atIssue th; let w : Nat := 0x8C850301;
     let c : Fk := callOf s s1 th w; let n := c.g (wB w) % 256; dec (pcInRange th c.nextPc = true) && issuesB s .chsend th s1 w &&
     dec (u.chanOpen th n = true) && dec ((u.chan th n).length < chCap (u.chCfg th n)))) = true ∧
    (let s : State := pk0 0x8D050002 [(5, 7), (8, 16)]; let s1 : State := s; let th : ThreadRef := ThreadRef.pk 0 0 0;
     let u : State := s1.atIssue th; let w : Nat := 0x8D050002; let c : Fk := callOf s s1 th w; let n := c.g (wB w) % 256;
     let v := (u.putArea th (c.gFull (wA w)) (recvBytes 2 none)).1; dec (pcInRange th c.nextPc = true) && issuesB s .chrecv th s1 w &&
     dec (v.waits = s.waits) && dec (u.chanOpen th n = false) && dec ((u.putArea th (c.gFull (wA w)) (recvBytes 2 none)).2 = (none))) = true ∧
    (let s : State := (pk0 0x8D050002 [(5, 7), (8, 16)]).setReg (bChannel 0 0) (R.channel_CH_CFG + 56) 0x101; let s1 : State := s;
     let th : ThreadRef := ThreadRef.pk 0 0 0; let u : State := s1.atIssue th; let w : Nat := 0x8D050002; let c : Fk := callOf s s1 th w;
     let n := c.g (wB w) % 256; let v := (u.putArea th (c.gFull (wA w)) (recvBytes 1 none)).1; dec (pcInRange th c.nextPc = true) &&
     issuesB s .chrecv th s1 w && dec (v.waits = s.waits) && dec (u.chanOpen th n = true) && dec (u.chan th n = []) &&
     dec ((u.putArea th (c.gFull (wA w)) (recvBytes 1 none)).2 = (none))) = true ∧
    ((let s : State := (pk0 0x8D050002 [(5, 7), (8, 16)]).setReg (bChannel 0 0) (R.channel_CH_CFG + 56) 0x101 |>.updTile 0 0 fun y => { y with chans := [(7, [(⟨2, 2, [7, 8]⟩ : Message)])] };
     let s1 : State := s; let th : ThreadRef := ThreadRef.pk 0 0 0; let u : State := s1.atIssue th; let w : Nat := 0x8D050002;
     let c : Fk := callOf s s1 th w; let n := c.g (wB w) % 256; let m := (⟨2, 2, [7, 8]⟩ : Message);
     let v := (u.putArea th (c.gFull (wA w)) (recvBytes 0 (some m))).1; let r := []; dec (pcInRange th c.nextPc = true) &&
     issuesB s .chrecv th s1 w && dec (v.waits = s.waits) && dec (u.chanOpen th n = true) && dec (u.chan th n = m :: r) &&
     dec ((u.putArea th (c.gFull (wA w)) (recvBytes 0 (some m))).2 = (none))) &&
     (let s : State := (pk0 0x8D050002 [(5, 7), (8, 16)]).setReg (bChannel 0 0) (R.channel_CH_CFG + 56) 0x101 |>.updTile 0 0 fun y => { y with chans := [(7, [(⟨1, 1, [7]⟩ : Message), (⟨2, 2, [7, 8]⟩ : Message)])] };
     let s1 : State := s; let th : ThreadRef := ThreadRef.pk 0 0 0; let u : State := s1.atIssue th; let w : Nat := 0x8D050002;
     let c : Fk := callOf s s1 th w; let n := c.g (wB w) % 256; let m := (⟨1, 1, [7]⟩ : Message);
     let v := (u.putArea th (c.gFull (wA w)) (recvBytes 0 (some m))).1; let r := [(⟨2, 2, [7, 8]⟩ : Message)];
     dec (pcInRange th c.nextPc = true) && issuesB s .chrecv th s1 w && dec (v.waits = s.waits) && dec (u.chanOpen th n = true) &&
     dec (u.chan th n = m :: r) && dec ((u.putArea th (c.gFull (wA w)) (recvBytes 0 (some m))).2 = (none)))) = true ∧
    ((let s : State := pk0 0x0 [(2, 0x80000000), (3, 0x1234), (5, 7), (6, 0xFFFFFFFF), (7, 3)]; let h : Half := 0; let t : TileIx := 0;
     let n : Fin 128 := 0; let k : Nat := 7; dec (Tbl.wf (s.tiles.get h) = true) && dec (Tbl.wf (s.tile h t).chans = true) &&
     dec (bit (s.chCfg (.pk h t n) k) 31 = false)) &&
     (let s : State := (pk0 0x0 [(2, 0x80000000), (3, 0x1234), (5, 7), (6, 0xFFFFFFFF), (7, 3)]).setReg (bChannel 0 0) (R.channel_CH_CFG + 56) 0x101 |>.updTile 0 0 fun y => { y with chans := [(7, [(⟨2, 2, [7, 8]⟩ : Message)])] };
     let h : Half := 0; let t : TileIx := 0; let n : Fin 128 := 0; let k : Nat := 7; dec (Tbl.wf (s.tiles.get h) = true) &&
     dec (Tbl.wf (s.tile h t).chans = true) && dec (bit (s.chCfg (.pk h t n) k) 31 = false))) = true ∧
    (([(false, 7),
         (true, 63)] : List (Bool × (Fin 256))).all fun (control, ch) => let s : State := pk0 0x0 [(2, 0x80000000), (3, 0x1234), (5, 7), (6, 0xFFFFFFFF), (7, 3)];
     let a : Agent := .privet; let h : Half := 0; let t : TileIx := 0; let th : ThreadRef := (if control then .cc h 0 else .pk h t 0);
     let u : UnitId := (if control then .half h else .tile h t); dec (ch.val < chanCount th) && dec (s.agentReach a u = true)) = true ∧
    (let s : State := pk0 0x0 [(2, 0x80000000), (3, 0x1234), (5, 7), (6, 0xFFFFFFFF), (7, 3)]; let a : Agent := .jtag; let h : Half := 0;
     let control : Bool := true; let t : TileIx := 0; let ch : Fin 256 := 63; let th : ThreadRef := (if control then .cc h 0 else .pk h t 0);
     let u : UnitId := (if control then .half h else .tile h t); dec (ch.val < chanCount th) && dec (s.agentReach a u = false)) = true ∧
    (let s : State := (List.range 64).foldl (fun (s : State) i => s.setReg (bChannel 0 0) (R.channel_CH_CFG + 8 * i) 0x601) (pk0 0x0 [(2, 0x80000000), (3, 0x1234), (5, 7), (6, 0xFFFFFFFF), (7, 3)]);
     let h : Half := 0; let t : TileIx := 0; let n : Fin 128 := 0; let k : Nat := 100; let v : DWord := 0x101; dec (Tbl.wf s.csr = true) &&
     dec (Tbl.wf (s.tiles.get h) = true) && dec (Tbl.wf (s.tile h t).chans = true) && dec (bit v 0 = true) &&
     dec (bit (s.chCfg (.pk h t n) k) 0 = false) && dec (4096 < s.chanDepths (.pk h t n) k + chCap (BitVec.ofNat 64 (fld v 8 4 <<< 8)))) = true ∧
    (let s : State := (pk0 0x0 [(2, 0x80000000), (3, 0x1234), (5, 7), (6, 0xFFFFFFFF), (7, 3)]).setReg (bChannel 0 0) (R.channel_CH_CFG + 56) 0x101 |>.updTile 0 0 fun y => { y with chans := [(7, [(⟨2, 2, [7, 8]⟩ : Message)])] };
     let h : Half := 0; let t : TileIx := 0; let n : Fin 128 := 0; let k : Nat := 7; let v : DWord := 0x600; dec (Tbl.wf s.csr = true) &&
     dec (Tbl.wf (s.tiles.get h) = true) && dec (Tbl.wf (s.tile h t).chans = true) && dec (bit v 0 = false) &&
     dec (bit (s.chCfg (.pk h t n) k) 0 = true)) = true := by
  decide +kernel

/-- `LockInstructions`: states and operands that meet the premises of its clauses. -/
theorem test_LockInstructions :
    (([(0x90850100, FkOp.lock), (0x90850002, FkOp.trylock)] : List (Nat × _)).all fun (w, e2) => let th : ThreadRef := ThreadRef.pk 0 0 0;
     let s : State := pk0 w [(5, 5)]; let s1 : State := s; let u : State := s1.atIssue th; let p : LockParty := u.partyOf th;
     let c : Fk := callOf s s1 th w; let num : Nat := c.g (wB w) % 8192; dec (pcInRange th c.nextPc = true) && issuesB s e2 th s1 w &&
     dec (u.lockStatus p num = some 0)) = true ∧
    (([(0x90850100, FkOp.lock), (0x90850002, FkOp.trylock)] : List (Nat × _)).all fun (w, e2) => let th : ThreadRef := ThreadRef.pk 0 0 0;
     let s : State := pk0 w [(5, 4352)]; let s1 : State := s; let u : State := s1.atIssue th; let p : LockParty := u.partyOf th;
     let c : Fk := callOf s s1 th w; let num : Nat := c.g (wB w) % 8192; let n := 7; dec (pcInRange th c.nextPc = true) &&
     issuesB s e2 th s1 w && dec (u.lockStatus p num = some n) && dec (n ≠ 0)) = true ∧
    (let s : State := { (pk0 0x90850100 [(5, 5)]) with locks := ⟨[(5, { holder := some (.control 0 3), waiters := [] })], []⟩ };
     let s1 : State := s; let th : ThreadRef := ThreadRef.pk 0 0 0; let u : State := s1.atIssue th; let w : Nat := 0x90850100;
     let p : LockParty := u.partyOf th; let c : Fk := callOf s s1 th w; let num : Nat := c.g (wB w) % 8192;
     dec (pcInRange th c.nextPc = true) && issuesB s .lock th s1 w && dec (u.lockStatus p num = none)) = true ∧
    (let s : State := { (pk0 0x90850002 [(5, 5)]) with locks := ⟨[(5, { holder := some (.control 0 3), waiters := [] })], []⟩ };
     let s1 : State := s; let th : ThreadRef := ThreadRef.pk 0 0 0; let u : State := s1.atIssue th; let w : Nat := 0x90850002;
     let p : LockParty := u.partyOf th; let c : Fk := callOf s s1 th w; let num : Nat := c.g (wB w) % 8192;
     dec (pcInRange th c.nextPc = true) && issuesB s .trylock th s1 w && dec (u.lockStatus p num = none)) = true ∧
    ((let s : State := { (pk0 0x90850001 [(5, 5)]) with locks := ⟨[(5, { holder := some (.control 0 3), waiters := [] })], []⟩ };
     let s1 : State := s; let th : ThreadRef := ThreadRef.pk 0 0 0; let w : Nat := 0x90850001; let c : Fk := callOf s s1 th w;
     dec (pcInRange th c.nextPc = true) && issuesB s .unlock th s1 w) &&
     (let s : State := { (pk0 0x90850001 [(5, 5)]) with locks := ⟨[(5, { holder := some (.task 0 0 3), waiters := [] })], []⟩ };
     let s1 : State := s; let th : ThreadRef := ThreadRef.pk 0 0 0; let w : Nat := 0x90850001; let c : Fk := callOf s s1 th w;
     dec (pcInRange th c.nextPc = true) && issuesB s .unlock th s1 w)) = true ∧
    (let num : Nat := 4352; dec (4352 ≤ num)) = true ∧
    ((let s : State := pk0 0x0 [(2, 0x80000000), (3, 0x1234), (5, 7), (6, 0xFFFFFFFF), (7, 3)]; let p : LockParty := .task 1 0 3;
     let num : Nat := 4300; dec (num < 4352) && dec (s.lockUnavailable p.half num = true)) && (let s : State := inState run0 (.locks 0) .fenced;
     let p : LockParty := .task 0 0 3; let num : Nat := 5; dec (num < 4352) && dec (s.lockUnavailable p.half num = true))) = true ∧
    (let s : State := { ((pk0 0x0 [(2, 0x80000000), (3, 0x1234), (5, 7), (6, 0xFFFFFFFF), (7, 3)])) with locks := ⟨[(5, { holder := some (.control 0 3), waiters := [] })], []⟩ };
     let p : LockParty := .control 0 3; let num : Nat := 5; dec (num < 4352) && dec (s.lockUnavailable p.half num = false) &&
     dec ((s.lock (lockHome p.half num) num).holder = some p)) = true ∧
    (let s : State := { ((pk0 0x0 [(2, 0x80000000), (3, 0x1234), (5, 7), (6, 0xFFFFFFFF), (7, 3)])) with locks := ⟨[(5, { holder := some (.control 0 3), waiters := [] })], []⟩ };
     let p : LockParty := .task 0 0 3; let num : Nat := 5; dec (num < 4352) && dec (s.lockUnavailable p.half num = false) &&
     dec ((s.lock (lockHome p.half num) num).holder ≠ some p)) = true ∧
    (let s : State := { (pk0 0x0 [(2, 0x80000000), (3, 0x1234), (5, 7), (6, 0xFFFFFFFF), (7, 3)]) with locks := ⟨(List.range 8).map fun i => (i, { holder := some (.task 0 0 3), waiters := [] }), []⟩ };
     let p : LockParty := .task 0 0 3; let num : Nat := 9; dec (num < 4352) && dec (s.lockUnavailable p.half num = false) &&
     dec ((s.lock (lockHome p.half num) num).holder ≠ some p) && dec (s.lockLimit p = true)) = true ∧
    (let s : State := { ((pk0 0x0 [(2, 0x80000000), (3, 0x1234), (5, 7), (6, 0xFFFFFFFF), (7, 3)])) with locks := ⟨[(5, { holder := some (.control 0 3), waiters := [] })], []⟩ };
     let p : LockParty := .task 0 0 3; let num : Nat := 6; dec (num < 4352) && dec (s.lockUnavailable p.half num = false) &&
     dec ((s.lock (lockHome p.half num) num).holder ≠ some p) && dec (s.lockLimit p = false)) = true ∧
    (([(pk0 0x90850100 [(5, 5)], .task 0 0 3), (pk0 0x90850002 [(5, 5)], .task 0 0 3),
         (cc0 0x90850100 [(5, 5)], .control 0 0)] : List (State × LockParty)).all fun (s, p) => let num : Nat := 5;
     dec (Tbl.wf (s.locks.get (lockHome p.half num)) = true)) = true ∧
    (let s : State := { ((pk0 0x0 [(2, 0x80000000), (3, 0x1234), (5, 7), (6, 0xFFFFFFFF), (7, 3)])) with locks := ⟨[(5, { holder := some (.control 0 3), waiters := [] })], []⟩ };
     let hm : Half := 0; let num : Nat := 5; dec (Tbl.wf (s.locks.get hm) = true) && dec ((s.lock hm num).waiters = [])) = true ∧
    ((let s : State := { run0 with locks := ⟨[(5, { holder := some (.control 0 3), waiters := [⟨.task 0 0 3, 2⟩] })], []⟩ };
     let a : Agent := .privet; let h : Half := 0; let num : Fin 8192 := 5; let p := .control 0 3; dec (s.agentReach a (.locks h) = true) &&
     dec (∀ h n, a = .control h n → (s.thread (.cc h n)).user = false) && dec (num.val < 4096 ∨ (h = 0 ∧ num.val < 4352)) &&
     dec ((s.lock h num.val).holder = some p)) &&
     (let s : State := { run0 with locks := ⟨[(4100, { holder := some (.control 0 3), waiters := [⟨.task 0 0 3, 2⟩] })], []⟩ };
     let a : Agent := .privet; let h : Half := 0; let num : Fin 8192 := 4100; let p := .control 0 3; dec (s.agentReach a (.locks h) = true) &&
     dec (∀ h n, a = .control h n → (s.thread (.cc h n)).user = false) && dec (num.val < 4096 ∨ (h = 0 ∧ num.val < 4352)) &&
     dec ((s.lock h num.val).holder = some p))) = true := by
  decide +kernel

/-- `TableRequestsIssue`: states and operands that meet the premises of its clauses. -/
theorem test_TableRequestsIssue :
    ((let h : Half := 0; let t : TileIx := 0; let n : Fin 128 := 0; let w : Nat := 0x80A63800;
     let s : State := { (pk0 w [(5, 0x100010), (6, 32), (7, 0x09)]) with tab := ⟨{ TableState.reset with exact := [(0, { key := 0, result := 0x77, tid := 9, ageProf := 1, age := 0, vstate := 0, batch := 0, learned := true, hit := false, at0 := 0, noticed := false : ExEntry })] }, TableState.reset⟩ };
     let s1 : State := s; let u : State := s1.atIssue (.pk h t n); let k : Nat := u.slotOfThread h t n; let c : Fk := callOf s s1 (.pk h t n) w;
     let l : Loc := .store (448*3+32); let bs : List Byte := List.replicate 16 0; let e2 := FkOp.lookup; let e3 := 0; let e4 := 16; let e5 := 1;
     let e6 := 16; issuesB s e2 (.pk h t n) s1 w && dec (c.g (wB w) % 16 = 0) && exEq (u.pkPlace h t n (c.g (wB w)) e6) (.ok l) &&
     (!dec (e4 = 0) || (dec (bs = []))) && (!dec (e4 ≠ 0) || ((dec (c.g (wA w) % e5 = 0)) &&
     (exEq (u.pkSpan h t n (c.g (wA w)) e4) (.ok bs)))) && dec (u.dcFull h t k (wDc w) = false) && dec (u.live (tblUnit h e3) = true) &&
     dec (pcInRange (.pk h t n) c.nextPc = true)) && (([(0x80A60060, FkOp.flowFind, 3),
         (0x80A60080, FkOp.flowFindInsert, 4)] : List (Nat × _ × _)).all fun (w, e2, e3) => let h : Half := 0; let t : TileIx := 0;
     let n : Fin 128 := 0;
     let s : State := { (pk0 w [(5, 0x100010), (6, 0x100040), (7, 0x09)]) with tab := ⟨{ TableState.reset with exact := [(0, { key := 0, result := 0x77, tid := 9, ageProf := 1, age := 0, vstate := 0, batch := 0, learned := true, hit := false, at0 := 0, noticed := false : ExEntry })] }, TableState.reset⟩ };
     let s1 : State := s; let u : State := s1.atIssue (.pk h t n); let k : Nat := u.slotOfThread h t n; let c : Fk := callOf s s1 (.pk h t n) w;
     let l : Loc := .ram 0x40; let bs : List Byte := List.replicate 64 0; let e4 := 64; let e5 := 1; let e6 := 80;
     issuesB s e2 (.pk h t n) s1 w && dec (c.g (wB w) % 16 = 0) && exEq (u.pkPlace h t n (c.g (wB w)) e6) (.ok l) &&
     (!dec (e4 = 0) || (dec (bs = []))) && (!dec (e4 ≠ 0) || ((dec (c.g (wA w) % e5 = 0)) &&
     (exEq (u.pkSpan h t n (c.g (wA w)) e4) (.ok bs)))) && dec (u.dcFull h t k (wDc w) = false) && dec (u.live (tblUnit h e3) = true) &&
     dec (pcInRange (.pk h t n) c.nextPc = true))) = true ∧
    (([(0x80A63820, { (pk0 0x80A63820 [(5, 0x100010), (6, 32), (7, 0x09)]) with tab := ⟨{ TableState.reset with exact := [(0, { key := 0, result := 0x77, tid := 9, ageProf := 1, age := 0, vstate := 0, batch := 0, learned := true, hit := false, at0 := 0, noticed := false : ExEntry })] }, TableState.reset⟩ }, .store (448*3+32),
         [], FkOp.groupSelect, 1, 0, 1, 16, groupBody),
         (0x80A63840, { (pk0 0x80A63840 [(5, 0x100010), (6, 32), (7, 0x09)]) with tab := ⟨{ TableState.reset with exact := [(0, { key := 0, result := 0x77, tid := 9, ageProf := 1, age := 0, vstate := 0, batch := 0, learned := true, hit := false, at0 := 0, noticed := false : ExEntry })] }, TableState.reset⟩ }, .store (448*3+32),
         List.replicate 4 0, FkOp.lpm, 2, if ((callOf ({ (pk0 0x80A63840 [(5, 0x100010), (6, 32), (7, 0x09)]) with tab := ⟨{ TableState.reset with exact := [(0, { key := 0, result := 0x77, tid := 9, ageProf := 1, age := 0, vstate := 0, batch := 0, learned := true, hit := false, at0 := 0, noticed := false : ExEntry })] }, TableState.reset⟩ }) ({ (pk0 0x80A63840 [(5, 0x100010), (6, 32), (7, 0x09)]) with tab := ⟨{ TableState.reset with exact := [(0, { key := 0, result := 0x77, tid := 9, ageProf := 1, age := 0, vstate := 0, batch := 0, learned := true, hit := false, at0 := 0, noticed := false : ExEntry })] }, TableState.reset⟩ }) (.pk 0 0 0) 0x80A63840).g (wC 0x80A63840)).testBit 16 then 16 else 4, 1, 16, lpmBody),
         (0x80A638A0, { (pk0 0x80A638A0 [(5, 0x100010), (6, 0x100040), (7, 0x09)]) with tab := ⟨{ TableState.reset with exact := [(0, { key := 0, result := 0x77, tid := 9, ageProf := 1, age := 0, vstate := 0, batch := 0, learned := true, hit := false, at0 := 0, noticed := false : ExEntry })] }, TableState.reset⟩ }, .ram 0x40, List.replicate 64 0, FkOp.flowWrite, 5, 64, 1, 80, flowWriteBody),
         (0x80A638C0, { (pk0 0x80A638C0 [(5, 0x100010), (6, 0x100040), (7, 0x09)]) with tab := ⟨{ TableState.reset with exact := [(0, { key := 0, result := 0x77, tid := 9, ageProf := 1, age := 0, vstate := 0, batch := 0, learned := true, hit := false, at0 := 0, noticed := false : ExEntry })] }, TableState.reset⟩ }, .ram 0x40, List.replicate 64 0, FkOp.flowDelete, 6, 64, 1, 80, flowDeleteBody),
         (0x80A638E0, { (pk0 0x80A638E0 [(5, 0x100010), (6, 32), (7, 0x09)]) with tab := ⟨{ TableState.reset with exact := [(0, { key := 0, result := 0x77, tid := 9, ageProf := 1, age := 0, vstate := 0, batch := 0, learned := true, hit := false, at0 := 0, noticed := false : ExEntry })] }, TableState.reset⟩ }, .store (448*3+32),
         [], FkOp.meter, 7, 0, 1, 16, meterBody),
         (0x80A60120, { (pk0 0x80A60120 [(5, 0x100010), (6, 32), (7, 0x09)]) with tab := ⟨{ TableState.reset with exact := [(0, { key := 0, result := 0x77, tid := 9, ageProf := 1, age := 0, vstate := 0, batch := 0, learned := true, hit := false, at0 := 0, noticed := false : ExEntry })] }, TableState.reset⟩ }, .store (448*3+32),
         List.replicate 80 0, FkOp.search, 9, 80, 16, 16, searchBody fun _ => none),
         (0x80A63940, { (pk0 0x80A63940 [(5, 0x100010), (6, 32), (7, 0x09)]) with tab := ⟨{ TableState.reset with exact := [(0, { key := 0, result := 0x77, tid := 9, ageProf := 1, age := 0, vstate := 0, batch := 0, learned := true, hit := false, at0 := 0, noticed := false : ExEntry })] }, TableState.reset⟩ }, .store (448*3+32),
         List.replicate 80 0, FkOp.step, 10, 80, 16, 16, searchBody fun q => some (bits q.gc 0 28))] : List (Nat × State × Loc × (List Byte) × _ × _ × _ × _ × _ × _)).all fun (w, s, l, bs, e2, e3, e4, e5, e6, e7) => let h : Half := 0;
     let t : TileIx := 0; let n : Fin 128 := 0; let s1 : State := s; let u : State := s1.atIssue (.pk h t n);
     let k : Nat := u.slotOfThread h t n; let c : Fk := callOf s s1 (.pk h t n) w;
     let r : TblRes := e7 u ⟨h, t, k, (u.task h t k).stamp.toNat, c, bs⟩; issuesB s e2 (.pk h t n) s1 w && dec (c.g (wB w) % 16 = 0) &&
     exEq (u.pkPlace h t n (c.g (wB w)) e6) (.ok l) && (!dec (e4 = 0) || (dec (bs = []))) && (!dec (e4 ≠ 0) || ((dec (c.g (wA w) % e5 = 0)) &&
     (exEq (u.pkSpan h t n (c.g (wA w)) e4) (.ok bs)))) && dec (u.dcFull h t k (wDc w) = false) && dec (u.live (tblUnit h e3) = true) &&
     dec (pcInRange (.pk h t n) c.nextPc = true) && dec (r.s.waits = s.waits)) = true ∧
    (([(0x80A63A00, withTask ({ (pk0 0x80A63A00 [(5, 0x100010), (6, 32), (7, 0x09)]) with tab := ⟨{ TableState.reset with exact := [(0, { key := 0, result := 0x77, tid := 9, ageProf := 1, age := 0, vstate := 0, batch := 0, learned := true, hit := false, at0 := 0, noticed := false : ExEntry })] }, TableState.reset⟩ }) 3 { ready 2 with state := .running, thread := some 0, dc1 := 255 }, .store (448*3+32),
         List.replicate 16 0, FkOp.lookup, 0, 16, 1, 16),
         (0x80A63A20, withTask ({ (pk0 0x80A63A20 [(5, 0x100010), (6, 32), (7, 0x09)]) with tab := ⟨{ TableState.reset with exact := [(0, { key := 0, result := 0x77, tid := 9, ageProf := 1, age := 0, vstate := 0, batch := 0, learned := true, hit := false, at0 := 0, noticed := false : ExEntry })] }, TableState.reset⟩ }) 3 { ready 2 with state := .running, thread := some 0, dc1 := 255 }, .store (448*3+32),
         [], FkOp.groupSelect, 1, 0, 1, 16),
         (0x80A63A40, withTask ({ (pk0 0x80A63A40 [(5, 0x100010), (6, 32), (7, 0x09)]) with tab := ⟨{ TableState.reset with exact := [(0, { key := 0, result := 0x77, tid := 9, ageProf := 1, age := 0, vstate := 0, batch := 0, learned := true, hit := false, at0 := 0, noticed := false : ExEntry })] }, TableState.reset⟩ }) 3 { ready 2 with state := .running, thread := some 0, dc1 := 255 }, .store (448*3+32),
         List.replicate 4 0, FkOp.lpm, 2, if ((callOf (withTask ({ (pk0 0x80A63A40 [(5, 0x100010), (6, 32), (7, 0x09)]) with tab := ⟨{ TableState.reset with exact := [(0, { key := 0, result := 0x77, tid := 9, ageProf := 1, age := 0, vstate := 0, batch := 0, learned := true, hit := false, at0 := 0, noticed := false : ExEntry })] }, TableState.reset⟩ }) 3 { ready 2 with state := .running, thread := some 0, dc1 := 255 }) (withTask ({ (pk0 0x80A63A40 [(5, 0x100010), (6, 32), (7, 0x09)]) with tab := ⟨{ TableState.reset with exact := [(0, { key := 0, result := 0x77, tid := 9, ageProf := 1, age := 0, vstate := 0, batch := 0, learned := true, hit := false, at0 := 0, noticed := false : ExEntry })] }, TableState.reset⟩ }) 3 { ready 2 with state := .running, thread := some 0, dc1 := 255 }) (.pk 0 0 0) 0x80A63A40).g (wC 0x80A63A40)).testBit 16 then 16 else 4, 1, 16),
         (0x80A60260, withTask ({ (pk0 0x80A60260 [(5, 0x100010), (6, 0x100040), (7, 0x09)]) with tab := ⟨{ TableState.reset with exact := [(0, { key := 0, result := 0x77, tid := 9, ageProf := 1, age := 0, vstate := 0, batch := 0, learned := true, hit := false, at0 := 0, noticed := false : ExEntry })] }, TableState.reset⟩ }) 3 { ready 2 with state := .running, thread := some 0, dc1 := 255 }, .ram 0x40, List.replicate 64 0, FkOp.flowFind, 3, 64, 1, 80),
         (0x80A60280, withTask ({ (pk0 0x80A60280 [(5, 0x100010), (6, 0x100040), (7, 0x09)]) with tab := ⟨{ TableState.reset with exact := [(0, { key := 0, result := 0x77, tid := 9, ageProf := 1, age := 0, vstate := 0, batch := 0, learned := true, hit := false, at0 := 0, noticed := false : ExEntry })] }, TableState.reset⟩ }) 3 { ready 2 with state := .running, thread := some 0, dc1 := 255 }, .ram 0x40, List.replicate 64 0, FkOp.flowFindInsert, 4, 64, 1, 80),
         (0x80A63AA0, withTask ({ (pk0 0x80A63AA0 [(5, 0x100010), (6, 0x100040), (7, 0x09)]) with tab := ⟨{ TableState.reset with exact := [(0, { key := 0, result := 0x77, tid := 9, ageProf := 1, age := 0, vstate := 0, batch := 0, learned := true, hit := false, at0 := 0, noticed := false : ExEntry })] }, TableState.reset⟩ }) 3 { ready 2 with state := .running, thread := some 0, dc1 := 255 }, .ram 0x40, List.replicate 64 0, FkOp.flowWrite, 5, 64, 1, 80),
         (0x80A63AC0, withTask ({ (pk0 0x80A63AC0 [(5, 0x100010), (6, 0x100040), (7, 0x09)]) with tab := ⟨{ TableState.reset with exact := [(0, { key := 0, result := 0x77, tid := 9, ageProf := 1, age := 0, vstate := 0, batch := 0, learned := true, hit := false, at0 := 0, noticed := false : ExEntry })] }, TableState.reset⟩ }) 3 { ready 2 with state := .running, thread := some 0, dc1 := 255 }, .ram 0x40, List.replicate 64 0, FkOp.flowDelete, 6, 64, 1, 80),
         (0x80A63AE0, withTask ({ (pk0 0x80A63AE0 [(5, 0x100010), (6, 32), (7, 0x09)]) with tab := ⟨{ TableState.reset with exact := [(0, { key := 0, result := 0x77, tid := 9, ageProf := 1, age := 0, vstate := 0, batch := 0, learned := true, hit := false, at0 := 0, noticed := false : ExEntry })] }, TableState.reset⟩ }) 3 { ready 2 with state := .running, thread := some 0, dc1 := 255 }, .store (448*3+32),
         [], FkOp.meter, 7, 0, 1, 16),
         (0x80A60320, withTask ({ (pk0 0x80A60320 [(5, 0x100010), (6, 32), (7, 0x09)]) with tab := ⟨{ TableState.reset with exact := [(0, { key := 0, result := 0x77, tid := 9, ageProf := 1, age := 0, vstate := 0, batch := 0, learned := true, hit := false, at0 := 0, noticed := false : ExEntry })] }, TableState.reset⟩ }) 3 { ready 2 with state := .running, thread := some 0, dc1 := 255 }, .store (448*3+32),
         List.replicate 80 0, FkOp.search, 9, 80, 16, 16),
         (0x80A63B40, withTask ({ (pk0 0x80A63B40 [(5, 0x100010), (6, 32), (7, 0x09)]) with tab := ⟨{ TableState.reset with exact := [(0, { key := 0, result := 0x77, tid := 9, ageProf := 1, age := 0, vstate := 0, batch := 0, learned := true, hit := false, at0 := 0, noticed := false : ExEntry })] }, TableState.reset⟩ }) 3 { ready 2 with state := .running, thread := some 0, dc1 := 255 }, .store (448*3+32),
         List.replicate 80 0, FkOp.step, 10, 80, 16, 16)] : List (Nat × State × Loc × (List Byte) × _ × _ × _ × _ × _)).all fun (w, s, l, bs, e2, e3, e4, e5, e6) => let h : Half := 0;
     let t : TileIx := 0; let n : Fin 128 := 0; let s1 : State := s; let u : State := s1.atIssue (.pk h t n);
     let k : Nat := u.slotOfThread h t n; let c : Fk := callOf s s1 (.pk h t n) w; issuesB s e2 (.pk h t n) s1 w && dec (c.g (wB w) % 16 = 0) &&
     exEq (u.pkPlace h t n (c.g (wB w)) e6) (.ok l) && (!dec (e4 = 0) || (dec (bs = []))) && (!dec (e4 ≠ 0) || ((dec (c.g (wA w) % e5 = 0)) &&
     (exEq (u.pkSpan h t n (c.g (wA w)) e4) (.ok bs)))) && dec (u.dcFull h t k (wDc w) = true ∨ u.live (tblUnit h e3) = false)) = true ∧
    ((([(0x80A63C00, FkOp.lookup), (0x80A63C20, FkOp.groupSelect), (0x80A63C40, FkOp.lpm), (0x80A63CE0, FkOp.meter), (0x80A60520, FkOp.search),
         (0x80A63D40, FkOp.step)] : List (Nat × _)).all fun (w, e2) => let h : Half := 0; let t : TileIx := 0; let n : Fin 128 := 0;
     let s : State := { (pk0 w [(5, 0x100010), (6, 40), (7, 0x09)]) with tab := ⟨{ TableState.reset with exact := [(0, { key := 0, result := 0x77, tid := 9, ageProf := 1, age := 0, vstate := 0, batch := 0, learned := true, hit := false, at0 := 0, noticed := false : ExEntry })] }, TableState.reset⟩ };
     let s1 : State := s; let c : Fk := callOf s s1 (.pk h t n) w; issuesB s e2 (.pk h t n) s1 w && dec (c.g (wB w) % 16 ≠ 0)) &&
     (([(0x80A60460, FkOp.flowFind), (0x80A60480, FkOp.flowFindInsert), (0x80A63CA0, FkOp.flowWrite),
         (0x80A63CC0, FkOp.flowDelete)] : List (Nat × _)).all fun (w, e2) => let h : Half := 0; let t : TileIx := 0; let n : Fin 128 := 0;
     let s : State := { (pk0 w [(5, 0x100010), (6, 0x100048), (7, 0x09)]) with tab := ⟨{ TableState.reset with exact := [(0, { key := 0, result := 0x77, tid := 9, ageProf := 1, age := 0, vstate := 0, batch := 0, learned := true, hit := false, at0 := 0, noticed := false : ExEntry })] }, TableState.reset⟩ };
     let s1 : State := s; let c : Fk := callOf s s1 (.pk h t n) w; issuesB s e2 (.pk h t n) s1 w && dec (c.g (wB w) % 16 ≠ 0))) = true ∧
    (let s : State := pk0 0x80A03900 [(5, 12), (7, 64)]; let s1 : State := s; let h : Half := 0; let t : TileIx := 0; let n : Fin 128 := 0;
     let u : State := s1.atIssue (.pk h t n); let w : Nat := 0x80A03900; let c : Fk := callOf s s1 (.pk h t n) w;
     issuesB s .count (.pk h t n) s1 w && dec (u.live (.table h 3) = true) && dec (pcInRange (.pk h t n) c.nextPc = true) &&
     dec ((u.countPair h (c.g (wA w)) (c.g (wC w))).waits = s.waits)) = true ∧
    (let s : State := inState (pk0 0x80A03900 [(5, 12), (7, 64)]) (.table 0 3) .fenced; let s1 : State := s; let h : Half := 0;
     let t : TileIx := 0; let n : Fin 128 := 0; let u : State := s1.atIssue (.pk h t n); let w : Nat := 0x80A03900;
     issuesB s .count (.pk h t n) s1 w && dec (u.live (.table h 3) = false)) = true ∧
    ((let h : Half := 0; let t : TileIx := 0; let id : Nat := 0;
     let s : State := (withTask (pk0 0x0 [(2, 0x80000000), (3, 0x1234), (5, 7), (6, 0xFFFFFFFF), (7, 3)]) 3 { ready 2 with state := .running, thread := some 0, dc1 := 1 }).updTile 0 0 fun y => { y with responses := [{ id := 0, slot := 3, thread := 0, pc := 8, fn := 0, dc := 1, unit := .table, loc := .store 1350, bytes := List.replicate 16 0xFF, parts := 0, ready := true, hold := [], late := 0 }] };
     let r : Response := { id := 0, slot := 3, thread := 0, pc := 8, fn := 0, dc := 1, unit := .table, loc := .store 1350, bytes := List.replicate 16 0xFF, parts := 0, ready := true, hold := [], late := 0 };
     dec ((s.tile h t).response? id = some r) && dec (r.unit = .table) && dec (s.live (tblUnit h r.fn) = true) && dec (s.armed = []) &&
     dec (∀ x ∈ r.hold, (s.tab.get h).held x.1 x.2 = false)) && (let h : Half := 0; let t : TileIx := 0; let id : Nat := 0;
     let s : State := (withTask (pk0 0x0 [(2, 0x80000000), (3, 0x1234), (5, 7), (6, 0xFFFFFFFF), (7, 3)]) 3 { ready 2 with state := .running, thread := some 0, dc1 := 1 }).updTile 0 0 fun y => { y with responses := [{ id := 0, slot := 3, thread := 0, pc := 8, fn := 9, dc := 1, unit := .table, loc := .store 1350, bytes := List.replicate 16 0xFF, parts := 0, ready := true, hold := [], late := 0 }] };
     let r : Response := { id := 0, slot := 3, thread := 0, pc := 8, fn := 9, dc := 1, unit := .table, loc := .store 1350, bytes := List.replicate 16 0xFF, parts := 0, ready := true, hold := [], late := 0 };
     dec ((s.tile h t).response? id = some r) && dec (r.unit = .table) && dec (s.live (tblUnit h r.fn) = true) && dec (s.armed = []) &&
     dec (∀ x ∈ r.hold, (s.tab.get h).held x.1 x.2 = false))) = true ∧
    (let h : Half := 0; let t : TileIx := 0; let id : Nat := 0;
     let s : State := { ((withTask (pk0 0x0 [(2, 0x80000000), (3, 0x1234), (5, 7), (6, 0xFFFFFFFF), (7, 3)]) 3 { ready 2 with state := .running, thread := some 0, dc1 := 1 }).updTile 0 0 fun y => { y with responses := [{ id := 0, slot := 3, thread := 0, pc := 8, fn := 0, dc := 1, unit := .table, loc := .store 1350, bytes := List.replicate 16 0xFF, parts := 0, ready := true, hold := [(0, 5)], late := 0 }] }) with tab := ⟨{ TableState.reset with withheld := [(0, 5)] }, TableState.reset⟩ };
     let r : Response := { id := 0, slot := 3, thread := 0, pc := 8, fn := 0, dc := 1, unit := .table, loc := .store 1350, bytes := List.replicate 16 0xFF, parts := 0, ready := true, hold := [(0, 5)], late := 0 };
     let x := (0, 5); dec ((s.tile h t).response? id = some r) && dec (r.unit = .table) && dec (s.live (tblUnit h r.fn) = true) &&
     dec (s.armed = []) && dec ((s.tab.get h).held x.1 x.2 = true)) = true := by
  decide +kernel

/-- `LookupsAnswer`: states and operands that meet the premises of its clauses. -/
theorem test_LookupsAnswer :
    ((let s : State := { (run0) with tab := ⟨{ TableState.reset with slots := [(4, { BatchSlot.init with state := .building, e := 500 })] }, TableState.reset⟩ };
     let h : Half := 0; let b : Nat := 4;
     dec ((s.bslot h b).state = .building ∨ (s.bslot h b).state = .ready ∨ (s.bslot h b).state = .undoing)) &&
     (let s : State := { (run0) with tab := ⟨{ TableState.reset with slots := [(4, { BatchSlot.init with state := .ready, e := 500 })] }, TableState.reset⟩ };
     let h : Half := 0; let b : Nat := 4;
     dec ((s.bslot h b).state = .building ∨ (s.bslot h b).state = .ready ∨ (s.bslot h b).state = .undoing)) &&
     (let s : State := { (run0) with tab := ⟨{ TableState.reset with slots := [(4, { BatchSlot.init with state := .undoing, e := 500 })] }, TableState.reset⟩ };
     let h : Half := 0; let b : Nat := 4; dec ((s.bslot h b).state = .building ∨ (s.bslot h b).state = .ready ∨ (s.bslot h b).state = .undoing))) = true ∧
    ((let s : State := { (run0) with tab := ⟨{ TableState.reset with slots := [(4, { BatchSlot.init with state := .posted, e := 500 })] }, TableState.reset⟩ };
     let h : Half := 0; let b : Nat := 4; dec ((s.bslot h b).state = .posted ∨ (s.bslot h b).state = .retiring)) &&
     (let s : State := { (run0) with tab := ⟨{ TableState.reset with slots := [(4, { BatchSlot.init with state := .retiring, e := 500 })] }, TableState.reset⟩ };
     let h : Half := 0; let b : Nat := 4; dec ((s.bslot h b).state = .posted ∨ (s.bslot h b).state = .retiring))) = true ∧
    (let n : Nat := 3; let m := 1; let j := 2; dec (m < j) && dec (j ≤ n)) = true ∧
    (let g : Nat := 1835007; dec (g.testBit 30 = false)) = true ∧
    (let g : Nat := 1078984804; dec (g.testBit 30 = true) && dec (0 < bits g 18 10)) = true ∧
    (let g : Nat := 1078984804; dec (g.testBit 30 = true) && dec (0 < bits g 18 10)) = true := by
  decide +kernel

/-- `MetersCountersAndLearning`: states and operands that meet the premises of its clauses (MetersAndCounters). -/
theorem test_MetersAndCounters :
    (([2199023517697, 2199023517698] : List (Nat)).all fun p => let m : Meter := { Meter.init with tc := 300, te := 700, last := 5 };
     dec (m.tc ≤ prCbs p)) = true ∧
    (let m : Meter := { Meter.init with tc := 300, te := 700, last := 5 }; let p : Nat := 2199023517697; let b : Nat := 300;
     dec (prMode p = 1) && dec (b ≤ m.tc)) = true ∧
    (([(301, 0), (200, 1),
         (700, 1)] : List (Nat × Nat)).all fun (b, pre) => let m : Meter := { Meter.init with tc := 300, te := 700, last := 5 };
     let p : Nat := 2199023517697; dec (prMode p = 1) && dec (pre ≠ colRed) && dec (pre = colYellow ∨ m.tc < b) && dec (b ≤ m.te)) = true ∧
    (([(701, 0), (1, 2), (701, 1)] : List (Nat × Nat)).all fun (b, pre) => let m : Meter := { Meter.init with tc := 300, te := 700, last := 5 };
     let p : Nat := 2199023517697; dec (prMode p = 1) && dec (pre = colRed ∨ ((pre = colYellow ∨ m.tc < b) ∧ m.te < b))) = true ∧
    (([(701, 0), (1, 2)] : List (Nat × Nat)).all fun (b, pre) => let m : Meter := { Meter.init with tc := 300, te := 700, last := 5 };
     let p : Nat := 2199023517698; dec (prMode p = 2) && dec (pre = colRed ∨ m.te < b)) = true ∧
    (([(301, 0), (700, 1)] : List (Nat × Nat)).all fun (b, pre) => let m : Meter := { Meter.init with tc := 300, te := 700, last := 5 };
     let p : Nat := 2199023517698; dec (prMode p = 2) && dec (pre ≠ colRed) && dec (b ≤ m.te) && dec (pre = colYellow ∨ m.tc < b)) = true ∧
    (let m : Meter := { Meter.init with tc := 300, te := 700, last := 5 }; let p : Nat := 2199023517698; let b : Nat := 300;
     dec (prMode p = 2) && dec (b ≤ m.te) && dec (b ≤ m.tc)) = true ∧
    (let s : State := { (run0) with tab := ⟨{ TableState.reset with meters := [(7, { Meter.init with tc := 300, te := 700, last := 5 })] }, TableState.reset⟩ };
     let h : Half := 0; dec (Tbl.wf (s.tab.get h).meters = true) && dec (s.live (.table h 4) = true)) = true ∧
    (let s : State := inState ({ (run0) with tab := ⟨{ TableState.reset with meters := [(7, { Meter.init with tc := 300, te := 700, last := 5 })] }, TableState.reset⟩ }) (.table 0 4) .fenced;
     let h : Half := 0; dec (Tbl.wf (s.tab.get h).meters = true) && dec (s.live (.table h 4) = false)) = true ∧
    (([5, 6] : List (Nat)).all fun i => let s : State := { (run0) with tab := ⟨{ TableState.reset with cache := [(5, (2, 100)), (9, (1, 60))] }, TableState.reset⟩ };
     let h : Half := 0; dec (Tbl.wf (s.tab.get h).cache = true) && dec (i < 16777216) &&
     dec ((tget? (s.tab.get h).cache i).isSome = true ∨ (s.tab.get h).cache.length < cacheLines)) = true ∧
    (([5, 6] : List (Nat)).all fun i => let s : State := { (run0) with tab := ⟨{ TableState.reset with cache := [(5, (2, 100)), (9, (1, 60))] }, TableState.reset⟩ };
     let h : Half := 0; let j := 9; dec (Tbl.wf (s.tab.get h).cache = true) && dec (i < 16777216) &&
     dec ((tget? (s.tab.get h).cache i).isSome = true ∨ (s.tab.get h).cache.length < cacheLines) && dec (j ≠ i)) = true ∧
    (let s : State := { (hbmOpen run0) with tab := ⟨{ TableState.reset with cache := [(5, (2, 100)), (9, (1, 60))], reading := some (5, false) }, TableState.reset⟩ };
     let h : Half := 0; let i : Nat := 5; let s1 : State := (s.hbmRead h counterReq (s.pairAddr h i) 16).1; let d : Nat × Nat := (2, 100);
     let bs : List Byte := List.replicate 16 0; let s2 : State := (s1.hbmWrite h counterReq (s.pairAddr h i) (pairPlus bs d)).1;
     dec (s.live (.table h 3) = true) && dec (tget? (s.tab.get h).cache i = some d) &&
     dec ((s.hbmRead h counterReq (s.pairAddr h i) 16).2 = (bs, false)) &&
     dec ((s1.hbmWrite h counterReq (s.pairAddr h i) (pairPlus bs d)).2 = (true)) && dec (s.armed = []) && dec (s2.waits = s.waits)) = true ∧
    (let s : State := { (hbmOpen run0) with tab := ⟨{ TableState.reset with cache := [(5, (2, 100)), (9, (1, 60))], reading := some (5, false) }, TableState.reset⟩ };
     let h : Half := 0; let i : Nat := 5; let s1 : State := (s.hbmRead h counterReq (s.pairAddr h i) 16).1;
     let bs : List Byte := List.replicate 16 0; dec (s.live (.table h 3) = true) && dec ((s.tab.get h).reading = some (i, false)) &&
     dec ((s.hbmRead h counterReq (s.pairAddr h i) 16).2 = (bs, false)) && dec (s.armed = []) && dec (s1.waits = s.waits)) = true := by
  decide +kernel

/-- `MetersCountersAndLearning`: states and operands that meet the premises of its clauses (AgingAndLearning). -/
theorem test_AgingAndLearning :
    ((let s : State := { (run0) with tab := ⟨{ TableState.reset with exact := [(0, { key := 0, result := 0x77, tid := 9, ageProf := 0, age := 0, vstate := 0, batch := 0, learned := true, hit := false, at0 := 0, noticed := false : ExEntry })] }, TableState.reset⟩ };
     let h : Half := 0; let i : Nat := 0;
     let e : ExEntry := { key := 0, result := 0x77, tid := 9, ageProf := 0, age := 0, vstate := 0, batch := 0, learned := true, hit := false, at0 := 0, noticed := false : ExEntry };
     dec (s.live (.table h 5) = true) && dec (tget? (s.tab.get h).exact i = some e) && dec (s.armed = []) &&
     dec (e.ageProf = 0 ∨ e.vstate ≠ vsStable)) &&
     (let s : State := { (run0) with tab := ⟨{ TableState.reset with exact := [(0, { key := 0, result := 0x77, tid := 9, ageProf := 1, age := 0, vstate := 1, batch := 0, learned := true, hit := false, at0 := 0, noticed := false : ExEntry })] }, TableState.reset⟩ };
     let h : Half := 0; let i : Nat := 0;
     let e : ExEntry := { key := 0, result := 0x77, tid := 9, ageProf := 1, age := 0, vstate := 1, batch := 0, learned := true, hit := false, at0 := 0, noticed := false : ExEntry };
     dec (s.live (.table h 5) = true) && dec (tget? (s.tab.get h).exact i = some e) && dec (s.armed = []) &&
     dec (e.ageProf = 0 ∨ e.vstate ≠ vsStable))) = true ∧
    (let s : State := ({ (run0) with tab := ⟨{ TableState.reset with exact := [(0, { key := 0, result := 0x77, tid := 9, ageProf := 1, age := 65000, vstate := 0, batch := 0, learned := true, hit := false, at0 := 0, noticed := false : ExEntry })] }, TableState.reset⟩ }).setReg (bTable 0 5) R.learn_LEARN_AGE_THR 0x1000010000;
     let h : Half := 0; let i : Nat := 0;
     let e : ExEntry := { key := 0, result := 0x77, tid := 9, ageProf := 1, age := 65000, vstate := 0, batch := 0, learned := true, hit := false, at0 := 0, noticed := false : ExEntry };
     let u := ((s.dropEx h i).bump (bTable h 5) R.learn_AGED).learnNote h ⟨ntAged, e.tid, e.key, some (e.result.toNat % 256), none, some i⟩;
     dec (s.live (.table h 5) = true) && dec (tget? (s.tab.get h).exact i = some e) && dec (s.armed = []) && dec (e.ageProf ≠ 0) &&
     dec (e.vstate = vsStable) && dec (e.learned = true) && dec (s.ageThr h e.ageProf ≤ s.ageOf h e.age e.at0) && dec (u.waits = s.waits)) = true ∧
    (let s : State := ({ (run0) with tab := ⟨{ TableState.reset with exact := [(0, { key := 0, result := 0x77, tid := 9, ageProf := 1, age := 0, vstate := 0, batch := 0, learned := true, hit := false, at0 := 0, noticed := false : ExEntry })] }, TableState.reset⟩ }).setReg (bTable 0 5) R.learn_LEARN_AGE_THR 0x1000010000;
     let h : Half := 0; let i : Nat := 0;
     let e : ExEntry := { key := 0, result := 0x77, tid := 9, ageProf := 1, age := 0, vstate := 0, batch := 0, learned := true, hit := false, at0 := 0, noticed := false : ExEntry };
     dec (s.live (.table h 5) = true) && dec (tget? (s.tab.get h).exact i = some e) && dec (s.armed = []) && dec (e.ageProf ≠ 0) &&
     dec (e.vstate = vsStable) && dec (e.learned = true) && dec (s.ageOf h e.age e.at0 < s.ageThr h e.ageProf)) = true ∧
    (let s : State := ({ (run0) with tab := ⟨{ TableState.reset with exact := [(0, { key := 0, result := 0x77, tid := 9, ageProf := 1, age := 0, vstate := 0, batch := 0, learned := false, hit := false, at0 := 0, noticed := false : ExEntry })] }, TableState.reset⟩ }).setReg (bTable 0 5) R.learn_LEARN_AGE_THR 0x1000010000;
     let h : Half := 0; let i : Nat := 0;
     let e : ExEntry := { key := 0, result := 0x77, tid := 9, ageProf := 1, age := 0, vstate := 0, batch := 0, learned := false, hit := false, at0 := 0, noticed := false : ExEntry };
     dec (s.live (.table h 5) = true) && dec (tget? (s.tab.get h).exact i = some e) && dec (s.armed = []) && dec (e.ageProf ≠ 0) &&
     dec (e.vstate = vsStable) && dec (e.learned = false) && dec (s.ageOf h e.age e.at0 < s.ageThr h e.ageProf)) = true ∧
    ((let s : State := { (run0) with tab := ⟨{ TableState.reset with exact := [(0, { key := 0, result := 0x77, tid := 9, ageProf := 0, age := 0, vstate := 0, batch := 0, learned := true, hit := false, at0 := 0, noticed := false : ExEntry })] }, TableState.reset⟩ };
     dec (s.armed = [])) &&
     (let s : State := { (run0) with tab := ⟨{ TableState.reset with exact := [(0, { key := 0, result := 0x77, tid := 9, ageProf := 1, age := 0, vstate := 1, batch := 0, learned := true, hit := false, at0 := 0, noticed := false : ExEntry })] }, TableState.reset⟩ };
     dec (s.armed = [])) &&
     (let s : State := ({ (run0) with tab := ⟨{ TableState.reset with exact := [(0, { key := 0, result := 0x77, tid := 9, ageProf := 1, age := 65000, vstate := 0, batch := 0, learned := true, hit := false, at0 := 0, noticed := false : ExEntry })] }, TableState.reset⟩ }).setReg (bTable 0 5) R.learn_LEARN_AGE_THR 0x1000010000;
     dec (s.armed = []))) = true ∧
    (let s : State := { (run0) with tab := ⟨{ TableState.reset with stash := [(5, List.replicate 64 1)], flowAt := [(stashSlot 5, 77)] }, TableState.reset⟩ };
     let h : Half := 0; let n : Fin 1024 := 5; let r : List Byte := List.replicate 64 1; let i := 0; dec (s.live (.table h 1) = true) &&
     dec (tget? (s.tab.get h).stash n.val = some r) && dec (s.armed = []) && dec ((s.used.flowPut h i r).waits = s.waits)) = true ∧
    ((let s : State := hbmOpen run0; let h : Half := 0; let i : Nat := 5; let u : State := s.ageFlow h i; dec (s.live (.table h 5) = true) &&
     dec (s.armed = []) && dec (u.waits = s.waits)) &&
     (let s : State := { (run0) with tab := ⟨{ TableState.reset with stash := [(5, List.replicate 64 1)] }, TableState.reset⟩ };
     let h : Half := 0; let i : Nat := stashSlot 5; let u : State := s.ageFlow h i; dec (s.live (.table h 5) = true) && dec (s.armed = []) &&
     dec (u.waits = s.waits))) = true ∧
    (let s : State := gated (hbmOpen run0) 0; let h : Half := 0; let i : Nat := 5; let u : State := s.ageFlow h i;
     dec (s.live (.table h 5) = true) && dec (s.armed = []) && dec (u.waits ≠ s.waits)) = true := by
  decide +kernel

/-- `BatchesApply`: states and operands that meet the premises of its clauses (BatchCommands). -/
theorem test_BatchCommands :
    (let s : State := { ((run0.setReg (bTable 0 7) R.version_BATCH_E 77).setReg (bTable 0 7) R.version_BATCH_LIST_ADDR 0x1008) with tab := ⟨{ TableState.reset with noticed := false }, TableState.reset⟩ };
     let a : Agent := .privet; let h : Half := 0; let b : Fin 256 := 4; dec (s.agentReach a (.table h 7) = true) &&
     dec (Tbl.wf (s.tab.get h).slots = true) && dec ((s.bslot h b.val).state = .free)) = true ∧
    ((let a : Agent := .privet; let h : Half := 0; let b : Fin 256 := 4;
     let s : State := { ((run0.setReg (bTable 0 7) R.version_BATCH_E 1000064).setReg (bTable 0 7) R.version_BATCH_LIST_ADDR 0x1008) with tab := ⟨{ TableState.reset with slots := [(4, { BatchSlot.init with state := .ready, e := 500 })] }, TableState.reset⟩ };
     dec (s.agentReach a (.table h 7) = true) && dec (Tbl.wf (s.tab.get h).slots = true) && dec ((s.bslot h b.val).state = .ready)) &&
     (let a : Agent := .privet; let h : Half := 0; let b : Fin 256 := 4;
     let s : State := { ((run0.setReg (bTable 0 7) R.version_BATCH_E 1000063).setReg (bTable 0 7) R.version_BATCH_LIST_ADDR 0x1008) with tab := ⟨{ TableState.reset with slots := [(4, { BatchSlot.init with state := .ready, e := 500 })] }, TableState.reset⟩ };
     dec (s.agentReach a (.table h 7) = true) && dec (Tbl.wf (s.tab.get h).slots = true) && dec ((s.bslot h b.val).state = .ready)) &&
     (let a : Agent := .privet; let h : Half := 0; let b : Fin 256 := 4;
     let s : State := { ((run0.setReg (bTable 0 7) R.version_BATCH_E 1152921504606846976).setReg (bTable 0 7) R.version_BATCH_LIST_ADDR 0x1008) with tab := ⟨{ TableState.reset with slots := [(4, { BatchSlot.init with state := .ready, e := 500 })] }, TableState.reset⟩ };
     dec (s.agentReach a (.table h 7) = true) && dec (Tbl.wf (s.tab.get h).slots = true) && dec ((s.bslot h b.val).state = .ready))) = true ∧
    (let s : State := { (run0) with tab := ⟨{ TableState.reset with slots := [(4, { BatchSlot.init with state := .ready, e := 500, touched := [.exact 0] })] }, TableState.reset⟩ };
     let a : Agent := .privet; let h : Half := 0; let b : Fin 256 := 4; dec (s.agentReach a (.table h 7) = true) &&
     dec (Tbl.wf (s.tab.get h).slots = true) && dec ((s.bslot h b.val).state = .ready) && dec ((s.bslot h b.val).touched ≠ [])) = true ∧
    (let s : State := { (run0) with tab := ⟨{ TableState.reset with slots := [(4, { BatchSlot.init with state := .refused, e := 500 })] }, TableState.reset⟩ };
     let a : Agent := .privet; let h : Half := 0; let b : Fin 256 := 4; dec (s.agentReach a (.table h 7) = true) &&
     dec (Tbl.wf (s.tab.get h).slots = true) && dec ((s.bslot h b.val).state = .refused)) = true ∧
    ((let s : State := { (run0) with tab := ⟨{ TableState.reset with slots := [(4, { BatchSlot.init with state := .building, e := 500 })] }, TableState.reset⟩ };
     let a : Agent := .privet; let h : Half := 0; let b : Fin 256 := 4; dec (s.agentReach a (.table h 7) = true) &&
     dec (Tbl.wf (s.tab.get h).slots = true) && dec ((s.bslot h b.val).state ≠ .free)) &&
     (let s : State := { (run0) with tab := ⟨{ TableState.reset with slots := [(4, { BatchSlot.init with state := .posted, e := 500 })] }, TableState.reset⟩ };
     let a : Agent := .privet; let h : Half := 0; let b : Fin 256 := 4; dec (s.agentReach a (.table h 7) = true) &&
     dec (Tbl.wf (s.tab.get h).slots = true) && dec ((s.bslot h b.val).state ≠ .free))) = true ∧
    ((let s : State := { ((run0.setReg (bTable 0 7) R.version_BATCH_E 77).setReg (bTable 0 7) R.version_BATCH_LIST_ADDR 0x1008) with tab := ⟨{ TableState.reset with noticed := false }, TableState.reset⟩ };
     let a : Agent := .privet; let h : Half := 0; let b : Fin 256 := 4; dec (s.agentReach a (.table h 7) = true) &&
     dec (Tbl.wf (s.tab.get h).slots = true) && dec ((s.bslot h b.val).state ≠ .ready)) &&
     (let s : State := { (run0) with tab := ⟨{ TableState.reset with slots := [(4, { BatchSlot.init with state := .refused, e := 500 })] }, TableState.reset⟩ };
     let a : Agent := .privet; let h : Half := 0; let b : Fin 256 := 4; dec (s.agentReach a (.table h 7) = true) &&
     dec (Tbl.wf (s.tab.get h).slots = true) && dec ((s.bslot h b.val).state ≠ .ready)) &&
     (let s : State := { (run0) with tab := ⟨{ TableState.reset with slots := [(4, { BatchSlot.init with state := .building, e := 500 })] }, TableState.reset⟩ };
     let a : Agent := .privet; let h : Half := 0; let b : Fin 256 := 4; dec (s.agentReach a (.table h 7) = true) &&
     dec (Tbl.wf (s.tab.get h).slots = true) && dec ((s.bslot h b.val).state ≠ .ready))) = true ∧
    ((let s : State := { ((run0.setReg (bTable 0 7) R.version_BATCH_E 77).setReg (bTable 0 7) R.version_BATCH_LIST_ADDR 0x1008) with tab := ⟨{ TableState.reset with noticed := false }, TableState.reset⟩ };
     let a : Agent := .privet; let h : Half := 0; let b : Fin 256 := 4; dec (s.agentReach a (.table h 7) = true) &&
     dec (Tbl.wf (s.tab.get h).slots = true) && dec ((s.bslot h b.val).state ≠ .refused)) &&
     (let s : State := { ((run0.setReg (bTable 0 7) R.version_BATCH_E 1000064).setReg (bTable 0 7) R.version_BATCH_LIST_ADDR 0x1008) with tab := ⟨{ TableState.reset with slots := [(4, { BatchSlot.init with state := .ready, e := 500 })] }, TableState.reset⟩ };
     let a : Agent := .privet; let h : Half := 0; let b : Fin 256 := 4; dec (s.agentReach a (.table h 7) = true) &&
     dec (Tbl.wf (s.tab.get h).slots = true) && dec ((s.bslot h b.val).state ≠ .refused)) &&
     (let s : State := { ((run0.setReg (bTable 0 7) R.version_BATCH_E 1000063).setReg (bTable 0 7) R.version_BATCH_LIST_ADDR 0x1008) with tab := ⟨{ TableState.reset with slots := [(4, { BatchSlot.init with state := .ready, e := 500 })] }, TableState.reset⟩ };
     let a : Agent := .privet; let h : Half := 0; let b : Fin 256 := 4; dec (s.agentReach a (.table h 7) = true) &&
     dec (Tbl.wf (s.tab.get h).slots = true) && dec ((s.bslot h b.val).state ≠ .refused))) = true := by
  decide +kernel

/-- `BatchesApply`: states and operands that meet the premises of its clauses (BatchesBuildAndRetire). -/
theorem test_BatchesBuildAndRetire :
    (let s : State := { (hbmOpen run0) with tab := ⟨{ TableState.reset with slots := [(4, { BatchSlot.init with state := .building, e := 500 })], builds := [4, 9] }, TableState.reset⟩ };
     let h : Half := 0; let b : Nat := 4; let bs : List Nat := [9]; let x : BatchSlot := s.bslot h b; dec (s.live (.table h 7) = true) &&
     dec ((s.tab.get h).builds = b :: bs) && dec (x.state = .building) && dec (s.armed = []) && dec (x.len = 0) &&
     dec ((s.buildDone h b).waits = s.waits)) = true ∧
    (let s : State := { (hbmOpen run0) with tab := ⟨{ TableState.reset with slots := [(4, { BatchSlot.init with state := .building, e := 500, len := 4 })], builds := [4, 9] }, TableState.reset⟩ };
     let h : Half := 0; let b : Nat := 4; let bs : List Nat := [9]; let x : BatchSlot := s.bslot h b; let v := s;
     let w := v.refuseRec h b rsList; dec (s.live (.table h 7) = true) && dec ((s.tab.get h).builds = b :: bs) && dec (x.state = .building) &&
     dec (s.armed = []) && dec (x.len ≠ 0) && dec (s.nextRec h x = (v, none)) && dec (w.waits = s.waits)) = true ∧
    (let s : State := { (gated (hbmOpen run0) 0) with tab := ⟨{ TableState.reset with slots := [(4, { BatchSlot.init with state := .building, e := 500, len := 8 })], builds := [4, 9] }, TableState.reset⟩ };
     let h : Half := 0; let b : Nat := 4; let bs : List Nat := [9]; let x : BatchSlot := s.bslot h b; let v := (s.nextRec h x).1;
     let w := v.refuseRec h b rsList; dec (s.live (.table h 7) = true) && dec ((s.tab.get h).builds = b :: bs) && dec (x.state = .building) &&
     dec (s.armed = []) && dec (x.len ≠ 0) && dec ((s.nextRec h x).2 = (none)) && dec (w.waits ≠ s.waits)) = true ∧
    (let s : State := (fun z : State => { z with hbm := z.hbm.upd 0 fun z1 => { z1 with mem := tstore z1.mem 0x1000 (leBytes 8 (4 <<< 56 ||| 1 <<< 52 ||| 5 <<< 32 ||| 9) ++ leBytes 8 77) } }) ({ (hbmOpen run0) with tab := ⟨{ TableState.reset with slots := [(4, { BatchSlot.init with state := .building, e := 500, addr := 0x1000, len := 16 })], builds := [4, 9] }, TableState.reset⟩ });
     let h : Half := 0; let b : Nat := 4; let bs : List Nat := [9]; let x : BatchSlot := s.bslot h b; let v := (s.nextRec h x).1;
     let r := (((s.nextRec 0 (s.bslot 0 4)).2).getD (⟨0,0,0,0,0,[]⟩, 0)).1; let w := v.refuseRec h b (v.recReason h b r); let n := 16;
     dec (s.live (.table h 7) = true) && dec ((s.tab.get h).builds = b :: bs) && dec (x.state = .building) && dec (s.armed = []) &&
     dec (x.len ≠ 0) && dec ((s.nextRec h x).2 = (some (r, n))) && dec (w.waits = s.waits) && dec (v.recReason h b r ≠ 0)) = true ∧
    (let s : State := (fun z : State => { z with hbm := z.hbm.upd 0 fun z1 => { z1 with mem := tstore z1.mem 0x1000 (leBytes 8 (4 <<< 56 ||| 1 <<< 52 ||| 4 <<< 32 ||| 9) ++ leBytes 8 77) } }) ({ (hbmOpen run0) with tab := ⟨{ TableState.reset with slots := [(4, { BatchSlot.init with state := .building, e := 500, addr := 0x1000, len := 16 })], builds := [4, 9] }, TableState.reset⟩ });
     let h : Half := 0; let b : Nat := 4; let bs : List Nat := [9]; let x : BatchSlot := s.bslot h b; let v := (s.nextRec h x).1;
     let r := (((s.nextRec 0 (s.bslot 0 4)).2).getD (⟨0,0,0,0,0,[]⟩, 0)).1; let n := 16;
     let y := (v.applyRec h b r).updSlot h b (fun x => { x with pos := x.pos + n, recNo := x.recNo + 1 }); let w := y.buildDone h b;
     dec (s.live (.table h 7) = true) && dec ((s.tab.get h).builds = b :: bs) && dec (x.state = .building) && dec (s.armed = []) &&
     dec (x.len ≠ 0) && dec ((s.nextRec h x).2 = (some (r, n))) && dec (w.waits = s.waits) && dec (v.recReason h b r = 0) &&
     dec (x.pos + n = x.len)) = true ∧
    (let s : State := (fun z : State => { z with hbm := z.hbm.upd 0 fun z1 => { z1 with mem := tstore z1.mem 0x1000 (leBytes 8 (4 <<< 56 ||| 1 <<< 52 ||| 4 <<< 32 ||| 9) ++ leBytes 8 77) } }) ({ (hbmOpen run0) with tab := ⟨{ TableState.reset with slots := [(4, { BatchSlot.init with state := .building, e := 500, addr := 0x1000, len := 24 })], builds := [4, 9] }, TableState.reset⟩ });
     let h : Half := 0; let b : Nat := 4; let bs : List Nat := [9]; let x : BatchSlot := s.bslot h b; let v := (s.nextRec h x).1;
     let r := (((s.nextRec 0 (s.bslot 0 4)).2).getD (⟨0,0,0,0,0,[]⟩, 0)).1; let n := 16;
     let y := (v.applyRec h b r).updSlot h b (fun x => { x with pos := x.pos + n, recNo := x.recNo + 1 }); let w := y;
     dec (s.live (.table h 7) = true) && dec ((s.tab.get h).builds = b :: bs) && dec (x.state = .building) && dec (s.armed = []) &&
     dec (x.len ≠ 0) && dec ((s.nextRec h x).2 = (some (r, n))) && dec (w.waits = s.waits) && dec (v.recReason h b r = 0) &&
     dec (x.pos + n ≠ x.len)) = true ∧
    (let s : State := { (run0) with tab := ⟨{ TableState.reset with exact := [(0, { key := 0, result := 0x77, tid := 9, ageProf := 1, age := 0, vstate := 1, batch := 4, learned := true, hit := false, at0 := 0, noticed := false : ExEntry })], slots := [(4, { BatchSlot.init with state := .undoing, e := 500, touched := .exact 0 :: [.exact 9] })] }, TableState.reset⟩ };
     let h : Half := 0; let b : Fin 256 := 4; let t : Touch := .exact 0; let ts : List Touch := [.exact 9]; dec (s.live (.table h 7) = true) &&
     dec ((s.bslot h b.val).touched = t :: ts) && dec (s.armed = []) && dec ((s.bslot h b.val).state = .undoing) && dec (ts ≠ [])) = true ∧
    (let s : State := { (run0) with tab := ⟨{ TableState.reset with exact := [(0, { key := 0, result := 0x77, tid := 9, ageProf := 1, age := 0, vstate := 1, batch := 4, learned := true, hit := false, at0 := 0, noticed := false : ExEntry })], slots := [(4, { BatchSlot.init with state := .undoing, e := 500, touched := .exact 0 :: [] })] }, TableState.reset⟩ };
     let h : Half := 0; let b : Fin 256 := 4; let t : Touch := .exact 0; let ts : List Touch := []; dec (s.live (.table h 7) = true) &&
     dec ((s.bslot h b.val).touched = t :: ts) && dec (s.armed = []) && dec ((s.bslot h b.val).state = .undoing)) = true ∧
    (let s : State := { (run0) with tab := ⟨{ TableState.reset with exact := [(0, { key := 0, result := 0x77, tid := 9, ageProf := 1, age := 0, vstate := 1, batch := 4, learned := true, hit := false, at0 := 0, noticed := false : ExEntry })], slots := [(4, { BatchSlot.init with state := .retiring, e := 500, touched := .exact 0 :: [.exact 9] })] }, TableState.reset⟩ };
     let h : Half := 0; let b : Fin 256 := 4; let t : Touch := .exact 0; let ts : List Touch := [.exact 9]; dec (s.live (.table h 7) = true) &&
     dec ((s.bslot h b.val).touched = t :: ts) && dec (s.armed = []) && dec ((s.bslot h b.val).state = .retiring) && dec (ts ≠ [])) = true ∧
    (let s : State := { (run0) with tab := ⟨{ TableState.reset with exact := [(0, { key := 0, result := 0x77, tid := 9, ageProf := 1, age := 0, vstate := 1, batch := 4, learned := true, hit := false, at0 := 0, noticed := false : ExEntry })], slots := [(4, { BatchSlot.init with state := .retiring, e := 500, touched := .exact 0 :: [] })] }, TableState.reset⟩ };
     let h : Half := 0; let b : Fin 256 := 4; let t : Touch := .exact 0; let ts : List Touch := []; dec (s.live (.table h 7) = true) &&
     dec ((s.bslot h b.val).touched = t :: ts) && dec (s.armed = []) && dec ((s.bslot h b.val).state = .retiring)) = true ∧
    ((let s : State := (fun s : State => { s with conf := s.conf.upd 0 fun x => { x with remote := 600 } }) (({ ({ run0 with ford := run0.ford.both fun _ f => { f with lost := true } }) with tab := ⟨{ TableState.reset with slots := [(4, { BatchSlot.init with state := .posted, e := 500, touched := [.exact 0] })], noticed := true }, TableState.reset⟩ }).setReg (bHalf 0) R.half_OLDEST_LIVE 600);
     let h : Half := 0; let b : Fin 256 := 4; dec (s.live (.table h 7) = true) && dec ((s.bslot h b.val).state = .posted) &&
     (!dec (s.pairActive h = true) || (dec ((s.tab.get h).noticed = true))) && dec ((s.bslot h b.val).e.toNat ≤ s.retireBasis h) &&
     dec ((s.bslot h b.val).touched ≠ [])) &&
     (let s : State := (fun s : State => { s with conf := s.conf.upd 0 fun x => { x with remote := 600 } }) (({ (run0) with tab := ⟨{ TableState.reset with slots := [(4, { BatchSlot.init with state := .posted, e := 500, touched := [.exact 0] })], noticed := true }, TableState.reset⟩ }).setReg (bHalf 0) R.half_OLDEST_LIVE 600);
     let h : Half := 0; let b : Fin 256 := 4; dec (s.live (.table h 7) = true) && dec ((s.bslot h b.val).state = .posted) &&
     (!dec (s.pairActive h = true) || (dec ((s.tab.get h).noticed = true))) && dec ((s.bslot h b.val).e.toNat ≤ s.retireBasis h) &&
     dec ((s.bslot h b.val).touched ≠ []))) = true ∧
    ((let s : State := (fun s : State => { s with conf := s.conf.upd 0 fun x => { x with remote := 600 } }) (({ ({ run0 with ford := run0.ford.both fun _ f => { f with lost := true } }) with tab := ⟨{ TableState.reset with slots := [(4, { BatchSlot.init with state := .posted, e := 2000000, touched := [.exact 0] })], noticed := true }, TableState.reset⟩ }).setReg (bHalf 0) R.half_OLDEST_LIVE 600);
     let h : Half := 0; let b : Fin 256 := 4; dec (s.live (.table h 7) = true) && dec ((s.bslot h b.val).state = .posted) &&
     (!dec (s.pairActive h = true) || (dec ((s.tab.get h).noticed = true))) && dec (s.retireBasis h < (s.bslot h b.val).e.toNat)) &&
     (let s : State := (fun s : State => { s with conf := s.conf.upd 0 fun x => { x with remote := 600 } }) (({ (run0) with tab := ⟨{ TableState.reset with slots := [(4, { BatchSlot.init with state := .posted, e := 2000000, touched := [.exact 0] })], noticed := true }, TableState.reset⟩ }).setReg (bHalf 0) R.half_OLDEST_LIVE 600);
     let h : Half := 0; let b : Fin 256 := 4; dec (s.live (.table h 7) = true) && dec ((s.bslot h b.val).state = .posted) &&
     (!dec (s.pairActive h = true) || (dec ((s.tab.get h).noticed = true))) && dec (s.retireBasis h < (s.bslot h b.val).e.toNat))) = true ∧
    (let s : State := { (run0) with tab := ⟨{ TableState.reset with exact := [(0, { key := 0, result := 0x77, tid := 9, ageProf := 1, age := 0, vstate := 1, batch := 5, learned := true, hit := false, at0 := 0, noticed := false : ExEntry })] }, TableState.reset⟩ };
     let h : Half := 0; let b : Nat := 4; let i : Nat := 0;
     let e : ExEntry := { key := 0, result := 0x77, tid := 9, ageProf := 1, age := 0, vstate := 1, batch := 5, learned := true, hit := false, at0 := 0, noticed := false : ExEntry };
     dec (Tbl.wf (s.tab.get h).exact = true) && dec (tget? (s.tab.get h).exact i = some e) && dec (e.batch ≠ b)) = true ∧
    (let s : State := { (run0) with tab := ⟨{ TableState.reset with exact := [(0, { key := 0, result := 0x77, tid := 9, ageProf := 1, age := 0, vstate := 1, batch := 4, learned := true, hit := false, at0 := 0, noticed := false : ExEntry })] }, TableState.reset⟩ };
     let h : Half := 0; let b : Nat := 4; let i : Nat := 0;
     let e : ExEntry := { key := 0, result := 0x77, tid := 9, ageProf := 1, age := 0, vstate := 1, batch := 4, learned := true, hit := false, at0 := 0, noticed := false : ExEntry };
     dec (Tbl.wf (s.tab.get h).exact = true) && dec (tget? (s.tab.get h).exact i = some e) && dec (e.batch = b) && dec (e.vstate = vsPending)) = true ∧
    (let s : State := { (run0) with tab := ⟨{ TableState.reset with exact := [(0, { key := 0, result := 0x77, tid := 9, ageProf := 1, age := 0, vstate := 2, batch := 4, learned := true, hit := false, at0 := 0, noticed := false : ExEntry })] }, TableState.reset⟩ };
     let h : Half := 0; let b : Nat := 4; let i : Nat := 0;
     let e : ExEntry := { key := 0, result := 0x77, tid := 9, ageProf := 1, age := 0, vstate := 2, batch := 4, learned := true, hit := false, at0 := 0, noticed := false : ExEntry };
     dec (Tbl.wf (s.tab.get h).exact = true) && dec (tget? (s.tab.get h).exact i = some e) && dec (e.batch = b) && dec (e.vstate = vsRetiring)) = true := by
  decide +kernel

/-- `TablesScrubbedAndRepaired`: states and operands that meet the premises of its clauses. -/
theorem test_TablesScrubbedAndRepaired :
    ((let s : State := { (run0) with tab := ⟨{ TableState.reset with withheld := [(0, 5), (3, 6)], shadowHeld := [(0, 5)] }, TableState.reset⟩ };
     let h : Half := 0; let t : Fin 16 := 0; let i : Nat := 5; dec (s.live (.table h 6) = true) &&
     dec (bit (s.reg (bTable h 6) R.shadow_SHADOW_CFG) 0 = true) && dec (t.val ≤ tgRepl) && dec (s.shadowDiffers h t.val i = false)) &&
     (let s : State := run0.setReg (bTable 0 6) R.shadow_SHADOW_CFG 1; let h : Half := 0; let t : Fin 16 := 3; let i : Nat := 6;
     dec (s.live (.table h 6) = true) && dec (bit (s.reg (bTable h 6) R.shadow_SHADOW_CFG) 0 = true) && dec (t.val ≤ tgRepl) &&
     dec (s.shadowDiffers h t.val i = false))) = true ∧
    (let s : State := run0.setReg (bTable 0 6) R.shadow_SHADOW_CFG 1; let h : Half := 0; let t : Fin 16 := 3; let i : Nat := 6;
     let d := (true ∨ s.shadowDiffers h t.val i = true); dec (s.live (.table h 6) = true) &&
     dec (bit (s.reg (bTable h 6) R.shadow_SHADOW_CFG) 0 = true) && dec (t.val ≤ tgRepl) && dec (d = true ∨ s.shadowDiffers h t.val i = true) &&
     dec (s.shadowSkips h t.val i = false) && dec (s.shadowLearned h t.val i = false) &&
     dec (bit (s.reg (bTable h 6) R.shadow_SHADOW_CFG) 1 = false)) = true ∧
    (let s : State := { (run0) with tab := ⟨{ TableState.reset with withheld := [(0, 5), (3, 6)], shadowHeld := [(0, 5)] }, TableState.reset⟩ };
     let h : Half := 0; let t : Fin 16 := 0; let i : Nat := 5; dec ((t.val, i) ∈ (s.tab.get h).shadowHeld)) = true ∧
    (let s : State := run0; let h : Half := 0; let i : BitVec 16 := 5; dec (s.live (.assoc h) = true) &&
     dec (s.bankLost h (i.toNat / 2048) = false) && dec (s.filling h (i.toNat / 2048) = false) && dec (i.toNat ∉ (s.assoc.get h).withheld)) = true ∧
    (let s : State := run0; let h : Half := 0; let i : BitVec 16 := 5; dec (s.live (.assoc h) = true) &&
     dec (s.bankLost h (i.toNat / 2048) = false) && dec (s.filling h (i.toNat / 2048) = false) && dec (i.toNat ∉ (s.assoc.get h).withheld) &&
     dec (i.toNat ∉ (s.assoc.get h).rewritten)) = true ∧
    (let s : State := { run0 with assoc := ⟨{ entries := [(5, 77)], withheld := [], rewritten := [] }, AssocState.reset⟩ }; let h : Half := 0;
     let i : BitVec 16 := 5; let e := 77; dec (s.live (.assoc h) = true) && dec (s.bankLost h (i.toNat / 2048) = false) &&
     dec (s.filling h (i.toNat / 2048) = false) && dec (i.toNat ∉ (s.assoc.get h).withheld) &&
     dec (tget? (s.assoc.get h).entries i.toNat = some e)) = true ∧
    (let s : State := { run0 with assoc := ⟨{ entries := [(5, 77)], withheld := [4, 5], rewritten := [] }, AssocState.reset⟩ };
     let h : Half := 0; let i : BitVec 16 := 5; dec (i.toNat ∈ (s.assoc.get h).withheld) && dec (i.toNat ∉ (s.assoc.get h).rewritten)) = true ∧
    (let s : State := run0.setReg (bAssoc 0) R.assoc_BANK_STAT 0xC003; let h : Half := 0;
     dec (bit (s.reg (bAssoc h) R.assoc_BANK_STAT) 14 = true)) = true ∧
    (let s : State := run0; let h : Half := 0; let t : TileIx := 0; let p : Fin 16384 := 5; dec (s.live (.tile h t) = true) &&
     dec (p.val ∉ (s.tile h t).brambleWithheld)) = true ∧
    (let s : State := run0.updTile 0 0 fun x => { x with brambleWithheld := [5, 6] }; let h : Half := 0; dec (Tbl.wf (s.tiles.get h) = true)) = true := by
  decide +kernel

/-- `LookupsAnswer`: states and operands that meet the premises of its clauses (SearchesAnswer). -/
theorem test_SearchesAnswer :
    (let l : List (Nat × Nat) := [(9, (5 + 7 * 2^640 + 3 * 2^1332 + 0x99 * 2^1344)), (5, (5 + 7 * 2^640 + 2 * 2^1332 + 0x99 * 2^1344)), (7, (5 + 7 * 2^640 + 2 * 2^1332 + 0x99 * 2^1344))];
     let x : Nat × Nat := (5, (5 + 7 * 2^640 + 2 * 2^1332 + 0x99 * 2^1344)); dec (asFirst l = some x)) = true ∧
    (let l : List (Nat × Nat) := [(9, (5 + 7 * 2^640 + 3 * 2^1332 + 0x99 * 2^1344)), (5, (5 + 7 * 2^640 + 2 * 2^1332 + 0x99 * 2^1344)), (7, (5 + 7 * 2^640 + 2 * 2^1332 + 0x99 * 2^1344))];
     let x : Nat × Nat := (5, (5 + 7 * 2^640 + 2 * 2^1332 + 0x99 * 2^1344)); dec (asFirst l = some x)) = true ∧
    (let s : State := ({ run0 with assoc := ⟨{ entries := [(5, (5 + 7 * 2^640 + 2 * 2^1332 + 0x99 * 2^1344)), (7, (5 + 7 * 2^640 + 2 * 2^1332 + 0x99 * 2^1344)), (9, (5 + 7 * 2^640 + 3 * 2^1332 + 0x99 * 2^1344))], withheld := [], rewritten := [] }, AssocState.reset⟩ }).setReg (bAssoc 0) (R.assoc_CLASS_BANKS + 8) 1;
     let h : Half := 0; let c : Nat := 1; dec (∀ b ∈ s.classBanks h c, s.bankLost h b = false ∧ s.filling h b = false) &&
     dec ((s.assoc.get h).withheld = [])) = true ∧
    (let s : State := ({ run0 with assoc := ⟨{ entries := [(5, (5 + 7 * 2^640 + 2 * 2^1332 + 0x99 * 2^1344)), (7, (5 + 7 * 2^640 + 2 * 2^1332 + 0x99 * 2^1344)), (9, (5 + 7 * 2^640 + 3 * 2^1332 + 0x99 * 2^1344))], withheld := [], rewritten := [] }, AssocState.reset⟩ }).setReg (bAssoc 0) (R.assoc_CLASS_BANKS + 8) 1;
     let h : Half := 0; let c : Nat := 1; dec (∀ b ∈ s.classBanks h c, s.bankLost h b = false ∧ s.filling h b = false) &&
     dec ((s.assoc.get h).withheld = [])) = true := by
  decide +kernel

/-- `CoprocessorOperations`: states and operands that meet the premises of its clauses. -/
theorem test_CoprocessorOperations :
    (let s : State := ((pk0 0xE0A00100 [(5, 0x100000), (6, 0x100100), (7, 0x100200)]).updTile 0 0 fun y => { y with insts := [(2, { CpInst.reset with holder := some 3 }), (4, { CpInst.reset with holder := some 3 }), (12, { CpInst.reset with holder := some 3 })] }).updTile 0 0 fun y => { y with ram := tstore y.ram 0 (leBytes 8 0x1021 ++ leBytes 8 0xFFFF ++ leBytes 8 0 ++ leBytes 8 0x0F) };
     let s1 : State := s; let h : Half := 0; let t : TileIx := 0; let n : Fin 128 := 0; let u : State := s1.atIssue (.pk h t n);
     let w : Nat := 0xE0A00100; let c : Fk := callOf s s1 (.pk h t n) w;
     let q : CpCall := (⟨0, 0, 0, 3, 0, (callOf s s (ThreadRef.pk 0 0 0) 0xE0A00100)⟩ : CpCall);
     let bs := leBytes 8 0x1021 ++ leBytes 8 0xFFFF ++ leBytes 8 0 ++ leBytes 8 0x0F; reachesB u h t n c q && dec (u.callFull q = false) &&
     dec (pcInRange (.pk h t n) c.nextPc = true) && issuesB s .cvcfg (.pk h t n) s1 w && exEq (u.cpIn q (c.g (wA w)) 32 16) (.ok (bs, true))) = true ∧
    (let s : State := ((pk0 0xE0A60101 [(5, 0x100000), (6, 16777216), (7, 0x100200)]).updTile 0 0 fun y => { y with insts := [(2, { CpInst.reset with holder := some 3 }), (4, { CpInst.reset with holder := some 3 }), (12, { CpInst.reset with holder := some 3 })] }).updTile 0 0 fun y => { y with ram := tstore y.ram 0 [0x31,0x32,0x33,0x34,0x35,0x36,0x37,0x38,0x39] };
     let s1 : State := s; let h : Half := 0; let t : TileIx := 0; let n : Fin 128 := 0; let u : State := s1.atIssue (.pk h t n);
     let w : Nat := 0xE0A60101; let c : Fk := callOf s s1 (.pk h t n) w;
     let q : CpCall := (⟨0, 0, 0, 3, 0, (callOf s s (ThreadRef.pk 0 0 0) 0xE0A60101)⟩ : CpCall);
     let bs := [0x31,0x32,0x33,0x34,0x35,0x36,0x37,0x38,0x39]; reachesB u h t n c q && dec (u.callFull q = false) &&
     dec (pcInRange (.pk h t n) c.nextPc = true) && issuesB s .cvupd (.pk h t n) s1 w && dec (cvStream (c.g (wB w)) = 0) &&
     exEq (u.cpIn q (c.g (wA w)) (cvLen (c.g (wB w))) 1) (.ok (bs, true))) = true ∧
    (let s : State := (pk0 0xE0003902 [(5, 0x100000), (6, 0x100100), (7, 0x100200)]).updTile 0 0 fun y => { y with insts := [(2, { CpInst.reset with holder := some 3 }), (4, { CpInst.reset with holder := some 3 }), (12, { CpInst.reset with holder := some 3 })] };
     let s1 : State := s; let h : Half := 0; let t : TileIx := 0; let n : Fin 128 := 0; let u : State := s1.atIssue (.pk h t n);
     let w : Nat := 0xE0003902; let c : Fk := callOf s s1 (.pk h t n) w;
     let q : CpCall := (⟨0, 0, 0, 3, 0, (callOf s s (ThreadRef.pk 0 0 0) 0xE0003902)⟩ : CpCall); let l := Loc.ram 0x200; reachesB u h t n c q &&
     dec (u.callFull q = false) && dec (pcInRange (.pk h t n) c.nextPc = true) && issuesB s .cvfin (.pk h t n) s1 w &&
     exEq (u.cpOut q (c.g (wC w)) 16 16) (.ok l)) = true ∧
    (let h : Half := 0; let t : TileIx := 0; let n : Fin 128 := 0; let w : Nat := 0xE0A63903; let la := Loc.ram 0; let ls := Loc.ram 0x100;
     let r := streamOf (List.replicate 16 0) 1; let l := Loc.ram 0x200;
     let s : State := ((pk0 0xE0A63903 [(5, 0x100000), (6, 17826048), (7, 0x100200)]).updTile 0 0 fun y => { y with insts := [(2, { CpInst.reset with holder := some 3, control := 0x20001DF })] }).updTile 0 0 fun y => { y with ram := tstore y.ram 0 [0x31,0x32,0x33,0x34,0x35,0x36,0x37,0x38,0x39] };
     let s1 : State := s; let u : State := s1.atIssue (.pk h t n); let c : Fk := callOf s s1 (.pk h t n) w;
     let q : CpCall := (⟨0, 0, 0, 3, 0, (callOf s s (ThreadRef.pk 0 0 0) 0xE0A63903)⟩ : CpCall); let y := u.cpInst q;
     let m := cvLen (c.g (wB w)); reachesB u h t n c q && dec (u.callFull q = false) && dec (pcInRange (.pk h t n) c.nextPc = true) &&
     issuesB s .cvappend (.pk h t n) s1 w && exEq (u.cpOut q (c.g (wA w)) (m + y.cntBytes + y.chkBytes) 1) (.ok la) &&
     exEq (u.cvRecord q (cvStream (c.g (wB w))) y.cntBytes) (.ok (ls, r, true)) && exEq (u.cpOut q (c.g (wC w)) 16 16) (.ok l) &&
     dec ((u.tile h t).poisoned la m = false) && dec (0 < y.cntBytes)) = true ∧
    ((let h : Half := 0; let t : TileIx := 0; let n : Fin 128 := 0; let w : Nat := 0xE0A63904;
     let bs := [0x31,0x32,0x33,0x34,0x35,0x36,0x37,0x38,0x39]; let ls := Loc.ram 0x100; let r := streamOf (List.replicate 16 0) 1;
     let l := Loc.ram 0x200;
     let s : State := ((pk0 0xE0A63904 [(5, 0x100000), (6, 17826048), (7, 0x100200)]).updTile 0 0 fun y => { y with insts := [(2, { CpInst.reset with holder := some 3, control := 0x20001DF })] }).updTile 0 0 fun y => { y with ram := tstore y.ram 0 bs };
     let s1 : State := s; let u : State := s1.atIssue (.pk h t n); let c : Fk := callOf s s1 (.pk h t n) w;
     let q : CpCall := (⟨0, 0, 0, 3, 0, (callOf s s (ThreadRef.pk 0 0 0) 0xE0A63904)⟩ : CpCall); let y := u.cpInst q;
     let x := cvCheck y r bs (u.free 64).toNat; reachesB u h t n c q && dec (u.callFull q = false) &&
     dec (pcInRange (.pk h t n) c.nextPc = true) && issuesB s .cvcheck (.pk h t n) s1 w &&
     exEq (u.cpIn q (c.g (wA w)) (cvLen (c.g (wB w))) 1) (.ok (bs, true)) &&
     exEq (u.cvRecord q (cvStream (c.g (wB w))) y.cntBytes) (.ok (ls, r, true)) && exEq (u.cpOut q (c.g (wC w)) 16 16) (.ok l) &&
     dec (x.2.2 = none)) && (let h : Half := 0; let t : TileIx := 0; let n : Fin 128 := 0; let w : Nat := 0xE0A63904; let bs := [0x31, 0x32];
     let ls := Loc.ram 0x100; let r := streamOf (List.replicate 16 0) 1; let l := Loc.ram 0x200;
     let s : State := ((pk0 0xE0A63904 [(5, 0x100000), (6, 3145984), (7, 0x100200)]).updTile 0 0 fun y => { y with insts := [(2, { CpInst.reset with holder := some 3, control := 0x20001DF })] }).updTile 0 0 fun y => { y with ram := tstore y.ram 0 [0x31,0x32,0x33,0x34,0x35,0x36,0x37,0x38,0x39] };
     let s1 : State := s; let u : State := s1.atIssue (.pk h t n); let c : Fk := callOf s s1 (.pk h t n) w;
     let q : CpCall := (⟨0, 0, 0, 3, 0, (callOf s s (ThreadRef.pk 0 0 0) 0xE0A63904)⟩ : CpCall); let y := u.cpInst q;
     let x := cvCheck y r bs (u.free 64).toNat; reachesB u h t n c q && dec (u.callFull q = false) &&
     dec (pcInRange (.pk h t n) c.nextPc = true) && issuesB s .cvcheck (.pk h t n) s1 w &&
     exEq (u.cpIn q (c.g (wA w)) (cvLen (c.g (wB w))) 1) (.ok (bs, true)) &&
     exEq (u.cvRecord q (cvStream (c.g (wB w))) y.cntBytes) (.ok (ls, r, true)) && exEq (u.cpOut q (c.g (wC w)) 16 16) (.ok l) &&
     dec (x.2.2 = none))) = true ∧
    (let h : Half := 0; let t : TileIx := 0; let n : Fin 128 := 0; let w : Nat := 0xE0A63904;
     let bs := ([0x31,0x32,0x33,0x34,0x35,0x36,0x37,0x38,0x39] ++ [5] ++ beBytes 4 ((({ CpInst.reset with control := 0x20001DF } : CpInst).crc.of ([0x31,0x32,0x33,0x34,0x35,0x36,0x37,0x38,0x39] ++ [5]))));
     let ls := Loc.ram 0x100; let r := streamOf (List.replicate 16 0) 1; let l := Loc.ram 0x200;
     let s : State := ((pk0 0xE0A63904 [(5, 0x100000), (6, 28311808), (7, 0x100200)]).updTile 0 0 fun y => { y with insts := [(2, { CpInst.reset with holder := some 3, control := 0x20001DF })] }).updTile 0 0 fun y => { y with ram := tstore y.ram 0 bs };
     let s1 : State := s; let u : State := s1.atIssue (.pk h t n); let c : Fk := callOf s s1 (.pk h t n) w;
     let q : CpCall := (⟨0, 0, 0, 3, 0, (callOf s s (ThreadRef.pk 0 0 0) 0xE0A63904)⟩ : CpCall); let y := u.cpInst q;
     let x := cvCheck y r bs (u.free 64).toNat; reachesB u h t n c q && dec (u.callFull q = false) &&
     dec (pcInRange (.pk h t n) c.nextPc = true) && issuesB s .cvcheck (.pk h t n) s1 w &&
     exEq (u.cpIn q (c.g (wA w)) (cvLen (c.g (wB w))) 1) (.ok (bs, true)) &&
     exEq (u.cvRecord q (cvStream (c.g (wB w))) y.cntBytes) (.ok (ls, r, true)) && exEq (u.cpOut q (c.g (wC w)) 16 16) (.ok l) &&
     dec ((x.2.2).isSome = true)) = true ∧
    (let s : State := ((pk0 0xE4A00000 [(5, 0x100000), (6, 0x100100), (7, 0x100200)]).updTile 0 0 fun y => { y with insts := [(2, { CpInst.reset with holder := some 3 }), (4, { CpInst.reset with holder := some 3 }), (12, { CpInst.reset with holder := some 3 })] }).updTile 0 0 fun y => { y with ram := tstore y.ram 0 [0x31,0x32,0x33,0x34,0x35,0x36,0x37,0x38,0x39] };
     let s1 : State := s; let h : Half := 0; let t : TileIx := 0; let n : Fin 128 := 0; let u : State := s1.atIssue (.pk h t n);
     let w : Nat := 0xE4A00000; let c : Fk := callOf s s1 (.pk h t n) w;
     let q : CpCall := (⟨0, 0, 0, 3, 0, (callOf s s (ThreadRef.pk 0 0 0) 0xE4A00000)⟩ : CpCall);
     let bs := padTo [0x31,0x32,0x33,0x34,0x35,0x36,0x37,0x38,0x39] 48; reachesB u h t n c q && dec (u.callFull q = false) &&
     dec (pcInRange (.pk h t n) c.nextPc = true) && issuesB s .hcfg (.pk h t n) s1 w && exEq (u.cpIn q (c.g (wA w)) 48 1) (.ok (bs, true))) = true ∧
    ((let s : State := ((pk0 0xE4A63801 [(5, 0x100000), (6, 9), (7, 0x100200)]).updTile 0 0 fun y => { y with insts := [(2, { CpInst.reset with holder := some 3 }), (4, { CpInst.reset with holder := some 3 }), (12, { CpInst.reset with holder := some 3 })] }).updTile 0 0 fun y => { y with ram := tstore y.ram 0 [0x31,0x32,0x33,0x34,0x35,0x36,0x37,0x38,0x39] };
     let s1 : State := s; let h : Half := 0; let t : TileIx := 0; let n : Fin 128 := 0; let u : State := s1.atIssue (.pk h t n);
     let w : Nat := 0xE4A63801; let c : Fk := callOf s s1 (.pk h t n) w;
     let q : CpCall := (⟨0, 0, 0, 3, 0, (callOf s s (ThreadRef.pk 0 0 0) 0xE4A63801)⟩ : CpCall);
     let bs := [0x31,0x32,0x33,0x34,0x35,0x36,0x37,0x38,0x39]; let l := Loc.ram 0x200; let v := c.g (wB w);
     let m := (if bits v 0 7 = 0 ∨ 64 < bits v 0 7 then 64 else bits v 0 7); reachesB u h t n c q && dec (u.callFull q = false) &&
     dec (pcInRange (.pk h t n) c.nextPc = true) && dec (bits v 7 24 = 0) && exEq (u.cpOut q (c.g (wC w)) 8 8) (.ok l) &&
     issuesB s .hash (.pk h t n) s1 w && exEq (u.cpIn q (c.g (wA w)) m 1) (.ok (bs, true))) &&
     (let s : State := ((pk0 0xE4A63801 [(5, 0x100000), (6, 2147483657), (7, 0x100200)]).updTile 0 0 fun y => { y with insts := [(2, { CpInst.reset with holder := some 3 }), (4, { CpInst.reset with holder := some 3 }), (12, { CpInst.reset with holder := some 3 })] }).updTile 0 0 fun y => { y with ram := tstore y.ram 0 [0x31,0x32,0x33,0x34,0x35,0x36,0x37,0x38,0x39] };
     let s1 : State := s; let h : Half := 0; let t : TileIx := 0; let n : Fin 128 := 0; let u : State := s1.atIssue (.pk h t n);
     let w : Nat := 0xE4A63801; let c : Fk := callOf s s1 (.pk h t n) w;
     let q : CpCall := (⟨0, 0, 0, 3, 0, (callOf s s (ThreadRef.pk 0 0 0) 0xE4A63801)⟩ : CpCall);
     let bs := [0x31,0x32,0x33,0x34,0x35,0x36,0x37,0x38,0x39]; let l := Loc.ram 0x200; let v := c.g (wB w);
     let m := (if bits v 0 7 = 0 ∨ 64 < bits v 0 7 then 64 else bits v 0 7); reachesB u h t n c q && dec (u.callFull q = false) &&
     dec (pcInRange (.pk h t n) c.nextPc = true) && dec (bits v 7 24 = 0) && exEq (u.cpOut q (c.g (wC w)) 8 8) (.ok l) &&
     issuesB s .hash (.pk h t n) s1 w && exEq (u.cpIn q (c.g (wA w)) m 1) (.ok (bs, true)))) = true ∧
    ((let s : State := ((pk0 0xE4A63802 [(5, 0x100000), (6, 9), (7, 0x100200)]).updTile 0 0 fun y => { y with insts := [(2, { CpInst.reset with holder := some 3 }), (4, { CpInst.reset with holder := some 3 }), (12, { CpInst.reset with holder := some 3 })] }).updTile 0 0 fun y => { y with ram := tstore y.ram 0 [0x31,0x32,0x33,0x34,0x35,0x36,0x37,0x38,0x39] };
     let s1 : State := s; let h : Half := 0; let t : TileIx := 0; let n : Fin 128 := 0; let u : State := s1.atIssue (.pk h t n);
     let w : Nat := 0xE4A63802; let c : Fk := callOf s s1 (.pk h t n) w;
     let q : CpCall := (⟨0, 0, 0, 3, 0, (callOf s s (ThreadRef.pk 0 0 0) 0xE4A63802)⟩ : CpCall);
     let bs := padTo [0x31,0x32,0x33,0x34,0x35,0x36,0x37,0x38,0x39] 128; let l := Loc.ram 0x200; let v := c.g (wB w); reachesB u h t n c q &&
     dec (u.callFull q = false) && dec (pcInRange (.pk h t n) c.nextPc = true) && dec (bits v 7 24 = 0) &&
     exEq (u.cpOut q (c.g (wC w)) 8 8) (.ok l) && issuesB s .hashm (.pk h t n) s1 w && exEq (u.cpIn q (c.g (wA w)) 128 1) (.ok (bs, true))) &&
     (let s : State := ((pk0 0xE4A63802 [(5, 0x100000), (6, 2147483657), (7, 0x100200)]).updTile 0 0 fun y => { y with insts := [(2, { CpInst.reset with holder := some 3 }), (4, { CpInst.reset with holder := some 3 }), (12, { CpInst.reset with holder := some 3 })] }).updTile 0 0 fun y => { y with ram := tstore y.ram 0 [0x31,0x32,0x33,0x34,0x35,0x36,0x37,0x38,0x39] };
     let s1 : State := s; let h : Half := 0; let t : TileIx := 0; let n : Fin 128 := 0; let u : State := s1.atIssue (.pk h t n);
     let w : Nat := 0xE4A63802; let c : Fk := callOf s s1 (.pk h t n) w;
     let q : CpCall := (⟨0, 0, 0, 3, 0, (callOf s s (ThreadRef.pk 0 0 0) 0xE4A63802)⟩ : CpCall);
     let bs := padTo [0x31,0x32,0x33,0x34,0x35,0x36,0x37,0x38,0x39] 128; let l := Loc.ram 0x200; let v := c.g (wB w); reachesB u h t n c q &&
     dec (u.callFull q = false) && dec (pcInRange (.pk h t n) c.nextPc = true) && dec (bits v 7 24 = 0) &&
     exEq (u.cpOut q (c.g (wC w)) 8 8) (.ok l) && issuesB s .hashm (.pk h t n) s1 w && exEq (u.cpIn q (c.g (wA w)) 128 1) (.ok (bs, true))) &&
     (let s : State := ((pk0 0xE4A63802 [(5, 0x100000), (6, 65), (7, 0x100200)]).updTile 0 0 fun y => { y with insts := [(2, { CpInst.reset with holder := some 3 }), (4, { CpInst.reset with holder := some 3 }), (12, { CpInst.reset with holder := some 3 })] }).updTile 0 0 fun y => { y with ram := tstore y.ram 0 [0x31,0x32,0x33,0x34,0x35,0x36,0x37,0x38,0x39] };
     let s1 : State := s; let h : Half := 0; let t : TileIx := 0; let n : Fin 128 := 0; let u : State := s1.atIssue (.pk h t n);
     let w : Nat := 0xE4A63802; let c : Fk := callOf s s1 (.pk h t n) w;
     let q : CpCall := (⟨0, 0, 0, 3, 0, (callOf s s (ThreadRef.pk 0 0 0) 0xE4A63802)⟩ : CpCall);
     let bs := padTo [0x31,0x32,0x33,0x34,0x35,0x36,0x37,0x38,0x39] 128; let l := Loc.ram 0x200; let v := c.g (wB w); reachesB u h t n c q &&
     dec (u.callFull q = false) && dec (pcInRange (.pk h t n) c.nextPc = true) && dec (bits v 7 24 = 0) &&
     exEq (u.cpOut q (c.g (wC w)) 8 8) (.ok l) && issuesB s .hashm (.pk h t n) s1 w && exEq (u.cpIn q (c.g (wA w)) 128 1) (.ok (bs, true)))) = true ∧
    (([(0xECA63800, FkOp.fdiv), (0xECA03801, FkOp.log2), (0xECA03802, FkOp.exp2)] : List (Nat × _)).all fun (w, e2) => let h : Half := 0;
     let t : TileIx := 0; let n : Fin 128 := 0; let s : State := pk0 w [(5, 0x12345678), (6, 0x40000000), (7, 0x100200)]; let s1 : State := s;
     let u : State := s1.atIssue (.pk h t n); let c : Fk := callOf s s1 (.pk h t n) w;
     let q : CpCall := (⟨0, 0, 0, 3, 0, (callOf s s (ThreadRef.pk 0 0 0) w)⟩ : CpCall); let l := Loc.ram 0x200; reachesB u h t n c q &&
     dec (u.callFull q = false) && dec (pcInRange (.pk h t n) c.nextPc = true) && exEq (u.cpOut q (c.g (wC w)) 8 8) (.ok l) &&
     issuesB s e2 (.pk h t n) s1 w) = true ∧
    ((let h : Half := 0; let t : TileIx := 0; let n : Fin 128 := 0; let w : Nat := 0xE8A63800;
     let s : State := (withChain (pk0 w [(5, 4), (6, 0x100000), (7, 0x100200)]) chain1).updTile 0 0 fun y => { y with ram := tstore y.ram 0 ([1, 0] ++ List.replicate 14 0 ++ [0, 0xFF]) };
     let s1 : State := s; let u : State := s1.atIssue (.pk h t n); let c : Fk := callOf s s1 (.pk h t n) w;
     let q : CpCall := (⟨0, 0, 0, 3, 0, (callOf s s (ThreadRef.pk 0 0 0) w)⟩ : CpCall); let l := Loc.ram 0x200;
     let k := (match (s.atIssue (ThreadRef.pk 0 0 0)).confString q with | .ok k => k | .error _ => ⟨0, [], [], false⟩); let e2 := FkOp.confCmp;
     let e3 := 1; let e4 := 256; let e5 := confCmp u q k; reachesB u h t n c q && dec (u.callFull q = false) &&
     dec (pcInRange (.pk h t n) c.nextPc = true) && exEq (u.cpOut q (c.g (wC w)) 8 8) (.ok l) && exEq (u.confString q) (.ok k) &&
     dec (k.good = true) && issuesB s e2 (.pk h t n) s1 w && dec (e3 ≤ k.n) && dec (k.n ≤ e4) && dec (e5.2 = true)) && (let h : Half := 0;
     let t : TileIx := 0; let n : Fin 128 := 0; let w : Nat := 0xE8A63801;
     let s : State := (withChain (pk0 w [(5, 3276803), (6, 0x100000), (7, 0x100200)]) chain1).updTile 0 0 fun y => { y with ram := tstore y.ram 0 ([2, 0] ++ List.replicate 14 0 ++ [0, 0, 0xFF, 0xFF]) };
     let s1 : State := s; let u : State := s1.atIssue (.pk h t n); let c : Fk := callOf s s1 (.pk h t n) w;
     let q : CpCall := (⟨0, 0, 0, 3, 0, (callOf s s (ThreadRef.pk 0 0 0) w)⟩ : CpCall); let l := Loc.ram 0x200;
     let k := (match (s.atIssue (ThreadRef.pk 0 0 0)).confString q with | .ok k => k | .error _ => ⟨0, [], [], false⟩); let e2 := FkOp.confFind;
     let e3 := 2; let e4 := 32; let e5 := confFind u q k; reachesB u h t n c q && dec (u.callFull q = false) &&
     dec (pcInRange (.pk h t n) c.nextPc = true) && exEq (u.cpOut q (c.g (wC w)) 8 8) (.ok l) && exEq (u.confString q) (.ok k) &&
     dec (k.good = true) && issuesB s e2 (.pk h t n) s1 w && dec (e3 ≤ k.n) && dec (k.n ≤ e4) && dec (e5.2 = true))) = true ∧
    (let s : State := withChain (pk0 0xE8A03802 [(5, 0x100000), (6, 0x100100), (7, 0x100200)]) chain1; let s1 : State := s; let h : Half := 0;
     let t : TileIx := 0; let n : Fin 128 := 0; let u : State := s1.atIssue (.pk h t n); let w : Nat := 0xE8A03802;
     let c : Fk := callOf s s1 (.pk h t n) w; let q : CpCall := (⟨0, 0, 0, 3, 0, (callOf s s (ThreadRef.pk 0 0 0) 0xE8A03802)⟩ : CpCall);
     let l := Loc.ram 0x200; reachesB u h t n c q && dec (u.callFull q = false) && dec (pcInRange (.pk h t n) c.nextPc = true) &&
     issuesB s .confStep (.pk h t n) s1 w && dec (q.k < svcBase) && exEq (u.cpOut q (c.g (wC w)) 72 8) (.ok l)) = true := by
  decide +kernel

/-- `CoprocessorLocksAndResponses`: states and operands that meet the premises of its clauses (CoprocessorLocks). -/
theorem test_CoprocessorLocks :
    ((([0xE080017C, 0xE880007C] : List (Nat)).all fun w => let h : Half := 0; let t : TileIx := 0; let n : Fin 128 := 0;
     let s : State := pk0 w [(5, 0x100000), (6, 0x100100), (7, 0x100200)]; let s1 : State := s; let u : State := s1.atIssue (.pk h t n);
     let k : Nat := u.slotOfThread h t n; let c : Fk := callOf s s1 (.pk h t n) w; dec ((u.tile h t).lostKey k w = none) &&
     dec (pcInRange (.pk h t n) c.nextPc = true) && issuesB s .cplock (.pk h t n) s1 w) && (let h : Half := 0; let t : TileIx := 0;
     let n : Fin 128 := 0; let w : Nat := 0xE080017C;
     let s : State := (pk0 w [(5, 0x100000), (6, 0x100100), (7, 0x100200)]).updTile 0 0 fun y => { y with insts := [(2, { CpInst.reset with holder := some 3 }), (4, { CpInst.reset with holder := some 3 }), (12, { CpInst.reset with holder := some 3 })] };
     let s1 : State := s; let u : State := s1.atIssue (.pk h t n); let k : Nat := u.slotOfThread h t n; let c : Fk := callOf s s1 (.pk h t n) w;
     dec ((u.tile h t).lostKey k w = none) && dec (pcInRange (.pk h t n) c.nextPc = true) && issuesB s .cplock (.pk h t n) s1 w)) = true ∧
    ((([0xE080017D, 0xE880007D] : List (Nat)).all fun w => let h : Half := 0; let t : TileIx := 0; let n : Fin 128 := 0;
     let s : State := pk0 w [(5, 0x100000), (6, 0x100100), (7, 0x100200)]; let s1 : State := s; let u : State := s1.atIssue (.pk h t n);
     let k : Nat := u.slotOfThread h t n; let c : Fk := callOf s s1 (.pk h t n) w; dec ((u.tile h t).lostKey k w = none) &&
     dec (pcInRange (.pk h t n) c.nextPc = true) && issuesB s .cpunlock (.pk h t n) s1 w) && (let h : Half := 0; let t : TileIx := 0;
     let n : Fin 128 := 0; let w : Nat := 0xE080017D;
     let s : State := (pk0 w [(5, 0x100000), (6, 0x100100), (7, 0x100200)]).updTile 0 0 fun y => { y with insts := [(2, { CpInst.reset with holder := some 3 }), (4, { CpInst.reset with holder := some 3 }), (12, { CpInst.reset with holder := some 3 })] };
     let s1 : State := s; let u : State := s1.atIssue (.pk h t n); let k : Nat := u.slotOfThread h t n; let c : Fk := callOf s s1 (.pk h t n) w;
     dec ((u.tile h t).lostKey k w = none) && dec (pcInRange (.pk h t n) c.nextPc = true) && issuesB s .cpunlock (.pk h t n) s1 w)) = true ∧
    (([2, 3] : List (Nat)).all fun un => let s : State := pk0 0x0 [(2, 0x80000000), (3, 0x1234), (5, 7), (6, 0xFFFFFFFF), (7, 3)];
     let h : Half := 0; let t : TileIx := 0; dec (Tbl.wf (s.tiles.get h) = true) && dec (Tbl.wf (s.tile h t).insts = true) &&
     dec (lockRequired un = false)) = true ∧
    ((([0, 1, 7] : List (Nat)).all fun un => let s : State := pk0 0x0 [(2, 0x80000000), (3, 0x1234), (5, 7), (6, 0xFFFFFFFF), (7, 3)];
     let h : Half := 0; let t : TileIx := 0; let k : Nat := 3; let i : Nat := 1; dec (Tbl.wf (s.tiles.get h) = true) &&
     dec (Tbl.wf (s.tile h t).insts = true) && dec (lockRequired un = true) && dec ((s.tile h t).heldIn k (instUnit un) i = none)) &&
     (let s : State := (pk0 0x0 [(2, 0x80000000), (3, 0x1234), (5, 7), (6, 0xFFFFFFFF), (7, 3)]).updTile 0 0 fun y => { y with insts := [(2, { CpInst.reset with holder := some 9 }), (4, { CpInst.reset with holder := some 9 }), (12, { CpInst.reset with holder := some 9 })] };
     let h : Half := 0; let t : TileIx := 0; let k : Nat := 3; let un : Nat := 0; let i : Nat := 2; dec (Tbl.wf (s.tiles.get h) = true) &&
     dec (Tbl.wf (s.tile h t).insts = true) && dec (lockRequired un = true) && dec ((s.tile h t).heldIn k (instUnit un) i = none))) = true ∧
    (([0, 1, 7] : List (Nat)).all fun un => let s : State := pk0 0x0 [(2, 0x80000000), (3, 0x1234), (5, 7), (6, 0xFFFFFFFF), (7, 3)];
     let h : Half := 0; let t : TileIx := 0; let n : Fin 128 := 5; let k : Nat := 3; let i : Nat := 1; dec (Tbl.wf (s.tiles.get h) = true) &&
     dec (Tbl.wf (s.tile h t).insts = true) && dec (lockRequired un = true) && dec ((s.tile h t).heldIn k (instUnit un) i = none) &&
     dec ((tget CpInst.reset (s.tile h t).insts (instKey (n.val / 32) (instUnit un) i)).holder = none)) = true ∧
    (let s : State := (pk0 0x0 [(2, 0x80000000), (3, 0x1234), (5, 7), (6, 0xFFFFFFFF), (7, 3)]).updTile 0 0 fun y => { y with insts := [(2, { CpInst.reset with holder := some 9 }), (4, { CpInst.reset with holder := some 9 }), (12, { CpInst.reset with holder := some 9 })] };
     let h : Half := 0; let t : TileIx := 0; let n : Fin 128 := 5; let k : Nat := 3; let un : Nat := 0; let i : Nat := 2; let j := 9;
     dec (Tbl.wf (s.tiles.get h) = true) && dec (Tbl.wf (s.tile h t).insts = true) && dec (lockRequired un = true) &&
     dec ((s.tile h t).heldIn k (instUnit un) i = none) &&
     dec ((tget CpInst.reset (s.tile h t).insts (instKey (n.val / 32) (instUnit un) i)).holder = some j)) = true ∧
    (let s : State := (pk0 0x0 [(2, 0x80000000), (3, 0x1234), (5, 7), (6, 0xFFFFFFFF), (7, 3)]).updTile 0 0 fun y => { y with insts := [(2, { CpInst.reset with holder := some 3 }), (4, { CpInst.reset with holder := some 3 }), (12, { CpInst.reset with holder := some 3 })] };
     let h : Half := 0; let t : TileIx := 0; let k : Nat := 3; let un : Nat := 0; let i : Nat := 2; let cl := 0;
     dec (Tbl.wf (s.tiles.get h) = true) && dec (Tbl.wf (s.tile h t).insts = true) && dec (lockRequired un = true) &&
     dec ((s.tile h t).heldIn k (instUnit un) i = some cl)) = true ∧
    (([0xE005017E, 0xE405007E, 0xFC05007E] : List (Nat)).all fun w => let h : Half := 0; let t : TileIx := 0; let n : Fin 128 := 0;
     let s : State := (pk0 w [(5, 0x100000), (6, 0x100100), (7, 0x100200)]).updTile 0 0 fun y => { y with insts := [(2, { CpInst.reset with holder := some 3 }), (4, { CpInst.reset with holder := some 3 }), (12, { CpInst.reset with holder := some 3 })] };
     let s1 : State := s; let u : State := s1.atIssue (.pk h t n); let c : Fk := callOf s s1 (.pk h t n) w;
     let q : CpCall := (⟨0, 0, 0, 3, 0, (callOf s s (ThreadRef.pk 0 0 0) w)⟩ : CpCall); let l := Loc.ram 0; reachesB u h t n c q &&
     dec (pcInRange (.pk h t n) c.nextPc = true) && issuesB s .cpsave (.pk h t n) s1 w &&
     exEq (u.cpOut q (c.g (wB w)) (saveBytes (wUnit w)) 16) (.ok l) && dec (u.callFull q = false)) = true ∧
    ((let h : Half := 0; let t : TileIx := 0; let n : Fin 128 := 0; let w : Nat := 0xE005017F;
     let s : State := ((pk0 w [(5, 0x100000), (6, 0x100100), (7, 0x100200)]).updTile 0 0 fun y => { y with insts := [(2, { CpInst.reset with holder := some 3 }), (4, { CpInst.reset with holder := some 3 }), (12, { CpInst.reset with holder := some 3 })] }).updTile 0 0 fun y => { y with ram := tstore y.ram 0 (({ CpInst.reset with poly := 7, key := List.replicate 40 9 } : CpInst).image 0) };
     let s1 : State := s; let u : State := s1.atIssue (.pk h t n); let c : Fk := callOf s s1 (.pk h t n) w;
     let q : CpCall := (⟨0, 0, 0, 3, 0, (callOf s s (ThreadRef.pk 0 0 0) w)⟩ : CpCall);
     let bs := ({ CpInst.reset with poly := 7, key := List.replicate 40 9 } : CpInst).image 0; reachesB u h t n c q &&
     dec (pcInRange (.pk h t n) c.nextPc = true) && issuesB s .cprestore (.pk h t n) s1 w &&
     exEq (u.cpIn q (c.g (wB w)) (saveBytes (wUnit w)) 16) (.ok (bs, true)) &&
     dec (leNat (slice bs 0 8) >>> 48 = saveHeader (wUnit w) >>> 48)) && (let h : Half := 0; let t : TileIx := 0; let n : Fin 128 := 0;
     let w : Nat := 0xE405007F;
     let s : State := ((pk0 w [(5, 0x100000), (6, 0x100100), (7, 0x100200)]).updTile 0 0 fun y => { y with insts := [(2, { CpInst.reset with holder := some 3 }), (4, { CpInst.reset with holder := some 3 }), (12, { CpInst.reset with holder := some 3 })] }).updTile 0 0 fun y => { y with ram := tstore y.ram 0 (({ CpInst.reset with poly := 7, key := List.replicate 40 9 } : CpInst).image 1) };
     let s1 : State := s; let u : State := s1.atIssue (.pk h t n); let c : Fk := callOf s s1 (.pk h t n) w;
     let q : CpCall := (⟨0, 0, 0, 3, 0, (callOf s s (ThreadRef.pk 0 0 0) w)⟩ : CpCall);
     let bs := ({ CpInst.reset with poly := 7, key := List.replicate 40 9 } : CpInst).image 1; reachesB u h t n c q &&
     dec (pcInRange (.pk h t n) c.nextPc = true) && issuesB s .cprestore (.pk h t n) s1 w &&
     exEq (u.cpIn q (c.g (wB w)) (saveBytes (wUnit w)) 16) (.ok (bs, true)) &&
     dec (leNat (slice bs 0 8) >>> 48 = saveHeader (wUnit w) >>> 48)) && (let h : Half := 0; let t : TileIx := 0; let n : Fin 128 := 0;
     let w : Nat := 0xFC05007F;
     let s : State := ((pk0 w [(5, 0x100000), (6, 0x100100), (7, 0x100200)]).updTile 0 0 fun y => { y with insts := [(2, { CpInst.reset with holder := some 3 }), (4, { CpInst.reset with holder := some 3 }), (12, { CpInst.reset with holder := some 3 })] }).updTile 0 0 fun y => { y with ram := tstore y.ram 0 (({ CpInst.reset with poly := 7, key := List.replicate 40 9 } : CpInst).image 7) };
     let s1 : State := s; let u : State := s1.atIssue (.pk h t n); let c : Fk := callOf s s1 (.pk h t n) w;
     let q : CpCall := (⟨0, 0, 0, 3, 0, (callOf s s (ThreadRef.pk 0 0 0) w)⟩ : CpCall);
     let bs := ({ CpInst.reset with poly := 7, key := List.replicate 40 9 } : CpInst).image 7; reachesB u h t n c q &&
     dec (pcInRange (.pk h t n) c.nextPc = true) && issuesB s .cprestore (.pk h t n) s1 w &&
     exEq (u.cpIn q (c.g (wB w)) (saveBytes (wUnit w)) 16) (.ok (bs, true)) && dec (leNat (slice bs 0 8) >>> 48 = saveHeader (wUnit w) >>> 48))) = true ∧
    (let y : CpInst := { CpInst.reset with key := List.replicate 40 9, crcInit := 77 }; dec (y.key.length = 40)) = true := by
  decide +kernel

/-- `CoprocessorLocksAndResponses`: states and operands that meet the premises of its clauses (CoprocessorTraps). -/
theorem test_CoprocessorTraps :
    (([(0xE0A00100, FkOp.cvcfg), (0xE0A60101, FkOp.cvupd), (0xE0003902, FkOp.cvfin), (0xE0A63903, FkOp.cvappend), (0xE0A63904, FkOp.cvcheck),
         (0xE4A00000, FkOp.hcfg), (0xE4A63801, FkOp.hash), (0xE4A63802, FkOp.hashm),
         (0xFCA63805, FkOp.expReq)] : List (Nat × _)).all fun (w, e2) => let h : Half := 0; let t : TileIx := 0; let n : Fin 128 := 0;
     let s : State := pk0 w [(5, 0x100000), (6, 0x100100), (7, 0x100200)]; let s1 : State := s; let u : State := s1.atIssue (.pk h t n);
     let k : Nat := u.slotOfThread h t n; issuesB s e2 (.pk h t n) s1 w && dec ((u.tile h t).lostKey k w = none) &&
     dec ((u.tile h t).heldIn k (instUnit (wUnit w)) (wInst w) = none)) = true ∧
    ((([(0xE0A00100, FkOp.cvcfg), (0xE0A60101, FkOp.cvupd), (0xE0003902, FkOp.cvfin), (0xE0A63903, FkOp.cvappend),
         (0xE0A63904, FkOp.cvcheck)] : List (Nat × _)).all fun (w, e2) => let h : Half := 0; let t : TileIx := 0; let n : Fin 128 := 0;
     let s : State := (pk0 w [(5, 0x100000), (6, 0x100100), (7, 0x100200)]).updTile 0 0 fun y => { y with lostInsts := [(3, 2)] };
     let s1 : State := s; let u : State := s1.atIssue (.pk h t n); let k : Nat := u.slotOfThread h t n; let x := (3, 2);
     issuesB s e2 (.pk h t n) s1 w && dec ((u.tile h t).lostKey k w = some x)) && (([(0xE4A00000, FkOp.hcfg), (0xE4A63801, FkOp.hash),
         (0xE4A63802, FkOp.hashm)] : List (Nat × _)).all fun (w, e2) => let h : Half := 0; let t : TileIx := 0; let n : Fin 128 := 0;
     let s : State := (pk0 w [(5, 0x100000), (6, 0x100100), (7, 0x100200)]).updTile 0 0 fun y => { y with lostInsts := [(3, 4)] };
     let s1 : State := s; let u : State := s1.atIssue (.pk h t n); let k : Nat := u.slotOfThread h t n; let x := (3, 4);
     issuesB s e2 (.pk h t n) s1 w && dec ((u.tile h t).lostKey k w = some x)) && (let h : Half := 0; let t : TileIx := 0; let n : Fin 128 := 0;
     let w : Nat := 0xFCA63805;
     let s : State := (pk0 w [(5, 0x100000), (6, 0x100100), (7, 0x100200)]).updTile 0 0 fun y => { y with lostInsts := [(3, 12)] };
     let s1 : State := s; let u : State := s1.atIssue (.pk h t n); let k : Nat := u.slotOfThread h t n; let e2 := FkOp.expReq; let x := (3, 12);
     issuesB s e2 (.pk h t n) s1 w && dec ((u.tile h t).lostKey k w = some x))) = true := by
  decide +kernel

/-- `CoprocessorLocksAndResponses`: states and operands that meet the premises of its clauses (CoprocessorResponses). -/
theorem test_CoprocessorResponses :
    (let h : Half := 0; let t : TileIx := 0; let id : Nat := 0;
     let s : State := (withTask (pk0 0x0 [(2, 0x80000000), (3, 0x1234), (5, 7), (6, 0xFFFFFFFF), (7, 3)]) 3 { ready 2 with state := .running, thread := some 0, dc1 := 2 }).updTile 0 0 fun y => { y with responses := [{ id := 0, slot := 3, thread := 0, pc := 8, fn := 1, dc := 1, unit := .coproc 0 0 2, loc := .ram 0x200, bytes := List.replicate 16 0xEE, parts := 0, ready := true, hold := [], late := 0 }, { id := 1, slot := 3, thread := 0, pc := 8, fn := 1, dc := 1, unit := .coproc 0 0 2, loc := .ram 0x200, bytes := List.replicate 16 0xEE, parts := 0, ready := true, hold := [], late := 0 }] };
     let un : Nat := 0; let cl : Nat := 0; let i : Nat := 2;
     let r : Response := { id := 0, slot := 3, thread := 0, pc := 8, fn := 1, dc := 1, unit := .coproc 0 0 2, loc := .ram 0x200, bytes := List.replicate 16 0xEE, parts := 0, ready := true, hold := [], late := 0 };
     dec ((s.tile h t).response? id = some r) && dec (r.unit = .coproc un cl i) && dec ((s.tile h t).oldest r = true) && dec (r.ready = true) &&
     dec (s.armed = []) && dec (r.late = 0)) = true ∧
    (let h : Half := 0; let t : TileIx := 0; let id : Nat := 0;
     let s : State := (withTask (pk0 0x0 [(2, 0x80000000), (3, 0x1234), (5, 7), (6, 0xFFFFFFFF), (7, 3)]) 3 { ready 2 with state := .running, thread := some 0, dc1 := 2 }).updTile 0 0 fun y => { y with responses := [{ id := 0, slot := 3, thread := 0, pc := 8, fn := 1, dc := 1, unit := .coproc 0 0 2, loc := .ram 0x200, bytes := List.replicate 16 0xEE, parts := 0, ready := true, hold := [], late := 6 }] };
     let un : Nat := 0; let cl : Nat := 0; let i : Nat := 2;
     let r : Response := { id := 0, slot := 3, thread := 0, pc := 8, fn := 1, dc := 1, unit := .coproc 0 0 2, loc := .ram 0x200, bytes := List.replicate 16 0xEE, parts := 0, ready := true, hold := [], late := 6 };
     dec ((s.tile h t).response? id = some r) && dec (r.unit = .coproc un cl i) && dec ((s.tile h t).oldest r = true) && dec (r.ready = true) &&
     dec (s.armed = []) && dec (r.late ≠ 0)) = true ∧
    (([5, 6] : List ((BitVec 8))).all fun code => let h : Half := 0; let t : TileIx := 0; let id : Nat := 0;
     let s : State := (withTask (pk0 0x0 [(2, 0x80000000), (3, 0x1234), (5, 7), (6, 0xFFFFFFFF), (7, 3)]) 3 { ready 2 with state := .running, thread := some 0, dc1 := 2 }).updTile 0 0 fun y => { y with responses := [{ id := 0, slot := 3, thread := 0, pc := 8, fn := 1, dc := 1, unit := .coproc 0 0 2, loc := .ram 0x200, bytes := List.replicate 16 0xEE, parts := 0, ready := true, hold := [], late := 0 }] };
     let un : Nat := 0; let cl : Nat := 0; let i : Nat := 2;
     let r : Response := { id := 0, slot := 3, thread := 0, pc := 8, fn := 1, dc := 1, unit := .coproc 0 0 2, loc := .ram 0x200, bytes := List.replicate 16 0xEE, parts := 0, ready := true, hold := [], late := 0 };
     dec ((s.tile h t).response? id = some r) && dec (r.unit = .coproc un cl i) && dec ((s.tile h t).oldest r = true) &&
     dec (code = 5 ∧ un < 2 ∨ code = 6 ∧ un ≠ 3)) = true ∧
    ((let s : State := pk0 0x0 [(2, 0x80000000), (3, 0x1234), (5, 7), (6, 0xFFFFFFFF), (7, 3)]; let h : Half := 0; let t : TileIx := 0;
     let n : Fin 128 := 0; dec (s.threadWf (.pk h t n) = true) && dec (Tbl.wf s.csr = true)) &&
     (let s : State := (pk0 0x0 [(2, 0x80000000), (3, 0x1234), (5, 7), (6, 0xFFFFFFFF), (7, 3)]).setReg (bTile 0 0) R.tile_CP_LATE_CFG 0x1001;
     let h : Half := 0; let t : TileIx := 0; let n : Fin 128 := 0; dec (s.threadWf (.pk h t n) = true) && dec (Tbl.wf s.csr = true)) &&
     (let s : State := (th0 (pk0 0x0 [(2, 0x80000000), (3, 0x1234), (5, 7), (6, 0xFFFFFFFF), (7, 3)]) fun x => { x with late := some 5 }).setReg (bTile 0 0) R.tile_CP_LATE_CFG 0x1001;
     let h : Half := 0; let t : TileIx := 0; let n : Fin 128 := 0; dec (s.threadWf (.pk h t n) = true) && dec (Tbl.wf s.csr = true))) = true ∧
    (let s : State := (withTask (pk0 0x0 [(2, 0x80000000), (3, 0x1234), (5, 7), (6, 0xFFFFFFFF), (7, 3)]) 3 { ready 2 with state := .running, thread := some 0, dc1 := 2 }).updTile 0 0 fun y => { y with cancels := [⟨3, 1, 1⟩, ⟨3, 2, 1⟩] };
     let h : Half := 0; let t : TileIx := 0; let c : Fin 4 := 2; let e : CancelRec := ⟨3, 2, 1⟩;
     let u := (s.updTile h t fun x => { x with cancels := x.cancels.erase e }).bump (bCoproc h t c) R.coproc_CP_CANCELLED;
     dec ((s.tile h t).cancels.find? (fun e => decide (e.cluster = c.val)) = some e) && dec ((u.task h t e.slot).complete = false)) = true := by
  decide +kernel

/-- `CoprocessorResults`: states and operands that meet the premises of its clauses. -/
theorem test_CoprocessorResults :
    (let r : Stream := ⟨250, 7, true, 3, 4, 5⟩; let k : Nat := 1; let cnt : Nat := 9; dec (r.rx < 2 ^ (8 * k)) && dec (cnt < 2 ^ (8 * k)) &&
     dec (r.sync = true)) = true ∧
    (let r : Stream := ⟨250, 7, false, 3, 4, 5⟩; let k : Nat := 1; let cnt : Nat := r.rx; dec (r.rx < 2 ^ (8 * k)) && dec (cnt < 2 ^ (8 * k)) &&
     dec (r.sync = false)) = true ∧
    (([1, 4, 10] : List (_)).all fun d => let r : Stream := ⟨250, 7, false, 3, 4, 5⟩; let win : Nat := 10; let k : Nat := 1;
     let cnt : Nat := (r.rx + d) % 2 ^ (8 * k); dec (r.rx < 2 ^ (8 * k)) && dec (cnt < 2 ^ (8 * k)) && dec (r.sync = false) && dec (0 < d) &&
     dec (d ≤ win) && dec (d < 2 ^ (8 * k))) = true ∧
    (([11, 255] : List (_)).all fun d => let r : Stream := ⟨250, 7, false, 3, 4, 5⟩; let win : Nat := 10; let k : Nat := 1;
     let cnt : Nat := (r.rx + d) % 2 ^ (8 * k); dec (r.rx < 2 ^ (8 * k)) && dec (cnt < 2 ^ (8 * k)) && dec (r.sync = false) && dec (0 < d) &&
     dec (win < d) && dec (d < 2 ^ (8 * k))) = true ∧
    (([0x7FFFFFFF, 0x80000000] : List (Nat)).all fun a => dec (a < 2 ^ 32)) = true ∧
    (let a : Nat := 0x1234567; dec (a < 2 ^ 32) && dec (0 < a) && dec (a < 2 ^ 31)) = true ∧
    (([0, 1, 31] : List (_)).all fun n => dec (n < 32)) = true ∧
    (let s : State := withChain (pk0 0xE8A63800 [(5, 58)]) chain1;
     let q : CpCall := (⟨0, 0, 0, 3, 0, callOf s s (ThreadRef.pk 0 0 0) 0xE8A63800⟩ : CpCall);
     let k : ConfString := ⟨3, [0,0,0], [255,255,255], true⟩; dec ((s.callFrame q).length < q.c.g (wA q.c.w) + k.n)) = true ∧
    ((let s : State := withChain (pk0 0xE8A63800 [(5, 57)]) chain1;
     let q : CpCall := (⟨0, 0, 0, 3, 0, callOf s s (ThreadRef.pk 0 0 0) 0xE8A63800⟩ : CpCall);
     let k : ConfString := ⟨3, [0,0,0], [255,255,255], true⟩; dec (q.c.g (wA q.c.w) + k.n ≤ (s.callFrame q).length)) &&
     (let s : State := withChain (pk0 0xE8A63800 [(5, 57)]) chain1;
     let q : CpCall := (⟨0, 0, 0, 3, 0, callOf s s (ThreadRef.pk 0 0 0) 0xE8A63800⟩ : CpCall);
     let k : ConfString := ⟨3, [0,0,1], [255,255,255], true⟩; dec (q.c.g (wA q.c.w) + k.n ≤ (s.callFrame q).length))) = true ∧
    (let s : State := withChain (pk0 0xE8A63800 [(5, 3276807)]) chain1;
     let q : CpCall := (⟨0, 0, 0, 3, 0, callOf s s (ThreadRef.pk 0 0 0) 0xE8A63800⟩ : CpCall);
     let k : ConfString := ⟨3, [0,0,0], [255,255,255], true⟩; let o := 7; dec (o < 65536) && dec (bits (q.c.g (wA q.c.w)) 0 16 ≤ o) &&
     dec (o + k.n ≤ min (s.callFrame q).length (bits (q.c.g (wA q.c.w)) 16 16)) && dec (0 < k.n) && dec (k.at (s.callFrame q) o = true)) = true := by
  decide +kernel

/-- `ExpansionPort`: states and operands that meet the premises of its clauses. -/
theorem test_ExpansionPort :
    (let s : State := { (run0) with exp := ⟨{ ExpState.reset with linkUp := true, frameCredits := 300, waiting := [(⟨true, 0, 0, 0, 0, 0, List.replicate 64 0⟩ : ExpMsg)], reqCredits := 0 }, ExpState.reset⟩ };
     let h : Half := 0; let m : ExpMsg := (⟨true, 0, 0, 0, 0, 0, List.replicate 64 0⟩ : ExpMsg); dec ((s.exp.get h).nextMsg = some m) &&
     dec ((s.exp.get h).linkUp = true) && dec ((s.exp.get h).kept.length + m.flits ≤ 128) && dec (m.frame = true)) = true ∧
    (let s : State := { (run0) with exp := ⟨{ ExpState.reset with linkUp := true, reqCredits := 9, frameCredits := 300, waiting := [(⟨false, 5, 0, 0, 0, 1, [1,2,3]⟩ : ExpMsg), (⟨true, 0, 0, 0, 0, 0, List.replicate 64 0⟩ : ExpMsg)], reqs := [⟨5, 0, 0, 16, none⟩] }, ExpState.reset⟩ };
     let h : Half := 0; let m : ExpMsg := (⟨false, 5, 0, 0, 0, 1, [1,2,3]⟩ : ExpMsg); dec ((s.exp.get h).nextMsg = some m) &&
     dec ((s.exp.get h).linkUp = true) && dec ((s.exp.get h).kept.length + m.flits ≤ 128) && dec (m.frame = false)) = true ∧
    (let x : ExpState := { ExpState.reset with waiting := [(⟨false, 5, 0, 0, 0, 1, [1,2,3]⟩ : ExpMsg), (⟨true, 0, 0, 0, 0, 0, List.replicate 64 0⟩ : ExpMsg)], frameCredits := 300 };
     let m : ExpMsg := (⟨true, 0, 0, 0, 0, 0, List.replicate 64 0⟩ : ExpMsg); dec (x.nextMsg = some m)) = true ∧
    (let s : State := { (run0.setReg (bHalf 0) R.half_EXP_CFG 0xA00000003) with exp := ⟨{ ExpState.reset with linkUp := true, reqCredits := 9, frameCredits := 300, badRun := 3 }, ExpState.reset⟩ };
     let h : Half := 0; let blocks : List (BitVec 66) := goodBlocks; let skew : Nat := 64; let cfg : DWord := s.expLane h;
     let b : List Byte := (s.exp.get h).rxBytes cfg blocks; dec (s.expEn h = true) && dec (skew ≤ 64) && dec (dataHeaders cfg blocks = true) &&
     dec (flitGood (s.exp.get h).rxSeq b = true)) = true ∧
    (let s : State := { (run0.setReg (bHalf 0) R.half_EXP_CFG 0xA00000003) with exp := ⟨{ ExpState.reset with linkUp := true, reqCredits := 9, frameCredits := 300, badRun := 3 }, ExpState.reset⟩ };
     let h : Half := 0; let blocks : List (BitVec 66) := []; let skew : Nat := 64; let cfg : DWord := s.expLane h;
     let b : List Byte := (s.exp.get h).rxBytes cfg blocks; dec (s.expEn h = true) && dec (skew ≤ 64) &&
     dec (dataHeaders cfg blocks = false ∨ flitGood (s.exp.get h).rxSeq b = false) && dec ((s.exp.get h).badRun < 15)) = true ∧
    (let s : State := { (run0.setReg (bHalf 0) R.half_EXP_CFG 0xA00000003) with exp := ⟨{ ExpState.reset with linkUp := true, reqCredits := 9, frameCredits := 300, badRun := 3 }, ExpState.reset⟩ };
     let h : Half := 0; let skew : Nat := 64; dec (s.expEn h = true) && dec (skew ≤ 64)) = true ∧
    (let s : State := { (run0.setReg (bHalf 0) R.half_EXP_CFG 0xA00000003) with exp := ⟨{ ExpState.reset with linkUp := true, reqCredits := 9, frameCredits := 300, badRun := 3 }, ExpState.reset⟩ };
     let h : Half := 0; let skew : Nat := 65; dec (s.expEn h = true) && dec (64 < skew)) = true ∧
    (let s : State := { (run0.setReg (bHalf 0) R.half_EXP_CFG 0xA00000003) with exp := ⟨{ ExpState.reset with linkUp := true, reqCredits := 9, frameCredits := 300, badRun := 3 }, ExpState.reset⟩ };
     let h : Half := 0; let locked := 0xFFFE; dec (s.expEn h = true) && dec (locked ≠ 0xFFFF)) = true ∧
    (([flitBytes 1 0 1 5 (List.replicate 120 0), flitBytes 1 0 2 5 (List.replicate 120 0), flitBytes 0 0 1 5 (List.replicate 120 0),
         flitBytes 0 0 2 5 (List.replicate 120 0)] : List ((List Byte))).all fun b => let x : ExpState := ExpState.reset;
     dec (flitGood x.rxSeq b = true)) = true ∧
    (let seq : Nat := 255; let ack : Nat := 254; let cls : Nat := 2; let credits : Nat := 16383; let p : List Byte := List.replicate 120 7;
     dec (p.length = 120) && dec (seq < 256) && dec (ack < 256) && dec (cls < 4) && dec (credits < 16384)) = true ∧
    (let s : State := { (run0) with exp := ⟨{ ExpState.reset with linkUp := true, reqCredits := 9, frameCredits := 300, reqs := [⟨5, 0, 0, 16, none⟩] }, ExpState.reset⟩ };
     let h : Half := 0; let tag : BitVec 12 := 5; dec ((s.exp.get h).linkUp = true) &&
     dec ((s.exp.get h).reqs.find? (fun q => decide (q.tag = tag.toNat) && q.sent.isSome) = none)) = true ∧
    (let s : State := { ((withTask (pk0 0x0 [(2, 0x80000000), (3, 0x1234), (5, 7), (6, 0xFFFFFFFF), (7, 3)]) 3 { ready 2 with state := .running, thread := some 0, dc1 := 2 }).updTile 0 0 fun y => { y with responses := [{ id := 7, slot := 3, thread := 0, pc := 8, fn := 1, dc := 1, unit := .expansion 0 0 5, loc := .ram 0x200, bytes := [], parts := 0, ready := false, hold := [], late := 0 }] }) with exp := ⟨{ ExpState.reset with linkUp := true, reqCredits := 9, frameCredits := 300, reqs := [⟨5, 0, 7, 16, some 4⟩] }, ExpState.reset⟩ };
     let h : Half := 0; let tag : BitVec 12 := 5; let status : BitVec 8 := 0; let bs : List Byte := [1, 2];
     let q := (⟨5, 0, 7, 16, some 4⟩ : ExpReq);
     let r := ({ id := 7, slot := 3, thread := 0, pc := 8, fn := 1, dc := 1, unit := .expansion 0 0 5, loc := .ram 0x200, bytes := [], parts := 0, ready := false, hold := [], late := 0 } : Response);
     let u := ((s.updExp h fun x => x.handOn ⟨2, tag.toNat, status.toNat, bs⟩).updExp h fun x => { x with reqs := x.reqs.filter fun r => r.tag ≠ tag.toNat }).bump (bHalf h) R.half_EXP_RESPONSES;
     dec ((s.exp.get h).linkUp = true) && dec ((s.exp.get h).reqs.find? (fun q => decide (q.tag = tag.toNat) && q.sent.isSome) = some q) &&
     dec ((u.tile h q.tile).response? q.resp = some r)) = true ∧
    (let s : State := { ((withTask (pk0 0x0 [(2, 0x80000000), (3, 0x1234), (5, 7), (6, 0xFFFFFFFF), (7, 3)]) 3 { ready 2 with state := .running, thread := some 0, dc1 := 2 }).updTile 0 0 fun y => { y with responses := [{ id := 7, slot := 3, thread := 0, pc := 8, fn := 1, dc := 1, unit := .expansion 0 0 5, loc := .ram 0x200, bytes := [], parts := 0, ready := false, hold := [], late := 0 }] }) with exp := ⟨{ ExpState.reset with linkUp := true, reqCredits := 9, frameCredits := 300, reqs := [⟨5, 0, 7, 16, some 4⟩] }, ExpState.reset⟩ };
     let h : Half := 0; let tag : BitVec 12 := 5; let q : ExpReq := (⟨5, 0, 7, 16, some 4⟩ : ExpReq); let at0 : Nat := 4;
     dec ((s.exp.get h).reqs.find? (fun q => decide (q.tag = tag.toNat)) = some q) && dec (q.sent = some at0) &&
     dec (at0 + s.expTimeout h ≤ s.ticks)) = true ∧
    (let s : State := { ((withTask (pk0 0x0 [(2, 0x80000000), (3, 0x1234), (5, 7), (6, 0xFFFFFFFF), (7, 3)]) 3 { ready 2 with state := .running, thread := some 0, dc1 := 2 }).updTile 0 0 fun y => { y with responses := [{ id := 7, slot := 3, thread := 0, pc := 8, fn := 1, dc := 1, unit := .expansion 0 0 5, loc := .ram 0x200, bytes := [], parts := 0, ready := false, hold := [], late := 0 }] }) with exp := ⟨{ ExpState.reset with linkUp := true, reqCredits := 9, frameCredits := 300, reqs := [⟨5, 0, 7, 16, some 999999⟩] }, ExpState.reset⟩ };
     let h : Half := 0; let tag : BitVec 12 := 5; let q : ExpReq := ⟨5, 0, 7, 16, some 999999⟩; let at0 : Nat := 999999;
     dec ((s.exp.get h).reqs.find? (fun q => decide (q.tag = tag.toNat)) = some q) && dec (q.sent = some at0) &&
     dec (s.ticks < at0 + s.expTimeout h)) = true ∧
    (let s : State := { (run0.setReg (bHalf 0) R.half_EXP_CFG 0xA00000003) with exp := ⟨{ ExpState.reset with linkUp := true, reqCredits := 9, frameCredits := 300, kept := [] }, ExpState.reset⟩ };
     let h : Half := 0; let bs : List Byte := List.replicate 60 1; dec ((s.exp.get h).linkUp = true) && dec (s.expFrames h = true) &&
     dec (s.injectRoom h = true) && dec (60 ≤ bs.length) && dec (bs.length ≤ 10240) && dec (s.canTake h 0 (cellsFor bs.length) = true)) = true ∧
    (([List.replicate 59 1, List.replicate 10241 1] : List ((List Byte))).all fun bs => let s : State := { (run0.setReg (bHalf 0) R.half_EXP_CFG 0xA00000003) with exp := ⟨{ ExpState.reset with linkUp := true, reqCredits := 9, frameCredits := 300, kept := [] }, ExpState.reset⟩ };
     let h : Half := 0; dec ((s.exp.get h).linkUp = true) && dec (s.expFrames h = true) && dec (s.injectRoom h = true) &&
     dec (bs.length < 60 ∨ 10240 < bs.length)) = true ∧
    (let s : State := { (run0) with exp := ⟨{ ExpState.reset with linkUp := true, reqCredits := 9, frameCredits := 300, kept := [⟨3, List.replicate 120 0⟩], ackTick := 997000, replayTick := 5 }, ExpState.reset⟩ };
     let h : Half := 0; dec ((s.exp.get h).linkUp = true) && dec ((s.exp.get h).kept ≠ []) && dec ((s.exp.get h).ackTick + 3000 ≤ s.ticks) &&
     dec ((s.exp.get h).replayTick + 3000 ≤ s.ticks)) = true ∧
    (let s : State := { (run0.setReg (bHalf 0) R.half_EXP_CFG 0xA00000003) with exp := ⟨{ ExpState.reset with linkUp := false, reqCredits := 9, frameCredits := 300, goodRun := 64 }, ExpState.reset⟩ };
     let h : Half := 0; dec (s.expEn h = true) && dec ((s.exp.get h).linkUp = false) && dec (64 ≤ (s.exp.get h).goodRun) &&
     dec (s.pv.ioLost = [])) = true ∧
    ((let s : State := { (((pk0 0xFCA63805 [(5, 0x100000), (6, 1048585), (7, 0x100200)]).updTile 0 0 fun y => { y with insts := [(2, { CpInst.reset with holder := some 3 }), (4, { CpInst.reset with holder := some 3 }), (12, { CpInst.reset with holder := some 3 })] }).updTile 0 0 fun y => { y with ram := tstore y.ram 0 [0x31,0x32,0x33,0x34,0x35,0x36,0x37,0x38,0x39] }) with exp := ⟨{ ExpState.reset with linkUp := true, reqCredits := 9, frameCredits := 300 }, ExpState.reset⟩ };
     let h : Half := 0; dec ((s.exp.get h).linkUp = true)) &&
     (let s : State := { (run0) with exp := ⟨{ ExpState.reset with linkUp := true, frameCredits := 300, waiting := [(⟨true, 0, 0, 0, 0, 0, List.replicate 64 0⟩ : ExpMsg)], reqCredits := 0 }, ExpState.reset⟩ };
     let h : Half := 0; dec ((s.exp.get h).linkUp = true)) &&
     (let s : State := { (run0) with exp := ⟨{ ExpState.reset with linkUp := true, reqCredits := 9, frameCredits := 300, waiting := [(⟨false, 5, 0, 0, 0, 1, [1,2,3]⟩ : ExpMsg), (⟨true, 0, 0, 0, 0, 0, List.replicate 64 0⟩ : ExpMsg)], reqs := [⟨5, 0, 0, 16, none⟩] }, ExpState.reset⟩ };
     let h : Half := 0; dec ((s.exp.get h).linkUp = true))) = true ∧
    ((let s : State := { (run0.setReg (bHalf 0) R.half_EXP_CFG 0xA00000003) with exp := ⟨{ ExpState.reset with linkUp := false, reqCredits := 9, frameCredits := 300, goodRun := 64 }, ExpState.reset⟩ };
     let h : Half := 0; dec ((s.exp.get h).linkUp = false)) && (let s : State := run0; let h : Half := 0; dec ((s.exp.get h).linkUp = false))) = true := by
  decide +kernel

/-- `HbmWorks`: states and operands that meet the premises of its clauses (PartsPerformed). -/
theorem test_PartsPerformed :
    (let s : State := ({ (hbmOpen run0) with hbm := ⟨{ HbmState.reset with parts := [(1, [(⟨0, 0, true, false, 5, 0x100, 32, List.replicate 32 7, 0, 999000⟩ : HbmPart), (⟨0, 0, false, false, 9, 0x120, 32, [], 0, 999000⟩ : HbmPart)])] }, HbmState.reset⟩ }).updTile 0 0 fun y => { y with responses := [{ Response.of .memory 1 (.ram 0) (List.replicate 40 0) with parts := 2, ready := false }] };
     let h : Half := 0; let p : Fin 64 := 1; let i : Nat := 0;
     let q : HbmPart := (⟨0, 0, true, false, 5, 0x100, 32, List.replicate 32 7, 0, 999000⟩ : HbmPart);
     dec ((tget [] (s.hbm.get h).parts p.val)[i]? = some q) && dec ((s.hbm.get h).mayPerform p.val s.ticks i = true) &&
     dec (s.hbmAwake h (hbmStack q.addr) = true) && dec (s.armed = []) && dec (q.write = true)) = true ∧
    (let s : State := ({ (hbmOpen run0) with hbm := ⟨{ HbmState.reset with parts := [(1, [(⟨0, 0, false, false, 5, 0x100, 32, [], 0, 999000⟩ : HbmPart), (⟨0, 0, false, false, 9, 0x120, 32, [], 0, 999000⟩ : HbmPart)])] }, HbmState.reset⟩ }).updTile 0 0 fun y => { y with responses := [{ Response.of .memory 1 (.ram 0) (List.replicate 40 0) with parts := 2, ready := false }] };
     let h : Half := 0; let p : Fin 64 := 1; let i : Nat := 0; let q : HbmPart := (⟨0, 0, false, false, 5, 0x100, 32, [], 0, 999000⟩ : HbmPart);
     dec ((tget [] (s.hbm.get h).parts p.val)[i]? = some q) && dec ((s.hbm.get h).mayPerform p.val s.ticks i = true) &&
     dec (s.hbmAwake h (hbmStack q.addr) = true) && dec (s.armed = []) && dec (q.write = false)) = true ∧
    ((let s : State := ({ (hbmOpen run0) with hbm := ⟨{ HbmState.reset with parts := [(1, [(⟨0, 0, false, false, 5, 0x100, 32, [], 0, 999000⟩ : HbmPart), (⟨0, 0, false, false, 9, 0x120, 32, [], 0, 999000⟩ : HbmPart)])] }, HbmState.reset⟩ }).updTile 0 0 fun y => { y with responses := [{ Response.of .memory 1 (.ram 0) (List.replicate 40 0) with parts := 2, ready := false }] };
     let h : Half := 0; let p : Fin 64 := 1; let i : Nat := 0; let q : HbmPart := (⟨0, 0, false, false, 5, 0x100, 32, [], 0, 999000⟩ : HbmPart);
     dec ((tget [] (s.hbm.get h).parts p.val)[i]? = some q) && dec ((s.hbm.get h).mayPerform p.val s.ticks i = true) &&
     dec (s.hbmAwake h (hbmStack q.addr) = true) && dec (s.armed = [])) &&
     (let s : State := ({ (hbmOpen run0) with hbm := ⟨{ HbmState.reset with parts := [(1, [(⟨0, 0, true, false, 5, 0x100, 32, List.replicate 32 7, 0, 999000⟩ : HbmPart), (⟨0, 0, false, false, 9, 0x120, 32, [], 0, 999000⟩ : HbmPart)])] }, HbmState.reset⟩ }).updTile 0 0 fun y => { y with responses := [{ Response.of .memory 1 (.ram 0) (List.replicate 40 0) with parts := 2, ready := false }] };
     let h : Half := 0; let p : Fin 64 := 1; let i : Nat := 0;
     let q : HbmPart := (⟨0, 0, true, false, 5, 0x100, 32, List.replicate 32 7, 0, 999000⟩ : HbmPart);
     dec ((tget [] (s.hbm.get h).parts p.val)[i]? = some q) && dec ((s.hbm.get h).mayPerform p.val s.ticks i = true) &&
     dec (s.hbmAwake h (hbmStack q.addr) = true) && dec (s.armed = []))) = true ∧
    (let s : State := ({ (hbmOpen run0) with hbm := ⟨{ HbmState.reset with parts := [(1, [(⟨0, 0, true, false, 5, 0x100, 32, List.replicate 32 7, 0, 999000⟩ : HbmPart), (⟨0, 0, false, false, 9, 0x120, 32, [], 0, 999000⟩ : HbmPart)])] }, HbmState.reset⟩ }).updTile 0 0 fun y => { y with responses := [{ Response.of .memory 1 (.ram 0) (List.replicate 40 0) with parts := 2, ready := false }] };
     let h : Half := 0; let p : Fin 64 := 1; let i : Nat := 0;
     let q : HbmPart := (⟨0, 0, true, false, 5, 0x100, 32, List.replicate 32 7, 0, 999000⟩ : HbmPart);
     dec ((tget [] (s.hbm.get h).parts p.val)[i]? = some q) && dec ((s.hbm.get h).mayPerform p.val s.ticks i = true) &&
     dec (s.hbmAwake h (hbmStack q.addr) = true) && dec (s.armed = []) && dec (q.write = true)) = true ∧
    (let s : State := ({ (hbmOpen run0) with hbm := ⟨{ HbmState.reset with parts := [(1, [(⟨0, 0, false, false, 5, 0x100, 32, [], 0, 999000⟩ : HbmPart), (⟨0, 0, false, false, 9, 0x120, 32, [], 0, 999000⟩ : HbmPart)])] }, HbmState.reset⟩ }).updTile 0 0 fun y => { y with responses := [{ Response.of .memory 1 (.ram 0) (List.replicate 40 0) with parts := 2, ready := false }] };
     let h : Half := 0; let p : Fin 64 := 1; let i : Nat := 0; let q : HbmPart := (⟨0, 0, false, false, 5, 0x100, 32, [], 0, 999000⟩ : HbmPart);
     dec ((tget [] (s.hbm.get h).parts p.val)[i]? = some q) && dec ((s.hbm.get h).mayPerform p.val s.ticks i = true) &&
     dec (s.hbmAwake h (hbmStack q.addr) = true) && dec (s.armed = []) && dec (q.write = false)) = true ∧
    ((let s : State := { (hbmOpen run0) with hbm := ⟨{ HbmState.reset with parts := [(1, [(⟨0, 0, false, true, 5, 0x100, 32, [], 0, 999000⟩ : HbmPart), (⟨0, 0, false, false, 5, 0x100, 32, [], 0, 999000⟩ : HbmPart)])] }, HbmState.reset⟩ };
     let h : Half := 0; let p : Fin 64 := 1; let i : Nat := 0; dec (s.armed = []) && dec ((s.hbm.get h).mayPerform p.val s.ticks i = false)) &&
     (let s : State := run0; let h : Half := 0; let p : Fin 64 := 1; let i : Nat := 0; dec (s.armed = []) &&
     dec ((s.hbm.get h).mayPerform p.val s.ticks i = false))) = true ∧
    (let s : State := { (gated (hbmOpen run0) 0) with hbm := ⟨{ HbmState.reset with parts := [(1, [(⟨0, 0, false, false, 5, 0x100, 32, [], 0, 999000⟩ : HbmPart)])] }, HbmState.reset⟩ };
     let h : Half := 0; let p : Fin 64 := 1; let i : Nat := 0; let q := (⟨0, 0, false, false, 5, 0x100, 32, [], 0, 999000⟩ : HbmPart);
     dec (s.armed = []) && dec ((tget [] (s.hbm.get h).parts p.val)[i]? = some q) && dec (s.hbmAwake h (hbmStack q.addr) = false)) = true ∧
    (let x : HbmState := { HbmState.reset with parts := [(1, [(⟨0, 0, false, true, 3, 0x100, 32, [], 0, 999000⟩ : HbmPart), (⟨0, 0, false, true, 5, 0x180, 32, [], 0, 999000⟩ : HbmPart)])] };
     let p : Nat := 1; let now : Nat := 1000000; let i : Nat := 1;
     let q : HbmPart := (⟨0, 0, false, true, 5, 0x180, 32, [], 0, 999000⟩ : HbmPart); let j := 0;
     let r := (⟨0, 0, false, true, 3, 0x100, 32, [], 0, 999000⟩ : HbmPart); dec (x.mayPerform p now i = true) &&
     dec ((tget [] x.parts p)[i]? = some q) && dec (q.write = false) && dec (q.promoted now = false) &&
     dec ((tget [] x.parts p)[j]? = some r) && dec (x.eligible p j = true) && dec (r.write = false)) = true ∧
    (let x : HbmState := { HbmState.reset with parts := [(1, [(⟨0, 0, false, true, 3, 0x100, 32, [], 0, 999000⟩ : HbmPart), (⟨0, 0, false, true, 5, 0x180, 32, [], 0, 999000⟩ : HbmPart)])] };
     let p : Nat := 1; let now : Nat := 1000000; let i : Nat := 1;
     let q : HbmPart := (⟨0, 0, false, true, 5, 0x180, 32, [], 0, 999000⟩ : HbmPart); dec (x.mayPerform p now i = true) &&
     dec ((tget [] x.parts p)[i]? = some q)) = true ∧
    (let x : HbmState := { HbmState.reset with parts := [(1, [(⟨0, 0, true, false, 5, 0x100, 32, List.replicate 32 7, 0, 999000⟩ : HbmPart)])] };
     let p : Nat := 1; let now : Nat := 1000000; let i : Nat := 0;
     let q : HbmPart := (⟨0, 0, true, false, 5, 0x100, 32, List.replicate 32 7, 0, 999000⟩ : HbmPart); dec (x.mayPerform p now i = true) &&
     dec ((tget [] x.parts p)[i]? = some q) && dec (q.write = true)) = true ∧
    (let x : HbmState := { HbmState.reset with parts := [(1, [(⟨0, 0, false, true, 3, 0x100, 32, [], 0, 999000⟩ : HbmPart), (⟨0, 0, false, true, 5, 0x180, 32, [], 0, 999000⟩ : HbmPart)])] };
     let p : Nat := 1; let now : Nat := 1000000; let i : Nat := 1;
     let q : HbmPart := (⟨0, 0, false, true, 5, 0x180, 32, [], 0, 999000⟩ : HbmPart); dec (x.mayPerform p now i = true) &&
     dec ((tget [] x.parts p)[i]? = some q) && dec (q.write = false)) = true ∧
    (let q : HbmPart := (⟨0, 0, true, false, 5, 0x100, 32, List.replicate 32 7, 0, 999000⟩ : HbmPart); dec (q.write = true)) = true ∧
    (let s : State := gated (hbmOpen run0) 0; let h : Half := 0; let r : HbmReq := (⟨.pkt, 5, false⟩ : HbmReq); let a : Nat := 0x100;
     let n : Nat := 32; dec (s.hbmWaits h r false a n = true)) = true ∧
    (let s : State := gated (hbmOpen run0) 0; let h : Half := 0; let r : HbmReq := (⟨.pkt, 5, false⟩ : HbmReq); let a : Nat := 0x100;
     let bs : List Byte := List.replicate 32 7; dec (s.hbmWaits h r true a bs.length = true)) = true ∧
    (let s : State := gated (hbmOpen run0) 0; let h : Half := 0; let r : HbmReq := (⟨.pkt, 5, false⟩ : HbmReq); let a : Nat := 0x100;
     let bs : List Byte := List.replicate 32 7; dec (s.hbmWaits h r true a bs.length = true)) = true ∧
    (let s : State := run0; let f : State → State := (fun s : State => s.bump (bBuffer 0) R.buffer_FILL_RETRIES); dec (s.armed = []) &&
     dec ((f s).waits = s.waits)) = true ∧
    (let s : State := gated (hbmOpen run0) 0; let f : State → State := (fun s : State => (s.hbmUnitRead 0 ⟨.pkt, 5, false⟩ 0x100 32).1);
     dec (s.armed = []) && dec ((f s).waits ≠ s.waits)) = true := by
  decide +kernel

/-- `HbmReadsWhatWasWritten`: states and operands that meet the premises of its clauses (HbmPlacement). -/
theorem test_HbmPlacement :
    (([0, 0x523456700, hbmTop - 1, 0xABCDEF123] : List (Nat)).all fun a => dec (a < hbmTop)) = true ∧
    (([(⟨61, 1, 10522⟩, 1), (⟨63, 31, 24575⟩, 3)] : List (RowKey × Nat)).all fun (k, c) => dec (k.p < 64) && dec (k.bank < 32) && dec (c < 4)) = true := by
  decide +kernel

/-- `HbmReadsWhatWasWritten`: states and operands that meet the premises of its clauses. -/
theorem test_HbmReadsWhatWasWritten :
    (([(0x1F0, List.replicate 16 9), (0x105, List.replicate 100 9),
         (0x100, List.replicate 256 9)] : List (Nat × (List Byte))).all fun (a, bs) => let s : State := (hbmOpen run0); let h : Half := 0;
     let r : HbmReq := ⟨.ctl, 3, false⟩; let u : State := (s.hbmWritePart h r a bs).1; let d := (u.hbmReadPart h r a bs.length).2;
     dec (r.stream = false) && dec (a % 256 + bs.length ≤ 256) && dec (bs ≠ []) && dec (Tbl.wf (s.hbm.get h).mem = true) &&
     dec (Tbl.wf (s.hbm.get h).wq = true) && dec ((s.hbmWritePart h r a bs).2 = (true)) && dec (d.err = false) && dec (d.errs = [])) = true ∧
    (let s : State := ({ (hbmOpen run0) with hbm := ⟨{ HbmState.reset with poison := [8], mem := [(0x104, 4)] }, HbmState.reset⟩ });
     let h : Half := 0; let r : HbmReq := ⟨.ctl, 3, false⟩; let a : Nat := 0x10F; let bs : List Byte := List.replicate 3 9;
     let u : State := (s.hbmWritePart h r a bs).1; let d := (u.hbmReadPart h r a bs.length).2; dec (r.stream = false) &&
     dec (a % 256 + bs.length ≤ 256) && dec (bs ≠ []) && dec (Tbl.wf (s.hbm.get h).mem = true) && dec (Tbl.wf (s.hbm.get h).wq = true) &&
     dec ((s.hbmWritePart h r a bs).2 = (true)) && dec (d.err = false)) = true ∧
    ((let s : State := run0; let h : Half := 0; let r : HbmReq := ⟨.ctl, 3, false⟩; let a : Nat := 0;
     dec (s.hbmStop h r.cls true a ≠ none ∨ (s.hbm.get h).retired.contains (hbmRowKey a) = true)) &&
     (let s : State := { (hbmOpen run0) with hbm := ⟨{ HbmState.reset with retired := [hbmRowKey 0] }, HbmState.reset⟩ }; let h : Half := 0;
     let r : HbmReq := ⟨.ctl, 3, false⟩; let a : Nat := 0;
     dec (s.hbmStop h r.cls true a ≠ none ∨ (s.hbm.get h).retired.contains (hbmRowKey a) = true)) && (let s : State := hbmOpen run0;
     let h : Half := 0; let r : HbmReq := ⟨.ctl, 3, false⟩; let a : Nat := hbmTop;
     dec (s.hbmStop h r.cls true a ≠ none ∨ (s.hbm.get h).retired.contains (hbmRowKey a) = true))) = true := by
  decide +kernel

/-- `HbmWorks`: states and operands that meet the premises of its clauses (HbmMaintenance). -/
theorem test_HbmMaintenance :
    ((let s : State := { (hbmOpen run0) with hbm := ⟨{ HbmState.reset with owed := [(65, 3)], down := [1] }, HbmState.reset⟩ };
     let h : Half := 0; let p : Fin 64 := 1; dec (s.armed = []) && dec (s.hbmAwake h (Fin.ofNat 2 (p.val / 32)) = true)) &&
     (let s : State := { (hbmOpen run0) with hbm := ⟨{ HbmState.reset with owed := [(1, 6)], parts := [(1, [(⟨0, 0, false, false, 5, 0x100, 32, [], 0, 999000⟩ : HbmPart)])] }, HbmState.reset⟩ };
     let h : Half := 0; let p : Fin 64 := 1; dec (s.armed = []) && dec (s.hbmAwake h (Fin.ofNat 2 (p.val / 32)) = true)) &&
     (let s : State := { (run0.setReg (bHbmc 0 1) R.hbmc_HBMC_CFG 4) with hbm := ⟨{ HbmState.reset with down := [0] }, HbmState.reset⟩ };
     let h : Half := 0; let p : Fin 64 := 33; dec (s.armed = []) && dec (s.hbmAwake h (Fin.ofNat 2 (p.val / 32)) = true))) = true ∧
    (let s : State := { (gated (hbmOpen run0) 0) with hbm := ⟨{ HbmState.reset with wq := [(1, [(⟨8, [(0, 5), (3, 6)], [5], false, 0⟩ : WqEntry)])] }, HbmState.reset⟩ };
     let h : Half := 0; let p : Fin 64 := 1; dec (s.armed = []) && dec (s.hbmAwake h (Fin.ofNat 2 (p.val / 32)) = false)) = true ∧
    (let x : HbmState := HbmState.reset; let p : Nat := 1; let now : Nat := 5; dec (x.nextEntry p now = none)) = true ∧
    ((let x : HbmState := { HbmState.reset with wq := [(1, [(⟨8, [(0, 5), (3, 6)], [5], false, 0⟩ : WqEntry)])] }; let p : Nat := 1;
     let now : Nat := 1000000; let e := (⟨8, [(0, 5), (3, 6)], [5], false, 0⟩ : WqEntry); dec (x.nextEntry p now = some e)) &&
     (let x : HbmState := { HbmState.reset with wq := [(1, [(⟨8, [(0, 5), (3, 6)], [5], true, 999000⟩ : WqEntry)])] }; let p : Nat := 1;
     let now : Nat := 1000000; let e := (⟨8, [(0, 5), (3, 6)], [5], true, 999000⟩ : WqEntry); dec (x.nextEntry p now = some e))) = true ∧
    (let x : HbmState := { HbmState.reset with wq := [(1, [(⟨8, [(0, 5), (3, 6)], [5], true, 999000⟩ : WqEntry)])] }; let p : Nat := 1;
     let now : Nat := 1000000; let e := (⟨8, [(0, 5), (3, 6)], [5], true, 999000⟩ : WqEntry); let f := e; dec (x.nextEntry p now = some e) &&
     dec (e.promoted now = false) && dec (x.entryTurn p now f = true)) = true ∧
    ((let x : HbmState := { HbmState.reset with wq := [(1, [(⟨8, [(0, 5), (3, 6)], [5], false, 0⟩ : WqEntry)])] }; let p : Nat := 1;
     let now : Nat := 1000000; let e := (⟨8, [(0, 5), (3, 6)], [5], false, 0⟩ : WqEntry); dec (x.nextEntry p now = some e) &&
     dec (wqFind (tget [] x.wq p) e.gran = some e)) &&
     (let x : HbmState := { HbmState.reset with wq := [(1, [(⟨8, [(0, 5), (3, 6)], [5], true, 999000⟩ : WqEntry)])] }; let p : Nat := 1;
     let now : Nat := 1000000; let e := (⟨8, [(0, 5), (3, 6)], [5], true, 999000⟩ : WqEntry); dec (x.nextEntry p now = some e) &&
     dec (wqFind (tget [] x.wq p) e.gran = some e))) = true ∧
    ((let x : HbmState := { HbmState.reset with wq := [(1, [(⟨8, [(0, 5), (3, 6)], [5], false, 0⟩ : WqEntry), (⟨9, [(0, 5), (3, 6)], [5], true, 999000⟩ : WqEntry)])] };
     let p : Nat := 1; let now : Nat := 1000000; let e : WqEntry := (⟨9, [(0, 5), (3, 6)], [5], true, 999000⟩ : WqEntry);
     dec (Tbl.wf x.wq = true) && dec (e ∈ tget [] (x.drainOld p now).wq p)) &&
     (let x : HbmState := { HbmState.reset with wq := [(1, [(⟨8, [(0, 5), (3, 6)], [5], false, 0⟩ : WqEntry)])], repairing := [hbmRowKey 256] };
     let p : Nat := 1; let now : Nat := 1000000; let e : WqEntry := (⟨8, [(0, 5), (3, 6)], [5], false, 0⟩ : WqEntry);
     dec (Tbl.wf x.wq = true) && dec (e ∈ tget [] (x.drainOld p now).wq p))) = true ∧
    ((let s : State := { (hbmOpen run0) with hbm := ⟨{ HbmState.reset with owed := [(65, 3)], down := [1] }, HbmState.reset⟩ };
     let h : Half := 0; let p : Fin 64 := 1; let b : Nat := 1; dec (b < 32) && dec ((s.hbm.get h).bankIdle p.val b = true)) &&
     (let s : State := { (hbmOpen run0) with hbm := ⟨{ HbmState.reset with repairing := [⟨1, 2, 3⟩] }, HbmState.reset⟩ }; let h : Half := 0;
     let p : Fin 64 := 1; let b : Nat := 2; dec (b < 32) && dec ((s.hbm.get h).bankIdle p.val b = true)) &&
     (let s : State := { (hbmOpen run0) with hbm := ⟨{ HbmState.reset with repairing := [⟨1, 2, 3⟩], retired := [⟨1,2,3⟩] }, HbmState.reset⟩ };
     let h : Half := 0; let p : Fin 64 := 1; let b : Nat := 2; dec (b < 32) && dec ((s.hbm.get h).bankIdle p.val b = true))) = true ∧
    (let s : State := { (hbmOpen run0) with hbm := ⟨{ HbmState.reset with owed := [(1, 6)], parts := [(1, [(⟨0, 0, false, false, 5, 0x100, 32, [], 0, 999000⟩ : HbmPart)])] }, HbmState.reset⟩ };
     let h : Half := 0; let p : Fin 64 := 1; let b : Nat := 0; dec (b < 32) && dec ((s.hbm.get h).bankIdle p.val b = false) &&
     dec (tget 0 (s.hbm.get h).owed (64 * b + p.val) < 7)) = true ∧
    (let s : State := { (hbmOpen run0) with hbm := ⟨{ HbmState.reset with owed := [(1, 7)], parts := [(1, [(⟨0, 0, false, false, 5, 0x100, 32, [], 0, 999000⟩ : HbmPart)])] }, HbmState.reset⟩ };
     let h : Half := 0; let p : Fin 64 := 1; let b : Nat := 0; dec (b < 32) && dec ((s.hbm.get h).bankIdle p.val b = false) &&
     dec (7 ≤ tget 0 (s.hbm.get h).owed (64 * b + p.val))) = true ∧
    (let s : State := { (run0.setReg (bHbmc 0 1) R.hbmc_HBMC_CFG 4) with hbm := ⟨{ HbmState.reset with cycle := 9, idleFrom := [(33, 8)] }, HbmState.reset⟩ };
     let h : Half := 0; let p : Fin 64 := 33; let n := (s.hbm.get h).cycle - tget 0 (s.hbm.get h).idleFrom p.val;
     dec (s.hbmUp h (Fin.ofNat 2 (p.val / 32)) = true) && dec (bit (s.reg (bHbmc h (Fin.ofNat 2 (p.val / 32))) R.hbmc_HBMC_CFG) 2 = true) &&
     dec (tget [] (s.hbm.get h).parts p.val = []) && dec (tget [] (s.hbm.get h).wq p.val = []) && dec ((s.hbm.get h).noOwed p.val = true) &&
     dec (p.val ∉ (s.hbm.get h).down) && dec (s.pdIdle (bHbmc h (Fin.ofNat 2 (p.val / 32))) ≤ n)) = true ∧
    ((let s : State := { (run0.setReg (bHbmc 0 1) R.hbmc_HBMC_CFG 4) with hbm := ⟨{ HbmState.reset with down := [0] }, HbmState.reset⟩ };
     let h : Half := 0; let p : Fin 64 := 33; let n := (s.hbm.get h).cycle - tget 0 (s.hbm.get h).idleFrom p.val;
     dec (s.hbmUp h (Fin.ofNat 2 (p.val / 32)) = true) && dec (bit (s.reg (bHbmc h (Fin.ofNat 2 (p.val / 32))) R.hbmc_HBMC_CFG) 2 = true) &&
     dec (tget [] (s.hbm.get h).parts p.val = []) && dec (tget [] (s.hbm.get h).wq p.val = []) && dec ((s.hbm.get h).noOwed p.val = true) &&
     dec (p.val ∉ (s.hbm.get h).down) && dec (n < s.pdIdle (bHbmc h (Fin.ofNat 2 (p.val / 32))))) &&
     (let s : State := { (hbmOpen run0) with hbm := ⟨{ HbmState.reset with repairing := [⟨1, 2, 3⟩] }, HbmState.reset⟩ }; let h : Half := 0;
     let p : Fin 64 := 1; let n := (s.hbm.get h).cycle - tget 0 (s.hbm.get h).idleFrom p.val;
     dec (s.hbmUp h (Fin.ofNat 2 (p.val / 32)) = true) && dec (bit (s.reg (bHbmc h (Fin.ofNat 2 (p.val / 32))) R.hbmc_HBMC_CFG) 2 = true) &&
     dec (tget [] (s.hbm.get h).parts p.val = []) && dec (tget [] (s.hbm.get h).wq p.val = []) && dec ((s.hbm.get h).noOwed p.val = true) &&
     dec (p.val ∉ (s.hbm.get h).down) && dec (n < s.pdIdle (bHbmc h (Fin.ofNat 2 (p.val / 32))))) &&
     (let s : State := { (hbmOpen run0) with hbm := ⟨{ HbmState.reset with repairing := [⟨1, 2, 3⟩], retired := [⟨1,2,3⟩] }, HbmState.reset⟩ };
     let h : Half := 0; let p : Fin 64 := 1; let n := (s.hbm.get h).cycle - tget 0 (s.hbm.get h).idleFrom p.val;
     dec (s.hbmUp h (Fin.ofNat 2 (p.val / 32)) = true) && dec (bit (s.reg (bHbmc h (Fin.ofNat 2 (p.val / 32))) R.hbmc_HBMC_CFG) 2 = true) &&
     dec (tget [] (s.hbm.get h).parts p.val = []) && dec (tget [] (s.hbm.get h).wq p.val = []) && dec ((s.hbm.get h).noOwed p.val = true) &&
     dec (p.val ∉ (s.hbm.get h).down) && dec (n < s.pdIdle (bHbmc h (Fin.ofNat 2 (p.val / 32)))))) = true ∧
    ((let s : State := { (run0.setReg (bHbmc 0 1) R.hbmc_HBMC_CFG 8) with hbm := ⟨{ HbmState.reset with scrubFrom := [(1, 2000000)] }, HbmState.reset⟩ };
     let h : Half := 0; let st : Fin 2 := 1; let a : Nat := scrubAddr st (tget 0 (s.hbm.get h).scrubNext st.val);
     dec (bit (s.reg (bHbmc h st) R.hbmc_HBMC_CFG) 3 = true) && dec (s.hbmUp h st = true) &&
     dec (s.scrubDue h st = false ∨ s.scrubWaits h a = true)) &&
     (let s : State := (gated (hbmOpen run0) 0).setReg (bHbmc 0 1) R.hbmc_HBMC_CFG 8; let h : Half := 0; let st : Fin 2 := 1;
     let a : Nat := scrubAddr st (tget 0 (s.hbm.get h).scrubNext st.val); dec (bit (s.reg (bHbmc h st) R.hbmc_HBMC_CFG) 3 = true) &&
     dec (s.hbmUp h st = true) && dec (s.scrubDue h st = false ∨ s.scrubWaits h a = true))) = true ∧
    (let s : State := { (run0.setReg (bHbmc 0 1) R.hbmc_HBMC_CFG 8) with hbm := ⟨{ HbmState.reset with scrubNext := [(1, 77)] }, HbmState.reset⟩ };
     let h : Half := 0; let st : Fin 2 := 1; let a : Nat := scrubAddr st (tget 0 (s.hbm.get h).scrubNext st.val);
     dec (bit (s.reg (bHbmc h st) R.hbmc_HBMC_CFG) 3 = true) && dec (s.hbmUp h st = true) && dec (s.scrubDue h st = true) &&
     dec (s.scrubWaits h a = false) && dec ((s.hbm.get h).poison.contains (a / 32) = false) &&
     dec ((s.hbm.get h).retired.contains (hbmRowKey a) = false)) = true ∧
    ((let s : State := { (run0.setReg (bHbmc 0 1) R.hbmc_HBMC_CFG 8) with hbm := ⟨{ HbmState.reset with scrubNext := [(1, 77)] }, HbmState.reset⟩ };
     let h : Half := 0; let st : Fin 2 := 1; let i : Nat := tget 0 (s.hbm.get h).scrubNext st.val; dec (Tbl.wf s.csr = true) &&
     dec (Tbl.wf (s.hbm.get h).scrubNext = true) && dec (i + 1 < stackGrans)) && (let s : State := run0; let h : Half := 0; let st : Fin 2 := 1;
     let i : Nat := tget 0 (s.hbm.get h).scrubNext st.val; dec (Tbl.wf s.csr = true) && dec (Tbl.wf (s.hbm.get h).scrubNext = true) &&
     dec (i + 1 < stackGrans)) && (let s : State := { (hbmOpen run0) with hbm := ⟨{ HbmState.reset with hot := [1] }, HbmState.reset⟩ };
     let h : Half := 0; let st : Fin 2 := 1; let i : Nat := tget 0 (s.hbm.get h).scrubNext st.val; dec (Tbl.wf s.csr = true) &&
     dec (Tbl.wf (s.hbm.get h).scrubNext = true) && dec (i + 1 < stackGrans))) = true ∧
    (let s : State := { (hbmOpen run0) with hbm := ⟨{ HbmState.reset with scrubNext := [(1, 805306367)] }, HbmState.reset⟩ }; let h : Half := 0;
     let st : Fin 2 := 1; let i : Nat := tget 0 (s.hbm.get h).scrubNext st.val; dec (Tbl.wf s.csr = true) &&
     dec (Tbl.wf (s.hbm.get h).scrubNext = true) && dec (stackGrans ≤ i + 1)) = true ∧
    ((let s : State := { (hbmOpen run0) with hbm := ⟨{ HbmState.reset with repairing := [⟨1, 2, 3⟩] }, HbmState.reset⟩ }; let h : Half := 0;
     let p : Fin 64 := 1; let b : Nat := 2; let row : Nat := 3; dec ((s.hbm.get h).repairing.contains ⟨p.val, b, row⟩ = true)) &&
     (let s : State := { (hbmOpen run0) with hbm := ⟨{ HbmState.reset with repairing := [⟨1, 2, 3⟩], retired := [⟨1,2,3⟩] }, HbmState.reset⟩ };
     let h : Half := 0; let p : Fin 64 := 1; let b : Nat := 2; let row : Nat := 3; dec ((s.hbm.get h).repairing.contains ⟨p.val, b, row⟩ = true))) = true ∧
    ((let s : State := { (run0.setReg (bHbmc 0 1) R.hbmc_HBMC_CFG 8) with hbm := ⟨{ HbmState.reset with scrubNext := [(1, 77)] }, HbmState.reset⟩ };
     let h : Half := 0; let st : Fin 2 := 1; dec (s.dev.devState ≠ .start) && dec (s.hbmUp h st = true) &&
     dec (bit (s.reg (bHbmc h st) R.hbmc_HBMC_STAT) 2 = false)) && (let s : State := run0; let h : Half := 0; let st : Fin 2 := 1;
     dec (s.dev.devState ≠ .start) && dec (s.hbmUp h st = true) && dec (bit (s.reg (bHbmc h st) R.hbmc_HBMC_STAT) 2 = false)) &&
     (let s : State := { (hbmOpen run0) with hbm := ⟨{ HbmState.reset with hot := [1] }, HbmState.reset⟩ }; let h : Half := 0;
     let st : Fin 2 := 1; dec (s.dev.devState ≠ .start) && dec (s.hbmUp h st = true) &&
     dec (bit (s.reg (bHbmc h st) R.hbmc_HBMC_STAT) 2 = false))) = true ∧
    (([99, 85, 84] : List ((BitVec 8))).all fun temp => let s : State := { (hbmOpen run0) with hbm := ⟨{ HbmState.reset with hot := [1] }, HbmState.reset⟩ };
     dec (temp.toNat < 100) && dec (Tbl.wf s.csr = true)) = true := by
  decide +kernel

/-- `HbmWorks`: states and operands that meet the premises of its clauses (PowerLevels). -/
theorem test_PowerLevels :
    ((let s : State := (UnitId.tile 0 0 :: ancestors (UnitId.tile 0 0)).foldl (fun (s : State) v => s.setReg (ownBlk v) R.ucb_POWER_STATE 0x21) run0;
     let u : UnitId := .tile 0 0; let sleep : Bool := false; let n : Nat := (if sleep then 2 else 1); dec (Tbl.wf s.units = true) &&
     dec (n ≤ deepestOf u) && dec (s.powerAllows u n = true) && dec (s.powerIdle u sleep = true) && dec ((s.unit u).power < n)) &&
     (let s : State := (inState ((UnitId.spare 0 0 :: ancestors (UnitId.spare 0 0)).foldl (fun (s : State) v => s.setReg (ownBlk v) R.ucb_POWER_STATE 0x21) run0) (.spare 0 0) .reset);
     let u : UnitId := .spare 0 0; let sleep : Bool := true; let n : Nat := (if sleep then 2 else 1); dec (Tbl.wf s.units = true) &&
     dec (n ≤ deepestOf u) && dec (s.powerAllows u n = true) && dec (s.powerIdle u sleep = true) && dec ((s.unit u).power < n))) = true ∧
    ((let s : State := ((UnitId.tile 0 0 :: ancestors (UnitId.tile 0 0)).foldl (fun (s : State) v => s.setReg (ownBlk v) R.ucb_POWER_STATE 0x21) run0).updTile 0 0 fun y => { y with scans := [3] };
     let u : UnitId := .tile 0 0; let sleep : Bool := false; let n : Nat := (if sleep then 2 else 1); dec (Tbl.wf s.units = true) &&
     dec (s.powerAllows u n = false ∨ s.powerIdle u sleep = false)) && (let s : State := run0.setReg (ownBlk (.tile 0 0)) R.ucb_POWER_STATE 0;
     let u : UnitId := .tile 0 0; let sleep : Bool := false; let n : Nat := (if sleep then 2 else 1); dec (Tbl.wf s.units = true) &&
     dec (s.powerAllows u n = false ∨ s.powerIdle u sleep = false))) = true ∧
    ((let s : State := run0.updUnit (.tile 0 0) fun d => { d with power := 1 }; let u : UnitId := .tile 0 0; dec (Tbl.wf s.units = true) &&
     dec ((s.unit u).power = 1 ∨ (s.unit u).power = 2)) && (let s : State := run0.updUnit (.tile 0 0) fun d => { d with power := 2 };
     let u : UnitId := .tile 0 0; dec (Tbl.wf s.units = true) && dec ((s.unit u).power = 1 ∨ (s.unit u).power = 2))) = true := by
  decide +kernel

/-- `Mailboxes`: states and operands that meet the premises of its clauses (MailboxSlots). -/
theorem test_MailboxSlots :
    ((let s : State := ((run0.setReg (bPrivet 6) (R.mbox_CMD_0 + 0) 0x0).setReg (bPrivet 6) (R.mbox_MB_CTL + 0) 0x8);
     let a : Agent := .control 0 5; let j : Fin 4 := 0; dec (s.mbOwner a j.val = true) && dec (s.live (.privet 6) = true) &&
     dec (bit (s.mbCtl j.val) 2 = false) && dec (mbOffered (s.mbOp j.val) j.val = false)) &&
     (let s : State := ((run0.setReg (bPrivet 6) (R.mbox_CMD_0 + 0) 0xC00000000000000).setReg (bPrivet 6) (R.mbox_MB_CTL + 0) 0x8);
     let a : Agent := .control 0 5; let j : Fin 4 := 0; dec (s.mbOwner a j.val = true) && dec (s.live (.privet 6) = true) &&
     dec (bit (s.mbCtl j.val) 2 = false) && dec (mbOffered (s.mbOp j.val) j.val = false))) = true ∧
    ((let s : State := ((((run0.setReg (bPrivet 6) (R.mbox_CMD_0 + 0x100) 0x0B00000000000000).setReg (bPrivet 6) (R.mbox_MB_CTL + 0x100) 4).setReg (bPrivet 6) (R.mbox_CMD_0 + 0) 0x200000000000000).setReg (bPrivet 6) (R.mbox_MB_CTL + 0) 0x8);
     let a : Agent := .control 0 5; let j : Fin 4 := 0; dec (s.mbOwner a j.val = true) && dec (s.live (.privet 6) = true) &&
     dec (bit (s.mbCtl j.val) 2 = false) && dec (mbOffered (s.mbOp j.val) j.val = true) && dec (mbExclusive (s.mbOp j.val) = true) &&
     dec ((s.busySlots.any fun i => mbExclusive (s.mbOp i)) = true)) &&
     (let s : State := ((((run0.setReg (bPrivet 6) (R.mbox_CMD_0 + 0x100) 0x0B00000000000000).setReg (bPrivet 6) (R.mbox_MB_CTL + 0x100) 4).setReg (bPrivet 6) (R.mbox_CMD_0 + 0) 0xB00000000000000).setReg (bPrivet 6) (R.mbox_MB_CTL + 0) 0x8);
     let a : Agent := .control 0 5; let j : Fin 4 := 0; dec (s.mbOwner a j.val = true) && dec (s.live (.privet 6) = true) &&
     dec (bit (s.mbCtl j.val) 2 = false) && dec (mbOffered (s.mbOp j.val) j.val = true) && dec (mbExclusive (s.mbOp j.val) = true) &&
     dec ((s.busySlots.any fun i => mbExclusive (s.mbOp i)) = true))) = true ∧
    ((let s : State := ((((run0.setReg (bPrivet 6) (R.mbox_CMD_0 + 0x100) 0x0B00000000000000).setReg (bPrivet 6) (R.mbox_MB_CTL + 0x100) 4).setReg (bPrivet 6) (R.mbox_CMD_0 + 0) 0x100000000000000).setReg (bPrivet 6) (R.mbox_MB_CTL + 0) 0x8);
     let a : Agent := .control 0 5; let j : Fin 4 := 0; dec (s.mbOwner a j.val = true) && dec (s.live (.privet 6) = true) &&
     dec (bit (s.mbCtl j.val) 2 = false) && dec (mbOffered (s.mbOp j.val) j.val = true) &&
     dec (mbExclusive (s.mbOp j.val) = false ∨ (s.busySlots.any fun i => mbExclusive (s.mbOp i)) = false)) &&
     (let s : State := ((run0.setReg (bPrivet 6) (R.mbox_CMD_0 + 0) 0x300000000000000).setReg (bPrivet 6) (R.mbox_MB_CTL + 0) 0x8);
     let a : Agent := .control 0 5; let j : Fin 4 := 0; dec (s.mbOwner a j.val = true) && dec (s.live (.privet 6) = true) &&
     dec (bit (s.mbCtl j.val) 2 = false) && dec (mbOffered (s.mbOp j.val) j.val = true) &&
     dec (mbExclusive (s.mbOp j.val) = false ∨ (s.busySlots.any fun i => mbExclusive (s.mbOp i)) = false))) = true ∧
    ((let s : State := ((run0.setReg (bPrivet 6) (R.mbox_CMD_0 + 0) 0x100000000000000).setReg (bPrivet 6) (R.mbox_MB_CTL + 0) 0x8);
     let a : Agent := .privet; let j : Fin 4 := 0; dec (s.mbOwner a j.val = false ∨ bit (s.mbCtl j.val) 2 = true)) &&
     (let s : State := ((run0.setReg (bPrivet 6) (R.mbox_CMD_0 + 0) 0x100000000000000).setReg (bPrivet 6) (R.mbox_MB_CTL + 0) 0x4);
     let a : Agent := .control 0 5; let j : Fin 4 := 0; dec (s.mbOwner a j.val = false ∨ bit (s.mbCtl j.val) 2 = true))) = true ∧
    ((let s : State := ((run0.setReg (bPrivet 6) (R.mbox_CMD_0 + 0) 0x100000000000000).setReg (bPrivet 6) (R.mbox_MB_CTL + 0) 0xFF0C);
     let st : Nat := 255; dec (Tbl.wf s.csr = true) && dec (st < 256)) &&
     (let s : State := ((run0.setReg (bPrivet 6) (R.mbox_CMD_0 + 768) 0x100000000000000).setReg (bPrivet 6) (R.mbox_MB_CTL + 768) 0x4);
     let st : Nat := 255; dec (Tbl.wf s.csr = true) && dec (st < 256))) = true ∧
    (let s : State := { run0 with pv := PrivetState.reset }; dec (s.pvUp = false)) = true := by
  decide +kernel

/-- `Mailboxes`: states and operands that meet the premises of its clauses (MailboxCommands). -/
theorem test_MailboxCommands :
    (let s : State := ((run0.setReg (bPrivet 6) (R.mbox_CMD_0 + 0) 0x100000000000000).setReg (bPrivet 6) (R.mbox_MB_CTL + 0) 0x4);
     let j : Fin 4 := 0; dec (s.mbRuns j.val 1 = true)) = true ∧
    (let s : State := ((((run0.setReg (bPrivet 6) (R.mbox_CMD_0 + 0) 0x800000000000000).setReg (bPrivet 6) (R.mbox_CMD_0 + 8) 0x1).setReg (bPrivet 6) (R.mbox_CMD_0 + 16) 0x5).setReg (bPrivet 6) (R.mbox_MB_CTL + 0) 0x4);
     let j : Fin 4 := 0; dec (s.mbRuns j.val 8 = true)) = true ∧
    (let s : State := { ((run0.setReg (bPrivet 6) (R.mbox_CMD_0 + 0) 0x500000000000000).setReg (bPrivet 6) (R.mbox_MB_CTL + 0) 0x4) with pv := { run0.pv with flash := (List.range 8).foldl (fun t i => tput (tput t (storeAddr 0 i + 8191) 0) (storeAddr 1 i + 8191) 0) [] } };
     let j : Fin 4 := 0; dec (s.mbRuns j.val 5 = true) && dec (s.pv.pfailLow = false) && dec (s.storeCommit = none)) = true ∧
    ((let s : State := (((run0.setReg (bPrivet 6) (R.mbox_CMD_0 + 0) 0x600000000000000).setReg (bPrivet 6) (R.mbox_CMD_0 + 24) 0x0).setReg (bPrivet 6) (R.mbox_MB_CTL + 0) 0x4);
     let j : Fin 4 := 0; dec (s.mbRuns j.val 6 = true) && dec ((s.mbCmd j.val 3).toNat = 0 ∨ 1024 < (s.mbCmd j.val 3).toNat) &&
     dec (s.armed = [])) &&
     (let s : State := (((run0.setReg (bPrivet 6) (R.mbox_CMD_0 + 0) 0x600000000000000).setReg (bPrivet 6) (R.mbox_CMD_0 + 24) 0x401).setReg (bPrivet 6) (R.mbox_MB_CTL + 0) 0x4);
     let j : Fin 4 := 0; dec (s.mbRuns j.val 6 = true) && dec ((s.mbCmd j.val 3).toNat = 0 ∨ 1024 < (s.mbCmd j.val 3).toNat) &&
     dec (s.armed = []))) = true ∧
    ((let s : State := (((((hbmOpen run0).setReg (bPrivet 6) (R.mbox_CMD_0 + 0) 0x600000000000000).setReg (bPrivet 6) (R.mbox_CMD_0 + 24) 0x400).setReg (bPrivet 6) (R.mbox_CMD_0 + 16) 0x1000).setReg (bPrivet 6) (R.mbox_MB_CTL + 0) 0x4);
     let j : Fin 4 := 0; let es := s.logFrom (fld (s.mbCmd j.val 1) 0 32) (s.mbCmd j.val 3).toNat;
     let u := (s.mbWrite j.val (s.mbCmd j.val 2).toNat (es.flatMap fun e => e)).1; dec (s.mbRuns j.val 6 = true) &&
     dec (0 < (s.mbCmd j.val 3).toNat) && dec ((s.mbCmd j.val 3).toNat ≤ 1024) &&
     dec ((s.mbWrite j.val (s.mbCmd j.val 2).toNat (es.flatMap fun e => e)).2 = (0)) && dec (s.armed = []) && dec (u.waits = s.waits)) &&
     (let s : State := (let s := (((((hbmOpen run0).setReg (bPrivet 6) (R.mbox_CMD_0 + 0) 0x600000000000000).setReg (bPrivet 6) (R.mbox_CMD_0 + 24) 0x4).setReg (bPrivet 6) (R.mbox_CMD_0 + 16) 0x1000).setReg (bPrivet 6) (R.mbox_MB_CTL + 0) 0x4);
     { s with pv := { s.pv with logBuf := [List.replicate 24 5] } }.logWrite); let j : Fin 4 := 0;
     let es := s.logFrom (fld (s.mbCmd j.val 1) 0 32) (s.mbCmd j.val 3).toNat;
     let u := (s.mbWrite j.val (s.mbCmd j.val 2).toNat (es.flatMap fun e => e)).1; dec (s.mbRuns j.val 6 = true) &&
     dec (0 < (s.mbCmd j.val 3).toNat) && dec ((s.mbCmd j.val 3).toNat ≤ 1024) &&
     dec ((s.mbWrite j.val (s.mbCmd j.val 2).toNat (es.flatMap fun e => e)).2 = (0)) && dec (s.armed = []) && dec (u.waits = s.waits))) = true ∧
    (let s : State := (((((hbmOpen run0).setReg (bPrivet 6) (R.mbox_CMD_0 + 0) 0x700000000000000).setReg (bPrivet 6) (R.mbox_CMD_0 + 16) 0x1000).setReg (bPrivet 6) (R.mbox_CMD_0 + 24) 0x80010).setReg (bPrivet 6) (R.mbox_MB_CTL + 0) 0x4);
     let j : Fin 4 := 0; let u := (s.mbRead j.val (s.mbCmd j.val 2).toNat (fld (s.mbCmd j.val 3) 0 9)).1; let bs := List.replicate 16 0;
     dec (s.mbRuns j.val 7 = true) && dec (fld (s.mbCmd j.val 3) 0 9 ≤ 256) && dec (fld (s.mbCmd j.val 3) 16 9 ≤ 256) &&
     dec ((s.mbRead j.val (s.mbCmd j.val 2).toNat (fld (s.mbCmd j.val 3) 0 9)).2 = (0, bs)) && dec (s.armed = []) && dec (u.waits = s.waits)) = true ∧
    (let s : State := (((((hbmOpen run0).setReg (bPrivet 6) (R.mbox_CMD_0 + 0) 0x700000000000000).setReg (bPrivet 6) (R.mbox_CMD_0 + 16) 0x1000).setReg (bPrivet 6) (R.mbox_CMD_0 + 24) 0x80010).setReg (bPrivet 6) (R.mbox_MB_CTL + 0) 0x4);
     let j : Fin 4 := 0; let given := List.replicate 20 3; let u := (s.mbRead j.val (s.mbCmd j.val 2).toNat (fld (s.mbCmd j.val 3) 0 9)).1;
     let bs := List.replicate 16 0;
     let v := (u.mbWrite j.val ((s.mbCmd j.val 2).toNat + fld (s.mbCmd j.val 3) 0 9) (given.take (fld (s.mbCmd j.val 3) 16 9))).1;
     dec (s.mbRuns j.val 7 = true) && dec (fld (s.mbCmd j.val 3) 0 9 ≤ 256) && dec (fld (s.mbCmd j.val 3) 16 9 ≤ 256) &&
     dec ((s.mbRead j.val (s.mbCmd j.val 2).toNat (fld (s.mbCmd j.val 3) 0 9)).2 = (0, bs)) && dec (s.armed = []) && dec (u.waits = s.waits) &&
     dec ((u.mbWrite j.val ((s.mbCmd j.val 2).toNat + fld (s.mbCmd j.val 3) 0 9) (given.take (fld (s.mbCmd j.val 3) 16 9))).2 = (0)) &&
     dec (v.waits = s.waits)) = true ∧
    (let s : State := ((run0.setReg (bPrivet 6) (R.mbox_CMD_0 + 0) 0x900000000000000).setReg (bPrivet 6) (R.mbox_MB_CTL + 0) 0x4);
     let j : Fin 4 := 0; dec (s.mbRuns j.val 9 = true)) = true ∧
    (let s : State := ((((hbmOpen run0).setReg (bPrivet 6) (R.mbox_CMD_0 + 0) 0xA00000000000000).setReg (bPrivet 6) (R.mbox_CMD_0 + 16) 0x1000).setReg (bPrivet 6) (R.mbox_MB_CTL + 0) 0x4);
     let j : Fin 4 := 0; let u := (s.mbRead j.val (s.mbCmd j.val 2).toNat 112).1; let token := List.replicate 112 0;
     dec (s.mbRuns j.val 0xA = true) && dec ((s.mbRead j.val (s.mbCmd j.val 2).toNat 112).2 = (0, token)) && dec (s.armed = []) &&
     dec (u.waits = s.waits)) = true := by
  decide +kernel

/-- `ImagesStoreAndPort`: states and operands that meet the premises of its clauses (ImagesStagedAndActivated). -/
theorem test_ImagesStagedAndActivated :
    ((let s : State := (((((hbmOpen run0).setReg (bPrivet 6) (R.mbox_CMD_0 + 0) 0x200000000000000).setReg (bPrivet 6) (R.mbox_CMD_0 + 8) 0x100).setReg (bPrivet 6) (R.mbox_CMD_0 + 24) 0x200).setReg (bPrivet 6) (R.mbox_MB_CTL + 0) 0x4);
     let j : Fin 4 := 0; let kind : Nat := fld (s.mbCmd j.val 1) 0 2; let n : Nat := (s.mbCmd j.val 3).toNat; dec (s.mbRuns j.val 2 = true) &&
     dec (s.pv.pfailLow = false) && dec (s.armed = []) && dec (kind = 0 ∨ slotSize kind < n)) &&
     (let s : State := (((((hbmOpen run0).setReg (bPrivet 6) (R.mbox_CMD_0 + 0) 0x200000000000000).setReg (bPrivet 6) (R.mbox_CMD_0 + 8) 0x101).setReg (bPrivet 6) (R.mbox_CMD_0 + 24) 0x300001).setReg (bPrivet 6) (R.mbox_MB_CTL + 0) 0x4);
     let j : Fin 4 := 0; let kind : Nat := fld (s.mbCmd j.val 1) 0 2; let n : Nat := (s.mbCmd j.val 3).toNat; dec (s.mbRuns j.val 2 = true) &&
     dec (s.pv.pfailLow = false) && dec (s.armed = []) && dec (kind = 0 ∨ slotSize kind < n))) = true ∧
    (let s : State := (((((hbmOpen run0).setReg (bPrivet 6) (R.mbox_CMD_0 + 0) 0x200000000000000).setReg (bPrivet 6) (R.mbox_CMD_0 + 8) 0x1).setReg (bPrivet 6) (R.mbox_CMD_0 + 24) 0x200).setReg (bPrivet 6) (R.mbox_MB_CTL + 0) 0x4);
     let j : Fin 4 := 0; let kind : Nat := fld (s.mbCmd j.val 1) 0 2; let img : Nat := fld (s.mbCmd j.val 1) 8 1;
     let n : Nat := (s.mbCmd j.val 3).toNat; dec (s.mbRuns j.val 2 = true) && dec (s.pv.pfailLow = false) && dec (s.armed = []) &&
     dec (kind ≠ 0) && dec (n ≤ slotSize kind) && dec (s.dirEntry (kind - 1) % 2 = img)) = true ∧
    (let s : State := ((((((hbmOpen run0).setReg (bPrivet 6) (R.mbox_CMD_0 + 0) 0x200000000000000).setReg (bPrivet 6) (R.mbox_CMD_0 + 8) 0x101).setReg (bPrivet 6) (R.mbox_CMD_0 + 24) 0x200).setReg (bPrivet 6) (R.mbox_CMD_0 + 16) 0x1000).setReg (bPrivet 6) (R.mbox_MB_CTL + 0) 0x4);
     let j : Fin 4 := 0; let kind : Nat := fld (s.mbCmd j.val 1) 0 2; let img : Nat := fld (s.mbCmd j.val 1) 8 1;
     let n : Nat := (s.mbCmd j.val 3).toNat; let u := (s.mbRead j.val (s.mbCmd j.val 2).toNat n).1; let c := List.replicate 512 0;
     let v := (u.stage kind img c).1; let k := 1; dec (s.mbRuns j.val 2 = true) && dec (s.pv.pfailLow = false) && dec (s.armed = []) &&
     dec (kind ≠ 0) && dec (n ≤ slotSize kind) && dec (s.dirEntry (kind - 1) % 2 ≠ img) &&
     dec ((s.mbRead j.val (s.mbCmd j.val 2).toNat n).2 = (0, c)) && dec ((u.stage kind img c).2 = (k)) && dec (v.waits = s.waits)) = true ∧
    (let s : State := run0; let kind : Nat := 1; let c : List Byte := List.replicate 512 0; let k : Nat := 1; dec (s.verifyHead kind c = k) &&
     dec (k ≠ 0)) = true ∧
    (let s : State := ((((hbmOpen run0).setReg (bPrivet 6) (R.mbox_CMD_0 + 0) 0x300000000000000).setReg (bPrivet 6) (R.mbox_CMD_0 + 8) 0x0).setReg (bPrivet 6) (R.mbox_MB_CTL + 0) 0x4);
     let j : Fin 4 := 0; dec (s.mbRuns j.val 3 = true) && dec (s.pv.pfailLow = false) && dec (fld (s.mbCmd j.val 1) 0 2 = 0)) = true ∧
    (let s : State := ((((hbmOpen run0).setReg (bPrivet 6) (R.mbox_CMD_0 + 0) 0x300000000000000).setReg (bPrivet 6) (R.mbox_CMD_0 + 8) 0x1).setReg (bPrivet 6) (R.mbox_MB_CTL + 0) 0x4);
     let j : Fin 4 := 0; dec (s.mbRuns j.val 3 = true) && dec (s.pv.pfailLow = false) && dec (fld (s.mbCmd j.val 1) 0 2 = 1)) = true ∧
    (let s : State := ((((hbmOpen run0).setReg (bPrivet 6) (R.mbox_CMD_0 + 0) 0x300000000000000).setReg (bPrivet 6) (R.mbox_CMD_0 + 8) 0x2).setReg (bPrivet 6) (R.mbox_MB_CTL + 0) 0x4);
     let j : Fin 4 := 0; dec (s.mbRuns j.val 3 = true) && dec (s.pv.pfailLow = false) && dec (fld (s.mbCmd j.val 1) 0 2 = 2)) = true ∧
    (let s : State := ((((hbmOpen run0).setReg (bPrivet 6) (R.mbox_CMD_0 + 0) 0x300000000000000).setReg (bPrivet 6) (R.mbox_CMD_0 + 8) 0x3).setReg (bPrivet 6) (R.mbox_MB_CTL + 0) 0x4);
     let j : Fin 4 := 0; let st := (s.loadSoftware 0 0).2.1; let k := (s.loadSoftware 0 0).2.2; dec (s.mbRuns j.val 3 = true) &&
     dec (s.pv.pfailLow = false) && dec (fld (s.mbCmd j.val 1) 0 2 = 3) &&
     dec ((s.loadSoftware (fld (s.mbCmd j.val 1) 8 1) (fld (s.mbCmd j.val 5) 0 2)).2 = (st, k))) = true ∧
    (let s : State := ((((hbmOpen run0).setReg (bPrivet 6) (R.mbox_CMD_0 + 0) 0x400000000000000).setReg (bPrivet 6) (R.mbox_CMD_0 + 8) 0x1).setReg (bPrivet 6) (R.mbox_MB_CTL + 0) 0x4);
     let j : Fin 4 := 0; let kind : Nat := fld (s.mbCmd j.val 1) 0 2; dec (s.mbRuns j.val 4 = true) && dec (s.pv.pfailLow = false) &&
     dec (kind ≠ 0) && dec (bit (s.mbCmd j.val 1) 16 = false)) = true ∧
    (let s : State := ((((hbmOpen run0).setReg (bPrivet 6) (R.mbox_CMD_0 + 0) 0x400000000000000).setReg (bPrivet 6) (R.mbox_CMD_0 + 8) 0x10001).setReg (bPrivet 6) (R.mbox_MB_CTL + 0) 0x4);
     let j : Fin 4 := 0; let kind : Nat := fld (s.mbCmd j.val 1) 0 2; dec (s.mbRuns j.val 4 = true) && dec (s.pv.pfailLow = false) &&
     dec (kind ≠ 0) && dec (bit (s.mbCmd j.val 1) 16 = true)) = true ∧
    (let s : State := ((run0.setReg (bPrivet 6) (R.mbox_CMD_0 + 0) 0xB00000000000000).setReg (bPrivet 6) (R.mbox_MB_CTL + 0) 0x4);
     let j : Fin 4 := 0; let st : Nat := (s.loadSoftware (s.dirEntry 2 % 2) 0).2.1; let k : Nat := (s.loadSoftware (s.dirEntry 2 % 2) 0).2.2;
     dec (s.mbRuns j.val 0xB = true) && dec ((s.loadSoftware (s.dirEntry 2 % 2) (fld (s.mbCmd j.val 1) 0 2)).2 = (st, k))) = true ∧
    (let s : State := run0.setReg (bPrivet 7) R.mgmt_MGMT_CFG 1; let c : List Byte := [0,0,0,0,0,0,1]; dec (s.pvUp = true) &&
     dec (s.live (.privet 7) = true) && dec (bit (s.reg (bPrivet 7) R.mgmt_MGMT_CFG) 0 = true) && dec (s.busySlots = []) &&
     dec (s.pv.pfailLow = false) && dec (1 ≤ hdrNum c 6 1) && dec (hdrNum c 6 1 ≤ 3) && dec (c.length ≤ slotSize (hdrNum c 6 1))) = true := by
  decide +kernel

/-- `ImagesStoreAndPort`: states and operands that meet the premises of its clauses (StoreAndLog). -/
theorem test_StoreAndLog :
    (let s : State := { run0 with pv := { run0.pv with storeLast := run0.storeMaps } };
     let v : State := (if s.pv.storeBad then s.storeAgain else s); dec (s.pvUp = true) && dec (s.pv.pfailLow = false) &&
     dec (v.storeMaps = v.pv.storeLast)) = true ∧
    ((let s : State := { run0 with pv := { run0.pv with pfailLow := true } }; dec (s.pvUp = false ∨ s.pv.pfailLow = true)) &&
     (let s : State := State.reset; dec (s.pvUp = false ∨ s.pv.pfailLow = true))) = true ∧
    ((let s : State := { run0 with pv := { run0.pv with storeLast := [1] } }; dec (s.storeLatest = none)) &&
     (let s : State := { run0 with pv := { run0.pv with storeLast := run0.storeMaps } }; dec (s.storeLatest = none)) &&
     (let s : State := { run0 with pv := { run0.pv with logBuf := [List.replicate 24 5, List.replicate 24 6] } }; dec (s.storeLatest = none))) = true ∧
    (let s : State := { run0 with pv := { run0.pv with logBuf := [List.replicate 24 5, List.replicate 24 6], logSeq := 2^32-1 } };
     dec (s.pvUp = true) && dec (s.pv.pfailLow = false)) = true ∧
    (let s : State := { run0 with pv := { run0.pv with logBuf := [List.replicate 24 5, List.replicate 24 6], logSeq := 2^32-1 } };
     let e : List Byte := List.replicate 24 5; let r : List (List Byte) := [List.replicate 24 6]; dec (s.pv.logBuf = e :: r) &&
     dec (s.flashClean (logAddr s.pv.logSeq) 32 = true)) = true ∧
    (let s : State := { run0 with pv := { run0.pv with erasing := [3, 4], flash := [(12287, 1), (12288, 2), (16383, 3), (16384, 4)] } };
     let k : Nat := 3; dec (k ∈ s.pv.erasing) && dec (s.pv.suspended = false)) = true ∧
    ((let s : State := withHub run0 fun x => { x with events := [(⟨500, false, rec1 1, 0, 0⟩ : HubEvent)] }; let h : Half := 0;
     let e : HubEvent := (⟨500, false, rec1 1, 0, 0⟩ : HubEvent); let r : List HubEvent := []; dec ((s.hubs.get h).events = e :: r) &&
     dec (s.pvUp = true) && dec (s.pv.logBuf.length < 32) && dec (e.slot < 448 ∨ h = 0)) &&
     (let s : State := withHub run0 fun x => { x with events := [(⟨5, false, rec1 1, 0, 0⟩ : HubEvent)] }; let h : Half := 0;
     let e : HubEvent := (⟨5, false, rec1 1, 0, 0⟩ : HubEvent); let r : List HubEvent := []; dec ((s.hubs.get h).events = e :: r) &&
     dec (s.pvUp = true) && dec (s.pv.logBuf.length < 32) && dec (e.slot < 448 ∨ h = 0))) = true ∧
    (let s : State := run0.setReg (bPrivet 4) R.cal_CAL_SEL 2136; let a : Agent := .privet;
     let i : Nat := s.rfld (bPrivet 4) R.cal_CAL_SEL 0 16; dec (s.agentReach a (.privet 4) = true) && dec (Tbl.wf s.pv.user = true) &&
     dec (2135 < i)) = true ∧
    ((let s : State := run0.setReg (bPrivet 4) R.cal_CAL_SEL 0; let a : Agent := .privet; let i : Nat := s.rfld (bPrivet 4) R.cal_CAL_SEL 0 16;
     dec (s.agentReach a (.privet 4) = true) && dec (Tbl.wf s.pv.user = true) && dec (i ≤ 2135)) &&
     (let s : State := run0.setReg (bPrivet 4) R.cal_CAL_SEL 2135; let a : Agent := .privet;
     let i : Nat := s.rfld (bPrivet 4) R.cal_CAL_SEL 0 16; dec (s.agentReach a (.privet 4) = true) && dec (Tbl.wf s.pv.user = true) &&
     dec (i ≤ 2135))) = true ∧
    ((let s : State := run0.setReg (bPrivet 4) R.cal_CAL_SEL 2136; let a : Agent := .privet; dec (s.agentReach a (.privet 9) = true)) &&
     (let s : State := run0.setReg (bPrivet 4) R.cal_CAL_SEL 0; let a : Agent := .privet; dec (s.agentReach a (.privet 9) = true)) &&
     (let s : State := run0.setReg (bPrivet 4) R.cal_CAL_SEL 2135; let a : Agent := .privet; dec (s.agentReach a (.privet 9) = true))) = true ∧
    (let s : State := { run0 with pv := { run0.pv with scopeEnd := [(2, 1000000)] } }; let i : Fin 4 := 2; let n : Nat := 1000000;
     dec (tget? s.pv.scopeEnd i.val = some n) && dec (n ≤ s.ticks)) = true ∧
    (let s : State := { run0 with pv := { run0.pv with scopeEnd := [(2, 1000001)] } }; let i : Fin 4 := 2; let n : Nat := 1000001;
     dec (tget? s.pv.scopeEnd i.val = some n) && dec (s.ticks < n)) = true := by
  decide +kernel

/-- `ImagesStoreAndPort`: states and operands that meet the premises of its clauses (ManagementPort). -/
theorem test_ManagementPort :
    ((let s : State := run0.setReg (bPrivet 7) R.mgmt_MGMT_CFG 0x0102030405060001;
     let f : List Byte := withFcs ([0xFF, 0xFF, 0xFF, 0xFF, 0xFF, 0xFF] ++ List.replicate 54 0); let bs : List Byte := f.take (f.length - 4);
     let v : DWord := s.reg (bPrivet 7) R.mgmt_MGMT_CFG; let u := (s.moveMgmt.updPv fun p => { p with mgmtIn := p.mgmtIn ++ [bs] }).mgmtRing bs;
     dec (bit v 0 = true) && dec (s.live (.privet 7) = true) && dec (64 ≤ f.length) && dec (f.length ≤ 1536) && dec (fcsGood f = true) &&
     dec (s.armed = []) &&
     dec (beNat (bs.take 6) = 0xFFFFFFFFFFFF ∧ u = (s.moveMgmt.updPv fun p => { p with mgmtIn := p.mgmtIn ++ [bs] }).mgmtRing bs ∨ beNat (bs.take 6) ≠ 0xFFFFFFFFFFFF ∧ beNat (bs.take 6) = fld v 16 48 ∧ u = (s.moveMgmt.updPv fun p => { p with mgmtIn := p.mgmtIn ++ [bs] }) ∨ beNat (bs.take 6) ≠ 0xFFFFFFFFFFFF ∧ beNat (bs.take 6) ≠ fld v 16 48 ∧ u = s.moveMgmt.mgmtRing bs) &&
     dec (u.waits = s.waits)) && (let s : State := run0.setReg (bPrivet 7) R.mgmt_MGMT_CFG 0x0102030405060001;
     let f : List Byte := withFcs ([1, 2, 3, 4, 5, 6] ++ List.replicate 54 0); let bs : List Byte := f.take (f.length - 4);
     let v : DWord := s.reg (bPrivet 7) R.mgmt_MGMT_CFG; let u := (s.moveMgmt.updPv fun p => { p with mgmtIn := p.mgmtIn ++ [bs] });
     dec (bit v 0 = true) && dec (s.live (.privet 7) = true) && dec (64 ≤ f.length) && dec (f.length ≤ 1536) && dec (fcsGood f = true) &&
     dec (s.armed = []) &&
     dec (beNat (bs.take 6) = 0xFFFFFFFFFFFF ∧ u = (s.moveMgmt.updPv fun p => { p with mgmtIn := p.mgmtIn ++ [bs] }).mgmtRing bs ∨ beNat (bs.take 6) ≠ 0xFFFFFFFFFFFF ∧ beNat (bs.take 6) = fld v 16 48 ∧ u = (s.moveMgmt.updPv fun p => { p with mgmtIn := p.mgmtIn ++ [bs] }) ∨ beNat (bs.take 6) ≠ 0xFFFFFFFFFFFF ∧ beNat (bs.take 6) ≠ fld v 16 48 ∧ u = s.moveMgmt.mgmtRing bs) &&
     dec (u.waits = s.waits)) && (let s : State := run0.setReg (bPrivet 7) R.mgmt_MGMT_CFG 0x0102030405060001;
     let f : List Byte := withFcs ([1, 2, 3, 4, 5, 7] ++ List.replicate 54 0); let bs : List Byte := f.take (f.length - 4);
     let v : DWord := s.reg (bPrivet 7) R.mgmt_MGMT_CFG; let u := (s.moveMgmt).mgmtRing bs; dec (bit v 0 = true) &&
     dec (s.live (.privet 7) = true) && dec (64 ≤ f.length) && dec (f.length ≤ 1536) && dec (fcsGood f = true) && dec (s.armed = []) &&
     dec (beNat (bs.take 6) = 0xFFFFFFFFFFFF ∧ u = (s.moveMgmt.updPv fun p => { p with mgmtIn := p.mgmtIn ++ [bs] }).mgmtRing bs ∨ beNat (bs.take 6) ≠ 0xFFFFFFFFFFFF ∧ beNat (bs.take 6) = fld v 16 48 ∧ u = (s.moveMgmt.updPv fun p => { p with mgmtIn := p.mgmtIn ++ [bs] }) ∨ beNat (bs.take 6) ≠ 0xFFFFFFFFFFFF ∧ beNat (bs.take 6) ≠ fld v 16 48 ∧ u = s.moveMgmt.mgmtRing bs) &&
     dec (u.waits = s.waits))) = true ∧
    (let s : State := ((gated (hbmOpen run0) 0).setReg (bPrivet 7) R.mgmt_MGMT_CFG 0x0102030405060001).setReg (bCc 0) (R.cc_RING_CTL + 32) 0x0000000000000001;
     let f : List Byte := withFcs ([0xFF, 0xFF, 0xFF, 0xFF, 0xFF, 0xFF] ++ List.replicate 54 0); let bs : List Byte := f.take (f.length - 4);
     let v : DWord := s.reg (bPrivet 7) R.mgmt_MGMT_CFG; let u := (s.moveMgmt.updPv fun p => { p with mgmtIn := p.mgmtIn ++ [bs] }).mgmtRing bs;
     dec (bit v 0 = true) && dec (s.live (.privet 7) = true) && dec (64 ≤ f.length) && dec (f.length ≤ 1536) && dec (fcsGood f = true) &&
     dec (s.armed = []) &&
     dec (beNat (bs.take 6) = 0xFFFFFFFFFFFF ∧ u = (s.moveMgmt.updPv fun p => { p with mgmtIn := p.mgmtIn ++ [bs] }).mgmtRing bs ∨ beNat (bs.take 6) ≠ 0xFFFFFFFFFFFF ∧ beNat (bs.take 6) = fld v 16 48 ∧ u = (s.moveMgmt.updPv fun p => { p with mgmtIn := p.mgmtIn ++ [bs] }) ∨ beNat (bs.take 6) ≠ 0xFFFFFFFFFFFF ∧ beNat (bs.take 6) ≠ fld v 16 48 ∧ u = s.moveMgmt.mgmtRing bs) &&
     dec (u.waits ≠ s.waits)) = true ∧
    ((let s : State := run0.setReg (bPrivet 7) R.mgmt_MGMT_CFG 0x0102030405060001; let f : List Byte := withFcs (List.replicate 59 0);
     dec (s.armed = []) && dec (f.length < 64 ∨ 1536 < f.length ∨ fcsGood f = false)) &&
     (let s : State := run0.setReg (bPrivet 7) R.mgmt_MGMT_CFG 0x0102030405060001; let f : List Byte := withFcs (List.replicate 1533 0);
     dec (s.armed = []) && dec (f.length < 64 ∨ 1536 < f.length ∨ fcsGood f = false)) &&
     (let s : State := run0.setReg (bPrivet 7) R.mgmt_MGMT_CFG 0x0102030405060001; let f : List Byte := List.replicate 64 1;
     dec (s.armed = []) && dec (f.length < 64 ∨ 1536 < f.length ∨ fcsGood f = false))) = true ∧
    (let s : State := (((hbmOpen (run0.setReg (bPrivet 7) R.mgmt_MGMT_CFG 0x0102030405060001)).setReg (bCc 0) (R.cc_RING_CTL + 64) 0x0000000001000001).setReg (bCc 0) (R.cc_RING_BASE + 64) 0x2000);
     let h : Half := 0; let u : State := (s.hbmRead h privReq (s.ringBase h 2 + 32 * ringTail (s.ringCtl h 2)) 32).1;
     let bs : List Byte := List.replicate 32 0; dec (bit (s.reg (bPrivet 7) R.mgmt_MGMT_CFG) 0 = true) && dec (s.live (.privet 7) = true) &&
     dec (s.mgmtReady = [h]) && dec ((s.hbmRead h privReq (s.ringBase h 2 + 32 * ringTail (s.ringCtl h 2)) 32).2 = (bs, false)) &&
     dec (s.armed = []) && dec (u.waits = s.waits)) = true := by
  decide +kernel

/-- `SensorsAndClocks`: states and operands that meet the premises of its clauses (SensorsSampled). -/
theorem test_SensorsSampled :
    (let s : State := run0; dec (s.outOfReset = true)) = true ∧
    (([-32768, 32767, 30, -5] : List (Int)).all fun x => let s : State := run0; dec (Tbl.wf s.csr = true) && dec (-32768 ≤ x) && dec (x ≤ 32767)) = true ∧
    (([-32768, 32767, 30, -5] : List (Int)).all fun x => let s : State := run0; let n : Fin 64 := 5; let m : Fin 64 := 63;
     dec (Tbl.wf s.csr = true) && dec (-32768 ≤ x) && dec (x ≤ 32767) && dec (m ≠ n)) = true ∧
    (let s : State := (run0.takeTemp 5 (-30)); let a : Agent := .privet; dec (s.agentReach a (.privet 5) = true) && dec (Tbl.wf s.csr = true)) = true ∧
    (let s : State := { (({ run0 with pv := { run0.pv with coolSince := some 5 } }).setReg bDevice R.device_THERM_CTL 0x200) with ticks := 1500000005 };
     let t0 : Nat := 5; dec (s.pv.coolSince = some t0) && dec (s.shutdown = true) && dec (t0 + 1500000000 ≤ s.ticks)) = true ∧
    (let s : State := ({ run0 with pv := { run0.pv with coolSince := some 5 } }).setReg bDevice R.device_THERM_CTL 0x200; let t0 : Nat := 5;
     dec (s.pv.coolSince = some t0) && dec (s.shutdown = true) && dec (s.ticks < t0 + 1500000000)) = true := by
  decide +kernel

/-- `SensorsAndClocks`: states and operands that meet the premises of its clauses (ClocksWatched). -/
theorem test_ClocksWatched :
    (([(930, 511), (1025, 513)] : List (Nat × Nat)).all fun (a, b) => let s : State := run0; dec (s.outOfReset = true) &&
     dec (930 ≤ a ∧ a ≤ 1025 ∧ 511 ≤ b ∧ b ≤ 513)) = true ∧
    (([(929, 511), (1025, 514), (1026, 512), (1000, 510)] : List (Nat × Nat)).all fun (a, b) => let s : State := run0;
     dec (s.outOfReset = true) && dec (¬ (930 ≤ a ∧ a ≤ 1025 ∧ 511 ≤ b ∧ b ≤ 513))) = true ∧
    ((let s : State := run0; dec (s.pv.refclk = true)) && (let s : State := { run0 with pv := { run0.pv with ioLost := [2, 5] } };
     dec (s.pv.refclk = true))) = true ∧
    ((let s : State := run0; dec (s.pv.rootLock = true)) && (let s : State := { run0 with pv := { run0.pv with ioLost := [2, 5] } };
     dec (s.pv.rootLock = true))) = true ∧
    (([1, 2, 3, 4] : List (Nat)).all fun k => let s : State := run0; dec (k ∉ s.pv.ioLost) && dec (1 ≤ k) && dec (k ≤ 4)) = true ∧
    (let s : State := run0; let k : Nat := 5; dec (k ∉ s.pv.ioLost)) = true ∧
    (let s : State := run0; let k : Nat := 6; dec (k ∉ s.pv.ioLost)) = true ∧
    (let s : State := run0; let k : Nat := 7; dec (k ∉ s.pv.ioLost)) = true ∧
    ((([20, 50] : List (Nat)).all fun mv => let s : State := run0.setReg (bHalf 0) R.half_DROOP_CFG 20; let h : Half := 0;
     let n : Nat := s.droopBand h mv; dec (Tbl.wf s.csr = true) && dec (s.droopLevel h < n)) &&
     (let s : State := (nx (execDroopRise 0 20 (run0.setReg (bHalf 0) R.half_DROOP_CFG 20))); let h : Half := 0; let mv : Nat := 45;
     let n : Nat := s.droopBand h mv; dec (Tbl.wf s.csr = true) && dec (s.droopLevel h < n))) = true ∧
    (let s : State := (nx (execDroopRise 0 30 (run0.setReg (bHalf 0) R.half_DROOP_CFG 20))); let h : Half := 0; let mv : Nat := 26;
     dec (s.droopBand h mv ≤ s.droopLevel h) && dec (s.droopT h + 10 * s.droopLevel h < mv + 15)) = true ∧
    (let s : State := (nx (execDroopRise 0 30 (run0.setReg (bHalf 0) R.half_DROOP_CFG 20))); let h : Half := 0; let mv : Nat := 25;
     dec (s.droopBand h mv ≤ s.droopLevel h) && dec (mv + 15 ≤ s.droopT h + 10 * s.droopLevel h)) = true ∧
    (([1, 4] : List (_)).all fun k => dec (1 ≤ k) && dec (k ≤ 4)) = true ∧
    (let s : State := ((nx (execDroopRise 0 50 (run0.setReg (bHalf 0) R.half_DROOP_CFG 20)))).setDroopFor 0 256; let h : Half := 0;
     dec (Tbl.wf s.csr = true) && dec (0 < s.droopLevel h) && dec (256 ≤ s.pv.droopFor.get h)) = true ∧
    (let s : State := ((nx (execDroopRise 0 50 (run0.setReg (bHalf 0) R.half_DROOP_CFG 20)))).setDroopFor 0 255; let h : Half := 0;
     dec (Tbl.wf s.csr = true) && dec (0 < s.droopLevel h) && dec (s.pv.droopFor.get h < 256)) = true ∧
    (let s : State := ((nx (execDroopFall 0 (((nx (execDroopRise 0 50 (run0.setReg (bHalf 0) R.half_DROOP_CFG 20)))).setDroopFor 0 256))));
     let a : Agent := .privet; let h : Half := 0; dec (Tbl.wf s.csr = true) && dec (s.agentReach a (.half h) = true)) = true := by
  decide +kernel

/-- `PinsAndReset`: states and operands that meet the premises of its clauses (PowerFail). -/
theorem test_PowerFail :
    (let s : State := { run0 with pv := { run0.pv with booted := false } };
     let u := (s.updPv fun p => { p with pfailLow := true }).setReg bDevice R.device_PWR_STAT (setFld (setFld (s.reg bDevice R.device_PWR_STAT) 1 1 1) 48 16 (min (fld (s.reg bDevice R.device_PWR_STAT) 48 16 + 1) 0xFFFF));
     dec (s.pv.pfailLow = false) && dec (s.outOfReset = true) && dec (u.pvUp = false)) = true ∧
    ((let s : State := run0;
     let u := (s.updPv fun p => { p with pfailLow := true }).setReg bDevice R.device_PWR_STAT (setFld (setFld (s.reg bDevice R.device_PWR_STAT) 1 1 1) 48 16 (min (fld (s.reg bDevice R.device_PWR_STAT) 48 16 + 1) 0xFFFF));
     dec (s.pv.pfailLow = false) && dec (s.outOfReset = true) && dec (u.pvUp = true)) &&
     (let s : State := run0.setReg bDevice R.device_PWR_STAT 0xFFFF000000000000;
     let u := (s.updPv fun p => { p with pfailLow := true }).setReg bDevice R.device_PWR_STAT (setFld (setFld (s.reg bDevice R.device_PWR_STAT) 1 1 1) 48 16 (min (fld (s.reg bDevice R.device_PWR_STAT) 48 16 + 1) 0xFFFF));
     dec (s.pv.pfailLow = false) && dec (s.outOfReset = true) && dec (u.pvUp = true))) = true ∧
    (let s : State := { run0 with pv := { run0.pv with pfailLow := true, suspended := true, start := { run0.pv.start with dirWait := [(0, 5)] } } };
     dec (s.pv.pfailLow = true)) = true := by
  decide +kernel

/-- `PinsAndReset`: states and operands that meet the premises of its clauses (ResetPins). -/
theorem test_ResetPins :
    (let s : State := (withTask (withHub run0 fun x => { x with slots := [(3, rec1 2)] }) 3 (ready 2)); dec (s.pv.porLow = false) &&
     dec (s.pv.erasing = [])) = true ∧
    ((let s : State := (withTask (withHub run0 fun x => { x with slots := [(3, rec1 2)] }) 3 (ready 2)); dec (s.pv.porLow = false) &&
     dec (s.pv.sysLow = false) && dec (s.pv.erasing = [])) &&
     (let s : State := { State.reset with pv := { PrivetState.reset with porLow := false, refclk := false, start := { StartInfo.reset with waitRef := true } } };
     dec (s.pv.porLow = false) && dec (s.pv.sysLow = false) && dec (s.pv.erasing = []))) = true ∧
    ((let s : State := { State.reset with pv := { PrivetState.reset with porLow := true, sysLow := false } };
     dec (s.pv.porLow = true ∨ s.pv.sysLow = true) && dec (s.pv.refclk = true) && dec (s.pv.rootLock = true)) &&
     (let s : State := { State.reset with pv := { PrivetState.reset with porLow := false, sysLow := true } };
     dec (s.pv.porLow = true ∨ s.pv.sysLow = true) && dec (s.pv.refclk = true) && dec (s.pv.rootLock = true))) = true ∧
    (([{ State.reset with pv := { PrivetState.reset with porLow := true, sysLow := false, rootLock := false } }, { State.reset with pv := { PrivetState.reset with porLow := false, sysLow := true, rootLock := false } }, { State.reset with pv := { PrivetState.reset with porLow := true, sysLow := false, refclk := false } }, { State.reset with pv := { PrivetState.reset with porLow := false, sysLow := true, refclk := false } }] : List (State)).all fun s => dec (s.pv.porLow = true ∨ s.pv.sysLow = true) &&
     dec (s.pv.refclk = false ∨ s.pv.rootLock = false)) = true ∧
    (let s : State := { State.reset with pv := { PrivetState.reset with porLow := false, refclk := false, start := { StartInfo.reset with waitRef := true } } };
     dec (s.pv.porLow = false) && dec (s.pv.sysLow = false) && dec (s.pv.start.waitRef = true) && dec (s.pv.rootLock = true)) = true ∧
    (let s : State := { State.reset with pv := { PrivetState.reset with refclk := false } }; dec (s.pv.start.waitRef = false)) = true := by
  decide +kernel

/-- `PinsAndReset`: states and operands that meet the premises of its clauses (PinsAndMirror). -/
theorem test_PinsAndMirror :
    (let s : State := run0; dec (s.pv.perstLow = false) && dec (s.ustate .device = .active) && dec (s.ustate (.privet 8) ≠ .reset)) = true ∧
    (let s : State := run0; let b : Bool := false; dec (s.pv.perstLow = b)) = true ∧
    (let s : State := ((run0.setReg (bPrivet 8) R.pcie_GRANT_PF 7).setReg (bPrivet 8) (R.pcie_GRANT_PF + 8) 5).setReg (bPrivet 6) (R.mbox_CMD_0 + 0x200) 9;
     dec (Tbl.wf s.csr = true)) = true ∧
    (let s : State := { run0 with pv := { run0.pv with extest := true } }; dec (s.pv.extest = true)) = true ∧
    (let s : State := run0; dec (s.pv.extest = false)) = true ∧
    (let s : State := (fun s : State => { s with cc := s.cc.upd 1 fun x => { x with mirror := [(3, 64, [1,2,3,4])] } }) (withFord (hbmOpen run0) fun f => { f with peerUp := true });
     let h : Half := 1; let n : Nat := 3; let m : Nat := 64; let bs : List Byte := [1,2,3,4]; let r : List (Nat × Nat × List Byte) := [];
     let u := { s with cc := s.cc.upd h fun x => { x with mirror := r } };
     let v := (u.hbmWrite (other h) ccReq (s.mirrorPeer (other h) + m) bs).1; dec ((s.cc.get h).mirror = (n, m, bs) :: r) &&
     dec (s.armed = []) && dec ((s.ford.get h).peerUp = true) && dec (v.waits = s.waits)) = true ∧
    (let s : State := (fun s : State => { s with cc := s.cc.upd 1 fun x => { x with mirror := [(3, 64, [1,2,3,4])] } }) (withFord (gated (hbmOpen run0) 0) fun f => { f with peerUp := true });
     let h : Half := 1; let n : Nat := 3; let m : Nat := 64; let bs : List Byte := [1,2,3,4]; let r : List (Nat × Nat × List Byte) := [];
     let u := { s with cc := s.cc.upd h fun x => { x with mirror := r } };
     let v := (u.hbmWrite (other h) ccReq (s.mirrorPeer (other h) + m) bs).1; dec ((s.cc.get h).mirror = (n, m, bs) :: r) &&
     dec (s.armed = []) && dec ((s.ford.get h).peerUp = true) && dec (v.waits ≠ s.waits)) = true ∧
    (let s : State := (fun s : State => { s with cc := s.cc.upd 0 fun x => { x with mirror := [(3, 64, [1,2,3,4])] } }) (withFord (hbmOpen run0) fun f => { f with peerUp := false });
     let h : Half := 0; let n : Nat := 3; let m : Nat := 64; let bs : List Byte := [1,2,3,4]; let r : List (Nat × Nat × List Byte) := [];
     dec ((s.cc.get h).mirror = (n, m, bs) :: r) && dec (s.armed = []) && dec ((s.ford.get h).peerUp = false)) = true := by
  decide +kernel

/-- `ControlCoreInstructions`: states and operands that meet the premises of its clauses (WideInstructionsRetire). -/
theorem test_WideInstructionsRetire :
    (([(0xC0823000, (.add : FkOp)), (0xC0822800, (.add : FkOp)), (0xC0823001, (.sub : FkOp)),
         (0xC0822826, (.remu : FkOp))] : List (Nat × _)).all fun (w, o) => let h : Half := 0; let n : Fin 32 := 0;
     let s : State := cc0 w [(2, 0x8000000000000000), (3, 0x1234), (5, 7), (6, 0xFFFFFFFFFFFFFFFF), (8, 0x100018000)];
     let s1 : State := (s.fetch (.cc 0 0)).1; let th : ThreadRef := .cc h n; let c : Fk := callOf s s1 th w;
     let r := aluRes 64 o c.sat (c.gFull (wB w)) (c.gFull (wC w)); dec (pcInRange th c.nextPc = true) && issuesB s .alu64 th s1 w &&
     dec (aluOp (wFn6 w) = some o) && dec (o ≠ .cmp) && dec (o ≠ .tst) && dec (r.flags &&& flDz = 0 ∨ modeDz c.x.mode = false)) = true ∧
    (let s : State := cc0 0xC0023015 [(2, 0x8000000000000000), (3, 0x1234), (5, 7), (6, 0xFFFFFFFFFFFFFFFF), (8, 0x100018000)];
     let s1 : State := (s.fetch (.cc 0 0)).1; let h : Half := 0; let n : Fin 32 := 0; let w : Nat := 0xC0023015; let th : ThreadRef := .cc h n;
     let c : Fk := callOf s s1 th w; dec (pcInRange th c.nextPc = true) && issuesB s .alu64 th s1 w && dec (aluOp (wFn6 w) = some .cmp)) = true ∧
    (let s : State := cc0 0xC486FFFF [(2, 0x8000000000000000), (3, 0x1234), (5, 7), (6, 0xFFFFFFFFFFFFFFFF), (8, 0x100018000)];
     let s1 : State := (s.fetch (.cc 0 0)).1; let h : Half := 0; let n : Fin 32 := 0; let w : Nat := 0xC486FFFF; let th : ThreadRef := .cc h n;
     let c : Fk := callOf s s1 th w; dec (pcInRange th c.nextPc = true) && issuesB s .addi64 th s1 w) = true ∧
    ((let h : Half := 0; let n : Fin 32 := 0; let w : Nat := 0xC8880008;
     let s : State := cc0 w [(2, 0x8000000000000000), (3, 0x1234), (5, 7), (6, 0xFFFFFFFFFFFFFFFF), (8, 0x100018000)];
     let s1 : State := (s.fetch (.cc 0 0)).1; let th : ThreadRef := .cc h n; let u : State := s1.atIssue th; let c : Fk := callOf s s1 th w;
     let v := ((s1.atIssue (.cc 0 0)).ccLoad 0 0 0x100018008 8 accRead).1; let bs := List.replicate 8 0; let e2 := FkOp.ld; let e3 := 8;
     dec (pcInRange th c.nextPc = true) && issuesB s e2 th s1 w && (let r := u.ccLoad h n c.addr e3 accRead; dec (r.1 = v) &&
     exEq r.2 (.ok bs)) && dec (v.waits = s.waits)) && (let h : Half := 0; let n : Fin 32 := 0; let w : Nat := 0xD0880008;
     let s : State := cc0 w [(2, 0x8000000000000000), (3, 0x1234), (5, 7), (6, 0xFFFFFFFFFFFFFFFF), (8, 0x100018000)];
     let s1 : State := (s.fetch (.cc 0 0)).1; let th : ThreadRef := .cc h n; let u : State := s1.atIssue th; let c : Fk := callOf s s1 th w;
     let v := ((s1.atIssue (.cc 0 0)).ccLoad 0 0 0x100018008 4 accRead).1; let bs := List.replicate 4 0; let e2 := FkOp.lwu; let e3 := 4;
     dec (pcInRange th c.nextPc = true) && issuesB s e2 th s1 w && (let r := u.ccLoad h n c.addr e3 accRead; dec (r.1 = v) &&
     exEq r.2 (.ok bs)) && dec (v.waits = s.waits))) = true ∧
    (let s : State := cc0 0xCC480008 [(2, 0x8000000000000000), (3, 0x1234), (5, 7), (6, 0xFFFFFFFFFFFFFFFF), (8, 0x100018000)];
     let s1 : State := (s.fetch (.cc 0 0)).1; let h : Half := 0; let n : Fin 32 := 0; let w : Nat := 0xCC480008; let th : ThreadRef := .cc h n;
     let u : State := s1.atIssue th; let c : Fk := callOf s s1 th w; let v := (u.ccStore h n c.addr (leBytes 8 (c.gFull (wA w)))).1;
     dec (pcInRange th c.nextPc = true) && issuesB s .sd th s1 w && dec ((u.ccStore h n c.addr (leBytes 8 (c.gFull (wA w)))).2 = (none)) &&
     dec (v.waits = s.waits)) = true ∧
    ((let s : State := cc0 0xD4000003 [(2, 0x8000000000000000), (3, 0x1234), (5, 7), (6, 0xFFFFFFFFFFFFFFFF), (8, 0x100018000)];
     let s1 : State := (s.fetch (.cc 0 0)).1; let h : Half := 0; let n : Fin 32 := 0; let w : Nat := 0xD4000003; let th : ThreadRef := .cc h n;
     let u : State := s1.atIssue th; let c : Fk := callOf s s1 th w; dec (pcInRange th c.nextPc = true) && issuesB s .drain th s1 w &&
     dec (u.mirrorPending th = false)) &&
     (let s : State := (fun s : State => { s with cc := s.cc.upd 0 fun x => { x with mirror := [(5, 64, [1])] } }) (cc0 0xD4000003 [(2, 0x8000000000000000), (3, 0x1234), (5, 7), (6, 0xFFFFFFFFFFFFFFFF), (8, 0x100018000)]);
     let s1 : State := (s.fetch (.cc 0 0)).1; let h : Half := 0; let n : Fin 32 := 0; let w : Nat := 0xD4000003; let th : ThreadRef := .cc h n;
     let u : State := s1.atIssue th; let c : Fk := callOf s s1 th w; dec (pcInRange th c.nextPc = true) && issuesB s .drain th s1 w &&
     dec (u.mirrorPending th = false))) = true ∧
    (let s : State := (fun s : State => { s with cc := s.cc.upd 0 fun x => { x with mirror := [(0, 64, [1])] } }) (cc0 0xD4000003 [(2, 0x8000000000000000), (3, 0x1234), (5, 7), (6, 0xFFFFFFFFFFFFFFFF), (8, 0x100018000)]);
     let s1 : State := (s.fetch (.cc 0 0)).1; let h : Half := 0; let n : Fin 32 := 0; let w : Nat := 0xD4000003; let th : ThreadRef := .cc h n;
     let u : State := s1.atIssue th; let c : Fk := callOf s s1 th w; dec (pcInRange th c.nextPc = true) && issuesB s .drain th s1 w &&
     dec (u.mirrorPending th = true)) = true := by
  decide +kernel

/-- `ControlCoreInstructions`: states and operands that meet the premises of its clauses (IndivisibleMemory). -/
theorem test_IndivisibleMemory :
    (([(0xD4832800, FkOp.swapm), (0xD4832801, FkOp.addm), (0xD4832802, FkOp.casm)] : List (Nat × _)).all fun (w, e2) => let h : Half := 0;
     let n : Fin 32 := 0; let s : State := cc0 w [(2, 0x8000000000000000), (3, 0x1234), (5, 7), (6, 0xFFFFFFFFFFFFFFFF), (8, 0x100018000)];
     let s1 : State := (s.fetch (.cc 0 0)).1; let th : ThreadRef := .cc h n; let c : Fk := callOf s s1 th w; let a : Nat := c.gFull (wB w);
     issuesB s e2 th s1 w && dec (a % 8 ≠ 0)) = true ∧
    ((let h : Half := 0; let n : Fin 32 := 0; let w : Nat := 0xD4882800;
     let s : State := cc0 w [(2, 0x8000000000000000), (3, 0x1234), (5, 7), (6, 0xFFFFFFFFFFFFFFFF), (8, 0x100018000)];
     let s1 : State := (s.fetch (.cc 0 0)).1; let v1 : State := ((s1.atIssue (.cc 0 0)).translate 0 0 0x100018000 accWrite).1;
     let pa : Nat := 0x100018000; let v2 : State := (v1.physRead h n pa 8).1; let th : ThreadRef := .cc h n; let u : State := s1.atIssue th;
     let c : Fk := callOf s s1 th w; let a : Nat := c.gFull (wB w); let bs : List Byte := List.replicate 8 0; let e2 := FkOp.swapm;
     let e3 := c.gFull (wC w); let v3 : State := (v2.ccStore h n a (leBytes 8 e3)).1; dec (pcInRange th c.nextPc = true) && dec (a % 8 = 0) &&
     issuesB s e2 th s1 w && (let r := u.translate h n a accWrite; dec (r.1 = v1) && exEq r.2 (.ok pa)) &&
     dec ((v1.physRead h n pa 8).2 = (some bs)) && dec ((v2.ccStore h n a (leBytes 8 e3)).2 = (none)) && dec (v3.waits = s.waits)) &&
     (let h : Half := 0; let n : Fin 32 := 0; let w : Nat := 0xD4882801;
     let s : State := cc0 w [(2, 0x8000000000000000), (3, 0x1234), (5, 7), (6, 0xFFFFFFFFFFFFFFFF), (8, 0x100018000)];
     let s1 : State := (s.fetch (.cc 0 0)).1; let v1 : State := ((s1.atIssue (.cc 0 0)).translate 0 0 0x100018000 accWrite).1;
     let pa : Nat := 0x100018000; let v2 : State := (v1.physRead h n pa 8).1; let th : ThreadRef := .cc h n; let u : State := s1.atIssue th;
     let c : Fk := callOf s s1 th w; let a : Nat := c.gFull (wB w); let bs : List Byte := List.replicate 8 0; let e2 := FkOp.addm;
     let e3 := (leNat bs + c.gFull (wC w)) % 2 ^ 64; let v3 : State := (v2.ccStore h n a (leBytes 8 e3)).1;
     dec (pcInRange th c.nextPc = true) && dec (a % 8 = 0) && issuesB s e2 th s1 w && (let r := u.translate h n a accWrite; dec (r.1 = v1) &&
     exEq r.2 (.ok pa)) && dec ((v1.physRead h n pa 8).2 = (some bs)) && dec ((v2.ccStore h n a (leBytes 8 e3)).2 = (none)) &&
     dec (v3.waits = s.waits))) = true ∧
    (let s : State := cc0 0xD4682802 [(2, 0x8000000000000000), (3, 0x1234), (5, 7), (6, 0xFFFFFFFFFFFFFFFF), (8, 0x100018000)];
     let s1 : State := (s.fetch (.cc 0 0)).1; let v1 : State := ((s1.atIssue (.cc 0 0)).translate 0 0 0x100018000 accRead).1; let h : Half := 0;
     let n : Fin 32 := 0; let w : Nat := 0xD4682802; let pa : Nat := 0x100018000; let v2 : State := (v1.physRead h n pa 8).1;
     let th : ThreadRef := .cc h n; let u : State := s1.atIssue th; let c : Fk := callOf s s1 th w; let a : Nat := c.gFull (wB w);
     let bs : List Byte := List.replicate 8 0; dec (pcInRange th c.nextPc = true) && dec (a % 8 = 0) && issuesB s .casm th s1 w &&
     (let r := u.translate h n a accRead; dec (r.1 = v1) && exEq r.2 (.ok pa)) && dec ((v1.physRead h n pa 8).2 = (some bs)) &&
     dec (leNat bs ≠ c.gFull (wA w)) && dec (v2.waits = s.waits)) = true ∧
    (let s : State := cc0 0xD4882802 [(2, 0x8000000000000000), (3, 0x1234), (5, 7), (6, 0xFFFFFFFFFFFFFFFF), (8, 0x100018000)];
     let s1 : State := (s.fetch (.cc 0 0)).1; let v1 : State := ((s1.atIssue (.cc 0 0)).translate 0 0 0x100018000 accRead).1; let h : Half := 0;
     let n : Fin 32 := 0; let w : Nat := 0xD4882802; let pa : Nat := 0x100018000; let v2 : State := (v1.physRead h n pa 8).1;
     let th : ThreadRef := .cc h n; let u : State := s1.atIssue th; let c : Fk := callOf s s1 th w; let a : Nat := c.gFull (wB w);
     let v3 : State := (v2.ccStore h n a (leBytes 8 (c.gFull (wC w)))).1; let bs : List Byte := List.replicate 8 0;
     dec (pcInRange th c.nextPc = true) && dec (a % 8 = 0) && issuesB s .casm th s1 w && (let r := u.translate h n a accRead; dec (r.1 = v1) &&
     exEq r.2 (.ok pa)) && dec ((v1.physRead h n pa 8).2 = (some bs)) && dec (leNat bs = c.gFull (wA w)) &&
     dec ((v2.ccStore h n a (leBytes 8 (c.gFull (wC w)))).2 = (none)) && dec (v3.waits = s.waits)) = true := by
  decide +kernel

/-- `ControlCoreInstructions`: states and operands that meet the premises of its clauses (SupervisorInstructions). -/
theorem test_SupervisorInstructions :
    ((let s : State := cc0 0xD8004D00 [(2, 0x8000000000000000), (3, 0x1234), (5, 7), (6, 0xFFFFFFFFFFFFFFFF), (8, 0x100018000)];
     let s1 : State := (s.fetch (.cc 0 0)).1; let h : Half := 0; let n : Fin 32 := 0; let w : Nat := 0xD8004D00; let th : ThreadRef := .cc h n;
     issuesB s .gate th s1 w) &&
     (let s : State := cth (cc0 0xD8004D00 [(2, 0x8000000000000000), (3, 0x1234), (5, 7), (6, 0xFFFFFFFFFFFFFFFF), (8, 0x100018000)]) fun x => { x with k := [(0, 1), (1, 0x100020000)] };
     let s1 : State := (s.fetch (.cc 0 0)).1; let h : Half := 0; let n : Fin 32 := 0; let w : Nat := 0xD8004D00; let th : ThreadRef := .cc h n;
     issuesB s .gate th s1 w)) = true ∧
    (([(0xD8000001, FkOp.gret), (0xD8800302, FkOp.mfkr), (0xD8030303, FkOp.mtkr),
         (0xD8030004, FkOp.xlinv)] : List (Nat × _)).all fun (w, e2) => let h : Half := 0; let n : Fin 32 := 0;
     let s : State := cth (cc0 w [(2, 0x8000000000000000), (3, 0x1234), (5, 7), (6, 0xFFFFFFFFFFFFFFFF), (8, 0x100018000)]) fun x => { x with k := [(0, 1), (1, 0x100020000)] };
     let s1 : State := (s.fetch (.cc 0 0)).1; let th : ThreadRef := .cc h n; let c : Fk := callOf s s1 th w; dec (c.x.user = true) &&
     issuesB s e2 th s1 w) = true ∧
    (let s : State := cth (cc0 0xD8000001 [(2, 0x8000000000000000), (3, 0x1234), (5, 7), (6, 0xFFFFFFFFFFFFFFFF), (8, 0x100018000)]) fun x => { x with k := [(0, 2), (3, 0x100030000)] };
     let s1 : State := (s.fetch (.cc 0 0)).1; let h : Half := 0; let n : Fin 32 := 0; let w : Nat := 0xD8000001; let th : ThreadRef := .cc h n;
     let c : Fk := callOf s s1 th w; dec (c.x.user = false) && issuesB s .gret th s1 w &&
     dec (pcInRange th (pcWrap th ((c.x.kreg kKRET).toNat : Int)) = true)) = true ∧
    (([0xD8800002, 0xD8800102, 0xD8800202, 0xD8800802] : List (Nat)).all fun w => let h : Half := 0; let n : Fin 32 := 0;
     let s : State := cth (cc0 w [(2, 0x8000000000000000), (3, 0x1234), (5, 7), (6, 0xFFFFFFFFFFFFFFFF), (8, 0x100018000)]) fun x => { x with k := [(0, 2), (3, 0x100030000)] };
     let s1 : State := (s.fetch (.cc 0 0)).1; let th : ThreadRef := .cc h n; let c : Fk := callOf s s1 th w; dec (c.x.user = false) &&
     dec (pcInRange th c.nextPc = true) && issuesB s .mfkr th s1 w) = true ∧
    (([0xD8060003, 0xD8060103, 0xD8060203, 0xD8060803] : List (Nat)).all fun w => let h : Half := 0; let n : Fin 32 := 0;
     let s : State := cth (cc0 w [(2, 0x8000000000000000), (3, 0x1234), (5, 7), (6, 0xFFFFFFFFFFFFFFFF), (8, 0x100018000)]) fun x => { x with k := [(0, 2), (3, 0x100030000)] };
     let s1 : State := (s.fetch (.cc 0 0)).1; let th : ThreadRef := .cc h n; let c : Fk := callOf s s1 th w; dec (c.x.user = false) &&
     dec (pcInRange th c.nextPc = true) && issuesB s .mtkr th s1 w) = true ∧
    (([0xD8000004, 0xD8030004] : List (Nat)).all fun w => let h : Half := 0; let n : Fin 32 := 0;
     let s : State := cc0 w [(2, 0x8000000000000000), (3, 0x1234), (5, 7), (6, 0xFFFFFFFFFFFFFFFF), (8, 0x100018000)];
     let s1 : State := (s.fetch (.cc 0 0)).1; let th : ThreadRef := .cc h n; let c : Fk := callOf s s1 th w; dec (c.x.user = false) &&
     dec (pcInRange th c.nextPc = true) && issuesB s .xlinv th s1 w) = true ∧
    (let i : Nat := 7; dec (i ≠ kKSTATE) && dec (i ≠ kKCAUSE) && dec (i ≠ kXROOT)) = true := by
  decide +kernel

/-! ### Premises that rest on a free value or on a large table -/

theorem tget?_single {α : Type} (i j : Nat) (e : α) : tget? [(i, e)] j = if j = i then some e else none := by
  simp only [tget?]; split
  · simp_all; omega
  · split <;> simp_all

theorem exFind_single (x : TableState) (i : Nat) (e : ExEntry) (hx : x.exact = [(i, e)]) (hi : i ∈ exCands e.tid e.key) :
    ∃ rest, x.exFind e.tid e.key = (i, e) :: rest ∧ ∀ y ∈ rest, y = (i, e) := by
  have key : ∀ y ∈ x.exFind e.tid e.key, y = (i, e) := by
    intro y hy
    simp only [TableState.exFind, List.mem_filterMap, hx, tget?_single] at hy
    obtain ⟨j, -, hj⟩ := hy
    by_cases hji : j = i
    · subst hji; simpa using hj.symm
    · simp [hji] at hj
  have mem : (i, e) ∈ x.exFind e.tid e.key := by
    simp only [TableState.exFind, List.mem_filterMap, hx, tget?_single]
    exact ⟨i, hi, by simp⟩
  cases h : x.exFind e.tid e.key with
  | nil => rw [h] at mem; cases mem
  | cons a r =>
    rw [h] at key
    exact ⟨r, by rw [key a (by simp)], fun y hy => key y (by simp [hy])⟩

theorem exFind_empty (x : TableState) (tid key : Nat) (hx : x.exact = []) : x.exFind tid key = [] := by
  simp [TableState.exFind, hx]

theorem first_candidate (tid key : Nat) : Config.exactHash 0 (exKey tid key) % 32768 * 4 ∈ exCands tid key := by
  simp only [exCands, List.mem_map]
  exact ⟨0, by simp, by simp⟩

/-- The entry of key `key` of table `tid`, in its first slot. -/
def ex1 (tid key : Nat) (v : Nat) (learned : Bool) : ExEntry :=
  { key := key, result := 0x77, tid := tid, ageProf := 1, age := 0, vstate := v, batch := 4, learned := learned, hit := false, at0 := 0,
    noticed := false }
/-- Its first slot. -/
def slot0 (e : ExEntry) : Nat := Config.exactHash 0 (exKey e.tid e.key) % 32768 * 4
/-- The state `s` with that entry alone in EXACT of H0. -/
def withEx (s : State) (e : ExEntry) : State :=
  s.updTab 0 fun t => { t with exact := [(slot0 e, e)] }

theorem withEx_find (s : State) (e : ExEntry) : ∃ rest, (((withEx s e).tab.get 0).exFind e.tid e.key =
    (slot0 e, e) :: rest) ∧
    ∀ y ∈ rest, y = (slot0 e, e) :=
  exFind_single _ _ e rfl (first_candidate _ _)

theorem withEx_lookup (s : State) (e : ExEntry) (st : Nat) (hv : e.vstate = 0) :
    (withEx s e).exLookup 0 e.tid e.key st = some (slot0 e, e) := by
  obtain ⟨r, hr, -⟩ := withEx_find s e
  simp [State.exLookup, hr, State.visible, hv]

/-- The lookup of key 0 of table 9 at stamp 900 that `w` issues. -/
def look (w : Nat) : TblCall := ⟨0, 0, 3, 900, callOf (pk0 w [(7, 9)]) (pk0 w [(7, 9)]) (.pk 0 0 0) w, List.replicate 16 0⟩

theorem look_gc : (look 0x80A63800).gc % 256 = 9 ∧ (look 0x80A63810).gc % 256 = 9 ∧ exKeyOf (List.replicate 16 0) = 0 := by decide +kernel

/-- LookupsAnswer, a key that is found: without and with the stamp of age. -/
theorem test_lookup_finds : ∃ s i e,
    (s : State).exLookup (look 0x80A63800).h ((look 0x80A63800).gc % 256) (exKeyOf (look 0x80A63800).bytes) (look 0x80A63800).st = some (i, e) ∧
    s.exLookup (look 0x80A63810).h ((look 0x80A63810).gc % 256) (exKeyOf (look 0x80A63810).bytes) (look 0x80A63810).st = some (i, e) ∧
    (look 0x80A63800).c.w.testBit 4 = false ∧ (look 0x80A63810).c.w.testBit 4 = true ∧ e.ageProf ≠ 0 := by
  refine ⟨withEx run0 (ex1 9 0 0 true), slot0 (ex1 9 0 0 true), ex1 9 0 0 true, ?_, ?_, by decide +kernel, by decide +kernel, by decide⟩
  · rw [look_gc.1]; exact withEx_lookup run0 (ex1 9 0 0 true) 900 rfl
  · rw [look_gc.2.1]; exact withEx_lookup run0 (ex1 9 0 0 true) 900 rfl

/-- Batch slot 4 of H0 POSTED at 901. -/
def posted901 : State := run0.updTab 0 fun t => { t with slots := [(4, { BatchSlot.init with state := .posted, e := 901 })] }

/-- LookupsAnswer, a key that is not found: an empty table, and an entry of the key that the stamp does not see. -/
theorem test_lookup_misses :
    run0.exLookup (look 0x80A63800).h ((look 0x80A63800).gc % 256) (exKeyOf (look 0x80A63800).bytes) (look 0x80A63800).st = none ∧
    ∃ s i e, (s : State).exLookup (look 0x80A63800).h ((look 0x80A63800).gc % 256) (exKeyOf (look 0x80A63800).bytes) (look 0x80A63800).st = none ∧
      i ∈ exCands ((look 0x80A63800).gc % 256) (exKeyOf (look 0x80A63800).bytes) ∧ tget? (s.tab.get (look 0x80A63800).h).exact i = some e ∧
      e.tid = (look 0x80A63800).gc % 256 ∧ e.key = exKeyOf (look 0x80A63800).bytes := by
  rw [look_gc.1]
  refine ⟨?_, withEx posted901 (ex1 9 0 1 true), slot0 (ex1 9 0 1 true),
    ex1 9 0 1 true, ?_, first_candidate 9 0, ?_, rfl, by decide +kernel⟩
  · simp only [State.exLookup]; rw [exFind_empty _ _ _ rfl]; rfl
  · obtain ⟨r, hr, ha⟩ := withEx_find posted901
      (ex1 9 0 1 true)
    have hv : State.visible (withEx posted901
      (ex1 9 0 1 true)) 0 1 4 900 = false := by rfl
    show List.find? _ _ = none
    rw [show (exKeyOf (look 0x80A63800).bytes) = (ex1 9 0 1 true).key from by decide +kernel]
    show List.find? _ (TableState.exFind _ (ex1 9 0 1 true).tid _) = none
    rw [show (look 0x80A63800).h = 0 from rfl, hr]
    apply List.find?_eq_none.mpr
    intro y hy
    have : y = (slot0 (ex1 9 0 1 true), ex1 9 0 1 true) := by
      rcases List.mem_cons.mp hy with h | h
      · exact h
      · exact ha y h
    subst this
    exact Bool.eq_false_iff.mp hv
  · show tget? [(_, _)] _ = _
    rw [tget?_single]; simp [ex1]

theorem withEx_check (s : State) (e : ExEntry) (port : Nat) : (withEx s e).learnCheck 0 e.tid e.key port =
    if e.vstate ≠ vsStable ∨ e.learned = false then .skip
    else if e.result.toNat % 256 = port then .same (slot0 e) e
    else .moved (slot0 e) e := by
  obtain ⟨r, hr, ha⟩ := withEx_find s e
  have hany : (((withEx s e).tab.get 0).exFind e.tid e.key).any (fun y => decide (y.2.vstate ≠ vsStable) || !y.2.learned) =
      (decide (e.vstate ≠ vsStable) || !e.learned) := by
    rw [hr, List.any_cons]
    have : r.any (fun y => decide (y.2.vstate ≠ vsStable) || !y.2.learned) = true → (decide (e.vstate ≠ vsStable) || !e.learned) = true := by
      intro h
      obtain ⟨y, hy, h⟩ := List.any_eq_true.mp h
      rw [ha y hy] at h; exact h
    cases hb : (decide (e.vstate ≠ vsStable) || !e.learned)
    · rw [hb] at this; rw [Bool.false_or]; exact Bool.eq_false_iff.mpr (fun h => nomatch this h)
    · rw [Bool.true_or]
  simp only [State.learnCheck]
  rw [hany, hr]
  by_cases h1 : e.vstate ≠ vsStable <;> cases h2 : e.learned <;> simp [h1]

theorem held_none (s : State) (h : Half) (tid key : Nat) (h1 : (s.tab.get h).withheld = []) (h2 : (s.tab.get h).shadowHeld = []) :
    s.learnHeld h tid key = false := by
  simp [State.learnHeld, TableState.held, h1, h2]

/-- Table 0 of H0 with the key 0 of port 0x77 waiting to be examined. -/
def examined (s : State) : State := s.updTab 0 fun t => { t with examine := [(List.replicate 16 0, 0x77), ([1], 2)] }
/-- The write of key 0 and port 0x77 waiting to be made. -/
def learned1 (s : State) : State := s.updTab 0 fun t => { t with learnQueue := [⟨0, 0, 0x77⟩] }

theorem learn_zero : run0.learnTid 0 = 0 ∧ exKeyOf (List.replicate 16 0) = 0 ∧ run0.live (.table 0 5) = true := by decide +kernel

/-- AgingAndLearning, the examined key: seen at the same port, not there, and one that learning leaves alone. -/
theorem test_learn_examines :
    (∃ s i e, (s : State).live (.table 0 5) = true ∧ (s.tab.get 0).examine = (List.replicate 16 0, 0x77) :: [([1], 2)] ∧
      s.learnHeld 0 (s.learnTid 0) (exKeyOf (List.replicate 16 0)) = false ∧
      s.learnCheck 0 (s.learnTid 0) (exKeyOf (List.replicate 16 0)) 0x77 = .same i e) ∧
    (∃ s, (s : State).live (.table 0 5) = true ∧ (s.tab.get 0).examine = (List.replicate 16 0, 0x77) :: [([1], 2)] ∧
      s.learnHeld 0 (s.learnTid 0) (exKeyOf (List.replicate 16 0)) = false ∧
      s.learnCheck 0 (s.learnTid 0) (exKeyOf (List.replicate 16 0)) 0x77 = .absent) ∧
    (∃ s, (s : State).live (.table 0 5) = true ∧ (s.tab.get 0).examine = (List.replicate 16 0, 0x77) :: [([1], 2)] ∧
      s.learnHeld 0 (s.learnTid 0) (exKeyOf (List.replicate 16 0)) = false ∧
      s.learnCheck 0 (s.learnTid 0) (exKeyOf (List.replicate 16 0)) 0x77 = .skip) := by
  rw [learn_zero.2.1]
  refine ⟨⟨withEx (examined run0) (ex1 0 0 0 true), slot0 (ex1 0 0 0 true), ex1 0 0 0 true, by decide +kernel, rfl, held_none _ _ _ _ rfl rfl, ?_⟩,
    ⟨examined run0, by decide +kernel, rfl, held_none _ _ _ _ rfl rfl, ?_⟩,
    ⟨withEx (examined run0) (ex1 0 0 0 false), by decide +kernel, rfl, held_none _ _ _ _ rfl rfl, ?_⟩⟩
  · exact (withEx_check (examined run0) (ex1 0 0 0 true) 0x77).trans (by rfl)
  · simp only [State.learnCheck]; rw [exFind_empty _ _ _ rfl]; rfl
  · exact (withEx_check (examined run0) (ex1 0 0 0 false) 0x77).trans (by rfl)

/-- AgingAndLearning, the write of a learned key: over the same entry, into a free slot, and with no slot to be had. -/
theorem test_learn_writes :
    (∃ s i e, (s : State).live (.table 0 5) = true ∧ (s.tab.get 0).learnQueue = ⟨0, 0, 0x77⟩ :: [] ∧ s.learnHeld 0 0 0 = false ∧ s.armed = [] ∧ s.learnCheck 0 0 0 0x77 = .same i e) ∧
    (∃ s v i, (s : State).live (.table 0 5) = true ∧ (s.tab.get 0).learnQueue = ⟨0, 0, 0x77⟩ :: [] ∧ s.learnHeld 0 0 0 = false ∧ s.armed = [] ∧ s.learnCheck 0 0 0 0x77 = .absent ∧
      (s.updTab 0 fun t => { t with learnQueue := [] }).exSlot 0 0 0 = (v, some i)) := by
  refine ⟨⟨withEx (learned1 run0) (ex1 0 0 0 true), slot0 (ex1 0 0 0 true), ex1 0 0 0 true, by decide +kernel, rfl,
      held_none _ _ _ _ rfl rfl, by decide +kernel, (withEx_check (learned1 run0) (ex1 0 0 0 true) 0x77).trans (by rfl)⟩,
    ⟨learned1 run0, ((learned1 run0).updTab 0 fun t => { t with learnQueue := [] }).exSlot 0 0 0 |>.1, _, by decide +kernel, rfl,
      held_none _ _ _ _ rfl rfl, by decide +kernel, ?_, Prod.ext rfl ?_⟩⟩
  · simp only [State.learnCheck]; rw [exFind_empty _ _ _ rfl]; rfl
  · rfl

/-- Service slot 2 of tile 0 of H0 READY and no task. -/
def svc2 : State := (run0.setReg (bTsched 0 0) (R.tsched_SVC_CFG + 16) 0xFFFFFFFF00000101).setReg (bTsched 0 0) (R.tsched_SVC_FLAGS + 16) 5

/-- TaskDispatched, a READY service slot that is alone. -/
theorem test_service_slot_taken : svc2.armed = [] ∧ svc2.live (.tile 0 0) = true ∧ svc2.threadFree 0 0 1 = true ∧ svc2.pickTask 0 0 = some (.svc 2) ∧
    svc2.newCore 0 0 = some (1 / 8) := by
  refine ⟨by decide +kernel, by decide +kernel, by decide +kernel, ?_, by decide +kernel⟩
  have ht : svc2.readyTasks 0 0 = [] := by decide +kernel
  have hv : svc2.readySvcs 0 0 = [2] := by decide +kernel
  have hp : svc2.svcPrio 0 0 2 = 0 := by decide +kernel
  simp [State.pickTask, ht, hv, hp, oldestTask, Nat.mod_one, nth]

/-- `n` entries in queue 1 of H0. -/
def queued (n : Nat) : State := withBuf (buf0 0xFFFFF000 chain1) fun b => { b with queues := [(1, List.replicate n qe)] }

theorem queued_count (n : Nat) : ((queued n).buf.get 0).entryCount = n := by
  show 0 + (List.replicate n qe).length + 0 = n
  simp

/-- CopiesAdmitted, a full entry store. -/
theorem test_entry_store_full : ∃ n, ((queued n).chain 0 copy1.chain).broken = false ∧ (queued n).portAccepts 0 (copy1.q / 16) = true ∧
    entryStore ≤ ((queued n).buf.get 0).entryCount := by
  refine ⟨entryStore, ?_, ?_, (queued_count _).ge⟩
  · generalize entryStore = n; rfl
  · have : (queued 0).portAccepts 0 (copy1.q / 16) = true := by decide +kernel
    exact this

theorem storeCommit_some (s : State) (i : Nat) (h : s.storeFree s.storeBank = some i) : ∃ u, s.storeCommit = some u := by
  simp only [State.storeCommit, h]; split <;> exact ⟨_, rfl⟩

/-- StoreAndLog and MailboxCommands, a free slot of the power-safe store: after a change of the maps, also with the last record bad, and
for the commit command. -/
theorem test_store_commits :
    (∃ s u, (s : State).pvUp = true ∧ s.pv.pfailLow = false ∧ s.pv.storeBad = false ∧ s.storeMaps ≠ s.pv.storeLast ∧ s.storeCommit = some u) ∧
    (∃ s u, (s : State).pvUp = true ∧ s.pv.pfailLow = false ∧ s.pv.storeBad = true ∧ s.storeAgain.storeMaps ≠ s.storeAgain.pv.storeLast ∧
      s.storeAgain.storeCommit = some u) ∧
    (∃ s u, (s : State).mbRuns 0 5 = true ∧ s.pv.pfailLow = false ∧ s.storeCommit = some u) := by
  obtain ⟨u, hu⟩ := storeCommit_some { run0 with pv := { run0.pv with storeLast := [1] } } 0 (by decide +kernel)
  obtain ⟨v, hv⟩ := storeCommit_some ((run0.setReg (bPrivet 6) (R.mbox_CMD_0 + 0) 0x500000000000000).setReg (bPrivet 6) (R.mbox_MB_CTL + 0) 0x4) 0
    (by decide +kernel)
  obtain ⟨x, hx⟩ := storeCommit_some (State.storeAgain { run0 with pv := { run0.pv with storeLast := [1], storeBad := true } }) 0 (by decide +kernel)
  exact ⟨⟨_, u, by decide +kernel, by decide +kernel, by decide +kernel, by decide +kernel, hu⟩,
    ⟨{ run0 with pv := { run0.pv with storeLast := [1], storeBad := true } }, x, by decide +kernel, by decide +kernel, by decide +kernel, by decide +kernel, hx⟩,
     ⟨_, v, by decide +kernel, by decide +kernel, hv⟩⟩

/-- SensorsSampled, a rail inside its limits or found out of them again, and one that stays out of them. -/
theorem test_rail_sampled :
    (∃ s, (s : State).outOfReset = true ∧ (s.railOut 3 0 = false ∨ tget 0 s.pv.railBad 3 = 0)) ∧
    (∃ s, (s : State).outOfReset = true ∧ s.railOut 3 0 = true ∧ tget 0 s.pv.railBad 3 = 1) := by
  refine ⟨⟨run0, by decide +kernel, .inr (by decide +kernel)⟩,
    ⟨({ run0 with pv := { run0.pv with railBad := [(3, 1)] } }).setReg bDevice (R.device_RAIL_LIMIT + 24) 0x100000001, by decide +kernel, ?_,
      by decide +kernel⟩⟩
  have h : (({ run0 with pv := { run0.pv with railBad := [(3, 1)] } } : State).setReg bDevice (R.device_RAIL_LIMIT + 24) 0x100000001).reg bDevice
      (R.device_RAIL_LIMIT + 8 * 3) = 0x100000001 := by decide +kernel
  simp only [State.railOut, h]
  simp
  decide

/-- BatchesBuildAndRetire, an INSERT of a key that EXACT does not hold. -/
theorem test_insert_of_a_new_key : ∃ s r, (s : State).pendingTotal 0 + 2 ≤ maxPending ∧ (r : BatchRec).table = tgExact ∧ r.op = opInsert ∧ r.len = 32 ∧
    r.zero = 0 ∧ r.index = 0 ∧ (s.bslot 0 4).keys = [] ∧ (s.tab.get 0).exFind r.exTid r.exK = [] :=
  ⟨run0.updTab 0 fun t => { t with slots := [(4, { BatchSlot.init with state := .building, e := 500 })] },
    ⟨opInsert, tgExact, 0, 32, 0, leBytes 16 (9 <<< 56 ||| 5 <<< 64) ++ leBytes 16 99⟩, by decide +kernel, rfl, rfl, rfl, rfl, rfl, by decide +kernel,
    exFind_empty _ _ _ rfl⟩

/-- The expansion link of H0 up, with credits, and task 3 about to issue a request. -/
def exp0 : State :=
  { (((pk0 0xFCA63805 [(5, 0x100000), (6, 1048585), (7, 0x100200)]).updTile 0 0 fun y =>
      { y with insts := [(12, { CpInst.reset with holder := some 3 })] }).updTile 0 0 fun y =>
      { y with ram := tstore y.ram 0 [0x31,0x32,0x33,0x34,0x35,0x36,0x37,0x38,0x39] }) with
    exp := ⟨{ ExpState.reset with linkUp := true, reqCredits := 9, frameCredits := 300 }, ExpState.reset⟩ }
/-- Its instruction. -/
def expC : Fk := callOf exp0 exp0 (.pk 0 0 0) 0xFCA63805

theorem findTag_free (e : ExpState) (now tag : Nat) (hr : e.reqs = []) (hd : e.dead = []) : e.findTag now tag 4096 = some tag := by
  simp [ExpState.findTag, ExpState.tagBusy, hr, hd]

/-- ExpansionPort, a request of 9 bytes in and 16 out. -/
theorem test_expansion_request : ∃ tag, reachesB (exp0.atIssue (.pk 0 0 0)) 0 0 0 expC ⟨0, 0, 0, 3, 0, expC⟩ = true ∧
    issuesB exp0 .expReq (.pk 0 0 0) exp0 0xFCA63805 = true ∧
    expC.g (wB 0xFCA63805) = 0x100009 ∧
    exEq ((exp0.atIssue (.pk 0 0 0)).cpIn ⟨0, 0, 0, 3, 0, expC⟩ (expC.g (wA 0xFCA63805)) 9 16)
      (.ok ([0x31,0x32,0x33,0x34,0x35,0x36,0x37,0x38,0x39], true)) = true ∧
    exEq ((exp0.atIssue (.pk 0 0 0)).cpOut ⟨0, 0, 0, 3, 0, expC⟩ (expC.g (wC 0xFCA63805)) 24 16) (.ok (Loc.ram 0x200)) = true ∧
    ((exp0.atIssue (.pk 0 0 0)).exp.get 0).linkUp = true ∧ (exp0.atIssue (.pk 0 0 0)).callFull ⟨0, 0, 0, 3, 0, expC⟩ = false ∧
    ((exp0.atIssue (.pk 0 0 0)).tile 0 0).expOut 0 (wInst 0xFCA63805) < 64 ∧ ((exp0.atIssue (.pk 0 0 0)).exp.get 0).reqs.length < 4096 ∧
    ((exp0.atIssue (.pk 0 0 0)).exp.get 0).findTag (exp0.atIssue (.pk 0 0 0)).ticks ((exp0.atIssue (.pk 0 0 0)).free 12).toNat 4096 = some tag ∧
    pcInRange (.pk 0 0 0) expC.nextPc = true :=
  ⟨((exp0.atIssue (.pk 0 0 0)).free 12).toNat, by decide +kernel, by decide +kernel, by decide +kernel, by decide +kernel, by decide +kernel,
    by decide +kernel, by decide +kernel, by decide +kernel, by decide +kernel,
    findTag_free _ _ _ (by decide +kernel) (by decide +kernel), by decide +kernel⟩

/-- EXACT of H0 with every slot that key 0 of table 0 may take held by a PENDING_ADD entry of another key. -/
def fullFor (l : List Nat) : Tbl ExEntry := l.foldl (fun t i => tput t i (ex1 9 5 1 true)) []

theorem fullFor_get (l : List Nat) (i : Nat) (t : Tbl ExEntry) (ht : ∀ e, tget? t i = some e → e = ex1 9 5 1 true) :
    (∀ e, tget? (l.foldl (fun t i => tput t i (ex1 9 5 1 true)) t) i = some e → e = ex1 9 5 1 true) ∧
    ((i ∈ l ∨ (tget? t i).isSome) → tget? (l.foldl (fun t i => tput t i (ex1 9 5 1 true)) t) i = some (ex1 9 5 1 true)) := by
  induction l generalizing t with
  | nil =>
    refine ⟨ht, fun h => ?_⟩
    rcases h with h | h
    · cases h
    · obtain ⟨e, he⟩ := Option.isSome_iff_exists.mp h; rw [List.foldl_nil, he, ht e he]
  | cons k r ih =>
    rw [List.foldl_cons]
    by_cases hk : i = k
    · subst hk
      have := ih (tput t i (ex1 9 5 1 true)) (by simp)
      exact ⟨this.1, fun _ => this.2 (.inr (by simp))⟩
    · have h1 := tget?_tput_ne t k i (ex1 9 5 1 true) hk
      have := ih (tput t k (ex1 9 5 1 true)) (by rw [h1]; exact ht)
      exact ⟨this.1, fun h => this.2 (by rw [h1]; simpa [hk] using h)⟩

/-- H0 in that state, with the write of key 0 waiting. -/
def noSlot : State := (learned1 run0).updTab 0 fun t => { t with exact := fullFor (exCands 0 0) }

theorem noSlot_find : (noSlot.tab.get 0).exFind 0 0 = [] := by
  apply List.filterMap_eq_nil_iff.mpr
  intro i _
  have hg := (fullFor_get (exCands 0 0) i [] (by simp)).1
  show (match tget? (fullFor (exCands 0 0)) i with | some e => _ | none => _) = _
  cases h : tget? (fullFor (exCands 0 0)) i with
  | none => rfl
  | some e => rw [hg e h]; rfl

theorem noSlot_busy (x : TableState) (hx : x.exact = fullFor (exCands 0 0)) : (exCands 0 0).filter (fun c => !x.exBusy c) = [] := by
  apply List.filter_eq_nil_iff.mpr
  intro i hi
  have hg := (fullFor_get (exCands 0 0) i [] (by simp)).2 (.inl hi)
  have : tget? x.exact i = some (ex1 9 5 1 true) := by rw [hx]; exact hg
  simp [TableState.exBusy, this]

theorem noSlot_movable (x : TableState) (hx : x.exact = fullFor (exCands 0 0)) (i : Nat) : x.exMovable i = false := by
  have hg := (fullFor_get (exCands 0 0) i [] (by simp)).1
  simp only [TableState.exMovable]
  cases h : tget? x.exact i with
  | none => rfl
  | some e => rw [hg e (by rw [← h, hx]; rfl)]; rfl

/-- AgingAndLearning, the write of a learned key with no slot to be had. -/
theorem test_learn_finds_no_slot : noSlot.live (.table 0 5) = true ∧ (noSlot.tab.get 0).learnQueue = ⟨0, 0, 0x77⟩ :: [] ∧
    noSlot.learnHeld 0 0 0 = false ∧ noSlot.armed = [] ∧
    noSlot.learnCheck 0 0 0 0x77 = .absent ∧ ((noSlot.updTab 0 fun t => { t with learnQueue := [] }).exSlot 0 0 0).2 = none := by
  refine ⟨by decide +kernel, rfl, held_none _ _ _ _ rfl rfl, by rfl, ?_, ?_⟩
  · simp only [State.learnCheck, noSlot_find]; rfl
  · simp only [State.exSlot]
    rw [noSlot_busy _ rfl]
    have hm : ((noSlot.updTab 0 fun t => { t with learnQueue := [] }).tab.get 0).exMovable = fun _ => false :=
      funext (noSlot_movable _ rfl)
    rw [hm]
    simp [findMoves, maxMoves]

theorem hbmSplit_below (fuel : Nat) : ∀ a n, ∀ p ∈ hbmSplit a n fuel, p.1 < a + n := by
  induction fuel with
  | zero => intro a n p hp; cases hp
  | succ k ih =>
    intro a n p hp
    simp only [hbmSplit] at hp
    split at hp
    · cases hp
    · rename_i hn
      rcases List.mem_cons.mp hp with h | h
      · subst h; show a < a + n; omega
      · have := ih _ _ _ h
        split at this <;> omega

/-- The FLOW lookup of key 0 that thread 0 issues with the HBM controllers of H0 GATED. -/
def flowGated : State := gated (hbmOpen (pk0 0x80A60060 [(5, 0x100010), (6, 0x100040), (7, 0x09)])) 0
/-- Its state after the issue. -/
def flowIssued : State := flowGated.atIssue (.pk 0 0 0)
/-- The state once the request has to wait. -/
def flowWaits : State := { flowIssued with waits := true }

theorem flowGated_grants (b : Bool) (a : Nat) (ha : a < hbmTop) : (({ flowIssued with waits := b } : State).hbmStop 0 .table false a) = none := by
  have hup : ∀ st : Fin 2, ({ flowIssued with waits := b } : State).hbmUp 0 st = true := by cases b <;> decide +kernel
  have hlo : ∀ st : Fin 2, ({ flowIssued with waits := b } : State).reg (bHbmc 0 st) (R.hbmc_REGION_LO + 16 * 0) = 0 := by cases b <;> decide +kernel
  have hhi : ∀ st : Fin 2, ({ flowIssued with waits := b } : State).reg (bHbmc 0 st) (R.hbmc_REGION_HI + 16 * 0) = 0x7F7FFFFFFFF00001 := by
    cases b <;> decide +kernel
  have hg : ∀ st : Fin 2, ({ flowIssued with waits := b } : State).regionGrants 0 st .table false a 0 = true := by
    intro st
    have hs : a >>> 20 ≤ 0x7FFFFFF := by
      have ht : a < 0xC00000000 := ha
      rw [Nat.shiftRight_eq_div_pow]; omega
    simp only [State.regionGrants, hlo, hhi]
    have e1 : bit (0x7F7FFFFFFFF00001 : DWord) 0 = true := by decide
    have e2 : fld (0 : DWord) 20 28 = 0 := by decide
    have e3 : fld (0x7F7FFFFFFFF00001 : DWord) 20 28 = 0xFFFFFFF := by decide
    have e4 : (fld (0x7F7FFFFFFFF00001 : DWord) 56 8).testBit (HbmClass.bit .table) = true := by decide
    rw [e1, e2, e3]
    simp only [Bool.false_eq_true, if_false, e4, Bool.and_true, Bool.true_and, Nat.zero_le, decide_true]
    exact decide_eq_true (by omega)
  have ha' : ({ flowIssued with waits := b } : State).regionAllows 0 (hbmStack a) .table false a = true := by
    simp only [State.regionAllows, Bool.or_eq_true, List.any_eq_true]
    exact .inr ⟨0, by decide, hg _⟩
  simp only [State.hbmStop, hup, ha', Nat.not_le.mpr ha, if_false, not_true_eq_false]

theorem waits_waits (s : State) (b : Bool) : ({ ({ s with waits := b } : State) with waits := true } : State) = { s with waits := true } := rfl

theorem flowGated_read (b : Bool) (a n : Nat) (ha : a < hbmTop) :
    ({ flowIssued with waits := b } : State).hbmUnitRead 0 flowReq a n = (flowWaits, ⟨List.replicate n 0, [], true⟩) := by
  have hw : ({ flowIssued with waits := b } : State).hbmWaits 0 flowReq false a n = true := by
    have hs := flowGated_grants b a ha
    have hk : ∀ st : Fin 2, ({ flowIssued with waits := b } : State).hbmAwake 0 st = false := by cases b <;> decide +kernel
    have hr : (({ flowIssued with waits := b } : State).hbm.get 0).retired = [] := by cases b <;> rfl
    simp only [State.hbmWaits, hs, hk, hr]
    simp
  rw [State.hbmUnitRead, if_pos hw, waits_waits, flowWaits]

theorem flowGated_parts (l : List (Nat × Nat)) (hl : ∀ p ∈ l, p.1 < hbmTop) (bs : List Byte) :
    ∃ bs', l.foldl (fun (acc : State × List Byte × Bool) p =>
      let (s1, d) := acc.1.hbmUnitRead 0 flowReq p.1 p.2
      (s1, acc.2.1 ++ d.bytes, acc.2.2 || d.err || !d.errs.isEmpty)) (flowWaits, bs, true) = (flowWaits, bs', true) := by
  induction l generalizing bs with
  | nil => exact ⟨bs, rfl⟩
  | cons p r ih =>
    have h1 : flowWaits.hbmUnitRead 0 flowReq p.1 p.2 = (flowWaits, ⟨List.replicate p.2 0, [], true⟩) :=
      flowGated_read true p.1 p.2 (hl p (by simp))
    rw [List.foldl_cons]
    simp only [h1]
    exact ih (fun q hq => hl q (by simp [hq])) _

theorem withWaits_self (s : State) (h : s.waits = false) : ({ s with waits := false } : State) = s := by
  cases s; subst h; rfl

theorem flowIssued_still : ({ flowIssued with waits := false } : State) = flowIssued := withWaits_self _ (by decide +kernel)

theorem flowGated_first (l : List (Nat × Nat)) (hne : l ≠ []) (hl : ∀ p ∈ l, p.1 < hbmTop) :
    ∃ bs', l.foldl (fun (acc : State × List Byte × Bool) p =>
      let (s1, d) := acc.1.hbmUnitRead 0 flowReq p.1 p.2
      (s1, acc.2.1 ++ d.bytes, acc.2.2 || d.err || !d.errs.isEmpty)) (flowIssued, [], false) = (flowWaits, bs', true) := by
  cases l with
  | nil => exact absurd rfl hne
  | cons p r =>
    have h1 : flowIssued.hbmUnitRead 0 flowReq p.1 p.2 = (flowWaits, ⟨List.replicate p.2 0, [], true⟩) :=
      flowIssued_still ▸ flowGated_read false p.1 p.2 (hl p (by simp))
    rw [List.foldl_cons]
    simp only [h1, Bool.false_or, Bool.true_or]
    exact flowGated_parts r (fun x hx => hl x (by simp [hx])) _

theorem flowGated_bucket (key : Nat) (r : List Nat) (a : Nat) (ha : flowIssued.flowAddr 0 a + 256 ≤ hbmTop) :
    flowIssued.flowScan 0 key (a :: r) = (flowWaits.bucketLost 0 a, .err) := by
  have hp : hbmParts (flowIssued.flowAddr 0 a) 256 ≠ [] := by simp [hbmParts, hbmSplit]
  have hb : ∀ p ∈ hbmParts (flowIssued.flowAddr 0 a) 256, p.1 < hbmTop := fun p h => Nat.lt_of_lt_of_le (hbmSplit_below _ _ _ p h) ha
  obtain ⟨bs', e⟩ := flowGated_first _ hp hb
  have key2 : flowIssued.flowBucket 0 a = (flowWaits, none) := by
    simp only [State.flowBucket, State.hbmRead, e]; rfl
  simp only [State.flowScan, key2]

theorem flowGated_whole (i : Nat) : flowWaits.flowLost 0 i = flowWaits := by
  have hw : (flowWaits.hbm.get 0).wq = [] := by rfl
  have hpo : (flowWaits.hbm.get 0).poison = [] := by rfl
  have : flowWaits.flowBad 0 i = false := by
    simp only [State.flowBad, HbmState.readGran, hw, HbmState.arrayGran, hpo]
    simp [wqFind]
  rw [State.flowLost, this]; rfl


theorem flowIssued_slots : flowIssued.flowSlots 0 / 16 = 4096 := by decide +kernel

theorem flowIssued_base : flowIssued.flowBase 0 = 0 := by decide +kernel

theorem flowIssued_buckets (k : Nat) : flowIssued.flowBuckets 0 k =
      (0 * 4096 + Config.flowHash 0 k % 4096) * 4 :: ((List.range 3).map fun w => ((w + 1) * 4096 + Config.flowHash (w + 1) k % 4096) * 4) := by
    simp only [State.flowBuckets, flowIssued_slots]
    rw [show List.range 4 = 0 :: (List.range 3).map (· + 1) from by decide, List.map_cons, List.map_map]; simp only [Function.comp_def]

theorem flowIssued_below (x : Nat) (h : x < 4096) : flowIssued.flowAddr 0 ((0 * 4096 + x) * 4) + 256 ≤ hbmTop := by
  have ht : hbmTop = 0xC00000000 := rfl
  rw [State.flowAddr, flowIssued_base]; omega

theorem flowWaits_bucket (a : Nat) : flowWaits.bucketLost 0 a = flowWaits := by
  simp only [State.bucketLost, List.foldl_cons, List.foldl_nil, flowGated_whole]

theorem flowIssued_search (k : Nat) : flowIssued.flowSearch 0 k = (flowWaits, .err) := by
  simp only [State.flowSearch, flowIssued_buckets, flowGated_bucket _ _ _ (flowIssued_below _ (Nat.mod_lt _ (by decide : 0 < 4096))), flowWaits_bucket]

theorem flowFind_err (s s1 : State) (q : TblCall) (h : s.flowSearch q.h (frKey q.bytes) = (s1, .err)) : (flowFindBody s q).s.waits = s1.waits := by
  simp only [flowFindBody, h, flowRes, State.used_waits]

/-- TableRequestsIssue, a request whose HBM read has to wait. -/
theorem test_table_request_waits : issuesB flowGated .flowFind (.pk 0 0 0) flowGated 0x80A60060 = true ∧
    (callOf flowGated flowGated (.pk 0 0 0) 0x80A60060).g (wB 0x80A60060) % 16 = 0 ∧
    exEq (flowIssued.pkPlace 0 0 0 ((callOf flowGated flowGated (.pk 0 0 0) 0x80A60060).g (wB 0x80A60060)) 80) (.ok (.ram 0x40)) = true ∧
    exEq (flowIssued.pkSpan 0 0 0 ((callOf flowGated flowGated (.pk 0 0 0) 0x80A60060).g (wA 0x80A60060)) 64) (.ok (List.replicate 64 0)) = true ∧
    flowIssued.dcFull 0 0 (flowIssued.slotOfThread 0 0 0) (wDc 0x80A60060) = false ∧ flowIssued.live (tblUnit 0 3) = true ∧
    pcInRange (.pk 0 0 0) (callOf flowGated flowGated (.pk 0 0 0) 0x80A60060).nextPc = true ∧
    ∀ q : TblCall, q.h = 0 → (flowFindBody flowIssued q).s.waits ≠ flowGated.waits := by
  refine ⟨by decide +kernel, by decide +kernel, by decide +kernel, by decide +kernel, by decide +kernel, by decide +kernel, by decide +kernel,
    fun q hq => ?_⟩
  have hw : flowWaits.waits = true := by rw [flowWaits]
  have hg : flowGated.waits = false := by decide +kernel
  rw [flowFind_err _ _ q (by rw [hq]; exact flowIssued_search _), hg, hw]
  decide

/-- Table 0 of H0 with the key 0 of port 0x77 waiting to be examined, and the slots that it may take held back for their repair. -/
def examineHeld : State := (run0.updTab 0 fun t => { t with examine := [(List.replicate 16 0, 0x77)] }).updTab 0 fun t =>
  { t with withheld := [(tgExact, Config.exactHash 0 (exKey 0 0) % 32768 * 4)] }

/-- AgingAndLearning, a key whose entry is held back. -/
theorem test_learn_waits_for_a_held_entry : (examineHeld.tab.get 0).examine = (List.replicate 16 0, 0x77) :: [] ∧
    examineHeld.learnHeld 0 (examineHeld.learnTid 0) (exKeyOf (List.replicate 16 0)) = true := by
  refine ⟨rfl, ?_⟩
  rw [show examineHeld.learnTid 0 = 0 from by decide +kernel, show exKeyOf (List.replicate 16 0) = 0 from by decide +kernel]
  refine List.any_eq_true.mpr ⟨_, first_candidate 0 0, ?_⟩
  show ([(tgExact, Config.exactHash 0 (exKey 0 0) % 32768 * 4)].contains (tgExact, Config.exactHash 0 (exKey 0 0) % 32768 * 4) || _) = true
  simp

theorem takeRxCell_new (s : State) (h : Half) (f : RxFrame) (hc : s.canTake h 0 1 = true) (hn : f.chain = none) :
    ∃ s1 f1, s.takeRxCell h f = some (s1, f1) ∧ f1.prio = f.prio := by
  simp only [State.takeRxCell, hc, hn, if_true]; exact ⟨_, _, rfl, rfl⟩

/-- FramesReceived, the byte that needs a new cell: of a frame without and of one with its priority. -/
theorem test_frame_takes_a_cell :
    (∃ s f s1 f1, (s : State).armed = [] ∧ s.portRuns 0 = true ∧ s.arriving 0 = some f ∧ f.cut = false ∧ f.bytes.length + 1 ≤ macMax f.mac ∧
      f.bytes.length % 128 = 0 ∧ s.takeRxCell (portHalf 0) f = some (s1, f1) ∧ f1.prio = none) ∧
    (∃ s f s1 f1 q, (s : State).armed = [] ∧ s.portRuns 0 = true ∧ s.arriving 0 = some f ∧ f.cut = false ∧
      f.bytes.length + 1 ≤ macMax f.mac ∧ f.bytes.length % 128 = 0 ∧ s.takeRxCell (portHalf 0) f = some (s1, f1) ∧ f1.prio = some q) := by
  refine ⟨?_, ?_⟩
  · obtain ⟨s1, f1, h, hp⟩ := takeRxCell_new (port0.updIng 0 fun i => { i with arriving := [(0, rx 0)] }) 0 (rx 0) (by decide +kernel) rfl
    exact ⟨_, rx 0, s1, f1, by decide +kernel, by decide +kernel, by decide +kernel, rfl, by decide +kernel, rfl, h, hp.trans rfl⟩
  · let f : RxFrame := { rx 0 with bytes := List.replicate 128 0, prio := some 3 }
    obtain ⟨s1, f1, h, hp⟩ := takeRxCell_new (port0.updIng 0 fun i => { i with arriving := [(0, f)] }) 0 f (by decide +kernel) rfl
    exact ⟨_, f, s1, f1, 3, by decide +kernel, by decide +kernel, by decide +kernel, rfl, by decide +kernel, by decide +kernel, h, hp.trans rfl⟩

end Sys2Proof.Tests
end

/-! ## The register tables stay canonical

`State.Regs` says that the three tables that hold registers, staged fields and unit states list each key once and in order. Three
operations write them (`setReg`, `setStg`, `updUnit`), an entry filters them (`clearRegs`) and a reset makes them anew (`assertReset`); any
other operation is a composition of these with updates of the rest of the state. Below stands one lemma for each operation of the model, in
the order of the model's files: `hs.foo` says that `s.foo` keeps what `hs` says of `s`, so that the proof of a composition reads as its
definition does. -/

namespace Sys2Proof.Machine

/-- The register tables of a state are in canonical form. -/
structure State.Regs (s : State) : Prop where
  csr : Tbl.wf s.csr = true
  staged : Tbl.wf s.staged = true
  units : Tbl.wf s.units = true

/-- The state that an instruction's outcome carries. -/
def FkRes.state : FkRes → State
  | .next s | .jump s _ | .branch s _ | .fail s _ | .after s _ _ | .wait s | .ended s => s

section
variable {s t : State} {α : Type}

/-- Fields beside the three tables may take any values. -/
protected theorem State.Regs.rest (hs : s.Regs) {commits hubs time ing conf tiles cc slots locks hbm buf sched ford exp tab assoc dev pv
    ticks fresh waits pending} :
    State.Regs { s with
      commits := commits, hubs := hubs, time := time, ing := ing, conf := conf, tiles := tiles, cc := cc, slots := slots,
      locks := locks, hbm := hbm, buf := buf, sched := sched, ford := ford, exp := exp, tab := tab, assoc := assoc,
      dev := dev, pv := pv, ticks := ticks, fresh := fresh, waits := waits, pending := pending } :=
  ⟨hs.csr, hs.staged, hs.units⟩

protected theorem State.Regs.ite {c : Prop} [Decidable c] (hs : s.Regs) (ht : t.Regs) : (if c then s else t).Regs := by
  split <;> assumption

protected theorem State.Regs.ite_fst {c : Prop} [Decidable c] {p q : State × α} (hp : p.1.Regs) (hq : q.1.Regs) :
    (if c then p else q).1.Regs := by
  split <;> assumption

protected theorem State.Regs.ite_state {c : Prop} [Decidable c] {p q : FkRes} (hp : p.state.Regs) (hq : q.state.Regs) :
    (if c then p else q).state.Regs := by
  split <;> assumption

protected theorem State.Regs.ite_s {c : Prop} [Decidable c] {p q : TblRes} (hp : p.s.Regs) (hq : q.s.Regs) :
    (if c then p else q).s.Regs := by
  split <;> assumption

protected theorem State.Regs.getD {o : Option State} (ho : ∀ {t}, o = some t → t.Regs) (hs : s.Regs) : (o.getD s).Regs := by
  cases o with
  | none => exact hs
  | some t => exact ho rfl

protected theorem State.Regs.ite_some {c : Prop} [Decidable c] {o p : Option State} (ho : o = some t → t.Regs)
    (hp : p = some t → t.Regs) (e : (if c then o else p) = some t) : t.Regs := by
  split at e
  · exact ho e
  · exact hp e

protected theorem State.Regs.of_fst {p : State × α} {x : α} (hp : p.1.Regs) (e : p = (t, x)) : t.Regs := by
  rw [e] at hp; exact hp

protected theorem State.Regs.foldl {f : State → α → State} {l : List α} (hs : s.Regs) (hf : ∀ {t a}, t.Regs → (f t a).Regs) :
    (l.foldl f s).Regs := by
  induction l generalizing s with
  | nil => exact hs
  | cons a r ih => exact ih (hf hs)

protected theorem State.Regs.foldl_fst {β : Type} {f : State × β → α → State} {g : State × β → α → β} {l : List α}
    {p : State × β} (hp : p.1.Regs) (hf : ∀ {p a}, p.1.Regs → (f p a).Regs) : (l.foldl (fun q a => (f q a, g q a)) p).1.Regs := by
  induction l generalizing p with
  | nil => exact hp
  | cons a r ih => exact ih (hf hp)
end

section
variable {s : State}

/-! ### State -/

protected theorem State.Regs.reset : State.reset.Regs := ⟨rfl, rfl, rfl⟩

/-! ### Units -/

protected theorem State.Regs.setReg (hs : s.Regs) {b : Blk} {off : Nat} {v : DWord} : (s.setReg b off v).Regs :=
  ⟨tset_wf _ _ _ _ hs.csr, hs.staged, hs.units⟩

protected theorem State.Regs.setStg (hs : s.Regs) {b : Blk} {off : Nat} {v : DWord} : (s.setStg b off v).Regs :=
  ⟨hs.csr, tset_wf _ _ _ _ hs.staged, hs.units⟩

protected theorem State.Regs.setRfld (hs : s.Regs) {b : Blk} {off lsb len x : Nat} : (s.setRfld b off lsb len x).Regs := hs.setReg

protected theorem State.Regs.bumpBy (hs : s.Regs) {b : Blk} {off n : Nat} : (s.bumpBy b off n).Regs := hs.setReg

protected theorem State.Regs.bump (hs : s.Regs) {b : Blk} {off : Nat} : (s.bump b off).Regs := hs.bumpBy

protected theorem State.Regs.updUnit (hs : s.Regs) {u : UnitId} {f : UnitDyn → UnitDyn} : (s.updUnit u f).Regs :=
  ⟨hs.csr, hs.staged, tmod_wf _ _ _ _ hs.units⟩

protected theorem State.Regs.used (hs : s.Regs) : s.used.Regs := hs.rest

/-! ### Records -/

protected theorem State.Regs.updTile (hs : s.Regs) {h : Half} {t : TileIx} {f : Tile → Tile} : (s.updTile h t f).Regs := hs.rest

protected theorem State.Regs.updHub (hs : s.Regs) {h : Half} {f : HubState → HubState} : (s.updHub h f).Regs := hs.rest

protected theorem State.Regs.updThread (hs : s.Regs) {th : ThreadRef} {f : Thread → Thread} : (s.updThread th f).Regs := by
  dsimp only [State.updThread]
  split
  · exact hs.updTile
  · exact hs.rest

protected theorem State.Regs.raiseInt (hs : s.Regs) {th : ThreadRef} {n : Nat} : (s.raiseInt th n).Regs := hs.updThread

protected theorem State.Regs.notifyHub (hs : s.Regs) {h : Half} : (s.notifyHub h).Regs := .ite hs.raiseInt hs

protected theorem State.Regs.notify (hs : s.Regs) {u : UnitId} {code : Nat} {c : FClass} : (s.notify u code c).Regs := by
  dsimp only [State.notify]
  refine .ite hs ?_
  split
  · exact hs.notifyHub
  · exact .ite hs.notifyHub hs.notifyHub

protected theorem State.Regs.hubRecord (hs : s.Regs) {h : Half} {f : Found} {c : FClass} : (s.hubRecord h f c).Regs := by
  unfold State.hubRecord
  extract_lets x k merge r full det dfull s1 s2 s3
  have h1 : s2.Regs := .ite hs.updHub.bump hs.updHub
  have h2 : s3.Regs := .ite h1.bump h1
  exact .ite h2.bump h2

protected theorem State.Regs.countFault (hs : s.Regs) {u : UnitId} : (s.countFault u).Regs := hs.foldl fun h1 => h1.updUnit

protected theorem State.Regs.openRecord (hs : s.Regs) {f : Found} : (s.openRecord f).Regs := by
  dsimp only [State.openRecord]
  split
  · exact hs
  · exact .notify (.ite (hs.foldl fun h1 => h1.hubRecord) (.countFault (hs.foldl fun h1 => h1.hubRecord)))

protected theorem State.Regs.found (hs : s.Regs) {u : UnitId} {code : Nat} {d : DWord} : (s.found u code d).1.Regs := by
  dsimp only [State.found]
  exact .ite_fst hs.updUnit hs

protected theorem State.Regs.report (hs : s.Regs) {u : UnitId} {code d : Nat} : (s.report u code d).Regs := by
  dsimp only [State.report]
  exact hs.found.openRecord

/-! ### Checkers -/

protected theorem State.Regs.checked (hs : s.Regs) {s0 : State} : (State.checked s0 s).Regs := hs.foldl fun h1 => h1.updUnit

/-! ### Time -/

protected theorem State.Regs.updTime (hs : s.Regs) {h : Half} {f : TimeState → TimeState} : (s.updTime h f).Regs := hs.rest

protected theorem State.Regs.clockTick (hs : s.Regs) : s.clockTick.Regs := by
  unfold State.clockTick
  extract_lets s1 _ s2
  have h1 : s2.Regs := .ite hs.rest.setRfld (.ite hs.rest hs.rest)
  exact .ite h1.rest h1

protected theorem State.Regs.doLoad (hs : s.Regs) : s.doLoad.Regs := .ite hs.setRfld hs.rest

protected theorem State.Regs.doLoadNow (hs : s.Regs) : (doLoadNow s).Regs := .ite hs.doLoad hs

protected theorem State.Regs.doLoadArm (hs : s.Regs) : (doLoadArm s).Regs := .ite hs.rest hs

protected theorem State.Regs.captureEdge (hs : s.Regs) : s.captureEdge.Regs := .setReg (.setReg (.ite hs.rest.doLoad hs))

protected theorem State.Regs.doTsyncIn (hs : s.Regs) {rising : Bool} : (doTsyncIn rising s).Regs := .ite hs.used.rest hs.rest

protected theorem State.Regs.captures (hs : s.Regs) : s.captures.Regs := hs.rest.foldl fun h1 => h1.captureEdge

protected theorem State.Regs.timeTick (hs : s.Regs) : s.timeTick.Regs := hs.clockTick.captures

protected theorem State.Regs.settleTsync (hs : s.Regs) : s.settleTsync.Regs := .ite hs hs.rest

protected theorem State.Regs.doTsyncRise (hs : s.Regs) : (doTsyncRise s).Regs := by
  dsimp only [doTsyncRise]
  split
  · exact .ite (.ite hs.rest hs.rest) hs
  · exact hs

protected theorem State.Regs.doTsyncFall (hs : s.Regs) : (doTsyncFall s).Regs := .ite hs.rest hs

protected theorem State.Regs.doSlewWrite (hs : s.Regs) {dir : Bool} {count : Nat} : (doSlewWrite dir count s).Regs :=
  hs.setRfld.setRfld.rest

protected theorem State.Regs.doPtpSet (hs : s.Regs) : (doPtpSet s).Regs := hs.rest

protected theorem State.Regs.doPtpAdd (hs : s.Regs) : (doPtpAdd s).Regs := hs.rest

protected theorem State.Regs.doPtpSub (hs : s.Regs) : (doPtpSub s).Regs := hs.rest

protected theorem State.Regs.doPtpNsRead (hs : s.Regs) : (doPtpNsRead s).Regs := hs.setReg.setReg

protected theorem State.Regs.doDtsNowRead (hs : s.Regs) {a : Agent} {h : Half} : (doDtsNowRead a h s).Regs := hs.updTime

/-! ### Hbm -/

protected theorem State.Regs.updHbm (hs : s.Regs) {h : Half} {f : HbmState → HbmState} : (s.updHbm h f).Regs := hs.rest

protected theorem State.Regs.hbmStop (hs : s.Regs) {h : Half} {c : HbmClass} {write : Bool} {a : Nat} {t : State}
    (e : s.hbmStop h c write a = some t) : t.Regs := by
  unfold State.hbmStop at e
  split at e
  · cases e; exact hs.bump.report
  · split at e
    · cases e; exact hs
    · split at e
      · cases e; exact hs.bump.report
      · cases e

protected theorem State.Regs.hbmWritePart (hs : s.Regs) {h : Half} {r : HbmReq} {a : Nat} {bs : List Byte} :
    (s.hbmWritePart h r a bs).1.Regs := by
  dsimp only [State.hbmWritePart]
  split
  · next s' e => exact hs.hbmStop e
  · exact .ite_fst hs hs.updHbm

protected theorem State.Regs.countRaw (hs : s.Regs) {h : Half} {st : Fin 2} {x3 : RawCase} : (s.countRaw h st x3).Regs := by
  dsimp only [State.countRaw]
  split
  · exact hs
  · exact hs.bump
  · exact hs.bump

protected theorem State.Regs.hbmReadPart (hs : s.Regs) {h : Half} {r : HbmReq} {a n : Nat} : (s.hbmReadPart h r a n).1.Regs := by
  dsimp only [State.hbmReadPart]
  split
  · next s' e => exact hs.hbmStop e
  · exact .ite_fst hs hs.updHbm.countRaw

protected theorem State.Regs.orWait (hs : s.Regs) {f : State → State} (hf : ∀ {t}, t.Regs → (f t).Regs) : (s.orWait f).Regs :=
  .ite (.checked (hf hs)) hs

protected theorem State.Regs.useLinkBad (hs : s.Regs) {h : Half} {a : Nat} : (s.useLinkBad h a).Regs := hs.updHbm

protected theorem State.Regs.hbmUnitRead (hs : s.Regs) {h : Half} {r : HbmReq} {a n : Nat} : (s.hbmUnitRead h r a n).1.Regs := by
  dsimp only [State.hbmUnitRead]
  exact .ite_fst hs.rest (.ite_fst hs.useLinkBad hs.hbmReadPart)

protected theorem State.Regs.hbmUnitWrite (hs : s.Regs) {h : Half} {r : HbmReq} {a : Nat} {bs : List Byte} :
    (s.hbmUnitWrite h r a bs).1.Regs := by
  dsimp only [State.hbmUnitWrite]
  exact .ite_fst hs.rest (.ite_fst hs.useLinkBad hs.hbmWritePart)

protected theorem State.Regs.hbmRead (hs : s.Regs) {h : Half} {r : HbmReq} {a n : Nat} : (s.hbmRead h r a n).1.Regs := by
  dsimp only [State.hbmRead]
  exact .foldl_fst hs fun h1 => h1.hbmUnitRead

protected theorem State.Regs.hbmWrite (hs : s.Regs) {h : Half} {r : HbmReq} {a : Nat} {bs : List Byte} : (s.hbmWrite h r a bs).1.Regs := by
  dsimp only [State.hbmWrite]
  exact .foldl_fst hs fun h1 => h1.hbmUnitWrite

protected theorem State.Regs.hbmPlace (hs : s.Regs) {h : Half} {a : Nat} {bs : List Byte} : (s.hbmPlace h a bs).1.Regs := by
  dsimp only [State.hbmPlace]
  exact .foldl_fst hs fun h1 => h1.hbmWritePart

protected theorem State.Regs.rowFails (hs : s.Regs) {h : Half} {k : RowKey} : (s.rowFails h k).Regs :=
  .ite hs (.ite hs.updHbm (.ite hs.updHbm.setRfld.report hs.report))

protected theorem State.Regs.granEcc (hs : s.Regs) {h : Half} {g : Nat} {e : EccOutcome} : (s.granEcc h g e).Regs := by
  dsimp only [State.granEcc]
  split
  · exact hs
  · exact hs.bump.report.updHbm
  · exact hs.bump.report.updHbm

protected theorem State.Regs.granFails (hs : s.Regs) {h : Half} {g : Nat} {e : EccOutcome} : (s.granFails h g e).Regs := by
  dsimp only [State.granFails]
  split
  · exact hs
  · exact .ite hs.rowFails hs
  · exact hs.rowFails

protected theorem State.Regs.granEccs (hs : s.Regs) {h : Half} {gs : List Nat} {es : List EccOutcome} : (s.granEccs h gs es).Regs := by
  induction gs generalizing s es with
  | nil => exact hs
  | cons g gs ih =>
    cases es with
    | nil => exact hs
    | cons e es => exact ih hs.granEcc

protected theorem State.Regs.granFailures (hs : s.Regs) {h : Half} {gs : List Nat} {es : List EccOutcome} :
    (s.granFailures h gs es).Regs := by
  induction gs generalizing s es with
  | nil => exact hs
  | cons g gs ih =>
    cases es with
    | nil => exact hs
    | cons e es => exact ih hs.granFails

protected theorem State.Regs.doHbmWriteToArray (hs : s.Regs) {h : Half} {p : Nat} : (doHbmWriteToArray h p s).Regs := .ite hs.updHbm hs

protected theorem State.Regs.doHbmRefresh (hs : s.Regs) {h : Half} {p bank : Nat} : (doHbmRefresh h p bank s).Regs :=
  .ite hs (.ite hs.updHbm (.ite hs.updHbm.bump hs.updHbm))

protected theorem State.Regs.doHbmPowerDown (hs : s.Regs) {h : Half} {p : Nat} : (doHbmPowerDown h p s).Regs := .ite hs.updHbm.bump hs

protected theorem State.Regs.hbmCycle (hs : s.Regs) {h : Half} : (s.hbmCycle h).Regs := hs.updHbm

protected theorem State.Regs.hbmTick (hs : s.Regs) {h : Half} : (s.hbmTick h).Regs := hs.updHbm

protected theorem State.Regs.scrubNext (hs : s.Regs) {h : Half} {st : Fin 2} : (s.scrubNext h st).Regs := .ite hs.updHbm hs.updHbm.bump

protected theorem State.Regs.doHbmScrub (hs : s.Regs) {h : Half} {st : Fin 2} {e : EccOutcome} : (doHbmScrub h st e s).Regs :=
  .ite (.ite hs hs.updHbm.granEcc.granFails.scrubNext) hs

protected theorem State.Regs.doRowRepairDone (hs : s.Regs) {h : Half} {k : RowKey} : (doRowRepairDone h k s).Regs :=
  .ite hs.updHbm.setRfld.report hs

protected theorem State.Regs.doStackTemp (hs : s.Regs) {h : Half} {st : Fin 2} {temp : Nat} : (doStackTemp h st temp s).Regs :=
  .ite (.ite hs.setRfld.setRfld hs.setRfld.setRfld.updHbm.report) hs.setRfld.setRfld.updHbm

/-! ### Buffer -/

protected theorem State.Regs.updBuf (hs : s.Regs) {h : Half} {f : BufferState → BufferState} : (s.updBuf h f).Regs := hs.rest

protected theorem State.Regs.updChain (hs : s.Regs) {h : Half} {id : Nat} {f : Chain → Chain} : (s.updChain h id f).Regs := hs.updBuf

protected theorem State.Regs.addChain (hs : s.Regs) {h : Half} {c : Chain} {ncells nocells : Nat} :
    (s.addChain h c ncells nocells).1.Regs := by
  dsimp only [State.addChain]
  exact hs.updBuf.rest

protected theorem State.Regs.growChain (hs : s.Regs) {h : Half} {id n : Nat} : (s.growChain h id n).Regs := hs.updBuf.rest

protected theorem State.Regs.freeChain (hs : s.Regs) {h : Half} {id : Nat} : (s.freeChain h id).Regs := hs.updBuf

protected theorem State.Regs.release (hs : s.Regs) {h : Half} {id : Nat} : (s.release h id).Regs := by
  dsimp only [State.release]
  split
  · exact hs.used.report
  · exact .ite hs.report (.ite hs.freeChain hs.updChain)

protected theorem State.Regs.moveCharge (hs : s.Regs) {h : Half} {id p : Nat} : (s.moveCharge h id p).1.Regs := by
  dsimp only [State.moveCharge]
  exact .ite_fst hs (.ite_fst hs.updBuf hs)

protected theorem State.Regs.bumpPort (hs : s.Regs) {h : Half} {lp k : Nat} : (s.bumpPort h lp k).Regs := hs.bump

protected theorem State.Regs.setHold (hs : s.Regs) {h : Half} {lp : Nat} {p : HoldPhase} : (s.setHold h lp p).Regs := hs.updBuf

protected theorem State.Regs.setQueue (hs : s.Regs) {h : Half} {q : Nat} {l : List QEntry} : (s.setQueue h q l).Regs := hs.updBuf

protected theorem State.Regs.setSpill (hs : s.Regs) {h : Half} {q : Nat} {l : List SpillEntry} : (s.setSpill h q l).Regs := hs.updBuf

protected theorem State.Regs.pointerFault (hs : s.Regs) {h : Half} {id : Nat} : (s.pointerFault h id).Regs := by
  dsimp only [State.pointerFault]
  split
  · exact hs.report
  · exact hs

protected theorem State.Regs.errorDrop (hs : s.Regs) {h g : Half} {lp id : Nat} : (s.errorDrop h g lp id).Regs :=
  hs.pointerFault.bumpPort.release

/-! ### Sched -/

protected theorem State.Regs.updIng (hs : s.Regs) {h : Half} {f : IngressState → IngressState} : (s.updIng h f).Regs := hs.rest

protected theorem State.Regs.updSched (hs : s.Regs) {h : Half} {f : SchedState → SchedState} : (s.updSched h f).Regs := hs.rest

protected theorem State.Regs.setBucket (hs : s.Regs) {h : Half} {l : Lvl} {i : Nat} {b : Bucket} : (s.setBucket h l i b).Regs :=
  hs.updSched

protected theorem State.Regs.chargeNode (hs : s.Regs) {h : Half} {l : Lvl} {i : Nat} {lc : Int} : (s.chargeNode h l i lc).Regs :=
  hs.setBucket

protected theorem State.Regs.refreshQueue (hs : s.Regs) {was : List Nat} {h : Half} {q : Nat} : (State.refreshQueue was h s q).Regs := by
  unfold State.refreshQueue
  extract_lets v s1 e had
  have h1 : s1.Regs := .ite hs.updSched hs
  exact .ite h1.updSched (.ite h1.updSched h1)

protected theorem State.Regs.refreshClass (hs : s.Regs) {was : List Nat} {h : Half} {k : Nat} : (State.refreshClass was h s k).Regs := by
  unfold State.refreshClass
  extract_lets v now hadSome s1 e had
  have h1 : s1.Regs := .ite hs.updSched hs
  exact .ite h1.updSched (.ite h1.updSched h1)

protected theorem State.Regs.schedRefresh (hs : s.Regs) {h : Half} {lp : Nat} {was : List Nat} : (s.schedRefresh h lp was).Regs :=
  .foldl (hs.foldl fun h1 => h1.refreshQueue) fun h1 => h1.refreshClass

protected theorem State.Regs.withSched (hs : s.Regs) {h : Half} {lp : Nat} {f : State → State} (hf : ∀ {t}, t.Regs → (f t).Regs) :
    (s.withSched h lp f).Regs := by
  unfold State.withSched
  exact .schedRefresh (hf hs)

protected theorem State.Regs.setSels (hs : s.Regs) {h : Half} {lp : Nat} {l : List Sel} : (s.setSels h lp l).Regs := hs.updSched

protected theorem State.Regs.selectTags (hs : s.Regs) {h : Half} {q lc : Nat} : (s.selectTags h q lc).Regs := by
  unfold State.selectTags
  exact hs.updSched.chargeNode.chargeNode.chargeNode

protected theorem State.Regs.withdrawQueue (hs : s.Regs) {h : Half} {q : Nat} : (s.withdrawQueue h q).Regs := by
  dsimp only [State.withdrawQueue]
  split
  · exact hs
  · exact .bumpBy (hs.setSels.setQueue.updSched.foldl fun h1 => h1.chargeNode.chargeNode.chargeNode)

protected theorem State.Regs.withdraw (hs : s.Regs) {h : Half} {lp p : Nat} : (s.withdraw h lp p).Regs :=
  hs.foldl fun h1 => h1.withdrawQueue

protected theorem State.Regs.loseSelected (hs : s.Regs) {h : Half} {lp : Nat} : (s.loseSelected h lp).Regs :=
  .setSels (hs.foldl fun h1 => .ite h1.bumpPort h1.bumpPort.release)

/-! ### Versions -/

protected theorem State.Regs.updTab (hs : s.Regs) {h : Half} {f : TableState → TableState} : (s.updTab h f).Regs := hs.rest

protected theorem State.Regs.updSlot (hs : s.Regs) {h : Half} {b : Nat} {f : BatchSlot → BatchSlot} : (s.updSlot h b f).Regs := hs.updTab

protected theorem State.Regs.dropTouch (hs : s.Regs) {h : Half} {b : Nat} {t : Touch} : (s.dropTouch h b t).Regs := hs.updSlot

protected theorem State.Regs.setMeter (hs : s.Regs) {h : Half} {i : Nat} {m : Meter} : (s.setMeter h i m).Regs := hs.updTab

protected theorem State.Regs.chargeMeter (hs : s.Regs) {h : Half} {i bytes st pre : Nat} : (s.chargeMeter h i bytes st pre).1.Regs := by
  dsimp only [State.chargeMeter]
  exact hs.setMeter

protected theorem State.Regs.fillMeter (hs : s.Regs) {h : Half} {i st : Nat} : (s.fillMeter h i st).Regs := hs.setMeter.updTab

/-! ### Exact -/

protected theorem State.Regs.setEx (hs : s.Regs) {h : Half} {i : Nat} {e : ExEntry} : (s.setEx h i e).Regs := hs.updTab

protected theorem State.Regs.dropEx (hs : s.Regs) {h : Half} {i : Nat} : (s.dropEx h i).Regs := hs.updTab

protected theorem State.Regs.exSlot (hs : s.Regs) {h : Half} {tid key : Nat} : (s.exSlot h tid key).1.Regs := by
  dsimp only [State.exSlot]
  split
  · exact hs.rest
  · split
    · exact hs.rest.updTab
    · exact hs.rest

protected theorem State.Regs.refreshEx (hs : s.Regs) {h : Half} {i : Nat} {e : ExEntry} : (s.refreshEx h i e).Regs := .ite hs hs.setEx

/-! ### Locks -/

protected theorem State.Regs.bumpCore (hs : s.Regs) {th : ThreadRef} {off : Nat} : (s.bumpCore th off).Regs := by
  dsimp only [State.bumpCore]
  split
  · exact hs.bump
  · exact hs

protected theorem State.Regs.updTask (hs : s.Regs) {h : Half} {t : TileIx} {k : Nat} {f : Task → Task} : (s.updTask h t k f).Regs :=
  hs.updTile

protected theorem State.Regs.setLock (hs : s.Regs) {hm : Half} {num : Nat} {l : LockState} : (s.setLock hm num l).Regs := hs.rest

protected theorem State.Regs.raiseParty (hs : s.Regs) {p : LockParty} {q : Nat} : (s.raiseParty p q).Regs := by
  dsimp only [State.raiseParty]
  split
  · exact hs.updTask.bump
  · exact hs.updThread

protected theorem State.Regs.settlePrio (hs : s.Regs) {p : LockParty} : (s.settlePrio p).Regs := by
  dsimp only [State.settlePrio]
  split
  · exact hs.updTask
  · exact hs.updThread

protected theorem State.Regs.inherit (hs : s.Regs) {hm : Half} {num q fuel : Nat} : (s.inherit hm num q fuel).Regs := by
  induction fuel generalizing s hm num with
  | zero =>
    unfold State.inherit
    split
    · exact hs
    · exact .ite hs.bump hs
  | succ k ih =>
    unfold State.inherit
    split
    · exact hs
    · refine .ite ?_ hs
      dsimp only
      split
      · exact hs.bump.raiseParty
      · exact ih hs.bump.raiseParty.setLock

protected theorem State.Regs.answerLock (hs : s.Regs) {p : LockParty} {st : Nat} : (s.answerLock p st).Regs := by
  dsimp only [State.answerLock]
  split
  · exact hs
  · exact hs.updThread

protected theorem State.Regs.passOn (hs : s.Regs) {hm : Half} {num st : Nat} : (s.passOn hm num st).Regs := by
  dsimp only [State.passOn]
  split
  · exact hs.setLock
  · exact hs.setLock.bump.answerLock

protected theorem State.Regs.withdrawWaiter (hs : s.Regs) {p : LockParty} : (s.withdrawWaiter p).Regs := by
  dsimp only [State.withdrawWaiter]
  split
  · exact hs
  · split
    · exact hs.setLock
    · exact hs.setLock.settlePrio

protected theorem State.Regs.abandonLocks (hs : s.Regs) {p : LockParty} : (s.abandonLocks p).Regs :=
  hs.withdrawWaiter.foldl fun h1 => h1.passOn.bump

protected theorem State.Regs.dropHalfLocks (hs : s.Regs) {h : Half} : (s.dropHalfLocks h).Regs := by
  dsimp only [State.dropHalfLocks]
  refine hs.foldl fun h1 => ?_
  split
  · exact .ite h1.setLock.passOn.settlePrio.bump h1.setLock.settlePrio
  · exact h1.setLock

protected theorem State.Regs.takeLock (hs : s.Regs) {p : LockParty} {num : Nat} : (s.takeLock p num).Regs := hs.setLock.bump

protected theorem State.Regs.queueLock (hs : s.Regs) {p : LockParty} {num : Nat} : (s.queueLock p num).Regs := hs.setLock.bump.inherit

protected theorem State.Regs.unlock (hs : s.Regs) {p : LockParty} {num : Nat} : (s.unlock p num).1.Regs := by
  dsimp only [State.unlock]
  exact .ite_fst hs (.ite_fst hs (.ite_fst hs.passOn.settlePrio hs))

protected theorem State.Regs.forcedInt (hs : s.Regs) {p : LockParty} : (s.forcedInt p).Regs := by
  dsimp only [State.forcedInt]
  split
  · exact hs.raiseInt
  · split
    · exact hs.updTask
    · exact hs

protected theorem State.Regs.forceLock (hs : s.Regs) {h : Half} {num : Nat} : (s.forceLock h num).Regs := by
  dsimp only [State.forceLock]
  refine .ite ?_ hs
  split
  · exact hs
  · exact hs.passOn.settlePrio.forcedInt.bump

protected theorem State.Regs.setChan (hs : s.Regs) {th : ThreadRef} {n : Nat} {l : List Message} : (s.setChan th n l).Regs := by
  dsimp only [State.setChan]
  split
  · exact hs.updTile
  · exact hs.rest

protected theorem State.Regs.bumpChan (hs : s.Regs) {th : ThreadRef} {off n : Nat} : (s.bumpChan th off n).Regs := by
  dsimp only [State.bumpChan]
  split
  · exact hs.bumpBy
  · exact hs

protected theorem State.Regs.setEv (hs : s.Regs) {th : ThreadRef} {m : Word} : (s.setEv th m).Regs := hs.updThread

protected theorem State.Regs.sendMessage (hs : s.Regs) {th : ThreadRef} {n : Nat} {m : Message} : (s.sendMessage th n m).Regs :=
  .ite hs.setChan.bumpChan.setEv hs.setChan.bumpChan

protected theorem State.Regs.writeChCfg (hs : s.Regs) {th : ThreadRef} {n : Nat} {v : DWord} : (s.writeChCfg th n v).Regs :=
  .ite (.ite hs.setReg hs.setReg) (.ite hs.bumpChan.setChan.setReg hs.setReg)

/-! ### Tasks -/

protected theorem State.Regs.checkWait (hs : s.Regs) {h : Half} {t : TileIx} {k : Nat} : (s.checkWait h t k).Regs := by
  dsimp only [State.checkWait]
  refine .ite (.ite hs.updTask hs) ?_
  split
  · exact hs
  · split
    · exact .ite hs.updThread.updTask hs
    · exact hs

protected theorem State.Regs.dcDown (hs : s.Regs) {h : Half} {t : TileIx} {k j : Nat} : (s.dcDown h t k j).Regs := hs.updTask.checkWait

protected theorem State.Regs.dcUp (hs : s.Regs) {h : Half} {t : TileIx} {k j : Nat} : (s.dcUp h t k j).Regs := hs.updTask

protected theorem State.Regs.settleSlot (hs : s.Regs) {h : Half} {t : TileIx} {k : Nat} : (s.settleSlot h t k).Regs := .ite hs.updTask hs

protected theorem State.Regs.respond (hs : s.Regs) {h : Half} {t : TileIx} {r : Response} : (s.respond h t r).Regs :=
  .ite hs.updTile.settleSlot hs.updTile.updTile.dcDown

protected theorem State.Regs.updResponse (hs : s.Regs) {h : Half} {t : TileIx} {id : Nat} {f : Response → Response} :
    (s.updResponse h t id f).Regs := hs.updTile

protected theorem State.Regs.releaseInst (hs : s.Regs) {h : Half} {t : TileIx} {key : Nat} : (s.releaseInst h t key).Regs :=
  hs.updTile.foldl fun h1 => h1.setEv

protected theorem State.Regs.endInsts (hs : s.Regs) {h : Half} {t : TileIx} {k : Nat} : (s.endInsts h t k).Regs :=
  hs.foldl fun h1 => .ite h1.bump.updTile h1.bump.releaseInst

protected theorem State.Regs.settleInst (hs : s.Regs) {h : Half} {t : TileIx} {k key : Nat} : (s.settleInst h t k key).Regs :=
  .ite hs.releaseInst hs

protected theorem State.Regs.cancelScan (hs : s.Regs) {h : Half} {t : TileIx} {k : Nat} : (s.cancelScan h t k).Regs :=
  .ite hs.updTile.updTask.bump hs

protected theorem State.Regs.endHold (hs : s.Regs) {h : Half} {t : TileIx} {k : Nat} : (s.endHold h t k).Regs := by
  dsimp only [State.endHold]
  refine .cancelScan ?_
  refine .updTile ?_
  refine .endInsts ?_
  refine .updIng ?_
  refine .updTask ?_
  split
  · exact .updThread (.abandonLocks (.ite hs.bump hs))
  · exact .abandonLocks (.ite hs.bump hs)

protected theorem State.Regs.endChain (hs : s.Regs) {h : Half} {t : TileIx} {k : Nat} : (s.endChain h t k).Regs := by
  dsimp only [State.endChain]
  split
  · exact hs.release.updTask
  · exact hs

protected theorem State.Regs.cross (hs : s.Regs) {h : Half} {id : Nat} {list : Option Nat} {port queue : Nat} :
    (s.cross h id list port queue).Regs := .ite hs.rest hs.bump.release

protected theorem State.Regs.forward (hs : s.Regs) {h : Half} {t : TileIx} {k : Nat} : (s.forward h t k).Regs := by
  dsimp only [State.forward]
  split
  · exact .ite hs.updTask.updBuf (.ite hs.updTask.updBuf hs.updTask.cross)
  · exact hs

protected theorem State.Regs.releaseFree (hs : s.Regs) {h : Half} {t : TileIx} {k : Nat} : (s.releaseFree h t k).Regs :=
  hs.forward.updTask.settleSlot

protected theorem State.Regs.releaseOrdered (hs : s.Regs) {h : Half} {t : TileIx} {k : Nat} {late : Bool} :
    (s.releaseOrdered h t k late).Regs := by
  dsimp only [State.releaseOrdered]
  refine .releaseFree ?_
  split
  · exact hs.bump.bump.updChain
  · exact hs.bump

protected theorem State.Regs.completePacket (hs : s.Regs) {h : Half} {t : TileIx} {k : Nat} {out : Option (List Byte)} :
    (s.completePacket h t k out).Regs := by
  unfold State.completePacket
  extract_lets s1 s2 s3 x
  have h1 : s2.Regs := .ite hs.endHold.endChain hs.endHold
  exact .ite (.ite h1.updTask h1.updTask.releaseOrdered) h1.updTask.releaseFree

protected theorem State.Regs.endService (hs : s.Regs) {h : Half} {t : TileIx} {k : Nat} : (s.endService h t k).Regs :=
  hs.endHold.updTask.settleSlot

protected theorem State.Regs.completeTask (hs : s.Regs) {h : Half} {t : TileIx} {k : Nat} {out : Option (List Byte)} :
    (s.completeTask h t k out).Regs := .ite hs.endService hs.completePacket

protected theorem State.Regs.countDiscard (hs : s.Regs) {h : Half} {t : TileIx} {k reason : Nat} : (s.countDiscard h t k reason).Regs :=
  .setReg (.ite hs.bump.bump.bump hs.bump.bump)

protected theorem State.Regs.discardTask (hs : s.Regs) {h : Half} {t : TileIx} {k reason : Nat} : (s.discardTask h t k reason).Regs :=
  .ite hs
    (.ite hs.countDiscard.endService
       (.ite
          (.ite hs.countDiscard.endHold.endChain.updTask hs.countDiscard.endHold.endChain.updTask.releaseOrdered)
          hs.countDiscard.endHold.endChain.updTask.updTask.settleSlot))

/-! ### Admit -/

protected theorem State.Regs.settleReg (hs : s.Regs) {h : Half} {id : Nat} : (s.settleReg h id).Regs := .ite hs hs.rest

protected theorem State.Regs.refuse (hs : s.Regs) {h : Half} {c : Copy} {k : Nat} : (s.refuse h c k).Regs := hs.bumpPort.release

protected theorem State.Regs.countAdmit (hs : s.Regs) {h : Half} {q : Nat} {e : QEntry} : (s.countAdmit h q e).Regs :=
  .ite hs.bumpPort.bumpPort hs.bumpPort

protected theorem State.Regs.admitOnChip (hs : s.Regs) {h : Half} {c : Copy} : (s.admitOnChip h c).Regs :=
  .countAdmit (.withSched hs (fun h1 => h1.setQueue))

protected theorem State.Regs.admitDeep (hs : s.Regs) {h : Half} {c : Copy} : (s.admitDeep h c).Regs := hs.setSpill.updBuf.rest.countAdmit

protected theorem State.Regs.takeCopy (hs : s.Regs) {h : Half} {c : Copy} : (s.takeCopy h c).Regs := by
  dsimp only [State.takeCopy]
  exact .ite hs.refuse
    (.ite hs.refuse
       (.ite hs.bump.release
          (.ite (.ite hs.refuse hs.admitDeep) (.ite hs.refuse (.ite hs.admitOnChip (.ite hs.moveCharge.admitOnChip hs.refuse))))))

protected theorem State.Regs.doAdmitCopy (hs : s.Regs) {h : Half} : (doAdmitCopy h s).Regs := by
  dsimp only [doAdmitCopy]
  split
  · exact hs
  · exact .ite hs.updBuf.takeCopy.settleReg hs

protected theorem State.Regs.offer (hs : s.Regs) {h : Half} {id list : Nat} {t : Target} : (State.offer h id list s t).Regs :=
  .ite hs.cross hs.updBuf

protected theorem State.Regs.replicate (hs : s.Regs) {h : Half} {id list : Nat} {found : List Target} :
    (s.replicate h id list found).Regs := by
  dsimp only [State.replicate]
  exact .ite (.freeChain (.ite hs.bump hs))
    (.ite
       (.foldl (.moveCharge (.updChain (.ite hs.bump hs))) fun h1 => h1.offer)
       (.freeChain (.foldl (.updChain (.ite hs.bump hs)) fun h1 => h1.bumpPort)))

protected theorem State.Regs.doReplWalk (hs : s.Regs) {h : Half} : (doReplWalk h s).Regs := by
  dsimp only [doReplWalk]
  split
  · exact hs
  · exact .ite hs (.settleReg (.replicate (.ite (.bump (.ite hs.updBuf.bump hs.updBuf)) (.ite hs.updBuf.bump hs.updBuf))))

protected theorem State.Regs.writeBlocks (hs : s.Regs) {h : Half} {img : List Byte} {l : List Nat} {off : Nat} :
    (s.writeBlocks h img l off).Regs := by
  induction l generalizing s off with
  | nil => exact hs
  | cons i r ih => exact ih hs.hbmWrite

protected theorem State.Regs.readBlocks (hs : s.Regs) {h : Half} {l : List Nat} {left : Nat} : (s.readBlocks h l left).1.Regs := by
  induction l generalizing s left with
  | nil => exact hs
  | cons i r ih => exact ih hs.hbmRead

protected theorem State.Regs.doSpillWritten (hs : s.Regs) {h : Half} {q : Nat} : (doSpillWritten h q s).Regs := by
  dsimp only [doSpillWritten]
  split
  · exact hs
  · split
    · exact hs
    · exact .ite hs.setSpill.errorDrop hs.used.writeBlocks.setSpill.release

protected theorem State.Regs.popSpill (hs : s.Regs) {h : Half} {q : Nat} : (s.popSpill h q).Regs := hs.setSpill.updBuf

protected theorem State.Regs.fillFront (hs : s.Regs) {h : Half} {q : Nat} {x : SpillEntry} : (s.fillFront h q x).Regs := by
  dsimp only [State.fillFront]
  exact .ite hs.used.popSpill.bumpPort.report
    (.ite hs.updBuf (.ite hs.readBlocks.popSpill.bumpPort.report (.popSpill (.withSched hs.readBlocks.addChain (fun h1 => h1.setQueue)))))

protected theorem State.Regs.doSpillFill (hs : s.Regs) {h : Half} {q : Nat} : (doSpillFill h q s).Regs := by
  dsimp only [doSpillFill]
  split
  · exact hs
  · exact .ite hs hs.fillFront

protected theorem State.Regs.doFillRetry (hs : s.Regs) {h : Half} {q : Nat} : (doFillRetry h q s).Regs := by
  dsimp only [doFillRetry]
  split
  · exact .ite hs.bump.fillFront hs
  · exact hs

protected theorem State.Regs.flushEnd (hs : s.Regs) {h : Half} {lp : Nat} : (s.flushEnd h lp).Regs := .ite hs.setHold hs

protected theorem State.Regs.portFalls (hs : s.Regs) {h : Half} {lp : Nat} : (s.portFalls h lp).Regs :=
  .ite (.ite hs.loseSelected.setHold.flushEnd hs.loseSelected.setHold.updBuf) hs.loseSelected

protected theorem State.Regs.portReturns (hs : s.Regs) {h : Half} {lp : Nat} : (s.portReturns h lp).Regs := .ite hs.setHold.updBuf hs

protected theorem State.Regs.doHoldExpire (hs : s.Regs) {h : Half} {lp : Nat} : (doHoldExpire h lp s).Regs :=
  .ite hs.setHold.updBuf.flushEnd hs

protected theorem State.Regs.doFlushEntry (hs : s.Regs) {h : Half} {lp : Nat} : (doFlushEntry h lp s).Regs := by
  dsimp only [doFlushEntry]
  refine .ite ?_ hs
  split
  · split
    · exact .flushEnd (.release (.bumpPort (.withSched hs (fun h1 => h1.setQueue))))
    · exact hs
  · split
    · exact hs.setSpill.updBuf.bumpPort.flushEnd
    · exact hs.flushEnd

protected theorem State.Regs.reclaimed (hs : s.Regs) {h : Half} : (s.reclaimed h).Regs := hs.bump.report

protected theorem State.Regs.reclaimLost (hs : s.Regs) {h : Half} {x : LostCell} : (s.reclaimLost h x).Regs :=
  .ite hs (.ite hs.updBuf hs.updBuf.reclaimed)

protected theorem State.Regs.doReclaimVisit (hs : s.Regs) {h : Half} {cell : Nat} : (doReclaimVisit h cell s).Regs := by
  dsimp only [doReclaimVisit]
  refine .ite ?_ hs
  split
  · exact .ite hs.freeChain.reclaimed hs
  · split
    · exact hs.reclaimLost
    · exact hs

/-! ### Cal -/

protected theorem State.Regs.calApply (hs : s.Regs) {items : List Nat} : (s.calApply items).Regs := hs.rest

/-! ### Flow -/

protected theorem State.Regs.flowRead (hs : s.Regs) {h : Half} {slot : Nat} : (s.flowRead h slot).1.Regs := by
  dsimp only [State.flowRead]
  exact hs.hbmRead

protected theorem State.Regs.flowWriteThrough (hs : s.Regs) {h : Half} {a : Nat} {bs : List Byte} : (s.flowWriteThrough h a bs).Regs := by
  dsimp only [State.flowWriteThrough]
  exact hs.hbmWrite.updHbm

protected theorem State.Regs.flowPut (hs : s.Regs) {h : Half} {slot : Nat} {r : List Byte} : (s.flowPut h slot r).Regs :=
  hs.flowWriteThrough.hbmWrite

protected theorem State.Regs.flowPutHead (hs : s.Regs) {h : Half} {slot : Nat} {r : List Byte} : (s.flowPutHead h slot r).Regs :=
  hs.hbmWrite

protected theorem State.Regs.flowClear (hs : s.Regs) {h : Half} {slot : Nat} {r : List Byte} : (s.flowClear h slot r).Regs :=
  hs.flowPutHead.updTab

protected theorem State.Regs.flowLost (hs : s.Regs) {h : Half} {slot : Nat} : (s.flowLost h slot).Regs := .ite hs.flowClear.report hs

protected theorem State.Regs.flowBucket (hs : s.Regs) {h : Half} {first : Nat} : (s.flowBucket h first).1.Regs := by
  dsimp only [State.flowBucket]
  exact hs.hbmRead

protected theorem State.Regs.bucketLost (hs : s.Regs) {h : Half} {first : Nat} : (s.bucketLost h first).Regs :=
  hs.foldl fun h1 => h1.flowLost

protected theorem State.Regs.flowScan (hs : s.Regs) {h : Half} {key : Nat} {l : List Nat} : (s.flowScan h key l).1.Regs := by
  induction l generalizing s with
  | nil => exact hs
  | cons b r ih =>
    unfold State.flowScan
    split
    · next s1 e => exact (hs.flowBucket.of_fst e).bucketLost
    · next s1 l e =>
      split
      · exact hs.flowBucket.of_fst e
      · exact ih (hs.flowBucket.of_fst e)

protected theorem State.Regs.flowSearch (hs : s.Regs) {h : Half} {key : Nat} : (s.flowSearch h key).1.Regs := by
  unfold State.flowSearch
  split
  · next s1 e => split <;> exact hs.flowScan.of_fst e
  · exact hs.flowScan

protected theorem State.Regs.flowMove (hs : s.Regs) {h : Half} {m : Nat × Nat} : (State.flowMove h s m).Regs :=
  hs.flowPut.updTab.flowClear

protected theorem State.Regs.flowPlace (hs : s.Regs) {h : Half} {key : Nat} : (s.flowPlace h key).1.Regs := by
  dsimp only [State.flowPlace]
  split
  · exact hs.rest
  · split
    · exact hs.rest.foldl fun h1 => h1.flowMove
    · split
      · exact hs.rest
      · exact hs.rest

protected theorem State.Regs.flowStore (hs : s.Regs) {h : Half} {p : Nat × Bool} {r : List Byte} : (s.flowStore h p r).Regs :=
  .ite hs.updTab hs.flowPut.updTab

protected theorem State.Regs.flowTouch (hs : s.Regs) {h : Half} {f : FlowFound} {r : List Byte} : (s.flowTouch h f r).Regs := by
  dsimp only [State.flowTouch]
  split
  · exact hs.flowPutHead.updTab
  · exact hs.updTab
  · exact hs

protected theorem State.Regs.flowRemove (hs : s.Regs) {h : Half} {f : FlowFound} : (s.flowRemove h f).Regs := by
  dsimp only [State.flowRemove]
  split
  · exact hs.flowClear
  · exact hs.updTab
  · exact hs

protected theorem State.Regs.doStashReturn (hs : s.Regs) {h : Half} {n : Nat} : (doStashReturn h n s).Regs := by
  dsimp only [doStashReturn]
  split
  · exact hs
  · refine .ite ?_ hs
    split
    · exact hs.used.flowPut.updTab
    · exact hs

/-! ### Lpm -/

protected theorem State.Regs.writeBack (hs : s.Regs) {h : Half} {i : Nat} : (s.writeBack h i).Regs := by
  dsimp only [State.writeBack]
  split
  · exact hs
  · refine .ite hs.hbmRead ?_
    split
    · next s2 e => exact .updTab (hs.hbmRead.hbmWrite.of_fst e)
    · next s2 e => exact hs.hbmRead.hbmWrite.of_fst e

protected theorem State.Regs.countPair (hs : s.Regs) {h : Half} {i n : Nat} : (s.countPair h i n).Regs :=
  .updTab (.ite hs.used.writeBack hs)

protected theorem State.Regs.doWriteback (hs : s.Regs) {h : Half} {pair : Nat} : (doWriteback h pair s).Regs := .ite hs.writeBack hs

protected theorem State.Regs.readSel (hs : s.Regs) {h : Half} {v : DWord} : (s.readSel h v).Regs := hs.updTab

protected theorem State.Regs.doReadDone (hs : s.Regs) {h : Half} : (doReadDone h s).Regs := by
  dsimp only [doReadDone]
  split
  · exact hs
  · exact .ite
      (.ite
         (.updTab (.hbmWrite (.updTab (.setReg (.setReg (.ite hs.hbmRead.used hs.hbmRead))))))
         (.updTab (.setReg (.setReg (.ite hs.hbmRead.used hs.hbmRead)))))
      hs

protected theorem State.Regs.loseLine (hs : s.Regs) {h : Half} {i : Nat} : (s.loseLine h i).Regs := .ite hs.updTab.bump hs

protected theorem State.Regs.doMeterRefill (hs : s.Regs) {h : Half} {i : Nat} : (doMeterRefill h i s).Regs := .ite hs.setMeter hs

/-! ### Shadow -/

protected theorem State.Regs.withShadow (hs : s.Regs) {s0 : State} {h : Half} : (State.withShadow s0 s h).Regs := hs.updTab

protected theorem State.Regs.fromShadow (hs : s.Regs) {h : Half} {t i : Nat} : (s.fromShadow h t i).Regs := by
  dsimp only [State.fromShadow]
  split
  · exact hs.updTab
  · exact hs.updTab
  · exact hs.updTab
  · exact hs.updTab
  · exact hs.updTab
  · exact hs.setMeter
  · exact hs.updTab
  · exact hs.rest
  · exact hs.updTab
  · exact hs.updTab

/-! ### Inject -/

protected theorem State.Regs.injectChain (hs : s.Regs) {h : Half} {v id : Nat} : (s.injectChain h v id).Regs :=
  .ite hs.bump.release hs.updChain.updIng

protected theorem State.Regs.injectBytes (hs : s.Regs) {h : Half} {v : Nat} {bytes : List Byte} : (s.injectBytes h v bytes).Regs := by
  dsimp only [State.injectBytes]
  exact hs.addChain.injectChain

protected theorem State.Regs.postFrame (hs : s.Regs) {th : ThreadRef} {v : Nat} {bytes : List Byte} : (s.postFrame th v bytes).Regs :=
  .ite hs.injectBytes.updThread hs.updThread.updIng

protected theorem State.Regs.servePoster (hs : s.Regs) {h : Half} {th : ThreadRef} {rest : List ThreadRef} :
    (s.servePoster h th rest).Regs := by
  dsimp only [State.servePoster]
  split
  · exact .ite hs.injectBytes.updThread.updIng hs
  · exact hs.updIng

protected theorem State.Regs.serveLoop (hs : s.Regs) {h : Half} {id : Nat} {rest : List Nat} : (s.serveLoop h id rest).Regs := by
  dsimp only [State.serveLoop]
  refine .ite ?_ hs
  split
  · next s1 e => exact (hs.moveCharge.of_fst e).updIng.injectChain
  · exact hs

protected theorem State.Regs.doInjectEntry (hs : s.Regs) {h : Half} : (doInjectEntry h s).Regs := by
  dsimp only [doInjectEntry]
  split
  · exact hs.servePoster
  · split
    · exact hs.serveLoop
    · exact hs

/-! ### Ingress -/

protected theorem State.Regs.xoffDue (hs : s.Regs) {p : PortIx} {prio : Nat} : (s.xoffDue p prio).Regs := hs.updIng

protected theorem State.Regs.xonDue (hs : s.Regs) {p : PortIx} {prio : Nat} : (s.xonDue p prio).Regs := hs.updIng

protected theorem State.Regs.setLevel (hs : s.Regs) {p : PortIx} {prio n : Nat} : (s.setLevel p prio n).Regs := by
  dsimp only [State.setLevel]
  exact .ite hs.updIng.xoffDue (.ite hs.updIng.xonDue hs.updIng)

protected theorem State.Regs.setArriving (hs : s.Regs) {p : PortIx} {f : RxFrame} : (s.setArriving p f).Regs := hs.updIng

protected theorem State.Regs.noArriving (hs : s.Regs) {p : PortIx} : (s.noArriving p).Regs := hs.updIng

protected theorem State.Regs.doFrameStart (hs : s.Regs) {p : PortIx} : (doFrameStart p s).Regs := .ite hs.used.updIng.setArriving hs

protected theorem State.Regs.leaveRxq (hs : s.Regs) {h : Half} {f : RxFrame} : (s.leaveRxq h f).Regs := by
  dsimp only [State.leaveRxq]
  split
  · exact hs.setLevel
  · exact hs

protected theorem State.Regs.dropFrame (hs : s.Regs) {h : Half} {f : RxFrame} : (s.dropFrame h f).Regs := by
  dsimp only [State.dropFrame]
  split
  · exact hs.leaveRxq.release
  · exact hs.leaveRxq

protected theorem State.Regs.cutFrame (hs : s.Regs) {p : PortIx} {f : RxFrame} {ctr : Nat} : (s.cutFrame p f ctr).Regs :=
  hs.dropFrame.bump.setArriving

protected theorem State.Regs.takeRxCell (hs : s.Regs) {h : Half} {f : RxFrame} {p : State × RxFrame}
    (e : s.takeRxCell h f = some p) : p.1.Regs := by
  unfold State.takeRxCell at e
  split at e
  · split at e
    · cases e; exact hs.addChain
    · cases e; exact hs.growChain
  · cases e

protected theorem State.Regs.assignPrio (hs : s.Regs) {p : PortIx} {f : RxFrame} : (s.assignPrio p f).Regs := by
  dsimp only [State.assignPrio]
  exact .ite hs.cutFrame hs.setArriving.setLevel

protected theorem State.Regs.doRxByte (hs : s.Regs) {p : PortIx} {b : Byte} : (doRxByte p s b).Regs := by
  dsimp only [doRxByte]
  split
  · exact hs
  · refine .ite hs ?_
    refine .ite hs.cutFrame ?_
    refine .ite ?_ (.ite hs.assignPrio hs.setArriving)
    split
    · exact hs.cutFrame
    · next s1 f1 e =>
        split
        · exact .ite ((hs.takeRxCell e).setLevel.assignPrio) ((hs.takeRxCell e).setLevel.setArriving)
        · exact .ite ((hs.takeRxCell e).assignPrio) ((hs.takeRxCell e).setArriving)

protected theorem State.Regs.doFrameBytes (hs : s.Regs) {p : PortIx} {bytes : List Byte} : (doFrameBytes p bytes s).Regs :=
  .ite (hs.foldl fun h1 => h1.doRxByte) hs

protected theorem State.Regs.acceptFrame (hs : s.Regs) {p : PortIx} {f : RxFrame} : (s.acceptFrame p f).Regs := by
  dsimp only [State.acceptFrame]
  refine .updIng ?_
  split
  · exact hs.bump.bumpBy.updChain
  · exact hs.bump.bumpBy

protected theorem State.Regs.countFec (hs : s.Regs) {p : PortIx} : (s.countFec p).Regs := .ite hs.used.used.bumpBy.bumpBy hs

protected theorem State.Regs.doFrameEnd (hs : s.Regs) {p : PortIx} {pcsError : Bool} : (doFrameEnd p pcsError s).Regs := by
  dsimp only [doFrameEnd]
  refine .ite ?_ hs
  split
  · exact hs
  · refine .ite hs.countFec.noArriving ?_
    split
    · exact .ite hs.countFec.noArriving.dropFrame.bump.updIng hs.countFec.noArriving.dropFrame.bump
    · exact hs.countFec.noArriving.acceptFrame

protected theorem State.Regs.abortRx (hs : s.Regs) {p : PortIx} : (s.abortRx p).Regs := by
  dsimp only [State.abortRx]
  split
  · exact hs
  · exact .ite hs.noArriving hs.noArriving.dropFrame.bump

protected theorem State.Regs.doPfcRefresh (hs : s.Regs) {p : PortIx} {prio : Nat} : (doPfcRefresh p prio s).Regs := by
  dsimp only [doPfcRefresh]
  split
  · exact .ite hs.xoffDue hs
  · exact hs

protected theorem State.Regs.doPfcTransmit (hs : s.Regs) {p : PortIx} : (doPfcTransmit p s).Regs := .ite hs.updIng.bump hs

protected theorem State.Regs.pfcClass (hs : s.Regs) {p : PortIx} {e q : Nat} : (s.pfcClass p e q).Regs :=
  .ite hs.updIng hs.updIng.withdraw

protected theorem State.Regs.doPfcReceive (hs : s.Regs) {p : PortIx} : (doPfcReceive p s).Regs := by
  dsimp only [doPfcReceive]
  split
  · exact hs
  · exact .schedRefresh (hs.updIng.foldl fun h1 => .ite h1.pfcClass h1)

protected theorem State.Regs.doPfcExpire (hs : s.Regs) {p : PortIx} {prio : Nat} : (doPfcExpire p prio s).Regs := by
  dsimp only [doPfcExpire]
  split
  · exact .ite (.withSched hs (fun h1 => h1.updIng)) hs
  · exact hs

/-! ### Classify -/

protected theorem State.Regs.dropRed (hs : s.Regs) {h : Half} {f : RxFrame} : (s.dropRed h f).Regs := by
  dsimp only [State.dropRed]
  split
  · exact hs.dropFrame.bump
  · exact hs.dropFrame

protected theorem State.Regs.ingressMeter (hs : s.Regs) {h : Half} {f : RxFrame} {w ind : Nat} : (s.ingressMeter h f w ind).1.Regs := by
  dsimp only [State.ingressMeter]
  exact .ite_fst (.ite_fst hs.fillMeter.used hs.chargeMeter) hs

protected theorem State.Regs.examineFrom (hs : s.Regs) {h : Half} {key : List Byte} {p : Nat} : (s.examineFrom h key p).Regs :=
  .ite hs.updTab hs

protected theorem State.Regs.learnFrom (hs : s.Regs) {h : Half} {f : RxFrame} {key : List Byte} : (s.learnFrom h f key).Regs := by
  dsimp only [State.learnFrom]
  refine .examineFrom ?_
  split
  · exact hs.updChain
  · exact hs

protected theorem State.Regs.finishClassify (hs : s.Regs) {h : Half} {f : RxFrame} {e : ParseEnd} : (s.finishClassify h f e).Regs := by
  dsimp only [State.finishClassify]
  exact .ite
    (.dropRed (.updIng (.ingressMeter (.ite hs.learnFrom hs.learnFrom.bump))))
    (.updIng (.ingressMeter (.ite hs.learnFrom hs.learnFrom.bump)))

protected theorem State.Regs.doClassify (hs : s.Regs) {h : Half} : (doClassify h s).Regs := by
  dsimp only [doClassify]
  refine .ite ?_ hs
  split
  · exact hs
  · exact .ite hs.updIng.bump.updIng (.ite hs hs.updIng.finishClassify)

protected theorem State.Regs.doSecondPass (hs : s.Regs) {h : Half} : (doSecondPass h s).Regs := by
  dsimp only [doSecondPass]
  split
  · exact .ite hs.finishClassify hs
  · exact hs

/-! ### TaskMake -/

protected theorem State.Regs.noteMove (hs : s.Regs) {h : Half} {t : TileIx} {ind born : Nat} : (s.noteMove h t ind born).Regs :=
  .updIng (.ite hs.bump hs)

protected theorem State.Regs.setDomWin (hs : s.Regs) {h : Half} {d : Nat} {l : List (Nat × Nat)} : (s.setDomWin h d l).Regs := hs.rest

protected theorem State.Regs.releaseUpTo (hs : s.Regs) {h : Half} {n : Nat} : (s.releaseUpTo h n).Regs := by
  induction n generalizing s with
  | zero => exact hs
  | succ n ih =>
    unfold State.releaseUpTo
    split
    · exact hs
    · split
      · exact hs
      · exact ih hs.setDomWin.releaseOrdered

protected theorem State.Regs.overtake (hs : s.Regs) {h : Half} {d ctr : Nat} : (s.overtake h d ctr).Regs := by
  dsimp only [State.overtake]
  split
  · exact hs
  · exact hs.setDomWin.updTask.bump

protected theorem State.Regs.makeRoom (hs : s.Regs) {h : Half} {d : Nat} : (s.makeRoom h d).Regs := by
  dsimp only [State.makeRoom]
  split
  · exact hs
  · exact .ite (.ite hs.setDomWin.releaseOrdered hs.overtake.releaseUpTo) hs

protected theorem State.Regs.joinWindow (hs : s.Regs) {h : Half} {t : TileIx} {k : Nat} : (s.joinWindow h t k).Regs := hs.setDomWin

protected theorem State.Regs.createTask (hs : s.Regs) {h : Half} {t : TileIx} {k : Nat} {redirect : Bool} {c : ClsFrame} :
    (s.createTask h t k redirect c).Regs := by
  unfold State.createTask
  extract_lets x s1 s2 s3 s4 s5 s6
  have h1 : s4.Regs := .ite hs.updTask.updTile.bump.bump hs.updTask.updTile.bump
  have h2 : s5.Regs := .ite h1.noteMove h1.updIng
  have h3 : s6.Regs := .ite h2.makeRoom.joinWindow h2
  exact h3.leaveRxq.updIng

protected theorem State.Regs.doTaskCreate (hs : s.Regs) {h : Half} : (doTaskCreate h s).Regs := by
  dsimp only [doTaskCreate]
  split
  · exact hs
  · refine .ite ?_ hs
    split
    · exact hs
    · exact hs.used.createTask

protected theorem State.Regs.svcPost (hs : s.Regs) {h : Half} {t : TileIx} {j : Nat} {m : Word} : (s.svcPost h t j m).Regs :=
  .ite hs.setReg hs

protected theorem State.Regs.svcEvent (hs : s.Regs) {h : Half} {v : DWord} : (s.svcEvent h v).Regs := .ite hs.svcPost hs

protected theorem State.Regs.svcConfig (hs : s.Regs) {h : Half} {t : TileIx} {j : Nat} {v : DWord} : (s.svcConfig h t j v).Regs :=
  .ite hs.setReg.updTile hs.setReg

protected theorem State.Regs.doConfluence (hs : s.Regs) {h : Half} : (doConfluence h s).Regs := .ite hs.releaseUpTo hs

protected theorem State.Regs.checkDomain (hs : s.Regs) {h : Half} {d : Nat} : (State.checkDomain h s d).Regs := by
  dsimp only [State.checkDomain]
  split
  · exact hs
  · exact .ite hs.overtake hs

protected theorem State.Regs.doPatience (hs : s.Regs) {h : Half} : (doPatience h s).Regs :=
  .ite (.ite (hs.foldl fun h1 => h1.checkDomain) (.releaseUpTo (hs.foldl fun h1 => h1.checkDomain))) hs

protected theorem State.Regs.doOldestLive (hs : s.Regs) {h : Half} : (doOldestLive h s).Regs := .ite hs.setReg hs

protected theorem State.Regs.imgCtl (hs : s.Regs) {h : Half} {arm disarm : Bool} : (s.imgCtl h arm disarm).Regs :=
  .ite (.ite hs.setRfld hs) (.ite (.ite hs.setRfld.updIng hs.setRfld) hs)

protected theorem State.Regs.doImgSwitch (hs : s.Regs) {h : Half} : (doImgSwitch h s).Regs := .ite hs.setRfld.setRfld.updIng hs

protected theorem State.Regs.doImgDrainEnd (hs : s.Regs) {h : Half} : (doImgDrainEnd h s).Regs := .ite hs.setRfld hs

/-! ### Batch -/

protected theorem State.Regs.updEntries (hs : s.Regs) {h : Half} {t : Nat} {f : Tbl Nat → Tbl Nat} : (s.updEntries h t f).Regs := by
  dsimp only [State.updEntries]
  split
  · exact hs.rest
  · exact hs.updTab
  · exact hs.updTab

protected theorem State.Regs.notePeak (hs : s.Regs) {h : Half} : (s.notePeak h).Regs := .ite hs.setRfld hs

protected theorem State.Regs.touchEntries (hs : s.Regs) {h : Half} {b : Nat} {ts : List Touch} {key : Option (Nat × Nat)} :
    (s.touchEntries h b ts key).Regs := hs.updSlot

protected theorem State.Regs.exRetire (hs : s.Regs) {h : Half} {b tid key : Nat} : (s.exRetire h b tid key).Regs := by
  dsimp only [State.exRetire]
  split
  · exact hs.setEx.touchEntries
  · exact hs

protected theorem State.Regs.exInsert (hs : s.Regs) {h : Half} {b : Nat} {r : BatchRec} : (s.exInsert h b r).Regs := by
  dsimp only [State.exInsert]
  split
  · next s1 i e => exact (hs.exSlot.of_fst e).setEx.touchEntries
  · next s1 e => exact hs.exSlot.of_fst e

protected theorem State.Regs.learnInsert (hs : s.Regs) {h : Half} {b : Nat} {r : BatchRec} : (s.learnInsert h b r).Regs := by
  dsimp only [State.learnInsert]
  refine .ite hs.bump ?_
  split
  · exact hs.setEx.touchEntries
  · split
    · next s1 i e => exact (hs.exSlot.of_fst e).setEx.touchEntries
    · next s1 e => exact (hs.exSlot.of_fst e).bump

protected theorem State.Regs.applyExact (hs : s.Regs) {h : Half} {b : Nat} {r : BatchRec} : (s.applyExact h b r).Regs :=
  .ite hs.learnInsert (.touchEntries (.exRetire (.ite hs hs.exInsert)))

protected theorem State.Regs.applyRoute (hs : s.Regs) {h : Half} {b : Nat} {r : BatchRec} : (s.applyRoute h b r).Regs :=
  hs.updTab.touchEntries

protected theorem State.Regs.applyIndexed (hs : s.Regs) {h : Half} {b : Nat} {r : BatchRec} : (s.applyIndexed h b r).Regs :=
  .touchEntries (.ite (.ite hs.updEntries hs.updEntries) (.ite hs.setMeter hs.updTab))

protected theorem State.Regs.applyRec (hs : s.Regs) {h : Half} {b : Nat} {r : BatchRec} : (s.applyRec h b r).Regs :=
  .notePeak (.ite hs.applyExact (.ite hs.applyRoute hs.applyIndexed))

protected theorem State.Regs.forgetWithheld (hs : s.Regs) {h : Half} {t i : Nat} : (s.forgetWithheld h t i).Regs :=
  .ite hs.updTab.rest hs.updTab

protected theorem State.Regs.settle (hs : s.Regs) {h : Half} {b : Nat} {walk : Bool} {t : Touch} : (s.settle h b walk t).Regs := by
  dsimp only [State.settle]
  split
  · split
    · exact .ite hs (.ite hs.dropEx.forgetWithheld hs.setEx)
    · exact hs
  · refine .ite ?_ (.ite hs.setMeter hs.updTab)
    split
    · exact .ite hs.updEntries.forgetWithheld hs.updEntries
    · exact hs
  · exact hs.updTab
  · exact hs.updTab
  · exact hs.updTab

protected theorem State.Regs.buildEnds (hs : s.Regs) {h : Half} {b : Nat} : (s.buildEnds h b).Regs := hs.updTab

protected theorem State.Regs.undone (hs : s.Regs) {h : Half} {b : Nat} : (s.undone h b).Regs := .ite hs.updSlot hs.updSlot.bump.buildEnds

protected theorem State.Regs.startUndo (hs : s.Regs) {h : Half} {b : Nat} {abort : Bool} : (s.startUndo h b abort).Regs :=
  .ite hs.updSlot.undone hs.updSlot

protected theorem State.Regs.refuseRec (hs : s.Regs) {h : Half} {b reason : Nat} : (s.refuseRec h b reason).Regs := hs.updSlot.startUndo

protected theorem State.Regs.postSlot (hs : s.Regs) {h : Half} {b : Nat} {e : DWord} : (s.postSlot h b e).Regs :=
  .ite hs.updSlot (.ite hs.updSlot hs.updSlot)

protected theorem State.Regs.buildDone (hs : s.Regs) {h : Half} {b : Nat} : (s.buildDone h b).Regs := by
  dsimp only [State.buildDone]
  split
  · exact hs.updSlot.buildEnds.postSlot
  · exact hs.updSlot.buildEnds

protected theorem State.Regs.nextRec (hs : s.Regs) {h : Half} {x : BatchSlot} : (s.nextRec h x).1.Regs := by
  dsimp only [State.nextRec]
  exact .ite_fst hs (.ite_fst hs.hbmRead hs.hbmRead.hbmRead)

protected theorem State.Regs.doRecordApply (hs : s.Regs) {h : Half} : (doRecordApply h s).Regs := by
  dsimp only [doRecordApply]
  split
  · exact hs
  · refine .ite hs ?_
    refine .ite hs.buildDone ?_
    split
    · next s1 e => exact (hs.nextRec.of_fst e).refuseRec
    · next s1 r total e =>
        exact .ite ((hs.nextRec.of_fst e).refuseRec)
          (.ite ((hs.nextRec.of_fst e).applyRec.updSlot.buildDone) ((hs.nextRec.of_fst e).applyRec.updSlot))

protected theorem State.Regs.doUndoStep (hs : s.Regs) {h : Half} {b : Nat} : (doUndoStep h b s).Regs := by
  dsimp only [doUndoStep]
  refine .ite hs ?_
  split
  · exact hs.undone
  · exact .ite hs.settle.updSlot.undone hs.settle.updSlot

protected theorem State.Regs.retired (hs : s.Regs) {h : Half} {b : Nat} : (s.retired h b).Regs := hs.updSlot.bump

protected theorem State.Regs.doRetireStart (hs : s.Regs) {h : Half} {b : Nat} : (doRetireStart h b s).Regs :=
  .ite (.ite hs.retired hs.updSlot) hs

protected theorem State.Regs.doRetireWalk (hs : s.Regs) {h : Half} {b : Nat} : (doRetireWalk h b s).Regs := by
  dsimp only [doRetireWalk]
  refine .ite hs ?_
  split
  · exact hs.retired
  · exact .ite hs.settle.updSlot.retired hs.settle.updSlot

protected theorem State.Regs.cmdIgnored (hs : s.Regs) {h : Half} : (s.cmdIgnored h).Regs := hs.bump

protected theorem State.Regs.buildCmd (hs : s.Regs) {h : Half} {b : Nat} {post : Bool} : (s.buildCmd h b post).Regs :=
  .ite hs.updSlot.updTab hs.cmdIgnored

protected theorem State.Regs.batchCmd (hs : s.Regs) {h : Half} {b cmd : Nat} : (s.batchCmd h b cmd).Regs := by
  dsimp only [State.batchCmd]
  split
  · exact hs.buildCmd
  · exact .ite hs.postSlot hs.cmdIgnored
  · exact hs.buildCmd
  · exact .ite hs.startUndo hs.cmdIgnored
  · exact .ite hs.updSlot hs.cmdIgnored
  · exact hs

protected theorem State.Regs.versionEnds (hs : s.Regs) {h : Half} : (s.versionEnds h).Regs :=
  .updTab (hs.foldl fun h1 => .ite (.updSlot (h1.foldl fun h2 => h2.settle)) h1)

/-! ### Assoc -/

protected theorem State.Regs.updAssoc (hs : s.Regs) {h : Half} {f : AssocState → AssocState} : (s.updAssoc h f).Regs := hs.rest

protected theorem State.Regs.setBankStat (hs : s.Regs) {h : Half} {v : DWord} : (s.setBankStat h v).Regs := hs.setReg.rest

protected theorem State.Regs.bankFails (hs : s.Regs) {h : Half} {b : Nat} : (s.bankFails h b).Regs :=
  .ite hs.updAssoc.setBankStat.report hs.updAssoc.setBankStat.report

protected theorem State.Regs.doAssocScrub (hs : s.Regs) {h : Half} {i : Nat} {ecc : EccOutcome} {found : Bool} :
    (doAssocScrub h i ecc found s).Regs := by
  dsimp only [doAssocScrub]
  refine .ite hs ?_
  split
  · exact .ite hs.report.bump.updAssoc.bankFails hs.report.bump.updAssoc
  · exact .ite (.bankFails (.ite hs.report.bump hs)) (.ite hs.report.bump hs)

protected theorem State.Regs.doAssocRepaired (hs : s.Regs) {h : Half} {i : Nat} : (doAssocRepaired h i s).Regs :=
  .ite hs.fromShadow.updAssoc hs

protected theorem State.Regs.doSpareFilled (hs : s.Regs) {h : Half} : (doSpareFilled h s).Regs := .ite hs.setRfld hs

/-! ### Bramble -/

protected theorem State.Regs.countScan (hs : s.Regs) {h : Half} {t : TileIx} {n m : Nat} {incomplete : Bool} :
    (s.countScan h t n m incomplete).Regs := by
  unfold State.countScan
  extract_lets b s1 s2
  have h1 : s2.Regs := .ite hs.bump.bumpBy.bump hs.bump.bumpBy
  exact .ite h1.bump h1

protected theorem State.Regs.doScanStart (hs : s.Regs) {h : Half} {t : TileIx} : (doScanStart h t s).Regs := by
  dsimp only [doScanStart]
  refine .ite ?_ hs
  split
  · exact hs.updTile.updTask
  · exact hs

protected theorem State.Regs.doScanEnd (hs : s.Regs) {h : Half} {t : TileIx} {k : Nat} : (doScanEnd h t k s).Regs :=
  .ite hs.updTile.updTask.countScan.dcDown hs

protected theorem State.Regs.doBrambleScrub (hs : s.Regs) {h : Half} {t : TileIx} {p : Nat} {ecc : EccOutcome} :
    (doBrambleScrub h t p ecc s).Regs := by
  dsimp only [doBrambleScrub]
  refine .ite ?_ hs
  split
  · exact hs
  · exact hs.report
  · exact hs.updTile.report

protected theorem State.Regs.doBrambleReload (hs : s.Regs) {h : Half} {t : TileIx} {p : Nat} : (doBrambleReload h t p s).Regs :=
  .ite hs.updTile hs

/-! ### Link -/

protected theorem State.Regs.checkPortCfg (hs : s.Regs) {p : PortIx} : (s.checkPortCfg p).Regs := .ite hs.setRfld hs

protected theorem State.Regs.doAttemptEnd (hs : s.Regs) {p : PortIx} {ok : Bool} {mode : Nat} : (doAttemptEnd p ok mode s).Regs :=
  .ite hs (.ite hs.checkPortCfg (.ite hs (.ite (.portReturns (.setReg (.ite hs.calApply hs))) hs)))

protected theorem State.Regs.dropLink (hs : s.Regs) {p : PortIx} : (s.dropLink p).Regs := hs.abortRx.setReg.portFalls

protected theorem State.Regs.doLinkDown (hs : s.Regs) {p : PortIx} : (doLinkDown p s).Regs := .ite hs.dropLink hs

protected theorem State.Regs.doRemoteFault (hs : s.Regs) {p : PortIx} {on : Bool} : (doRemoteFault p on s).Regs := .ite hs.setRfld hs

/-! ### Ring -/

protected theorem State.Regs.ringPut (hs : s.Regs) {h : Half} {r : Nat} {req : HbmReq} {f : RingFrame} : (s.ringPut h r req f).Regs := by
  dsimp only [State.ringPut]
  exact .ite
    (.ite (.setEv (.setReg (.hbmWrite (.ite_fst hs hs.hbmWrite)))) (.setReg (.hbmWrite (.ite_fst hs hs.hbmWrite))))
    (.hbmWrite (.ite_fst hs hs.hbmWrite))

protected theorem State.Regs.p129Tick (hs : s.Regs) : s.p129Tick.Regs := .ite hs.rest hs

protected theorem State.Regs.ringSizeWrite (hs : s.Regs) {h : Half} {r : Nat} : (s.ringSizeWrite h r).Regs := hs.setRfld.setRfld

/-! ### Egress -/

protected theorem State.Regs.bumpTx (hs : s.Regs) {h : Half} {lp m n : Nat} : (s.bumpTx h lp m n).Regs := hs.bumpBy

protected theorem State.Regs.selectHead (hs : s.Regs) {h : Half} {q : Nat} {e : QEntry} {rest : List QEntry} :
    (s.selectHead h q e rest).Regs := .updSched (.setSels (.withSched hs (fun h1 => h1.selectTags.setQueue)))

protected theorem State.Regs.dropHead (hs : s.Regs) {h : Half} {q : Nat} {e : QEntry} {rest : List QEntry} :
    (s.dropHead h q e rest).Regs := .release (.withSched hs (fun h1 => h1.setQueue))

protected theorem State.Regs.doSchedSelect (hs : s.Regs) {h : Half} {lp : Nat} : (doSchedSelect h lp s).Regs := by
  dsimp only [doSchedSelect]
  refine .ite ?_ hs
  refine .ite ?_ hs.schedRefresh
  split
  · exact hs.schedRefresh
  · split
    · exact hs.schedRefresh
    · exact .ite hs.schedRefresh
        (.ite
           (.errorDrop (.withSched hs.schedRefresh (fun h1 => h1.setQueue)))
           (.ite hs.schedRefresh.dropHead.bumpTx hs.schedRefresh.selectHead))

protected theorem State.Regs.rewriteBytes (hs : s.Regs) {h : Half} {lp : Nat} {e : QEntry} : (s.rewriteBytes h lp e).1.Regs := by
  dsimp only [State.rewriteBytes]
  refine .ite_fst ?_ ?_
  · split
    · refine .bumpTx ?_
      refine .ite_fst ?_ hs
      split
      · exact hs
      · exact hs.bumpTx
    · refine .bumpTx ?_
      refine .ite_fst ?_ hs
      split
      · exact hs
      · exact hs.bumpTx
  · refine .ite_fst ?_ hs
    split
    · exact hs
    · exact hs.bumpTx

protected theorem State.Regs.doRewrite (hs : s.Regs) {h : Half} {lp : Nat} : (doRewrite h lp s).Regs := by
  dsimp only [doRewrite]
  split
  · exact hs
  · exact .ite hs (.ite hs.setSels.errorDrop hs.rewriteBytes.setSels)

protected theorem State.Regs.capture (hs : s.Regs) {p : PortIx} {g : List Byte} {o tx : Nat} : (s.capture p g o tx).Regs := by
  dsimp only [State.capture]
  exact .ite hs.setRfld hs.updIng

protected theorem State.Regs.ptpOp (hs : s.Regs) {p : PortIx} {d : ODesc} {g : List Byte} : (s.ptpOp p d g).1.Regs := by
  dsimp only [State.ptpOp]
  split
  · exact hs
  · refine .ite_fst ?_ hs
    split
    · exact hs.capture
    · exact hs
    · exact hs

protected theorem State.Regs.popTxts (hs : s.Regs) {p : PortIx} : (s.popTxts p).Regs := hs.updIng

protected theorem State.Regs.telemPut (hs : s.Regs) {h : Half} {bs : List Byte} : (s.telemPut h bs).Regs := by
  dsimp only [State.telemPut]
  refine .ite hs.bump ?_
  split
  · next s1 e => exact hs.hbmWrite.of_fst e
  · next s1 e => exact .ite (.svcEvent (.bump (.setRfld (hs.hbmWrite.of_fst e)))) (.bump (.setRfld (hs.hbmWrite.of_fst e)))

protected theorem State.Regs.telemetry (hs : s.Regs) {h : Half} {lp : Nat} {f : Sel} : (s.telemetry h lp f).Regs :=
  .ite (.ite hs.updSched hs.telemPut) hs

protected theorem State.Regs.telemTick (hs : s.Regs) {h : Half} : (s.telemTick h).Regs := by
  dsimp only [State.telemTick]
  split
  · exact hs
  · exact .ite hs hs.updSched.telemPut

protected theorem State.Regs.telemSizeWrite (hs : s.Regs) {h : Half} : (s.telemSizeWrite h).Regs := hs.setRfld.setRfld

protected theorem State.Regs.firstBit (hs : s.Regs) {h : Half} {lp : Nat} {f : Sel} : (s.firstBit h lp f).Regs :=
  .telemetry (.ite hs.bumpTx.bumpTx.bumpTx hs.bumpTx.bumpTx)

protected theorem State.Regs.loopChain (hs : s.Regs) {h : Half} {id : Nat} {g : List Byte} : (s.loopChain h id g).1.Regs := by
  dsimp only [State.loopChain]
  exact .ite_fst (.ite hs.updBuf.growChain hs.updBuf) hs.addChain

protected theorem State.Regs.doTransmit (hs : s.Regs) {h : Half} {lp : Nat} : (doTransmit h lp s).Regs := by
  dsimp only [doTransmit]
  split
  · exact hs
  · exact .ite hs
      (.ite hs
         (.ite hs.setSels.errorDrop
            (.ite hs.firstBit.ptpOp.setSels
               (.ite (.updIng (.ite hs.firstBit.setSels.loopChain hs.firstBit.setSels.loopChain.release)) hs.firstBit.setSels.rest))))

protected theorem State.Regs.doReadEnd (hs : s.Regs) {h : Half} {lp : Nat} : (doReadEnd h lp s).Regs := by
  dsimp only [doReadEnd]
  split
  · exact hs
  · exact .ite hs.setSels.bumpPort.release (.ite hs.setSels.errorDrop hs.setSels.release)

protected theorem State.Regs.doFrameOut (hs : s.Regs) {h : Half} {lp : Nat} : (doFrameOut h lp s).Regs := .ite hs hs.setSels

protected theorem State.Regs.doRingDeliver (hs : s.Regs) {h : Half} {v : Fin 2} : (doRingDeliver h v s).Regs := by
  dsimp only [doRingDeliver]
  split
  · exact hs
  · exact .ite hs (.ite hs.setSels.errorDrop (.release (.setSels (.ite hs.firstBit.ringPut hs.firstBit.rest))))

protected theorem State.Regs.doShaperRefill (hs : s.Regs) {h : Half} {level : Fin 3} {i : Nat} : (doShaperRefill h level i s).Regs :=
  .ite hs.setBucket.schedRefresh hs

protected theorem State.Regs.schedTickPort (hs : s.Regs) {h : Half} {lp : Nat} : (State.schedTickPort h s lp).Regs :=
  .ite (.bumpTx (.ite hs.bumpTx hs)) (.ite hs.bumpTx hs)

/-! ### Ford -/

protected theorem State.Regs.updFord (hs : s.Regs) {h : Half} {f : FordState → FordState} : (s.updFord h f).Regs := hs.rest

protected theorem State.Regs.endCrossing (hs : s.Regs) {h : Half} {id : Nat} : (s.endCrossing h id).Regs := hs.rest.updFord.release

protected theorem State.Regs.doCrossSend (hs : s.Regs) {h : Half} : (doCrossSend h s).Regs := by
  dsimp only [doCrossSend]
  split
  · exact hs
  · exact .ite (.ite hs.pointerFault.bumpPort.endCrossing hs.updFord.updFord.bump) hs

protected theorem State.Regs.takeCrossing (hs : s.Regs) {h : Half} {r : CrossRec} : (s.takeCrossing h r).Regs := by
  dsimp only [State.takeCrossing]
  refine .ite ?_ hs.bump
  split
  · exact hs.addChain.rest.updBuf
  · exact hs.addChain.rest.updBuf

protected theorem State.Regs.doCrossReceipt (hs : s.Regs) {h : Half} : (doCrossReceipt h s).Regs := by
  dsimp only [doCrossReceipt]
  split
  · exact hs
  · exact .ite hs.updFord.takeCrossing.examineFrom.updFord.bump hs

protected theorem State.Regs.doCrossAck (hs : s.Regs) {h : Half} : (doCrossAck h s).Regs := by
  dsimp only [doCrossAck]
  split
  · exact hs
  · exact .ite hs.updFord.endCrossing hs.updFord

protected theorem State.Regs.doNoticeSend (hs : s.Regs) {h : Half} : (doNoticeSend h s).Regs := .ite hs.updFord hs

protected theorem State.Regs.doNoticeReceive (hs : s.Regs) {h : Half} : (doNoticeReceive h s).Regs := by
  dsimp only [doNoticeReceive]
  split
  · exact hs
  · exact hs.updFord.rest.updTab

protected theorem State.Regs.doHeartbeatSend (hs : s.Regs) {h : Half} : (doHeartbeatSend h s).Regs := .ite hs.updFord hs

protected theorem State.Regs.doHeartbeatReceive (hs : s.Regs) {h : Half} : (doHeartbeatReceive h s).Regs := by
  dsimp only [doHeartbeatReceive]
  split
  · exact hs
  · exact hs.updFord

protected theorem State.Regs.doFatalNotice (hs : s.Regs) {h : Half} : (doFatalNotice h s).Regs := .ite hs.updFord hs

protected theorem State.Regs.unavailableH1 (hs : s.Regs) : s.unavailableH1.Regs := hs.rest

protected theorem State.Regs.runFree (hs : s.Regs) : s.runFree.Regs := hs.rest

protected theorem State.Regs.losePeerWork (hs : s.Regs) {h : Half} : (s.losePeerWork h).Regs := by
  unfold State.losePeerWork
  extract_lets f s1 s2
  have h1 : s2.Regs := hs.bump.updFord.foldl fun h1 => h1.endCrossing.bump
  exact .updTime (.ite h1.dropHalfLocks h1.unavailableH1)

protected theorem State.Regs.losePeer (hs : s.Regs) {h : Half} : (s.losePeer h).Regs := hs.report.losePeerWork

protected theorem State.Regs.doPeerLost (hs : s.Regs) {h : Half} : (doPeerLost h s).Regs := .ite hs.losePeer hs

protected theorem State.Regs.holdBasis (hs : s.Regs) {h : Half} {v : Nat} : (s.holdBasis h v).Regs := hs.setReg.updTab

protected theorem State.Regs.doPeerUp (hs : s.Regs) {h : Half} : (doPeerUp h s).Regs := .ite (.updFord (.ite hs.holdBasis hs)) hs

protected theorem State.Regs.useSpare (hs : s.Regs) {h : Half} {b lane : Nat} : (s.useSpare h b lane).Regs := hs.updFord.rest

protected theorem State.Regs.doFordTrained (hs : s.Regs) {h : Half} {failed : List (Nat × Nat)} : (doFordTrained h failed s).Regs :=
  .ite (.setReg (.used (.rest (.updFord (hs.foldl fun h1 => h1.useSpare))))) hs

protected theorem State.Regs.doFordFlit (hs : s.Regs) {h : Half} {x : FordFlit} : (doFordFlit h x s).Regs :=
  .ite (.ite hs.updFord hs.bump) hs

protected theorem State.Regs.fordFallsWork (hs : s.Regs) {h : Half} : (s.fordFallsWork h).Regs := hs.runFree.updFord

protected theorem State.Regs.fordFalls (hs : s.Regs) {h : Half} : (s.fordFalls h).Regs := hs.fordFallsWork.report

protected theorem State.Regs.fenceBundle (hs : s.Regs) {h : Half} {b : Nat} : (s.fenceBundle h b).Regs := hs.updFord.rest

protected theorem State.Regs.dropFord (hs : s.Regs) {h : Half} : (s.dropFord h).Regs := .ite hs.fordFalls hs

protected theorem State.Regs.doFordDown (hs : s.Regs) {h : Half} : (doFordDown h s).Regs := .ite hs.fordFalls hs

protected theorem State.Regs.laneFails (hs : s.Regs) {h : Half} {b lane : Nat} : (s.laneFails h b lane).Regs :=
  .ite hs (.ite hs.updFord (.ite hs.fenceBundle.report.fordFalls hs.fenceBundle.report))

protected theorem State.Regs.doLaneCheck (hs : s.Regs) {h : Half} {b lane errors : Nat} : (doLaneCheck h b lane errors s).Regs :=
  .ite (.ite hs.updFord.laneFails hs.updFord) hs

protected theorem State.Regs.doLaneRepaired (hs : s.Regs) {h : Half} {b lane : Nat} : (doLaneRepaired h b lane s).Regs :=
  .ite hs.updFord.useSpare.bump.report hs

/-! ### HbmParts -/

protected theorem State.Regs.finishPart (hs : s.Regs) {h : Half} {q : HbmPart} {d : PartData} : (s.finishPart h q d).Regs :=
  hs.updResponse

protected theorem State.Regs.failParts (hs : s.Regs) {h : Half} {st : Fin 2} : (s.failParts h st).Regs :=
  hs.updHbm.foldl fun h1 => h1.finishPart

/-! ### Learn -/

protected theorem State.Regs.notePut (hs : s.Regs) {h : Half} {bs : List Byte} : (s.notePut h bs).Regs := by
  dsimp only [State.notePut]
  refine .ite hs.bump ?_
  split
  · next s1 e => exact hs.hbmWrite.of_fst e
  · next s1 e => exact .ite (.svcEvent (.setRfld (hs.hbmWrite.of_fst e))) (.setRfld (hs.hbmWrite.of_fst e))

protected theorem State.Regs.learnNote (hs : s.Regs) {h : Half} {n : Note} : (s.learnNote h n).Regs :=
  .ite hs.used.updTab hs.used.notePut

protected theorem State.Regs.noteTick (hs : s.Regs) {h : Half} : (s.noteTick h).Regs := by
  dsimp only [State.noteTick]
  split
  · exact hs
  · exact .ite hs hs.updTab.notePut

protected theorem State.Regs.noteSizeWrite (hs : s.Regs) {h : Half} : (s.noteSizeWrite h).Regs := hs.setRfld.setRfld

protected theorem State.Regs.learnRefresh (hs : s.Regs) {h : Half} {i : Nat} {e : ExEntry} : (s.learnRefresh h i e).Regs := hs.setEx

protected theorem State.Regs.queueLearn (hs : s.Regs) {h : Half} {w : LearnWrite} : (s.queueLearn h w).Regs :=
  .ite hs (.ite hs.bump hs.updTab)

protected theorem State.Regs.doLearnExamine (hs : s.Regs) {h : Half} : (doLearnExamine h s).Regs := by
  dsimp only [doLearnExamine]
  split
  · exact hs
  · refine .ite ?_ hs
    split
    · exact hs.updTab.learnRefresh
    · exact .ite hs.updTab.queueLearn hs.updTab
    · exact hs.updTab.bump
    · exact hs.updTab.queueLearn

protected theorem State.Regs.shareLearn (hs : s.Regs) {h : Half} {w : LearnWrite} : (s.shareLearn h w).Regs := .ite hs.rest hs

protected theorem State.Regs.doLearnWrite (hs : s.Regs) {h : Half} : (doLearnWrite h s).Regs := by
  dsimp only [doLearnWrite]
  split
  · exact hs
  · refine .ite ?_ hs
    split
    · exact hs.updTab.learnRefresh
    · exact hs.updTab.bump
    · exact .ite hs.updTab.setEx.bump.learnNote.shareLearn hs.updTab
    · split
      · next s2 i e => exact (hs.updTab.exSlot.of_fst e).setEx.bump.learnNote.shareLearn
      · next s2 e => exact (hs.updTab.exSlot.of_fst e).bump.learnNote

protected theorem State.Regs.doLearnShare (hs : s.Regs) {h : Half} : (doLearnShare h s).Regs := by
  dsimp only [doLearnShare]
  split
  · exact hs
  · exact .ite hs.rest.updTab hs.rest

protected theorem State.Regs.ageExact (hs : s.Regs) {h : Half} {i : Nat} : (s.ageExact h i).Regs := by
  dsimp only [State.ageExact]
  split
  · exact hs
  · exact .ite hs (.ite (.ite hs.dropEx.bump.learnNote hs.setEx) (.ite hs.setEx.learnNote hs.setEx))

protected theorem State.Regs.ageFlow (hs : s.Regs) {h : Half} {slot : Nat} : (s.ageFlow h slot).Regs := by
  dsimp only [State.ageFlow]
  refine .ite ?_ ?_
  · split
    · exact .ite hs.flowRemove.bump hs
    · exact hs
  · refine .ite ?_ hs
    split
    · next s1 r e => exact .ite ((hs.flowRead.of_fst e).flowRemove.bump) (hs.flowRead.of_fst e)
    · next s1 e => exact (hs.flowRead.of_fst e).flowLost

protected theorem State.Regs.doAgingVisit (hs : s.Regs) {h : Half} {flow : Bool} {i : Nat} : (doAgingVisit h flow i s).Regs :=
  .ite (.ite hs.ageFlow hs.ageExact) hs

protected theorem State.Regs.leaveBatch (hs : s.Regs) {h : Half} {i : Nat} {e : ExEntry} : (s.leaveBatch h i e).Regs :=
  .dropEx (.ite hs hs.dropTouch)

protected theorem State.Regs.learnedLost (hs : s.Regs) {h : Half} {i : Nat} : (s.learnedLost h i).Regs := by
  dsimp only [State.learnedLost]
  split
  · exact .ite hs.leaveBatch.learnNote hs
  · exact hs

protected theorem State.Regs.withhold (hs : s.Regs) {h : Half} {t i : Nat} : (s.withhold h t i).Regs := hs.updTab

protected theorem State.Regs.doEntryRepaired (hs : s.Regs) {h : Half} {t i : Nat} : (doEntryRepaired h t i s).Regs :=
  .ite hs.fromShadow.updTab hs

protected theorem State.Regs.doShadowVisit (hs : s.Regs) {h : Half} {t i : Nat} {differs last : Bool} :
    (doShadowVisit h t i differs last s).Regs :=
  .ite (.ite (.setReg (.ite (.ite hs.report.bump.updTab hs.report.bump) hs)) (.ite (.ite hs.report.bump.updTab hs.report.bump) hs)) hs

protected theorem State.Regs.doShadowRepaired (hs : s.Regs) {h : Half} {t i : Nat} : (doShadowRepaired h t i s).Regs :=
  .ite hs.fromShadow.updTab.bump hs

/-! ### ThreadCtl -/

protected theorem State.Regs.haltNow (hs : s.Regs) {th : ThreadRef} : (s.haltNow th).Regs := by
  dsimp only [State.haltNow]
  split
  · split
    · exact hs.updThread.updTask
    · exact hs.updThread
  · exact hs.updThread

protected theorem State.Regs.resumeNow (hs : s.Regs) {th : ThreadRef} : (s.resumeNow th).Regs := by
  dsimp only [State.resumeNow]
  split
  · split
    · exact hs.updThread.updTask
    · exact hs.updThread
  · exact hs.updThread

protected theorem State.Regs.doThreadHalt (hs : s.Regs) {th : ThreadRef} : (doThreadHalt th s).Regs := .ite hs.updThread hs

protected theorem State.Regs.doHaltComplete (hs : s.Regs) {th : ThreadRef} : (doHaltComplete th s).Regs := .ite hs.haltNow hs

protected theorem State.Regs.doThreadResume (hs : s.Regs) {th : ThreadRef} : (doThreadResume th s).Regs := .ite hs.resumeNow hs

protected theorem State.Regs.doThreadPost (hs : s.Regs) {th : ThreadRef} : (doThreadPost th s).Regs := hs.raiseInt

protected theorem State.Regs.doThreadKill (hs : s.Regs) {th : ThreadRef} : (doThreadKill th s).Regs := by
  dsimp only [doThreadKill]
  split
  · split
    · exact hs.discardTask.updThread
    · exact hs
  · exact hs

protected theorem State.Regs.doEvPost (hs : s.Regs) {th : ThreadRef} {m : Word} : (doEvPost th m s).Regs := hs.setEv

protected theorem State.Regs.doThreadCtl (hs : s.Regs) {th : ThreadRef} {v : DWord} : (doThreadCtl th v s).Regs := by
  unfold doThreadCtl
  extract_lets s1 s2 s3
  have h1 : s1.Regs := .ite hs.doThreadHalt hs
  have h2 : s2.Regs := .ite h1.doThreadResume h1
  have h3 : s3.Regs := .ite h2.doThreadKill h2
  exact .ite h3.doThreadPost h3

/-! ### UnitEnd -/

theorem Tbl.above_filterMap {α : Type} {g : Nat × α → Option (Nat × α)} (hg : ∀ e f, g e = some f → f.1 = e.1) {t : Tbl α}
    {k : Nat} (ht : Tbl.above t k) : Tbl.above (t.filterMap g) k := by
  intro f hf
  obtain ⟨e, he, hef⟩ := List.mem_filterMap.mp hf
  exact hg e f hef ▸ ht e he

theorem Tbl.wf_filterMap {α : Type} {g : Nat × α → Option (Nat × α)} (hg : ∀ e f, g e = some f → f.1 = e.1) {t : Tbl α}
    (ht : Tbl.wf t = true) : Tbl.wf (t.filterMap g) = true := by
  induction t with
  | nil => rfl
  | cons e r ih =>
    obtain ⟨ha, hr⟩ := (tbl_wf_cons e r).mp ht
    cases he : g e with
    | none => rw [List.filterMap_cons_none he]; exact ih hr
    | some f =>
      rw [List.filterMap_cons_some he]
      exact (tbl_wf_cons f _).mpr ⟨hg e f he ▸ Tbl.above_filterMap hg ha, ih hr⟩

protected theorem State.Regs.clearRegs (hs : s.Regs) {s0 : State} {us : List UnitId} {dest : UState} : (s.clearRegs s0 us dest).Regs := by
  refine ⟨Tbl.wf_filterMap (fun e f hf => ?_) hs.csr, hs.staged, hs.units⟩
  split at hf
  · cases hf; rfl
  · split at hf
    · obtain ⟨v, -, rfl⟩ := Option.map_eq_some_iff.mp hf; rfl
    · cases hf; rfl

protected theorem State.Regs.endCore (hs : s.Regs) {h : Half} {t : TileIx} {c k : Fin 4} {dest : UState} {reason : Nat} :
    (s.endCore h t c k dest reason).Regs := by
  dsimp only [State.endCore]
  refine hs.foldl fun h1 => ?_
  refine .updThread ?_
  split
  · exact h1.discardTask
  · exact h1

protected theorem State.Regs.endCluster (hs : s.Regs) {h : Half} {t : TileIx} {c : Fin 4} : (s.endCluster h t c).Regs := by
  dsimp only [State.endCluster]
  refine .foldl (.foldl (hs.updTile.rest.foldl fun h1 => .ite h1.settleSlot h1.dcDown) fun h1 => .ite h1.settleSlot h1.dcDown) fun h1 => ?_
  refine .releaseInst ?_
  split
  · exact h1.updTile
  · exact h1

protected theorem State.Regs.endTile (hs : s.Regs) {h : Half} {t : TileIx} {dest : UState} : (s.endTile h t dest).Regs :=
  .updTile (hs.foldl fun h1 => h1.discardTask)

protected theorem State.Regs.endPort (hs : s.Regs) {p : PortIx} : (s.endPort p).Regs := .updIng (.ite hs.dropLink hs.abortRx)

protected theorem State.Regs.endBuffer (hs : s.Regs) {h : Half} : (s.endBuffer h).Regs := hs.updBuf.rest

protected theorem State.Regs.endSched (hs : s.Regs) {h : Half} : (s.endSched h).Regs := .updSched (hs.foldl fun h1 => h1.loseSelected)

protected theorem State.Regs.dropQueued (hs : s.Regs) {h : Half} {st : Fin 2} : (s.dropQueued h st).Regs :=
  hs.foldl fun h1 => h1.foldl fun h2 => h2.used.updHbm

protected theorem State.Regs.endHbmc (hs : s.Regs) {h : Half} {st : Fin 2} : (s.endHbmc h st).Regs := hs.failParts.dropQueued.updHbm

protected theorem State.Regs.endFord (hs : s.Regs) {h : Half} : (s.endFord h).Regs := .updFord (.runFree (.ite hs.losePeer hs))

protected theorem State.Regs.endTable (hs : s.Regs) {h : Half} {n : Fin 8} {dest : UState} : (s.endTable h n dest).Regs :=
  .ite hs.versionEnds (.ite hs.updTab (.ite hs.updTab (.ite hs.updTab hs)))

protected theorem State.Regs.endInFlight (hs : s.Regs) {h : Half} {dest : UState} : (s.endInFlight h dest).Regs := by
  unfold State.endInFlight
  extract_lets s1 s2
  have h1 : s1.Regs := hs.foldl fun h1 => h1.endTile.foldl fun h2 => h2.endCluster
  have h2 : s2.Regs := h1.foldl fun h2 => h2.abortRx
  exact h2.foldl fun h3 => h3.loseSelected

protected theorem State.Regs.endHalf (hs : s.Regs) {h : Half} {dest : UState} : (s.endHalf h dest).Regs :=
  hs.endInFlight.dropHalfLocks.versionEnds.endFord.dropQueued.dropQueued.endBuffer.rest

protected theorem State.Regs.endUnit (hs : s.Regs) {u : UnitId} {dest : UState} : (s.endUnit u dest).Regs := by
  dsimp only [State.endUnit]
  split
  · exact hs.endHalf
  · exact hs.endCore
  · exact hs.endCluster
  · exact hs.endTile
  · exact hs.endPort
  · exact hs.endBuffer
  · exact hs.endSched
  · exact hs.endHbmc
  · exact hs.endFord
  · exact hs.endTable
  · exact hs

/-! ### Trans -/

protected theorem State.Regs.settleForce (hs : s.Regs) {u : UnitId} {st : UState} : (s.settleForce u st).Regs := .ite hs hs.setRfld

protected theorem State.Regs.settleCommits (hs : s.Regs) : s.settleCommits.Regs := hs.rest

protected theorem State.Regs.endWork (hs : s.Regs) {us : List UnitId} {dest : UState} : (s.endWork us dest).Regs :=
  hs.foldl fun h1 => .ite h1 h1.endUnit

protected theorem State.Regs.beginEntry (hs : s.Regs) {root : UnitId} {dest : UState} {cause : BitVec 8} :
    (s.beginEntry root dest cause).Regs := by
  unfold State.beginEntry
  extract_lets us s1 s2
  have h1 : s2.Regs := hs.endWork.clearRegs.foldl fun h1 => h1.updUnit.settleForce
  exact .ite h1 h1.rest.settleCommits

protected theorem State.Regs.setUState (hs : s.Regs) {u : UnitId} {st : UState} {cause : BitVec 8} : (s.setUState u st cause).Regs :=
  hs.updUnit

protected theorem State.Regs.takeDts (hs : s.Regs) {h : Half} : (s.takeDts h).Regs := hs.updTime

protected theorem State.Regs.fenceLost (hs : s.Regs) {h : Half} {t : TileIx} : (s.fenceLost h t).Regs := by
  dsimp only [State.fenceLost]
  refine .ite ?_ ?_
  · refine .setUState ?_
    split
    · exact hs.setUState
    · exact hs
  · split
    · exact hs.setUState
    · exact hs

protected theorem State.Regs.reapplyMaps (hs : s.Regs) {h : Half} : (s.reapplyMaps h).Regs :=
  .updFord (.setReg (hs.foldl fun h1 => h1.fenceLost))

protected theorem State.Regs.leaveReset (hs : s.Regs) {u : UnitId} : (s.leaveReset u).Regs := by
  dsimp only [State.leaveReset]
  split
  · exact hs.reapplyMaps.takeDts
  · exact hs

protected theorem State.Regs.startCores (hs : s.Regs) {h : Half} : (s.startCores h).Regs := hs.rest

protected theorem State.Regs.onActive (hs : s.Regs) {u : UnitId} : (s.onActive u).Regs := by
  dsimp only [State.onActive]
  split
  · exact hs.checkPortCfg
  · exact .ite hs.updHub.startCores hs.updHub
  · exact .ite hs.holdBasis.holdBasis hs
  · exact .ite hs.updTile hs
  · exact hs

protected theorem State.Regs.leaveActive (hs : s.Regs) {u : UnitId} : (s.leaveActive u).Regs := by
  dsimp only [State.leaveActive]
  split
  · exact .ite hs.dropLink hs.abortRx
  · exact hs

protected theorem State.Regs.enterUp (hs : s.Regs) {u : UnitId} {st : UState} {cause : BitVec 8} : (s.enterUp u st cause).Regs := by
  unfold State.enterUp
  extract_lets s1 s2
  have h1 : s1.Regs := .ite hs.leaveReset (.ite hs.leaveActive hs)
  exact .ite h1.setUState.settleForce.onActive h1.setUState.settleForce

protected theorem State.Regs.enterTest (hs : s.Regs) {u : UnitId} {cause : BitVec 8} : (s.enterTest u cause).Regs :=
  hs.enterUp.foldl fun h1 => h1.enterUp

protected theorem State.Regs.activeTree (hs : s.Regs) {u : UnitId} {cause : BitVec 8} : (s.activeTree u cause).Regs :=
  hs.foldl fun h1 => .ite h1.enterUp h1

protected theorem State.Regs.completeEntry (hs : s.Regs) {u : UnitId} : (s.completeEntry u).Regs := by
  dsimp only [State.completeEntry]
  refine hs.foldl fun h1 => ?_
  split
  · exact h1
  · split
    · exact .ite h1.setUState.enterUp h1.setUState
    · exact h1.setUState

protected theorem State.Regs.reqReset (hs : s.Regs) {a : Agent} {u : UnitId} : (s.reqReset a u).Regs := .ite hs.beginEntry hs

protected theorem State.Regs.reqTest (hs : s.Regs) {a : Agent} {u : UnitId} : (s.reqTest a u).Regs := .ite hs.enterTest hs

protected theorem State.Regs.reqActive (hs : s.Regs) {a : Agent} {u : UnitId} : (s.reqActive a u).Regs := .ite hs.enterUp hs

protected theorem State.Regs.reqFence (hs : s.Regs) {a : Agent} {u : UnitId} : (s.reqFence a u).Regs := .ite hs.beginEntry hs

protected theorem State.Regs.reqOff (hs : s.Regs) {a : Agent} {u : UnitId} : (s.reqOff a u).Regs := .ite hs.beginEntry hs

protected theorem State.Regs.reqTree (hs : s.Regs) {a : Agent} {u : UnitId} : (s.reqTree a u).Regs := .ite hs.activeTree hs

protected theorem State.Regs.request (hs : s.Regs) {a : Agent} {u : UnitId} {r : Nat} : (s.request a u r).Regs := by
  dsimp only [State.request]
  split
  · exact hs.reqReset
  · exact hs.reqTest
  · exact hs.reqActive
  · exact hs.reqFence
  · exact hs.reqOff
  · exact hs.reqTree
  · exact hs

protected theorem State.Regs.fenceUnit (hs : s.Regs) {u : UnitId} {cause : BitVec 8} : (s.fenceUnit u cause).Regs :=
  .ite hs.beginEntry hs

protected theorem State.Regs.doEntryComplete (hs : s.Regs) {u : UnitId} : (doEntryComplete u s).Regs := .ite hs.completeEntry hs

protected theorem State.Regs.setDev (hs : s.Regs) {d : DevState} : (s.setDev d).Regs :=
  .ite (hs.rest.foldl fun h1 => .ite h1 h1.setRfld) hs.rest

protected theorem State.Regs.doDevRun (hs : s.Regs) {a : Agent} : (doDevRun a s).Regs := .ite hs.setDev hs

protected theorem State.Regs.doDevRecovery (hs : s.Regs) {a : Agent} : (doDevRecovery a s).Regs := .ite hs.setDev hs

/-! ### Commit -/

protected theorem State.Regs.startCommit (hs : s.Regs) {u : UnitId} : (s.startCommit u).Regs := hs.rest.settleCommits

protected theorem State.Regs.setArmed (hs : s.Regs) {u : UnitId} {b : Bool} : (s.setArmed u b).Regs := hs.updUnit

protected theorem State.Regs.armCommit (hs : s.Regs) {u : UnitId} : (s.armCommit u).Regs := .ite hs.setArmed.startCommit hs.setArmed

protected theorem State.Regs.commitKey (hs : s.Regs) {u : UnitId} {key : Nat} : (s.commitKey u key).Regs := by
  dsimp only [State.commitKey]
  split
  · exact hs.startCommit
  · exact hs.armCommit
  · exact hs.setArmed
  · exact hs

protected theorem State.Regs.doArmedStart (hs : s.Regs) {u : UnitId} : (doArmedStart u s).Regs := .ite hs.setArmed.startCommit hs

protected theorem State.Regs.doCommitReach (hs : s.Regs) {u : UnitId} : (doCommitReach u s).Regs := hs.rest.settleCommits

protected theorem State.Regs.applyReg (hs : s.Regs) {b : Blk} {off : Nat} : (s.applyReg b off).Regs := by
  dsimp only [State.applyReg]
  split
  · exact .ite hs.setReg hs
  · exact hs

protected theorem State.Regs.applyRegs (hs : s.Regs) {u : UnitId} : (s.applyRegs u).Regs := by
  dsimp only [State.applyRegs]
  refine hs.foldl fun h1 => ?_
  split
  · exact h1.applyReg
  · exact h1

protected theorem State.Regs.refillPort (hs : s.Regs) {h : Half} {lp : Nat} : (s.refillPort h lp).Regs := by
  unfold State.refillPort
  exact .setBucket (.foldl (hs.foldl fun h1 => h1.setBucket) fun h1 => h1.setBucket)

protected theorem State.Regs.applySched (hs : s.Regs) {h : Half} : (s.applySched h).Regs :=
  .foldl (.applyRegs (hs.foldl fun h1 => h1.refillPort)) fun h1 => h1.schedRefresh

protected theorem State.Regs.applySides (hs : s.Regs) {p : PortIx} : (s.applySides p).Regs := hs.rest

protected theorem State.Regs.towardsSafe (hs : s.Regs) {u : UnitId} : (s.towardsSafe u).Regs := by
  dsimp only [State.towardsSafe]
  split
  · exact hs.applySides
  · exact hs

protected theorem State.Regs.applyCommit (hs : s.Regs) {u : UnitId} : (s.applyCommit u).Regs := by
  dsimp only [State.applyCommit]
  refine .settleCommits ?_
  refine .rest ?_
  refine .updUnit ?_
  split
  · exact hs.applySched
  · exact hs.applyRegs

protected theorem State.Regs.doCommitApply (hs : s.Regs) {u : UnitId} : (doCommitApply u s).Regs :=
  .ite hs.towardsSafe.applyCommit hs.towardsSafe

/-! ### React -/

protected theorem State.Regs.pulse (hs : s.Regs) {h : Half} : (s.pulse h).Regs := hs.updHub

protected theorem State.Regs.doPulseEnd (hs : s.Regs) : (doPulseEnd s).Regs := hs.rest

protected theorem State.Regs.toRecovery (hs : s.Regs) : s.toRecovery.Regs := .ite hs.setDev hs

protected theorem State.Regs.countSkew (hs : s.Regs) {h : Half} : (s.countSkew h).Regs := hs.updTime

protected theorem State.Regs.noteFatal (hs : s.Regs) {h : Half} {u : UnitId} {injected : Bool} : (s.noteFatal h u injected).Regs :=
  hs.rest

protected theorem State.Regs.fatalHalf (hs : s.Regs) {h : Half} {cause : BitVec 8} {u : UnitId} : (s.fatalHalf h cause u).Regs :=
  .ite (.ite hs.pulse.toRecovery.noteFatal hs.pulse.toRecovery) hs.pulse.toRecovery.updFord.updHub.bump.noteFatal.fenceUnit

protected theorem State.Regs.fatalDevice (hs : s.Regs) {cause : BitVec 8} : (s.fatalDevice cause).Regs := hs.fatalHalf.fatalHalf

protected theorem State.Regs.updSpare (hs : s.Regs) {h : Half} {t : TileIx} {f : SpareInfo → SpareInfo} : (s.updSpare h t f).Regs :=
  hs.updTile

protected theorem State.Regs.settleSpare (hs : s.Regs) {h : Half} {t : TileIx} : (s.settleSpare h t).Regs := by
  unfold State.settleSpare
  exact hs.updSpare

protected theorem State.Regs.fenceSpare (hs : s.Regs) {h : Half} {t : TileIx} : (s.fenceSpare h t).Regs := hs.fenceUnit

protected theorem State.Regs.physFails (hs : s.Regs) {h : Half} {t : TileIx} {phys : Nat} {injected : Bool} :
    (s.physFails h t phys injected).Regs := by
  dsimp only [State.physFails]
  refine .ite hs ?_
  split
  · exact hs.updSpare.openRecord.updSpare.fenceSpare.openRecord
  · exact hs.updSpare.openRecord.endCore.updSpare.fenceSpare.openRecord
  · exact .ite hs.updSpare.openRecord.updSpare.fenceUnit hs.updSpare.openRecord.fenceUnit.updSpare.openRecord

protected theorem State.Regs.coreReport (hs : s.Regs) {u : UnitId} {injected : Bool} : (s.coreReport u injected).Regs := by
  dsimp only [State.coreReport]
  split
  · exact .ite hs.updSpare.physFails hs.updSpare
  · exact hs

protected theorem State.Regs.coreFaultTask (hs : s.Regs) {h : Half} {t : TileIx} {n : Fin 128} : (s.coreFaultTask h t n).Regs := by
  dsimp only [State.coreFaultTask]
  split
  · exact hs.discardTask
  · exact hs

protected theorem State.Regs.doHandover (hs : s.Regs) {h : Half} {t : TileIx} : (doHandover h t s).Regs :=
  .ite (.bump (.enterUp (.updSpare (.ite hs.applyCommit hs)))) hs

protected theorem State.Regs.spareTested (hs : s.Regs) {h : Half} {t : TileIx} {ok : Bool} : (s.spareTested h t ok).Regs :=
  .ite (.ite hs.setUState.settleForce.setReg.bump.updSpare.settleSpare hs.report.physFails) hs

protected theorem State.Regs.applyAll (hs : s.Regs) {h : Half} {b : Nat} {l : List BatchRec} {t : State}
    (e : s.applyAll h b l = some t) : t.Regs := by
  induction l generalizing s with
  | nil => cases e; exact hs
  | cons r rest ih =>
    unfold State.applyAll at e
    split at e
    · exact ih hs.applyRec e
    · cases e

protected theorem State.Regs.doReweight (hs : s.Regs) {h : Half} {t : TileIx} : (doReweight h t s).Regs := by
  dsimp only [doReweight]
  refine .ite ?_ hs
  split
  · exact hs
  · exact hs.updSpare
  · split
    · next s1 e => exact (hs.updSlot.applyAll e).updSlot.postSlot.updSpare
    · exact hs.bump

protected theorem State.Regs.dropMailbox (hs : s.Regs) {slots : List Nat} : (s.dropMailbox slots).Regs := hs.foldl fun h1 => h1.setReg

protected theorem State.Regs.setPrivet (hs : s.Regs) {p : PrivetRun} : (s.setPrivet p).Regs := hs.rest

protected theorem State.Regs.restartPrivet (hs : s.Regs) {cause : BitVec 8} : (s.restartPrivet cause).Regs :=
  .dropMailbox (hs.setPrivet.rest.foldl fun h1 => h1.beginEntry)

protected theorem State.Regs.fencePrivet (hs : s.Regs) {cause : BitVec 8} : (s.fencePrivet cause).Regs :=
  .dropMailbox (hs.setPrivet.foldl fun h1 => h1.beginEntry)

protected theorem State.Regs.heartbeatActs (hs : s.Regs) {h : Half} {injected : Bool} : (s.heartbeatActs h injected).Regs :=
  .ite hs.fencePrivet.openRecord hs.restartPrivet

protected theorem State.Regs.countLoss (hs : s.Regs) {h : Half} : (s.countLoss h).Regs := hs.updHub

protected theorem State.Regs.doHbWindow (hs : s.Regs) {h : Half} : (doHbWindow h s).Regs :=
  .ite hs (.ite hs.updHub (.ite hs.updHub.countLoss hs.updHub.countLoss.report.heartbeatActs))

protected theorem State.Regs.doHbWrite (hs : s.Regs) {a : Agent} {h : Half} : (doHbWrite a h s).Regs := .ite hs.updHub hs

protected theorem State.Regs.doPrivetRelease (hs : s.Regs) {a : Agent} {h : Half} : (doPrivetRelease a h s).Regs :=
  .ite hs.rest.restartPrivet hs

protected theorem State.Regs.discardRx (hs : s.Regs) {h : Half} {port stamp : Nat} : (s.discardRx h port stamp).Regs := by
  dsimp only [State.discardRx]
  split
  · exact hs.cutFrame
  · exact .ite hs.dropFrame.updIng.bump hs.dropFrame.updIng
  · exact .ite hs.dropFrame.updIng.bump hs.dropFrame.updIng
  · exact .ite (.ite hs.dropFrame.updIng.bump hs.dropFrame.updIng) hs
  · exact hs

protected theorem State.Regs.stompTx (hs : s.Regs) {p : PortIx} {stamp : Nat} : (s.stompTx p stamp).Regs := .ite hs.setSels.bumpPort hs

protected theorem State.Regs.reactTile (hs : s.Regs) {h : Half} {t : TileIx} {f : Found} : (s.reactTile h t f).Regs :=
  .ite hs.updTile (.ite hs.updTile (.ite hs.discardTask (.ite hs.updTile (.ite (.ite hs.updTile.bump hs) hs))))

protected theorem State.Regs.reactCore (hs : s.Regs) {h : Half} {t : TileIx} {c k : Fin 4} {f : Found} : (s.reactCore h t c k f).Regs :=
  .ite hs.coreFaultTask.coreReport (.ite (.coreReport (hs.foldl fun h1 => h1.coreFaultTask)) (.ite hs.raiseInt.bump hs))

protected theorem State.Regs.reactTable (hs : s.Regs) {h : Half} {n : Fin 8} {f : Found} : (s.reactTable h n f).Regs :=
  .ite hs.withhold
    (.ite hs.learnedLost (.ite (.ite hs.loseLine (.ite hs.updTab hs)) (.ite (.ite hs.flowClear hs) (.ite (.ite hs.bump.updTab hs.bump) hs))))

protected theorem State.Regs.fenceBank (hs : s.Regs) {h : Half} {k : Nat} : (s.fenceBank h k).Regs := .ite hs.updBuf.setRfld hs

protected theorem State.Regs.dropSpilled (hs : s.Regs) {h : Half} {block : Nat} : (s.dropSpilled h block).Regs := by
  dsimp only [State.dropSpilled]
  split
  · exact hs.setSpill.bumpPort
  · exact hs

protected theorem State.Regs.dropUser (hs : s.Regs) {h : Half} {id : Nat} : (s.dropUser h id).Regs := by
  dsimp only [State.dropUser]
  split
  · exact .ite hs.setSels.bumpPort.release hs.setSels.bumpPort
  · split
    · exact .release (.bumpPort (.withSched hs (fun h1 => h1.setQueue)))
    · split
      · exact hs.updBuf.bumpPort.release.settleReg
      · split
        · exact hs.setSpill.bumpPort.release
        · split
          · exact hs.bumpPort.endCrossing
          · exact .ite hs.bump.updBuf.release.settleReg hs.bump

protected theorem State.Regs.pointerFails (hs : s.Regs) {h : Half} {cell : Nat} : (s.pointerFails h cell).Regs := by
  dsimp only [State.pointerFails]
  split
  · exact hs.bump
  · exact .dropUser (.ite hs.updChain hs.updBuf)

protected theorem State.Regs.reactBuffer (hs : s.Regs) {h : Half} {f : Found} : (s.reactBuffer h f).Regs := by
  dsimp only [State.reactBuffer]
  refine .ite hs.updBuf ?_
  refine .ite hs.pointerFails ?_
  refine .ite ?_ (.ite hs.dropSpilled (.ite hs.updBuf (.ite hs.fenceBank hs)))
  split
  · exact .ite hs hs.updChain
  · exact hs

protected theorem State.Regs.flushPort (hs : s.Regs) {h : Half} {lp : Nat} : (s.flushPort h lp).Regs :=
  hs.loseSelected.updSched.setHold.updBuf.flushEnd

protected theorem State.Regs.reactHbmc (hs : s.Regs) {h : Half} {st : Fin 2} {f : Found} : (s.reactHbmc h st f).Regs :=
  .ite hs.bump
    (.ite hs.bump.updHbm.rowFails (.ite hs.bump (.ite hs.fenceUnit (.ite (.ite hs.updHbm.updHbm.openRecord.fenceUnit hs.updHbm.updHbm) hs))))

protected theorem State.Regs.reactFord (hs : s.Regs) {h : Half} {f : Found} : (s.reactFord h f).Regs :=
  .ite (.ite hs hs.countSkew)
    (.ite (.ite hs.fenceBundle.fordFalls hs.fenceBundle) (.ite hs.fordFallsWork (.ite (.ite hs.losePeerWork hs) hs)))

protected theorem State.Regs.lockLost (hs : s.Regs) {h : Half} {num : Nat} : (s.lockLost h num).Regs := by
  dsimp only [State.lockLost]
  split
  · exact hs.passOn.settlePrio.bump
  · exact hs

protected theorem State.Regs.react (hs : s.Regs) {f : Found} : (s.react f).Regs := by
  dsimp only [State.react]
  split
  · exact .ite hs (.fatalDevice (.ite hs.setRfld hs))
  · exact .ite hs.discardRx (.ite hs.fatalHalf hs)
  · exact .ite hs.fatalHalf (.ite hs.countLoss.heartbeatActs (.ite hs.fencePrivet hs))
  · exact hs.reactTile
  · exact .ite hs.updTile hs
  · exact hs.reactCore
  · exact .ite (.ite hs.stompTx hs.discardRx) (.ite hs.fenceUnit hs)
  · exact hs.reactTable
  · exact .ite (.ite hs.updAssoc.bankFails hs.updAssoc) hs
  · exact hs.reactBuffer
  · exact .ite hs.flushPort hs
  · exact hs.reactHbmc
  · exact hs.reactFord
  · exact .ite hs.lockLost hs
  · exact .ite hs.restartPrivet (.ite hs.rest hs)
  · exact hs
  · exact hs

protected theorem State.Regs.faultAt (hs : s.Regs) {f : Found} : (s.faultAt f).Regs := by
  dsimp only [State.faultAt]
  split
  · exact hs
  · exact hs.openRecord.react

protected theorem State.Regs.fault (hs : s.Regs) {u : UnitId} {code : Nat} {d : optParam DWord 0} : (s.fault u code d).Regs := by
  dsimp only [State.fault]
  exact hs.found.faultAt

protected theorem State.Regs.doFaultReport (hs : s.Regs) {u : UnitId} {code : Nat} {d : DWord} : (doFaultReport u code d s).Regs :=
  .ite hs.fault hs

protected theorem State.Regs.force (hs : s.Regs) {u : UnitId} {code : Nat} : (s.force u code).Regs := hs.used.faultAt

protected theorem State.Regs.forceWrite (hs : s.Regs) {u : UnitId} {v : Nat} : (s.forceWrite u v).Regs :=
  .ite (hs.setRfld.foldl fun h1 => h1.force) hs

protected theorem State.Regs.armInv (hs : s.Regs) {u : UnitId} {sel : Nat} : (s.armInv u sel).Regs := .ite hs.setRfld.updUnit hs.setRfld

protected theorem State.Regs.recLoRead (hs : s.Regs) {a : Agent} {h : Half} : (s.recLoRead a h).Regs := hs.updHub

protected theorem State.Regs.recHiRead (hs : s.Regs) {a : Agent} {h : Half} : (s.recHiRead a h).1.Regs := by
  dsimp only [State.recHiRead]
  split
  · exact hs.updHub
  · exact hs

protected theorem State.Regs.recAck (hs : s.Regs) {a : Agent} {h : Half} {slot merged : Nat} : (s.recAck a h slot merged).Regs := by
  dsimp only [State.recAck]
  split
  · exact hs
  · exact .ite hs (.ite hs.bump (hs.foldl fun h1 => h1.updHub))

protected theorem State.Regs.detailARead (hs : s.Regs) {a : Agent} {h : Half} : (s.detailARead a h).1.Regs := by
  dsimp only [State.detailARead]
  split
  · exact hs.updHub
  · exact hs.updHub

protected theorem State.Regs.detailBRead (hs : s.Regs) {a : Agent} {h : Half} : (s.detailBRead a h).1.Regs := by
  dsimp only [State.detailBRead]
  split
  · exact hs.updHub
  · exact hs

protected theorem State.Regs.doPstoreRewrite (hs : s.Regs) {h : Half} {t : TileIx} {bank : Bool} {addr : Nat} :
    (doPstoreRewrite h t bank addr s).Regs := hs.updTile

/-! ### Flash -/

protected theorem State.Regs.updPv (hs : s.Regs) {f : PrivetState → PrivetState} : (s.updPv f).Regs := hs.rest

protected theorem State.Regs.flashWrite (hs : s.Regs) {a : Nat} {bs : List Byte} : (s.flashWrite a bs).Regs := hs.updPv

protected theorem State.Regs.flashErase (hs : s.Regs) {a n : Nat} : (s.flashErase a n).Regs := hs.updPv

protected theorem State.Regs.eraseSector (hs : s.Regs) {k : Nat} : (s.eraseSector k).Regs := hs.updPv

protected theorem State.Regs.doEraseDone (hs : s.Regs) {k : Nat} : (doEraseDone k s).Regs := .ite hs.flashErase.updPv hs

protected theorem State.Regs.dirWrite (hs : s.Regs) {k e : Nat} : (s.dirWrite k e).Regs := by
  dsimp only [State.dirWrite]
  exact hs.flashWrite

protected theorem State.Regs.dirPut (hs : s.Regs) {k e : Nat} : (s.dirPut k e).Regs := .ite hs.updPv hs.dirWrite

protected theorem State.Regs.dirFlush (hs : s.Regs) : s.dirFlush.Regs := hs.updPv.foldl fun h1 => h1.dirWrite

protected theorem State.Regs.chooseSlot (hs : s.Regs) {kind : Nat} : (s.chooseSlot kind).1.Regs := by
  dsimp only [State.chooseSlot]
  refine .ite_fst hs (.ite_fst hs.dirPut ?_)
  dsimp only
  exact hs.dirPut.updPv

protected theorem State.Regs.bootSlot (hs : s.Regs) {kind : Nat} : (s.bootSlot kind).1.Regs := by
  dsimp only [State.bootSlot]
  exact .ite_fst hs.chooseSlot (.ite_fst hs.chooseSlot hs.chooseSlot)

/-! ### Store -/

protected theorem State.Regs.calWrite (hs : s.Regs) {user : Nat} : (s.calWrite user).Regs := .ite hs hs.updPv

protected theorem State.Regs.storeCommit (hs : s.Regs) {t : State} (e : s.storeCommit = some t) : t.Regs := by
  unfold State.storeCommit at e
  dsimp only at e
  split at e
  · cases e
  · split at e
    · cases e; exact hs.flashWrite.updPv.eraseSector.eraseSector
    · cases e; exact hs.flashWrite.updPv

protected theorem State.Regs.commitStore (hs : s.Regs) : s.commitStore.Regs := .getD (fun e => hs.storeCommit e) hs

protected theorem State.Regs.storeAgain (hs : s.Regs) : s.storeAgain.Regs := by
  dsimp only [State.storeAgain]
  split
  · exact hs.updPv
  · split
    · exact hs.updPv
    · exact hs.updPv.flashWrite.flashWrite

protected theorem State.Regs.doAutoCommit (hs : s.Regs) : (doAutoCommit s).Regs :=
  .ite (.ite (.commitStore (.ite hs.storeAgain hs)) (.ite hs.storeAgain hs)) hs

protected theorem State.Regs.storeRead (hs : s.Regs) : s.storeRead.1.Regs := by
  dsimp only [State.storeRead]
  split
  · exact hs
  · exact hs.report
  · exact hs.report
  · exact hs.report

protected theorem State.Regs.applyEntry (hs : s.Regs) {typ : Nat} {e : List Byte} : (s.applyEntry typ e).Regs := by
  dsimp only [State.applyEntry]
  split
  · exact hs.setBankStat
  · exact hs.foldl fun h1 => h1.fenceBank
  · exact hs.updSpare.fenceLost
  · exact .ite hs.updPv hs.updHbm
  · exact hs.updHbm
  · exact .ite hs.updFord.updPv hs
  · exact hs

protected theorem State.Regs.settleRepair (hs : s.Regs) {h : Half} {st : Fin 2} : (s.settleRepair h st).Regs := hs.setRfld.setRfld

protected theorem State.Regs.applyMaps (hs : s.Regs) {r : StoreRec} : (s.applyMaps r).Regs := by
  unfold State.applyMaps
  extract_lets s1 s2
  have h1 : s1.Regs := hs.foldl fun h1 => h1.foldl fun h2 => h2.applyEntry
  exact h1.settleRepair.settleRepair.settleRepair.settleRepair.updPv

protected theorem State.Regs.doHubEvent (hs : s.Regs) {h : Half} : (doHubEvent h s).Regs := by
  dsimp only [doHubEvent]
  split
  · exact hs
  · exact .ite (.ite hs.updHub hs.updHub.updPv) hs

protected theorem State.Regs.logWrite (hs : s.Regs) : s.logWrite.Regs := by
  dsimp only [State.logWrite]
  split
  · exact hs
  · exact .ite (.ite hs.flashWrite.updPv hs.flashWrite.updPv.eraseSector) hs

protected theorem State.Regs.flushLog (hs : s.Regs) : s.flushLog.Regs := hs.foldl fun h1 => h1.logWrite

protected theorem State.Regs.doLogFlush (hs : s.Regs) : (doLogFlush s).Regs := .ite hs.flushLog hs

protected theorem State.Regs.logBoot (hs : s.Regs) : s.logBoot.Regs := by
  unfold State.logBoot
  exact hs.updPv

/-! ### Image -/

protected theorem State.Regs.loadProgram (hs : s.Regs) {h : Half} {b : Nat} {bs : List Byte} {entry : Nat} :
    (s.loadProgram h b bs entry).Regs := hs.foldl fun h1 => h1.updTile.setRfld

protected theorem State.Regs.loadParse (hs : s.Regs) {h : Half} {b : Nat} {bs : List Byte} : (s.loadParse h b bs).Regs := hs.updIng

protected theorem State.Regs.loadBanks (hs : s.Regs) {c : List Byte} {h : Half} {b : Nat} : (s.loadBanks c h b).Regs :=
  hs.foldl fun h1 => .ite h1.loadProgram (.ite h1.loadParse h1)

protected theorem State.Regs.loadCode (hs : s.Regs) {c : List Byte} {h : Half} : (s.loadCode c h).1.Regs := by
  dsimp only [State.loadCode]
  exact .foldl_fst hs fun h1 => h1.hbmPlace

protected theorem State.Regs.setCcEntry (hs : s.Regs) {c : List Byte} {h : Half} : (s.setCcEntry c h).Regs := by
  dsimp only [State.setCcEntry]
  split
  · exact hs.setRfld
  · exact hs

protected theorem State.Regs.stopCores (hs : s.Regs) {h : Half} : (s.stopCores h).Regs :=
  .rest (hs.setRfld.foldl fun h1 => h1.abandonLocks)

protected theorem State.Regs.runCores (hs : s.Regs) {h : Half} : (s.runCores h).Regs := .ite hs.setRfld.startCores hs.setRfld

protected theorem State.Regs.reloadCores (hs : s.Regs) {c : List Byte} {h : Half} : (s.reloadCores c h).1.Regs := by
  dsimp only [State.reloadCores]
  exact .ite_fst hs.stopCores.loadCode.setCcEntry.runCores hs.stopCores.loadCode

protected theorem State.Regs.imgSettled (hs : s.Regs) : s.imgSettled.Regs := by
  dsimp only [State.imgSettled]
  split
  · exact .ite hs.dirPut.updPv hs
  · exact hs

protected theorem State.Regs.doSwitch (hs : s.Regs) {h : Half} : (doSwitch h s).Regs := .ite hs.doImgSwitch hs.doImgSwitch.updPv

protected theorem State.Regs.doDrainEnd (hs : s.Regs) {h : Half} : (doDrainEnd h s).Regs :=
  .ite hs.doImgDrainEnd hs.doImgDrainEnd.imgSettled

protected theorem State.Regs.runFirmware (hs : s.Regs) {build : Nat} : (s.runFirmware build).Regs := hs.updPv

protected theorem State.Regs.hostBoot (hs : s.Regs) : s.hostBoot.Regs := .ite hs.setRfld.used.runFirmware hs.setRfld.used

protected theorem State.Regs.bootFirmware (hs : s.Regs) : s.bootFirmware.Regs := by
  unfold State.bootFirmware
  extract_lets s1
  have h1 : s1.Regs := hs.updPv
  split
  · exact h1
  · exact h1.hostBoot
  · split
    next s2 slot e =>
    have h2 : s2.Regs := .of_fst (.ite_fst h1 h1.bootSlot) e
    split
    · exact h2.runFirmware
    · exact .ite h2.hostBoot h2.updPv

protected theorem State.Regs.doEntryEnd (hs : s.Regs) {u : UnitId} : (doEntryEnd u s).Regs :=
  .ite hs.doEntryComplete.updPv.bootFirmware hs.doEntryComplete

/-! ### Mailbox -/

protected theorem State.Regs.setMbCtl (hs : s.Regs) {slot : Nat} {v : DWord} : (s.setMbCtl slot v).Regs := hs.setReg

protected theorem State.Regs.mbAnswer (hs : s.Regs) {slot status : Nat} {rs : optParam (List (Nat × Nat)) []} :
    (s.mbAnswer slot status rs).Regs :=
  .ite (.setEv (.setMbCtl (hs.setReg.foldl fun h1 => h1.setReg))) (.setMbCtl (hs.setReg.foldl fun h1 => h1.setReg))

protected theorem State.Regs.mbGo (hs : s.Regs) {a : Agent} {slot : Nat} : (s.mbGo a slot).Regs :=
  .ite (.ite hs.setMbCtl.mbAnswer (.ite hs.setMbCtl.mbAnswer hs.setMbCtl)) hs

protected theorem State.Regs.mbRead (hs : s.Regs) {slot a n : Nat} : (s.mbRead slot a n).1.Regs := by
  dsimp only [State.mbRead]
  split
  · exact .ite_fst hs.rest hs
  · exact hs
  · exact hs.hbmRead

protected theorem State.Regs.mbWrite (hs : s.Regs) {slot a : Nat} {bs : List Byte} : (s.mbWrite slot a bs).1.Regs := by
  dsimp only [State.mbWrite]
  split
  · exact hs
  · exact hs
  · exact hs.hbmWrite

protected theorem State.Regs.stage (hs : s.Regs) {kind slot : Nat} {c : List Byte} : (s.stage kind slot c).1.Regs := by
  dsimp only [State.stage]
  split
  · split
    · exact hs.flashErase.flashWrite
    · exact hs.flashErase
  · exact hs.flashErase

protected theorem State.Regs.doImgStage (hs : s.Regs) {slot : Nat} : (doImgStage slot s).Regs := by
  dsimp only [doImgStage]
  refine .ite hs ?_
  refine .ite hs.mbAnswer ?_
  refine .ite hs.mbAnswer ?_
  split
  · next s1 c e =>
      split
      · next s2 e2 => exact ((hs.mbRead.of_fst e).stage.of_fst e2).mbAnswer
      · next s2 k e2 => exact ((hs.mbRead.of_fst e).stage.of_fst e2).mbAnswer
  · next s1 st _ e => exact (hs.mbRead.of_fst e).mbAnswer

protected theorem State.Regs.activateImage (hs : s.Regs) {slot img : Nat} {sw : DWord} : (s.activateImage slot img sw).Regs := by
  dsimp only [State.activateImage]
  refine .ite hs.mbAnswer ?_
  split
  · exact .ite
      (.mbAnswer (hs.foldl fun h1 => h1.loadBanks))
      (.ite
         (.mbAnswer (.foldl (.foldl (hs.foldl fun h1 => h1.loadBanks) fun h1 => h1.setReg.imgCtl) fun h1 => h1.imgCtl))
         (.mbAnswer (.imgSettled (.updPv (.foldl (hs.foldl fun h1 => h1.loadBanks) fun h1 => h1.setReg.imgCtl)))))
  · exact hs.mbAnswer

protected theorem State.Regs.activateFirmware (hs : s.Regs) {slot img : Nat} : (s.activateFirmware slot img).Regs :=
  hs.dirPut.mbAnswer.rest.reqReset.dropMailbox

protected theorem State.Regs.loadSoftware (hs : s.Regs) {img halves : Nat} : (s.loadSoftware img halves).1.Regs := by
  dsimp only [State.loadSoftware]
  split
  · dsimp only
    exact .updPv (.foldl_fst hs fun h1 => h1.reloadCores)
  · exact hs

protected theorem State.Regs.doImgActivate (hs : s.Regs) {slot : Nat} : (doImgActivate slot s).Regs := by
  dsimp only [doImgActivate]
  refine .ite hs ?_
  split
  · exact hs.mbAnswer
  · exact hs.activateFirmware
  · exact hs.activateImage
  · exact .ite hs.loadSoftware.dirPut.mbAnswer hs.loadSoftware.mbAnswer

protected theorem State.Regs.doCcReload (hs : s.Regs) {slot : Nat} : (doCcReload slot s).Regs := by
  dsimp only [doCcReload]
  exact hs.loadSoftware.mbAnswer

protected theorem State.Regs.doImgConfirm (hs : s.Regs) {slot : Nat} : (doImgConfirm slot s).Regs :=
  .ite hs (.ite hs.mbAnswer (.mbAnswer (.ite hs.dirPut.updPv hs.dirPut)))

protected theorem State.Regs.doTftpStage (hs : s.Regs) {c : List Byte} : (doTftpStage c s).Regs := .ite hs.stage hs

protected theorem State.Regs.doInfo (hs : s.Regs) {slot : Nat} : (doInfo slot s).Regs := hs.mbAnswer

protected theorem State.Regs.doStoreCommit (hs : s.Regs) {slot : Nat} : (doStoreCommit slot s).Regs := by
  dsimp only [doStoreCommit]
  refine .ite hs ?_
  split
  · next s1 e => exact (hs.storeCommit e).mbAnswer
  · exact hs.mbAnswer

protected theorem State.Regs.doLogRead (hs : s.Regs) {slot : Nat} : (doLogRead slot s).Regs := by
  dsimp only [doLogRead]
  refine .ite hs.mbAnswer ?_
  split
  · next s1 e => exact .mbAnswer (hs.mbWrite.of_fst e)
  · next s1 st e => exact .mbAnswer (hs.mbWrite.of_fst e)

protected theorem State.Regs.doI2c (hs : s.Regs) {slot : Nat} {acks : Bool} {given : List Byte} : (doI2c slot acks given s).Regs := by
  dsimp only [doI2c]
  refine .ite hs.mbAnswer ?_
  split
  · next s1 _ e =>
      refine .ite ?_ ((hs.mbRead.of_fst e).mbAnswer)
      split
      · next s2 e2 => exact .mbAnswer (.of_fst ((hs.mbRead.of_fst e).mbWrite) e2)
      · next s2 st e2 => exact .mbAnswer (.of_fst ((hs.mbRead.of_fst e).mbWrite) e2)
  · next s1 st _ e => exact (hs.mbRead.of_fst e).mbAnswer

protected theorem State.Regs.doGrant (hs : s.Regs) {slot : Nat} : (doGrant slot s).Regs := hs.setRfld.mbAnswer

protected theorem State.Regs.doChallenge (hs : s.Regs) {slot : Nat} : (doChallenge slot s).Regs := hs.rest.updPv.mbAnswer

protected theorem State.Regs.doUnlock (hs : s.Regs) {slot : Nat} : (doUnlock slot s).Regs := by
  dsimp only [doUnlock]
  split
  · next s1 token e => exact .ite ((hs.mbRead.of_fst e).updPv.mbAnswer) ((hs.mbRead.of_fst e).updPv.mbAnswer)
  · next s1 st _ e => exact (hs.mbRead.of_fst e).mbAnswer

protected theorem State.Regs.lockDebug (hs : s.Regs) : s.lockDebug.Regs := hs.updPv

protected theorem State.Regs.doTokenExpire (hs : s.Regs) {scope : Nat} : (doTokenExpire scope s).Regs := by
  dsimp only [doTokenExpire]
  split
  · exact .ite hs.updPv hs
  · exact hs

protected theorem State.Regs.moveMgmt (hs : s.Regs) : s.moveMgmt.Regs := .ite hs.setRfld hs

protected theorem State.Regs.mgmtRing (hs : s.Regs) {bytes : List Byte} : (s.mgmtRing bytes).Regs := .ite hs.ringPut hs

protected theorem State.Regs.doMgmtReceive (hs : s.Regs) {frame : List Byte} : (doMgmtReceive frame s).Regs :=
  .ite (.ite hs.moveMgmt.updPv.mgmtRing (.ite hs.moveMgmt.updPv hs.moveMgmt.mgmtRing)) hs

protected theorem State.Regs.doMgmtTransmit (hs : s.Regs) : (doMgmtTransmit s).Regs := by
  dsimp only [doMgmtTransmit]
  refine .ite ?_ hs
  split
  · exact hs
  · exact .ite (.hbmRead (.ite_fst hs hs.used)) (.setRfld (.hbmRead (.ite_fst hs hs.used)))

/-! ### Sensors -/

protected theorem State.Regs.notifyDevice (hs : s.Regs) : s.notifyDevice.Regs := .ite hs.notifyHub hs.notifyHub

protected theorem State.Regs.takeTemp (hs : s.Regs) {n : Nat} {now : Int} : (s.takeTemp n now).Regs := hs.setReg

protected theorem State.Regs.tempAlarm (hs : s.Regs) {now : Int} : (s.tempAlarm now).Regs := .ite (.ite hs hs.setRfld.notifyDevice) hs

protected theorem State.Regs.tempLimit (hs : s.Regs) {n : Nat} {now : Int} : (s.tempLimit n now).Regs := .ite hs.setRfld.fault hs

protected theorem State.Regs.tempCool (hs : s.Regs) : s.tempCool.Regs := by
  unfold State.tempCool
  exact hs.updPv

protected theorem State.Regs.doSensorSample (hs : s.Regs) {n : Nat} {raw : BitVec 16} : (doSensorSample n raw s).Regs :=
  .ite hs.takeTemp.tempAlarm.tempLimit.tempCool hs

protected theorem State.Regs.doThermalRelease (hs : s.Regs) : (doThermalRelease s).Regs := by
  dsimp only [doThermalRelease]
  split
  · exact .ite hs.setRfld.updPv hs
  · exact hs

protected theorem State.Regs.tempRead (hs : s.Regs) {n : Nat} : (s.tempRead n).Regs := hs.setReg

protected theorem State.Regs.railShow (hs : s.Regs) {m v cur : Nat} : (s.railShow m v cur).Regs := hs.used.setReg

protected theorem State.Regs.brownout (hs : s.Regs) {m : Nat} : (s.brownout m).Regs := .ite hs.fault (.ite hs.fault hs.fault)

protected theorem State.Regs.doRailSample (hs : s.Regs) {m v cur : Nat} : (doRailSample m v cur s).Regs :=
  .ite (.ite hs.railShow.updPv.brownout hs.railShow.updPv) hs

protected theorem State.Regs.doClockWindow (hs : s.Regs) {h : Half} {core ctl : Nat} : (doClockWindow h core ctl s).Regs :=
  .ite hs.fault hs

protected theorem State.Regs.stopClocks (hs : s.Regs) : s.stopClocks.Regs := hs.rest

protected theorem State.Regs.rootLost (hs : s.Regs) {code : Nat} : (s.rootLost code).Regs :=
  .ite (.ite hs.stopClocks.fault.setRfld hs.stopClocks.fault) hs

protected theorem State.Regs.doRefclkLoss (hs : s.Regs) : (doRefclkLoss s).Regs := .ite hs.updPv.rootLost hs

protected theorem State.Regs.doPllUnlock (hs : s.Regs) : (doPllUnlock s).Regs := .ite hs.updPv.rootLost hs

protected theorem State.Regs.setDroopFor (hs : s.Regs) {h : Half} {n : Nat} : (s.setDroopFor h n).Regs := hs.updPv

protected theorem State.Regs.droopRises (hs : s.Regs) {h : Half} {level : Nat} : (s.droopRises h level).Regs :=
  .ite hs.setDroopFor.setReg.bump hs.setDroopFor.setReg

protected theorem State.Regs.doDroopRise (hs : s.Regs) {h : Half} {mv : Nat} : (doDroopRise h mv s).Regs :=
  .ite hs.droopRises (.ite hs.setDroopFor hs)

protected theorem State.Regs.doDroopFall (hs : s.Regs) {h : Half} : (doDroopFall h s).Regs := .ite hs.setDroopFor.setRfld hs

protected theorem State.Regs.droopCycle (hs : s.Regs) {h : Half} : (s.droopCycle h).Regs := .ite hs.setDroopFor hs

protected theorem State.Regs.droopRead (hs : s.Regs) {h : Half} : (s.droopRead h).Regs := hs.setRfld

protected theorem State.Regs.doPowerGate (hs : s.Regs) {u : UnitId} {sleep : Bool} : (doPowerGate u sleep s).Regs := .ite hs.updUnit hs

protected theorem State.Regs.doPowerWake (hs : s.Regs) {u : UnitId} : (doPowerWake u s).Regs := .ite hs.updUnit hs

protected theorem State.Regs.doPfailAssert (hs : s.Regs) : (doPfailAssert s).Regs :=
  .ite hs (.ite (.ite hs.updPv.setReg.updPv.commitStore.flushLog.setRfld hs.updPv.setReg) hs.updPv)

protected theorem State.Regs.doPfailDeassert (hs : s.Regs) : (doPfailDeassert s).Regs := .ite hs.updPv.setRfld.dirFlush hs

/-! ### TimeCmds -/

protected theorem State.Regs.doAlignSend (hs : s.Regs) : (doAlignSend s).Regs := .ite hs.updFord hs

protected theorem State.Regs.aligned (hs : s.Regs) {h : Half} {d : Int} : (s.aligned h d).Regs := by
  unfold State.aligned
  extract_lets off s1 s2 s3
  have h1 : s3.Regs := .ite hs.rest.updTime.fault hs.rest.updTime
  exact .ite h1.fault h1

protected theorem State.Regs.doAlignReceive (hs : s.Regs) : (doAlignReceive s).Regs := by
  dsimp only [doAlignReceive]
  split
  · exact hs
  · exact .ite hs.updFord hs.updFord.updTime.aligned

/-! ### Csr -/

protected theorem State.Regs.readEffect (hs : s.Regs) {a : Agent} {u : UnitId} {b : Blk} {off : Nat} : (s.readEffect a u b off).Regs := by
  dsimp only [State.readEffect]
  split
  · exact hs
  · refine .ite hs ?_
    split
    · exact .ite hs.doPtpNsRead hs
    · exact .ite hs.droopRead hs
    · exact .ite hs.used hs
    · exact .ite hs.recLoRead (.ite hs.recHiRead (.ite hs.detailARead (.ite hs.detailBRead hs)))
    · exact .ite hs.popTxts hs
    · exact .ite hs.used hs
    · exact .ite hs.tempRead hs
    · exact hs

protected theorem State.Regs.dtsWord (hs : s.Regs) {a : Agent} {h : Half} {upper : Bool} : (s.dtsWord a h upper).1.Regs := by
  dsimp only [State.dtsWord]
  refine .ite_fst ?_ hs.doDtsNowRead
  split
  · exact hs.updTime
  · exact hs

protected theorem State.Regs.csrHole (hs : s.Regs) {addr : Nat} : (s.csrHole addr).Regs := hs.fault

protected theorem State.Regs.csrRead (hs : s.Regs) {a : Agent} {addr width : Nat} : (s.csrRead a addr width).1.Regs := by
  dsimp only [State.csrRead]
  refine .ite_fst hs ?_
  refine .ite_fst hs.csrHole ?_
  split
  · exact hs.csrHole
  · refine .ite_fst hs ?_
    split
    · exact .ite_fst hs.dtsWord hs.readEffect
    · exact hs.readEffect

protected theorem State.Regs.writeInject (hs : s.Regs) {u : UnitId} {v m : DWord} : (s.writeInject u v m).Regs := by
  unfold State.writeInject
  extract_lets s1
  have h1 : s1.Regs := .ite hs.forceWrite hs
  exact .ite (.ite h1.armInv h1.setRfld) h1

protected theorem State.Regs.writeUnitState (hs : s.Regs) {a : Agent} {u : UnitId} {v : DWord} : (s.writeUnitState a u v).Regs := by
  dsimp only [State.writeUnitState]
  split
  · exact .ite hs.doDevRun (.ite hs.doDevRecovery hs)
  · exact hs.request

protected theorem State.Regs.writeUcb (hs : s.Regs) {a : Agent} {u : UnitId} {row : RegRow} {v m : DWord} :
    (s.writeUcb a u row v m).Regs := .ite hs.writeUnitState (.ite hs.commitKey (.ite hs.writeInject (.ite hs.setReg hs.setReg)))

protected theorem State.Regs.setNosReady (hs : s.Regs) {a : Agent} : (s.setNosReady a).Regs := .ite hs.updPv hs

protected theorem State.Regs.writeSlew (hs : s.Regs) {v m : DWord} : (s.writeSlew v m).Regs := .ite hs.doSlewWrite hs.setRfld

protected theorem State.Regs.writePtpCtl (hs : s.Regs) {w : DWord} : (s.writePtpCtl w).Regs :=
  .ite hs.doPtpSet (.ite hs.doPtpAdd (.ite hs.doPtpSub hs))

protected theorem State.Regs.writeDtsCtl (hs : s.Regs) {w : DWord} : (s.writeDtsCtl w).Regs :=
  .ite (.doLoadArm (.ite hs.doLoadNow hs)) (.ite hs.doLoadNow hs)

protected theorem State.Regs.writeLocksForce (hs : s.Regs) {a : Agent} {h : Half} {w : DWord} : (s.writeLocksForce a h w).Regs :=
  .ite hs.forceLock hs

protected theorem State.Regs.writeRun (hs : s.Regs) {h : Half} {run : Bool} : (s.writeRun h run).Regs :=
  .ite hs (.ite hs.runCores hs.stopCores)

protected theorem State.Regs.writeMbox (hs : s.Regs) {a : Agent} {slot : Nat} {row : RegRow} {v m : DWord} {plain : State}
    (hp : plain.Regs) : (s.writeMbox a slot row v m plain).Regs := .ite hs (.ite (.ite hp.mbGo hp) (.ite hs hp))

protected theorem State.Regs.writePortCfg (hs : s.Regs) {p : PortIx} {off : Nat} {new : DWord} : (s.writePortCfg p off new).Regs :=
  .ite hs.setReg (.ite hs hs.setReg)

protected theorem State.Regs.writeIntCfg (hs : s.Regs) {h : Half} {t : TileIx} {new : DWord} : (s.writeIntCfg h t new).Regs := hs.setReg

protected theorem State.Regs.settleExp (hs : s.Regs) {h : Half} {was : Bool} : (s.settleExp h was).Regs :=
  .ite hs (.ite hs.portFalls hs.portReturns)

protected theorem State.Regs.writeActs (hs : s.Regs) {a : Agent} {u : UnitId} {b : Blk} {row : RegRow} {i : Nat} {v m new : DWord}
    {plain : State} (hp : plain.Regs) : (s.writeActs a u b row i v m new plain).Regs := by
  dsimp only [State.writeActs]
  split
  · exact .ite hs.writeDtsCtl
      (.ite hs.writeSlew (.ite hs.writePtpCtl (.ite hp.settleTsync (.ite (.ite hp hs.setReg) (.ite (.ite hp.setNosReady hp) hp)))))
  · exact .ite hs.imgCtl (.ite hs (.ite hp.settleExp hp))
  · exact .ite hs.writeChCfg
      (.ite (.ite hs.writeRun hs)
         (.ite (.ite hp hs) (.ite (.ite (.ite hs.setReg hs.setReg.ringSizeWrite) (.ite hp.ringSizeWrite hp)) (.ite hp.doThreadCtl hp))))
  · exact .ite (.ite hs.recAck hs) (.ite hs.doHbWrite (.ite (.ite hs.doPrivetRelease hs) hp))
  · exact .ite hp.readSel hp
  · exact .ite hp.noteSizeWrite hp
  · exact .ite hs.batchCmd hp
  · exact .ite hp.telemSizeWrite hp
  · exact .ite hs.writeLocksForce hp
  · exact .ite hp.settleSpare (.ite hs.writeIntCfg hp)
  · exact .ite hs.writePortCfg hp
  · exact .ite hs.svcConfig (.ite hs.svcPost hp)
  · exact .ite hs.writeChCfg hp
  · exact .ite hp.doThreadCtl (.ite hs.doEvPost (.ite (.ite hp hs) hp))
  · exact .ite (.ite hs.calWrite hs) hp
  · exact .writeMbox hs hp
  · exact .ite hp hs
  · exact .ite hs.lockDebug hs
  · exact hp

protected theorem State.Regs.writeReg (hs : s.Regs) {a : Agent} {u : UnitId} {b : Blk} {off : Nat} {v m : DWord} :
    (s.writeReg a u b off v m).Regs := by
  dsimp only [State.writeReg]
  split
  · exact hs
  · exact .ite hs.writeUcb (.writeActs hs hs.setReg)

protected theorem State.Regs.writeStaged (hs : s.Regs) {u : UnitId} {b : Blk} {off : Nat} {v m : DWord} :
    (s.writeStaged u b off v m).Regs := by
  dsimp only [State.writeStaged]
  refine .ite hs ?_
  split
  · exact hs
  · exact .ite hs hs.setStg

protected theorem State.Regs.csrWrite (hs : s.Regs) {a : Agent} {addr width : Nat} {v : DWord} : (s.csrWrite a addr width v).Regs := by
  dsimp only [State.csrWrite]
  refine .ite hs ?_
  refine .ite hs.csrHole ?_
  split
  · exact hs.csrHole
  · exact .ite hs.writeStaged hs.writeReg

protected theorem State.Regs.agentWrite (hs : s.Regs) {a : Agent} {u : UnitId} {b : Blk} {off : Nat} {v : DWord} :
    (s.agentWrite a u b off v).Regs := .ite hs.writeReg hs

protected theorem State.Regs.agentBatch (hs : s.Regs) {a : Agent} {h : Half} {slot : Fin 256} {cmd : Nat} :
    (s.agentBatch a h slot cmd).Regs := .ite hs.batchCmd hs

/-! ### Thread -/

protected theorem State.Regs.physRead (hs : s.Regs) {h : Half} {n : Fin 32} {pa len : Nat} : (s.physRead h n pa len).1.Regs := by
  dsimp only [State.physRead]
  split
  · exact hs.csrRead
  · exact hs.hbmRead
  · exact hs.hbmRead
  · exact hs.hbmRead
  · exact hs

protected theorem State.Regs.walk (hs : s.Regs) {h : Half} {n : Fin 32} {va level table : Nat} : (s.walk h n va level table).1.Regs := by
  induction level generalizing s table with
  | zero => exact hs
  | succ lv ih =>
    unfold State.walk
    dsimp only
    split
    · next s1 e => exact hs.physRead.of_fst e
    · next s1 bs e =>
      have h1 := hs.physRead.of_fst e
      exact .ite_fst h1 (.ite_fst (.ite_fst h1 (ih h1)) (.ite_fst h1 (.ite_fst h1 h1)))

protected theorem State.Regs.xlLookup (hs : s.Regs) {h : Half} {n : Fin 32} {va : Nat} : (s.xlLookup h n va).1.Regs := by
  dsimp only [State.xlLookup]
  split
  · exact hs
  · exact hs.walk

protected theorem State.Regs.physWrite (hs : s.Regs) {h : Half} {n : Fin 32} {pa : Nat} {bs : List Byte} {t : State}
    (e : s.physWrite h n pa bs = .done t) : t.Regs := by
  unfold State.physWrite at e
  split at e
  · cases e; exact hs.csrWrite
  · cases e; exact hs.hbmWrite
  · split at e
    · split at e
      · cases e
      · cases e; exact hs.hbmWrite.rest
    · cases e; exact hs.hbmWrite.bump
  · split at e
    · cases e; exact hs
    · cases e; exact hs.hbmWrite
  · cases e

protected theorem State.Regs.xlMark (hs : s.Regs) {h : Half} {n : Fin 32} {va : Nat} {x : XlEntry} {store : Bool} {t : State}
    (e : s.xlMark h n va x store = some t) : t.Regs := by
  dsimp only [State.xlMark] at e
  refine .ite_some (fun e => ?_) (fun e => ?_) e
  · cases e; exact hs.rest
  · split at e
    · next s1 bs e1 =>
      split at e
      · next s2 e2 => cases e; exact ((hs.physRead.of_fst e1).physWrite e2).rest
      · cases e; exact (hs.physRead.of_fst e1).rest
      · cases e
    · next s1 e1 => cases e; exact (hs.physRead.of_fst e1).rest

protected theorem State.Regs.translate (hs : s.Regs) {h : Half} {n : Fin 32} {va acc : Nat} : (s.translate h n va acc).1.Regs := by
  dsimp only [State.translate]
  refine .ite_fst hs ?_
  refine .ite_fst (.ite_fst hs hs) ?_
  split
  · next s1 e => exact hs.xlLookup.of_fst e
  · next s1 x e =>
      refine .ite_fst (hs.xlLookup.of_fst e) ?_
      refine .ite_fst (hs.xlLookup.of_fst e) ?_
      refine .ite_fst (hs.xlLookup.of_fst e) ?_
      split
      · next s2 e2 => exact (hs.xlLookup.of_fst e).xlMark e2
      · exact hs

protected theorem State.Regs.ccLoad (hs : s.Regs) {h : Half} {n : Fin 32} {va len acc : Nat} : (s.ccLoad h n va len acc).1.Regs := by
  dsimp only [State.ccLoad]
  refine .ite_fst hs ?_
  split
  · next s1 f e => exact hs.translate.of_fst e
  · next s1 pa e =>
      split
      · next s2 bs e2 => exact (hs.translate.of_fst e).physRead.of_fst e2
      · next s2 e2 => exact (hs.translate.of_fst e).physRead.of_fst e2

protected theorem State.Regs.ccStore (hs : s.Regs) {h : Half} {n : Fin 32} {va : Nat} {bs : List Byte} : (s.ccStore h n va bs).1.Regs := by
  unfold State.ccStore
  refine .ite_fst hs ?_
  split
  · next s1 f e => exact hs.translate.of_fst e
  · next s1 pa e =>
    split
    · next s2 e2 => exact (hs.translate.of_fst e).physWrite e2
    · exact hs.translate.of_fst e
    · exact hs.translate.of_fst e

protected theorem State.Regs.ccSpanFrom (hs : s.Regs) {h : Half} {n : Fin 32} {va k : Nat} : (s.ccSpanFrom h n va k).1.Regs := by
  induction k generalizing s va with
  | zero => exact hs
  | succ k ih =>
    unfold State.ccSpanFrom
    split
    · next s1 f e => exact hs.ccLoad.of_fst e
    · next s1 bs e =>
      have h2 := ih (va := va + 8) (hs.ccLoad.of_fst e)
      split
      · next s2 f e2 => exact h2.of_fst e2
      · next s2 cs e2 => exact h2.of_fst e2

protected theorem State.Regs.ccSpan (hs : s.Regs) {h : Half} {n : Fin 32} {va k : Nat} : (s.ccSpan h n va k).1.Regs := by
  dsimp only [State.ccSpan]
  split
  · next s1 bs e => exact hs.ccSpanFrom.of_fst e
  · exact hs

protected theorem State.Regs.ccWriteFrom (hs : s.Regs) {h : Half} {n : Fin 32} {va : Nat} {bs : List Byte} {k : Nat} :
    (s.ccWriteFrom h n va bs k).1.Regs := by
  induction k generalizing s va bs with
  | zero => exact hs
  | succ k ih =>
    unfold State.ccWriteFrom
    split
    · next s1 f e => exact hs.ccStore.of_fst e
    · next s1 e => exact ih (hs.ccStore.of_fst e)

protected theorem State.Regs.ccWriteSpan (hs : s.Regs) {h : Half} {n : Fin 32} {va : Nat} {bs : List Byte} {k : Nat} :
    (s.ccWriteSpan h n va bs k).1.Regs := by
  dsimp only [State.ccWriteSpan]
  split
  · next s1 e => exact hs.ccWriteFrom.of_fst e
  · exact hs

protected theorem State.Regs.load (hs : s.Regs) {th : ThreadRef} {addr len : Nat} : (s.load th addr len).1.Regs := by
  dsimp only [State.load]
  split
  · exact hs
  · exact hs.ccLoad

protected theorem State.Regs.pkStore (hs : s.Regs) {h : Half} {t : TileIx} {n : Fin 128} {addr : Nat} {bs : List Byte} {s1 : State}
    (e : s.pkStore h t n addr bs = .ok s1) : s1.Regs := by
  unfold State.pkStore at e
  dsimp only at e
  split at e
  · cases e
  · split at e
    · cases e
    · split at e
      · cases e
      · split at e
        · cases e; exact hs.updTile
        · cases e

protected theorem State.Regs.store (hs : s.Regs) {th : ThreadRef} {addr : Nat} {bs : List Byte} : (s.store th addr bs).1.Regs := by
  unfold State.store
  split
  · split
    · next s1 e => exact hs.pkStore e
    · exact hs
  · exact hs.ccStore

/-! ### FkRun -/

protected theorem State.Regs.wakeCore (hs : s.Regs) {th : ThreadRef} : (s.wakeCore th).Regs := .ite hs.updUnit hs

protected theorem State.Regs.grant (hs : s.Regs) {th : ThreadRef} : (s.grant th).Regs :=
  .rest (.ite hs.wakeCore.bumpCore.bumpCore hs.wakeCore.bumpCore)

protected theorem State.Regs.setPc (hs : s.Regs) {th : ThreadRef} {a : Nat} : (s.setPc th a).Regs := hs.updThread

protected theorem State.Regs.fetch (hs : s.Regs) {th : ThreadRef} : (s.fetch th).1.Regs := by
  dsimp only [State.fetch]
  split
  · exact .ite_fst hs hs
  · split
    · next s1 bs e => exact hs.ccLoad.of_fst e
    · next s1 f e => exact hs.ccLoad.of_fst e

protected theorem State.Regs.slotCycle (hs : s.Regs) {h : Half} : (s.slotCycle h).Regs := hs.rest

protected theorem State.Regs.trapDiscard (hs : s.Regs) {th : ThreadRef} {cause pc reason : Nat} :
    (s.trapDiscard th cause pc reason).Regs := by
  dsimp only [State.trapDiscard]
  split
  · exact hs.bumpCore.setReg.discardTask
  · exact hs

protected theorem State.Regs.kernelEntry (hs : s.Regs) {th : ThreadRef} {cause ret : Nat} {info : DWord} :
    (s.kernelEntry th cause ret info).Regs := hs.updThread

protected theorem State.Regs.squashOne (hs : s.Regs) {h : Half} {t : TileIx} {n : Fin 128} {w : Nat} {go : Bool} :
    (s.squashOne h t n w go).Regs := by
  dsimp only [State.squashOne]
  split
  · exact hs.bumpBy.bumpBy
  · exact hs.bumpBy.bumpBy.updTile

protected theorem State.Regs.squashPath (hs : s.Regs) {h : Half} {t : TileIx} {th : Fin 128} {n a c last conds fuel : Nat} :
    (s.squashPath h t th n a c last conds fuel).Regs := by
  induction fuel generalizing s n a c conds with
  | zero => exact hs
  | succ k ih =>
    unfold State.squashPath
    refine .ite hs ?_
    dsimp only
    split
    · exact hs.squashOne
    · exact ih hs.squashOne

protected theorem State.Regs.wrongPath (hs : s.Regs) {th : ThreadRef} {a : Nat} {hinted : Bool} {n : Nat} :
    (s.wrongPath th a hinted n).Regs := by
  dsimp only [State.wrongPath]
  split
  · exact hs.squashPath
  · exact hs

protected theorem State.Regs.squashBehind (hs : s.Regs) {th : ThreadRef} {a : Nat} : (s.squashBehind th a).Regs := by
  dsimp only [State.squashBehind]
  split
  · exact hs.squashPath.used
  · exact hs

protected theorem State.Regs.takeTrap (hs : s.Regs) {th : ThreadRef} {cause : Nat} {tval : DWord} {tpc at0 : Nat} :
    (s.takeTrap th cause tval tpc at0).Regs := by
  dsimp only [State.takeTrap]
  split
  · exact hs.kernelEntry
  · refine .ite (.trapDiscard (.ite hs hs.squashBehind)) ?_
    split
    · exact .trapDiscard (.ite hs hs.squashBehind)
    · exact .bumpCore (.updThread (.ite hs hs.squashBehind))

protected theorem State.Regs.failWith (hs : s.Regs) {th : ThreadRef} {at0 : Nat} {f : Fail} : (s.failWith th at0 f).Regs := by
  dsimp only [State.failWith]
  split
  · exact hs.takeTrap
  · exact hs.takeTrap.used
  · split
    · exact hs.discardTask
    · exact hs
  · exact hs

protected theorem State.Regs.putG (hs : s.Regs) {th : ThreadRef} {r v : Nat} : (s.putG th r v).Regs := hs.updThread

protected theorem State.Regs.putG64 (hs : s.Regs) {th : ThreadRef} {r v : Nat} : (s.putG64 th r v).Regs := hs.updThread

protected theorem State.Regs.stick (hs : s.Regs) {th : ThreadRef} {f : Word} : (s.stick th f).Regs := hs.updThread

protected theorem State.Regs.fkFinish (hs : s.Regs) {c : Fk} {r : FkRes} (hp : r.state.Regs) : (s.fkFinish c r).Regs := by
  dsimp only [State.fkFinish]
  split
  · exact .ite hp.setPc hs.takeTrap
  · exact .ite hp hs.takeTrap
  · exact .ite hp.setPc hs.takeTrap
  · exact .ite hp.setPc hp.takeTrap
  · exact hp.failWith
  · exact hp.takeTrap
  · exact hp

protected theorem State.Regs.fkStep (hs : s.Regs) {op : FkOp} {th : ThreadRef} {body : State → Fk → FkRes}
    (hf : ∀ {t a}, t.Regs → (body t a).state.Regs) : (s.fkStep op th body).Regs := by
  dsimp only [State.fkStep]
  refine .ite ?_ hs
  split
  · next s1 f e => exact (hs.fetch.of_fst e).failWith
  · next s1 w e =>
      split
      · exact (hs.fetch.of_fst e).grant.takeTrap
      · exact .ite (.ite (.fkFinish ((hs.fetch.of_fst e).grant) (hf ((hs.fetch.of_fst e).grant))) (hs.fetch.of_fst e)) hs

protected theorem State.Regs.fkRun (hs : s.Regs) {op : FkOp} {th : ThreadRef} {body : State → Fk → FkRes}
    (hf : ∀ {t a}, t.Regs → (body t a).state.Regs) : (s.fkRun op th body).Regs := .orWait hs (fun h1 => .fkStep h1 hf)

/-! ### Alu -/

protected theorem State.Regs.gRes (hs : s.Regs) {c : Fk} {r : Res} : (s.gRes c r).state.Regs := by
  dsimp only [State.gRes]
  exact hs.putG.stick

protected theorem State.Regs.aluBody (hs : s.Regs) {o : FkOp} {c : Fk} : (aluBody o s c).state.Regs := by
  dsimp only [aluBody]
  exact hs.gRes

protected theorem State.Regs.divBody (hs : s.Regs) {o : FkOp} {c : Fk} : (divBody o s c).state.Regs := by
  dsimp only [divBody]
  exact .ite_state hs.putG.stick hs.putG.stick

protected theorem State.Regs.setFlags (hs : s.Regs) {th : ThreadRef} {f : Word} : (s.setFlags th f).Regs := hs.updThread

protected theorem State.Regs.gRes64 (hs : s.Regs) {c : Fk} {r : Res} : (s.gRes64 c r).Regs := hs.putG64.stick

protected theorem State.Regs.alu64Body (hs : s.Regs) {c : Fk} : (alu64Body s c).state.Regs := by
  dsimp only [alu64Body]
  split
  · exact hs.setFlags
  · exact hs.setFlags
  · exact .ite_state hs.gRes64 hs.gRes64
  · exact hs

protected theorem State.Regs.aRes (hs : s.Regs) {c : Fk} {r : Res} : (s.aRes c r).state.Regs := by
  dsimp only [State.aRes]
  exact hs.updThread.stick

/-! ### Control -/

protected theorem State.Regs.branchBody (hs : s.Regs) {taken : Bool} {n : Nat} {c : Fk} : (branchBody taken n s c).state.Regs := by
  dsimp only [branchBody]
  exact .ite hs hs.bumpCore.wrongPath

protected theorem State.Regs.pushRs (hs : s.Regs) {th : ThreadRef} {a : Nat} : (s.pushRs th a).Regs := hs.updThread

/-! ### FkMem -/

protected theorem State.Regs.loadBody (hs : s.Regs) {len : Nat} {f : List Byte → Nat} {c : Fk} : (loadBody len f s c).state.Regs := by
  dsimp only [loadBody]
  split
  · next s1 bs e => exact (hs.load.of_fst e).putG
  · next s1 x e => exact hs.load.of_fst e

protected theorem State.Regs.storeBody (hs : s.Regs) {f : Nat → List Byte} {c : Fk} : (storeBody f s c).state.Regs := by
  dsimp only [storeBody]
  split
  · next s1 e => exact hs.store.of_fst e
  · next s1 x e => exact hs.store.of_fst e

protected theorem State.Regs.setDsp (hs : s.Regs) {th : ThreadRef} {v : Nat} : (s.setDsp th v).Regs := hs.updThread

protected theorem State.Regs.issueReq (hs : s.Regs) {h : Half} {t : TileIx} {n : Fin 128} {c : Fk} {r : Response} :
    (s.issueReq h t n c r).Regs := hs.updTile.dcUp

protected theorem State.Regs.frdBody (hs : s.Regs) {h : Half} {t : TileIx} {n : Fin 128} {c : Fk} : (frdBody h t n s c).state.Regs := by
  dsimp only [frdBody]
  refine .ite_state hs ?_
  split
  · exact hs
  · exact .ite_state hs hs.issueReq

protected theorem State.Regs.queueParts (hs : s.Regs) {h : Half} {t : TileIx} {resp src : Nat} {write stream : Bool} {a : Nat}
    {data : List Byte} {m : Nat} : (s.queueParts h t resp src write stream a data m).Regs :=
  hs.foldl fun h1 => .ite (.finishPart (.getD (fun e => h1.hbmStop e) h1)) h1.updHbm

protected theorem State.Regs.hbmReqBody (hs : s.Regs) {write : Bool} {h : Half} {t : TileIx} {n : Fin 128} {c : Fk} :
    (hbmReqBody write h t n s c).state.Regs := by
  dsimp only [hbmReqBody]
  refine .ite_state hs ?_
  refine .ite_state hs ?_
  refine .ite_state ?_ ?_
  · split
    · exact hs
    · exact .ite_state hs hs.issueReq.queueParts
  · split
    · exact hs
    · exact .ite_state hs hs.issueReq.queueParts

protected theorem State.Regs.doMemoryResponse (hs : s.Regs) {h : Half} {t : TileIx} {id : Nat} : (doMemoryResponse h t id s).Regs := by
  dsimp only [doMemoryResponse]
  split
  · exact .ite hs.respond hs
  · exact hs

protected theorem State.Regs.park (hs : s.Regs) {h : Half} {t : TileIx} {n : Fin 128} {k mask : Nat} : (s.park h t n k mask).Regs :=
  hs.updTask.updThread.bump

protected theorem State.Regs.twaitBody (hs : s.Regs) {h : Half} {t : TileIx} {n : Fin 128} {c : Fk} : (twaitBody h t n s c).state.Regs := by
  dsimp only [twaitBody]
  exact .ite_state hs (.ite_state hs.park hs.updThread.updTask.bump)

protected theorem State.Regs.refuseOutput (hs : s.Regs) {h : Half} {t : TileIx} {n : Fin 128} {k reason pc : Nat} :
    (s.refuseOutput h t n k reason pc).Regs := hs.bump.setReg.completeTask

protected theorem State.Regs.acceptOutput (hs : s.Regs) {h : Half} {t : TileIx} {k : Nat} {d : List Byte} :
    (s.acceptOutput h t k d).Regs := .ite hs.updBuf.rest.bump.completeTask hs.bump.bump.completeTask

protected theorem State.Regs.tdoneBody (hs : s.Regs) {h : Half} {t : TileIx} {n : Fin 128} {c : Fk} : (tdoneBody h t n s c).state.Regs := by
  dsimp only [tdoneBody]
  refine .ite_state hs.bump.completeTask ?_
  refine .ite_state hs ?_
  split
  · exact hs
  · split
    · exact hs
    · exact .ite_state hs.refuseOutput hs.acceptOutput

protected theorem State.Regs.postBytes (hs : s.Regs) {th : ThreadRef} {ga n : Nat} : (s.postBytes th ga n).1.Regs := by
  dsimp only [State.postBytes]
  split
  · split
    · exact hs
    · split
      · exact hs
      · exact hs
  · split
    · next s1 bs e => exact hs.ccSpan.of_fst e
    · next s1 x e => exact hs.ccSpan.of_fst e

/-! ### Coproc -/

protected theorem State.Regs.cpTrap (hs : s.Regs) {h : Half} {t : TileIx} {cl w status : Nat} : (s.cpTrap h t cl w status).state.Regs := by
  dsimp only [State.cpTrap]
  exact hs.bump

protected theorem State.Regs.lostTrap (hs : s.Regs) {h : Half} {t : TileIx} {n : Fin 128} {w : Nat} {e : Nat × Nat} :
    (s.lostTrap h t n w e).state.Regs := by
  dsimp only [State.lostTrap]
  exact hs.updTile.cpTrap

protected theorem State.Regs.updInst (hs : s.Regs) {q : CpCall} {f : CpInst → CpInst} : (s.updInst q f).Regs := hs.updTile

protected theorem State.Regs.toCluster (hs : s.Regs) {q : CpCall} {f : State → CpCall → FkRes}
    (hf : ∀ {t a}, t.Regs → (f t a).state.Regs) : (s.toCluster q f).state.Regs := by
  dsimp only [State.toCluster]
  exact .ite_state hs (hf hs)

protected theorem State.Regs.cpCall (hs : s.Regs) {th : ThreadRef} {op : FkOp} {f : State → CpCall → FkRes}
    (hf : ∀ {t a}, t.Regs → (f t a).state.Regs) : (cpCall th op s f).Regs := by
  dsimp only [cpCall]
  refine .fkRun hs fun h1 => ?_
  split
  · exact h1
  · split
    · exact h1.lostTrap
    · refine .ite_state ?_ (.toCluster h1 hf)
      split
      · exact .toCluster h1 hf
      · exact h1.cpTrap

protected theorem State.Regs.callTrap (hs : s.Regs) {q : CpCall} {status : Nat} : (s.callTrap q status).state.Regs := by
  dsimp only [State.callTrap]
  exact hs.cpTrap

protected theorem State.Regs.cpIssue (hs : s.Regs) {q : CpCall} {r : Response} : (s.cpIssue q r).Regs := hs.bump.issueReq

protected theorem State.Regs.cpDone (hs : s.Regs) {q : CpCall} {good : Bool} {l : Loc} {bs : List Byte} {f : State → State}
    (hf : ∀ {t}, t.Regs → (f t).Regs) : (s.cpDone q good l bs f).state.Regs := by
  dsimp only [State.cpDone]
  exact .ite_state hs (.cpIssue (.ite (hf hs) hs))

protected theorem State.Regs.lateReport (hs : s.Regs) {h : Half} {t : TileIx} {n : Nat} {f : LateFail} : (s.lateReport h t n f).Regs := by
  dsimp only [State.lateReport]
  split
  · exact hs.raiseInt.bump.bump
  · split
    · exact hs.raiseInt.bump.updTile.updThread.bump
    · exact hs.raiseInt.bump.updTile.updThread

protected theorem State.Regs.lateFail (hs : s.Regs) {h : Half} {t : TileIx} {r : Response} {status : Nat} :
    (s.lateFail h t r status).Regs := by
  dsimp only [State.lateFail]
  split
  · exact hs
  · exact .ite hs.respond.lateReport.updTile.report hs.respond.lateReport

protected theorem State.Regs.settleAfter (hs : s.Regs) {h : Half} {t : TileIx} {r : Response} : (s.settleAfter h t r).Regs := by
  dsimp only [State.settleAfter]
  split
  · exact hs.settleInst
  · exact hs

protected theorem State.Regs.doCoprocResponse (hs : s.Regs) {h : Half} {t : TileIx} {id : Nat} : (doCoprocResponse h t id s).Regs := by
  dsimp only [doCoprocResponse]
  split
  · exact hs
  · split
    · exact .ite (.settleAfter (.ite hs.lateFail hs.respond)) hs
    · exact hs

protected theorem State.Regs.doCoprocLate (hs : s.Regs) {h : Half} {t : TileIx} {id code : Nat} : (doCoprocLate h t id code s).Regs := by
  dsimp only [doCoprocLate]
  split
  · exact hs
  · split
    · exact .ite hs.lateFail.settleAfter hs
    · exact hs

protected theorem State.Regs.doCancelAck (hs : s.Regs) {h : Half} {t : TileIx} {cl : Nat} : (doCancelAck h t cl s).Regs := by
  dsimp only [doCancelAck]
  split
  · exact hs
  · exact .ite hs.updTile.bump.settleSlot hs.updTile.bump.dcDown

protected theorem State.Regs.cpLock (hs : s.Regs) {h : Half} {t : TileIx} {n : Fin 128} {k u i : Nat} : (s.cpLock h t n k u i).1.Regs := by
  dsimp only [State.cpLock]
  refine .ite_fst hs ?_
  refine .ite_fst hs ?_
  split
  · exact hs.updTile
  · exact hs.updTile.bump

protected theorem State.Regs.cpUnlock (hs : s.Regs) {h : Half} {t : TileIx} {k u i : Nat} : (s.cpUnlock h t k u i).1.Regs := by
  dsimp only [State.cpUnlock]
  refine .ite_fst hs ?_
  split
  · exact hs.releaseInst
  · exact hs

protected theorem State.Regs.statusCall (hs : s.Regs) {f : State → Half → TileIx → Fin 128 → Nat → Nat → Nat → State × Nat} {c : Fk}
    (hf : ∀ {t a b c d e f'}, t.Regs → (f t a b c d e f').1.Regs) : (statusCall f s c).state.Regs := by
  dsimp only [statusCall]
  split
  · exact hs
  · split
    · exact hs.lostTrap
    · exact .putG (hf hs)

protected theorem State.Regs.hashBody (hs : s.Regs) {span : Nat → Nat} {pick : Nat → List Byte → List Byte} {q : CpCall} :
    (hashBody span pick s q).state.Regs := by
  dsimp only [hashBody]
  refine .ite_state hs.callTrap ?_
  split
  · exact hs
  · exact hs
  · exact .cpDone hs (fun h1 => h1)

protected theorem State.Regs.fracBody (hs : s.Regs) {f : Nat → Nat → Nat → Nat → Nat × Bool × Bool} {q : CpCall} :
    (fracBody f s q).state.Regs := by
  dsimp only [fracBody]
  split
  · exact hs
  · exact .cpDone hs (fun h1 => h1.used)

protected theorem State.Regs.expBody (hs : s.Regs) {q : CpCall} : (expBody s q).state.Regs := by
  dsimp only [expBody]
  refine .ite_state hs.callTrap ?_
  split
  · exact hs
  · exact hs
  · refine .ite_state hs.callTrap ?_
    refine .ite_state hs ?_
    refine .ite_state (.cpDone hs (fun h1 => h1)) ?_
    split
    · exact hs
    · exact hs.cpIssue.used.rest

/-! ### Confirm -/

protected theorem State.Regs.confBody (hs : s.Regs) {lo hi : Nat} {f : State → CpCall → ConfString → List Byte × Bool} {q : CpCall} :
    (confBody lo hi f s q).state.Regs := by
  dsimp only [confBody]
  split
  · exact hs
  · exact hs
  · exact .ite_state hs.callTrap (.cpDone hs (fun h1 => h1))

protected theorem State.Regs.confStep (hs : s.Regs) {q : CpCall} : (confStep s q).state.Regs := by
  dsimp only [confStep]
  split
  · exact hs
  · exact .cpDone hs (fun h1 => h1.countScan)

/-! ### Events -/

protected theorem State.Regs.breakDead (hs : s.Regs) {th : ThreadRef} : (s.breakDead th).Regs := by
  dsimp only [State.breakDead]
  split
  · exact hs.updTile
  · exact hs

protected theorem State.Regs.waitevDone (hs : s.Regs) {th : ThreadRef} {gd : Nat} {mask : Word} {clear : Bool} {causes : Nat} :
    (s.waitevDone th gd mask clear causes).Regs := hs.breakDead.updThread

protected theorem State.Regs.doWaitevComplete (hs : s.Regs) {th : ThreadRef} : (doWaitevComplete th s).Regs := by
  dsimp only [doWaitevComplete]
  split
  · exact .ite hs.waitevDone hs
  · exact hs

protected theorem State.Regs.doTimerExpire (hs : s.Regs) {th : ThreadRef} : (doTimerExpire th s).Regs := by
  dsimp only [doTimerExpire]
  refine .ite ?_ hs
  split
  · exact hs.doWaitevComplete
  · exact hs.withdrawWaiter.bump.answerLock.updThread
  · exact hs

protected theorem State.Regs.enterInt (hs : s.Regs) {th : ThreadRef} {i e : Nat} : (s.enterInt th i e).Regs := by
  dsimp only [State.enterInt]
  refine .bumpCore ?_
  refine .updThread ?_
  split
  · refine .updTask ?_
    split
    · exact hs.waitevDone
    · exact hs
  · split
    · exact hs.waitevDone
    · exact hs

protected theorem State.Regs.doInterruptTake (hs : s.Regs) {th : ThreadRef} : (doInterruptTake th s).Regs := by
  dsimp only [doInterruptTake]
  refine .ite ?_ hs
  split
  · exact hs.enterInt
  · exact hs

protected theorem State.Regs.deadTile (hs : s.Regs) {h : Half} {t : TileIx} : (s.deadTile h t).Regs := .ite hs hs.updTile

protected theorem State.Regs.deadCycle (hs : s.Regs) {h : Half} : (s.deadCycle h).Regs := hs.foldl fun h1 => h1.deadTile

protected theorem State.Regs.doEventDeadlock (hs : s.Regs) {h : Half} {t : TileIx} {c k : Fin 4} : (doEventDeadlock h t c k s).Regs := by
  dsimp only [doEventDeadlock]
  refine .ite ?_ hs
  split
  · exact hs.report.bump.raiseInt.waitevDone
  · exact hs.report.bump.raiseInt

protected theorem State.Regs.putArea (hs : s.Regs) {th : ThreadRef} {ga : Nat} {bs : List Byte} : (s.putArea th ga bs).1.Regs := by
  dsimp only [State.putArea]
  split
  · split
    · exact hs
    · exact .ite_fst hs hs.updTile
  · exact hs.ccWriteSpan

/-! ### Expansion -/

protected theorem State.Regs.updExp (hs : s.Regs) {h : Half} {f : ExpState → ExpState} : (s.updExp h f).Regs := hs.rest

protected theorem State.Regs.doExpSend (hs : s.Regs) {h : Half} : (doExpSend h s).Regs := by
  dsimp only [doExpSend]
  split
  · exact hs
  · exact .ite (.ite hs.updExp hs.updExp.bump) hs

protected theorem State.Regs.expFail (hs : s.Regs) {h : Half} {status : Nat} {q : ExpReq} : (s.expFail h status q).Regs := by
  dsimp only [State.expFail]
  split
  · exact hs.updExp.lateFail.settleAfter
  · exact hs.updExp

protected theorem State.Regs.expFalls (hs : s.Regs) {h : Half} : (s.expFalls h).Regs := by
  unfold State.expFalls
  extract_lets p131 s1 s2
  have h1 : s1.Regs := hs.foldl fun h1 => h1.expFail
  exact .ite h1.updExp.portFalls h1.updExp

protected theorem State.Regs.doExpDown (hs : s.Regs) {h : Half} : (doExpDown h s).Regs := .ite hs.expFalls hs

protected theorem State.Regs.expLoses (hs : s.Regs) {h : Half} {locked : Bool} : (s.expLoses h locked).Regs :=
  .ite hs.updExp.expFalls hs.updExp

protected theorem State.Regs.doExpFlit (hs : s.Regs) {h : Half} {blocks : List (BitVec 66)} {locked : BitVec 16} {skew : Nat}
    {alignment : Bool} {numbers : List Nat} : (doExpFlit h blocks locked skew alignment numbers s).Regs :=
  .ite (.ite hs.expLoses (.ite hs.expLoses (.ite hs.updExp (.ite hs.updExp (.ite hs.bump.updExp.expFalls hs.bump.updExp))))) hs

protected theorem State.Regs.doExpUp (hs : s.Regs) {h : Half} : (doExpUp h s).Regs := .ite hs.updExp.portReturns hs

protected theorem State.Regs.doExpReplay (hs : s.Regs) {h : Half} : (doExpReplay h s).Regs := .ite hs.updExp.bump hs

protected theorem State.Regs.doExpRsp (hs : s.Regs) {h : Half} {tag status : Nat} {bytes0 : List Byte} :
    (doExpRsp h tag status bytes0 s).Regs := by
  dsimp only [doExpRsp]
  refine .ite ?_ hs
  split
  · exact hs.updExp.bump
  · split
    · exact hs.updExp.updExp.bump
    · refine .settleAfter ?_
      split
      · exact hs.updExp.updExp.bump.respond
      · exact hs.updExp.updExp.bump.respond.lateReport
      · exact hs.updExp.updExp.bump.respond

protected theorem State.Regs.doExpTimeout (hs : s.Regs) {h : Half} {tag : Nat} : (doExpTimeout h tag s).Regs := by
  dsimp only [doExpTimeout]
  split
  · exact hs
  · split
    · exact hs
    · exact .ite hs.expFail.bump.updExp hs

protected theorem State.Regs.doFrameIn (hs : s.Regs) {h : Half} {bytes : List Byte} : (doFrameIn h bytes s).Regs :=
  .ite (.ite hs.updExp.bump hs.updExp.injectBytes) hs

protected theorem State.Regs.expTick (hs : s.Regs) {h : Half} : (s.expTick h).Regs := .ite (.ite hs.expFalls hs.updExp) hs

/-! ### FlakoC -/

protected theorem State.Regs.loadBody64 (hs : s.Regs) {len : Nat} {c : Fk} : (loadBody64 len s c).state.Regs := by
  dsimp only [loadBody64]
  split
  · next s1 bs e => exact (hs.load.of_fst e).putG64
  · next s1 x e => exact hs.load.of_fst e

protected theorem State.Regs.swapBody (hs : s.Regs) {stores : Bool} {f : Fk → Nat → Option Nat} {c : Fk} :
    (swapBody stores f s c).state.Regs := by
  dsimp only [swapBody]
  split
  · exact hs
  · refine .ite_state hs ?_
    split
    · next s1 x e => exact hs.translate.of_fst e
    · next s1 pa e =>
      have h1 := hs.translate.of_fst e
      split
      · next s2 e2 => exact h1.physRead.of_fst e2
      · next s2 bs e2 =>
        have h2 := h1.physRead.of_fst e2
        split
        · exact h2.putG64
        · split
          · next s3 e3 => exact (h2.ccStore.of_fst e3).putG64
          · exact hs
          · next s3 x _ e3 => exact h2.ccStore.of_fst e3

protected theorem State.Regs.doMirrorApply (hs : s.Regs) {h : Half} : (doMirrorApply h s).Regs := by
  dsimp only [doMirrorApply]
  split
  · exact hs
  · exact .ite hs.rest.hbmWrite hs.rest.bump

protected theorem State.Regs.privBody (hs : s.Regs) {f : State → Fk → FkRes} {c : Fk} (hf : ∀ {t a}, t.Regs → (f t a).state.Regs) :
    (privBody f s c).state.Regs := by
  dsimp only [privBody]
  exact .ite_state hs (hf hs)

/-! ### HbmAccess -/

protected theorem State.Regs.performRead (hs : s.Regs) {h : Half} {q : HbmPart} {ecc : List EccOutcome} :
    (s.performRead h q ecc).1.Regs := by
  dsimp only [State.performRead]
  exact hs.granEccs.hbmReadPart.granFailures

protected theorem State.Regs.performWrite (hs : s.Regs) {h : Half} {q : HbmPart} : (s.performWrite h q).1.Regs := by
  dsimp only [State.performWrite]
  exact hs.hbmWritePart

protected theorem State.Regs.parityError (hs : s.Regs) {h : Half} {st : Fin 2} {fails : Bool} : (s.parityError h st fails).Regs :=
  .ite hs.fault.fault.updHbm hs.fault

protected theorem State.Regs.doHbmAccess (hs : s.Regs) {h : Half} {p index : Nat} {ecc : List EccOutcome} {parity : Nat} :
    (doHbmAccess h p index ecc parity s).Regs := by
  dsimp only [doHbmAccess]
  split
  · exact hs
  · exact .ite
      (.ite
         (.finishPart (.ite hs.updHbm hs.updHbm.parityError))
         (.finishPart
            (.ite_fst (.performWrite (.ite hs.updHbm hs.updHbm.parityError)) (.performRead (.ite hs.updHbm hs.updHbm.parityError)))))
      hs

/-! ### Start -/

theorem Tbl.wf_foldl {α β : Type} {f : Tbl β → α → Tbl β} (hf : ∀ t a, Tbl.wf t = true → Tbl.wf (f t a) = true) (l : List α)
    (t : Tbl β) (ht : Tbl.wf t = true) : Tbl.wf (l.foldl f t) = true := by
  induction l generalizing t with
  | nil => exact ht
  | cons a r ih => exact ih _ (hf t a ht)

theorem keptCsr_wf (s : State) : Tbl.wf (keptCsr s) = true :=
  have hub (h : Half) (t : Tbl DWord) (ht : Tbl.wf t = true) := Tbl.wf_foldl
    (f := fun t o => tset 0 t ((bHub h).base + o) (s.reg (bHub h) o)) (fun _ _ => tset_wf _ _ _ _)
    [R.hub_MERGES, R.hub_ACK_STALE, R.hub_LOG_LOST, R.hub_SAFE_ENTRIES, R.hub_DETAIL_LOST] t ht
  hub 1 _ (hub 0 _ (tset_wf _ _ _ _ rfl))

theorem unitsAt_wf (cause : BitVec 8) : Tbl.wf (unitsAt cause) = true := by
  refine Tbl.wf_foldl (fun t u ht => ?_) _ _ ?_
  · exact tput_wf _ _ _ ht
  · rfl

protected theorem State.Regs.assertReset {por : Bool} : (s.assertReset por).Regs := by
  dsimp only [State.assertReset]
  refine ⟨?_, State.Regs.reset.staged, ?_⟩
  · cases por
    · exact keptCsr_wf s
    · rfl
  · dsimp only
    exact unitsAt_wf _

protected theorem State.Regs.doPoreset (hs : s.Regs) : (doPoreset s).Regs := .ite hs .assertReset

protected theorem State.Regs.doSysreset (hs : s.Regs) : (doSysreset s).Regs := .ite hs (.ite hs.updPv .assertReset)

protected theorem State.Regs.setStep (hs : s.Regs) {n : Nat} : (s.setStep n).Regs := hs.setRfld

protected theorem State.Regs.updStart (hs : s.Regs) {f : StartInfo → StartInfo} : (s.updStart f).Regs := hs.updPv

protected theorem State.Regs.startClocks (hs : s.Regs) : s.startClocks.Regs :=
  .rest (hs.updPv.rest.setUState.setUState.foldl fun h1 => .ite h1 h1.setUState)

protected theorem State.Regs.startUp (hs : s.Regs) : s.startUp.Regs := by
  dsimp only [State.startUp]
  exact .ite hs.updPv.startClocks.setStep.logBoot.storeRead.updPv.bootFirmware.applyMaps.calApply.setStep
    hs.updPv.startClocks.setStep.logBoot.storeRead.updPv.bootFirmware

protected theorem State.Regs.startIfClocked (hs : s.Regs) : s.startIfClocked.Regs := .ite hs.startUp hs.updStart

protected theorem State.Regs.doRelease (hs : s.Regs) : (doRelease s).Regs := .ite hs.updPv.startIfClocked hs

protected theorem State.Regs.doRefclkArrival (hs : s.Regs) : (doRefclkArrival s).Regs := .ite hs.updPv.startIfClocked hs.updPv

protected theorem State.Regs.testTree (hs : s.Regs) {h : Half} : (s.testTree h).Regs := hs.enterTest.foldl fun h1 => .ite h1.enterUp h1

protected theorem State.Regs.setTrained (hs : s.Regs) {h : Half} {st : Fin 2} : (s.setTrained h st).Regs := hs.setReg

protected theorem State.Regs.remapLanes (hs : s.Regs) {h : Half} {st : Fin 2} : (s.remapLanes h st).Regs := by
  unfold State.remapLanes
  exact hs.used.updPv

protected theorem State.Regs.trainEnd (hs : s.Regs) {h : Half} {st : Fin 2} {ok : Bool} : (s.trainEnd h st ok).Regs :=
  .ite hs.remapLanes.setTrained hs.fault

protected theorem State.Regs.doHbmTrained (hs : s.Regs) {h : Half} {st : Fin 2} {ok : Bool} : (doHbmTrained h st ok s).Regs :=
  .ite (.ite hs (.ite hs.enterUp.trainEnd.updStart.setStep.testTree.testTree hs.enterUp.trainEnd.updStart)) (.ite hs.trainEnd hs)

protected theorem State.Regs.chooseImages (hs : s.Regs) : s.chooseImages.Regs := by
  dsimp only [State.chooseImages]
  exact .ite hs hs.bootSlot.bootSlot.updPv

protected theorem State.Regs.streamImages (hs : s.Regs) : s.streamImages.Regs := by
  dsimp only [State.streamImages]
  split
  · refine .foldl ?_ fun h1 => ?_
    · split
      · exact hs.chooseImages.hbmPlace
      · exact hs.chooseImages
    · exact h1.loadCode
  · split
    · exact hs.chooseImages.hbmPlace
    · exact hs.chooseImages

protected theorem State.Regs.csrInit (hs : s.Regs) {bs : List Byte} {n : Nat} : (s.csrInit bs n).Regs := by
  induction n with
  | zero => exact hs
  | succ n ih => exact ih.csrWrite

protected theorem State.Regs.loadImage (hs : s.Regs) {c : List Byte} {hs' : List Half} : (s.loadImage c hs').Regs :=
  .foldl (hs.foldl fun h1 => h1.loadBanks) fun h1 => .ite h1.csrInit h1

protected theorem State.Regs.queueBatches (hs : s.Regs) {c : List Byte} {h : Half} : (s.queueBatches c h).Regs := .ite hs hs.updStart

/-- An operation on a half keeps the register tables canonical. -/
def KeepsRegs (f : State → Half → State) : Prop := ∀ s h, s.Regs → (f s h).Regs

/-- Stated of the operation and not of its value: to compare the applied operation with its body, the kernel would walk the half's
subtree. -/
theorem keepsRegs_releaseHalf : KeepsRegs State.releaseHalf := by
  delta State.releaseHalf
  refine id fun {s h} hs => ?_
  have h1 : (s.activeTree (.half h) 0x02).Regs := hs.activeTree
  beta_reduce
  generalize s.activeTree (.half h) 0x02 = s1 at h1 ⊢
  dsimp only
  split
  · exact h1.setCcEntry.runCores
  · exact h1

protected theorem State.Regs.releaseHalf (hs : s.Regs) {h : Half} : (s.releaseHalf h).Regs := keepsRegs_releaseHalf s h hs

protected theorem State.Regs.settleStart (hs : s.Regs) : s.settleStart.Regs := .ite hs.setStep hs

protected theorem State.Regs.finishStart (hs : s.Regs) : s.finishStart.Regs :=
  .settleStart (.setStep (hs.setStep.loadImage.setStep.foldl fun h1 => h1.releaseHalf.queueBatches))

protected theorem State.Regs.seqOn (hs : s.Regs) : s.seqOn.Regs := by
  unfold State.seqOn
  extract_lets tested s1
  have h1 : s1.Regs := .ite hs.setStep.streamImages.setStep hs
  exact .ite h1.finishStart h1

protected theorem State.Regs.doSelfTest (hs : s.Regs) {u : UnitId} {ok : Bool} : (doSelfTest u ok s).Regs := by
  dsimp only [doSelfTest]
  split
  · exact hs.spareTested
  · exact .ite hs.report.physFails hs
  · exact .ite hs.updStart.seqOn (.ite (.ite hs.updPv.fenceUnit.seqOn hs.updPv.fenceUnit) hs)
  · exact hs

protected theorem State.Regs.doFordTrainingDone (hs : s.Regs) {h : Half} {failed : List (Nat × Nat)} :
    (doFordTrainingDone h failed s).Regs := .ite (.ite hs.doFordTrained.updStart.seqOn hs.doFordTrained) hs

protected theorem State.Regs.dropDynamic (hs : s.Regs) {h : Half} : (s.dropDynamic h).Regs :=
  .bumpBy (.updTab (hs.foldl fun h1 => .ite h1.leaveBatch h1))

protected theorem State.Regs.restartHalf (hs : s.Regs) {h : Half} : (s.restartHalf h).Regs := by
  dsimp only [State.restartHalf]
  refine .ite ?_ ?_
  · exact .updStart (.setStep (.testTree (.ite hs.beginEntry.completeEntry.dropDynamic hs.beginEntry.completeEntry.dropDynamic.updPv)))
  · refine .activeTree ?_
    split
    · exact .loadBanks (.testTree (.ite hs.beginEntry.completeEntry.dropDynamic hs.beginEntry.completeEntry.dropDynamic.updPv))
    · exact .testTree (.ite hs.beginEntry.completeEntry.dropDynamic hs.beginEntry.completeEntry.dropDynamic.updPv)

protected theorem State.Regs.doHalfRestart (hs : s.Regs) {h : Half} : (doHalfRestart h s).Regs := .ite hs.restartHalf hs

protected theorem State.Regs.beginSection (hs : s.Regs) {h : Half} {b : Nat} {e : Nat × Nat × Nat} : (s.beginSection h b e).Regs := by
  unfold State.beginSection
  exact hs.hbmPlace.setReg.setReg.batchCmd.updStart

protected theorem State.Regs.endSection (hs : s.Regs) {h : Half} {again : Bool} : (s.endSection h again).Regs := hs.updStart

protected theorem State.Regs.refuseSection (hs : s.Regs) {h : Half} {b num reason : Nat} : (s.refuseSection h b num reason).Regs :=
  hs.batchCmd.updStart.endSection

protected theorem State.Regs.batchStep (hs : s.Regs) {h : Half} : (s.batchStep h).Regs := by
  dsimp only [State.batchStep]
  split
  · exact hs
  · split
    · exact .ite hs.updStart.beginSection hs
    · exact hs
  · split
    · exact hs.setReg.batchCmd
    · exact hs.endSection
    · exact hs.endSection
    · exact hs.endSection
    · exact .ite (.ite hs.batchCmd.endSection hs) hs.refuseSection
    · exact hs

protected theorem State.Regs.startTick (hs : s.Regs) : s.startTick.Regs := .ite (.ite hs.batchStep.batchStep.settleStart hs.seqOn) hs

protected theorem State.Regs.mgmtTick (hs : s.Regs) : s.mgmtTick.Regs := .ite hs.moveMgmt hs

protected theorem State.Regs.doPerst (hs : s.Regs) {low : Bool} : (doPerst low s).Regs :=
  .ite hs.updPv
    (.ite (.ite hs.updPv hs.updPv.beginEntry.used)
       (.ite (.used (.enterUp (.ite hs.updPv.completeEntry hs.updPv))) (.ite hs.updPv.completeEntry hs.updPv)))

protected theorem State.Regs.doFlr (hs : s.Regs) {f : Fin 2} : (doFlr f s).Regs := hs.setReg.foldl fun h1 => h1.setReg

protected theorem State.Regs.doExtest (hs : s.Regs) : (doExtest s).Regs :=
  .ite hs (.foldl (.beginEntry (hs.updPv.beginEntry.foldl fun h1 => h1.updUnit)) fun h1 => h1.updUnit)

protected theorem State.Regs.pllPorts (hs : s.Regs) {pll : Nat} : (s.pllPorts pll).Regs := by
  unfold State.pllPorts
  extract_lets h s1
  have h1 : s1.Regs := hs.foldl fun h1 => .ite h1.dropLink h1
  exact .ite h1.expFalls h1

protected theorem State.Regs.doPllLost (hs : s.Regs) {pll : Nat} : (doPllLost pll s).Regs :=
  .ite hs (.ite hs.updPv.pllPorts (.ite hs.updPv.fault.fault.fault.fault (.ite hs.updPv.dropFord.dropFord hs.updPv)))

protected theorem State.Regs.doPllBack (hs : s.Regs) {pll : Nat} : (doPllBack pll s).Regs := hs.updPv

/-! ### TaskRun -/

protected theorem State.Regs.startOn (hs : s.Regs) {h : Half} {t : TileIx} {n : Fin 128} {k : Nat} : (s.startOn h t n k).Regs := by
  dsimp only [State.startOn]
  refine .ite hs.updThread.updTask.discardTask ?_
  split
  · exact hs.updThread.updTask.trapDiscard
  · exact hs.updThread.updTask

protected theorem State.Regs.resumeOn (hs : s.Regs) {h : Half} {t : TileIx} {n : Fin 128} {k : Nat} : (s.resumeOn h t n k).Regs :=
  .ite hs.updThread.updTask.raiseInt hs.updThread.updTask

protected theorem State.Regs.startSvc (hs : s.Regs) {h : Half} {t : TileIx} {n : Fin 128} {j : Nat} : (s.startSvc h t n j).Regs :=
  hs.setReg.updTile.updTask.bump.startOn

protected theorem State.Regs.doTaskDispatch (hs : s.Regs) {h : Half} {t : TileIx} {n : Fin 128} : (doTaskDispatch h t n s).Regs := by
  dsimp only [doTaskDispatch]
  refine .ite ?_ hs
  split
  · exact hs
  · exact .ite hs.resumeOn (.ite hs.startOn hs)
  · exact .ite hs.used.startSvc hs

/-! ### TblReq -/

protected theorem State.Regs.tblCall (hs : s.Regs) {th : ThreadRef} {op : FkOp} {fn : Nat} {len : Fk → Nat} {align out : Nat}
    {f : State → TblCall → TblRes} (hf : ∀ {t a}, t.Regs → (f t a).s.Regs) : (tblCall th op fn len align out s f).Regs := by
  dsimp only [tblCall]
  refine .fkRun hs fun h1 => ?_
  split
  · exact h1
  · refine .ite_state h1 ?_
    split
    · exact h1
    · refine .ite_state h1 ?_
      refine .ite_state h1 ?_
      split
      · exact h1
      · exact .ite_state h1 (.issueReq (hf h1))

protected theorem State.Regs.lookupBody (hs : s.Regs) {q : TblCall} : (lookupBody s q).s.Regs := by
  dsimp only [lookupBody]
  split
  · exact .ite hs.refreshEx hs
  · exact hs

protected theorem State.Regs.groupBody (hs : s.Regs) {q : TblCall} : (groupBody s q).s.Regs := by
  dsimp only [groupBody]
  exact .ite_s hs hs

protected theorem State.Regs.lpmBody (hs : s.Regs) {q : TblCall} : (lpmBody s q).s.Regs := by
  dsimp only [lpmBody]
  split
  · exact hs
  · exact hs

protected theorem State.Regs.flowRes (hs : s.Regs) {status slot : Nat} {r : Option (List Byte)} : (flowRes s status slot r).s.Regs := by
  dsimp only [flowRes]
  split
  · exact hs
  · exact hs.used

protected theorem State.Regs.flowFindBody (hs : s.Regs) {q : TblCall} : (flowFindBody s q).s.Regs := by
  dsimp only [flowFindBody]
  split
  · next s1 e => exact (hs.flowSearch.of_fst e).flowRes
  · next s1 e => exact (hs.flowSearch.of_fst e).flowRes
  · next s1 f e => exact .ite_s ((hs.flowSearch.of_fst e).flowTouch.flowRes) ((hs.flowSearch.of_fst e).flowRes)

protected theorem State.Regs.flowInsertBody (hs : s.Regs) {q : TblCall} : (flowInsertBody s q).s.Regs := by
  dsimp only [flowInsertBody]
  split
  · next s1 e => exact (hs.flowSearch.of_fst e).flowRes
  · next s1 e =>
      split
      · next s2 p e2 => exact ((hs.flowSearch.of_fst e).flowPlace.of_fst e2).flowStore.bump.flowRes
      · next s2 e2 => exact ((hs.flowSearch.of_fst e).flowPlace.of_fst e2).bump.flowRes
  · next s1 f e => exact (hs.flowSearch.of_fst e).flowRes

protected theorem State.Regs.flowNamed (hs : s.Regs) {h : Half} {slot key : Nat} : (s.flowNamed h slot key).1.Regs := by
  dsimp only [State.flowNamed]
  refine .ite_fst ?_ ?_
  · split
    · exact .ite_fst hs hs.flowSearch
    · exact hs.flowSearch
  · refine .ite_fst ?_ hs.flowSearch
    split
    · next s1 r e => exact .ite_fst (hs.flowRead.of_fst e) ((hs.flowRead.of_fst e).flowSearch)
    · next s1 e => exact (hs.flowRead.of_fst e).flowLost

protected theorem State.Regs.flowWriteBody (hs : s.Regs) {q : TblCall} : (flowWriteBody s q).s.Regs := by
  dsimp only [flowWriteBody]
  split
  · next s1 e => exact (hs.flowNamed.of_fst e).flowRes
  · next s1 e => exact (hs.flowNamed.of_fst e).flowRes
  · next s1 f e => exact (hs.flowNamed.of_fst e).flowTouch.flowRes

protected theorem State.Regs.flowDeleteBody (hs : s.Regs) {q : TblCall} : (flowDeleteBody s q).s.Regs := by
  dsimp only [flowDeleteBody]
  split
  · next s1 e => exact (hs.flowNamed.of_fst e).flowRes
  · next s1 e => exact (hs.flowNamed.of_fst e).flowRes
  · next s1 f e => exact (hs.flowNamed.of_fst e).used.flowRemove.flowRes

protected theorem State.Regs.meterBody (hs : s.Regs) {q : TblCall} : (meterBody s q).s.Regs := by
  dsimp only [meterBody]
  exact .ite_s hs.fillMeter hs.chargeMeter

protected theorem State.Regs.searchBody (hs : s.Regs) {after : TblCall → Option Nat} {q : TblCall} : (searchBody after s q).s.Regs := by
  dsimp only [searchBody]
  exact hs.used.bumpBy

protected theorem State.Regs.countAssoc (hs : s.Regs) {h : Half} {bs : List Byte} : (s.countAssoc h bs).Regs := by
  unfold State.countAssoc
  extract_lets st b s1 s2 s3
  have h1 : s2.Regs := .ite hs.bump.bump hs.bump
  have h2 : s3.Regs := .ite h1.bump h1
  exact .ite h2.bump h2

protected theorem State.Regs.doTableResponse (hs : s.Regs) {h : Half} {t : TileIx} {id : Nat} : (doTableResponse h t id s).Regs := by
  dsimp only [doTableResponse]
  split
  · exact hs
  · exact .ite (.respond (.ite hs.countAssoc hs)) hs

/-! ### Tick -/

protected theorem State.Regs.coreCycle (hs : s.Regs) {h : Half} : (s.coreCycle h).Regs := hs.deadCycle.droopCycle.hbmCycle.slotCycle

protected theorem State.Regs.coreTick (hs : s.Regs) {h : Half} : (s.coreTick h).Regs :=
  .ite hs.updPv (.coreCycle (.ite hs.updPv.bump hs.updPv))

protected theorem State.Regs.stallTick (hs : s.Regs) {h : Half} : (s.stallTick h).Regs := by
  dsimp only [State.stallTick]
  refine .ite ?_ ?_
  · split
    · exact hs
    · exact .ite hs.bump.bump hs.bump
  · refine .bump ?_
    split
    · exact hs
    · exact .ite hs.bump.bump hs.bump

protected theorem State.Regs.fordTick (hs : s.Regs) {h : Half} : (s.fordTick h).Regs := .ite hs.bump hs

protected theorem State.Regs.brambleTick (hs : s.Regs) {h : Half} {t : TileIx} : (State.brambleTick h s t).Regs := .ite hs.bump hs

protected theorem State.Regs.portTicks (hs : s.Regs) {h : Half} : (s.portTicks h).Regs := .ite (hs.foldl fun h1 => h1.schedTickPort) hs

protected theorem State.Regs.halfTick (hs : s.Regs) {h : Half} : (s.halfTick h).Regs :=
  .ite (.expTick (.telemTick (.noteTick (.hbmTick (.portTicks (.fordTick (.stallTick (hs.coreTick.foldl fun h1 => h1.brambleTick)))))))) hs

protected theorem State.Regs.tick (hs : s.Regs) : s.tick.Regs := hs.halfTick.halfTick.timeTick.startTick.p129Tick.mgmtTick.checked

/-! ### The commands -/

/-- The next state of an outcome, if there is one, keeps the register tables canonical. -/
def NextRegs (o : Out) : Prop := ∀ t, o = .next t → t.Regs

theorem NextRegs.of (hs : s.Regs) : NextRegs (.next s) := by
  intro t e
  cases e
  exact hs

protected theorem State.Regs.execCount (hs : s.Regs) {th : ThreadRef} : NextRegs (execCount th s) := by
  dsimp only [execCount]
  refine .of (.fkRun hs fun h1 => ?_)
  split
  · exact h1
  · exact .ite_state h1.countPair h1

protected theorem State.Regs.execFkRet (hs : s.Regs) {th : ThreadRef} : NextRegs (execFkRet th s) := by
  dsimp only [execFkRet]
  refine .of (.fkRun hs fun h1 => ?_)
  split
  · exact h1
  · exact h1.updThread

protected theorem State.Regs.execFkRspop (hs : s.Regs) {th : ThreadRef} : NextRegs (execFkRspop th s) := by
  dsimp only [execFkRspop]
  refine .of (.fkRun hs fun h1 => ?_)
  split
  · exact h1
  · exact h1.updThread

protected theorem State.Regs.execFkPush (hs : s.Regs) {th : ThreadRef} : NextRegs (execFkPush th s) := by
  dsimp only [execFkPush]
  refine .of (.fkRun hs fun h1 => ?_)
  refine .ite_state h1 ?_
  refine .ite_state h1 ?_
  split
  · next s1 e => exact (h1.store.of_fst e).setDsp
  · next s1 x e => exact h1.store.of_fst e

protected theorem State.Regs.execFkPop (hs : s.Regs) {th : ThreadRef} : NextRegs (execFkPop th s) := by
  dsimp only [execFkPop]
  refine .of (.fkRun hs fun h1 => ?_)
  refine .ite_state h1 ?_
  refine .ite_state h1 ?_
  split
  · next s1 bs e => exact (h1.load.of_fst e).putG.setDsp
  · next s1 x e => exact h1.load.of_fst e

protected theorem State.Regs.execFkFrd (hs : s.Regs) {th : ThreadRef} : NextRegs (execFkFrd th s) := by
  dsimp only [execFkFrd]
  refine .of (.fkRun hs fun h1 => ?_)
  split
  · exact h1.frdBody
  · exact h1

protected theorem State.Regs.execFkHrd (hs : s.Regs) {th : ThreadRef} : NextRegs (execFkHrd th s) := by
  dsimp only [execFkHrd]
  refine .of (.fkRun hs fun h1 => ?_)
  split
  · exact h1.hbmReqBody
  · exact h1

protected theorem State.Regs.execFkHwr (hs : s.Regs) {th : ThreadRef} : NextRegs (execFkHwr th s) := by
  dsimp only [execFkHwr]
  refine .of (.fkRun hs fun h1 => ?_)
  split
  · exact h1.hbmReqBody
  · exact h1

protected theorem State.Regs.execFkTwait (hs : s.Regs) {th : ThreadRef} : NextRegs (execFkTwait th s) := by
  dsimp only [execFkTwait]
  refine .of (.fkRun hs fun h1 => ?_)
  split
  · exact h1.twaitBody
  · exact h1

protected theorem State.Regs.execFkTdone (hs : s.Regs) {th : ThreadRef} : NextRegs (execFkTdone th s) := by
  dsimp only [execFkTdone]
  refine .of (.fkRun hs fun h1 => ?_)
  split
  · exact h1.tdoneBody
  · exact h1

protected theorem State.Regs.execFkTdrop (hs : s.Regs) {th : ThreadRef} : NextRegs (execFkTdrop th s) := by
  dsimp only [execFkTdrop]
  refine .of (.fkRun hs fun h1 => ?_)
  split
  · exact h1.bump.completeTask
  · exact h1

protected theorem State.Regs.execFkPostf (hs : s.Regs) {th : ThreadRef} : NextRegs (execFkPostf th s) := by
  dsimp only [execFkPostf]
  refine .of (.fkRun hs fun h1 => ?_)
  refine .ite_state h1 ?_
  split
  · next s1 x e => exact h1.postBytes.of_fst e
  · next s1 bs e => exact (h1.postBytes.of_fst e).postFrame

protected theorem State.Regs.execFkChrecv (hs : s.Regs) {th : ThreadRef} : NextRegs (execFkChrecv th s) := by
  dsimp only [execFkChrecv]
  refine .of (.fkRun hs fun h1 => ?_)
  split
  · next s1 x e => exact h1.putArea.of_fst e
  · next s1 e => exact .ite (h1.putArea.of_fst e) ((h1.putArea.of_fst e).setChan.bumpChan)

protected theorem State.Regs.execFkLock (hs : s.Regs) {th : ThreadRef} : NextRegs (execFkLock th s) := by
  dsimp only [execFkLock]
  refine .of (.fkRun hs fun h1 => ?_)
  split
  · exact h1.takeLock.putG
  · exact h1.putG
  · exact h1.updThread.queueLock

protected theorem State.Regs.execFkTrylock (hs : s.Regs) {th : ThreadRef} : NextRegs (execFkTrylock th s) := by
  dsimp only [execFkTrylock]
  refine .of (.fkRun hs fun h1 => ?_)
  split
  · exact h1.takeLock.putG
  · exact h1.putG
  · exact h1.putG

protected theorem State.Regs.execFkUnlock (hs : s.Regs) {th : ThreadRef} : NextRegs (execFkUnlock th s) := by
  dsimp only [execFkUnlock]
  exact .of (.fkRun hs (fun h1 => h1.unlock.putG))

protected theorem State.Regs.execFkCpsave (hs : s.Regs) {th : ThreadRef} : NextRegs (execFkCpsave th s) := by
  dsimp only [execFkCpsave]
  refine .of (.cpCall hs fun h1 => ?_)
  split
  · exact h1
  · exact .ite_state h1 h1.issueReq

protected theorem State.Regs.execFkCprestore (hs : s.Regs) {th : ThreadRef} : NextRegs (execFkCprestore th s) := by
  dsimp only [execFkCprestore]
  refine .of (.cpCall hs fun h1 => ?_)
  split
  · exact h1
  · exact .ite_state h1.lateReport (.ite_state h1.callTrap h1.updInst)

protected theorem State.Regs.execFkCvcfg (hs : s.Regs) {th : ThreadRef} : NextRegs (execFkCvcfg th s) := by
  dsimp only [execFkCvcfg]
  refine .of (.cpCall hs fun h1 => ?_)
  split
  · exact h1
  · exact .cpDone h1 (fun h2 => h2.updInst)

protected theorem State.Regs.execFkCvupd (hs : s.Regs) {th : ThreadRef} : NextRegs (execFkCvupd th s) := by
  dsimp only [execFkCvupd]
  refine .of (.cpCall hs fun h1 => ?_)
  refine .ite_state h1.callTrap ?_
  split
  · exact h1
  · exact .cpDone h1 (fun h2 => h2.updInst)

protected theorem State.Regs.execFkCvfin (hs : s.Regs) {th : ThreadRef} : NextRegs (execFkCvfin th s) := by
  dsimp only [execFkCvfin]
  refine .of (.cpCall hs fun h1 => ?_)
  split
  · exact h1
  · exact .cpDone h1 (fun h2 => h2.updInst.used)

protected theorem State.Regs.execFkCvappend (hs : s.Regs) {th : ThreadRef} : NextRegs (execFkCvappend th s) := by
  dsimp only [execFkCvappend]
  refine .of (.cpCall hs fun h1 => ?_)
  split
  · exact h1
  · exact h1
  · exact h1
  · exact .cpDone h1 (fun h2 => h2.updTile)

protected theorem State.Regs.execFkCvcheck (hs : s.Regs) {th : ThreadRef} : NextRegs (execFkCvcheck th s) := by
  dsimp only [execFkCvcheck]
  refine .of (.cpCall hs fun h1 => ?_)
  split
  · exact h1
  · exact h1
  · exact h1
  · refine .cpDone h1 fun h2 => ?_
    split
    · exact h2.updTile.used
    · exact h2.used

protected theorem State.Regs.execFkHcfg (hs : s.Regs) {th : ThreadRef} : NextRegs (execFkHcfg th s) := by
  dsimp only [execFkHcfg]
  refine .of (.cpCall hs fun h1 => ?_)
  split
  · exact h1
  · exact .cpDone h1 (fun h2 => h2.updInst)

protected theorem State.Regs.execFkSd (hs : s.Regs) {th : ThreadRef} : NextRegs (execFkSd th s) := by
  dsimp only [execFkSd]
  refine .of (.fkRun hs fun h1 => ?_)
  split
  · next s1 e => exact h1.store.of_fst e
  · next s1 x e => exact h1.store.of_fst e

/-- Every command keeps the register tables canonical. -/
theorem State.Regs.exec (hs : s.Regs) (c : Instr) : NextRegs (Machine.exec c s) := by
  cases c with
  | frameStart => exact .of hs.doFrameStart.checked
  | frameBytes => exact .of hs.doFrameBytes.checked
  | pfcRefresh => exact .of hs.doPfcRefresh
  | pfcFrameTransmit => exact .of hs.doPfcTransmit
  | frameEnd => exact .of hs.doFrameEnd.checked
  | pfcReceive => exact .of hs.doPfcReceive
  | pfcPauseExpire => exact .of hs.doPfcExpire
  | classifyFrame => exact .of hs.doClassify
  | parseSecondPass => exact .of hs.doSecondPass
  | taskCreate => exact .of hs.doTaskCreate.checked
  | brambleScanStart => exact .of hs.doScanStart
  | brambleScanEnd => exact .of hs.doScanEnd
  | taskDispatch => exact .of hs.doTaskDispatch.checked
  | confluenceRelease => exact .of hs.doConfluence.checked
  | patienceCheck => exact .of hs.doPatience
  | oldestLiveSample => exact .of hs.doOldestLive
  | tableSyncNoticeSend => exact .of hs.doNoticeSend
  | tableSyncNoticeReceive => exact .of hs.doNoticeReceive
  | crossingSend => exact .of hs.doCrossSend
  | crossingReceipt => exact .of hs.doCrossReceipt
  | crossingAck => exact .of hs.doCrossAck
  | replWalk => exact .of hs.doReplWalk
  | admitCopy => exact .of hs.doAdmitCopy
  | spillWriteAccepted => exact .of (.orWait hs (fun h1 => h1.doSpillWritten))
  | spillFill => exact .of (.orWait hs (fun h1 => h1.doSpillFill))
  | fillRetry => exact .of (.orWait hs (fun h1 => h1.doFillRetry))
  | schedSelect => exact .of hs.doSchedSelect.checked
  | rewriteFrame => exact .of hs.doRewrite
  | frameTransmit => exact .of hs.doTransmit
  | transmitReadEnd => exact .of hs.doReadEnd
  | linkAttemptEnd => exact .of hs.doAttemptEnd
  | linkDown => exact .of hs.doLinkDown
  | portHoldExpire => exact .of hs.doHoldExpire
  | portFlushEntry => exact .of hs.doFlushEntry
  | reclaimVisit => exact .of hs.doReclaimVisit
  | commitNow => exact .of (.ite hs.startCommit hs)
  | commitArm => exact .of (.ite hs.armCommit hs)
  | commitDisarm => exact .of (.ite hs.setArmed hs)
  | commitAtWrite => exact .of (.ite hs.setReg hs)
  | armedCommitStart => exact .of hs.doArmedStart
  | commitReach => exact .of hs.doCommitReach
  | unitCommitApply => exact .of hs.doCommitApply
  | requestReset => exact .of (.ite hs.reqReset hs)
  | requestTest => exact .of (.ite hs.reqTest hs)
  | requestActive => exact .of (.ite hs.reqActive hs)
  | requestFence => exact .of (.ite hs.reqFence hs)
  | requestOff => exact .of (.ite hs.reqOff hs)
  | activeTree => exact .of (.ite hs.reqTree hs)
  | unitEntryComplete => exact .of hs.doEntryEnd
  | devRequestRun => exact .of hs.doDevRun
  | devRequestRecovery => exact .of hs.doDevRecovery
  | csrHoleAccess | csrMisalignedAccess => exact .of (.ite hs.csrHole hs)
  | registerWrite => exact .of hs.csrWrite
  | dtsNowRead => exact .of (.ite hs.doDtsNowRead hs)
  | injectForceWrite => exact .of (.ite hs.forceWrite hs)
  | invArm => exact .of (.ite hs.armInv hs)
  | dtsAlignSend => exact .of hs.doAlignSend
  | dtsAlignReceive => exact .of hs.doAlignReceive
  | dtsFollowerSlew | dtsSlewAdjust => exact .of (.ite hs.tick hs)
  | loadNow => exact .of (.ite hs.doLoadNow hs)
  | loadArm => exact .of (.ite hs.doLoadArm hs)
  | tsyncInEdge => exact .of hs.doTsyncIn
  | tsyncOutRise => exact .of hs.doTsyncRise
  | tsyncOutFall => exact .of hs.doTsyncFall
  | dtsSlewWrite => exact .of (.ite hs.doSlewWrite hs)
  | ptpSet => exact .of (.ite hs.doPtpSet hs)
  | ptpAdd => exact .of (.ite hs.doPtpAdd hs)
  | ptpSub => exact .of (.ite hs.doPtpSub hs)
  | ptpNsRead => exact .of (.ite hs.doPtpNsRead hs)
  | ptpTxtsBRead => exact .of (.ite hs.popTxts hs)
  | agingVisit => exact .of (.orWait hs (fun h1 => h1.doAgingVisit))
  | lookup => exact .of (.tblCall hs (fun h1 => h1.lookupBody))
  | groupSelect => exact .of (.tblCall hs (fun h1 => h1.groupBody))
  | lpm => exact .of (.tblCall hs (fun h1 => h1.lpmBody))
  | flowFind => exact .of (.tblCall hs (fun h1 => h1.flowFindBody))
  | flowFindInsert => exact .of (.tblCall hs (fun h1 => h1.flowInsertBody))
  | flowWrite => exact .of (.tblCall hs (fun h1 => h1.flowWriteBody))
  | flowDelete => exact .of (.tblCall hs (fun h1 => h1.flowDeleteBody))
  | meter => exact .of (.tblCall hs (fun h1 => h1.meterBody))
  | search | assocStep => exact .of (.tblCall hs (fun h1 => h1.searchBody))
  | tableResponse => exact .of hs.doTableResponse.checked
  | flowStashReturn => exact .of (.orWait hs (fun h1 => h1.doStashReturn))
  | counterWriteback => exact .of (.orWait hs (fun h1 => h1.doWriteback))
  | counterReadSelWrite | learnNoteSizeWrite | telemSizeWrite => exact .of hs.agentWrite
  | counterReadDone => exact .of (.orWait hs (fun h1 => h1.doReadDone))
  | meterRefill => exact .of hs.doMeterRefill
  | build | post | buildPost | abort | ack => exact .of hs.agentBatch
  | batchRecordApply => exact .of (.orWait hs (fun h1 => h1.doRecordApply.withShadow))
  | batchUndoStep => exact .of hs.doUndoStep.withShadow.checked
  | batchRetireStart => exact .of hs.doRetireStart
  | retireWalkStep => exact .of hs.doRetireWalk.withShadow.checked
  | learnExamine => exact .of hs.doLearnExamine
  | learnWrite => exact .of hs.doLearnWrite.withShadow.checked
  | tableEntryRepairDone => exact .of hs.doEntryRepaired
  | shadowCheckVisit => exact .of hs.doShadowVisit
  | shadowRepairDone => exact .of hs.doShadowRepaired
  | assocScrubVisit => exact .of hs.doAssocScrub
  | assocEntryRepairDone => exact .of hs.doAssocRepaired
  | assocSpareFillDone => exact .of hs.doSpareFilled
  | brambleScrubVisit => exact .of hs.doBrambleScrub
  | brambleReloadDone => exact .of hs.doBrambleReload
  | confirmCmp | confirmFind => exact .of (.cpCall hs (fun h1 => h1.confBody))
  | confirmStep => exact .of (.cpCall hs (fun h1 => h1.confStep))
  | injectQueueEntry => exact .of hs.doInjectEntry.checked
  | svcPostWrite => exact .of (.ite hs.svcPost hs)
  | svcEnableWrite => exact .of (.ite hs.svcConfig hs)
  | imgArm | imgDisarm => exact .of (.ite hs.imgCtl hs)
  | imgSwitch => exact .of hs.doSwitch
  | imgDrainEnd => exact .of hs.doDrainEnd
  | fkAdd | fkSub | fkAdds | fkSubs | fkAddus | fkSubus | fkNeg | fkAbs | fkAnd | fkOr | fkXor | fkAndn | fkMin | fkMax
  | fkMinu | fkMaxu | fkClz | fkCtz | fkPopc | fkBswap | fkSll | fkSrl | fkSra | fkRor | fkSls | fkMul | fkMulh | fkMulhu =>
    exact .of (.fkRun hs (fun h1 => h1.aluBody))
  | fkAddi | fkAndi | fkOri | fkXori | fkLi | fkLui | fkSel | fkExtu | fkExts | fkIns | fkSlli | fkSrli | fkSrai | fkRori
  | fkSlsi | fkFmul | fkExtr | fkMval | fkMvah => exact .of (.fkRun hs (fun h1 => h1.gRes))
  | fkDiv | fkDivu | fkRem | fkRemu => exact .of (.fkRun hs (fun h1 => h1.divBody))
  | fkMpyf | fkMacf | fkMsuf | fkMaci | fkAadd | fkAsub | fkAneg | fkAsl | fkAsr | fkAclr | fkMvg | fkMvas =>
    exact .of (.fkRun hs (fun h1 => h1.aRes))
  | fkCmp | fkCmpi | fkTst => exact .of (.fkRun hs (fun h1 => h1.setFlags))
  | fkB | fkJr | fkTrap | fkNop | fkGate => exact .of (.fkRun hs (fun h1 => h1))
  | fkBcc | fkBz | fkBnz => exact .of (.fkRun hs (fun h1 => h1.branchBody))
  | fkCall | fkCallr | fkRspush => exact .of (.fkRun hs (fun h1 => .ite_state h1 h1.pushRs))
  | fkBreak => exact .of (.fkRun hs (fun h1 => .ite_state h1.haltNow h1))
  | fkTret => exact .of (.fkRun hs (fun h1 => .ite_state h1.updThread h1))
  | fkClrf | fkMtsr | fkChstg | fkChdrop => exact .of (.fkRun hs (fun h1 => h1.updThread))
  | fkMfsr => exact .of (.fkRun hs (fun h1 => .putG (.ite h1.updThread h1)))
  | fkLb | fkLbu | fkLh | fkLhu | fkLw | fkLhn | fkLwn => exact .of (.fkRun hs (fun h1 => h1.loadBody))
  | fkSb | fkSh | fkSw | fkShn | fkSwn => exact .of (.fkRun hs (fun h1 => h1.storeBody))
  | memoryResponse => exact .of hs.doMemoryResponse
  | fkWaitev => exact .of (.fkRun hs (fun h1 => .ite_state h1.waitevDone h1.updThread.bumpCore))
  | waitevComplete => exact .of hs.doWaitevComplete
  | fkEvsig =>
    exact .of (.fkRun hs (fun h1 => .ite_state h1 (.ite (.raiseInt (.ite h1.setEv.bumpCore h1.setEv)) (.ite h1.setEv.bumpCore h1.setEv))))
  | evPostWrite => exact .of (.ite hs.doEvPost hs)
  | threadTimerExpire => exact .of hs.doTimerExpire
  | interruptTake => exact .of hs.doInterruptTake
  | eventDeadlock => exact .of hs.doEventDeadlock
  | threadPost => exact .of (.ite hs.doThreadPost hs)
  | threadKill => exact .of (.ite hs.doThreadKill hs)
  | threadResume => exact .of (.ite hs.doThreadResume hs)
  | threadHalt => exact .of (.ite hs.doThreadHalt hs)
  | haltComplete => exact .of hs.doHaltComplete
  | fkChsend => exact .of (.fkRun hs (fun h1 => .ite_state h1.putG (.ite_state h1.bumpChan.putG h1.sendMessage.updThread.putG)))
  | chCfgWrite => exact .of (.ite hs.writeChCfg hs)
  | locksForce => exact .of (.ite hs.forceLock hs)
  | fkCplock => exact .of (.fkRun hs (fun h1 => .statusCall h1 (fun h2 => h2.cpLock)))
  | fkCpunlock => exact .of (.fkRun hs (fun h1 => .statusCall h1 (fun h2 => h2.cpUnlock)))
  | fkHash | fkHashm => exact .of (.cpCall hs (fun h1 => h1.hashBody))
  | fkFdiv | fkLog2 | fkExp2 => exact .of (.cpCall hs (fun h1 => h1.fracBody))
  | fkExpRequest => exact .of (.cpCall hs (fun h1 => h1.expBody))
  | coprocResponse => exact .of hs.doCoprocResponse.checked
  | coprocCancelAck => exact .of hs.doCancelAck
  | coprocLateFailure => exact .of hs.doCoprocLate
  | expReqSend => exact .of hs.doExpSend
  | expFlitReceive => exact .of hs.doExpFlit
  | expRspReceive => exact .of hs.doExpRsp
  | frameIn => exact .of hs.doFrameIn
  | expReplay => exact .of hs.doExpReplay
  | expTimeout => exact .of hs.doExpTimeout
  | expLinkUp => exact .of hs.doExpUp
  | expLinkDown => exact .of hs.doExpDown
  | shaperRefill => exact .of hs.doShaperRefill
  | hbmAccess => exact .of hs.doHbmAccess.checked
  | hbmWriteToArray => exact .of hs.doHbmWriteToArray.checked
  | hbmRefresh => exact .of hs.doHbmRefresh
  | hbmPowerDown => exact .of hs.doHbmPowerDown
  | hbmScrubRead => exact .of hs.doHbmScrub
  | hbmRowRepairDone => exact .of hs.doRowRepairDone
  | hbmTrainingDone => exact .of hs.doHbmTrained
  | powerGateEnter => exact .of hs.doPowerGate
  | powerWake => exact .of hs.doPowerWake
  | fordTrainingDone => exact .of hs.doFordTrainingDone
  | fordFlitReceive => exact .of hs.doFordFlit
  | fordLaneCheck => exact .of hs.doLaneCheck
  | fordLaneRepairDone => exact .of hs.doLaneRepaired
  | fordLinkDown => exact .of hs.doFordDown
  | heartbeatSend => exact .of hs.doHeartbeatSend
  | heartbeatReceive => exact .of hs.doHeartbeatReceive
  | fatalNoticeReceive => exact .of hs.doFatalNotice
  | peerLost => exact .of hs.doPeerLost
  | peerUp => exact .of hs.doPeerUp
  | learnShareNotice => exact .of hs.doLearnShare
  | faultReport => exact .of (.orWait hs (fun h1 => h1.doFaultReport))
  | recAck => exact .of (.ite hs.recAck hs)
  | recLoRead => exact .of (.ite hs.recLoRead hs)
  | detailARead => exact .of (.ite hs.detailARead hs)
  | detailBRead => exact .of (.ite hs.detailBRead hs)
  | hubEventToPrivet => exact .of hs.doHubEvent
  | faultnPulseEnd => exact .of hs.doPulseEnd
  | spareHandover => exact .of hs.doHandover
  | selfTestEnd => exact .of hs.doSelfTest
  | reweightBatch => exact .of hs.doReweight
  | privetHbWrite => exact .of hs.doHbWrite
  | privetHbWindow => exact .of hs.doHbWindow
  | privetRelease => exact .of hs.doPrivetRelease
  | halfRestart => exact .of hs.doHalfRestart
  | privetInfo => exact .of (.ite hs.doInfo hs)
  | imgStage => exact .of (.ite (.orWait hs (fun h1 => h1.doImgStage)) hs)
  | imgActivate => exact .of (.ite hs.doImgActivate hs)
  | imgConfirm => exact .of (.ite hs.doImgConfirm hs)
  | storeCommit => exact .of (.ite hs.doStoreCommit hs)
  | logRead => exact .of (.ite (.orWait hs (fun h1 => h1.doLogRead)) hs)
  | i2cXfer => exact .of (.ite (.orWait hs (fun h1 => h1.doI2c)) hs)
  | grant => exact .of (.ite hs.doGrant hs)
  | debugChallenge => exact .of (.ite hs.doChallenge hs)
  | debugUnlock => exact .of (.ite (.orWait hs (fun h1 => h1.doUnlock)) hs)
  | ccReload => exact .of (.ite hs.doCcReload hs)
  | mbGo => exact .of hs.mbGo
  | debugLock => exact .of (.ite hs.lockDebug hs)
  | debugTokenExpire => exact .of hs.doTokenExpire
  | tftpStage => exact .of hs.doTftpStage
  | storeAutoCommit => exact .of hs.doAutoCommit
  | logFlush => exact .of hs.doLogFlush
  | calViewWrite => exact .of (.ite hs.calWrite hs)
  | sensorSample => exact .of hs.doSensorSample
  | senseTempRead => exact .of (.ite hs.tempRead hs)
  | thermalRelease => exact .of hs.doThermalRelease
  | railSample => exact .of hs.doRailSample
  | clockMonitorWindow => exact .of hs.doClockWindow
  | refclkLoss => exact .of hs.doRefclkLoss
  | pllUnlock => exact .of hs.doPllUnlock
  | ioPllUnlock => exact .of hs.doPllLost
  | droopRise => exact .of hs.doDroopRise
  | droopFall => exact .of hs.doDroopFall
  | droopStatRead => exact .of (.ite hs.droopRead hs)
  | pfailAssert => exact .of hs.doPfailAssert
  | pfailDeassert => exact .of hs.doPfailDeassert
  | poresetN => exact .of hs.doPoreset
  | sysresetN => exact .of hs.doSysreset
  | resetRelease => exact .of hs.doRelease
  | nosReady => exact .of (.ite hs.setNosReady hs)
  | pciePerstN => exact .of hs.doPerst
  | functionLevelReset => exact .of hs.doFlr
  | mgmtFrameReceive => exact .of (.orWait hs (fun h1 => h1.doMgmtReceive))
  | mgmtFrameTransmit => exact .of (.orWait hs (fun h1 => h1.doMgmtTransmit))
  | ringDeliver => exact .of (.orWait hs (fun h1 => h1.doRingDeliver))
  | mirrorPeerApply => exact .of (.orWait hs (fun h1 => h1.doMirrorApply))
  | fkDrain => exact .of (.fkRun hs (fun h1 => .ite_state h1 h1))
  | fkAlu64 => exact .of (.fkRun hs (fun h1 => h1.alu64Body))
  | fkAddi64 => exact .of (.fkRun hs (fun h1 => h1.putG64))
  | fkLd | fkLwu => exact .of (.fkRun hs (fun h1 => h1.loadBody64))
  | fkSwapm | fkAddm | fkCasm => exact .of (.fkRun hs (fun h1 => h1.swapBody))
  | fkGret | fkMtkr => exact .of (.fkRun hs (fun h1 => .privBody h1 (fun h2 => h2.updThread)))
  | fkMfkr => exact .of (.fkRun hs (fun h1 => .privBody h1 (fun h2 => h2.putG64)))
  | fkXlinv => exact .of (.fkRun hs (fun h1 => .privBody h1 (fun h2 => h2.rest)))
  | extestLoad => exact .of hs.doExtest
  | transmitFrameEnd => exact .of hs.doFrameOut
  | hbmStackTempReport => exact .of hs.doStackTemp
  | remoteFaultChange => exact .of hs.doRemoteFault
  | ioPllRelock => exact .of hs.doPllBack
  | refclkArrival => exact .of hs.doRefclkArrival
  | pstoreRewriteDone => exact .of hs.doPstoreRewrite
  | flashEraseDone => exact .of hs.doEraseDone
  | count => exact hs.execCount
  | fkRet => exact hs.execFkRet
  | fkRspop => exact hs.execFkRspop
  | fkPush => exact hs.execFkPush
  | fkPop => exact hs.execFkPop
  | fkFrd => exact hs.execFkFrd
  | fkHrd => exact hs.execFkHrd
  | fkHwr => exact hs.execFkHwr
  | fkTwait => exact hs.execFkTwait
  | fkTdone => exact hs.execFkTdone
  | fkTdrop => exact hs.execFkTdrop
  | fkPostf => exact hs.execFkPostf
  | fkChrecv => exact hs.execFkChrecv
  | fkLock => exact hs.execFkLock
  | fkTrylock => exact hs.execFkTrylock
  | fkUnlock => exact hs.execFkUnlock
  | fkCpsave => exact hs.execFkCpsave
  | fkCprestore => exact hs.execFkCprestore
  | fkCvcfg => exact hs.execFkCvcfg
  | fkCvupd => exact hs.execFkCvupd
  | fkCvfin => exact hs.execFkCvfin
  | fkCvappend => exact hs.execFkCvappend
  | fkCvcheck => exact hs.execFkCvcheck
  | fkHcfg => exact hs.execFkHcfg
  | fkSd => exact hs.execFkSd

/-- A step is a tick or a command. -/
theorem State.Regs.step (hs : s.Regs) : NextRegs (Machine.step s) := by
  unfold Machine.step
  split
  · exact .of hs.tick
  · exact hs.rest.exec _

end

theorem State.registersWf_iff {s : State} : s.registersWf = true ↔ s.Regs := by
  simp only [State.registersWf, Bool.and_eq_true]
  exact ⟨fun ⟨⟨hc, hg⟩, hu⟩ => ⟨hc, hg, hu⟩, fun hs => ⟨⟨hs.csr, hs.staged⟩, hs.units⟩⟩

end Sys2Proof.Machine

/-- Settles O3: every operation of the model keeps the three tables canonical, and a step is one of them. -/
theorem stepKeepsRegisters : Obligations.StepKeepsRegisters := fun _ _ hs hst =>
  Sys2Proof.Machine.State.registersWf_iff.mpr ((Sys2Proof.Machine.State.registersWf_iff.mp hs).step _ hst)

section
open Sys2Proof Sys2Proof.Machine

namespace Sys2Proof.Machine

/-- Both halves begin alike, so that what a half holds right after reset does not depend on which half it is. -/
theorem Pair.get_diag {α : Type} (x : α) (h : Half) : Pair.get ⟨x, x⟩ h = x := by
  unfold Pair.get
  split <;> rfl

theorem State.reset_time (h : Half) : State.reset.time.get h = TimeState.reset := Pair.get_diag _ h

theorem State.reset_hubs (h : Half) : State.reset.hubs.get h = HubState.reset := Pair.get_diag _ h

end Sys2Proof.Machine

/-- Settles O2: every table of the reset state is empty, so every read gives its default. -/
theorem resetLeaves : Obligations.ResetLeaves := by
  refine ⟨rfl, rfl, fun _ => rfl, fun _ _ => ⟨rfl, rfl⟩, fun h => ?_, rfl, rfl, rfl, rfl⟩
  have ht := State.reset_time h
  have hh := State.reset_hubs h
  refine ⟨?_, ?_, ?_, fun k => ?_⟩
  · rw [State.dts, ht]; rfl
  · rw [ht]; rfl
  · rw [hh]; rfl
  · rw [HubState.openAt, hh]; rfl
end

section
open Sys2Proof Sys2Proof.Machine

namespace Sys2Proof.Machine

/-! ### Operations that write registers alone -/

/-- `t` is `s` but for its registers. -/
def State.OnlyCsr (s t : State) : Prop := ∃ r, t = { s with csr := r }

theorem State.OnlyCsr.refl (s : State) : s.OnlyCsr s := ⟨s.csr, rfl⟩

theorem State.OnlyCsr.trans {s t u : State} (h : s.OnlyCsr t) (h' : t.OnlyCsr u) : s.OnlyCsr u := by
  obtain ⟨r, rfl⟩ := h
  obtain ⟨r', rfl⟩ := h'
  exact ⟨r', rfl⟩

theorem State.onlyCsr_setReg (s : State) (b : Blk) (off : Nat) (v : DWord) : s.OnlyCsr (s.setReg b off v) := ⟨_, rfl⟩

theorem State.onlyCsr_setRfld (s : State) (b : Blk) (off lsb len x : Nat) : s.OnlyCsr (s.setRfld b off lsb len x) := ⟨_, rfl⟩

theorem State.onlyCsr_foldl {α : Type} {f : State → α → State} (hf : ∀ s x, State.OnlyCsr s (f s x)) (xs : List α) (s : State) :
    s.OnlyCsr (xs.foldl f s) := by
  induction xs generalizing s with
  | nil => exact .refl s
  | cons x xs ih => exact (hf s x).trans (ih (f s x))

theorem State.onlyCsr_settleForce (s : State) (u : UnitId) (st : UState) : s.OnlyCsr (s.settleForce u st) := by
  unfold State.settleForce
  split
  · exact .refl s
  · exact s.onlyCsr_setRfld _ _ _ _ _

/-! ### Requests (R54, R58) -/

section
variable {s : State} {a : Agent} {u : UnitId}

theorem State.reqReset_of_open (ho : s.requestOpen a u = true) (hb : s.boundByParent u = false) (hr : s.ustate u ≠ .reset)
    (hoff : s.ustate u ≠ .off) (hf : s.ustate u = .fenced → s.heldFenced u = false) :
    s.reqReset a u = s.beginEntry u .reset (agentCause a) :=
  if_pos ⟨ho, by simp [hb], hr, fun h => absurd h hoff, fun h => by simp [hf h]⟩

theorem State.reqTest_of_open (ho : s.requestOpen a u = true) (hb : s.boundByParent u = false)
    (hst : s.ustate u = .reset ∨ s.ustate u = .active) : s.reqTest a u = s.enterTest u (agentCause a) :=
  if_pos ⟨ho, by simp [hb], hst⟩

theorem State.reqActive_of_open (ho : s.requestOpen a u = true) (hb : s.boundByParent u = false)
    (hst : s.ustate u = .reset ∨ s.ustate u = .test) (hp : s.parentState u = .active) :
    s.reqActive a u = s.enterUp u .active (agentCause a) :=
  if_pos ⟨ho, by simp [hb], hst, hp⟩

theorem State.reqFence_of_open (ho : s.requestOpen a u = true) (hb : s.boundByParent u = false)
    (hst : s.ustate u = .active ∨ s.ustate u = .test) : s.reqFence a u = s.beginEntry u .fenced (agentCause a) :=
  if_pos ⟨ho, by simp [hb], hst⟩

theorem State.reqOff_of_open (ho : s.requestOpen a u = true) (hb : s.boundByParent u = false) (hm : mayBeOff u = true)
    (hoff : s.ustate u ≠ .off) (hf : s.ustate u ≠ .fenced) : s.reqOff a u = s.beginEntry u .off (agentCause a) :=
  if_pos ⟨ho, by simp [hb], hm, hoff, fun h => absurd h hf⟩

theorem State.reqTree_of_open (ho : s.requestOpen a u = true) (hb : s.boundByParent u = false) (hst : s.ustate u = .active) :
    s.reqTree a u = s.activeTree u (agentCause a) :=
  if_pos ⟨ho, by simp [hb], .inl hst⟩

theorem State.reqReset_of_closed (h : s.requestOpen a u = false) : s.reqReset a u = s := if_neg fun hc => by simp [h] at hc
theorem State.reqTest_of_closed (h : s.requestOpen a u = false) : s.reqTest a u = s := if_neg fun hc => by simp [h] at hc
theorem State.reqActive_of_closed (h : s.requestOpen a u = false) : s.reqActive a u = s := if_neg fun hc => by simp [h] at hc
theorem State.reqFence_of_closed (h : s.requestOpen a u = false) : s.reqFence a u = s := if_neg fun hc => by simp [h] at hc
theorem State.reqOff_of_closed (h : s.requestOpen a u = false) : s.reqOff a u = s := if_neg fun hc => by simp [h] at hc
theorem State.reqTree_of_closed (h : s.requestOpen a u = false) : s.reqTree a u = s := if_neg fun hc => by simp [h] at hc

theorem State.reqOff_of_not_mayBeOff (h : mayBeOff u = false) : s.reqOff a u = s := if_neg fun hc => by simp [h] at hc

/-- A unit in FENCED or OFF leaves it by RESET or OFF alone. -/
theorem State.req_of_fenced_or_off (h : s.ustate u = .fenced ∨ s.ustate u = .off) :
    s.reqTest a u = s ∧ s.reqActive a u = s ∧ s.reqFence a u = s ∧ s.reqTree a u = s := by
  have hr : s.ustate u ≠ .reset := by rcases h with h | h <;> simp [h]
  have ht : s.ustate u ≠ .test := by rcases h with h | h <;> simp [h]
  have ha : s.ustate u ≠ .active := by rcases h with h | h <;> simp [h]
  refine ⟨if_neg ?_, if_neg ?_, if_neg ?_, if_neg ?_⟩ <;> simp [hr, ht, ha]

/-- What a command whose agent reaches the unit does, for each of the six requests. -/
theorem exec_request_of_reach (hr : s.agentReach a u = true) :
    exec (.requestReset a u) s = .next (s.reqReset a u) ∧ exec (.requestTest a u) s = .next (s.reqTest a u) ∧
    exec (.requestActive a u) s = .next (s.reqActive a u) ∧ exec (.requestFence a u) s = .next (s.reqFence a u) ∧
    exec (.requestOff a u) s = .next (s.reqOff a u) ∧ exec (.activeTree a u) s = .next (s.reqTree a u) := by
  have hn (t : State) : (.next (if s.agentReach a u then t else s) : Out) = .next t := by rw [if_pos hr]
  exact ⟨hn _, hn _, hn _, hn _, hn _, hn _⟩

/-- A request that the unit ignores leaves the machine as it is, whether its agent reaches the unit or not. -/
theorem next_ite_of_eq {t : State} (h : t = s) : (.next (if s.agentReach a u then t else s) : Out) = .next s := by
  rw [h, ite_self]

end

/-! ### Transitions (R45, R48, R56) -/

theorem State.unit_setUState (s : State) (u : UnitId) (st : UState) (cause : BitVec 8) (h : Tbl.wf s.units = true) :
    (s.setUState u st cause).unit u =
      { s.unit u with state := st, cause := cause, entering := none, power := if st = .off then 3 else 0,
                      faultCount := if (s.unit u).state = .reset ∧ st ≠ .reset then 0 else (s.unit u).faultCount } :=
  State.unit_updUnit_same s u _ h

theorem State.enterUp_table_of_reset {s : State} {h : Half} {n : Fin 8} (c : BitVec 8) (hst : s.ustate (.table h n) = .reset) :
    s.enterUp (.table h n) .active c = (s.setUState (.table h n) .active c).settleForce (.table h n) .active := by
  unfold State.enterUp
  rw [if_pos hst]
  rfl

theorem State.unit_of_onlyCsr {s t : State} (h : s.OnlyCsr t) (u : UnitId) : t.unit u = s.unit u := by
  obtain ⟨r, rfl⟩ := h
  rfl

theorem State.enterUp_table (s : State) (h : Half) (n : Fin 8) (c : BitVec 8) (hw : Tbl.wf s.units = true)
    (hst : s.ustate (.table h n) = .reset) :
    (s.enterUp (.table h n) .active c).ustate (.table h n) = .active ∧ ((s.enterUp (.table h n) .active c).unit (.table h n)).cause = c ∧
    ((s.enterUp (.table h n) .active c).unit (.table h n)).faultCount = 0 ∧
    s.enterUp (.table h n) .active c =
      { s with csr := (s.enterUp (.table h n) .active c).csr, units := (s.enterUp (.table h n) .active c).units } := by
  have hu : (s.unit (.table h n)).state = .reset := hst
  rw [State.enterUp_table_of_reset c hst]
  have hc := (s.setUState (.table h n) .active c).onlyCsr_settleForce (.table h n) .active
  generalize (s.setUState (.table h n) .active c).settleForce (.table h n) .active = t at hc ⊢
  have hunit := State.unit_of_onlyCsr hc (.table h n)
  rw [State.unit_setUState s _ _ _ hw] at hunit
  refine ⟨?_, ?_, ?_, ?_⟩
  · rw [State.ustate, hunit]
  · rw [hunit]
  · rw [hunit]; simp [hu]
  · obtain ⟨r, rfl⟩ := hc
    rfl

theorem subtree_core (h : Half) (t : TileIx) (c k : Fin 4) : subtree (.core h t c k) = [.core h t c k] := rfl

/-- A core has no descendants and nothing to start, so its entry sets its own state alone. -/
theorem State.completeEntry_core {s : State} {h : Half} {t : TileIx} {c k : Fin 4} {dest : UState} {cause : BitVec 8}
    (he : (s.unit (.core h t c k)).entering = some (dest, cause)) :
    s.completeEntry (.core h t c k) = s.setUState (.core h t c k) dest cause := by
  rw [State.completeEntry, subtree_core, List.foldl_cons, List.foldl_nil, he]

/-- The end of an entry is the completion of the entry, where no start of the firmware follows it. -/
theorem exec_unitEntryComplete (s : State) (u : UnitId) (hp : s.entering (.privet 0) = false) :
    exec (.unitEntryComplete u) s = .next (doEntryComplete u s) :=
  congrArg Host.Outcome.next (if_neg fun hc => by simp [hp] at hc)

/-- A unit whose entry is not under way ends none, and a firmware that is entered is not live. -/
theorem exec_unitEntryComplete_of_not_entering {s : State} {u : UnitId} (he : s.entering u = false) :
    exec (.unitEntryComplete u) s = .next s := by
  have hu : doEntryComplete u s = s := if_neg fun hc => by simp [he] at hc
  have hp : ¬ (s.entering (.privet 0) = true ∧ s.live (.privet 0) = true) := by
    rintro ⟨hent, hlive⟩
    rw [State.entering, Option.isSome_iff_ne_none] at hent
    simp_all [State.live]
  exact congrArg Host.Outcome.next (by rw [doEntryEnd, hu]; exact if_neg hp)

/-! ### The state of the device (R60) -/

/-- A change of the device state sets the device state and, of the rest, registers alone. -/
theorem State.setDev_frame (s : State) (d : DevState) :
    (s.setDev d).dev = { s.dev with devState := d, loadPend := if d = .start then s.dev.loadPend else false } ∧
    s.setDev d = { s with csr := (s.setDev d).csr, dev := (s.setDev d).dev } := by
  unfold State.setDev
  dsimp only
  split
  · have hf (v : State) :
        v.OnlyCsr (allUnits.foldl (fun s u => if s.ustate u = .test then s else s.setRfld (ownBlk u) R.ucb_INJECT 0 32 0) v) := by
      refine State.onlyCsr_foldl (fun s u => ?_) allUnits v
      split
      · exact .refl s
      · exact s.onlyCsr_setRfld _ _ _ _ _
    obtain ⟨r, hr⟩ := hf { s with dev := { s.dev with devState := d, loadPend := if d = .start then s.dev.loadPend else false } }
    rw [hr]
    exact ⟨rfl, rfl⟩
  · exact ⟨rfl, rfl⟩

/-- The requests of another agent than Privet do not change the state of the device. -/
theorem doDev_of_ne_privet {a : Agent} (h : a ≠ .privet) (s : State) : doDevRun a s = s ∧ doDevRecovery a s = s :=
  ⟨if_neg fun hc => h hc.1, if_neg fun hc => h hc.1⟩

theorem doDevRun_privet {s : State} (h : s.startDone = true ∨ s.dev.devState = .recovery) : doDevRun .privet s = s.setDev .run :=
  if_pos ⟨rfl, h⟩

theorem doDevRecovery_privet_of_run {s : State} (h : s.dev.devState = .run) : doDevRecovery .privet s = s.setDev .recovery :=
  if_pos ⟨rfl, .inl h⟩

theorem setNosReady_of_start {s : State} {a : Agent} (hok : s.agentOk a .device = true) (hd : s.dev.devState = .start) :
    s.setNosReady a = s.updPv fun p => { p with start := { p.start with nosReady := true } } :=
  if_pos ⟨hok, hd⟩

end Sys2Proof.Machine

/-- Settles O22: each request is one of the lemmas about its function, and so is each transition. -/
theorem unitTransitions : Obligations.UnitTransitions := by
  refine ⟨⟨fun s a u hr ho hb => ?_, fun s a u hc => ?_, fun s a u hm => ?_, fun s a u hst => ?_⟩,
    ⟨fun s h n c hw hst => State.enterUp_table s h n c hw hst, fun s h t c k dest cause hw he ha hp => ?_, fun s u he ha hp => ?_,
      fun s u he => ?_⟩,
    fun s h => ?_, fun s h => ?_, fun s a ha => ?_, fun s a hr hok hd => ?_, fun s a hd => ?_⟩
  · obtain ⟨hreset, htest, hactive, hfence, hoff, htree⟩ := exec_request_of_reach hr
    refine ⟨fun hst => ?_, fun hst hf => ?_, fun hst => ?_, fun hst hp => ?_, fun hst => ?_, fun hst hm => ?_, fun hst => ?_⟩
    · rw [hreset]
      rcases hst with hst | hst <;> rw [State.reqReset_of_open ho hb] <;> simp [hst]
    · rw [hreset, State.reqReset_of_open ho hb] <;> simp [hst, hf]
    · rw [htest, State.reqTest_of_open ho hb hst]
    · rw [hactive, State.reqActive_of_open ho hb hst hp]
    · rw [hfence, State.reqFence_of_open ho hb hst.symm]
    · rw [hoff]
      rcases hst with hst | hst | hst <;> rw [State.reqOff_of_open ho hb hm] <;> simp [hst]
    · rw [htree, State.reqTree_of_open ho hb hst]
  · exact ⟨next_ite_of_eq (State.reqReset_of_closed hc), next_ite_of_eq (State.reqTest_of_closed hc),
      next_ite_of_eq (State.reqActive_of_closed hc), next_ite_of_eq (State.reqFence_of_closed hc),
      next_ite_of_eq (State.reqOff_of_closed hc), next_ite_of_eq (State.reqTree_of_closed hc)⟩
  · exact next_ite_of_eq (State.reqOff_of_not_mayBeOff hm)
  · obtain ⟨htest, hactive, hfence, htree⟩ := State.req_of_fenced_or_off hst
    exact ⟨next_ite_of_eq htest, next_ite_of_eq hactive, next_ite_of_eq hfence, next_ite_of_eq htree⟩
  · refine ⟨s.setUState (.core h t c k) dest cause, ?_, ?_⟩
    · rw [exec_unitEntryComplete s _ hp, doEntryComplete, if_pos (by simp [State.entering, he, ha]), State.completeEntry_core he]
    · rw [State.ustate, State.unit_setUState s _ dest cause hw]
      exact ⟨rfl, rfl, rfl, rfl⟩
  · rw [exec_unitEntryComplete s u hp, doEntryComplete, if_pos (by simp [he, ha])]
  · rw [exec_unitEntryComplete_of_not_entering he]
  · obtain ⟨hdev, hframe⟩ := s.setDev_frame .run
    exact ⟨_, congrArg Host.Outcome.next (doDevRun_privet h), by rw [hdev], by rw [hdev]; rfl, hframe⟩
  · obtain ⟨hdev, hframe⟩ := s.setDev_frame .recovery
    exact ⟨_, congrArg Host.Outcome.next (doDevRecovery_privet_of_run h), by rw [hdev], hframe⟩
  · obtain ⟨hrun, hrec⟩ := doDev_of_ne_privet ha s
    exact ⟨congrArg Host.Outcome.next hrun, congrArg Host.Outcome.next hrec⟩
  · refine ⟨_, (congrArg Host.Outcome.next (if_pos hr)).trans (congrArg Host.Outcome.next (setNosReady_of_start hok hd)), rfl, rfl⟩
  · exact next_ite_of_eq (if_neg fun hc => hd hc.2)
end

section
open Sys2Proof Sys2Proof.Machine

namespace Sys2Proof.Machine

/-! ### Injected faults (R51, R52, R566–R568) -/

section
variable {s : State} {u : UnitId}

theorem State.forceWrite_of_idle {v : Nat} (h : s.forceActs (s.ustate u) = false) : s.forceWrite u v = s :=
  if_neg (by simp [h])

theorem State.forceWrite_zero (h : s.forceActs (s.ustate u) = true) : s.forceWrite u 0 = s.setRfld (ownBlk u) R.ucb_INJECT 0 32 0 := by
  rw [State.forceWrite, if_pos h]
  simp

/-- The only bit set in a power of two is its exponent's. -/
theorem filter_testBit_two_pow {k n : Nat} (hk : k < n) : ((List.range n).filter fun i => (2 ^ k).testBit i) = [k] := by
  have hp : (fun i => (2 ^ k).testBit i) = fun i => decide (i = k) := by
    funext i
    rw [Nat.testBit_two_pow]
    exact decide_eq_decide.mpr eq_comm
  rw [hp, List.filter_eq, List.count_eq_one_of_mem List.nodup_range (List.mem_range.mpr hk), List.replicate_one]

/-- A FORCE with one new bit forces the fault of that bit. -/
theorem State.forceWrite_two_pow {k : Nat} (hk : k < 32) (h : s.forceActs (s.ustate u) = true)
    (h0 : s.rfld (ownBlk u) R.ucb_INJECT 0 32 = 0) :
    s.forceWrite u (2 ^ k) = (s.setRfld (ownBlk u) R.ucb_INJECT 0 32 (2 ^ k)).force u k := by
  rw [State.forceWrite, if_pos h, h0]
  simp only [Nat.zero_testBit, Bool.not_false, Bool.and_true, filter_testBit_two_pow hk, List.foldl_cons, List.foldl_nil]

theorem State.armInv_of_checker {sel : Nat} (hc : (checkerOf (unitKind u) (sel % 32)).isSome = true) (hz : bits sel 5 2 = 0) :
    s.armInv u sel = (s.setRfld (ownBlk u) R.ucb_INJECT 40 8 sel).updUnit u fun x => { x with invPend := true } :=
  if_pos ⟨hc, hz⟩

/-- A checker with one unit armed looks at that unit's word alone. -/
theorem State.checked_of_armed_eq (s1 : State) (h : s.armed = [u]) :
    s.checked s1 = s1.updUnit u fun d => d.wrote (s.invSel u) (s.wrote s1 u (s.invSel u % 32)) := by
  rw [State.checked, h, List.foldl_cons, List.foldl_nil]

end

theorem UnitDyn.wrote_of_pending {d : UnitDyn} (h : d.invPend = true) (sel a : Nat) (l : List Nat) :
    d.wrote sel (a :: l) = { d with invPend := false, invAt := some (sel, a) } := by
  rw [UnitDyn.wrote, if_pos h]

/-- A write of the marked word drops the mark; a write of other words leaves the unit as it is. -/
theorem UnitDyn.wrote_of_marked {d : UnitDyn} (h : d.invPend = false) {n b : Nat} (hat : d.invAt = some (n, b)) (sel a : Nat) (l : List Nat) :
    d.wrote sel (a :: l) = if b ∈ a :: l then { d with invAt := none } else d := by
  rw [UnitDyn.wrote, if_neg (by simp [h]), hat]
  simp only [List.contains_iff_mem]

/-! ### The spare core of a tile (R571, R574) -/

section
variable {s : State} {h : Half} {t : TileIx}

/-- A spare core that is idle in RESET takes over the next position, where no commit waits at the core that leaves it. -/
theorem doHandover_of_idle (hs : (s.tile h t).spare.state = .idle) (hl : s.live (.tile h t) = true)
    (hb : bit (s.reg (bTile h t) R.tile_SPARE_CFG) 0 = true) (hr : s.ustate (.spare h t) = .reset) (he : s.entering (.spare h t) = false)
    (hc : (s.commits.any fun c => c.waiting.contains (coreAt h t ((s.tile h t).spare.nextPos % 16))) = false) :
    doHandover h t s = ((s.updSpare h t fun y =>
       { y with phys := tset ((s.tile h t).spare.nextPos % 16) y.phys ((s.tile h t).spare.nextPos % 16) (s.tile h t).spare.spare,
                spare := tget ((s.tile h t).spare.nextPos % 16) (s.tile h t).spare.phys ((s.tile h t).spare.nextPos % 16),
                nextPos := ((s.tile h t).spare.nextPos % 16 + 1) % 16, state := .testing }).enterUp (.spare h t) .test 0x05).bump
         (bTile h t) R.tile_ROTATIONS := by
  rw [doHandover, if_pos ⟨hs, hl, hb, .inl hr, by simp [he]⟩]
  dsimp only
  rw [hc, if_neg Bool.false_ne_true]

theorem State.spareTested_pass (hs : (s.tile h t).spare.state = .testing) :
    s.spareTested h t true = ((((((s.setUState (.spare h t) .reset 0x05).settleForce (.spare h t) .reset).setReg (bTile h t) R.tile_LAST_PASS
       (s.dts h)).bump (bTile h t) R.tile_LBIST_PASSES).updSpare h t fun y => { y with state := .idle }).settleSpare h t) := by
  rw [State.spareTested, if_pos hs, if_pos rfl]

theorem State.spareTested_fail (hs : (s.tile h t).spare.state = .testing) :
    s.spareTested h t false = (s.report (.tile h t) F.LBIST_FAIL).physFails h t (s.tile h t).spare.spare false := by
  rw [State.spareTested, if_pos hs, if_neg Bool.false_ne_true]

/-- A batch that moves load away from a tile takes the highest free slot and is posted there. -/
theorem doReweight_of_applied {b : Nat} {rest : List Nat} {r : BatchRec} {rs : List BatchRec} {s1 : State}
    (ho : (s.tile h t).spare.owed = true) (hb : bit (s.reg (bHub h) R.hub_RECOVERY_CFG) 1 = true) (hl : s.live (.table h 7) = true)
    (hn : (s.tab.get h).builds = []) (hp : s.hubs.h0.privet = .up)
    (hf : ((List.range 256).filter fun b => decide ((s.bslot h b).state = .free)).reverse = b :: rest) (hr : s.reweighRecs h t = r :: rs)
    (ha : (s.updSlot h b fun _ => { BatchSlot.init with state := .building }).applyAll h b (r :: rs) = some s1) :
    doReweight h t s =
      ((s1.updSlot h b fun x => { x with state := .ready }).postSlot h b (s.dts h + 64)).updSpare h t fun x => { x with owed := false } := by
  have hg : (s.tab.get h).builds.isEmpty = true := by rw [hn]; rfl
  simp only [doReweight, if_pos (And.intro ho (And.intro hb (And.intro hl (And.intro hg hp)))), hf, hr, ha]

end

/-! ### The pulse of FAULT_N and Privet's heartbeat (R564, R578, R579, R586) -/

/-- A pulse that is over ends at its hub; the other hub's goes on. -/
theorem doPulseEnd_of_first_due {s : State} {e0 e1 : Nat} (h0 : s.hubs.h0.pulseEnd = some e0) (h1 : s.hubs.h1.pulseEnd = some e1)
    (hle : e0 ≤ s.ticks) (hlt : s.ticks < e1) :
    doPulseEnd s = { s with hubs := ⟨{ s.hubs.h0 with pulseEnd := none }, s.hubs.h1⟩ } := by
  simp only [doPulseEnd, h0, h1, if_pos hle, if_neg (Nat.not_le.mpr hlt)]

section
variable {s : State} {h : Half}

theorem doHbWrite_privet (hf : (s.hubs.get h).privet ≠ .fenced) :
    doHbWrite .privet h s = s.updHub h fun x => { x with hbSeen := true, privet := .up } :=
  if_pos ⟨rfl, hf⟩

theorem doHbWrite_of_ne_privet {a : Agent} (ha : a ≠ .privet) : doHbWrite a h s = s := if_neg fun hc => ha hc.1

/-- A window that ends with a heartbeat seen begins the next one. -/
theorem doHbWindow_of_seen (hd : s.ustate .device = .active) (he : (s.hubs.get h).hbEnd ≤ s.ticks) (hf : (s.hubs.get h).privet ≠ .fenced)
    (hs : (s.hubs.get h).hbSeen = true) :
    doHbWindow h s = s.updHub h fun x => { x with hbEnd := s.ticks + 1500000, hbSeen := false } := by
  rw [doHbWindow, if_neg (by simp [hd, hf, Nat.not_lt.mpr he]), if_pos hs]

/-- A window of half 0's hub that ends without a heartbeat counts a loss, reports it and draws its reaction. -/
theorem doHbWindow_zero_of_lost (hd : s.ustate .device = .active) (he : (s.hubs.get 0).hbEnd ≤ s.ticks) (hf : (s.hubs.get 0).privet ≠ .fenced)
    (hs : (s.hubs.get 0).hbSeen = false) :
    doHbWindow 0 s = (((s.updHub 0 fun x => { x with hbEnd := s.ticks + 1500000, hbSeen := false }).countLoss 0).report
       (.hub 0) F.PRIVET_HEARTBEAT).heartbeatActs 0 false := by
  rw [doHbWindow, if_neg (by simp [hd, hf, Nat.not_lt.mpr he]), if_neg (by simp [hs]), if_neg fun hc => absurd hc.1 (by decide)]

theorem doPrivetRelease_control {g : Half} {n : Fin 32} (hu : s.inUser g n = false) (hf : (s.hubs.get h).privet = .fenced) :
    doPrivetRelease (.control g n) h s =
      ({ s with hubs := ⟨{ s.hubs.h0 with hbLosses := [] }, { s.hubs.h1 with hbLosses := [] }⟩ }).restartPrivet 0x08 :=
  if_pos ⟨by simp [hu], hf⟩

theorem doPrivetRelease_privet : doPrivetRelease .privet h s = s := by
  unfold doPrivetRelease
  exact if_neg fun hc => Bool.false_ne_true hc.1

/-! ### The restart of a fenced half (R61, R581) -/

theorem doHalfRestart_of_fenced (hf : s.ustate (.half h) = .fenced) (he : s.entering (.half h) = false) (hd : s.dev.devState ≠ .run)
    (hm : s.mayRestart h = true) : doHalfRestart h s = s.restartHalf h :=
  if_pos ⟨hf, by simp [he], hd, hm⟩

theorem doHalfRestart_of_run (hd : s.dev.devState = .run) : doHalfRestart h s = s := if_neg fun hc => hc.2.2.1 hd

end

end Sys2Proof.Machine

/-- Settles O27: each command is one of the lemmas about its function. -/
theorem injectionAndRecovery : Obligations.InjectionAndRecovery := by
  have hnext {s t : State} (h : s = t) : (.next s : Out) = .next t := congrArg Host.Outcome.next h
  refine ⟨⟨fun s a u v hr hf => ?_, fun s a u hr hf => ?_, fun s a u k hr hf h0 => ?_, fun s a u sel hr hc hu hk hz => ?_,
      fun s e0 e1 h0 h1 hle hlt => hnext (doPulseEnd_of_first_due h0 h1 hle hlt),
      fun s h t hs hl hb hr he hc => hnext (doHandover_of_idle hs hl hb hr he hc),
      fun s h t hs => ⟨hnext (State.spareTested_pass hs), hnext (State.spareTested_fail hs)⟩,
      fun s h t b a hw => ⟨_, rfl, ?_, rfl⟩, fun d sel a l => ⟨fun hp => ?_, fun hp n b hat => ?_, rfl⟩,
      fun s s1 u h => State.checked_of_armed_eq s1 h⟩,
    fun s h v hf => hnext (doHbWrite_privet hf), fun s a h v ha => hnext (doHbWrite_of_ne_privet ha),
    fun s h hd he hf hs => hnext (doHbWindow_of_seen hd he hf hs), fun s hd he hf hs => hnext (doHbWindow_zero_of_lost hd he hf hs),
    fun s g h n hu hf => hnext (doPrivetRelease_control hu hf), fun s h => hnext doPrivetRelease_privet,
    fun s h t b r rs rest s1 ho hb hl hn hp hf hr ha => hnext (doReweight_of_applied ho hb hl hn hp hf hr ha),
    fun s h hf he hd hm => hnext (doHalfRestart_of_fenced hf he hd hm), fun s h hd => hnext (doHalfRestart_of_run hd)⟩
  · exact hnext ((if_pos hr).trans (State.forceWrite_of_idle hf))
  · exact hnext ((if_pos hr).trans (State.forceWrite_zero hf))
  · have hk : (BitVec.ofNat 32 (2 ^ k.val)).toNat = 2 ^ k.val := by
      rw [BitVec.toNat_ofNat, Nat.mod_eq_of_lt (Nat.pow_lt_pow_right Nat.one_lt_two k.isLt)]
    exact hnext ((if_pos hr).trans (by rw [hk, State.forceWrite_two_pow k.isLt hf h0]))
  · refine ⟨_, hnext ((if_pos hr).trans (State.armInv_of_checker hk hz)), ?_, ?_, rfl⟩
    · exact congrArg UnitDyn.invPend (State.unit_updUnit_same (s.setRfld (ownBlk u) R.ucb_INJECT 40 8 sel.toNat) u _ hu)
    · exact (State.rfld_setRfld_same s (ownBlk u) R.ucb_INJECT 40 8 sel.toNat hc (by decide)).trans (Nat.mod_eq_of_lt sel.isLt)
  · rw [doPstoreRewrite, State.tile_updTile_same s h t _ hw]
  · rw [UnitDyn.wrote_of_pending hp]
    exact ⟨rfl, rfl⟩
  · rw [UnitDyn.wrote_of_marked hp hat]
    refine ⟨?_, fun hb => if_neg hb⟩
    split <;> simp_all
end

section
open Sys2Proof Sys2Proof.Machine

namespace Sys2Proof.Machine

/-! ### The start of a commit (R62, R67) -/

section
variable {s : State} {u : UnitId}

/-- The subtree of a present unit has a unit to reach, so its commit is open; the commits before it are. -/
theorem State.startCommit_of_open (hp : unitPresent u = true) (ho : (s.commits.all fun c => !(c.todo.isEmpty && c.waiting.isEmpty)) = true) :
    s.startCommit u = { s with commits := s.commits ++ [⟨u, (subtree u).filter unitPresent, [], []⟩] } := by
  have hmem : u ∈ (subtree u).filter unitPresent := List.mem_filter.mpr ⟨by simp [subtree, subtreeTo], hp⟩
  have hne : ((subtree u).filter unitPresent).isEmpty = false := List.isEmpty_eq_false_iff.mpr (List.ne_nil_of_mem hmem)
  unfold State.startCommit State.settleCommits commitUnits
  rw [List.filter_append, List.filter_eq_self.mpr (List.all_eq_true.mp ho)]
  simp only [List.filter_cons, hne, Bool.false_and, Bool.not_false, if_true, List.filter_nil]

theorem State.armCommit_of_reached (h : (s.reg (ownBlk u) R.ucb_COMMIT_AT).toNat ≤ (s.dtsOf u).toNat) :
    s.armCommit u = (s.updUnit u fun d => { d with armed := false }).startCommit u := if_pos h

theorem State.armCommit_of_ahead (h : (s.dtsOf u).toNat < (s.reg (ownBlk u) R.ucb_COMMIT_AT).toNat) :
    s.armCommit u = s.setArmed u true := if_neg (Nat.not_le.mpr h)

theorem State.armed_setArmed (h : Tbl.wf s.units = true) (b : Bool) : ((s.setArmed u b).unit u).armed = b :=
  congrArg UnitDyn.armed (State.unit_updUnit_same s u _ h)

theorem doArmedStart_of_due (ha : (s.unit u).armed = true) (h : (s.reg (ownBlk u) R.ucb_COMMIT_AT).toNat ≤ (s.dtsOf u).toNat) :
    doArmedStart u s = (s.updUnit u fun d => { d with armed := false }).startCommit u := if_pos ⟨ha, h⟩

theorem doArmedStart_of_unarmed (ha : (s.unit u).armed = false) : doArmedStart u s = s := if_neg fun hc => by simp [ha] at hc

/-! ### Its reach of a unit (R62, R66) -/

theorem doCommitReach_waits {c : CommitRec} (hc : s.commits = [c]) (ht : c.todo.contains u = true) (ho : s.ustate u ≠ .off) :
    doCommitReach u s = { s with commits := [⟨c.root, c.todo.filter fun v => v ≠ u, c.waiting ++ [u], c.sides⟩] } := by
  have hw : (c.waiting ++ [u]).isEmpty = false := by simp
  simp only [doCommitReach, hc, ho, mapFirst, ht, decide_false, Bool.false_eq_true, if_false, if_true, CommitRec.reach, State.settleCommits,
    List.filter_cons, hw, Bool.and_false, Bool.not_false, List.filter_nil]

/-- At the last unit to reach, a unit in OFF, nothing is applied and the commit is over. -/
theorem doCommitReach_off {c : CommitRec} (hc : s.commits = [c]) (ht : c.todo = [u]) (hw : c.waiting = []) (ho : s.ustate u = .off) :
    doCommitReach u s = { s with commits := [] } := by
  simp [doCommitReach, hc, ho, mapFirst, ht, hw, CommitRec.drop, State.settleCommits]

end

/-! ### The sides of a port (R64) -/

/-- The sides of a PORT that are at their safe point. -/
def State.idleSides (s : State) (p : PortIx) : List (UnitId × Bool) :=
  ([true, false].filter fun rx => !s.live (.port p) || s.sideIdle p rx).map fun rx => (.port p, rx)

/-- What the idle sides of a PORT add to a commit that waits there. -/
def CommitRec.addSides (c : CommitRec) (p : PortIx) (idle : List (UnitId × Bool)) : CommitRec :=
  if c.waiting.contains (.port p) then { c with sides := c.sides ++ idle.filter fun e => !c.sides.contains e } else c

section
variable (s : State) (p : PortIx)

theorem State.applySides_eq : s.applySides p = { s with commits := s.commits.map fun c => c.addSides p (s.idleSides p) } := rfl

theorem State.contains_idleSides (rx : Bool) : (s.idleSides p).contains (.port p, rx) = (!s.live (.port p) || s.sideIdle p rx) := by
  rw [Bool.eq_iff_iff, List.contains_iff_mem]
  cases rx <;> simp [State.idleSides]

theorem CommitRec.addSides_waiting (c : CommitRec) (idle : List (UnitId × Bool)) : (c.addSides p idle).waiting = c.waiting := by
  unfold CommitRec.addSides
  split <;> rfl

theorem CommitRec.contains_addSides {c : CommitRec} (h : c.waiting.contains (.port p) = true) (idle : List (UnitId × Bool)) (e : UnitId × Bool) :
    (c.addSides p idle).sides.contains e = (c.sides.contains e || idle.contains e) := by
  rw [CommitRec.addSides, if_pos h, Bool.eq_iff_iff]
  by_cases he : e ∈ c.sides <;> simp [he]

/-- A side has applied after the step if it had before or is at its safe point. -/
theorem State.sideApplied_applySides (rx : Bool) :
    (s.applySides p).sideApplied p rx = (s.sideApplied p rx || (!s.live (.port p) || s.sideIdle p rx)) := by
  rw [← State.contains_idleSides, State.applySides_eq]
  unfold State.sideApplied
  rw [List.all_filter, List.all_filter, List.all_map]
  generalize s.idleSides p = idle
  induction s.commits with
  | nil => rfl
  | cons c cs ih =>
    rw [List.all_cons, List.all_cons, ih, Function.comp_apply, CommitRec.addSides_waiting]
    cases hc : c.waiting.contains (UnitId.port p) with
    | false => simp
    | true =>
      rw [CommitRec.contains_addSides p hc]
      cases idle.contains (UnitId.port p, rx) <;> simp

theorem State.sideIdle_rx : s.sideIdle p true = true ↔ s.arriving p = none := Option.isNone_iff_eq_none

theorem State.sideIdle_tx :
    s.sideIdle p false = true ↔ ∀ x ∈ s.sels (portHalf p) (portLocal p), x.started = true → x.ended = true := by
  simp [State.sideIdle]

end

theorem State.towardsSafe_of_ne_port {s : State} {u : UnitId} (h : ∀ p, u ≠ .port p) : s.towardsSafe u = s := by
  unfold State.towardsSafe
  split
  · next p => exact absurd rfl (h p)
  · rfl

/-- On the way to its safe point a unit changes the sides of the commits that wait there, and no more. -/
theorem State.towardsSafe_frame (s : State) (u : UnitId) :
    ∃ cs, s.towardsSafe u = { s with commits := cs } ∧ ∀ v, (cs.any fun c => c.waiting.contains v) = s.commits.any fun c => c.waiting.contains v := by
  unfold State.towardsSafe
  split
  · next p =>
    refine ⟨_, State.applySides_eq s p, fun v => ?_⟩
    rw [List.any_map]
    exact congrArg (s.commits.any ·) (funext fun c => congrArg (List.contains · v) (CommitRec.addSides_waiting p c _))
  · exact ⟨s.commits, rfl, fun _ => rfl⟩

/-! ### The copy of the staged fields (R63) -/

/-- What the application of a commit leaves in a register: the staged ST fields and the other fields' active values. -/
def State.applied (s : State) (b : Blk) (off : Nat) (r : RegRow) : DWord :=
  (s.reg b off &&& ~~~stBits r.fields) ||| (s.stg b off &&& stBits r.fields)

theorem merge_merge (x y m : DWord) : (((x &&& ~~~m) ||| (y &&& m)) &&& ~~~m) ||| (y &&& m) = (x &&& ~~~m) ||| (y &&& m) := by
  ext i
  simp only [BitVec.getElem_or, BitVec.getElem_and, BitVec.getElem_not]
  cases x[i] <;> cases y[i] <;> cases m[i] <;> rfl

theorem merge_self (x m : DWord) : (x &&& ~~~m) ||| (x &&& m) = x := by
  ext i
  simp only [BitVec.getElem_or, BitVec.getElem_and, BitVec.getElem_not]
  cases x[i] <;> cases m[i] <;> rfl

section
variable {s : State} {b : Blk} {off : Nat}

theorem State.applyReg_of_row {r : RegRow} {i : Nat} (hk : b.kind ≠ .ford) (hr : findRow (blkRows b.kind off) off = some (r, i)) :
    s.applyReg b off = s.setReg b off (s.applied b off r) := by
  have hm : s.mayApply b off = true := by simp [State.mayApply, hk]
  rw [State.applyReg, hr]
  exact if_pos hm

/-- One register's copy is a write of that register or nothing. -/
theorem State.applyReg_cases (s : State) (b : Blk) (off : Nat) : s.applyReg b off = s ∨ ∃ v, s.applyReg b off = s.setReg b off v := by
  unfold State.applyReg
  split
  · dsimp only
    split
    · exact .inr ⟨_, rfl⟩
    · exact .inl rfl
  · exact .inl rfl

end

/-- What a commit does at one listed address. -/
def State.applyAt (s : State) (a : Nat) : State :=
  match blkAt a with
  | some (_, b) => s.applyReg b (a - b.base)
  | none => s

theorem State.applyRegs_eq (s : State) (u : UnitId) : s.applyRegs u = (s.listedRegs u).foldl State.applyAt s := rfl

theorem State.onlyCsr_applyAt (s : State) (a : Nat) : s.OnlyCsr (s.applyAt a) := by
  unfold State.applyAt
  split
  · next b _ =>
    obtain h | ⟨v, h⟩ := s.applyReg_cases b (a - b.base)
    · rw [h]; exact .refl s
    · rw [h]; exact s.onlyCsr_setReg _ _ _
  · exact .refl s

theorem State.onlyCsr_applyRegs (s : State) (u : UnitId) : s.OnlyCsr (s.applyRegs u) :=
  State.onlyCsr_foldl State.onlyCsr_applyAt _ s

theorem portHalf_portOf (h : Half) {n : Nat} (hn : n < 64) : portHalf (portOf h n) = h := by
  have hv : (portOf h n).val = h.val * 64 + n := by
    rw [portOf, Fin.val_ofNat, Nat.mod_eq_of_lt hn]
    omega
  apply Fin.ext
  rw [portHalf, hv]
  split
  · rw [Fin.val_zero]; omega
  · rw [Fin.val_one]; omega

theorem portLocal_portOf (h : Half) {n : Nat} (hn : n < 64) : portLocal (portOf h n) = n := by
  rw [portLocal, portOf, Fin.val_ofNat]
  omega

/-- The block found, if one is, begins at `n`. -/
def BasedAt (n : Nat) (o : Option (UnitId × Blk)) : Prop := ∀ e ∈ o, e.2.base = n

theorem BasedAt.none {n : Nat} : BasedAt n .none := fun _ he => nomatch he

theorem BasedAt.some {n : Nat} {u : UnitId} {b : Blk} (h : b.base = n) : BasedAt n (.some (u, b)) := by
  intro e he
  obtain rfl := Option.mem_some_iff.mp he
  exact h

theorem BasedAt.ite {n : Nat} {c : Prop} [Decidable c] {x y : Option (UnitId × Blk)} (hx : c → BasedAt n x) (hy : ¬c → BasedAt n y) :
    BasedAt n (if c then x else y) := by
  split
  · next h => exact hx h
  · next h => exact hy h

theorem BasedAt.found {n : Nat} {c : Prop} [Decidable c] {u : UnitId} {b : Blk} {y : Option (UnitId × Blk)} (hb : c → b.base = n)
    (hy : ¬c → BasedAt n y) : BasedAt n (if c then Option.some (u, b) else y) := .ite (fun h => .some (hb h)) hy

/-- Each branch of the map of a half gives the block that begins at the block number asked for (R34). -/
theorem halfBlkAt_based (h : Half) (r : Nat) : BasedAt (halfBase h + r * 0x10000) (halfBlkAt h r) := by
  unfold halfBlkAt
  refine .found ?_ fun _ => .found ?_ fun _ => .found ?_ fun _ => .found ?_ fun _ => .found ?_ fun _ => .found ?_ fun _ => .found ?_ fun _ =>
    .found ?_ fun _ => .found ?_ fun _ => .found ?_ fun _ => .found ?_ fun _ => .found ?_ fun _ => .found ?port fun _ =>
    .ite (fun hr => ?tile) fun _ => .none
  case port =>
    intro hr
    have hn : r - 0x100 < 64 := by omega
    simp only [ownBlk, unitBase, portHalf_portOf h hn, portLocal_portOf h hn]
    omega
  case tile =>
    refine .found ?_ fun _ => .found ?_ fun _ => .found ?_ fun _ => .found ?_ fun _ => .found ?_ fun _ =>
      .ite (fun hq => .found ?_ fun _ => .found ?_ fun _ => .found ?_ fun _ => .none) fun _ => .none
    all_goals
      simp only [ownBlk, bTsched, bBramble, bChannel, bCoproc, unitBase, tileBase, Fin.val_ofNat]
      omega
  all_goals
    simp only [ownBlk, bCc, bShaper, unitBase, Fin.val_ofNat, Fin.val_zero, Fin.val_one]
    omega

theorem blkAt_based (a : Nat) : BasedAt (a / 0x10000 * 0x10000) (blkAt a) := by
  unfold blkAt
  refine .found (fun hb => ?_) fun _ => .found (fun hb => ?_) fun _ => .found (fun hb => ?_) fun _ => .ite (fun hb => ?_) fun _ =>
    .ite (fun hb => ?_) fun _ => .none
  · rw [hb]; rfl
  · simp only [bPrivet, ownBlk, unitBase, Fin.val_ofNat]
    omega
  · rw [hb]; rfl
  · have hbase : halfBase 0 + (a / 0x10000 - 0x1000) * 0x10000 = a / 0x10000 * 0x10000 := by
      simp only [halfBase, Fin.val_zero]
      omega
    exact hbase ▸ halfBlkAt_based 0 (a / 0x10000 - 0x1000)
  · have hbase : halfBase 1 + (a / 0x10000 - 0x2000) * 0x10000 = a / 0x10000 * 0x10000 := by
      simp only [halfBase, Fin.val_one]
      omega
    exact hbase ▸ halfBlkAt_based 1 (a / 0x10000 - 0x2000)

/-- The block of an address begins at the address's multiple of 64 KiB. -/
theorem blkAt_base {a : Nat} {u : UnitId} {b : Blk} (hb : blkAt a = some (u, b)) : b.base = a / 0x10000 * 0x10000 :=
  blkAt_based a (u, b) hb

theorem blkAt_base_add {a : Nat} {u : UnitId} {b : Blk} (hb : blkAt a = some (u, b)) : b.base + (a - b.base) = a := by
  have := blkAt_base hb
  omega

section
variable {s : State} {b : Blk} {off : Nat}

/-- A copy at one address leaves the registers at the others. -/
theorem State.reg_applyAt_ne {a : Nat} (hw : Tbl.wf s.csr = true) (hne : b.base + off ≠ a) : (s.applyAt a).reg b off = s.reg b off := by
  unfold State.applyAt
  split
  · next c hc =>
    obtain h | ⟨v, h⟩ := s.applyReg_cases c (a - c.base)
    · rw [h]
    · rw [h, State.reg_setReg_ne s c b (a - c.base) off v hw]
      rwa [blkAt_base_add hc]
  · rfl

theorem State.applyAt_wf {a : Nat} (hw : Tbl.wf s.csr = true) : Tbl.wf (s.applyAt a).csr = true := by
  unfold State.applyAt
  split
  · next c _ =>
    obtain h | ⟨v, h⟩ := s.applyReg_cases c (a - c.base)
    · rwa [h]
    · rw [h]; exact State.setReg_wf s c _ v hw
  · exact hw

theorem State.stg_of_onlyCsr {t : State} (h : s.OnlyCsr t) (b : Blk) (off : Nat) : t.stg b off = s.stg b off := by
  obtain ⟨r, rfl⟩ := h
  rfl

variable {v : UnitId} {r : RegRow} {i : Nat}

theorem State.applyAt_self (hb : blkAt (b.base + off) = some (v, b)) (hk : b.kind ≠ .ford)
    (hr : findRow (blkRows b.kind off) off = some (r, i)) : s.applyAt (b.base + off) = s.setReg b off (s.applied b off r) := by
  unfold State.applyAt
  rw [hb]
  dsimp only
  rw [Nat.add_sub_cancel_left, State.applyReg_of_row hk hr]

/-- A register among the addresses of the list holds what the copy leaves, whether it is listed once or twice; another keeps its value. -/
theorem State.reg_foldl_applyAt (hb : blkAt (b.base + off) = some (v, b)) (hk : b.kind ≠ .ford)
    (hr : findRow (blkRows b.kind off) off = some (r, i)) (xs : List Nat) (s : State) (hw : Tbl.wf s.csr = true) :
    (xs.foldl State.applyAt s).reg b off = if b.base + off ∈ xs then s.applied b off r else s.reg b off := by
  induction xs generalizing s with
  | nil => simp
  | cons x xs ih =>
    rw [List.foldl_cons, ih (s.applyAt x) (State.applyAt_wf hw)]
    have hstg := State.stg_of_onlyCsr (s.onlyCsr_applyAt x) b off
    by_cases hx : b.base + off = x
    · have hreg : (s.applyAt x).reg b off = s.applied b off r := by
        rw [← hx, State.applyAt_self hb hk hr, State.reg_setReg_same s b off _ hw]
      have happ : (s.applyAt x).applied b off r = s.applied b off r := by
        rw [State.applied, hreg, hstg]
        exact merge_merge _ _ _
      rw [happ, hreg, ite_self, if_pos (List.mem_cons.mpr (.inl hx))]
    · have hreg := State.reg_applyAt_ne hw hx
      have happ : (s.applyAt x).applied b off r = s.applied b off r := by rw [State.applied, hreg, hstg, State.applied]
      simp only [happ, hreg, List.mem_cons, hx, false_or]

theorem tget?_eq_none_of_not_mem {α : Type} {t : Tbl α} {k : Nat} (h : k ∉ t.map (·.1)) : tget? t k = none := by
  induction t with
  | nil => rfl
  | cons e t ih =>
    obtain ⟨j, w⟩ := e
    rw [List.map_cons, List.mem_cons, not_or] at h
    unfold tget?
    split
    · rfl
    · rw [if_neg h.1, ih h.2]

/-- A register that neither view lists reads its reset value in both, so the copy would not change it. -/
theorem State.applied_of_unlisted (h : b.base + off ∉ s.staged.map (·.1) ++ s.csr.map (·.1)) (r : RegRow) :
    s.applied b off r = s.reg b off := by
  rw [List.mem_append, not_or] at h
  have hreg : s.reg b off = regRst b.kind off := by rw [State.reg, tget, tget?_eq_none_of_not_mem h.2]
  have hstg : s.stg b off = regRst b.kind off := by rw [State.stg, tget, tget?_eq_none_of_not_mem h.1]
  rw [State.applied, hreg, hstg, merge_self]

theorem State.mem_listedRegs {u : UnitId} (hb : blkAt (b.base + off) = some (v, b)) :
    b.base + off ∈ s.listedRegs u ↔ b.base + off ∈ s.staged.map (·.1) ++ s.csr.map (·.1) ∧ v = u := by
  rw [State.listedRegs, List.mem_filter, hb, decide_eq_true_iff]

theorem State.reg_applyRegs {u : UnitId} (hb : blkAt (b.base + off) = some (v, b)) (hk : b.kind ≠ .ford)
    (hr : findRow (blkRows b.kind off) off = some (r, i)) (hw : Tbl.wf s.csr = true) :
    (s.applyRegs u).reg b off = if v = u then s.applied b off r else s.reg b off := by
  rw [State.applyRegs_eq, State.reg_foldl_applyAt hb hk hr _ s hw]
  by_cases hl : b.base + off ∈ s.staged.map (·.1) ++ s.csr.map (·.1)
  · simp only [State.mem_listedRegs hb, hl, true_and]
  · rw [State.applied_of_unlisted hl, ite_self, ite_self]

end

/-! ### The application of a commit at a unit (R63, R66) -/

/-- What the application of a commit leaves at the unit's GEN and LAST_COMMIT_STAMP. -/
def UnitDyn.committed (stamp : DWord) (d : UnitDyn) : UnitDyn := { d with gen := d.gen + 1, stamp := stamp }

/-- The unit no longer waits in the commit, nor do its sides. -/
def CommitRec.appliedAt (c : CommitRec) (u : UnitId) : CommitRec :=
  { c with waiting := c.waiting.filter (fun v => v ≠ u), sides := c.sides.filter fun e => e.1 ≠ u }

section
variable {s : State} {u : UnitId}

theorem State.applyCommit_eq (h : ∀ h, u ≠ .sched h) :
    s.applyCommit u = ({ (s.applyRegs u).updUnit u (UnitDyn.committed (s.dtsOf u)) with
      commits := (s.applyRegs u).commits.map fun c => c.appliedAt u } : State).settleCommits := by
  unfold State.applyCommit
  split
  · next k => exact absurd rfl (h k)
  · rfl

theorem State.reg_applyCommit (h : ∀ h, u ≠ .sched h) (b : Blk) (off : Nat) : (s.applyCommit u).reg b off = (s.applyRegs u).reg b off := by
  rw [State.applyCommit_eq h]
  rfl

/-- After the application no commit waits at the unit. -/
theorem settled_appliedAt_waiting (cs : List CommitRec) (u : UnitId) :
    (((cs.map fun c => c.appliedAt u).filter fun c => !(c.todo.isEmpty && c.waiting.isEmpty)).any fun c => c.waiting.contains u) = false := by
  rw [List.any_eq_false]
  intro c hc
  obtain ⟨c', _, rfl⟩ := List.mem_map.mp (List.mem_filter.mp hc).1
  simp [CommitRec.appliedAt]

/-- The application counts GEN up, takes the stamp and leaves the unit's state; no commit waits at the unit after it. -/
theorem State.applyCommit_frame (h : ∀ h, u ≠ .sched h) (hw : Tbl.wf s.units = true) :
    (s.applyCommit u).unit u = (s.unit u).committed (s.dtsOf u) ∧
    ((s.applyCommit u).commits.any fun c => c.waiting.contains u) = false ∧
    s.applyCommit u = { s with csr := (s.applyCommit u).csr, units := (s.applyCommit u).units, commits := (s.applyCommit u).commits } := by
  rw [State.applyCommit_eq h]
  obtain ⟨r, hr⟩ := s.onlyCsr_applyRegs u
  rw [hr]
  exact ⟨State.unit_updUnit_same { s with csr := r } u (UnitDyn.committed (s.dtsOf u)) hw, settled_appliedAt_waiting _ u, rfl⟩

theorem doCommitApply_of_waiting (hc : (s.commits.any fun c => c.waiting.contains u) = true) (ha : (s.towardsSafe u).atSafePoint u = true) :
    doCommitApply u s = (s.towardsSafe u).applyCommit u := by
  obtain ⟨cs, hs, hany⟩ := s.towardsSafe_frame u
  refine if_pos ⟨?_, ha⟩
  rw [hs]
  exact (hany u).trans hc

theorem doCommitApply_of_busy (ha : (s.towardsSafe u).atSafePoint u = false) : doCommitApply u s = s.towardsSafe u :=
  if_neg fun hc => by simp [ha] at hc

end

end Sys2Proof.Machine

/-- Settles O21: the start and the reach of a commit, the sides of a port, and the copy, which is a fold over the listed addresses. -/
theorem commitsApply : Obligations.CommitsApply := by
  have hnext {s t : State} (h : s = t) : (.next s : Out) = .next t := congrArg Host.Outcome.next h
  refine ⟨⟨fun s a u hr hp ho => hnext ((if_pos hr).trans (State.startCommit_of_open hp ho)),
      fun s a u hr hlt hw => ⟨_, hnext ((if_pos hr).trans (State.armCommit_of_ahead hlt)), State.armed_setArmed hw true, rfl⟩,
      fun s a u hr hle => hnext ((if_pos hr).trans (State.armCommit_of_reached hle)),
      fun s a u hr hw => ⟨_, hnext (if_pos hr), State.armed_setArmed hw false, rfl⟩,
      fun s a u v hr hw => ⟨_, hnext (if_pos hr), State.reg_setReg_same s (ownBlk u) R.ucb_COMMIT_AT v hw, rfl⟩,
      fun s u ha hle => hnext (doArmedStart_of_due ha hle), fun s u ha => hnext (doArmedStart_of_unarmed ha)⟩,
    ⟨fun s u c hc ht ho => hnext (doCommitReach_waits hc ht ho), fun s u c hc ht hw ho => hnext (doCommitReach_off hc ht hw ho),
      fun s u hc ha hs hw => ?_, fun s u ha => hnext (doCommitApply_of_busy ha), fun s u hp => State.towardsSafe_of_ne_port hp,
      fun s p rx hi => ⟨?_, rfl⟩, fun s p rx hl hi => ?_, fun s p => ⟨s.sideIdle_rx p, s.sideIdle_tx p⟩⟩,
    fun s u v b off i r hs hk hw _ hb hr => (State.reg_applyCommit hs b off).trans (State.reg_applyRegs hb hk hr hw)⟩
  · refine ⟨_, hnext (doCommitApply_of_waiting hc ha), ?_⟩
    obtain ⟨cs, hsafe, -⟩ := s.towardsSafe_frame u
    rw [hsafe]
    obtain ⟨hunit, hwait, hframe⟩ := State.applyCommit_frame (s := { s with commits := cs }) hs hw
    rw [State.ustate, hunit]
    exact ⟨rfl, rfl, rfl, hwait, hframe⟩
  · exact (s.sideApplied_applySides p rx).trans (by simp [hi])
  · exact (s.sideApplied_applySides p rx).trans (by simp [hi, hl])
end

section
open Sys2Proof Sys2Proof.Machine

namespace Sys2Proof.Machine

/-! ### One half's clocks at a tick (R71, R75, R81) -/

section
variable {s : State} {h : Half}

/-- The adjusting tick of a slew moves DTS by what DTS_SLEW.DIR says. -/
theorem State.dtsAdd_of_slewDue (hs : s.slewDue = true) (hf : s.followDue h = false) :
    s.dtsAdd h = if bit (s.reg bDevice R.device_DTS_SLEW) 48 then 0 else 2 := by
  simp only [State.dtsAdd, hs, hf, if_true, Bool.false_eq_true, if_false]
  split <;> rfl

/-- The follower's slewed tick moves its DTS towards the leader's. -/
theorem State.dtsAdd_of_followDue (hs : s.slewDue = false) (hf : s.followDue h = true) :
    s.dtsAdd h = if 0 < (s.time.get h).skew then 0 else 2 := by
  simp only [State.dtsAdd, hs, hf, if_true, Bool.false_eq_true, if_false]
  split <;> rfl

/-- Where a slew adds a tick, the follower's slewed tick waits unless it takes one away. -/
theorem State.skew_pos_of_followDue (hs : s.slewDue = true) (hd : bit (s.reg bDevice R.device_DTS_SLEW) 48 = false)
    (hf : s.followDue h = true) : 0 < (s.time.get h).skew := by
  simp only [State.followDue, hs, hd, Bool.true_and, Bool.false_beq, Bool.not_not, Bool.and_eq_true, decide_eq_true_eq] at hf
  exact hf.2

theorem State.dtsAdd_le_two (s : State) (h : Half) : s.dtsAdd h ≤ 2 := by
  cases hs : s.slewDue with
  | false => simp only [State.dtsAdd, hs, Bool.false_eq_true, if_false]; split_ifs <;> decide
  | true =>
    cases hf : s.followDue h with
    | false => rw [State.dtsAdd_of_slewDue hs hf]; split_ifs <;> decide
    | true =>
      cases hd : bit (s.reg bDevice R.device_DTS_SLEW) 48 with
      | true => simp only [State.dtsAdd, hs, hf, hd, if_true]; split_ifs <;> decide
      | false =>
        have hpos := State.skew_pos_of_followDue hs hd hf
        simp only [State.dtsAdd, hs, hf, hd, hpos]
        decide

@[simp] theorem TimeState.ptpPlus_dts (t : TimeState) (d : Nat) : (t.ptpPlus d).dts = t.dts := by rw [TimeState.ptpPlus]
@[simp] theorem TimeState.ptpPlus_skew (t : TimeState) (d : Nat) : (t.ptpPlus d).skew = t.skew := by rw [TimeState.ptpPlus]

theorem State.tickHalf_dts {t : TimeState} (hc : t.counting = true) : (s.tickHalf h t).dts = t.dts + BitVec.ofNat 64 (s.dtsAdd h) := by
  rw [State.tickHalf, if_pos hc]
  dsimp only
  rw [TimeState.ptpPlus_dts]
  split_ifs <;> rfl

theorem State.tickHalf_skew {t : TimeState} (hc : t.counting = true) (hf : s.followDue h = true) :
    (s.tickHalf h t).skew = if 0 < t.skew then t.skew - 1 else t.skew + 1 := by
  rw [State.tickHalf, if_pos hc]
  dsimp only
  rw [TimeState.ptpPlus_skew, if_pos hf]

end

/-! ### The tick of the clocks and what follows it -/

section
variable {s : State}

/-- A tick as far as the halves' clocks and the slew: what it does before it looks at the edge of TSYNC_OUT. -/
def State.slewTick (s : State) : State :=
  let s1 := { s with time := s.time.both fun h t => s.tickHalf h t, ticks := s.ticks + 1 }
  if s.slewDue then ({ s1 with dev := { s1.dev with slewGrid := 0 } }).setRfld bDevice R.device_DTS_SLEW 0 32 (s.slewCount - 1)
  else if 0 < s.slewCount then { s1 with dev := { s1.dev with slewGrid := s1.dev.slewGrid + 1 } } else s1

theorem State.clockTick_eq (s : State) : ∃ d, s.clockTick = { s.slewTick with dev := { s.slewTick.dev with tsyncDue := d } } := by
  have h : s.clockTick = if s.tsyncPhase s.slewTick then
      { s.slewTick with dev := { s.slewTick.dev with tsyncDue := some (s.slewTick.ticks + 2) } } else s.slewTick := rfl
  rw [h]
  split
  · exact ⟨_, rfl⟩
  · exact ⟨s.slewTick.dev.tsyncDue, rfl⟩

theorem State.slewTick_frame (s : State) :
    ∃ r g, s.slewTick = { s with csr := r, time := s.time.both fun h t => s.tickHalf h t, ticks := s.ticks + 1,
                                 dev := { s.dev with slewGrid := g } } := by
  unfold State.slewTick
  dsimp only
  split
  · exact ⟨_, _, rfl⟩
  · split
    · exact ⟨_, _, rfl⟩
    · exact ⟨_, s.dev.slewGrid, rfl⟩

/-- The halves' clocks tick by their own rule; of the rest the tick changes the slew, the due edge of TSYNC_OUT and the count of ticks. -/
theorem State.clockTick_frame (s : State) :
    ∃ r g d, s.clockTick = { s with csr := r, time := s.time.both fun h t => s.tickHalf h t, ticks := s.ticks + 1,
                                    dev := { s.dev with slewGrid := g, tsyncDue := d } } := by
  obtain ⟨d, hd⟩ := s.clockTick_eq
  obtain ⟨r, g, hr⟩ := s.slewTick_frame
  exact ⟨r, g, d, by rw [hd, hr]⟩

/-- The adjusting tick of a slew counts COUNT down and begins a fresh grid. -/
theorem State.clockTick_of_slewDue (hs : s.slewDue = true) :
    s.clockTick.csr = (s.setRfld bDevice R.device_DTS_SLEW 0 32 (s.slewCount - 1)).csr ∧ s.clockTick.dev.slewGrid = 0 := by
  obtain ⟨d, hd⟩ := s.clockTick_eq
  rw [hd, State.slewTick, if_pos hs]
  exact ⟨rfl, rfl⟩

theorem State.slewCount_clockTick (hs : s.slewDue = true) (hw : Tbl.wf s.csr = true) : s.clockTick.slewCount + 1 = s.slewCount := by
  have hread : s.clockTick.slewCount = (s.setRfld bDevice R.device_DTS_SLEW 0 32 (s.slewCount - 1)).slewCount := by
    simp only [State.slewCount, State.rfld, State.reg, (State.clockTick_of_slewDue hs).1]
  have hlt : s.slewCount < 2 ^ 32 := fld_lt _ 0 32
  have hpos : 0 < s.slewCount := by simp only [State.slewDue, Bool.and_eq_true, decide_eq_true_eq] at hs; exact hs.1
  have hsame := State.rfld_setRfld_same s bDevice R.device_DTS_SLEW 0 32 (s.slewCount - 1) hw (by decide)
  rw [hread, State.slewCount, hsame, Nat.mod_eq_of_lt (by omega)]
  omega

theorem State.captures_of_none (h : s.dev.capDue = []) : s.captures = s := by
  unfold State.captures
  rw [h, List.filter_nil, List.filter_nil, List.foldl_nil, ← h]

theorem State.startTick_of_ne_start (h : s.dev.devState ≠ .start) : s.startTick = s := if_neg fun hc => h hc.1

theorem State.p129Tick_frame (s : State) : ∃ p, s.p129Tick = { s with pv := p } := by
  unfold State.p129Tick
  split
  · exact ⟨_, rfl⟩
  · exact ⟨s.pv, rfl⟩

/-- Privet's move of the management port writes MGMT_CFG or nothing. -/
theorem State.mgmtTick_cases (s : State) : s.mgmtTick = s ∨ ∃ v, s.mgmtTick = s.setReg (bPrivet 7) R.mgmt_MGMT_CFG v := by
  unfold State.mgmtTick
  split
  · unfold State.moveMgmt
    extract_lets v h
    split
    · exact .inr ⟨_, rfl⟩
    · exact .inl rfl
  · exact .inl rfl

theorem State.checked_frame (s s1 : State) : ∃ us, s.checked s1 = { s1 with units := us } := by
  unfold State.checked
  induction s.armed generalizing s1 with
  | nil => exact ⟨s1.units, rfl⟩
  | cons u us ih =>
    obtain ⟨x, hx⟩ := ih (s1.updUnit u _)
    exact ⟨x, hx⟩

/-- After START and with no capture due, a tick leaves the clocks as their own tick does: what Privet does in it reaches neither the clocks nor
DTS_SLEW. -/
theorem State.tick_frame {u : State} (hu : u = (s.halfTick 0).halfTick 1) (hd : u.dev.devState ≠ .start) (hc : u.dev.capDue = []) :
    s.tick.time = u.clockTick.time ∧ s.tick.ticks = u.clockTick.ticks ∧ s.tick.dev = u.clockTick.dev ∧
    (Tbl.wf u.clockTick.csr = true → s.tick.slewCount = u.clockTick.slewCount) := by
  have htime : u.timeTick.startTick = u.clockTick := by
    obtain ⟨r, g, d, hclk⟩ := u.clockTick_frame
    have hcap : u.clockTick.dev.capDue = [] := by rw [hclk]; exact hc
    have hdev : u.clockTick.dev.devState ≠ .start := by rw [hclk]; exact hd
    rw [State.timeTick, State.captures_of_none hcap, State.startTick_of_ne_start hdev]
  have htick : s.tick = s.checked u.clockTick.p129Tick.mgmtTick := by rw [State.tick, ← hu, htime]
  generalize u.clockTick = x at htick
  obtain ⟨p, hp⟩ := x.p129Tick_frame
  rw [hp] at htick
  obtain ⟨us, hus⟩ := s.checked_frame ({ x with pv := p } : State).mgmtTick
  rw [htick, hus]
  obtain hm | ⟨v, hm⟩ := ({ x with pv := p } : State).mgmtTick_cases
  · rw [hm]
    exact ⟨rfl, rfl, rfl, fun _ => rfl⟩
  · rw [hm]
    exact ⟨rfl, rfl, rfl, fun hw => congrArg (fld · 0 32)
      (State.reg_setReg_ne { x with pv := p } (bPrivet 7) bDevice R.mgmt_MGMT_CFG R.device_DTS_SLEW v hw (by decide))⟩

theorem State.dts_clockTick {h : Half} (hc : (s.time.get h).counting = true) :
    s.clockTick.dts h = s.dts h + BitVec.ofNat 64 (s.dtsAdd h) := by
  obtain ⟨r, g, d, hclk⟩ := s.clockTick_frame
  rw [hclk, State.dts, pair_get_both, State.tickHalf_dts hc, State.dts]

theorem State.skew_clockTick {h : Half} (hc : (s.time.get h).counting = true) (hf : s.followDue h = true) :
    (s.clockTick.time.get h).skew = if 0 < (s.time.get h).skew then (s.time.get h).skew - 1 else (s.time.get h).skew + 1 := by
  obtain ⟨r, g, d, hclk⟩ := s.clockTick_frame
  rw [hclk, pair_get_both, State.tickHalf_skew hc hf]

theorem State.ticks_clockTick (s : State) : s.clockTick.ticks = s.ticks + 1 := by
  obtain ⟨r, g, d, hclk⟩ := s.clockTick_frame
  rw [hclk]

end

/-! ### Alignment of the halves (R74, R75, R88) -/

section
variable {s : State}

/-- A difference of at most 2 ticks reports no fault and moves no DTS. -/
theorem State.aligned_of_le_two {d : Int} (h : Half) (hd : d.natAbs ≤ 2) :
    ∃ tm, s.aligned h d = { s with time := tm } ∧ (tm.get h).skew = d ∧ (tm.get h).ptpSec = (s.time.get h).ptpSec ∧
      (tm.get h).dts = (s.time.get h).dts := by
  have h2 : ¬ 2 < d.natAbs := by omega
  have h64 : ¬ 64 < d.natAbs := by omega
  unfold State.aligned
  simp only [h2, h64, if_false]
  exact ⟨_, rfl, by simp, by simp, by simp⟩

/-- The follower's state when it has taken the oldest message and the leader's PTP time, before it compares. -/
def State.heard (s : State) (rest : List DWord) : State :=
  (s.updFord (other s.leader) fun f => { f with timeIn := rest }).updTime (other s.leader) fun t =>
    { t with ptpSec := (s.time.get s.leader).ptpSec, ptpNs := (s.time.get s.leader).ptpNs, ptpFrac := (s.time.get s.leader).ptpFrac }

variable {v : DWord} {rest : List DWord}

theorem doAlignReceive_of_heard (hq : (s.ford.get (other s.leader)).timeIn = v :: rest) (hl : (s.ford.get (other s.leader)).lost = false) :
    doAlignReceive s = (s.heard rest).aligned (other s.leader)
      (((s.dts (other s.leader)).toNat : Int) - ((v + BitVec.ofNat 64 s.ticks).toNat : Int)) := by
  unfold doAlignReceive
  dsimp only
  rw [hq]
  dsimp only
  rw [if_neg (by simp [hl])]
  rfl

theorem doAlignReceive_of_lost (hq : (s.ford.get (other s.leader)).timeIn = v :: rest) (hl : (s.ford.get (other s.leader)).lost = true) :
    doAlignReceive s = s.updFord (other s.leader) fun f => { f with timeIn := rest } := by
  unfold doAlignReceive
  dsimp only
  rw [hq]
  exact if_pos hl

end

end Sys2Proof.Machine

/-- Settles O8: a tick leaves the clocks as `clockTick` of the halves' ticked state does, and what a message does is one of the lemmas about
its commands. -/
theorem slewAndAlignment : Obligations.SlewAndAlignment := by
  refine ⟨⟨fun s u h hu hw hd hs hsu hc hf hcap => ?_, fun s u h hu hd hs hsu hc hf hcap => ?_, State.dtsAdd_le_two⟩,
    fun s hup => ?_, fun s v rest d hq hl hd hle => ?_, fun s v rest hq hl => ?_⟩
  · obtain ⟨htime, hticks, hdev, hcount⟩ := State.tick_frame hu hd hcap
    refine ⟨s.tick, congrArg Host.Outcome.next (if_pos hs), ?_, ?_, ?_, ?_⟩
    · rw [State.dts, htime, ← State.dts, State.dts_clockTick hc, State.dtsAdd_of_slewDue hsu hf]
      split_ifs <;> rfl
    · have hwt : Tbl.wf u.clockTick.csr = true := by
        rw [(State.clockTick_of_slewDue hsu).1]
        exact State.setRfld_wf u _ _ _ _ _ hw
      rw [hcount hwt, State.slewCount_clockTick hsu hw]
    · rw [hdev, (State.clockTick_of_slewDue hsu).2]
    · rw [hticks, State.ticks_clockTick]
  · obtain ⟨htime, -, -, -⟩ := State.tick_frame hu hd hcap
    have hany : (s.followDue 0 || s.followDue 1) = true := by
      fin_cases h
      · exact Bool.or_eq_true_iff.mpr (.inl hs)
      · exact Bool.or_eq_true_iff.mpr (.inr hs)
    refine ⟨s.tick, congrArg Host.Outcome.next (if_pos hany), ?_, ?_⟩
    · rw [State.dts, htime, ← State.dts, State.dts_clockTick hc, State.dtsAdd_of_followDue hsu hf]
      split_ifs <;> rfl
    · rw [htime, State.skew_clockTick hc hf]
  · exact congrArg Host.Outcome.next (if_pos hup)
  · obtain ⟨tm, htm, hskew, hsec, hdts⟩ := State.aligned_of_le_two (s := s.heard rest) (other s.leader) hle
    refine ⟨_, congrArg Host.Outcome.next (doAlignReceive_of_heard hq hl), ?_⟩
    rw [← hd, htm]
    refine ⟨hskew, ?_, ?_, ?_, rfl⟩
    · rw [hsec]; simp [State.heard]
    · rw [hdts]; simp [State.heard, State.dts]
    · simp [State.heard]
  · exact congrArg Host.Outcome.next (doAlignReceive_of_lost hq hl)
end

section
open Sys2Proof Sys2Proof.Machine

namespace Sys2Proof.Machine

/-! ### Loads of device time (R78–R80) -/

section
variable {s : State}

/-- A load that is taken sets DTS of both halves, notes its tick, and drops the alignment messages under way. -/
theorem State.doLoad_of_taken (h : s.loadRefused (s.reg bDevice R.device_DTS_LOAD) = false) :
    s.doLoad = { s with
      time := ⟨{ s.time.h0 with dts := s.reg bDevice R.device_DTS_LOAD }, { s.time.h1 with dts := s.reg bDevice R.device_DTS_LOAD }⟩
      dev := { s.dev with loadTick := some (s.ticks, s.reg bDevice R.device_DTS_LOAD) }
      ford := ⟨{ s.ford.h0 with timeIn := [] }, { s.ford.h1 with timeIn := [] }⟩ } :=
  if_neg (by simp [h])

/-- A refused load counts in DTS_CTL.REFUSED. -/
theorem State.doLoad_of_refused (h : s.loadRefused (s.reg bDevice R.device_DTS_LOAD) = true) :
    s.doLoad = s.setRfld bDevice R.device_DTS_CTL 32 16 (satTo (s.rfld bDevice R.device_DTS_CTL 32 16 + 1) 0xFFFF) :=
  if_pos h

theorem doLoadNow_of_start (h : s.dev.devState = .start) : doLoadNow s = s.doLoad := if_pos h
theorem doLoadNow_of_ne_start (h : s.dev.devState ≠ .start) : doLoadNow s = s := if_neg h
theorem doLoadArm_of_start (h : s.dev.devState = .start) : doLoadArm s = { s with dev := { s.dev with loadPend := true } } := if_pos h
theorem doLoadArm_of_ne_start (h : s.dev.devState ≠ .start) : doLoadArm s = s := if_neg h

/-- What a command does whose agent reaches its unit. -/
theorem next_ite_of_reach {a : Agent} {u : UnitId} {t t' : State} (hr : s.agentReach a u = true) (h : t = t') :
    (.next (if s.agentReach a u then t else s) : Out) = .next t' := by
  rw [if_pos hr, h]

end

/-! ### The slew register (R81) -/

/-- A write of DTS_SLEW leaves COUNT and DIR as written. -/
theorem doSlewWrite_frame {s : State} (dir : Bool) (count : BitVec 32) (hw : Tbl.wf s.csr = true) :
    (doSlewWrite dir count.toNat s).slewCount = count.toNat ∧
    bit ((doSlewWrite dir count.toNat s).reg bDevice R.device_DTS_SLEW) 48 = dir ∧
    doSlewWrite dir count.toNat s =
      { s with csr := (doSlewWrite dir count.toNat s).csr, dev := { s.dev with slewGrid := 0 } } := by
  have hw1 := State.setRfld_wf s bDevice R.device_DTS_SLEW 48 1 (b2n dir) hw
  refine ⟨?_, ?_, rfl⟩
  · calc (doSlewWrite dir count.toNat s).slewCount
        = ((s.setRfld bDevice R.device_DTS_SLEW 48 1 (b2n dir)).setRfld bDevice R.device_DTS_SLEW 0 32 count.toNat).slewCount := rfl
      _ = count.toNat % 2 ^ 32 := State.rfld_setRfld_same _ bDevice R.device_DTS_SLEW 0 32 _ hw1 (by decide)
      _ = count.toNat := Nat.mod_eq_of_lt count.isLt
  · have hreg : (doSlewWrite dir count.toNat s).reg bDevice R.device_DTS_SLEW =
        setFld (setFld (s.reg bDevice R.device_DTS_SLEW) 48 1 (b2n dir)) 0 32 count.toNat := by
      calc (doSlewWrite dir count.toNat s).reg bDevice R.device_DTS_SLEW
          = ((s.setRfld bDevice R.device_DTS_SLEW 48 1 (b2n dir)).setRfld bDevice R.device_DTS_SLEW 0 32 count.toNat).reg
              bDevice R.device_DTS_SLEW := rfl
        _ = _ := by
          rw [State.setRfld, State.reg_setReg_same _ _ _ _ hw1, State.setRfld, State.reg_setReg_same _ _ _ _ hw]
    rw [hreg, bit_setFld_ne _ _ _ _ _ (by omega), bit_setFld_same _ _ _ (by omega)]

/-! ### The PTP counter (R88, R89) -/

/-- A half's PTP time as one number of 2⁻³² ns. -/
def TimeState.ptp (t : TimeState) : Nat := ptpTotal t.ptpSec t.ptpNs t.ptpFrac

/-- Splitting a number into seconds, nanoseconds and their fraction loses whole turns of the 48-bit seconds alone. -/
theorem ptpTotal_split (x : Nat) :
    ptpTotal (x / 2 ^ 32 / 1000000000 % 2 ^ 48) (x / 2 ^ 32 % 1000000000) (x % 2 ^ 32) = x % ptpTotal (2 ^ 48) 0 0 := by
  have hturn : ptpTotal (2 ^ 48) 0 0 = 2 ^ 32 * (1000000000 * 2 ^ 48) := by decide
  rw [hturn, Nat.mod_mul, Nat.mod_mul, ptpTotal]
  ring

/-- The PTP counter adds modulo the turn of its 48-bit seconds. -/
theorem TimeState.ptp_ptpPlus (t : TimeState) (d : Nat) : (t.ptpPlus d).ptp = (t.ptp + d) % ptpTotal (2 ^ 48) 0 0 := ptpTotal_split _

theorem TimeState.ptp_lt {t : TimeState} (hs : t.ptpSec < 2 ^ 48) (hn : t.ptpNs < 1000000000) (hf : t.ptpFrac < 2 ^ 32) :
    t.ptp < ptpTotal (2 ^ 48) 0 0 := by
  unfold TimeState.ptp ptpTotal
  omega

/-- Adding the rest of a turn takes the amount away. -/
theorem add_turn_sub_mod {x d n : Nat} (hd : d ≤ x) (hx : x < n) : (x + (n - d % n)) % n + d = x := by
  have h : x + (n - d % n) = (x - d) + n := by rw [Nat.mod_eq_of_lt (by omega)]; omega
  rw [h, Nat.add_mod_right, Nat.mod_eq_of_lt (by omega)]
  omega

theorem doPtpSub_ptp {s : State} (ha : s.ptpAdj ≤ s.time.h0.ptp) (hlt : s.time.h0.ptp < ptpTotal (2 ^ 48) 0 0) :
    (doPtpSub s).time.h0.ptp + s.ptpAdj = s.time.h0.ptp := by
  have hsub : (doPtpSub s).time.h0 = s.time.h0.ptpPlus (ptpTotal (2 ^ 48) 0 0 - s.ptpAdj % ptpTotal (2 ^ 48) 0 0) := by
    rw [doPtpSub, Pair.both]
  rw [hsub, TimeState.ptp_ptpPlus, add_turn_sub_mod ha hlt]

/-! ### Reads that latch (R73, R89, R93) -/

/-- A read of PTP_NS latches the leader's seconds and DTS. -/
theorem doPtpNsRead_frame {s : State} (hw : Tbl.wf s.csr = true) :
    (doPtpNsRead s).reg bDevice R.device_PTP_SEC = BitVec.ofNat 64 (s.time.get s.leader).ptpSec ∧
    (doPtpNsRead s).reg bDevice R.device_PTP_DTS = s.leadDts ∧ doPtpNsRead s = { s with csr := (doPtpNsRead s).csr } := by
  have hw1 := State.setReg_wf s bDevice R.device_PTP_SEC (BitVec.ofNat 64 (s.time.get s.leader).ptpSec) hw
  refine ⟨?_, State.reg_setReg_same _ bDevice R.device_PTP_DTS _ hw1, rfl⟩
  exact (State.reg_setReg_ne _ bDevice bDevice R.device_PTP_DTS R.device_PTP_SEC _ hw1 (by decide)).trans (State.reg_setReg_same s _ _ _ hw)

/-- A read of DTS_NOW leaves one latch of the agent, the upper half of that DTS. -/
theorem doDtsNowRead_latch (a : Agent) (h : Half) (s : State) :
    ((doDtsNowRead a h s).time.get h).dtsLatch.find? (fun e => e.1 = a) = some (a, BitVec.ofNat 32 ((s.dts h).toNat >>> 32)) := by
  have hnone : ((s.time.get h).dtsLatch.filter fun e => e.1 ≠ a).find? (fun e => e.1 = a) = none := by
    simp [List.find?_eq_none]
  rw [doDtsNowRead, State.updTime_time, pair_get_upd_same, List.find?_append, hnone]
  simp [State.dts]

/-! ### TSYNC_IN (R79, R84) -/

section
variable {s : State} {rising : Bool}

theorem State.capDelay_bounds (s : State) : 2 ≤ s.capDelay ∧ s.capDelay ≤ 4 := by
  unfold State.capDelay
  omega

theorem doTsyncIn_of_inactive
    (h : bit (s.reg bDevice R.device_TSYNC_CFG) 0 = false ∨ rising = bit (s.reg bDevice R.device_TSYNC_CFG) 1) :
    doTsyncIn rising s = { s with dev := { s.dev with tsyncIn := rising } } := by
  refine if_neg ?_
  rintro ⟨hen, hact⟩
  rcases h with h | h
  · simp [h] at hen
  · simp [h] at hact

theorem doTsyncIn_of_active (hen : bit (s.reg bDevice R.device_TSYNC_CFG) 0 = true)
    (hact : rising = !bit (s.reg bDevice R.device_TSYNC_CFG) 1) :
    doTsyncIn rising s =
      { s with dev := { s.dev with tsyncIn := rising, capDue := s.dev.capDue ++ [s.ticks + s.capDelay] }, fresh := s.fresh + 1 } :=
  if_pos ⟨hen, hact⟩

/-- A capture without its load: DTS goes to TSYNC_CAP, and TSYNC_STAT takes NEW and counts the edge. -/
def State.stampEdge (s : State) : State :=
  let s2 := s.setReg bDevice R.device_TSYNC_CAP s.leadDts
  let st := s2.reg bDevice R.device_TSYNC_STAT
  s2.setReg bDevice R.device_TSYNC_STAT (setFld (setFld st 32 32 (fld st 32 32 + 1)) 0 1 1)

theorem State.captureEdge_of_unarmed (h : s.dev.loadPend = false) : s.captureEdge = s.stampEdge := by
  have hs : s.captureEdge = (if s.dev.loadPend then ({ s with dev := { s.dev with loadPend := false } }).doLoad else s).stampEdge := rfl
  rw [hs, if_neg (by simp [h])]

theorem State.captureEdge_of_armed (h : s.dev.loadPend = true) :
    s.captureEdge = ({ s with dev := { s.dev with loadPend := false } }).doLoad.stampEdge := by
  have hs : s.captureEdge = (if s.dev.loadPend then ({ s with dev := { s.dev with loadPend := false } }).doLoad else s).stampEdge := rfl
  rw [hs, if_pos h]

theorem State.reg_stampEdge_cap (hw : Tbl.wf s.csr = true) : s.stampEdge.reg bDevice R.device_TSYNC_CAP = s.leadDts :=
  (State.reg_setReg_ne _ bDevice bDevice R.device_TSYNC_STAT R.device_TSYNC_CAP _ (State.setReg_wf s _ _ _ hw) (by decide)).trans
    (State.reg_setReg_same s _ _ _ hw)

theorem State.reg_stampEdge_stat (hw : Tbl.wf s.csr = true) :
    s.stampEdge.reg bDevice R.device_TSYNC_STAT =
      setFld (setFld (s.reg bDevice R.device_TSYNC_STAT) 32 32 (s.rfld bDevice R.device_TSYNC_STAT 32 32 + 1)) 0 1 (b2n true) := by
  have hstat : (s.setReg bDevice R.device_TSYNC_CAP s.leadDts).reg bDevice R.device_TSYNC_STAT = s.reg bDevice R.device_TSYNC_STAT :=
    State.reg_setReg_ne s bDevice bDevice R.device_TSYNC_CAP R.device_TSYNC_STAT _ hw (by decide)
  unfold State.stampEdge
  dsimp only
  rw [hstat, State.reg_setReg_same _ _ _ _ (State.setReg_wf s _ _ _ hw)]
  rfl

/-- A capture sets NEW and counts EDGES. -/
theorem State.stampEdge_new (hw : Tbl.wf s.csr = true) : bit (s.stampEdge.reg bDevice R.device_TSYNC_STAT) 0 = true := by
  rw [State.reg_stampEdge_stat hw, bit_setFld_same _ _ _ (by omega)]

theorem State.stampEdge_edges (hw : Tbl.wf s.csr = true) :
    s.stampEdge.rfld bDevice R.device_TSYNC_STAT 32 32 = (s.rfld bDevice R.device_TSYNC_STAT 32 32 + 1) % 2 ^ 32 := by
  rw [State.rfld, State.reg_stampEdge_stat hw, fld_setFld_ne _ _ _ _ _ _ (by omega), fld_setFld_same _ _ _ _ (by omega)]

/-- The one edge under way is captured at its tick. -/
theorem State.captures_of_due {d : Nat} (h : s.dev.capDue = [d]) (hle : d ≤ s.ticks) :
    s.captures = ({ s with dev := { s.dev with capDue := [] } }).captureEdge := by
  have hdue : [d].filter (fun t => decide (t ≤ s.ticks)) = [d] := by simp [hle]
  have hlater : [d].filter (fun t => decide (s.ticks < t)) = [] := by simp [hle]
  unfold State.captures
  rw [h, hdue, hlater, List.foldl_cons, List.foldl_nil]

theorem State.captures_of_unarmed {d : Nat} (h : s.dev.capDue = [d]) (hle : d ≤ s.ticks) (hp : s.dev.loadPend = false) :
    s.captures = ({ s with dev := { s.dev with capDue := [] } }).stampEdge :=
  (State.captures_of_due h hle).trans (State.captureEdge_of_unarmed hp)

theorem State.captures_of_armed {d : Nat} (h : s.dev.capDue = [d]) (hle : d ≤ s.ticks) (hp : s.dev.loadPend = true) :
    s.captures = ({ s with dev := { s.dev with capDue := [], loadPend := false } }).doLoad.stampEdge :=
  (State.captures_of_due h hle).trans (State.captureEdge_of_armed hp)

/-- A load that is taken leaves the loaded value in DTS of either half. -/
theorem State.dts_doLoad (h : s.loadRefused (s.reg bDevice R.device_DTS_LOAD) = false) (k : Half) :
    s.doLoad.dts k = s.reg bDevice R.device_DTS_LOAD := by
  rw [State.doLoad_of_taken h, State.dts]
  fin_cases k <;> rfl

theorem State.csr_doLoad (h : s.loadRefused (s.reg bDevice R.device_DTS_LOAD) = false) : s.doLoad.csr = s.csr := by
  rw [State.doLoad_of_taken h]

theorem State.loadPend_doLoad (h : s.loadRefused (s.reg bDevice R.device_DTS_LOAD) = false) : s.doLoad.dev.loadPend = s.dev.loadPend := by
  rw [State.doLoad_of_taken h]

end

/-! ### TSYNC_OUT (R83) -/

section
variable {s : State}

/-- OUT_WIDTH in microseconds, of which 0 means one. -/
theorem outWidth_eq_max (w : Nat) : (if w = 0 then 1 else w) * usTicks = 1500 * max 1 w := by
  unfold usTicks
  split <;> omega

theorem doTsyncRise_of_due {d : Nat} (h : s.dev.tsyncDue = some d) (hle : d ≤ s.ticks)
    (hen : bit (s.reg bDevice R.device_TSYNC_CFG) 2 = true) :
    doTsyncRise s = { s with dev := { s.dev with
      tsyncDue := none
      tsyncOut := true
      tsyncEnd := s.ticks + 1500 * max 1 (s.rfld bDevice R.device_TSYNC_CFG 16 16) } } := by
  rw [← outWidth_eq_max]
  unfold doTsyncRise
  dsimp only
  rw [h]
  dsimp only
  rw [if_pos hle, if_pos hen]
  rfl

theorem doTsyncFall_of_end (h : s.dev.tsyncOut = true) (hle : s.dev.tsyncEnd ≤ s.ticks) :
    doTsyncFall s = { s with dev := { s.dev with tsyncOut := false } } :=
  if_pos ⟨h, hle⟩

end

end Sys2Proof.Machine

/-- Settles O6: each command is one of the lemmas about its function. -/
theorem timeIsSet : Obligations.TimeIsSet := by
  refine ⟨⟨fun s a hr hd hl => ?_, fun s a hr hd hl => ?_, fun s a hr hd => next_ite_of_reach hr (doLoadArm_of_start hd),
      fun s a hd => ⟨next_ite_of_eq (doLoadNow_of_ne_start hd), next_ite_of_eq (doLoadArm_of_ne_start hd)⟩⟩,
    fun s a dir count hw hr => ?_,
    fun s a hr => ⟨next_ite_of_reach hr rfl, next_ite_of_reach hr rfl⟩,
    fun s a hr ha hsec hns hfrac => ⟨_, next_ite_of_reach hr rfl, doPtpSub_ptp ha (TimeState.ptp_lt hsec hns hfrac), rfl⟩,
    fun s a hw hr => ⟨_, next_ite_of_reach hr rfl, doPtpNsRead_frame hw⟩,
    fun s a h hr => ⟨_, next_ite_of_reach hr rfl, doDtsNowRead_latch a h s, rfl, pair_get_upd_other s.time h _⟩,
    fun s a p hr => next_ite_of_reach hr rfl⟩
  · exact next_ite_of_reach hr ((doLoadNow_of_start hd).trans (State.doLoad_of_taken hl))
  · exact next_ite_of_reach hr ((doLoadNow_of_start hd).trans (State.doLoad_of_refused hl))
  · obtain ⟨hcount, hdir, hframe⟩ := doSlewWrite_frame dir count hw
    exact ⟨_, next_ite_of_reach hr rfl, hcount, hdir, rfl, hframe⟩

/-- Settles O7: an edge, its capture, and the pulse of TSYNC_OUT are each one of the lemmas about its function. -/
theorem tsyncPins : Obligations.TsyncPins := by
  refine ⟨fun s rising hw => ⟨fun h => congrArg Host.Outcome.next (doTsyncIn_of_inactive h),
      fun hen hact => ⟨s.capDelay_bounds.1, s.capDelay_bounds.2, congrArg Host.Outcome.next (doTsyncIn_of_active hen hact)⟩,
      fun d hdue hle hp => ?_, fun d hdue hle hp hl => ?_⟩,
    fun s d hdue hle hen => congrArg Host.Outcome.next (doTsyncRise_of_due hdue hle hen),
    fun s hout hle => congrArg Host.Outcome.next (doTsyncFall_of_end hout hle)⟩
  · refine ⟨_, rfl, ?_⟩
    rw [State.captures_of_unarmed hdue hle hp]
    exact ⟨State.reg_stampEdge_cap hw, State.stampEdge_new hw, State.stampEdge_edges hw, rfl⟩
  · refine ⟨_, rfl, ?_⟩
    rw [State.captures_of_armed hdue hle hp]
    generalize hx : ({ s with dev := { s.dev with capDue := [], loadPend := false } } : State) = x
    have hlx : x.loadRefused (x.reg bDevice R.device_DTS_LOAD) = false := by rw [← hx]; exact hl
    have hwx : Tbl.wf x.doLoad.csr = true := by rw [State.csr_doLoad hlx, ← hx]; exact hw
    have hreg : x.reg bDevice R.device_DTS_LOAD = s.reg bDevice R.device_DTS_LOAD := by rw [← hx]; rfl
    refine ⟨fun h => (State.dts_doLoad hlx h).trans hreg, ?_, ?_⟩
    · rw [State.reg_stampEdge_cap hwx, State.leadDts, State.dts_doLoad hlx, hreg]
    · exact (State.loadPend_doLoad hlx).trans (by rw [← hx])
end

section
open Sys2Proof Sys2Proof.Machine

namespace Sys2Proof.Machine

/-! ### Checkers (R51) -/

/-- With no checker armed, nothing looks at what a command has written. -/
theorem State.checked_of_unarmed {s : State} (h : s.armed = []) (s1 : State) : s.checked s1 = s1 := by
  rw [State.checked, h, List.foldl_nil]

/-- What a command of the packet path leaves where no checker is armed. -/
theorem next_checked_of_unarmed {s x y : State} (h : s.armed = []) (he : x = y) : (.next (s.checked x) : Out) = .next y :=
  congrArg Host.Outcome.next ((State.checked_of_unarmed h x).trans he)

/-! ### The frame that the classifier takes (R118, R243) -/

/-- Order keys are ordered: what is not earlier than a key is not earlier than any key that this one does not follow. -/
theorem keyLt_trans_false {a b c : Nat × Nat × Nat} (hab : keyLt a b = false) (hbc : keyLt b c = false) : keyLt a c = false := by
  simp only [keyLt, Bool.or_eq_false_iff, Bool.and_eq_false_iff, decide_eq_false_iff_not] at hab hbc ⊢
  omega

theorem keyLt_irrefl (a : Nat × Nat × Nat) : keyLt a a = false := by simp [keyLt]

theorem keyLt_asymm {a b : Nat × Nat × Nat} (h : keyLt a b = true) : keyLt b a = false := by
  simp only [keyLt, Bool.or_eq_true, Bool.and_eq_true, decide_eq_true_eq, Bool.or_eq_false_iff, Bool.and_eq_false_iff,
    decide_eq_false_iff_not] at h ⊢
  omega

/-- The older of two frames; the first where neither precedes the other. -/
def RxFrame.older (b f : RxFrame) : RxFrame := if keyLt f.key b.key then f else b

theorem RxFrame.older_eq_or (b f : RxFrame) : b.older f = b ∨ b.older f = f := by
  unfold RxFrame.older
  split
  · exact .inr rfl
  · exact .inl rfl

/-- Neither of two frames precedes the older of them. -/
theorem RxFrame.not_keyLt_older (b f : RxFrame) :
    keyLt b.key (b.older f).key = false ∧ keyLt f.key (b.older f).key = false := by
  unfold RxFrame.older
  split
  · next h => exact ⟨keyLt_asymm h, keyLt_irrefl _⟩
  · next h => exact ⟨keyLt_irrefl _, by simpa using h⟩

theorem oldestFrame_cons_cons (b f : RxFrame) (l : List RxFrame) : oldestFrame (b :: f :: l) = oldestFrame (b.older f :: l) := by
  simp only [oldestFrame, List.foldl_cons, RxFrame.older, apply_ite some]

/-- The walk over the frames keeps one of them that none of them precedes. -/
theorem oldestFrame_cons_spec (l : List RxFrame) (b : RxFrame) :
    ∃ f, oldestFrame (b :: l) = some f ∧ f ∈ b :: l ∧ ∀ g ∈ b :: l, keyLt g.key f.key = false := by
  induction l generalizing b with
  | nil => exact ⟨b, rfl, List.mem_singleton_self b, fun g hg => by rw [List.mem_singleton.mp hg]; exact keyLt_irrefl _⟩
  | cons x r ih =>
    obtain ⟨f, hf, hmem, hmin⟩ := ih (b.older x)
    obtain ⟨hb, hx⟩ := b.not_keyLt_older x
    have hold := hmin _ List.mem_cons_self
    refine ⟨f, (oldestFrame_cons_cons b x r).trans hf, ?_, ?_⟩
    · rcases List.mem_cons.mp hmem with rfl | h
      · rcases b.older_eq_or x with e | e <;> simp [e]
      · exact List.mem_cons_of_mem _ (List.mem_cons_of_mem _ h)
    · exact List.forall_mem_cons.mpr ⟨keyLt_trans_false hb hold, List.forall_mem_cons.mpr
        ⟨keyLt_trans_false hx hold, fun g hg => hmin g (List.mem_cons_of_mem _ hg)⟩⟩

theorem oldestFrame_spec {l : List RxFrame} {f : RxFrame} (h : oldestFrame l = some f) :
    f ∈ l ∧ ∀ g ∈ l, keyLt g.key f.key = false := by
  cases l with
  | nil => cases h
  | cons b l =>
    obtain ⟨f', hf', hspec⟩ := oldestFrame_cons_spec l b
    cases hf'.symm.trans h
    exact hspec

/-! ### The classifier (R118, R127, R233, R236) -/

section
variable {s : State} {h : Half} {f : RxFrame}

/-- The frame leaves the queues in which it waited. -/
def IngressState.without (i : IngressState) (f : RxFrame) : IngressState :=
  { i with done := i.done.filter (· ≠ f), inject := i.inject.filter (· ≠ f) }

theorem IngressState.not_mem_without (i : IngressState) (f : RxFrame) : f ∉ (i.without f).done ∧ f ∉ (i.without f).inject := by
  simp [IngressState.without]

/-- What a free classifier does with the oldest waiting frame. -/
theorem doClassify_of_oldest (hl : s.live (.half h) = true) (hc : (s.ing.get h).cur = none)
    (ho : oldestFrame ((s.ing.get h).done ++ (s.ing.get h).inject) = some f) :
    doClassify h s =
      if 24 < (s.parseOf h f).acc.steps then
        ((s.updIng h (·.without f)).bump (bHalf h) R.half_TWO_PASS).updIng h fun i => { i with cur := some (waitPass f (s.bankOf h f.stamp)) }
      else if s.classHeld h f (s.parseOf h f) then s else (s.updIng h (·.without f)).finishClassify h f (s.parseOf h f) := by
  unfold doClassify
  dsimp only
  rw [if_pos ⟨hl, hc⟩, ho]
  rfl

/-- A parse of more than 24 steps counts and waits for its second pass. -/
theorem doClassify_of_long (hl : s.live (.half h) = true) (hc : (s.ing.get h).cur = none)
    (ho : oldestFrame ((s.ing.get h).done ++ (s.ing.get h).inject) = some f) (hn : 24 < (s.parseOf h f).acc.steps) :
    doClassify h s =
      ((s.updIng h (·.without f)).bump (bHalf h) R.half_TWO_PASS).updIng h fun i => { i with cur := some (waitPass f (s.bankOf h f.stamp)) } := by
  rw [doClassify_of_oldest hl hc ho, if_pos hn]

theorem doClassify_of_short (hl : s.live (.half h) = true) (hc : (s.ing.get h).cur = none)
    (ho : oldestFrame ((s.ing.get h).done ++ (s.ing.get h).inject) = some f) (hn : (s.parseOf h f).acc.steps ≤ 24)
    (hh : s.classHeld h f (s.parseOf h f) = false) :
    doClassify h s = (s.updIng h (·.without f)).finishClassify h f (s.parseOf h f) := by
  rw [doClassify_of_oldest hl hc ho, if_neg (Nat.not_lt.mpr hn), if_neg (by simp [hh])]

theorem doClassify_of_not_live (hl : s.live (.half h) = false) : doClassify h s = s := if_neg fun hc => by simp [hl] at hc

/-- A frame that reads a withheld slot waits, whether its half is live or not. -/
theorem doClassify_of_held (hc : (s.ing.get h).cur = none)
    (ho : oldestFrame ((s.ing.get h).done ++ (s.ing.get h).inject) = some f) (hn : (s.parseOf h f).acc.steps ≤ 24)
    (hh : s.classHeld h f (s.parseOf h f) = true) : doClassify h s = s := by
  cases hl : s.live (.half h) with
  | false => exact doClassify_of_not_live hl
  | true => rw [doClassify_of_oldest hl hc ho, if_neg (Nat.not_lt.mpr hn), if_pos hh]

theorem doSecondPass_of_second {c : ClsFrame} (hc : (s.ing.get h).cur = some c) (hl : s.live (.half h) = true) (h2 : c.second = true)
    (hh : s.classHeld h c.frame (s.parseOf h c.frame) = false) :
    doSecondPass h s = s.finishClassify h c.frame (s.parseOf h c.frame) := by
  unfold doSecondPass
  rw [hc]
  exact if_pos ⟨hl, h2, by simp [hh]⟩

end

/-! ### The inject queue (R112, R247, R490, R679) -/

section
variable {s : State} {h : Half}

theorem doInjectEntry_of_poster {th : ThreadRef} {rest : List ThreadRef} (hp : (s.ing.get h).posters = th :: rest) :
    doInjectEntry h s = s.servePoster h th rest := by
  unfold doInjectEntry
  rw [hp]

theorem doInjectEntry_of_loop {id : Nat} {rest : List Nat} (hp : (s.ing.get h).posters = []) (hl : (s.ing.get h).loops = id :: rest) :
    doInjectEntry h s = s.serveLoop h id rest := by
  unfold doInjectEntry
  rw [hp]
  dsimp only
  rw [hl]

/-- A stalled poster whose frame finds an entry and its cells goes on with the instruction after its own. -/
theorem State.servePoster_of_ready {th : ThreadRef} {rest : List ThreadRef} {v : Nat} {bytes : List Byte}
    (hp : (s.thread th).phase = .post v bytes) (hr : s.injectReady h bytes.length = true) :
    s.servePoster h th rest =
      ((s.injectBytes h v bytes).updThread th fun x => { x with phase := .issuing, pc := x.pc + 4 }).updIng h fun i => { i with posters := rest } := by
  unfold State.servePoster
  rw [hp]
  exact if_pos hr

/-- A looped frame whose charge moves to pool 0 enters with its own chain. -/
theorem State.serveLoop_of_moved {id : Nat} {rest : List Nat} {s1 : State} (hr : s.injectRoom h = true)
    (hm : s.moveCharge h id 0 = (s1, true)) :
    s.serveLoop h id rest = (s1.updIng h fun i => { i with loops := rest }).injectChain h 2 id := by
  rw [State.serveLoop, if_pos hr, hm]

/-- A frame within MAX_LEN enters as the newest entry. -/
theorem State.inject_injectChain {v id : Nat} (hle : (s.chain h id).bytes.length ≤ s.vportMax h v) :
    ((s.injectChain h v id).ing.get h).inject = (s.ing.get h).inject ++ [s.injectFrame h v id (s.chain h id).bytes] := by
  rw [State.injectChain]
  dsimp only
  rw [if_neg (Nat.not_lt.mpr hle), State.updIng, pair_get_upd_same]
  rfl

end

end Sys2Proof.Machine

/-- Settles O11: what the classifier and the inject queue do is one of the lemmas about their functions, case by case, and the walk over the
waiting frames keeps the oldest. -/
theorem framesClassified : Obligations.FramesClassified := by
  refine ⟨⟨fun s h f hl hc ho hn hw => ?_,
      fun s h f hl hc ho hn hh => congrArg Host.Outcome.next (doClassify_of_short hl hc ho hn hh),
      fun s h c hc hl h2 hh => congrArg Host.Outcome.next (doSecondPass_of_second hc hl h2 hh),
      fun s h f hc ho hn hh => congrArg Host.Outcome.next (doClassify_of_held hc ho hn hh)⟩,
    fun l f ho => oldestFrame_spec ho,
    fun s h th rest v bytes ha hp hph hr => next_checked_of_unarmed ha ((doInjectEntry_of_poster hp).trans (State.servePoster_of_ready hph hr)),
    fun s h id rest s1 ha hp hq hr hm => next_checked_of_unarmed ha ((doInjectEntry_of_loop hp hq).trans (State.serveLoop_of_moved hr hm)),
    fun s h v id hle => ⟨_, State.inject_injectChain hle, rfl, rfl, rfl, rfl⟩⟩
  refine ⟨_, congrArg Host.Outcome.next (doClassify_of_long hl hc ho hn), ?_⟩
  rw [State.updIng, pair_get_upd_same]
  have hing : ((s.updIng h (·.without f)).bump (bHalf h) R.half_TWO_PASS).ing.get h = (s.ing.get h).without f :=
    pair_get_upd_same s.ing h _
  rw [hing]
  obtain ⟨hdone, hinject⟩ := (s.ing.get h).not_mem_without f
  exact ⟨rfl, State.reg_bump_same (s.updIng h (·.without f)) (bHalf h) R.half_TWO_PASS hw, hdone, hinject, rfl⟩
end

section
open Sys2Proof Sys2Proof.Machine

namespace Sys2Proof.Machine

/-! ### The creation of a task (R137, R138, R244–R246) -/

section
variable {s : State} {h : Half} {c : ClsFrame}

theorem doTaskCreate_of_placed {tl : TileIx} {r : Bool} (hc : (s.ing.get h).cur = some c) (hl : s.live (.half h) = true)
    (h2 : c.second = false) (hp : s.place h c = some (tl, r)) :
    doTaskCreate h s = s.used.createTask h tl ((s.tile h tl).freeSlot ((s.free 32).toNat % svcBase) svcBase) r c := by
  unfold doTaskCreate
  rw [hc]
  dsimp only
  rw [if_pos ⟨hl, h2⟩, hp]

/-- A frame that no tile has room for stalls, whether it could be created now or not. -/
theorem doTaskCreate_of_unplaced (hc : (s.ing.get h).cur = some c) (hp : s.place h c = none) : doTaskCreate h s = s := by
  unfold doTaskCreate
  rw [hc]
  dsimp only
  rw [hp]
  exact ite_self s

/-- The creation of a task frees the classifier. -/
theorem State.cur_createTask (s : State) (h : Half) (tl : TileIx) (k : Nat) (r : Bool) (c : ClsFrame) :
    ((s.createTask h tl k r c).ing.get h).cur = none := by
  rw [State.createTask, State.updIng, pair_get_upd_same]

end

/-! ### Scans (R169, R170, R177, R178, R236) -/

section
variable {s : State} {h : Half} {tl : TileIx} {k : Nat}

/-- A free engine starts the scan that was created first. -/
theorem doScanStart_of_free {r : List Nat} (hl : s.live (.tile h tl) = true) (hs : (s.tile h tl).scans = k :: r)
    (hf : ((k :: r).all fun k => decide ((s.task h tl k).scan ≠ .running)) = true) :
    doScanStart h tl s =
      (s.updTile h tl fun y => { y with scanTouched := false }).updTask h tl k fun y => { y with scan := .running } := by
  simp only [doScanStart, hs]
  exact if_pos ⟨hl, hf⟩

theorem doScanEnd_of_running (hl : s.live (.tile h tl) = true) (hr : (s.task h tl k).scan = .running)
    (hh : (s.tab.get h).shadowHeld.any (fun e => decide (e.1 = tgBramble)) = false) :
    doScanEnd h tl k s =
      ((((s.updTile h tl fun y =>
          { (y.put (.store (448 * k + 384)) (resultBlock (s.ptMatches h tl (s.scanWindow h tl k) (s.task h tl k).stamp.toNat))).put
              (.store (ctxOff k + 0x10))
              (leBytes 8 (summaryWord (s.ptMatches h tl (s.scanWindow h tl k) (s.task h tl k).stamp.toNat).length
                (s.scanWindow h tl k).length (s.scanIncomplete h tl))) with
            scans := y.scans.filter (· ≠ k) }).updTask h tl k fun y => { y with scan := .done }).countScan h tl
          (s.scanWindow h tl k).length (s.ptMatches h tl (s.scanWindow h tl k) (s.task h tl k).stamp.toNat).length
          (s.scanIncomplete h tl)).dcDown h tl k (s.task h tl k).scanDep) :=
  if_pos ⟨hl, hr, by simp [hh]⟩

end

/-! ### The summary word (R178) -/

theorem b2n_le_one (b : Bool) : b2n b ≤ 1 := by cases b <;> decide

theorem b2n_eq_one_iff (b : Bool) : b2n b = 1 ↔ b = true := by cases b <;> decide

theorem satTo_eq_min (n ceil : Nat) : satTo n ceil = min n ceil := rfl

theorem shiftLeft_or_eq_add {a b k : Nat} (h : b < 2 ^ k) : a <<< k ||| b = a * 2 ^ k + b := by
  rw [← Nat.shiftLeft_add_eq_or_of_lt h, Nat.shiftLeft_eq]

/-- The fields of a summary word share no bit, so the word is their sum. -/
theorem summaryWord_eq_sum (m n : Nat) (inc : Bool) :
    summaryWord m n inc =
      min m 255 * 2 ^ 56 + (b2n (decide (8 < m)) * 2 ^ 55 + (b2n inc * 2 ^ 54 + (1 * 2 ^ 52 + n % 2048 * 2 ^ 32))) := by
  have hn : n % 2048 < 2048 := Nat.mod_lt _ (by decide)
  have ho := b2n_le_one (decide (8 < m))
  have hi := b2n_le_one inc
  rw [summaryWord, satTo_eq_min, Nat.or_assoc, Nat.or_assoc, Nat.or_assoc, Nat.shiftLeft_eq (n % 2048) 32,
    shiftLeft_or_eq_add (k := 52), shiftLeft_or_eq_add (k := 54), shiftLeft_or_eq_add (k := 55), shiftLeft_or_eq_add (k := 56)]
  all_goals omega

theorem summaryWord_fields {m n : Nat} {inc : Bool} (hn : n < 2048) :
    bits (summaryWord m n inc) 56 8 = min m 255 ∧ ((summaryWord m n inc).testBit 55 = true ↔ 8 < m) ∧
    (summaryWord m n inc).testBit 54 = inc ∧ (summaryWord m n inc).testBit 52 = true ∧ bits (summaryWord m n inc) 32 11 = n ∧
    bits (summaryWord m n inc) 0 32 = 0 ∧ bits (summaryWord m n inc) 43 9 = 0 ∧ (summaryWord m n inc).testBit 53 = false := by
  have ho := b2n_le_one (decide (8 < m))
  have hi := b2n_le_one inc
  have ho1 := (b2n_eq_one_iff (decide (8 < m))).trans decide_eq_true_iff
  have hi1 := b2n_eq_one_iff inc
  rw [summaryWord_eq_sum, Nat.mod_eq_of_lt hn]
  simp only [bits, Nat.shiftRight_eq_div_pow, Nat.testBit_eq_decide_div_mod_eq, decide_eq_true_eq, decide_eq_false_iff_not]
  refine ⟨by omega, ?_, ?_, by omega, by omega, by omega, by omega, by omega⟩
  · refine Iff.trans ?_ ho1
    omega
  · rw [Bool.eq_iff_iff, decide_eq_true_eq]
    refine Iff.trans ?_ hi1
    omega

end Sys2Proof.Machine

/-- Settles O12: creation and scans are each one of the lemmas about their functions, and the summary word is the sum of its fields. -/
theorem tasksAndScans : Obligations.TasksAndScans := by
  refine ⟨⟨fun s h c tl r ha hc hl h2 hp => ⟨_, next_checked_of_unarmed ha (doTaskCreate_of_placed hc hl h2 hp), rfl, ?_⟩,
      fun s h c ha hc hp => next_checked_of_unarmed ha (doTaskCreate_of_unplaced hc hp)⟩,
    ⟨fun s h tl k r hl hs hf => congrArg Host.Outcome.next (doScanStart_of_free hl hs hf),
      fun s h tl k hl hr hh => congrArg Host.Outcome.next (doScanEnd_of_running hl hr hh)⟩,
    fun m n inc hn => summaryWord_fields hn⟩
  exact State.cur_createTask _ _ _ _ _ _
end

section
open Sys2Proof Sys2Proof.Machine

namespace Sys2Proof.Machine

/-- A deleted key reads the default. -/
theorem tget_tdel_same {α : Type} (d : α) (t : Tbl α) (k : Nat) (h : Tbl.wf t = true) : tget d (tdel t k) k = d := by
  rw [tget, tget?_tdel_same t k h]

/-! ### PFC (R116, R117) -/

section
variable {s : State} {p : PortIx}

/-- What half of port `p` holds when the port's PFC frame for its due triggers has left. -/
def State.pfcLeft (s : State) (p : PortIx) (i : IngressState) : IngressState :=
  let lp := portLocal p
  let off := tget 0 (s.ing.get (portHalf p)).pfcXoff lp
  let on := tget 0 (s.ing.get (portHalf p)).pfcXon lp
  { i with
    pfcSent := tput i.pfcSent lp (pfcFrame off on (s.rfld (bPort p) R.port_PFC_CFG 48 16))
    pfcXoff := tdel i.pfcXoff lp
    pfcXon := tdel i.pfcXon lp
    pfcSince := (List.range 8).foldl (fun t e =>
      if off.testBit e then tput t (prioKey lp e) s.ticks else if on.testBit e then tdel t (prioKey lp e) else t) i.pfcSince }

/-- A port that sends no frame sends the PFC frame that is due, and counts it. -/
theorem doPfcTransmit_of_due (hr : s.portRuns p = true)
    (hd : tget 0 (s.ing.get (portHalf p)).pfcXoff (portLocal p) ≠ 0 ∨ tget 0 (s.ing.get (portHalf p)).pfcXon (portLocal p) ≠ 0)
    (hs : (s.sels (portHalf p) (portLocal p)).any (fun f => f.started && !f.ended) = false) :
    doPfcTransmit p s = (s.updIng (portHalf p) (s.pfcLeft p)).bump (bPort p) R.port_TX_PFC_FRAMES :=
  if_pos ⟨hr, by simpa [State.pfcDue] using hd, by simp [hs]⟩

theorem doPfcRefresh_of_due {prio since : Nat}
    (ht : tget? (s.ing.get (portHalf p)).pfcSince (prioKey (portLocal p) prio) = some since)
    (hr : s.portRuns p = true) (htx : s.txPfc p prio = true) (hx : (s.rxqThr p prio).2.2 ≤ s.rxLevel p prio) (hg : 0 < s.portGbps p)
    (hd : since + quantaTicks (s.pfcRefreshQ p) (s.portGbps p) ≤ s.ticks) : doPfcRefresh p prio s = s.xoffDue p prio := by
  unfold doPfcRefresh
  dsimp only
  rw [ht]
  exact if_pos ⟨hr, htx, hx, hg, hd⟩

theorem doPfcReceive_of_frame {en : Nat} {ts : List Nat} {rest : List (Nat × List Nat)} {u : State}
    (hq : tget [] (s.ing.get (portHalf p)).pfcRx (portLocal p) = (en, ts) :: rest)
    (hu : u = (List.range 8).foldl (fun s e => if en.testBit e ∧ s.rxPfc p e then s.pfcClass p e (nth 0 ts e) else s)
      (s.updIng (portHalf p) fun i => { i with pfcRx := tset [] i.pfcRx (portLocal p) rest })) :
    doPfcReceive p s = u.schedRefresh (portHalf p) (portLocal p) (u.nonEmpty (portHalf p) (portLocal p)) := by
  unfold doPfcReceive
  dsimp only
  rw [hq, hu]

theorem doPfcExpire_of_over {prio d : Nat} (ht : tget? (s.ing.get (portHalf p)).pauses (prioKey (portLocal p) prio) = some d)
    (hd : d ≤ s.ticks) :
    doPfcExpire p prio s = s.withSched (portHalf p) (portLocal p) fun s =>
      s.updIng (portHalf p) fun i => { i with pauses := tdel i.pauses (prioKey (portLocal p) prio) } := by
  unfold doPfcExpire
  dsimp only
  rw [ht]
  exact if_pos hd

end

/-- The time of a class in a PFC frame: QUANTA where it is to pause, 0 where it is to go on. -/
theorem nth_pfcFrame_times (off on q : Nat) {e : Nat} (he : e < 8) : nth 0 (pfcFrame off on q).2 e = if off.testBit e then q else 0 := by
  simp [nth, pfcFrame, List.getD, he]

end Sys2Proof.Machine

/-- Settles O10: each command is one of the lemmas about its function; the sent frame's effect on the half's tables is `State.pfcLeft`. -/
theorem pfcBothWays : Obligations.PfcBothWays := by
  refine ⟨fun s p hr hd hs hw hoff hon => ⟨_, congrArg Host.Outcome.next (doPfcTransmit_of_due hr hd hs), ?_⟩,
    fun s p prio since ht hr htx hx hg hd => congrArg Host.Outcome.next (doPfcRefresh_of_due ht hr htx hx hg hd),
    fun s p en ts rest hq => ⟨_, rfl, congrArg Host.Outcome.next (doPfcReceive_of_frame hq rfl)⟩,
    fun s p prio d ht hd => congrArg Host.Outcome.next (doPfcExpire_of_over ht hd),
    fun off on q e he => ⟨rfl, nth_pfcFrame_times off on q he⟩⟩
  rw [State.bump_ing, State.updIng, pair_get_upd_same]
  exact ⟨State.reg_bump_same (s.updIng (portHalf p) (s.pfcLeft p)) (bPort p) R.port_TX_PFC_FRAMES hw,
    tget_tdel_same _ _ _ hoff, tget_tdel_same _ _ _ hon, tget?_tput_same _ _ _, rfl⟩
end

section
open Sys2Proof Sys2Proof.Machine

namespace Sys2Proof.Machine

section
variable {s : State} {h : Half}

/-! ### What a stamp sees (R150, R211) -/

theorem State.visible_stable (b st : Nat) : s.visible h vsStable b st = true := rfl

theorem State.visible_pending_iff (b st : Nat) : s.visible h vsPending b st = true ↔ s.slotE h b ≤ st := decide_eq_true_iff

theorem State.visible_retiring_iff (b st : Nat) : s.visible h vsRetiring b st = true ↔ st < s.slotE h b := decide_eq_true_iff

/-- A slot that holds a batch not yet posted reads the E of never. -/
theorem State.slotE_of_unposted {b : Nat}
    (hb : (s.bslot h b).state = .building ∨ (s.bslot h b).state = .ready ∨ (s.bslot h b).state = .undoing) :
    s.slotE h b = 2 ^ 64 - 1 := by
  unfold State.slotE
  rcases hb with hb | hb | hb <;> rw [hb]

/-- A slot reads the stamp it was posted with until its batch is retired. -/
theorem State.slotE_of_posted {b : Nat} (hb : (s.bslot h b).state = .posted ∨ (s.bslot h b).state = .retiring) :
    s.slotE h b = (s.bslot h b).e.toNat := by
  unfold State.slotE
  rcases hb with hb | hb <;> rw [hb]

/-! ### LOOKUP (R190, R192) -/

/-- The entries of a key are those of its candidate slots that hold its TID and KEY. -/
theorem TableState.mem_exFind_iff {x : TableState} {tid key i : Nat} {e : ExEntry} :
    (i, e) ∈ x.exFind tid key ↔ i ∈ exCands tid key ∧ tget? x.exact i = some e ∧ e.tid = tid ∧ e.key = key := by
  rw [TableState.exFind, List.mem_filterMap]
  constructor
  · rintro ⟨j, hj, hf⟩
    split at hf
    next e' he =>
      split at hf
      next hk =>
        cases hf
        exact ⟨hj, he, hk⟩
      next => cases hf
    next => cases hf
  · rintro ⟨hi, he, hk⟩
    exact ⟨i, hi, by simp only [he, if_pos hk]⟩

/-- What is found holds the key and is seen. -/
theorem State.of_exLookup_eq_some {tid key st i : Nat} {e : ExEntry} (hf : s.exLookup h tid key st = some (i, e)) :
    tget? (s.tab.get h).exact i = some e ∧ e.tid = tid ∧ e.key = key ∧ s.visible h e.vstate e.batch st = true :=
  have ⟨_, he, ht, hk⟩ := TableState.mem_exFind_iff.mp (List.mem_of_find?_eq_some hf)
  ⟨he, ht, hk, List.find?_some (p := fun e : Nat × ExEntry => s.visible h e.2.vstate e.2.batch st) hf⟩

/-- When nothing is found, no candidate slot holds an entry of the key that is seen. -/
theorem State.not_visible_of_exLookup_eq_none {tid key st i : Nat} {e : ExEntry} (hf : s.exLookup h tid key st = none)
    (hi : i ∈ exCands tid key) (he : tget? (s.tab.get h).exact i = some e) (ht : e.tid = tid) (hk : e.key = key) :
    s.visible h e.vstate e.batch st = false :=
  Bool.eq_false_iff.mpr (List.find?_eq_none.mp hf (i, e) (TableState.mem_exFind_iff.mpr ⟨hi, he, ht, hk⟩))

theorem State.refreshEx_of_aged {i : Nat} {e : ExEntry} (ha : e.ageProf ≠ 0) :
    s.refreshEx h i e = s.setEx h i { e with age := s.ageNow h, hit := true, at0 := s.ticks, noticed := false } :=
  if_neg ha

theorem lookupBody_of_found {q : TblCall} {i : Nat} {e : ExEntry}
    (hf : s.exLookup q.h (q.gc % 256) (exKeyOf q.bytes) q.st = some (i, e)) :
    (lookupBody s q).bytes = tblBytes stHit 0 i e.result.toNat ∧
      (lookupBody s q).s = if q.c.w.testBit 4 then s.refreshEx q.h i e else s := by
  unfold lookupBody
  dsimp only
  rw [hf]
  exact ⟨rfl, rfl⟩

theorem lookupBody_of_not_found {q : TblCall} (hf : s.exLookup q.h (q.gc % 256) (exKeyOf q.bytes) q.st = none) :
    (lookupBody s q).bytes = tblBytes stMiss 0 0 0 ∧ (lookupBody s q).s = s := by
  unfold lookupBody
  dsimp only
  rw [hf]
  exact ⟨rfl, rfl⟩

/-! ### LPM (R201) -/

section
variable {vrf fam addr st n : Nat}

theorem State.lpmFind_zero :
    s.lpmFind h vrf fam addr st 0 = (s.routeAt h (routeKey vrf fam 0 addr) st).map fun r => (r, 0) := rfl

theorem State.lpmFind_succ_of_route {r : Word} (hr : s.routeAt h (routeKey vrf fam (n + 1) addr) st = some r) :
    s.lpmFind h vrf fam addr st (n + 1) = some (r, n + 1) := by
  rw [State.lpmFind, hr]

theorem State.lpmFind_succ_of_no_route (hr : s.routeAt h (routeKey vrf fam (n + 1) addr) st = none) :
    s.lpmFind h vrf fam addr st (n + 1) = s.lpmFind h vrf fam addr st n := by
  rw [State.lpmFind, hr]

/-- Nothing is found exactly when no length has a route. -/
theorem State.lpmFind_eq_none_iff :
    s.lpmFind h vrf fam addr st n = none ↔ ∀ j, j ≤ n → s.routeAt h (routeKey vrf fam j addr) st = none := by
  induction n with
  | zero => simp [State.lpmFind_zero]
  | succ n ih =>
    simp only [Nat.le_succ_iff_eq_or_le, forall_eq_or_imp, ← ih]
    cases hr : s.routeAt h (routeKey vrf fam (n + 1) addr) st with
    | none => simp [State.lpmFind_succ_of_no_route hr]
    | some r => simp [State.lpmFind_succ_of_route hr]

/-- What is found is the route of a length beyond which no length up to `n` has one. -/
theorem State.lpmFind_eq_some_iff {r : Word} {m : Nat} :
    s.lpmFind h vrf fam addr st n = some (r, m) ↔
      m ≤ n ∧ s.routeAt h (routeKey vrf fam m addr) st = some r ∧
        ∀ j, m < j → j ≤ n → s.routeAt h (routeKey vrf fam j addr) st = none := by
  induction n with
  | zero =>
    rw [State.lpmFind_zero, Option.map_eq_some_iff]
    constructor
    · rintro ⟨r, hr, ⟨⟩⟩
      exact ⟨le_rfl, hr, fun j hj h0 => by omega⟩
    · rintro ⟨hm, hr, -⟩
      obtain rfl : m = 0 := by omega
      exact ⟨r, hr, rfl⟩
  | succ n ih =>
    cases hn : s.routeAt h (routeKey vrf fam (n + 1) addr) st with
    | none =>
      rw [State.lpmFind_succ_of_no_route hn, ih]
      constructor
      · rintro ⟨hm, hr, hj⟩
        refine ⟨by omega, hr, fun j hmj hjn => ?_⟩
        rcases Nat.le_succ_iff_eq_or_le.mp hjn with rfl | hjn
        · exact hn
        · exact hj j hmj hjn
      · rintro ⟨hm, hr, hj⟩
        have hne : m ≠ n + 1 := by
          rintro rfl
          cases hn.symm.trans hr
        exact ⟨by omega, hr, fun j hmj hjn => hj j hmj (by omega)⟩
    | some r' =>
      rw [State.lpmFind_succ_of_route hn]
      constructor
      · rintro ⟨⟩
        exact ⟨le_rfl, hn, fun j hj hjn => by omega⟩
      · rintro ⟨hm, hr, hj⟩
        have hle : ¬ m < n + 1 := fun hlt => by cases hn.symm.trans (hj (n + 1) hlt le_rfl)
        obtain rfl : m = n + 1 := by omega
        cases hn.symm.trans hr
        rfl

end

/-! ### The member of a group (R140) -/

/-- The place that group `g` gives at offset `off + j`. -/
def groupPlace (g off j : Nat) : Nat := (bits g 0 18 + (off + j) % bits g 18 10) % 262144

/-- The port of the member at a place counts as up at a stamp. -/
def State.placeUp (s : State) (h : Half) (st m : Nat) : Bool :=
  s.memberUp h (bits (s.indexedAt h (tget Indexed.init (s.tab.get h).members m) st) 24 8)

/-- How far past its offset group `g` first gives a place that is up, of up to 16 places. -/
def State.firstUp (s : State) (h : Half) (g off st : Nat) : Option Nat :=
  (List.range (min (bits g 18 10) 16)).find? fun j => s.placeUp h st (groupPlace g off j)

section
variable {g off st : Nat}

theorem State.groupMember_of_plain (hg : g.testBit 30 = false) : s.groupMember h g off st = (groupPlace g off 0, true) :=
  if_neg (by simp [hg])

theorem State.firstUp_eq_some_iff {j : Nat} :
    s.firstUp h g off st = some j ↔ j < min (bits g 18 10) 16 ∧ s.placeUp h st (groupPlace g off j) = true ∧
      ∀ i, i < j → s.placeUp h st (groupPlace g off i) = false := by
  rw [State.firstUp, List.find?_range_eq_some, List.mem_range, and_left_comm]
  simp only [Bool.not_eq_true']

/-- With FAILOVER the first place that is up is given, or the place of the offset, not live, when there is none. -/
theorem State.groupMember_of_failover (hg : g.testBit 30 = true) :
    s.groupMember h g off st =
      (s.firstUp h g off st).elim (groupPlace g off 0, false) fun j => (groupPlace g off j, true) := by
  have hn : (if bits g 18 10 < 16 then bits g 18 10 else 16) = min (bits g 18 10) 16 := by
    split <;> omega
  unfold State.groupMember
  dsimp only
  rw [if_pos hg, hn]
  split
  next j hj =>
    have hup : s.firstUp h g off st = some j := hj
    rw [hup]
    rfl
  next hnone =>
    have hdown : s.firstUp h g off st = none := hnone
    rw [hdown]
    rfl

/-- The member of a failover group is live exactly when it is the first of up to 16 that is up. -/
theorem State.groupMember_eq_live_iff {m : Nat} (hg : g.testBit 30 = true) :
    s.groupMember h g off st = (m, true) ↔ ∃ j, j < min (bits g 18 10) 16 ∧ m = groupPlace g off j ∧
      s.placeUp h st m = true ∧ ∀ i, i < j → s.placeUp h st (groupPlace g off i) = false := by
  rw [State.groupMember_of_failover hg]
  constructor
  · intro hm
    cases hf : s.firstUp h g off st with
    | none => simp [hf] at hm
    | some j =>
      obtain rfl : groupPlace g off j = m := by simpa [hf] using hm
      obtain ⟨hj, hup, hdown⟩ := State.firstUp_eq_some_iff.mp hf
      exact ⟨j, hj, rfl, hup, hdown⟩
  · rintro ⟨j, hj, rfl, hup, hdown⟩
    rw [State.firstUp_eq_some_iff.mpr ⟨hj, hup, hdown⟩, Option.elim_some]

end

end

/-! ### A search of the ASSOC (R145–R147, R155, R156) -/

/-- A key matches where it agrees with the entry's value in every bit the entry cares for. -/
theorem asMatches_iff (e key : Nat) :
    asMatches e key = true ↔ ∀ i, (asCare e).testBit i = true → key.testBit i = (asValue e).testBit i := by
  rw [asMatches, beq_iff_eq, Nat.eq_iff_testBit_eq]
  refine forall_congr' fun i => ?_
  rw [Nat.testBit_and, Nat.testBit_xor, Nat.zero_testBit, Bool.and_eq_false_iff, bne_eq_false_iff_eq]
  cases (asCare e).testBit i <;> simp

/-- One more entry wins over the first of a list when its rank is lower. -/
theorem asFirst_concat (l : List (Nat × Nat)) (e : Nat × Nat) :
    asFirst (l ++ [e]) = some ((asFirst l).elim e fun b => if asRank e.1 e.2 < asRank b.1 b.2 then e else b) := by
  rw [asFirst, List.foldl_append, ← asFirst]
  cases asFirst l with
  | none => rfl
  | some b => rw [List.foldl_cons, List.foldl_nil, Option.elim_some, apply_ite some]

theorem asFirst_eq_none_iff (l : List (Nat × Nat)) : asFirst l = none ↔ l = [] := by
  cases l using List.reverseRecOn with
  | nil => exact iff_of_true rfl rfl
  | append_singleton l e => simp [asFirst_concat]

/-- The first of a list is the entry of it of least rank. -/
theorem asFirst_least (l : List (Nat × Nat)) :
    ∀ x, asFirst l = some x → x ∈ l ∧ ∀ y ∈ l, asRank x.1 x.2 ≤ asRank y.1 y.2 := by
  induction l using List.reverseRecOn with
  | nil => exact fun _ hx => absurd hx (Option.some_ne_none _).symm
  | append_singleton l e ih =>
    intro x hx
    rw [asFirst_concat, Option.some_inj] at hx
    cases hl : asFirst l with
    | none =>
      obtain rfl : e = x := by simpa [hl] using hx
      obtain rfl := (asFirst_eq_none_iff l).mp hl
      simp
    | some b =>
      obtain ⟨hb, hmin⟩ := ih b hl
      rw [hl, Option.elim_some] at hx
      split at hx
      next hlt =>
        subst hx
        exact ⟨by simp, List.forall_mem_append.mpr ⟨fun y hy => hlt.le.trans (hmin y hy), by simp⟩⟩
      next hle =>
        subst hx
        exact ⟨List.mem_append_left _ hb, List.forall_mem_append.mpr ⟨hmin, by simpa using hle⟩⟩

theorem State.mem_asFound_iff {s : State} {h : Half} {banks : List Nat} {key st i e : Nat} :
    (i, e) ∈ s.asFound h banks key st ↔
      (i, e) ∈ (s.assoc.get h).entries ∧ asMatches e key = true ∧ s.asTakesPart h banks st i e = true := by
  rw [State.asFound, List.mem_filter, Bool.and_eq_true]

/-- An entry lies beyond a STEP's cursor; where there is no cursor every entry does (R147). -/
def asBeyond (after : Option Nat) (e : Nat × Nat) : Bool :=
  match after with
  | some r => decide (r < asRank e.1 e.2)
  | none => true

theorem asBeyond_none : asBeyond none = fun _ => true := rfl

theorem asBeyond_some (r : Nat) : asBeyond (some r) = fun e => decide (r < asRank e.1 e.2) := rfl

/-- With its banks whole a search answers the first of the matches beyond the cursor, with neither REBUILD nor LOST. -/
theorem State.asSearch_of_whole {s : State} {h : Half} {c : Nat} (key st : Nat) (after : Option Nat)
    (hb : ∀ b ∈ s.classBanks h c, s.bankLost h b = false ∧ s.filling h b = false) (hw : (s.assoc.get h).withheld = []) :
    (s.asSearch h c key st after).1 =
      asBytes (asFirst ((s.asFound h (s.classBanks h c) key st).filter (asBeyond after)))
        (decide (1 < ((s.asFound h (s.classBanks h c) key st).filter (asBeyond after)).length)) false false := by
  have hlost : ((s.classBanks h c).any fun b => s.bankLost h b) = false :=
    List.any_eq_false.mpr fun b hm => Bool.eq_false_iff.mp (hb b hm).1
  have hrebuild : ((s.classBanks h c).any fun b => !s.bankLost h b && (s.filling h b ||
      (s.assoc.get h).withheld.any fun i => decide (i / bankEntries = b))) = false :=
    List.any_eq_false.mpr fun b hm => by simp [(hb b hm).2, hw]
  unfold State.asSearch
  dsimp only
  rw [hlost, hrebuild]
  rfl

end Sys2Proof.Machine

/-- Settles O46: what a stamp sees, what each lookup answers and what a search answers is each one of the lemmas about its function. -/
theorem lookupsAnswer : Obligations.LookupsAnswer := by
  refine ⟨⟨fun s h b st => ⟨State.visible_stable b st, State.visible_pending_iff b st, State.visible_retiring_iff b st,
        State.slotE_of_unposted, State.slotE_of_posted⟩, fun s q i e hf => ?_,
      fun s q hf => ?_,
      fun s h vrf fam addr st n => ⟨fun r m => State.lpmFind_eq_some_iff, State.lpmFind_eq_none_iff⟩,
      fun s h g off st hg => State.groupMember_of_plain hg, fun s h g off st m hg _ => State.groupMember_eq_live_iff hg⟩,
    asMatches_iff, asFirst_eq_none_iff, asFirst_least, fun s h banks key st i e => State.mem_asFound_iff, ?_⟩
  · obtain ⟨hbytes, hs⟩ := lookupBody_of_found hf
    obtain ⟨he, ht, hk, hv⟩ := State.of_exLookup_eq_some hf
    refine ⟨hbytes, he, ht, hk, hv, fun hw => ?_, fun hw ha => ?_⟩
    · rw [hs, hw, if_neg Bool.false_ne_true]
    · rw [hs, if_pos hw, State.refreshEx_of_aged ha]
  · obtain ⟨hbytes, hs⟩ := lookupBody_of_not_found hf
    exact ⟨hbytes, hs, fun i e => State.not_visible_of_exLookup_eq_none hf⟩
  · rintro s h c key st hb hw l rfl
    refine ⟨?_, fun r => ?_⟩
    · rw [State.asSearch_of_whole key st none hb hw, asBeyond_none, List.filter_true]
    · rw [State.asSearch_of_whole key st (some r) hb hw, asBeyond_some]
end

section
open Sys2Proof Sys2Proof.Machine

namespace Sys2Proof.Machine

section
variable {s : State} {h : Half}

/-! ### Messages between the halves (R222, R520, R531, R534) -/

theorem doHeartbeatSend_of_up (hu : s.fordUp h = true) :
    doHeartbeatSend h s = s.updFord (other h) fun f => { f with heartbeatsIn := f.heartbeatsIn ++ [BitVec.ofNat 64 (s.portBits h)] } :=
  if_pos hu

theorem doNoticeSend_of_up (hu : s.fordUp h = true) (hl : s.live (.half h) = true) :
    doNoticeSend h s = s.updFord (other h) fun f => { f with noticesIn := f.noticesIn ++ [BitVec.ofNat 64 (s.published h)] } :=
  if_pos ⟨hu, hl⟩

theorem doNoticeReceive_of_cons {v : DWord} {r : List DWord} (hq : (s.ford.get h).noticesIn = v :: r) :
    doNoticeReceive h s = { s with
      ford := s.ford.upd h fun f => { f with noticesIn := r }
      conf := s.conf.upd h fun x => { x with remote := v }
      tab := s.tab.upd h fun t => { t with noticed := true } } := by
  unfold doNoticeReceive
  rw [hq]
  rfl

theorem doHeartbeatReceive_of_cons {v : DWord} {r : List DWord} (hq : (s.ford.get h).heartbeatsIn = v :: r) :
    doHeartbeatReceive h s =
      s.updFord h fun f => { f with heartbeatsIn := r, lastHeartbeat := some s.ticks, peerPorts := v.toNat } := by
  unfold doHeartbeatReceive
  rw [hq]

theorem doFatalNotice_of_waiting (hf : (s.ford.get h).fatalIn = true) :
    doFatalNotice h s = s.updFord h fun f => { f with fatalIn := false, fatalSeen := true } :=
  if_pos hf

theorem doLearnShare_of_cons {k : List Byte} {n p : Nat} {r : List (List Byte × Nat × Nat)}
    (hq : (s.ford.get h).learnIn = (k, n, p) :: r) (he : s.learnEn h = true) :
    doLearnShare h s = { s with
      ford := s.ford.upd h fun f => { f with learnIn := r }
      tab := s.tab.upd h fun t => { t with examine := t.examine ++ [(k, p)] } } := by
  unfold doLearnShare
  rw [hq]
  exact if_pos he

/-! ### Crossing records (R524, R26, R532) -/

section
variable {r : CrossRec} {rest : List CrossRec}

theorem doCrossSend_of_readable (hu : s.fordUp h = true) (hq : (s.ford.get h).waiting = r :: rest)
    (hc : r.credits ≤ (s.ford.get h).credits) (hr : s.unreadable h r.chain = false) :
    doCrossSend h s =
      ((s.updFord h fun f => { f with waiting := rest, flight := f.flight ++ [r], credits := f.credits - r.credits }).updFord (other h)
        fun f => { f with cellsIn := f.cellsIn ++ [r] }).bump (bFord h) R.ford_CROSS_SENT := by
  unfold doCrossSend
  rw [hq]
  dsimp only
  rw [if_pos ⟨hu, hc⟩, if_neg (by simp [hr])]

theorem doCrossSend_of_unreadable (hu : s.fordUp h = true) (hq : (s.ford.get h).waiting = r :: rest)
    (hc : r.credits ≤ (s.ford.get h).credits) (hr : s.unreadable h r.chain = true) :
    doCrossSend h s = ((s.pointerFault h r.chain).bumpPort (egressHalf h r.port) (lpOf r.port) pcError).endCrossing h r.chain := by
  unfold doCrossSend
  rw [hq]
  dsimp only
  rw [if_pos ⟨hu, hc⟩, if_pos hr]

theorem doCrossSend_of_short (hq : (s.ford.get h).waiting = r :: rest) (hc : (s.ford.get h).credits < r.credits) :
    doCrossSend h s = s := by
  unfold doCrossSend
  rw [hq]
  exact if_neg fun hle => hc.not_ge hle.2

theorem doCrossReceipt_of_live (hb : s.live (.buffer h) = true) (hf : s.live (.ford h) = true)
    (hq : (s.ford.get h).cellsIn = r :: rest) :
    doCrossReceipt h s =
      ((((s.updFord h fun f => { f with cellsIn := rest }).takeCrossing h r).examineFrom h r.frame.learnKey r.frame.inPort).updFord (other h)
        fun f => { f with acksIn := f.acksIn ++ [(r.chain, r.credits)] }).bump (bFord h) R.ford_CROSS_RECEIVED := by
  unfold doCrossReceipt
  rw [hq]
  exact if_pos ⟨hb, hf⟩

end

/-- An acknowledgement gives its credits back, and ends the crossing of a record still in flight. -/
theorem doCrossAck_of_cons {id k : Nat} {rest : List (Nat × Nat)} (hq : (s.ford.get h).acksIn = (id, k) :: rest) :
    doCrossAck h s =
      if ((s.ford.get h).flight.any fun r => r.chain = id) = true then
        (s.updFord h fun f => { f with acksIn := rest, credits := satTo (f.credits + k) fordCredits }).endCrossing h id
      else s.updFord h fun f => { f with acksIn := rest, credits := satTo (f.credits + k) fordCredits } := by
  unfold doCrossAck
  rw [hq]

end

/-- A record that is sent leaves its half's queue for its flight with its credits, and is counted. -/
theorem doCrossSend_sends {s : State} {h : Half} {r : CrossRec} {rest : List CrossRec} (hw : Tbl.wf s.csr = true)
    (hu : s.fordUp h = true) (hq : (s.ford.get h).waiting = r :: rest) (hc : r.credits ≤ (s.ford.get h).credits)
    (hr : s.unreadable h r.chain = false) {t : State} (ht : t = doCrossSend h s) :
    (t.ford.get h).waiting = rest ∧ (t.ford.get h).flight = (s.ford.get h).flight ++ [r] ∧
      (t.ford.get h).credits + r.credits = (s.ford.get h).credits ∧
      (t.ford.get (other h)).cellsIn = (s.ford.get (other h)).cellsIn ++ [r] ∧
      t.reg (bFord h) R.ford_CROSS_SENT = s.reg (bFord h) R.ford_CROSS_SENT + 1 ∧
      t = { s with csr := t.csr, ford := t.ford } := by
  have hne : h ≠ other h := (other_ne h).symm
  rw [doCrossSend_of_readable hu hq hc hr] at ht
  subst ht
  refine ⟨?_, ?_, ?_, ?_, State.reg_bump_same (State.updFord _ _ _) _ _ hw, rfl⟩
  · simp [pair_get_upd_ne _ _ _ _ hne]
  · simp [pair_get_upd_ne _ _ _ _ hne]
  · simpa [pair_get_upd_ne _ _ _ _ hne] using Nat.sub_add_cancel hc
  · simp

end Sys2Proof.Machine

/-- Settles O16: each command is one of the lemmas about its function, and what a sent record leaves behind is `doCrossSend_sends`. -/
theorem fordTraffic : Obligations.FordTraffic := by
  refine ⟨⟨fun s h hu => ⟨congrArg Host.Outcome.next (doHeartbeatSend_of_up hu),
        fun hl => congrArg Host.Outcome.next (doNoticeSend_of_up hu hl)⟩,
      fun s h v r hq => ⟨_, congrArg Host.Outcome.next (doNoticeReceive_of_cons hq), by simp, by simp, rfl, by simp⟩,
      fun s h v r hq => congrArg Host.Outcome.next (doHeartbeatReceive_of_cons hq),
      fun s h hf => congrArg Host.Outcome.next (doFatalNotice_of_waiting hf),
      fun s h k n p r hq he => ⟨_, congrArg Host.Outcome.next (doLearnShare_of_cons hq he), by simp, by simp, rfl, by simp⟩⟩,
    fun s h r rest hw hu hq hc hr => ⟨_, rfl, doCrossSend_sends hw hu hq hc hr rfl⟩,
    fun s h r rest hu hq hc hr => congrArg Host.Outcome.next (doCrossSend_of_unreadable hu hq hc hr),
    fun s h r rest hq hc => congrArg Host.Outcome.next (doCrossSend_of_short hq hc),
    fun s h r rest hb hf hq => congrArg Host.Outcome.next (doCrossReceipt_of_live hb hf hq),
    fun s h id k rest hq ha => congrArg Host.Outcome.next ((doCrossAck_of_cons hq).trans (if_neg (by simp [ha]))),
    fun s h id k rest hq ha => congrArg Host.Outcome.next ((doCrossAck_of_cons hq).trans (if_pos ha))⟩
end

section
open Sys2Proof Sys2Proof.Machine

namespace Sys2Proof.Machine

section
variable {s : State} {h : Half} {b : Nat}

/-! ### A batch slot -/

theorem State.bslot_updSlot (f : BatchSlot → BatchSlot) (hw : Tbl.wf (s.tab.get h).slots = true) :
    (s.updSlot h b f).bslot h b = f (s.bslot h b) := by
  simp only [State.updSlot, State.bslot, State.updTab_tab, pair_get_upd_same]
  exact tget_tmod_same _ _ _ f hw

theorem State.bslot_updTab_of_slots {f : TableState → TableState} (hf : (f (s.tab.get h)).slots = (s.tab.get h).slots) :
    (s.updTab h f).bslot h b = s.bslot h b := by
  simp only [State.bslot, State.updTab_tab, pair_get_upd_same, hf]

/-! ### The commands of a batch slot (R215–R218) -/

theorem State.agentBatch_of_reach {a : Agent} {slot : Fin 256} {cmd : Nat} (hr : s.agentReach a (.table h 7) = true) :
    s.agentBatch a h slot cmd = s.batchCmd h slot.val cmd :=
  if_pos hr

/-- What a slot latches when BUILD or BUILD_POST takes it. -/
def State.latched (s : State) (h : Half) (post : Bool) : BatchSlot :=
  { BatchSlot.init with
    state := .building
    addr := s.rfld (bTable h 7) R.version_BATCH_LIST_ADDR 3 45 <<< 3
    len := s.rfld (bTable h 7) R.version_BATCH_LIST_LEN 0 32
    postE := if post then some (s.reg (bTable h 7) R.version_BATCH_E) else none }

theorem State.buildCmd_of_free (post : Bool) (hf : (s.bslot h b).state = .free) :
    s.buildCmd h b post =
      (s.updSlot h b fun _ => s.latched h post).updTab h fun t => { t with builds := t.builds ++ [b] } :=
  if_pos hf

theorem State.buildCmd_of_not_free (post : Bool) (hf : (s.bslot h b).state ≠ .free) :
    s.buildCmd h b post = s.bump (bTable h 7) R.version_CMD_IGNORED :=
  if_neg hf

/-- A slot that builds holds what it latched, and waits last. -/
theorem State.buildCmd_latches (post : Bool) (hf : (s.bslot h b).state = .free) (hw : Tbl.wf (s.tab.get h).slots = true) {t : State}
    (ht : t = s.buildCmd h b post) :
    (t.bslot h b).state = .building ∧ (t.bslot h b).addr = s.rfld (bTable h 7) R.version_BATCH_LIST_ADDR 3 45 * 8 ∧
      (t.bslot h b).len = s.rfld (bTable h 7) R.version_BATCH_LIST_LEN 0 32 ∧
      (t.bslot h b).postE = (if post then some (s.reg (bTable h 7) R.version_BATCH_E) else none) ∧
      (t.tab.get h).builds = (s.tab.get h).builds ++ [b] ∧ t = { s with tab := t.tab } := by
  rw [State.buildCmd_of_free post hf] at ht
  have hslot : t.bslot h b = s.latched h post := by
    subst ht
    exact (State.bslot_updTab_of_slots rfl).trans (State.bslot_updSlot _ hw)
  rw [hslot]
  subst ht
  exact ⟨rfl, Nat.shiftLeft_eq _ 3, rfl, rfl, by simp [State.updSlot], rfl⟩

theorem State.postSlot_of_early {e : DWord} (he : e.toNat < (s.dts h).toNat + 64) :
    s.postSlot h b e = s.updSlot h b fun x => { x with reason := rsEarly } :=
  if_pos he

theorem State.postSlot_of_beyond {e : DWord} (he : (s.dts h).toNat + 64 ≤ e.toNat) (hr : 2 ^ 60 ≤ e.toNat) :
    s.postSlot h b e = s.updSlot h b fun x => { x with reason := rsRange } :=
  (if_neg he.not_gt).trans (if_pos hr)

theorem State.postSlot_of_valid {e : DWord} (he : (s.dts h).toNat + 64 ≤ e.toNat) (hr : e.toNat < 2 ^ 60) :
    s.postSlot h b e = s.updSlot h b fun x => { x with state := .posted, e := e, reason := 0 } :=
  (if_neg he.not_gt).trans (if_neg hr.not_ge)

theorem State.postSlot_frame (e : DWord) : s.postSlot h b e = { s with tab := (s.postSlot h b e).tab } := by
  unfold State.postSlot
  split_ifs <;> rfl

/-- POST of a READY slot posts it, or leaves it READY with the reason. -/
theorem State.postSlot_outcome (e : DWord) (hs : (s.bslot h b).state = .ready) (hw : Tbl.wf (s.tab.get h).slots = true) :
    ((s.dts h).toNat + 64 ≤ e.toNat → e.toNat < 2 ^ 60 →
      ((s.postSlot h b e).bslot h b).state = .posted ∧ ((s.postSlot h b e).bslot h b).e = e) ∧
    (e.toNat < (s.dts h).toNat + 64 →
      ((s.postSlot h b e).bslot h b).state = .ready ∧ ((s.postSlot h b e).bslot h b).reason = rsEarly) ∧
    ((s.dts h).toNat + 64 ≤ e.toNat → 2 ^ 60 ≤ e.toNat →
      ((s.postSlot h b e).bslot h b).state = .ready ∧ ((s.postSlot h b e).bslot h b).reason = rsRange) := by
  refine ⟨fun he hr => ?_, fun he => ?_, fun he hr => ?_⟩
  · rw [State.postSlot_of_valid he hr, State.bslot_updSlot _ hw]
    exact ⟨rfl, rfl⟩
  · rw [State.postSlot_of_early he, State.bslot_updSlot _ hw]
    exact ⟨hs, rfl⟩
  · rw [State.postSlot_of_beyond he hr, State.bslot_updSlot _ hw]
    exact ⟨hs, rfl⟩

theorem State.startUndo_of_touched {abort : Bool} (ht : (s.bslot h b).touched ≠ []) (hw : Tbl.wf (s.tab.get h).slots = true) :
    s.startUndo h b abort = s.updSlot h b fun x => { x with state := .undoing, abort := abort } := by
  refine if_neg ?_
  rw [State.bslot_updSlot _ hw]
  simpa using ht

theorem State.batchCmd_post_of_ready (hs : (s.bslot h b).state = .ready) :
    s.batchCmd h b 2 = s.postSlot h b (s.reg (bTable h 7) R.version_BATCH_E) :=
  if_pos hs

theorem State.batchCmd_abort_of_ready (hs : (s.bslot h b).state = .ready) : s.batchCmd h b 4 = s.startUndo h b true :=
  if_pos hs

theorem State.batchCmd_ack_of_refused (hs : (s.bslot h b).state = .refused) :
    s.batchCmd h b 5 = s.updSlot h b fun _ => BatchSlot.init :=
  if_pos hs

/-- POST and ABORT of a slot that is not READY are counted alone. -/
theorem State.batchCmd_of_not_ready {cmd : Nat} (hc : cmd = 2 ∨ cmd = 4) (hs : (s.bslot h b).state ≠ .ready) :
    s.batchCmd h b cmd = s.bump (bTable h 7) R.version_CMD_IGNORED := by
  rcases hc with rfl | rfl <;> exact if_neg hs

theorem State.batchCmd_ack_of_not_refused (hs : (s.bslot h b).state ≠ .refused) :
    s.batchCmd h b 5 = s.bump (bTable h 7) R.version_CMD_IGNORED :=
  if_neg hs

/-! ### Building (R214–R216) -/

@[simp] theorem State.withShadow_waits (s u : State) (h : Half) : (s.withShadow u h).waits = u.waits := rfl

/-- A table is written with its shadow once no request of the operation has to wait. -/
theorem State.orWait_withShadow_done {f : State → State} {u : State} (hf : f s = u) (ha : s.armed = []) (hw : u.waits = s.waits) :
    (s.orWait fun s => s.withShadow (f s) h) = s.withShadow u h := by
  subst hf
  exact State.orWait_done ha hw

theorem State.orWait_withShadow_waits {f : State → State} {u : State} (hf : f s = u) (hw : u.waits ≠ s.waits) :
    (s.orWait fun s => s.withShadow (f s) h) = s := by
  subst hf
  exact State.orWait_waits hw

/-- What becomes of the build in slot `b` with what was read of its next record. -/
def State.takeRecord (s : State) (h : Half) (b : Nat) : State × Option (BatchRec × Nat) → State
  | (s1, none) => s1.refuseRec h b rsList
  | (s1, some (r, total)) =>
    if s1.recReason h b r ≠ 0 then s1.refuseRec h b (s1.recReason h b r)
    else
      let s2 := (s1.applyRec h b r).updSlot h b fun x => { x with pos := x.pos + total, recNo := x.recNo + 1 }
      if (s.bslot h b).pos + total = (s.bslot h b).len then s2.buildDone h b else s2

section
variable {v y : State} {r : BatchRec} {n : Nat}

theorem State.takeRecord_of_refused (hr : v.recReason h b r ≠ 0) :
    s.takeRecord h b (v, some (r, n)) = v.refuseRec h b (v.recReason h b r) :=
  if_pos hr

/-- A record that no reason refuses is applied; after the last one the build is done. -/
theorem State.takeRecord_of_applied (hr : v.recReason h b r = 0)
    (hy : y = (v.applyRec h b r).updSlot h b fun x => { x with pos := x.pos + n, recNo := x.recNo + 1 }) :
    s.takeRecord h b (v, some (r, n)) = if (s.bslot h b).pos + n = (s.bslot h b).len then y.buildDone h b else y := by
  subst hy
  exact if_neg (not_not.mpr hr)

end

section
variable {bs : List Nat} (hl : s.live (.table h 7) = true) (hb : (s.tab.get h).builds = b :: bs) (hs : (s.bslot h b).state = .building)
include hl hb hs

/-- The build under way takes its next record, or is done where its list is empty. -/
theorem doRecordApply_of_building :
    doRecordApply h s =
      if (s.bslot h b).len = 0 then s.buildDone h b else s.takeRecord h b (s.nextRec h (s.bslot h b)) := by
  unfold doRecordApply
  rw [hb]
  exact if_neg (by simp [hl, hs])

theorem doRecordApply_of_empty (hz : (s.bslot h b).len = 0) : doRecordApply h s = s.buildDone h b :=
  (doRecordApply_of_building hl hb hs).trans (if_pos hz)

theorem doRecordApply_of_read {p : State × Option (BatchRec × Nat)} (hz : (s.bslot h b).len ≠ 0) (hn : s.nextRec h (s.bslot h b) = p) :
    doRecordApply h s = s.takeRecord h b p := by
  rw [doRecordApply_of_building hl hb hs, if_neg hz, hn]

end

/-! ### Undoing and retirement (R215, R219, R222) -/

section
variable {t : Touch} {ts : List Touch} {y : State} (hl : s.live (.table h 7) = true) (ht : (s.bslot h b).touched = t :: ts)
include hl ht

theorem doUndoStep_of_undoing (hs : (s.bslot h b).state = .undoing)
    (hy : y = (s.settle h b false t).updSlot h b fun x => { x with touched := ts }) :
    doUndoStep h b s = if ts.isEmpty = true then y.undone h b else y := by
  unfold doUndoStep
  dsimp only
  rw [if_neg (by simp [hl, hs]), ht, hy]

theorem doRetireWalk_of_retiring (hs : (s.bslot h b).state = .retiring)
    (hy : y = (s.settle h b true t).updSlot h b fun x => { x with touched := ts }) :
    doRetireWalk h b s = if ts.isEmpty = true then y.retired h b else y := by
  unfold doRetireWalk
  dsimp only
  rw [if_neg (by simp [hl, hs]), ht, hy]

end

theorem doRetireStart_of_reached (hl : s.live (.table h 7) = true) (hs : (s.bslot h b).state = .posted)
    (he : (s.bslot h b).e.toNat ≤ s.retireBasis h) (hn : s.pairActive h = true → (s.tab.get h).noticed = true)
    (ht : (s.bslot h b).touched ≠ []) :
    doRetireStart h b s = s.updSlot h b fun x => { x with state := .retiring } :=
  (if_pos ⟨hl, hs, he, hn⟩).trans (if_neg (by simpa using ht))

theorem doRetireStart_of_not_reached (he : s.retireBasis h < (s.bslot h b).e.toNat) : doRetireStart h b s = s :=
  if_neg fun hc => he.not_ge hc.2.2.1

/-! ### One entry of EXACT -/

section
variable {i : Nat} {e : ExEntry}

theorem State.exact_setEx (x : ExEntry) : tget? ((s.setEx h i x).tab.get h).exact i = some x := by
  simp [State.setEx]

theorem State.exact_dropEx_forgetWithheld (hw : Tbl.wf (s.tab.get h).exact = true) :
    tget? (((s.dropEx h i).forgetWithheld h tgExact i).tab.get h).exact i = none := by
  have hx : (((s.dropEx h i).forgetWithheld h tgExact i).tab.get h).exact = tdel (s.tab.get h).exact i := by
    simp [State.forgetWithheld, State.dropEx]
  rw [hx]
  exact tget?_tdel_same _ _ hw

variable (he : tget? (s.tab.get h).exact i = some e)
include he

theorem State.settle_exact_of_other (hb : e.batch ≠ b) (walk : Bool) : s.settle h b walk (.exact i) = s := by
  simp only [State.settle, he, if_pos (Or.inl hb)]

/-- An entry in the version state that the step ends is dropped. -/
theorem State.settle_exact_eq_none_of_gone {walk : Bool} (hb : e.batch = b) (hv : e.vstate = if walk then vsRetiring else vsPending)
    (hw : Tbl.wf (s.tab.get h).exact = true) : tget? ((s.settle h b walk (.exact i)).tab.get h).exact i = none := by
  have hs : ¬ (e.batch ≠ b ∨ e.vstate = vsStable) := by
    rw [hv]
    cases walk <;> simp [hb]
  have hdrop : s.settle h b walk (.exact i) = (s.dropEx h i).forgetWithheld h tgExact i := by
    simp only [State.settle, he, if_neg hs, if_pos hv]
  rw [hdrop, State.exact_dropEx_forgetWithheld hw]

/-- An entry in the other version state becomes STABLE. -/
theorem State.settle_exact_eq_stable_of_stays {walk : Bool} (hb : e.batch = b) (hv : e.vstate = if walk then vsPending else vsRetiring) :
    tget? ((s.settle h b walk (.exact i)).tab.get h).exact i = some { e with vstate := vsStable } := by
  have hs : ¬ (e.batch ≠ b ∨ e.vstate = vsStable) := by
    rw [hv]
    cases walk <;> simp [hb]
  have hg : ¬ e.vstate = if walk then vsRetiring else vsPending := by
    rw [hv]
    cases walk <;> simp
  have hset : s.settle h b walk (.exact i) = s.setEx h i { e with vstate := vsStable } := by
    simp only [State.settle, he, if_neg hs, if_neg hg]
  rw [hset, State.exact_setEx]

end

/-- A new key is refused for want of a slot alone. -/
theorem State.recReason_of_new_key {r : BatchRec} (hp : s.pendingTotal h + 2 ≤ maxPending) (ht : r.table = tgExact) (ho : r.op = opInsert)
    (hlen : r.len = 32) (hz : r.zero = 0) (hi : r.index = 0) (hk : (s.bslot h b).keys = []) (hf : (s.tab.get h).exFind r.exTid r.exK = []) :
    s.recReason h b r = if s.exHasSlot h r.exTid r.exK then 0 else rsFull := by
  have hroom : s.overPending h 1 = false := decide_eq_false (by omega)
  rw [State.recReason, if_pos ht, State.exReason, hf, hk]
  cases hslot : s.exHasSlot h r.exTid r.exK <;> simp [firstReason, ho, hlen, hz, hi, hroom]

end

end Sys2Proof.Machine

/-- Settles O48: a command of a slot is one of the lemmas about `batchCmd`, a step of a batch is the step of its record or entry, written
with its shadow. -/
theorem batchesApply : Obligations.BatchesApply := by
  refine ⟨fun s a h b hr hw => ?_, fun s h b bs x hl hb hx hs ha => ?_, fun s h b t ts hl ht ha => ?_, fun s h b hl hs hn => ?_,
    fun s h b i e hw he => ?_, fun s h b r => State.recReason_of_new_key⟩
  · have hcmd (cmd : Nat) : s.agentBatch a h b cmd = s.batchCmd h b.val cmd := State.agentBatch_of_reach hr
    have hnext {cmd : Nat} {t : State} (ht : s.batchCmd h b.val cmd = t) : (.next (s.agentBatch a h b cmd) : Out) = .next t := by
      rw [hcmd, ht]
    refine ⟨fun hf e he => ?_, fun hs e he => ?_, fun hs ht => ?_, fun hs => ?_,
      fun hs => ⟨?_, ?_⟩, fun hs => ⟨?_, ?_⟩, fun hs => ?_⟩
    · simp only [List.mem_cons, List.not_mem_nil, or_false] at he
      rcases he with rfl | rfl
      · exact ⟨_, hnext rfl, State.buildCmd_latches false hf hw rfl⟩
      · exact ⟨_, hnext rfl, State.buildCmd_latches true hf hw rfl⟩
    · subst he
      obtain ⟨hvalid, hearly, hbeyond⟩ := State.postSlot_outcome (s.reg (bTable h 7) R.version_BATCH_E) hs hw
      exact ⟨_, hnext (State.batchCmd_post_of_ready hs), State.postSlot_frame _, hvalid, hearly, hbeyond⟩
    · exact hnext ((State.batchCmd_abort_of_ready hs).trans (State.startUndo_of_touched ht hw))
    · exact hnext (State.batchCmd_ack_of_refused hs)
    · exact hnext (State.buildCmd_of_not_free false hs)
    · exact hnext (State.buildCmd_of_not_free true hs)
    · exact hnext (State.batchCmd_of_not_ready (.inl rfl) hs)
    · exact hnext (State.batchCmd_of_not_ready (.inr rfl) hs)
    · exact hnext (State.batchCmd_ack_of_not_refused hs)
  · subst hx
    have happly {u : State} (hu : doRecordApply h s = u) (hw : u.waits = s.waits) :
        exec (.batchRecordApply h) s = .next (s.withShadow u h) :=
      congrArg Host.Outcome.next (State.orWait_withShadow_done hu ha hw)
    refine ⟨fun hz hw => happly (doRecordApply_of_empty hl hb hs hz) hw, fun v w hz hn hw => ?_, fun v w r n hz hn hwt => ?_⟩
    · have hrec : doRecordApply h s = w := (doRecordApply_of_read hl hb hs hz hn).trans hw.symm
      exact ⟨happly hrec, fun hwt => congrArg Host.Outcome.next (State.orWait_withShadow_waits hrec hwt)⟩
    · have hrec := doRecordApply_of_read hl hb hs hz hn
      refine ⟨fun hr hw => happly (hrec.trans ((State.takeRecord_of_refused hr).trans hw.symm)) hwt, fun hr y hy => ?_⟩
      have hy' := hrec.trans (State.takeRecord_of_applied hr hy)
      exact ⟨fun hlast hw => happly (hy'.trans ((if_pos hlast).trans hw.symm)) hwt,
        fun hmore hw => happly (hy'.trans ((if_neg hmore).trans hw.symm)) hwt⟩
  · have hchecked {u v : State} (hu : u = v) : (.next (s.checked (s.withShadow u h)) : Out) = .next (s.withShadow v h) := by
      rw [State.checked_unarmed ha, hu]
    refine ⟨fun hs y hy => ?_, fun hs y hy => ?_⟩
    · have hstep := doUndoStep_of_undoing hl ht hs hy
      exact ⟨fun hts => hchecked (hstep.trans (if_neg (by simpa using hts))),
        fun hts => hchecked (hstep.trans (if_pos (by simp [hts])))⟩
    · have hstep := doRetireWalk_of_retiring hl ht hs hy
      exact ⟨fun hts => hchecked (hstep.trans (if_neg (by simpa using hts))),
        fun hts => hchecked (hstep.trans (if_pos (by simp [hts])))⟩
  · exact ⟨fun he ht => congrArg Host.Outcome.next (doRetireStart_of_reached hl hs he hn ht),
      fun he => congrArg Host.Outcome.next (doRetireStart_of_not_reached he)⟩
  · exact ⟨fun hb walk => State.settle_exact_of_other he hb walk, fun hb =>
      ⟨fun hv => ⟨State.settle_exact_eq_none_of_gone (walk := false) he hb hv hw,
          State.settle_exact_eq_stable_of_stays (walk := true) he hb hv⟩,
        fun hv => ⟨State.settle_exact_eq_none_of_gone (walk := true) he hb hv hw,
          State.settle_exact_eq_stable_of_stays (walk := false) he hb hv⟩⟩⟩
end

section
open Sys2Proof Sys2Proof.Machine

namespace Sys2Proof.Machine

/-! ### Meters (R207–R210) -/

theorem satTo_le (n c : Nat) : satTo n c ≤ c := by
  unfold satTo
  split <;> omega

theorem le_satTo {m n c : Nat} (hn : m ≤ n) (hc : m ≤ c) : m ≤ satTo n c := by
  unfold satTo
  split <;> assumption

section
variable {m : Meter} {p b pre : Nat}

theorem Meter.refill_tc (m : Meter) (p now : Nat) :
    (m.refill p now).tc = satTo (m.tc + meterAdd (prCir p) ((now + 2 ^ 30 - m.last % 2 ^ 30) % 2 ^ 30)) (prCbs p) := by
  unfold Meter.refill
  dsimp only
  split <;> rfl

theorem Meter.refill_te_le (m : Meter) (p now : Nat) : (m.refill p now).te ≤ prEbs p := by
  unfold Meter.refill
  dsimp only
  split <;> exact satTo_le _ _

theorem Meter.refill_last (m : Meter) (p now : Nat) : (m.refill p now).last = now := by
  unfold Meter.refill
  dsimp only
  split <;> rfl

/-- The colour test of RFC 2697 on its three outcomes. -/
theorem Meter.test_of_mode_one (hp : prMode p = 1) :
    m.test p b pre =
      if pre = colGreen ∧ b ≤ m.tc then ({ m with tc := m.tc - b }, colGreen)
      else if pre ≠ colRed ∧ b ≤ m.te then ({ m with te := m.te - b }, colYellow)
      else (m, colRed) := by
  rw [Meter.test, hp]
  rfl

/-- The colour test of RFC 2698 on its three outcomes. -/
theorem Meter.test_of_mode_two (hp : prMode p = 2) :
    m.test p b pre =
      if pre = colRed ∨ m.te < b then (m, colRed)
      else if pre = colYellow ∨ m.tc < b then ({ m with te := m.te - b }, colYellow)
      else ({ m with tc := m.tc - b, te := m.te - b }, colGreen) := by
  rw [Meter.test, hp]
  rfl

/-- A frame that is yellow or does not fit the committed bucket is not green. -/
theorem not_green_of_yellow_or_short {tc : Nat} (h : pre = colYellow ∨ tc < b) : ¬ (pre = colGreen ∧ b ≤ tc) := by
  rintro ⟨rfl, hb⟩
  rcases h with h | h
  · cases h
  · exact h.not_ge hb

theorem Meter.test_mode_one (hp : prMode p = 1) :
    (pre = colGreen → b ≤ m.tc → m.test p b pre = ({ m with tc := m.tc - b }, colGreen)) ∧
    (pre ≠ colRed → (pre = colYellow ∨ m.tc < b) → b ≤ m.te → m.test p b pre = ({ m with te := m.te - b }, colYellow)) ∧
    ((pre = colRed ∨ ((pre = colYellow ∨ m.tc < b) ∧ m.te < b)) → m.test p b pre = (m, colRed)) := by
  rw [Meter.test_of_mode_one hp]
  refine ⟨fun hg hb => if_pos ⟨hg, hb⟩, fun hr hy hb => ?_, fun h => ?_⟩
  · rw [if_neg (not_green_of_yellow_or_short hy), if_pos ⟨hr, hb⟩]
  · rcases h with rfl | ⟨hy, hb⟩
    · rfl
    · rw [if_neg (not_green_of_yellow_or_short hy), if_neg fun hc => hb.not_ge hc.2]

theorem Meter.test_mode_two (hp : prMode p = 2) :
    ((pre = colRed ∨ m.te < b) → m.test p b pre = (m, colRed)) ∧
    (pre ≠ colRed → b ≤ m.te → (pre = colYellow ∨ m.tc < b) → m.test p b pre = ({ m with te := m.te - b }, colYellow)) ∧
    (pre = colGreen → b ≤ m.te → b ≤ m.tc → m.test p b pre = ({ m with tc := m.tc - b, te := m.te - b }, colGreen)) := by
  rw [Meter.test_of_mode_two hp]
  refine ⟨fun h => if_pos h, fun hr hb hy => ?_, fun hg hb hc => ?_⟩
  · rw [if_neg (not_or.mpr ⟨hr, hb.not_gt⟩), if_pos hy]
  · subst hg
    rw [if_neg (not_or.mpr ⟨by decide, hb.not_gt⟩), if_neg (not_or.mpr ⟨by decide, hc.not_gt⟩)]

end

section
variable {s : State} {h : Half} {i : Nat}

theorem State.meterOf_setMeter_same (m : Meter) (hw : Tbl.wf (s.tab.get h).meters = true) : (s.setMeter h i m).meterOf h i = m := by
  simp only [State.meterOf, State.setMeter, State.updTab_tab, pair_get_upd_same]
  exact tget_tset_same _ _ _ _ hw

theorem State.meterOf_setMeter_ne {j : Nat} (m : Meter) (hw : Tbl.wf (s.tab.get h).meters = true) (hj : j ≠ i) :
    (s.setMeter h i m).meterOf h j = s.meterOf h j := by
  simp only [State.meterOf, State.setMeter, State.updTab_tab, pair_get_upd_same]
  exact tget_tset_ne _ _ _ _ _ _ hw hj

theorem doMeterRefill_of_live (hl : s.live (.table h 4) = true) :
    doMeterRefill h i s = s.setMeter h (i % 262144)
      ((s.meterOf h (i % 262144)).refill (s.meterProfile h (s.meterOf h (i % 262144)) (s.dts h).toNat) (s.meterNow h)) :=
  if_pos hl

theorem doMeterRefill_of_not_live (hl : s.live (.table h 4) = false) : doMeterRefill h i s = s :=
  if_neg (by simp [hl])

/-! ### Counter pairs (R204–R206) -/

/-- A pair with a line, or one for which the cache has room, is counted in its line with no write-back. -/
theorem State.countPair_of_room (n : Nat) (hi : i < 16777216)
    (hc : (tget? (s.tab.get h).cache i).isSome = true ∨ (s.tab.get h).cache.length < cacheLines) :
    s.countPair h i n = s.updTab h fun t =>
      { t with cache := tput t.cache i ((tget (0, 0) t.cache i).1 + 1, (tget (0, 0) t.cache i).2 + n) } := by
  have hroom : ¬ ((tget? (s.tab.get h).cache i).isNone = true ∧ cacheLines ≤ (s.tab.get h).cache.length) := by
    rintro ⟨hnone, hfull⟩
    rcases hc with hc | hc
    · simp [Option.isNone_iff_eq_none.mp hnone] at hc
    · exact hc.not_ge hfull
  unfold State.countPair
  dsimp only
  rw [Nat.mod_eq_of_lt hi, if_neg hroom]

theorem doWriteback_of_written {s1 s2 : State} {d : Nat × Nat} {bs : List Byte} (hl : s.live (.table h 3) = true)
    (hd : tget? (s.tab.get h).cache i = some d) (hr : s.hbmRead h counterReq (s.pairAddr h i) 16 = (s1, bs, false))
    (hw : s1.hbmWrite h counterReq (s.pairAddr h i) (pairPlus bs d) = (s2, true)) :
    doWriteback h i s = s2.updTab h fun t => { t with cache := tdel t.cache i } := by
  rw [doWriteback, if_pos hl, State.writeBack, hd]
  dsimp only
  rw [hr]
  dsimp only
  rw [if_neg Bool.false_ne_true, hw]

/-- The snapshot of a coherent read that clears nothing. -/
theorem doReadDone_of_read {s1 : State} {bs now : List Byte} (hl : s.live (.table h 3) = true)
    (hr : (s.tab.get h).reading = some (i, false)) (hb : s.hbmRead h counterReq (s.pairAddr h i) 16 = (s1, bs, false))
    (hn : now = pairPlus bs (tget (0, 0) (s1.tab.get h).cache i)) :
    doReadDone h s = ((s1.setReg (bTable h 3) R.counter_READ_PKTS (BitVec.ofNat 64 (leNat (slice now 0 8)))).setReg
      (bTable h 3) R.counter_READ_BYTES (BitVec.ofNat 64 (leNat (slice now 8 8)))).updTab h fun t => { t with reading := none } := by
  subst hn
  rw [doReadDone, hr]
  dsimp only
  rw [if_pos hl, hb]
  rfl

/-! ### Aging (R228) -/

theorem doAgingVisit_flow (hl : s.live (.table h 5) = true) : doAgingVisit h true i s = s.ageFlow h i :=
  if_pos hl

theorem doAgingVisit_exact (hl : s.live (.table h 5) = true) : doAgingVisit h false i s = s.ageExact h i :=
  if_pos hl

section
variable {e : ExEntry} (he : tget? (s.tab.get h).exact i = some e)
include he

theorem State.ageExact_of_exempt (hx : e.ageProf = 0 ∨ e.vstate ≠ vsStable) : s.ageExact h i = s := by
  rw [State.ageExact, he]
  exact if_pos hx

variable (hp : e.ageProf ≠ 0) (hv : e.vstate = vsStable)
include hp hv

theorem State.ageExact_of_learned_old (hl : e.learned = true) (ha : s.ageThr h e.ageProf ≤ s.ageOf h e.age e.at0) :
    s.ageExact h i = ((s.dropEx h i).bump (bTable h 5) R.learn_AGED).learnNote h
      ⟨ntAged, e.tid, e.key, some (e.result.toNat % 256), none, some i⟩ := by
  rw [State.ageExact, he]
  dsimp only
  rw [if_neg (not_or.mpr ⟨hp, not_not.mpr hv⟩), if_pos hl, if_pos (decide_eq_true ha)]

theorem State.ageExact_of_learned_young (hl : e.learned = true) (ha : s.ageOf h e.age e.at0 < s.ageThr h e.ageProf) :
    s.ageExact h i = s.setEx h i { e with hit := false } := by
  rw [State.ageExact, he]
  dsimp only
  rw [if_neg (not_or.mpr ⟨hp, not_not.mpr hv⟩), if_pos hl, if_neg (by simpa using ha)]

theorem State.ageExact_of_configured_young (hl : e.learned = false) (ha : s.ageOf h e.age e.at0 < s.ageThr h e.ageProf) :
    s.ageExact h i = s.setEx h i { e with hit := false, noticed := e.noticed } := by
  have hyoung : decide (s.ageThr h e.ageProf ≤ s.ageOf h e.age e.at0) = false := decide_eq_false ha.not_ge
  rw [State.ageExact, he]
  dsimp only
  rw [if_neg (not_or.mpr ⟨hp, not_not.mpr hv⟩), if_neg (by simp [hl]), hyoung, Bool.or_false]
  rfl

end

/-! ### Learning (R225–R227) -/

section
variable {bs : List Byte} {port : Nat} {rest : List (List Byte × Nat)} {u : State} (hq : (s.tab.get h).examine = (bs, port) :: rest)
include hq

theorem doLearnExamine_of_held (hh : s.learnHeld h (s.learnTid h) (exKeyOf bs) = true) : doLearnExamine h s = s := by
  rw [doLearnExamine, hq]
  exact if_neg fun hc => hc.2 hh

variable (hl : s.live (.table h 5) = true) (hh : s.learnHeld h (s.learnTid h) (exKeyOf bs) = false)
  (hu : u = s.updTab h fun t => { t with examine := rest })
include hl hh hu

theorem doLearnExamine_of_same {j : Nat} {e : ExEntry} (hc : s.learnCheck h (s.learnTid h) (exKeyOf bs) port = .same j e) :
    doLearnExamine h s = u.learnRefresh h j e := by
  rw [doLearnExamine, hq]
  dsimp only
  rw [if_pos ⟨hl, by simp [hh]⟩, hc, hu]

theorem doLearnExamine_of_absent (hc : s.learnCheck h (s.learnTid h) (exKeyOf bs) port = .absent) :
    doLearnExamine h s = u.queueLearn h ⟨exKeyOf bs, s.learnTid h, port⟩ := by
  rw [doLearnExamine, hq]
  dsimp only
  rw [if_pos ⟨hl, by simp [hh]⟩, hc, hu]

theorem doLearnExamine_of_skip (hc : s.learnCheck h (s.learnTid h) (exKeyOf bs) port = .skip) :
    doLearnExamine h s = u.bump (bTable h 5) R.learn_LEARN_SKIP := by
  rw [doLearnExamine, hq]
  dsimp only
  rw [if_pos ⟨hl, by simp [hh]⟩, hc, hu]

end

/-- A learned entry as it is written for a key that is not in EXACT (R227). -/
def State.newLearned (v : State) (h : Half) (x : LearnWrite) : ExEntry :=
  { key := x.key, result := v.learnResult h x.port, tid := x.tid, ageProf := v.rfld (bTable h 5) R.learn_LEARN_CFG 20 4,
    age := v.ageNow h, vstate := vsStable, batch := 0, learned := true, hit := true, at0 := v.ticks, noticed := false }

section
variable {x : LearnWrite} {rest : List LearnWrite} {u v : State} (hq : (s.tab.get h).learnQueue = x :: rest)
  (hl : s.live (.table h 5) = true) (hh : s.learnHeld h x.tid x.key = false)
  (hu : u = s.updTab h fun t => { t with learnQueue := rest })
include hq hl hh hu

theorem doLearnWrite_of_same {j : Nat} {e : ExEntry} (hc : s.learnCheck h x.tid x.key x.port = .same j e) :
    doLearnWrite h s = u.learnRefresh h j e := by
  rw [doLearnWrite, hq]
  dsimp only
  rw [if_pos ⟨hl, by simp [hh]⟩, hc, hu]

theorem doLearnWrite_of_slot (hc : s.learnCheck h x.tid x.key x.port = .absent) (hs : u.exSlot h x.tid x.key = (v, some i)) :
    doLearnWrite h s = (((v.setEx h i (v.newLearned h x)).bump (bTable h 5) R.learn_LEARN_NEW).learnNote h
      ⟨ntNew, x.tid, x.key, none, some x.port, some i⟩).shareLearn h x := by
  subst hu
  rw [doLearnWrite, hq]
  dsimp only
  rw [if_pos ⟨hl, by simp [hh]⟩, hc]
  dsimp only
  rw [hs]
  rfl

theorem doLearnWrite_of_full (hc : s.learnCheck h x.tid x.key x.port = .absent) (hs : u.exSlot h x.tid x.key = (v, none)) :
    doLearnWrite h s = (v.bump (bTable h 5) R.learn_LEARN_FULL).learnNote h ⟨ntFull, x.tid, x.key, none, some x.port, none⟩ := by
  subst hu
  rw [doLearnWrite, hq]
  dsimp only
  rw [if_pos ⟨hl, by simp [hh]⟩, hc]
  dsimp only
  rw [hs]

end

/-! ### The stash (R195) -/

theorem pickFree_singleton (seed c d : Nat) : pickFree seed [c] d = c := by
  simp [pickFree, nth, Nat.mod_one]

section
variable {r : List Byte} (hr : tget? (s.tab.get h).stash i = some r) (hl : s.live (.table h 1) = true)
include hr hl

theorem doStashReturn_of_full (hf : s.flowFreeIn h (s.flowBuckets h (frKey r)) = []) : doStashReturn h i s = s := by
  rw [doStashReturn, hr]
  dsimp only
  rw [if_pos hl, hf]

theorem doStashReturn_of_one_free {c : Nat} (hf : s.flowFreeIn h (s.flowBuckets h (frKey r)) = [c]) :
    doStashReturn h i s = (s.used.flowPut h c r).updTab h fun t => { t with
      stash := tdel t.stash i
      flowAt := tput (tdel t.flowAt (stashSlot i)) c (tget 0 (s.tab.get h).flowAt (stashSlot i)) } := by
  rw [doStashReturn, hr]
  dsimp only
  rw [if_pos hl, hf]
  dsimp only
  rw [pickFree_singleton]

end

/-- What a command does of which no request has to wait. -/
theorem next_orWait {f : State → State} {u : State} (ha : s.armed = []) (hf : f s = u) (hw : u.waits = s.waits) :
    (.next (s.orWait f) : Out) = .next u := by
  subst hf
  rw [State.orWait_done ha hw]

end

end Sys2Proof.Machine

/-- Settles O47: every command is one of the lemmas about its function, and what the meters and pairs hold afterwards follows from the laws of
their tables. -/
theorem metersCountersAndLearning : Obligations.MetersCountersAndLearning := by
  refine ⟨⟨fun m p now => ⟨?_, Meter.refill_te_le m p now, Meter.refill_last m p now, fun htc => ?_⟩,
      fun m p b pre hp => Meter.test_mode_one hp, fun m p b pre hp => Meter.test_mode_two hp,
      fun s h i hw => ⟨fun hl => ?_, fun hl => congrArg Host.Outcome.next (doMeterRefill_of_not_live hl)⟩,
      fun s h i n hw hi hc => ?_,
      fun s s1 s2 h i d bs hl hd hr hw ha hwt => next_orWait ha (doWriteback_of_written hl hd hr hw) hwt,
      fun s s1 h i bs hl hr hb ha hwt now hn => next_orWait ha (doReadDone_of_read hl hr hb hn) hwt⟩,
    fun s h i e hl he ha => ?_, fun s h port bs rest hl hq hh u hu => ?_,
    fun s h => ⟨fun bs port rest hq hh => congrArg Host.Outcome.next (doLearnExamine_of_held hq hh), fun u hu ha => ?_⟩,
    fun s h x rest hl hq hh ha u hu => ?_, fun s h n r hl hr ha => ?_, fun s u h i hl ha hu => ?_⟩
  · rw [Meter.refill_tc]
    exact satTo_le _ _
  · rw [Meter.refill_tc]
    exact le_satTo (Nat.le_add_right _ _) htc
  · refine ⟨_, congrArg Host.Outcome.next (doMeterRefill_of_live hl), State.meterOf_setMeter_same _ hw,
      fun j hj => State.meterOf_setMeter_ne _ hw hj, rfl⟩
  · rw [State.countPair_of_room n hi hc, State.updTab_tab, pair_get_upd_same]
    exact ⟨tget?_tput_same _ _ _, fun j hj => tget?_tput_ne _ _ _ _ hj⟩
  · have hage {u : State} (hu : s.ageExact h i = u) (hw : u.waits = s.waits) : exec (.agingVisit h false i) s = .next u :=
      next_orWait ha ((doAgingVisit_exact hl).trans hu) hw
    refine ⟨fun hx => hage (State.ageExact_of_exempt he hx) rfl, fun hp hv hlr => ⟨fun hold u hu hw => ?_, fun hyoung => ?_⟩,
      fun hp hv hlr hyoung => ?_⟩
    · exact hage ((State.ageExact_of_learned_old he hp hv hlr hold).trans hu.symm) hw
    · exact hage (State.ageExact_of_learned_young he hp hv hlr hyoung) rfl
    · exact hage (State.ageExact_of_configured_young he hp hv hlr hyoung) rfl
  · exact ⟨fun j e hc => congrArg Host.Outcome.next (doLearnExamine_of_same hq hl hh hu hc),
      fun hc => congrArg Host.Outcome.next (doLearnExamine_of_absent hq hl hh hu hc),
      fun hc => congrArg Host.Outcome.next (doLearnExamine_of_skip hq hl hh hu hc)⟩
  · subst hu
    exact congrArg Host.Outcome.next (State.checked_unarmed ha _)
  · have hwrite {w : State} (hw : doLearnWrite h s = w) : exec (.learnWrite h) s = .next (s.withShadow w h) := by
      subst hw
      exact congrArg Host.Outcome.next (State.checked_unarmed ha _)
    exact ⟨fun j e hc => hwrite (doLearnWrite_of_same hq hl hh hu hc), fun v i hc hs => hwrite (doLearnWrite_of_slot hq hl hh hu hc hs),
      fun v hc hs => hwrite (doLearnWrite_of_full hq hl hh hu hc hs)⟩
  · exact ⟨fun hf => next_orWait ha (doStashReturn_of_full hr hl hf) rfl,
      fun i hf hw => next_orWait ha (doStashReturn_of_one_free hr hl hf) hw⟩
  · have hflow : doAgingVisit h true i s = u := (doAgingVisit_flow hl).trans hu.symm
    refine ⟨fun hw => next_orWait ha hflow hw, fun hw => ?_⟩
    subst hflow
    exact congrArg Host.Outcome.next (State.orWait_waits hw)
end

section
open Sys2Proof Sys2Proof.Machine

namespace Sys2Proof.Machine

/-! ### A trap makes no request of HBM -/

section
variable {α : Type}

theorem foldl_waits {f : State → α → State} (hf : ∀ s a, (f s a).waits = s.waits) (l : List α) (s : State) :
    (l.foldl f s).waits = s.waits := by
  induction l generalizing s with
  | nil => rfl
  | cons a r ih => exact (ih (f s a)).trans (hf s a)

theorem ite_waits {c : Prop} [Decidable c] {s t u : State} (ht : t.waits = s.waits) (hu : u.waits = s.waits) :
    (if c then t else u).waits = s.waits := by
  split <;> assumption

end

section
variable (s : State) (h : Half) (t : TileIx) (k : Nat)

@[simp] theorem State.raiseInt_waits (th : ThreadRef) (n : Nat) : (s.raiseInt th n).waits = s.waits := s.updThread_waits _ _

@[simp] theorem State.notifyHub_waits : (s.notifyHub h).waits = s.waits := ite_waits (s.raiseInt_waits _ _) rfl

@[simp] theorem State.notify_waits (u : UnitId) (code : Nat) (c : FClass) : (s.notify u code c).waits = s.waits := by
  unfold State.notify
  refine ite_waits rfl ?_
  split
  · exact s.notifyHub_waits _
  · exact ite_waits (s.notifyHub_waits 0) (s.notifyHub_waits 1)

@[simp] theorem State.hubRecord_waits (f : Found) (c : FClass) : (s.hubRecord h f c).waits = s.waits := by
  unfold State.hubRecord
  extract_lets x k merge r full det dfull s1 s2 s3
  have h2 : s2.waits = s.waits := ite_waits rfl rfl
  have h3 : s3.waits = s.waits := ite_waits h2 h2
  exact ite_waits h3 h3

@[simp] theorem State.countFault_waits (u : UnitId) : (s.countFault u).waits = s.waits :=
  foldl_waits (fun s v => s.updUnit_waits v _) _ _

@[simp] theorem State.openRecord_waits (f : Found) : (s.openRecord f).waits = s.waits := by
  have hrec (c : FClass) : ((hubsOf f.unit).foldl (fun s h => s.hubRecord h f c) s).waits = s.waits :=
    foldl_waits (fun s h => s.hubRecord_waits h f c) _ _
  unfold State.openRecord
  split
  · rfl
  · exact (State.notify_waits _ _ _ _).trans (ite_waits (hrec _) ((State.countFault_waits _ _).trans (hrec _)))

theorem State.found_waits (u : UnitId) (code : Nat) (d : DWord) : (s.found u code d).1.waits = s.waits := by
  unfold State.found
  split <;> rfl

@[simp] theorem State.report_waits (u : UnitId) (code d : Nat) : (s.report u code d).waits = s.waits :=
  (State.openRecord_waits _ _).trans (s.found_waits u code _)

@[simp] theorem State.settlePrio_waits (p : LockParty) : (s.settlePrio p).waits = s.waits := by
  cases p <;> simp [State.settlePrio]

@[simp] theorem State.answerLock_waits (p : LockParty) (st : Nat) : (s.answerLock p st).waits = s.waits := by
  unfold State.answerLock
  split
  · rfl
  · exact s.updThread_waits _ _

@[simp] theorem State.passOn_waits (num st : Nat) : (s.passOn h num st).waits = s.waits := by
  unfold State.passOn
  dsimp only
  split
  · rfl
  · exact State.answerLock_waits _ _ _

@[simp] theorem State.withdrawWaiter_waits (p : LockParty) : (s.withdrawWaiter p).waits = s.waits := by
  unfold State.withdrawWaiter
  split
  · rfl
  · dsimp only
    split
    · rfl
    · exact State.settlePrio_waits _ _

@[simp] theorem State.abandonLocks_waits (p : LockParty) : (s.abandonLocks p).waits = s.waits :=
  (foldl_waits (fun s e => by simp) _ _).trans (s.withdrawWaiter_waits p)

@[simp] theorem State.releaseInst_waits (key : Nat) : (s.releaseInst h t key).waits = s.waits :=
  foldl_waits (fun s _ => s.updThread_waits _ _) _ _

@[simp] theorem State.endInsts_waits : (s.endInsts h t k).waits = s.waits :=
  foldl_waits (fun s _ => ite_waits (by simp) ((State.releaseInst_waits _ h t _).trans (s.bump_waits _ _))) _ _

@[simp] theorem State.release_waits (id : Nat) : (s.release h id).waits = s.waits := by
  unfold State.release
  split
  · simp
  · exact ite_waits (s.report_waits _ _ _) (ite_waits rfl rfl)

@[simp] theorem State.cancelScan_waits : (s.cancelScan h t k).waits = s.waits := ite_waits rfl rfl

@[simp] theorem State.settleSlot_waits : (s.settleSlot h t k).waits = s.waits := ite_waits rfl rfl

@[simp] theorem State.endHold_waits : (s.endHold h t k).waits = s.waits := by
  unfold State.endHold
  extract_lets x staged s1 s2 s3 s4 s5
  have h1 : s1.waits = s.waits := ite_waits rfl rfl
  have h2 : s2.waits = s.waits := (State.abandonLocks_waits _ _).trans h1
  have h3 : s3.waits = s.waits := by
    dsimp only [s3]
    split
    · exact (State.updThread_waits _ _ _).trans h2
    · exact h2
  have h5 : s5.waits = s.waits := h3
  simpa using h5

@[simp] theorem State.endChain_waits : (s.endChain h t k).waits = s.waits := by
  unfold State.endChain
  split
  · exact s.release_waits _ _
  · rfl

@[simp] theorem State.cross_waits (id : Nat) (list : Option Nat) (port queue : Nat) : (s.cross h id list port queue).waits = s.waits :=
  ite_waits rfl (State.release_waits _ _ _)

@[simp] theorem State.forward_waits : (s.forward h t k).waits = s.waits := by
  unfold State.forward
  dsimp only
  split
  · exact ite_waits rfl (ite_waits rfl (State.cross_waits _ _ _ _ _ _))
  · rfl

@[simp] theorem State.releaseFree_waits : (s.releaseFree h t k).waits = s.waits :=
  (State.settleSlot_waits _ _ _ _).trans (s.forward_waits h t k)

@[simp] theorem State.releaseOrdered_waits (late : Bool) : (s.releaseOrdered h t k late).waits = s.waits := by
  unfold State.releaseOrdered
  dsimp only
  refine (State.releaseFree_waits _ _ _ _).trans ?_
  split <;> rfl

@[simp] theorem State.endService_waits : (s.endService h t k).waits = s.waits :=
  (State.settleSlot_waits _ _ _ _).trans (s.endHold_waits h t k)

@[simp] theorem State.countDiscard_waits (reason : Nat) : (s.countDiscard h t k reason).waits = s.waits := by
  unfold State.countDiscard
  dsimp only
  rw [State.setReg_waits]
  exact ite_waits (by simp) (by simp)

@[simp] theorem State.discardTask_waits (reason : Nat) : (s.discardTask h t k reason).waits = s.waits := by
  have hend : (((s.countDiscard h t k reason).endHold h t k).endChain h t k).waits = s.waits := by simp
  refine ite_waits rfl (ite_waits (by simp) (ite_waits (ite_waits hend ?_) ?_))
  · exact (State.releaseOrdered_waits _ _ _ _ _).trans hend
  · exact (State.settleSlot_waits _ _ _ _).trans hend

@[simp] theorem State.trapDiscard_waits (th : ThreadRef) (cause pc reason : Nat) : (s.trapDiscard th cause pc reason).waits = s.waits := by
  unfold State.trapDiscard
  split
  · simp
  · rfl

@[simp] theorem State.kernelEntry_waits (th : ThreadRef) (cause ret : Nat) (info : DWord) :
    (s.kernelEntry th cause ret info).waits = s.waits := s.updThread_waits _ _

@[simp] theorem State.squashOne_waits (n : Fin 128) (w : Nat) (go : Bool) : (s.squashOne h t n w go).waits = s.waits := by
  unfold State.squashOne
  dsimp only
  split <;> rfl

theorem State.squashPath_waits (th : Fin 128) (n a c last conds fuel : Nat) :
    (s.squashPath h t th n a c last conds fuel).waits = s.waits := by
  induction fuel generalizing s n a c conds with
  | zero => rfl
  | succ fuel ih =>
    unfold State.squashPath
    refine ite_waits rfl ?_
    dsimp only
    split
    · exact s.squashOne_waits _ _ _ _ _
    · exact (ih _ _ _ _ _).trans (s.squashOne_waits _ _ _ _ _)

@[simp] theorem State.squashBehind_waits (th : ThreadRef) (a : Nat) : (s.squashBehind th a).waits = s.waits := by
  cases th with
  | pk h t k => exact s.squashPath_waits _ _ _ _ _ _ _ _ _
  | cc h n => rfl

/-- A trap makes no request that could have to wait. -/
@[simp] theorem State.takeTrap_waits (th : ThreadRef) (cause : Nat) (tval : DWord) (tpc at0 : Nat) :
    (s.takeTrap th cause tval tpc at0).waits = s.waits := by
  cases th with
  | cc h n => exact s.kernelEntry_waits _ _ _ _
  | pk h t n =>
    have hsquash : (if cause = cPcRange then s else s.squashBehind (.pk h t n) at0).waits = s.waits :=
      ite_waits rfl (s.squashBehind_waits _ _)
    refine ite_waits ((State.trapDiscard_waits _ _ _ _ _).trans hsquash) ?_
    split
    · exact (State.trapDiscard_waits _ _ _ _ _).trans hsquash
    · exact (State.bumpCore_waits _ _ _).trans ((State.updThread_waits _ _ _).trans hsquash)

end

/-! ### An instruction that issues -/

section
variable {s s1 s3 : State} {op : FkOp} {th : ThreadRef} {w : Nat} {body : State → Fk → FkRes}

theorem fkStep_next (h : Issues s op th s1 w) (hb : body (s1.atIssue th) (callOf s s1 th w) = .next s3)
    (hr : pcInRange th (callOf s s1 th w).nextPc = true) : s.fkStep op th body = s3.fallThrough (callOf s s1 th w) := by
  obtain ⟨hcan, hfetch, hop, -, -⟩ := h
  have hissued : (body (s1.atIssue th) (callOf s s1 th w)).issued = true := by rw [hb]; rfl
  have hfin : (s1.atIssue th).fkFinish (callOf s s1 th w) (body (s1.atIssue th) (callOf s s1 th w)) =
      s3.fallThrough (callOf s s1 th w) := by
    rw [hb]
    exact if_pos hr
  unfold State.fkStep
  simp only [hcan, if_true, hfetch, hop]
  exact (if_pos hissued).trans hfin

/-- An instruction of which an access has to wait leaves the state as it is. -/
theorem fkRun_next_waits (h : Issues s op th s1 w) (hb : body (s1.atIssue th) (callOf s s1 th w) = .next s3)
    (hr : pcInRange th (callOf s s1 th w).nextPc = true) (hw : s3.waits ≠ s.waits) : s.fkRun op th body = s :=
  State.orWait_waits (by rw [fkStep_next h hb hr, State.fallThrough_waits]; exact hw)

/-- An instruction that traps before it has an effect. -/
theorem fkRun_fail_trap {c v : Nat} (h : Issues s op th s1 w)
    (hb : body (s1.atIssue th) (callOf s s1 th w) = .fail (s1.atIssue th) (.trap c v)) :
    s.fkRun op th body =
      (s1.atIssue th).takeTrap th c (BitVec.ofNat 64 v) (callOf s s1 th w).pc (callOf s s1 th w).pc :=
  have ⟨_, _, _, hwaits, _⟩ := h
  fkRun_trap h hb (by simpa using hwaits)

end

/-! ### Table requests (R186–R189, R250, R334, R335) -/

section
variable {h : Half} {t : TileIx} {n : Fin 128}

/-- The operand of a request: nothing for a value operand, else the bytes of an aligned block. -/
def State.OperandIs (u : State) (h : Half) (t : TileIx) (n : Fin 128) (addr len align : Nat) (bs : List Byte) : Prop :=
  (len = 0 → bs = []) ∧ (len ≠ 0 → addr % align = 0 ∧ u.pkSpan h t n addr len = .ok bs)

theorem State.spcAt_isSome_of_pkSpan {u : State} {addr len : Nat} {bs : List Byte} (hs : u.pkSpan h t n addr len = .ok bs) :
    (spcAt (u.spaces h t n.val (u.slotOfThread h t n)) addr len).isNone = false := by
  unfold State.pkSpan at hs
  dsimp only at hs
  split at hs
  · cases hs
  next p hp => rw [hp]; rfl

/-- The response of request `fn` at place `l`, which waits for the entries examined that are held back. -/
def State.responseOf (u : State) (h : Half) (fn : Nat) (l : Loc) (r : TblRes) : Response :=
  { Response.of .table fn l r.bytes with hold := r.hold.filter fun x => (u.tab.get h).held x.1 x.2 }

@[simp] theorem State.issueReq_waits (s : State) (c : Fk) (r : Response) : (s.issueReq h t n c r).waits = s.waits := rfl

/-- What a table request of a packet thread is: an instruction whose body traps on an unaligned response place, and else waits or acts. -/
theorem tblCall_eq_fkRun (op : FkOp) (fn : Nat) (len : Fk → Nat) (align out : Nat) (f : State → TblCall → TblRes) :
    ∃ body : State → Fk → FkRes, (∀ s, tblCall (.pk h t n) op fn len align out s f = s.fkRun op (.pk h t n) body) ∧
      (∀ (u : State) (c : Fk), c.th = .pk h t n → c.g (wB c.w) % 16 ≠ 0 → body u c = .fail u (.trap cAlign (c.g (wB c.w)))) ∧
      (∀ (u : State) (c : Fk) (l : Loc) (bs : List Byte), c.th = .pk h t n → c.g (wB c.w) % 16 = 0 →
        u.pkPlace h t n (c.g (wB c.w)) out = .ok l → u.OperandIs h t n (c.g (wA c.w)) (len c) align bs → ∀ k r, k = u.slotOfThread h t n →
        r = f u ⟨h, t, k, (u.task h t k).stamp.toNat, c, bs⟩ →
        body u c = if u.dcFull h t k (wDc c.w) = true ∨ (!u.live (tblUnit h fn)) = true then .fail u .stall
          else .next (r.s.issueReq h t n c (u.responseOf h fn l r))) := by
  refine ⟨_, fun s => rfl, fun u c hth hal => ?_, fun u c l bs hth hal hl hbs k r hk hr => ?_⟩
  · dsimp only
    rw [hth]
    exact if_pos hal
  · subst hk hr
    dsimp only
    rw [hth]
    dsimp only
    rw [if_neg (not_not.mpr hal), hl]
    dsimp only
    by_cases hz : len c = 0
    · rw [if_neg fun hc => hc.1 hz, if_neg fun hc => hc.1 hz, if_pos hz, hbs.1 hz]
      rfl
    · obtain ⟨hq, hspan⟩ := hbs.2 hz
      rw [if_neg fun hc => by simp [State.spcAt_isSome_of_pkSpan hspan] at hc, if_neg fun hc => hc.2 hq, if_neg hz, hspan]
      rfl

variable {s s1 u : State} {op : FkOp} {w fn align out : Nat} {len : Fk → Nat} {f : State → TblCall → TblRes} {i : Instr} {c : Fk}

/-- How a table request comes out that issues: it acts, waits for its counter, its unit or HBM, or traps. -/
theorem tblCall_outcomes (hx : exec i s = .next (tblCall (.pk h t n) op fn len align out s f)) (hi : Issues s op (.pk h t n) s1 w)
    (hc : c = callOf s s1 (.pk h t n) w) (hu : u = s1.atIssue (.pk h t n)) {k : Nat} (hk : k = u.slotOfThread h t n)
    {l : Loc} {bs : List Byte} {r : TblRes} :
    (c.g (wB w) % 16 = 0 → u.pkPlace h t n (c.g (wB w)) out = .ok l → (len c = 0 → bs = []) →
      (len c ≠ 0 → c.g (wA w) % align = 0 ∧ u.pkSpan h t n (c.g (wA w)) (len c) = .ok bs) →
      (u.dcFull h t k (wDc w) = false → u.live (tblUnit h fn) = true → pcInRange (.pk h t n) c.nextPc = true →
        r = f u ⟨h, t, k, (u.task h t k).stamp.toNat, c, bs⟩ →
        (r.s.waits = s.waits → exec i s = .next ((r.s.issueReq h t n c (u.responseOf h fn l r)).fallThrough c)) ∧
        (r.s.waits ≠ s.waits → exec i s = .next s)) ∧
      (u.dcFull h t k (wDc w) = true ∨ u.live (tblUnit h fn) = false → exec i s = .next s1)) ∧
    (c.g (wB w) % 16 ≠ 0 →
      exec i s = .next (u.takeTrap (.pk h t n) cAlign (BitVec.ofNat 64 (c.g (wB w))) c.pc c.pc)) := by
  obtain ⟨body, hrun, htrap, hact⟩ := tblCall_eq_fkRun (h := h) (t := t) (n := n) op fn len align out f
  subst hc hu
  rw [hx, hrun]
  refine ⟨fun hal hl hempty hblock => ⟨fun hd hv hr hres => ?_, fun hstall => ?_⟩, fun hal => ?_⟩
  · have hb := (hact _ _ l bs rfl hal hl ⟨hempty, hblock⟩ k r hk hres).trans (if_neg (by simp [callOf, hd, hv]))
    exact ⟨fun hw => congrArg Host.Outcome.next (fkRun_next hi hb hr hw), fun hw => congrArg Host.Outcome.next (fkRun_next_waits hi hb hr hw)⟩
  · have hb := (hact _ _ l bs rfl hal hl ⟨hempty, hblock⟩ k _ hk rfl).trans (if_pos (by simpa [callOf] using hstall))
    exact congrArg Host.Outcome.next (fkRun_stall hi hb)
  · exact congrArg Host.Outcome.next (fkRun_fail_trap hi (htrap _ _ rfl hal))

/-- COUNT counts its pair, and waits to issue while the COUNTER unit does not work. -/
theorem execCount_outcomes (hi : Issues s .count (.pk h t n) s1 w) (hc : c = callOf s s1 (.pk h t n) w) (hu : u = s1.atIssue (.pk h t n)) :
    (u.live (.table h 3) = true → pcInRange (.pk h t n) c.nextPc = true → (u.countPair h (c.g (wA w)) (c.g (wC w))).waits = s.waits →
      exec (.count (.pk h t n)) s = .next ((u.countPair h (c.g (wA w)) (c.g (wC w))).fallThrough c)) ∧
    (u.live (.table h 3) = false → exec (.count (.pk h t n)) s = .next s1) := by
  subst hc hu
  exact ⟨fun hl hr hw => congrArg Host.Outcome.next (fkRun_next hi (if_pos hl) hr hw),
    fun hl => congrArg Host.Outcome.next (fkRun_stall hi (if_neg (by simp [hl])))⟩

/-! ### Responses (R156, R186, R233) -/

variable {id : Nat} {r : Response}

theorem doTableResponse_of_answer (hr : (s.tile h t).response? id = some r) (hu : r.unit = .table) (hl : s.live (tblUnit h r.fn) = true)
    (hh : ∀ x ∈ r.hold, (s.tab.get h).held x.1 x.2 = false) :
    doTableResponse h t id s = (if 9 ≤ r.fn then s.countAssoc h r.bytes else s).respond h t r := by
  have hnone : (r.hold.any fun e => (s.tab.get h).held e.1 e.2) = false :=
    List.any_eq_false.mpr fun x hx => Bool.eq_false_iff.mp (hh x hx)
  unfold doTableResponse
  rw [hr]
  exact if_pos ⟨hu, hnone, hl⟩

theorem doTableResponse_of_held (hr : (s.tile h t).response? id = some r) {x : Nat × Nat} (hx : x ∈ r.hold)
    (hh : (s.tab.get h).held x.1 x.2 = true) : doTableResponse h t id s = s := by
  have hany : (r.hold.any fun e => (s.tab.get h).held e.1 e.2) = true := List.any_eq_true.mpr ⟨x, hx, hh⟩
  unfold doTableResponse
  rw [hr]
  exact if_neg fun hc => by simp [hany] at hc

end

end Sys2Proof.Machine

/-- Settles O45: every request is a call of `tblCall`, whose outcomes `tblCall_outcomes` gives; COUNT and the responses have lemmas of their own. -/
theorem tableRequestsIssue : Obligations.TableRequestsIssue := by
  refine ⟨fun s s1 u h t n w k c l bs r hc hu hk e he hi => ?_, fun s s1 u h t n w c hc hu hi => execCount_outcomes hi hc hu,
    fun s h t id r hr hunit hl ha => ⟨fun hh => ?_, fun x hx hh => ?_⟩⟩
  · subst hc
    simp only [List.mem_cons, List.not_mem_nil, or_false] at he
    rcases he with rfl | rfl | rfl | rfl | rfl | rfl | rfl | rfl | rfl | rfl
    -- The operand of LPM is as long as an address of its family (R201).
    case inr.inr.inl =>
      exact tblCall_outcomes (len := fun c => if (c.g (wC c.w)).testBit 16 then 16 else 4) rfl hi rfl hu hk
    all_goals exact tblCall_outcomes (len := fun _ => _) rfl hi rfl hu hk
  · exact congrArg Host.Outcome.next ((State.checked_unarmed ha _).trans (doTableResponse_of_answer hr hunit hl hh))
  · exact congrArg Host.Outcome.next ((State.checked_unarmed ha _).trans (doTableResponse_of_held hr hx hh))
end

section
open Sys2Proof Sys2Proof.Machine

/-! ## The tables of threads, tasks, channels, chains, locks, batches, meters, issue slots and calibration values stay canonical

`State.Tabs` says of each of these tables that it lists every key once and in order. Most operations leave the tables as they are, and the
proof of a composition reads as its definition does, as for `State.Regs`: `hs.foo` says that `s.foo` keeps what `hs` says of `s`. What an
operation does to a table stands as the side condition of the one lemma for that part of the state (`updTile`, `updThread`, `updTask`,
`updCc`, `updIng`, `updBuf`, `updTab`, `updPv`, and `withTiles` to `withPv` where a part is replaced whole): `keeps`, or `rfl` for Privet's
part, says that the tables inside the part do not change. -/

namespace Sys2Proof

/-! ### Both halves -/

/-- The condition of an operation that leaves what `P` speaks of as it is. -/
theorem keeps {α : Type} {P : α → Prop} (x : α) (hx : P x) : P x := hx

/-- A property of both halves. -/
def Pair.All {α : Type} (P : α → Prop) (p : Pair α) : Prop := P p.h0 ∧ P p.h1

theorem Pair.All.get {α : Type} {P : α → Prop} {p : Pair α} (hp : p.All P) (h : Half) : P (p.get h) := by
  unfold Pair.get
  split
  · exact hp.1
  · exact hp.2

theorem Pair.All.upd {α : Type} {P : α → Prop} {p : Pair α} (hp : p.All P) {h : Half} {f : α → α} (hf : ∀ x, P x → P (f x)) :
    (p.upd h f).All P := by
  unfold Pair.upd
  split
  · exact ⟨hf _ hp.1, hp.2⟩
  · exact ⟨hp.1, hf _ hp.2⟩

theorem Pair.All.both {α : Type} {P : α → Prop} {p : Pair α} (hp : p.All P) {f : Half → α → α}
    (hf : ∀ h x, P x → P (f h x)) : (p.both f).All P := ⟨hf 0 _ hp.1, hf 1 _ hp.2⟩

end Sys2Proof

namespace Sys2Proof.Machine

/-! ### Tables inside the parts of the state -/

/-- The tables of the pauses and triggers of a half's ports are in canonical form. -/
def IngressState.pfcWf (x : IngressState) : Prop := Tbl.wf x.pfcXoff = true ∧ Tbl.wf x.pfcXon = true

/-- The registers kept with a parked task are in canonical form. -/
def Task.savedWf (x : Task) : Prop := x.saved.all Thread.wf = true

theorem Thread.wf_iff {x : Thread} :
    x.wf = true ↔ Tbl.wf x.g = true ∧ Tbl.wf x.a = true ∧ Tbl.wf x.k = true ∧ Tbl.wf x.staging = true := by
  simp [Thread.wf, and_assoc]

theorem Tile.wf_iff {x : Tile} :
    x.wf = true ↔ Tbl.wf x.threads = true ∧ Tbl.wf x.tasks = true ∧ Tbl.wf x.chans = true ∧
      (∀ e ∈ x.threads, e.2.wf = true) ∧ ∀ e ∈ x.tasks, e.2.savedWf := by
  simp [Tile.wf, Task.savedWf, and_assoc]

theorem CcState.wf_iff {x : CcState} :
    x.wf = true ↔ Tbl.wf x.threads = true ∧ Tbl.wf x.chans = true ∧ ∀ e ∈ x.threads, e.2.wf = true := by
  simp [CcState.wf, and_assoc]

theorem TableState.wf_iff {x : TableState} :
    x.wf = true ↔ Tbl.wf x.slots = true ∧ Tbl.wf x.meters = true ∧ Tbl.wf x.cache = true := by
  simp [TableState.wf, and_assoc]

theorem tilesWf_iff {t : Tbl Tile} : tilesWf t = true ↔ Tbl.wf t = true ∧ ∀ e ∈ t, e.2.wf = true := by
  simp [tilesWf]

/-! ### Entries of a table -/

section
variable {α : Type} {P : α → Prop} {t : Tbl α}

theorem mem_of_tget?_eq_some {k : Nat} {v : α} (hk : tget? t k = some v) : (k, v) ∈ t := by
  induction t with
  | nil => cases hk
  | cons e r ih =>
    obtain ⟨j, w⟩ := e
    simp only [tget?] at hk
    split at hk
    · cases hk
    · split at hk
      · next hj => cases hk; exact hj ▸ List.mem_cons_self
      · exact List.mem_cons_of_mem _ (ih hk)

/-- What holds of every entry and of the default holds of what is read. -/
theorem tget_of_all {d : α} (hd : P d) (ht : ∀ e ∈ t, P e.2) (k : Nat) : P (tget d t k) := by
  unfold tget
  split
  · next v hk => exact ht _ (mem_of_tget?_eq_some hk)
  · exact hd

theorem tset_all [DecidableEq α] {d v : α} {k : Nat} (ht : ∀ e ∈ t, P e.2) (hv : P v) : ∀ e ∈ tset d t k v, P e.2 := by
  unfold tset
  split
  · exact fun e he => ht e (mem_tdel t k e he)
  · intro e he
    rcases mem_tput t k v e he with rfl | he
    · exact hv
    · exact ht e he

theorem tmod_all [DecidableEq α] {d : α} {k : Nat} {f : α → α} (hd : P d) (ht : ∀ e ∈ t, P e.2) (hf : ∀ x, P x → P (f x)) :
    ∀ e ∈ tmod d t k f, P e.2 := tset_all ht (hf _ (tget_of_all hd ht k))

theorem Tbl.above_map {β : Type} {g : Nat × α → β} {k : Nat} (ht : Tbl.above t k) : Tbl.above (t.map fun e => (e.1, g e)) k := by
  intro f hf
  obtain ⟨e, he, rfl⟩ := List.mem_map.mp hf
  exact ht e he

/-- A change of the entries alone keeps the keys. -/
theorem Tbl.wf_map {β : Type} {g : Nat × α → β} (ht : Tbl.wf t = true) : Tbl.wf (t.map fun e => (e.1, g e)) = true := by
  induction t with
  | nil => rfl
  | cons e r ih =>
    obtain ⟨ha, hr⟩ := (tbl_wf_cons e r).mp ht
    exact (tbl_wf_cons _ _).mpr ⟨Tbl.above_map ha, ih hr⟩

theorem Tbl.wf_filter {p : Nat × α → Bool} (ht : Tbl.wf t = true) : Tbl.wf (t.filter p) = true := by
  induction t with
  | nil => rfl
  | cons e r ih =>
    obtain ⟨ha, hr⟩ := (tbl_wf_cons e r).mp ht
    rw [List.filter_cons]
    split
    · exact (tbl_wf_cons _ _).mpr ⟨fun f hf => ha f (List.mem_of_mem_filter hf), ih hr⟩
    · exact ih hr

theorem map_all {g : Nat × α → α} (ht : ∀ e ∈ t, P e.2) (hg : ∀ e, P e.2 → P (g e)) :
    ∀ f ∈ t.map fun e => (e.1, g e), P f.2 := by
  intro f hf
  obtain ⟨e, he, rfl⟩ := List.mem_map.mp hf
  exact hg e (ht e he)

end

/-! ### Changes of the parts that keep their tables -/

theorem Thread.wf_withG {x : Thread} {l : Tbl DWord} (hx : x.wf = true) (hl : Tbl.wf x.g = true → Tbl.wf l = true) :
    Thread.wf { x with g := l } = true := by
  obtain ⟨hg, ha, hk, hst⟩ := Thread.wf_iff.mp hx
  exact Thread.wf_iff.mpr ⟨hl hg, ha, hk, hst⟩

theorem Thread.wf_withA {x : Thread} {l : Tbl (BitVec 40)} (hx : x.wf = true) (hl : Tbl.wf x.a = true → Tbl.wf l = true) :
    Thread.wf { x with a := l } = true := by
  obtain ⟨hg, ha, hk, hst⟩ := Thread.wf_iff.mp hx
  exact Thread.wf_iff.mpr ⟨hg, hl ha, hk, hst⟩

theorem Thread.wf_withStaging {x : Thread} {l : Tbl Word} (hx : x.wf = true) (hl : Tbl.wf x.staging = true → Tbl.wf l = true) :
    Thread.wf { x with staging := l } = true := by
  obtain ⟨hg, ha, hk, hst⟩ := Thread.wf_iff.mp hx
  exact Thread.wf_iff.mpr ⟨hg, ha, hk, hl hst⟩

theorem Thread.wf_withPc {x : Thread} {pc : BitVec 48} (hx : x.wf = true) : Thread.wf { x with pc := pc } = true := hx

theorem Thread.wf_setG {x : Thread} {r : Nat} {v : DWord} (hx : x.wf = true) : (x.setG r v).wf = true := by
  unfold Thread.setG
  split
  · exact hx
  · exact Thread.wf_withG hx (tset_wf _ _ _ _)

theorem Thread.wf_setK {x : Thread} {i : Nat} {v : DWord} (hx : x.wf = true) : (x.setK i v).wf = true := by
  obtain ⟨hg, ha, hk, hst⟩ := Thread.wf_iff.mp hx
  exact Thread.wf_iff.mpr ⟨hg, ha, tset_wf _ _ _ _ hk, hst⟩

theorem Thread.wf_retMode {x : Thread} {th : ThreadRef} (hx : x.wf = true) : (x.retMode th).wf = true := by
  unfold Thread.retMode
  split
  · exact Thread.wf_setK hx
  · exact hx

theorem Thread.wf_setSr {x : Thread} {th : ThreadRef} {i : Nat} {v : Word} (hx : x.wf = true) : (x.setSr th i v).wf = true := by
  unfold Thread.setSr
  split
  case h_13 => split <;> exact hx
  all_goals exact hx

theorem Thread.wf_parked {x : Thread} (hx : x.wf = true) : x.parked.wf = true := by
  obtain ⟨hg, -, -, hst⟩ := Thread.wf_iff.mp hx
  exact Thread.wf_iff.mpr ⟨Tbl.wf_filter hg, rfl, rfl, hst⟩

theorem Thread.wf_ended {x : Thread} {dest : UState} (hx : x.wf = true) : (x.ended dest).wf = true := by
  unfold Thread.ended
  split
  · rfl
  · exact Thread.wf_withStaging hx fun _ => rfl

theorem Task.savedWf_of_none {x : Task} (hx : x.saved = none) : x.savedWf := by simp [Task.savedWf, hx]

theorem Task.savedWf_of_some {x : Task} {y : Thread} (hx : x.saved = some y) (hy : y.wf = true) : x.savedWf := by
  simp [Task.savedWf, hx, hy]

theorem Task.wf_saved {x : Task} (hx : x.savedWf) : (x.saved.getD Thread.init).wf = true := by
  unfold Task.savedWf at hx
  cases hs : x.saved with
  | none => rfl
  | some y => simpa [hs] using hx

theorem Task.savedWf_setDc {x : Task} {j v : Nat} (hx : x.savedWf) : (x.setDc j v).savedWf := by
  unfold Task.setDc
  split <;> exact hx

theorem Tile.wf_put {x : Tile} {l : Loc} {bs : List Byte} (hx : x.wf = true) : (x.put l bs).wf = true := by
  unfold Tile.put
  split <;> exact hx

theorem Tile.wf_loadBank {x : Tile} {b : Nat} {bs : List Byte} (hx : x.wf = true) : (x.loadBank b bs).wf = true := by
  unfold Tile.loadBank
  dsimp only
  split <;> exact hx

theorem Tile.wf_setChan {x : Tile} {n : Nat} {l : List Message} (hx : x.wf = true) :
    Tile.wf { x with chans := tset [] x.chans n l } = true := by
  obtain ⟨hthreads, htasks, hchans, hth, hta⟩ := Tile.wf_iff.mp hx
  exact Tile.wf_iff.mpr ⟨hthreads, htasks, tset_wf _ _ _ _ hchans, hth, hta⟩

/-- A change of one thread keeps a tile's tables. -/
theorem Tile.wf_updThread {x : Tile} {n : Nat} {f : Thread → Thread} (hx : x.wf = true)
    (hf : ∀ y : Thread, y.wf = true → (f y).wf = true) :
    Tile.wf { x with threads := tmod Thread.init x.threads n f } = true := by
  obtain ⟨hthreads, htasks, hchans, hth, hta⟩ := Tile.wf_iff.mp hx
  exact Tile.wf_iff.mpr ⟨tmod_wf _ _ _ _ hthreads, htasks, hchans, tmod_all (P := fun y : Thread => y.wf = true) rfl hth hf, hta⟩

theorem Tile.wf_mapThreads {x : Tile} {g : Nat × Thread → Thread} (hx : x.wf = true)
    (hg : ∀ e : Nat × Thread, e.2.wf = true → (g e).wf = true) :
    Tile.wf { x with threads := x.threads.map fun e => (e.1, g e) } = true := by
  obtain ⟨hthreads, htasks, hchans, hth, hta⟩ := Tile.wf_iff.mp hx
  exact Tile.wf_iff.mpr ⟨Tbl.wf_map hthreads, htasks, hchans, map_all (P := fun y : Thread => y.wf = true) hth hg, hta⟩

theorem Tile.wf_withoutThreads {x : Tile} (hx : x.wf = true) : Tile.wf { x with threads := [] } = true := by
  obtain ⟨-, htasks, hchans, -, hta⟩ := Tile.wf_iff.mp hx
  exact Tile.wf_iff.mpr ⟨rfl, htasks, hchans, by simp, hta⟩

theorem Tile.wf_putTask {x : Tile} {k : Nat} {y : Task} (hx : x.wf = true) (hy : (tget Task.init x.tasks k).savedWf → y.savedWf) :
    Tile.wf { x with tasks := tset Task.init x.tasks k y } = true := by
  obtain ⟨hthreads, htasks, hchans, hth, hta⟩ := Tile.wf_iff.mp hx
  have hk := tget_of_all (P := Task.savedWf) (d := Task.init) (Task.savedWf_of_none rfl) hta k
  exact Tile.wf_iff.mpr ⟨hthreads, tset_wf _ _ _ _ htasks, hchans, hth, tset_all (P := Task.savedWf) hta (hy hk)⟩

/-- A change of one task keeps a tile's tables. -/
theorem Tile.wf_updTask {x : Tile} {k : Nat} {f : Task → Task} (hx : x.wf = true) (hf : ∀ y : Task, y.savedWf → (f y).savedWf) :
    Tile.wf { x with tasks := tmod Task.init x.tasks k f } = true := Tile.wf_putTask hx (hf _)

theorem Tile.wf_mapTasks {x : Tile} {g : Nat × Task → Task} (hx : x.wf = true)
    (hg : ∀ e : Nat × Task, e.2.savedWf → (g e).savedWf) : Tile.wf { x with tasks := x.tasks.map fun e => (e.1, g e) } = true := by
  obtain ⟨hthreads, htasks, hchans, hth, hta⟩ := Tile.wf_iff.mp hx
  exact Tile.wf_iff.mpr ⟨hthreads, Tbl.wf_map htasks, hchans, hth, map_all (P := Task.savedWf) hta hg⟩

theorem Tile.wf_withoutTasks {x : Tile} (hx : x.wf = true) : Tile.wf { x with tasks := [] } = true := by
  obtain ⟨hthreads, -, hchans, hth, -⟩ := Tile.wf_iff.mp hx
  exact Tile.wf_iff.mpr ⟨hthreads, rfl, hchans, hth, by simp⟩

/-- A change of every tile of a half keeps their tables. -/
theorem tilesWf_map {ts : Tbl Tile} {g : Nat × Tile → Tile} (hts : tilesWf ts = true)
    (hg : ∀ e : Nat × Tile, e.2.wf = true → (g e).wf = true) : tilesWf (ts.map fun e => (e.1, g e)) = true := by
  obtain ⟨hk, ht⟩ := tilesWf_iff.mp hts
  exact tilesWf_iff.mpr ⟨Tbl.wf_map hk, map_all (P := fun y : Tile => y.wf = true) ht hg⟩

theorem CcState.wf_mapThreads {x : CcState} {g : Nat × Thread → Thread} (hx : x.wf = true)
    (hg : ∀ e : Nat × Thread, e.2.wf = true → (g e).wf = true) :
    CcState.wf { x with threads := x.threads.map fun e => (e.1, g e) } = true := by
  obtain ⟨hthreads, hchans, hall⟩ := CcState.wf_iff.mp hx
  exact CcState.wf_iff.mpr ⟨Tbl.wf_map hthreads, hchans, map_all (P := fun y : Thread => y.wf = true) hall hg⟩

theorem CcState.wf_withThreads {x : CcState} {l : Tbl Thread} (hx : x.wf = true) (hk : Tbl.wf l = true) (hl : ∀ e ∈ l, e.2.wf = true) :
    CcState.wf { x with threads := l } = true := by
  obtain ⟨-, hchans, -⟩ := CcState.wf_iff.mp hx
  exact CcState.wf_iff.mpr ⟨hk, hchans, hl⟩

theorem CcState.wf_ended {x : CcState} {dest : UState} (hx : x.wf = true) : (x.ended dest).wf = true := by
  unfold CcState.ended
  split
  · rfl
  · exact CcState.wf_mapThreads hx fun _ => Thread.wf_ended

theorem TableState.wf_withCache {x : TableState} {c : Tbl (Nat × Nat)} (hx : x.wf = true)
    (hc : Tbl.wf x.cache = true → Tbl.wf c = true) : TableState.wf { x with cache := c } = true := by
  obtain ⟨hslots, hmeters, hcache⟩ := TableState.wf_iff.mp hx
  exact TableState.wf_iff.mpr ⟨hslots, hmeters, hc hcache⟩

theorem TableState.wf_setIndexed {x : TableState} {t i : Nat} {v : Indexed} (hx : x.wf = true) : (x.setIndexed t i v).wf = true := by
  unfold TableState.setIndexed
  split <;> exact hx

theorem TableState.wf_dropStash {x : TableState} {dest : UState} (hx : x.wf = true) : (x.dropStash dest).wf = true := by
  unfold TableState.dropStash
  split <;> exact hx

theorem TableState.wf_exMove {x : TableState} {m : Nat × Nat} (hx : x.wf = true) : (x.exMove m).wf = true := by
  unfold TableState.exMove
  split <;> exact hx

theorem TableState.wf_exMoves {x : TableState} {ms : List (Nat × Nat)} (hx : x.wf = true) :
    (ms.foldl TableState.exMove x).wf = true := by
  induction ms generalizing x with
  | nil => exact hx
  | cons m ms ih => exact ih (TableState.wf_exMove hx)

/-! ### The parts of the state -/

/-- The tables of a state are in canonical form. -/
structure State.Tabs (s : State) : Prop where
  tiles : s.tiles.All fun t => tilesWf t = true
  cc : s.cc.All fun x => x.wf = true
  ing : s.ing.All IngressState.pfcWf
  chains : s.buf.All fun b => Tbl.wf b.chains = true
  locks : s.locks.All fun l => Tbl.wf l = true
  tab : s.tab.All fun x => x.wf = true
  slots : Tbl.wf s.slots = true
  user : Tbl.wf s.pv.user = true

section
variable {s t : State} {α : Type}

/-- Fields beside those that hold the tables may take any values. -/
protected theorem State.Tabs.rest {csr staged units commits hubs time conf hbm sched ford exp assoc dev ticks fresh waits pending}
    (hs : s.Tabs) :
    State.Tabs { s with
      csr := csr, staged := staged, units := units, commits := commits, hubs := hubs, time := time, conf := conf, hbm := hbm,
      sched := sched, ford := ford, exp := exp, assoc := assoc, dev := dev, ticks := ticks, fresh := fresh, waits := waits,
      pending := pending } :=
  ⟨hs.tiles, hs.cc, hs.ing, hs.chains, hs.locks, hs.tab, hs.slots, hs.user⟩

protected theorem State.Tabs.withTiles {x} (hs : s.Tabs) (hx : Pair.All (fun t => tilesWf t = true) x) : State.Tabs { s with tiles := x } :=
  ⟨hx, hs.cc, hs.ing, hs.chains, hs.locks, hs.tab, hs.slots, hs.user⟩

protected theorem State.Tabs.withCc {x} (hs : s.Tabs) (hx : Pair.All (fun c => CcState.wf c = true) x) : State.Tabs { s with cc := x } :=
  ⟨hs.tiles, hx, hs.ing, hs.chains, hs.locks, hs.tab, hs.slots, hs.user⟩

protected theorem State.Tabs.withIng {x} (hs : s.Tabs) (hx : Pair.All IngressState.pfcWf x) : State.Tabs { s with ing := x } :=
  ⟨hs.tiles, hs.cc, hx, hs.chains, hs.locks, hs.tab, hs.slots, hs.user⟩

protected theorem State.Tabs.withBuf {x} (hs : s.Tabs) (hx : Pair.All (fun b => Tbl.wf b.chains = true) x) :
    State.Tabs { s with buf := x } :=
  ⟨hs.tiles, hs.cc, hs.ing, hx, hs.locks, hs.tab, hs.slots, hs.user⟩

protected theorem State.Tabs.withLocks {x} (hs : s.Tabs) (hx : Pair.All (fun l => Tbl.wf l = true) x) : State.Tabs { s with locks := x } :=
  ⟨hs.tiles, hs.cc, hs.ing, hs.chains, hx, hs.tab, hs.slots, hs.user⟩

protected theorem State.Tabs.withTab {x} (hs : s.Tabs) (hx : Pair.All (fun t => TableState.wf t = true) x) :
    State.Tabs { s with tab := x } :=
  ⟨hs.tiles, hs.cc, hs.ing, hs.chains, hs.locks, hx, hs.slots, hs.user⟩

protected theorem State.Tabs.withSlots {x} (hs : s.Tabs) (hx : Tbl.wf x = true) : State.Tabs { s with slots := x } :=
  ⟨hs.tiles, hs.cc, hs.ing, hs.chains, hs.locks, hs.tab, hx, hs.user⟩

protected theorem State.Tabs.withUser {x : PrivetState} (hs : s.Tabs) (hx : Tbl.wf x.user = true) : State.Tabs { s with pv := x } :=
  ⟨hs.tiles, hs.cc, hs.ing, hs.chains, hs.locks, hs.tab, hs.slots, hx⟩

protected theorem State.Tabs.withPv {x : PrivetState} (hs : s.Tabs) (hx : x.user = s.pv.user) : State.Tabs { s with pv := x } :=
  hs.withUser (hx ▸ hs.user)

protected theorem State.Tabs.updCc {h : Half} {f : CcState → CcState} (hs : s.Tabs)
    (hf : ∀ x, x.wf = true → (f x).wf = true) : State.Tabs { s with cc := s.cc.upd h f } :=
  hs.withCc (hs.cc.upd hf)

/-- A tile that is read is in canonical form, listed or not. -/
protected theorem State.Tabs.tile (hs : s.Tabs) (h : Half) (t : TileIx) : (s.tile h t).wf = true :=
  tget_of_all (P := fun x : Tile => x.wf = true) rfl (tilesWf_iff.mp (hs.tiles.get h)).2 t.val

protected theorem State.Tabs.thread (hs : s.Tabs) (th : ThreadRef) : (s.thread th).wf = true := by
  cases th with
  | pk h t n =>
    obtain ⟨-, -, -, hth, -⟩ := Tile.wf_iff.mp (hs.tile h t)
    exact tget_of_all (P := fun x : Thread => x.wf = true) rfl hth n.val
  | cc h n =>
    obtain ⟨-, -, hall⟩ := CcState.wf_iff.mp (hs.cc.get h)
    exact tget_of_all (P := fun x : Thread => x.wf = true) rfl hall n.val

protected theorem State.Tabs.task (hs : s.Tabs) (h : Half) (t : TileIx) (k : Nat) : (s.task h t k).savedWf := by
  obtain ⟨-, -, -, -, hta⟩ := Tile.wf_iff.mp (hs.tile h t)
  exact tget_of_all (P := Task.savedWf) (Task.savedWf_of_none rfl) hta k

protected theorem State.Tabs.ite {c : Prop} [Decidable c] (hs : s.Tabs) (ht : t.Tabs) : (if c then s else t).Tabs := by
  split <;> assumption

protected theorem State.Tabs.ite_fst {c : Prop} [Decidable c] {p q : State × α} (hp : p.1.Tabs) (hq : q.1.Tabs) :
    (if c then p else q).1.Tabs := by
  split <;> assumption

protected theorem State.Tabs.ite_state {c : Prop} [Decidable c] {p q : FkRes} (hp : p.state.Tabs) (hq : q.state.Tabs) :
    (if c then p else q).state.Tabs := by
  split <;> assumption

protected theorem State.Tabs.ite_s {c : Prop} [Decidable c] {p q : TblRes} (hp : p.s.Tabs) (hq : q.s.Tabs) :
    (if c then p else q).s.Tabs := by
  split <;> assumption

protected theorem State.Tabs.getD {o : Option State} (ho : ∀ {t}, o = some t → t.Tabs) (hs : s.Tabs) : (o.getD s).Tabs := by
  cases o with
  | none => exact hs
  | some t => exact ho rfl

protected theorem State.Tabs.ite_some {c : Prop} [Decidable c] {o p : Option State} (ho : o = some t → t.Tabs)
    (hp : p = some t → t.Tabs) (e : (if c then o else p) = some t) : t.Tabs := by
  split at e
  · exact ho e
  · exact hp e

protected theorem State.Tabs.of_fst {p : State × α} {x : α} (hp : p.1.Tabs) (e : p = (t, x)) : t.Tabs := by
  rw [e] at hp; exact hp

protected theorem State.Tabs.foldl {f : State → α → State} {l : List α} (hs : s.Tabs) (hf : ∀ {t a}, t.Tabs → (f t a).Tabs) :
    (l.foldl f s).Tabs := by
  induction l generalizing s with
  | nil => exact hs
  | cons a r ih => exact ih (hf hs)

protected theorem State.Tabs.foldl_fst {β : Type} {f : State × β → α → State} {g : State × β → α → β} {l : List α}
    {p : State × β} (hp : p.1.Tabs) (hf : ∀ {p a}, p.1.Tabs → (f p a).Tabs) : (l.foldl (fun q a => (f q a, g q a)) p).1.Tabs := by
  induction l generalizing p with
  | nil => exact hp
  | cons a r ih => exact ih (hf hp)
end

section
variable {s : State}

/-! ### State -/

protected theorem State.Tabs.reset : State.reset.Tabs :=
  ⟨⟨rfl, rfl⟩, ⟨rfl, rfl⟩, ⟨⟨rfl, rfl⟩, rfl, rfl⟩, ⟨rfl, rfl⟩, ⟨rfl, rfl⟩, ⟨rfl, rfl⟩, rfl, rfl⟩

/-! ### Units -/

protected theorem State.Tabs.setReg {b : Blk} {off : Nat} {v : DWord} (hs : s.Tabs) : (s.setReg b off v).Tabs := hs.rest

protected theorem State.Tabs.setStg {b : Blk} {off : Nat} {v : DWord} (hs : s.Tabs) : (s.setStg b off v).Tabs := hs.rest

protected theorem State.Tabs.setRfld {b : Blk} {off lsb len x : Nat} (hs : s.Tabs) : (s.setRfld b off lsb len x).Tabs := hs.setReg

protected theorem State.Tabs.bumpBy {b : Blk} {off n : Nat} (hs : s.Tabs) : (s.bumpBy b off n).Tabs := hs.setReg

protected theorem State.Tabs.bump {b : Blk} {off : Nat} (hs : s.Tabs) : (s.bump b off).Tabs := hs.bumpBy

protected theorem State.Tabs.updUnit {u : UnitId} {f : UnitDyn → UnitDyn} (hs : s.Tabs) : (s.updUnit u f).Tabs := hs.rest

protected theorem State.Tabs.used (hs : s.Tabs) : s.used.Tabs := hs.rest

/-! ### Records -/

protected theorem State.Tabs.updTile {h : Half} {t : TileIx} {f : Tile → Tile} (hs : s.Tabs)
    (hf : ∀ x, x.wf = true → (f x).wf = true) : (s.updTile h t f).Tabs :=
  hs.withTiles (hs.tiles.upd fun ts hts => by
    obtain ⟨hk, ht⟩ := tilesWf_iff.mp hts
    exact tilesWf_iff.mpr ⟨tmod_wf _ _ _ _ hk, tmod_all (P := fun y : Tile => y.wf = true) rfl ht hf⟩)

protected theorem State.Tabs.updHub {h : Half} {f : HubState → HubState} (hs : s.Tabs) : (s.updHub h f).Tabs := hs.rest

protected theorem State.Tabs.updThread {th : ThreadRef} {f : Thread → Thread} (hs : s.Tabs)
    (hf : ∀ x, x.wf = true → (f x).wf = true) : (s.updThread th f).Tabs := by
  dsimp only [State.updThread]
  split
  · exact hs.updTile fun _ hx => Tile.wf_updThread hx hf
  · refine hs.withCc (hs.cc.upd fun x hx => ?_)
    obtain ⟨hthreads, hchans, hall⟩ := CcState.wf_iff.mp hx
    exact CcState.wf_iff.mpr ⟨tmod_wf _ _ _ _ hthreads, hchans, tmod_all (P := fun y : Thread => y.wf = true) rfl hall hf⟩

protected theorem State.Tabs.raiseInt {th : ThreadRef} {n : Nat} (hs : s.Tabs) : (s.raiseInt th n).Tabs := hs.updThread keeps

protected theorem State.Tabs.notifyHub {h : Half} (hs : s.Tabs) : (s.notifyHub h).Tabs := .ite hs.raiseInt hs

protected theorem State.Tabs.notify {u : UnitId} {code : Nat} {c : FClass} (hs : s.Tabs) : (s.notify u code c).Tabs := by
  dsimp only [State.notify]
  refine .ite hs ?_
  split
  · exact hs.notifyHub
  · exact .ite hs.notifyHub hs.notifyHub

protected theorem State.Tabs.hubRecord {h : Half} {f : Found} {c : FClass} (hs : s.Tabs) : (s.hubRecord h f c).Tabs := by
  unfold State.hubRecord
  extract_lets x k merge r full det dfull s1 s2 s3
  have h1 : s2.Tabs := .ite hs.updHub.bump hs.updHub
  have h2 : s3.Tabs := .ite h1.bump h1
  exact .ite h2.bump h2

protected theorem State.Tabs.countFault {u : UnitId} (hs : s.Tabs) : (s.countFault u).Tabs := hs.foldl fun h1 => h1.updUnit

protected theorem State.Tabs.openRecord {f : Found} (hs : s.Tabs) : (s.openRecord f).Tabs := by
  dsimp only [State.openRecord]
  split
  · exact hs
  · exact .notify (.ite (hs.foldl fun h1 => h1.hubRecord) (.countFault (hs.foldl fun h1 => h1.hubRecord)))

protected theorem State.Tabs.found {u : UnitId} {code : Nat} {d : DWord} (hs : s.Tabs) : (s.found u code d).1.Tabs := by
  dsimp only [State.found]
  exact .ite_fst hs.updUnit hs

protected theorem State.Tabs.report {u : UnitId} {code d : Nat} (hs : s.Tabs) : (s.report u code d).Tabs := by
  dsimp only [State.report]
  exact hs.found.openRecord

/-! ### Checkers -/

protected theorem State.Tabs.checked {s0 : State} (hs : s.Tabs) : (State.checked s0 s).Tabs := hs.foldl fun h1 => h1.updUnit

/-! ### Time -/

protected theorem State.Tabs.updTime {h : Half} {f : TimeState → TimeState} (hs : s.Tabs) : (s.updTime h f).Tabs := hs.rest

protected theorem State.Tabs.clockTick (hs : s.Tabs) : s.clockTick.Tabs := by
  unfold State.clockTick
  extract_lets s1 _ s2
  have h1 : s2.Tabs := .ite hs.rest.setRfld (.ite hs.rest hs.rest)
  exact .ite h1.rest h1

protected theorem State.Tabs.doLoad (hs : s.Tabs) : s.doLoad.Tabs := .ite hs.setRfld hs.rest

protected theorem State.Tabs.doLoadNow (hs : s.Tabs) : (doLoadNow s).Tabs := .ite hs.doLoad hs

protected theorem State.Tabs.doLoadArm (hs : s.Tabs) : (doLoadArm s).Tabs := .ite hs.rest hs

protected theorem State.Tabs.captureEdge (hs : s.Tabs) : s.captureEdge.Tabs := .setReg (.setReg (.ite hs.rest.doLoad hs))

protected theorem State.Tabs.doTsyncIn {rising : Bool} (hs : s.Tabs) : (doTsyncIn rising s).Tabs := .ite hs.used.rest hs.rest

protected theorem State.Tabs.captures (hs : s.Tabs) : s.captures.Tabs := hs.rest.foldl fun h1 => h1.captureEdge

protected theorem State.Tabs.timeTick (hs : s.Tabs) : s.timeTick.Tabs := hs.clockTick.captures

protected theorem State.Tabs.settleTsync (hs : s.Tabs) : s.settleTsync.Tabs := .ite hs hs.rest

protected theorem State.Tabs.doTsyncRise (hs : s.Tabs) : (doTsyncRise s).Tabs := by
  dsimp only [doTsyncRise]
  split
  · exact .ite (.ite hs.rest hs.rest) hs
  · exact hs

protected theorem State.Tabs.doTsyncFall (hs : s.Tabs) : (doTsyncFall s).Tabs := .ite hs.rest hs

protected theorem State.Tabs.doSlewWrite {dir : Bool} {count : Nat} (hs : s.Tabs) : (doSlewWrite dir count s).Tabs :=
  hs.setRfld.setRfld.rest

protected theorem State.Tabs.doPtpSet (hs : s.Tabs) : (doPtpSet s).Tabs := hs.rest

protected theorem State.Tabs.doPtpAdd (hs : s.Tabs) : (doPtpAdd s).Tabs := hs.rest

protected theorem State.Tabs.doPtpSub (hs : s.Tabs) : (doPtpSub s).Tabs := hs.rest

protected theorem State.Tabs.doPtpNsRead (hs : s.Tabs) : (doPtpNsRead s).Tabs := hs.setReg.setReg

protected theorem State.Tabs.doDtsNowRead {a : Agent} {h : Half} (hs : s.Tabs) : (doDtsNowRead a h s).Tabs := hs.updTime

/-! ### Hbm -/

protected theorem State.Tabs.updHbm {h : Half} {f : HbmState → HbmState} (hs : s.Tabs) : (s.updHbm h f).Tabs := hs.rest

protected theorem State.Tabs.hbmStop {h : Half} {c : HbmClass} {write : Bool} {a : Nat} {t : State} (hs : s.Tabs)
    (e : s.hbmStop h c write a = some t) : t.Tabs := by
  unfold State.hbmStop at e
  split at e
  · cases e; exact hs.bump.report
  · split at e
    · cases e; exact hs
    · split at e
      · cases e; exact hs.bump.report
      · cases e

protected theorem State.Tabs.hbmWritePart {h : Half} {r : HbmReq} {a : Nat} {bs : List Byte} (hs : s.Tabs) :
    (s.hbmWritePart h r a bs).1.Tabs := by
  dsimp only [State.hbmWritePart]
  split
  · next s' e => exact hs.hbmStop e
  · exact .ite_fst hs hs.updHbm

protected theorem State.Tabs.countRaw {h : Half} {st : Fin 2} {x3 : RawCase} (hs : s.Tabs) : (s.countRaw h st x3).Tabs := by
  dsimp only [State.countRaw]
  split
  · exact hs
  · exact hs.bump
  · exact hs.bump

protected theorem State.Tabs.hbmReadPart {h : Half} {r : HbmReq} {a n : Nat} (hs : s.Tabs) : (s.hbmReadPart h r a n).1.Tabs := by
  dsimp only [State.hbmReadPart]
  split
  · next s' e => exact hs.hbmStop e
  · exact .ite_fst hs hs.updHbm.countRaw

protected theorem State.Tabs.orWait {f : State → State} (hs : s.Tabs) (hf : ∀ {t}, t.Tabs → (f t).Tabs) : (s.orWait f).Tabs :=
  .ite (.checked (hf hs)) hs

protected theorem State.Tabs.useLinkBad {h : Half} {a : Nat} (hs : s.Tabs) : (s.useLinkBad h a).Tabs := hs.updHbm

protected theorem State.Tabs.hbmUnitRead {h : Half} {r : HbmReq} {a n : Nat} (hs : s.Tabs) : (s.hbmUnitRead h r a n).1.Tabs := by
  dsimp only [State.hbmUnitRead]
  exact .ite_fst hs.rest (.ite_fst hs.useLinkBad hs.hbmReadPart)

protected theorem State.Tabs.hbmUnitWrite {h : Half} {r : HbmReq} {a : Nat} {bs : List Byte} (hs : s.Tabs) :
    (s.hbmUnitWrite h r a bs).1.Tabs := by
  dsimp only [State.hbmUnitWrite]
  exact .ite_fst hs.rest (.ite_fst hs.useLinkBad hs.hbmWritePart)

protected theorem State.Tabs.hbmRead {h : Half} {r : HbmReq} {a n : Nat} (hs : s.Tabs) : (s.hbmRead h r a n).1.Tabs := by
  dsimp only [State.hbmRead]
  exact .foldl_fst hs fun h1 => h1.hbmUnitRead

protected theorem State.Tabs.hbmWrite {h : Half} {r : HbmReq} {a : Nat} {bs : List Byte} (hs : s.Tabs) : (s.hbmWrite h r a bs).1.Tabs := by
  dsimp only [State.hbmWrite]
  exact .foldl_fst hs fun h1 => h1.hbmUnitWrite

protected theorem State.Tabs.hbmPlace {h : Half} {a : Nat} {bs : List Byte} (hs : s.Tabs) : (s.hbmPlace h a bs).1.Tabs := by
  dsimp only [State.hbmPlace]
  exact .foldl_fst hs fun h1 => h1.hbmWritePart

protected theorem State.Tabs.rowFails {h : Half} {k : RowKey} (hs : s.Tabs) : (s.rowFails h k).Tabs :=
  .ite hs (.ite hs.updHbm (.ite hs.updHbm.setRfld.report hs.report))

protected theorem State.Tabs.granEcc {h : Half} {g : Nat} {e : EccOutcome} (hs : s.Tabs) : (s.granEcc h g e).Tabs := by
  dsimp only [State.granEcc]
  split
  · exact hs
  · exact hs.bump.report.updHbm
  · exact hs.bump.report.updHbm

protected theorem State.Tabs.granFails {h : Half} {g : Nat} {e : EccOutcome} (hs : s.Tabs) : (s.granFails h g e).Tabs := by
  dsimp only [State.granFails]
  split
  · exact hs
  · exact .ite hs.rowFails hs
  · exact hs.rowFails

protected theorem State.Tabs.granEccs {h : Half} {gs : List Nat} {es : List EccOutcome} (hs : s.Tabs) : (s.granEccs h gs es).Tabs := by
  induction gs generalizing s es with
  | nil => exact hs
  | cons g gs ih =>
    cases es with
    | nil => exact hs
    | cons e es => exact ih hs.granEcc

protected theorem State.Tabs.granFailures {h : Half} {gs : List Nat} {es : List EccOutcome} (hs : s.Tabs) :
    (s.granFailures h gs es).Tabs := by
  induction gs generalizing s es with
  | nil => exact hs
  | cons g gs ih =>
    cases es with
    | nil => exact hs
    | cons e es => exact ih hs.granFails

protected theorem State.Tabs.doHbmWriteToArray {h : Half} {p : Nat} (hs : s.Tabs) : (doHbmWriteToArray h p s).Tabs := .ite hs.updHbm hs

protected theorem State.Tabs.doHbmRefresh {h : Half} {p bank : Nat} (hs : s.Tabs) : (doHbmRefresh h p bank s).Tabs :=
  .ite hs (.ite hs.updHbm (.ite hs.updHbm.bump hs.updHbm))

protected theorem State.Tabs.doHbmPowerDown {h : Half} {p : Nat} (hs : s.Tabs) : (doHbmPowerDown h p s).Tabs := .ite hs.updHbm.bump hs

protected theorem State.Tabs.hbmCycle {h : Half} (hs : s.Tabs) : (s.hbmCycle h).Tabs := hs.updHbm

protected theorem State.Tabs.hbmTick {h : Half} (hs : s.Tabs) : (s.hbmTick h).Tabs := hs.updHbm

protected theorem State.Tabs.scrubNext {h : Half} {st : Fin 2} (hs : s.Tabs) : (s.scrubNext h st).Tabs := .ite hs.updHbm hs.updHbm.bump

protected theorem State.Tabs.doHbmScrub {h : Half} {st : Fin 2} {e : EccOutcome} (hs : s.Tabs) : (doHbmScrub h st e s).Tabs :=
  .ite (.ite hs hs.updHbm.granEcc.granFails.scrubNext) hs

protected theorem State.Tabs.doRowRepairDone {h : Half} {k : RowKey} (hs : s.Tabs) : (doRowRepairDone h k s).Tabs :=
  .ite hs.updHbm.setRfld.report hs

protected theorem State.Tabs.doStackTemp {h : Half} {st : Fin 2} {temp : Nat} (hs : s.Tabs) : (doStackTemp h st temp s).Tabs :=
  .ite (.ite hs.setRfld.setRfld hs.setRfld.setRfld.updHbm.report) hs.setRfld.setRfld.updHbm

/-! ### Buffer -/

protected theorem State.Tabs.updBuf {h : Half} {f : BufferState → BufferState} (hs : s.Tabs)
    (hf : ∀ b, Tbl.wf b.chains = true → Tbl.wf (f b).chains = true) : (s.updBuf h f).Tabs :=
  hs.withBuf (hs.chains.upd hf)

protected theorem State.Tabs.updChain {h : Half} {id : Nat} {f : Chain → Chain} (hs : s.Tabs) : (s.updChain h id f).Tabs :=
  hs.updBuf fun b hb => by
    split
    · exact tput_wf _ _ _ hb
    · exact hb

protected theorem State.Tabs.addChain {h : Half} {c : Chain} {ncells nocells : Nat} (hs : s.Tabs) :
    (s.addChain h c ncells nocells).1.Tabs := by
  dsimp only [State.addChain]
  exact (hs.updBuf fun _ => tput_wf _ _ _).rest

protected theorem State.Tabs.growChain {h : Half} {id n : Nat} (hs : s.Tabs) : (s.growChain h id n).Tabs :=
  State.Tabs.rest <| hs.updBuf fun b hb => by
    split
    · exact tput_wf _ _ _ hb
    · exact hb

protected theorem State.Tabs.freeChain {h : Half} {id : Nat} (hs : s.Tabs) : (s.freeChain h id).Tabs :=
  hs.updBuf fun b hb => by
    split
    · exact tdel_wf _ _ hb
    · exact hb

protected theorem State.Tabs.release {h : Half} {id : Nat} (hs : s.Tabs) : (s.release h id).Tabs := by
  dsimp only [State.release]
  split
  · exact hs.used.report
  · exact .ite hs.report (.ite hs.freeChain hs.updChain)

protected theorem State.Tabs.moveCharge {h : Half} {id p : Nat} (hs : s.Tabs) : (s.moveCharge h id p).1.Tabs := by
  dsimp only [State.moveCharge]
  exact .ite_fst hs (.ite_fst (hs.updBuf fun _ => tput_wf _ _ _) hs)

protected theorem State.Tabs.bumpPort {h : Half} {lp k : Nat} (hs : s.Tabs) : (s.bumpPort h lp k).Tabs := hs.bump

protected theorem State.Tabs.setHold {h : Half} {lp : Nat} {p : HoldPhase} (hs : s.Tabs) : (s.setHold h lp p).Tabs := hs.updBuf keeps

protected theorem State.Tabs.setQueue {h : Half} {q : Nat} {l : List QEntry} (hs : s.Tabs) : (s.setQueue h q l).Tabs := hs.updBuf keeps

protected theorem State.Tabs.setSpill {h : Half} {q : Nat} {l : List SpillEntry} (hs : s.Tabs) : (s.setSpill h q l).Tabs := hs.updBuf keeps

protected theorem State.Tabs.pointerFault {h : Half} {id : Nat} (hs : s.Tabs) : (s.pointerFault h id).Tabs := by
  dsimp only [State.pointerFault]
  split
  · exact hs.report
  · exact hs

protected theorem State.Tabs.errorDrop {h g : Half} {lp id : Nat} (hs : s.Tabs) : (s.errorDrop h g lp id).Tabs :=
  hs.pointerFault.bumpPort.release

/-! ### Sched -/

protected theorem State.Tabs.updIng {h : Half} {f : IngressState → IngressState} (hs : s.Tabs)
    (hf : ∀ x, x.pfcWf → (f x).pfcWf) : (s.updIng h f).Tabs := hs.withIng (hs.ing.upd hf)

protected theorem State.Tabs.updSched {h : Half} {f : SchedState → SchedState} (hs : s.Tabs) : (s.updSched h f).Tabs := hs.rest

protected theorem State.Tabs.setBucket {h : Half} {l : Lvl} {i : Nat} {b : Bucket} (hs : s.Tabs) : (s.setBucket h l i b).Tabs :=
  hs.updSched

protected theorem State.Tabs.chargeNode {h : Half} {l : Lvl} {i : Nat} {lc : Int} (hs : s.Tabs) : (s.chargeNode h l i lc).Tabs :=
  hs.setBucket

protected theorem State.Tabs.refreshQueue {was : List Nat} {h : Half} {q : Nat} (hs : s.Tabs) : (State.refreshQueue was h s q).Tabs := by
  unfold State.refreshQueue
  extract_lets v s1 e had
  have h1 : s1.Tabs := .ite hs.updSched hs
  exact .ite h1.updSched (.ite h1.updSched h1)

protected theorem State.Tabs.refreshClass {was : List Nat} {h : Half} {k : Nat} (hs : s.Tabs) : (State.refreshClass was h s k).Tabs := by
  unfold State.refreshClass
  extract_lets v now hadSome s1 e had
  have h1 : s1.Tabs := .ite hs.updSched hs
  exact .ite h1.updSched (.ite h1.updSched h1)

protected theorem State.Tabs.schedRefresh {h : Half} {lp : Nat} {was : List Nat} (hs : s.Tabs) : (s.schedRefresh h lp was).Tabs :=
  .foldl (hs.foldl fun h1 => h1.refreshQueue) fun h1 => h1.refreshClass

protected theorem State.Tabs.withSched {h : Half} {lp : Nat} {f : State → State} (hs : s.Tabs) (hf : ∀ {t}, t.Tabs → (f t).Tabs) :
    (s.withSched h lp f).Tabs := by
  unfold State.withSched
  exact .schedRefresh (hf hs)

protected theorem State.Tabs.setSels {h : Half} {lp : Nat} {l : List Sel} (hs : s.Tabs) : (s.setSels h lp l).Tabs := hs.updSched

protected theorem State.Tabs.selectTags {h : Half} {q lc : Nat} (hs : s.Tabs) : (s.selectTags h q lc).Tabs := by
  unfold State.selectTags
  exact hs.updSched.chargeNode.chargeNode.chargeNode

protected theorem State.Tabs.withdrawQueue {h : Half} {q : Nat} (hs : s.Tabs) : (s.withdrawQueue h q).Tabs := by
  dsimp only [State.withdrawQueue]
  split
  · exact hs
  · exact .bumpBy (hs.setSels.setQueue.updSched.foldl fun h1 => h1.chargeNode.chargeNode.chargeNode)

protected theorem State.Tabs.withdraw {h : Half} {lp p : Nat} (hs : s.Tabs) : (s.withdraw h lp p).Tabs :=
  hs.foldl fun h1 => h1.withdrawQueue

protected theorem State.Tabs.loseSelected {h : Half} {lp : Nat} (hs : s.Tabs) : (s.loseSelected h lp).Tabs :=
  .setSels (hs.foldl fun h1 => .ite h1.bumpPort h1.bumpPort.release)

/-! ### Versions -/

protected theorem State.Tabs.updTab {h : Half} {f : TableState → TableState} (hs : s.Tabs)
    (hf : ∀ x, x.wf = true → (f x).wf = true) : (s.updTab h f).Tabs := hs.withTab (hs.tab.upd hf)

protected theorem State.Tabs.updSlot {h : Half} {b : Nat} {f : BatchSlot → BatchSlot} (hs : s.Tabs) : (s.updSlot h b f).Tabs :=
  hs.updTab fun x hx => by
    obtain ⟨hslots, hmeters, hcache⟩ := TableState.wf_iff.mp hx
    exact TableState.wf_iff.mpr ⟨tmod_wf _ _ _ _ hslots, hmeters, hcache⟩

protected theorem State.Tabs.dropTouch {h : Half} {b : Nat} {t : Touch} (hs : s.Tabs) : (s.dropTouch h b t).Tabs := hs.updSlot

protected theorem State.Tabs.setMeter {h : Half} {i : Nat} {m : Meter} (hs : s.Tabs) : (s.setMeter h i m).Tabs :=
  hs.updTab fun x hx => by
    obtain ⟨hslots, hmeters, hcache⟩ := TableState.wf_iff.mp hx
    exact TableState.wf_iff.mpr ⟨hslots, tset_wf _ _ _ _ hmeters, hcache⟩

protected theorem State.Tabs.chargeMeter {h : Half} {i bytes st pre : Nat} (hs : s.Tabs) : (s.chargeMeter h i bytes st pre).1.Tabs := by
  dsimp only [State.chargeMeter]
  exact hs.setMeter

protected theorem State.Tabs.fillMeter {h : Half} {i st : Nat} (hs : s.Tabs) : (s.fillMeter h i st).Tabs := hs.setMeter.updTab keeps

/-! ### Exact -/

protected theorem State.Tabs.setEx {h : Half} {i : Nat} {e : ExEntry} (hs : s.Tabs) : (s.setEx h i e).Tabs := hs.updTab keeps

protected theorem State.Tabs.dropEx {h : Half} {i : Nat} (hs : s.Tabs) : (s.dropEx h i).Tabs := hs.updTab keeps

protected theorem State.Tabs.exSlot {h : Half} {tid key : Nat} (hs : s.Tabs) : (s.exSlot h tid key).1.Tabs := by
  dsimp only [State.exSlot]
  split
  · exact hs.rest
  · split
    · exact hs.rest.updTab fun _ => TableState.wf_exMoves
    · exact hs.rest

protected theorem State.Tabs.refreshEx {h : Half} {i : Nat} {e : ExEntry} (hs : s.Tabs) : (s.refreshEx h i e).Tabs := .ite hs hs.setEx

/-! ### Locks -/

protected theorem State.Tabs.bumpCore {th : ThreadRef} {off : Nat} (hs : s.Tabs) : (s.bumpCore th off).Tabs := by
  dsimp only [State.bumpCore]
  split
  · exact hs.bump
  · exact hs

protected theorem State.Tabs.updTask {h : Half} {t : TileIx} {k : Nat} {f : Task → Task} (hs : s.Tabs)
    (hf : ∀ x, x.savedWf → (f x).savedWf) : (s.updTask h t k f).Tabs :=
  hs.updTile fun _ hx => Tile.wf_updTask hx hf

protected theorem State.Tabs.setLock {hm : Half} {num : Nat} {l : LockState} (hs : s.Tabs) : (s.setLock hm num l).Tabs :=
  hs.withLocks (hs.locks.upd fun _ => tset_wf _ _ _ _)

protected theorem State.Tabs.raiseParty {p : LockParty} {q : Nat} (hs : s.Tabs) : (s.raiseParty p q).Tabs := by
  dsimp only [State.raiseParty]
  split
  · exact .bump (hs.updTask keeps)
  · exact hs.updThread keeps

protected theorem State.Tabs.settlePrio {p : LockParty} (hs : s.Tabs) : (s.settlePrio p).Tabs := by
  dsimp only [State.settlePrio]
  split
  · exact hs.updTask keeps
  · exact hs.updThread keeps

protected theorem State.Tabs.inherit {hm : Half} {num q fuel : Nat} (hs : s.Tabs) : (s.inherit hm num q fuel).Tabs := by
  induction fuel generalizing s hm num with
  | zero =>
    unfold State.inherit
    split
    · exact hs
    · exact .ite hs.bump hs
  | succ k ih =>
    unfold State.inherit
    split
    · exact hs
    · refine .ite ?_ hs
      dsimp only
      split
      · exact hs.bump.raiseParty
      · exact ih hs.bump.raiseParty.setLock

protected theorem State.Tabs.answerLock {p : LockParty} {st : Nat} (hs : s.Tabs) : (s.answerLock p st).Tabs := by
  dsimp only [State.answerLock]
  split
  · exact hs
  · refine hs.updThread fun x hx => ?_
    split
    · exact Thread.wf_setG hx
    · exact hx

protected theorem State.Tabs.passOn {hm : Half} {num st : Nat} (hs : s.Tabs) : (s.passOn hm num st).Tabs := by
  dsimp only [State.passOn]
  split
  · exact hs.setLock
  · exact hs.setLock.bump.answerLock

protected theorem State.Tabs.withdrawWaiter {p : LockParty} (hs : s.Tabs) : (s.withdrawWaiter p).Tabs := by
  dsimp only [State.withdrawWaiter]
  split
  · exact hs
  · split
    · exact hs.setLock
    · exact hs.setLock.settlePrio

protected theorem State.Tabs.abandonLocks {p : LockParty} (hs : s.Tabs) : (s.abandonLocks p).Tabs :=
  hs.withdrawWaiter.foldl fun h1 => h1.passOn.bump

protected theorem State.Tabs.dropHalfLocks {h : Half} (hs : s.Tabs) : (s.dropHalfLocks h).Tabs := by
  dsimp only [State.dropHalfLocks]
  refine hs.foldl fun h1 => ?_
  split
  · exact .ite h1.setLock.passOn.settlePrio.bump h1.setLock.settlePrio
  · exact h1.setLock

protected theorem State.Tabs.takeLock {p : LockParty} {num : Nat} (hs : s.Tabs) : (s.takeLock p num).Tabs := hs.setLock.bump

protected theorem State.Tabs.queueLock {p : LockParty} {num : Nat} (hs : s.Tabs) : (s.queueLock p num).Tabs := hs.setLock.bump.inherit

protected theorem State.Tabs.unlock {p : LockParty} {num : Nat} (hs : s.Tabs) : (s.unlock p num).1.Tabs := by
  dsimp only [State.unlock]
  exact .ite_fst hs (.ite_fst hs (.ite_fst hs.passOn.settlePrio hs))

protected theorem State.Tabs.forcedInt {p : LockParty} (hs : s.Tabs) : (s.forcedInt p).Tabs := by
  dsimp only [State.forcedInt]
  split
  · exact hs.raiseInt
  · split
    · exact hs.updTask keeps
    · exact hs

protected theorem State.Tabs.forceLock {h : Half} {num : Nat} (hs : s.Tabs) : (s.forceLock h num).Tabs := by
  dsimp only [State.forceLock]
  refine .ite ?_ hs
  split
  · exact hs
  · exact hs.passOn.settlePrio.forcedInt.bump

protected theorem State.Tabs.setChan {th : ThreadRef} {n : Nat} {l : List Message} (hs : s.Tabs) : (s.setChan th n l).Tabs := by
  dsimp only [State.setChan]
  split
  · exact hs.updTile fun _ => Tile.wf_setChan
  · refine hs.withCc (hs.cc.upd fun x hx => ?_)
    obtain ⟨hthreads, hchans, hall⟩ := CcState.wf_iff.mp hx
    exact CcState.wf_iff.mpr ⟨hthreads, tset_wf _ _ _ _ hchans, hall⟩

protected theorem State.Tabs.bumpChan {th : ThreadRef} {off n : Nat} (hs : s.Tabs) : (s.bumpChan th off n).Tabs := by
  dsimp only [State.bumpChan]
  split
  · exact hs.bumpBy
  · exact hs

protected theorem State.Tabs.setEv {th : ThreadRef} {m : Word} (hs : s.Tabs) : (s.setEv th m).Tabs := hs.updThread keeps

protected theorem State.Tabs.sendMessage {th : ThreadRef} {n : Nat} {m : Message} (hs : s.Tabs) : (s.sendMessage th n m).Tabs :=
  .ite hs.setChan.bumpChan.setEv hs.setChan.bumpChan

protected theorem State.Tabs.writeChCfg {th : ThreadRef} {n : Nat} {v : DWord} (hs : s.Tabs) : (s.writeChCfg th n v).Tabs :=
  .ite (.ite hs.setReg hs.setReg) (.ite hs.bumpChan.setChan.setReg hs.setReg)

/-! ### Tasks -/

protected theorem State.Tabs.checkWait {h : Half} {t : TileIx} {k : Nat} (hs : s.Tabs) : (s.checkWait h t k).Tabs := by
  dsimp only [State.checkWait]
  refine .ite (.ite (hs.updTask keeps) hs) ?_
  split
  · exact hs
  · split
    · exact .ite (.updTask (hs.updThread keeps) keeps) hs
    · exact hs

protected theorem State.Tabs.dcDown {h : Half} {t : TileIx} {k j : Nat} (hs : s.Tabs) : (s.dcDown h t k j).Tabs :=
  (hs.updTask fun _ => Task.savedWf_setDc).checkWait

protected theorem State.Tabs.dcUp {h : Half} {t : TileIx} {k j : Nat} (hs : s.Tabs) : (s.dcUp h t k j).Tabs :=
  hs.updTask fun _ => Task.savedWf_setDc

protected theorem State.Tabs.settleSlot {h : Half} {t : TileIx} {k : Nat} (hs : s.Tabs) : (s.settleSlot h t k).Tabs :=
  .ite (hs.updTask fun _ _ => Task.savedWf_of_none rfl) hs

protected theorem State.Tabs.respond {h : Half} {t : TileIx} {r : Response} (hs : s.Tabs) : (s.respond h t r).Tabs :=
  .ite (.settleSlot (hs.updTile keeps)) (.dcDown (.updTile (hs.updTile keeps) fun _ => Tile.wf_put))

protected theorem State.Tabs.updResponse {h : Half} {t : TileIx} {id : Nat} {f : Response → Response} (hs : s.Tabs) :
    (s.updResponse h t id f).Tabs := hs.updTile keeps

protected theorem State.Tabs.releaseInst {h : Half} {t : TileIx} {key : Nat} (hs : s.Tabs) : (s.releaseInst h t key).Tabs :=
  .foldl (hs.updTile keeps) fun h1 => h1.setEv

protected theorem State.Tabs.endInsts {h : Half} {t : TileIx} {k : Nat} (hs : s.Tabs) : (s.endInsts h t k).Tabs :=
  hs.foldl fun h1 => .ite (h1.bump.updTile keeps) h1.bump.releaseInst

protected theorem State.Tabs.settleInst {h : Half} {t : TileIx} {k key : Nat} (hs : s.Tabs) : (s.settleInst h t k key).Tabs :=
  .ite hs.releaseInst hs

protected theorem State.Tabs.cancelScan {h : Half} {t : TileIx} {k : Nat} (hs : s.Tabs) : (s.cancelScan h t k).Tabs :=
  .ite (.bump (.updTask (hs.updTile keeps) keeps)) hs

protected theorem State.Tabs.endHold {h : Half} {t : TileIx} {k : Nat} (hs : s.Tabs) : (s.endHold h t k).Tabs := by
  dsimp only [State.endHold]
  refine .cancelScan ?_
  refine .updTile ?_ keeps
  refine .endInsts ?_
  refine .updIng ?_ keeps
  refine .updTask ?_ fun _ _ => Task.savedWf_of_none rfl
  split
  · exact .updThread (.abandonLocks (.ite hs.bump hs)) fun _ hx => Thread.wf_withStaging hx fun _ => rfl
  · exact .abandonLocks (.ite hs.bump hs)

protected theorem State.Tabs.endChain {h : Half} {t : TileIx} {k : Nat} (hs : s.Tabs) : (s.endChain h t k).Tabs := by
  dsimp only [State.endChain]
  split
  · exact hs.release.updTask keeps
  · exact hs

protected theorem State.Tabs.cross {h : Half} {id : Nat} {list : Option Nat} {port queue : Nat} (hs : s.Tabs) :
    (s.cross h id list port queue).Tabs := .ite hs.rest hs.bump.release

protected theorem State.Tabs.forward {h : Half} {t : TileIx} {k : Nat} (hs : s.Tabs) : (s.forward h t k).Tabs := by
  dsimp only [State.forward]
  split
  · exact .ite (.updBuf (hs.updTask keeps) keeps) (.ite (.updBuf (hs.updTask keeps) keeps) (.cross (hs.updTask keeps)))
  · exact hs

protected theorem State.Tabs.releaseFree {h : Half} {t : TileIx} {k : Nat} (hs : s.Tabs) : (s.releaseFree h t k).Tabs :=
  .settleSlot (hs.forward.updTask keeps)

protected theorem State.Tabs.releaseOrdered {h : Half} {t : TileIx} {k : Nat} {late : Bool} (hs : s.Tabs) :
    (s.releaseOrdered h t k late).Tabs := by
  dsimp only [State.releaseOrdered]
  refine .releaseFree ?_
  split
  · exact hs.bump.bump.updChain
  · exact hs.bump

protected theorem State.Tabs.completePacket {h : Half} {t : TileIx} {k : Nat} {out : Option (List Byte)} (hs : s.Tabs) :
    (s.completePacket h t k out).Tabs := by
  unfold State.completePacket
  extract_lets s1 s2 s3 x
  have h1 : s2.Tabs := .ite hs.endHold.endChain hs.endHold
  exact .ite (.ite (h1.updTask keeps) (.releaseOrdered (h1.updTask keeps))) (.releaseFree (h1.updTask keeps))

protected theorem State.Tabs.endService {h : Half} {t : TileIx} {k : Nat} (hs : s.Tabs) : (s.endService h t k).Tabs :=
  .settleSlot (hs.endHold.updTask keeps)

protected theorem State.Tabs.completeTask {h : Half} {t : TileIx} {k : Nat} {out : Option (List Byte)} (hs : s.Tabs) :
    (s.completeTask h t k out).Tabs := .ite hs.endService hs.completePacket

protected theorem State.Tabs.countDiscard {h : Half} {t : TileIx} {k reason : Nat} (hs : s.Tabs) : (s.countDiscard h t k reason).Tabs :=
  .setReg (.ite hs.bump.bump.bump hs.bump.bump)

protected theorem State.Tabs.discardTask {h : Half} {t : TileIx} {k reason : Nat} (hs : s.Tabs) : (s.discardTask h t k reason).Tabs :=
  .ite hs
    (.ite hs.countDiscard.endService
       (.ite
          (.ite (hs.countDiscard.endHold.endChain.updTask keeps) (.releaseOrdered (hs.countDiscard.endHold.endChain.updTask keeps)))
          (.settleSlot (.updTask (hs.countDiscard.endHold.endChain.updTask keeps) keeps))))

/-! ### Admit -/

protected theorem State.Tabs.settleReg {h : Half} {id : Nat} (hs : s.Tabs) : (s.settleReg h id).Tabs := .ite hs hs.rest

protected theorem State.Tabs.refuse {h : Half} {c : Copy} {k : Nat} (hs : s.Tabs) : (s.refuse h c k).Tabs := hs.bumpPort.release

protected theorem State.Tabs.countAdmit {h : Half} {q : Nat} {e : QEntry} (hs : s.Tabs) : (s.countAdmit h q e).Tabs :=
  .ite hs.bumpPort.bumpPort hs.bumpPort

protected theorem State.Tabs.admitOnChip {h : Half} {c : Copy} (hs : s.Tabs) : (s.admitOnChip h c).Tabs :=
  .countAdmit (.withSched hs (fun h1 => h1.setQueue))

protected theorem State.Tabs.admitDeep {h : Half} {c : Copy} (hs : s.Tabs) : (s.admitDeep h c).Tabs :=
  .countAdmit (.rest (hs.setSpill.updBuf keeps))

protected theorem State.Tabs.takeCopy {h : Half} {c : Copy} (hs : s.Tabs) : (s.takeCopy h c).Tabs := by
  dsimp only [State.takeCopy]
  exact .ite hs.refuse
    (.ite hs.refuse
       (.ite hs.bump.release
          (.ite (.ite hs.refuse hs.admitDeep) (.ite hs.refuse (.ite hs.admitOnChip (.ite hs.moveCharge.admitOnChip hs.refuse))))))

protected theorem State.Tabs.doAdmitCopy {h : Half} (hs : s.Tabs) : (doAdmitCopy h s).Tabs := by
  dsimp only [doAdmitCopy]
  split
  · exact hs
  · exact .ite (.settleReg (.takeCopy (hs.updBuf keeps))) hs

protected theorem State.Tabs.offer {h : Half} {id list : Nat} {t : Target} (hs : s.Tabs) : (State.offer h id list s t).Tabs :=
  .ite hs.cross (hs.updBuf keeps)

protected theorem State.Tabs.replicate {h : Half} {id list : Nat} {found : List Target} (hs : s.Tabs) :
    (s.replicate h id list found).Tabs := by
  dsimp only [State.replicate]
  exact .ite (.freeChain (.ite hs.bump hs))
    (.ite
       (.foldl (.moveCharge (.updChain (.ite hs.bump hs))) fun h1 => h1.offer)
       (.freeChain (.foldl (.updChain (.ite hs.bump hs)) fun h1 => h1.bumpPort)))

protected theorem State.Tabs.doReplWalk {h : Half} (hs : s.Tabs) : (doReplWalk h s).Tabs := by
  dsimp only [doReplWalk]
  split
  · exact hs
  · refine .ite hs (.settleReg (.replicate ?_))
    exact .ite (.bump (.ite (.bump (hs.updBuf keeps)) (hs.updBuf keeps))) (.ite (.bump (hs.updBuf keeps)) (hs.updBuf keeps))

protected theorem State.Tabs.writeBlocks {h : Half} {img : List Byte} {l : List Nat} {off : Nat} (hs : s.Tabs) :
    (s.writeBlocks h img l off).Tabs := by
  induction l generalizing s off with
  | nil => exact hs
  | cons i r ih => exact ih hs.hbmWrite

protected theorem State.Tabs.readBlocks {h : Half} {l : List Nat} {left : Nat} (hs : s.Tabs) : (s.readBlocks h l left).1.Tabs := by
  induction l generalizing s left with
  | nil => exact hs
  | cons i r ih => exact ih hs.hbmRead

protected theorem State.Tabs.doSpillWritten {h : Half} {q : Nat} (hs : s.Tabs) : (doSpillWritten h q s).Tabs := by
  dsimp only [doSpillWritten]
  split
  · exact hs
  · split
    · exact hs
    · exact .ite hs.setSpill.errorDrop hs.used.writeBlocks.setSpill.release

protected theorem State.Tabs.popSpill {h : Half} {q : Nat} (hs : s.Tabs) : (s.popSpill h q).Tabs := hs.setSpill.updBuf keeps

protected theorem State.Tabs.fillFront {h : Half} {q : Nat} {x : SpillEntry} (hs : s.Tabs) : (s.fillFront h q x).Tabs := by
  dsimp only [State.fillFront]
  exact .ite hs.used.popSpill.bumpPort.report
    (.ite (hs.updBuf keeps)
      (.ite hs.readBlocks.popSpill.bumpPort.report (.popSpill (.withSched hs.readBlocks.addChain (fun h1 => h1.setQueue)))))

protected theorem State.Tabs.doSpillFill {h : Half} {q : Nat} (hs : s.Tabs) : (doSpillFill h q s).Tabs := by
  dsimp only [doSpillFill]
  split
  · exact hs
  · exact .ite hs hs.fillFront

protected theorem State.Tabs.doFillRetry {h : Half} {q : Nat} (hs : s.Tabs) : (doFillRetry h q s).Tabs := by
  dsimp only [doFillRetry]
  split
  · exact .ite hs.bump.fillFront hs
  · exact hs

protected theorem State.Tabs.flushEnd {h : Half} {lp : Nat} (hs : s.Tabs) : (s.flushEnd h lp).Tabs := .ite hs.setHold hs

protected theorem State.Tabs.portFalls {h : Half} {lp : Nat} (hs : s.Tabs) : (s.portFalls h lp).Tabs :=
  .ite (.ite hs.loseSelected.setHold.flushEnd (hs.loseSelected.setHold.updBuf keeps)) hs.loseSelected

protected theorem State.Tabs.portReturns {h : Half} {lp : Nat} (hs : s.Tabs) : (s.portReturns h lp).Tabs :=
  .ite (hs.setHold.updBuf keeps) hs

protected theorem State.Tabs.doHoldExpire {h : Half} {lp : Nat} (hs : s.Tabs) : (doHoldExpire h lp s).Tabs :=
  .ite (.flushEnd (hs.setHold.updBuf keeps)) hs

protected theorem State.Tabs.doFlushEntry {h : Half} {lp : Nat} (hs : s.Tabs) : (doFlushEntry h lp s).Tabs := by
  dsimp only [doFlushEntry]
  refine .ite ?_ hs
  split
  · split
    · exact .flushEnd (.release (.bumpPort (.withSched hs (fun h1 => h1.setQueue))))
    · exact hs
  · split
    · exact .flushEnd (.bumpPort (hs.setSpill.updBuf keeps))
    · exact hs.flushEnd

protected theorem State.Tabs.reclaimed {h : Half} (hs : s.Tabs) : (s.reclaimed h).Tabs := hs.bump.report

protected theorem State.Tabs.reclaimLost {h : Half} {x : LostCell} (hs : s.Tabs) : (s.reclaimLost h x).Tabs :=
  .ite hs (.ite (hs.updBuf keeps) (.reclaimed (hs.updBuf keeps)))

protected theorem State.Tabs.doReclaimVisit {h : Half} {cell : Nat} (hs : s.Tabs) : (doReclaimVisit h cell s).Tabs := by
  dsimp only [doReclaimVisit]
  refine .ite ?_ hs
  split
  · exact .ite hs.freeChain.reclaimed hs
  · split
    · exact hs.reclaimLost
    · exact hs

/-! ### Cal -/

protected theorem State.Tabs.calApply {items : List Nat} (hs : s.Tabs) : (s.calApply items).Tabs := hs.withPv rfl

/-! ### Flow -/

protected theorem State.Tabs.flowRead {h : Half} {slot : Nat} (hs : s.Tabs) : (s.flowRead h slot).1.Tabs := by
  dsimp only [State.flowRead]
  exact hs.hbmRead

protected theorem State.Tabs.flowWriteThrough {h : Half} {a : Nat} {bs : List Byte} (hs : s.Tabs) : (s.flowWriteThrough h a bs).Tabs := by
  dsimp only [State.flowWriteThrough]
  exact hs.hbmWrite.updHbm

protected theorem State.Tabs.flowPut {h : Half} {slot : Nat} {r : List Byte} (hs : s.Tabs) : (s.flowPut h slot r).Tabs :=
  hs.flowWriteThrough.hbmWrite

protected theorem State.Tabs.flowPutHead {h : Half} {slot : Nat} {r : List Byte} (hs : s.Tabs) : (s.flowPutHead h slot r).Tabs :=
  hs.hbmWrite

protected theorem State.Tabs.flowClear {h : Half} {slot : Nat} {r : List Byte} (hs : s.Tabs) : (s.flowClear h slot r).Tabs :=
  hs.flowPutHead.updTab keeps

protected theorem State.Tabs.flowLost {h : Half} {slot : Nat} (hs : s.Tabs) : (s.flowLost h slot).Tabs := .ite hs.flowClear.report hs

protected theorem State.Tabs.flowBucket {h : Half} {first : Nat} (hs : s.Tabs) : (s.flowBucket h first).1.Tabs := by
  dsimp only [State.flowBucket]
  exact hs.hbmRead

protected theorem State.Tabs.bucketLost {h : Half} {first : Nat} (hs : s.Tabs) : (s.bucketLost h first).Tabs :=
  hs.foldl fun h1 => h1.flowLost

protected theorem State.Tabs.flowScan {h : Half} {key : Nat} {l : List Nat} (hs : s.Tabs) : (s.flowScan h key l).1.Tabs := by
  induction l generalizing s with
  | nil => exact hs
  | cons b r ih =>
    unfold State.flowScan
    split
    · next s1 e => exact (hs.flowBucket.of_fst e).bucketLost
    · next s1 l e =>
      split
      · exact hs.flowBucket.of_fst e
      · exact ih (hs.flowBucket.of_fst e)

protected theorem State.Tabs.flowSearch {h : Half} {key : Nat} (hs : s.Tabs) : (s.flowSearch h key).1.Tabs := by
  unfold State.flowSearch
  split
  · next s1 e => split <;> exact hs.flowScan.of_fst e
  · exact hs.flowScan

protected theorem State.Tabs.flowMove {h : Half} {m : Nat × Nat} (hs : s.Tabs) : (State.flowMove h s m).Tabs :=
  .flowClear (hs.flowPut.updTab keeps)

protected theorem State.Tabs.flowPlace {h : Half} {key : Nat} (hs : s.Tabs) : (s.flowPlace h key).1.Tabs := by
  dsimp only [State.flowPlace]
  split
  · exact hs.rest
  · split
    · exact hs.rest.foldl fun h1 => h1.flowMove
    · split
      · exact hs.rest
      · exact hs.rest

protected theorem State.Tabs.flowStore {h : Half} {p : Nat × Bool} {r : List Byte} (hs : s.Tabs) : (s.flowStore h p r).Tabs :=
  .ite (hs.updTab keeps) (hs.flowPut.updTab keeps)

protected theorem State.Tabs.flowTouch {h : Half} {f : FlowFound} {r : List Byte} (hs : s.Tabs) : (s.flowTouch h f r).Tabs := by
  dsimp only [State.flowTouch]
  split
  · exact hs.flowPutHead.updTab keeps
  · exact hs.updTab keeps
  · exact hs

protected theorem State.Tabs.flowRemove {h : Half} {f : FlowFound} (hs : s.Tabs) : (s.flowRemove h f).Tabs := by
  dsimp only [State.flowRemove]
  split
  · exact hs.flowClear
  · exact hs.updTab keeps
  · exact hs

protected theorem State.Tabs.doStashReturn {h : Half} {n : Nat} (hs : s.Tabs) : (doStashReturn h n s).Tabs := by
  dsimp only [doStashReturn]
  split
  · exact hs
  · refine .ite ?_ hs
    split
    · exact hs.used.flowPut.updTab keeps
    · exact hs

/-! ### Lpm -/

protected theorem State.Tabs.writeBack {h : Half} {i : Nat} (hs : s.Tabs) : (s.writeBack h i).Tabs := by
  dsimp only [State.writeBack]
  split
  · exact hs
  · refine .ite hs.hbmRead ?_
    split
    · next s2 e => exact .updTab (hs.hbmRead.hbmWrite.of_fst e) fun _ hx => TableState.wf_withCache hx (tdel_wf _ _)
    · next s2 e => exact hs.hbmRead.hbmWrite.of_fst e

protected theorem State.Tabs.countPair {h : Half} {i n : Nat} (hs : s.Tabs) : (s.countPair h i n).Tabs :=
  .updTab (.ite hs.used.writeBack hs) fun _ hx => TableState.wf_withCache hx (tput_wf _ _ _)

protected theorem State.Tabs.doWriteback {h : Half} {pair : Nat} (hs : s.Tabs) : (doWriteback h pair s).Tabs := .ite hs.writeBack hs

protected theorem State.Tabs.readSel {h : Half} {v : DWord} (hs : s.Tabs) : (s.readSel h v).Tabs := hs.updTab keeps

protected theorem State.Tabs.doReadDone {h : Half} (hs : s.Tabs) : (doReadDone h s).Tabs := by
  dsimp only [doReadDone]
  split
  · exact hs
  · refine .ite (.ite ?_ (.updTab (.setReg (.setReg (.ite hs.hbmRead.used hs.hbmRead))) keeps)) hs
    exact .updTab (.hbmWrite (.updTab (.setReg (.setReg (.ite hs.hbmRead.used hs.hbmRead))) keeps))
      fun _ hx => TableState.wf_withCache hx (tdel_wf _ _)

protected theorem State.Tabs.loseLine {h : Half} {i : Nat} (hs : s.Tabs) : (s.loseLine h i).Tabs :=
  .ite (hs.updTab fun _ hx => TableState.wf_withCache hx (tdel_wf _ _)).bump hs

protected theorem State.Tabs.doMeterRefill {h : Half} {i : Nat} (hs : s.Tabs) : (doMeterRefill h i s).Tabs := .ite hs.setMeter hs

/-! ### Shadow -/

protected theorem State.Tabs.withShadow {s0 : State} {h : Half} (hs : s.Tabs) : (State.withShadow s0 s h).Tabs := hs.updTab keeps

protected theorem State.Tabs.fromShadow {h : Half} {t i : Nat} (hs : s.Tabs) : (s.fromShadow h t i).Tabs := by
  dsimp only [State.fromShadow]
  split
  · exact hs.updTab keeps
  · exact hs.updTab keeps
  · exact hs.updTab keeps
  · exact hs.updTab keeps
  · exact hs.updTab keeps
  · exact hs.setMeter
  · exact hs.updTab keeps
  · exact hs.rest
  · exact hs.updTab keeps
  · exact hs.updTab keeps

/-! ### Inject -/

protected theorem State.Tabs.injectChain {h : Half} {v id : Nat} (hs : s.Tabs) : (s.injectChain h v id).Tabs :=
  .ite hs.bump.release (hs.updChain.updIng keeps)

protected theorem State.Tabs.injectBytes {h : Half} {v : Nat} {bytes : List Byte} (hs : s.Tabs) : (s.injectBytes h v bytes).Tabs := by
  dsimp only [State.injectBytes]
  exact hs.addChain.injectChain

protected theorem State.Tabs.postFrame {th : ThreadRef} {v : Nat} {bytes : List Byte} (hs : s.Tabs) : (s.postFrame th v bytes).Tabs :=
  .ite (hs.injectBytes.updThread keeps) (.updIng (hs.updThread keeps) keeps)

protected theorem State.Tabs.servePoster {h : Half} {th : ThreadRef} {rest : List ThreadRef} (hs : s.Tabs) :
    (s.servePoster h th rest).Tabs := by
  dsimp only [State.servePoster]
  split
  · exact .ite (.updIng (hs.injectBytes.updThread keeps) keeps) hs
  · exact hs.updIng keeps

protected theorem State.Tabs.serveLoop {h : Half} {id : Nat} {rest : List Nat} (hs : s.Tabs) : (s.serveLoop h id rest).Tabs := by
  dsimp only [State.serveLoop]
  refine .ite ?_ hs
  split
  · next s1 e => exact .injectChain ((hs.moveCharge.of_fst e).updIng keeps)
  · exact hs

protected theorem State.Tabs.doInjectEntry {h : Half} (hs : s.Tabs) : (doInjectEntry h s).Tabs := by
  dsimp only [doInjectEntry]
  split
  · exact hs.servePoster
  · split
    · exact hs.serveLoop
    · exact hs

/-! ### Ingress -/

protected theorem State.Tabs.xoffDue {p : PortIx} {prio : Nat} (hs : s.Tabs) : (s.xoffDue p prio).Tabs :=
  hs.updIng fun _ hx => ⟨tset_wf _ _ _ _ hx.1, tset_wf _ _ _ _ hx.2⟩

protected theorem State.Tabs.xonDue {p : PortIx} {prio : Nat} (hs : s.Tabs) : (s.xonDue p prio).Tabs :=
  hs.updIng fun _ hx => ⟨tset_wf _ _ _ _ hx.1, tset_wf _ _ _ _ hx.2⟩

protected theorem State.Tabs.setLevel {p : PortIx} {prio n : Nat} (hs : s.Tabs) : (s.setLevel p prio n).Tabs := by
  dsimp only [State.setLevel]
  exact .ite (.xoffDue (hs.updIng keeps)) (.ite (.xonDue (hs.updIng keeps)) (hs.updIng keeps))

protected theorem State.Tabs.setArriving {p : PortIx} {f : RxFrame} (hs : s.Tabs) : (s.setArriving p f).Tabs := hs.updIng keeps

protected theorem State.Tabs.noArriving {p : PortIx} (hs : s.Tabs) : (s.noArriving p).Tabs := hs.updIng keeps

protected theorem State.Tabs.doFrameStart {p : PortIx} (hs : s.Tabs) : (doFrameStart p s).Tabs :=
  .ite (.setArriving (hs.used.updIng keeps)) hs

protected theorem State.Tabs.leaveRxq {h : Half} {f : RxFrame} (hs : s.Tabs) : (s.leaveRxq h f).Tabs := by
  dsimp only [State.leaveRxq]
  split
  · exact hs.setLevel
  · exact hs

protected theorem State.Tabs.dropFrame {h : Half} {f : RxFrame} (hs : s.Tabs) : (s.dropFrame h f).Tabs := by
  dsimp only [State.dropFrame]
  split
  · exact hs.leaveRxq.release
  · exact hs.leaveRxq

protected theorem State.Tabs.cutFrame {p : PortIx} {f : RxFrame} {ctr : Nat} (hs : s.Tabs) : (s.cutFrame p f ctr).Tabs :=
  hs.dropFrame.bump.setArriving

protected theorem State.Tabs.takeRxCell {h : Half} {f : RxFrame} {p : State × RxFrame} (hs : s.Tabs)
    (e : s.takeRxCell h f = some p) : p.1.Tabs := by
  unfold State.takeRxCell at e
  split at e
  · split at e
    · cases e; exact hs.addChain
    · cases e; exact hs.growChain
  · cases e

protected theorem State.Tabs.assignPrio {p : PortIx} {f : RxFrame} (hs : s.Tabs) : (s.assignPrio p f).Tabs := by
  dsimp only [State.assignPrio]
  exact .ite hs.cutFrame hs.setArriving.setLevel

protected theorem State.Tabs.doRxByte {p : PortIx} {b : Byte} (hs : s.Tabs) : (doRxByte p s b).Tabs := by
  dsimp only [doRxByte]
  split
  · exact hs
  · refine .ite hs ?_
    refine .ite hs.cutFrame ?_
    refine .ite ?_ (.ite hs.assignPrio hs.setArriving)
    split
    · exact hs.cutFrame
    · next s1 f1 e =>
        split
        · exact .ite ((hs.takeRxCell e).setLevel.assignPrio) ((hs.takeRxCell e).setLevel.setArriving)
        · exact .ite ((hs.takeRxCell e).assignPrio) ((hs.takeRxCell e).setArriving)

protected theorem State.Tabs.doFrameBytes {p : PortIx} {bytes : List Byte} (hs : s.Tabs) : (doFrameBytes p bytes s).Tabs :=
  .ite (hs.foldl fun h1 => h1.doRxByte) hs

protected theorem State.Tabs.acceptFrame {p : PortIx} {f : RxFrame} (hs : s.Tabs) : (s.acceptFrame p f).Tabs := by
  dsimp only [State.acceptFrame]
  refine .updIng ?_ keeps
  split
  · exact hs.bump.bumpBy.updChain
  · exact hs.bump.bumpBy

protected theorem State.Tabs.countFec {p : PortIx} (hs : s.Tabs) : (s.countFec p).Tabs := .ite hs.used.used.bumpBy.bumpBy hs

protected theorem State.Tabs.doFrameEnd {p : PortIx} {pcsError : Bool} (hs : s.Tabs) : (doFrameEnd p pcsError s).Tabs := by
  dsimp only [doFrameEnd]
  refine .ite ?_ hs
  split
  · exact hs
  · refine .ite hs.countFec.noArriving ?_
    split
    · exact .ite (hs.countFec.noArriving.dropFrame.bump.updIng keeps) hs.countFec.noArriving.dropFrame.bump
    · exact hs.countFec.noArriving.acceptFrame

protected theorem State.Tabs.abortRx {p : PortIx} (hs : s.Tabs) : (s.abortRx p).Tabs := by
  dsimp only [State.abortRx]
  split
  · exact hs
  · exact .ite hs.noArriving hs.noArriving.dropFrame.bump

protected theorem State.Tabs.doPfcRefresh {p : PortIx} {prio : Nat} (hs : s.Tabs) : (doPfcRefresh p prio s).Tabs := by
  dsimp only [doPfcRefresh]
  split
  · exact .ite hs.xoffDue hs
  · exact hs

protected theorem State.Tabs.doPfcTransmit {p : PortIx} (hs : s.Tabs) : (doPfcTransmit p s).Tabs :=
  .ite (hs.updIng fun _ hx => ⟨tdel_wf _ _ hx.1, tdel_wf _ _ hx.2⟩).bump hs

protected theorem State.Tabs.pfcClass {p : PortIx} {e q : Nat} (hs : s.Tabs) : (s.pfcClass p e q).Tabs :=
  .ite (hs.updIng keeps) (.withdraw (hs.updIng keeps))

protected theorem State.Tabs.doPfcReceive {p : PortIx} (hs : s.Tabs) : (doPfcReceive p s).Tabs := by
  dsimp only [doPfcReceive]
  split
  · exact hs
  · exact .schedRefresh (.foldl (hs.updIng keeps) fun h1 => .ite h1.pfcClass h1)

protected theorem State.Tabs.doPfcExpire {p : PortIx} {prio : Nat} (hs : s.Tabs) : (doPfcExpire p prio s).Tabs := by
  dsimp only [doPfcExpire]
  split
  · exact .ite (.withSched hs (fun h1 => h1.updIng keeps)) hs
  · exact hs

/-! ### Classify -/

protected theorem State.Tabs.dropRed {h : Half} {f : RxFrame} (hs : s.Tabs) : (s.dropRed h f).Tabs := by
  dsimp only [State.dropRed]
  split
  · exact hs.dropFrame.bump
  · exact hs.dropFrame

protected theorem State.Tabs.ingressMeter {h : Half} {f : RxFrame} {w ind : Nat} (hs : s.Tabs) : (s.ingressMeter h f w ind).1.Tabs := by
  dsimp only [State.ingressMeter]
  exact .ite_fst (.ite_fst hs.fillMeter.used hs.chargeMeter) hs

protected theorem State.Tabs.examineFrom {h : Half} {key : List Byte} {p : Nat} (hs : s.Tabs) : (s.examineFrom h key p).Tabs :=
  .ite (hs.updTab keeps) hs

protected theorem State.Tabs.learnFrom {h : Half} {f : RxFrame} {key : List Byte} (hs : s.Tabs) : (s.learnFrom h f key).Tabs := by
  dsimp only [State.learnFrom]
  refine .examineFrom ?_
  split
  · exact hs.updChain
  · exact hs

protected theorem State.Tabs.finishClassify {h : Half} {f : RxFrame} {e : ParseEnd} (hs : s.Tabs) : (s.finishClassify h f e).Tabs := by
  dsimp only [State.finishClassify]
  exact .ite
    (.dropRed (.updIng (.ingressMeter (.ite hs.learnFrom hs.learnFrom.bump)) keeps))
    (.updIng (.ingressMeter (.ite hs.learnFrom hs.learnFrom.bump)) keeps)

protected theorem State.Tabs.doClassify {h : Half} (hs : s.Tabs) : (doClassify h s).Tabs := by
  dsimp only [doClassify]
  refine .ite ?_ hs
  split
  · exact hs
  · exact .ite (.updIng (.bump (hs.updIng keeps)) keeps) (.ite hs (.finishClassify (hs.updIng keeps)))

protected theorem State.Tabs.doSecondPass {h : Half} (hs : s.Tabs) : (doSecondPass h s).Tabs := by
  dsimp only [doSecondPass]
  split
  · exact .ite hs.finishClassify hs
  · exact hs

/-! ### TaskMake -/

protected theorem State.Tabs.noteMove {h : Half} {t : TileIx} {ind born : Nat} (hs : s.Tabs) : (s.noteMove h t ind born).Tabs :=
  .updIng (.ite hs.bump hs) keeps

protected theorem State.Tabs.setDomWin {h : Half} {d : Nat} {l : List (Nat × Nat)} (hs : s.Tabs) : (s.setDomWin h d l).Tabs := hs.rest

protected theorem State.Tabs.releaseUpTo {h : Half} {n : Nat} (hs : s.Tabs) : (s.releaseUpTo h n).Tabs := by
  induction n generalizing s with
  | zero => exact hs
  | succ n ih =>
    unfold State.releaseUpTo
    split
    · exact hs
    · split
      · exact hs
      · exact ih hs.setDomWin.releaseOrdered

protected theorem State.Tabs.overtake {h : Half} {d ctr : Nat} (hs : s.Tabs) : (s.overtake h d ctr).Tabs := by
  dsimp only [State.overtake]
  split
  · exact hs
  · exact .bump (hs.setDomWin.updTask keeps)

protected theorem State.Tabs.makeRoom {h : Half} {d : Nat} (hs : s.Tabs) : (s.makeRoom h d).Tabs := by
  dsimp only [State.makeRoom]
  split
  · exact hs
  · exact .ite (.ite hs.setDomWin.releaseOrdered hs.overtake.releaseUpTo) hs

protected theorem State.Tabs.joinWindow {h : Half} {t : TileIx} {k : Nat} (hs : s.Tabs) : (s.joinWindow h t k).Tabs := hs.setDomWin

protected theorem State.Tabs.createTask {h : Half} {t : TileIx} {k : Nat} {redirect : Bool} {c : ClsFrame} (hs : s.Tabs) :
    (s.createTask h t k redirect c).Tabs := by
  unfold State.createTask
  extract_lets x s1 s2 s3 s4 s5 s6
  have hx : x.savedWf := Task.savedWf_setDc rfl
  have h0 : s2.Tabs := (hs.updTask fun _ _ => hx).updTile fun _ hx => Tile.wf_put (Tile.wf_put hx)
  have h1 : s4.Tabs := .ite h0.bump.bump h0.bump
  have h2 : s5.Tabs := .ite h1.noteMove (h1.updIng keeps)
  have h3 : s6.Tabs := .ite h2.makeRoom.joinWindow h2
  exact h3.leaveRxq.updIng keeps

protected theorem State.Tabs.doTaskCreate {h : Half} (hs : s.Tabs) : (doTaskCreate h s).Tabs := by
  dsimp only [doTaskCreate]
  split
  · exact hs
  · refine .ite ?_ hs
    split
    · exact hs
    · exact hs.used.createTask

protected theorem State.Tabs.svcPost {h : Half} {t : TileIx} {j : Nat} {m : Word} (hs : s.Tabs) : (s.svcPost h t j m).Tabs :=
  .ite hs.setReg hs

protected theorem State.Tabs.svcEvent {h : Half} {v : DWord} (hs : s.Tabs) : (s.svcEvent h v).Tabs := .ite hs.svcPost hs

protected theorem State.Tabs.svcConfig {h : Half} {t : TileIx} {j : Nat} {v : DWord} (hs : s.Tabs) : (s.svcConfig h t j v).Tabs :=
  .ite (hs.setReg.updTile fun _ => Tile.wf_put) hs.setReg

protected theorem State.Tabs.doConfluence {h : Half} (hs : s.Tabs) : (doConfluence h s).Tabs := .ite hs.releaseUpTo hs

protected theorem State.Tabs.checkDomain {h : Half} {d : Nat} (hs : s.Tabs) : (State.checkDomain h s d).Tabs := by
  dsimp only [State.checkDomain]
  split
  · exact hs
  · exact .ite hs.overtake hs

protected theorem State.Tabs.doPatience {h : Half} (hs : s.Tabs) : (doPatience h s).Tabs :=
  .ite (.ite (hs.foldl fun h1 => h1.checkDomain) (.releaseUpTo (hs.foldl fun h1 => h1.checkDomain))) hs

protected theorem State.Tabs.doOldestLive {h : Half} (hs : s.Tabs) : (doOldestLive h s).Tabs := .ite hs.setReg hs

protected theorem State.Tabs.imgCtl {h : Half} {arm disarm : Bool} (hs : s.Tabs) : (s.imgCtl h arm disarm).Tabs :=
  .ite (.ite hs.setRfld hs) (.ite (.ite (hs.setRfld.updIng keeps) hs.setRfld) hs)

protected theorem State.Tabs.doImgSwitch {h : Half} (hs : s.Tabs) : (doImgSwitch h s).Tabs := .ite (hs.setRfld.setRfld.updIng keeps) hs

protected theorem State.Tabs.doImgDrainEnd {h : Half} (hs : s.Tabs) : (doImgDrainEnd h s).Tabs := .ite hs.setRfld hs

/-! ### Batch -/

protected theorem State.Tabs.updEntries {h : Half} {t : Nat} {f : Tbl Nat → Tbl Nat} (hs : s.Tabs) : (s.updEntries h t f).Tabs := by
  dsimp only [State.updEntries]
  split
  · exact hs.rest
  · exact hs.updTab keeps
  · exact hs.updTab keeps

protected theorem State.Tabs.notePeak {h : Half} (hs : s.Tabs) : (s.notePeak h).Tabs := .ite hs.setRfld hs

protected theorem State.Tabs.touchEntries {h : Half} {b : Nat} {ts : List Touch} {key : Option (Nat × Nat)} (hs : s.Tabs) :
    (s.touchEntries h b ts key).Tabs := hs.updSlot

protected theorem State.Tabs.exRetire {h : Half} {b tid key : Nat} (hs : s.Tabs) : (s.exRetire h b tid key).Tabs := by
  dsimp only [State.exRetire]
  split
  · exact hs.setEx.touchEntries
  · exact hs

protected theorem State.Tabs.exInsert {h : Half} {b : Nat} {r : BatchRec} (hs : s.Tabs) : (s.exInsert h b r).Tabs := by
  dsimp only [State.exInsert]
  split
  · next s1 i e => exact (hs.exSlot.of_fst e).setEx.touchEntries
  · next s1 e => exact hs.exSlot.of_fst e

protected theorem State.Tabs.learnInsert {h : Half} {b : Nat} {r : BatchRec} (hs : s.Tabs) : (s.learnInsert h b r).Tabs := by
  dsimp only [State.learnInsert]
  refine .ite hs.bump ?_
  split
  · exact hs.setEx.touchEntries
  · split
    · next s1 i e => exact (hs.exSlot.of_fst e).setEx.touchEntries
    · next s1 e => exact (hs.exSlot.of_fst e).bump

protected theorem State.Tabs.applyExact {h : Half} {b : Nat} {r : BatchRec} (hs : s.Tabs) : (s.applyExact h b r).Tabs :=
  .ite hs.learnInsert (.touchEntries (.exRetire (.ite hs hs.exInsert)))

protected theorem State.Tabs.applyRoute {h : Half} {b : Nat} {r : BatchRec} (hs : s.Tabs) : (s.applyRoute h b r).Tabs :=
  .touchEntries (hs.updTab keeps)

protected theorem State.Tabs.applyIndexed {h : Half} {b : Nat} {r : BatchRec} (hs : s.Tabs) : (s.applyIndexed h b r).Tabs :=
  .touchEntries (.ite (.ite hs.updEntries hs.updEntries) (.ite hs.setMeter (hs.updTab fun _ => TableState.wf_setIndexed)))

protected theorem State.Tabs.applyRec {h : Half} {b : Nat} {r : BatchRec} (hs : s.Tabs) : (s.applyRec h b r).Tabs :=
  .notePeak (.ite hs.applyExact (.ite hs.applyRoute hs.applyIndexed))

protected theorem State.Tabs.forgetWithheld {h : Half} {t i : Nat} (hs : s.Tabs) : (s.forgetWithheld h t i).Tabs :=
  .ite (.rest (hs.updTab keeps)) (hs.updTab keeps)

protected theorem State.Tabs.settle {h : Half} {b : Nat} {walk : Bool} {t : Touch} (hs : s.Tabs) : (s.settle h b walk t).Tabs := by
  dsimp only [State.settle]
  split
  · split
    · exact .ite hs (.ite hs.dropEx.forgetWithheld hs.setEx)
    · exact hs
  · refine .ite ?_ (.ite hs.setMeter (hs.updTab fun x hx => ?_))
    · split
      · exact .ite hs.updEntries.forgetWithheld hs.updEntries
      · exact hs
    · split
      · exact TableState.wf_setIndexed hx
      · exact hx
  · exact hs.updTab keeps
  · exact hs.updTab keeps
  · exact hs.updTab keeps

protected theorem State.Tabs.buildEnds {h : Half} {b : Nat} (hs : s.Tabs) : (s.buildEnds h b).Tabs := hs.updTab keeps

protected theorem State.Tabs.undone {h : Half} {b : Nat} (hs : s.Tabs) : (s.undone h b).Tabs := .ite hs.updSlot hs.updSlot.bump.buildEnds

protected theorem State.Tabs.startUndo {h : Half} {b : Nat} {abort : Bool} (hs : s.Tabs) : (s.startUndo h b abort).Tabs :=
  .ite hs.updSlot.undone hs.updSlot

protected theorem State.Tabs.refuseRec {h : Half} {b reason : Nat} (hs : s.Tabs) : (s.refuseRec h b reason).Tabs := hs.updSlot.startUndo

protected theorem State.Tabs.postSlot {h : Half} {b : Nat} {e : DWord} (hs : s.Tabs) : (s.postSlot h b e).Tabs :=
  .ite hs.updSlot (.ite hs.updSlot hs.updSlot)

protected theorem State.Tabs.buildDone {h : Half} {b : Nat} (hs : s.Tabs) : (s.buildDone h b).Tabs := by
  dsimp only [State.buildDone]
  split
  · exact hs.updSlot.buildEnds.postSlot
  · exact hs.updSlot.buildEnds

protected theorem State.Tabs.nextRec {h : Half} {x : BatchSlot} (hs : s.Tabs) : (s.nextRec h x).1.Tabs := by
  dsimp only [State.nextRec]
  exact .ite_fst hs (.ite_fst hs.hbmRead hs.hbmRead.hbmRead)

protected theorem State.Tabs.doRecordApply {h : Half} (hs : s.Tabs) : (doRecordApply h s).Tabs := by
  dsimp only [doRecordApply]
  split
  · exact hs
  · refine .ite hs ?_
    refine .ite hs.buildDone ?_
    split
    · next s1 e => exact (hs.nextRec.of_fst e).refuseRec
    · next s1 r total e =>
        exact .ite ((hs.nextRec.of_fst e).refuseRec)
          (.ite ((hs.nextRec.of_fst e).applyRec.updSlot.buildDone) ((hs.nextRec.of_fst e).applyRec.updSlot))

protected theorem State.Tabs.doUndoStep {h : Half} {b : Nat} (hs : s.Tabs) : (doUndoStep h b s).Tabs := by
  dsimp only [doUndoStep]
  refine .ite hs ?_
  split
  · exact hs.undone
  · exact .ite hs.settle.updSlot.undone hs.settle.updSlot

protected theorem State.Tabs.retired {h : Half} {b : Nat} (hs : s.Tabs) : (s.retired h b).Tabs := hs.updSlot.bump

protected theorem State.Tabs.doRetireStart {h : Half} {b : Nat} (hs : s.Tabs) : (doRetireStart h b s).Tabs :=
  .ite (.ite hs.retired hs.updSlot) hs

protected theorem State.Tabs.doRetireWalk {h : Half} {b : Nat} (hs : s.Tabs) : (doRetireWalk h b s).Tabs := by
  dsimp only [doRetireWalk]
  refine .ite hs ?_
  split
  · exact hs.retired
  · exact .ite hs.settle.updSlot.retired hs.settle.updSlot

protected theorem State.Tabs.cmdIgnored {h : Half} (hs : s.Tabs) : (s.cmdIgnored h).Tabs := hs.bump

protected theorem State.Tabs.buildCmd {h : Half} {b : Nat} {post : Bool} (hs : s.Tabs) : (s.buildCmd h b post).Tabs :=
  .ite (hs.updSlot.updTab keeps) hs.cmdIgnored

protected theorem State.Tabs.batchCmd {h : Half} {b cmd : Nat} (hs : s.Tabs) : (s.batchCmd h b cmd).Tabs := by
  dsimp only [State.batchCmd]
  split
  · exact hs.buildCmd
  · exact .ite hs.postSlot hs.cmdIgnored
  · exact hs.buildCmd
  · exact .ite hs.startUndo hs.cmdIgnored
  · exact .ite hs.updSlot hs.cmdIgnored
  · exact hs

protected theorem State.Tabs.versionEnds {h : Half} (hs : s.Tabs) : (s.versionEnds h).Tabs :=
  .updTab (hs.foldl fun h1 => .ite (.updSlot (h1.foldl fun h2 => h2.settle)) h1) keeps

/-! ### Assoc -/

protected theorem State.Tabs.updAssoc {h : Half} {f : AssocState → AssocState} (hs : s.Tabs) : (s.updAssoc h f).Tabs := hs.rest

protected theorem State.Tabs.setBankStat {h : Half} {v : DWord} (hs : s.Tabs) : (s.setBankStat h v).Tabs := hs.setReg.withPv rfl

protected theorem State.Tabs.bankFails {h : Half} {b : Nat} (hs : s.Tabs) : (s.bankFails h b).Tabs :=
  .ite hs.updAssoc.setBankStat.report hs.updAssoc.setBankStat.report

protected theorem State.Tabs.doAssocScrub {h : Half} {i : Nat} {ecc : EccOutcome} {found : Bool} (hs : s.Tabs) :
    (doAssocScrub h i ecc found s).Tabs := by
  dsimp only [doAssocScrub]
  refine .ite hs ?_
  split
  · exact .ite hs.report.bump.updAssoc.bankFails hs.report.bump.updAssoc
  · exact .ite (.bankFails (.ite hs.report.bump hs)) (.ite hs.report.bump hs)

protected theorem State.Tabs.doAssocRepaired {h : Half} {i : Nat} (hs : s.Tabs) : (doAssocRepaired h i s).Tabs :=
  .ite hs.fromShadow.updAssoc hs

protected theorem State.Tabs.doSpareFilled {h : Half} (hs : s.Tabs) : (doSpareFilled h s).Tabs := .ite hs.setRfld hs

/-! ### Bramble -/

protected theorem State.Tabs.countScan {h : Half} {t : TileIx} {n m : Nat} {incomplete : Bool} (hs : s.Tabs) :
    (s.countScan h t n m incomplete).Tabs := by
  unfold State.countScan
  extract_lets b s1 s2
  have h1 : s2.Tabs := .ite hs.bump.bumpBy.bump hs.bump.bumpBy
  exact .ite h1.bump h1

protected theorem State.Tabs.doScanStart {h : Half} {t : TileIx} (hs : s.Tabs) : (doScanStart h t s).Tabs := by
  dsimp only [doScanStart]
  refine .ite ?_ hs
  split
  · exact .updTask (hs.updTile keeps) keeps
  · exact hs

protected theorem State.Tabs.doScanEnd {h : Half} {t : TileIx} {k : Nat} (hs : s.Tabs) : (doScanEnd h t k s).Tabs :=
  .ite (.dcDown (.countScan (.updTask (hs.updTile fun _ hx => Tile.wf_put (Tile.wf_put hx)) keeps))) hs

protected theorem State.Tabs.doBrambleScrub {h : Half} {t : TileIx} {p : Nat} {ecc : EccOutcome} (hs : s.Tabs) :
    (doBrambleScrub h t p ecc s).Tabs := by
  dsimp only [doBrambleScrub]
  refine .ite ?_ hs
  split
  · exact hs
  · exact hs.report
  · exact .report (hs.updTile keeps)

protected theorem State.Tabs.doBrambleReload {h : Half} {t : TileIx} {p : Nat} (hs : s.Tabs) : (doBrambleReload h t p s).Tabs :=
  .ite (hs.updTile keeps) hs

/-! ### Link -/

protected theorem State.Tabs.checkPortCfg {p : PortIx} (hs : s.Tabs) : (s.checkPortCfg p).Tabs := .ite hs.setRfld hs

protected theorem State.Tabs.doAttemptEnd {p : PortIx} {ok : Bool} {mode : Nat} (hs : s.Tabs) : (doAttemptEnd p ok mode s).Tabs :=
  .ite hs (.ite hs.checkPortCfg (.ite hs (.ite (.portReturns (.setReg (.ite hs.calApply hs))) hs)))

protected theorem State.Tabs.dropLink {p : PortIx} (hs : s.Tabs) : (s.dropLink p).Tabs := hs.abortRx.setReg.portFalls

protected theorem State.Tabs.doLinkDown {p : PortIx} (hs : s.Tabs) : (doLinkDown p s).Tabs := .ite hs.dropLink hs

protected theorem State.Tabs.doRemoteFault {p : PortIx} {on : Bool} (hs : s.Tabs) : (doRemoteFault p on s).Tabs := .ite hs.setRfld hs

/-! ### Ring -/

protected theorem State.Tabs.ringPut {h : Half} {r : Nat} {req : HbmReq} {f : RingFrame} (hs : s.Tabs) : (s.ringPut h r req f).Tabs := by
  dsimp only [State.ringPut]
  exact .ite
    (.ite (.setEv (.setReg (.hbmWrite (.ite_fst hs hs.hbmWrite)))) (.setReg (.hbmWrite (.ite_fst hs hs.hbmWrite))))
    (.hbmWrite (.ite_fst hs hs.hbmWrite))

protected theorem State.Tabs.p129Tick (hs : s.Tabs) : s.p129Tick.Tabs := .ite (hs.withPv rfl) hs

protected theorem State.Tabs.ringSizeWrite {h : Half} {r : Nat} (hs : s.Tabs) : (s.ringSizeWrite h r).Tabs := hs.setRfld.setRfld

/-! ### Egress -/

protected theorem State.Tabs.bumpTx {h : Half} {lp m n : Nat} (hs : s.Tabs) : (s.bumpTx h lp m n).Tabs := hs.bumpBy

protected theorem State.Tabs.selectHead {h : Half} {q : Nat} {e : QEntry} {rest : List QEntry} (hs : s.Tabs) :
    (s.selectHead h q e rest).Tabs := .updSched (.setSels (.withSched hs (fun h1 => h1.selectTags.setQueue)))

protected theorem State.Tabs.dropHead {h : Half} {q : Nat} {e : QEntry} {rest : List QEntry} (hs : s.Tabs) :
    (s.dropHead h q e rest).Tabs := .release (.withSched hs (fun h1 => h1.setQueue))

protected theorem State.Tabs.doSchedSelect {h : Half} {lp : Nat} (hs : s.Tabs) : (doSchedSelect h lp s).Tabs := by
  dsimp only [doSchedSelect]
  refine .ite ?_ hs
  refine .ite ?_ hs.schedRefresh
  split
  · exact hs.schedRefresh
  · split
    · exact hs.schedRefresh
    · exact .ite hs.schedRefresh
        (.ite
           (.errorDrop (.withSched hs.schedRefresh (fun h1 => h1.setQueue)))
           (.ite hs.schedRefresh.dropHead.bumpTx hs.schedRefresh.selectHead))

protected theorem State.Tabs.rewriteBytes {h : Half} {lp : Nat} {e : QEntry} (hs : s.Tabs) : (s.rewriteBytes h lp e).1.Tabs := by
  dsimp only [State.rewriteBytes]
  refine .ite_fst ?_ ?_
  · split
    · refine .bumpTx ?_
      refine .ite_fst ?_ hs
      split
      · exact hs
      · exact hs.bumpTx
    · refine .bumpTx ?_
      refine .ite_fst ?_ hs
      split
      · exact hs
      · exact hs.bumpTx
  · refine .ite_fst ?_ hs
    split
    · exact hs
    · exact hs.bumpTx

protected theorem State.Tabs.doRewrite {h : Half} {lp : Nat} (hs : s.Tabs) : (doRewrite h lp s).Tabs := by
  dsimp only [doRewrite]
  split
  · exact hs
  · exact .ite hs (.ite hs.setSels.errorDrop hs.rewriteBytes.setSels)

protected theorem State.Tabs.capture {p : PortIx} {g : List Byte} {o tx : Nat} (hs : s.Tabs) : (s.capture p g o tx).Tabs := by
  dsimp only [State.capture]
  exact .ite hs.setRfld (hs.updIng keeps)

protected theorem State.Tabs.ptpOp {p : PortIx} {d : ODesc} {g : List Byte} (hs : s.Tabs) : (s.ptpOp p d g).1.Tabs := by
  dsimp only [State.ptpOp]
  split
  · exact hs
  · refine .ite_fst ?_ hs
    split
    · exact hs.capture
    · exact hs
    · exact hs

protected theorem State.Tabs.popTxts {p : PortIx} (hs : s.Tabs) : (s.popTxts p).Tabs := hs.updIng keeps

protected theorem State.Tabs.telemPut {h : Half} {bs : List Byte} (hs : s.Tabs) : (s.telemPut h bs).Tabs := by
  dsimp only [State.telemPut]
  refine .ite hs.bump ?_
  split
  · next s1 e => exact hs.hbmWrite.of_fst e
  · next s1 e => exact .ite (.svcEvent (.bump (.setRfld (hs.hbmWrite.of_fst e)))) (.bump (.setRfld (hs.hbmWrite.of_fst e)))

protected theorem State.Tabs.telemetry {h : Half} {lp : Nat} {f : Sel} (hs : s.Tabs) : (s.telemetry h lp f).Tabs :=
  .ite (.ite hs.updSched hs.telemPut) hs

protected theorem State.Tabs.telemTick {h : Half} (hs : s.Tabs) : (s.telemTick h).Tabs := by
  dsimp only [State.telemTick]
  split
  · exact hs
  · exact .ite hs hs.updSched.telemPut

protected theorem State.Tabs.telemSizeWrite {h : Half} (hs : s.Tabs) : (s.telemSizeWrite h).Tabs := hs.setRfld.setRfld

protected theorem State.Tabs.firstBit {h : Half} {lp : Nat} {f : Sel} (hs : s.Tabs) : (s.firstBit h lp f).Tabs :=
  .telemetry (.ite hs.bumpTx.bumpTx.bumpTx hs.bumpTx.bumpTx)

protected theorem State.Tabs.loopChain {h : Half} {id : Nat} {g : List Byte} (hs : s.Tabs) : (s.loopChain h id g).1.Tabs := by
  dsimp only [State.loopChain]
  refine .ite_fst (.ite (.growChain ?_) ?_) hs.addChain
  all_goals
    refine hs.updBuf fun b hb => ?_
    split
    · exact tput_wf _ _ _ hb
    · exact hb

protected theorem State.Tabs.doTransmit {h : Half} {lp : Nat} (hs : s.Tabs) : (doTransmit h lp s).Tabs := by
  dsimp only [doTransmit]
  split
  · exact hs
  · exact .ite hs
      (.ite hs
         (.ite hs.setSels.errorDrop
            (.ite hs.firstBit.ptpOp.setSels
               (.ite (.updIng (.ite hs.firstBit.setSels.loopChain hs.firstBit.setSels.loopChain.release) keeps) hs.firstBit.setSels.rest))))

protected theorem State.Tabs.doReadEnd {h : Half} {lp : Nat} (hs : s.Tabs) : (doReadEnd h lp s).Tabs := by
  dsimp only [doReadEnd]
  split
  · exact hs
  · exact .ite hs.setSels.bumpPort.release (.ite hs.setSels.errorDrop hs.setSels.release)

protected theorem State.Tabs.doFrameOut {h : Half} {lp : Nat} (hs : s.Tabs) : (doFrameOut h lp s).Tabs := .ite hs hs.setSels

protected theorem State.Tabs.doRingDeliver {h : Half} {v : Fin 2} (hs : s.Tabs) : (doRingDeliver h v s).Tabs := by
  dsimp only [doRingDeliver]
  split
  · exact hs
  · exact .ite hs (.ite hs.setSels.errorDrop (.release (.setSels (.ite hs.firstBit.ringPut (hs.firstBit.withPv rfl)))))

protected theorem State.Tabs.doShaperRefill {h : Half} {level : Fin 3} {i : Nat} (hs : s.Tabs) : (doShaperRefill h level i s).Tabs :=
  .ite hs.setBucket.schedRefresh hs

protected theorem State.Tabs.schedTickPort {h : Half} {lp : Nat} (hs : s.Tabs) : (State.schedTickPort h s lp).Tabs :=
  .ite (.bumpTx (.ite hs.bumpTx hs)) (.ite hs.bumpTx hs)

/-! ### Ford -/

protected theorem State.Tabs.updFord {h : Half} {f : FordState → FordState} (hs : s.Tabs) : (s.updFord h f).Tabs := hs.rest

protected theorem State.Tabs.endCrossing {h : Half} {id : Nat} (hs : s.Tabs) : (s.endCrossing h id).Tabs := hs.rest.updFord.release

protected theorem State.Tabs.doCrossSend {h : Half} (hs : s.Tabs) : (doCrossSend h s).Tabs := by
  dsimp only [doCrossSend]
  split
  · exact hs
  · exact .ite (.ite hs.pointerFault.bumpPort.endCrossing hs.updFord.updFord.bump) hs

protected theorem State.Tabs.takeCrossing {h : Half} {r : CrossRec} (hs : s.Tabs) : (s.takeCrossing h r).Tabs := by
  dsimp only [State.takeCrossing]
  refine .ite ?_ hs.bump
  split
  · exact hs.addChain.rest.updBuf keeps
  · exact hs.addChain.rest.updBuf keeps

protected theorem State.Tabs.doCrossReceipt {h : Half} (hs : s.Tabs) : (doCrossReceipt h s).Tabs := by
  dsimp only [doCrossReceipt]
  split
  · exact hs
  · exact .ite hs.updFord.takeCrossing.examineFrom.updFord.bump hs

protected theorem State.Tabs.doCrossAck {h : Half} (hs : s.Tabs) : (doCrossAck h s).Tabs := by
  dsimp only [doCrossAck]
  split
  · exact hs
  · exact .ite hs.updFord.endCrossing hs.updFord

protected theorem State.Tabs.doNoticeSend {h : Half} (hs : s.Tabs) : (doNoticeSend h s).Tabs := .ite hs.updFord hs

protected theorem State.Tabs.doNoticeReceive {h : Half} (hs : s.Tabs) : (doNoticeReceive h s).Tabs := by
  dsimp only [doNoticeReceive]
  split
  · exact hs
  · exact hs.updFord.rest.updTab keeps

protected theorem State.Tabs.doHeartbeatSend {h : Half} (hs : s.Tabs) : (doHeartbeatSend h s).Tabs := .ite hs.updFord hs

protected theorem State.Tabs.doHeartbeatReceive {h : Half} (hs : s.Tabs) : (doHeartbeatReceive h s).Tabs := by
  dsimp only [doHeartbeatReceive]
  split
  · exact hs
  · exact hs.updFord

protected theorem State.Tabs.doFatalNotice {h : Half} (hs : s.Tabs) : (doFatalNotice h s).Tabs := .ite hs.updFord hs

protected theorem State.Tabs.unavailableH1 (hs : s.Tabs) : s.unavailableH1.Tabs := by
  unfold State.unavailableH1
  extract_lets give
  have hg (x : Thread) (hx : x.wf = true) : (give x).wf = true := by
    dsimp only [give]
    split
    · split
      · exact Thread.wf_setG hx
      · exact hx
    · exact hx
  exact ⟨hs.tiles.upd fun _ hts => tilesWf_map hts fun _ hx => Tile.wf_mapThreads hx fun e => hg e.2,
    hs.cc.upd fun _ hx => CcState.wf_mapThreads hx fun e => hg e.2, hs.ing, hs.chains, hs.locks, hs.tab, hs.slots, hs.user⟩

protected theorem State.Tabs.runFree (hs : s.Tabs) : s.runFree.Tabs := hs.rest

protected theorem State.Tabs.losePeerWork {h : Half} (hs : s.Tabs) : (s.losePeerWork h).Tabs := by
  unfold State.losePeerWork
  extract_lets f s1 s2
  have h1 : s2.Tabs := hs.bump.updFord.foldl fun h1 => h1.endCrossing.bump
  exact .updTime (.ite h1.dropHalfLocks h1.unavailableH1)

protected theorem State.Tabs.losePeer {h : Half} (hs : s.Tabs) : (s.losePeer h).Tabs := hs.report.losePeerWork

protected theorem State.Tabs.doPeerLost {h : Half} (hs : s.Tabs) : (doPeerLost h s).Tabs := .ite hs.losePeer hs

protected theorem State.Tabs.holdBasis {h : Half} {v : Nat} (hs : s.Tabs) : (s.holdBasis h v).Tabs := hs.setReg.updTab keeps

protected theorem State.Tabs.doPeerUp {h : Half} (hs : s.Tabs) : (doPeerUp h s).Tabs := .ite (.updFord (.ite hs.holdBasis hs)) hs

protected theorem State.Tabs.useSpare {h : Half} {b lane : Nat} (hs : s.Tabs) : (s.useSpare h b lane).Tabs := hs.updFord.withPv rfl

protected theorem State.Tabs.doFordTrained {h : Half} {failed : List (Nat × Nat)} (hs : s.Tabs) : (doFordTrained h failed s).Tabs :=
  .ite (.setReg (.used (.withPv (.updFord (hs.foldl fun h1 => h1.useSpare)) rfl))) hs

protected theorem State.Tabs.doFordFlit {h : Half} {x : FordFlit} (hs : s.Tabs) : (doFordFlit h x s).Tabs :=
  .ite (.ite hs.updFord hs.bump) hs

protected theorem State.Tabs.fordFallsWork {h : Half} (hs : s.Tabs) : (s.fordFallsWork h).Tabs := hs.runFree.updFord

protected theorem State.Tabs.fordFalls {h : Half} (hs : s.Tabs) : (s.fordFalls h).Tabs := hs.fordFallsWork.report

protected theorem State.Tabs.fenceBundle {h : Half} {b : Nat} (hs : s.Tabs) : (s.fenceBundle h b).Tabs := hs.updFord.withPv rfl

protected theorem State.Tabs.dropFord {h : Half} (hs : s.Tabs) : (s.dropFord h).Tabs := .ite hs.fordFalls hs

protected theorem State.Tabs.doFordDown {h : Half} (hs : s.Tabs) : (doFordDown h s).Tabs := .ite hs.fordFalls hs

protected theorem State.Tabs.laneFails {h : Half} {b lane : Nat} (hs : s.Tabs) : (s.laneFails h b lane).Tabs :=
  .ite hs (.ite hs.updFord (.ite hs.fenceBundle.report.fordFalls hs.fenceBundle.report))

protected theorem State.Tabs.doLaneCheck {h : Half} {b lane errors : Nat} (hs : s.Tabs) : (doLaneCheck h b lane errors s).Tabs :=
  .ite (.ite hs.updFord.laneFails hs.updFord) hs

protected theorem State.Tabs.doLaneRepaired {h : Half} {b lane : Nat} (hs : s.Tabs) : (doLaneRepaired h b lane s).Tabs :=
  .ite hs.updFord.useSpare.bump.report hs

/-! ### HbmParts -/

protected theorem State.Tabs.finishPart {h : Half} {q : HbmPart} {d : PartData} (hs : s.Tabs) : (s.finishPart h q d).Tabs :=
  hs.updResponse

protected theorem State.Tabs.failParts {h : Half} {st : Fin 2} (hs : s.Tabs) : (s.failParts h st).Tabs :=
  hs.updHbm.foldl fun h1 => h1.finishPart

/-! ### Learn -/

protected theorem State.Tabs.notePut {h : Half} {bs : List Byte} (hs : s.Tabs) : (s.notePut h bs).Tabs := by
  dsimp only [State.notePut]
  refine .ite hs.bump ?_
  split
  · next s1 e => exact hs.hbmWrite.of_fst e
  · next s1 e => exact .ite (.svcEvent (.setRfld (hs.hbmWrite.of_fst e))) (.setRfld (hs.hbmWrite.of_fst e))

protected theorem State.Tabs.learnNote {h : Half} {n : Note} (hs : s.Tabs) : (s.learnNote h n).Tabs :=
  .ite (hs.used.updTab keeps) hs.used.notePut

protected theorem State.Tabs.noteTick {h : Half} (hs : s.Tabs) : (s.noteTick h).Tabs := by
  dsimp only [State.noteTick]
  split
  · exact hs
  · exact .ite hs (.notePut (hs.updTab keeps))

protected theorem State.Tabs.noteSizeWrite {h : Half} (hs : s.Tabs) : (s.noteSizeWrite h).Tabs := hs.setRfld.setRfld

protected theorem State.Tabs.learnRefresh {h : Half} {i : Nat} {e : ExEntry} (hs : s.Tabs) : (s.learnRefresh h i e).Tabs := hs.setEx

protected theorem State.Tabs.queueLearn {h : Half} {w : LearnWrite} (hs : s.Tabs) : (s.queueLearn h w).Tabs :=
  .ite hs (.ite hs.bump (hs.updTab keeps))

protected theorem State.Tabs.doLearnExamine {h : Half} (hs : s.Tabs) : (doLearnExamine h s).Tabs := by
  dsimp only [doLearnExamine]
  split
  · exact hs
  · refine .ite ?_ hs
    split
    · exact .learnRefresh (hs.updTab keeps)
    · exact .ite (.queueLearn (hs.updTab keeps)) (hs.updTab keeps)
    · exact .bump (hs.updTab keeps)
    · exact .queueLearn (hs.updTab keeps)

protected theorem State.Tabs.shareLearn {h : Half} {w : LearnWrite} (hs : s.Tabs) : (s.shareLearn h w).Tabs := .ite hs.rest hs

protected theorem State.Tabs.doLearnWrite {h : Half} (hs : s.Tabs) : (doLearnWrite h s).Tabs := by
  dsimp only [doLearnWrite]
  split
  · exact hs
  · refine .ite ?_ hs
    split
    · exact .learnRefresh (hs.updTab keeps)
    · exact .bump (hs.updTab keeps)
    · exact .ite (.shareLearn (.learnNote (.bump (.setEx (hs.updTab keeps))))) (hs.updTab keeps)
    · split
      · next s2 i e =>
        refine .shareLearn (.learnNote (.bump (.setEx (.of_fst ?_ e))))
        exact .exSlot (hs.updTab keeps)
      · next s2 e =>
        refine .learnNote (.bump (.of_fst ?_ e))
        exact .exSlot (hs.updTab keeps)

protected theorem State.Tabs.doLearnShare {h : Half} (hs : s.Tabs) : (doLearnShare h s).Tabs := by
  dsimp only [doLearnShare]
  split
  · exact hs
  · exact .ite (hs.rest.updTab keeps) hs.rest

protected theorem State.Tabs.ageExact {h : Half} {i : Nat} (hs : s.Tabs) : (s.ageExact h i).Tabs := by
  dsimp only [State.ageExact]
  split
  · exact hs
  · exact .ite hs (.ite (.ite hs.dropEx.bump.learnNote hs.setEx) (.ite hs.setEx.learnNote hs.setEx))

protected theorem State.Tabs.ageFlow {h : Half} {slot : Nat} (hs : s.Tabs) : (s.ageFlow h slot).Tabs := by
  dsimp only [State.ageFlow]
  refine .ite ?_ ?_
  · split
    · exact .ite hs.flowRemove.bump hs
    · exact hs
  · refine .ite ?_ hs
    split
    · next s1 r e => exact .ite ((hs.flowRead.of_fst e).flowRemove.bump) (hs.flowRead.of_fst e)
    · next s1 e => exact (hs.flowRead.of_fst e).flowLost

protected theorem State.Tabs.doAgingVisit {h : Half} {flow : Bool} {i : Nat} (hs : s.Tabs) : (doAgingVisit h flow i s).Tabs :=
  .ite (.ite hs.ageFlow hs.ageExact) hs

protected theorem State.Tabs.leaveBatch {h : Half} {i : Nat} {e : ExEntry} (hs : s.Tabs) : (s.leaveBatch h i e).Tabs :=
  .dropEx (.ite hs hs.dropTouch)

protected theorem State.Tabs.learnedLost {h : Half} {i : Nat} (hs : s.Tabs) : (s.learnedLost h i).Tabs := by
  dsimp only [State.learnedLost]
  split
  · exact .ite hs.leaveBatch.learnNote hs
  · exact hs

protected theorem State.Tabs.withhold {h : Half} {t i : Nat} (hs : s.Tabs) : (s.withhold h t i).Tabs := hs.updTab keeps

protected theorem State.Tabs.doEntryRepaired {h : Half} {t i : Nat} (hs : s.Tabs) : (doEntryRepaired h t i s).Tabs :=
  .ite (hs.fromShadow.updTab keeps) hs

protected theorem State.Tabs.doShadowVisit {h : Half} {t i : Nat} {differs last : Bool} (hs : s.Tabs) :
    (doShadowVisit h t i differs last s).Tabs :=
  .ite (.ite (.setReg (.ite (.ite (hs.report.bump.updTab keeps) hs.report.bump) hs))
    (.ite (.ite (hs.report.bump.updTab keeps) hs.report.bump) hs)) hs

protected theorem State.Tabs.doShadowRepaired {h : Half} {t i : Nat} (hs : s.Tabs) : (doShadowRepaired h t i s).Tabs :=
  .ite (.bump (hs.fromShadow.updTab keeps)) hs

/-! ### ThreadCtl -/

protected theorem State.Tabs.haltNow {th : ThreadRef} (hs : s.Tabs) : (s.haltNow th).Tabs := by
  dsimp only [State.haltNow]
  split
  · split
    · exact .updTask (hs.updThread keeps) keeps
    · exact hs.updThread keeps
  · exact hs.updThread keeps

protected theorem State.Tabs.resumeNow {th : ThreadRef} (hs : s.Tabs) : (s.resumeNow th).Tabs := by
  dsimp only [State.resumeNow]
  split
  · split
    · exact .updTask (hs.updThread keeps) keeps
    · exact hs.updThread keeps
  · exact hs.updThread keeps

protected theorem State.Tabs.doThreadHalt {th : ThreadRef} (hs : s.Tabs) : (doThreadHalt th s).Tabs := by
  refine .ite (hs.updThread fun x hx => ?_) hs
  split <;> exact hx

protected theorem State.Tabs.doHaltComplete {th : ThreadRef} (hs : s.Tabs) : (doHaltComplete th s).Tabs := .ite hs.haltNow hs

protected theorem State.Tabs.doThreadResume {th : ThreadRef} (hs : s.Tabs) : (doThreadResume th s).Tabs := .ite hs.resumeNow hs

protected theorem State.Tabs.doThreadPost {th : ThreadRef} (hs : s.Tabs) : (doThreadPost th s).Tabs := hs.raiseInt

protected theorem State.Tabs.doThreadKill {th : ThreadRef} (hs : s.Tabs) : (doThreadKill th s).Tabs := by
  dsimp only [doThreadKill]
  split
  · split
    · exact hs.discardTask.updThread keeps
    · exact hs
  · exact hs

protected theorem State.Tabs.doEvPost {th : ThreadRef} {m : Word} (hs : s.Tabs) : (doEvPost th m s).Tabs := hs.setEv

protected theorem State.Tabs.doThreadCtl {th : ThreadRef} {v : DWord} (hs : s.Tabs) : (doThreadCtl th v s).Tabs := by
  unfold doThreadCtl
  extract_lets s1 s2 s3
  have h1 : s1.Tabs := .ite hs.doThreadHalt hs
  have h2 : s2.Tabs := .ite h1.doThreadResume h1
  have h3 : s3.Tabs := .ite h2.doThreadKill h2
  exact .ite h3.doThreadPost h3

/-! ### UnitEnd -/

protected theorem State.Tabs.clearRegs {s0 : State} {us : List UnitId} {dest : UState} (hs : s.Tabs) : (s.clearRegs s0 us dest).Tabs :=
  hs.rest

protected theorem State.Tabs.endCore {h : Half} {t : TileIx} {c k : Fin 4} {dest : UState} {reason : Nat} (hs : s.Tabs) :
    (s.endCore h t c k dest reason).Tabs := by
  dsimp only [State.endCore]
  refine hs.foldl fun h1 => ?_
  refine .updThread ?_ fun _ => Thread.wf_ended
  split
  · exact h1.discardTask
  · exact h1

protected theorem State.Tabs.endCluster {h : Half} {t : TileIx} {c : Fin 4} (hs : s.Tabs) : (s.endCluster h t c).Tabs := by
  dsimp only [State.endCluster]
  refine .foldl (.foldl (.foldl (.rest (hs.updTile keeps)) fun h1 => .ite h1.settleSlot h1.dcDown) fun h1 => .ite h1.settleSlot h1.dcDown)
    fun h1 => ?_
  refine .releaseInst ?_
  split
  · exact h1.updTile keeps
  · exact h1

protected theorem State.Tabs.endTile {h : Half} {t : TileIx} {dest : UState} (hs : s.Tabs) : (s.endTile h t dest).Tabs :=
  .updTile (hs.foldl fun h1 => h1.discardTask) fun x hx => by
    split
    · exact Tile.wf_withoutThreads hx
    · exact Tile.wf_mapThreads hx fun _ => Thread.wf_ended

protected theorem State.Tabs.endPort {p : PortIx} (hs : s.Tabs) : (s.endPort p).Tabs :=
  .updIng (.ite hs.dropLink hs.abortRx) fun _ hx => ⟨tdel_wf _ _ hx.1, tdel_wf _ _ hx.2⟩

protected theorem State.Tabs.endBuffer {h : Half} (hs : s.Tabs) : (s.endBuffer h).Tabs :=
  have h1 := hs.updBuf (h := h) (f := BufferState.emptied) fun _ _ => rfl
  ⟨h1.tiles.upd fun _ hts => tilesWf_map hts fun _ hx => Tile.wf_mapTasks hx fun _ hy => hy, h1.cc, h1.ing.upd fun _ hx => hx,
    h1.chains, h1.locks, h1.tab, h1.slots, h1.user⟩

protected theorem State.Tabs.endSched {h : Half} (hs : s.Tabs) : (s.endSched h).Tabs := .updSched (hs.foldl fun h1 => h1.loseSelected)

protected theorem State.Tabs.dropQueued {h : Half} {st : Fin 2} (hs : s.Tabs) : (s.dropQueued h st).Tabs :=
  hs.foldl fun h1 => h1.foldl fun h2 => h2.used.updHbm

protected theorem State.Tabs.endHbmc {h : Half} {st : Fin 2} (hs : s.Tabs) : (s.endHbmc h st).Tabs := hs.failParts.dropQueued.updHbm

protected theorem State.Tabs.endFord {h : Half} (hs : s.Tabs) : (s.endFord h).Tabs := .updFord (.runFree (.ite hs.losePeer hs))

protected theorem State.Tabs.endTable {h : Half} {n : Fin 8} {dest : UState} (hs : s.Tabs) : (s.endTable h n dest).Tabs :=
  .ite hs.versionEnds (.ite (hs.updTab fun _ => TableState.wf_dropStash) (.ite (hs.updTab keeps) (.ite (hs.updTab keeps) hs)))

protected theorem State.Tabs.endInFlight {h : Half} {dest : UState} (hs : s.Tabs) : (s.endInFlight h dest).Tabs := by
  unfold State.endInFlight
  extract_lets s1 s2
  have h1 : s1.Tabs := hs.foldl fun h1 => h1.endTile.foldl fun h2 => h2.endCluster
  have h2 : s2.Tabs := h1.foldl fun h2 => h2.abortRx
  exact h2.foldl fun h3 => h3.loseSelected

protected theorem State.Tabs.endHalf {h : Half} {dest : UState} (hs : s.Tabs) : (s.endHalf h dest).Tabs := by
  unfold State.endHalf
  extract_lets s1 s2 locks0
  have h2 : s2.Tabs := hs.endInFlight.dropHalfLocks.versionEnds.endFord.dropQueued.dropQueued.endBuffer
  have hlocks : Pair.All (fun l => Tbl.wf l = true) ⟨locks0, if h = 1 then [] else s2.locks.h1⟩ := by
    refine ⟨?_, ?_⟩
    · dsimp only [locks0]
      split
      · exact Tbl.wf_filter h2.locks.1
      · exact h2.locks.1
    · dsimp only
      split
      · rfl
      · exact h2.locks.2
  exact ⟨h2.tiles.upd fun _ hts => tilesWf_map hts fun _ => Tile.wf_withoutTasks, h2.cc.upd fun _ => CcState.wf_ended,
    h2.ing.upd fun _ _ => ⟨rfl, rfl⟩, h2.chains, hlocks, h2.tab.upd fun _ => TableState.wf_dropStash, h2.slots, h2.user⟩

protected theorem State.Tabs.endUnit {u : UnitId} {dest : UState} (hs : s.Tabs) : (s.endUnit u dest).Tabs := by
  dsimp only [State.endUnit]
  split
  · exact hs.endHalf
  · exact hs.endCore
  · exact hs.endCluster
  · exact hs.endTile
  · exact hs.endPort
  · exact hs.endBuffer
  · exact hs.endSched
  · exact hs.endHbmc
  · exact hs.endFord
  · exact hs.endTable
  · exact hs

/-! ### Trans -/

protected theorem State.Tabs.settleForce {u : UnitId} {st : UState} (hs : s.Tabs) : (s.settleForce u st).Tabs := .ite hs hs.setRfld

protected theorem State.Tabs.settleCommits (hs : s.Tabs) : s.settleCommits.Tabs := hs.rest

protected theorem State.Tabs.endWork {us : List UnitId} {dest : UState} (hs : s.Tabs) : (s.endWork us dest).Tabs :=
  hs.foldl fun h1 => .ite h1 h1.endUnit

protected theorem State.Tabs.beginEntry {root : UnitId} {dest : UState} {cause : BitVec 8} (hs : s.Tabs) :
    (s.beginEntry root dest cause).Tabs := by
  unfold State.beginEntry
  extract_lets us s1 s2
  have h1 : s2.Tabs := hs.endWork.clearRegs.foldl fun h1 => h1.updUnit.settleForce
  exact .ite h1 h1.rest.settleCommits

protected theorem State.Tabs.setUState {u : UnitId} {st : UState} {cause : BitVec 8} (hs : s.Tabs) : (s.setUState u st cause).Tabs :=
  hs.updUnit

protected theorem State.Tabs.takeDts {h : Half} (hs : s.Tabs) : (s.takeDts h).Tabs := hs.updTime

protected theorem State.Tabs.fenceLost {h : Half} {t : TileIx} (hs : s.Tabs) : (s.fenceLost h t).Tabs := by
  dsimp only [State.fenceLost]
  refine .ite ?_ ?_
  · refine .setUState ?_
    split
    · exact hs.setUState
    · exact hs
  · split
    · exact hs.setUState
    · exact hs

protected theorem State.Tabs.reapplyMaps {h : Half} (hs : s.Tabs) : (s.reapplyMaps h).Tabs :=
  .updFord (.setReg (hs.foldl fun h1 => h1.fenceLost))

protected theorem State.Tabs.leaveReset {u : UnitId} (hs : s.Tabs) : (s.leaveReset u).Tabs := by
  dsimp only [State.leaveReset]
  split
  · exact hs.reapplyMaps.takeDts
  · exact hs

protected theorem State.Tabs.startCores {h : Half} (hs : s.Tabs) : (s.startCores h).Tabs :=
  hs.withCc (hs.cc.upd fun _ hx => CcState.wf_withThreads hx rfl fun e he => by
    obtain ⟨i, -, rfl⟩ := List.mem_map.mp he
    rfl)

protected theorem State.Tabs.onActive {u : UnitId} (hs : s.Tabs) : (s.onActive u).Tabs := by
  dsimp only [State.onActive]
  split
  · exact hs.checkPortCfg
  · exact .ite hs.updHub.startCores hs.updHub
  · exact .ite hs.holdBasis.holdBasis hs
  · exact .ite (hs.updTile keeps) hs
  · exact hs

protected theorem State.Tabs.leaveActive {u : UnitId} (hs : s.Tabs) : (s.leaveActive u).Tabs := by
  dsimp only [State.leaveActive]
  split
  · exact .ite hs.dropLink hs.abortRx
  · exact hs

protected theorem State.Tabs.enterUp {u : UnitId} {st : UState} {cause : BitVec 8} (hs : s.Tabs) : (s.enterUp u st cause).Tabs := by
  unfold State.enterUp
  extract_lets s1 s2
  have h1 : s1.Tabs := .ite hs.leaveReset (.ite hs.leaveActive hs)
  exact .ite h1.setUState.settleForce.onActive h1.setUState.settleForce

protected theorem State.Tabs.enterTest {u : UnitId} {cause : BitVec 8} (hs : s.Tabs) : (s.enterTest u cause).Tabs :=
  hs.enterUp.foldl fun h1 => h1.enterUp

protected theorem State.Tabs.activeTree {u : UnitId} {cause : BitVec 8} (hs : s.Tabs) : (s.activeTree u cause).Tabs :=
  hs.foldl fun h1 => .ite h1.enterUp h1

protected theorem State.Tabs.completeEntry {u : UnitId} (hs : s.Tabs) : (s.completeEntry u).Tabs := by
  dsimp only [State.completeEntry]
  refine hs.foldl fun h1 => ?_
  split
  · exact h1
  · split
    · exact .ite h1.setUState.enterUp h1.setUState
    · exact h1.setUState

protected theorem State.Tabs.reqReset {a : Agent} {u : UnitId} (hs : s.Tabs) : (s.reqReset a u).Tabs := .ite hs.beginEntry hs

protected theorem State.Tabs.reqTest {a : Agent} {u : UnitId} (hs : s.Tabs) : (s.reqTest a u).Tabs := .ite hs.enterTest hs

protected theorem State.Tabs.reqActive {a : Agent} {u : UnitId} (hs : s.Tabs) : (s.reqActive a u).Tabs := .ite hs.enterUp hs

protected theorem State.Tabs.reqFence {a : Agent} {u : UnitId} (hs : s.Tabs) : (s.reqFence a u).Tabs := .ite hs.beginEntry hs

protected theorem State.Tabs.reqOff {a : Agent} {u : UnitId} (hs : s.Tabs) : (s.reqOff a u).Tabs := .ite hs.beginEntry hs

protected theorem State.Tabs.reqTree {a : Agent} {u : UnitId} (hs : s.Tabs) : (s.reqTree a u).Tabs := .ite hs.activeTree hs

protected theorem State.Tabs.request {a : Agent} {u : UnitId} {r : Nat} (hs : s.Tabs) : (s.request a u r).Tabs := by
  dsimp only [State.request]
  split
  · exact hs.reqReset
  · exact hs.reqTest
  · exact hs.reqActive
  · exact hs.reqFence
  · exact hs.reqOff
  · exact hs.reqTree
  · exact hs

protected theorem State.Tabs.fenceUnit {u : UnitId} {cause : BitVec 8} (hs : s.Tabs) : (s.fenceUnit u cause).Tabs :=
  .ite hs.beginEntry hs

protected theorem State.Tabs.doEntryComplete {u : UnitId} (hs : s.Tabs) : (doEntryComplete u s).Tabs := .ite hs.completeEntry hs

protected theorem State.Tabs.setDev {d : DevState} (hs : s.Tabs) : (s.setDev d).Tabs :=
  .ite (hs.rest.foldl fun h1 => .ite h1 h1.setRfld) hs.rest

protected theorem State.Tabs.doDevRun {a : Agent} (hs : s.Tabs) : (doDevRun a s).Tabs := .ite hs.setDev hs

protected theorem State.Tabs.doDevRecovery {a : Agent} (hs : s.Tabs) : (doDevRecovery a s).Tabs := .ite hs.setDev hs

/-! ### Commit -/

protected theorem State.Tabs.startCommit {u : UnitId} (hs : s.Tabs) : (s.startCommit u).Tabs := hs.rest.settleCommits

protected theorem State.Tabs.setArmed {u : UnitId} {b : Bool} (hs : s.Tabs) : (s.setArmed u b).Tabs := hs.updUnit

protected theorem State.Tabs.armCommit {u : UnitId} (hs : s.Tabs) : (s.armCommit u).Tabs := .ite hs.setArmed.startCommit hs.setArmed

protected theorem State.Tabs.commitKey {u : UnitId} {key : Nat} (hs : s.Tabs) : (s.commitKey u key).Tabs := by
  dsimp only [State.commitKey]
  split
  · exact hs.startCommit
  · exact hs.armCommit
  · exact hs.setArmed
  · exact hs

protected theorem State.Tabs.doArmedStart {u : UnitId} (hs : s.Tabs) : (doArmedStart u s).Tabs := .ite hs.setArmed.startCommit hs

protected theorem State.Tabs.doCommitReach {u : UnitId} (hs : s.Tabs) : (doCommitReach u s).Tabs := hs.rest.settleCommits

protected theorem State.Tabs.applyReg {b : Blk} {off : Nat} (hs : s.Tabs) : (s.applyReg b off).Tabs := by
  dsimp only [State.applyReg]
  split
  · exact .ite hs.setReg hs
  · exact hs

protected theorem State.Tabs.applyRegs {u : UnitId} (hs : s.Tabs) : (s.applyRegs u).Tabs := by
  dsimp only [State.applyRegs]
  refine hs.foldl fun h1 => ?_
  split
  · exact h1.applyReg
  · exact h1

protected theorem State.Tabs.refillPort {h : Half} {lp : Nat} (hs : s.Tabs) : (s.refillPort h lp).Tabs := by
  unfold State.refillPort
  exact .setBucket (.foldl (hs.foldl fun h1 => h1.setBucket) fun h1 => h1.setBucket)

protected theorem State.Tabs.applySched {h : Half} (hs : s.Tabs) : (s.applySched h).Tabs :=
  .foldl (.applyRegs (hs.foldl fun h1 => h1.refillPort)) fun h1 => h1.schedRefresh

protected theorem State.Tabs.applySides {p : PortIx} (hs : s.Tabs) : (s.applySides p).Tabs := hs.rest

protected theorem State.Tabs.towardsSafe {u : UnitId} (hs : s.Tabs) : (s.towardsSafe u).Tabs := by
  dsimp only [State.towardsSafe]
  split
  · exact hs.applySides
  · exact hs

protected theorem State.Tabs.applyCommit {u : UnitId} (hs : s.Tabs) : (s.applyCommit u).Tabs := by
  dsimp only [State.applyCommit]
  refine .settleCommits ?_
  refine .rest ?_
  refine .updUnit ?_
  split
  · exact hs.applySched
  · exact hs.applyRegs

protected theorem State.Tabs.doCommitApply {u : UnitId} (hs : s.Tabs) : (doCommitApply u s).Tabs :=
  .ite hs.towardsSafe.applyCommit hs.towardsSafe

/-! ### React -/

protected theorem State.Tabs.pulse {h : Half} (hs : s.Tabs) : (s.pulse h).Tabs := hs.updHub

protected theorem State.Tabs.doPulseEnd (hs : s.Tabs) : (doPulseEnd s).Tabs := hs.rest

protected theorem State.Tabs.toRecovery (hs : s.Tabs) : s.toRecovery.Tabs := .ite hs.setDev hs

protected theorem State.Tabs.countSkew {h : Half} (hs : s.Tabs) : (s.countSkew h).Tabs := hs.updTime

protected theorem State.Tabs.noteFatal {h : Half} {u : UnitId} {injected : Bool} (hs : s.Tabs) : (s.noteFatal h u injected).Tabs :=
  hs.withPv rfl

protected theorem State.Tabs.fatalHalf {h : Half} {cause : BitVec 8} {u : UnitId} (hs : s.Tabs) : (s.fatalHalf h cause u).Tabs :=
  .ite (.ite hs.pulse.toRecovery.noteFatal hs.pulse.toRecovery) hs.pulse.toRecovery.updFord.updHub.bump.noteFatal.fenceUnit

protected theorem State.Tabs.fatalDevice {cause : BitVec 8} (hs : s.Tabs) : (s.fatalDevice cause).Tabs := hs.fatalHalf.fatalHalf

protected theorem State.Tabs.updSpare {h : Half} {t : TileIx} {f : SpareInfo → SpareInfo} (hs : s.Tabs) : (s.updSpare h t f).Tabs :=
  hs.updTile keeps

protected theorem State.Tabs.settleSpare {h : Half} {t : TileIx} (hs : s.Tabs) : (s.settleSpare h t).Tabs := by
  unfold State.settleSpare
  exact hs.updSpare

protected theorem State.Tabs.fenceSpare {h : Half} {t : TileIx} (hs : s.Tabs) : (s.fenceSpare h t).Tabs := hs.fenceUnit

protected theorem State.Tabs.physFails {h : Half} {t : TileIx} {phys : Nat} {injected : Bool} (hs : s.Tabs) :
    (s.physFails h t phys injected).Tabs := by
  dsimp only [State.physFails]
  refine .ite hs ?_
  split
  · exact hs.updSpare.openRecord.updSpare.fenceSpare.openRecord
  · exact hs.updSpare.openRecord.endCore.updSpare.fenceSpare.openRecord
  · exact .ite hs.updSpare.openRecord.updSpare.fenceUnit hs.updSpare.openRecord.fenceUnit.updSpare.openRecord

protected theorem State.Tabs.coreReport {u : UnitId} {injected : Bool} (hs : s.Tabs) : (s.coreReport u injected).Tabs := by
  dsimp only [State.coreReport]
  split
  · exact .ite hs.updSpare.physFails hs.updSpare
  · exact hs

protected theorem State.Tabs.coreFaultTask {h : Half} {t : TileIx} {n : Fin 128} (hs : s.Tabs) : (s.coreFaultTask h t n).Tabs := by
  dsimp only [State.coreFaultTask]
  split
  · exact hs.discardTask
  · exact hs

protected theorem State.Tabs.doHandover {h : Half} {t : TileIx} (hs : s.Tabs) : (doHandover h t s).Tabs :=
  .ite (.bump (.enterUp (.updSpare (.ite hs.applyCommit hs)))) hs

protected theorem State.Tabs.spareTested {h : Half} {t : TileIx} {ok : Bool} (hs : s.Tabs) : (s.spareTested h t ok).Tabs :=
  .ite (.ite hs.setUState.settleForce.setReg.bump.updSpare.settleSpare hs.report.physFails) hs

protected theorem State.Tabs.applyAll {h : Half} {b : Nat} {l : List BatchRec} {t : State} (hs : s.Tabs)
    (e : s.applyAll h b l = some t) : t.Tabs := by
  induction l generalizing s with
  | nil => cases e; exact hs
  | cons r rest ih =>
    unfold State.applyAll at e
    split at e
    · exact ih hs.applyRec e
    · cases e

protected theorem State.Tabs.doReweight {h : Half} {t : TileIx} (hs : s.Tabs) : (doReweight h t s).Tabs := by
  dsimp only [doReweight]
  refine .ite ?_ hs
  split
  · exact hs
  · exact hs.updSpare
  · split
    · next s1 e => exact (hs.updSlot.applyAll e).updSlot.postSlot.updSpare
    · exact hs.bump

protected theorem State.Tabs.dropMailbox {slots : List Nat} (hs : s.Tabs) : (s.dropMailbox slots).Tabs := hs.foldl fun h1 => h1.setReg

protected theorem State.Tabs.setPrivet {p : PrivetRun} (hs : s.Tabs) : (s.setPrivet p).Tabs := hs.rest

protected theorem State.Tabs.restartPrivet {cause : BitVec 8} (hs : s.Tabs) : (s.restartPrivet cause).Tabs :=
  .dropMailbox (hs.setPrivet.rest.foldl fun h1 => h1.beginEntry)

protected theorem State.Tabs.fencePrivet {cause : BitVec 8} (hs : s.Tabs) : (s.fencePrivet cause).Tabs :=
  .dropMailbox (hs.setPrivet.foldl fun h1 => h1.beginEntry)

protected theorem State.Tabs.heartbeatActs {h : Half} {injected : Bool} (hs : s.Tabs) : (s.heartbeatActs h injected).Tabs :=
  .ite hs.fencePrivet.openRecord hs.restartPrivet

protected theorem State.Tabs.countLoss {h : Half} (hs : s.Tabs) : (s.countLoss h).Tabs := hs.updHub

protected theorem State.Tabs.doHbWindow {h : Half} (hs : s.Tabs) : (doHbWindow h s).Tabs :=
  .ite hs (.ite hs.updHub (.ite hs.updHub.countLoss hs.updHub.countLoss.report.heartbeatActs))

protected theorem State.Tabs.doHbWrite {a : Agent} {h : Half} (hs : s.Tabs) : (doHbWrite a h s).Tabs := .ite hs.updHub hs

protected theorem State.Tabs.doPrivetRelease {a : Agent} {h : Half} (hs : s.Tabs) : (doPrivetRelease a h s).Tabs :=
  .ite hs.rest.restartPrivet hs

protected theorem State.Tabs.discardRx {h : Half} {port stamp : Nat} (hs : s.Tabs) : (s.discardRx h port stamp).Tabs := by
  dsimp only [State.discardRx]
  split
  · exact hs.cutFrame
  · exact .ite (.bump (hs.dropFrame.updIng keeps)) (hs.dropFrame.updIng keeps)
  · exact .ite (.bump (hs.dropFrame.updIng keeps)) (hs.dropFrame.updIng keeps)
  · exact .ite (.ite (.bump (hs.dropFrame.updIng keeps)) (hs.dropFrame.updIng keeps)) hs
  · exact hs

protected theorem State.Tabs.stompTx {p : PortIx} {stamp : Nat} (hs : s.Tabs) : (s.stompTx p stamp).Tabs := .ite hs.setSels.bumpPort hs

protected theorem State.Tabs.reactTile {h : Half} {t : TileIx} {f : Found} (hs : s.Tabs) : (s.reactTile h t f).Tabs := by
  unfold State.reactTile
  extract_lets d off add
  refine .ite (hs.updTile fun x hx => ?_) (.ite (hs.updTile fun x hx => ?_) (.ite hs.discardTask (.ite (hs.updTile keeps)
    (.ite (.ite (hs.updTile fun _ => Tile.wf_setChan).bump hs) hs))))
  · split
    · exact hx
    · split <;> exact hx
  · split <;> exact hx

protected theorem State.Tabs.reactCore {h : Half} {t : TileIx} {c k : Fin 4} {f : Found} (hs : s.Tabs) : (s.reactCore h t c k f).Tabs :=
  .ite hs.coreFaultTask.coreReport (.ite (.coreReport (hs.foldl fun h1 => h1.coreFaultTask)) (.ite hs.raiseInt.bump hs))

protected theorem State.Tabs.reactTable {h : Half} {n : Fin 8} {f : Found} (hs : s.Tabs) : (s.reactTable h n f).Tabs :=
  .ite hs.withhold
    (.ite hs.learnedLost (.ite (.ite hs.loseLine (.ite (hs.updTab keeps) hs))
      (.ite (.ite hs.flowClear hs) (.ite (.ite (hs.bump.updTab keeps) hs.bump) hs))))

protected theorem State.Tabs.fenceBank {h : Half} {k : Nat} (hs : s.Tabs) : (s.fenceBank h k).Tabs := .ite (.setRfld (hs.updBuf keeps)) hs

protected theorem State.Tabs.dropSpilled {h : Half} {block : Nat} (hs : s.Tabs) : (s.dropSpilled h block).Tabs := by
  dsimp only [State.dropSpilled]
  split
  · exact hs.setSpill.bumpPort
  · exact hs

protected theorem State.Tabs.dropUser {h : Half} {id : Nat} (hs : s.Tabs) : (s.dropUser h id).Tabs := by
  dsimp only [State.dropUser]
  split
  · exact .ite hs.setSels.bumpPort.release hs.setSels.bumpPort
  · split
    · exact .release (.bumpPort (.withSched hs (fun h1 => h1.setQueue)))
    · split
      · exact .settleReg (.release (.bumpPort (hs.updBuf keeps)))
      · split
        · exact hs.setSpill.bumpPort.release
        · split
          · exact hs.bumpPort.endCrossing
          · exact .ite (.settleReg (.release (hs.bump.updBuf keeps))) hs.bump

protected theorem State.Tabs.pointerFails {h : Half} {cell : Nat} (hs : s.Tabs) : (s.pointerFails h cell).Tabs := by
  dsimp only [State.pointerFails]
  split
  · exact hs.bump
  · exact .dropUser (.ite hs.updChain (hs.updBuf fun _ => tput_wf _ _ _))

protected theorem State.Tabs.reactBuffer {h : Half} {f : Found} (hs : s.Tabs) : (s.reactBuffer h f).Tabs := by
  dsimp only [State.reactBuffer]
  refine .ite (hs.updBuf keeps) ?_
  refine .ite hs.pointerFails ?_
  refine .ite ?_ (.ite hs.dropSpilled (.ite (hs.updBuf keeps) (.ite hs.fenceBank hs)))
  split
  · exact .ite hs hs.updChain
  · exact hs

protected theorem State.Tabs.flushPort {h : Half} {lp : Nat} (hs : s.Tabs) : (s.flushPort h lp).Tabs :=
  .flushEnd (hs.loseSelected.updSched.setHold.updBuf keeps)

protected theorem State.Tabs.reactHbmc {h : Half} {st : Fin 2} {f : Found} (hs : s.Tabs) : (s.reactHbmc h st f).Tabs :=
  .ite hs.bump
    (.ite hs.bump.updHbm.rowFails (.ite hs.bump (.ite hs.fenceUnit (.ite (.ite hs.updHbm.updHbm.openRecord.fenceUnit hs.updHbm.updHbm) hs))))

protected theorem State.Tabs.reactFord {h : Half} {f : Found} (hs : s.Tabs) : (s.reactFord h f).Tabs :=
  .ite (.ite hs hs.countSkew)
    (.ite (.ite hs.fenceBundle.fordFalls hs.fenceBundle) (.ite hs.fordFallsWork (.ite (.ite hs.losePeerWork hs) hs)))

protected theorem State.Tabs.lockLost {h : Half} {num : Nat} (hs : s.Tabs) : (s.lockLost h num).Tabs := by
  dsimp only [State.lockLost]
  split
  · exact hs.passOn.settlePrio.bump
  · exact hs

protected theorem State.Tabs.react {f : Found} (hs : s.Tabs) : (s.react f).Tabs := by
  dsimp only [State.react]
  split
  · exact .ite hs (.fatalDevice (.ite hs.setRfld hs))
  · exact .ite hs.discardRx (.ite hs.fatalHalf hs)
  · exact .ite hs.fatalHalf (.ite hs.countLoss.heartbeatActs (.ite hs.fencePrivet hs))
  · exact hs.reactTile
  · exact .ite (hs.updTile keeps) hs
  · exact hs.reactCore
  · exact .ite (.ite hs.stompTx hs.discardRx) (.ite hs.fenceUnit hs)
  · exact hs.reactTable
  · exact .ite (.ite hs.updAssoc.bankFails hs.updAssoc) hs
  · exact hs.reactBuffer
  · exact .ite hs.flushPort hs
  · exact hs.reactHbmc
  · exact hs.reactFord
  · exact .ite hs.lockLost hs
  · exact .ite hs.restartPrivet (.ite (hs.withPv rfl) hs)
  · exact hs
  · exact hs

protected theorem State.Tabs.faultAt {f : Found} (hs : s.Tabs) : (s.faultAt f).Tabs := by
  dsimp only [State.faultAt]
  split
  · exact hs
  · exact hs.openRecord.react

protected theorem State.Tabs.fault {u : UnitId} {code : Nat} {d : optParam DWord 0} (hs : s.Tabs) : (s.fault u code d).Tabs := by
  dsimp only [State.fault]
  exact hs.found.faultAt

protected theorem State.Tabs.doFaultReport {u : UnitId} {code : Nat} {d : DWord} (hs : s.Tabs) : (doFaultReport u code d s).Tabs :=
  .ite hs.fault hs

protected theorem State.Tabs.force {u : UnitId} {code : Nat} (hs : s.Tabs) : (s.force u code).Tabs := hs.used.faultAt

protected theorem State.Tabs.forceWrite {u : UnitId} {v : Nat} (hs : s.Tabs) : (s.forceWrite u v).Tabs :=
  .ite (hs.setRfld.foldl fun h1 => h1.force) hs

protected theorem State.Tabs.armInv {u : UnitId} {sel : Nat} (hs : s.Tabs) : (s.armInv u sel).Tabs := .ite hs.setRfld.updUnit hs.setRfld

protected theorem State.Tabs.recLoRead {a : Agent} {h : Half} (hs : s.Tabs) : (s.recLoRead a h).Tabs := hs.updHub

protected theorem State.Tabs.recHiRead {a : Agent} {h : Half} (hs : s.Tabs) : (s.recHiRead a h).1.Tabs := by
  dsimp only [State.recHiRead]
  split
  · exact hs.updHub
  · exact hs

protected theorem State.Tabs.recAck {a : Agent} {h : Half} {slot merged : Nat} (hs : s.Tabs) : (s.recAck a h slot merged).Tabs := by
  dsimp only [State.recAck]
  split
  · exact hs
  · exact .ite hs (.ite hs.bump (hs.foldl fun h1 => h1.updHub))

protected theorem State.Tabs.detailARead {a : Agent} {h : Half} (hs : s.Tabs) : (s.detailARead a h).1.Tabs := by
  dsimp only [State.detailARead]
  split
  · exact hs.updHub
  · exact hs.updHub

protected theorem State.Tabs.detailBRead {a : Agent} {h : Half} (hs : s.Tabs) : (s.detailBRead a h).1.Tabs := by
  dsimp only [State.detailBRead]
  split
  · exact hs.updHub
  · exact hs

protected theorem State.Tabs.doPstoreRewrite {h : Half} {t : TileIx} {bank : Bool} {addr : Nat} (hs : s.Tabs) :
    (doPstoreRewrite h t bank addr s).Tabs := hs.updTile keeps

/-! ### Flash -/

protected theorem State.Tabs.updUser {f : PrivetState → PrivetState} (hs : s.Tabs) (hf : Tbl.wf (f s.pv).user = true) :
    (s.updPv f).Tabs := hs.withUser hf

protected theorem State.Tabs.updPv {f : PrivetState → PrivetState} (hs : s.Tabs) (hf : (f s.pv).user = s.pv.user) :
    (s.updPv f).Tabs := hs.withPv hf

protected theorem State.Tabs.flashWrite {a : Nat} {bs : List Byte} (hs : s.Tabs) : (s.flashWrite a bs).Tabs := hs.updPv rfl

protected theorem State.Tabs.flashErase {a n : Nat} (hs : s.Tabs) : (s.flashErase a n).Tabs := hs.updPv rfl

protected theorem State.Tabs.eraseSector {k : Nat} (hs : s.Tabs) : (s.eraseSector k).Tabs := hs.updPv (by split <;> rfl)

protected theorem State.Tabs.doEraseDone {k : Nat} (hs : s.Tabs) : (doEraseDone k s).Tabs := .ite (hs.flashErase.updPv rfl) hs

protected theorem State.Tabs.dirWrite {k e : Nat} (hs : s.Tabs) : (s.dirWrite k e).Tabs := by
  dsimp only [State.dirWrite]
  exact hs.flashWrite

protected theorem State.Tabs.dirPut {k e : Nat} (hs : s.Tabs) : (s.dirPut k e).Tabs := .ite (hs.updPv rfl) hs.dirWrite

protected theorem State.Tabs.dirFlush (hs : s.Tabs) : s.dirFlush.Tabs := .foldl (hs.updPv rfl) fun h1 => h1.dirWrite

protected theorem State.Tabs.chooseSlot {kind : Nat} (hs : s.Tabs) : (s.chooseSlot kind).1.Tabs := by
  dsimp only [State.chooseSlot]
  refine .ite_fst hs (.ite_fst hs.dirPut ?_)
  dsimp only
  exact hs.dirPut.updPv rfl

protected theorem State.Tabs.bootSlot {kind : Nat} (hs : s.Tabs) : (s.bootSlot kind).1.Tabs := by
  dsimp only [State.bootSlot]
  exact .ite_fst hs.chooseSlot (.ite_fst hs.chooseSlot hs.chooseSlot)

/-! ### Store -/

protected theorem State.Tabs.calWrite {user : Nat} (hs : s.Tabs) : (s.calWrite user).Tabs :=
  .ite hs (hs.updUser (tset_wf _ _ _ _ hs.user))

protected theorem State.Tabs.storeCommit {t : State} (hs : s.Tabs) (e : s.storeCommit = some t) : t.Tabs := by
  unfold State.storeCommit at e
  dsimp only at e
  split at e
  · cases e
  · split at e
    · cases e; exact .eraseSector (.eraseSector (hs.flashWrite.updPv rfl))
    · cases e; exact hs.flashWrite.updPv rfl

protected theorem State.Tabs.commitStore (hs : s.Tabs) : s.commitStore.Tabs := .getD (fun e => hs.storeCommit e) hs

protected theorem State.Tabs.storeAgain (hs : s.Tabs) : s.storeAgain.Tabs := by
  dsimp only [State.storeAgain]
  split
  · exact hs.updPv rfl
  · split
    · exact hs.updPv rfl
    · exact .flashWrite (.flashWrite (hs.updPv rfl))

protected theorem State.Tabs.doAutoCommit (hs : s.Tabs) : (doAutoCommit s).Tabs :=
  .ite (.ite (.commitStore (.ite hs.storeAgain hs)) (.ite hs.storeAgain hs)) hs

protected theorem State.Tabs.storeRead (hs : s.Tabs) : s.storeRead.1.Tabs := by
  dsimp only [State.storeRead]
  split
  · exact hs
  · exact hs.report
  · exact hs.report
  · exact hs.report

protected theorem State.Tabs.applyEntry {typ : Nat} {e : List Byte} (hs : s.Tabs) : (s.applyEntry typ e).Tabs := by
  dsimp only [State.applyEntry]
  split
  · exact hs.setBankStat
  · exact hs.foldl fun h1 => h1.fenceBank
  · exact hs.updSpare.fenceLost
  · exact .ite (hs.updPv rfl) hs.updHbm
  · exact hs.updHbm
  · exact .ite (hs.updFord.updPv rfl) hs
  · exact hs

protected theorem State.Tabs.settleRepair {h : Half} {st : Fin 2} (hs : s.Tabs) : (s.settleRepair h st).Tabs := hs.setRfld.setRfld

protected theorem State.Tabs.applyMaps {r : StoreRec} (hs : s.Tabs) : (s.applyMaps r).Tabs := by
  unfold State.applyMaps
  extract_lets s1 s2
  have h1 : s1.Tabs := hs.foldl fun h1 => h1.foldl fun h2 => h2.applyEntry
  exact h1.settleRepair.settleRepair.settleRepair.settleRepair.updPv rfl

protected theorem State.Tabs.doHubEvent {h : Half} (hs : s.Tabs) : (doHubEvent h s).Tabs := by
  dsimp only [doHubEvent]
  split
  · exact hs
  · exact .ite (.ite hs.updHub (hs.updHub.updPv rfl)) hs

protected theorem State.Tabs.logWrite (hs : s.Tabs) : s.logWrite.Tabs := by
  dsimp only [State.logWrite]
  split
  · exact hs
  · exact .ite (.ite (hs.flashWrite.updPv rfl) (.eraseSector (hs.flashWrite.updPv rfl))) hs

protected theorem State.Tabs.flushLog (hs : s.Tabs) : s.flushLog.Tabs := hs.foldl fun h1 => h1.logWrite

protected theorem State.Tabs.doLogFlush (hs : s.Tabs) : (doLogFlush s).Tabs := .ite hs.flushLog hs

protected theorem State.Tabs.logBoot (hs : s.Tabs) : s.logBoot.Tabs := by
  unfold State.logBoot
  exact hs.updPv rfl

/-! ### Image -/

protected theorem State.Tabs.loadProgram {h : Half} {b : Nat} {bs : List Byte} {entry : Nat} (hs : s.Tabs) :
    (s.loadProgram h b bs entry).Tabs := hs.foldl fun h1 => (h1.updTile fun _ => Tile.wf_loadBank).setRfld

protected theorem State.Tabs.loadParse {h : Half} {b : Nat} {bs : List Byte} (hs : s.Tabs) : (s.loadParse h b bs).Tabs :=
  hs.updIng fun x hx => by split <;> exact hx

protected theorem State.Tabs.loadBanks {c : List Byte} {h : Half} {b : Nat} (hs : s.Tabs) : (s.loadBanks c h b).Tabs :=
  hs.foldl fun h1 => .ite h1.loadProgram (.ite h1.loadParse h1)

protected theorem State.Tabs.loadCode {c : List Byte} {h : Half} (hs : s.Tabs) : (s.loadCode c h).1.Tabs := by
  dsimp only [State.loadCode]
  exact .foldl_fst hs fun h1 => h1.hbmPlace

protected theorem State.Tabs.setCcEntry {c : List Byte} {h : Half} (hs : s.Tabs) : (s.setCcEntry c h).Tabs := by
  dsimp only [State.setCcEntry]
  split
  · exact hs.setRfld
  · exact hs

protected theorem State.Tabs.stopCores {h : Half} (hs : s.Tabs) : (s.stopCores h).Tabs :=
  have h1 := hs.setRfld.foldl fun h1 => h1.abandonLocks
  h1.withCc (h1.cc.upd fun _ hx => CcState.wf_withThreads hx rfl (by simp))

protected theorem State.Tabs.runCores {h : Half} (hs : s.Tabs) : (s.runCores h).Tabs := .ite hs.setRfld.startCores hs.setRfld

protected theorem State.Tabs.reloadCores {c : List Byte} {h : Half} (hs : s.Tabs) : (s.reloadCores c h).1.Tabs := by
  dsimp only [State.reloadCores]
  exact .ite_fst hs.stopCores.loadCode.setCcEntry.runCores hs.stopCores.loadCode

protected theorem State.Tabs.imgSettled (hs : s.Tabs) : s.imgSettled.Tabs := by
  dsimp only [State.imgSettled]
  split
  · exact .ite (hs.dirPut.updPv rfl) hs
  · exact hs

protected theorem State.Tabs.doSwitch {h : Half} (hs : s.Tabs) : (doSwitch h s).Tabs := .ite hs.doImgSwitch (hs.doImgSwitch.updPv rfl)

protected theorem State.Tabs.doDrainEnd {h : Half} (hs : s.Tabs) : (doDrainEnd h s).Tabs :=
  .ite hs.doImgDrainEnd hs.doImgDrainEnd.imgSettled

protected theorem State.Tabs.runFirmware {build : Nat} (hs : s.Tabs) : (s.runFirmware build).Tabs := hs.updPv rfl

protected theorem State.Tabs.hostBoot (hs : s.Tabs) : s.hostBoot.Tabs := .ite hs.setRfld.used.runFirmware hs.setRfld.used

protected theorem State.Tabs.bootFirmware (hs : s.Tabs) : s.bootFirmware.Tabs := by
  unfold State.bootFirmware
  extract_lets s1
  have h1 : s1.Tabs := hs.updPv rfl
  split
  · exact h1
  · exact h1.hostBoot
  · split
    next s2 slot e =>
    have h2 : s2.Tabs := .of_fst (.ite_fst h1 h1.bootSlot) e
    split
    · exact h2.runFirmware
    · exact .ite h2.hostBoot (h2.updPv rfl)

protected theorem State.Tabs.doEntryEnd {u : UnitId} (hs : s.Tabs) : (doEntryEnd u s).Tabs :=
  .ite (.bootFirmware (hs.doEntryComplete.updPv rfl)) hs.doEntryComplete

/-! ### Mailbox -/

protected theorem State.Tabs.setMbCtl {slot : Nat} {v : DWord} (hs : s.Tabs) : (s.setMbCtl slot v).Tabs := hs.setReg

protected theorem State.Tabs.mbAnswer {slot status : Nat} {rs : optParam (List (Nat × Nat)) []} (hs : s.Tabs) :
    (s.mbAnswer slot status rs).Tabs :=
  .ite (.setEv (.setMbCtl (hs.setReg.foldl fun h1 => h1.setReg))) (.setMbCtl (hs.setReg.foldl fun h1 => h1.setReg))

protected theorem State.Tabs.mbGo {a : Agent} {slot : Nat} (hs : s.Tabs) : (s.mbGo a slot).Tabs :=
  .ite (.ite hs.setMbCtl.mbAnswer (.ite hs.setMbCtl.mbAnswer hs.setMbCtl)) hs

protected theorem State.Tabs.mbRead {slot a n : Nat} (hs : s.Tabs) : (s.mbRead slot a n).1.Tabs := by
  dsimp only [State.mbRead]
  split
  · exact .ite_fst hs.rest hs
  · exact hs
  · exact hs.hbmRead

protected theorem State.Tabs.mbWrite {slot a : Nat} {bs : List Byte} (hs : s.Tabs) : (s.mbWrite slot a bs).1.Tabs := by
  dsimp only [State.mbWrite]
  split
  · exact hs
  · exact hs
  · exact hs.hbmWrite

protected theorem State.Tabs.stage {kind slot : Nat} {c : List Byte} (hs : s.Tabs) : (s.stage kind slot c).1.Tabs := by
  dsimp only [State.stage]
  split
  · split
    · exact hs.flashErase.flashWrite
    · exact hs.flashErase
  · exact hs.flashErase

protected theorem State.Tabs.doImgStage {slot : Nat} (hs : s.Tabs) : (doImgStage slot s).Tabs := by
  dsimp only [doImgStage]
  refine .ite hs ?_
  refine .ite hs.mbAnswer ?_
  refine .ite hs.mbAnswer ?_
  split
  · next s1 c e =>
      split
      · next s2 e2 => exact ((hs.mbRead.of_fst e).stage.of_fst e2).mbAnswer
      · next s2 k e2 => exact ((hs.mbRead.of_fst e).stage.of_fst e2).mbAnswer
  · next s1 st _ e => exact (hs.mbRead.of_fst e).mbAnswer

protected theorem State.Tabs.activateImage {slot img : Nat} {sw : DWord} (hs : s.Tabs) : (s.activateImage slot img sw).Tabs := by
  dsimp only [State.activateImage]
  refine .ite hs.mbAnswer ?_
  split
  · exact .ite
      (.mbAnswer (hs.foldl fun h1 => h1.loadBanks))
      (.ite
         (.mbAnswer (.foldl (.foldl (hs.foldl fun h1 => h1.loadBanks) fun h1 => h1.setReg.imgCtl) fun h1 => h1.imgCtl))
         (.mbAnswer (.imgSettled (.updPv (.foldl (hs.foldl fun h1 => h1.loadBanks) fun h1 => h1.setReg.imgCtl) rfl))))
  · exact hs.mbAnswer

protected theorem State.Tabs.activateFirmware {slot img : Nat} (hs : s.Tabs) : (s.activateFirmware slot img).Tabs :=
  hs.dirPut.mbAnswer.rest.reqReset.dropMailbox

protected theorem State.Tabs.loadSoftware {img halves : Nat} (hs : s.Tabs) : (s.loadSoftware img halves).1.Tabs := by
  dsimp only [State.loadSoftware]
  split
  · dsimp only
    exact .updPv (.foldl_fst hs fun h1 => h1.reloadCores) rfl
  · exact hs

protected theorem State.Tabs.doImgActivate {slot : Nat} (hs : s.Tabs) : (doImgActivate slot s).Tabs := by
  dsimp only [doImgActivate]
  refine .ite hs ?_
  split
  · exact hs.mbAnswer
  · exact hs.activateFirmware
  · exact hs.activateImage
  · exact .ite hs.loadSoftware.dirPut.mbAnswer hs.loadSoftware.mbAnswer

protected theorem State.Tabs.doCcReload {slot : Nat} (hs : s.Tabs) : (doCcReload slot s).Tabs := by
  dsimp only [doCcReload]
  exact hs.loadSoftware.mbAnswer

protected theorem State.Tabs.doImgConfirm {slot : Nat} (hs : s.Tabs) : (doImgConfirm slot s).Tabs :=
  .ite hs (.ite hs.mbAnswer (.mbAnswer (.ite (hs.dirPut.updPv rfl) hs.dirPut)))

protected theorem State.Tabs.doTftpStage {c : List Byte} (hs : s.Tabs) : (doTftpStage c s).Tabs := .ite hs.stage hs

protected theorem State.Tabs.doInfo {slot : Nat} (hs : s.Tabs) : (doInfo slot s).Tabs := hs.mbAnswer

protected theorem State.Tabs.doStoreCommit {slot : Nat} (hs : s.Tabs) : (doStoreCommit slot s).Tabs := by
  dsimp only [doStoreCommit]
  refine .ite hs ?_
  split
  · next s1 e => exact (hs.storeCommit e).mbAnswer
  · exact hs.mbAnswer

protected theorem State.Tabs.doLogRead {slot : Nat} (hs : s.Tabs) : (doLogRead slot s).Tabs := by
  dsimp only [doLogRead]
  refine .ite hs.mbAnswer ?_
  split
  · next s1 e => exact .mbAnswer (hs.mbWrite.of_fst e)
  · next s1 st e => exact .mbAnswer (hs.mbWrite.of_fst e)

protected theorem State.Tabs.doI2c {slot : Nat} {acks : Bool} {given : List Byte} (hs : s.Tabs) : (doI2c slot acks given s).Tabs := by
  dsimp only [doI2c]
  refine .ite hs.mbAnswer ?_
  split
  · next s1 _ e =>
      refine .ite ?_ ((hs.mbRead.of_fst e).mbAnswer)
      split
      · next s2 e2 => exact .mbAnswer (.of_fst ((hs.mbRead.of_fst e).mbWrite) e2)
      · next s2 st e2 => exact .mbAnswer (.of_fst ((hs.mbRead.of_fst e).mbWrite) e2)
  · next s1 st _ e => exact (hs.mbRead.of_fst e).mbAnswer

protected theorem State.Tabs.doGrant {slot : Nat} (hs : s.Tabs) : (doGrant slot s).Tabs := hs.setRfld.mbAnswer

protected theorem State.Tabs.doChallenge {slot : Nat} (hs : s.Tabs) : (doChallenge slot s).Tabs := .mbAnswer (hs.rest.updPv rfl)

protected theorem State.Tabs.doUnlock {slot : Nat} (hs : s.Tabs) : (doUnlock slot s).Tabs := by
  dsimp only [doUnlock]
  split
  · next s1 token e => exact .ite (.mbAnswer ((hs.mbRead.of_fst e).updPv rfl)) (.mbAnswer ((hs.mbRead.of_fst e).updPv rfl))
  · next s1 st _ e => exact (hs.mbRead.of_fst e).mbAnswer

protected theorem State.Tabs.lockDebug (hs : s.Tabs) : s.lockDebug.Tabs := hs.updPv rfl

protected theorem State.Tabs.doTokenExpire {scope : Nat} (hs : s.Tabs) : (doTokenExpire scope s).Tabs := by
  dsimp only [doTokenExpire]
  split
  · exact .ite (hs.updPv rfl) hs
  · exact hs

protected theorem State.Tabs.moveMgmt (hs : s.Tabs) : s.moveMgmt.Tabs := .ite hs.setRfld hs

protected theorem State.Tabs.mgmtRing {bytes : List Byte} (hs : s.Tabs) : (s.mgmtRing bytes).Tabs := .ite hs.ringPut hs

protected theorem State.Tabs.doMgmtReceive {frame : List Byte} (hs : s.Tabs) : (doMgmtReceive frame s).Tabs :=
  .ite (.ite (.mgmtRing (hs.moveMgmt.updPv rfl)) (.ite (hs.moveMgmt.updPv rfl) hs.moveMgmt.mgmtRing)) hs

protected theorem State.Tabs.doMgmtTransmit (hs : s.Tabs) : (doMgmtTransmit s).Tabs := by
  dsimp only [doMgmtTransmit]
  refine .ite ?_ hs
  split
  · exact hs
  · exact .ite (.hbmRead (.ite_fst hs hs.used)) (.setRfld (.hbmRead (.ite_fst hs hs.used)))

/-! ### Sensors -/

protected theorem State.Tabs.notifyDevice (hs : s.Tabs) : s.notifyDevice.Tabs := .ite hs.notifyHub hs.notifyHub

protected theorem State.Tabs.takeTemp {n : Nat} {now : Int} (hs : s.Tabs) : (s.takeTemp n now).Tabs := hs.setReg

protected theorem State.Tabs.tempAlarm {now : Int} (hs : s.Tabs) : (s.tempAlarm now).Tabs := .ite (.ite hs hs.setRfld.notifyDevice) hs

protected theorem State.Tabs.tempLimit {n : Nat} {now : Int} (hs : s.Tabs) : (s.tempLimit n now).Tabs := .ite hs.setRfld.fault hs

protected theorem State.Tabs.tempCool (hs : s.Tabs) : s.tempCool.Tabs := by
  unfold State.tempCool
  exact hs.updPv rfl

protected theorem State.Tabs.doSensorSample {n : Nat} {raw : BitVec 16} (hs : s.Tabs) : (doSensorSample n raw s).Tabs :=
  .ite hs.takeTemp.tempAlarm.tempLimit.tempCool hs

protected theorem State.Tabs.doThermalRelease (hs : s.Tabs) : (doThermalRelease s).Tabs := by
  dsimp only [doThermalRelease]
  split
  · exact .ite (hs.setRfld.updPv rfl) hs
  · exact hs

protected theorem State.Tabs.tempRead {n : Nat} (hs : s.Tabs) : (s.tempRead n).Tabs := hs.setReg

protected theorem State.Tabs.railShow {m v cur : Nat} (hs : s.Tabs) : (s.railShow m v cur).Tabs := hs.used.setReg

protected theorem State.Tabs.brownout {m : Nat} (hs : s.Tabs) : (s.brownout m).Tabs := .ite hs.fault (.ite hs.fault hs.fault)

protected theorem State.Tabs.doRailSample {m v cur : Nat} (hs : s.Tabs) : (doRailSample m v cur s).Tabs :=
  .ite (.ite (.brownout (hs.railShow.updPv rfl)) (hs.railShow.updPv rfl)) hs

protected theorem State.Tabs.doClockWindow {h : Half} {core ctl : Nat} (hs : s.Tabs) : (doClockWindow h core ctl s).Tabs :=
  .ite hs.fault hs

protected theorem State.Tabs.stopClocks (hs : s.Tabs) : s.stopClocks.Tabs := hs.rest

protected theorem State.Tabs.rootLost {code : Nat} (hs : s.Tabs) : (s.rootLost code).Tabs :=
  .ite (.ite hs.stopClocks.fault.setRfld hs.stopClocks.fault) hs

protected theorem State.Tabs.doRefclkLoss (hs : s.Tabs) : (doRefclkLoss s).Tabs := .ite (.rootLost (hs.updPv rfl)) hs

protected theorem State.Tabs.doPllUnlock (hs : s.Tabs) : (doPllUnlock s).Tabs := .ite (.rootLost (hs.updPv rfl)) hs

protected theorem State.Tabs.setDroopFor {h : Half} {n : Nat} (hs : s.Tabs) : (s.setDroopFor h n).Tabs := hs.updPv rfl

protected theorem State.Tabs.droopRises {h : Half} {level : Nat} (hs : s.Tabs) : (s.droopRises h level).Tabs :=
  .ite hs.setDroopFor.setReg.bump hs.setDroopFor.setReg

protected theorem State.Tabs.doDroopRise {h : Half} {mv : Nat} (hs : s.Tabs) : (doDroopRise h mv s).Tabs :=
  .ite hs.droopRises (.ite hs.setDroopFor hs)

protected theorem State.Tabs.doDroopFall {h : Half} (hs : s.Tabs) : (doDroopFall h s).Tabs := .ite hs.setDroopFor.setRfld hs

protected theorem State.Tabs.droopCycle {h : Half} (hs : s.Tabs) : (s.droopCycle h).Tabs := .ite hs.setDroopFor hs

protected theorem State.Tabs.droopRead {h : Half} (hs : s.Tabs) : (s.droopRead h).Tabs := hs.setRfld

protected theorem State.Tabs.doPowerGate {u : UnitId} {sleep : Bool} (hs : s.Tabs) : (doPowerGate u sleep s).Tabs := .ite hs.updUnit hs

protected theorem State.Tabs.doPowerWake {u : UnitId} (hs : s.Tabs) : (doPowerWake u s).Tabs := .ite hs.updUnit hs

protected theorem State.Tabs.doPfailAssert (hs : s.Tabs) : (doPfailAssert s).Tabs :=
  .ite hs (.ite (.ite (.setRfld (.flushLog (.commitStore (.updPv (.setReg (hs.updPv rfl)) rfl)))) (.setReg (hs.updPv rfl))) (hs.updPv rfl))

protected theorem State.Tabs.doPfailDeassert (hs : s.Tabs) : (doPfailDeassert s).Tabs := .ite (.dirFlush (.setRfld (hs.updPv rfl))) hs

/-! ### TimeCmds -/

protected theorem State.Tabs.doAlignSend (hs : s.Tabs) : (doAlignSend s).Tabs := .ite hs.updFord hs

protected theorem State.Tabs.aligned {h : Half} {d : Int} (hs : s.Tabs) : (s.aligned h d).Tabs := by
  unfold State.aligned
  extract_lets off s1 s2 s3
  have h1 : s3.Tabs := .ite hs.rest.updTime.fault hs.rest.updTime
  exact .ite h1.fault h1

protected theorem State.Tabs.doAlignReceive (hs : s.Tabs) : (doAlignReceive s).Tabs := by
  dsimp only [doAlignReceive]
  split
  · exact hs
  · exact .ite hs.updFord hs.updFord.updTime.aligned

/-! ### Csr -/

protected theorem State.Tabs.readEffect {a : Agent} {u : UnitId} {b : Blk} {off : Nat} (hs : s.Tabs) : (s.readEffect a u b off).Tabs := by
  dsimp only [State.readEffect]
  split
  · exact hs
  · refine .ite hs ?_
    split
    · exact .ite hs.doPtpNsRead hs
    · exact .ite hs.droopRead hs
    · exact .ite hs.used hs
    · exact .ite hs.recLoRead (.ite hs.recHiRead (.ite hs.detailARead (.ite hs.detailBRead hs)))
    · exact .ite hs.popTxts hs
    · exact .ite hs.used hs
    · exact .ite hs.tempRead hs
    · exact hs

protected theorem State.Tabs.dtsWord {a : Agent} {h : Half} {upper : Bool} (hs : s.Tabs) : (s.dtsWord a h upper).1.Tabs := by
  dsimp only [State.dtsWord]
  refine .ite_fst ?_ hs.doDtsNowRead
  split
  · exact hs.updTime
  · exact hs

protected theorem State.Tabs.csrHole {addr : Nat} (hs : s.Tabs) : (s.csrHole addr).Tabs := hs.fault

protected theorem State.Tabs.csrRead {a : Agent} {addr width : Nat} (hs : s.Tabs) : (s.csrRead a addr width).1.Tabs := by
  dsimp only [State.csrRead]
  refine .ite_fst hs ?_
  refine .ite_fst hs.csrHole ?_
  split
  · exact hs.csrHole
  · refine .ite_fst hs ?_
    split
    · exact .ite_fst hs.dtsWord hs.readEffect
    · exact hs.readEffect

protected theorem State.Tabs.writeInject {u : UnitId} {v m : DWord} (hs : s.Tabs) : (s.writeInject u v m).Tabs := by
  unfold State.writeInject
  extract_lets s1
  have h1 : s1.Tabs := .ite hs.forceWrite hs
  exact .ite (.ite h1.armInv h1.setRfld) h1

protected theorem State.Tabs.writeUnitState {a : Agent} {u : UnitId} {v : DWord} (hs : s.Tabs) : (s.writeUnitState a u v).Tabs := by
  dsimp only [State.writeUnitState]
  split
  · exact .ite hs.doDevRun (.ite hs.doDevRecovery hs)
  · exact hs.request

protected theorem State.Tabs.writeUcb {a : Agent} {u : UnitId} {row : RegRow} {v m : DWord} (hs : s.Tabs) :
    (s.writeUcb a u row v m).Tabs := .ite hs.writeUnitState (.ite hs.commitKey (.ite hs.writeInject (.ite hs.setReg hs.setReg)))

protected theorem State.Tabs.setNosReady {a : Agent} (hs : s.Tabs) : (s.setNosReady a).Tabs := .ite (hs.updPv rfl) hs

protected theorem State.Tabs.writeSlew {v m : DWord} (hs : s.Tabs) : (s.writeSlew v m).Tabs := .ite hs.doSlewWrite hs.setRfld

protected theorem State.Tabs.writePtpCtl {w : DWord} (hs : s.Tabs) : (s.writePtpCtl w).Tabs :=
  .ite hs.doPtpSet (.ite hs.doPtpAdd (.ite hs.doPtpSub hs))

protected theorem State.Tabs.writeDtsCtl {w : DWord} (hs : s.Tabs) : (s.writeDtsCtl w).Tabs :=
  .ite (.doLoadArm (.ite hs.doLoadNow hs)) (.ite hs.doLoadNow hs)

protected theorem State.Tabs.writeLocksForce {a : Agent} {h : Half} {w : DWord} (hs : s.Tabs) : (s.writeLocksForce a h w).Tabs :=
  .ite hs.forceLock hs

protected theorem State.Tabs.writeRun {h : Half} {run : Bool} (hs : s.Tabs) : (s.writeRun h run).Tabs :=
  .ite hs (.ite hs.runCores hs.stopCores)

protected theorem State.Tabs.writeMbox {a : Agent} {slot : Nat} {row : RegRow} {v m : DWord} {plain : State} (hs : s.Tabs)
    (hp : plain.Tabs) : (s.writeMbox a slot row v m plain).Tabs := .ite hs (.ite (.ite hp.mbGo hp) (.ite hs hp))

protected theorem State.Tabs.writePortCfg {p : PortIx} {off : Nat} {new : DWord} (hs : s.Tabs) : (s.writePortCfg p off new).Tabs :=
  .ite hs.setReg (.ite hs hs.setReg)

protected theorem State.Tabs.writeIntCfg {h : Half} {t : TileIx} {new : DWord} (hs : s.Tabs) : (s.writeIntCfg h t new).Tabs := hs.setReg

protected theorem State.Tabs.settleExp {h : Half} {was : Bool} (hs : s.Tabs) : (s.settleExp h was).Tabs :=
  .ite hs (.ite hs.portFalls hs.portReturns)

protected theorem State.Tabs.writeActs {a : Agent} {u : UnitId} {b : Blk} {row : RegRow} {i : Nat} {v m new : DWord}
    {plain : State} (hs : s.Tabs) (hp : plain.Tabs) : (s.writeActs a u b row i v m new plain).Tabs := by
  dsimp only [State.writeActs]
  split
  · exact .ite hs.writeDtsCtl
      (.ite hs.writeSlew (.ite hs.writePtpCtl (.ite hp.settleTsync (.ite (.ite hp hs.setReg) (.ite (.ite hp.setNosReady hp) hp)))))
  · exact .ite hs.imgCtl (.ite hs (.ite hp.settleExp hp))
  · exact .ite hs.writeChCfg
      (.ite (.ite hs.writeRun hs)
         (.ite (.ite hp hs) (.ite (.ite (.ite hs.setReg hs.setReg.ringSizeWrite) (.ite hp.ringSizeWrite hp)) (.ite hp.doThreadCtl hp))))
  · exact .ite (.ite hs.recAck hs) (.ite hs.doHbWrite (.ite (.ite hs.doPrivetRelease hs) hp))
  · exact .ite hp.readSel hp
  · exact .ite hp.noteSizeWrite hp
  · exact .ite hs.batchCmd hp
  · exact .ite hp.telemSizeWrite hp
  · exact .ite hs.writeLocksForce hp
  · exact .ite hp.settleSpare (.ite hs.writeIntCfg hp)
  · exact .ite hs.writePortCfg hp
  · exact .ite hs.svcConfig (.ite hs.svcPost hp)
  · exact .ite hs.writeChCfg hp
  · exact .ite hp.doThreadCtl (.ite hs.doEvPost (.ite (.ite hp hs) hp))
  · exact .ite (.ite hs.calWrite hs) hp
  · exact .writeMbox hs hp
  · exact .ite hp hs
  · exact .ite hs.lockDebug hs
  · exact hp

protected theorem State.Tabs.writeReg {a : Agent} {u : UnitId} {b : Blk} {off : Nat} {v m : DWord} (hs : s.Tabs) :
    (s.writeReg a u b off v m).Tabs := by
  dsimp only [State.writeReg]
  split
  · exact hs
  · exact .ite hs.writeUcb (.writeActs hs hs.setReg)

protected theorem State.Tabs.writeStaged {u : UnitId} {b : Blk} {off : Nat} {v m : DWord} (hs : s.Tabs) :
    (s.writeStaged u b off v m).Tabs := by
  dsimp only [State.writeStaged]
  refine .ite hs ?_
  split
  · exact hs
  · exact .ite hs hs.setStg

protected theorem State.Tabs.csrWrite {a : Agent} {addr width : Nat} {v : DWord} (hs : s.Tabs) : (s.csrWrite a addr width v).Tabs := by
  dsimp only [State.csrWrite]
  refine .ite hs ?_
  refine .ite hs.csrHole ?_
  split
  · exact hs.csrHole
  · exact .ite hs.writeStaged hs.writeReg

protected theorem State.Tabs.agentWrite {a : Agent} {u : UnitId} {b : Blk} {off : Nat} {v : DWord} (hs : s.Tabs) :
    (s.agentWrite a u b off v).Tabs := .ite hs.writeReg hs

protected theorem State.Tabs.agentBatch {a : Agent} {h : Half} {slot : Fin 256} {cmd : Nat} (hs : s.Tabs) :
    (s.agentBatch a h slot cmd).Tabs := .ite hs.batchCmd hs

/-! ### Thread -/

protected theorem State.Tabs.physRead {h : Half} {n : Fin 32} {pa len : Nat} (hs : s.Tabs) : (s.physRead h n pa len).1.Tabs := by
  dsimp only [State.physRead]
  split
  · exact hs.csrRead
  · exact hs.hbmRead
  · exact hs.hbmRead
  · exact hs.hbmRead
  · exact hs

protected theorem State.Tabs.walk {h : Half} {n : Fin 32} {va level table : Nat} (hs : s.Tabs) : (s.walk h n va level table).1.Tabs := by
  induction level generalizing s table with
  | zero => exact hs
  | succ lv ih =>
    unfold State.walk
    dsimp only
    split
    · next s1 e => exact hs.physRead.of_fst e
    · next s1 bs e =>
      have h1 := hs.physRead.of_fst e
      exact .ite_fst h1 (.ite_fst (.ite_fst h1 (ih h1)) (.ite_fst h1 (.ite_fst h1 h1)))

protected theorem State.Tabs.xlLookup {h : Half} {n : Fin 32} {va : Nat} (hs : s.Tabs) : (s.xlLookup h n va).1.Tabs := by
  dsimp only [State.xlLookup]
  split
  · exact hs
  · exact hs.walk

protected theorem State.Tabs.physWrite {h : Half} {n : Fin 32} {pa : Nat} {bs : List Byte} {t : State} (hs : s.Tabs)
    (e : s.physWrite h n pa bs = .done t) : t.Tabs := by
  unfold State.physWrite at e
  split at e
  · cases e; exact hs.csrWrite
  · cases e; exact hs.hbmWrite
  · split at e
    · split at e
      · cases e
      · cases e; exact hs.hbmWrite.updCc keeps
    · cases e; exact hs.hbmWrite.bump
  · split at e
    · cases e; exact hs
    · cases e; exact hs.hbmWrite
  · cases e

protected theorem State.Tabs.xlMark {h : Half} {n : Fin 32} {va : Nat} {x : XlEntry} {store : Bool} {t : State} (hs : s.Tabs)
    (e : s.xlMark h n va x store = some t) : t.Tabs := by
  dsimp only [State.xlMark] at e
  refine .ite_some (fun e => ?_) (fun e => ?_) e
  · cases e; exact hs.updCc keeps
  · split at e
    · next s1 bs e1 =>
      split at e
      · next s2 e2 => cases e; exact ((hs.physRead.of_fst e1).physWrite e2).updCc keeps
      · cases e; exact (hs.physRead.of_fst e1).updCc keeps
      · cases e
    · next s1 e1 => cases e; exact (hs.physRead.of_fst e1).updCc keeps

protected theorem State.Tabs.translate {h : Half} {n : Fin 32} {va acc : Nat} (hs : s.Tabs) : (s.translate h n va acc).1.Tabs := by
  dsimp only [State.translate]
  refine .ite_fst hs ?_
  refine .ite_fst (.ite_fst hs hs) ?_
  split
  · next s1 e => exact hs.xlLookup.of_fst e
  · next s1 x e =>
      refine .ite_fst (hs.xlLookup.of_fst e) ?_
      refine .ite_fst (hs.xlLookup.of_fst e) ?_
      refine .ite_fst (hs.xlLookup.of_fst e) ?_
      split
      · next s2 e2 => exact (hs.xlLookup.of_fst e).xlMark e2
      · exact hs

protected theorem State.Tabs.ccLoad {h : Half} {n : Fin 32} {va len acc : Nat} (hs : s.Tabs) : (s.ccLoad h n va len acc).1.Tabs := by
  dsimp only [State.ccLoad]
  refine .ite_fst hs ?_
  split
  · next s1 f e => exact hs.translate.of_fst e
  · next s1 pa e =>
      split
      · next s2 bs e2 => exact (hs.translate.of_fst e).physRead.of_fst e2
      · next s2 e2 => exact (hs.translate.of_fst e).physRead.of_fst e2

protected theorem State.Tabs.ccStore {h : Half} {n : Fin 32} {va : Nat} {bs : List Byte} (hs : s.Tabs) : (s.ccStore h n va bs).1.Tabs := by
  unfold State.ccStore
  refine .ite_fst hs ?_
  split
  · next s1 f e => exact hs.translate.of_fst e
  · next s1 pa e =>
    split
    · next s2 e2 => exact (hs.translate.of_fst e).physWrite e2
    · exact hs.translate.of_fst e
    · exact hs.translate.of_fst e

protected theorem State.Tabs.ccSpanFrom {h : Half} {n : Fin 32} {va k : Nat} (hs : s.Tabs) : (s.ccSpanFrom h n va k).1.Tabs := by
  induction k generalizing s va with
  | zero => exact hs
  | succ k ih =>
    unfold State.ccSpanFrom
    split
    · next s1 f e => exact hs.ccLoad.of_fst e
    · next s1 bs e =>
      have h2 := ih (va := va + 8) (hs.ccLoad.of_fst e)
      split
      · next s2 f e2 => exact h2.of_fst e2
      · next s2 cs e2 => exact h2.of_fst e2

protected theorem State.Tabs.ccSpan {h : Half} {n : Fin 32} {va k : Nat} (hs : s.Tabs) : (s.ccSpan h n va k).1.Tabs := by
  dsimp only [State.ccSpan]
  split
  · next s1 bs e => exact hs.ccSpanFrom.of_fst e
  · exact hs

protected theorem State.Tabs.ccWriteFrom {h : Half} {n : Fin 32} {va : Nat} {bs : List Byte} {k : Nat} (hs : s.Tabs) :
    (s.ccWriteFrom h n va bs k).1.Tabs := by
  induction k generalizing s va bs with
  | zero => exact hs
  | succ k ih =>
    unfold State.ccWriteFrom
    split
    · next s1 f e => exact hs.ccStore.of_fst e
    · next s1 e => exact ih (hs.ccStore.of_fst e)

protected theorem State.Tabs.ccWriteSpan {h : Half} {n : Fin 32} {va : Nat} {bs : List Byte} {k : Nat} (hs : s.Tabs) :
    (s.ccWriteSpan h n va bs k).1.Tabs := by
  dsimp only [State.ccWriteSpan]
  split
  · next s1 e => exact hs.ccWriteFrom.of_fst e
  · exact hs

protected theorem State.Tabs.load {th : ThreadRef} {addr len : Nat} (hs : s.Tabs) : (s.load th addr len).1.Tabs := by
  dsimp only [State.load]
  split
  · exact hs
  · exact hs.ccLoad

protected theorem State.Tabs.pkStore {h : Half} {t : TileIx} {n : Fin 128} {addr : Nat} {bs : List Byte} {s1 : State} (hs : s.Tabs)
    (e : s.pkStore h t n addr bs = .ok s1) : s1.Tabs := by
  unfold State.pkStore at e
  dsimp only at e
  split at e
  · cases e
  · split at e
    · cases e
    · split at e
      · cases e
      · split at e
        · cases e; exact hs.updTile fun _ => Tile.wf_put
        · cases e

protected theorem State.Tabs.store {th : ThreadRef} {addr : Nat} {bs : List Byte} (hs : s.Tabs) : (s.store th addr bs).1.Tabs := by
  unfold State.store
  split
  · split
    · next s1 e => exact hs.pkStore e
    · exact hs
  · exact hs.ccStore

/-! ### FkRun -/

protected theorem State.Tabs.wakeCore {th : ThreadRef} (hs : s.Tabs) : (s.wakeCore th).Tabs := .ite hs.updUnit hs

protected theorem State.Tabs.grant {th : ThreadRef} (hs : s.Tabs) : (s.grant th).Tabs :=
  have h1 := State.Tabs.ite hs.wakeCore.bumpCore.bumpCore hs.wakeCore.bumpCore
  h1.withSlots (tset_wf _ _ _ _ h1.slots)

protected theorem State.Tabs.setPc {th : ThreadRef} {a : Nat} (hs : s.Tabs) : (s.setPc th a).Tabs := hs.updThread keeps

protected theorem State.Tabs.fetch {th : ThreadRef} (hs : s.Tabs) : (s.fetch th).1.Tabs := by
  dsimp only [State.fetch]
  split
  · exact .ite_fst hs hs
  · split
    · next s1 bs e => exact hs.ccLoad.of_fst e
    · next s1 f e => exact hs.ccLoad.of_fst e

protected theorem State.Tabs.slotCycle {h : Half} (hs : s.Tabs) : (s.slotCycle h).Tabs :=
  hs.withSlots (Tbl.wf_foldl (fun _ _ => tset_wf _ _ _ _) _ _ (Tbl.wf_filter hs.slots))

protected theorem State.Tabs.trapDiscard {th : ThreadRef} {cause pc reason : Nat} (hs : s.Tabs) :
    (s.trapDiscard th cause pc reason).Tabs := by
  dsimp only [State.trapDiscard]
  split
  · exact hs.bumpCore.setReg.discardTask
  · exact hs

protected theorem State.Tabs.kernelEntry {th : ThreadRef} {cause ret : Nat} {info : DWord} (hs : s.Tabs) :
    (s.kernelEntry th cause ret info).Tabs :=
  hs.updThread fun _ hx => Thread.wf_withPc (Thread.wf_setK (Thread.wf_setK (Thread.wf_setK (Thread.wf_setK hx))))

protected theorem State.Tabs.squashOne {h : Half} {t : TileIx} {n : Fin 128} {w : Nat} {go : Bool} (hs : s.Tabs) :
    (s.squashOne h t n w go).Tabs := by
  dsimp only [State.squashOne]
  split
  · exact hs.bumpBy.bumpBy
  · exact hs.bumpBy.bumpBy.updTile fun x hx => Tile.wf_putTask (x := { x with cancels := _ }) hx Task.savedWf_setDc

protected theorem State.Tabs.squashPath {h : Half} {t : TileIx} {th : Fin 128} {n a c last conds fuel : Nat} (hs : s.Tabs) :
    (s.squashPath h t th n a c last conds fuel).Tabs := by
  induction fuel generalizing s n a c conds with
  | zero => exact hs
  | succ k ih =>
    unfold State.squashPath
    refine .ite hs ?_
    dsimp only
    split
    · exact hs.squashOne
    · exact ih hs.squashOne

protected theorem State.Tabs.wrongPath {th : ThreadRef} {a : Nat} {hinted : Bool} {n : Nat} (hs : s.Tabs) :
    (s.wrongPath th a hinted n).Tabs := by
  dsimp only [State.wrongPath]
  split
  · exact hs.squashPath
  · exact hs

protected theorem State.Tabs.squashBehind {th : ThreadRef} {a : Nat} (hs : s.Tabs) : (s.squashBehind th a).Tabs := by
  dsimp only [State.squashBehind]
  split
  · exact hs.squashPath.used
  · exact hs

protected theorem State.Tabs.takeTrap {th : ThreadRef} {cause : Nat} {tval : DWord} {tpc at0 : Nat} (hs : s.Tabs) :
    (s.takeTrap th cause tval tpc at0).Tabs := by
  dsimp only [State.takeTrap]
  split
  · exact hs.kernelEntry
  · refine .ite (.trapDiscard (.ite hs hs.squashBehind)) ?_
    split
    · exact .trapDiscard (.ite hs hs.squashBehind)
    · exact .bumpCore (.updThread (.ite hs hs.squashBehind) keeps)

protected theorem State.Tabs.failWith {th : ThreadRef} {at0 : Nat} {f : Fail} (hs : s.Tabs) : (s.failWith th at0 f).Tabs := by
  dsimp only [State.failWith]
  split
  · exact hs.takeTrap
  · exact hs.takeTrap.used
  · split
    · exact hs.discardTask
    · exact hs
  · exact hs

protected theorem State.Tabs.putG {th : ThreadRef} {r v : Nat} (hs : s.Tabs) : (s.putG th r v).Tabs :=
  hs.updThread fun _ => Thread.wf_setG

protected theorem State.Tabs.putG64 {th : ThreadRef} {r v : Nat} (hs : s.Tabs) : (s.putG64 th r v).Tabs :=
  hs.updThread fun _ => Thread.wf_setG

protected theorem State.Tabs.stick {th : ThreadRef} {f : Word} (hs : s.Tabs) : (s.stick th f).Tabs := hs.updThread keeps

protected theorem State.Tabs.fkFinish {c : Fk} {r : FkRes} (hs : s.Tabs) (hp : r.state.Tabs) : (s.fkFinish c r).Tabs := by
  dsimp only [State.fkFinish]
  split
  · exact .ite hp.setPc hs.takeTrap
  · exact .ite hp hs.takeTrap
  · exact .ite hp.setPc hs.takeTrap
  · exact .ite hp.setPc hp.takeTrap
  · exact hp.failWith
  · exact hp.takeTrap
  · exact hp

protected theorem State.Tabs.fkStep {op : FkOp} {th : ThreadRef} {body : State → Fk → FkRes} (hs : s.Tabs)
    (hf : ∀ {t a}, t.Tabs → (body t a).state.Tabs) : (s.fkStep op th body).Tabs := by
  dsimp only [State.fkStep]
  refine .ite ?_ hs
  split
  · next s1 f e => exact (hs.fetch.of_fst e).failWith
  · next s1 w e =>
      split
      · exact (hs.fetch.of_fst e).grant.takeTrap
      · exact .ite (.ite (.fkFinish ((hs.fetch.of_fst e).grant) (hf ((hs.fetch.of_fst e).grant))) (hs.fetch.of_fst e)) hs

protected theorem State.Tabs.fkRun {op : FkOp} {th : ThreadRef} {body : State → Fk → FkRes} (hs : s.Tabs)
    (hf : ∀ {t a}, t.Tabs → (body t a).state.Tabs) : (s.fkRun op th body).Tabs := .orWait hs (fun h1 => .fkStep h1 hf)

/-! ### Alu -/

protected theorem State.Tabs.gRes {c : Fk} {r : Res} (hs : s.Tabs) : (s.gRes c r).state.Tabs := by
  dsimp only [State.gRes]
  exact hs.putG.stick

protected theorem State.Tabs.aluBody {o : FkOp} {c : Fk} (hs : s.Tabs) : (aluBody o s c).state.Tabs := by
  dsimp only [aluBody]
  exact hs.gRes

protected theorem State.Tabs.divBody {o : FkOp} {c : Fk} (hs : s.Tabs) : (divBody o s c).state.Tabs := by
  dsimp only [divBody]
  exact .ite_state hs.putG.stick hs.putG.stick

protected theorem State.Tabs.setFlags {th : ThreadRef} {f : Word} (hs : s.Tabs) : (s.setFlags th f).Tabs := hs.updThread keeps

protected theorem State.Tabs.gRes64 {c : Fk} {r : Res} (hs : s.Tabs) : (s.gRes64 c r).Tabs := hs.putG64.stick

protected theorem State.Tabs.alu64Body {c : Fk} (hs : s.Tabs) : (alu64Body s c).state.Tabs := by
  dsimp only [alu64Body]
  split
  · exact hs.setFlags
  · exact hs.setFlags
  · exact .ite_state hs.gRes64 hs.gRes64
  · exact hs

protected theorem State.Tabs.aRes {c : Fk} {r : Res} (hs : s.Tabs) : (s.aRes c r).state.Tabs := by
  dsimp only [State.aRes]
  exact (hs.updThread fun _ hx => Thread.wf_withA hx (tset_wf _ _ _ _)).stick

/-! ### Control -/

protected theorem State.Tabs.branchBody {taken : Bool} {n : Nat} {c : Fk} (hs : s.Tabs) : (branchBody taken n s c).state.Tabs := by
  dsimp only [branchBody]
  exact .ite hs hs.bumpCore.wrongPath

protected theorem State.Tabs.pushRs {th : ThreadRef} {a : Nat} (hs : s.Tabs) : (s.pushRs th a).Tabs := hs.updThread keeps

/-! ### FkMem -/

protected theorem State.Tabs.loadBody {len : Nat} {f : List Byte → Nat} {c : Fk} (hs : s.Tabs) : (loadBody len f s c).state.Tabs := by
  dsimp only [loadBody]
  split
  · next s1 bs e => exact (hs.load.of_fst e).putG
  · next s1 x e => exact hs.load.of_fst e

protected theorem State.Tabs.storeBody {f : Nat → List Byte} {c : Fk} (hs : s.Tabs) : (storeBody f s c).state.Tabs := by
  dsimp only [storeBody]
  split
  · next s1 e => exact hs.store.of_fst e
  · next s1 x e => exact hs.store.of_fst e

protected theorem State.Tabs.setDsp {th : ThreadRef} {v : Nat} (hs : s.Tabs) : (s.setDsp th v).Tabs :=
  hs.updThread fun _ => Thread.wf_setG

protected theorem State.Tabs.issueReq {h : Half} {t : TileIx} {n : Fin 128} {c : Fk} {r : Response} (hs : s.Tabs) :
    (s.issueReq h t n c r).Tabs := .dcUp (hs.updTile keeps)

protected theorem State.Tabs.frdBody {h : Half} {t : TileIx} {n : Fin 128} {c : Fk} (hs : s.Tabs) : (frdBody h t n s c).state.Tabs := by
  dsimp only [frdBody]
  refine .ite_state hs ?_
  split
  · exact hs
  · exact .ite_state hs hs.issueReq

protected theorem State.Tabs.queueParts {h : Half} {t : TileIx} {resp src : Nat} {write stream : Bool} {a : Nat}
    {data : List Byte} {m : Nat} (hs : s.Tabs) : (s.queueParts h t resp src write stream a data m).Tabs :=
  hs.foldl fun h1 => .ite (.finishPart (.getD (fun e => h1.hbmStop e) h1)) h1.updHbm

protected theorem State.Tabs.hbmReqBody {write : Bool} {h : Half} {t : TileIx} {n : Fin 128} {c : Fk} (hs : s.Tabs) :
    (hbmReqBody write h t n s c).state.Tabs := by
  dsimp only [hbmReqBody]
  refine .ite_state hs ?_
  refine .ite_state hs ?_
  refine .ite_state ?_ ?_
  · split
    · exact hs
    · exact .ite_state hs hs.issueReq.queueParts
  · split
    · exact hs
    · exact .ite_state hs hs.issueReq.queueParts

protected theorem State.Tabs.doMemoryResponse {h : Half} {t : TileIx} {id : Nat} (hs : s.Tabs) : (doMemoryResponse h t id s).Tabs := by
  dsimp only [doMemoryResponse]
  split
  · exact .ite hs.respond hs
  · exact hs

protected theorem State.Tabs.park {h : Half} {t : TileIx} {n : Fin 128} {k mask : Nat} (hs : s.Tabs) : (s.park h t n k mask).Tabs :=
  ((hs.updTask fun _ _ => Task.savedWf_of_some rfl (Thread.wf_withPc (Thread.wf_parked (hs.thread _)))).updThread fun _ _ => rfl).bump

protected theorem State.Tabs.twaitBody {h : Half} {t : TileIx} {n : Fin 128} {c : Fk} (hs : s.Tabs) : (twaitBody h t n s c).state.Tabs := by
  dsimp only [twaitBody]
  exact .ite_state hs (.ite_state hs.park (.bump (.updTask (hs.updThread keeps) keeps)))

protected theorem State.Tabs.refuseOutput {h : Half} {t : TileIx} {n : Fin 128} {k reason pc : Nat} (hs : s.Tabs) :
    (s.refuseOutput h t n k reason pc).Tabs := hs.bump.setReg.completeTask

protected theorem State.Tabs.acceptOutput {h : Half} {t : TileIx} {k : Nat} {d : List Byte} (hs : s.Tabs) :
    (s.acceptOutput h t k d).Tabs := by
  refine .ite (.completeTask (.bump (.rest (hs.updBuf fun b hb => ?_)))) hs.bump.bump.completeTask
  split
  · exact tput_wf _ _ _ hb
  · exact hb

protected theorem State.Tabs.tdoneBody {h : Half} {t : TileIx} {n : Fin 128} {c : Fk} (hs : s.Tabs) : (tdoneBody h t n s c).state.Tabs := by
  dsimp only [tdoneBody]
  refine .ite_state hs.bump.completeTask ?_
  refine .ite_state hs ?_
  split
  · exact hs
  · split
    · exact hs
    · exact .ite_state hs.refuseOutput hs.acceptOutput

protected theorem State.Tabs.postBytes {th : ThreadRef} {ga n : Nat} (hs : s.Tabs) : (s.postBytes th ga n).1.Tabs := by
  dsimp only [State.postBytes]
  split
  · split
    · exact hs
    · split
      · exact hs
      · exact hs
  · split
    · next s1 bs e => exact hs.ccSpan.of_fst e
    · next s1 x e => exact hs.ccSpan.of_fst e

/-! ### Coproc -/

protected theorem State.Tabs.cpTrap {h : Half} {t : TileIx} {cl w status : Nat} (hs : s.Tabs) : (s.cpTrap h t cl w status).state.Tabs := by
  dsimp only [State.cpTrap]
  exact hs.bump

protected theorem State.Tabs.lostTrap {h : Half} {t : TileIx} {n : Fin 128} {w : Nat} {e : Nat × Nat} (hs : s.Tabs) :
    (s.lostTrap h t n w e).state.Tabs := by
  dsimp only [State.lostTrap]
  exact .cpTrap (hs.updTile keeps)

protected theorem State.Tabs.updInst {q : CpCall} {f : CpInst → CpInst} (hs : s.Tabs) : (s.updInst q f).Tabs := hs.updTile keeps

protected theorem State.Tabs.toCluster {q : CpCall} {f : State → CpCall → FkRes} (hs : s.Tabs)
    (hf : ∀ {t a}, t.Tabs → (f t a).state.Tabs) : (s.toCluster q f).state.Tabs := by
  dsimp only [State.toCluster]
  exact .ite_state hs (hf hs)

protected theorem State.Tabs.cpCall {th : ThreadRef} {op : FkOp} {f : State → CpCall → FkRes} (hs : s.Tabs)
    (hf : ∀ {t a}, t.Tabs → (f t a).state.Tabs) : (cpCall th op s f).Tabs := by
  dsimp only [cpCall]
  refine .fkRun hs fun h1 => ?_
  split
  · exact h1
  · split
    · exact h1.lostTrap
    · refine .ite_state ?_ (.toCluster h1 hf)
      split
      · exact .toCluster h1 hf
      · exact h1.cpTrap

protected theorem State.Tabs.callTrap {q : CpCall} {status : Nat} (hs : s.Tabs) : (s.callTrap q status).state.Tabs := by
  dsimp only [State.callTrap]
  exact hs.cpTrap

protected theorem State.Tabs.cpIssue {q : CpCall} {r : Response} (hs : s.Tabs) : (s.cpIssue q r).Tabs := hs.bump.issueReq

protected theorem State.Tabs.cpDone {q : CpCall} {good : Bool} {l : Loc} {bs : List Byte} {f : State → State} (hs : s.Tabs)
    (hf : ∀ {t}, t.Tabs → (f t).Tabs) : (s.cpDone q good l bs f).state.Tabs := by
  dsimp only [State.cpDone]
  exact .ite_state hs (.cpIssue (.ite (hf hs) hs))

protected theorem State.Tabs.lateReport {h : Half} {t : TileIx} {n : Nat} {f : LateFail} (hs : s.Tabs) : (s.lateReport h t n f).Tabs := by
  dsimp only [State.lateReport]
  split
  · exact hs.raiseInt.bump.bump
  · split
    · exact .bump (.updThread (hs.raiseInt.bump.updTile keeps) keeps)
    · exact .updThread (hs.raiseInt.bump.updTile keeps) keeps

protected theorem State.Tabs.lateFail {h : Half} {t : TileIx} {r : Response} {status : Nat} (hs : s.Tabs) :
    (s.lateFail h t r status).Tabs := by
  dsimp only [State.lateFail]
  split
  · exact hs
  · exact .ite (.report (hs.respond.lateReport.updTile keeps)) hs.respond.lateReport

protected theorem State.Tabs.settleAfter {h : Half} {t : TileIx} {r : Response} (hs : s.Tabs) : (s.settleAfter h t r).Tabs := by
  dsimp only [State.settleAfter]
  split
  · exact hs.settleInst
  · exact hs

protected theorem State.Tabs.doCoprocResponse {h : Half} {t : TileIx} {id : Nat} (hs : s.Tabs) : (doCoprocResponse h t id s).Tabs := by
  dsimp only [doCoprocResponse]
  split
  · exact hs
  · split
    · exact .ite (.settleAfter (.ite hs.lateFail hs.respond)) hs
    · exact hs

protected theorem State.Tabs.doCoprocLate {h : Half} {t : TileIx} {id code : Nat} (hs : s.Tabs) : (doCoprocLate h t id code s).Tabs := by
  dsimp only [doCoprocLate]
  split
  · exact hs
  · split
    · exact .ite hs.lateFail.settleAfter hs
    · exact hs

protected theorem State.Tabs.doCancelAck {h : Half} {t : TileIx} {cl : Nat} (hs : s.Tabs) : (doCancelAck h t cl s).Tabs := by
  dsimp only [doCancelAck]
  split
  · exact hs
  · exact .ite (.settleSlot (.bump (hs.updTile keeps))) (.dcDown (.bump (hs.updTile keeps)))

protected theorem State.Tabs.cpLock {h : Half} {t : TileIx} {n : Fin 128} {k u i : Nat} (hs : s.Tabs) : (s.cpLock h t n k u i).1.Tabs := by
  dsimp only [State.cpLock]
  refine .ite_fst hs ?_
  refine .ite_fst hs ?_
  split
  · exact hs.updTile keeps
  · exact .bump (hs.updTile keeps)

protected theorem State.Tabs.cpUnlock {h : Half} {t : TileIx} {k u i : Nat} (hs : s.Tabs) : (s.cpUnlock h t k u i).1.Tabs := by
  dsimp only [State.cpUnlock]
  refine .ite_fst hs ?_
  split
  · exact hs.releaseInst
  · exact hs

protected theorem State.Tabs.statusCall {f : State → Half → TileIx → Fin 128 → Nat → Nat → Nat → State × Nat} {c : Fk} (hs : s.Tabs)
    (hf : ∀ {t a b c d e f'}, t.Tabs → (f t a b c d e f').1.Tabs) : (statusCall f s c).state.Tabs := by
  dsimp only [statusCall]
  split
  · exact hs
  · split
    · exact hs.lostTrap
    · exact .putG (hf hs)

protected theorem State.Tabs.hashBody {span : Nat → Nat} {pick : Nat → List Byte → List Byte} {q : CpCall} (hs : s.Tabs) :
    (hashBody span pick s q).state.Tabs := by
  dsimp only [hashBody]
  refine .ite_state hs.callTrap ?_
  split
  · exact hs
  · exact hs
  · exact .cpDone hs (fun h1 => h1)

protected theorem State.Tabs.fracBody {f : Nat → Nat → Nat → Nat → Nat × Bool × Bool} {q : CpCall} (hs : s.Tabs) :
    (fracBody f s q).state.Tabs := by
  dsimp only [fracBody]
  split
  · exact hs
  · exact .cpDone hs (fun h1 => h1.used)

protected theorem State.Tabs.expBody {q : CpCall} (hs : s.Tabs) : (expBody s q).state.Tabs := by
  dsimp only [expBody]
  refine .ite_state hs.callTrap ?_
  split
  · exact hs
  · exact hs
  · refine .ite_state hs.callTrap ?_
    refine .ite_state hs ?_
    refine .ite_state (.cpDone hs (fun h1 => h1)) ?_
    split
    · exact hs
    · exact hs.cpIssue.used.rest

/-! ### Confirm -/

protected theorem State.Tabs.confBody {lo hi : Nat} {f : State → CpCall → ConfString → List Byte × Bool} {q : CpCall} (hs : s.Tabs) :
    (confBody lo hi f s q).state.Tabs := by
  dsimp only [confBody]
  split
  · exact hs
  · exact hs
  · exact .ite_state hs.callTrap (.cpDone hs (fun h1 => h1))

protected theorem State.Tabs.confStep {q : CpCall} (hs : s.Tabs) : (confStep s q).state.Tabs := by
  dsimp only [confStep]
  split
  · exact hs
  · exact .cpDone hs (fun h1 => h1.countScan)

/-! ### Events -/

protected theorem State.Tabs.breakDead {th : ThreadRef} (hs : s.Tabs) : (s.breakDead th).Tabs := by
  dsimp only [State.breakDead]
  split
  · exact hs.updTile keeps
  · exact hs

protected theorem State.Tabs.waitevDone {th : ThreadRef} {gd : Nat} {mask : Word} {clear : Bool} {causes : Nat} (hs : s.Tabs) :
    (s.waitevDone th gd mask clear causes).Tabs := hs.breakDead.updThread fun _ => Thread.wf_setG

protected theorem State.Tabs.doWaitevComplete {th : ThreadRef} (hs : s.Tabs) : (doWaitevComplete th s).Tabs := by
  dsimp only [doWaitevComplete]
  split
  · exact .ite hs.waitevDone hs
  · exact hs

protected theorem State.Tabs.doTimerExpire {th : ThreadRef} (hs : s.Tabs) : (doTimerExpire th s).Tabs := by
  dsimp only [doTimerExpire]
  refine .ite ?_ hs
  split
  · exact hs.doWaitevComplete
  · exact hs.withdrawWaiter.bump.answerLock.updThread keeps
  · exact hs

protected theorem State.Tabs.enterInt {th : ThreadRef} {i e : Nat} (hs : s.Tabs) : (s.enterInt th i e).Tabs := by
  dsimp only [State.enterInt]
  refine .bumpCore ?_
  refine .updThread ?_ fun x hx => ?_
  · split
    · refine .updTask ?_ keeps
      split
      · exact hs.waitevDone
      · exact hs
    · split
      · exact hs.waitevDone
      · exact hs
  · split
    · exact Thread.wf_setK hx
    · exact hx

protected theorem State.Tabs.doInterruptTake {th : ThreadRef} (hs : s.Tabs) : (doInterruptTake th s).Tabs := by
  dsimp only [doInterruptTake]
  refine .ite ?_ hs
  split
  · exact hs.enterInt
  · exact hs

protected theorem State.Tabs.deadTile {h : Half} {t : TileIx} (hs : s.Tabs) : (s.deadTile h t).Tabs := .ite hs (hs.updTile keeps)

protected theorem State.Tabs.deadCycle {h : Half} (hs : s.Tabs) : (s.deadCycle h).Tabs := hs.foldl fun h1 => h1.deadTile

protected theorem State.Tabs.doEventDeadlock {h : Half} {t : TileIx} {c k : Fin 4} (hs : s.Tabs) : (doEventDeadlock h t c k s).Tabs := by
  dsimp only [doEventDeadlock]
  refine .ite ?_ hs
  split
  · exact hs.report.bump.raiseInt.waitevDone
  · exact hs.report.bump.raiseInt

protected theorem State.Tabs.putArea {th : ThreadRef} {ga : Nat} {bs : List Byte} (hs : s.Tabs) : (s.putArea th ga bs).1.Tabs := by
  dsimp only [State.putArea]
  split
  · split
    · exact hs
    · exact .ite_fst hs (hs.updTile fun _ => Tile.wf_put)
  · exact hs.ccWriteSpan

/-! ### Expansion -/

protected theorem State.Tabs.updExp {h : Half} {f : ExpState → ExpState} (hs : s.Tabs) : (s.updExp h f).Tabs := hs.rest

protected theorem State.Tabs.doExpSend {h : Half} (hs : s.Tabs) : (doExpSend h s).Tabs := by
  dsimp only [doExpSend]
  split
  · exact hs
  · exact .ite (.ite hs.updExp hs.updExp.bump) hs

protected theorem State.Tabs.expFail {h : Half} {status : Nat} {q : ExpReq} (hs : s.Tabs) : (s.expFail h status q).Tabs := by
  dsimp only [State.expFail]
  split
  · exact hs.updExp.lateFail.settleAfter
  · exact hs.updExp

protected theorem State.Tabs.expFalls {h : Half} (hs : s.Tabs) : (s.expFalls h).Tabs := by
  unfold State.expFalls
  extract_lets p131 s1 s2
  have h1 : s1.Tabs := hs.foldl fun h1 => h1.expFail
  exact .ite h1.updExp.portFalls h1.updExp

protected theorem State.Tabs.doExpDown {h : Half} (hs : s.Tabs) : (doExpDown h s).Tabs := .ite hs.expFalls hs

protected theorem State.Tabs.expLoses {h : Half} {locked : Bool} (hs : s.Tabs) : (s.expLoses h locked).Tabs :=
  .ite hs.updExp.expFalls hs.updExp

protected theorem State.Tabs.doExpFlit {h : Half} {blocks : List (BitVec 66)} {locked : BitVec 16} {skew : Nat}
    {alignment : Bool} {numbers : List Nat} (hs : s.Tabs) : (doExpFlit h blocks locked skew alignment numbers s).Tabs :=
  .ite (.ite hs.expLoses (.ite hs.expLoses (.ite hs.updExp (.ite hs.updExp (.ite hs.bump.updExp.expFalls hs.bump.updExp))))) hs

protected theorem State.Tabs.doExpUp {h : Half} (hs : s.Tabs) : (doExpUp h s).Tabs := .ite hs.updExp.portReturns hs

protected theorem State.Tabs.doExpReplay {h : Half} (hs : s.Tabs) : (doExpReplay h s).Tabs := .ite hs.updExp.bump hs

protected theorem State.Tabs.doExpRsp {h : Half} {tag status : Nat} {bytes0 : List Byte} (hs : s.Tabs) :
    (doExpRsp h tag status bytes0 s).Tabs := by
  dsimp only [doExpRsp]
  refine .ite ?_ hs
  split
  · exact hs.updExp.bump
  · split
    · exact hs.updExp.updExp.bump
    · refine .settleAfter ?_
      split
      · exact hs.updExp.updExp.bump.respond
      · exact hs.updExp.updExp.bump.respond.lateReport
      · exact hs.updExp.updExp.bump.respond

protected theorem State.Tabs.doExpTimeout {h : Half} {tag : Nat} (hs : s.Tabs) : (doExpTimeout h tag s).Tabs := by
  dsimp only [doExpTimeout]
  split
  · exact hs
  · split
    · exact hs
    · exact .ite hs.expFail.bump.updExp hs

protected theorem State.Tabs.doFrameIn {h : Half} {bytes : List Byte} (hs : s.Tabs) : (doFrameIn h bytes s).Tabs :=
  .ite (.ite hs.updExp.bump hs.updExp.injectBytes) hs

protected theorem State.Tabs.expTick {h : Half} (hs : s.Tabs) : (s.expTick h).Tabs := .ite (.ite hs.expFalls hs.updExp) hs

/-! ### FlakoC -/

protected theorem State.Tabs.loadBody64 {len : Nat} {c : Fk} (hs : s.Tabs) : (loadBody64 len s c).state.Tabs := by
  dsimp only [loadBody64]
  split
  · next s1 bs e => exact (hs.load.of_fst e).putG64
  · next s1 x e => exact hs.load.of_fst e

protected theorem State.Tabs.swapBody {stores : Bool} {f : Fk → Nat → Option Nat} {c : Fk} (hs : s.Tabs) :
    (swapBody stores f s c).state.Tabs := by
  dsimp only [swapBody]
  split
  · exact hs
  · refine .ite_state hs ?_
    split
    · next s1 x e => exact hs.translate.of_fst e
    · next s1 pa e =>
      have h1 := hs.translate.of_fst e
      split
      · next s2 e2 => exact h1.physRead.of_fst e2
      · next s2 bs e2 =>
        have h2 := h1.physRead.of_fst e2
        split
        · exact h2.putG64
        · split
          · next s3 e3 => exact (h2.ccStore.of_fst e3).putG64
          · exact hs
          · next s3 x _ e3 => exact h2.ccStore.of_fst e3

protected theorem State.Tabs.doMirrorApply {h : Half} (hs : s.Tabs) : (doMirrorApply h s).Tabs := by
  dsimp only [doMirrorApply]
  split
  · exact hs
  · exact .ite (.hbmWrite (hs.updCc keeps)) (.bump (hs.updCc keeps))

protected theorem State.Tabs.privBody {f : State → Fk → FkRes} {c : Fk} (hs : s.Tabs) (hf : ∀ {t a}, t.Tabs → (f t a).state.Tabs) :
    (privBody f s c).state.Tabs := by
  dsimp only [privBody]
  exact .ite_state hs (hf hs)

/-! ### HbmAccess -/

protected theorem State.Tabs.performRead {h : Half} {q : HbmPart} {ecc : List EccOutcome} (hs : s.Tabs) :
    (s.performRead h q ecc).1.Tabs := by
  dsimp only [State.performRead]
  exact hs.granEccs.hbmReadPart.granFailures

protected theorem State.Tabs.performWrite {h : Half} {q : HbmPart} (hs : s.Tabs) : (s.performWrite h q).1.Tabs := by
  dsimp only [State.performWrite]
  exact hs.hbmWritePart

protected theorem State.Tabs.parityError {h : Half} {st : Fin 2} {fails : Bool} (hs : s.Tabs) : (s.parityError h st fails).Tabs :=
  .ite hs.fault.fault.updHbm hs.fault

protected theorem State.Tabs.doHbmAccess {h : Half} {p index : Nat} {ecc : List EccOutcome} {parity : Nat} (hs : s.Tabs) :
    (doHbmAccess h p index ecc parity s).Tabs := by
  dsimp only [doHbmAccess]
  split
  · exact hs
  · exact .ite
      (.ite
         (.finishPart (.ite hs.updHbm hs.updHbm.parityError))
         (.finishPart
            (.ite_fst (.performWrite (.ite hs.updHbm hs.updHbm.parityError)) (.performRead (.ite hs.updHbm hs.updHbm.parityError)))))
      hs

/-! ### Start -/

protected theorem State.Tabs.assertReset {por : Bool} : (s.assertReset por).Tabs :=
  ⟨State.Tabs.reset.tiles, State.Tabs.reset.cc, State.Tabs.reset.ing, State.Tabs.reset.chains, State.Tabs.reset.locks, State.Tabs.reset.tab,
    rfl, rfl⟩

protected theorem State.Tabs.doPoreset (hs : s.Tabs) : (doPoreset s).Tabs := .ite hs .assertReset

protected theorem State.Tabs.doSysreset (hs : s.Tabs) : (doSysreset s).Tabs := .ite hs (.ite (hs.updPv rfl) .assertReset)

protected theorem State.Tabs.setStep {n : Nat} (hs : s.Tabs) : (s.setStep n).Tabs := hs.setRfld

protected theorem State.Tabs.updStart {f : StartInfo → StartInfo} (hs : s.Tabs) : (s.updStart f).Tabs := hs.updPv rfl

protected theorem State.Tabs.startClocks (hs : s.Tabs) : s.startClocks.Tabs :=
  .rest (.foldl (.setUState (.setUState (.rest (hs.updPv rfl)))) fun h1 => .ite h1 h1.setUState)

theorem userOf_wf (secs : List (Nat × List (List Byte))) : Tbl.wf (userOf secs) = true := by
  refine Tbl.wf_foldl (fun t x ht => Tbl.wf_foldl (fun u e hu => ?_) _ _ ht) _ _ rfl
  dsimp only
  split
  · split
    · exact tset_wf _ _ _ _ hu
    · exact hu
  · split
    · exact tset_wf _ _ _ _ (tset_wf _ _ _ _ (tset_wf _ _ _ _ (tset_wf _ _ _ _ hu)))
    · exact hu

protected theorem State.Tabs.startUp (hs : s.Tabs) : s.startUp.Tabs := by
  unfold State.startUp
  extract_lets s1 s2
  have h2 : s2.Tabs := .logBoot (.setStep (.startClocks (hs.updPv rfl)))
  split
  next s3 rec e =>
    extract_lets s4 s5
    have h5 : s5.Tabs := .bootFirmware (.updUser (h2.storeRead.of_fst e) (userOf_wf _))
    exact .ite h5.applyMaps.calApply.setStep h5

protected theorem State.Tabs.startIfClocked (hs : s.Tabs) : s.startIfClocked.Tabs := .ite hs.startUp hs.updStart

protected theorem State.Tabs.doRelease (hs : s.Tabs) : (doRelease s).Tabs := .ite (.startIfClocked (hs.updPv rfl)) hs

protected theorem State.Tabs.doRefclkArrival (hs : s.Tabs) : (doRefclkArrival s).Tabs :=
  .ite (.startIfClocked (hs.updPv rfl)) (hs.updPv rfl)

protected theorem State.Tabs.testTree {h : Half} (hs : s.Tabs) : (s.testTree h).Tabs := hs.enterTest.foldl fun h1 => .ite h1.enterUp h1

protected theorem State.Tabs.setTrained {h : Half} {st : Fin 2} (hs : s.Tabs) : (s.setTrained h st).Tabs := hs.setReg

protected theorem State.Tabs.remapLanes {h : Half} {st : Fin 2} (hs : s.Tabs) : (s.remapLanes h st).Tabs := by
  unfold State.remapLanes
  exact hs.used.updPv rfl

protected theorem State.Tabs.trainEnd {h : Half} {st : Fin 2} {ok : Bool} (hs : s.Tabs) : (s.trainEnd h st ok).Tabs :=
  .ite hs.remapLanes.setTrained hs.fault

protected theorem State.Tabs.doHbmTrained {h : Half} {st : Fin 2} {ok : Bool} (hs : s.Tabs) : (doHbmTrained h st ok s).Tabs :=
  .ite (.ite hs (.ite hs.enterUp.trainEnd.updStart.setStep.testTree.testTree hs.enterUp.trainEnd.updStart)) (.ite hs.trainEnd hs)

protected theorem State.Tabs.chooseImages (hs : s.Tabs) : s.chooseImages.Tabs := by
  dsimp only [State.chooseImages]
  exact .ite hs (hs.bootSlot.bootSlot.updPv (by dsimp only))

protected theorem State.Tabs.streamImages (hs : s.Tabs) : s.streamImages.Tabs := by
  dsimp only [State.streamImages]
  split
  · refine .foldl ?_ fun h1 => ?_
    · split
      · exact hs.chooseImages.hbmPlace
      · exact hs.chooseImages
    · exact h1.loadCode
  · split
    · exact hs.chooseImages.hbmPlace
    · exact hs.chooseImages

protected theorem State.Tabs.csrInit {bs : List Byte} {n : Nat} (hs : s.Tabs) : (s.csrInit bs n).Tabs := by
  induction n with
  | zero => exact hs
  | succ n ih => exact ih.csrWrite

protected theorem State.Tabs.loadImage {c : List Byte} {hs' : List Half} (hs : s.Tabs) : (s.loadImage c hs').Tabs :=
  .foldl (hs.foldl fun h1 => h1.loadBanks) fun h1 => .ite h1.csrInit h1

protected theorem State.Tabs.queueBatches {c : List Byte} {h : Half} (hs : s.Tabs) : (s.queueBatches c h).Tabs := .ite hs hs.updStart

/-- An operation on a half keeps these tables canonical. -/
def KeepsTabs (f : State → Half → State) : Prop := ∀ s h, s.Tabs → (f s h).Tabs

/-- Stated of the operation and not of its value: to compare the applied operation with its body, the kernel would walk the half's
subtree. -/
theorem keepsTabs_releaseHalf : KeepsTabs State.releaseHalf := by
  delta State.releaseHalf
  refine id fun {s h} hs => ?_
  have h1 : (s.activeTree (.half h) 0x02).Tabs := hs.activeTree
  beta_reduce
  generalize s.activeTree (.half h) 0x02 = s1 at h1 ⊢
  dsimp only
  split
  · exact h1.setCcEntry.runCores
  · exact h1

protected theorem State.Tabs.releaseHalf {h : Half} (hs : s.Tabs) : (s.releaseHalf h).Tabs := keepsTabs_releaseHalf s h hs

protected theorem State.Tabs.settleStart (hs : s.Tabs) : s.settleStart.Tabs := .ite hs.setStep hs

protected theorem State.Tabs.finishStart (hs : s.Tabs) : s.finishStart.Tabs :=
  .settleStart (.setStep (hs.setStep.loadImage.setStep.foldl fun h1 => h1.releaseHalf.queueBatches))

protected theorem State.Tabs.seqOn (hs : s.Tabs) : s.seqOn.Tabs := by
  unfold State.seqOn
  extract_lets tested s1
  have h1 : s1.Tabs := .ite hs.setStep.streamImages.setStep hs
  exact .ite h1.finishStart h1

protected theorem State.Tabs.doSelfTest {u : UnitId} {ok : Bool} (hs : s.Tabs) : (doSelfTest u ok s).Tabs := by
  dsimp only [doSelfTest]
  split
  · exact hs.spareTested
  · exact .ite hs.report.physFails hs
  · exact .ite hs.updStart.seqOn (.ite (.ite (.seqOn (.fenceUnit (hs.updPv rfl))) (.fenceUnit (hs.updPv rfl))) hs)
  · exact hs

protected theorem State.Tabs.doFordTrainingDone {h : Half} {failed : List (Nat × Nat)} (hs : s.Tabs) :
    (doFordTrainingDone h failed s).Tabs := .ite (.ite hs.doFordTrained.updStart.seqOn hs.doFordTrained) hs

protected theorem State.Tabs.dropDynamic {h : Half} (hs : s.Tabs) : (s.dropDynamic h).Tabs :=
  .bumpBy (.updTab (hs.foldl fun h1 => .ite h1.leaveBatch h1) fun x hx => by
    obtain ⟨hslots, hmeters, -⟩ := TableState.wf_iff.mp hx
    exact TableState.wf_iff.mpr ⟨hslots, Tbl.wf_map hmeters, rfl⟩)

protected theorem State.Tabs.restartHalf {h : Half} (hs : s.Tabs) : (s.restartHalf h).Tabs := by
  dsimp only [State.restartHalf]
  refine .ite ?_ ?_
  · exact .updStart (.setStep (.testTree (.ite hs.beginEntry.completeEntry.dropDynamic (hs.beginEntry.completeEntry.dropDynamic.updPv rfl))))
  · refine .activeTree ?_
    split
    · exact .loadBanks (.testTree (.ite hs.beginEntry.completeEntry.dropDynamic (hs.beginEntry.completeEntry.dropDynamic.updPv rfl)))
    · exact .testTree (.ite hs.beginEntry.completeEntry.dropDynamic (hs.beginEntry.completeEntry.dropDynamic.updPv rfl))

protected theorem State.Tabs.doHalfRestart {h : Half} (hs : s.Tabs) : (doHalfRestart h s).Tabs := .ite hs.restartHalf hs

protected theorem State.Tabs.beginSection {h : Half} {b : Nat} {e : Nat × Nat × Nat} (hs : s.Tabs) : (s.beginSection h b e).Tabs := by
  unfold State.beginSection
  exact hs.hbmPlace.setReg.setReg.batchCmd.updStart

protected theorem State.Tabs.endSection {h : Half} {again : Bool} (hs : s.Tabs) : (s.endSection h again).Tabs := hs.updStart

protected theorem State.Tabs.refuseSection {h : Half} {b num reason : Nat} (hs : s.Tabs) : (s.refuseSection h b num reason).Tabs :=
  hs.batchCmd.updStart.endSection

protected theorem State.Tabs.batchStep {h : Half} (hs : s.Tabs) : (s.batchStep h).Tabs := by
  dsimp only [State.batchStep]
  split
  · exact hs
  · split
    · exact .ite hs.updStart.beginSection hs
    · exact hs
  · split
    · exact hs.setReg.batchCmd
    · exact hs.endSection
    · exact hs.endSection
    · exact hs.endSection
    · exact .ite (.ite hs.batchCmd.endSection hs) hs.refuseSection
    · exact hs

protected theorem State.Tabs.startTick (hs : s.Tabs) : s.startTick.Tabs := .ite (.ite hs.batchStep.batchStep.settleStart hs.seqOn) hs

protected theorem State.Tabs.mgmtTick (hs : s.Tabs) : s.mgmtTick.Tabs := .ite hs.moveMgmt hs

protected theorem State.Tabs.doPerst {low : Bool} (hs : s.Tabs) : (doPerst low s).Tabs :=
  .ite (hs.updPv rfl)
    (.ite (.ite (hs.updPv rfl) (.used (.beginEntry (hs.updPv rfl))))
       (.ite (.used (.enterUp (.ite (.completeEntry (hs.updPv rfl)) (hs.updPv rfl)))) (.ite (.completeEntry (hs.updPv rfl)) (hs.updPv rfl))))

protected theorem State.Tabs.doFlr {f : Fin 2} (hs : s.Tabs) : (doFlr f s).Tabs := hs.setReg.foldl fun h1 => h1.setReg

protected theorem State.Tabs.doExtest (hs : s.Tabs) : (doExtest s).Tabs :=
  .ite hs (.foldl (.beginEntry (.foldl (.beginEntry (hs.updPv rfl)) fun h1 => h1.updUnit)) fun h1 => h1.updUnit)

protected theorem State.Tabs.pllPorts {pll : Nat} (hs : s.Tabs) : (s.pllPorts pll).Tabs := by
  unfold State.pllPorts
  extract_lets h s1
  have h1 : s1.Tabs := hs.foldl fun h1 => .ite h1.dropLink h1
  exact .ite h1.expFalls h1

protected theorem State.Tabs.doPllLost {pll : Nat} (hs : s.Tabs) : (doPllLost pll s).Tabs :=
  .ite hs (.ite (.pllPorts (hs.updPv rfl)) (.ite (.fault (.fault (.fault (.fault (hs.updPv rfl)))))
    (.ite (.dropFord (.dropFord (hs.updPv rfl))) (hs.updPv rfl))))

protected theorem State.Tabs.doPllBack {pll : Nat} (hs : s.Tabs) : (doPllBack pll s).Tabs := hs.updPv rfl

/-! ### TaskRun -/

theorem State.startedThread_wf {h : Half} {t : TileIx} {n : Fin 128} {k pc : Nat} : (s.startedThread h t n k pc).wf = true :=
  Thread.wf_iff.mpr ⟨tset_wf _ _ _ _ rfl, rfl, rfl, rfl⟩

protected theorem State.Tabs.startOn {h : Half} {t : TileIx} {n : Fin 128} {k : Nat} (hs : s.Tabs) : (s.startOn h t n k).Tabs := by
  unfold State.startOn
  extract_lets x y s1
  have h1 (pc : Nat) : (s1 pc).Tabs := (hs.updThread fun _ _ => State.startedThread_wf).updTask keeps
  refine .ite (h1 0).discardTask ?_
  split
  · exact (h1 0).trapDiscard
  · exact h1 _

protected theorem State.Tabs.resumeOn {h : Half} {t : TileIx} {n : Fin 128} {k : Nat} (hs : s.Tabs) : (s.resumeOn h t n k).Tabs := by
  unfold State.resumeOn
  extract_lets x y z s1 s2
  have h1 : s1.Tabs := hs.updThread fun _ _ => Thread.wf_withG (Task.wf_saved (hs.task h t k)) (tset_wf _ _ _ _)
  have h2 : s2.Tabs := h1.updTask fun _ _ => Task.savedWf_of_none rfl
  exact .ite h2.raiseInt h2

protected theorem State.Tabs.startSvc {h : Half} {t : TileIx} {n : Fin 128} {j : Nat} (hs : s.Tabs) : (s.startSvc h t n j).Tabs := by
  unfold State.startSvc
  extract_lets w c k fl s1 s2 x s3
  have h2 : s2.Tabs := hs.setReg.updTile fun _ => Tile.wf_put
  have h3 : s3.Tabs := h2.updTask fun _ _ => Task.savedWf_of_none rfl
  exact h3.bump.startOn

protected theorem State.Tabs.doTaskDispatch {h : Half} {t : TileIx} {n : Fin 128} (hs : s.Tabs) : (doTaskDispatch h t n s).Tabs := by
  dsimp only [doTaskDispatch]
  refine .ite ?_ hs
  split
  · exact hs
  · exact .ite hs.resumeOn (.ite hs.startOn hs)
  · exact .ite hs.used.startSvc hs

/-! ### TblReq -/

protected theorem State.Tabs.tblCall {th : ThreadRef} {op : FkOp} {fn : Nat} {len : Fk → Nat} {align out : Nat}
    {f : State → TblCall → TblRes} (hs : s.Tabs) (hf : ∀ {t a}, t.Tabs → (f t a).s.Tabs) :
    (tblCall th op fn len align out s f).Tabs := by
  dsimp only [tblCall]
  refine .fkRun hs fun h1 => ?_
  split
  · exact h1
  · refine .ite_state h1 ?_
    split
    · exact h1
    · refine .ite_state h1 ?_
      refine .ite_state h1 ?_
      split
      · exact h1
      · exact .ite_state h1 (.issueReq (hf h1))

protected theorem State.Tabs.lookupBody {q : TblCall} (hs : s.Tabs) : (lookupBody s q).s.Tabs := by
  dsimp only [lookupBody]
  split
  · exact .ite hs.refreshEx hs
  · exact hs

protected theorem State.Tabs.groupBody {q : TblCall} (hs : s.Tabs) : (groupBody s q).s.Tabs := by
  dsimp only [groupBody]
  exact .ite_s hs hs

protected theorem State.Tabs.lpmBody {q : TblCall} (hs : s.Tabs) : (lpmBody s q).s.Tabs := by
  dsimp only [lpmBody]
  split
  · exact hs
  · exact hs

protected theorem State.Tabs.flowRes {status slot : Nat} {r : Option (List Byte)} (hs : s.Tabs) : (flowRes s status slot r).s.Tabs := by
  dsimp only [flowRes]
  split
  · exact hs
  · exact hs.used

protected theorem State.Tabs.flowFindBody {q : TblCall} (hs : s.Tabs) : (flowFindBody s q).s.Tabs := by
  dsimp only [flowFindBody]
  split
  · next s1 e => exact (hs.flowSearch.of_fst e).flowRes
  · next s1 e => exact (hs.flowSearch.of_fst e).flowRes
  · next s1 f e => exact .ite_s ((hs.flowSearch.of_fst e).flowTouch.flowRes) ((hs.flowSearch.of_fst e).flowRes)

protected theorem State.Tabs.flowInsertBody {q : TblCall} (hs : s.Tabs) : (flowInsertBody s q).s.Tabs := by
  dsimp only [flowInsertBody]
  split
  · next s1 e => exact (hs.flowSearch.of_fst e).flowRes
  · next s1 e =>
      split
      · next s2 p e2 => exact ((hs.flowSearch.of_fst e).flowPlace.of_fst e2).flowStore.bump.flowRes
      · next s2 e2 => exact ((hs.flowSearch.of_fst e).flowPlace.of_fst e2).bump.flowRes
  · next s1 f e => exact (hs.flowSearch.of_fst e).flowRes

protected theorem State.Tabs.flowNamed {h : Half} {slot key : Nat} (hs : s.Tabs) : (s.flowNamed h slot key).1.Tabs := by
  dsimp only [State.flowNamed]
  refine .ite_fst ?_ ?_
  · split
    · exact .ite_fst hs hs.flowSearch
    · exact hs.flowSearch
  · refine .ite_fst ?_ hs.flowSearch
    split
    · next s1 r e => exact .ite_fst (hs.flowRead.of_fst e) ((hs.flowRead.of_fst e).flowSearch)
    · next s1 e => exact (hs.flowRead.of_fst e).flowLost

protected theorem State.Tabs.flowWriteBody {q : TblCall} (hs : s.Tabs) : (flowWriteBody s q).s.Tabs := by
  dsimp only [flowWriteBody]
  split
  · next s1 e => exact (hs.flowNamed.of_fst e).flowRes
  · next s1 e => exact (hs.flowNamed.of_fst e).flowRes
  · next s1 f e => exact (hs.flowNamed.of_fst e).flowTouch.flowRes

protected theorem State.Tabs.flowDeleteBody {q : TblCall} (hs : s.Tabs) : (flowDeleteBody s q).s.Tabs := by
  dsimp only [flowDeleteBody]
  split
  · next s1 e => exact (hs.flowNamed.of_fst e).flowRes
  · next s1 e => exact (hs.flowNamed.of_fst e).flowRes
  · next s1 f e => exact (hs.flowNamed.of_fst e).used.flowRemove.flowRes

protected theorem State.Tabs.meterBody {q : TblCall} (hs : s.Tabs) : (meterBody s q).s.Tabs := by
  dsimp only [meterBody]
  exact .ite_s hs.fillMeter hs.chargeMeter

protected theorem State.Tabs.searchBody {after : TblCall → Option Nat} {q : TblCall} (hs : s.Tabs) : (searchBody after s q).s.Tabs := by
  dsimp only [searchBody]
  exact hs.used.bumpBy

protected theorem State.Tabs.countAssoc {h : Half} {bs : List Byte} (hs : s.Tabs) : (s.countAssoc h bs).Tabs := by
  unfold State.countAssoc
  extract_lets st b s1 s2 s3
  have h1 : s2.Tabs := .ite hs.bump.bump hs.bump
  have h2 : s3.Tabs := .ite h1.bump h1
  exact .ite h2.bump h2

protected theorem State.Tabs.doTableResponse {h : Half} {t : TileIx} {id : Nat} (hs : s.Tabs) : (doTableResponse h t id s).Tabs := by
  dsimp only [doTableResponse]
  split
  · exact hs
  · exact .ite (.respond (.ite hs.countAssoc hs)) hs

/-! ### Tick -/

protected theorem State.Tabs.coreCycle {h : Half} (hs : s.Tabs) : (s.coreCycle h).Tabs := hs.deadCycle.droopCycle.hbmCycle.slotCycle

protected theorem State.Tabs.coreTick {h : Half} (hs : s.Tabs) : (s.coreTick h).Tabs :=
  .ite (hs.updPv rfl) (.coreCycle (.ite (.bump (hs.updPv rfl)) (hs.updPv rfl)))

protected theorem State.Tabs.stallTick {h : Half} (hs : s.Tabs) : (s.stallTick h).Tabs := by
  dsimp only [State.stallTick]
  refine .ite ?_ ?_
  · split
    · exact hs
    · exact .ite hs.bump.bump hs.bump
  · refine .bump ?_
    split
    · exact hs
    · exact .ite hs.bump.bump hs.bump

protected theorem State.Tabs.fordTick {h : Half} (hs : s.Tabs) : (s.fordTick h).Tabs := .ite hs.bump hs

protected theorem State.Tabs.brambleTick {h : Half} {t : TileIx} (hs : s.Tabs) : (State.brambleTick h s t).Tabs := .ite hs.bump hs

protected theorem State.Tabs.portTicks {h : Half} (hs : s.Tabs) : (s.portTicks h).Tabs := .ite (hs.foldl fun h1 => h1.schedTickPort) hs

protected theorem State.Tabs.halfTick {h : Half} (hs : s.Tabs) : (s.halfTick h).Tabs :=
  .ite (.expTick (.telemTick (.noteTick (.hbmTick (.portTicks (.fordTick (.stallTick (hs.coreTick.foldl fun h1 => h1.brambleTick)))))))) hs

protected theorem State.Tabs.tick (hs : s.Tabs) : s.tick.Tabs := hs.halfTick.halfTick.timeTick.startTick.p129Tick.mgmtTick.checked

/-! ### The commands -/

/-- The next state of an outcome, if there is one, keeps these tables canonical. -/
def NextTabs (o : Out) : Prop := ∀ t, o = .next t → t.Tabs

theorem NextTabs.of (hs : s.Tabs) : NextTabs (.next s) := by
  intro t e
  cases e
  exact hs

protected theorem State.Tabs.execCount {th : ThreadRef} (hs : s.Tabs) : NextTabs (execCount th s) := by
  dsimp only [execCount]
  refine .of (.fkRun hs fun h1 => ?_)
  split
  · exact h1
  · exact .ite_state h1.countPair h1

protected theorem State.Tabs.execFkRet {th : ThreadRef} (hs : s.Tabs) : NextTabs (execFkRet th s) := by
  dsimp only [execFkRet]
  refine .of (.fkRun hs fun h1 => ?_)
  split
  · exact h1
  · exact h1.updThread fun _ => Thread.wf_retMode

protected theorem State.Tabs.execFkRspop {th : ThreadRef} (hs : s.Tabs) : NextTabs (execFkRspop th s) := by
  dsimp only [execFkRspop]
  refine .of (.fkRun hs fun h1 => ?_)
  split
  · exact h1
  · exact h1.updThread fun _ hx => Thread.wf_setG hx

protected theorem State.Tabs.execFkPush {th : ThreadRef} (hs : s.Tabs) : NextTabs (execFkPush th s) := by
  dsimp only [execFkPush]
  refine .of (.fkRun hs fun h1 => ?_)
  refine .ite_state h1 ?_
  refine .ite_state h1 ?_
  split
  · next s1 e => exact (h1.store.of_fst e).setDsp
  · next s1 x e => exact h1.store.of_fst e

protected theorem State.Tabs.execFkPop {th : ThreadRef} (hs : s.Tabs) : NextTabs (execFkPop th s) := by
  dsimp only [execFkPop]
  refine .of (.fkRun hs fun h1 => ?_)
  refine .ite_state h1 ?_
  refine .ite_state h1 ?_
  split
  · next s1 bs e => exact (h1.load.of_fst e).putG.setDsp
  · next s1 x e => exact h1.load.of_fst e

protected theorem State.Tabs.execFkFrd {th : ThreadRef} (hs : s.Tabs) : NextTabs (execFkFrd th s) := by
  dsimp only [execFkFrd]
  refine .of (.fkRun hs fun h1 => ?_)
  split
  · exact h1.frdBody
  · exact h1

protected theorem State.Tabs.execFkHrd {th : ThreadRef} (hs : s.Tabs) : NextTabs (execFkHrd th s) := by
  dsimp only [execFkHrd]
  refine .of (.fkRun hs fun h1 => ?_)
  split
  · exact h1.hbmReqBody
  · exact h1

protected theorem State.Tabs.execFkHwr {th : ThreadRef} (hs : s.Tabs) : NextTabs (execFkHwr th s) := by
  dsimp only [execFkHwr]
  refine .of (.fkRun hs fun h1 => ?_)
  split
  · exact h1.hbmReqBody
  · exact h1

protected theorem State.Tabs.execFkTwait {th : ThreadRef} (hs : s.Tabs) : NextTabs (execFkTwait th s) := by
  dsimp only [execFkTwait]
  refine .of (.fkRun hs fun h1 => ?_)
  split
  · exact h1.twaitBody
  · exact h1

protected theorem State.Tabs.execFkTdone {th : ThreadRef} (hs : s.Tabs) : NextTabs (execFkTdone th s) := by
  dsimp only [execFkTdone]
  refine .of (.fkRun hs fun h1 => ?_)
  split
  · exact h1.tdoneBody
  · exact h1

protected theorem State.Tabs.execFkTdrop {th : ThreadRef} (hs : s.Tabs) : NextTabs (execFkTdrop th s) := by
  dsimp only [execFkTdrop]
  refine .of (.fkRun hs fun h1 => ?_)
  split
  · exact h1.bump.completeTask
  · exact h1

protected theorem State.Tabs.execFkPostf {th : ThreadRef} (hs : s.Tabs) : NextTabs (execFkPostf th s) := by
  dsimp only [execFkPostf]
  refine .of (.fkRun hs fun h1 => ?_)
  refine .ite_state h1 ?_
  split
  · next s1 x e => exact h1.postBytes.of_fst e
  · next s1 bs e => exact (h1.postBytes.of_fst e).postFrame

protected theorem State.Tabs.execFkChrecv {th : ThreadRef} (hs : s.Tabs) : NextTabs (execFkChrecv th s) := by
  dsimp only [execFkChrecv]
  refine .of (.fkRun hs fun h1 => ?_)
  split
  · next s1 x e => exact h1.putArea.of_fst e
  · next s1 e => exact .ite (h1.putArea.of_fst e) ((h1.putArea.of_fst e).setChan.bumpChan)

protected theorem State.Tabs.execFkLock {th : ThreadRef} (hs : s.Tabs) : NextTabs (execFkLock th s) := by
  dsimp only [execFkLock]
  refine .of (.fkRun hs fun h1 => ?_)
  split
  · exact h1.takeLock.putG
  · exact h1.putG
  · exact .queueLock (h1.updThread keeps)

protected theorem State.Tabs.execFkTrylock {th : ThreadRef} (hs : s.Tabs) : NextTabs (execFkTrylock th s) := by
  dsimp only [execFkTrylock]
  refine .of (.fkRun hs fun h1 => ?_)
  split
  · exact h1.takeLock.putG
  · exact h1.putG
  · exact h1.putG

protected theorem State.Tabs.execFkUnlock {th : ThreadRef} (hs : s.Tabs) : NextTabs (execFkUnlock th s) := by
  dsimp only [execFkUnlock]
  exact .of (.fkRun hs (fun h1 => h1.unlock.putG))

protected theorem State.Tabs.execFkCpsave {th : ThreadRef} (hs : s.Tabs) : NextTabs (execFkCpsave th s) := by
  dsimp only [execFkCpsave]
  refine .of (.cpCall hs fun h1 => ?_)
  split
  · exact h1
  · exact .ite_state h1 h1.issueReq

protected theorem State.Tabs.execFkCprestore {th : ThreadRef} (hs : s.Tabs) : NextTabs (execFkCprestore th s) := by
  dsimp only [execFkCprestore]
  refine .of (.cpCall hs fun h1 => ?_)
  split
  · exact h1
  · exact .ite_state h1.lateReport (.ite_state h1.callTrap h1.updInst)

protected theorem State.Tabs.execFkCvcfg {th : ThreadRef} (hs : s.Tabs) : NextTabs (execFkCvcfg th s) := by
  dsimp only [execFkCvcfg]
  refine .of (.cpCall hs fun h1 => ?_)
  split
  · exact h1
  · exact .cpDone h1 (fun h2 => h2.updInst)

protected theorem State.Tabs.execFkCvupd {th : ThreadRef} (hs : s.Tabs) : NextTabs (execFkCvupd th s) := by
  dsimp only [execFkCvupd]
  refine .of (.cpCall hs fun h1 => ?_)
  refine .ite_state h1.callTrap ?_
  split
  · exact h1
  · exact .cpDone h1 (fun h2 => h2.updInst)

protected theorem State.Tabs.execFkCvfin {th : ThreadRef} (hs : s.Tabs) : NextTabs (execFkCvfin th s) := by
  dsimp only [execFkCvfin]
  refine .of (.cpCall hs fun h1 => ?_)
  split
  · exact h1
  · exact .cpDone h1 (fun h2 => h2.updInst.used)

protected theorem State.Tabs.execFkCvappend {th : ThreadRef} (hs : s.Tabs) : NextTabs (execFkCvappend th s) := by
  dsimp only [execFkCvappend]
  refine .of (.cpCall hs fun h1 => ?_)
  split
  · exact h1
  · exact h1
  · exact h1
  · refine .cpDone h1 fun h2 => h2.updTile fun x hx => ?_
    split
    · exact Tile.wf_put hx
    · exact Tile.wf_put (Tile.wf_put hx)

protected theorem State.Tabs.execFkCvcheck {th : ThreadRef} (hs : s.Tabs) : NextTabs (execFkCvcheck th s) := by
  dsimp only [execFkCvcheck]
  refine .of (.cpCall hs fun h1 => ?_)
  split
  · exact h1
  · exact h1
  · exact h1
  · refine .cpDone h1 fun h2 => ?_
    split
    · exact (h2.updTile fun _ => Tile.wf_put).used
    · exact h2.used

protected theorem State.Tabs.execFkHcfg {th : ThreadRef} (hs : s.Tabs) : NextTabs (execFkHcfg th s) := by
  dsimp only [execFkHcfg]
  refine .of (.cpCall hs fun h1 => ?_)
  split
  · exact h1
  · exact .cpDone h1 (fun h2 => h2.updInst)

protected theorem State.Tabs.execFkSd {th : ThreadRef} (hs : s.Tabs) : NextTabs (execFkSd th s) := by
  dsimp only [execFkSd]
  refine .of (.fkRun hs fun h1 => ?_)
  split
  · next s1 e => exact h1.store.of_fst e
  · next s1 x e => exact h1.store.of_fst e

/-- Every command keeps these tables canonical. -/
theorem State.Tabs.exec (hs : s.Tabs) (c : Instr) : NextTabs (Machine.exec c s) := by
  cases c with
  | frameStart => exact .of hs.doFrameStart.checked
  | frameBytes => exact .of hs.doFrameBytes.checked
  | pfcRefresh => exact .of hs.doPfcRefresh
  | pfcFrameTransmit => exact .of hs.doPfcTransmit
  | frameEnd => exact .of hs.doFrameEnd.checked
  | pfcReceive => exact .of hs.doPfcReceive
  | pfcPauseExpire => exact .of hs.doPfcExpire
  | classifyFrame => exact .of hs.doClassify
  | parseSecondPass => exact .of hs.doSecondPass
  | taskCreate => exact .of hs.doTaskCreate.checked
  | brambleScanStart => exact .of hs.doScanStart
  | brambleScanEnd => exact .of hs.doScanEnd
  | taskDispatch => exact .of hs.doTaskDispatch.checked
  | confluenceRelease => exact .of hs.doConfluence.checked
  | patienceCheck => exact .of hs.doPatience
  | oldestLiveSample => exact .of hs.doOldestLive
  | tableSyncNoticeSend => exact .of hs.doNoticeSend
  | tableSyncNoticeReceive => exact .of hs.doNoticeReceive
  | crossingSend => exact .of hs.doCrossSend
  | crossingReceipt => exact .of hs.doCrossReceipt
  | crossingAck => exact .of hs.doCrossAck
  | replWalk => exact .of hs.doReplWalk
  | admitCopy => exact .of hs.doAdmitCopy
  | spillWriteAccepted => exact .of (.orWait hs (fun h1 => h1.doSpillWritten))
  | spillFill => exact .of (.orWait hs (fun h1 => h1.doSpillFill))
  | fillRetry => exact .of (.orWait hs (fun h1 => h1.doFillRetry))
  | schedSelect => exact .of hs.doSchedSelect.checked
  | rewriteFrame => exact .of hs.doRewrite
  | frameTransmit => exact .of hs.doTransmit
  | transmitReadEnd => exact .of hs.doReadEnd
  | linkAttemptEnd => exact .of hs.doAttemptEnd
  | linkDown => exact .of hs.doLinkDown
  | portHoldExpire => exact .of hs.doHoldExpire
  | portFlushEntry => exact .of hs.doFlushEntry
  | reclaimVisit => exact .of hs.doReclaimVisit
  | commitNow => exact .of (.ite hs.startCommit hs)
  | commitArm => exact .of (.ite hs.armCommit hs)
  | commitDisarm => exact .of (.ite hs.setArmed hs)
  | commitAtWrite => exact .of (.ite hs.setReg hs)
  | armedCommitStart => exact .of hs.doArmedStart
  | commitReach => exact .of hs.doCommitReach
  | unitCommitApply => exact .of hs.doCommitApply
  | requestReset => exact .of (.ite hs.reqReset hs)
  | requestTest => exact .of (.ite hs.reqTest hs)
  | requestActive => exact .of (.ite hs.reqActive hs)
  | requestFence => exact .of (.ite hs.reqFence hs)
  | requestOff => exact .of (.ite hs.reqOff hs)
  | activeTree => exact .of (.ite hs.reqTree hs)
  | unitEntryComplete => exact .of hs.doEntryEnd
  | devRequestRun => exact .of hs.doDevRun
  | devRequestRecovery => exact .of hs.doDevRecovery
  | csrHoleAccess | csrMisalignedAccess => exact .of (.ite hs.csrHole hs)
  | registerWrite => exact .of hs.csrWrite
  | dtsNowRead => exact .of (.ite hs.doDtsNowRead hs)
  | injectForceWrite => exact .of (.ite hs.forceWrite hs)
  | invArm => exact .of (.ite hs.armInv hs)
  | dtsAlignSend => exact .of hs.doAlignSend
  | dtsAlignReceive => exact .of hs.doAlignReceive
  | dtsFollowerSlew | dtsSlewAdjust => exact .of (.ite hs.tick hs)
  | loadNow => exact .of (.ite hs.doLoadNow hs)
  | loadArm => exact .of (.ite hs.doLoadArm hs)
  | tsyncInEdge => exact .of hs.doTsyncIn
  | tsyncOutRise => exact .of hs.doTsyncRise
  | tsyncOutFall => exact .of hs.doTsyncFall
  | dtsSlewWrite => exact .of (.ite hs.doSlewWrite hs)
  | ptpSet => exact .of (.ite hs.doPtpSet hs)
  | ptpAdd => exact .of (.ite hs.doPtpAdd hs)
  | ptpSub => exact .of (.ite hs.doPtpSub hs)
  | ptpNsRead => exact .of (.ite hs.doPtpNsRead hs)
  | ptpTxtsBRead => exact .of (.ite hs.popTxts hs)
  | agingVisit => exact .of (.orWait hs (fun h1 => h1.doAgingVisit))
  | lookup => exact .of (.tblCall hs (fun h1 => h1.lookupBody))
  | groupSelect => exact .of (.tblCall hs (fun h1 => h1.groupBody))
  | lpm => exact .of (.tblCall hs (fun h1 => h1.lpmBody))
  | flowFind => exact .of (.tblCall hs (fun h1 => h1.flowFindBody))
  | flowFindInsert => exact .of (.tblCall hs (fun h1 => h1.flowInsertBody))
  | flowWrite => exact .of (.tblCall hs (fun h1 => h1.flowWriteBody))
  | flowDelete => exact .of (.tblCall hs (fun h1 => h1.flowDeleteBody))
  | meter => exact .of (.tblCall hs (fun h1 => h1.meterBody))
  | search | assocStep => exact .of (.tblCall hs (fun h1 => h1.searchBody))
  | tableResponse => exact .of hs.doTableResponse.checked
  | flowStashReturn => exact .of (.orWait hs (fun h1 => h1.doStashReturn))
  | counterWriteback => exact .of (.orWait hs (fun h1 => h1.doWriteback))
  | counterReadSelWrite | learnNoteSizeWrite | telemSizeWrite => exact .of hs.agentWrite
  | counterReadDone => exact .of (.orWait hs (fun h1 => h1.doReadDone))
  | meterRefill => exact .of hs.doMeterRefill
  | build | post | buildPost | abort | ack => exact .of hs.agentBatch
  | batchRecordApply => exact .of (.orWait hs (fun h1 => h1.doRecordApply.withShadow))
  | batchUndoStep => exact .of hs.doUndoStep.withShadow.checked
  | batchRetireStart => exact .of hs.doRetireStart
  | retireWalkStep => exact .of hs.doRetireWalk.withShadow.checked
  | learnExamine => exact .of hs.doLearnExamine
  | learnWrite => exact .of hs.doLearnWrite.withShadow.checked
  | tableEntryRepairDone => exact .of hs.doEntryRepaired
  | shadowCheckVisit => exact .of hs.doShadowVisit
  | shadowRepairDone => exact .of hs.doShadowRepaired
  | assocScrubVisit => exact .of hs.doAssocScrub
  | assocEntryRepairDone => exact .of hs.doAssocRepaired
  | assocSpareFillDone => exact .of hs.doSpareFilled
  | brambleScrubVisit => exact .of hs.doBrambleScrub
  | brambleReloadDone => exact .of hs.doBrambleReload
  | confirmCmp | confirmFind => exact .of (.cpCall hs (fun h1 => h1.confBody))
  | confirmStep => exact .of (.cpCall hs (fun h1 => h1.confStep))
  | injectQueueEntry => exact .of hs.doInjectEntry.checked
  | svcPostWrite => exact .of (.ite hs.svcPost hs)
  | svcEnableWrite => exact .of (.ite hs.svcConfig hs)
  | imgArm | imgDisarm => exact .of (.ite hs.imgCtl hs)
  | imgSwitch => exact .of hs.doSwitch
  | imgDrainEnd => exact .of hs.doDrainEnd
  | fkAdd | fkSub | fkAdds | fkSubs | fkAddus | fkSubus | fkNeg | fkAbs | fkAnd | fkOr | fkXor | fkAndn | fkMin | fkMax
  | fkMinu | fkMaxu | fkClz | fkCtz | fkPopc | fkBswap | fkSll | fkSrl | fkSra | fkRor | fkSls | fkMul | fkMulh | fkMulhu =>
    exact .of (.fkRun hs (fun h1 => h1.aluBody))
  | fkAddi | fkAndi | fkOri | fkXori | fkLi | fkLui | fkSel | fkExtu | fkExts | fkIns | fkSlli | fkSrli | fkSrai | fkRori
  | fkSlsi | fkFmul | fkExtr | fkMval | fkMvah => exact .of (.fkRun hs (fun h1 => h1.gRes))
  | fkDiv | fkDivu | fkRem | fkRemu => exact .of (.fkRun hs (fun h1 => h1.divBody))
  | fkMpyf | fkMacf | fkMsuf | fkMaci | fkAadd | fkAsub | fkAneg | fkAsl | fkAsr | fkAclr | fkMvg | fkMvas =>
    exact .of (.fkRun hs (fun h1 => h1.aRes))
  | fkCmp | fkCmpi | fkTst => exact .of (.fkRun hs (fun h1 => h1.setFlags))
  | fkB | fkJr | fkTrap | fkNop | fkGate => exact .of (.fkRun hs (fun h1 => h1))
  | fkBcc | fkBz | fkBnz => exact .of (.fkRun hs (fun h1 => h1.branchBody))
  | fkCall | fkCallr | fkRspush => exact .of (.fkRun hs (fun h1 => .ite_state h1 h1.pushRs))
  | fkBreak => exact .of (.fkRun hs (fun h1 => .ite_state h1.haltNow h1))
  | fkTret => exact .of (.fkRun hs (fun h1 => .ite_state (h1.updThread keeps) h1))
  | fkClrf => exact .of (.fkRun hs (fun h1 => h1.updThread keeps))
  | fkMtsr => exact .of (.fkRun hs (fun h1 => h1.updThread fun _ => Thread.wf_setSr))
  | fkChstg => exact .of (.fkRun hs (fun h1 => h1.updThread fun _ hx => Thread.wf_withStaging hx (tput_wf _ _ _)))
  | fkChdrop => exact .of (.fkRun hs (fun h1 => h1.updThread fun _ hx => Thread.wf_withStaging hx fun _ => rfl))
  | fkMfsr => exact .of (.fkRun hs (fun h1 => .putG (.ite (h1.updThread keeps) h1)))
  | fkLb | fkLbu | fkLh | fkLhu | fkLw | fkLhn | fkLwn => exact .of (.fkRun hs (fun h1 => h1.loadBody))
  | fkSb | fkSh | fkSw | fkShn | fkSwn => exact .of (.fkRun hs (fun h1 => h1.storeBody))
  | memoryResponse => exact .of hs.doMemoryResponse
  | fkWaitev => exact .of (.fkRun hs (fun h1 => .ite_state h1.waitevDone (.bumpCore (h1.updThread keeps))))
  | waitevComplete => exact .of hs.doWaitevComplete
  | fkEvsig =>
    exact .of (.fkRun hs (fun h1 => .ite_state h1 (.ite (.raiseInt (.ite h1.setEv.bumpCore h1.setEv)) (.ite h1.setEv.bumpCore h1.setEv))))
  | evPostWrite => exact .of (.ite hs.doEvPost hs)
  | threadTimerExpire => exact .of hs.doTimerExpire
  | interruptTake => exact .of hs.doInterruptTake
  | eventDeadlock => exact .of hs.doEventDeadlock
  | threadPost => exact .of (.ite hs.doThreadPost hs)
  | threadKill => exact .of (.ite hs.doThreadKill hs)
  | threadResume => exact .of (.ite hs.doThreadResume hs)
  | threadHalt => exact .of (.ite hs.doThreadHalt hs)
  | haltComplete => exact .of hs.doHaltComplete
  | fkChsend =>
    exact .of (.fkRun hs (fun h1 => .ite_state h1.putG (.ite_state h1.bumpChan.putG
      (.putG (h1.sendMessage.updThread fun _ hx => Thread.wf_withStaging hx fun _ => rfl)))))
  | chCfgWrite => exact .of (.ite hs.writeChCfg hs)
  | locksForce => exact .of (.ite hs.forceLock hs)
  | fkCplock => exact .of (.fkRun hs (fun h1 => .statusCall h1 (fun h2 => h2.cpLock)))
  | fkCpunlock => exact .of (.fkRun hs (fun h1 => .statusCall h1 (fun h2 => h2.cpUnlock)))
  | fkHash | fkHashm => exact .of (.cpCall hs (fun h1 => h1.hashBody))
  | fkFdiv | fkLog2 | fkExp2 => exact .of (.cpCall hs (fun h1 => h1.fracBody))
  | fkExpRequest => exact .of (.cpCall hs (fun h1 => h1.expBody))
  | coprocResponse => exact .of hs.doCoprocResponse.checked
  | coprocCancelAck => exact .of hs.doCancelAck
  | coprocLateFailure => exact .of hs.doCoprocLate
  | expReqSend => exact .of hs.doExpSend
  | expFlitReceive => exact .of hs.doExpFlit
  | expRspReceive => exact .of hs.doExpRsp
  | frameIn => exact .of hs.doFrameIn
  | expReplay => exact .of hs.doExpReplay
  | expTimeout => exact .of hs.doExpTimeout
  | expLinkUp => exact .of hs.doExpUp
  | expLinkDown => exact .of hs.doExpDown
  | shaperRefill => exact .of hs.doShaperRefill
  | hbmAccess => exact .of hs.doHbmAccess.checked
  | hbmWriteToArray => exact .of hs.doHbmWriteToArray.checked
  | hbmRefresh => exact .of hs.doHbmRefresh
  | hbmPowerDown => exact .of hs.doHbmPowerDown
  | hbmScrubRead => exact .of hs.doHbmScrub
  | hbmRowRepairDone => exact .of hs.doRowRepairDone
  | hbmTrainingDone => exact .of hs.doHbmTrained
  | powerGateEnter => exact .of hs.doPowerGate
  | powerWake => exact .of hs.doPowerWake
  | fordTrainingDone => exact .of hs.doFordTrainingDone
  | fordFlitReceive => exact .of hs.doFordFlit
  | fordLaneCheck => exact .of hs.doLaneCheck
  | fordLaneRepairDone => exact .of hs.doLaneRepaired
  | fordLinkDown => exact .of hs.doFordDown
  | heartbeatSend => exact .of hs.doHeartbeatSend
  | heartbeatReceive => exact .of hs.doHeartbeatReceive
  | fatalNoticeReceive => exact .of hs.doFatalNotice
  | peerLost => exact .of hs.doPeerLost
  | peerUp => exact .of hs.doPeerUp
  | learnShareNotice => exact .of hs.doLearnShare
  | faultReport => exact .of (.orWait hs (fun h1 => h1.doFaultReport))
  | recAck => exact .of (.ite hs.recAck hs)
  | recLoRead => exact .of (.ite hs.recLoRead hs)
  | detailARead => exact .of (.ite hs.detailARead hs)
  | detailBRead => exact .of (.ite hs.detailBRead hs)
  | hubEventToPrivet => exact .of hs.doHubEvent
  | faultnPulseEnd => exact .of hs.doPulseEnd
  | spareHandover => exact .of hs.doHandover
  | selfTestEnd => exact .of hs.doSelfTest
  | reweightBatch => exact .of hs.doReweight
  | privetHbWrite => exact .of hs.doHbWrite
  | privetHbWindow => exact .of hs.doHbWindow
  | privetRelease => exact .of hs.doPrivetRelease
  | halfRestart => exact .of hs.doHalfRestart
  | privetInfo => exact .of (.ite hs.doInfo hs)
  | imgStage => exact .of (.ite (.orWait hs (fun h1 => h1.doImgStage)) hs)
  | imgActivate => exact .of (.ite hs.doImgActivate hs)
  | imgConfirm => exact .of (.ite hs.doImgConfirm hs)
  | storeCommit => exact .of (.ite hs.doStoreCommit hs)
  | logRead => exact .of (.ite (.orWait hs (fun h1 => h1.doLogRead)) hs)
  | i2cXfer => exact .of (.ite (.orWait hs (fun h1 => h1.doI2c)) hs)
  | grant => exact .of (.ite hs.doGrant hs)
  | debugChallenge => exact .of (.ite hs.doChallenge hs)
  | debugUnlock => exact .of (.ite (.orWait hs (fun h1 => h1.doUnlock)) hs)
  | ccReload => exact .of (.ite hs.doCcReload hs)
  | mbGo => exact .of hs.mbGo
  | debugLock => exact .of (.ite hs.lockDebug hs)
  | debugTokenExpire => exact .of hs.doTokenExpire
  | tftpStage => exact .of hs.doTftpStage
  | storeAutoCommit => exact .of hs.doAutoCommit
  | logFlush => exact .of hs.doLogFlush
  | calViewWrite => exact .of (.ite hs.calWrite hs)
  | sensorSample => exact .of hs.doSensorSample
  | senseTempRead => exact .of (.ite hs.tempRead hs)
  | thermalRelease => exact .of hs.doThermalRelease
  | railSample => exact .of hs.doRailSample
  | clockMonitorWindow => exact .of hs.doClockWindow
  | refclkLoss => exact .of hs.doRefclkLoss
  | pllUnlock => exact .of hs.doPllUnlock
  | ioPllUnlock => exact .of hs.doPllLost
  | droopRise => exact .of hs.doDroopRise
  | droopFall => exact .of hs.doDroopFall
  | droopStatRead => exact .of (.ite hs.droopRead hs)
  | pfailAssert => exact .of hs.doPfailAssert
  | pfailDeassert => exact .of hs.doPfailDeassert
  | poresetN => exact .of hs.doPoreset
  | sysresetN => exact .of hs.doSysreset
  | resetRelease => exact .of hs.doRelease
  | nosReady => exact .of (.ite hs.setNosReady hs)
  | pciePerstN => exact .of hs.doPerst
  | functionLevelReset => exact .of hs.doFlr
  | mgmtFrameReceive => exact .of (.orWait hs (fun h1 => h1.doMgmtReceive))
  | mgmtFrameTransmit => exact .of (.orWait hs (fun h1 => h1.doMgmtTransmit))
  | ringDeliver => exact .of (.orWait hs (fun h1 => h1.doRingDeliver))
  | mirrorPeerApply => exact .of (.orWait hs (fun h1 => h1.doMirrorApply))
  | fkDrain => exact .of (.fkRun hs (fun h1 => .ite_state h1 h1))
  | fkAlu64 => exact .of (.fkRun hs (fun h1 => h1.alu64Body))
  | fkAddi64 => exact .of (.fkRun hs (fun h1 => h1.putG64))
  | fkLd | fkLwu => exact .of (.fkRun hs (fun h1 => h1.loadBody64))
  | fkSwapm | fkAddm | fkCasm => exact .of (.fkRun hs (fun h1 => h1.swapBody))
  | fkGret | fkMtkr => exact .of (.fkRun hs (fun h1 => .privBody h1 (fun h2 => h2.updThread fun _ => Thread.wf_setK)))
  | fkMfkr => exact .of (.fkRun hs (fun h1 => .privBody h1 (fun h2 => h2.putG64)))
  | fkXlinv => exact .of (.fkRun hs (fun h1 => .privBody h1 (fun h2 => h2.updCc keeps)))
  | extestLoad => exact .of hs.doExtest
  | transmitFrameEnd => exact .of hs.doFrameOut
  | hbmStackTempReport => exact .of hs.doStackTemp
  | remoteFaultChange => exact .of hs.doRemoteFault
  | ioPllRelock => exact .of hs.doPllBack
  | refclkArrival => exact .of hs.doRefclkArrival
  | pstoreRewriteDone => exact .of hs.doPstoreRewrite
  | flashEraseDone => exact .of hs.doEraseDone
  | count => exact hs.execCount
  | fkRet => exact hs.execFkRet
  | fkRspop => exact hs.execFkRspop
  | fkPush => exact hs.execFkPush
  | fkPop => exact hs.execFkPop
  | fkFrd => exact hs.execFkFrd
  | fkHrd => exact hs.execFkHrd
  | fkHwr => exact hs.execFkHwr
  | fkTwait => exact hs.execFkTwait
  | fkTdone => exact hs.execFkTdone
  | fkTdrop => exact hs.execFkTdrop
  | fkPostf => exact hs.execFkPostf
  | fkChrecv => exact hs.execFkChrecv
  | fkLock => exact hs.execFkLock
  | fkTrylock => exact hs.execFkTrylock
  | fkUnlock => exact hs.execFkUnlock
  | fkCpsave => exact hs.execFkCpsave
  | fkCprestore => exact hs.execFkCprestore
  | fkCvcfg => exact hs.execFkCvcfg
  | fkCvupd => exact hs.execFkCvupd
  | fkCvfin => exact hs.execFkCvfin
  | fkCvappend => exact hs.execFkCvappend
  | fkCvcheck => exact hs.execFkCvcheck
  | fkHcfg => exact hs.execFkHcfg
  | fkSd => exact hs.execFkSd

/-- A step is a tick or a command. -/
theorem State.Tabs.step (hs : s.Tabs) : NextTabs (Machine.step s) := by
  unfold Machine.step
  split
  · exact .of hs.tick
  · exact hs.rest.exec _

end

theorem State.halfTablesWf_iff {s : State} {h : Half} :
    s.halfTablesWf h = true ↔
      (s.ing.get h).pfcWf ∧ Tbl.wf (s.buf.get h).chains = true ∧ Tbl.wf (s.locks.get h) = true ∧ (s.tab.get h).wf = true := by
  simp only [State.halfTablesWf, IngressState.pfcWf, Bool.and_eq_true, and_assoc]

theorem State.tablesWf_iff {s : State} : s.tablesWf = true ↔ s.Tabs := by
  simp only [State.tablesWf, State.halfTablesWf_iff, Bool.and_eq_true, and_assoc]
  constructor
  · rintro ⟨ht0, ht1, hc0, hc1, hi0, hb0, hl0, hv0, hi1, hb1, hl1, hv1, hslots, huser⟩
    exact ⟨⟨ht0, ht1⟩, ⟨hc0, hc1⟩, ⟨hi0, hi1⟩, ⟨hb0, hb1⟩, ⟨hl0, hl1⟩, ⟨hv0, hv1⟩, hslots, huser⟩
  · rintro ⟨ht, hc, hi, hb, hl, hv, hslots, huser⟩
    exact ⟨ht.1, ht.2, hc.1, hc.2, hi.1, hb.1, hl.1, hv.1, hi.2, hb.2, hl.2, hv.2, hslots, huser⟩

end Sys2Proof.Machine

/-- Settles O5: every operation of the model keeps the tables canonical, and a step is one of them. -/
theorem stepKeepsTables : Obligations.StepKeepsTables := fun _ _ hs hst =>
  State.tablesWf_iff.mpr ((State.tablesWf_iff.mp hs).step _ hst)
end

section
open Sys2Proof Sys2Proof.Machine

/-! ## The image that an image switch leaves running -/

namespace Sys2Proof.Machine

/-- The switch takes an ARMED half to DRAINING (R274). -/
theorem State.imgState_doImgSwitch {s : State} {h : Half} (hw : Tbl.wf s.csr = true) (ha : s.imgState h = 1)
    (hd : (s.ing.get h).imgNext.toNat ≤ (s.dts h).toNat) : (doImgSwitch h s).imgState h = 2 := by
  unfold doImgSwitch
  rw [if_pos ⟨ha, hd⟩]
  exact (State.rfld_setRfld_ne _ _ _ _ _ _ _ _ (State.setRfld_wf _ _ _ _ _ _ hw) (.inr (by decide))).trans
    (State.rfld_setRfld_same _ _ _ _ _ _ hw (by decide))

theorem doImgSwitch_pv (h : Half) (s : State) : (doImgSwitch h s).pv = s.pv := by
  unfold doImgSwitch
  dsimp only
  split <;> rfl

/-- The half runs the image that was activated once its switch takes place (R604). -/
theorem imgSlot_doSwitch {s : State} {h : Half} {k : Nat} (hw : Tbl.wf s.csr = true) (ha : s.imgState h = 1)
    (hd : (s.ing.get h).imgNext.toNat ≤ (s.dts h).toNat) (hk : s.pv.imgPending = some k) : (doSwitch h s).pv.imgSlot = some k := by
  have hne : (doImgSwitch h s).imgState h ≠ s.imgState h := by rw [State.imgState_doImgSwitch hw ha hd, ha]; decide
  have hp : (doImgSwitch h s).pv.imgPending = some k := by rw [doImgSwitch_pv, hk]
  unfold doSwitch
  simp only [if_neg hne, State.updPv, hp, Option.isSome_some, if_true]

/-- A machine after reset of which half 0 is ARMED for a switch to image 1. -/
def imgArmedState : State :=
  (State.reset.updPv fun p => { p with imgPending := some 1 }).setRfld (bHalf 0) R.half_IMG_CTL 4 2 1

theorem imgArmedState_csr_wf : Tbl.wf imgArmedState.csr = true := State.setRfld_wf _ _ _ _ _ _ rfl

theorem imgArmedState_imgState : imgArmedState.imgState 0 = 1 := State.rfld_setRfld_same _ _ _ _ _ _ rfl (by decide)

end Sys2Proof.Machine

/-- Refutes O15: in `imgArmedState` an activated image waits, and the switch sets Privet's `imgSlot` to it, which the frame of the
IMG_SWITCH clause (registers and ingress alone) rules out. -/
theorem not_imageSwitchAndServices : ¬ Obligations.ImageSwitchAndServices := by
  unfold Obligations.ImageSwitchAndServices
  rintro ⟨⟨_, _, _, hswitch, _⟩, _⟩
  obtain ⟨t, ht, -, -, -, hframe⟩ := hswitch imgArmedState 0 imgArmedState_csr_wf imgArmedState_imgState (Nat.zero_le _)
  have ht : doSwitch 0 imgArmedState = t := Host.Outcome.next.inj ht
  have hnew : t.pv.imgSlot = some 1 := ht ▸ imgSlot_doSwitch imgArmedState_csr_wf imgArmedState_imgState (Nat.zero_le _) rfl
  have hold : t.pv.imgSlot = none := congrArg (·.pv.imgSlot) hframe
  exact absurd (hnew.symm.trans hold) (by decide)
end

section
open Sys2Proof Sys2Proof.Machine

/-! ## The task that a free thread takes -/

namespace Sys2Proof.Machine

/-! ### The pick -/

/-- A running maximum is at least its start and each value it has met. -/
theorem le_runningMax {α : Type} (f : α → Nat) (l : List α) (m : Nat) :
    m ≤ l.foldl (fun m e => if m < f e then f e else m) m ∧ ∀ e ∈ l, f e ≤ l.foldl (fun m e => if m < f e then f e else m) m := by
  induction l generalizing m with
  | nil => simp
  | cons a l ih =>
    obtain ⟨hstart, hmem⟩ := ih (if m < f a then f a else m)
    have hmax : m ≤ (if m < f a then f a else m) ∧ f a ≤ (if m < f a then f a else m) := by split <;> omega
    exact ⟨hmax.1.trans hstart, List.forall_mem_cons.mpr ⟨hmax.2.trans hstart, hmem⟩⟩

theorem oldestTask_mem {l : List (Nat × Task)} {k : Nat} (h : oldestTask l = some k) : ∃ x, (k, x) ∈ l := by
  obtain ⟨e, he, rfl⟩ := Option.map_eq_some_iff.mp h
  refine ⟨e.2, List.foldlRecOn (motive := fun best => ∀ e, best = some e → e ∈ l) l _ (by simp) (fun best hb a ha e he => ?_) e he⟩
  split at he
  · exact Option.some.inj he ▸ ha
  · split at he
    · exact Option.some.inj he ▸ ha
    · exact hb _ he

/-- The priority of the pick (R257): the highest among the READY tasks and the services to run. -/
def State.topPrio (s : State) (h : Half) (t : TileIx) : Nat :=
  (s.readySvcs h t).foldl (fun m j => if m < s.svcPrio h t j then s.svcPrio h t j else m)
    ((s.readyTasks h t).foldl (fun m e => if m < e.2.effPrio then e.2.effPrio else m) 0)

theorem State.effPrio_le_topPrio {s : State} {h : Half} {t : TileIx} {e : Nat × Task} (he : e ∈ s.readyTasks h t) :
    e.2.effPrio ≤ s.topPrio h t :=
  ((le_runningMax (fun e : Nat × Task => e.2.effPrio) _ 0).2 e he).trans (le_runningMax (s.svcPrio h t) _ _).1

/-- A task that is picked is READY and has the priority of the pick. -/
theorem State.pickTask_task {s : State} {h : Half} {t : TileIx} {k : Nat} (hk : s.pickTask h t = some (.task k)) :
    ∃ x, (k, x) ∈ s.readyTasks h t ∧ x.effPrio = s.topPrio h t := by
  have htop {p : Nat × Task → Bool}
      (ho : oldestTask (((s.readyTasks h t).filter fun e => e.2.effPrio = s.topPrio h t).filter p) = some k) :
      ∃ x, (k, x) ∈ s.readyTasks h t ∧ x.effPrio = s.topPrio h t := by
    obtain ⟨x, hx⟩ := oldestTask_mem ho
    obtain ⟨hready, htop⟩ := List.mem_filter.mp (List.mem_filter.mp hx).1
    exact ⟨x, hready, of_decide_eq_true htop⟩
  unfold State.pickTask at hk
  dsimp only at hk
  split at hk
  case h_1 ho => exact htop (Pick.task.inj (Option.some.inj hk) ▸ ho)
  case h_2 ho => exact htop (Pick.task.inj (Option.some.inj hk) ▸ ho)
  all_goals cases hk

/-! ### The dispatch -/

section
variable {s : State} {h : Half} {t : TileIx} {n : Fin 128} (hl : s.live (.tile h t) = true) (hf : s.threadFree h t n.val = true)
include hl hf

theorem doTaskDispatch_of_new {k : Nat} (hp : s.pickTask h t = some (.task k)) (hr : (s.task h t k).resumed = false)
    (hc : s.newCore h t = some (n.val / 8)) : doTaskDispatch h t n s = s.startOn h t n k := by
  unfold doTaskDispatch
  simp only [hl, hf, and_self, if_true, hp, hr, hc, Bool.false_eq_true, if_false]

theorem doTaskDispatch_of_resumed {k : Nat} (hp : s.pickTask h t = some (.task k)) (hr : (s.task h t k).resumed = true) :
    doTaskDispatch h t n s = s.resumeOn h t n k := by
  unfold doTaskDispatch
  simp only [hl, hf, and_self, if_true, hp, hr]

theorem doTaskDispatch_of_svc {j : Nat} (hp : s.pickTask h t = some (.svc j)) (hc : s.newCore h t = some (n.val / 8)) :
    doTaskDispatch h t n s = s.used.startSvc h t n j := by
  unfold doTaskDispatch
  simp only [hl, hf, and_self, if_true, hp, hc]

end

/-- A task whose entry is sound begins in the thread at its entry. -/
theorem State.startOn_of_entry {s : State} {h : Half} {t : TileIx} {n : Fin 128} {k a : Nat}
    (hp : (s.tile h t).bankPoisoned (s.task h t k).bank (4 * (s.task h t k).program) 4 = false)
    (ha : entryAddr ((s.tile h t).entryWord (s.task h t k).bank (s.task h t k).program) = some a) :
    s.startOn h t n k = (s.updThread (.pk h t n) fun _ => s.startedThread h t n k a).updTask h t k fun x =>
      { x with state := .running, thread := some n.val, resumed := false } := by
  unfold State.startOn
  simp only [hp, ha, Bool.false_eq_true, if_false]

end Sys2Proof.Machine

/-- Settles O13: the three dispatches are the branches of `doTaskDispatch`, and the pick has the priority `topPrio`, which no READY task
exceeds. -/
theorem tasksDispatched : Obligations.TasksDispatched := by
  unfold Obligations.TasksDispatched
  refine ⟨⟨fun s h t n k ha hl hf hp hr hc => ?_, fun s h t n k ha hl hf hp hr => ?_, fun s h t n j ha hl hf hp hc => ?_,
    fun s h t n k a => State.startOn_of_entry⟩, fun s h t k hp => ?_⟩
  · exact congrArg Host.Outcome.next ((State.checked_unarmed ha _).trans (doTaskDispatch_of_new hl hf hp hr hc))
  · exact congrArg Host.Outcome.next ((State.checked_unarmed ha _).trans (doTaskDispatch_of_resumed hl hf hp hr))
  · exact congrArg Host.Outcome.next ((State.checked_unarmed ha _).trans (doTaskDispatch_of_svc hl hf hp hc))
  · obtain ⟨x, hx, htop⟩ := State.pickTask_task hp
    exact ⟨x, hx, fun e he => htop ▸ State.effPrio_le_topPrio he⟩
end

section
open Sys2Proof Sys2Proof.Machine

/-! ## Release in order, patience and OLDEST_LIVE -/

namespace Sys2Proof.Machine

variable {s : State} {h : Half} {d : Nat} {e : Nat × Nat} {r : List (Nat × Nat)}

/-! ### Release (R265) -/

theorem State.releaseUpTo_none (hn : s.releasable h = none) (n : Nat) : s.releaseUpTo h n = s := by
  cases n with
  | zero => rfl
  | succ n => simp only [State.releaseUpTo, hn]

theorem State.releaseUpTo_succ (hd : s.releasable h = some d) (he : s.domWin h d = e :: r) (n : Nat) :
    s.releaseUpTo h (n + 1) = ((s.setDomWin h d r).releaseOrdered h (Fin.ofNat 16 e.1) e.2 false).releaseUpTo h n := by
  simp only [State.releaseUpTo, hd, he]

theorem doConfluence_of_live (hl : s.live (.half h) = true) : doConfluence h s = s.releaseUpTo h 32 := if_pos hl

theorem execConfluenceRelease_of_live (ha : s.armed = []) (hl : s.live (.half h) = true) :
    exec (.confluenceRelease h) s = .next (s.releaseUpTo h 32) :=
  congrArg Host.Outcome.next ((State.checked_unarmed ha _).trans (doConfluence_of_live hl))

/-! ### A head and its patience (R266) -/

/-- The head of domain `d` is due to be overtaken: its task is not complete and it has waited its patience out. -/
def State.HeadDue (s : State) (h : Half) (d : Nat) (e : Nat × Nat) : Prop :=
  (s.windowTask h e).complete = false ∧ s.patience h d ≤ s.headWait h (s.windowTask h e).stamp.toNat

theorem State.not_headDue
    (hn : (s.windowTask h e).complete = true ∨ s.headWait h (s.windowTask h e).stamp.toNat < s.patience h d) : ¬ s.HeadDue h d e := by
  rintro ⟨hc, hp⟩
  rcases hn with hn | hn
  · exact Bool.noConfusion (hn.symm.trans hc)
  · exact Nat.not_le.mpr hn hp

theorem State.checkDomain_of_due (he : s.domWin h d = e :: r) (hd : s.HeadDue h d e) :
    State.checkDomain h s d = s.overtake h d R.half_OVERTAKEN_PATIENCE := by
  unfold State.checkDomain
  simp only [he]
  exact if_pos hd

theorem State.checkDomain_of_not_due (he : s.domWin h d = e :: r) (hd : ¬ s.HeadDue h d e) : State.checkDomain h s d = s := by
  unfold State.checkDomain
  simp only [he]
  exact if_neg hd

/-- An overtaken head leaves its window and is counted. -/
theorem State.overtake_of_head {c : Nat} (he : s.domWin h d = e :: r) :
    s.overtake h d c = (((s.setDomWin h d r).updTask h (Fin.ofNat 16 e.1) e.2 fun x => { x with overtaken := true }).bump (bHalf h) c) := by
  unfold State.overtake
  simp only [he]

theorem State.domWin_setDomWin_same (hw : Tbl.wf (s.conf.get h).windows = true) : (s.setDomWin h d r).domWin h d = r := by
  unfold State.domWin State.setDomWin
  simp only [pair_get_upd_same]
  exact tget_tset_same _ _ _ _ hw

theorem State.domWin_overtake {c : Nat} (hw : Tbl.wf (s.conf.get h).windows = true) (he : s.domWin h d = e :: r) :
    (s.overtake h d c).domWin h d = r := by
  rw [State.overtake_of_head he]
  exact State.domWin_setDomWin_same hw

theorem State.overtake_changes_windows {c : Nat} (hw : Tbl.wf (s.conf.get h).windows = true) (he : s.domWin h d = e :: r) :
    ((s.overtake h d c).conf.get h).windows ≠ (s.conf.get h).windows := fun hsame =>
  List.cons_ne_self e r (he.symm.trans ((congrArg (tget [] · d) hsame).symm.trans (State.domWin_overtake hw he)))

theorem State.reg_overtake {c : Nat} (hw : Tbl.wf s.csr = true) (he : s.domWin h d = e :: r) :
    (s.overtake h d c).reg (bHalf h) c = s.reg (bHalf h) c + 1 := by
  rw [State.overtake_of_head he]
  exact State.reg_bump_same _ _ _ hw

theorem State.overtake_frame {c : Nat} (he : s.domWin h d = e :: r) :
    s.overtake h d c = { s with csr := (s.overtake h d c).csr, conf := (s.overtake h d c).conf, tiles := (s.overtake h d c).tiles } := by
  rw [State.overtake_of_head he]
  rfl

/-! ### The check of every domain -/

/-- The state after every domain's head is compared with its patience. -/
def State.checkDomains (s : State) (h : Half) : State := ((s.conf.get h).windows.map (·.1)).foldl (State.checkDomain h) s

theorem doPatience_of_changed (hl : s.live (.half h) = true) (hc : ((s.checkDomains h).conf.get h).windows ≠ (s.conf.get h).windows) :
    doPatience h s = (s.checkDomains h).releaseUpTo h 32 := (if_pos hl).trans (if_neg hc)

theorem doPatience_of_same (hl : s.live (.half h) = true) (hc : ((s.checkDomains h).conf.get h).windows = (s.conf.get h).windows) :
    doPatience h s = s.checkDomains h := (if_pos hl).trans (if_pos hc)

section
variable (hone : (s.conf.get h).windows = [(d, e :: r)])
include hone

theorem State.domWin_of_single : s.domWin h d = e :: r := by simp [State.domWin, hone, tget, tget?]

theorem State.checkDomains_of_single : s.checkDomains h = State.checkDomain h s d := by simp [State.checkDomains, hone]

theorem State.windows_wf_of_single : Tbl.wf (s.conf.get h).windows = true := by rw [hone]; rfl

theorem doPatience_of_single_due (hl : s.live (.half h) = true) (hd : s.HeadDue h d e) :
    doPatience h s = (s.overtake h d R.half_OVERTAKEN_PATIENCE).releaseUpTo h 32 := by
  have he := State.domWin_of_single hone
  have hcheck : s.checkDomains h = s.overtake h d R.half_OVERTAKEN_PATIENCE :=
    (State.checkDomains_of_single hone).trans (State.checkDomain_of_due he hd)
  rw [doPatience_of_changed hl (hcheck ▸ State.overtake_changes_windows (State.windows_wf_of_single hone) he), hcheck]

theorem doPatience_of_single_not_due (hl : s.live (.half h) = true) (hd : ¬ s.HeadDue h d e) : doPatience h s = s := by
  have hcheck : s.checkDomains h = s :=
    (State.checkDomains_of_single hone).trans (State.checkDomain_of_not_due (State.domWin_of_single hone) hd)
  rw [doPatience_of_same hl (by rw [hcheck]), hcheck]

end

/-! ### The time a head has waited (R80) -/

theorem State.headWait_unloaded (hn : s.dev.loadTick = none) (x : Nat) : s.headWait h x = (s.dts h).toNat - x := by
  simp only [State.headWait, hn]

theorem State.headWait_loaded {n : Nat} {v : DWord} (hv : s.dev.loadTick = some (n, v)) (x : Nat) :
    s.headWait h x = (s.dts h).toNat - max x v.toNat := by
  simp only [State.headWait, hv]

/-! ### OLDEST_LIVE (R270) -/

/-- A running minimum is at most its start and each value it has met, and one of them. -/
theorem runningMin_le (l : List Nat) (m : Nat) :
    (∀ x ∈ l, l.foldl (fun m x => if x < m then x else m) m ≤ x) ∧ l.foldl (fun m x => if x < m then x else m) m ≤ m ∧
    (l.foldl (fun m x => if x < m then x else m) m ∈ l ∨ l.foldl (fun m x => if x < m then x else m) m = m) := by
  induction l generalizing m with
  | nil => simp
  | cons a l ih =>
    obtain ⟨hle, hstart, hmem⟩ := ih (if a < m then a else m)
    have hmin : (if a < m then a else m) ≤ a ∧ (if a < m then a else m) ≤ m := by split <;> omega
    refine ⟨List.forall_mem_cons.mpr ⟨hstart.trans hmin.1, hle⟩, hstart.trans hmin.2, ?_⟩
    rcases hmem with hmem | hmem
    · exact .inl (List.mem_cons_of_mem a hmem)
    · rw [List.foldl_cons, hmem]
      split
      · exact .inl List.mem_cons_self
      · exact .inr rfl

theorem doOldestLive_of_live (hl : s.live (.half h) = true) :
    doOldestLive h s = s.setReg (bHalf h) R.half_OLDEST_LIVE (BitVec.ofNat 64 (s.oldestLive h)) := if_pos hl

end Sys2Proof.Machine

/-- Settles O14: the releases are the equations of `releaseUpTo`, a head is overtaken where it is `HeadDue`, and OLDEST_LIVE is the running
minimum of the stamps that hold it and of DTS less 16. -/
theorem orderRestored : Obligations.OrderRestored := by
  unfold Obligations.OrderRestored
  refine ⟨⟨fun s h ha hl => ?_, fun s h d e r n hd he => State.releaseUpTo_succ hd he n, ?_, fun s h d e r hl hone => ?_,
    fun s h d e r he => ?_, fun s h d e r c hcsr hwin he _ => ?_, fun s h x => ?_, fun s h hl hcsr => ?_⟩,
    fun s h => runningMin_le (s.holders h) _⟩
  · have hexec := execConfluenceRelease_of_live ha hl
    refine ⟨hexec, fun hn => ?_, fun d e r u hd he hu hn => ?_⟩
    · rw [hexec, State.releaseUpTo_none hn]
    · rw [hexec, State.releaseUpTo_succ hd he, ← hu, State.releaseUpTo_none hn]
  · rintro s _ h hl rfl
    exact ⟨fun hc => congrArg Host.Outcome.next (doPatience_of_changed hl hc),
      fun hc => congrArg Host.Outcome.next (doPatience_of_same hl hc)⟩
  · exact ⟨fun hc hp => congrArg Host.Outcome.next (doPatience_of_single_due hone hl ⟨hc, hp⟩),
      fun hn => congrArg Host.Outcome.next (doPatience_of_single_not_due hone hl (State.not_headDue hn))⟩
  · exact ⟨fun hc hp => State.checkDomain_of_due he ⟨hc, hp⟩, fun hn => State.checkDomain_of_not_due he (State.not_headDue hn)⟩
  · exact ⟨_, rfl, State.domWin_overtake hwin he, State.reg_overtake hcsr he, State.overtake_frame he⟩
  · exact ⟨fun hn => State.headWait_unloaded hn x, fun n v hv => State.headWait_loaded hv x⟩
  · exact ⟨_, congrArg Host.Outcome.next (doOldestLive_of_live hl), State.reg_setReg_same _ _ _ _ hcsr, rfl⟩
end

section
open Sys2Proof Sys2Proof.Machine

/-! ## The instructions that end, park and change a task -/

namespace Sys2Proof.Machine

/-! ### The end of a task and an injection make no request of HBM -/

section
variable (s : State) (h : Half) (t : TileIx) (k : Nat)

@[simp] theorem State.completePacket_waits (out : Option (List Byte)) : (s.completePacket h t k out).waits = s.waits := by
  have hend : (if out.isNone then (s.endHold h t k).endChain h t k else s.endHold h t k).waits = s.waits :=
    ite_waits (by simp) (by simp)
  unfold State.completePacket
  refine ite_waits (ite_waits hend ?_) ?_
  · exact (State.releaseOrdered_waits _ _ _ _ _).trans hend
  · exact (State.releaseFree_waits _ _ _ _).trans hend

@[simp] theorem State.completeTask_waits (out : Option (List Byte)) : (s.completeTask h t k out).waits = s.waits :=
  ite_waits (s.endService_waits h t k) (s.completePacket_waits h t k out)

@[simp] theorem State.acceptOutput_waits (d : List Byte) : (s.acceptOutput h t k d).waits = s.waits :=
  ite_waits (State.completeTask_waits _ _ _ _ _) (State.completeTask_waits _ _ _ _ _)

@[simp] theorem State.refuseOutput_waits (n : Fin 128) (reason pc : Nat) : (s.refuseOutput h t n k reason pc).waits = s.waits :=
  State.completeTask_waits _ _ _ _ _

@[simp] theorem State.injectChain_waits (v id : Nat) : (s.injectChain h v id).waits = s.waits :=
  ite_waits (State.release_waits _ _ _) rfl

@[simp] theorem State.injectBytes_waits (v : Nat) (bs : List Byte) : (s.injectBytes h v bs).waits = s.waits :=
  State.injectChain_waits _ _ _ _

@[simp] theorem State.postFrame_waits (th : ThreadRef) (v : Nat) (bs : List Byte) : (s.postFrame th v bs).waits = s.waits :=
  ite_waits ((State.updThread_waits _ _ _).trans (s.injectBytes_waits _ v bs)) (State.updThread_waits _ _ _)

end

/-! ### TWAIT (R251, R252) -/

/-- The thread keeps the task and waits for its counters. -/
def State.waitInThread (s : State) (h : Half) (t : TileIx) (n : Fin 128) (k m : Nat) : State :=
  ((s.updThread (.pk h t n) fun x => { x with phase := .twait m }).updTask h t k fun y => { y with state := .waiting }).bump
    (bTsched h t) R.tsched_WAITS_IN_THREAD

section
variable {h : Half} {t : TileIx} {n : Fin 128} {s : State} {c : Fk}

theorem twaitBody_of_over (ho : (s.task h t (s.slotOfThread h t n)).waitOver (wImm8 c.w) = true) : twaitBody h t n s c = .next s := if_pos ho

section
variable (ho : (s.task h t (s.slotOfThread h t n)).waitOver (wImm8 c.w) = false)
include ho

theorem twaitBody_of_shallow (hp : c.dsp = s.stackBase h t n.val ∧ c.x.rs.length ≤ 4) :
    twaitBody h t n s c = .wait (s.park h t n (s.slotOfThread h t n) (wImm8 c.w)) :=
  (if_neg (Bool.eq_false_iff.mp ho)).trans (if_pos hp)

theorem twaitBody_of_deep (hth : c.th = .pk h t n) (hp : ¬ (c.dsp = s.stackBase h t n.val ∧ c.x.rs.length ≤ 4)) :
    twaitBody h t n s c = .wait (s.waitInThread h t n (s.slotOfThread h t n) (wImm8 c.w)) := by
  unfold State.waitInThread
  rw [← hth]
  exact (if_neg (Bool.eq_false_iff.mp ho)).trans (if_neg hp)

end

/-! ### A parked task (R252) -/

theorem State.task_updTask_same (hw : Tbl.wf (s.tiles.get h) = true) (ht : Tbl.wf (s.tile h t).tasks = true) (k : Nat) (f : Task → Task) :
    (s.updTask h t k f).task h t k = f (s.task h t k) := by
  unfold State.updTask State.task
  rw [State.tile_updTile_same _ _ _ _ hw]
  exact tget_tmod_same _ _ _ f ht

theorem State.task_updThread (hw : Tbl.wf (s.tiles.get h) = true) (k : Nat) (f : Thread → Thread) :
    (s.updThread (.pk h t n) f).task h t k = s.task h t k := by
  unfold State.updThread State.task
  dsimp only
  rw [State.tile_updTile_same _ _ _ _ hw]

theorem State.updTask_tiles_wf (hw : Tbl.wf (s.tiles.get h) = true) (k : Nat) (f : Task → Task) :
    Tbl.wf ((s.updTask h t k f).tiles.get h) = true := by
  simp only [State.updTask, State.updTile, pair_get_upd_same]
  exact tmod_wf _ _ _ _ hw

theorem State.thread_updTask (hw : Tbl.wf (s.tiles.get h) = true) (k : Nat) (f : Task → Task) :
    (s.updTask h t k f).thread (.pk h t n) = s.thread (.pk h t n) := by
  unfold State.updTask State.thread
  dsimp only
  rw [State.tile_updTile_same _ _ _ _ hw]

theorem State.threadWf_updTask (hw : s.threadWf (.pk h t n) = true) (k : Nat) (f : Task → Task) :
    (s.updTask h t k f).threadWf (.pk h t n) = true := by
  obtain ⟨htiles, hthreads⟩ := State.threadWf_tables hw
  have hg := State.threadWf_g hw
  have ha := State.threadWf_a hw
  have htile : ((s.updTask h t k f).tile h t).threads = (s.tile h t).threads := by
    unfold State.updTask
    rw [State.tile_updTile_same _ _ _ _ htiles]
  simp only [State.threadWf, State.updTask_tiles_wf htiles, htile, hthreads, State.thread_updTask htiles, hg, ha, Bool.and_self]

/-- What `park` leaves with the task. -/
theorem State.task_park (hw : s.threadWf (.pk h t n) = true) (ht : Tbl.wf (s.tile h t).tasks = true) (k m : Nat) :
    (s.park h t n k m).task h t k =
      { s.task h t k with
        state := .parked, saved := some { (s.thread (.pk h t n)).parked with pc := (s.thread (.pk h t n)).pc + 4 },
        waitMask := m, thread := none } := by
  obtain ⟨htiles, -⟩ := State.threadWf_tables hw
  exact (State.task_updThread (State.updTask_tiles_wf htiles k _) k _).trans (State.task_updTask_same htiles ht k _)

/-- What `park` leaves of the thread. -/
theorem State.thread_park (hw : s.threadWf (.pk h t n) = true) (k m : Nat) :
    (s.park h t n k m).thread (.pk h t n) = (s.thread (.pk h t n)).freed := by
  obtain ⟨htiles, -⟩ := State.threadWf_tables hw
  exact (State.thread_updThread_same _ _ _ (State.threadWf_updTask hw k _)).trans (congrArg Thread.freed (State.thread_updTask htiles k _))

theorem State.reg_park (hw : Tbl.wf s.csr = true) (k m : Nat) :
    (s.park h t n k m).reg (bTsched h t) R.tsched_PARKS = s.reg (bTsched h t) R.tsched_PARKS + 1 :=
  State.reg_bump_same _ _ _ hw

/-! ### TDONE (R254, R344) -/

theorem tdoneBody_of_service (hk : svcBase ≤ s.slotOfThread h t n) : tdoneBody h t n s c =
    .ended ((s.bump (bTsched h t) R.tsched_TASKS_COMPLETED).completeTask h t (s.slotOfThread h t n) none) := if_pos hk

/-- The output descriptor of a packet task is read whole; its reason decides. -/
theorem tdoneBody_of_output {k : Nat} {p : Spc} {d : ODesc} {bs : List Byte} (hk : k = s.slotOfThread h t n) (hpk : k < svcBase)
    (hal : c.g (wA c.w) % 16 = 0) (hp : spcAt (s.spaces h t n.val k) (c.g (wA c.w)) 1 = some p)
    (hd : d = parseODesc (s.spcBytes h t k p (c.g (wA c.w)) (min (p.base + p.size - c.g (wA c.w)) 256)))
    (hbs : s.spcRead h t k p (c.g (wA c.w)) d.size = .ok bs) :
    tdoneBody h t n s c = if d.reason (s.task h t k).length ≠ 0 then .ended (s.refuseOutput h t n k (d.reason (s.task h t k).length) c.pc)
      else .ended (s.acceptOutput h t k bs) := by
  have hroom (a : Nat) : (if a < 256 then a else 256) = min a 256 := by split <;> omega
  subst hk hd
  unfold tdoneBody
  simp only [if_neg (Nat.not_le.mpr hpk), hal, ne_eq, not_true_eq_false, if_false, hp, hroom, hbs]

end

/-! ### POSTF (R247, R333) -/

theorem State.postFrame_of_ready {s : State} {th : ThreadRef} {v : Nat} {bs : List Byte} (hp : (s.ing.get (threadHalf th)).posters = [])
    (hr : s.injectReady (threadHalf th) bs.length = true) :
    s.postFrame th v bs = (s.injectBytes (threadHalf th) v bs).updThread th fun x => { x with pc := x.pc + 4 } := by
  unfold State.postFrame
  simp only [hp, hr, List.isEmpty_nil, Bool.and_self, if_true]

/-! ### An instruction that issues -/

section
variable {s s1 s2 : State} {h : Half} {t : TileIx} {n : Fin 128} {w : Nat}

section
variable (hi : Issues s .twait (.pk h t n) s1 w) (hr : pcInRange (.pk h t n) (callOf s s1 (.pk h t n) w).nextPc = true)
include hi hr

theorem execFkTwait_of_over
    (ho : ((s1.atIssue (.pk h t n)).task h t ((s1.atIssue (.pk h t n)).slotOfThread h t n)).waitOver (wImm8 w) = true) :
    exec (.fkTwait (.pk h t n)) s = .next ((s1.atIssue (.pk h t n)).fallThrough (callOf s s1 (.pk h t n) w)) :=
  have ⟨_, _, _, hwaits, _⟩ := hi
  congrArg Host.Outcome.next (fkRun_next hi (twaitBody_of_over ho) hr ((State.atIssue_waits _ _).trans hwaits))

theorem execFkTwait_of_wait {v : State} (hv : v.waits = (s1.atIssue (.pk h t n)).waits)
    (hb : twaitBody h t n (s1.atIssue (.pk h t n)) (callOf s s1 (.pk h t n) w) = .wait v) : exec (.fkTwait (.pk h t n)) s = .next v :=
  have ⟨_, _, _, hwaits, _⟩ := hi
  congrArg Host.Outcome.next (fkRun_wait hi hb hr (hv.trans ((State.atIssue_waits _ _).trans hwaits)))

end

theorem execFkTdone_of_ended {v : State} (hi : Issues s .tdone (.pk h t n) s1 w) (hv : v.waits = (s1.atIssue (.pk h t n)).waits)
    (hb : tdoneBody h t n (s1.atIssue (.pk h t n)) (callOf s s1 (.pk h t n) w) = .ended v) : exec (.fkTdone (.pk h t n)) s = .next v :=
  have ⟨_, _, _, hwaits, _⟩ := hi
  congrArg Host.Outcome.next (fkRun_ended hi hb (hv.trans ((State.atIssue_waits _ _).trans hwaits)))

theorem execFkTdrop_of_issues (hi : Issues s .tdrop (.pk h t n) s1 w) : exec (.fkTdrop (.pk h t n)) s =
    .next (((s1.atIssue (.pk h t n)).bump (bTsched h t) R.tsched_TASKS_DROPPED).completeTask h t
      ((s1.atIssue (.pk h t n)).slotOfThread h t n) none) :=
  have ⟨_, _, _, hwaits, _⟩ := hi
  congrArg Host.Outcome.next (fkRun_ended hi rfl ((State.completeTask_waits _ _ _ _ _).trans ((State.atIssue_waits _ _).trans hwaits)))

/-- POSTF of an aligned frame whose bytes can be read. -/
theorem execFkPostf_of_bytes {th : ThreadRef} {c : Fk} {bs : List Byte} (hi : Issues s .postf th s1 w) (hc : c = callOf s s1 th w)
    (hal : c.gFull (wA w) % 16 = 0) (hbs : (s1.atIssue th).postBytes th (c.gFull (wA w)) (postLen (c.g (wB w))) = (s2, .ok bs))
    (hw : s2.waits = s.waits) (hr : pcInRange th c.nextPc = true) :
    exec (.fkPostf th) s = .next (s2.postFrame th (wImm8 w - 128) bs) := by
  subst hc
  refine congrArg Host.Outcome.next (fkRun_wait hi ?_ hr ((State.postFrame_waits _ _ _ _).trans hw))
  refine (if_neg (not_not.mpr hal)).trans ?_
  dsimp only [callOf] at hbs ⊢
  rw [hbs]

end

end Sys2Proof.Machine

/-- Settles O39: each instruction issues as its body says (`fkRun_next`, `fkRun_wait`, `fkRun_ended`), and none of the bodies makes a request
of HBM that could have to wait. -/
theorem taskInstructions : Obligations.TaskInstructions := by
  unfold Obligations.TaskInstructions
  refine ⟨fun s s1 u h t n w k c hc hu hk hr hi => ?_, fun s h t n k m hth htasks hcsr => ?_, fun s s1 u h t n w k c hc hu hk => ?_,
    fun s s1 s2 u th w c bs hc hu hi hal hbs hw hr => ?_⟩
  · subst hc hu hk
    exact ⟨fun ho => execFkTwait_of_over hi hr ho,
      fun ho hdsp hrs => execFkTwait_of_wait hi hr rfl (twaitBody_of_shallow ho ⟨hdsp, hrs⟩),
      fun ho hdeep => execFkTwait_of_wait hi hr rfl (twaitBody_of_deep ho rfl hdeep)⟩
  · rw [State.task_park hth htasks, State.thread_park hth]
    exact ⟨rfl, rfl, rfl, rfl, rfl, State.reg_park hcsr k m⟩
  · subst hc hu
    refine ⟨fun hi => ?_, fun hi hsvc => ?_, fun p d bs hi hpk hal hp hd hbs => ?_⟩
    · subst hk
      exact execFkTdrop_of_issues hi
    · subst hk
      exact execFkTdone_of_ended hi (State.completeTask_waits _ _ _ _ _) (tdoneBody_of_service hsvc)
    · have hbody := tdoneBody_of_output hk hpk hal hp hd hbs
      exact ⟨fun hz => execFkTdone_of_ended hi (State.acceptOutput_waits _ _ _ _ _) (hbody.trans (if_neg (not_not.mpr hz))),
        fun hne => execFkTdone_of_ended hi (State.refuseOutput_waits _ _ _ _ _ _ _) (hbody.trans (if_pos hne))⟩
  · subst hu
    have hexec := execFkPostf_of_bytes hi hc hal hbs hw hr
    exact ⟨hexec, fun hp hready => hexec.trans (congrArg Host.Outcome.next (State.postFrame_of_ready hp hready))⟩
end

section
open Sys2Proof Sys2Proof.Machine

/-! ## Requests to HBM and their responses -/

namespace Sys2Proof.Machine

/-! ### The bytes FRD answers (R328) -/

theorem length_padTo (l : List Byte) (n : Nat) : (padTo l n).length = n := by
  simp only [padTo, List.length_append, List.length_take, List.length_replicate]
  omega

theorem length_zeroGrans (l : List Byte) (m : Nat) : (zeroGrans l m).length = l.length := by
  unfold zeroGrans
  split <;> simp

theorem length_statusWord (err : Bool) (grans : Nat) : (statusWord err grans).length = 8 := by simp [statusWord, leBytes]

theorem State.badGrans_of_no_bad_cells {s : State} {h : Half} (hb : (s.buf.get h).badCells = []) (c : Chain) (o n : Nat) :
    s.badGrans h c o n = 0 := by simp [State.badGrans, hb]

/-- The answer of FRD: `len` bytes of the task's frame from `o` with its unreadable granules zeroed, and the status word. -/
def State.frdBytes (s : State) (h : Half) (t : TileIx) (k o len : Nat) : List Byte :=
  zeroGrans (padTo (slice ((s.chain h ((s.task h t k).chain.getD 0)).bytes.take (s.task h t k).length) o len) len)
      (s.badGrans h (s.chain h ((s.task h t k).chain.getD 0)) o len) ++
    statusWord (decide (s.badGrans h (s.chain h ((s.task h t k).chain.getD 0)) o len ≠ 0))
      (s.badGrans h (s.chain h ((s.task h t k).chain.getD 0)) o len)

theorem State.length_frdBytes (s : State) (h : Half) (t : TileIx) (k o len : Nat) : (s.frdBytes h t k o len).length = len + 8 := by
  rw [State.frdBytes, List.length_append, length_zeroGrans, length_padTo, length_statusWord]

theorem State.frdBytes_of_no_bad_cells {s : State} {h : Half} (hb : (s.buf.get h).badCells = []) (t : TileIx) (k o len : Nat) :
    s.frdBytes h t k o len =
      padTo (slice ((s.chain h ((s.task h t k).chain.getD 0)).bytes.take (s.task h t k).length) o len) len ++ statusWord false 0 := by
  simp [State.frdBytes, State.badGrans_of_no_bad_cells hb, zeroGrans]

/-! ### The parts of a request wait for nothing -/

@[simp] theorem State.finishPart_waits (s : State) (h : Half) (q : HbmPart) (d : PartData) : (s.finishPart h q d).waits = s.waits := rfl

theorem State.hbmStop_waits {s u : State} {h : Half} {c : HbmClass} {write : Bool} {a : Nat} (hu : s.hbmStop h c write a = some u) :
    u.waits = s.waits := by
  unfold State.hbmStop at hu
  split at hu
  · obtain rfl := Option.some.inj hu
    exact State.report_waits _ _ _ _
  split at hu
  · obtain rfl := Option.some.inj hu
    rfl
  split at hu
  · obtain rfl := Option.some.inj hu
    exact State.report_waits _ _ _ _
  · cases hu

@[simp] theorem State.queueParts_waits (s : State) (h : Half) (t : TileIx) (resp src : Nat) (write stream : Bool) (a : Nat) (data : List Byte)
    (m : Nat) : (s.queueParts h t resp src write stream a data m).waits = s.waits := by
  refine foldl_waits (fun s p => ?_) _ _
  refine ite_waits ?_ rfl
  rw [State.finishPart_waits]
  cases hstop : s.hbmStop h .pkt write p.1 with
  | none => rfl
  | some v => exact State.hbmStop_waits hstop

/-! ### The bodies -/

section
variable {s : State} {h : Half} {t : TileIx} {n : Fin 128} {c : Fk} {k : Nat} {l : Loc}

/-- The request of HRD or HWR: nothing of it is done. -/
def hbmResponse (write : Bool) (l : Loc) (bytes : List Byte) (a m : Nat) : Response :=
  { Response.of (if write then .hbmWrite else .memory) 0 l bytes with parts := (hbmParts a m).length, ready := false }

theorem frdBody_of_place (hk : k = s.slotOfThread h t n) (hpk : k < svcBase)
    (hl : s.pkPlace h t n (c.g (wA c.w)) (lenTo256 (c.g (wC c.w)) + 8) = .ok l) :
    frdBody h t n s c = if s.dcFull h t k (wDc c.w) then .fail s .stall
      else .next (s.issueReq h t n c (Response.of .memory 0 l (s.frdBytes h t k (c.g (wB c.w)) (lenTo256 (c.g (wC c.w)))))) := by
  subst hk
  unfold frdBody
  dsimp only
  rw [if_neg (Nat.not_le.mpr hpk), hl]
  rfl

section
variable {a m : Nat} (hm : m = hbmLen (c.g (wC c.w))) (ha : a = s.pktHbmBase h + 32 * c.g (wB c.w)) (hlim : a + m ≤ s.pktHbmLimit h)
  (hal : c.g (wA c.w) % 32 = 0) (hk : k = s.slotOfThread h t n) (hd : s.dcFull h t k (wDc c.w) = false)
include hm ha hlim hal hk hd

theorem hbmReqBody_read (hl : s.pkPlace h t n (c.g (wA c.w)) (m + 8) = .ok l) :
    hbmReqBody false h t n s c =
      .next ((s.issueReq h t n c (hbmResponse false l (List.replicate m 0 ++ statusWord false 0) a m)).queueParts h t (s.tile h t).nextId
        (taskSrc t k) false (c.w.testBit 5) a [] m) := by
  subst hm ha hk
  unfold hbmReqBody
  dsimp only
  rw [if_neg (Nat.not_lt.mpr hlim), if_neg (not_not.mpr hal), if_neg Bool.false_ne_true, hl]
  exact if_neg (Bool.eq_false_iff.mp hd)

theorem hbmReqBody_write {d : List Byte} (hdata : s.pkSpan h t n (c.g (wA c.w)) m = .ok d) :
    hbmReqBody true h t n s c =
      .next ((s.issueReq h t n c (hbmResponse true (.ram 0) [] a m)).queueParts h t (s.tile h t).nextId
        (taskSrc t k) true (c.w.testBit 5) a d m) := by
  subst hm ha hk
  unfold hbmReqBody
  dsimp only
  rw [if_neg (Nat.not_lt.mpr hlim), if_neg (not_not.mpr hal), if_pos rfl, hdata]
  exact if_neg (Bool.eq_false_iff.mp hd)

end

/-! ### The counter and the response that is outstanding (R250) -/

theorem Task.dc_setDc_same (x : Task) (j v : Nat) : (x.setDc j v).dc j = v :=
  match j with
  | 0 => rfl
  | 1 => rfl
  | 2 => rfl
  | _ + 3 => rfl

theorem State.tile_issueReq (hw : Tbl.wf (s.tiles.get h) = true) (r : Response) :
    (s.issueReq h t n c r).tile h t =
      { s.tile h t with
        responses := (s.tile h t).responses ++
          [{ r with id := (s.tile h t).nextId, slot := s.slotOfThread h t n, thread := n.val, pc := c.pc, dc := wDc c.w }],
        tasks := tmod Task.init (s.tile h t).tasks (s.slotOfThread h t n) fun x => x.setDc (wDc c.w) (x.dc (wDc c.w) + 1) } := by
  unfold State.issueReq State.dcUp State.updTask
  dsimp only
  rw [State.tile_updTile_same, State.tile_updTile_same _ _ _ _ hw]
  simp only [State.updTile, pair_get_upd_same]
  exact tmod_wf _ _ _ _ hw

theorem State.dc_issueReq (hw : Tbl.wf (s.tiles.get h) = true) (ht : Tbl.wf (s.tile h t).tasks = true) (hk : k = s.slotOfThread h t n)
    (r : Response) : ((s.issueReq h t n c r).task h t k).dc (wDc c.w) = (s.task h t k).dc (wDc c.w) + 1 := by
  unfold State.task
  rw [State.tile_issueReq hw, hk, tget_tmod_same _ _ _ _ ht, Task.dc_setDc_same]

/-! ### MEMORY_RESPONSE (R331) -/

theorem Tile.id_of_response? {x : Tile} {id : Nat} {r : Response} (hr : x.response? id = some r) : r.id = id :=
  of_decide_eq_true (List.find?_some (p := fun r : Response => decide (r.id = id)) hr)

theorem doMemoryResponse_of_ready {id : Nat} {r : Response} (hr : (s.tile h t).response? id = some r)
    (hu : r.unit = .memory ∨ r.unit = .hbmWrite) (hready : r.ready = true) : doMemoryResponse h t id s = s.respond h t r := by
  unfold doMemoryResponse
  rw [hr]
  exact if_pos ⟨hu, hready⟩

end

/-! ### An instruction that issues -/

section
variable {s s1 u : State} {h : Half} {t : TileIx} {n : Fin 128} {w k : Nat} {c : Fk} {l : Loc}
variable (hc : c = callOf s s1 (.pk h t n) w) (hu : u = s1.atIssue (.pk h t n)) (hk : k = u.slotOfThread h t n)
include hc hu hk

section
variable (hi : Issues s .frd (.pk h t n) s1 w) (hpk : k < svcBase)
  (hl : u.pkPlace h t n (c.g (wA w)) (lenTo256 (c.g (wC w)) + 8) = .ok l)
include hi hpk hl

theorem execFkFrd_of_room (hr : pcInRange (.pk h t n) c.nextPc = true) (hd : u.dcFull h t k (wDc w) = false) :
    exec (.fkFrd (.pk h t n)) s = .next
      ((u.issueReq h t n c (Response.of .memory 0 l (u.frdBytes h t k (c.g (wB w)) (lenTo256 (c.g (wC w)))))).fallThrough c) := by
  obtain ⟨_, _, _, hwaits, _⟩ := id hi
  subst hc hu
  have hb := (frdBody_of_place hk hpk hl).trans (if_neg (Bool.eq_false_iff.mp hd))
  exact congrArg Host.Outcome.next (fkRun_next hi hb hr ((State.atIssue_waits _ _).trans hwaits))

theorem execFkFrd_of_full (hd : u.dcFull h t k (wDc w) = true) : exec (.fkFrd (.pk h t n)) s = .next s1 := by
  subst hc hu
  exact congrArg Host.Outcome.next (fkRun_stall hi ((frdBody_of_place hk hpk hl).trans (if_pos hd)))

end

section
variable {a m : Nat} (hr : pcInRange (.pk h t n) c.nextPc = true) (hm : m = hbmLen (c.g (wC w)))
  (ha : a = u.pktHbmBase h + 32 * c.g (wB w)) (hlim : a + m ≤ u.pktHbmLimit h) (hal : c.g (wA w) % 32 = 0)
  (hd : u.dcFull h t k (wDc w) = false)
include hr hm ha hlim hal hd

theorem execFkHrd_of_issues (hi : Issues s .hrd (.pk h t n) s1 w) (hl : u.pkPlace h t n (c.g (wA w)) (m + 8) = .ok l) :
    exec (.fkHrd (.pk h t n)) s = .next
      (((u.issueReq h t n c (hbmResponse false l (List.replicate m 0 ++ statusWord false 0) a m)).queueParts h t (u.tile h t).nextId
        (taskSrc t k) false (w.testBit 5) a [] m).fallThrough c) := by
  obtain ⟨_, _, _, hwaits, _⟩ := id hi
  subst hc hu
  exact congrArg Host.Outcome.next (fkRun_next hi (hbmReqBody_read hm ha hlim hal hk hd hl) hr
    ((State.queueParts_waits _ _ _ _ _ _ _ _ _ _).trans ((State.atIssue_waits _ _).trans hwaits)))

theorem execFkHwr_of_issues {d : List Byte} (hi : Issues s .hwr (.pk h t n) s1 w) (hdata : u.pkSpan h t n (c.g (wA w)) m = .ok d) :
    exec (.fkHwr (.pk h t n)) s = .next
      (((u.issueReq h t n c (hbmResponse true (.ram 0) [] a m)).queueParts h t (u.tile h t).nextId
        (taskSrc t k) true (w.testBit 5) a d m).fallThrough c) := by
  obtain ⟨_, _, _, hwaits, _⟩ := id hi
  subst hc hu
  exact congrArg Host.Outcome.next (fkRun_next hi (hbmReqBody_write hm ha hlim hal hk hd hdata) hr
    ((State.queueParts_waits _ _ _ _ _ _ _ _ _ _).trans ((State.atIssue_waits _ _).trans hwaits)))

end

end

end Sys2Proof.Machine

/-- Settles O38: FRD answers `frdBytes`, HRD and HWR queue the parts of `hbmResponse`, `issueReq` raises the counter, and MEMORY_RESPONSE is
`respond`. -/
theorem memoryRequests : Obligations.MemoryRequests := by
  unfold Obligations.MemoryRequests
  refine ⟨fun s s1 u h t n w k c l hc hu hk hr => ⟨fun hi hpk hl => ?_, fun e he hi m a hm ha hlim hal hd d hread hwrite => ?_⟩,
    fun s h t n c r k hw ht hk => ?_, fun s h t id r hr hunit hready => ?_⟩
  · refine ⟨fun hd => ⟨_, execFkFrd_of_room hc hu hk hi hpk hl hr hd, rfl, rfl, rfl, ?_, fun hb => ?_⟩,
      execFkFrd_of_full hc hu hk hi hpk hl⟩
    · exact State.length_frdBytes _ _ _ _ _ _
    · exact State.frdBytes_of_no_bad_cells hb _ _ _ _
  · rcases List.mem_pair.mp he with rfl | rfl
    · obtain ⟨hl, rfl⟩ := hread rfl
      exact ⟨_, execFkHrd_of_issues hc hu hk hr hm ha hlim hal hd hi hl, rfl, rfl, fun _ => ⟨rfl, rfl⟩, nofun⟩
    · exact ⟨_, execFkHwr_of_issues hc hu hk hr hm ha hlim hal hd hi (hwrite rfl), rfl, rfl, nofun, fun _ => ⟨rfl, rfl⟩⟩
  · refine ⟨State.dc_issueReq hw ht hk r, ?_⟩
    rw [State.tile_issueReq hw, hk]
  · obtain rfl := Tile.id_of_response? hr
    exact congrArg Host.Outcome.next (doMemoryResponse_of_ready hr hunit hready)
end

section
open Sys2Proof Sys2Proof.Machine

/-! ## How an instruction of a thread retires -/

namespace Sys2Proof.Machine

/-! ### The state in which an issued instruction acts -/

theorem State.wakeCore_frame (s : State) (th : ThreadRef) : ∃ units, s.wakeCore th = { s with units := units } := by
  unfold State.wakeCore
  split
  · exact ⟨_, rfl⟩
  · exact ⟨s.units, rfl⟩

theorem State.bumpCore_frame (s : State) (th : ThreadRef) (off : Nat) : ∃ csr, s.bumpCore th off = { s with csr := csr } := by
  cases th with
  | pk h t n => exact ⟨_, rfl⟩
  | cc h n => exact ⟨s.csr, rfl⟩

/-- The issue slot, its counters and the power state of the core are all that a grant changes (R361, R638). -/
theorem State.atIssue_frame (s : State) (th : ThreadRef) :
    ∃ csr units slots, s.atIssue th = { s with csr := csr, units := units, slots := slots } := by
  obtain ⟨units, hwake⟩ := s.wakeCore_frame th
  obtain ⟨csr1, hcount⟩ := (s.wakeCore th).bumpCore_frame th R.core_ISSUED_SLOTS
  obtain ⟨csr2, hstarve⟩ := ((s.wakeCore th).bumpCore th R.core_ISSUED_SLOTS).bumpCore_frame th R.core_STARVE_GRANTS
  unfold State.atIssue State.grant
  dsimp only
  split
  · rw [hstarve, hcount, hwake]
    exact ⟨csr2, units, _, rfl⟩
  · rw [hcount, hwake]
    exact ⟨csr1, units, _, rfl⟩

/-- The control cores have no counters of slots. -/
theorem State.atIssue_frame_cc (s : State) (h : Half) (n : Fin 32) :
    ∃ units slots, s.atIssue (.cc h n) = { s with units := units, slots := slots } := by
  obtain ⟨units, hwake⟩ := s.wakeCore_frame (.cc h n)
  unfold State.atIssue State.grant State.bumpCore
  dsimp only
  rw [ite_self, hwake]
  exact ⟨units, _, rfl⟩

@[simp] theorem State.atIssue_tiles (s : State) (th : ThreadRef) : (s.atIssue th).tiles = s.tiles := by
  obtain ⟨_, _, _, hframe⟩ := s.atIssue_frame th
  rw [hframe]

@[simp] theorem State.atIssue_cc (s : State) (th : ThreadRef) : (s.atIssue th).cc = s.cc := by
  obtain ⟨_, _, _, hframe⟩ := s.atIssue_frame th
  rw [hframe]

@[simp] theorem State.atIssue_time (s : State) (th : ThreadRef) : (s.atIssue th).time = s.time := by
  obtain ⟨_, _, _, hframe⟩ := s.atIssue_frame th
  rw [hframe]

@[simp] theorem State.atIssue_thread (s : State) (th u : ThreadRef) : (s.atIssue th).thread u = s.thread u := by
  cases u <;> simp only [State.thread, State.tile, State.atIssue_tiles, State.atIssue_cc]

@[simp] theorem State.atIssue_threadWf (s : State) (th u : ThreadRef) : (s.atIssue th).threadWf u = s.threadWf u := by
  cases u <;> simp only [State.threadWf, State.atIssue_thread, State.tile, State.atIssue_tiles, State.atIssue_cc]

/-! ### What a retired instruction leaves -/

@[simp] theorem Thread.setG_a (x : Thread) (r : Nat) (v : DWord) : (x.setG r v).a = x.a := by
  unfold Thread.setG
  split <;> rfl

/-- A write of gd leaves the rest of the thread. -/
theorem Thread.retired_of_setG (x : Thread) (r : Nat) (v : DWord) (fl : Word) (pc : BitVec 48) :
    { x.setG r v with flags := (x.setG r v).flags ||| fl, pc := pc } = { x with g := (x.setG r v).g, flags := x.flags ||| fl, pc := pc } := by
  unfold Thread.setG
  split <;> rfl

section
variable {s : State} {th : ThreadRef}

/-- A thread whose registers were changed, with sticky flags set and its PC at the next instruction. -/
theorem State.thread_retired (hw : s.threadWf th = true) (f : Thread → Thread) (hg : Tbl.wf (f (s.thread th)).g = true)
    (ha : Tbl.wf (f (s.thread th)).a = true) (fl : Word) {c : Fk} (hc : c.th = th) :
    (((s.updThread th f).stick th fl).fallThrough c).thread th =
      { f (s.thread th) with flags := (f (s.thread th)).flags ||| fl, pc := BitVec.ofNat 48 c.nextPc } := by
  have hw1 := State.threadWf_updThread s th f hw hg ha
  have ht1 := State.thread_updThread_same s th f hw
  have ht2 := State.thread_updThread_same (s.updThread th f) th (fun x => { x with flags := x.flags ||| fl }) hw1
  have hw2 := State.threadWf_updThread (s.updThread th f) th (fun x => { x with flags := x.flags ||| fl }) hw1
    (by rw [ht1]; exact hg) (by rw [ht1]; exact ha)
  subst hc
  refine (State.thread_updThread_same _ _ _ hw2).trans ?_
  rw [ht2, ht1]

/-- A packet thread that retires changes the tiles of its own half. -/
theorem State.retired_frame_pk (s : State) (h : Half) (i : TileIx) (n : Fin 128) (f : Thread → Thread) (fl : Word) {c : Fk}
    (hc : c.th = .pk h i n) {t : State} (ht : t = (((s.atIssue (.pk h i n)).updThread (.pk h i n) f).stick (.pk h i n) fl).fallThrough c) :
    t = { s with csr := t.csr, units := t.units, slots := t.slots, tiles := t.tiles } ∧ t.tiles.get (other h) = s.tiles.get (other h) := by
  obtain ⟨csr, units, slots, hframe⟩ := s.atIssue_frame (.pk h i n)
  rw [hframe] at ht
  unfold State.fallThrough State.setPc State.stick at ht
  rw [hc] at ht
  subst ht
  exact ⟨rfl, by simp [State.updThread, State.updTile]⟩

/-- A thread of a control core that retires changes the control cores of its own half. -/
theorem State.retired_frame_cc (s : State) (h : Half) (n : Fin 32) (f : Thread → Thread) (fl : Word) {c : Fk}
    (hc : c.th = .cc h n) {t : State} (ht : t = (((s.atIssue (.cc h n)).updThread (.cc h n) f).stick (.cc h n) fl).fallThrough c) :
    t = { s with units := t.units, slots := t.slots, cc := t.cc } ∧ t.cc.get (other h) = s.cc.get (other h) := by
  obtain ⟨units, slots, hframe⟩ := s.atIssue_frame_cc h n
  rw [hframe] at ht
  unfold State.fallThrough State.setPc State.stick at ht
  rw [hc] at ht
  subst ht
  exact ⟨rfl, by simp [State.updThread]⟩

end

/-! ### An instruction that issues -/

section
variable {s s1 s3 : State} {op : FkOp} {th : ThreadRef} {w : Nat} {body : State → Fk → FkRes}

theorem Issues.atIssue_waits (hi : Issues s op th s1 w) : (s1.atIssue th).waits = s.waits :=
  have ⟨_, _, _, hwaits, _⟩ := hi
  (State.atIssue_waits _ _).trans hwaits

theorem execFk_next (hi : Issues s op th s1 w) (hr : pcInRange th (callOf s s1 th w).nextPc = true)
    (hb : body (s1.atIssue th) (callOf s s1 th w) = .next s3) (hw : s3.waits = (s1.atIssue th).waits) :
    (.next (s.fkRun op th body) : Out) = .next (s3.fallThrough (callOf s s1 th w)) :=
  congrArg Host.Outcome.next (fkRun_next hi hb hr (hw.trans hi.atIssue_waits))

/-- An instruction that writes gd. -/
theorem execFk_gRes {r : Res} (hi : Issues s op th s1 w) (hr : pcInRange th (callOf s s1 th w).nextPc = true)
    (hb : body (s1.atIssue th) (callOf s s1 th w) = (s1.atIssue th).gRes (callOf s s1 th w) r) :
    (.next (s.fkRun op th body) : Out) =
      .next ((((s1.atIssue th).putG th (wA w) r.val).stick th r.flags).fallThrough (callOf s s1 th w)) :=
  execFk_next hi hr hb (by simp)

end

end Sys2Proof.Machine

/-- Settles O28: the frame is `State.thread_retired` with the frame of the grant, and each instruction is one that writes gd
(`execFk_gRes`). -/
theorem integerInstructionsRetire : Obligations.IntegerInstructionsRetire := by
  unfold Obligations.IntegerInstructionsRetire
  refine ⟨fun s th c d v f hw hc => ?_, fun s s1 th w c hc hr => ?_⟩
  · have hg := State.threadWf_g hw
    have hthread := State.thread_retired ((s.atIssue_threadWf th th).trans hw) (fun x => x.setG d (gWord th v))
      (Thread.setG_wf _ _ _ (by simpa using hg)) (by simpa using State.threadWf_a hw) f hc
    rw [State.atIssue_thread] at hthread
    refine ⟨_, rfl, ?_, fun k hk => ?_, ?_, ?_, ?_⟩
    · exact (congrArg (Thread.getG · d) hthread).trans (Thread.setG_getG_same _ _ _ hg)
    · exact (congrArg (Thread.getG · k) hthread).trans (Thread.setG_getG_ne _ _ _ _ hg hk)
    · refine hthread.trans ?_
      rw [State.putG, hthread]
      exact (s.thread th).retired_of_setG _ _ _ _
    · rintro h i n rfl
      exact State.retired_frame_pk s h i n _ f hc rfl
    · rintro h n rfl
      exact State.retired_frame_cc s h n _ f hc rfl
  · subst hc
    simp only [List.forall_mem_cons, List.not_mem_nil, false_implies, implies_true, and_true]
    refine ⟨?_, ?_, ?_⟩
    · and_intros <;> exact fun hi => ⟨_, rfl, execFk_gRes hi hr rfl⟩
    · and_intros <;> exact fun hi => execFk_gRes (r := .plain _) hi hr rfl
    · and_intros <;> exact fun hi => execFk_gRes hi hr rfl
end

section
open Sys2Proof Sys2Proof.Machine

/-! ## Two's complement and the overflow rule -/

namespace Sys2Proof

/-! ### The two's complement value of a number, and the bits of an integer -/

theorem signed_eq_toInt (w v : Nat) : signed w v = (BitVec.ofNat w v).toInt := by
  rw [BitVec.toInt_eq_toNat_cond, BitVec.toNat_ofNat]
  unfold signed
  cases w with
  | zero => simp [Nat.mod_one]
  | succ n =>
    dsimp only
    rw [Nat.add_sub_cancel]
    have hlt : v % 2 ^ (n + 1) < 2 ^ n ↔ 2 * (v % 2 ^ (n + 1)) < 2 ^ (n + 1) := by omega
    simp only [hlt]

theorem unsigned_eq_toNat (w : Nat) (i : Int) : unsigned w i = (BitVec.ofInt w i).toNat := by
  rw [BitVec.toNat_ofInt]
  rfl

theorem cast_unsigned (w : Nat) (i : Int) : ((unsigned w i : Nat) : Int) = i % (2 : Int) ^ w := by
  have hpos : (0 : Int) < ((2 ^ w : Nat) : Int) := by positivity
  rw [unsigned, Int.toNat_of_nonneg (Int.emod_nonneg _ hpos.ne')]
  push_cast
  rfl

theorem unsigned_natCast (w n : Nat) : unsigned w (n : Int) = n % 2 ^ w := by
  rw [unsigned_eq_toNat, BitVec.ofInt_natCast, BitVec.toNat_ofNat]

theorem unsigned_add_two_pow (w : Nat) (i : Int) : unsigned w (i + (2 : Int) ^ w) = unsigned w i := by
  refine Int.ofNat_inj.mp ?_
  rw [cast_unsigned, cast_unsigned, Int.add_emod_right]

theorem signed_unsigned {w : Nat} {i : Int} (hw : 0 < w) (hlo : -(2 : Int) ^ (w - 1) ≤ i) (hhi : i < (2 : Int) ^ (w - 1)) :
    signed w (unsigned w i) = i := by
  rw [signed_eq_toInt, unsigned_eq_toNat, BitVec.ofNat_toNat, BitVec.setWidth_eq]
  exact BitVec.toInt_ofInt_eq_self hw hlo hhi

namespace Machine

/-! ### The overflow rule (R296) -/

section
variable {w : Nat} {t : Int}

theorem overflow_eq (w : Nat) (sat : Bool) (t : Int) : overflow w sat t =
    if -(2 : Int) ^ (w - 1) ≤ t ∧ t < (2 : Int) ^ (w - 1) then ⟨unsigned w t, 0⟩
    else if sat then ⟨unsigned w (clampInt (-(2 : Int) ^ (w - 1)) ((2 : Int) ^ (w - 1) - 1) t), flSat⟩
    else ⟨unsigned w t, flOv⟩ := by
  unfold overflow
  simp only [Nat.cast_sub Nat.one_le_two_pow, Nat.cast_pow, Nat.cast_ofNat, Nat.cast_one, Int.le_sub_one_iff]

theorem overflow_of_fits (sat : Bool) (hlo : -(2 : Int) ^ (w - 1) ≤ t) (hhi : t < (2 : Int) ^ (w - 1)) :
    overflow w sat t = ⟨unsigned w t, 0⟩ := by
  rw [overflow_eq, if_pos ⟨hlo, hhi⟩]

theorem overflow_wraps (h : (2 : Int) ^ (w - 1) ≤ t ∨ t < -(2 : Int) ^ (w - 1)) : overflow w false t = ⟨unsigned w t, flOv⟩ := by
  rw [overflow_eq, if_neg (by omega), if_neg Bool.false_ne_true]

theorem overflow_clamps_high (hw : 0 < w) (h : (2 : Int) ^ (w - 1) ≤ t) : overflow w true t = ⟨2 ^ (w - 1) - 1, flSat⟩ := by
  have hpos : (0 : Int) < 2 ^ (w - 1) := by positivity
  have hclamp : clampInt (-(2 : Int) ^ (w - 1)) ((2 : Int) ^ (w - 1) - 1) t = ((2 ^ (w - 1) - 1 : Nat) : Int) := by
    rw [clampInt, if_neg (by omega), if_pos (by omega), Nat.cast_sub Nat.one_le_two_pow]
    simp
  have htop : 2 ^ (w - 1) - 1 < 2 ^ w := (Nat.sub_le _ _).trans_lt (Nat.pow_lt_pow_right (by omega) (by omega))
  rw [overflow_eq, if_neg (by omega), if_pos rfl, hclamp, unsigned_natCast, Nat.mod_eq_of_lt htop]

theorem overflow_clamps_low (hw : 0 < w) (h : t < -(2 : Int) ^ (w - 1)) : overflow w true t = ⟨2 ^ (w - 1), flSat⟩ := by
  have hclamp : clampInt (-(2 : Int) ^ (w - 1)) ((2 : Int) ^ (w - 1) - 1) t = -(2 : Int) ^ (w - 1) := if_pos h
  have hbottom : unsigned w (-(2 : Int) ^ (w - 1)) = 2 ^ (w - 1) := by
    have htwice : (2 : Int) ^ w = 2 ^ (w - 1) + 2 ^ (w - 1) := by
      obtain ⟨n, rfl⟩ := Nat.exists_eq_succ_of_ne_zero hw.ne'
      rw [Nat.succ_sub_one, pow_succ]
      omega
    have hshift : -(2 : Int) ^ (w - 1) + 2 ^ w = ((2 ^ (w - 1) : Nat) : Int) := by push_cast; omega
    have hlt : 2 ^ (w - 1) < 2 ^ w := Nat.pow_lt_pow_right (by omega) (by omega)
    rw [← unsigned_add_two_pow, hshift, unsigned_natCast, Nat.mod_eq_of_lt hlt]
  rw [overflow_eq, if_neg (by omega), if_pos rfl, hclamp, hbottom]

end

/-! ### An instruction that writes an accumulator (R305) -/

section
variable {s s1 : State} {op : FkOp} {th : ThreadRef} {w : Nat} {body : State → Fk → FkRes}

/-- The thread with accumulator `d` written. -/
def Thread.setA (x : Thread) (d v : Nat) : Thread := { x with a := tset 0 x.a d (BitVec.ofNat 40 v) }

/-- An instruction that writes an accumulator and falls through. -/
theorem execFk_aRes {r : Res} (hi : Issues s op th s1 w) (hr : pcInRange th (callOf s s1 th w).nextPc = true)
    (hb : body (s1.atIssue th) (callOf s s1 th w) = (s1.atIssue th).aRes (callOf s s1 th w) r) :
    (.next (s.fkRun op th body) : Out) =
      .next ((((s1.atIssue th).updThread th fun x => x.setA (wAd w) r.val).stick th r.flags).fallThrough (callOf s s1 th w)) :=
  execFk_next hi hr hb (by simp)

/-- What writing an accumulator leaves. -/
theorem State.retired_setA (hw : s1.threadWf th = true) {c : Fk} (hc : c.th = th) (d : Nat) (r : Res) {t : State}
    (ht : t = (((s1.atIssue th).updThread th fun x => x.setA d r.val).stick th r.flags).fallThrough c) :
    tget 0 (t.thread th).a d = BitVec.ofNat 40 r.val ∧ (∀ k, k ≠ d → tget 0 (t.thread th).a k = tget 0 (s1.thread th).a k) ∧
      t.thread th = { s1.thread th with
        a := (t.thread th).a, flags := (s1.thread th).flags ||| r.flags, pc := BitVec.ofNat 48 c.nextPc } ∧
      t = { s1 with csr := t.csr, units := t.units, slots := t.slots, tiles := t.tiles, cc := t.cc } := by
  have ha := State.threadWf_a hw
  have hthread := State.thread_retired ((s1.atIssue_threadWf th th).trans hw) (fun x => x.setA d r.val)
    (by simpa [Thread.setA] using State.threadWf_g hw) (by simpa [Thread.setA] using tset_wf _ _ _ _ ha) r.flags hc
  rw [State.atIssue_thread, ← ht] at hthread
  refine ⟨?_, fun k hk => ?_, ?_, ?_⟩
  · rw [hthread]
    exact tget_tset_same _ _ _ _ ha
  · rw [hthread]
    exact tget_tset_ne _ _ _ _ _ _ ha hk
  · rw [hthread]
    rfl
  · obtain ⟨csr, units, slots, hframe⟩ := s1.atIssue_frame th
    rw [hframe] at ht
    subst ht hc
    cases hth : c.th <;> simp only [State.fallThrough, State.setPc, State.stick, hth] <;> rfl

end

end Machine

end Sys2Proof

/-- Settles O30: each instruction writes an accumulator (`execFk_aRes`, `State.retired_setA`), and the overflow rule is one lemma for each
side of the range. -/
theorem accumulatorInstructionsRetire : Obligations.AccumulatorInstructionsRetire := by
  unfold Obligations.AccumulatorInstructionsRetire
  refine ⟨fun s s1 th w c hc hr hw => ?_, fun w sat t hw => ⟨fun hlo hhi => ?_, fun h => ?_, fun h => ?_, fun h => ?_⟩⟩
  · subst hc
    simp only [List.forall_mem_cons, List.not_mem_nil, false_implies, implies_true, and_true]
    and_intros <;> exact fun hi => ⟨_, execFk_aRes hi hr rfl, State.retired_setA hw rfl _ _ rfl⟩
  · rw [overflow_of_fits sat hlo hhi]
    exact ⟨signed_unsigned hw hlo hhi, rfl⟩
  · rw [overflow_clamps_high hw h]
    exact ⟨rfl, rfl⟩
  · rw [overflow_clamps_low hw h]
    exact ⟨rfl, rfl⟩
  · rw [overflow_wraps h]
    exact ⟨cast_unsigned w t, rfl⟩
end

section
open Sys2Proof Sys2Proof.Machine

/-! ## Division -/

namespace Sys2Proof

/-! ### Words of 32 bits -/

theorem signed32_eq {a : Nat} (ha : a < 2 ^ 32) : signed 32 a = if a < 2147483648 then (a : Int) else a - 4294967296 := by
  unfold signed
  rw [Nat.mod_eq_of_lt ha]
  rfl

theorem signed32_mem (a : Nat) : -2147483648 ≤ signed 32 a ∧ signed 32 a < 2147483648 := by
  rw [signed_eq_toInt]
  exact ⟨BitVec.le_toInt _, BitVec.toInt_lt⟩

theorem signed_unsigned32 {i : Int} (hlo : -2147483648 ≤ i) (hhi : i < 2147483648) : signed 32 (unsigned 32 i) = i :=
  signed_unsigned (by decide) hlo hhi

namespace Machine

/-! ### The edges (R303) -/

theorem divRes_zero (sat : Bool) (a : Nat) :
    divRes 32 sat a 0 = ⟨if 0 ≤ signed 32 a then 2 ^ 31 - 1 else 2 ^ 31, flDz⟩ := rfl

theorem remRes_zero (a : Nat) : remRes 32 a 0 = ⟨a, flDz⟩ := rfl

section
variable {a b : Nat} (ha : a < 2 ^ 32) (hb : b < 2 ^ 32)

include ha in
theorem divRes_zero_of_nonneg (sat : Bool) (h : a < 2 ^ 31) : divRes 32 sat a 0 = ⟨0x7FFFFFFF, flDz⟩ := by
  have hsign : 0 ≤ signed 32 a := by rw [signed32_eq ha]; omega
  rw [divRes_zero, if_pos hsign]
  rfl

include ha in
theorem divRes_zero_of_neg (sat : Bool) (h : 2 ^ 31 ≤ a) : divRes 32 sat a 0 = ⟨0x80000000, flDz⟩ := by
  have hsign : ¬ 0 ≤ signed 32 a := by rw [signed32_eq ha]; omega
  rw [divRes_zero, if_neg hsign]
  rfl

/-! ### Quotient and remainder of other operands -/

variable (h0 : b ≠ 0)
include hb h0

theorem signed32_ne_zero : signed 32 b ≠ 0 := by
  rw [signed32_eq hb]
  split <;> omega

theorem remRes_of_ne_zero (a : Nat) :
    (remRes 32 a b).flags = 0 ∧ signed 32 (remRes 32 a b).val = (signed 32 a).tmod (signed 32 b) := by
  have hy := signed32_ne_zero hb h0
  have hrange := signed32_mem b
  have habs : ((signed 32 a).tmod (signed 32 b)).natAbs < (signed 32 b).natAbs := by
    rw [Int.natAbs_tmod]
    exact Nat.mod_lt _ (Int.natAbs_pos.mpr hy)
  have hres : remRes 32 a b = ⟨unsigned 32 ((signed 32 a).tmod (signed 32 b)), 0⟩ := if_neg hy
  rw [hres]
  exact ⟨rfl, signed_unsigned32 (by omega) (by omega)⟩

include ha

/-- The one quotient that does not fit is that of the least number by −1. -/
theorem tdiv_signed32_mem (hedge : a = 0x80000000 → b ≠ 0xFFFFFFFF) :
    -2147483648 ≤ (signed 32 a).tdiv (signed 32 b) ∧ (signed 32 a).tdiv (signed 32 b) < 2147483648 := by
  have hx := signed32_mem a
  have habs : ((signed 32 a).tdiv (signed 32 b)).natAbs = (signed 32 a).natAbs / (signed 32 b).natAbs := Int.natAbs_tdiv _ _
  have hle : (signed 32 a).natAbs / (signed 32 b).natAbs ≤ (signed 32 a).natAbs := Nat.div_le_self _ _
  by_cases hmin : a = 0x80000000
  · have hxmin : signed 32 a = -2147483648 := by rw [signed32_eq ha]; omega
    have hy : signed 32 b ≠ -1 := by
      rw [signed32_eq hb]
      have := hedge hmin
      split <;> omega
    rcases lt_trichotomy (signed 32 b) 0 with hneg | hzero | hpos
    · have hhalf : (signed 32 a).natAbs / (signed 32 b).natAbs ≤ (signed 32 a).natAbs / 2 := Nat.div_le_div_left (by omega) (by omega)
      omega
    · exact absurd hzero (signed32_ne_zero hb h0)
    · have hnonpos : (signed 32 a).tdiv (signed 32 b) ≤ 0 := by
        rw [hxmin, Int.neg_tdiv]
        exact neg_nonpos.mpr (Int.tdiv_nonneg (by decide) hpos.le)
      omega
  · have hxmin : signed 32 a ≠ -2147483648 := by
      rw [signed32_eq ha]
      split <;> omega
    omega

theorem divRes_of_ne_zero (sat : Bool) (hedge : a = 0x80000000 → b ≠ 0xFFFFFFFF) :
    (divRes 32 sat a b).flags = 0 ∧ signed 32 (divRes 32 sat a b).val = (signed 32 a).tdiv (signed 32 b) := by
  obtain ⟨hlo, hhi⟩ := tdiv_signed32_mem ha hb h0 hedge
  have hres : divRes 32 sat a b = overflow 32 sat ((signed 32 a).tdiv (signed 32 b)) := if_neg (signed32_ne_zero hb h0)
  rw [hres, overflow_of_fits sat hlo hhi]
  exact ⟨rfl, signed_unsigned32 hlo hhi⟩

end

/-! ### A division that issues (R303, R314) -/

section
variable {s s1 s3 : State} {op : FkOp} {th : ThreadRef} {w : Nat} {body : State → Fk → FkRes}

/-- An instruction that has its effect and then traps. -/
theorem execFk_after {cause v : Nat} (hi : Issues s op th s1 w)
    (hb : body (s1.atIssue th) (callOf s s1 th w) = .after s3 cause v) (hw : s3.waits = (s1.atIssue th).waits) :
    (.next (s.fkRun op th body) : Out) =
      .next (s3.takeTrap th cause (BitVec.ofNat 64 v) (callOf s s1 th w).nextPc (callOf s s1 th w).pc) :=
  congrArg Host.Outcome.next (fkRun_after hi hb ((State.takeTrap_waits _ _ _ _ _ _).trans (hw.trans hi.atIssue_waits)))

section
variable {r : Res} (hi : Issues s op th s1 w)
  (hres : r = aluRes 32 op (callOf s s1 th w).sat ((callOf s s1 th w).g (wB w)) ((callOf s s1 th w).g (wC w)))
include hi hres

theorem execFk_divBody (hr : pcInRange th (callOf s s1 th w).nextPc = true)
    (hd : (callOf s s1 th w).g (wC w) ≠ 0 ∨ modeDz (callOf s s1 th w).x.mode = false) :
    (.next (s.fkRun op th (divBody op)) : Out) =
      .next ((((s1.atIssue th).putG th (wA w) r.val).stick th r.flags).fallThrough (callOf s s1 th w)) := by
  have hno : ¬ ((callOf s s1 th w).g (wC w) = 0 ∧ modeDz (callOf s s1 th w).x.mode = true) := by
    rintro ⟨hzero, htrap⟩
    rw [htrap] at hd
    exact hd.elim (absurd hzero) nofun
  subst hres
  exact execFk_gRes hi hr (if_neg hno)

theorem execFk_divBody_trap (hzero : (callOf s s1 th w).g (wC w) = 0) (htrap : modeDz (callOf s s1 th w).x.mode = true) :
    (.next (s.fkRun op th (divBody op)) : Out) =
      .next ((((s1.atIssue th).putG th (wA w) r.val).stick th r.flags).takeTrap th cDivZero
        (BitVec.ofNat 64 ((callOf s s1 th w).g (wB w))) (callOf s s1 th w).nextPc (callOf s s1 th w).pc) := by
  subst hres
  exact execFk_after hi (if_pos ⟨hzero, htrap⟩) (by simp [callOf])

end

end

end Machine

end Sys2Proof

/-- Settles O31: the edges are the cases of the quotient and the remainder, and each instruction is `divBody`. -/
theorem divisionEdges : Obligations.DivisionEdges := by
  unfold Obligations.DivisionEdges
  refine ⟨fun sat a ha => ⟨divRes_zero_of_nonneg ha sat, divRes_zero_of_neg ha sat, rfl, remRes_zero a, rfl⟩,
    ⟨by decide, by decide, by decide⟩, fun sat a b ha hb h0 hedge => ?_, fun s s1 th w c r hc => ?_⟩
  · obtain ⟨hqf, hq⟩ := divRes_of_ne_zero ha hb h0 sat hedge
    obtain ⟨hrf, hr⟩ := remRes_of_ne_zero hb h0 a
    exact ⟨hqf, hq, hrf, hr, if_neg h0, if_neg h0⟩
  · subst hc
    simp only [List.forall_mem_cons, List.not_mem_nil, false_implies, implies_true, and_true]
    and_intros <;> exact fun hi hres => ⟨fun hr hd => execFk_divBody hi hres hr hd, fun hz ht => execFk_divBody_trap hi hres hz ht⟩
end

section
open Sys2Proof Sys2Proof.Machine

/-! ## The results of the integer instructions -/

namespace Sys2Proof

/-! ### Differences modulo 2^w -/

theorem unsigned_congr {w : Nat} {i j : Int} (h : i ≡ j [ZMOD (2 : Int) ^ w]) : unsigned w i = unsigned w j := by
  refine Int.ofNat_inj.mp ?_
  rw [cast_unsigned, cast_unsigned]
  exact h

theorem signed_modEq (w v : Nat) : signed w v ≡ v [ZMOD (2 : Int) ^ w] := by
  have hv : (v : Int) % 2 ^ w = ((v % 2 ^ w : Nat) : Int) := by push_cast; rfl
  unfold signed Int.ModEq
  dsimp only
  split
  · rw [hv, ← hv, Int.emod_emod]
  · push_cast
    rw [Int.sub_emod_right, Int.emod_emod]

theorem unsigned_sub {w b : Nat} (a : Nat) (hb : b ≤ 2 ^ w) : unsigned w ((a : Int) - b) = (a + 2 ^ w - b) % 2 ^ w := by
  have hcast : (a : Int) - b + 2 ^ w = ((a + 2 ^ w - b : Nat) : Int) := by
    rw [Nat.cast_sub (by omega)]
    push_cast
    ring
  rw [← unsigned_add_two_pow, hcast, unsigned_natCast]

/-! ### Bits -/

theorem testBit_bits (v lsb len i : Nat) : (bits v lsb len).testBit i = (decide (i < len) && v.testBit (lsb + i)) := by
  simp only [bits, Nat.testBit_mod_two_pow, Nat.testBit_shiftRight]

theorem testBit_complement {w x : Nat} (hx : x < 2 ^ w) (i : Nat) : (2 ^ w - 1 - x).testBit i = (decide (i < w) && !x.testBit i) := by
  rw [Nat.sub_sub, Nat.add_comm 1 x, Nat.testBit_two_pow_sub_succ hx]

namespace Machine

/-! ### The position of the first set bit -/

theorem clzFrom_zero (n : Nat) : clzFrom 0 n = n := by
  induction n with
  | zero => rfl
  | succ n ih => rw [clzFrom, Nat.zero_testBit, if_neg Bool.false_ne_true, ih, Nat.add_comm]

/-- Shifted left by its leading zeros a number begins with a one. -/
theorem clzFrom_normalizes {v n : Nat} (h0 : v ≠ 0) (hv : v < 2 ^ (n + 1)) :
    2 ^ n ≤ v * 2 ^ clzFrom v (n + 1) ∧ v * 2 ^ clzFrom v (n + 1) < 2 ^ (n + 1) := by
  induction n with
  | zero =>
    obtain rfl : v = 1 := by omega
    decide
  | succ n ih =>
    rw [clzFrom]
    cases htop : v.testBit (n + 1) with
    | true =>
      rw [if_pos rfl, pow_zero, mul_one]
      exact ⟨Nat.ge_two_pow_of_testBit htop, hv⟩
    | false =>
      have hlt : v < 2 ^ (n + 1) := by
        by_contra hge
        exact Bool.false_ne_true (htop.symm.trans (Nat.testBit_of_two_pow_le_and_two_pow_add_one_gt (not_lt.mp hge) hv))
      obtain ⟨hlo, hhi⟩ := ih hlt
      have hshift : v * 2 ^ (1 + clzFrom v (n + 1)) = 2 * (v * 2 ^ clzFrom v (n + 1)) := by ring
      rw [if_neg Bool.false_ne_true, hshift]
      omega

/-- The bit where the trailing zeros end is set, and those below it are not. -/
theorem ctzFrom_finds {v j : Nat} (hj : v.testBit j = true) (n i : Nat) (hlo : i ≤ j) (hhi : j < i + n) :
    v.testBit (i + ctzFrom v i n) = true ∧ ∀ k, i ≤ k → k < i + ctzFrom v i n → v.testBit k = false := by
  induction n generalizing i with
  | zero => omega
  | succ n ih =>
    rw [ctzFrom]
    cases hbit : v.testBit i with
    | true =>
      rw [if_pos rfl]
      exact ⟨hbit, fun k hk hlt => by omega⟩
    | false =>
      have hne : i ≠ j := fun he => Bool.false_ne_true (hbit.symm.trans (he ▸ hj))
      obtain ⟨hset, hbelow⟩ := ih (i + 1) (by omega) (by omega)
      rw [if_neg Bool.false_ne_true, ← Nat.add_assoc]
      refine ⟨hset, fun k hk hlt => ?_⟩
      rcases Nat.eq_or_lt_of_le hk with rfl | hk
      · exact hbit
      · exact hbelow k hk hlt

theorem ctzFrom_zero (i n : Nat) : ctzFrom 0 i n = n := by
  induction n generalizing i with
  | zero => rfl
  | succ n ih => rw [ctzFrom, Nat.zero_testBit, if_neg Bool.false_ne_true, ih, Nat.add_comm]

theorem two_pow_dvd_of_testBit {v n : Nat} (h : ∀ k, k < n → v.testBit k = false) : 2 ^ n ∣ v := by
  refine Nat.dvd_of_mod_eq_zero (Nat.eq_of_testBit_eq fun k => ?_)
  rw [Nat.testBit_mod_two_pow, Nat.zero_testBit]
  by_cases hk : k < n
  · rw [h k hk, Bool.and_false]
  · rw [decide_eq_false hk, Bool.false_and]

section
variable {w a : Nat} (ha : a < 2 ^ w)
include ha

theorem testBit_ctz (h0 : a ≠ 0) : a.testBit (ctz w a) = true ∧ 2 ^ ctz w a ∣ a := by
  obtain ⟨j, hj⟩ := Nat.exists_testBit_of_ne_zero h0
  have hjw : j < w := (Nat.pow_lt_pow_iff_right (by decide)).mp ((Nat.ge_two_pow_of_testBit hj).trans_lt ha)
  obtain ⟨hset, hbelow⟩ := ctzFrom_finds hj w 0 (Nat.zero_le _) (by omega)
  rw [Nat.zero_add] at hset hbelow
  rw [ctz, Nat.mod_eq_of_lt ha]
  exact ⟨hset, two_pow_dvd_of_testBit fun k hk => hbelow k (Nat.zero_le _) hk⟩

/-! ### Shifts and rotations (R300) -/

theorem shr_eq_div (n : Nat) : shr w a n = a / 2 ^ n := by
  unfold shr
  split
  · next h => exact (Nat.div_eq_of_lt (ha.trans_le (Nat.pow_le_pow_right (by decide) h))).symm
  · exact Nat.shiftRight_eq_div_pow a n

theorem testBit_rotr {i : Nat} (hi : i < w) (n : Nat) : (rotr w a n).testBit i = a.testBit ((i + n) % w) := by
  have hr : n % w < w := Nat.mod_lt _ (by omega)
  rw [← Nat.add_mod_mod, rotr, Nat.testBit_mod_two_pow, Nat.testBit_or, Nat.testBit_shiftRight, Nat.testBit_shiftLeft,
    decide_eq_true hi, Bool.true_and]
  by_cases hlow : i + n % w < w
  · rw [Nat.mod_eq_of_lt hlow, decide_eq_false (by omega), Bool.false_and, Bool.or_false, Nat.add_comm]
  · have hout : a.testBit (n % w + i) = false :=
      Nat.testBit_lt_two_pow (ha.trans_le (Nat.pow_le_pow_right (by decide) (by omega)))
    have hix : (i + n % w) % w = i - (w - n % w) := by
      rw [Nat.mod_eq_sub_mod (by omega), Nat.mod_eq_of_lt (by omega)]
      omega
    rw [hout, hix, decide_eq_true (by omega), Bool.false_or, Bool.true_and]

end

theorem shl_eq_mod (w a n : Nat) : shl w a n = a * 2 ^ n % 2 ^ w := by
  unfold shl
  split
  · next h => exact (Nat.mod_eq_zero_of_dvd (Dvd.dvd.mul_left (pow_dvd_pow 2 h) a)).symm
  · rw [Nat.shiftLeft_eq]

theorem shl_eq_ite (w a n : Nat) : shl w a n = if n < w then a * 2 ^ n % 2 ^ w else 0 := by
  rw [shl, Nat.shiftLeft_eq, ← ite_not]
  simp only [not_le]

/-- In the wrap mode SLS gives what SLL gives. -/
theorem slsRes_wrap (w a n : Nat) : (slsRes w false a n).val = shl w a n := by
  have hval : (slsRes w false a n).val = unsigned w (signed w a * ((2 ^ n : Nat) : Int)) := by
    unfold slsRes overflow
    dsimp only
    split <;> rfl
  have hcast : (a : Int) * ((2 ^ n : Nat) : Int) = ((a * 2 ^ n : Nat) : Int) := by push_cast; rfl
  rw [hval, unsigned_congr ((signed_modEq w a).mul_right _), hcast, unsigned_natCast, shl_eq_mod]

theorem sar_of_wide {a n : Nat} (ha : a < 2 ^ 32) (hn : 32 ≤ n) : sar 32 a n = if a < 2 ^ 31 then 0 else 2 ^ 32 - 1 := by
  have hshift : sar 32 a n = unsigned 32 (signed 32 a / 4294967296) := by
    unfold sar
    rw [if_pos hn]
    rfl
  rw [hshift]
  by_cases hpos : a < 2 ^ 31
  · have hq : signed 32 a / 4294967296 = 0 := by rw [signed32_eq ha]; omega
    rw [if_pos hpos, hq]
    rfl
  · have hq : signed 32 a / 4294967296 = -1 := by rw [signed32_eq ha]; omega
    rw [if_neg hpos, hq]
    rfl

/-! ### A field inserted and read back (R299) -/

theorem bits_insBits (d v : Nat) {pos len : Nat} (h : pos + len ≤ 32) : bits (insBits d v pos len) pos len = v % 2 ^ len := by
  refine Nat.eq_of_testBit_eq fun i => ?_
  rw [testBit_bits, Nat.testBit_mod_two_pow]
  by_cases hi : i < len
  · have hmask : (((2 ^ len - 1) <<< pos) % 2 ^ 32).testBit (pos + i) = true := by
      rw [Nat.testBit_mod_two_pow, Nat.testBit_shiftLeft, Nat.testBit_two_pow_sub_one, decide_eq_true (by omega),
        decide_eq_true (by omega), decide_eq_true (by omega)]
      rfl
    have hkeep : (2 ^ 32 - 1 - ((2 ^ len - 1) <<< pos) % 2 ^ 32).testBit (pos + i) = false := by
      rw [testBit_complement (Nat.mod_lt _ (by decide)), hmask, Bool.not_true, Bool.and_false]
    have hnew : (((v % 2 ^ len) <<< pos) % 2 ^ 32).testBit (pos + i) = v.testBit i := by
      rw [Nat.testBit_mod_two_pow, Nat.testBit_shiftLeft, Nat.add_sub_cancel_left, Nat.testBit_mod_two_pow, decide_eq_true hi,
        decide_eq_true (by omega), decide_eq_true (by omega)]
      simp only [Bool.true_and]
    rw [insBits, Nat.testBit_or, Nat.testBit_and, hkeep, hnew, Bool.and_false, Bool.false_or]
  · rw [decide_eq_false hi, Bool.false_and, Bool.false_and]

/-! ### ANDN (R297) -/

theorem testBit_andn {w a b i : Nat} (hb : b < 2 ^ w) (hi : i < w) :
    (a &&& (2 ^ w - 1 - b % 2 ^ w)).testBit i = (a.testBit i && !b.testBit i) := by
  rw [Nat.mod_eq_of_lt hb, Nat.testBit_and, testBit_complement hb, decide_eq_true hi, Bool.true_and]

/-! ### The byte order reversed (R297) -/

theorem bswap32 {a : Nat} (ha : a < 2 ^ 32) :
    bswap 32 a = a % 256 * 2 ^ 24 + a / 256 % 256 * 2 ^ 16 + a / 65536 % 256 * 256 + a / 16777216 := by
  simp only [bswap, leBytes, leNat, List.reverse_cons, List.reverse_nil, List.nil_append, List.cons_append, BitVec.toNat_ofNat,
    Nat.mod_mod, Nat.div_div_eq_div_mul, Nat.reduceMul, Nat.reducePow]
  omega

/-! ### Clamped results (R297) -/

theorem clampU_val (w : Nat) (t : Int) : (clampU w t).val = unsigned w (clampInt 0 ((2 ^ w - 1 : Nat) : Int) t) := by
  unfold clampU
  dsimp only
  split
  · next h =>
    rw [clampInt, if_neg (by omega), if_neg (by omega)]
  · rfl

theorem clampS_val (w : Nat) (t : Int) :
    (clampS w t).val = unsigned w (clampInt (-(2 : Int) ^ (w - 1)) ((2 : Int) ^ (w - 1) - 1) t) := by
  rw [clampS, overflow_eq]
  split
  · next h =>
    rw [clampInt, if_neg (by omega), if_neg (by omega)]
  · rfl

theorem clampInt_eq_max_min {lo hi : Int} (h : lo ≤ hi) (t : Int) : clampInt lo hi t = max lo (min hi t) := by
  unfold clampInt
  split
  · omega
  · split <;> omega

theorem clampU32_eq {t : Int} {n : Nat} (h : max 0 (min 4294967295 t) = n) : (clampU 32 t).val = n := by
  have hclamp : clampInt 0 ((2 ^ 32 - 1 : Nat) : Int) t = n := (clampInt_eq_max_min (by decide) t).trans h
  rw [clampU_val, hclamp, unsigned_natCast, Nat.mod_eq_of_lt (by omega)]

theorem signed_clampS32 (t : Int) : signed 32 (clampS 32 t).val = max (-(2 : Int) ^ 31) (min ((2 : Int) ^ 31 - 1) t) := by
  have hclamp := clampInt_eq_max_min (lo := -(2 : Int) ^ 31) (hi := (2 : Int) ^ 31 - 1) (by decide) t
  rw [clampS_val, hclamp]
  exact signed_unsigned32 (by omega) (by omega)

/-- The high half of a signed product fits. -/
theorem signed_mulh (a b : Nat) :
    signed 32 (unsigned 32 (signed 32 a * signed 32 b / ((2 ^ 32 : Nat) : Int))) = signed 32 a * signed 32 b / (2 : Int) ^ 32 := by
  have hx := signed32_mem a
  have hy := signed32_mem b
  have habs : |signed 32 a * signed 32 b| ≤ 2147483648 * 2147483648 := by
    rw [abs_mul]
    exact mul_le_mul (abs_le.mpr (by omega)) (abs_le.mpr (by omega)) (abs_nonneg _) (by decide)
  rw [abs_le] at habs
  exact signed_unsigned32 (by omega) (by omega)

end Machine

end Sys2Proof

/-- Settles O29: each result is one of the lemmas about its function. -/
theorem integerResults : Obligations.IntegerResults := by
  unfold Obligations.IntegerResults
  intro a b sat ha hb
  have hclz : ∀ h0 : a ≠ 0, 2 ^ 31 ≤ a * 2 ^ clz 32 a ∧ a * 2 ^ clz 32 a < 2 ^ 32 := fun h0 => by
    rw [clz, Nat.mod_eq_of_lt ha]
    exact clzFrom_normalizes h0 ha
  refine ⟨?_, ?_, ?_, ?_, ?_, ?_, ?_, ?_, ?_, hclz, clzFrom_zero 32, testBit_ctz ha, ctzFrom_zero 0 32, bswap32 ha, ?_, ?_, ?_, ?_, ?_,
    ?_, rfl, ?_⟩
  · exact unsigned_sub a hb.le
  · exact clampU32_eq (by omega)
  · exact clampU32_eq (by omega)
  · exact (min_def_lt a b).symm
  · exact (max_def_lt a b).symm
  · exact (apply_ite (signed 32) _ a b).trans (min_def_lt _ _).symm
  · exact (apply_ite (signed 32) _ b a).trans (max_def_lt _ _).symm
  · exact signed_clampS32 _
  · exact fun i hi => testBit_andn hb hi
  · exact shl_eq_ite 32 a _
  · exact shr_eq_div ha _
  · exact fun i hi => testBit_rotr ha hi _
  · exact slsRes_wrap 32 a _
  · exact fun hn => sar_of_wide ha hn
  · exact fun d pos len h => bits_insBits d a h
  · exact (signed_mulh a b).symm
end

section
open Sys2Proof Sys2Proof.Machine

/-! ## Condition codes and conditional branches -/

namespace Sys2Proof.Machine

/-! ### The condition codes (R309) -/

theorem getLsbD_seven {i : Nat} (hi : i < 32) : (7 : Word).getLsbD i = decide (i < 3) := by
  revert i
  decide

theorem and_seven_eq_zero_iff (f : Word) : f &&& 7 = 0 ↔ ∀ i < 3, f.getLsbD i = false := by
  constructor
  · intro hzero i hi
    have hand : (f &&& 7).getLsbD i = false := by rw [hzero]; exact BitVec.getLsbD_zero
    rwa [BitVec.getLsbD_and, getLsbD_seven (hi.trans (by decide)), decide_eq_true hi, Bool.and_true] at hand
  · intro hbits
    refine BitVec.eq_of_getLsbD_eq fun i hi => ?_
    rw [BitVec.getLsbD_and, getLsbD_seven hi]
    refine Eq.trans ?_ BitVec.getLsbD_zero.symm
    by_cases hlow : i < 3
    · rw [hbits i hlow, Bool.false_and]
    · rw [decide_eq_false hlow, Bool.and_false]

/-- Value 8 tests the sticky flags. -/
theorem condHolds_sticky (f : Word) : condHolds f 8 = true ↔ f &&& 7 ≠ 0 := by
  have hdef : condHolds f 8 = (f.getLsbD 0 || f.getLsbD 1 || f.getLsbD 2) := rfl
  rw [hdef, ne_eq, and_seven_eq_zero_iff]
  simp only [Nat.forall_lt_succ_right, Nat.not_lt_zero, false_implies, implies_true, true_and, not_and_or, Bool.not_eq_false,
    Bool.or_eq_true]

theorem condHolds_inverse (f : Word) {k : Nat} (hlo : 1 ≤ k) (hhi : k ≤ 7) : condHolds f (8 + k) = !condHolds f k := by
  interval_cases k <;> simp [condHolds, bne]

/-! ### The condition flags (R284, R308) -/

/-- The four condition flags in their bits. -/
theorem getLsbD_condFlags (n z b v : Bool) :
    let x := BitVec.ofNat 32 (b2n n * 128 + b2n z * 64 + b2n b * 32 + b2n v * 16)
    x.getLsbD 7 = n ∧ x.getLsbD 6 = z ∧ x.getLsbD 5 = b ∧ x.getLsbD 4 = v ∧ ∀ i < 32, i < 4 ∨ 8 ≤ i → x.getLsbD i = false := by
  revert n z b v
  decide

theorem getLsbD_condMask {i : Nat} (hi : i < 32) : (0xFFFFFF0F : Word).getLsbD i = decide (i < 4 ∨ 8 ≤ i) := by
  revert i
  decide

section
variable (f : Word) (n z b v : Bool)

theorem getLsbD_setCond {i : Nat} (hi : i < 32) : (setCond f n z b v).getLsbD i =
    (f.getLsbD i && decide (i < 4 ∨ 8 ≤ i) || (BitVec.ofNat 32 (b2n n * 128 + b2n z * 64 + b2n b * 32 + b2n v * 16)).getLsbD i) := by
  rw [setCond, BitVec.getLsbD_or, BitVec.getLsbD_and, getLsbD_condMask hi]

theorem setCond_n : (setCond f n z b v).getLsbD 7 = n := by
  obtain ⟨hbit, -⟩ := getLsbD_condFlags n z b v
  rw [getLsbD_setCond _ _ _ _ _ (by decide), hbit]
  simp

theorem setCond_z : (setCond f n z b v).getLsbD 6 = z := by
  obtain ⟨-, hbit, -⟩ := getLsbD_condFlags n z b v
  rw [getLsbD_setCond _ _ _ _ _ (by decide), hbit]
  simp

theorem setCond_b : (setCond f n z b v).getLsbD 5 = b := by
  obtain ⟨-, -, hbit, -⟩ := getLsbD_condFlags n z b v
  rw [getLsbD_setCond _ _ _ _ _ (by decide), hbit]
  simp

theorem setCond_v : (setCond f n z b v).getLsbD 4 = v := by
  obtain ⟨-, -, -, hbit, -⟩ := getLsbD_condFlags n z b v
  rw [getLsbD_setCond _ _ _ _ _ (by decide), hbit]
  simp

theorem setCond_other {i : Nat} (h : i < 4 ∨ 8 ≤ i) : (setCond f n z b v).getLsbD i = f.getLsbD i := by
  by_cases hi : i < 32
  · obtain ⟨-, -, -, -, hother⟩ := getLsbD_condFlags n z b v
    rw [getLsbD_setCond _ _ _ _ _ hi, hother i hi h, decide_eq_true h, Bool.and_true, Bool.or_false]
  · rw [BitVec.getLsbD_of_ge _ _ (not_lt.mp hi), BitVec.getLsbD_of_ge _ _ (not_lt.mp hi)]

end

/-! ### CMP and TST (R308) -/

section
variable {a b : Nat} (ha : a < 2 ^ 32) (hb : b < 2 ^ 32)

theorem testBit_31 {d : Nat} (hd : d < 2 ^ 32) : d.testBit 31 = decide (2147483648 ≤ d) := by
  rw [Nat.testBit_eq_decide_div_mod_eq]
  exact decide_eq_decide.mpr (by omega)

include hb in
/-- The difference CMP tests, in 32 bits. -/
theorem unsigned_signed_sub (a : Nat) : unsigned 32 (signed 32 a - signed 32 b) = (a + 2 ^ 32 - b) % 2 ^ 32 :=
  (unsigned_congr ((signed_modEq 32 a).sub (signed_modEq 32 b))).trans (unsigned_sub a hb.le)

include hb in
theorem cmpFlags_eq (f : Word) (a : Nat) : cmpFlags 32 f a b =
    setCond f (((a + 2 ^ 32 - b) % 2 ^ 32).testBit 31) (decide ((a + 2 ^ 32 - b) % 2 ^ 32 = 0)) (decide (a % 2 ^ 32 < b % 2 ^ 32))
      (decide (signed 32 a - signed 32 b ≠ signed 32 ((a + 2 ^ 32 - b) % 2 ^ 32))) := by
  rw [← unsigned_signed_sub hb]
  rfl

include ha hb in
/-- N and V differ exactly when a is the less of the two as signed numbers. -/
theorem cmpFlags_lt (f : Word) : condHolds (cmpFlags 32 f a b) 2 = true ↔ signed 32 a < signed 32 b := by
  have hdef (g : Word) : condHolds g 2 = (g.getLsbD 7 != g.getLsbD 4) := rfl
  have hd : (a + 2 ^ 32 - b) % 2 ^ 32 < 2 ^ 32 := Nat.mod_lt _ (by decide)
  rw [hdef, cmpFlags_eq hb, setCond_n, setCond_v, testBit_31 hd, bne_iff_ne, ne_eq, decide_eq_decide, signed32_eq ha, signed32_eq hb,
    signed32_eq hd]
  split <;> split <;> split <;> omega

include ha in
theorem tstFlags_eq (f : Word) (b : Nat) : tstFlags 32 f a b = setCond f ((a &&& b).testBit 31) (decide (a &&& b = 0)) false false := by
  have hlt : (a &&& b) % 2 ^ 32 = a &&& b := Nat.mod_eq_of_lt (Nat.and_le_left.trans_lt ha)
  unfold tstFlags
  rw [hlt]

end

/-! ### Conditional branches (R290, R291, R310) -/

/-- Where a conditional branch goes. -/
def Fk.branchTarget (c : Fk) (taken : Bool) : Int := if taken then (c.pc : Int) + wOff16 c.w else (c.pc : Int) + 4

theorem branchBody_of_hinted {taken : Bool} {c : Fk} (h : taken = wH c.w) (n : Nat) (s : State) :
    branchBody taken n s c = .branch s (c.branchTarget taken) := by
  unfold branchBody Fk.branchTarget
  dsimp only
  rw [if_pos h]

section
variable {s s1 s3 : State} {op : FkOp} {th : ThreadRef} {w : Nat} {body : State → Fk → FkRes}

/-- An instruction that writes the flags. -/
theorem execFk_setFlags {f : Word} (hi : Issues s op th s1 w) (hr : pcInRange th (callOf s s1 th w).nextPc = true)
    (hb : body (s1.atIssue th) (callOf s s1 th w) = .next ((s1.atIssue th).setFlags th f)) :
    (.next (s.fkRun op th body) : Out) = .next (((s1.atIssue th).setFlags th f).fallThrough (callOf s s1 th w)) :=
  execFk_next hi hr hb (State.updThread_waits _ _ _)

section
variable {taken : Bool} {n t : Nat} (hi : Issues s op th s1 w) (ht : t = pcWrap th ((callOf s s1 th w).branchTarget taken))
  (hr : pcInRange th t = true) (hb : body (s1.atIssue th) (callOf s s1 th w) = branchBody taken n (s1.atIssue th) (callOf s s1 th w))
include hi ht hr hb

/-- A conditional branch that goes as its hint says. -/
theorem execFk_branch_hinted (hhint : taken = wH w) : (.next (s.fkRun op th body) : Out) = .next ((s1.atIssue th).setPc th t) := by
  subst ht
  have hbody := hb.trans (branchBody_of_hinted (c := callOf s s1 th w) hhint n (s1.atIssue th))
  exact congrArg Host.Outcome.next (fkRun_branch hi hbody hr hi.atIssue_waits)

end

end

end Sys2Proof.Machine

/-- Settles O32: the codes read the four condition flags (`setCond_n` and its companions), which `cmpFlags_eq` and `tstFlags_eq` give for the
comparisons. -/
theorem conditionCodes : Obligations.ConditionCodes := by
  unfold Obligations.ConditionCodes
  refine ⟨fun f n z b v hn hz hb hv => ?_, fun s s1 th w c hc hr => ?_, fun s s1 th w t c n hc hi hhint ht hr => ?_,
    fun f a b ha hb => ?_⟩
  · subst hn hz hb hv
    exact ⟨rfl, Iff.rfl, bne_iff_ne, (Bool.or_eq_true _ _).to_iff.trans (or_congr_right bne_iff_ne), Iff.rfl, (Bool.or_eq_true _ _).to_iff,
      Iff.rfl, Iff.rfl, condHolds_sticky f, fun k hlo hhi => condHolds_inverse f hlo hhi⟩
  · subst hc
    exact ⟨fun hi => execFk_setFlags hi hr rfl, fun hi => execFk_setFlags hi hr rfl,
      fun hi => execFk_setFlags hi hr rfl, fun hi => execFk_gRes (r := .plain _) hi hr rfl⟩
  · subst hc
    exact execFk_branch_hinted hi ht hr (n := n.val) rfl hhint
  · refine ⟨?_, ?_, ?_, cmpFlags_lt ha hb f, fun i hi => ?_, ?_, ?_, ?_, ?_⟩
    · rw [cmpFlags_eq hb, setCond_z, decide_eq_true_iff]
      omega
    · rw [cmpFlags_eq hb, setCond_b, decide_eq_true_iff, Nat.mod_eq_of_lt ha, Nat.mod_eq_of_lt hb]
    · rw [cmpFlags_eq hb, setCond_n]
    · rw [cmpFlags_eq hb, setCond_other _ _ _ _ _ hi]
    · rw [tstFlags_eq ha, setCond_z, decide_eq_true_iff]
    · rw [tstFlags_eq ha, setCond_n]
    · rw [tstFlags_eq ha, setCond_b]
    · rw [tstFlags_eq ha, setCond_v]
end

section
open Sys2Proof Sys2Proof.Machine

/-! ## Traps -/

namespace Sys2Proof.Machine

/-! ### What a squashed path leaves (R287, R292, R294) -/

/-- From `s` to `u` instructions of thread `n` were squashed: its tile keeps its threads, its core keeps TRAPS_TAKEN, and only registers,
tiles and the count of free values have changed. -/
structure SquashKeeps (h : Half) (t : TileIx) (n : Fin 128) (s u : State) : Prop where
  tiles_wf : Tbl.wf (s.tiles.get h) = true → Tbl.wf (u.tiles.get h) = true
  threads : Tbl.wf (s.tiles.get h) = true → (u.tile h t).threads = (s.tile h t).threads
  csr_wf : Tbl.wf s.csr = true → Tbl.wf u.csr = true
  traps : Tbl.wf s.csr = true → u.reg (ownBlk (coreOf h t n)) R.core_TRAPS_TAKEN = s.reg (ownBlk (coreOf h t n)) R.core_TRAPS_TAKEN
  frame : ∃ csr tiles fresh, u = { s with csr := csr, tiles := tiles, fresh := fresh }

section
variable {h : Half} {t : TileIx} {n : Fin 128}

theorem SquashKeeps.refl (s : State) : SquashKeeps h t n s s := ⟨id, fun _ => rfl, id, fun _ => rfl, s.csr, s.tiles, s.fresh, rfl⟩

theorem SquashKeeps.trans {s u v : State} (hsu : SquashKeeps h t n s u) (huv : SquashKeeps h t n u v) : SquashKeeps h t n s v where
  tiles_wf hw := huv.tiles_wf (hsu.tiles_wf hw)
  threads hw := (huv.threads (hsu.tiles_wf hw)).trans (hsu.threads hw)
  csr_wf hw := huv.csr_wf (hsu.csr_wf hw)
  traps hw := (huv.traps (hsu.csr_wf hw)).trans (hsu.traps hw)
  frame := by
    obtain ⟨_, _, _, rfl⟩ := hsu.frame
    obtain ⟨csr, tiles, fresh, rfl⟩ := huv.frame
    exact ⟨csr, tiles, fresh, rfl⟩

theorem SquashKeeps.used (s : State) : SquashKeeps h t n s s.used :=
  ⟨id, fun _ => rfl, id, fun _ => rfl, s.csr, s.tiles, s.fresh + 1, rfl⟩

theorem SquashKeeps.bumpBy (s : State) {off : Nat} (hoff : R.core_TRAPS_TAKEN ≠ off) (k : Nat) :
    SquashKeeps h t n s (s.bumpBy (ownBlk (coreOf h t n)) off k) where
  tiles_wf := id
  threads _ := rfl
  csr_wf hw := State.bumpBy_wf _ _ _ _ hw
  traps hw := State.reg_setReg_ne _ _ _ _ _ _ hw (by omega)
  frame := ⟨_, s.tiles, s.fresh, rfl⟩

theorem SquashKeeps.updTile (s : State) {f : Tile → Tile} (hf : (f (s.tile h t)).threads = (s.tile h t).threads) :
    SquashKeeps h t n s (s.updTile h t f) where
  tiles_wf hw := by
    simp only [State.updTile, pair_get_upd_same]
    exact tmod_wf _ _ _ _ hw
  threads hw := by rw [State.tile_updTile_same _ _ _ _ hw, hf]
  csr_wf := id
  traps _ := rfl
  frame := ⟨s.csr, _, s.fresh, rfl⟩

theorem SquashKeeps.squashOne (s : State) (w : Nat) (go : Bool) : SquashKeeps h t n s (s.squashOne h t n w go) := by
  have hcounts := (SquashKeeps.bumpBy (h := h) (t := t) (n := n) s (off := R.core_ISSUED_SLOTS) (by decide) (b2n go)).trans
    (SquashKeeps.bumpBy _ (off := R.core_SQUASHED_SLOTS) (by decide) (b2n go))
  unfold State.squashOne
  dsimp only
  split
  · exact hcounts
  · exact hcounts.trans (SquashKeeps.updTile _ rfl)

theorem SquashKeeps.squashPath (s : State) (k a c last conds fuel : Nat) :
    SquashKeeps h t n s (s.squashPath h t n k a c last conds fuel) := by
  induction fuel generalizing s k a c conds with
  | zero => exact SquashKeeps.refl s
  | succ fuel ih =>
    unfold State.squashPath
    dsimp only
    split
    · exact SquashKeeps.refl s
    · split
      · exact SquashKeeps.squashOne s _ _
      · exact (SquashKeeps.squashOne s _ _).trans (ih _ _ _ _ _)

theorem SquashKeeps.thread {s u : State} (hk : SquashKeeps h t n s u) (hw : s.threadWf (.pk h t n) = true) :
    u.thread (.pk h t n) = s.thread (.pk h t n) := by
  obtain ⟨htiles, -⟩ := State.threadWf_tables hw
  unfold State.thread
  dsimp only
  rw [hk.threads htiles]

theorem SquashKeeps.threadWf {s u : State} (hk : SquashKeeps h t n s u) (hw : s.threadWf (.pk h t n) = true) :
    u.threadWf (.pk h t n) = true := by
  obtain ⟨htiles, hthreads⟩ := State.threadWf_tables hw
  have hg := State.threadWf_g hw
  have ha := State.threadWf_a hw
  simp only [State.threadWf, hk.thread hw, hk.threads htiles, hk.tiles_wf htiles, hthreads, hg, ha, Bool.and_self]

end

/-! ### A trap of a packet thread (R314, R315, R317) -/

/-- The state from which a trap of a packet thread goes on: what issued behind it is squashed. -/
def State.behindTrap (s : State) (th : ThreadRef) (cause at0 : Nat) : State :=
  if cause = cPcRange then s else s.squashBehind th at0

/-- A thread that has entered its trap entry `e`. -/
def Thread.trapped (x : Thread) (cause tpc e : Nat) (v : DWord) : Thread :=
  { x with tcause := 0x80000000 ||| BitVec.ofNat 32 (cause % 256), tpc := BitVec.ofNat 32 (bits tpc 2 15 * 4),
           tval := BitVec.ofNat 32 v.toNat, pc := BitVec.ofNat 48 e }

section
variable {s : State} {h : Half} {i : TileIx} {n : Fin 128}

theorem SquashKeeps.behindTrap (s : State) (cause at0 : Nat) : SquashKeeps h i n s (s.behindTrap (.pk h i n) cause at0) := by
  unfold State.behindTrap
  split
  · exact SquashKeeps.refl s
  · exact (SquashKeeps.squashPath s _ _ _ _ _ _).trans (SquashKeeps.used _)

theorem State.takeTrap_of_active (hact : (s.thread (.pk h i n)).tcause.getLsbD 31 = true) (cause tpc at0 : Nat) (v : DWord) :
    s.takeTrap (.pk h i n) cause v tpc at0 = (s.behindTrap (.pk h i n) cause at0).trapDiscard (.pk h i n) cause at0 drDoubleTrap :=
  if_pos hact

section
variable (hact : (s.thread (.pk h i n)).tcause.getLsbD 31 = false)
include hact

theorem State.takeTrap_of_no_entry
    (he : entryAddr ((s.tile h i).entryWord (s.task h i ((s.thread (.pk h i n)).task.getD 0)).bank 256) = none)
    (cause tpc at0 : Nat) (v : DWord) :
    s.takeTrap (.pk h i n) cause v tpc at0 = (s.behindTrap (.pk h i n) cause at0).trapDiscard (.pk h i n) cause at0 drTrapUnhandled := by
  refine (if_neg (Bool.eq_false_iff.mp hact)).trans ?_
  rw [he]
  rfl

variable {e : Nat} (he : entryAddr ((s.tile h i).entryWord (s.task h i ((s.thread (.pk h i n)).task.getD 0)).bank 256) = some e)
include he

theorem State.takeTrap_of_entry (cause tpc at0 : Nat) (v : DWord) :
    s.takeTrap (.pk h i n) cause v tpc at0 =
      ((s.behindTrap (.pk h i n) cause at0).updThread (.pk h i n) fun x => x.trapped cause tpc e v).bumpCore (.pk h i n) R.core_TRAPS_TAKEN := by
  refine (if_neg (Bool.eq_false_iff.mp hact)).trans ?_
  rw [he]
  rfl

theorem State.thread_takeTrap_pk (hw : s.threadWf (.pk h i n) = true) (cause tpc at0 : Nat) (v : DWord) :
    (s.takeTrap (.pk h i n) cause v tpc at0).thread (.pk h i n) = (s.thread (.pk h i n)).trapped cause tpc e v := by
  have hkeeps := SquashKeeps.behindTrap (h := h) (i := i) (n := n) s cause at0
  rw [State.takeTrap_of_entry hact he, State.bumpCore_thread, State.thread_updThread_same _ _ _ (hkeeps.threadWf hw), hkeeps.thread hw]

theorem State.reg_takeTrap_pk (hcsr : Tbl.wf s.csr = true) (cause tpc at0 : Nat) (v : DWord) :
    (s.takeTrap (.pk h i n) cause v tpc at0).reg (ownBlk (coreOf h i n)) R.core_TRAPS_TAKEN =
      s.reg (ownBlk (coreOf h i n)) R.core_TRAPS_TAKEN + 1 := by
  have hkeeps := SquashKeeps.behindTrap (h := h) (i := i) (n := n) s cause at0
  rw [State.takeTrap_of_entry hact he, ← hkeeps.traps hcsr]
  exact State.reg_bump_same _ _ _ (hkeeps.csr_wf hcsr)

theorem State.takeTrap_frame_pk (cause tpc at0 : Nat) (v : DWord) {t : State} (ht : t = s.takeTrap (.pk h i n) cause v tpc at0) :
    t = { s with csr := t.csr, tiles := t.tiles, fresh := t.fresh } := by
  obtain ⟨csr, tiles, fresh, hframe⟩ := (SquashKeeps.behindTrap (h := h) (i := i) (n := n) s cause at0).frame
  rw [State.takeTrap_of_entry hact he, hframe] at ht
  subst ht
  rfl

end

end

/-! ### Entry to supervisor mode (R358) -/

/-- A thread of a control core that has entered supervisor mode. -/
def Thread.supervisor (x : Thread) (cause ret : Nat) (info : DWord) : Thread :=
  { ((((x.setK kKRET (BitVec.ofNat 64 ret)).setK kKCAUSE (BitVec.ofNat 64 (cause % 256))).setK kKINFO info).setK kKSTATE
      (BitVec.ofNat 64 (2 * b2n x.user))) with
    pc := BitVec.ofNat 48 (if 0x80 ≤ cause ∧ cause ≤ 0x82 then x.kreg kKENTRY_XL else x.kreg kKENTRY).toNat }

theorem Thread.rs_setK (x : Thread) (i : Nat) (v : DWord) : (x.setK i v).rs = x.rs := rfl
theorem Thread.g_setK (x : Thread) (i : Nat) (v : DWord) : (x.setK i v).g = x.g := rfl

theorem Thread.rs_supervisor (x : Thread) (cause ret : Nat) (info : DWord) : (x.supervisor cause ret info).rs = x.rs := by
  simp only [Thread.supervisor, Thread.rs_setK]

theorem Thread.g_supervisor (x : Thread) (cause ret : Nat) (info : DWord) : (x.supervisor cause ret info).g = x.g := by
  simp only [Thread.supervisor, Thread.g_setK]

theorem State.thread_takeTrap_cc {s : State} {h : Half} {n : Fin 32} (hw : s.threadWf (.cc h n) = true) (cause tpc at0 : Nat) (v : DWord) :
    (s.takeTrap (.cc h n) cause v tpc at0).thread (.cc h n) = (s.thread (.cc h n)).supervisor cause tpc v :=
  State.thread_updThread_same _ _ _ hw

theorem Thread.setK_wf {x : Thread} (hk : Tbl.wf x.k = true) (i : Nat) (v : DWord) : Tbl.wf (x.setK i v).k = true := tset_wf _ _ _ _ hk

theorem Thread.kreg_setK {x : Thread} (hk : Tbl.wf x.k = true) (i j : Nat) (v : DWord) :
    (x.setK i v).kreg j = if j = i then v else x.kreg j := by
  split
  · next he => subst he; exact tget_tset_same _ _ _ _ hk
  · next hne => exact tget_tset_ne _ _ _ _ _ _ hk hne

section
variable {x : Thread} (hk : Tbl.wf x.k = true) (cause ret : Nat) (info : DWord)
include hk

theorem Thread.kreg_supervisor (i : Nat) :
    (x.supervisor cause ret info).kreg i =
      if i = kKSTATE then BitVec.ofNat 64 (2 * b2n x.user) else if i = kKINFO then info
      else if i = kKCAUSE then BitVec.ofNat 64 (cause % 256) else if i = kKRET then BitVec.ofNat 64 ret else x.kreg i := by
  have hret := Thread.setK_wf hk kKRET (BitVec.ofNat 64 ret)
  have hcause := Thread.setK_wf hret kKCAUSE (BitVec.ofNat 64 (cause % 256))
  have hinfo := Thread.setK_wf hcause kKINFO info
  refine (Thread.kreg_setK hinfo _ _ _).trans ?_
  rw [Thread.kreg_setK hcause, Thread.kreg_setK hret, Thread.kreg_setK hk]

theorem Thread.user_supervisor : (x.supervisor cause ret info).user = false := by
  rw [Thread.user, Thread.kreg_supervisor hk, if_pos rfl]
  cases x.user <;> rfl

end

/-! ### A word that is no instruction (R314) -/

theorem fkRun_illegal {s s1 : State} {op : FkOp} {th : ThreadRef} {w : Nat} (body : State → Fk → FkRes) (hcan : s.canIssue th = true)
    (hfetch : s.fetch th = (s1, .ok w)) (hop : fkDecode (isControl th) w = none) (hwaits : s1.waits = s.waits) (harm : s.armed = []) :
    s.fkRun op th body = (s1.atIssue th).takeTrap th cIllegal (BitVec.ofNat 64 w) (callOf s s1 th w).pc (callOf s s1 th w).pc := by
  have hstep : s.fkStep op th body =
      (s1.atIssue th).takeTrap th cIllegal (BitVec.ofNat 64 w) (callOf s s1 th w).pc (callOf s s1 th w).pc := by
    unfold State.fkStep
    simp only [hcan, if_true, hfetch, hop]
    rfl
  refine (State.orWait_done harm ?_).trans hstep
  rw [hstep, State.takeTrap_waits, State.atIssue_waits, hwaits]

end Sys2Proof.Machine

/-- Settles O35: a packet thread goes on at its trap entry from the state behind the trap (`State.takeTrap_of_entry`), which keeps the thread
and TRAPS_TAKEN (`SquashKeeps`); a control core's thread enters supervisor mode (`Thread.supervisor`). -/
theorem trapsTaken : Obligations.TrapsTaken := by
  unfold Obligations.TrapsTaken
  refine ⟨fun s h i n cause e tpc at0 v hw hcsr hact hcause he => ?_, fun s u h i n cause tpc at0 v hu => ?_,
    fun s h n cause tpc at0 v hw hk hcause => ?_, fun s s1 op th w body hcan hfetch hop hwaits harm => ?_⟩
  · refine ⟨_, rfl, ?_, State.reg_takeTrap_pk hact he hcsr _ _ _ _, State.takeTrap_frame_pk hact he _ _ _ _ rfl⟩
    rw [State.thread_takeTrap_pk hact he hw, Thread.trapped, Nat.mod_eq_of_lt hcause]
  · subst hu
    exact ⟨fun hact => State.takeTrap_of_active hact _ _ _ _, fun hact he => State.takeTrap_of_no_entry hact he _ _ _ _⟩
  · have hthread := State.thread_takeTrap_cc hw cause tpc at0 v
    have hentry : ¬ (0x80 ≤ cause ∧ cause ≤ 0x82) := by omega
    refine ⟨_, rfl, ?_, ?_, ?_, ?_, ?_, rfl⟩
    · rw [hthread, Thread.kreg_supervisor hk]
      rfl
    · rw [hthread, Thread.kreg_supervisor hk, Nat.mod_eq_of_lt (by omega)]
      rfl
    · rw [hthread, Thread.kreg_supervisor hk]
      rfl
    · rw [hthread, Thread.user_supervisor hk]
    · rw [hthread, Thread.supervisor, if_neg hentry]
  · exact fkRun_illegal body hcan hfetch hop hwaits harm
end

section
open Sys2Proof Sys2Proof.Machine

/-! ## The return stack -/

namespace Sys2Proof.Machine

/-! ### An instruction that transfers or traps -/

section
variable {s s1 s3 : State} {op : FkOp} {th : ThreadRef} {w : Nat} {body : State → Fk → FkRes}

section
variable {target : Int} (hi : Issues s op th s1 w) (hb : body (s1.atIssue th) (callOf s s1 th w) = .jump s3 target)
include hi hb

theorem execFk_jump (hr : pcInRange th (pcWrap th target) = true) (hw : s3.waits = (s1.atIssue th).waits) :
    (.next (s.fkRun op th body) : Out) = .next (s3.setPc th (pcWrap th target)) :=
  congrArg Host.Outcome.next (fkRun_jump hi hb hr (hw.trans hi.atIssue_waits))

/-- A transfer out of the range of PC traps and has no effect (R311). -/
theorem execFk_jump_out_of_range (hr : pcInRange th (pcWrap th target) = false) :
    (.next (s.fkRun op th body) : Out) =
      .next ((s1.atIssue th).takeTrap th cPcRange (BitVec.ofNat 64 (pcWrap th target)) (callOf s s1 th w).pc (callOf s s1 th w).pc) := by
  have hfin : (s1.atIssue th).fkFinish (callOf s s1 th w) (.jump s3 target) =
      (s1.atIssue th).takeTrap th cPcRange (BitVec.ofNat 64 (pcWrap th target)) (callOf s s1 th w).pc (callOf s s1 th w).pc :=
    if_neg (Bool.eq_false_iff.mp hr)
  refine congrArg Host.Outcome.next ((fkRun_issues body hi (by rw [hb]; rfl) ?_).trans ?_)
  · rw [hb, hfin, State.takeTrap_waits, hi.atIssue_waits]
  · rw [hb, hfin]

end

/-- An instruction that traps and has no effect. -/
theorem execFk_trap {cause v : Nat} (hi : Issues s op th s1 w)
    (hb : body (s1.atIssue th) (callOf s s1 th w) = .fail (s1.atIssue th) (.trap cause v)) :
    (.next (s.fkRun op th body) : Out) =
      .next ((s1.atIssue th).takeTrap th cause (BitVec.ofNat 64 v) (callOf s s1 th w).pc (callOf s s1 th w).pc) :=
  congrArg Host.Outcome.next (fkRun_fail_trap hi hb)

end

/-! ### Pushes and pops (R312) -/

theorem Fk.rsFull_iff (c : Fk) : c.rsFull = true ↔ 32 ≤ c.x.rs.length := decide_eq_true_iff

@[simp] theorem State.pushRs_waits (s : State) (th : ThreadRef) (a : Nat) : (s.pushRs th a).waits = s.waits := State.updThread_waits _ _ _

theorem Thread.popRs_rs (x : Thread) : x.popRs.rs = x.rs.tail := List.drop_one

theorem Thread.retMode_rs (x : Thread) (th : ThreadRef) : (x.retMode th).rs = x.rs.tail := by
  unfold Thread.retMode
  split <;> exact x.popRs_rs

theorem Thread.setG_rs (x : Thread) (r : Nat) (v : DWord) : (x.setG r v).rs = x.rs := by
  unfold Thread.setG
  split <;> rfl

section
variable {s : State} {th : ThreadRef} (hw : s.threadWf th = true)
include hw

theorem State.rs_pushRs (a : Nat) : ((s.pushRs th a).thread th).rs = rsEntry th a :: (s.thread th).rs :=
  congrArg Thread.rs (State.thread_updThread_same _ _ _ hw)

theorem State.rs_retMode : ((s.updThread th fun x => x.retMode th).thread th).rs = (s.thread th).rs.tail :=
  (congrArg Thread.rs (State.thread_updThread_same _ _ _ hw)).trans (Thread.retMode_rs _ _)

theorem State.rs_popRs (d : Nat) (v : DWord) : ((s.updThread th fun x => x.popRs.setG d v).thread th).rs = (s.thread th).rs.tail :=
  (congrArg Thread.rs (State.thread_updThread_same _ _ _ hw)).trans ((Thread.setG_rs _ _ _).trans (Thread.popRs_rs _))

end

end Sys2Proof.Machine

/-- Settles O33: a push or pop is a transfer or falls through (`execFk_jump`, `execFk_next`), or traps (`execFk_trap`), and a trap leaves the
return stack (`State.thread_takeTrap_pk`, `State.thread_takeTrap_cc`). -/
theorem returnStack : Obligations.ReturnStack := by
  unfold Obligations.ReturnStack
  refine ⟨fun s s1 th w c hc hroom => ?_, fun s s1 th w c hc hfull => ?_, fun s s1 th w c a r hc hrs => ?_, fun s s1 th w c hc hrs => ?_,
    fun s th a hw => ?_, fun s th => rfl, fun s h i n cause e tpc at0 v hw hact he => ?_, fun s h n cause tpc at0 v hw => ?_⟩
  · subst hc
    have hno : ¬ (callOf s s1 th w).rsFull = true := by rw [Fk.rsFull_iff]; omega
    exact ⟨fun hi hr => execFk_jump hi (if_neg hno) hr (State.pushRs_waits _ _ _),
      fun hi hr => execFk_jump hi (if_neg hno) hr (State.pushRs_waits _ _ _),
      fun hi hr => execFk_next hi hr (if_neg hno) (State.pushRs_waits _ _ _)⟩
  · subst hc
    have hyes : (callOf s s1 th w).rsFull = true := (Fk.rsFull_iff _).mpr hfull
    simp only [List.forall_mem_cons, List.not_mem_nil, false_implies, implies_true, and_true]
    and_intros <;> exact fun hi => execFk_trap hi (if_pos hyes)
  · subst hc
    exact ⟨fun hi hr => execFk_jump hi (by rw [hrs]; rfl) hr (State.updThread_waits _ _ _),
      fun hi hr => execFk_next hi hr (by rw [hrs]; rfl) (State.updThread_waits _ _ _)⟩
  · subst hc
    simp only [List.forall_mem_cons, List.not_mem_nil, false_implies, implies_true, and_true]
    exact ⟨fun hi => execFk_trap hi (by rw [hrs]), fun hi => execFk_trap hi (by rw [hrs])⟩
  · refine ⟨State.rs_pushRs hw a, fun e r hrs => ⟨?_, fun d v => ?_⟩⟩
    · rw [State.rs_retMode hw, hrs, List.tail_cons]
    · rw [State.rs_popRs hw, hrs, List.tail_cons]
  · rw [State.thread_takeTrap_pk hact he hw]
    exact ⟨rfl, rfl⟩
  · rw [State.thread_takeTrap_cc hw, Thread.rs_supervisor, Thread.g_supervisor]
    exact ⟨rfl, rfl⟩
end

section
open Sys2Proof Sys2Proof.Machine

/-! ## Transfers and the control instructions -/

namespace Sys2Proof.Machine

/-! ### A branch against its hint (R290, R291) -/

@[simp] theorem State.wrongPath_waits (s : State) (th : ThreadRef) (a : Nat) (hinted : Bool) (n : Nat) :
    (s.wrongPath th a hinted n).waits = s.waits := by
  cases th with
  | pk h t k => exact s.squashPath_waits _ _ _ _ _ _ _ _ _
  | cc h k => rfl

/-- A branch against its hint counts a misprediction and the slots of the hinted path. -/
def State.mispredicted (s : State) (c : Fk) (n : Nat) : State :=
  (s.bumpCore c.th R.core_MISPREDICTS).wrongPath c.th (pcWrap c.th (c.branchTarget (wH c.w))) (wH c.w) n

theorem State.mispredicted_waits (s : State) (c : Fk) (n : Nat) : (s.mispredicted c n).waits = s.waits :=
  (State.wrongPath_waits _ _ _ _ _).trans (State.bumpCore_waits _ _ _)

theorem branchBody_of_missed {taken : Bool} {c : Fk} (h : taken ≠ wH c.w) (n : Nat) (s : State) :
    branchBody taken n s c = .branch (s.mispredicted c n) (c.branchTarget taken) := by
  unfold branchBody State.mispredicted Fk.branchTarget
  dsimp only
  rw [if_neg h]

section
variable {s s1 : State} {op : FkOp} {th : ThreadRef} {w n t : Nat} {body : State → Fk → FkRes} {taken : Bool}
variable (hi : Issues s op th s1 w) (ht : t = pcWrap th ((callOf s s1 th w).branchTarget taken))
  (hr : pcInRange th t = true) (hb : body (s1.atIssue th) (callOf s s1 th w) = branchBody taken n (s1.atIssue th) (callOf s s1 th w))
include hi ht hr hb

theorem execFk_branch_missed (hhint : taken ≠ wH w) :
    (.next (s.fkRun op th body) : Out) = .next (((s1.atIssue th).mispredicted (callOf s s1 th w) n).setPc th t) := by
  subst ht
  have hbody := hb.trans (branchBody_of_missed (c := callOf s s1 th w) hhint n (s1.atIssue th))
  exact congrArg Host.Outcome.next (fkRun_branch hi hbody hr ((State.mispredicted_waits _ _ _).trans hi.atIssue_waits))

/-- A conditional branch goes to its target, whichever way its hint points. -/
theorem execFk_branchBody :
    (taken = wH w → (.next (s.fkRun op th body) : Out) = .next ((s1.atIssue th).setPc th t)) ∧
    (taken ≠ wH w → (.next (s.fkRun op th body) : Out) = .next (((s1.atIssue th).mispredicted (callOf s s1 th w) n).setPc th t)) :=
  ⟨execFk_branch_hinted hi ht hr hb, execFk_branch_missed hi ht hr hb⟩

end

/-! ### Halts and special registers (R284, R362, R377) -/

@[simp] theorem State.haltNow_waits (s : State) (th : ThreadRef) : (s.haltNow th).waits = s.waits := by
  cases th with
  | pk h t n =>
    unfold State.haltNow
    dsimp only
    split <;> rfl
  | cc h n => rfl

/-- What a read of special register `i` leaves: a read of DTS_LO latches DTS [63:32]. -/
def State.srRead (s : State) (th : ThreadRef) (i : Nat) : State :=
  if i = 21 then s.updThread th fun x => { x with dtsLatch := BitVec.ofNat 32 ((s.dts (threadHalf th)).toNat / 2 ^ 32) } else s

theorem State.srRead_of_ne (s : State) (th : ThreadRef) {i : Nat} (h : i ≠ 21) : s.srRead th i = s := if_neg h

theorem State.srRead_dts (s : State) (th : ThreadRef) : s.srRead th 21 =
    s.updThread th fun x => { x with dtsLatch := BitVec.ofNat 32 ((s.dts (threadHalf th)).toNat / 2 ^ 32) } := if_pos rfl

theorem State.srRead_waits (s : State) (th : ThreadRef) (i : Nat) : (s.srRead th i).waits = s.waits :=
  ite_waits (State.updThread_waits _ _ _) rfl

theorem State.sr_dts (s : State) (th : ThreadRef) : s.sr th 21 = (s.dts (threadHalf th)).toNat % 2 ^ 32 := rfl

theorem State.dts_atIssue (s : State) (th : ThreadRef) (h : Half) : (s.atIssue th).dts h = s.dts h := by
  rw [State.dts, State.atIssue_time, State.dts]

theorem execFkMfsr_of_issues {s s1 : State} {th : ThreadRef} {w : Nat} (hi : Issues s .mfsr th s1 w)
    (hr : pcInRange th (callOf s s1 th w).nextPc = true) :
    exec (.fkMfsr th) s = .next ((((s1.atIssue th).srRead th (wImm8 w)).putG th (wA w) ((s1.atIssue th).sr th (wImm8 w))).fallThrough
      (callOf s s1 th w)) :=
  execFk_next hi hr rfl ((State.putG_waits _ _ _ _).trans (State.srRead_waits _ _ _))

end Sys2Proof.Machine

/-- Settles O34: each instruction is a transfer, a branch of `branchBody`, a trap, or falls through, by the lemma for that outcome. -/
theorem transfersAndControl : Obligations.TransfersAndControl := by
  unfold Obligations.TransfersAndControl
  refine ⟨fun s s1 th w c hc => ⟨?_, fun n => ?_⟩, fun s s1 th w c hc hr => ?_, fun s s1 th w c hc => ?_,
    fun x th v => ⟨rfl, rfl, rfl, rfl, rfl, rfl, rfl⟩⟩
  · subst hc
    simp only [List.forall_mem_cons, List.not_mem_nil, false_implies, implies_true, and_true]
    exact ⟨fun hi => ⟨fun hr => execFk_jump hi rfl hr rfl, fun hr => execFk_jump_out_of_range hi rfl hr⟩,
      fun hi => ⟨fun hr => execFk_jump hi rfl hr rfl, fun hr => execFk_jump_out_of_range hi rfl hr⟩⟩
  · subst hc
    simp only [List.forall_mem_cons, List.not_mem_nil, false_implies, implies_true, and_true]
    exact ⟨fun hi t ht hr => execFk_branchBody hi ht hr (n := n.val) rfl, fun hi t ht hr => execFk_branchBody hi ht hr (n := n.val) rfl,
      fun hi t ht hr => execFk_branchBody hi ht hr (n := n.val) rfl⟩
  · subst hc
    refine ⟨fun hi => execFk_next hi hr rfl rfl, fun hi => execFk_next hi hr rfl (State.updThread_waits _ _ _),
      fun hi hatt => execFk_next hi hr (if_pos hatt) (State.haltNow_waits _ _),
      fun hi => execFk_next hi hr rfl (State.updThread_waits _ _ _),
      fun hi hix => ?_, fun hi hix => ?_⟩
    · exact (execFkMfsr_of_issues hi hr).trans (by rw [State.srRead_of_ne _ _ hix])
    · exact (execFkMfsr_of_issues hi hr).trans (by rw [hix, State.srRead_dts, State.sr_dts, State.dts_atIssue])
  · subst hc
    exact ⟨fun hi => execFk_after hi rfl rfl, fun hi hatt => execFk_trap hi (if_neg (Bool.eq_false_iff.mp hatt)),
      fun hi hact hr => execFk_jump hi (if_pos hact) hr (State.updThread_waits _ _ _),
      fun hi hact => execFk_trap hi (if_neg (Bool.eq_false_iff.mp hact))⟩
end

section
open Sys2Proof Sys2Proof.Machine

/-! ## The memories of HBM, of the tiles and of Privet's flash stay canonical

`State.Mems` says of each memory that its addresses rise strictly and that no entry holds what an unlisted address reads as. As for
`State.Regs` and `State.Tabs`, the proof of a composition reads as its definition does: `hs.foo` says that `s.foo` keeps what `hs` says of
`s`. Memories stand in three parts of the state, HBM, the tiles and Privet's part, and an operation changes these by `updHbm`, `updTile` and
`updPv`. The side condition of these says what becomes of the memories in the part. -/

namespace Sys2Proof.Machine

/-! ### HBM (R502–R504) -/

/-- A part of a write enters the queue of its pseudo-channel granule by granule. -/
theorem HbmState.enqueueAll_wf {x : HbmState} {r : HbmReq} {now a : Nat} {bs : List Byte} {gs : List Nat} (hx : x.wf = true) :
    (gs.foldl (fun x g => x.enqueue r now g (granBytes a bs g)) x).wf = true := by
  induction gs generalizing x with
  | nil => exact hx
  | cons g gs ih => exact ih (HbmState.enqueue_wf r now g _ hx (granBytes_wf a bs g).1 (granBytes_wf a bs g).2)

theorem HbmState.drainGrans_wf {x : HbmState} {p : Nat} {l : List WqEntry} (hx : x.wf = true) :
    (l.foldl (fun x e => x.drainGran p e.gran) x).wf = true := by
  induction l generalizing x with
  | nil => exact hx
  | cons e l ih => exact ih (HbmState.drainGran_wf p e.gran hx)

/-- The writes that a read waits for reach the array. -/
theorem HbmState.settleRaw_wf {x : HbmState} {r : HbmReq} {a n : Nat} (hx : x.wf = true) : (x.settleRaw r a n).wf = true := by
  unfold HbmState.settleRaw
  split
  · exact HbmState.drainGrans_wf hx
  · exact hx

/-- The writes that have waited 2 µs reach the array, queue by queue. -/
theorem HbmState.drainOlds_wf {x : HbmState} {now : Nat} {l : Tbl (List WqEntry)} (hx : x.wf = true) :
    (l.foldl (fun y e => y.drainOld e.1 now) x).wf = true := by
  induction l generalizing x with
  | nil => exact hx
  | cons e l ih => exact ih (HbmState.drainOld_wf e.1 now hx)

/-- A queued write that reaches the array, or is lost. -/
theorem HbmState.dropGran_wf {x : HbmState} {keep : Bool} {p g : Nat} (hx : x.wf = true) :
    (if keep then x.drainGran p g else x.setWq p ((tget [] x.wq p).filter fun f => f.gran ≠ g)).wf = true := by
  split
  · exact HbmState.drainGran_wf p g hx
  · exact HbmState.setWq_wf p _ hx fun f hf => HbmState.wf_queue hx p f (List.mem_of_mem_filter hf)

/-! ### The parts of the state -/

/-- The memories of the tiles of a half are in canonical form. -/
def Tiles.memoryWf (ts : Tbl Tile) : Prop := ∀ e ∈ ts, e.2.memoryWf = true

/-- A change of every tile keeps the form that it keeps in each. -/
theorem Tiles.memoryWf_map {ts : Tbl Tile} {g : Nat × Tile → Tile} (hts : Tiles.memoryWf ts)
    (hg : ∀ e : Nat × Tile, e.2.memoryWf = true → (g e).memoryWf = true) : Tiles.memoryWf (ts.map fun e => (e.1, g e)) :=
  map_all (P := fun y : Tile => y.memoryWf = true) hts hg

/-- The memories of a state are in canonical form. -/
structure State.Mems (s : State) : Prop where
  hbm : s.hbm.All fun x => x.wf = true
  tiles : s.tiles.All Tiles.memoryWf
  flash : Memory.wf 0xFF s.pv.flash = true

theorem State.memoryWf_iff {s : State} : s.memoryWf = true ↔ s.Mems := by
  simp only [State.memoryWf, Bool.and_eq_true, List.all_eq_true, and_assoc]
  constructor
  · rintro ⟨hh0, hh1, ht0, ht1, hf⟩
    exact ⟨⟨hh0, hh1⟩, ⟨ht0, ht1⟩, hf⟩
  · rintro ⟨hh, ht, hf⟩
    exact ⟨hh.1, hh.2, ht.1, ht.2, hf⟩

section
variable {s t : State} {α : Type}

/-- Fields beside those that hold the memories may take any values. -/
protected theorem State.Mems.rest
    {csr staged units commits hubs time conf cc slots locks buf ing sched ford exp tab assoc dev ticks fresh waits pending} (hs : s.Mems) :
    State.Mems { s with
      csr := csr, staged := staged, units := units, commits := commits, hubs := hubs, time := time, conf := conf, cc := cc, slots := slots,
      locks := locks, buf := buf, ing := ing, sched := sched, ford := ford, exp := exp, tab := tab, assoc := assoc, dev := dev,
      ticks := ticks, fresh := fresh, waits := waits, pending := pending } :=
  ⟨hs.hbm, hs.tiles, hs.flash⟩

protected theorem State.Mems.withHbm {x} (hs : s.Mems) (hx : Pair.All (fun y => HbmState.wf y = true) x) : State.Mems { s with hbm := x } :=
  ⟨hx, hs.tiles, hs.flash⟩

protected theorem State.Mems.withTiles {x} (hs : s.Mems) (hx : Pair.All Tiles.memoryWf x) : State.Mems { s with tiles := x } :=
  ⟨hs.hbm, hx, hs.flash⟩

protected theorem State.Mems.withFlash {x : PrivetState} (hs : s.Mems) (hx : Memory.wf 0xFF x.flash = true) :
    State.Mems { s with pv := x } :=
  ⟨hs.hbm, hs.tiles, hx⟩

protected theorem State.Mems.withPv {x : PrivetState} (hs : s.Mems) (hx : x.flash = s.pv.flash) : State.Mems { s with pv := x } :=
  hs.withFlash (hx ▸ hs.flash)

protected theorem State.Mems.ite {c : Prop} [Decidable c] (hs : s.Mems) (ht : t.Mems) : (if c then s else t).Mems := by
  split <;> assumption

protected theorem State.Mems.ite_fst {c : Prop} [Decidable c] {p q : State × α} (hp : p.1.Mems) (hq : q.1.Mems) :
    (if c then p else q).1.Mems := by
  split <;> assumption

protected theorem State.Mems.ite_state {c : Prop} [Decidable c] {p q : FkRes} (hp : p.state.Mems) (hq : q.state.Mems) :
    (if c then p else q).state.Mems := by
  split <;> assumption

protected theorem State.Mems.ite_s {c : Prop} [Decidable c] {p q : TblRes} (hp : p.s.Mems) (hq : q.s.Mems) :
    (if c then p else q).s.Mems := by
  split <;> assumption

protected theorem State.Mems.getD {o : Option State} (ho : ∀ {t}, o = some t → t.Mems) (hs : s.Mems) : (o.getD s).Mems := by
  cases o with
  | none => exact hs
  | some t => exact ho rfl

protected theorem State.Mems.ite_some {c : Prop} [Decidable c] {o p : Option State} (ho : o = some t → t.Mems)
    (hp : p = some t → t.Mems) (e : (if c then o else p) = some t) : t.Mems := by
  split at e
  · exact ho e
  · exact hp e

protected theorem State.Mems.of_fst {p : State × α} {x : α} (hp : p.1.Mems) (e : p = (t, x)) : t.Mems := by
  rw [e] at hp; exact hp

protected theorem State.Mems.foldl {f : State → α → State} {l : List α} (hs : s.Mems) (hf : ∀ {t a}, t.Mems → (f t a).Mems) :
    (l.foldl f s).Mems := by
  induction l generalizing s with
  | nil => exact hs
  | cons a r ih => exact ih (hf hs)

protected theorem State.Mems.foldl_fst {β : Type} {f : State × β → α → State} {g : State × β → α → β} {l : List α}
    {p : State × β} (hp : p.1.Mems) (hf : ∀ {p a}, p.1.Mems → (f p a).Mems) : (l.foldl (fun q a => (f q a, g q a)) p).1.Mems := by
  induction l generalizing p with
  | nil => exact hp
  | cons a r ih => exact ih (hf hp)
end

section
variable {s : State}

/-! ### State -/

protected theorem State.Mems.reset : State.reset.Mems := State.memoryWf_iff.mp reset_memoryWf

/-! ### Units -/

protected theorem State.Mems.setReg {b : Blk} {off : Nat} {v : DWord} (hs : s.Mems) : (s.setReg b off v).Mems := hs.rest

protected theorem State.Mems.setStg {b : Blk} {off : Nat} {v : DWord} (hs : s.Mems) : (s.setStg b off v).Mems := hs.rest

protected theorem State.Mems.setRfld {b : Blk} {off lsb len x : Nat} (hs : s.Mems) : (s.setRfld b off lsb len x).Mems := hs.setReg

protected theorem State.Mems.bumpBy {b : Blk} {off n : Nat} (hs : s.Mems) : (s.bumpBy b off n).Mems := hs.setReg

protected theorem State.Mems.bump {b : Blk} {off : Nat} (hs : s.Mems) : (s.bump b off).Mems := hs.bumpBy

protected theorem State.Mems.updUnit {u : UnitId} {f : UnitDyn → UnitDyn} (hs : s.Mems) : (s.updUnit u f).Mems := hs.rest

protected theorem State.Mems.used (hs : s.Mems) : s.used.Mems := hs.rest

/-! ### Records -/

protected theorem State.Mems.updTile {h : Half} {t : TileIx} {f : Tile → Tile} (hs : s.Mems)
    (hf : ∀ x, x.memoryWf = true → (f x).memoryWf = true) : (s.updTile h t f).Mems :=
  hs.withTiles (hs.tiles.upd fun _ hts => tmod_all (P := fun y : Tile => y.memoryWf = true) rfl hts hf)

protected theorem State.Mems.updHub {h : Half} {f : HubState → HubState} (hs : s.Mems) : (s.updHub h f).Mems := hs.rest

protected theorem State.Mems.updThread {th : ThreadRef} {f : Thread → Thread} (hs : s.Mems) : (s.updThread th f).Mems := by
  dsimp only [State.updThread]
  split
  · exact hs.updTile keeps
  · exact hs.rest

protected theorem State.Mems.updCc {h : Half} {f : CcState → CcState} (hs : s.Mems) : State.Mems { s with cc := s.cc.upd h f } := hs.rest

protected theorem State.Mems.raiseInt {th : ThreadRef} {n : Nat} (hs : s.Mems) : (s.raiseInt th n).Mems := hs.updThread

protected theorem State.Mems.notifyHub {h : Half} (hs : s.Mems) : (s.notifyHub h).Mems := .ite hs.raiseInt hs

protected theorem State.Mems.notify {u : UnitId} {code : Nat} {c : FClass} (hs : s.Mems) : (s.notify u code c).Mems := by
  dsimp only [State.notify]
  refine .ite hs ?_
  split
  · exact hs.notifyHub
  · exact .ite hs.notifyHub hs.notifyHub

protected theorem State.Mems.hubRecord {h : Half} {f : Found} {c : FClass} (hs : s.Mems) : (s.hubRecord h f c).Mems := by
  unfold State.hubRecord
  extract_lets x k merge r full det dfull s1 s2 s3
  have h1 : s2.Mems := .ite hs.updHub.bump hs.updHub
  have h2 : s3.Mems := .ite h1.bump h1
  exact .ite h2.bump h2

protected theorem State.Mems.countFault {u : UnitId} (hs : s.Mems) : (s.countFault u).Mems := hs.foldl fun h1 => h1.updUnit

protected theorem State.Mems.openRecord {f : Found} (hs : s.Mems) : (s.openRecord f).Mems := by
  dsimp only [State.openRecord]
  split
  · exact hs
  · exact .notify (.ite (hs.foldl fun h1 => h1.hubRecord) (.countFault (hs.foldl fun h1 => h1.hubRecord)))

protected theorem State.Mems.found {u : UnitId} {code : Nat} {d : DWord} (hs : s.Mems) : (s.found u code d).1.Mems := by
  dsimp only [State.found]
  exact .ite_fst hs.updUnit hs

protected theorem State.Mems.report {u : UnitId} {code d : Nat} (hs : s.Mems) : (s.report u code d).Mems := by
  dsimp only [State.report]
  exact hs.found.openRecord

/-! ### Checkers -/

protected theorem State.Mems.checked {s0 : State} (hs : s.Mems) : (State.checked s0 s).Mems := hs.foldl fun h1 => h1.updUnit

/-! ### Time -/

protected theorem State.Mems.updTime {h : Half} {f : TimeState → TimeState} (hs : s.Mems) : (s.updTime h f).Mems := hs.rest

protected theorem State.Mems.clockTick (hs : s.Mems) : s.clockTick.Mems := by
  unfold State.clockTick
  extract_lets s1 _ s2
  have h1 : s2.Mems := .ite hs.rest.setRfld (.ite hs.rest hs.rest)
  exact .ite h1.rest h1

protected theorem State.Mems.doLoad (hs : s.Mems) : s.doLoad.Mems := .ite hs.setRfld hs.rest

protected theorem State.Mems.doLoadNow (hs : s.Mems) : (doLoadNow s).Mems := .ite hs.doLoad hs

protected theorem State.Mems.doLoadArm (hs : s.Mems) : (doLoadArm s).Mems := .ite hs.rest hs

protected theorem State.Mems.captureEdge (hs : s.Mems) : s.captureEdge.Mems := .setReg (.setReg (.ite hs.rest.doLoad hs))

protected theorem State.Mems.doTsyncIn {rising : Bool} (hs : s.Mems) : (doTsyncIn rising s).Mems := .ite hs.used.rest hs.rest

protected theorem State.Mems.captures (hs : s.Mems) : s.captures.Mems := hs.rest.foldl fun h1 => h1.captureEdge

protected theorem State.Mems.timeTick (hs : s.Mems) : s.timeTick.Mems := hs.clockTick.captures

protected theorem State.Mems.settleTsync (hs : s.Mems) : s.settleTsync.Mems := .ite hs hs.rest

protected theorem State.Mems.doTsyncRise (hs : s.Mems) : (doTsyncRise s).Mems := by
  dsimp only [doTsyncRise]
  split
  · exact .ite (.ite hs.rest hs.rest) hs
  · exact hs

protected theorem State.Mems.doTsyncFall (hs : s.Mems) : (doTsyncFall s).Mems := .ite hs.rest hs

protected theorem State.Mems.doSlewWrite {dir : Bool} {count : Nat} (hs : s.Mems) : (doSlewWrite dir count s).Mems :=
  hs.setRfld.setRfld.rest

protected theorem State.Mems.doPtpSet (hs : s.Mems) : (doPtpSet s).Mems := hs.rest

protected theorem State.Mems.doPtpAdd (hs : s.Mems) : (doPtpAdd s).Mems := hs.rest

protected theorem State.Mems.doPtpSub (hs : s.Mems) : (doPtpSub s).Mems := hs.rest

protected theorem State.Mems.doPtpNsRead (hs : s.Mems) : (doPtpNsRead s).Mems := hs.setReg.setReg

protected theorem State.Mems.doDtsNowRead {a : Agent} {h : Half} (hs : s.Mems) : (doDtsNowRead a h s).Mems := hs.updTime

/-! ### Hbm -/

protected theorem State.Mems.updHbm {h : Half} {f : HbmState → HbmState} (hs : s.Mems)
    (hf : ∀ x, x.wf = true → (f x).wf = true) : (s.updHbm h f).Mems := hs.withHbm (hs.hbm.upd hf)

protected theorem State.Mems.hbmStop {h : Half} {c : HbmClass} {write : Bool} {a : Nat} {t : State} (hs : s.Mems)
    (e : s.hbmStop h c write a = some t) : t.Mems := by
  unfold State.hbmStop at e
  split at e
  · cases e; exact hs.bump.report
  · split at e
    · cases e; exact hs
    · split at e
      · cases e; exact hs.bump.report
      · cases e

protected theorem State.Mems.hbmWritePart {h : Half} {r : HbmReq} {a : Nat} {bs : List Byte} (hs : s.Mems) :
    (s.hbmWritePart h r a bs).1.Mems := by
  dsimp only [State.hbmWritePart]
  split
  · next s' e => exact hs.hbmStop e
  · exact .ite_fst hs (hs.updHbm fun _ hx => HbmState.enqueueAll_wf (keeps _ hx))

protected theorem State.Mems.countRaw {h : Half} {st : Fin 2} {x3 : RawCase} (hs : s.Mems) : (s.countRaw h st x3).Mems := by
  dsimp only [State.countRaw]
  split
  · exact hs
  · exact hs.bump
  · exact hs.bump

protected theorem State.Mems.hbmReadPart {h : Half} {r : HbmReq} {a n : Nat} (hs : s.Mems) : (s.hbmReadPart h r a n).1.Mems := by
  dsimp only [State.hbmReadPart]
  split
  · next s' e => exact hs.hbmStop e
  · exact .ite_fst hs (State.Mems.countRaw (hs.updHbm fun _ _ => HbmState.settleRaw_wf (hs.hbm.get h)))

protected theorem State.Mems.orWait {f : State → State} (hs : s.Mems) (hf : ∀ {t}, t.Mems → (f t).Mems) : (s.orWait f).Mems :=
  .ite (.checked (hf hs)) hs

protected theorem State.Mems.useLinkBad {h : Half} {a : Nat} (hs : s.Mems) : (s.useLinkBad h a).Mems := hs.updHbm keeps

protected theorem State.Mems.hbmUnitRead {h : Half} {r : HbmReq} {a n : Nat} (hs : s.Mems) : (s.hbmUnitRead h r a n).1.Mems := by
  dsimp only [State.hbmUnitRead]
  exact .ite_fst hs.rest (.ite_fst hs.useLinkBad hs.hbmReadPart)

protected theorem State.Mems.hbmUnitWrite {h : Half} {r : HbmReq} {a : Nat} {bs : List Byte} (hs : s.Mems) :
    (s.hbmUnitWrite h r a bs).1.Mems := by
  dsimp only [State.hbmUnitWrite]
  exact .ite_fst hs.rest (.ite_fst hs.useLinkBad hs.hbmWritePart)

protected theorem State.Mems.hbmRead {h : Half} {r : HbmReq} {a n : Nat} (hs : s.Mems) : (s.hbmRead h r a n).1.Mems := by
  dsimp only [State.hbmRead]
  exact .foldl_fst hs fun h1 => h1.hbmUnitRead

protected theorem State.Mems.hbmWrite {h : Half} {r : HbmReq} {a : Nat} {bs : List Byte} (hs : s.Mems) : (s.hbmWrite h r a bs).1.Mems := by
  dsimp only [State.hbmWrite]
  exact .foldl_fst hs fun h1 => h1.hbmUnitWrite

protected theorem State.Mems.hbmPlace {h : Half} {a : Nat} {bs : List Byte} (hs : s.Mems) : (s.hbmPlace h a bs).1.Mems := by
  dsimp only [State.hbmPlace]
  exact .foldl_fst hs fun h1 => h1.hbmWritePart

protected theorem State.Mems.rowFails {h : Half} {k : RowKey} (hs : s.Mems) : (s.rowFails h k).Mems :=
  .ite hs (.ite (hs.updHbm keeps) (.ite (.report (.setRfld (hs.updHbm keeps))) hs.report))

protected theorem State.Mems.granEcc {h : Half} {g : Nat} {e : EccOutcome} (hs : s.Mems) : (s.granEcc h g e).Mems := by
  dsimp only [State.granEcc]
  split
  · exact hs
  · exact hs.bump.report.updHbm keeps
  · exact hs.bump.report.updHbm keeps

protected theorem State.Mems.granFails {h : Half} {g : Nat} {e : EccOutcome} (hs : s.Mems) : (s.granFails h g e).Mems := by
  dsimp only [State.granFails]
  split
  · exact hs
  · exact .ite hs.rowFails hs
  · exact hs.rowFails

protected theorem State.Mems.granEccs {h : Half} {gs : List Nat} {es : List EccOutcome} (hs : s.Mems) : (s.granEccs h gs es).Mems := by
  induction gs generalizing s es with
  | nil => exact hs
  | cons g gs ih =>
    cases es with
    | nil => exact hs
    | cons e es => exact ih hs.granEcc

protected theorem State.Mems.granFailures {h : Half} {gs : List Nat} {es : List EccOutcome} (hs : s.Mems) :
    (s.granFailures h gs es).Mems := by
  induction gs generalizing s es with
  | nil => exact hs
  | cons g gs ih =>
    cases es with
    | nil => exact hs
    | cons e es => exact ih hs.granFails

protected theorem State.Mems.doHbmWriteToArray {h : Half} {p : Nat} (hs : s.Mems) : (doHbmWriteToArray h p s).Mems :=
  .ite (hs.updHbm fun _ => HbmState.drainNext_wf _ _) hs

protected theorem State.Mems.doHbmRefresh {h : Half} {p bank : Nat} (hs : s.Mems) : (doHbmRefresh h p bank s).Mems :=
  .ite hs (.ite (hs.updHbm keeps) (.ite (.bump (hs.updHbm keeps)) (hs.updHbm keeps)))

protected theorem State.Mems.doHbmPowerDown {h : Half} {p : Nat} (hs : s.Mems) : (doHbmPowerDown h p s).Mems :=
  .ite (.bump (hs.updHbm keeps)) hs

protected theorem State.Mems.hbmCycle {h : Half} (hs : s.Mems) : (s.hbmCycle h).Mems := hs.updHbm keeps

protected theorem State.Mems.hbmTick {h : Half} (hs : s.Mems) : (s.hbmTick h).Mems := hs.updHbm fun _ => HbmState.drainOlds_wf

protected theorem State.Mems.scrubNext {h : Half} {st : Fin 2} (hs : s.Mems) : (s.scrubNext h st).Mems :=
  .ite (hs.updHbm keeps) (.bump (hs.updHbm keeps))

protected theorem State.Mems.doHbmScrub {h : Half} {st : Fin 2} {e : EccOutcome} (hs : s.Mems) : (doHbmScrub h st e s).Mems :=
  .ite (.ite hs (.scrubNext (.granFails (.granEcc (hs.updHbm keeps))))) hs

protected theorem State.Mems.doRowRepairDone {h : Half} {k : RowKey} (hs : s.Mems) : (doRowRepairDone h k s).Mems :=
  .ite (.report (.setRfld (hs.updHbm keeps))) hs

protected theorem State.Mems.doStackTemp {h : Half} {st : Fin 2} {temp : Nat} (hs : s.Mems) : (doStackTemp h st temp s).Mems :=
  .ite (.ite hs.setRfld.setRfld (.report (hs.setRfld.setRfld.updHbm keeps))) (hs.setRfld.setRfld.updHbm keeps)

/-! ### Buffer -/

protected theorem State.Mems.updBuf {h : Half} {f : BufferState → BufferState} (hs : s.Mems) : (s.updBuf h f).Mems := hs.rest

protected theorem State.Mems.updChain {h : Half} {id : Nat} {f : Chain → Chain} (hs : s.Mems) : (s.updChain h id f).Mems := hs.updBuf

protected theorem State.Mems.addChain {h : Half} {c : Chain} {ncells nocells : Nat} (hs : s.Mems) :
    (s.addChain h c ncells nocells).1.Mems := hs.rest

protected theorem State.Mems.growChain {h : Half} {id n : Nat} (hs : s.Mems) : (s.growChain h id n).Mems := hs.rest

protected theorem State.Mems.freeChain {h : Half} {id : Nat} (hs : s.Mems) : (s.freeChain h id).Mems := hs.updBuf

protected theorem State.Mems.release {h : Half} {id : Nat} (hs : s.Mems) : (s.release h id).Mems := by
  dsimp only [State.release]
  split
  · exact hs.used.report
  · exact .ite hs.report (.ite hs.freeChain hs.updChain)

protected theorem State.Mems.moveCharge {h : Half} {id p : Nat} (hs : s.Mems) : (s.moveCharge h id p).1.Mems := by
  dsimp only [State.moveCharge]
  exact .ite_fst hs (.ite_fst hs.updBuf hs)

protected theorem State.Mems.bumpPort {h : Half} {lp k : Nat} (hs : s.Mems) : (s.bumpPort h lp k).Mems := hs.bump

protected theorem State.Mems.setHold {h : Half} {lp : Nat} {p : HoldPhase} (hs : s.Mems) : (s.setHold h lp p).Mems := hs.updBuf

protected theorem State.Mems.setQueue {h : Half} {q : Nat} {l : List QEntry} (hs : s.Mems) : (s.setQueue h q l).Mems := hs.updBuf

protected theorem State.Mems.setSpill {h : Half} {q : Nat} {l : List SpillEntry} (hs : s.Mems) : (s.setSpill h q l).Mems := hs.updBuf

protected theorem State.Mems.pointerFault {h : Half} {id : Nat} (hs : s.Mems) : (s.pointerFault h id).Mems := by
  dsimp only [State.pointerFault]
  split
  · exact hs.report
  · exact hs

protected theorem State.Mems.errorDrop {h g : Half} {lp id : Nat} (hs : s.Mems) : (s.errorDrop h g lp id).Mems :=
  hs.pointerFault.bumpPort.release

/-! ### Sched -/

protected theorem State.Mems.updIng {h : Half} {f : IngressState → IngressState} (hs : s.Mems) : (s.updIng h f).Mems := hs.rest

protected theorem State.Mems.updSched {h : Half} {f : SchedState → SchedState} (hs : s.Mems) : (s.updSched h f).Mems := hs.rest

protected theorem State.Mems.setBucket {h : Half} {l : Lvl} {i : Nat} {b : Bucket} (hs : s.Mems) : (s.setBucket h l i b).Mems :=
  hs.updSched

protected theorem State.Mems.chargeNode {h : Half} {l : Lvl} {i : Nat} {lc : Int} (hs : s.Mems) : (s.chargeNode h l i lc).Mems :=
  hs.setBucket

protected theorem State.Mems.refreshQueue {was : List Nat} {h : Half} {q : Nat} (hs : s.Mems) : (State.refreshQueue was h s q).Mems := by
  unfold State.refreshQueue
  extract_lets v s1 e had
  have h1 : s1.Mems := .ite hs.updSched hs
  exact .ite h1.updSched (.ite h1.updSched h1)

protected theorem State.Mems.refreshClass {was : List Nat} {h : Half} {k : Nat} (hs : s.Mems) : (State.refreshClass was h s k).Mems := by
  unfold State.refreshClass
  extract_lets v now hadSome s1 e had
  have h1 : s1.Mems := .ite hs.updSched hs
  exact .ite h1.updSched (.ite h1.updSched h1)

protected theorem State.Mems.schedRefresh {h : Half} {lp : Nat} {was : List Nat} (hs : s.Mems) : (s.schedRefresh h lp was).Mems :=
  .foldl (hs.foldl fun h1 => h1.refreshQueue) fun h1 => h1.refreshClass

protected theorem State.Mems.withSched {h : Half} {lp : Nat} {f : State → State} (hs : s.Mems) (hf : ∀ {t}, t.Mems → (f t).Mems) :
    (s.withSched h lp f).Mems := by
  unfold State.withSched
  exact .schedRefresh (hf hs)

protected theorem State.Mems.setSels {h : Half} {lp : Nat} {l : List Sel} (hs : s.Mems) : (s.setSels h lp l).Mems := hs.updSched

protected theorem State.Mems.selectTags {h : Half} {q lc : Nat} (hs : s.Mems) : (s.selectTags h q lc).Mems := by
  unfold State.selectTags
  exact hs.updSched.chargeNode.chargeNode.chargeNode

protected theorem State.Mems.withdrawQueue {h : Half} {q : Nat} (hs : s.Mems) : (s.withdrawQueue h q).Mems := by
  dsimp only [State.withdrawQueue]
  split
  · exact hs
  · exact .bumpBy (hs.setSels.setQueue.updSched.foldl fun h1 => h1.chargeNode.chargeNode.chargeNode)

protected theorem State.Mems.withdraw {h : Half} {lp p : Nat} (hs : s.Mems) : (s.withdraw h lp p).Mems :=
  hs.foldl fun h1 => h1.withdrawQueue

protected theorem State.Mems.loseSelected {h : Half} {lp : Nat} (hs : s.Mems) : (s.loseSelected h lp).Mems :=
  .setSels (hs.foldl fun h1 => .ite h1.bumpPort h1.bumpPort.release)

/-! ### Versions -/

protected theorem State.Mems.updTab {h : Half} {f : TableState → TableState} (hs : s.Mems) : (s.updTab h f).Mems := hs.rest

protected theorem State.Mems.updSlot {h : Half} {b : Nat} {f : BatchSlot → BatchSlot} (hs : s.Mems) : (s.updSlot h b f).Mems := hs.updTab

protected theorem State.Mems.dropTouch {h : Half} {b : Nat} {t : Touch} (hs : s.Mems) : (s.dropTouch h b t).Mems := hs.updSlot

protected theorem State.Mems.setMeter {h : Half} {i : Nat} {m : Meter} (hs : s.Mems) : (s.setMeter h i m).Mems := hs.updTab

protected theorem State.Mems.chargeMeter {h : Half} {i bytes st pre : Nat} (hs : s.Mems) : (s.chargeMeter h i bytes st pre).1.Mems := by
  dsimp only [State.chargeMeter]
  exact hs.setMeter

protected theorem State.Mems.fillMeter {h : Half} {i st : Nat} (hs : s.Mems) : (s.fillMeter h i st).Mems := hs.setMeter.updTab

/-! ### Exact -/

protected theorem State.Mems.setEx {h : Half} {i : Nat} {e : ExEntry} (hs : s.Mems) : (s.setEx h i e).Mems := hs.updTab

protected theorem State.Mems.dropEx {h : Half} {i : Nat} (hs : s.Mems) : (s.dropEx h i).Mems := hs.updTab

protected theorem State.Mems.exSlot {h : Half} {tid key : Nat} (hs : s.Mems) : (s.exSlot h tid key).1.Mems := by
  dsimp only [State.exSlot]
  split
  · exact hs.rest
  · split <;> exact hs.rest

protected theorem State.Mems.refreshEx {h : Half} {i : Nat} {e : ExEntry} (hs : s.Mems) : (s.refreshEx h i e).Mems := .ite hs hs.setEx

/-! ### Locks -/

protected theorem State.Mems.bumpCore {th : ThreadRef} {off : Nat} (hs : s.Mems) : (s.bumpCore th off).Mems := by
  dsimp only [State.bumpCore]
  split
  · exact hs.bump
  · exact hs

protected theorem State.Mems.updTask {h : Half} {t : TileIx} {k : Nat} {f : Task → Task} (hs : s.Mems) : (s.updTask h t k f).Mems :=
  hs.updTile keeps

protected theorem State.Mems.setLock {hm : Half} {num : Nat} {l : LockState} (hs : s.Mems) : (s.setLock hm num l).Mems := hs.rest

protected theorem State.Mems.raiseParty {p : LockParty} {q : Nat} (hs : s.Mems) : (s.raiseParty p q).Mems := by
  dsimp only [State.raiseParty]
  split
  · exact .bump hs.updTask
  · exact hs.updThread

protected theorem State.Mems.settlePrio {p : LockParty} (hs : s.Mems) : (s.settlePrio p).Mems := by
  dsimp only [State.settlePrio]
  split
  · exact hs.updTask
  · exact hs.updThread

protected theorem State.Mems.inherit {hm : Half} {num q fuel : Nat} (hs : s.Mems) : (s.inherit hm num q fuel).Mems := by
  induction fuel generalizing s hm num with
  | zero =>
    unfold State.inherit
    split
    · exact hs
    · exact .ite hs.bump hs
  | succ k ih =>
    unfold State.inherit
    split
    · exact hs
    · refine .ite ?_ hs
      dsimp only
      split
      · exact hs.bump.raiseParty
      · exact ih hs.bump.raiseParty.setLock

protected theorem State.Mems.answerLock {p : LockParty} {st : Nat} (hs : s.Mems) : (s.answerLock p st).Mems := by
  dsimp only [State.answerLock]
  split
  · exact hs
  · exact hs.updThread

protected theorem State.Mems.passOn {hm : Half} {num st : Nat} (hs : s.Mems) : (s.passOn hm num st).Mems := by
  dsimp only [State.passOn]
  split
  · exact hs.setLock
  · exact hs.setLock.bump.answerLock

protected theorem State.Mems.withdrawWaiter {p : LockParty} (hs : s.Mems) : (s.withdrawWaiter p).Mems := by
  dsimp only [State.withdrawWaiter]
  split
  · exact hs
  · split
    · exact hs.setLock
    · exact hs.setLock.settlePrio

protected theorem State.Mems.abandonLocks {p : LockParty} (hs : s.Mems) : (s.abandonLocks p).Mems :=
  hs.withdrawWaiter.foldl fun h1 => h1.passOn.bump

protected theorem State.Mems.dropHalfLocks {h : Half} (hs : s.Mems) : (s.dropHalfLocks h).Mems := by
  dsimp only [State.dropHalfLocks]
  refine hs.foldl fun h1 => ?_
  split
  · exact .ite h1.setLock.passOn.settlePrio.bump h1.setLock.settlePrio
  · exact h1.setLock

protected theorem State.Mems.takeLock {p : LockParty} {num : Nat} (hs : s.Mems) : (s.takeLock p num).Mems := hs.setLock.bump

protected theorem State.Mems.queueLock {p : LockParty} {num : Nat} (hs : s.Mems) : (s.queueLock p num).Mems := hs.setLock.bump.inherit

protected theorem State.Mems.unlock {p : LockParty} {num : Nat} (hs : s.Mems) : (s.unlock p num).1.Mems := by
  dsimp only [State.unlock]
  exact .ite_fst hs (.ite_fst hs (.ite_fst hs.passOn.settlePrio hs))

protected theorem State.Mems.forcedInt {p : LockParty} (hs : s.Mems) : (s.forcedInt p).Mems := by
  dsimp only [State.forcedInt]
  split
  · exact hs.raiseInt
  · split
    · exact hs.updTask
    · exact hs

protected theorem State.Mems.forceLock {h : Half} {num : Nat} (hs : s.Mems) : (s.forceLock h num).Mems := by
  dsimp only [State.forceLock]
  refine .ite ?_ hs
  split
  · exact hs
  · exact hs.passOn.settlePrio.forcedInt.bump

protected theorem State.Mems.setChan {th : ThreadRef} {n : Nat} {l : List Message} (hs : s.Mems) : (s.setChan th n l).Mems := by
  dsimp only [State.setChan]
  split
  · exact hs.updTile keeps
  · exact hs.rest

protected theorem State.Mems.bumpChan {th : ThreadRef} {off n : Nat} (hs : s.Mems) : (s.bumpChan th off n).Mems := by
  dsimp only [State.bumpChan]
  split
  · exact hs.bumpBy
  · exact hs

protected theorem State.Mems.setEv {th : ThreadRef} {m : Word} (hs : s.Mems) : (s.setEv th m).Mems := hs.updThread

protected theorem State.Mems.sendMessage {th : ThreadRef} {n : Nat} {m : Message} (hs : s.Mems) : (s.sendMessage th n m).Mems :=
  .ite hs.setChan.bumpChan.setEv hs.setChan.bumpChan

protected theorem State.Mems.writeChCfg {th : ThreadRef} {n : Nat} {v : DWord} (hs : s.Mems) : (s.writeChCfg th n v).Mems :=
  .ite (.ite hs.setReg hs.setReg) (.ite hs.bumpChan.setChan.setReg hs.setReg)

/-! ### Tasks -/

protected theorem State.Mems.checkWait {h : Half} {t : TileIx} {k : Nat} (hs : s.Mems) : (s.checkWait h t k).Mems := by
  dsimp only [State.checkWait]
  refine .ite (.ite hs.updTask hs) ?_
  split
  · exact hs
  · split
    · exact .ite (.updTask hs.updThread) hs
    · exact hs

protected theorem State.Mems.dcDown {h : Half} {t : TileIx} {k j : Nat} (hs : s.Mems) : (s.dcDown h t k j).Mems :=
  hs.updTask.checkWait

protected theorem State.Mems.dcUp {h : Half} {t : TileIx} {k j : Nat} (hs : s.Mems) : (s.dcUp h t k j).Mems :=
  hs.updTask

protected theorem State.Mems.settleSlot {h : Half} {t : TileIx} {k : Nat} (hs : s.Mems) : (s.settleSlot h t k).Mems :=
  .ite hs.updTask hs

protected theorem State.Mems.respond {h : Half} {t : TileIx} {r : Response} (hs : s.Mems) : (s.respond h t r).Mems :=
  .ite (.settleSlot (hs.updTile keeps)) (.dcDown (.updTile (hs.updTile keeps) fun _ => Tile.put_memoryWf _ _))

protected theorem State.Mems.updResponse {h : Half} {t : TileIx} {id : Nat} {f : Response → Response} (hs : s.Mems) :
    (s.updResponse h t id f).Mems := hs.updTile keeps

protected theorem State.Mems.releaseInst {h : Half} {t : TileIx} {key : Nat} (hs : s.Mems) : (s.releaseInst h t key).Mems :=
  .foldl (hs.updTile keeps) fun h1 => h1.setEv

protected theorem State.Mems.endInsts {h : Half} {t : TileIx} {k : Nat} (hs : s.Mems) : (s.endInsts h t k).Mems :=
  hs.foldl fun h1 => .ite (h1.bump.updTile keeps) h1.bump.releaseInst

protected theorem State.Mems.settleInst {h : Half} {t : TileIx} {k key : Nat} (hs : s.Mems) : (s.settleInst h t k key).Mems :=
  .ite hs.releaseInst hs

protected theorem State.Mems.cancelScan {h : Half} {t : TileIx} {k : Nat} (hs : s.Mems) : (s.cancelScan h t k).Mems :=
  .ite (.bump (.updTask (hs.updTile keeps))) hs

protected theorem State.Mems.endHold {h : Half} {t : TileIx} {k : Nat} (hs : s.Mems) : (s.endHold h t k).Mems := by
  dsimp only [State.endHold]
  refine .cancelScan (.updTile (.endInsts (.updIng (.updTask ?_))) keeps)
  split
  · exact .updThread (.abandonLocks (.ite hs.bump hs))
  · exact .abandonLocks (.ite hs.bump hs)

protected theorem State.Mems.endChain {h : Half} {t : TileIx} {k : Nat} (hs : s.Mems) : (s.endChain h t k).Mems := by
  dsimp only [State.endChain]
  split
  · exact hs.release.updTask
  · exact hs

protected theorem State.Mems.cross {h : Half} {id : Nat} {list : Option Nat} {port queue : Nat} (hs : s.Mems) :
    (s.cross h id list port queue).Mems := .ite hs.rest hs.bump.release

protected theorem State.Mems.forward {h : Half} {t : TileIx} {k : Nat} (hs : s.Mems) : (s.forward h t k).Mems := by
  dsimp only [State.forward]
  split
  · exact .ite (.updBuf hs.updTask) (.ite (.updBuf hs.updTask) (.cross hs.updTask))
  · exact hs

protected theorem State.Mems.releaseFree {h : Half} {t : TileIx} {k : Nat} (hs : s.Mems) : (s.releaseFree h t k).Mems :=
  .settleSlot hs.forward.updTask

protected theorem State.Mems.releaseOrdered {h : Half} {t : TileIx} {k : Nat} {late : Bool} (hs : s.Mems) :
    (s.releaseOrdered h t k late).Mems := by
  dsimp only [State.releaseOrdered]
  refine .releaseFree ?_
  split
  · exact hs.bump.bump.updChain
  · exact hs.bump

protected theorem State.Mems.completePacket {h : Half} {t : TileIx} {k : Nat} {out : Option (List Byte)} (hs : s.Mems) :
    (s.completePacket h t k out).Mems := by
  unfold State.completePacket
  extract_lets s1 s2 s3 x
  have h1 : s2.Mems := .ite hs.endHold.endChain hs.endHold
  exact .ite (.ite h1.updTask (.releaseOrdered h1.updTask)) (.releaseFree h1.updTask)

protected theorem State.Mems.endService {h : Half} {t : TileIx} {k : Nat} (hs : s.Mems) : (s.endService h t k).Mems :=
  .settleSlot hs.endHold.updTask

protected theorem State.Mems.completeTask {h : Half} {t : TileIx} {k : Nat} {out : Option (List Byte)} (hs : s.Mems) :
    (s.completeTask h t k out).Mems := .ite hs.endService hs.completePacket

protected theorem State.Mems.countDiscard {h : Half} {t : TileIx} {k reason : Nat} (hs : s.Mems) : (s.countDiscard h t k reason).Mems :=
  .setReg (.ite hs.bump.bump.bump hs.bump.bump)

protected theorem State.Mems.discardTask {h : Half} {t : TileIx} {k reason : Nat} (hs : s.Mems) : (s.discardTask h t k reason).Mems :=
  .ite hs
    (.ite hs.countDiscard.endService
       (.ite
          (.ite hs.countDiscard.endHold.endChain.updTask (.releaseOrdered hs.countDiscard.endHold.endChain.updTask))
          (.settleSlot (.updTask hs.countDiscard.endHold.endChain.updTask))))

/-! ### Admit -/

protected theorem State.Mems.settleReg {h : Half} {id : Nat} (hs : s.Mems) : (s.settleReg h id).Mems := .ite hs hs.rest

protected theorem State.Mems.refuse {h : Half} {c : Copy} {k : Nat} (hs : s.Mems) : (s.refuse h c k).Mems := hs.bumpPort.release

protected theorem State.Mems.countAdmit {h : Half} {q : Nat} {e : QEntry} (hs : s.Mems) : (s.countAdmit h q e).Mems :=
  .ite hs.bumpPort.bumpPort hs.bumpPort

protected theorem State.Mems.admitOnChip {h : Half} {c : Copy} (hs : s.Mems) : (s.admitOnChip h c).Mems :=
  .countAdmit (.withSched hs (fun h1 => h1.setQueue))

protected theorem State.Mems.admitDeep {h : Half} {c : Copy} (hs : s.Mems) : (s.admitDeep h c).Mems :=
  .countAdmit (.rest hs.setSpill.updBuf)

protected theorem State.Mems.takeCopy {h : Half} {c : Copy} (hs : s.Mems) : (s.takeCopy h c).Mems := by
  dsimp only [State.takeCopy]
  exact .ite hs.refuse
    (.ite hs.refuse
       (.ite hs.bump.release
          (.ite (.ite hs.refuse hs.admitDeep) (.ite hs.refuse (.ite hs.admitOnChip (.ite hs.moveCharge.admitOnChip hs.refuse))))))

protected theorem State.Mems.doAdmitCopy {h : Half} (hs : s.Mems) : (doAdmitCopy h s).Mems := by
  dsimp only [doAdmitCopy]
  split
  · exact hs
  · exact .ite (.settleReg (.takeCopy hs.updBuf)) hs

protected theorem State.Mems.offer {h : Half} {id list : Nat} {t : Target} (hs : s.Mems) : (State.offer h id list s t).Mems :=
  .ite hs.cross hs.updBuf

protected theorem State.Mems.replicate {h : Half} {id list : Nat} {found : List Target} (hs : s.Mems) :
    (s.replicate h id list found).Mems := by
  dsimp only [State.replicate]
  exact .ite (.freeChain (.ite hs.bump hs))
    (.ite
       (.foldl (.moveCharge (.updChain (.ite hs.bump hs))) fun h1 => h1.offer)
       (.freeChain (.foldl (.updChain (.ite hs.bump hs)) fun h1 => h1.bumpPort)))

protected theorem State.Mems.doReplWalk {h : Half} (hs : s.Mems) : (doReplWalk h s).Mems := by
  dsimp only [doReplWalk]
  split
  · exact hs
  · refine .ite hs (.settleReg (.replicate ?_))
    exact .ite (.bump (.ite (.bump hs.updBuf) hs.updBuf)) (.ite (.bump hs.updBuf) hs.updBuf)

protected theorem State.Mems.writeBlocks {h : Half} {img : List Byte} {l : List Nat} {off : Nat} (hs : s.Mems) :
    (s.writeBlocks h img l off).Mems := by
  induction l generalizing s off with
  | nil => exact hs
  | cons i r ih => exact ih hs.hbmWrite

protected theorem State.Mems.readBlocks {h : Half} {l : List Nat} {left : Nat} (hs : s.Mems) : (s.readBlocks h l left).1.Mems := by
  induction l generalizing s left with
  | nil => exact hs
  | cons i r ih => exact ih hs.hbmRead

protected theorem State.Mems.doSpillWritten {h : Half} {q : Nat} (hs : s.Mems) : (doSpillWritten h q s).Mems := by
  dsimp only [doSpillWritten]
  split
  · exact hs
  · split
    · exact hs
    · exact .ite hs.setSpill.errorDrop hs.used.writeBlocks.setSpill.release

protected theorem State.Mems.popSpill {h : Half} {q : Nat} (hs : s.Mems) : (s.popSpill h q).Mems := hs.setSpill.updBuf

protected theorem State.Mems.fillFront {h : Half} {q : Nat} {x : SpillEntry} (hs : s.Mems) : (s.fillFront h q x).Mems := by
  dsimp only [State.fillFront]
  exact .ite hs.used.popSpill.bumpPort.report
    (.ite hs.updBuf
      (.ite hs.readBlocks.popSpill.bumpPort.report (.popSpill (.withSched hs.readBlocks.addChain (fun h1 => h1.setQueue)))))

protected theorem State.Mems.doSpillFill {h : Half} {q : Nat} (hs : s.Mems) : (doSpillFill h q s).Mems := by
  dsimp only [doSpillFill]
  split
  · exact hs
  · exact .ite hs hs.fillFront

protected theorem State.Mems.doFillRetry {h : Half} {q : Nat} (hs : s.Mems) : (doFillRetry h q s).Mems := by
  dsimp only [doFillRetry]
  split
  · exact .ite hs.bump.fillFront hs
  · exact hs

protected theorem State.Mems.flushEnd {h : Half} {lp : Nat} (hs : s.Mems) : (s.flushEnd h lp).Mems := .ite hs.setHold hs

protected theorem State.Mems.portFalls {h : Half} {lp : Nat} (hs : s.Mems) : (s.portFalls h lp).Mems :=
  .ite (.ite hs.loseSelected.setHold.flushEnd hs.loseSelected.setHold.updBuf) hs.loseSelected

protected theorem State.Mems.portReturns {h : Half} {lp : Nat} (hs : s.Mems) : (s.portReturns h lp).Mems :=
  .ite hs.setHold.updBuf hs

protected theorem State.Mems.doHoldExpire {h : Half} {lp : Nat} (hs : s.Mems) : (doHoldExpire h lp s).Mems :=
  .ite (.flushEnd hs.setHold.updBuf) hs

protected theorem State.Mems.doFlushEntry {h : Half} {lp : Nat} (hs : s.Mems) : (doFlushEntry h lp s).Mems := by
  dsimp only [doFlushEntry]
  refine .ite ?_ hs
  split
  · split
    · exact .flushEnd (.release (.bumpPort (.withSched hs (fun h1 => h1.setQueue))))
    · exact hs
  · split
    · exact .flushEnd (.bumpPort hs.setSpill.updBuf)
    · exact hs.flushEnd

protected theorem State.Mems.reclaimed {h : Half} (hs : s.Mems) : (s.reclaimed h).Mems := hs.bump.report

protected theorem State.Mems.reclaimLost {h : Half} {x : LostCell} (hs : s.Mems) : (s.reclaimLost h x).Mems :=
  .ite hs (.ite hs.updBuf (.reclaimed hs.updBuf))

protected theorem State.Mems.doReclaimVisit {h : Half} {cell : Nat} (hs : s.Mems) : (doReclaimVisit h cell s).Mems := by
  dsimp only [doReclaimVisit]
  refine .ite ?_ hs
  split
  · exact .ite hs.freeChain.reclaimed hs
  · split
    · exact hs.reclaimLost
    · exact hs

/-! ### Cal -/

protected theorem State.Mems.calApply {items : List Nat} (hs : s.Mems) : (s.calApply items).Mems := hs.withPv rfl

/-! ### Flow -/

protected theorem State.Mems.flowRead {h : Half} {slot : Nat} (hs : s.Mems) : (s.flowRead h slot).1.Mems := by
  dsimp only [State.flowRead]
  exact hs.hbmRead

protected theorem State.Mems.flowWriteThrough {h : Half} {a : Nat} {bs : List Byte} (hs : s.Mems) : (s.flowWriteThrough h a bs).Mems := by
  dsimp only [State.flowWriteThrough]
  exact hs.hbmWrite.updHbm fun _ => HbmState.drainGran_wf _ _

protected theorem State.Mems.flowPut {h : Half} {slot : Nat} {r : List Byte} (hs : s.Mems) : (s.flowPut h slot r).Mems :=
  hs.flowWriteThrough.hbmWrite

protected theorem State.Mems.flowPutHead {h : Half} {slot : Nat} {r : List Byte} (hs : s.Mems) : (s.flowPutHead h slot r).Mems :=
  hs.hbmWrite

protected theorem State.Mems.flowClear {h : Half} {slot : Nat} {r : List Byte} (hs : s.Mems) : (s.flowClear h slot r).Mems :=
  hs.flowPutHead.updTab

protected theorem State.Mems.flowLost {h : Half} {slot : Nat} (hs : s.Mems) : (s.flowLost h slot).Mems := .ite hs.flowClear.report hs

protected theorem State.Mems.flowBucket {h : Half} {first : Nat} (hs : s.Mems) : (s.flowBucket h first).1.Mems := by
  dsimp only [State.flowBucket]
  exact hs.hbmRead

protected theorem State.Mems.bucketLost {h : Half} {first : Nat} (hs : s.Mems) : (s.bucketLost h first).Mems :=
  hs.foldl fun h1 => h1.flowLost

protected theorem State.Mems.flowScan {h : Half} {key : Nat} {l : List Nat} (hs : s.Mems) : (s.flowScan h key l).1.Mems := by
  induction l generalizing s with
  | nil => exact hs
  | cons b r ih =>
    unfold State.flowScan
    split
    · next s1 e => exact (hs.flowBucket.of_fst e).bucketLost
    · next s1 l e =>
      split
      · exact hs.flowBucket.of_fst e
      · exact ih (hs.flowBucket.of_fst e)

protected theorem State.Mems.flowSearch {h : Half} {key : Nat} (hs : s.Mems) : (s.flowSearch h key).1.Mems := by
  unfold State.flowSearch
  split
  · next s1 e => split <;> exact hs.flowScan.of_fst e
  · exact hs.flowScan

protected theorem State.Mems.flowMove {h : Half} {m : Nat × Nat} (hs : s.Mems) : (State.flowMove h s m).Mems :=
  .flowClear hs.flowPut.updTab

protected theorem State.Mems.flowPlace {h : Half} {key : Nat} (hs : s.Mems) : (s.flowPlace h key).1.Mems := by
  dsimp only [State.flowPlace]
  split
  · exact hs.rest
  · split
    · exact hs.rest.foldl fun h1 => h1.flowMove
    · split
      · exact hs.rest
      · exact hs.rest

protected theorem State.Mems.flowStore {h : Half} {p : Nat × Bool} {r : List Byte} (hs : s.Mems) : (s.flowStore h p r).Mems :=
  .ite hs.updTab hs.flowPut.updTab

protected theorem State.Mems.flowTouch {h : Half} {f : FlowFound} {r : List Byte} (hs : s.Mems) : (s.flowTouch h f r).Mems := by
  dsimp only [State.flowTouch]
  split
  · exact hs.flowPutHead.updTab
  · exact hs.updTab
  · exact hs

protected theorem State.Mems.flowRemove {h : Half} {f : FlowFound} (hs : s.Mems) : (s.flowRemove h f).Mems := by
  dsimp only [State.flowRemove]
  split
  · exact hs.flowClear
  · exact hs.updTab
  · exact hs

protected theorem State.Mems.doStashReturn {h : Half} {n : Nat} (hs : s.Mems) : (doStashReturn h n s).Mems := by
  dsimp only [doStashReturn]
  split
  · exact hs
  · refine .ite ?_ hs
    split
    · exact hs.used.flowPut.updTab
    · exact hs

/-! ### Lpm -/

protected theorem State.Mems.writeBack {h : Half} {i : Nat} (hs : s.Mems) : (s.writeBack h i).Mems := by
  dsimp only [State.writeBack]
  split
  · exact hs
  · refine .ite hs.hbmRead ?_
    split
    · next s2 e => exact .updTab (hs.hbmRead.hbmWrite.of_fst e)
    · next s2 e => exact hs.hbmRead.hbmWrite.of_fst e

protected theorem State.Mems.countPair {h : Half} {i n : Nat} (hs : s.Mems) : (s.countPair h i n).Mems :=
  .updTab (.ite hs.used.writeBack hs)

protected theorem State.Mems.doWriteback {h : Half} {pair : Nat} (hs : s.Mems) : (doWriteback h pair s).Mems := .ite hs.writeBack hs

protected theorem State.Mems.readSel {h : Half} {v : DWord} (hs : s.Mems) : (s.readSel h v).Mems := hs.updTab

protected theorem State.Mems.doReadDone {h : Half} (hs : s.Mems) : (doReadDone h s).Mems := by
  dsimp only [doReadDone]
  split
  · exact hs
  · refine .ite (.ite ?_ (.updTab (.setReg (.setReg (.ite hs.hbmRead.used hs.hbmRead))))) hs
    exact .updTab (.hbmWrite (.updTab (.setReg (.setReg (.ite hs.hbmRead.used hs.hbmRead)))))

protected theorem State.Mems.loseLine {h : Half} {i : Nat} (hs : s.Mems) : (s.loseLine h i).Mems :=
  .ite hs.updTab.bump hs

protected theorem State.Mems.doMeterRefill {h : Half} {i : Nat} (hs : s.Mems) : (doMeterRefill h i s).Mems := .ite hs.setMeter hs

/-! ### Shadow -/

protected theorem State.Mems.withShadow {s0 : State} {h : Half} (hs : s.Mems) : (State.withShadow s0 s h).Mems := hs.updTab

protected theorem State.Mems.fromShadow {h : Half} {t i : Nat} (hs : s.Mems) : (s.fromShadow h t i).Mems := by
  dsimp only [State.fromShadow]
  split
  · exact hs.updTab
  · exact hs.updTab
  · exact hs.updTab
  · exact hs.updTab
  · exact hs.updTab
  · exact hs.setMeter
  · exact hs.updTab
  · exact hs.rest
  · exact hs.updTab
  · exact hs.updTab

/-! ### Inject -/

protected theorem State.Mems.injectChain {h : Half} {v id : Nat} (hs : s.Mems) : (s.injectChain h v id).Mems :=
  .ite hs.bump.release hs.updChain.updIng

protected theorem State.Mems.injectBytes {h : Half} {v : Nat} {bytes : List Byte} (hs : s.Mems) : (s.injectBytes h v bytes).Mems := by
  dsimp only [State.injectBytes]
  exact hs.addChain.injectChain

protected theorem State.Mems.postFrame {th : ThreadRef} {v : Nat} {bytes : List Byte} (hs : s.Mems) : (s.postFrame th v bytes).Mems :=
  .ite hs.injectBytes.updThread (.updIng hs.updThread)

protected theorem State.Mems.servePoster {h : Half} {th : ThreadRef} {rest : List ThreadRef} (hs : s.Mems) :
    (s.servePoster h th rest).Mems := by
  dsimp only [State.servePoster]
  split
  · exact .ite (.updIng hs.injectBytes.updThread) hs
  · exact hs.updIng

protected theorem State.Mems.serveLoop {h : Half} {id : Nat} {rest : List Nat} (hs : s.Mems) : (s.serveLoop h id rest).Mems := by
  dsimp only [State.serveLoop]
  refine .ite ?_ hs
  split
  · next s1 e => exact .injectChain ((hs.moveCharge.of_fst e).updIng)
  · exact hs

protected theorem State.Mems.doInjectEntry {h : Half} (hs : s.Mems) : (doInjectEntry h s).Mems := by
  dsimp only [doInjectEntry]
  split
  · exact hs.servePoster
  · split
    · exact hs.serveLoop
    · exact hs

/-! ### Ingress -/

protected theorem State.Mems.xoffDue {p : PortIx} {prio : Nat} (hs : s.Mems) : (s.xoffDue p prio).Mems :=
  hs.updIng

protected theorem State.Mems.xonDue {p : PortIx} {prio : Nat} (hs : s.Mems) : (s.xonDue p prio).Mems :=
  hs.updIng

protected theorem State.Mems.setLevel {p : PortIx} {prio n : Nat} (hs : s.Mems) : (s.setLevel p prio n).Mems := by
  dsimp only [State.setLevel]
  exact .ite (.xoffDue hs.updIng) (.ite (.xonDue hs.updIng) hs.updIng)

protected theorem State.Mems.setArriving {p : PortIx} {f : RxFrame} (hs : s.Mems) : (s.setArriving p f).Mems := hs.updIng

protected theorem State.Mems.noArriving {p : PortIx} (hs : s.Mems) : (s.noArriving p).Mems := hs.updIng

protected theorem State.Mems.doFrameStart {p : PortIx} (hs : s.Mems) : (doFrameStart p s).Mems :=
  .ite (.setArriving hs.used.updIng) hs

protected theorem State.Mems.leaveRxq {h : Half} {f : RxFrame} (hs : s.Mems) : (s.leaveRxq h f).Mems := by
  dsimp only [State.leaveRxq]
  split
  · exact hs.setLevel
  · exact hs

protected theorem State.Mems.dropFrame {h : Half} {f : RxFrame} (hs : s.Mems) : (s.dropFrame h f).Mems := by
  dsimp only [State.dropFrame]
  split
  · exact hs.leaveRxq.release
  · exact hs.leaveRxq

protected theorem State.Mems.cutFrame {p : PortIx} {f : RxFrame} {ctr : Nat} (hs : s.Mems) : (s.cutFrame p f ctr).Mems :=
  hs.dropFrame.bump.setArriving

protected theorem State.Mems.takeRxCell {h : Half} {f : RxFrame} {p : State × RxFrame} (hs : s.Mems)
    (e : s.takeRxCell h f = some p) : p.1.Mems := by
  unfold State.takeRxCell at e
  split at e
  · split at e
    · cases e; exact hs.addChain
    · cases e; exact hs.growChain
  · cases e

protected theorem State.Mems.assignPrio {p : PortIx} {f : RxFrame} (hs : s.Mems) : (s.assignPrio p f).Mems := by
  dsimp only [State.assignPrio]
  exact .ite hs.cutFrame hs.setArriving.setLevel

protected theorem State.Mems.doRxByte {p : PortIx} {b : Byte} (hs : s.Mems) : (doRxByte p s b).Mems := by
  dsimp only [doRxByte]
  split
  · exact hs
  · refine .ite hs ?_
    refine .ite hs.cutFrame ?_
    refine .ite ?_ (.ite hs.assignPrio hs.setArriving)
    split
    · exact hs.cutFrame
    · next s1 f1 e =>
        split
        · exact .ite ((hs.takeRxCell e).setLevel.assignPrio) ((hs.takeRxCell e).setLevel.setArriving)
        · exact .ite ((hs.takeRxCell e).assignPrio) ((hs.takeRxCell e).setArriving)

protected theorem State.Mems.doFrameBytes {p : PortIx} {bytes : List Byte} (hs : s.Mems) : (doFrameBytes p bytes s).Mems :=
  .ite (hs.foldl fun h1 => h1.doRxByte) hs

protected theorem State.Mems.acceptFrame {p : PortIx} {f : RxFrame} (hs : s.Mems) : (s.acceptFrame p f).Mems := by
  dsimp only [State.acceptFrame]
  refine .updIng ?_
  split
  · exact hs.bump.bumpBy.updChain
  · exact hs.bump.bumpBy

protected theorem State.Mems.countFec {p : PortIx} (hs : s.Mems) : (s.countFec p).Mems := .ite hs.used.used.bumpBy.bumpBy hs

protected theorem State.Mems.doFrameEnd {p : PortIx} {pcsError : Bool} (hs : s.Mems) : (doFrameEnd p pcsError s).Mems := by
  dsimp only [doFrameEnd]
  refine .ite ?_ hs
  split
  · exact hs
  · refine .ite hs.countFec.noArriving ?_
    split
    · exact .ite hs.countFec.noArriving.dropFrame.bump.updIng hs.countFec.noArriving.dropFrame.bump
    · exact hs.countFec.noArriving.acceptFrame

protected theorem State.Mems.abortRx {p : PortIx} (hs : s.Mems) : (s.abortRx p).Mems := by
  dsimp only [State.abortRx]
  split
  · exact hs
  · exact .ite hs.noArriving hs.noArriving.dropFrame.bump

protected theorem State.Mems.doPfcRefresh {p : PortIx} {prio : Nat} (hs : s.Mems) : (doPfcRefresh p prio s).Mems := by
  dsimp only [doPfcRefresh]
  split
  · exact .ite hs.xoffDue hs
  · exact hs

protected theorem State.Mems.doPfcTransmit {p : PortIx} (hs : s.Mems) : (doPfcTransmit p s).Mems :=
  .ite hs.updIng.bump hs

protected theorem State.Mems.pfcClass {p : PortIx} {e q : Nat} (hs : s.Mems) : (s.pfcClass p e q).Mems :=
  .ite hs.updIng (.withdraw hs.updIng)

protected theorem State.Mems.doPfcReceive {p : PortIx} (hs : s.Mems) : (doPfcReceive p s).Mems := by
  dsimp only [doPfcReceive]
  split
  · exact hs
  · exact .schedRefresh (.foldl hs.updIng fun h1 => .ite h1.pfcClass h1)

protected theorem State.Mems.doPfcExpire {p : PortIx} {prio : Nat} (hs : s.Mems) : (doPfcExpire p prio s).Mems := by
  dsimp only [doPfcExpire]
  split
  · exact .ite (.withSched hs (fun h1 => h1.updIng)) hs
  · exact hs

/-! ### Classify -/

protected theorem State.Mems.dropRed {h : Half} {f : RxFrame} (hs : s.Mems) : (s.dropRed h f).Mems := by
  dsimp only [State.dropRed]
  split
  · exact hs.dropFrame.bump
  · exact hs.dropFrame

protected theorem State.Mems.ingressMeter {h : Half} {f : RxFrame} {w ind : Nat} (hs : s.Mems) : (s.ingressMeter h f w ind).1.Mems := by
  dsimp only [State.ingressMeter]
  exact .ite_fst (.ite_fst hs.fillMeter.used hs.chargeMeter) hs

protected theorem State.Mems.examineFrom {h : Half} {key : List Byte} {p : Nat} (hs : s.Mems) : (s.examineFrom h key p).Mems :=
  .ite hs.updTab hs

protected theorem State.Mems.learnFrom {h : Half} {f : RxFrame} {key : List Byte} (hs : s.Mems) : (s.learnFrom h f key).Mems := by
  dsimp only [State.learnFrom]
  refine .examineFrom ?_
  split
  · exact hs.updChain
  · exact hs

protected theorem State.Mems.finishClassify {h : Half} {f : RxFrame} {e : ParseEnd} (hs : s.Mems) : (s.finishClassify h f e).Mems := by
  dsimp only [State.finishClassify]
  exact .ite
    (.dropRed (.updIng (.ingressMeter (.ite hs.learnFrom hs.learnFrom.bump))))
    (.updIng (.ingressMeter (.ite hs.learnFrom hs.learnFrom.bump)))

protected theorem State.Mems.doClassify {h : Half} (hs : s.Mems) : (doClassify h s).Mems := by
  dsimp only [doClassify]
  refine .ite ?_ hs
  split
  · exact hs
  · exact .ite (.updIng (.bump hs.updIng)) (.ite hs (.finishClassify hs.updIng))

protected theorem State.Mems.doSecondPass {h : Half} (hs : s.Mems) : (doSecondPass h s).Mems := by
  dsimp only [doSecondPass]
  split
  · exact .ite hs.finishClassify hs
  · exact hs

/-! ### TaskMake -/

protected theorem State.Mems.noteMove {h : Half} {t : TileIx} {ind born : Nat} (hs : s.Mems) : (s.noteMove h t ind born).Mems :=
  .updIng (.ite hs.bump hs)

protected theorem State.Mems.setDomWin {h : Half} {d : Nat} {l : List (Nat × Nat)} (hs : s.Mems) : (s.setDomWin h d l).Mems := hs.rest

protected theorem State.Mems.releaseUpTo {h : Half} {n : Nat} (hs : s.Mems) : (s.releaseUpTo h n).Mems := by
  induction n generalizing s with
  | zero => exact hs
  | succ n ih =>
    unfold State.releaseUpTo
    split
    · exact hs
    · split
      · exact hs
      · exact ih hs.setDomWin.releaseOrdered

protected theorem State.Mems.overtake {h : Half} {d ctr : Nat} (hs : s.Mems) : (s.overtake h d ctr).Mems := by
  dsimp only [State.overtake]
  split
  · exact hs
  · exact .bump hs.setDomWin.updTask

protected theorem State.Mems.makeRoom {h : Half} {d : Nat} (hs : s.Mems) : (s.makeRoom h d).Mems := by
  dsimp only [State.makeRoom]
  split
  · exact hs
  · exact .ite (.ite hs.setDomWin.releaseOrdered hs.overtake.releaseUpTo) hs

protected theorem State.Mems.joinWindow {h : Half} {t : TileIx} {k : Nat} (hs : s.Mems) : (s.joinWindow h t k).Mems := hs.setDomWin

protected theorem State.Mems.createTask {h : Half} {t : TileIx} {k : Nat} {redirect : Bool} {c : ClsFrame} (hs : s.Mems) :
    (s.createTask h t k redirect c).Mems := by
  unfold State.createTask
  extract_lets x s1 s2 s3 s4 s5 s6
  have h0 : s2.Mems := hs.updTask.updTile fun _ hx => Tile.put_memoryWf _ _ (Tile.put_memoryWf _ _ hx)
  have h1 : s4.Mems := .ite h0.bump.bump h0.bump
  have h2 : s5.Mems := .ite h1.noteMove h1.updIng
  have h3 : s6.Mems := .ite h2.makeRoom.joinWindow h2
  exact h3.leaveRxq.updIng

protected theorem State.Mems.doTaskCreate {h : Half} (hs : s.Mems) : (doTaskCreate h s).Mems := by
  dsimp only [doTaskCreate]
  split
  · exact hs
  · refine .ite ?_ hs
    split
    · exact hs
    · exact hs.used.createTask

protected theorem State.Mems.svcPost {h : Half} {t : TileIx} {j : Nat} {m : Word} (hs : s.Mems) : (s.svcPost h t j m).Mems :=
  .ite hs.setReg hs

protected theorem State.Mems.svcEvent {h : Half} {v : DWord} (hs : s.Mems) : (s.svcEvent h v).Mems := .ite hs.svcPost hs

protected theorem State.Mems.svcConfig {h : Half} {t : TileIx} {j : Nat} {v : DWord} (hs : s.Mems) : (s.svcConfig h t j v).Mems :=
  .ite (hs.setReg.updTile fun _ => Tile.put_memoryWf _ _) hs.setReg

protected theorem State.Mems.doConfluence {h : Half} (hs : s.Mems) : (doConfluence h s).Mems := .ite hs.releaseUpTo hs

protected theorem State.Mems.checkDomain {h : Half} {d : Nat} (hs : s.Mems) : (State.checkDomain h s d).Mems := by
  dsimp only [State.checkDomain]
  split
  · exact hs
  · exact .ite hs.overtake hs

protected theorem State.Mems.doPatience {h : Half} (hs : s.Mems) : (doPatience h s).Mems :=
  .ite (.ite (hs.foldl fun h1 => h1.checkDomain) (.releaseUpTo (hs.foldl fun h1 => h1.checkDomain))) hs

protected theorem State.Mems.doOldestLive {h : Half} (hs : s.Mems) : (doOldestLive h s).Mems := .ite hs.setReg hs

protected theorem State.Mems.imgCtl {h : Half} {arm disarm : Bool} (hs : s.Mems) : (s.imgCtl h arm disarm).Mems :=
  .ite (.ite hs.setRfld hs) (.ite (.ite hs.setRfld.updIng hs.setRfld) hs)

protected theorem State.Mems.doImgSwitch {h : Half} (hs : s.Mems) : (doImgSwitch h s).Mems := .ite hs.setRfld.setRfld.updIng hs

protected theorem State.Mems.doImgDrainEnd {h : Half} (hs : s.Mems) : (doImgDrainEnd h s).Mems := .ite hs.setRfld hs

/-! ### Batch -/

protected theorem State.Mems.updEntries {h : Half} {t : Nat} {f : Tbl Nat → Tbl Nat} (hs : s.Mems) : (s.updEntries h t f).Mems := by
  dsimp only [State.updEntries]
  split
  · exact hs.rest
  · exact hs.updTab
  · exact hs.updTab

protected theorem State.Mems.notePeak {h : Half} (hs : s.Mems) : (s.notePeak h).Mems := .ite hs.setRfld hs

protected theorem State.Mems.touchEntries {h : Half} {b : Nat} {ts : List Touch} {key : Option (Nat × Nat)} (hs : s.Mems) :
    (s.touchEntries h b ts key).Mems := hs.updSlot

protected theorem State.Mems.exRetire {h : Half} {b tid key : Nat} (hs : s.Mems) : (s.exRetire h b tid key).Mems := by
  dsimp only [State.exRetire]
  split
  · exact hs.setEx.touchEntries
  · exact hs

protected theorem State.Mems.exInsert {h : Half} {b : Nat} {r : BatchRec} (hs : s.Mems) : (s.exInsert h b r).Mems := by
  dsimp only [State.exInsert]
  split
  · next s1 i e => exact (hs.exSlot.of_fst e).setEx.touchEntries
  · next s1 e => exact hs.exSlot.of_fst e

protected theorem State.Mems.learnInsert {h : Half} {b : Nat} {r : BatchRec} (hs : s.Mems) : (s.learnInsert h b r).Mems := by
  dsimp only [State.learnInsert]
  refine .ite hs.bump ?_
  split
  · exact hs.setEx.touchEntries
  · split
    · next s1 i e => exact (hs.exSlot.of_fst e).setEx.touchEntries
    · next s1 e => exact (hs.exSlot.of_fst e).bump

protected theorem State.Mems.applyExact {h : Half} {b : Nat} {r : BatchRec} (hs : s.Mems) : (s.applyExact h b r).Mems :=
  .ite hs.learnInsert (.touchEntries (.exRetire (.ite hs hs.exInsert)))

protected theorem State.Mems.applyRoute {h : Half} {b : Nat} {r : BatchRec} (hs : s.Mems) : (s.applyRoute h b r).Mems :=
  .touchEntries hs.updTab

protected theorem State.Mems.applyIndexed {h : Half} {b : Nat} {r : BatchRec} (hs : s.Mems) : (s.applyIndexed h b r).Mems :=
  .touchEntries (.ite (.ite hs.updEntries hs.updEntries) (.ite hs.setMeter hs.updTab))

protected theorem State.Mems.applyRec {h : Half} {b : Nat} {r : BatchRec} (hs : s.Mems) : (s.applyRec h b r).Mems :=
  .notePeak (.ite hs.applyExact (.ite hs.applyRoute hs.applyIndexed))

protected theorem State.Mems.forgetWithheld {h : Half} {t i : Nat} (hs : s.Mems) : (s.forgetWithheld h t i).Mems :=
  .ite (.rest hs.updTab) hs.updTab

protected theorem State.Mems.settle {h : Half} {b : Nat} {walk : Bool} {t : Touch} (hs : s.Mems) : (s.settle h b walk t).Mems := by
  dsimp only [State.settle]
  split
  · split
    · exact .ite hs (.ite hs.dropEx.forgetWithheld hs.setEx)
    · exact hs
  · refine .ite ?_ (.ite hs.setMeter hs.updTab)
    split
    · exact .ite hs.updEntries.forgetWithheld hs.updEntries
    · exact hs
  · exact hs.updTab
  · exact hs.updTab
  · exact hs.updTab

protected theorem State.Mems.buildEnds {h : Half} {b : Nat} (hs : s.Mems) : (s.buildEnds h b).Mems := hs.updTab

protected theorem State.Mems.undone {h : Half} {b : Nat} (hs : s.Mems) : (s.undone h b).Mems := .ite hs.updSlot hs.updSlot.bump.buildEnds

protected theorem State.Mems.startUndo {h : Half} {b : Nat} {abort : Bool} (hs : s.Mems) : (s.startUndo h b abort).Mems :=
  .ite hs.updSlot.undone hs.updSlot

protected theorem State.Mems.refuseRec {h : Half} {b reason : Nat} (hs : s.Mems) : (s.refuseRec h b reason).Mems := hs.updSlot.startUndo

protected theorem State.Mems.postSlot {h : Half} {b : Nat} {e : DWord} (hs : s.Mems) : (s.postSlot h b e).Mems :=
  .ite hs.updSlot (.ite hs.updSlot hs.updSlot)

protected theorem State.Mems.buildDone {h : Half} {b : Nat} (hs : s.Mems) : (s.buildDone h b).Mems := by
  dsimp only [State.buildDone]
  split
  · exact hs.updSlot.buildEnds.postSlot
  · exact hs.updSlot.buildEnds

protected theorem State.Mems.nextRec {h : Half} {x : BatchSlot} (hs : s.Mems) : (s.nextRec h x).1.Mems := by
  dsimp only [State.nextRec]
  exact .ite_fst hs (.ite_fst hs.hbmRead hs.hbmRead.hbmRead)

protected theorem State.Mems.doRecordApply {h : Half} (hs : s.Mems) : (doRecordApply h s).Mems := by
  dsimp only [doRecordApply]
  split
  · exact hs
  · refine .ite hs ?_
    refine .ite hs.buildDone ?_
    split
    · next s1 e => exact (hs.nextRec.of_fst e).refuseRec
    · next s1 r total e =>
        exact .ite ((hs.nextRec.of_fst e).refuseRec)
          (.ite ((hs.nextRec.of_fst e).applyRec.updSlot.buildDone) ((hs.nextRec.of_fst e).applyRec.updSlot))

protected theorem State.Mems.doUndoStep {h : Half} {b : Nat} (hs : s.Mems) : (doUndoStep h b s).Mems := by
  dsimp only [doUndoStep]
  refine .ite hs ?_
  split
  · exact hs.undone
  · exact .ite hs.settle.updSlot.undone hs.settle.updSlot

protected theorem State.Mems.retired {h : Half} {b : Nat} (hs : s.Mems) : (s.retired h b).Mems := hs.updSlot.bump

protected theorem State.Mems.doRetireStart {h : Half} {b : Nat} (hs : s.Mems) : (doRetireStart h b s).Mems :=
  .ite (.ite hs.retired hs.updSlot) hs

protected theorem State.Mems.doRetireWalk {h : Half} {b : Nat} (hs : s.Mems) : (doRetireWalk h b s).Mems := by
  dsimp only [doRetireWalk]
  refine .ite hs ?_
  split
  · exact hs.retired
  · exact .ite hs.settle.updSlot.retired hs.settle.updSlot

protected theorem State.Mems.cmdIgnored {h : Half} (hs : s.Mems) : (s.cmdIgnored h).Mems := hs.bump

protected theorem State.Mems.buildCmd {h : Half} {b : Nat} {post : Bool} (hs : s.Mems) : (s.buildCmd h b post).Mems :=
  .ite hs.updSlot.updTab hs.cmdIgnored

protected theorem State.Mems.batchCmd {h : Half} {b cmd : Nat} (hs : s.Mems) : (s.batchCmd h b cmd).Mems := by
  dsimp only [State.batchCmd]
  split
  · exact hs.buildCmd
  · exact .ite hs.postSlot hs.cmdIgnored
  · exact hs.buildCmd
  · exact .ite hs.startUndo hs.cmdIgnored
  · exact .ite hs.updSlot hs.cmdIgnored
  · exact hs

protected theorem State.Mems.versionEnds {h : Half} (hs : s.Mems) : (s.versionEnds h).Mems :=
  .updTab (hs.foldl fun h1 => .ite (.updSlot (h1.foldl fun h2 => h2.settle)) h1)

/-! ### Assoc -/

protected theorem State.Mems.updAssoc {h : Half} {f : AssocState → AssocState} (hs : s.Mems) : (s.updAssoc h f).Mems := hs.rest

protected theorem State.Mems.setBankStat {h : Half} {v : DWord} (hs : s.Mems) : (s.setBankStat h v).Mems := hs.setReg.withPv rfl

protected theorem State.Mems.bankFails {h : Half} {b : Nat} (hs : s.Mems) : (s.bankFails h b).Mems :=
  .ite hs.updAssoc.setBankStat.report hs.updAssoc.setBankStat.report

protected theorem State.Mems.doAssocScrub {h : Half} {i : Nat} {ecc : EccOutcome} {found : Bool} (hs : s.Mems) :
    (doAssocScrub h i ecc found s).Mems := by
  dsimp only [doAssocScrub]
  refine .ite hs ?_
  split
  · exact .ite hs.report.bump.updAssoc.bankFails hs.report.bump.updAssoc
  · exact .ite (.bankFails (.ite hs.report.bump hs)) (.ite hs.report.bump hs)

protected theorem State.Mems.doAssocRepaired {h : Half} {i : Nat} (hs : s.Mems) : (doAssocRepaired h i s).Mems :=
  .ite hs.fromShadow.updAssoc hs

protected theorem State.Mems.doSpareFilled {h : Half} (hs : s.Mems) : (doSpareFilled h s).Mems := .ite hs.setRfld hs

/-! ### Bramble -/

protected theorem State.Mems.countScan {h : Half} {t : TileIx} {n m : Nat} {incomplete : Bool} (hs : s.Mems) :
    (s.countScan h t n m incomplete).Mems := by
  unfold State.countScan
  extract_lets b s1 s2
  have h1 : s2.Mems := .ite hs.bump.bumpBy.bump hs.bump.bumpBy
  exact .ite h1.bump h1

protected theorem State.Mems.doScanStart {h : Half} {t : TileIx} (hs : s.Mems) : (doScanStart h t s).Mems := by
  dsimp only [doScanStart]
  refine .ite ?_ hs
  split
  · exact .updTask (hs.updTile keeps)
  · exact hs

protected theorem State.Mems.doScanEnd {h : Half} {t : TileIx} {k : Nat} (hs : s.Mems) : (doScanEnd h t k s).Mems :=
  .ite (.dcDown (.countScan (.updTask (hs.updTile fun _ hx => Tile.put_memoryWf _ _ (Tile.put_memoryWf _ _ hx))))) hs

protected theorem State.Mems.doBrambleScrub {h : Half} {t : TileIx} {p : Nat} {ecc : EccOutcome} (hs : s.Mems) :
    (doBrambleScrub h t p ecc s).Mems := by
  dsimp only [doBrambleScrub]
  refine .ite ?_ hs
  split
  · exact hs
  · exact hs.report
  · exact .report (hs.updTile keeps)

protected theorem State.Mems.doBrambleReload {h : Half} {t : TileIx} {p : Nat} (hs : s.Mems) : (doBrambleReload h t p s).Mems :=
  .ite (hs.updTile keeps) hs

/-! ### Link -/

protected theorem State.Mems.checkPortCfg {p : PortIx} (hs : s.Mems) : (s.checkPortCfg p).Mems := .ite hs.setRfld hs

protected theorem State.Mems.doAttemptEnd {p : PortIx} {ok : Bool} {mode : Nat} (hs : s.Mems) : (doAttemptEnd p ok mode s).Mems :=
  .ite hs (.ite hs.checkPortCfg (.ite hs (.ite (.portReturns (.setReg (.ite hs.calApply hs))) hs)))

protected theorem State.Mems.dropLink {p : PortIx} (hs : s.Mems) : (s.dropLink p).Mems := hs.abortRx.setReg.portFalls

protected theorem State.Mems.doLinkDown {p : PortIx} (hs : s.Mems) : (doLinkDown p s).Mems := .ite hs.dropLink hs

protected theorem State.Mems.doRemoteFault {p : PortIx} {on : Bool} (hs : s.Mems) : (doRemoteFault p on s).Mems := .ite hs.setRfld hs

/-! ### Ring -/

protected theorem State.Mems.ringPut {h : Half} {r : Nat} {req : HbmReq} {f : RingFrame} (hs : s.Mems) : (s.ringPut h r req f).Mems := by
  dsimp only [State.ringPut]
  exact .ite
    (.ite (.setEv (.setReg (.hbmWrite (.ite_fst hs hs.hbmWrite)))) (.setReg (.hbmWrite (.ite_fst hs hs.hbmWrite))))
    (.hbmWrite (.ite_fst hs hs.hbmWrite))

protected theorem State.Mems.p129Tick (hs : s.Mems) : s.p129Tick.Mems := .ite (hs.withPv rfl) hs

protected theorem State.Mems.ringSizeWrite {h : Half} {r : Nat} (hs : s.Mems) : (s.ringSizeWrite h r).Mems := hs.setRfld.setRfld

/-! ### Egress -/

protected theorem State.Mems.bumpTx {h : Half} {lp m n : Nat} (hs : s.Mems) : (s.bumpTx h lp m n).Mems := hs.bumpBy

protected theorem State.Mems.selectHead {h : Half} {q : Nat} {e : QEntry} {rest : List QEntry} (hs : s.Mems) :
    (s.selectHead h q e rest).Mems := .updSched (.setSels (.withSched hs (fun h1 => h1.selectTags.setQueue)))

protected theorem State.Mems.dropHead {h : Half} {q : Nat} {e : QEntry} {rest : List QEntry} (hs : s.Mems) :
    (s.dropHead h q e rest).Mems := .release (.withSched hs (fun h1 => h1.setQueue))

protected theorem State.Mems.doSchedSelect {h : Half} {lp : Nat} (hs : s.Mems) : (doSchedSelect h lp s).Mems := by
  dsimp only [doSchedSelect]
  refine .ite ?_ hs
  refine .ite ?_ hs.schedRefresh
  split
  · exact hs.schedRefresh
  · split
    · exact hs.schedRefresh
    · exact .ite hs.schedRefresh
        (.ite
           (.errorDrop (.withSched hs.schedRefresh (fun h1 => h1.setQueue)))
           (.ite hs.schedRefresh.dropHead.bumpTx hs.schedRefresh.selectHead))

protected theorem State.Mems.rewriteBytes {h : Half} {lp : Nat} {e : QEntry} (hs : s.Mems) : (s.rewriteBytes h lp e).1.Mems := by
  dsimp only [State.rewriteBytes]
  refine .ite_fst ?_ ?_
  · split
    · refine .bumpTx ?_
      refine .ite_fst ?_ hs
      split
      · exact hs
      · exact hs.bumpTx
    · refine .bumpTx ?_
      refine .ite_fst ?_ hs
      split
      · exact hs
      · exact hs.bumpTx
  · refine .ite_fst ?_ hs
    split
    · exact hs
    · exact hs.bumpTx

protected theorem State.Mems.doRewrite {h : Half} {lp : Nat} (hs : s.Mems) : (doRewrite h lp s).Mems := by
  dsimp only [doRewrite]
  split
  · exact hs
  · exact .ite hs (.ite hs.setSels.errorDrop hs.rewriteBytes.setSels)

protected theorem State.Mems.capture {p : PortIx} {g : List Byte} {o tx : Nat} (hs : s.Mems) : (s.capture p g o tx).Mems := by
  dsimp only [State.capture]
  exact .ite hs.setRfld hs.updIng

protected theorem State.Mems.ptpOp {p : PortIx} {d : ODesc} {g : List Byte} (hs : s.Mems) : (s.ptpOp p d g).1.Mems := by
  dsimp only [State.ptpOp]
  split
  · exact hs
  · refine .ite_fst ?_ hs
    split
    · exact hs.capture
    · exact hs
    · exact hs

protected theorem State.Mems.popTxts {p : PortIx} (hs : s.Mems) : (s.popTxts p).Mems := hs.updIng

protected theorem State.Mems.telemPut {h : Half} {bs : List Byte} (hs : s.Mems) : (s.telemPut h bs).Mems := by
  dsimp only [State.telemPut]
  refine .ite hs.bump ?_
  split
  · next s1 e => exact hs.hbmWrite.of_fst e
  · next s1 e => exact .ite (.svcEvent (.bump (.setRfld (hs.hbmWrite.of_fst e)))) (.bump (.setRfld (hs.hbmWrite.of_fst e)))

protected theorem State.Mems.telemetry {h : Half} {lp : Nat} {f : Sel} (hs : s.Mems) : (s.telemetry h lp f).Mems :=
  .ite (.ite hs.updSched hs.telemPut) hs

protected theorem State.Mems.telemTick {h : Half} (hs : s.Mems) : (s.telemTick h).Mems := by
  dsimp only [State.telemTick]
  split
  · exact hs
  · exact .ite hs hs.updSched.telemPut

protected theorem State.Mems.telemSizeWrite {h : Half} (hs : s.Mems) : (s.telemSizeWrite h).Mems := hs.setRfld.setRfld

protected theorem State.Mems.firstBit {h : Half} {lp : Nat} {f : Sel} (hs : s.Mems) : (s.firstBit h lp f).Mems :=
  .telemetry (.ite hs.bumpTx.bumpTx.bumpTx hs.bumpTx.bumpTx)

protected theorem State.Mems.loopChain {h : Half} {id : Nat} {g : List Byte} (hs : s.Mems) : (s.loopChain h id g).1.Mems := by
  dsimp only [State.loopChain]
  exact .ite_fst (.ite hs.updBuf.growChain hs.updBuf) hs.addChain

protected theorem State.Mems.doTransmit {h : Half} {lp : Nat} (hs : s.Mems) : (doTransmit h lp s).Mems := by
  dsimp only [doTransmit]
  split
  · exact hs
  · exact .ite hs
      (.ite hs
         (.ite hs.setSels.errorDrop
            (.ite hs.firstBit.ptpOp.setSels
               (.ite (.updIng (.ite hs.firstBit.setSels.loopChain hs.firstBit.setSels.loopChain.release)) hs.firstBit.setSels.rest))))

protected theorem State.Mems.doReadEnd {h : Half} {lp : Nat} (hs : s.Mems) : (doReadEnd h lp s).Mems := by
  dsimp only [doReadEnd]
  split
  · exact hs
  · exact .ite hs.setSels.bumpPort.release (.ite hs.setSels.errorDrop hs.setSels.release)

protected theorem State.Mems.doFrameOut {h : Half} {lp : Nat} (hs : s.Mems) : (doFrameOut h lp s).Mems := .ite hs hs.setSels

protected theorem State.Mems.doRingDeliver {h : Half} {v : Fin 2} (hs : s.Mems) : (doRingDeliver h v s).Mems := by
  dsimp only [doRingDeliver]
  split
  · exact hs
  · exact .ite hs (.ite hs.setSels.errorDrop (.release (.setSels (.ite hs.firstBit.ringPut (hs.firstBit.withPv rfl)))))

protected theorem State.Mems.doShaperRefill {h : Half} {level : Fin 3} {i : Nat} (hs : s.Mems) : (doShaperRefill h level i s).Mems :=
  .ite hs.setBucket.schedRefresh hs

protected theorem State.Mems.schedTickPort {h : Half} {lp : Nat} (hs : s.Mems) : (State.schedTickPort h s lp).Mems :=
  .ite (.bumpTx (.ite hs.bumpTx hs)) (.ite hs.bumpTx hs)

/-! ### Ford -/

protected theorem State.Mems.updFord {h : Half} {f : FordState → FordState} (hs : s.Mems) : (s.updFord h f).Mems := hs.rest

protected theorem State.Mems.endCrossing {h : Half} {id : Nat} (hs : s.Mems) : (s.endCrossing h id).Mems := hs.rest.updFord.release

protected theorem State.Mems.doCrossSend {h : Half} (hs : s.Mems) : (doCrossSend h s).Mems := by
  dsimp only [doCrossSend]
  split
  · exact hs
  · exact .ite (.ite hs.pointerFault.bumpPort.endCrossing hs.updFord.updFord.bump) hs

protected theorem State.Mems.takeCrossing {h : Half} {r : CrossRec} (hs : s.Mems) : (s.takeCrossing h r).Mems := by
  dsimp only [State.takeCrossing]
  refine .ite ?_ hs.bump
  split
  · exact hs.addChain.rest.updBuf
  · exact hs.addChain.rest.updBuf

protected theorem State.Mems.doCrossReceipt {h : Half} (hs : s.Mems) : (doCrossReceipt h s).Mems := by
  dsimp only [doCrossReceipt]
  split
  · exact hs
  · exact .ite hs.updFord.takeCrossing.examineFrom.updFord.bump hs

protected theorem State.Mems.doCrossAck {h : Half} (hs : s.Mems) : (doCrossAck h s).Mems := by
  dsimp only [doCrossAck]
  split
  · exact hs
  · exact .ite hs.updFord.endCrossing hs.updFord

protected theorem State.Mems.doNoticeSend {h : Half} (hs : s.Mems) : (doNoticeSend h s).Mems := .ite hs.updFord hs

protected theorem State.Mems.doNoticeReceive {h : Half} (hs : s.Mems) : (doNoticeReceive h s).Mems := by
  dsimp only [doNoticeReceive]
  split
  · exact hs
  · exact hs.updFord.rest.updTab

protected theorem State.Mems.doHeartbeatSend {h : Half} (hs : s.Mems) : (doHeartbeatSend h s).Mems := .ite hs.updFord hs

protected theorem State.Mems.doHeartbeatReceive {h : Half} (hs : s.Mems) : (doHeartbeatReceive h s).Mems := by
  dsimp only [doHeartbeatReceive]
  split
  · exact hs
  · exact hs.updFord

protected theorem State.Mems.doFatalNotice {h : Half} (hs : s.Mems) : (doFatalNotice h s).Mems := .ite hs.updFord hs

protected theorem State.Mems.unavailableH1 (hs : s.Mems) : s.unavailableH1.Mems :=
  ⟨hs.hbm, hs.tiles.upd fun _ hts => Tiles.memoryWf_map hts fun _ hx => hx, hs.flash⟩

protected theorem State.Mems.runFree (hs : s.Mems) : s.runFree.Mems := hs.rest

protected theorem State.Mems.losePeerWork {h : Half} (hs : s.Mems) : (s.losePeerWork h).Mems := by
  unfold State.losePeerWork
  extract_lets f s1 s2
  have h1 : s2.Mems := hs.bump.updFord.foldl fun h1 => h1.endCrossing.bump
  exact .updTime (.ite h1.dropHalfLocks h1.unavailableH1)

protected theorem State.Mems.losePeer {h : Half} (hs : s.Mems) : (s.losePeer h).Mems := hs.report.losePeerWork

protected theorem State.Mems.doPeerLost {h : Half} (hs : s.Mems) : (doPeerLost h s).Mems := .ite hs.losePeer hs

protected theorem State.Mems.holdBasis {h : Half} {v : Nat} (hs : s.Mems) : (s.holdBasis h v).Mems := hs.setReg.updTab

protected theorem State.Mems.doPeerUp {h : Half} (hs : s.Mems) : (doPeerUp h s).Mems := .ite (.updFord (.ite hs.holdBasis hs)) hs

protected theorem State.Mems.useSpare {h : Half} {b lane : Nat} (hs : s.Mems) : (s.useSpare h b lane).Mems := hs.updFord.withPv rfl

protected theorem State.Mems.doFordTrained {h : Half} {failed : List (Nat × Nat)} (hs : s.Mems) : (doFordTrained h failed s).Mems :=
  .ite (.setReg (.used (.withPv (.updFord (hs.foldl fun h1 => h1.useSpare)) rfl))) hs

protected theorem State.Mems.doFordFlit {h : Half} {x : FordFlit} (hs : s.Mems) : (doFordFlit h x s).Mems :=
  .ite (.ite hs.updFord hs.bump) hs

protected theorem State.Mems.fordFallsWork {h : Half} (hs : s.Mems) : (s.fordFallsWork h).Mems := hs.runFree.updFord

protected theorem State.Mems.fordFalls {h : Half} (hs : s.Mems) : (s.fordFalls h).Mems := hs.fordFallsWork.report

protected theorem State.Mems.fenceBundle {h : Half} {b : Nat} (hs : s.Mems) : (s.fenceBundle h b).Mems := hs.updFord.withPv rfl

protected theorem State.Mems.dropFord {h : Half} (hs : s.Mems) : (s.dropFord h).Mems := .ite hs.fordFalls hs

protected theorem State.Mems.doFordDown {h : Half} (hs : s.Mems) : (doFordDown h s).Mems := .ite hs.fordFalls hs

protected theorem State.Mems.laneFails {h : Half} {b lane : Nat} (hs : s.Mems) : (s.laneFails h b lane).Mems :=
  .ite hs (.ite hs.updFord (.ite hs.fenceBundle.report.fordFalls hs.fenceBundle.report))

protected theorem State.Mems.doLaneCheck {h : Half} {b lane errors : Nat} (hs : s.Mems) : (doLaneCheck h b lane errors s).Mems :=
  .ite (.ite hs.updFord.laneFails hs.updFord) hs

protected theorem State.Mems.doLaneRepaired {h : Half} {b lane : Nat} (hs : s.Mems) : (doLaneRepaired h b lane s).Mems :=
  .ite hs.updFord.useSpare.bump.report hs

/-! ### HbmParts -/

protected theorem State.Mems.finishPart {h : Half} {q : HbmPart} {d : PartData} (hs : s.Mems) : (s.finishPart h q d).Mems :=
  hs.updResponse

protected theorem State.Mems.failParts {h : Half} {st : Fin 2} (hs : s.Mems) : (s.failParts h st).Mems :=
  .foldl (hs.updHbm keeps) fun h1 => h1.finishPart

/-! ### Learn -/

protected theorem State.Mems.notePut {h : Half} {bs : List Byte} (hs : s.Mems) : (s.notePut h bs).Mems := by
  dsimp only [State.notePut]
  refine .ite hs.bump ?_
  split
  · next s1 e => exact hs.hbmWrite.of_fst e
  · next s1 e => exact .ite (.svcEvent (.setRfld (hs.hbmWrite.of_fst e))) (.setRfld (hs.hbmWrite.of_fst e))

protected theorem State.Mems.learnNote {h : Half} {n : Note} (hs : s.Mems) : (s.learnNote h n).Mems :=
  .ite hs.used.updTab hs.used.notePut

protected theorem State.Mems.noteTick {h : Half} (hs : s.Mems) : (s.noteTick h).Mems := by
  dsimp only [State.noteTick]
  split
  · exact hs
  · exact .ite hs (.notePut hs.updTab)

protected theorem State.Mems.noteSizeWrite {h : Half} (hs : s.Mems) : (s.noteSizeWrite h).Mems := hs.setRfld.setRfld

protected theorem State.Mems.learnRefresh {h : Half} {i : Nat} {e : ExEntry} (hs : s.Mems) : (s.learnRefresh h i e).Mems := hs.setEx

protected theorem State.Mems.queueLearn {h : Half} {w : LearnWrite} (hs : s.Mems) : (s.queueLearn h w).Mems :=
  .ite hs (.ite hs.bump hs.updTab)

protected theorem State.Mems.doLearnExamine {h : Half} (hs : s.Mems) : (doLearnExamine h s).Mems := by
  dsimp only [doLearnExamine]
  split
  · exact hs
  · refine .ite ?_ hs
    split
    · exact .learnRefresh hs.updTab
    · exact .ite (.queueLearn hs.updTab) hs.updTab
    · exact .bump hs.updTab
    · exact .queueLearn hs.updTab

protected theorem State.Mems.shareLearn {h : Half} {w : LearnWrite} (hs : s.Mems) : (s.shareLearn h w).Mems := .ite hs.rest hs

protected theorem State.Mems.doLearnWrite {h : Half} (hs : s.Mems) : (doLearnWrite h s).Mems := by
  dsimp only [doLearnWrite]
  split
  · exact hs
  · refine .ite ?_ hs
    split
    · exact .learnRefresh hs.updTab
    · exact .bump hs.updTab
    · exact .ite (.shareLearn (.learnNote (.bump (.setEx hs.updTab)))) hs.updTab
    · split
      · next s2 i e =>
        refine .shareLearn (.learnNote (.bump (.setEx (.of_fst ?_ e))))
        exact .exSlot hs.updTab
      · next s2 e =>
        refine .learnNote (.bump (.of_fst ?_ e))
        exact .exSlot hs.updTab

protected theorem State.Mems.doLearnShare {h : Half} (hs : s.Mems) : (doLearnShare h s).Mems := by
  dsimp only [doLearnShare]
  split
  · exact hs
  · exact .ite hs.rest.updTab hs.rest

protected theorem State.Mems.ageExact {h : Half} {i : Nat} (hs : s.Mems) : (s.ageExact h i).Mems := by
  dsimp only [State.ageExact]
  split
  · exact hs
  · exact .ite hs (.ite (.ite hs.dropEx.bump.learnNote hs.setEx) (.ite hs.setEx.learnNote hs.setEx))

protected theorem State.Mems.ageFlow {h : Half} {slot : Nat} (hs : s.Mems) : (s.ageFlow h slot).Mems := by
  dsimp only [State.ageFlow]
  refine .ite ?_ ?_
  · split
    · exact .ite hs.flowRemove.bump hs
    · exact hs
  · refine .ite ?_ hs
    split
    · next s1 r e => exact .ite ((hs.flowRead.of_fst e).flowRemove.bump) (hs.flowRead.of_fst e)
    · next s1 e => exact (hs.flowRead.of_fst e).flowLost

protected theorem State.Mems.doAgingVisit {h : Half} {flow : Bool} {i : Nat} (hs : s.Mems) : (doAgingVisit h flow i s).Mems :=
  .ite (.ite hs.ageFlow hs.ageExact) hs

protected theorem State.Mems.leaveBatch {h : Half} {i : Nat} {e : ExEntry} (hs : s.Mems) : (s.leaveBatch h i e).Mems :=
  .dropEx (.ite hs hs.dropTouch)

protected theorem State.Mems.learnedLost {h : Half} {i : Nat} (hs : s.Mems) : (s.learnedLost h i).Mems := by
  dsimp only [State.learnedLost]
  split
  · exact .ite hs.leaveBatch.learnNote hs
  · exact hs

protected theorem State.Mems.withhold {h : Half} {t i : Nat} (hs : s.Mems) : (s.withhold h t i).Mems := hs.updTab

protected theorem State.Mems.doEntryRepaired {h : Half} {t i : Nat} (hs : s.Mems) : (doEntryRepaired h t i s).Mems :=
  .ite hs.fromShadow.updTab hs

protected theorem State.Mems.doShadowVisit {h : Half} {t i : Nat} {differs last : Bool} (hs : s.Mems) :
    (doShadowVisit h t i differs last s).Mems :=
  .ite (.ite (.setReg (.ite (.ite hs.report.bump.updTab hs.report.bump) hs))
    (.ite (.ite hs.report.bump.updTab hs.report.bump) hs)) hs

protected theorem State.Mems.doShadowRepaired {h : Half} {t i : Nat} (hs : s.Mems) : (doShadowRepaired h t i s).Mems :=
  .ite (.bump hs.fromShadow.updTab) hs

/-! ### ThreadCtl -/

protected theorem State.Mems.haltNow {th : ThreadRef} (hs : s.Mems) : (s.haltNow th).Mems := by
  dsimp only [State.haltNow]
  split
  · split
    · exact .updTask hs.updThread
    · exact hs.updThread
  · exact hs.updThread

protected theorem State.Mems.resumeNow {th : ThreadRef} (hs : s.Mems) : (s.resumeNow th).Mems := by
  dsimp only [State.resumeNow]
  split
  · split
    · exact .updTask hs.updThread
    · exact hs.updThread
  · exact hs.updThread

protected theorem State.Mems.doThreadHalt {th : ThreadRef} (hs : s.Mems) : (doThreadHalt th s).Mems := .ite hs.updThread hs

protected theorem State.Mems.doHaltComplete {th : ThreadRef} (hs : s.Mems) : (doHaltComplete th s).Mems := .ite hs.haltNow hs

protected theorem State.Mems.doThreadResume {th : ThreadRef} (hs : s.Mems) : (doThreadResume th s).Mems := .ite hs.resumeNow hs

protected theorem State.Mems.doThreadPost {th : ThreadRef} (hs : s.Mems) : (doThreadPost th s).Mems := hs.raiseInt

protected theorem State.Mems.doThreadKill {th : ThreadRef} (hs : s.Mems) : (doThreadKill th s).Mems := by
  dsimp only [doThreadKill]
  split
  · split
    · exact hs.discardTask.updThread
    · exact hs
  · exact hs

protected theorem State.Mems.doEvPost {th : ThreadRef} {m : Word} (hs : s.Mems) : (doEvPost th m s).Mems := hs.setEv

protected theorem State.Mems.doThreadCtl {th : ThreadRef} {v : DWord} (hs : s.Mems) : (doThreadCtl th v s).Mems := by
  unfold doThreadCtl
  extract_lets s1 s2 s3
  have h1 : s1.Mems := .ite hs.doThreadHalt hs
  have h2 : s2.Mems := .ite h1.doThreadResume h1
  have h3 : s3.Mems := .ite h2.doThreadKill h2
  exact .ite h3.doThreadPost h3

/-! ### UnitEnd -/

protected theorem State.Mems.clearRegs {s0 : State} {us : List UnitId} {dest : UState} (hs : s.Mems) : (s.clearRegs s0 us dest).Mems :=
  hs.rest

protected theorem State.Mems.endCore {h : Half} {t : TileIx} {c k : Fin 4} {dest : UState} {reason : Nat} (hs : s.Mems) :
    (s.endCore h t c k dest reason).Mems := by
  dsimp only [State.endCore]
  refine hs.foldl fun h1 => .updThread ?_
  split
  · exact h1.discardTask
  · exact h1

protected theorem State.Mems.endCluster {h : Half} {t : TileIx} {c : Fin 4} (hs : s.Mems) : (s.endCluster h t c).Mems := by
  dsimp only [State.endCluster]
  refine .foldl (.foldl (.foldl (.rest (hs.updTile keeps)) fun h1 => .ite h1.settleSlot h1.dcDown) fun h1 => .ite h1.settleSlot h1.dcDown)
    fun h1 => ?_
  refine .releaseInst ?_
  split
  · exact h1.updTile keeps
  · exact h1

protected theorem State.Mems.endTile {h : Half} {t : TileIx} {dest : UState} (hs : s.Mems) : (s.endTile h t dest).Mems :=
  .updTile (hs.foldl fun h1 => h1.discardTask) keeps

protected theorem State.Mems.endPort {p : PortIx} (hs : s.Mems) : (s.endPort p).Mems := .updIng (.ite hs.dropLink hs.abortRx)

protected theorem State.Mems.endBuffer {h : Half} (hs : s.Mems) : (s.endBuffer h).Mems :=
  ⟨hs.hbm, hs.tiles.upd fun _ hts => Tiles.memoryWf_map hts fun _ hx => hx, hs.flash⟩

protected theorem State.Mems.endSched {h : Half} (hs : s.Mems) : (s.endSched h).Mems := .updSched (hs.foldl fun h1 => h1.loseSelected)

protected theorem State.Mems.dropQueued {h : Half} {st : Fin 2} (hs : s.Mems) : (s.dropQueued h st).Mems :=
  hs.foldl fun h1 => h1.foldl fun h2 => h2.used.updHbm fun _ => HbmState.dropGran_wf

protected theorem State.Mems.endHbmc {h : Half} {st : Fin 2} (hs : s.Mems) : (s.endHbmc h st).Mems := hs.failParts.dropQueued.updHbm keeps

protected theorem State.Mems.endFord {h : Half} (hs : s.Mems) : (s.endFord h).Mems := .updFord (.runFree (.ite hs.losePeer hs))

protected theorem State.Mems.endTable {h : Half} {n : Fin 8} {dest : UState} (hs : s.Mems) : (s.endTable h n dest).Mems :=
  .ite hs.versionEnds (.ite hs.updTab (.ite hs.updTab (.ite hs.updTab hs)))

protected theorem State.Mems.endInFlight {h : Half} {dest : UState} (hs : s.Mems) : (s.endInFlight h dest).Mems := by
  unfold State.endInFlight
  extract_lets s1 s2
  have h1 : s1.Mems := hs.foldl fun h1 => h1.endTile.foldl fun h2 => h2.endCluster
  have h2 : s2.Mems := h1.foldl fun h2 => h2.abortRx
  exact h2.foldl fun h3 => h3.loseSelected

protected theorem State.Mems.endHalf {h : Half} {dest : UState} (hs : s.Mems) : (s.endHalf h dest).Mems := by
  unfold State.endHalf
  extract_lets s1 s2 locks0
  have h2 : s2.Mems := hs.endInFlight.dropHalfLocks.versionEnds.endFord.dropQueued.dropQueued.endBuffer
  exact ⟨h2.hbm.upd keeps, h2.tiles.upd fun _ hts => Tiles.memoryWf_map hts fun _ hx => hx, h2.flash⟩

protected theorem State.Mems.endUnit {u : UnitId} {dest : UState} (hs : s.Mems) : (s.endUnit u dest).Mems := by
  dsimp only [State.endUnit]
  split
  · exact hs.endHalf
  · exact hs.endCore
  · exact hs.endCluster
  · exact hs.endTile
  · exact hs.endPort
  · exact hs.endBuffer
  · exact hs.endSched
  · exact hs.endHbmc
  · exact hs.endFord
  · exact hs.endTable
  · exact hs

/-! ### Trans -/

protected theorem State.Mems.settleForce {u : UnitId} {st : UState} (hs : s.Mems) : (s.settleForce u st).Mems := .ite hs hs.setRfld

protected theorem State.Mems.settleCommits (hs : s.Mems) : s.settleCommits.Mems := hs.rest

protected theorem State.Mems.endWork {us : List UnitId} {dest : UState} (hs : s.Mems) : (s.endWork us dest).Mems :=
  hs.foldl fun h1 => .ite h1 h1.endUnit

protected theorem State.Mems.beginEntry {root : UnitId} {dest : UState} {cause : BitVec 8} (hs : s.Mems) :
    (s.beginEntry root dest cause).Mems := by
  unfold State.beginEntry
  extract_lets us s1 s2
  have h1 : s2.Mems := hs.endWork.clearRegs.foldl fun h1 => h1.updUnit.settleForce
  exact .ite h1 h1.rest.settleCommits

protected theorem State.Mems.setUState {u : UnitId} {st : UState} {cause : BitVec 8} (hs : s.Mems) : (s.setUState u st cause).Mems :=
  hs.updUnit

protected theorem State.Mems.takeDts {h : Half} (hs : s.Mems) : (s.takeDts h).Mems := hs.updTime

protected theorem State.Mems.fenceLost {h : Half} {t : TileIx} (hs : s.Mems) : (s.fenceLost h t).Mems := by
  dsimp only [State.fenceLost]
  refine .ite ?_ ?_
  · refine .setUState ?_
    split
    · exact hs.setUState
    · exact hs
  · split
    · exact hs.setUState
    · exact hs

protected theorem State.Mems.reapplyMaps {h : Half} (hs : s.Mems) : (s.reapplyMaps h).Mems :=
  .updFord (.setReg (hs.foldl fun h1 => h1.fenceLost))

protected theorem State.Mems.leaveReset {u : UnitId} (hs : s.Mems) : (s.leaveReset u).Mems := by
  dsimp only [State.leaveReset]
  split
  · exact hs.reapplyMaps.takeDts
  · exact hs

protected theorem State.Mems.startCores {h : Half} (hs : s.Mems) : (s.startCores h).Mems := hs.rest

protected theorem State.Mems.onActive {u : UnitId} (hs : s.Mems) : (s.onActive u).Mems := by
  dsimp only [State.onActive]
  split
  · exact hs.checkPortCfg
  · exact .ite hs.updHub.startCores hs.updHub
  · exact .ite hs.holdBasis.holdBasis hs
  · exact .ite (hs.updTile keeps) hs
  · exact hs

protected theorem State.Mems.leaveActive {u : UnitId} (hs : s.Mems) : (s.leaveActive u).Mems := by
  dsimp only [State.leaveActive]
  split
  · exact .ite hs.dropLink hs.abortRx
  · exact hs

protected theorem State.Mems.enterUp {u : UnitId} {st : UState} {cause : BitVec 8} (hs : s.Mems) : (s.enterUp u st cause).Mems := by
  unfold State.enterUp
  extract_lets s1 s2
  have h1 : s1.Mems := .ite hs.leaveReset (.ite hs.leaveActive hs)
  exact .ite h1.setUState.settleForce.onActive h1.setUState.settleForce

protected theorem State.Mems.enterTest {u : UnitId} {cause : BitVec 8} (hs : s.Mems) : (s.enterTest u cause).Mems :=
  hs.enterUp.foldl fun h1 => h1.enterUp

protected theorem State.Mems.activeTree {u : UnitId} {cause : BitVec 8} (hs : s.Mems) : (s.activeTree u cause).Mems :=
  hs.foldl fun h1 => .ite h1.enterUp h1

protected theorem State.Mems.completeEntry {u : UnitId} (hs : s.Mems) : (s.completeEntry u).Mems := by
  dsimp only [State.completeEntry]
  refine hs.foldl fun h1 => ?_
  split
  · exact h1
  · split
    · exact .ite h1.setUState.enterUp h1.setUState
    · exact h1.setUState

protected theorem State.Mems.reqReset {a : Agent} {u : UnitId} (hs : s.Mems) : (s.reqReset a u).Mems := .ite hs.beginEntry hs

protected theorem State.Mems.reqTest {a : Agent} {u : UnitId} (hs : s.Mems) : (s.reqTest a u).Mems := .ite hs.enterTest hs

protected theorem State.Mems.reqActive {a : Agent} {u : UnitId} (hs : s.Mems) : (s.reqActive a u).Mems := .ite hs.enterUp hs

protected theorem State.Mems.reqFence {a : Agent} {u : UnitId} (hs : s.Mems) : (s.reqFence a u).Mems := .ite hs.beginEntry hs

protected theorem State.Mems.reqOff {a : Agent} {u : UnitId} (hs : s.Mems) : (s.reqOff a u).Mems := .ite hs.beginEntry hs

protected theorem State.Mems.reqTree {a : Agent} {u : UnitId} (hs : s.Mems) : (s.reqTree a u).Mems := .ite hs.activeTree hs

protected theorem State.Mems.request {a : Agent} {u : UnitId} {r : Nat} (hs : s.Mems) : (s.request a u r).Mems := by
  dsimp only [State.request]
  split
  · exact hs.reqReset
  · exact hs.reqTest
  · exact hs.reqActive
  · exact hs.reqFence
  · exact hs.reqOff
  · exact hs.reqTree
  · exact hs

protected theorem State.Mems.fenceUnit {u : UnitId} {cause : BitVec 8} (hs : s.Mems) : (s.fenceUnit u cause).Mems :=
  .ite hs.beginEntry hs

protected theorem State.Mems.doEntryComplete {u : UnitId} (hs : s.Mems) : (doEntryComplete u s).Mems := .ite hs.completeEntry hs

protected theorem State.Mems.setDev {d : DevState} (hs : s.Mems) : (s.setDev d).Mems :=
  .ite (hs.rest.foldl fun h1 => .ite h1 h1.setRfld) hs.rest

protected theorem State.Mems.doDevRun {a : Agent} (hs : s.Mems) : (doDevRun a s).Mems := .ite hs.setDev hs

protected theorem State.Mems.doDevRecovery {a : Agent} (hs : s.Mems) : (doDevRecovery a s).Mems := .ite hs.setDev hs

/-! ### Commit -/

protected theorem State.Mems.startCommit {u : UnitId} (hs : s.Mems) : (s.startCommit u).Mems := hs.rest.settleCommits

protected theorem State.Mems.setArmed {u : UnitId} {b : Bool} (hs : s.Mems) : (s.setArmed u b).Mems := hs.updUnit

protected theorem State.Mems.armCommit {u : UnitId} (hs : s.Mems) : (s.armCommit u).Mems := .ite hs.setArmed.startCommit hs.setArmed

protected theorem State.Mems.commitKey {u : UnitId} {key : Nat} (hs : s.Mems) : (s.commitKey u key).Mems := by
  dsimp only [State.commitKey]
  split
  · exact hs.startCommit
  · exact hs.armCommit
  · exact hs.setArmed
  · exact hs

protected theorem State.Mems.doArmedStart {u : UnitId} (hs : s.Mems) : (doArmedStart u s).Mems := .ite hs.setArmed.startCommit hs

protected theorem State.Mems.doCommitReach {u : UnitId} (hs : s.Mems) : (doCommitReach u s).Mems := hs.rest.settleCommits

protected theorem State.Mems.applyReg {b : Blk} {off : Nat} (hs : s.Mems) : (s.applyReg b off).Mems := by
  dsimp only [State.applyReg]
  split
  · exact .ite hs.setReg hs
  · exact hs

protected theorem State.Mems.applyRegs {u : UnitId} (hs : s.Mems) : (s.applyRegs u).Mems := by
  dsimp only [State.applyRegs]
  refine hs.foldl fun h1 => ?_
  split
  · exact h1.applyReg
  · exact h1

protected theorem State.Mems.refillPort {h : Half} {lp : Nat} (hs : s.Mems) : (s.refillPort h lp).Mems := by
  unfold State.refillPort
  exact .setBucket (.foldl (hs.foldl fun h1 => h1.setBucket) fun h1 => h1.setBucket)

protected theorem State.Mems.applySched {h : Half} (hs : s.Mems) : (s.applySched h).Mems :=
  .foldl (.applyRegs (hs.foldl fun h1 => h1.refillPort)) fun h1 => h1.schedRefresh

protected theorem State.Mems.applySides {p : PortIx} (hs : s.Mems) : (s.applySides p).Mems := hs.rest

protected theorem State.Mems.towardsSafe {u : UnitId} (hs : s.Mems) : (s.towardsSafe u).Mems := by
  dsimp only [State.towardsSafe]
  split
  · exact hs.applySides
  · exact hs

protected theorem State.Mems.applyCommit {u : UnitId} (hs : s.Mems) : (s.applyCommit u).Mems := by
  dsimp only [State.applyCommit]
  refine .settleCommits ?_
  refine .rest ?_
  refine .updUnit ?_
  split
  · exact hs.applySched
  · exact hs.applyRegs

protected theorem State.Mems.doCommitApply {u : UnitId} (hs : s.Mems) : (doCommitApply u s).Mems :=
  .ite hs.towardsSafe.applyCommit hs.towardsSafe

/-! ### React -/

protected theorem State.Mems.pulse {h : Half} (hs : s.Mems) : (s.pulse h).Mems := hs.updHub

protected theorem State.Mems.doPulseEnd (hs : s.Mems) : (doPulseEnd s).Mems := hs.rest

protected theorem State.Mems.toRecovery (hs : s.Mems) : s.toRecovery.Mems := .ite hs.setDev hs

protected theorem State.Mems.countSkew {h : Half} (hs : s.Mems) : (s.countSkew h).Mems := hs.updTime

protected theorem State.Mems.noteFatal {h : Half} {u : UnitId} {injected : Bool} (hs : s.Mems) : (s.noteFatal h u injected).Mems :=
  hs.withPv rfl

protected theorem State.Mems.fatalHalf {h : Half} {cause : BitVec 8} {u : UnitId} (hs : s.Mems) : (s.fatalHalf h cause u).Mems :=
  .ite (.ite hs.pulse.toRecovery.noteFatal hs.pulse.toRecovery) hs.pulse.toRecovery.updFord.updHub.bump.noteFatal.fenceUnit

protected theorem State.Mems.fatalDevice {cause : BitVec 8} (hs : s.Mems) : (s.fatalDevice cause).Mems := hs.fatalHalf.fatalHalf

protected theorem State.Mems.updSpare {h : Half} {t : TileIx} {f : SpareInfo → SpareInfo} (hs : s.Mems) : (s.updSpare h t f).Mems :=
  hs.updTile keeps

protected theorem State.Mems.settleSpare {h : Half} {t : TileIx} (hs : s.Mems) : (s.settleSpare h t).Mems := by
  unfold State.settleSpare
  exact hs.updSpare

protected theorem State.Mems.fenceSpare {h : Half} {t : TileIx} (hs : s.Mems) : (s.fenceSpare h t).Mems := hs.fenceUnit

protected theorem State.Mems.physFails {h : Half} {t : TileIx} {phys : Nat} {injected : Bool} (hs : s.Mems) :
    (s.physFails h t phys injected).Mems := by
  dsimp only [State.physFails]
  refine .ite hs ?_
  split
  · exact hs.updSpare.openRecord.updSpare.fenceSpare.openRecord
  · exact hs.updSpare.openRecord.endCore.updSpare.fenceSpare.openRecord
  · exact .ite hs.updSpare.openRecord.updSpare.fenceUnit hs.updSpare.openRecord.fenceUnit.updSpare.openRecord

protected theorem State.Mems.coreReport {u : UnitId} {injected : Bool} (hs : s.Mems) : (s.coreReport u injected).Mems := by
  dsimp only [State.coreReport]
  split
  · exact .ite hs.updSpare.physFails hs.updSpare
  · exact hs

protected theorem State.Mems.coreFaultTask {h : Half} {t : TileIx} {n : Fin 128} (hs : s.Mems) : (s.coreFaultTask h t n).Mems := by
  dsimp only [State.coreFaultTask]
  split
  · exact hs.discardTask
  · exact hs

protected theorem State.Mems.doHandover {h : Half} {t : TileIx} (hs : s.Mems) : (doHandover h t s).Mems :=
  .ite (.bump (.enterUp (.updSpare (.ite hs.applyCommit hs)))) hs

protected theorem State.Mems.spareTested {h : Half} {t : TileIx} {ok : Bool} (hs : s.Mems) : (s.spareTested h t ok).Mems :=
  .ite (.ite hs.setUState.settleForce.setReg.bump.updSpare.settleSpare hs.report.physFails) hs

protected theorem State.Mems.applyAll {h : Half} {b : Nat} {l : List BatchRec} {t : State} (hs : s.Mems)
    (e : s.applyAll h b l = some t) : t.Mems := by
  induction l generalizing s with
  | nil => cases e; exact hs
  | cons r rest ih =>
    unfold State.applyAll at e
    split at e
    · exact ih hs.applyRec e
    · cases e

protected theorem State.Mems.doReweight {h : Half} {t : TileIx} (hs : s.Mems) : (doReweight h t s).Mems := by
  dsimp only [doReweight]
  refine .ite ?_ hs
  split
  · exact hs
  · exact hs.updSpare
  · split
    · next s1 e => exact (hs.updSlot.applyAll e).updSlot.postSlot.updSpare
    · exact hs.bump

protected theorem State.Mems.dropMailbox {slots : List Nat} (hs : s.Mems) : (s.dropMailbox slots).Mems := hs.foldl fun h1 => h1.setReg

protected theorem State.Mems.setPrivet {p : PrivetRun} (hs : s.Mems) : (s.setPrivet p).Mems := hs.rest

protected theorem State.Mems.restartPrivet {cause : BitVec 8} (hs : s.Mems) : (s.restartPrivet cause).Mems :=
  .dropMailbox (hs.setPrivet.rest.foldl fun h1 => h1.beginEntry)

protected theorem State.Mems.fencePrivet {cause : BitVec 8} (hs : s.Mems) : (s.fencePrivet cause).Mems :=
  .dropMailbox (hs.setPrivet.foldl fun h1 => h1.beginEntry)

protected theorem State.Mems.heartbeatActs {h : Half} {injected : Bool} (hs : s.Mems) : (s.heartbeatActs h injected).Mems :=
  .ite hs.fencePrivet.openRecord hs.restartPrivet

protected theorem State.Mems.countLoss {h : Half} (hs : s.Mems) : (s.countLoss h).Mems := hs.updHub

protected theorem State.Mems.doHbWindow {h : Half} (hs : s.Mems) : (doHbWindow h s).Mems :=
  .ite hs (.ite hs.updHub (.ite hs.updHub.countLoss hs.updHub.countLoss.report.heartbeatActs))

protected theorem State.Mems.doHbWrite {a : Agent} {h : Half} (hs : s.Mems) : (doHbWrite a h s).Mems := .ite hs.updHub hs

protected theorem State.Mems.doPrivetRelease {a : Agent} {h : Half} (hs : s.Mems) : (doPrivetRelease a h s).Mems :=
  .ite hs.rest.restartPrivet hs

protected theorem State.Mems.discardRx {h : Half} {port stamp : Nat} (hs : s.Mems) : (s.discardRx h port stamp).Mems := by
  dsimp only [State.discardRx]
  split
  · exact hs.cutFrame
  · exact .ite (.bump hs.dropFrame.updIng) hs.dropFrame.updIng
  · exact .ite (.bump hs.dropFrame.updIng) hs.dropFrame.updIng
  · exact .ite (.ite (.bump hs.dropFrame.updIng) hs.dropFrame.updIng) hs
  · exact hs

protected theorem State.Mems.stompTx {p : PortIx} {stamp : Nat} (hs : s.Mems) : (s.stompTx p stamp).Mems := .ite hs.setSels.bumpPort hs

protected theorem State.Mems.reactTile {h : Half} {t : TileIx} {f : Found} (hs : s.Mems) : (s.reactTile h t f).Mems := by
  unfold State.reactTile
  extract_lets d off add
  refine .ite (hs.updTile fun x hx => ?_) (.ite (hs.updTile fun x hx => ?_) (.ite hs.discardTask (.ite (hs.updTile keeps)
    (.ite (.ite (.bump (hs.updTile keeps)) hs) hs))))
  · split
    · exact hx
    · split <;> exact hx
  · split <;> exact hx

protected theorem State.Mems.reactCore {h : Half} {t : TileIx} {c k : Fin 4} {f : Found} (hs : s.Mems) : (s.reactCore h t c k f).Mems :=
  .ite hs.coreFaultTask.coreReport (.ite (.coreReport (hs.foldl fun h1 => h1.coreFaultTask)) (.ite hs.raiseInt.bump hs))

protected theorem State.Mems.reactTable {h : Half} {n : Fin 8} {f : Found} (hs : s.Mems) : (s.reactTable h n f).Mems :=
  .ite hs.withhold
    (.ite hs.learnedLost (.ite (.ite hs.loseLine (.ite hs.updTab hs))
      (.ite (.ite hs.flowClear hs) (.ite (.ite hs.bump.updTab hs.bump) hs))))

protected theorem State.Mems.fenceBank {h : Half} {k : Nat} (hs : s.Mems) : (s.fenceBank h k).Mems := .ite (.setRfld hs.updBuf) hs

protected theorem State.Mems.dropSpilled {h : Half} {block : Nat} (hs : s.Mems) : (s.dropSpilled h block).Mems := by
  dsimp only [State.dropSpilled]
  split
  · exact hs.setSpill.bumpPort
  · exact hs

protected theorem State.Mems.dropUser {h : Half} {id : Nat} (hs : s.Mems) : (s.dropUser h id).Mems := by
  dsimp only [State.dropUser]
  split
  · exact .ite hs.setSels.bumpPort.release hs.setSels.bumpPort
  · split
    · exact .release (.bumpPort (.withSched hs (fun h1 => h1.setQueue)))
    · split
      · exact .settleReg (.release (.bumpPort hs.updBuf))
      · split
        · exact hs.setSpill.bumpPort.release
        · split
          · exact hs.bumpPort.endCrossing
          · exact .ite (.settleReg (.release hs.bump.updBuf)) hs.bump

protected theorem State.Mems.pointerFails {h : Half} {cell : Nat} (hs : s.Mems) : (s.pointerFails h cell).Mems := by
  dsimp only [State.pointerFails]
  split
  · exact hs.bump
  · exact .dropUser (.ite hs.updChain hs.updBuf)

protected theorem State.Mems.reactBuffer {h : Half} {f : Found} (hs : s.Mems) : (s.reactBuffer h f).Mems := by
  dsimp only [State.reactBuffer]
  refine .ite hs.updBuf ?_
  refine .ite hs.pointerFails ?_
  refine .ite ?_ (.ite hs.dropSpilled (.ite hs.updBuf (.ite hs.fenceBank hs)))
  split
  · exact .ite hs hs.updChain
  · exact hs

protected theorem State.Mems.flushPort {h : Half} {lp : Nat} (hs : s.Mems) : (s.flushPort h lp).Mems :=
  .flushEnd hs.loseSelected.updSched.setHold.updBuf

protected theorem State.Mems.reactHbmc {h : Half} {st : Fin 2} {f : Found} (hs : s.Mems) : (s.reactHbmc h st f).Mems :=
  .ite hs.bump
    (.ite (.rowFails (hs.bump.updHbm keeps)) (.ite hs.bump (.ite hs.fenceUnit
      (.ite (.ite (.fenceUnit (.openRecord (.updHbm (hs.updHbm keeps) keeps))) (.updHbm (hs.updHbm keeps) keeps)) hs))))

protected theorem State.Mems.reactFord {h : Half} {f : Found} (hs : s.Mems) : (s.reactFord h f).Mems :=
  .ite (.ite hs hs.countSkew)
    (.ite (.ite hs.fenceBundle.fordFalls hs.fenceBundle) (.ite hs.fordFallsWork (.ite (.ite hs.losePeerWork hs) hs)))

protected theorem State.Mems.lockLost {h : Half} {num : Nat} (hs : s.Mems) : (s.lockLost h num).Mems := by
  dsimp only [State.lockLost]
  split
  · exact hs.passOn.settlePrio.bump
  · exact hs

protected theorem State.Mems.react {f : Found} (hs : s.Mems) : (s.react f).Mems := by
  dsimp only [State.react]
  split
  · exact .ite hs (.fatalDevice (.ite hs.setRfld hs))
  · exact .ite hs.discardRx (.ite hs.fatalHalf hs)
  · exact .ite hs.fatalHalf (.ite hs.countLoss.heartbeatActs (.ite hs.fencePrivet hs))
  · exact hs.reactTile
  · exact .ite (hs.updTile keeps) hs
  · exact hs.reactCore
  · exact .ite (.ite hs.stompTx hs.discardRx) (.ite hs.fenceUnit hs)
  · exact hs.reactTable
  · exact .ite (.ite hs.updAssoc.bankFails hs.updAssoc) hs
  · exact hs.reactBuffer
  · exact .ite hs.flushPort hs
  · exact hs.reactHbmc
  · exact hs.reactFord
  · exact .ite hs.lockLost hs
  · exact .ite hs.restartPrivet (.ite (hs.withPv rfl) hs)
  · exact hs
  · exact hs

protected theorem State.Mems.faultAt {f : Found} (hs : s.Mems) : (s.faultAt f).Mems := by
  dsimp only [State.faultAt]
  split
  · exact hs
  · exact hs.openRecord.react

protected theorem State.Mems.fault {u : UnitId} {code : Nat} {d : optParam DWord 0} (hs : s.Mems) : (s.fault u code d).Mems := by
  dsimp only [State.fault]
  exact hs.found.faultAt

protected theorem State.Mems.doFaultReport {u : UnitId} {code : Nat} {d : DWord} (hs : s.Mems) : (doFaultReport u code d s).Mems :=
  .ite hs.fault hs

protected theorem State.Mems.force {u : UnitId} {code : Nat} (hs : s.Mems) : (s.force u code).Mems := hs.used.faultAt

protected theorem State.Mems.forceWrite {u : UnitId} {v : Nat} (hs : s.Mems) : (s.forceWrite u v).Mems :=
  .ite (hs.setRfld.foldl fun h1 => h1.force) hs

protected theorem State.Mems.armInv {u : UnitId} {sel : Nat} (hs : s.Mems) : (s.armInv u sel).Mems := .ite hs.setRfld.updUnit hs.setRfld

protected theorem State.Mems.recLoRead {a : Agent} {h : Half} (hs : s.Mems) : (s.recLoRead a h).Mems := hs.updHub

protected theorem State.Mems.recHiRead {a : Agent} {h : Half} (hs : s.Mems) : (s.recHiRead a h).1.Mems := by
  dsimp only [State.recHiRead]
  split
  · exact hs.updHub
  · exact hs

protected theorem State.Mems.recAck {a : Agent} {h : Half} {slot merged : Nat} (hs : s.Mems) : (s.recAck a h slot merged).Mems := by
  dsimp only [State.recAck]
  split
  · exact hs
  · exact .ite hs (.ite hs.bump (hs.foldl fun h1 => h1.updHub))

protected theorem State.Mems.detailARead {a : Agent} {h : Half} (hs : s.Mems) : (s.detailARead a h).1.Mems := by
  dsimp only [State.detailARead]
  split
  · exact hs.updHub
  · exact hs.updHub

protected theorem State.Mems.detailBRead {a : Agent} {h : Half} (hs : s.Mems) : (s.detailBRead a h).1.Mems := by
  dsimp only [State.detailBRead]
  split
  · exact hs.updHub
  · exact hs

protected theorem State.Mems.doPstoreRewrite {h : Half} {t : TileIx} {bank : Bool} {addr : Nat} (hs : s.Mems) :
    (doPstoreRewrite h t bank addr s).Mems := hs.updTile keeps

/-! ### Flash -/

protected theorem State.Mems.updPv {f : PrivetState → PrivetState} (hs : s.Mems) (hf : (f s.pv).flash = s.pv.flash) :
    (s.updPv f).Mems := hs.withPv hf

protected theorem State.Mems.flashWrite {a : Nat} {bs : List Byte} (hs : s.Mems) : (s.flashWrite a bs).Mems :=
  hs.withFlash (memory_wf_flashStore a bs hs.flash)

protected theorem State.Mems.flashErase {a n : Nat} (hs : s.Mems) : (s.flashErase a n).Mems :=
  hs.withFlash (memory_wf_filter _ hs.flash)

protected theorem State.Mems.eraseSector {k : Nat} (hs : s.Mems) : (s.eraseSector k).Mems := hs.updPv (by split <;> rfl)

protected theorem State.Mems.doEraseDone {k : Nat} (hs : s.Mems) : (doEraseDone k s).Mems := .ite (hs.flashErase.updPv rfl) hs

protected theorem State.Mems.dirWrite {k e : Nat} (hs : s.Mems) : (s.dirWrite k e).Mems := by
  dsimp only [State.dirWrite]
  exact hs.flashWrite

protected theorem State.Mems.dirPut {k e : Nat} (hs : s.Mems) : (s.dirPut k e).Mems := .ite (hs.updPv rfl) hs.dirWrite

protected theorem State.Mems.dirFlush (hs : s.Mems) : s.dirFlush.Mems := .foldl (hs.updPv rfl) fun h1 => h1.dirWrite

protected theorem State.Mems.chooseSlot {kind : Nat} (hs : s.Mems) : (s.chooseSlot kind).1.Mems := by
  dsimp only [State.chooseSlot]
  refine .ite_fst hs (.ite_fst hs.dirPut ?_)
  dsimp only
  exact hs.dirPut.updPv rfl

protected theorem State.Mems.bootSlot {kind : Nat} (hs : s.Mems) : (s.bootSlot kind).1.Mems := by
  dsimp only [State.bootSlot]
  exact .ite_fst hs.chooseSlot (.ite_fst hs.chooseSlot hs.chooseSlot)

/-! ### Store -/

protected theorem State.Mems.calWrite {user : Nat} (hs : s.Mems) : (s.calWrite user).Mems := .ite hs (hs.updPv rfl)

protected theorem State.Mems.storeCommit {t : State} (hs : s.Mems) (e : s.storeCommit = some t) : t.Mems := by
  unfold State.storeCommit at e
  dsimp only at e
  split at e
  · cases e
  · split at e
    · cases e; exact .eraseSector (.eraseSector (hs.flashWrite.updPv (by dsimp only)))
    · cases e; exact hs.flashWrite.updPv (by dsimp only)

protected theorem State.Mems.commitStore (hs : s.Mems) : s.commitStore.Mems := .getD (fun e => hs.storeCommit e) hs

protected theorem State.Mems.storeAgain (hs : s.Mems) : s.storeAgain.Mems := by
  dsimp only [State.storeAgain]
  split
  · exact hs.updPv rfl
  · split
    · exact hs.updPv rfl
    · exact .flashWrite (.flashWrite (hs.updPv rfl))

protected theorem State.Mems.doAutoCommit (hs : s.Mems) : (doAutoCommit s).Mems :=
  .ite (.ite (.commitStore (.ite hs.storeAgain hs)) (.ite hs.storeAgain hs)) hs

protected theorem State.Mems.storeRead (hs : s.Mems) : s.storeRead.1.Mems := by
  dsimp only [State.storeRead]
  split
  · exact hs
  · exact hs.report
  · exact hs.report
  · exact hs.report

protected theorem State.Mems.applyEntry {typ : Nat} {e : List Byte} (hs : s.Mems) : (s.applyEntry typ e).Mems := by
  dsimp only [State.applyEntry]
  split
  · exact hs.setBankStat
  · exact hs.foldl fun h1 => h1.fenceBank
  · exact hs.updSpare.fenceLost
  · exact .ite (hs.updPv rfl) (hs.updHbm fun _ hx => by split <;> exact hx)
  · exact hs.updHbm fun _ hx => by split <;> exact hx
  · exact .ite (hs.updFord.updPv rfl) hs
  · exact hs

protected theorem State.Mems.settleRepair {h : Half} {st : Fin 2} (hs : s.Mems) : (s.settleRepair h st).Mems := hs.setRfld.setRfld

protected theorem State.Mems.applyMaps {r : StoreRec} (hs : s.Mems) : (s.applyMaps r).Mems := by
  unfold State.applyMaps
  extract_lets s1 s2
  have h1 : s1.Mems := hs.foldl fun h1 => h1.foldl fun h2 => h2.applyEntry
  exact h1.settleRepair.settleRepair.settleRepair.settleRepair.updPv rfl

protected theorem State.Mems.doHubEvent {h : Half} (hs : s.Mems) : (doHubEvent h s).Mems := by
  dsimp only [doHubEvent]
  split
  · exact hs
  · exact .ite (.ite hs.updHub (hs.updHub.updPv rfl)) hs

protected theorem State.Mems.logWrite (hs : s.Mems) : s.logWrite.Mems := by
  dsimp only [State.logWrite]
  split
  · exact hs
  · exact .ite (.ite (hs.flashWrite.updPv rfl) (.eraseSector (hs.flashWrite.updPv rfl))) hs

protected theorem State.Mems.flushLog (hs : s.Mems) : s.flushLog.Mems := hs.foldl fun h1 => h1.logWrite

protected theorem State.Mems.doLogFlush (hs : s.Mems) : (doLogFlush s).Mems := .ite hs.flushLog hs

protected theorem State.Mems.logBoot (hs : s.Mems) : s.logBoot.Mems := by
  unfold State.logBoot
  exact hs.updPv rfl

/-! ### Image -/

protected theorem State.Mems.loadProgram {h : Half} {b : Nat} {bs : List Byte} {entry : Nat} (hs : s.Mems) :
    (s.loadProgram h b bs entry).Mems := hs.foldl fun h1 => (h1.updTile fun _ => Tile.loadBank_memoryWf _ _).setRfld

protected theorem State.Mems.loadParse {h : Half} {b : Nat} {bs : List Byte} (hs : s.Mems) : (s.loadParse h b bs).Mems := hs.updIng

protected theorem State.Mems.loadBanks {c : List Byte} {h : Half} {b : Nat} (hs : s.Mems) : (s.loadBanks c h b).Mems :=
  hs.foldl fun h1 => .ite h1.loadProgram (.ite h1.loadParse h1)

protected theorem State.Mems.loadCode {c : List Byte} {h : Half} (hs : s.Mems) : (s.loadCode c h).1.Mems := by
  dsimp only [State.loadCode]
  exact .foldl_fst hs fun h1 => h1.hbmPlace

protected theorem State.Mems.setCcEntry {c : List Byte} {h : Half} (hs : s.Mems) : (s.setCcEntry c h).Mems := by
  dsimp only [State.setCcEntry]
  split
  · exact hs.setRfld
  · exact hs

protected theorem State.Mems.stopCores {h : Half} (hs : s.Mems) : (s.stopCores h).Mems :=
  State.Mems.rest (hs.setRfld.foldl fun h1 => h1.abandonLocks)

protected theorem State.Mems.runCores {h : Half} (hs : s.Mems) : (s.runCores h).Mems := .ite hs.setRfld.startCores hs.setRfld

protected theorem State.Mems.reloadCores {c : List Byte} {h : Half} (hs : s.Mems) : (s.reloadCores c h).1.Mems := by
  dsimp only [State.reloadCores]
  exact .ite_fst hs.stopCores.loadCode.setCcEntry.runCores hs.stopCores.loadCode

protected theorem State.Mems.imgSettled (hs : s.Mems) : s.imgSettled.Mems := by
  dsimp only [State.imgSettled]
  split
  · exact .ite (hs.dirPut.updPv rfl) hs
  · exact hs

protected theorem State.Mems.doSwitch {h : Half} (hs : s.Mems) : (doSwitch h s).Mems := .ite hs.doImgSwitch (hs.doImgSwitch.updPv rfl)

protected theorem State.Mems.doDrainEnd {h : Half} (hs : s.Mems) : (doDrainEnd h s).Mems :=
  .ite hs.doImgDrainEnd hs.doImgDrainEnd.imgSettled

protected theorem State.Mems.runFirmware {build : Nat} (hs : s.Mems) : (s.runFirmware build).Mems := hs.updPv rfl

protected theorem State.Mems.hostBoot (hs : s.Mems) : s.hostBoot.Mems := .ite hs.setRfld.used.runFirmware hs.setRfld.used

protected theorem State.Mems.bootFirmware (hs : s.Mems) : s.bootFirmware.Mems := by
  unfold State.bootFirmware
  extract_lets s1
  have h1 : s1.Mems := hs.updPv rfl
  split
  · exact h1
  · exact h1.hostBoot
  · split
    next s2 slot e =>
    have h2 : s2.Mems := .of_fst (.ite_fst h1 h1.bootSlot) e
    split
    · exact h2.runFirmware
    · exact .ite h2.hostBoot (h2.updPv rfl)

protected theorem State.Mems.doEntryEnd {u : UnitId} (hs : s.Mems) : (doEntryEnd u s).Mems :=
  .ite (.bootFirmware (hs.doEntryComplete.updPv rfl)) hs.doEntryComplete

/-! ### Mailbox -/

protected theorem State.Mems.setMbCtl {slot : Nat} {v : DWord} (hs : s.Mems) : (s.setMbCtl slot v).Mems := hs.setReg

protected theorem State.Mems.mbAnswer {slot status : Nat} {rs : optParam (List (Nat × Nat)) []} (hs : s.Mems) :
    (s.mbAnswer slot status rs).Mems :=
  .ite (.setEv (.setMbCtl (hs.setReg.foldl fun h1 => h1.setReg))) (.setMbCtl (hs.setReg.foldl fun h1 => h1.setReg))

protected theorem State.Mems.mbGo {a : Agent} {slot : Nat} (hs : s.Mems) : (s.mbGo a slot).Mems :=
  .ite (.ite hs.setMbCtl.mbAnswer (.ite hs.setMbCtl.mbAnswer hs.setMbCtl)) hs

protected theorem State.Mems.mbRead {slot a n : Nat} (hs : s.Mems) : (s.mbRead slot a n).1.Mems := by
  dsimp only [State.mbRead]
  split
  · exact .ite_fst hs.rest hs
  · exact hs
  · exact hs.hbmRead

protected theorem State.Mems.mbWrite {slot a : Nat} {bs : List Byte} (hs : s.Mems) : (s.mbWrite slot a bs).1.Mems := by
  dsimp only [State.mbWrite]
  split
  · exact hs
  · exact hs
  · exact hs.hbmWrite

protected theorem State.Mems.stage {kind slot : Nat} {c : List Byte} (hs : s.Mems) : (s.stage kind slot c).1.Mems := by
  dsimp only [State.stage]
  split
  · split
    · exact hs.flashErase.flashWrite
    · exact hs.flashErase
  · exact hs.flashErase

protected theorem State.Mems.doImgStage {slot : Nat} (hs : s.Mems) : (doImgStage slot s).Mems := by
  dsimp only [doImgStage]
  refine .ite hs ?_
  refine .ite hs.mbAnswer ?_
  refine .ite hs.mbAnswer ?_
  split
  · next s1 c e =>
      split
      · next s2 e2 => exact ((hs.mbRead.of_fst e).stage.of_fst e2).mbAnswer
      · next s2 k e2 => exact ((hs.mbRead.of_fst e).stage.of_fst e2).mbAnswer
  · next s1 st _ e => exact (hs.mbRead.of_fst e).mbAnswer

protected theorem State.Mems.activateImage {slot img : Nat} {sw : DWord} (hs : s.Mems) : (s.activateImage slot img sw).Mems := by
  dsimp only [State.activateImage]
  refine .ite hs.mbAnswer ?_
  split
  · exact .ite
      (.mbAnswer (hs.foldl fun h1 => h1.loadBanks))
      (.ite
         (.mbAnswer (.foldl (.foldl (hs.foldl fun h1 => h1.loadBanks) fun h1 => h1.setReg.imgCtl) fun h1 => h1.imgCtl))
         (.mbAnswer (.imgSettled (.updPv (.foldl (hs.foldl fun h1 => h1.loadBanks) fun h1 => h1.setReg.imgCtl) rfl))))
  · exact hs.mbAnswer

protected theorem State.Mems.activateFirmware {slot img : Nat} (hs : s.Mems) : (s.activateFirmware slot img).Mems :=
  hs.dirPut.mbAnswer.rest.reqReset.dropMailbox

protected theorem State.Mems.loadSoftware {img halves : Nat} (hs : s.Mems) : (s.loadSoftware img halves).1.Mems := by
  dsimp only [State.loadSoftware]
  split
  · dsimp only
    exact .updPv (.foldl_fst hs fun h1 => h1.reloadCores) rfl
  · exact hs

protected theorem State.Mems.doImgActivate {slot : Nat} (hs : s.Mems) : (doImgActivate slot s).Mems := by
  dsimp only [doImgActivate]
  refine .ite hs ?_
  split
  · exact hs.mbAnswer
  · exact hs.activateFirmware
  · exact hs.activateImage
  · exact .ite hs.loadSoftware.dirPut.mbAnswer hs.loadSoftware.mbAnswer

protected theorem State.Mems.doCcReload {slot : Nat} (hs : s.Mems) : (doCcReload slot s).Mems := by
  dsimp only [doCcReload]
  exact hs.loadSoftware.mbAnswer

protected theorem State.Mems.doImgConfirm {slot : Nat} (hs : s.Mems) : (doImgConfirm slot s).Mems :=
  .ite hs (.ite hs.mbAnswer (.mbAnswer (.ite (hs.dirPut.updPv rfl) hs.dirPut)))

protected theorem State.Mems.doTftpStage {c : List Byte} (hs : s.Mems) : (doTftpStage c s).Mems := .ite hs.stage hs

protected theorem State.Mems.doInfo {slot : Nat} (hs : s.Mems) : (doInfo slot s).Mems := hs.mbAnswer

protected theorem State.Mems.doStoreCommit {slot : Nat} (hs : s.Mems) : (doStoreCommit slot s).Mems := by
  dsimp only [doStoreCommit]
  refine .ite hs ?_
  split
  · next s1 e => exact (hs.storeCommit e).mbAnswer
  · exact hs.mbAnswer

protected theorem State.Mems.doLogRead {slot : Nat} (hs : s.Mems) : (doLogRead slot s).Mems := by
  dsimp only [doLogRead]
  refine .ite hs.mbAnswer ?_
  split
  · next s1 e => exact .mbAnswer (hs.mbWrite.of_fst e)
  · next s1 st e => exact .mbAnswer (hs.mbWrite.of_fst e)

protected theorem State.Mems.doI2c {slot : Nat} {acks : Bool} {given : List Byte} (hs : s.Mems) : (doI2c slot acks given s).Mems := by
  dsimp only [doI2c]
  refine .ite hs.mbAnswer ?_
  split
  · next s1 _ e =>
      refine .ite ?_ ((hs.mbRead.of_fst e).mbAnswer)
      split
      · next s2 e2 => exact .mbAnswer (.of_fst ((hs.mbRead.of_fst e).mbWrite) e2)
      · next s2 st e2 => exact .mbAnswer (.of_fst ((hs.mbRead.of_fst e).mbWrite) e2)
  · next s1 st _ e => exact (hs.mbRead.of_fst e).mbAnswer

protected theorem State.Mems.doGrant {slot : Nat} (hs : s.Mems) : (doGrant slot s).Mems := hs.setRfld.mbAnswer

protected theorem State.Mems.doChallenge {slot : Nat} (hs : s.Mems) : (doChallenge slot s).Mems := .mbAnswer (hs.rest.updPv rfl)

protected theorem State.Mems.doUnlock {slot : Nat} (hs : s.Mems) : (doUnlock slot s).Mems := by
  dsimp only [doUnlock]
  split
  · next s1 token e => exact .ite (.mbAnswer ((hs.mbRead.of_fst e).updPv rfl)) (.mbAnswer ((hs.mbRead.of_fst e).updPv rfl))
  · next s1 st _ e => exact (hs.mbRead.of_fst e).mbAnswer

protected theorem State.Mems.lockDebug (hs : s.Mems) : s.lockDebug.Mems := hs.updPv rfl

protected theorem State.Mems.doTokenExpire {scope : Nat} (hs : s.Mems) : (doTokenExpire scope s).Mems := by
  dsimp only [doTokenExpire]
  split
  · exact .ite (hs.updPv rfl) hs
  · exact hs

protected theorem State.Mems.moveMgmt (hs : s.Mems) : s.moveMgmt.Mems := .ite hs.setRfld hs

protected theorem State.Mems.mgmtRing {bytes : List Byte} (hs : s.Mems) : (s.mgmtRing bytes).Mems := .ite hs.ringPut hs

protected theorem State.Mems.doMgmtReceive {frame : List Byte} (hs : s.Mems) : (doMgmtReceive frame s).Mems :=
  .ite (.ite (.mgmtRing (hs.moveMgmt.updPv rfl)) (.ite (hs.moveMgmt.updPv rfl) hs.moveMgmt.mgmtRing)) hs

protected theorem State.Mems.doMgmtTransmit (hs : s.Mems) : (doMgmtTransmit s).Mems := by
  dsimp only [doMgmtTransmit]
  refine .ite ?_ hs
  split
  · exact hs
  · exact .ite (.hbmRead (.ite_fst hs hs.used)) (.setRfld (.hbmRead (.ite_fst hs hs.used)))

/-! ### Sensors -/

protected theorem State.Mems.notifyDevice (hs : s.Mems) : s.notifyDevice.Mems := .ite hs.notifyHub hs.notifyHub

protected theorem State.Mems.takeTemp {n : Nat} {now : Int} (hs : s.Mems) : (s.takeTemp n now).Mems := hs.setReg

protected theorem State.Mems.tempAlarm {now : Int} (hs : s.Mems) : (s.tempAlarm now).Mems := .ite (.ite hs hs.setRfld.notifyDevice) hs

protected theorem State.Mems.tempLimit {n : Nat} {now : Int} (hs : s.Mems) : (s.tempLimit n now).Mems := .ite hs.setRfld.fault hs

protected theorem State.Mems.tempCool (hs : s.Mems) : s.tempCool.Mems := by
  unfold State.tempCool
  exact hs.updPv rfl

protected theorem State.Mems.doSensorSample {n : Nat} {raw : BitVec 16} (hs : s.Mems) : (doSensorSample n raw s).Mems :=
  .ite hs.takeTemp.tempAlarm.tempLimit.tempCool hs

protected theorem State.Mems.doThermalRelease (hs : s.Mems) : (doThermalRelease s).Mems := by
  dsimp only [doThermalRelease]
  split
  · exact .ite (hs.setRfld.updPv rfl) hs
  · exact hs

protected theorem State.Mems.tempRead {n : Nat} (hs : s.Mems) : (s.tempRead n).Mems := hs.setReg

protected theorem State.Mems.railShow {m v cur : Nat} (hs : s.Mems) : (s.railShow m v cur).Mems := hs.used.setReg

protected theorem State.Mems.brownout {m : Nat} (hs : s.Mems) : (s.brownout m).Mems := .ite hs.fault (.ite hs.fault hs.fault)

protected theorem State.Mems.doRailSample {m v cur : Nat} (hs : s.Mems) : (doRailSample m v cur s).Mems :=
  .ite (.ite (.brownout (hs.railShow.updPv rfl)) (hs.railShow.updPv rfl)) hs

protected theorem State.Mems.doClockWindow {h : Half} {core ctl : Nat} (hs : s.Mems) : (doClockWindow h core ctl s).Mems :=
  .ite hs.fault hs

protected theorem State.Mems.stopClocks (hs : s.Mems) : s.stopClocks.Mems := hs.rest

protected theorem State.Mems.rootLost {code : Nat} (hs : s.Mems) : (s.rootLost code).Mems :=
  .ite (.ite hs.stopClocks.fault.setRfld hs.stopClocks.fault) hs

protected theorem State.Mems.doRefclkLoss (hs : s.Mems) : (doRefclkLoss s).Mems := .ite (.rootLost (hs.updPv rfl)) hs

protected theorem State.Mems.doPllUnlock (hs : s.Mems) : (doPllUnlock s).Mems := .ite (.rootLost (hs.updPv rfl)) hs

protected theorem State.Mems.setDroopFor {h : Half} {n : Nat} (hs : s.Mems) : (s.setDroopFor h n).Mems := hs.updPv rfl

protected theorem State.Mems.droopRises {h : Half} {level : Nat} (hs : s.Mems) : (s.droopRises h level).Mems :=
  .ite hs.setDroopFor.setReg.bump hs.setDroopFor.setReg

protected theorem State.Mems.doDroopRise {h : Half} {mv : Nat} (hs : s.Mems) : (doDroopRise h mv s).Mems :=
  .ite hs.droopRises (.ite hs.setDroopFor hs)

protected theorem State.Mems.doDroopFall {h : Half} (hs : s.Mems) : (doDroopFall h s).Mems := .ite hs.setDroopFor.setRfld hs

protected theorem State.Mems.droopCycle {h : Half} (hs : s.Mems) : (s.droopCycle h).Mems := .ite hs.setDroopFor hs

protected theorem State.Mems.droopRead {h : Half} (hs : s.Mems) : (s.droopRead h).Mems := hs.setRfld

protected theorem State.Mems.doPowerGate {u : UnitId} {sleep : Bool} (hs : s.Mems) : (doPowerGate u sleep s).Mems := .ite hs.updUnit hs

protected theorem State.Mems.doPowerWake {u : UnitId} (hs : s.Mems) : (doPowerWake u s).Mems := .ite hs.updUnit hs

protected theorem State.Mems.doPfailAssert (hs : s.Mems) : (doPfailAssert s).Mems :=
  .ite hs (.ite (.ite (.setRfld (.flushLog (.commitStore (.updPv (.setReg (hs.updPv rfl)) rfl)))) (.setReg (hs.updPv rfl))) (hs.updPv rfl))

protected theorem State.Mems.doPfailDeassert (hs : s.Mems) : (doPfailDeassert s).Mems := .ite (.dirFlush (.setRfld (hs.updPv rfl))) hs

/-! ### TimeCmds -/

protected theorem State.Mems.doAlignSend (hs : s.Mems) : (doAlignSend s).Mems := .ite hs.updFord hs

protected theorem State.Mems.aligned {h : Half} {d : Int} (hs : s.Mems) : (s.aligned h d).Mems := by
  unfold State.aligned
  extract_lets off s1 s2 s3
  have h1 : s3.Mems := .ite hs.rest.updTime.fault hs.rest.updTime
  exact .ite h1.fault h1

protected theorem State.Mems.doAlignReceive (hs : s.Mems) : (doAlignReceive s).Mems := by
  dsimp only [doAlignReceive]
  split
  · exact hs
  · exact .ite hs.updFord hs.updFord.updTime.aligned

/-! ### Csr -/

protected theorem State.Mems.readEffect {a : Agent} {u : UnitId} {b : Blk} {off : Nat} (hs : s.Mems) : (s.readEffect a u b off).Mems := by
  dsimp only [State.readEffect]
  split
  · exact hs
  · refine .ite hs ?_
    split
    · exact .ite hs.doPtpNsRead hs
    · exact .ite hs.droopRead hs
    · exact .ite hs.used hs
    · exact .ite hs.recLoRead (.ite hs.recHiRead (.ite hs.detailARead (.ite hs.detailBRead hs)))
    · exact .ite hs.popTxts hs
    · exact .ite hs.used hs
    · exact .ite hs.tempRead hs
    · exact hs

protected theorem State.Mems.dtsWord {a : Agent} {h : Half} {upper : Bool} (hs : s.Mems) : (s.dtsWord a h upper).1.Mems := by
  dsimp only [State.dtsWord]
  refine .ite_fst ?_ hs.doDtsNowRead
  split
  · exact hs.updTime
  · exact hs

protected theorem State.Mems.csrHole {addr : Nat} (hs : s.Mems) : (s.csrHole addr).Mems := hs.fault

protected theorem State.Mems.csrRead {a : Agent} {addr width : Nat} (hs : s.Mems) : (s.csrRead a addr width).1.Mems := by
  dsimp only [State.csrRead]
  refine .ite_fst hs ?_
  refine .ite_fst hs.csrHole ?_
  split
  · exact hs.csrHole
  · refine .ite_fst hs ?_
    split
    · exact .ite_fst hs.dtsWord hs.readEffect
    · exact hs.readEffect

protected theorem State.Mems.writeInject {u : UnitId} {v m : DWord} (hs : s.Mems) : (s.writeInject u v m).Mems := by
  unfold State.writeInject
  extract_lets s1
  have h1 : s1.Mems := .ite hs.forceWrite hs
  exact .ite (.ite h1.armInv h1.setRfld) h1

protected theorem State.Mems.writeUnitState {a : Agent} {u : UnitId} {v : DWord} (hs : s.Mems) : (s.writeUnitState a u v).Mems := by
  dsimp only [State.writeUnitState]
  split
  · exact .ite hs.doDevRun (.ite hs.doDevRecovery hs)
  · exact hs.request

protected theorem State.Mems.writeUcb {a : Agent} {u : UnitId} {row : RegRow} {v m : DWord} (hs : s.Mems) :
    (s.writeUcb a u row v m).Mems := .ite hs.writeUnitState (.ite hs.commitKey (.ite hs.writeInject (.ite hs.setReg hs.setReg)))

protected theorem State.Mems.setNosReady {a : Agent} (hs : s.Mems) : (s.setNosReady a).Mems := .ite (hs.updPv rfl) hs

protected theorem State.Mems.writeSlew {v m : DWord} (hs : s.Mems) : (s.writeSlew v m).Mems := .ite hs.doSlewWrite hs.setRfld

protected theorem State.Mems.writePtpCtl {w : DWord} (hs : s.Mems) : (s.writePtpCtl w).Mems :=
  .ite hs.doPtpSet (.ite hs.doPtpAdd (.ite hs.doPtpSub hs))

protected theorem State.Mems.writeDtsCtl {w : DWord} (hs : s.Mems) : (s.writeDtsCtl w).Mems :=
  .ite (.doLoadArm (.ite hs.doLoadNow hs)) (.ite hs.doLoadNow hs)

protected theorem State.Mems.writeLocksForce {a : Agent} {h : Half} {w : DWord} (hs : s.Mems) : (s.writeLocksForce a h w).Mems :=
  .ite hs.forceLock hs

protected theorem State.Mems.writeRun {h : Half} {run : Bool} (hs : s.Mems) : (s.writeRun h run).Mems :=
  .ite hs (.ite hs.runCores hs.stopCores)

protected theorem State.Mems.writeMbox {a : Agent} {slot : Nat} {row : RegRow} {v m : DWord} {plain : State} (hs : s.Mems)
    (hp : plain.Mems) : (s.writeMbox a slot row v m plain).Mems := .ite hs (.ite (.ite hp.mbGo hp) (.ite hs hp))

protected theorem State.Mems.writePortCfg {p : PortIx} {off : Nat} {new : DWord} (hs : s.Mems) : (s.writePortCfg p off new).Mems :=
  .ite hs.setReg (.ite hs hs.setReg)

protected theorem State.Mems.writeIntCfg {h : Half} {t : TileIx} {new : DWord} (hs : s.Mems) : (s.writeIntCfg h t new).Mems := hs.setReg

protected theorem State.Mems.settleExp {h : Half} {was : Bool} (hs : s.Mems) : (s.settleExp h was).Mems :=
  .ite hs (.ite hs.portFalls hs.portReturns)

protected theorem State.Mems.writeActs {a : Agent} {u : UnitId} {b : Blk} {row : RegRow} {i : Nat} {v m new : DWord}
    {plain : State} (hs : s.Mems) (hp : plain.Mems) : (s.writeActs a u b row i v m new plain).Mems := by
  dsimp only [State.writeActs]
  split
  · exact .ite hs.writeDtsCtl
      (.ite hs.writeSlew (.ite hs.writePtpCtl (.ite hp.settleTsync (.ite (.ite hp hs.setReg) (.ite (.ite hp.setNosReady hp) hp)))))
  · exact .ite hs.imgCtl (.ite hs (.ite hp.settleExp hp))
  · exact .ite hs.writeChCfg
      (.ite (.ite hs.writeRun hs)
         (.ite (.ite hp hs) (.ite (.ite (.ite hs.setReg hs.setReg.ringSizeWrite) (.ite hp.ringSizeWrite hp)) (.ite hp.doThreadCtl hp))))
  · exact .ite (.ite hs.recAck hs) (.ite hs.doHbWrite (.ite (.ite hs.doPrivetRelease hs) hp))
  · exact .ite hp.readSel hp
  · exact .ite hp.noteSizeWrite hp
  · exact .ite hs.batchCmd hp
  · exact .ite hp.telemSizeWrite hp
  · exact .ite hs.writeLocksForce hp
  · exact .ite hp.settleSpare (.ite hs.writeIntCfg hp)
  · exact .ite hs.writePortCfg hp
  · exact .ite hs.svcConfig (.ite hs.svcPost hp)
  · exact .ite hs.writeChCfg hp
  · exact .ite hp.doThreadCtl (.ite hs.doEvPost (.ite (.ite hp hs) hp))
  · exact .ite (.ite hs.calWrite hs) hp
  · exact .writeMbox hs hp
  · exact .ite hp hs
  · exact .ite hs.lockDebug hs
  · exact hp

protected theorem State.Mems.writeReg {a : Agent} {u : UnitId} {b : Blk} {off : Nat} {v m : DWord} (hs : s.Mems) :
    (s.writeReg a u b off v m).Mems := by
  dsimp only [State.writeReg]
  split
  · exact hs
  · exact .ite hs.writeUcb (.writeActs hs hs.setReg)

protected theorem State.Mems.writeStaged {u : UnitId} {b : Blk} {off : Nat} {v m : DWord} (hs : s.Mems) :
    (s.writeStaged u b off v m).Mems := by
  dsimp only [State.writeStaged]
  refine .ite hs ?_
  split
  · exact hs
  · exact .ite hs hs.setStg

protected theorem State.Mems.csrWrite {a : Agent} {addr width : Nat} {v : DWord} (hs : s.Mems) : (s.csrWrite a addr width v).Mems := by
  dsimp only [State.csrWrite]
  refine .ite hs ?_
  refine .ite hs.csrHole ?_
  split
  · exact hs.csrHole
  · exact .ite hs.writeStaged hs.writeReg

protected theorem State.Mems.agentWrite {a : Agent} {u : UnitId} {b : Blk} {off : Nat} {v : DWord} (hs : s.Mems) :
    (s.agentWrite a u b off v).Mems := .ite hs.writeReg hs

protected theorem State.Mems.agentBatch {a : Agent} {h : Half} {slot : Fin 256} {cmd : Nat} (hs : s.Mems) :
    (s.agentBatch a h slot cmd).Mems := .ite hs.batchCmd hs

/-! ### Thread -/

protected theorem State.Mems.physRead {h : Half} {n : Fin 32} {pa len : Nat} (hs : s.Mems) : (s.physRead h n pa len).1.Mems := by
  dsimp only [State.physRead]
  split
  · exact hs.csrRead
  · exact hs.hbmRead
  · exact hs.hbmRead
  · exact hs.hbmRead
  · exact hs

protected theorem State.Mems.walk {h : Half} {n : Fin 32} {va level table : Nat} (hs : s.Mems) : (s.walk h n va level table).1.Mems := by
  induction level generalizing s table with
  | zero => exact hs
  | succ lv ih =>
    unfold State.walk
    dsimp only
    split
    · next s1 e => exact hs.physRead.of_fst e
    · next s1 bs e =>
      have h1 := hs.physRead.of_fst e
      exact .ite_fst h1 (.ite_fst (.ite_fst h1 (ih h1)) (.ite_fst h1 (.ite_fst h1 h1)))

protected theorem State.Mems.xlLookup {h : Half} {n : Fin 32} {va : Nat} (hs : s.Mems) : (s.xlLookup h n va).1.Mems := by
  dsimp only [State.xlLookup]
  split
  · exact hs
  · exact hs.walk

protected theorem State.Mems.physWrite {h : Half} {n : Fin 32} {pa : Nat} {bs : List Byte} {t : State} (hs : s.Mems)
    (e : s.physWrite h n pa bs = .done t) : t.Mems := by
  unfold State.physWrite at e
  split at e
  · cases e; exact hs.csrWrite
  · cases e; exact hs.hbmWrite
  · split at e
    · split at e
      · cases e
      · cases e; exact hs.hbmWrite.updCc
    · cases e; exact hs.hbmWrite.bump
  · split at e
    · cases e; exact hs
    · cases e; exact hs.hbmWrite
  · cases e

protected theorem State.Mems.xlMark {h : Half} {n : Fin 32} {va : Nat} {x : XlEntry} {store : Bool} {t : State} (hs : s.Mems)
    (e : s.xlMark h n va x store = some t) : t.Mems := by
  dsimp only [State.xlMark] at e
  refine .ite_some (fun e => ?_) (fun e => ?_) e
  · cases e; exact hs.updCc
  · split at e
    · next s1 bs e1 =>
      split at e
      · next s2 e2 => cases e; exact ((hs.physRead.of_fst e1).physWrite e2).updCc
      · cases e; exact (hs.physRead.of_fst e1).updCc
      · cases e
    · next s1 e1 => cases e; exact (hs.physRead.of_fst e1).updCc

protected theorem State.Mems.translate {h : Half} {n : Fin 32} {va acc : Nat} (hs : s.Mems) : (s.translate h n va acc).1.Mems := by
  dsimp only [State.translate]
  refine .ite_fst hs ?_
  refine .ite_fst (.ite_fst hs hs) ?_
  split
  · next s1 e => exact hs.xlLookup.of_fst e
  · next s1 x e =>
      refine .ite_fst (hs.xlLookup.of_fst e) ?_
      refine .ite_fst (hs.xlLookup.of_fst e) ?_
      refine .ite_fst (hs.xlLookup.of_fst e) ?_
      split
      · next s2 e2 => exact (hs.xlLookup.of_fst e).xlMark e2
      · exact hs

protected theorem State.Mems.ccLoad {h : Half} {n : Fin 32} {va len acc : Nat} (hs : s.Mems) : (s.ccLoad h n va len acc).1.Mems := by
  dsimp only [State.ccLoad]
  refine .ite_fst hs ?_
  split
  · next s1 f e => exact hs.translate.of_fst e
  · next s1 pa e =>
      split
      · next s2 bs e2 => exact (hs.translate.of_fst e).physRead.of_fst e2
      · next s2 e2 => exact (hs.translate.of_fst e).physRead.of_fst e2

protected theorem State.Mems.ccStore {h : Half} {n : Fin 32} {va : Nat} {bs : List Byte} (hs : s.Mems) : (s.ccStore h n va bs).1.Mems := by
  unfold State.ccStore
  refine .ite_fst hs ?_
  split
  · next s1 f e => exact hs.translate.of_fst e
  · next s1 pa e =>
    split
    · next s2 e2 => exact (hs.translate.of_fst e).physWrite e2
    · exact hs.translate.of_fst e
    · exact hs.translate.of_fst e

protected theorem State.Mems.ccSpanFrom {h : Half} {n : Fin 32} {va k : Nat} (hs : s.Mems) : (s.ccSpanFrom h n va k).1.Mems := by
  induction k generalizing s va with
  | zero => exact hs
  | succ k ih =>
    unfold State.ccSpanFrom
    split
    · next s1 f e => exact hs.ccLoad.of_fst e
    · next s1 bs e =>
      have h2 := ih (va := va + 8) (hs.ccLoad.of_fst e)
      split
      · next s2 f e2 => exact h2.of_fst e2
      · next s2 cs e2 => exact h2.of_fst e2

protected theorem State.Mems.ccSpan {h : Half} {n : Fin 32} {va k : Nat} (hs : s.Mems) : (s.ccSpan h n va k).1.Mems := by
  dsimp only [State.ccSpan]
  split
  · next s1 bs e => exact hs.ccSpanFrom.of_fst e
  · exact hs

protected theorem State.Mems.ccWriteFrom {h : Half} {n : Fin 32} {va : Nat} {bs : List Byte} {k : Nat} (hs : s.Mems) :
    (s.ccWriteFrom h n va bs k).1.Mems := by
  induction k generalizing s va bs with
  | zero => exact hs
  | succ k ih =>
    unfold State.ccWriteFrom
    split
    · next s1 f e => exact hs.ccStore.of_fst e
    · next s1 e => exact ih (hs.ccStore.of_fst e)

protected theorem State.Mems.ccWriteSpan {h : Half} {n : Fin 32} {va : Nat} {bs : List Byte} {k : Nat} (hs : s.Mems) :
    (s.ccWriteSpan h n va bs k).1.Mems := by
  dsimp only [State.ccWriteSpan]
  split
  · next s1 e => exact hs.ccWriteFrom.of_fst e
  · exact hs

protected theorem State.Mems.load {th : ThreadRef} {addr len : Nat} (hs : s.Mems) : (s.load th addr len).1.Mems := by
  dsimp only [State.load]
  split
  · exact hs
  · exact hs.ccLoad

protected theorem State.Mems.pkStore {h : Half} {t : TileIx} {n : Fin 128} {addr : Nat} {bs : List Byte} {s1 : State} (hs : s.Mems)
    (e : s.pkStore h t n addr bs = .ok s1) : s1.Mems := by
  unfold State.pkStore at e
  dsimp only at e
  split at e
  · cases e
  · split at e
    · cases e
    · split at e
      · cases e
      · split at e
        · cases e; exact hs.updTile fun _ => Tile.put_memoryWf _ _
        · cases e

protected theorem State.Mems.store {th : ThreadRef} {addr : Nat} {bs : List Byte} (hs : s.Mems) : (s.store th addr bs).1.Mems := by
  unfold State.store
  split
  · split
    · next s1 e => exact hs.pkStore e
    · exact hs
  · exact hs.ccStore

/-! ### FkRun -/

protected theorem State.Mems.wakeCore {th : ThreadRef} (hs : s.Mems) : (s.wakeCore th).Mems := .ite hs.updUnit hs

protected theorem State.Mems.grant {th : ThreadRef} (hs : s.Mems) : (s.grant th).Mems :=
  State.Mems.rest (.ite hs.wakeCore.bumpCore.bumpCore hs.wakeCore.bumpCore)

protected theorem State.Mems.setPc {th : ThreadRef} {a : Nat} (hs : s.Mems) : (s.setPc th a).Mems := hs.updThread

protected theorem State.Mems.fetch {th : ThreadRef} (hs : s.Mems) : (s.fetch th).1.Mems := by
  dsimp only [State.fetch]
  split
  · exact .ite_fst hs hs
  · split
    · next s1 bs e => exact hs.ccLoad.of_fst e
    · next s1 f e => exact hs.ccLoad.of_fst e

protected theorem State.Mems.slotCycle {h : Half} (hs : s.Mems) : (s.slotCycle h).Mems := hs.rest

protected theorem State.Mems.trapDiscard {th : ThreadRef} {cause pc reason : Nat} (hs : s.Mems) :
    (s.trapDiscard th cause pc reason).Mems := by
  dsimp only [State.trapDiscard]
  split
  · exact hs.bumpCore.setReg.discardTask
  · exact hs

protected theorem State.Mems.kernelEntry {th : ThreadRef} {cause ret : Nat} {info : DWord} (hs : s.Mems) :
    (s.kernelEntry th cause ret info).Mems := hs.updThread

protected theorem State.Mems.squashOne {h : Half} {t : TileIx} {n : Fin 128} {w : Nat} {go : Bool} (hs : s.Mems) :
    (s.squashOne h t n w go).Mems := by
  dsimp only [State.squashOne]
  split
  · exact hs.bumpBy.bumpBy
  · exact hs.bumpBy.bumpBy.updTile keeps

protected theorem State.Mems.squashPath {h : Half} {t : TileIx} {th : Fin 128} {n a c last conds fuel : Nat} (hs : s.Mems) :
    (s.squashPath h t th n a c last conds fuel).Mems := by
  induction fuel generalizing s n a c conds with
  | zero => exact hs
  | succ k ih =>
    unfold State.squashPath
    refine .ite hs ?_
    dsimp only
    split
    · exact hs.squashOne
    · exact ih hs.squashOne

protected theorem State.Mems.wrongPath {th : ThreadRef} {a : Nat} {hinted : Bool} {n : Nat} (hs : s.Mems) :
    (s.wrongPath th a hinted n).Mems := by
  dsimp only [State.wrongPath]
  split
  · exact hs.squashPath
  · exact hs

protected theorem State.Mems.squashBehind {th : ThreadRef} {a : Nat} (hs : s.Mems) : (s.squashBehind th a).Mems := by
  dsimp only [State.squashBehind]
  split
  · exact hs.squashPath.used
  · exact hs

protected theorem State.Mems.takeTrap {th : ThreadRef} {cause : Nat} {tval : DWord} {tpc at0 : Nat} (hs : s.Mems) :
    (s.takeTrap th cause tval tpc at0).Mems := by
  dsimp only [State.takeTrap]
  split
  · exact hs.kernelEntry
  · refine .ite (.trapDiscard (.ite hs hs.squashBehind)) ?_
    split
    · exact .trapDiscard (.ite hs hs.squashBehind)
    · exact .bumpCore (.updThread (.ite hs hs.squashBehind))

protected theorem State.Mems.failWith {th : ThreadRef} {at0 : Nat} {f : Fail} (hs : s.Mems) : (s.failWith th at0 f).Mems := by
  dsimp only [State.failWith]
  split
  · exact hs.takeTrap
  · exact hs.takeTrap.used
  · split
    · exact hs.discardTask
    · exact hs
  · exact hs

protected theorem State.Mems.putG {th : ThreadRef} {r v : Nat} (hs : s.Mems) : (s.putG th r v).Mems :=
  hs.updThread

protected theorem State.Mems.putG64 {th : ThreadRef} {r v : Nat} (hs : s.Mems) : (s.putG64 th r v).Mems :=
  hs.updThread

protected theorem State.Mems.stick {th : ThreadRef} {f : Word} (hs : s.Mems) : (s.stick th f).Mems := hs.updThread

protected theorem State.Mems.fkFinish {c : Fk} {r : FkRes} (hs : s.Mems) (hp : r.state.Mems) : (s.fkFinish c r).Mems := by
  dsimp only [State.fkFinish]
  split
  · exact .ite hp.setPc hs.takeTrap
  · exact .ite hp hs.takeTrap
  · exact .ite hp.setPc hs.takeTrap
  · exact .ite hp.setPc hp.takeTrap
  · exact hp.failWith
  · exact hp.takeTrap
  · exact hp

protected theorem State.Mems.fkStep {op : FkOp} {th : ThreadRef} {body : State → Fk → FkRes} (hs : s.Mems)
    (hf : ∀ {t a}, t.Mems → (body t a).state.Mems) : (s.fkStep op th body).Mems := by
  dsimp only [State.fkStep]
  refine .ite ?_ hs
  split
  · next s1 f e => exact (hs.fetch.of_fst e).failWith
  · next s1 w e =>
      split
      · exact (hs.fetch.of_fst e).grant.takeTrap
      · exact .ite (.ite (.fkFinish ((hs.fetch.of_fst e).grant) (hf ((hs.fetch.of_fst e).grant))) (hs.fetch.of_fst e)) hs

protected theorem State.Mems.fkRun {op : FkOp} {th : ThreadRef} {body : State → Fk → FkRes} (hs : s.Mems)
    (hf : ∀ {t a}, t.Mems → (body t a).state.Mems) : (s.fkRun op th body).Mems := .orWait hs (fun h1 => .fkStep h1 hf)

/-! ### Alu -/

protected theorem State.Mems.gRes {c : Fk} {r : Res} (hs : s.Mems) : (s.gRes c r).state.Mems := by
  dsimp only [State.gRes]
  exact hs.putG.stick

protected theorem State.Mems.aluBody {o : FkOp} {c : Fk} (hs : s.Mems) : (aluBody o s c).state.Mems := by
  dsimp only [aluBody]
  exact hs.gRes

protected theorem State.Mems.divBody {o : FkOp} {c : Fk} (hs : s.Mems) : (divBody o s c).state.Mems := by
  dsimp only [divBody]
  exact .ite_state hs.putG.stick hs.putG.stick

protected theorem State.Mems.setFlags {th : ThreadRef} {f : Word} (hs : s.Mems) : (s.setFlags th f).Mems := hs.updThread

protected theorem State.Mems.gRes64 {c : Fk} {r : Res} (hs : s.Mems) : (s.gRes64 c r).Mems := hs.putG64.stick

protected theorem State.Mems.alu64Body {c : Fk} (hs : s.Mems) : (alu64Body s c).state.Mems := by
  dsimp only [alu64Body]
  split
  · exact hs.setFlags
  · exact hs.setFlags
  · exact .ite_state hs.gRes64 hs.gRes64
  · exact hs

protected theorem State.Mems.aRes {c : Fk} {r : Res} (hs : s.Mems) : (s.aRes c r).state.Mems := by
  dsimp only [State.aRes]
  exact hs.updThread.stick

/-! ### Control -/

protected theorem State.Mems.branchBody {taken : Bool} {n : Nat} {c : Fk} (hs : s.Mems) : (branchBody taken n s c).state.Mems := by
  dsimp only [branchBody]
  exact .ite hs hs.bumpCore.wrongPath

protected theorem State.Mems.pushRs {th : ThreadRef} {a : Nat} (hs : s.Mems) : (s.pushRs th a).Mems := hs.updThread

/-! ### FkMem -/

protected theorem State.Mems.loadBody {len : Nat} {f : List Byte → Nat} {c : Fk} (hs : s.Mems) : (loadBody len f s c).state.Mems := by
  dsimp only [loadBody]
  split
  · next s1 bs e => exact (hs.load.of_fst e).putG
  · next s1 x e => exact hs.load.of_fst e

protected theorem State.Mems.storeBody {f : Nat → List Byte} {c : Fk} (hs : s.Mems) : (storeBody f s c).state.Mems := by
  dsimp only [storeBody]
  split
  · next s1 e => exact hs.store.of_fst e
  · next s1 x e => exact hs.store.of_fst e

protected theorem State.Mems.setDsp {th : ThreadRef} {v : Nat} (hs : s.Mems) : (s.setDsp th v).Mems :=
  hs.updThread

protected theorem State.Mems.issueReq {h : Half} {t : TileIx} {n : Fin 128} {c : Fk} {r : Response} (hs : s.Mems) :
    (s.issueReq h t n c r).Mems := .dcUp (hs.updTile keeps)

protected theorem State.Mems.frdBody {h : Half} {t : TileIx} {n : Fin 128} {c : Fk} (hs : s.Mems) : (frdBody h t n s c).state.Mems := by
  dsimp only [frdBody]
  refine .ite_state hs ?_
  split
  · exact hs
  · exact .ite_state hs hs.issueReq

protected theorem State.Mems.queueParts {h : Half} {t : TileIx} {resp src : Nat} {write stream : Bool} {a : Nat}
    {data : List Byte} {m : Nat} (hs : s.Mems) : (s.queueParts h t resp src write stream a data m).Mems :=
  hs.foldl fun h1 => .ite (.finishPart (.getD (fun e => h1.hbmStop e) h1)) (h1.updHbm keeps)

protected theorem State.Mems.hbmReqBody {write : Bool} {h : Half} {t : TileIx} {n : Fin 128} {c : Fk} (hs : s.Mems) :
    (hbmReqBody write h t n s c).state.Mems := by
  dsimp only [hbmReqBody]
  refine .ite_state hs ?_
  refine .ite_state hs ?_
  refine .ite_state ?_ ?_
  · split
    · exact hs
    · exact .ite_state hs hs.issueReq.queueParts
  · split
    · exact hs
    · exact .ite_state hs hs.issueReq.queueParts

protected theorem State.Mems.doMemoryResponse {h : Half} {t : TileIx} {id : Nat} (hs : s.Mems) : (doMemoryResponse h t id s).Mems := by
  dsimp only [doMemoryResponse]
  split
  · exact .ite hs.respond hs
  · exact hs

protected theorem State.Mems.park {h : Half} {t : TileIx} {n : Fin 128} {k mask : Nat} (hs : s.Mems) : (s.park h t n k mask).Mems :=
  hs.updTask.updThread.bump

protected theorem State.Mems.twaitBody {h : Half} {t : TileIx} {n : Fin 128} {c : Fk} (hs : s.Mems) : (twaitBody h t n s c).state.Mems := by
  dsimp only [twaitBody]
  exact .ite_state hs (.ite_state hs.park (.bump (.updTask hs.updThread)))

protected theorem State.Mems.refuseOutput {h : Half} {t : TileIx} {n : Fin 128} {k reason pc : Nat} (hs : s.Mems) :
    (s.refuseOutput h t n k reason pc).Mems := hs.bump.setReg.completeTask

protected theorem State.Mems.acceptOutput {h : Half} {t : TileIx} {k : Nat} {d : List Byte} (hs : s.Mems) :
    (s.acceptOutput h t k d).Mems := .ite hs.updBuf.rest.bump.completeTask hs.bump.bump.completeTask

protected theorem State.Mems.tdoneBody {h : Half} {t : TileIx} {n : Fin 128} {c : Fk} (hs : s.Mems) : (tdoneBody h t n s c).state.Mems := by
  dsimp only [tdoneBody]
  refine .ite_state hs.bump.completeTask ?_
  refine .ite_state hs ?_
  split
  · exact hs
  · split
    · exact hs
    · exact .ite_state hs.refuseOutput hs.acceptOutput

protected theorem State.Mems.postBytes {th : ThreadRef} {ga n : Nat} (hs : s.Mems) : (s.postBytes th ga n).1.Mems := by
  dsimp only [State.postBytes]
  split
  · split
    · exact hs
    · split
      · exact hs
      · exact hs
  · split
    · next s1 bs e => exact hs.ccSpan.of_fst e
    · next s1 x e => exact hs.ccSpan.of_fst e

/-! ### Coproc -/

protected theorem State.Mems.cpTrap {h : Half} {t : TileIx} {cl w status : Nat} (hs : s.Mems) : (s.cpTrap h t cl w status).state.Mems := by
  dsimp only [State.cpTrap]
  exact hs.bump

protected theorem State.Mems.lostTrap {h : Half} {t : TileIx} {n : Fin 128} {w : Nat} {e : Nat × Nat} (hs : s.Mems) :
    (s.lostTrap h t n w e).state.Mems := by
  dsimp only [State.lostTrap]
  exact .cpTrap (hs.updTile keeps)

protected theorem State.Mems.updInst {q : CpCall} {f : CpInst → CpInst} (hs : s.Mems) : (s.updInst q f).Mems := hs.updTile keeps

protected theorem State.Mems.toCluster {q : CpCall} {f : State → CpCall → FkRes} (hs : s.Mems)
    (hf : ∀ {t a}, t.Mems → (f t a).state.Mems) : (s.toCluster q f).state.Mems := by
  dsimp only [State.toCluster]
  exact .ite_state hs (hf hs)

protected theorem State.Mems.cpCall {th : ThreadRef} {op : FkOp} {f : State → CpCall → FkRes} (hs : s.Mems)
    (hf : ∀ {t a}, t.Mems → (f t a).state.Mems) : (cpCall th op s f).Mems := by
  dsimp only [cpCall]
  refine .fkRun hs fun h1 => ?_
  split
  · exact h1
  · split
    · exact h1.lostTrap
    · refine .ite_state ?_ (.toCluster h1 hf)
      split
      · exact .toCluster h1 hf
      · exact h1.cpTrap

protected theorem State.Mems.callTrap {q : CpCall} {status : Nat} (hs : s.Mems) : (s.callTrap q status).state.Mems := by
  dsimp only [State.callTrap]
  exact hs.cpTrap

protected theorem State.Mems.cpIssue {q : CpCall} {r : Response} (hs : s.Mems) : (s.cpIssue q r).Mems := hs.bump.issueReq

protected theorem State.Mems.cpDone {q : CpCall} {good : Bool} {l : Loc} {bs : List Byte} {f : State → State} (hs : s.Mems)
    (hf : ∀ {t}, t.Mems → (f t).Mems) : (s.cpDone q good l bs f).state.Mems := by
  dsimp only [State.cpDone]
  exact .ite_state hs (.cpIssue (.ite (hf hs) hs))

protected theorem State.Mems.lateReport {h : Half} {t : TileIx} {n : Nat} {f : LateFail} (hs : s.Mems) : (s.lateReport h t n f).Mems := by
  dsimp only [State.lateReport]
  split
  · exact hs.raiseInt.bump.bump
  · split
    · exact .bump (.updThread (hs.raiseInt.bump.updTile fun _ => Tile.put_memoryWf _ _))
    · exact .updThread (hs.raiseInt.bump.updTile fun _ => Tile.put_memoryWf _ _)

protected theorem State.Mems.lateFail {h : Half} {t : TileIx} {r : Response} {status : Nat} (hs : s.Mems) :
    (s.lateFail h t r status).Mems := by
  dsimp only [State.lateFail]
  split
  · exact hs
  · exact .ite (.report (hs.respond.lateReport.updTile keeps)) hs.respond.lateReport

protected theorem State.Mems.settleAfter {h : Half} {t : TileIx} {r : Response} (hs : s.Mems) : (s.settleAfter h t r).Mems := by
  dsimp only [State.settleAfter]
  split
  · exact hs.settleInst
  · exact hs

protected theorem State.Mems.doCoprocResponse {h : Half} {t : TileIx} {id : Nat} (hs : s.Mems) : (doCoprocResponse h t id s).Mems := by
  dsimp only [doCoprocResponse]
  split
  · exact hs
  · split
    · exact .ite (.settleAfter (.ite hs.lateFail hs.respond)) hs
    · exact hs

protected theorem State.Mems.doCoprocLate {h : Half} {t : TileIx} {id code : Nat} (hs : s.Mems) : (doCoprocLate h t id code s).Mems := by
  dsimp only [doCoprocLate]
  split
  · exact hs
  · split
    · exact .ite hs.lateFail.settleAfter hs
    · exact hs

protected theorem State.Mems.doCancelAck {h : Half} {t : TileIx} {cl : Nat} (hs : s.Mems) : (doCancelAck h t cl s).Mems := by
  dsimp only [doCancelAck]
  split
  · exact hs
  · exact .ite (.settleSlot (.bump (hs.updTile keeps))) (.dcDown (.bump (hs.updTile keeps)))

protected theorem State.Mems.cpLock {h : Half} {t : TileIx} {n : Fin 128} {k u i : Nat} (hs : s.Mems) : (s.cpLock h t n k u i).1.Mems := by
  dsimp only [State.cpLock]
  refine .ite_fst hs ?_
  refine .ite_fst hs ?_
  split
  · exact hs.updTile keeps
  · exact .bump (hs.updTile keeps)

protected theorem State.Mems.cpUnlock {h : Half} {t : TileIx} {k u i : Nat} (hs : s.Mems) : (s.cpUnlock h t k u i).1.Mems := by
  dsimp only [State.cpUnlock]
  refine .ite_fst hs ?_
  split
  · exact hs.releaseInst
  · exact hs

protected theorem State.Mems.statusCall {f : State → Half → TileIx → Fin 128 → Nat → Nat → Nat → State × Nat} {c : Fk} (hs : s.Mems)
    (hf : ∀ {t a b c d e f'}, t.Mems → (f t a b c d e f').1.Mems) : (statusCall f s c).state.Mems := by
  dsimp only [statusCall]
  split
  · exact hs
  · split
    · exact hs.lostTrap
    · exact .putG (hf hs)

protected theorem State.Mems.hashBody {span : Nat → Nat} {pick : Nat → List Byte → List Byte} {q : CpCall} (hs : s.Mems) :
    (hashBody span pick s q).state.Mems := by
  dsimp only [hashBody]
  refine .ite_state hs.callTrap ?_
  split
  · exact hs
  · exact hs
  · exact .cpDone hs (fun h1 => h1)

protected theorem State.Mems.fracBody {f : Nat → Nat → Nat → Nat → Nat × Bool × Bool} {q : CpCall} (hs : s.Mems) :
    (fracBody f s q).state.Mems := by
  dsimp only [fracBody]
  split
  · exact hs
  · exact .cpDone hs (fun h1 => h1.used)

protected theorem State.Mems.expBody {q : CpCall} (hs : s.Mems) : (expBody s q).state.Mems := by
  dsimp only [expBody]
  refine .ite_state hs.callTrap ?_
  split
  · exact hs
  · exact hs
  · refine .ite_state hs.callTrap ?_
    refine .ite_state hs ?_
    refine .ite_state (.cpDone hs (fun h1 => h1)) ?_
    split
    · exact hs
    · exact hs.cpIssue.used.rest

/-! ### Confirm -/

protected theorem State.Mems.confBody {lo hi : Nat} {f : State → CpCall → ConfString → List Byte × Bool} {q : CpCall} (hs : s.Mems) :
    (confBody lo hi f s q).state.Mems := by
  dsimp only [confBody]
  split
  · exact hs
  · exact hs
  · exact .ite_state hs.callTrap (.cpDone hs (fun h1 => h1))

protected theorem State.Mems.confStep {q : CpCall} (hs : s.Mems) : (confStep s q).state.Mems := by
  dsimp only [confStep]
  split
  · exact hs
  · exact .cpDone hs (fun h1 => h1.countScan)

/-! ### Events -/

protected theorem State.Mems.breakDead {th : ThreadRef} (hs : s.Mems) : (s.breakDead th).Mems := by
  dsimp only [State.breakDead]
  split
  · exact hs.updTile keeps
  · exact hs

protected theorem State.Mems.waitevDone {th : ThreadRef} {gd : Nat} {mask : Word} {clear : Bool} {causes : Nat} (hs : s.Mems) :
    (s.waitevDone th gd mask clear causes).Mems := hs.breakDead.updThread

protected theorem State.Mems.doWaitevComplete {th : ThreadRef} (hs : s.Mems) : (doWaitevComplete th s).Mems := by
  dsimp only [doWaitevComplete]
  split
  · exact .ite hs.waitevDone hs
  · exact hs

protected theorem State.Mems.doTimerExpire {th : ThreadRef} (hs : s.Mems) : (doTimerExpire th s).Mems := by
  dsimp only [doTimerExpire]
  refine .ite ?_ hs
  split
  · exact hs.doWaitevComplete
  · exact hs.withdrawWaiter.bump.answerLock.updThread
  · exact hs

protected theorem State.Mems.enterInt {th : ThreadRef} {i e : Nat} (hs : s.Mems) : (s.enterInt th i e).Mems := by
  dsimp only [State.enterInt]
  refine .bumpCore (.updThread ?_)
  split
  · refine .updTask ?_
    split
    · exact hs.waitevDone
    · exact hs
  · split
    · exact hs.waitevDone
    · exact hs

protected theorem State.Mems.doInterruptTake {th : ThreadRef} (hs : s.Mems) : (doInterruptTake th s).Mems := by
  dsimp only [doInterruptTake]
  refine .ite ?_ hs
  split
  · exact hs.enterInt
  · exact hs

protected theorem State.Mems.deadTile {h : Half} {t : TileIx} (hs : s.Mems) : (s.deadTile h t).Mems := .ite hs (hs.updTile keeps)

protected theorem State.Mems.deadCycle {h : Half} (hs : s.Mems) : (s.deadCycle h).Mems := hs.foldl fun h1 => h1.deadTile

protected theorem State.Mems.doEventDeadlock {h : Half} {t : TileIx} {c k : Fin 4} (hs : s.Mems) : (doEventDeadlock h t c k s).Mems := by
  dsimp only [doEventDeadlock]
  refine .ite ?_ hs
  split
  · exact hs.report.bump.raiseInt.waitevDone
  · exact hs.report.bump.raiseInt

protected theorem State.Mems.putArea {th : ThreadRef} {ga : Nat} {bs : List Byte} (hs : s.Mems) : (s.putArea th ga bs).1.Mems := by
  dsimp only [State.putArea]
  split
  · split
    · exact hs
    · exact .ite_fst hs (hs.updTile fun _ => Tile.put_memoryWf _ _)
  · exact hs.ccWriteSpan

/-! ### Expansion -/

protected theorem State.Mems.updExp {h : Half} {f : ExpState → ExpState} (hs : s.Mems) : (s.updExp h f).Mems := hs.rest

protected theorem State.Mems.doExpSend {h : Half} (hs : s.Mems) : (doExpSend h s).Mems := by
  dsimp only [doExpSend]
  split
  · exact hs
  · exact .ite (.ite hs.updExp hs.updExp.bump) hs

protected theorem State.Mems.expFail {h : Half} {status : Nat} {q : ExpReq} (hs : s.Mems) : (s.expFail h status q).Mems := by
  dsimp only [State.expFail]
  split
  · exact hs.updExp.lateFail.settleAfter
  · exact hs.updExp

protected theorem State.Mems.expFalls {h : Half} (hs : s.Mems) : (s.expFalls h).Mems := by
  unfold State.expFalls
  extract_lets p131 s1 s2
  have h1 : s1.Mems := hs.foldl fun h1 => h1.expFail
  exact .ite h1.updExp.portFalls h1.updExp

protected theorem State.Mems.doExpDown {h : Half} (hs : s.Mems) : (doExpDown h s).Mems := .ite hs.expFalls hs

protected theorem State.Mems.expLoses {h : Half} {locked : Bool} (hs : s.Mems) : (s.expLoses h locked).Mems :=
  .ite hs.updExp.expFalls hs.updExp

protected theorem State.Mems.doExpFlit {h : Half} {blocks : List (BitVec 66)} {locked : BitVec 16} {skew : Nat}
    {alignment : Bool} {numbers : List Nat} (hs : s.Mems) : (doExpFlit h blocks locked skew alignment numbers s).Mems :=
  .ite (.ite hs.expLoses (.ite hs.expLoses (.ite hs.updExp (.ite hs.updExp (.ite hs.bump.updExp.expFalls hs.bump.updExp))))) hs

protected theorem State.Mems.doExpUp {h : Half} (hs : s.Mems) : (doExpUp h s).Mems := .ite hs.updExp.portReturns hs

protected theorem State.Mems.doExpReplay {h : Half} (hs : s.Mems) : (doExpReplay h s).Mems := .ite hs.updExp.bump hs

protected theorem State.Mems.doExpRsp {h : Half} {tag status : Nat} {bytes0 : List Byte} (hs : s.Mems) :
    (doExpRsp h tag status bytes0 s).Mems := by
  dsimp only [doExpRsp]
  refine .ite ?_ hs
  split
  · exact hs.updExp.bump
  · split
    · exact hs.updExp.updExp.bump
    · refine .settleAfter ?_
      split
      · exact hs.updExp.updExp.bump.respond
      · exact hs.updExp.updExp.bump.respond.lateReport
      · exact hs.updExp.updExp.bump.respond

protected theorem State.Mems.doExpTimeout {h : Half} {tag : Nat} (hs : s.Mems) : (doExpTimeout h tag s).Mems := by
  dsimp only [doExpTimeout]
  split
  · exact hs
  · split
    · exact hs
    · exact .ite hs.expFail.bump.updExp hs

protected theorem State.Mems.doFrameIn {h : Half} {bytes : List Byte} (hs : s.Mems) : (doFrameIn h bytes s).Mems :=
  .ite (.ite hs.updExp.bump hs.updExp.injectBytes) hs

protected theorem State.Mems.expTick {h : Half} (hs : s.Mems) : (s.expTick h).Mems := .ite (.ite hs.expFalls hs.updExp) hs

/-! ### FlakoC -/

protected theorem State.Mems.loadBody64 {len : Nat} {c : Fk} (hs : s.Mems) : (loadBody64 len s c).state.Mems := by
  dsimp only [loadBody64]
  split
  · next s1 bs e => exact (hs.load.of_fst e).putG64
  · next s1 x e => exact hs.load.of_fst e

protected theorem State.Mems.swapBody {stores : Bool} {f : Fk → Nat → Option Nat} {c : Fk} (hs : s.Mems) :
    (swapBody stores f s c).state.Mems := by
  dsimp only [swapBody]
  split
  · exact hs
  · refine .ite_state hs ?_
    split
    · next s1 x e => exact hs.translate.of_fst e
    · next s1 pa e =>
      have h1 := hs.translate.of_fst e
      split
      · next s2 e2 => exact h1.physRead.of_fst e2
      · next s2 bs e2 =>
        have h2 := h1.physRead.of_fst e2
        split
        · exact h2.putG64
        · split
          · next s3 e3 => exact (h2.ccStore.of_fst e3).putG64
          · exact hs
          · next s3 x _ e3 => exact h2.ccStore.of_fst e3

protected theorem State.Mems.doMirrorApply {h : Half} (hs : s.Mems) : (doMirrorApply h s).Mems := by
  dsimp only [doMirrorApply]
  split
  · exact hs
  · exact .ite (.hbmWrite hs.updCc) (.bump hs.updCc)

protected theorem State.Mems.privBody {f : State → Fk → FkRes} {c : Fk} (hs : s.Mems) (hf : ∀ {t a}, t.Mems → (f t a).state.Mems) :
    (privBody f s c).state.Mems := by
  dsimp only [privBody]
  exact .ite_state hs (hf hs)

/-! ### HbmAccess -/

protected theorem State.Mems.performRead {h : Half} {q : HbmPart} {ecc : List EccOutcome} (hs : s.Mems) :
    (s.performRead h q ecc).1.Mems := by
  dsimp only [State.performRead]
  exact hs.granEccs.hbmReadPart.granFailures

protected theorem State.Mems.performWrite {h : Half} {q : HbmPart} (hs : s.Mems) : (s.performWrite h q).1.Mems := by
  dsimp only [State.performWrite]
  exact hs.hbmWritePart

protected theorem State.Mems.parityError {h : Half} {st : Fin 2} {fails : Bool} (hs : s.Mems) : (s.parityError h st fails).Mems :=
  .ite (hs.fault.fault.updHbm keeps) hs.fault

protected theorem State.Mems.doHbmAccess {h : Half} {p index : Nat} {ecc : List EccOutcome} {parity : Nat} (hs : s.Mems) :
    (doHbmAccess h p index ecc parity s).Mems := by
  dsimp only [doHbmAccess]
  split
  · exact hs
  · exact .ite
      (.ite
         (.finishPart (.ite (hs.updHbm keeps) (.parityError (hs.updHbm keeps))))
         (.finishPart
            (.ite_fst (.performWrite (.ite (hs.updHbm keeps) (.parityError (hs.updHbm keeps))))
              (.performRead (.ite (hs.updHbm keeps) (.parityError (hs.updHbm keeps)))))))
      hs

/-! ### Start -/

protected theorem State.Mems.assertReset {por : Bool} (hs : s.Mems) : (s.assertReset por).Mems :=
  have h1 := State.Mems.foldl hs fun h2 => h2.flashErase
  ⟨hs.hbm.both fun _ _ _ => rfl, State.Mems.reset.tiles, h1.flash⟩

protected theorem State.Mems.doPoreset (hs : s.Mems) : (doPoreset s).Mems := .ite hs hs.assertReset

protected theorem State.Mems.doSysreset (hs : s.Mems) : (doSysreset s).Mems := .ite hs (.ite (hs.updPv rfl) hs.assertReset)

protected theorem State.Mems.setStep {n : Nat} (hs : s.Mems) : (s.setStep n).Mems := hs.setRfld

protected theorem State.Mems.updStart {f : StartInfo → StartInfo} (hs : s.Mems) : (s.updStart f).Mems := hs.updPv rfl

protected theorem State.Mems.startClocks (hs : s.Mems) : s.startClocks.Mems :=
  .rest (.foldl (.setUState (.setUState (.rest (hs.updPv rfl)))) fun h1 => .ite h1 h1.setUState)

protected theorem State.Mems.startUp (hs : s.Mems) : s.startUp.Mems := by
  unfold State.startUp
  extract_lets s1 s2
  have h2 : s2.Mems := .logBoot (.setStep (.startClocks (hs.updPv rfl)))
  split
  next s3 rec e =>
    extract_lets s4 s5
    have h5 : s5.Mems := .bootFirmware ((h2.storeRead.of_fst e).updPv rfl)
    exact .ite h5.applyMaps.calApply.setStep h5

protected theorem State.Mems.startIfClocked (hs : s.Mems) : s.startIfClocked.Mems := .ite hs.startUp hs.updStart

protected theorem State.Mems.doRelease (hs : s.Mems) : (doRelease s).Mems := .ite (.startIfClocked (hs.updPv rfl)) hs

protected theorem State.Mems.doRefclkArrival (hs : s.Mems) : (doRefclkArrival s).Mems :=
  .ite (.startIfClocked (hs.updPv rfl)) (hs.updPv rfl)

protected theorem State.Mems.testTree {h : Half} (hs : s.Mems) : (s.testTree h).Mems := hs.enterTest.foldl fun h1 => .ite h1.enterUp h1

protected theorem State.Mems.setTrained {h : Half} {st : Fin 2} (hs : s.Mems) : (s.setTrained h st).Mems := hs.setReg

protected theorem State.Mems.remapLanes {h : Half} {st : Fin 2} (hs : s.Mems) : (s.remapLanes h st).Mems := by
  unfold State.remapLanes
  exact hs.used.updPv rfl

protected theorem State.Mems.trainEnd {h : Half} {st : Fin 2} {ok : Bool} (hs : s.Mems) : (s.trainEnd h st ok).Mems :=
  .ite hs.remapLanes.setTrained hs.fault

protected theorem State.Mems.doHbmTrained {h : Half} {st : Fin 2} {ok : Bool} (hs : s.Mems) : (doHbmTrained h st ok s).Mems :=
  .ite (.ite hs (.ite hs.enterUp.trainEnd.updStart.setStep.testTree.testTree hs.enterUp.trainEnd.updStart)) (.ite hs.trainEnd hs)

protected theorem State.Mems.chooseImages (hs : s.Mems) : s.chooseImages.Mems := by
  dsimp only [State.chooseImages]
  exact .ite hs (hs.bootSlot.bootSlot.updPv (by dsimp only))

protected theorem State.Mems.streamImages (hs : s.Mems) : s.streamImages.Mems := by
  dsimp only [State.streamImages]
  split
  · refine .foldl ?_ fun h1 => ?_
    · split
      · exact hs.chooseImages.hbmPlace
      · exact hs.chooseImages
    · exact h1.loadCode
  · split
    · exact hs.chooseImages.hbmPlace
    · exact hs.chooseImages

protected theorem State.Mems.csrInit {bs : List Byte} {n : Nat} (hs : s.Mems) : (s.csrInit bs n).Mems := by
  induction n with
  | zero => exact hs
  | succ n ih => exact ih.csrWrite

protected theorem State.Mems.loadImage {c : List Byte} {hs' : List Half} (hs : s.Mems) : (s.loadImage c hs').Mems :=
  .foldl (hs.foldl fun h1 => h1.loadBanks) fun h1 => .ite h1.csrInit h1

protected theorem State.Mems.queueBatches {c : List Byte} {h : Half} (hs : s.Mems) : (s.queueBatches c h).Mems := .ite hs hs.updStart

/-- An operation on a half keeps the memories canonical. -/
def KeepsMems (f : State → Half → State) : Prop := ∀ s h, s.Mems → (f s h).Mems

/-- Stated of the operation and not of its value: to compare the applied operation with its body, the kernel would walk the half's
subtree. -/
theorem keepsMems_releaseHalf : KeepsMems State.releaseHalf := by
  delta State.releaseHalf
  refine id fun {s h} hs => ?_
  have h1 : (s.activeTree (.half h) 0x02).Mems := hs.activeTree
  beta_reduce
  generalize s.activeTree (.half h) 0x02 = s1 at h1 ⊢
  dsimp only
  split
  · exact h1.setCcEntry.runCores
  · exact h1

protected theorem State.Mems.releaseHalf {h : Half} (hs : s.Mems) : (s.releaseHalf h).Mems := keepsMems_releaseHalf s h hs

protected theorem State.Mems.settleStart (hs : s.Mems) : s.settleStart.Mems := .ite hs.setStep hs

protected theorem State.Mems.finishStart (hs : s.Mems) : s.finishStart.Mems :=
  .settleStart (.setStep (hs.setStep.loadImage.setStep.foldl fun h1 => h1.releaseHalf.queueBatches))

protected theorem State.Mems.seqOn (hs : s.Mems) : s.seqOn.Mems := by
  unfold State.seqOn
  extract_lets tested s1
  have h1 : s1.Mems := .ite hs.setStep.streamImages.setStep hs
  exact .ite h1.finishStart h1

protected theorem State.Mems.doSelfTest {u : UnitId} {ok : Bool} (hs : s.Mems) : (doSelfTest u ok s).Mems := by
  dsimp only [doSelfTest]
  split
  · exact hs.spareTested
  · exact .ite hs.report.physFails hs
  · exact .ite hs.updStart.seqOn (.ite (.ite (.seqOn (.fenceUnit (hs.updPv rfl))) (.fenceUnit (hs.updPv rfl))) hs)
  · exact hs

protected theorem State.Mems.doFordTrainingDone {h : Half} {failed : List (Nat × Nat)} (hs : s.Mems) :
    (doFordTrainingDone h failed s).Mems := .ite (.ite hs.doFordTrained.updStart.seqOn hs.doFordTrained) hs

protected theorem State.Mems.dropDynamic {h : Half} (hs : s.Mems) : (s.dropDynamic h).Mems :=
  .bumpBy (.updTab (hs.foldl fun h1 => .ite h1.leaveBatch h1))

protected theorem State.Mems.restartHalf {h : Half} (hs : s.Mems) : (s.restartHalf h).Mems := by
  dsimp only [State.restartHalf]
  refine .ite ?_ ?_
  · exact .updStart (.setStep (.testTree
      (.ite hs.beginEntry.completeEntry.dropDynamic (hs.beginEntry.completeEntry.dropDynamic.updPv rfl))))
  · refine .activeTree ?_
    split
    · exact .loadBanks (.testTree (.ite hs.beginEntry.completeEntry.dropDynamic (hs.beginEntry.completeEntry.dropDynamic.updPv rfl)))
    · exact .testTree (.ite hs.beginEntry.completeEntry.dropDynamic (hs.beginEntry.completeEntry.dropDynamic.updPv rfl))

protected theorem State.Mems.doHalfRestart {h : Half} (hs : s.Mems) : (doHalfRestart h s).Mems := .ite hs.restartHalf hs

protected theorem State.Mems.beginSection {h : Half} {b : Nat} {e : Nat × Nat × Nat} (hs : s.Mems) : (s.beginSection h b e).Mems := by
  unfold State.beginSection
  exact hs.hbmPlace.setReg.setReg.batchCmd.updStart

protected theorem State.Mems.endSection {h : Half} {again : Bool} (hs : s.Mems) : (s.endSection h again).Mems := hs.updStart

protected theorem State.Mems.refuseSection {h : Half} {b num reason : Nat} (hs : s.Mems) : (s.refuseSection h b num reason).Mems :=
  hs.batchCmd.updStart.endSection

protected theorem State.Mems.batchStep {h : Half} (hs : s.Mems) : (s.batchStep h).Mems := by
  dsimp only [State.batchStep]
  split
  · exact hs
  · split
    · exact .ite hs.updStart.beginSection hs
    · exact hs
  · split
    · exact hs.setReg.batchCmd
    · exact hs.endSection
    · exact hs.endSection
    · exact hs.endSection
    · exact .ite (.ite hs.batchCmd.endSection hs) hs.refuseSection
    · exact hs

protected theorem State.Mems.startTick (hs : s.Mems) : s.startTick.Mems := .ite (.ite hs.batchStep.batchStep.settleStart hs.seqOn) hs

protected theorem State.Mems.mgmtTick (hs : s.Mems) : s.mgmtTick.Mems := .ite hs.moveMgmt hs

protected theorem State.Mems.doPerst {low : Bool} (hs : s.Mems) : (doPerst low s).Mems :=
  .ite (hs.updPv rfl)
    (.ite (.ite (hs.updPv rfl) (.used (.beginEntry (hs.updPv rfl))))
       (.ite (.used (.enterUp (.ite (.completeEntry (hs.updPv rfl)) (hs.updPv rfl))))
          (.ite (.completeEntry (hs.updPv rfl)) (hs.updPv rfl))))

protected theorem State.Mems.doFlr {f : Fin 2} (hs : s.Mems) : (doFlr f s).Mems := hs.setReg.foldl fun h1 => h1.setReg

protected theorem State.Mems.doExtest (hs : s.Mems) : (doExtest s).Mems :=
  .ite hs (.foldl (.beginEntry (.foldl (.beginEntry (hs.updPv rfl)) fun h1 => h1.updUnit)) fun h1 => h1.updUnit)

protected theorem State.Mems.pllPorts {pll : Nat} (hs : s.Mems) : (s.pllPorts pll).Mems := by
  unfold State.pllPorts
  extract_lets h s1
  have h1 : s1.Mems := hs.foldl fun h1 => .ite h1.dropLink h1
  exact .ite h1.expFalls h1

protected theorem State.Mems.doPllLost {pll : Nat} (hs : s.Mems) : (doPllLost pll s).Mems :=
  .ite hs (.ite (.pllPorts (hs.updPv rfl)) (.ite (.fault (.fault (.fault (.fault (hs.updPv rfl)))))
    (.ite (.dropFord (.dropFord (hs.updPv rfl))) (hs.updPv rfl))))

protected theorem State.Mems.doPllBack {pll : Nat} (hs : s.Mems) : (doPllBack pll s).Mems := hs.updPv rfl

/-! ### TaskRun -/

protected theorem State.Mems.startOn {h : Half} {t : TileIx} {n : Fin 128} {k : Nat} (hs : s.Mems) : (s.startOn h t n k).Mems := by
  unfold State.startOn
  extract_lets x y s1
  have h1 (pc : Nat) : (s1 pc).Mems := hs.updThread.updTask
  refine .ite (h1 0).discardTask ?_
  split
  · exact (h1 0).trapDiscard
  · exact h1 _

protected theorem State.Mems.resumeOn {h : Half} {t : TileIx} {n : Fin 128} {k : Nat} (hs : s.Mems) : (s.resumeOn h t n k).Mems := by
  unfold State.resumeOn
  extract_lets x y z s1 s2
  have h2 : s2.Mems := hs.updThread.updTask
  exact .ite h2.raiseInt h2

protected theorem State.Mems.startSvc {h : Half} {t : TileIx} {n : Fin 128} {j : Nat} (hs : s.Mems) : (s.startSvc h t n j).Mems := by
  unfold State.startSvc
  extract_lets w c k fl s1 s2 x s3
  have h2 : s2.Mems := hs.setReg.updTile fun _ => Tile.put_memoryWf _ _
  exact h2.updTask.bump.startOn

protected theorem State.Mems.doTaskDispatch {h : Half} {t : TileIx} {n : Fin 128} (hs : s.Mems) : (doTaskDispatch h t n s).Mems := by
  dsimp only [doTaskDispatch]
  refine .ite ?_ hs
  split
  · exact hs
  · exact .ite hs.resumeOn (.ite hs.startOn hs)
  · exact .ite hs.used.startSvc hs

/-! ### TblReq -/

protected theorem State.Mems.tblCall {th : ThreadRef} {op : FkOp} {fn : Nat} {len : Fk → Nat} {align out : Nat}
    {f : State → TblCall → TblRes} (hs : s.Mems) (hf : ∀ {t a}, t.Mems → (f t a).s.Mems) :
    (tblCall th op fn len align out s f).Mems := by
  dsimp only [tblCall]
  refine .fkRun hs fun h1 => ?_
  split
  · exact h1
  · refine .ite_state h1 ?_
    split
    · exact h1
    · refine .ite_state h1 ?_
      refine .ite_state h1 ?_
      split
      · exact h1
      · exact .ite_state h1 (.issueReq (hf h1))

protected theorem State.Mems.lookupBody {q : TblCall} (hs : s.Mems) : (lookupBody s q).s.Mems := by
  dsimp only [lookupBody]
  split
  · exact .ite hs.refreshEx hs
  · exact hs

protected theorem State.Mems.groupBody {q : TblCall} (hs : s.Mems) : (groupBody s q).s.Mems := by
  dsimp only [groupBody]
  exact .ite_s hs hs

protected theorem State.Mems.lpmBody {q : TblCall} (hs : s.Mems) : (lpmBody s q).s.Mems := by
  dsimp only [lpmBody]
  split
  · exact hs
  · exact hs

protected theorem State.Mems.flowRes {status slot : Nat} {r : Option (List Byte)} (hs : s.Mems) : (flowRes s status slot r).s.Mems := by
  dsimp only [flowRes]
  split
  · exact hs
  · exact hs.used

protected theorem State.Mems.flowFindBody {q : TblCall} (hs : s.Mems) : (flowFindBody s q).s.Mems := by
  dsimp only [flowFindBody]
  split
  · next s1 e => exact (hs.flowSearch.of_fst e).flowRes
  · next s1 e => exact (hs.flowSearch.of_fst e).flowRes
  · next s1 f e => exact .ite_s ((hs.flowSearch.of_fst e).flowTouch.flowRes) ((hs.flowSearch.of_fst e).flowRes)

protected theorem State.Mems.flowInsertBody {q : TblCall} (hs : s.Mems) : (flowInsertBody s q).s.Mems := by
  dsimp only [flowInsertBody]
  split
  · next s1 e => exact (hs.flowSearch.of_fst e).flowRes
  · next s1 e =>
      split
      · next s2 p e2 => exact ((hs.flowSearch.of_fst e).flowPlace.of_fst e2).flowStore.bump.flowRes
      · next s2 e2 => exact ((hs.flowSearch.of_fst e).flowPlace.of_fst e2).bump.flowRes
  · next s1 f e => exact (hs.flowSearch.of_fst e).flowRes

protected theorem State.Mems.flowNamed {h : Half} {slot key : Nat} (hs : s.Mems) : (s.flowNamed h slot key).1.Mems := by
  dsimp only [State.flowNamed]
  refine .ite_fst ?_ ?_
  · split
    · exact .ite_fst hs hs.flowSearch
    · exact hs.flowSearch
  · refine .ite_fst ?_ hs.flowSearch
    split
    · next s1 r e => exact .ite_fst (hs.flowRead.of_fst e) ((hs.flowRead.of_fst e).flowSearch)
    · next s1 e => exact (hs.flowRead.of_fst e).flowLost

protected theorem State.Mems.flowWriteBody {q : TblCall} (hs : s.Mems) : (flowWriteBody s q).s.Mems := by
  dsimp only [flowWriteBody]
  split
  · next s1 e => exact (hs.flowNamed.of_fst e).flowRes
  · next s1 e => exact (hs.flowNamed.of_fst e).flowRes
  · next s1 f e => exact (hs.flowNamed.of_fst e).flowTouch.flowRes

protected theorem State.Mems.flowDeleteBody {q : TblCall} (hs : s.Mems) : (flowDeleteBody s q).s.Mems := by
  dsimp only [flowDeleteBody]
  split
  · next s1 e => exact (hs.flowNamed.of_fst e).flowRes
  · next s1 e => exact (hs.flowNamed.of_fst e).flowRes
  · next s1 f e => exact (hs.flowNamed.of_fst e).used.flowRemove.flowRes

protected theorem State.Mems.meterBody {q : TblCall} (hs : s.Mems) : (meterBody s q).s.Mems := by
  dsimp only [meterBody]
  exact .ite_s hs.fillMeter hs.chargeMeter

protected theorem State.Mems.searchBody {after : TblCall → Option Nat} {q : TblCall} (hs : s.Mems) : (searchBody after s q).s.Mems := by
  dsimp only [searchBody]
  exact hs.used.bumpBy

protected theorem State.Mems.countAssoc {h : Half} {bs : List Byte} (hs : s.Mems) : (s.countAssoc h bs).Mems := by
  unfold State.countAssoc
  extract_lets st b s1 s2 s3
  have h1 : s2.Mems := .ite hs.bump.bump hs.bump
  have h2 : s3.Mems := .ite h1.bump h1
  exact .ite h2.bump h2

protected theorem State.Mems.doTableResponse {h : Half} {t : TileIx} {id : Nat} (hs : s.Mems) : (doTableResponse h t id s).Mems := by
  dsimp only [doTableResponse]
  split
  · exact hs
  · exact .ite (.respond (.ite hs.countAssoc hs)) hs

/-! ### Tick -/

protected theorem State.Mems.coreCycle {h : Half} (hs : s.Mems) : (s.coreCycle h).Mems := hs.deadCycle.droopCycle.hbmCycle.slotCycle

protected theorem State.Mems.coreTick {h : Half} (hs : s.Mems) : (s.coreTick h).Mems :=
  .ite (hs.updPv rfl) (.coreCycle (.ite (.bump (hs.updPv rfl)) (hs.updPv rfl)))

protected theorem State.Mems.stallTick {h : Half} (hs : s.Mems) : (s.stallTick h).Mems := by
  dsimp only [State.stallTick]
  refine .ite ?_ ?_
  · split
    · exact hs
    · exact .ite hs.bump.bump hs.bump
  · refine .bump ?_
    split
    · exact hs
    · exact .ite hs.bump.bump hs.bump

protected theorem State.Mems.fordTick {h : Half} (hs : s.Mems) : (s.fordTick h).Mems := .ite hs.bump hs

protected theorem State.Mems.brambleTick {h : Half} {t : TileIx} (hs : s.Mems) : (State.brambleTick h s t).Mems := .ite hs.bump hs

protected theorem State.Mems.portTicks {h : Half} (hs : s.Mems) : (s.portTicks h).Mems := .ite (hs.foldl fun h1 => h1.schedTickPort) hs

protected theorem State.Mems.halfTick {h : Half} (hs : s.Mems) : (s.halfTick h).Mems :=
  .ite (.expTick (.telemTick (.noteTick (.hbmTick (.portTicks (.fordTick (.stallTick (hs.coreTick.foldl fun h1 => h1.brambleTick)))))))) hs

protected theorem State.Mems.tick (hs : s.Mems) : s.tick.Mems := hs.halfTick.halfTick.timeTick.startTick.p129Tick.mgmtTick.checked

/-! ### The commands -/

/-- The next state of an outcome, if there is one, keeps the memories canonical. -/
def NextMems (o : Out) : Prop := ∀ t, o = .next t → t.Mems

theorem NextMems.of (hs : s.Mems) : NextMems (.next s) := by
  intro t e
  cases e
  exact hs

protected theorem State.Mems.execCount {th : ThreadRef} (hs : s.Mems) : NextMems (execCount th s) := by
  dsimp only [execCount]
  refine .of (.fkRun hs fun h1 => ?_)
  split
  · exact h1
  · exact .ite_state h1.countPair h1

protected theorem State.Mems.execFkRet {th : ThreadRef} (hs : s.Mems) : NextMems (execFkRet th s) := by
  dsimp only [execFkRet]
  refine .of (.fkRun hs fun h1 => ?_)
  split
  · exact h1
  · exact h1.updThread

protected theorem State.Mems.execFkRspop {th : ThreadRef} (hs : s.Mems) : NextMems (execFkRspop th s) := by
  dsimp only [execFkRspop]
  refine .of (.fkRun hs fun h1 => ?_)
  split
  · exact h1
  · exact h1.updThread

protected theorem State.Mems.execFkPush {th : ThreadRef} (hs : s.Mems) : NextMems (execFkPush th s) := by
  dsimp only [execFkPush]
  refine .of (.fkRun hs fun h1 => ?_)
  refine .ite_state h1 ?_
  refine .ite_state h1 ?_
  split
  · next s1 e => exact (h1.store.of_fst e).setDsp
  · next s1 x e => exact h1.store.of_fst e

protected theorem State.Mems.execFkPop {th : ThreadRef} (hs : s.Mems) : NextMems (execFkPop th s) := by
  dsimp only [execFkPop]
  refine .of (.fkRun hs fun h1 => ?_)
  refine .ite_state h1 ?_
  refine .ite_state h1 ?_
  split
  · next s1 bs e => exact (h1.load.of_fst e).putG.setDsp
  · next s1 x e => exact h1.load.of_fst e

protected theorem State.Mems.execFkFrd {th : ThreadRef} (hs : s.Mems) : NextMems (execFkFrd th s) := by
  dsimp only [execFkFrd]
  refine .of (.fkRun hs fun h1 => ?_)
  split
  · exact h1.frdBody
  · exact h1

protected theorem State.Mems.execFkHrd {th : ThreadRef} (hs : s.Mems) : NextMems (execFkHrd th s) := by
  dsimp only [execFkHrd]
  refine .of (.fkRun hs fun h1 => ?_)
  split
  · exact h1.hbmReqBody
  · exact h1

protected theorem State.Mems.execFkHwr {th : ThreadRef} (hs : s.Mems) : NextMems (execFkHwr th s) := by
  dsimp only [execFkHwr]
  refine .of (.fkRun hs fun h1 => ?_)
  split
  · exact h1.hbmReqBody
  · exact h1

protected theorem State.Mems.execFkTwait {th : ThreadRef} (hs : s.Mems) : NextMems (execFkTwait th s) := by
  dsimp only [execFkTwait]
  refine .of (.fkRun hs fun h1 => ?_)
  split
  · exact h1.twaitBody
  · exact h1

protected theorem State.Mems.execFkTdone {th : ThreadRef} (hs : s.Mems) : NextMems (execFkTdone th s) := by
  dsimp only [execFkTdone]
  refine .of (.fkRun hs fun h1 => ?_)
  split
  · exact h1.tdoneBody
  · exact h1

protected theorem State.Mems.execFkTdrop {th : ThreadRef} (hs : s.Mems) : NextMems (execFkTdrop th s) := by
  dsimp only [execFkTdrop]
  refine .of (.fkRun hs fun h1 => ?_)
  split
  · exact h1.bump.completeTask
  · exact h1

protected theorem State.Mems.execFkPostf {th : ThreadRef} (hs : s.Mems) : NextMems (execFkPostf th s) := by
  dsimp only [execFkPostf]
  refine .of (.fkRun hs fun h1 => ?_)
  refine .ite_state h1 ?_
  split
  · next s1 x e => exact h1.postBytes.of_fst e
  · next s1 bs e => exact (h1.postBytes.of_fst e).postFrame

protected theorem State.Mems.execFkChrecv {th : ThreadRef} (hs : s.Mems) : NextMems (execFkChrecv th s) := by
  dsimp only [execFkChrecv]
  refine .of (.fkRun hs fun h1 => ?_)
  split
  · next s1 x e => exact h1.putArea.of_fst e
  · next s1 e => exact .ite (h1.putArea.of_fst e) ((h1.putArea.of_fst e).setChan.bumpChan)

protected theorem State.Mems.execFkLock {th : ThreadRef} (hs : s.Mems) : NextMems (execFkLock th s) := by
  dsimp only [execFkLock]
  refine .of (.fkRun hs fun h1 => ?_)
  split
  · exact h1.takeLock.putG
  · exact h1.putG
  · exact .queueLock h1.updThread

protected theorem State.Mems.execFkTrylock {th : ThreadRef} (hs : s.Mems) : NextMems (execFkTrylock th s) := by
  dsimp only [execFkTrylock]
  refine .of (.fkRun hs fun h1 => ?_)
  split
  · exact h1.takeLock.putG
  · exact h1.putG
  · exact h1.putG

protected theorem State.Mems.execFkUnlock {th : ThreadRef} (hs : s.Mems) : NextMems (execFkUnlock th s) := by
  dsimp only [execFkUnlock]
  exact .of (.fkRun hs (fun h1 => h1.unlock.putG))

protected theorem State.Mems.execFkCpsave {th : ThreadRef} (hs : s.Mems) : NextMems (execFkCpsave th s) := by
  dsimp only [execFkCpsave]
  refine .of (.cpCall hs fun h1 => ?_)
  split
  · exact h1
  · exact .ite_state h1 h1.issueReq

protected theorem State.Mems.execFkCprestore {th : ThreadRef} (hs : s.Mems) : NextMems (execFkCprestore th s) := by
  dsimp only [execFkCprestore]
  refine .of (.cpCall hs fun h1 => ?_)
  split
  · exact h1
  · exact .ite_state h1.lateReport (.ite_state h1.callTrap h1.updInst)

protected theorem State.Mems.execFkCvcfg {th : ThreadRef} (hs : s.Mems) : NextMems (execFkCvcfg th s) := by
  dsimp only [execFkCvcfg]
  refine .of (.cpCall hs fun h1 => ?_)
  split
  · exact h1
  · exact .cpDone h1 (fun h2 => h2.updInst)

protected theorem State.Mems.execFkCvupd {th : ThreadRef} (hs : s.Mems) : NextMems (execFkCvupd th s) := by
  dsimp only [execFkCvupd]
  refine .of (.cpCall hs fun h1 => ?_)
  refine .ite_state h1.callTrap ?_
  split
  · exact h1
  · exact .cpDone h1 (fun h2 => h2.updInst)

protected theorem State.Mems.execFkCvfin {th : ThreadRef} (hs : s.Mems) : NextMems (execFkCvfin th s) := by
  dsimp only [execFkCvfin]
  refine .of (.cpCall hs fun h1 => ?_)
  split
  · exact h1
  · exact .cpDone h1 (fun h2 => h2.updInst.used)

protected theorem State.Mems.execFkCvappend {th : ThreadRef} (hs : s.Mems) : NextMems (execFkCvappend th s) := by
  dsimp only [execFkCvappend]
  refine .of (.cpCall hs fun h1 => ?_)
  split
  · exact h1
  · exact h1
  · exact h1
  · refine .cpDone h1 fun h2 => h2.updTile fun x hx => ?_
    split
    · exact Tile.put_memoryWf _ _ hx
    · exact Tile.put_memoryWf _ _ (Tile.put_memoryWf _ _ hx)

protected theorem State.Mems.execFkCvcheck {th : ThreadRef} (hs : s.Mems) : NextMems (execFkCvcheck th s) := by
  dsimp only [execFkCvcheck]
  refine .of (.cpCall hs fun h1 => ?_)
  split
  · exact h1
  · exact h1
  · exact h1
  · refine .cpDone h1 fun h2 => ?_
    split
    · exact (h2.updTile fun _ => Tile.put_memoryWf _ _).used
    · exact h2.used

protected theorem State.Mems.execFkHcfg {th : ThreadRef} (hs : s.Mems) : NextMems (execFkHcfg th s) := by
  dsimp only [execFkHcfg]
  refine .of (.cpCall hs fun h1 => ?_)
  split
  · exact h1
  · exact .cpDone h1 (fun h2 => h2.updInst)

protected theorem State.Mems.execFkSd {th : ThreadRef} (hs : s.Mems) : NextMems (execFkSd th s) := by
  dsimp only [execFkSd]
  refine .of (.fkRun hs fun h1 => ?_)
  split
  · next s1 e => exact h1.store.of_fst e
  · next s1 x e => exact h1.store.of_fst e

/-- Every command keeps the memories canonical. -/
theorem State.Mems.exec (hs : s.Mems) (c : Instr) : NextMems (Machine.exec c s) := by
  cases c with
  | frameStart => exact .of hs.doFrameStart.checked
  | frameBytes => exact .of hs.doFrameBytes.checked
  | pfcRefresh => exact .of hs.doPfcRefresh
  | pfcFrameTransmit => exact .of hs.doPfcTransmit
  | frameEnd => exact .of hs.doFrameEnd.checked
  | pfcReceive => exact .of hs.doPfcReceive
  | pfcPauseExpire => exact .of hs.doPfcExpire
  | classifyFrame => exact .of hs.doClassify
  | parseSecondPass => exact .of hs.doSecondPass
  | taskCreate => exact .of hs.doTaskCreate.checked
  | brambleScanStart => exact .of hs.doScanStart
  | brambleScanEnd => exact .of hs.doScanEnd
  | taskDispatch => exact .of hs.doTaskDispatch.checked
  | confluenceRelease => exact .of hs.doConfluence.checked
  | patienceCheck => exact .of hs.doPatience
  | oldestLiveSample => exact .of hs.doOldestLive
  | tableSyncNoticeSend => exact .of hs.doNoticeSend
  | tableSyncNoticeReceive => exact .of hs.doNoticeReceive
  | crossingSend => exact .of hs.doCrossSend
  | crossingReceipt => exact .of hs.doCrossReceipt
  | crossingAck => exact .of hs.doCrossAck
  | replWalk => exact .of hs.doReplWalk
  | admitCopy => exact .of hs.doAdmitCopy
  | spillWriteAccepted => exact .of (.orWait hs (fun h1 => h1.doSpillWritten))
  | spillFill => exact .of (.orWait hs (fun h1 => h1.doSpillFill))
  | fillRetry => exact .of (.orWait hs (fun h1 => h1.doFillRetry))
  | schedSelect => exact .of hs.doSchedSelect.checked
  | rewriteFrame => exact .of hs.doRewrite
  | frameTransmit => exact .of hs.doTransmit
  | transmitReadEnd => exact .of hs.doReadEnd
  | linkAttemptEnd => exact .of hs.doAttemptEnd
  | linkDown => exact .of hs.doLinkDown
  | portHoldExpire => exact .of hs.doHoldExpire
  | portFlushEntry => exact .of hs.doFlushEntry
  | reclaimVisit => exact .of hs.doReclaimVisit
  | commitNow => exact .of (.ite hs.startCommit hs)
  | commitArm => exact .of (.ite hs.armCommit hs)
  | commitDisarm => exact .of (.ite hs.setArmed hs)
  | commitAtWrite => exact .of (.ite hs.setReg hs)
  | armedCommitStart => exact .of hs.doArmedStart
  | commitReach => exact .of hs.doCommitReach
  | unitCommitApply => exact .of hs.doCommitApply
  | requestReset => exact .of (.ite hs.reqReset hs)
  | requestTest => exact .of (.ite hs.reqTest hs)
  | requestActive => exact .of (.ite hs.reqActive hs)
  | requestFence => exact .of (.ite hs.reqFence hs)
  | requestOff => exact .of (.ite hs.reqOff hs)
  | activeTree => exact .of (.ite hs.reqTree hs)
  | unitEntryComplete => exact .of hs.doEntryEnd
  | devRequestRun => exact .of hs.doDevRun
  | devRequestRecovery => exact .of hs.doDevRecovery
  | csrHoleAccess | csrMisalignedAccess => exact .of (.ite hs.csrHole hs)
  | registerWrite => exact .of hs.csrWrite
  | dtsNowRead => exact .of (.ite hs.doDtsNowRead hs)
  | injectForceWrite => exact .of (.ite hs.forceWrite hs)
  | invArm => exact .of (.ite hs.armInv hs)
  | dtsAlignSend => exact .of hs.doAlignSend
  | dtsAlignReceive => exact .of hs.doAlignReceive
  | dtsFollowerSlew | dtsSlewAdjust => exact .of (.ite hs.tick hs)
  | loadNow => exact .of (.ite hs.doLoadNow hs)
  | loadArm => exact .of (.ite hs.doLoadArm hs)
  | tsyncInEdge => exact .of hs.doTsyncIn
  | tsyncOutRise => exact .of hs.doTsyncRise
  | tsyncOutFall => exact .of hs.doTsyncFall
  | dtsSlewWrite => exact .of (.ite hs.doSlewWrite hs)
  | ptpSet => exact .of (.ite hs.doPtpSet hs)
  | ptpAdd => exact .of (.ite hs.doPtpAdd hs)
  | ptpSub => exact .of (.ite hs.doPtpSub hs)
  | ptpNsRead => exact .of (.ite hs.doPtpNsRead hs)
  | ptpTxtsBRead => exact .of (.ite hs.popTxts hs)
  | agingVisit => exact .of (.orWait hs (fun h1 => h1.doAgingVisit))
  | lookup => exact .of (.tblCall hs (fun h1 => h1.lookupBody))
  | groupSelect => exact .of (.tblCall hs (fun h1 => h1.groupBody))
  | lpm => exact .of (.tblCall hs (fun h1 => h1.lpmBody))
  | flowFind => exact .of (.tblCall hs (fun h1 => h1.flowFindBody))
  | flowFindInsert => exact .of (.tblCall hs (fun h1 => h1.flowInsertBody))
  | flowWrite => exact .of (.tblCall hs (fun h1 => h1.flowWriteBody))
  | flowDelete => exact .of (.tblCall hs (fun h1 => h1.flowDeleteBody))
  | meter => exact .of (.tblCall hs (fun h1 => h1.meterBody))
  | search | assocStep => exact .of (.tblCall hs (fun h1 => h1.searchBody))
  | tableResponse => exact .of hs.doTableResponse.checked
  | flowStashReturn => exact .of (.orWait hs (fun h1 => h1.doStashReturn))
  | counterWriteback => exact .of (.orWait hs (fun h1 => h1.doWriteback))
  | counterReadSelWrite | learnNoteSizeWrite | telemSizeWrite => exact .of hs.agentWrite
  | counterReadDone => exact .of (.orWait hs (fun h1 => h1.doReadDone))
  | meterRefill => exact .of hs.doMeterRefill
  | build | post | buildPost | abort | ack => exact .of hs.agentBatch
  | batchRecordApply => exact .of (.orWait hs (fun h1 => h1.doRecordApply.withShadow))
  | batchUndoStep => exact .of hs.doUndoStep.withShadow.checked
  | batchRetireStart => exact .of hs.doRetireStart
  | retireWalkStep => exact .of hs.doRetireWalk.withShadow.checked
  | learnExamine => exact .of hs.doLearnExamine
  | learnWrite => exact .of hs.doLearnWrite.withShadow.checked
  | tableEntryRepairDone => exact .of hs.doEntryRepaired
  | shadowCheckVisit => exact .of hs.doShadowVisit
  | shadowRepairDone => exact .of hs.doShadowRepaired
  | assocScrubVisit => exact .of hs.doAssocScrub
  | assocEntryRepairDone => exact .of hs.doAssocRepaired
  | assocSpareFillDone => exact .of hs.doSpareFilled
  | brambleScrubVisit => exact .of hs.doBrambleScrub
  | brambleReloadDone => exact .of hs.doBrambleReload
  | confirmCmp | confirmFind => exact .of (.cpCall hs (fun h1 => h1.confBody))
  | confirmStep => exact .of (.cpCall hs (fun h1 => h1.confStep))
  | injectQueueEntry => exact .of hs.doInjectEntry.checked
  | svcPostWrite => exact .of (.ite hs.svcPost hs)
  | svcEnableWrite => exact .of (.ite hs.svcConfig hs)
  | imgArm | imgDisarm => exact .of (.ite hs.imgCtl hs)
  | imgSwitch => exact .of hs.doSwitch
  | imgDrainEnd => exact .of hs.doDrainEnd
  | fkAdd | fkSub | fkAdds | fkSubs | fkAddus | fkSubus | fkNeg | fkAbs | fkAnd | fkOr | fkXor | fkAndn | fkMin | fkMax
  | fkMinu | fkMaxu | fkClz | fkCtz | fkPopc | fkBswap | fkSll | fkSrl | fkSra | fkRor | fkSls | fkMul | fkMulh | fkMulhu =>
    exact .of (.fkRun hs (fun h1 => h1.aluBody))
  | fkAddi | fkAndi | fkOri | fkXori | fkLi | fkLui | fkSel | fkExtu | fkExts | fkIns | fkSlli | fkSrli | fkSrai | fkRori
  | fkSlsi | fkFmul | fkExtr | fkMval | fkMvah => exact .of (.fkRun hs (fun h1 => h1.gRes))
  | fkDiv | fkDivu | fkRem | fkRemu => exact .of (.fkRun hs (fun h1 => h1.divBody))
  | fkMpyf | fkMacf | fkMsuf | fkMaci | fkAadd | fkAsub | fkAneg | fkAsl | fkAsr | fkAclr | fkMvg | fkMvas =>
    exact .of (.fkRun hs (fun h1 => h1.aRes))
  | fkCmp | fkCmpi | fkTst => exact .of (.fkRun hs (fun h1 => h1.setFlags))
  | fkB | fkJr | fkTrap | fkNop | fkGate => exact .of (.fkRun hs (fun h1 => h1))
  | fkBcc | fkBz | fkBnz => exact .of (.fkRun hs (fun h1 => h1.branchBody))
  | fkCall | fkCallr | fkRspush => exact .of (.fkRun hs (fun h1 => .ite_state h1 h1.pushRs))
  | fkBreak => exact .of (.fkRun hs (fun h1 => .ite_state h1.haltNow h1))
  | fkTret => exact .of (.fkRun hs (fun h1 => .ite_state h1.updThread h1))
  | fkClrf => exact .of (.fkRun hs (fun h1 => h1.updThread))
  | fkMtsr => exact .of (.fkRun hs (fun h1 => h1.updThread))
  | fkChstg => exact .of (.fkRun hs (fun h1 => h1.updThread))
  | fkChdrop => exact .of (.fkRun hs (fun h1 => h1.updThread))
  | fkMfsr => exact .of (.fkRun hs (fun h1 => .putG (.ite h1.updThread h1)))
  | fkLb | fkLbu | fkLh | fkLhu | fkLw | fkLhn | fkLwn => exact .of (.fkRun hs (fun h1 => h1.loadBody))
  | fkSb | fkSh | fkSw | fkShn | fkSwn => exact .of (.fkRun hs (fun h1 => h1.storeBody))
  | memoryResponse => exact .of hs.doMemoryResponse
  | fkWaitev => exact .of (.fkRun hs (fun h1 => .ite_state h1.waitevDone (.bumpCore h1.updThread)))
  | waitevComplete => exact .of hs.doWaitevComplete
  | fkEvsig =>
    exact .of (.fkRun hs (fun h1 => .ite_state h1 (.ite (.raiseInt (.ite h1.setEv.bumpCore h1.setEv)) (.ite h1.setEv.bumpCore h1.setEv))))
  | evPostWrite => exact .of (.ite hs.doEvPost hs)
  | threadTimerExpire => exact .of hs.doTimerExpire
  | interruptTake => exact .of hs.doInterruptTake
  | eventDeadlock => exact .of hs.doEventDeadlock
  | threadPost => exact .of (.ite hs.doThreadPost hs)
  | threadKill => exact .of (.ite hs.doThreadKill hs)
  | threadResume => exact .of (.ite hs.doThreadResume hs)
  | threadHalt => exact .of (.ite hs.doThreadHalt hs)
  | haltComplete => exact .of hs.doHaltComplete
  | fkChsend =>
    exact .of (.fkRun hs (fun h1 => .ite_state h1.putG (.ite_state h1.bumpChan.putG
      (.putG h1.sendMessage.updThread))))
  | chCfgWrite => exact .of (.ite hs.writeChCfg hs)
  | locksForce => exact .of (.ite hs.forceLock hs)
  | fkCplock => exact .of (.fkRun hs (fun h1 => .statusCall h1 (fun h2 => h2.cpLock)))
  | fkCpunlock => exact .of (.fkRun hs (fun h1 => .statusCall h1 (fun h2 => h2.cpUnlock)))
  | fkHash | fkHashm => exact .of (.cpCall hs (fun h1 => h1.hashBody))
  | fkFdiv | fkLog2 | fkExp2 => exact .of (.cpCall hs (fun h1 => h1.fracBody))
  | fkExpRequest => exact .of (.cpCall hs (fun h1 => h1.expBody))
  | coprocResponse => exact .of hs.doCoprocResponse.checked
  | coprocCancelAck => exact .of hs.doCancelAck
  | coprocLateFailure => exact .of hs.doCoprocLate
  | expReqSend => exact .of hs.doExpSend
  | expFlitReceive => exact .of hs.doExpFlit
  | expRspReceive => exact .of hs.doExpRsp
  | frameIn => exact .of hs.doFrameIn
  | expReplay => exact .of hs.doExpReplay
  | expTimeout => exact .of hs.doExpTimeout
  | expLinkUp => exact .of hs.doExpUp
  | expLinkDown => exact .of hs.doExpDown
  | shaperRefill => exact .of hs.doShaperRefill
  | hbmAccess => exact .of hs.doHbmAccess.checked
  | hbmWriteToArray => exact .of hs.doHbmWriteToArray.checked
  | hbmRefresh => exact .of hs.doHbmRefresh
  | hbmPowerDown => exact .of hs.doHbmPowerDown
  | hbmScrubRead => exact .of hs.doHbmScrub
  | hbmRowRepairDone => exact .of hs.doRowRepairDone
  | hbmTrainingDone => exact .of hs.doHbmTrained
  | powerGateEnter => exact .of hs.doPowerGate
  | powerWake => exact .of hs.doPowerWake
  | fordTrainingDone => exact .of hs.doFordTrainingDone
  | fordFlitReceive => exact .of hs.doFordFlit
  | fordLaneCheck => exact .of hs.doLaneCheck
  | fordLaneRepairDone => exact .of hs.doLaneRepaired
  | fordLinkDown => exact .of hs.doFordDown
  | heartbeatSend => exact .of hs.doHeartbeatSend
  | heartbeatReceive => exact .of hs.doHeartbeatReceive
  | fatalNoticeReceive => exact .of hs.doFatalNotice
  | peerLost => exact .of hs.doPeerLost
  | peerUp => exact .of hs.doPeerUp
  | learnShareNotice => exact .of hs.doLearnShare
  | faultReport => exact .of (.orWait hs (fun h1 => h1.doFaultReport))
  | recAck => exact .of (.ite hs.recAck hs)
  | recLoRead => exact .of (.ite hs.recLoRead hs)
  | detailARead => exact .of (.ite hs.detailARead hs)
  | detailBRead => exact .of (.ite hs.detailBRead hs)
  | hubEventToPrivet => exact .of hs.doHubEvent
  | faultnPulseEnd => exact .of hs.doPulseEnd
  | spareHandover => exact .of hs.doHandover
  | selfTestEnd => exact .of hs.doSelfTest
  | reweightBatch => exact .of hs.doReweight
  | privetHbWrite => exact .of hs.doHbWrite
  | privetHbWindow => exact .of hs.doHbWindow
  | privetRelease => exact .of hs.doPrivetRelease
  | halfRestart => exact .of hs.doHalfRestart
  | privetInfo => exact .of (.ite hs.doInfo hs)
  | imgStage => exact .of (.ite (.orWait hs (fun h1 => h1.doImgStage)) hs)
  | imgActivate => exact .of (.ite hs.doImgActivate hs)
  | imgConfirm => exact .of (.ite hs.doImgConfirm hs)
  | storeCommit => exact .of (.ite hs.doStoreCommit hs)
  | logRead => exact .of (.ite (.orWait hs (fun h1 => h1.doLogRead)) hs)
  | i2cXfer => exact .of (.ite (.orWait hs (fun h1 => h1.doI2c)) hs)
  | grant => exact .of (.ite hs.doGrant hs)
  | debugChallenge => exact .of (.ite hs.doChallenge hs)
  | debugUnlock => exact .of (.ite (.orWait hs (fun h1 => h1.doUnlock)) hs)
  | ccReload => exact .of (.ite hs.doCcReload hs)
  | mbGo => exact .of hs.mbGo
  | debugLock => exact .of (.ite hs.lockDebug hs)
  | debugTokenExpire => exact .of hs.doTokenExpire
  | tftpStage => exact .of hs.doTftpStage
  | storeAutoCommit => exact .of hs.doAutoCommit
  | logFlush => exact .of hs.doLogFlush
  | calViewWrite => exact .of (.ite hs.calWrite hs)
  | sensorSample => exact .of hs.doSensorSample
  | senseTempRead => exact .of (.ite hs.tempRead hs)
  | thermalRelease => exact .of hs.doThermalRelease
  | railSample => exact .of hs.doRailSample
  | clockMonitorWindow => exact .of hs.doClockWindow
  | refclkLoss => exact .of hs.doRefclkLoss
  | pllUnlock => exact .of hs.doPllUnlock
  | ioPllUnlock => exact .of hs.doPllLost
  | droopRise => exact .of hs.doDroopRise
  | droopFall => exact .of hs.doDroopFall
  | droopStatRead => exact .of (.ite hs.droopRead hs)
  | pfailAssert => exact .of hs.doPfailAssert
  | pfailDeassert => exact .of hs.doPfailDeassert
  | poresetN => exact .of hs.doPoreset
  | sysresetN => exact .of hs.doSysreset
  | resetRelease => exact .of hs.doRelease
  | nosReady => exact .of (.ite hs.setNosReady hs)
  | pciePerstN => exact .of hs.doPerst
  | functionLevelReset => exact .of hs.doFlr
  | mgmtFrameReceive => exact .of (.orWait hs (fun h1 => h1.doMgmtReceive))
  | mgmtFrameTransmit => exact .of (.orWait hs (fun h1 => h1.doMgmtTransmit))
  | ringDeliver => exact .of (.orWait hs (fun h1 => h1.doRingDeliver))
  | mirrorPeerApply => exact .of (.orWait hs (fun h1 => h1.doMirrorApply))
  | fkDrain => exact .of (.fkRun hs (fun h1 => .ite_state h1 h1))
  | fkAlu64 => exact .of (.fkRun hs (fun h1 => h1.alu64Body))
  | fkAddi64 => exact .of (.fkRun hs (fun h1 => h1.putG64))
  | fkLd | fkLwu => exact .of (.fkRun hs (fun h1 => h1.loadBody64))
  | fkSwapm | fkAddm | fkCasm => exact .of (.fkRun hs (fun h1 => h1.swapBody))
  | fkGret | fkMtkr => exact .of (.fkRun hs (fun h1 => .privBody h1 (fun h2 => h2.updThread)))
  | fkMfkr => exact .of (.fkRun hs (fun h1 => .privBody h1 (fun h2 => h2.putG64)))
  | fkXlinv => exact .of (.fkRun hs (fun h1 => .privBody h1 (fun h2 => h2.updCc)))
  | extestLoad => exact .of hs.doExtest
  | transmitFrameEnd => exact .of hs.doFrameOut
  | hbmStackTempReport => exact .of hs.doStackTemp
  | remoteFaultChange => exact .of hs.doRemoteFault
  | ioPllRelock => exact .of hs.doPllBack
  | refclkArrival => exact .of hs.doRefclkArrival
  | pstoreRewriteDone => exact .of hs.doPstoreRewrite
  | flashEraseDone => exact .of hs.doEraseDone
  | count => exact hs.execCount
  | fkRet => exact hs.execFkRet
  | fkRspop => exact hs.execFkRspop
  | fkPush => exact hs.execFkPush
  | fkPop => exact hs.execFkPop
  | fkFrd => exact hs.execFkFrd
  | fkHrd => exact hs.execFkHrd
  | fkHwr => exact hs.execFkHwr
  | fkTwait => exact hs.execFkTwait
  | fkTdone => exact hs.execFkTdone
  | fkTdrop => exact hs.execFkTdrop
  | fkPostf => exact hs.execFkPostf
  | fkChrecv => exact hs.execFkChrecv
  | fkLock => exact hs.execFkLock
  | fkTrylock => exact hs.execFkTrylock
  | fkUnlock => exact hs.execFkUnlock
  | fkCpsave => exact hs.execFkCpsave
  | fkCprestore => exact hs.execFkCprestore
  | fkCvcfg => exact hs.execFkCvcfg
  | fkCvupd => exact hs.execFkCvupd
  | fkCvfin => exact hs.execFkCvfin
  | fkCvappend => exact hs.execFkCvappend
  | fkCvcheck => exact hs.execFkCvcheck
  | fkHcfg => exact hs.execFkHcfg
  | fkSd => exact hs.execFkSd

/-- A step is a tick or a command. -/
theorem State.Mems.step (hs : s.Mems) : NextMems (Machine.step s) := by
  unfold Machine.step
  split
  · exact .of hs.tick
  · exact hs.rest.exec _

end

end Sys2Proof.Machine

/-- Settles O4: every operation of the model keeps the memories canonical, and a step is one of them. -/
theorem stepKeepsMemories : Obligations.StepKeepsMemories := fun _ _ hs hst =>
  State.memoryWf_iff.mpr ((State.memoryWf_iff.mp hs).step _ hst)
end

section
open Sys2Proof Sys2Proof.Machine

/-! ## The memory of packet threads -/

namespace Sys2Proof

/-- Stored bytes are read back. -/
theorem tbytes_tstore {t : Tbl Byte} (ht : Tbl.wf t = true) (a : Nat) (bs : List Byte) : tbytes (tstore t a bs) a bs.length = bs := by
  induction bs generalizing t a with
  | nil => rfl
  | cons b r ih =>
    have hset := tset_wf 0 t a b ht
    have hhead : tget 0 (tstore (tset 0 t a b) (a + 1) r) a = b := by
      rw [tget_tstore _ _ _ _ hset, if_neg (by omega), tget_tset_same _ _ _ _ ht]
    exact congrArg₂ List.cons hhead (ih hset (a + 1))

/-- A store leaves the bytes beside it. -/
theorem tget_tstore_outside {t : Tbl Byte} (ht : Tbl.wf t = true) {a b : Nat} {bs : List Byte} (hb : b < a ∨ a + bs.length ≤ b) :
    tget 0 (tstore t a bs) b = tget 0 t b := by
  rw [tget_tstore _ _ _ _ ht, if_neg (by omega)]

namespace Machine

/-! ### A tile's memories after a store -/

section
variable {x : Tile} {bs : List Byte}

theorem Tile.threads_put (x : Tile) (l : Loc) (bs : List Byte) : (x.put l bs).threads = x.threads := by cases l <;> rfl

theorem Tile.get_put (hram : Tbl.wf x.ram = true) (hstore : Tbl.wf x.store = true) (l : Loc) : (x.put l bs).get l bs.length = bs := by
  cases l with
  | ram a => exact tbytes_tstore hram a bs
  | store a => exact tbytes_tstore hstore a bs

/-- A store poisons no word. -/
theorem Tile.poisoned_put {l : Loc} {n : Nat} (hp : x.poisoned l n = false) : (x.put l bs).poisoned l n = false := by
  cases l <;> exact List.any_eq_false.mpr fun w hw => List.any_eq_false.mp hp w (List.mem_of_mem_filter hw)

theorem Tile.ram_put_outside (hram : Tbl.wf x.ram = true) {l : Loc} {d b : Nat}
    (hb : ∀ g, l = .ram g → b < g + d ∨ g + d + bs.length ≤ b) : tget 0 (x.put (l.add d) bs).ram b = tget 0 x.ram b := by
  cases l with
  | ram a => exact tget_tstore_outside hram (hb a rfl)
  | store a => rfl

theorem Tile.store_put_outside (hstore : Tbl.wf x.store = true) {l : Loc} {d b : Nat}
    (hb : ∀ g, l = .store g → b < g + d ∨ g + d + bs.length ≤ b) : tget 0 (x.put (l.add d) bs).store b = tget 0 x.store b := by
  cases l with
  | ram a => rfl
  | store a => exact tget_tstore_outside hstore (hb a rfl)

end

/-! ### Loads and stores of a packet thread (R321, R322) -/

theorem Spc.not_misaligned {p : Spc} {a len : Nat} (ha : p.anyAlign = true ∨ a % len = 0) :
    (!p.anyAlign && decide (a % len ≠ 0)) = false := by
  rcases ha with ha | ha <;> simp [ha]

section
variable {s : State} {h : Half} {t : TileIx} {n : Fin 128} {a : Nat}

section
variable {len : Nat} (hspc : spcAt (s.spaces h t n.val (s.slotOfThread h t n)) a len = none)
include hspc

theorem State.load_outside : s.load (.pk h t n) a len = (s, .error (.trap cBounds a)) := by
  simp only [State.load, State.pkLoad, hspc]

theorem State.store_outside {bs : List Byte} (hlen : bs.length = len) : s.store (.pk h t n) a bs = (s, some (.trap cBounds a)) := by
  subst hlen
  simp only [State.store, State.pkStore, hspc]

end

section
variable {len : Nat} {p : Spc} (hspc : spcAt (s.spaces h t n.val (s.slotOfThread h t n)) a len = some p)
include hspc

theorem State.load_misaligned (hany : p.anyAlign = false) (ha : a % len ≠ 0) :
    s.load (.pk h t n) a len = (s, .error (.trap cAlign a)) := by
  simp [State.load, State.pkLoad, hspc, hany, ha]

theorem State.load_aligned (ha : p.anyAlign = true ∨ a % len = 0) :
    s.load (.pk h t n) a len = (s, s.spcRead h t (s.slotOfThread h t n) p a len) := by
  simp only [State.load, State.pkLoad, hspc, Spc.not_misaligned ha, Bool.false_eq_true, if_false]

variable {bs : List Byte} (hlen : bs.length = len)
include hlen

theorem State.store_readOnly (hro : p.writable = false) : s.store (.pk h t n) a bs = (s, some (.trap cBounds a)) := by
  subst hlen
  simp [State.store, State.pkStore, hspc, hro]

theorem State.store_misaligned (hany : p.anyAlign = false) (ha : a % len ≠ 0) (hwr : p.writable = true) :
    s.store (.pk h t n) a bs = (s, some (.trap cAlign a)) := by
  subst hlen
  simp [State.store, State.pkStore, hspc, hwr, hany, ha]

theorem State.store_aligned {l : Loc} (hk : p.kind = .mem l) (ha : p.anyAlign = true ∨ a % len = 0) (hwr : p.writable = true) :
    s.store (.pk h t n) a bs = (s.updTile h t fun x => x.put (l.add (a - p.base)) bs, none) := by
  subst hlen
  simp only [State.store, State.pkStore, hspc, hwr, Bool.not_true, Spc.not_misaligned ha, hk, Bool.false_eq_true, if_false]

end

/-- A read of a memory none of whose words is poisoned. -/
theorem State.spcRead_mem {p : Spc} {l : Loc} {k len : Nat} (hk : p.kind = .mem l)
    (hp : (s.tile h t).poisoned (l.add (a - p.base)) len = false) :
    s.spcRead h t k p a len = .ok ((s.tile h t).get (l.add (a - p.base)) len) := by
  cases l <;> simp_all [State.spcRead, State.spcBytes, Loc.add]

/-- A store changes no thread, so the thread reaches the same spaces after it. -/
theorem State.slotOfThread_put (hw : Tbl.wf (s.tiles.get h) = true) (l : Loc) (bs : List Byte) :
    (s.updTile h t fun x => x.put l bs).slotOfThread h t n = s.slotOfThread h t n := by
  unfold State.slotOfThread State.thread
  dsimp only
  rw [State.tile_updTile_same _ _ _ _ hw, Tile.threads_put]

end

end Machine

end Sys2Proof

/-- Settles O37: what an access does is one of the lemmas about loads and stores, by the space that takes it, and a store is the `Tile.put` of
its bytes, which `Tile.get_put` reads back. -/
theorem packetMemory : Obligations.PacketMemory := by
  unfold Obligations.PacketMemory
  refine ⟨fun s h t n a len bs hspc => ⟨State.load_outside hspc, State.store_outside hspc⟩,
    fun s h t n a len bs p hspc hany ha => ⟨State.load_misaligned hspc hany ha, fun hlen => State.store_misaligned hspc hlen hany ha⟩,
    fun s h t n a len bs p hspc hro hlen => State.store_readOnly hspc hlen hro,
    fun s h t n a bs p l hw hram hstore hspc hwr hk ha => ?_⟩
  have htile := State.tile_updTile_same s h t (fun x => x.put (l.add (a - p.base)) bs) hw
  refine ⟨_, State.store_aligned hspc rfl hk ha hwr, rfl, fun hp => ?_, fun b hb => ?_, fun b hb => ?_⟩
  · have hspc' := (State.slotOfThread_put (t := t) (n := n) hw (l.add (a - p.base)) bs).symm ▸ hspc
    rw [State.load_aligned hspc' ha, State.spcRead_mem hk (by rw [htile]; exact Tile.poisoned_put hp), htile, Tile.get_put hram hstore]
  · rw [htile, Tile.ram_put_outside hram hb]
  · rw [htile, Tile.store_put_outside hstore hb]
end

section
open Sys2Proof Sys2Proof.Machine

/-! ## The instructions of the control cores alone -/

namespace Sys2Proof.Machine

@[simp] theorem State.putG64_waits (s : State) (th : ThreadRef) (r v : Nat) : (s.putG64 th r v).waits = s.waits := State.updThread_waits _ _ _

/-! ### An instruction that issues -/

section
variable {s s1 s3 : State} {op : FkOp} {th : ThreadRef} {w : Nat} {body : State → Fk → FkRes}

/-- An instruction of which no access to memory has to wait. -/
theorem execFk_next_done (hi : Issues s op th s1 w) (hr : pcInRange th (callOf s s1 th w).nextPc = true)
    (hb : body (s1.atIssue th) (callOf s s1 th w) = .next s3) (hw : s3.waits = s.waits) :
    (.next (s.fkRun op th body) : Out) = .next (s3.fallThrough (callOf s s1 th w)) :=
  congrArg Host.Outcome.next (fkRun_next hi hb hr hw)

/-- An instruction that loads a 64-bit register. -/
theorem execFk_putG64_done {d v : Nat} (hi : Issues s op th s1 w) (hr : pcInRange th (callOf s s1 th w).nextPc = true)
    (hb : body (s1.atIssue th) (callOf s s1 th w) = .next (s3.putG64 th d v)) (hw : s3.waits = s.waits) :
    (.next (s.fkRun op th body) : Out) = .next ((s3.putG64 th d v).fallThrough (callOf s s1 th w)) :=
  execFk_next_done hi hr hb ((State.putG64_waits _ _ _ _).trans hw)

end

/-! ### The 64-bit forms (R357) -/

/-- A function other than CMP and TST, which does not divide by zero with its trap enabled. -/
theorem alu64Body_of_op (s : State) {c : Fk} {o : FkOp} (ho : aluOp (wFn6 c.w) = some o) (hcmp : o ≠ .cmp) (htst : o ≠ .tst)
    (hd : (aluRes 64 o c.sat (c.gFull (wB c.w)) (c.gFull (wC c.w))).flags &&& flDz = 0 ∨ modeDz c.x.mode = false) :
    alu64Body s c = .next (s.gRes64 c (aluRes 64 o c.sat (c.gFull (wB c.w)) (c.gFull (wC c.w)))) := by
  unfold alu64Body
  dsimp only
  split
  · next h => exact absurd (Option.some.inj (ho.symm.trans h)) hcmp
  · next h => exact absurd (Option.some.inj (ho.symm.trans h)) htst
  · next o' _ _ h =>
    cases ho.symm.trans h
    refine if_neg ?_
    rintro ⟨hflag, htrap⟩
    exact hd.elim hflag (by simp [htrap])
  · next h => cases ho.symm.trans h

theorem alu64Body_of_cmp (s : State) {c : Fk} (ho : aluOp (wFn6 c.w) = some .cmp) :
    alu64Body s c = .next (s.setFlags c.th (cmpFlags 64 c.x.flags (c.gFull (wB c.w)) (c.gFull (wC c.w)))) := by
  unfold alu64Body
  rw [ho]

/-! ### Memory (R357) -/

theorem loadBody64_of_cc {s v : State} {h : Half} {n : Fin 32} {c : Fk} {len : Nat} {bs : List Byte} (hc : c.th = .cc h n)
    (hl : s.ccLoad h n c.addr len accRead = (v, .ok bs)) : loadBody64 len s c = .next (v.putG64 c.th (wA c.w) (leNat bs)) := by
  have hload : s.load c.th c.addr len = (v, .ok bs) := by rw [hc]; exact hl
  unfold loadBody64
  rw [hload]

theorem execFkSd_of_store {s s1 v : State} {th : ThreadRef} {w : Nat} (hi : Issues s .sd th s1 w)
    (hr : pcInRange th (callOf s s1 th w).nextPc = true)
    (hst : (s1.atIssue th).store th (callOf s s1 th w).addr (leBytes 8 ((callOf s s1 th w).gFull (wA w))) = (v, none))
    (hw : v.waits = s.waits) : exec (.fkSd th) s = .next (v.fallThrough (callOf s s1 th w)) := by
  refine execFk_next_done hi hr ?_ hw
  dsimp only [callOf] at hst ⊢
  rw [hst]

section
variable {s v1 v2 v3 : State} {h : Half} {n : Fin 32} {c : Fk} {stores : Bool} {f : Fk → Nat → Option Nat} (hc : c.th = .cc h n)
include hc

/-- An address that is not a multiple of 8. -/
theorem swapBody_misaligned (ha : c.gFull (wB c.w) % 8 ≠ 0) : swapBody stores f s c = .fail s (.trap cAlign (c.gFull (wB c.w))) := by
  unfold swapBody
  rw [hc]
  exact if_pos ha

section
variable {pa : Nat} {bs : List Byte} (ha : c.gFull (wB c.w) % 8 = 0)
  (ht : s.translate h n (c.gFull (wB c.w)) (if stores then accWrite else accRead) = (v1, .ok pa))
  (hrd : v1.physRead h n pa 8 = (v2, some bs))
include ha ht hrd

/-- An operation that leaves the memory as it is. -/
theorem swapBody_keeps (hf : f c (leNat bs) = none) : swapBody stores f s c = .next (v2.putG64 c.th (wA c.w) (leNat bs)) := by
  unfold swapBody
  simp only [hc, ha, ne_eq, not_true_eq_false, if_false, ht, hrd, hf]

/-- An operation that writes a new value. -/
theorem swapBody_writes {v : Nat} (hf : f c (leNat bs) = some v) (hst : v2.ccStore h n (c.gFull (wB c.w)) (leBytes 8 v) = (v3, none)) :
    swapBody stores f s c = .next (v3.putG64 c.th (wA c.w) (leNat bs)) := by
  unfold swapBody
  simp only [hc, ha, ne_eq, not_true_eq_false, if_false, ht, hrd, hf, hst]

end
end

/-! ### Supervisor mode (R358) -/

section
variable {s s1 : State} {op : FkOp} {th : ThreadRef} {w : Nat} {f : State → Fk → FkRes}

theorem privBody_of_user (f : State → Fk → FkRes) (s : State) {c : Fk} (hu : c.x.user = true) : privBody f s c = .fail s .priv := if_pos hu

theorem privBody_of_supervisor (f : State → Fk → FkRes) (s : State) {c : Fk} (hu : c.x.user = false) : privBody f s c = f s c :=
  if_neg (Bool.eq_false_iff.mp hu)

/-- In user mode an instruction of supervisor mode traps PRIV, and has no other effect. -/
theorem execFk_priv (hi : Issues s op th s1 w) (hu : (callOf s s1 th w).x.user = true) :
    (.next (s.fkRun op th (privBody f)) : Out) =
      .next ((s1.atIssue th).takeTrap th cPriv ((s1.atIssue th).free 64) (callOf s s1 th w).pc (callOf s s1 th w).pc).used := by
  have hb := privBody_of_user f (s1.atIssue th) hu
  refine congrArg Host.Outcome.next ((fkRun_issues _ hi (by rw [hb]; rfl) ?_).trans (by rw [hb]; rfl))
  rw [hb]
  exact (State.takeTrap_waits _ _ _ _ _ _).trans hi.atIssue_waits

end

/-! ### Kernel registers (R358) -/

/-- The field of one bit. -/
theorem fld_one (v : DWord) (i : Nat) : fld v i 1 = b2n (bit v i) := by
  have hbit := testBit_fld v i 1 0
  have hlt := fld_lt v i 1
  unfold bit b2n
  interval_cases hf : fld v i 1 <;> simp_all

theorem kWrite_kstate (old v : DWord) : kWrite kKSTATE old v = setFld old 1 1 (b2n (bit v 1)) :=
  congrArg (setFld old 1 1) (fld_one v 1)

theorem kWrite_other {i : Nat} (hs : i ≠ kKSTATE) (hc : i ≠ kKCAUSE) (hx : i ≠ kXROOT) (old v : DWord) : kWrite i old v = v := by
  simp only [kWrite, hs, hc, hx, if_false]

end Sys2Proof.Machine

/-- Settles O60: each instruction falls through, transfers or traps, by the lemma for that outcome, from the value of its body. -/
theorem controlCoreInstructions : Obligations.ControlCoreInstructions := by
  unfold Obligations.ControlCoreInstructions
  refine ⟨fun s s1 u h n w th c hth hc hu hr => ?_, fun s s1 u v1 v2 v3 h n w pa a th c bs hth hc hu ha => ?_,
    fun s s1 u h n w th c hth hc hu => ?_, fun i old v => ?_⟩
  · subst hc hu
    simp only [List.forall_mem_cons, List.not_mem_nil, false_implies, implies_true, and_true]
    refine ⟨fun o r hi ho hcmp htst hres hd => ?_, fun hi ho => ?_, fun hi => ?_, fun v bs => ⟨fun hi hl hw => ?_, fun hi hl hw => ?_⟩,
      fun v hi hst hw => ?_, fun hi => ⟨fun hm => ?_, fun hm => ?_⟩⟩
    · subst hres
      exact execFk_next hi hr (alu64Body_of_op _ ho hcmp htst hd) (by simp)
    · exact execFk_setFlags hi hr (alu64Body_of_cmp _ ho)
    · exact execFk_next hi hr rfl (State.putG64_waits _ _ _ _)
    · exact execFk_putG64_done hi hr (loadBody64_of_cc hth hl) hw
    · exact execFk_putG64_done hi hr (loadBody64_of_cc hth hl) hw
    · subst hth
      exact execFkSd_of_store hi hr hst hw
    · exact execFk_next hi hr (if_neg (Bool.eq_false_iff.mp hm)) rfl
    · exact congrArg Host.Outcome.next (fkRun_stall hi (if_pos hm))
  · subst hc hu ha
    simp only [List.forall_mem_cons, List.not_mem_nil, false_implies, implies_true, and_true]
    refine ⟨?_, fun hr ha => ⟨⟨fun hi ht hrd hst hw => ?_, fun hi ht hrd hst hw => ?_⟩,
      fun hi ht hrd => ⟨fun hne hw => ?_, fun heq hst hw => ?_⟩⟩⟩
    · and_intros <;> exact fun hi ha => execFk_trap hi (swapBody_misaligned hth ha)
    · exact execFk_putG64_done hi hr (swapBody_writes hth ha ht hrd rfl hst) hw
    · exact execFk_putG64_done hi hr (swapBody_writes hth ha ht hrd rfl hst) hw
    · exact execFk_putG64_done hi hr (swapBody_keeps hth ha ht hrd (if_neg hne)) hw
    · exact execFk_putG64_done hi hr (swapBody_writes hth ha ht hrd (if_pos heq) hst) hw
  · subst hc hu
    simp only [List.forall_mem_cons, List.not_mem_nil, false_implies, implies_true, and_true]
    refine ⟨fun hi => execFk_after hi rfl rfl, fun huser => ?_,
      fun hsup => ⟨fun hi hr => ?_, fun hr => ⟨fun hi => ?_, fun hi => ?_, fun hi => ?_⟩⟩⟩
    · and_intros <;> exact fun hi => execFk_priv hi huser
    · exact execFk_jump hi (privBody_of_supervisor _ _ hsup) hr (State.updThread_waits _ _ _)
    · exact execFk_next hi hr (privBody_of_supervisor _ _ hsup) (State.putG64_waits _ _ _ _)
    · exact execFk_next hi hr (privBody_of_supervisor _ _ hsup) (State.updThread_waits _ _ _)
    · subst hth
      exact execFk_next hi hr (privBody_of_supervisor _ _ hsup) rfl
  · refine ⟨?_, ?_, rfl, rfl, fun hs hc hx => kWrite_other hs hc hx old v⟩
    · rw [kWrite_kstate, bit_setFld_ne _ _ _ _ _ (by decide)]
    · rw [kWrite_kstate, bit_setFld_same _ _ _ (by decide)]
end

section
open Sys2Proof Sys2Proof.Machine

/-! ## Events and the waits for them -/

namespace Sys2Proof.Machine

/-! ### An instruction that sets its own PC -/

theorem execFk_wait {s s1 s3 : State} {op : FkOp} {th : ThreadRef} {w : Nat} {body : State → Fk → FkRes} (hi : Issues s op th s1 w)
    (hr : pcInRange th (callOf s s1 th w).nextPc = true) (hb : body (s1.atIssue th) (callOf s s1 th w) = .wait s3)
    (hw : s3.waits = (s1.atIssue th).waits) : (.next (s.fkRun op th body) : Out) = .next s3 :=
  congrArg Host.Outcome.next (fkRun_wait hi hb hr (hw.trans hi.atIssue_waits))

/-! ### The causes of a WAITEV (R362, R368) -/

theorem State.wakeCauses_eq_zero_iff {s : State} {th : ThreadRef} {m : Word} {timer : Bool} :
    s.wakeCauses th m timer = 0 ↔ (s.thread th).evpend &&& m = 0 ∧ (s.thread th).ipend &&& (s.thread th).ien = 0 ∧
      ¬ (timer = true ∧ (s.thread th).arm = true ∧ (s.thread th).tcmp.toNat ≤ (s.dts (threadHalf th)).toNat) := by
  have hsum (a b c : Bool) : b2n a + 4 * b2n b + 2 * b2n c = 0 ↔ a = false ∧ b = false ∧ c = false := by
    cases a <;> cases b <;> cases c <;> decide
  refine (hsum _ _ _).trans (and_congr ?_ (and_congr ?_ ?_))
  · rw [decide_eq_false_iff_not, not_not]
  · rw [decide_eq_false_iff_not, not_not]
  · rw [← Bool.not_eq_true, Bool.and_eq_true, Bool.and_eq_true, decide_eq_true_iff, and_assoc]

/-! ### The end of a WAITEV (R369) -/

theorem Thread.setG_pc (x : Thread) (r : Nat) (v : DWord) : (x.setG r v).pc = x.pc := by
  unfold Thread.setG
  split <;> rfl

/-- A thread whose WAITEV completes with these causes. -/
def Thread.waitevDone (x : Thread) (th : ThreadRef) (gd : Nat) (mask : Word) (clear : Bool) (causes : Nat) : Thread :=
  { x.setG gd (gWord th (x.evpend &&& mask).toNat) with
    evpend := if clear then x.evpend &&& ~~~(x.evpend &&& mask) else x.evpend
    wake := BitVec.ofNat 32 causes
    arm := if causes.testBit 1 then false else x.arm
    phase := .issuing }

theorem State.waitevDone_eq (s : State) (th : ThreadRef) (gd : Nat) (m : Word) (clear : Bool) (n : Nat) :
    s.waitevDone th gd m clear n = (s.breakDead th).updThread th fun x => x.waitevDone th gd m clear n := rfl

@[simp] theorem State.breakDead_waits (s : State) (th : ThreadRef) : (s.breakDead th).waits = s.waits := by cases th <;> rfl

@[simp] theorem State.waitevDone_waits (s : State) (th : ThreadRef) (gd : Nat) (m : Word) (clear : Bool) (n : Nat) :
    (s.waitevDone th gd m clear n).waits = s.waits := (State.updThread_waits _ _ _).trans (s.breakDead_waits th)

/-- The count of the deadlock detector is kept beside the threads. -/
theorem State.breakDead_keeps {s : State} {th : ThreadRef} (hw : s.threadWf th = true) :
    (s.breakDead th).thread th = s.thread th ∧ (s.breakDead th).threadWf th = true := by
  cases th with
  | pk h t n =>
    have hkeeps : SquashKeeps h t n s (s.breakDead (.pk h t n)) := SquashKeeps.updTile s rfl
    exact ⟨hkeeps.thread hw, hkeeps.threadWf hw⟩
  | cc h n => exact ⟨rfl, hw⟩

theorem State.thread_waitevDone {s : State} {th : ThreadRef} (hw : s.threadWf th = true) (gd : Nat) (m : Word) (clear : Bool) (n : Nat) :
    (s.waitevDone th gd m clear n).thread th = (s.thread th).waitevDone th gd m clear n := by
  obtain ⟨hthread, hwf⟩ := State.breakDead_keeps hw
  rw [State.waitevDone_eq, State.thread_updThread_same _ _ _ hwf, hthread]

section
variable {x : Thread} {th : ThreadRef} {gd : Nat} {m : Word} {clear : Bool} {n : Nat}

theorem Thread.getG_waitevDone_same (hg : Tbl.wf x.g = true) (hgd : gd ≠ 0) :
    (x.waitevDone th gd m clear n).getG gd = gWord th (x.evpend &&& m).toNat :=
  (Thread.setG_getG_same x gd _ hg).trans (if_neg hgd)

theorem Thread.getG_waitevDone_ne (hg : Tbl.wf x.g = true) {r : Nat} (hr : r ≠ gd) : (x.waitevDone th gd m clear n).getG r = x.getG r :=
  Thread.setG_getG_ne x gd r _ hg hr

theorem Thread.evpend_waitevDone :
    (x.waitevDone th gd m clear n).evpend = if clear then x.evpend &&& ~~~m else x.evpend := by
  have hclear : x.evpend &&& ~~~(x.evpend &&& m) = x.evpend &&& ~~~m := by
    ext i hi
    simp only [BitVec.getElem_and, BitVec.getElem_not]
    cases x.evpend[i] <;> simp
  rw [← hclear]
  rfl

theorem Thread.arm_waitevDone : (x.waitevDone th gd m clear n).arm = (x.arm && !n.testBit 1) := by
  unfold Thread.waitevDone
  cases n.testBit 1 <;> simp

theorem Thread.pc_waitevDone : (x.waitevDone th gd m clear n).pc = x.pc := x.setG_pc gd _

end

/-- A thread that waits in WAITEV goes on once one of its causes holds (R369). -/
theorem doWaitevComplete_of_waiting {s : State} {th : ThreadRef} {gd : Nat} {m : Word} {timer clear : Bool}
    (hp : (s.thread th).phase = .waitev gd m timer clear) :
    doWaitevComplete th s = if s.wakeCauses th m timer = 0 then s else s.waitevDone th gd m clear (s.wakeCauses th m timer) := by
  unfold doWaitevComplete
  rw [hp]
  exact ite_not _ _ _

/-! ### The timer of a thread that waits (R368, R388) -/

section
variable {s : State} {th : ThreadRef} {gd : Nat} (harm : (s.thread th).arm = true)
  (hle : (s.thread th).tcmp.toNat ≤ (s.dts (threadHalf th)).toNat)
include harm hle

/-- The timer is a cause, so the WAITEV completes. -/
theorem doTimerExpire_of_waitev {m : Word} {clear : Bool} (hp : (s.thread th).phase = .waitev gd m true clear) :
    doTimerExpire th s = s.waitevDone th gd m clear (s.wakeCauses th m true) := by
  have hcause : s.wakeCauses th m true ≠ 0 := fun h0 =>
    have ⟨_, _, hno⟩ := State.wakeCauses_eq_zero_iff.mp h0
    hno ⟨rfl, harm, hle⟩
  unfold doTimerExpire
  simp only [harm, hle, decide_true, Bool.and_self, if_true, hp]
  rw [doWaitevComplete_of_waiting hp, if_neg hcause]

theorem doTimerExpire_of_lock {num : Nat} (hp : (s.thread th).phase = .lock gd num true) :
    doTimerExpire th s =
      (((s.withdrawWaiter (s.partyOf th)).bump (bLocks (lockHome (s.partyOf th).half num)) R.locks_TIMEOUTS).answerLock
        (s.partyOf th) 3).updThread th fun x => { x with arm := false } := by
  unfold doTimerExpire
  simp only [harm, hle, decide_true, Bool.and_self, if_true, hp]

end

/-! ### EVSIG (R365, R366, R370) -/

@[simp] theorem State.setEv_waits (s : State) (th : ThreadRef) (m : Word) : (s.setEv th m).waits = s.waits := s.updThread_waits _ _

/-- The events that EVSIG sets in thread `dest`; across cores it sets none of bits [7:0] and counts those it dropped. -/
def State.signal (s : State) (th dest : ThreadRef) (same : Bool) (m : Nat) : State :=
  let s1 := s.setEv dest (BitVec.ofNat 32 (if same then m else m / 256 * 256))
  if !same && decide (m % 256 ≠ 0) then s1.bumpCore th R.core_EVSIG_DROPPED else s1

section
variable (s : State) (th dest : ThreadRef) (m : Nat)

theorem State.signal_same : s.signal th dest true m = s.setEv dest (BitVec.ofNat 32 m) := rfl

theorem State.signal_beyond : s.signal th dest false m = if m % 256 = 0 then s.setEv dest (BitVec.ofNat 32 m)
    else (s.setEv dest (BitVec.ofNat 32 (m / 256 * 256))).bumpCore th R.core_EVSIG_DROPPED := by
  by_cases hm : m % 256 = 0
  · have hmul : m / 256 * 256 = m := Nat.div_mul_cancel (Nat.dvd_of_mod_eq_zero hm)
    simp [State.signal, hm, hmul]
  · simp [State.signal, hm]

theorem State.signal_eq (n : Nat) : s.signal th dest (decide (n / 8 = threadIx th / 8)) m =
    if n / 8 = threadIx th / 8 then s.setEv dest (BitVec.ofNat 32 m)
    else if m % 256 = 0 then s.setEv dest (BitVec.ofNat 32 m)
    else (s.setEv dest (BitVec.ofNat 32 (m / 256 * 256))).bumpCore th R.core_EVSIG_DROPPED := by
  by_cases hn : n / 8 = threadIx th / 8
  · rw [if_pos hn, decide_eq_true hn, State.signal_same]
  · rw [if_neg hn, decide_eq_false hn, State.signal_beyond]

@[simp] theorem State.signal_waits (same : Bool) : (s.signal th dest same m).waits = s.waits :=
  ite_waits ((State.bumpCore_waits _ _ _).trans (s.setEv_waits _ _)) (s.setEv_waits _ _)

end

/-- EVSIG that names a thread of its tile or of its half's control cores. -/
theorem execFkEvsig_of_peer {s s1 : State} {th : ThreadRef} {w n : Nat} (hi : Issues s .evsig th s1 w)
    (hr : pcInRange th (callOf s s1 th w).nextPc = true) (hn : n = (callOf s s1 th w).g (wA w) % 128) (hc : isControl th = true → n < 32)
    {v : State} (hv : v = (s1.atIssue th).signal th (peerThread th n) (decide (n / 8 = threadIx th / 8)) ((callOf s s1 th w).g (wB w))) :
    exec (.fkEvsig th) s =
      .next ((if (wImm8 w).testBit 0 then v.raiseInt (peerThread th n) 1 else v).fallThrough (callOf s s1 th w)) := by
  have hok : ¬ (isControl th && decide (32 ≤ n)) = true := by
    rw [Bool.and_eq_true, decide_eq_true_iff, not_and, Nat.not_le]
    exact hc
  subst hn hv
  exact execFk_next hi hr (if_neg hok) (ite_waits (by simp) (by simp))

end Sys2Proof.Machine

/-- Settles O40: a WAITEV completes at once or when a cause holds (`State.wakeCauses_eq_zero_iff`, `doWaitevComplete_of_waiting`) and leaves the
thread as `Thread.waitevDone` says; EVSIG is `execFkEvsig_of_peer`. -/
theorem eventsAndWaits : Obligations.EventsAndWaits := by
  unfold Obligations.EventsAndWaits
  refine ⟨⟨fun s s1 u th w n c m hc hu hi hr hm hn => ?_,
    fun s th gd m timer clear hp => congrArg Host.Outcome.next (doWaitevComplete_of_waiting hp),
    fun s th gd n m clear hw hgd => ?_, fun s th m timer => State.wakeCauses_eq_zero_iff, fun s th harm hle => ?_⟩,
    fun s s1 u v th dest w n m c hc hu hi hr hn hm hdest hctl hv => ?_, fun s a h t n m hw => ⟨fun ha => ?_, fun ha => ?_⟩,
    fun s th m n hw => ⟨State.thread_updThread_same _ _ _ hw, State.thread_updThread_same _ _ _ hw⟩⟩
  · subst hc hu hm hn
    exact ⟨fun hne => execFk_next hi hr (if_pos hne) (State.waitevDone_waits _ _ _ _ _ _),
      fun h0 => execFk_wait hi hr (if_neg (not_not.mpr h0)) ((State.bumpCore_waits _ _ _).trans (State.updThread_waits _ _ _))⟩
  · have hg := State.threadWf_g hw
    exact ⟨_, (State.thread_waitevDone hw gd m clear n).symm, rfl, Thread.getG_waitevDone_same hg hgd, Thread.evpend_waitevDone, rfl,
      Thread.arm_waitevDone, Thread.pc_waitevDone, fun r hr => Thread.getG_waitevDone_ne hg hr⟩
  · exact ⟨fun gd m clear hp => congrArg Host.Outcome.next (doTimerExpire_of_waitev harm hle hp),
      fun gd num hp => congrArg Host.Outcome.next (doTimerExpire_of_lock harm hle hp)⟩
  · subst hc hu hdest hm
    have hexec := execFkEvsig_of_peer hi hr hn hctl (hv.trans (State.signal_eq _ _ _ _ _).symm)
    exact ⟨fun h0 => by rw [hexec, h0]; rfl, fun h1 => by rw [hexec, h1]; rfl⟩
  · exact ⟨_, congrArg Host.Outcome.next (if_pos ha), State.thread_updThread_same _ _ _ hw, rfl⟩
  · exact congrArg Host.Outcome.next (if_neg (by simp [ha]))
end

section
open Sys2Proof Sys2Proof.Machine

/-! ## Interrupts and the deadlock detector -/

namespace Sys2Proof

/-- A table that lists `f` at rising keys. -/
theorem tget?_map_of_pairwise {α : Type} {l : List Nat} (hl : l.Pairwise (· < ·)) (f : Nat → α) (k : Nat) :
    tget? (l.map fun p => (p, f p)) k = if k ∈ l then some (f k) else none := by
  induction l with
  | nil => rfl
  | cons j r ih =>
    obtain ⟨hj, hr⟩ := List.pairwise_cons.mp hl
    rw [List.map_cons, tget?]
    by_cases hlt : k < j
    · have hk : k ∉ j :: r := fun hmem => by
        rcases List.mem_cons.mp hmem with rfl | hmem
        · exact lt_irrefl _ hlt
        · exact lt_asymm hlt (hj k hmem)
      rw [if_pos hlt, if_neg hk]
    · rw [if_neg hlt]
      by_cases hk : k = j
      · subst hk
        simp
      · rw [if_neg hk, ih hr]
        simp [hk]

namespace Machine

/-! ### Which interrupt is taken, and when (R372) -/

section
variable {x : Thread}

/-- The first of the interrupts that are pending and enabled. -/
theorem Thread.readyInt_least {i : Nat} (hi : x.readyInt = some i) :
    i < 8 ∧ (x.ipend &&& x.ien).getLsbD i = true ∧ ∀ j, j < i → (x.ipend &&& x.ien).getLsbD j = false := by
  obtain ⟨hready, hlt, hbefore⟩ := List.find?_range_eq_some.mp hi
  exact ⟨List.mem_range.mp hlt, hready, fun j hj => Bool.not_eq_true' _ ▸ hbefore j hj⟩

theorem Thread.of_canTakeInt (hc : x.canTakeInt = true) : x.halted = false ∧ x.istat.getLsbD 31 = false ∧ x.rs.length ≤ 31 := by
  simp only [Thread.canTakeInt, Bool.and_eq_true, Bool.not_eq_true', decide_eq_true_iff] at hc
  obtain ⟨⟨⟨hhalt, histat⟩, hrs⟩, -⟩ := hc
  exact ⟨hhalt, histat, hrs⟩

/-- A thread that is halted, within an interrupt or at the end of its return stack takes none. -/
theorem Thread.canTakeInt_eq_false (h : x.halted = true ∨ x.istat.getLsbD 31 = true ∨ 32 ≤ x.rs.length) : x.canTakeInt = false := by
  refine Bool.eq_false_iff.mpr fun hc => ?_
  obtain ⟨hhalt, histat, hrs⟩ := Thread.of_canTakeInt hc
  rcases h with h | h | h
  · exact Bool.false_ne_true (hhalt.symm.trans h)
  · exact Bool.false_ne_true (histat.symm.trans h)
  · omega

end

section
variable {s : State} {th : ThreadRef}

theorem doInterruptTake_of_ready {i e : Nat} (hc : (s.thread th).canTakeInt = true) (hs : s.stalled th = false)
    (hl : s.live (threadUnit th) = true) (hi : (s.thread th).readyInt = some i) (he : s.intEntry th = some e) :
    doInterruptTake th s = s.enterInt th i e := by
  unfold doInterruptTake
  simp only [hc, hs, hl, Bool.not_false, Bool.and_self, if_true, hi, he]

theorem doInterruptTake_of_none
    (h : (s.thread th).canTakeInt = false ∨ s.stalled th = true ∨ (s.thread th).readyInt = none ∨ s.intEntry th = none) :
    doInterruptTake th s = s := by
  unfold doInterruptTake
  dsimp only
  split
  · next hc =>
    obtain ⟨⟨hcan, hst⟩, -⟩ := by simpa only [Bool.and_eq_true, Bool.not_eq_true'] using hc
    rcases h with h | h | h | h
    · exact absurd hcan (Bool.eq_false_iff.mp h)
    · exact absurd (hst.symm.trans h) Bool.false_ne_true
    · simp only [h]
    · cases (s.thread th).readyInt <;> simp only [h]
  · rfl

end

/-! ### The entry of an interrupt (R373) -/

/-- A thread that goes on at the entry `e` of interrupt `i`. -/
def Thread.interrupted (x : Thread) (th : ThreadRef) (i e : Nat) : Thread :=
  { x with
    phase := .issuing
    ipend := x.ipend &&& ~~~(BitVec.ofNat 8 (1 <<< i))
    rs := x.pc :: x.rs
    istat := BitVec.ofNat 32 (1 <<< 31 ||| (if isControl th then b2n x.user <<< 29 else 0) ||| i <<< 8 ||| (x.rs.length + 1))
    pc := BitVec.ofNat 48 e }

theorem Thread.interrupted_pk {x : Thread} (hp : x.phase = .issuing) (h : Half) (t : TileIx) (n : Fin 128) (i e : Nat) :
    x.interrupted (.pk h t n) i e =
      { x with
        ipend := x.ipend &&& ~~~(BitVec.ofNat 8 (1 <<< i))
        rs := x.pc :: x.rs
        istat := BitVec.ofNat 32 (1 <<< 31 ||| i <<< 8 ||| (x.rs.length + 1))
        pc := BitVec.ofNat 48 e } := by
  unfold Thread.interrupted
  rw [← hp]
  simp only [isControl, Bool.false_eq_true, if_false, Nat.or_zero]

/-- ISTAT of a control-core thread tells in bit 29 whether it was in user mode. -/
theorem Thread.istat_interrupted_cc {x : Thread} {h : Half} {n : Fin 32} {i e : Nat} (hi : i < 8) (hrs : x.rs.length ≤ 31) :
    (x.interrupted (.cc h n) i e).istat.getLsbD 29 = x.user := by
  have hint : i.testBit 21 = false := Nat.testBit_lt_two_pow (by omega)
  have hdepth : (x.rs.length + 1).testBit 29 = false := Nat.testBit_lt_two_pow (by omega)
  have huser : (b2n x.user).testBit 0 = x.user := by cases x.user <;> rfl
  simp only [Thread.interrupted, isControl, if_true, BitVec.getLsbD_ofNat, Nat.testBit_or, Nat.testBit_shiftLeft, hint, hdepth, huser,
    Nat.sub_self]
  simp

section
variable {s : State} {h : Half}

/-- The task of a thread that is interrupted in TWAIT runs again. -/
def State.runAgain (s : State) (h : Half) (t : TileIx) (k : Nat) : State :=
  s.updTask h t k fun y => { y with state := if y.state = TaskState.waiting then TaskState.running else y.state }

theorem State.enterInt_pk {t : TileIx} {n : Fin 128} (hp : (s.thread (.pk h t n)).phase = .issuing) (i e : Nat) :
    s.enterInt (.pk h t n) i e =
      ((s.runAgain h t ((s.thread (.pk h t n)).task.getD 0)).updThread (.pk h t n) fun x => x.interrupted (.pk h t n) i e).bump
        (ownBlk (coreOf h t n)) R.core_INTERRUPTS_TAKEN := by
  unfold State.enterInt
  rw [hp]
  rfl

theorem State.enterInt_cc {n : Fin 32} (hp : (s.thread (.cc h n)).phase = .issuing) (i e : Nat) :
    s.enterInt (.cc h n) i e = s.updThread (.cc h n) fun x =>
      (x.interrupted (.cc h n) i e).setK kKSTATE (setFld (x.kreg kKSTATE) 0 1 0) := by
  unfold State.enterInt
  rw [hp]
  rfl

theorem State.thread_enterInt_pk {t : TileIx} {n : Fin 128} (hw : s.threadWf (.pk h t n) = true)
    (hp : (s.thread (.pk h t n)).phase = .issuing) (i e : Nat) :
    (s.enterInt (.pk h t n) i e).thread (.pk h t n) = (s.thread (.pk h t n)).interrupted (.pk h t n) i e := by
  obtain ⟨htiles, -⟩ := State.threadWf_tables hw
  rw [State.enterInt_pk hp]
  exact (State.thread_updThread_same _ _ _ (State.threadWf_updTask hw _ _)).trans
    (congrArg (Thread.interrupted · (.pk h t n) i e) (State.thread_updTask htiles _ _))

theorem State.thread_enterInt_cc {n : Fin 32} (hw : s.threadWf (.cc h n) = true) (hp : (s.thread (.cc h n)).phase = .issuing) (i e : Nat) :
    (s.enterInt (.cc h n) i e).thread (.cc h n) =
      ((s.thread (.cc h n)).interrupted (.cc h n) i e).setK kKSTATE (setFld ((s.thread (.cc h n)).kreg kKSTATE) 0 1 0) := by
  rw [State.enterInt_cc hp]
  exact State.thread_updThread_same _ _ _ hw

/-- An interrupt is taken in supervisor mode. -/
theorem Thread.user_setK_supervisor {x : Thread} (hk : Tbl.wf x.k = true) (v : DWord) :
    (x.setK kKSTATE (setFld v 0 1 0)).user = false := by
  rw [Thread.user, Thread.kreg_setK hk, if_pos rfl]
  exact bit_setFld_same v 0 false (by decide)

end

/-! ### The deadlock detector (R375, R376) -/

section
variable {s : State} {h : Half} {t : TileIx}

theorem State.deadCore_iff {c k : Nat} :
    s.deadCore h t (4 * c + k) = true ↔ ∀ i, i < 8 → s.deadThread h t (32 * c + 8 * k + i) = true := by
  have hix (i : Nat) : 8 * (4 * c + k) + i = 32 * c + 8 * k + i := by omega
  simp only [State.deadCore, List.all_eq_true, List.mem_range, hix]

theorem doEventDeadlock_of_not_dead {c k : Fin 4} (hd : s.deadCore h t (4 * c.val + k.val) ≠ true) : doEventDeadlock h t c k s = s :=
  if_neg fun hc => hd hc.1

theorem doEventDeadlock_of_count_ne {c k : Fin 4} (hn : tget 0 (s.tile h t).deadFor (4 * c.val + k.val) ≠ 1024) :
    doEventDeadlock h t c k s = s := if_neg fun hc => hn hc.2

/-- A core found in deadlock: the WAITEV of its first thread completes with the cause 8. -/
theorem doEventDeadlock_of_dead {c k : Fin 4} (hd : s.deadCore h t (4 * c.val + k.val) = true)
    (hn : tget 0 (s.tile h t).deadFor (4 * c.val + k.val) = 1024) {th : ThreadRef} {u : State}
    (hth : th = .pk h t (Fin.ofNat 128 (32 * c.val + 8 * k.val)))
    (hu : u = ((s.report (.core h t c k) F.EVENT_DEADLOCK).bump (bCore h t c k) R.core_DEADLOCKS).raiseInt th 5)
    {gd : Nat} {m : Word} {timer clear : Bool} (hp : (u.thread th).phase = .waitev gd m timer clear) :
    doEventDeadlock h t c k s = u.waitevDone th gd m clear (u.wakeCauses th m timer + 8) := by
  subst hth hu
  unfold doEventDeadlock
  simp only [hd, hn, and_self, if_true, hp]

/-- After one cycle a tile's detectors list the cores whose condition holds. -/
theorem State.deadFor_deadTile (hw : Tbl.wf (s.tiles.get h) = true) :
    ((s.deadTile h t).tile h t).deadFor = ((List.range 16).filter fun p => s.deadCore h t p).map fun p =>
      (p, satTo (tget 0 (s.tile h t).deadFor p + 1) 1024) := by
  unfold State.deadTile
  dsimp only
  split
  · next hnone =>
    obtain ⟨hps, hfor⟩ := (Bool.and_eq_true _ _).to_iff.mp hnone
    rw [List.isEmpty_iff.mp hps, List.isEmpty_iff.mp hfor]
    rfl
  · rw [State.tile_updTile_same _ _ _ _ hw]

/-- A core's count rises up to 1,024 while its condition holds, and else begins again. -/
theorem State.count_deadTile (hw : Tbl.wf (s.tiles.get h) = true) {p : Nat} (hp : p < 16) :
    tget 0 ((s.deadTile h t).tile h t).deadFor p =
      if s.deadCore h t p = true then min (tget 0 (s.tile h t).deadFor p + 1) 1024 else 0 := by
  have hmem : p ∈ (List.range 16).filter (fun p => s.deadCore h t p) ↔ s.deadCore h t p = true := by simp [hp]
  rw [State.deadFor_deadTile hw, tget, tget?_map_of_pairwise (List.pairwise_lt_range.filter _)]
  by_cases hd : s.deadCore h t p = true
  · rw [if_pos (hmem.mpr hd), if_pos hd]
    rfl
  · rw [if_neg (hmem.not.mpr hd), if_neg hd]

end

end Machine

end Sys2Proof

/-- Settles O41: an interrupt is `State.enterInt`, which leaves the thread as `Thread.interrupted` says; the detector of a core is
`State.count_deadTile` and `doEventDeadlock_of_dead`. -/
theorem interruptsTaken : Obligations.InterruptsTaken := by
  unfold Obligations.InterruptsTaken
  refine ⟨⟨fun s h t n i e hw hcsr hcan hst hlive hp hi he => ?_, fun s h n i e hw hk hcan hlive hp hi he => ?_,
    fun s th hno => congrArg Host.Outcome.next (doInterruptTake_of_none hno), fun x i => Thread.readyInt_least,
    fun x => Thread.canTakeInt_eq_false⟩,
    fun s h t c k hall hn u th hth hu gd m timer clear hp =>
      congrArg Host.Outcome.next (doEventDeadlock_of_dead (State.deadCore_iff.mpr hall) hn hth hu hp),
    fun s h t c k i hi hno => congrArg Host.Outcome.next (doEventDeadlock_of_not_dead fun hd => ?_),
    fun s h t c k hn => congrArg Host.Outcome.next (doEventDeadlock_of_count_ne hn), fun s h t c k hw => ?_⟩
  · refine ⟨_, congrArg Host.Outcome.next (doInterruptTake_of_ready hcan hst hlive hi he), ?_, ?_, ?_⟩
    · rw [State.thread_enterInt_pk hw hp, Thread.interrupted_pk hp]
    · rw [State.enterInt_pk hp]
      exact State.reg_bump_same _ _ _ hcsr
    · rw [State.enterInt_pk hp]
      rfl
  · obtain ⟨-, -, hrs⟩ := Thread.of_canTakeInt hcan
    obtain ⟨hlt, -, -⟩ := Thread.readyInt_least hi
    have hthread := State.thread_enterInt_cc hw hp i e
    refine ⟨_, congrArg Host.Outcome.next (doInterruptTake_of_ready hcan rfl hlive hi he), ?_, ?_, ?_, ?_, ?_⟩
    · rw [hthread]
      exact Thread.user_setK_supervisor hk _
    · rw [hthread]
      rfl
    · rw [hthread]
      rfl
    · rw [hthread]
      exact Thread.istat_interrupted_cc (e := e) hlt hrs
    · rw [State.enterInt_cc hp]
      rfl
  · exact absurd (State.deadCore_iff.mp hd i hi) (by simp [hno])
  · rw [State.count_deadTile hw (by omega)]
    exact if_congr State.deadCore_iff rfl rfl
end

section
open Sys2Proof Sys2Proof.Machine

/-! ## Message channels -/

namespace Sys2Proof.Machine

/-! ### Messages make no request of HBM -/

section
variable (s : State) (th : ThreadRef) (n : Nat)

@[simp] theorem State.setChan_waits (l : List Message) : (s.setChan th n l).waits = s.waits := by cases th <;> rfl

@[simp] theorem State.bumpChan_waits (off : Nat) : (s.bumpChan th off n).waits = s.waits := by cases th <;> rfl

@[simp] theorem State.sendMessage_waits (m : Message) : (s.sendMessage th n m).waits = s.waits :=
  ite_waits (by simp) (by simp)

end

/-! ### The messages of a channel (R381, R383) -/

section
variable {s : State} {h : Half} {t : TileIx} {n : Fin 128} {k : Nat}

theorem State.chan_setChan_same (hw : Tbl.wf (s.tiles.get h) = true) (hc : Tbl.wf (s.tile h t).chans = true) (l : List Message) :
    (s.setChan (.pk h t n) k l).chan (.pk h t n) k = l := by
  unfold State.setChan State.chan
  dsimp only
  rw [State.tile_updTile_same _ _ _ _ hw]
  exact tget_tset_same _ _ _ _ hc

/-- A message without a notification enters the channel behind the others. -/
theorem State.chan_sendMessage (hw : Tbl.wf (s.tiles.get h) = true) (hc : Tbl.wf (s.tile h t).chans = true)
    (hn : bit (s.chCfg (.pk h t n) k) 31 = false) (m : Message) :
    (s.sendMessage (.pk h t n) k m).chan (.pk h t n) k = s.chan (.pk h t n) k ++ [m] := by
  have hsend : s.sendMessage (.pk h t n) k m =
      (s.setChan (.pk h t n) k (s.chan (.pk h t n) k ++ [m])).bumpChan (.pk h t n) R.channel_CH_SENT 1 :=
    if_neg (Bool.eq_false_iff.mp hn)
  rw [hsend]
  exact State.chan_setChan_same (n := n) hw hc _

end

/-! ### CHRECV (R382, R384, R385) -/

/-- The messages that CHRECV finds, none where the channel is not open. -/
def State.inbox (s : State) (th : ThreadRef) (n : Nat) : List Message := if s.chanOpen th n then s.chan th n else []

/-- The status that CHRECV writes. -/
def State.recvStatus (s : State) (th : ThreadRef) (n : Nat) : Nat :=
  if !s.chanOpen th n then 2 else if (s.inbox th n).isEmpty then 1 else 0

section
variable {s : State} {th : ThreadRef} {n : Nat}

theorem State.inbox_of_closed (ho : s.chanOpen th n = false) : s.inbox th n = [] ∧ s.recvStatus th n = 2 := by
  simp [State.recvStatus, State.inbox, ho]

theorem State.inbox_of_open (ho : s.chanOpen th n = true) :
    s.inbox th n = s.chan th n ∧ s.recvStatus th n = if (s.chan th n).isEmpty then 1 else 0 := by
  simp [State.recvStatus, State.inbox, ho]

end

/-- CHRECV writes the area with the status and the oldest message, and takes that message. -/
def chrecvBody (s : State) (c : Fk) : FkRes :=
  match s.putArea c.th (c.gFull (wA c.w)) (recvBytes (s.recvStatus c.th (c.g (wB c.w) % 256)) (s.inbox c.th (c.g (wB c.w) % 256)).head?) with
  | (s1, some e) => .fail s1 e
  | (s1, none) => .next (if (s.inbox c.th (c.g (wB c.w) % 256)).isEmpty then s1
      else (s1.setChan c.th (c.g (wB c.w) % 256) ((s.inbox c.th (c.g (wB c.w) % 256)).drop 1)).bumpChan c.th R.channel_CH_RECEIVED 1)

theorem execFkChrecv_eq (th : ThreadRef) (s : State) : exec (.fkChrecv th) s = .next (s.fkRun .chrecv th chrecvBody) := rfl

section
variable {s v : State} {c : Fk} {st : Nat} (hst : s.recvStatus c.th (c.g (wB c.w) % 256) = st)
include hst

theorem chrecvBody_of_nothing (hbox : s.inbox c.th (c.g (wB c.w) % 256) = [])
    (hput : s.putArea c.th (c.gFull (wA c.w)) (recvBytes st none) = (v, none)) : chrecvBody s c = .next v := by
  simp only [chrecvBody, hst, hbox, List.head?_nil, hput, List.isEmpty_nil, if_true]

theorem chrecvBody_of_message {m : Message} {r : List Message} (hbox : s.inbox c.th (c.g (wB c.w) % 256) = m :: r)
    (hput : s.putArea c.th (c.gFull (wA c.w)) (recvBytes st (some m)) = (v, none)) :
    chrecvBody s c = .next ((v.setChan c.th (c.g (wB c.w) % 256) r).bumpChan c.th R.channel_CH_RECEIVED 1) := by
  simp only [chrecvBody, hst, hbox, List.head?_cons, hput, List.isEmpty_cons, Bool.false_eq_true, if_false, List.drop_one, List.tail_cons]

end

/-! ### CH_CFG_n (R386) -/

/-- CH_CFG_n with the fields that a write of `v` sets, EN and its status at 0; DEPTH_LOG2 is held while EN is 1. -/
def chCfgFields (old v : DWord) : DWord :=
  BitVec.ofNat 64 (fld v 31 1 <<< 31 ||| fld v 24 7 <<< 24 ||| fld v 16 5 <<< 16 ||| (if bit old 0 then fld old 8 4 else fld v 8 4) <<< 8)

theorem bit_chCfgFields_zero (old v : DWord) : bit (chCfgFields old v) 0 = false := by
  simp only [bit, chCfgFields, BitVec.getLsbD_ofNat, Nat.testBit_or, Nat.testBit_shiftLeft]
  simp

theorem chCap_congr {a b : DWord} (h : fld a 8 4 = fld b 8 4) : chCap a = chCap b := by
  unfold chCap
  rw [h]

/-- The capacity that a channel is enabled with is that of the written DEPTH_LOG2. -/
theorem chCap_chCfgFields {old : DWord} (ho : bit old 0 = false) (v : DWord) :
    chCap (chCfgFields old v) = chCap (BitVec.ofNat 64 (fld v 8 4 <<< 8)) := by
  refine chCap_congr (Nat.eq_of_testBit_eq fun i => ?_)
  rw [testBit_fld, testBit_fld]
  by_cases hi : i < 4
  · have h31 : ¬ 31 ≤ 8 + i := by omega
    have h24 : ¬ 24 ≤ 8 + i := by omega
    have h16 : ¬ 16 ≤ 8 + i := by omega
    simp [chCfgFields, ho, BitVec.getLsbD_ofNat, Nat.testBit_shiftLeft, h31, h24, h16]
  · simp [hi]

/-- Set CH_CFG_n. -/
def State.setChCfg (s : State) (th : ThreadRef) (n : Nat) (x : DWord) : State := s.setReg (chanBlk th).1 ((chanBlk th).2 + 8 * n) x

section
variable {s : State} {th : ThreadRef} {n : Nat} {v : DWord}

theorem State.chCfg_setChCfg (hw : Tbl.wf s.csr = true) (x : DWord) : (s.setChCfg th n x).chCfg th n = x := State.reg_setReg_same _ _ _ _ hw

/-- An enable for which the pool has not the slots is refused. -/
theorem State.writeChCfg_of_refused (hv : bit v 0 = true) (ho : bit (s.chCfg th n) 0 = false)
    (hp : chanPool th < s.chanDepths th n + chCap (chCfgFields (s.chCfg th n) v)) :
    s.writeChCfg th n v = s.setChCfg th n (setFld (chCfgFields (s.chCfg th n) v) 1 1 1) :=
  (if_pos ⟨hv, Bool.eq_false_iff.mp ho⟩).trans (if_pos hp)

/-- A disable discards the channel's messages. -/
theorem State.writeChCfg_of_disabled (hv : bit v 0 = false) (ho : bit (s.chCfg th n) 0 = true) :
    s.writeChCfg th n v =
      ((s.bumpChan th R.channel_CH_DISCARDED (s.chan th n).length).setChan th n []).setChCfg th n (chCfgFields (s.chCfg th n) v) := by
  have hv' : ¬ bit v 0 = true := Bool.eq_false_iff.mp hv
  exact (if_neg fun hc => hv' hc.1).trans (if_pos ⟨hv', ho⟩)

end

end Sys2Proof.Machine

/-- Settles O43: each instruction falls through with the lemma of its outcome, and the write of CH_CFG_n is one of `State.writeChCfg_of_refused`
and `State.writeChCfg_of_disabled`. -/
theorem channelInstructions : Obligations.ChannelInstructions := by
  unfold Obligations.ChannelInstructions
  refine ⟨fun s s1 u th w c hc hu hr => ?_, fun s h t n k m hw hch hn => State.chan_sendMessage hw hch hn m,
    fun s a h control t ch v th u hth hu hch => ⟨fun ha => ?_, fun ha => ?_⟩,
    fun s h t n k v hcsr hw hch => ⟨fun hv ho hp => ?_, fun hv ho => ?_⟩⟩
  · subst hc hu
    refine ⟨fun hi => execFk_next hi hr rfl (State.updThread_waits _ _ _), fun hi => execFk_next hi hr rfl (State.updThread_waits _ _ _),
      fun hi n hn => ?_, fun hi n v hn hv => ?_⟩
    · subst hn
      have hopen {b : Bool} (ho : b = true) : ¬ (!b) = true := Bool.eq_false_iff.mp (congrArg (! ·) ho)
      exact ⟨fun ho => execFk_next hi hr (if_pos (congrArg (! ·) ho)) (State.putG_waits _ _ _ _),
        fun ho hfull => execFk_next hi hr ((if_neg (hopen ho)).trans (if_pos hfull)) (by simp),
        fun ho hroom => execFk_next hi hr ((if_neg (hopen ho)).trans (if_neg (Nat.not_le.mpr hroom))) (by simp)⟩
    · subst hn
      rw [execFkChrecv_eq]
      refine ⟨fun ho hput => ?_, fun ho hq hput => ?_, fun m r ho hq hput => ?_⟩
      · obtain ⟨hbox, hst⟩ := State.inbox_of_closed ho
        exact execFk_next_done hi hr (chrecvBody_of_nothing hst hbox hput) hv
      · obtain ⟨hbox, hst⟩ := State.inbox_of_open ho
        rw [hq] at hbox hst
        exact execFk_next_done hi hr (chrecvBody_of_nothing hst hbox hput) hv
      · obtain ⟨hbox, hst⟩ := State.inbox_of_open ho
        rw [hq] at hbox hst
        exact execFk_next_done hi hr (chrecvBody_of_message hst hbox hput)
          ((State.bumpChan_waits _ _ _ _).trans ((State.setChan_waits _ _ _ _).trans hv))
  · subst hth hu
    exact congrArg Host.Outcome.next (if_pos ⟨ha, hch⟩)
  · subst hth hu
    exact congrArg Host.Outcome.next (if_neg fun hc => by simp [ha] at hc)
  · rw [State.writeChCfg_of_refused hv ho (by rw [chCap_chCfgFields ho]; exact hp), State.chCfg_setChCfg hcsr,
      bit_setFld_ne _ _ _ _ _ (.inl Nat.zero_lt_one)]
    exact ⟨bit_chCfgFields_zero _ _, bit_setFld_same _ 1 true (by decide)⟩
  · have hcsr' : Tbl.wf ((s.bumpChan (.pk h t n) R.channel_CH_DISCARDED (s.chan (.pk h t n) k).length).setChan (.pk h t n) k []).csr = true :=
      State.bumpBy_wf _ _ _ _ hcsr
    rw [State.writeChCfg_of_disabled hv ho, State.chCfg_setChCfg hcsr']
    exact ⟨bit_chCfgFields_zero _ _, State.chan_setChan_same (n := n) hw hch []⟩
end

section
open Sys2Proof Sys2Proof.Machine

/-! ## Queued locks -/

namespace Sys2Proof.Machine

/-! ### Locks make no request of HBM -/

section
variable (s : State) (p : LockParty) (num : Nat)

@[simp] theorem State.raiseParty_waits (q : Nat) : (s.raiseParty p q).waits = s.waits := by
  cases p with
  | task h t k => rfl
  | control h n => exact s.updThread_waits _ _

@[simp] theorem State.takeLock_waits : (s.takeLock p num).waits = s.waits := rfl

@[simp] theorem State.unlock_waits : (s.unlock p num).1.waits = s.waits := by
  unfold State.unlock
  split
  · rfl
  · split
    · rfl
    · dsimp only
      split
      · simp
      · rfl

end

theorem State.inherit_waits (s : State) (hm : Half) (num q fuel : Nat) : (s.inherit hm num q fuel).waits = s.waits := by
  induction fuel generalizing s hm num with
  | zero =>
    unfold State.inherit
    split
    · rfl
    · exact ite_waits rfl rfl
  | succ fuel ih =>
    unfold State.inherit
    split
    · rfl
    · refine ite_waits ?_ rfl
      dsimp only
      split
      · exact State.raiseParty_waits _ _ _
      · exact (ih _ _ _).trans (State.raiseParty_waits _ _ _)

@[simp] theorem State.queueLock_waits (s : State) (p : LockParty) (num : Nat) : (s.queueLock p num).waits = s.waits :=
  State.inherit_waits _ _ _ _ _

/-! ### LOCK and TRYLOCK (R388) -/

/-- What LOCK and TRYLOCK answer at once; `held` is what they do with a lock that another holds. -/
def lockAnswer (held : FkRes) (s : State) (c : Fk) : FkRes :=
  match s.lockStatus (s.partyOf c.th) (c.g (wB c.w) % 8192) with
  | some 0 => .next ((s.takeLock (s.partyOf c.th) (c.g (wB c.w) % 8192)).putG c.th (wA c.w) 0)
  | some st => .next (s.putG c.th (wA c.w) st)
  | none => held

section
variable {held : FkRes} {s : State} {c : Fk}

theorem lockAnswer_granted (h : s.lockStatus (s.partyOf c.th) (c.g (wB c.w) % 8192) = some 0) :
    lockAnswer held s c = .next ((s.takeLock (s.partyOf c.th) (c.g (wB c.w) % 8192)).putG c.th (wA c.w) 0) := by
  simp only [lockAnswer, h]

theorem lockAnswer_refused {n : Nat} (h : s.lockStatus (s.partyOf c.th) (c.g (wB c.w) % 8192) = some n) (hn : n ≠ 0) :
    lockAnswer held s c = .next (s.putG c.th (wA c.w) n) := by
  obtain ⟨m, rfl⟩ := Nat.exists_eq_succ_of_ne_zero hn
  simp only [lockAnswer, h]

theorem lockAnswer_held (h : s.lockStatus (s.partyOf c.th) (c.g (wB c.w) % 8192) = none) : lockAnswer held s c = held := by
  simp only [lockAnswer, h]

end

/-- What an instruction of the locks does with a lock that is free, or that its party may not have. -/
theorem execFk_lockAnswer {s s1 : State} {op : FkOp} {th : ThreadRef} {w : Nat} {held : State → Fk → FkRes} (hi : Issues s op th s1 w)
    (hr : pcInRange th (callOf s s1 th w).nextPc = true) {num : Nat} (hnum : num = (callOf s s1 th w).g (wB w) % 8192) {p : LockParty}
    (hp : p = (s1.atIssue th).partyOf th) :
    ((s1.atIssue th).lockStatus p num = some 0 → (.next (s.fkRun op th fun s c => lockAnswer (held s c) s c) : Out) =
      .next ((((s1.atIssue th).takeLock p num).putG th (wA w) 0).fallThrough (callOf s s1 th w))) ∧
    ∀ n, (s1.atIssue th).lockStatus p num = some n → n ≠ 0 → (.next (s.fkRun op th fun s c => lockAnswer (held s c) s c) : Out) =
      .next (((s1.atIssue th).putG th (wA w) n).fallThrough (callOf s s1 th w)) := by
  subst hnum hp
  exact ⟨fun h0 => execFk_next hi hr (lockAnswer_granted h0) (State.putG_waits _ _ _ _),
    fun n hn hne => execFk_next hi hr (lockAnswer_refused hn hne) (State.putG_waits _ _ _ _)⟩

/-- LOCK queues behind the holder. -/
def lockHeld (s : State) (c : Fk) : FkRes :=
  .wait ((s.updThread c.th fun x =>
    { x with phase := .lock (wA c.w) (c.g (wB c.w) % 8192) ((wImm8 c.w).testBit 0), pc := x.pc + 4 }).queueLock (s.partyOf c.th)
      (c.g (wB c.w) % 8192))

theorem execFkLock_eq (th : ThreadRef) (s : State) :
    exec (.fkLock th) s = .next (s.fkRun .lock th fun s c => lockAnswer (lockHeld s c) s c) := rfl

theorem execFkTrylock_eq (th : ThreadRef) (s : State) :
    exec (.fkTrylock th) s = .next (s.fkRun .trylock th fun s c => lockAnswer (.next (s.putG c.th (wA c.w) 2)) s c) := rfl

/-! ### Statuses (R388; their order is the model's choice, log entry 74) -/

section
variable {s : State} {p : LockParty} {num : Nat}

theorem State.lockStatus_of_number (hn : 4352 ≤ num) : s.lockStatus p num = some 7 ∧ s.unlock p num = (s, 7) := ⟨if_pos hn, if_pos hn⟩

theorem State.lockStatus_of_unavailable (hn : num < 4352) (hu : s.lockUnavailable p.half num = true) :
    s.lockStatus p num = some 8 ∧ s.unlock p num = (s, 8) :=
  ⟨(if_neg hn.not_ge).trans (if_pos hu), (if_neg hn.not_ge).trans (if_pos hu)⟩

section
variable (hn : num < 4352) (hu : s.lockUnavailable p.half num = false)
include hn hu

theorem State.lockStatus_of_available : s.lockStatus p num =
    if (s.lock (lockHome p.half num) num).holder = some p then some 5
    else if s.lockLimit p then some 6
    else if (s.lock (lockHome p.half num) num).holder = none then some 0
    else none :=
  (if_neg hn.not_ge).trans (if_neg (Bool.eq_false_iff.mp hu))

theorem State.unlock_of_available : s.unlock p num =
    if (s.lock (lockHome p.half num) num).holder = some p then ((s.passOn (lockHome p.half num) num 0).settlePrio p, 0) else (s, 4) :=
  (if_neg hn.not_ge).trans (if_neg (Bool.eq_false_iff.mp hu))

theorem State.lockStatus_of_held (hh : (s.lock (lockHome p.half num) num).holder = some p) : s.lockStatus p num = some 5 :=
  (State.lockStatus_of_available hn hu).trans (if_pos hh)

theorem State.lockStatus_of_limit (hh : (s.lock (lockHome p.half num) num).holder ≠ some p) (hl : s.lockLimit p = true) :
    s.lockStatus p num = some 6 :=
  (State.lockStatus_of_available hn hu).trans ((if_neg hh).trans (if_pos hl))

/-- Below its limit a party is granted the locks that nobody holds. -/
theorem State.lockStatus_eq_granted_iff (hh : (s.lock (lockHome p.half num) num).holder ≠ some p) (hl : s.lockLimit p = false) :
    s.lockStatus p num = some 0 ↔ (s.lock (lockHome p.half num) num).holder = none := by
  rw [State.lockStatus_of_available hn hu, if_neg hh, if_neg (Bool.eq_false_iff.mp hl)]
  split
  · next hfree => exact iff_of_true rfl hfree
  · next hheld => exact iff_of_false nofun hheld

end

end

/-! ### A lock and its queue (R389) -/

theorem State.lock_setLock_same {s : State} {hm : Half} (hw : Tbl.wf (s.locks.get hm) = true) (num : Nat) (l : LockState) :
    (s.setLock hm num l).lock hm num = l := by
  simp only [State.setLock, State.lock, pair_get_upd_same]
  exact tget_tset_same _ _ _ _ hw

theorem State.holder_takeLock {s : State} {p : LockParty} {num : Nat} (hw : Tbl.wf (s.locks.get (lockHome p.half num)) = true) :
    ((s.takeLock p num).lock (lockHome p.half num) num).holder = some p :=
  congrArg LockState.holder (State.lock_setLock_same hw num _)

/-- A lock for which nobody waits is left free. -/
theorem State.lock_passOn_of_no_waiters {s : State} {hm : Half} {num : Nat} (hw : Tbl.wf (s.locks.get hm) = true)
    (hq : (s.lock hm num).waiters = []) (st : Nat) : (s.passOn hm num st).lock hm num = LockState.free := by
  have hpass : s.passOn hm num st = s.setLock hm num LockState.free := by
    unfold State.passOn
    dsimp only
    rw [hq]
  rw [hpass, State.lock_setLock_same hw]

/-- A waiter enters behind those of its priority and above, before all others. -/
theorem enqueueWaiter_split (l : List LockWaiter) (x : LockWaiter) :
    ∃ a b, l = a ++ b ∧ enqueueWaiter l x = a ++ x :: b ∧ (∀ y ∈ a, x.prio ≤ y.prio) ∧ ∀ y r, b = y :: r → y.prio < x.prio := by
  refine ⟨_, _, List.takeWhile_append_dropWhile.symm, rfl, fun y hy => ?_, fun y r hb => ?_⟩
  · exact of_decide_eq_true (List.mem_takeWhile_imp (p := fun z : LockWaiter => decide (x.prio ≤ z.prio)) hy)
  · have hhead := List.head?_dropWhile_not (fun z : LockWaiter => decide (x.prio ≤ z.prio)) l
    rw [hb] at hhead
    exact Nat.not_le.mp (of_decide_eq_false hhead)

/-! ### A forced release (R391; which locks and agents it acts for is log entry 74) -/

theorem State.forceLock_of_held {s : State} {h : Half} {num : Nat} (hn : num < 4096 ∨ (h = 0 ∧ num < 4352)) {p : LockParty}
    (hp : (s.lock h num).holder = some p) :
    s.forceLock h num = (((s.passOn h num 1).settlePrio p).forcedInt p).bump (bLocks h) R.locks_FORCED := by
  unfold State.forceLock
  rw [if_pos hn, hp]

theorem exec_locksForce {s : State} {a : Agent} {h : Half} (num : Fin 8192) (ha : s.agentReach a (.locks h) = true)
    (hsup : ∀ h n, a = .control h n → (s.thread (.cc h n)).user = false) : exec (.locksForce a h num) s = .next (s.forceLock h num.val) := by
  refine congrArg Host.Outcome.next (if_pos ⟨ha, ?_⟩)
  cases a with
  | control hh n => exact congrArg (! ·) (hsup hh n rfl)
  | _ => rfl

end Sys2Proof.Machine

/-- Settles O44: LOCK and TRYLOCK are `lockAnswer` with what each does with a lock held by another; the statuses are the branches of
`State.lockStatus` and `State.unlock`. -/
theorem lockInstructions : Obligations.LockInstructions := by
  unfold Obligations.LockInstructions
  refine ⟨fun s s1 u th w num p c hc hu hr hnum hp => ?_, fun s p num => ⟨State.lockStatus_of_number, State.lockStatus_of_unavailable,
    fun hn hu => ⟨fun hh => ⟨State.lockStatus_of_held hn hu hh, (State.unlock_of_available hn hu).trans (if_pos hh)⟩,
      fun hh => ⟨(State.unlock_of_available hn hu).trans (if_neg hh), State.lockStatus_of_limit hn hu hh,
        State.lockStatus_eq_granted_iff hn hu hh⟩⟩⟩,
    fun s p num => State.holder_takeLock, fun s hm num st hw hq => State.lock_passOn_of_no_waiters hw hq st, enqueueWaiter_split,
    fun s a h num ha hsup p hn hp => (exec_locksForce num ha hsup).trans (congrArg Host.Outcome.next (State.forceLock_of_held hn hp))⟩
  subst hc hu
  refine ⟨?_, fun hi hheld => ?_, fun hi hheld => ?_, fun hi => ?_⟩
  · simp only [List.forall_mem_cons, List.not_mem_nil, false_implies, implies_true, and_true, execFkLock_eq, execFkTrylock_eq]
    exact ⟨fun hi => execFk_lockAnswer hi hr hnum hp, fun hi => execFk_lockAnswer hi hr hnum hp⟩
  · subst hnum hp
    rw [execFkLock_eq]
    exact execFk_wait hi hr (lockAnswer_held hheld) ((State.queueLock_waits _ _ _).trans (State.updThread_waits _ _ _))
  · subst hnum hp
    rw [execFkTrylock_eq]
    exact execFk_next hi hr (lockAnswer_held hheld) (State.putG_waits _ _ _ _)
  · subst hnum hp
    exact execFk_next hi hr rfl ((State.putG_waits _ _ _ _).trans (State.unlock_waits _ _ _))
end

section
open Sys2Proof Sys2Proof.Machine

/-! ## Thread control -/

namespace Sys2Proof.Machine

/-! ### The commands of THREAD_CTL (R377, R378, R380, R628) -/

section
variable {s : State} {th : ThreadRef}

theorem doThreadHalt_of_open (ho : s.debugOpen th = true) :
    doThreadHalt th s = s.updThread th fun x => if x.halted then x else { x with halting := true } := if_pos ho

theorem doThreadResume_of_halted (ho : s.debugOpen th = true) (hh : (s.thread th).halted = true) : doThreadResume th s = s.resumeNow th :=
  if_pos ⟨hh, ho⟩

/-- A locked debug scope lets no HALT and no RESUME through. -/
theorem doThreadHalt_of_locked (ho : s.debugOpen th = false) : doThreadHalt th s = s ∧ doThreadResume th s = s :=
  ⟨if_neg (Bool.eq_false_iff.mp ho), if_neg fun hc => Bool.eq_false_iff.mp ho hc.2⟩

theorem doThreadKill_of_task {h : Half} {t : TileIx} {n : Fin 128} {k : Nat} (hk : (s.thread (.pk h t n)).task = some k) :
    doThreadKill (.pk h t n) s =
      (s.discardTask h t k drKilled).updThread (.pk h t n) fun x => { x with halted := false, halting := false } := by
  unfold doThreadKill
  dsimp only
  rw [hk]

end

/-! ### A halt and its end (R241, R378) -/

/-- A thread that halts, and its task. -/
def Thread.halt (x : Thread) : Thread := { x with halted := true, halting := false }

def Task.halt (x : Task) : Task := { x with state := if x.state = .running ∨ x.state = .waiting then .halted else x.state }

/-- A thread whose halt ends, and its task: it waits again where the thread is in TWAIT. -/
def Thread.resume (x : Thread) : Thread := { x with halted := false }

def Task.resume (p : TPhase) (x : Task) : Task :=
  { x with state := if x.state = .halted then (match p with
      | .twait _ => .waiting
      | _ => .running) else x.state }

theorem Task.state_halt {x : Task} (hx : x.state = .running) : x.halt.state = .halted := if_pos (.inl hx)

theorem Task.state_resume_issuing {x : Task} (hx : x.state = .halted) : (x.resume .issuing).state = .running := if_pos hx

section
variable {s : State} {h : Half} {t : TileIx} {n : Fin 128} {k : Nat}

/-- A change of a thread and of a task of its tile. -/
theorem State.updThread_updTask (hw : s.threadWf (.pk h t n) = true) (ht : Tbl.wf (s.tile h t).tasks = true) {f : Thread → Thread}
    (hf : ∀ x, (f x).g = x.g ∧ (f x).a = x.a) (y : Task → Task) :
    ((s.updThread (.pk h t n) f).updTask h t k y).thread (.pk h t n) = f (s.thread (.pk h t n)) ∧
      ((s.updThread (.pk h t n) f).updTask h t k y).task h t k = y (s.task h t k) := by
  obtain ⟨htiles, -⟩ := State.threadWf_tables hw
  obtain ⟨hg, ha⟩ := hf (s.thread (.pk h t n))
  have hw' : (s.updThread (.pk h t n) f).threadWf (.pk h t n) = true :=
    State.threadWf_updThread _ _ _ hw (hg ▸ State.threadWf_g hw) (ha ▸ State.threadWf_a hw)
  obtain ⟨htiles', -⟩ := State.threadWf_tables hw'
  have htasks : Tbl.wf ((s.updThread (.pk h t n) f).tile h t).tasks = true := by
    unfold State.updThread
    dsimp only
    rw [State.tile_updTile_same _ _ _ _ htiles]
    exact ht
  exact ⟨(State.thread_updTask htiles' _ _).trans (State.thread_updThread_same _ _ _ hw),
    (State.task_updTask_same htiles' htasks _ _).trans (congrArg y (State.task_updThread htiles _ _))⟩

theorem State.haltNow_eq (hk : (s.thread (.pk h t n)).task = some k) :
    s.haltNow (.pk h t n) = (s.updThread (.pk h t n) Thread.halt).updTask h t k Task.halt := by
  unfold State.haltNow
  dsimp only
  rw [hk]
  rfl

theorem State.resumeNow_eq (hk : (s.thread (.pk h t n)).task = some k) :
    s.resumeNow (.pk h t n) = (s.updThread (.pk h t n) Thread.resume).updTask h t k (Task.resume (s.thread (.pk h t n)).phase) := by
  unfold State.resumeNow
  dsimp only
  rw [hk]
  rfl

end

end Sys2Proof.Machine

/-- Settles O42: each command of THREAD_CTL is the lemma about its function, and `State.updThread_updTask` gives what a halt and its end leave of
the thread and of its task. -/
theorem threadControl : Obligations.ThreadControl := by
  unfold Obligations.ThreadControl
  refine ⟨fun s a th ha => ?_, fun s a th ha => ⟨?_, fun ho hh => ?_, fun ho hh => ?_, fun ho => ?_⟩, fun s a h t n k ha hk => ?_,
    fun s th hh => congrArg Host.Outcome.next (if_pos hh), fun s h t n k hw ht hk => ?_⟩
  · have hno (x : State) : (.next (if s.agentReach a (threadUnit th) then x else s) : Out) = .next s := by simp [ha]
    simp only [List.forall_mem_cons, List.not_mem_nil, false_implies, implies_true, and_true]
    exact ⟨hno _, hno _, hno _, hno _⟩
  · exact next_ite_of_reach ha rfl
  · exact next_ite_of_reach ha (doThreadHalt_of_open ho)
  · exact next_ite_of_reach ha (doThreadResume_of_halted ho hh)
  · obtain ⟨hhalt, hresume⟩ := doThreadHalt_of_locked ho
    exact ⟨next_ite_of_reach ha hhalt, next_ite_of_reach ha hresume⟩
  · exact next_ite_of_reach ha (doThreadKill_of_task hk)
  · obtain ⟨hthread, htask⟩ := State.updThread_updTask hw ht (f := Thread.halt) (k := k) (fun _ => ⟨rfl, rfl⟩) Task.halt
    obtain ⟨hthread', htask'⟩ := State.updThread_updTask hw ht (f := Thread.resume) (k := k) (fun _ => ⟨rfl, rfl⟩)
      (Task.resume (s.thread (.pk h t n)).phase)
    rw [State.haltNow_eq hk, State.resumeNow_eq hk, hthread, htask, hthread', htask']
    exact ⟨rfl, rfl, Task.state_halt, rfl, fun hhalt hp => by rw [hp]; exact Task.state_resume_issuing hhalt⟩
end

section
open Sys2Proof Sys2Proof.Machine

/-! ## A cluster that a commit holds -/

namespace Sys2Proof.Machine

/-! ### The hold (R64) -/

@[simp] theorem State.atIssue_commits (s : State) (th : ThreadRef) : (s.atIssue th).commits = s.commits := by
  obtain ⟨_, _, _, hframe⟩ := s.atIssue_frame th
  rw [hframe]

@[simp] theorem State.atIssue_clusterHeld (s : State) (th : ThreadRef) (h : Half) (t : TileIx) (cl : Nat) :
    (s.atIssue th).clusterHeld h t cl = s.clusterHeld h t cl := by
  rw [State.clusterHeld, State.atIssue_commits]
  rfl

section
variable {s s1 : State} {op : FkOp} {h : Half} {t : TileIx} {n : Fin 128} {w : Nat} {c : Fk} {q : CpCall} {f : State → CpCall → FkRes}

/-- The cluster of a call: the one in which its task holds the unit, or its thread's own (R402). -/
theorem ReachesUnit.cluster (hq : ReachesUnit s h t n c q) :
    (lockRequired (wUnit c.w) = true ∧ (s.tile h t).heldIn q.k (instUnit (wUnit c.w)) (wInst c.w) = some q.cl) ∨
      (lockRequired (wUnit c.w) = false ∧ q.cl = n.val / 32) := by
  obtain ⟨-, -, -, -, -, -, hcl⟩ := hq
  split at hcl
  case isTrue hlock => exact .inl ⟨hlock, hcl⟩
  case isFalse hlock => exact .inr ⟨Bool.eq_false_iff.mpr hlock, hcl⟩

/-- An instruction that reaches a cluster does not issue while a commit waits for the cluster's safe point. -/
theorem cpCall_of_held (hi : Issues s op (.pk h t n) s1 w) (hq : ReachesUnit (s1.atIssue (.pk h t n)) h t n (callOf s s1 (.pk h t n) w) q)
    (hheld : s1.clusterHeld h t q.cl = true) : cpCall (.pk h t n) op s f = s1 := by
  have hcluster := hq.cluster
  obtain ⟨-, -, -, hk, -, hlost, -⟩ := hq
  have hstall (k : Nat) (c : Fk) : (s1.atIssue (.pk h t n)).toCluster ⟨h, t, n, k, q.cl, c⟩ f = .fail (s1.atIssue (.pk h t n)) .stall :=
    if_pos ((State.atIssue_clusterHeld _ _ _ _ _).trans hheld)
  refine fkRun_stall (s3 := s1.atIssue (.pk h t n)) hi ?_
  dsimp only [callOf] at hlost hcluster ⊢
  rw [← hk, hlost]
  dsimp only
  rcases hcluster with ⟨hlock, hcl⟩ | ⟨hlock, hcl⟩
  · rw [if_pos hlock, hcl]
    exact hstall _ _
  · rw [hlock, ← hcl]
    exact hstall _ _

end

/-! ### A held instruction -/

/-- Tile 0 of H0 of which thread 0 serves task 0 and is about to issue the word `w`; of the check-value unit and the expansion port the task
holds number 0 in cluster 0. -/
def heldTile (w : Nat) : Tile :=
  { Tile.init with
    bank0 := tstore [] 0 (leBytes 4 w)
    threads := [(0, { Thread.init with phase := .issuing, task := some 0 })]
    tasks := [(0, { Task.init with state := .running, thread := some 0 })]
    insts := [(instKey 0 0 0, { CpInst.reset with holder := some 0 }), (instKey 0 3 0, { CpInst.reset with holder := some 0 })] }

/-- That tile with its core and cluster ACTIVE and the expansion link up, while a commit waits for the safe point of the cluster. -/
def heldState (w : Nat) : State :=
  { State.reset with
    units := tput (tput [] (unitBase (.core 0 0 0 0)) { UnitDyn.init with state := .active }) (unitBase (.cluster 0 0 0))
      { UnitDyn.init with state := .active }
    tiles := ⟨[(0, heldTile w)], []⟩
    exp := ⟨{ ExpState.reset with linkUp := true }, ExpState.reset⟩
    commits := [{ root := .cluster 0 0 0, todo := [], waiting := [.cluster 0 0 0], sides := [] }] }

/-- Its instruction, and the call that its unit would receive. -/
def heldFk (w : Nat) : Fk := callOf (heldState w) (heldState w) (.pk 0 0 0) w
def heldCall (w : Nat) : CpCall := ⟨0, 0, 0, 0, 0, heldFk w⟩

/-- FDIV, CPSAVE of the check-value unit and EXP_REQUEST, with every operand in g0 (R354, R399). -/
def fdivWord : Nat := 0xEC000000
def cpsaveWord : Nat := 0xE000007E
def expReqWord : Nat := 0xFC000000

section
variable {op : FkOp} {w : Nat}

theorem heldState_issues (hw : leNat (tbytes (heldTile w).bank0 0 4) = w) (hop : fkDecode false w = some op) :
    Issues (heldState w) op (.pk 0 0 0) (heldState w) w :=
  ⟨rfl, congrArg (fun x => (heldState w, Except.ok x)) hw, hop, rfl, rfl⟩

theorem heldState_reaches (hcl : if lockRequired (wUnit w) then (heldTile w).heldIn 0 (instUnit (wUnit w)) (wInst w) = some 0 else 0 = 0) :
    ReachesUnit ((heldState w).atIssue (.pk 0 0 0)) 0 0 0 (heldFk w) (heldCall w) := ⟨rfl, rfl, rfl, rfl, rfl, rfl, hcl⟩

/-- The command answers the state as it was, where no response is outstanding. -/
theorem heldState_no_response {f : State → CpCall → FkRes} {v : State} (hi : Issues (heldState w) op (.pk 0 0 0) (heldState w) w)
    (hq : ReachesUnit ((heldState w).atIssue (.pk 0 0 0)) 0 0 0 (heldFk w) (heldCall w))
    (hv : (.next (cpCall (.pk 0 0 0) op (heldState w) f) : Out) = .next v) : (v.tile 0 0).responses.length = 0 := by
  rw [cpCall_of_held hi hq rfl] at hv
  exact Host.Outcome.next.inj hv ▸ rfl

end

end Sys2Proof.Machine

/-- Refutes O50: the FDIV clause has no premise about commits. In `heldState fdivWord` a commit waits for the cluster's safe point, so FDIV does
not issue (R64, `cpCall_of_held`) and no response is outstanding, where the clause has one. -/
theorem not_coprocessorOperations : ¬ Obligations.CoprocessorOperations := by
  unfold Obligations.CoprocessorOperations
  intro h
  have hi := heldState_issues (w := fdivWord) (op := .fdiv) rfl rfl
  have hq := heldState_reaches (w := fdivWord) rfl
  obtain ⟨_, _, _, _, _, _, _, hfrac, _⟩ := h _ _ _ 0 0 0 _ _ _ rfl rfl hq rfl rfl
  have hserved := hfrac (.store 0) rfl _ List.mem_cons_self hi
  exact Nat.one_ne_zero (heldState_no_response hi hq hserved)

/-- Refutes O51: the CPSAVE clause has no premise about commits. In `heldState cpsaveWord` a commit waits for the cluster's safe point, so CPSAVE
does not issue (R64, `cpCall_of_held`) and no response is outstanding, where the clause has one. -/
theorem not_coprocessorLocksAndResponses : ¬ Obligations.CoprocessorLocksAndResponses := by
  unfold Obligations.CoprocessorLocksAndResponses
  rintro ⟨⟨_, _, h, _⟩, _⟩
  have hi := heldState_issues (w := cpsaveWord) (op := .cpsave) rfl rfl
  have hq := heldState_reaches (w := cpsaveWord) rfl
  obtain ⟨hsave, _⟩ := h _ _ _ 0 0 0 _ _ _ rfl rfl hq rfl
  have hserved := hsave (.store 0) hi rfl rfl
  exact Nat.one_ne_zero (heldState_no_response hi hq hserved)

/-- Refutes O53: the EXP_REQUEST clause has no premise about commits. In `heldState expReqWord` a commit waits for the cluster's safe point, so
EXP_REQUEST does not issue (R64, `cpCall_of_held`) and no response is outstanding, where the clause has one. -/
theorem not_expansionPort : ¬ Obligations.ExpansionPort := by
  unfold Obligations.ExpansionPort
  rintro ⟨h, _⟩
  have hi := heldState_issues (w := expReqWord) (op := .expReq) rfl rfl
  have hq := heldState_reaches (w := expReqWord) rfl
  obtain ⟨_, _, hserved, _⟩ := h _ _ _ 0 0 0 _ 0 _ _ _ [] (.store 0) rfl rfl hq hi rfl rfl rfl (Nat.zero_le _) (Nat.zero_le _) rfl rfl rfl rfl
    (by decide) (by decide) rfl rfl
  exact Nat.one_ne_zero (heldState_no_response hi hq hserved)
end

section
open Sys2Proof Sys2Proof.Machine

/-! ## Sequence checks, fractional results and the confirm port -/

namespace Sys2Proof.Machine

/-! ### What a message does to its stream (R418) -/

theorem serialDistance_self (x m : Nat) : (x + m - x) % m = 0 := by rw [Nat.add_sub_cancel_left, Nat.mod_self]

/-- The distance modulo `m` of a counter that has advanced by `d`. -/
theorem serialDistance_add {m x d : Nat} (hx : x < m) (hd : d < m) : ((x + d) % m + m - x) % m = d := by
  rcases Nat.lt_or_ge (x + d) m with h | h
  · rw [Nat.mod_eq_of_lt h, show x + d + m - x = d + m by omega, Nat.add_mod_right, Nat.mod_eq_of_lt hd]
  · rw [Nat.mod_eq_sub_mod h, Nat.mod_eq_of_lt (a := x + d - m) (by omega), show x + d - m + m - x = d by omega, Nat.mod_eq_of_lt hd]

section
variable {r : Stream} {win k cnt d : Nat}

theorem Stream.accept_of_sync (hs : r.sync = true) : r.accept win k cnt = (0, 0, { r with rx := cnt, sync := false, jumps := 0 }) := if_pos hs

theorem Stream.accept_of_distance (hs : r.sync = false) (hd : (cnt + 2 ^ (8 * k) - r.rx) % 2 ^ (8 * k) = d) :
    r.accept win k cnt =
      if d = 0 then (2, 0, { r with repeats := r.repeats + 1 })
      else if d ≤ win then (0, d - 1, { r with rx := cnt, jumps := 0, gaps := r.gaps + (d - 1) })
      else (3, d - 1, { r with jumps := r.jumps + 1 }) := by
  subst hd
  exact if_neg (by simp [hs])

theorem Stream.accept_of_repeat (hs : r.sync = false) (hc : cnt = r.rx) : r.accept win k cnt = (2, 0, { r with repeats := r.repeats + 1 }) :=
  (Stream.accept_of_distance hs (by rw [hc, serialDistance_self])).trans (if_pos rfl)

/-- A counter that has advanced. -/
theorem Stream.accept_of_advance (hs : r.sync = false) (hr : r.rx < 2 ^ (8 * k)) (h0 : 0 < d) (hd : d < 2 ^ (8 * k))
    (hc : cnt = (r.rx + d) % 2 ^ (8 * k)) :
    r.accept win k cnt =
      if d ≤ win then (0, d - 1, { r with rx := cnt, jumps := 0, gaps := r.gaps + (d - 1) }) else (3, d - 1, { r with jumps := r.jumps + 1 }) :=
  (Stream.accept_of_distance hs (hc ▸ serialDistance_add hr hd)).trans (if_neg h0.ne')

end

/-! ### The corners of FDIV and LOG2 (R420, R421) -/

theorem fdivRes_zero (rnd : Nat) {a : Nat} (ha : a < 2 ^ 32) :
    fdivRes rnd a 0 = (if a < 2 ^ 31 then 0x7FFFFFFF else 0x80000000, true, false) := by
  have hsign : 0 ≤ signed 32 a ↔ a < 2 ^ 31 := by
    rw [signed32_eq ha]
    split <;> omega
  unfold fdivRes
  simp only [show signed 32 0 = 0 from rfl, if_true, hsign]

theorem fdivRes_self (rnd : Nat) {a : Nat} (h0 : 0 < a) (ha : a < 2 ^ 31) : fdivRes rnd a a = (0x7FFFFFFF, false, true) := by
  have hpos : 0 < signed 32 a := by
    rw [signed32_eq (by omega)]
    split <;> omega
  exact (if_neg hpos.ne').trans (if_pos (.inl ⟨hpos, le_rfl⟩))

theorem topBit_two_pow : ∀ n < 32, topBit (2 ^ n) = n := by decide

theorem log2Res_two_pow (rnd f : Nat) {n : Nat} (hn : n < 32) : log2Res rnd (2 ^ n) f = (n * 2 ^ 26, false, false) := by
  unfold log2Res
  rw [if_neg (Nat.two_pow_pos n).ne', topBit_two_pow n hn]
  exact if_pos rfl

/-! ### CMP and FIND (R179) -/

section
variable {s : State} {q : CpCall} {k : ConfString}

theorem confCmp_of_outside (hf : (s.callFrame q).length < q.c.g (wA q.c.w) + k.n) : (confCmp s q k).1 = confWord 2 0 :=
  congrArg Prod.fst (if_pos hf)

theorem confCmp_of_inside (hf : q.c.g (wA q.c.w) + k.n ≤ (s.callFrame q).length) :
    (confCmp s q k).1 = confWord (if k.at (s.callFrame q) (q.c.g (wA q.c.w)) then 0 else 1) 0 :=
  congrArg Prod.fst (if_neg hf.not_gt)

theorem confWord_verdict_eq_zero {b : Bool} : confWord (if b then 0 else 1) 0 = confWord 0 0 ↔ b = true := by
  cases b <;> decide

/-- FIND answers the first place in its range at which the string matches. -/
theorem confFind_of_first {v o b : Nat} (hv : v = q.c.g (wA q.c.w)) (hb : b = min (s.callFrame q).length (bits v 16 16)) (hlo : bits v 0 16 ≤ o)
    (hhi : o + k.n ≤ b) (hn : 0 < k.n) (ho : k.at (s.callFrame q) o = true)
    (hfirst : ∀ p, bits v 0 16 ≤ p → p < o → k.at (s.callFrame q) p = false) : (confFind s q k).1 = confWord 0 o := by
  subst hv
  have hfind : (List.range b).find? (fun p => decide (bits (q.c.g (wA q.c.w)) 0 16 ≤ p) && decide (p + k.n ≤ b) && k.at (s.callFrame q) p) =
      some o := by
    refine List.find?_range_eq_some.mpr ⟨by simp [hlo, hhi, ho], List.mem_range.mpr (by omega), fun p hp => ?_⟩
    by_cases hlow : bits (q.c.g (wA q.c.w)) 0 16 ≤ p
    · simp [hfirst p hlow hp]
    · simp [hlow]
  unfold confFind
  dsimp only
  rw [← min_def_lt, ← hb, hfind]

end

end Sys2Proof.Machine

/-- Settles O52: a stream's outcome is decided by how far the counter has advanced (`Stream.accept_of_advance`), the corners of FDIV and LOG2 are
branches of their definitions, and FIND answers the first match in its range. -/
theorem coprocessorResults : Obligations.CoprocessorResults := by
  unfold Obligations.CoprocessorResults
  refine ⟨fun r win k cnt hr _ => ⟨Stream.accept_of_sync, fun hs =>
      ⟨Stream.accept_of_repeat hs, fun d h0 hwin hd hc => ?_, fun d h0 hwin hd hc => ?_⟩⟩,
    fun rnd a ha => ⟨fdivRes_zero rnd ha, fdivRes_self rnd⟩, fun rnd f => ⟨rfl, fun n => log2Res_two_pow rnd f⟩,
    fun s q k => ⟨confCmp_of_outside, fun hf => ?_, fun o _ hfirst hlo hhi hn ho => confFind_of_first rfl rfl hlo hhi hn ho hfirst⟩⟩
  · exact (Stream.accept_of_advance hs hr h0 hd hc).trans (if_pos hwin)
  · exact (Stream.accept_of_advance hs hr h0 hd hc).trans (if_neg hwin.not_ge)
  · rw [confCmp_of_inside hf]
    exact confWord_verdict_eq_zero
end

section
open Sys2Proof Sys2Proof.Machine

/-! ## Admission of copies and replication lists -/

namespace Sys2Proof.Machine

/-! ### One copy (R445, R446) -/

section
variable {s : State} {h : Half} {c : Copy}

theorem doAdmitCopy_of_first {r : List Copy} (hc : (s.buf.get h).copies = c :: r) (hl : s.live (.buffer h) = true) :
    doAdmitCopy h s = ((s.updBuf h fun b => { b with copies := r }).takeCopy h c).settleReg h c.chain := by
  unfold doAdmitCopy
  rw [hc]
  exact if_pos hl

theorem State.underThreshold_iff (q d n : Nat) :
    s.underThreshold h q d n = true ↔
      (d + n ≤ fld (s.qcfg h q) 16 16 ∨ d + n ≤ alphaTimes (fld (s.qcfg h q) 12 4) (s.poolFree h (fld (s.qcfg h q) 10 2))) := by
  rw [State.underThreshold, Bool.or_eq_true, decide_eq_true_iff, decide_eq_true_iff]

/-- A copy of a queue without a deep part stays on chip. -/
theorem State.goesDeep_of_shallow (hd : bit (s.qcfg h c.q) 8 = false) : s.goesDeep h c = false := by
  rw [State.goesDeep, hd, Bool.false_and]

theorem State.takeCopy_of_broken (hb : (s.chain h c.chain).broken = true) : s.takeCopy h c = s.refuse h c pcError := if_pos hb

theorem State.takeCopy_of_closed (hb : (s.chain h c.chain).broken = false) (hp : s.portAccepts h (c.q / 16) = false) :
    s.takeCopy h c = s.refuse h c pcDown :=
  (if_neg (by simp [hb])).trans (if_pos (by simp [hp]))

theorem State.takeCopy_of_full (hb : (s.chain h c.chain).broken = false) (hp : s.portAccepts h (c.q / 16) = true)
    (hf : entryStore ≤ (s.buf.get h).entryCount) : s.takeCopy h c = (s.bump (bBuffer h) R.buffer_ENTRY_FULL).release h c.chain :=
  (if_neg (by simp [hb])).trans ((if_neg (by simp [hp])).trans (if_pos hf))

/-- The charge test, the last of R445: a unicast copy joins its queue once its charge is in the queue's pool. -/
def State.chargeCopy (s : State) (h : Half) (c : Copy) : State :=
  let p := fld (s.qcfg h c.q) 10 2
  let (s1, ok) := s.moveCharge h c.chain p
  if ok && decide ((s.chain h c.chain).size ≤ s.poolFree h p) then s1.admitOnChip h c else s.refuse h c pcPool

/-- Past the first three tests, a queue without a deep part leaves the threshold and, for a unicast copy, the charge. -/
theorem State.takeCopy_of_shallow (hb : (s.chain h c.chain).broken = false) (hp : s.portAccepts h (c.q / 16) = true)
    (hf : (s.buf.get h).entryCount < entryStore) (hd : bit (s.qcfg h c.q) 8 = false) :
    s.takeCopy h c =
      if ¬ s.underThreshold h c.q (depthOf (s.queue h c.q)) (s.chain h c.chain).size then s.refuse h c pcThreshold
      else if c.mcast then s.admitOnChip h c
      else s.chargeCopy h c :=
  (if_neg (by simp [hb])).trans <| (if_neg (by simp [hp])).trans <| (if_neg hf.not_ge).trans <|
    if_neg (by simp [State.goesDeep_of_shallow hd])

theorem State.chargeCopy_of_short (hn : s.poolFree h (fld (s.qcfg h c.q) 10 2) < (s.chain h c.chain).size) :
    s.chargeCopy h c = s.refuse h c pcPool :=
  if_neg (by simp [hn])

theorem State.chargeCopy_of_moved {s1 : State} (hm : s.moveCharge h c.chain (fld (s.qcfg h c.q) 10 2) = (s1, true))
    (hn : (s.chain h c.chain).size ≤ s.poolFree h (fld (s.qcfg h c.q) 10 2)) : s.chargeCopy h c = s1.admitOnChip h c := by
  unfold State.chargeCopy
  dsimp only
  rw [hm]
  exact if_pos (by simp [hn])

/-- A chain already charged to the pool stays charged to it. -/
theorem State.moveCharge_self {id p : Nat} (hp : (s.chain h id).pool = p) : s.moveCharge h id p = (s, true) := if_pos hp

end

/-! ### The walk of a list and its targets (R449–R451) -/

section
variable {s : State} {h : Half} {w : WalkReq} {r : List WalkReq}

theorem doReplWalk_of_ended (hw : (s.buf.get h).walks = w :: r) (hl : s.live (.buffer h) = true)
    (hx : (s.replWalk h (s.chain h w.chain) w.list).waits = false) (hb : (s.replWalk h (s.chain h w.chain) w.list).broke = false)
    (hi : w.list < replEntries) :
    doReplWalk h s = ((s.updBuf h fun b => { b with walks := r }).replicate h w.chain w.list
      (s.replWalk h (s.chain h w.chain) w.list).targets).settleReg h w.chain := by
  unfold doReplWalk
  rw [hw]
  dsimp only
  rw [if_neg (by simp [hl, hx]), if_neg hi.not_ge, if_neg (by simp [hb])]

theorem doReplWalk_of_waiting (hw : (s.buf.get h).walks = w :: r) (hx : (s.replWalk h (s.chain h w.chain) w.list).waits = true) :
    doReplWalk h s = s := by
  unfold doReplWalk
  rw [hw]
  exact if_pos (.inr hx)

/-- Each entry that is read takes one of the walk's fuel and gives at most one target. -/
theorem State.walkFrom_targets_length (c : Chain) (fuel : Nat) : ∀ (done : Bool) (i : Nat),
    (s.walkFrom h c done i fuel).targets.length ≤ fuel := by
  induction fuel with
  | zero => exact fun _ _ => le_rfl
  | succ fuel ih =>
    intro done i
    have hone (t : Option Target) : t.toList.length ≤ 1 := by cases t <;> simp
    unfold State.walkFrom
    dsimp only
    split
    · exact Nat.zero_le _
    · split
      · exact Nat.zero_le _
      · rw [List.length_append, Nat.add_comm fuel]
        refine Nat.add_le_add (hone _) ?_
        split
        · exact Nat.zero_le _
        · exact ih _ _

theorem State.replWalk_targets_length (c : Chain) (list : Nat) : (s.replWalk h c list).targets.length ≤ 1024 := by
  unfold State.replWalk
  split
  · exact Nat.zero_le _
  · exact State.walkFrom_targets_length c 1024 false list

/-- A walk that found no target frees its chain. -/
theorem State.replicate_nil (id list : Nat) : s.replicate h id list [] = s.freeChain h id := rfl

/-- Targets past the 511th are counted and left out. -/
theorem State.replicate_of_long (id list : Nat) {ts : List Target} (ht : 511 < ts.length) :
    s.replicate h id list ts = (s.bump (bBuffer h) R.buffer_REPL_TRUNCATED).replicate h id list (ts.take 511) := by
  have hcut : ¬ 511 < (ts.take 511).length := by simp
  unfold State.replicate
  dsimp only
  rw [if_pos ht, if_neg hcut, List.take_take, Nat.min_self]

end

end Sys2Proof.Machine

/-- Settles O18: past the first three tests a copy is decided by `State.takeCopy_of_shallow`, and a walk reads at most as many entries as its
fuel. -/
theorem copiesQueued : Obligations.CopiesQueued := by
  unfold Obligations.CopiesQueued
  refine ⟨⟨fun s h c r hc hl => congrArg Host.Outcome.next (doAdmitCopy_of_first hc hl), fun s h c => State.takeCopy_of_broken,
      fun s h c => State.takeCopy_of_closed, fun s h c => State.takeCopy_of_full, fun s h c hb hp hf hd => ?_,
      fun s h => State.underThreshold_iff⟩,
    fun s h w r hw hl hx hb hi => congrArg Host.Outcome.next (doReplWalk_of_ended hw hl hx hb hi),
    fun s h w r hw hx => congrArg Host.Outcome.next (doReplWalk_of_waiting hw hx), fun s h => State.replWalk_targets_length,
    fun s h => State.replicate_nil, fun s h id l ts => State.replicate_of_long id l⟩
  rw [State.takeCopy_of_shallow hb hp hf hd]
  refine ⟨fun hu => if_pos (by simp [hu]), fun hu hm => ?_, fun hu hm => ?_⟩
  · rw [if_neg (by simp [hu]), if_pos hm]
  · rw [if_neg (by simp [hu]), if_neg (by simp [hm])]
    exact ⟨State.chargeCopy_of_short, fun hpool => State.chargeCopy_of_moved (State.moveCharge_self hpool),
      fun s1 => State.chargeCopy_of_moved⟩
end

section
open Sys2Proof Sys2Proof.Machine

/-! ## The release of chains, deep queues, the sweep and flushed ports -/

namespace Sys2Proof.Machine

/-! ### One holder lets go (R442, R443) -/

section
variable {s : State} {h : Half} {id : Nat} {c : Chain}

theorem State.release_of_unheld (hc : s.chain? h id = some c) (h0 : c.refcnt = 0) :
    s.release h id = s.report (.buffer h) F.BUF_REFCNT (nth 0 c.cells 0) := by
  unfold State.release
  rw [hc]
  exact if_pos h0

theorem State.release_of_last (hc : s.chain? h id = some c) (h1 : c.refcnt = 1) (hb : c.broken = false) :
    s.release h id = s.freeChain h id := by
  unfold State.release
  rw [hc]
  exact (if_neg (by simp [h1])).trans (if_pos (by simp [h1, hb]))

theorem State.release_of_earlier (hc : s.chain? h id = some c) (h1 : 1 < c.refcnt) :
    s.release h id = s.updChain h id fun c => { c with refcnt := c.refcnt - 1 } := by
  unfold State.release
  rw [hc]
  exact (if_neg (by omega)).trans (if_neg (by omega))

theorem State.buf_get_freeChain (hc : s.chain? h id = some c) :
    (s.freeChain h id).buf.get h = { ((s.buf.get h).uncharge c.pool c.size) with
      chains := tdel (s.buf.get h).chains id
      badCells := (s.buf.get h).badCells.filter fun x => !((c.cells ++ c.ocells).contains x) } := by
  rw [State.chain?] at hc
  rw [State.freeChain, State.updBuf_buf, pair_get_upd_same, hc]

theorem State.chain?_freeChain (hc : s.chain? h id = some c) (hw : Tbl.wf (s.buf.get h).chains = true) :
    (s.freeChain h id).chain? h id = none := by
  rw [State.chain?, State.buf_get_freeChain hc]
  exact tget?_tdel_same _ _ hw

theorem State.queues_freeChain (hc : s.chain? h id = some c) : ((s.freeChain h id).buf.get h).queues = (s.buf.get h).queues := by
  rw [State.buf_get_freeChain hc]
  rfl

theorem State.chain?_updChain (hc : s.chain? h id = some c) (f : Chain → Chain) : (s.updChain h id f).chain? h id = some (f c) := by
  rw [State.chain?] at hc ⊢
  rw [State.updChain, State.updBuf_buf, pair_get_upd_same, hc]
  exact tget?_tput_same _ _ _

/-- What a change of a half's buffer leaves unchanged. -/
theorem State.updBuf_frame (f : BufferState → BufferState) :
    s.updBuf h f = { s with buf := (s.updBuf h f).buf } ∧ (s.updBuf h f).buf.get (other h) = s.buf.get (other h) :=
  ⟨rfl, pair_get_upd_other _ _ _⟩

theorem State.freeChain_frame :
    s.freeChain h id = { s with buf := (s.freeChain h id).buf } ∧ (s.freeChain h id).buf.get (other h) = s.buf.get (other h) :=
  State.updBuf_frame _

theorem State.updChain_frame (f : Chain → Chain) :
    s.updChain h id f = { s with buf := (s.updChain h id f).buf } ∧ (s.updChain h id f).buf.get (other h) = s.buf.get (other h) :=
  State.updBuf_frame _

end

/-! ### Deep queues (R441, R457, R458) -/

section
variable {s : State} {h : Half} {q : Nat} {x : SpillEntry}

/-- A command with no checker armed takes place, and leaves the state as it is where a request of it has to wait. -/
theorem next_orWait_or_stay {f : State → State} {u : State} (ha : s.armed = []) (hf : f s = u) :
    (u.waits = s.waits → (.next (s.orWait f) : Out) = .next u) ∧ (u.waits ≠ s.waits → (.next (s.orWait f) : Out) = .next s) := by
  refine ⟨next_orWait ha hf, fun hw => ?_⟩
  subst hf
  rw [State.orWait_waits hw]

theorem doSpillWritten_of_readable {id : Nat} (hx : (s.spill h q).find? (fun x => x.writing.isSome) = some x) (hi : x.writing = some id)
    (hr : s.unreadable h id = false) :
    doSpillWritten h q s =
      ((s.used.writeBlocks h (spillImage s.fresh x.frame) x.blocks 0).setSpill h q
        (((s.used.writeBlocks h (spillImage s.fresh x.frame) x.blocks 0).spill h q).map fun y =>
          if y.blocks = x.blocks then { y with writing := none } else y)).release h id := by
  unfold doSpillWritten
  rw [hx]
  dsimp only
  rw [hi]
  exact if_neg (by simp [hr])

theorem doSpillWritten_of_unreadable {id : Nat} (hx : (s.spill h q).find? (fun x => x.writing.isSome) = some x) (hi : x.writing = some id)
    (hr : s.unreadable h id = true) :
    doSpillWritten h q s = (s.setSpill h q ((s.spill h q).filter fun y => y.writing ≠ some id)).errorDrop h h (q / 16) id := by
  unfold doSpillWritten
  rw [hx]
  dsimp only
  rw [hi]
  exact if_pos hr

theorem doSpillFill_of_fillable (hx : s.fillable h q = some x) (hr : tget? (s.buf.get h).fillRetry q = none) :
    doSpillFill h q s = s.fillFront h q x := by
  unfold doSpillFill
  rw [hx]
  exact if_neg (by simp [hr])

theorem doFillRetry_of_due {t : Nat} (hx : s.fillable h q = some x) (hr : tget? (s.buf.get h).fillRetry q = some t) (ht : t ≤ s.ticks) :
    doFillRetry h q s = (s.bump (bBuffer h) R.buffer_FILL_RETRIES).fillFront h q x := by
  unfold doFillRetry
  rw [hx, hr]
  exact if_pos ht

theorem State.fillFront_of_no_cells (hb : (x.blocks.any fun i => decide (s.spillSize h ≤ i)) = false)
    (hc : s.canTake h (fld (s.qcfg h q) 10 2) x.entry.cells = false) :
    s.fillFront h q x = s.updBuf h fun b => { b with fillRetry := tput b.fillRetry q (s.ticks + 1500) } :=
  (if_neg (by simp [hb])).trans (if_pos (by simp [hc]))

end

/-! ### The sweep (R438) -/

section
variable {s : State} {h : Half} {cell : Nat}

theorem doReclaimVisit_of_chain {e : Nat × Chain} (hl : s.live (.buffer h) = true) (he : s.chainWith h cell = some e) :
    doReclaimVisit h cell s = if e.2.broken ∧ s.chainNamed h e.1 = false then (s.freeChain h e.1).reclaimed h else s := by
  unfold doReclaimVisit
  rw [if_pos hl, he]

theorem doReclaimVisit_of_lost {x : LostCell} (hl : s.live (.buffer h) = true) (hn : s.chainWith h cell = none)
    (hx : (s.buf.get h).lost.find? (fun x => decide (x.cell = cell)) = some x) : doReclaimVisit h cell s = s.reclaimLost h x := by
  unfold doReclaimVisit
  rw [if_pos hl, hn]
  dsimp only
  rw [hx]

/-- The state behind a lost cell's return to the free list. -/
def State.returnLost (s : State) (h : Half) (x : LostCell) : State :=
  s.updBuf h fun b => { (b.uncharge x.pool 1) with
    lost := b.lost.filter (fun y => decide (y.cell ≠ x.cell)), badCells := b.badCells.filter (· ≠ x.cell) }

theorem State.reclaimLost_of_ownerless {x : LostCell}
    (ho : ((s.buf.get h).chains.any fun e => decide (nth 0 e.2.cells 0 = x.owner)) = false) :
    s.reclaimLost h x = if ((s.returnLost h x).buf.get h).lost.any fun y => decide (y.owner = x.owner) then s.returnLost h x
      else (s.returnLost h x).reclaimed h := by
  have hupd : s.updBuf h (fun b => { (b.uncharge x.pool 1) with
      lost := (s.buf.get h).lost.filter fun y => decide (y.cell ≠ x.cell), badCells := b.badCells.filter (· ≠ x.cell) }) =
      s.returnLost h x := by
    unfold State.returnLost State.updBuf Pair.upd Pair.get
    split <;> rfl
  have hlost : ((s.returnLost h x).buf.get h).lost = (s.buf.get h).lost.filter fun y => decide (y.cell ≠ x.cell) := by
    rw [State.returnLost, State.updBuf_buf, pair_get_upd_same]
  rw [hlost, ← hupd]
  exact if_neg (by simp [ho])

end

/-! ### Holds and flushes (R462) -/

section
variable {s : State} {h : Half} {lp : Nat}

theorem doHoldExpire_of_down (hh : s.hold h lp = .hold) (he : tget 0 (s.buf.get h).holdEnd lp ≤ s.ticks) (hd : s.portUp h lp = false) :
    doHoldExpire h lp s = ((s.setHold h lp .flushing).updBuf h fun b => { b with holdEnd := tdel b.holdEnd lp }).flushEnd h lp :=
  if_pos ⟨hh, he, hd⟩

theorem doHoldExpire_of_not_held (hh : s.hold h lp ≠ .hold) : doHoldExpire h lp s = s := if_neg fun hc => hh hc.1

theorem doFlushEntry_of_queued {q : Nat} {e : QEntry} {r : List QEntry} (hh : s.hold h lp = .flushing) (hl : s.live (.buffer h) = true)
    (hq : ((classesOf lp).flatMap queuesOf).find? (fun q => !(s.queue h q).isEmpty) = some q) (he : s.queue h q = e :: r) :
    doFlushEntry h lp s = (((s.withSched h lp fun s => s.setQueue h q r).bumpPort h lp pcFlush).release h e.chain).flushEnd h lp := by
  unfold doFlushEntry
  rw [if_pos ⟨hh, hl⟩]
  dsimp only
  rw [hq]
  dsimp only
  rw [he]

theorem State.flushEnd_of_empty (hh : s.hold h lp = .flushing) (he : s.portEmpty h lp = true) :
    s.flushEnd h lp = s.setHold h lp (if s.portUp h lp then .up else .empty) :=
  if_pos ⟨hh, he⟩

end

end Sys2Proof.Machine

/-- Settles O19: a release is one of `State.release_of_unheld`, `State.release_of_last` and `State.release_of_earlier`, a request of a deep queue
takes place or leaves the state (`next_orWait_or_stay`), and each visit of the sweep or a flush is the lemma about its function. -/
theorem cellsGivenBack : Obligations.CellsGivenBack := by
  unfold Obligations.CellsGivenBack
  refine ⟨fun s h id c hc => ⟨State.release_of_unheld hc, fun h1 hb hw => ?_, fun h1 hw => ?_⟩,
    ⟨fun s u h q x id ha hx hi hr hu => next_orWait_or_stay ha ((doSpillWritten_of_readable hx hi hr).trans hu.symm),
      fun s u h q x id ha hx hi hr hu => next_orWait ha ((doSpillWritten_of_unreadable hx hi hr).trans hu.symm),
      fun s u h q x ha hx hr hu => next_orWait_or_stay ha ((doSpillFill_of_fillable hx hr).trans hu.symm),
      fun s u h q x t ha hx hr ht hu => next_orWait_or_stay ha ((doFillRetry_of_due hx hr ht).trans hu.symm),
      fun s h q x => State.fillFront_of_no_cells,
      fun s h cell e hl he hb hn => congrArg Host.Outcome.next ((doReclaimVisit_of_chain hl he).trans (if_pos ⟨hb, hn⟩)),
      fun s h cell x hl hn hx => congrArg Host.Outcome.next (doReclaimVisit_of_lost hl hn hx),
      fun s u h x ho hu => hu ▸ State.reclaimLost_of_ownerless ho,
      fun s h cell e hl he hk => congrArg Host.Outcome.next ((doReclaimVisit_of_chain hl he).trans (if_neg ?_))⟩,
    fun s h p hh he hd => congrArg Host.Outcome.next (doHoldExpire_of_down hh he hd),
    fun s h p hh => congrArg Host.Outcome.next (doHoldExpire_of_not_held hh),
    fun s h p q e r hh hl hq he => congrArg Host.Outcome.next (doFlushEntry_of_queued hh hl hq he),
    fun s h lp => State.flushEnd_of_empty⟩
  · rw [State.release_of_last hc h1 hb]
    obtain ⟨hframe, hother⟩ := State.freeChain_frame (s := s) (h := h) (id := id)
    exact ⟨State.chain?_freeChain hc hw, hframe, State.queues_freeChain hc, hother⟩
  · rw [State.release_of_earlier hc h1]
    exact ⟨State.chain?_updChain hc _, State.updChain_frame _⟩
  · rintro ⟨hb, hn⟩
    rcases hk with hk | hk
    · simp [hk] at hb
    · simp [hk] at hn
end

section
open Sys2Proof Sys2Proof.Machine

/-! ## Commands complete -/

namespace Sys2Proof.Machine

/-- Every arm of the dispatch answers a next state (95_what_each_step_holds.md; that a command whose row's condition fails changes nothing
is log entry 3). -/
theorem exec_completes (c : Instr) (s : State) : ∃ t, exec c s = .next t := by
  cases c <;> exact ⟨_, rfl⟩

theorem step_cons (c : Instr) (rest : List Instr) (s : State) :
    step { s with pending := c :: rest } = exec c { s with pending := rest } := rfl

end Sys2Proof.Machine

/-- Settles O1: the first part is `step` on a queue that is not empty, and each arm of `exec` gives a next state. -/
theorem stepRunsTheFrontCommand : Obligations.StepRunsTheFrontCommand :=
  ⟨step_cons, exec_completes⟩
end

section
open Sys2Proof Sys2Proof.Machine

/-! ## Fault records -/

namespace Sys2Proof.Machine

/-! ### What recording a fault leaves unchanged -/

section
variable {s : State} {h : Half} {f : Found} {c : FClass}

theorem State.raiseInt_frame (s : State) (th : ThreadRef) (n : Nat) :
    ∃ tiles cc, s.raiseInt th n = { s with tiles := tiles, cc := cc } := by
  cases th <;> exact ⟨_, _, rfl⟩

theorem State.notifyHub_frame (s : State) (h : Half) : ∃ tiles cc, s.notifyHub h = { s with tiles := tiles, cc := cc } := by
  dsimp only [State.notifyHub]
  split
  · exact s.raiseInt_frame _ _
  · exact ⟨_, _, rfl⟩

theorem State.notify_frame (s : State) (u : UnitId) (code : Nat) (c : FClass) :
    ∃ tiles cc, s.notify u code c = { s with tiles := tiles, cc := cc } := by
  dsimp only [State.notify]
  split
  · exact ⟨_, _, rfl⟩
  · split
    · exact s.notifyHub_frame _
    · split
      · exact s.notifyHub_frame 0
      · exact s.notifyHub_frame 1

theorem State.notify_csr (s : State) (u : UnitId) (code : Nat) (c : FClass) : (s.notify u code c).csr = s.csr := by
  obtain ⟨tiles, cc, e⟩ := s.notify_frame u code c
  rw [e]

theorem State.notify_units (s : State) (u : UnitId) (code : Nat) (c : FClass) : (s.notify u code c).units = s.units := by
  obtain ⟨tiles, cc, e⟩ := s.notify_frame u code c
  rw [e]

theorem State.notify_hubs (s : State) (u : UnitId) (code : Nat) (c : FClass) : (s.notify u code c).hubs = s.hubs := by
  obtain ⟨tiles, cc, e⟩ := s.notify_frame u code c
  rw [e]

/-- A counter that counts where a condition holds. -/
def State.bumpIf (s : State) (p : Bool) (b : Blk) (off : Nat) : State := if p then s.bump b off else s

theorem State.onlyCsr_bumpIf (s : State) (p : Bool) (b : Blk) (off : Nat) : s.OnlyCsr (s.bumpIf p b off) := by
  cases p
  · exact .refl s
  · exact s.onlyCsr_setReg _ _ _

theorem State.bumpIf_wf (hw : Tbl.wf s.csr = true) (p : Bool) (b : Blk) (off : Nat) : Tbl.wf (s.bumpIf p b off).csr = true := by
  cases p
  · exact hw
  · exact State.bump_wf s b off hw

theorem State.reg_bumpIf_ne (hw : Tbl.wf s.csr = true) (p : Bool) {b d : Blk} {off o : Nat} (hne : d.base + o ≠ b.base + off) :
    (s.bumpIf p b off).reg d o = s.reg d o := by
  cases p
  · rfl
  · exact State.reg_setReg_ne s b d off o _ hw hne

/-- What a hub holds once it has recorded a fault (R549, R550, R555, R556). -/
def HubState.recorded (x : HubState) (s : State) (f : Found) (c : FClass) : HubState :=
  { x with
    slots := tput x.slots (slotOf f.unit) (recordOf s f c (tget? x.slots (slotOf f.unit)))
    events := if 256 ≤ x.events.length then x.events
      else x.events ++ [{ slot := slotOf f.unit, merge := x.openAt (slotOf f.unit), detail := f.detail
                          entry := recordOf s f c (tget? x.slots (slotOf f.unit))
                          dtsHigh := BitVec.ofNat 16 ((s.dtsOf f.unit).toNat >>> 48) }]
    details := if hasDetail (unitKind f.unit) f.code && !decide (256 ≤ x.details.length) then
        x.details ++ [{ id := x.detailNext, slot := slotOf f.unit, code := BitVec.ofNat 8 f.code, detail := f.detail }]
      else x.details
    detailNext := x.detailNext + 1 }

theorem State.hubRecord_eq : s.hubRecord h f c =
    (((s.updHub h fun x => x.recorded s f c).bumpIf ((s.hubs.get h).openAt (slotOf f.unit)) (bHub h) R.hub_MERGES).bumpIf
      (decide (256 ≤ (s.hubs.get h).events.length)) (bHub h) R.hub_LOG_LOST).bumpIf
      (hasDetail (unitKind f.unit) f.code && decide (256 ≤ (s.hubs.get h).details.length)) (bHub h) R.hub_DETAIL_LOST := by
  have hhub : s.updHub h (fun x => x.recorded s f c) = s.updHub h fun x => { x with
      slots := tput x.slots (slotOf f.unit) (recordOf s f c (tget? (s.hubs.get h).slots (slotOf f.unit)))
      events := if decide (256 ≤ (s.hubs.get h).events.length) then x.events
        else x.events ++ [{ slot := slotOf f.unit, merge := (s.hubs.get h).openAt (slotOf f.unit), detail := f.detail
                            entry := recordOf s f c (tget? (s.hubs.get h).slots (slotOf f.unit))
                            dtsHigh := BitVec.ofNat 16 ((s.dtsOf f.unit).toNat >>> 48) }]
      details := if hasDetail (unitKind f.unit) f.code && !decide (256 ≤ (s.hubs.get h).details.length) then
          x.details ++ [{ id := x.detailNext, slot := slotOf f.unit, code := BitVec.ofNat 8 f.code, detail := f.detail }]
        else x.details
      detailNext := x.detailNext + 1 } := by
    unfold State.updHub Pair.upd Pair.get HubState.recorded
    by_cases h0 : h = 0 <;> simp [h0]
  rw [hhub]
  rfl

/-- Recording a fault at a hub leaves everything but the hub and its counters. -/
theorem State.hubRecord_frame (s : State) (h : Half) (f : Found) (c : FClass) :
    ∃ csr, s.hubRecord h f c = { s with csr := csr, hubs := s.hubs.upd h fun x => x.recorded s f c } := by
  rw [State.hubRecord_eq]
  obtain ⟨csr, hcsr⟩ := ((State.onlyCsr_bumpIf _ _ _ _).trans (State.onlyCsr_bumpIf _ _ _ _)).trans (State.onlyCsr_bumpIf _ _ _ _)
  exact ⟨csr, hcsr⟩

theorem State.hubs_hubRecord : (s.hubRecord h f c).hubs = s.hubs.upd h fun x => x.recorded s f c := by
  obtain ⟨csr, e⟩ := s.hubRecord_frame h f c
  rw [e]

/-- A record that merges counts MERGES (R550). -/
theorem State.merges_hubRecord (hw : Tbl.wf s.csr = true) (hm : (s.hubs.get h).openAt (slotOf f.unit) = true) :
    (s.hubRecord h f c).reg (bHub h) R.hub_MERGES = s.reg (bHub h) R.hub_MERGES + 1 := by
  rw [State.hubRecord_eq, hm, State.reg_bumpIf_ne (State.bumpIf_wf (State.bumpIf_wf (by exact hw) _ _ _) _ _ _) _ (by simp),
    State.reg_bumpIf_ne (State.bumpIf_wf (by exact hw) _ _ _) _ (by simp)]
  exact State.reg_bump_same _ _ _ hw

theorem bHub_base_ne {g : Half} (hg : g ≠ h) {o o' : Nat} (ho : o < 0x10000) (ho' : o' < 0x10000) : (bHub g).base + o ≠ (bHub h).base + o' := by
  have hv : g.val ≠ h.val := fun e => hg (Fin.ext e)
  simp only [bHub, ownBlk, unitBase, halfBase]
  omega

/-- The counter of the other hub stays. -/
theorem State.merges_hubRecord_ne (hw : Tbl.wf s.csr = true) {g : Half} (hg : g ≠ h) :
    (s.hubRecord h f c).reg (bHub g) R.hub_MERGES = s.reg (bHub g) R.hub_MERGES := by
  have hne (o : Nat) (ho : o < 0x10000) : (bHub g).base + R.hub_MERGES ≠ (bHub h).base + o := bHub_base_ne hg (by decide) ho
  rw [State.hubRecord_eq, State.reg_bumpIf_ne (State.bumpIf_wf (State.bumpIf_wf (by exact hw) _ _ _) _ _ _) _ (hne _ (by decide)),
    State.reg_bumpIf_ne (State.bumpIf_wf (by exact hw) _ _ _) _ (hne _ (by decide)), State.reg_bumpIf_ne (by exact hw) _ (hne _ (by decide))]
  rfl

theorem State.hubRecord_wf (hw : Tbl.wf s.csr = true) : Tbl.wf (s.hubRecord h f c).csr = true := by
  rw [State.hubRecord_eq]
  exact State.bumpIf_wf (State.bumpIf_wf (State.bumpIf_wf (by exact hw) _ _ _) _ _ _) _ _ _

end

/-! ### The hubs of a unit (R548) -/

section
variable {s : State} {h : Half} {f : Found} {c : FClass}

/-- The hubs of a list record a fault, one after the other. -/
def State.hubsRecord (s : State) (hs : List Half) (f : Found) (c : FClass) : State := hs.foldl (fun s h => s.hubRecord h f c) s

theorem State.hubsRecord_frame (s : State) (hs : List Half) (f : Found) (c : FClass) :
    ∃ csr hubs, s.hubsRecord hs f c = { s with csr := csr, hubs := hubs } := by
  induction hs generalizing s with
  | nil => exact ⟨_, _, rfl⟩
  | cons g gs ih =>
    obtain ⟨r, e⟩ := s.hubRecord_frame g f c
    obtain ⟨r', hubs, e'⟩ := ih (s.hubRecord g f c)
    exact ⟨r', hubs, e'.trans (by rw [e])⟩

theorem State.units_hubsRecord {hs : List Half} : (s.hubsRecord hs f c).units = s.units := by
  obtain ⟨csr, hubs, e⟩ := s.hubsRecord_frame hs f c
  rw [e]

theorem State.hub_hubsRecord_of_not_mem {hs : List Half} (hh : h ∉ hs) : (s.hubsRecord hs f c).hubs.get h = s.hubs.get h := by
  induction hs generalizing s with
  | nil => rfl
  | cons g gs ih =>
    obtain ⟨hg, hgs⟩ := not_or.mp (mt List.mem_cons.mpr hh)
    exact (ih hgs).trans (by rw [State.hubs_hubRecord, pair_get_upd_ne _ _ _ _ hg])

theorem HubState.recorded_hubRecord (x : HubState) (s : State) (g : Half) (f : Found) (c : FClass) :
    x.recorded (s.hubRecord g f c) f c = x.recorded s f c := by
  obtain ⟨r, e⟩ := s.hubRecord_frame g f c
  rw [e]
  rfl

/-- Each hub of the list holds what it would hold if it were the only one. -/
theorem State.hub_hubsRecord {hs : List Half} (hn : hs.Nodup) (hh : h ∈ hs) :
    (s.hubsRecord hs f c).hubs.get h = (s.hubs.get h).recorded s f c := by
  induction hs generalizing s with
  | nil => simp at hh
  | cons g gs ih =>
    obtain ⟨hg, hgs⟩ := List.nodup_cons.mp hn
    by_cases e : h = g
    · subst e
      exact (State.hub_hubsRecord_of_not_mem hg).trans (by rw [State.hubs_hubRecord, pair_get_upd_same])
    · have hm : h ∈ gs := (List.mem_cons.mp hh).resolve_left e
      exact (ih hgs hm).trans (by rw [HubState.recorded_hubRecord, State.hubs_hubRecord, pair_get_upd_ne _ _ _ _ e])

theorem State.merges_hubsRecord {hs : List Half} (hw : Tbl.wf s.csr = true) (hn : hs.Nodup) (hh : h ∈ hs)
    (hm : (s.hubs.get h).openAt (slotOf f.unit) = true) :
    (s.hubsRecord hs f c).reg (bHub h) R.hub_MERGES = s.reg (bHub h) R.hub_MERGES + 1 := by
  have hrest (gs : List Half) (hgs : h ∉ gs) (t : State) (ht : Tbl.wf t.csr = true) :
      (t.hubsRecord gs f c).reg (bHub h) R.hub_MERGES = t.reg (bHub h) R.hub_MERGES := by
    induction gs generalizing t with
    | nil => rfl
    | cons g gs ih =>
      obtain ⟨hg, hgs⟩ := not_or.mp (mt List.mem_cons.mpr hgs)
      exact (ih hgs _ (State.hubRecord_wf ht)).trans (State.merges_hubRecord_ne ht hg)
  induction hs generalizing s with
  | nil => simp at hh
  | cons g gs ih =>
    obtain ⟨hg, hgs⟩ := List.nodup_cons.mp hn
    by_cases e : h = g
    · subst e
      exact (hrest gs hg _ (State.hubRecord_wf hw)).trans (State.merges_hubRecord hw hm)
    · have hm' : h ∈ gs := (List.mem_cons.mp hh).resolve_left e
      refine (ih (State.hubRecord_wf hw) hgs hm' ?_).trans (by rw [State.merges_hubRecord_ne hw e])
      rw [State.hubs_hubRecord, pair_get_upd_ne _ _ _ _ e, hm]

theorem hubsOf_nodup (u : UnitId) : (hubsOf u).Nodup := by
  unfold hubsOf
  split
  · exact List.nodup_singleton _
  · decide

theorem firstHub_mem (u : UnitId) : (if hubsOf u = [1] then (1 : Half) else 0) ∈ hubsOf u := by
  unfold hubsOf
  split
  · next g _ => fin_cases g <;> decide
  · decide

theorem State.openRecord_of_closed (hc : codeClass (unitKind f.unit) f.code = some c)
    (hcl : ∀ h ∈ hubsOf f.unit, (s.hubs.get h).openAt (slotOf f.unit) = false) :
    ∃ cls, s.openRecord f = ((s.hubsRecord (hubsOf f.unit) f c).countFault f.unit).notify f.unit f.code cls := by
  have hfirst := hcl _ (firstHub_mem f.unit)
  unfold State.openRecord
  rw [hc]
  dsimp only
  rw [hfirst]
  exact ⟨_, rfl⟩

theorem State.openRecord_of_open (hc : codeClass (unitKind f.unit) f.code = some c)
    (hop : ∀ h ∈ hubsOf f.unit, (s.hubs.get h).openAt (slotOf f.unit) = true) :
    ∃ cls, s.openRecord f = (s.hubsRecord (hubsOf f.unit) f c).notify f.unit f.code cls := by
  have hfirst := hop _ (firstHub_mem f.unit)
  unfold State.openRecord
  rw [hc]
  dsimp only
  rw [hfirst]
  exact ⟨_, rfl⟩

/-- A unit and its ancestors lie at different addresses (R31, R34). -/
theorem ancestors_bases_nodup (u : UnitId) : ((u :: ancestors u).map unitBase).Nodup := by
  cases u <;> simp [ancestors, ancestorsTo, unitParent, unitBase, tileBase, halfBase] <;> omega

/-- A change made once at each unit of a list. -/
theorem State.unit_foldl_updUnit {us : List UnitId} (hn : (us.map unitBase).Nodup) (g : UnitDyn → UnitDyn) (hw : Tbl.wf s.units = true)
    {v : UnitId} (hv : v ∈ us) : (us.foldl (fun s u => s.updUnit u g) s).unit v = g (s.unit v) := by
  have hrest (us : List UnitId) (hus : unitBase v ∉ us.map unitBase) (t : State) (ht : Tbl.wf t.units = true) :
      (us.foldl (fun s u => s.updUnit u g) t).unit v = t.unit v := by
    induction us generalizing t with
    | nil => rfl
    | cons u us ih =>
      rw [List.map_cons, List.mem_cons, not_or] at hus
      exact (ih hus.2 _ (tmod_wf _ _ _ _ ht)).trans (State.unit_updUnit_ne _ _ _ _ ht hus.1)
  induction us generalizing s with
  | nil => simp at hv
  | cons u us ih =>
    rw [List.map_cons] at hn
    obtain ⟨hu, hus⟩ := List.nodup_cons.mp hn
    rcases List.mem_cons.mp hv with rfl | hv
    · exact (hrest us hu _ (tmod_wf _ _ _ _ hw)).trans (State.unit_updUnit_same _ _ _ hw)
    · have hne : unitBase v ≠ unitBase u := fun e => hu (e ▸ List.mem_map_of_mem hv)
      exact (ih hus (tmod_wf _ _ _ _ hw) hv).trans (congrArg g (State.unit_updUnit_ne _ _ _ _ hw hne))

/-- COUNT rises at the unit and at every ancestor (R48, R549). -/
theorem State.faultCount_countFault (hw : Tbl.wf s.units = true) {u v : UnitId} (hv : v ∈ u :: ancestors u) :
    ((s.countFault u).unit v).faultCount = min ((s.unit v).faultCount + 1) 0xFFFFFFFF := by
  rw [State.countFault, State.unit_foldl_updUnit (ancestors_bases_nodup u) _ hw hv]
  exact satTo_eq_min _ _

theorem State.hubs_countFault (s : State) (u : UnitId) : (s.countFault u).hubs = s.hubs := by
  unfold State.countFault
  generalize u :: ancestors u = us
  induction us generalizing s with
  | nil => rfl
  | cons v vs ih => exact (ih _).trans rfl

theorem HubState.tget?_recorded (x : HubState) :
    tget? (x.recorded s f c).slots (slotOf f.unit) = some (recordOf s f c (tget? x.slots (slotOf f.unit))) :=
  tget?_tput_same _ _ _

/-- The record of a fault in a slot that holds no open record (R549). -/
def Found.newRecord (f : Found) (s : State) (c : FClass) : FaultRec :=
  { stamp := BitVec.ofNat 48 (s.dtsOf f.unit).toNat, code := BitVec.ofNat 8 f.code, cls := c, isOpen := true, unit := f.unit,
    phys := BitVec.ofNat 5 (s.physOf f.unit), injected := f.injected, merged := 0, sources := BitVec.ofNat 32 (2 ^ f.code) }

theorem recordOf_of_closed {x : HubState} (hx : x.openAt (slotOf f.unit) = false) :
    recordOf s f c (tget? x.slots (slotOf f.unit)) = f.newRecord s c := by
  unfold HubState.openAt at hx
  unfold recordOf Found.newRecord
  rw [Nat.one_shiftLeft]
  cases hr : tget? x.slots (slotOf f.unit) with
  | none => rfl
  | some r =>
    rw [hr] at hx
    exact if_neg (by simp [hx])

theorem recordOf_of_open {o : FaultRec} (ho : o.isOpen = true) :
    recordOf s f c (some o) = { o with
      merged := min (o.merged + 1) 255, sources := o.sources ||| BitVec.ofNat 32 (2 ^ f.code),
      cls := if o.cls.code < c.code then c else o.cls, injected := o.injected && f.injected } := by
  rw [← satTo_eq_min, ← Nat.one_shiftLeft]
  exact if_pos ho

end

/-! ### FAULT_REPORT (R549–R551) -/

section
variable {s : State} {u : UnitId} {code : Nat} {d : DWord} {c : FClass}

theorem State.found_of_unmarked (hi : s.invCode u = none) (code : Nat) (d : DWord) : s.found u code d = (s, ⟨u, code, false, d⟩) :=
  if_neg fun hc => by simp [hi] at hc

theorem State.codeOf_of_ne_buffer (hb : ∀ h, u ≠ .buffer h) (code : Nat) (d : DWord) : s.codeOf u code d = code := by
  cases u with
  | buffer h => exact absurd rfl (hb h)
  | _ => rfl

theorem State.fault_of_unmarked (hb : ∀ h, u ≠ .buffer h) (hi : s.invCode u = none) (hc : codeClass (unitKind u) code = some c) :
    s.fault u code d =
      (s.openRecord ⟨u, code, false, s.detailOf u code d⟩).react ⟨u, code, false, s.detailOf u code d⟩ := by
  unfold State.fault
  rw [State.codeOf_of_ne_buffer hb]
  dsimp only
  rw [State.found_of_unmarked hi]
  dsimp only [State.faultAt]
  rw [hc]

theorem doFaultReport_of_up (hp : unitPresent u = true) (hpor : s.pv.porLow = false) (hsys : s.pv.sysLow = false) :
    doFaultReport u code d s = s.fault u code d :=
  if_pos ⟨hp, hpor, hsys⟩

end

end Sys2Proof.Machine

/-- Settles O24: FAULT_REPORT is `State.fault_of_unmarked`; a record that opens is `Found.newRecord` in each of the unit's hubs
(`State.hub_hubsRecord`), and one that merges is `recordOf_of_open`. -/
theorem faultsRecorded : Obligations.FaultsRecorded := by
  refine ⟨fun s t u code d c ha hp hpor hsys hb hi hc ht hw => ?_, fun s f c hc hu hcl => ?_, fun s f c hc hw hop => ?_⟩
  · subst ht
    exact next_orWait ha ((doFaultReport_of_up hp hpor hsys).trans (State.fault_of_unmarked hb hi hc)) hw
  · obtain ⟨cls, e⟩ := State.openRecord_of_closed hc hcl
    have hhubs : (s.openRecord f).hubs = (s.hubsRecord (hubsOf f.unit) f c).hubs := by rw [e, State.notify_hubs, State.hubs_countFault]
    have hunits : (s.openRecord f).units = ((s.hubsRecord (hubsOf f.unit) f c).countFault f.unit).units := by rw [e, State.notify_units]
    have hkept : (s.hubsRecord (hubsOf f.unit) f c).units = s.units := State.units_hubsRecord
    refine ⟨fun h hh => ⟨f.newRecord s c, ?_, rfl, rfl, rfl, rfl, rfl, rfl, rfl, rfl, rfl⟩, fun v hv => ?_, fun h hh => ?_⟩
    · rw [hhubs, State.hub_hubsRecord (hubsOf_nodup _) hh, HubState.tget?_recorded, recordOf_of_closed (hcl h hh)]
    · have hcount := State.faultCount_countFault (hkept ▸ hu) hv
      unfold State.unit at hcount ⊢
      rw [hunits, hcount, hkept]
    · rw [hhubs, State.hub_hubsRecord_of_not_mem hh]
  · obtain ⟨cls, e⟩ := State.openRecord_of_open hc hop
    have hhubs : (s.openRecord f).hubs = (s.hubsRecord (hubsOf f.unit) f c).hubs := by rw [e, State.notify_hubs]
    have hcsr : (s.openRecord f).csr = (s.hubsRecord (hubsOf f.unit) f c).csr := by rw [e, State.notify_csr]
    refine ⟨fun h hh o ho => ⟨?_, ?_⟩, ?_⟩
    · have hopen := hop h hh
      rw [HubState.openAt, ho] at hopen
      rw [hhubs, State.hub_hubsRecord (hubsOf_nodup _) hh, HubState.tget?_recorded, ho, recordOf_of_open hopen]
    · have hmerges := State.merges_hubsRecord hw (hubsOf_nodup _) hh (hop h hh) (c := c)
      unfold State.reg at hmerges ⊢
      rw [hcsr, hmerges]
    · rw [e, State.notify_units, State.units_hubsRecord]
end

section
open Sys2Proof Sys2Proof.Machine

/-! ## The words of a record, WORST and acknowledgement -/

namespace Sys2Proof.Machine

/-! ### REC_LO and REC_HI (R546) -/

/-- The tile in a unit's records. -/
def recTile : UnitId → Nat
  | .tile _ t => t.val
  | .cluster _ t _ => t.val
  | .core _ t _ _ => t.val
  | .spare _ t => t.val
  | _ => 0

/-- The cluster in a unit's records. -/
def recCluster : UnitId → Nat
  | .cluster _ _ c => c.val
  | .core _ _ c _ => c.val
  | _ => 0

/-- The core in a unit's records; SP is core 4. -/
def recCore : UnitId → Nat
  | .core _ _ _ k => k.val
  | .spare _ _ => 4
  | _ => 0

/-- The half in a unit's records. -/
def recHalf (u : UnitId) : Nat := ((unitHalf u).map Fin.val).getD 0

/-- The index in a unit's records: none for the units below a half's tiles, and the member number for the DEVICE. -/
def recIndex (m : Nat) : UnitId → Nat
  | .tile _ _ => 0
  | .cluster _ _ _ => 0
  | .core _ _ _ _ => 0
  | .spare _ _ => 0
  | .device => m
  | u => unitIndex u

/-- The physical core in a record: that of a core's or a spare's. -/
def FaultRec.core (r : FaultRec) : Nat := if unitKind r.unit = 0x05 then r.phys.toNat else 0

theorem FaultRec.lo_eq (r : FaultRec) (m : Nat) : r.lo m =
    BitVec.ofNat 64 (recHalf r.unit <<< 63 ||| recTile r.unit <<< 59 ||| recCluster r.unit <<< 57 ||| recCore r.unit <<< 54 |||
      r.core <<< 49 ||| (recIndex m r.unit % 128) <<< 42 ||| b2n r.injected <<< 40 ||| r.merged <<< 32 ||| r.sources.toNat) := by
  obtain ⟨stamp, code, cls, isOpen, unit, phys, injected, merged, sources⟩ := r
  cases unit <;> rfl

theorem recTile_lt (u : UnitId) : recTile u < 16 := by cases u <;> simp [recTile]

theorem recCluster_lt (u : UnitId) : recCluster u < 4 := by cases u <;> simp [recCluster]

theorem recCore_lt (u : UnitId) : recCore u < 8 := by
  cases u with
  | core h t c k => exact k.isLt.trans (by decide)
  | _ => simp [recCore]

theorem recHalf_lt (u : UnitId) : recHalf u < 2 := by
  unfold recHalf
  cases unitHalf u with
  | none => decide
  | some h => exact h.isLt

theorem recIndex_lt {m : Nat} (hm : m < 16) (u : UnitId) : recIndex m u < 128 := by
  cases u <;> simp [recIndex, unitIndex] <;> omega

theorem FaultRec.core_lt (r : FaultRec) : r.core < 32 := by
  unfold FaultRec.core
  split
  · exact r.phys.isLt
  · decide

theorem b2n_lt_two (b : Bool) : b2n b < 2 := by cases b <;> decide

/-- Two numbers that share no bit: the lower one below the place of the upper one. -/
theorem or_shiftLeft_eq_add {i : Nat} (a : Nat) {b : Nat} (hb : b < 2 ^ i) : a <<< i ||| b = a * 2 ^ i + b := by
  rw [← Nat.shiftLeft_add_eq_or_of_lt hb, Nat.shiftLeft_eq]

/-- REC_LO as a number: each field at its place. -/
theorem FaultRec.lo_toNat {r : FaultRec} {m : Nat} (hr : r.merged ≤ 255) (hm : m < 16) :
    (r.lo m).toNat = recHalf r.unit * 2 ^ 63 + recTile r.unit * 2 ^ 59 + recCluster r.unit * 2 ^ 57 + recCore r.unit * 2 ^ 54 +
      r.core * 2 ^ 49 + recIndex m r.unit * 2 ^ 42 + b2n r.injected * 2 ^ 40 + r.merged * 2 ^ 32 + r.sources.toNat := by
  have hhalf := recHalf_lt r.unit
  have htile := recTile_lt r.unit
  have hcluster := recCluster_lt r.unit
  have hcore := recCore_lt r.unit
  have hphys := r.core_lt
  have hindex := recIndex_lt hm r.unit
  have hinj := b2n_lt_two r.injected
  have hsrc := r.sources.isLt
  rw [FaultRec.lo_eq, BitVec.toNat_ofNat, Nat.mod_eq_of_lt hindex]
  simp only [Nat.or_assoc]
  rw [or_shiftLeft_eq_add r.merged hsrc, or_shiftLeft_eq_add (b2n r.injected) (by omega), or_shiftLeft_eq_add (recIndex m r.unit) (by omega),
    or_shiftLeft_eq_add r.core (by omega), or_shiftLeft_eq_add (recCore r.unit) (by omega), or_shiftLeft_eq_add (recCluster r.unit) (by omega),
    or_shiftLeft_eq_add (recTile r.unit) (by omega), or_shiftLeft_eq_add (recHalf r.unit) (by omega)]
  omega

theorem FClass.code_lt (c : FClass) : c.code < 4 := by cases c <;> decide

theorem unitKind_lt (u : UnitId) : unitKind u < 32 := by cases u <;> simp [unitKind]

/-- REC_HI as a number. -/
theorem FaultRec.hi_toNat (r : FaultRec) :
    r.hi.toNat = r.stamp.toNat * 2 ^ 16 + r.code.toNat * 2 ^ 8 + r.cls.code * 2 ^ 6 + b2n r.isOpen * 2 ^ 5 + unitKind r.unit := by
  have hstamp := r.stamp.isLt
  have hcode := r.code.isLt
  have hcls := r.cls.code_lt
  have hopen := b2n_lt_two r.isOpen
  have hkind := unitKind_lt r.unit
  rw [FaultRec.hi, BitVec.toNat_ofNat]
  simp only [Nat.or_assoc]
  rw [or_shiftLeft_eq_add (b2n r.isOpen) hkind, or_shiftLeft_eq_add r.cls.code (by omega), or_shiftLeft_eq_add r.code.toNat (by omega),
    or_shiftLeft_eq_add r.stamp.toNat (by omega)]
  omega

theorem bits_eq_div_mod (v lsb len : Nat) : bits v lsb len = v / 2 ^ lsb % 2 ^ len := by
  rw [bits, Nat.shiftRight_eq_div_pow]

theorem testBit_eq_of_div {v i : Nat} {b : Bool} (h : v / 2 ^ i % 2 = b2n b) : v.testBit i = b := by
  rw [Nat.testBit_eq_decide_div_mod_eq, h]
  cases b <;> rfl

/-- A part of the index field is read with the bits beside it where these are zero. -/
theorem FaultRec.lo_fields {r : FaultRec} {m lo : Nat} (hr : r.merged ≤ 255) (hm : m < 16) (hlo : lo = (r.lo m).toNat) :
    bits lo 0 32 = r.sources.toNat ∧ bits lo 32 8 = r.merged ∧ lo.testBit 40 = r.injected ∧ lo.testBit 41 = false ∧
      bits lo 42 7 = recIndex m r.unit ∧ bits lo 49 5 = r.core ∧ bits lo 54 3 = recCore r.unit ∧ bits lo 57 2 = recCluster r.unit ∧
      bits lo 59 4 = recTile r.unit ∧ bits lo 63 1 = recHalf r.unit := by
  rw [FaultRec.lo_toNat hr hm] at hlo
  have hhalf := recHalf_lt r.unit
  have htile := recTile_lt r.unit
  have hcluster := recCluster_lt r.unit
  have hcore := recCore_lt r.unit
  have hphys := r.core_lt
  have hindex := recIndex_lt hm r.unit
  have hinj := b2n_lt_two r.injected
  have hsrc := r.sources.isLt
  simp only [bits_eq_div_mod]
  refine ⟨by omega, by omega, testBit_eq_of_div (by omega), testBit_eq_of_div (b := false) ?_, by omega, by omega, by omega, by omega, by omega,
    by omega⟩
  change lo / 2 ^ 41 % 2 = 0
  omega

theorem FaultRec.hi_fields {r : FaultRec} {hi : Nat} (hhi : hi = r.hi.toNat) :
    bits hi 16 48 = r.stamp.toNat ∧ bits hi 8 8 = r.code.toNat ∧ bits hi 6 2 = r.cls.code ∧ hi.testBit 5 = r.isOpen ∧
      bits hi 0 5 = unitKind r.unit := by
  rw [FaultRec.hi_toNat] at hhi
  have hstamp := r.stamp.isLt
  have hcode := r.code.isLt
  have hcls := r.cls.code_lt
  have hopen := b2n_lt_two r.isOpen
  have hkind := unitKind_lt r.unit
  simp only [bits_eq_div_mod]
  exact ⟨by omega, by omega, by omega, testBit_eq_of_div (by omega), by omega⟩

/-- A field reads zero where both of its parts do. -/
theorem bits_append_eq_zero {v lsb n k : Nat} (hlo : bits v lsb n = 0) (hhi : bits v (lsb + n) k = 0) : bits v lsb (n + k) = 0 := by
  rw [bits_eq_div_mod] at hlo hhi ⊢
  rw [pow_add, ← Nat.div_div_eq_div_mul] at hhi
  rw [pow_add, Nat.mod_mul, hlo, hhi, Nat.mul_zero]

theorem recHalf_eq (u : UnitId) : recHalf u = (match unitHalf u with | some h => h.val | none => 0) := by
  unfold recHalf
  cases unitHalf u <;> rfl

/-- What a record holds of its unit, by the unit's kind. -/
theorem FaultRec.place_fields {r : FaultRec} {m lo : Nat} (hindex : bits lo 42 7 = recIndex m r.unit) (hphys : bits lo 49 5 = r.core)
    (hcore : bits lo 54 3 = recCore r.unit) (hcluster : bits lo 57 2 = recCluster r.unit) (htile : bits lo 59 4 = recTile r.unit) :
    match r.unit with
      | .core _ t c k => bits lo 59 4 = t.val ∧ bits lo 57 2 = c.val ∧ bits lo 54 3 = k.val ∧ bits lo 49 5 = r.phys.toNat ∧ bits lo 42 7 = 0
      | .spare _ t => bits lo 59 4 = t.val ∧ bits lo 57 2 = 0 ∧ bits lo 54 3 = 4 ∧ bits lo 49 5 = r.phys.toNat ∧ bits lo 42 7 = 0
      | .cluster _ t c => bits lo 59 4 = t.val ∧ bits lo 57 2 = c.val ∧ bits lo 42 15 = 0
      | .tile _ t => bits lo 59 4 = t.val ∧ bits lo 42 17 = 0
      | u => bits lo 49 14 = 0 ∧ bits lo 42 7 = if u = .device then m else unitIndex u := by
  have hnone (h0 : r.core = 0) (h1 : recCore r.unit = 0) (h2 : recCluster r.unit = 0) (h3 : recTile r.unit = 0) : bits lo 49 14 = 0 :=
    bits_append_eq_zero (k := 4) (bits_append_eq_zero (k := 2) (bits_append_eq_zero (k := 3) (hphys.trans h0) (hcore.trans h1))
      (hcluster.trans h2)) (htile.trans h3)
  obtain ⟨stamp, code, cls, isOpen, unit, phys, injected, merged, sources⟩ := r
  cases unit with
  | core h t c k => exact ⟨htile, hcluster, hcore, hphys, hindex⟩
  | spare h t => exact ⟨htile, hcluster, hcore, hphys, hindex⟩
  | cluster h t c => exact ⟨htile, hcluster, bits_append_eq_zero (n := 12) (k := 3) (bits_append_eq_zero (k := 5) hindex hphys) hcore⟩
  | tile h t =>
    exact ⟨htile, bits_append_eq_zero (n := 15) (k := 2) (bits_append_eq_zero (n := 12) (k := 3) (bits_append_eq_zero (k := 5) hindex hphys) hcore)
      hcluster⟩
  | device => exact ⟨hnone rfl rfl rfl rfl, hindex.trans (if_pos rfl).symm⟩
  | _ => exact ⟨hnone rfl rfl rfl rfl, hindex.trans (if_neg nofun).symm⟩

/-! ### WORST (R553) -/

/-- The larger of a value and that of an element that counts. -/
def worstStep {α : Type} (p : α → Bool) (v : α → Nat) (m : Nat) (e : α) : Nat := if p e then (if m < v e then v e else m) else m

theorem worstStep_of_not {α : Type} {p : α → Bool} {e : α} (hp : ¬ p e = true) (v : α → Nat) (m : Nat) : worstStep p v m e = m := if_neg hp

theorem worstStep_of_counted {α : Type} {p : α → Bool} {e : α} (hp : p e = true) (v : α → Nat) (m : Nat) :
    worstStep p v m e = max m (v e) := by
  rw [worstStep, if_pos hp]
  split <;> omega

theorem le_foldl_worstStep {α : Type} (p : α → Bool) (v : α → Nat) (l : List α) (m : Nat) : m ≤ l.foldl (worstStep p v) m := by
  induction l generalizing m with
  | nil => exact le_rfl
  | cons x xs ih =>
    refine le_trans ?_ (ih _)
    by_cases hp : p x = true
    · exact worstStep_of_counted hp v m ▸ le_max_left _ _
    · exact (worstStep_of_not hp v m).ge

/-- No element that counts has a larger value. -/
theorem foldl_worstStep_ge {α : Type} {p : α → Bool} (v : α → Nat) {l : List α} (m : Nat) {e : α} (he : e ∈ l) (hp : p e = true) :
    v e ≤ l.foldl (worstStep p v) m := by
  induction l generalizing m with
  | nil => simp at he
  | cons x xs ih =>
    rcases List.mem_cons.mp he with rfl | he
    · exact (worstStep_of_counted hp v m ▸ le_max_right m (v e)).trans (le_foldl_worstStep p v xs _)
    · exact ih _ he

/-- The value is that at the start, or some element that counts has it. -/
theorem foldl_worstStep_attained {α : Type} (p : α → Bool) (v : α → Nat) (l : List α) (m : Nat) :
    l.foldl (worstStep p v) m = m ∨ ∃ e ∈ l, p e = true ∧ v e = l.foldl (worstStep p v) m := by
  induction l generalizing m with
  | nil => exact .inl rfl
  | cons x xs ih =>
    rcases ih (worstStep p v m x) with h | ⟨e, he, hp, hv⟩
    · rw [List.foldl_cons, h]
      by_cases hp : p x = true
      · rw [worstStep_of_counted hp]
        exact (max_choice m (v x)).imp_right fun hx => ⟨x, List.mem_cons_self, hp, hx.symm⟩
      · exact .inl (worstStep_of_not hp v m)
    · exact .inr ⟨e, List.mem_cons_of_mem _ he, hp, hv⟩

/-- The worst class that a hub holds open in the subtree of a unit. -/
def HubState.worst (x : HubState) (u : UnitId) : Nat :=
  x.slots.foldl (fun m e => if e.2.isOpen && within u e.2.unit then (if m < e.2.cls.code then e.2.cls.code else m) else m) 0

theorem State.worst_eq (s : State) (u : UnitId) : s.worst u = max ((s.hubs.get 0).worst u) ((s.hubs.get 1).worst u) := by
  unfold State.worst
  dsimp only
  unfold HubState.worst
  split <;> omega

theorem HubState.le_worst {x : HubState} {u : UnitId} {e : Nat × FaultRec} (he : e ∈ x.slots) (ho : e.2.isOpen = true)
    (hu : within u e.2.unit = true) : e.2.cls.code ≤ x.worst u :=
  foldl_worstStep_ge (p := fun e : Nat × FaultRec => e.2.isOpen && within u e.2.unit) (fun e => e.2.cls.code) 0 he (by simp [ho, hu])

theorem HubState.worst_attained (x : HubState) (u : UnitId) :
    x.worst u = 0 ∨ ∃ e ∈ x.slots, e.2.isOpen = true ∧ within u e.2.unit = true ∧ e.2.cls.code = x.worst u := by
  rcases foldl_worstStep_attained (fun e : Nat × FaultRec => e.2.isOpen && within u e.2.unit) (fun e => e.2.cls.code) x.slots 0 with h | ⟨e, he, hp, hv⟩
  · exact .inl h
  · obtain ⟨ho, hu⟩ := Bool.and_eq_true_iff.mp hp
    exact .inr ⟨e, he, ho, hu, hv⟩

theorem State.hub_worst_le (s : State) (h : Half) (u : UnitId) : (s.hubs.get h).worst u ≤ s.worst u := by
  rw [State.worst_eq]
  fin_cases h
  · exact le_max_left _ _
  · exact le_max_right _ _

theorem State.worst_attained (s : State) (u : UnitId) :
    s.worst u = 0 ∨ ∃ h, ∃ e ∈ (s.hubs.get h).slots, e.2.isOpen = true ∧ within u e.2.unit = true ∧ e.2.cls.code = s.worst u := by
  obtain ⟨h, hh⟩ : ∃ h : Half, s.worst u = (s.hubs.get h).worst u := by
    rcases max_choice ((s.hubs.get 0).worst u) ((s.hubs.get 1).worst u) with e | e
    · exact ⟨0, (s.worst_eq u).trans e⟩
    · exact ⟨1, (s.worst_eq u).trans e⟩
  rw [hh]
  exact (HubState.worst_attained _ u).imp_right fun he => ⟨h, he⟩

/-! ### Reads and acknowledgement (R552, R554, R556) -/

section
variable {s : State} {a : Agent} {h : Half}

theorem State.recRead_unused (hr : tget? (s.hubs.get h).slots (s.rfld (bHub h) R.hub_REC_SEL 0 9) = none) : s.recRead h = (0, 0) := by
  unfold State.recRead
  rw [hr]

theorem State.recRead_of_record {r : FaultRec} (hr : tget? (s.hubs.get h).slots (s.rfld (bHub h) R.hub_REC_SEL 0 9) = some r) :
    s.recRead h = (r.lo s.memberNo, r.hi) := by
  unfold State.recRead
  rw [hr]

/-- A hub with the record of a slot closed. -/
def HubState.close (x : HubState) (slot : Nat) : HubState :=
  match tget? x.slots slot with
  | some e => { x with slots := tput x.slots slot { e with isOpen := false } }
  | none => x

theorem State.recAck_of_closed {slot : Nat} (ho : (s.hubs.get h).openAt slot = false) (merged : Nat) : s.recAck a h slot merged = s := by
  unfold HubState.openAt at ho
  unfold State.recAck
  cases hr : tget? (s.hubs.get h).slots slot with
  | none => rfl
  | some r =>
    rw [hr] at ho
    exact if_pos (.inl (by simp [ho]))

section
variable {slot merged : Nat} {r : FaultRec}

theorem State.recAck_of_stale (hr : tget? (s.hubs.get h).slots slot = some r) (ho : r.isOpen = true) (ha : s.agentOk a r.unit = true)
    (hm : r.merged ≠ merged) : s.recAck a h slot merged = s.bump (bHub h) R.hub_ACK_STALE := by
  unfold State.recAck
  rw [hr]
  exact (if_neg (by simp [ho, ha])).trans (if_pos hm)

theorem State.recAck_of_current (hr : tget? (s.hubs.get h).slots slot = some r) (ho : r.isOpen = true) (ha : s.agentOk a r.unit = true) :
    s.recAck a h slot r.merged = (hubsOf r.unit).foldl (fun s g => s.updHub g fun x => x.close slot) s := by
  unfold State.recAck
  rw [hr]
  exact (if_neg (by simp [ho, ha])).trans (if_neg (by simp))

end

theorem State.foldl_updHub_frame (g : HubState → HubState) (hs : List Half) (s : State) :
    ∃ hubs, hs.foldl (fun s h => s.updHub h g) s = { s with hubs := hubs } := by
  induction hs generalizing s with
  | nil => exact ⟨_, rfl⟩
  | cons h hs ih =>
    obtain ⟨hubs, e⟩ := ih (s.updHub h g)
    exact ⟨hubs, e⟩

/-- An acknowledgement changes no unit and makes no reaction (R553). -/
theorem State.recAck_frame (s : State) (a : Agent) (h : Half) (slot merged : Nat) :
    ∃ hubs csr, s.recAck a h slot merged = { s with hubs := hubs, csr := csr } := by
  by_cases ho : (s.hubs.get h).openAt slot = true
  · unfold HubState.openAt at ho
    cases hr : tget? (s.hubs.get h).slots slot with
    | none => simp [hr] at ho
    | some r =>
      rw [hr] at ho
      by_cases ha : s.agentOk a r.unit = true
      · by_cases hm : r.merged = merged
        · subst hm
          obtain ⟨hubs, e⟩ := State.foldl_updHub_frame (fun x => x.close slot) (hubsOf r.unit) s
          exact ⟨hubs, s.csr, (State.recAck_of_current hr ho ha).trans e⟩
        · exact ⟨s.hubs, _, State.recAck_of_stale hr ho ha hm⟩
      · refine ⟨s.hubs, s.csr, ?_⟩
        unfold State.recAck
        rw [hr]
        exact if_pos (.inr ha)
  · exact ⟨s.hubs, s.csr, State.recAck_of_closed (by simpa using ho) merged⟩

theorem State.detailARead_of_queued {e : DetailEntry} {r : List DetailEntry} (hd : (s.hubs.get h).details = e :: r) :
    (s.detailARead a h).1 = s.updHub h fun x => { x with detailLatch := ((s.hubs.get h).detailLatch.filter fun e => e.1 ≠ a) ++ [(a, e)] } := by
  unfold State.detailARead
  dsimp only
  rw [hd]

theorem State.detailBRead_of_latched {b : Agent} {d : DetailEntry}
    (hd : ((s.hubs.get h).detailLatch.find? fun e => e.1 = a) = some (b, d)) :
    (s.detailBRead a h).1 = s.updHub h fun x =>
      { x with details := x.details.filter (fun e => e.id ≠ d.id), detailLatch := x.detailLatch.filter fun e => e.1 ≠ a } := by
  unfold State.detailBRead
  rw [hd]

/-- No entry is latched for an agent whose latches have gone. -/
theorem find?_filter_ne {β : Type} (a : Agent) (l : List (Agent × β)) : ((l.filter fun e => e.1 ≠ a).find? fun e => e.1 = a) = none := by
  simp

end

end Sys2Proof.Machine

/-- Settles O25: the words are sums of their fields (`FaultRec.lo_toNat`, `FaultRec.hi_toNat`), WORST is attained by an open record of the
subtree, and an acknowledgement writes the hubs and their counters alone. -/
theorem recordWords : Obligations.RecordWords := by
  refine ⟨fun r m lo hi hr hm hlo hhi => ?_, fun s h => ⟨State.recRead_unused, fun r => State.recRead_of_record⟩, fun s u => ⟨?_, s.worst_attained u⟩,
    fun s a h k m => ?_⟩
  · obtain ⟨hstamp, hcode, hcls, hopen, hkind⟩ := FaultRec.hi_fields hhi
    obtain ⟨hsrc, hmerged, hinj, hzero, hindex, hphys, hcore, hcluster, htile, hhalf⟩ := FaultRec.lo_fields hr hm hlo
    exact ⟨hstamp, hcode, hcls, hopen, hkind, hsrc, hmerged, hinj, hzero, hhalf.trans (recHalf_eq r.unit),
      FaultRec.place_fields hindex hphys hcore hcluster htile⟩
  · exact fun h e he ho hu => (HubState.le_worst he ho hu).trans (s.hub_worst_le h u)
  · obtain ⟨hubs, csr, e⟩ := s.recAck_frame a h k.val m.toNat
    by_cases hr : s.agentReach a (.hub h) = true
    · exact ⟨_, next_ite_of_reach hr e, rfl⟩
    · exact ⟨s, congrArg _ (if_neg hr), rfl⟩

/-- Settles O26: REC_ACK is `State.recAck_of_current`, `State.recAck_of_stale` or `State.recAck_of_closed`, and each read is its function's
lemma. -/
theorem recordsAcknowledged : Obligations.RecordsAcknowledged := by
  refine ⟨fun s a h k m r hreach hr ho ha hu => ⟨fun hm => ?_, fun hm => ?_⟩, fun s a h k m ho => ?_, fun s a h hreach => ?_,
    fun s a h e r hreach hd => ?_, fun s a h b d hreach hd => ?_⟩
  · refine ⟨_, next_ite_of_reach hreach (hm ▸ State.recAck_of_current hr ho ha), ?_⟩
    rw [hubsOf, hu]
    refine ⟨?_, rfl, pair_get_upd_other _ _ _⟩
    rw [List.foldl_cons, List.foldl_nil, State.updHub_hubs, pair_get_upd_same, HubState.close, hr]
    exact tget?_tput_same _ _ _
  · exact next_ite_of_reach hreach (State.recAck_of_stale hr ho ha hm)
  · exact next_ite_of_eq (State.recAck_of_closed ho m.toNat)
  · refine ⟨s.recLoRead a h, next_ite_of_reach hreach rfl, ?_, ?_, rfl⟩ <;> rw [State.recLoRead, State.updHub_hubs, pair_get_upd_same]
    exact List.mem_append_right _ (List.mem_singleton.mpr rfl)
  · refine ⟨_, next_ite_of_reach hreach (State.detailARead_of_queued hd), ?_, ?_, rfl⟩ <;>
      rw [State.updHub_hubs, pair_get_upd_same]
    · exact List.mem_append_right _ (List.mem_singleton.mpr rfl)
    · exact hd
  · refine ⟨_, next_ite_of_reach hreach (State.detailBRead_of_latched hd), ?_, ?_, rfl⟩ <;>
      rw [State.updHub_hubs, pair_get_upd_same]
    exact find?_filter_ne a _
end

section
open Sys2Proof Sys2Proof.Machine

/-! ## Sensors, rails, clocks and droop -/

namespace Sys2Proof.Machine

theorem next_if_of_pos {c : Prop} [Decidable c] {s t u : State} (hc : c) (h : s = u) : (.next (if c then s else t) : Out) = .next u := by
  rw [if_pos hc, h]

theorem next_if_of_neg {c : Prop} [Decidable c] {s t u : State} (hc : ¬ c) (h : t = u) : (.next (if c then s else t) : Out) = .next u := by
  rw [if_neg hc, h]

/-! ### Temperature -/

theorem signed_mod (w v : Nat) : signed w (v % 2 ^ w) = signed w v := by
  unfold signed
  rw [Nat.mod_mod]

/-- What a field of 16 bits reads after a signed value is written in it. -/
theorem signed_unsigned_mod {x : Int} (hlo : -32768 ≤ x) (hhi : x ≤ 32767) : signed 16 (unsigned 16 x % 2 ^ 16) = x :=
  (signed_mod 16 _).trans (signed_unsigned (by decide) (by omega) (by omega))

section
variable {s : State} (hw : Tbl.wf s.csr = true)
include hw

theorem State.tempReg_takeTemp (n : Nat) (x : Int) :
    (s.takeTemp n x).tempReg n = setFld (setFld (s.tempReg n) 0 16 (unsigned 16 x)) 48 16
      (if signed 16 (fld (s.tempReg n) 48 16) < x then unsigned 16 x else fld (s.tempReg n) 48 16) :=
  State.reg_setReg_same s _ _ _ hw

theorem State.tempReg_takeTemp_ne {m n : Nat} (hm : m ≠ n) (x : Int) : (s.takeTemp n x).tempReg m = s.tempReg m :=
  State.reg_setReg_ne s _ _ _ _ _ hw (by omega)

theorem State.tempNow_takeTemp (n : Nat) {x : Int} (hlo : -32768 ≤ x) (hhi : x ≤ 32767) : (s.takeTemp n x).tempNow n = x := by
  rw [State.tempNow, State.tempReg_takeTemp hw, fld_setFld_ne _ _ _ _ _ _ (by decide), fld_setFld_same _ _ _ _ (by decide)]
  exact signed_unsigned_mod hlo hhi

/-- MAX after a sample: the greater of the two. -/
theorem State.tempMax_takeTemp (n : Nat) {x : Int} (hlo : -32768 ≤ x) (hhi : x ≤ 32767) :
    signed 16 (fld ((s.takeTemp n x).tempReg n) 48 16) = max (signed 16 (fld (s.tempReg n) 48 16)) x := by
  rw [State.tempReg_takeTemp hw, fld_setFld_same _ _ _ _ (by decide)]
  by_cases hx : signed 16 (fld (s.tempReg n) 48 16) < x
  · rw [if_pos hx, signed_unsigned_mod hlo hhi, max_eq_right hx.le]
  · rw [if_neg hx, signed_mod, max_eq_left (not_lt.mp hx)]

/-- A read of a sensor sets MAX to NOW and leaves NOW. -/
theorem State.tempReg_tempRead (n : Nat) : (s.tempRead n).tempReg n = setFld (s.tempReg n) 48 16 (fld (s.tempReg n) 0 16) :=
  State.reg_setReg_same s _ _ _ hw

end

/-! ### Droop (R634, R636) -/

theorem State.droopBand_le (s : State) (h : Half) (mv : Nat) : s.droopBand h mv ≤ 4 := by
  unfold State.droopBand
  split_ifs <;> omega

theorem State.droopBand_eq_zero (s : State) (h : Half) (mv : Nat) : s.droopBand h mv = 0 ↔ mv < s.droopT h := by
  unfold State.droopBand
  split_ifs <;> simp [*]

/-- A droop reaches band `k` at 10 mV for each band beyond the first. -/
theorem State.le_droopBand (s : State) (h : Half) (mv : Nat) {k : Nat} (hk : 1 ≤ k) (hk4 : k ≤ 4) :
    k ≤ s.droopBand h mv ↔ s.droopT h + 10 * (k - 1) ≤ mv := by
  unfold State.droopBand
  split_ifs <;> omega

theorem State.droopLevel_lt (s : State) (h : Half) : s.droopLevel h < 8 := fld_lt _ _ _

section
variable {s : State} (hw : Tbl.wf s.csr = true)
include hw

/-- DROOP_STAT is no DROOP_EVENTS, so a count of events leaves it. -/
theorem State.droopReg_bump (h : Half) : (s.bump (bHalf h) R.half_DROOP_EVENTS).droopReg h = s.droopReg h :=
  State.reg_setReg_ne s _ _ _ _ _ hw (by simp [R.half_DROOP_EVENTS, R.half_DROOP_STAT])

theorem State.droopReg_droopRises (h : Half) (n : Nat) :
    (s.droopRises h n).droopReg h =
      setFld (setFld (s.droopReg h) 0 3 n) 8 3 (if fld (s.droopReg h) 8 3 < n then n else fld (s.droopReg h) 8 3) := by
  have hset := State.reg_setReg_same (s.setDroopFor h 0) (bHalf h) R.half_DROOP_STAT
    (setFld (setFld (s.droopReg h) 0 3 n) 8 3 (if fld (s.droopReg h) 8 3 < n then n else fld (s.droopReg h) 8 3)) hw
  unfold State.droopRises
  dsimp only
  split
  · exact (State.droopReg_bump (State.setReg_wf _ _ _ _ hw) h).trans hset
  · exact hset

/-- DROOP_EVENTS counts a rise from level 0 (R636). -/
theorem State.events_droopRises (h : Half) (n : Nat) :
    (s.droopRises h n).reg (bHalf h) R.half_DROOP_EVENTS = s.reg (bHalf h) R.half_DROOP_EVENTS + if s.droopLevel h = 0 then 1 else 0 := by
  have hset (v : DWord) : ((s.setDroopFor h 0).setReg (bHalf h) R.half_DROOP_STAT v).reg (bHalf h) R.half_DROOP_EVENTS =
      s.reg (bHalf h) R.half_DROOP_EVENTS := State.reg_setReg_ne (s.setDroopFor h 0) _ _ _ _ _ hw (by simp [R.half_DROOP_EVENTS, R.half_DROOP_STAT])
  unfold State.droopRises
  dsimp only
  split
  · exact (State.reg_bump_same _ _ _ (State.setReg_wf _ _ _ _ hw)).trans (congrArg (· + 1) (hset _))
  · exact (hset _).trans (BitVec.add_zero _).symm

theorem State.droopReg_setRfld (h : Half) (lsb len x : Nat) :
    (s.setRfld (bHalf h) R.half_DROOP_STAT lsb len x).droopReg h = setFld (s.droopReg h) lsb len x :=
  State.reg_setReg_same s _ _ _ hw

end

theorem State.droopRises_frame (s : State) (h : Half) (n : Nat) :
    s.droopRises h n = { s with csr := (s.droopRises h n).csr, pv := { s.pv with droopFor := s.pv.droopFor.upd h fun _ => 0 } } := by
  unfold State.droopRises
  dsimp only
  split <;> rfl

/-! ### Clocks (R632) -/

/-- A state in which the loss of an I/O PLL is remembered. -/
def State.lostPll (s : State) (k : Nat) : State := s.updPv fun p => { p with ioLost := p.ioLost ++ [k] }

section
variable {s : State} {k : Nat} (hnew : k ∉ s.pv.ioLost)
include hnew

theorem doPllLost_of_new (hk : 1 ≤ k) (hk7 : k ≤ 7) :
    doPllLost k s =
      if k ≤ 4 then (s.lostPll k).pllPorts k
      else if k = 5 then
        ((((s.lostPll k).fault (.hbmc 0 0) F.HBM_LINK).fault (.hbmc 0 1) F.HBM_LINK).fault (.hbmc 1 0) F.HBM_LINK).fault (.hbmc 1 1) F.HBM_LINK
      else if k = 7 then ((s.lostPll k).dropFord 0).dropFord 1
      else s.lostPll k :=
  if_neg (by simp [hnew]; omega)

theorem doPllLost_of_serdes (hk : 1 ≤ k) (hk4 : k ≤ 4) : doPllLost k s = (s.lostPll k).pllPorts k :=
  (doPllLost_of_new hnew hk (by omega)).trans (if_pos hk4)

theorem doPllLost_of_hbm (hk : k = 5) :
    doPllLost k s =
      ((((s.lostPll k).fault (.hbmc 0 0) F.HBM_LINK).fault (.hbmc 0 1) F.HBM_LINK).fault (.hbmc 1 0) F.HBM_LINK).fault (.hbmc 1 1) F.HBM_LINK :=
  (doPllLost_of_new hnew (by omega) (by omega)).trans ((if_neg (by omega)).trans (if_pos hk))

theorem doPllLost_of_pcie (hk : k = 6) : doPllLost k s = s.lostPll k :=
  (doPllLost_of_new hnew (by omega) (by omega)).trans ((if_neg (by omega)).trans ((if_neg (by omega)).trans (if_neg (by omega))))

theorem doPllLost_of_ford (hk : k = 7) : doPllLost k s = ((s.lostPll k).dropFord 0).dropFord 1 :=
  (doPllLost_of_new hnew (by omega) (by omega)).trans ((if_neg (by omega)).trans ((if_neg (by omega)).trans (if_pos hk)))

end

end Sys2Proof.Machine

/-- Settles O58: the branches of each function, with the fields of SENSE_TEMP and DROOP_STAT after a write. -/
theorem sensorsAndClocks : Obligations.SensorsAndClocks := by
  refine ⟨⟨?_, ?_, ?_, ?_, ?_⟩, ?_, ?_, ?_, ?_, ?_, ?_, ?_, ?_, ?_⟩
  · intro s n v hout x hx
    subst hx
    exact next_if_of_pos hout rfl
  · exact fun s n x hw hlo hhi => ⟨State.tempNow_takeTemp hw n.val hlo hhi, State.tempMax_takeTemp hw n.val hlo hhi,
      fun m hm => State.tempReg_takeTemp_ne hw (fun e => hm (Fin.ext e)) x⟩
  · intro s a n hr hw
    have hreg := State.tempReg_tempRead hw n.val
    refine ⟨s.tempRead n.val, next_ite_of_reach hr rfl, ?_, ?_, rfl⟩
    · rw [State.tempNow, hreg, fld_setFld_ne _ _ _ _ _ _ (by decide), State.tempNow]
    · rw [hreg, fld_setFld_same _ _ _ _ (by decide), signed_mod, State.tempNow]
  · intro s t0 hc hs
    have hrel : exec .thermalRelease s = .next (if s.shutdown ∧ t0 + secondTicks ≤ s.ticks then
        (s.setRfld bDevice R.device_THERM_CTL 9 1 0).updPv fun p => { p with coolSince := none } else s) := by
      change Host.Outcome.next (doThermalRelease s) = _
      rw [doThermalRelease, hc]
    exact ⟨fun ht => hrel.trans (next_if_of_pos ⟨hs, ht⟩ rfl), fun ht => hrel.trans (next_if_of_neg (fun h => absurd h.2 (not_le.mpr ht)) rfl)⟩
  · intro s m v c hout u hu
    subst hu
    exact ⟨fun h => next_if_of_pos hout (if_neg (by rcases h with h | h <;> simp [h])),
      fun ho h1 => next_if_of_pos hout (if_pos (by simp [ho, h1]))⟩
  · exact fun s h a b hout => ⟨fun hin => next_if_of_neg (by omega) rfl, fun hin => next_if_of_pos ⟨hout, by omega⟩ rfl⟩
  · exact fun s => ⟨fun hr => next_if_of_pos hr rfl, fun hl => next_if_of_pos hl rfl, rfl, rfl⟩
  · intro s k hnew u hu
    subst hu
    exact ⟨fun hk hk4 => congrArg Host.Outcome.next (doPllLost_of_serdes hnew hk hk4),
      fun hk => congrArg Host.Outcome.next (doPllLost_of_hbm hnew hk), fun hk => congrArg Host.Outcome.next (doPllLost_of_pcie hnew hk),
      fun hk => congrArg Host.Outcome.next (doPllLost_of_ford hnew hk)⟩
  · exact fun s k => ⟨doPllBack k s, rfl, by simp [doPllBack], fun j hj => by simp [doPllBack, hj], rfl⟩
  · intro s h mv n hw hn hlt
    subst hn
    have hband := s.droopBand_le h mv
    have hreg := State.droopReg_droopRises hw h (s.droopBand h mv)
    have hpeak := fld_lt (s.droopReg h) 8 3
    refine ⟨s.droopRises h (s.droopBand h mv), next_if_of_pos hlt rfl, ?_, ?_, State.events_droopRises hw h _, ?_, ?_⟩
    · rw [State.droopLevel, hreg, fld_setFld_ne _ _ _ _ _ _ (by decide), fld_setFld_same _ _ _ _ (by decide)]
      exact Nat.mod_eq_of_lt (by omega)
    · rw [hreg, fld_setFld_same _ _ _ _ (by decide)]
      split <;> omega
    · rw [State.droopRises_frame]
      exact pair_get_upd_same _ _ _
    · rw [State.droopRises_frame]
  · exact fun s h mv hle => ⟨fun hn => next_if_of_neg (not_lt.mpr hle) (if_pos hn),
      fun hf => next_if_of_neg (not_lt.mpr hle) (if_neg (not_lt.mpr hf))⟩
  · exact fun s h mv => ⟨s.droopBand_le h mv, s.droopBand_eq_zero h mv, fun k hk hk4 => s.le_droopBand h mv hk hk4⟩
  · intro s h hw hpos
    have hreg := State.droopReg_setRfld (s := s.setDroopFor h 0) hw h 0 3 (s.droopLevel h - 1)
    have hlevel := s.droopLevel_lt h
    refine ⟨fun hc => ⟨_, next_if_of_pos ⟨hpos, hc⟩ rfl, ?_, ?_, pair_get_upd_same _ _ _, rfl⟩, fun hc => next_if_of_neg (by omega) rfl⟩
    · rw [State.droopLevel, hreg, fld_setFld_same _ _ _ _ (by decide)]
      exact Nat.mod_eq_of_lt (by omega)
    · rw [hreg, fld_setFld_ne _ _ _ _ _ _ (by decide)]
      rfl
  · intro s a h hw hr
    have hreg := State.droopReg_setRfld hw h 8 3 (s.droopLevel h)
    have hlevel := s.droopLevel_lt h
    refine ⟨s.droopRead h, next_ite_of_reach hr rfl, ?_, ?_, rfl⟩
    · rw [State.droopLevel, State.droopRead, hreg, fld_setFld_ne _ _ _ _ _ _ (by decide), State.droopLevel]
    · rw [State.droopRead, hreg, fld_setFld_same _ _ _ _ (by decide)]
      exact Nat.mod_eq_of_lt (by omega)
end

section
open Sys2Proof Sys2Proof.Machine

/-! ## Mailboxes -/

namespace Sys2Proof.Machine

/-! ### Answers -/

/-- MB_CTL of an answered command: DONE for BUSY (R619). -/
def mbDone (c : DWord) : DWord := setFld (setFld c 2 1 0) 1 1 1

section
variable (s : State) (slot status : Nat)

/-- RSP_0, the values and MB_CTL of an answer are registers. -/
theorem State.mbAnswer_written (rs : List (Nat × Nat)) : ∃ t, s.OnlyCsr t ∧ ∃ th, s.mbAnswer slot status rs = if slot < 2 then t.setEv th 0x80000000 else t :=
  ⟨_, (State.onlyCsr_setReg s _ _ _).trans ((State.onlyCsr_foldl (fun s (e : Nat × Nat) =>
    s.onlyCsr_setReg (bPrivet 6) (R.mbox_RSP_0 + 8 * e.1 + 0x100 * slot) (BitVec.ofNat 64 e.2)) rs _).trans (State.onlyCsr_setReg _ _ _ _)), _, rfl⟩

@[simp] theorem State.mbAnswer_pv (rs : List (Nat × Nat)) : (s.mbAnswer slot status rs).pv = s.pv := by
  obtain ⟨_, ⟨r, rfl⟩, th, h⟩ := s.mbAnswer_written slot status rs
  rw [h]
  split
  · exact State.updThread_pv _ _ _
  · rfl

@[simp] theorem State.mbAnswer_waits (rs : List (Nat × Nat)) : (s.mbAnswer slot status rs).waits = s.waits := by
  obtain ⟨_, ⟨r, rfl⟩, th, h⟩ := s.mbAnswer_written slot status rs
  rw [h]
  split
  · exact State.setEv_waits _ _ _
  · rfl

/-- The registers of an answer without values. -/
theorem State.mbAnswer_csr :
    (s.mbAnswer slot status).csr =
      let t := s.setReg (bPrivet 6) (R.mbox_RSP_0 + 0x100 * slot) (BitVec.ofNat 64 (status <<< 56))
      (t.setMbCtl slot (mbDone (t.mbCtl slot))).csr := by
  unfold State.mbAnswer
  dsimp only
  split
  · exact State.updThread_csr _ _ _
  · rfl

variable {s} {slot} (hw : Tbl.wf s.csr = true)
include hw

theorem State.mbCtl_mbAnswer : (s.mbAnswer slot status).mbCtl slot = mbDone (s.mbCtl slot) := by
  unfold State.mbCtl State.reg
  rw [State.mbAnswer_csr]
  refine (State.reg_setReg_same _ _ _ _ (State.setReg_wf _ _ _ _ hw)).trans (congrArg mbDone ?_)
  exact State.reg_setReg_ne s _ _ _ _ _ hw (by simp [R.mbox_MB_CTL, R.mbox_RSP_0])

theorem State.rsp_mbAnswer :
    (s.mbAnswer slot status).reg (bPrivet 6) (R.mbox_RSP_0 + 0x100 * slot) = BitVec.ofNat 64 (status * 2 ^ 56) := by
  unfold State.reg
  rw [State.mbAnswer_csr, ← Nat.shiftLeft_eq]
  refine (State.reg_setReg_ne _ _ _ _ _ _ (State.setReg_wf _ _ _ _ hw) ?_).trans (State.reg_setReg_same s _ _ _ hw)
  simp [R.mbox_MB_CTL, R.mbox_RSP_0]

end

theorem bit_mbDone (c : DWord) : bit (mbDone c) 1 = true ∧ bit (mbDone c) 2 = false ∧ bit (mbDone c) 3 = bit c 3 := by
  refine ⟨bit_setFld_same _ 1 true (by decide), ?_, ?_⟩
  · exact (bit_setFld_ne _ _ _ _ _ (by decide)).trans (bit_setFld_same _ 2 false (by decide))
  · exact (bit_setFld_ne _ _ _ _ _ (by decide)).trans (bit_setFld_ne _ _ _ _ _ (by decide))

/-! ### GO -/

section
variable {s : State} {a : Agent} {slot : Nat}

theorem State.mbGo_of_refused (h : s.mbOwner a slot = false ∨ bit (s.mbCtl slot) 2 = true) : s.mbGo a slot = s :=
  if_neg (by rcases h with h | h <;> simp [h])

theorem State.mbGo_of_owner (ho : s.mbOwner a slot = true) (hl : s.live (.privet 6) = true) (hb : bit (s.mbCtl slot) 2 = false) :
    s.mbGo a slot =
      if ¬ mbOffered (s.mbOp slot) slot then (s.setMbCtl slot (setFld (setFld (s.mbCtl slot) 2 1 1) 3 1 0)).mbAnswer slot mbBadCmd
      else if mbExclusive (s.mbOp slot) && s.busySlots.any fun i => mbExclusive (s.mbOp i) then
        (s.setMbCtl slot (setFld (setFld (s.mbCtl slot) 2 1 1) 3 1 0)).mbAnswer slot mbBusy
      else s.setMbCtl slot (setFld (setFld (s.mbCtl slot) 2 1 1) 3 1 0) :=
  if_pos ⟨ho, hl, hb⟩

/-- Privet runs no command while it is down. -/
theorem next_of_down {op : Nat} {t : State} (hd : s.pvUp = false) : (.next (if s.mbRuns slot op then t else s) : Out) = .next s :=
  next_if_of_neg (by simp [State.mbRuns, hd]) rfl

/-! ### Commands -/

theorem State.storeSeq_storeCommit {u : State} (h : s.storeCommit = some u) : u.pv.storeSeq = (s.pv.storeSeq + 1) % 2 ^ 32 := by
  have herase (v : State) (k : Nat) : (v.eraseSector k).pv.storeSeq = v.pv.storeSeq := by
    rw [State.eraseSector, State.updPv_pv]
    split <;> rfl
  unfold State.storeCommit at h
  dsimp only at h
  split at h
  · cases h
  · split at h <;> obtain rfl := Option.some.inj h
    · rw [herase, herase]
      rfl
    · rfl

theorem doStoreCommit_of_committed {u : State} (hp : s.pv.pfailLow = false) (h : s.storeCommit = some u) :
    doStoreCommit slot s = u.mbAnswer slot mbOk [(1, u.pv.storeSeq)] := by
  rw [doStoreCommit, if_neg (by simp [hp]), h]

theorem doStoreCommit_of_full (hp : s.pv.pfailLow = false) (h : s.storeCommit = none) : doStoreCommit slot s = s.mbAnswer slot mbFlash := by
  rw [doStoreCommit, if_neg (by simp [hp]), h]

theorem doLogRead_of_bad (h : (s.mbCmd slot 3).toNat = 0 ∨ 1024 < (s.mbCmd slot 3).toNat) : doLogRead slot s = s.mbAnswer slot mbBadCmd :=
  if_pos h

theorem doLogRead_of_written {u : State} (h0 : 0 < (s.mbCmd slot 3).toNat) (h1 : (s.mbCmd slot 3).toNat ≤ 1024)
    (hu : s.mbWrite slot (s.mbCmd slot 2).toNat ((s.logFrom (fld (s.mbCmd slot 1) 0 32) (s.mbCmd slot 3).toNat).flatMap fun e => e) = (u, 0)) :
    doLogRead slot s = u.mbAnswer slot mbOk [(1, (s.logFrom (fld (s.mbCmd slot 1) 0 32) (s.mbCmd slot 3).toNat).length)] := by
  rw [doLogRead]
  dsimp only
  rw [if_neg (by omega), hu]
  rfl

section
variable {given : List Byte} (hr : fld (s.mbCmd slot 3) 0 9 ≤ 256) (hg : fld (s.mbCmd slot 3) 16 9 ≤ 256) {u : State} {bs : List Byte}
  (hu : s.mbRead slot (s.mbCmd slot 2).toNat (fld (s.mbCmd slot 3) 0 9) = (u, 0, bs))
include hr hg hu

theorem doI2c_of_nak : doI2c slot false given s = u.mbAnswer slot mbNak := by
  rw [doI2c]
  rw [if_neg (by omega), hu]
  rfl

theorem doI2c_of_ack {v : State}
    (hv : u.mbWrite slot ((s.mbCmd slot 2).toNat + fld (s.mbCmd slot 3) 0 9) (given.take (fld (s.mbCmd slot 3) 16 9)) = (v, 0)) :
    doI2c slot true given s = v.mbAnswer slot mbOk [(1, (given.take (fld (s.mbCmd slot 3) 16 9)).length)] := by
  rw [doI2c]
  rw [if_neg (by omega), hu]
  simp only [↓reduceIte, hv]

end

theorem length_leBytes (n v : Nat) : (leBytes n v).length = n := by
  induction n generalizing v with
  | zero => rfl
  | succ n ih => rw [leBytes, List.length_cons, ih]

/-- The nonce of a challenge. -/
def State.nonceBytes (s : State) : List Byte :=
  (List.range 4).flatMap fun i => leBytes 8 (Config.freeValue (s.fresh + i) 64 : DWord).toNat

theorem State.length_nonceBytes (s : State) : s.nonceBytes.length = 32 := by
  simp [State.nonceBytes, List.length_flatMap, length_leBytes]

theorem doChallenge_pv : (doChallenge slot s).pv = { s.pv with nonce := some (s.nonceBytes, s.ticks + nonceTicks) } :=
  State.mbAnswer_pv _ _ _ _

section
variable {u : State} {token : List Byte} (hu : s.mbRead slot (s.mbCmd slot 2).toNat 112 = (u, 0, token))
include hu

theorem doUnlock_of_good (ht : u.tokenOk token = true) :
    doUnlock slot s = (u.updPv fun p =>
      { p with unlocked := p.unlocked ||| hdrNum token 0 4 % 16
               scopeEnd := ((List.range 4).filter fun i => (hdrNum token 0 4 % 16).testBit i).foldl
                 (fun t i => tput t i (u.ticks + hdrNum token 4 4 * secondTicks)) p.scopeEnd }).mbAnswer slot mbOk := by
  rw [doUnlock, hu]
  exact if_pos ht

theorem doUnlock_of_bad (ht : u.tokenOk token = false) :
    doUnlock slot s = (u.updPv fun p => { p with nonce := none }).mbAnswer slot mbVerify := by
  rw [doUnlock, hu]
  exact if_neg (by simp [ht])

end

end

end Sys2Proof.Machine

/-- Settles O56: GO is `State.mbGo_of_owner`, an answer is `State.mbCtl_mbAnswer` and `State.rsp_mbAnswer`, and each command is its function's
branch. -/
theorem mailboxes : Obligations.Mailboxes := by
  refine ⟨⟨?_, fun s a j h => congrArg Host.Outcome.next (State.mbGo_of_refused h), ?_, ?_⟩,
    fun s j => ⟨fun hr => next_if_of_pos hr rfl, fun hr => next_if_of_pos hr rfl, ?_, ?_, ?_, ?_, ?_⟩⟩
  · intro s a j u ho hl hb hu
    subst hu
    have hgo : exec (.mbGo a j) s = _ := congrArg Host.Outcome.next (State.mbGo_of_owner ho hl hb)
    refine ⟨fun hn => hgo.trans (next_if_of_pos (by simp [hn]) rfl), fun hoff hex hother => hgo.trans ?_, fun hoff hfree => hgo.trans ?_⟩
    · exact next_if_of_neg (by simp [hoff]) (if_pos (by rw [hex, hother]; rfl))
    · exact next_if_of_neg (by simp [hoff]) (if_neg (by rcases hfree with h | h <;> rw [h] <;> simp))
  · intro s j st hw hst u hu
    subst hu
    rw [State.mbCtl_mbAnswer st hw]
    exact ⟨State.rsp_mbAnswer st hw, bit_mbDone _⟩
  · intro s j hd acks bs e he
    simp only [List.mem_cons, List.not_mem_nil, or_false] at he
    rcases he with rfl | rfl | rfl | rfl | rfl | rfl | rfl | rfl | rfl | rfl | rfl <;> exact next_of_down hd
  · exact fun hr hp => ⟨fun u hu => ⟨next_if_of_pos hr (doStoreCommit_of_committed hp hu), State.storeSeq_storeCommit hu⟩,
      fun hn => next_if_of_pos hr (doStoreCommit_of_full hp hn)⟩
  · refine fun hr => ⟨fun hbad ha => ?_, fun es u h0 h1 hes hu ha hwt => ?_⟩
    · exact next_if_of_pos hr (State.orWait_done ha (by rw [doLogRead_of_bad hbad, State.mbAnswer_waits]) |>.trans (doLogRead_of_bad hbad))
    · subst hes
      exact (next_if_of_pos hr rfl).trans (next_orWait ha (doLogRead_of_written h0 h1 hu) ((State.mbAnswer_waits _ _ _ _).trans hwt))
  · intro given hr h0 h1 u bs hu ha hwt
    refine ⟨?_, fun v hv hwt' => ?_⟩
    · exact (next_if_of_pos hr rfl).trans (next_orWait ha (doI2c_of_nak h0 h1 hu) ((State.mbAnswer_waits _ _ _ _).trans hwt))
    · exact (next_if_of_pos hr rfl).trans (next_orWait ha (doI2c_of_ack h0 h1 hu hv) ((State.mbAnswer_waits _ _ _ _).trans hwt'))
  · exact fun hr => ⟨_, s.nonceBytes, next_if_of_pos hr rfl, by rw [doChallenge_pv], s.length_nonceBytes, by rw [doChallenge_pv]⟩
  · intro u token hr hu ha hwt
    have hrun : exec (.debugUnlock j) s = .next (s.orWait (doUnlock j.val)) := next_if_of_pos hr rfl
    by_cases ht : u.tokenOk token = true
    · refine ⟨_, hrun.trans (next_orWait ha (doUnlock_of_good hu ht) ((State.mbAnswer_waits _ _ _ _).trans hwt)), ?_, ?_⟩
      · rw [State.mbAnswer_pv]
        rfl
      · rw [if_pos ht, State.mbAnswer_pv]
        rfl
    · refine ⟨_, hrun.trans (next_orWait ha (doUnlock_of_bad hu (by simpa using ht)) ((State.mbAnswer_waits _ _ _ _).trans hwt)), ?_, ?_⟩
      · rw [State.mbAnswer_pv]
        rfl
      · rw [if_neg ht]
end

section
open Sys2Proof Sys2Proof.Machine

/-! ## Images, the store, the log and the management port -/

namespace Sys2Proof.Machine

/-! ### Erasing -/

section
variable {α : Type} {t : Tbl α}

theorem tget?_eq_some_of_mem (hw : Tbl.wf t = true) {k : Nat} {v : α} (hm : (k, v) ∈ t) : tget? t k = some v := by
  induction t with
  | nil => simp at hm
  | cons e r ih =>
    obtain ⟨j, w⟩ := e
    obtain ⟨ha, hr⟩ := (tbl_wf_cons _ _).mp hw
    rw [tget?]
    rcases List.mem_cons.mp hm with h | h
    · obtain ⟨rfl, rfl⟩ := Prod.mk.inj h
      rw [if_neg (Nat.lt_irrefl _), if_pos rfl]
    · have hj : j < k := ha _ h
      rw [if_neg (by omega), if_neg (by omega), ih hr h]

theorem tget?_eq_some_iff_mem (hw : Tbl.wf t = true) {k : Nat} {v : α} : tget? t k = some v ↔ (k, v) ∈ t :=
  ⟨mem_of_tget?_eq_some, tget?_eq_some_of_mem hw⟩

/-- A key whose entries are all kept reads as before. -/
theorem tget?_filter_of_kept (hw : Tbl.wf t = true) {p : Nat × α → Bool} {k : Nat} (hp : ∀ v, p (k, v) = true) :
    tget? (t.filter p) k = tget? t k := by
  ext v
  rw [tget?_eq_some_iff_mem (Tbl.wf_filter hw), tget?_eq_some_iff_mem hw, List.mem_filter, hp, and_iff_left rfl]

/-- A key whose entries are all dropped is not listed. -/
theorem tget?_filter_of_dropped {p : Nat × α → Bool} {k : Nat} (hp : ∀ v, p (k, v) = false) : tget? (t.filter p) k = none := by
  refine tget?_eq_none_of_not_mem fun h => ?_
  obtain ⟨⟨j, v⟩, he, rfl⟩ := List.mem_map.mp h
  exact absurd (List.of_mem_filter he) (by simp [hp v])

end

section
variable {s : State} {a n b : Nat}

theorem State.flashErase_within (hlo : a ≤ b) (hhi : b < a + n) : tget 0xFF (s.flashErase a n).pv.flash b = 0xFF := by
  have hgone := tget?_filter_of_dropped (t := s.pv.flash) (p := fun e => decide (e.1 < a) || decide (a + n ≤ e.1)) (k := b)
    (fun v => by simp [hlo, hhi])
  rw [tget, State.flashErase, State.updPv_pv, hgone]

theorem State.flashErase_outside (hw : Tbl.wf s.pv.flash = true) (hb : b < a ∨ a + n ≤ b) :
    tget 0xFF (s.flashErase a n).pv.flash b = tget 0xFF s.pv.flash b := by
  have hkept := tget?_filter_of_kept hw (p := fun e => decide (e.1 < a) || decide (a + n ≤ e.1)) (k := b) (fun v => by simpa using hb)
  rw [tget, tget, State.flashErase, State.updPv_pv, hkept]

/-! ### Images -/

theorem State.stage_of_refused {kind slot : Nat} {c : List Byte} {k : Nat} (hv : s.verifyHead kind c = k) (hk : k ≠ 0) :
    s.stage kind slot c = (s.flashErase (slotBase kind slot) (slotSize kind), k) := by
  rw [State.stage]
  dsimp only
  rw [hv]
  cases k with
  | zero => exact absurd rfl hk
  | succ k => rfl

section
variable {slot : Nat} (hp : s.pv.pfailLow = false)
include hp

theorem doImgStage_of_bad (hk : fld (s.mbCmd slot 1) 0 2 = 0 ∨ slotSize (fld (s.mbCmd slot 1) 0 2) < (s.mbCmd slot 3).toNat) :
    doImgStage slot s = s.mbAnswer slot mbBadCmd :=
  (if_neg (by simp [hp])).trans (if_pos hk)

section
variable (hk : fld (s.mbCmd slot 1) 0 2 ≠ 0) (hn : (s.mbCmd slot 3).toNat ≤ slotSize (fld (s.mbCmd slot 1) 0 2))
include hk hn

theorem doImgStage_of_active (hd : s.dirEntry (fld (s.mbCmd slot 1) 0 2 - 1) % 2 = fld (s.mbCmd slot 1) 8 1) :
    doImgStage slot s = s.mbAnswer slot mbDenied :=
  (if_neg (by simp [hp])).trans ((if_neg (not_or.mpr ⟨hk, not_lt.mpr hn⟩)).trans (if_pos hd))

theorem doImgStage_of_staged {u v : State} {c : List Byte} {k : Nat}
    (hd : s.dirEntry (fld (s.mbCmd slot 1) 0 2 - 1) % 2 ≠ fld (s.mbCmd slot 1) 8 1)
    (hu : s.mbRead slot (s.mbCmd slot 2).toNat (s.mbCmd slot 3).toNat = (u, 0, c))
    (hv : u.stage (fld (s.mbCmd slot 1) 0 2) (fld (s.mbCmd slot 1) 8 1) c = (v, k)) :
    doImgStage slot s = if k = 0 then v.mbAnswer slot mbOk else v.mbAnswer slot mbVerify [(1, k)] := by
  rw [doImgStage]
  rw [if_neg (by simp [hp]), if_neg (not_or.mpr ⟨hk, not_lt.mpr hn⟩), if_neg hd, hu]
  simp only [hv]
  cases k <;> rfl

end

theorem doImgActivate_of_none (hk : fld (s.mbCmd slot 1) 0 2 = 0) : doImgActivate slot s = s.mbAnswer slot mbBadCmd := by
  rw [doImgActivate]
  dsimp only
  rw [if_neg (by simp [hp]), hk]
  rfl

theorem doImgActivate_of_firmware (hk : fld (s.mbCmd slot 1) 0 2 = 1) :
    doImgActivate slot s = s.activateFirmware slot (fld (s.mbCmd slot 1) 8 1) := by
  rw [doImgActivate]
  dsimp only
  rw [if_neg (by simp [hp]), hk]
  rfl

theorem doImgActivate_of_packet (hk : fld (s.mbCmd slot 1) 0 2 = 2) :
    doImgActivate slot s = s.activateImage slot (fld (s.mbCmd slot 1) 8 1) (s.mbCmd slot 4) := by
  rw [doImgActivate]
  dsimp only
  rw [if_neg (by simp [hp]), hk]
  rfl

theorem doImgActivate_of_software (hk : fld (s.mbCmd slot 1) 0 2 = 3) {u : State} {st k : Nat}
    (hu : s.loadSoftware (fld (s.mbCmd slot 1) 8 1) (fld (s.mbCmd slot 5) 0 2) = (u, st, k)) :
    doImgActivate slot s =
      if st = mbOk then
        (u.dirPut 2 (dirEnt (u.slotSvn 3 (fld (s.mbCmd slot 1) 8 1)) 0 true (fld (s.mbCmd slot 1) 8 1))).mbAnswer slot mbOk
      else u.mbAnswer slot st (if st = mbVerify then [(1, k)] else []) := by
  rw [doImgActivate]
  dsimp only
  rw [if_neg (by simp [hp]), hk, hu]
  rfl

/-- SVN_MIN never falls (R608). -/
theorem doImgConfirm_of_kind (hk : fld (s.mbCmd slot 1) 0 2 ≠ 0) {kind e : Nat} {u : State} (hkind : kind = fld (s.mbCmd slot 1) 0 2)
    (he : e = s.dirEntry (kind - 1)) (hu : u = s.dirPut (kind - 1) (dirEnt (e >>> 32) (bits e 9 3) false (e % 2))) :
    doImgConfirm slot s =
      (if bit (s.mbCmd slot 1) 16 then
        u.updPv fun p => { p with fuses := { p.fuses with
          svnMin := tset 0 p.fuses.svnMin kind (max (tget 0 s.pv.fuses.svnMin kind) (min (e >>> 32) 64)) } }
      else u).mbAnswer slot mbOk := by
  subst hkind he hu
  rw [doImgConfirm]
  dsimp only
  rw [if_neg (by simp [hp]), if_neg hk, satTo_eq_min]
  simp only [max_def_lt]

end

theorem doCcReload_of_loaded {slot : Nat} {u : State} {st k : Nat}
    (hu : s.loadSoftware (s.dirEntry 2 % 2) (fld (s.mbCmd slot 1) 0 2) = (u, st, k)) :
    doCcReload slot s = u.mbAnswer slot st (if st = mbVerify then [(1, k)] else []) := by
  rw [doCcReload, hu]

theorem doTftpStage_of_idle {c : List Byte} (hup : s.pvUp = true) (hl : s.live (.privet 7) = true)
    (hc : bit (s.reg (bPrivet 7) R.mgmt_MGMT_CFG) 0 = true)
    (hcc : ∀ h, s.live (.half h) = true → bit (s.reg (bCc h) R.cc_CC_CTL) 0 = false) (hb : s.busySlots = []) (hp : s.pv.pfailLow = false)
    (h1 : 1 ≤ hdrNum c 6 1) (h3 : hdrNum c 6 1 ≤ 3) (hlen : c.length ≤ slotSize (hdrNum c 6 1)) :
    doTftpStage c s = (s.stage (hdrNum c 6 1) (1 - s.dirEntry (hdrNum c 6 1 - 1) % 2) c).1 := by
  have hnos : ¬ (bothHalves.any fun h => s.live (.half h) && bit (s.reg (bCc h) R.cc_CC_CTL) 0) = true := by
    rw [List.any_eq_true]
    rintro ⟨h, -, hh⟩
    obtain ⟨hlive, hrun⟩ := Bool.and_eq_true_iff.mp hh
    exact absurd (hcc h hlive) (by simp [hrun])
  exact if_pos ⟨hup, hl, hc, hnos, by simp [hb], hp, h1, h3, hlen⟩

/-! ### The store and the log -/

theorem doAutoCommit_of_up (hup : s.pvUp = true) (hp : s.pv.pfailLow = false) {v : State} (hv : v = if s.pv.storeBad then s.storeAgain else s) :
    doAutoCommit s = if v.storeMaps ≠ v.pv.storeLast then v.commitStore else v := by
  subst hv
  exact if_pos ⟨hup, hp⟩

theorem State.flashWrite_storeBad (v : State) (a : Nat) (bs : List Byte) : (v.flashWrite a bs).pv.storeBad = v.pv.storeBad := rfl

theorem State.flashWrite_storeSeq (v : State) (a : Nat) (bs : List Byte) : (v.flashWrite a bs).pv.storeSeq = v.pv.storeSeq := rfl

/-- A record is written again at its own sequence, and only where one is there. -/
theorem State.storeAgain_pv (s : State) :
    s.storeAgain.pv.storeBad = false ∧ s.storeAgain.pv.storeSeq = s.pv.storeSeq ∧ (s.storeLatest = none → s.storeAgain.pv.flash = s.pv.flash) := by
  unfold State.storeAgain
  dsimp only
  split
  · exact ⟨rfl, rfl, fun _ => rfl⟩
  · next bank i he =>
    split
    · exact ⟨rfl, rfl, fun _ => rfl⟩
    · rw [State.flashWrite_storeBad, State.flashWrite_storeBad, State.flashWrite_storeSeq, State.flashWrite_storeSeq]
      exact ⟨rfl, rfl, fun h => by simp [he] at h⟩

theorem State.eraseSector_log (v : State) (k : Nat) : (v.eraseSector k).pv.logBuf = v.pv.logBuf ∧ (v.eraseSector k).pv.logSeq = v.pv.logSeq := by
  rw [State.eraseSector, State.updPv_pv]
  split <;> exact ⟨rfl, rfl⟩

theorem State.logWrite_of_clean {e : List Byte} {r : List (List Byte)} (hb : s.pv.logBuf = e :: r)
    (hc : s.flashClean (logAddr s.pv.logSeq) 32 = true) : s.logWrite.pv.logBuf = r ∧ s.logWrite.pv.logSeq = (s.pv.logSeq + 1) % 2 ^ 32 := by
  unfold State.logWrite
  rw [hb]
  dsimp only
  rw [if_pos hc]
  split
  · exact ⟨rfl, rfl⟩
  · exact State.eraseSector_log _ _

theorem doHubEvent_of_logged {h : Half} {e : HubEvent} {r : List HubEvent} (he : (s.hubs.get h).events = e :: r) (hup : s.pvUp = true)
    (hroom : s.pv.logBuf.length < 32) (hslot : e.slot < 448 ∨ h = 0) :
    doHubEvent h s = (s.updHub h fun x => { x with events := r }).updPv fun p =>
      { p with logBuf := p.logBuf ++ [logBytes e h s.pv.boots s.memberNo] } := by
  rw [doHubEvent, he]
  dsimp only
  rw [if_pos ⟨hup, hroom⟩]
  refine if_neg ?_
  rintro ⟨h448, rfl, -⟩
  exact hslot.elim (fun hs => by omega) (by decide)

theorem doTokenExpire_of_scope {i n : Nat} (hn : tget? s.pv.scopeEnd i = some n) :
    doTokenExpire i s = if n ≤ s.ticks then
      s.updPv fun p => { p with unlocked := clrBit p.unlocked i, scopeEnd := tdel p.scopeEnd i } else s := by
  rw [doTokenExpire, hn]

end

/-! ### Calibration -/

theorem clampInt_mem {lo hi : Int} (h : lo ≤ hi) (i : Int) : lo ≤ clampInt lo hi i ∧ clampInt lo hi i ≤ hi := by
  rw [clampInt_eq_max_min h]
  exact ⟨le_max_left _ _, max_le h (min_le_left _ _)⟩

theorem calRange_ordered (i : Nat) : (calRange i).1.1 ≤ (calRange i).1.2 ∧ (calRange i).2.1 ≤ (calRange i).2.2 := by
  unfold calRange
  split
  · split <;> decide
  · split
    · decide
    · split <;> decide

/-! ### The management port -/

section
variable {s u : State}

theorem doMgmtReceive_of_bad {f : List Byte} (hf : f.length < 64 ∨ 1536 < f.length ∨ fcsGood f = false) : doMgmtReceive f s = s := by
  refine if_neg ?_
  rintro ⟨-, -, hlo, hhi, hg⟩
  rcases hf with h | h | h
  · omega
  · omega
  · simp [hg] at h

theorem doMgmtReceive_of_good {f bs : List Byte} {v : DWord} (hv : v = s.reg (bPrivet 7) R.mgmt_MGMT_CFG) (h0 : bit v 0 = true)
    (hl : s.live (.privet 7) = true) (hlo : 64 ≤ f.length) (hhi : f.length ≤ 1536) (hg : fcsGood f = true) (hbs : bs = f.take (f.length - 4)) :
    doMgmtReceive f s =
      if beNat (bs.take 6) = 0xFFFFFFFFFFFF then (s.moveMgmt.updPv fun p => { p with mgmtIn := p.mgmtIn ++ [bs] }).mgmtRing bs
      else if beNat (bs.take 6) = fld v 16 48 then s.moveMgmt.updPv fun p => { p with mgmtIn := p.mgmtIn ++ [bs] }
      else s.moveMgmt.mgmtRing bs := by
  subst hv hbs
  exact if_pos ⟨h0, hl, hlo, hhi, hg⟩

theorem doMgmtTransmit_of_ready {h : Half} {bs : List Byte} (h0 : bit (s.reg (bPrivet 7) R.mgmt_MGMT_CFG) 0 = true)
    (hl : s.live (.privet 7) = true) (hr : s.mgmtReady = [h])
    (hu : s.hbmRead h privReq (s.ringBase h 2 + 32 * ringTail (s.ringCtl h 2)) 32 = (u, bs, false)) :
    doMgmtTransmit s = u.setRfld (bCc h) (R.cc_RING_CTL + 64) 44 20
      ((ringTail (s.ringCtl h 2) + (1 + (bits (leNat (bs.take 8)) 48 14 + 31) / 32)) % ringUnits (s.ringCtl h 2)) := by
  rw [doMgmtTransmit, if_pos ⟨h0, hl⟩, hr]
  simp only [List.isEmpty_nil, ↓reduceIte, hu]
  rfl

end

end Sys2Proof.Machine

/-- Settles O57: each clause is the branch that its hypotheses choose; the bounds of calibration are those of `clampInt`. -/
theorem imagesStoreAndPort : Obligations.ImagesStoreAndPort := by
  refine ⟨⟨?_, fun s kind slot c k => State.stage_of_refused, ?_, ?_, ?_, ?_⟩, ⟨?_, ?_, State.storeAgain_pv, ?_, ?_, ?_, ?_, ?_, ?_, ?_, ?_⟩, ?_, ?_, ?_⟩
  · intro s j kind img n hr hp hkind himg hn ha
    subst hkind himg hn
    have hrun : exec (.imgStage j) s = .next (s.orWait (doImgStage j.val)) := next_if_of_pos hr rfl
    refine ⟨fun hbad => ?_, fun hk hlen => ⟨fun hd => ?_, fun u v c k hd hu hv hwt => ?_⟩⟩
    · exact hrun.trans (next_orWait ha (doImgStage_of_bad hp hbad) (State.mbAnswer_waits _ _ _ _))
    · exact hrun.trans (next_orWait ha (doImgStage_of_active hp hk hlen hd) (State.mbAnswer_waits _ _ _ _))
    · refine hrun.trans (next_orWait ha (doImgStage_of_staged hp hk hlen hd hu hv) ?_)
      split <;> rw [State.mbAnswer_waits, hwt]
  · exact fun s j hr hp => ⟨fun hk => next_if_of_pos hr (doImgActivate_of_none hp hk), fun hk => next_if_of_pos hr (doImgActivate_of_firmware hp hk),
      fun hk => next_if_of_pos hr (doImgActivate_of_packet hp hk), fun u st k hk hu => next_if_of_pos hr (doImgActivate_of_software hp hk hu)⟩
  · intro s j kind hr hp hkind hk e u he hu
    have hrun : exec (.imgConfirm j) s = _ := next_if_of_pos hr (doImgConfirm_of_kind hp (hkind ▸ hk) hkind he hu)
    exact ⟨fun hb => by rw [hrun, hb]; rfl, fun hb => by rw [hrun, hb]; rfl⟩
  · exact fun s u j st k hr hu => next_if_of_pos hr (doCcReload_of_loaded hu)
  · exact fun s c hup hl hc hcc hb hp h1 h3 hlen => congrArg Host.Outcome.next (doTftpStage_of_idle hup hl hc hcc hb hp h1 h3 hlen)
  · intro s v hup hp hv
    have hdo : exec .storeAutoCommit s = _ := congrArg Host.Outcome.next (doAutoCommit_of_up hup hp hv)
    exact ⟨fun hm u hu => hdo.trans (next_if_of_pos hm (by rw [State.commitStore, hu]; rfl)), fun hm => hdo.trans (next_if_of_neg (by simp [hm]) rfl)⟩
  · exact fun s h => next_if_of_neg (by rcases h with h | h <;> simp [h]) rfl
  · exact fun s hup hp => next_if_of_pos ⟨hup, hp⟩ rfl
  · exact fun s e r => State.logWrite_of_clean
  · intro s k hk hsus
    refine ⟨_, next_if_of_pos (by simp [hk, hsus]) rfl, by simp, fun b hlo hhi => State.flashErase_within hlo hhi,
      fun b hw hb => State.flashErase_outside hw hb, rfl⟩
  · exact fun s h e r he hup hroom hslot => congrArg Host.Outcome.next (doHubEvent_of_logged he hup hroom hslot)
  · intro s a v i hi hr hw
    subst hi
    refine ⟨fun htop => next_if_of_pos hr (if_pos htop), fun htop => ⟨_, next_if_of_pos hr (if_neg (not_lt.mpr htop)), ?_, ?_, rfl⟩⟩
    · exact (tget_tset_same _ _ _ _ hw).trans (Nat.mod_eq_of_lt ((fld_lt v 32 16).trans_le (by decide)))
    · exact fun k hk => tget_tset_ne _ _ _ _ _ _ hw hk
  · exact fun s i => ⟨(clampInt_mem (calRange_ordered i).1 _).1, (clampInt_mem (calRange_ordered i).1 _).2, (clampInt_mem (calRange_ordered i).2 _).1,
      (clampInt_mem (calRange_ordered i).2 _).2⟩
  · exact fun s a hr => next_if_of_pos hr rfl
  · intro s i n hn
    have hdo : exec (.debugTokenExpire i) s = _ := congrArg Host.Outcome.next (doTokenExpire_of_scope hn)
    exact ⟨fun ht => hdo.trans (next_if_of_pos ht rfl), fun ht => hdo.trans (next_if_of_neg (not_le.mpr ht) rfl)⟩
  · intro s f bs v hv h0 hl hlo hhi hg hbs ha u hu
    refine next_orWait_or_stay ha ((doMgmtReceive_of_good hv h0 hl hlo hhi hg hbs).trans ?_)
    rcases hu with ⟨hb, rfl⟩ | ⟨hb, hm, rfl⟩ | ⟨hb, hm, rfl⟩
    · exact if_pos hb
    · exact (if_neg hb).trans (if_pos hm)
    · exact (if_neg hb).trans (if_neg hm)
  · exact fun s f ha hf => next_orWait ha (doMgmtReceive_of_bad hf) rfl
  · exact fun s u h bs h0 hl hr hu ha hwt => next_orWait ha (doMgmtTransmit_of_ready h0 hl hr hu) hwt
end

section
open Sys2Proof Sys2Proof.Machine

/-! ## The Ford link and the peer -/

namespace Sys2Proof.Machine

/-! ### Masks of bundles -/

theorem testBit_setBit (m b i : Nat) : (setBit m b).testBit i = (m.testBit i || decide (b = i)) := by
  rw [setBit, Nat.testBit_or, Nat.one_shiftLeft, Nat.testBit_two_pow]

theorem testBit_foldl_setBit (p : Nat → Prop) [DecidablePred p] (l : List Nat) (m i : Nat) :
    (l.foldl (fun m b => if p b then setBit m b else m) m).testBit i = (m.testBit i || decide (i ∈ l ∧ p i)) := by
  induction l generalizing m with
  | nil => simp
  | cons b l ih =>
    rw [List.foldl_cons, ih]
    by_cases hb : p b
    · by_cases hi : b = i
      · subst hi
        simp [hb, testBit_setBit]
      · simp [hb, testBit_setBit, hi, Ne.symm hi]
    · by_cases hi : i = b
      · subst hi
        simp [hb]
      · simp [hb, hi]

/-- The bundles that a mask of 16 leaves out. -/
theorem testBit_compl (n : Nat) {b : Nat} (hb : b < 16) : (65535 - n % 65536).testBit b = !n.testBit b := by
  have hsub : 65535 - n % 65536 = 2 ^ 16 - (n % 2 ^ 16 + 1) := by omega
  rw [hsub, Nat.testBit_two_pow_sub_succ (Nat.mod_lt _ (by decide)), Nat.testBit_mod_two_pow]
  simp [hb]

theorem FordState.testBit_overFailed (f : FordState) (failed : List (Nat × Nat)) (en b : Nat) :
    (f.overFailed failed en).testBit b =
      decide (b ∈ List.range 16 ∧ en.testBit b ∧ 2 < tget 0 f.sparesUsed b + (failed.filter fun e => e.1 = b).length) := by
  rw [FordState.overFailed, testBit_foldl_setBit, Nat.zero_testBit, Bool.false_or]

theorem FordState.overFailed_lt (f : FordState) (failed : List (Nat × Nat)) (en : Nat) : f.overFailed failed en < 65536 :=
  Nat.lt_pow_two_of_testBit _ (n := 16) fun i hi => by
    rw [FordState.testBit_overFailed]
    simp only [List.mem_range, decide_eq_false_iff_not]
    omega

/-- Where no bundle has used more than its spares, a training without failed lanes leaves none out. -/
theorem FordState.overFailed_nil {f : FordState} (hs : ∀ b, tget 0 f.sparesUsed b ≤ 2) (en : Nat) : f.overFailed [] en = 0 := by
  refine Nat.eq_of_testBit_eq fun i => ?_
  rw [FordState.testBit_overFailed, Nat.zero_testBit]
  exact decide_eq_false fun h => absurd h.2.2 (not_lt.mpr (hs i))

/-! ### Training -/

theorem eraseDups_of_nodup {α : Type} [BEq α] [LawfulBEq α] {l : List α} (hl : l.Nodup) : l.eraseDups = l := by
  induction l with
  | nil => rfl
  | cons x l ih =>
    obtain ⟨hx, hl⟩ := List.nodup_cons.mp hl
    rw [List.eraseDups_cons, List.filter_eq_self.mpr fun y hy => by simp [ne_of_mem_of_not_mem hy hx], ih hl]

/-- The bundles that a training tries. -/
def State.trained (s : State) (h : Half) : Nat := s.bundlesEnabled &&& (65535 - (s.ford.get h).fenced % 65536)

/-- The lanes that a training finds failed in those bundles. -/
def State.badLanes (s : State) (h : Half) (failed : List (Nat × Nat)) : List (Nat × Nat) :=
  failed.eraseDups.filter fun e => (s.trained h).testBit e.1

/-- The bundles that a training fences. -/
def State.goneBundles (s : State) (h : Half) (failed : List (Nat × Nat)) : Nat :=
  (s.ford.get h).overFailed (s.badLanes h failed) (s.trained h)

/-- The bundles that a training brings up. -/
def State.upBundles (s : State) (h : Half) (failed : List (Nat × Nat)) : Nat := s.trained h &&& (65535 - s.goneBundles h failed)

/-- A half's end of Ford after a training at a tick. -/
def FordState.trainedTo (f : FordState) (up gone now : Nat) : FordState :=
  { f with
    linkUp := decide (up ≠ 0), bundlesUp := up, fenced := f.fenced ||| gone, fatalSeen := false,
    credits := fordCredits, cellsIn := [], acksIn := [], noticesIn := [], timeIn := [], learnIn := [], heartbeatsIn := [],
    fatalIn := false, lastHeartbeat := none, repairing := [], laneErrors := [], headers := [], lastGood := now }

/-- A spare writes its count and the lane map alone. -/
def State.OnlySpares (s : State) (h : Half) (t : State) : Prop :=
  ∃ n m, t = { s with ford := s.ford.upd h fun f => { f with sparesUsed := n }, pv := { s.pv with fordLanes := m } }

section
variable {s : State} {h : Half}

theorem State.OnlySpares.refl (s : State) (h : Half) : s.OnlySpares h s := by
  refine ⟨(s.ford.get h).sparesUsed, s.pv.fordLanes, ?_⟩
  unfold Pair.upd Pair.get
  split <;> rfl

theorem State.OnlySpares.trans {t u : State} (ht : s.OnlySpares h t) (hu : t.OnlySpares h u) : s.OnlySpares h u := by
  obtain ⟨n, m, rfl⟩ := ht
  obtain ⟨n', m', rfl⟩ := hu
  refine ⟨n', m', ?_⟩
  unfold Pair.upd
  split <;> rfl

theorem State.onlySpares_useSpare (s : State) (h : Half) (b lane : Nat) : s.OnlySpares h (s.useSpare h b lane) := by
  refine ⟨tmod 0 (s.ford.get h).sparesUsed b (· + 1), (s.useSpare h b lane).pv.fordLanes, ?_⟩
  unfold State.useSpare State.updFord Pair.upd Pair.get
  dsimp only
  split <;> rfl

theorem State.onlySpares_foldl (l : List (Nat × Nat)) (s : State) (h : Half) :
    s.OnlySpares h (l.foldl (fun s e => s.useSpare h e.1 e.2) s) := by
  induction l generalizing s with
  | nil => exact .refl s h
  | cons e l ih => exact (s.onlySpares_useSpare h e.1 e.2).trans (ih _)

/-- A state in which a training of state `s` ends, from the state in which its spares are in place. -/
def State.fordTrainEnd (s : State) (h : Half) (up gone : Nat) (t : State) : State :=
  let t1 := t.updFord h fun f => f.trainedTo up gone s.ticks
  let t2 := { t1 with pv := { t1.pv with fordFenced := t1.pv.fordFenced.upd h fun n => n ||| gone } }
  t2.used.setReg (bFord h) R.ford_FORD_DELAY (BitVec.ofNat 64 (s.free 16).toNat)

theorem doFordTrained_eq {failed : List (Nat × Nat)} (ht : s.fordTrains = true) (hl : (s.ford.get h).linkUp = false) :
    doFordTrained h failed s = s.fordTrainEnd h (s.upBundles h failed) (s.goneBundles h failed)
      (((s.badLanes h failed).filter fun e => (s.upBundles h failed).testBit e.1).foldl (fun s e => s.useSpare h e.1 e.2) s) :=
  if_pos ⟨ht, hl⟩

theorem State.fordTrainEnd_of_onlySpares {t : State} (hs : s.OnlySpares h t) (up gone : Nat) :
    (∃ n, (s.fordTrainEnd h up gone t).ford = s.ford.upd h fun f => { f with sparesUsed := n }.trainedTo up gone s.ticks) ∧
      s.fordTrainEnd h up gone t =
        { s with csr := (s.fordTrainEnd h up gone t).csr, ford := (s.fordTrainEnd h up gone t).ford, pv := (s.fordTrainEnd h up gone t).pv,
                 fresh := s.fresh + 1 } := by
  obtain ⟨n, m, rfl⟩ := hs
  refine ⟨⟨n, ?_⟩, rfl⟩
  unfold State.fordTrainEnd State.updFord Pair.upd
  dsimp only
  split <;> rfl

/-- What a training leaves of a state: its end of Ford, Privet's maps and FORD_DELAY. -/
theorem doFordTrained_of_down {failed : List (Nat × Nat)} (ht : s.fordTrains = true) (hl : (s.ford.get h).linkUp = false) :
    ∃ t, doFordTrained h failed s = t ∧
      (∃ n, t.ford = s.ford.upd h fun f => { f with sparesUsed := n }.trainedTo (s.upBundles h failed) (s.goneBundles h failed) s.ticks) ∧
      t = { s with csr := t.csr, ford := t.ford, pv := t.pv, fresh := s.fresh + 1 } :=
  ⟨_, doFordTrained_eq ht hl, State.fordTrainEnd_of_onlySpares (State.onlySpares_foldl _ s h) _ _⟩

theorem doFordTrainingDone_of_up {failed : List (Nat × Nat)} (ht : s.fordTrains = true) (hd : s.dev.devState ≠ .start) :
    doFordTrainingDone h failed s = doFordTrained h failed s :=
  (if_pos ht).trans (if_neg fun hc => hd hc.1)

theorem State.trained_testBit {b : Nat} (hb : b < 16) :
    (s.trained h).testBit b = (s.bundlesEnabled.testBit b && !(s.ford.get h).fenced.testBit b) := by
  rw [State.trained, Nat.testBit_and, testBit_compl _ hb]

theorem State.upBundles_testBit (failed : List (Nat × Nat)) {b : Nat} (hb : b < 16) :
    (s.upBundles h failed).testBit b = ((s.trained h).testBit b && !(s.goneBundles h failed).testBit b) := by
  have hlt : s.goneBundles h failed < 65536 := FordState.overFailed_lt _ _ _
  rw [State.upBundles, Nat.testBit_and, ← Nat.mod_eq_of_lt hlt, testBit_compl _ hb, Nat.mod_eq_of_lt hlt]

/-- A training without failed lanes brings up every bundle that it tries. -/
theorem State.upBundles_nil (hs : ∀ b, tget 0 (s.ford.get h).sparesUsed b ≤ 2) : s.upBundles h [] = s.trained h := by
  have hlt : s.trained h < 65536 := Nat.and_lt_two_pow (n := 16) _ (by omega)
  have hgone : s.goneBundles h [] = 0 := FordState.overFailed_nil hs _
  rw [State.upBundles, hgone]
  exact (Nat.and_two_pow_sub_one_eq_mod _ 16).trans (Nat.mod_eq_of_lt hlt)

/-- The failed lanes of a bundle that a training tries, each counted once. -/
theorem State.length_badLanes {l : List (Fin 16 × Fin 64)} (hl : l.Nodup) {b : Fin 16} (hb : (s.trained h).testBit b.val = true) :
    ((s.badLanes h (l.map fun e => (e.1.val, e.2.val))).filter fun e => e.1 = b.val).length = (l.filter fun e => e.1 = b).length := by
  have hinj : Function.Injective fun e : Fin 16 × Fin 64 => (e.1.val, e.2.val) := fun x y hxy => by
    obtain ⟨h1, h2⟩ := Prod.mk.inj hxy
    exact Prod.ext (Fin.ext h1) (Fin.ext h2)
  rw [State.badLanes, eraseDups_of_nodup (hl.map hinj), List.filter_filter, List.filter_map, List.length_map]
  refine congrArg List.length (List.filter_congr fun e _ => ?_)
  by_cases he : e.1 = b
  · simp [he, hb]
  · simp [he, Fin.val_ne_of_ne he]

theorem State.goneBundles_testBit {l : List (Fin 16 × Fin 64)} (hl : l.Nodup) {b : Fin 16} (hb : (s.trained h).testBit b.val = true) :
    (s.goneBundles h (l.map fun e => (e.1.val, e.2.val))).testBit b.val =
      decide (2 < tget 0 (s.ford.get h).sparesUsed b.val + (l.filter fun e => e.1 = b).length) := by
  rw [State.goneBundles, FordState.testBit_overFailed, State.length_badLanes hl hb]
  simp [hb]

/-! ### Flits, lanes and the peer -/

theorem FordState.goodFlit_of_bad (f : FordState) {x : FordFlit} (hx : fordCrcOk x = false) : f.goodFlit x = false := by
  rw [FordState.goodFlit, hx, Bool.false_and]

theorem FordState.goodFlit_of_first {f : FordState} {x : FordFlit} (hx : fordCrcOk x = true) (hn : tget? f.headers x.bundle.val = none) :
    f.goodFlit x = true := by
  rw [FordState.goodFlit, hx, hn]
  rfl

/-- The errors of a lane in the last second, with those just found. -/
def State.laneWindow (s : State) (h : Half) (k errors : Nat) : List (Nat × Nat) :=
  (tget [] (s.ford.get h).laneErrors k).filter (fun e => decide (s.ticks < e.1 + secondTicks)) ++ [(s.ticks, errors)]

theorem le_laneWindow_sum (k e : Nat) : e ≤ (s.laneWindow h k e).foldl (fun n x => n + x.2) 0 := by
  rw [State.laneWindow, List.foldl_append]
  exact Nat.le_add_left _ _

theorem laneWindow_of_clean {k : Nat} (hc : tget [] (s.ford.get h).laneErrors k = []) (e : Nat) : s.laneWindow h k e = [(s.ticks, e)] := by
  rw [State.laneWindow, hc]
  rfl

theorem doLaneCheck_of_up {b l : Nat} (e : Nat) (hf : s.fordUp h = true) (hb : (s.ford.get h).bundlesUp.testBit b = true) (hl : l < 64) :
    doLaneCheck h b l e s =
      if decide (16 < (s.laneWindow h (64 * b + l) e).foldl (fun n x => n + x.2) 0) = true then
        (s.updFord h fun f => { f with laneErrors := tset [] f.laneErrors (64 * b + l) [] }).laneFails h b l
      else s.updFord h fun f =>
        { f with laneErrors := tset [] f.laneErrors (64 * b + l)
                   (if (s.laneWindow h (64 * b + l) e).all fun x => x.2 = 0 then [] else s.laneWindow h (64 * b + l) e) } :=
  if_pos ⟨hf, hb, hl⟩

/-- A repair that ends: the lane leaves the repairs as its spare is counted and mapped. -/
theorem useSpare_of_repaired {b lane : Nat} :
    (s.updFord h fun f => { f with repairing := f.repairing.filter fun e => e ≠ (b, lane) }).useSpare h b lane =
      { (s.updFord h fun f =>
          { f with repairing := f.repairing.filter (fun e => e ≠ (b, lane)), sparesUsed := tmod 0 f.sparesUsed b (· + 1) }) with
        pv := { s.pv with fordLanes := s.pv.fordLanes.upd h fun t => tput t (2 * b + tget 0 (s.ford.get h).sparesUsed b) lane } } := by
  unfold State.useSpare State.updFord Pair.upd Pair.get
  dsimp only
  split <;> rfl

theorem doPeerUp_of_met (hp : (s.ford.get h).peerUp = false) (ho : s.peerOk h = true) :
    doPeerUp h s = (if (s.ford.get h).lost then s.holdBasis h (s.retireBasis h) else s).updFord h fun f => { f with peerUp := true, lost := false } :=
  if_pos ⟨hp, ho⟩

theorem State.peerOk_of_silent {t0 : Nat} (ht : (s.ford.get h).lastHeartbeat = some t0) (hlate : t0 + 3000 < s.ticks) : s.peerOk h = false := by
  unfold State.peerOk
  dsimp only
  rw [ht]
  simp [hlate]

end

end Sys2Proof.Machine

/-- Settles O17: a training is `doFordTrained_of_down`, whose masks `State.goneBundles_testBit` reads bundle by bundle; the rest are branches of
their functions. -/
theorem fordLinkAndPeer : Obligations.FordLinkAndPeer := by
  refine ⟨⟨?_, ?_, ?_, ?_, fun f x => ⟨f.goodFlit_of_bad, FordState.goodFlit_of_first⟩, ?_, ?_, ?_, ?_, ?_⟩, ?_, ?_, ?_, ?_, fun s h t0 => State.peerOk_of_silent⟩
  · intro s h hd ht hl
    obtain ⟨t, hdo, ⟨n, hford⟩, hframe⟩ := doFordTrained_of_down (failed := []) ht hl
    refine ⟨t, congrArg Host.Outcome.next ((doFordTrainingDone_of_up ht hd).trans hdo), ?_⟩
    have hmine : t.ford.get h =
        { s.ford.get h with sparesUsed := n }.trainedTo (s.upBundles h []) (s.goneBundles h []) s.ticks := by rw [hford, pair_get_upd_same]
    rw [hmine]
    exact ⟨State.upBundles_nil, by simp [FordState.trainedTo], rfl, rfl, rfl, hframe, by rw [hford, pair_get_upd_other]⟩
  · intro s h l b hd ht hl hnd hen hfe
    obtain ⟨t, hdo, ⟨n, hford⟩, hframe⟩ := doFordTrained_of_down (failed := l.map fun e => (e.1.val, e.2.val)) ht hl
    have htry : (s.trained h).testBit b.val = true := by rw [State.trained_testBit b.isLt, hen, hfe]; rfl
    have hgone := State.goneBundles_testBit hnd htry
    have hup := State.upBundles_testBit (s := s) (h := h) (l.map fun e => (e.1.val, e.2.val)) b.isLt
    rw [htry, hgone] at hup
    refine ⟨t, congrArg Host.Outcome.next ((doFordTrainingDone_of_up ht hd).trans hdo), fun hover => ?_, fun hfew => ?_⟩ <;>
      rw [hford, pair_get_upd_same]
    · exact ⟨hup.trans (by simp [hover]), (Nat.testBit_or _ _ _).trans (by rw [hgone]; simp [hover])⟩
    · exact hup.trans (by simp [not_lt.mpr hfew])
  · exact fun s h l ht hd h9 => next_if_of_pos ht (if_pos ⟨hd, h9⟩)
  · intro s h x hf hb
    have hrun : exec (.fordFlitReceive h x) s = _ := next_if_of_pos ⟨hf, hb⟩ rfl
    exact ⟨fun hg => hrun.trans (next_if_of_pos hg rfl), fun hg hw => ⟨_, hrun.trans (next_if_of_neg (by simp [hg]) rfl),
      State.reg_bump_same s _ _ hw, rfl⟩⟩
  · exact fun s h hl hd => next_if_of_pos ⟨hl, hd⟩ rfl
  · exact fun s h hb ht => next_if_of_neg (by rintro ⟨-, h0 | hd⟩ <;> [exact hb h0; exact absurd hd (not_le.mpr ht)]) rfl
  · intro s h b l e hf hb hl he
    have hsum := le_laneWindow_sum (s := s) (h := h) (64 * b.val + l) e
    exact (congrArg Host.Outcome.next (doLaneCheck_of_up e hf hb hl)).trans (next_if_of_pos (decide_eq_true (he.trans_le hsum)) rfl)
  · intro s h b l e hf hb hl he hc
    have hsum : (s.laneWindow h (64 * b.val + l) e).foldl (fun n x => n + x.2) 0 = e := by rw [laneWindow_of_clean hc]; exact Nat.zero_add e
    refine ⟨_, (congrArg Host.Outcome.next (doLaneCheck_of_up e hf hb hl)).trans (next_if_of_neg (by rw [hsum]; simp [he]) rfl), ?_, ?_, rfl⟩ <;>
      rw [State.updFord_ford, pair_get_upd_same]
  · intro s h b l hr
    exact next_if_of_pos hr (congrArg (fun t : State => (t.bump (bFord h) R.ford_LANES_REPAIRED).report (.ford h) F.FORD_LANE_REPAIRED) useSpare_of_repaired)
  · exact fun s h hp ho => next_if_of_pos ⟨hp, ho⟩ rfl
  · exact fun s h hp ho => next_if_of_neg (by simp [ho]) rfl
  · exact fun s h hp ho hl => congrArg Host.Outcome.next ((doPeerUp_of_met hp ho).trans (by rw [hl]; rfl))
  · intro s h hp ho hl hw
    refine ⟨(s.holdBasis h (s.retireBasis h)).updFord h fun f => { f with peerUp := true, lost := false },
      congrArg Host.Outcome.next ((doPeerUp_of_met hp ho).trans (by rw [if_pos hl])), ?_, State.reg_setReg_same s _ _ _ hw, ?_, rfl⟩
    · rw [State.updFord_ford, pair_get_upd_same]
    · exact congrArg TableState.noticed (pair_get_upd_same _ _ _)
end

section
open Sys2Proof Sys2Proof.Machine

/-! ## Egress: selection, rewriting, transmission and links -/

namespace Sys2Proof.Machine

/-! ### What leaves the selected frames of a half (R475, R476) -/

/-- Both states hold the same selected frames in a half. -/
def State.SameSel (s : State) (h : Half) (t : State) : Prop := (t.sched.get h).sel = (s.sched.get h).sel

section
variable {s t u : State} {h : Half}

theorem State.SameSel.refl (s : State) (h : Half) : s.SameSel h s := rfl

theorem State.SameSel.trans (ht : s.SameSel h t) (hu : t.SameSel h u) : s.SameSel h u := Eq.trans hu ht

theorem State.SameSel.ite {c : Prop} [Decidable c] (ht : s.SameSel h t) (hu : s.SameSel h u) : s.SameSel h (if c then t else u) := by
  split
  · exact ht
  · exact hu

theorem State.sameSel_updSched {f : SchedState → SchedState} (hf : ∀ x, (f x).sel = x.sel) : s.SameSel h (s.updSched h f) := by
  rw [State.SameSel, State.updSched, pair_get_upd_same]
  exact hf _

theorem State.sameSel_foldl {f : State → Nat → State} (hf : ∀ s i, State.SameSel s h (f s i)) (l : List Nat) (s : State) :
    s.SameSel h (l.foldl f s) := by
  induction l generalizing s with
  | nil => exact .refl s h
  | cons i l ih => exact (hf s i).trans (ih _)

theorem State.sameSel_refreshQueue (was : List Nat) (h : Half) (s : State) (q : Nat) : s.SameSel h (State.refreshQueue was h s q) := by
  have hfirst (c : Bool) (v : Nat) : s.SameSel h (if c then s.updSched h fun x => { x with qS := tset 0 x.qS q v } else s) :=
    .ite (State.sameSel_updSched fun _ => rfl) (.refl s h)
  unfold State.refreshQueue
  exact .ite ((hfirst _ _).trans (State.sameSel_updSched fun _ => rfl))
    (.ite ((hfirst _ _).trans (State.sameSel_updSched fun _ => rfl)) (hfirst _ _))

theorem State.sameSel_refreshClass (was : List Nat) (h : Half) (s : State) (k : Nat) : s.SameSel h (State.refreshClass was h s k) := by
  have hfirst (c : Bool) (v : Nat) : s.SameSel h (if c then s.updSched h fun x => { x with cS := tset 0 x.cS k v } else s) :=
    .ite (State.sameSel_updSched fun _ => rfl) (.refl s h)
  unfold State.refreshClass
  exact .ite ((hfirst _ _).trans (State.sameSel_updSched fun _ => rfl))
    (.ite ((hfirst _ _).trans (State.sameSel_updSched fun _ => rfl)) (hfirst _ _))

theorem State.sameSel_schedRefresh (s : State) (h : Half) (lp : Nat) (was : List Nat) : s.SameSel h (s.schedRefresh h lp was) :=
  (State.sameSel_foldl (State.sameSel_refreshQueue was h) _ s).trans (State.sameSel_foldl (State.sameSel_refreshClass _ h) _ _)

theorem State.sameSel_setBucket (s : State) (h : Half) (l : Lvl) (i : Nat) (b : Bucket) : s.SameSel h (s.setBucket h l i b) :=
  State.sameSel_updSched fun _ => by cases l <;> rfl

theorem State.sameSel_chargeNode (s : State) (h : Half) (l : Lvl) (i : Nat) (lc : Int) : s.SameSel h (s.chargeNode h l i lc) :=
  State.sameSel_setBucket _ _ _ _ _

theorem State.sameSel_selectTags (s : State) (h : Half) (q lc : Nat) : s.SameSel h (s.selectTags h q lc) := by
  unfold State.selectTags
  dsimp only
  refine .trans ?_ (State.sameSel_chargeNode _ _ _ _ _)
  refine .trans ?_ (State.sameSel_chargeNode _ _ _ _ _)
  refine .trans ?_ (State.sameSel_chargeNode _ _ _ _ _)
  exact State.sameSel_updSched fun _ => rfl

theorem State.sameSel_setQueue (s : State) (h : Half) (q : Nat) (l : List QEntry) : s.SameSel h (s.setQueue h q l) := rfl

theorem State.sels_setSels (hw : Tbl.wf (s.sched.get h).sel = true) (lp : Nat) (l : List Sel) : (s.setSels h lp l).sels h lp = l := by
  rw [State.sels, State.setSels, State.updSched, pair_get_upd_same]
  exact tget_tset_same _ _ _ _ hw

theorem State.sels_updSched {f : SchedState → SchedState} (hf : ∀ x, (f x).sel = x.sel) (lp : Nat) : (s.updSched h f).sels h lp = s.sels h lp :=
  congrArg (tget [] · lp) (State.sameSel_updSched hf)

/-- A count of selections leaves the selected frames. -/
theorem State.sels_setSels_count (hw : Tbl.wf (s.sched.get h).sel = true) (lp n : Nat) (l : List Sel) :
    ((s.setSels h lp l).updSched h fun x => { x with count := tput x.count lp n }).sels h lp = l :=
  (State.sels_updSched (f := fun x => { x with count := tput x.count lp n }) (fun _ => rfl) lp).trans (State.sels_setSels hw lp l)

/-! ### Selection -/

/-- The selected frame that the head of a queue becomes. -/
def State.headSel (s : State) (h : Half) (q : Nat) (e : QEntry) : Sel :=
  { entry := e, q := q, lc := s.charged h (q / 16) (loutOf (q / 16) (s.chain h e.chain).outLen), lout := loutOf (q / 16) (s.chain h e.chain).outLen,
    sBefore := tget 0 (s.sched.get h).qS q, sampled := s.samples h (q / 16) (tget 0 (s.sched.get h).count (q / 16) + 1) (s.chain h e.chain).late,
    selDts := s.dts h, depth := depthOf (s.queue h q), bytes := none, ceApplied := false, stomp := false, started := false,
    readDone := false, ended := false }

/-- The state in which a selection has taken its charges and its head has left the queue. -/
def State.headGone (s : State) (h : Half) (q : Nat) (e : QEntry) (rest : List QEntry) : State :=
  ((s.selectTags h q (s.charged h (q / 16) (loutOf (q / 16) (s.chain h e.chain).outLen))).setQueue h q rest).schedRefresh h (q / 16)
    (s.nonEmpty h (q / 16))

theorem State.headGone_eq (q : Nat) (e : QEntry) (rest : List QEntry) :
    s.headGone h q e rest =
      s.withSched h (q / 16) fun s => (s.selectTags h q (s.charged h (q / 16) (loutOf (q / 16) (s.chain h e.chain).outLen))).setQueue h q rest :=
  rfl

theorem State.selectHead_eq (q : Nat) (e : QEntry) (rest : List QEntry) :
    s.selectHead h q e rest =
      ((s.headGone h q e rest).setSels h (q / 16) ((s.headGone h q e rest).sels h (q / 16) ++ [s.headSel h q e])).updSched h fun x =>
        { x with count := tput x.count (q / 16) (tget 0 (s.sched.get h).count (q / 16) + 1) } := rfl

theorem State.sameSel_headGone (s : State) (h : Half) (q : Nat) (e : QEntry) (rest : List QEntry) : s.SameSel h (s.headGone h q e rest) :=
  ((s.sameSel_selectTags h q _).trans (State.sameSel_setQueue _ h q rest)).trans (State.sameSel_schedRefresh _ h _ _)

/-- The frame of the head follows the frames selected before it. -/
theorem State.sels_selectHead (hw : Tbl.wf (s.sched.get h).sel = true) (q : Nat) (e : QEntry) (rest : List QEntry) :
    (s.selectHead h q e rest).sels h (q / 16) = (s.headGone h q e rest).sels h (q / 16) ++ [s.headSel h q e] := by
  have hgone : Tbl.wf ((s.headGone h q e rest).sched.get h).sel = true := (s.sameSel_headGone h q e rest).symm ▸ hw
  rw [State.selectHead_eq, State.sels_setSels_count hgone]

section
variable {lp k q : Nat} {e : QEntry} {rest : List QEntry} (hl : s.live (.sched h) = true)
include hl

theorem doSchedSelect_of_live : doSchedSelect h lp s =
    let r := s.schedRefresh h lp (s.nonEmpty h lp)
    if r.portReady h lp then
      match (r.pickClass h lp).bind fun k => r.pickQueue h k with
      | none => r
      | some q =>
        match r.queue h q with
        | [] => r
        | e :: rest =>
          if 64 ≤ lp ∧ r.vportReady h lp e.chain = false then r
          else if r.chainBad h e.chain then (r.withSched h lp fun s => s.setQueue h q rest).errorDrop h h lp e.chain
          else if r.egressMax h lp < loutOf lp (r.chain h e.chain).outLen then (r.dropHead h q e rest).bumpTx h lp txOversize 1
          else r.selectHead h q e rest
    else r := if_pos hl

variable {r : State} (hr : r = s.schedRefresh h lp (s.nonEmpty h lp)) (hc : r.pickClass h lp = some k) (hq : r.pickQueue h k = some q)
  (he : r.queue h q = e :: rest)
include hr hc hq he

theorem doSchedSelect_of_pick (hp : r.portReady h lp = true) : doSchedSelect h lp s =
    if 64 ≤ lp ∧ r.vportReady h lp e.chain = false then r
    else if r.chainBad h e.chain then (r.withSched h lp fun s => s.setQueue h q rest).errorDrop h h lp e.chain
    else if r.egressMax h lp < loutOf lp (r.chain h e.chain).outLen then (r.dropHead h q e rest).bumpTx h lp txOversize 1
    else r.selectHead h q e rest := by
  rw [doSchedSelect_of_live hl, ← hr]
  dsimp only
  rw [if_pos hp, hc, Option.bind_some, hq]
  dsimp only
  rw [he]

/-- A virtual port that cannot take its frame selects none (R471). -/
theorem doSchedSelect_of_full (h64 : 64 ≤ lp) (hv : r.vportReady h lp e.chain = false) : doSchedSelect h lp s = r := by
  by_cases hp : r.portReady h lp = true
  · exact (doSchedSelect_of_pick hl hr hc hq he hp).trans (if_pos ⟨h64, hv⟩)
  · rw [doSchedSelect_of_live hl, ← hr]
    exact if_neg hp

end

/-! ### Rewriting -/

theorem State.unreadable_of_uncorrectable {id : Nat} (hu : s.chainUncorrectable h id = true) : s.unreadable h id = true := by
  rw [State.unreadable, hu, Bool.true_or]

theorem State.rewriteBytes_of_plain {e : QEntry} (lp : Nat) (hv : e.vidEn = false) (hc : e.ce = false) :
    s.rewriteBytes h lp e = (s, padFrame (applyODesc (s.chain h e.chain).bytes (parseODesc (s.chain h e.chain).odesc).ops), false) := by
  simp only [State.rewriteBytes, hv, hc, Bool.false_eq_true, if_false]

section
variable {lp : Nat} {f : Sel} (hl : s.live (.sched h) = true) (hf : (s.sels h lp).find? Sel.raw = some f)
include hl hf

theorem doRewrite_of_readable (hu : s.unreadable h f.entry.chain = false) : doRewrite h lp s =
    (s.rewriteBytes h lp f.entry).1.setSels h lp
      (updFirst Sel.raw (fun x => { x with bytes := some (s.rewriteBytes h lp f.entry).2.1, ceApplied := (s.rewriteBytes h lp f.entry).2.2 })
        ((s.rewriteBytes h lp f.entry).1.sels h lp)) := by
  rw [doRewrite, hf]
  exact (if_neg (by simp [hl])).trans (if_neg (by simp [hu]))

theorem doRewrite_of_unreadable (hu : s.unreadable h f.entry.chain = true) :
    doRewrite h lp s = (s.setSels h lp (dropFirstSel Sel.raw (s.sels h lp))).errorDrop h h lp f.entry.chain := by
  rw [doRewrite, hf]
  exact (if_neg (by simp [hl])).trans (if_pos hu)

end

/-! ### Transmission -/

theorem State.ptpOp_of_none {d : ODesc} (hd : d.ops.find? EditOp.ptp = none) (p : PortIx) (g : List Byte) : s.ptpOp p d g = (s, g) := by
  rw [State.ptpOp, hd]

theorem doTransmit_of_pfcDue {lp : Nat} (hd : s.pfcDue h lp = true) : doTransmit h lp s = s := by
  unfold doTransmit
  dsimp only
  split
  · rfl
  · exact if_pos (.inr (.inr (.inr hd)))

section
variable {lp : Nat} {f : Sel} (hl : s.live (.sched h) = true) (hup : s.portUp h lp = true)
  (hb : ((s.sels h lp).any fun f => f.started && !f.ended) = false) (hf : (s.sels h lp).find? Sel.made = some f) (hd : s.pfcDue h lp = false)
include hl hup hb hf hd

theorem doTransmit_of_unreadable (hp : lp < 64 ∨ 66 ≤ lp) (hu : s.unreadable h f.entry.chain = true) :
    doTransmit h lp s = (s.setSels h lp (dropFirstSel Sel.made (s.sels h lp))).errorDrop h h lp f.entry.chain := by
  rw [doTransmit, hf]
  exact (if_neg (by simp [hb, hl, hup, hd])).trans ((if_neg (by omega)).trans (if_pos hu))

theorem doTransmit_of_readable (hp : lp < 64) (hu : s.unreadable h f.entry.chain = false) : doTransmit h lp s =
    let g := (s.firstBit h lp f).ptpOp (portOf h lp) (parseODesc (s.chain h f.entry.chain).odesc) (f.bytes.getD [])
    g.1.setSels h lp (updFirst Sel.made (fun x => { x with started := true, bytes := some (g.2 ++ leBytes 4 (crcFcs.of g.2)) }) (g.1.sels h lp)) := by
  rw [doTransmit, hf]
  exact (if_neg (by simp [hb, hl, hup, hd])).trans ((if_neg (by omega)).trans ((if_neg (by simp [hu])).trans (if_pos hp)))

end

section
variable {lp : Nat} {f : Sel} (hf : (s.sels h lp).find? Sel.reading = some f)
include hf

theorem doReadEnd_of_reading : doReadEnd h lp s =
    let s1 := s.setSels h lp
      (updFirst Sel.reading (fun x => { (if s.unreadable h f.entry.chain then x.spoil lp else x) with readDone := true }) (s.sels h lp))
    if s.chainUncorrectable h f.entry.chain then (s1.bumpPort h lp pcStomped).release h f.entry.chain
    else if s.unreadable h f.entry.chain then s1.errorDrop h h lp f.entry.chain else s1.release h f.entry.chain := by
  rw [doReadEnd, hf]

theorem doReadEnd_of_readable (hu : s.unreadable h f.entry.chain = false) : doReadEnd h lp s =
    (s.setSels h lp (updFirst Sel.reading (fun x => { x with readDone := true }) (s.sels h lp))).release h f.entry.chain := by
  have hc : s.chainUncorrectable h f.entry.chain = false := (Bool.or_eq_false_iff.mp hu).1
  rw [doReadEnd_of_reading hf, hu, hc]
  rfl

theorem doReadEnd_of_uncorrectable (hc : s.chainUncorrectable h f.entry.chain = true) : doReadEnd h lp s =
    ((s.setSels h lp (updFirst Sel.reading (fun x => { x.spoil lp with readDone := true }) (s.sels h lp))).bumpPort h lp pcStomped).release h
      f.entry.chain := by
  rw [doReadEnd_of_reading hf, State.unreadable_of_uncorrectable hc, hc]
  rfl

theorem doReadEnd_of_bad (hc : s.chainUncorrectable h f.entry.chain = false) (hb : s.chainBad h f.entry.chain = true) : doReadEnd h lp s =
    (s.setSels h lp (updFirst Sel.reading (fun x => { x.spoil lp with readDone := true }) (s.sels h lp))).errorDrop h h lp f.entry.chain := by
  have hu : s.unreadable h f.entry.chain = true := by rw [State.unreadable, hb, Bool.or_true]
  rw [doReadEnd_of_reading hf, hu, hc]
  rfl

end

theorem compl_ofNat_byte {n : Nat} (hn : n < 256) : ~~~(BitVec.ofNat 8 n) = BitVec.ofNat 8 (255 - n) := by
  apply BitVec.eq_of_toNat_eq
  rw [BitVec.toNat_not, BitVec.toNat_ofNat, BitVec.toNat_ofNat]
  omega

/-- The inverted bytes of a number are those of its complement. -/
theorem map_compl_leBytes (n w : Nat) : (leBytes n w).map (~~~ ·) = leBytes n (256 ^ n - 1 - w % 256 ^ n) := by
  induction n generalizing w with
  | zero => rfl
  | succ n ih =>
    have hpow : 0 < 256 ^ n := Nat.pow_pos (by decide)
    have hrest : w / 256 % 256 ^ n < 256 ^ n := Nat.mod_lt _ hpow
    have hsplit : 256 ^ (n + 1) - 1 - w % 256 ^ (n + 1) = 256 * (256 ^ n - 1 - w / 256 % 256 ^ n) + (255 - w % 256) := by
      rw [pow_succ', Nat.mod_mul]
      omega
    rw [leBytes, List.map_cons, ih, compl_ofNat_byte (Nat.mod_lt _ (by decide)), hsplit, leBytes]
    congr 2 <;> omega

theorem Sel.spoil_of_fcs {f : Sel} {lp : Nat} {g : List Byte} {w : Nat} (hp : lp < 64) (hs : f.stomp = false)
    (hb : f.bytes = some (g ++ leBytes 4 w)) :
    (f.spoil lp).stomp = true ∧ (f.spoil lp).bytes = some (g ++ leBytes 4 (2 ^ 32 - 1 - w % 2 ^ 32)) := by
  have hspoil : f.spoil lp = { f with stomp := true, bytes := some (g ++ (leBytes 4 w).map (~~~ ·)) } := by
    rw [Sel.spoil, if_neg (by simp [hs]), if_pos hp, hb]
    simp [length_leBytes]
  rw [hspoil, map_compl_leBytes]
  exact ⟨rfl, rfl⟩

section
variable {v : Fin 2} {f : Sel} (hl : s.live (.sched h) = true) (hf : (s.sels h (64 + v.val)).find? Sel.made = some f)
include hl hf

theorem doRingDeliver_of_unreadable (hu : s.unreadable h f.entry.chain = true) : doRingDeliver h v s =
    (s.setSels h (64 + v.val) (dropFirstSel Sel.made (s.sels h (64 + v.val)))).errorDrop h h (64 + v.val) f.entry.chain := by
  rw [doRingDeliver]
  dsimp only
  rw [hf]
  exact (if_neg (by simp [hl])).trans (if_pos hu)

variable (hu : s.unreadable h f.entry.chain = false) {r : RingFrame}
  (hr : r = ⟨f.q - 16 * (64 + v.val), (s.chain h f.entry.chain).late, (s.chain h f.entry.chain).crossed, (s.chain h f.entry.chain).inPort,
    (s.chain h f.entry.chain).stamp.toNat, f.bytes.getD []⟩)
include hu hr

theorem doRingDeliver_of_readable (hp : u = if v = 0 then (s.firstBit h (64 + v.val) f).ringPut h 0 ⟨.sched, srcTelem, false⟩ r
      else (s.firstBit h (64 + v.val) f).updPv fun x => { x with p129 := x.p129.upd h fun y => y.put r (s.dts h).toNat }) :
    doRingDeliver h v s = (u.setSels h (64 + v.val) (dropFirstSel Sel.made (u.sels h (64 + v.val)))).release h f.entry.chain := by
  subst hr hp
  rw [doRingDeliver]
  dsimp only
  rw [hf]
  exact (if_neg (by simp [hl])).trans (if_neg (by simp [hu]))

/-- P128: the record goes to ring 0. -/
theorem doRingDeliver_of_p128 (hv : v = 0) (hp : u = (s.firstBit h (64 + v.val) f).ringPut h 0 ⟨.sched, srcTelem, false⟩ r) :
    doRingDeliver h v s = (u.setSels h (64 + v.val) (dropFirstSel Sel.made (u.sels h (64 + v.val)))).release h f.entry.chain :=
  doRingDeliver_of_readable hl hf hu hr (by rw [if_pos hv, hp])

/-- P129: the record goes to Privet's ring. -/
theorem doRingDeliver_of_p129 (hv : v ≠ 0)
    (hp : u = (s.firstBit h (64 + v.val) f).updPv fun x => { x with p129 := x.p129.upd h fun y => y.put r (s.dts h).toNat }) :
    doRingDeliver h v s = (u.setSels h (64 + v.val) (dropFirstSel Sel.made (u.sels h (64 + v.val)))).release h f.entry.chain :=
  doRingDeliver_of_readable hl hf hu hr (by rw [if_neg hv, hp])

end

end

theorem P129Ring.put_last (x : P129Ring) (f : RingFrame) (d : Nat) :
    (x.put f d).recs.getLast? = some ((ringPlace p129Units x.head f.bytes.length).2.1, f.record d) := by
  simp only [P129Ring.put]
  exact List.getLast?_concat

/-! ### Links (R103, R104, R106) -/

section
variable {s : State} {p : PortIx}

theorem State.calApply_csr (s : State) (items : List Nat) : (s.calApply items).csr = s.csr := rfl

theorem State.reg_portReturns (h : Half) (lp : Nat) (b : Blk) (off : Nat) : (s.portReturns h lp).reg b off = s.reg b off := by
  unfold State.portReturns
  split <;> rfl

/-- LINK_STAT of a port that has come up in a mode. -/
def linkStatUp (m rf an lt fec : Nat) : DWord :=
  BitVec.ofNat 64 (m <<< 8 ||| rf <<< 6 ||| an <<< 4 ||| lt <<< 3 ||| 1 <<< 2 ||| fec <<< 1 ||| 1)

theorem linkStatUp_toNat {m rf an lt fec : Nat} (hm : m < 32) (hrf : rf < 2) (han : an < 2) (hlt : lt < 2) (hfec : fec < 2) :
    (linkStatUp m rf an lt fec).toNat = m * 2 ^ 8 + rf * 2 ^ 6 + an * 2 ^ 4 + lt * 2 ^ 3 + 1 * 2 ^ 2 + fec * 2 ^ 1 + 1 := by
  rw [linkStatUp, BitVec.toNat_ofNat]
  simp only [Nat.or_assoc]
  rw [or_shiftLeft_eq_add fec (by decide), or_shiftLeft_eq_add 1 (by omega), or_shiftLeft_eq_add lt (by omega),
    or_shiftLeft_eq_add an (by omega), or_shiftLeft_eq_add rf (by omega), or_shiftLeft_eq_add m (by omega)]
  omega

theorem linkStatUp_fields {m rf an lt fec : Nat} (hm : m < 32) (hrf : rf < 2) (han : an < 2) (hlt : lt < 2) (hfec : fec < 2) :
    bit (linkStatUp m rf an lt fec) 0 = true ∧ fld (linkStatUp m rf an lt fec) 8 5 = m := by
  have hv := linkStatUp_toNat hm hrf han hlt hfec
  refine ⟨testBit_eq_of_div (b := true) ?_, ?_⟩
  · change (linkStatUp m rf an lt fec).toNat / 1 % 2 = 1
    omega
  · rw [fld, bits_eq_div_mod]
    omega

/-- LINK_STAT as an attempt that ends in a mode writes it. -/
def State.upStat (s : State) (p : PortIx) (m : Nat) : DWord :=
  linkStatUp m (fld (s.reg (bPort p) R.port_LINK_STAT) 6 1) (b2n (bit (s.reg (bPort p) R.port_MAC_CFG) 34))
    (b2n (bit (s.reg (bPort p) R.port_MAC_CFG) 35 && trains m)) (b2n (decide (m ≠ 1) && fecOn (s.reg (bPort p) R.port_MAC_CFG)))

theorem State.upStat_fields {m : Nat} (hm : m < 32) : bit (s.upStat p m) 0 = true ∧ fld (s.upStat p m) 8 5 = m :=
  linkStatUp_fields hm (fld_lt _ _ _) (b2n_lt_two _) (b2n_lt_two _) (b2n_lt_two _)

section
variable (hl : s.live (.port p) = true) (hd : s.linkUp p = false) (hm : s.rfld (bPort p) R.port_MAC_CFG 24 5 ≠ 0)
  (hpll : s.pv.ioLost.contains (portPll p) = false)
include hl hd hm hpll

theorem doAttemptEnd_of_ready (ok : Bool) (m : Nat) : doAttemptEnd p ok m s =
    if s.badPortCfg p then s.checkPortCfg p
    else if (s.lanesOn p true).isEmpty then s
    else if ok ∧ advertised (fld (s.reg (bPort p) R.port_MAC_CFG) 24 5) (s.attemptMode p m) then
      ((if trains (s.attemptMode p m) then s.calApply (portItems p) else s).setReg (bPort p) R.port_LINK_STAT
        (s.upStat p (s.attemptMode p m))).portReturns (portHalf p) (portLocal p)
    else s :=
  if_neg (by
    rintro (h | h | h | h)
    · simp [hl] at h
    · simp [hd] at h
    · exact hm h
    · rw [h] at hpll
      cases hpll)

theorem doAttemptEnd_of_bad (hb : s.badPortCfg p = true) (ok : Bool) (m : Nat) :
    doAttemptEnd p ok m s = s.setRfld (bPort p) R.port_LINK_STAT 7 1 1 :=
  (doAttemptEnd_of_ready hl hd hm hpll ok m).trans ((if_pos hb).trans (if_pos hb))

variable (hb : s.badPortCfg p = false)
include hb

theorem doAttemptEnd_of_failed (m : Nat) : doAttemptEnd p false m s = s := by
  rw [doAttemptEnd_of_ready hl hd hm hpll, if_neg (by simp [hb])]
  split <;> simp

/-- Without auto-negotiation the mode is the configured one (R104). -/
theorem doAttemptEnd_of_up (han : bit (s.reg (bPort p) R.port_MAC_CFG) 34 = false) (hlanes : (s.lanesOn p true).isEmpty = false) (m : Nat)
    (hw : Tbl.wf s.csr = true) :
    (doAttemptEnd p true m s).linkUp p = true ∧
      (doAttemptEnd p true m s).rfld (bPort p) R.port_LINK_STAT 8 5 = s.rfld (bPort p) R.port_MAC_CFG 24 5 := by
  have hmode : s.attemptMode p m = fld (s.reg (bPort p) R.port_MAC_CFG) 24 5 := if_neg (by simp [han])
  have hadv : advertised (fld (s.reg (bPort p) R.port_MAC_CFG) 24 5) (s.attemptMode p m) = true := by simp [hmode, advertised]
  have hcsr : (if trains (s.attemptMode p m) then s.calApply (portItems p) else s).csr = s.csr := by
    split
    · exact State.calApply_csr s _
    · rfl
  have hfields := State.upStat_fields (s := s) (p := p) (m := s.attemptMode p m) (hmode ▸ fld_lt _ 24 5)
  have hreg : (doAttemptEnd p true m s).reg (bPort p) R.port_LINK_STAT = s.upStat p (s.attemptMode p m) := by
    rw [doAttemptEnd_of_ready hl hd hm hpll, if_neg (by simp [hb]), if_neg (by simp [hlanes]), if_pos ⟨rfl, hadv⟩, State.reg_portReturns,
      State.reg_setReg_same _ _ _ _ (hcsr ▸ hw)]
  rw [State.linkUp, State.rfld, hreg]
  exact ⟨hfields.1, hfields.2.trans hmode⟩

end

end

end Sys2Proof.Machine

/-- Settles O20: the branches of selection, rewriting, transmission and delivery, with `State.sels_selectHead`, `Sel.spoil_of_fcs`,
`P129Ring.put_last` and `doAttemptEnd_of_up`. -/
theorem framesLeave : Obligations.FramesLeave := by
  refine ⟨⟨?_, ?_, ?_, fun n => ⟨?_, rfl⟩⟩, ⟨?_, ?_, ?_, ?_⟩, ⟨?_, ?_, ?_, ?_, ?_, ?_, ?_, ?_, ?_, ?_⟩, ?_, ?_, ?_, ?_, ?_⟩
  · intro s r h p k q e rest ha hl hr hp hc hq he hv
    have hdo : exec (.schedSelect h p) s = .next (doSchedSelect h p.val s) := congrArg Host.Outcome.next (State.checked_unarmed ha _)
    have hsel := (doSchedSelect_of_pick hl hr hc hq he hp).trans (if_neg (by rintro ⟨h64, hf⟩; simp [hv h64] at hf))
    refine ⟨fun hb => ?_, fun hb hfit => ?_, fun hb hlong => ?_⟩ <;> rw [hdo, hsel]
    · rw [if_pos hb]
    · rw [if_neg (by simp [hb]), if_neg (not_lt.mpr hfit)]
    · rw [if_neg (by simp [hb]), if_pos hlong]
  · exact fun s r h p k q e rest ha hl hr hc hq he h64 hv =>
      congrArg Host.Outcome.next ((State.checked_unarmed ha _).trans (doSchedSelect_of_full hl hr hc hq he h64 hv))
  · exact fun s h q e rest hw => ⟨s.headSel h q e, rfl, rfl, rfl, rfl, rfl, (State.sels_selectHead hw q e rest).trans (by rw [State.headGone_eq])⟩
  · rw [loutOf, if_pos (by decide)]
    split <;> rfl
  · exact fun s h p f hl hf hu => congrArg Host.Outcome.next (doRewrite_of_readable hl hf hu)
  · exact fun s h p f hl hf hu => congrArg Host.Outcome.next (doRewrite_of_unreadable hl hf hu)
  · exact fun s h lp id hu hb => ⟨State.unreadable_of_uncorrectable hu, rfl⟩
  · exact fun s h lp e hv hc => State.rewriteBytes_of_plain lp hv hc
  · intro s h p f hp hl hup hb hf hd hu hptp
    refine ⟨_, congrArg Host.Outcome.next (doTransmit_of_readable hl hup hb hf hd hp hu), ?_⟩
    rw [State.ptpOp_of_none hptp]
  · exact fun s h p f hp hl hup hb hf hd hu => congrArg Host.Outcome.next (doTransmit_of_unreadable hl hup hb hf hd hp hu)
  · exact fun s h p hd => congrArg Host.Outcome.next (doTransmit_of_pfcDue hd)
  · exact fun s h p f hf => ⟨fun hu => congrArg Host.Outcome.next (doReadEnd_of_readable hf hu),
      fun hc => congrArg Host.Outcome.next (doReadEnd_of_uncorrectable hf hc), fun hc hb => congrArg Host.Outcome.next (doReadEnd_of_bad hf hc hb)⟩
  · exact fun f lp g w hp hs hb => Sel.spoil_of_fcs hp hs hb
  · exact fun s h p hp => next_if_of_neg (fun hc => hp hc.1) rfl
  · intro s t h f r ha hl hf hu hr ht hwt
    subst ht
    exact next_orWait ha (doRingDeliver_of_p129 (v := 1) hl hf hu hr (by decide) rfl) hwt
  · intro s t h f r ha hl hf hu hr ht
    subst ht
    exact next_orWait_or_stay ha (doRingDeliver_of_p128 (v := 0) hl hf hu hr rfl rfl)
  · intro s h v f ha hl hf hu t ht hwt
    subst ht
    exact next_orWait ha (doRingDeliver_of_unreadable hl hf hu) hwt
  · exact fun x f d => ⟨rfl, x.put_last f d, rfl⟩
  · intro s p m hw hl hd hm hpll
    refine ⟨fun hb => ⟨_, congrArg Host.Outcome.next (doAttemptEnd_of_bad hl hd hm hpll hb true m.toNat), ?_, ?_, rfl⟩,
      fun hb => congrArg Host.Outcome.next (doAttemptEnd_of_failed hl hd hm hpll hb m.toNat),
      fun hb han hlanes => ⟨_, rfl, doAttemptEnd_of_up hl hd hm hpll hb han hlanes m.toNat hw⟩⟩
    · exact (congrArg (bit · 7) (State.reg_setReg_same s _ _ _ hw)).trans (bit_setFld_same _ 7 true (by decide))
    · exact (congrArg (bit · 0) (State.reg_setReg_same s _ _ _ hw)).trans ((bit_setFld_ne _ _ _ _ _ (by decide)).trans hd)
  · exact fun s p hup _ => next_if_of_pos hup rfl
  · exact fun s p hd => next_if_of_neg (by simp [hd]) rfl
  · intro s p on hw ha
    exact ⟨_, next_if_of_pos (.inl ha) rfl, (congrArg (bit · 6) (State.reg_setReg_same s _ _ _ hw)).trans (bit_setFld_same _ 6 on (by decide)), rfl⟩
  · exact fun s h i hi => next_if_of_pos (show i.val / 16 < 68 by omega) rfl
end

section
open Sys2Proof Sys2Proof.Machine

/-! ## The HBM controllers' work and the power of units -/

namespace Sys2Proof.Machine

/-! ### Recording a fault leaves HBM -/

section
variable {s : State} {h : Half}

theorem State.notify_hbm (s : State) (u : UnitId) (code : Nat) (c : FClass) : (s.notify u code c).hbm = s.hbm := by
  obtain ⟨tiles, cc, e⟩ := s.notify_frame u code c
  rw [e]

theorem State.hubsRecord_hbm (s : State) (hs : List Half) (f : Found) (c : FClass) : (s.hubsRecord hs f c).hbm = s.hbm := by
  obtain ⟨csr, hubs, e⟩ := s.hubsRecord_frame hs f c
  rw [e]

theorem State.hbm_foldl_updUnit (us : List UnitId) (g : UnitDyn → UnitDyn) (s : State) :
    (us.foldl (fun s v => s.updUnit v g) s).hbm = s.hbm := by
  induction us generalizing s with
  | nil => rfl
  | cons u us ih => exact ih (s.updUnit u g)

theorem State.ite_hbm {c : Prop} [Decidable c] {t u : State} (ht : t.hbm = s.hbm) (hu : u.hbm = s.hbm) : (if c then t else u).hbm = s.hbm := by
  split
  · exact ht
  · exact hu

theorem State.openRecord_hbm (s : State) (f : Found) : (s.openRecord f).hbm = s.hbm := by
  unfold State.openRecord
  split
  · rfl
  · next c _ =>
    have hrec := s.hubsRecord_hbm (hubsOf f.unit) f c
    exact (State.notify_hbm _ _ _ _).trans (State.ite_hbm hrec ((State.hbm_foldl_updUnit _ _ _).trans hrec))

theorem State.found_hbm (s : State) (u : UnitId) (code : Nat) (d : DWord) : (s.found u code d).1.hbm = s.hbm := by
  unfold State.found
  split <;> rfl

/-- A fault's record leaves what HBM holds. -/
theorem State.report_hbm (s : State) (u : UnitId) (code d : Nat) : (s.report u code d).hbm = s.hbm :=
  (State.openRecord_hbm _ _).trans (s.found_hbm u code _)

/-! ### Parts that may be performed (R505) -/

section
variable {x : HbmState} {p now i : Nat} {q : HbmPart} (hm : x.mayPerform p now i = true) (hq : (tget [] x.parts p)[i]? = some q)
include hm hq

theorem HbmState.mayPerform_cases :
    x.eligible p i = true ∧
      (q.write || (if q.promoted now then (x.mainReads p now i).all fun r => x.mayPass now q.addr r else (x.allReads p now).isEmpty)) = true := by
  unfold HbmState.mayPerform at hm
  rw [hq] at hm
  exact Bool.and_eq_true_iff.mp hm

/-- A part that may be performed is held by nothing. -/
theorem HbmState.holds_of_mayPerform : x.holds q.write q.addr q.len = false := by
  have he := (HbmState.mayPerform_cases hm hq).1
  unfold HbmState.eligible at he
  dsimp only at he
  rw [hq] at he
  simpa using (Bool.and_eq_true_iff.mp he).2

/-- A STREAM read goes only where no read of MAIN precedence waits. -/
theorem HbmState.allReads_of_mayPerform (hw : q.write = false) (hp : q.promoted now = false) : x.allReads p now = [] := by
  have hturn := (HbmState.mayPerform_cases hm hq).2
  rw [hw, hp] at hturn
  exact List.isEmpty_iff.mp hturn

end

theorem HbmState.mem_allReads {x : HbmState} {p now j : Nat} {r : HbmPart} (hr : (tget [] x.parts p)[j]? = some r) (he : x.eligible p j = true)
    (hw : r.write = false) (hp : r.promoted now = true) : r ∈ x.allReads p now := by
  obtain ⟨hj, -⟩ := List.getElem?_eq_some_iff.mp hr
  refine List.mem_filterMap.mpr ⟨j, List.mem_range.mpr hj, ?_⟩
  rw [hr]
  exact if_pos ⟨he, hp, by simp [hw]⟩

theorem doHbmAccess_of_held {p i : Nat} (ecc : List EccOutcome) (parity : Nat) (hm : (s.hbm.get h).mayPerform p s.ticks i = false) :
    doHbmAccess h p i ecc parity s = s := by
  unfold doHbmAccess
  dsimp only
  split
  · rfl
  · exact if_neg (by simp [hm])

section
variable {p i : Nat} {q : HbmPart} (hq : (tget [] (s.hbm.get h).parts p)[i]? = some q)
include hq

theorem doHbmAccess_of_asleep (ecc : List EccOutcome) (parity : Nat) (ha : s.hbmAwake h (hbmStack q.addr) = false) :
    doHbmAccess h p i ecc parity s = s := by
  unfold doHbmAccess
  dsimp only
  rw [hq]
  exact if_neg (by simp [ha])

variable (hm : (s.hbm.get h).mayPerform p s.ticks i = true) (ha : s.hbmAwake h (hbmStack q.addr) = true) {u : State}
  (hu : u = s.updHbm h fun x => { x with parts := tset [] x.parts p ((tget [] x.parts p).eraseIdx i) })
include hm ha hu

/-- The part leaves its queue, a parity error comes first, and then it is performed. -/
theorem doHbmAccess_of_performed (ecc : List EccOutcome) (parity : Nat) : doHbmAccess h p i ecc parity s =
    let v := if parity = 0 then u else u.parityError h (hbmStack q.addr) (decide (parity = 2))
    if parity = 2 then v.finishPart h q (PartData.failed q.len)
    else
      let d := if q.write then v.performWrite h q else v.performRead h q ecc
      d.1.finishPart h q d.2 := by
  subst hu
  unfold doHbmAccess
  dsimp only
  rw [hq]
  exact if_pos ⟨ha, hm⟩

theorem doHbmAccess_of_write (ecc : List EccOutcome) (hw : q.write = true) :
    doHbmAccess h p i ecc 0 s = (u.performWrite h q).1.finishPart h q (u.performWrite h q).2 := by
  rw [doHbmAccess_of_performed hq hm ha hu, hw]
  rfl

theorem doHbmAccess_of_read (ecc : List EccOutcome) (hw : q.write = false) :
    doHbmAccess h p i ecc 0 s = (u.performRead h q ecc).1.finishPart h q (u.performRead h q ecc).2 := by
  rw [doHbmAccess_of_performed hq hm ha hu, hw]
  rfl

section
variable {v : State} (hv : v = u.fault (.hbmc h (hbmStack q.addr)) F.HBM_PARITY)
include hv

theorem doHbmAccess_of_repeated_write (ecc : List EccOutcome) (hw : q.write = true) :
    doHbmAccess h p i ecc 1 s = (v.performWrite h q).1.finishPart h q (v.performWrite h q).2 := by
  subst hv
  rw [doHbmAccess_of_performed hq hm ha hu, hw]
  rfl

theorem doHbmAccess_of_repeated_read (ecc : List EccOutcome) (hw : q.write = false) :
    doHbmAccess h p i ecc 1 s = (v.performRead h q ecc).1.finishPart h q (v.performRead h q ecc).2 := by
  subst hv
  rw [doHbmAccess_of_performed hq hm ha hu, hw]
  rfl

/-- A repeat that fails ends the part with ERROR (R516). -/
theorem doHbmAccess_of_failed_repeat (ecc : List EccOutcome) :
    doHbmAccess h p i ecc 2 s = ((v.fault (.hbmc h (hbmStack q.addr)) F.HBM_LINK).updHbm h fun x =>
      { x with linkBad := x.linkBad.filter (· ≠ (hbmStack q.addr).val) }).finishPart h q (PartData.failed q.len) := by
  subst hv
  rw [doHbmAccess_of_performed hq hm ha hu]
  rfl

end

end

theorem Response.partDone_write (r : Response) {q : HbmPart} (d : PartData) (hw : q.write = true) : (r.partDone q d).bytes = r.bytes := by
  rw [Response.partDone]
  exact if_pos hw

section
variable {r : HbmReq} {a n : Nat} {bs : List Byte}

theorem State.hbmUnitRead_waits (hw : s.hbmWaits h r false a n = true) :
    s.hbmUnitRead h r a n = ({ s with waits := true }, ⟨List.replicate n 0, [], true⟩) := if_pos hw

theorem State.hbmUnitWrite_waits (hw : s.hbmWaits h r true a bs.length = true) : s.hbmUnitWrite h r a bs = ({ s with waits := true }, false) :=
  if_pos hw

/-- A part that a stop ends does not wait. -/
theorem State.hbmStop_of_waits {write : Bool} (hw : s.hbmWaits h r write a n = true) : s.hbmStop h r.cls write a = none := by
  unfold State.hbmWaits at hw
  exact Option.isNone_iff_eq_none.mp (Bool.and_eq_true_iff.mp (Bool.and_eq_true_iff.mp hw).1).1

end

/-! ### Writes to the array (R504, R677) -/

section
variable {x : HbmState} {p now : Nat}

theorem HbmState.drainNext_of_none (he : x.nextEntry p now = none) : x.drainNext p now = x := by
  rw [HbmState.drainNext, he]

theorem HbmState.drainNext_of_some {e : WqEntry} (he : x.nextEntry p now = some e) : x.drainNext p now = x.drainGran p e.gran := by
  rw [HbmState.drainNext, he]

theorem HbmState.drainGran_of_none {g : Nat} (he : wqFind (tget [] x.wq p) g = none) : x.drainGran p g = x := by
  rw [HbmState.drainGran, he]

theorem HbmState.drainGran_of_some {g : Nat} {e : WqEntry} (he : wqFind (tget [] x.wq p) g = some e) :
    x.drainGran p g = (x.toArray e).setWq p ((tget [] x.wq p).filter fun f => f.gran ≠ g) := by
  rw [HbmState.drainGran, he]

/-- The next entry has its turn, and has MAIN precedence where one of the others that have theirs does. -/
theorem HbmState.nextEntry_spec {e : WqEntry} (he : x.nextEntry p now = some e) :
    e ∈ tget [] x.wq p ∧ x.entryTurn p now e = true ∧
      (e.promoted now = false → ∀ f ∈ tget [] x.wq p, x.entryTurn p now f = true → f.promoted now = false) := by
  unfold HbmState.nextEntry at he
  dsimp only at he
  split at he
  · next f hf =>
    obtain rfl := Option.some.inj he
    obtain ⟨hmem, hturn⟩ := List.mem_filter.mp (List.mem_of_find?_eq_some hf)
    have hprom := List.find?_some hf
    exact ⟨hmem, hturn, fun hp => absurd hprom (by simp [hp])⟩
  · next hnone =>
    obtain ⟨hmem, hturn⟩ := List.mem_filter.mp (List.mem_of_mem_head? he)
    exact ⟨hmem, hturn, fun _ f hf hft => by simpa using List.find?_eq_none.mp hnone f (List.mem_filter.mpr ⟨hf, hft⟩)⟩

theorem HbmState.toArray_wq (x : HbmState) (e : WqEntry) : (x.toArray e).wq = x.wq := by
  unfold HbmState.toArray
  split <;> rfl

section
variable (hw : Tbl.wf x.wq = true)
include hw

theorem HbmState.wq_setWq (p : Nat) (q : List WqEntry) : tget [] (x.setWq p q).wq p = q := tget_tset_same _ _ _ _ hw

theorem HbmState.wq_wf_drainGran (p g : Nat) : Tbl.wf (x.drainGran p g).wq = true := by
  cases hf : wqFind (tget [] x.wq p) g with
  | none => rwa [HbmState.drainGran_of_none hf]
  | some e =>
    rw [HbmState.drainGran_of_some hf]
    exact tset_wf _ _ _ _ (x.toArray_wq e ▸ hw)

/-- What a drain of a granule leaves in the queue: the entries of other granules. -/
theorem HbmState.mem_wq_drainGran {g : Nat} {f : WqEntry} (hf : f ∈ tget [] (x.drainGran p g).wq p) : f ∈ tget [] x.wq p ∧ f.gran ≠ g := by
  cases hq : wqFind (tget [] x.wq p) g with
  | none =>
    rw [HbmState.drainGran_of_none hq] at hf
    exact ⟨hf, by simpa using List.find?_eq_none.mp hq f hf⟩
  | some e =>
    rw [HbmState.drainGran_of_some hq, HbmState.wq_setWq (x.toArray_wq e ▸ hw)] at hf
    simpa using List.mem_filter.mp hf

end

theorem HbmState.mem_wq_foldl_drainGran {l : List WqEntry} (hw : Tbl.wf x.wq = true) {f : WqEntry}
    (hf : f ∈ tget [] (l.foldl (fun x e => x.drainGran p e.gran) x).wq p) : f ∈ tget [] x.wq p ∧ ∀ e ∈ l, f.gran ≠ e.gran := by
  induction l generalizing x with
  | nil => exact ⟨hf, by simp⟩
  | cons e l ih =>
    obtain ⟨hmem, hrest⟩ := ih (HbmState.wq_wf_drainGran hw p e.gran) hf
    obtain ⟨hmem, hne⟩ := HbmState.mem_wq_drainGran hw hmem
    exact ⟨hmem, List.forall_mem_cons.mpr ⟨hne, hrest⟩⟩

/-- What was accepted 2 µs ago has left the queue, but for a row under repair (R504). -/
theorem HbmState.mem_wq_drainOld (hw : Tbl.wf x.wq = true) {e : WqEntry} (he : e ∈ tget [] (x.drainOld p now).wq p) :
    now < e.since + 3000 ∨ x.repairing.contains (hbmRowKey (e.gran * 32)) = true := by
  obtain ⟨hmem, hgone⟩ := HbmState.mem_wq_foldl_drainGran hw he
  by_contra hc
  obtain ⟨hsince, hrep⟩ := not_or.mp hc
  exact hgone e (List.mem_filter.mpr ⟨hmem, by simpa using ⟨not_lt.mp hsince, by simpa using hrep⟩⟩) rfl

end

/-! ### Refresh, power-down, scrub and repair -/

section
variable {p b : Nat}

theorem doHbmRefresh_of_idle (hb : b < 32) (hi : (s.hbm.get h).bankIdle p b = true) : doHbmRefresh h p b s = s.updHbm h fun x =>
    { x.wake p with owed := tset 0 x.owed (64 * b + p) 0, openRow := tset none x.openRow (64 * b + p) none } :=
  (if_neg (not_le.mpr hb)).trans (if_pos hi)

variable (hb : b < 32) (hi : (s.hbm.get h).bankIdle p b = false)
include hb hi

theorem doHbmRefresh_of_postponed (ho : tget 0 (s.hbm.get h).owed (64 * b + p) < 7) : doHbmRefresh h p b s = s.updHbm h fun x =>
    { x.wake p with owed := tset 0 x.owed (64 * b + p) (tget 0 (s.hbm.get h).owed (64 * b + p) + 1) } :=
  (if_neg (not_le.mpr hb)).trans ((if_neg (by simp [hi])).trans (if_neg (by omega)))

theorem doHbmRefresh_of_forced (ho : 7 ≤ tget 0 (s.hbm.get h).owed (64 * b + p)) : doHbmRefresh h p b s = (s.updHbm h fun x =>
    { x.wake p with owed := tset 0 x.owed (64 * b + p) (tget 0 (s.hbm.get h).owed (64 * b + p)),
                    openRow := tset none x.openRow (64 * b + p) none }).bump (bHbmc h (Fin.ofNat 2 (p / 32))) R.hbmc_REF_FORCED :=
  (if_neg (not_le.mpr hb)).trans ((if_neg (by simp [hi])).trans (if_pos (by omega)))

end

theorem doHbmPowerDown_of_idle {p : Nat} (hup : s.hbmUp h (Fin.ofNat 2 (p / 32)) = true)
    (hen : bit (s.reg (bHbmc h (Fin.ofNat 2 (p / 32))) R.hbmc_HBMC_CFG) 2 = true) (hparts : tget [] (s.hbm.get h).parts p = [])
    (hwq : tget [] (s.hbm.get h).wq p = []) (ho : (s.hbm.get h).noOwed p = true) (hd : p ∉ (s.hbm.get h).down) :
    doHbmPowerDown h p s =
      if s.pdIdle (bHbmc h (Fin.ofNat 2 (p / 32))) ≤ (s.hbm.get h).cycle - tget 0 (s.hbm.get h).idleFrom p then
        (s.updHbm h fun x => { x with down := x.down ++ [p], downAt := tset 0 x.downAt p s.ticks }).bump
          (bHbmc h (Fin.ofNat 2 (p / 32))) R.hbmc_PD_ENTRIES
      else s := by
  rw [doHbmPowerDown]
  simp only [hup, hen, hparts, hwq, ho, List.isEmpty_nil, true_and, List.contains_iff_mem, hd, not_false_eq_true, and_true]

section
variable {st : Fin 2}

theorem doHbmScrub_of_held (e : EccOutcome)
    (hw : s.scrubDue h st = false ∨ s.scrubWaits h (scrubAddr st (tget 0 (s.hbm.get h).scrubNext st.val)) = true) : doHbmScrub h st e s = s := by
  unfold doHbmScrub
  dsimp only
  split
  · next hc => exact if_pos (hw.resolve_left (by simp [hc.2.2]))
  · rfl

theorem doHbmScrub_of_due {a : Nat} (e : EccOutcome) (hen : bit (s.reg (bHbmc h st) R.hbmc_HBMC_CFG) 3 = true) (hup : s.hbmUp h st = true)
    (ha : a = scrubAddr st (tget 0 (s.hbm.get h).scrubNext st.val)) (hd : s.scrubDue h st = true) (hw : s.scrubWaits h a = false)
    (hp : (s.hbm.get h).poison.contains (a / 32) = false) (hr : (s.hbm.get h).retired.contains (hbmRowKey a) = false) :
    doHbmScrub h st e s = (((s.updHbm h fun x => x.touch s.ticks a).granEcc h (a / 32) e).granFails h (a / 32) e).scrubNext h st := by
  subst ha
  rw [doHbmScrub]
  dsimp only
  rw [if_pos ⟨hen, hup, hd⟩, if_neg (by simp [hw]), if_neg (by rw [hp, hr]; simp)]

theorem State.scrubNext_updHbm {f : HbmState → HbmState} {k v : Nat} (hw : Tbl.wf (s.hbm.get h).scrubNext = true)
    (hf : (f (s.hbm.get h)).scrubNext = tset 0 (s.hbm.get h).scrubNext k v) : tget 0 ((s.updHbm h f).hbm.get h).scrubNext k = v := by
  rw [State.updHbm_hbm, pair_get_upd_same, hf]
  exact tget_tset_same _ _ _ _ hw

theorem State.scrubNext_of_more (hi : tget 0 (s.hbm.get h).scrubNext st.val + 1 < stackGrans) :
    s.scrubNext h st = s.updHbm h fun x => { x with scrubNext := tset 0 x.scrubNext st.val (tget 0 (s.hbm.get h).scrubNext st.val + 1) } :=
  if_pos hi

theorem State.scrubNext_of_last (hi : stackGrans ≤ tget 0 (s.hbm.get h).scrubNext st.val + 1) :
    s.scrubNext h st = (s.updHbm h fun x =>
      { x with scrubNext := tset 0 x.scrubNext st.val 0
               scrubFrom := tset 0 x.scrubFrom st.val (tget 0 x.scrubFrom st.val + s.scrubPeriod (bHbmc h st)) }).bump (bHbmc h st)
        R.hbmc_SCRUB_PASSES :=
  if_neg (not_lt.mpr hi)

/-- What HBM holds once a row has been repaired. -/
def HbmState.rowRepaired (x : HbmState) (k : RowKey) : HbmState :=
  { x with
    repairing := x.repairing.filter (· ≠ k)
    repaired := if x.repaired.contains k then x.repaired else x.repaired ++ [k]
    awaiting := if x.awaiting.contains k then x.awaiting else x.awaiting ++ [k]
    sparesUsed := tmod 0 x.sparesUsed (64 * k.bank + k.p) (· + 1)
    correctedAt := x.correctedAt.filter fun c => hbmRowKey (c.1 * 32) ≠ k }

theorem doRowRepairDone_hbm {k : RowKey} (hk : (s.hbm.get h).repairing.contains k = true) :
    (doRowRepairDone h k s).hbm.get h = (s.hbm.get h).rowRepaired k := by
  have hdo : (doRowRepairDone h k s).hbm = s.hbm.upd h fun x => x.rowRepaired k := by
    unfold doRowRepairDone
    rw [if_pos hk]
    exact State.report_hbm _ _ _ _
  rw [hdo, pair_get_upd_same]

theorem HbmState.rowRepaired_spec (x : HbmState) (k : RowKey) :
    (x.rowRepaired k).repairing.contains k = false ∧ (x.rowRepaired k).repaired.contains k = true ∧ (x.rowRepaired k).mem = x.mem := by
  refine ⟨by simp [HbmState.rowRepaired], ?_, rfl⟩
  by_cases hk : x.repaired.contains k = true
  · exact (congrArg (List.contains · k) (if_pos hk)).trans hk
  · exact (congrArg (List.contains · k) (if_neg hk)).trans (by simp)

theorem doHbmTrained_of_up {ok : Bool} (hd : s.dev.devState ≠ .start) (hup : s.hbmUp h st = true)
    (ht : bit (s.reg (bHbmc h st) R.hbmc_HBMC_STAT) 2 = false) : doHbmTrained h st ok s = s.trainEnd h st ok :=
  (if_neg fun hc => hd hc.1).trans (if_pos ⟨hup, ht⟩)

/-- HBMC_STAT with a stack's temperature and whether it is at or above 85 °C. -/
def tempStat (v : DWord) (temp : Nat) : DWord := setFld (setFld v 40 8 temp) 32 1 (b2n (decide (85 ≤ temp)))

theorem tempStat_fields (v : DWord) {temp : Nat} (ht : temp < 256) :
    fld (tempStat v temp) 40 8 = temp ∧ bit (tempStat v temp) 32 = decide (85 ≤ temp) := by
  refine ⟨?_, bit_setFld_same _ 32 _ (by decide)⟩
  rw [tempStat, fld_setFld_ne _ _ _ _ _ _ (by decide), fld_setFld_same _ _ _ _ (by decide)]
  exact Nat.mod_eq_of_lt ht

theorem doStackTemp_of_cool {temp : Nat} (ht : temp < 100) :
    doStackTemp h st temp s = ((s.setRfld (bHbmc h st) R.hbmc_HBMC_STAT 40 8 temp).setRfld (bHbmc h st) R.hbmc_HBMC_STAT 32 1
      (b2n (decide (85 ≤ temp)))).updHbm h fun x => { x with hot := x.hot.filter (· ≠ st.val) } :=
  if_neg (not_le.mpr ht)

theorem State.reg_doStackTemp {temp : Nat} (ht : temp < 100) (hw : Tbl.wf s.csr = true) :
    (doStackTemp h st temp s).reg (bHbmc h st) R.hbmc_HBMC_STAT = tempStat (s.reg (bHbmc h st) R.hbmc_HBMC_STAT) temp := by
  have hfirst : (s.setRfld (bHbmc h st) R.hbmc_HBMC_STAT 40 8 temp).reg (bHbmc h st) R.hbmc_HBMC_STAT =
      setFld (s.reg (bHbmc h st) R.hbmc_HBMC_STAT) 40 8 temp := State.reg_setReg_same s _ _ _ hw
  rw [doStackTemp_of_cool ht, tempStat, ← hfirst]
  exact State.reg_setReg_same _ _ _ _ (State.setRfld_wf _ _ _ _ _ _ hw)

end

/-! ### Self-managed power (R50, R638) -/

section
variable {u : UnitId} {sleep : Bool}

theorem doPowerGate_of_idle (hsp : ∀ h t, u = .spare h t → sleep = true) {n : Nat} (hn : n = if sleep then 2 else 1) (hd : n ≤ deepestOf u)
    (ha : s.powerAllows u n = true) (hi : s.powerIdle u sleep = true) (hp : (s.unit u).power < n) :
    doPowerGate u sleep s = s.updUnit u fun d => { d with power := n } := by
  subst hn
  refine if_pos ⟨?_, hd, ha, hi, hp⟩
  cases u with
  | spare h t => exact hsp h t rfl
  | _ => rfl

theorem doPowerGate_of_busy {n : Nat} (hn : n = if sleep then 2 else 1) (hb : s.powerAllows u n = false ∨ s.powerIdle u sleep = false) :
    doPowerGate u sleep s = s := by
  subst hn
  refine if_neg ?_
  rintro ⟨-, -, ha, hi, -⟩
  rcases hb with hb | hb
  · rw [hb] at ha
    cases ha
  · rw [hb] at hi
    cases hi

end

end

end Sys2Proof.Machine

/-- Settles O55: the branches of each function; `HbmState.mem_wq_drainOld` is the 2 µs bound and `HbmState.nextEntry_spec` the precedence. -/
theorem hbmWorks : Obligations.HbmWorks := by
  refine ⟨⟨?_, ?_, ?_, ?_, ?_, ?_, ?_⟩, ⟨?_, ?_, fun x p now e hw => HbmState.mem_wq_drainOld hw, ?_, ?_, ?_, ?_, ?_, ?_, ?_⟩, ?_, ?_⟩
  · intro s u h p i q ecc hq hm hawake ha hu
    have hdo (parity : Fin 3) : exec (.hbmAccess h p i ecc parity) s = .next (doHbmAccess h p.val i ecc parity.val s) :=
      congrArg Host.Outcome.next (State.checked_unarmed ha _)
    exact ⟨fun hw => (hdo 0).trans (congrArg _ (doHbmAccess_of_write hq hm hawake hu ecc hw)),
      fun hw => (hdo 0).trans (congrArg _ (doHbmAccess_of_read hq hm hawake hu ecc hw)),
      fun v hv => ⟨fun hw => (hdo 1).trans (congrArg _ (doHbmAccess_of_repeated_write hq hm hawake hu hv ecc hw)),
        fun hw => (hdo 1).trans (congrArg _ (doHbmAccess_of_repeated_read hq hm hawake hu hv ecc hw)),
        (hdo 2).trans (congrArg _ (doHbmAccess_of_failed_repeat hq hm hawake hu hv ecc))⟩⟩
  · exact fun s h p i ecc parity ha => ⟨fun hm => congrArg Host.Outcome.next ((State.checked_unarmed ha _).trans (doHbmAccess_of_held ecc _ hm)),
      fun q hq hs => congrArg Host.Outcome.next ((State.checked_unarmed ha _).trans (doHbmAccess_of_asleep hq ecc _ hs))⟩
  · intro x p now i q hm hq hw hp j r hr he hrw
    by_contra hc
    have hmem := HbmState.mem_allReads hr he hrw (by simpa using hc)
    rw [HbmState.allReads_of_mayPerform hm hq hw hp] at hmem
    cases hmem
  · intro x p now i q hm hq
    obtain ⟨hrep, hrest⟩ := Bool.or_eq_false_iff.mp (HbmState.holds_of_mayPerform hm hq)
    refine ⟨hrep, fun hw => ?_, fun hw => ?_⟩ <;> simpa [hw] using hrest
  · exact fun r q d => ⟨rfl, decide_eq_true_iff, r.partDone_write d⟩
  · exact fun s h r a n bs => ⟨State.hbmUnitRead_waits, State.hbmUnitWrite_waits, State.hbmStop_of_waits⟩
  · exact fun s f ha => ⟨State.orWait_done ha, State.orWait_waits⟩
  · exact fun s h p ha => ⟨fun hawake => congrArg Host.Outcome.next ((State.checked_unarmed ha _).trans (if_pos hawake)),
      fun hs => congrArg Host.Outcome.next ((State.checked_unarmed ha _).trans (if_neg (by rw [hs]; exact Bool.false_ne_true)))⟩
  · intro x p now
    refine ⟨HbmState.drainNext_of_none, fun e he => ?_⟩
    obtain ⟨hmem, hturn, hprom⟩ := HbmState.nextEntry_spec he
    exact ⟨hmem, hturn, hprom, fun hf => (HbmState.drainNext_of_some he).trans (HbmState.drainGran_of_some hf)⟩
  · exact fun s h p b hb => ⟨fun hi => congrArg Host.Outcome.next (doHbmRefresh_of_idle hb hi),
      fun hi ho => congrArg Host.Outcome.next (doHbmRefresh_of_postponed hb hi ho),
      fun hi ho => congrArg Host.Outcome.next (doHbmRefresh_of_forced hb hi ho)⟩
  · intro s h p hup hen hparts hwq ho hd n hn
    subst hn
    have hdo : exec (.hbmPowerDown h p) s = _ := congrArg Host.Outcome.next (doHbmPowerDown_of_idle hup hen hparts hwq ho hd)
    exact ⟨fun hle => hdo.trans (next_if_of_pos hle rfl), fun hlt => hdo.trans (next_if_of_neg (not_le.mpr hlt) rfl)⟩
  · intro s h st e a hen hup ha
    exact ⟨fun hw => congrArg Host.Outcome.next (doHbmScrub_of_held e (ha ▸ hw)),
      fun hd hw hp hr => congrArg Host.Outcome.next (doHbmScrub_of_due e hen hup ha hd hw hp hr)⟩
  · intro s h st i hi hcsr hw
    subst hi
    refine ⟨fun hmore => ?_, fun hlast => ?_⟩
    · rw [State.scrubNext_of_more hmore]
      exact ⟨State.scrubNext_updHbm hw rfl, rfl⟩
    · rw [State.scrubNext_of_last hlast]
      exact ⟨State.scrubNext_updHbm hw rfl,
        State.reg_bump_same _ _ _ hcsr⟩
  · intro s h p b row hk
    refine ⟨doRowRepairDone h ⟨p.val, b, row⟩ s, rfl, ?_⟩
    rw [doRowRepairDone_hbm hk]
    exact HbmState.rowRepaired_spec _ _
  · exact fun s h st hd hup ht => ⟨congrArg Host.Outcome.next (doHbmTrained_of_up (ok := true) hd hup ht),
      congrArg Host.Outcome.next (doHbmTrained_of_up (ok := false) hd hup ht)⟩
  · intro s h st temp ht hw
    have hreg := State.reg_doStackTemp (h := h) (st := st) ht hw
    obtain ⟨htemp, hhot⟩ := tempStat_fields (s.reg (bHbmc h st) R.hbmc_HBMC_STAT) (show temp.toNat < 256 by omega)
    refine ⟨doStackTemp h st temp.toNat s, rfl, ?_, ?_, ?_, ?_⟩
    · rw [State.rfld, hreg, htemp]
    · rw [hreg, hhot]
    · rw [doStackTemp_of_cool ht, State.updHbm_hbm, pair_get_upd_same]
      simp
    · rw [doStackTemp_of_cool ht]
      rfl
  · exact fun s u sleep n hn hsp hw => ⟨fun hd ha hi hp => ⟨_, congrArg Host.Outcome.next (doPowerGate_of_idle hsp hn hd ha hi hp),
      State.unit_updUnit_same s u _ hw, rfl⟩, fun hb => congrArg Host.Outcome.next (doPowerGate_of_busy hn hb)⟩
  · exact fun s u hw hp => ⟨_, next_if_of_pos hp rfl, State.unit_updUnit_same s u _ hw, rfl⟩
end

section
open Sys2Proof Sys2Proof.Machine

/-! ## HBM: the placement of an address, and a read after a write -/

namespace Sys2Proof.Machine

/-! ### Placement (R496) -/

theorem bits_lt (v lsb len : Nat) : bits v lsb len < 2 ^ len := by
  rw [bits_eq_div_mod]
  exact Nat.mod_lt _ (Nat.two_pow_pos len)

theorem xor_xor_self (x y : Nat) : (x ^^^ y) ^^^ y = x := by
  rw [Nat.xor_assoc, Nat.xor_self, Nat.xor_zero]

theorem hbmPc_lt (a : Nat) : hbmPc a < 64 := Nat.xor_lt_two_pow (n := 6) (bits_lt a 8 6) (bits_lt a 21 6)

theorem hbmBank_lt (a : Nat) : hbmBank a < 32 := Nat.xor_lt_two_pow (n := 5) (bits_lt a 16 5) (bits_lt a 27 5)

theorem hbmRow_eq (a : Nat) : hbmRow a = a / 2 ^ 21 := Nat.shiftRight_eq_div_pow a 21

/-- The address of a column block as a number. -/
theorem hbmAddrOf_eq (k : RowKey) (c : Nat) : hbmAddrOf k c =
    k.row * 2 ^ 21 + (k.bank ^^^ bits k.row 6 5) % 32 * 2 ^ 16 + c % 4 * 2 ^ 14 + (k.p ^^^ bits k.row 0 6) % 64 * 2 ^ 8 := by
  rw [hbmAddrOf]
  simp only [Nat.or_assoc]
  rw [Nat.shiftLeft_eq ((k.p ^^^ bits k.row 0 6) % 64), or_shiftLeft_eq_add (c % 4) (by omega),
    or_shiftLeft_eq_add ((k.bank ^^^ bits k.row 6 5) % 32) (by omega), or_shiftLeft_eq_add k.row (by omega)]
  omega

/-- The pseudo-channel of an address with the row's bits taken off is what the address holds. -/
theorem hbmPc_xor_row (a : Nat) : (hbmPc a ^^^ bits (hbmRow a) 0 6) % 64 = a / 2 ^ 8 % 64 := by
  have hrow : bits (hbmRow a) 0 6 = bits a 21 6 := by
    rw [hbmRow_eq, bits_eq_div_mod, bits_eq_div_mod, pow_zero, Nat.div_one]
  rw [hbmPc, hrow, xor_xor_self, bits_eq_div_mod]
  exact Nat.mod_mod _ _

theorem hbmBank_xor_row (a : Nat) : (hbmBank a ^^^ bits (hbmRow a) 6 5) % 32 = a / 2 ^ 16 % 32 := by
  have hrow : bits (hbmRow a) 6 5 = bits a 27 5 := by
    rw [hbmRow_eq, bits_eq_div_mod, bits_eq_div_mod, Nat.div_div_eq_div_mul, ← pow_add]
  rw [hbmBank, hrow, xor_xor_self, bits_eq_div_mod]
  exact Nat.mod_mod _ _

theorem hbmAddrOf_rowKey (a : Nat) : hbmAddrOf (hbmRowKey a) (bits a 14 2) + a % 256 = a := by
  have hpc := hbmPc_xor_row a
  have hbank := hbmBank_xor_row a
  have hrow := hbmRow_eq a
  rw [hbmAddrOf_eq, bits_eq_div_mod a, show (hbmRowKey a).p = hbmPc a from rfl, show (hbmRowKey a).bank = hbmBank a from rfl,
    show (hbmRowKey a).row = hbmRow a from rfl, hpc, hbank, hrow]
  omega

section
variable {k : RowKey} {c : Nat}

theorem hbmRow_hbmAddrOf (k : RowKey) (c : Nat) : hbmRow (hbmAddrOf k c) = k.row := by
  rw [hbmRow_eq, hbmAddrOf_eq]
  omega

theorem hbmPc_hbmAddrOf (hp : k.p < 64) : hbmPc (hbmAddrOf k c) = k.p := by
  have hfield : bits (hbmAddrOf k c) 8 6 = k.p ^^^ bits k.row 0 6 := by
    have hlt : k.p ^^^ bits k.row 0 6 < 64 := Nat.xor_lt_two_pow (n := 6) hp (bits_lt k.row 0 6)
    rw [bits_eq_div_mod, hbmAddrOf_eq]
    omega
  have hrow : bits (hbmAddrOf k c) 21 6 = bits k.row 0 6 := by
    rw [bits_eq_div_mod, bits_eq_div_mod, ← hbmRow_eq, hbmRow_hbmAddrOf, pow_zero, Nat.div_one]
  rw [hbmPc, hfield, hrow, xor_xor_self]

theorem hbmBank_hbmAddrOf (hb : k.bank < 32) : hbmBank (hbmAddrOf k c) = k.bank := by
  have hfield : bits (hbmAddrOf k c) 16 5 = k.bank ^^^ bits k.row 6 5 := by
    have hlt : k.bank ^^^ bits k.row 6 5 < 32 := Nat.xor_lt_two_pow (n := 5) hb (bits_lt k.row 6 5)
    rw [bits_eq_div_mod, hbmAddrOf_eq]
    omega
  have hrow : bits (hbmAddrOf k c) 27 5 = bits k.row 6 5 := by
    have h27 := Nat.div_div_eq_div_mul (hbmAddrOf k c) (2 ^ 21) (2 ^ 6)
    rw [← hbmRow_eq, hbmRow_hbmAddrOf, ← pow_add] at h27
    rw [bits_eq_div_mod, bits_eq_div_mod, h27]
  rw [hbmBank, hfield, hrow, xor_xor_self]

theorem hbmRowKey_hbmAddrOf (hp : k.p < 64) (hb : k.bank < 32) : hbmRowKey (hbmAddrOf k c) = k := by
  rw [hbmRowKey, hbmPc_hbmAddrOf hp, hbmBank_hbmAddrOf hb, hbmRow_hbmAddrOf]

theorem column_hbmAddrOf (hc : c < 4) : bits (hbmAddrOf k c) 14 2 = c := by
  rw [bits_eq_div_mod, hbmAddrOf_eq]
  omega

end

/-! ### Granules of a 256-byte block -/

section
variable {a b g n : Nat}

theorem bits_of_block (hab : a / 256 = b / 256) {lsb : Nat} (hl : 8 ≤ lsb) (len : Nat) : bits a lsb len = bits b lsb len := by
  have hsplit (v : Nat) : v / 2 ^ lsb = v / 256 / 2 ^ (lsb - 8) := by
    rw [Nat.div_div_eq_div_mul, show (256 : Nat) = 2 ^ 8 from rfl, ← pow_add, Nat.add_sub_cancel' hl]
  rw [bits_eq_div_mod, bits_eq_div_mod, hsplit, hsplit, hab]

/-- Two addresses of a block lie in one row. -/
theorem hbmRowKey_of_block (hab : a / 256 = b / 256) : hbmRowKey a = hbmRowKey b := by
  have hrow : hbmRow a = hbmRow b := by
    rw [hbmRow_eq, hbmRow_eq]
    omega
  rw [hbmRowKey, hbmRowKey, hbmPc, hbmPc, hbmBank, hbmBank, hrow, bits_of_block hab (by decide) 6, bits_of_block hab (by decide) 6,
    bits_of_block hab (by decide) 5, bits_of_block hab (by decide) 5]

theorem gransOf_eq (hn : n ≠ 0) : gransOf a n = (List.range ((a + n - 1) / 32 - a / 32 + 1)).map (a / 32 + ·) := if_neg hn

theorem rowKey_of_mem_gransOf (hn : n ≠ 0) (hblock : a % 256 + n ≤ 256) (hg : g ∈ gransOf a n) : hbmRowKey (g * 32) = hbmRowKey a := by
  rw [gransOf_eq hn] at hg
  obtain ⟨j, hj, rfl⟩ := List.mem_map.mp hg
  have hj := List.mem_range.mp hj
  exact hbmRowKey_of_block (by omega)

/-- A byte of a write lies in its granule. -/
theorem tget?_granBytes {bs : List Byte} {i : Nat} (hi : i < 32) (hlo : a ≤ g * 32 + i) (hhi : g * 32 + i < a + bs.length) :
    tget? (granBytes a bs g) i = some (nth 0 bs (g * 32 + i - a)) :=
  tget?_eq_some_of_mem (granBytes_wf a bs g).1 (List.mem_filterMap.mpr ⟨i, List.mem_range.mpr hi, if_pos ⟨hlo, hhi⟩⟩)

end

/-! ### Folds over the entries of a table -/

section
variable {α β : Type} {t : Tbl α} {f : β → Nat × α → β} {I Q : β → Prop}

theorem foldl_keeps (hkeep : ∀ b, ∀ e ∈ t, Q b → Q (f b e)) {b : β} (hb : Q b) : Q (t.foldl f b) := by
  induction t generalizing b with
  | nil => exact hb
  | cons e r ih => exact ih (fun b e he => hkeep b e (List.mem_cons_of_mem _ he)) (hkeep b e List.mem_cons_self hb)

/-- What the entry of a key brings about, and no other entry undoes, holds after the fold. -/
theorem foldl_of_entry (hw : Tbl.wf t = true) {k : Nat} {v : α} (hk : tget? t k = some v) (hI : ∀ b, ∀ e ∈ t, I b → I (f b e))
    (hset : ∀ b, I b → Q (f b (k, v))) (hkeep : ∀ b, ∀ e ∈ t, e.1 ≠ k → I b → Q b → Q (f b e)) {b : β} (hb : I b) : Q (t.foldl f b) := by
  induction t generalizing b with
  | nil => cases hk
  | cons e r ih =>
    obtain ⟨j, w⟩ := e
    obtain ⟨ha, hr⟩ := (tbl_wf_cons _ _).mp hw
    have hIr : ∀ b, ∀ e ∈ r, I b → I (f b e) := fun b e he => hI b e (List.mem_cons_of_mem _ he)
    have hIj := hI b (j, w) List.mem_cons_self hb
    rcases List.mem_cons.mp (mem_of_tget?_eq_some hk) with h | h
    · obtain ⟨rfl, rfl⟩ := Prod.mk.inj h
      refine (foldl_keeps (Q := fun b => I b ∧ Q b) (fun b e he h => ⟨hIr b e he h.1, ?_⟩) ⟨hIj, hset b hb⟩).2
      exact hkeep b e (List.mem_cons_of_mem _ he) (Nat.ne_of_gt (ha e he)) h.1 h.2
    · exact ih hr (tget?_eq_some_of_mem hr h) hIr (fun b e he => hkeep b e (List.mem_cons_of_mem _ he)) hIj

end

/-- Bytes entered in a table over others. -/
theorem tget?_foldl_tput {bs t : Tbl Byte} (hw : Tbl.wf bs = true) {k : Nat} {v : Byte} (hk : tget? bs k = some v) :
    tget? (bs.foldl (fun t b => tput t b.1 b.2) t) k = some v :=
  foldl_of_entry (I := fun _ => True) (Q := fun t => tget? t k = some v) hw hk (fun _ _ _ _ => trivial) (fun _ _ => tget?_tput_same _ _ _)
    (fun _ _ _ hne _ ht => (tget?_tput_ne _ _ _ _ hne.symm).trans ht) trivial

theorem entry_wf_foldl_tput {bs : Tbl Byte} (hk : ∀ b ∈ bs, b.1 < 32) {e : WqEntry} (he : e.wf = true) :
    ({ e with bytes := bs.foldl (fun t b => tput t b.1 b.2) e.bytes } : WqEntry).wf = true := by
  simp only [WqEntry.wf, Bool.and_eq_true, List.all_eq_true, decide_eq_true_eq] at he ⊢
  refine foldl_keeps (Q := fun t : Tbl Byte => Tbl.wf t = true ∧ ∀ x ∈ t, x.1 < 32) (fun t b hb ht => ⟨tput_wf _ _ _ ht.1, fun x hx => ?_⟩) he
  rcases mem_tput _ _ _ _ hx with rfl | hx
  · exact hk b hb
  · exact ht.2 x hx

/-- Bytes of a queued entry laid over those of the array. -/
theorem getElem?_foldl_set {bs : Tbl Byte} (hw : Tbl.wf bs = true) {k : Nat} {v : Byte} (hk : tget? bs k = some v) {l : List Byte}
    (hl : k < l.length) : (bs.foldl (fun l c => l.set c.1 c.2) l)[k]? = some v := by
  refine foldl_of_entry (I := fun l : List Byte => k < l.length) (Q := fun l : List Byte => l[k]? = some v) hw hk (fun l e _ h => ?_)
    (fun l h => ?_) (fun l e _ hne h hq => ?_) hl
  · rwa [List.length_set]
  · exact List.getElem?_set_self h
  · rwa [List.getElem?_set_ne hne]

theorem length_foldl_set (bs : Tbl Byte) (l : List Byte) : (bs.foldl (fun l c => l.set c.1 c.2) l).length = l.length := by
  refine foldl_keeps (Q := fun m : List Byte => m.length = l.length) (fun m e _ h => ?_) rfl
  rwa [List.length_set]

/-! ### What HBM shows at a byte -/

/-- What a read and the drains of a pseudo-channel need of the state: well-formed tables, and a row that is not retired. -/
structure HbmState.Ready (x : HbmState) (p : Nat) (k : RowKey) : Prop where
  mem : Tbl.wf x.mem = true
  wq : Tbl.wf x.wq = true
  queue : ∀ e ∈ tget [] x.wq p, e.wf = true
  row : x.retired.contains k = false

/-- Byte `i` of granule `g` is `v`: in every queued entry of the granule, and in the array where none is queued. -/
def HbmState.Shows (x : HbmState) (p g i : Nat) (v : Byte) : Prop :=
  (∀ e ∈ tget [] x.wq p, e.gran = g → tget? e.bytes i = some v) ∧
    ((∀ e ∈ tget [] x.wq p, e.gran ≠ g) → tget 0 x.mem (g * 32 + i) = v)

section
variable {x : HbmState} {p g i : Nat} {k : RowKey} {v : Byte} {e : WqEntry}

theorem WqEntry.wf_iff : e.wf = true ↔ Tbl.wf e.bytes = true ∧ ∀ b ∈ e.bytes, b.1 < 32 := by
  simp [WqEntry.wf]

theorem wqFind_eq_some {q : List WqEntry} (h : wqFind q g = some e) : e ∈ q ∧ e.gran = g :=
  ⟨List.mem_of_find?_eq_some h, by simpa using List.find?_some h⟩

theorem wqFind_eq_none {q : List WqEntry} (h : wqFind q g = none) : ∀ e ∈ q, e.gran ≠ g := by
  simpa [wqFind] using h

theorem HbmState.toArray_of_live (hr : x.retired.contains (hbmRowKey (e.gran * 32)) = false) : (x.toArray e).mem =
    e.bytes.foldl (fun m b => tset 0 m (e.gran * 32 + b.1) b.2) x.mem := by
  rw [HbmState.toArray, if_neg (by rw [hr]; exact Bool.false_ne_true)]

theorem HbmState.toArray_retired (x : HbmState) (e : WqEntry) : (x.toArray e).retired = x.retired := by
  unfold HbmState.toArray
  split <;> rfl

theorem HbmState.toArray_mem_wf (hw : Tbl.wf x.mem = true) : Tbl.wf (x.toArray e).mem = true := by
  by_cases hr : x.retired.contains (hbmRowKey (e.gran * 32)) = true
  · rwa [HbmState.toArray, if_pos hr]
  · rw [HbmState.toArray_of_live (by simpa using hr)]
    exact foldl_keeps (Q := fun m : Tbl Byte => Tbl.wf m = true) (fun m b _ hm => tset_wf _ _ _ _ hm) hw

/-- An entry's bytes reach the array. -/
theorem HbmState.toArray_mem_same (hw : Tbl.wf x.mem = true) (he : e.wf = true) (hr : x.retired.contains (hbmRowKey (e.gran * 32)) = false)
    (hv : tget? e.bytes i = some v) : tget 0 (x.toArray e).mem (e.gran * 32 + i) = v := by
  rw [HbmState.toArray_of_live hr]
  refine foldl_of_entry (f := fun m b => tset 0 m (e.gran * 32 + b.1) b.2) (I := fun m : Tbl Byte => Tbl.wf m = true) (Q := fun m => tget 0 m (e.gran * 32 + i) = v) (WqEntry.wf_iff.mp he).1 hv
    (fun m b _ hm => tset_wf _ _ _ _ hm) (fun m hm => tget_tset_same _ _ _ _ hm) (fun m b _ hne hm hq => ?_) hw
  exact (tget_tset_ne _ _ m _ _ _ hm (by omega)).trans hq

/-- The bytes of other granules stay as they are. -/
theorem HbmState.toArray_mem_ne (hw : Tbl.wf x.mem = true) (he : e.wf = true) (hne : e.gran ≠ g) (hi : i < 32) :
    tget 0 (x.toArray e).mem (g * 32 + i) = tget 0 x.mem (g * 32 + i) := by
  by_cases hr : x.retired.contains (hbmRowKey (e.gran * 32)) = true
  · rw [HbmState.toArray, if_pos hr]
  · rw [HbmState.toArray_of_live (by simpa using hr)]
    refine (foldl_keeps (Q := fun m : Tbl Byte => Tbl.wf m = true ∧ tget 0 m (g * 32 + i) = tget 0 x.mem (g * 32 + i))
      (fun m b hb hm => ⟨tset_wf _ _ _ _ hm.1, ?_⟩) ⟨hw, rfl⟩).2
    have hb32 := (WqEntry.wf_iff.mp he).2 b hb
    exact (tget_tset_ne _ _ m _ _ _ hm.1 (by omega)).trans hm.2

theorem HbmState.Ready.setWq (hx : x.Ready p k) {q : List WqEntry} (hq : ∀ e ∈ q, e.wf = true) : (x.setWq p q).Ready p k :=
  ⟨hx.mem, tset_wf _ _ _ _ hx.wq, by rwa [HbmState.wq_setWq hx.wq], hx.row⟩

theorem HbmState.Ready.toArray (hx : x.Ready p k) (e : WqEntry) : (x.toArray e).Ready p k :=
  ⟨HbmState.toArray_mem_wf hx.mem, x.toArray_wq e ▸ hx.wq, x.toArray_wq e ▸ hx.queue, x.toArray_retired e ▸ hx.row⟩

/-- An entry goes to the array and a rest stays queued that still has every other entry of a granule. -/
theorem HbmState.Shows.drain (hx : x.Ready p k) (hs : x.Shows p g i v) (hi : i < 32) (hk : hbmRowKey (g * 32) = k) (he : e ∈ tget [] x.wq p)
    {q : List WqEntry} (hsub : ∀ f ∈ q, f ∈ tget [] x.wq p) (hrest : e.gran ≠ g → ∀ f ∈ tget [] x.wq p, f.gran = g → f ∈ q) :
    ((x.toArray e).setWq p q).Shows p g i v := by
  rw [HbmState.Shows, HbmState.wq_setWq (hx.toArray e).wq]
  refine ⟨fun f hf hfg => hs.1 f (hsub f hf) hfg, fun hnone => ?_⟩
  by_cases hg : e.gran = g
  · subst hg
    exact HbmState.toArray_mem_same hx.mem (hx.queue e he) (hk ▸ hx.row) (hs.1 e he rfl)
  · exact (HbmState.toArray_mem_ne hx.mem (hx.queue e he) hg hi).trans (hs.2 fun f hf hfg => hnone f (hrest hg f hf hfg) hfg)

theorem HbmState.Ready.drainGran (hx : x.Ready p k) (g : Nat) : (x.drainGran p g).Ready p k := by
  cases hf : wqFind (tget [] x.wq p) g with
  | none => rwa [HbmState.drainGran_of_none hf]
  | some e =>
    rw [HbmState.drainGran_of_some hf]
    exact (hx.toArray e).setWq fun f hf => hx.queue f (List.mem_of_mem_filter hf)

theorem HbmState.Shows.drainGran (hx : x.Ready p k) (hs : x.Shows p g i v) (hi : i < 32) (hk : hbmRowKey (g * 32) = k) (g' : Nat) :
    (x.drainGran p g').Shows p g i v := by
  cases hf : wqFind (tget [] x.wq p) g' with
  | none => rwa [HbmState.drainGran_of_none hf]
  | some e =>
    rw [HbmState.drainGran_of_some hf]
    obtain ⟨he, rfl⟩ := wqFind_eq_some hf
    exact hs.drain hx hi hk he (fun f hf => List.mem_of_mem_filter hf)
      fun hne f hf hfg => List.mem_filter.mpr ⟨hf, by simpa [hfg] using Ne.symm hne⟩

theorem HbmState.drainOne_of_nil (h : tget [] x.wq p = []) : x.drainOne p = x := by
  rw [HbmState.drainOne, h]

theorem HbmState.drainOne_of_cons {r : List WqEntry} (h : tget [] x.wq p = e :: r) : x.drainOne p = (x.toArray e).setWq p r := by
  rw [HbmState.drainOne, h]

theorem HbmState.Ready.drainOne (hx : x.Ready p k) : (x.drainOne p).Ready p k := by
  cases hq : tget [] x.wq p with
  | nil => rwa [HbmState.drainOne_of_nil hq]
  | cons e r =>
    rw [HbmState.drainOne_of_cons hq]
    exact (hx.toArray e).setWq fun f hf => hx.queue f (hq ▸ List.mem_cons_of_mem e hf)

theorem HbmState.Shows.drainOne (hx : x.Ready p k) (hs : x.Shows p g i v) (hi : i < 32) (hk : hbmRowKey (g * 32) = k) :
    (x.drainOne p).Shows p g i v := by
  cases hq : tget [] x.wq p with
  | nil => rwa [HbmState.drainOne_of_nil hq]
  | cons e r =>
    rw [HbmState.drainOne_of_cons hq]
    refine hs.drain hx hi hk (hq ▸ List.mem_cons_self) (fun f hf => hq ▸ List.mem_cons_of_mem e hf) fun hne f hf hfg => ?_
    rcases List.mem_cons.mp (hq ▸ hf) with rfl | hr
    · exact absurd hfg hne
    · exact hr

theorem HbmState.mem_wq_drainOne (hx : x.Ready p k) {f : WqEntry} (hf : f ∈ tget [] (x.drainOne p).wq p) : f ∈ tget [] x.wq p := by
  cases hq : tget [] x.wq p with
  | nil => rwa [HbmState.drainOne_of_nil hq, hq] at hf
  | cons e r =>
    rw [HbmState.drainOne_of_cons hq, HbmState.wq_setWq (hx.toArray e).wq] at hf
    exact List.mem_cons_of_mem e hf

end

/-! ### A write enters the queue (R502) -/

/-- A queued entry after a write of its granule. -/
def WqEntry.merged (e : WqEntry) (r : HbmReq) (bs : Tbl Byte) : WqEntry :=
  { e with
    bytes := bs.foldl (fun t b => tput t b.1 b.2) e.bytes
    srcs := if e.srcs.contains r.src then e.srcs else e.srcs ++ [r.src]
    stream := e.stream && r.stream }

section
variable {x : HbmState} {r : HbmReq} {now g : Nat} {bs : Tbl Byte} {p : Nat} (hp : hbmPc (g * 32) = p)
include hp

theorem HbmState.enqueue_of_queued {e : WqEntry} (he : wqFind (tget [] x.wq p) g = some e) : x.enqueue r now g bs =
    x.setWq p ((tget [] x.wq p).map fun e => if e.gran = g then e.merged r bs else e) := by
  subst hp
  rw [HbmState.enqueue]
  dsimp only
  rw [he]
  rfl

theorem HbmState.enqueue_of_new (he : wqFind (tget [] x.wq p) g = none) : x.enqueue r now g bs =
    (if 64 ≤ (tget [] x.wq p).length then x.drainOne p else x).setWq p
      (tget [] (if 64 ≤ (tget [] x.wq p).length then x.drainOne p else x).wq p ++
        [{ gran := g, bytes := bs, srcs := [r.src], stream := r.stream, since := now }]) := by
  subst hp
  rw [HbmState.enqueue]
  dsimp only
  rw [he]

variable {k : RowKey} (hx : x.Ready p k) (hb : Tbl.wf bs = true ∧ ∀ b ∈ bs, b.1 < 32)
include hx

omit hp in
/-- Room for a new entry: the oldest goes to the array from a full queue. -/
theorem HbmState.roomed (n : Nat) : ((if 64 ≤ n then x.drainOne p else x).Ready p k ∧
    (∀ f ∈ tget [] (if 64 ≤ n then x.drainOne p else x).wq p, f ∈ tget [] x.wq p) ∧
    ∀ {g i v}, x.Shows p g i v → i < 32 → hbmRowKey (g * 32) = k → (if 64 ≤ n then x.drainOne p else x).Shows p g i v) := by
  split
  · exact ⟨hx.drainOne, fun f hf => HbmState.mem_wq_drainOne hx hf, fun hs hi hk => hs.drainOne hx hi hk⟩
  · exact ⟨hx, fun f hf => hf, fun hs _ _ => hs⟩

include hb

theorem HbmState.Ready.enqueue : (x.enqueue r now g bs).Ready p k := by
  cases he : wqFind (tget [] x.wq p) g with
  | some e =>
    rw [HbmState.enqueue_of_queued hp he]
    refine hx.setWq fun f hf => ?_
    obtain ⟨f', hf', rfl⟩ := List.mem_map.mp hf
    split
    · exact entry_wf_foldl_tput hb.2 (hx.queue f' hf')
    · exact hx.queue f' hf'
  | none =>
    rw [HbmState.enqueue_of_new hp he]
    obtain ⟨hready, hsub, -⟩ := HbmState.roomed hx (tget [] x.wq p).length
    refine hready.setWq fun f hf => ?_
    rcases List.mem_append.mp hf with hf | hf
    · exact hx.queue f (hsub f hf)
    · rw [List.mem_singleton.mp hf]
      exact WqEntry.wf_iff.mpr hb

/-- The bytes written are shown. -/
theorem HbmState.shows_enqueue_same {i : Nat} {v : Byte} (hv : tget? bs i = some v) : (x.enqueue r now g bs).Shows p g i v := by
  cases he : wqFind (tget [] x.wq p) g with
  | some e =>
    rw [HbmState.enqueue_of_queued hp he, HbmState.Shows, HbmState.wq_setWq hx.wq]
    obtain ⟨hmem, hg⟩ := wqFind_eq_some he
    refine ⟨fun f hf hfg => ?_, fun hnone => ?_⟩
    · obtain ⟨f, hf, rfl⟩ := List.mem_map.mp hf
      by_cases hfg' : f.gran = g
      · rw [if_pos hfg']
        exact tget?_foldl_tput hb.1 hv
      · rw [if_neg hfg'] at hfg
        exact absurd hfg hfg'
    · exact absurd (by rw [if_pos hg]; exact hg) (hnone _ (List.mem_map.mpr ⟨e, hmem, rfl⟩))
  | none =>
    obtain ⟨hready, hsub, -⟩ := HbmState.roomed hx (tget [] x.wq p).length
    rw [HbmState.enqueue_of_new hp he, HbmState.Shows, HbmState.wq_setWq hready.wq]
    refine ⟨fun f hf hfg => ?_, fun hnone => ?_⟩
    · rcases List.mem_append.mp hf with hf | hf
      · exact absurd hfg (wqFind_eq_none he f (hsub f hf))
      · rw [List.mem_singleton.mp hf]
        exact hv
    · exact absurd rfl (hnone _ (List.mem_append_right _ (List.mem_singleton.mpr rfl)))

omit hb in
/-- What other granules show stays. -/
theorem HbmState.Shows.enqueue_ne {g' i : Nat} {v : Byte} (hs : x.Shows p g' i v) (hi : i < 32) (hk : hbmRowKey (g' * 32) = k) (hne : g ≠ g') :
    (x.enqueue r now g bs).Shows p g' i v := by
  cases he : wqFind (tget [] x.wq p) g with
  | some e =>
    rw [HbmState.enqueue_of_queued hp he, HbmState.Shows, HbmState.wq_setWq hx.wq]
    have hmap (f : WqEntry) (hf : f ∈ tget [] x.wq p) (hfg : f.gran = g') :
        f ∈ (tget [] x.wq p).map fun e => if e.gran = g then e.merged r bs else e :=
      List.mem_map.mpr ⟨f, hf, if_neg fun h => hne (h.symm.trans hfg)⟩
    refine ⟨fun f hf hfg => ?_, fun hnone => hs.2 fun f hf hfg => hnone f (hmap f hf hfg) hfg⟩
    obtain ⟨f', hf', rfl⟩ := List.mem_map.mp hf
    by_cases hfg' : f'.gran = g
    · rw [if_pos hfg'] at hfg
      exact absurd (hfg'.symm.trans hfg) hne
    · rw [if_neg hfg'] at hfg ⊢
      exact hs.1 f' hf' hfg
  | none =>
    obtain ⟨hready, -, hshows⟩ := HbmState.roomed hx (tget [] x.wq p).length
    have hs' := hshows hs hi hk
    rw [HbmState.enqueue_of_new hp he, HbmState.Shows, HbmState.wq_setWq hready.wq]
    refine ⟨fun f hf hfg => ?_, fun hnone => hs'.2 fun f hf hfg => hnone f (List.mem_append_left _ hf) hfg⟩
    rcases List.mem_append.mp hf with hf | hf
    · exact hs'.1 f hf hfg
    · rw [List.mem_singleton.mp hf] at hfg
      exact absurd hfg hne

end

/-! ### A whole part is written, and read (R502, R503) -/

/-- The bytes of a write that fall into a granule are shown. -/
def HbmState.ShowsGran (x : HbmState) (p a : Nat) (bs : List Byte) (g : Nat) : Prop :=
  ∀ i v, tget? (granBytes a bs g) i = some v → x.Shows p g i v

theorem lt_of_tget?_granBytes {a g i : Nat} {bs : List Byte} {v : Byte} (hv : tget? (granBytes a bs g) i = some v) : i < 32 :=
  (granBytes_wf a bs g).2 _ (mem_of_tget?_eq_some hv)

section
variable {x : HbmState} {r : HbmReq} {now a p : Nat} {bs : List Byte} {k : RowKey}

/-- A write of granules of one row: each shows its bytes. -/
theorem HbmState.shows_enqueues {gs : List Nat} (hx : x.Ready p k) (hg : ∀ g ∈ gs, hbmPc (g * 32) = p ∧ hbmRowKey (g * 32) = k) :
    (gs.foldl (fun x g => x.enqueue r now g (granBytes a bs g)) x).Ready p k ∧
      (∀ g ∈ gs, (gs.foldl (fun x g => x.enqueue r now g (granBytes a bs g)) x).ShowsGran p a bs g) ∧
      ∀ g, hbmRowKey (g * 32) = k → x.ShowsGran p a bs g → (gs.foldl (fun x g => x.enqueue r now g (granBytes a bs g)) x).ShowsGran p a bs g := by
  induction gs generalizing x with
  | nil => exact ⟨hx, by simp, fun _ _ h => h⟩
  | cons g gs ih =>
    obtain ⟨⟨hpc, hk⟩, hgs⟩ := List.forall_mem_cons.mp hg
    have hb := granBytes_wf a bs g
    have hsame : (x.enqueue r now g (granBytes a bs g)).ShowsGran p a bs g := fun i v hv => HbmState.shows_enqueue_same hpc hx hb hv
    obtain ⟨hready, hall, hkeep⟩ := ih (hx.enqueue (r := r) (now := now) hpc hb) hgs
    refine ⟨hready, List.forall_mem_cons.mpr ⟨hkeep g hk hsame, hall⟩, fun g' hk' hs => hkeep g' hk' ?_⟩
    by_cases hgg : g = g'
    · exact hgg ▸ hsame
    · exact fun i v hv => (hs i v hv).enqueue_ne hpc hx (lt_of_tget?_granBytes hv) hk' hgg

/-- A read that waits for the queue drains entries alone (R503). -/
theorem HbmState.shows_settleRaw (n : Nat) (hx : x.Ready (hbmPc a) k) :
    (x.settleRaw r a n).Ready (hbmPc a) k ∧
      ∀ {g i v}, x.Shows (hbmPc a) g i v → i < 32 → hbmRowKey (g * 32) = k → (x.settleRaw r a n).Shows (hbmPc a) g i v := by
  have hdrain (l : List WqEntry) {y : HbmState} (hy : y.Ready (hbmPc a) k) :
      (l.foldl (fun x e => x.drainGran (hbmPc a) e.gran) y).Ready (hbmPc a) k ∧
        ∀ {g i v}, y.Shows (hbmPc a) g i v → i < 32 → hbmRowKey (g * 32) = k →
          (l.foldl (fun x e => x.drainGran (hbmPc a) e.gran) y).Shows (hbmPc a) g i v := by
    induction l generalizing y with
    | nil => exact ⟨hy, fun hs _ _ => hs⟩
    | cons e l ih =>
      obtain ⟨hready, hkeep⟩ := ih (hy.drainGran e.gran)
      exact ⟨hready, fun hs hi hk => hkeep (hs.drainGran hy hi hk e.gran) hi hk⟩
  unfold HbmState.settleRaw
  split
  · exact hdrain _ hx
  · exact ⟨hx, fun hs _ _ => hs⟩

theorem length_tbytes (t : Tbl Byte) (a n : Nat) : (tbytes t a n).length = n := by
  induction n generalizing a with
  | zero => rfl
  | succ n ih => rw [tbytes, List.length_cons, ih]

theorem getElem?_tbytes (t : Tbl Byte) (a : Nat) {n i : Nat} (hi : i < n) : (tbytes t a n)[i]? = some (tget 0 t (a + i)) := by
  induction n generalizing a i with
  | zero => omega
  | succ n ih =>
    cases i with
    | zero => rfl
    | succ i => rw [tbytes, List.getElem?_cons_succ, ih _ (by omega), Nat.add_right_comm, Nat.add_assoc]

theorem HbmState.length_arrayGran (x : HbmState) (g : Nat) : (x.arrayGran g).1.length = 32 := by
  unfold HbmState.arrayGran
  split
  · exact List.length_replicate
  · exact length_tbytes _ _ _

theorem HbmState.length_readGran (x : HbmState) (r : HbmReq) (g : Nat) : (x.readGran r g).1.length = 32 := by
  unfold HbmState.readGran
  dsimp only
  split
  · exact x.length_arrayGran g
  · split
    · exact x.length_arrayGran g
    · exact (length_foldl_set _ _).trans (x.length_arrayGran g)

/-- A MAIN read without an error returns what is shown. -/
theorem HbmState.getElem?_readGran {g i : Nat} {v : Byte} (hx : x.Ready p k) (hs : x.Shows p g i v) (hi : i < 32) (hp : hbmPc (g * 32) = p)
    (hr : r.stream = false) (herr : (x.readGran r g).2 = false) : (x.readGran r g).1[i]? = some v := by
  subst hp
  unfold HbmState.readGran at herr ⊢
  dsimp only at herr ⊢
  cases he : wqFind (tget [] x.wq (hbmPc (g * 32))) g with
  | none =>
    rw [he] at herr
    dsimp only at herr ⊢
    unfold HbmState.arrayGran at herr ⊢
    split at herr
    · cases herr
    · next hpo => rw [if_neg hpo, getElem?_tbytes _ _ hi, hs.2 (wqFind_eq_none he)]
  | some e =>
    obtain ⟨hmem, hg⟩ := wqFind_eq_some he
    dsimp only
    rw [if_neg (by simp [hr])]
    exact getElem?_foldl_set (WqEntry.wf_iff.mp (hx.queue e hmem)).1 (hs.1 e hmem hg) (by rwa [x.length_arrayGran g])

end

theorem getElem?_flatMap_range {L : Nat → List Byte} (hL : ∀ j, (L j).length = 32) {m i : Nat} (hi : i < 32 * m) :
    ((List.range m).flatMap L)[i]? = (L (i / 32))[i % 32]? := by
  have hlen (m : Nat) : ((List.range m).flatMap L).length = 32 * m := by
    simp [List.length_flatMap, hL, Nat.mul_comm]
  induction m with
  | zero => omega
  | succ m ih =>
    rw [List.range_succ, List.flatMap_append]
    by_cases him : i < 32 * m
    · rw [List.getElem?_append_left (by rwa [hlen]), ih him]
    · rw [List.getElem?_append_right (by rw [hlen]; omega), hlen, List.flatMap_singleton, show i / 32 = m by omega, show i - 32 * m = i % 32 by omega]

/-- The bytes of a part are those of its granules from its place in the first. -/
theorem slice_grans {L : Nat → List Byte} {a : Nat} {bs : List Byte} (hL : ∀ g, (L g).length = 32) (hbs : bs ≠ [])
    (hshow : ∀ g ∈ gransOf a bs.length, ∀ i, i < 32 → a ≤ g * 32 + i → g * 32 + i < a + bs.length →
      (L g)[i]? = some (nth 0 bs (g * 32 + i - a))) :
    slice ((gransOf a bs.length).flatMap L) (a % 32) bs.length = bs := by
  have hn : bs.length ≠ 0 := mt List.length_eq_zero_iff.mp hbs
  refine List.ext_getElem? fun j => ?_
  rw [slice, List.getElem?_take]
  split
  · next hj =>
    have hmem : a / 32 + (a % 32 + j) / 32 ∈ gransOf a bs.length := by
      rw [gransOf_eq hn]
      exact List.mem_map.mpr ⟨_, List.mem_range.mpr (by omega), rfl⟩
    have hbyte := hshow _ hmem ((a % 32 + j) % 32) (Nat.mod_lt _ (by decide)) (by omega) (by omega)
    rw [List.getElem?_drop, gransOf_eq hn, List.flatMap_map, getElem?_flatMap_range (fun j => hL _) (by omega), hbyte,
      show (a / 32 + (a % 32 + j) / 32) * 32 + (a % 32 + j) % 32 - a = j by omega, nth, List.getD_eq_getElem?_getD,
      List.getElem?_eq_getElem hj]
    rfl
  · next hj => exact (List.getElem?_eq_none (not_lt.mp hj)).symm

section
variable {s u : State} {h : Half} {r : HbmReq} {a : Nat} {bs : List Byte}

/-- A part that its controller accepts enters the queues. -/
theorem State.hbmWritePart_of_accepted (hu : s.hbmWritePart h r a bs = (u, true)) :
    (s.hbm.get h).retired.contains (hbmRowKey a) = false ∧
      u = s.updHbm h fun x => (gransOf a bs.length).foldl (fun x g => x.enqueue r s.ticks g (granBytes a bs g)) (x.touch s.ticks a) := by
  unfold State.hbmWritePart at hu
  split at hu
  · cases (Prod.mk.inj hu).2
  · split at hu
    · cases (Prod.mk.inj hu).2
    · next hr => exact ⟨by simpa using hr, (Prod.mk.inj hu).1.symm⟩

/-- What a read part that does not err as a whole returns. -/
theorem State.hbmReadPart_of_answered {n : Nat} (hd : (s.hbmReadPart h r a n).2.err = false) :
    let y := ((s.hbm.get h).touch s.ticks a).settleRaw r a n
    (s.hbmReadPart h r a n).2 = ⟨slice ((gransOf a n).flatMap fun g => (y.readGran r g).1) (a % 32) n,
      (gransOf a n).filter fun g => (y.readGran r g).2, false⟩ := by
  unfold State.hbmReadPart at hd ⊢
  dsimp only at hd ⊢
  split at hd
  · cases hd
  · split at hd
    · cases hd
    · next hr => rw [if_neg hr]

theorem HbmState.Ready.touch {x : HbmState} {p : Nat} {k : RowKey} (hx : x.Ready p k) (now a : Nat) : (x.touch now a).Ready p k := ⟨hx.mem, hx.wq, hx.queue, hx.row⟩

theorem HbmState.Shows.touch {x : HbmState} {p g i : Nat} {v : Byte} (hs : x.Shows p g i v) (now a : Nat) : (x.touch now a).Shows p g i v := hs

/-- R503: a MAIN read returns the bytes written before it. -/
theorem State.hbmRead_of_hbmWrite (hr : r.stream = false) (hblock : a % 256 + bs.length ≤ 256) (hbs : bs ≠ [])
    (hx : (s.hbm.get h).mem.wf = true) (hq : (s.hbm.get h).wq.wf = true)
    (he : ∀ p, ∀ e ∈ tget [] (s.hbm.get h).wq p, Tbl.wf e.bytes = true ∧ ∀ b ∈ e.bytes, b.1 < 32)
    (hu : s.hbmWritePart h r a bs = (u, true)) (herr : (u.hbmReadPart h r a bs.length).2.err = false)
    (herrs : (u.hbmReadPart h r a bs.length).2.errs = []) : (u.hbmReadPart h r a bs.length).2.bytes = bs := by
  have hn : bs.length ≠ 0 := mt List.length_eq_zero_iff.mp hbs
  have hkey (g : Nat) (hg : g ∈ gransOf a bs.length) : hbmPc (g * 32) = hbmPc a ∧ hbmRowKey (g * 32) = hbmRowKey a :=
    ⟨congrArg RowKey.p (rowKey_of_mem_gransOf hn hblock hg), rowKey_of_mem_gransOf hn hblock hg⟩
  obtain ⟨hrow, hwrite⟩ := State.hbmWritePart_of_accepted hu
  have hready : (s.hbm.get h).Ready (hbmPc a) (hbmRowKey a) := ⟨hx, hq, fun e hm => WqEntry.wf_iff.mpr (he _ e hm), hrow⟩
  obtain ⟨hready, hshows, -⟩ := HbmState.shows_enqueues (r := r) (now := s.ticks) (a := a) (bs := bs) (hready.touch s.ticks a) hkey
  have hhbm : u.hbm.get h = (gransOf a bs.length).foldl (fun x g => x.enqueue r s.ticks g (granBytes a bs g)) ((s.hbm.get h).touch s.ticks a) := by
    rw [hwrite, State.updHbm_hbm, pair_get_upd_same]
  rw [← hhbm] at hready hshows
  obtain ⟨hready, hsettle⟩ := HbmState.shows_settleRaw (r := r) bs.length (hready.touch u.ticks a)
  have hread := State.hbmReadPart_of_answered herr
  dsimp only at hread
  rw [hread] at herrs ⊢
  refine slice_grans (fun g => HbmState.length_readGran _ r g) hbs fun g hg i hi hlo hhi => ?_
  have hshow := hsettle ((hshows g hg i _ (tget?_granBytes hi hlo hhi)).touch u.ticks a) hi (hkey g hg).2
  exact HbmState.getElem?_readGran hready hshow hi (hkey g hg).1 hr (by simpa using List.filter_eq_nil_iff.mp herrs g hg)

/-- A stop leaves what HBM holds. -/
theorem State.hbmStop_hbm {c : HbmClass} {write : Bool} (hs : s.hbmStop h c write a = some u) : u.hbm = s.hbm := by
  unfold State.hbmStop at hs
  split at hs
  · exact Option.some.inj hs ▸ State.report_hbm _ _ _ _
  · split at hs
    · exact Option.some.inj hs ▸ rfl
    · split at hs
      · exact Option.some.inj hs ▸ State.report_hbm _ _ _ _
      · cases hs

theorem State.hbmWritePart_of_stopped (hs : s.hbmStop h r.cls true a ≠ none ∨ (s.hbm.get h).retired.contains (hbmRowKey a) = true) :
    (s.hbmWritePart h r a bs).2 = false ∧ (s.hbmWritePart h r a bs).1.hbm = s.hbm := by
  unfold State.hbmWritePart
  split
  · next v hv => exact ⟨rfl, State.hbmStop_hbm hv⟩
  · next hnone =>
    rw [if_pos (hs.resolve_left (not_not.mpr hnone))]
    exact ⟨rfl, rfl⟩

end

end Sys2Proof.Machine

/-- Settles O54: the placement is exclusive or of fields with the row's (`hbmAddrOf_eq`), and a written byte is shown by the queue or the array
(`HbmState.Shows`) until a MAIN read finds it. -/
theorem hbmReadsWhatWasWritten : Obligations.HbmReadsWhatWasWritten := by
  refine ⟨⟨fun a ha => ⟨hbmPc_lt a, hbmBank_lt a, ?_, hbmAddrOf_rowKey a⟩,
    fun k c hp hb hc => ⟨hbmRowKey_hbmAddrOf hp hb, column_hbmAddrOf hc⟩⟩, ?_, fun s h r a bs hs => ?_⟩
  · have ha : a < 0xC00000000 := ha
    rw [hbmRow_eq]
    omega
  · intro s u h r a bs hr hblock hbs hx hq he hu d hd herr herrs
    subst hd
    exact State.hbmRead_of_hbmWrite hr hblock hbs hx hq he hu herr herrs
  · obtain ⟨hfalse, hhbm⟩ := State.hbmWritePart_of_stopped (bs := bs) hs
    exact ⟨hfalse, by rw [hhbm]⟩
end
